-- ==== Sys2Proof/Word.lean ====
section
/-! DEFINITION. The word types of the block and their plainest arithmetic (R6, R7). -/

namespace Sys2Proof

/-- A register word: every register is 64 bits wide (R7). -/
abbrev Word := BitVec 64

/-- A byte of a memory, a payload or a binary structure (R6). -/
abbrev Byte := BitVec 8

/-- Bits [hi:lo] of a number, as a bit range of R6. -/
def bits (x hi lo : Nat) : Nat := x / 2 ^ lo % 2 ^ (hi + 1 - lo)

/-- Bit `i` of a number. -/
def bit (x i : Nat) : Bool := x / 2 ^ i % 2 == 1

/-- The number whose little-endian bytes are `bs` (R6). -/
def leNat : List Byte → Nat
  | [] => 0
  | b :: bs => b.toNat + 256 * leNat bs

/-- The `n` little-endian bytes of a number (R6). -/
def leBytes : Nat → Nat → List Byte
  | 0, _ => []
  | n + 1, x => BitVec.ofNat 8 x :: leBytes n (x / 256)

/-- A number as a 64-bit word, modulo 2^64. -/
def word (x : Nat) : Word := BitVec.ofNat 64 x

/-- One for true and zero for false. -/
def b2n (b : Bool) : Nat := if b then 1 else 0

/-- The least multiple of `m` that is not below `x`. -/
def roundUp (x m : Nat) : Nat := (x + m - 1) / m * m

/-- The quotient rounded up. -/
def ceilDiv (x m : Nat) : Nat := (x + m - 1) / m

/-- Element `i` of a list of numbers, 0 beyond its end. -/
def nth (l : List Nat) (i : Nat) : Nat := l.getD i 0

/-- A list with element `i` replaced, unchanged where it has no such element. -/
def setNth {α : Type} : List α → Nat → α → List α
  | [], _, _ => []
  | _ :: xs, 0, v => v :: xs
  | x :: xs, n + 1, v => x :: setNth xs n v

end Sys2Proof
end

