-- ==== Sys2Proof/Syntax.lean ====
section
/-! DEFINITION. The commands of the block: one constructor of Instr for each row of the opcode table, in its order, with
the operands that come with it from outside. -/

namespace Sys2Proof

/-- The two devices of the model: the DZ8 unit and the Icnaiz agent block (R1). -/
inductive Site where
  | dz8
  | agent
  deriving DecidableEq, Repr

/-- The data set of an IEEE 1588 Announce message by which the best master clock algorithm selects (R31). -/
structure Master where
  priority1 : Nat
  clockClass : Nat
  accuracy : Nat
  variance : Nat
  priority2 : Nat
  identity : Nat
  stepsRemoved : Nat
  deriving DecidableEq, Repr

/-- A 64-byte cell (R60 to R62): the fields of the header and trailer words and the six payload words.
`crc` is the CRC field as received. -/
structure Cell where
  dst : Nat
  src : Nat
  vc : Nat
  type : Nat
  gen : Nat
  epoch : Nat
  seq : Nat
  flags : Nat
  offset : Nat
  cidx : Nat
  crc : Nat
  payload : List Word
  deriving DecidableEq, Repr

/-- One position of a codeword (R68): a cell, or a control position with its descriptor and seven slots (R70). -/
inductive Position where
  | cell (c : Cell)
  | control (descriptor : Word) (slots : List Word)
  deriving DecidableEq, Repr

/-- A received RS(544,514) codeword (R68): its 544 symbols of 10 bits in the order of transmission. -/
structure Codeword where
  symbols : List Nat
  deriving DecidableEq, Repr

/-- What the completed training stage found (R76, R77, R310); `farLanes` are the good lanes that the far end offers widths on. -/
structure StageResult where
  goodLanes : Nat
  polarity : Nat
  reversed : Bool
  snr : List Nat
  farLanes : Nat
  keyOk : Bool
  peerSecret : Nat
  deriving DecidableEq, Repr

/-- What one chip's RTE_FLIPSTAT shows in a poll round (R116). -/
structure FlipReport where
  fid : Nat
  drained : Bool
  fwd : Nat
  gen : Nat
  deriving DecidableEq, Repr

/-- What a member shows in a void confirm round (R151): its TTB_VOID.SERIAL and whether it committed the step. -/
structure VoidReport where
  fid : Nat
  serial : Nat
  committed : Bool
  deriving DecidableEq, Repr

/-- The congestion counts of one link that an agent reports (R153). -/
structure CongestionCount where
  link : Nat
  late : Nat
  peak : Nat
  hot : Nat
  deriving DecidableEq, Repr

/-- A tile descriptor (R215). -/
structure Descriptor where
  op : Nat
  afmt : Nat
  bfmt : Nat
  dfmt : Nat
  wait : Nat
  next : Nat
  count : Nat
  spaceA : Nat
  addrA : Nat
  spaceB : Nat
  addrB : Nat
  spaceD : Nat
  addrD : Nat
  m : Nat
  n : Nat
  k : Nat
  strideA : Nat
  strideD : Nat
  param : Nat
  signal : Nat
  deriving DecidableEq, Repr

/-- The operations of a sync-window port (R229). -/
inductive SyncOp where
  | read
  | write
  | add
  deriving DecidableEq, Repr

/-- One access of a sync-window port: byte offset, operation and value (R229). -/
structure SyncAccess where
  offset : Nat
  op : SyncOp
  value : Nat
  deriving DecidableEq, Repr

/-- Where the data of an uncorrectable read was going (R225). -/
inductive SramDest where
  | engine (ctx xid : Nat)
  | hostWindow
  | syncWord
  deriving DecidableEq, Repr

/-- The reader of a sector that fails its tag (R248). -/
inductive TagReader where
  | nearMemory (ctx xid : Nat)
  | result (ctx xid : Nat)
  | window (ctx : Nat)
  | vault (ctx : Nat)
  | tileMap (ctx : Nat)
  | dump
  | poste
  deriving DecidableEq, Repr

/-- What one stack reports of its on-die ECC (R239). -/
structure StackReport where
  mdie : Nat
  stack : Nat
  corr : Nat
  uncorr : Nat
  deriving DecidableEq, Repr

/-- The fields of a KEY_RELEASE request (R300). -/
structure KeyReq where
  ctx : Nat
  keyId : Nat
  head : Bool
  pair : Bool
  na : Nat
  nh : Nat
  nf : Nat
  key : Nat
  partner : Nat
  /-- The digests from byte 72 onward. -/
  digests : List Nat
  deriving DecidableEq, Repr

/-- The fields of a VAULT_IMPORT request (R302). -/
structure ImportReq where
  ctx : Nat
  keyId : Nat
  imageId : Nat
  len : Nat
  srcOff : Nat
  vaultOff : Nat
  /-- Offset in the allocation space, none for all ones. -/
  dstOff : Option Nat
  deriving DecidableEq, Repr

/-- When a BEAT word arrives (R41, R72): the BOFS of its control position, and the start of its slot after the receiver's boundary. -/
structure BeatArrival where
  bofs : Nat
  ps : Int
  deriving DecidableEq, Repr

/-- The sending end of a Dovetail edge: the edge, and whether its second die of R16 sends. -/
structure EdgeEnd where
  edge : Nat
  second : Bool
  deriving DecidableEq, Repr

/-- Where an engine fails (R182, R208): its die, and class and engine of CDC_ERR where a codec engine of a C-die failed. -/
structure EnginePlace where
  die : Nat
  codec : Option (Nat × Nat)
  deriving DecidableEq, Repr

/-- The fields of an EVIDENCE message (R303) that the RoT checks. `sigOk` says whether SIG verifies under AGENT_PK. -/
structure Evidence where
  fid : Nat
  update : Bool
  reset : Bool
  tamper : Bool
  nonce : Nat
  agentFw : Nat
  hostFw : Nat
  ek : List Byte
  sigOk : Bool
  deriving DecidableEq, Repr

/-- An agent's certificate chain (R303): whether it verifies, and the SHA-256 of its root public key (R300). -/
structure AgentChain where
  ok : Bool
  anchor : Nat
  deriving DecidableEq, Repr

/-- What the partner's state block and certificates show (R308). -/
structure PartnerState where
  certOk : Bool
  deviceId : Nat
  lifecycle : Nat
  tamper : Bool
  /-- Digests of measurement indices 1 to 5. -/
  digests : List Nat
  /-- The KEY_RELEASE of a record with its OWNER_ID, where the partner is the active unit and sends it. -/
  record : Option (KeyReq × Nat)
  deriving DecidableEq, Repr

/-- What a received Ethernet frame carries (R320, R323). -/
inductive FrameKind where
  | mka
  | neighbour
  | echo
  | ptp
  | beyjo (magic version type : Nat)
  | other
  deriving DecidableEq, Repr

/-- A received Ethernet frame (R321): whether its FCS and, where it is protected, its MACsec tag verify, and its addresses. -/
structure EthFrame where
  fcsOk : Bool
  /-- none: in clear. -/
  macsec : Option Bool
  /-- Destination MAC address, 48 bits. -/
  dst : Nat
  /-- VLAN identifier of its 802.1Q tag, none where it is untagged. -/
  vlan : Option Nat
  /-- IPv6 destination address, 128 bits; 0 for a frame without one. -/
  ip : Nat
  udpPort : Nat
  kind : FrameKind
  deriving DecidableEq, Repr

/-- One operation of a REQUEST (R333). -/
structure BOp where
  opcode : Nat
  count : Nat
  address : Nat
  words : List Word
  deriving DecidableEq, Repr

/-- What one agent reports of one context at a takeover (R432). -/
structure TtbReport where
  ctx : Nat
  state : Nat
  base : Nat
  /-- Next step and iteration. -/
  next : Nat
  iter : Nat
  committed : Nat
  voidSerial : Nat
  parity : Nat
  deriving DecidableEq, Repr

/-- What one agent reports at a takeover (R432). -/
structure AgentReport where
  fid : Nat
  reachable : Bool
  routeGen : Nat
  /-- RTE_FLIPSTAT shows the flip of this serial as applied. -/
  applied : Nat
  /-- Keys held: context and bitmap. -/
  keyCtx : Nat
  keys : Nat
  /-- Its active route table: destination FID and entry (R97). -/
  table : List (Nat × Nat)
  /-- Its active LID map: LID and RTE_MAP_DATA word. -/
  map : List (Nat × Nat)
  ttbs : List TtbReport
  deriving DecidableEq, Repr

/-- A neighbour report (R113, R459): the PRT_NEIGH and PRT_STAT words of one port, and C0 of its PRT_BEATCAP where the report
carries it. -/
structure NeighReport where
  fid : Nat
  port : Nat
  neigh : Nat
  stat : Nat
  cap : Option Nat
  deriving DecidableEq, Repr

/-- What an agent reports of a distribution (R455): the chunks it lacks and its state (0: receiving, 1: VERIFIED, 2: FAILED,
3: activated). -/
structure FwReport where
  fid : Nat
  missing : List Nat
  state : Nat
  deriving DecidableEq, Repr

/-- A KEYWRAP message (R304). -/
structure KeyWrap where
  ctx : Nat
  keyId : Nat
  revoke : Bool
  serial : Nat
  nonce : Nat
  ct : List Byte
  wkey : List Byte
  /-- TAG, its first byte least significant. -/
  tag : Nat
  deriving DecidableEq, Repr

/-- The commands: what the world outside does to the DZ8 unit and to the agent, and the completions of their own engines. -/
inductive Instr where
  /-- REGISTER_WRITE (R8): a 64-bit write of the DZ8 register at local address `addr` (R496). -/
  | registerWrite (addr : Nat) (value : Word)
  /-- TMK_ENABLE_WRITE (R56): a write of TMK_CTRL.ENABLE. -/
  | tmkEnableWrite (enable : Bool)
  /-- TMK_STEP (R50): a write that sets TMK_CTRL.STEP. -/
  | tmkStep
  /-- COUNTER_STEP (R50): the reference second at which a requested step is due begins. -/
  | counterStep
  /-- TMK_PERIOD_NEXT_WRITE (R38): a write of TMK_PERIOD_NEXT with `atSec` and `periodNs`. -/
  | tmkPeriodNextWrite (atSec periodNs : Nat)
  /-- PERIOD_ANNOUNCE_BEGIN (R38): the count stands 256 beats before the second of the pending change. -/
  | periodAnnounceBegin
  /-- PERIOD_CHANGE (R38): the second of the pending change begins. -/
  | periodChange
  /-- PPS_EDGE (R37): a CADENCE_PPS rising edge. `spacingNs` is its distance from the last edge less 1 s,
  `refCycles` the CADENCE_REF count of that second less the nominal count, `edgePs` the position of the edge
  after the timekeeper's own second boundary, in ps, before the correction by TMK_REF_DELAY. -/
  | ppsEdge (spacingNs refCycles edgePs : Int)
  /-- PTP_SYNC (R31): a Sync message of `domain` with its logSyncInterval, the computed offset and the TAI
  second that begins next; `usable` is false for a message the profile of R31 does not accept. -/
  | ptpSync (domain : Nat) (logInterval offsetPs : Int) (taiNs : Nat) (usable : Bool)
  /-- PTP_ANNOUNCE (R31): a received Announce message. -/
  | ptpAnnounce (domain : Nat) (master : Master)
  /-- PPS_MISSING (R47): no edge by 1 µs after the expected second. -/
  | ppsMissing
  /-- CADENCE_REF_LOSS (R47): CADENCE_REF missing for 1 µs or off frequency. -/
  | cadenceRefLoss
  /-- SYNC_TIMEOUT (R47): three Sync intervals without a usable Sync message. -/
  | syncTimeout
  /-- XDOM_UNSAFE (R49): the estimated error exceeds LIMIT_NS. -/
  | xdomUnsafe
  /-- SLEW_CORRECTION (R50): 256 beats of a relock slew have passed. -/
  | slewCorrection
  /-- TOD_ADVANCE (R37): a second boundary of the count in free run. -/
  | todAdvance
  /-- BEAT_BOUNDARY (R39): a beat boundary at the named device. -/
  | beatBoundary (site : Site)
  /-- BEAT_WORD (R41): a beat word received on `port` with its arrival relative to the receiver's own boundary. -/
  | beatWord (site : Site) (port : Nat) (word : Word) (crcOk : Bool) (arrival : BeatArrival)
  /-- BEAT_WORD_MISS (R42): the acceptance window of the agent's selected source closes without a valid word. -/
  | beatWordMiss
  /-- ORPHAN_ENTRY (R51): the window of the fourth word missed from every candidate closes. -/
  | orphanEntry
  /-- ORPHAN_REPORT_REPEAT (R51): 4,096 beats of orphan mode since the last report. -/
  | orphanReportRepeat
  /-- CODEWORD (R69): a received codeword of `port`. -/
  | codeword (site : Site) (port : Nat) (cw : Codeword)
  /-- CREDIT_WORD (R82): a received CREDIT word. -/
  | creditWord (site : Site) (port : Nat) (word : Word)
  /-- SENT_WORD (R83): a received SENT word. -/
  | sentWord (site : Site) (port : Nat) (word : Word)
  /-- PROBE_WORD (R40): a received PROBE word; `turnaroundPs` is the time this end takes to answer. -/
  | probeWord (site : Site) (port : Nat) (word : Word) (turnaroundPs : Nat)
  /-- PROBE_REPLY_WORD (R40): a received PROBE_REPLY word at the local time `nowPs`. -/
  | probeReplyWord (site : Site) (port : Nat) (word : Word) (nowPs : Nat)
  /-- IDENT_WORD (R76): a received IDENT word. -/
  | identWord (site : Site) (port : Nat) (word : Word)
  /-- PERIOD_WORD (R71): a received PERIOD word. -/
  | periodWord (site : Site) (port : Nat) (word : Word)
  /-- FRAME_TAG (R92): the tag of an encrypted frame arrives with its FSEQ and KPH. -/
  | frameTag (site : Site) (port fseq kph tag : Nat)
  /-- TRAIN_STAGE_DONE (R76): the port's present training stage completes. -/
  | trainStageDone (site : Site) (port : Nat) (result : StageResult)
  /-- TRAIN_STAGE_TIMEOUT (R76): the port's present training stage exceeds its limit. -/
  | trainStageTimeout (site : Site) (port : Nat)
  /-- TRAIN_RETRY (R79): 2 s have passed since the failed attempt. -/
  | trainRetry (site : Site) (port : Nat)
  /-- UNPARK (R79): a write that sets PRT_CTRL.UNPARK. -/
  | unpark (site : Site) (port : Nat)
  /-- RETRAIN (R95): a write that sets PRT_CTRL.RETRAIN. -/
  | retrain (site : Site) (port : Nat)
  /-- PORT_DISABLE (R95): a write of PRT_CTRL.DISABLE. -/
  | portDisable (site : Site) (port : Nat) (disable : Bool)
  /-- NO_CORRECTABLE_CODEWORD (R80): 0.8 µs without a correctable codeword. -/
  | noCorrectableCodeword (site : Site) (port : Nat)
  /-- ELECTRICAL_IDLE_DETECT (R80): the receiver detects electrical idle. -/
  | electricalIdleDetect (site : Site) (port : Nat)
  /-- CELL_SEND (R81): a position of `port` is free for the cell at the head of its queue on `vc`. -/
  | cellSend (site : Site) (port vc : Nat)
  /-- CELL_FORWARD (R66): a cell arrives at a hop on `port`. -/
  | cellForward (site : Site) (port : Nat) (cell : Cell)
  /-- ESCAPE_THRESHOLD (R107): the head cell of `vc` has waited `waitedNs` without credit. -/
  | escapeThreshold (site : Site) (port vc waitedNs : Nat)
  /-- DOVETAIL_NAK (R94): a cell that `sender` sent on a Dovetail group is negatively acknowledged. -/
  | dovetailNak (sender : EdgeEnd) (group : Nat) (cell : Cell)
  /-- LINK_KEY_CHANGE (R311): 2^32 frames or 600 s have passed under the present link key. -/
  | linkKeyChange (site : Site) (port : Nat)
  /-- PUT_CELL (R89): a PUT cell at its destination, received on `port`. -/
  | putCell (site : Site) (port : Nat) (cell : Cell)
  /-- RESULT_CELL (R89): a RESULT cell at its destination, received on `port`. -/
  | resultCell (site : Site) (port : Nat) (cell : Cell)
  /-- CONTRIB_CELL (R160): a CONTRIB cell at the DZ8, received on `port`. -/
  | contribCell (port : Nat) (cell : Cell)
  /-- MRSP_CELL (R127): a management response arrives at the DZ8. -/
  | mrspCell (cell : Cell)
  /-- MGMT_TIMEOUT (R127): 2 ms have passed since the transaction's attempt. -/
  | mgmtTimeout (seq : Nat)
  /-- MGMT_RETRY (R127): the transaction's backoff has passed. -/
  | mgmtRetry (seq : Nat)
  /-- ROUTE_COMPUTE (R111): the route engine computes every table of the domain. -/
  | routeCompute
  /-- RTE_CHECK (R112): a write that sets RTE_CTRL.CHECK. -/
  | rteCheck
  /-- RTE_START (R112): a write that sets RTE_CTRL.START; `serials` are the Rod serials of the scope's other units. -/
  | rteStart (serials : List Nat)
  /-- RTE_ABORT (R128): a write that sets RTE_CTRL.ABORT. -/
  | rteAbort
  /-- FLIP_PREPARE_DONE (R118): every chip shows SHADOW_READY. -/
  | flipPrepareDone
  /-- PREP_TIMEOUT (R118): prepare exceeds PREP_MS. -/
  | prepTimeout
  /-- QUIET_ENTRY (R115): beat Q at the named device. -/
  | quietEntry (site : Site)
  /-- POLL_ROUND (R116): a poll round's reports of the other chips of the scope. -/
  | pollRound (reports : List FlipReport)
  /-- FLIP_RECORD_CONFIRM (R123): the write of the flip record is confirmed. -/
  | flipRecordConfirm
  /-- COMMIT_CELL (R119): a received COMMIT. -/
  | commitCell (site : Site) (port : Nat) (cell : Cell)
  /-- ABORT_CELL (R121): a received ABORT. -/
  | abortCell (site : Site) (port : Nat) (cell : Cell)
  /-- FLIP_BEAT (R118): beat F at the named device. -/
  | flipBeat (site : Site)
  /-- FLIP_RESUME (R118): the resume beat at the named device. -/
  | flipResume (site : Site)
  /-- COMMIT_RESEND (R119): F + 8 has passed with chips still on the old generation. -/
  | commitResend (chips : List Nat)
  /-- FLIP_FALLBACK (R120): the drain is not complete by its bound. -/
  | flipFallback
  /-- FALLBACK_RETRY (R120): 2 ms have passed since the fallback. -/
  | fallbackRetry
  /-- SAFE_STATE_ENTRY (R121): the agent has been quiet for SAFE_BEATS. -/
  | safeStateEntry
  /-- TTB_CHECK (R138): a write that sets TTB_CTRL.CHECK of context `ctx`. -/
  | ttbCheck (ctx : Nat)
  /-- TTB_CHECK_DONE (R138): the checker of `ctx` finishes. -/
  | ttbCheckDone (ctx : Nat)
  /-- TTB_ARM (R144): a write that sets TTB_CTRL.ARM. -/
  | ttbArm (ctx : Nat)
  /-- ARM_DEADLINE (R144): beat A − 16; `armed` are the members that show ARMED. -/
  | armDeadline (ctx : Nat) (armed : List Nat)
  /-- ARM_START (R144): beat A at the named device. -/
  | armStart (site : Site) (ctx : Nat)
  /-- TTB_STOP (R146): a write that sets TTB_CTRL.STOP. -/
  | ttbStop (ctx : Nat)
  /-- TTB_DISARM (R154): a write that sets TTB_CTRL.DISARM. -/
  | ttbDisarm (ctx : Nat)
  /-- TTB_VOID (R148): a write that sets TTB_CTRL.VOID. -/
  | ttbVoid (ctx : Nat)
  /-- TTB_UNLOAD (R154): a write that sets TTB_CTRL.UNLOAD. -/
  | ttbUnload (ctx : Nat)
  /-- STEP_BOUNDARY (R132): the boundary of the next step at the named device. -/
  | stepBoundary (site : Site) (ctx : Nat)
  /-- INSTANCE_OPEN (R160): beat B + START_s − 1 of the next step. -/
  | instanceOpen (ctx : Nat)
  /-- EXCHANGE_DEADLINE_CHECK (R147): the boundary after the deadline plus GRACE of exchange `xid`. -/
  | exchangeDeadlineCheck (ctx xid : Nat)
  /-- COUNTER_DEADLINE_CHECK (R147): the boundary after an EXPECT deadline plus GRACE at the agent. -/
  | counterDeadlineCheck (cidx : Nat)
  /-- STEPMISS_CELL (R147): a FAULT cell of class STEPMISS reaches the DZ8. -/
  | stepmissCell (cell : Cell)
  /-- VOID_SEND (R148): the first beat boundary after the home unit learnt of a miss. -/
  | voidSend (ctx : Nat)
  /-- VOID_REPEAT (R148): the next of the two further beats in which the VOID is sent. -/
  | voidRepeat (ctx : Nat)
  /-- VOID_CELL (R150): a received VOID notice. -/
  | voidCell (site : Site) (cell : Cell)
  /-- VOID_CONFIRM_ROUND (R151): a confirm round with what the members show. -/
  | voidConfirmRound (ctx : Nat) (reports : List VoidReport)
  /-- ROLLBACK (R150): beat RB at the named device. -/
  | rollback (site : Site) (ctx : Nat)
  /-- RESTART_BEAT (R150): beat RS at the named device. -/
  | restartBeat (site : Site) (ctx : Nat)
  /-- STEP_COMMIT (R150): beat K_s of the oldest uncommitted step at the named device. -/
  | stepCommit (site : Site) (ctx : Nat)
  /-- CMAP_COLLECT (R153): the agents' congestion counts read after 4,096 beats. -/
  | cmapCollect (ctx : Nat) (counts : List CongestionCount)
  /-- CMAP_CLEAR (R154): a write of TTB_CMAP_SEL with CLEAR = 1. -/
  | cmapClear (ctx : Nat)
  /-- ENERGY_WINDOW (R141): an energy window ends with the measured energy. -/
  | energyWindow (measuredUj : Nat)
  /-- INSTANCE_READY (R160): the engine finishes the output of instance `xid`. -/
  | instanceReady (ctx xid : Nat)
  /-- RESULT_SEND (R161): a beat in which the RESULT entry with image index `entry` may send. -/
  | resultSend (ctx entry : Nat)
  /-- BRANCH_TRANSFER (R162): a complete branch instance sends its branch transfer. -/
  | branchTransfer (ctx xid : Nat)
  /-- ROUTE_COMBINE_STAGE1 (R176): stage 1 of a ROUTE_COMBINE instance completes. -/
  | routeCombineStage1 (ctx xid : Nat)
  /-- ENGINE_ERROR (R182): an engine error of `cls` (R184) during an open instance, at `place`. -/
  | engineError (ctx xid cls : Nat) (place : EnginePlace)
  /-- BLOCK_DECODE (R202): every cell of block `block` of input `input` of the sender `fid` has been counted. -/
  | blockDecode (ctx xid fid input block : Nat)
  /-- BLOCK_ENCODE (R203): block `block` of part `part` of a result buffer is encoded. -/
  | blockEncode (ctx xid part block : Nat)
  /-- CDC_TEST_GO (R207): a write that sets CDC_CTRL.TEST_GO of C-die `die` (0: C0, 1: C1). -/
  | cdcTestGo (die : Nat)
  /-- CDC_TEST_DONE (R207): the block test completes. -/
  | cdcTestDone (die : Nat)
  /-- CDC_GEN_GO (R207): a write that sets CDC_CTRL.GEN_GO. -/
  | cdcGenGo (die : Nat)
  /-- CDC_GEN_DONE (R207): the generator test completes. -/
  | cdcGenDone (die : Nat)
  /-- DESCRIPTOR_START (R217): the sequencer of logical tile `tile` of C-die `die` reads descriptor `index` of the
  chain of instance `xid` and starts it. -/
  | descriptorStart (die tile ctx xid index : Nat) (words : List Word)
  /-- DESCRIPTOR_END (R217): the tile's running descriptor ends. -/
  | descriptorEnd (die tile : Nat)
  /-- SEQUENCER_ERROR (R217): an error of class `cls` (R235) in the tile's chain. -/
  | sequencerError (die tile cls : Nat)
  /-- TILE_FAIL (R220): physical tile `phys` fails with the class `cls` of R235. -/
  | tileFail (die phys cls : Nat)
  /-- TILE_SWAP (R220): the boundary at which absent tiles of `die` take spares; `bad` are spares whose scrub fails. -/
  | tileSwap (die : Nat) (bad : List Nat)
  /-- ENGINE_SWITCH (R272): logical tile `tile` passes to context `ctx` and its scrub begins. -/
  | engineSwitch (die tile ctx : Nat)
  /-- ENGINE_SWITCH_DONE (R272): the tile's scrub ends, read back with the result `ok`, `lateNs` after its descriptor could start. -/
  | engineSwitchDone (die tile : Nat) (ok : Bool) (lateNs : Nat)
  /-- BANK_PROMOTE (R223): a request at a bank of `die` has waited 64 cycles. -/
  | bankPromote (die : Nat)
  /-- SYNC_WINDOW_ACCESS (R229): one cycle of the sync window of `die` with the accesses of its two ports. -/
  | syncWindowAccess (die : Nat) (port0 port1 : Option SyncAccess)
  /-- SYNC_COLLIDE_REPEAT (R230): the cycle after a collision on `die`. -/
  | syncCollideRepeat (die : Nat)
  /-- SRAM_UNCORRECTABLE (R225): an uncorrectable error at `addr` of `die`. -/
  | sramUncorrectable (die addr : Nat) (dest : SramDest)
  /-- SHELF_DENIED (R231): an access of another requester reaches the sealed shelf of `die`. -/
  | shelfDenied (die : Nat)
  /-- SHELF_WIPE (R232): a tamper detection or a lifecycle transition wipes the shelf of `die`. -/
  | shelfWipe (die : Nat)
  /-- SHELF_WIPE_DONE (R232): the wipe of `die` completes. -/
  | shelfWipeDone (die : Nat)
  /-- PGH_RETAIN (R233): a write that sets PGH_CTRL.RETAIN of `die`. -/
  | pghRetain (die : Nat)
  /-- PGH_WAKE (R233): a write that sets PGH_CTRL.WAKE of `die`. -/
  | pghWake (die : Nat)
  /-- PGH_WAKE_DONE (R233): 2 µs have passed since the wake began. -/
  | pghWakeDone (die : Nat)
  /-- PGH_ALLOC_WRITE (R227): an OPERATOR write of PGH_ALLOC of context `ctx` on `die`. -/
  | pghAllocWrite (die ctx : Nat) (value : Word)
  /-- PGH_WIN_ACCESS (R238): a read, or a write of `value`, of word `n` of the PGH window of `ctx`. -/
  | pghWinAccess (ctx n : Nat) (value : Option Word)
  /-- STACK_TRAIN_ATTEMPT (R240): a training attempt of a stack ends. -/
  | stackTrainAttempt (mdie stack : Nat) (ok : Bool) (timeMs failCh : Nat)
  /-- STACK_ERROR_POLL (R239): the stacks' ECC reports read after 100 ms. -/
  | stackErrorPoll (reports : List StackReport)
  /-- SECTOR_TAG_FAIL (R248): a sector fails its tag; `secondOk` is the result of reading it once more. -/
  | sectorTagFail (mdie sector : Nat) (secondOk : Bool) (reader : TagReader)
  /-- VLT_FILL_GO (R248): a write that sets VLT_FILL.GO. -/
  | vltFillGo (ctx : Nat)
  /-- VLT_FILL_DONE (R248): the fill of `ctx` ends. -/
  | vltFillDone (ctx : Nat)
  /-- VLT_REG_WRITE (R245): an OPERATOR write of a region register: of class `k` + 1 of context `ctx`, or with
  `ctx` = 16 the system region `k`. -/
  | vltRegWrite (ctx k : Nat) (value : Word)
  /-- VLT_OPTLAYOUT_WRITE (R251): a write of VLT_OPTLAYOUT. -/
  | vltOptlayoutWrite (ctx : Nat) (value : Word)
  /-- VLT_OPT_SET_WRITE (R252): a write of register `reg` (0: CFG, 1: LRWD, 2: BETA, 3: EPS, 4: PROD) of optimizer set `set`. -/
  | vltOptSetWrite (ctx set reg : Nat) (value : Word)
  /-- VLT_WIN_ACCESS (R263): a read, or a write of `value`, of word `n` of the VLT window of `ctx`. -/
  | vltWinAccess (ctx n : Nat) (value : Option Word)
  /-- MERGE_BLOCK_COMPLETE (R254): every sender's elements of merge block `block` have been added. -/
  | mergeBlockComplete (ctx xid block : Nat)
  /-- SELF_REFRESH_ENTRY (R241): 64 beats after a generation's commit record landed at the standby. -/
  | selfRefreshEntry
  /-- CTX_ASSIGN (R270): a write that sets CTX_CTRL.ASSIGN of `ctx`. -/
  | ctxAssign (ctx : Nat)
  /-- CTX_RELEASE (R274): a write that sets CTX_CTRL.RELEASE of `ctx`. -/
  | ctxRelease (ctx : Nat)
  /-- RELEASE_DRAINED (R274): the begun steps of the released context have ended. -/
  | releaseDrained (ctx : Nat)
  /-- RELEASE_SCRUB_DONE (R275): the Pigeonholes scrub of `ctx` ends after `ns` nanoseconds. -/
  | releaseScrubDone (ctx ns : Nat)
  /-- CRYPTO_ERASE_DONE (R274): the crypto-erase of `ctx` ends after `ns` nanoseconds. -/
  | cryptoEraseDone (ctx ns : Nat)
  /-- RELEASE_COMPLETE (R274): the last of steps 4 to 8 of the release of `ctx` ends. -/
  | releaseComplete (ctx : Nat)
  /-- CTX_BIND (R277): session `index` sets CTX_CTRL.BIND of `ctx`, with TENANT_CLOSED as given. -/
  | ctxBind (index ctx : Nat) (tenantClosed : Bool)
  /-- CTX_SEED_WRITE (R271): a write of CTX_SEED0 (`half` = 0) or CTX_SEED1 (`half` = 1) of `ctx`. -/
  | ctxSeedWrite (ctx half : Nat) (value : Word)
  /-- CTX_MAP_WRITE (R266): a write of CTX_MAP_DATA of `ctx`. -/
  | ctxMapWrite (ctx : Nat) (value : Word)
  /-- GET_VERSION (R292): an SPDM GET_VERSION; `sess` is the SPDM session ID, 0 outside a session, here and below. -/
  | getVersion (sess : Nat)
  /-- GET_CAPABILITIES (R292). -/
  | getCapabilities (sess : Nat)
  /-- NEGOTIATE_ALGORITHMS (R292): `supported` says whether the offer holds every algorithm of R292. -/
  | negotiateAlgorithms (sess : Nat) (supported : Bool)
  /-- GET_DIGESTS (R292). -/
  | getDigests (sess : Nat)
  /-- GET_CERTIFICATE (R293): `len` bytes from `offset` of the chain of `slot`. -/
  | getCertificate (sess slot offset len : Nat)
  /-- CHALLENGE (R292): with the requester's nonce. -/
  | challenge (sess slot nonce : Nat)
  /-- GET_MEASUREMENTS (R294): of `index`, or 0xFF for all, with or without a signature. -/
  | getMeasurements (sess index : Nat) (signed : Bool)
  /-- KEY_EXCHANGE (R292): opens session `id` with the requester's encapsulation key. -/
  | keyExchange (id : Nat) (ek : List Byte)
  /-- FINISH (R292): `macOk` says whether the requester's verify data matches. -/
  | finish (sess : Nat) (macOk : Bool)
  /-- HEARTBEAT (R291). -/
  | heartbeat (sess : Nat)
  /-- KEY_UPDATE (R292). -/
  | keyUpdate (sess : Nat)
  /-- END_SESSION (R297). -/
  | endSession (sess : Nat)
  /-- CHUNK_SEND (R292): chunk `seq` of a large request. -/
  | chunkSend (sess handle seq : Nat) (last : Bool) (data : List Byte)
  /-- CHUNK_GET (R327): chunk `seq` of the large response `handle`. -/
  | chunkGet (sess handle seq : Nat)
  /-- GET_ENCAPSULATED_REQUEST (R292). -/
  | getEncapsulatedRequest (sess : Nat)
  /-- DELIVER_ENCAPSULATED_RESPONSE (R292): `ok` says whether the requester's chain and signature verify, `root` is the
  digest of its root certificate. -/
  | deliverEncapsulatedResponse (sess : Nat) (ok : Bool) (root : Nat)
  /-- SPDM_UNSUPPORTED (R292): a request of an unsupported code. -/
  | spdmUnsupported (sess code : Nat)
  /-- SPDM_SESSION_TIMEOUT (R291): three heartbeat periods of the session missed. -/
  | spdmSessionTimeout (sess : Nat)
  /-- ADMIT (R297): vendor command 0x0001. -/
  | admitSess (sess : Nat)
  /-- SET_CREDENTIAL (R328): vendor command 0x0010 with role (0: OPERATOR, 1: TENANT, 2: SERVICE), context and credential. -/
  | setCredential (sess role ctx cred : Nat)
  /-- KEY_RELEASE (R300): vendor command 0x0002. -/
  | keyRelease (sess : Nat) (req : KeyReq)
  /-- KEY_REVOKE (R309): vendor command 0x0003. -/
  | keyRevoke (sess ctx keyId : Nat)
  /-- VAULT_IMPORT (R302): vendor command 0x0004. -/
  | vaultImport (sess : Nat) (req : ImportReq)
  /-- DELIVER (R305): vendor command 0x0005 for `count` LIDs from `first`. -/
  | deliver (sess ctx keyId first count : Nat)
  /-- KEY_STATUS (R298): vendor command 0x0006 STATUS. -/
  | keyStatus (sess ctx : Nat)
  /-- AK_CERT_SIGNED (R293): the DIK finishes signing the AK certificate after `ms`. -/
  | akCertSigned (ms : Nat)
  /-- GUARDIAN_REPORT (R286): the digests of fuses, serial number and firmware of `die`. -/
  | guardianReport (die fuse serial fw : Nat)
  /-- GUARDIAN_REPORT_MISSING (R286): no report 100 ms after the reset of `die` ended. -/
  | guardianReportMissing (die : Nat)
  /-- EVIDENCE_MESSAGE (R303): an agent's EVIDENCE message with its chain. -/
  | evidenceMessage (ev : Evidence) (chain : AgentChain)
  /-- EVIDENCE_TIMEOUT (R303): 200 ms without evidence for the LID. -/
  | evidenceTimeout (ctx keyId lid : Nat)
  /-- EVIDENCE_RESET_RETRY (R303): 100 ms after evidence that showed RESET. -/
  | evidenceResetRetry (ctx keyId lid : Nat)
  /-- KEYWRAP_CONFIRM_TIMEOUT (R304): 100 ms after a KEYWRAP without confirmation. -/
  | keywrapConfirmTimeout (ctx keyId lid : Nat)
  /-- KEY_REDELIVER (R307): a spare took over the LID, or the reset of its host chip has ended. -/
  | keyRedeliver (ctx lid : Nat)
  /-- PAIR_KEY_RELEASE (R308): the attestation of the partner for a key record ends with what the partner shows. -/
  | pairKeyRelease (ctx keyId : Nat) (partner : PartnerState)
  /-- COMMAND_RESET_WAIT_TIMEOUT (R316): the oldest key command that waits on a die in reset has waited 10 s. -/
  | commandResetWaitTimeout
  /-- NONCE_BINDING_EXPIRY (R306): 1 s after the nonce call for the LID. -/
  | nonceBindingExpiry (ctx lid : Nat)
  /-- DELIVERY_CALL_TIMEOUT (R306): 10 s without a delivery call for the LID. -/
  | deliveryCallTimeout (ctx keyId lid : Nat)
  /-- TAMPER_DETECT (R314): detector `cause` trips (0: SUPPLY, 1: CLOCK, 2: TEMP, 3: MESH, 4: PIN). -/
  | tamperDetect (cause : Nat)
  /-- LCS_SEAL (R313): a write that sets LCS_CTRL.SEAL with the CONFIRM of the same write. -/
  | lcsSeal (confirm : Nat)
  /-- LCS_RETURN (R313): a write that sets LCS_CTRL.RETURN with the CONFIRM of the same write. -/
  | lcsReturn (confirm : Nat)
  /-- ETH_FRAME (R321): a frame received on the host port. -/
  | ethFrame (f : EthFrame)
  /-- MKA_FRAME (R322): an MKA frame of the key server; `sak` is the SAK it distributes, if any. -/
  | mkaFrame (icvOk : Bool) (sak : Option Nat)
  /-- HOST_LINK_LOSS (R321): the link of the host port is lost. -/
  | hostLinkLoss
  /-- BEYJO_SPDM (R327): an SPDM datagram from `src` and `port`. -/
  | beyjoSpdm (src port : Nat)
  /-- BEYJO_OPEN (R329): an OPEN datagram from the source address `src`. -/
  | beyjoOpen (src role ctx notifyPort nh : Nat)
  /-- BEYJO_PROOF (R329): a PROOF datagram with its SESSION field. -/
  | beyjoProof (session proof : Nat)
  /-- CHALLENGE_EXPIRY (R330): an index has been held 2 s without a proof. -/
  | challengeExpiry (index : Nat)
  /-- BEYJO_REQUEST (R332): a REQUEST; `tagOk` says whether its tag verifies under the session key. -/
  | beyjoRequest (session seq : Nat) (tagOk : Bool) (ops : List BOp)
  /-- OP_READ (R333): a READ operation of session `index`. -/
  | opRead (index address count : Nat)
  /-- OP_WRITE (R333): a WRITE operation of session `index`. -/
  | opWrite (index address : Nat) (words : List Word)
  /-- OP_KEEPALIVE (R333): a KEEPALIVE operation of session `index`. -/
  | opKeepalive (index : Nat)
  /-- OP_FILTER (R346): a FILTER operation of session `index`. -/
  | opFilter (index : Nat) (mask : Word)
  /-- NOTIFY_ACK (R345): a NOTIFY_ACK with the highest SEQ received in order. -/
  | notifyAck (session seq : Nat) (tagOk : Bool)
  /-- BEYJO_CLOSE (R331): a CLOSE datagram. -/
  | beyjoClose (session : Nat) (tagOk : Bool)
  /-- SESSION_IDLE_TIMEOUT (R331): 30 s without a valid datagram. -/
  | sessionIdleTimeout (index : Nat)
  /-- BYJ_CLOSE_WRITE (R331): an OPERATOR write of BYJ_CLOSE. -/
  | byjCloseWrite (index : Nat)
  /-- NOTIFY_SEND (R343): the queued records of a session leave in a NOTIFY. -/
  | notifySend (index : Nat)
  /-- NOTIFY_RESEND (R345): a NOTIFY has been unacknowledged for 1 ms. -/
  | notifyResend (index seq : Nat)
  /-- GEN_MODE_WRITE (R347): a write of GEN_MODE. -/
  | genModeWrite (value : Word)
  /-- MSL_SLOT_WRITE (R340): a write of word `w` of mail slot `slot` of session `index`. -/
  | mslSlotWrite (index slot w : Nat) (value : Word)
  /-- MAIL_SCAN (R339): a beat whose count is a multiple of 64. -/
  | mailScan
  /-- MAIL_NOP (R341): the control cluster runs the NOP in a TAKEN slot. -/
  | mailNop (index slot : Nat)
  /-- MAIL_RESERVED (R341): the control cluster meets a reserved code in a TAKEN slot. -/
  | mailReserved (index slot : Nat)
  /-- ROD_LOAD (R459): the control cluster runs the ROD_LOAD in a TAKEN slot. -/
  | rodLoad (index slot : Nat)
  /-- MAIL_DUMP (R391): the control cluster runs the DUMP in a TAKEN slot. -/
  | mailDump (index slot : Nat)
  /-- FW_STAGE (R449): the control cluster runs the FW_STAGE in a TAKEN slot; `sigOk` says whether the container's
  signature verifies, `flashOk` whether the flash write and its read-back succeed. -/
  | fwStage (index slot : Nat) (sigOk flashOk : Bool)
  /-- MAIL_REMAP (R407): the control cluster runs the REMAP in a TAKEN slot. -/
  | mailRemap (index slot : Nat)
  /-- EVIDENCE_PUT (R306): the control cluster runs the EVIDENCE_PUT in a TAKEN slot; `ev` and `chain` are what a
  delivery call's message and chain hold. -/
  | evidencePut (index slot : Nat) (ev : Option Evidence) (chain : AgentChain)
  /-- MAIL_HANDOVER (R436): the control cluster runs the HANDOVER in a TAKEN slot. -/
  | mailHandover (index slot : Nat)
  /-- DETECTOR_EVENT (R360): the detector `source` (R355) of the named device fires at the Postmark `stamp`. -/
  | detectorEvent (site : Site) (source stamp detail : Nat) (ctx : Option Nat)
  /-- EVENT_DECIDE (R364): 256 ns after `stamp` the collector decides the events of that STAMP. -/
  | eventDecide (site : Site) (stamp : Nat)
  /-- FAULT_CELL (R374): a FAULT cell of class EVENT reaches X0. -/
  | faultCell (cell : Cell)
  /-- PG_FAULT_CLEAR (R361): a write of ones to PG_FAULT.RAISED of the page at address `page`. -/
  | pgFaultClear (site : Site) (page : Nat) (mask : Word)
  /-- FLT_CLEAR_FIRST (R363): a write that sets FLT_CTRL.CLEAR_FIRST. -/
  | fltClearFirst (site : Site)
  /-- FLT_CLEAR_LOG (R380): a write that sets FLT_CTRL.CLEAR_LOG. -/
  | fltClearLog (site : Site)
  /-- FLT_CHOICE (R367): a write of FLT_REACT.CHOICE. -/
  | fltChoice (choice : Nat)
  /-- POLICY_WAIT_EXPIRY (R367): WAIT_MS has passed without a choice. -/
  | policyWaitExpiry
  /-- REACTION_WINDOW_END (R371): 10 ms after the reaction started by fault `serial` completed. -/
  | reactionWindowEnd (serial : Nat)
  /-- THERMAL_TRIP (R369): PWR THERMAL trips. -/
  | thermalTrip
  /-- THERMAL_RECOVER (R369): every temperature has been at least 5 °C below its limit for 1 s. -/
  | thermalRecover
  /-- TEMP_SAMPLE (R526): a sample of die sensor `sensor` of `die`, in °C. -/
  | tempSample (die sensor : Nat) (celsius : Int)
  /-- STACK_TEMP_READ (R526): the temperature of a stack, in °C. -/
  | stackTempRead (mdie stack : Nat) (celsius : Int)
  /-- PG_JIG_GO (R375): a write that sets PG_JIG.GO of the page at address `page`. -/
  | pgJigGo (site : Site) (page : Nat)
  /-- JIG_ARM_WRITE (R376): an OPERATOR write of JIG_ARM. -/
  | jigArmWrite (site : Site) (value : Word)
  /-- JIG_ARM_TIMEOUT (R376): TIMEOUT_S seconds after ARM was set. -/
  | jigArmTimeout (site : Site)
  /-- FLT_DLL_CLEAR (R381): a write that sets FLT_DLL_CTRL.CLEAR of X-die `die`. -/
  | fltDllClear (die : Nat)
  /-- WATCHDOG_HANG (R384): the watchdog of block `block` of `die` reaches its threshold. -/
  | watchdogHang (block die : Nat)
  /-- SELF_SNAPSHOT (R385): 1,024 beats since the last self-snapshot of the block. -/
  | selfSnapshot (block die : Nat)
  /-- DUMP_READ_TIMEOUT (R387): the running dump's present read times out after 10 µs. -/
  | dumpReadTimeout
  /-- DUMP_BUDGET_EXPIRY (R388): the running dump reaches BUDGET_MS. -/
  | dumpBudgetExpiry
  /-- AGENT_DUMP (R392): the active unit dumps the agent `fid`; `pages` holds what it read, family, instance and bytes,
  in order, and `failed` says that a transaction then timed out. -/
  | agentDump (fid : Nat) (pages : List (Nat × Nat × List Byte)) (failed : Bool)
  /-- RST_GO (R394): a write that sets RST_CTRL.GO, with the write's BLOCK, DIE and DOMAIN. -/
  | rstGo (block die domain : Nat)
  /-- RESET_COMPLETE (R394): the running reset ends after `us` µs, its check passed or failed. -/
  | resetComplete (checkOk : Bool) (us : Nat)
  /-- HOLD_REARM (R397): every cause of the hold on `ctx` has ended; `restoreEnd` is the beat at which the last reported
  restore time ends and `keyEnd` that of the last key delivery due. -/
  | holdRearm (ctx restoreEnd keyEnd : Nat)
  /-- MEMBER_LOST_LINKS (R400): both links of the member have been down for LOST_MS. -/
  | memberLostLinks (ctx lid : Nat)
  /-- MEMBER_LOST_RESET (R400): the member's host chip has been in reset for RESET_MS. -/
  | memberLostReset (ctx lid : Nat)
  /-- RESTORE_STREAM_END (R490): the chunk counts read at the end of the restore stream to the member. -/
  | restoreStreamEnd (ctx lid : Nat) (counts : List Nat)
  /-- PARWR_CELL (R416): a PARWR cell at the standby. -/
  | parwrCell (cell : Cell)
  /-- PARACK_CELL (R416): a PARACK cell at the active unit. -/
  | parackCell (cell : Cell)
  /-- PARACK_PERIODIC (R416): 64 beats of an open batch at the standby. -/
  | parackPeriodic
  /-- BATCH_RESEND (R416): 256 beats after the LAST cell of a batch not fully acknowledged. -/
  | batchResend
  /-- GENERATION_BEGIN (R418): a generation that is due begins. -/
  | generationBegin
  /-- COMMIT_ACK_TIMEOUT (R417): 256 beats after the commit record without its PARACK. -/
  | commitAckTimeout
  /-- SYNC_MS_EXPIRY (R418): PAR_TIMING.SYNC_MS since the last commit. -/
  | syncMsExpiry
  /-- PAR_SYNC (R440): a write that sets PAR_CTRL.SYNC. -/
  | parSync
  /-- PAR_FULL (R440): a write that sets PAR_CTRL.FULL. -/
  | parFull
  /-- VAULT_MIRROR (R420): the active unit sends the next `n` cells of vault images still to be mirrored. -/
  | vaultMirror (n : Nat)
  /-- RENEW_TIMER (R423): RENEW_MS since the last RENEW. -/
  | renewTimer
  /-- LEASE_RENEW (R423): a RENEW at the referee. -/
  | leaseRenew (site : Site) (cell : Cell)
  /-- LEASE_GRANT (R423): a GRANT at the unit. -/
  | leaseGrant (cell : Cell)
  /-- LEASE_TAKEOVER (R425): a TAKEOVER at the referee. -/
  | leaseTakeover (site : Site) (cell : Cell)
  /-- LEASE_TAKEOVER_GRANT (R433): a TAKEOVER_GRANT at the unit. -/
  | leaseTakeoverGrant (cell : Cell)
  /-- LEASE_REFUSE (R425): a REFUSE at the unit. -/
  | leaseRefuse (cell : Cell)
  /-- LEASE_RELEASE (R437): a RELEASE at the referee. -/
  | leaseRelease (site : Site) (cell : Cell)
  /-- LEASE_MOVE (R427): a MOVE at the alternate referee. -/
  | leaseMove (site : Site) (cell : Cell)
  /-- LEASE_EXPIRY (R424): the beat E_a. -/
  | leaseExpiry
  /-- TAKEOVER_TRIGGER (R425): both LEDGER links are down, or 16 beats without ACTIVE on any of them. -/
  | takeoverTrigger
  /-- REFEREE_STARTING_END (R426): the end of the referee's starting window for `domain`. -/
  | refereeStartingEnd (site : Site) (domain : Nat)
  /-- LEASE_MOVE_TRIGGER (R427): RENEWs unanswered for 3 × RENEW_MS. -/
  | leaseMoveTrigger
  /-- TAKEOVER_RECONCILE (R432): the agents' reports at a takeover; `newTags` and `oldTags` say whether every sector of the
  store that was read for the generation of the commit slot with the higher GEN, and of the other, passes its tag. -/
  | takeoverReconcile (reports : List AgentReport) (newTags oldTags : Bool)
  /-- TAKEOVER_CDIE_READY (R433): the C-dies' power-up and self-test end. -/
  | takeoverCdieReady (ok : Bool)
  /-- TAKEOVER_LOAD_DONE (R433): images, extents and paired records are loaded. -/
  | takeoverLoadDone
  /-- TAKEOVER_REARM (R433): 4,096 beats after the takeover flip is DONE. -/
  | takeoverRearm
  /-- HANDOVER_PAUSED (R437): the last armed timetable has paused. -/
  | handoverPaused
  /-- HANDOVER_PAUSE_TIMEOUT (R436): 2 s without every timetable paused. -/
  | handoverPauseTimeout
  /-- HANDOVER_RELEASE_TIMEOUT (R436): 100 ms without an answer to RELEASE. -/
  | handoverReleaseTimeout
  /-- UNIT_RETURN (R435): a unit returns as STANDBY; at the active unit `partner` is what R3 compares, PART, dies and
  tile clock of the partner, and at the returning unit it is none. -/
  | unitReturn (partner : Option (Nat × Nat × Nat))
  /-- PORST_N_LOW (R441): PORST_N goes low. -/
  | porstNLow
  /-- PORST_N_RELEASE (R442): PORST_N goes high with the straps as given. -/
  | porstNRelease (fsel xspiSafe : Bool)
  /-- SYSRST_N_FALL (R441): SYSRST_N goes low. -/
  | sysrstNFall
  /-- BOOT_READY (R442): the boot ends after `ms` ms; `failed` lists the kinds whose image failed R446 or kept the unit
  from READY in the slot that the boot tried, `dead` says that kind 1 or 2 failed in both slots. -/
  | bootReady (ms : Nat) (failed : List Nat) (dead : Bool)
  /-- TIME_RECORD_RESTART (R444): the timekeeper restarts from the time record; with SRC = 0, `beat` is the BEAT of the
  first valid beat word with HOLD = 0 from a DZ8. -/
  | timeRecordRestart (beat : Option Nat)
  /-- TIME_RECORD_TIMEOUT (R444): 10 s without such a beat word. -/
  | timeRecordTimeout
  /-- FW_DISTRIBUTE (R455): the distribution of the staged kind-6 container begins. -/
  | fwDistribute
  /-- FW_REPAIR_ROUND (R455): a round of bitmap reads. -/
  | fwRepairRound (reports : List FwReport)
  /-- FW_ACTIVATE_SEND (R455): ACTIVATE goes to the verified agents that may take it. -/
  | fwActivateSend
  /-- FW_BEGIN (R454): a BEGIN at an agent. -/
  | fwBegin (cell : Cell)
  /-- FW_DATA (R454): a DATA chunk at an agent; `sigOk` says whether the whole container's signature verifies. -/
  | fwData (cell : Cell) (sigOk : Bool)
  /-- FW_ACTIVATE (R454): an ACTIVATE at an agent. -/
  | fwActivate (cell : Cell)
  /-- FW_ACTIVATE_AT (R455): beat A at the agent. -/
  | fwActivateAt
  /-- FW_ABORT (R455): an ABORT at the agent, or sent by the unit. -/
  | fwAbort (site : Site) (cell : Cell)
  /-- ROD_COMPARE (R458): the comparison of the Rod with the neighbour reports of the agents. -/
  | rodCompare (reports : List NeighReport)
  /-- ROD_SILENT_TIMEOUT (R458): 200 ms without a report from the Rod chip `fid`. -/
  | rodSilentTimeout (fid : Nat)
  /-- CPWR_GOOD_TIMEOUT (R521): CPWR_GOODc missing 20 ms after the rise of CPWR_ENc. -/
  | cpwrGoodTimeout (c : Nat)
  /-- CPWR_GOOD_CHANGE (R521): CPWR_GOODc goes to `high`. -/
  | cpwrGoodChange (c : Nat) (high : Bool)
  /-- RAIL_OUT_OF_WINDOW (R518): rail `rail` of R518 (0: VDD_AON in table order to 11: VDDQ_HBM), measured by `die` as its
  PWR rail index `n`, has been outside ±4 % for 1 µs, or outside its tamper window. -/
  | railOutOfWindow (rail die n mv : Nat) (tamper : Bool)
  /-- PWR_BUDGET_WRITE (R524): a write of PWR_BUDGET. -/
  | pwrBudgetWrite (value : Word)
  /-- PG_LOCK_WRITE (R506): a write of PG_LOCK of the page at address `page`. -/
  | pgLockWrite (site : Site) (page : Nat) (value : Word)
  /-- AGENT_TARGET_WRITE (R472): a target-bus write of the agent register at local address `addr`. -/
  | agentTargetWrite (addr : Nat) (value : Word)
  /-- IA_PORST_N (R466): IA_PORST_N goes low. -/
  | iaPorstN
  /-- IA_TAMPER_N (R466): IA_TAMPER_N has been low for 1 µs. -/
  | iaTamperN
  /-- AGENT_FID_WRITE (R470): a local write of GEN_FID. -/
  | agentFidWrite (value : Word)
  /-- AGENT_FW_GO (R475): a write of GEN_FW.GO; `sigOk` says whether the container's signature verifies. -/
  | agentFwGo (sigOk : Bool)
  /-- MREQ_READ (R473): an MREQ with OP READ, or with a reserved OP. -/
  | mreqRead (cell : Cell)
  /-- MREQ_WRITE (R473): an MREQ with OP WRITE. -/
  | mreqWrite (cell : Cell)
  /-- ORPHAN_CELL (R477): an ORPHAN cell at the standby or the referee. -/
  | orphanCell (site : Site) (cell : Cell)
  /-- AGENT_ARM (R480): TTB_CTRL.ARM is set at the agent. -/
  | agentArm
  /-- AGENT_DISARM (R481): TTB_CTRL.DISARM is set at the agent. -/
  | agentDisarm
  /-- TTB_LLEN_WRITE (R483): a write of the agent's TTB_LLEN. -/
  | ttbLlenWrite (value : Word)
  /-- TTB_EVT_READ (R482): a read of TTB_EVT. -/
  | ttbEvtRead
  /-- CDC_JOB_GO (R484): a local write that sets CDC_JOB_CTRL.GO. -/
  | cdcJobGo
  /-- CDC_JOB_DONE (R484): the codec unit's job ends; `bufferOk` is false when a buffer-port access was answered with B_ERR. -/
  | cdcJobDone (bufferOk : Bool)
  /-- MEAS_START (R485): FRK_CTRL.MEAS_START is set. -/
  | measStart
  /-- MEAS_IN_WRITE (R485): a write of FRK_MEAS_IN. -/
  | measInWrite (value : Word)
  /-- MEAS_DONE (R485): FRK_CTRL.MEAS_DONE is set. -/
  | measDone
  /-- CERT_LOCK (R486): FRK_CTRL.CERT_LOCK is set. -/
  | certLock
  /-- EVREQ_GO (R486): FRK_EVREQ.GO is set by the unit `requester`. -/
  | evreqGo (requester : Nat)
  /-- EVIDENCE_FORMED (R486): the agent finishes signing its evidence. -/
  | evidenceFormed
  /-- DECAP_KEY_EXPIRY (R486): 1 s after the evidence. -/
  | decapKeyExpiry
  /-- KEYWRAP_CELL (R487): the last cell of a KEYWRAP message at the agent. -/
  | keywrapCell (kw : KeyWrap)
  /-- KEY_SIDEBAND_ACK (R487): the host chip answers K_ACK or K_NACK. -/
  | keySidebandAck (ack : Bool)
  /-- KEY_SIDEBAND_TIMEOUT (R487): 1 µs after K_LAST without an answer. -/
  | keySidebandTimeout
  /-- AGENT_RST_GO (R489): a remote write that sets RST_CTRL.GO. -/
  | agentRstGo (domain block : Nat)
  /-- RST_REQ_GO (R489): a local write that sets RST_REQ.GO. -/
  | rstReqGo (domain block : Nat)
  /-- HC_RESET_HOLD_END (R489): HOLD_US after the lines were asserted. -/
  | hcResetHoldEnd
  /-- HC_RST_DONE (R489): HC_RST_DONE goes high. -/
  | hcRstDone
  /-- HC_DONE_TIMEOUT (R489): DONE_MS without HC_RST_DONE. -/
  | hcDoneTimeout
  /-- RESTORE_CELL (R490): a PUT cell from a DZ8; `bErr` says that the buffer port answered B_ERR. -/
  | restoreCell (cell : Cell) (bErr : Bool)
  /-- RCHUNK_CLEAR (R483): a write that sets TTB_RCHUNK.CLEAR. -/
  | rchunkClear
  /-- RSTAT_END (R490): a write that sets TTB_RSTAT.END. -/
  | rstatEnd
  /-- BUFFER_ERROR (R468): the write of a cell at counter `cidx` is answered with B_ERR. -/
  | bufferError (cidx : Nat)
  /-- DUMP_COMPLETE (R394): the dump engine finishes its regions after `us` µs. -/
  | dumpComplete (us : Nat)
  /-- IA_PORST_N_RELEASE (R470): IA_PORST_N goes high with B_CLK measured at `bclkMhz` MHz. -/
  | iaPorstNRelease (bclkMhz : Nat)
  /-- RAIL_WINDOW_ENTRY (R520): board rail `rail` of R518 enters its window for the first time. -/
  | railWindowEntry (rail : Nat)
  /-- HOST_LINK_UP (R321): the link of the host port comes up. -/
  | hostLinkUp
  /-- SIGNATURE_DONE (R290): the franking engine finishes its present signature after `us` µs. -/
  | signatureDone (us : Nat)
  /-- VAULT_IMPORT_DONE (R302): the vault engine ends the running import of context `ctx`. -/
  | vaultImportDone (ctx : Nat)
  /-- STANDBY_WARM_DONE (R437): the standby reports that it is warm. -/
  | standbyWarmDone
  /-- TAKEOVER_REQUEST_REPEAT (R425): the time of the next TAKEOVER request. -/
  | takeoverRequestRepeat
  deriving DecidableEq, Repr

end Sys2Proof
end

