-- ==== Sys2Proof/Config.lean ====
section
/-! DEFINITION. What an implementation fixes and the spec leaves open: constants without a body, so that no proof can use a value of theirs. -/

namespace Sys2Proof.Config

/-- A value the spec leaves open, one for each count of State's `freeCtr` (log entry 5). -/
opaque freeNat : Nat → Nat

/-- The FP32 result, as a bit pattern, of an operation the spec states no result for, such as the logarithm of 0
(R163, log entry 6): operation, first and second operand. -/
opaque unstatedFp : Nat → Nat → Nat → BitVec 32

/-- Whether an IEEE 1588 clockClass is traceable (R47, log entry 7). -/
opaque traceable : Nat → Bool

/-- The time from a beat boundary to the BEAT slot in units of 1/8 ns, by port and beat (R72, log entry 132). -/
opaque slotOffset : Nat → Nat → Nat

/-- The data wires that training replaces in a group, by edge and group, in the layout of DVT_REPAIR (R93, R96, log entry 125). -/
opaque spareWires : Nat → Nat → Nat

/-- The export master secret of an SPDM session (DSP0274, R288): the ML-KEM shared secret and the session (log entry 8). -/
opaque exportSecret : Nat → Nat → Nat

/-- The 32 bytes of the device root secret, which fuses hold (R287). -/
opaque drs : List Byte

/-- Whether an SLH-DSA signature verifies: public key, message, signature (FIPS 205, R5, log entry 8). -/
opaque slhVerify : Nat → List Byte → List Byte → Bool

/-- The SLH-DSA signature of a message under a key (FIPS 205, R5, log entry 8). -/
opaque slhSign : Nat → List Byte → List Byte

/-- ML-KEM encapsulation: public key and randomness to ciphertext and secret (log entry 8). -/
opaque kemEncap : List Byte → Nat → List Byte × Nat

/-- ML-KEM decapsulation: private key and ciphertext to secret (log entry 8). -/
opaque kemDecap : Nat → List Byte → Nat

/-- The certificate chain of slot 0 for the seed of the AK in force (R293, log entry 8). -/
opaque certChain : Nat → List Byte

/-- What GEN_BUILD of the agent reads as: the spec names its content and gives no layout (R465, log entry 37). -/
opaque agentBuild : Nat

/-- The 32 bytes of the agent's fused SLH-DSA-SHA2-128f public key (R464, R472, log entry 8). -/
opaque agentPk : List Byte

/-- The ML-KEM-1024 encapsulation key of a fresh key pair, by its number (R486, log entry 8). -/
opaque kemEk : Nat → List Byte

end Sys2Proof.Config
end

