-- ==== Sys2Proof/Machine/Float.lean ====
section
/-! DEFINITION. Number formats, rounding, the exact accumulator and the real functions of the collective engine (R163 to R172). -/

namespace Sys2Proof.Machine

/-- A binary floating-point format: precision, least and largest exponent, width (R166). -/
structure Fmt where
  p : Nat
  emin : Int
  emax : Int
  width : Nat
  deriving DecidableEq, Repr

/-- FP32 (R163, R166). -/
def fp32 : Fmt := ⟨24, -126, 127, 32⟩
/-- BF16 (R163, R166). -/
def bf16 : Fmt := ⟨8, -126, 127, 16⟩
/-- FP16 (R163, R166). -/
def fp16 : Fmt := ⟨11, -14, 15, 16⟩

/-- The pattern of the format's infinity without its sign. -/
def Fmt.inf (f : Fmt) : Nat := (f.emax - f.emin + 2).toNat * 2 ^ (f.p - 1)
/-- The sign bit of the format. -/
def Fmt.sign (f : Fmt) : Nat := 2 ^ (f.width - 1)
/-- The canonical NaN of the format (R163). -/
def Fmt.nan (f : Fmt) : Nat := f.inf + 2 ^ (f.p - 2)

/-- Sign bit of a pattern. -/
def Fmt.neg (f : Fmt) (x : Nat) : Bool := bit x (f.width - 1)
/-- Magnitude part of a pattern. -/
def Fmt.mag (f : Fmt) (x : Nat) : Nat := x % f.sign
/-- A NaN pattern. -/
def Fmt.isNan (f : Fmt) (x : Nat) : Bool := f.mag x > f.inf
/-- An infinity pattern. -/
def Fmt.isInf (f : Fmt) (x : Nat) : Bool := f.mag x == f.inf
/-- A zero pattern of either sign. -/
def Fmt.isZero (f : Fmt) (x : Nat) : Bool := f.mag x == 0
/-- A pattern with the sign `n`. -/
def Fmt.signed (f : Fmt) (n : Bool) (m : Nat) : Nat := if n then f.sign + m else m

/-- Magnitude of a finite pattern in units of the format's least subnormal. -/
def Fmt.units (f : Fmt) (x : Nat) : Nat :=
  let m := f.mag x
  let e := m / 2 ^ (f.p - 1)
  let frac := m % 2 ^ (f.p - 1)
  if e == 0 then frac else (frac + 2 ^ (f.p - 1)) * 2 ^ (e - 1)

/-- Exponent of the format's least subnormal. -/
def Fmt.ulp (f : Fmt) : Int := f.emin - (f.p - 1)

/-- The format's value nearest to `num / den × 2^e` with the sign `n`, ties to even, subnormals kept, overflow to
infinity (R163, R166): `t` is the exponent of the value, `q` the weight of its last kept bit. -/
def Fmt.round (f : Fmt) (n : Bool) (num den : Nat) (e : Int) : Nat :=
  if num == 0 || den == 0 then f.signed n 0 else
  let k : Int := (Nat.log2 num : Int) - (Nat.log2 den : Int)
  let ge := if k < 0 then num * 2 ^ (-k).toNat ≥ den else num ≥ den * 2 ^ k.toNat
  let t := (if ge then k else k - 1) + e
  let q := max t f.emin - (f.p - 1)
  let sh := e - q
  let a := if sh < 0 then num else num * 2 ^ sh.toNat
  let d := if sh < 0 then den * 2 ^ (-sh).toNat else den
  let n0 := a / d
  let r := a % d
  let n1 := if 2 * r > d || (2 * r == d && n0 % 2 == 1) then n0 + 1 else n0
  let code := (q - f.ulp).toNat * 2 ^ (f.p - 1) + n1
  f.signed n (min code f.inf)

/-- The format's value nearest to a signed integer times `2^e`; `z` is the sign of an exact zero. -/
def Fmt.roundInt (f : Fmt) (z : Bool) (v e : Int) : Nat :=
  if v == 0 then f.signed z 0 else f.round (v < 0) v.natAbs 1 e

/-- Signed units of a finite FP32 pattern, in 2^-149 (R164). -/
def units32 (x : Nat) : Int := if fp32.neg x then -(fp32.units x : Int) else fp32.units x

/-- A value of a narrower or equal format as FP32, exactly; a NaN becomes the canonical NaN (R163). -/
def toFp32 (f : Fmt) (x : Nat) : Nat :=
  if f.isNan x then fp32.nan
  else if f.isInf x then fp32.signed (f.neg x) fp32.inf
  else fp32.round (f.neg x) (f.units x) 1 f.ulp

/-- An FP32 value brought to a format by one rounding (R167). -/
def fromFp32 (f : Fmt) (x : Nat) : Nat :=
  if fp32.isNan x then f.nan
  else if fp32.isInf x then f.signed (fp32.neg x) f.inf
  else f.round (fp32.neg x) (fp32.units x) 1 fp32.ulp

/-- FP32 product with one rounding. -/
def fpMul (x y : Nat) : Nat :=
  let n := fp32.neg x != fp32.neg y
  if fp32.isNan x || fp32.isNan y then fp32.nan
  else if fp32.isInf x || fp32.isInf y then
    if fp32.isZero x || fp32.isZero y then fp32.nan else fp32.signed n fp32.inf
  else fp32.round n (fp32.units x * fp32.units y) 1 (-298)

/-- FP32 `x × y + z` with one rounding (R170 FMA). -/
def fpFma (x y z : Nat) : Nat :=
  let n := fp32.neg x != fp32.neg y
  if fp32.isNan x || fp32.isNan y || fp32.isNan z then fp32.nan
  else if fp32.isInf x || fp32.isInf y then
    if fp32.isZero x || fp32.isZero y then fp32.nan
    else if fp32.isInf z && fp32.neg z != n then fp32.nan
    else fp32.signed n fp32.inf
  else if fp32.isInf z then fp32.signed (fp32.neg z) fp32.inf
  else
    let v := units32 x * units32 y + units32 z * 2 ^ 149
    fp32.roundInt (n && fp32.neg z) v (-298)

/-- FP32 sum with one rounding. -/
def fpAdd (x y : Nat) : Nat :=
  if fp32.isNan x || fp32.isNan y then fp32.nan
  else if fp32.isInf x then
    if fp32.isInf y && fp32.neg x != fp32.neg y then fp32.nan else fp32.signed (fp32.neg x) fp32.inf
  else if fp32.isInf y then fp32.signed (fp32.neg y) fp32.inf
  else fp32.roundInt (fp32.neg x && fp32.neg y) (units32 x + units32 y) (-149)

/-- The pattern with its sign turned. -/
def fpNeg (x : Nat) : Nat := fp32.signed (!fp32.neg x) (fp32.mag x)

/-- FP32 difference with one rounding. -/
def fpSub (x y : Nat) : Nat := if fp32.isNan y then fp32.nan else fpAdd x (fpNeg y)

/-- Codes by which a result without a statement in the spec is named in `Config.unstatedFp` (log entry 6). -/
def unstated (op x y : Nat) : Nat := (Config.unstatedFp op x y).toNat

/-- FP32 quotient with one rounding; a zero divisor and two infinities as in IEEE 754-2019 (R163; log entry 6). -/
def fpDiv (x y : Nat) : Nat :=
  let n := fp32.neg x != fp32.neg y
  if fp32.isNan x || fp32.isNan y then fp32.nan
  else if (fp32.isZero x && fp32.isZero y) || (fp32.isInf x && fp32.isInf y) then fp32.nan
  else if fp32.isInf x || fp32.isZero y then fp32.signed n fp32.inf
  else if fp32.isInf y then fp32.signed n 0
  else fp32.round n (fp32.units x) (fp32.units y) 0

/-- Integer square root of `x` by `fuel` binary digits. -/
def isqrtAux (x : Nat) : Nat → Nat → Nat
  | 0, r => r
  | k + 1, r =>
    let c := r + 2 ^ k
    isqrtAux x k (if c * c ≤ x then c else r)

/-- Integer square root. -/
def isqrt (x : Nat) : Nat := isqrtAux x (Nat.log2 x / 2 + 1) 0

/-- The format's nearest value to the square root of `num / den × 2^e`, with `e` even: 64 guard bits and a sticky bit decide. -/
def Fmt.sqrtRat (f : Fmt) (num den : Nat) (e : Int) : Nat :=
  let s := 160 + 2 * Nat.log2 den
  let s2 := s + s % 2
  let v := num * 2 ^ (2 * s2) / den
  let r := isqrt v
  let sticky := if r * r == v && v * den == num * 2 ^ (2 * s2) then 0 else 1
  f.round false (2 * r + sticky) 2 (e / 2 - s2)

/-- FP32 square root (R172 SOP 4); of a negative value as in IEEE 754-2019 (R163; log entry 6). -/
def fpSqrt (x : Nat) : Nat :=
  if fp32.isNan x then fp32.nan
  else if fp32.isZero x then x
  else if fp32.neg x then fp32.nan
  else if fp32.isInf x then x
  else fp32.sqrtRat (fp32.units x * 2) 1 (-150)

/-- FP32 reciprocal square root (R172 SOP 5); of a zero and of a negative value as in IEEE 754-2019 (R163; log entry 6). -/
def fpRsqrt (x : Nat) : Nat :=
  if fp32.isNan x then fp32.nan
  else if fp32.isZero x then fp32.signed (fp32.neg x) fp32.inf
  else if fp32.neg x then fp32.nan
  else if fp32.isInf x then 0
  else fp32.sqrtRat 1 (fp32.units x * 2) 150

/-- FP32 reciprocal (R172 SOP 6). -/
def fpRcp (x : Nat) : Nat := fpDiv 0x3F800000 x

/-- Order of FP32 values, −0 below +0 (R167); a NaN lies beyond the infinity of its sign, which only the sorts of R174 and R176 ask
(DESIGN CHOICE, log entry 139). -/
def fpKey (x : Nat) : Int := if fp32.neg x then -(fp32.mag x : Int) - 1 else fp32.mag x

/-- The larger of two values, NaN if either is one (R167). -/
def fpMax (x y : Nat) : Nat :=
  if fp32.isNan x || fp32.isNan y then fp32.nan else if fpKey x < fpKey y then y else x

/-- The smaller of two values, NaN if either is one (R167). -/
def fpMin (x y : Nat) : Nat :=
  if fp32.isNan x || fp32.isNan y then fp32.nan else if fpKey y < fpKey x then y else x

/-- `x < y` for values that are no NaN; ±0 are equal. -/
def fpLt (x y : Nat) : Bool :=
  !fp32.isNan x && !fp32.isNan y &&
    (if fp32.isZero x && fp32.isZero y then false else fpKey x < fpKey y)

/-- `x ≥ y`; false where either is a NaN. -/
def fpGe (x y : Nat) : Bool := !fp32.isNan x && !fp32.isNan y && !fpLt x y

/-! ### The real functions of R172, by fixed point of 640 fractional bits (log entry 9). -/

/-- Scale of the fixed-point values. -/
def fxOne : Int := 2 ^ 640

/-- Fixed-point product. -/
def fxMul (x y : Int) : Int := x * y / fxOne

/-- Fixed-point quotient. -/
def fxDiv (x y : Int) : Int := if y == 0 then 0 else x * fxOne / y

/-- A finite FP32 value in fixed point, exactly. -/
def fxOf (x : Nat) : Int := units32 x * 2 ^ 491

/-- The FP32 value nearest to a fixed-point value; a zero takes the sign `z`. -/
def fxRound (z : Bool) (v : Int) : Nat := fp32.roundInt z v (-640)

/-- Sum of the terms of the exponential series from the term `t` with index `k`. -/
def expTerms (y : Int) : Nat → Nat → Int → Int
  | 0, _, _ => 0
  | n + 1, k, t => t + expTerms y n (k + 1) (fxMul t y / (k + 1))

/-- `n` squarings. -/
def fxSquare : Nat → Int → Int
  | 0, v => v
  | n + 1, v => fxSquare n (fxMul v v)

/-- Exponential of a fixed-point value of magnitude below 128. -/
def fxExp (x : Int) : Int := fxSquare 8 (expTerms (x / 256) 100 0 fxOne)

/-- Sum of `z^(2i+1)/(2i+1)`. -/
def atanhTerms (z2 : Int) : Nat → Nat → Int → Int
  | 0, _, _ => 0
  | n + 1, i, t => t / (2 * i + 1) + atanhTerms z2 n (i + 1) (fxMul t z2)

/-- Natural logarithm of `num / den` for a quotient in [1, 2). -/
def fxLogM (num den : Int) : Int :=
  let z := fxDiv (num - den) (num + den)
  2 * atanhTerms (fxMul z z) 210 0 z

/-- Natural logarithm of 2. -/
def fxLn2 : Int := fxLogM 2 1

/-- Natural logarithm of a positive FP32 value. -/
def fxLog (x : Nat) : Int :=
  let u := fp32.units x
  let k := Nat.log2 u
  fxLogM u (2 ^ k) + ((k : Int) - 149) * fxLn2

/-- Alternating series of the arctangent of `1/q`. -/
def atanInv (q : Int) : Nat → Nat → Int → Int
  | 0, _, _ => 0
  | n + 1, i, t => (if i % 2 == 0 then t / (2 * i + 1) else -(t / (2 * i + 1))) + atanInv q n (i + 1) (t / (q * q))

/-- The number π by Machin's formula. -/
def fxPi : Int := 4 * (4 * atanInv 5 150 0 (fxOne / 5) - atanInv 239 60 0 (fxOne / 239))

/-- Alternating series of the normal distribution function about 0. -/
def phiTerms (x2 : Int) : Nat → Nat → Int → Int
  | 0, _, _ => 0
  | n + 1, k, t =>
    (if k % 2 == 0 then t / (2 * k + 1) else -(t / (2 * k + 1))) + phiTerms x2 n (k + 1) (fxMul t x2 / (2 * (k + 1)))

/-- Normal distribution function Φ of a fixed-point value of magnitude below 16. -/
def fxPhi (x : Int) : Int :=
  let s := (isqrt (2 * fxPi * fxOne).toNat : Int)
  fxOne / 2 + fxDiv (phiTerms (fxMul x x) 900 0 x) s

/-- `e^x / (1 + e^x)`. -/
def fxSigmoid (x : Int) : Int := let e := fxExp x; fxDiv e (fxOne + e)

/-- The FP32 pattern of 1. -/
def fpOne : Nat := 0x3F800000

/-- Whether the magnitude of a value is at least the integer `n`. -/
def magGe (x n : Nat) : Bool := fp32.units x ≥ n * 2 ^ 149

/-- `e^x` (R172). -/
def fpExp (x : Nat) : Nat :=
  if fp32.isNan x then fp32.nan
  else if fp32.isInf x || magGe x 120 then (if fp32.neg x then 0 else fp32.inf)
  else fxRound false (fxExp (fxOf x))

/-- Natural logarithm (R172); of a zero and of a negative value as in IEEE 754-2019 (R163; log entry 6). -/
def fpLog (x : Nat) : Nat :=
  if fp32.isNan x then fp32.nan
  else if fp32.isZero x then fp32.signed true fp32.inf
  else if fp32.neg x then fp32.nan
  else if fp32.isInf x then x
  else fxRound false (fxLog x)

/-- Hyperbolic tangent (R172). -/
def fpTanh (x : Nat) : Nat :=
  if fp32.isNan x then fp32.nan
  else if fp32.isZero x then x
  else if fp32.isInf x || magGe x 32 then fp32.signed (fp32.neg x) fpOne
  else
    let e := fxExp (2 * fxOf x)
    fxRound (fp32.neg x) (fxDiv (e - fxOne) (e + fxOne))

/-- Sigmoid (R172). -/
def fpSigmoid (x : Nat) : Nat :=
  if fp32.isNan x then fp32.nan
  else if fp32.isInf x || magGe x 120 then (if fp32.neg x then 0 else fpOne)
  else fxRound false (fxSigmoid (fxOf x))

/-- A product form `x × g(x)` whose factor tends to 0 below and to 1 above, beyond the magnitude `n`. -/
def gated (n : Nat) (g : Int → Int) (x : Nat) : Nat :=
  if fp32.isNan x then fp32.nan
  else if fp32.isInf x && fp32.neg x then unstated 5 x 0
  else if fp32.isInf x || magGe x n then (if fp32.neg x then fp32.signed true 0 else x)
  else fxRound (fp32.neg x) (fxMul (fxOf x) (g (fxOf x)))

/-- SiLU (R172). -/
def fpSilu (x : Nat) : Nat := gated 120 fxSigmoid x

/-- GELU, erf form (R172). -/
def fpGeluErf (x : Nat) : Nat := gated 16 fxPhi x

/-- GELU, tanh form (R172): `0.5 (1 + tanh u)` is `sigmoid(2u)`. -/
def fpGeluTanh (x : Nat) : Nat :=
  gated 12 (fun v =>
    let u := (v + fxMul (fxMul v v) v * 44715 / 1000000) * 7978845608 / 10000000000
    fxSigmoid (2 * u)) x

/-- ACT f(x) of R172; the selector 7 and above names no function. -/
def actFn (imm x : Nat) : Nat :=
  match imm with
  | 0 => if fp32.isNan x then fp32.nan else fpMax x 0
  | 1 => fpGeluTanh x
  | 2 => fpGeluErf x
  | 3 => fpSilu x
  | 4 => fpSigmoid x
  | 5 => fpTanh x
  | 6 => fpExp x
  | n => unstated (16 + n) x 0

/-- SOP g(a, b) of R172; the selector 11 and above names no function. -/
def sopFn (imm a b : Nat) : Nat :=
  match imm with
  | 0 => fpAdd a b
  | 1 => fpSub a b
  | 2 => fpMul a b
  | 3 => fpDiv a b
  | 4 => fpSqrt a
  | 5 => fpRsqrt a
  | 6 => fpRcp a
  | 7 => fpMax a b
  | 8 => fpMin a b
  | 9 => fpExp a
  | 10 => fpLog a
  | n => unstated (64 + n) a b

/-! ### The exact sum -/

/-- An exact accumulator: a 320-bit two's complement integer, in units of 2^-149, and four flags (R164). -/
structure Acc where
  a : Int
  nan : Bool
  pinf : Bool
  ninf : Bool
  nz : Bool
  deriving DecidableEq, Repr

/-- The accumulator of an opening instance (R164). -/
def Acc.zero : Acc := ⟨0, false, false, false, false⟩

/-- The integer brought into 320-bit two's complement (R164). -/
def wrap320 (a : Int) : Int := (a + 2 ^ 319) % 2 ^ 320 - 2 ^ 319

/-- One FP32 contribution enters (R164). -/
def Acc.add (c : Acc) (x : Nat) : Acc :=
  let s := fp32.neg x
  let nz := c.nz || !(s && fp32.isZero x)
  if fp32.isNan x then { c with nan := true, nz := nz }
  else if fp32.isInf x then
    if s then { c with ninf := true, nz := nz } else { c with pinf := true, nz := nz }
  else { c with a := wrap320 (c.a + units32 x), nz := nz }

/-- Two accumulators merge (R165). -/
def Acc.merge (c d : Acc) : Acc :=
  ⟨wrap320 (c.a + d.a), c.nan || d.nan, c.pinf || d.pinf, c.ninf || d.ninf, c.nz || d.nz⟩

/-- The accumulator over `m`, rounded once to a format (R166, and R167 for the mean; `m` = 1 for the sum). -/
def Acc.roundDiv (c : Acc) (f : Fmt) (m : Nat) : Nat :=
  if c.nan || (c.pinf && c.ninf) then f.nan
  else if c.pinf then f.inf
  else if c.ninf then f.signed true f.inf
  else if c.a == 0 then f.signed (!c.nz) 0
  else f.round (c.a < 0) c.a.natAbs m (-149)

/-- The accumulator rounded once to a format (R166). -/
def Acc.roundOut (c : Acc) (f : Fmt) : Nat := c.roundDiv f 1

/-- Exact sum of FP32 values, rounded once to a format (R164 to R166). -/
def exactSumTo (f : Fmt) (xs : List Nat) : Nat := (xs.foldl Acc.add Acc.zero).roundOut f

/-- Exact sum of FP32 values (R164 to R166), rounded to FP32. -/
def exactSum (xs : List Nat) : Nat := exactSumTo fp32 xs

/-- Exact sum of products of FP32 values, rounded once to FP32 (R176, R213); an empty or zero sum is +0 unless every product is −0. -/
def exactDot (xs ys : List Nat) : Nat :=
  let ps := xs.zip ys
  let anyNan := ps.any fun (x, y) => fp32.isNan (fpMul x y)
  let inf (n : Bool) := ps.any fun (x, y) =>
    (fp32.isInf x || fp32.isInf y) && !(fp32.isNan (fpMul x y)) && (fp32.neg x != fp32.neg y) == n
  if anyNan || (inf true && inf false) then fp32.nan
  else if inf false then fp32.inf
  else if inf true then fp32.signed true fp32.inf
  else
    let v := ps.foldl (fun (a : Int) (x, y) => a + units32 x * units32 y) 0
    let allNegZero := !ps.isEmpty && ps.all fun (x, y) => (fp32.isZero x || fp32.isZero y) && (fp32.neg x != fp32.neg y)
    fp32.roundInt allNegZero v (-298)

/-- An exact operand: a finite value in units of 2^-149 with its sign, an infinity, or NaN (R199, R213). -/
inductive XVal where
  | fin (neg : Bool) (v : Int)
  | inf (neg : Bool)
  | nan
  deriving DecidableEq, Repr

/-- Zero as an exact operand. -/
def XVal.zero : XVal := .fin false 0

/-- An FP32 value as an exact operand. -/
def XVal.ofFp (x : Nat) : XVal :=
  if fp32.isNan x then .nan else if fp32.isInf x then .inf (fp32.neg x) else .fin (fp32.neg x) (units32 x)

/-- An exact operand with the other sign. -/
def XVal.negate : XVal → XVal
  | .fin n v => .fin (!n) (-v)
  | .inf n => .inf (!n)
  | .nan => .nan

/-- The product of two exact operands, in units of 2^-298; infinity times 0 is NaN. -/
def XVal.mul : XVal → XVal → XVal
  | .fin m v, .fin n w => .fin (m != n) (v * w)
  | .fin m v, .inf n => if v = 0 then .nan else .inf (m != n)
  | .inf m, .fin n w => if w = 0 then .nan else .inf (m != n)
  | .inf m, .inf n => .inf (m != n)
  | _, _ => .nan

/-- Sum of exact values in units of 2^u, under the flag rules of R164, rounded once to FP32; 0 has the sign + unless `nz`. -/
def sumFlags (u : Int) (nz : Bool) (xs : List XVal) : Nat :=
  let pinf := xs.contains (.inf false)
  let ninf := xs.contains (.inf true)
  if xs.contains .nan || (pinf && ninf) then fp32.nan
  else if pinf then fp32.inf
  else if ninf then fp32.signed true fp32.inf
  else fp32.roundInt nz (xs.foldl (fun a x => match x with | .fin _ v => a + v | _ => a) 0) u

/-- A sum whose zero is +0 (R190). -/
def sumX (u : Int) (xs : List XVal) : Nat := sumFlags u false xs

/-- Exact sum of products of exact operands, rounded once to FP32 (R213); a zero sum is +0 unless every product is −0. -/
def dotX (xs ys : List XVal) : Nat :=
  let ps := (xs.zip ys).map fun x => x.1.mul x.2
  sumFlags (-298) (!ps.isEmpty && ps.all fun p => match p with | .fin n v => n && v == 0 | _ => false) ps

/-- Node (k, j) of the tree sum over the positions below `m` (R168). -/
def treeNode (x : Nat → Nat) (m : Nat) : Nat → Nat → Nat
  | 0, j => x j
  | k + 1, j =>
    let lo := treeNode x m k (2 * j)
    if (2 * j + 1) * 2 ^ k ≥ m then lo else fpAdd lo (treeNode x m k (2 * j + 1))

/-- Least k with 2^k not below `m`. -/
def clog2 (m : Nat) : Nat := if m ≤ 1 then 0 else Nat.log2 (m - 1) + 1

/-- Tree sum of a list of FP32 values in member order (R168); +0 for no member. -/
def treeSum (xs : List Nat) : Nat :=
  if xs.isEmpty then 0 else treeNode (fun j => nth xs j) xs.length (clog2 xs.length) 0

end Sys2Proof.Machine
end

