-- ==== Sys2Proof/Machine/Codec.lean ====
section
/-! DEFINITION. The exchange codec: element types, blocks, rotation, quantisation, the counter generator (R185 to R201). -/

namespace Sys2Proof.Machine

/-! ### The counter generator -/

/-- Addition modulo 2^32. -/
def add32 (x y : Nat) : Nat := (x + y) % 2 ^ 32

/-- Left rotation of a 32-bit word. -/
def rotl32 (x n : Nat) : Nat := x * 2 ^ n % 2 ^ 32 + x / 2 ^ (32 - n)

/-- One round of the generator, round number `r`, key words `k` (R197). -/
def genRound (k : List Nat) (r : Nat) : Nat × Nat × Nat × Nat → Nat × Nat × Nat × Nat
  | (x0, x1, x2, x3) =>
    let x0 := add32 x0 x1; let x3 := rotl32 (x3 ^^^ x0) 16
    let x2 := add32 x2 x3; let x1 := rotl32 (x1 ^^^ x2) 12
    let x0 := add32 x0 x1; let x3 := rotl32 (x3 ^^^ x0) 8
    let x2 := add32 x2 x3; let x1 := rotl32 (x1 ^^^ x2) 7
    (add32 x0 (nth k ((r + 1) % 5)), add32 x1 (nth k ((r + 2) % 5)), add32 x2 (nth k ((r + 3) % 5)),
      add32 (add32 x3 (nth k ((r + 4) % 5))) (r + 1))

/-- The counter generator of a 128-bit key and four input words (R197). -/
def gen (key w0 w1 w2 w3 : Nat) : Nat :=
  let k0 := bits key 31 0; let k1 := bits key 63 32; let k2 := bits key 95 64; let k3 := bits key 127 96
  let k := [k0, k1, k2, k3, k0 ^^^ k1 ^^^ k2 ^^^ k3 ^^^ 0x1BD11BDA]
  let x := (add32 w0 k0, add32 w1 k1, add32 w2 k2, add32 w3 k3)
  let (x0, x1, x2, x3) := genRound k 3 (genRound k 2 (genRound k 1 (genRound k 0 x)))
  x0 ^^^ x1 ^^^ x2 ^^^ x3

/-- The generator with its inputs laid out as R196 states; a part number above 3 does not fit IN, which takes its low 2 bits (log
entry 22). -/
def genOf (key index beat inp purpose source xid : Nat) : Nat :=
  gen key (index % 2 ^ 32) (beat % 2 ^ 32)
    (inp % 4 * 2 ^ 27 + purpose % 8 * 2 ^ 24 + beat / 2 ^ 32 % 2 ^ 24)
    (source % 2 ^ 13 * 2 ^ 16 + xid % 2 ^ 15)

/-- The sign vector of an exchange as 128 bits, 1 for −1 (R191). -/
def signVector (key xid : Nat) : Nat :=
  let g w := genOf key w 0 0 1 0 xid
  g 0 + g 1 * 2 ^ 32 + g 2 * 2 ^ 64 + g 3 * 2 ^ 96

/-! ### Element types -/

/-- A format byte (R186). -/
structure MxFmt where
  norot : Bool
  sr : Bool
  type : Nat
  deriving DecidableEq, Repr

/-- A format byte read, none when its type or a bit is reserved (R186). -/
def MxFmt.ofByte (b : Nat) : Option MxFmt :=
  let t := b % 16
  if t == 0 || t > 5 || bits b 5 4 != 0 then none else some ⟨bit b 7, bit b 6, t⟩

/-- Mantissa bits of an element type (R187). -/
def MxFmt.man (f : MxFmt) : Nat := nth [0, 1, 3, 2, 3, 2] f.type
/-- Element width in bits (R187). -/
def MxFmt.wid (f : MxFmt) : Nat := nth [0, 4, 6, 6, 8, 8] f.type
/-- Exponent bias (R187). -/
def MxFmt.bias (f : MxFmt) : Nat := nth [0, 1, 1, 3, 7, 15] f.type
/-- EMAX (R187). -/
def MxFmt.emax (f : MxFmt) : Int := nth [0, 2, 2, 4, 8, 15] f.type
/-- Magnitude code of MAX (R187). -/
def MxFmt.maxCode (f : MxFmt) : Nat := nth [0, 7, 31, 31, 0x7E, 0x7B] f.type
/-- Bytes of an encoded block (R188). -/
def MxFmt.bsz (f : MxFmt) : Nat := nth [0, 68, 100, 100, 132, 132] f.type
/-- Exponent of the least subnormal (R187). -/
def MxFmt.ulp (f : MxFmt) : Int := 1 - (f.bias : Int) - f.man

/-- A magnitude code in units of the least subnormal. -/
def MxFmt.units (f : MxFmt) (c : Nat) : Nat :=
  let e := c / 2 ^ f.man
  let m := c % 2 ^ f.man
  if e == 0 then m else (m + 2 ^ f.man) * 2 ^ (e - 1)

/-- The codec size of a region of `n` elements (R189). -/
def MxFmt.size (f : MxFmt) (n : Nat) : Nat := ceilDiv n 128 * f.bsz

/-! ### Rotation -/

/-- The Hadamard product of a list of 2^n integers in Sylvester order. -/
def hadamard : Nat → List Int → List Int
  | 0, x => x
  | n + 1, x =>
    let a := x.take (2 ^ n)
    let b := x.drop (2 ^ n)
    hadamard n (a.zipWith (· + ·) b) ++ hadamard n (a.zipWith (· - ·) b)

/-- Forward rotation of 128 finite FP32 values under the sign vector `s` (R190). -/
def rotate (s : Nat) (xs : List Nat) : List Nat :=
  let v := (xs.zipIdx).map fun (x, i) => if bit s i then -units32 x else units32 x
  (hadamard 7 v).map fun y => fp32.roundInt false y (-153)

/-- Inverse rotation of 128 dequantised values in units of 2^-143 (R190). -/
def unrotate (s : Nat) (ys : List Int) : List Nat :=
  ((hadamard 7 ys).zipIdx).map fun (v, i) => fp32.roundInt false (if bit s i then -v else v) (-146)

/-! ### Encoding -/

/-- Inputs of the generator that a block's rounding uses (R195). -/
structure GenIn where
  key : Nat
  beat : Nat
  xid : Nat
  inp : Nat
  source : Nat
  /-- Element index of the block's element 0. -/
  index : Nat
  deriving DecidableEq, Repr

/-- An encoded block with what the CDC page counts of it (R192, R209). -/
structure Encoded where
  bytes : List Byte
  special : Bool
  overflow : Bool
  sat : Nat
  zero : Nat
  deriving DecidableEq, Repr

/-- Exponent X of a sub-block (R193). -/
def subScale (f : MxFmt) (ys : List Nat) : Int :=
  let amax := (ys.map fp32.units).foldl max 0
  if amax == 0 then -127 else max (-127) ((Nat.log2 amax : Int) - 149 - f.emax)

/-- Magnitude code of one element and whether it saturated (R194, R195): `q` is `u × 2^-149 × 2^-x`. -/
def quantise (f : MxFmt) (g : Nat → Nat) (x : Int) (y i : Nat) : Nat × Bool :=
  let u := fp32.units y
  let e := -149 - x - f.ulp
  let num := if e < 0 then u else u * 2 ^ e.toNat
  let den := if e < 0 then 2 ^ (-e).toNat else 1
  if num > f.units f.maxCode * den then (f.maxCode, true)
  else if f.sr then
    let v := num / den
    let sh := Nat.log2 v - f.man
    let lo := sh * 2 ^ f.man + v / 2 ^ sh
    let dl := f.units lo * den
    let r := g i / 2 ^ 8
    if num > dl && (num - dl) * 2 ^ 24 > r * (f.units (lo + 1) - f.units lo) * den then (lo + 1, false) else (lo, false)
  else
    ((Fmt.round ⟨f.man + 1, 1 - (f.bias : Int), 1000, 64⟩ false u 1 (-149 - x)), false)

/-- Codes of one sub-block with its scale byte, saturations and zeros; elements start at index `i0` of the block. -/
def encodeSub (f : MxFmt) (g : Nat → Nat) (ys : List Nat) (i0 : Nat) : Nat × List Nat × Nat × Nat :=
  let x := subScale f ys
  let qs := (ys.zipIdx).map fun (y, i) =>
    let (c, s) := quantise f g x y (i0 + i)
    ((if fp32.neg y then 2 ^ (f.wid - 1) + c else c), s, c == 0 && !fp32.isZero y)
  ((x + 127).toNat, qs.map (·.1), (qs.filter (·.2.1)).length, (qs.filter (·.2.2)).length)

/-- Bytes of a block from its scale bytes and element codes (R188). -/
def packBlock (f : MxFmt) (scales codes : List Nat) : List Byte :=
  scales.map (BitVec.ofNat 8 ·) ++ leBytes (16 * f.wid) (codes.foldr (fun c a => c + a * 2 ^ f.wid) 0)

/-- A value that a block cannot carry. -/
def notFinite (x : Nat) : Bool := fp32.isNan x || fp32.isInf x

/-- The generator's outputs for the elements of a block (R195). -/
def GenIn.gen (gi : GenIn) (i : Nat) : Nat := genOf gi.key (gi.index + i) gi.beat gi.inp 0 gi.source gi.xid

/-- A special block (R192). -/
def specialBlock (f : MxFmt) (ovf : Bool) : Encoded :=
  ⟨packBlock f [0xFF, 0xFF, 0xFF, 0xFF] (List.replicate 128 0), true, ovf, 0, 0⟩

/-- A block whose values have been rotated where its format asks for it, encoded (R192 to R195, R201). -/
def encodeRotated (f : MxFmt) (gi : GenIn) (ys : List Nat) : Encoded :=
  if f.norot then
    let subs := (List.range 4).map fun k =>
      let zs := (ys.drop (32 * k)).take 32
      if zs.any notFinite then (0xFF, List.replicate 32 0, 0, 0) else encodeSub f gi.gen zs (32 * k)
    ⟨packBlock f (subs.map (·.1)) (subs.map (·.2.1)).flatten, subs.any (·.1 == 0xFF), false,
      (subs.map (·.2.2.1)).sum, (subs.map (·.2.2.2)).sum⟩
  else if ys.any notFinite then specialBlock f true
  else
    let subs := (List.range 4).map fun k => encodeSub f gi.gen ((ys.drop (32 * k)).take 32) (32 * k)
    ⟨packBlock f (subs.map (·.1)) (subs.map (·.2.1)).flatten, false, false,
      (subs.map (·.2.2.1)).sum, (subs.map (·.2.2.2)).sum⟩

/-- A block of 128 FP32 values encoded (R192 to R195, R201). -/
def encodeBlock (f : MxFmt) (signs : Nat) (gi : GenIn) (xs : List Nat) : Encoded :=
  if f.norot then encodeRotated f gi xs
  else if xs.any notFinite then specialBlock f false
  else encodeRotated f gi (rotate signs xs)

/-! ### Decoding -/

/-- A decoded block: 128 FP32 values, and whether it was special or malformed (R199, R200). -/
structure Decoded where
  vals : List Nat
  special : Bool
  malformed : Bool
  deriving DecidableEq, Repr

/-- An element code that is not finite (R187). -/
def codeNotFinite (f : MxFmt) (c : Nat) : Bool := c % 2 ^ (f.wid - 1) > f.maxCode

/-- A dequantised element in units of 2^-143 (R199). -/
def dequantise (f : MxFmt) (scale c : Nat) : Int :=
  let m := c % 2 ^ (f.wid - 1)
  let v : Int := f.units m * 2 ^ (scale + (f.ulp + 16).toNat)
  if bit c (f.wid - 1) then -v else v

/-- The dequantised values of a block in units of 2^-143, none for NaN: a NaN block has none, and without rotation each sub-block
stands for itself (R199, R201). -/
def dequantBlock (f : MxFmt) (bs : List Byte) : List (Option Int) :=
  let scale k := (bs.getD k 0).toNat
  let field := leNat (bs.drop 4)
  let code i := field / 2 ^ (f.wid * i) % 2 ^ f.wid
  let badSub k := scale k == 0xFF || (List.range 32).any fun j => codeNotFinite f (code (32 * k + j))
  let badAll := (List.range 4).any badSub
  (List.range 128).map fun i =>
    if if f.norot then badSub (i / 32) else badAll then none else some (dequantise f (scale (i / 32)) (code i))

/-- A block of bytes decoded (R199 to R201). -/
def decodeBlock (f : MxFmt) (signs : Nat) (bs : List Byte) : Decoded :=
  let scale k := (bs.getD k 0).toNat
  let field := leNat (bs.drop 4)
  let code i := field / 2 ^ (f.wid * i) % 2 ^ f.wid
  let idx := List.range 128
  if f.norot then
    let badSub k := scale k == 0xFF || (List.range 32).any fun j => codeNotFinite f (code (32 * k + j))
    let malSub k := (scale k == 0xFF && (List.range 32).any fun j => code (32 * k + j) != 0) ||
      (scale k != 0xFF && (List.range 32).any fun j => codeNotFinite f (code (32 * k + j)))
    ⟨idx.map fun i =>
        if badSub (i / 32) then fp32.nan
        else fp32.roundInt (bit (code i) (f.wid - 1)) (dequantise f (scale (i / 32)) (code i)) (-143),
      (List.range 4).any fun k => badSub k && !malSub k, (List.range 4).any malSub⟩
  else
    let ffs := (List.range 4).filter fun k => scale k == 0xFF
    if ffs.isEmpty && idx.all fun i => !codeNotFinite f (code i) then
      ⟨unrotate signs (idx.map fun i => dequantise f (scale (i / 32)) (code i)), false, false⟩
    else
      let special := ffs.length == 4 && field == 0
      ⟨List.replicate 128 fp32.nan, special, !special⟩

/-- The `i`-th block of an MX region's FP32 values, padded with +0 (R189). -/
def blockOf (xs : List Nat) (i : Nat) : List Nat :=
  let b := (xs.drop (128 * i)).take 128
  b ++ List.replicate (128 - b.length) 0

end Sys2Proof.Machine
end

