-- ==== Sys2Proof/Machine/RegMap.lean ====
section
/-! DEFINITION. The register map: every register field of the DZ8 and of the agent by address, bit, width and reset
value, from the register tables of spec/, and the pages of R498. -/

namespace Sys2Proof.Machine

/-- Access types of R11 to R13: read-only, read-write, write 1 to set, write 1 to clear, read-clear, write-only. -/
inductive Access where
  | ro
  | rw
  | w1s
  | w1c
  | rc
  | wo
  deriving DecidableEq, Repr

/-- One field of a register at a fixed address: address, lowest bit, width and reset value. -/
structure Fld where
  addr : Nat
  lo : Nat
  w : Nat
  rst : Nat
  deriving DecidableEq, Repr

/-- The key of a field in a register file: address and lowest bit. -/
def Fld.key (f : Fld) : Nat := f.addr * 64 + f.lo

/-- One row of a register table: offset, step and count of an indexed register, lowest bit, width, access, reset value,
and whether an agent field is marked local. -/
structure FDef where
  off : Nat
  step : Nat
  cnt : Nat
  lo : Nat
  w : Nat
  acc : Access
  rst : Nat
  isLocal : Bool
  deriving DecidableEq, Repr

/-- The field of a table row at page `pg`, index `i`. -/
def FDef.at (d : FDef) (pg i : Nat) : Fld := ⟨pg + d.off + d.step * i, d.lo, d.w, d.rst⟩

/-! ### R56 -/

def TMK_CTRL_STEP : Fld := ⟨0x200100, 3, 1, 0⟩
def TMK_CTRL_ENABLE : Fld := ⟨0x200100, 2, 1, 0⟩
def TMK_CTRL_SRC : Fld := ⟨0x200100, 0, 2, 0⟩

/-! ### R57 -/

def TMK_STAT_TAKEOVER_WARN : Fld := ⟨0x200108, 11, 1, 0⟩
def TMK_STAT_PERIOD_REJ : Fld := ⟨0x200108, 10, 1, 0⟩
def TMK_STAT_PCHG : Fld := ⟨0x200108, 9, 1, 0⟩
def TMK_STAT_SLEWING : Fld := ⟨0x200108, 8, 1, 0⟩
def TMK_STAT_XDOM_UNSAFE : Fld := ⟨0x200108, 7, 1, 0⟩
def TMK_STAT_FSEL : Fld := ⟨0x200108, 6, 1, 0⟩
def TMK_STAT_STATE : Fld := ⟨0x200108, 0, 3, 0⟩

/-! ### R58 -/

def TMK_NOW_POSTMARK : Fld := ⟨0x200110, 0, 64, 0⟩
def TMK_PERIOD_PERIOD_NS : Fld := ⟨0x200118, 0, 14, 512⟩
def TMK_PERIOD_NEXT_AT_SEC : Fld := ⟨0x200120, 14, 48, 0⟩
def TMK_PERIOD_NEXT_PERIOD_NS : Fld := ⟨0x200120, 0, 14, 0⟩
def TMK_EPOCH_SEC : Fld := ⟨0x200128, 0, 48, 0⟩
def TMK_TOD_SEC : Fld := ⟨0x200130, 0, 48, 0⟩
def TMK_REF_DELAY_DELAY_NS : Fld := ⟨0x200138, 0, 16, 0⟩
def TMK_OFFSET_OFFSET_PS : Fld := ⟨0x200140, 0, 32, 0⟩
def TMK_XDOM_LIMIT_NS : Fld := ⟨0x200148, 16, 16, 50⟩
def TMK_XDOM_HOLD_PPB : Fld := ⟨0x200148, 0, 16, 20⟩
def TMK_HOLD_EST_HOLD_MS : Fld := ⟨0x200150, 32, 32, 0⟩
def TMK_HOLD_EST_EST_NS : Fld := ⟨0x200150, 0, 32, 0⟩
def TMK_PTP_CFG_LOG_SYNC : Fld := ⟨0x200158, 8, 8, 253⟩
def TMK_PTP_CFG_DOMAIN : Fld := ⟨0x200158, 0, 8, 0⟩
def TMK_PTP_GMID_CLOCK_ID : Fld := ⟨0x200160, 0, 64, 0⟩
def TMK_SKEW_PORT : Fld := ⟨0x200168, 32, 32, 0⟩
def TMK_SKEW_MAX_PS : Fld := ⟨0x200168, 0, 32, 0⟩
def TMK_LINKDLY_VALID (i : Nat) : Fld := ⟨0x200400 + 8 * i, 31, 1, 0⟩
def TMK_LINKDLY_DELAY_PS (i : Nat) : Fld := ⟨0x200400 + 8 * i, 0, 24, 0⟩

/-! ### R95 -/

def PRT_CTRL_RETRY_MAX (pg : Nat) : Fld := ⟨pg + 0x100, 16, 8, 5⟩
def PRT_CTRL_UNPARK (pg : Nat) : Fld := ⟨pg + 0x100, 3, 1, 0⟩
def PRT_CTRL_RETRAIN (pg : Nat) : Fld := ⟨pg + 0x100, 2, 1, 0⟩
def PRT_CTRL_DISABLE (pg : Nat) : Fld := ⟨pg + 0x100, 1, 1, 0⟩
def PRT_STAT_RETRY_CNT (pg : Nat) : Fld := ⟨pg + 0x108, 40, 8, 0⟩
def PRT_STAT_GOOD_LANES (pg : Nat) : Fld := ⟨pg + 0x108, 36, 4, 15⟩
def PRT_STAT_REVERSED (pg : Nat) : Fld := ⟨pg + 0x108, 35, 1, 0⟩
def PRT_STAT_ENCRYPTED (pg : Nat) : Fld := ⟨pg + 0x108, 34, 1, 0⟩
def PRT_STAT_ROLE (pg : Nat) : Fld := ⟨pg + 0x108, 32, 2, 3⟩
def PRT_STAT_MIN_WIDTH (pg : Nat) : Fld := ⟨pg + 0x108, 30, 2, 3⟩
def PRT_STAT_WIDTH (pg : Nat) : Fld := ⟨pg + 0x108, 28, 2, 0⟩
def PRT_STAT_STATE (pg : Nat) : Fld := ⟨pg + 0x108, 0, 3, 0⟩
def PRT_NEIGH_VALID (pg : Nat) : Fld := ⟨pg + 0x110, 63, 1, 0⟩
def PRT_NEIGH_FID (pg : Nat) : Fld := ⟨pg + 0x110, 42, 14, 0⟩
def PRT_NEIGH_PORT (pg : Nat) : Fld := ⟨pg + 0x110, 34, 8, 0⟩
def PRT_NEIGH_CLASS (pg : Nat) : Fld := ⟨pg + 0x110, 32, 2, 0⟩
def PRT_BEATCAP_POSITIONS (pg : Nat) : Fld := ⟨pg + 0x118, 32, 16, 0⟩
def PRT_BEATCAP_CONTROL (pg : Nat) : Fld := ⟨pg + 0x118, 16, 16, 0⟩
def PRT_BEATCAP_VC0_CELLS (pg : Nat) : Fld := ⟨pg + 0x118, 0, 16, 0⟩
def PRT_UNSCHED_CELLS (pg : Nat) : Fld := ⟨pg + 0x120, 0, 8, 8⟩
def PRT_CREDIT_VC3 (pg : Nat) : Fld := ⟨pg + 0x128, 48, 16, 0⟩
def PRT_CREDIT_VC2 (pg : Nat) : Fld := ⟨pg + 0x128, 32, 16, 0⟩
def PRT_CREDIT_VC1 (pg : Nat) : Fld := ⟨pg + 0x128, 16, 16, 0⟩
def PRT_CREDIT_VC0 (pg : Nat) : Fld := ⟨pg + 0x128, 0, 16, 0⟩
def PRT_FEC_UNCORR (pg : Nat) : Fld := ⟨pg + 0x130, 32, 32, 0⟩
def PRT_FEC_CORR (pg : Nat) : Fld := ⟨pg + 0x130, 0, 32, 0⟩
def PRT_SYMERR_SYMBOLS (pg : Nat) : Fld := ⟨pg + 0x138, 0, 64, 0⟩
def PRT_DISCARD_CRC (pg : Nat) : Fld := ⟨pg + 0x140, 32, 32, 0⟩
def PRT_DISCARD_OTHER (pg : Nat) : Fld := ⟨pg + 0x140, 0, 32, 0⟩
def PRT_LOSTCR_CELLS (pg : Nat) : Fld := ⟨pg + 0x148, 0, 64, 0⟩
def PRT_GCM_TAGFAIL (pg : Nat) : Fld := ⟨pg + 0x150, 32, 32, 0⟩
def PRT_GCM_KPH (pg : Nat) : Fld := ⟨pg + 0x150, 0, 1, 0⟩
def PRT_LANE_SNR (pg : Nat) (i : Nat) : Fld := ⟨pg + 0x180 + 8 * i, 40, 8, 0⟩
def PRT_LANE_POLINV (pg : Nat) (i : Nat) : Fld := ⟨pg + 0x180 + 8 * i, 31, 1, 0⟩
def PRT_LANE_SYMERR (pg : Nat) (i : Nat) : Fld := ⟨pg + 0x180 + 8 * i, 0, 28, 0⟩

/-! ### R96 -/

def DVT_STAT_GROUPS_OUT (pg : Nat) : Fld := ⟨pg + 0x100, 16, 16, 0⟩
def DVT_STAT_SPARES_USED (pg : Nat) : Fld := ⟨pg + 0x100, 8, 8, 0⟩
def DVT_STAT_STATE (pg : Nat) : Fld := ⟨pg + 0x100, 0, 3, 0⟩
def DVT_REPLAY_EXHAUSTED (pg : Nat) : Fld := ⟨pg + 0x108, 32, 32, 0⟩
def DVT_REPLAY_REPLAYS (pg : Nat) : Fld := ⟨pg + 0x108, 0, 32, 0⟩
def DVT_CRCERR_COUNT (pg : Nat) : Fld := ⟨pg + 0x110, 0, 64, 0⟩
def DVT_REPAIR_MAP (pg : Nat) (i : Nat) : Fld := ⟨pg + 0x118 + 8 * i, 0, 32, 4294967295⟩

/-! ### R128 -/

def RTE_CTRL_CHECK : Fld := ⟨0x500100, 4, 1, 0⟩
def RTE_CTRL_ABORT : Fld := ⟨0x500100, 3, 1, 0⟩
def RTE_CTRL_START : Fld := ⟨0x500100, 2, 1, 0⟩
def RTE_CTRL_SCOPE : Fld := ⟨0x500100, 0, 2, 0⟩
def RTE_STAT_CHECK_ERR : Fld := ⟨0x500108, 56, 8, 0⟩
def RTE_STAT_CHECK_CHIP : Fld := ⟨0x500108, 42, 14, 0⟩
def RTE_STAT_CHECK_DST : Fld := ⟨0x500108, 28, 14, 0⟩
def RTE_STAT_ATTEMPT : Fld := ⟨0x500108, 16, 2, 0⟩
def RTE_STAT_CHECK_OK : Fld := ⟨0x500108, 11, 1, 0⟩
def RTE_STAT_PENDING : Fld := ⟨0x500108, 10, 1, 0⟩
def RTE_STAT_MODE : Fld := ⟨0x500108, 9, 1, 0⟩
def RTE_STAT_COORD : Fld := ⟨0x500108, 8, 1, 0⟩
def RTE_STAT_PHASE : Fld := ⟨0x500108, 0, 4, 0⟩
def RTE_GEN_SHADOW : Fld := ⟨0x500110, 32, 32, 0⟩
def RTE_GEN_ACTIVE : Fld := ⟨0x500110, 0, 32, 0⟩
def RTE_EPOCH_EPOCHS (i : Nat) : Fld := ⟨0x500118 + 8 * i, 0, 64, 0⟩
def RTE_FLIP_DRAIN_BEATS : Fld := ⟨0x500138, 48, 16, 64⟩
def RTE_FLIP_QUIET_LEAD : Fld := ⟨0x500138, 40, 8, 16⟩
def RTE_FLIP_LEAD_DOM : Fld := ⟨0x500138, 32, 8, 4⟩
def RTE_FLIP_LEAD_FAB : Fld := ⟨0x500138, 24, 8, 16⟩
def RTE_FLIP_RESUME : Fld := ⟨0x500138, 16, 8, 2⟩
def RTE_FLIP_PREP_MS : Fld := ⟨0x500138, 0, 16, 100⟩
def RTE_LIMIT_SAFE_BEATS : Fld := ⟨0x500140, 32, 32, 3907⟩
def RTE_LIMIT_FLIP_LIMIT : Fld := ⟨0x500140, 0, 32, 2929⟩
def RTE_QUIET_AT_BEAT : Fld := ⟨0x500148, 0, 56, 0⟩
def RTE_FLIP_AT_BEAT : Fld := ⟨0x500150, 0, 56, 0⟩
def RTE_FLIPSTAT_FWD : Fld := ⟨0x500158, 32, 32, 0⟩
def RTE_FLIPSTAT_ACTIVE_GEN : Fld := ⟨0x500158, 28, 4, 0⟩
def RTE_FLIPSTAT_SHADOW_READY : Fld := ⟨0x500158, 3, 1, 0⟩
def RTE_FLIPSTAT_SAFE : Fld := ⟨0x500158, 2, 1, 0⟩
def RTE_FLIPSTAT_QUIET : Fld := ⟨0x500158, 1, 1, 0⟩
def RTE_FLIPSTAT_DRAINED : Fld := ⟨0x500158, 0, 1, 0⟩
def RTE_ESC_VC2_T : Fld := ⟨0x500160, 32, 16, 125⟩
def RTE_ESC_VC1_T : Fld := ⟨0x500160, 16, 16, 500⟩
def RTE_ESC_VC0_T : Fld := ⟨0x500160, 0, 16, 125⟩
def RTE_ESCCNT_FAILOVER : Fld := ⟨0x500168, 32, 32, 0⟩
def RTE_ESCCNT_MOVED : Fld := ⟨0x500168, 0, 32, 0⟩
def RTE_DISC_GEN : Fld := ⟨0x500170, 43, 21, 0⟩
def RTE_DISC_EPOCH : Fld := ⟨0x500170, 22, 21, 0⟩
def RTE_DISC_NOROUTE : Fld := ⟨0x500170, 0, 22, 0⟩
def RTE_TWIN_SEL_SHADOW : Fld := ⟨0x500178, 63, 1, 0⟩
def RTE_TWIN_SEL_CHIP : Fld := ⟨0x500178, 32, 14, 0⟩
def RTE_TWIN_SEL_DST : Fld := ⟨0x500178, 0, 14, 0⟩
def RTE_TWIN_DATA_ENTRY : Fld := ⟨0x500180, 0, 64, 0⟩
def RTE_CMAP_SEL_LINK : Fld := ⟨0x500188, 0, 12, 0⟩
def RTE_CMAP_DATA_ENTRY : Fld := ⟨0x500190, 0, 64, 0⟩
def RTE_TREE_ROOT : Fld := ⟨0x500198, 50, 14, 0⟩
def RTE_TREE_PARENT : Fld := ⟨0x500198, 36, 14, 0⟩
def RTE_TREE_PARENT_PORT : Fld := ⟨0x500198, 28, 8, 255⟩
def RTE_TREE_ALT_PORT : Fld := ⟨0x500198, 20, 8, 255⟩
def RTE_TREE_DEPTH : Fld := ⟨0x500198, 16, 4, 0⟩

/-! ### R154 -/

def TTB_CTRL_VOID (pg : Nat) : Fld := ⟨pg + 0x100, 6, 1, 0⟩
def TTB_CTRL_STOP (pg : Nat) : Fld := ⟨pg + 0x100, 5, 1, 0⟩
def TTB_CTRL_DISARM (pg : Nat) : Fld := ⟨pg + 0x100, 4, 1, 0⟩
def TTB_CTRL_ARM (pg : Nat) : Fld := ⟨pg + 0x100, 3, 1, 0⟩
def TTB_CTRL_CHECK (pg : Nat) : Fld := ⟨pg + 0x100, 2, 1, 0⟩
def TTB_CTRL_UNLOAD (pg : Nat) : Fld := ⟨pg + 0x100, 1, 1, 0⟩
def TTB_STAT_CHECK_ERR (pg : Nat) : Fld := ⟨pg + 0x108, 56, 8, 0⟩
def TTB_STAT_CHECK_DETAIL (pg : Nat) : Fld := ⟨pg + 0x108, 24, 32, 0⟩
def TTB_STAT_HOSTCHK (pg : Nat) : Fld := ⟨pg + 0x108, 19, 1, 0⟩
def TTB_STAT_XDOM_HELD (pg : Nat) : Fld := ⟨pg + 0x108, 18, 1, 0⟩
def TTB_STAT_PAUSED (pg : Nat) : Fld := ⟨pg + 0x108, 17, 1, 0⟩
def TTB_STAT_CHECK_OK (pg : Nat) : Fld := ⟨pg + 0x108, 16, 1, 0⟩
def TTB_STAT_STATE (pg : Nat) : Fld := ⟨pg + 0x108, 0, 4, 0⟩
def TTB_IMAGE_LEN (pg : Nat) : Fld := ⟨pg + 0x110, 32, 32, 0⟩
def TTB_IMAGE_OFFSET (pg : Nat) : Fld := ⟨pg + 0x110, 0, 32, 0⟩
def TTB_ARM_AT_BEAT (pg : Nat) : Fld := ⟨pg + 0x118, 0, 56, 0⟩
def TTB_BASE_BEAT (pg : Nat) : Fld := ⟨pg + 0x120, 0, 56, 0⟩
def TTB_STEP_NEXT (pg : Nat) : Fld := ⟨pg + 0x128, 32, 32, 0⟩
def TTB_STEP_COMMITTED (pg : Nat) : Fld := ⟨pg + 0x128, 0, 32, 4294967295⟩
def TTB_ITER_ITER (pg : Nat) : Fld := ⟨pg + 0x130, 0, 32, 0⟩
def TTB_VOID_SERIAL (pg : Nat) : Fld := ⟨pg + 0x138, 32, 32, 0⟩
def TTB_VOID_CAUSE (pg : Nat) : Fld := ⟨pg + 0x138, 24, 8, 0⟩
def TTB_VOID_ATTEMPT (pg : Nat) : Fld := ⟨pg + 0x138, 16, 8, 0⟩
def TTB_VOID_PARITY (pg : Nat) : Fld := ⟨pg + 0x138, 0, 1, 0⟩
def TTB_LIMITS_SETTLE_X (pg : Nat) : Fld := ⟨pg + 0x140, 32, 16, 24⟩
def TTB_LIMITS_SETTLE_D (pg : Nat) : Fld := ⟨pg + 0x140, 16, 16, 8⟩
def TTB_ENERGY_DECLARED_UJ (pg : Nat) : Fld := ⟨pg + 0x148, 0, 32, 0⟩
def TTB_COUNT_EXTRA (pg : Nat) : Fld := ⟨pg + 0x150, 48, 16, 0⟩
def TTB_COUNT_VOIDS (pg : Nat) : Fld := ⟨pg + 0x150, 32, 16, 0⟩
def TTB_COUNT_COMMITS (pg : Nat) : Fld := ⟨pg + 0x150, 0, 32, 0⟩
def TTB_DIST_PENDING (pg : Nat) : Fld := ⟨pg + 0x158, 32, 16, 0⟩
def TTB_DIST_FID (pg : Nat) : Fld := ⟨pg + 0x158, 0, 14, 0⟩
def TTB_CMAP_SEL_CLEAR (pg : Nat) : Fld := ⟨pg + 0x160, 63, 1, 0⟩
def TTB_CMAP_SEL_INDEX (pg : Nat) : Fld := ⟨pg + 0x160, 0, 12, 0⟩
def TTB_CMAP_DATA_ENTRY (pg : Nat) : Fld := ⟨pg + 0x168, 0, 64, 0⟩

/-! ### R183 -/

def CLX_XSEL_XID (pg : Nat) : Fld := ⟨pg + 0x100, 0, 15, 0⟩
def CLX_XSTAT_STATE (pg : Nat) : Fld := ⟨pg + 0x108, 61, 3, 0⟩
def CLX_XSTAT_DONE (pg : Nat) : Fld := ⟨pg + 0x108, 48, 13, 0⟩
def CLX_XSTAT_SENDERS (pg : Nat) : Fld := ⟨pg + 0x108, 35, 13, 0⟩
def CLX_XSTAT_CELLS (pg : Nat) : Fld := ⟨pg + 0x108, 0, 32, 0⟩
def CLX_XTIME_FIRST_NS (pg : Nat) : Fld := ⟨pg + 0x110, 32, 32, 0⟩
def CLX_XTIME_READY_NS (pg : Nat) : Fld := ⟨pg + 0x110, 0, 32, 0⟩
def CLX_COUNT_READY (pg : Nat) : Fld := ⟨pg + 0x118, 32, 32, 0⟩
def CLX_COUNT_MISSED (pg : Nat) : Fld := ⟨pg + 0x118, 0, 32, 0⟩
def CLX_NUMERIC_NAN (pg : Nat) : Fld := ⟨pg + 0x120, 48, 16, 0⟩
def CLX_NUMERIC_INF (pg : Nat) : Fld := ⟨pg + 0x120, 32, 16, 0⟩
def CLX_NUMERIC_SAT (pg : Nat) : Fld := ⟨pg + 0x120, 16, 16, 0⟩
def CLX_SELECT_INVALID (pg : Nat) : Fld := ⟨pg + 0x128, 32, 32, 0⟩
def CLX_SELECT_DRAWS (pg : Nat) : Fld := ⟨pg + 0x128, 0, 32, 0⟩
def CLX_ROUTE_DROPPED (pg : Nat) : Fld := ⟨pg + 0x130, 32, 32, 0⟩
def CLX_ROUTE_EMPTY (pg : Nat) : Fld := ⟨pg + 0x130, 0, 32, 0⟩
def CLX_DISCARD_OVER (pg : Nat) : Fld := ⟨pg + 0x138, 32, 32, 0⟩
def CLX_DISCARD_CIDX (pg : Nat) : Fld := ⟨pg + 0x138, 0, 32, 0⟩

/-! ### R184 -/

def CLX_ENG_STAT_OPEN : Fld := ⟨0x20710100, 48, 16, 0⟩
def CLX_ENG_STAT_PEAK : Fld := ⟨0x20710100, 32, 16, 0⟩
def CLX_ENG_STAT_MDIE : Fld := ⟨0x20710100, 0, 1, 1⟩
def CLX_ENG_ERR_CLASS : Fld := ⟨0x20710108, 56, 8, 0⟩
def CLX_ENG_ERR_CONTEXT : Fld := ⟨0x20710108, 52, 4, 0⟩
def CLX_ENG_ERR_XID : Fld := ⟨0x20710108, 32, 15, 0⟩
def CLX_ENG_ERR_DIE : Fld := ⟨0x20710108, 28, 4, 0⟩
def CLX_ENG_CNT_ENGINE_VOIDS : Fld := ⟨0x20710110, 32, 32, 0⟩
def CLX_ENG_CNT_BRANCH : Fld := ⟨0x20710110, 0, 32, 0⟩
def CLX_ENG_LAT_MAX_NS : Fld := ⟨0x20710118, 32, 32, 0⟩

/-! ### R209 -/

def CDC_CTRL_GEN_GO (pg : Nat) : Fld := ⟨pg + 0x100, 2, 1, 0⟩
def CDC_CTRL_TEST_GO (pg : Nat) : Fld := ⟨pg + 0x100, 1, 1, 0⟩
def CDC_STAT_ENGINES (pg : Nat) : Fld := ⟨pg + 0x108, 56, 8, 24⟩
def CDC_STAT_TEST_ERR (pg : Nat) : Fld := ⟨pg + 0x108, 4, 4, 0⟩
def CDC_STAT_GEN_DONE (pg : Nat) : Fld := ⟨pg + 0x108, 3, 1, 0⟩
def CDC_STAT_TEST_DONE (pg : Nat) : Fld := ⟨pg + 0x108, 2, 1, 0⟩
def CDC_STAT_GEN_BUSY (pg : Nat) : Fld := ⟨pg + 0x108, 1, 1, 0⟩
def CDC_STAT_TEST_BUSY (pg : Nat) : Fld := ⟨pg + 0x108, 0, 1, 0⟩
def CDC_COUNT_DECODED (pg : Nat) : Fld := ⟨pg + 0x110, 32, 32, 0⟩
def CDC_COUNT_ENCODED (pg : Nat) : Fld := ⟨pg + 0x110, 0, 32, 0⟩
def CDC_SPECIAL_IN_SPECIAL (pg : Nat) : Fld := ⟨pg + 0x118, 48, 16, 0⟩
def CDC_SPECIAL_MALFORMED (pg : Nat) : Fld := ⟨pg + 0x118, 32, 16, 0⟩
def CDC_SPECIAL_OUT_SPECIAL (pg : Nat) : Fld := ⟨pg + 0x118, 16, 16, 0⟩
def CDC_SPECIAL_OVERFLOW (pg : Nat) : Fld := ⟨pg + 0x118, 0, 16, 0⟩
def CDC_SAT_SAT (pg : Nat) : Fld := ⟨pg + 0x120, 32, 32, 0⟩
def CDC_SAT_ZERO (pg : Nat) : Fld := ⟨pg + 0x120, 0, 32, 0⟩
def CDC_ERR_CLASS (pg : Nat) : Fld := ⟨pg + 0x128, 56, 8, 0⟩
def CDC_ERR_CONTEXT (pg : Nat) : Fld := ⟨pg + 0x128, 52, 4, 0⟩
def CDC_ERR_XID (pg : Nat) : Fld := ⟨pg + 0x128, 32, 15, 0⟩
def CDC_ERR_ENGINE (pg : Nat) : Fld := ⟨pg + 0x128, 0, 8, 0⟩
def CDC_TB_MODE_FMT (pg : Nat) : Fld := ⟨pg + 0x140, 56, 8, 0⟩
def CDC_TB_MODE_DIR (pg : Nat) : Fld := ⟨pg + 0x140, 55, 1, 0⟩
def CDC_TB_MODE_IN (pg : Nat) : Fld := ⟨pg + 0x140, 45, 2, 0⟩
def CDC_TB_MODE_SOURCE (pg : Nat) : Fld := ⟨pg + 0x140, 32, 13, 0⟩
def CDC_TB_MODE_XID (pg : Nat) : Fld := ⟨pg + 0x140, 0, 15, 0⟩
def CDC_TB_BEAT_BEAT (pg : Nat) : Fld := ⟨pg + 0x148, 0, 56, 0⟩
def CDC_TB_INDEX_INDEX (pg : Nat) : Fld := ⟨pg + 0x150, 0, 32, 0⟩
def CDC_TB_SIGN0_SIGNS (pg : Nat) : Fld := ⟨pg + 0x158, 0, 64, 0⟩
def CDC_TB_SIGN1_SIGNS (pg : Nat) : Fld := ⟨pg + 0x160, 0, 64, 0⟩
def CDC_TB_KEY0_KEY (pg : Nat) : Fld := ⟨pg + 0x168, 0, 64, 0⟩
def CDC_TB_KEY1_KEY (pg : Nat) : Fld := ⟨pg + 0x170, 0, 64, 0⟩
def CDC_GT_KEY0_KEY (pg : Nat) : Fld := ⟨pg + 0x180, 0, 64, 0⟩
def CDC_GT_KEY1_KEY (pg : Nat) : Fld := ⟨pg + 0x188, 0, 64, 0⟩
def CDC_GT_W01_W1 (pg : Nat) : Fld := ⟨pg + 0x190, 32, 32, 0⟩
def CDC_GT_W01_W0 (pg : Nat) : Fld := ⟨pg + 0x190, 0, 32, 0⟩
def CDC_GT_W23_W3 (pg : Nat) : Fld := ⟨pg + 0x198, 32, 32, 0⟩
def CDC_GT_W23_W2 (pg : Nat) : Fld := ⟨pg + 0x198, 0, 32, 0⟩
def CDC_GT_OUT_G (pg : Nat) : Fld := ⟨pg + 0x1A0, 0, 32, 0⟩
def CDC_TB_FP32_ODD (pg : Nat) (i : Nat) : Fld := ⟨pg + 0x800 + 8 * i, 32, 32, 0⟩
def CDC_TB_FP32_EVEN (pg : Nat) (i : Nat) : Fld := ⟨pg + 0x800 + 8 * i, 0, 32, 0⟩
def CDC_TB_CODE_BYTES (pg : Nat) (i : Nat) : Fld := ⟨pg + 0xA00 + 8 * i, 0, 64, 0⟩

/-! ### R235 -/

def TTL_MAP_PHYS (pg i : Nat) : Fld := ⟨pg + 0x100, 8 * i, 8, 8 * (pg / 4096 % 256) + i⟩
def TTL_STAT_SWAP_PENDING (pg : Nat) : Fld := ⟨pg + 0x108, 8, 8, 0⟩
def TTL_STAT_ABSENT (pg : Nat) : Fld := ⟨pg + 0x108, 0, 8, 0⟩
def TTL_BUSY_CYCLES (pg : Nat) : Fld := ⟨pg + 0x110, 0, 64, 0⟩
def TTL_DESC_DESCS (pg : Nat) : Fld := ⟨pg + 0x118, 32, 32, 0⟩
def TTL_DESC_CHAINS (pg : Nat) : Fld := ⟨pg + 0x118, 0, 32, 0⟩
def TTL_ERR_CLASS (pg : Nat) : Fld := ⟨pg + 0x120, 56, 8, 0⟩
def TTL_ERR_LOGICAL (pg : Nat) : Fld := ⟨pg + 0x120, 48, 8, 0⟩
def TTL_ERR_PHYSICAL (pg : Nat) : Fld := ⟨pg + 0x120, 40, 8, 0⟩
def TTL_ERR_CONTEXT (pg : Nat) : Fld := ⟨pg + 0x120, 36, 4, 0⟩
def TTL_ERR_XID (pg : Nat) : Fld := ⟨pg + 0x120, 20, 15, 0⟩
def TTL_ERR_DESC (pg : Nat) : Fld := ⟨pg + 0x120, 4, 16, 0⟩
def TTL_SRAM_UNCORR (pg : Nat) : Fld := ⟨pg + 0x128, 32, 32, 0⟩
def TTL_SRAM_CORR (pg : Nat) : Fld := ⟨pg + 0x128, 0, 32, 0⟩
def TTL_SEQ_IMAGE_VER (pg : Nat) : Fld := ⟨pg + 0x130, 32, 32, 0⟩
def TTL_SEQ_LOADED (pg : Nat) : Fld := ⟨pg + 0x130, 0, 1, 0⟩

/-! ### R236 -/

def TTL_DIE_STAT_SPARES (pg : Nat) : Fld := ⟨pg + 0x100, 56, 8, 4⟩
def TTL_DIE_STAT_FUSED_BAD (pg : Nat) : Fld := ⟨pg + 0x100, 48, 8, 0⟩
def TTL_DIE_STAT_ABSENT (pg : Nat) : Fld := ⟨pg + 0x100, 40, 8, 0⟩
def TTL_DIE_STAT_CLOCK_MHZ (pg : Nat) : Fld := ⟨pg + 0x100, 0, 16, 1600⟩
def TTL_FUSE_LO_BAD (pg : Nat) : Fld := ⟨pg + 0x108, 0, 64, 0⟩
def TTL_FUSE_HI_BAD (pg : Nat) : Fld := ⟨pg + 0x110, 0, 4, 0⟩
def TTL_ABSENT_LOGICAL (pg : Nat) : Fld := ⟨pg + 0x118, 0, 64, 0⟩
def TTL_RUNFAIL_LO_FAILED (pg : Nat) : Fld := ⟨pg + 0x120, 0, 64, 0⟩
def TTL_RUNFAIL_HI_FAILED (pg : Nat) : Fld := ⟨pg + 0x128, 0, 4, 0⟩

/-! ### R237 -/

def PGH_CTRL_WAKE (pg : Nat) : Fld := ⟨pg + 0x100, 1, 1, 0⟩
def PGH_CTRL_RETAIN (pg : Nat) : Fld := ⟨pg + 0x100, 0, 1, 0⟩
def PGH_STAT_ALLOC_ERR (pg : Nat) : Fld := ⟨pg + 0x108, 7, 1, 0⟩
def PGH_STAT_RET_REJ (pg : Nat) : Fld := ⟨pg + 0x108, 6, 1, 0⟩
def PGH_STAT_SHELF_WIPED (pg : Nat) : Fld := ⟨pg + 0x108, 5, 1, 0⟩
def PGH_STAT_SHELF_WIPING (pg : Nat) : Fld := ⟨pg + 0x108, 4, 1, 0⟩
def PGH_STAT_STATE (pg : Nat) : Fld := ⟨pg + 0x108, 0, 3, 0⟩
def PGH_CONFLICT_WAITS (pg : Nat) : Fld := ⟨pg + 0x110, 32, 32, 0⟩
def PGH_CONFLICT_PROMOTED (pg : Nat) : Fld := ⟨pg + 0x110, 0, 32, 0⟩
def PGH_ECC_UNCORR (pg : Nat) : Fld := ⟨pg + 0x118, 32, 32, 0⟩
def PGH_ECC_CORR (pg : Nat) : Fld := ⟨pg + 0x118, 0, 32, 0⟩
def PGH_ECCADDR_VALID (pg : Nat) : Fld := ⟨pg + 0x120, 63, 1, 0⟩
def PGH_ECCADDR_SYNC (pg : Nat) : Fld := ⟨pg + 0x120, 62, 1, 0⟩
def PGH_ECCADDR_ADDR (pg : Nat) : Fld := ⟨pg + 0x120, 0, 32, 0⟩
def PGH_SYNC_COLLIDE (pg : Nat) : Fld := ⟨pg + 0x128, 32, 32, 0⟩
def PGH_SYNC_MISALIGN (pg : Nat) : Fld := ⟨pg + 0x128, 0, 32, 0⟩
def PGH_SHELF_DENIED (pg : Nat) : Fld := ⟨pg + 0x130, 32, 32, 0⟩
def PGH_SHELF_WIPES (pg : Nat) : Fld := ⟨pg + 0x130, 0, 32, 0⟩
def PGH_RSV_ROWS (pg : Nat) : Fld := ⟨pg + 0x138, 32, 16, 0⟩
def PGH_RSV_ROW_BASE (pg : Nat) : Fld := ⟨pg + 0x138, 0, 14, 0⟩
def PGH_ALLOC_VALID (pg : Nat) (i : Nat) : Fld := ⟨pg + 0x400 + 8 * i, 63, 1, 0⟩
def PGH_ALLOC_ROWS (pg : Nat) (i : Nat) : Fld := ⟨pg + 0x400 + 8 * i, 16, 14, 0⟩
def PGH_ALLOC_ROW_BASE (pg : Nat) (i : Nat) : Fld := ⟨pg + 0x400 + 8 * i, 0, 14, 0⟩

/-! ### R238 -/

def PGH_WIN_BASE_OFFSET (pg : Nat) : Fld := ⟨pg + 0x100, 0, 32, 0⟩
def PGH_WIN_INFO_C1_BYTES (pg : Nat) : Fld := ⟨pg + 0x108, 32, 32, 0⟩
def PGH_WIN_INFO_C0_BYTES (pg : Nat) : Fld := ⟨pg + 0x108, 0, 32, 0⟩

/-! ### R260 -/

def HBC_STAT_TEMP_C (pg : Nat) : Fld := ⟨pg + 0x100, 16, 8, 0⟩
def HBC_STAT_REFRESH_2X (pg : Nat) : Fld := ⟨pg + 0x100, 9, 1, 0⟩
def HBC_STAT_ATTEMPTS (pg : Nat) : Fld := ⟨pg + 0x100, 4, 4, 0⟩
def HBC_STAT_STATE (pg : Nat) : Fld := ⟨pg + 0x100, 0, 3, 0⟩
def HBC_TRAIN_TIME_MS (pg : Nat) : Fld := ⟨pg + 0x108, 32, 32, 0⟩
def HBC_TRAIN_FAIL_CH (pg : Nat) : Fld := ⟨pg + 0x108, 0, 8, 255⟩
def HBC_TAG_FAIL (pg : Nat) : Fld := ⟨pg + 0x110, 32, 32, 0⟩
def HBC_TAG_RETRY_OK (pg : Nat) : Fld := ⟨pg + 0x110, 0, 32, 0⟩
def HBC_ECC_UNCORR (pg : Nat) : Fld := ⟨pg + 0x118, 32, 32, 0⟩
def HBC_ECC_CORR (pg : Nat) : Fld := ⟨pg + 0x118, 0, 32, 0⟩
def HBC_TAGADDR_VALID (pg : Nat) : Fld := ⟨pg + 0x120, 63, 1, 0⟩
def HBC_TAGADDR_SECTOR (pg : Nat) : Fld := ⟨pg + 0x120, 0, 40, 0⟩
def HBC_RD_BYTES (pg : Nat) : Fld := ⟨pg + 0x128, 0, 64, 0⟩
def HBC_WR_BYTES (pg : Nat) : Fld := ⟨pg + 0x130, 0, 64, 0⟩

/-! ### R261 -/

def HBC_MERGE_IN_USE (pg : Nat) : Fld := ⟨pg + 0x100, 48, 16, 0⟩
def HBC_MERGE_PEAK (pg : Nat) : Fld := ⟨pg + 0x100, 32, 16, 0⟩
def HBC_MERGE_SPILLS (pg : Nat) : Fld := ⟨pg + 0x100, 0, 32, 0⟩
def HBC_NMU_PARAMS (pg : Nat) : Fld := ⟨pg + 0x108, 32, 32, 0⟩
def HBC_NMU_NONFINITE (pg : Nat) : Fld := ⟨pg + 0x108, 0, 32, 0⟩
def HBC_CDC_COUNT_DECODED (pg : Nat) : Fld := ⟨pg + 0x110, 32, 32, 0⟩
def HBC_CDC_COUNT_ENCODED (pg : Nat) : Fld := ⟨pg + 0x110, 0, 32, 0⟩
def HBC_CDC_SPECIAL_IN_SPECIAL (pg : Nat) : Fld := ⟨pg + 0x118, 48, 16, 0⟩
def HBC_CDC_SPECIAL_MALFORMED (pg : Nat) : Fld := ⟨pg + 0x118, 32, 16, 0⟩
def HBC_CDC_SPECIAL_OUT_SPECIAL (pg : Nat) : Fld := ⟨pg + 0x118, 16, 16, 0⟩
def HBC_CDC_SPECIAL_OVERFLOW (pg : Nat) : Fld := ⟨pg + 0x118, 0, 16, 0⟩
def HBC_NMU_ERR_CLASS (pg : Nat) : Fld := ⟨pg + 0x120, 56, 8, 0⟩
def HBC_NMU_ERR_CONTEXT (pg : Nat) : Fld := ⟨pg + 0x120, 52, 4, 0⟩
def HBC_NMU_ERR_XID (pg : Nat) : Fld := ⟨pg + 0x120, 32, 15, 0⟩

/-! ### R262 -/

def VLT_STAT_UNITS : Fld := ⟨0xF0C00100, 48, 16, 2232⟩
def VLT_STAT_REG_ERR : Fld := ⟨0xF0C00100, 2, 1, 0⟩
def VLT_STAT_KEYS_READY : Fld := ⟨0xF0C00100, 1, 1, 0⟩
def VLT_SYS_GEN_GEN : Fld := ⟨0xF0C00108, 0, 32, 0⟩
def VLT_SYSREG_VALID (i : Nat) : Fld := ⟨0xF0C00110 + 8 * i, 63, 1, 0⟩
def VLT_SYSREG_SIZE (i : Nat) : Fld := ⟨0xF0C00110 + 8 * i, 16, 12, 0⟩
def VLT_SYSREG_BASE (i : Nat) : Fld := ⟨0xF0C00110 + 8 * i, 0, 12, 0⟩
def VLT_REPLAY_FAILS : Fld := ⟨0xF0C00120, 0, 32, 0⟩

/-! ### R263 -/

def VLT_GEN_GEN (pg : Nat) : Fld := ⟨pg + 0x100, 0, 32, 0⟩
def VLT_REG_VALID (pg : Nat) (i : Nat) : Fld := ⟨pg + 0x108 + 8 * i, 63, 1, 0⟩
def VLT_REG_SIZE (pg : Nat) (i : Nat) : Fld := ⟨pg + 0x108 + 8 * i, 16, 12, 0⟩
def VLT_REG_BASE (pg : Nat) (i : Nat) : Fld := ⟨pg + 0x108 + 8 * i, 0, 12, 0⟩
def VLT_OPTLAYOUT_TILES (pg : Nat) : Fld := ⟨pg + 0x130, 44, 20, 0⟩
def VLT_OPTLAYOUT_SPARE_MIN (pg : Nat) : Fld := ⟨pg + 0x130, 24, 20, 0⟩
def VLT_OPTLAYOUT_MFMT (pg : Nat) : Fld := ⟨pg + 0x130, 2, 1, 0⟩
def VLT_OPTLAYOUT_MOMENTS (pg : Nat) : Fld := ⟨pg + 0x130, 0, 2, 0⟩
def VLT_FILL_CLASS (pg : Nat) : Fld := ⟨pg + 0x138, 5, 3, 0⟩
def VLT_FILL_ERR (pg : Nat) : Fld := ⟨pg + 0x138, 4, 1, 0⟩
def VLT_FILL_DONE (pg : Nat) : Fld := ⟨pg + 0x138, 3, 1, 0⟩
def VLT_FILL_BUSY (pg : Nat) : Fld := ⟨pg + 0x138, 2, 1, 0⟩
def VLT_FILL_GO (pg : Nat) : Fld := ⟨pg + 0x138, 1, 1, 0⟩
def VLT_VAULT_TAINTED (pg : Nat) : Fld := ⟨pg + 0x140, 60, 1, 0⟩
def VLT_VAULT_LEVELS (pg : Nat) : Fld := ⟨pg + 0x140, 56, 4, 0⟩
def VLT_VAULT_DATA_BYTES (pg : Nat) : Fld := ⟨pg + 0x140, 0, 56, 0⟩
def VLT_INTEG_TAGFAIL (pg : Nat) : Fld := ⟨pg + 0x148, 32, 32, 0⟩
def VLT_INTEG_REPLAY (pg : Nat) : Fld := ⟨pg + 0x148, 0, 32, 0⟩
def VLT_WIN_SEL_CLASS (pg : Nat) : Fld := ⟨pg + 0x150, 61, 3, 0⟩
def VLT_WIN_SEL_OFFSET (pg : Nat) : Fld := ⟨pg + 0x150, 0, 45, 0⟩
def VLT_OPT_CFG_VALID (pg : Nat) (i : Nat) : Fld := ⟨pg + 0x200 + 64 * i, 63, 1, 0⟩
def VLT_OPT_CFG_OPT (pg : Nat) (i : Nat) : Fld := ⟨pg + 0x200 + 64 * i, 32, 2, 0⟩
def VLT_OPT_CFG_STEPS (pg : Nat) (i : Nat) : Fld := ⟨pg + 0x200 + 64 * i, 0, 32, 0⟩
def VLT_OPT_LRWD_LR (pg : Nat) (i : Nat) : Fld := ⟨pg + 0x208 + 64 * i, 32, 32, 0⟩
def VLT_OPT_LRWD_WD (pg : Nat) (i : Nat) : Fld := ⟨pg + 0x208 + 64 * i, 0, 32, 0⟩
def VLT_OPT_BETA_B1 (pg : Nat) (i : Nat) : Fld := ⟨pg + 0x210 + 64 * i, 32, 32, 0⟩
def VLT_OPT_BETA_B2 (pg : Nat) (i : Nat) : Fld := ⟨pg + 0x210 + 64 * i, 0, 32, 0⟩
def VLT_OPT_EPS_EPS (pg : Nat) (i : Nat) : Fld := ⟨pg + 0x218 + 64 * i, 0, 32, 0⟩
def VLT_OPT_PROD_P1 (pg : Nat) (i : Nat) : Fld := ⟨pg + 0x220 + 64 * i, 32, 32, 1065353216⟩
def VLT_OPT_PROD_P2 (pg : Nat) (i : Nat) : Fld := ⟨pg + 0x220 + 64 * i, 0, 32, 1065353216⟩

/-! ### R282 -/

def CTX_CTRL_BIND (pg : Nat) : Fld := ⟨pg + 0x100, 4, 1, 0⟩
def CTX_CTRL_OVERWRITE (pg : Nat) : Fld := ⟨pg + 0x100, 3, 1, 0⟩
def CTX_CTRL_RELEASE (pg : Nat) : Fld := ⟨pg + 0x100, 2, 1, 0⟩
def CTX_CTRL_ASSIGN (pg : Nat) : Fld := ⟨pg + 0x100, 1, 1, 0⟩
def CTX_STAT_ASSIGN_ERR (pg : Nat) : Fld := ⟨pg + 0x108, 32, 8, 0⟩
def CTX_STAT_ERR_LID (pg : Nat) : Fld := ⟨pg + 0x108, 16, 12, 0⟩
def CTX_STAT_RELEASE_REJ (pg : Nat) : Fld := ⟨pg + 0x108, 7, 1, 0⟩
def CTX_STAT_TENANT_CLOSED (pg : Nat) : Fld := ⟨pg + 0x108, 6, 1, 0⟩
def CTX_STAT_BOUND (pg : Nat) : Fld := ⟨pg + 0x108, 5, 1, 0⟩
def CTX_STAT_FILLING (pg : Nat) : Fld := ⟨pg + 0x108, 4, 1, 0⟩
def CTX_STAT_STATE (pg : Nat) : Fld := ⟨pg + 0x108, 0, 3, 0⟩
def CTX_SLICE_SPARE_QUOTA (pg : Nat) : Fld := ⟨pg + 0x110, 56, 8, 0⟩
def CTX_SLICE_SPARES_USED (pg : Nat) : Fld := ⟨pg + 0x110, 48, 8, 0⟩
def CTX_SLICE_N (pg : Nat) : Fld := ⟨pg + 0x110, 32, 13, 0⟩
def CTX_SLICE_HOME (pg : Nat) : Fld := ⟨pg + 0x110, 0, 14, 0⟩
def CTX_MAP_SEL_LID (pg : Nat) : Fld := ⟨pg + 0x118, 0, 12, 0⟩
def CTX_MAP_DATA_VALID (pg : Nat) : Fld := ⟨pg + 0x120, 63, 1, 0⟩
def CTX_MAP_DATA_REMAPPED (pg : Nat) : Fld := ⟨pg + 0x120, 62, 1, 0⟩
def CTX_MAP_DATA_FID (pg : Nat) : Fld := ⟨pg + 0x120, 0, 14, 0⟩
def CTX_SEED0_SEED (pg : Nat) : Fld := ⟨pg + 0x128, 0, 64, 0⟩
def CTX_SEED1_SEED (pg : Nat) : Fld := ⟨pg + 0x130, 0, 64, 0⟩
def CTX_QUOTA_ENERGY_UJ (pg : Nat) : Fld := ⟨pg + 0x138, 0, 32, 0⟩
def CTX_SINCE_BEAT (pg : Nat) : Fld := ⟨pg + 0x140, 0, 56, 0⟩
def CTX_SCRUB_PGH_NS (pg : Nat) : Fld := ⟨pg + 0x148, 32, 32, 0⟩
def CTX_SCRUB_ERASE_NS (pg : Nat) : Fld := ⟨pg + 0x148, 0, 32, 0⟩
def CTX_SWITCH_SWITCHES (pg : Nat) : Fld := ⟨pg + 0x150, 32, 32, 0⟩
def CTX_SWITCH_LATE_NS (pg : Nat) : Fld := ⟨pg + 0x150, 0, 32, 0⟩
def CTX_SERVICE_EVENTS (pg : Nat) : Fld := ⟨pg + 0x158, 0, 32, 0⟩

/-! ### R283 -/

def CTX_SUMMARY_ASSIGNING : Fld := ⟨0xF0D10100, 48, 16, 0⟩
def CTX_SUMMARY_RELEASING : Fld := ⟨0xF0D10100, 32, 16, 0⟩
def CTX_SUMMARY_BOUND : Fld := ⟨0xF0D10100, 16, 16, 0⟩
def CTX_SUMMARY_ASSIGNED : Fld := ⟨0xF0D10100, 0, 16, 0⟩

/-! ### R318 -/

def FRK_STAT_SESSIONS : Fld := ⟨0xE00100, 56, 8, 0⟩
def FRK_STAT_QUEUE : Fld := ⟨0xE00100, 48, 8, 0⟩
def FRK_STAT_RESET : Fld := ⟨0xE00100, 40, 8, 0⟩
def FRK_STAT_GUARD_BAD : Fld := ⟨0xE00100, 32, 8, 0⟩
def FRK_STAT_ADMITTED : Fld := ⟨0xE00100, 5, 1, 0⟩
def FRK_STAT_TAMPER : Fld := ⟨0xE00100, 4, 1, 0⟩
def FRK_STAT_STAGED_VALID : Fld := ⟨0xE00100, 3, 1, 0⟩
def FRK_STAT_UPDATE : Fld := ⟨0xE00100, 2, 1, 0⟩
def FRK_STAT_AK_READY : Fld := ⟨0xE00100, 1, 1, 0⟩
def FRK_STAT_BUSY : Fld := ⟨0xE00100, 0, 1, 0⟩
def FRK_SIGN_SIGNED : Fld := ⟨0xE00108, 32, 32, 0⟩
def FRK_SIGN_VERIFIED : Fld := ⟨0xE00108, 0, 32, 0⟩
def FRK_SIGTIME_AK_CERT_MS : Fld := ⟨0xE00110, 32, 32, 0⟩
def FRK_SIGTIME_MAX_US : Fld := ⟨0xE00110, 0, 32, 0⟩
def FRK_SPDM_ERRORS : Fld := ⟨0xE00118, 32, 32, 0⟩
def FRK_SPDM_OPENED : Fld := ⟨0xE00118, 0, 32, 0⟩
def FRK_RELEASE_RELEASED : Fld := ⟨0xE00120, 48, 16, 0⟩
def FRK_RELEASE_REFUSED : Fld := ⟨0xE00120, 32, 16, 0⟩
def FRK_RELEASE_LAST_CODE : Fld := ⟨0xE00120, 24, 8, 0⟩
def FRK_RELEASE_LAST_CTX : Fld := ⟨0xE00120, 20, 4, 0⟩
def FRK_DELIVER_DELIVERED : Fld := ⟨0xE00128, 32, 32, 0⟩
def FRK_DELIVER_REFUSED : Fld := ⟨0xE00128, 0, 32, 0⟩
def FRK_KEYSEL_CONTEXT : Fld := ⟨0xE00130, 3, 4, 0⟩
def FRK_KEYSEL_KEY_ID : Fld := ⟨0xE00130, 0, 3, 0⟩
def FRK_KEYREC_VALID : Fld := ⟨0xE00138, 63, 1, 0⟩
def FRK_KEYREC_LOADED : Fld := ⟨0xE00138, 62, 1, 0⟩
def FRK_KEYREC_HEAD : Fld := ⟨0xE00138, 61, 1, 0⟩
def FRK_KEYREC_PAIRED : Fld := ⟨0xE00138, 60, 1, 0⟩
def FRK_KEYREC_DELIVERED : Fld := ⟨0xE00138, 32, 13, 0⟩
def FRK_KEYREC_OWNER_TAG : Fld := ⟨0xE00138, 0, 32, 0⟩
def FRK_EPSEL_LID : Fld := ⟨0xE00140, 0, 12, 0⟩
def FRK_EPSTAT_CODE : Fld := ⟨0xE00148, 56, 8, 0⟩
def FRK_EPSTAT_KEYS : Fld := ⟨0xE00148, 48, 8, 0⟩
def FRK_EPSTAT_BEAT : Fld := ⟨0xE00148, 0, 48, 0⟩
def FRK_STAGED_DIGEST (i : Nat) : Fld := ⟨0xE00150 + 8 * i, 0, 64, 0⟩
def FRK_MEASSEL_INDEX : Fld := ⟨0xE00170, 0, 8, 1⟩
def FRK_MEAS_DIGEST (i : Nat) : Fld := ⟨0xE00178 + 8 * i, 0, 64, 0⟩

/-! ### R319 -/

def LCS_CTRL_CONFIRM : Fld := ⟨0xF0F00100, 32, 32, 0⟩
def LCS_CTRL_RETURN : Fld := ⟨0xF0F00100, 2, 1, 0⟩
def LCS_CTRL_SEAL : Fld := ⟨0xF0F00100, 1, 1, 0⟩
def LCS_STAT_ERR : Fld := ⟨0xF0F00108, 8, 8, 0⟩
def LCS_STAT_TRANSITION_DONE : Fld := ⟨0xF0F00108, 7, 1, 0⟩
def LCS_STAT_STATE : Fld := ⟨0xF0F00108, 0, 3, 2⟩
def LCS_PART_DIES : Fld := ⟨0xF0F00110, 48, 8, 255⟩
def LCS_PART_STACKS : Fld := ⟨0xF0F00110, 40, 8, 24⟩
def LCS_PART_LINKS : Fld := ⟨0xF0F00110, 32, 8, 96⟩
def LCS_PART_POWER_W : Fld := ⟨0xF0F00110, 16, 16, 1500⟩
def LCS_PART_TILE_MHZ : Fld := ⟨0xF0F00110, 4, 12, 1600⟩
def LCS_PART_PART : Fld := ⟨0xF0F00110, 0, 4, 0⟩
def LCS_DEVID_DIGEST (i : Nat) : Fld := ⟨0xF0F00118 + 8 * i, 0, 64, 0⟩
def LCS_TAMPER_COUNT : Fld := ⟨0xF0F00138, 32, 32, 0⟩
def LCS_TAMPER_LATCHED : Fld := ⟨0xF0F00138, 7, 1, 0⟩
def LCS_TAMPER_PIN : Fld := ⟨0xF0F00138, 4, 1, 0⟩
def LCS_TAMPER_MESH : Fld := ⟨0xF0F00138, 3, 1, 0⟩
def LCS_TAMPER_TEMP : Fld := ⟨0xF0F00138, 2, 1, 0⟩
def LCS_TAMPER_CLOCK : Fld := ⟨0xF0F00138, 1, 1, 0⟩
def LCS_TAMPER_SUPPLY : Fld := ⟨0xF0F00138, 0, 1, 0⟩
def LCS_TAMPER_CFG_PIN_EN : Fld := ⟨0xF0F00140, 0, 1, 1⟩
def LCS_SVN_AGENT : Fld := ⟨0xF0F00148, 48, 16, 0⟩
def LCS_SVN_SEQ : Fld := ⟨0xF0F00148, 32, 16, 0⟩
def LCS_SVN_CONTROL : Fld := ⟨0xF0F00148, 16, 16, 0⟩
def LCS_SVN_ROT : Fld := ⟨0xF0F00148, 0, 16, 0⟩
def LCS_FUSE_BAD_LANES : Fld := ⟨0xF0F00150, 56, 8, 0⟩
def LCS_FUSE_SRAM_REPAIRS : Fld := ⟨0xF0F00150, 40, 16, 0⟩

/-! ### R350 -/

def HPT_STAT_MKA : Fld := ⟨0x1000100, 9, 3, 0⟩
def HPT_STAT_MACSEC : Fld := ⟨0x1000100, 8, 1, 0⟩
def HPT_STAT_FEC_LOCK : Fld := ⟨0x1000100, 3, 1, 0⟩
def HPT_STAT_PCS_LOCK : Fld := ⟨0x1000100, 2, 1, 0⟩
def HPT_STAT_LINK : Fld := ⟨0x1000100, 0, 2, 0⟩
def HPT_MAC_ADDR : Fld := ⟨0x1000108, 0, 48, 0⟩
def HPT_IP6_LO_ADDR : Fld := ⟨0x1000110, 0, 64, 0⟩
def HPT_IP6_HI_ADDR : Fld := ⟨0x1000118, 0, 64, 0⟩
def HPT_VLAN_EN : Fld := ⟨0x1000120, 16, 1, 0⟩
def HPT_VLAN_VID : Fld := ⟨0x1000120, 0, 12, 0⟩
def HPT_UDP_PORT : Fld := ⟨0x1000128, 0, 16, 53902⟩
def HPT_MACSEC_WINDOW : Fld := ⟨0x1000130, 0, 32, 0⟩
def HPT_FRAMES_RX : Fld := ⟨0x1000138, 32, 32, 0⟩
def HPT_FRAMES_TX : Fld := ⟨0x1000138, 0, 32, 0⟩
def HPT_FEC_UNCORR : Fld := ⟨0x1000140, 32, 32, 0⟩
def HPT_FEC_CORR : Fld := ⟨0x1000140, 0, 32, 0⟩
def HPT_DISCARD_FCS : Fld := ⟨0x1000148, 48, 16, 0⟩
def HPT_DISCARD_MACSEC : Fld := ⟨0x1000148, 32, 16, 0⟩
def HPT_DISCARD_ADDR : Fld := ⟨0x1000148, 16, 16, 0⟩
def HPT_DISCARD_BEYJO : Fld := ⟨0x1000148, 0, 16, 0⟩

/-! ### R351 -/

def BYJ_STAT_OPEN : Fld := ⟨0x1100100, 0, 8, 0⟩
def BYJ_SESSEL_INDEX : Fld := ⟨0x1100108, 0, 6, 0⟩
def BYJ_SESS_GEN : Fld := ⟨0x1100110, 38, 26, 0⟩
def BYJ_SESS_OPEN : Fld := ⟨0x1100110, 32, 1, 0⟩
def BYJ_SESS_ROLE : Fld := ⟨0x1100110, 29, 3, 0⟩
def BYJ_SESS_CONTEXT : Fld := ⟨0x1100110, 25, 4, 0⟩
def BYJ_SESS_QUEUED : Fld := ⟨0x1100110, 16, 9, 0⟩
def BYJ_SESS_IDLE_MS : Fld := ⟨0x1100110, 0, 16, 0⟩
def BYJ_CLOSE_INDEX : Fld := ⟨0x1100118, 0, 6, 0⟩
def BYJ_OPEN_CNT_REFUSED : Fld := ⟨0x1100120, 32, 32, 0⟩
def BYJ_OPEN_CNT_OPENED : Fld := ⟨0x1100120, 0, 32, 0⟩
def BYJ_REJECT_TAG : Fld := ⟨0x1100128, 32, 32, 0⟩
def BYJ_REJECT_SEQ : Fld := ⟨0x1100128, 0, 32, 0⟩
def BYJ_NOTIFY_LOST : Fld := ⟨0x1100130, 32, 32, 0⟩
def BYJ_NOTIFY_RESENT : Fld := ⟨0x1100130, 0, 32, 0⟩

/-! ### R352 -/

def MSL_SCAN_SCANS : Fld := ⟨0x21200100, 32, 32, 0⟩
def MSL_SCAN_FULL : Fld := ⟨0x21200100, 0, 32, 0⟩
def MSL_COUNT_DONE : Fld := ⟨0x21200108, 32, 32, 0⟩
def MSL_COUNT_REJECTED : Fld := ⟨0x21200108, 0, 32, 0⟩

/-! ### R353 -/

def MSL_SESS_TAKEN (pg : Nat) : Fld := ⟨pg + 0x100, 0, 16, 0⟩

/-! ### R354 -/

def GEN_MODE_IN_FORCE : Fld := ⟨0xF0100180, 32, 9, 0⟩
def GEN_MODE_HOST : Fld := ⟨0xF0100180, 0, 9, 0⟩

/-! ### R379 -/

def PG_ID_VERSION (pg : Nat) : Fld := ⟨pg + 0x0, 0, 12, 1⟩
def PG_STAT_STATE (pg : Nat) : Fld := ⟨pg + 0x10, 0, 3, 0⟩
def PG_LOCK_STICKY (pg : Nat) : Fld := ⟨pg + 0x38, 1, 1, 0⟩
def PG_LOCK_LOCK (pg : Nat) : Fld := ⟨pg + 0x38, 0, 1, 0⟩
def PG_FAULT_LEVEL (pg : Nat) : Fld := ⟨pg + 0x18, 62, 2, 0⟩
def PG_FAULT_RAISED (pg : Nat) : Fld := ⟨pg + 0x18, 0, 32, 0⟩
def PG_FMASK_MASK (pg : Nat) : Fld := ⟨pg + 0x20, 0, 32, 0⟩
def PG_JIG_EVERY (pg : Nat) : Fld := ⟨pg + 0x28, 48, 16, 1⟩
def PG_JIG_FIRED (pg : Nat) : Fld := ⟨pg + 0x28, 32, 8, 0⟩
def PG_JIG_DET (pg : Nat) : Fld := ⟨pg + 0x28, 16, 5, 0⟩
def PG_JIG_MODE (pg : Nat) : Fld := ⟨pg + 0x28, 2, 2, 0⟩
def PG_JIG_REFUSED (pg : Nat) : Fld := ⟨pg + 0x28, 1, 1, 0⟩
def PG_JIG_GO (pg : Nat) : Fld := ⟨pg + 0x28, 0, 1, 0⟩

/-! ### R380 -/

def FLT_CTRL_LOG_NOTE : Fld := ⟨0x1300100, 2, 1, 0⟩
def FLT_CTRL_CLEAR_LOG : Fld := ⟨0x1300100, 1, 1, 0⟩
def FLT_CTRL_CLEAR_FIRST : Fld := ⟨0x1300100, 0, 1, 0⟩
def FLT_STAT_RAISED : Fld := ⟨0x1300108, 16, 16, 0⟩
def FLT_STAT_PIN : Fld := ⟨0x1300108, 3, 1, 0⟩
def FLT_STAT_FIRST_VALID : Fld := ⟨0x1300108, 2, 1, 0⟩
def FLT_STAT_LEVEL : Fld := ⟨0x1300108, 0, 2, 0⟩
def FLT_PIN_FLOOR_FLOOR : Fld := ⟨0x1300110, 0, 2, 1⟩
def FLT_POLICY_WAIT_MS : Fld := ⟨0x1300118, 0, 16, 20⟩
def FLT_REACT_PENDING : Fld := ⟨0x1300120, 63, 1, 0⟩
def FLT_REACT_ALLOWED : Fld := ⟨0x1300120, 48, 8, 0⟩
def FLT_REACT_DEFAULT : Fld := ⟨0x1300120, 40, 8, 0⟩
def FLT_REACT_CHOICE : Fld := ⟨0x1300120, 32, 8, 0⟩
def FLT_REACT_SERIAL : Fld := ⟨0x1300120, 0, 32, 0⟩
def FLT_FIRST_WORD (i : Nat) : Fld := ⟨0x1300128 + 8 * i, 0, 64, 0⟩
def FLT_MERGE_MERGED : Fld := ⟨0x1300148, 32, 32, 0⟩
def FLT_MERGE_CONSEQ : Fld := ⟨0x1300148, 0, 32, 0⟩
def FLT_COUNT_FATAL : Fld := ⟨0x1300150, 48, 16, 0⟩
def FLT_COUNT_SEVERE : Fld := ⟨0x1300150, 32, 16, 0⟩
def FLT_COUNT_MINOR : Fld := ⟨0x1300150, 16, 16, 0⟩
def FLT_COUNT_NOTE : Fld := ⟨0x1300150, 0, 16, 0⟩
def FLT_LOG_HEAD_OVERFLOW : Fld := ⟨0x1300158, 32, 32, 0⟩
def FLT_LOG_HEAD_HEAD : Fld := ⟨0x1300158, 0, 10, 0⟩
def FLT_LOG_SEL_INDEX : Fld := ⟨0x1300160, 0, 10, 0⟩
def FLT_LOG_WORD (i : Nat) : Fld := ⟨0x1300168 + 8 * i, 0, 64, 0⟩
def FLT_SRCSEL_SOURCE : Fld := ⟨0x1300188, 0, 39, 0⟩
def FLT_SRC_LEVEL : Fld := ⟨0x1300190, 62, 2, 0⟩
def FLT_SRC_INITIAL : Fld := ⟨0x1300190, 60, 2, 0⟩
def FLT_SRC_SECURITY : Fld := ⟨0x1300190, 59, 1, 0⟩
def FLT_SRC_MASKED : Fld := ⟨0x1300190, 58, 1, 0⟩
def FLT_SRC_RAISED : Fld := ⟨0x1300190, 57, 1, 0⟩
def FLT_SRC_COUNT : Fld := ⟨0x1300190, 40, 8, 0⟩
def FLT_THRESH_N : Fld := ⟨0x1300198, 56, 8, 0⟩
def FLT_THRESH_UNIT : Fld := ⟨0x1300198, 32, 1, 0⟩
def FLT_THRESH_W : Fld := ⟨0x1300198, 0, 32, 0⟩
def FLT_THRESH_F_NF : Fld := ⟨0x13001A0, 56, 8, 0⟩
def FLT_THRESH_F_WF_MS : Fld := ⟨0x13001A0, 0, 32, 0⟩

/-! ### R381 -/

def FLT_DLL_HEAD_OVERFLOW (pg : Nat) : Fld := ⟨pg + 0x100, 32, 32, 0⟩
def FLT_DLL_HEAD_WRAPPED (pg : Nat) : Fld := ⟨pg + 0x100, 12, 1, 0⟩
def FLT_DLL_HEAD_HEAD (pg : Nat) : Fld := ⟨pg + 0x100, 0, 12, 0⟩
def FLT_DLL_SEL_INDEX (pg : Nat) : Fld := ⟨pg + 0x108, 0, 12, 0⟩
def FLT_DLL_WORD (pg : Nat) (i : Nat) : Fld := ⟨pg + 0x110 + 8 * i, 0, 64, 0⟩
def FLT_DLL_CTRL_CLEAR (pg : Nat) : Fld := ⟨pg + 0x130, 0, 1, 0⟩

/-! ### R382 -/

def JIG_ARM_TIMEOUT_S : Fld := ⟨0xF1400100, 8, 16, 60⟩
def JIG_ARM_ARM : Fld := ⟨0xF1400100, 0, 1, 0⟩
def JIG_STAT_INJECTED : Fld := ⟨0xF1400108, 32, 32, 0⟩
def JIG_STAT_REFUSED : Fld := ⟨0xF1400108, 0, 32, 0⟩
def JIG_LAST_REASON : Fld := ⟨0xF1400110, 56, 8, 0⟩
def JIG_LAST_SOURCE : Fld := ⟨0xF1400110, 0, 39, 0⟩

/-! ### R409 -/

def RST_CTRL_BLOCK : Fld := ⟨0xF1600100, 16, 8, 0⟩
def RST_CTRL_DIE : Fld := ⟨0xF1600100, 12, 4, 0⟩
def RST_CTRL_DOMAIN : Fld := ⟨0xF1600100, 1, 2, 0⟩
def RST_CTRL_GO : Fld := ⟨0xF1600100, 0, 1, 0⟩
def RST_STAT_IN_RESET : Fld := ⟨0xF1600108, 48, 8, 0⟩
def RST_STAT_BLOCK : Fld := ⟨0xF1600108, 40, 8, 0⟩
def RST_STAT_DIE : Fld := ⟨0xF1600108, 36, 4, 0⟩
def RST_STAT_DOMAIN : Fld := ⟨0xF1600108, 34, 2, 0⟩
def RST_STAT_QUEUED : Fld := ⟨0xF1600108, 3, 1, 0⟩
def RST_STAT_PHASE : Fld := ⟨0xF1600108, 0, 3, 0⟩
def RST_TIME_LAST_US : Fld := ⟨0xF1600110, 32, 32, 0⟩
def RST_TIME_DUMP_US : Fld := ⟨0xF1600110, 0, 32, 0⟩
def RST_COUNT_XDIE : Fld := ⟨0xF1600118, 48, 16, 0⟩
def RST_COUNT_COMPUTE : Fld := ⟨0xF1600118, 32, 16, 0⟩
def RST_COUNT_ENGINE : Fld := ⟨0xF1600118, 0, 32, 0⟩
def RST_WDOG0_TTB_EXEC : Fld := ⟨0xF1600120, 48, 16, 4⟩
def RST_WDOG0_FABRIC : Fld := ⟨0xF1600120, 32, 16, 256⟩
def RST_WDOG0_PRU : Fld := ⟨0xF1600120, 16, 16, 256⟩
def RST_WDOG0_TILE : Fld := ⟨0xF1600120, 0, 16, 4096⟩
def RST_WDOG1_NMU : Fld := ⟨0xF1600128, 16, 16, 4096⟩
def RST_WDOG1_CODEC : Fld := ⟨0xF1600128, 0, 16, 256⟩
def RST_HANG_COUNT : Fld := ⟨0xF1600130, 32, 32, 0⟩
def RST_HANG_BLOCK : Fld := ⟨0xF1600130, 24, 8, 0⟩
def RST_HANG_DIE : Fld := ⟨0xF1600130, 20, 4, 0⟩
def RST_REMAP_RESET_MS : Fld := ⟨0xF1600138, 32, 32, 10000⟩
def RST_REMAP_LOST_MS : Fld := ⟨0xF1600138, 0, 16, 100⟩
def RST_REMAP_STAT_CONTEXT : Fld := ⟨0xF1600140, 60, 4, 0⟩
def RST_REMAP_STAT_LID : Fld := ⟨0xF1600140, 48, 12, 0⟩
def RST_REMAP_STAT_SPARE : Fld := ⟨0xF1600140, 34, 14, 0⟩
def RST_REMAP_STAT_LAST_CODE : Fld := ⟨0xF1600140, 8, 8, 0⟩
def RST_REMAP_STAT_PHASE : Fld := ⟨0xF1600140, 0, 4, 0⟩
def RST_STREAM_BYTES : Fld := ⟨0xF1600148, 0, 64, 0⟩

/-! ### R410 -/

def DMP_CTRL_BUDGET_MS : Fld := ⟨0xF1500100, 16, 16, 50⟩
def DMP_LOCK_LOCKED : Fld := ⟨0xF1500108, 0, 16, 0⟩
def DMP_STAT_SLOTS : Fld := ⟨0xF1500110, 56, 8, 16⟩
def DMP_STAT_LAST : Fld := ⟨0xF1500110, 52, 4, 0⟩
def DMP_STAT_UNREACH : Fld := ⟨0xF1500110, 32, 16, 0⟩
def DMP_STAT_NOSLOT : Fld := ⟨0xF1500110, 16, 16, 0⟩
def DMP_STAT_NOTREAD : Fld := ⟨0xF1500110, 1, 1, 0⟩
def DMP_STAT_BUSY : Fld := ⟨0xF1500110, 0, 1, 0⟩
def DMP_COUNT_DUMPS : Fld := ⟨0xF1500118, 32, 32, 0⟩
def DMP_WIN_SEL_SLOT : Fld := ⟨0xF1500120, 60, 4, 0⟩
def DMP_WIN_SEL_OFFSET : Fld := ⟨0xF1500120, 0, 26, 0⟩

/-! ### R440 -/

def PAR_CTRL_FULL : Fld := ⟨0xF1700100, 2, 1, 0⟩
def PAR_CTRL_SYNC : Fld := ⟨0xF1700100, 1, 1, 0⟩
def PAR_STAT_TAKEOVER : Fld := ⟨0xF1700108, 32, 8, 0⟩
def PAR_STAT_CANDIDATE : Fld := ⟨0xF1700108, 11, 1, 0⟩
def PAR_STAT_MISMATCH : Fld := ⟨0xF1700108, 10, 1, 0⟩
def PAR_STAT_LEDGER_UP : Fld := ⟨0xF1700108, 8, 2, 0⟩
def PAR_STAT_COPY : Fld := ⟨0xF1700108, 4, 3, 0⟩
def PAR_STAT_ROLE : Fld := ⟨0xF1700108, 0, 2, 0⟩
def PAR_GEN_GEN : Fld := ⟨0xF1700110, 0, 64, 0⟩
def PAR_LEASE_HELD : Fld := ⟨0xF1700118, 63, 1, 0⟩
def PAR_LEASE_EXPIRY : Fld := ⟨0xF1700118, 0, 56, 0⟩
def PAR_TIMING_GUARD_MS : Fld := ⟨0xF1700120, 48, 16, 4⟩
def PAR_TIMING_LEASE_MS : Fld := ⟨0xF1700120, 32, 16, 50⟩
def PAR_TIMING_RENEW_MS : Fld := ⟨0xF1700120, 16, 16, 8⟩
def PAR_TIMING_SYNC_MS : Fld := ⟨0xF1700120, 0, 16, 100⟩
def PAR_REFEREE_PRIMARY : Fld := ⟨0xF1700128, 50, 14, 0⟩
def PAR_REFEREE_ALTERNATE : Fld := ⟨0xF1700128, 36, 14, 0⟩
def PAR_REFEREE_IN_USE : Fld := ⟨0xF1700128, 35, 1, 0⟩
def PAR_REFEREE_BRIDGE : Fld := ⟨0xF1700128, 0, 14, 0⟩
def PAR_COPY_KIB : Fld := ⟨0xF1700130, 32, 32, 0⟩
def PAR_COPY_GENS : Fld := ⟨0xF1700130, 0, 32, 0⟩
def PAR_LAST_US : Fld := ⟨0xF1700138, 32, 32, 0⟩
def PAR_LAST_KIB : Fld := ⟨0xF1700138, 0, 32, 0⟩
def PAR_COVER_COVERED : Fld := ⟨0xF1700140, 0, 16, 0⟩
def PAR_STORE_FREE_MIB : Fld := ⟨0xF1700148, 32, 32, 0⟩
def PAR_STORE_TOTAL_MIB : Fld := ⟨0xF1700148, 0, 32, 0⟩
def PAR_TAKEOVER_LAST_MS : Fld := ⟨0xF1700150, 32, 32, 0⟩
def PAR_TAKEOVER_CAUSE : Fld := ⟨0xF1700150, 24, 8, 0⟩
def PAR_TAKEOVER_COUNT : Fld := ⟨0xF1700150, 0, 16, 0⟩
def PAR_MIRROR_PENDING : Fld := ⟨0xF1700158, 0, 64, 0⟩
def PAR_REFD_DOMAINS : Fld := ⟨0xF1700160, 0, 64, 0⟩

/-! ### R463 -/

def GEN_BOOT_FALLBACK : Fld := ⟨0xF0100100, 40, 8, 0⟩
def GEN_BOOT_RUN_SLOT : Fld := ⟨0xF0100100, 32, 8, 0⟩
def GEN_BOOT_BOOT_MS : Fld := ⟨0xF0100100, 16, 16, 0⟩
def GEN_BOOT_ERR : Fld := ⟨0xF0100100, 8, 8, 0⟩
def GEN_BOOT_STATE : Fld := ⟨0xF0100100, 0, 4, 0⟩
def GEN_STRAP_XSPI_SAFE : Fld := ⟨0xF0100108, 1, 1, 0⟩
def GEN_STRAP_FSEL : Fld := ⟨0xF0100108, 0, 1, 0⟩
def GEN_FW_KIND : Fld := ⟨0xF0100110, 56, 8, 0⟩
def GEN_FW_STATE : Fld := ⟨0xF0100110, 48, 8, 0⟩
def GEN_FW_SVN : Fld := ⟨0xF0100110, 32, 16, 0⟩
def GEN_FW_VER : Fld := ⟨0xF0100110, 0, 32, 0⟩
def GEN_FWVER_SVN (i : Nat) : Fld := ⟨0xF0100118 + 8 * i, 32, 16, 0⟩
def GEN_FWVER_VER (i : Nat) : Fld := ⟨0xF0100118 + 8 * i, 0, 32, 0⟩
def GEN_AGENTFW_TARGETS : Fld := ⟨0xF0100148, 48, 16, 0⟩
def GEN_AGENTFW_VERIFIED : Fld := ⟨0xF0100148, 32, 16, 0⟩
def GEN_AGENTFW_FAILED : Fld := ⟨0xF0100148, 16, 16, 0⟩
def GEN_AGENTFW_STATE : Fld := ⟨0xF0100148, 0, 4, 0⟩
def GEN_ROD_SERIAL : Fld := ⟨0xF0100150, 32, 32, 0⟩
def GEN_ROD_MISMATCHES : Fld := ⟨0xF0100150, 16, 16, 0⟩
def GEN_ROD_ERR : Fld := ⟨0xF0100150, 8, 8, 0⟩
def GEN_ROD_STATE : Fld := ⟨0xF0100150, 0, 2, 0⟩
def GEN_ROD_DETAIL_RECORD : Fld := ⟨0xF0100158, 0, 32, 0⟩
def GEN_MIS_SEL_INDEX : Fld := ⟨0xF0100160, 0, 12, 0⟩
def GEN_MIS_KIND : Fld := ⟨0xF0100168, 56, 8, 0⟩
def GEN_MIS_FID : Fld := ⟨0xF0100168, 42, 14, 0⟩
def GEN_MIS_PORT : Fld := ⟨0xF0100168, 34, 8, 0⟩
def GEN_MIS_SEEN_FID : Fld := ⟨0xF0100168, 20, 14, 0⟩
def GEN_MIS_SEEN_PORT : Fld := ⟨0xF0100168, 12, 8, 0⟩
def GEN_MIS_WIDTH : Fld := ⟨0xF0100168, 10, 2, 0⟩
def GEN_MIS_MIN_WIDTH : Fld := ⟨0xF0100168, 8, 2, 0⟩
def GEN_LOAD_SEL_OFFSET : Fld := ⟨0xF0100170, 0, 23, 0⟩
def GEN_FID_VALID : Fld := ⟨0xF0100178, 63, 1, 0⟩
def GEN_FID_UNIT : Fld := ⟨0xF0100178, 14, 1, 0⟩
def GEN_FID_FID : Fld := ⟨0xF0100178, 0, 14, 0⟩

/-! ### R513 -/

def AGT_STAT_INFLIGHT : Fld := ⟨0x1900100, 0, 9, 0⟩
def AGT_COUNT_SENT : Fld := ⟨0x1900108, 32, 32, 0⟩
def AGT_COUNT_DONE : Fld := ⟨0x1900108, 0, 32, 0⟩
def AGT_ERR_TIMEOUT : Fld := ⟨0x1900110, 48, 16, 0⟩
def AGT_ERR_RETRY : Fld := ⟨0x1900110, 32, 16, 0⟩
def AGT_ERR_LATE : Fld := ⟨0x1900110, 16, 16, 0⟩
def AGT_ERR_HELD : Fld := ⟨0x1900110, 0, 16, 0⟩
def AGT_LAST_FID : Fld := ⟨0x1900118, 50, 14, 0⟩
def AGT_LAST_STATUS : Fld := ⟨0x1900118, 40, 8, 0⟩
def AGT_LAST_ADDRESS : Fld := ⟨0x1900118, 0, 32, 0⟩

/-! ### R528 -/

def PWR_STAT_HOT_DIE : Fld := ⟨0xF1800100, 12, 4, 0⟩
def PWR_STAT_THROTTLED : Fld := ⟨0xF1800100, 7, 1, 0⟩
def PWR_STAT_STACK_HOT : Fld := ⟨0xF1800100, 6, 1, 0⟩
def PWR_STAT_C_POWER : Fld := ⟨0xF1800100, 0, 2, 0⟩
def PWR_BUDGET_POWER_W : Fld := ⟨0xF1800108, 48, 16, 1500⟩
def PWR_BUDGET_BUDGET_W : Fld := ⟨0xF1800108, 32, 16, 1500⟩
def PWR_BUDGET_IDLE_W : Fld := ⟨0xF1800108, 16, 16, 420⟩
def PWR_WINDOW_BUDGET_UJ : Fld := ⟨0xF1800110, 32, 32, 0⟩
def PWR_WINDOW_IDLE_UJ : Fld := ⟨0xF1800110, 0, 32, 0⟩
def PWR_ENERGY_DECLARED_UJ : Fld := ⟨0xF1800118, 32, 32, 0⟩
def PWR_ENERGY_LAST_UJ : Fld := ⟨0xF1800118, 0, 32, 0⟩
def PWR_OVER_WINDOWS : Fld := ⟨0xF1800120, 32, 32, 0⟩
def PWR_OVER_MAX_UJ : Fld := ⟨0xF1800120, 0, 32, 0⟩
def PWR_POWER_AVG_W : Fld := ⟨0xF1800128, 0, 16, 0⟩
def PWR_TEMP_STACK_C : Fld := ⟨0xF1800130, 40, 8, 0⟩
def PWR_TEMP_DIE_C : Fld := ⟨0xF1800130, 24, 8, 0⟩
def PWR_THROTTLE_COUNT : Fld := ⟨0xF1800138, 32, 32, 0⟩
def PWR_THROTTLE_LAST_MS : Fld := ⟨0xF1800138, 0, 32, 0⟩
def PWR_CPWR_GOOD : Fld := ⟨0xF1800140, 2, 2, 0⟩
def PWR_CPWR_EN : Fld := ⟨0xF1800140, 0, 2, 0⟩

/-! ### R529 -/

def PWR_DIE_TEMP_MAX_C (pg : Nat) : Fld := ⟨pg + 0x100, 56, 8, 0⟩
def PWR_DIE_TEMP_SENSOR (pg : Nat) : Fld := ⟨pg + 0x100, 48, 8, 0⟩
def PWR_DIE_TEMP_SENSORS (pg : Nat) : Fld := ⟨pg + 0x100, 40, 8, 0⟩
def PWR_DIE_RAIL_WARN (pg : Nat) (i : Nat) : Fld := ⟨pg + 0x108 + 8 * i, 63, 1, 0⟩
def PWR_DIE_RAIL_MV (pg : Nat) (i : Nat) : Fld := ⟨pg + 0x108 + 8 * i, 32, 16, 0⟩
def PWR_DIE_RAIL_AMPS (pg : Nat) (i : Nat) : Fld := ⟨pg + 0x108 + 8 * i, 16, 16, 0⟩

namespace Ia

/-! ### R476 -/

def TMK_STAT_SRC_PORT : Fld := ⟨0x200108, 8, 8, 255⟩
def TMK_STAT_HOPS : Fld := ⟨0x200108, 5, 3, 0⟩
def TMK_STAT_HOLD : Fld := ⟨0x200108, 3, 1, 0⟩
def TMK_STAT_STATE : Fld := ⟨0x200108, 0, 3, 0⟩
def TMK_NOW_POSTMARK : Fld := ⟨0x200110, 0, 64, 0⟩
def TMK_PERIOD_PERIOD_NS : Fld := ⟨0x200118, 0, 14, 512⟩
def TMK_MISS_SWITCHES : Fld := ⟨0x200170, 32, 32, 0⟩
def TMK_MISS_MISSED : Fld := ⟨0x200170, 0, 32, 0⟩
def TMK_ERR_PHASE_PS : Fld := ⟨0x200178, 0, 32, 0⟩

/-! ### R478 -/

def RTE_TBL_SEL_SHADOW : Fld := ⟨0x500200, 63, 1, 0⟩
def RTE_TBL_SEL_DST : Fld := ⟨0x500200, 0, 14, 0⟩
def RTE_TBL_DATA_ENTRY : Fld := ⟨0x500208, 0, 64, 0⟩
def RTE_MAP_SEL_SHADOW : Fld := ⟨0x500210, 63, 1, 0⟩
def RTE_MAP_SEL_LID : Fld := ⟨0x500210, 0, 12, 0⟩
def RTE_MAP_DATA_VALID : Fld := ⟨0x500218, 15, 1, 0⟩
def RTE_MAP_DATA_FID : Fld := ⟨0x500218, 0, 14, 0⟩
def RTE_SELF_VALID : Fld := ⟨0x500220, 63, 1, 0⟩
def RTE_SELF_CONTEXT : Fld := ⟨0x500220, 16, 4, 0⟩
def RTE_SELF_LID : Fld := ⟨0x500220, 0, 12, 0⟩
def RTE_PAIR_ACTIVE : Fld := ⟨0x500228, 50, 14, 0⟩
def RTE_PAIR_STANDBY : Fld := ⟨0x500228, 36, 14, 0⟩
def RTE_PAIR_REFEREE : Fld := ⟨0x500228, 22, 14, 0⟩
def RTE_PAIR_ALT_REF : Fld := ⟨0x500228, 8, 14, 0⟩

/-! ### R483 -/

def TTB_CTRL_DISARM : Fld := ⟨0x600100, 4, 1, 0⟩
def TTB_CTRL_ARM : Fld := ⟨0x600100, 3, 1, 0⟩
def TTB_STAT_ARM_ERR : Fld := ⟨0x600108, 56, 8, 0⟩
def TTB_STAT_STATE : Fld := ⟨0x600108, 0, 4, 0⟩
def TTB_ARM_AT_BEAT : Fld := ⟨0x600118, 0, 56, 0⟩
def TTB_BASE_BEAT : Fld := ⟨0x600120, 0, 56, 0⟩
def TTB_LDIGEST_DIGEST (i : Nat) : Fld := ⟨0x600180 + 8 * i, 0, 64, 0⟩
def TTB_LLEN_ENTRIES : Fld := ⟨0x6001A0, 0, 17, 0⟩
def TTB_LSEL_INDEX : Fld := ⟨0x6001A8, 0, 16, 0⟩
def TTB_SINK_CELLS : Fld := ⟨0x6001B0, 0, 16, 0⟩
def TTB_REST_REST_US : Fld := ⟨0x6001B8, 0, 32, 4294967295⟩
def TTB_EVT_EVENT : Fld := ⟨0x6001C0, 0, 64, 0⟩
def TTB_EVTSTAT_LOST : Fld := ⟨0x6001C8, 8, 1, 0⟩
def TTB_EVTSTAT_DEPTH : Fld := ⟨0x6001C8, 0, 8, 0⟩
def TTB_HSEL_HANDLE : Fld := ⟨0x6001D0, 0, 12, 0⟩
def TTB_HBASE_BASE : Fld := ⟨0x6001D8, 6, 58, 0⟩
def TTB_HLEN_VALID : Fld := ⟨0x6001E0, 63, 1, 0⟩
def TTB_HLEN_RD : Fld := ⟨0x6001E0, 62, 1, 0⟩
def TTB_HLEN_WR : Fld := ⟨0x6001E0, 61, 1, 0⟩
def TTB_HLEN_LEN : Fld := ⟨0x6001E0, 0, 40, 0⟩
def TTB_XSEL_XID : Fld := ⟨0x6001E8, 0, 15, 0⟩
def TTB_XDST_VALID : Fld := ⟨0x6001F0, 63, 1, 0⟩
def TTB_XDST_FID : Fld := ⟨0x6001F0, 0, 14, 0⟩
def TTB_CSEL_CIDX : Fld := ⟨0x6001F8, 0, 16, 0⟩
def TTB_CTR_BOUND : Fld := ⟨0x600200, 63, 1, 0⟩
def TTB_CTR_EXPECT : Fld := ⟨0x600200, 32, 16, 0⟩
def TTB_CTR_COUNT : Fld := ⟨0x600200, 0, 16, 0⟩
def TTB_SEED0_SEED : Fld := ⟨0x600208, 0, 64, 0⟩
def TTB_SEED1_SEED : Fld := ⟨0x600210, 0, 64, 0⟩
def TTB_RSTAT_END : Fld := ⟨0x600218, 63, 1, 0⟩
def TTB_RSTAT_CELLS : Fld := ⟨0x600218, 0, 32, 0⟩
def TTB_RSEL_CHUNK : Fld := ⟨0x600220, 0, 13, 0⟩
def TTB_RCHUNK_CLEAR : Fld := ⟨0x600228, 63, 1, 0⟩
def TTB_RCHUNK_COUNT : Fld := ⟨0x600228, 0, 21, 0⟩
def TTB_SLEN_STEPS : Fld := ⟨0x600230, 0, 17, 0⟩
def TTB_ITERB_ITER_BEATS : Fld := ⟨0x600238, 32, 32, 0⟩
def TTB_ITERB_ITER : Fld := ⟨0x600238, 0, 32, 0⟩
def TTB_TIMING_SETTLE : Fld := ⟨0x600240, 32, 8, 0⟩
def TTB_TIMING_GRACE : Fld := ⟨0x600240, 0, 8, 0⟩
def TTB_SSEL_INDEX : Fld := ⟨0x600248, 0, 16, 0⟩

/-! ### R484 -/

def CDC_JOB_SRC_HANDLE : Fld := ⟨0x800300, 52, 12, 0⟩
def CDC_JOB_SRC_OFFSET : Fld := ⟨0x800300, 0, 40, 0⟩
def CDC_JOB_DST_HANDLE : Fld := ⟨0x800308, 52, 12, 0⟩
def CDC_JOB_DST_OFFSET : Fld := ⟨0x800308, 0, 40, 0⟩
def CDC_JOB_CFG_FMT : Fld := ⟨0x800310, 56, 8, 0⟩
def CDC_JOB_CFG_DIR : Fld := ⟨0x800310, 55, 1, 0⟩
def CDC_JOB_CFG_IN : Fld := ⟨0x800310, 45, 2, 0⟩
def CDC_JOB_CFG_XID : Fld := ⟨0x800310, 0, 15, 0⟩
def CDC_JOB_N_INDEX : Fld := ⟨0x800318, 32, 32, 0⟩
def CDC_JOB_N_ELEMS : Fld := ⟨0x800318, 0, 32, 0⟩
def CDC_JOB_BEAT_BEAT : Fld := ⟨0x800320, 0, 56, 0⟩
def CDC_JOB_CTRL_ERR : Fld := ⟨0x800328, 4, 4, 0⟩
def CDC_JOB_CTRL_DONE : Fld := ⟨0x800328, 2, 1, 0⟩
def CDC_JOB_CTRL_BUSY : Fld := ⟨0x800328, 1, 1, 0⟩
def CDC_JOB_CTRL_GO : Fld := ⟨0x800328, 0, 1, 0⟩

/-! ### R488 -/

def FRK_CTRL_CERT_LOCK : Fld := ⟨0xE00100, 2, 1, 0⟩
def FRK_CTRL_MEAS_DONE : Fld := ⟨0xE00100, 1, 1, 0⟩
def FRK_CTRL_MEAS_START : Fld := ⟨0xE00100, 0, 1, 0⟩
def FRK_STAT_EV_PENDING : Fld := ⟨0xE00108, 7, 1, 0⟩
def FRK_STAT_TAMPER : Fld := ⟨0xE00108, 6, 1, 0⟩
def FRK_STAT_RESET : Fld := ⟨0xE00108, 5, 1, 0⟩
def FRK_STAT_UPDATE : Fld := ⟨0xE00108, 4, 1, 0⟩
def FRK_STAT_STAGED_VALID : Fld := ⟨0xE00108, 3, 1, 0⟩
def FRK_STAT_MEASURED : Fld := ⟨0xE00108, 1, 1, 0⟩
def FRK_MEAS_IN_DATA : Fld := ⟨0xE00110, 0, 64, 0⟩
def FRK_NONCE_NONCE (i : Nat) : Fld := ⟨0xE00120 + 8 * i, 0, 64, 0⟩
def FRK_EVREQ_HOLD : Fld := ⟨0xE00140, 1, 1, 0⟩
def FRK_EVREQ_GO : Fld := ⟨0xE00140, 0, 1, 0⟩
def FRK_KEYSTAT_CONTEXT : Fld := ⟨0xE00148, 60, 4, 0⟩
def FRK_KEYSTAT_KEYS : Fld := ⟨0xE00148, 0, 8, 0⟩
def FRK_STAGED_DIGEST (i : Nat) : Fld := ⟨0xE00150 + 8 * i, 0, 64, 0⟩
def FRK_CERT_SEL_SPACE : Fld := ⟨0xE00170, 16, 1, 0⟩
def FRK_CERT_SEL_OFFSET : Fld := ⟨0xE00170, 0, 16, 0⟩
def FRK_HOSTFW_DIGEST (i : Nat) : Fld := ⟨0xE00180 + 8 * i, 0, 64, 0⟩

/-! ### R489 -/

def RST_CTRL_GO : Fld := ⟨0x1600100, 8, 1, 0⟩
def RST_CTRL_DOMAIN : Fld := ⟨0x1600100, 4, 1, 0⟩
def RST_CTRL_BLOCK : Fld := ⟨0x1600100, 0, 3, 0⟩
def RST_STAT_COMPUTE : Fld := ⟨0x1600108, 8, 1, 0⟩
def RST_STAT_ENGINE : Fld := ⟨0x1600108, 0, 8, 0⟩
def RST_REQ_GO : Fld := ⟨0x1600150, 8, 1, 0⟩
def RST_REQ_DOMAIN : Fld := ⟨0x1600150, 4, 1, 0⟩
def RST_REQ_BLOCK : Fld := ⟨0x1600150, 0, 3, 0⟩
def RST_CFG_HOLD_US : Fld := ⟨0x1600158, 32, 16, 10⟩
def RST_CFG_DONE_MS : Fld := ⟨0x1600158, 0, 16, 2000⟩

/-! ### R491 -/

def PAR_REF_HOLDER : Fld := ⟨0x1700100, 50, 14, 0⟩
def PAR_REF_DOMAIN : Fld := ⟨0x1700100, 36, 6, 0⟩
def PAR_REF_SERIAL : Fld := ⟨0x1700100, 0, 32, 0⟩
def PAR_REF_EXP_STARTING : Fld := ⟨0x1700108, 63, 1, 1⟩
def PAR_REF_EXP_EXPIRY : Fld := ⟨0x1700108, 0, 56, 0⟩
def PAR_REF_CNT_REFUSED : Fld := ⟨0x1700110, 32, 32, 0⟩
def PAR_REF_CNT_GRANTED : Fld := ⟨0x1700110, 0, 32, 0⟩

end Ia

/-- Field definitions of R56 and R57 and R58. -/
def tmkRegs : List FDef :=
  [⟨0x100, 0x0, 1, 3, 1, .w1s, 0, false⟩,
   ⟨0x100, 0x0, 1, 2, 1, .rw, 0, false⟩,
   ⟨0x100, 0x0, 1, 0, 2, .rw, 0, false⟩,
   ⟨0x108, 0x0, 1, 11, 1, .ro, 0, false⟩,
   ⟨0x108, 0x0, 1, 10, 1, .w1c, 0, false⟩,
   ⟨0x108, 0x0, 1, 9, 1, .ro, 0, false⟩,
   ⟨0x108, 0x0, 1, 8, 1, .ro, 0, false⟩,
   ⟨0x108, 0x0, 1, 7, 1, .ro, 0, false⟩,
   ⟨0x108, 0x0, 1, 6, 1, .ro, 0, false⟩,
   ⟨0x108, 0x0, 1, 0, 3, .ro, 0, false⟩,
   ⟨0x110, 0x0, 1, 0, 64, .ro, 0, false⟩,
   ⟨0x118, 0x0, 1, 0, 14, .ro, 512, false⟩,
   ⟨0x120, 0x0, 1, 14, 48, .rw, 0, false⟩,
   ⟨0x120, 0x0, 1, 0, 14, .rw, 0, false⟩,
   ⟨0x128, 0x0, 1, 0, 48, .rw, 0, false⟩,
   ⟨0x130, 0x0, 1, 0, 48, .rw, 0, false⟩,
   ⟨0x138, 0x0, 1, 0, 16, .rw, 0, false⟩,
   ⟨0x140, 0x0, 1, 0, 32, .ro, 0, false⟩,
   ⟨0x148, 0x0, 1, 16, 16, .rw, 50, false⟩,
   ⟨0x148, 0x0, 1, 0, 16, .rw, 20, false⟩,
   ⟨0x150, 0x0, 1, 32, 32, .ro, 0, false⟩,
   ⟨0x150, 0x0, 1, 0, 32, .ro, 0, false⟩,
   ⟨0x158, 0x0, 1, 8, 8, .rw, 253, false⟩,
   ⟨0x158, 0x0, 1, 0, 8, .rw, 0, false⟩,
   ⟨0x160, 0x0, 1, 0, 64, .ro, 0, false⟩,
   ⟨0x168, 0x0, 1, 32, 32, .ro, 0, false⟩,
   ⟨0x168, 0x0, 1, 0, 32, .rc, 0, false⟩,
   ⟨0x400, 0x8, 48, 31, 1, .ro, 0, false⟩,
   ⟨0x400, 0x8, 48, 0, 24, .ro, 0, false⟩]

/-- Field definitions of R95. -/
def prtRegs : List FDef :=
  [⟨0x100, 0x0, 1, 16, 8, .rw, 5, false⟩,
   ⟨0x100, 0x0, 1, 3, 1, .w1s, 0, false⟩,
   ⟨0x100, 0x0, 1, 2, 1, .w1s, 0, false⟩,
   ⟨0x100, 0x0, 1, 1, 1, .rw, 0, false⟩,
   ⟨0x108, 0x0, 1, 40, 8, .ro, 0, false⟩,
   ⟨0x108, 0x0, 1, 36, 4, .ro, 15, false⟩,
   ⟨0x108, 0x0, 1, 35, 1, .ro, 0, false⟩,
   ⟨0x108, 0x0, 1, 34, 1, .ro, 0, false⟩,
   ⟨0x108, 0x0, 1, 32, 2, .ro, 3, false⟩,
   ⟨0x108, 0x0, 1, 30, 2, .ro, 3, false⟩,
   ⟨0x108, 0x0, 1, 28, 2, .ro, 0, false⟩,
   ⟨0x108, 0x0, 1, 0, 3, .ro, 0, false⟩,
   ⟨0x110, 0x0, 1, 63, 1, .ro, 0, false⟩,
   ⟨0x110, 0x0, 1, 42, 14, .ro, 0, false⟩,
   ⟨0x110, 0x0, 1, 34, 8, .ro, 0, false⟩,
   ⟨0x110, 0x0, 1, 32, 2, .ro, 0, false⟩,
   ⟨0x118, 0x0, 1, 32, 16, .ro, 0, false⟩,
   ⟨0x118, 0x0, 1, 16, 16, .ro, 0, false⟩,
   ⟨0x118, 0x0, 1, 0, 16, .ro, 0, false⟩,
   ⟨0x120, 0x0, 1, 0, 8, .rw, 8, false⟩,
   ⟨0x128, 0x0, 1, 48, 16, .ro, 0, false⟩,
   ⟨0x128, 0x0, 1, 32, 16, .ro, 0, false⟩,
   ⟨0x128, 0x0, 1, 16, 16, .ro, 0, false⟩,
   ⟨0x128, 0x0, 1, 0, 16, .ro, 0, false⟩,
   ⟨0x130, 0x0, 1, 32, 32, .rc, 0, false⟩,
   ⟨0x130, 0x0, 1, 0, 32, .rc, 0, false⟩,
   ⟨0x138, 0x0, 1, 0, 64, .rc, 0, false⟩,
   ⟨0x140, 0x0, 1, 32, 32, .rc, 0, false⟩,
   ⟨0x140, 0x0, 1, 0, 32, .rc, 0, false⟩,
   ⟨0x148, 0x0, 1, 0, 64, .rc, 0, false⟩,
   ⟨0x150, 0x0, 1, 32, 32, .rc, 0, false⟩,
   ⟨0x150, 0x0, 1, 0, 1, .ro, 0, false⟩,
   ⟨0x180, 0x8, 4, 40, 8, .ro, 0, false⟩,
   ⟨0x180, 0x8, 4, 31, 1, .ro, 0, false⟩,
   ⟨0x180, 0x8, 4, 0, 28, .rc, 0, false⟩]

/-- Field definitions of R96. -/
def dvtRegs : List FDef :=
  [⟨0x100, 0x0, 1, 16, 16, .ro, 0, false⟩,
   ⟨0x100, 0x0, 1, 8, 8, .ro, 0, false⟩,
   ⟨0x100, 0x0, 1, 0, 3, .ro, 0, false⟩,
   ⟨0x108, 0x0, 1, 32, 32, .rc, 0, false⟩,
   ⟨0x108, 0x0, 1, 0, 32, .rc, 0, false⟩,
   ⟨0x110, 0x0, 1, 0, 64, .rc, 0, false⟩,
   ⟨0x118, 0x8, 16, 0, 32, .ro, 4294967295, false⟩]

/-- Field definitions of R128. -/
def rteRegs : List FDef :=
  [⟨0x100, 0x0, 1, 4, 1, .w1s, 0, false⟩,
   ⟨0x100, 0x0, 1, 3, 1, .w1s, 0, false⟩,
   ⟨0x100, 0x0, 1, 2, 1, .w1s, 0, false⟩,
   ⟨0x100, 0x0, 1, 0, 2, .rw, 0, false⟩,
   ⟨0x108, 0x0, 1, 56, 8, .ro, 0, false⟩,
   ⟨0x108, 0x0, 1, 42, 14, .ro, 0, false⟩,
   ⟨0x108, 0x0, 1, 28, 14, .ro, 0, false⟩,
   ⟨0x108, 0x0, 1, 16, 2, .ro, 0, false⟩,
   ⟨0x108, 0x0, 1, 11, 1, .ro, 0, false⟩,
   ⟨0x108, 0x0, 1, 10, 1, .ro, 0, false⟩,
   ⟨0x108, 0x0, 1, 9, 1, .ro, 0, false⟩,
   ⟨0x108, 0x0, 1, 8, 1, .ro, 0, false⟩,
   ⟨0x108, 0x0, 1, 0, 4, .ro, 0, false⟩,
   ⟨0x110, 0x0, 1, 32, 32, .ro, 0, false⟩,
   ⟨0x110, 0x0, 1, 0, 32, .ro, 0, false⟩,
   ⟨0x118, 0x8, 4, 0, 64, .ro, 0, false⟩,
   ⟨0x138, 0x0, 1, 48, 16, .rw, 64, false⟩,
   ⟨0x138, 0x0, 1, 40, 8, .rw, 16, false⟩,
   ⟨0x138, 0x0, 1, 32, 8, .rw, 4, false⟩,
   ⟨0x138, 0x0, 1, 24, 8, .rw, 16, false⟩,
   ⟨0x138, 0x0, 1, 16, 8, .rw, 2, false⟩,
   ⟨0x138, 0x0, 1, 0, 16, .rw, 100, false⟩,
   ⟨0x140, 0x0, 1, 32, 32, .ro, 3907, false⟩,
   ⟨0x140, 0x0, 1, 0, 32, .ro, 2929, false⟩,
   ⟨0x148, 0x0, 1, 0, 56, .ro, 0, false⟩,
   ⟨0x150, 0x0, 1, 0, 56, .ro, 0, false⟩,
   ⟨0x158, 0x0, 1, 32, 32, .ro, 0, false⟩,
   ⟨0x158, 0x0, 1, 28, 4, .ro, 0, false⟩,
   ⟨0x158, 0x0, 1, 3, 1, .ro, 0, false⟩,
   ⟨0x158, 0x0, 1, 2, 1, .ro, 0, false⟩,
   ⟨0x158, 0x0, 1, 1, 1, .ro, 0, false⟩,
   ⟨0x158, 0x0, 1, 0, 1, .ro, 0, false⟩,
   ⟨0x160, 0x0, 1, 32, 16, .rw, 125, false⟩,
   ⟨0x160, 0x0, 1, 16, 16, .rw, 500, false⟩,
   ⟨0x160, 0x0, 1, 0, 16, .rw, 125, false⟩,
   ⟨0x168, 0x0, 1, 32, 32, .rc, 0, false⟩,
   ⟨0x168, 0x0, 1, 0, 32, .rc, 0, false⟩,
   ⟨0x170, 0x0, 1, 43, 21, .rc, 0, false⟩,
   ⟨0x170, 0x0, 1, 22, 21, .rc, 0, false⟩,
   ⟨0x170, 0x0, 1, 0, 22, .rc, 0, false⟩] ++
  [⟨0x178, 0x0, 1, 63, 1, .rw, 0, false⟩,
   ⟨0x178, 0x0, 1, 32, 14, .rw, 0, false⟩,
   ⟨0x178, 0x0, 1, 0, 14, .rw, 0, false⟩,
   ⟨0x180, 0x0, 1, 0, 64, .rw, 0, false⟩,
   ⟨0x188, 0x0, 1, 0, 12, .rw, 0, false⟩,
   ⟨0x190, 0x0, 1, 0, 64, .ro, 0, false⟩,
   ⟨0x198, 0x0, 1, 50, 14, .ro, 0, false⟩,
   ⟨0x198, 0x0, 1, 36, 14, .ro, 0, false⟩,
   ⟨0x198, 0x0, 1, 28, 8, .ro, 255, false⟩,
   ⟨0x198, 0x0, 1, 20, 8, .ro, 255, false⟩,
   ⟨0x198, 0x0, 1, 16, 4, .ro, 0, false⟩]

/-- Field definitions of R154. -/
def ttbRegs : List FDef :=
  [⟨0x100, 0x0, 1, 6, 1, .w1s, 0, false⟩,
   ⟨0x100, 0x0, 1, 5, 1, .w1s, 0, false⟩,
   ⟨0x100, 0x0, 1, 4, 1, .w1s, 0, false⟩,
   ⟨0x100, 0x0, 1, 3, 1, .w1s, 0, false⟩,
   ⟨0x100, 0x0, 1, 2, 1, .w1s, 0, false⟩,
   ⟨0x100, 0x0, 1, 1, 1, .w1s, 0, false⟩,
   ⟨0x108, 0x0, 1, 56, 8, .ro, 0, false⟩,
   ⟨0x108, 0x0, 1, 24, 32, .ro, 0, false⟩,
   ⟨0x108, 0x0, 1, 19, 1, .ro, 0, false⟩,
   ⟨0x108, 0x0, 1, 18, 1, .ro, 0, false⟩,
   ⟨0x108, 0x0, 1, 17, 1, .ro, 0, false⟩,
   ⟨0x108, 0x0, 1, 16, 1, .ro, 0, false⟩,
   ⟨0x108, 0x0, 1, 0, 4, .ro, 0, false⟩,
   ⟨0x110, 0x0, 1, 32, 32, .rw, 0, false⟩,
   ⟨0x110, 0x0, 1, 0, 32, .rw, 0, false⟩,
   ⟨0x118, 0x0, 1, 0, 56, .rw, 0, false⟩,
   ⟨0x120, 0x0, 1, 0, 56, .ro, 0, false⟩,
   ⟨0x128, 0x0, 1, 32, 32, .ro, 0, false⟩,
   ⟨0x128, 0x0, 1, 0, 32, .ro, 4294967295, false⟩,
   ⟨0x130, 0x0, 1, 0, 32, .ro, 0, false⟩,
   ⟨0x138, 0x0, 1, 32, 32, .ro, 0, false⟩,
   ⟨0x138, 0x0, 1, 24, 8, .ro, 0, false⟩,
   ⟨0x138, 0x0, 1, 16, 8, .ro, 0, false⟩,
   ⟨0x138, 0x0, 1, 0, 1, .ro, 0, false⟩,
   ⟨0x140, 0x0, 1, 32, 16, .rw, 24, false⟩,
   ⟨0x140, 0x0, 1, 16, 16, .rw, 8, false⟩,
   ⟨0x148, 0x0, 1, 0, 32, .ro, 0, false⟩,
   ⟨0x150, 0x0, 1, 48, 16, .rc, 0, false⟩,
   ⟨0x150, 0x0, 1, 32, 16, .rc, 0, false⟩,
   ⟨0x150, 0x0, 1, 0, 32, .rc, 0, false⟩,
   ⟨0x158, 0x0, 1, 32, 16, .ro, 0, false⟩,
   ⟨0x158, 0x0, 1, 0, 14, .ro, 0, false⟩,
   ⟨0x160, 0x0, 1, 63, 1, .wo, 0, false⟩,
   ⟨0x160, 0x0, 1, 0, 12, .rw, 0, false⟩,
   ⟨0x168, 0x0, 1, 0, 64, .ro, 0, false⟩]

/-- Field definitions of R183. -/
def clxRegs : List FDef :=
  [⟨0x100, 0x0, 1, 0, 15, .rw, 0, false⟩,
   ⟨0x108, 0x0, 1, 61, 3, .ro, 0, false⟩,
   ⟨0x108, 0x0, 1, 48, 13, .ro, 0, false⟩,
   ⟨0x108, 0x0, 1, 35, 13, .ro, 0, false⟩,
   ⟨0x108, 0x0, 1, 0, 32, .ro, 0, false⟩,
   ⟨0x110, 0x0, 1, 32, 32, .ro, 0, false⟩,
   ⟨0x110, 0x0, 1, 0, 32, .ro, 0, false⟩,
   ⟨0x118, 0x0, 1, 32, 32, .rc, 0, false⟩,
   ⟨0x118, 0x0, 1, 0, 32, .rc, 0, false⟩,
   ⟨0x120, 0x0, 1, 48, 16, .rc, 0, false⟩,
   ⟨0x120, 0x0, 1, 32, 16, .rc, 0, false⟩,
   ⟨0x120, 0x0, 1, 16, 16, .rc, 0, false⟩,
   ⟨0x128, 0x0, 1, 32, 32, .rc, 0, false⟩,
   ⟨0x128, 0x0, 1, 0, 32, .rc, 0, false⟩,
   ⟨0x130, 0x0, 1, 32, 32, .rc, 0, false⟩,
   ⟨0x130, 0x0, 1, 0, 32, .rc, 0, false⟩,
   ⟨0x138, 0x0, 1, 32, 32, .rc, 0, false⟩,
   ⟨0x138, 0x0, 1, 0, 32, .rc, 0, false⟩]

/-- Field definitions of R184. -/
def clxEngRegs : List FDef :=
  [⟨0x100, 0x0, 1, 48, 16, .ro, 0, false⟩,
   ⟨0x100, 0x0, 1, 32, 16, .rc, 0, false⟩,
   ⟨0x100, 0x0, 1, 0, 1, .ro, 1, false⟩,
   ⟨0x108, 0x0, 1, 56, 8, .ro, 0, false⟩,
   ⟨0x108, 0x0, 1, 52, 4, .ro, 0, false⟩,
   ⟨0x108, 0x0, 1, 32, 15, .ro, 0, false⟩,
   ⟨0x108, 0x0, 1, 28, 4, .ro, 0, false⟩,
   ⟨0x110, 0x0, 1, 32, 32, .rc, 0, false⟩,
   ⟨0x110, 0x0, 1, 0, 32, .rc, 0, false⟩,
   ⟨0x118, 0x0, 1, 32, 32, .rc, 0, false⟩]

/-- Field definitions of R209. -/
def cdcRegs : List FDef :=
  [⟨0x100, 0x0, 1, 2, 1, .w1s, 0, false⟩,
   ⟨0x100, 0x0, 1, 1, 1, .w1s, 0, false⟩,
   ⟨0x108, 0x0, 1, 56, 8, .ro, 24, false⟩,
   ⟨0x108, 0x0, 1, 4, 4, .ro, 0, false⟩,
   ⟨0x108, 0x0, 1, 3, 1, .w1c, 0, false⟩,
   ⟨0x108, 0x0, 1, 2, 1, .w1c, 0, false⟩,
   ⟨0x108, 0x0, 1, 1, 1, .ro, 0, false⟩,
   ⟨0x108, 0x0, 1, 0, 1, .ro, 0, false⟩,
   ⟨0x110, 0x0, 1, 32, 32, .rc, 0, false⟩,
   ⟨0x110, 0x0, 1, 0, 32, .rc, 0, false⟩,
   ⟨0x118, 0x0, 1, 48, 16, .rc, 0, false⟩,
   ⟨0x118, 0x0, 1, 32, 16, .rc, 0, false⟩,
   ⟨0x118, 0x0, 1, 16, 16, .rc, 0, false⟩,
   ⟨0x118, 0x0, 1, 0, 16, .rc, 0, false⟩,
   ⟨0x120, 0x0, 1, 32, 32, .rc, 0, false⟩,
   ⟨0x120, 0x0, 1, 0, 32, .rc, 0, false⟩,
   ⟨0x128, 0x0, 1, 56, 8, .ro, 0, false⟩,
   ⟨0x128, 0x0, 1, 52, 4, .ro, 0, false⟩,
   ⟨0x128, 0x0, 1, 32, 15, .ro, 0, false⟩,
   ⟨0x128, 0x0, 1, 0, 8, .ro, 0, false⟩,
   ⟨0x140, 0x0, 1, 56, 8, .rw, 0, false⟩,
   ⟨0x140, 0x0, 1, 55, 1, .rw, 0, false⟩,
   ⟨0x140, 0x0, 1, 45, 2, .rw, 0, false⟩,
   ⟨0x140, 0x0, 1, 32, 13, .rw, 0, false⟩,
   ⟨0x140, 0x0, 1, 0, 15, .rw, 0, false⟩,
   ⟨0x148, 0x0, 1, 0, 56, .rw, 0, false⟩,
   ⟨0x150, 0x0, 1, 0, 32, .rw, 0, false⟩,
   ⟨0x158, 0x0, 1, 0, 64, .rw, 0, false⟩,
   ⟨0x160, 0x0, 1, 0, 64, .rw, 0, false⟩,
   ⟨0x168, 0x0, 1, 0, 64, .rw, 0, false⟩,
   ⟨0x170, 0x0, 1, 0, 64, .rw, 0, false⟩,
   ⟨0x180, 0x0, 1, 0, 64, .rw, 0, false⟩,
   ⟨0x188, 0x0, 1, 0, 64, .rw, 0, false⟩,
   ⟨0x190, 0x0, 1, 32, 32, .rw, 0, false⟩,
   ⟨0x190, 0x0, 1, 0, 32, .rw, 0, false⟩,
   ⟨0x198, 0x0, 1, 32, 32, .rw, 0, false⟩,
   ⟨0x198, 0x0, 1, 0, 32, .rw, 0, false⟩,
   ⟨0x1A0, 0x0, 1, 0, 32, .ro, 0, false⟩,
   ⟨0x800, 0x8, 64, 32, 32, .rw, 0, false⟩,
   ⟨0x800, 0x8, 64, 0, 32, .rw, 0, false⟩] ++
  [⟨0xA00, 0x8, 17, 0, 64, .rw, 0, false⟩]

/-- Field definitions of R235. -/
def ttlRegs : List FDef :=
  [⟨0x108, 0x0, 1, 8, 8, .ro, 0, false⟩,
   ⟨0x108, 0x0, 1, 0, 8, .ro, 0, false⟩,
   ⟨0x110, 0x0, 1, 0, 64, .rc, 0, false⟩,
   ⟨0x118, 0x0, 1, 32, 32, .rc, 0, false⟩,
   ⟨0x118, 0x0, 1, 0, 32, .rc, 0, false⟩,
   ⟨0x120, 0x0, 1, 56, 8, .ro, 0, false⟩,
   ⟨0x120, 0x0, 1, 48, 8, .ro, 0, false⟩,
   ⟨0x120, 0x0, 1, 40, 8, .ro, 0, false⟩,
   ⟨0x120, 0x0, 1, 36, 4, .ro, 0, false⟩,
   ⟨0x120, 0x0, 1, 20, 15, .ro, 0, false⟩,
   ⟨0x120, 0x0, 1, 4, 16, .ro, 0, false⟩,
   ⟨0x128, 0x0, 1, 32, 32, .rc, 0, false⟩,
   ⟨0x128, 0x0, 1, 0, 32, .rc, 0, false⟩,
   ⟨0x130, 0x0, 1, 32, 32, .ro, 0, false⟩,
   ⟨0x130, 0x0, 1, 0, 1, .ro, 0, false⟩]

/-- Field definitions of R236. -/
def ttlDieRegs : List FDef :=
  [⟨0x100, 0x0, 1, 56, 8, .ro, 4, false⟩,
   ⟨0x100, 0x0, 1, 48, 8, .ro, 0, false⟩,
   ⟨0x100, 0x0, 1, 40, 8, .ro, 0, false⟩,
   ⟨0x100, 0x0, 1, 0, 16, .ro, 1600, false⟩,
   ⟨0x108, 0x0, 1, 0, 64, .ro, 0, false⟩,
   ⟨0x110, 0x0, 1, 0, 4, .ro, 0, false⟩,
   ⟨0x118, 0x0, 1, 0, 64, .ro, 0, false⟩,
   ⟨0x120, 0x0, 1, 0, 64, .ro, 0, false⟩,
   ⟨0x128, 0x0, 1, 0, 4, .ro, 0, false⟩]

/-- Field definitions of R237. -/
def pghRegs : List FDef :=
  [⟨0x100, 0x0, 1, 1, 1, .w1s, 0, false⟩,
   ⟨0x100, 0x0, 1, 0, 1, .w1s, 0, false⟩,
   ⟨0x108, 0x0, 1, 7, 1, .w1c, 0, false⟩,
   ⟨0x108, 0x0, 1, 6, 1, .w1c, 0, false⟩,
   ⟨0x108, 0x0, 1, 5, 1, .w1c, 0, false⟩,
   ⟨0x108, 0x0, 1, 4, 1, .ro, 0, false⟩,
   ⟨0x108, 0x0, 1, 0, 3, .ro, 0, false⟩,
   ⟨0x110, 0x0, 1, 32, 32, .rc, 0, false⟩,
   ⟨0x110, 0x0, 1, 0, 32, .rc, 0, false⟩,
   ⟨0x118, 0x0, 1, 32, 32, .rc, 0, false⟩,
   ⟨0x118, 0x0, 1, 0, 32, .rc, 0, false⟩,
   ⟨0x120, 0x0, 1, 63, 1, .ro, 0, false⟩,
   ⟨0x120, 0x0, 1, 62, 1, .ro, 0, false⟩,
   ⟨0x120, 0x0, 1, 0, 32, .ro, 0, false⟩,
   ⟨0x128, 0x0, 1, 32, 32, .rc, 0, false⟩,
   ⟨0x128, 0x0, 1, 0, 32, .rc, 0, false⟩,
   ⟨0x130, 0x0, 1, 32, 32, .rc, 0, false⟩,
   ⟨0x130, 0x0, 1, 0, 32, .ro, 0, false⟩,
   ⟨0x138, 0x0, 1, 32, 16, .ro, 0, false⟩,
   ⟨0x138, 0x0, 1, 0, 14, .ro, 0, false⟩,
   ⟨0x400, 0x8, 16, 63, 1, .rw, 0, false⟩,
   ⟨0x400, 0x8, 16, 16, 14, .rw, 0, false⟩,
   ⟨0x400, 0x8, 16, 0, 14, .rw, 0, false⟩]

/-- Field definitions of R238. -/
def pghWinRegs : List FDef :=
  [⟨0x100, 0x0, 1, 0, 32, .rw, 0, false⟩,
   ⟨0x108, 0x0, 1, 32, 32, .ro, 0, false⟩,
   ⟨0x108, 0x0, 1, 0, 32, .ro, 0, false⟩,
   ⟨0x800, 0x8, 256, 0, 64, .rw, 0, false⟩]

/-- Field definitions of R260. -/
def hbcRegs : List FDef :=
  [⟨0x100, 0x0, 1, 16, 8, .ro, 0, false⟩,
   ⟨0x100, 0x0, 1, 9, 1, .ro, 0, false⟩,
   ⟨0x100, 0x0, 1, 4, 4, .ro, 0, false⟩,
   ⟨0x100, 0x0, 1, 0, 3, .ro, 0, false⟩,
   ⟨0x108, 0x0, 1, 32, 32, .ro, 0, false⟩,
   ⟨0x108, 0x0, 1, 0, 8, .ro, 255, false⟩,
   ⟨0x110, 0x0, 1, 32, 32, .rc, 0, false⟩,
   ⟨0x110, 0x0, 1, 0, 32, .rc, 0, false⟩,
   ⟨0x118, 0x0, 1, 32, 32, .rc, 0, false⟩,
   ⟨0x118, 0x0, 1, 0, 32, .rc, 0, false⟩,
   ⟨0x120, 0x0, 1, 63, 1, .ro, 0, false⟩,
   ⟨0x120, 0x0, 1, 0, 40, .ro, 0, false⟩,
   ⟨0x128, 0x0, 1, 0, 64, .rc, 0, false⟩,
   ⟨0x130, 0x0, 1, 0, 64, .rc, 0, false⟩]

/-- Field definitions of R261. -/
def hbcNmuRegs : List FDef :=
  [⟨0x100, 0x0, 1, 48, 16, .ro, 0, false⟩,
   ⟨0x100, 0x0, 1, 32, 16, .rc, 0, false⟩,
   ⟨0x100, 0x0, 1, 0, 32, .rc, 0, false⟩,
   ⟨0x108, 0x0, 1, 32, 32, .rc, 0, false⟩,
   ⟨0x108, 0x0, 1, 0, 32, .rc, 0, false⟩,
   ⟨0x110, 0x0, 1, 32, 32, .rc, 0, false⟩,
   ⟨0x110, 0x0, 1, 0, 32, .rc, 0, false⟩,
   ⟨0x118, 0x0, 1, 48, 16, .rc, 0, false⟩,
   ⟨0x118, 0x0, 1, 32, 16, .rc, 0, false⟩,
   ⟨0x118, 0x0, 1, 16, 16, .rc, 0, false⟩,
   ⟨0x118, 0x0, 1, 0, 16, .rc, 0, false⟩,
   ⟨0x120, 0x0, 1, 56, 8, .ro, 0, false⟩,
   ⟨0x120, 0x0, 1, 52, 4, .ro, 0, false⟩,
   ⟨0x120, 0x0, 1, 32, 15, .ro, 0, false⟩]

/-- Field definitions of R262. -/
def vltRegs : List FDef :=
  [⟨0x100, 0x0, 1, 48, 16, .ro, 2232, false⟩,
   ⟨0x100, 0x0, 1, 2, 1, .w1c, 0, false⟩,
   ⟨0x100, 0x0, 1, 1, 1, .ro, 0, false⟩,
   ⟨0x108, 0x0, 1, 0, 32, .ro, 0, false⟩,
   ⟨0x110, 0x8, 2, 63, 1, .rw, 0, false⟩,
   ⟨0x110, 0x8, 2, 16, 12, .rw, 0, false⟩,
   ⟨0x110, 0x8, 2, 0, 12, .rw, 0, false⟩,
   ⟨0x120, 0x0, 1, 0, 32, .rc, 0, false⟩]

/-- Field definitions of R263. -/
def vltCtxRegs : List FDef :=
  [⟨0x100, 0x0, 1, 0, 32, .ro, 0, false⟩,
   ⟨0x108, 0x8, 5, 63, 1, .rw, 0, false⟩,
   ⟨0x108, 0x8, 5, 16, 12, .rw, 0, false⟩,
   ⟨0x108, 0x8, 5, 0, 12, .rw, 0, false⟩,
   ⟨0x130, 0x0, 1, 44, 20, .rw, 0, false⟩,
   ⟨0x130, 0x0, 1, 24, 20, .ro, 0, false⟩,
   ⟨0x130, 0x0, 1, 2, 1, .rw, 0, false⟩,
   ⟨0x130, 0x0, 1, 0, 2, .rw, 0, false⟩,
   ⟨0x138, 0x0, 1, 5, 3, .rw, 0, false⟩,
   ⟨0x138, 0x0, 1, 4, 1, .w1c, 0, false⟩,
   ⟨0x138, 0x0, 1, 3, 1, .w1c, 0, false⟩,
   ⟨0x138, 0x0, 1, 2, 1, .ro, 0, false⟩,
   ⟨0x138, 0x0, 1, 1, 1, .w1s, 0, false⟩,
   ⟨0x140, 0x0, 1, 60, 1, .ro, 0, false⟩,
   ⟨0x140, 0x0, 1, 56, 4, .ro, 0, false⟩,
   ⟨0x140, 0x0, 1, 0, 56, .ro, 0, false⟩,
   ⟨0x148, 0x0, 1, 32, 32, .rc, 0, false⟩,
   ⟨0x148, 0x0, 1, 0, 32, .rc, 0, false⟩,
   ⟨0x150, 0x0, 1, 61, 3, .rw, 0, false⟩,
   ⟨0x150, 0x0, 1, 0, 45, .rw, 0, false⟩,
   ⟨0x200, 0x40, 4, 63, 1, .rw, 0, false⟩,
   ⟨0x200, 0x40, 4, 32, 2, .rw, 0, false⟩,
   ⟨0x200, 0x40, 4, 0, 32, .ro, 0, false⟩,
   ⟨0x208, 0x40, 4, 32, 32, .rw, 0, false⟩,
   ⟨0x208, 0x40, 4, 0, 32, .rw, 0, false⟩,
   ⟨0x210, 0x40, 4, 32, 32, .rw, 0, false⟩,
   ⟨0x210, 0x40, 4, 0, 32, .rw, 0, false⟩,
   ⟨0x218, 0x40, 4, 0, 32, .rw, 0, false⟩,
   ⟨0x220, 0x40, 4, 32, 32, .rw, 1065353216, false⟩,
   ⟨0x220, 0x40, 4, 0, 32, .rw, 1065353216, false⟩,
   ⟨0x800, 0x8, 256, 0, 64, .rw, 0, false⟩]

/-- Field definitions of R282. -/
def ctxRegs : List FDef :=
  [⟨0x100, 0x0, 1, 4, 1, .w1s, 0, false⟩,
   ⟨0x100, 0x0, 1, 3, 1, .rw, 0, false⟩,
   ⟨0x100, 0x0, 1, 2, 1, .w1s, 0, false⟩,
   ⟨0x100, 0x0, 1, 1, 1, .w1s, 0, false⟩,
   ⟨0x108, 0x0, 1, 32, 8, .ro, 0, false⟩,
   ⟨0x108, 0x0, 1, 16, 12, .ro, 0, false⟩,
   ⟨0x108, 0x0, 1, 7, 1, .w1c, 0, false⟩,
   ⟨0x108, 0x0, 1, 6, 1, .ro, 0, false⟩,
   ⟨0x108, 0x0, 1, 5, 1, .ro, 0, false⟩,
   ⟨0x108, 0x0, 1, 4, 1, .ro, 0, false⟩,
   ⟨0x108, 0x0, 1, 0, 3, .ro, 0, false⟩,
   ⟨0x110, 0x0, 1, 56, 8, .rw, 0, false⟩,
   ⟨0x110, 0x0, 1, 48, 8, .ro, 0, false⟩,
   ⟨0x110, 0x0, 1, 32, 13, .rw, 0, false⟩,
   ⟨0x110, 0x0, 1, 0, 14, .rw, 0, false⟩,
   ⟨0x118, 0x0, 1, 0, 12, .rw, 0, false⟩,
   ⟨0x120, 0x0, 1, 63, 1, .rw, 0, false⟩,
   ⟨0x120, 0x0, 1, 62, 1, .ro, 0, false⟩,
   ⟨0x120, 0x0, 1, 0, 14, .rw, 0, false⟩,
   ⟨0x128, 0x0, 1, 0, 64, .wo, 0, false⟩,
   ⟨0x130, 0x0, 1, 0, 64, .wo, 0, false⟩,
   ⟨0x138, 0x0, 1, 0, 32, .rw, 0, false⟩,
   ⟨0x140, 0x0, 1, 0, 56, .ro, 0, false⟩,
   ⟨0x148, 0x0, 1, 32, 32, .ro, 0, false⟩,
   ⟨0x148, 0x0, 1, 0, 32, .ro, 0, false⟩,
   ⟨0x150, 0x0, 1, 32, 32, .rc, 0, false⟩,
   ⟨0x150, 0x0, 1, 0, 32, .rc, 0, false⟩,
   ⟨0x158, 0x0, 1, 0, 32, .rc, 0, false⟩]

/-- Field definitions of R283. -/
def ctxSumRegs : List FDef :=
  [⟨0x100, 0x0, 1, 48, 16, .ro, 0, false⟩,
   ⟨0x100, 0x0, 1, 32, 16, .ro, 0, false⟩,
   ⟨0x100, 0x0, 1, 16, 16, .ro, 0, false⟩,
   ⟨0x100, 0x0, 1, 0, 16, .ro, 0, false⟩]

/-- Field definitions of R318. -/
def frkRegs : List FDef :=
  [⟨0x100, 0x0, 1, 56, 8, .ro, 0, false⟩,
   ⟨0x100, 0x0, 1, 48, 8, .ro, 0, false⟩,
   ⟨0x100, 0x0, 1, 40, 8, .ro, 0, false⟩,
   ⟨0x100, 0x0, 1, 32, 8, .ro, 0, false⟩,
   ⟨0x100, 0x0, 1, 5, 1, .ro, 0, false⟩,
   ⟨0x100, 0x0, 1, 4, 1, .ro, 0, false⟩,
   ⟨0x100, 0x0, 1, 3, 1, .ro, 0, false⟩,
   ⟨0x100, 0x0, 1, 2, 1, .ro, 0, false⟩,
   ⟨0x100, 0x0, 1, 1, 1, .ro, 0, false⟩,
   ⟨0x100, 0x0, 1, 0, 1, .ro, 0, false⟩,
   ⟨0x108, 0x0, 1, 32, 32, .rc, 0, false⟩,
   ⟨0x108, 0x0, 1, 0, 32, .rc, 0, false⟩,
   ⟨0x110, 0x0, 1, 32, 32, .ro, 0, false⟩,
   ⟨0x110, 0x0, 1, 0, 32, .rc, 0, false⟩,
   ⟨0x118, 0x0, 1, 32, 32, .rc, 0, false⟩,
   ⟨0x118, 0x0, 1, 0, 32, .rc, 0, false⟩,
   ⟨0x120, 0x0, 1, 48, 16, .rc, 0, false⟩,
   ⟨0x120, 0x0, 1, 32, 16, .rc, 0, false⟩,
   ⟨0x120, 0x0, 1, 24, 8, .ro, 0, false⟩,
   ⟨0x120, 0x0, 1, 20, 4, .ro, 0, false⟩,
   ⟨0x128, 0x0, 1, 32, 32, .rc, 0, false⟩,
   ⟨0x128, 0x0, 1, 0, 32, .rc, 0, false⟩,
   ⟨0x130, 0x0, 1, 3, 4, .rw, 0, false⟩,
   ⟨0x130, 0x0, 1, 0, 3, .rw, 0, false⟩,
   ⟨0x138, 0x0, 1, 63, 1, .ro, 0, false⟩,
   ⟨0x138, 0x0, 1, 62, 1, .ro, 0, false⟩,
   ⟨0x138, 0x0, 1, 61, 1, .ro, 0, false⟩,
   ⟨0x138, 0x0, 1, 60, 1, .ro, 0, false⟩,
   ⟨0x138, 0x0, 1, 32, 13, .ro, 0, false⟩,
   ⟨0x138, 0x0, 1, 0, 32, .ro, 0, false⟩,
   ⟨0x140, 0x0, 1, 0, 12, .rw, 0, false⟩,
   ⟨0x148, 0x0, 1, 56, 8, .ro, 0, false⟩,
   ⟨0x148, 0x0, 1, 48, 8, .ro, 0, false⟩,
   ⟨0x148, 0x0, 1, 0, 48, .ro, 0, false⟩,
   ⟨0x150, 0x8, 4, 0, 64, .ro, 0, false⟩,
   ⟨0x170, 0x0, 1, 0, 8, .rw, 1, false⟩,
   ⟨0x178, 0x8, 4, 0, 64, .ro, 0, false⟩]

/-- Field definitions of R319. -/
def lcsRegs : List FDef :=
  [⟨0x100, 0x0, 1, 32, 32, .wo, 0, false⟩,
   ⟨0x100, 0x0, 1, 2, 1, .w1s, 0, false⟩,
   ⟨0x100, 0x0, 1, 1, 1, .w1s, 0, false⟩,
   ⟨0x108, 0x0, 1, 8, 8, .ro, 0, false⟩,
   ⟨0x108, 0x0, 1, 7, 1, .ro, 0, false⟩,
   ⟨0x108, 0x0, 1, 0, 3, .ro, 2, false⟩,
   ⟨0x110, 0x0, 1, 48, 8, .ro, 255, false⟩,
   ⟨0x110, 0x0, 1, 40, 8, .ro, 24, false⟩,
   ⟨0x110, 0x0, 1, 32, 8, .ro, 96, false⟩,
   ⟨0x110, 0x0, 1, 16, 16, .ro, 1500, false⟩,
   ⟨0x110, 0x0, 1, 4, 12, .ro, 1600, false⟩,
   ⟨0x110, 0x0, 1, 0, 4, .ro, 0, false⟩,
   ⟨0x118, 0x8, 4, 0, 64, .ro, 0, false⟩,
   ⟨0x138, 0x0, 1, 32, 32, .ro, 0, false⟩,
   ⟨0x138, 0x0, 1, 7, 1, .ro, 0, false⟩,
   ⟨0x138, 0x0, 1, 4, 1, .ro, 0, false⟩,
   ⟨0x138, 0x0, 1, 3, 1, .ro, 0, false⟩,
   ⟨0x138, 0x0, 1, 2, 1, .ro, 0, false⟩,
   ⟨0x138, 0x0, 1, 1, 1, .ro, 0, false⟩,
   ⟨0x138, 0x0, 1, 0, 1, .ro, 0, false⟩,
   ⟨0x140, 0x0, 1, 0, 1, .rw, 1, false⟩,
   ⟨0x148, 0x0, 1, 48, 16, .ro, 0, false⟩,
   ⟨0x148, 0x0, 1, 32, 16, .ro, 0, false⟩,
   ⟨0x148, 0x0, 1, 16, 16, .ro, 0, false⟩,
   ⟨0x148, 0x0, 1, 0, 16, .ro, 0, false⟩,
   ⟨0x150, 0x0, 1, 56, 8, .ro, 0, false⟩,
   ⟨0x150, 0x0, 1, 40, 16, .ro, 0, false⟩]

/-- Field definitions of R350. -/
def hptRegs : List FDef :=
  [⟨0x100, 0x0, 1, 9, 3, .ro, 0, false⟩,
   ⟨0x100, 0x0, 1, 8, 1, .ro, 0, false⟩,
   ⟨0x100, 0x0, 1, 3, 1, .ro, 0, false⟩,
   ⟨0x100, 0x0, 1, 2, 1, .ro, 0, false⟩,
   ⟨0x100, 0x0, 1, 0, 2, .ro, 0, false⟩,
   ⟨0x108, 0x0, 1, 0, 48, .ro, 0, false⟩,
   ⟨0x110, 0x0, 1, 0, 64, .rw, 0, false⟩,
   ⟨0x118, 0x0, 1, 0, 64, .rw, 0, false⟩,
   ⟨0x120, 0x0, 1, 16, 1, .rw, 0, false⟩,
   ⟨0x120, 0x0, 1, 0, 12, .rw, 0, false⟩,
   ⟨0x128, 0x0, 1, 0, 16, .ro, 53902, false⟩,
   ⟨0x130, 0x0, 1, 0, 32, .rw, 0, false⟩,
   ⟨0x138, 0x0, 1, 32, 32, .rc, 0, false⟩,
   ⟨0x138, 0x0, 1, 0, 32, .rc, 0, false⟩,
   ⟨0x140, 0x0, 1, 32, 32, .rc, 0, false⟩,
   ⟨0x140, 0x0, 1, 0, 32, .rc, 0, false⟩,
   ⟨0x148, 0x0, 1, 48, 16, .rc, 0, false⟩,
   ⟨0x148, 0x0, 1, 32, 16, .rc, 0, false⟩,
   ⟨0x148, 0x0, 1, 16, 16, .rc, 0, false⟩,
   ⟨0x148, 0x0, 1, 0, 16, .rc, 0, false⟩]

/-- Field definitions of R351. -/
def byjRegs : List FDef :=
  [⟨0x100, 0x0, 1, 0, 8, .ro, 0, false⟩,
   ⟨0x108, 0x0, 1, 0, 6, .rw, 0, false⟩,
   ⟨0x110, 0x0, 1, 38, 26, .ro, 0, false⟩,
   ⟨0x110, 0x0, 1, 32, 1, .ro, 0, false⟩,
   ⟨0x110, 0x0, 1, 29, 3, .ro, 0, false⟩,
   ⟨0x110, 0x0, 1, 25, 4, .ro, 0, false⟩,
   ⟨0x110, 0x0, 1, 16, 9, .ro, 0, false⟩,
   ⟨0x110, 0x0, 1, 0, 16, .ro, 0, false⟩,
   ⟨0x118, 0x0, 1, 0, 6, .wo, 0, false⟩,
   ⟨0x120, 0x0, 1, 32, 32, .rc, 0, false⟩,
   ⟨0x120, 0x0, 1, 0, 32, .rc, 0, false⟩,
   ⟨0x128, 0x0, 1, 32, 32, .rc, 0, false⟩,
   ⟨0x128, 0x0, 1, 0, 32, .rc, 0, false⟩,
   ⟨0x130, 0x0, 1, 32, 32, .rc, 0, false⟩,
   ⟨0x130, 0x0, 1, 0, 32, .rc, 0, false⟩]

/-- Field definitions of R352. -/
def mslRegs : List FDef :=
  [⟨0x100, 0x0, 1, 32, 32, .rc, 0, false⟩,
   ⟨0x100, 0x0, 1, 0, 32, .rc, 0, false⟩,
   ⟨0x108, 0x0, 1, 32, 32, .rc, 0, false⟩,
   ⟨0x108, 0x0, 1, 0, 32, .rc, 0, false⟩]

/-- Field definitions of R353. -/
def mslSessRegs : List FDef :=
  [⟨0x100, 0x0, 1, 0, 16, .ro, 0, false⟩,
   ⟨0x800, 0x80, 16, 0, 64, .rw, 0, false⟩]

/-- Field definitions of R354 and R463. -/
def genRegs : List FDef :=
  [⟨0x180, 0x0, 1, 32, 9, .ro, 0, false⟩,
   ⟨0x180, 0x0, 1, 0, 9, .rw, 0, false⟩,
   ⟨0x100, 0x0, 1, 40, 8, .ro, 0, false⟩,
   ⟨0x100, 0x0, 1, 32, 8, .ro, 0, false⟩,
   ⟨0x100, 0x0, 1, 16, 16, .ro, 0, false⟩,
   ⟨0x100, 0x0, 1, 8, 8, .ro, 0, false⟩,
   ⟨0x100, 0x0, 1, 0, 4, .ro, 0, false⟩,
   ⟨0x108, 0x0, 1, 1, 1, .ro, 0, false⟩,
   ⟨0x108, 0x0, 1, 0, 1, .ro, 0, false⟩,
   ⟨0x110, 0x0, 1, 56, 8, .ro, 0, false⟩,
   ⟨0x110, 0x0, 1, 48, 8, .ro, 0, false⟩,
   ⟨0x110, 0x0, 1, 32, 16, .ro, 0, false⟩,
   ⟨0x110, 0x0, 1, 0, 32, .ro, 0, false⟩,
   ⟨0x118, 0x8, 6, 32, 16, .ro, 0, false⟩,
   ⟨0x118, 0x8, 6, 0, 32, .ro, 0, false⟩,
   ⟨0x148, 0x0, 1, 48, 16, .ro, 0, false⟩,
   ⟨0x148, 0x0, 1, 32, 16, .ro, 0, false⟩,
   ⟨0x148, 0x0, 1, 16, 16, .ro, 0, false⟩,
   ⟨0x148, 0x0, 1, 0, 4, .ro, 0, false⟩,
   ⟨0x150, 0x0, 1, 32, 32, .ro, 0, false⟩,
   ⟨0x150, 0x0, 1, 16, 16, .ro, 0, false⟩,
   ⟨0x150, 0x0, 1, 8, 8, .ro, 0, false⟩,
   ⟨0x150, 0x0, 1, 0, 2, .ro, 0, false⟩,
   ⟨0x158, 0x0, 1, 0, 32, .ro, 0, false⟩,
   ⟨0x160, 0x0, 1, 0, 12, .rw, 0, false⟩,
   ⟨0x168, 0x0, 1, 56, 8, .ro, 0, false⟩,
   ⟨0x168, 0x0, 1, 42, 14, .ro, 0, false⟩,
   ⟨0x168, 0x0, 1, 34, 8, .ro, 0, false⟩,
   ⟨0x168, 0x0, 1, 20, 14, .ro, 0, false⟩,
   ⟨0x168, 0x0, 1, 12, 8, .ro, 0, false⟩,
   ⟨0x168, 0x0, 1, 10, 2, .ro, 0, false⟩,
   ⟨0x168, 0x0, 1, 8, 2, .ro, 0, false⟩,
   ⟨0x170, 0x0, 1, 0, 23, .rw, 0, false⟩,
   ⟨0x178, 0x0, 1, 63, 1, .ro, 0, false⟩,
   ⟨0x178, 0x0, 1, 14, 1, .ro, 0, false⟩,
   ⟨0x178, 0x0, 1, 0, 14, .ro, 0, false⟩,
   ⟨0x800, 0x8, 256, 0, 64, .rw, 0, false⟩]

/-- Field definitions of R379. -/
def headRegs : List FDef :=
  [⟨0x0, 0x0, 1, 0, 12, .ro, 1, false⟩,
   ⟨0x10, 0x0, 1, 0, 3, .ro, 0, false⟩,
   ⟨0x38, 0x0, 1, 1, 1, .w1s, 0, false⟩,
   ⟨0x38, 0x0, 1, 0, 1, .rw, 0, false⟩,
   ⟨0x18, 0x0, 1, 62, 2, .ro, 0, false⟩,
   ⟨0x18, 0x0, 1, 0, 32, .w1c, 0, false⟩,
   ⟨0x20, 0x0, 1, 0, 32, .rw, 0, false⟩,
   ⟨0x28, 0x0, 1, 48, 16, .rw, 1, false⟩,
   ⟨0x28, 0x0, 1, 32, 8, .ro, 0, false⟩,
   ⟨0x28, 0x0, 1, 16, 5, .rw, 0, false⟩,
   ⟨0x28, 0x0, 1, 2, 2, .rw, 0, false⟩,
   ⟨0x28, 0x0, 1, 1, 1, .w1c, 0, false⟩,
   ⟨0x28, 0x0, 1, 0, 1, .w1s, 0, false⟩]

/-- Field definitions of R380. -/
def fltRegs : List FDef :=
  [⟨0x100, 0x0, 1, 2, 1, .rw, 0, false⟩,
   ⟨0x100, 0x0, 1, 1, 1, .w1s, 0, false⟩,
   ⟨0x100, 0x0, 1, 0, 1, .w1s, 0, false⟩,
   ⟨0x108, 0x0, 1, 16, 16, .ro, 0, false⟩,
   ⟨0x108, 0x0, 1, 3, 1, .ro, 0, false⟩,
   ⟨0x108, 0x0, 1, 2, 1, .ro, 0, false⟩,
   ⟨0x108, 0x0, 1, 0, 2, .ro, 0, false⟩,
   ⟨0x110, 0x0, 1, 0, 2, .rw, 1, false⟩,
   ⟨0x118, 0x0, 1, 0, 16, .rw, 20, false⟩,
   ⟨0x120, 0x0, 1, 63, 1, .ro, 0, false⟩,
   ⟨0x120, 0x0, 1, 48, 8, .ro, 0, false⟩,
   ⟨0x120, 0x0, 1, 40, 8, .ro, 0, false⟩,
   ⟨0x120, 0x0, 1, 32, 8, .wo, 0, false⟩,
   ⟨0x120, 0x0, 1, 0, 32, .ro, 0, false⟩,
   ⟨0x128, 0x8, 4, 0, 64, .ro, 0, false⟩,
   ⟨0x148, 0x0, 1, 32, 32, .rc, 0, false⟩,
   ⟨0x148, 0x0, 1, 0, 32, .rc, 0, false⟩,
   ⟨0x150, 0x0, 1, 48, 16, .rc, 0, false⟩,
   ⟨0x150, 0x0, 1, 32, 16, .rc, 0, false⟩,
   ⟨0x150, 0x0, 1, 16, 16, .rc, 0, false⟩,
   ⟨0x150, 0x0, 1, 0, 16, .rc, 0, false⟩,
   ⟨0x158, 0x0, 1, 32, 32, .rc, 0, false⟩,
   ⟨0x158, 0x0, 1, 0, 10, .ro, 0, false⟩,
   ⟨0x160, 0x0, 1, 0, 10, .rw, 0, false⟩,
   ⟨0x168, 0x8, 4, 0, 64, .ro, 0, false⟩,
   ⟨0x188, 0x0, 1, 0, 39, .rw, 0, false⟩,
   ⟨0x190, 0x0, 1, 62, 2, .ro, 0, false⟩,
   ⟨0x190, 0x0, 1, 60, 2, .ro, 0, false⟩,
   ⟨0x190, 0x0, 1, 59, 1, .ro, 0, false⟩,
   ⟨0x190, 0x0, 1, 58, 1, .ro, 0, false⟩,
   ⟨0x190, 0x0, 1, 57, 1, .ro, 0, false⟩,
   ⟨0x190, 0x0, 1, 40, 8, .ro, 0, false⟩,
   ⟨0x198, 0x0, 1, 56, 8, .rw, 0, false⟩,
   ⟨0x198, 0x0, 1, 32, 1, .rw, 0, false⟩,
   ⟨0x198, 0x0, 1, 0, 32, .rw, 0, false⟩,
   ⟨0x1A0, 0x0, 1, 56, 8, .rw, 0, false⟩,
   ⟨0x1A0, 0x0, 1, 0, 32, .rw, 0, false⟩]

/-- Field definitions of R381. -/
def fltDllRegs : List FDef :=
  [⟨0x100, 0x0, 1, 32, 32, .rc, 0, false⟩,
   ⟨0x100, 0x0, 1, 12, 1, .ro, 0, false⟩,
   ⟨0x100, 0x0, 1, 0, 12, .ro, 0, false⟩,
   ⟨0x108, 0x0, 1, 0, 12, .rw, 0, false⟩,
   ⟨0x110, 0x8, 4, 0, 64, .ro, 0, false⟩,
   ⟨0x130, 0x0, 1, 0, 1, .w1s, 0, false⟩]

/-- Field definitions of R382. -/
def jigRegs : List FDef :=
  [⟨0x100, 0x0, 1, 8, 16, .rw, 60, false⟩,
   ⟨0x100, 0x0, 1, 0, 1, .rw, 0, false⟩,
   ⟨0x108, 0x0, 1, 32, 32, .rc, 0, false⟩,
   ⟨0x108, 0x0, 1, 0, 32, .rc, 0, false⟩,
   ⟨0x110, 0x0, 1, 56, 8, .ro, 0, false⟩,
   ⟨0x110, 0x0, 1, 0, 39, .ro, 0, false⟩]

/-- Field definitions of R409. -/
def rstRegs : List FDef :=
  [⟨0x100, 0x0, 1, 16, 8, .rw, 0, false⟩,
   ⟨0x100, 0x0, 1, 12, 4, .rw, 0, false⟩,
   ⟨0x100, 0x0, 1, 1, 2, .rw, 0, false⟩,
   ⟨0x100, 0x0, 1, 0, 1, .w1s, 0, false⟩,
   ⟨0x108, 0x0, 1, 48, 8, .ro, 0, false⟩,
   ⟨0x108, 0x0, 1, 40, 8, .ro, 0, false⟩,
   ⟨0x108, 0x0, 1, 36, 4, .ro, 0, false⟩,
   ⟨0x108, 0x0, 1, 34, 2, .ro, 0, false⟩,
   ⟨0x108, 0x0, 1, 3, 1, .ro, 0, false⟩,
   ⟨0x108, 0x0, 1, 0, 3, .ro, 0, false⟩,
   ⟨0x110, 0x0, 1, 32, 32, .ro, 0, false⟩,
   ⟨0x110, 0x0, 1, 0, 32, .ro, 0, false⟩,
   ⟨0x118, 0x0, 1, 48, 16, .rc, 0, false⟩,
   ⟨0x118, 0x0, 1, 32, 16, .rc, 0, false⟩,
   ⟨0x118, 0x0, 1, 0, 32, .rc, 0, false⟩,
   ⟨0x120, 0x0, 1, 48, 16, .rw, 4, false⟩,
   ⟨0x120, 0x0, 1, 32, 16, .rw, 256, false⟩,
   ⟨0x120, 0x0, 1, 16, 16, .rw, 256, false⟩,
   ⟨0x120, 0x0, 1, 0, 16, .rw, 4096, false⟩,
   ⟨0x128, 0x0, 1, 16, 16, .rw, 4096, false⟩,
   ⟨0x128, 0x0, 1, 0, 16, .rw, 256, false⟩,
   ⟨0x130, 0x0, 1, 32, 32, .rc, 0, false⟩,
   ⟨0x130, 0x0, 1, 24, 8, .ro, 0, false⟩,
   ⟨0x130, 0x0, 1, 20, 4, .ro, 0, false⟩,
   ⟨0x138, 0x0, 1, 32, 32, .rw, 10000, false⟩,
   ⟨0x138, 0x0, 1, 0, 16, .rw, 100, false⟩,
   ⟨0x140, 0x0, 1, 60, 4, .ro, 0, false⟩,
   ⟨0x140, 0x0, 1, 48, 12, .ro, 0, false⟩,
   ⟨0x140, 0x0, 1, 34, 14, .ro, 0, false⟩,
   ⟨0x140, 0x0, 1, 8, 8, .ro, 0, false⟩,
   ⟨0x140, 0x0, 1, 0, 4, .ro, 0, false⟩,
   ⟨0x148, 0x0, 1, 0, 64, .ro, 0, false⟩]

/-- Field definitions of R410. -/
def dmpRegs : List FDef :=
  [⟨0x100, 0x0, 1, 16, 16, .rw, 50, false⟩,
   ⟨0x108, 0x0, 1, 0, 16, .rw, 0, false⟩,
   ⟨0x110, 0x0, 1, 56, 8, .ro, 16, false⟩,
   ⟨0x110, 0x0, 1, 52, 4, .ro, 0, false⟩,
   ⟨0x110, 0x0, 1, 32, 16, .rc, 0, false⟩,
   ⟨0x110, 0x0, 1, 16, 16, .rc, 0, false⟩,
   ⟨0x110, 0x0, 1, 1, 1, .w1c, 0, false⟩,
   ⟨0x110, 0x0, 1, 0, 1, .ro, 0, false⟩,
   ⟨0x118, 0x0, 1, 32, 32, .rc, 0, false⟩,
   ⟨0x120, 0x0, 1, 60, 4, .rw, 0, false⟩,
   ⟨0x120, 0x0, 1, 0, 26, .rw, 0, false⟩,
   ⟨0x800, 0x8, 256, 0, 64, .ro, 0, false⟩]

/-- Field definitions of R440. -/
def parRegs : List FDef :=
  [⟨0x100, 0x0, 1, 2, 1, .w1s, 0, false⟩,
   ⟨0x100, 0x0, 1, 1, 1, .w1s, 0, false⟩,
   ⟨0x108, 0x0, 1, 32, 8, .ro, 0, false⟩,
   ⟨0x108, 0x0, 1, 11, 1, .ro, 0, false⟩,
   ⟨0x108, 0x0, 1, 10, 1, .ro, 0, false⟩,
   ⟨0x108, 0x0, 1, 8, 2, .ro, 0, false⟩,
   ⟨0x108, 0x0, 1, 4, 3, .ro, 0, false⟩,
   ⟨0x108, 0x0, 1, 0, 2, .ro, 0, false⟩,
   ⟨0x110, 0x0, 1, 0, 64, .ro, 0, false⟩,
   ⟨0x118, 0x0, 1, 63, 1, .ro, 0, false⟩,
   ⟨0x118, 0x0, 1, 0, 56, .ro, 0, false⟩,
   ⟨0x120, 0x0, 1, 48, 16, .ro, 4, false⟩,
   ⟨0x120, 0x0, 1, 32, 16, .ro, 50, false⟩,
   ⟨0x120, 0x0, 1, 16, 16, .ro, 8, false⟩,
   ⟨0x120, 0x0, 1, 0, 16, .rw, 100, false⟩,
   ⟨0x128, 0x0, 1, 50, 14, .ro, 0, false⟩,
   ⟨0x128, 0x0, 1, 36, 14, .ro, 0, false⟩,
   ⟨0x128, 0x0, 1, 35, 1, .ro, 0, false⟩,
   ⟨0x128, 0x0, 1, 0, 14, .ro, 0, false⟩,
   ⟨0x130, 0x0, 1, 32, 32, .rc, 0, false⟩,
   ⟨0x130, 0x0, 1, 0, 32, .rc, 0, false⟩,
   ⟨0x138, 0x0, 1, 32, 32, .ro, 0, false⟩,
   ⟨0x138, 0x0, 1, 0, 32, .ro, 0, false⟩,
   ⟨0x140, 0x0, 1, 0, 16, .ro, 0, false⟩,
   ⟨0x148, 0x0, 1, 32, 32, .ro, 0, false⟩,
   ⟨0x148, 0x0, 1, 0, 32, .ro, 0, false⟩,
   ⟨0x150, 0x0, 1, 32, 32, .ro, 0, false⟩,
   ⟨0x150, 0x0, 1, 24, 8, .ro, 0, false⟩,
   ⟨0x150, 0x0, 1, 0, 16, .rc, 0, false⟩,
   ⟨0x158, 0x0, 1, 0, 64, .ro, 0, false⟩,
   ⟨0x160, 0x0, 1, 0, 64, .ro, 0, false⟩]

/-- Field definitions of R513. -/
def agtRegs : List FDef :=
  [⟨0x100, 0x0, 1, 0, 9, .ro, 0, false⟩,
   ⟨0x108, 0x0, 1, 32, 32, .rc, 0, false⟩,
   ⟨0x108, 0x0, 1, 0, 32, .rc, 0, false⟩,
   ⟨0x110, 0x0, 1, 48, 16, .rc, 0, false⟩,
   ⟨0x110, 0x0, 1, 32, 16, .rc, 0, false⟩,
   ⟨0x110, 0x0, 1, 16, 16, .rc, 0, false⟩,
   ⟨0x110, 0x0, 1, 0, 16, .rc, 0, false⟩,
   ⟨0x118, 0x0, 1, 50, 14, .ro, 0, false⟩,
   ⟨0x118, 0x0, 1, 40, 8, .ro, 0, false⟩,
   ⟨0x118, 0x0, 1, 0, 32, .ro, 0, false⟩]

/-- Field definitions of R528. -/
def pwrRegs : List FDef :=
  [⟨0x100, 0x0, 1, 12, 4, .ro, 0, false⟩,
   ⟨0x100, 0x0, 1, 7, 1, .ro, 0, false⟩,
   ⟨0x100, 0x0, 1, 6, 1, .ro, 0, false⟩,
   ⟨0x100, 0x0, 1, 0, 2, .ro, 0, false⟩,
   ⟨0x108, 0x0, 1, 48, 16, .ro, 1500, false⟩,
   ⟨0x108, 0x0, 1, 32, 16, .rw, 1500, false⟩,
   ⟨0x108, 0x0, 1, 16, 16, .rw, 420, false⟩,
   ⟨0x110, 0x0, 1, 32, 32, .ro, 0, false⟩,
   ⟨0x110, 0x0, 1, 0, 32, .ro, 0, false⟩,
   ⟨0x118, 0x0, 1, 32, 32, .ro, 0, false⟩,
   ⟨0x118, 0x0, 1, 0, 32, .ro, 0, false⟩,
   ⟨0x120, 0x0, 1, 32, 32, .rc, 0, false⟩,
   ⟨0x120, 0x0, 1, 0, 32, .rc, 0, false⟩,
   ⟨0x128, 0x0, 1, 0, 16, .ro, 0, false⟩,
   ⟨0x130, 0x0, 1, 40, 8, .ro, 0, false⟩,
   ⟨0x130, 0x0, 1, 24, 8, .ro, 0, false⟩,
   ⟨0x138, 0x0, 1, 32, 32, .rc, 0, false⟩,
   ⟨0x138, 0x0, 1, 0, 32, .ro, 0, false⟩,
   ⟨0x140, 0x0, 1, 2, 2, .ro, 0, false⟩,
   ⟨0x140, 0x0, 1, 0, 2, .ro, 0, false⟩]

/-- Field definitions of R529. -/
def pwrDieRegs : List FDef :=
  [⟨0x100, 0x0, 1, 56, 8, .ro, 0, false⟩,
   ⟨0x100, 0x0, 1, 48, 8, .ro, 0, false⟩,
   ⟨0x100, 0x0, 1, 40, 8, .ro, 0, false⟩,
   ⟨0x108, 0x8, 4, 63, 1, .w1c, 0, false⟩,
   ⟨0x108, 0x8, 4, 32, 16, .ro, 0, false⟩,
   ⟨0x108, 0x8, 4, 16, 16, .ro, 0, false⟩]

/-- Field definitions of R476. -/
def iaTmkRegs : List FDef :=
  [⟨0x108, 0x0, 1, 8, 8, .ro, 255, false⟩,
   ⟨0x108, 0x0, 1, 5, 3, .ro, 0, false⟩,
   ⟨0x108, 0x0, 1, 3, 1, .ro, 0, false⟩,
   ⟨0x108, 0x0, 1, 0, 3, .ro, 0, false⟩,
   ⟨0x110, 0x0, 1, 0, 64, .ro, 0, false⟩,
   ⟨0x118, 0x0, 1, 0, 14, .ro, 512, false⟩,
   ⟨0x170, 0x0, 1, 32, 32, .rc, 0, false⟩,
   ⟨0x170, 0x0, 1, 0, 32, .rc, 0, false⟩,
   ⟨0x178, 0x0, 1, 0, 32, .ro, 0, false⟩]

/-- Field definitions of R478. -/
def iaRteRegs : List FDef :=
  [⟨0x200, 0x0, 1, 63, 1, .rw, 0, false⟩,
   ⟨0x200, 0x0, 1, 0, 14, .rw, 0, false⟩,
   ⟨0x208, 0x0, 1, 0, 64, .rw, 0, false⟩,
   ⟨0x210, 0x0, 1, 63, 1, .rw, 0, false⟩,
   ⟨0x210, 0x0, 1, 0, 12, .rw, 0, false⟩,
   ⟨0x218, 0x0, 1, 15, 1, .rw, 0, false⟩,
   ⟨0x218, 0x0, 1, 0, 14, .rw, 0, false⟩,
   ⟨0x220, 0x0, 1, 63, 1, .rw, 0, false⟩,
   ⟨0x220, 0x0, 1, 16, 4, .rw, 0, false⟩,
   ⟨0x220, 0x0, 1, 0, 12, .rw, 0, false⟩,
   ⟨0x228, 0x0, 1, 50, 14, .rw, 0, false⟩,
   ⟨0x228, 0x0, 1, 36, 14, .rw, 0, false⟩,
   ⟨0x228, 0x0, 1, 22, 14, .rw, 0, false⟩,
   ⟨0x228, 0x0, 1, 8, 14, .rw, 0, false⟩]

/-- Field definitions of R483. -/
def iaTtbRegs : List FDef :=
  [⟨0x100, 0x0, 1, 4, 1, .w1s, 0, false⟩,
   ⟨0x100, 0x0, 1, 3, 1, .w1s, 0, false⟩,
   ⟨0x108, 0x0, 1, 56, 8, .ro, 0, false⟩,
   ⟨0x108, 0x0, 1, 0, 4, .ro, 0, false⟩,
   ⟨0x118, 0x0, 1, 0, 56, .rw, 0, false⟩,
   ⟨0x120, 0x0, 1, 0, 56, .ro, 0, false⟩,
   ⟨0x180, 0x8, 4, 0, 64, .rw, 0, false⟩,
   ⟨0x1A0, 0x0, 1, 0, 17, .rw, 0, false⟩,
   ⟨0x1A8, 0x0, 1, 0, 16, .rw, 0, false⟩,
   ⟨0x1B0, 0x0, 1, 0, 16, .rw, 0, true⟩,
   ⟨0x1B8, 0x0, 1, 0, 32, .rw, 4294967295, true⟩,
   ⟨0x1C0, 0x0, 1, 0, 64, .rc, 0, false⟩,
   ⟨0x1C8, 0x0, 1, 8, 1, .w1c, 0, true⟩,
   ⟨0x1C8, 0x0, 1, 0, 8, .ro, 0, false⟩,
   ⟨0x1D0, 0x0, 1, 0, 12, .rw, 0, true⟩,
   ⟨0x1D8, 0x0, 1, 6, 58, .rw, 0, true⟩,
   ⟨0x1E0, 0x0, 1, 63, 1, .rw, 0, true⟩,
   ⟨0x1E0, 0x0, 1, 62, 1, .rw, 0, true⟩,
   ⟨0x1E0, 0x0, 1, 61, 1, .rw, 0, true⟩,
   ⟨0x1E0, 0x0, 1, 0, 40, .rw, 0, true⟩,
   ⟨0x1E8, 0x0, 1, 0, 15, .rw, 0, false⟩,
   ⟨0x1F0, 0x0, 1, 63, 1, .rw, 0, false⟩,
   ⟨0x1F0, 0x0, 1, 0, 14, .rw, 0, false⟩,
   ⟨0x1F8, 0x0, 1, 0, 16, .rw, 0, false⟩,
   ⟨0x200, 0x0, 1, 63, 1, .ro, 0, false⟩,
   ⟨0x200, 0x0, 1, 32, 16, .ro, 0, false⟩,
   ⟨0x200, 0x0, 1, 0, 16, .ro, 0, false⟩,
   ⟨0x208, 0x0, 1, 0, 64, .wo, 0, false⟩,
   ⟨0x210, 0x0, 1, 0, 64, .wo, 0, false⟩,
   ⟨0x218, 0x0, 1, 63, 1, .w1s, 0, false⟩,
   ⟨0x218, 0x0, 1, 0, 32, .rc, 0, false⟩,
   ⟨0x220, 0x0, 1, 0, 13, .rw, 0, false⟩,
   ⟨0x228, 0x0, 1, 63, 1, .w1s, 0, false⟩,
   ⟨0x228, 0x0, 1, 0, 21, .ro, 0, false⟩,
   ⟨0x230, 0x0, 1, 0, 17, .rw, 0, false⟩,
   ⟨0x238, 0x0, 1, 32, 32, .rw, 0, false⟩,
   ⟨0x238, 0x0, 1, 0, 32, .rw, 0, false⟩,
   ⟨0x240, 0x0, 1, 32, 8, .rw, 0, false⟩,
   ⟨0x240, 0x0, 1, 0, 8, .rw, 0, false⟩,
   ⟨0x248, 0x0, 1, 0, 16, .rw, 0, false⟩] ++
  [⟨0x400, 0x8, 256, 0, 64, .rw, 0, false⟩,
   ⟨0x800, 0x8, 256, 0, 64, .rw, 0, false⟩]

/-- Field definitions of R484. -/
def iaCdcRegs : List FDef :=
  [⟨0x300, 0x0, 1, 52, 12, .rw, 0, true⟩,
   ⟨0x300, 0x0, 1, 0, 40, .rw, 0, true⟩,
   ⟨0x308, 0x0, 1, 52, 12, .rw, 0, true⟩,
   ⟨0x308, 0x0, 1, 0, 40, .rw, 0, true⟩,
   ⟨0x310, 0x0, 1, 56, 8, .rw, 0, true⟩,
   ⟨0x310, 0x0, 1, 55, 1, .rw, 0, true⟩,
   ⟨0x310, 0x0, 1, 45, 2, .rw, 0, true⟩,
   ⟨0x310, 0x0, 1, 0, 15, .rw, 0, true⟩,
   ⟨0x318, 0x0, 1, 32, 32, .rw, 0, true⟩,
   ⟨0x318, 0x0, 1, 0, 32, .rw, 0, true⟩,
   ⟨0x320, 0x0, 1, 0, 56, .rw, 0, true⟩,
   ⟨0x328, 0x0, 1, 4, 4, .ro, 0, false⟩,
   ⟨0x328, 0x0, 1, 2, 1, .w1c, 0, true⟩,
   ⟨0x328, 0x0, 1, 1, 1, .ro, 0, false⟩,
   ⟨0x328, 0x0, 1, 0, 1, .w1s, 0, true⟩]

/-- Field definitions of R488. -/
def iaFrkRegs : List FDef :=
  [⟨0x100, 0x0, 1, 2, 1, .w1s, 0, true⟩,
   ⟨0x100, 0x0, 1, 1, 1, .w1s, 0, true⟩,
   ⟨0x100, 0x0, 1, 0, 1, .w1s, 0, true⟩,
   ⟨0x108, 0x0, 1, 7, 1, .ro, 0, false⟩,
   ⟨0x108, 0x0, 1, 6, 1, .ro, 0, false⟩,
   ⟨0x108, 0x0, 1, 5, 1, .ro, 0, false⟩,
   ⟨0x108, 0x0, 1, 4, 1, .rw, 0, true⟩,
   ⟨0x108, 0x0, 1, 3, 1, .rw, 0, true⟩,
   ⟨0x108, 0x0, 1, 1, 1, .ro, 0, false⟩,
   ⟨0x110, 0x0, 1, 0, 64, .wo, 0, true⟩,
   ⟨0x120, 0x8, 4, 0, 64, .rw, 0, false⟩,
   ⟨0x140, 0x0, 1, 1, 1, .rw, 0, false⟩,
   ⟨0x140, 0x0, 1, 0, 1, .w1s, 0, false⟩,
   ⟨0x148, 0x0, 1, 60, 4, .ro, 0, false⟩,
   ⟨0x148, 0x0, 1, 0, 8, .ro, 0, false⟩,
   ⟨0x150, 0x8, 4, 0, 64, .rw, 0, true⟩,
   ⟨0x170, 0x0, 1, 16, 1, .rw, 0, false⟩,
   ⟨0x170, 0x0, 1, 0, 16, .rw, 0, false⟩,
   ⟨0x180, 0x8, 4, 0, 64, .ro, 0, false⟩,
   ⟨0x800, 0x8, 256, 0, 64, .rw, 0, true⟩]

/-- Field definitions of R489. -/
def iaRstRegs : List FDef :=
  [⟨0x100, 0x0, 1, 8, 1, .w1s, 0, false⟩,
   ⟨0x100, 0x0, 1, 4, 1, .rw, 0, false⟩,
   ⟨0x100, 0x0, 1, 0, 3, .rw, 0, false⟩,
   ⟨0x108, 0x0, 1, 8, 1, .ro, 0, false⟩,
   ⟨0x108, 0x0, 1, 0, 8, .ro, 0, false⟩,
   ⟨0x150, 0x0, 1, 8, 1, .w1s, 0, true⟩,
   ⟨0x150, 0x0, 1, 4, 1, .rw, 0, true⟩,
   ⟨0x150, 0x0, 1, 0, 3, .rw, 0, true⟩,
   ⟨0x158, 0x0, 1, 32, 16, .rw, 10, false⟩,
   ⟨0x158, 0x0, 1, 0, 16, .rw, 2000, false⟩]

/-- Field definitions of R491. -/
def iaParRegs : List FDef :=
  [⟨0x100, 0x0, 1, 50, 14, .ro, 0, false⟩,
   ⟨0x100, 0x0, 1, 36, 6, .ro, 0, false⟩,
   ⟨0x100, 0x0, 1, 0, 32, .ro, 0, false⟩,
   ⟨0x108, 0x0, 1, 63, 1, .ro, 1, false⟩,
   ⟨0x108, 0x0, 1, 0, 56, .ro, 0, false⟩,
   ⟨0x110, 0x0, 1, 32, 32, .rc, 0, false⟩,
   ⟨0x110, 0x0, 1, 0, 32, .rc, 0, false⟩]

end Sys2Proof.Machine
end

