-- ==== Sys2Proof/Machine/Store.lean ====
section
/-! DEFINITION. Sparse tables and byte memories in one canonical form: keys strictly rising, and no entry equal to what an
unlisted key reads as. -/

namespace Sys2Proof.Machine

/-- A sparse table of numbers by key. -/
abbrev Table := List (Nat × Nat)

/-- A byte memory by address; an unlisted address reads as 0 (log entry 2). -/
abbrev Mem := List Host.Cell

/-- Removes what a key has. -/
def kdel {α : Type} : List (Nat × α) → Nat → List (Nat × α)
  | [], _ => []
  | (k', v) :: r, k => if k' = k then kdel r k else (k', v) :: kdel r k

/-- Sets the entry of a key at its sorted place. -/
def kput {α : Type} : List (Nat × α) → Nat → α → List (Nat × α)
  | [], k, v => [(k, v)]
  | (k', w) :: r, k, v =>
    if k < k' then (k, v) :: (k', w) :: r else if k' = k then (k, v) :: r else (k', w) :: kput r k v

/-- Reads a key, `d` where no entry has it. -/
def kget {α : Type} : List (Nat × α) → Nat → α → α
  | [], _, d => d
  | (k', v) :: r, k, d => if k' = k then v else kget r k d

/-- Sets a key to a value; the value `d` that an unlisted key reads as removes the entry. -/
def kset {α : Type} [DecidableEq α] (t : List (Nat × α)) (k : Nat) (v d : α) : List (Nat × α) :=
  if v = d then kdel t k else kput t k v

/-- The keys rise strictly from above `lo`, and no entry holds `d`. -/
def kwf {α : Type} [DecidableEq α] (d : α) : Option Nat → List (Nat × α) → Bool
  | _, [] => true
  | lo, (k, v) :: r => (match lo with | none => true | some l => decide (l < k)) && decide (v ≠ d) && kwf d (some k) r

/-- The entry of a table that reads as 0 where unlisted. -/
def tget (t : Table) (k : Nat) : Nat := kget t k 0

/-- Sets an entry of a table that reads as 0 where unlisted. -/
def tset (t : Table) (k v : Nat) : Table := kset t k v 0

/-- Removes every entry whose key satisfies `p`. -/
def tdrop {α : Type} (p : Nat → Bool) (t : List (Nat × α)) : List (Nat × α) := t.filter fun e => !p e.1

/-- One byte of a memory. -/
def mget (m : Mem) (a : Nat) : Byte := kget m a 0

/-- Writes one byte of a memory. -/
def mset (m : Mem) (a : Nat) (b : Byte) : Mem := kset m a b 0

/-- The `n` bytes from address `a` upward. -/
def mread (m : Mem) (a : Nat) : Nat → List Byte
  | 0 => []
  | n + 1 => mget m a :: mread m (a + 1) n

/-- Writes bytes from address `a` upward. -/
def mwrite (m : Mem) (a : Nat) : List Byte → Mem
  | [] => m
  | b :: bs => mwrite (mset m a b) (a + 1) bs

/-- The little-endian word of 8 bytes at address `a` (R6). -/
def mword (m : Mem) (a : Nat) : Nat := leNat (mread m a 8)

/-- Writes the 8 little-endian bytes of a word at address `a` (R6). -/
def mwordPut (m : Mem) (a v : Nat) : Mem := mwrite m a (leBytes 8 v)

/-- Zeros the addresses from `a` up to below `b`. -/
def mzero (m : Mem) (a b : Nat) : Mem := m.filter fun e => e.1 < a || b ≤ e.1

/-- The canonical form of a memory. -/
abbrev Mem.wf (m : Mem) : Prop := kwf (0 : Byte) none m = true

end Sys2Proof.Machine
end

