-- ==== Sys2Proof/Machine/State.lean ====
section
/-! DEFINITION. The state of the block: the register files of the DZ8 and of the agent, everything the spec gives them
beside registers, the outbox and the queue of waiting commands; the state right after reset; faults and refusals. -/

namespace Sys2Proof.Machine

/-- The timekeeper of the DZ8 beside its registers ("Fabric time, the beat and the Postmark"). -/
structure TimeSt where
  /-- 56 bits; R35 (02_fabric_time.md); reset 0 (DESIGN CHOICE, the count does not exist before R59 step 4). Beat count of the Postmark. -/
  beat : Nat
  /-- 8 bits; R35 (02_fabric_time.md); reset 0. Position in the beat, 1/256 beat. -/
  phase : Nat
  /-- 1 bit; R59 (02_fabric_time.md); reset false. The beat count exists. -/
  counting : Bool
  /-- natural number; the model's own, R49 and the windows in ms; reset 0. Local time of the unit in ns, advanced at each beat boundary by P. -/
  nowNs : Nat
  /-- 4 bits; R32 (02_fabric_time.md); reset 0. Consecutive good PPS edges. -/
  ppsGood : Nat
  /-- natural number; R37 (02_fabric_time.md); reset 0. Seconds whose PPS edge is missing, by which TMK_TOD has advanced. -/
  todMissed : Nat
  /-- 5 bits; R32 (02_fabric_time.md); reset 0. Consecutive good Sync intervals. -/
  syncGood : Nat
  /-- 1 bit; R32 (02_fabric_time.md); reset false. The selected source is qualified. -/
  qualified : Bool
  /-- natural number; R49 (02_fabric_time.md); reset 0. Magnitude E0 of the last lock error, ps. -/
  lockErrPs : Nat
  /-- optional; R49 (02_fabric_time.md); reset none. Local time in ns at which the present holdover began. -/
  holdStartNs : Option Nat
  /-- integer; R50 (02_fabric_time.md); reset 0. Offset the present slew still has to correct, in 1/256 ps. -/
  slewLeft : Int
  /-- 1 bit; R50 (02_fabric_time.md); reset false. A relock offset of P/2 or more was measured; XDOM_UNSAFE stays until the step. -/
  stepWait : Bool
  /-- 1 bit; R38 (02_fabric_time.md); reset false. The announcement of the pending period change has begun. -/
  announced : Bool
  /-- list; R31 (02_fabric_time.md); reset empty. Data sets announced in the domain, one a master. -/
  masters : List Master
  deriving DecidableEq, Repr

/-- What the agent keeps of one candidate for its beat source (R42, R43, R52). -/
structure Candidate where
  /-- 6 bits; R42 (02_fabric_time.md). Port of the link. -/
  port : Nat
  /-- 1 bit; R39 (02_fabric_time.md). ACTIVE of its last word. -/
  active : Bool
  /-- 3 bits; R39 (02_fabric_time.md). HOPS of its last word. -/
  hops : Nat
  /-- natural number; R43 (02_fabric_time.md). Consecutive valid words. -/
  valid : Nat
  /-- 1 bit; R42 (02_fabric_time.md). A valid word for the present beat has come. -/
  fresh : Bool
  deriving DecidableEq, Repr

/-- The agent's beat beside its registers (R41 to R44, R51, R52, R476). -/
structure AgTimeSt where
  /-- 56 bits; R43 (02_fabric_time.md); reset 0 (DESIGN CHOICE). Beat count. -/
  beat : Nat
  /-- 8 bits; R35 (02_fabric_time.md); reset 0. Position in the beat, 1/256 beat. -/
  phase : Nat
  /-- integer; R43 (02_fabric_time.md); reset 0. Phase of the agent's boundary against its source, ps. -/
  phasePs : Int
  /-- natural number; the model's own; reset 0. Local time in ns. -/
  nowNs : Nat
  /-- list; R42 (02_fabric_time.md); reset empty. Candidate links by rising port. -/
  cands : List Candidate
  /-- optional 6 bits; R42 (02_fabric_time.md); reset none. Port of the selected source. -/
  source : Option Nat
  /-- optional; R38, R71 (02_fabric_time.md); reset none. Period and second S of the announced change. -/
  pchg : Option (Nat × Nat)
  /-- natural number; R51 (02_fabric_time.md); reset 0. Consecutive beats missed from every candidate. -/
  missRun : Nat
  /-- 1 bit; R51 (02_fabric_time.md); reset false. Scheduled injection stops at the next step boundary. -/
  injectStop : Bool
  /-- 56 bits; R477 (17_icnaiz_agent.md); reset 0. Beat at which orphan mode began. -/
  orphanAt : Nat
  deriving DecidableEq, Repr

/-- One training, credit and frame state of a fabric port beside its registers (R76 to R92). -/
structure PortSt where
  /-- 7 bits; R76 (03_cells_links_credits.md). The port's number. -/
  port : Nat
  /-- 4 bits; R76 (03_cells_links_credits.md); reset 0. Present training stage 1 to 8; 0 outside an attempt. -/
  stage : Nat
  /-- natural number; R76 (03_cells_links_credits.md); reset 0. Local time in ns at which the present stage began. -/
  stageNs : Nat
  /-- 1 bit; R76 (03_cells_links_credits.md); reset false. Held at the end of step 6 by a PROVISIONAL IDENT. -/
  held : Bool
  /-- 1 bit; R80 (03_cells_links_credits.md); reset true. The transmitter is in electrical idle. -/
  idle : Bool
  /-- 4 bits; R77 (03_cells_links_credits.md); reset 0. Good lanes found by the present attempt. -/
  lanes : Nat
  /-- 1 bit; R71 (03_cells_links_credits.md); reset true. The far end's last IDENT carried PROVISIONAL. -/
  farProv : Bool
  /-- 1 bit; R22, R39 (02_fabric_time.md); reset false. ACTIVE of the last beat word received. -/
  farActive : Bool
  /-- natural number; R41 (02_fabric_time.md); reset 0. Beat words of the port counted as missed. -/
  missed : Nat
  /-- 1 bit; R54 (02_fabric_time.md); reset false. The last beat word of a LEDGER link had an offset of more than 20 ns. -/
  ledgerFar : Bool
  /-- 1 bit; R76 (03_cells_links_credits.md); reset false. The Rod marks the link as leaving the rack. -/
  offRack : Bool
  /-- list of 16 ps values; R40 (03_cells_links_credits.md); reset empty. Round trips of the present training. -/
  probes : List Nat
  /-- four credit counts; R81 (03_cells_links_credits.md); reset 0. Credits held per VC. -/
  credits : List Nat
  /-- four 14-bit counts; R82 (03_cells_links_credits.md); reset 0. Last CREDIT counts received. -/
  lastCredit : List Nat
  /-- four 14-bit counts; R82 (03_cells_links_credits.md); reset 0. Cells sent per VC. -/
  sent : List Nat
  /-- four 14-bit counts; R83 (03_cells_links_credits.md); reset 0. Cells received per VC. -/
  received : List Nat
  /-- four 14-bit counts; R82 (03_cells_links_credits.md); reset 0. Freed buffers advertised per VC. -/
  freed : List Nat
  /-- four counts; R81 (03_cells_links_credits.md); reset 0. Receive buffers in use per VC. -/
  buffered : List Nat
  /-- list of cells; R81 (03_cells_links_credits.md); reset empty. Cells queued for transmission, oldest first, each with the port and VC
of the receive buffer it still holds. -/
  queue : List (Option (Nat × Nat) × Cell)
  /-- four and four 14-bit counts; R73 (03_cells_links_credits.md); reset empty. Counts of the last CREDIT and SENT words sent. -/
  told : List Nat × List Nat
  /-- three counts; R75 (03_cells_links_credits.md); reset 0. Unscheduled, VC0 and VC3 cells sent in the present beat. -/
  unsched : Nat
  sched : Nat
  escaped : Nat
  /-- two counts; R73 (03_cells_links_credits.md), R109 (04_routes_generations.md); reset 0. Positions sent since the last control
position, and since VC3 was last served. -/
  sinceCtl : Nat
  sinceEsc : Nat
  /-- 4 bits, 4 bits and 10 bits; R69 (03_cells_links_credits.md); reset 0. CWSEQ of the codeword being sent, its positions so far, and
its POSMAP. -/
  txSeq : Nat
  txCount : Nat
  txMap : Nat
  /-- optional; R310 (11_trust_keys.md); reset none. Secret of the agreed link keys. -/
  key : Option Nat
  /-- natural number; R311 (11_trust_keys.md); reset 0. Number of the transmit key in force. -/
  keyIndex : Nat
  /-- natural number; R311 (11_trust_keys.md); reset 0. Number of the receive key in force. -/
  rxKeyIndex : Nat
  /-- 64 bits; R91 (03_cells_links_credits.md); reset 0. Transmit frame counter. -/
  txFrame : Nat
  /-- 64 bits; R92 (03_cells_links_credits.md); reset 0. Receive frame counter. -/
  rxFrame : Nat
  /-- list of cells; R91 (03_cells_links_credits.md); reset empty. Cells of the open transmit frame. -/
  openFrame : List Cell
  /-- list of cells; R92 (03_cells_links_credits.md); reset empty. Received cells held until their tag. -/
  heldFrame : List Cell
  /-- natural number; R311 (11_trust_keys.md); reset 0. Frames received since the receive key last changed. -/
  rxPhaseFrames : Nat
  /-- 5 bits; R80 (03_cells_links_credits.md); reset 0. Consecutive frames whose tag failed. -/
  tagRun : Nat
  /-- words; R70 (03_cells_links_credits.md); reset empty. Kind and content of the words of the last good control positions. -/
  rxWords : List (Nat × Word)
  /-- 7 bits; R70, R72 (03_cells_links_credits.md); reset 0. BOFS of the last good control position that carries a BEAT word. -/
  rxBofs : Nat
  /-- list of cells; R68 (03_cells_links_credits.md); reset empty. Cells of the last good codeword. -/
  rxCells : List Cell
  /-- 4 bits; R69 (03_cells_links_credits.md); reset 0. CWSEQ of the last good codeword. -/
  rxSeq : Nat
  deriving DecidableEq, Repr

/-- A port out of reset: idle, nothing queued, no credit (R76, R80). -/
def PortSt.fresh (p : Nat) : PortSt where
  port := p
  stage := 0
  stageNs := 0
  held := false
  idle := true
  lanes := 0
  farProv := true
  farActive := false
  missed := 0
  ledgerFar := false
  offRack := false
  probes := []
  credits := [0, 0, 0, 0]
  lastCredit := [0, 0, 0, 0]
  sent := [0, 0, 0, 0]
  received := [0, 0, 0, 0]
  freed := [0, 0, 0, 0]
  buffered := [0, 0, 0, 0]
  queue := []
  told := ([], [])
  unsched := 0
  sched := 0
  escaped := 0
  sinceCtl := 0
  sinceEsc := 0
  txSeq := 0
  txCount := 0
  txMap := 0
  key := none
  keyIndex := 0
  rxKeyIndex := 0
  rxPhaseFrames := 0
  txFrame := 0
  rxFrame := 0
  openFrame := []
  heldFrame := []
  tagRun := 0
  rxWords := []
  rxBofs := 0
  rxCells := []
  rxSeq := 0

/-- One Dovetail group's replay (R94). -/
structure Replay where
  edge : Nat
  /-- The sender is the second die of the edge. -/
  second : Bool
  group : Nat
  cell : Cell
  attempts : Nat
  deriving DecidableEq, Repr

/-- One entry of a dead-letter log (R87). -/
structure DeadLetter where
  postmark : Word
  header : Word
  trailer : Word
  reason : Nat
  port : Nat
  context : Nat
  deriving DecidableEq, Repr

/-- The content of a COMMIT (R117). -/
structure Commit where
  gen : Nat
  flipAt : Nat
  resume : Nat
  coordinator : Nat
  serial : Nat
  /-- Role-epoch changes, domain and new epoch, at most four. -/
  epochs : List (Nat × Nat)
  deriving DecidableEq, Repr

/-- States of a flip record (R123). -/
inductive RecState where
  | prepared
  | quiet
  | commitIssued
  | done
  | aborted
  deriving DecidableEq, Repr

/-- A flip record (R123). -/
structure FlipRecord where
  /-- 14 bits. FID of the coordinator. -/
  coord : Nat
  serial : Nat
  gen : Nat
  fabric : Bool
  quietAt : Nat
  flipAt : Nat
  state : RecState
  /-- Role-epoch changes that the flip's COMMIT carries. -/
  epochs : List (Nat × Nat)
  deriving DecidableEq, Repr

/-- One management transaction of the unit (R127). -/
structure Txn where
  /-- 16 bits. Transaction number. -/
  seq : Nat
  /-- 14 bits. FID of the chip asked. -/
  fid : Nat
  /-- The MREQ cell as sent. -/
  request : Cell
  /-- Attempts made, 1 to 4. -/
  attempts : Nat
  /-- Waiting for its backoff. -/
  backoff : Bool
  /-- Session index the transaction serves, none for the unit's own. -/
  session : Option Nat
  deriving DecidableEq, Repr

/-- Routes, flips and management transactions of the DZ8 beside its registers. -/
structure RouteSt where
  /-- sparse table of 64-bit entries; R97, R99 (04_routes_generations.md); reset all 0. Active images, key FID × 2^14 + destination. -/
  active : Table
  /-- sparse table of 64-bit entries; R97, R99 (04_routes_generations.md); reset all 0. Shadow images. -/
  shadow : Table
  /-- sparse table of 64-bit entries; R113 (04_routes_generations.md); reset all 0. Capacity map by Rod link index. -/
  capMap : Table
  /-- list of FIDs; R106 (04_routes_generations.md); reset empty. Chips whose alternate parent link is in use. -/
  onAlternate : List Nat
  /-- optional; R123 (04_routes_generations.md); reset none. Flip slot of the unit's own store. -/
  record : Option FlipRecord
  /-- 1 bit; R123 (04_routes_generations.md); reset false. The record's last write is confirmed. -/
  recordConfirmed : Bool
  /-- 16 bits and a beat; R416 (15_controller_pairs.md); reset 0. Batch of the record's last write, and the beat of its cell. -/
  recordBatch : Nat
  recordBeat : Nat
  /-- 32 bits; R117 (04_routes_generations.md); reset 0. Serial of the last flip the unit coordinated. -/
  flipSerial : Nat
  /-- list; R119 (04_routes_generations.md); reset empty. Flips applied: the coordinator's domain and the serial, newest first. -/
  applied : List (Nat × Nat)
  /-- optional bit; R114, R122 (04_routes_generations.md); reset none. A START of the host waits, with its fabric scope. -/
  pendStart : Option Bool
  /-- list of FIDs; R116 (04_routes_generations.md); reset empty. Chips that a flip left out, all their links down. -/
  leftOut : List Nat
  /-- optional; R103, R119 (04_routes_generations.md); reset none. COMMIT held until F. -/
  commit : Option Commit
  /-- list; R117 (04_routes_generations.md); reset empty. Epoch changes waiting for the next flip. -/
  nextEpochs : List (Nat × Nat)
  /-- optional beat; R118 (04_routes_generations.md); reset none. Beat L at which the last armed timetable paused. -/
  lastPause : Option Nat
  /-- list; R116 (04_routes_generations.md); reset empty. Reports of the last poll round. -/
  lastRound : List FlipReport
  /-- optional beat; R122 (04_routes_generations.md); reset none. Beat of the last COMMIT sent. -/
  lastCommit : Option Nat
  /-- list; R115 (04_routes_generations.md); reset empty. Border cells held with their ports. -/
  border : List (Nat × Cell)
  /-- list of contexts; R120 (04_routes_generations.md); reset empty. Jobs stopped by the fallback of the present flip. -/
  stopped : List Nat
  /-- list of contexts; R270, R274, R404 (10_slices_contexts.md); reset empty. Contexts whose map the running flip carries. -/
  forCtxs : List Nat
  /-- list; R512 (18_page_directory.md); reset empty. Remote-window MREQ cells held in quiet. -/
  heldMreq : List Txn
  /-- list; R127 (04_routes_generations.md); reset empty. Transactions in flight. -/
  txns : List Txn
  /-- list; R512 (18_page_directory.md); reset empty. Remote operations waiting beyond 256 in flight. -/
  waiting : List Txn
  /-- 16 bits; R61 (03_cells_links_credits.md); reset 0. Next transaction number. -/
  nextSeq : Nat
  deriving DecidableEq, Repr

/-- Routes and flips of the agent beside its registers (R478). -/
structure AgRouteSt where
  /-- sparse table; R97 (04_routes_generations.md); reset all 0. Active route table by destination. -/
  active : Table
  /-- sparse table; R97 (04_routes_generations.md); reset all 0. Shadow route table. -/
  shadow : Table
  /-- sparse table; R99, R478 (17_icnaiz_agent.md); reset all 0. Active LID→FID map. -/
  map : Table
  /-- sparse table; R99, R478 (17_icnaiz_agent.md); reset all 0. Shadow LID→FID map. -/
  mapShadow : Table
  /-- optional; R119 (04_routes_generations.md); reset none. COMMIT held until F. -/
  commit : Option Commit
  /-- list; R119 (04_routes_generations.md); reset empty. Flips applied: the coordinator's domain and the serial, newest first. -/
  applied : List (Nat × Nat)
  /-- optional; R117 (04_routes_generations.md); reset none. Serial and resume beat of the last ABORT applied. -/
  lastAbort : Option (Nat × Nat)
  /-- optional beat; R117 (04_routes_generations.md); reset none. Resume beat of the last COMMIT or ABORT. -/
  resumeAt : Option Nat
  deriving DecidableEq, Repr

/-- A member record of an exchange program (R157). -/
structure MemberRec where
  lid : Nat
  tokLo : Nat
  tokN : Nat
  deriving DecidableEq, Repr

/-- An exchange program as read from its bytes (R156, R157). -/
structure Program where
  op : Nat
  exact : Bool
  red : Nat
  infmt : Nat
  outfmt : Nat
  mxfmt : Nat
  elems : Nat
  mlistOff : Nat
  members : List MemberRec
  inCells : List Nat
  outLen : Nat
  stageDl : Nat
  outOff : Nat
  branchBeat : Nat
  branchCells : Nat
  branchRate : Nat
  bodyOff : Nat
  body : List Byte
  /-- The header or a reserved field breaks R156. -/
  reservedBad : Bool
  /-- The member list or the body extends beyond the program. -/
  beyond : Bool
  deriving DecidableEq, Repr

/-- One record of the step table (R131). -/
structure StepRec where
  start : Nat
  deadline : Nat
  xdom : Bool
  deriving DecidableEq, Repr

/-- One cutting-list entry (R134). -/
structure Entry where
  kind : Nat
  port : Nat
  cidx : Nat
  step : Nat
  target : Nat
  cells : Nat
  offset : Nat
  srcbuf : Nat
  rate : Nat
  segment : Nat
  expect : Nat
  beat : Nat
  deadline : Nat
  deriving DecidableEq, Repr

/-- One record of the list directory (R133). -/
structure ListRec where
  holder : Nat
  id : Nat
  first : Nat
  count : Nat
  deriving DecidableEq, Repr

/-- One exchange reference (R137). -/
structure XRef where
  xid : Nat
  deadline : Nat
  step : Nat
  progLen : Nat
  progOff : Nat
  deriving DecidableEq, Repr

/-- One record of a proof summary (R143). -/
structure ProofRec where
  link : Nat
  peak : Nat
  peakBeat : Nat
  cells : Nat
  deriving DecidableEq, Repr

/-- A timetable image as read from its bytes (R129 to R137, R156). -/
structure Image where
  version : Nat
  magic : Nat
  totalLen : Nat
  periodNs : Nat
  n : Nat
  context : Nat
  iters : Nat
  iterBeats : Nat
  energyUj : Nat
  restart : Nat
  voidMax : Nat
  settle : Nat
  grace : Nat
  digest : List Byte
  steps : List StepRec
  lists : List ListRec
  entries : List Entry
  xrefs : List XRef
  /-- The exchange program of each reference, in the same order. -/
  programs : List Program
  proofDigest : List Byte
  proof : List ProofRec
  deriving DecidableEq, Repr

/-- A void of one step in progress (R148 to R151). -/
structure VoidSt where
  serial : Nat
  step : Nat
  iter : Nat
  rb : Nat
  /-- Restart beat; none is all ones. -/
  rs : Option Nat
  cause : Nat
  detail : Nat
  parity : Nat
  lid : Option Nat
  home : Nat
  /-- Copies still to send, at most 2. -/
  repeats : Nat
  /-- Members that have not shown the serial. -/
  unconfirmed : List Nat
  /-- The rollback of beat RB has been done. -/
  rolled : Bool
  deriving DecidableEq, Repr

/-- A miss the home unit has learnt of and not yet sent a VOID for (R147, R148). -/
structure Miss where
  step : Nat
  iter : Nat
  cause : Nat
  detail : Nat
  lid : Option Nat
  deriving DecidableEq, Repr

/-- A begun step that is not committed: its number, iteration and boundary beat (R132). -/
structure OpenStep where
  step : Nat
  iter : Nat
  boundary : Nat
  deriving DecidableEq, Repr

/-- The executor of one context's timetable in the DZ8 beside its TTB page. -/
structure TtbSt where
  /-- 4 bits; R154 (05_timetables.md). The context. -/
  ctx : Nat
  /-- optional; R129 (05_timetables.md); reset none. The image the checker read last. -/
  image : Option Image
  /-- list; R132 (05_timetables.md); reset empty. Begun steps not committed, oldest first. -/
  uncommitted : List OpenStep
  /-- optional; R147 (05_timetables.md); reset none. Miss waiting for VOID_SEND. -/
  miss : Option Miss
  /-- optional; R148 (05_timetables.md); reset none. The void in progress. -/
  void : Option VoidSt
  /-- list; R148, R369 (05_timetables.md); reset empty. Notices of later steps that the void in progress has taken over, whose copies
  are still to be sent. -/
  others : List VoidSt
  /-- list; R149 (05_timetables.md); reset empty. Consecutive voids of each step that is not committed: step, iteration, count. -/
  attempts : List (Nat × Nat × Nat)
  /-- R398 (14_voids_resets_remap.md); reset 0. The last step with an UPDATE that the executor has committed: 1 + iteration × 2^32 +
  step, 0 for none. -/
  updateAt : Nat
  /-- two optional beats; R149 (05_timetables.md); reset none. Last rollback beat of an attempt of parity 0 and of parity 1. -/
  lastRb : Option Nat × Option Nat
  /-- 1 bit; R146 (05_timetables.md); reset false. STOP asked for. -/
  stopReq : Bool
  /-- 1 bit; R154 (05_timetables.md); reset false. DISARM asked for. -/
  disarmReq : Bool
  /-- 1 bit; R118, R146 (05_timetables.md); reset false. Paused by a drain-and-flip. -/
  flipPaused : Bool
  /-- 1 bit; R120, R397 (14_voids_resets_remap.md); reset false. Held: waits to be armed again. -/
  held : Bool
  /-- 1 bit; R144, R146 (05_timetables.md); reset false. ARM restarts a stopped or paused job. -/
  rearm : Bool
  /-- list of FIDs; R144 (05_timetables.md); reset empty. Members that have not shown ARMED. -/
  notArmed : List Nat
  /-- 1 bit; R142 (05_timetables.md); reset false. A TENANT session loaded the image. -/
  tenant : Bool
  /-- 1 bit; R142 (05_timetables.md); reset false. The check under way is host-assisted. -/
  hostCheck : Bool
  /-- sparse table; R153 (05_timetables.md); reset all 0. Congestion map by link index. -/
  cmap : Table
  /-- sparse table; R153 (05_timetables.md); reset all 0. By link index, one more than the last beat counted in HOT. -/
  cmapHot : Table
  /-- 128 bits; R191 (07_exchange_codec.md); reset 0 (DESIGN CHOICE). Codec seed the arming took. -/
  seed : Nat
  deriving DecidableEq, Repr

/-- What an agent reports of itself to the checker (R138, R139, R468). -/
structure AgentInfo where
  fid : Nat
  sink : Nat
  restUs : Nat
  maxEntries : Nat
  deriving DecidableEq, Repr

/-- What one sender of an instance has counted on one input (R160). -/
structure SenderCount where
  fid : Nat
  input : Nat
  count : Nat
  deriving DecidableEq, Repr

/-- One stored contribution cell of an instance (R160). -/
structure StoredCell where
  fid : Nat
  input : Nat
  index : Nat
  payload : List Word
  deriving DecidableEq, Repr

/-- States of an instance (R183). -/
inductive InstState where
  | opened
  | complete
  | ready
  | missed
  | error
  deriving DecidableEq, Repr

/-- An instance of an exchange (R160, R183). -/
structure Instance where
  ctx : Nat
  xid : Nat
  step : Nat
  iter : Nat
  parity : Nat
  isOpen : Bool
  state : InstState
  openNs : Nat
  firstNs : Option Nat
  readyNs : Option Nat
  counts : List SenderCount
  cells : List StoredCell
  /-- Exact accumulators by element (R164). -/
  accs : List (Nat × Acc)
  /-- Dequantised FP32 values of MX inputs by sender and element (R202). -/
  decoded : List (Nat × Nat × Nat)
  /-- ROUTE_COMBINE: stage 1 done, with the choices (token, expert, slot, weight) (R176). -/
  stage1 : Bool
  choices : List (Nat × Nat × Nat × Nat)
  /-- ROUTE_COMBINE: reduced hidden rows, FP32 bits, token by token. -/
  hidden : List Nat
  /-- Encoded blocks of the result buffer, index and bytes (R203). -/
  encoded : List (Nat × List Byte)
  /-- Instance number of the collective engine: its part of the sync window's engine area (R228). -/
  num : Nat
  /-- RESULT entries under way: image index, cells sent, cells sent in the last beat, and one more than that beat; the branch transfer
  under index 2^32 (R135, R162). -/
  sending : List (Nat × Nat × Nat × Nat)
  deriving DecidableEq, Repr

/-- A chain under way on a logical tile (R217). -/
structure ChainSt where
  die : Nat
  tile : Nat
  ctx : Nat
  xid : Nat
  /-- Chain-store index of the running or the last descriptor. -/
  index : Nat
  /-- The running descriptor, none between descriptors. -/
  running : Option Descriptor
  /-- Index of the descriptor that follows, none before the first. -/
  next : Option Nat
  /-- Dequantised values held exactly for a following ROTATE, units of 2^-143, none for NaN (R199, R216). -/
  exact : List (Option Int)
  deriving DecidableEq, Repr

/-- A tile whose engine switch scrubs it (R272). -/
structure ScrubSt where
  die : Nat
  tile : Nat
  ctx : Nat
  deriving DecidableEq, Repr

/-- Tiles, Pigeonholes and the sync window beside their registers. -/
structure TileSt where
  /-- list; R217 (08_tiles_pigeonholes.md); reset empty. Chains under way. -/
  chains : List ChainSt
  /-- list; R272 (10_slices_contexts.md); reset empty. Tiles being scrubbed. -/
  scrubs : List ScrubSt
  /-- sparse table; R272 (10_slices_contexts.md); reset all 0. Context that last used logical tile 64 × die + tile, plus 1. -/
  lastCtx : Table
  /-- sparse table; R234 (08_tiles_pigeonholes.md); reset all 0. Physical tile that an absent logical tile last had, plus 1, key 64 × die + tile. -/
  oldPhys : Table
  /-- bytes; R212 (08_tiles_pigeonholes.md); reset all 0 (DESIGN CHOICE). Tile SRAM, key (64 × die + tile) × 2^20 + address. -/
  tileSram : Mem
  /-- bytes; R15, R202 (01_deczar_system.md); reset all 0 (DESIGN CHOICE). X-die staging SRAM, key die × 2^26 + address. -/
  staging : Mem
  /-- bytes; R222 (08_tiles_pigeonholes.md); reset all 0 (DESIGN CHOICE). Pigeonholes, general area and sealed shelf, key C-die × 2^28 + die address. -/
  pgh : Mem
  /-- sparse table of 64-bit words; R228 (08_tiles_pigeonholes.md); reset all 0 (DESIGN CHOICE). Sync window, key C-die × 2^18 + word. -/
  sync : Table
  /-- list; R230 (08_tiles_pigeonholes.md); reset empty. COLLIDED access of port 1 per C-die, to be repeated. -/
  collided : List (Nat × SyncAccess)
  /-- list of C-dies; R232 (08_tiles_pigeonholes.md); reset empty. Dies whose shelf retention supply was cut and which are zeroed at the next wake. -/
  shelfCut : List Nat
  /-- list of sync words; R225 (08_tiles_pigeonholes.md); reset empty. Words that read 0 until next written. -/
  syncBad : List Nat
  /-- results; R229 (08_tiles_pigeonholes.md); reset empty. Value or refusal that port 0 and port 1 got from the last sync-window cycle. -/
  syncResult : List (Option Nat)
  deriving DecidableEq, Repr

/-- A slot of a merge cache (R254). -/
structure MergeSlot where
  mdie : Nat
  ctx : Nat
  xid : Nat
  block : Nat
  /-- Accumulators by element within the block. -/
  accs : List (Nat × Acc)
  deriving DecidableEq, Repr

/-- An optimizer set as latched by an open UPDATE instance, with its products of the step (R252, R253). -/
structure OptSet where
  ctx : Nat
  xid : Nat
  set : Nat
  opt : Nat
  lr : Nat
  wd : Nat
  b1 : Nat
  b2 : Nat
  eps : Nat
  p1 : Nat
  p2 : Nat
  deriving DecidableEq, Repr

/-- HBM, the vault and fused update beside their registers. -/
structure HbmSt where
  /-- bytes; R242 (09_hbm_vault_update.md); reset all 0 (DESIGN CHOICE). Contents under their keys, key M-die × 2^40 + M-address. -/
  mem : Mem
  /-- sparse table; R246, R248 (09_hbm_vault_update.md); reset all 0: not written. Key a sector was last written under, key M-die × 2^32 + sector. -/
  sealKey : Table
  /-- list; R248 (09_hbm_vault_update.md); reset empty. Keys under which a whole region was filled with zeros. -/
  fills : List Nat
  /-- sparse table; R249 (09_hbm_vault_update.md); reset all 0. Version counters, key (context × 16 + level) × 2^32 + index. -/
  counters : Table
  /-- list of contexts; R249 (09_hbm_vault_update.md); reset every context (DESIGN CHOICE): an empty root each. Contexts whose root the sealed shelf holds. -/
  roots : List Nat
  /-- sparse table; R251 (09_hbm_vault_update.md); reset all 0. Tile map: slot plus 1, key (context × 2 + copy) × 2^20 + tile. -/
  tileMap : Table
  /-- sparse table; R251 (09_hbm_vault_update.md); reset all 0. Copy the selector sector names, key context × 4 + M-die. -/
  selector : Table
  /-- sparse table; R398 (14_voids_resets_remap.md); reset all 0. Step that the selector sector names: 1 + iteration × 2^32 + step, key
  context × 4 + M-die. -/
  selStep : Table
  /-- list; R255 (09_hbm_vault_update.md); reset empty. Pending slots: context, XID, tile, slot. -/
  pending : List (Nat × Nat × Nat × Nat)
  /-- list of contexts; R248 (09_hbm_vault_update.md); reset empty. Contexts whose tile map failed its tag. -/
  mapBad : List Nat
  /-- list; R252 (09_hbm_vault_update.md); reset empty. Sets latched by open UPDATE instances. -/
  latched : List OptSet
  /-- list; R254 (09_hbm_vault_update.md); reset empty. Merge cache slots, least recently touched first. -/
  slots : List MergeSlot
  /-- list; R254 (09_hbm_vault_update.md); reset empty. Spilled exact state in HBM staging. -/
  spilled : List MergeSlot
  deriving DecidableEq, Repr

/-- A release in progress (R274). -/
structure RelSt where
  /-- Steps begun have ended and step 3 is done. -/
  drained : Bool
  /-- Step 4 is done. -/
  scrubbed : Bool
  /-- Step 5 is done. -/
  erased : Bool
  /-- Step 6: the flip is DONE. -/
  flipped : Bool
  /-- OVERWRITE was set with RELEASE. -/
  overwrite : Bool
  /-- The context was ASSIGNING. -/
  fromAssigning : Bool
  deriving DecidableEq, Repr

/-- A re-mapping in progress (R404). -/
structure Remap where
  ctx : Nat
  lid : Nat
  /-- FID of the spare, none while none qualifies. -/
  spare : Option Nat
  /-- The shadow maps flipped. -/
  flipped : Bool
  /-- The key delivery has ended well. -/
  keysDone : Bool
  /-- The restore stream has ended. -/
  streamDone : Bool
  /-- Cells of the stream still to be sent: stream offset, 48 bytes. -/
  toSend : List (Nat × List Byte)
  /-- Mail slot that waits for the result: session index and slot. -/
  mail : Option (Nat × Nat)
  /-- The DZ8 chooses the spare, and the next one where one fails (R401, R407). -/
  auto : Bool
  deriving DecidableEq, Repr

/-- A context beside its CTX page (R264 to R277, R397, R400). -/
structure CtxSt where
  /-- 4 bits; R264 (10_slices_contexts.md). The context number. -/
  ctx : Nat
  /-- sparse table of 64-bit words; R282 (10_slices_contexts.md); reset all 0. CTX_MAP_DATA by LID. -/
  map : Table
  /-- 128 bits; R271 (10_slices_contexts.md); reset 0. Codec seed. -/
  seed : Nat
  /-- 256 bits; R298 (11_trust_keys.md); reset 0. OWNER_ID. -/
  owner : Nat
  /-- optional; R274 (10_slices_contexts.md); reset none. The release in progress. -/
  release : Option RelSt
  /-- 1 bit; R270 (10_slices_contexts.md); reset false. The assignment waits for its flip. -/
  assignWait : Bool
  /-- 1 bit; R397 (14_voids_resets_remap.md); reset false. A die of the unit that serves the context is in reset. -/
  holdDie : Bool
  /-- list of LIDs; R397 (14_voids_resets_remap.md); reset empty. Members whose host chip is in a partial reset. -/
  holdChips : List Nat
  /-- list of LIDs; R400 (14_voids_resets_remap.md); reset empty. Lost members. -/
  lost : List Nat
  /-- list of FIDs; R401 (14_voids_resets_remap.md); reset empty. Spares that failed a key policy of the context. -/
  badSpares : List Nat
  /-- 1 bit; R398 (14_voids_resets_remap.md); reset false. The optimizer state is split. -/
  split : Bool
  deriving DecidableEq, Repr

/-- A context out of a PACKAGE reset (R269). -/
def CtxSt.fresh (c : Nat) : CtxSt where
  ctx := c
  map := []
  seed := 0
  owner := 0
  release := none
  assignWait := false
  holdDie := false
  holdChips := []
  lost := []
  badSpares := []
  split := false

/-- An SPDM secure session (R291, R292). -/
structure SpdmSess where
  id : Nat
  /-- FINISH has completed the handshake. -/
  finished : Bool
  /-- SHA-256 of the root certificate of the mutually authenticated requester. -/
  root : Option Nat
  /-- Export master secret. -/
  secret : Nat
  /-- Local time in ns of the last heartbeat. -/
  lastNs : Nat
  /-- Key updates made. -/
  updates : Nat
  deriving DecidableEq, Repr

/-- A request for a signature waiting at the franking engine (R290): session and request code of the SPDM message. -/
structure SignReq where
  sess : Nat
  code : Nat
  /-- The content that is signed. -/
  content : List Nat
  deriving DecidableEq, Repr

/-- A key record (R299, R300). -/
structure KeyRec where
  ctx : Nat
  keyId : Nat
  head : Bool
  pair : Bool
  paired : Bool
  /-- The key register of every die involved holds the key. -/
  loaded : Bool
  key : Nat
  partner : Nat
  owner : Nat
  anchors : List Nat
  hostFw : List Nat
  agentFw : List Nat
  deriving DecidableEq, Repr

/-- The attestation of an endpoint in progress (R303, R306). -/
structure EvReq where
  ctx : Nat
  keyId : Nat
  lid : Nat
  fid : Nat
  nonce : Nat
  /-- Requests made, at most 3. -/
  attempts : Nat
  /-- Repetitions while the agent shows RESET. -/
  resets : Nat
  /-- Host-assisted: a delivery call is awaited. -/
  hostCall : Bool
  /-- A delivery of R307, which no owner asked for. -/
  auto : Bool
  deriving DecidableEq, Repr

/-- A KEYWRAP sent and not yet confirmed (R304). -/
structure WrapWait where
  ctx : Nat
  keyId : Nat
  lid : Nat
  revoke : Bool
  serial : Nat
  fid : Nat
  auto : Bool
  deriving DecidableEq, Repr

/-- A nonce of EVIDENCE_PUT bound to a LID (R306). -/
structure NonceBind where
  ctx : Nat
  keyId : Nat
  lid : Nat
  nonce : Nat
  deriving DecidableEq, Repr

/-- A key command that waits on a die in reset (R316). -/
inductive WaitCmd where
  | release (sess : Nat) (req : KeyReq)
  | vimport (sess : Nat) (req : ImportReq)
  | deliver (sess ctx keyId first count : Nat)
  deriving DecidableEq, Repr

/-- An image that VAULT_IMPORT stored in the vault (R302, R420). -/
structure VaultImage where
  ctx : Nat
  imageId : Nat
  keyId : Nat
  off : Nat
  len : Nat
  mirrored : Bool
  /-- Bytes copied to the standby and acknowledged. -/
  copied : Nat
  deriving DecidableEq, Repr

/-- The root of trust beside the FRK and LCS pages. -/
structure RotSt where
  /-- list, at most 8; R291 (11_trust_keys.md); reset empty. SPDM secure sessions. -/
  sessions : List SpdmSess
  /-- optional session ID; R297 (11_trust_keys.md); reset none. The admission session. -/
  admission : Option Nat
  /-- optional 256 and 128 bits; R288, R297 (11_trust_keys.md); reset none. CAK and CKN handed to the host port. -/
  cak : Option (Nat × Nat)
  /-- list, at most 16; R290 (11_trust_keys.md); reset empty. Signature requests, the first being signed. -/
  signQ : List SignReq
  /-- large requests in parts; R292 (11_trust_keys.md); reset empty. Handle, next chunk and bytes received by CHUNK_SEND. -/
  chunksIn : List (Nat × Nat × List Byte)
  /-- large responses; R327 (12_host_port_sessions.md); reset empty. Handle and words left for CHUNK_GET. -/
  chunksOut : List (Nat × List Nat)
  /-- list, at most 64; R299 (11_trust_keys.md); reset empty. Key records in the sealed shelf. -/
  records : List KeyRec
  /-- sparse table; R318 (11_trust_keys.md); reset all 0. FRK_EPSTAT words, key context × 2^12 + LID. -/
  delivered : Table
  /-- list; R303 (11_trust_keys.md); reset empty. Attestations in progress. -/
  evidence : List EvReq
  /-- list; R305 (11_trust_keys.md); reset empty. LIDs still to be asked: context, key ID, LID, and whether R307 asks. -/
  toDeliver : List (Nat × Nat × Nat × Bool)
  /-- list; R305 (11_trust_keys.md); reset empty. DELIVER requests not yet answered: session, context, key ID, first LID, count. -/
  delivers : List (Nat × Nat × Nat × Nat × Nat)
  /-- list; R307, R400 (11_trust_keys.md); reset empty. Deliveries of R307 that ended in this step: context, LID, delivery code. -/
  ended : List (Nat × Nat × Nat)
  /-- list; R304 (11_trust_keys.md); reset empty. KEYWRAP messages not yet confirmed. -/
  wraps : List WrapWait
  /-- list; R303 (11_trust_keys.md); reset empty. FIDs whose evidence carried TAMPER: no further request. -/
  tampered : List Nat
  /-- list; R306 (11_trust_keys.md); reset empty. Nonces bound by EVIDENCE_PUT. -/
  nonces : List NonceBind
  /-- list; R316 (11_trust_keys.md); reset empty. Key commands waiting on a die in reset, oldest first. -/
  waiting : List WaitCmd
  /-- optional; R302 (11_trust_keys.md); reset none. Import in progress: session and request. -/
  importing : Option (Nat × ImportReq)
  /-- list; R302 (11_trust_keys.md); reset empty. Images in the vault. -/
  images : List VaultImage
  /-- list of 256-bit digests; R286 (11_trust_keys.md); reset empty. Firmware digest of each die's last guardian report. -/
  guards : List (Nat × Nat)
  /-- list of two 256-bit digests; R286 (11_trust_keys.md); reset empty. Fuse and serial-number digests of each die's last guardian report. -/
  guardIds : List (Nat × Nat × Nat)
  /-- seven 256-bit digests; R294 (11_trust_keys.md); reset 0 (DESIGN CHOICE). Measurement indices 1 to 7. -/
  measured : List Nat
  /-- 256 bits; R315 (11_trust_keys.md); reset 0. STAGED. -/
  staged : Nat
  /-- 32 bits; R304 (11_trust_keys.md); reset 0. Delivery serial. -/
  serial : Nat
  /-- 256 bits; R287 (11_trust_keys.md); reset 0 (DESIGN CHOICE, fused). DEVICE_ID. -/
  deviceId : Nat
  /-- 256 bits; R288, R289 (11_trust_keys.md); reset 0 (DESIGN CHOICE). HBM root key in force. -/
  hbmRoot : Nat
  /-- 384 bits; R288 (11_trust_keys.md); reset 0 (DESIGN CHOICE). Seed of the AK in force. -/
  ak : Nat
  deriving DecidableEq, Repr

/-- A NOTIFY record (R344). -/
structure NRec where
  type : Nat
  /-- Context, 0xFF for none. -/
  ctx : Nat
  stamp : Nat
  /-- The further words. -/
  words : List Nat
  deriving DecidableEq, Repr

/-- A NOTIFY datagram sent and not acknowledged (R345). -/
structure SentNotify where
  seq : Nat
  resends : Nat
  records : List NRec
  deriving DecidableEq, Repr

/-- The result of one operation: opcode, status, address and words (R333). -/
structure OpResult where
  opcode : Nat
  status : Nat
  address : Nat
  words : List Nat
  deriving DecidableEq, Repr

/-- A REQUEST whose remote operation is in progress (R334, R336, R509). -/
structure OpenReq where
  index : Nat
  gen : Nat
  seq : Nat
  done : List OpResult
  /-- The operation in progress and the words it has read. -/
  op : BOp
  got : List Nat
  /-- Registers of the operation already reached. -/
  reached : Nat
  rest : List BOp
  /-- SEQ of its management transaction. -/
  txn : Nat
  deriving DecidableEq, Repr

/-- A Beyjo session (R328 to R332, R343 to R346). -/
structure Sess where
  index : Nat
  gen : Nat
  /-- false while the index is only held by a CHALLENGE. -/
  isOpen : Bool
  role : Nat
  ctx : Nat
  src : Nat
  notifyPort : Nat
  nh : Nat
  nd : Nat
  /-- 256-bit credential the session was opened with. -/
  cred : Nat
  /-- 512-bit session key. -/
  key : Nat
  /-- Root-certificate digest of the owner, and the SPDM session the credential came from. -/
  owner : Nat
  spdm : Nat
  lastSeq : Nat
  /-- The last 16 executed SEQ with their RESPONSE. -/
  replies : List (Nat × List OpResult)
  /-- Local time in ns of the last valid datagram. -/
  lastNs : Nat
  mask : Nat
  queue : List NRec
  dropped : Nat
  nextSeq : Nat
  unacked : List SentNotify
  deriving DecidableEq, Repr

/-- A role credential (R328). -/
structure Cred where
  role : Nat
  ctx : Nat
  value : Nat
  /-- For an OWNER: root-certificate digest and SPDM session. -/
  owner : Nat
  spdm : Nat
  deriving DecidableEq, Repr

/-- The host port and its sessions beside the HPT, BYJ and MSL pages. -/
structure BeyjoSt where
  /-- list, at most 64; R329 (12_host_port_sessions.md); reset empty. Sessions open or held. -/
  sessions : List Sess
  /-- sparse table; R331 (12_host_port_sessions.md); reset all 0. Generation of each index. -/
  gens : Table
  /-- list; R328 (12_host_port_sessions.md); reset empty. Role credentials. -/
  creds : List Cred
  /-- list; R330 (12_host_port_sessions.md); reset empty. OPEN datagrams of the present second: source address, local time in ns. -/
  opens : List (Nat × Nat)
  /-- optional; R322 (12_host_port_sessions.md); reset none. SAK installed. -/
  sak : Option Nat
  /-- optional; R327 (12_host_port_sessions.md); reset none. Source address and port that the next SPDM response goes to. -/
  spdmFrom : Option (Nat × Nat)
  /-- list; R336 (12_host_port_sessions.md); reset empty. REQUEST datagrams with a remote operation in progress. -/
  openReqs : List OpenReq
  /-- list; R342 (12_host_port_sessions.md); reset empty. Commands that go on after their slot was taken: session, slot, code. -/
  running : List (Nat × Nat × Nat)
  deriving DecidableEq, Repr

/-- Something the block or the agent sends out (links, host port, side-bands). -/
inductive Msg where
  /-- A control position on a port: its descriptor and its seven slots (R70). -/
  | control (site : Site) (port : Nat) (descriptor : Word) (slots : List Word)
  /-- The header of a codeword on a port, which its ten positions complete (R69). -/
  | codeword (site : Site) (port header : Nat)
  /-- A cell sent again over a Dovetail edge (R94). -/
  | resent (edge : Nat) (second : Bool) (group : Nat) (c : Cell)
  /-- A Delay_Req message of the IEEE 1588 slave, with its domain (R31). -/
  | delayReq (domain : Nat)
  /-- A cell transmitted on a port. -/
  | cell (site : Site) (port : Nat) (c : Cell)
  /-- The value that a read of a register or window returns. -/
  | value (site : Site) (address : Nat) (w : Word)
  /-- A cell delivered to a local block of the device. -/
  | delivered (site : Site) (c : Cell)
  /-- The transmitter of a port goes to electrical idle, or leaves it. -/
  | idle (site : Site) (port : Nat) (on : Bool)

  /-- A Beyjo datagram: TYPE, SESSION, SEQ and body (R325). -/
  | datagram (type session seq : Nat) (body : List Nat)
  /-- A RESPONSE datagram (R333). -/
  | response (session seq : Nat) (ops : List OpResult)
  /-- A NOTIFY datagram (R344). -/
  | notify (session seq : Nat) (records : List NRec)
  /-- An SPDM response: session, request code answered, words; an ERROR has code 0x7F and the error code first (R292). -/
  | spdm (sess code : Nat) (words : List Nat)
  /-- An answer of the port to Neighbor Solicitation or Echo (R320). -/
  | icmp (kind : FrameKind)
  /-- The key side-band: K_SLOT and the four K_DATA words (R487). -/
  | key (slot : Nat) (words : List Word)
  /-- The reset lines of the host chip: COMPUTE and ENGINE lines asserted (R489). -/
  | hcLines (compute : Bool) (engine : Nat)
  /-- The answer of the agent's target bus: T_ERR and T_RDATA (R467). -/
  | bus (err : Nat) (data : Word)
  deriving DecidableEq, Repr

/-- The counting state of a source that is not at its reset values (R360, R361). -/
structure Src where
  source : Nat
  level : Nat
  count : Nat
  t0 : Nat
  raised : Bool
  /-- N, unit of W (true: ms), W, NF and WF where the host changed them. -/
  thresh : Option (Nat × Bool × Nat)
  threshF : Option (Nat × Nat)
  deriving DecidableEq, Repr

/-- An event record (R356). -/
structure Event where
  stamp : Nat
  ctx : Option Nat
  remote : Bool
  merged : Bool
  conseq : Bool
  injected : Bool
  first : Bool
  level : Nat
  initial : Nat
  source : Nat
  fault : Nat
  serial : Nat
  detail : Nat
  /-- The level of the source rose with this event; not part of the record. -/
  promoted : Bool
  /-- Postmark by which the event is ordered: its STAMP, or its arrival for a remote event (R358). -/
  arrival : Nat
  deriving DecidableEq, Repr

/-- A reaction that runs or whose window is open (R366, R370, R371). -/
structure Reaction where
  /-- 2: port retrain, 3: ENGINE, 4: COMPUTE, 5: X-DIE, 6: emergency throttle. -/
  kind : Nat
  serial : Nat
  die : Nat
  /-- Port of a retrain, block of an ENGINE reset. -/
  item : Nat
  /-- The reaction has completed; its window is still open. -/
  done : Bool
  deriving DecidableEq, Repr

/-- A host decision that is pending or queued (R367). -/
structure Decision where
  serial : Nat
  source : Nat
  default : Nat
  allowed : Nat
  deriving DecidableEq, Repr

/-- The fault collector of one device beside its registers. -/
structure FltSt where
  /-- list; R360 (13_faults_jig.md); reset empty: every source at its initial values. Counting state. -/
  srcs : List Src
  /-- list; R364 (13_faults_jig.md); reset empty. Events that wait for their 256 ns. -/
  waiting : List Event
  /-- optional; R363 (13_faults_jig.md); reset none. First fault. -/
  first : Option Event
  /-- ring of 1,024 records, 256 in the agent; R365, R493 (13_faults_jig.md); reset empty. Secondary log, oldest first. -/
  log : List Event
  /-- 32 bits; R356 (13_faults_jig.md); reset 1. Serial of the next event. -/
  nextSerial : Nat
  /-- list; R367 (13_faults_jig.md); reset empty. Decisions, the first pending. -/
  decisions : List Decision
  /-- list; R371 (13_faults_jig.md); reset empty. Reactions whose window is open. -/
  reactions : List Reaction
  /-- list of events; R370 (13_faults_jig.md); reset empty. Merged events whose reaction is due when the running one ends. -/
  deferred : List Event
  /-- sparse table; R375 (13_faults_jig.md); reset all 0. Checks since the last injection, by page. -/
  jigChecks : Table
  /-- 1 bit; R368, R493 (13_faults_jig.md); reset false. A FATAL event holds the unit: it starts no further step. -/
  fatal : Bool
  /-- rings of 4,096 entries; R87, R381 (13_faults_jig.md); reset empty. Dead-letter logs of X0 and X1, the agent using the first, oldest first. -/
  dll0 : List DeadLetter
  dll1 : List DeadLetter
  deriving DecidableEq, Repr

/-- A requested reset (R394): domain 0 ENGINE, 1 COMPUTE, 2 X-DIE, 3 PACKAGE, its die, block and cause. -/
structure ResetReq where
  domain : Nat
  die : Nat
  block : Nat
  /-- SERIAL of the event that started it, 0 for a host request. -/
  cause : Nat
  deriving DecidableEq, Repr

/-- A region record of a dump with its data (R389). -/
structure Region where
  kind : Nat
  die : Nat
  block : Nat
  inst : Nat
  dataErr : Bool
  notRead : Bool
  unreachable : Bool
  snapshot : Nat
  data : List Byte
  deriving DecidableEq, Repr

/-- A dump slot that holds a dump (R389). -/
structure DumpSlot where
  slot : Nat
  start : Nat
  cause : Nat
  block : Nat
  die : Nat
  scope : Nat
  agentFid : Nat
  regions : List Region
  deriving DecidableEq, Repr

/-- The running dump (R386 to R391). -/
structure DumpRun where
  dump : DumpSlot
  /-- Regions still to be read: kind, die, block or family, instance. -/
  left : List (Nat × Nat × Nat × Nat)
  /-- No slot is free: the dump is not written. -/
  noSlot : Bool
  lock : Bool
  /-- Mail slot that waits for the result: session index and slot. -/
  mail : Option (Nat × Nat)
  deriving DecidableEq, Repr

/-- A self-snapshot (R385). -/
structure Snapshot where
  block : Nat
  die : Nat
  stamp : Nat
  data : List Byte
  deriving DecidableEq, Repr

/-- Resets, dumps and re-mappings beside the RST and DMP pages. -/
structure RstSt where
  /-- optional; R394 (14_voids_resets_remap.md); reset none. The running reset. -/
  running : Option ResetReq
  /-- list; R408 (14_voids_resets_remap.md); reset empty. Resets that wait. -/
  queue : List ResetReq
  /-- optional; R386 (14_voids_resets_remap.md); reset none. The running dump. -/
  dump : Option DumpRun
  /-- list, at most 16; R388 (14_voids_resets_remap.md); reset empty (DESIGN CHOICE). Dump slots written, oldest first. -/
  slots : List DumpSlot
  /-- list; R385 (14_voids_resets_remap.md); reset empty. Last self-snapshot of each block. -/
  snaps : List Snapshot
  /-- list; R404 (14_voids_resets_remap.md); reset empty. Re-mappings in progress. -/
  remaps : List Remap
  /-- list of dies; R384 (14_voids_resets_remap.md); reset empty. Dies left in reset by a failed check. -/
  stuck : List Nat
  /-- list of FIDs; R392 (14_voids_resets_remap.md); reset empty. Agents whose dump the unit is to take. -/
  agentDumps : List Nat
  /-- list; R407 (14_voids_resets_remap.md); reset empty. Planned re-mappings that wait for their job's next step boundary: context, LID,
  the FID the host names (none for AUTO), mail slot. -/
  planned : List (Nat × Nat × Option Nat × Nat × Nat)
  deriving DecidableEq, Repr

/-- A lease record of a referee (R423 to R427, R437). -/
structure LeaseRec where
  domain : Nat
  holder : Nat
  serial : Nat
  expiry : Nat
  /-- Released for this final generation. -/
  released : Option Nat
  /-- In the starting window. -/
  starting : Bool
  /-- Beat of the last grant of a TAKEOVER (R425). -/
  givenAt : Option Nat
  deriving DecidableEq, Repr

/-- A section of a generation (R415). -/
structure Section where
  kind : Nat
  ctx : Nat
  id : Nat
  off : Nat
  data : List Byte
  deriving DecidableEq, Repr

/-- A generation being written (R417). -/
structure GenRun where
  gen : Nat
  full : Bool
  /-- 1: sections, 2: directory, 3: commit record. -/
  phase : Nat
  sections : List Section
  covered : Nat
  /-- Batch in flight: number, cells, acknowledged, beat of its LAST cell. -/
  batch : Nat
  cells : List (Nat × List Byte)
  acked : Nat
  lastBeat : Nat
  startBeat : Nat
  deriving DecidableEq, Repr

/-- A batch of vault chunks on its way to the standby (R420). -/
structure MirrorBatch where
  ctx : Nat
  imageId : Nat
  batch : Nat
  cells : Nat
  bytes : Nat
  lastBeat : Nat
  deriving DecidableEq, Repr

/-- A planned handover at the active unit (R436, R437). -/
structure Handover where
  session : Nat
  slot : Nat
  /-- 1: standby warms, 2: pausing, 3: final generation, 4: RELEASE sent. -/
  phase : Nat
  finalGen : Nat
  deriving DecidableEq, Repr

/-- The pair beside the PAR page. -/
structure PairSt where
  /-- bytes; R413 (15_controller_pairs.md); reset all 0 (DESIGN CHOICE). The unit's own store by store offset. -/
  store : Mem
  /-- buffer of 16 MiB; R416 (15_controller_pairs.md); reset empty. Cells received and not yet moved: destination, offset, bytes. -/
  recv : List (Nat × Nat × List Byte)
  /-- list; R416 (15_controller_pairs.md); reset empty. Open batches at the standby: batch number and cells received. -/
  rxBatches : List (Nat × Nat)
  /-- 64 bits; R417 (15_controller_pairs.md); reset 0. Generation committed at the standby. -/
  rxGen : Nat
  /-- optional; R417 (15_controller_pairs.md); reset none. Generation being written by the active unit. -/
  writing : Option GenRun
  /-- 1 bit; R418 (15_controller_pairs.md); reset false. A generation is due. -/
  genDue : Bool
  /-- 1 bit; R417, R440 (15_controller_pairs.md); reset false. The next generation is full. -/
  fullDue : Bool
  /-- list; R417 (15_controller_pairs.md); reset empty. Sections of the last committed generation. -/
  committed : List Section
  /-- 64 bits; R417 (15_controller_pairs.md); reset 0. Number of the last generation begun. -/
  lastGen : Nat
  /-- list; R417 (15_controller_pairs.md); reset empty. Sections of generations begun since the last committed one, whose record may have landed. -/
  doubtful : List Section
  /-- 16 bits; R416 (15_controller_pairs.md); reset 0. Next batch number. -/
  nextBatch : Nat
  /-- list; R418 (15_controller_pairs.md); reset empty. Host-written extents: context, offset in 48-byte units, length in bytes. -/
  extents : List (Nat × Nat × Nat)
  /-- optional beat; R423 (15_controller_pairs.md); reset none. Beat of the oldest RENEW without an answer. -/
  renewSince : Option Nat
  /-- natural number; R425 (15_controller_pairs.md); reset 0. Beats since the last beat word with ACTIVE = 1 on a LEDGER link. -/
  noActive : Nat
  /-- 1 bit; R427 (15_controller_pairs.md); reset false. The lease moves once the next generation is committed. -/
  moveDue : Bool
  /-- 32 bits; R422 (15_controller_pairs.md); reset 0. Lease serial known to the unit. -/
  leaseSerial : Nat
  /-- optional beat; R425 (15_controller_pairs.md); reset none. Beat of the next TAKEOVER request. -/
  retryAt : Option Nat
  /-- optional; R420 (15_controller_pairs.md); reset none. Vault batch not yet acknowledged. -/
  mirror : Option MirrorBatch
  /-- list; R421, R426 (15_controller_pairs.md); reset empty. Lease records of the domains the unit referees. -/
  leases : List LeaseRec
  /-- optional local time in ns; R433 (15_controller_pairs.md); reset none. Time of the TAKEOVER_GRANT of the running takeover. -/
  takeoverNs : Option Nat
  /-- 2 bits; R433 (15_controller_pairs.md); reset false. Steps 2 and 4 of the takeover are done. -/
  cdiesReady : Bool
  reconciled : Bool
  /-- list of contexts; R432 (15_controller_pairs.md); reset empty. Kept timetables to be armed again. -/
  kept : List Nat
  /-- optional; R436 (15_controller_pairs.md); reset none. The handover in progress. -/
  handover : Option Handover
  /-- 1 bit; R437 (15_controller_pairs.md); reset false. The standby is warm. -/
  warm : Bool
  /-- optional; R435 (15_controller_pairs.md); reset none. PART, dies and tile clock of the partner. -/
  partner : Option (Nat × Nat × Nat)
  deriving DecidableEq, Repr

/-- A Flifimond container (R445); `okSig` says whether its signature verifies. -/
structure Container where
  magic : Nat
  version : Nat
  kind : Nat
  flags : Nat
  svn : Nat
  ver : Nat
  len : Nat
  parts : Nat
  digest : List Byte
  deviceId : Nat
  okSig : Bool
  payload : List Byte
  /-- All bytes of the container, as FWCHUNK cells carry them. -/
  raw : List Byte
  deriving DecidableEq, Repr

/-- A slot of the boot flash that holds a container (R444): kind, slot (0: A, 1: B). -/
structure FlashSlot where
  kind : Nat
  slot : Nat
  image : Container
  deriving DecidableEq, Repr

/-- The time record of the flash (R444). -/
structure TimeRec where
  src : Nat
  epoch : Nat
  period : Nat
  refDelay : Nat
  xdom : Nat
  ptpCfg : Nat
  deriving DecidableEq, Repr

/-- A domain record of the Rod (R456). -/
structure RodDomain where
  number : Nat
  referee : Nat
  alternate : Nat
  devA : Nat
  devB : Nat
  deriving DecidableEq, Repr

/-- A chip record of the Rod (R456); a link reference is domain × 2^12 + index, none for all ones. -/
structure RodChip where
  fid : Nat
  cls : Nat
  ports : Nat
  spare : Bool
  side : Nat
  parent : Option Nat
  alt : Option Nat
  deriving DecidableEq, Repr

/-- A link record of the Rod (R456). -/
structure RodLink where
  fidA : Nat
  portA : Nat
  portB : Nat
  fidB : Nat
  minWidth : Nat
  offRack : Bool
  roleA : Nat
  roleB : Nat
  index : Nat
  deriving DecidableEq, Repr

/-- A Rod (R456). -/
structure Rod where
  serial : Nat
  /-- Sizes of x, y and z minus 1. -/
  sizes : Nat × Nat × Nat
  root : Nat
  domains : List RodDomain
  chips : List RodChip
  links : List RodLink
  deriving DecidableEq, Repr

/-- A mismatch of the Rod comparison (R458, R463). -/
structure Mismatch where
  kind : Nat
  fid : Nat
  port : Nat
  seenFid : Nat
  seenPort : Nat
  width : Nat
  minWidth : Nat
  deriving DecidableEq, Repr

/-- A distribution of agent firmware (R455). -/
structure Distrib where
  serial : Nat
  container : List Byte
  /-- BEGIN cells still to be sent, and the next DATA chunk. -/
  begins : Nat
  next : Nat
  rounds : Nat
  /-- FIDs of the targets with their state (0: receiving, 1: VERIFIED, 2: FAILED, 3: activated, 4: ACTIVATE sent). -/
  targets : List (Nat × Nat)
  deriving DecidableEq, Repr

/-- Boot, flash, firmware and Rod beside the GEN page. -/
structure BootSt where
  /-- 1 bit; R441 (16_bringup_fuses.md); reset false. PORST_N is low. -/
  porst : Bool
  /-- list; R444 (16_bringup_fuses.md); reset empty (DESIGN CHOICE). Flash slots that hold a container. -/
  flash : List FlashSlot
  /-- 8 bits, bit k for kind k; R448 (16_bringup_fuses.md); reset 0 (DESIGN CHOICE): every kind runs from slot A. RUN slots. -/
  run : Nat
  /-- list of kinds; R448 (16_bringup_fuses.md); reset empty. Kinds with a staged image. -/
  tryKinds : List Nat
  /-- list of kinds; R448 (16_bringup_fuses.md); reset empty. Kinds whose TRY slot the boot under way uses. -/
  trying : List Nat
  /-- 32 bits; R448 (16_bringup_fuses.md); reset 0 (DESIGN CHOICE). Sequence number of the slot pointer. -/
  pointerSeq : Nat
  /-- optional; R444 (16_bringup_fuses.md); reset none. Time record. -/
  timeRec : Option TimeRec
  /-- bytes; R449 (16_bringup_fuses.md); reset all 0 (DESIGN CHOICE). Load buffer of 8 MiB. -/
  load : Mem
  /-- optional; R458 (16_bringup_fuses.md); reset none. The Rod in force. -/
  rod : Option Rod
  /-- bytes; R415, R456 (16_bringup_fuses.md); reset empty. Bytes of the Rod in force. -/
  rodBytes : List Byte
  /-- list; R458 (16_bringup_fuses.md); reset empty. Mismatches. -/
  mismatches : List Mismatch
  /-- list; R458 (16_bringup_fuses.md); reset empty. Neighbour reports of the last comparison. -/
  reports : List NeighReport
  /-- optional; R455 (16_bringup_fuses.md); reset none. Distribution of agent firmware. -/
  distrib : Option Distrib
  /-- 16 bits; R454 (16_bringup_fuses.md); reset 0. Serial of the last distribution. -/
  distSerial : Nat
  /-- 1 bit; R462 (16_bringup_fuses.md); reset false. A ROD_LOAD or FW_STAGE uses the load buffer. -/
  loadBusy : Bool
  /-- 1 bit; R444 (16_bringup_fuses.md); reset false. The timekeeper waits to restart from the time record. -/
  timeWait : Bool
  deriving DecidableEq, Repr

/-- A host-firmware measurement (R485). -/
structure Meas where
  isOpen : Bool
  done : Bool
  words : List Word
  deriving DecidableEq, Repr

/-- An evidence request at the agent (R486). -/
structure EvPending where
  requester : Nat
  nonce : Nat
  /-- GO was set with HOLD = 1. -/
  hold : Bool
  /-- Number of the fresh key pair. -/
  keyPair : Nat
  /-- The message is signed. -/
  formed : Bool
  deriving DecidableEq, Repr

/-- A key transfer on the side-band (R487). -/
structure KeyXfer where
  slot : Nat
  key : Nat
  deriving DecidableEq, Repr

/-- A host-chip reset in progress (R489). -/
structure HcReset where
  domain : Nat
  block : Nat
  /-- The lines are released and HC_RST_DONE is awaited. -/
  released : Bool
  deriving DecidableEq, Repr

/-- Received firmware of the agent (R454, R455). -/
structure AgFw where
  dist : Nat
  len : Nat
  digest : List Byte
  /-- Chunk indices received with their 40 bytes. -/
  chunks : List (Nat × List Byte)
  /-- 0: receiving, 1: VERIFIED, 2: FAILED. -/
  state : Nat
  container : Option Container
  activateAt : Option Nat
  deriving DecidableEq, Repr

/-- A counter of the agent that an EXPECT entry bound (R136, R479). -/
structure AgCounter where
  cidx : Nat
  handle : Nat
  segment : Nat
  expect : Nat
  count : Nat
  step : Nat
  deadline : Nat
  /-- Length of the bound buffer in bytes. -/
  len : Nat
  deriving DecidableEq, Repr

/-- A sending entry of the agent under way: list index, cells sent (R135, R479). -/
structure AgSend where
  entry : Nat
  sent : Nat
  deriving DecidableEq, Repr

/-- The agent block beside its beat, its routes, its ports and its registers. -/
structure AgSt where
  /-- 1 bit; R466 (17_icnaiz_agent.md); reset false. IA_PORST_N is low. -/
  porst : Bool
  /-- 256 bits; R472 (17_icnaiz_agent.md); reset 0 (DESIGN CHOICE, fused). DEVICE_ID of the agent. -/
  deviceId : Nat
  /-- bytes; R464, R483 (17_icnaiz_agent.md); reset all 0 (DESIGN CHOICE). Cutting-list store. -/
  list : Mem
  /-- bytes; R464, R480 (17_icnaiz_agent.md); reset all 0 (DESIGN CHOICE). Step table. -/
  steps : Mem
  /-- sparse table of 64-bit words; R483 (17_icnaiz_agent.md); reset all 0. TTB_HBASE by handle. -/
  hbase : Table
  /-- sparse table of 64-bit words; R483 (17_icnaiz_agent.md); reset all 0. TTB_HLEN by handle. -/
  hlen : Table
  /-- sparse table of 64-bit words; R483 (17_icnaiz_agent.md); reset all 0. TTB_XDST by XID. -/
  xdst : Table
  /-- list; R464 (17_icnaiz_agent.md); reset empty. Bound completion counters. -/
  counters : List AgCounter
  /-- list; R135 (05_timetables.md); reset empty. Sending entries under way. -/
  sends : List AgSend
  /-- list; R132 (05_timetables.md); reset empty. Begun steps not committed, oldest first. -/
  uncommitted : List OpenStep
  /-- optional; R150 (05_timetables.md); reset none. The void in progress. -/
  void : Option VoidSt
  /-- list of steps; R428 (15_controller_pairs.md); reset empty. Steps found short for which no VOID has come. -/
  short : List Nat
  /-- 1 bit; R428, R481 (17_icnaiz_agent.md); reset false. Scheduled injection stops at the next step boundary. -/
  stopInject : Bool
  /-- 1 bit; R144, R480 (17_icnaiz_agent.md); reset false. The ARM that waits is a first arming: step 0 begins at A. -/
  fresh : Bool
  /-- 1 bit; R115, R118 (17_icnaiz_agent.md); reset false. Paused at a step boundary by a drain-and-flip. -/
  flipPaused : Bool
  /-- 1 bit; R481 (17_icnaiz_agent.md); reset false. DISARM asked for. -/
  disarmReq : Bool
  /-- 128 bits; R483 (17_icnaiz_agent.md); reset 0. TTB_SEED. -/
  seed : Nat
  /-- 128 bits; R484 (17_icnaiz_agent.md); reset 0. Seed latched at ARM. -/
  seedArmed : Nat
  /-- list of 64 words; R482 (17_icnaiz_agent.md); reset empty. Event queue. -/
  events : List Nat
  /-- sparse table; R490 (17_icnaiz_agent.md); reset all 0. Cells placed by restore chunk. -/
  chunks : Table
  /-- structure; R485 (17_icnaiz_agent.md); reset closed and empty. Measurement. -/
  meas : Meas
  /-- 64 KiB; R486 (17_icnaiz_agent.md); reset all 0 (DESIGN CHOICE). Certificate store. -/
  certs : Mem
  /-- 20 KiB; R486 (17_icnaiz_agent.md); reset all 0 (DESIGN CHOICE). Evidence buffer. -/
  evBuf : Mem
  /-- optional; R486 (17_icnaiz_agent.md); reset none. Pending evidence and its decapsulation key. -/
  evidence : Option EvPending
  /-- natural number; R486 (17_icnaiz_agent.md); reset 0. Number of the last fresh key pair. -/
  keyPairs : Nat
  /-- optional; R487 (17_icnaiz_agent.md); reset none. Side-band transfer that waits for its answer. -/
  xfer : Option KeyXfer
  /-- list; R489 (17_icnaiz_agent.md); reset empty. Host-chip resets in progress. -/
  resets : List HcReset
  /-- lists; R474 (17_icnaiz_agent.md); reset empty. Last 16 SEQ executed with the MRSP payload, by source FID. -/
  replay : List (Nat × List (Nat × List Word))
  /-- optional; R455 (17_icnaiz_agent.md); reset none. Firmware being received. -/
  fw : Option AgFw
  /-- optional; R475 (17_icnaiz_agent.md); reset none. Running image. -/
  image : Option Container
  /-- bytes; R471 (17_icnaiz_agent.md); reset all 0 (DESIGN CHOICE). GEN_LOAD buffer. -/
  load : Mem
  /-- list; R491 (17_icnaiz_agent.md); reset empty. Lease record of the referee (IA-S). -/
  leases : List LeaseRec
  /-- bytes; R468 (17_icnaiz_agent.md); reset all 0 (DESIGN CHOICE). Host-chip memory behind the buffer port. -/
  hostMem : Mem
  /-- natural number, MHz; R468 (17_icnaiz_agent.md); reset 2,000 (DESIGN CHOICE). B_CLK as measured at the last release of IA_PORST_N. -/
  bclkMhz : Nat
  /-- optional 16 bits; R483 (17_icnaiz_agent.md); reset none, which shows the maximum. TTB_SINK as written. -/
  sink : Option Nat
  /-- list of five words; R484 (17_icnaiz_agent.md); reset empty. The codec unit's job that runs: SRC, DST, CFG, N, BEAT. -/
  job : List Nat
  deriving DecidableEq, Repr

/-- Supplies and temperatures beside the PWR pages. -/
structure PwrSt where
  /-- list of board rails; R520 (19_package_power.md); reset empty. Rails armed for the SUPPLY detector. -/
  armed : List Nat
  /-- optional local time in ns; R528 (19_package_power.md); reset none. Start of the running throttle. -/
  throttleNs : Option Nat
  /-- sparse table; R526 (19_package_power.md); reset all 0. Last sample of each sensor plus 1,000 °C, key die × 16 + sensor. -/
  samples : Table
  /-- sparse table; R526 (19_package_power.md); reset all 0. Last temperature of each stack plus 1,000 °C, key M-die × 8 + stack. -/
  stackTemps : Table
  deriving DecidableEq, Repr

/-- The whole state: one DZ8 unit, one Icnaiz agent block, what they send, and the commands that wait. -/
structure State where
  /-- 64-bit registers by field; R7, R496 (18_page_directory.md); reset the values of the register tables (RegMap). Registers of the DZ8: a field that is not listed holds its reset value. -/
  regs : Table
  /-- 64-bit registers by field; R469, R471 (17_icnaiz_agent.md); reset the values of the register tables (RegMap, namespace Ia). Registers of the agent. -/
  aregs : Table
  /-- structure; R35 to R59 (02_fabric_time.md); reset TimeSt.reset. Timekeeper of the DZ8. -/
  time : TimeSt
  /-- structure; R40 to R52 (02_fabric_time.md); reset AgTimeSt.reset. Beat of the agent. -/
  agTime : AgTimeSt
  /-- list of 96; R67 to R92 (03_cells_links_credits.md); reset PortSt.fresh of each port. Fabric ports of the DZ8. -/
  ports : List PortSt
  /-- list of 64; R464, R471 (17_icnaiz_agent.md); reset PortSt.fresh of each port. Fabric ports of the agent; the build has GEN_BUILD's number of them. -/
  agPorts : List PortSt
  /-- list; R94 (03_cells_links_credits.md); reset empty. Dovetail replays in progress. -/
  replays : List Replay
  /-- structure; R97 to R128 (04_routes_generations.md); reset RouteSt.reset. Routes, flips and management transactions. -/
  route : RouteSt
  /-- structure; R97 to R121, R478 (17_icnaiz_agent.md); reset AgRouteSt.reset. Routes and flips of the agent. -/
  agRoute : AgRouteSt
  /-- list of 16; R129 to R155 (05_timetables.md); reset TtbSt.fresh of each context. Timetable executors. -/
  ttbs : List TtbSt
  /-- list; R138, R468 (05_timetables.md); reset empty. What the agents report of themselves to the checker. -/
  agents : List AgentInfo
  /-- list; R160, R183 (06_collective_engine.md); reset empty. Instances of exchanges. -/
  insts : List Instance
  /-- structure; R210 to R238 (08_tiles_pigeonholes.md); reset TileSt.reset. Tiles, Pigeonholes, sync windows. -/
  tile : TileSt
  /-- structure; R239 to R263 (09_hbm_vault_update.md); reset HbmSt.reset. HBM, vault, fused update. -/
  hbm : HbmSt
  /-- list of 16; R264 to R283 (10_slices_contexts.md); reset CtxSt.fresh of each context. Contexts. -/
  ctxs : List CtxSt
  /-- structure; R284 to R319 (11_trust_keys.md); reset RotSt.reset. Root of trust. -/
  rot : RotSt
  /-- structure; R320 to R354 (12_host_port_sessions.md); reset BeyjoSt.reset. Host port and Beyjo sessions. -/
  beyjo : BeyjoSt
  /-- structure; R355 to R382 (13_faults_jig.md); reset FltSt.reset. Fault collector of the DZ8. -/
  flt : FltSt
  /-- structure; R493 (17_icnaiz_agent.md); reset FltSt.reset. Fault collector of the agent. -/
  agFlt : FltSt
  /-- structure; R383 to R410 (14_voids_resets_remap.md); reset RstSt.reset. Resets, dumps, re-mappings. -/
  rst : RstSt
  /-- structure; R411 to R440 (15_controller_pairs.md); reset PairSt.reset. The pair and the poste restante. -/
  pair : PairSt
  /-- structure; R441 to R463 (16_bringup_fuses.md); reset BootSt.reset. Boot, flash, firmware, Rod. -/
  boot : BootSt
  /-- structure; R518 to R529 (19_package_power.md); reset PwrSt.reset. Supplies and temperatures. -/
  pwr : PwrSt
  /-- structure; R464 to R495 (17_icnaiz_agent.md); reset AgSt.reset. The agent block. -/
  ag : AgSt
  /-- list; R60, R325 (03_cells_links_credits.md); reset empty. Everything sent, oldest first. -/
  out : List Msg
  /-- natural number; the model's own field, log entry 5; reset 0 (DESIGN CHOICE). Count of free values taken. -/
  freeCtr : Nat
  /-- list of commands; the model's own field; reset empty. Commands that wait, first in, first out. -/
  pending : List Instr
  deriving DecidableEq, Repr

/-- Faults. The spec gives every row of the table an effect, so no meaning raises one. -/
inductive Fault where
  /-- Not raised by any meaning; safe. -/
  | none
  deriving DecidableEq, Repr

/-- Refusals. -/
inductive Refusal where
  /-- A command whose meaning is not written, by its mnemonic; raised only by an arm of exec; safe. -/
  | notModelled (mnemonic : String)
  deriving DecidableEq, Repr

/-- The timekeeper at reset (R56 to R58). -/
def TimeSt.reset : TimeSt where
  beat := 0
  phase := 0
  counting := false
  nowNs := 0
  ppsGood := 0
  todMissed := 0
  syncGood := 0
  qualified := false
  lockErrPs := 0
  holdStartNs := none
  slewLeft := 0
  stepWait := false
  announced := false
  masters := []

/-- The agent's beat at reset (R476). -/
def AgTimeSt.reset : AgTimeSt where
  beat := 0
  phase := 0
  phasePs := 0
  nowNs := 0
  cands := []
  source := none
  pchg := none
  missRun := 0
  injectStop := false
  orphanAt := 0

/-- Routes at reset (R128). -/
def RouteSt.reset : RouteSt where
  active := []
  shadow := []
  capMap := []
  onAlternate := []
  record := none
  recordConfirmed := false
  recordBatch := 0
  recordBeat := 0
  flipSerial := 0
  applied := []
  pendStart := none
  leftOut := []
  commit := none
  nextEpochs := []
  lastPause := none
  lastRound := []
  lastCommit := none
  border := []
  stopped := []
  forCtxs := []
  heldMreq := []
  txns := []
  waiting := []
  nextSeq := 0

/-- The agent's routes at reset (R478). -/
def AgRouteSt.reset : AgRouteSt where
  active := []
  shadow := []
  map := []
  mapShadow := []
  commit := none
  applied := []
  lastAbort := none
  resumeAt := none

/-- The executor of a context with no timetable (R154). -/
def TtbSt.fresh (c : Nat) : TtbSt where
  ctx := c
  image := none
  uncommitted := []
  miss := none
  void := none
  others := []
  attempts := []
  updateAt := 0
  lastRb := (none, none)
  stopReq := false
  disarmReq := false
  flipPaused := false
  held := false
  rearm := false
  notArmed := []
  tenant := false
  hostCheck := false
  cmap := []
  cmapHot := []
  seed := 0

/-- Tiles and Pigeonholes at reset (R212, R222, R228). -/
def TileSt.reset : TileSt where
  chains := []
  scrubs := []
  lastCtx := []
  oldPhys := []
  tileSram := []
  staging := []
  pgh := []
  sync := []
  collided := []
  shelfCut := []
  syncBad := []
  syncResult := []

/-- HBM at reset (R242 to R255). -/
def HbmSt.reset : HbmSt where
  mem := []
  sealKey := []
  fills := []
  counters := []
  roots := List.range 16
  tileMap := []
  selector := []
  selStep := []
  pending := []
  mapBad := []
  latched := []
  slots := []
  spilled := []

/-- The root of trust at reset (R318, R319). -/
def RotSt.reset : RotSt where
  sessions := []
  admission := none
  cak := none
  signQ := []
  chunksIn := []
  chunksOut := []
  records := []
  delivered := []
  evidence := []
  toDeliver := []
  delivers := []
  ended := []
  wraps := []
  tampered := []
  nonces := []
  waiting := []
  importing := none
  images := []
  guards := []
  guardIds := []
  measured := [0, 0, 0, 0, 0, 0, 0]
  staged := 0
  serial := 0
  deviceId := 0
  hbmRoot := 0
  ak := 0

/-- The host port at reset (R350, R351). -/
def BeyjoSt.reset : BeyjoSt where
  sessions := []
  gens := []
  creds := []
  opens := []
  sak := none
  spdmFrom := none
  openReqs := []
  running := []

/-- A fault collector at reset (R359, R380). -/
def FltSt.reset : FltSt where
  srcs := []
  waiting := []
  first := none
  log := []
  nextSerial := 1
  decisions := []
  reactions := []
  deferred := []
  jigChecks := []
  fatal := false
  dll0 := []
  dll1 := []

/-- The reset controller at reset (R409, R410). -/
def RstSt.reset : RstSt where
  running := none
  queue := []
  dump := none
  slots := []
  snaps := []
  remaps := []
  stuck := []
  agentDumps := []
  planned := []

/-- The pair at reset (R440). -/
def PairSt.reset : PairSt where
  store := []
  recv := []
  rxBatches := []
  mirror := none
  rxGen := 0
  writing := none
  genDue := false
  fullDue := false
  committed := []
  lastGen := 0
  doubtful := []
  nextBatch := 0
  extents := []
  renewSince := none
  noActive := 0
  moveDue := false
  leaseSerial := 0
  retryAt := none
  leases := []
  takeoverNs := none
  cdiesReady := false
  reconciled := false
  kept := []
  handover := none
  warm := false
  partner := none

/-- Boot and Rod at reset (R463). -/
def BootSt.reset : BootSt where
  porst := false
  flash := []
  run := 0
  tryKinds := []
  trying := []
  pointerSeq := 0
  timeRec := none
  load := []
  rod := none
  rodBytes := []
  mismatches := []
  reports := []
  distrib := none
  distSerial := 0
  loadBusy := false
  timeWait := false

/-- Supplies at reset (R528). -/
def PwrSt.reset : PwrSt where
  armed := []
  throttleNs := none
  samples := []
  stackTemps := []

/-- The agent block at reset (R464 to R491). -/
def AgSt.reset : AgSt where
  porst := false
  deviceId := 0
  list := []
  steps := []
  hbase := []
  hlen := []
  xdst := []
  counters := []
  sends := []
  uncommitted := []
  void := none
  short := []
  stopInject := false
  fresh := false
  flipPaused := false
  disarmReq := false
  seed := 0
  seedArmed := 0
  events := []
  chunks := []
  meas := ⟨false, false, []⟩
  certs := []
  evBuf := []
  evidence := none
  keyPairs := 0
  xfer := none
  resets := []
  replay := []
  fw := none
  image := none
  load := []
  leases := []
  hostMem := []
  bclkMhz := 2000
  sink := none
  job := []

/-- The machine right after reset: every register at its reset value, every sequencer idle, nothing sent, no command
waiting (R8, R56 to R58, R269, R393). -/
def State.reset : State where
  regs := []
  aregs := []
  time := TimeSt.reset
  agTime := AgTimeSt.reset
  ports := (List.range 96).map PortSt.fresh
  agPorts := (List.range 64).map PortSt.fresh
  replays := []
  route := RouteSt.reset
  agRoute := AgRouteSt.reset
  ttbs := (List.range 16).map TtbSt.fresh
  agents := []
  insts := []
  tile := TileSt.reset
  hbm := HbmSt.reset
  ctxs := (List.range 16).map CtxSt.fresh
  rot := RotSt.reset
  beyjo := BeyjoSt.reset
  flt := FltSt.reset
  agFlt := FltSt.reset
  rst := RstSt.reset
  pair := PairSt.reset
  boot := BootSt.reset
  pwr := PwrSt.reset
  ag := AgSt.reset
  out := []
  freeCtr := 0
  pending := []

end Sys2Proof.Machine
end

