-- ==== Sys2Proof/Machine/Ops.lean ====
section
/-! DEFINITION. Named operations over the state: registers, pages, time, lists of like things, and the outbox. -/

namespace Sys2Proof.Machine

/-- What a command's meaning answers. -/
abbrev Out := Host.Outcome State Fault Refusal

/-- The state that a meaning answers with. -/
def Out.after (o : Out) (s : State) : State :=
  match o with
  | .next t => t
  | _ => s

/-! ### Registers -/

/-- Reads a register field of the DZ8; one never written holds its reset value (R8). -/
def State.rd (s : State) (f : Fld) : Nat := kget s.regs f.key f.rst

/-- Writes a register field of the DZ8, keeping its low bits. -/
def State.wr (s : State) (f : Fld) (v : Nat) : State :=
  { s with regs := kset s.regs f.key (v % 2 ^ f.w) f.rst }

/-- Reads a register field of the agent. -/
def State.ard (s : State) (f : Fld) : Nat := kget s.aregs f.key f.rst

/-- Writes a register field of the agent. -/
def State.awr (s : State) (f : Fld) (v : Nat) : State :=
  { s with aregs := kset s.aregs f.key (v % 2 ^ f.w) f.rst }

/-- Reads a register field of the named device. -/
def State.rdS (s : State) (d : Site) (f : Fld) : Nat :=
  match d with
  | .dz8 => s.rd f
  | .agent => s.ard f

/-- Writes a register field of the named device. -/
def State.wrS (s : State) (d : Site) (f : Fld) (v : Nat) : State :=
  match d with
  | .dz8 => s.wr f v
  | .agent => s.awr f v

/-- A one-bit field of the DZ8 is 1. -/
def State.on (s : State) (f : Fld) : Bool := s.rd f == 1

/-- A one-bit field of the agent is 1. -/
def State.aon (s : State) (f : Fld) : Bool := s.ard f == 1

/-- Adds to a counter field of the DZ8, modulo its width (log entry 10). -/
def State.bump (s : State) (f : Fld) (n : Nat) : State := s.wr f (s.rd f + n)

/-- Adds to a counter field of the agent, modulo its width. -/
def State.abump (s : State) (f : Fld) (n : Nat) : State := s.awr f (s.ard f + n)

/-- Adds to a counter field of the named device, modulo its width. -/
def State.bumpS (s : State) (d : Site) (f : Fld) (n : Nat) : State := s.wrS d f (s.rdS d f + n)

/-- Raises a field to a value that is greater. -/
def State.atLeast (s : State) (f : Fld) (v : Nat) : State := if s.rd f < v then s.wr f v else s

/-- A field of `w` bits read as a two's-complement number. -/
def signed (w x : Nat) : Int := if x < 2 ^ (w - 1) then x else (x : Int) - 2 ^ w

/-- The low `w` bits of a signed number. -/
def unsigned (w : Nat) (x : Int) : Nat := (x % 2 ^ w).toNat

/-! ### Pages (R498, R499) -/

def prtPg (p : Nat) : Nat := 0x00300000 + 0x1000 * p + (if p < 48 then 0 else 0x10000000)
def prtPgS (d : Site) (p : Nat) : Nat :=
  match d with
  | .dz8 => prtPg p
  | .agent => 0x00300000 + 0x1000 * p
def dvtPg (die e : Nat) : Nat := die * 2 ^ 28 + 0x00400000 + 0x1000 * e
def ttbPg (c : Nat) : Nat := 0x00600000 + 0x1000 * c
def clxPg (c : Nat) : Nat := 0x20700000 + 0x1000 * c
/-- Pages of C-die `d`, 0 for C0 and 1 for C1. -/
def cdcPg (d : Nat) : Nat := 0x20800000 + 2 ^ 28 * d
def ttlPg (d g : Nat) : Nat := 0x20900000 + 2 ^ 28 * d + 0x1000 * g
def ttlDiePg (d : Nat) : Nat := 0x20910000 + 2 ^ 28 * d
def pghPg (d : Nat) : Nat := 0x20A00000 + 2 ^ 28 * d
def pghWinPg (c : Nat) : Nat := 0x20A10000 + 0x1000 * c
def hbcPg (m st : Nat) : Nat := 0x40B00000 + 2 ^ 28 * m + 0x1000 * st
def nmuPg (m : Nat) : Nat := 0x40B10000 + 2 ^ 28 * m
def vltPg (c : Nat) : Nat := 0xF0C10000 + 0x1000 * c
def ctxPg (c : Nat) : Nat := 0xF0D00000 + 0x1000 * c
def mslPg (i : Nat) : Nat := 0x21210000 + 0x1000 * i
def dllPg (die : Nat) : Nat := 0x01301000 + 2 ^ 28 * die
def pwrDiePg (die : Nat) : Nat := 0x01801000 + 2 ^ 28 * die
/-- Base addresses of the single pages whose headers are used. -/
def tmkPg : Nat := 0x00200000
def rtePg : Nat := 0x00500000
def vltSysPg : Nat := 0xF0C00000
def frkPg : Nat := 0x00E00000
def lcsPg : Nat := 0xF0F00000
def hptPg : Nat := 0x01000000
def rstPg : Nat := 0xF1600000
def dmpPg : Nat := 0xF1500000
def parPg : Nat := 0xF1700000
def pwrPg : Nat := 0xF1800000
def fltPg : Nat := 0x01300000
def clxEngPg : Nat := 0x20710000
/-- Pages of the agent (R469): the family code alone. -/
def agPg (fam : Nat) : Nat := fam * 2 ^ 20

/-- The link-delay field of a port (R58, R476): VALID and DELAY_PS. -/
def linkDlyValid (d : Site) (p : Nat) : Fld :=
  match d with
  | .dz8 => if p < 48 then TMK_LINKDLY_VALID p else ⟨0x10200400 + 8 * (p - 48), 31, 1, 0⟩
  | .agent => ⟨0x00200400 + 8 * p, 31, 1, 0⟩
def linkDlyPs (d : Site) (p : Nat) : Fld :=
  match d with
  | .dz8 => if p < 48 then TMK_LINKDLY_DELAY_PS p else ⟨0x10200400 + 8 * (p - 48), 0, 24, 0⟩
  | .agent => ⟨0x00200400 + 8 * p, 0, 24, 0⟩

/-! ### Time -/

/-- The beat period P in ns (R36). -/
def State.period (s : State) : Nat := s.rd TMK_PERIOD_PERIOD_NS

/-- A time in ms as beats, rounded up (R423). -/
def State.msUp (s : State) (ms : Nat) : Nat := ceilDiv (ms * 1000000) s.period

/-- RTE_LIMIT: 2 ms in beats, rounded up, and 1.5 ms, rounded down (R128). -/
def State.safeBeats (s : State) : Nat := ceilDiv 2000000 s.period
def State.flipLimit (s : State) : Nat := 1500000 / s.period

/-- A time in ms as beats, rounded down. -/
def State.msDown (s : State) (ms : Nat) : Nat := ms * 1000000 / s.period

/-- The current Postmark of the DZ8 (R35). -/
def State.postmark (s : State) : Nat := s.time.beat * 256 + s.time.phase

/-- The current beat of the named device. -/
def State.beatS (s : State) (d : Site) : Nat :=
  match d with
  | .dz8 => s.time.beat
  | .agent => s.agTime.beat

/-- The current Postmark of the named device. -/
def State.stampS (s : State) (d : Site) : Nat :=
  match d with
  | .dz8 => s.postmark
  | .agent => s.agTime.beat * 256 + s.agTime.phase

/-! ### Parts of the state -/

def State.setTime (s : State) (f : TimeSt → TimeSt) : State := { s with time := f s.time }
def State.setAgTime (s : State) (f : AgTimeSt → AgTimeSt) : State := { s with agTime := f s.agTime }
def State.setRoute (s : State) (f : RouteSt → RouteSt) : State := { s with route := f s.route }
def State.setAgRoute (s : State) (f : AgRouteSt → AgRouteSt) : State := { s with agRoute := f s.agRoute }
def State.setTile (s : State) (f : TileSt → TileSt) : State := { s with tile := f s.tile }
def State.setHbm (s : State) (f : HbmSt → HbmSt) : State := { s with hbm := f s.hbm }
def State.setRot (s : State) (f : RotSt → RotSt) : State := { s with rot := f s.rot }
def State.setBeyjo (s : State) (f : BeyjoSt → BeyjoSt) : State := { s with beyjo := f s.beyjo }
def State.setRst (s : State) (f : RstSt → RstSt) : State := { s with rst := f s.rst }
def State.setPair (s : State) (f : PairSt → PairSt) : State := { s with pair := f s.pair }
def State.setBoot (s : State) (f : BootSt → BootSt) : State := { s with boot := f s.boot }
def State.setPwr (s : State) (f : PwrSt → PwrSt) : State := { s with pwr := f s.pwr }
def State.setAg (s : State) (f : AgSt → AgSt) : State := { s with ag := f s.ag }

/-- The fault collector of the named device. -/
def State.fltS (s : State) (d : Site) : FltSt :=
  match d with
  | .dz8 => s.flt
  | .agent => s.agFlt
def State.setFlt (s : State) (d : Site) (f : FltSt → FltSt) : State :=
  match d with
  | .dz8 => { s with flt := f s.flt }
  | .agent => { s with agFlt := f s.agFlt }

/-- The ports of the named device. -/
def State.portsS (s : State) (d : Site) : List PortSt :=
  match d with
  | .dz8 => s.ports
  | .agent => s.agPorts

/-- One port of the named device; a port that does not exist reads as a fresh one. -/
def State.port (s : State) (d : Site) (p : Nat) : PortSt := (s.portsS d).getD p (PortSt.fresh p)

/-- Updates one port of the named device; without effect where the device has no such port. -/
def State.setPort (s : State) (d : Site) (p : Nat) (f : PortSt → PortSt) : State :=
  match d with
  | .dz8 => { s with ports := s.ports.modify p f }
  | .agent => { s with agPorts := s.agPorts.modify p f }

/-- The context's part of the state. -/
def State.ctx (s : State) (c : Nat) : CtxSt := s.ctxs.getD c (CtxSt.fresh c)
def State.setCtx (s : State) (c : Nat) (f : CtxSt → CtxSt) : State := { s with ctxs := s.ctxs.modify c f }

/-- The executor of a context's timetable. -/
def State.ttb (s : State) (c : Nat) : TtbSt := s.ttbs.getD c (TtbSt.fresh c)
def State.setTtb (s : State) (c : Nat) (f : TtbSt → TtbSt) : State := { s with ttbs := s.ttbs.modify c f }

/-- The instance of an exchange of a context, the one last opened. -/
def State.inst (s : State) (c x : Nat) : Option Instance := s.insts.find? fun i => i.ctx == c && i.xid == x

/-- Updates the instance of an exchange. -/
def State.setInst (s : State) (c x : Nat) (f : Instance → Instance) : State :=
  { s with insts := s.insts.map fun i => if i.ctx == c && i.xid == x then f i else i }

/-- Sends something out. -/
def State.emit (s : State) (m : Msg) : State := { s with out := s.out ++ [m] }

/-- Sends a frame out of the host port (R350). -/
def State.frame (s : State) (m : Msg) : State := (s.emit m).bump HPT_FRAMES_TX 1

/-- Sends several things out, in order. -/
def State.emits (s : State) (ms : List Msg) : State := { s with out := s.out ++ ms }

/-- Takes a free value (log entry 5): the value and the state that has taken it. -/
def State.free (s : State) : Nat × State := (Config.freeNat s.freeCtr, { s with freeCtr := s.freeCtr + 1 })

/-- The sixteen context numbers. -/
def contexts : List Nat := List.range 16

/-- Bit `i` set or cleared in a bitmap. -/
def setBit (x i : Nat) (b : Bool) : Nat :=
  if bit x i then (if b then x else x - 2 ^ i) else if b then x + 2 ^ i else x

/-- Insertion of an element before the first one it precedes. -/
def insertBy {α : Type} (lt : α → α → Bool) (a : α) : List α → List α
  | [] => [a]
  | b :: r => if lt a b then a :: b :: r else b :: insertBy lt a r

/-- A list in the order of `lt`, equal elements in their given order. -/
def sortBy {α : Type} (lt : α → α → Bool) (l : List α) : List α := l.foldl (fun r a => insertBy lt a r) []

/-- The unit's FID (R458). -/
def State.fid (s : State) : Nat := s.rd GEN_FID_FID

/-- The FID of the unit's partner (R23). -/
def State.partnerFid (s : State) : Nat := if s.fid % 2 = 0 then s.fid + 1 else s.fid - 1

/-- The unit's domain (R23). -/
def State.domain (s : State) : Nat := s.fid / 256

/-- The unit is ACTIVE (R411). -/
def State.active (s : State) : Bool := s.rd PAR_STAT_ROLE == 1

/-- The domain is live in the unit: a Rod is in force (R27). -/
def State.live (s : State) : Bool := s.on GEN_FID_VALID

/-- The STATE of a context's timetable (R154): 0 EMPTY, 1 LOADED, 2 CHECKING, 3 CHECKED, 4 ARMING, 5 RUNNING, 6 STOPPED, 7 DONE. -/
def State.ttbState (s : State) (c : Nat) : Nat := s.rd (TTB_STAT_STATE (ttbPg c))

/-- A timetable is armed while it is ARMING or RUNNING (R38, R145). -/
def State.armed (s : State) (c : Nat) : Bool := s.ttbState c == 4 || s.ttbState c == 5

/-- Some timetable of the unit is armed. -/
def State.anyArmed (s : State) : Bool := contexts.any s.armed

/-- Counts a fabric service interruption of a context (R279). -/
def State.service (s : State) (c : Nat) : State := s.bump (CTX_SERVICE_EVENTS (ctxPg c)) 1

end Sys2Proof.Machine
end

