-- ==== Sys2Proof/Machine/Notify.lean ====
section
/-! DEFINITION. NOTIFY records: which session receives a record, and queuing it (R343 to R346). -/

namespace Sys2Proof.Machine

/-- A session bound the context: its root-certificate digest is OWNER_ID (R298, R346). -/
def State.ownsCtx (s : State) (x : Sess) (c : Nat) : Bool :=
  decide (c < 16) && s.on (CTX_STAT_BOUND (ctxPg c)) && (s.ctx c).owner == x.owner

/-- A session's role and mask let it receive a record of TYPE `t` and context `c` (R346). -/
def State.wants (s : State) (x : Sess) (t c : Nat) : Bool :=
  x.isOpen && bit x.mask t &&
  (match x.role with
   | 0 => true
   | 1 => (t == 1 || t == 3 || t == 4) && c == x.ctx
   | 2 => t == 1 || t == 6
   | _ => (t == 4 || t == 5) && s.ownsCtx x c)

/-- Queues a record for a session; a full queue of 256 drops it (R345). -/
def Sess.push (x : Sess) (r : NRec) : Sess :=
  if x.queue.length < 256 then { x with queue := x.queue ++ [r] } else { x with dropped := x.dropped + 1 }

/-- The record as a session receives it: a TENANT reads whole beats and its own words (R344, R373). -/
def recFor (x : Sess) (t c stamp : Nat) (words tenantWords : List Nat) : NRec :=
  if x.role = 1 then ⟨t, c, stamp / 256 * 256, tenantWords⟩ else ⟨t, c, stamp, words⟩

/-- Counts the records dropped by queuing one for every session in `xs` that `p` selects. -/
def lostBy (p : Sess → Bool) (xs : List Sess) : Nat := (xs.filter fun x => p x && decide (256 ≤ x.queue.length)).length

/-- Queues a record for every session that `p` selects (R343, R345). -/
def State.queueFor (s : State) (p : Sess → Bool) (r : Sess → NRec) : State :=
  (s.setBeyjo fun b => { b with sessions := b.sessions.map fun x => if p x then x.push (r x) else x }).bump
    BYJ_NOTIFY_LOST (lostBy p s.beyjo.sessions)

/-- Queues a record of TYPE `t` and context `c` (0xFF: none) for every session that receives it; a TENANT session gets
`tenantWords` (R343 to R346). -/
def State.notifyT (s : State) (t c : Nat) (words tenantWords : List Nat) : State :=
  s.queueFor (fun x => s.wants x t c) fun x => recFor x t c s.postmark words tenantWords

/-- Queues the same record for every session that receives it. -/
def State.notify (s : State) (t c : Nat) (words : List Nat) : State := s.notifyT t c words words

/-- A void's CAUSE as a tenant and a host chip read it: SERVICE in place of ENGINE, THERMAL and TAKEOVER (R279). -/
def serviceCause (c : Nat) : Nat := if c = 3 ∨ c = 4 ∨ c = 5 then 7 else c

/-- A JOB record of a context: event code, then its detail (R344; the codes are the model's, log entry 11):
1 stopped, 2 resumed, 3 disarmed, 4 void, 5 check failed, 6 held, 7 armed again, 8 lost member, 9 no spare, 10 paused, 11 done. A TENANT
reads the CAUSE of a stop and a void as SERVICE (R279). -/
def State.notifyJob (s : State) (c code detail : Nat) : State :=
  s.notifyT 3 c [code, detail] [code, if code = 1 ∨ code = 4 then serviceCause detail else detail]

/-- A CONTEXT record: 1 assigned, 2 assignment failed with its code, 3 free (R270, R274; log entry 11). -/
def State.notifyCtx (s : State) (c code detail : Nat) : State := s.notify 4 c [code, detail]

/-- A KEY record: LID or 0xFFFF for the partner, and the delivery code (R344; log entry 11). -/
def State.notifyKey (s : State) (c lid code : Nat) : State := s.notify 5 c [lid, code]

/-- A TIME record: TMK_STAT.STATE and XDOM_UNSAFE (R344). -/
def State.notifyTime (s : State) : State := s.notify 6 0xFF [s.rd TMK_STAT_STATE, s.rd TMK_STAT_XDOM_UNSAFE]

/-- A MAIL record for the session of the slot: slot number and control word (R339, R344). -/
def State.notifyMail (s : State) (index slot control : Nat) : State :=
  s.queueFor (fun x => x.index == index && x.isOpen && bit x.mask 2) fun x =>
    recFor x 2 0xFF s.postmark [slot, control] [slot, control]

end Sys2Proof.Machine
end

