-- ==== Sys2Proof/Machine/Detect.lean ====
section
/-! DEFINITION. Detectors and the fault collector: sources, counting, consequential events, and recording a detection
(R355 to R371, R492, R493). -/

namespace Sys2Proof.Machine

/-- Severities of R356. -/
def NOTE : Nat := 0
def MINOR : Nat := 1
def SEVERE : Nat := 2
def FATAL : Nat := 3

/-- Initial severities of the DZ8's detectors by family, in detector order (R357). -/
def dzDets : Nat → List Nat
  | 0x02 => [1, 2, 2, 1, 1]
  | 0x03 => [1, 1, 2, 1, 1, 1, 1, 0, 0, 0, 1]
  | 0x04 => [1, 2, 0]
  | 0x05 => [1, 2, 0]
  | 0x06 => [1, 2, 0, 1]
  | 0x07 => [1, 1]
  | 0x08 => [1, 1]
  | 0x09 => [1, 2, 3, 0]
  | 0x0A => [0, 2, 1, 0, 2, 1]
  | 0x0B => [3, 0, 1, 2]
  | 0x0C => [2]
  | 0x0E => [3]
  | 0x0F => [3, 3, 3, 3, 3]
  | 0x10 => [1]
  | 0x13 => [0, 2]
  | 0x15 => [1]
  | 0x16 => [2, 1]
  | 0x17 => [1, 1, 2]
  | 0x18 => [2, 1]
  | _ => []

/-- Initial severities of the agent's detectors by family (R492); 9 marks a number that has no detector. -/
def agDets : Nat → List Nat
  | 0x02 => [0, 1, 1]
  | 0x03 => [1, 1, 9, 1, 1, 1, 1, 0, 0, 0, 1]
  | 0x05 => [1, 9, 0, 1]
  | 0x06 => [1, 1, 1, 1]
  | 0x08 => [1, 1]
  | 0x0E => [1, 1, 3]
  | 0x13 => [0, 2]
  | 0x16 => [1, 2]
  | _ => []

/-- The initial severity of a detector, none where no such detector exists. -/
def detInitial (d : Site) (fam det : Nat) : Option Nat :=
  match (match d with | .dz8 => dzDets fam | .agent => agDets fam)[det]? with
  | some 9 => none
  | r => r

/-- Security detectors (R357, R492). -/
def detSecurity (d : Site) (fam det : Nat) : Bool :=
  match d with
  | .dz8 => (fam == 0x0A && det == 4) || fam == 0x0C || fam == 0x0E || fam == 0x0F
  | .agent => fam == 0x0E && (det == 0 || det == 2)

/-! ### Source indices (R355) -/

def srcFid (x : Nat) : Nat := bits x 38 25
def srcDie (x : Nat) : Nat := bits x 24 21
def srcFam (x : Nat) : Nat := bits x 20 13
def srcInst (x : Nat) : Nat := bits x 12 5
def srcDet (x : Nat) : Nat := bits x 4 0

/-- The page address a source lies on. -/
def srcPage (x : Nat) : Nat := srcDie x * 2 ^ 28 + srcFam x * 2 ^ 20 + srcInst x * 2 ^ 12

/-- The source index of detector `det` of the page at address `pg`. -/
def sourceOf (fid pg det : Nat) : Nat :=
  fid * 2 ^ 25 + bits pg 31 28 * 2 ^ 21 + bits pg 27 20 * 2 ^ 13 + bits pg 19 12 * 2 ^ 5 + det

/-- The FID of the named device. -/
def State.fidS (s : State) (d : Site) : Nat :=
  match d with
  | .dz8 => s.rd GEN_FID_FID
  | .agent => s.ard GEN_FID_FID

/-- The counting state of a source at its reset values. -/
def srcFresh (x initial : Nat) : Src := ⟨x, initial, 0, 0, false, none, none⟩

/-- The counting state of a source (R360). -/
def FltSt.src (f : FltSt) (x initial : Nat) : Src := (f.srcs.find? fun r => r.source == x).getD (srcFresh x initial)

/-- Stores the counting state of a source, by rising source. -/
def FltSt.putSrc (f : FltSt) (r : Src) : FltSt :=
  { f with srcs := insertBy (fun a b => decide (a.source < b.source)) r (f.srcs.filter fun q => q.source != r.source) }

/-- Default N, window in ms, and W of promotion to SEVERE (R359, R492). -/
def threshDefault (d : Site) (x initial : Nat) : Nat × Bool × Nat :=
  if d = .agent ∧ srcFam x = 0x16 ∧ srcDet x = 0 then (0, true, 1000)
  else if initial = 0 then (64, false, 4096) else if initial = 1 then (8, true, 1000) else (0, false, 0)

/-- Default NF and WF of promotion to FATAL (R359). -/
def threshFDefault (initial : Nat) : Nat × Nat :=
  if initial = 1 ∨ initial = 2 then (4, 60000) else (0, 0)

/-- One event of a source counted at beat `tb`, local time `tms` in ms (R360). -/
def Src.count1 (r : Src) (n : Nat × Bool × Nat) (nf : Nat × Nat) (tb tms : Nat) : Src :=
  if r.level < SEVERE then
    let t := if n.2.1 then tms else tb
    let r' := if r.count = 0 ∨ t - r.t0 ≥ n.2.2 then { r with t0 := t, count := 1 } else { r with count := r.count + 1 }
    if n.1 ≠ 0 ∧ r'.count ≥ n.1 then { r' with level := SEVERE, count := 0 } else r'
  else if r.level = SEVERE then
    let r' := if r.count = 0 ∨ tms - r.t0 ≥ nf.2 then { r with t0 := tms, count := 1 } else { r with count := r.count + 1 }
    if nf.1 ≠ 0 ∧ r'.count ≥ nf.1 then { r' with level := FATAL } else r'
  else r

/-- A source is masked (R362). -/
def State.masked (s : State) (d : Site) (x : Nat) : Bool := bit (s.rdS d (PG_FMASK_MASK (srcPage x))) (srcDet x)

/-- The die of a port (R15). -/
def portDie (p : Nat) : Nat := if p < 48 then 0 else 1

/-- The dies at the ends of a Dovetail edge (R499). -/
def edgeEnds (e : Nat) : Nat × Nat :=
  ([(0, 2), (0, 1), (0, 3), (1, 2), (1, 3), (2, 3), (2, 4), (2, 5), (3, 6), (3, 7)] : List (Nat × Nat)).getD e (0, 0)

/-- A source lies in the containment set of a reaction, with a detector that R371 lists for it. `own` says that the source
is the unit's own. -/
def State.covers (s : State) (r : Reaction) (x : Nat) : Bool :=
  let own := srcFid x == s.fid
  let fam := srcFam x
  let det := srcDet x
  let farOf := fun p => s.on (PRT_NEIGH_VALID (prtPg p)) && srcFid x == s.rd (PRT_NEIGH_FID (prtPg p))
  let engine := (fam == 7 && det == 1) || (fam == 8 && det == 1) || (fam == 0x0A && det == 5) || (fam == 6 && det == 2)
  match r.kind with
  | 2 => (own && fam == 3 && srcInst x == r.item && [3, 5, 6, 7, 8, 9].contains det) ||
      (!own && fam == 3 && farOf r.item && srcInst x == s.rd (PRT_NEIGH_PORT (prtPg r.item)) && (det == 5 || det == 6))
  | 3 => own && engine && (srcDie x == r.die || fam == 6)
  | 4 => own && (engine || (fam == 4 && det == 0 && (2 ≤ (edgeEnds (srcInst x)).1 || 2 ≤ (edgeEnds (srcInst x)).2)) ||
      (fam == 0x0B && (det == 1 || det == 2)))
  | 5 => (own && fam == 3 && portDie (srcInst x) == r.die && (det == 3 || det == 5 || det == 6)) ||
      (own && fam == 4 && det == 0 && ((edgeEnds (srcInst x)).1 == r.die || (edgeEnds (srcInst x)).2 == r.die)) ||
      (own && fam == 2 && det == 3) ||
      (!own && ((fam == 3 && det == 6) || (fam == 2 && det == 1)) &&
        (List.range 96).any fun p => portDie p == r.die && farOf p)
  | _ => own && ((fam == 7 && det == 1) || (fam == 6 && det == 2))

/-- The reaction that makes an event of a source consequential, the one that started first (R371). -/
def State.conseqOf (s : State) (d : Site) (x : Nat) : Option Reaction :=
  match d with
  | .agent => s.agFlt.reactions.find? fun r => r.kind == 2 && srcFam x == 3 && srcInst x == r.item && [3, 5, 6, 7, 8, 9].contains (srcDet x)
  | .dz8 => s.flt.reactions.find? fun r => s.covers r x

/-- The families of the handling units (R370). -/
def handling (fam : Nat) : Bool := fam == 0x13 || fam == 0x15 || fam == 0x16

/-- Records a detection at the named device: counting, merging, raising, and the event that waits for its decision (R360 to
R364, R370, R371). -/
def State.detectAt (s : State) (d : Site) (x stamp detail : Nat) (ctx : Option Nat) (injected : Bool) : State :=
  match detInitial d (srcFam x) (srcDet x) with
  | none => s
  | some initial =>
    let f := s.fltS d
    let r := f.src x initial
    let ms := stamp / 256 * s.period / 1000000
    let ev := fun level merged conseq fault =>
      (⟨stamp, ctx, false, merged, conseq, injected, false, level, initial, x, fault, 0, detail, decide (r.level < level), stamp⟩ : Event)
    match s.conseqOf d x with
    | some q => s.setFlt d fun f => { f with waiting := f.waiting ++ [ev r.level true true q.serial] }
    | none =>
      let r' := r.count1 (r.thresh.getD (threshDefault d x initial)) (r.threshF.getD (threshFDefault initial)) (stamp / 256) ms
      let r' := { r' with raised := r'.raised || (decide (MINOR ≤ r'.level) && !s.masked d x) }
      let running := if d = .dz8 ∧ handling (srcFam x) then f.reactions.find? fun q => !q.done else none
      s.setFlt d fun f => { f.putSrc r' with
        waiting := f.waiting ++ [match running with
          | some q => ev r'.level true false q.serial
          | none => ev r'.level false false 0] }

/-- Records a detection of detector `det` of the page at `pg`, now. -/
def State.detect (s : State) (d : Site) (pg det detail : Nat) (ctx : Option Nat) : State :=
  s.detectAt d (sourceOf (s.fidS d) pg det) (s.stampS d) detail ctx false

/-- Reactions that `sel` selects have completed: their windows go on, and a merged event that waited for one of them takes its
reaction, the stop of R368, if its source is still raised at FATAL (R370, R371). -/
def State.reactionDone (s : State) (d : Site) (sel : Reaction → Bool) : State :=
  s.setFlt d fun f =>
    let ended := f.reactions.filter fun r => sel r && !r.done
    let due := f.deferred.filter fun e => ended.any fun r => r.serial == e.fault
    { f with
      reactions := f.reactions.map (fun r => if sel r then { r with done := true } else r)
      deferred := f.deferred.filter (fun e => !ended.any fun r => r.serial == e.fault)
      fatal := f.fatal || due.any fun e => f.srcs.any fun r => r.source == e.source && r.raised && r.level == FATAL }

/-- The four words of an event record (R356). -/
def Event.words (e : Event) : List Nat :=
  [e.stamp,
   (e.ctx.getD 0) * 2 ^ 60 + b2n e.ctx.isSome * 2 ^ 59 + b2n e.remote * 2 ^ 58 + b2n e.merged * 2 ^ 57 +
     b2n e.conseq * 2 ^ 56 + b2n e.injected * 2 ^ 55 + b2n e.first * 2 ^ 54 + e.level * 2 ^ 52 + e.initial * 2 ^ 50 + e.source,
   e.fault * 2 ^ 32 + e.serial, e.detail]

/-- The event that four words hold (R356). -/
def Event.ofWords (w0 w1 w2 w3 : Nat) : Event where
  stamp := w0
  ctx := if bit w1 59 then some (bits w1 63 60) else none
  remote := bit w1 58
  merged := bit w1 57
  conseq := bit w1 56
  injected := bit w1 55
  first := bit w1 54
  level := bits w1 53 52
  initial := bits w1 51 50
  source := bits w1 38 0
  fault := bits w2 63 32
  serial := bits w2 31 0
  detail := w3
  promoted := false
  arrival := w0

/-- A source lies in a shared-block family of R278. -/
def sharedSource (x : Nat) : Bool :=
  let fam := srcFam x
  fam == 3 || fam == 4 || fam == 0x0B || fam == 8 || fam == 9 || (fam == 7 && srcInst x == 0x10) ||
    (fam == 0x0A && srcInst x == 0)

/-- The four words as a TENANT session receives them (R373). -/
def Event.tenantWords (e : Event) : List Nat :=
  let e' := { e with stamp := e.stamp / 256 * 256 }
  (if sharedSource e.source then { e' with source := e.source / 2 ^ 25 * 2 ^ 25 + e.source % 32, detail := 0 } else e').words

end Sys2Proof.Machine
end

