-- ==== Sys2Proof/Machine/Cells.lean ====
section
/-! DEFINITION. Cells: their words and CRC, the checks of a hop, discards and the dead-letter log, queues and receive buffers,
and sending a cell (R60 to R66, R81, R86 to R88, R97, R103, R104, R115). -/

namespace Sys2Proof.Machine

/-! ### CRC -/

/-- One bit into a CRC register of `w` bits. -/
def crcBit (w poly c : Nat) (b : Bool) : Nat :=
  let d := c * 2 % 2 ^ w
  if bit c (w - 1) != b then Nat.xor d poly else d

/-- The low `n` bits of `x` into a CRC register, the most significant first. -/
def crcBits (w poly x : Nat) : Nat → Nat → Nat
  | 0, c => c
  | n + 1, c => crcBits w poly x n (crcBit w poly c (bit x n))

/-- Bytes into a CRC register, the most significant bit of each byte first (R63). -/
def crcBytes (w poly c : Nat) (bs : List Byte) : Nat := bs.foldl (fun c b => crcBits w poly b.toNat 8 c) c

/-! ### The cell -/

/-- The header word (R61). -/
def cellHeader (c : Cell) : Nat :=
  c.dst % 2 ^ 14 * 2 ^ 50 + c.src % 2 ^ 14 * 2 ^ 36 + c.vc % 4 * 2 ^ 34 + c.type % 64 * 2 ^ 28 + c.gen % 16 * 2 ^ 24 +
    c.epoch % 16 * 2 ^ 20 + c.seq % 2 ^ 16 * 2 ^ 4 + c.flags % 16

/-- The trailer word (R62). -/
def cellTrailer (c : Cell) : Nat := c.offset % 2 ^ 32 * 2 ^ 32 + c.cidx % 2 ^ 16 * 2 ^ 16 + c.crc % 2 ^ 16

/-- Word `i` of the payload, 0 where the list is shorter. -/
def cellWord (c : Cell) (i : Nat) : Nat := (c.payload.getD i 0).toNat

/-- The 48 payload bytes (R60). -/
def cellPayload (c : Cell) : List Byte := (List.range 6).flatMap fun i => leBytes 8 (cellWord c i)

/-- The 64 bytes of a cell (R60). -/
def cellBytes (c : Cell) : List Byte := leBytes 8 (cellHeader c) ++ cellPayload c ++ leBytes 8 (cellTrailer c)

/-- The CRC of a cell: bytes 0 to 55, then 58 to 63 (R63). -/
def cellCrc (c : Cell) : Nat := crcBytes 16 0x8BB7 0xFFFF ((cellBytes c).take 56 ++ (cellBytes c).drop 58)

/-- A cell with its CRC regenerated. -/
def sealed (c : Cell) : Cell := { c with crc := cellCrc c }

/-- FLAGS.LAST (R65). -/
def isLast (c : Cell) : Bool := bit c.flags 3
/-- FLAGS.RETRY (R65). -/
def isRetry (c : Cell) : Bool := bit c.flags 2
/-- FLAGS.DOMBC (R65). -/
def isDombc (c : Cell) : Bool := bit c.flags 1

/-- Cell types (R64). -/
def tPUT : Nat := 0x01
def tCONTRIB : Nat := 0x02
def tRESULT : Nat := 0x03
def tMREQ : Nat := 0x08
def tMRSP : Nat := 0x09
def tVOID : Nat := 0x0A
def tCOMMIT : Nat := 0x0B
def tABORT : Nat := 0x0C
def tORPHAN : Nat := 0x0D
def tFAULT : Nat := 0x0E
def tLEASE : Nat := 0x0F
def tFWCHUNK : Nat := 0x10
def tKEYWRAP : Nat := 0x11
def tEVIDENCE : Nat := 0x12
def tPARWR : Nat := 0x13
def tPARACK : Nat := 0x14

/-- The virtual channels a type is valid on beside VC3, none for a reserved type (R64). -/
def typeVcs (t : Nat) : Option (List Nat) :=
  if t = 1 ∨ t = 2 ∨ t = 3 then some [0]
  else if t = 0x08 ∨ (0x0A ≤ t ∧ t ≤ 0x0E) ∨ t = 0x10 ∨ t = 0x11 ∨ t = 0x13 then some [1]
  else if t = 0x09 ∨ t = 0x12 ∨ t = 0x14 then some [2]
  else if t = 0x0F then some [1, 2]
  else none

/-- A cell that opens a management register access names an RTE page address (R115, R473). -/
def rteAddress (a : Nat) : Bool := bits a 27 20 == 5

/-- Flip-control traffic (R115): COMMIT, ABORT, and MREQ or MRSP cells of an RTE page. -/
def flipControl (c : Cell) : Bool :=
  c.type == tCOMMIT || c.type == tABORT || ((c.type == tMREQ || c.type == tMRSP) && rteAddress (bits (cellWord c 1) 31 0))

/-! ### Dies, roles and states of ports -/

/-- The same register on X-die `d`. -/
def onDie (d : Nat) (f : Fld) : Fld := { f with addr := f.addr + d * 2 ^ 28 }

/-- A register of the RTE page of the X-die that holds a port (R128). -/
def rteOf (d : Site) (p : Nat) (f : Fld) : Fld :=
  match d with
  | .dz8 => onDie (portDie p) f
  | .agent => f

/-- PRT_STAT.STATE of a port. -/
def State.prtState (s : State) (d : Site) (p : Nat) : Nat := s.rdS d (PRT_STAT_STATE (prtPgS d p))
/-- A port is UP (R101). -/
def State.isUp (s : State) (d : Site) (p : Nat) : Bool := s.prtState d p == 2
/-- A port is UP or DEGRADED. -/
def State.carries (s : State) (d : Site) (p : Nat) : Bool := s.prtState d p == 2 || s.prtState d p == 3
/-- PRT_STAT.ROLE: 0 DOWN, 1 PEER, 2 LEDGER, 3 SPARE (R95). -/
def State.role (s : State) (d : Site) (p : Nat) : Nat := s.rdS d (PRT_STAT_ROLE (prtPgS d p))
/-- The package port numbers of the DZ8 (R97). -/
def dzPorts : List Nat := List.range 96
/-- M-dies and C-dies of the unit's part (R3, R15). -/
def State.mdies (s : State) : Nat := nth [4, 4, 2, 0] (s.rd LCS_PART_PART)
def State.cdies (s : State) : Nat := if s.rd LCS_PART_PART ≤ 1 then 2 else 1

/-- The part has the die position. -/
def State.hasDie (s : State) (die : Nat) : Bool :=
  if die < 2 then die == 0 || decide (48 < s.rd LCS_PART_LINKS) else if die < 4 then decide (die - 2 < s.cdies) else decide (die - 4 < s.mdies)

/-- The fabric ports that the part has: 96 or 48 (R1). -/
def State.links (s : State) : List Nat := dzPorts.filter fun p => decide (p < s.rd LCS_PART_LINKS)
/-- A DZ8 port is SPARE under the Rod in force: it is trained, and carries no traffic (R20, R80). -/
def State.spare (s : State) (d : Site) (p : Nat) : Bool := d == .dz8 && s.on GEN_FID_VALID && s.role .dz8 p == 3
/-- A port carries cells: it is UP or DEGRADED, and not SPARE (R20, R78). -/
def State.bears (s : State) (d : Site) (p : Nat) : Bool := s.carries d p && !s.spare d p
/-- The agent is a leaf switch, IA-S: LCS_PART.PART is 5 (R471). -/
def State.isLeaf (s : State) : Bool := s.ard LCS_PART_PART == 5
/-- Number of ports of the agent's build (R471; log entry 15). -/
def State.agPortCount (s : State) : Nat := if s.isLeaf then 64 else 8
/-- The port numbers of the named device. -/
def State.portNums (s : State) (d : Site) : List Nat :=
  match d with
  | .dz8 => s.links
  | .agent => List.range s.agPortCount
/-! ### What the part fixes (R2, R4, R388, R523) -/

/-- Slots of the dump area: one on DZ8-E (R4, R388). -/
def State.dumpSlots (s : State) : Nat := if s.mdies = 0 then 1 else 16

/-- Rows of a C-die that the system holds, and the first of them: half of the die on DZ8-E, for the dump area and the poste restante
(R4, R238). -/
def State.rsvRows (s : State) : Nat := if s.mdies = 0 then 4096 else 0

/-- The active idle figure of the part, W (R523). -/
def State.idleMin (s : State) : Nat := match s.rd LCS_PART_PART with | 0 => 420 | 1 => 400 | 2 => 210 | _ => 160

/-- The domain of the named device. -/
def State.domainS (s : State) (d : Site) : Nat := s.fidS d / 256

/-! ### Contexts of a cell -/

/-- The context of which an FID is a member, in a state other than FREE (R264, R266). -/
def State.ctxOfFid (s : State) (fid : Nat) : Option Nat :=
  contexts.find? fun c => s.rd (CTX_STAT_STATE (ctxPg c)) != 0 &&
    (s.ctx c).map.any fun e => bit e.2 63 && e.2 % 2 ^ 14 == fid

/-- The context field of a dead-letter entry for a cell, 31 when it is not known (R87). How a context is known is the model's choice
(DESIGN CHOICE, log entry 131): the DZ8 knows it of VC0 cells and of PUT, CONTRIB and RESULT cells alone, by SRC before DST. -/
def State.cellCtx (s : State) (d : Site) (c : Cell) : Nat :=
  match d with
  | .dz8 => if c.vc = 0 ∨ c.type ≤ 3 then ((s.ctxOfFid c.src).orElse fun _ => s.ctxOfFid c.dst).getD 31 else 31
  | .agent => if c.type ≤ 3 && s.aon Ia.RTE_SELF_VALID then s.ard Ia.RTE_SELF_CONTEXT else 31

/-! ### The dead-letter log -/

/-- REASON codes (R88). -/
def rCRC : Nat := 0x01
def rFEC : Nat := 0x02
def rTYPE : Nat := 0x03
def rVCTYPE : Nat := 0x04
def rNOCREDIT : Nat := 0x05
def rGEN : Nat := 0x06
def rEPOCH : Nat := 0x07
def rNOROUTE : Nat := 0x08
def rBOUND : Nat := 0x09
def rCIDX : Nat := 0x0A
def rOVER : Nat := 0x0B
def rTAG : Nat := 0x0C
def rDOMBC : Nat := 0x0D
def rNOCAP : Nat := 0x0E
def rLINKDOWN : Nat := 0x0F
def rDVT : Nat := 0x10

/-- A ring of `n` entries takes one more. -/
def ringPush {α : Type} (n : Nat) (l : List α) (a : α) : List α := (if l.length < n then l else l.drop 1) ++ [a]

/-- The four words of a dead-letter entry (R87). -/
def DeadLetter.words (e : DeadLetter) : List Nat :=
  [e.postmark.toNat, e.header.toNat, e.trailer.toNat, e.reason % 2 ^ 8 * 2 ^ 56 + e.port % 2 ^ 8 * 2 ^ 48 + e.context % 2 ^ 5 * 2 ^ 43]

/-- Writes a dead-letter entry into the log of an X-die; the agent has one log (R86, R87, R381). -/
def State.deadLetter (s : State) (d : Site) (die : Nat) (e : DeadLetter) : State :=
  let die := match d with | .dz8 => die | .agent => 0
  let pg := dllPg die
  let ring := if die = 0 then (s.fltS d).dll0 else (s.fltS d).dll1
  let head := s.rdS d (FLT_DLL_HEAD_HEAD pg)
  let s := s.setFlt d fun f => if die = 0 then { f with dll0 := ringPush 4096 f.dll0 e } else { f with dll1 := ringPush 4096 f.dll1 e }
  let s := s.wrS d (FLT_DLL_HEAD_HEAD pg) (head + 1)
  let s := if head = 4095 then s.wrS d (FLT_DLL_HEAD_WRAPPED pg) 1 else s
  if ring.length < 4096 then s else s.bumpS d (FLT_DLL_HEAD_OVERFLOW pg) 1

/-- The detector of the PRT page that a discard reason trips, none where it trips none (R357). -/
def reasonDet (r : Nat) : Option Nat :=
  if r = rCRC then some 7 else if r = rNOCREDIT then some 3 else if r = rOVER then some 4 else none

/-- A reason counted in RTE_DISC. -/
def reasonDisc (r : Nat) : Option Fld :=
  if r = rGEN then some RTE_DISC_GEN else if r = rEPOCH then some RTE_DISC_EPOCH
  else if r = rNOROUTE then some RTE_DISC_NOROUTE else none

/-- Discards a cell at a port: the dead-letter entry, the counters and the detectors (R86, R88, R95, R128). -/
def State.discardC (s : State) (d : Site) (p : Nat) (c : Cell) (reason ctx : Nat) : State :=
  let s := s.deadLetter d (portDie p) ⟨word (s.stampS d), word (cellHeader c), word (cellTrailer c), reason, p, ctx⟩
  let s := s.bumpS d (if reason = rCRC then PRT_DISCARD_CRC (prtPgS d p) else PRT_DISCARD_OTHER (prtPgS d p)) 1
  let s := match reasonDet reason with
    | some n => s.detect d (prtPgS d p) n p (if ctx < 16 then some ctx else none)
    | none => s
  match reasonDisc reason with
  | some f =>
    let s := s.bumpS d (rteOf d p f) 1
    if reason = rNOROUTE then s else s.detect d (rteOf d p f).addr 2 p none
  | none => s

/-- Discards a cell with the context that it shows. -/
def State.discard (s : State) (d : Site) (p : Nat) (c : Cell) (reason : Nat) : State :=
  s.discardC d p c reason (s.cellCtx d c)

/-- A cell of the chip's own that never reached a port is recorded with port 0xFF (log entry 14). -/
def State.discardOwn (s : State) (d : Site) (c : Cell) (reason : Nat) : State :=
  let s := s.deadLetter d 0 ⟨word (s.stampS d), word (cellHeader c), word (cellTrailer c), reason, 0xFF, s.cellCtx d c⟩
  match reasonDisc reason with
  | some f => s.bumpS d f 1
  | none => s

/-! ### Buffers and queues -/

/-- Element `i` of a list of counts, changed. -/
def bumpAt (l : List Nat) (i : Nat) (f : Nat → Nat) : List Nat := l.modify i f

/-- A receive buffer of a port and VC becomes free: it goes into the next CREDIT counts (R81, R82). -/
def State.freeBuf (s : State) (d : Site) (hold : Option (Nat × Nat)) : State :=
  match hold with
  | none => s
  | some (p, vc) => s.setPort d p fun x =>
    { x with buffered := bumpAt x.buffered vc (· - 1), freed := bumpAt x.freed vc fun n => (n + 1) % 2 ^ 14 }

/-- Receive-buffer depths of a fabric port (R81). -/
def depth (vc : Nat) : Nat := nth [256, 64, 64, 32] vc

/-- A cell of the unit's own that only the ACTIVE unit sends: RESULT, VOID, COMMIT, ABORT, KEYWRAP, PARWR, DOMBC, and, from a FENCED
unit, a remote write of an agent (R411, R412, R424). -/
def State.silenced (s : State) (d : Site) (c : Cell) : Bool :=
  d == .dz8 && c.src == s.fid && s.rd PAR_STAT_ROLE != 1 &&
    (isDombc c || [tRESULT, tVOID, tCOMMIT, tABORT, tKEYWRAP, tPARWR].contains c.type ||
      (s.rd PAR_STAT_ROLE == 3 && c.type == tMREQ && bits (cellWord c 0) 63 56 == 2))

/-- Queues a cell for a port, still in the receive buffer `hold`. -/
def State.enqueue (s : State) (d : Site) (p : Nat) (hold : Option (Nat × Nat)) (c : Cell) : State :=
  if s.silenced d c then s else s.setPort d p fun x => { x with queue := x.queue ++ [(hold, c)] }

/-- The buffer of a cell that arrived on `inp`. -/
def holdOf (inp : Option Nat) (c : Cell) : Option (Nat × Nat) := inp.map fun p => (p, c.vc)

/-! ### Routes -/

/-- A route entry (R97). -/
def entWord (valid isLocal : Bool) (port esc : Nat) : Nat :=
  b2n valid * 2 ^ 63 + b2n isLocal * 2 ^ 62 + port * 2 ^ 48 + esc * 2 ^ 40

/-- A written entry: its reserved bits are 0 (R9, R97). -/
def entBits (v : Nat) : Nat := v &&& (3 * 2 ^ 62 + 0xFFFF * 2 ^ 40)

/-- Before the first generation a chip routes its own FID, the FIDs that IDENT names on its UP ports, and an agent any
DZ8 FID towards its beat source (R460; for a DZ8 log entry 18). -/
def State.bootEntry (s : State) (d : Site) (dst : Nat) : Nat :=
  if dst = s.fidS d then entWord true true 0 0
  else match (s.portNums d).find? fun p => s.isUp d p && !s.spare d p && s.rdS d (PRT_NEIGH_VALID (prtPgS d p)) == 1 &&
      s.rdS d (PRT_NEIGH_FID (prtPgS d p)) == dst with
    | some p => entWord true false p p
    | none => match d with
      | .dz8 => 0
      | .agent => if 0xFE ≤ dst % 256 then match s.agTime.source with | some p => entWord true false p p | none => 0 else 0

/-- The route entry of the named chip towards an FID, in its active or its shadow table (R97). -/
def State.entry (s : State) (d : Site) (shadow : Bool) (dst : Nat) : Nat :=
  if !shadow && s.rdS d RTE_GEN_ACTIVE == 0 then s.bootEntry d dst
  else match d with
    | .dz8 => tget (if shadow then s.route.shadow else s.route.active) (s.fid * 2 ^ 14 + dst)
    | .agent => tget (if shadow then s.agRoute.shadow else s.agRoute.active) dst

/-- Fields of a route entry (R97). -/
def entValid (e : Nat) : Bool := bit e 63
def entLocal (e : Nat) : Bool := bit e 62
def entPort (e : Nat) : Nat := bits e 55 48
def entEsc (e : Nat) : Nat := bits e 47 40

/-- The COMMIT that the named chip holds (R119). -/
def State.heldCommit (s : State) (d : Site) : Option Commit :=
  match d with
  | .dz8 => s.route.commit
  | .agent => s.agRoute.commit

/-- The role epoch that the named chip holds for a domain (R104). -/
def State.epochOf (s : State) (d : Site) (dom : Nat) : Nat :=
  s.rdS d (RTE_EPOCH_EPOCHS (dom / 16)) / 2 ^ (4 * (dom % 16)) % 16

/-- Which table a cell is routed by: none where the GEN check discards it (R103, step 1). -/
def State.tableFor (s : State) (d : Site) (c : Cell) : Option Bool :=
  if c.src / 256 ≠ s.domainS d ∨ c.type = tCOMMIT ∨ c.type = tABORT ∨ c.gen = s.rdS d RTE_GEN_ACTIVE % 16 then some false
  else if (s.heldCommit d).isSome && c.gen == s.rdS d RTE_GEN_SHADOW % 16 then some true
  else none

/-- A cell at its destination chip: the EPOCH check, then delivery, which takes it out of its buffer (R66, R104, R109). -/
def State.deliver (s : State) (d : Site) (inp : Option Nat) (c : Cell) : State :=
  let s := s.freeBuf d (holdOf inp c)
  if c.epoch ≠ s.epochOf d (s.domainS d) then
    match inp with
    | some p => s.discard d p c rEPOCH
    | none => s.discardOwn d c rEPOCH
  else s.emit (.delivered d c)

/-- A cell is counted in RTE_FLIPSTAT.FWD when the chip forwards it, unless it is flip-control traffic (R116; log entry 16). -/
def State.countFwd (s : State) (d : Site) (q : Nat) (c : Cell) : State :=
  if flipControl c then s else s.bumpS d (rteOf d q RTE_FLIPSTAT_FWD) 1

/-- Discards a cell at a hop and frees its buffer. -/
def State.drop (s : State) (d : Site) (inp : Option Nat) (c : Cell) (reason : Nat) : State :=
  let s := s.freeBuf d (holdOf inp c)
  match inp with
  | some p => s.discard d p c reason
  | none => s.discardOwn d c reason

/-- Lookup and egress of R103, and the escape of R108. -/
def State.routeCell (s : State) (d : Site) (inp : Option Nat) (shadow : Bool) (c : Cell) : State :=
  let e := s.entry d shadow c.dst
  if !entValid e then s.drop d inp c rNOROUTE
  else if entLocal e then s.deliver d inp c
  else if c.vc = 3 then
    if s.bears d (entEsc e) then (s.countFwd d (entEsc e) c).enqueue d (entEsc e) (holdOf inp c) c
    else s.drop d inp c rLINKDOWN
  else if s.bears d (entPort e) then (s.countFwd d (entPort e) c).enqueue d (entPort e) (holdOf inp c) c
  else if s.bears d (entEsc e) then
    let s := s.bumpS d (rteOf d (entEsc e) RTE_ESCCNT_FAILOVER) 1
    (s.countFwd d (entEsc e) c).enqueue d (entEsc e) (holdOf inp c) (sealed { c with vc := 3 })
  else s.drop d inp c rLINKDOWN

/-- The ports that a domain broadcast is copied to: the DOWN ports that are UP, in a leaf switch its endpoint ports (R65). -/
def State.broadcastPorts (s : State) (d : Site) (inp : Option Nat) : List Nat :=
  (s.portNums d).filter fun p => some p != inp &&
    match d with
    | .dz8 => s.isUp .dz8 p && s.role .dz8 p == 0
    | .agent => s.carries .agent p && s.isLeaf && s.ard (PRT_NEIGH_CLASS (prtPgS .agent p)) == 1

/-- Steps 7 and 8 of R66 for a cell that has passed the earlier checks (R65, R103). -/
def State.hop (s : State) (d : Site) (inp : Option Nat) (c : Cell) : State :=
  if isDombc c && decide (c.src % 256 < 0xFE) then s.drop d inp c rDOMBC
  else match s.tableFor d c with
    | none => s.drop d inp c rGEN
    | some shadow =>
      if isDombc c && c.dst / 256 == s.domainS d then
        let s := (s.broadcastPorts d inp).foldl (fun s q => (s.countFwd d q c).enqueue d q none c) s
        s.deliver d inp c
      else s.routeCell d inp shadow c

/-- A new cell of the named chip: SRC, GEN, EPOCH and CRC filled in (R61, R104). -/
def State.newCell (s : State) (d : Site) (dst vc type seq flags offset cidx : Nat) (payload : List Nat) : Cell :=
  sealed ⟨dst, s.fidS d, vc, type, s.rdS d RTE_GEN_ACTIVE % 16, s.epochOf d (dst / 256), seq % 2 ^ 16, flags,
    offset % 2 ^ 32, cidx, 0, (List.range 6).map fun i => word (nth payload i)⟩

/-- Sends a cell of the chip's own. -/
def State.send (s : State) (d : Site) (c : Cell) : State := s.routeCell d none false c

/-- A cell of the chip's own with the sender's present generation and the present epoch of its destination (R98, R104). -/
def State.restamp (s : State) (d : Site) (c : Cell) : Cell :=
  sealed { c with gen := s.rdS d RTE_GEN_ACTIVE % 16, epoch := s.epochOf d (c.dst / 256) }

/-- Sends a cell of the chip's own on a given port; where the port carries no cells it is discarded (R86, R103). -/
def State.sendOn (s : State) (d : Site) (p : Nat) (c : Cell) : State :=
  if s.bears d p then s.enqueue d p none c else if s.silenced d c then s else s.discard d p c rLINKDOWN

/-- The 48-byte pieces of a message, the last filled up with zeros. -/
def pieces : Nat → List Byte → List (List Byte)
  | 0, _ => []
  | n + 1, bs => if bs.isEmpty then [] else (bs.take 48 ++ List.replicate (48 - min 48 bs.length) 0) :: pieces n (bs.drop 48)

/-- The six words of 48 bytes. -/
def wordsOf (bs : List Byte) : List Nat := (List.range 6).map fun i => leNat ((bs.drop (8 * i)).take 8)

/-- Sends a management message in cells of one SEQ, with OFFSET in bytes and LAST on the last (R61, R62, R65). -/
def State.sendMsg (s : State) (d : Site) (dst vc type seq flags : Nat) (bs : List Byte) : State :=
  let ps := pieces (bs.length / 48 + 1) bs
  let n := ps.length
  (ps.zipIdx).foldl (fun s q =>
    s.send d (s.newCell d dst vc type seq (flags + if q.2 + 1 = n then 8 else 0) (48 * q.2) 0 (wordsOf q.1))) s

/-- Buffers of the chip hold no cell other than flip-control traffic, its own waiting cells and held border cells (R116). -/
def State.buffersEmpty (s : State) (d : Site) : Bool :=
  (s.portNums d).all fun p => (s.port d p).queue.all fun q => flipControl q.2 || (q.1 == none && q.2.src == s.fidS d && q.2.vc != 0)

/-- Every egress port holds credits equal to the far end's depth on every VC (R116). -/
def State.creditsFull (s : State) (d : Site) : Bool :=
  (s.portNums d).all fun p => !s.carries d p || (List.range 4).all fun v => nth (s.port d p).credits v == depth v

/-- The chip is in the quiet state (R115). -/
def State.quiet (s : State) (d : Site) : Bool := s.rdS d RTE_FLIPSTAT_QUIET == 1

/-- The armed timetables of the named device have paused at a step boundary (R116, R118). -/
def State.allPaused (s : State) (d : Site) : Bool :=
  match d with
  | .dz8 => contexts.all fun c => !s.armed c || s.rd (TTB_STAT_STATE (ttbPg c)) != 5 || (s.ttb c).flipPaused
  | .agent => s.ard Ia.TTB_STAT_STATE != 3 || s.ag.flipPaused

/-- The chip is drained (R116). -/
def State.drained (s : State) (d : Site) : Bool :=
  s.buffersEmpty d && s.creditsFull d && s.quiet d && s.allPaused d

end Sys2Proof.Machine
end

