-- ==== Sys2Proof/Machine/Compare.lean ====
section
/-! DEFINITION. Widths and capacity of a link, the Rod's view of a port, the capacity map, and the comparison of the Rod with the
neighbour reports (R74, R77, R85, R95, R113, R456, R458). -/

namespace Sys2Proof.Machine

/-! ### Widths and capacity -/

/-- The widths that a set of good lanes offers: bit 0 x1, bit 1 x2, bit 2 x4 (R71, R77). -/
def offers (lanes : Nat) : Nat :=
  b2n (lanes % 16 != 0) + 2 * b2n (lanes % 4 == 3 || lanes / 4 % 4 == 3) + 4 * b2n (lanes % 16 == 15)

/-- Lanes of a WIDTH code: 0, 1, 2 or 4 (R95). -/
def lanesOf (w : Nat) : Nat := nth [0, 1, 2, 4] w

/-- The beat period of the named device. -/
def State.periodS (s : State) (d : Site) : Nat :=
  match d with
  | .dz8 => s.period
  | .agent => s.ard Ia.TMK_PERIOD_PERIOD_NS

/-- p of R74: positions per beat. -/
def State.positions (s : State) (d : Site) (p : Nat) : Nat :=
  s.periodS d * lanesOf (s.rdS d (PRT_STAT_WIDTH (prtPgS d p))) * 1280 / 5440

/-- k of R74: control positions per beat. -/
def State.controls (s : State) (d : Site) (p : Nat) : Nat :=
  ceilDiv (s.positions d p) (if s.rdS d (PRT_STAT_ENCRYPTED (prtPgS d p)) = 1 then 17 else 32)

/-- C0 of R74: positions per beat less the control positions and U. -/
def State.c0Raw (s : State) (d : Site) (p : Nat) : Nat :=
  s.positions d p - s.controls d p - s.rdS d (PRT_UNSCHED_CELLS (prtPgS d p))

/-- C0 of R74, scaled for a long link under R85. -/
def State.c0 (s : State) (d : Site) (p : Nat) : Nat :=
  let w := lanesOf (s.rdS d (PRT_STAT_WIDTH (prtPgS d p)))
  let c := s.c0Raw d p
  let t := w * (2 * s.rdS d (linkDlyPs d p) + 112000)
  if t > 1088000 then c * 1088000 / t else c

/-- The lanes that an end with the good lanes `g` uses at WIDTH code 3, 2 or 1, none where it cannot run it (R77): all four; 0 and 1
if both are good, else 2 and 3; the lowest good lane. -/
def laneSet (g : Nat) : Nat → Option Nat
  | 3 => if g % 16 = 15 then some 15 else none
  | 2 => if g % 4 = 3 then some 3 else if g / 4 % 4 = 3 then some 12 else none
  | 1 => (List.range 4).findSome? fun i => if bit g i then some (2 ^ i) else none
  | _ => none

/-- WIDTH code of the widest width that both ends offer with the same lane set, 0 where there is none (R77). -/
def widthCode (a b : Nat) : Nat :=
  ([3, 2, 1].find? fun w => (laneSet a w).isSome && laneSet a w == laneSet b w).getD 0

/-! ### The Rod and the capacity map -/

/-- One end of a Rod link as a chip sees it: own port, far FID, far port, and the link. -/
structure LinkEnd where
  port : Nat
  far : Nat
  farPort : Nat
  link : RodLink
  deriving DecidableEq, Repr

/-- The end of a link at a chip. -/
def endAt (l : RodLink) (fid : Nat) : Option LinkEnd :=
  if l.fidA = fid then some ⟨l.portA, l.fidB, l.portB, l⟩ else if l.fidB = fid then some ⟨l.portB, l.fidA, l.portA, l⟩ else none

/-- The links of a chip by rising own port. -/
def Rod.ends (r : Rod) (fid : Nat) : List LinkEnd :=
  sortBy (fun a b => decide (a.port < b.port)) (r.links.filterMap fun l => endAt l fid)

/-- The chip record of an FID. -/
def Rod.chip (r : Rod) (fid : Nat) : Option RodChip := r.chips.find? fun c => c.fid == fid

/-- Class of a chip: 0 DZ8, 1 endpoint, 2 leaf switch; 3 for an FID that the Rod does not hold. -/
def Rod.cls (r : Rod) (fid : Nat) : Nat := match r.chip fid with | some c => c.cls | none => 3

/-- The end of a chip's link at a port. -/
def Rod.endOf (r : Rod) (fid port : Nat) : Option LinkEnd := (r.ends fid).find? fun e => e.port == port

/-- A Rod without chips, for a unit that has none. -/
def emptyRod : Rod := ⟨0, (0, 0, 0), 0, [], [], []⟩

/-- The Rod in force. -/
def State.theRod (s : State) : Rod := s.boot.rod.getD emptyRod

/-- The Rod link of a port of the unit (R456). -/
def State.rodLink (s : State) (p : Nat) : Option RodLink :=
  match s.boot.rod with
  | none => none
  | some r => r.links.find? fun l => (l.fidA == s.fid && l.portA == p) || (l.fidB == s.fid && l.portB == p)

/-- The FID and port that the Rod gives for the far end of a port. -/
def State.rodFar (s : State) (p : Nat) : Option (Nat × Nat) :=
  (s.rodLink p).map fun l => if l.fidA == s.fid && l.portA == p then (l.fidB, l.portB) else (l.fidA, l.portA)

/-- The domain of a link: that of its lower FID (R456). -/
def linkDomain (l : RodLink) : Nat := min l.fidA l.fidB / 256

/-- The link reference of a link: its domain and its index in it (R456). -/
def linkIdent (l : RodLink) : Nat := linkDomain l * 2 ^ 12 + l.index % 2 ^ 12

/-- A capacity-map entry (R113). -/
def capWord (link c0 minW w enc st : Nat) : Nat :=
  link * 2 ^ 32 + c0 * 2 ^ 16 + minW * 2 ^ 6 + w * 2 ^ 4 + enc * 2 ^ 3 + st

/-- The active unit brings the capacity-map entry of a port up to date (R113). -/
def State.capUpdate (s : State) (p : Nat) : State :=
  match s.rodLink p with
  | none => s
  | some l =>
    let pg := prtPg p
    let st := s.rd (PRT_STAT_STATE pg)
    s.setRoute fun r => { r with capMap := tset r.capMap (linkIdent l) (capWord l.index (if st = 2 then s.c0 .dz8 p else 0)
      l.minWidth (s.rd (PRT_STAT_WIDTH pg)) (b2n l.offRack) st) }

/-! ### The comparison (R458) -/

/-- A field of a register word. -/
def fldOf (f : Fld) (w : Nat) : Nat := bits w (f.lo + f.w - 1) f.lo

/-- The PRT_NEIGH and PRT_STAT words of one of the unit's own ports and its C0, as a report. -/
def State.neighReport (s : State) (p : Nat) : NeighReport :=
  let pg := prtPg p
  let word := fun (fs : List Fld) => (fs.map fun f => s.rd f * 2 ^ f.lo).sum
  ⟨s.fid, p, word [PRT_NEIGH_VALID pg, PRT_NEIGH_FID pg, PRT_NEIGH_PORT pg, PRT_NEIGH_CLASS pg],
    word [PRT_STAT_GOOD_LANES pg, PRT_STAT_ENCRYPTED pg, PRT_STAT_MIN_WIDTH pg, PRT_STAT_WIDTH pg, PRT_STAT_STATE pg],
    some (s.c0 .dz8 p)⟩

/-- Fields of a report. -/
def repState (x : NeighReport) : Nat := fldOf (PRT_STAT_STATE 0) x.stat
def repWidth (x : NeighReport) : Nat := fldOf (PRT_STAT_WIDTH 0) x.stat
def repLanes (x : NeighReport) : Nat := fldOf (PRT_STAT_GOOD_LANES 0) x.stat
def repEncrypted (x : NeighReport) : Nat := fldOf (PRT_STAT_ENCRYPTED 0) x.stat
def repFid (x : NeighReport) : Nat := fldOf (PRT_NEIGH_FID 0) x.neigh
def repPort (x : NeighReport) : Nat := fldOf (PRT_NEIGH_PORT 0) x.neigh
def repClass (x : NeighReport) : Nat := fldOf (PRT_NEIGH_CLASS 0) x.neigh
/-- The port is UP or DEGRADED. -/
def repTrained (x : NeighReport) : Bool := (repState x) == 2 || (repState x) == 3

/-- The report of a port: the unit's own page, or what an agent of the domain reported. -/
def State.reportAt (s : State) (f p : Nat) : Option NeighReport :=
  if f = s.fid then some (s.neighReport p) else s.boot.reports.find? fun x => x.fid == f && x.port == p

/-- A mismatch at a port. -/
def mismatchAt (kind f p : Nat) (x : Option NeighReport) (minWidth : Nat) : Mismatch :=
  match x with
  | some x => ⟨kind, f, p, (repFid x), (repPort x), (repWidth x), minWidth⟩
  | none => ⟨kind, f, p, 0, 0, 0, minWidth⟩

/-- The ends of a link in the unit's domain, that with the lower FID first: FID and what the chip sees. -/
def State.nearEnds (s : State) (l : RodLink) : List (Nat × LinkEnd) :=
  let both := [(l.fidA, (⟨l.portA, l.fidB, l.portB, l⟩ : LinkEnd)), (l.fidB, (⟨l.portB, l.fidA, l.portA, l⟩ : LinkEnd))]
  sortBy (fun a b => decide (a.1 < b.1)) (both.filter fun e => e.1 / 256 == s.domain)

/-- Widest WIDTH code that a set of lanes offers (R77). -/
def widest (lanes : Nat) : Nat := ([3, 2, 1].find? fun w => (laneSet lanes w).isSome).getD 0

/-- The differences at one end of a trained link. -/
def endMismatches (r : Rod) (f : Nat) (e : LinkEnd) (x : NeighReport) : List Mismatch :=
  let m := fun (kind : Nat) (bad : Bool) => if bad then [mismatchAt kind f e.port (some x) e.link.minWidth] else []
  m 2 ((repTrained x) && ((repFid x) != e.far || (repPort x) != e.farPort || (repClass x) != r.cls e.far)) ++
    m 3 ((repTrained x) && decide ((repWidth x) < e.link.minWidth)) ++ m 4 (decide (widest (repLanes x) < e.link.minWidth))

/-- The mismatches of one Rod link. -/
def State.linkMismatches (s : State) (r : Rod) (l : RodLink) : List Mismatch :=
  let es := s.nearEnds l
  let down := es.any fun e => match s.reportAt e.1 e.2.port with | some x => !repTrained x | none => false
  let noLink := match es with
    | e :: _ => if down then [mismatchAt 1 e.1 e.2.port (s.reportAt e.1 e.2.port) l.minWidth] else []
    | [] => []
  noLink ++ es.flatMap fun e => match s.reportAt e.1 e.2.port with
    | some x => endMismatches r e.1 e.2 x
    | none => []

/-- Trained ports that no Rod link names. -/
def State.extraPorts (s : State) (r : Rod) : List Mismatch :=
  let own := s.links.map s.neighReport
  ((own ++ s.boot.reports).filter fun x => (repTrained x) && (r.endOf x.fid x.port).isNone).map fun x => mismatchAt 5 x.fid x.port (some x) 0

/-- The mismatches as the reports stand; SILENT lasts until a report comes. -/
def State.mismatchesNow (s : State) (r : Rod) : List Mismatch :=
  r.links.flatMap (s.linkMismatches r) ++ s.extraPorts r ++
    s.boot.mismatches.filter fun m => m.kind == 6 && !s.boot.reports.any fun x => x.fid == m.fid

/-- C0 of a link between agents: what the reporting port shows in PRT_BEATCAP; where a report does not carry it, that of the trained
width with the reset allowance of 8 cells (R74, R113; log entry 97). -/
def State.c0Of (s : State) (x : NeighReport) : Nat :=
  let p := s.period * lanesOf (repWidth x) * 1280 / 5440
  x.cap.getD (p - ceilDiv p (if repEncrypted x = 1 then 17 else 32) - 8)

/-- The capacity-map entries of the links that have no end at the unit, from the agents' reports (R113). -/
def State.capReports (s : State) (r : Rod) : State :=
  r.links.foldl (fun s l =>
    if l.fidA = s.fid ∨ l.fidB = s.fid then s
    else match (s.nearEnds l).findSome? fun e => s.reportAt e.1 e.2.port with
      | none => s
      | some x => s.setRoute fun t => { t with capMap := tset t.capMap (linkIdent l) (capWord l.index
          (if (repState x) = 2 then s.c0Of x else 0) l.minWidth (repWidth x) (b2n l.offRack) (repState x)) }) s

/-- The comparison is made again. -/
def State.compareRod (s : State) : State :=
  let r := s.theRod
  let ms := s.mismatchesNow r
  ((s.setBoot fun b => { b with mismatches := ms }).wr GEN_ROD_MISMATCHES ms.length).capReports r

end Sys2Proof.Machine
end

