-- ==== Sys2Proof/Machine/Crypto.lean ====
section
/-! DEFINITION. The hash, MAC, key-derivation and cipher functions of the standards that R5 names: SHA-256 (FIPS 180-4),
HMAC-SHA-256 (FIPS 198-1), SP 800-108 in counter mode in the layout of R246, AES-256 (FIPS 197), AES-256-GCM (SP 800-38D) and
AES-256-XTS (IEEE 1619). -/

namespace Sys2Proof.Machine

/-- The ASCII bytes of a text. -/
def ascii (t : String) : List Byte := t.toList.map fun c => BitVec.ofNat 8 c.toNat

/-- The number whose big-endian bytes are `bs`. -/
def beNat (bs : List Byte) : Nat := bs.foldl (fun a b => a * 256 + b.toNat) 0

/-- The `n` big-endian bytes of a number. -/
def beBytes (n x : Nat) : List Byte := (leBytes n x).reverse

/-- Byte strings joined by exclusive or, as long as the shorter. -/
def xorBytes (a b : List Byte) : List Byte := List.zipWith (fun x y => x ^^^ y) a b

/-! ### SHA-256 (FIPS 180-4) -/

/-- The 64 round constants. -/
def shaK : List Nat :=
  [0x428a2f98, 0x71374491, 0xb5c0fbcf, 0xe9b5dba5, 0x3956c25b, 0x59f111f1, 0x923f82a4, 0xab1c5ed5,
   0xd807aa98, 0x12835b01, 0x243185be, 0x550c7dc3, 0x72be5d74, 0x80deb1fe, 0x9bdc06a7, 0xc19bf174] ++
  [0xe49b69c1, 0xefbe4786, 0x0fc19dc6, 0x240ca1cc, 0x2de92c6f, 0x4a7484aa, 0x5cb0a9dc, 0x76f988da,
   0x983e5152, 0xa831c66d, 0xb00327c8, 0xbf597fc7, 0xc6e00bf3, 0xd5a79147, 0x06ca6351, 0x14292967] ++
  [0x27b70a85, 0x2e1b2138, 0x4d2c6dfc, 0x53380d13, 0x650a7354, 0x766a0abb, 0x81c2c92e, 0x92722c85,
   0xa2bfe8a1, 0xa81a664b, 0xc24b8b70, 0xc76c51a3, 0xd192e819, 0xd6990624, 0xf40e3585, 0x106aa070] ++
  [0x19a4c116, 0x1e376c08, 0x2748774c, 0x34b0bcb5, 0x391c0cb3, 0x4ed8aa4a, 0x5b9cca4f, 0x682e6ff3,
   0x748f82ee, 0x78a5636f, 0x84c87814, 0x8cc70208, 0x90befffa, 0xa4506ceb, 0xbef9a3f7, 0xc67178f2]

/-- The eight working variables. -/
structure Sha where
  a : Nat
  b : Nat
  c : Nat
  d : Nat
  e : Nat
  f : Nat
  g : Nat
  h : Nat
  deriving DecidableEq, Repr

/-- The initial hash value. -/
def shaInit : Sha :=
  ⟨0x6a09e667, 0xbb67ae85, 0x3c6ef372, 0xa54ff53a,
   0x510e527f, 0x9b05688c, 0x1f83d9ab, 0x5be0cd19⟩

/-- A 32-bit word rotated right. -/
def rotr32 (x n : Nat) : Nat := (x / 2 ^ n + x * 2 ^ (32 - n)) % 2 ^ 32

/-- Exclusive or of three numbers. -/
def xor3 (x y z : Nat) : Nat := Nat.xor (Nat.xor x y) z

/-- The rounds of one block over the constants that remain; `w` is the window of the next 16 schedule words. -/
def shaRounds : List Nat → List Nat → Sha → Sha
  | [], _, v => v
  | k :: ks, w, v =>
    let w0 := nth w 0
    let s0 := xor3 (rotr32 (nth w 1) 7) (rotr32 (nth w 1) 18) (nth w 1 / 2 ^ 3)
    let s1 := xor3 (rotr32 (nth w 14) 17) (rotr32 (nth w 14) 19) (nth w 14 / 2 ^ 10)
    let ch := Nat.xor (Nat.land v.e v.f) (Nat.land (2 ^ 32 - 1 - v.e) v.g)
    let maj := xor3 (Nat.land v.a v.b) (Nat.land v.a v.c) (Nat.land v.b v.c)
    let t1 := v.h + xor3 (rotr32 v.e 6) (rotr32 v.e 11) (rotr32 v.e 25) + ch + k + w0
    let t2 := xor3 (rotr32 v.a 2) (rotr32 v.a 13) (rotr32 v.a 22) + maj
    shaRounds ks (w.drop 1 ++ [(s1 + nth w 9 + s0 + w0) % 2 ^ 32])
      ⟨(t1 + t2) % 2 ^ 32, v.a, v.b, v.c, (v.d + t1) % 2 ^ 32, v.e, v.f, v.g⟩

/-- The words of a block, each big-endian. -/
def shaWords (bs : List Byte) : List Nat := (List.range 16).map fun i => beNat ((bs.drop (4 * i)).take 4)

/-- One block of 64 bytes. -/
def shaBlock (v : Sha) (bs : List Byte) : Sha :=
  let r := shaRounds shaK (shaWords bs) v
  let add := fun (x y : Nat) => (x + y) % 2 ^ 32
  ⟨add v.a r.a, add v.b r.b, add v.c r.c, add v.d r.d, add v.e r.e, add v.f r.f, add v.g r.g, add v.h r.h⟩

/-- The blocks of a padded message. -/
def shaBlocks : Nat → List Byte → Sha → Sha
  | 0, _, v => v
  | n + 1, bs, v => shaBlocks n (bs.drop 64) (shaBlock v (bs.take 64))

/-- The 32 bytes of SHA-256 of a byte string. -/
@[irreducible] def sha256 (bs : List Byte) : List Byte :=
  let n := bs.length
  let blocks := (n + 72) / 64
  let padded := bs ++ 0x80 :: List.replicate (64 * blocks - 9 - n) 0 ++ beBytes 8 (8 * n)
  let v := shaBlocks blocks padded shaInit
  [v.a, v.b, v.c, v.d, v.e, v.f, v.g, v.h].flatMap (beBytes 4)

/-! ### HMAC-SHA-256 and the key derivation -/

/-- HMAC-SHA-256 (FIPS 198-1). -/
@[irreducible] def hmacBytes (key msg : List Byte) : List Byte :=
  let k := if 64 < key.length then sha256 key else key
  let k := k ++ List.replicate (64 - k.length) 0
  sha256 (k.map (fun b => b ^^^ 0x5C) ++ sha256 (k.map (fun b => b ^^^ 0x36) ++ msg))

/-- HMAC-SHA-256 as a number, its first byte least significant (R6). -/
def hmac (key msg : List Byte) : Nat := leNat (hmacBytes key msg)

/-- SP 800-108 in counter mode with HMAC-SHA-256 in the layout of R246: the first `len` bits, a multiple of 8. -/
@[irreducible] def kdfBytes (key label ctx : List Byte) (len : Nat) : List Byte :=
  ((List.range ((len + 255) / 256)).flatMap fun i =>
    hmacBytes key (leBytes 4 (i + 1) ++ label ++ 0 :: ctx ++ leBytes 4 len)).take (len / 8)

/-- The derived key as a number, its first byte least significant (R6). -/
def kdf (key label ctx : List Byte) (len : Nat) : Nat := leNat (kdfBytes key label ctx len)

/-! ### AES-256 (FIPS 197) -/

/-- The S-box, byte `x` at bits [8x + 7:8x]. -/
def aesBox : Nat :=
  0x16bb54b00f2d99416842e6bf0d89a18cdf2855cee9871e9b948ed9691198f8e19e1dc186b95735610ef6034866b53e708a8bbd4b1f74dde8c6b4a61c2e2578ba08ae7a65eaf4566ca94ed58d6d37c8e779e4959162acd3c25c2406490a3a32e0db0b5ede14b8ee4688902a22dc4f816073195d643d7ea7c41744975fec130ccdd2f3ff1021dab6bcf5389d928f40a351a89f3c507f02f94585334d43fbaaefd0cf584c4a39becb6a5bb1fc20ed00d153842fe329b3d63b52a05a6e1b1a2c830975b227ebe28012079a059618c323c7041531d871f1e5a534ccf73f362693fdb7c072a49cafa2d4adf04759fa7dc982ca76abd7fe2b670130c56f6bf27b777c63

/-- One byte through the S-box. -/
def aesSub (x : Nat) : Nat := aesBox / 2 ^ (8 * x) % 256

/-- Multiplication by 2 in the field of AES. -/
def aesTwo (x : Nat) : Nat := if x < 128 then 2 * x else Nat.xor (2 * x) 0x11B

/-- Lists joined by exclusive or. -/
def xorNats (a b : List Nat) : List Nat := List.zipWith Nat.xor a b

/-- The 32-bit words of the key schedule from word `i` on; `w` holds the last eight. -/
def aesSchedule : Nat → Nat → Nat → List (List Nat) → List (List Nat)
  | 0, _, _, _ => []
  | n + 1, i, rcon, w =>
    let t := w.getD 7 []
    let t := if i % 8 = 0 then xorNats ((t.drop 1 ++ t.take 1).map aesSub) [rcon, 0, 0, 0]
      else if i % 8 = 4 then t.map aesSub else t
    let x := xorNats (w.getD 0 []) t
    x :: aesSchedule n (i + 1) (if i % 8 = 0 then aesTwo rcon else rcon) (w.drop 1 ++ [x])

/-- The 15 round keys of 16 bytes. -/
def aesKeys (key : List Byte) : List (List Nat) :=
  let w := (List.range 8).map fun i => ((key.drop (4 * i)).take 4).map BitVec.toNat
  let all := w ++ aesSchedule 52 8 1 w
  (List.range 15).map fun r => ((all.drop (4 * r)).take 4).flatten

/-- SubBytes and ShiftRows on the 16 bytes, column by column. -/
def aesShift (s : List Nat) : List Nat :=
  (List.range 16).map fun i => aesSub (nth s (i % 4 + 4 * ((i / 4 + i % 4) % 4)))

/-- MixColumns. -/
def aesMix (s : List Nat) : List Nat :=
  (List.range 16).map fun i =>
    let a := fun (k : Nat) => nth s (i / 4 * 4 + (i + k) % 4)
    Nat.xor (xor3 (aesTwo (a 0)) (aesTwo (a 1)) (a 1)) (Nat.xor (a 2) (a 3))

/-- The rounds over the round keys that remain; the last mixes no columns. -/
def aesRounds : List (List Nat) → List Nat → List Nat
  | [], s => s
  | [k], s => xorNats (aesShift s) k
  | k :: ks, s => aesRounds ks (xorNats (aesMix (aesShift s)) k)

/-- AES-256 encryption of a block under a key schedule. -/
def aesWith (ks : List (List Nat)) (block : List Byte) : List Byte :=
  match ks with
  | [] => block
  | k :: r => (aesRounds r (xorNats (block.map BitVec.toNat) k)).map fun x => BitVec.ofNat 8 x

/-- AES-256 encryption of a block of 16 bytes under a key of 32. -/
@[irreducible] def aes256 (key block : List Byte) : List Byte := aesWith (aesKeys key) block

/-! ### AES-256-GCM (SP 800-38D) -/

/-- The product in the field of GCM: block bit 0 is bit 127 of the number. -/
def gcmMul (x : Nat) : Nat → Nat → Nat → Nat
  | 0, _, z => z
  | n + 1, v, z =>
    gcmMul x n (if v % 2 = 1 then Nat.xor (v / 2) (0xE1 * 2 ^ 120) else v / 2) (if bit x n then Nat.xor z v else z)

/-- The 16-byte pieces of a byte string, the last filled up with zeros. -/
def blocks16 : Nat → List Byte → List (List Byte)
  | 0, _ => []
  | n + 1, bs => if bs.isEmpty then [] else (bs.take 16 ++ List.replicate (16 - min 16 bs.length) 0) :: blocks16 n (bs.drop 16)

/-- The pieces of the whole string. -/
def pieces16 (bs : List Byte) : List (List Byte) := blocks16 (bs.length / 16 + 1) bs

/-- GHASH of blocks under a hash key. -/
def ghash (h : List Byte) (bs : List (List Byte)) : Nat :=
  bs.foldl (fun y b => gcmMul (Nat.xor y (beNat b)) 128 (beNat h) 0) 0

/-- Block `i` of the key stream, counted from the tag's mask 0. -/
def gcmStream (ks : List (List Nat)) (nonce : List Byte) (i : Nat) : List Byte := aesWith ks (nonce ++ beBytes 4 (i + 1))

/-- AES-256-GCM encryption, which is also decryption: block `first` of the message is the first of `text`. -/
@[irreducible] def gcmText (key nonce first : Nat) (text : List Byte) : List Byte :=
  let ks := aesKeys (leBytes 32 key)
  (((pieces16 text).zipIdx).flatMap fun p => xorBytes p.1 (gcmStream ks (leBytes 12 nonce) (first + p.2 + 1))).take text.length

/-- The 16 tag bytes of the additional data and the ciphertext, as a number (R6). -/
@[irreducible] def gcmTag (key nonce : Nat) (aad ct : List Byte) : Nat :=
  let ks := aesKeys (leBytes 32 key)
  let h := aesWith ks (List.replicate 16 0)
  let y := ghash h (pieces16 aad ++ pieces16 ct ++ [beBytes 8 (8 * aad.length) ++ beBytes 8 (8 * ct.length)])
  leNat (xorBytes (beBytes 16 y) (gcmStream ks (leBytes 12 nonce) 0))

/-! ### AES-256-XTS (IEEE 1619) -/

/-- The blocks of a data unit under successive tweaks. -/
def xtsBlocks (ks : List (List Nat)) : List (List Byte) → Nat → List Byte
  | [], _ => []
  | b :: r, t =>
    xorBytes (aesWith ks (xorBytes b (leBytes 16 t))) (leBytes 16 t) ++
      xtsBlocks ks r (if t < 2 ^ 127 then 2 * t else Nat.xor (2 * t - 2 ^ 128) 0x87)

/-- Encryption of a data unit of whole blocks: data key, tweak key, tweak. -/
@[irreducible] def xtsSeal (key tweakKey : List Byte) (tweak : Nat) (text : List Byte) : List Byte :=
  xtsBlocks (aesKeys key) (pieces16 text) (leNat (aes256 tweakKey (leBytes 16 tweak)))

end Sys2Proof.Machine
end

