-- ==== Sys2Proof/Machine/Fec.lean ====
section
/-! DEFINITION. The RS(544,514) code of the fabric lanes and the layout of a codeword (R68, R69; log entry 128). -/

namespace Sys2Proof.Machine

/-! ### The field of 1,024 elements, over x^10 + x^3 + 1 -/

/-- Multiplication by 2. -/
def gfTwo (a : Nat) : Nat := if a < 512 then 2 * a else Nat.xor (2 * a) 0x409

/-- The product of `a` and the low `n` bits of `b`, onto `acc`. -/
def gfMulOn : Nat → Nat → Nat → Nat → Nat
  | 0, _, _, acc => acc
  | n + 1, a, b, acc => gfMulOn n (gfTwo a) (b / 2) (if b % 2 = 1 then Nat.xor acc a else acc)

/-- The product. -/
def gfMul (a b : Nat) : Nat := gfMulOn 10 a b 0

/-- The power with exponent below 2^n. -/
def gfPowOn : Nat → Nat → Nat → Nat
  | 0, _, _ => 1
  | n + 1, a, e => if e % 2 = 1 then gfMul a (gfPowOn n (gfMul a a) (e / 2)) else gfPowOn n (gfMul a a) (e / 2)

/-- Powers of the root of the field's polynomial; exponents count modulo 1,023. -/
def gfAlpha (e : Nat) : Nat := gfPowOn 10 2 (e % 1023)

/-- The inverse of an element other than 0. -/
def gfInv (a : Nat) : Nat := gfPowOn 10 a 1022

/-- The value of a polynomial, its coefficients by rising power. -/
def gfEval (p : List Nat) (x : Nat) : Nat := p.foldr (fun c v => Nat.xor c (gfMul v x)) 0

/-- The sum of two polynomials. -/
def gfAdd : List Nat → List Nat → List Nat
  | [], q => q
  | p, [] => p
  | a :: p, b :: q => Nat.xor a b :: gfAdd p q

/-- The product of two polynomials. -/
def gfPolyMul : List Nat → List Nat → List Nat
  | [], _ => []
  | a :: p, q => gfAdd (q.map (gfMul a)) (0 :: gfPolyMul p q)

/-! ### The code -/

/-- The generator polynomial: the product of x − α^i for i = 0 to 29, by rising power. -/
def rsGen : List Nat := (List.range 30).foldl (fun g i => gfPolyMul g [gfAlpha i, 1]) [1]

/-- The 30 parity symbols of 514 message symbols, in the order of transmission. -/
def rsParity (msg : List Nat) : List Nat :=
  let g := (rsGen.take 30).reverse
  msg.foldl (fun r m =>
    let f := Nat.xor m (nth r 0)
    List.zipWith Nat.xor (r.drop 1 ++ [0]) (g.map (gfMul f))) (List.replicate 30 0)

/-- The codeword of 514 message symbols. -/
def rsEncode (msg : List Nat) : List Nat := msg ++ rsParity msg

/-- The 30 syndromes of a received word; the first symbol has the highest power. -/
def rsSyndromes (w : List Nat) : List Nat :=
  (List.range 30).map fun i => let a := gfAlpha i; w.foldl (fun v c => Nat.xor (gfMul v a) c) 0

/-- The state of the search for the error locator. -/
structure RsSearch where
  c : List Nat
  b : List Nat
  l : Nat
  m : Nat
  bb : Nat
  deriving DecidableEq, Repr

/-- One step of the search over the syndromes (Berlekamp and Massey). -/
def rsStep (syn : List Nat) (z : RsSearch) (n : Nat) : RsSearch :=
  let d := (List.range (z.l + 1)).foldl (fun a i => Nat.xor a (gfMul (nth z.c i) (nth syn (n - i)))) 0
  if d = 0 then { z with m := z.m + 1 }
  else
    let c := gfAdd z.c ((List.replicate z.m 0 ++ z.b).map (gfMul (gfMul d (gfInv z.bb))))
    if 2 * z.l ≤ n then ⟨c, z.c, n + 1 - z.l, 1, d⟩ else { z with c := c, m := z.m + 1 }

/-- The error locator of the syndromes, with its degree. -/
def rsLocator (syn : List Nat) : List Nat × Nat :=
  let z := (List.range 30).foldl (rsStep syn) ⟨[1], [1], 0, 1, 1⟩
  (z.c, z.l)

/-- The corrections of a received word: index and value of each symbol in error; none where no codeword lies within 15 symbols. -/
def rsErrors (w : List Nat) : Option (List (Nat × Nat)) :=
  let syn := rsSyndromes w
  if syn.all (· == 0) then some []
  else
    let loc := rsLocator syn
    let roots := (List.range 544).filter fun i => gfEval loc.1 (gfAlpha (1023 + i - 543)) == 0
    if 15 < loc.2 ∨ roots.length ≠ loc.2 then none
    else
      let omega := (gfPolyMul syn loc.1).take 30
      let deriv := (loc.1.drop 1).zipIdx.map fun p => if p.2 % 2 = 0 then p.1 else 0
      some (roots.map fun i =>
        let inv := gfAlpha (1023 + i - 543)
        (i, gfMul (gfAlpha (543 - i)) (gfMul (gfEval omega inv) (gfInv (gfEval deriv inv)))))

/-- The corrected word with the indices of the symbols corrected; none where the FEC cannot correct it (R69). -/
def rsDecode (w : List Nat) : Option (List Nat × List Nat) :=
  if w.length ≠ 544 ∨ w.any (fun x => decide (1024 ≤ x)) then none
  else match rsErrors w with
    | none => none
    | some es =>
      let fixed := es.foldl (fun w e => w.modify e.1 fun x => Nat.xor x e.2) w
      if (rsSyndromes fixed).all (· == 0) then some (fixed, es.map (·.1)) else none

/-! ### The layout of a codeword (R60 to R62, R68 to R70) -/

/-- The number whose 10-bit digits, the least significant first, are the message symbols. -/
def symbolsNat (msg : List Nat) : Nat := msg.foldr (fun s a => s + 1024 * a) 0

/-- The cell of 512 bits. -/
def cellOfBits (x : Nat) : Cell :=
  let h := bits x 63 0
  let t := bits x 511 448
  { dst := bits h 63 50, src := bits h 49 36, vc := bits h 35 34, type := bits h 33 28, gen := bits h 27 24, epoch := bits h 23 20
    seq := bits h 19 4, flags := bits h 3 0, offset := bits t 63 32, cidx := bits t 31 16, crc := bits t 15 0
    payload := (List.range 6).map fun i => word (bits x (64 * i + 127) (64 * i + 64)) }

/-- The position of 512 bits: a control position where POSMAP says so, else a cell (R69). -/
def positionOf (isControl : Bool) (x : Nat) : Position :=
  if isControl then .control (word x) ((List.range 7).map fun i => word (bits x (64 * i + 127) (64 * i + 64)))
  else .cell (cellOfBits x)

/-- The header and the ten positions of the message symbols (R68, R69). -/
def messageOf (msg : List Nat) : Nat × List Position :=
  let m := symbolsNat msg
  let h := bits m 19 0
  (h, (List.range 10).map fun i => positionOf (bit h (10 + i)) (bits m (512 * i + 531) (512 * i + 20)))

end Sys2Proof.Machine
end

