-- ==== Sys2Proof/Machine/Time.lean ====
section
/-! DEFINITION. The timekeeper of the DZ8: the reference, the count, holdover, relock and the period change (R29 to R59). -/

namespace Sys2Proof.Machine

/-- The allowed beat periods: the divisors of 10^9 from 256 to 16,000 (R36). -/
def periodOk (p : Nat) : Bool := decide (256 ≤ p) && decide (p ≤ 16000) && 1000000000 % p == 0

/-- The beat count at TAI second `sec` for the period `p` (R37). -/
def State.countAt (s : State) (sec p : Nat) : Nat := (sec - s.rd TMK_EPOCH_SEC) * 1000000000 / p

/-- The counter starts at TAI time `ns` in nanoseconds with the state `st` (R37, R59): the count and the phase are those of that
time. -/
def State.startCount (s : State) (ns st : Nat) : State :=
  let t := ns - s.rd TMK_EPOCH_SEC * 1000000000
  ((s.setTime fun x => { x with beat := t / s.period, phase := t % s.period * 256 / s.period, counting := true }).wr
    TMK_STAT_STATE st).notifyTime

/-- The time record that the RoT writes when ENABLE becomes 1 (R444). -/
def State.timeRecordNow (s : State) (src : Nat) : TimeRec where
  src := src
  epoch := s.rd TMK_EPOCH_SEC
  period := s.period
  refDelay := s.rd TMK_REF_DELAY_DELAY_NS
  xdom := s.rd TMK_XDOM_LIMIT_NS * 2 ^ 16 + s.rd TMK_XDOM_HOLD_PPB
  ptpCfg := s.rd TMK_PTP_CFG_LOG_SYNC * 2 ^ 8 + s.rd TMK_PTP_CFG_DOMAIN

/-- ENABLE becomes 1 (R56, R59 step 3): free run starts at the TMK_TOD second, another source acquires. -/
def State.tmkStart (s : State) : State :=
  let s := (s.wr TMK_CTRL_ENABLE 1).setBoot fun b => { b with timeRec := some (s.timeRecordNow (s.rd TMK_CTRL_SRC)) }
  let s := s.setTime fun t => { t with ppsGood := 0, todMissed := 0, syncGood := 0, qualified := false }
  if s.rd TMK_CTRL_SRC = 2 then (s.startCount (s.rd TMK_TOD_SEC * 1000000000) 4).wr TMK_TOD_SEC (s.rd TMK_TOD_SEC + 1)
  else (s.wr TMK_STAT_STATE 1).notifyTime

/-- The time in holdover so far, ns (R49). -/
def State.holdNs (s : State) : Nat := match s.time.holdStartNs with | some t => s.time.nowNs - t | none => 0

/-- The estimated error E in ps: E0 + HOLD_PPB × T (R49). -/
def State.estPs (s : State) : Nat := s.time.lockErrPs + s.rd TMK_XDOM_HOLD_PPB * s.holdNs / 1000000

/-- A holdover ends: TMK_HOLD_EST keeps its time and its estimate (R58). -/
def State.endHold (s : State) : State :=
  let s := match s.time.holdStartNs with
    | none => s
    | some _ => (s.wr TMK_HOLD_EST_HOLD_MS (s.holdNs / 1000000)).wr TMK_HOLD_EST_EST_NS (s.estPs / 1000)
  s.setTime fun t => { t with holdStartNs := none, slewLeft := 0, stepWait := false }

/-- ENABLE becomes 0 (R56): the counter stops, its count is discarded, and no change stays pending (R38). -/
def State.tmkStop (s : State) : State :=
  let s := s.endHold.setTime fun t => { t with
    beat := 0, phase := 0, counting := false, ppsGood := 0, todMissed := 0, syncGood := 0, qualified := false, announced := false }
  (((((s.wr TMK_CTRL_ENABLE 0).wr TMK_STAT_STATE 0).wr TMK_STAT_SLEWING 0).wr TMK_STAT_PCHG 0).wr
    TMK_STAT_XDOM_UNSAFE 0).wr TMK_PERIOD_NEXT_PERIOD_NS 0 |>.notifyTime

/-- TMK_ENABLE_WRITE (R56). -/
def execTmkEnableWrite (enable : Bool) (s : State) : Out :=
  .next (if enable then (if s.on TMK_CTRL_ENABLE then s else s.tmkStart)
    else if s.live || !s.on TMK_CTRL_ENABLE then s else s.tmkStop)

/-- TMK_STEP (R50): ignored, with a MINOR fault, while jobs are armed. -/
def execTmkStep (s : State) : Out :=
  .next (if s.anyArmed then s.detect .dz8 tmkPg 4 0 none else s.wr TMK_CTRL_STEP 1)

/-! ### Steps that resume (R146) -/

/-- The step record of a step number. -/
def Image.step (m : Image) (i : Nat) : StepRec := m.steps.getD i ⟨0, 0, false⟩

/-- The image of a context's timetable. -/
def State.img (s : State) (c : Nat) : Option Image := (s.ttb c).image

/-- START of a context's next step. -/
def State.nextStart (s : State) (c : Nat) : Nat :=
  match s.img c with
  | some m => (m.step (s.rd (TTB_STEP_NEXT (ttbPg c)))).start
  | none => 0

/-- The base takes the value with which the next step begins at beat `r` (R146). -/
def State.rebase (s : State) (c r : Nat) : State := s.wr (TTB_BASE_BEAT (ttbPg c)) (r - s.nextStart c)

/-- A pause ends at beat `r`: the next step begins there (R146). -/
def State.resumeTtb (s : State) (c r : Nat) : State :=
  let s := ((s.wr (TTB_STAT_PAUSED (ttbPg c)) 0).wr (TTB_STAT_XDOM_HELD (ttbPg c)) 0).setTtb c fun t => { t with flipPaused := false }
  (s.rebase c r).notifyJob c 2 0

/-- XDOM_UNSAFE has cleared: timetables held by it resume at the next beat (R146). -/
def State.resumeXdom (s : State) : State :=
  contexts.foldl (fun s c => if s.on (TTB_STAT_XDOM_HELD (ttbPg c)) && s.on (TTB_STAT_PAUSED (ttbPg c)) then s.resumeTtb c (s.time.beat + 1)
    else s) s

/-- Holdover ends: LOCKED, XDOM_UNSAFE clears, and the last holdover stays shown (R50, R58). -/
def State.relocked (s : State) : State :=
  (((s.endHold.wr TMK_STAT_SLEWING 0).wr TMK_STAT_XDOM_UNSAFE 0).wr TMK_STAT_STATE 2).notifyTime.resumeXdom

/-- COUNTER_STEP (R50): a requested step sets the count to that of the TAI second in progress, TMK_TOD − 1 (R37); with a reference
to step to: a qualified source, or the unit's own count in free run. -/
def execCounterStep (s : State) : Out :=
  .next (if s.on TMK_CTRL_STEP && s.time.counting && (s.time.qualified || s.rd TMK_CTRL_SRC == 2) then
    let s := (s.setTime fun t => { t with beat := s.countAt (s.rd TMK_TOD_SEC - 1) s.period, phase := 0 }).wr TMK_CTRL_STEP 0
    if s.rd TMK_STAT_STATE = 3 then s.relocked else s
    else s)

/-- A write of TMK_PERIOD_NEXT is ignored and sets PERIOD_REJ. -/
def State.periodRej (s : State) : State := s.wr TMK_STAT_PERIOD_REJ 1

/-- TMK_PERIOD_NEXT_WRITE (R36, R38, R59). A second valid write replaces the pending change and takes its announcement back
(DESIGN CHOICE, log entry 129). -/
def execTmkPeriodNextWrite (atSec periodNs : Nat) (s : State) : Out :=
  .next (if periodNs = 0 then
      if s.on TMK_CTRL_ENABLE && s.on TMK_STAT_PCHG && !s.time.announced then
        ((s.wr TMK_PERIOD_NEXT_AT_SEC atSec).wr TMK_PERIOD_NEXT_PERIOD_NS 0).wr TMK_STAT_PCHG 0
      else s.periodRej
    else if !periodOk periodNs then s.periodRej
    else if s.on TMK_CTRL_ENABLE then
      if s.rd TMK_TOD_SEC - 1 + 2 ≤ atSec ∧ ¬ s.anyArmed then
        (((s.wr TMK_PERIOD_NEXT_AT_SEC atSec).wr TMK_PERIOD_NEXT_PERIOD_NS periodNs).wr TMK_STAT_PCHG 1).setTime
          fun t => { t with announced := false }
      else s.periodRej
    else if atSec = 0 then s.wr TMK_PERIOD_PERIOD_NS periodNs else s.periodRej)

/-- PERIOD_ANNOUNCE_BEGIN (R38): from here the beat words carry PCHG. -/
def execPeriodAnnounceBegin (s : State) : Out :=
  .next (if s.on TMK_STAT_PCHG then s.setTime fun t => { t with announced := true } else s)

/-- The pending change takes place (R38): at second S the count becomes floor((S − EPOCH) × 10^9 / P_new), the phase 0. -/
def State.changePeriod (s : State) : State :=
  let p := s.rd TMK_PERIOD_NEXT_PERIOD_NS
  let s := s.setTime fun t =>
    { t with beat := s.countAt (s.rd TMK_PERIOD_NEXT_AT_SEC) p, phase := 0, announced := false }
  ((s.wr TMK_PERIOD_PERIOD_NS p).wr TMK_STAT_PCHG 0).wr TMK_PERIOD_NEXT_PERIOD_NS 0

/-- A timetable armed before S cancels the pending change (R38). -/
def State.cancelPeriod (s : State) : State :=
  if s.on TMK_STAT_PCHG then
    (((s.wr TMK_STAT_PCHG 0).wr TMK_STAT_PERIOD_REJ 1).wr TMK_PERIOD_NEXT_PERIOD_NS 0).setTime
      fun t => { t with announced := false }
  else s

/-- XDOM_UNSAFE becomes 1 with its SEVERE fault (R49). -/
def State.setXdom (s : State) : State :=
  if s.on TMK_STAT_XDOM_UNSAFE then s
  else ((s.wr TMK_STAT_XDOM_UNSAFE 1).detect .dz8 tmkPg 1 0 none).notifyTime

/-- A source qualifies again during holdover with the offset `off` in ps (R50): slew below P/2, else one SEVERE fault, and
XDOM_UNSAFE without a fault of its own. -/
def State.relock (s : State) (off : Int) : State :=
  if 2 * off.natAbs < s.period * 1000 then
    if off = 0 then s.relocked
    else (s.wr TMK_STAT_SLEWING 1).setTime fun t => { t with slewLeft := off * 256 }
  else
    let s := (s.detect .dz8 tmkPg 2 off.natAbs none).setTime fun t => { t with stepWait := true }
    if s.on TMK_STAT_XDOM_UNSAFE then s else (s.wr TMK_STAT_XDOM_UNSAFE 1).notifyTime

/-- A good measurement of a source that is qualified when `enough` holds: it locks, tracks or relocks (R32, R33, R50, R59);
`ns` is the TAI time at which a counter that starts begins. -/
def State.measured (s : State) (enough : Bool) (off : Int) (ns : Nat) : State :=
  let put := fun (s : State) => (s.wr TMK_OFFSET_OFFSET_PS (unsigned 32 off)).setTime
    fun t => { t with lockErrPs := off.natAbs }
  match s.rd TMK_STAT_STATE with
  | 1 => if enough then (put (s.setTime fun t => { t with qualified := true })).startCount ns 2 else s
  | 2 => put s
  | 3 => if enough && !s.time.qualified then
      ((s.wr TMK_OFFSET_OFFSET_PS (unsigned 32 off)).setTime fun t => { t with qualified := true }).relock off
    else s
  | _ => s

/-- The TAI second that an edge begins: that of TMK_TOD, or the one before it when the edge comes late in a second that PPS_MISSING
has counted already (R37); `spacingNs` is the spacing to the last edge less 1 s. -/
def State.edgeSec (s : State) (spacingNs : Int) : Nat :=
  let k := s.time.todMissed
  if k ≠ 0 ∧ 2 * spacingNs < 1000000000 * (2 * (k : Int) - 1) then s.rd TMK_TOD_SEC - 1 else s.rd TMK_TOD_SEC

/-- PPS_EDGE (R32, R37): counts the edge, advances TMK_TOD, and measures the offset after TMK_REF_DELAY. -/
def execPpsEdge (spacingNs refCycles edgePs : Int) (s : State) : Out :=
  .next (if s.on TMK_CTRL_ENABLE && s.rd TMK_CTRL_SRC == 0 then
    let sec := s.edgeSec spacingNs
    let n := if 2 < refCycles.natAbs then 0 else if 1000 < spacingNs.natAbs then 1 else min 8 (s.time.ppsGood + 1)
    let off := edgePs - 1000 * signed 16 (s.rd TMK_REF_DELAY_DELAY_NS)
    ((s.wr TMK_TOD_SEC (sec + 1)).setTime fun t => { t with ppsGood := n, todMissed := 0 }).measured (decide (8 ≤ n)) off
      (sec * 1000000000)
    else s)

/-- PTP_SYNC (R31, R32, R37): a usable Sync message of the configured domain within the accepted intervals, at TAI time `taiNs`; it
is answered with a Delay_Req (log entry 124). Any other Sync of the domain breaks the run of good intervals. -/
def execPtpSync (domain : Nat) (logInterval offsetPs : Int) (taiNs : Nat) (usable : Bool) (s : State) : Out :=
  .next (if s.on TMK_CTRL_ENABLE && s.rd TMK_CTRL_SRC == 1 && domain == s.rd TMK_PTP_CFG_DOMAIN then
      if usable && decide (-7 ≤ logInterval) && decide (logInterval ≤ 0) then
        let n := if offsetPs.natAbs < 20000 then min 16 (s.time.syncGood + 1) else 0
        let s := (s.wr TMK_TOD_SEC (taiNs / 1000000000 + 1)).setTime fun t => { t with syncGood := n }
        (s.measured (decide (16 ≤ n)) offsetPs taiNs).frame (.delayReq domain)
      else s.setTime fun t => { t with syncGood := 0 }
    else s)

/-- Loss of the reference (R47, R48, R50): holdover from LOCKED; a loss during a slew ends the slew. -/
def State.refLoss (s : State) : State :=
  let s := s.setTime fun t => { t with qualified := false, ppsGood := 0, syncGood := 0 }
  if s.rd TMK_STAT_STATE = 2 then
    let s := (s.setTime fun t => { t with holdStartNs := some t.nowNs }).wr TMK_STAT_STATE 3
    let s := (s.wr TMK_HOLD_EST_HOLD_MS 0).wr TMK_HOLD_EST_EST_NS 0
    (s.detect .dz8 tmkPg 0 0 none).notifyTime
  else if s.rd TMK_STAT_STATE = 3 ∧ s.on TMK_STAT_SLEWING then
    ((s.wr TMK_STAT_SLEWING 0).setTime fun t => { t with slewLeft := 0 }).detect .dz8 tmkPg 0 0 none
  else s

/-- The order of the best master clock algorithm on data sets (R31; log entry 12): the first is the better. -/
def masterBetter (a b : Master) : Bool :=
  let k := fun (m : Master) => [m.priority1, m.clockClass, m.accuracy, m.variance, m.priority2, m.identity, m.stepsRemoved]
  decide (k a < k b)

/-- The best of the announced masters. -/
def bestMaster : List Master → Option Master
  | [] => none
  | m :: ms => match bestMaster ms with
    | none => some m
    | some b => if masterBetter b m then some b else some m

/-- PTP_ANNOUNCE (R31, R47): the best master is selected; one whose clockClass is not traceable is a loss. -/
def execPtpAnnounce (domain : Nat) (master : Master) (s : State) : Out :=
  .next (if s.rd TMK_CTRL_SRC == 1 && domain == s.rd TMK_PTP_CFG_DOMAIN then
    let s := s.setTime fun t => { t with masters := (t.masters.filter fun m => m.identity != master.identity) ++ [master] }
    match bestMaster s.time.masters with
    | none => s
    | some b =>
      let s := s.wr TMK_PTP_GMID_CLOCK_ID b.identity
      if Config.traceable b.clockClass then s else s.refLoss
    else s)

/-- PPS_MISSING (R37, R47): TMK_TOD advances over the second whose edge is missing, so that TMK_TOD − 1 stays the second in
progress (log entry 130). -/
def execPpsMissing (s : State) : Out :=
  .next (if s.on TMK_CTRL_ENABLE && s.rd TMK_CTRL_SRC == 0 then
      if s.time.counting then
        ((s.wr TMK_TOD_SEC (s.rd TMK_TOD_SEC + 1)).setTime fun t => { t with todMissed := t.todMissed + 1 }).refLoss
      else s.refLoss
    else s)

/-- CADENCE_REF_LOSS (R47). -/
def execCadenceRefLoss (s : State) : Out :=
  .next (if s.on TMK_CTRL_ENABLE && s.rd TMK_CTRL_SRC == 0 then s.refLoss else s)

/-- SYNC_TIMEOUT (R47). -/
def execSyncTimeout (s : State) : Out :=
  .next (if s.on TMK_CTRL_ENABLE && s.rd TMK_CTRL_SRC == 1 then s.refLoss else s)

/-- XDOM_UNSAFE (R49): E exceeds LIMIT_NS during holdover. -/
def execXdomUnsafe (s : State) : Out :=
  .next (if s.rd TMK_STAT_STATE = 3 then s.setXdom else s)

/-- SLEW_CORRECTION (R50): at most 1/256 beat; the slew ends when nothing is left. -/
def execSlewCorrection (s : State) : Out :=
  .next (if s.on TMK_STAT_SLEWING then
    let q : Int := s.period * 1000
    let l := s.time.slewLeft
    let l' := if l.natAbs ≤ q.natAbs then 0 else if 0 < l then l - q else l + q
    let s := s.setTime fun t => { t with slewLeft := l' }
    if l' = 0 then s.relocked else s
    else s)

/-- TOD_ADVANCE (R37): a second boundary of the free-running count. -/
def execTodAdvance (s : State) : Out :=
  .next (if s.rd TMK_CTRL_SRC = 2 ∧ s.rd TMK_STAT_STATE = 4 then s.wr TMK_TOD_SEC (s.rd TMK_TOD_SEC + 1) else s)

end Sys2Proof.Machine
end

