-- ==== Sys2Proof/Machine/Ports.lean ====
section
/-! DEFINITION. Fabric ports: codewords, control words, training, link loss, credits, frames, sending and forwarding cells,
and Dovetail replay (R67 to R96, R106 to R109, R113, R310, R311). -/

namespace Sys2Proof.Machine

/-! ### Control words -/

/-- The four 14-bit counts of a CREDIT or SENT word (R71). -/
def countsOf (w : Nat) : List Nat := (List.range 4).map fun i => bits w (14 * i + 13) (14 * i)

/-- The word of four 14-bit counts (R71). -/
def countsWord (l : List Nat) : Nat := (List.range 4).foldl (fun a i => a + nth l i % 2 ^ 14 * 2 ^ (14 * i)) 0

/-- HCHK of a codeword header (R69). -/
def hchk (h : Nat) : Nat := crcBits 6 3 (bits h 19 6) 14 0

/-- CRC of a control position (R70; bit order DEDUCED, log entry 13). -/
def controlCrc (desc : Word) (slots : List Word) : Nat :=
  (List.range 7).foldl (fun c i => crcBits 24 0x864CFB (slots.getD i 0).toNat 64 c)
    (crcBits 24 0x864CFB (bits desc.toNat 63 24) 40 0xB704CE)

/-- The slots 1 to 7 of a control position with the given words; a slot without one is NOP (R69). -/
def controlSlots (ws : List (Nat × Nat)) : List Word := (List.range 7).map fun i => word (ws.getD i (0, 0)).2

/-- The descriptor of a control position with the given words (R70). -/
def controlDesc (ws : List (Nat × Nat)) (bofs kph fseq : Nat) : Word :=
  let d := (List.range 7).foldl (fun a i => a + (ws.getD i (0, 0)).1 * 2 ^ (60 - 4 * i)) 0 + bofs % 2 ^ 7 * 2 ^ 29 +
    kph % 2 * 2 ^ 28 + fseq % 16 * 2 ^ 24
  word (d + controlCrc (word d) (controlSlots ws))

/-- A position goes out: the tenth of a codeword completes its header (R68, R69). Positions that only fill the lane with NOP words
are left out (log entry 121). -/
def State.putPosition (s : State) (d : Site) (p : Nat) (isControl : Bool) : State :=
  let x := s.port d p
  let map := x.txMap + b2n isControl * 2 ^ x.txCount
  if x.txCount < 9 then s.setPort d p fun x => { x with txCount := x.txCount + 1, txMap := map }
  else
    let h := map * 2 ^ 10 + x.txSeq * 2 ^ 6
    (s.setPort d p fun x => { x with txCount := 0, txMap := 0, txSeq := (x.txSeq + 1) % 16 }).emit (.codeword d p (h + hchk h))

/-- The CREDIT and SENT words of a port, where either count has changed since the last such word (R73). -/
def PortSt.countWords (x : PortSt) : List (Nat × Nat) :=
  if x.freed != x.told.1 || x.sent != x.told.2 then [(3, countsWord x.freed), (4, countsWord x.sent)] else []

/-- Sends a control position with the given words, and the counts that have changed (R70, R73). -/
def State.sendControl (s : State) (d : Site) (p : Nat) (ws : List (Nat × Nat)) (bofs kph fseq : Nat) : State :=
  let ws := ws ++ (s.port d p).countWords
  let s := s.setPort d p fun x => { x with told := (x.freed, x.sent), sinceCtl := 0 }
  (s.emit (.control d p (controlDesc ws bofs kph fseq) (controlSlots ws))).putPosition d p true

/-- Sends a control word of a port in a control position of its own. -/
def State.ctl (s : State) (d : Site) (p kind w : Nat) : State :=
  (s.emit (.control d p (controlDesc [(kind, w)] 0 0 0) (controlSlots [(kind, w)]))).putPosition d p true

/-- Class of the named device in IDENT: 0 DZ8, 1 IA-E, 2 IA-S (R71). -/
def State.classOf (s : State) (d : Site) : Nat :=
  match d with
  | .dz8 => 0
  | .agent => if s.isLeaf then 2 else 1

/-- The named device has its FID: a Rod is in force, or the agent's GEN_FID is written (R76, R470). -/
def State.hasFid (s : State) (d : Site) : Bool := s.rdS d GEN_FID_VALID == 1

/-- Good lanes of the present attempt that no fuse marks bad (R77). -/
def State.goodLanes (s : State) (d : Site) (p : Nat) : Nat :=
  Nat.land (s.port d p).lanes (s.rdS d (PRT_STAT_GOOD_LANES (prtPgS d p)))

/-- The IDENT word of a port (R71, R76). -/
def State.identWord (s : State) (d : Site) (p : Nat) : Nat :=
  (if s.hasFid d then s.fidS d else 0) * 2 ^ 50 + p * 2 ^ 42 + s.classOf d * 2 ^ 40 + s.goodLanes d p * 2 ^ 36 +
    offers (s.goodLanes d p) * 2 ^ 32 + b2n (!s.hasFid d) * 2 ^ 31


/-- A flip runs: RTE_STAT.PHASE is neither IDLE nor FAILED (R122). -/
def State.flipRuns (s : State) : Bool := s.rd RTE_STAT_PHASE != 0 && s.rd RTE_STAT_PHASE != 8

/-- The ports with the LEDGER role. -/
def State.ledgerPorts (s : State) : List Nat := s.links.filter fun p => s.role .dz8 p == 2

/-- Some LEDGER link carries cells. -/
def State.ledgerUp (s : State) : Bool := s.ledgerPorts.any fun p => s.carries .dz8 p

/-- A link of the named device enters or leaves UP: the capacity map, the comparison with the Rod, a change that waits for the
running flip, and the poste restante of the pair (R111, R113, R122, R434, R458). -/
def State.linkChanged (s : State) (d : Site) (p : Nat) : State :=
  match d with
  | .agent => s
  | .dz8 =>
    let s := s.capUpdate p
    let s := if s.boot.rod.isSome then s.compareRod else s
    let s := if s.active && s.flipRuns && !s.on RTE_STAT_MODE then s.wr RTE_STAT_PENDING 1 else s
    if s.role .dz8 p = 2 ∧ s.active then
      if s.ledgerUp then
        if s.rd PAR_STAT_COPY = 3 then s.setPair fun q => { q with fullDue := true, genDue := true } else s
      else if s.rd PAR_STAT_COPY = 3 then s else (s.wr PAR_STAT_COPY 3).detect .dz8 parPg 1 0 none
    else s

/-! ### Frames of links that leave the rack (R91, R92, R310, R311) -/

/-- The FID of a port's far end. -/
def State.farFid (s : State) (d : Site) (p : Nat) : Nat := s.rdS d (PRT_NEIGH_FID (prtPgS d p))

/-- The key of one direction after `n` changes: from the agreed secret, by the end with the lower FID or not (R288, R310). -/
def linkKey (secret lo hi : Nat) (lower : Bool) : Nat → Nat
  | 0 =>
    let k := kdf (leBytes 64 secret) (ascii "DZ8-LINK") (leBytes 2 lo ++ leBytes 2 hi) 512
    if lower then k % 2 ^ 256 else k / 2 ^ 256
  | n + 1 => kdf (leBytes 32 (linkKey secret lo hi lower n)) (ascii "DZ8-LINK-NEXT") (leBytes 4 (n + 1)) 256

/-- The key of the direction sent by the named device (`own`) or by the far end, after `n` changes. -/
def State.frameKey (s : State) (d : Site) (p : Nat) (own : Bool) (n : Nat) : Nat :=
  let me := s.fidS d
  let far := s.farFid d p
  linkKey ((s.port d p).key.getD 0) (min me far) (max me far) (decide (me < far) == own) n

/-- Nonce of a frame (R91). -/
def frameNonce (lower : Bool) (ctr : Nat) : Nat := (if lower then 0 else 2 ^ 95) + ctr

/-- Cell `i` of a frame, encrypted or decrypted (R91). -/
def frameCell (key : Nat) (lower : Bool) (ctr i : Nat) (c : Cell) : Cell :=
  cellOfBits (leNat (gcmText key (frameNonce lower ctr) (4 * i) (cellBytes c)))

/-- The tag of a frame of encrypted cells (R91). -/
def frameTag (key : Nat) (lower : Bool) (ctr : Nat) (cells : List Cell) : Nat :=
  gcmTag key (frameNonce lower ctr) (leBytes 8 ctr ++ leBytes 1 cells.length) (cells.flatMap cellBytes)

/-- The end of the device has the lower FID of the two (R91, R310). -/
def State.lowerEnd (s : State) (d : Site) (p : Nat) : Bool := decide (s.fidS d < s.farFid d p)

/-- The open frame of a port ends: FSEQ, KPH and tag of a frame that holds cells (R91). -/
def State.frameEnd (s : State) (d : Site) (p : Nat) : Option (Nat × Nat × Nat) :=
  let x := s.port d p
  if x.openFrame.isEmpty then none
  else some (x.txFrame % 16, x.keyIndex % 2, frameTag (s.frameKey d p true x.keyIndex) (s.lowerEnd d p) x.txFrame x.openFrame)

/-- The next frame of a port begins. -/
def State.nextFrame (s : State) (d : Site) (p : Nat) : State :=
  s.setPort d p fun x => { x with openFrame := [], txFrame := (x.txFrame + 1) % 2 ^ 64 }

/-- The words that carry a tag (R71). -/
def tagWords (t : Nat) : List (Nat × Nat) := [(8, t / 2 ^ 64), (9, t % 2 ^ 64)]

/-- The open frame of a port closes, and the next control position carries its tag (R73, R91). -/
def State.closeFrame (s : State) (d : Site) (p : Nat) : State :=
  match s.frameEnd d p with
  | none => s
  | some (fseq, kph, t) => (s.nextFrame d p).sendControl d p (tagWords t) 0 kph fseq

/-! ### Link down and training -/

/-- The transmitter goes to electrical idle or leaves it. -/
def State.setIdle (s : State) (d : Site) (p : Nat) (b : Bool) : State :=
  (s.setPort d p fun x => { x with idle := b }).emit (.idle d p b)

/-- The local time of the named device in ns. -/
def State.nowS (s : State) (d : Site) : Nat :=
  match d with
  | .dz8 => s.time.nowNs
  | .agent => s.agTime.nowNs

/-- A training stage begins (R40, R71, R76). -/
def State.startStage (s : State) (d : Site) (p n : Nat) : State :=
  let s := s.setPort d p fun x => { x with stage := n, stageNs := s.nowS d, held := false }
  match n with
  | 5 => s.ctl d p 7 (s.identWord d p)
  | 6 => (List.range 16).foldl (fun s _ => s.ctl d p 5 (s.nowS d * 1000))
      (s.setPort d p fun x => { x with probes := [] })
  | 8 =>
    let s := s.setPort d p fun x => { x with
      freed := [256, 64, 64, 32], sent := [0, 0, 0, 0], received := [0, 0, 0, 0], buffered := [0, 0, 0, 0]
      told := ([256, 64, 64, 32], [0, 0, 0, 0]) }
    (s.ctl d p 3 (countsWord [256, 64, 64, 32])).ctl d p 4 0
  | _ => s

/-- A training attempt starts (R76); a port that the part lacks has none (R1). -/
def State.startAttempt (s : State) (d : Site) (p : Nat) : State :=
  if d = .dz8 ∧ s.rd LCS_PART_LINKS ≤ p then s else
  let s := s.setPort d p fun x => { x with lanes := 0, farProv := true }
  let s := (s.wrS d (PRT_STAT_WIDTH (prtPgS d p)) 0).wrS d (PRT_STAT_ENCRYPTED (prtPgS d p)) 0
  ((s.wrS d (PRT_STAT_STATE (prtPgS d p)) 1).setIdle d p false).startStage d p 1

/-- A candidate link of the agent's beat is gone (R42). -/
def State.dropCandidate (s : State) (d : Site) (p : Nat) : State :=
  match d with
  | .dz8 => s
  | .agent => s.setAgTime fun t => { t with cands := t.cands.filter fun c => c.port != p }

/-- A link that was UP or DEGRADED is lost: its cells are discarded, its credits and keys cleared, and the port's state becomes
`st` (R80, R86). -/
def State.loseLink (s : State) (d : Site) (p st : Nat) : State :=
  let pg := prtPgS d p
  let q := (s.port d p).queue
  let s := q.foldl (fun s e => (s.freeBuf d e.1).discard d p e.2 rLINKDOWN) s
  let s := s.deadLetter d (portDie p) ⟨word (s.stampS d), 0, 0, rLINKDOWN, p, 31⟩
  let s := s.setPort d p fun x => { PortSt.fresh x.port with offRack := x.offRack }
  let s := ((s.wrS d (PRT_STAT_STATE pg) st).wrS d (PRT_STAT_WIDTH pg) 0).wrS d (PRT_STAT_ENCRYPTED pg) 0
  let s := (s.setIdle d p true).dropCandidate d p
  (s.detect d pg 6 p none).linkChanged d p

/-- A link goes down in service, and the first new attempt starts at once (R80). -/
def State.linkDown (s : State) (d : Site) (p : Nat) : State :=
  if s.carries d p then (s.loseLink d p 1).startAttempt d p else s

/-- An attempt fails: it is counted, and after RETRY_MAX failures the port is parked (R79, R80). -/
def State.failAttempt (s : State) (d : Site) (p : Nat) (keyFault : Bool) : State :=
  let pg := prtPgS d p
  let n := s.rdS d (PRT_STAT_RETRY_CNT pg) + 1
  let s := s.wrS d (PRT_STAT_RETRY_CNT pg) (min n 255)
  let s := ((s.setPort d p fun x => { x with stage := 0, held := false }).wrS d (PRT_STAT_WIDTH pg) 0).wrS d
    (PRT_STAT_ENCRYPTED pg) 0
  if s.rdS d (PRT_CTRL_RETRY_MAX pg) ≤ n then
    let s := ((s.wrS d (PRT_STAT_STATE pg) 4).setIdle d p true).detect d pg 1 p none
    let s := s.reactionDone d fun r => r.kind == 2 && r.item == p
    if keyFault then s.detect d pg 2 p none else s
  else s

/-- A port in service is DEGRADED below its minimum width, else UP (R78). -/
def State.judgeWidth (s : State) (d : Site) (p : Nat) : State :=
  let pg := prtPgS d p
  let narrow := decide (s.rdS d (PRT_STAT_WIDTH pg) < s.rdS d (PRT_STAT_MIN_WIDTH pg))
  if narrow ∧ s.isUp d p then ((s.wrS d (PRT_STAT_STATE pg) 3).detect d pg 0 p none).linkChanged d p
  else if !narrow && s.prtState d p == 3 then (s.wrS d (PRT_STAT_STATE pg) 2).linkChanged d p
  else s

/-- Training ends well: the port becomes UP, or DEGRADED below its minimum width (R76, R78). -/
def State.linkUp (s : State) (d : Site) (p : Nat) : State :=
  let pg := prtPgS d p
  let s := (s.setPort d p fun x => { x with stage := 0 }).wrS d (PRT_STAT_RETRY_CNT pg) 0
  let s := if s.rdS d (PRT_STAT_WIDTH pg) < s.rdS d (PRT_STAT_MIN_WIDTH pg) then
      (s.wrS d (PRT_STAT_STATE pg) 3).detect d pg 0 p none
    else s.wrS d (PRT_STAT_STATE pg) 2
  (s.reactionDone d fun r => r.kind == 2 && r.item == p).linkChanged d p

/-- Training holds at the end of step 6: a DZ8 port whose far end is a DZ8, while either end is PROVISIONAL (R76). -/
def State.provisional (s : State) (d : Site) (p : Nat) : Bool :=
  d == .dz8 && s.rd (PRT_NEIGH_CLASS (prtPg p)) == 0 && (!s.hasFid d || (s.port d p).farProv)

/-- Past step 6: step 7 on a link that leaves the rack, else step 8 (R76). -/
def State.afterDelay (s : State) (d : Site) (p : Nat) : State :=
  if s.provisional d p then s.setPort d p fun x => { x with held := true }
  else s.startStage d p (if (s.port d p).offRack then 7 else 8)

/-- A held port goes on once both ends carry their FIDs (R76). -/
def State.releaseHold (s : State) (d : Site) (p : Nat) : State :=
  if (s.port d p).held && !s.provisional d p then s.afterDelay d p else s

/-- Width selection (R77). -/
def State.selectWidth (s : State) (d : Site) (p : Nat) (r : StageResult) : State :=
  let s := s.setPort d p fun x => { x with lanes := r.goodLanes % 16 }
  let w := widthCode (s.goodLanes d p) (r.farLanes % 16)
  if w = 0 then s.failAttempt d p false else (s.wrS d (PRT_STAT_WIDTH (prtPgS d p)) w).startStage d p 5

/-- What equalisation finds: polarity and SNR of each lane (R76, R95). -/
def State.equalised (s : State) (d : Site) (p : Nat) (r : StageResult) : State :=
  (List.range 4).foldl (fun s i => (s.wrS d (PRT_LANE_POLINV (prtPgS d p) i) (b2n (bit r.polarity i))).wrS d
    (PRT_LANE_SNR (prtPgS d p) i) (nth r.snr i)) s

/-- Link key agreement (R310): the own encapsulated secret is a random value (log entry 5). -/
def State.agreeKeys (s : State) (d : Site) (p : Nat) (r : StageResult) : State :=
  if !r.keyOk then s.failAttempt d p true
  else
    let own := s.free.1
    let lower := decide (s.fidS d < s.farFid d p)
    let lo := if lower then own else r.peerSecret
    let hi := if lower then r.peerSecret else own
    let s := s.free.2.setPort d p fun x => { x with
      key := some (lo % 2 ^ 256 + hi % 2 ^ 256 * 2 ^ 256), keyIndex := 0, rxKeyIndex := 0, rxPhaseFrames := 0
      txFrame := 0, rxFrame := 0, openFrame := [], heldFrame := [], tagRun := 0 }
    ((s.wrS d (PRT_STAT_ENCRYPTED (prtPgS d p)) 1).wrS d (PRT_GCM_KPH (prtPgS d p)) 0).startStage d p 8

/-- A completed training stage (R76, R77, R310). -/
def State.stageDone (s : State) (d : Site) (p : Nat) (r : StageResult) : State :=
  match (s.port d p).stage with
  | 1 => s.startStage d p 2
  | 2 => (s.equalised d p r).startStage d p 3
  | 3 => (s.wrS d (PRT_STAT_REVERSED (prtPgS d p)) (b2n r.reversed)).startStage d p 4
  | 4 => s.selectWidth d p r
  | 5 => s.startStage d p 6
  | 6 => s.afterDelay d p
  | 7 => s.agreeKeys d p r
  | 8 => s.linkUp d p
  | _ => s

/-- A port is in a stage of a training attempt. -/
def State.inStage (s : State) (d : Site) (p : Nat) : Bool :=
  s.prtState d p == 1 && (s.port d p).stage != 0 && !(s.port d p).held

/-- TRAIN_STAGE_DONE (R76). -/
def execTrainStageDone (site : Site) (port : Nat) (result : StageResult) (s : State) : Out :=
  .next (if s.inStage site port then s.stageDone site port result else s)

/-- TRAIN_STAGE_TIMEOUT (R76, R79). -/
def execTrainStageTimeout (site : Site) (port : Nat) (s : State) : Out :=
  .next (if s.inStage site port then s.failAttempt site port false else s)

/-- TRAIN_RETRY (R79). -/
def execTrainRetry (site : Site) (port : Nat) (s : State) : Out :=
  .next (if s.prtState site port == 1 && (s.port site port).stage == 0 then s.startAttempt site port else s)

/-- UNPARK (R79, R95). -/
def State.unparkPort (s : State) (d : Site) (p : Nat) : State :=
  let s := s.wrS d (PRT_STAT_RETRY_CNT (prtPgS d p)) 0
  if s.prtState d p = 4 then s.startAttempt d p else s

/-- UNPARK (R79). -/
def execUnpark (site : Site) (port : Nat) (s : State) : Out := .next (s.unparkPort site port)

/-- RETRAIN (R79, R95): drops the link and starts an attempt; a disabled port stays in electrical idle. -/
def State.retrainPort (s : State) (d : Site) (p : Nat) : State :=
  let s := s.wrS d (PRT_STAT_RETRY_CNT (prtPgS d p)) 0
  if s.prtState d p = 5 then s else if s.carries d p then s.linkDown d p else s.startAttempt d p

/-- RETRAIN (R95). -/
def execRetrain (site : Site) (port : Nat) (s : State) : Out := .next (s.retrainPort site port)

/-- A write of PRT_CTRL.DISABLE (R95). -/
def State.disablePort (s : State) (d : Site) (p : Nat) (b : Bool) : State :=
  let s := s.wrS d (PRT_CTRL_DISABLE (prtPgS d p)) (b2n b)
  if b then
    if s.carries d p then s.loseLink d p 5
    else if s.prtState d p = 5 then s
    else
      let s := ((s.setPort d p fun x => { x with stage := 0, held := false }).wrS d (PRT_STAT_STATE (prtPgS d p)) 5).setIdle d p true
      (s.wrS d (PRT_STAT_WIDTH (prtPgS d p)) 0).wrS d (PRT_STAT_ENCRYPTED (prtPgS d p)) 0
  else if s.prtState d p = 5 then s.startAttempt d p else s

/-- PORT_DISABLE (R95). -/
def execPortDisable (site : Site) (port : Nat) (disable : Bool) (s : State) : Out := .next (s.disablePort site port disable)

/-- NO_CORRECTABLE_CODEWORD (R80). -/
def execNoCorrectableCodeword (site : Site) (port : Nat) (s : State) : Out := .next (s.linkDown site port)

/-- ELECTRICAL_IDLE_DETECT (R80). -/
def execElectricalIdleDetect (site : Site) (port : Nat) (s : State) : Out := .next (s.linkDown site port)

/-! ### Arriving cells -/

/-- A cell is held at the border during quiet: it came on a PEER port from a domain outside the flip's scope (R115). -/
def State.atBorder (s : State) (d : Site) (p : Nat) : Bool :=
  d == .dz8 && s.quiet .dz8 && s.role .dz8 p == 1 && !(s.route.record.any fun r => r.fabric)

/-- Checks 3 to 8 of R66 for a cell that arrives on a port (R66, R83, R84, R115). -/
def State.arrive (s : State) (d : Site) (p : Nat) (c : Cell) : State :=
  if c.crc ≠ cellCrc c then s.discard d p c rCRC
  else match typeVcs c.type with
    | none => s.discard d p c rTYPE
    | some vs =>
      if (c.vc ≠ 3 ∧ ¬ vs.contains c.vc) ∨ ((c.type = tPARWR ∨ c.type = tPARACK) ∧ s.role d p ≠ 2) then s.discard d p c rVCTYPE
      else
        let s := s.setPort d p fun x => { x with received := bumpAt x.received c.vc fun n => (n + 1) % 2 ^ 14 }
        if depth c.vc ≤ nth (s.port d p).buffered c.vc then s.discard d p c rNOCREDIT
        else
          let s := s.setPort d p fun x => { x with buffered := bumpAt x.buffered c.vc (· + 1) }
          if s.atBorder d p then s.setRoute fun r => { r with border := r.border ++ [(p, c)] } else s.hop d (some p) c

/-- CELL_FORWARD (R66); the cells of an encrypted frame come encrypted and wait for its tag (R92). A SPARE port carries none (R20). -/
def execCellForward (site : Site) (port : Nat) (cell : Cell) (s : State) : Out :=
  .next (if !s.bears site port then s
    else if s.rdS site (PRT_STAT_ENCRYPTED (prtPgS site port)) = 1 then
      s.setPort site port fun x => { x with heldFrame := x.heldFrame ++ [cell] }
    else s.arrive site port cell)

/-- The receive key of a frame whose key phase is `kph`: the present key, the next one, or for 16 frames the last one (R311). -/
def PortSt.rxIndex (x : PortSt) (kph : Nat) : Nat :=
  if x.rxKeyIndex % 2 = kph % 2 then x.rxKeyIndex
  else if 0 < x.rxKeyIndex ∧ x.rxPhaseFrames < 16 then x.rxKeyIndex - 1 else x.rxKeyIndex + 1

/-- A frame whose tag verified under key `n`: its cells are decrypted and go on (R92, R311). -/
def State.frameGood (s : State) (d : Site) (p n ctr : Nat) : State :=
  let cells := (s.port d p).heldFrame.zipIdx.map fun q => frameCell (s.frameKey d p false n) (!s.lowerEnd d p) ctr q.2 q.1
  let s := s.setPort d p fun x =>
    let y := if n = x.rxKeyIndex + 1 then { x with rxKeyIndex := n, rxPhaseFrames := 1 }
      else if n = x.rxKeyIndex then { x with rxPhaseFrames := x.rxPhaseFrames + 1 } else x
    { y with heldFrame := [], rxFrame := (ctr + 1) % 2 ^ 64, tagRun := 0 }
  cells.foldl (fun s c => s.arrive d p c) s

/-- The held cells of a frame are discarded with reason TAG (R88, R92). -/
def State.dropFrame (s : State) (d : Site) (p : Nat) : State :=
  (s.port d p).heldFrame.foldl (fun s c => s.discard d p c rTAG) (s.setPort d p fun x => { x with heldFrame := [] })

/-- A frame whose tag failed: each cell is discarded with reason TAG; the 16th in a row takes the link down (R80, R92). -/
def State.frameBad (s : State) (d : Site) (p ctr : Nat) : State :=
  let s := (s.dropFrame d p).setPort d p fun x => { x with rxFrame := (ctr + 1) % 2 ^ 64, tagRun := x.tagRun + 1 }
  let s := (s.bumpS d (PRT_GCM_TAGFAIL (prtPgS d p)) 1).detect d (prtPgS d p) 9 p none
  if 16 ≤ (s.port d p).tagRun then s.linkDown d p else s

/-- FRAME_TAG (R92). -/
def execFrameTag (site : Site) (port fseq kph tag : Nat) (s : State) : Out :=
  .next (if s.carries site port && s.rdS site (PRT_STAT_ENCRYPTED (prtPgS site port)) == 1 then
    let x := s.port site port
    let ctr := x.rxFrame + (fseq % 16 + 16 - x.rxFrame % 16) % 16
    let n := x.rxIndex kph
    if tag = frameTag (s.frameKey site port false n) (!s.lowerEnd site port) ctr x.heldFrame then s.frameGood site port n ctr
    else s.frameBad site port ctr
    else s)

/-! ### Codewords and control words -/

/-- The words of a control position whose CRC is good: kind and content of each slot of a kind that is not reserved (R70, R71). -/
def controlWords (desc : Word) (slots : List Word) : List (Nat × Word) :=
  if controlCrc desc slots = bits desc.toNat 23 0 then
    ((List.range 7).map fun i => (bits desc.toNat (63 - 4 * i) (60 - 4 * i), slots.getD i 0)).filter fun k => k.1 ≤ 9
  else []

/-- The words of a codeword's control positions. -/
def positionWords : List Position → List (Nat × Word)
  | [] => []
  | .cell _ :: r => positionWords r
  | .control ds sl :: r => controlWords ds sl ++ positionWords r

/-- The cells of a codeword. -/
def positionCells : List Position → List Cell
  | [] => []
  | .cell c :: r => c :: positionCells r
  | .control _ _ :: r => positionCells r

/-- BOFS of the control position of a codeword that carries a BEAT word in slot 1 (R70, R72). -/
def positionBofs : List Position → Option Nat
  | [] => none
  | .cell _ :: r => positionBofs r
  | .control ds sl :: r =>
    match (controlWords ds sl).head? with
    | some (1, _) => some (bits ds.toNat 35 29)
    | _ => positionBofs r

/-- A control position whose CRC fails (R70). -/
def positionBad : Position → Bool
  | .cell _ => false
  | .control ds sl => controlCrc ds sl != bits ds.toNat 23 0

/-- A lost codeword (R69, R86); on an encrypted link the frame that was coming in can no longer verify (R92; log entry 128). -/
def State.lostCodeword (s : State) (d : Site) (p : Nat) : State :=
  let s := s.deadLetter d (portDie p) ⟨word (s.stampS d), 0, 0, rFEC, p, 31⟩
  ((s.bumpS d (PRT_FEC_UNCORR (prtPgS d p)) 1).detect d (prtPgS d p) 8 p none).dropFrame d p

/-- Symbols corrected in a codeword (R95). -/
def State.countSymbols (s : State) (d : Site) (p : Nat) (errs : List Nat) : State :=
  let pg := prtPgS d p
  let s := (List.range 4).foldl (fun s i => s.bumpS d (PRT_LANE_SYMERR pg i) (nth errs i)) s
  let s := s.bumpS d (PRT_SYMERR_SYMBOLS pg) errs.sum
  if errs.sum = 0 then s else s.bumpS d (PRT_FEC_CORR pg) 1

/-- The lanes in use, the lowest first (R67, R77). -/
def State.activeLanes (s : State) (d : Site) (p : Nat) : List Nat :=
  match laneSet (s.goodLanes d p) (s.rdS d (PRT_STAT_WIDTH (prtPgS d p))) with
  | some m => (List.range 4).filter fun i => bit m i
  | none => []

/-- Corrections of each lane: symbol k travels on active lane k mod W (R68). -/
def State.laneErrors (s : State) (d : Site) (p : Nat) (at' : List Nat) : List Nat :=
  let l := s.activeLanes d p
  (List.range 4).map fun i => (at'.filter fun k => l[k % l.length]? == some i).length

/-- A codeword with a good header (R69, R70): its words and cells, each of which then has its own row. A control position whose CRC
fails loses the tag of the frame that was coming in (R92; log entry 128). -/
def State.takeCodeword (s : State) (d : Site) (p h : Nat) (ps : List Position) : State :=
  let s := s.setPort d p fun x => { x with
    rxWords := positionWords ps, rxBofs := (positionBofs ps).getD x.rxBofs, rxCells := positionCells ps, rxSeq := bits h 9 6 }
  if ps.any positionBad then s.dropFrame d p else s

/-- CODEWORD (R68 to R70): the FEC, the header check, the counters, and what the ten positions hold. -/
def execCodeword (site : Site) (port : Nat) (cw : Codeword) (s : State) : Out :=
  .next (match rsDecode cw.symbols with
    | none => s.lostCodeword site port
    | some (w, at') =>
      let s := s.countSymbols site port (s.laneErrors site port at')
      let m := messageOf (w.take 514)
      if bits m.1 5 0 ≠ hchk m.1 then s.lostCodeword site port else s.takeCodeword site port m.1 m.2)

/-- CREDIT_WORD (R82). -/
def execCreditWord (site : Site) (port : Nat) (word : Word) (s : State) : Out :=
  .next (s.setPort site port fun x =>
    let n := countsOf word.toNat
    { x with
      credits := (List.range 4).map fun i => nth x.credits i + (nth n i + 2 ^ 14 - nth x.lastCredit i) % 2 ^ 14
      lastCredit := n })

/-- SENT_WORD (R83). -/
def execSentWord (site : Site) (port : Nat) (word : Word) (s : State) : Out :=
  .next (
    let n := countsOf word.toNat
    let x := s.port site port
    let lost := (List.range 4).map fun i => (nth n i + 2 ^ 14 - nth x.received i) % 2 ^ 14
    (s.setPort site port fun x => { x with
      received := n
      freed := (List.range 4).map fun i => (nth x.freed i + nth lost i) % 2 ^ 14 }).bumpS site
        (PRT_LOSTCR_CELLS (prtPgS site port)) lost.sum)

/-- PROBE_WORD (R40, R71). -/
def execProbeWord (site : Site) (port : Nat) (word : Word) (turnaroundPs : Nat) (s : State) : Out :=
  .next (s.ctl site port 6 (word.toNat % 2 ^ 32 * 2 ^ 32 + turnaroundPs % 2 ^ 32))

/-- The median of 16 values: the mean of the two middle ones, rounded down (R40; log entry 17). -/
def median16 (l : List Nat) : Nat :=
  let m := sortBy (fun a b => decide (a < b)) l
  (nth m 7 + nth m 8) / 2

/-- PROBE_REPLY_WORD (R40): the sixteenth round trip of a training gives the link delay. -/
def execProbeReplyWord (site : Site) (port : Nat) (word : Word) (nowPs : Nat) (s : State) : Out :=
  .next (if (s.port site port).stage = 6 ∧ (s.port site port).probes.length < 16 then
    let w := word.toNat
    let rt := (nowPs % 2 ^ 32 + 2 ^ 32 - w / 2 ^ 32) % 2 ^ 32 - w % 2 ^ 32
    let s := s.setPort site port fun x => { x with probes := x.probes ++ [rt / 2] }
    if (s.port site port).probes.length = 16 then
      (s.wrS site (linkDlyValid site port) 1).wrS site (linkDlyPs site port) (median16 (s.port site port).probes)
    else s
    else s)

/-- IDENT_WORD (R71, R76): the far end, a difference from the Rod (R80), and the end of a provisional hold. -/
def execIdentWord (site : Site) (port : Nat) (word : Word) (s : State) : Out :=
  .next (
    let w := word.toNat
    let pg := prtPgS site port
    let s := ((s.wrS site (PRT_NEIGH_VALID pg) 1).wrS site (PRT_NEIGH_FID pg) (bits w 63 50)).wrS site
      (PRT_NEIGH_PORT pg) (bits w 49 42)
    let s := s.wrS site (PRT_NEIGH_CLASS pg) (bits w 41 40)
    let s := s.setPort site port fun x => { x with farProv := bit w 31 }
    let s := match site, s.rodFar port with
      | .dz8, some f => if !bit w 31 && f.1 != bits w 63 50 then s.detect .dz8 pg 10 port none else s
      | _, _ => s
    s.releaseHold site port)

/-- PERIOD_WORD (R38, R71): an agent keeps the announced period and second; a DZ8 follows its own timekeeper (R46). -/
def execPeriodWord (site : Site) (port : Nat) (word : Word) (s : State) : Out :=
  .next (match site with
    | .dz8 => s
    | .agent => if s.agTime.source = some port then
        s.setAgTime fun t => { t with pchg := some (bits word.toNat 13 0, bits word.toNat 61 14) }
      else s)

/-! ### Sending -/

/-- Removes the first queued cell that `f` selects: the entry and the rest. -/
def takeFirst (f : Option (Nat × Nat) × Cell → Bool) : List (Option (Nat × Nat) × Cell) →
    Option ((Option (Nat × Nat) × Cell) × List (Option (Nat × Nat) × Cell))
  | [] => none
  | q :: r => if f q then some (q, r) else (takeFirst f r).map fun t => (t.1, q :: t.2)

/-- A cell of the chip's own that the quiet state holds back (R115). -/
def State.heldBack (s : State) (d : Site) (q : Option (Nat × Nat) × Cell) : Bool :=
  s.quiet d && q.1 == none && q.2.src == s.fidS d && q.2.vc != 0 && !flipControl q.2

/-- The head cell of a VC of a port, with the rest of its queue. -/
def State.headOf (s : State) (d : Site) (p vc : Nat) :
    Option ((Option (Nat × Nat) × Cell) × List (Option (Nat × Nat) × Cell)) :=
  takeFirst (fun q => q.2.vc == vc && !s.heldBack d q) (s.port d p).queue

/-- Adds to the congestion map entry of a link: late cells, largest queue, hot beats (R153). -/
def State.cmapAdd (s : State) (c link late peak hot : Nat) : State :=
  s.setTtb c fun t =>
    let e := tget t.cmap link
    let w := link * 2 ^ 52 + min 65535 (bits e 51 36 + late) * 2 ^ 36 + min 65535 (max (bits e 35 20) peak) * 2 ^ 20 +
      min (2 ^ 20 - 1) (bits e 19 0 + hot)
    { t with cmap := tset t.cmap link w }

/-- The beat in which R135 allows a RESULT cell of a context to leave: that of its entry, in the begun step. -/
def State.resultDue (s : State) (k : Nat) (c : Cell) : Option Nat :=
  match s.img k with
  | none => none
  | some m =>
    match m.entries.find? fun e => e.kind == 4 && e.cidx == c.cidx % 2 ^ 15 && c.seq < e.cells && c.offset == e.offset + 48 * c.seq &&
        bit (tget (s.ctx k).map e.target) 63 && tget (s.ctx k).map e.target % 2 ^ 14 == c.dst with
    | none => none
    | some e => ((s.ttb k).uncommitted.find? fun o => o.step == e.step).map fun o => o.boundary + e.beat + c.seq / e.rate

/-- A RESULT cell of the unit that leaves late is counted, and once a beat in HOT (R153). -/
def State.cmapLate (s : State) (p : Nat) (c : Cell) : State :=
  match s.rodLink p, s.resultDue (s.cellCtx .dz8 c) c with
  | some l, some b =>
    let k := s.cellCtx .dz8 c
    if b < s.time.beat then
      let hot := tget (s.ttb k).cmapHot l.index == s.time.beat + 1
      (s.cmapAdd k l.index 1 0 (b2n !hot)).setTtb k fun t => { t with cmapHot := tset t.cmapHot l.index (s.time.beat + 1) }
    else s
  | _, _ => s

/-- A VC of a port has a cell at its head and a credit for it (R81). -/
def State.waits (s : State) (d : Site) (p vc : Nat) : Bool :=
  (s.headOf d p vc).isSome && nth (s.port d p).credits vc != 0

/-- A waiting VC3 cell is due: VC3 is served at least once in every 32 positions (R109). -/
def State.escapeDue (s : State) (d : Site) (p : Nat) : Bool := s.waits d p 3 && decide (31 ≤ (s.port d p).sinceEsc)

/-- The head cell of a VC may take the next position: U cells a beat on VC1 and VC2, VC3 what VC0 leaves unused or its one position
in 32, which displaces VC0 (R75, R78, R81, R109). -/
def State.mayGo (s : State) (d : Site) (p vc : Nat) : Bool :=
  let x := s.port d p
  s.waits d p vc &&
    match vc with
    | 0 => s.isUp d p && !s.escapeDue d p
    | 3 => s.escapeDue d p || (!(s.waits d p 0 && s.isUp d p) && decide (x.sched + x.escaped < s.c0Raw d p))
    | _ => decide (x.unsched < s.rdS d (PRT_UNSCHED_CELLS (prtPgS d p)))

/-- Some VC has a cell that may take the next position. -/
def State.anyReady (s : State) (d : Site) (p : Nat) : Bool := (List.range 4).any fun v => s.mayGo d p v

/-- A cell leaves on a port in the next position: it spends a credit, frees its receive buffer, and on an encrypted link joins the
open frame, which closes at 16 cells or where no cell is ready; on a plain link a control position follows 31 cells (R73, R81, R91). -/
def State.transmit (s : State) (d : Site) (p : Nat) (q : Option (Nat × Nat) × Cell)
    (rest : List (Option (Nat × Nat) × Cell)) : State :=
  let x := s.port d p
  let enc := s.rdS d (PRT_STAT_ENCRYPTED (prtPgS d p)) == 1
  let c := q.2
  let wire := if enc then frameCell (s.frameKey d p true x.keyIndex) (s.lowerEnd d p) x.txFrame x.openFrame.length c else c
  let s := s.setPort d p fun x => { x with
    queue := rest
    credits := bumpAt x.credits c.vc (· - 1)
    sent := bumpAt x.sent c.vc fun n => (n + 1) % 2 ^ 14
    unsched := if c.vc = 1 ∨ c.vc = 2 then x.unsched + 1 else x.unsched
    sched := if c.vc = 0 then x.sched + 1 else x.sched
    escaped := if c.vc = 3 then x.escaped + 1 else x.escaped
    sinceCtl := x.sinceCtl + 1
    sinceEsc := if c.vc = 3 then 0 else min 31 (x.sinceEsc + 1)
    openFrame := if enc then x.openFrame ++ [wire] else [] }
  let s := ((s.freeBuf d q.1).emit (.cell d p wire)).putPosition d p false
  if enc then (if (s.port d p).openFrame.length = 16 ∨ s.anyReady d p = false then s.closeFrame d p else s)
  else if 31 ≤ (s.port d p).sinceCtl then s.sendControl d p [] 0 0 0 else s

/-- CELL_SEND (R75, R78, R81, R109). -/
def execCellSend (site : Site) (port vc : Nat) (s : State) : Out :=
  .next (if !s.bears site port then s
    else match s.headOf site port vc with
      | none => s
      | some (q, rest) =>
        if vc = 0 ∧ s.prtState site port = 3 then
          ((s.setPort site port fun x => { x with queue := rest }).freeBuf site q.1).discard site port q.2 rNOCAP
        else if s.mayGo site port vc = false then s
        else
          let s := s.transmit site port q rest
          if site == .dz8 && q.2.type == tRESULT && q.2.src == s.fid then s.cmapLate port q.2 else s)

/-- RTE_ESC threshold of a VC in ns (R107, R128). -/
def State.escapeNs (s : State) (d : Site) (vc : Nat) : Nat :=
  8 * s.rdS d (if vc = 0 then RTE_ESC_VC0_T else if vc = 1 then RTE_ESC_VC1_T else RTE_ESC_VC2_T)

/-- ESCAPE_THRESHOLD (R107, R108): the head cell of a VC that has no credit moves to VC3 and takes its ESC port. -/
def execEscapeThreshold (site : Site) (port vc waitedNs : Nat) (s : State) : Out :=
  .next (if vc < 3 ∧ s.bears site port ∧ nth (s.port site port).credits vc = 0 ∧ s.escapeNs site vc < waitedNs then
    match s.headOf site port vc with
    | none => s
    | some (q, rest) =>
      let s := s.setPort site port fun x => { x with queue := rest }
      let s := s.bumpS site (rteOf site port RTE_ESCCNT_MOVED) 1
      let esc := entEsc (s.entry site false q.2.dst)
      let c := sealed { q.2 with vc := 3 }
      if s.bears site esc then s.enqueue site esc q.1 c
      else (s.freeBuf site q.1).discard site port c rLINKDOWN
    else s)

/-- LINK_KEY_CHANGE (R311): the next key, and KPH flips at the next frame. -/
def execLinkKeyChange (site : Site) (port : Nat) (s : State) : Out :=
  .next (if s.rdS site (PRT_STAT_ENCRYPTED (prtPgS site port)) = 1 then
    let s := (s.closeFrame site port).setPort site port fun x => { x with keyIndex := x.keyIndex + 1 }
    s.wrS site (PRT_GCM_KPH (prtPgS site port)) ((s.port site port).keyIndex % 2)
    else s)

/-! ### Dovetail (R81, R93, R94, R96) -/

/-- An edge exists: the part has the dies at both its ends (R16). -/
def State.hasEdge (s : State) (e : Nat) : Bool :=
  decide (e < 10) && s.hasDie (edgeEnds e).1 && s.hasDie (edgeEnds e).2

/-- The DVT pages of an edge, one at each end (R96). -/
def dvtPages (e : Nat) : List Nat := [dvtPg (edgeEnds e).1 e, dvtPg (edgeEnds e).2 e]

/-- Writes a field of both pages of an edge. -/
def State.wrEdge (s : State) (e : Nat) (f : Nat → Fld) (v : Nat) : State := (dvtPages e).foldl (fun s pg => s.wr (f pg) v) s

/-- State of an edge, as the page of its first end shows it (R96). -/
def State.edgeState (s : State) (e : Nat) : Nat := s.rd (DVT_STAT_STATE (dvtPg (edgeEnds e).1 e))

/-- An edge that trains has trained: UP (R93, R96). -/
def State.edgeUp (s : State) (e : Nat) : State := if s.hasEdge e && s.edgeState e == 1 then s.wrEdge e DVT_STAT_STATE 2 else s

/-- An edge trains with all its groups, its replay buffers empty (R94, R96). -/
def State.edgeTrain (s : State) (e : Nat) : State :=
  if s.hasEdge e then
    ({ s with replays := s.replays.filter fun r => r.edge != e }.wrEdge e DVT_STAT_GROUPS_OUT 0).wrEdge e DVT_STAT_STATE 1
  else s

/-- Every edge of the package that trains has trained. -/
def State.edgesUp (s : State) : State := (List.range 10).foldl (fun s e => s.edgeUp e) s

/-- Spare wires of a group in the layout of DVT_REPAIR: which data wires fail is a free value of training (R93, log entry 125). -/
def State.repairMap (s : State) (e g : Nat) : Nat := if 2 ≤ s.edgeState e then Config.spareWires e g % 2 ^ 32 else 2 ^ 32 - 1

/-- Spare wires in use on an edge (R96). -/
def State.sparesUsed (s : State) (e : Nat) : Nat :=
  ((List.range 16).map fun g => ((List.range 4).filter fun i => bits (s.repairMap e g) (8 * i + 7) (8 * i) != 0xFF).length).sum

/-- The die whose log records a discard on an edge (R86). -/
def edgeDie (e : Nat) : Nat := if (edgeEnds e).1 = 1 then 1 else 0

/-- A group is taken out of use, which both ends of the edge show: a MINOR fault, and a SEVERE one for the second (R94, R96). -/
def State.groupOut (s : State) (e g : Nat) : State :=
  let pg := dvtPg (edgeEnds e).1 e
  let out := s.rd (DVT_STAT_GROUPS_OUT pg)
  let s := (s.wrEdge e DVT_STAT_GROUPS_OUT (setBit out g true)).wrEdge e DVT_STAT_STATE 3
  if bit out g then s
  else if ((List.range 16).filter fun i => bit out i).length = 1 then s.detect .dz8 pg 1 g none
  else s.detect .dz8 pg 0 g none

/-- The replay buffer's entry is that of a cell in one direction of a group. -/
def Replay.of (r : Replay) (e : Nat) (second : Bool) (g : Nat) (c : Cell) : Bool :=
  r.edge == e && r.second == second && r.group == g && r.cell == c

/-- The resends already made of a cell in one direction of a group. -/
def State.replayCount (s : State) (e : Nat) (second : Bool) (g : Nat) (c : Cell) : Nat :=
  match s.replays.find? fun r => r.of e second g c with
  | some r => r.attempts
  | none => 0

/-- The replay buffers with one more entry: 64 cells a group in each direction, the oldest giving way (R94). -/
def putReplay (l : List Replay) (r : Replay) : List Replay :=
  let same := fun (x : Replay) => x.edge == r.edge && x.second == r.second && x.group == r.group
  let l := if 64 ≤ (l.filter same).length then l.eraseP same else l
  l ++ [r]

/-- DOVETAIL_NAK (R94): the cell is resent up to 8 times, then discarded with reason DVT. The receiving end counts the CRC failure,
the sending end the replay. -/
def execDovetailNak (sender : EdgeEnd) (group : Nat) (cell : Cell) (s : State) : Out :=
  .next (if !s.hasEdge sender.edge || decide (16 ≤ group) then s else
    let edge := sender.edge
    let second := sender.second
    let ends := edgeEnds edge
    let pg := dvtPg (if second then ends.2 else ends.1) edge
    let n := s.replayCount edge second group cell
    let s := s.bump (DVT_CRCERR_COUNT (dvtPg (if second then ends.1 else ends.2) edge)) 1
    let others := s.replays.filter fun r => !r.of edge second group cell
    if n < 8 then
      (({ s with replays := putReplay others ⟨edge, second, group, cell, n + 1⟩ }).bump (DVT_REPLAY_REPLAYS pg) 1).emit
        (.resent edge second group cell)
    else
      let s := { s with replays := others }
      let s := s.deadLetter .dz8 (edgeDie edge)
        ⟨word s.postmark, word (cellHeader cell), word (cellTrailer cell), rDVT, 0xF0 + edge, s.cellCtx .dz8 cell⟩
      ((s.bump (DVT_REPLAY_EXHAUSTED pg) 1).detect .dz8 pg 2 group none).groupOut edge group)

end Sys2Proof.Machine
end

