-- ==== Sys2Proof/Machine/Rod.lean ====
section
/-! DEFINITION. The graph that the Rod declares and the route images computed from it: the escape tree, the tables of R101 and
R102, and the check of R112 (R101, R102, R105, R106, R111, R112). -/

namespace Sys2Proof.Machine

/-- Side of a unit or a leaf: 0 unit A, 1 unit B; none for an endpoint (R18). -/
def Rod.side (r : Rod) (fid : Nat) : Option Nat :=
  match r.chip fid with
  | some c => if c.cls = 0 then some (fid % 256 - 0xFE) else if c.cls = 2 then some c.side else none
  | none => none

/-- The link that a link reference names (R456). -/
def Rod.linkRef (r : Rod) (ref : Nat) : Option RodLink :=
  r.links.find? fun l => linkIdent l == ref

/-- The role of a chip's port: that of a DZ8 end in the Rod (R456). -/
def endRole (e : LinkEnd) (fid : Nat) : Nat := if e.link.fidA = fid then e.link.roleA else e.link.roleB

/-- STATE of a Rod link: of the unit's own port where it has an end, else of the capacity map (R113). -/
def State.linkState (s : State) (l : RodLink) : Nat :=
  if l.fidA = s.fid then s.prtState .dz8 l.portA else if l.fidB = s.fid then s.prtState .dz8 l.portB
  else tget s.route.capMap (linkIdent l) % 8

/-- The comparison found another neighbour at an end of the link (R458). -/
def State.neighbourBad (s : State) (l : RodLink) : Bool :=
  s.boot.mismatches.any fun m => m.kind == 2 && ((m.fid == l.fidA && m.port == l.portA) || (m.fid == l.fidB && m.port == l.portB))

/-- A DZ8 end of the link is SPARE, so the link carries no traffic (R20). -/
def RodLink.spare (l : RodLink) : Bool :=
  (decide (0xFE ≤ l.fidA % 256) && l.roleA == 3) || (decide (0xFE ≤ l.fidB % 256) && l.roleB == 3)

/-- A link is usable when it is UP, no NEIGHBOUR mismatch names it, and it may carry traffic (R20, R101, R458). -/
def State.usable (s : State) (l : RodLink) : Bool := s.linkState l == 2 && !s.neighbourBad l && !l.spare

/-- A link has not failed: it is UP or DEGRADED, and may carry traffic (R20, R78, R106). -/
def State.linkAlive (s : State) (l : RodLink) : Bool := (s.linkState l == 2 || s.linkState l == 3) && !l.spare

/-! ### The escape tree (R105, R106) -/

/-- The end of the parent link that a chip uses: the parent, the alternate when the parent has failed, the parent again when
both have (R106). -/
def State.parentOf (s : State) (r : Rod) (fid : Nat) : Option LinkEnd :=
  if fid = r.root then none
  else match r.chip fid with
    | none => none
    | some c =>
      let endRef := fun (o : Option Nat) => (o.bind r.linkRef).bind fun l => endAt l fid
      match endRef c.parent, endRef c.alt with
      | some p, some a => if !s.linkAlive p.link && s.linkAlive a.link then some a else some p
      | some p, none => some p
      | none, a => a

/-- A chip and its ancestors up to the root, at most 65 chips. -/
def State.chain (s : State) (r : Rod) (fid : Nat) : Nat → List Nat
  | 0 => [fid]
  | n + 1 => match s.parentOf r fid with
    | none => [fid]
    | some e => fid :: s.chain r e.far n

/-- The element before `x` in a list. -/
def before (x : Nat) : List Nat → Option Nat
  | a :: b :: r => if b = x then some a else before x (b :: r)
  | _ => none

/-- ESC of chip `f` towards `d` (R106). -/
def State.escOf (s : State) (r : Rod) (f d : Nat) : Nat :=
  match before f (s.chain r d 64) with
  | some child => match s.parentOf r child with | some e => e.farPort | none => 0
  | none => match s.parentOf r f with | some e => e.port | none => 0

/-! ### Tables (R101, R102) -/

/-- One level of the board search: chips reached from a frontier over usable board links, with their first port. -/
def State.boardNext (s : State) (r : Rod) (frontier seen : List (Nat × Nat)) : List (Nat × Nat) :=
  frontier.foldl (fun acc x => (r.ends x.1).foldl (fun acc e =>
    if r.cls e.far = 1 ∧ s.usable e.link ∧ !(seen ++ acc).any (fun v => v.1 == e.far) then acc ++ [(e.far, x.2)] else acc) acc) []

/-- Chips reached over usable board links with the first port of a shortest path, the lowest among equals. -/
def State.boardFrom (s : State) (r : Rod) : Nat → List (Nat × Nat) → List (Nat × Nat) → List (Nat × Nat)
  | 0, _, seen => seen
  | n + 1, frontier, seen =>
    match s.boardNext r frontier seen with
    | [] => seen
    | next => s.boardFrom r n next (seen ++ next)

/-- The board destinations of an endpoint with their ports (R101). -/
def State.board (s : State) (r : Rod) (f : Nat) : List (Nat × Nat) :=
  let first := (r.ends f).foldl (fun acc e =>
    if r.cls e.far = 1 ∧ s.usable e.link ∧ !acc.any (fun v => v.1 == e.far) then acc ++ [(e.far, e.port)] else acc) []
  s.boardFrom r r.chips.length first ((f, 0) :: first)

/-- The link of an endpoint towards a side, direct or through a leaf (R18). -/
def Rod.towards (r : Rod) (f side : Nat) : Option LinkEnd :=
  (r.ends f).find? fun e => r.side e.far == some side && !e.link.spare

/-- PORT of an endpoint (R101); `side` is the side of the active unit. -/
def State.portIae (s : State) (r : Rod) (f d side : Nat) : Option Nat :=
  match (s.board r f).find? fun v => v.1 == d with
  | some v => some v.2
  | none => ([side, 1 - side].findSome? fun x => (r.towards f x).filter fun e => s.usable e.link).map (·.port)

/-- PORT of a leaf switch (R101). -/
def State.portIas (s : State) (r : Rod) (f d : Nat) : Option Nat :=
  match (r.ends f).find? fun e => e.far == d && r.cls e.far == 1 with
  | some e => some e.port
  | none =>
    let ups := (r.ends f).filter fun e => r.cls e.far == 0 && s.usable e.link
    if ups.isEmpty then none else (ups[d % 256 % ups.length]?).map (·.port)

/-- The next domain of a level-3 route in dimension order (R102). -/
def nextDomain (sizes : Nat × Nat × Nat) (a b : Nat) : Nat :=
  let step := fun (n x y : Nat) => if (y + n - x) % n ≤ n / 2 then (x + 1) % n else (x + n - 1) % n
  let nx := sizes.1 + 1
  let ny := sizes.2.1 + 1
  let nz := sizes.2.2 + 1
  let ax := a % 4
  let ay := a / 4 % 4
  let az := a / 16 % 4
  if ax ≠ b % 4 then step nx ax (b % 4) + 4 * ay + 16 * az
  else if ay ≠ b / 4 % 4 then ax + 4 * step ny ay (b / 4 % 4) + 16 * az
  else ax + 4 * ay + 16 * step nz az (b / 16 % 4)

/-- A DZ8's usable port with a role to a chip, the lowest-numbered of several to a leaf (DESIGN CHOICE, log entry 133). -/
def State.unitPort (s : State) (r : Rod) (f d role : Nat) : Option Nat :=
  ((r.ends f).find? fun e => e.far == d && endRole e f == role && s.usable e.link).map (·.port)

/-- The lower-numbered usable LEDGER port of a unit. -/
def State.ledgerPort (s : State) (r : Rod) (f : Nat) : Option Nat :=
  ((r.ends f).find? fun e => endRole e f == 2 && s.usable e.link).map (·.port)

/-- The DOWN port of a unit to a chip on its own side, direct or through the leaf that serves it (R101). -/
def State.downPort (s : State) (r : Rod) (f d : Nat) : Option Nat :=
  (s.unitPort r f d 0).orElse fun _ =>
    ((r.ends d).filter fun e => r.cls d == 1 && r.cls e.far == 2 && r.side e.far == r.side f && s.usable e.link).findSome?
      fun e => s.unitPort r f e.far 0

/-- The PEER port of the active unit to the active unit of a neighbouring domain: one whose far end sends ACTIVE beat words
(R22, R39, R102). -/
def State.peerPort (s : State) (r : Rod) (f dom : Nat) : Option Nat :=
  ((r.ends f).find? fun e => endRole e f == 1 && e.far / 256 == dom && s.usable e.link &&
    (f != s.fid || (s.port .dz8 e.port).farActive)).map (·.port)

/-- PORT of a DZ8 unit; `active` says whether it is the active unit (R101). -/
def State.portUnit (s : State) (r : Rod) (f d : Nat) (active : Bool) : Option Nat :=
  if d / 256 ≠ f / 256 then
    if active then s.peerPort r f (nextDomain r.sizes (f / 256) (d / 256)) else s.ledgerPort r f
  else (s.downPort r f d).orElse fun _ => s.ledgerPort r f

/-- PORT of chip `f` towards `d` as R101 gives it, before paths are followed. -/
def State.portFor (s : State) (r : Rod) (f d : Nat) : Option Nat :=
  match r.cls f with
  | 0 => s.portUnit r f d (f == s.fid && s.active)
  | 1 => s.portIae r f d (s.fid % 256 - 0xFE)
  | 2 => s.portIas r f d
  | _ => none

/-- Following PORT from `f` reaches `d` over usable links; a hop to another domain ends the search (R101). -/
def State.reaches (s : State) (r : Rod) (d : Nat) : Nat → Nat → Bool
  | 0, f => f == d
  | n + 1, f =>
    if f = d then true
    else match (s.portFor r f d).bind fun p => r.endOf f p with
      | none => false
      | some e => s.usable e.link && (e.far / 256 != s.domain || s.reaches r d n e.far)

/-- The entry that hardware mode gives chip `f` for `d` (R97, R101, R106). -/
def State.hwEntry (s : State) (r : Rod) (f d : Nat) : Nat :=
  if f = d then entWord true true 0 0
  else entWord (s.reaches r d r.chips.length f) false ((s.portFor r f d).getD 0) (s.escOf r f d)

/-- The FIDs of the domain's chips, and those of the whole Rod. -/
def State.domainChips (s : State) (r : Rod) : List Nat := (r.chips.filter fun c => c.fid / 256 == s.domain).map (·.fid)
def Rod.fids (r : Rod) : List Nat := r.chips.map (·.fid)

/-- A referee leaf of the domain with its bridge and the unit on the far side: leaf, bridge, far unit (R421). -/
def State.bridge (s : State) (r : Rod) : Option (Nat × Nat × Nat) :=
  let ref := if s.on PAR_REFEREE_IN_USE then s.rd PAR_REFEREE_ALTERNATE else s.rd PAR_REFEREE_PRIMARY
  match r.side ref with
  | none => none
  | some sd =>
    if r.cls ref = 2 ∧ ref / 256 = s.domain then
      let served := sortBy (fun a b => decide (a < b)) (((r.ends ref).filter fun e => r.cls e.far == 1).map (·.far))
      (served.find? fun f => match r.towards f (1 - sd) with | some e => s.usable e.link | none => false).map
        fun f => (ref, f, s.domain * 256 + 0xFE + (1 - sd))
    else none

/-- An entry with another PORT, for a chip and destination. -/
def State.putPort (s : State) (r : Rod) (t : Table) (f d : Nat) (p : Option Nat) : Table :=
  match p with
  | some p => tset t (f * 2 ^ 14 + d) (entWord true false p (s.escOf r f d))
  | none => t

/-- The entries by which the far unit reaches a referee leaf through its bridge, in both route modes (R421). -/
def State.withBridge (s : State) (r : Rod) (t : Table) : Table :=
  match s.bridge r with
  | none => t
  | some (leaf, b, unit) =>
    let port := fun (f : Nat) => let e := tget t (f * 2 ^ 14 + b); if entValid e then some (entPort e) else none
    let t := s.putPort r t unit leaf (port unit)
    let t := match (r.ends b).find? fun e => r.cls e.far == 2 && e.far != leaf with
      | some e => s.putPort r t e.far leaf (port e.far)
      | none => t
    let t := s.putPort r t b leaf (((r.ends b).find? fun e => e.far == leaf).map (·.port))
    s.putPort r t leaf unit (((r.ends leaf).find? fun e => e.far == b).map (·.port))

/-- All images of the domain in hardware mode (R111, R421). -/
def State.hwImages (s : State) (r : Rod) : Table :=
  s.withBridge r
    ((s.domainChips r).foldl (fun t f => r.fids.foldl (fun t d => tset t (f * 2 ^ 14 + d) (s.hwEntry r f d)) t) [])

/-- Images with the ESC fields that the DZ8 writes itself (R106, R112). -/
def State.withEsc (s : State) (r : Rod) (t : Table) : Table :=
  s.withBridge r ((s.domainChips r).foldl (fun t f => r.fids.foldl (fun t d =>
    let e := tget t (f * 2 ^ 14 + d)
    tset t (f * 2 ^ 14 + d) (entWord (entValid e) (entLocal e) (entPort e) (if entLocal e then 0 else s.escOf r f d))) t) t)

/-! ### The check of R112 -/

/-- A failed check: code, chip, destination. -/
abbrev RouteErr := Option (Nat × Nat × Nat)

/-- The path from `f` to `d` in an image: the chips visited, with its end: 0 reached or left the domain, 1 invalid or not
linked, 2 revisits a chip. -/
def State.walk (s : State) (r : Rod) (t : Table) (d : Nat) : Nat → Nat → List Nat → List Nat × Nat
  | 0, _, seen => (seen, 2)
  | n + 1, f, seen =>
    if seen.contains f then (seen, 2)
    else if f = d ∨ f / 256 ≠ s.domain then (f :: seen, 0)
    else
      let e := tget t (f * 2 ^ 14 + d)
      if !entValid e then (f :: seen, 1)
      else match r.endOf f (entPort e) with
        | none => (f :: seen, 1)
        | some x => s.walk r t d n x.far (f :: seen)

/-- Links of a level-3 route from a unit of domain `a` to `b`, at most `n` (R102). -/
def domainHops (sizes : Nat × Nat × Nat) (b : Nat) : Nat → Nat → Nat
  | 0, _ => 0
  | n + 1, a => if a = b then 0 else 1 + domainHops sizes b n (nextDomain sizes a b)

/-- Links from an active unit of a chip's domain down to the chip: over the longer of the two sides, since the side of another
domain's active unit does not stand in the Rod (log entry 133). -/
def Rod.lastHops (r : Rod) (d : Nat) : Nat :=
  match r.cls d with
  | 1 => ([0, 1].map fun side => match r.towards d side with
      | some e => if r.cls e.far = 2 then 2 else 1
      | none => 0).foldl max 0
  | 2 => 2
  | _ => 1

/-- Links of a normal route: those followed in the domain's images, and those beyond its border under R101 and R102. -/
def State.routeLinks (s : State) (r : Rod) (t : Table) (f d : Nat) : Nat :=
  let seen := (s.walk r t d (r.chips.length + 2) f []).1
  let last := seen.head?.getD f
  seen.length - 1 + if last / 256 = s.domain then 0 else domainHops r.sizes (d / 256) 16 (last / 256) + r.lastHops d

/-- One check of R112 on one entry. -/
def State.checkEntry (s : State) (r : Rod) (t : Table) (code f d : Nat) : Bool :=
  let e := tget t (f * 2 ^ 14 + d)
  let x := r.endOf f (entPort e)
  let on := entValid e && !entLocal e && f != d
  match code with
  | 1 => entValid (s.hwEntry r f d) && !entValid e
  | 2 => on && match x with | none => true | some x => endRole x f == 3 && r.cls f == 0
  | 3 => on && match x with | none => false | some x => !s.usable x.link
  | 4 => on && (s.walk r t d (r.chips.length + 2) f []).2 == 2
  | 5 => on && decide (12 < s.routeLinks r t f d)
  | 6 => on && match x with
    | none => false
    | some x => x.far / 256 != f / 256 && !(f == s.fid && endRole x f == 1 && (s.port .dz8 x.port).farActive)
  | _ => entLocal e != (f == d)

/-- The first entry that fails a check. -/
def State.findErr (s : State) (r : Rod) (t : Table) (code : Nat) : RouteErr :=
  (s.domainChips r).findSome? fun f => (r.fids.find? fun d => s.checkEntry r t code f d).map fun d => (code, f, d)

/-- An image entry for an FID that is not in the Rod (code 0x08). -/
def Rod.scopeErr (r : Rod) (t : Table) : RouteErr :=
  (t.find? fun e => r.cls (e.1 / 2 ^ 14) == 3 || r.cls (e.1 % 2 ^ 14) == 3).map fun e => (8, e.1 / 2 ^ 14, e.1 % 2 ^ 14)

/-- The check of every shadow image in code order (R112). -/
def State.checkImages (s : State) (r : Rod) (t : Table) : RouteErr :=
  ([1, 2, 3, 4, 5, 6, 7].findSome? fun c => s.findErr r t c).orElse fun _ => r.scopeErr t

end Sys2Proof.Machine
end

