-- ==== Sys2Proof/Machine/Mgmt.lean ====
section
/-! DEFINITION. Management transactions that the unit sends to agents (R127, R473, R509, R512, R513). -/

namespace Sys2Proof.Machine

/-- The payload of an MREQ (R473): OP 1 reads, OP 2 writes `words`. -/
def mreqPayload (op count addr : Nat) (words : List Nat) : List Nat :=
  [op * 2 ^ 56 + count * 2 ^ 52, addr % 2 ^ 32, nth words 0, nth words 1, nth words 2, nth words 3]

/-- Session transactions in flight (R512). -/
def State.sessionTxns (s : State) : Nat := (s.route.txns.filter fun t => t.session.isSome).length

/-- A transaction goes out. -/
def State.launch (s : State) (t : Txn) : State :=
  let s := s.setRoute fun r => { r with txns := r.txns ++ [t] }
  let s := if t.session.isSome then s.bump AGT_COUNT_SENT 1 else s
  s.send .dz8 t.request

/-- A new MREQ transaction: one of a session is held in quiet unless it goes to an RTE page, and waits beyond 256 in flight
(R127, R512). -/
def State.mreq (s : State) (fid op count addr : Nat) (words : List Nat) (session : Option Nat) : State :=
  let seq := s.route.nextSeq
  let c := s.newCell .dz8 fid 1 tMREQ seq 8 0 0 (mreqPayload op count addr words)
  let t : Txn := ⟨seq, fid, c, 1, false, session⟩
  let s := s.setRoute fun r => { r with nextSeq := (seq + 1) % 2 ^ 16 }
  if session.isSome && s.quiet .dz8 && !rteAddress addr then
    (s.setRoute fun r => { r with heldMreq := r.heldMreq ++ [t] }).bump AGT_ERR_HELD 1
  else if session.isSome && decide (256 ≤ s.sessionTxns) then s.setRoute fun r => { r with waiting := r.waiting ++ [t] }
  else s.launch t

/-- A remote write of up to 4 registers by the unit itself. -/
def State.remoteWrite (s : State) (fid addr : Nat) (words : List Nat) : State := s.mreq fid 2 words.length addr words none

/-- Remote writes of registers that follow one another, four to an MREQ. -/
def State.remoteWrites (s : State) (fid : Nat) : Nat → Nat → List Nat → State
  | 0, _, _ => s
  | n + 1, addr, ws =>
    if ws.isEmpty then s else (s.remoteWrite fid addr (ws.take 4)).remoteWrites fid n (addr + 32) (ws.drop 4)

/-- A place in flight is free: the oldest waiting session transaction goes out (R512). -/
def State.pumpWaiting (s : State) : State :=
  match s.route.waiting with
  | [] => s
  | t :: r => if s.sessionTxns < 256 then (s.setRoute fun x => { x with waiting := r }).launch t else s

/-- The transaction of a SEQ. -/
def State.txn (s : State) (seq : Nat) : Option Txn := s.route.txns.find? fun t => t.seq == seq

/-- A transaction ends. -/
def State.endTxn (s : State) (seq : Nat) : State :=
  (s.setRoute fun r => { r with txns := r.txns.filter fun t => t.seq != seq }).pumpWaiting

/-- The quiet state ends: the held remote-window MREQ cells go out under the sender's present generation (R98, R512). -/
def State.releaseHeld (s : State) : State :=
  let held := s.route.heldMreq
  held.foldl (fun s t => s.launch { t with request := s.restamp .dz8 t.request }) (s.setRoute fun r => { r with heldMreq := [] })

/-- MGMT_RETRY (R127): the attempt after its backoff carries FLAGS.RETRY, and generation and epoch as read again (R98, R104). -/
def execMgmtRetry (seq : Nat) (s : State) : Out :=
  .next (match s.txn seq with
    | none => s
    | some t =>
      if t.backoff then
        let c := s.restamp .dz8 { t.request with flags := setBit t.request.flags 2 true }
        let s := s.setRoute fun r => { r with txns := r.txns.map fun x =>
          if x.seq == seq then { x with backoff := false, attempts := x.attempts + 1, request := c } else x }
        let s := if t.session.isSome then s.bump AGT_ERR_RETRY 1 else s
        s.send .dz8 c
      else s)

/-! ### Events of agents (R358) -/

/-- A remote event is recorded at its own level (R358, R371). -/
def State.remoteEvent (s : State) (c : Cell) : State :=
  let e := Event.ofWords (cellWord c 0) (cellWord c 1) (cellWord c 2) (cellWord c 3)
  let q := s.conseqOf .dz8 e.source
  let e := { e with remote := true, first := false, merged := q.isSome, conseq := q.isSome, serial := 0, promoted := false
                    arrival := s.postmark
                    fault := (match q with | some r => r.serial | none => 0) }
  s.setFlt .dz8 fun f => { f with waiting := f.waiting ++ [e] }

end Sys2Proof.Machine
end

