-- ==== Sys2Proof/Machine/Alloc.lean ====
section
/-! DEFINITION. Where a context's bytes lie: its allocation space in the Pigeonholes and its HBM regions (R3, R226, R243,
R244), and reading structures from bytes (R6). -/

namespace Sys2Proof.Machine

/-- Bytes of a Pigeonholes row (R222). -/
def pghRow : Nat := 19456

/-- Bytes of a context's allocation on C-die `d` (R226). -/
def State.allocBytes (s : State) (c d : Nat) : Nat :=
  if s.on (PGH_ALLOC_VALID (pghPg d) c) then s.rd (PGH_ALLOC_ROWS (pghPg d) c) * pghRow else 0

/-- Bytes of a context's allocation space. -/
def State.allocLen (s : State) (c : Nat) : Nat := s.allocBytes c 0 + s.allocBytes c 1

/-- Key of a die address in the Pigeonholes memory. -/
def pghKey (d a : Nat) : Nat := d * 2 ^ 28 + a

/-- C-die and die address of an allocation-space offset (R226). -/
def State.allocAddr (s : State) (c o : Nat) : Option (Nat × Nat) :=
  let b0 := s.allocBytes c 0
  if o < b0 then some (0, s.rd (PGH_ALLOC_ROW_BASE (pghPg 0) c) * pghRow + o)
  else if o < b0 + s.allocBytes c 1 then some (1, s.rd (PGH_ALLOC_ROW_BASE (pghPg 1) c) * pghRow + o - b0)
  else none

/-- One byte of the allocation space, 0 beyond it (R238). -/
def State.allocGet (s : State) (c o : Nat) : Byte :=
  match s.allocAddr c o with
  | some (d, a) => mget s.tile.pgh (pghKey d a)
  | none => 0

/-- `n` bytes of the allocation space. -/
def State.allocRead (s : State) (c o n : Nat) : List Byte := (List.range n).map fun i => s.allocGet c (o + i)

/-- Writes one byte; without effect beyond the allocation (R238). -/
def State.allocPut (s : State) (c o : Nat) (b : Byte) : State :=
  match s.allocAddr c o with
  | some (d, a) => s.setTile fun t => { t with pgh := mset t.pgh (pghKey d a) b }
  | none => s

/-- Writes bytes from an allocation-space offset. -/
def State.allocWrite (s : State) (c : Nat) : Nat → List Byte → State
  | _, [] => s
  | o, b :: bs => (s.allocPut c o b).allocWrite c (o + 1) bs

/-! ### HBM regions -/

/-- Size of a region in bytes over all M-dies (R244). -/
def State.regionBytes (s : State) (size : Nat) : Nat := size * 2 ^ 26 * s.mdies

/-- M-die and M-address of a region offset (R244). -/
def State.regionAddr (s : State) (base o : Nat) : Nat × Nat :=
  let st := o / 2 ^ 20
  let d := max 1 s.mdies
  (st % d, base * 2 ^ 26 + st / d * 2 ^ 20 + o % 2 ^ 20)

/-- Key of an M-address in the HBM memory. -/
def hbmKey (m a : Nat) : Nat := m * 2 ^ 40 + a

/-- BASE and SIZE of the region of class `k` of a context, none where it is not defined (R243, R263). -/
def State.region (s : State) (c k : Nat) : Option (Nat × Nat) :=
  let pg := vltPg c
  if s.on (VLT_REG_VALID pg (k - 1)) then some (s.rd (VLT_REG_BASE pg (k - 1)), s.rd (VLT_REG_SIZE pg (k - 1))) else none

/-- Bytes of a context's region, 0 where it is not defined. -/
def State.regionLen (s : State) (c k : Nat) : Nat := match s.region c k with | some r => s.regionBytes r.2 | none => 0

/-- Reads bytes of a context's region. -/
def State.regionRead (s : State) (c k o n : Nat) : List Byte :=
  match s.region c k with
  | none => List.replicate n 0
  | some r => (List.range n).map fun i =>
    let a := s.regionAddr r.1 (o + i)
    if o + i < s.regionBytes r.2 then mget s.hbm.mem (hbmKey a.1 a.2) else 0

/-- What the keys of a context's region derive from: HBM root key, generation, context and class (R246, R288). -/
def State.regionKey (s : State) (c k : Nat) : Nat := s.rot.hbmRoot * 2 ^ 40 + s.rd (VLT_GEN_GEN (vltPg c)) * 256 + c * 16 + k + 1

/-- Key of a sector. -/
def sectorKey (m a : Nat) : Nat := m * 2 ^ 32 + a / 256

/-- The page of the stack that holds a sector (R242, R260). -/
def stackPg (m sector : Nat) : Nat := hbcPg m (sector % 6)

/-- A sector passes its tag under the keys `key`: it was written, or its region filled, under them (R248). -/
def State.sectorGood (s : State) (m a key : Nat) : Bool := tget s.hbm.sealKey (sectorKey m a) == key || s.hbm.fills.contains key

/-- Writes one byte of HBM, its sector sealed under the keys `key` (R246, R247, R260); what other keys sealed there is gone. -/
def State.hbmPut (s : State) (m a key : Nat) (b : Byte) : State :=
  let s := if s.sectorGood m a key then s
    else s.setHbm fun h => { h with mem := mzero h.mem (hbmKey m (a / 256 * 256)) (hbmKey m (a / 256 * 256 + 256)) }
  (s.setHbm fun h => { h with mem := mset h.mem (hbmKey m a) b, sealKey := tset h.sealKey (sectorKey m a) key }).bump
    (HBC_WR_BYTES (stackPg m (a / 256))) 1

/-- Writes bytes of a context's region; those beyond it are ignored. -/
def State.regionWrite (s : State) (c k : Nat) : Nat → List Byte → State
  | _, [] => s
  | o, b :: bs =>
    let s := match s.region c k with
      | none => s
      | some r =>
        let a := s.regionAddr r.1 o
        if o < s.regionBytes r.2 then s.hbmPut a.1 a.2 (s.regionKey c k) b else s
    s.regionWrite c k (o + 1) bs

/-! ### Structures in bytes -/

/-- The `n`-byte little-endian number at an offset (R6). -/
def leAt (bs : List Byte) (o n : Nat) : Nat := leNat ((bs.drop o).take n)

/-- The 8-byte word at an offset (R6). -/
def wAt (bs : List Byte) (o : Nat) : Nat := leAt bs o 8

/-- The element `i` of an FP32 array. -/
def f32At (bs : List Byte) (i : Nat) : Nat := leAt bs (4 * i) 4

end Sys2Proof.Machine
end

