-- ==== Sys2Proof/Machine/Image.lean ====
section
/-! DEFINITION. Reading a timetable image and its exchange programs from bytes (R129 to R137, R143, R156, R157). -/

namespace Sys2Proof.Machine

/-- One step record (R131). -/
def readStep (bs : List Byte) (o : Nat) : StepRec :=
  let w := wAt bs o
  ⟨bits w 63 32, bits w 31 0, bit (wAt bs (o + 8)) 1⟩

/-- One list-directory record (R133). -/
def readList (bs : List Byte) (o : Nat) : ListRec :=
  let w := wAt bs o
  ⟨bits w 63 62, bits w 43 32, bits w 31 0, wAt bs (o + 8) % 2 ^ 32⟩

/-- The cutting-list entry of four words (R134). -/
def entryOf (w0 w1 w2 w3 : Nat) : Entry where
  kind := bits w0 63 60
  port := bits w0 55 48
  cidx := bits w0 47 32
  step := bits w0 31 0
  target := bits w1 63 48
  cells := bits w1 47 32
  offset := bits w1 31 0
  srcbuf := bits w2 63 48
  rate := bits w2 47 32
  segment := bits w2 31 0
  expect := bits w3 63 48
  beat := bits w3 47 24
  deadline := bits w3 23 0

/-- The four words of an entry (R134). -/
def entryWords (e : Entry) : List Nat :=
  [e.kind * 2 ^ 60 + e.port * 2 ^ 48 + e.cidx * 2 ^ 32 + e.step, e.target * 2 ^ 48 + e.cells * 2 ^ 32 + e.offset,
   e.srcbuf * 2 ^ 48 + e.rate * 2 ^ 32 + e.segment, e.expect * 2 ^ 48 + e.beat * 2 ^ 24 + e.deadline]

/-- One entry of the image (R134). -/
def readEntry (bs : List Byte) (o : Nat) : Entry := entryOf (wAt bs o) (wAt bs (o + 8)) (wAt bs (o + 16)) (wAt bs (o + 24))

/-- One exchange reference (R137). -/
def readXref (bs : List Byte) (o : Nat) : XRef :=
  let w := wAt bs o
  let v := wAt bs (o + 16)
  ⟨bits w 63 48, bits w 47 24, wAt bs (o + 8) % 2 ^ 32, bits v 63 32, bits v 31 0⟩

/-- One proof record (R143). -/
def readProof (bs : List Byte) (o : Nat) : ProofRec :=
  let w := wAt bs o
  ⟨bits w 63 52, bits w 51 36, bits w 31 0, wAt bs (o + 8)⟩

/-- The members of a program: the list at MLIST_OFF, or LIDs 0 to M − 1 (R156, R157). -/
def readMembers (bs : List Byte) (off m : Nat) : List MemberRec :=
  (List.range m).map fun i =>
    if off = 0 then ⟨i, 0, 0⟩
    else
      let w := wAt bs (off + 8 * i)
      ⟨bits w 15 0, bits w 31 16, bits w 47 32⟩

/-- Reserved bits of the member list (R157). -/
def membersReserved (bs : List Byte) (off m : Nat) : Bool :=
  off != 0 && (List.range m).any fun i => bits (wAt bs (off + 8 * i)) 63 48 != 0

/-- Reserved bits of an operation's body (R169, R173, R175, R178). -/
def bodyReserved (op : Nat) (b : List Byte) : Bool :=
  match op with
  | 3 => bits (wAt b 0) 30 0 != 0 ||
      (List.range (bits (wAt b 0) 39 36)).any fun i => bits (wAt b (8 + 8 * i)) 26 0 != 0
  | 4 => bits (wAt b 0) 39 0 != 0 || (List.range (bits (wAt b 0) 63 48)).any fun u => leAt b (8 + 16 * u + 9) 3 != 0
  | 5 => bit (wAt b 0) 8 || bits (wAt b 8) 31 0 != 0 ||
      (List.range (bits (wAt b 0) 47 32)).any fun e => leAt b (16 + 4 * e + 3) 1 != 0
  | 6 => bits (wAt b 0) 55 0 != 0
  | _ => false

/-- A field that R156 requires to be 0 for the operation is not. -/
def unusedNotZero (op h0 : Nat) (stageDl bodyLen bodyOff : Nat) (ms : List MemberRec) : Bool :=
  ((op == 2 || op == 4) && bit h0 55) || (op != 1 && op != 6 && bits h0 54 52 != 0) ||
  (bits h0 47 44 != 3 && bits h0 43 40 != 3 && op != 6 && bits h0 39 32 != 0) || (op != 5 && stageDl != 0) ||
  ((op == 1 || op == 2) && (bodyLen != 0 || bodyOff != 0)) ||
  (op != 5 && ms.any fun m => m.tokLo != 0 || m.tokN != 0)

/-- An exchange program from its bytes, of which PROG_LEN belong to it (R156). -/
def readProgram (bs : List Byte) : Program :=
  let h0 := wAt bs 0
  let h1 := wAt bs 8
  let h2 := wAt bs 16
  let h3 := wAt bs 24
  let h4 := wAt bs 32
  let h5 := wAt bs 40
  let h6 := wAt bs 48
  let h7 := wAt bs 56
  let op := bits h0 63 56
  let m := bits h1 63 51
  let off := bits h1 31 0
  let ms := readMembers bs off m
  let body := (bs.drop (bits h4 31 0)).take (bits h4 63 32)
  { op := op
    exact := bit h0 55
    red := bits h0 54 52
    infmt := bits h0 47 44
    outfmt := bits h0 43 40
    mxfmt := bits h0 39 32
    elems := bits h0 31 0
    mlistOff := off
    members := ms
    inCells := [bits h2 63 32, bits h2 31 0, bits h3 63 32]
    outLen := bits h3 31 0
    stageDl := bits h5 63 40
    outOff := bits h5 31 0
    branchBeat := bits h6 63 40
    branchCells := bits h6 31 0
    branchRate := bits h7 63 48
    bodyOff := bits h4 31 0
    body := body
    reservedBad := bits h0 51 48 != 0 || bits h1 50 32 != 0 || bits h5 39 32 != 0 || bits h6 39 32 != 0 || bits h7 47 0 != 0 ||
      membersReserved bs off m || bodyReserved op body || unusedNotZero op h0 (bits h5 63 40) (bits h4 63 32) (bits h4 31 0) ms
    beyond := decide (bs.length < 64) || (off != 0 && decide (bs.length < off + 8 * m)) ||
      decide (bs.length < bits h4 31 0 + bits h4 63 32) }

/-- The sections of an image: offset, record size, number of records of the steps, lists, references and entries; then offset
and length of the programs and of the proof (R130). -/
structure Sections where
  steps : Nat × Nat
  lists : Nat × Nat
  xrefs : Nat × Nat
  entries : Nat × Nat
  prog : Nat × Nat
  proof : Nat × Nat

/-- The sections that a header names (R130). -/
def sections (bs : List Byte) : Sections where
  steps := (wAt bs 48 % 2 ^ 32, bits (wAt bs 16) 31 0)
  lists := (bits (wAt bs 48) 63 32, bits (wAt bs 40) 15 0)
  xrefs := (bits (wAt bs 56) 63 32, bits (wAt bs 40) 31 16)
  entries := (wAt bs 56 % 2 ^ 32, bits (wAt bs 40) 63 32)
  prog := (wAt bs 64 % 2 ^ 32, bits (wAt bs 64) 63 32)
  proof := (wAt bs 72 % 2 ^ 32, bits (wAt bs 72) 63 32)

/-- `n` records of `size` bytes from `off`, at most as many as the bytes hold. -/
def records {α : Type} (bs : List Byte) (off n size : Nat) (f : List Byte → Nat → α) : List α :=
  (List.range (min n (bs.length / size))).map fun i => f bs (off + size * i)

/-- An image from its bytes (R130). -/
def readImage (bs : List Byte) : Image :=
  let c := sections bs
  let xrefs := records bs c.xrefs.1 c.xrefs.2 24 readXref
  { version := bits (wAt bs 0) 47 32
    magic := bits (wAt bs 0) 31 0
    totalLen := bits (wAt bs 8) 63 32
    periodNs := bits (wAt bs 8) 31 18
    n := bits (wAt bs 8) 17 5
    context := bits (wAt bs 8) 3 0
    iters := bits (wAt bs 16) 63 32
    iterBeats := bits (wAt bs 24) 63 32
    energyUj := bits (wAt bs 24) 31 0
    restart := bits (wAt bs 32) 63 48
    voidMax := bits (wAt bs 32) 47 40
    settle := bits (wAt bs 32) 39 32
    grace := bits (wAt bs 32) 7 0
    digest := (bs.drop 80).take 32
    steps := records bs c.steps.1 c.steps.2 16 readStep
    lists := records bs c.lists.1 c.lists.2 16 readList
    entries := records bs c.entries.1 c.entries.2 32 readEntry
    xrefs := xrefs
    programs := xrefs.map fun x => readProgram ((bs.drop (c.prog.1 + x.progOff)).take x.progLen)
    proofDigest := (bs.drop c.proof.1).take (min 32 c.proof.2)
    proof := records bs (c.proof.1 + 32) ((c.proof.2 - 32) / 16) 16 readProof }

/-- The image that TTB_IMAGE names (R129). -/
def State.imageBytes (s : State) (c : Nat) : List Byte :=
  s.allocRead c (s.rd (TTB_IMAGE_OFFSET (ttbPg c))) (s.rd (TTB_IMAGE_LEN (ttbPg c)))

/-- The bytes over which DIGEST is computed (R130). -/
def digestInput (bs : List Byte) : List Byte := bs.take 80 ++ List.replicate 32 0 ++ bs.drop 112

/-- A section lies in the image and is 8-byte aligned (R129). -/
def sectionOk (total off len : Nat) : Bool := off % 8 == 0 && decide (off + len ≤ total)

/-- The header and section offsets are good (code 0x01 of R138). -/
def headerOk (bs : List Byte) : Bool :=
  let c := sections bs
  let n := bs.length
  decide (128 ≤ n) && decide (n ≤ 2 ^ 24) && bits (wAt bs 0) 63 48 == 0 && bits (wAt bs 0) 47 32 == 1 &&
  bits (wAt bs 0) 31 0 == 0x54545A44 && bits (wAt bs 8) 63 32 == n && !bit (wAt bs 8) 4 && bits (wAt bs 32) 31 8 == 0 &&
  wAt bs 112 == 0 && wAt bs 120 == 0 && sha256 (digestInput bs) == (bs.drop 80).take 32 &&
  sectionOk n c.steps.1 (16 * c.steps.2) && sectionOk n c.lists.1 (16 * c.lists.2) && sectionOk n c.xrefs.1 (24 * c.xrefs.2) &&
  sectionOk n c.entries.1 (32 * c.entries.2) && sectionOk n c.prog.1 c.prog.2 && sectionOk n c.proof.1 c.proof.2

/-- Reserved bits of the step, list, reference and proof records (R131, R133, R137, R143). -/
def recordsOk (bs : List Byte) : Bool :=
  let c := sections bs
  (List.range (min c.steps.2 bs.length)).all (fun i =>
    let w := wAt bs (c.steps.1 + 16 * i + 8)
    w / 4 == 0 && !bit w 0) &&
  (List.range c.lists.2).all (fun i =>
    let w := wAt bs (c.lists.1 + 16 * i)
    decide (bits w 63 62 ≤ 1) && bits w 61 44 == 0 && wAt bs (c.lists.1 + 16 * i + 8) / 2 ^ 32 == 0 &&
      decide (bits w 31 0 + wAt bs (c.lists.1 + 16 * i + 8) % 2 ^ 32 ≤ c.entries.2)) &&
  (List.range c.xrefs.2).all (fun i =>
    let o := c.xrefs.1 + 24 * i
    let v := wAt bs (o + 16)
    bits (wAt bs o) 23 0 == 0 && wAt bs (o + 8) / 2 ^ 32 == 0 && decide (bits v 63 32 + bits v 31 0 ≤ c.prog.2)) &&
  (List.range ((c.proof.2 - 32) / 16)).all (fun i => bits (wAt bs (c.proof.1 + 32 + 16 * i)) 35 32 == 0)

/-- An entry's reserved fields and fields that are 0 for its kind (R134). -/
def entryOk (bs : List Byte) (o : Nat) : Bool :=
  let e := readEntry bs o
  decide (1 ≤ e.kind) && decide (e.kind ≤ 4) && bits (wAt bs o) 59 56 == 0 &&
    (if e.kind = 3 then e.port == 0 && e.target == 0 && e.cells == 0 && e.rate == 0 && e.beat == 0
     else e.expect == 0 && e.deadline == 0 && (e.kind != 2 || decide (e.cidx < 4)))

/-- The position of an entry in its list's order: STEP, then BEAT (R133). -/
def entryBefore (a b : Entry) : Bool := decide (a.step < b.step) || (a.step == b.step && decide (a.beat ≤ b.beat))

/-- The list that holds entry `i`. -/
def Image.listOf (m : Image) (i : Nat) : Option ListRec := m.lists.find? fun l => decide (l.first ≤ i) && decide (i < l.first + l.count)

/-- A holder takes an entry's kind (R134). -/
def kindFits (holder kind : Nat) : Bool := if holder = 1 then kind == 4 else kind != 4

/-- Entry `i` is bad under code 0x01: a reserved field, its kind, or the order of its list. -/
def Image.entryBad (m : Image) (bs : List Byte) (i : Nat) : Bool :=
  let o := (sections bs).entries.1 + 32 * i
  !entryOk bs o ||
    match m.listOf i, m.entries[i]? with
    | some l, some e => !kindFits l.holder e.kind ||
        (decide (l.first < i) && match m.entries[i - 1]? with | some p => !entryBefore p e | none => false)
    | _, _ => false

/-- Code 0x01 FORMAT: none when the image passes, else the detail of R530. -/
def Image.formatErr (m : Image) (bs : List Byte) : Option Nat :=
  if !headerOk bs || !recordsOk bs then some 0
  else (List.range m.entries.length).find? fun i => m.entryBad bs i

end Sys2Proof.Machine
end

