-- ==== Sys2Proof/Machine/Shape.lean ====
section
/-! DEFINITION. The shape of an exchange: formats, input cells, the layout of the result buffer, the fields of the bodies, and the
check of an exchange program by the engine (R156, R157, R162, R169, R171, R173, R175, R177 to R179, R181, R189, R204, R250, R251,
R257). -/

namespace Sys2Proof.Machine

/-- Bytes of `n` elements in a format: a plain size, or for MX the codec size (R156, R189). -/
def fmtBytes (fmt mx n : Nat) : Nat :=
  match fmt with
  | 0 => 4 * n
  | 1 => 2 * n
  | 2 => 2 * n
  | 3 => match MxFmt.ofByte mx with | some f => f.size n | none => 0
  | _ => n

/-- Bytes rounded up to whole cells of 48. -/
def up48 (n : Nat) : Nat := roundUp n 48

/-! ### Fields of the bodies -/

/-- A TRANSFORM body (R169). -/
def Program.row (p : Program) : Nat := bits (wAt p.body 0) 63 48
def Program.nops (p : Program) : Nat := bits (wAt p.body 0) 47 40
def Program.nparam (p : Program) : Nat := bits (wAt p.body 0) 39 36
def Program.nconst (p : Program) : Nat := bits (wAt p.body 0) 35 31
def Program.rows (p : Program) : Nat := p.elems / p.row
/-- Parameter record `i`. -/
def Program.param (p : Program) (i : Nat) : Nat := wAt p.body (8 + 8 * i)
/-- Offset of the constants. -/
def Program.constOff (p : Program) : Nat := 8 + 8 * p.nparam
/-- Constant `i`. -/
def Program.const (p : Program) (i : Nat) : Nat := leAt p.body (p.constOff + 4 * i) 4
/-- Micro-op word `i` (R170). -/
def Program.microOp (p : Program) (i : Nat) : Nat := leAt p.body (p.constOff + roundUp (4 * p.nconst) 8 + 4 * i) 4
/-- The micro-ops in order. -/
def Program.microOps (p : Program) : List Nat := (List.range p.nops).map p.microOp

/-- A SELECT body (R173). -/
def Program.users (p : Program) : Nat := bits (wAt p.body 0) 63 48
def Program.k (p : Program) : Nat := bits (wAt p.body 0) 47 40

/-- A ROUTE_COMBINE body (R175). -/
def Program.hidden (p : Program) : Nat := bits (wAt p.body 0) 63 48
def Program.experts (p : Program) : Nat := bits (wAt p.body 0) 47 32
def Program.tokens (p : Program) : Nat := bits (wAt p.body 0) 31 24
def Program.cap (p : Program) : Nat := bits (wAt p.body 0) 23 16
def Program.ksel (p : Program) : Nat := bits (wAt p.body 0) 15 12
def Program.gateFn (p : Program) : Bool := bit (wAt p.body 0) 11
def Program.renorm (p : Program) : Bool := bit (wAt p.body 0) 10
def Program.resAdd (p : Program) : Bool := bit (wAt p.body 0) 9
def Program.dispFmt (p : Program) : Nat := bits (wAt p.body 0) 7 0
def Program.gateOff (p : Program) : Nat := bits (wAt p.body 8) 63 32
def Program.owner (p : Program) (e : Nat) : Nat := leAt p.body (16 + 4 * e) 2
def Program.localJ (p : Program) (e : Nat) : Nat := leAt p.body (16 + 4 * e + 2) 1
/-- Members that own an expert, by rising LID (R177). -/
def Program.owners (p : Program) : List Nat :=
  (p.members.map (·.lid)).filter fun l => (List.range p.experts).any fun e => p.owner e == l
/-- J of an owner: one more than its largest local index (R177). -/
def Program.ownerJ (p : Program) (l : Nat) : Nat :=
  (List.range p.experts).foldl (fun a e => if p.owner e = l then max a (p.localJ e + 1) else a) 0
/-- ROWB: a dispatch row (R177). -/
def Program.rowB (p : Program) : Nat := up48 (fmtBytes 3 p.dispFmt p.hidden)
/-- Bytes of an owner's dispatch block and of its index (R177). -/
def Program.indexBytes (p : Program) (l : Nat) : Nat := up48 (2 * p.ownerJ l * p.cap)
def Program.blockBytes (p : Program) (l : Nat) : Nat := p.indexBytes l + p.ownerJ l * p.cap * p.rowB
/-- Offset of an owner's block, and the end of the dispatch area. -/
def Program.blockOff (p : Program) (l : Nat) : Nat :=
  ((p.owners.filter fun x => x < l).map p.blockBytes).sum
def Program.dispatchLen (p : Program) : Nat := (p.owners.map p.blockBytes).sum

/-- OPT_SET and PARAM_OFF of an UPDATE (R178). -/
def Program.optSet (p : Program) : Nat := bits (wAt p.body 0) 63 56
def Program.paramOff (p : Program) : Nat := wAt p.body 8

/-- An operation that runs in the M-dies (R179). -/
def Program.inMdies (p : Program) : Bool := p.op == 6 || (p.op == 1 && decide (262144 < p.elems))

/-! ### Cells and result layout -/

/-- The record of a member. -/
def Program.member (p : Program) (lid : Nat) : Option MemberRec := p.members.find? fun m => m.lid == lid

/-- Cells that member `lid` sends on input `inp` (R156, R173, R177). -/
def Program.inCellsOf (p : Program) (lid inp : Nat) : Nat :=
  if p.op = 5 then
    match inp, p.member lid with
    | 0, some m => m.tokN * ceilDiv (fmtBytes p.infmt p.mxfmt p.hidden) 48
    | 2, some _ => p.ownerJ lid * p.cap * p.rowB / 48
    | _, _ => 0
  else nth p.inCells inp

/-- IN0_CELLS to IN2_CELLS that the fields require (R156, R173, R175). -/
def Program.wantCells (p : Program) : List Nat :=
  match p.op with
  | 4 => [ceilDiv (8 * p.users * p.k) 48, ceilDiv (4 * p.users) 48, 0]
  | 5 => [0, 0, 0]
  | _ => [ceilDiv (fmtBytes p.infmt p.mxfmt p.elems) 48, 0, 0]

/-- The micro-op names output 1, or stores a statistic (R171). -/
def usesOut1 (w : Nat) : Bool := bits w 31 26 == 0x0F && bit w 0
def usesSto (w : Nat) : Bool := bits w 31 26 == 0x10

/-- Bytes of one TRANSFORM output, each row on a 48-byte boundary (R171). -/
def Program.outputBytes (p : Program) : Nat := p.rows * up48 (fmtBytes p.outfmt p.mxfmt p.row)

/-- S of a GATHER part (R204). -/
def Program.gatherPart (p : Program) : Nat := fmtBytes p.outfmt p.mxfmt p.elems

/-- OUT_LEN that the fields require (R156, R171, R173, R177, R178, R204). -/
def Program.wantOut (p : Program) : Nat :=
  match p.op with
  | 2 => up48 (p.members.length * p.gatherPart)
  | 3 => p.outputBytes + (if p.microOps.any usesOut1 then p.outputBytes else 0) +
      if p.microOps.any usesSto then up48 (16 * p.rows) else 0
  | 4 => up48 (8 * p.users)
  | 5 => p.dispatchLen + p.tokens * up48 (fmtBytes p.outfmt p.mxfmt p.hidden)
  | 6 => up48 (fmtBytes 3 p.mxfmt p.elems)
  | _ => up48 (fmtBytes p.outfmt p.mxfmt p.elems)

/-! ### Members and branches -/

/-- FID of a LID of a context, none where it is not mapped (R266). -/
def State.lidFid (s : State) (c lid : Nat) : Option Nat :=
  let w := tget (s.ctx c).map lid
  if bit w 63 then some (w % 2 ^ 14) else none

/-- The FIDs of a slice's members. -/
def State.sliceFids (s : State) (c : Nat) : List Nat :=
  (List.range (s.rd (CTX_SLICE_N (ctxPg c)))).filterMap fun l => s.lidFid c l

/-- The slice spans domains (R264). -/
def State.spans (s : State) (c : Nat) : Bool := (s.sliceFids c).any fun f => f / 256 != s.domain

/-- Domains other than the home domain that hold members of an exchange (R162). -/
def State.branchDomains (s : State) (c : Nat) (p : Program) : List Nat :=
  ((p.members.filterMap fun m => s.lidFid c m.lid).map fun f => f / 256).dedup.filter fun d => d != s.domain

/-- The operation has branch transfers (R162). -/
def Program.branches (p : Program) : Bool := p.op == 1 || p.op == 3

/-- The positions of a domain's members. -/
def State.inDomain (s : State) (c : Nat) (p : Program) (d : Nat) : List Bool :=
  p.members.map fun m => match s.lidFid c m.lid with | some f => f / 256 == d | none => false

/-- All positions of node (k, j) of a tree meets `bs.length` positions belong to the domain (R168). -/
def nodeInside (bs : List Bool) (k j : Nat) : Bool :=
  decide (j * 2 ^ k < bs.length) && ((bs.drop (j * 2 ^ k)).take (2 ^ k)).all id

/-- The maximal nodes of a domain in order of first position, below the node (k, j) (R162, R168). -/
def maximalNodes (bs : List Bool) : Nat → Nat → List (Nat × Nat)
  | 0, j => if nodeInside bs 0 j then [(0, j)] else []
  | k + 1, j =>
    if nodeInside bs (k + 1) j then [(k + 1, j)] else maximalNodes bs k (2 * j) ++ maximalNodes bs k (2 * j + 1)

/-- The maximal nodes of a domain. -/
def maxNodes (bs : List Bool) : List (Nat × Nat) := maximalNodes bs (clog2 bs.length) 0

/-- BRANCH_CELLS that R162 requires of a domain's branch unit. -/
def State.wantBranch (s : State) (c : Nat) (p : Program) (d : Nat) : Nat :=
  if p.red = 1 ∨ p.red = 2 then ceilDiv p.elems 12
  else if p.exact then p.elems
  else (maxNodes (s.inDomain c p d)).length * ceilDiv p.elems 12

/-! ### The engine's check (R181) -/

/-- Code 0x02: a format code or MX type that the operation does not take. UPDATE writes MX weights (R178), for which the spec names no
OUTFMT code: the model takes code 3 alone (DESIGN CHOICE, log entry 136). -/
def Program.formatBad (p : Program) : Bool :=
  let mx := p.infmt == 3 || p.outfmt == 3 || p.op == 6
  (mx && (MxFmt.ofByte p.mxfmt).isNone) ||
  match p.op with
  | 3 => decide (3 < p.infmt) || decide (6 < p.outfmt) ||
      (List.range p.nparam).any fun i => decide (2 < bits (p.param i) 31 28)
  | 4 => p.infmt != 0 || p.outfmt != 0
  | 5 => decide (3 < p.infmt) || decide (3 < p.outfmt) || (MxFmt.ofByte p.dispFmt).isNone
  | 6 => !(p.infmt == 0 || p.infmt == 1 || p.infmt == 3) || p.outfmt != 3 || decide (p.mxfmt % 16 < 4)
  | _ => decide (3 < p.infmt) || decide (3 < p.outfmt)

/-- A list of LIDs rises strictly. -/
def rising : List Nat → Bool
  | a :: b :: r => decide (a < b) && rising (b :: r)
  | _ => true

/-- Code 0x03. -/
def Program.membersBad (p : Program) (n : Nat) : Bool :=
  p.members.isEmpty || p.members.any (fun m => decide (n ≤ m.lid)) || !rising (p.members.map (·.lid)) ||
    (p.op == 5 && p.members.any fun m => decide (p.tokens < m.tokLo + m.tokN))

/-- FP32 value in (0, 1]. -/
def inUnit (x : Nat) : Bool := decide (0 < x) && decide (x ≤ 0x3F800000)

/-- Code 0x05 for the limits of R169, R173, R175 and R179. -/
def Program.limitBad (p : Program) : Bool :=
  decide (4096 < p.members.length) ||
  match p.op with
  | 3 => p.row == 0 || p.row % 32 != 0 || decide (16384 < p.row) || p.elems % p.row != 0 || decide (4096 < p.rows) || p.rows == 0 ||
      p.nops == 0 || decide (32 < p.nops) || decide (8 < p.nparam) || decide (16 < p.nconst)
  | 4 => decide (64 < p.members.length) || p.users == 0 || decide (256 < p.users) || p.k == 0 || decide (64 < p.k) ||
      (List.range p.users).any fun u =>
        !decide (leAt p.body (8 + 16 * u) 4 < 0x7F800000) || !inUnit (leAt p.body (8 + 16 * u + 4) 4)
  | 5 => p.hidden == 0 || p.hidden % 128 != 0 || decide (16384 < p.hidden) || p.experts == 0 || decide (256 < p.experts) ||
      p.tokens == 0 || decide (64 < p.tokens) || p.cap == 0 || decide (64 < p.cap) || p.ksel == 0 || decide (8 < p.ksel) ||
      decide (p.experts < p.ksel) || (List.range p.experts).any fun e => decide (63 < p.localJ e)
  | 6 => decide (2 ^ 31 < p.elems)
  | _ => decide (2 ^ 30 < p.elems)

/-- A micro-op that code 0x06 rejects. -/
def Program.microBad (p : Program) (w : Nat) : Bool :=
  let op := bits w 31 26
  let imm := bits w 13 0
  decide (0x10 < op) || (op == 1 && decide (p.nparam ≤ imm % 8)) || (op == 0x0D && decide (p.nconst ≤ imm % 16)) ||
    (op == 9 && decide (6 < imm)) || (op == 0x0E && decide (10 < imm)) || (op == 0x0A && !(decide (4 ≤ p.outfmt) && decide (p.outfmt ≤ 6)))

/-- Bytes of a TRANSFORM parameter. -/
def Program.paramBytes (p : Program) (i : Nat) : Nat :=
  let w := p.param i
  (if bit w 27 then p.rows else 1) * p.row * (if bits w 31 28 = 0 then 4 else 2)

/-- Bytes of a parameter in the optimizer layout of a context: B of R250. -/
def State.optB (s : State) (c : Nat) : Nat :=
  4 + s.rd (VLT_OPTLAYOUT_MOMENTS (vltPg c)) * (if s.on (VLT_OPTLAYOUT_MFMT (vltPg c)) then 2 else 4)

/-- Bytes that an M-die instance takes in the STAGING region: 40 a element and its result buffer (R179, R257). -/
def Program.stagingBytes (p : Program) : Nat := 40 * p.elems + p.outLen

/-- The first free range of `n` bytes beside those taken, within `total` (R257). -/
def firstFree (taken : List (Nat × Nat)) (n total : Nat) : Option Nat :=
  let cands := sortBy (fun a b => decide (a < b)) (0 :: taken.map fun t => t.1 + t.2)
  cands.find? fun o => decide (o + n ≤ total) && taken.all fun t => decide (o + n ≤ t.1) || decide (t.1 + t.2 ≤ o)

/-- First and last beat at which an instance of a step is open, counted from the beat before the iteration base (R132, R160). -/
def Image.openSpan (m : Image) (st : Nat) : Nat × Nat :=
  let r := m.step st
  (r.start, r.start + r.deadline + m.grace + 2 + m.settle)

/-- Two spans meet, in one iteration or across a seam; a single iteration has none. -/
def Image.spansMeet (m : Image) (a b : Nat × Nat) : Bool :=
  let meets := fun (x y : Nat × Nat) (k : Nat) => decide (x.1 + k ≤ y.2) && decide (y.1 ≤ x.2 + k)
  meets a b 0 || (m.iters != 1 && (meets a b m.iterBeats || meets b a m.iterBeats))

/-- The references with their programs. -/
def Image.exchanges (m : Image) : List (XRef × Program) := m.xrefs.zip m.programs

/-- The program of an XID. -/
def Image.program (m : Image) (xid : Nat) : Option (XRef × Program) := m.exchanges.find? fun x => x.1.xid == xid

/-- The ranges in the STAGING region that the checker gives the M-die instances, in XID order: XID and offset, none where one
does not fit (R257). -/
def State.place (s : State) (c : Nat) (m : Image) : List (Nat × Option Nat) :=
  let xs := sortBy (fun a b => decide (a.1.xid < b.1.xid)) (m.exchanges.filter fun x => x.2.inMdies)
  let total := s.regionLen c 2
  (xs.foldl (fun acc x =>
    let taken := acc.filterMap fun t =>
      match t.2.2 with
      | some o => if m.spansMeet (m.openSpan t.1.step) (m.openSpan x.1.step) then some (o, t.2.1.stagingBytes) else none
      | none => none
    acc ++ [(x.1, x.2, firstFree taken x.2.stagingBytes total)]) ([] : List (XRef × Program × Option Nat))).map
      fun t => (t.1.xid, t.2.2)

/-- The place of an M-die instance's state and result (R257). -/
def State.placeOf (s : State) (c : Nat) (m : Image) (xid : Nat) : Option Nat :=
  ((s.place c m).find? fun t => t.1 == xid).bind (·.2)

/-- Code 0x07 for buffers, parameters, state and the place of an M-die instance (R181, R250, R257). What lies in the M-dies is not
asked of a part that has none, which code 0x08 rejects (log entry 135). -/
def State.spaceBad (s : State) (c : Nat) (m : Image) (x : XRef) (p : Program) : Bool :=
  let len := s.allocLen c
  (!p.inMdies && decide (len < p.outOff + p.outLen)) || (p.inMdies && s.mdies != 0 && (s.placeOf c m x.xid).isNone) ||
  match p.op with
  | 3 => (List.range p.nparam).any fun i => decide (len < bits (p.param i) 63 32 + p.paramBytes i)
  | 5 => decide (len < p.gateOff + 2 * p.hidden * p.experts)
  | 6 => s.mdies != 0 && (p.paramOff % s.optB c != 0 || (s.region c 3).isNone ||
      decide (s.rd (VLT_OPTLAYOUT_TILES (vltPg c)) * 65536 < p.paramOff / s.optB c + p.elems))
  | _ => false

/-- The entries of a LID's list. -/
def Image.entriesOf (m : Image) (holder id : Nat) : List Entry :=
  (m.lists.filter fun l => l.holder == holder && l.id == id).flatMap fun l => (m.entries.drop l.first).take l.count

/-- Cells that a LID contributes to an XID on an input. -/
def Image.contribCells (m : Image) (lid xid inp : Nat) : Nat :=
  (((m.entriesOf 0 lid).filter fun e => e.kind == 2 && e.target == xid && e.cidx % 4 == inp).map (·.cells)).sum

/-- Code 0x09: the CONTRIB entries do not give each member its cell count on each input. -/
def Image.contribBad (m : Image) (x : XRef) (p : Program) : Bool :=
  (List.range m.n).any fun l => (List.range 4).any fun i =>
    m.contribCells l x.xid i != if (p.member l).isSome then p.inCellsOf l i else 0

/-- Code 0x0A: a RESULT entry reads beyond OUT_LEN. -/
def Image.resultBad (m : Image) (x : XRef) (p : Program) : Bool :=
  m.entries.any fun e => e.kind == 4 && e.srcbuf == x.xid && decide (p.outLen < e.segment + 48 * e.cells)

/-- Code 0x0B (R162). -/
def State.branchBad (s : State) (c : Nat) (p : Program) : Bool :=
  if p.branches && s.spans c then
    p.branchRate == 0 || p.branchCells == 0 || (s.branchDomains c p).any fun d => p.branchCells != s.wantBranch c p d
  else p.branchCells != 0 || p.branchBeat != 0 || p.branchRate != 0

/-- Instances open when those of a step open, its own included. -/
def Image.openWith (m : Image) (st : Nat) : Nat :=
  let b := (m.openSpan st).1
  (m.xrefs.filter fun y => m.spansMeet (b, b) (m.openSpan y.step)).length

/-- The most instances of an image that can be open at once. -/
def Image.mostOpen (m : Image) : Nat := (m.xrefs.map fun x => m.openWith x.step).foldl max 0

/-- Instances of the other timetables of the package that can be open at once; how their beats lie to those of a timetable that is
not armed yet is not known, so each counts at its most (R179; log entry 135). -/
def State.othersOpen (s : State) (c : Nat) : Nat :=
  ((List.range 16).map fun k => if k = c then 0 else match (s.ttb k).image with
    | some m => if 3 ≤ s.rd (TTB_STAT_STATE (ttbPg k)) then m.mostOpen else 0
    | none => 0).sum

/-- Code 0x0C (R179). -/
def State.overlapBad (s : State) (c : Nat) (m : Image) (x : XRef) : Bool :=
  let r := m.step x.step
  decide (256 < m.openWith x.step + s.othersOpen c) ||
    (m.iters != 1 && decide (m.iterBeats < r.deadline + m.grace + 1 + m.settle + 2))

/-- Code 0x0D (R175). -/
def Program.expertBad (p : Program) : Bool :=
  p.op == 5 && (List.range p.experts).any fun e =>
    (p.member (p.owner e)).isNone || (List.range e).any fun d => p.owner d == p.owner e && p.localJ d == p.localJ e

/-- Moments that an optimizer needs (R252). -/
def optMoments (opt : Nat) : Nat := nth [0, 1, 1, 2] opt

/-- Code 0x0E (R252). -/
def State.optSetBad (s : State) (c : Nat) (p : Program) : Bool :=
  let pg := vltPg c
  p.op == 6 && (decide (3 < p.optSet) || !s.on (VLT_OPT_CFG_VALID pg p.optSet) ||
    s.rd (VLT_OPTLAYOUT_MOMENTS pg) != optMoments (s.rd (VLT_OPT_CFG_OPT pg p.optSet)))

/-- State tiles that an UPDATE touches on M-die `d` (R250, R251). -/
def State.tilesOn (s : State) (c : Nat) (p : Program) (d : Nat) : List Nat :=
  let first := p.paramOff / s.optB c
  ((List.range ((first + p.elems - 1) / 65536 + 1 - first / 65536)).map (· + first / 65536)).filter
    fun t => t % max 1 s.mdies == d

/-- Code 0x05 for spare slots: tiles of the UPDATE instances that can be open together with one exceed a die's spares (R251). -/
def State.sparesBad (s : State) (c : Nat) (m : Image) (x : XRef) (p : Program) : Bool :=
  p.op == 6 && (List.range s.mdies).any fun d =>
    let open' := m.exchanges.filter fun y => y.2.op == 6 && m.spansMeet (m.openSpan x.step) (m.openSpan y.1.step)
    decide (s.rd (VLT_OPTLAYOUT_SPARE_MIN (vltPg c)) < ((open'.flatMap fun y => s.tilesOn c y.2 d).dedup).length)

/-- The engine's code for an exchange program, none when it is accepted (R181). -/
def State.engineCode (s : State) (c : Nat) (m : Image) (x : XRef) (p : Program) : Option Nat :=
  if p.op = 0 ∨ 6 < p.op ∨ p.reservedBad ∨ ((p.op = 1 ∨ p.op = 6) ∧ 3 < p.red) ∨ (p.op = 6 ∧ (p.red = 1 ∨ p.red = 2)) ∨
      (p.inMdies ∧ p.outOff ≠ 0) then some 1
  else if p.formatBad then some 2
  else if p.membersBad m.n then some 3
  else if p.beyond ∨ p.inCells ≠ p.wantCells ∨ p.outLen ≠ p.wantOut ∨ p.outLen % 48 ≠ 0 then some 4
  else if p.limitBad || s.sparesBad c m x p then some 5
  else if p.op = 3 ∧ p.microOps.any p.microBad then some 6
  else if s.spaceBad c m x p then some 7
  else if s.mdies = 0 ∧ p.inMdies then some 8
  else if m.contribBad x p then some 9
  else if m.resultBad x p then some 0x0A
  else if s.branchBad c p then some 0x0B
  else if s.overlapBad c m x then some 0x0C
  else if p.expertBad then some 0x0D
  else if s.optSetBad c p then some 0x0E
  else none

end Sys2Proof.Machine
end

