-- ==== Sys2Proof/Machine/Check.lean ====
section
/-! DEFINITION. The timetable checker: the checks of R138 in code order, with the details of R530 (R138 to R143, R162, R280,
R530). -/

namespace Sys2Proof.Machine

/-- The active unit of a domain: this unit in its own; elsewhere the unit that sends ACTIVE beat words on a PEER port, unit A
where none is known (R22, R39; log entry 19). -/
def State.activeUnit (s : State) (dom : Nat) : Nat :=
  if dom = s.domain then s.fid
  else match s.links.find? fun p => s.role .dz8 p == 1 && s.farFid .dz8 p / 256 == dom && (s.port .dz8 p).farActive with
    | some p => s.farFid .dz8 p
    | none => dom * 256 + 0xFE

/-- Where a member's CONTRIB cells of an exchange go: the branch unit of its domain where the operation has branches, else the
home unit (R158, R162). -/
def State.contribDest (s : State) (p : Program) (memberFid : Nat) : Nat :=
  if p.branches then s.activeUnit (memberFid / 256) else s.fid

/-- Index, entry and list of every entry that a list holds. -/
def Image.held (m : Image) : List (Nat × Entry × ListRec) :=
  (m.entries.zipIdx).filterMap fun e => (m.listOf e.2).map fun l => (e.2, e.1, l)

/-- A sending entry. -/
def Entry.sending (e : Entry) : Bool := e.kind != 3

/-- Beats in which an entry sends. -/
def Entry.beats (e : Entry) : Nat := ceilDiv e.cells e.rate

/-- A sending entry whose last send beat exceeds its step's DEADLINE; one that has cells and no rate never ends. -/
def Image.tooLate (m : Image) (e : Entry) : Bool :=
  e.sending && ((e.rate == 0 && e.cells != 0) || decide ((m.step e.step).deadline + 1 < e.beat + e.beats))

/-- A timetable in which some step has XDOM = 1 (R140). -/
def Image.xdom (m : Image) : Bool := m.steps.any (·.xdom)

/-! ### Codes 0x03 to 0x05 -/

/-- Code 0x03: the LID at fault. -/
def State.lidErr (s : State) (c : Nat) (m : Image) : Option Nat :=
  if m.n = 0 ∨ s.rd (CTX_SLICE_N (ctxPg c)) < m.n then some 0
  else
    let ids := (m.lists.filter fun l => l.holder == 0).map (·.id)
    ((m.entries.find? fun e => (e.kind == 1 || e.kind == 4) && decide (m.n ≤ e.target)).map (·.target)).orElse fun _ =>
    (ids.find? fun l => decide (m.n ≤ l) || (s.lidFid c l).isNone).orElse fun _ =>
    ((List.range m.n).find? fun l => ids.count l != 1)

/-- A port of the unit leads to a slice member, under the images `t`. -/
def State.leads (s : State) (c : Nat) (t : Table) (port : Nat) : Bool :=
  (s.sliceFids c).any fun f => let e := tget t (s.fid * 2 ^ 14 + f); entValid e && entPort e == port

/-- Code 0x04: the list index. -/
def State.holderErr (s : State) (c : Nat) (m : Image) (t : Table) : Option Nat :=
  (((m.lists.zipIdx).find? fun l => l.1.holder == 1 && !s.leads c t l.1.id).map (·.2)).orElse fun _ =>
    if m.context = c then none else some 0

/-- The latest deadline that a step's EXPECT entries and exchanges set, 0 where it has neither (R131). -/
def Image.wantDeadline (m : Image) (st : Nat) : Nat :=
  max (((m.entries.filter fun e => e.kind == 3 && e.step == st).map (·.deadline)).foldl max 0)
    (((m.xrefs.filter fun x => x.step == st).map (·.deadline)).foldl max 0)

/-- START of the step that follows step `i` after `k` more, across the seam (R132). -/
def Image.startAfter (m : Image) (i k : Nat) : Nat :=
  (m.step ((i + k) % m.steps.length)).start + (i + k) / m.steps.length * m.iterBeats

/-- The overlap bound of R132 is broken at step `i`; a single iteration has no seam. -/
def Image.overlaps (m : Image) (i : Nat) : Bool :=
  (decide (i + 2 < m.steps.length) || m.iters != 1) &&
    decide (m.startAfter i 2 < (m.step i).start + (m.step i).deadline + m.grace + 1 + m.settle)

/-- Bit 31 of a detail of code 0x05. -/
def stepDetail (i : Nat) : Nat := 2 ^ 31 + i

/-- Code 0x05 with its detail. -/
def Image.stepErr (m : Image) : Option Nat :=
  let n := m.steps.length
  if n = 0 ∨ 65536 < n then some (stepDetail 0)
  else if (m.step 0).start + m.iterBeats ≤ (m.step (n - 1)).start then some (stepDetail (n - 1))
  else
    (((List.range (n - 1)).find? fun i => decide ((m.step (i + 1)).start ≤ (m.step i).start)).map fun i => stepDetail (i + 1)).orElse
    fun _ => (((m.entries.zipIdx).find? fun e => decide (n ≤ e.1.step)).map (·.2)).orElse
    fun _ => ((m.xrefs.find? fun x => decide (n ≤ x.step)).map fun x => stepDetail x.step).orElse
    fun _ => (((m.entries.zipIdx).find? fun e => m.tooLate e.1).map (·.2)).orElse
    fun _ => (((List.range n).find? fun i => (m.step i).deadline != m.wantDeadline i).map stepDetail).orElse
    fun _ => ((List.range n).find? fun i => m.overlaps i).map stepDetail

/-! ### Routes and charges (R139) -/

/-- The links of the path that images give from chip `f` to `d`, as far as it lies in the domain; false where an entry is not
valid. -/
def State.path (s : State) (r : Rod) (t : Table) (d : Nat) : Nat → Nat → List RodLink × Bool
  | 0, _ => ([], false)
  | n + 1, f =>
    if f = d ∨ f / 256 ≠ s.domain then ([], true)
    else
      let e := tget t (f * 2 ^ 14 + d)
      if !entValid e then ([], false)
      else match r.endOf f (entPort e) with
        | none => ([], false)
        | some x => let p := s.path r t d n x.far; (x.link :: p.1, p.2)

/-- Sender and destination of a sending entry. -/
def State.endsOf (s : State) (c : Nat) (m : Image) (e : Entry) (l : ListRec) : Nat × Nat :=
  let src := if l.holder = 1 then s.fid else (s.lidFid c l.id).getD 0
  (src, if e.kind = 2 then match m.program e.target with | some x => s.contribDest x.2 src | none => s.fid
    else (s.lidFid c e.target).getD 0)

/-- The domain before `b` on the way from domain `a` to `b` (R102). -/
def lastDomain (sizes : Nat × Nat × Nat) (b : Nat) : Nat → Nat → Nat
  | 0, a => a
  | n + 1, a => let x := nextDomain sizes a b; if x = b then a else lastDomain sizes b n x

/-- The PEER link by which cells of another domain reach this unit. -/
def State.peerInto (s : State) (r : Rod) (dom : Nat) : Option RodLink :=
  let d := lastDomain r.sizes s.domain 24 dom
  ((r.ends s.fid).find? fun e => endRole e s.fid == 1 && e.far / 256 == d && s.usable e.link).map (·.link)

/-- The links of a path that starts at chip `f`, each as a key with its direction: links carry both directions at once (R74, R75; log
entry 97). -/
def hops : Nat → List RodLink → List Nat
  | _, [] => []
  | f, l :: ls => if l.fidA = f then (2 * linkIdent l) :: hops l.fidB ls else (2 * linkIdent l + 1) :: hops l.fidA ls

/-- The path of a sending entry, each link with its direction: its PORT first, then the images. The unit holds the tables and the
capacity of its own domain, so from another domain it is the part from the PEER link into this unit on, and no part that lies in
other domains alone (log entry 97). -/
def State.entryPath (s : State) (r : Rod) (t : Table) (src dst port : Nat) : List Nat × Bool :=
  let fuel := r.chips.length + 1
  if src = dst then ([], true)
  else if src / 256 = s.domain then
    match r.endOf src port with
    | none => ([], false)
    | some x =>
      let p := s.path r t dst fuel x.far
      (hops src (x.link :: p.1), p.2 && entValid (tget t (src * 2 ^ 14 + dst)))
  else if dst / 256 = s.domain then
    let p := s.path r t dst fuel s.fid
    match s.peerInto r (src / 256) with
    | none => (hops s.fid p.1, p.2)
    | some l => (hops (l.fidA + l.fidB - s.fid) (l :: p.1), p.2)
  else ([], true)

/-- One sender's charge: its entry where it has one, its links, its sink, its rate, and the first and last beat charged. -/
structure Charge where
  entry : Option Nat
  /-- Link references with their direction: twice the reference, plus 1 from the end FID_B. -/
  links : List Nat
  sink : Option Nat
  rate : Nat
  lo : Nat
  hi : Nat
  peer : Bool
  ok : Bool

/-- Key of a sink that is a port of the unit, by the reference of its link. -/
def portSink (link : Nat) : Nat := 2 ^ 14 + link

/-- A charge lies on the link with a link reference, in either direction. -/
def Charge.uses (q : Charge) (k : Nat) : Bool := q.links.any fun l => l / 2 == k

/-- Some link of a path joins two domains. -/
def crosses (r : Rod) (ks : List Nat) : Bool :=
  ks.any fun k => r.links.any fun l => linkIdent l == k / 2 && l.fidA / 256 != l.fidB / 256

/-- The charge of a sending entry (R139, R140). -/
def State.chargeOf (s : State) (c : Nat) (m : Image) (r : Rod) (t : Table) (i : Nat) (e : Entry) (l : ListRec) : Charge :=
  let ends := s.endsOf c m e l
  let p := s.entryPath r t ends.1 ends.2 e.port
  let peer := m.xdom && (crosses r p.1 || ends.1 / 256 != ends.2 / 256)
  let lo := (m.step e.step).start + e.beat
  { entry := some i
    links := p.1
    sink := if e.kind = 2 then p.1.getLast?.map fun k => portSink (k / 2) else some ends.2
    rate := e.rate
    lo := lo
    hi := lo + e.beats + b2n peer
    peer := peer
    ok := p.2 }

/-- The charges of the branch transfers of an exchange: on the last link of their PEER route, the only one whose capacity the unit
holds (R162; log entry 97). -/
def State.branchCharges (s : State) (c : Nat) (m : Image) (r : Rod) (x : XRef × Program) : List Charge :=
  if !x.2.branches then []
  else (s.branchDomains c x.2).filterMap fun d => (s.peerInto r d).map fun l =>
    let lo := (m.step x.1.step).start + x.2.branchBeat
    { entry := none, links := hops (l.fidA + l.fidB - s.fid) [l], sink := some (portSink (linkIdent l)), rate := x.2.branchRate, lo := lo
      hi := lo + ceilDiv x.2.branchCells x.2.branchRate + 1, peer := true, ok := true }

/-- Every charge of a timetable. -/
def State.charges (s : State) (c : Nat) (m : Image) (r : Rod) (t : Table) : List Charge :=
  (m.held.filterMap fun h => if h.2.1.sending then some (s.chargeOf c m r t h.1 h.2.1 h.2.2) else none) ++
    m.exchanges.flatMap (s.branchCharges c m r)

/-- How often beat `b`, folded modulo `T`, lies in a charge. -/
def Charge.times (q : Charge) (T b : Nat) : Nat :=
  let d := (b % T + T - q.lo % T) % T
  if q.lo + d ≤ q.hi then (q.hi - q.lo - d) / T + 1 else 0

/-- The load that charges put on beat `b`. -/
def loadAt (qs : List Charge) (T b : Nat) : Nat := (qs.map fun q => q.rate * q.times T b).sum

/-- The first beat, of those at which a charge begins, whose load exceeds `cap`: a load is greatest at one of them. -/
def overAt (qs : List Charge) (T cap : Nat) : Option Nat := (qs.map (·.lo)).find? fun b => decide (cap < loadAt qs T b)

/-- C0 of the link with a link reference in the capacity map (R113). -/
def State.linkC0 (s : State) (k : Nat) : Nat := bits (tget s.route.capMap k) 31 16

/-- Code 0x06: a link charged above its C0. -/
def State.capacityErr (s : State) (m : Image) (qs : List Charge) : Option Nat :=
  ((qs.flatMap (·.links)).dedup.find? fun k =>
    (overAt (qs.filter fun q => q.links.contains k) m.iterBeats (s.linkC0 (k / 2))).isSome).map fun k => k / 2 % 2 ^ 12

/-- What the agent of an FID has reported (R468, R483); an agent that has not reported offers no sink rate. -/
def State.agentInfo (s : State) (fid : Nat) : AgentInfo := (s.agents.find? fun a => a.fid == fid).getD ⟨fid, 0, 2 ^ 32 - 1, 65536⟩

/-- The rate of a sink. -/
def State.sinkRate (s : State) (k : Nat) : Nat := if k < 2 ^ 14 then (s.agentInfo k).sink else s.linkC0 (k - 2 ^ 14)

/-- Code 0x07: the first entry charged to the sink in the failing beat. -/
def State.creditErr (s : State) (m : Image) (qs : List Charge) : Option Nat :=
  (qs.filterMap (·.sink)).dedup.findSome? fun k =>
    let own := qs.filter fun q => q.sink == some k
    (overAt own m.iterBeats (s.sinkRate k)).map fun b =>
      ((own.filter fun q => q.times m.iterBeats b != 0).findSome? (·.entry)).getD 0

/-- Code 0x08. -/
def routeErr (qs : List Charge) : Option Nat := (qs.find? fun q => !q.ok).bind (·.entry)

/-! ### Codes 0x09 to 0x0E -/

/-- Beats from the iteration base in which a step's counters are bound (R135). -/
def Image.boundSpan (m : Image) (st : Nat) : Nat × Nat :=
  ((m.step st).start, (m.step st).start + (m.step st).deadline + m.grace + 1 + m.settle)

/-- Step `b` of an iteration and step `a` of the next can be uncommitted together (R132). -/
def Image.acrossSeam (m : Image) (a b : Nat) : Bool :=
  let x := m.boundSpan a
  let y := m.boundSpan b
  m.iters != 1 && decide (x.1 + m.iterBeats < y.2) && decide (y.1 < x.2 + m.iterBeats)

/-- Two steps can be uncommitted together (R132). -/
def Image.together (m : Image) (a b : Nat) : Bool :=
  let x := m.boundSpan a
  let y := m.boundSpan b
  a == b || (decide (x.1 < y.2) && decide (y.1 < x.2)) || m.acrossSeam a b || m.acrossSeam b a

/-- The LID of the list that holds an entry, for an agent list. -/
def lidOf (l : ListRec) : Option Nat := if l.holder = 0 then some l.id else none

/-- The EXPECT entry of a LID that binds a counter in a step. -/
def Image.binding (m : Image) (lid cidx st : Nat) : Option Entry :=
  (m.held.find? fun h => h.2.1.kind == 3 && lidOf h.2.2 == some lid && h.2.1.cidx == cidx && h.2.1.step == st).map (·.2.1)

/-- Cells sent to a counter of a LID in a step. -/
def Image.sentTo (m : Image) (lid cidx st : Nat) : Nat :=
  ((m.entries.filter fun e => (e.kind == 1 || e.kind == 4) && e.target == lid && e.cidx == cidx && e.step == st).map (·.cells)).sum

/-- Code 0x09 at one entry. -/
def Image.cidxBad (m : Image) (i : Nat) (e : Entry) (l : ListRec) : Bool :=
  decide (0x7FFF < e.cidx) ||
  match e.kind with
  | 3 => (m.held.any fun h => h.2.1.kind == 3 && lidOf h.2.2 == lidOf l && h.2.1.cidx == e.cidx &&
      if h.1 = i then m.acrossSeam e.step e.step else m.together e.step h.2.1.step) || e.expect != m.sentTo l.id e.cidx e.step
  | 2 => false
  | _ => match m.binding e.target e.cidx e.step with
    | none => true
    | some x => decide (x.offset < e.offset + 48 * e.cells)

/-- Code 0x09. -/
def Image.cidxErr (m : Image) : Option Nat := (m.held.find? fun h => m.cidxBad h.1 h.2.1 h.2.2).map (·.1)

/-- Code 0x0A with its detail. -/
def State.xrefErr (s : State) (c : Nat) (m : Image) : Option Nat :=
  let xids := m.xrefs.map (·.xid)
  (xids.find? fun x => decide (0x7FFF < x) || xids.count x != 1).orElse fun _ =>
  ((m.entries.findSome? fun e => if e.kind = 2 ∧ ¬ xids.contains e.target then some e.target
    else if e.kind = 4 ∧ ¬ xids.contains e.srcbuf then some e.srcbuf else none)).orElse fun _ =>
  m.exchanges.findSome? fun x => (s.engineCode c m x.1 x.2).map fun k => k * 2 ^ 24 + x.1.xid

/-- An entry across a PEER link whose receiver's EXPECT deadline lies less than 2 beats after its last send beat (R140). -/
def Image.skewBad (m : Image) (qs : List Charge) : Bool :=
  qs.any fun q => q.peer && match q.entry.bind fun i => m.entries[i]? with
    | none => false
    | some e => e.kind != 2 && match m.binding e.target e.cidx e.step with
      | none => false
      | some x => decide (x.deadline < e.beat + e.beats + 1)

/-- Code 0x0B with its detail. -/
def State.settleErr (s : State) (c : Nat) (m : Image) (qs : List Charge) : Option Nat :=
  let pg := ttbPg c
  if m.grace = 0 ∨ m.settle < s.rd (if m.xdom then TTB_LIMITS_SETTLE_X pg else TTB_LIMITS_SETTLE_D pg) ∨ m.restart < 32 ∨
      m.skewBad qs then some 0
  else (List.range m.n).find? fun l => match s.lidFid c l with
    | some f => decide (m.restart * s.period < (s.agentInfo f).restUs * 1000)
    | none => false

/-- Energy of the armed timetables beside a context's own, µJ (R141). -/
def State.armedEnergy (s : State) (c : Nat) : Nat :=
  ((contexts.filter fun k => k != c && s.armed k).map fun k => s.rd (TTB_ENERGY_DECLARED_UJ (ttbPg k))).sum

/-- The window budget and the idle reservation, µJ (R524). -/
def State.budgetUj (s : State) : Nat := s.rd PWR_BUDGET_BUDGET_W * 4096 * s.period / 1000
def State.idleUj (s : State) : Nat := ceilDiv (s.rd PWR_BUDGET_IDLE_W * 4096 * s.period) 1000

/-- Code 0x0C (R141, R280). -/
def State.energyErr (s : State) (c : Nat) (m : Image) : Bool :=
  let q := s.rd (CTX_QUOTA_ENERGY_UJ (ctxPg c))
  (q != 0 && decide (q < m.energyUj)) || decide (s.budgetUj < m.energyUj + s.armedEnergy c + s.idleUj)

/-- Code 0x0D: a list longer than its holder holds, which for an agent is 65,536 entries (R464). -/
def State.sizeErr (s : State) (c : Nat) (m : Image) : Option Nat :=
  (((m.lists.zipIdx).find? fun l => l.1.holder == 0 &&
    decide ((s.agentInfo ((s.lidFid c l.1.id).getD 0)).maxEntries < l.1.count)).map (·.2)).orElse fun _ =>
      if 4096 < m.xrefs.length then some 0 else none

/-- The link reference of an entry's first hop. -/
def State.firstHop (s : State) (c : Nat) (m : Image) (r : Rod) (e : Entry) (l : ListRec) : Option Nat :=
  (r.endOf (s.endsOf c m e l).1 e.port).map fun x => linkIdent x.link

/-- The link reference that LINK of a proof record names, which holds an index alone: a link of the unit's domain, else one that ends
in it, else the first in the Rod (R143, R456; log entry 137). -/
def State.proofLink (s : State) (r : Rod) (i : Nat) : Option Nat :=
  let ls := r.links.filter fun l => l.index == i
  ((ls.find? fun l => linkDomain l == s.domain).or
    ((ls.find? fun l => l.fidA / 256 == s.domain || l.fidB / 256 == s.domain).or ls.head?)).map linkIdent

/-- References of first hops with the cells that inject on them. -/
def State.injected (s : State) (c : Nat) (m : Image) (r : Rod) : List (Nat × Nat) :=
  m.held.filterMap fun h => if h.2.1.sending then (s.firstHop c m r h.2.1 h.2.2).map fun k => (k, h.2.1.cells) else none

/-- Code 0x0E (R143). -/
def State.proofErr (s : State) (c : Nat) (m : Image) (r : Rod) : Option Nat :=
  let inj := s.injected c m r
  if m.proofDigest ≠ m.digest then some 0xFFFFFFFF
  else (((m.proof.zipIdx).find? fun p => match s.proofLink r p.1.link with
      | none => true
      | some k => decide (s.linkC0 k < p.1.peak) ||
        ((inj.any fun x => x.1 == k) && ((inj.filter fun x => x.1 == k).map (·.2)).sum != p.1.cells)).map (·.2)).orElse fun _ =>
    (inj.find? fun x => s.proofLink r (x.1 % 2 ^ 12) == some x.1 && !m.proof.any fun p => p.link == x.1 % 2 ^ 12).map fun x =>
      0x80000000 + x.1 % 2 ^ 12

/-- A detail under a code. -/
def under (code : Nat) (o : Option Nat) : Option (Nat × Nat) := o.map fun d => (code, d)

/-- The checks from code 0x02 on, in code order against the images `t`: the first failure with its detail (R138). -/
def State.checkRest (s : State) (c : Nat) (m : Image) (r : Rod) (t : Table) (host : Bool) : Option (Nat × Nat) :=
  let qs := s.charges c m r t
  (if m.periodNs = s.period then none else some (2, 0)).orElse fun _ =>
  (under 3 (s.lidErr c m)).orElse fun _ =>
  (under 4 (s.holderErr c m t)).orElse fun _ =>
  (under 5 m.stepErr).orElse fun _ =>
  (if host then none else under 6 (s.capacityErr m qs)).orElse fun _ =>
  (if host then none else under 7 (s.creditErr m qs)).orElse fun _ =>
  (under 8 (routeErr qs)).orElse fun _ =>
  (under 9 m.cidxErr).orElse fun _ =>
  (under 0x0A (s.xrefErr c m)).orElse fun _ =>
  (under 0x0B (s.settleErr c m qs)).orElse fun _ =>
  (if s.energyErr c m then some (0x0C, 0) else none).orElse fun _ =>
  (under 0x0D (s.sizeErr c m)).orElse fun _ =>
  if host then under 0x0E (s.proofErr c m r) else none

/-- The checker runs on the image of a context: code 0x01, then the others (R138). -/
def State.checkNow (s : State) (c : Nat) (host : Bool) : Option (Nat × Nat) :=
  let bs := s.imageBytes c
  let m := readImage bs
  (under 1 (m.formatErr bs)).orElse fun _ => s.checkRest c m s.theRod s.route.active host

/-- An armed timetable checked again against new images (R145). -/
def State.recheck (s : State) (c : Nat) (t : Table) : Option (Nat × Nat) :=
  match (s.ttb c).image with
  | some m => s.checkRest c m s.theRod t (s.on (TTB_STAT_HOSTCHK (ttbPg c)))
  | none => none

end Sys2Proof.Machine
end

