-- ==== Sys2Proof/Machine/Value.lean ====
section
/-! DEFINITION. What the collective engine computes: the values of an instance's inputs and its reductions, row programs, SELECT and
ROUTE_COMBINE (R159, R163 to R177, R189, R199, R204). -/

namespace Sys2Proof.Machine

/-! ### Who contributes -/

/-- The unit serves the context as a branch unit: its home unit lies in another domain (R162, R264). -/
def State.isBranch (s : State) (c : Nat) : Bool := s.rd (CTX_SLICE_HOME (ctxPg c)) / 256 != s.domain

/-- Members whose contributions this unit receives, with their FIDs, in position order (R162). -/
def State.senders (s : State) (c : Nat) (p : Program) : List (MemberRec × Nat) :=
  (p.members.filterMap fun m => (s.lidFid c m.lid).map fun f => (m, f)).filter fun x => !p.branches || x.2 / 256 == s.domain

/-- The branch unit of a domain for an instance: the unit of that domain whose cells it has counted, the active unit where it has
counted none (R162). -/
def State.branchUnit (s : State) (i : Instance) (d : Nat) : Nat :=
  match i.counts.find? fun x => x.input == 3 && x.fid / 256 == d with
  | some x => x.fid
  | none => s.activeUnit d

/-- Senders, inputs and cell counts that an instance expects, the branch units being those that `far` names (R156, R160, R162). -/
def State.expects (s : State) (c : Nat) (p : Program) (far : Nat → Nat) : List (Nat × Nat × Nat) :=
  ((s.senders c p).flatMap fun x => (List.range 3).filterMap fun i =>
    if p.inCellsOf x.1.lid i = 0 then none else some (x.2, i, p.inCellsOf x.1.lid i)) ++
  if p.branches && !s.isBranch c then (s.branchDomains c p).map fun d => (far d, 3, p.branchCells) else []

/-- Cells counted from a sender on an input. -/
def Instance.count (i : Instance) (fid inp : Nat) : Nat :=
  match i.counts.find? fun x => x.fid == fid && x.input == inp with
  | some x => x.count
  | none => 0

/-- Every expected count has been reached (R160). -/
def State.completeInst (s : State) (p : Program) (i : Instance) : Bool :=
  (s.expects i.ctx p (s.branchUnit i)).all fun x => i.count x.1 x.2.1 == x.2.2

/-! ### Input values -/

/-- A stored cell. -/
def Instance.stored (i : Instance) (fid inp idx : Nat) : Option StoredCell :=
  i.cells.find? fun x => x.fid == fid && x.input == inp && x.index == idx

/-- The 48 bytes of a payload. -/
def payloadBytes (ws : List Word) : List Byte := (List.range 6).flatMap fun k => leBytes 8 (ws.getD k 0).toNat

/-- Bytes of a sender's input space, 0 where no cell is stored (R159). -/
def Instance.bytes (i : Instance) (fid inp o n : Nat) : List Byte :=
  (List.range n).map fun k => match i.stored fid inp ((o + k) / 48) with
    | some x => (payloadBytes x.payload).getD ((o + k) % 48) 0
    | none => 0

/-- An element of a plain format as FP32; no NaN keeps its payload (R163). -/
def elemOf (fmt x : Nat) : Nat :=
  match fmt with
  | 1 => toFp32 bf16 x
  | 2 => toFp32 fp16 x
  | _ => if fp32.isNan x then fp32.nan else x

/-- An FP32 value in a plain output format (R167). -/
def elemTo (fmt x : Nat) : Nat :=
  match fmt with
  | 1 => fromFp32 bf16 x
  | 2 => fromFp32 fp16 x
  | _ => x

/-- The rounding format of a format code; MX rounds to FP32 first (R166). -/
def fmtOf (code : Nat) : Fmt :=
  match code with
  | 1 => bf16
  | 2 => fp16
  | _ => fp32

/-- Key of a decoded element of an input. -/
def decKey (inp e : Nat) : Nat := inp * 2 ^ 40 + e

/-- A decoded element. -/
def Instance.decodedAt (i : Instance) (fid inp e : Nat) : Nat :=
  match i.decoded.find? fun x => x.1 == fid && x.2.1 == decKey inp e with
  | some x => x.2.2
  | none => 0

/-- Geometry of an MX input: format byte, row length in elements, row stride in bytes, rows (R177, R189). -/
def Program.inShape (p : Program) (lid inp : Nat) : Nat × Nat × Nat × Nat :=
  if p.op = 5 then
    if inp = 2 then (p.dispFmt, p.hidden, p.rowB, p.ownerJ lid * p.cap)
    else (p.mxfmt, p.hidden, up48 (fmtBytes p.infmt p.mxfmt p.hidden), match p.member lid with | some m => m.tokN | none => 0)
  else (p.mxfmt, p.elems, fmtBytes p.infmt p.mxfmt p.elems, 1)

/-- The codec decodes the input: it is MX, and not that of a GATHER which copies MX (R156, R175, R204). -/
def Program.inMx (p : Program) (inp : Nat) : Bool :=
  p.infmt == 3 && inp == 0 && !(p.op == 2 && p.outfmt == 3) || p.op == 5 && inp == 2

/-- Element `k` of row `r` of an input, as FP32. -/
def Program.inVal (p : Program) (i : Instance) (lid fid inp r k : Nat) : Nat :=
  let g := p.inShape lid inp
  if p.inMx inp then i.decodedAt fid inp (r * g.2.1 + k)
  else
    let z := fmtBytes p.infmt 0 1
    elemOf p.infmt (leNat (i.bytes fid inp (r * g.2.2.1 + k * z) z))

/-! ### Reductions -/

/-- The exact accumulator of an element: of the instance, or of the merge cache with its spilled part (R165, R254). -/
def State.accAt (s : State) (p : Program) (i : Instance) (e : Nat) : Acc :=
  let get := fun (l : List (Nat × Acc)) (k : Nat) => match l.find? fun x => x.1 == k with | some x => x.2 | none => Acc.zero
  if p.inMdies then
    ((s.hbm.slots ++ s.hbm.spilled).filter fun x => x.ctx == i.ctx && x.xid == i.xid && x.block == e / 384).foldl
      (fun a x => a.merge (get x.accs (e % 384))) Acc.zero
  else get i.accs e

/-- The exact sum is used: EXACT with sum or mean (R164, R167). -/
def Program.exactSum (p : Program) : Bool := p.exact && (p.red == 0 || p.red == 3)

/-- Word `k` of a branch unit's stored branch-transfer cell, as FP32. -/
def Instance.branchVal (i : Instance) (unit cell k : Nat) : Nat :=
  match i.stored unit 3 cell with
  | some x => elemOf 0 (leAt (payloadBytes x.payload) (4 * k) 4)
  | none => 0

/-- The value of a node that a branch transfer holds (R162, R168). -/
def State.branchNode (s : State) (p : Program) (i : Instance) (e k j : Nat) : Option Nat :=
  (s.branchDomains i.ctx p).findSome? fun d =>
    ((maxNodes (s.inDomain i.ctx p d)).zipIdx.find? fun n => n.1 == (k, j)).map fun n =>
      i.branchVal (s.branchUnit i d) (n.2 * ceilDiv p.elems 12 + e / 12) (e % 12)

/-- A tree node, taken from `given` where that holds it (R168). -/
def treeGiven (leaf : Nat → Nat) (given : Nat → Nat → Option Nat) (m : Nat) : Nat → Nat → Nat
  | 0, j => (given 0 j).getD (leaf j)
  | k + 1, j =>
    match given (k + 1) j with
    | some v => v
    | none =>
      let lo := treeGiven leaf given m k (2 * j)
      if (2 * j + 1) * 2 ^ k ≥ m then lo else fpAdd lo (treeGiven leaf given m k (2 * j + 1))

/-- The FP32 value of the member at a position. -/
def State.posVal (s : State) (p : Program) (i : Instance) (e j : Nat) : Nat :=
  match p.members[j]? with
  | none => 0
  | some m => match s.lidFid i.ctx m.lid with
    | some f => p.inVal i m.lid f 0 0 e
    | none => 0

/-- The value of a tree node of element `e` at this unit. -/
def State.nodeAt (s : State) (p : Program) (i : Instance) (e k j : Nat) : Nat :=
  treeGiven (s.posVal p i e) (if p.branches && !s.isBranch i.ctx then s.branchNode p i e else fun _ _ => none) p.members.length k j

/-- Element-wise max or min over this unit's senders and the branches (R167). -/
def State.extreme (s : State) (p : Program) (i : Instance) (e : Nat) : Nat :=
  let own := (s.senders i.ctx p).map fun x => p.inVal i x.1.lid x.2 0 0 e
  let far := if p.branches && !s.isBranch i.ctx then (s.branchDomains i.ctx p).map fun d => i.branchVal (s.branchUnit i d) (e / 12) (e % 12) else []
  match own ++ far with
  | [] => 0
  | x :: r => r.foldl (if p.red = 1 then fpMax else fpMin) x

/-- FP32 of a natural number. -/
def fpOf (n : Nat) : Nat := fp32.roundInt false n 0

/-- Reduced element `e` in the output format `code` (R164 to R168). -/
def State.reduced (s : State) (p : Program) (i : Instance) (code e : Nat) : Nat :=
  if p.red = 1 ∨ p.red = 2 then elemTo code (s.extreme p i e)
  else if p.exact then (s.accAt p i e).roundDiv (fmtOf code) (if p.red = 3 then p.members.length else 1)
  else
    let v := s.nodeAt p i e (clog2 p.members.length) 0
    elemTo code (if p.red = 3 then fpDiv v (fpOf p.members.length) else v)

/-! ### Row programs (R169 to R172) -/

/-- FP8 type of a format code. -/
def fp8 (code : Nat) : MxFmt := ⟨false, false, code - 1⟩

/-- `num × 2^-e` rounded to the nearest natural number, ties to even. -/
def nearestNat (num e : Nat) : Nat :=
  let n := num / 2 ^ e
  let r := num % 2 ^ e
  if 2 ^ e < 2 * r ∨ (2 * r = 2 ^ e ∧ n % 2 = 1) then n + 1 else n

/-- The byte of a finite value `num × 2^-e` with its sign in INT8 or FP8, and whether it saturated (R170; INT8 runs from −128 to 127,
log entry 21). -/
def byteOf (code : Nat) (neg : Bool) (num e : Nat) : Nat × Bool :=
  if code = 4 then
    let n := nearestNat num e
    if neg then (if 128 < n then (128, true) else (unsigned 8 (-(n : Int)), false)) else if 127 < n then (127, true) else (n, false)
  else
    let f := fp8 code
    let sign := if neg then 128 else 0
    let c := Fmt.round ⟨f.man + 1, 1 - (f.bias : Int), 1000, 64⟩ false num 1 (-e)
    if f.maxCode < c then (sign + f.maxCode, true) else (sign + c, false)

/-- The byte of an infinity, which saturates. -/
def byteOfInf (code : Nat) (neg : Bool) : Nat × Bool :=
  if code = 4 then (if neg then 128 else 127, true) else ((if neg then 128 else 0) + (fp8 code).maxCode, true)

/-- The byte of a NaN (R170). -/
def byteOfNan (code : Nat) : Nat × Bool := (if code = 4 then 0 else if code = 5 then 0x7F else 0x7E, false)

/-- An FP32 value in INT8 or FP8: its byte, and whether it saturated. -/
def toByte (code x : Nat) : Nat × Bool :=
  if fp32.isNan x then byteOfNan code
  else if fp32.isInf x then byteOfInf code (fp32.neg x)
  else byteOf code (fp32.neg x) (fp32.units x) 149

/-- The product of two FP32 values in INT8 or FP8 by one rounding (R170 QNT). -/
def toByteMul (code x y : Nat) : Nat × Bool :=
  let neg := fp32.neg x != fp32.neg y
  if fp32.isNan (fpMul x y) then byteOfNan code
  else if fp32.isInf x || fp32.isInf y then byteOfInf code neg
  else byteOf code neg (fp32.units x * fp32.units y) 298

/-- The FP32 value of an INT8 or FP8 byte. -/
def ofByteVal (code b : Nat) : Nat :=
  if code = 4 then fp32.roundInt false (signed 8 b) 0
  else
    let f := fp8 code
    if f.maxCode < b % 128 ∧ (code = 5 ∨ b % 128 ≠ 0x7C) then fp32.nan
    else if code = 6 ∧ b % 128 = 0x7C then fp32.signed (bit b 7) fp32.inf
    else fp32.roundInt (bit b 7) (if bit b 7 then -(f.units (b % 128) : Int) else f.units (b % 128)) f.ulp

/-- The registers of a row program with its outputs, statistics and QNT saturations. -/
structure RowSt where
  v : List (List Nat)
  sc : List Nat
  out : List (Option (List Nat))
  sto : List Nat
  sat : Nat

/-- Parameter `n` of a row as FP32 values (R169). -/
def State.paramRow (s : State) (c : Nat) (p : Program) (n row : Nat) : List Nat :=
  let w := p.param n
  let fmt := bits w 31 28
  let z := fmtBytes fmt 0 1
  let base := bits w 63 32 + if bit w 27 then row * p.row * z else 0
  (List.range p.row).map fun k => elemOf fmt (leNat (s.allocRead c (base + k * z) z))

/-- One micro-op (R170). -/
def State.micro (s : State) (c : Nat) (p : Program) (row : Nat) (r : RowSt) (w : Nat) : RowSt :=
  let d := bits w 25 23
  let imm := bits w 13 0
  let va := r.v.getD (bits w 22 20) []
  let vb := r.v.getD (bits w 19 17) []
  let vc := r.v.getD (bits w 16 14) []
  let sa := nth r.sc (bits w 22 20)
  let sb := nth r.sc (bits w 19 17)
  let setV := fun x => { r with v := setNth r.v d x }
  let setS := fun x => { r with sc := setNth r.sc d x }
  match bits w 31 26 with
  | 0x01 => setV (s.paramRow c p (imm % 8) row)
  | 0x02 => setV va
  | 0x03 => setV (va.zipWith fpAdd vb)
  | 0x04 => setV (va.zipWith fpSub vb)
  | 0x05 => setV (va.zipWith fpMul vb)
  | 0x06 => setV ((va.zip vb).zipWith (fun x z => fpFma x.1 x.2 z) vc)
  | 0x07 => setV (va.map fun x => fpAdd x sb)
  | 0x08 => setV (va.map fun x => fpMul x sb)
  | 0x09 => setV (va.map (actFn imm))
  | 0x0A =>
    let q := va.map fun x => toByteMul p.outfmt x sb
    { r with v := setNth r.v d (q.map fun x => ofByteVal p.outfmt x.1), sat := r.sat + (q.filter (·.2)).length }
  | 0x0B => setS (exactSum va)
  | 0x0C => setS (match va with | [] => 0 | x :: t => t.foldl fpMax x)
  | 0x0D => setS (elemOf 0 (p.const (imm % 16)))
  | 0x0E => setS (sopFn imm sa sb)
  | 0x0F => { r with out := setNth r.out (imm % 2) (some va) }
  | 0x10 => { r with sto := setNth r.sto (imm % 4) sa }
  | _ => r

/-- A row's program run on its sum (R169 to R171). -/
def State.runRow (s : State) (c : Nat) (p : Program) (row : Nat) (sum : List Nat) : RowSt :=
  let zero := List.replicate p.row 0
  let r0 : RowSt := ⟨setNth (List.replicate 8 zero) 0 sum, List.replicate 8 0, [none, none], [0, 0, 0, 0], 0⟩
  let r := p.microOps.foldl (s.micro c p row) r0
  if p.microOps.any fun w => bits w 31 26 == 0x0F then r else { r with out := setNth r.out 0 (r.v[0]?) }

/-- A row of a TRANSFORM. -/
def State.transformRow (s : State) (p : Program) (i : Instance) (row : Nat) : RowSt :=
  s.runRow i.ctx p row ((List.range p.row).map fun k => s.reduced p i 0 (row * p.row + k))

/-! ### SELECT (R173, R174) -/

/-- A candidate: z, logit order key, token. -/
structure Cand where
  z : Nat
  token : Nat

/-- INV_T, TOP_P, TOP_K and SALT of a user. -/
def Program.user (p : Program) (u : Nat) : Nat × Nat × Nat × Nat :=
  let o := 8 + 16 * u
  (leAt p.body o 4, leAt p.body (o + 4) 4, leAt p.body (o + 8) 1, leAt p.body (o + 12) 4)

/-- The valid candidates of a user, in order, without repeated tokens; where NaN and −0 stand in the order is the model's choice (log
entry 139). -/
def State.candidates (s : State) (p : Program) (i : Instance) (u : Nat) : List Cand :=
  let inv := (p.user u).1
  let all := (s.senders i.ctx p).flatMap fun x => (List.range p.k).filterMap fun k =>
    let b := i.bytes x.2 0 (8 * (u * p.k + k)) 8
    if leAt b 7 1 = 1 then some (⟨if inv = 0 then leAt b 0 4 else fpMul (leAt b 0 4) inv, leAt b 4 3⟩ : Cand) else none
  let sorted := sortBy (fun a b : Cand => decide (fpKey b.z < fpKey a.z) || (fpKey a.z == fpKey b.z && decide (a.token < b.token))) all
  sorted.foldl (fun acc c => if acc.any (fun x : Cand => x.token == c.token) then acc else acc ++ [c]) []

/-- The largest of a list of FP32 values. -/
def fpMaxList : List Nat → Nat
  | [] => 0
  | x :: r => r.foldl fpMax x

/-- Running sums of the kept candidates (R174). -/
def keepRun (zs : List Nat) (logz topP : Nat) : List Nat :=
  (zs.foldl (fun (a : List Nat × Nat × Bool) z =>
    if a.2.2 || (!a.1.isEmpty && fpGe a.2.1 topP) then (a.1, a.2.1, true)
    else let cum := fpAdd a.2.1 (fpExp (fpSub z logz)); (a.1 ++ [cum], cum, false)) ([], 0, false)).1

/-- Schedule beat of a step (R174). -/
def Image.schedBeat (m : Image) (iter st : Nat) : Nat := iter * m.iterBeats + (m.step st).start

/-- The record of a user: token, flags, log-probability (R174). -/
def State.selectUser (s : State) (p : Program) (i : Instance) (beat seed u : Nat) : Nat × Nat × Nat :=
  let w := p.user u
  let cs := s.candidates p i u
  match cs with
  | [] => (0xFFFFFF, 0, fp32.nan)
  | c0 :: _ =>
    if w.1 = 0 then (c0.token, 3, 0)
    else
      let lse := (s.senders i.ctx p).map fun x => leNat (i.bytes x.2 1 (4 * u) 4)
      let mx := fpMaxList lse
      let logz := fpAdd mx (fpLog (exactSum (lse.map fun l => fpExp (fpSub l mx))))
      let n := if w.2.2.1 ≠ 0 then min cs.length w.2.2.1 else cs.length
      let run := keepRun ((cs.take n).map (·.z)) logz w.2.1
      let g24 := genOf seed w.2.2.2 beat 0 2 0x1000 i.xid / 256
      let x := fpMul (fp32.roundInt false g24 (-24)) (run.getLast?.getD 0)
      let k := ((run.zipIdx.find? fun r => fpLt x r.1).map (·.2)).getD (run.length - 1)
      let c := (cs[k]?).getD c0
      (c.token, 1, fpSub c.z logz)

/-! ### ROUTE_COMBINE (R175 to R177) -/

/-- The members that cover token `t`, with the row they send. -/
def State.tokCovers (s : State) (p : Program) (c t : Nat) : List (Nat × Nat × Nat) :=
  (s.senders c p).filterMap fun x =>
    if x.1.tokLo ≤ t ∧ t < x.1.tokLo + x.1.tokN then some (x.1.lid, x.2, t - x.1.tokLo) else none

/-- h[t][k] (R176). -/
def State.hiddenAt (s : State) (p : Program) (i : Instance) (t k : Nat) : Nat :=
  let xs := (s.tokCovers p i.ctx t).map fun m => p.inVal i m.1 m.2.1 0 m.2.2 k
  if p.exact then exactSum xs else treeSum xs

/-- Logits of a token (R176). -/
def State.logits (s : State) (p : Program) (c : Nat) (h : List Nat) : List Nat :=
  let x := h.map fun v => toFp32 bf16 (fromFp32 bf16 v)
  (List.range p.experts).map fun e =>
    (List.range (p.hidden / 128)).foldl (fun l b =>
      fpAdd l (exactDot ((x.drop (128 * b)).take 128) ((List.range 128).map fun k =>
        toFp32 bf16 (leNat (s.allocRead c (p.gateOff + 2 * ((128 * b + k) * p.experts + e)) 2))))) 0

/-- Softmax over a list (R176). -/
def softmax (ls : List Nat) : List Nat :=
  let mx := fpMaxList ls
  let ex := ls.map fun l => fpExp (fpSub l mx)
  let sum := exactSum ex
  ex.map fun x => fpDiv x sum

/-- Indices of the `k` largest values, equal values by rising index; where NaN and −0 stand among them is the model's choice (R176; log
entry 139). -/
def topK (k : Nat) (xs : List Nat) : List Nat :=
  ((sortBy (fun a b : Nat × Nat => decide (fpKey b.1 < fpKey a.1) || (fpKey a.1 == fpKey b.1 && decide (a.2 < b.2)))
    xs.zipIdx).take k).map (·.2)

/-- Chosen experts of a token with their weights, in rank order (R176). -/
def State.choose (s : State) (p : Program) (c : Nat) (h : List Nat) : List (Nat × Nat) :=
  let l := s.logits p c h
  if p.gateFn then
    let ch := topK p.ksel l
    ch.zip (softmax (ch.map (nth l)))
  else
    let pr := softmax l
    (topK p.ksel pr).map fun e => (e, nth pr e)

/-- Capacity: token by token, rank by rank; the kept choices (token, expert, slot, weight) (R176). -/
def capacity (cap : Nat) (all : List (Nat × Nat × Nat)) : List (Nat × Nat × Nat × Nat) :=
  all.foldl (fun acc x =>
    let fill := (acc.filter fun y => y.2.1 == x.2.1).length
    if fill < cap then acc ++ [(x.1, x.2.1, fill, x.2.2)] else acc) []

/-- Kept weights of a token divided by their exact sum (R176). -/
def renormed (kept : List (Nat × Nat × Nat × Nat)) : List (Nat × Nat × Nat × Nat) :=
  kept.map fun x =>
    let sum := exactSum ((kept.filter fun y => y.1 == x.1).map (·.2.2.2))
    (x.1, x.2.1, x.2.2.1, fpDiv x.2.2.2 sum)

/-- Stage 1: hidden rows and kept choices (R176). -/
def State.stage1 (s : State) (p : Program) (i : Instance) : List Nat × List (Nat × Nat × Nat × Nat) :=
  let rows := (List.range p.tokens).map fun t => (List.range p.hidden).map fun k => s.hiddenAt p i t k
  let all := (rows.zipIdx).flatMap fun r => (s.choose p i.ctx r.1).map fun x => (r.2, x.1, x.2)
  let kept := capacity p.cap all
  (rows.flatten, if p.renorm then renormed kept else kept)

/-- h[t][k] as stage 1 left it. -/
def Instance.hiddenOf (i : Instance) (p : Program) (t k : Nat) : Nat := nth i.hidden (t * p.hidden + k)

/-- out[t][k]: the combine, rounded once to the output format (R166, R176). -/
def State.combined (s : State) (p : Program) (i : Instance) (t k : Nat) : Nat :=
  let terms := (i.choices.filter fun x => x.1 == t).map fun x =>
    let lid := p.owner x.2.1
    let fid := (s.lidFid i.ctx lid).getD 0
    fpMul x.2.2.2 (p.inVal i lid fid 2 (p.localJ x.2.1 * p.cap + x.2.2.1) k)
  if terms.isEmpty then (if p.resAdd then elemTo p.outfmt (i.hiddenOf p t k) else 0)
  else exactSumTo (fmtOf p.outfmt) (if p.resAdd then i.hiddenOf p t k :: terms else terms)

/-- Token in slot `sl` of local expert `j` of an owner. -/
def Instance.slotToken (i : Instance) (p : Program) (lid j sl : Nat) : Option Nat :=
  (i.choices.find? fun x => p.owner x.2.1 == lid && p.localJ x.2.1 == j && x.2.2.1 == sl).map (·.1)

end Sys2Proof.Machine
end

