-- ==== Sys2Proof/Machine/Update.lean ====
section
/-! DEFINITION. The near-memory units: merge cache, optimizer, tile map, commit and rollback of fused update (R250 to R257). -/

namespace Sys2Proof.Machine

/-! ### Tiles and slots (R250, R251) -/

/-- Bytes of a state tile. -/
def State.tileBytes (s : State) (c : Nat) : Nat := 65536 * s.optB c

/-- Slots of an M-die for state tiles, after the 16 MiB of the maps (R251). -/
def State.slotCount (s : State) (c : Nat) : Nat :=
  match s.region c 3 with
  | some r => (r.2 * 2 ^ 26 - 2 ^ 24) / max 1 (s.tileBytes c)
  | none => 0

/-- Key of the tile map. -/
def mapKey (c copy t : Nat) : Nat := (c * 2 + copy) * 2 ^ 20 + t

/-- The copy of the tile map that an M-die's selector sector names (R256). -/
def State.copyOf (s : State) (c d : Nat) : Nat := tget s.hbm.selector (c * 4 + d)

/-- The M-die of a tile (R251). -/
def State.tileDie (s : State) (t : Nat) : Nat := t % max 1 s.mdies

/-- The slot of a tile in a copy of the map; an unlisted tile has the slot of the map's reset (R251). -/
def State.slotIn (s : State) (c copy t : Nat) : Nat :=
  match tget s.hbm.tileMap (mapKey c copy t) with
  | 0 => t / max 1 s.mdies
  | n + 1 => n

/-- The slot of a tile. -/
def State.slotOf (s : State) (c t : Nat) : Nat := s.slotIn c (s.copyOf c (s.tileDie t)) t

/-- The M-address of a slot. -/
def State.slotAddr (s : State) (c slot : Nat) : Nat :=
  match s.region c 3 with
  | some r => r.1 * 2 ^ 26 + 2 ^ 24 + slot * s.tileBytes c
  | none => 0

/-- Number of state tiles of a context. -/
def State.tiles (s : State) (c : Nat) : Nat := s.rd (VLT_OPTLAYOUT_TILES (vltPg c))

/-- A slot of a die is taken by the map or by a pending tile. -/
def State.slotUsed (s : State) (c d slot : Nat) : Bool :=
  ((List.range (s.tiles c)).any fun t => s.tileDie t == d && s.slotOf c t == slot) ||
    s.hbm.pending.any fun x => x.1 == c && s.tileDie x.2.2.1 == d && x.2.2.2 == slot

/-- The lowest spare slot of a die. -/
def State.spareSlot (s : State) (c d : Nat) : Nat :=
  ((List.range (s.slotCount c)).find? fun k => !s.slotUsed c d k).getD 0

/-- The pending slot of a tile for an instance. -/
def State.pendingSlot (s : State) (c xid t : Nat) : Option Nat :=
  (s.hbm.pending.find? fun x => x.1 == c && x.2.1 == xid && x.2.2.1 == t).map (·.2.2.2)

/-- Copies `n` bytes within an M-die. -/
def State.hbmCopy (s : State) (d a b n key : Nat) : State :=
  (List.range n).foldl (fun s k => s.hbmPut d (b + k) key (mget s.hbm.mem (hbmKey d (a + k)))) s

/-- A tile takes its pending slot, which starts as a copy of its state (R255). -/
def State.takePending (s : State) (c xid t : Nat) : State :=
  match s.pendingSlot c xid t with
  | some _ => s
  | none =>
    let d := s.tileDie t
    let k := s.spareSlot c d
    let s := s.hbmCopy d (s.slotAddr c (s.slotOf c t)) (s.slotAddr c k) (s.tileBytes c) (s.regionKey c 3)
    s.setHbm fun h => { h with pending := h.pending ++ [(c, xid, t, k)] }

/-! ### The optimizer (R252, R253) -/

/-- Reads `n` bytes of an M-die as a number. -/
def State.hbmNat (s : State) (d a n : Nat) : Nat := leNat (mread s.hbm.mem (hbmKey d a) n)

/-- Writes `n` bytes of a number to an M-die. -/
def State.hbmNatPut (s : State) (d a key n v : Nat) : State :=
  ((leBytes n v).zipIdx).foldl (fun s b => s.hbmPut d (a + b.2) key b.1) s

/-- Bytes of a moment. -/
def State.momentBytes (s : State) (c : Nat) : Nat := if s.on (VLT_OPTLAYOUT_MFMT (vltPg c)) then 2 else 4

/-- sign of R253. -/
def fpSign (x : Nat) : Nat :=
  if fp32.isNan x then fp32.nan else if fp32.isZero x then 0 else fp32.signed (fp32.neg x) fpOne

/-- One parameter: weight and moments after the step (R253). -/
def optStep (o : OptSet) (g w m v : Nat) : Nat × Nat × Nat :=
  let c1 := fpSub fpOne o.b1
  let c2 := fpSub fpOne o.b2
  match o.opt with
  | 0 => (fpSub w (fpMul o.lr (fpAdd g (fpMul o.wd w))), m, v)
  | 1 =>
    let m := fpAdd (fpMul o.b1 m) (fpAdd g (fpMul o.wd w))
    (fpSub w (fpMul o.lr m), m, v)
  | 2 =>
    let c := fpAdd (fpMul o.b1 m) (fpMul c1 g)
    (fpSub w (fpMul o.lr (fpAdd (fpSign c) (fpMul o.wd w))), fpAdd (fpMul o.b2 m) (fpMul c2 g), v)
  | _ =>
    let q1 := fpMul o.p1 o.b1
    let q2 := fpMul o.p2 o.b2
    let m := fpAdd (fpMul o.b1 m) (fpMul c1 g)
    let v := fpAdd (fpMul o.b2 v) (fpMul c2 (fpMul g g))
    let mh := fpDiv m (fpSub fpOne q1)
    let vh := fpDiv v (fpSub fpOne q2)
    let u := fpAdd (fpDiv mh (fpAdd (fpSqrt vh) o.eps)) (fpMul o.wd w)
    (fpSub w (fpMul o.lr u), m, v)

/-- The set that an opening UPDATE instance latches (R252). -/
def State.latchSet (s : State) (c xid k : Nat) : OptSet :=
  let pg := vltPg c
  ⟨c, xid, k, s.rd (VLT_OPT_CFG_OPT pg k), s.rd (VLT_OPT_LRWD_LR pg k), s.rd (VLT_OPT_LRWD_WD pg k), s.rd (VLT_OPT_BETA_B1 pg k),
    s.rd (VLT_OPT_BETA_B2 pg k), s.rd (VLT_OPT_EPS_EPS pg k), s.rd (VLT_OPT_PROD_P1 pg k), s.rd (VLT_OPT_PROD_P2 pg k)⟩

/-- Where the state of parameter `q` stands in its slot: die, and address and bytes of the weight and of each moment (R250). -/
def State.stateParts (s : State) (c q : Nat) : Nat × List (Nat × Nat) :=
  let t := q / 65536
  let i := q % 65536
  let a := s.slotAddr c (s.slotOf c t)
  let z := s.momentBytes c
  (s.tileDie t, ([(a + 4 * i, 4), (a + 262144 + z * i, z), (a + 262144 + 65536 * z + z * i, z)]).take
    (1 + s.rd (VLT_OPTLAYOUT_MOMENTS (vltPg c))))

/-- The first sector of the state of `n` parameters from `q` on that fails its tag: die and M-address (R248). -/
def State.stateBad (s : State) (c q n : Nat) : Option (Nat × Nat) :=
  (List.range n).findSome? fun k =>
    let x := s.stateParts c (q + k)
    (x.2.find? fun a => !s.sectorGood x.1 a.1 (s.regionKey c 3)).map fun a => (x.1, a.1)

/-- The bytes of a parameter's state count as read (R260). -/
def State.countState (s : State) (c q : Nat) : State :=
  let x := s.stateParts c q
  x.2.foldl (fun s a => s.bump (HBC_RD_BYTES (stackPg x.1 (a.1 / 256))) a.2) s

/-- Applies the optimizer to parameter `q` with gradient `g`: the new weight and the state (R253, R255). -/
def State.applyOpt (s : State) (o : OptSet) (q g : Nat) : Nat × State :=
  let c := o.ctx
  let t := q / 65536
  let i := q % 65536
  let s := (s.takePending c o.xid t).countState c q
  let d := s.tileDie t
  let z := s.momentBytes c
  let n := s.rd (VLT_OPTLAYOUT_MOMENTS (vltPg c))
  let old := s.slotAddr c (s.slotOf c t)
  let new := s.slotAddr c ((s.pendingSlot c o.xid t).getD 0)
  let ofM := fun x => if z = 2 then toFp32 bf16 x else x
  let toM := fun x => if z = 2 then fromFp32 bf16 x else x
  let m1 := 262144 + z * i
  let m2 := 262144 + 65536 * z + z * i
  let r := optStep o g (s.hbmNat d (old + 4 * i) 4) (if 1 ≤ n then ofM (s.hbmNat d (old + m1) z) else 0)
    (if 2 ≤ n then ofM (s.hbmNat d (old + m2) z) else 0)
  let key := s.regionKey c 3
  let s := s.hbmNatPut d (new + 4 * i) key 4 r.1
  let s := if 1 ≤ n then s.hbmNatPut d (new + m1) key z (toM r.2.1) else s
  let s := if 2 ≤ n then s.hbmNatPut d (new + m2) key z (toM r.2.2) else s
  (r.1, if fp32.isNan r.1 || fp32.isInf r.1 then s.bump (HBC_NMU_NONFINITE (nmuPg d)) 1 else s)

/-! ### Commit and rollback (R256) -/

/-- A die's map takes the pending tiles of the exchanges `xids`, in its unused copy, and then its selector sector, which names the step.
A die in reset writes neither (R398). -/
def State.commitDie (s : State) (c : Nat) (xids : List Nat) (at' : Nat) (d : Nat) : State :=
  let mine := s.hbm.pending.filter fun x => x.1 == c && xids.contains x.2.1 && s.tileDie x.2.2.1 == d
  if bit (s.rd RST_STAT_IN_RESET) (d + 4) then s
  else
    let old := s.copyOf c d
    let new := 1 - old
    let tm := (List.range (s.tiles c)).foldl (fun tm t =>
      if s.tileDie t = d then tset tm (mapKey c new t) (s.slotIn c old t + 1) else tm) s.hbm.tileMap
    let tm := mine.foldl (fun tm x => tset tm (mapKey c new x.2.2.1) (x.2.2.2 + 1)) tm
    s.setHbm fun h => { h with
      tileMap := tm, selector := tset h.selector (c * 4 + d) new, selStep := tset h.selStep (c * 4 + d) at' }

/-- The UPDATE exchanges `xids` of a context's step commit; a set counts and steps its products once for the step (R256, R263). The
executor records the step, and so does the selector sector of each M-die (R398). -/
def State.commitUpdates (s : State) (c : Nat) (xids : List Nat) (at' : Nat) : State :=
  let s := if xids.isEmpty then s else
    ((List.range s.mdies).foldl (fun s d => s.commitDie c xids at' d) s).setTtb c fun t => { t with updateAt := at' }
  let mine := s.hbm.latched.filter fun o => o.ctx == c && xids.contains o.xid
  let s := ((List.range 4).filterMap fun k => mine.find? fun o => o.set == k).foldl (fun s o =>
    let pg := vltPg c
    ((s.wr (VLT_OPT_PROD_P1 pg o.set) (fpMul o.p1 o.b1)).wr (VLT_OPT_PROD_P2 pg o.set) (fpMul o.p2 o.b2)).bump
      (VLT_OPT_CFG_STEPS pg o.set) 1) s
  s.setHbm fun h => { h with
    pending := h.pending.filter fun x => !(x.1 == c && xids.contains x.2.1)
    latched := h.latched.filter fun o => !(o.ctx == c && xids.contains o.xid) }

/-- Slots in use of an M-die. -/
def State.slotsInUse (s : State) (d : Nat) : Nat := (s.hbm.slots.filter fun x => x.mdie == d).length

/-- Shows the merge slots in use (R261). -/
def State.showSlots (s : State) (d : Nat) : State :=
  let n := s.slotsInUse d
  (s.wr (HBC_MERGE_IN_USE (nmuPg d)) n).atLeast (HBC_MERGE_PEAK (nmuPg d)) n

/-- Merge cache, spilled state and pending slots of exchanges are dropped; at a void this is the whole rollback (R256). -/
def State.dropUpdates (s : State) (c : Nat) (xids : List Nat) : State :=
  let mine := fun (x : MergeSlot) => x.ctx == c && xids.contains x.xid
  let s := s.setHbm fun h => { h with
    pending := h.pending.filter fun x => !(x.1 == c && xids.contains x.2.1)
    latched := h.latched.filter fun o => !(o.ctx == c && xids.contains o.xid)
    slots := h.slots.filter fun x => !mine x
    spilled := h.spilled.filter fun x => !mine x }
  (List.range s.mdies).foldl (fun s d => s.showSlots d) s

/-! ### Merging (R254) -/

/-- The M-die that merges block `b` of an instance: the one that holds its parameters, or its exact state. -/
def State.mergeDie (s : State) (c : Nat) (m : Image) (xid : Nat) (p : Program) (b : Nat) : Nat :=
  if p.op = 6 then s.tileDie ((p.paramOff / s.optB c + 384 * b) / 65536)
  else match s.placeOf c m xid, s.region c 2 with
    | some o, some r => (s.regionAddr r.1 (o + 40 * 384 * b)).1
    | _, _ => 0

/-- Accumulators of a block with values added at their elements. -/
def addVals (accs : List (Nat × Acc)) (xs : List (Nat × Nat)) : List (Nat × Acc) :=
  xs.foldl (fun a x => kput a x.1 ((kget a x.1 Acc.zero).add x.2)) accs

/-- The slot touched least recently of a die is spilled (R254). -/
def State.spill (s : State) (d : Nat) : State :=
  match s.hbm.slots.find? fun x => x.mdie == d with
  | none => s
  | some v =>
    let same := fun (x : MergeSlot) => x.ctx == v.ctx && x.xid == v.xid && x.block == v.block
    let merged := match s.hbm.spilled.find? same with
      | some w => { v with accs := v.accs.foldl (fun a x => kput a x.1 ((kget a x.1 Acc.zero).merge x.2)) w.accs }
      | none => v
    (s.setHbm fun h => { h with
      slots := h.slots.erase v
      spilled := h.spilled.filter (fun x => !same x) ++ [merged] }).bump (HBC_MERGE_SPILLS (nmuPg d)) 1

/-- Values enter the merge block `b` on M-die `d`; `xs` are elements within the block. -/
def State.mergeAdd (s : State) (d c xid b : Nat) (xs : List (Nat × Nat)) : State :=
  let same := fun (x : MergeSlot) => x.mdie == d && x.ctx == c && x.xid == xid && x.block == b
  match s.hbm.slots.find? same with
  | some v => s.setHbm fun h => { h with slots := h.slots.filter (fun x => !same x) ++ [{ v with accs := addVals v.accs xs }] }
  | none =>
    let s := if 1536 ≤ s.slotsInUse d then s.spill d else s
    (s.setHbm fun h => { h with slots := h.slots ++ [(⟨d, c, xid, b, addVals [] xs⟩ : MergeSlot)] }).showSlots d

end Sys2Proof.Machine
end

