-- ==== Sys2Proof/Machine/Engine.lean ====
section
/-! DEFINITION. Instances of exchanges at run time: opening, contributions, codec blocks, results, branch transfers, errors (R160
to R162, R176 to R184, R202 to R209, R254, R255, R396). -/

namespace Sys2Proof.Machine

/-! ### The timetable in force -/

/-- The image and program of an exchange of a context. -/
def State.prog (s : State) (c xid : Nat) : Option (Image × Program) :=
  (s.img c).bind fun m => (m.program xid).map fun x => (m, x.2)

/-- Begun step records of an instance and of a step agree. -/
def Instance.ofStep (i : Instance) (c : Nat) (st iter : Nat) : Bool := i.ctx == c && i.step == st && i.iter == iter

/-! ### Misses (R147, R148, R152, R396) -/

/-- Order of misses that one VOID covers: the earlier iteration and step, then the lower cause. -/
def missBefore (a b : Miss) : Bool := decide ([a.iter, a.step, a.cause] < [b.iter, b.step, b.cause])

/-- A step belongs to a void: it is the voided step or a later one. -/
def VoidSt.covers (v : VoidSt) (st iter : Nat) : Bool := decide ([v.iter, v.step] ≤ [iter, st])

/-- A begun step belongs to a void. -/
def VoidSt.takes (v : VoidSt) (o : OpenStep) : Bool := v.covers o.step o.iter

/-- The home unit learns of a miss; a further miss of a step that has a void, or that the emergency throttle voids, is only counted. -/
def State.learnMiss (s : State) (c : Nat) (x : Miss) : State :=
  let t := s.ttb c
  if t.void.any fun v => v.covers x.step x.iter then s.bump (TTB_COUNT_EXTRA (ttbPg c)) 1
  else match t.miss with
    | none => s.setTtb c fun t => { t with miss := some x }
    | some y => (s.setTtb c fun t => { t with miss := some (if y.cause != 4 && missBefore x y then x else y) }).bump
        (TTB_COUNT_EXTRA (ttbPg c)) (if x.step = y.step ∧ x.iter = y.iter then 1 else 0)

/-- What an instance has sent of an entry: cells, cells in the last beat, and one more than that beat. -/
def Instance.sentOf (i : Instance) (k : Nat) : Nat × Nat × Nat :=
  match i.sending.find? fun x => x.1 == k with
  | some x => x.2
  | none => (0, 0, 0)

/-- Cells of an instance's RESULT entries that are still to be sent. -/
def State.unsent (s : State) (i : Instance) : Bool :=
  match s.img i.ctx with
  | none => false
  | some m => (m.entries.zipIdx).any fun e => e.1.kind == 4 && e.1.srcbuf == i.xid && e.1.step == i.step &&
      decide ((i.sentOf e.2).1 < e.1.cells)

/-- An instance goes to ERROR, and its step is voided with CAUSE ENGINE (R182, R396); `prevents` says that the error prevents
results still to be sent. -/
def State.instError (s : State) (c xid cls die : Nat) (prevents : Bool) : State :=
  match s.inst c xid with
  | none => s
  | some i =>
    if i.isOpen && (i.state == .opened || i.state == .complete || (i.state == .ready && prevents && s.unsent i)) then
      let s := (s.setInst c xid fun i => { i with state := .error }).bump (CLX_COUNT_MISSED (clxPg c)) 1
      let s := (((s.wr CLX_ENG_ERR_CLASS cls).wr CLX_ENG_ERR_CONTEXT c).wr CLX_ENG_ERR_XID xid).wr CLX_ENG_ERR_DIE die
      let s := s.detect .dz8 (clxPg c) 1 xid (some c)
      if s.isBranch c then s else s.learnMiss c ⟨i.step, i.iter, 3, xid, none⟩
    else s

/-- CDC_ERR takes an error of a codec engine or a rotation tile of C-die `die` (R208, R209). -/
def State.codecError (s : State) (die cls c xid engine : Nat) : State :=
  let pg := cdcPg (die - 2)
  ((((s.wr (CDC_ERR_CLASS pg) cls).wr (CDC_ERR_CONTEXT pg) c).wr (CDC_ERR_XID pg) xid).wr (CDC_ERR_ENGINE pg) engine).detect .dz8 pg 1 xid
    (some c)

/-- ENGINE_ERROR (R182, R184, R208). -/
def execEngineError (ctx xid cls : Nat) (place : EnginePlace) (s : State) : Out :=
  .next (
    let s := match place.codec with
      | some k => if place.die = 2 ∨ place.die = 3 then s.codecError place.die k.1 ctx xid k.2 else s
      | none => s
    s.instError ctx xid cls place.die (cls == 1))

/-! ### Opening and closing -/

/-- Shows the number of open instances (R184). -/
def State.showOpen (s : State) : State :=
  let n := (s.insts.filter (·.isOpen)).length
  (s.wr CLX_ENG_STAT_OPEN n).atLeast CLX_ENG_STAT_PEAK n

/-- First word of the local sync objects of instance `num` in the sync window of a C-die (R228). -/
def localBase (die num : Nat) : Nat := die * 2 ^ 18 + 2 ^ 17 + num % 256 * 256

/-- The instance number that an instance takes when it opens: the lowest that no open instance has (R179, R228; the choice is the
model's, log entry 28). -/
def State.freeNum (s : State) : Nat :=
  ((List.range 256).find? fun n => !s.insts.any fun (i : Instance) => i.isOpen && i.num == n).getD 0

/-- Local sync objects of an instance are cleared when it opens (R217). -/
def State.clearLocals (s : State) (num : Nat) : State :=
  s.setTile fun t => { t with sync := t.sync.filter fun e =>
    !([0, 1].any fun d => decide (localBase d num ≤ e.1) && decide (e.1 < localBase d num + 256)) }

/-- Opens one instance with every count 0 (R160); an UPDATE latches its set (R252). -/
def State.openInst (s : State) (c st iter : Nat) (x : XRef × Program) : State :=
  let i : Instance :=
    { ctx := c, xid := x.1.xid, step := st, iter := iter, parity := s.rd (TTB_VOID_PARITY (ttbPg c)), isOpen := true, state := .opened
      openNs := s.time.nowNs, firstNs := none, readyNs := none, counts := [], cells := [], accs := [], decoded := [], stage1 := false
      choices := [], hidden := [], encoded := [], sending := [], num := s.freeNum }
  let s := { s with insts := s.insts.filter (fun (y : Instance) => !(y.ctx == c && y.xid == x.1.xid)) ++ [i] }
  let s := (s.clearLocals i.num).dropUpdates c [x.1.xid]
  let s := if x.2.op = 6 then s.setHbm fun h => { h with latched := h.latched ++ [s.latchSet c x.1.xid x.2.optSet] } else s
  s.showOpen

/-- INSTANCE_OPEN (R160): the instances of the next step; a branch unit opens only those that have branches. -/
def execInstanceOpen (ctx : Nat) (s : State) : Out :=
  .next (match s.img ctx with
    | none => s
    | some m =>
      let st := s.rd (TTB_STEP_NEXT (ttbPg ctx))
      if s.active && s.armed ctx then
        (m.exchanges.filter fun x => x.1.step == st && (x.2.branches || !s.isBranch ctx)).foldl
          (fun s x => s.openInst ctx st (s.rd (TTB_ITER_ITER (ttbPg ctx))) x) s
      else s)

/-- The instances of a step close; their stored cells and their chains go, their last state stays shown (R160, R183, R217). -/
def State.closeStep (s : State) (c st iter : Nat) : State :=
  let mine := fun (x : ChainSt) => s.insts.any fun (i : Instance) => i.ofStep c st iter && i.isOpen && i.ctx == x.ctx && i.xid == x.xid
  let s := s.setTile fun t => { t with chains := t.chains.filter fun x => !mine x }
  let shut := fun (i : Instance) =>
    if i.ofStep c st iter && i.isOpen then
      { i with isOpen := false, cells := [], accs := [], decoded := [], encoded := [], sending := [] } else i
  { s with insts := s.insts.map shut }.showOpen

/-- XIDs of a step that are UPDATE exchanges. -/
def Image.updatesOf (m : Image) (st : Nat) : List Nat :=
  (m.exchanges.filter fun x => x.1.step == st && x.2.op == 6).map (·.1.xid)

/-- XIDs of a step. -/
def Image.xidsOf (m : Image) (st : Nat) : List Nat := (m.xrefs.filter fun x => x.step == st).map (·.xid)

/-! ### Codec work (R195, R202, R203) -/

/-- The C-die whose codec and tiles serve an exchange (log entry 20). -/
def State.workDie (s : State) (xid : Nat) : Nat := xid % max 1 s.cdies

/-- Counts a decoded block on a CDC page or, for an M-die, on its die page. -/
def State.countDecode (s : State) (mdie : Option Nat) (xid lid : Nat) (d : Decoded) : State :=
  match mdie with
  | some k =>
    let pg := nmuPg k
    let s := ((s.bump (HBC_CDC_COUNT_DECODED pg) 1).bump (HBC_CDC_SPECIAL_IN_SPECIAL pg) (b2n d.special)).bump
      (HBC_CDC_SPECIAL_MALFORMED pg) (b2n d.malformed)
    if d.malformed then s.detect .dz8 (cdcPg (2 + k)) 0 lid none else s
  | none =>
    let pg := cdcPg (s.workDie xid)
    let s := ((s.bump (CDC_COUNT_DECODED pg) 1).bump (CDC_SPECIAL_IN_SPECIAL pg) (b2n d.special)).bump
      (CDC_SPECIAL_MALFORMED pg) (b2n d.malformed)
    if d.malformed then s.detect .dz8 pg 0 lid none else s

/-- Counts an encoded block. -/
def State.countEncode (s : State) (mdie : Option Nat) (xid : Nat) (e : Encoded) : State :=
  match mdie with
  | some k =>
    let pg := nmuPg k
    ((s.bump (HBC_CDC_COUNT_ENCODED pg) 1).bump (HBC_CDC_SPECIAL_OUT_SPECIAL pg) (b2n e.special)).bump
      (HBC_CDC_SPECIAL_OVERFLOW pg) (b2n e.overflow)
  | none =>
    let pg := cdcPg (s.workDie xid)
    ((((s.bump (CDC_COUNT_ENCODED pg) 1).bump (CDC_SPECIAL_OUT_SPECIAL pg) (b2n e.special)).bump
      (CDC_SPECIAL_OVERFLOW pg) (b2n e.overflow)).bump (CDC_SAT_SAT pg) e.sat).bump (CDC_SAT_ZERO pg) e.zero

/-- Encodes a block of MX part `num` of a result with SOURCE = 0x1000 and the schedule beat (R195, R203). -/
def State.encodeOut (s : State) (c : Nat) (m : Image) (i : Instance) (fmt num index : Nat) (xs : List Nat) : Encoded :=
  let seed := (s.ttb c).seed
  match MxFmt.ofByte fmt with
  | none => ⟨[], false, false, 0, 0⟩
  | some f => encodeBlock f (signVector seed i.xid) ⟨seed, m.schedBeat i.iter i.step, i.xid, num, 0x1000, index⟩ xs

/-- Place of block `b` of an MX input: row, block in the row, byte offset in the input space (R177, R189). -/
def blockPlace (g : Nat × Nat × Nat × Nat) (b : Nat) : Nat × Nat × Nat :=
  let nb := max 1 (ceilDiv g.2.1 128)
  let bsz := match MxFmt.ofByte g.1 with | some f => f.bsz | none => 0
  (b / nb, b % nb, b / nb * g.2.2.1 + b % nb * bsz)

/-- Every cell whose payload overlaps a block has been counted (R202). -/
def Instance.holds (i : Instance) (fid inp o n : Nat) : Bool :=
  (List.range ((o + n - 1) / 48 + 1 - o / 48)).all fun k => (i.stored fid inp (o / 48 + k)).isSome

/-- Decoded elements enter the operation: the exact accumulators, or the values kept for later (R202, R254). -/
def State.enterDecoded (s : State) (c : Nat) (m : Image) (p : Program) (i : Instance) (fid inp e0 : Nat) (vals : List Nat) : State :=
  let xs := (vals.zipIdx).map fun v => (e0 + v.2, v.1)
  let s := s.setInst c i.xid fun i => { i with decoded := i.decoded ++ xs.map fun x => (fid, decKey inp x.1, x.2) }
  if p.exactSum && inp == 0 && (p.op == 1 || p.op == 3 || p.op == 6) then
    if p.inMdies then s.mergeAdd (s.mergeDie c m i.xid p (e0 / 384)) c i.xid (e0 / 384) (xs.map fun x => (x.1 % 384, x.2))
    else s.setInst c i.xid fun i => { i with accs := addVals i.accs xs }
  else s

/-- A block of a sender's MX input is decoded once its cells have been counted (R202); the content of an empty slot is ignored (R177). -/
def State.decodeIn (s : State) (c xid fid inp b : Nat) : State :=
  match s.prog c xid, s.inst c xid with
  | some (m, p), some i =>
    let lid := ((p.members.find? fun q => s.lidFid c q.lid == some fid).map (·.lid)).getD 0
    let g := p.inShape lid inp
    let pl := blockPlace g b
    match MxFmt.ofByte g.1 with
    | none => s
    | some f =>
      let e0 := pl.1 * g.2.1 + 128 * pl.2.1
      let empty := p.op == 5 && inp == 2 && (i.slotToken p lid (pl.1 / p.cap) (pl.1 % p.cap)).isNone
      if i.isOpen && p.inMx inp && !empty && decide (pl.1 < g.2.2.2) && decide (128 * pl.2.1 < g.2.1) && i.holds fid inp pl.2.2 f.bsz &&
          !(i.decoded.any fun x => x.1 == fid && x.2.1 == decKey inp e0) then
        let d := decodeBlock f (signVector (s.ttb c).seed xid) (i.bytes fid inp pl.2.2 f.bsz)
        let mdie := if p.inMdies then some (s.mergeDie c m xid p (e0 / 384)) else none
        (s.countDecode mdie xid lid d).enterDecoded c m p i fid inp e0 (d.vals.take (min 128 (g.2.1 - 128 * pl.2.1)))
      else s
  | _, _ => s

/-- BLOCK_DECODE (R202). -/
def execBlockDecode (ctx xid fid input block : Nat) (s : State) : Out := .next (s.decodeIn ctx xid fid input block)

/-- Decodes what is left of an instance's MX inputs. -/
def State.decodeRest (s : State) (c : Nat) (p : Program) (i : Instance) : State :=
  (s.senders c p).foldl (fun s x => [0, 2].foldl (fun s inp =>
    let g := p.inShape x.1.lid inp
    if p.inMx inp then
      (List.range (g.2.2.2 * ceilDiv g.2.1 128)).foldl (fun s b => s.decodeIn c i.xid x.2 inp b) s
    else s) s) s

/-! ### Contributions (R160) -/

/-- The accumulator that a branch-transfer cell holds (R162). -/
def branchAcc (bs : List Byte) : Acc :=
  let f := leAt bs 40 1
  ⟨signed 320 (leAt bs 0 40), bit f 0, bit f 1, bit f 2, bit f 3⟩

/-- The 48 bytes of a branch-transfer cell for an accumulator (R162). -/
def accBytes (a : Acc) : List Byte :=
  leBytes 40 (unsigned 320 a.a) ++ leBytes 8 (b2n a.nan + 2 * b2n a.pinf + 4 * b2n a.ninf + 8 * b2n a.nz)

/-- A counted cell is added in, or stored (R160, R254). -/
def State.absorb (s : State) (m : Image) (p : Program) (i : Instance) (fid inp idx : Nat) (payload : List Word) : State :=
  let c := i.ctx
  let bs := payloadBytes payload
  if inp = 3 then
    if p.exactSum then
      let add := fun (l : List (Nat × Acc)) => kput l idx ((kget l idx Acc.zero).merge (branchAcc bs))
      if p.inMdies then
        let d := s.mergeDie c m i.xid p (idx / 384)
        let s := s.mergeAdd d c i.xid (idx / 384) []
        s.setHbm fun h => { h with slots := h.slots.map fun x =>
          if x.mdie == d && x.ctx == c && x.xid == i.xid && x.block == idx / 384 then
            { x with accs := kput x.accs (idx % 384) ((kget x.accs (idx % 384) Acc.zero).merge (branchAcc bs)) } else x }
      else s.setInst c i.xid fun i => { i with accs := add i.accs }
    else s.setInst c i.xid fun i => { i with cells := i.cells ++ [(⟨fid, inp, idx, payload⟩ : StoredCell)] }
  else if p.exactSum && (p.op == 1 || p.op == 3 || p.op == 6) && p.infmt != 3 then
    let z := fmtBytes p.infmt 0 1
    let n := 48 / z
    let xs := ((List.range n).map fun k => (idx * n + k, elemOf p.infmt (leAt bs (k * z) z))).filter fun x => x.1 < p.elems
    if p.inMdies then
      s.mergeAdd (s.mergeDie c m i.xid p (idx * n / 384)) c i.xid (idx * n / 384) (xs.map fun x => (x.1 % 384, x.2))
    else s.setInst c i.xid fun i => { i with accs := addVals i.accs xs }
  else s.setInst c i.xid fun i => { i with cells := i.cells ++ [(⟨fid, inp, idx, payload⟩ : StoredCell)] }

/-- Counts a cell of a sender (R160); the instance becomes complete, and a finished branch transfer is counted (R184). -/
def State.countCell (s : State) (p : Program) (c xid fid inp : Nat) : State :=
  let s := s.setInst c xid fun i =>
    { i with
      firstNs := i.firstNs.orElse fun _ => some s.time.nowNs
      counts := i.counts.filter (fun x => !(x.fid == fid && x.input == inp)) ++ [(⟨fid, inp, i.count fid inp + 1⟩ : SenderCount)] }
  match s.inst c xid with
  | none => s
  | some i =>
    let s := if inp = 3 ∧ i.count fid 3 = p.branchCells then s.bump CLX_ENG_CNT_BRANCH 1 else s
    if i.state == .opened && s.completeInst p i then s.setInst c xid fun i => { i with state := .complete } else s

/-- The branch unit that a cell from `src` is held against: that whose cells the instance has counted, else the sender (R162). -/
def State.branchFor (s : State) (i : Instance) (src d : Nat) : Nat :=
  if (i.counts.any fun x => x.input == 3 && x.fid / 256 == d) || src / 256 != d then s.branchUnit i d else src

/-- SRC is a member of the exchange or a branch unit (check 2 of R160). -/
def State.knows (s : State) (p : Program) (i : Instance) (src : Nat) : Bool :=
  (p.members.any fun m => s.lidFid i.ctx m.lid == some src) ||
    (p.branches && !s.isBranch i.ctx && decide (0xFE ≤ src % 256) && (s.branchDomains i.ctx p).contains (src / 256) &&
      s.branchFor i src (src / 256) == src)

/-- Cells of an input, from a sender (check 3 of R160): INn_CELLS, for a ROUTE_COMBINE those of the member, and BRANCH_CELLS for IN 3. -/
def State.inputCells (s : State) (c : Nat) (p : Program) (src inp : Nat) : Nat :=
  if inp = 3 then p.branchCells
  else match p.members.find? fun m => s.lidFid c m.lid == some src with
    | some m => p.inCellsOf m.lid inp
    | none => nth p.inCells inp

/-- The count expected of a sender on an input, 0 where none is (check 4 of R160). -/
def State.expected (s : State) (p : Program) (i : Instance) (src inp : Nat) : Nat :=
  match (s.expects i.ctx p (s.branchFor i src)).find? fun q => q.1 == src && q.2.1 == inp with
  | some q => q.2.2
  | none => 0

/-- Domains other than the home domain that a timetable has branch transfers from (R160, R162). -/
def State.ttbDomains (s : State) (c : Nat) (m : Image) : List Nat :=
  m.exchanges.flatMap fun x => if x.2.branches then s.branchDomains c x.2 else []

/-- A CONTRIB cell in its context: the checks of R160 in order. -/
def State.contribute (s : State) (port c : Nat) (x : Cell) : State :=
  let xid := x.cidx % 2 ^ 15
  let drop := fun (s : State) (r : Nat) => (s.discardC .dz8 port x r c).bump
    (if r = rOVER then CLX_DISCARD_OVER (clxPg c) else CLX_DISCARD_CIDX (clxPg c)) 1
  match s.prog c xid, s.inst c xid with
  | some (m, p), some i =>
    let inp := x.offset / 2 ^ 30
    let idx := x.offset % 2 ^ 30
    if !i.isOpen || i.parity != x.cidx / 2 ^ 15 || i.state == .error then drop s rCIDX
    else if !s.knows p i x.src then (drop s rCIDX).detect .dz8 (clxPg c) 0 xid (some c)
    else if s.inputCells c p x.src inp ≤ idx then drop s rBOUND
    else if s.expected p i x.src inp ≤ i.count x.src inp then drop s rOVER
    else (s.absorb m p i x.src inp idx x.payload).countCell p c xid x.src inp
  | _, _ => drop s rCIDX

/-- The context that a branch transfer of a unit belongs to (R160). -/
def State.branchCtx (s : State) (src xid : Nat) : Option Nat :=
  contexts.find? fun c => s.armed c && match s.img c with
    | some m => (m.xrefs.any fun x => x.xid == xid) && (s.ttbDomains c m).contains (src / 256)
    | none => false

/-- CONTRIB_CELL (R160): a cell whose SRC is neither a member nor a branch unit is foreign. -/
def execContribCell (port : Nat) (cell : Cell) (s : State) : Out :=
  .next (if cell.epoch ≠ s.epochOf .dz8 s.domain then s.discard .dz8 port cell rEPOCH
    else match (s.ctxOfFid cell.src).orElse fun _ => if 0xFE ≤ cell.src % 256 then s.branchCtx cell.src (cell.cidx % 2 ^ 15) else none with
    | some c => s.contribute port c cell
    | none => (s.discardC .dz8 port cell rCIDX 31).detect .dz8 clxEngPg 0 cell.src none)

/-! ### Results -/

/-- Writes bytes of an instance's result buffer (R179, R257). -/
def State.putResult (s : State) (c : Nat) (m : Image) (p : Program) (xid o : Nat) (bs : List Byte) : State :=
  if p.inMdies then
    match s.placeOf c m xid with
    | some b => s.regionWrite c 2 (b + 40 * p.elems + o) bs
    | none => s
  else s.allocWrite c (p.outOff + o) bs

/-- Reads 48 bytes of an instance's result buffer. -/
def State.getResult (s : State) (c : Nat) (m : Image) (p : Program) (xid o : Nat) : List Byte :=
  if p.inMdies then
    match s.placeOf c m xid with
    | some b => s.regionRead c 2 (b + 40 * p.elems + o) 48
    | none => List.replicate 48 0
  else s.allocRead c (p.outOff + o) 48

/-- An encoded part of a result buffer (R171, R177, R204): its number in buffer order (R195; log entry 22), format byte, elements of a row, bytes of a row, rows, offset in the
buffer, and the FP32 value of an element of a row; a row without values is not encoded. -/
structure Part where
  num : Nat
  fmt : Nat
  len : Nat
  stride : Nat
  rows : Nat
  base : Nat
  filled : Nat → Bool
  val : Nat → Nat → Nat

/-- The owner of dispatch block `q`, by rising LID. -/
def Program.ownerAt (p : Program) (q : Nat) : Nat := nth p.owners q

/-- Part `k` of a result buffer: of a GATHER one for each member, of a TRANSFORM outputs 0 and 1, of a ROUTE_COMBINE the combined
output, then each owner's dispatch rows; otherwise part 0. -/
def State.mxPart (s : State) (p : Program) (i : Instance) (k : Nat) : Option Part :=
  match p.op with
  | 2 => if p.outfmt = 3 ∧ p.infmt ≠ 3 then
      match p.members[k]? with
      | none => none
      | some q =>
        let fid := (s.lidFid i.ctx q.lid).getD 0
        some ⟨k, p.mxfmt, p.elems, 0, 1, k * p.gatherPart, fun _ => true, fun _ e => p.inVal i q.lid fid 0 0 e⟩
    else none
  | 3 => if p.outfmt = 3 then
      some ⟨k, p.mxfmt, p.row, up48 (fmtBytes 3 p.mxfmt p.row), p.rows, k * p.outputBytes, fun r => (((s.transformRow p i r).out.getD k none).isSome),
        fun r e => nth (((s.transformRow p i r).out.getD k none).getD []) e⟩
    else none
  | 5 =>
    if k = 0 then
      if p.outfmt = 3 then some ⟨p.owners.length, p.mxfmt, p.hidden, up48 (fmtBytes 3 p.mxfmt p.hidden), p.tokens, p.dispatchLen, fun _ => true, s.combined p i⟩
      else none
    else
      let l := p.ownerAt (k - 1)
      some ⟨k - 1, p.dispFmt, p.hidden, p.rowB, p.ownerJ l * p.cap, p.blockOff l + p.indexBytes l,
        fun r => (i.slotToken p l (r / p.cap) (r % p.cap)).isSome,
        fun r e => match i.slotToken p l (r / p.cap) (r % p.cap) with | some t => i.hiddenOf p t e | none => 0⟩
  | 1 => if p.outfmt = 3 then some ⟨0, p.mxfmt, p.elems, 0, 1, 0, fun _ => true, fun _ e => s.reduced p i 0 e⟩ else none
  | _ => none

/-- Key of an encoded block. -/
def encKey (part block : Nat) : Nat := part * 2 ^ 32 + block

/-- Block `b` of part `k` is encoded and written at its place (R203); a GATHER part's rows are numbered by the part (R204). -/
def State.encodeBlk (s : State) (c : Nat) (m : Image) (p : Program) (i : Instance) (k b : Nat) : State :=
  match s.mxPart p i k with
  | none => s
  | some q =>
    let nb := max 1 (ceilDiv q.len 128)
    let r := b / nb
    let j := b % nb
    if decide (r < q.rows) && q.filled r && !(i.encoded.any fun x => x.1 == encKey k b) then
      let row := if p.op = 2 then k else r
      let xs := (List.range 128).map fun e => if 128 * j + e < q.len then q.val r (128 * j + e) else 0
      let bsz := match MxFmt.ofByte q.fmt with | some f => f.bsz | none => 0
      let en := s.encodeOut c m i q.fmt q.num (row * nb * 128 + 128 * j) xs
      let s := (s.countEncode none i.xid en).putResult c m p i.xid (q.base + r * q.stride + j * bsz) en.bytes
      s.setInst c i.xid fun i => { i with encoded := i.encoded ++ [(encKey k b, en.bytes)] }
    else s

/-- Blocks of part `k` are encoded, as far as they are not. -/
def State.encodePart (s : State) (c : Nat) (m : Image) (p : Program) (i : Instance) (k : Nat) : State :=
  match s.mxPart p i k with
  | none => s
  | some q => (List.range (q.rows * max 1 (ceilDiv q.len 128))).foldl (fun s b => match s.inst c i.xid with
    | some i => s.encodeBlk c m p i k b
    | none => s) s

/-- BLOCK_ENCODE (R203): a result block of a complete instance, or a dispatch row of a ROUTE_COMBINE past stage 1. -/
def execBlockEncode (ctx xid part block : Nat) (s : State) : Out :=
  .next (match s.prog ctx xid, s.inst ctx xid with
    | some (m, p), some i =>
      if i.isOpen && !p.inMdies && (i.state == .complete || (p.op == 5 && part != 0 && i.stage1)) then s.encodeBlk ctx m p i part block
      else s
    | _, _ => s)

/-- The FP32 value of an element in an output format (R163, R167, R170). -/
def outVal (code x : Nat) : Nat := if 4 ≤ code then ofByteVal code (toByte code x).1 else elemOf code (elemTo code x)

/-- Counts NaN and infinite output elements (R182, R183). -/
def State.countOut (s : State) (c : Nat) (xs : List Nat) : State :=
  (s.bump (CLX_NUMERIC_NAN (clxPg c)) (xs.filter fp32.isNan).length).bump (CLX_NUMERIC_INF (clxPg c)) (xs.filter fp32.isInf).length

/-- A plain output row written at its place. -/
def State.putRow (s : State) (c : Nat) (m : Image) (p : Program) (xid o : Nat) (xs : List Nat) : State :=
  let bytes := xs.flatMap fun x =>
    if 4 ≤ p.outfmt then leBytes 1 (toByte p.outfmt x).1 else leBytes (fmtBytes p.outfmt 0 1) (elemTo p.outfmt x)
  s.putResult c m p xid o bytes

/-- Results of a REDUCE outside the M-dies. -/
def State.finishReduce (s : State) (c : Nat) (m : Image) (p : Program) (i : Instance) : State :=
  let xs := (List.range p.elems).map fun e => s.reduced p i p.outfmt e
  let s := s.countOut c (xs.map fun x => elemOf p.outfmt x)
  if p.outfmt = 3 then s.encodePart c m p i 0
  else s.putResult c m p i.xid 0 (xs.flatMap (leBytes (fmtBytes p.outfmt 0 1)))

/-- Results of a GATHER (R204): equal formats are copied; the elements of an MX copy are not seen, and so not counted. -/
def State.finishGather (s : State) (c : Nat) (m : Image) (p : Program) (i : Instance) : State :=
  (p.members.zipIdx).foldl (fun s q =>
    let fid := (s.lidFid c q.1.lid).getD 0
    let xs := (List.range p.elems).map fun e => p.inVal i q.1.lid fid 0 0 e
    if p.infmt = p.outfmt then
      (if p.infmt = 3 then s else s.countOut c xs).putResult c m p i.xid (q.2 * p.gatherPart) (i.bytes fid 0 0 p.gatherPart)
    else if p.outfmt = 3 then (s.countOut c xs).encodePart c m p i q.2
    else (s.countOut c (xs.map (outVal p.outfmt))).putRow c m p i.xid (q.2 * p.gatherPart) xs) s

/-- Results of a TRANSFORM (R171). -/
def State.finishTransform (s : State) (c : Nat) (m : Image) (p : Program) (i : Instance) : State :=
  let out1 := p.microOps.any usesOut1
  let sto := p.microOps.any usesSto
  let stride := up48 (fmtBytes p.outfmt p.mxfmt p.row)
  (List.range p.rows).foldl (fun s r =>
    let x := s.transformRow p i r
    let s := s.bump (CLX_NUMERIC_SAT (clxPg c)) x.sat
    let s := ([0, 1] : List Nat).foldl (fun s k =>
      if k = 1 ∧ ¬ out1 then s
      else match x.out.getD k none with
        | none => s
        | some v =>
          let s := s.countOut c (v.map (outVal p.outfmt))
          if p.outfmt = 3 then
            (List.range (ceilDiv p.row 128)).foldl (fun s j => match s.inst c i.xid with
              | some i => s.encodeBlk c m p i k (r * ceilDiv p.row 128 + j)
              | none => s) s
          else s.putRow c m p i.xid (k * p.outputBytes + r * stride) v) s
    if sto then s.putResult c m p i.xid ((if out1 then 2 else 1) * p.outputBytes + 16 * r) (x.sto.flatMap (leBytes 4)) else s) s

/-- Results of a SELECT (R173, R174). -/
def State.finishSelect (s : State) (c : Nat) (m : Image) (p : Program) (i : Instance) : State :=
  (List.range p.users).foldl (fun s u =>
    let r := s.selectUser p i (m.schedBeat i.iter i.step) (s.ttb c).seed u
    let s := if r.2.1 = 0 then s.bump (CLX_SELECT_INVALID (clxPg c)) 1
      else if r.2.1 = 1 then s.bump (CLX_SELECT_DRAWS (clxPg c)) 1 else s
    s.putResult c m p i.xid (8 * u) (leBytes 3 r.1 ++ leBytes 1 r.2.1 ++ leBytes 4 r.2.2)) s

/-- Stage 1 of a ROUTE_COMBINE: hidden rows, choices and the dispatch area (R176, R177). -/
def State.doStage1 (s : State) (c : Nat) (m : Image) (p : Program) (i : Instance) : State :=
  let s := s.decodeRest c p i
  match s.inst c i.xid with
  | none => s
  | some i =>
    let r := s.stage1 p i
    let s := (s.bump (CLX_ROUTE_DROPPED (clxPg c)) (p.tokens * p.ksel - r.2.length)).bump (CLX_ROUTE_EMPTY (clxPg c))
      ((List.range p.tokens).filter fun t => !r.2.any fun x => x.1 == t).length
    let s := s.setInst c i.xid fun i => { i with stage1 := true, hidden := r.1, choices := r.2 }
    (p.owners.zipIdx).foldl (fun s q => match s.inst c i.xid with
      | none => s
      | some i =>
        let index := (List.range (p.ownerJ q.1 * p.cap)).flatMap fun k =>
          leBytes 2 ((i.slotToken p q.1 (k / p.cap) (k % p.cap)).getD 0xFFFF)
        let s := s.putResult c m p i.xid (p.blockOff q.1)
          (index ++ List.replicate (p.indexBytes q.1 - index.length + p.ownerJ q.1 * p.cap * p.rowB) 0)
        s.encodePart c m p i (q.2 + 1)) s

/-- ROUTE_COMBINE_STAGE1 (R176): every covering row has been counted. -/
def execRouteCombineStage1 (ctx xid : Nat) (s : State) : Out :=
  .next (match s.prog ctx xid, s.inst ctx xid with
    | some (m, p), some i =>
      if i.isOpen && p.op == 5 && !i.stage1 && i.state == .opened || (i.isOpen && p.op == 5 && !i.stage1 && i.state == .complete) then
        if (s.expects ctx p (s.branchUnit i)).all fun x => x.2.1 != 0 || i.count x.1 0 == x.2.2 then s.doStage1 ctx m p i else s
      else s
    | _, _ => s)

/-- Results of a ROUTE_COMBINE: the combined output (R176, R177). -/
def State.finishRoute (s : State) (c : Nat) (m : Image) (p : Program) (i : Instance) : State :=
  let s := if i.stage1 then s else s.doStage1 c m p i
  match s.inst c i.xid with
  | none => s
  | some i =>
    let s := (List.range p.tokens).foldl (fun s t =>
      let xs := (List.range p.hidden).map fun k => s.combined p i t k
      let s := s.countOut c (xs.map (elemOf p.outfmt))
      if p.outfmt = 3 then s
      else s.putResult c m p i.xid (p.dispatchLen + t * up48 (fmtBytes p.outfmt 0 p.hidden))
        (xs.flatMap (leBytes (fmtBytes p.outfmt 0 1)))) s
    if p.outfmt = 3 then s.encodePart c m p i 0 else s

/-! ### Near-memory units (R254, R255) -/

/-- A sector has failed its tag at both reads: its counts, its address and the event (R248). -/
def State.sectorFails (s : State) (m sector : Nat) : State :=
  let pg := stackPg m sector
  (((s.bump (HBC_TAG_FAIL pg) 1).wr (HBC_TAGADDR_VALID pg) 1).wr (HBC_TAGADDR_SECTOR pg) sector).detect .dz8 pg 2 sector none

/-- A near-memory unit or an M-die codec engine meets the failed sector for an open instance (R248, R261). -/
def State.nmuFails (s : State) (m c xid : Nat) : State :=
  let s := s.bump (VLT_INTEG_TAGFAIL (vltPg c)) 1
  (((s.wr (HBC_NMU_ERR_CLASS (nmuPg m)) 1).wr (HBC_NMU_ERR_CONTEXT (nmuPg m)) c).wr (HBC_NMU_ERR_XID (nmuPg m)) xid).instError
    c xid 3 (4 + m) true

/-- A merge block is rounded and written, or applied to the state and its weights written (R178, R254, R255). -/
def State.mergeDone (s : State) (c : Nat) (m : Image) (p : Program) (i : Instance) (b : Nat) : State :=
  match if p.op = 6 then s.stateBad c (p.paramOff / s.optB c + 384 * b) (min 384 (p.elems - 384 * b)) else none with
  | some x => (s.sectorFails x.1 (x.2 / 256)).nmuFails x.1 c i.xid
  | none =>
  let n := min 384 (p.elems - 384 * b)
  let d := s.mergeDie c m i.xid p b
  let same := fun (x : MergeSlot) => x.ctx == c && x.xid == i.xid && x.block == b
  let vals := (List.range n).map fun k => s.reduced p i (if p.op = 6 then 0 else p.outfmt) (384 * b + k)
  let s := (s.setHbm fun h => { h with slots := h.slots.filter (fun x => !same x), spilled := h.spilled.filter fun x => !same x }).showSlots d
  let s := s.setInst c i.xid fun i => { i with encoded := i.encoded ++ [(encKey 0 b, [])] }
  let r : List Nat × State :=
    if p.op = 6 then
      match s.hbm.latched.find? fun o => o.ctx == c && o.xid == i.xid with
      | none => (vals, s)
      | some o =>
        let q0 := p.paramOff / s.optB c + 384 * b
        let r := (vals.zipIdx).foldl (fun (a : List Nat × State) g =>
          let x := a.2.applyOpt o (q0 + g.2) g.1
          (a.1 ++ [x.1], x.2)) ([], s)
        (r.1, (r.2.bump (HBC_NMU_PARAMS (nmuPg d)) ((384 * b + n) / 65536 - 384 * b / 65536)).countOut c r.1)
    else (vals, s.countOut c (vals.map fun x => elemOf p.outfmt x))
  if p.outfmt = 3 then
    (List.range (ceilDiv n 128)).foldl (fun s j =>
      let xs := (List.range 128).map fun e => nth r.1 (128 * j + e)
      let en := s.encodeOut c m i p.mxfmt 0 (384 * b + 128 * j) xs
      (s.countEncode (some d) i.xid en).putResult c m p i.xid ((3 * b + j) * en.bytes.length) en.bytes) r.2
  else
    let z := fmtBytes p.outfmt 0 1
    r.2.putResult c m p i.xid (384 * b * z) (r.1.flatMap (leBytes z))

/-- Every sender's elements of a merge block have been counted (R254). -/
def State.blockFull (s : State) (p : Program) (i : Instance) (b : Nat) : Bool :=
  s.completeInst p i || (s.senders i.ctx p).all fun x =>
    p.inMx 0 && (List.range 3).all fun j => decide (p.elems ≤ 384 * b + 128 * j) ||
      i.decoded.any fun y => y.1 == x.2 && y.2.1 == decKey 0 (384 * b + 128 * j)

/-- MERGE_BLOCK_COMPLETE (R254); with a bad tile map an UPDATE is rejected with a VOID (R248). -/
def execMergeBlockComplete (ctx xid block : Nat) (s : State) : Out :=
  .next (match s.prog ctx xid, s.inst ctx xid with
    | some (m, p), some i =>
      if i.isOpen && p.inMdies && (i.state == .opened || i.state == .complete) && decide (384 * block < p.elems) &&
          !(i.encoded.any fun x => x.1 == encKey 0 block) then
        if p.op = 6 ∧ s.hbm.mapBad.contains ctx then s.instError ctx xid 3 0 true else s.mergeDone ctx m p i block
      else s
    | _, _ => s)

/-- The merge blocks that are left. -/
def State.finishMerge (s : State) (c : Nat) (m : Image) (p : Program) (i : Instance) : State :=
  (List.range (ceilDiv p.elems 384)).foldl (fun s b => match s.inst c i.xid with
    | some i => if i.encoded.any fun x => x.1 == encKey 0 b then s else s.mergeDone c m p i b
    | none => s) s

/-- The output of an instance, by operation (R155). -/
def State.finish (s : State) (c : Nat) (m : Image) (p : Program) (i : Instance) : State :=
  let s := s.decodeRest c p i
  match s.inst c i.xid with
  | none => s
  | some i =>
    if p.inMdies then s.finishMerge c m p i
    else match p.op with
      | 1 => s.finishReduce c m p i
      | 2 => s.finishGather c m p i
      | 3 => s.finishTransform c m p i
      | 4 => s.finishSelect c m p i
      | _ => s.finishRoute c m p i

/-- The time from the first counted cell to now, ns. -/
def State.sinceFirst (s : State) (i : Instance) : Nat := s.time.nowNs - i.firstNs.getD s.time.nowNs

/-- An instance becomes ready now (R160, R183, R184). -/
def State.becomeReady (s : State) (c xid : Nat) (i : Instance) : State :=
  ((s.setInst c xid fun i => { i with state := .ready, readyNs := some s.time.nowNs }).bump (CLX_COUNT_READY (clxPg c)) 1).atLeast
    CLX_ENG_LAT_MAX_NS (s.sinceFirst i)

/-- INSTANCE_READY (R160, R183): the engine has finished with the output of a complete instance. -/
def execInstanceReady (ctx xid : Nat) (s : State) : Out :=
  .next (match s.prog ctx xid, s.inst ctx xid with
    | some (m, p), some i =>
      if i.isOpen && i.state == .complete && !s.isBranch ctx then
        if p.op = 6 ∧ s.hbm.mapBad.contains ctx then s.instError ctx xid 3 0 true
        else
          let s := s.finish ctx m p i
          match s.inst ctx xid with
          | some j => if j.state == .error then s else s.becomeReady ctx xid i
          | none => s
      else s
    | _, _ => s)

/-! ### Sending (R135, R136, R153, R161, R162) -/

/-- The congestion map takes the VC0 queue that a port holds for a context (R153). -/
def State.cmapPort (s : State) (c p : Nat) : State :=
  match s.rodLink p with
  | none => s
  | some l => s.cmapAdd c l.index 0 ((s.port .dz8 p).queue.filter fun x => x.2.vc == 0 && s.cellCtx .dz8 x.2 == c).length 0

/-- The boundary of the step of an instance. -/
def State.boundaryOf (s : State) (i : Instance) : Nat :=
  match (s.ttb i.ctx).uncommitted.find? fun o => o.step == i.step && o.iter == i.iter with
  | some o => o.boundary
  | none => 0

/-- Cells of a send that may leave now: none before beat `first`, and at most `rate` in a beat (R135). -/
def State.mayLeave (s : State) (i : Instance) (k rate cells first : Nat) : Nat :=
  let x := i.sentOf k
  if s.time.beat < first then 0 else min (rate - (if x.2.2 = s.time.beat + 1 then x.2.1 else 0)) (cells - x.1)

/-- Notes that `n` more cells of a send have left in this beat. -/
def State.noteSent (s : State) (i : Instance) (k n : Nat) : State :=
  let x := i.sentOf k
  let b := s.time.beat + 1
  s.setInst i.ctx i.xid fun i =>
    { i with sending := i.sending.filter (fun y => y.1 != k) ++ [(k, x.1 + n, (if x.2.2 = b then x.2.1 else 0) + n, b)] }

/-- The cells of a RESULT entry that leave now (R135, R161). -/
def State.sendResults (s : State) (c : Nat) (m : Image) (p : Program) (i : Instance) (k : Nat) (e : Entry) : State :=
  let sent := (i.sentOf k).1
  let n := s.mayLeave i k e.rate e.cells (s.boundaryOf i + e.beat)
  let dst := (s.lidFid c e.target).getD 0
  let s := (List.range n).foldl (fun s j =>
    let q := sent + j
    s.sendOn .dz8 e.port (s.newCell .dz8 dst 0 tRESULT q 0 (e.offset + 48 * q) (e.cidx + i.parity * 2 ^ 15)
      (wordsOf (s.getResult c m p i.xid (e.segment + 48 * q))))) s
  (s.noteSent i k n).cmapPort c e.port

/-- RESULT_SEND (R161). -/
def execResultSend (ctx entry : Nat) (s : State) : Out :=
  .next (match s.img ctx with
    | none => s
    | some m => match m.entries[entry]? with
      | none => s
      | some e => match s.prog ctx e.srcbuf, s.inst ctx e.srcbuf with
        | some (_, p), some i =>
          if e.kind == 4 && i.isOpen && i.state == .ready && i.step == e.step then s.sendResults ctx m p i entry e
          else if e.kind == 4 && p.op == 5 && i.isOpen && i.stage1 && decide (e.segment + 48 * e.cells ≤ p.dispatchLen) &&
              (i.state == .opened || i.state == .complete) then s.sendResults ctx m p i entry e
          else s
        | _, _ => s)

/-- Payload of cell `k` of a branch transfer (R162). -/
def State.branchCell (s : State) (p : Program) (i : Instance) (k : Nat) : List Nat :=
  if p.exactSum then wordsOf (accBytes (s.accAt p i k))
  else
    let nc := max 1 (ceilDiv p.elems 12)
    let val := fun e =>
      if p.elems ≤ e then 0
      else if p.red = 1 ∨ p.red = 2 then s.extreme p i e
      else match (maxNodes (s.inDomain i.ctx p s.domain))[k / nc]? with
        | some n => s.nodeAt p i e n.1 n.2
        | none => 0
    wordsOf ((List.range 12).flatMap fun j => leBytes 4 (val (12 * (k % nc) + j)))

/-- The cells of a branch transfer that leave now: from BRANCH_BEAT at BRANCH_RATE, on IN 3 to the home unit (R162). A transfer whose
last cell leaves is counted (R184). -/
def State.sendBranch (s : State) (p : Program) (i : Instance) : State :=
  let c := i.ctx
  let key := 2 ^ 32
  let sent := (i.sentOf key).1
  let n := s.mayLeave i key p.branchRate p.branchCells (s.boundaryOf i + p.branchBeat)
  let home := s.rd (CTX_SLICE_HOME (ctxPg c))
  let s := (List.range n).foldl (fun s j =>
    let k := sent + j
    s.send .dz8 (s.newCell .dz8 home 0 tCONTRIB k 0 (3 * 2 ^ 30 + k) (i.parity * 2 ^ 15 + i.xid) (s.branchCell p i k))) s
  let s := s.noteSent i key n
  if 0 < n ∧ sent + n = p.branchCells then s.bump CLX_ENG_CNT_BRANCH 1 else s

/-- BRANCH_TRANSFER (R162): a complete branch instance becomes ready, and its transfer goes to the home unit. -/
def execBranchTransfer (ctx xid : Nat) (s : State) : Out :=
  .next (match s.prog ctx xid, s.inst ctx xid with
    | some (_, p), some i =>
      if i.isOpen && s.isBranch ctx && p.branches && (i.state == .complete || i.state == .ready) then
        let s := if i.state == .complete then (s.decodeRest ctx p i).becomeReady ctx xid i else s
        match s.inst ctx xid with
        | none => s
        | some i => s.sendBranch p i
      else s
    | _, _ => s)

/-! ### The codec test paths (R207) -/

/-- CDC_TEST_GO (R207, R209). -/
def execCdcTestGo (die : Nat) (s : State) : Out :=
  .next (
    let pg := cdcPg die
    if s.on (CDC_STAT_TEST_BUSY pg) then s.wr (CDC_STAT_TEST_ERR pg) 2
    else match MxFmt.ofByte (s.rd (CDC_TB_MODE_FMT pg)) with
      | none => (s.wr (CDC_STAT_TEST_ERR pg) 1).wr (CDC_STAT_TEST_DONE pg) 1
      | some _ => (s.wr (CDC_STAT_TEST_ERR pg) 0).wr (CDC_STAT_TEST_BUSY pg) 1)

/-- The 128 FP32 values of CDC_TB_FP32. -/
def State.testFp (s : State) (pg : Nat) : List Nat :=
  (List.range 64).flatMap fun n => [s.rd (CDC_TB_FP32_EVEN pg n), s.rd (CDC_TB_FP32_ODD pg n)]

/-- The 136 bytes of CDC_TB_CODE. -/
def State.testCode (s : State) (pg : Nat) : List Byte := (List.range 17).flatMap fun n => leBytes 8 (s.rd (CDC_TB_CODE_BYTES pg n))

/-- CDC_TEST_DONE (R207). -/
def execCdcTestDone (die : Nat) (s : State) : Out :=
  .next (
    let pg := cdcPg die
    match s.on (CDC_STAT_TEST_BUSY pg), MxFmt.ofByte (s.rd (CDC_TB_MODE_FMT pg)) with
    | true, some f =>
      let signs := s.rd (CDC_TB_SIGN0_SIGNS pg) + s.rd (CDC_TB_SIGN1_SIGNS pg) * 2 ^ 64
      let key := s.rd (CDC_TB_KEY0_KEY pg) + s.rd (CDC_TB_KEY1_KEY pg) * 2 ^ 64
      let s := if s.on (CDC_TB_MODE_DIR pg) then
          let v := (decodeBlock f signs (s.testCode pg)).vals
          (List.range 64).foldl (fun s n => (s.wr (CDC_TB_FP32_EVEN pg n) (nth v (2 * n))).wr (CDC_TB_FP32_ODD pg n) (nth v (2 * n + 1))) s
        else
          let g : GenIn := ⟨key, s.rd (CDC_TB_BEAT_BEAT pg), s.rd (CDC_TB_MODE_XID pg), s.rd (CDC_TB_MODE_IN pg),
            s.rd (CDC_TB_MODE_SOURCE pg), s.rd (CDC_TB_INDEX_INDEX pg)⟩
          let bs := (encodeBlock f signs g (s.testFp pg)).bytes
          (List.range 17).foldl (fun s n => s.wr (CDC_TB_CODE_BYTES pg n) (leNat ((bs.drop (8 * n)).take 8))) s
      (s.wr (CDC_STAT_TEST_BUSY pg) 0).wr (CDC_STAT_TEST_DONE pg) 1
    | _, _ => s)

/-- CDC_GEN_GO (R207); ignored while the generator test runs. -/
def execCdcGenGo (die : Nat) (s : State) : Out := .next (s.wr (CDC_STAT_GEN_BUSY (cdcPg die)) 1)

/-- CDC_GEN_DONE (R207). -/
def execCdcGenDone (die : Nat) (s : State) : Out :=
  .next (
    let pg := cdcPg die
    if s.on (CDC_STAT_GEN_BUSY pg) then
      let key := s.rd (CDC_GT_KEY0_KEY pg) + s.rd (CDC_GT_KEY1_KEY pg) * 2 ^ 64
      let g := gen key (s.rd (CDC_GT_W01_W0 pg)) (s.rd (CDC_GT_W01_W1 pg)) (s.rd (CDC_GT_W23_W2 pg)) (s.rd (CDC_GT_W23_W3 pg))
      ((s.wr (CDC_GT_OUT_G pg) g).wr (CDC_STAT_GEN_BUSY pg) 0).wr (CDC_STAT_GEN_DONE pg) 1
    else s)

end Sys2Proof.Machine
end

