-- ==== Sys2Proof/Machine/AgentTtb.lean ====
section
/-! DEFINITION. The agent's side of a timetable: its list, its steps, bound counters, sends, voids and events (R135, R136, R146,
R147, R150, R279, R428, R479 to R483). -/

namespace Sys2Proof.Machine

/-- Entry `i` of the loaded list (R483). -/
def State.agEntry (s : State) (i : Nat) : Entry :=
  entryOf (mword s.ag.list (32 * i)) (mword s.ag.list (32 * i + 8)) (mword s.ag.list (32 * i + 16)) (mword s.ag.list (32 * i + 24))

/-- Entries of the loaded list with their index. -/
def State.agEntries (s : State) : List (Nat × Entry) := (List.range (s.ard Ia.TTB_LLEN_ENTRIES)).map fun i => (i, s.agEntry i)

/-- Step record `k` of the agent (R480). -/
def State.agStep (s : State) (k : Nat) : StepRec :=
  let w := mword s.ag.steps (16 * k)
  ⟨bits w 63 32, bits w 31 0, bit (mword s.ag.steps (16 * k + 8)) 1⟩

/-- The agent's page of a timetable. -/
def agTtb : Nat := 0x600000

/-- The commit beat of a begun step at the agent (R132). -/
def State.agCommitBeat (s : State) (o : OpenStep) : Nat :=
  o.boundary + (s.agStep o.step).deadline + s.ard Ia.TTB_TIMING_GRACE + 1 + s.ard Ia.TTB_TIMING_SETTLE

/-- The active unit of the agent's domain: RTE_PAIR.ACTIVE, which the active unit writes; before its first write, what the candidates
show (R22, R39, R374, R478; log entry 24). -/
def State.agUnit (s : State) : Nat :=
  let near := fun (c : Candidate) => s.farFid .agent c.port
  let a := s.ard Ia.RTE_PAIR_ACTIVE
  if 0xFE ≤ a % 256 then a
  else match s.agTime.cands.find? fun c => c.active && decide (0xFE ≤ near c % 256) with
    | some c => near c
    | none => s.fidS .agent / 256 * 256 + 0xFE

/-- Queues an event for the host chip; a full queue drops it (R482). -/
def State.agEvent (s : State) (type cause iter step : Nat) : State :=
  if s.ag.events.length < 64 then
    s.setAg fun a => { a with events := a.events ++ [type * 2 ^ 60 + cause % 256 * 2 ^ 48 + iter % 2 ^ 16 * 2 ^ 32 + step % 2 ^ 32] }
  else (s.awr Ia.TTB_EVTSTAT_LOST 1).detect .agent agTtb 2 0 none

/-- The context that the agent serves. -/
def State.agCtx (s : State) : Nat := s.ard Ia.RTE_SELF_CONTEXT

/-- Sends the STEPMISS of a counter (R147, R374). -/
def State.sendStepmiss (s : State) (k : AgCounter) (iter : Nat) : State :=
  let x := sourceOf (s.fidS .agent) agTtb 1
  let ev : Event := ⟨s.stampS .agent, some s.agCtx, false, false, false, false, false, 1, 1, x, 0,
    s.agFlt.nextSerial + s.agFlt.waiting.length, k.cidx, false, s.stampS .agent⟩
  let s := s.detect .agent agTtb 1 k.cidx (some s.agCtx)
  s.send .agent (s.newCell .agent s.agUnit 1 tFAULT 0 8 0 0
    (ev.words ++ [2 * 2 ^ 56 + k.cidx * 2 ^ 40 + k.count % 2 ^ 32, iter % 2 ^ 32 * 2 ^ 32 + k.step % 2 ^ 32]))

/-- The begun step of a number. -/
def State.agOpen (s : State) (st : Nat) : Option OpenStep := s.ag.uncommitted.find? fun o => o.step == st

/-- The agent holds a VOID for a step (R147). -/
def State.agVoided (s : State) (st : Nat) : Bool :=
  match s.ag.void, s.agOpen st with
  | some v, some o => decide ([v.iter, v.step] ≤ [o.iter, o.step])
  | _, _ => false

/-- COUNTER_DEADLINE_CHECK (R147): `cidx` holds the parity bit. -/
def execCounterDeadlineCheck (cidx : Nat) (s : State) : Out :=
  .next (match s.ag.counters.find? fun k => k.cidx == cidx with
    | none => s
    | some k =>
      if k.count < k.expect ∧ ¬ s.agVoided k.step then
        let iter := match s.agOpen k.step with | some o => o.iter | none => 0
        (s.sendStepmiss k iter).setAg fun a => { a with short := if a.short.contains k.step then a.short else a.short ++ [k.step] }
      else s)

/-- Every counter unbound, every send ended. -/
def State.agClear (s : State) : State :=
  s.setAg fun a => { a with counters := [], sends := [], uncommitted := [], void := none, short := [], disarmReq := false }

/-- The agent's timetable ends: EMPTY, with its event (R481, R482). -/
def State.agEmpty (s : State) (cause : Nat) : State :=
  let st := s.ard (TTB_STEP_NEXT agTtb)
  ((s.agClear.awr Ia.TTB_STAT_STATE 0).setAg fun a => { a with flipPaused := false, stopInject := false }).agEvent 5 cause
    (s.ard (TTB_ITER_ITER agTtb)) st

/-- The agent stops for its home unit (R151, R481). -/
def State.agStop (s : State) : State :=
  ((s.awr Ia.TTB_STAT_STATE 4).setAg fun a => { a with counters := [], sends := [], uncommitted := [], void := none, short := [] }).agEvent 5 0
    (s.ard (TTB_ITER_ITER agTtb)) (s.ard (TTB_STEP_NEXT agTtb))

/-- The base at which the agent's next step begins at beat `r` (R146). -/
def State.agRebase (s : State) (r : Nat) : State :=
  s.awr Ia.TTB_BASE_BEAT (r - (s.agStep (s.ard (TTB_STEP_NEXT agTtb))).start)

/-- Beat A at the agent (R144): A is the base of a list that was loaded, and a job armed again begins its first step not committed there
(R146, R482; log entry 140). -/
def State.agStart (s : State) : State :=
  if s.ard Ia.TTB_STAT_STATE = 2 then
    let a := s.ard Ia.TTB_ARM_AT_BEAT
    let s := (s.awr Ia.TTB_STAT_STATE 3).setAg fun a => { a with stopInject := false, flipPaused := false }
    if s.ag.fresh then s.awr Ia.TTB_BASE_BEAT a
    else (s.agRebase a).agEvent 3 0 (s.ard (TTB_ITER_ITER agTtb)) (s.ard (TTB_STEP_NEXT agTtb))
  else s

/-- The counter that an EXPECT entry binds, count 0 (R135, R136). -/
def boundBy (e : Entry) (parity : Nat) : AgCounter := ⟨e.cidx + parity * 2 ^ 15, e.srcbuf, e.segment, e.expect, 0, e.step, e.deadline, e.offset⟩

/-- The step after step `k` of iteration `i`: its number, iteration, and the shift of the base. -/
def nextStep (n ib k i : Nat) : Nat × Nat × Nat := if k + 1 < n then (k + 1, i, 0) else (0, i + 1, ib)

/-- A step begins at the agent: its counters are bound and its entries start (R135). -/
def State.agBegin (s : State) (st iter : Nat) : State :=
  let parity := s.ard (TTB_VOID_PARITY agTtb)
  let es := s.agEntries.filter fun e => e.2.step == st
  let nx := nextStep (s.ard Ia.TTB_SLEN_STEPS) (s.ard Ia.TTB_ITERB_ITER_BEATS) st iter
  let s := s.setAg fun a => { a with
    uncommitted := a.uncommitted ++ [(⟨st, iter, s.agTime.beat⟩ : OpenStep)]
    counters := a.counters ++ (es.filter fun e => e.2.kind == 3).map fun e => boundBy e.2 parity
    sends := a.sends ++ (es.filter fun e => e.2.kind == 1 || e.2.kind == 2).map fun e => ⟨e.1, 0⟩ }
  ((s.awr (TTB_STEP_NEXT agTtb) nx.1).awr (TTB_ITER_ITER agTtb) nx.2.1).awr Ia.TTB_BASE_BEAT (s.ard Ia.TTB_BASE_BEAT + nx.2.2)

/-- The agent has begun the last step of its last iteration. -/
def State.agEnded (s : State) : Bool :=
  s.ard Ia.TTB_ITERB_ITER != 0 && decide (s.ard Ia.TTB_ITERB_ITER ≤ s.ard (TTB_ITER_ITER agTtb))

/-- A void at the agent has been rolled back and waits for its restart. -/
def State.agRolled (s : State) : Bool := match s.ag.void with | some v => v.rolled | none => false

/-- A step boundary at the agent (R135, R146, R428, R481): one that is not aligned begins no step (R43). -/
def State.agBoundary (s : State) : State :=
  if s.ard Ia.TTB_STAT_STATE ≠ 3 then s
  else if s.ag.disarmReq then s.agEmpty 1
  else if s.ag.flipPaused || s.agRolled || s.agEnded then s
  else if s.quiet .agent then s.setAg fun a => { a with flipPaused := true }
  else if s.ag.stopInject || s.agTime.injectStop || s.ard Ia.TMK_STAT_STATE != 2 then s
  else s.agBegin (s.ard (TTB_STEP_NEXT agTtb)) (s.ard (TTB_ITER_ITER agTtb))

/-- K_s of the oldest begun step at the agent (R150, R428, R481). -/
def State.agCommit (s : State) : State :=
  match s.ag.uncommitted with
  | [] => s
  | o :: rest =>
    if s.agVoided o.step then s
    else if s.ag.stopInject then s
    else if s.ag.short.contains o.step then
      let s := ((s.ag.counters.filter fun k => k.step == o.step && decide (k.count < k.expect)).foldl
        (fun s k => s.sendStepmiss k o.iter) s)
      s.setAg fun a => { a with stopInject := true }
    else
      let s := s.setAg fun a => { a with uncommitted := rest, counters := a.counters.filter fun k => k.step != o.step }
      let s := (s.awr (TTB_STEP_COMMITTED agTtb) o.step).agEvent 1 0 o.iter o.step
      if s.agEnded && rest.isEmpty then s.agEmpty 2 else s

/-- The void notice of six payload words (R148). -/
def voidOf (c : Cell) : VoidSt :=
  let w := fun i => cellWord c i
  let rs := bits (w 1) 55 0
  { serial := bits (w 3) 31 0
    step := bits (w 2) 31 0
    iter := bits (w 2) 63 32
    rb := bits (w 0) 55 0
    rs := if rs = 2 ^ 56 - 1 then none else some rs
    cause := bits (w 4) 63 56
    detail := bits (w 4) 47 32
    parity := bits (w 4) 48 48
    lid := if bit (w 4) 28 then some (bits (w 4) 27 16) else none
    home := bits (w 3) 63 50
    repeats := 0
    unconfirmed := []
    rolled := false }

/-- The context of a void notice. -/
def voidCtx (c : Cell) : Nat := bits (cellWord c 3) 35 32

/-- A serial is older than another; serials count modulo 2^32 (R148). -/
def serialOlder (a b : Nat) : Bool := decide (2 ^ 31 ≤ (a + 2 ^ 32 - b) % 2 ^ 32)

/-- A void notice at the agent (R150, R151): a second notice of the same void may take its restart away, and a copy of an older one
changes nothing. -/
def State.agVoid (s : State) (v : VoidSt) : State :=
  if s.ard Ia.TTB_STAT_STATE ≠ 3 || s.ag.void.any fun u => serialOlder v.serial u.serial then s
  else
    let s := (s.awr (TTB_VOID_SERIAL agTtb) v.serial).awr (TTB_VOID_CAUSE agTtb) v.cause
    match s.ag.void with
    | some u => if u.serial = v.serial then
        (if v.rs.isNone && u.rolled then s.agStop else s.setAg fun a => { a with void := some { u with rs := v.rs } })
      else s.setAg fun a => { a with void := some v }
    | none => s.setAg fun a => { a with void := some v }

/-- RB at the agent (R150): injection of the step and of every later one stops, and their counters are unbound. -/
def State.agRollback (s : State) : State :=
  match s.ag.void with
  | none => s
  | some v =>
    if v.rolled then s
    else
      let gone := fun (o : OpenStep) => decide ([v.iter, v.step] ≤ [o.iter, o.step])
      let keep := s.ag.uncommitted.filter fun o => !gone o
      let kept := fun (st : Nat) => keep.any fun o => o.step == st
      let sh := (s.ard (TTB_ITER_ITER agTtb) - v.iter) * s.ard Ia.TTB_ITERB_ITER_BEATS
      let s := s.setAg fun a => { a with
        uncommitted := keep
        counters := a.counters.filter fun k => kept k.step
        sends := a.sends.filter fun x => kept (s.agEntry x.entry).step
        short := a.short.filter kept
        stopInject := false
        void := some { v with rolled := true } }
      let s := ((s.awr (TTB_STEP_NEXT agTtb) v.step).awr (TTB_ITER_ITER agTtb) v.iter).awr Ia.TTB_BASE_BEAT (s.ard Ia.TTB_BASE_BEAT - sh)
      let s := s.agEvent 2 (serviceCause v.cause) v.iter v.step
      if v.rs.isNone then s.agStop else s

/-- RS at the agent (R150); one that is being disarmed does not restart (R281, R481). -/
def State.agRestart (s : State) : State :=
  match s.ag.void with
  | some v =>
    if v.rolled && s.ag.disarmReq then s.agEmpty 1
    else if v.rolled then
      match v.rs with
      | none => s.agStop
      | some rs =>
        let s := (s.setAg fun a => { a with void := none }).awr (TTB_VOID_PARITY agTtb) v.parity
        (s.agRebase rs).agEvent 3 0 v.iter v.step
    else s
  | none => s

end Sys2Proof.Machine
end

