-- ==== Sys2Proof/Machine/Ttb.lean ====
section
/-! DEFINITION. Timetables in the DZ8: checking, arming, steps, pauses, voids and commits (R138 to R154, R256, R397). -/

namespace Sys2Proof.Machine

/-- A host-assisted function of GEN_MODE runs in host-assisted mode from its next start on (R347). -/
def State.startMode (s : State) (b : Nat) (host : Bool) : State := s.wr GEN_MODE_IN_FORCE (setBit (s.rd GEN_MODE_IN_FORCE) b host)

/-- The mode bit that the host has set for a function. -/
def State.hostMode (s : State) (b : Nat) : Bool := bit (s.rd GEN_MODE_HOST) b

/-- The mode in which a function runs now. -/
def State.modeNow (s : State) (b : Nat) : Bool := bit (s.rd GEN_MODE_IN_FORCE) b

/-- The STATE of a timetable changes; ENERGY_UJ of an image that is no longer armed is shown no more (R154). -/
def State.ttbTo (s : State) (c st : Nat) : State :=
  (s.wr (TTB_STAT_STATE (ttbPg c)) st).wr (TTB_ENERGY_DECLARED_UJ (ttbPg c)) (if st = 4 ∨ st = 5 then s.rd (TTB_ENERGY_DECLARED_UJ (ttbPg c)) else 0)

/-- A code and detail go to TTB_STAT (R138, R530). -/
def State.ttbErr (s : State) (c code detail : Nat) : State :=
  (s.wr (TTB_STAT_CHECK_ERR (ttbPg c)) code).wr (TTB_STAT_CHECK_DETAIL (ttbPg c)) detail

/-- Members of a slice other than those this unit cannot reach: every mapped LID with its FID. -/
def State.membersOf (s : State) (c : Nat) : List (Nat × Nat) :=
  (List.range (s.rd (CTX_SLICE_N (ctxPg c)))).filterMap fun l => (s.lidFid c l).map fun f => (l, f)

/-- The unit reads sink rate and restore time of every member's agent (R138, R139, R483). -/
def State.askAgents (s : State) (c : Nat) : State :=
  (s.membersOf c).foldl (fun s m => s.mreq m.2 1 2 0x6001B0 [] none) s

/-- TTB_CHECK (R138, R142): the checker starts on a LOADED or CHECKED image; one that a TENANT session loaded is checked in hardware
mode, whatever the mode of the function. -/
def execTtbCheck (ctx : Nat) (s : State) : Out :=
  .next (if s.ttbState ctx = 1 ∨ s.ttbState ctx = 3 then
    let s := (s.startMode 2 (s.hostMode 2)).askAgents ctx
    let s := s.setTtb ctx fun t => { t with hostCheck := s.modeNow 2 && !t.tenant }
    (s.ttbTo ctx 2).wr (TTB_STAT_CHECK_OK (ttbPg ctx)) 0
    else s)

/-- TTB_CHECK_DONE (R138, R530). -/
def execTtbCheckDone (ctx : Nat) (s : State) : Out :=
  .next (if s.ttbState ctx = 2 then
    let host := (s.ttb ctx).hostCheck
    match s.checkNow ctx host with
    | none =>
      let m := readImage (s.imageBytes ctx)
      let s := ((s.ttbErr ctx 0 0).wr (TTB_STAT_CHECK_OK (ttbPg ctx)) 1).wr (TTB_STAT_HOSTCHK (ttbPg ctx)) (b2n host)
      (s.setTtb ctx fun t => { t with image := some m }).ttbTo ctx 3
    | some e => (((s.ttbErr ctx e.1 e.2).wr (TTB_STAT_HOSTCHK (ttbPg ctx)) 0).ttbTo ctx 1).notifyJob ctx 5 e.1
    else s)

/-! ### Arming (R144) -/

/-- An armed timetable of another context shares home unit, a branch domain and an XID with this one: the XID (R160). -/
def State.branchClash (s : State) (c : Nat) (m : Image) : Option Nat :=
  m.xrefs.findSome? fun x => if contexts.any fun k => k != c && s.armed k &&
      s.rd (CTX_SLICE_HOME (ctxPg k)) == s.rd (CTX_SLICE_HOME (ctxPg c)) &&
      match s.img k with
      | none => false
      | some n => (n.xrefs.any fun y => y.xid == x.xid) && (s.ttbDomains c m).any fun d => (s.ttbDomains k n).contains d
    then some x.xid else none

/-- Writes of a window: `sel` chooses its position, then the words go to `win` (R480). -/
def State.loadWindow (s : State) (fid sel win unit per : Nat) (ws : List Nat) : Nat → Nat → State
  | 0, _ => s
  | n + 1, k =>
    if ws.length ≤ k * per then s
    else
      let part := (ws.drop (k * per)).take per
      ((s.remoteWrite fid sel [k * unit]).remoteWrites fid 64 win part).loadWindow fid sel win unit per ws n (k + 1)

/-- The 16-byte record of a step as two words (R131). -/
def stepWords (r : StepRec) : List Nat := [r.start * 2 ^ 32 + r.deadline, 2 * b2n r.xdom]

/-- Words of a digest. -/
def digestWords (bs : List Byte) : List Nat := (List.range 4).map fun i => leAt bs (8 * i) 8

/-- A member takes the seed and A, and ARM (R198, R271, R480). -/
def State.armAgent (s : State) (c fid a : Nat) : State :=
  let seed := (s.ttb c).seed
  ((s.remoteWrite fid 0x600208 [seed % 2 ^ 64, seed / 2 ^ 64]).remoteWrite fid 0x600118 [a]).remoteWrite fid 0x600100 [8]

/-- The cutting list of a LID goes to its agent (R144, R158, R198, R480). -/
def State.loadAgent (s : State) (c : Nat) (m : Image) (lid fid at' : Nat) : State :=
  let es := m.entriesOf 0 lid
  let ws := es.flatMap entryWords
  let ss := m.steps.flatMap stepWords
  let iterb := m.iterBeats * 2 ^ 32 + m.iters
  let timing := m.settle * 2 ^ 32 + m.grace
  let digest := sha256 ((ws ++ ss ++ [iterb, timing]).flatMap (leBytes 8))
  let s := s.remoteWrite fid 0x6001A0 [es.length]
  let s := s.loadWindow fid 0x6001A8 0x600800 64 256 ws 1025 0
  let s := s.remoteWrite fid 0x600230 [m.steps.length]
  let s := s.loadWindow fid 0x600248 0x600400 128 256 ss 513 0
  let s := (s.remoteWrite fid 0x600238 [iterb, timing]).remoteWrite fid 0x600180 (digestWords digest)
  let s := ((es.filter fun e => e.kind == 2).map (·.target)).dedup.foldl (fun s x =>
    match m.program x with
    | none => s
    | some p => s.remoteWrite fid 0x6001E8 [x, 2 ^ 63 + s.contribDest p.2 fid]) s
  s.armAgent c fid at'

/-- Disarms every member (R144, R154). -/
def State.disarmMembers (s : State) (c : Nat) : State := (s.membersOf c).foldl (fun s x => s.remoteWrite x.2 0x600100 [16]) s

/-- Arming begins: first of a CHECKED timetable, whose base is A, or again of a paused or stopped one, whose first step not committed
begins at A; the members in `fresh` take their whole list (R144, R146, R271, R404; log entry 140). PENDING counts every member until
the reading at A − 16 (log entry 140). -/
def State.beginArmWith (s : State) (c a : Nat) (again : Bool) (fresh : List Nat) : State :=
  let pg := ttbPg c
  match s.img c with
  | none => s
  | some m =>
    let s := s.cancelPeriod
    let s := s.setTtb c fun t => { t with
      rearm := again, notArmed := (s.membersOf c).map (·.2), stopReq := false, held := false, flipPaused := false
      seed := (s.ctx c).seed }
    let s := if again then s else
      let s := { s with insts := s.insts.filter fun (i : Instance) => i.ctx != c }
      let s := ((((s.wr (TTB_STEP_NEXT pg) 0).wr (TTB_STEP_COMMITTED pg) (2 ^ 32 - 1)).wr (TTB_ITER_ITER pg) 0).wr
        (TTB_VOID_PARITY pg) 0).wr (TTB_VOID_ATTEMPT pg) 0
      s.setTtb c fun t => { t with
        uncommitted := [], miss := none, void := none, others := [], attempts := [], updateAt := 0, lastRb := (none, none)
        disarmReq := false }
    let s := ((s.wr (TTB_ENERGY_DECLARED_UJ pg) m.energyUj).wr (TTB_DIST_PENDING pg) (s.membersOf c).length).ttbErr c 0 0
    let s := (s.membersOf c).foldl (fun s x =>
      if again && !fresh.contains x.1 then s.armAgent c x.2 a else s.loadAgent c m x.1 x.2 a) s
    (if again then s.rebase c a else s.wr (TTB_BASE_BEAT pg) a).ttbTo c 4

/-- Arming of members that hold their lists, where the timetable is armed again. -/
def State.beginArm (s : State) (c a : Nat) (again : Bool) : State := s.beginArmWith c a again []

/-- A timetable may be armed again: stopped, or paused without a flip's resume beat to come (R146). -/
def State.mayRearm (s : State) (c : Nat) : Bool :=
  s.ttbState c == 6 || (s.ttbState c == 5 && s.on (TTB_STAT_PAUSED (ttbPg c)))

/-- TTB_ARM (R144, R160); ignored while a hold is in force (R408). -/
def execTtbArm (ctx : Nat) (s : State) : Out :=
  .next (
    let again := s.mayRearm ctx
    if s.active ∧ (s.ttb ctx).held = false ∧ (s.ttbState ctx = 3 ∨ again = true) then
      let a := s.rd (TTB_ARM_AT_BEAT (ttbPg ctx))
      if a < s.time.beat + 4096 then s.ttbErr ctx 0x0F 0
      else match (s.img ctx).bind (s.branchClash ctx) with
        | some x => s.ttbErr ctx 0x0A x
        | none => s.beginArm ctx a again
    else s)

/-- ARM_DEADLINE (R144): a member that does not show ARMED ends the arming. -/
def execArmDeadline (ctx : Nat) (armed : List Nat) (s : State) : Out :=
  .next (if s.ttbState ctx = 4 then
    let pg := ttbPg ctx
    let left := ((s.membersOf ctx).map (·.2)).filter fun f => !armed.contains f
    let s := (s.setTtb ctx fun t => { t with notArmed := left }).wr (TTB_DIST_PENDING pg) left.length
    match left with
    | [] => s
    | f :: _ => ((((s.disarmMembers ctx).wr (TTB_DIST_FID pg) f).ttbErr ctx 0x0F 0).ttbTo ctx 3).notifyJob ctx 5 0x0F
    else s)

/-- A re-mapped job runs again: RST_REMAP_STAT leaves ARMING (R409). -/
def State.armingDone (s : State) (c : Nat) : State :=
  if s.rd RST_REMAP_STAT_PHASE = 3 ∧ s.rd RST_REMAP_STAT_CONTEXT = c then s.wr RST_REMAP_STAT_PHASE 0 else s

/-- ARM_START (R144): beat A. -/
def execArmStart (site : Site) (ctx : Nat) (s : State) : Out :=
  .next (match site with
    | .agent => s.agStart
    | .dz8 => if s.active ∧ s.ttbState ctx = 4 then
        let s := ((s.ttbTo ctx 5).wr (TTB_STAT_PAUSED (ttbPg ctx)) 0).wr (TTB_STAT_XDOM_HELD (ttbPg ctx)) 0
        if (s.ttb ctx).rearm then (s.armingDone ctx).notifyJob ctx 7 0 else s
      else s)

/-! ### Disarming and stopping -/

/-- Open instances of a context close and partial state goes (R150). -/
def State.dropSteps (s : State) (c : Nat) (gone : OpenStep → Bool) : State :=
  (s.ttb c).uncommitted.foldl (fun s o =>
    if gone o then
      let s := match s.img c with | some m => s.dropUpdates c (m.updatesOf o.step) | none => s
      s.closeStep c o.step o.iter
    else s) s

/-- The timetable is disarmed: CHECKED again (R154). -/
def State.disarmNow (s : State) (c : Nat) : State :=
  let s := s.dropSteps c fun _ => true
  let s := s.setTtb c fun t => { t with
    disarmReq := false, stopReq := false, held := false, flipPaused := false, uncommitted := [], miss := none, void := none, others := []
    attempts := [] }
  (((s.wr (TTB_STAT_PAUSED (ttbPg c)) 0).wr (TTB_STAT_XDOM_HELD (ttbPg c)) 0).ttbTo c 3).notifyJob c 3 0

/-- TTB_STOP (R146). -/
def execTtbStop (ctx : Nat) (s : State) : Out :=
  .next (if s.armed ctx then s.setTtb ctx fun t => { t with stopReq := true } else s)

/-- TTB_DISARM (R144, R154, R481): the members are told at once and act at their next step boundary, as the unit does; at once where
no boundary is to come. -/
def execTtbDisarm (ctx : Nat) (s : State) : Out :=
  .next (if s.ttbState ctx = 5 ∧ ¬ s.on (TTB_STAT_PAUSED (ttbPg ctx)) then (s.disarmMembers ctx).setTtb ctx fun t => { t with disarmReq := true }
    else if s.armed ctx || s.ttbState ctx == 6 then (s.disarmMembers ctx).disarmNow ctx else s)

/-- TTB_UNLOAD (R154). -/
def execTtbUnload (ctx : Nat) (s : State) : Out :=
  .next (if s.armed ctx then s
    else ((s.ttbTo ctx 0).wr (TTB_STAT_CHECK_OK (ttbPg ctx)) 0).setTtb ctx fun t => { t with image := none, tenant := false })

/-- TTB_VOID (R148, R152): the oldest uncommitted step with CAUSE HOST. -/
def execTtbVoid (ctx : Nat) (s : State) : Out :=
  .next (match (s.ttb ctx).uncommitted with
    | o :: _ => if s.ttbState ctx = 5 then s.learnMiss ctx ⟨o.step, o.iter, 6, 0, none⟩ else s
    | [] => s)

/-! ### Void notices (R148 to R151) -/

/-- The commit beat of a begun step (R132). -/
def State.commitBeat (s : State) (c : Nat) (o : OpenStep) : Nat :=
  match s.img c with
  | some m => o.boundary + (m.step o.step).deadline + m.grace + 1 + m.settle
  | none => o.boundary

/-- The payload of a void notice (R148). -/
def voidWords (c : Nat) (v : VoidSt) : List Nat :=
  [v.rb, v.rs.getD (2 ^ 56 - 1), v.iter % 2 ^ 32 * 2 ^ 32 + v.step % 2 ^ 32, v.home * 2 ^ 50 + c * 2 ^ 32 + v.serial,
   v.cause * 2 ^ 56 + v.parity * 2 ^ 48 + v.detail % 2 ^ 16 * 2 ^ 32 + (match v.lid with | some l => 2 ^ 28 + l * 2 ^ 16 | none => 0), 0]

/-- The notice on the DOWN ports of this unit's domain (R65, R148). -/
def State.voidBroadcast (s : State) (c : Nat) (v : VoidSt) : State :=
  let x := s.newCell .dz8 (s.domain * 256) 1 tVOID (v.serial % 2 ^ 16) 10 0 0 (voidWords c v)
  (s.broadcastPorts .dz8 none).foldl (fun s q => s.enqueue .dz8 q none x) s

/-- The notice to one FID. -/
def State.voidTo (s : State) (c : Nat) (v : VoidSt) (fid : Nat) : State :=
  s.send .dz8 (s.newCell .dz8 fid 1 tVOID (v.serial % 2 ^ 16) 8 0 0 (voidWords c v))

/-- Domains other than this unit's with members of a slice. -/
def State.otherDomains (s : State) (c : Nat) : List Nat := (((s.sliceFids c).map (· / 256)).dedup).filter fun d => d != s.domain

/-- One sending of a notice: the home unit also sends to the other active units, a relay only broadcasts (R148). -/
def State.voidOut (s : State) (c : Nat) (v : VoidSt) : State :=
  let s := s.voidBroadcast c v
  if v.home = s.fid then (s.otherDomains c).foldl (fun s d => s.voidTo c v (s.activeUnit d)) s else s

/-- The job stops: STOPPED, its first step not committed being next (R151, R154; log entry 23 for the notice). A void in progress of
that step takes RS all ones; one of a later step gives way to a new notice. -/
def State.stopJob (s : State) (c cause : Nat) : State :=
  let pg := ttbPg c
  let t := s.ttb c
  let first := (t.uncommitted.head?).getD ⟨s.rd (TTB_STEP_NEXT pg), s.rd (TTB_ITER_ITER pg), s.time.beat⟩
  let fresh : VoidSt := ⟨(s.rd (TTB_VOID_SERIAL pg) + 1) % 2 ^ 32, first.step, first.iter, s.commitBeat c first, none, cause, 0,
    1 - s.rd (TTB_VOID_PARITY pg), none, s.fid, 0, [], false⟩
  let v : VoidSt := match t.void with
    | some v => if v.takes first then { v with rs := none, repeats := 0 } else fresh
    | none => fresh
  let s := if v.home = s.fid then (s.wr (TTB_VOID_SERIAL pg) v.serial).voidOut c v else s
  let s := s.dropSteps c fun _ => true
  let s := ((s.wr (TTB_STEP_NEXT pg) v.step).wr (TTB_ITER_ITER pg) v.iter).setTtb c fun t => { t with
    uncommitted := [], miss := none, void := none, others := [], stopReq := false, disarmReq := false, flipPaused := false }
  ((s.ttbTo c 6).detect .dz8 pg 3 0 (some c)).notifyJob c 1 cause

/-- The rollback beat of the last attempt of a parity. -/
def TtbSt.lastOf (t : TtbSt) (parity : Nat) : Option Nat := if parity = 0 then t.lastRb.1 else t.lastRb.2

/-- RS of a void (R149). -/
def State.restartBeat (s : State) (c : Nat) (m : Image) (rb cause attempt : Nat) : Option Nat :=
  if cause = 4 ∨ m.voidMax ≤ attempt then none
  else
    let parity := 1 - s.rd (TTB_VOID_PARITY (ttbPg c))
    match (s.ttb c).lastOf parity with
    | some r => some (max (rb + m.restart) (r + s.safeBeats))
    | none => some (rb + m.restart)

/-- Consecutive voids of a step (R149). -/
def TtbSt.attemptsOf (t : TtbSt) (st iter : Nat) : Nat :=
  match t.attempts.find? fun x => x.1 == st && x.2.1 == iter with
  | some x => x.2.2
  | none => 0

/-- The counts of consecutive voids with that of a step changed; 0 takes it out. -/
def TtbSt.withAttempts (t : TtbSt) (st iter n : Nat) : List (Nat × Nat × Nat) :=
  (t.attempts.filter fun x => !(x.1 == st && x.2.1 == iter)) ++ if n = 0 then [] else [(st, iter, n)]

/-- A void of a begun step starts (R148, R149): its notice, counters, faults and records. A void in progress of a later step gives way
to it, but for the copies of its notice that are still to be sent. -/
def State.startVoid (s : State) (c : Nat) (m : Image) (o : OpenStep) (x : Miss) : State :=
  let pg := ttbPg c
  let attempt := (s.ttb c).attemptsOf o.step o.iter + 1
  let rb := s.commitBeat c o
  let v : VoidSt := ⟨(s.rd (TTB_VOID_SERIAL pg) + 1) % 2 ^ 32, o.step, o.iter, rb, s.restartBeat c m rb x.cause attempt, x.cause, x.detail,
    1 - s.rd (TTB_VOID_PARITY pg), x.lid, s.fid, 2, (s.membersOf c).map (·.2), false⟩
  let s := ((((s.wr (TTB_VOID_SERIAL pg) v.serial).wr (TTB_VOID_CAUSE pg) x.cause).wr (TTB_VOID_ATTEMPT pg) attempt).bump
    (TTB_COUNT_VOIDS pg) 1).setTtb c fun t => { t with
      miss := none, void := some v, others := t.others ++ t.void.toList, attempts := t.withAttempts o.step o.iter attempt }
  let s := if x.cause = 3 then s.bump CLX_ENG_CNT_ENGINE_VOIDS 1 else s
  let s := if x.cause = 3 ∨ x.cause = 4 ∨ x.cause = 5 then s.service c else s
  let s := s.detect .dz8 pg 2 x.detail (some c)
  let s := if m.voidMax ≤ attempt then s.detect .dz8 pg 1 attempt (some c) else s
  (s.voidOut c v).notifyJob c 4 x.cause

/-- A void of the step of a miss; the emergency throttle voids every uncommitted step, the oldest last, whose notice is the one in
progress (R148, R152, R369; log entry 138). -/
def State.voidFor (s : State) (c : Nat) (m : Image) (o : OpenStep) (x : Miss) : State :=
  if x.cause = 4 then
    (s.ttb c).uncommitted.reverse.foldl (fun s q => s.startVoid c m q { x with step := q.step, iter := q.iter }) s
  else s.startVoid c m o x

/-- VOID_SEND (R148, R151): a step learnt of at or after K_s stops the job. -/
def execVoidSend (ctx : Nat) (s : State) : Out :=
  .next (match (s.ttb ctx).miss, s.img ctx with
    | some x, some m =>
      match (s.ttb ctx).uncommitted.find? fun o => o.step == x.step && o.iter == x.iter with
      | some o => if !s.active then s else if s.time.beat < s.commitBeat ctx o then s.voidFor ctx m o x else s.stopJob ctx x.cause
      | none => if s.active then s.stopJob ctx x.cause else s
    | _, _ => s)

/-- A notice with one copy less to send. -/
def VoidSt.sent (v : VoidSt) : VoidSt := { v with repeats := v.repeats - 1 }

/-- VOID_REPEAT (R148): the two further copies of every notice of the context. -/
def execVoidRepeat (ctx : Nat) (s : State) : Out :=
  .next (
    let t := s.ttb ctx
    let s := ((t.others ++ t.void.toList).filter fun v => 0 < v.repeats).foldl (fun s v => s.voidOut ctx v) s
    s.setTtb ctx fun t => { t with
      others := (t.others.map VoidSt.sent).filter fun v => 0 < v.repeats
      void := t.void.map VoidSt.sent })

/-- A relay unit takes a notice and sends it on in its domain (R148): a copy that says nothing new, or one of an older serial,
changes nothing. -/
def State.relayVoid (s : State) (c : Nat) (v : VoidSt) : State :=
  let v := { v with repeats := 2 }
  let take := ((s.wr (TTB_VOID_SERIAL (ttbPg c)) v.serial).wr (TTB_VOID_CAUSE (ttbPg c)) v.cause)
  match (s.ttb c).void with
  | some u =>
    if u.serial = v.serial then
      if u.rs = v.rs then s else (take.setTtb c fun t => { t with void := some { u with rs := v.rs, repeats := 2 } }).voidBroadcast c v
    else if serialOlder v.serial u.serial then s
    else (take.setTtb c fun t => { t with void := some v, others := t.others ++ [u] }).voidBroadcast c v
  | none => (take.setTtb c fun t => { t with void := some v }).voidBroadcast c v

/-- VOID_CELL (R148, R150): the agent holds it; another active unit of the slice holds and relays it. -/
def execVoidCell (site : Site) (cell : Cell) (s : State) : Out :=
  .next (match site with
    | .agent => if s.aon Ia.RTE_SELF_VALID && voidCtx cell == s.agCtx then s.agVoid (voidOf cell) else s
    | .dz8 =>
      let c := voidCtx cell
      let v := voidOf cell
      if v.home = s.fid ∨ (s.membersOf c).isEmpty ∨ ¬ s.active then s else s.relayVoid c v)

/-- A miss reaches the home unit (R148, R151): that of a step that has a void is counted, one that comes at or after K_s stops the job
(log entry 142 for a miss of a voided step that comes so late). -/
def State.missReaches (s : State) (c : Nat) (x : Miss) : State :=
  if (s.ttb c).void.any fun v => v.covers x.step x.iter then s.learnMiss c x
  else match (s.ttb c).uncommitted.find? fun o => o.step == x.step && o.iter == x.iter with
    | some o => if s.time.beat < s.commitBeat c o then s.learnMiss c x else s.stopJob c x.cause
    | none => if s.ttbState c = 5 then s.stopJob c x.cause else s

/-- STEPMISS_CELL (R147, R151, R358): recorded where it comes from its agent, relayed to the home unit; there a miss of an uncommitted
step is learnt, a late one stops the job. Another CLASS is dropped. -/
def execStepmissCell (cell : Cell) (s : State) : Out :=
  .next (
    let w4 := cellWord cell 4
    let w5 := cellWord cell 5
    let e := Event.ofWords (cellWord cell 0) (cellWord cell 1) (cellWord cell 2) (cellWord cell 3)
    if bits w4 63 56 ≠ 2 then s else
    let s := if cell.src = srcFid e.source then s.remoteEvent cell else s
    match e.ctx with
    | none => s
    | some c =>
      let home := s.rd (CTX_SLICE_HOME (ctxPg c))
      if s.isBranch c && home / 256 != s.domain then
        s.send .dz8 (s.newCell .dz8 home 1 tFAULT cell.seq 8 0 0 (cell.payload.map (·.toNat)))
      else
        let lid := ((s.membersOf c).find? fun m => m.2 == srcFid e.source).map (·.1)
        s.missReaches c ⟨bits w5 31 0, bits w5 63 32, 2, bits w4 55 40, lid⟩)

/-- VOID_CONFIRM_ROUND (R151): the home unit takes the reports of every member, a relay unit those of its own domain; each sends the
notice again to a member that does not show the serial. -/
def execVoidConfirmRound (ctx : Nat) (reports : List VoidReport) (s : State) : Out :=
  .next (match (s.ttb ctx).void with
    | some v =>
      let shown := fun (f : Nat) => reports.any fun r => r.fid == f && r.serial == v.serial && !r.committed
      let left := ((s.membersOf ctx).map (·.2)).filter fun f => !shown f
      if ¬ s.active then s
      else if v.home ≠ s.fid then (left.filter fun f => f / 256 == s.domain).foldl (fun s f => s.voidTo ctx v f) s
      else
        let v := { v with unconfirmed := left }
        let s := s.setTtb ctx fun t => { t with void := some v }
        let s := left.foldl (fun s f => s.voidTo ctx v f) s
        let s := match left with | f :: _ => s.wr (TTB_DIST_FID (ttbPg ctx)) f | [] => s
        match v.rs with
        | some rs => if rs ≤ s.time.beat ∧ ¬ left.isEmpty then s.stopJob ctx v.cause else s
        | none => s
    | none => s)


/-- RB at the DZ8 (R150, R256): the voided steps' instances close, fused update rolls back, and the voided step is next again. -/
def State.rollbackAt (s : State) (c : Nat) : State :=
  match (s.ttb c).void with
  | none => s
  | some v =>
    if v.rolled then s
    else
      let pg := ttbPg c
      let s := s.dropSteps c v.takes
      let old := s.rd (TTB_VOID_PARITY pg)
      let ib := match s.img c with | some m => m.iterBeats | none => 0
      let s := (s.wr (TTB_BASE_BEAT pg) (s.rd (TTB_BASE_BEAT pg) - (s.rd (TTB_ITER_ITER pg) - v.iter) * ib))
      let s := ((s.wr (TTB_STEP_NEXT pg) v.step).wr (TTB_ITER_ITER pg) v.iter).setTtb c fun t => { t with
        uncommitted := t.uncommitted.filter fun o => !v.takes o
        lastRb := if old = 0 then (some v.rb, t.lastRb.2) else (t.lastRb.1, some v.rb)
        void := some { v with rolled := true } }
      if v.rs.isNone then
        let s := s.setTtb c fun t => { t with void := none }
        if s.ttbState c = 5 then (s.ttbTo c 6).notifyJob c 1 v.cause else s
      else s

/-- ROLLBACK (R150). -/
def execRollback (site : Site) (ctx : Nat) (s : State) : Out :=
  .next (match site with
    | .agent => s.agRollback
    | .dz8 => s.rollbackAt ctx)

/-- RESTART_BEAT (R150, R151): the parity of the notice; a member without the serial stops the job. A context that is RELEASING does not
take it (R281). -/
def execRestartBeat (site : Site) (ctx : Nat) (s : State) : Out :=
  .next (match site with
    | .agent => s.agRestart
    | .dz8 => match (s.ttb ctx).void with
      | none => s
      | some v =>
        if !v.rolled || (s.ctx ctx).release.isSome then s
        else if v.home = s.fid ∧ ¬ v.unconfirmed.isEmpty then s.stopJob ctx v.cause
        else match v.rs with
          | none => s
          | some rs => ((s.setTtb ctx fun t => { t with void := none }).wr (TTB_VOID_PARITY (ttbPg ctx)) v.parity).rebase ctx rs)

/-! ### Steps -/

/-- The timetable has begun its last step (R130). -/
def State.ended (s : State) (c : Nat) (m : Image) : Bool := m.iters != 0 && decide (m.iters ≤ s.rd (TTB_ITER_ITER (ttbPg c)))

/-- A step begins (R132). -/
def State.beginStep (s : State) (c : Nat) (m : Image) : State :=
  let pg := ttbPg c
  let st := s.rd (TTB_STEP_NEXT pg)
  let iter := s.rd (TTB_ITER_ITER pg)
  let nx := nextStep m.steps.length m.iterBeats st iter
  let s := s.setTtb c fun t => { t with uncommitted := t.uncommitted ++ [(⟨st, iter, s.time.beat⟩ : OpenStep)] }
  ((s.wr (TTB_STEP_NEXT pg) nx.1).wr (TTB_ITER_ITER pg) nx.2.1).wr (TTB_BASE_BEAT pg) (s.rd (TTB_BASE_BEAT pg) + nx.2.2)

/-- The timetable pauses at its boundary (R118, R146, R279). Members pause with a drain-and-flip by their own quiet state; the spec names
no message that tells them of STOP, of a hold or of XDOM_UNSAFE, and none is sent (DESIGN CHOICE, log entry 141). -/
def State.pauseAt (s : State) (c : Nat) (flip xdom : Bool) : State :=
  let s := ((s.wr (TTB_STAT_PAUSED (ttbPg c)) 1).wr (TTB_STAT_XDOM_HELD (ttbPg c)) (b2n xdom)).setTtb c fun t => { t with flipPaused := flip }
  let s := if flip then s.setRoute fun r => { r with lastPause := some s.time.beat } else s
  let s := if flip || xdom then s.service c else s
  s.notifyJob c 10 0

/-- STEP_BOUNDARY (R132, R135, R146, R368): disarm, pause, or begin the next step. -/
def execStepBoundary (site : Site) (ctx : Nat) (s : State) : Out :=
  .next (match site with
    | .agent => s.agBoundary
    | .dz8 => match s.img ctx with
      | none => s
      | some m =>
        let t := s.ttb ctx
        let rolled := match t.void with | some v => v.rolled | none => false
        if ¬ s.active ∨ s.ttbState ctx ≠ 5 ∨ s.on (TTB_STAT_PAUSED (ttbPg ctx)) then s
        else if t.disarmReq then s.disarmNow ctx
        else if rolled || s.ended ctx m then s
        else if s.quiet .dz8 then s.pauseAt ctx true false
        else if t.stopReq || t.held || s.flt.fatal then s.pauseAt ctx false false
        else if (m.step (s.rd (TTB_STEP_NEXT (ttbPg ctx)))).xdom && s.on TMK_STAT_XDOM_UNSAFE then s.pauseAt ctx false true
        else s.beginStep ctx m)

/-- A hold is placed on an armed timetable (R397). -/
def State.holdJob (s : State) (c : Nat) : State :=
  if s.armed c && !(s.ttb c).held then (s.setTtb c fun t => { t with held := true }).notifyJob c 6 0 else s

/-- EXCHANGE_DEADLINE_CHECK (R147, R176, R182): at the boundary after the deadline plus GRACE, and for the first stage of a
ROUTE_COMBINE after STAGE_DL plus GRACE; before it nothing is checked. -/
def execExchangeDeadlineCheck (ctx xid : Nat) (s : State) : Out :=
  .next (match s.prog ctx xid, s.inst ctx xid with
    | some (m, p), some i =>
      let after := fun (d : Nat) => match (s.ttb ctx).uncommitted.find? fun o => o.step == i.step && o.iter == i.iter with
        | some o => decide (o.boundary + d + m.grace < s.time.beat)
        | none => true
      let stage := p.op == 5 && after p.stageDl &&
        (s.expects ctx p (s.branchUnit i)).any fun x => x.2.1 == 0 && i.count x.1 0 != x.2.2
      if i.isOpen && i.state == .opened && (stage || after (match m.program xid with | some x => x.1.deadline | none => 0)) then
        let s := (s.setInst ctx xid fun i => { i with state := .missed }).bump (CLX_COUNT_MISSED (clxPg ctx)) 1
        if s.isBranch ctx then s else s.learnMiss ctx ⟨i.step, i.iter, 1, xid, none⟩
      else s
    | _, _ => s)

/-- The oldest begun step commits (R150, R256): UPDATE state commits, its instances close. -/
def State.commitStep (s : State) (c : Nat) (m : Image) (o : OpenStep) : State :=
  let pg := ttbPg c
  let s := s.commitUpdates c (m.updatesOf o.step) (1 + o.iter * 2 ^ 32 + o.step)
  let s := s.closeStep c o.step o.iter
  let s := s.setTtb c fun t => { t with uncommitted := t.uncommitted.drop 1, attempts := t.withAttempts o.step o.iter 0 }
  let next := match (s.ttb c).attempts with | x :: _ => x.2.2 | [] => 0
  let s := ((s.wr (TTB_STEP_COMMITTED pg) o.step).wr (TTB_VOID_ATTEMPT pg) next).bump (TTB_COUNT_COMMITS pg) 1
  if s.ended c m && (s.ttb c).uncommitted.isEmpty then (s.ttbTo c 7).notifyJob c 11 0 else s

/-- STEP_COMMIT (R150): K_s of the oldest begun step; a voided step does not commit. -/
def execStepCommit (site : Site) (ctx : Nat) (s : State) : Out :=
  .next (match site with
    | .agent => s.agCommit
    | .dz8 => match (s.ttb ctx).uncommitted, s.img ctx with
      | o :: _, some m =>
        if !s.active || (match (s.ttb ctx).void with | some v => v.takes o | none => false) then s else s.commitStep ctx m o
      | _, _ => s)

/-! ### Congestion map and energy -/

/-- CMAP_COLLECT (R153): in hardware mode of GEN_MODE bit 8 the agents' counts are added in. -/
def execCmapCollect (ctx : Nat) (counts : List CongestionCount) (s : State) : Out :=
  .next (
    let s := s.startMode 8 (s.hostMode 8)
    if s.modeNow 8 then s else counts.foldl (fun s x => s.cmapAdd ctx x.link x.late x.peak x.hot) s)

/-- CMAP_CLEAR (R153, R154). -/
def execCmapClear (ctx : Nat) (s : State) : Out := .next (s.setTtb ctx fun t => { t with cmap := [], cmapHot := [] })

/-- ENERGY_WINDOW (R141, R524). -/
def execEnergyWindow (measuredUj : Nat) (s : State) : Out :=
  .next (
    let s := (s.wr PWR_ENERGY_LAST_UJ measuredUj).atLeast PWR_OVER_MAX_UJ measuredUj
    if s.armedEnergy 16 + s.idleUj < measuredUj then (s.bump PWR_OVER_WINDOWS 1).detect .dz8 (ttbPg 0) 0 measuredUj none else s)

end Sys2Proof.Machine
end

