-- ==== Sys2Proof/Machine/Flip.lean ====
section
/-! DEFINITION. Drain-and-flip: computing and checking tables, prepare, quiet, drain, commit, flip, confirm and fallback
(R110 to R125, R414). -/

namespace Sys2Proof.Machine

/-! ### The flip record (R123, R414) -/

/-- The word of at most four role-epoch changes (R117). -/
def epochsWord (l : List (Nat × Nat)) : Nat :=
  ((l.take 4).zipIdx).foldl (fun a x => a + (2 ^ 15 + x.1.1 % 64 * 2 ^ 8 + x.1.2 % 16) * 2 ^ (16 * x.2)) 0

/-- The changes that such a word holds. -/
def epochsOf (w : Nat) : List (Nat × Nat) :=
  (List.range 4).filterMap fun i => if bit w (16 * i + 15) then some (bits w (16 * i + 13) (16 * i + 8), bits w (16 * i + 3) (16 * i)) else none

/-- STATE of a flip slot (R414). -/
def RecState.code : RecState → Nat
  | .prepared => 1
  | .quiet => 2
  | .commitIssued => 3
  | .done => 4
  | .aborted => 5


/-- Domains of the scope as a bitmap (R114). -/
def State.scopeMap (s : State) (fabric : Bool) : Nat :=
  if fabric then (s.theRod.domains.map (·.number)).dedup.foldl (fun a d => a + 2 ^ (d % 64)) 0 else 2 ^ (s.domain % 64)

/-- The 48 bytes of a flip slot (R414). -/
def State.slotBytes (s : State) (r : FlipRecord) : List Byte :=
  [r.coord * 2 ^ 50 + r.state.code * 2 ^ 32 + r.serial % 2 ^ 32, r.gen, s.scopeMap r.fabric, r.quietAt, r.flipAt,
    epochsWord r.epochs].flatMap (leBytes 8)

/-- The ports that carry PARWR and PARACK cells (R416). -/
def State.ledgerCarriers (s : State) : List Nat := s.ledgerPorts.filter fun p => s.carries .dz8 p

/-- A PARWR cell of 48 bytes for the partner's store on the ports `ps` (R416). -/
def State.parwr (s : State) (ps : List Nat) (batch flags off cidx : Nat) (bs : List Byte) : State :=
  let c := s.newCell .dz8 s.partnerFid 1 tPARWR batch flags off cidx (wordsOf bs)
  ps.foldl (fun s p => s.sendOn .dz8 p c) s

/-- The unit is of the coordinator's domain. -/
def State.coordinates (s : State) (r : FlipRecord) : Bool := r.coord / 256 == s.domain

/-- Writes the flip record into the unit's own store and, while a LEDGER link carries cells, into the standby's; a relay unit writes it
only once it relays a COMMIT (R123). -/
def State.putRecord (s : State) (r : FlipRecord) : State :=
  let s := s.setRoute fun x => { x with record := some r, recordConfirmed := false }
  if !s.coordinates r && r.state != .commitIssued && r.state != .done then s
  else
  let bs := s.slotBytes r
  let s := s.setPair fun q => { q with store := mwrite q.store 0x80 bs }
  if s.ledgerCarriers.isEmpty then s
  else
    let b := s.pair.nextBatch
    let s := s.setRoute fun x => { x with recordBatch := b, recordBeat := s.time.beat }
    (s.parwr s.ledgerCarriers b 8 0x80 0 bs).setPair fun q => { q with nextBatch := (q.nextBatch + 1) % 2 ^ 16 }

/-- The record takes another state. -/
def State.recordTo (s : State) (st : RecState) : State :=
  match s.route.record with
  | some r => s.putRecord { r with state := st }
  | none => s

/-- The record shows a state. -/
def State.recordIs (s : State) (st : RecState) : Bool := match s.route.record with | some r => r.state == st | none => false

/-- A change that R418 names: a generation is due. -/
def State.dueGen (s : State) : State := s.setPair fun q => { q with genDue := true }

/-! ### Scope (R114) -/

/-- Every armed timetable has all its members in this domain. -/
def State.closedDomain (s : State) : Bool := contexts.all fun c => !s.armed c || (s.otherDomains c).isEmpty

/-- The unit's domain holds the escape-tree root. -/
def State.rootHere (s : State) : Bool := s.theRod.root / 256 == s.domain

/-- The context's map goes with the next flip: an assignment, a release after its step 3, or a re-mapping (R270, R274, R404). -/
def State.needsFlip (s : State) (c : Nat) : Bool :=
  (s.ctx c).assignWait ||
  (match (s.ctx c).release with | some r => r.drained && !r.flipped | none => false) ||
  s.rst.remaps.any fun m => m.ctx == c && m.spare.isSome && !m.flipped

/-- The slice's map is to become empty. -/
def State.emptying (s : State) (c : Nat) : Bool := (s.ctx c).release.isSome

/-! ### Prepare (R98, R99, R118) -/

/-- The differing entries of one agent's table go to its shadow, then its generation (R99; log entry 25). -/
def State.loadShadow (s : State) (fid gen : Nat) (new old shadow : Table) : State :=
  let keys := ((new ++ old ++ shadow).filterMap fun e => if e.1 / 2 ^ 14 = fid then some e.1 else none).dedup
  let diff := keys.filter fun k => tget new k != tget old k || tget new k != tget shadow k
  let s := diff.foldl (fun s k => s.remoteWrite fid 0x500200 [2 ^ 63 + k % 2 ^ 14, tget new k]) s
  s.remoteWrite fid 0x500110 [gen * 2 ^ 32]

/-- The map of a context goes to the shadow map of one member agent, with its own LID (R99, R270, R478). -/
def State.loadMap (s : State) (c lid fid : Nat) : State :=
  let n := s.rd (CTX_SLICE_N (ctxPg c))
  let off := s.emptying c
  let s := (List.range n).foldl (fun s l =>
    match s.lidFid c l with
    | none => s
    | some f => s.remoteWrite fid 0x500210 [2 ^ 63 + l, if off then 0 else 2 ^ 15 + f]) s
  s.remoteWrite fid 0x500220 [if off then 0 else 2 ^ 63 + c * 2 ^ 16 + lid]

/-- The maps of the contexts that go with the flip, to their members in this domain. -/
def State.loadMaps (s : State) (cs : List Nat) : State :=
  cs.foldl (fun s c => ((s.membersOf c).filter fun m => m.2 / 256 == s.domain).foldl (fun s m => s.loadMap c m.1 m.2) s) s

/-- A timetable that a flip stops: STOPPED at its paused boundary, its members told by a notice without a restart (R120; log
entry 23). -/
def State.flipStop (s : State) (c code : Nat) : State :=
  let pg := ttbPg c
  if s.ttbState c = 5 ∧ ¬ s.isBranch c then
    let v : VoidSt := ⟨(s.rd (TTB_VOID_SERIAL pg) + 1) % 2 ^ 32, s.rd (TTB_STEP_NEXT pg), s.rd (TTB_ITER_ITER pg), s.time.beat, none, 0, 0,
      s.rd (TTB_VOID_PARITY pg), none, s.fid, 0, [], false⟩
    let s := (s.wr (TTB_VOID_SERIAL pg) v.serial).voidOut c v
    let s := s.setTtb c fun t => { t with stopReq := false, flipPaused := false }
    (((s.wr (TTB_STAT_PAUSED pg) 0).wr (TTB_STAT_XDOM_HELD pg) 0).ttbTo c 6).notifyJob c 1 code
  else s

/-- Prepare begins: a new generation, its record, every shadow loaded, every armed timetable checked again (R118 step 1, R145). -/
def State.startPrepare (s : State) (images : Table) (fabric : Bool) : State :=
  let gen := (s.rd RTE_GEN_ACTIVE + 1) % 2 ^ 32
  let old := s.route.active
  let shadow := s.route.shadow
  let cs := contexts.filter s.needsFlip
  let coord := if !fabric || s.rootHere then s.fid else s.activeUnit (s.theRod.root / 256)
  let rec' : FlipRecord := ⟨coord, (s.route.flipSerial + 1) % 2 ^ 32, gen, fabric, 0, 0, .prepared, s.route.nextEpochs⟩
  let s := s.setRoute fun r => { r with
    shadow := images, flipSerial := rec'.serial, nextEpochs := [], lastPause := none, lastRound := [], stopped := [], forCtxs := cs
    pendStart := none }
  let s := ((((s.wr RTE_GEN_SHADOW gen).wr RTE_FLIPSTAT_SHADOW_READY 1).wr RTE_STAT_PHASE 1).wr RTE_STAT_COORD
    (b2n (!fabric || s.rootHere))).wr RTE_STAT_ATTEMPT 0
  let s := (s.wr RTE_STAT_PENDING 0).putRecord rec'
  let r := s.theRod
  let s := ((s.domainChips r).filter fun f => r.cls f == 1 || r.cls f == 2).foldl (fun s f => s.loadShadow f gen images old shadow) s
  let s := s.loadMaps cs
  let bad := (contexts.filter s.armed).filterMap fun c => (s.recheck c images).map fun e => (c, e)
  bad.foldl (fun s x => (((s.ttbErr x.1 x.2.1 x.2.2).setTtb x.1 fun t => { t with stopReq := true }).notifyJob x.1 5 x.2.1).setRoute
    fun r => { r with stopped := r.stopped ++ [x.1] }) s

/-- The scope of a change that the hardware starts: the fabric where the domain alone is not closed. -/
def State.autoFabric (s : State) : Bool := !s.closedDomain || (contexts.any fun c => s.needsFlip c && !(s.otherDomains c).isEmpty)

/-- Hardware mode: the tables are computed and the flip starts (R110, R111). -/
def State.computeFlip (s : State) (fabric : Bool) : State :=
  let s := (s.startMode 1 false).wr RTE_STAT_MODE 0
  s.startPrepare (s.hwImages s.theRod) fabric

/-- Host-assisted mode: the checked shadow images flip (R110, R112). -/
def State.hostFlip (s : State) (fabric : Bool) : State :=
  let s := (s.startMode 1 true).wr RTE_STAT_MODE 1
  s.startPrepare s.route.shadow fabric

/-- The pending change starts once the flip is DONE or has failed (R122), in the scope of a START that waits (R114). In host-assisted
mode only such a START begins it (R112). -/
def State.nextFlip (s : State) : State :=
  if s.on RTE_STAT_PENDING && s.active then
    let fabric := s.autoFabric || s.route.pendStart == some true
    if s.hostMode 1 then (if s.on RTE_STAT_CHECK_OK && s.route.pendStart.isSome then s.hostFlip fabric else s) else s.computeFlip fabric
  else s

/-- The payload of a COMMIT (R117). -/
def commitWords (m : Commit) : List Nat :=
  [m.gen, m.flipAt, m.resume, m.coordinator * 2 ^ 50 + m.serial, epochsWord m.epochs, 0]

/-- The COMMIT of a record, sent by this unit (R117). -/
def State.commitFor (s : State) (r : FlipRecord) (f : Nat) : Commit :=
  ⟨r.gen, f, f + s.rd RTE_FLIP_RESUME, if s.coordinates r then s.fid else r.coord, r.serial, r.epochs⟩

/-- No link of the chip carries cells (R116). -/
def State.chipCut (s : State) (f : Nat) : Bool := (s.theRod.ends f).all fun e => !s.linkAlive e.link

/-- Chips that a flip left out and that have a link again are loaded with the active generation (R116). -/
def State.reloadLeft (s : State) : State :=
  match s.route.record with
  | none => s
  | some r =>
    if !s.active || s.flipRuns then s
    else
      let back := s.route.leftOut.filter fun f => !s.chipCut f
      let m := { s.commitFor r s.time.beat with gen := s.rd RTE_GEN_ACTIVE }
      back.foldl (fun s f => (s.loadShadow f m.gen s.route.active [] []).send .dz8 (s.newCell .dz8 f 1 tCOMMIT 0 8 0 0 (commitWords m)))
        (s.setRoute fun x => { x with leftOut := x.leftOut.filter s.chipCut })

/-- A flip is asked for (R111, R122, R270): it starts now, or merges into the pending change. In host-assisted mode it waits
for the host's START. -/
def State.requestFlip (s : State) : State :=
  if s.active && s.boot.rod.isSome then
    let s := s.reloadLeft
    if s.flipRuns || s.hostMode 1 then s.wr RTE_STAT_PENDING 1 else s.computeFlip s.autoFabric
  else s

/-- A standby sets its own shadow to the standby tables of R101 (R412; log entry 26). -/
def State.standbyTables (s : State) : State :=
  ((s.setRoute fun r => { r with shadow := s.hwImages s.theRod }).wr RTE_GEN_SHADOW (s.rd RTE_GEN_ACTIVE + 1)).wr
    RTE_FLIPSTAT_SHADOW_READY 1

/-- ROUTE_COMPUTE (R111). -/
def execRouteCompute (s : State) : Out :=
  .next (if s.rd PAR_STAT_ROLE = 2 ∧ s.boot.rod.isSome then s.standbyTables else s.requestFlip)

/-- RTE_CHECK (R112): ESC is written, and the images are checked. -/
def execRteCheck (s : State) : Out :=
  .next (if s.flipRuns || s.boot.rod.isNone then s
    else
      let t := s.withEsc s.theRod s.route.shadow
      let s := s.setRoute fun r => { r with shadow := t }
      match s.checkImages s.theRod t with
      | none => (((s.wr RTE_STAT_CHECK_ERR 0).wr RTE_STAT_CHECK_CHIP 0).wr RTE_STAT_CHECK_DST 0).wr RTE_STAT_CHECK_OK 1
      | some e => (((s.wr RTE_STAT_CHECK_ERR e.1).wr RTE_STAT_CHECK_CHIP e.2.1).wr RTE_STAT_CHECK_DST e.2.2).wr RTE_STAT_CHECK_OK 0)

/-- START (R111, R112, R114). -/
def State.rteStart (s : State) (serials : List Nat) : State :=
  let fabric := s.rd RTE_CTRL_SCOPE == 1
  if !s.active || s.boot.rod.isNone || (s.hostMode 1 && !s.on RTE_STAT_CHECK_OK) || (fabric && !s.rootHere) then s
  else if !fabric && !s.closedDomain then s.wr RTE_STAT_CHECK_ERR 9
  else if fabric && (serials.any fun x => x != s.theRod.serial) then s.wr RTE_STAT_CHECK_ERR 10
  else if s.flipRuns then (s.wr RTE_STAT_PENDING 1).setRoute fun r => { r with pendStart := some (fabric || r.pendStart == some true) }
  else if s.hostMode 1 then s.hostFlip fabric else s.computeFlip fabric

/-- RTE_START (R112, R114, R128). -/
def execRteStart (serials : List Nat) (s : State) : Out := .next (s.rteStart serials)

/-! ### COMMIT and ABORT cells (R117) -/

/-- Sends a COMMIT or ABORT: to the other active units of the scope at the coordinator, on the DOWN ports, and to the standby. -/
def State.flipCast (s : State) (type : Nat) (words : List Nat) (fabric : Bool) : State :=
  let one := fun (s : State) (f : Nat) => s.send .dz8 (s.newCell .dz8 f 1 type 0 8 0 0 words)
  let s := if fabric && s.on RTE_STAT_COORD then
      (((s.theRod.domains.map (·.number)).dedup.filter fun d => d != s.domain).map s.activeUnit).foldl one s
    else s
  let c := s.newCell .dz8 (s.domain * 256) 1 type 0 10 0 0 words
  let s := (s.broadcastPorts .dz8 none).foldl (fun s q => s.enqueue .dz8 q none c) s
  match s.ledgerCarriers with
  | p :: _ => s.sendOn .dz8 p (s.newCell .dz8 s.partnerFid 1 type 0 8 0 0 words)
  | [] => s

/-- The COMMIT that six payload words hold (R117). -/
def commitOf (c : Cell) : Commit where
  gen := bits (cellWord c 0) 31 0
  flipAt := bits (cellWord c 1) 55 0
  resume := bits (cellWord c 2) 55 0
  coordinator := bits (cellWord c 3) 63 50
  serial := bits (cellWord c 3) 31 0
  epochs := epochsOf (cellWord c 4)

/-- The quiet state ends at the DZ8: border cells and held remote-window cells go on (R115, R118, R512). -/
def State.leaveQuiet (s : State) : State :=
  let held := s.route.border
  let s := (s.wr RTE_FLIPSTAT_QUIET 0).setRoute fun r => { r with border := [] }
  (held.foldl (fun s x => s.hop .dz8 (some x.1) x.2) s).releaseHeld

/-- An ABORT goes out with its resume beat, and the unit leaves the quiet state (R118, R120). -/
def State.abortOut (s : State) : State :=
  match s.route.record with
  | none => s.leaveQuiet
  | some r =>
    let w := [0, 0, s.time.beat + s.rd RTE_FLIP_RESUME, s.fid * 2 ^ 50 + r.serial, 0, 0]
    ((s.flipCast tABORT w r.fabric).wr RTE_QUIET_AT_BEAT 0).leaveQuiet

/-- The flip ends in the phase `ph`, 0 IDLE or 8 FAILED, and the pending change starts (R122, R418). -/
def State.endFlip (s : State) (ph : Nat) (st : RecState) : State :=
  (((s.recordTo st).wr RTE_STAT_PHASE ph).wr RTE_STAT_COORD 0).dueGen.nextFlip

/-- RTE_ABORT (R118, R125, R128): before COMMIT_ISSUED only. -/
def State.rteAbort (s : State) : State :=
  if s.flipRuns && s.on RTE_STAT_COORD && !s.recordIs .commitIssued then s.abortOut.endFlip 0 .aborted else s

/-- RTE_ABORT (R128). -/
def execRteAbort (s : State) : Out := .next s.rteAbort

/-! ### Quiet and drain -/

/-- QUIET_AT = Q goes to every chip (R118 step 2). -/
def State.startQuiet (s : State) : State :=
  let q := s.time.beat + s.rd RTE_FLIP_QUIET_LEAD
  let s := ((s.wr RTE_QUIET_AT_BEAT q).wr RTE_STAT_PHASE 3).setRoute fun r => { r with lastPause := none, lastRound := [] }
  let s := match s.route.record with
    | some r => s.putRecord { r with state := .quiet, quietAt := q }
    | none => s
  let r := s.theRod
  ((s.domainChips r).filter fun f => r.cls f == 1 || r.cls f == 2).foldl (fun s f => s.remoteWrite f 0x500148 [q]) s

/-- FLIP_PREPARE_DONE (R118). -/
def execFlipPrepareDone (s : State) : Out := .next (if s.rd RTE_STAT_PHASE = 1 then s.startQuiet else s)

/-- PREP_TIMEOUT (R118): the generation is not used; the ABORT is the coordinator's. -/
def execPrepTimeout (s : State) : Out :=
  .next (if s.rd RTE_STAT_PHASE = 1 then (if s.on RTE_STAT_COORD then s.abortOut else s).endFlip 0 .aborted else s)

/-- QUIET_ENTRY (R115, R118 step 3): a unit that is not active takes the beat as its Q (DESIGN CHOICE, log entry 145). -/
def execQuietEntry (site : Site) (s : State) : Out :=
  .next (match site with
    | .agent => if s.ard RTE_QUIET_AT_BEAT = 0 then s else s.awr RTE_FLIPSTAT_QUIET 1
    | .dz8 =>
      if ¬ s.active then (s.wr RTE_QUIET_AT_BEAT s.time.beat).wr RTE_FLIPSTAT_QUIET 1
      else if s.rd RTE_QUIET_AT_BEAT = 0 ∨ s.rd RTE_STAT_PHASE ≠ 3 then s
      else
        let s := s.wr RTE_FLIPSTAT_QUIET 1
        if s.allPaused .dz8 then s.setRoute fun r => { r with lastPause := some s.time.beat } else s)

/-- The chips of the domain whose links are not all down, without the unit itself. -/
def State.polled (s : State) : List Nat := (s.domainChips s.theRod).filter fun f => f != s.fid && !s.chipCut f

/-- The other active units of a fabric flip, which report their domains (R114). -/
def State.relays (s : State) : List Nat :=
  match s.route.record with
  | some r => if r.fabric && s.on RTE_STAT_COORD then
      ((s.theRod.domains.map (·.number)).dedup.filter fun d => d != s.domain).map s.activeUnit else []
  | none => []

/-- Every chip of `fids` has reported DRAINED in two rounds, with equal FWD counts (R116). -/
def drainComplete (fids : List Nat) (last now : List FlipReport) : Bool :=
  let ok := fun (l : List FlipReport) => !l.isEmpty && (l.all fun x => x.drained) && fids.all fun f => l.any fun x => x.fid == f
  ok last && ok now && last.map (fun x => (x.fid, x.fwd)) == now.map (fun x => (x.fid, x.fwd))

/-- The RTE_FLIPSTAT reads of a poll round, which its reports answer (R116). -/
def State.pollReads (s : State) : State :=
  s.polled.foldl (fun s f => (s.send .dz8 (s.newCell .dz8 f 1 tMREQ s.route.nextSeq 8 0 0 (mreqPayload 1 1 0x500158 []))).setRoute fun r =>
    { r with nextSeq := (r.nextSeq + 1) % 2 ^ 16 }) s

/-- The unit's own report. -/
def State.ownReport (s : State) : FlipReport :=
  ⟨s.fid, s.drained .dz8, s.rd RTE_FLIPSTAT_FWD + s.rd (onDie 1 RTE_FLIPSTAT_FWD), s.rd RTE_GEN_ACTIVE % 16⟩

/-- The last COMMIT is at least 256 µs past (R122). -/
def State.commitGap (s : State) : Bool :=
  match s.route.lastCommit with
  | some b => decide (256000 ≤ (s.time.beat - b) * s.period)
  | none => true

/-- The jobs that the flip stopped are armed again, 4,096 beats on (R120; log entry 27); none after a thermal stop. -/
def State.rearmStopped (s : State) : State :=
  s.route.stopped.foldl (fun s c => if s.ttbState c = 6 ∧ ¬ s.on PWR_STAT_THROTTLED ∧ (s.recheck c s.route.active).isNone
    then s.beginArm c (s.time.beat + 4096) true else s) (s.setRoute fun r => { r with stopped := [] })

/-- Counters of a context's TTB, CLX and CTX pages (R154, R183, R282). -/
def ctxCounters (c : Nat) : List Fld :=
  [TTB_COUNT_EXTRA (ttbPg c), TTB_COUNT_VOIDS (ttbPg c), TTB_COUNT_COMMITS (ttbPg c), CLX_COUNT_READY (clxPg c), CLX_COUNT_MISSED (clxPg c),
   CLX_NUMERIC_NAN (clxPg c), CLX_NUMERIC_INF (clxPg c), CLX_NUMERIC_SAT (clxPg c), CLX_SELECT_INVALID (clxPg c), CLX_SELECT_DRAWS (clxPg c),
   CLX_ROUTE_DROPPED (clxPg c), CLX_ROUTE_EMPTY (clxPg c), CLX_DISCARD_OVER (clxPg c), CLX_DISCARD_CIDX (clxPg c),
   CTX_SWITCH_SWITCHES (ctxPg c), CTX_SWITCH_LATE_NS (ctxPg c), CTX_SERVICE_EVENTS (ctxPg c)]

/-- Step 7 of a release: counters, congestion map, codec seed, binding and spares (R267, R271, R274). -/
def State.releaseClear (s : State) (c : Nat) : State :=
  let s := (ctxCounters c).foldl (fun s f => s.wr f 0) s
  let s := (s.setTtb c fun t => { t with cmap := [], cmapHot := [] }).setCtx c fun x => { x with seed := 0, owner := 0, lost := [], badSpares := [], split := false }
  ((s.wr (CTX_STAT_BOUND (ctxPg c)) 0).wr (CTX_STAT_TENANT_CLOSED (ctxPg c)) 0).wr (CTX_SLICE_SPARES_USED (ctxPg c)) 0

/-- Step 7 follows when steps 4 to 6 have all ended (R274). -/
def State.releaseStep7 (s : State) (c : Nat) : State :=
  match (s.ctx c).release with
  | some r => if r.scrubbed && r.erased && r.flipped then s.releaseClear c else s
  | none => s

/-- The flip is DONE for a context: assigned, its release's step 6 over, its re-mapping flipped (R270, R274, R404). -/
def State.flippedCtx (s : State) (c : Nat) : State :=
  let s := s.setRst fun r => { r with remaps := r.remaps.map fun m => if m.ctx == c && m.spare.isSome then { m with flipped := true } else m }
  let s := s.setCtx c fun x => { x with release := x.release.map fun r => if r.drained then { r with flipped := true } else r }
  let s := s.releaseStep7 c
  if s.rd (CTX_STAT_STATE (ctxPg c)) = 1 ∧ (s.ctx c).assignWait then
    (((s.setCtx c fun x => { x with assignWait := false }).wr (CTX_STAT_STATE (ctxPg c)) 2).notifyCtx c 1 0).dueGen
  else s

/-- DONE (R118 step 8, R120, R122). -/
def State.flipDone (s : State) : State :=
  let cs := s.route.forCtxs
  let s := cs.foldl (fun s c => s.flippedCtx c) (s.setRoute fun r => { r with forCtxs := [] })
  let s := s.route.stopped.foldl (fun s c => s.flipStop c 0) s
  s.rearmStopped.endFlip 0 .done

/-- The chips whose reports the drain and the confirmation need (R116). -/
def State.reporters (s : State) : List Nat := s.polled ++ s.relays

/-- POLL_ROUND (R116, R118 steps 4, 5 and 8): the coordinator polls the scope, a relay unit its domain. -/
def execPollRound (reports : List FlipReport) (s : State) : Out :=
  .next (
    let ph := s.rd RTE_STAT_PHASE
    let all := s.ownReport :: reports
    if (ph = 3 ∨ ph = 4) ∧ s.quiet .dz8 then
      let done := drainComplete s.reporters s.route.lastRound all && s.commitGap && !s.recordIs .commitIssued && s.on RTE_STAT_COORD
      let s := (if s.allPaused .dz8 then s.wr RTE_STAT_PHASE 4 else s).pollReads
      let s := s.setRoute fun r => { r with lastRound := all }
      if done then (s.setRoute fun r => { r with
        leftOut := (s.domainChips s.theRod).filter fun f => f != s.fid && s.chipCut f }).recordTo .commitIssued
      else s
    else if ph = 6 then
      if s.reporters.all (fun f => reports.any fun x => x.fid == f) ∧ all.all (fun x => x.gen == s.rd RTE_GEN_ACTIVE % 16) then
        s.pollReads.flipDone
      else s.pollReads
    else s)

/-! ### Commit and flip -/

/-- The COMMIT leaves in beat C, this beat (R118 step 5). -/
def State.commitOut (s : State) (r : FlipRecord) : State :=
  let f := s.time.beat + s.rd (if r.fabric then RTE_FLIP_LEAD_FAB else RTE_FLIP_LEAD_DOM)
  let m := s.commitFor r f
  let s := ((s.wr RTE_FLIP_AT_BEAT f).wr RTE_STAT_PHASE 5).setRoute fun x => { x with commit := some m, lastCommit := some s.time.beat }
  ((s.flipCast tCOMMIT (commitWords m) r.fabric).putRecord { r with flipAt := f }).setRoute fun x => { x with recordConfirmed := true }

/-- The record's last write is confirmed; a record that shows COMMIT_ISSUED lets the COMMIT leave (R118, R123). -/
def State.recordConfirm (s : State) : State :=
  match s.route.record with
  | none => s
  | some r =>
    if s.route.recordConfirmed then s
    else
      let s := s.setRoute fun x => { x with recordConfirmed := true }
      if r.state = .commitIssued ∧ s.active then
        if s.on RTE_STAT_COORD then s.commitOut r
        else match s.route.commit with
          | some m => (s.setRoute fun x => { x with lastCommit := some s.time.beat }).flipCast tCOMMIT (commitWords m) r.fabric
          | none => s
      else s

/-- FLIP_RECORD_CONFIRM (R118, R123). -/
def execFlipRecordConfirm (s : State) : Out := .next s.recordConfirm

/-- A standby relays a COMMIT or ABORT that came over LEDGER from its active unit, on its DOWN ports (R117). -/
def State.standbyRelay (s : State) (port : Nat) (c : Cell) : State :=
  if s.rd PAR_STAT_ROLE = 2 ∧ s.role .dz8 port = 2 ∧ c.src = s.partnerFid then
    let x := sealed { c with dst := s.domain * 256, flags := 10 }
    (s.broadcastPorts .dz8 none).foldl (fun s q => s.enqueue .dz8 q none x) s
  else s

/-- A relay unit takes a COMMIT: its record shows COMMIT_ISSUED before the cell goes on (R117, R123). -/
def State.relayRecord (s : State) (m : Commit) : State :=
  if s.active then s.putRecord ⟨m.coordinator, m.serial, m.gen, true, s.rd RTE_QUIET_AT_BEAT, m.flipAt, .commitIssued, m.epochs⟩ else s

/-- What names a flip: its coordinator's domain and its serial. -/
def Commit.key (m : Commit) : Nat × Nat := (m.coordinator / 256, m.serial)

/-- A COMMIT at a chip (R119): held, ignored, or a mismatch. -/
def State.holdCommit (s : State) (d : Site) (m : Commit) : State :=
  let applied := match d with | .dz8 => s.route.applied | .agent => s.agRoute.applied
  if applied.contains m.key then s
  else if s.rdS d RTE_FLIPSTAT_SHADOW_READY = 1 ∧ s.rdS d RTE_GEN_SHADOW = m.gen then
    let s := s.wrS d RTE_FLIP_AT_BEAT m.flipAt
    match d with
    | .dz8 => (s.setRoute fun r => { r with commit := some m }).relayRecord m
    | .agent => s.setAgRoute fun r => { r with commit := some m }
  else s.detect d 0x500000 0 m.gen none

/-- COMMIT_CELL (R117, R119, R123). -/
def execCommitCell (site : Site) (port : Nat) (cell : Cell) (s : State) : Out :=
  .next (
    let m := commitOf cell
    match site with
    | .agent => s.holdCommit .agent m
    | .dz8 => if m.coordinator = s.fid ∧ s.active then s else (s.standbyRelay port cell).holdCommit .dz8 m)

/-- An ABORT at the agent: quiet and the safe state end, and it resumes at the resume beat; from the safe state it waits to be
armed again (R120, R121). -/
def State.agAbort (s : State) (resume : Nat) : State :=
  let safe := s.aon RTE_FLIPSTAT_SAFE
  let s := ((s.awr RTE_FLIPSTAT_QUIET 0).awr RTE_FLIPSTAT_SAFE 0).awr RTE_QUIET_AT_BEAT 0
  s.setAgRoute fun r => { r with commit := none, resumeAt := if safe then none else some resume }

/-- ABORT_CELL (R117, R120, R121). -/
def execAbortCell (site : Site) (port : Nat) (cell : Cell) (s : State) : Out :=
  .next (
    let resume := bits (cellWord cell 2) 55 0
    match site with
    | .agent =>
      let key := (bits (cellWord cell 3) 31 0, resume)
      if s.agRoute.lastAbort = some key then s
      else (s.agAbort resume).setAgRoute fun r => { r with lastAbort := some key }
    | .dz8 =>
      if bits (cellWord cell 3) 63 50 = s.fid ∧ s.active then s
      else
        let s := ((s.standbyRelay port cell).wr RTE_QUIET_AT_BEAT 0).setRoute fun r => { r with commit := none }
        let s := s.leaveQuiet
        if s.active && s.flipRuns then
          match s.route.record with
          | some r => ((s.flipCast tABORT (cell.payload.map (·.toNat)) r.fabric).wr RTE_STAT_PHASE 1).recordTo .prepared
          | none => s
        else s)

/-- A role epoch takes a new value (R104). -/
def State.setEpoch (s : State) (d : Site) (x : Nat × Nat) : State :=
  let f := RTE_EPOCH_EPOCHS (x.1 / 16)
  let sh := 2 ^ (4 * (x.1 % 16))
  let w := s.rdS d f
  s.wrS d f (w - w / sh % 16 * sh + x.2 % 16 * sh)

/-- RTE_TREE of the unit, from the tree in use (R105, R106, R128). -/
def State.setTree (s : State) : State :=
  let r := s.theRod
  let onAlt := fun (f : Nat) => match (r.chip f).bind (fun c => c.alt.bind r.linkRef), s.parentOf r f with
    | some a, some p => a == p.link
    | _, _ => false
  let s := s.setRoute fun x => { x with onAlternate := (s.domainChips r).filter onAlt }
  let alt := ((r.chip s.fid).bind fun c => (c.alt.bind r.linkRef).bind fun l => endAt l s.fid)
  let s := (s.wr RTE_TREE_ROOT r.root).wr RTE_TREE_DEPTH ((s.chain r s.fid 64).length - 1)
  let s := s.wr RTE_TREE_ALT_PORT (match alt with | some e => e.port | none => 0xFF)
  match s.parentOf r s.fid with
  | some e => (s.wr RTE_TREE_PARENT e.far).wr RTE_TREE_PARENT_PORT e.port
  | none => (s.wr RTE_TREE_PARENT 0).wr RTE_TREE_PARENT_PORT 0xFF

/-- The DZ8 swaps its copies, takes the epochs and leaves the quiet state (R118 step 6). -/
def State.flipDz (s : State) (m : Commit) : State :=
  let s := s.setRoute fun r => { r with active := r.shadow, commit := none, applied := m.key :: r.applied }
  let s := ((s.wr RTE_GEN_ACTIVE m.gen).wr RTE_GEN_SHADOW m.gen).wr RTE_FLIPSTAT_SHADOW_READY 0
  let s := m.epochs.foldl (fun s x => s.setEpoch .dz8 x) s
  let s := s.route.forCtxs.foldl (fun s c => if (s.ctx c).assignWait then s.wr (CTX_SINCE_BEAT (ctxPg c)) m.flipAt else s) s
  let s := if s.flipRuns then s.wr RTE_STAT_PHASE 6 else s
  s.setTree.leaveQuiet

/-- The agent swaps its copies, table and map together (R118 step 6, R121, R478). -/
def State.flipAg (s : State) (m : Commit) : State :=
  let safe := s.aon RTE_FLIPSTAT_SAFE
  let s := s.setAgRoute fun r => { r with
    active := r.shadow, map := r.mapShadow, commit := none, applied := m.key :: r.applied, resumeAt := if safe then none else some m.resume }
  let s := ((s.awr RTE_GEN_ACTIVE m.gen).awr RTE_GEN_SHADOW m.gen).awr RTE_FLIPSTAT_SHADOW_READY 0
  let s := m.epochs.foldl (fun s x => s.setEpoch .agent x) s
  (s.awr RTE_FLIPSTAT_QUIET 0).awr RTE_FLIPSTAT_SAFE 0

/-- FLIP_BEAT (R118 step 6, R119). -/
def execFlipBeat (site : Site) (s : State) : Out :=
  .next (match s.heldCommit site with
    | none => s
    | some m => match site with
      | .dz8 => s.flipDz m
      | .agent => s.flipAg m)

/-- FLIP_RESUME (R118 step 7, R120, R146). -/
def execFlipResume (site : Site) (s : State) : Out :=
  .next (match site with
    | .dz8 => if s.quiet .dz8 then s
      else contexts.foldl (fun s c => if (s.ttb c).flipPaused ∧ s.ttbState c = 5 then s.resumeTtb c s.time.beat else s) s
    | .agent => match s.agRoute.resumeAt with
      | none => s
      | some _ =>
        let s := s.setAgRoute fun r => { r with resumeAt := none }
        if s.ag.flipPaused && !s.quiet .agent then (s.setAg fun a => { a with flipPaused := false }).agRebase s.agTime.beat else s)

/-- COMMIT_RESEND (R119): a chip still on the old generation is loaded again and sent the COMMIT. -/
def execCommitResend (chips : List Nat) (s : State) : Out :=
  .next (match s.route.record with
    | some r =>
      if s.rd RTE_STAT_PHASE = 6 ∧ s.on RTE_STAT_COORD then
        let m := s.commitFor r r.flipAt
        chips.foldl (fun s f =>
          let s := if s.theRod.cls f = 0 then s else s.loadShadow f r.gen s.route.active [] []
          s.send .dz8 (s.newCell .dz8 f 1 tCOMMIT 0 8 0 0 (commitWords m))) s
      else s
    | none => s)

/-! ### Fallback (R120) -/

/-- A job that the change affects: the entry of a member differs in some chip, or its map changes (R120). -/
def State.affected (s : State) (c : Nat) : Bool :=
  s.route.forCtxs.contains c || s.route.stopped.contains c ||
  (s.sliceFids c).any fun m => (s.domainChips s.theRod).any fun f =>
    tget s.route.active (f * 2 ^ 14 + m) != tget s.route.shadow (f * 2 ^ 14 + m)

/-- FLIP_FALLBACK (R120): affected jobs stop, then every job, then the flip fails. -/
def execFlipFallback (s : State) : Out :=
  .next (
    let ph := s.rd RTE_STAT_PHASE
    if (ph = 3 ∨ ph = 4) ∧ s.on RTE_STAT_COORD ∧ ¬ s.recordIs .commitIssued then
      let n := s.rd RTE_STAT_ATTEMPT
      if 2 ≤ n then (s.detect .dz8 rtePg 1 s.route.flipSerial none).abortOut.endFlip 8 .aborted
      else
        let js := contexts.filter fun c => s.ttbState c == 5 && (n == 1 || s.affected c)
        let s := js.foldl (fun s c => (s.flipStop c 0).setRoute fun r => { r with
          stopped := if r.stopped.contains c then r.stopped else r.stopped ++ [c] }) s
        ((s.abortOut.wr RTE_STAT_ATTEMPT (n + 1)).wr RTE_STAT_PHASE 7).recordTo .prepared
    else s)

/-- FALLBACK_RETRY (R120). -/
def execFallbackRetry (s : State) : Out := .next (if s.rd RTE_STAT_PHASE = 7 then s.startQuiet else s)

/-- SAFE_STATE_ENTRY (R121). -/
def execSafeStateEntry (s : State) : Out :=
  .next (if s.quiet .agent && !s.aon RTE_FLIPSTAT_SAFE then (s.awr RTE_FLIPSTAT_SAFE 1).detect .agent 0x500000 3 0 none else s)

/-- A unit that recovers or takes over resolves the flip in its record (R124, R125): a new COMMIT four beats on, or an ABORT, as the
coordinator to the whole scope, as a relay in its own domain. -/
def State.flipRecovery (s : State) : State :=
  match s.route.record with
  | none => s
  | some r =>
    let s := if s.coordinates r then s.setRoute fun x => { x with flipSerial := r.serial } else s
    match r.state with
    | .commitIssued =>
      let f := s.time.beat + 4
      let m := s.commitFor r f
      let s := ((s.wr RTE_FLIP_AT_BEAT f).wr RTE_STAT_COORD (b2n (s.coordinates r))).setRoute fun x => { x with
        commit := if x.applied.contains m.key then none else some m, lastCommit := some s.time.beat }
      let s := s.wr RTE_STAT_PHASE (if s.route.applied.contains m.key then 6 else 5)
      ((s.flipCast tCOMMIT (commitWords m) r.fabric).putRecord { r with flipAt := f }).setRoute fun x => { x with recordConfirmed := true }
    | .prepared | .quiet =>
      ((((s.wr RTE_STAT_COORD (b2n (s.coordinates r))).abortOut.recordTo .aborted).wr RTE_STAT_PHASE 0).wr RTE_STAT_COORD 0).dueGen
    | _ => s

end Sys2Proof.Machine
end

