-- ==== Sys2Proof/Machine/Tile.lean ====
section
/-! DEFINITION. Tensor tiles and their descriptor chains, spare tiles, the sync window, the sealed shelf, retention and the host
window of the Pigeonholes (R210 to R238, R272, R273). -/

namespace Sys2Proof.Machine

/-! ### Address spaces of a descriptor (R215) -/

/-- Key of a logical tile. -/
def tileKey (die tile : Nat) : Nat := 64 * die + tile

/-- One byte of a space: 0 tile SRAM, 1 the context's allocation, 2 the sync window, 3 X-die staging. -/
def State.spaceGet (s : State) (ch : ChainSt) (sp a : Nat) : Byte :=
  match sp with
  | 0 => mget s.tile.tileSram (tileKey ch.die ch.tile * 2 ^ 20 + a)
  | 1 => s.allocGet ch.ctx a
  | 2 => BitVec.ofNat 8 (tget s.tile.sync (ch.die * 2 ^ 18 + a / 8) / 256 ^ (a % 8))
  | _ => mget s.tile.staging a

/-- Bytes of a space. -/
def State.spaceRead (s : State) (ch : ChainSt) (sp a n : Nat) : List Byte := (List.range n).map fun i => s.spaceGet ch sp (a + i)

/-- Writes one byte of a space. -/
def State.spacePut (s : State) (ch : ChainSt) (sp a : Nat) (b : Byte) : State :=
  match sp with
  | 0 => s.setTile fun t => { t with tileSram := mset t.tileSram (tileKey ch.die ch.tile * 2 ^ 20 + a) b }
  | 1 => s.allocPut ch.ctx a b
  | 2 =>
    let k := ch.die * 2 ^ 18 + a / 8
    let w := tget s.tile.sync k
    let p := 256 ^ (a % 8)
    s.setTile fun t => { t with sync := tset t.sync k (w - w / p % 256 * p + b.toNat * p) }
  | _ => s.setTile fun t => { t with staging := mset t.staging a b }

/-- Writes bytes of a space. -/
def State.spaceWrite (s : State) (ch : ChainSt) (sp : Nat) : Nat → List Byte → State
  | _, [] => s
  | a, b :: bs => (s.spacePut ch sp a b).spaceWrite ch sp (a + 1) bs

/-- Instance number of the open instance of an exchange. -/
def State.instNum (s : State) (c xid : Nat) : Nat := match s.inst c xid with | some i => i.num | none => 0

/-- A range lies in what the chain may reach: the working area, the context's allocation, its context area or its local sync
objects, the 48 MiB of an X-die's staging SRAM, those of X1 from address 2^26 on (R26, R212, R214, R228; log entry 28). -/
def State.spaceOk (s : State) (ch : ChainSt) (sp a n : Nat) : Bool :=
  match sp with
  | 0 => decide (a + n ≤ 0xF0000)
  | 1 => decide (a + n ≤ s.allocLen ch.ctx)
  | 2 =>
    let own := localBase 0 (s.instNum ch.ctx ch.xid) * 8
    (decide (ch.ctx * 2 ^ 16 ≤ a) && decide (a + n ≤ (ch.ctx + 1) * 2 ^ 16)) || (decide (own ≤ a) && decide (a + n ≤ own + 2048))
  | _ => s.hasDie (a / 2 ^ 26) && decide (a % 2 ^ 26 + n ≤ 50331648)

/-! ### Operands and results (R213, R216; the layouts that the spec does not state are the model's, log entry 28) -/

/-- The MX format of a chain's exchange. -/
def State.chainMx (s : State) (ch : ChainSt) : Option MxFmt :=
  match s.prog ch.ctx ch.xid with
  | some (_, p) => MxFmt.ofByte p.mxfmt
  | none => none

/-- Bytes of `n` elements of a row in a format code. -/
def State.rowBytes (s : State) (ch : ChainSt) (fmt n : Nat) : Nat :=
  if fmt = 3 then (match s.chainMx ch with | some f => f.size n | none => 0) else fmtBytes fmt 0 n

/-- The dequantised values of an MX row of `n` elements (R199). -/
def State.rowMx (s : State) (ch : ChainSt) (sp a n : Nat) : List (Option Int) :=
  match s.chainMx ch with
  | none => List.replicate n (some 0)
  | some f => ((List.range (ceilDiv n 128)).flatMap fun b => dequantBlock f (s.spaceRead ch sp (a + b * f.bsz) f.bsz)).take n

/-- A row of `n` elements as FP32 values, those of an MX row rounded. -/
def State.rowVals (s : State) (ch : ChainSt) (fmt sp a n : Nat) : List Nat :=
  if fmt = 3 then (s.rowMx ch sp a n).map fun v => match v with | some x => fp32.roundInt false x (-143) | none => fp32.nan
  else if fmt ≤ 2 then
    let z := fmtBytes fmt 0 1
    (List.range n).map fun k => elemOf fmt (leNat (s.spaceRead ch sp (a + k * z) z))
  else (List.range n).map fun k => ofByteVal fmt (s.spaceGet ch sp (a + k)).toNat

/-- A row of `n` elements as they enter a product: an MX row with its dequantised values, which no rounding touches (R213). -/
def State.rowExact (s : State) (ch : ChainSt) (fmt sp a n : Nat) : List XVal :=
  if fmt = 3 then (s.rowMx ch sp a n).map fun v => match v with | some x => .fin (decide (x < 0)) (64 * x) | none => .nan
  else (s.rowVals ch fmt sp a n).map XVal.ofFp

/-- The bytes of FP32 values in a result format other than MX. -/
def outBytes (fmt : Nat) (xs : List Nat) : List Byte :=
  if fmt ≤ 2 then xs.flatMap fun x => leBytes (fmtBytes fmt 0 1) (elemTo fmt x) else xs.map fun x => BitVec.ofNat 8 (toByte fmt x).1

/-- What a chain's MX encoding draws with: the schedule beat of its instance (R195). -/
def State.chainGen (s : State) (ch : ChainSt) (inp source index : Nat) : GenIn :=
  let beat := match s.prog ch.ctx ch.xid, s.inst ch.ctx ch.xid with
    | some (m, _), some i => m.schedBeat i.iter i.step
    | _, _ => 0
  ⟨(s.ttb ch.ctx).seed, beat, ch.xid, inp, source, index⟩

/-- The bytes of result row `i` in a format code. An MX row is encoded as it stands, block by block, with SOURCE 0x1000 and IN 0 (the
spec states no rotation and no draw for it, log entry 28). -/
def State.outRow (s : State) (ch : ChainSt) (fmt i : Nat) (xs : List Nat) : List Byte :=
  if fmt = 3 then
    match s.chainMx ch with
    | none => []
    | some f => (List.range (ceilDiv xs.length 128)).flatMap fun b =>
        (encodeRotated f (s.chainGen ch 0 0x1000 (i * roundUp xs.length 128 + 128 * b)) (blockOf xs b)).bytes
  else outBytes fmt xs

/-- Row `i` of operand A. -/
def State.rowA (s : State) (ch : ChainSt) (d : Descriptor) (i : Nat) : List Nat :=
  s.rowVals ch d.afmt d.spaceA (d.addrA + i * d.strideA) (if d.op = 1 then d.k else d.n)

/-- One element of a GEMM: blocks of 128 along K, each exact and rounded once, added in order (R213). -/
def gemmDot (acc : Nat) (a b : List XVal) : Nat :=
  (List.range (ceilDiv a.length 128)).foldl (fun d j =>
    fpAdd d (dotX ((a.drop (128 * j)).take 128) ((b.drop (128 * j)).take 128))) acc

/-- GEMM (R213). -/
def State.gemm (s : State) (ch : ChainSt) (d : Descriptor) : State :=
  let rb := s.rowBytes ch d.bfmt d.n
  let bs := (List.range d.k).map fun k => s.rowExact ch d.bfmt d.spaceB (d.addrB + k * rb) d.n
  (List.range d.m).foldl (fun s i =>
    let a := s.rowExact ch d.afmt d.spaceA (d.addrA + i * d.strideA) d.k
    let old := s.rowVals ch d.dfmt d.spaceD (d.addrD + i * d.strideD) d.n
    let row := (List.range d.n).map fun j => gemmDot (if bit d.param 0 then nth old j else 0) a (bs.map fun r => r.getD j .zero)
    s.spaceWrite ch d.spaceD (d.addrD + i * d.strideD) (s.outRow ch d.dfmt i row)) s

/-- Block `i` of operand A as 128 FP32 values. -/
def State.blockA (s : State) (ch : ChainSt) (d : Descriptor) (i : Nat) : List Nat := s.rowVals ch 0 d.spaceA (d.addrA + 512 * i) 128

/-- Values with their signs: the terms of the sums of a rotation. -/
def signed128 (sv : Nat) (xs : List XVal) : List XVal := xs.zipIdx.map fun x => if bit sv x.2 then x.1.negate else x.1

/-- One block rotated: forward of the FP32 values, or inverse of exact values. A sum over a NaN, or over infinities of both signs, is
NaN (R190). -/
def rotateX (sv : Nat) (inverse : Bool) (xs : List XVal) : List Nat :=
  let zs := if inverse then xs else signed128 sv xs
  let row := fun (j : Nat) => (zs.zipIdx).map fun z => if (List.range 7).foldl (fun b i => b != (bit z.2 i && bit j i)) false then z.1.negate else z.1
  (List.range 128).map fun j =>
    let y := sumX (if inverse then -152 else -153) (row j)
    if inverse && bit sv j && !fp32.isNan y && !fp32.isZero y then y ^^^ 2 ^ 31 else y

/-- ROTATE of COUNT blocks; an inverse rotation takes the values that a DEQUANT left (R190, R216). -/
def State.rotateOp (s : State) (ch : ChainSt) (d : Descriptor) : State :=
  let sv := signVector (s.ttb ch.ctx).seed ch.xid
  (List.range d.count).foldl (fun s i =>
    let inverse := bit d.param 0
    let xs : List XVal := if inverse && !ch.exact.isEmpty then
        ((ch.exact.drop (128 * i)).take 128).map fun v => match v with | some x => .fin (decide (x < 0)) (64 * x) | none => .nan
      else (s.blockA ch d i).map XVal.ofFp
    s.spaceWrite ch d.spaceD (d.addrD + 512 * i) (outBytes 0 (rotateX sv inverse xs))) s

/-- QUANT of COUNT blocks, already rotated where their format asks for it (R192 to R195). -/
def State.quantOp (s : State) (ch : ChainSt) (d : Descriptor) : State :=
  match MxFmt.ofByte (d.param % 256) with
  | some f =>
    (List.range d.count).foldl (fun s b =>
      s.spaceWrite ch d.spaceD (d.addrD + b * f.bsz)
        (encodeRotated f (s.chainGen ch (bits d.param 46 45) (bits d.param 44 32) (128 * b)) (s.blockA ch d b)).bytes) s
  | none => s

/-- DEQUANT: the values are held for a following ROTATE (R216). -/
def State.dequantOp (s : State) (ch : ChainSt) (d : Descriptor) : List (Option Int) :=
  match MxFmt.ofByte (d.param % 256) with
  | none => []
  | some f => (List.range d.count).flatMap fun b => dequantBlock f (s.spaceRead ch d.spaceA (d.addrA + b * f.bsz) f.bsz)

/-- The sum of one column under RED, exact or by the tree (R164 to R168). -/
def reduceCol (exact : Bool) (red : Nat) (xs : List Nat) : Nat :=
  match red with
  | 1 => match xs with | [] => 0 | x :: _ => xs.foldl fpMax x
  | 2 => match xs with | [] => 0 | x :: _ => xs.foldl fpMin x
  | 3 => if exact then (xs.foldl Acc.add Acc.zero).roundDiv fp32 xs.length else fpDiv (treeSum xs) (fpOf xs.length)
  | _ => if exact then exactSum xs else treeSum xs

/-- REDUCE of M rows of N elements (R216). -/
def State.reduceOp (s : State) (ch : ChainSt) (d : Descriptor) : State :=
  let rows := (List.range d.m).map fun i => s.rowA ch d i
  s.spaceWrite ch d.spaceD d.addrD (s.outRow ch d.dfmt 0 ((List.range d.n).map fun j =>
    reduceCol (bit d.param 0) (bits d.param 3 1) (rows.map fun r => nth r j)))

/-- Writes one result row for each row of A. -/
def State.perRow (s : State) (ch : ChainSt) (d : Descriptor) (f : List Nat → List Byte) : State :=
  (List.range d.m).foldl (fun s i => s.spaceWrite ch d.spaceD (d.addrD + i * d.strideD) (f (s.rowA ch d i))) s

/-- TOPK: values with their indices, by value descending and then by index ascending (R216). -/
def topkRow (fmt k : Nat) (xs : List Nat) : List Byte :=
  let s := sortBy (fun (a b : Nat × Nat) => decide (fpKey b.1 < fpKey a.1)) (xs.zipIdx)
  (s.take k).flatMap fun x => outBytes fmt [x.1] ++ leBytes 4 x.2

/-- SMAXP: the maximum and the exact sum of exp(x − max) (R216). -/
def smaxRow (xs : List Nat) : List Byte :=
  let mx := match xs with | [] => 0 | x :: _ => xs.foldl fpMax x
  outBytes 0 [mx, exactSum (xs.map fun x => fpExp (fpSub x mx))]

/-- NORM: the exact sum and the exact sum of squares (R216). -/
def normRow (xs : List Nat) : List Byte := outBytes 0 [exactSum xs, exactDot xs xs]

/-- The micro-ops of a VPROG. -/
def State.vprogOps (s : State) (ch : ChainSt) (d : Descriptor) : List Nat :=
  (List.range (d.param % 64 + 1)).map fun k => leNat (s.spaceRead ch d.spaceB (d.addrB + 4 * k) 4)

/-- Statistics slots that a program writes, and its outputs; without an OUT it is V0 that leaves. -/
def stoSlots (ops : List Nat) : List Nat := (List.range 4).filter fun k => ops.any fun w => bits w 31 26 == 0x10 && w % 4 == k
def outCount (ops : List Nat) : Nat := max 1 ((List.range 2).filter fun k => ops.any fun w => bits w 31 26 == 0x0F && w % 2 == k).length

/-- VPROG: the micro-op program at ADDR_B on each row: its outputs, then the statistics slots that it writes, as FP32 (R170, R216; log
entry 28 for the layout). -/
def State.vprogOp (s : State) (ch : ChainSt) (d : Descriptor) : State :=
  match s.prog ch.ctx ch.xid with
  | none => s
  | some (_, p) =>
    let ops := s.vprogOps ch d
    (List.range d.m).foldl (fun s i =>
      let r0 : RowSt := ⟨setNth (List.replicate 8 (List.replicate d.n 0)) 0 (s.rowA ch d i), List.replicate 8 0, [none, none], [0, 0, 0, 0], 0⟩
      let r := ops.foldl (s.micro ch.ctx p i) r0
      let outs := r.out.filterMap id
      let rows := if outs.isEmpty then [r.v.getD 0 []] else outs
      s.spaceWrite ch d.spaceD (d.addrD + i * d.strideD)
        (rows.flatMap (s.outRow ch d.dfmt i) ++ outBytes 0 ((stoSlots ops).map fun k => nth r.sto k))) s

/-- The effect of a descriptor on memory (R216). -/
def State.runDesc (s : State) (ch : ChainSt) (d : Descriptor) : State :=
  match d.op with
  | 0x01 => s.gemm ch d
  | 0x02 => s.rotateOp ch d
  | 0x03 => s.quantOp ch d
  | 0x05 => s.reduceOp ch d
  | 0x06 => s.perRow ch d (topkRow d.dfmt (d.param % 64 + 1))
  | 0x07 => s.perRow ch d smaxRow
  | 0x08 => s.perRow ch d normRow
  | 0x09 => s.vprogOp ch d
  | 0x0A => s.spaceWrite ch d.spaceD d.addrD (s.spaceRead ch d.spaceA d.addrA (64 * d.count))
  | _ => s

/-- Bytes that a descriptor reaches at A, B and D. -/
def State.descSpan (s : State) (ch : ChainSt) (d : Descriptor) : Nat × Nat × Nat :=
  let mx := match MxFmt.ofByte (d.param % 256) with | some f => f.bsz | none => 0
  let rowsA := fun (n : Nat) => (d.m - 1) * d.strideA + s.rowBytes ch d.afmt n
  let rowsD := fun (n : Nat) => (d.m - 1) * d.strideD + n
  match d.op with
  | 0x01 => (rowsA d.k, d.k * s.rowBytes ch d.bfmt d.n, rowsD (s.rowBytes ch d.dfmt d.n))
  | 0x02 => (512 * d.count, 0, 512 * d.count)
  | 0x03 => (512 * d.count, 0, mx * d.count)
  | 0x04 => (mx * d.count, 0, 0)
  | 0x05 => (rowsA d.n, 0, s.rowBytes ch d.dfmt d.n)
  | 0x06 => (rowsA d.n, 0, rowsD ((d.param % 64 + 1) * (s.rowBytes ch d.dfmt 1 + 4)))
  | 0x07 => (rowsA d.n, 0, rowsD 8)
  | 0x08 => (rowsA d.n, 0, rowsD 8)
  | 0x09 => (rowsA d.n, 4 * (d.param % 64 + 1),
      rowsD (outCount (s.vprogOps ch d) * s.rowBytes ch d.dfmt d.n + 4 * (stoSlots (s.vprogOps ch d)).length))
  | 0x0A => (64 * d.count, 0, 64 * d.count)
  | _ => (0, 0, 0)

/-- A descriptor has a defined OP, no FP32 operand of the array, and addresses within what its chain may reach (R211, R214, R216,
R217). -/
def State.descOk (s : State) (ch : ChainSt) (d : Descriptor) : Bool :=
  let n := s.descSpan ch d
  decide (1 ≤ d.op) && decide (d.op ≤ 0x0B) && !(d.op == 1 && (d.afmt == 0 || d.bfmt == 0)) && (n.1 == 0 || s.spaceOk ch d.spaceA d.addrA n.1) &&
    (n.2.1 == 0 || s.spaceOk ch d.spaceB d.addrB n.2.1) && (n.2.2 == 0 || s.spaceOk ch d.spaceD d.addrD n.2.2)

/-! ### Chains (R217) -/

/-- The chain of a tile. -/
def State.chainOf (s : State) (die tile : Nat) : Option ChainSt := s.tile.chains.find? fun c => c.die == die && c.tile == tile

/-- Replaces or ends the chain of a tile. -/
def State.setChain (s : State) (die tile : Nat) (c : Option ChainSt) : State :=
  s.setTile fun t => { t with chains := t.chains.filter (fun (x : ChainSt) => !(x.die == die && x.tile == tile)) ++ c.toList }

/-- A sync object is set, or none is asked for (R215). -/
def State.objSet (s : State) (die c xid obj : Nat) : Bool := obj == 0xFF || tget s.tile.sync (localBase die (s.instNum c xid) + obj) != 0

/-- Sets a local sync object. -/
def State.signal (s : State) (die c xid obj : Nat) : State :=
  if obj = 0xFF then s else s.setTile fun t => { t with sync := tset t.sync (localBase die (s.instNum c xid) + obj) 1 }

/-- The group page of a logical tile. -/
def tilePg (die tile : Nat) : Nat := ttlPg die (tile / 8)

/-- A logical tile is absent (R220). -/
def State.tileAbsent (s : State) (die tile : Nat) : Bool := bit (s.rd (TTL_STAT_ABSENT (tilePg die tile))) (tile % 8)

/-- Physical tile of a logical one. -/
def State.physOf (s : State) (die tile : Nat) : Nat := s.rd (TTL_MAP_PHYS (tilePg die tile) (tile % 8))

/-- An error stops a tile's chain: TTL_ERR, and its instance goes to ERROR; a tile that fails in a rotation is an engine error of the
codec, 0x80 + tile (R182, R208, R209, R217). -/
def State.chainError (s : State) (die tile cls : Nat) : State :=
  match s.chainOf die tile with
  | none => s
  | some ch =>
    let pg := tilePg die tile
    let s := ((s.wr (TTL_ERR_CLASS pg) cls).wr (TTL_ERR_LOGICAL pg) tile).wr (TTL_ERR_PHYSICAL pg) (s.physOf die tile)
    let s := ((s.wr (TTL_ERR_CONTEXT pg) ch.ctx).wr (TTL_ERR_XID pg) ch.xid).wr (TTL_ERR_DESC pg) ch.index
    let s := if cls != 4 && ch.running.any fun d => d.op == 2 then s.codecError (2 + die) cls ch.ctx ch.xid (0x80 + tile) else s
    (s.setChain die tile none).instError ch.ctx ch.xid (if cls = 1 then 1 else 2) (2 + die) false

/-- The tile may run a chain of the context: present, not being scrubbed, and scrubbed since another context used it (R220, R272). -/
def State.tileReady (s : State) (die tile c : Nat) : Bool :=
  let last := tget s.tile.lastCtx (tileKey die tile)
  !s.tileAbsent die tile && !(s.tile.scrubs.any fun x => x.die == die && x.tile == tile) && (last == 0 || last == c + 1)

/-- First byte of a descriptor of a tile's chain store (R212, R215). -/
def chainAddr (die tile index : Nat) : Nat := tileKey die tile * 2 ^ 20 + 0xF0000 + 64 * (index % 1024)

/-- The collective engine writes a descriptor of a chain it builds (R212, R214). -/
def State.buildDesc (s : State) (die tile index : Nat) (words : List Word) : State :=
  let ws : List Word := (words ++ List.replicate 8 0).take 8
  s.setTile fun t => { t with tileSram := mwrite t.tileSram (chainAddr die tile index) (ws.flatMap fun w => leBytes 8 w.toNat) }

/-- The descriptor of the chain store of a tile (R215). -/
def State.descAt (s : State) (die tile index : Nat) : Descriptor :=
  let w := fun (k : Nat) => mword s.tile.tileSram (chainAddr die tile index + 8 * k)
  { op := bits (w 0) 63 56, afmt := bits (w 0) 55 52, bfmt := bits (w 0) 51 48, dfmt := bits (w 0) 47 44, wait := bits (w 0) 39 32
    next := bits (w 0) 31 16, count := bits (w 0) 15 0, spaceA := bits (w 1) 63 62, addrA := bits (w 1) 31 0, spaceB := bits (w 2) 63 62
    addrB := bits (w 2) 31 0, spaceD := bits (w 3) 63 62, addrD := bits (w 3) 31 0, m := bits (w 4) 63 48, n := bits (w 4) 47 32
    k := bits (w 4) 31 16, strideA := bits (w 5) 63 32, strideD := bits (w 5) 31 0, param := w 6, signal := bits (w 7) 63 56 }

/-- DESCRIPTOR_START (R217): the sequencer reads the descriptor that the engine has built in the chain store, and each address is
checked as it stands in the chain (R214). -/
def execDescriptorStart (die tile ctx xid index : Nat) (words : List Word) (s : State) : Out :=
  .next (
    let d := (s.buildDesc die tile index words).descAt die tile index
    let isOpen := match s.inst ctx xid with | some i => i.isOpen && i.state != .error | none => false
    let ch : Option ChainSt := match s.chainOf die tile with
      | none => some ⟨die, tile, ctx, xid, index, none, none, []⟩
      | some c => if c.ctx == ctx && c.xid == xid && c.running.isNone && c.next == some index then some { c with index := index } else none
    match ch with
    | none => s
    | some c =>
      if !isOpen || !s.tileReady die tile ctx || !s.objSet die ctx xid d.wait || s.on PWR_STAT_THROTTLED && (s.chainOf die tile).isNone then s
      else
      let s := s.buildDesc die tile index words
      if s.descOk c d then
        (s.setChain die tile (some { c with running := some d })).setTile fun t =>
          { t with lastCtx := tset t.lastCtx (tileKey die tile) (ctx + 1) }
      else (s.setChain die tile (some c)).chainError die tile 4)

/-- DESCRIPTOR_END (R216, R217, R235). -/
def execDescriptorEnd (die tile : Nat) (s : State) : Out :=
  .next (match s.chainOf die tile with
    | none => s
    | some ch => match ch.running with
      | none => s
      | some d =>
        let pg := tilePg die tile
        let exact := if d.op = 4 then s.dequantOp ch d else []
        let s := ((s.runDesc ch d).signal die ch.ctx ch.xid d.signal).bump (TTL_DESC_DESCS pg) 1
        if d.next = 0xFFFF then (s.setChain die tile none).bump (TTL_DESC_CHAINS pg) 1
        else s.setChain die tile (some { ch with running := none, next := some d.next, exact := exact }))

/-! ### Failing, sparing and switching tiles (R218 to R221, R234, R272) -/

/-- A physical tile is fused bad. -/
def State.fusedBad (s : State) (die p : Nat) : Bool :=
  let pg := ttlDiePg die
  if p < 64 then bit (s.rd (TTL_FUSE_LO_BAD pg)) p else bit (s.rd (TTL_FUSE_HI_BAD pg)) (p - 64)

/-- A physical tile has failed (R236). -/
def State.runFailed (s : State) (die p : Nat) : Bool :=
  let pg := ttlDiePg die
  if p < 64 then bit (s.rd (TTL_RUNFAIL_LO_FAILED pg)) p else bit (s.rd (TTL_RUNFAIL_HI_FAILED pg)) (p - 64)

/-- The logical tile of a physical one. -/
def State.logicalOf (s : State) (die p : Nat) : Option Nat := (List.range 64).find? fun t => s.physOf die t == p

/-- Spare tiles of a die, lowest first (R219). -/
def State.spareTiles (s : State) (die : Nat) : List Nat :=
  (List.range 68).filter fun p => !s.fusedBad die p && !s.runFailed die p && (s.logicalOf die p).isNone

/-- Shows the number of spares. -/
def State.showSpares (s : State) (die : Nat) : State := s.wr (TTL_DIE_STAT_SPARES (ttlDiePg die)) (s.spareTiles die).length

/-- Marks a physical tile failed. -/
def State.markFailed (s : State) (die p : Nat) : State :=
  let pg := ttlDiePg die
  if p < 64 then s.wr (TTL_RUNFAIL_LO_FAILED pg) (setBit (s.rd (TTL_RUNFAIL_LO_FAILED pg)) p true)
  else s.wr (TTL_RUNFAIL_HI_FAILED pg) (setBit (s.rd (TTL_RUNFAIL_HI_FAILED pg)) (p - 64) true)

/-- Marks a logical tile absent or present, with the counts of the die (R220, R221). -/
def State.setAbsent (s : State) (die t : Nat) (b : Bool) : State :=
  let pg := tilePg die t
  let dp := ttlDiePg die
  let s := (s.wr (TTL_STAT_ABSENT pg) (setBit (s.rd (TTL_STAT_ABSENT pg)) (t % 8) b)).wr (TTL_ABSENT_LOGICAL dp)
    (setBit (s.rd (TTL_ABSENT_LOGICAL dp)) t b)
  s.wr (TTL_DIE_STAT_ABSENT dp) ((List.range 64).filter fun i => bit (s.rd (TTL_ABSENT_LOGICAL dp)) i).length

/-- A physical tile fails (R220, R221). -/
def State.tileFail (s : State) (die p cls : Nat) : State :=
  if s.runFailed die p then s
  else
    match s.logicalOf die p with
    | none => (s.markFailed die p).showSpares die
    | some t =>
      let pg := tilePg die t
      let s := if (s.chainOf die t).isSome then (s.markFailed die p).chainError die t cls
        else (((s.markFailed die p).wr (TTL_ERR_CONTEXT pg) 0).wr (TTL_ERR_XID pg) 0).wr (TTL_ERR_DESC pg) 0
      let s := ((s.wr (TTL_ERR_CLASS pg) cls).wr (TTL_ERR_LOGICAL pg) t).wr (TTL_ERR_PHYSICAL pg) p
      let s := if cls = 1 then s.bump (TTL_SRAM_UNCORR pg) 1 else s
      let s := s.setTile fun x => { x with
        oldPhys := tset x.oldPhys (tileKey die t) (p + 1)
        scrubs := x.scrubs.filter fun (y : ScrubSt) => !(y.die == die && y.tile == t) }
      let s := ((s.wr (TTL_MAP_PHYS pg (t % 8)) 0xFF).setAbsent die t true).wr (TTL_STAT_SWAP_PENDING pg)
        (setBit (s.rd (TTL_STAT_SWAP_PENDING pg)) (t % 8) true)
      let s := (s.detect .dz8 pg 0 p none).showSpares die
      if 8 ≤ s.rd (TTL_DIE_STAT_ABSENT (ttlDiePg die)) then s.detect .dz8 (ttlDiePg die) 2 0 none else s

/-- SEQUENCER_ERROR (R217): a tile fault also fails the tile (R220). -/
def execSequencerError (die tile cls : Nat) (s : State) : Out :=
  .next (if cls = 4 ∨ s.tileAbsent die tile then s.chainError die tile cls else s.tileFail die (s.physOf die tile) cls)

/-- TILE_FAIL (R220). -/
def execTileFail (die phys cls : Nat) (s : State) : Out := .next (s.tileFail die phys cls)

/-- Zeros the SRAM of a logical tile (R272). -/
def State.scrubTile (s : State) (die tile : Nat) : State :=
  s.setTile fun t => { t with tileSram := mzero t.tileSram (tileKey die tile * 2 ^ 20) ((tileKey die tile + 1) * 2 ^ 20) }

/-- An absent logical tile takes the first spare whose scrub does not fail; `bad` are spares that fail it (R220, R234). -/
def State.swapIn (s : State) (die t : Nat) (bad : List Nat) : State :=
  let pg := tilePg die t
  let sp := s.spareTiles die
  let tried := sp.takeWhile bad.contains
  let s := tried.foldl (fun s p => s.markFailed die p) s
  let s := s.wr (TTL_STAT_SWAP_PENDING pg) (setBit (s.rd (TTL_STAT_SWAP_PENDING pg)) (t % 8) false)
  match sp.drop tried.length with
  | [] => (s.showSpares die).detect .dz8 pg 1 t none
  | p :: _ =>
    let s := (((s.wr (TTL_MAP_PHYS pg (t % 8)) p).setAbsent die t false).scrubTile die t).setTile fun x => { x with
      lastCtx := tset x.lastCtx (tileKey die t) 0, oldPhys := tset x.oldPhys (tileKey die t) 0 }
    s.showSpares die

/-- TILE_SWAP (R220): pending tiles in the order of their failed physical tiles. -/
def execTileSwap (die : Nat) (bad : List Nat) (s : State) : Out :=
  .next (
    let due := (List.range 64).filter fun t => bit (s.rd (TTL_STAT_SWAP_PENDING (tilePg die t))) (t % 8)
    let due := sortBy (fun a b => decide (tget s.tile.oldPhys (tileKey die a) < tget s.tile.oldPhys (tileKey die b))) due
    due.foldl (fun s t => s.swapIn die t bad) s)

/-- ENGINE_SWITCH (R272, R273): once the previous chain on the tile has ended. -/
def execEngineSwitch (die tile ctx : Nat) (s : State) : Out :=
  .next (if (s.chainOf die tile).isSome || s.tileAbsent die tile || s.tileReady die tile ctx ||
      (s.tile.scrubs.any fun x => x.die == die && x.tile == tile) then s
    else s.setTile fun t => { t with scrubs := t.scrubs ++ [(⟨die, tile, ctx⟩ : ScrubSt)] })

/-- ENGINE_SWITCH_DONE (R272, R273): a tile that fails the read-back is a failed tile. -/
def execEngineSwitchDone (die tile : Nat) (ok : Bool) (lateNs : Nat) (s : State) : Out :=
  .next (match s.tile.scrubs.find? fun x => x.die == die && x.tile == tile with
    | none => s
    | some x =>
      let s := (s.scrubTile die tile).setTile fun t => { t with
        scrubs := t.scrubs.filter (fun (y : ScrubSt) => !(y.die == die && y.tile == tile))
        lastCtx := tset t.lastCtx (tileKey die tile) (x.ctx + 1) }
      let s := (s.bump (CTX_SWITCH_SWITCHES (ctxPg x.ctx)) 1).bump (CTX_SWITCH_LATE_NS (ctxPg x.ctx)) lateNs
      if ok then s else s.tileFail die (s.physOf die tile) 1)

/-! ### Banks, sync window and errors (R223 to R230) -/

/-- BANK_PROMOTE (R223, R237): 64 waits and one promotion. -/
def execBankPromote (die : Nat) (s : State) : Out :=
  .next ((s.bump (PGH_CONFLICT_WAITS (pghPg die)) 64).bump (PGH_CONFLICT_PROMOTED (pghPg die)) 1)

/-- STATE of a die's Pigeonholes: 0 AWAKE, 1 ENTERING, 2 RETAINED, 3 WAKING (R237). -/
def State.pghState (s : State) (die : Nat) : Nat := s.rd (PGH_STAT_STATE (pghPg die))

/-- The die serves accesses. -/
def State.awake (s : State) (die : Nat) : Bool := s.pghState die == 0

/-- A word of the sync window is reserved: it reads 0 and ignores writes (R228). -/
def syncReserved (die w : Nat) : Bool :=
  decide (2 ^ 18 ≤ w) || (decide (0x180000 ≤ 8 * w) && decide (8 * w < 0x1C0000) && (die != 0 || decide (0x1A0000 ≤ 8 * w)))

/-- What a word of the sync window reads as. -/
def State.syncGet (s : State) (die w : Nat) : Nat :=
  if syncReserved die w || s.tile.syncBad.contains (die * 2 ^ 18 + w) then 0 else tget s.tile.sync (die * 2 ^ 18 + w)

/-- Writes a word of the sync window. -/
def State.syncPut (s : State) (die w v : Nat) : State :=
  if syncReserved die w then s
  else s.setTile fun t => { t with
    sync := tset t.sync (die * 2 ^ 18 + w) (v % 2 ^ 64)
    syncBad := t.syncBad.filter fun x => x != die * 2 ^ 18 + w }

/-- The resulting data of an access, none for a READ (R230). -/
def State.resulting (s : State) (die : Nat) (a : SyncAccess) : Option Nat :=
  match a.op with
  | .read => none
  | .write => some (a.value % 2 ^ 64)
  | .add => some ((s.syncGet die (a.offset / 8) + a.value) % 2 ^ 64)

/-- An access that is not aligned, or reaches a die in retention, is refused and reported (R229, R233). -/
def State.syncRefuse (s : State) (die : Nat) (a : SyncAccess) : Option State :=
  if !s.awake die then some (s.detect .dz8 (pghPg die) 5 0 none)
  else if a.offset % 8 ≠ 0 then some ((s.bump (PGH_SYNC_MISALIGN (pghPg die)) 1).detect .dz8 (pghPg die) 2 a.offset none)
  else none

/-- An access that lands: the value a READ returns or the data that stands. -/
def State.syncDo (s : State) (die : Nat) (a : SyncAccess) : Option Nat × State :=
  match s.resulting die a with
  | none => (some (s.syncGet die (a.offset / 8)), s)
  | some v => (some v, s.syncPut die (a.offset / 8) v)

/-- One access of a port, refused or done. -/
def State.syncOne (s : State) (die : Nat) (a : Option SyncAccess) : Option Nat × State :=
  match a with
  | none => (none, s)
  | some a => match s.syncRefuse die a with
    | some t => (none, t)
    | none => s.syncDo die a

/-- SYNC_WINDOW_ACCESS (R229, R230). -/
def execSyncWindowAccess (die : Nat) (port0 port1 : Option SyncAccess) (s : State) : Out :=
  .next (
    let clash := match port0, port1 with
      | some a, some b =>
        if a.offset == b.offset && (s.syncRefuse die a).isNone then
          match s.resulting die a, s.resulting die b with
          | some x, some y => if x == y then 1 else 2
          | some _, none => 3
          | none, some _ => 4
          | none, none => 0
        else 0
      | _, _ => 0
    let old := match port0 with | some a => s.syncGet die (a.offset / 8) | none => 0
    let r0 := s.syncOne die port0
    if clash = 2 then
      let s := (r0.2.bump (PGH_SYNC_COLLIDE (pghPg die)) 1).detect .dz8 (pghPg die) 3 0 none
      s.setTile fun t => { t with
        collided := (t.collided.filter fun (x : Nat × SyncAccess) => x.1 != die) ++ port1.toList.map (fun a => (die, a))
        syncResult := [r0.1, none] }
    else if clash = 1 then r0.2.setTile fun t => { t with syncResult := [r0.1, r0.1] }
    else if clash = 3 then r0.2.setTile fun t => { t with syncResult := [r0.1, some old] }
    else
      let r1 := r0.2.syncOne die port1
      r1.2.setTile fun t => { t with syncResult := [r0.1, r1.1] })

/-- SYNC_COLLIDE_REPEAT (R230): the access with its original operand. -/
def execSyncCollideRepeat (die : Nat) (s : State) : Out :=
  .next (match s.tile.collided.find? fun x => x.1 == die with
    | none => s
    | some x =>
      let s := s.setTile fun t => { t with collided := t.collided.filter fun (y : Nat × SyncAccess) => y.1 != die }
      let r := s.syncOne die (some x.2)
      r.2.setTile fun t => { t with syncResult := [none, r.1] })

/-- SRAM_UNCORRECTABLE (R217, R225, R237): the chains of the instance that reads the word stop. -/
def execSramUncorrectable (die addr : Nat) (dest : SramDest) (s : State) : Out :=
  .next (
    let pg := pghPg die
    let isSync := match dest with | .syncWord => true | _ => false
    let s := (((s.bump (PGH_ECC_UNCORR pg) 1).wr (PGH_ECCADDR_VALID pg) 1).wr (PGH_ECCADDR_SYNC pg) (b2n isSync)).wr (PGH_ECCADDR_ADDR pg) addr
    match dest with
    | .engine c x =>
      ((s.tile.chains.filter fun h => h.die == die && h.ctx == c && h.xid == x).foldl (fun s h => s.chainError die h.tile 1) s).instError
        c x 1 (2 + die) true
    | .hostWindow => s
    | .syncWord => (s.setTile fun t => { t with syncBad := t.syncBad ++ [die * 2 ^ 18 + addr / 8] }).detect .dz8 pg 1 addr none)

/-! ### The sealed shelf (R231, R232) -/

/-- Die addresses of the sealed shelf (R222). -/
def shelfLo : Nat := 0x09800000
def shelfHi : Nat := 0x0A000000

/-- SHELF_DENIED (R231). -/
def execShelfDenied (die : Nat) (s : State) : Out :=
  .next ((s.bump (PGH_SHELF_DENIED (pghPg die)) 1).detect .dz8 (pghPg die) 4 0 none)

/-- The shelf's bytes, and what the model keeps of its contents, are gone: key records, vault roots (R231, R249, R299). -/
def State.shelfGone (s : State) (die : Nat) : State :=
  let s := s.setTile fun t => { t with pgh := mzero t.pgh (pghKey die shelfLo) (pghKey die shelfHi) }
  (s.setHbm fun h => { h with roots := [] }).setRot fun r => { r with records := [] }

/-- A wipe begins; a die in retention loses its shelf supply at once (R232). -/
def State.shelfWipe (s : State) (die : Nat) : State :=
  let s := s.shelfGone die
  if s.awake die then s.wr (PGH_STAT_SHELF_WIPING (pghPg die)) 1
  else s.setTile fun t => { t with shelfCut := if t.shelfCut.contains die then t.shelfCut else t.shelfCut ++ [die] }

/-- SHELF_WIPE (R232). -/
def execShelfWipe (die : Nat) (s : State) : Out := .next (s.shelfWipe die)

/-- The wipe of a shelf completes. -/
def State.wipeDone (s : State) (die : Nat) : State :=
  let pg := pghPg die
  (((s.shelfGone die).wr (PGH_STAT_SHELF_WIPING pg) 0).wr (PGH_STAT_SHELF_WIPED pg) 1).bump (PGH_SHELF_WIPES pg) 1

/-- SHELF_WIPE_DONE (R232). -/
def execShelfWipeDone (die : Nat) (s : State) : Out :=
  .next (if s.on (PGH_STAT_SHELF_WIPING (pghPg die)) then s.wipeDone die else s)

/-! ### Retention (R233) -/

/-- Some context with rows on the die has an armed timetable. -/
def State.armedOn (s : State) (die : Nat) : Bool := contexts.any fun c => s.on (PGH_ALLOC_VALID (pghPg die) c) && s.armed c

/-- RETAIN (R233). -/
def State.pghRetain (s : State) (die : Nat) : State :=
  if s.armedOn die then s.wr (PGH_STAT_RET_REJ (pghPg die)) 1
  else if s.awake die then s.wr (PGH_STAT_STATE (pghPg die)) 2 else s

/-- PGH_RETAIN (R233). -/
def execPghRetain (die : Nat) (s : State) : Out := .next (s.pghRetain die)

/-- WAKE (R233). -/
def State.pghWake (s : State) (die : Nat) : State := if s.pghState die = 2 then s.wr (PGH_STAT_STATE (pghPg die)) 3 else s

/-- PGH_WAKE (R233). -/
def execPghWake (die : Nat) (s : State) : Out := .next (s.pghWake die)

/-- PGH_WAKE_DONE (R232, R233): a shelf whose supply was cut is written with zeros. -/
def execPghWakeDone (die : Nat) (s : State) : Out :=
  .next (if s.pghState die = 3 then
    let s := s.wr (PGH_STAT_STATE (pghPg die)) 0
    if s.tile.shelfCut.contains die then (s.wipeDone die).setTile fun t => { t with shelfCut := t.shelfCut.filter (· != die) } else s
    else s)

/-! ### Allocations and the host window (R226, R227, R238) -/

/-- Two row ranges overlap. -/
def rowsOverlap (b1 n1 b2 n2 : Nat) : Bool := decide (0 < n1) && decide (0 < n2) && decide (b1 < b2 + n2) && decide (b2 < b1 + n1)

/-- A write of PGH_ALLOC is ignored (R227). -/
def State.allocBad (s : State) (die c base rows : Nat) : Bool :=
  let pg := pghPg die
  s.rd (CTX_STAT_STATE (ctxPg c)) != 0 || decide (8192 < base + rows) || rowsOverlap base rows s.rsvRows s.rsvRows ||
    contexts.any fun k => k != c && s.on (PGH_ALLOC_VALID pg k) && rowsOverlap base rows (s.rd (PGH_ALLOC_ROW_BASE pg k)) (s.rd (PGH_ALLOC_ROWS pg k))

/-- A write of PGH_ALLOC (R227, R237). -/
def State.allocReg (s : State) (die c v : Nat) : State :=
  let pg := pghPg die
  let valid := bit v 63
  let rows := bits v 29 16
  let base := bits v 13 0
  if s.allocBad die c base (if valid then rows else 0) then s.wr (PGH_STAT_ALLOC_ERR pg) 1
  else ((s.wr (PGH_ALLOC_VALID pg c) (b2n valid)).wr (PGH_ALLOC_ROWS pg c) rows).wr (PGH_ALLOC_ROW_BASE pg c) base

/-- PGH_ALLOC_WRITE (R227). -/
def execPghAllocWrite (die ctx : Nat) (value : Word) (s : State) : Out := .next (s.allocReg die ctx value.toNat)

/-- One 48-byte unit of a context's host-written extents (R415, R418). -/
def addUnit (l : List (Nat × Nat × Nat)) (c u : Nat) : List (Nat × Nat × Nat) :=
  if l.any fun e => e.1 == c && decide (e.2.1 ≤ u) && decide (u < e.2.1 + e.2.2 / 48) then l
  else if l.any fun e => e.1 == c && e.2.1 + e.2.2 / 48 == u then
    l.map fun e => if e.1 == c && e.2.1 + e.2.2 / 48 == u then (c, e.2.1, e.2.2 + 48) else e
  else l ++ [(c, u, 48)]

/-- The host wrote a range of a context's allocation space (R418). -/
def State.hostWrote (s : State) (c o n : Nat) : State :=
  s.setPair fun q => { q with extents := (List.range ((o + n + 47) / 48 - o / 48)).foldl (fun l k => addUnit l c (o / 48 + k)) q.extents }

/-- The release of a context scrubs its allocation: reads return 0 and writes are ignored (R234, R274). -/
def State.scrubbing (s : State) (c : Nat) : Bool :=
  match (s.ctx c).release with
  | some r => r.drained && !r.scrubbed
  | none => false

/-- C-dies that bytes of an allocation space lie on. -/
def State.allocDies (s : State) (c o n : Nat) : List Nat := ((List.range n).filterMap fun i => (s.allocAddr c (o + i)).map (·.1)).dedup

/-- A read of the PGH window: none where the die is in retention, refused and reported (R233, R238). -/
def State.pghWinRead (s : State) (c n : Nat) : Option Nat × State :=
  let o := s.rd (PGH_WIN_BASE_OFFSET (pghWinPg c)) + 8 * n
  match (s.allocDies c o 8).find? fun d => !s.awake d with
  | some d => (none, s.detect .dz8 (pghPg d) 5 0 none)
  | none => (some (if s.scrubbing c then 0 else leNat (s.allocRead c o 8)), s)

/-- A write of the PGH window. -/
def State.pghWinWrite (s : State) (c n v : Nat) : State :=
  let o := s.rd (PGH_WIN_BASE_OFFSET (pghWinPg c)) + 8 * n
  match (s.allocDies c o 8).find? fun d => !s.awake d with
  | some d => s.detect .dz8 (pghPg d) 5 0 none
  | none => if s.scrubbing c || (s.allocDies c o 8).isEmpty then s else (s.allocWrite c o (leBytes 8 v)).hostWrote c o 8

/-- PGH_WIN_ACCESS (R238). -/
def execPghWinAccess (ctx n : Nat) (value : Option Word) (s : State) : Out :=
  .next (match value with
    | some v => s.pghWinWrite ctx n v.toNat
    | none =>
      let r := s.pghWinRead ctx n
      match r.1 with
      | some w => r.2.emit (.value .dz8 (pghWinPg ctx + 0x800 + 8 * n) (word w))
      | none => r.2)

end Sys2Proof.Machine
end

