-- ==== Sys2Proof/Machine/Hbm.lean ====
section
/-! DEFINITION. HBM stacks, sector tags, regions, the vault, the optimizer layout and sets, and the HBM window (R239 to R263). -/

namespace Sys2Proof.Machine

/-! ### Stacks (R239 to R241) -/

/-- A stack of the unit's part (R3, R239). -/
def State.hasStack (s : State) (m st : Nat) : Bool := decide (m < s.mdies) && decide (st < 6)

/-- STACK_TRAIN_ATTEMPT (R240, R241, R260): the second failed attempt fails the stack. -/
def execStackTrainAttempt (mdie stack : Nat) (ok : Bool) (timeMs failCh : Nat) (s : State) : Out :=
  .next (
    let pg := hbcPg mdie stack
    if s.hasStack mdie stack && decide (s.rd (HBC_STAT_STATE pg) ≤ 1) then
      let ok := ok && decide (timeMs ≤ 400)
      let n := s.rd (HBC_STAT_ATTEMPTS pg) + 1
      let s := ((s.wr (HBC_STAT_ATTEMPTS pg) n).wr (HBC_TRAIN_TIME_MS pg) timeMs).wr (HBC_TRAIN_FAIL_CH pg) (if ok then 0xFF else failCh)
      if ok then s.wr (HBC_STAT_STATE pg) (if s.rd PAR_STAT_ROLE = 2 then 3 else 2)
      else if n < 2 then s.wr (HBC_STAT_STATE pg) 1
      else (s.wr (HBC_STAT_STATE pg) 4).detect .dz8 pg 0 failCh none
    else s)

/-- STACK_ERROR_POLL (R239, R260). -/
def execStackErrorPoll (reports : List StackReport) (s : State) : Out :=
  .next (reports.foldl (fun s r =>
    if s.hasStack r.mdie r.stack then
      (s.bump (HBC_ECC_CORR (hbcPg r.mdie r.stack)) r.corr).bump (HBC_ECC_UNCORR (hbcPg r.mdie r.stack)) r.uncorr
    else s) s)

/-- The stacks of the unit. -/
def State.stacks' (s : State) : List (Nat × Nat) := (List.range s.mdies).flatMap fun m => (List.range 6).map fun st => (m, st)

/-- Every working stack takes a STATE, 2 ACTIVE or 3 SELF_REFRESH (R241). -/
def State.stacksTo (s : State) (st : Nat) : State :=
  s.stacks'.foldl (fun s x =>
    let pg := hbcPg x.1 x.2
    if s.rd (HBC_STAT_STATE pg) = 2 ∨ s.rd (HBC_STAT_STATE pg) = 3 then s.wr (HBC_STAT_STATE pg) st else s) s

/-- SELF_REFRESH_ENTRY (R241; on DZ8-E the retention of R233). -/
def execSelfRefreshEntry (s : State) : Out :=
  .next (if s.rd PAR_STAT_ROLE = 2 then (if s.mdies = 0 then s.pghRetain 0 else s.stacksTo 3) else s)

/-! ### Encryption and tags (R246 to R249): what stands in the stacks. The model holds their contents in the clear with the generation
that sealed each sector, which decides whether its tag passes (log entry 8) -/

/-- The 1,024 bits derived for a region: XTS data key, XTS tweak key, tag key Kt, hash key Hk, 16 bytes unused (R246, R288). -/
def regionKeys (root : List Byte) (cls owner gen : Nat) : List Byte :=
  kdfBytes root (ascii "DZ8-HBM-KEY") (leBytes 1 cls ++ leBytes 1 owner ++ leBytes 4 gen) 1024

/-- A line of 64 bytes at M-address `a` as it is stored (R247). -/
def lineStored (keys : List Byte) (die a : Nat) (text : List Byte) : List Byte :=
  xtsSeal (keys.take 32) ((keys.drop 32).take 32) (die * 2 ^ 40 + a / 64) text

/-- The tag of a stored line under its version counter (R247). -/
def lineTag (keys : List Byte) (cls die a ctr : Nat) (stored : List Byte) : Nat :=
  let n := leBytes 8 ctr ++ leBytes 5 (a / 64) ++ leBytes 1 die ++ leBytes 1 cls ++ [0]
  leNat (xorBytes (beBytes 16 (ghash ((keys.drop 96).take 16) (pieces16 stored))) (aes256 ((keys.drop 64).take 32) n)) % 2 ^ 64

/-- The tag of a sector: its four line tags joined by exclusive or (R247). -/
def sectorTag (keys : List Byte) (cls die a ctr : Nat) (stored : List Byte) : Nat :=
  (List.range 4).foldl (fun t i => Nat.xor t (lineTag keys cls die (a + 64 * i) ctr ((stored.drop (64 * i)).take 64))) 0

/-- A replay failure taints the context's vault (R249). -/
def State.replayFailure (s : State) (c : Nat) : State :=
  let pg := vltPg c
  (((s.bump (VLT_INTEG_REPLAY pg) 1).bump VLT_REPLAY_FAILS 1).wr (VLT_VAULT_TAINTED pg) 1).detect .dz8 pg 0 0 (some c)

/-- What a failed sector means to its reader (R248). -/
def State.tagReader (s : State) (m sector : Nat) (r : TagReader) : State :=
  let own := fun (s : State) (c : Nat) => s.bump (VLT_INTEG_TAGFAIL (vltPg c)) 1
  match r with
  | .nearMemory c x => s.nmuFails m c x
  | .result c x => (own s c).instError c x 3 (4 + m) true
  | .window c => own s c
  | .vault c => (own s c).replayFailure c
  | .tileMap c =>
    ((own s c).setHbm fun h => { h with mapBad := if h.mapBad.contains c then h.mapBad else h.mapBad ++ [c] }).detect .dz8
      (stackPg m sector) 3 sector (some c)
  | .dump => match s.rst.dump with
    | none => s
    | some d => s.setRst fun q => { q with dump := some { d with dump := { d.dump with regions := match d.dump.regions.reverse with
        | [] => []
        | x :: xs => (({ x with dataErr := true } : Region) :: xs).reverse } } }
  | .poste => s

/-- A sector fails its tag at both reads (R248). -/
def State.tagFail (s : State) (m sector : Nat) (r : TagReader) : State := (s.sectorFails m sector).tagReader m sector r

/-- SECTOR_TAG_FAIL (R248, R249). -/
def execSectorTagFail (mdie sector : Nat) (secondOk : Bool) (reader : TagReader) (s : State) : Out :=
  .next (if secondOk then (s.bump (HBC_TAG_RETRY_OK (stackPg mdie sector)) 1).detect .dz8 (stackPg mdie sector) 1 sector none
    else s.tagFail mdie sector reader)

/-! ### The version counters of the vault (R249) -/

/-- Nodes of a tree over `n` data sectors, and its levels: a level of 32 nodes or fewer is the last. -/
def vaultNodes (n : Nat) : Nat → Nat × Nat
  | 0 => (0, 0)
  | k + 1 =>
    let l := ceilDiv n 32
    if l ≤ 32 then (l, 1) else let r := vaultNodes l k; (l + r.1, r.2 + 1)

/-- The largest number of data sectors that fits with its nodes in `t` sectors. -/
def vaultSectors (t : Nat) : Nat :=
  (List.range 40).reverse.foldl (fun d i => if d + 2 ^ i + (vaultNodes (d + 2 ^ i) 16).1 ≤ t then d + 2 ^ i else d) 0

/-- Shows the data size and the levels of a context's vault (R263). -/
def State.showVault (s : State) (c : Nat) : State :=
  let d := vaultSectors (s.regionLen c 1 / 256)
  (s.wr (VLT_VAULT_DATA_BYTES (vltPg c)) (256 * d)).wr (VLT_VAULT_LEVELS (vltPg c)) (if d = 0 then 0 else (vaultNodes d 16).2)

/-- A write of a data sector increments its counter and every counter on the path to the root. -/
def State.vaultCount (s : State) (c n : Nat) : State :=
  s.setHbm fun h => { h with counters := (List.range (s.rd (VLT_VAULT_LEVELS (vltPg c)) + 1)).foldl (fun t k =>
    let key := (c * 16 + k) * 2 ^ 32 + n / 32 ^ k
    tset t key (tget t key + 1)) h.counters }

/-- The vault engine may access a context's vault: not tainted, and its root is held (R249). -/
def State.vaultOk (s : State) (c : Nat) : Bool := !s.on (VLT_VAULT_TAINTED (vltPg c)) && s.hbm.roots.contains c

/-! ### Region registers (R244, R245) -/

/-- Two ranges of units overlap. -/
def unitsOverlap (b1 n1 b2 n2 : Nat) : Bool := decide (0 < n1) && decide (0 < n2) && decide (b1 < b2 + n2) && decide (b2 < b1 + n1)

/-- Every defined region with its owner: context and class less 1, or 16 and the system region. -/
def State.allRegions (s : State) : List (Nat × Nat × Nat × Nat) :=
  (contexts.flatMap fun c => (List.range 5).filterMap fun k =>
    if s.on (VLT_REG_VALID (vltPg c) k) then some (c, k, s.rd (VLT_REG_BASE (vltPg c) k), s.rd (VLT_REG_SIZE (vltPg c) k)) else none) ++
  ([0, 1].filterMap fun k => if s.on (VLT_SYSREG_VALID k) then some (16, k, s.rd (VLT_SYSREG_BASE k), s.rd (VLT_SYSREG_SIZE k)) else none)

/-- A write of a region register is ignored (R245); a write that leaves the region undefined has no range. -/
def State.regionBad (s : State) (c k base size : Nat) (valid : Bool) : Bool :=
  (valid && s.allRegions.any fun r => !(r.1 == c && r.2.1 == k) && unitsOverlap base size r.2.2.1 r.2.2.2) ||
  (valid && decide (2232 < base + size)) ||
  (decide (c < 16) && s.rd (CTX_STAT_STATE (ctxPg c)) != 0) ||
  (c == 16 && k == 1 && size != 16 / max 1 s.mdies)

/-- A write of a region register (R245, R262, R263). -/
def State.regionReg (s : State) (c k v : Nat) : State :=
  let valid := bit v 63
  let size := bits v 27 16
  let base := bits v 11 0
  if s.mdies = 0 then s
  else if s.regionBad c k base size valid then s.wr VLT_STAT_REG_ERR 1
  else if c < 16 then
    let pg := vltPg c
    let key := s.regionKey c (k + 1)
    let s := ((s.wr (VLT_REG_VALID pg k) (b2n valid)).wr (VLT_REG_SIZE pg k) size).wr (VLT_REG_BASE pg k) base
    let s := s.setHbm fun h => { h with fills := h.fills.filter (· != key) }
    if k = 0 then s.showVault c else s
  else ((s.wr (VLT_SYSREG_VALID k) (b2n valid)).wr (VLT_SYSREG_SIZE k) size).wr (VLT_SYSREG_BASE k) base

/-- VLT_REG_WRITE (R245). -/
def execVltRegWrite (ctx k : Nat) (value : Word) (s : State) : Out :=
  .next (if (ctx < 16 ∧ k < 5) ∨ (ctx = 16 ∧ k < 2) then s.regionReg ctx k value.toNat else s)

/-! ### Fill (R248) -/

/-- A whole region is zeros under its present keys. -/
def State.fillRegion (s : State) (c k : Nat) : State :=
  match s.region c k with
  | none => s
  | some r =>
    let lo := r.1 * 2 ^ 26
    let hi := (r.1 + r.2) * 2 ^ 26
    let key := s.regionKey c k
    s.setHbm fun h => { h with
      mem := h.mem.filter (fun e => !(decide (lo ≤ e.1 % 2 ^ 40) && decide (e.1 % 2 ^ 40 < hi)))
      sealKey := h.sealKey.filter (fun e => !(decide (lo ≤ e.1 % 2 ^ 32 * 256) && decide (e.1 % 2 ^ 32 * 256 < hi)))
      fills := if h.fills.contains key then h.fills else h.fills ++ [key] }

/-- GO (R248, R263): refused while the context has an armed timetable, and for a class that the fill does not write. -/
def State.fillGo (s : State) (c : Nat) : State :=
  let pg := vltPg c
  let k := s.rd (VLT_FILL_CLASS pg)
  if s.on (VLT_FILL_BUSY pg) then s
  else if s.armed c || decide (k < 2) || decide (5 < k) || (s.region c k).isNone then s.wr (VLT_FILL_ERR pg) 1
  else s.wr (VLT_FILL_BUSY pg) 1

/-- VLT_FILL_GO (R248). -/
def execVltFillGo (ctx : Nat) (s : State) : Out := .next (s.fillGo ctx)

/-- VLT_FILL_DONE (R248, R274): the host's fill, or step 8 of a release. -/
def execVltFillDone (ctx : Nat) (s : State) : Out :=
  .next (
    let pg := vltPg ctx
    let s := if s.on (CTX_STAT_FILLING (ctxPg ctx)) then
        ([2, 3, 4, 5].foldl (fun s k => s.fillRegion ctx k) s).wr (CTX_STAT_FILLING (ctxPg ctx)) 0
      else s
    if s.on (VLT_FILL_BUSY pg) then
      ((s.fillRegion ctx (s.rd (VLT_FILL_CLASS pg))).wr (VLT_FILL_BUSY pg) 0).wr (VLT_FILL_DONE pg) 1
    else s)

/-! ### Optimizer layout and sets (R250 to R253) -/

/-- Slots of an M-die under a layout. -/
def State.slotsFor (s : State) (c moments z : Nat) : Nat :=
  match s.region c 3 with
  | some r => (r.2 * 2 ^ 26 - 2 ^ 24) / (65536 * (4 + moments * z))
  | none => 0

/-- Tiles that the fullest die holds. -/
def State.tilesMost (s : State) (n : Nat) : Nat := ceilDiv n (max 1 s.mdies)

/-- P1 and P2 of every set take 1.0 (R253). -/
def State.resetProducts (s : State) (c : Nat) : State :=
  (List.range 4).foldl (fun s k => (s.wr (VLT_OPT_PROD_P1 (vltPg c) k) 0x3F800000).wr (VLT_OPT_PROD_P2 (vltPg c) k) 0x3F800000) s

/-- The tile map of a context is reset (R251). -/
def State.resetMap (s : State) (c : Nat) : State :=
  s.setHbm fun h => { h with
    tileMap := tdrop (fun k => k / 2 ^ 20 / 2 == c) h.tileMap
    selector := tdrop (fun k => k / 4 == c) h.selector
    selStep := tdrop (fun k => k / 4 == c) h.selStep
    pending := h.pending.filter fun x => x.1 != c
    mapBad := h.mapBad.filter (· != c) }

/-- A split optimizer state is whole again: the host has restored it (R398). -/
def State.unsplit (s : State) (c : Nat) : State :=
  (s.setCtx c fun x => { x with split := false }).setTtb c fun t => { t with updateAt := 0 }

/-- A write of VLT_OPTLAYOUT (R250, R251, R253, R398). -/
def State.optLayout (s : State) (c v : Nat) : State :=
  let pg := vltPg c
  let n := bits v 63 44
  let mo := bits v 1 0
  let slots := s.slotsFor c mo (if bit v 2 then 2 else 4)
  if s.armed c || mo == 3 || decide (slots < s.tilesMost n) then s
  else
    let s := ((s.wr (VLT_OPTLAYOUT_TILES pg) n).wr (VLT_OPTLAYOUT_MFMT pg) (b2n (bit v 2))).wr (VLT_OPTLAYOUT_MOMENTS pg) mo
    (((s.wr (VLT_OPTLAYOUT_SPARE_MIN pg) (slots - s.tilesMost n)).resetMap c).resetProducts c).unsplit c

/-- VLT_OPTLAYOUT_WRITE (R251). -/
def execVltOptlayoutWrite (ctx : Nat) (value : Word) (s : State) : Out := .next (if ctx < 16 then s.optLayout ctx value.toNat else s)

/-- A write of a register of an optimizer set (R252, R263). -/
def State.optSet (s : State) (c k reg v : Nat) : State :=
  let pg := vltPg c
  match reg with
  | 0 => if s.armed c then s else (s.wr (VLT_OPT_CFG_VALID pg k) (bits v 63 63)).wr (VLT_OPT_CFG_OPT pg k) (bits v 33 32)
  | 1 => (s.wr (VLT_OPT_LRWD_LR pg k) (bits v 63 32)).wr (VLT_OPT_LRWD_WD pg k) (bits v 31 0)
  | 2 => if s.armed c then s else (s.wr (VLT_OPT_BETA_B1 pg k) (bits v 63 32)).wr (VLT_OPT_BETA_B2 pg k) (bits v 31 0)
  | 3 => if s.armed c then s else s.wr (VLT_OPT_EPS_EPS pg k) (bits v 31 0)
  | 4 => if s.armed c then s else (s.wr (VLT_OPT_PROD_P1 pg k) (bits v 63 32)).wr (VLT_OPT_PROD_P2 pg k) (bits v 31 0)
  | _ => s

/-- VLT_OPT_SET_WRITE (R252). -/
def execVltOptSetWrite (ctx set reg : Nat) (value : Word) (s : State) : Out :=
  .next (if ctx < 16 ∧ set < 4 then s.optSet ctx set reg value.toNat else s)

/-! ### The window (R263) -/

/-- M-die and M-address of a byte offset of the selected region, none beyond it or for a class that the window does not reach. -/
def State.winAddr (s : State) (c k o : Nat) : Option (Nat × Nat) :=
  match s.region c k with
  | none => none
  | some r =>
    if k = 3 then
      let t := o / max 1 (s.tileBytes c)
      if t < s.tiles c then some (s.tileDie t, s.slotAddr c (s.slotOf c t) + o % max 1 (s.tileBytes c)) else none
    else if 2 ≤ k ∧ k ≤ 5 ∧ o < s.regionBytes r.2 then some (s.regionAddr r.1 o) else none

/-- The selected class and the offset of word `n`. -/
def State.winSel (s : State) (c n : Nat) : Nat × Nat := (s.rd (VLT_WIN_SEL_CLASS (vltPg c)), s.rd (VLT_WIN_SEL_OFFSET (vltPg c)) + 8 * n)

/-- A read of the window: its value, whether the operation succeeds, and the state (R248, R263). -/
def State.vltWinRead (s : State) (c n : Nat) : Nat × Bool × State :=
  let w := s.winSel c n
  match s.winAddr c w.1 w.2 with
  | none => (0, true, s)
  | some a =>
    if s.sectorGood a.1 a.2 (s.regionKey c w.1) then
      (leNat (mread s.hbm.mem (hbmKey a.1 a.2) 8), true, s.bump (HBC_RD_BYTES (stackPg a.1 (a.2 / 256))) 8)
    else (0, false, s.tagFail a.1 (a.2 / 256) (.window c))

/-- A write of the window: whether it succeeds; it verifies the sector that it changes (R247). -/
def State.vltWinWrite (s : State) (c n v : Nat) : Bool × State :=
  let w := s.winSel c n
  match s.winAddr c w.1 w.2 with
  | none => (true, s)
  | some a =>
    let key := s.regionKey c w.1
    if s.sectorGood a.1 a.2 key then
      (true, ((leBytes 8 v).zipIdx).foldl (fun s b => s.hbmPut a.1 (a.2 + b.2) key b.1) s)
    else (false, s.tagFail a.1 (a.2 / 256) (.window c))

/-- VLT_WIN_ACCESS (R248, R263). -/
def execVltWinAccess (ctx n : Nat) (value : Option Word) (s : State) : Out :=
  .next (match value with
    | some v => (s.vltWinWrite ctx n v.toNat).2
    | none =>
      let r := s.vltWinRead ctx n
      r.2.2.emit (.value .dz8 (vltPg ctx + 0x800 + 8 * n) (word r.1)))

end Sys2Proof.Machine
end

