-- ==== Sys2Proof/Machine/Sess.lean ====
section
/-! DEFINITION. Beyjo sessions and mail slots as named operations: looking up, closing, posting results (R324, R328, R331, R338
to R342, R349). -/

namespace Sys2Proof.Machine

/-- The session that holds an index, open or held by a CHALLENGE. -/
def State.sessAt (s : State) (i : Nat) : Option Sess := s.beyjo.sessions.find? fun x => x.index == i

/-- The open session of an index. -/
def State.openSess (s : State) (i : Nat) : Option Sess := (s.sessAt i).filter (·.isOpen)

/-- The session that a SESSION field names: index and generation both fit (R325, R331). -/
def State.sessNamed (s : State) (session : Nat) : Option Sess :=
  s.beyjo.sessions.find? fun x => x.index == session % 64 && x.gen == session / 64

/-- The SESSION field of a session. -/
def Sess.id (x : Sess) : Nat := x.gen * 64 + x.index

/-- Generation of an index. -/
def State.genOf (s : State) (i : Nat) : Nat := tget s.beyjo.gens i

/-- Updates the session of an index. -/
def State.setSess (s : State) (i : Nat) (f : Sess → Sess) : State :=
  s.setBeyjo fun b => { b with sessions := b.sessions.map fun x => if x.index == i then f x else x }

/-- Open sessions, and those of a role and context. -/
def State.openCount (s : State) (p : Sess → Bool) : Nat := (s.beyjo.sessions.filter fun x => x.isOpen && p x).length

/-- Shows the number of open sessions (R351). -/
def State.showSess (s : State) : State := s.wr BYJ_STAT_OPEN (s.openCount fun _ => true)

/-! ### Mail slots (R338) -/

/-- Word of the sync window of C0 that holds word `w` of a slot. -/
def slotWord (i n w : Nat) : Nat := (0x180000 + i * 0x800 + n * 0x80) / 8 + w

/-- Word `w` of a mail slot. -/
def State.slotGet (s : State) (i n w : Nat) : Nat := s.syncGet 0 (slotWord i n w)

/-- Writes word `w` of a mail slot. -/
def State.slotPut (s : State) (i n w v : Nat) : State := s.syncPut 0 (slotWord i n w) v

/-- STATE and CODE of a control word. -/
def slotState (x : Nat) : Nat := bits x 63 56
def slotCode (x : Nat) : Nat := bits x 55 48

/-- The control word of a slot. -/
def State.control (s : State) (i n : Nat) : Nat := s.slotGet i n 15

/-- A slot is TAKEN (R339). -/
def State.taken (s : State) (i n : Nat) : Bool := slotState (s.control i n) == 2

/-- A slot is TAKEN with a command code: a command row may run on it. -/
def State.takenFor (s : State) (i n code : Nat) : Bool := s.taken i n && slotCode (s.control i n) == code

/-- A control word with another STATE and RESULT. -/
def withResult (x st res : Nat) : Nat := st * 2 ^ 56 + slotCode x * 2 ^ 48 + res * 2 ^ 40 + x % 2 ^ 40

/-- Clears the slots of an index (R338). -/
def State.clearSlots (s : State) (i : Nat) : State :=
  let lo := slotWord i 0 0
  (s.setTile fun t => { t with
    sync := t.sync.filter (fun e => !(decide (lo ≤ e.1) && decide (e.1 < lo + 256)))
    syncBad := t.syncBad.filter (fun k => !(decide (lo ≤ k) && decide (k < lo + 256))) }).wr (MSL_SESS_TAKEN (mslPg i)) 0

/-- A mail command ends: results, control word, MAIL record and counters; nothing but the counters for a session that has closed
(R339, R349). -/
def State.mailEnd (s : State) (i n : Nat) (ok : Bool) (res : Nat) (words : List Nat) : State :=
  let s := if ok then s.bump MSL_COUNT_DONE 1 else s.bump MSL_COUNT_REJECTED 1
  let s := s.setBeyjo fun b => { b with running := b.running.filter fun r => !(r.1 == i && r.2.1 == n) }
  match s.openSess i with
  | none => s
  | some _ =>
    let s := ((words.take 15).zipIdx).foldl (fun s w => s.slotPut i n w.2 w.1) s
    let c := withResult (s.control i n) (if ok then 3 else 4) res
    let s := (s.slotPut i n 15 c).wr (MSL_SESS_TAKEN (mslPg i)) (setBit (s.rd (MSL_SESS_TAKEN (mslPg i))) n false)
    s.notifyMail i n c

/-- A mail command is DONE with RESULT OK. -/
def State.mailOk (s : State) (i n : Nat) (words : List Nat) : State := s.mailEnd i n true 0 words

/-- A mail command is REJECTED. -/
def State.mailReject (s : State) (i n res : Nat) (words : List Nat) : State := s.mailEnd i n false res words

/-- The command of a slot goes on after this step (R342). -/
def State.mailRuns (s : State) (i n code : Nat) : State :=
  s.setBeyjo fun b => { b with running := b.running ++ [(i, n, code)] }

/-- A command is already running for another slot (R342). -/
def State.mailBusy (s : State) (code : Nat) : Bool := s.beyjo.running.any fun r => r.2.2 == code

/-! ### Closing (R331, R349) -/

/-- A command that a closing session posted goes on without a slot to answer in. -/
def State.orphanMail (s : State) (i : Nat) : State :=
  let keep := fun (m : Option (Nat × Nat)) => m.filter fun x => x.1 != i
  let s := s.setBeyjo fun b => { b with running := b.running.map fun r => if r.1 == i then (64, r.2) else r }
  let s := s.setRst fun r => { r with
    dump := r.dump.map (fun d => { d with mail := keep d.mail })
    remaps := r.remaps.map (fun m => { m with mail := keep m.mail }) }
  s.setPair fun q => { q with handover := q.handover.map fun h => if h.session = i then { h with session := 64 } else h }

/-- A session closes: its index takes a new generation, its slots are cleared, its records and open REQUESTs go (R331, R338,
R349). -/
def State.closeSess (s : State) (i : Nat) : State :=
  match s.sessAt i with
  | none => s
  | some x =>
    let s := s.setBeyjo fun b => { b with
      sessions := b.sessions.filter (fun y => y.index != i)
      gens := tset b.gens i ((x.gen + 1) % 2 ^ 26)
      openReqs := b.openReqs.filter fun r => r.index != i }
    ((s.orphanMail i).clearSlots i).showSess

/-- Every session that `p` selects closes, by rising index. -/
def State.closeWhere (s : State) (p : Sess → Bool) : State :=
  (sortBy (fun a b => decide (a < b)) ((s.beyjo.sessions.filter p).map (·.index))).foldl (fun s i => s.closeSess i) s

/-- Credentials that `p` selects are erased (R328). -/
def State.dropCreds (s : State) (p : Cred → Bool) : State := s.setBeyjo fun b => { b with creds := b.creds.filter fun c => !p c }

/-- The CAK is withdrawn: MKA and the secure associations end, and every Beyjo session closes (R324). -/
def State.withdrawCak (s : State) : State :=
  let s := ((s.wr HPT_STAT_MKA 0).wr HPT_STAT_MACSEC 0).setBeyjo fun b => { b with sak := none }
  (s.setRot fun r => { r with cak := none }).closeWhere fun _ => true

end Sys2Proof.Machine
end

