-- ==== Sys2Proof/Machine/Trust.lean ====
section
/-! DEFINITION. The root of trust as named operations: SPDM answers, signatures and sessions, key records, attestation of endpoints
and deliveries, tamper, lifecycle, guardians (R284 to R319). -/

namespace Sys2Proof.Machine

/-- The first `n` bytes of a list, zeros after its end. -/
def fit (n : Nat) (l : List Byte) : List Byte := (l ++ List.replicate n 0).take n

/-- Bytes as numbers. -/
def nats (l : List Byte) : List Nat := l.map (·.toNat)

/-! ### SPDM answers (R291, R292, R327; error codes of SPDM, log entry 29) -/

def eInvalidRequest : Nat := 0x01
def eInvalidSession : Nat := 0x02
def eBusy : Nat := 0x03
def eUnexpected : Nat := 0x04
def eDecrypt : Nat := 0x06
def eUnsupported : Nat := 0x07
def eSessionLimit : Nat := 0x0A
def eTooLarge : Nat := 0x0E
def eLargeResponse : Nat := 0x0F

/-- An ERROR response to a request. -/
def State.spdmErr (s : State) (sess code err : Nat) : State := (s.frame (.spdm sess 0x7F [err, code])).bump FRK_SPDM_ERRORS 1

/-- The lowest handle that no large response has. -/
def State.newHandle (s : State) : Nat := ((List.range 256).find? fun h => !(s.rot.chunksOut.any fun c => c.1 == h)).getD 0

/-- A response: one above the transfer size is kept for CHUNK_GET (R327). -/
def State.spdmReply (s : State) (sess code : Nat) (words : List Nat) : State :=
  if words.length ≤ 8920 then s.frame (.spdm sess code words)
  else
    let h := s.newHandle
    ((s.setRot fun r => { r with chunksOut := r.chunksOut ++ [(h, words)] }).frame (.spdm sess 0x7F [eLargeResponse, code, h])).bump
      FRK_SPDM_ERRORS 1

/-- The SPDM session of an ID. -/
def State.spdm (s : State) (id : Nat) : Option SpdmSess := s.rot.sessions.find? fun x => x.id == id

/-- A request outside any session, or in a session that the RoT holds. -/
def State.spdmOk (s : State) (sess : Nat) : Bool := sess == 0 || (s.spdm sess).isSome

/-- Updates an SPDM session. -/
def State.setSpdm (s : State) (id : Nat) (f : SpdmSess → SpdmSess) : State :=
  s.setRot fun r => { r with sessions := r.sessions.map fun x => if x.id == id then f x else x }

/-- Shows the number of SPDM sessions and of waiting signatures (R318). -/
def State.showRot (s : State) : State :=
  (s.wr FRK_STAT_SESSIONS s.rot.sessions.length).wr FRK_STAT_QUEUE (s.rot.signQ.length - 1)

/-- An answer inside the rules of R292: `f` where the session fits, ERROR InvalidSession else. -/
def State.inSpdm (s : State) (sess code : Nat) (f : State → State) : State :=
  if s.spdmOk sess then f s else s.spdmErr sess code eInvalidSession

/-- A signature under the AK is asked for; ERROR Busy before AK_READY and beyond 16 requests (R290, R291). -/
def State.askSign (s : State) (sess code : Nat) (content : List Nat) : State :=
  if !s.on FRK_STAT_AK_READY || decide (16 ≤ s.rot.signQ.length) then s.spdmErr sess code eBusy
  else (((s.setRot fun r => { r with signQ := r.signQ ++ [(⟨sess, code, content⟩ : SignReq)] }).wr FRK_STAT_BUSY 1)).showRot

/-- The 17,088 bytes of an AK signature over some content. -/
def State.akSign (s : State) (content : List Nat) : List Nat :=
  nats (fit 17088 (Config.slhSign s.rot.ak (content.map fun x => BitVec.ofNat 8 x)))

/-! ### Measurements (R294 to R296) -/

/-- Digest of measurement index 1 to 7, none where the part lacks it. -/
def State.meas (s : State) (i : Nat) : Option Nat :=
  if i = 5 ∧ s.mdies = 0 then none else if 1 ≤ i ∧ i ≤ 7 then s.rot.measured[i - 1]? else none

/-- The state block (R295). -/
def State.stateBlock (s : State) : List Byte :=
  leBytes 2 1 ++ leBytes 1 (s.rd LCS_STAT_STATE) ++ leBytes 1 (s.rd LCS_PART_PART) ++
  leBytes 1 (s.rd FRK_STAT_UPDATE + 2 * s.rd FRK_STAT_STAGED_VALID + 4 * s.rd FRK_STAT_TAMPER + 8 * b2n s.active) ++
  leBytes 1 (s.rd FRK_STAT_RESET) ++ leBytes 1 (s.rd FRK_STAT_GUARD_BAD) ++ leBytes 1 0 ++ leBytes 4 (s.rd LCS_TAMPER_COUNT) ++
  leBytes 4 0 ++ leBytes 8 s.time.beat ++ leBytes 32 s.rot.staged ++
  (if s.boot.rod.isSome then sha256 s.boot.rodBytes else leBytes 32 0) ++ leBytes 32 s.rot.deviceId ++ leBytes 8 0

/-- Records of a context. -/
def State.recsOf (s : State) (c : Nat) : List KeyRec := s.rot.records.filter fun r => r.ctx == c

/-- Bitmap of the key IDs held for a context (R296, R298). -/
def State.keyMap (s : State) (c : Nat) : Nat := (s.recsOf c).foldl (fun m r => setBit m r.keyId true) 0

/-- A context block (R296). -/
def State.ctxBlock (s : State) (c : Nat) : List Byte :=
  let bound := s.on (CTX_STAT_BOUND (ctxPg c))
  leBytes 1 (s.rd (CTX_STAT_STATE (ctxPg c))) ++
  leBytes 1 (b2n bound + 2 * s.rd (CTX_STAT_TENANT_CLOSED (ctxPg c)) + 4 * s.rd (VLT_VAULT_TAINTED (vltPg c))) ++
  leBytes 1 (s.keyMap c) ++ leBytes 1 0 ++ leBytes 4 (s.rd (VLT_GEN_GEN (vltPg c))) ++
  leBytes 32 (if bound then (s.ctx c).owner else 0) ++ leBytes 8 0

/-- A session sees the context block: the admission session, or the owner's (R296). -/
def State.seesCtx (s : State) (sess c : Nat) : Bool :=
  decide (c < 16) && ((s.rot.admission == some sess) ||
    match s.spdm sess with
    | some x => s.on (CTX_STAT_BOUND (ctxPg c)) && x.root == some (s.ctx c).owner
    | none => false)

/-- One measurement block, none where the index is absent for the requester. -/
def State.measBlock (s : State) (sess i : Nat) : Option (List Byte) :=
  if i ≤ 7 then (s.meas i).map fun d => leBytes 1 i ++ leBytes 32 d
  else if i = 0x20 then some (leBytes 1 i ++ s.stateBlock)
  else if 0x30 ≤ i ∧ s.seesCtx sess (i - 0x30) then some (leBytes 1 i ++ s.ctxBlock (i - 0x30))
  else none

/-! ### Sessions end (R291, R297, R328, R331) -/

/-- The admission session ends: the CAK is withdrawn, ADMITTED clears, every credential but OWNER goes (R297, R324, R328). -/
def State.endAdmission (s : State) : State :=
  (((s.setRot fun r => { r with admission := none }).wr FRK_STAT_ADMITTED 0).dropCreds fun c => c.role != 3).withdrawCak

/-- An SPDM session ends (R297, R328, R331). -/
def State.endSpdm (s : State) (id : Nat) : State :=
  match s.spdm id with
  | none => s
  | some _ =>
    let s := s.setRot fun r => { r with
      sessions := r.sessions.filter (fun x => x.id != id)
      signQ := match r.signQ with
        | [] => []
        | q :: qs => q :: qs.filter fun y => y.sess != id }
    let s := (s.dropCreds fun c => c.role == 3 && c.spdm == id).closeWhere fun x => x.role == 3 && x.spdm == id
    (if s.rot.admission = some id then s.endAdmission else s).showRot

/-- Every SPDM session ends (R313, R314). -/
def State.endAllSpdm (s : State) : State := (s.rot.sessions.map (·.id)).foldl (fun s i => s.endSpdm i) s

/-! ### Vendor commands (R298, R301) -/

/-- The answer to a vendor command: its code, a status and further bytes. -/
def State.vendor (s : State) (sess cmd status : Nat) (rest : List Nat) : State :=
  s.spdmReply sess 0xFE ([cmd % 256, cmd / 256, status] ++ rest)

/-- A key command is refused (R301, R318). -/
def State.vendorNo (s : State) (sess cmd c status : Nat) : State :=
  (((s.bump FRK_RELEASE_REFUSED 1).wr FRK_RELEASE_LAST_CODE status).wr FRK_RELEASE_LAST_CTX c).vendor sess cmd status []

/-- The root-certificate digest of a session's mutually authenticated requester. -/
def State.rootOf (s : State) (sess : Nat) : Option Nat :=
  match s.spdm sess with
  | some x => if x.finished then x.root else none
  | none => none

/-- The context is ASSIGNED and bound to the requester (R298, R300). -/
def State.ownerOk (s : State) (sess c : Nat) : Bool :=
  match s.rootOf sess with
  | some r => decide (c < 16) && s.rd (CTX_STAT_STATE (ctxPg c)) == 2 && s.on (CTX_STAT_BOUND (ctxPg c)) && (s.ctx c).owner == r
  | none => false

/-- The record of a context and key ID. -/
def State.keyRec (s : State) (c k : Nat) : Option KeyRec := s.rot.records.find? fun r => r.ctx == c && r.keyId == k

/-- The unit is SEALED and no transition waits for its reset (R300, R313). -/
def State.sealedNow (s : State) : Bool := s.rd LCS_STAT_STATE == 3 && !s.on LCS_STAT_TRANSITION_DONE

/-- M-dies and, for head data, C-dies that a key command involves (R316). -/
def State.keyDies (s : State) (head : Bool) : List Nat :=
  (List.range s.mdies).map (fun m => 4 + m) ++ (if head then (List.range s.cdies).map (fun d => 2 + d) else [])

/-- Some of the dies shows in a bitmap. -/
def anyDie (map : Nat) (dies : List Nat) : Bool := dies.any fun d => bit map d

/-- The first refusal in the order of R301's codes (the order is the model's, log entry 30). -/
def firstCode (l : List (Bool × Nat)) : Option Nat := (l.find? fun x => x.1).map (·.2)

/-- A KEY_RELEASE that is malformed (R300). -/
def keyReqBad (q : KeyReq) : Bool :=
  decide (7 < q.keyId) || !(decide (1 ≤ q.na) && decide (q.na ≤ 4) && decide (1 ≤ q.nh) && decide (q.nh ≤ 8) && decide (1 ≤ q.nf) &&
    decide (q.nf ≤ 8)) || q.digests.length != q.na + q.nh + q.nf

/-- The record that a KEY_RELEASE stores. -/
def keyReqRec (q : KeyReq) (owner : Nat) : KeyRec where
  ctx := q.ctx
  keyId := q.keyId
  head := q.head
  pair := q.pair
  paired := false
  loaded := true
  key := q.key
  partner := q.partner
  owner := owner
  anchors := q.digests.take q.na
  hostFw := (q.digests.drop q.na).take q.nh
  agentFw := q.digests.drop (q.na + q.nh)

/-- A standby stores a record from its partner in the shelf of C0, whose Pigeonholes wake for it and return to retention; CPWR_EN0 falls
again but on DZ8-E (R232, R308, R521). Its key is loaded after a takeover. -/
def State.pairStore (s : State) (q : KeyReq) (owner : Nat) : State :=
  let s := if s.tile.shelfCut.contains 0 then (s.wipeDone 0).setTile fun t => { t with shelfCut := t.shelfCut.filter (· != 0) } else s
  s.setRot fun r => { r with records := r.records.filter (fun x => !(x.ctx == q.ctx && x.keyId == q.keyId)) ++
    [({ keyReqRec q owner with paired := true, loaded := false } : KeyRec)] }

/-- Puts a key command into the wait for a die in reset (R316). -/
def State.keyWait (s : State) (w : WaitCmd) : State := s.setRot fun r => { r with waiting := r.waiting ++ [w] }

/-- KEY_RELEASE (R300, R301, R316). -/
def State.keyRelease (s : State) (sess : Nat) (q : KeyReq) : State :=
  let dies := s.keyDies q.head
  match firstCode [(!s.sealedNow, 0x01), (s.on FRK_STAT_UPDATE, 0x02), (s.on FRK_STAT_TAMPER, 0x04), (!s.ownerOk sess q.ctx, 0x05),
      (decide (8 ≤ (s.recsOf q.ctx).length) || decide (64 ≤ s.rot.records.length), 0x06), (keyReqBad q, 0x07), ((s.keyRec q.ctx q.keyId).isSome, 0x08),
      (anyDie (s.rd FRK_STAT_GUARD_BAD) dies, 0x0A)] with
  | some code => s.vendorNo sess 2 q.ctx code
  | none =>
    if anyDie (s.rd FRK_STAT_RESET) dies then s.keyWait (.release sess q)
    else
      let s := s.setRot fun r => { r with records := r.records ++ [keyReqRec q ((s.rootOf sess).getD 0)] }
      ((s.bump FRK_RELEASE_RELEASED 1).dueGen).vendor sess 2 0 []

/-! ### The delivery table (R305, R318) -/

/-- FRK_EPSTAT word of a context and LID. -/
def State.epWord (s : State) (c lid : Nat) : Nat := tget s.rot.delivered (c * 4096 + lid)

/-- Bitmap of the keys that a LID holds. -/
def State.epKeys (s : State) (c lid : Nat) : Nat := bits (s.epWord c lid) 55 48

/-- Writes a FRK_EPSTAT word. -/
def State.setEp (s : State) (c lid code keys beat : Nat) : State :=
  s.setRot fun r => { r with delivered := tset r.delivered (c * 4096 + lid) (code * 2 ^ 56 + keys % 256 * 2 ^ 48 + beat % 2 ^ 48) }

/-- LIDs of a context that hold a key. -/
def State.holders (s : State) (c k : Nat) : List Nat :=
  (s.rot.delivered.filter fun e => e.1 / 4096 == c && bit e.2 (48 + k)).map fun e => e.1 % 4096

/-- The RoT is delivering or about to deliver to a LID. -/
def State.delivering (s : State) (c lid : Nat) : Bool :=
  s.rot.toDeliver.any (fun x => x.1 == c && x.2.2.1 == lid) || s.rot.evidence.any (fun e => e.ctx == c && e.lid == lid) ||
    s.rot.wraps.any fun w => w.ctx == c && w.lid == lid && !w.revoke

/-- A DELIVER whose LIDs have all ended is answered: one delivery code for each (R298, R305). -/
def State.answerDelivers (s : State) : State :=
  let ended := fun (x : Nat × Nat × Nat × Nat × Nat) =>
    (List.range x.2.2.2.2).all fun i => !s.delivering x.2.1 (x.2.2.2.1 + i)
  (s.rot.delivers.filter ended).foldl (fun s x =>
    (s.setRot fun r => { r with delivers := r.delivers.filter (· != x) }).vendor x.1 5 0
      ((List.range x.2.2.2.2).map fun i => bits (s.epWord x.2.1 (x.2.2.2.1 + i)) 63 56)) s

/-- The delivery of a key to a LID ends with a code of R301 (R304, R305, R318, R344). -/
def State.deliveryEnd (s : State) (c k lid code : Nat) (auto : Bool) : State :=
  let w := s.epWord c lid
  let s := if code = 0 then (s.setEp c lid 0 (setBit (bits w 55 48) k true) s.time.beat).bump FRK_DELIVER_DELIVERED 1
    else (s.setEp c lid code (bits w 55 48) (bits w 47 0)).bump FRK_DELIVER_REFUSED 1
  let s := if auto then s.setRot fun r => { r with ended := r.ended ++ [(c, lid, code)] } else s
  (s.notifyKey c lid code).answerDelivers

/-! ### Messages to agents (R303, R304) -/

/-- A management message in cells of 48 bytes (R62, R65). -/
def State.sendMessage (s : State) (d : Site) (dst vc type seq : Nat) (bs : List Byte) : State :=
  let n := ceilDiv bs.length 48
  (List.range n).foldl (fun s i =>
    s.send d (s.newCell d dst vc type seq (if i + 1 = n then 8 else 0) (48 * i) 0 (wordsOf ((bs.drop (48 * i)).take 48)))) s

/-- Bytes 0 to 39 of a KEYWRAP message. -/
def wrapHead (c k : Nat) (revoke : Bool) (serial nonce : Nat) : List Byte :=
  leBytes 8 (1 + c * 2 ^ 16 + k * 2 ^ 20 + b2n revoke * 2 ^ 23 + serial * 2 ^ 32) ++ leBytes 32 nonce

/-- The wrap key of an ML-KEM shared secret and bytes 0 to 39 of the message (R288). -/
def wrapKey (shared : Nat) (head : List Byte) : Nat := kdf (leBytes 32 shared) (ascii "DZ8-KEYWRAP") head 256

/-- A KEYWRAP message (R304). -/
def wrapMessage (head ek : List Byte) (rnd key : Nat) : List Byte :=
  let r := Config.kemEncap ek rnd
  let wk := wrapKey r.2 head
  let ct := gcmText wk 0 0 (leBytes 32 key)
  head ++ fit 1568 r.1 ++ ct ++ leBytes 16 (gcmTag wk 0 head ct)

/-- Sends a KEYWRAP and reads the agent's key status (R304). -/
def State.sendWrap (s : State) (c k lid fid nonce : Nat) (ek : List Byte) (revoke auto : Bool) : State :=
  let key := if revoke then 0 else match s.keyRec c k with | some r => r.key | none => 0
  let serial := (s.rot.serial + 1) % 2 ^ 32
  let r := s.free
  let s := r.2.setRot fun x => { x with serial := serial, wraps := x.wraps ++ [(⟨c, k, lid, revoke, serial, fid, auto⟩ : WrapWait)] }
  (s.sendMessage .dz8 fid 1 tKEYWRAP (serial % 2 ^ 16) (wrapMessage (wrapHead c k revoke serial nonce) ek r.1 key)).mreq
    fid 1 1 0xE00148 [] none

/-- The same revocation to every LID that holds a key; the nonce and the encapsulation key of a revocation are not stated (R309,
log entry 31). -/
def State.revoke (s : State) (c k : Nat) : State :=
  (s.holders c k).foldl (fun s lid =>
    match s.lidFid c lid with
    | none => s
    | some fid =>
      let r := s.free
      r.2.sendWrap c k lid fid (r.1 % 2 ^ 256) [] true false) s

/-- A nonce of 32 bytes is drawn. -/
def State.drawNonce (s : State) : Nat × State := (s.free.1 % 2 ^ 256, s.free.2)

/-- The request of an endpoint's evidence goes out: its nonce, then GO (R303). -/
def State.requestEvidence (s : State) (fid nonce : Nat) : State :=
  (s.remoteWrite fid 0xE00120 ((List.range 4).map fun i => nonce / 2 ^ (64 * i) % 2 ^ 64)).remoteWrite fid 0xE00140 [1]

/-- Attestation of an endpoint begins: over the fabric, or with a wait for the host's delivery call (R303, R306). -/
def State.beginEvidence (s : State) (c k lid : Nat) (auto : Bool) : State :=
  let s := s.startMode 5 (s.hostMode 5)
  match s.lidFid c lid with
  | none => s.deliveryEnd c k lid 0x19 auto
  | some fid =>
    if s.rot.tampered.contains fid then s.deliveryEnd c k lid 0x1A auto
    else
      let n := s.drawNonce
      let host := s.modeNow 5
      let e : EvReq := ⟨c, k, lid, fid, n.1, 1, 0, host, auto⟩
      let s := n.2.setRot fun r => { r with evidence := r.evidence ++ [e] }
      if host then s else s.requestEvidence fid n.1

/-- Up to 16 endpoints are attested at once; none while an update is in progress (R305, R315, R317). -/
def State.pumpDeliver (s : State) : Nat → State
  | 0 => s
  | n + 1 =>
    match s.rot.toDeliver with
    | [] => s
    | x :: r =>
      if s.on FRK_STAT_UPDATE || decide (16 ≤ s.rot.evidence.length) then s
      else ((s.setRot fun q => { q with toDeliver := r }).beginEvidence x.1 x.2.1 x.2.2.1 x.2.2.2).pumpDeliver n

/-- LIDs of a DELIVER, or of R307, join the deliveries. -/
def State.queueDeliver (s : State) (l : List (Nat × Nat × Nat × Bool)) : State :=
  (s.setRot fun r => { r with toDeliver := r.toDeliver ++ l }).pumpDeliver (s.rot.toDeliver.length + l.length + 1)

/-- The X-die whose port leads to a FID (R316). -/
def State.xdieTo (s : State) (fid : Nat) : Nat := portDie (entPort (tget s.route.active (s.fid * 2 ^ 14 + fid)))

/-- DELIVER (R301, R305, R316). -/
def State.keyDeliver (s : State) (sess c k first count : Nat) : State :=
  let lids := (List.range count).map (first + ·)
  let dies := (lids.filterMap fun l => (s.lidFid c l).map s.xdieTo).dedup
  match firstCode [(!s.sealedNow, 0x01), (s.on FRK_STAT_UPDATE, 0x02), (s.on FRK_STAT_TAMPER, 0x04), (!s.ownerOk sess c, 0x05),
      (decide (7 < k) || count == 0 || decide (4096 < first + count), 0x07), ((s.keyRec c k).isNone, 0x08),
      (anyDie (s.rd FRK_STAT_GUARD_BAD) dies, 0x0A)] with
  | some code => s.vendorNo sess 5 c code
  | none =>
    if anyDie (s.rd FRK_STAT_RESET) dies then s.keyWait (.deliver sess c k first count)
    else
      let s := s.setRot fun r => { r with delivers := r.delivers ++ [(sess, c, k, first, count)] }
      (s.queueDeliver (lids.map fun l => (c, k, l, false))).answerDelivers

/-- Held keys of a LID are delivered again (R307). -/
def State.redeliver (s : State) (c lid : Nat) : State :=
  let keys := s.epKeys c lid
  s.queueDeliver (((s.recsOf c).filter fun r => bit keys r.keyId).map fun r => (c, r.keyId, lid, true))

/-- The checks of R303 on a message, in order: none, or the first delivery code. -/
def evidenceCode (r : KeyRec) (nonce : Nat) (ev : Evidence) (ch : AgentChain) : Option Nat :=
  firstCode [(!ch.ok || !ev.sigOk, 0x11), (!r.anchors.contains ch.anchor, 0x12), (ev.nonce != nonce, 0x13), (ev.tamper, 0x1A),
    (ev.update, 0x16), (ev.reset, 0x17), (!r.agentFw.contains ev.agentFw, 0x14), (!r.hostFw.contains ev.hostFw, 0x15)]

/-- Signatures that verified in a message and its chain of two certificates (R290, R318). -/
def verifiedIn (ev : Evidence) (ch : AgentChain) : Nat := (if ch.ok then 2 else 0) + (if ev.sigOk then 1 else 0)

/-- An attestation leaves the list. -/
def State.dropEvidence (s : State) (e : EvReq) : State := s.setRot fun r => { r with evidence := r.evidence.filter (· != e) }

/-- Its delivery ends with a code, and the next one starts. -/
def State.failEvidence (s : State) (e : EvReq) (code : Nat) : State :=
  let s := (s.dropEvidence e).deliveryEnd e.ctx e.keyId e.lid code e.auto
  s.pumpDeliver (s.rot.toDeliver.length + 1)

/-- Evidence for a delivery has been checked: the code, 0 where the KEYWRAP went out; RESET waits for another request (R303, R304). -/
def State.judge (s : State) (e : EvReq) (nonce : Nat) (ev : Evidence) (ch : AgentChain) : Nat × State :=
  let s := s.bump FRK_SIGN_VERIFIED (verifiedIn ev ch)
  match s.keyRec e.ctx e.keyId with
  | none => (0x08, s.failEvidence e 0x08)
  | some r =>
    match evidenceCode r nonce ev ch with
    | none =>
      let s := (s.dropEvidence e).sendWrap e.ctx e.keyId e.lid e.fid nonce ev.ek false e.auto
      (0, s.pumpDeliver (s.rot.toDeliver.length + 1))
    | some 0x17 =>
      if e.hostCall then (0x17, s.failEvidence e 0x17)
      else (0x17, s.setRot fun q => { q with evidence := q.evidence.map fun x => if x = e then { x with resets := max 1 x.resets } else x })
    | some code =>
      let s := if code = 0x1A then s.setRot fun q => { q with tampered := if q.tampered.contains e.fid then q.tampered else q.tampered ++ [e.fid] } else s
      (code, s.failEvidence e code)

/-- The agent's key status has been read: a key shown confirms its delivery, a key gone its revocation; else the RoT reads again
(R304). -/
def State.keyStatus (s : State) (fid w : Nat) : State :=
  (s.rot.wraps.filter fun x => x.fid == fid).foldl (fun s x =>
    let held := bits w 63 60 == x.ctx && bit w x.keyId
    let drop := fun (s : State) => s.setRot fun r => { r with wraps := r.wraps.filter (· != x) }
    if x.revoke then
      if held then s.mreq fid 1 1 0xE00148 [] none
      else
        let e := s.epWord x.ctx x.lid
        (drop s).setEp x.ctx x.lid (bits e 63 56) (setBit (bits e 55 48) x.keyId false) (bits e 47 0)
    else if held then (drop s).deliveryEnd x.ctx x.keyId x.lid 0 x.auto
    else s.mreq fid 1 1 0xE00148 [] none) s

/-- Records of a context are erased with what they deliver (R309). -/
def State.eraseRecords (s : State) (c : Nat) : State :=
  (s.setRot fun r => { r with
    records := r.records.filter (fun x => x.ctx != c)
    toDeliver := r.toDeliver.filter (fun x => x.1 != c)
    evidence := r.evidence.filter (fun x => x.ctx != c)
    nonces := r.nonces.filter (fun x => x.ctx != c)
    images := r.images.filter (fun x => x.ctx != c)
    delivered := tdrop (fun k => k / 4096 == c) r.delivered }).answerDelivers

/-! ### Vault import (R302) -/

/-- Bytes of an encrypted image of length `n` with its chunk tags. -/
def imageBytes' (n : Nat) : Nat := n + 16 * ceilDiv n 65536

/-- The ranges of an import lie in their regions. -/
def State.importFits (s : State) (q : ImportReq) : Bool :=
  let n := imageBytes' q.len
  decide (q.srcOff + n ≤ s.regionLen q.ctx 4) && decide (q.vaultOff + n ≤ s.rd (VLT_VAULT_DATA_BYTES (vltPg q.ctx))) &&
    match q.dstOff with
    | some o => decide (o + q.len ≤ s.allocLen q.ctx)
    | none => true

/-- VAULT_IMPORT (R301, R302, R316): one import runs at a time, and a vault without its root fails as a replay (R249). -/
def State.vaultImport (s : State) (sess : Nat) (q : ImportReq) : State :=
  let head := match s.keyRec q.ctx q.keyId with | some r => r.head | none => false
  let dies := s.keyDies head
  match firstCode [(!s.sealedNow, 0x01), (s.on FRK_STAT_UPDATE, 0x02), (s.on FRK_STAT_TAMPER, 0x04), (!s.ownerOk sess q.ctx, 0x05),
      (decide (7 < q.keyId) || q.len == 0, 0x07), ((s.keyRec q.ctx q.keyId).isNone, 0x08), (s.on (VLT_VAULT_TAINTED (vltPg q.ctx)), 0x09),
      (anyDie (s.rd FRK_STAT_GUARD_BAD) dies, 0x0A), (!s.importFits q, 0x0B)] with
  | some code => s.vendorNo sess 4 q.ctx code
  | none =>
    if s.rot.importing.isSome || anyDie (s.rd FRK_STAT_RESET) dies then s.keyWait (.vimport sess q)
    else if !s.vaultOk q.ctx then (s.replayFailure q.ctx).vendorNo sess 4 q.ctx 0x09
    else s.setRot fun r => { r with importing := some (sess, q) }

/-- Key commands that waited are tried again, oldest first (R316). -/
def State.runWaiting (s : State) : State :=
  s.rot.waiting.foldl (fun s w => match w with
    | .release sess q => s.keyRelease sess q
    | .vimport sess q => s.vaultImport sess q
    | .deliver sess c k f n => s.keyDeliver sess c k f n) (s.setRot fun r => { r with waiting := [] })

/-- Chunks of an import copied into the vault: ciphertext and tags (R249, R302). -/
def State.importCopy (s : State) (q : ImportReq) (n : Nat) : State :=
  let s := s.regionWrite q.ctx 1 q.vaultOff (s.regionRead q.ctx 4 q.srcOff n)
  (List.range (ceilDiv (q.vaultOff % 256 + n) 256)).foldl (fun s i => s.vaultCount q.ctx (q.vaultOff / 256 + i)) s

/-- The plaintext of the first `k` chunks goes to the allocation (R302). -/
def State.importPlain (s : State) (q : ImportReq) (r : KeyRec) (o k : Nat) : State :=
  (List.range k).foldl (fun s i =>
    let n := min 65536 (q.len - 65536 * i)
    let ct := s.regionRead q.ctx 4 (q.srcOff + 65552 * i) n
    s.allocWrite q.ctx (o + 65536 * i) (gcmText r.key (q.imageId + i * 2 ^ 32) 0 (fit n ct))) s

/-- The tag of chunk `i` of an image verifies under the weight key: the nonce is IMAGE_ID and the index, the additional data L (R302). -/
def State.chunkOk (s : State) (q : ImportReq) (key i : Nat) : Bool :=
  let n := min 65536 (q.len - 65536 * i)
  let bs := fit (n + 16) (s.regionRead q.ctx 4 (q.srcOff + 65552 * i) (n + 16))
  gcmTag key (q.imageId + i * 2 ^ 32) (leBytes 8 q.len) (bs.take n) == leNat (bs.drop n)

/-- The chunks before the first whose tag fails; none passes where the record is gone (R302). -/
def State.goodChunks (s : State) (q : ImportReq) : Nat :=
  match s.keyRec q.ctx q.keyId with
  | none => 0
  | some r =>
    let all := ceilDiv q.len 65536
    ((List.range all).find? fun i => !s.chunkOk q r.key i).getD all

/-- The running import ends (R302). -/
def State.importEnd (s : State) : State :=
  match s.rot.importing with
  | none => s
  | some (sess, q) =>
    let all := ceilDiv q.len 65536
    let k := s.goodChunks q
    let n := if k = all then imageBytes' q.len else 65552 * k
    let s := (s.setRot fun r => { r with importing := none }).importCopy q n
    let s := match q.dstOff, s.keyRec q.ctx q.keyId with
      | some o, some r => if r.head then s.importPlain q r o k else s
      | _, _ => s
    let images := s.rot.images.filter (fun x => !(x.ctx == q.ctx && x.imageId == q.imageId)) ++
      [(⟨q.ctx, q.imageId, q.keyId, q.vaultOff, q.len, false, 0⟩ : VaultImage)]
    let s := if k = all then (s.setRot fun r => { r with images := images }).dueGen else s
    let s := if k = all then s.vendor sess 4 0 (nats (leBytes 4 k))
      else (((s.bump FRK_RELEASE_REFUSED 1).wr FRK_RELEASE_LAST_CODE 0x0B).wr FRK_RELEASE_LAST_CTX q.ctx).vendor sess 4 0x0B (nats (leBytes 4 k))
    s.runWaiting

/-! ### Guardians, tamper, lifecycle -/

/-- The seed of the AK: from the DRS, the measurements 1 to 5 and the lifecycle code (R288, R294). -/
def State.akSeed (s : State) : Nat :=
  kdf (fit 32 Config.drs) (ascii "DZ8-AK") ((s.rot.measured.take 5).flatMap (leBytes 32) ++ leBytes 1 (s.rd LCS_STAT_STATE)) 384

/-- A new AK is derived and its certificate signing begins (R288, R293). -/
def State.newAk (s : State) : State :=
  ((s.setRot fun r => { r with ak := s.akSeed }).wr FRK_STAT_AK_READY 0).wr FRK_STAT_BUSY 1

/-- What is held under the HBM root key is lost with it: the store, and the dumps of a part with M-dies (R289, R313). -/
def State.hbmLost (s : State) : State :=
  (s.setPair fun p => { p with store := [], recv := [], rxBatches := [], rxGen := 0 }).setRst fun r => { r with
    slots := if s.mdies = 0 then r.slots else [] }

/-- The HBM root key of a PACKAGE reset: from the DRS and the lifecycle code, in MANUFACTURE from a fresh random input (R288, R289). -/
def State.newHbmRoot (s : State) : State :=
  let lc := leBytes 1 (s.rd LCS_STAT_STATE)
  let key := fun (k : List Byte) => kdf k (ascii "DZ8-HBM-ROOT") lc 256
  if s.rd LCS_STAT_STATE = 1 then (s.free.2.setRot fun r => { r with hbmRoot := key (leBytes 32 s.free.1) }).hbmLost
  else s.setRot fun r => { r with hbmRoot := key (fit 32 Config.drs) }

/-- The running image of a measurement index takes a digest; a new one of indices 1 to 5 asks for a new AK (R293, R294). -/
def State.measure (s : State) (i d : Nat) : State :=
  if s.rot.measured[i - 1]? = some d then s
  else
    let s := s.setRot fun r => { r with measured := setNth r.measured (i - 1) d }
    if i ≤ 5 then s.newAk else s

/-- Dies of the same kind: X-dies, C-dies, M-dies (R286). -/
def dieKind (d : Nat) : Nat := if d < 2 then 0 else if d < 4 then 1 else 2

/-- A die becomes GUARD_BAD (R286). -/
def State.guardBad (s : State) (die : Nat) : State :=
  (s.wr FRK_STAT_GUARD_BAD (setBit (s.rd FRK_STAT_GUARD_BAD) die true)).detect .dz8 frkPg 0 die none

/-- Records whose dies are all out of reset and good are loaded (R299, R316). -/
def State.reloadKeys (s : State) : State :=
  s.setRot fun r => { r with records := r.records.map fun x =>
    { x with loaded := !anyDie (s.rd FRK_STAT_RESET) (s.keyDies x.head) && !anyDie (s.rd FRK_STAT_GUARD_BAD) (s.keyDies x.head) } }

/-- A guardian's report (R286, R316). -/
def State.guardReport (s : State) (die fw : Nat) : State :=
  let reset := s.rd FRK_STAT_RESET
  let prev := (s.rot.guards.find? fun g => g.1 == die).map (·.2)
  let other := s.rot.guards.any fun g => g.1 != die && dieKind g.1 == dieKind die && g.2 != fw && !bit reset g.1
  let ran := s.rot.measured.getD (if dieKind die = 1 then 3 else 4) 0
  let bad := other || match prev with | some p => p != fw && s.rot.staged != fw && (dieKind die == 0 || ran != fw) | none => false
  let s := s.setRot fun r => { r with guards := r.guards.filter (fun g => g.1 != die) ++ [(die, fw)] }
  let s := s.wr FRK_STAT_RESET (setBit reset die false)
  if bad then s.guardBad die
  else
    let s := if dieKind die = 1 then s.measure 4 fw else if dieKind die = 2 then s.measure 5 fw else s
    s.reloadKeys.runWaiting

/-- Both shelves that the part has are wiped (R232). -/
def State.wipeShelves (s : State) : State := (List.range s.cdies).foldl (fun s d => s.shelfWipe d) s

/-- The session secrets go: every credential, every SPDM session (R313, R314, R328). -/
def State.dropSecrets (s : State) : State := (s.endAllSpdm.dropCreds fun _ => true).setRot fun r => { r with importing := none, waiting := [] }

/-- Fields of LCS_TAMPER by cause. -/
def tamperFld : Nat → Fld
  | 0 => LCS_TAMPER_SUPPLY
  | 1 => LCS_TAMPER_CLOCK
  | 2 => LCS_TAMPER_TEMP
  | 3 => LCS_TAMPER_MESH
  | _ => LCS_TAMPER_PIN

/-- The tamper response (R314); an injected one leaves the fuse. -/
def State.tamper (s : State) (cause : Nat) (injected : Bool) : State :=
  let s := (s.wipeShelves.dropSecrets).setRot fun r => { r with evidence := [], toDeliver := [], delivers := [], nonces := [] }
  let s := ((s.wr (tamperFld cause) 1).wr LCS_TAMPER_LATCHED 1).wr FRK_STAT_TAMPER 1
  if injected then s else s.bump LCS_TAMPER_COUNT 1

/-- A refused write of LCS_CTRL. -/
def State.lcsErr (s : State) (e : Nat) : State := s.wr LCS_STAT_ERR e

/-- The first condition of R313 that a lifecycle write fails, as LCS_STAT.ERR; `tokenOk` is the RMA token's check. -/
def State.lcsCheck (s : State) (confirm : Nat) (allowed tokenOk : Bool) : Option Nat :=
  firstCode [(confirm != 0x4C435354, 1), (contexts.any fun c => s.rd (CTX_STAT_STATE (ctxPg c)) != 0, 2), (s.active, 3), (!tokenOk, 4), (!allowed, 5)]

/-- The transition (R313, R328, R331). -/
def State.lcsTo (s : State) (st : Nat) : State :=
  let s := ((s.wr LCS_STAT_STATE st).wr LCS_STAT_ERR 0).wipeShelves.dropSecrets.hbmLost
  ((s.wr VLT_STAT_KEYS_READY 0).closeWhere fun _ => true).wr LCS_STAT_TRANSITION_DONE 1

/-- The RMA token in the staging slot names this unit and verifies (R313, R448). -/
def State.tokenOk (s : State) : Bool :=
  s.boot.flash.any fun x => x.kind == 7 && x.image.okSig && x.image.deviceId == s.rot.deviceId

end Sys2Proof.Machine
end

