-- ==== Sys2Proof/Machine/Ctx.lean ====
section
/-! DEFINITION. Contexts and slices: assignment, release, owner binding, seed and map (R264 to R277). -/

namespace Sys2Proof.Machine

/-- STATE of a context: 0 FREE, 1 ASSIGNING, 2 ASSIGNED, 3 RELEASING (R282). -/
def State.ctxState (s : State) (c : Nat) : Nat := s.rd (CTX_STAT_STATE (ctxPg c))

/-! ### The checks of ASSIGN (R265) -/

/-- A failed check: its code and the LID of the failure. -/
abbrev AssignErr := Option (Nat × Nat)

/-- The first LID below N that `p` selects, with the code. -/
def State.asgLidErr (s : State) (c code : Nat) (p : Nat → Bool) : AssignErr :=
  ((List.range (s.rd (CTX_SLICE_N (ctxPg c)))).find? p).map fun l => (code, l)

/-- The FID of a LID, 0 where it is not mapped. -/
def State.fidOf (s : State) (c l : Nat) : Nat := (s.lidFid c l).getD 0

/-- SIZE. -/
def State.asgSizeErr (s : State) (c : Nat) : AssignErr :=
  let n := s.rd (CTX_SLICE_N (ctxPg c))
  if n = 0 ∨ 4096 < n then some (2, 0) else s.asgLidErr c 2 fun l => (s.lidFid c l).isNone

/-- MAP: an FID that is no endpoint of the Rod, or is held by two LIDs. -/
def State.mapErr (s : State) (c : Nat) : AssignErr :=
  s.asgLidErr c 3 fun l =>
    let f := s.fidOf c l
    decide (0xE0 ≤ f % 256) || s.theRod.cls f != 1 || (List.range l).any fun k => s.fidOf c k == f

/-- BUSY: a member of another context's slice. -/
def State.busyErr (s : State) (c : Nat) : AssignErr :=
  s.asgLidErr c 4 fun l => contexts.any fun k => k != c && s.ctxState k != 0 && (s.sliceFids k).contains (s.fidOf c l)

/-- The Rod's spare pool of a domain (R267). -/
def State.sparePool (s : State) (d : Nat) : List Nat := (s.theRod.chips.filter fun x => x.spare && x.cls == 1 && x.fid / 256 == d).map (·.fid)

/-- SPARE. -/
def State.spareErr (s : State) (c : Nat) : AssignErr := s.asgLidErr c 5 fun l => (s.sparePool (s.fidOf c l / 256)).contains (s.fidOf c l)

/-- Domains with members of a slice. -/
def State.sliceDomains (s : State) (c : Nat) : List Nat := ((s.sliceFids c).map (· / 256)).dedup

/-- QUOTA: in some domain the quotas of the assigned contexts exceed its pool (R267). -/
def State.quotaErr (s : State) (c : Nat) : AssignErr :=
  let q := fun (k : Nat) => s.rd (CTX_SLICE_SPARE_QUOTA (ctxPg k))
  let total := fun (d : Nat) => ((contexts.filter fun k => (k == c || s.ctxState k == 1 || s.ctxState k == 2) &&
    (s.sliceDomains k).contains d).map q).foldl (· + ·) 0
  if (s.sliceDomains c).any fun d => decide ((s.sparePool d).length < total d) then some (7, 0) else none

/-- HOME: not the active unit of a domain that holds a member. -/
def State.homeErr (s : State) (c : Nat) : AssignErr :=
  let h := s.rd (CTX_SLICE_HOME (ctxPg c))
  if (s.sliceDomains c).contains (h / 256) && s.activeUnit (h / 256) == h then none else some (8, 0)

/-- The first failing check of R265 after STATE. -/
def State.assignErr (s : State) (c : Nat) : AssignErr :=
  [s.asgSizeErr c, s.mapErr c, s.busyErr c, s.spareErr c, if s.allocBytes c 0 = 0 then some (6, 0) else none, s.quotaErr c, s.homeErr c].findSome? id

/-- Shows a failure of ASSIGN. -/
def State.assignFail (s : State) (c : Nat) (e : Nat × Nat) : State :=
  ((s.wr (CTX_STAT_ASSIGN_ERR (ctxPg c)) e.1).wr (CTX_STAT_ERR_LID (ctxPg c)) e.2).notifyCtx c 2 e.1

/-- ASSIGN (R265, R270): a context that is not FREE keeps its STATE. -/
def State.ctxAssign (s : State) (c : Nat) : State :=
  if 16 ≤ c then s
  else if s.ctxState c ≠ 0 then s.assignFail c (1, 0)
  else match s.assignErr c with
    | some e => s.assignFail c e
    | none =>
      let s := ((s.wr (CTX_STAT_ASSIGN_ERR (ctxPg c)) 0).wr (CTX_STAT_ERR_LID (ctxPg c)) 0).wr (CTX_STAT_STATE (ctxPg c)) 1
      ((s.setCtx c fun x => { x with assignWait := true }).dueGen).requestFlip

/-- CTX_ASSIGN (R270). -/
def execCtxAssign (ctx : Nat) (s : State) : Out := .next (s.ctxAssign ctx)

/-! ### Release (R274) -/

/-- Key revocations go to the members before the empty maps flip; the empty map is asked for (R274 step 6, R309). -/
def State.releaseFlip (s : State) (c : Nat) : State := ((s.recsOf c).foldl (fun s r => s.revoke c r.keyId) s).requestFlip

/-- RELEASE (R274): from ASSIGNING the release runs from step 4. A re-mapping of the context ends, and a REMAP that asked for it is
REJECTED with STATE (R281, R407). -/
def State.ctxRelease (s : State) (c : Nat) : State :=
  if 16 ≤ c then s
  else if s.ctxState c ≠ 1 ∧ s.ctxState c ≠ 2 then s.wr (CTX_STAT_RELEASE_REJ (ctxPg c)) 1
  else
    let early := s.ctxState c == 1
    let r : RelSt := ⟨early, false, false, false, s.on (CTX_CTRL_OVERWRITE (ctxPg c)), early⟩
    let mails := (s.rst.remaps.filter fun m => m.ctx == c).filterMap (·.mail)
    let s := (s.setCtx c fun x => { x with release := some r, assignWait := false }).setRst fun q => { q with
      remaps := q.remaps.filter fun m => m.ctx != c }
    let s := mails.foldl (fun s m => s.mailReject m.1 m.2 0x10 []) s
    let s := ((s.wr (CTX_STAT_STATE (ctxPg c)) 3).closeWhere fun x => x.role == 1 && x.ctx == c).dueGen
    let s := if s.armed c then s.setTtb c fun t => { t with stopReq := true } else s
    if early then s.releaseFlip c else s

/-- CTX_RELEASE (R274). -/
def execCtxRelease (ctx : Nat) (s : State) : Out := .next (s.ctxRelease ctx)

/-- The timetable of a released context goes: disarmed at every member, every instance closed, EMPTY (R274 step 3). -/
def State.releaseTtb (s : State) (c : Nat) : State :=
  let s := (s.disarmMembers c).dropSteps c fun _ => true
  let s := { s with insts := s.insts.map fun (i : Instance) => if i.ctx == c then { i with isOpen := false, cells := [] } else i }.showOpen
  let s := s.setTtb c fun t => { TtbSt.fresh c with cmap := t.cmap, cmapHot := t.cmapHot }
  let s := ((s.wr (TTB_STAT_PAUSED (ttbPg c)) 0).wr (TTB_STAT_XDOM_HELD (ttbPg c)) 0).wr (TTB_STAT_CHECK_OK (ttbPg c)) 0
  s.ttbTo c 0

/-- RELEASE_DRAINED (R274 steps 2 to 6): no begun step is left. -/
def execReleaseDrained (ctx : Nat) (s : State) : Out :=
  .next (match (s.ctx ctx).release with
    | none => s
    | some r =>
      if r.drained || !(s.ttb ctx).uncommitted.isEmpty then s
      else ((s.releaseTtb ctx).setCtx ctx fun x => { x with release := some { r with drained := true } }).releaseFlip ctx)

/-- Zeros a context's allocation on both dies and its sync-window context area (R274 step 4). -/
def State.scrubPgh (s : State) (c : Nat) : State :=
  let lo := fun (d : Nat) => pghKey d (s.rd (PGH_ALLOC_ROW_BASE (pghPg d) c) * pghRow)
  let mine := fun (k : Nat) => decide (c * 2 ^ 13 ≤ k % 2 ^ 18) && decide (k % 2 ^ 18 < (c + 1) * 2 ^ 13)
  s.setTile fun t => { t with
    pgh := mzero (mzero t.pgh (lo 0) (lo 0 + s.allocBytes c 0)) (lo 1) (lo 1 + s.allocBytes c 1)
    sync := tdrop mine t.sync
    syncBad := t.syncBad.filter fun k => !mine k }

/-- The release of a context whose step 3 is done changes. -/
def State.setRel (s : State) (c : Nat) (f : RelSt → RelSt) : State :=
  s.setCtx c fun x => { x with release := x.release.map fun r => if r.drained then f r else r }

/-- Steps 4 to 6 of a release may run. -/
def State.relDrained (s : State) (c : Nat) : Bool := match (s.ctx c).release with | some r => r.drained | none => false

/-- RELEASE_SCRUB_DONE (R274, R275). -/
def execReleaseScrubDone (ctx ns : Nat) (s : State) : Out :=
  .next (if s.relDrained ctx then
    ((((s.scrubPgh ctx).wr (CTX_SCRUB_PGH_NS (ctxPg ctx)) ns).setRel ctx fun r => { r with scrubbed := true }).releaseStep7 ctx)
    else s)

/-- The crypto-erase of a context: a new generation and everything under the old one gone (R249, R274 step 5, R309). -/
def State.cryptoErase (s : State) (c : Nat) : State :=
  let pg := vltPg c
  let s := ((s.bump (VLT_GEN_GEN pg) 1).wr (VLT_VAULT_TAINTED pg) 0).eraseRecords c
  let s := s.setHbm fun h => { h with
    roots := if h.roots.contains c then h.roots else h.roots ++ [c]
    counters := tdrop (fun k => k / 2 ^ 32 / 16 == c) h.counters
    mapBad := if h.mapBad.contains c then h.mapBad else h.mapBad ++ [c]
    pending := h.pending.filter (fun x => x.1 != c)
    latched := h.latched.filter (fun x => x.ctx != c)
    slots := h.slots.filter (fun x => x.ctx != c)
    spilled := h.spilled.filter fun x => x.ctx != c }
  (List.range 4).foldl (fun s k => s.wr (VLT_OPT_CFG_VALID pg k) 0) (s.resetProducts c)

/-- CRYPTO_ERASE_DONE (R274 steps 5 and 8): with OVERWRITE the fill engine starts under the new keys. -/
def execCryptoEraseDone (ctx ns : Nat) (s : State) : Out :=
  .next (match (s.ctx ctx).release with
    | none => s
    | some r =>
      if !r.drained || r.erased then s
      else
        let s := ((s.cryptoErase ctx).wr (CTX_SCRUB_ERASE_NS (ctxPg ctx)) ns).setRel ctx fun r => { r with erased := true }
        let s := if r.overwrite then s.wr (CTX_STAT_FILLING (ctxPg ctx)) 1 else s
        s.releaseStep7 ctx)

/-- RELEASE_COMPLETE (R274 step 9). -/
def execReleaseComplete (ctx : Nat) (s : State) : Out :=
  .next (match (s.ctx ctx).release with
    | none => s
    | some r =>
      if r.drained && r.scrubbed && r.erased && r.flipped && !s.on (CTX_STAT_FILLING (ctxPg ctx)) then
        (((s.setCtx ctx fun x => { x with release := none, holdDie := false, holdChips := [] }).wr (CTX_STAT_STATE (ctxPg ctx)) 0).notifyCtx
          ctx 3 0).dueGen
      else s)

/-! ### Binding, seed and map -/

/-- BIND by a session (R277, R298): an OWNER session, an ASSIGNED context, not bound already. -/
def State.ctxBind (s : State) (index c : Nat) (tenantClosed : Bool) : State :=
  match s.openSess index with
  | none => s
  | some x =>
    if x.role = 3 ∧ c < 16 ∧ s.ctxState c = 2 ∧ ¬ s.on (CTX_STAT_BOUND (ctxPg c)) then
      (((s.wr (CTX_STAT_BOUND (ctxPg c)) 1).wr (CTX_STAT_TENANT_CLOSED (ctxPg c)) (b2n tenantClosed)).setCtx c
        fun y => { y with owner := x.owner }).dueGen
    else s

/-- CTX_BIND (R277). -/
def execCtxBind (index ctx : Nat) (tenantClosed : Bool) (s : State) : Out := .next (s.ctxBind index ctx tenantClosed)

/-- A write of CTX_SEED0 or CTX_SEED1 (R271). -/
def State.ctxSeed (s : State) (c half v : Nat) : State :=
  if s.ctxState c = 2 then
    s.setCtx c fun x => { x with seed := if half = 0 then x.seed / 2 ^ 64 * 2 ^ 64 + v % 2 ^ 64 else x.seed % 2 ^ 64 + v % 2 ^ 64 * 2 ^ 64 }
  else s

/-- CTX_SEED_WRITE (R271). -/
def execCtxSeedWrite (ctx half : Nat) (value : Word) (s : State) : Out := .next (if ctx < 16 then s.ctxSeed ctx half value.toNat else s)

/-- A write of CTX_MAP_DATA (R266, R282). -/
def State.ctxMap (s : State) (c v : Nat) : State :=
  if s.ctxState c = 0 then
    s.setCtx c fun x => { x with map := tset x.map (s.rd (CTX_MAP_SEL_LID (ctxPg c))) (bits v 63 63 * 2 ^ 63 + v % 2 ^ 14) }
  else s

/-- CTX_MAP_WRITE (R266). -/
def execCtxMapWrite (ctx : Nat) (value : Word) (s : State) : Out := .next (if ctx < 16 then s.ctxMap ctx value.toNat else s)

end Sys2Proof.Machine
end

