-- ==== Sys2Proof/Machine/Power.lean ====
section
/-! DEFINITION. Supplies, temperatures and the emergency throttle (R314, R369, R518 to R529). -/

namespace Sys2Proof.Machine

/-- A tamper detector trips: its response, its fault, whose DETAIL names the die (R14; 15 for the package), and its count; `counted` is
false where the fuse is not raised (R314, R520). -/
def State.tamperTrip (s : State) (cause die : Nat) (counted : Bool) : State :=
  (s.tamper cause (!counted)).detect .dz8 lcsPg cause die none

/-- TAMPER_DETECT (R314): TAMPER_N acts only while PIN_EN is set. -/
def execTamperDetect (cause : Nat) (s : State) : Out :=
  .next (if 4 < cause ∨ (cause = 4 ∧ ¬ s.on LCS_TAMPER_CFG_PIN_EN) then s else s.tamperTrip cause 15 true)

/-! ### The emergency throttle (R369) -/

/-- The home unit is to void every uncommitted step of a context with CAUSE THERMAL and RS all ones (R149, R152, R369), whatever miss
waits and whatever void is in progress; a job that has rolled back and waits for its restart has no uncommitted step and is left as it
is (DESIGN CHOICE, log entry 138). -/
def State.thermalVoid (s : State) (c : Nat) : State :=
  if s.isBranch c then s
  else match (s.ttb c).uncommitted with
    | o :: _ => s.setTtb c fun t => { t with miss := some ⟨o.step, o.iter, 4, 0, none⟩ }
    | [] => s

/-- PWR THERMAL trips in a die (R14, R369): the clocks drop to a quarter, uncommitted steps are voided, the reaction window opens. A
throttle in force is not started again. -/
def State.thermalTrip (s : State) (die sensor : Nat) : State :=
  if s.on PWR_STAT_THROTTLED then s
  else
    let s := ((s.wr PWR_STAT_THROTTLED 1).bump PWR_THROTTLE_COUNT 1).setPwr fun p => { p with throttleNs := some s.time.nowNs }
    let s := s.detect .dz8 (pwrDiePg die) 0 sensor none
    let s := s.setFlt .dz8 fun f => { f with reactions := f.reactions ++ [(⟨6, 0, 0, 0, false⟩ : Reaction)] }
    contexts.foldl (fun s c => s.thermalVoid c) s

/-- THERMAL_TRIP (R369), in the die of the hottest sensor. -/
def execThermalTrip (s : State) : Out :=
  .next (s.thermalTrip (s.rd PWR_STAT_HOT_DIE) (s.rd (PWR_DIE_TEMP_SENSOR (pwrDiePg (s.rd PWR_STAT_HOT_DIE)))))

/-- THERMAL_RECOVER (R369): the clocks return to full rate; the stopped jobs stay stopped. -/
def execThermalRecover (s : State) : Out :=
  .next (match s.pwr.throttleNs with
    | none => s
    | some t =>
      let s := (s.wr PWR_STAT_THROTTLED 0).wr PWR_THROTTLE_LAST_MS ((s.time.nowNs - t) / 1000000)
      (s.setPwr fun p => { p with throttleNs := none }).reactionDone .dz8 fun r => r.kind == 6)

/-! ### Temperatures (R526) -/

/-- Sensors of a die. -/
def sensorCount (die : Nat) : Nat := if die < 2 then 8 else if die < 4 then 16 else 4

/-- The hottest of the samples that `p` selects: its key and its temperature plus 1,000, the lowest key of equal ones. -/
def hottest (t : Table) (p : Nat → Bool) : Nat × Nat :=
  t.foldl (fun b x => if p x.1 && decide (b.2 < x.2) then x else b) (0, 0)

/-- A stored sample in whole degrees as a register shows it, 0 below zero. -/
def degrees (x : Nat) : Nat := min 255 (x - 1000)

/-- The hottest readings are shown (R528, R529). -/
def State.showTemps (s : State) : State :=
  let d := hottest s.pwr.samples fun _ => true
  let st := hottest s.pwr.stackTemps fun _ => true
  (((s.wr PWR_TEMP_DIE_C (degrees d.2)).wr PWR_STAT_HOT_DIE (d.1 / 16)).wr PWR_TEMP_STACK_C (degrees st.2)).wr PWR_STAT_STACK_HOT
    (b2n (decide (1085 < st.2)))

/-- TEMP_SAMPLE (R526, R314): the emergency limit is 115 °C, and TEMP trips at 130 °C and below −25 °C. -/
def execTempSample (die sensor : Nat) (celsius : Int) (s : State) : Out :=
  .next (if !s.hasDie die || decide (sensorCount die ≤ sensor) then s
  else
    let s := s.setPwr fun p => { p with samples := tset p.samples (die * 16 + sensor) (celsius + 1000).toNat }
    let d := hottest s.pwr.samples fun k => k / 16 == die
    let s := ((s.wr (PWR_DIE_TEMP_MAX_C (pwrDiePg die)) (degrees d.2)).wr (PWR_DIE_TEMP_SENSOR (pwrDiePg die)) (d.1 % 16)).showTemps
    let s := if 115 ≤ celsius then s.thermalTrip die sensor else s
    if 130 ≤ celsius ∨ celsius < -25 then s.tamperTrip 2 die true else s)

/-- STACK_TEMP_READ (R239, R526). -/
def execStackTempRead (mdie stack : Nat) (celsius : Int) (s : State) : Out :=
  .next (if !s.hasStack mdie stack then s
  else
    let pg := hbcPg mdie stack
    let x := (celsius + 1000).toNat
    let s := (s.setPwr fun p => { p with stackTemps := tset p.stackTemps (mdie * 8 + stack) x }).showTemps
    let s := (s.wr (HBC_STAT_TEMP_C pg) (degrees x)).wr (HBC_STAT_REFRESH_2X pg) (b2n (decide (85 < celsius)))
    if 100 ≤ celsius then s.thermalTrip (4 + mdie) stack else s)

/-! ### Rails and compute power (R518 to R521) -/

/-- CPWR_ENc and CPWR_GOODc. -/
def State.cpwrEn (s : State) (c : Nat) : Bool := bit (s.rd PWR_CPWR_EN) c
def State.cpwrGood (s : State) (c : Nat) : Bool := bit (s.rd PWR_CPWR_GOOD) c

/-- C_POWER shows which compute rails are armed (R520). -/
def State.showCpower (s : State) : State :=
  s.wr PWR_STAT_C_POWER (b2n (s.cpwrEn 0 && s.cpwrGood 0) + 2 * b2n (s.cpwrEn 1 && s.cpwrGood 1))

/-- The DZ8 raises or lowers CPWR_ENc (R521). -/
def State.cpwr (s : State) (c : Nat) (b : Bool) : State :=
  if c < s.cdies then (s.wr PWR_CPWR_EN (setBit (s.rd PWR_CPWR_EN) c b)).showCpower else s

/-- Every compute rail of the part is raised or lowered. -/
def State.cpwrAll (s : State) (b : Bool) : State := (s.cpwr 0 b).cpwr 1 b

/-- CPWR_GOOD_TIMEOUT (R521). -/
def execCpwrGoodTimeout (c : Nat) (s : State) : Out :=
  .next (if s.cpwrEn c && !s.cpwrGood c then s.detect .dz8 (pwrDiePg (2 + c)) 1 (6 + c) none else s)

/-- CPWR_GOOD_CHANGE (R520, R521, R527): a fall while the rail is armed is a tamper. -/
def execCpwrGoodChange (c : Nat) (high : Bool) (s : State) : Out :=
  .next (if s.cdies ≤ c then s
  else
    let armed := s.cpwrEn c && s.cpwrGood c
    let s := (s.wr PWR_CPWR_GOOD (setBit (s.rd PWR_CPWR_GOOD) c high)).showCpower
    if armed && !high then s.tamperTrip 0 (2 + c) true else s)

/-- A rail of R518 is armed (R520): rails 6 and 7 are VDD_C0 and VDD_C1. -/
def State.railArmed (s : State) (rail : Nat) : Bool :=
  if rail = 6 ∨ rail = 7 then s.cpwrEn (rail - 6) && s.cpwrGood (rail - 6) else s.pwr.armed.contains rail

/-- RAIL_OUT_OF_WINDOW (R518, R520): a tamper that comes with the fall of VDD_AON is not counted. -/
def execRailOutOfWindow (rail die n mv : Nat) (tamper : Bool) (s : State) : Out :=
  .next (if 12 ≤ rail ∨ 4 ≤ n ∨ ¬ s.hasDie die then s
  else
    let pg := pwrDiePg die
    let s := ((s.wr (PWR_DIE_RAIL_WARN pg n) 1).wr (PWR_DIE_RAIL_MV pg n) mv).detect .dz8 pg 1 rail none
    if tamper && s.railArmed rail then s.tamperTrip 0 die (rail != 0) else s)

/-- RAIL_WINDOW_ENTRY (R520): a board rail is armed from its first entry. -/
def execRailWindowEntry (rail : Nat) (s : State) : Out :=
  .next (if 12 ≤ rail ∨ rail = 6 ∨ rail = 7 ∨ s.pwr.armed.contains rail then s
    else s.setPwr fun p => { p with armed := p.armed ++ [rail] })

/-- PWR_BUDGET (R524): ignored while a timetable is armed; BUDGET_W stays at or below POWER_W, IDLE_W at or above the part's
figure. -/
def State.pwrBudget (s : State) (v : Nat) : State :=
  if s.anyArmed then s
  else
    let b := bits v 47 32
    let i := bits v 31 16
    let s := if b ≤ s.rd LCS_PART_POWER_W then s.wr PWR_BUDGET_BUDGET_W b else s
    if s.idleMin ≤ i then s.wr PWR_BUDGET_IDLE_W i else s

/-- PWR_BUDGET_WRITE (R524). -/
def execPwrBudgetWrite (value : Word) (s : State) : Out := .next (s.pwrBudget value.toNat)

end Sys2Proof.Machine
end

