-- ==== Sys2Proof/Machine/Boot.lean ====
section
/-! DEFINITION. PACKAGE reset, the boot sequence, image slots and the time record (R37, R372, R393, R441 to R448, R453). -/

namespace Sys2Proof.Machine

/-! ### What a PACKAGE reset leaves (R393) -/

/-- Fields that fuses hold: population and bin, repairs, tiles and lanes fused bad, addresses, and those that the running unit changes
(R1, R2, R219, R312, R314, R447, R451). -/
def fuseFlds : List Fld :=
  [LCS_STAT_STATE, LCS_TAMPER_COUNT, LCS_SVN_ROT, LCS_SVN_CONTROL, LCS_SVN_SEQ, LCS_SVN_AGENT, LCS_PART_DIES, LCS_PART_STACKS,
    LCS_PART_LINKS, LCS_PART_POWER_W, LCS_PART_TILE_MHZ, LCS_PART_PART, LCS_FUSE_BAD_LANES, LCS_FUSE_SRAM_REPAIRS, HPT_MAC_ADDR,
    HPT_UDP_PORT] ++
  ([0, 1].flatMap fun d => [TTL_FUSE_LO_BAD (ttlDiePg d), TTL_FUSE_HI_BAD (ttlDiePg d)]) ++
  dzPorts.map fun p => PRT_STAT_GOOD_LANES (prtPg p)

/-- The good physical tiles of a die after its self-test, which finds no failed tile (R219, log entry 144). -/
def State.goodTiles (s : State) (die : Nat) : List Nat := (List.range 68).filter fun p => !s.fusedBad die p

/-- Logical tile i takes the (i + 1)-th good physical tile (R219); no fuse marks a tile of most dies. -/
def State.mapTiles (s : State) (die : Nat) : State :=
  let good := s.goodTiles die
  if good.length = 68 then s
  else
    let s := (s.wr (TTL_DIE_STAT_SPARES (ttlDiePg die)) (good.length - 64)).wr (TTL_DIE_STAT_FUSED_BAD (ttlDiePg die)) (68 - good.length)
    (good.take 64).zipIdx.foldl (fun s x => s.wr (TTL_MAP_PHYS (tilePg die x.2) (x.2 % 8)) x.1) s

/-- What a PACKAGE reset derives from the fuses: the tile maps, the window budget and the idle reservation of the part (R219, R524). -/
def State.fromFuses (s : State) : State :=
  (([0, 1].foldl (fun s d => s.mapTiles d) s).wr PWR_BUDGET_BUDGET_W (s.rd LCS_PART_POWER_W)).wr PWR_BUDGET_IDLE_W s.idleMin

/-- The unit after everything of it was reset cold: fuses, flash, HBM contents with the dump slots, and the agent stay. -/
def State.coldReset (s : State) : State :=
  let z := State.reset
  let fused : State := (fuseFlds.foldl (fun (t : State) (f : Fld) => t.wr f (s.rd f)) z).fromFuses
  { s with
    regs := fused.regs
    time := z.time
    ports := z.ports
    replays := z.replays
    route := z.route
    ttbs := z.ttbs
    agents := z.agents
    insts := z.insts
    tile := z.tile
    hbm := { z.hbm with mem := s.hbm.mem, sealKey := s.hbm.sealKey, fills := s.hbm.fills }
    ctxs := z.ctxs
    rot := { z.rot with deviceId := s.rot.deviceId, hbmRoot := s.rot.hbmRoot, ak := s.rot.ak }
    beyjo := z.beyjo
    flt := z.flt
    rst := { z.rst with slots := s.rst.slots }
    pair := { z.pair with store := s.pair.store }
    boot := { z.boot with flash := s.boot.flash, run := s.boot.run, tryKinds := s.boot.tryKinds, trying := s.boot.trying,
                          pointerSeq := s.boot.pointerSeq, timeRec := s.boot.timeRec }
    pwr := { z.pwr with armed := s.pwr.armed } }

/-- Every lane of the unit goes to electrical idle (R461). -/
def State.lanesIdle (s : State) : State := s.links.foldl (fun s p => s.setIdle .dz8 p true) s

/-- PORST_N_LOW (R441, R520): every domain is held in reset, and the rails are disarmed. -/
def execPorstNLow (s : State) : Out :=
  .next (((s.lanesIdle.coldReset).setBoot fun b => { b with porst := true }).setPwr fun p => { p with armed := [] })

/-! ### Containers and slots (R445 to R448) -/

/-- The container that bytes hold; `okSig` says whether the signature verifies. -/
def containerOf (bs : List Byte) (okSig : Bool) : Container where
  magic := leAt bs 0 4
  version := leAt bs 4 2
  kind := leAt bs 6 1
  flags := leAt bs 7 1
  svn := leAt bs 8 2
  ver := leAt bs 12 4
  len := leAt bs 16 8
  parts := leAt bs 24 1
  digest := (bs.drop 32).take 32
  deviceId := leAt bs 64 32
  okSig := okSig
  payload := (bs.drop 16384).take (leAt bs 16 8)
  raw := bs

/-- The fused minimum SVN of a kind, of kinds that R447 names. -/
def svnFld : Nat → Option Fld
  | 1 => some LCS_SVN_ROT
  | 2 => some LCS_SVN_ROT
  | 3 => some LCS_SVN_CONTROL
  | 5 => some LCS_SVN_CONTROL
  | 4 => some LCS_SVN_SEQ
  | 6 => some LCS_SVN_AGENT
  | _ => none

/-- The first check of R446 that a container fails, against a PART, a fused minimum and a DEVICE_ID. -/
def containerErr (x : Container) (part minSvn device : Nat) : Option Nat :=
  firstCode [(x.magic != 0x464D4C46 || x.version != 1 || x.kind == 0 || decide (7 < x.kind) || decide (2 ^ 23 < x.len + 16384), 1),
    (!x.okSig, 2), (sha256 x.payload != x.digest, 3), (!bit x.parts part, 4), (decide (x.svn < minSvn), 5),
    (bit x.flags 0 && x.deviceId != device, 6)]

/-- The check against the unit's own fuses. -/
def State.imageErr (s : State) (x : Container) : Option Nat :=
  containerErr x (s.rd LCS_PART_PART) (match svnFld x.kind with | some f => s.rd f | none => 0) s.rot.deviceId

/-- The container in a slot of a kind. -/
def State.flashAt (s : State) (kind slot : Nat) : Option Container :=
  (s.boot.flash.find? fun x => x.kind == kind && x.slot == slot).map (·.image)

/-- The running slot of a kind and the other one. -/
def State.runSlot (s : State) (kind : Nat) : Nat := b2n (bit s.boot.run kind)
def State.tryImage (s : State) (kind : Nat) : Option Container := s.flashAt kind (1 - s.runSlot kind)
def State.runImage (s : State) (kind : Nat) : Option Container := s.flashAt kind (s.runSlot kind)

/-- A digest as a number, its first byte least significant. -/
def digestNat (bs : List Byte) : Nat := leAt bs 0 32

/-- The slots of a kind without the one that is not RUN. -/
def State.dropTry (s : State) (kind : Nat) : State :=
  s.setBoot fun b => { b with
    flash := b.flash.filter (fun x => !(x.kind == kind && x.slot == 1 - s.runSlot kind))
    tryKinds := b.tryKinds.filter (· != kind) }

/-- UPDATE and STAGED follow the staged images of kinds 1 to 6 (R315). -/
def State.showUpdate (s : State) : State :=
  let ks := s.boot.tryKinds.filter fun k => decide (k < 7)
  let d := match ks.getLast?.bind s.tryImage with | some x => digestNat x.digest | none => 0
  ((s.setRot fun r => { r with staged := d }).wr FRK_STAT_UPDATE (b2n (!ks.isEmpty))).wr FRK_STAT_STAGED_VALID (b2n (!ks.isEmpty))

/-- Kinds of a list that have a staged image run it (R448, R450): the pointer is written and TRY becomes RUN. -/
def State.activate (s : State) (kinds : List Nat) : State :=
  (kinds.filter s.boot.tryKinds.contains).foldl (fun s k =>
    s.setBoot fun b => { b with run := setBit b.run k (!bit b.run k), tryKinds := b.tryKinds.filter (· != k), pointerSeq := b.pointerSeq + 1 }) s

/-- Staged images that failed are discarded, and FALLBACK is set for their kinds (R448). -/
def State.fallBack (s : State) (kinds : List Nat) : State :=
  (kinds.filter s.boot.tryKinds.contains).foldl (fun s k =>
    let err := (s.tryImage k).bind s.imageErr
    let s := (s.dropTry k).wr GEN_BOOT_FALLBACK (setBit (s.rd GEN_BOOT_FALLBACK) k true)
    match err with
    | some e => s.wr GEN_BOOT_ERR e
    | none => s) s

/-- What a reset that reloads kinds makes of their staged images: those that pass R446 run, the others are discarded (R448, R450). -/
def State.reload (s : State) (kinds : List Nat) : State :=
  let bad := kinds.filter fun k => match s.tryImage k with | some x => (s.imageErr x).isSome | none => true
  (s.fallBack bad).activate kinds

/-- RUN_SLOT and GEN_FWVER show the running images (R463). -/
def State.showImages (s : State) : State :=
  [1, 2, 3, 4, 5, 6].foldl (fun s k =>
    match s.runImage k with
    | none => s
    | some x => (s.wr (GEN_FWVER_SVN (k - 1)) x.svn).wr (GEN_FWVER_VER (k - 1)) x.ver) (s.wr GEN_BOOT_RUN_SLOT s.boot.run)

/-- The digest that a measurement index 1 to 6 describes: the running image's, or the one held where the flash lists none. -/
def State.imageDigest (s : State) (i : Nat) : Nat :=
  match s.runImage i with
  | some x => digestNat x.digest
  | none => s.rot.measured.getD (i - 1) 0

/-- The bytes that the fuse digest of index 7 covers: population and bin, repairs, security versions (R294). -/
def State.fuseBytes (s : State) : List Byte :=
  ([LCS_PART_PART, LCS_PART_DIES, LCS_PART_STACKS, LCS_PART_LINKS, LCS_PART_POWER_W, LCS_PART_TILE_MHZ, LCS_FUSE_SRAM_REPAIRS,
    LCS_FUSE_BAD_LANES, LCS_SVN_ROT, LCS_SVN_CONTROL, LCS_SVN_SEQ, LCS_SVN_AGENT].map fun f => leBytes 2 (s.rd f)).flatten

/-- The measurements at the start of the RoT (R294); on DZ8-E index 5 is zeros. -/
def State.measureAll (s : State) : State :=
  s.setRot fun r => { r with measured := ([1, 2, 3, 4, 5, 6].map fun i => if i = 5 && s.mdies == 0 then 0 else s.imageDigest i) ++
    [digestNat (sha256 s.fuseBytes)] }

/-- The measurements of the images that a boot runs, the staged ones that it tries among them (R293, R448). -/
def State.measureBoot (s : State) : State :=
  s.setRot fun r => { r with measured := (s.activate s.boot.trying).measureAll.rot.measured }

/-- The measurements at READY; images other than those the boot began with ask for a new AK (R293, R294). -/
def State.measureReady (s : State) : State :=
  let t := s.measureAll
  if t.rot.measured.take 5 = s.rot.measured.take 5 then t else t.newAk

/-- The sequencer image goes to every present tile by broadcast (R453). -/
def State.seqBroadcast (s : State) : State :=
  (List.range s.cdies).foldl (fun s d => (List.range 8).foldl (fun s g =>
    (s.wr (TTL_SEQ_LOADED (ttlPg d g)) 1).wr (TTL_SEQ_IMAGE_VER (ttlPg d g)) (s.rd (GEN_FWVER_VER 3))) s) s

/-- The fused minimum rises to the SVN of every running container with SVN_COMMIT (R447). -/
def State.svnCommit (s : State) : State :=
  [1, 2, 3, 4, 5, 6].foldl (fun s k =>
    match s.runImage k, svnFld k with
    | some x, some f => if bit x.flags 1 then s.atLeast f x.svn else s
    | _, _ => s) s

/-! ### The boot (R442) -/

/-- The dies of the part as a bitmap. -/
def State.dieMap (s : State) : Nat := (List.range 8).foldl (fun m d => if s.hasDie d then m + 2 ^ d else m) 0

/-- A boot runs the staged images of kinds 1 to 5 once: those of a boot that never reached READY are discarded (R448, R450). -/
def State.tryOnce (s : State) : State :=
  let s := s.fallBack s.boot.trying
  s.setBoot fun b => { b with trying := b.tryKinds.filter fun k => decide (k < 6) }

/-- Steps 1 to 7 start: straps, the HBM root key, the AK, the compute rails, the links (R289, R293, R442, R521). In BLANK the unit
stops at step 2. -/
def State.bootStart (s : State) (fsel xspiSafe : Bool) : State :=
  let s := ((s.wr GEN_STRAP_FSEL (b2n fsel)).wr TMK_STAT_FSEL (b2n fsel)).wr GEN_STRAP_XSPI_SAFE (b2n xspiSafe)
  if s.rd LCS_STAT_STATE = 0 then s
  else
    let s := s.tryOnce
    let s := s.newHbmRoot.measureBoot
    let s := ((s.wr VLT_STAT_KEYS_READY 1).newAk).wr FRK_STAT_RESET (setBit s.dieMap 0 false)
    let s := (s.cpwrAll true).wr GEN_BOOT_STATE 3
    let s := s.setBoot fun b => { b with timeWait := b.timeRec.isSome }
    let s := (List.range 10).foldl (fun s e => s.edgeTrain e) s
    s.links.foldl (fun s p => s.startAttempt .dz8 p) s

/-- PORST_N_RELEASE (R441, R442); a unit that has booted has no such edge. -/
def execPorstNRelease (fsel xspiSafe : Bool) (s : State) : Out :=
  .next (if s.boot.porst ∨ s.rd GEN_BOOT_STATE = 0 then (s.setBoot fun b => { b with porst := false }).bootStart fsel xspiSafe else s)

/-- A PACKAGE reset after its dump (R393, R394, R441): the boot runs again with the straps as they are. -/
def State.packageReset (s : State) : State :=
  (s.lanesIdle.coldReset).bootStart (s.on GEN_STRAP_FSEL) (s.on GEN_STRAP_XSPI_SAFE)

/-- GEN_BOOT.ERR of a first stage or RoT firmware whose both slots fail (R446). -/
def State.bootErr (s : State) : State :=
  match [1, 2].findSome? fun k => (s.runImage k).bind s.imageErr with
  | some e => s.wr GEN_BOOT_ERR e
  | none => s

/-- BOOT_READY (R442, R447, R448, R453): kinds 3 to 5 that fail without a staged image keep the unit at DIES. -/
def execBootReady (ms : Nat) (failed : List Nat) (dead : Bool) (s : State) : Out :=
  .next (if s.boot.porst ∨ 4 ≤ s.rd GEN_BOOT_STATE ∨ s.rd LCS_STAT_STATE = 0 then s
    else if dead then (s.bootErr.wr GEN_BOOT_STATE 5).lanesIdle
    else
      let hard := failed.any fun k => decide (3 ≤ k) && decide (k ≤ 5) && !s.boot.tryKinds.contains k
      let s := s.fallBack failed
      if hard then s.showImages.wr GEN_BOOT_STATE 3
      else
        let s := ((s.activate s.boot.trying).setBoot fun b => { b with trying := [] }).showImages
        ((s.edgesUp.measureReady.svnCommit.seqBroadcast.showUpdate).wr GEN_BOOT_BOOT_MS ms).wr GEN_BOOT_STATE 4)

/-- TIME_RECORD_RESTART (R37, R444): with SRC = 0 the restart needs the BEAT of a beat word. -/
def execTimeRecordRestart (beat : Option Nat) (s : State) : Out :=
  .next (match s.boot.timeRec with
    | none => s
    | some r =>
      if !s.boot.timeWait || s.on TMK_CTRL_ENABLE || (r.src == 0 && beat.isNone) then s
      else
        let s := s.setBoot fun b => { b with timeWait := false }
        let s := (((s.wr TMK_CTRL_SRC r.src).wr TMK_EPOCH_SEC r.epoch).wr TMK_PERIOD_PERIOD_NS r.period).wr TMK_REF_DELAY_DELAY_NS r.refDelay
        let s := (s.wr TMK_XDOM_LIMIT_NS (r.xdom / 2 ^ 16)).wr TMK_XDOM_HOLD_PPB r.xdom
        let s := (s.wr TMK_PTP_CFG_LOG_SYNC (r.ptpCfg / 2 ^ 8)).wr TMK_PTP_CFG_DOMAIN r.ptpCfg
        let s := match beat with
          | some b => if r.src = 0 then s.wr TMK_TOD_SEC (r.epoch + b * r.period / 1000000000 + 1) else s
          | none => s
        s.tmkStart)

/-- TIME_RECORD_TIMEOUT (R444): the timekeeper waits for the host. -/
def execTimeRecordTimeout (s : State) : Out := .next (s.setBoot fun b => { b with timeWait := false })

end Sys2Proof.Machine
end

