-- ==== Sys2Proof/Machine/Reset.lean ====
section
/-! DEFINITION. Block codes, dumps and reset domains: requesting a reset, its steps, and the rows of the dump engine (R383 to R396,
R408). -/

namespace Sys2Proof.Machine

/-- Role of the session of an index. -/
def State.roleOf (s : State) (i : Nat) : Nat := match s.openSess i with | some x => x.role | none => 4

/-- What refuses a mail command in common: ROLE, ARGS, BUSY (R341, R342). -/
def State.mailErr (s : State) (i n code need : Nat) (roles : List Nat) : Option Nat :=
  let w := bits (s.control i n) 39 32
  firstCode [(!roles.contains (s.roleOf i), 2), (decide (w < need ∨ 15 < w), 3), (s.mailBusy code, 4)]

/-! ### Requests and scopes (R383, R393) -/

/-- A block code of R383 exists on a die of the part. -/
def State.blockOk (s : State) (b die : Nat) : Bool :=
  s.hasDie die && if b ≤ 7 ∨ (0x10 ≤ b ∧ b ≤ 0x12) then decide (die = 2 ∨ die = 3) else if b = 0x20 ∨ b = 0x21 then decide (4 ≤ die)
    else if b = 0x30 then decide (die < 2) else (b == 0x31 || b == 0x32) && die == 0

/-- A request names something the part has. -/
def State.requestOk (s : State) (q : ResetReq) : Bool :=
  match q.domain with
  | 0 => s.blockOk q.block q.die
  | 2 => decide (q.die < 2) && s.hasDie q.die
  | d => decide (d < 4)

/-- The dies of a request's scope. -/
def State.resetDies (s : State) (q : ResetReq) : List Nat :=
  match q.domain with
  | 0 => [q.die]
  | 1 => (List.range 8).filter fun d => decide (2 ≤ d) && s.hasDie d
  | 2 => [q.die]
  | _ => (List.range 8).filter s.hasDie

/-- The domain of `a` contains that of `b` and is larger (R408). -/
def larger (a b : ResetReq) : Bool :=
  match a.domain, b.domain with
  | 3, d => d != 3
  | 1, 0 => decide (2 ≤ b.die)
  | 2, 0 => b.die == a.die
  | _, _ => false

/-- A bitmap of dies. -/
def dieBits (l : List Nat) : Nat := l.foldl (fun m d => setBit m d true) 0

/-! ### What a dump reads (R386, R389, R390) -/

/-- Page families of a block's registers. -/
def blockFams (b : Nat) : List Nat :=
  if b ≤ 7 then [9] else if b = 0x10 ∨ b = 0x21 then [8] else if b = 0x11 ∨ b = 0x12 then [7] else if b = 0x20 then [0x0B]
  else if b = 0x30 then [3] else if b = 0x31 then [6] else [5]

/-- The stored register fields of a die that lie in one of some families, each as its key and its value, 8 bytes each. -/
def State.regData (s : State) (die : Nat) (fam : Nat → Bool) : List Byte :=
  (s.regs.filter fun e => e.1 / 64 / 2 ^ 28 == die && fam (e.1 / 64 / 2 ^ 20 % 2 ^ 8)).flatMap fun e => leBytes 8 e.1 ++ leBytes 8 e.2

/-- The dead-letter entries of an X-die. -/
def State.dllData (s : State) (die : Nat) : List Byte :=
  (if die = 0 then s.flt.dll0 else s.flt.dll1).flatMap fun e => e.words.flatMap (leBytes 8)

/-- Ports of an X-die. -/
def diePorts (die : Nat) : List Nat := dzPorts.filter fun p => portDie p == die

/-- The context areas and the engine area of a C-die's sync window, without the areas of bound contexts: word number and value,
8 bytes each (R228, R277, R386). -/
def State.syncData (s : State) (die : Nat) : List Byte :=
  (s.tile.sync.filter fun e => e.1 / 2 ^ 18 + 2 == die && decide (e.1 % 2 ^ 18 < 3 * 2 ^ 16) &&
    !(decide (e.1 % 2 ^ 18 < 2 ^ 17) && s.on (CTX_STAT_BOUND (ctxPg (e.1 % 2 ^ 18 / 2 ^ 13))))).flatMap fun e =>
      leBytes 8 (e.1 % 2 ^ 18) ++ leBytes 8 e.2

/-- The bytes of a region: kind, die, block or family, instance. -/
def State.regionData (s : State) (r : Nat × Nat × Nat × Nat) (block : Option Nat) : List Byte :=
  match r.1 with
  | 1 => s.dllData r.2.1
  | 2 => (diePorts r.2.1).flatMap fun p => (s.port .dz8 p).credits.flatMap fun n => leBytes 2 n
  | 3 => (diePorts r.2.1).flatMap fun p => (s.port .dz8 p).queue.flatMap fun e => cellBytes e.2
  | 4 => s.syncData r.2.1
  | _ => match block with
    | some b => s.regData r.2.1 fun f => (blockFams b).contains f
    | none => s.regData r.2.1 fun f => f == r.2.2.1

/-- Page families that a die holds; 15 stands for the package-global pages (R498). -/
def dieFams (d : Nat) : List Nat :=
  if d = 15 then [1, 0x0C, 0x0D, 0x0F, 0x14, 0x15, 0x16, 0x17, 0x18] else if d < 2 then [2, 3, 4, 5, 6, 0x0E, 0x10, 0x11, 0x13, 0x18] else if d < 4 then [4, 7, 8, 9, 0x0A, 0x12, 0x18] else [0x0B, 0x18]

/-- The regions of some dies, in the order of R386. -/
def dieRegions (dies : List Nat) : List (Nat × Nat × Nat × Nat) :=
  let xs := dies.filter fun d => decide (d < 2)
  (xs.map fun d => (1, d, 0x13, 1)) ++ (xs.map fun d => (2, d, 3, 0)) ++ (xs.map fun d => (3, d, 3, 0)) ++
    ((dies.filter fun d => decide (d = 2 ∨ d = 3)).map fun d => (4, d, 0x0A, 0)) ++ dies.flatMap fun d => (dieFams d).map fun f => (5, d, f, 0)

/-- The regions of one block. -/
def blockRegions (b d : Nat) : List (Nat × Nat × Nat × Nat) := (if d = 2 ∨ d = 3 then [(4, d, b, 0)] else []) ++ [(5, d, b, 0)]

/-! ### The dump (R386 to R389) -/

/-- The dump area can be written: no stack has failed (R240, R388); that of a DZ8-E lies in its Pigeonholes (R4). -/
def State.dumpArea (s : State) : Bool := s.stacks'.all fun x => s.rd (HBC_STAT_STATE (hbcPg x.1 x.2)) != 4

/-- The oldest slot that is not locked: an empty one, the lowest, before those written (R388). -/
def State.oldestSlot (s : State) : Option Nat :=
  let n := s.dumpSlots
  let free := fun (k : Nat) => decide (k < n) && !bit (s.rd DMP_LOCK_LOCKED) k
  ((List.range n).find? fun k => free k && !s.rst.slots.any fun x => x.slot == k).orElse fun _ => (s.rst.slots.map (·.slot)).find? free

/-- A dump begins: its slot, its regions still to be read. -/
def State.startDump (s : State) (cause block die scope fid : Nat) (left : List (Nat × Nat × Nat × Nat)) (lock : Bool)
    (mail : Option (Nat × Nat)) : State :=
  let slot := s.oldestSlot
  let d : DumpRun := ⟨⟨slot.getD 0, s.postmark, cause, block, die, scope, fid, []⟩, left, slot.isNone, lock, mail⟩
  let s := (s.setRst fun r => { r with dump := some d }).wr DMP_STAT_BUSY 1
  if slot.isNone then s.bump DMP_STAT_NOSLOT 1 else s

/-- The regions left take a mark: nothing of them is read. -/
def unread (notRead unreachable : Bool) (l : List (Nat × Nat × Nat × Nat)) : List Region :=
  l.map fun r => (⟨r.1, r.2.1, r.2.2.1, r.2.2.2, false, notRead, unreachable, 0, []⟩ : Region)

/-- The code of the block a dump is of, where it is of one. -/
def DumpSlot.blockOf (d : DumpSlot) : Option Nat := if d.scope = 2 then some d.block else none

/-- The regions left are read. -/
def State.readLeft (s : State) : State :=
  match s.rst.dump with
  | none => s
  | some d =>
    let rs : List Region := d.left.map fun r =>
      (⟨r.1, r.2.1, r.2.2.1, r.2.2.2, false, false, false, 0, s.regionData r d.dump.blockOf⟩ : Region)
    s.setRst fun q => { q with dump := some { d with left := [], dump := { d.dump with regions := d.dump.regions ++ rs } } }

/-- Bytes of a dump as written: the header and the data (R389). -/
def DumpSlot.size (d : DumpSlot) : Nat := 4096 + (d.regions.map fun r => r.data.length).sum

/-- The dump ends: it is written to its slot, the results go to the mail slot that waits (R388, R391). -/
def State.endDump (s : State) : State :=
  match s.rst.dump with
  | none => s
  | some d =>
    let s := (s.setRst fun q => { q with dump := none }).wr DMP_STAT_BUSY 0
    let lost := (d.dump.regions.filter fun r => r.unreachable).length
    if d.noSlot || !s.dumpArea then
      match d.mail with
      | some (i, n) => s.mailReject i n 0x10 [0, 0, 0]
      | none => s
    else
      let k := d.dump.slot
      let s := (s.setRst fun q => { q with slots := q.slots.filter (fun x => x.slot != k) ++ [d.dump] }).wr DMP_STAT_LAST k
      let s := (s.bump DMP_COUNT_DUMPS 1).bump DMP_STAT_UNREACH lost
      let s := if d.lock then s.wr DMP_LOCK_LOCKED (setBit (s.rd DMP_LOCK_LOCKED) k true) else s
      match d.mail with
      | some (i, n) => s.mailOk i n [k, d.dump.size, lost]
      | none => s

/-- A region record of 32 bytes with the offset of its data (R389). -/
def Region.record (r : Region) (off : Nat) : List Byte :=
  leBytes 8 (r.kind * 2 ^ 56 + r.die * 2 ^ 52 + r.block * 2 ^ 44 + r.inst * 2 ^ 36 + b2n r.dataErr * 4 + b2n r.notRead * 2 +
    b2n r.unreachable) ++ leBytes 8 off ++ leBytes 8 r.data.length ++ leBytes 8 r.snapshot

/-- Region records in order, each with where its data lies. -/
def regionRecords : List Region → Nat → List Byte
  | [], _ => []
  | r :: rs, off => r.record off ++ regionRecords rs (off + r.data.length)

/-- The bytes of a dump slot (R389). -/
def DumpSlot.bytes (d : DumpSlot) (device : Nat) : List Byte :=
  fit 4096 (leBytes 8 (0x504D4444 + 2 ^ 32) ++ leBytes 8 d.start ++ leBytes 8 (d.cause * 2 ^ 32 + d.block * 2 ^ 16 + d.die * 2 ^ 12 + d.scope) ++
    leBytes 8 (d.agentFid * 2 ^ 16 + d.regions.length) ++ leBytes 32 device ++ regionRecords (d.regions.take 125) 4096) ++
    d.regions.flatMap (·.data)

/-- A word of the DMP window (R410). -/
def State.dumpWord (s : State) (n : Nat) : Nat :=
  match s.rst.slots.find? fun d => d.slot == s.rd DMP_WIN_SEL_SLOT with
  | none => 0
  | some d => leAt (d.bytes s.rot.deviceId) (s.rd DMP_WIN_SEL_OFFSET + 8 * n) 8

/-! ### Instances in the scope of a reset (R396) -/

/-- An exchange program with MX inputs or an MX result, which a codec serves. -/
def Program.coded (p : Program) : Bool := p.infmt == 4 || p.outfmt == 4

/-- An instance uses a block of the request's scope. -/
def State.usesScope (s : State) (p : Program) (i : Instance) (q : ResetReq) : Bool :=
  let onC := !p.inMdies && s.workDie i.xid + 2 == q.die
  match q.domain with
  | 0 =>
    if q.block ≤ 7 then s.tile.chains.any fun ch => ch.die + 2 == q.die && ch.tile / 8 == q.block && ch.ctx == i.ctx && ch.xid == i.xid
    else if q.block = 0x10 then onC && p.coded
    else if q.block = 0x11 ∨ q.block = 0x12 then onC
    else if q.block = 0x20 then p.inMdies
    else if q.block = 0x21 then p.inMdies && p.coded
    else q.block == 0x30 && p.exactSum
  | 1 => true
  | 2 => p.exactSum
  | _ => true

/-- The reset prevents RESULT cells that a READY instance still has to send: its buffer or its ports are in scope. -/
def State.stopsResults (s : State) (m : Image) (p : Program) (i : Instance) (q : ResetReq) : Bool :=
  match q.domain with
  | 0 => s.usesScope p i q && q.block != 0x30
  | 2 => m.entries.any fun e => e.kind == 4 && e.srcbuf == i.xid && e.step == i.step && portDie e.port == q.die
  | _ => true

/-- CLASS of an engine error that a reset causes. -/
def resetClass (q : ResetReq) : Nat := if q.block = 0x20 ∨ q.block = 0x21 then 3 else if q.domain = 2 ∨ q.block = 0x30 then 4 else 2

/-- Step 2 of R394: the open instances of the scope go to ERROR. -/
def State.failInsts (s : State) (q : ResetReq) : State :=
  s.insts.foldl (fun s i =>
    match s.prog i.ctx i.xid with
    | none => s
    | some (m, p) =>
      if i.isOpen && (if i.state == .ready then s.stopsResults m p i q else s.usesScope p i q) then
        s.instError i.ctx i.xid (resetClass q) q.die true
      else s) s

/-- Step 2 of R394: the home unit's holds, while a C-die or an M-die is in reset (R397). -/
def State.holdDies (s : State) (q : ResetReq) : State :=
  if q.domain = 1 then
    contexts.foldl (fun s c => if s.armed c && !s.isBranch c then (s.setCtx c fun x => { x with holdDie := true }).holdJob c else s) s
  else s

/-- Step 3 of R394: RESET bits, and the shelf with its Pigeonholes in retention (R233, R316). -/
def State.guardReset (s : State) (q : ResetReq) : State :=
  if q.domain = 0 then s
  else
    let s := (s.wr FRK_STAT_RESET (s.rd FRK_STAT_RESET ||| dieBits (s.resetDies q))).reloadKeys
    if q.domain = 1 then (List.range s.cdies).foldl (fun s d => if s.awake d then s.wr (PGH_STAT_STATE (pghPg d)) 2 else s) s else s

/-! ### What a reset does (R393) -/

/-- Chains of the tiles that `p` selects end, and the tiles are scrubbed (R272). -/
def State.scrubWhere (s : State) (die : Nat) (p : Nat → Bool) : State :=
  let s := s.setTile fun t => { t with
    chains := t.chains.filter (fun ch => !(ch.die == die && p ch.tile))
    scrubs := t.scrubs.filter (fun x => !(x.die == die && p x.tile)) }
  ((List.range 64).filter p).foldl (fun s t => s.scrubTile die t) s

/-- The Dovetail edges that `p` selects are trained again with all their groups. -/
def State.edgesReset (s : State) (p : Nat → Bool) : State := ((List.range 10).filter p).foldl (fun s e => s.edgeTrain e) s

/-- An ENGINE reset of a block: tile groups are scrubbed, and the executor's armed timetables stop. -/
def State.engineReset (s : State) (q : ResetReq) : State :=
  if q.block ≤ 7 then s.scrubWhere (q.die - 2) fun t => t / 8 == q.block
  else if q.block = 0x20 then s.setHbm fun h => { h with slots := h.slots.filter fun x => x.mdie + 4 != q.die }
  else if q.block = 0x31 then (contexts.filter s.armed).foldl (fun s c => s.stopJob c 3) s
  else s

/-- A COMPUTE reset: C-dies and M-dies lose what is not in retention, and the stacks train again (R240). -/
def State.computeReset (s : State) : State :=
  let s := s.setTile fun t => { t with chains := [], scrubs := [], tileSram := [] }
  let s := s.setHbm fun h => { h with slots := [] }
  let s := s.edgesReset fun e => decide (2 ≤ (edgeEnds e).1 ∨ 2 ≤ (edgeEnds e).2)
  s.stacks'.foldl (fun s x => (s.wr (HBC_STAT_STATE (hbcPg x.1 x.2)) 0).wr (HBC_STAT_ATTEMPTS (hbcPg x.1 x.2)) 0) s

/-- Everything that the control cluster and the host port hold goes with an X-DIE reset of X0: sessions, transactions, flips and
timetables (R324, R331, R393). -/
def State.controlReset (s : State) : State :=
  let s := s.closeWhere fun _ => true
  let s := (s.setRst fun r => { r with remaps := [], planned := [], agentDumps := [] }).wr RST_REMAP_STAT_PHASE 0
  let s := { s with insts := s.insts.map fun (i : Instance) => { i with isOpen := false, cells := [] } }.showOpen
  let s := contexts.foldl (fun s c => if s.ttbState c = 0 then s else
    (s.setTtb c fun t => { TtbSt.fresh c with cmap := t.cmap, cmapHot := t.cmapHot }).ttbTo c 0) s
  (s.setRoute fun r => { r with txns := [], waiting := [], heldMreq := [], border := [], commit := none, lastRound := [] }).setBeyjo fun b =>
    { b with openReqs := [], running := [], opens := [] }

/-- An X-DIE reset: its links go down, its staging SRAM and its dead-letter ring are emptied, its edges train again. -/
def State.xdieReset (s : State) (die : Nat) : State :=
  let s := (diePorts die).foldl (fun s p => if s.carries .dz8 p then s.loseLink .dz8 p 0
    else if s.prtState .dz8 p = 5 then s else (s.wr (PRT_STAT_STATE (prtPg p)) 0).setIdle .dz8 p true) s
  let s := s.setTile fun t => { t with staging := mzero t.staging (die * 2 ^ 26) ((die + 1) * 2 ^ 26) }
  let s := s.setFlt .dz8 fun f => if die = 0 then { f with dll0 := [] } else { f with dll1 := [] }
  let s := ((s.wr (FLT_DLL_HEAD_HEAD (die * 2 ^ 28 + 0x01301000)) 0).wr (FLT_DLL_HEAD_WRAPPED (die * 2 ^ 28 + 0x01301000)) 0)
  let s := s.edgesReset fun e => (edgeEnds e).1 == die || (edgeEnds e).2 == die
  if die = 0 then s.controlReset else s

/-- Steps 5 and 6 of R394: the dump has ended, and the reset runs. A PACKAGE reset goes on as the boot. -/
def State.runReset (s : State) : State :=
  match s.rst.running with
  | none => s
  | some q =>
    let s := s.wr RST_STAT_PHASE 3
    match q.domain with
    | 0 => (s.bump RST_COUNT_ENGINE 1).engineReset q
    | 1 => ((s.bump RST_COUNT_COMPUTE 1).wr RST_STAT_IN_RESET (s.rd RST_STAT_IN_RESET ||| dieBits (s.resetDies q))).computeReset
    | 2 => ((s.bump RST_COUNT_XDIE 1).wr RST_STAT_IN_RESET (setBit (s.rd RST_STAT_IN_RESET) q.die true)).xdieReset q.die
    | _ => s.packageReset

/-- Shows the running reset. -/
def State.showReset (s : State) (q : ResetReq) : State :=
  ((s.wr RST_STAT_DOMAIN q.domain).wr RST_STAT_DIE q.die).wr RST_STAT_BLOCK (if q.domain = 0 then q.block else 0)

/-- Steps 1 to 4 of R394: instances, holds, RESET bits, the dump; without a dump the reset proceeds at once (R388). -/
def State.beginReset (s : State) (q : ResetReq) (dump : Bool) : State :=
  let s := (s.setRst fun r => { r with running := some q }).showReset q
  let s := ((s.failInsts q).holdDies q).guardReset q
  if dump then
    let left := if q.domain = 0 then blockRegions q.block q.die else dieRegions (s.resetDies q ++ if q.domain = 3 then [15] else [])
    let s := (s.startDump q.cause (if q.domain = 0 then q.block else 0) q.die (if q.domain = 0 then 2 else if q.domain = 3 then 0 else 1) 0
      left false none).wr RST_STAT_PHASE 1
    match s.rst.dump with
    | some d => if d.noSlot || !s.dumpArea then (s.endDump).runReset else s
    | none => s
  else s.runReset

/-- A reset is requested (R394, R408): a larger one than the running one starts at once and takes no second dump, another waits;
a dump of the host's is ended first. -/
def State.requestReset (s : State) (q : ResetReq) : State :=
  if !s.requestOk q then s
  else match s.rst.running with
    | none => (s.readLeft.endDump).beginReset q true
    | some r =>
      if larger q r then
        let s := if s.rst.dump.isSome then s.readLeft.endDump else s
        s.beginReset q false
      else (s.setRst fun x => { x with queue := x.queue ++ [q] }).wr RST_STAT_QUEUED 1

/-- RST_GO (R394, R409). -/
def execRstGo (block die domain : Nat) (s : State) : Out := .next (s.requestReset ⟨domain, die, block, 0⟩)

/-- SYSRST_N_FALL (R394, R441, R462). -/
def execSysrstNFall (s : State) : Out := .next (if s.boot.porst then s else s.requestReset ⟨3, 0, 0, 0⟩)

/-- A reaction that has started: its window opens (R371). Serial 0 stands until its event is decided. -/
def State.openWindow (s : State) (kind serial die item : Nat) : State :=
  s.setFlt .dz8 fun f => { f with reactions := f.reactions ++ [(⟨kind, serial, die, item, false⟩ : Reaction)] }

/-- WATCHDOG_HANG (R370, R384, R408): the block is dumped and reset. -/
def execWatchdogHang (block die : Nat) (s : State) : Out :=
  .next (if !s.blockOk block die then s
  else
    let s := ((s.bump RST_HANG_COUNT 1).wr RST_HANG_BLOCK block).wr RST_HANG_DIE die
    let s := s.detect .dz8 rstPg 0 (block * 2 ^ 4 + die) none
    (s.openWindow 3 0 die block).requestReset ⟨0, die, block, 0⟩)

/-- SELF_SNAPSHOT (R385). -/
def execSelfSnapshot (block die : Nat) (s : State) : Out :=
  .next (if !s.blockOk block die then s
  else s.setRst fun r => { r with snaps := r.snaps.filter (fun x => !(x.block == block && x.die == die)) ++
    [(⟨block, die, s.postmark, s.regData die fun f => (blockFams block).contains f⟩ : Snapshot)] })

/-- DUMP_READ_TIMEOUT (R387): the block of the next region is read no further, and its last self-snapshot stands in. -/
def execDumpReadTimeout (s : State) : Out :=
  .next (match s.rst.dump with
    | none => s
    | some d =>
      match d.left with
      | [] => s
      | r :: _ =>
        let mine := fun (x : Nat × Nat × Nat × Nat) => x.2.1 == r.2.1 && x.2.2.1 == r.2.2.1
        let gone := d.left.filter mine
        let snap := (s.rst.snaps.reverse.find? fun x => x.die == r.2.1 && (x.block == r.2.2.1 || (blockFams x.block).contains r.2.2.1))
        let copy : List Region := match snap with
          | some x => [⟨6, x.die, x.block, 0, false, false, false, x.stamp, x.data⟩]
          | none => []
        let d := { d with left := d.left.filter (fun x => !mine x), dump := { d.dump with regions := d.dump.regions ++ unread false true gone ++ copy } }
        (s.setRst fun q => { q with dump := some d }).detect .dz8 dmpPg 0 (r.2.2.1 * 2 ^ 4 + r.2.1) none)

/-- The dump proceeds to its end, and a reset that waited for it runs. -/
def State.dumpDone (s : State) : State :=
  let s := s.endDump
  if s.rd RST_STAT_PHASE = 1 then s.runReset else s

/-- DUMP_BUDGET_EXPIRY (R388). -/
def execDumpBudgetExpiry (s : State) : Out :=
  .next (match s.rst.dump with
    | none => s
    | some d =>
      let d := { d with left := [], dump := { d.dump with regions := d.dump.regions ++ unread true false d.left } }
      ((s.setRst fun q => { q with dump := some d }).wr DMP_STAT_NOTREAD 1).dumpDone)

/-- DUMP_COMPLETE (R388, R394). -/
def execDumpComplete (us : Nat) (s : State) : Out :=
  .next (if s.rst.dump.isSome then (s.readLeft.wr RST_TIME_DUMP_US us).dumpDone else s)

/-- Families of the agent pages that a dump reads, in the order of R392: FLT, PRT, RTE, TMK, TTB, RST. -/
def agentFams : List Nat := [0x13, 3, 5, 2, 6, 0x16]

/-- Pages of an agent as regions of KIND 7, in the order of R392; after a timeout the families not read are unreachable. -/
def agentRegions (pages : List (Nat × Nat × List Byte)) (failed : Bool) : List Region :=
  (agentFams.flatMap fun f => (pages.filter fun x => x.1 == f).map fun x => (⟨7, 0, f, x.2.1, false, false, false, 0, x.2.2⟩ : Region)) ++
    if failed then (agentFams.filter fun f => f == 0x16 || !pages.any fun x => x.1 == f).map fun f => ⟨7, 0, f, 0, false, false, true, 0, []⟩
    else []

/-- The active unit is to take a dump of an agent of its domain, in hardware mode (R392). -/
def State.wantAgentDump (s : State) (f : Nat) : State :=
  let s := s.startMode 6 (s.hostMode 6)
  if s.modeNow 6 || !s.active || f / 256 != s.domain || s.rst.agentDumps.contains f then s
  else s.setRst fun r => { r with agentDumps := r.agentDumps ++ [f] }

/-- AGENT_DUMP (R392): the dump that an event of the agent, its loss or the host's command asks for; what the agent answers is the
command's operand. It waits for a dump that runs. -/
def execAgentDump (fid : Nat) (pages : List (Nat × Nat × List Byte)) (failed : Bool) (s : State) : Out :=
  .next (
    let mine := match s.rst.dump with | some d => d.dump.scope == 3 && d.dump.agentFid == fid | none => false
    if !mine && (s.rst.dump.isSome || !s.rst.agentDumps.contains fid) then s
    else
      let s := if mine then s else
        (s.setRst fun r => { r with agentDumps := r.agentDumps.filter fun f => f != fid }).startDump 0 0 0 3 fid [] false none
      let s := match s.rst.dump with
        | some d => s.setRst fun q => { q with dump := some { d with dump := { d.dump with regions := agentRegions pages failed } } }
        | none => s
      let s := if failed then s.detect .dz8 dmpPg 0 fid none else s
      s.endDump)

/-- MAIL_DUMP (R391). -/
def execMailDump (index slot : Nat) (s : State) : Out :=
  .next (
    let w := s.slotGet index slot 0
    let scope := bits w 1 0
    let die := bits w 7 4
    let block := bits w 23 16
    match s.takenFor index slot 2, s.mailErr index slot 2 (if scope = 3 then 2 else 1) [0, 2] with
    | false, _ => s
    | true, some e => s.mailReject index slot e []
    | true, none =>
    let s := s.startMode 6 (s.hostMode 6)
    if s.rst.dump.isSome then s.mailReject index slot 4 []
    else if scope = 3 ∧ s.modeNow 6 then s.mailReject index slot 0x11 []
    else if (scope = 1 ∧ ¬ s.hasDie die) ∨ (scope = 2 ∧ ¬ s.blockOk block die) then s.mailReject index slot 3 []
    else
      let left := if scope = 0 then dieRegions ((List.range 8).filter s.hasDie ++ [15]) else if scope = 1 then dieRegions [die]
        else if scope = 2 then blockRegions block die else []
      let s := s.startDump 0 (if scope = 2 then block else 0) (if scope = 0 ∨ scope = 3 then 0 else die) scope
        (if scope = 3 then bits (s.slotGet index slot 1) 13 0 else 0) left (bit w 32) (some (index, slot))
      match s.rst.dump with
      | some d => if d.noSlot || !s.dumpArea then s.endDump else s.mailRuns index slot 2
      | none => s)

end Sys2Proof.Machine
end

