-- ==== Sys2Proof/Machine/React.lean ====
section
/-! DEFINITION. Deciding events, the first fault and the secondary log, reactions and host decisions, clearing sources, and the
Jig (R358 to R382, R493, R494). -/

namespace Sys2Proof.Machine

/-! ### Reactions (R366 to R368) -/

/-- Detectors whose owning rule states an action on their block or on a job: a park, a group out, a tile failure, a void, a stack
failure; the new attempt of a lost link (R80, R366). -/
def ownAction (fam det : Nat) : Bool :=
  (fam == 3 && (det == 1 || det == 2 || det == 6)) || (fam == 4 && (det == 0 || det == 1)) || (fam == 9 && det < 3) ||
    ((fam == 7 || fam == 8) && det == 1) || (fam == 0x0B && (det == 0 || det == 3)) || (fam == 0x16 && det == 0) || (fam == 0x18 && det == 0)

/-- The reaction for an edge: COMPUTE where an end is a C-die or an M-die, else the X-DIE reset of X1 (R94). -/
def edgeKind (e : Nat) : Nat := if 2 ≤ (edgeEnds e).1 ∨ 2 ≤ (edgeEnds e).2 then 4 else 5

/-- The block that holds a source of CLX, CDC or HBC. -/
def blockOfSource (x : Nat) : Nat :=
  if srcFam x = 7 then 0x12 else if srcFam x = 8 then (if 4 ≤ srcDie x then 0x21 else 0x10) else 0x20

/-- The reaction that a promotion to SEVERE calls for: 2 port retrain, 3 ENGINE, 4 COMPUTE, 5 X-DIE, 9 a tile failure (R366). -/
def promotionKind (x : Nat) : Option Nat :=
  if ownAction (srcFam x) (srcDet x) then none
  else match srcFam x with
    | 3 => some 2
    | 4 => some (edgeKind (srcInst x))
    | 7 => some 3
    | 8 => some 3
    | 0x0B => some 3
    | 9 => some 9
    | _ => none

/-- The die of an X-DIE reset for a source. -/
def xdieOf (x : Nat) : Nat := if srcFam x = 3 then portDie (srcInst x) else 1

/-- Runs a reaction of a source, for the fault with this serial (R366). HOLD takes every armed timetable to use the block, since the
dies, engines and links are shared (R268, R367; DESIGN CHOICE, log entry 147). -/
def State.runReaction (s : State) (serial x kind detail : Nat) : State :=
  match kind with
  | 1 => contexts.foldl (fun s c => if s.armed c then s.setTtb c fun t => { t with stopReq := true } else s) s
  | 2 => (s.openWindow 2 serial (srcDie x) (srcInst x)).retrainPort .dz8 (srcInst x)
  | 3 => (s.openWindow 3 serial (srcDie x) (blockOfSource x)).requestReset ⟨0, srcDie x, blockOfSource x, serial⟩
  | 4 => (s.openWindow 4 serial 2 0).requestReset ⟨1, 2, 0, serial⟩
  | 5 => (s.openWindow 5 serial (xdieOf x) 0).requestReset ⟨2, xdieOf x, 0, serial⟩
  | 9 => s.tileFail (srcDie x - 2) detail 1
  | _ => s

/-- The reactions allowed to the host: the default, any larger reset domain with the source, HOLD, and NONE for a promotion (R367). -/
def allowedFor (kind : Nat) (promoted : Bool) : Nat :=
  let big := if kind = 2 then 2 ^ 5 else if kind = 3 then 2 ^ 4 else 0
  (2 ^ kind ||| big ||| 2) + b2n promoted

/-- FLT_REACT shows the first decision. -/
def State.showDecision (s : State) : State :=
  match s.flt.decisions with
  | [] => s.wr FLT_REACT_PENDING 0
  | d :: _ => (((s.wr FLT_REACT_PENDING 1).wr FLT_REACT_ALLOWED d.allowed).wr FLT_REACT_DEFAULT d.default).wr FLT_REACT_SERIAL d.serial

/-- A reaction starts, or waits for the host where the failure policy is the host's (R367). -/
def State.startReaction (s : State) (e : Event) (kind : Nat) : State :=
  let s := if s.flt.decisions.isEmpty then s.startMode 3 (s.hostMode 3) else s
  if s.modeNow 3 ∧ 2 ≤ kind ∧ kind ≤ 5 then
    (s.setFlt .dz8 fun f => { f with decisions := f.decisions ++ [(⟨e.serial, e.source, kind, allowedFor kind e.promoted⟩ : Decision)] }).showDecision
  else s.runReaction e.serial e.source kind e.detail

/-- The first decision is made. -/
def State.decide1 (s : State) (choice : Option Nat) : State :=
  match s.flt.decisions with
  | [] => s
  | d :: r =>
    let k := match choice with | some c => if bit d.allowed c then c else d.default | none => d.default
    ((s.setFlt .dz8 fun f => { f with decisions := r }).showDecision).runReaction d.serial d.source k 0

/-- FLT_CHOICE (R367): a choice that is not allowed runs the default. -/
def execFltChoice (choice : Nat) (s : State) : Out := .next (s.decide1 (some choice))

/-- POLICY_WAIT_EXPIRY (R367). -/
def execPolicyWaitExpiry (s : State) : Out := .next (s.decide1 none)

/-- REACTION_WINDOW_END (R371). -/
def execReactionWindowEnd (serial : Nat) (s : State) : Out :=
  .next (
    let drop := fun (f : FltSt) => { f with reactions := f.reactions.filter fun r => !(r.serial == serial && r.done) }
    if s.flt.reactions.any fun r => r.serial == serial && r.done then s.setFlt .dz8 drop else s.setFlt .agent drop)

/-- A reaction that started with its detection takes the serial of its event, as do the events merged into it. -/
def State.nameReaction (s : State) (kind die item serial : Nat) : State :=
  let mine := fun (r : Reaction) => r.serial == 0 && r.kind == kind && r.die == die && r.item == item
  if s.flt.reactions.any mine then
    let s := s.setFlt .dz8 fun f => { f with
      reactions := f.reactions.map (fun r => if mine r then { r with serial := serial } else r)
      waiting := f.waiting.map fun e => if e.merged && e.fault == 0 then { e with fault := serial } else e }
    let tag := fun (q : ResetReq) => if kind = 3 ∧ q.cause = 0 ∧ q.domain = 0 ∧ q.die = die ∧ q.block = item then { q with cause := serial } else q
    s.setRst fun r => { r with running := r.running.map tag, queue := r.queue.map tag }
  else s

/-- What a decided event of the unit's own calls for (R366, R368, R370, R371). -/
def State.reactTo (s : State) (e : Event) : State :=
  let fam := srcFam e.source
  let det := srcDet e.source
  if e.remote || e.conseq then s
  else
    let s := if fam = 0x16 ∧ det = 0 then s.nameReaction 3 (e.detail % 16) (e.detail / 16) e.serial
      else if fam = 0x18 ∧ det = 0 then s.nameReaction 6 0 0 e.serial else s
    if e.level = FATAL then
      if detSecurity .dz8 fam det then s
      else if e.merged then s.setFlt .dz8 fun f => { f with deferred := f.deferred ++ [e] }
      else s.setFlt .dz8 fun f => { f with fatal := true }
    else if e.merged then s
    else if fam = 4 ∧ det = 1 then s.runReaction e.serial e.source (edgeKind (srcInst e.source)) e.detail
    else if e.level = SEVERE ∧ e.promoted then
      match promotionKind e.source with
      | some k => s.startReaction e k
      | none => s
    else s

/-- What the agent does: a PRT source promoted to SEVERE retrains its port, a FATAL event stops scheduled injection (R493). -/
def State.agReactTo (s : State) (e : Event) : State :=
  let s := if e.level = FATAL then (s.setFlt .agent fun f => { f with fatal := true }).setAgTime fun t => { t with injectStop := true } else s
  if e.level = SEVERE ∧ e.promoted ∧ !e.merged ∧ srcFam e.source = 3 ∧ !ownAction 3 (srcDet e.source) then
    (s.setFlt .agent fun f => { f with reactions := f.reactions ++ [(⟨2, e.serial, 0, srcInst e.source, false⟩ : Reaction)] }).retrainPort
      .agent (srcInst e.source)
  else s

/-! ### First fault, log and reports (R363 to R365, R373, R374) -/

/-- Records that the secondary log holds. -/
def logSize : Site → Nat
  | .dz8 => 1024
  | .agent => 256

/-- A record goes to the secondary log (R365); a wrap is an event of its own. -/
def State.logEvent (s : State) (d : Site) (e : Event) : State :=
  if e.level = NOTE ∧ s.rdS d FLT_CTRL_LOG_NOTE = 0 then s
  else
    let n := logSize d
    let full := decide (n ≤ (s.fltS d).log.length)
    let head := s.rdS d FLT_LOG_HEAD_HEAD
    let s := (s.setFlt d fun f => { f with log := ringPush n f.log e }).wrS d FLT_LOG_HEAD_HEAD ((head + 1) % n)
    if full then
      let s := s.bumpS d FLT_LOG_HEAD_OVERFLOW 1
      if head = 0 then s.detect d fltPg 0 0 none else s
    else s

/-- The counter of a level. -/
def countFld : Nat → Fld
  | 0 => FLT_COUNT_NOTE
  | 1 => FLT_COUNT_MINOR
  | 2 => FLT_COUNT_SEVERE
  | _ => FLT_COUNT_FATAL

/-- An event is a STEPMISS of the agent, whose own cell reports it (R147, R374). -/
def isStepmiss (x : Nat) : Bool := srcFam x == 6 && srcDet x == 1

/-- One event takes its serial, its place, its counts, its report and its reaction. -/
def State.record (s : State) (d : Site) (e : Event) : State :=
  let f := s.fltS d
  let e := { e with serial := f.nextSerial }
  let s := s.setFlt d fun f => { f with nextSerial := (f.nextSerial + 1) % 2 ^ 32 }
  let s := if f.first.isNone && decide (MINOR ≤ e.level) && !e.merged then s.setFlt d fun f => { f with first := some { e with first := true } }
    else s.logEvent d e
  let s := if e.conseq then s.bumpS d FLT_MERGE_CONSEQ 1 else if e.merged then s.bumpS d FLT_MERGE_MERGED 1
    else s.bumpS d (countFld e.level) 1
  let masked := !e.remote && s.masked d e.source
  match d with
  | .dz8 =>
    let s := if MINOR ≤ e.level && !e.merged && !masked then s.notifyT 1 (e.ctx.getD 0xFF) e.words e.tenantWords else s
    s.reactTo e
  | .agent =>
    let s := if MINOR ≤ e.level && !isStepmiss e.source then
        s.send .agent (s.newCell .agent s.agUnit 1 tFAULT (e.serial % 2 ^ 16) 8 0 0 (e.words ++ [2 ^ 56, 0]))
      else s
    s.agReactTo e

/-- The order of events: by STAMP, then LEVEL, highest first, then SOURCE (R364). -/
def eventBefore (a b : Event) : Bool :=
  if a.arrival ≠ b.arrival then decide (a.arrival < b.arrival)
  else if a.level ≠ b.level then decide (b.level < a.level) else decide (a.source < b.source)

/-- EVENT_DECIDE (R364): every event up to the STAMP is decided. -/
def execEventDecide (site : Site) (stamp : Nat) (s : State) : Out :=
  .next (
    let due := sortBy eventBefore ((s.fltS site).waiting.filter fun e => decide (e.arrival ≤ stamp))
    let s := s.setFlt site fun f => { f with waiting := f.waiting.filter fun e => !decide (e.arrival ≤ stamp) }
    due.foldl (fun s e => s.record site e) s)


/-! ### What the registers show (R372, R379, R380) -/

/-- Raised sources of a page, with their levels. -/
def State.raisedOn (s : State) (d : Site) (pg : Nat) : List Src :=
  (s.fltS d).srcs.filter fun r => r.raised && r.source / 32 == sourceOf (s.fidS d) pg 0 / 32

/-- PG_FAULT: RAISED and LEVEL. -/
def State.pgRaised (s : State) (d : Site) (pg : Nat) : Nat := (s.raisedOn d pg).foldl (fun m r => m ||| 2 ^ srcDet r.source) 0
def State.pgLevel (s : State) (d : Site) (pg : Nat) : Nat := (s.raisedOn d pg).foldl (fun m r => max m r.level) 0

/-- Raised sources of the device and their highest level. -/
def State.raisedCount (s : State) (d : Site) : Nat := min 65535 ((s.fltS d).srcs.filter (·.raised)).length
def State.raisedLevel (s : State) (d : Site) : Nat := ((s.fltS d).srcs.filter (·.raised)).foldl (fun m r => max m r.level) 0

/-- FAULT_N is held low: from the release of PORST_N until READY, and while a raised source that is not masked stands at or above
FLOOR (R372, R442). -/
def State.faultPin (s : State) (d : Site) : Bool :=
  match d with
  | .dz8 => !s.boot.porst && (decide (s.rd GEN_BOOT_STATE ∈ [1, 2, 3, 5]) ||
      s.flt.srcs.any fun r => r.raised && !s.masked .dz8 r.source && decide (s.rd FLT_PIN_FLOOR_FLOOR ≤ r.level))
  | .agent => s.agFlt.srcs.any fun r => r.raised && !s.masked .agent r.source && decide (s.ard FLT_PIN_FLOOR_FLOOR ≤ r.level)

/-- The record at an index of the log ring. -/
def State.logAt (s : State) (d : Site) (i : Nat) : Option Event :=
  let l := (s.fltS d).log
  let n := logSize d
  if l.length < n then l[i]? else l[(i + n - s.rdS d FLT_LOG_HEAD_HEAD) % n]?

/-! ### Clearing (R361, R363, R380, R381) -/

/-- A write of 1s to PG_FAULT.RAISED: FATAL sources and security detectors stay. -/
def State.clearFaults (s : State) (d : Site) (pg m : Nat) : State :=
  let clear := fun (r : Src) =>
    if r.raised && r.source / 32 == sourceOf (s.fidS d) pg 0 / 32 && bit m (srcDet r.source) && decide (r.level < FATAL) &&
        !detSecurity d (srcFam r.source) (srcDet r.source) then
      { r with level := (detInitial d (srcFam r.source) (srcDet r.source)).getD r.level, count := 0, raised := false }
    else r
  s.setFlt d fun f => { f with srcs := f.srcs.map clear }

/-- PG_FAULT_CLEAR (R361). -/
def execPgFaultClear (site : Site) (page : Nat) (mask : Word) (s : State) : Out := .next (s.clearFaults site page mask.toNat)

/-- CLEAR_FIRST (R363). -/
def State.clearFirst (s : State) (d : Site) : State := s.setFlt d fun f => { f with first := none }

/-- FLT_CLEAR_FIRST (R363). -/
def execFltClearFirst (site : Site) (s : State) : Out := .next (s.clearFirst site)

/-- CLEAR_LOG (R380). -/
def State.clearLog (s : State) (d : Site) : State := (s.setFlt d fun f => { f with log := [] }).wrS d FLT_LOG_HEAD_HEAD 0

/-- FLT_CLEAR_LOG (R380). -/
def execFltClearLog (site : Site) (s : State) : Out := .next (s.clearLog site)

/-- The FLT page of a dead-letter ring. -/
def dllPage (die : Nat) : Nat := die * 2 ^ 28 + 0x01301000

/-- CLEAR of a dead-letter ring (R381). -/
def State.clearDll (s : State) (d : Site) (die : Nat) : State :=
  let s := s.setFlt d fun f => if die = 0 then { f with dll0 := [] } else { f with dll1 := [] }
  (s.wrS d (FLT_DLL_HEAD_HEAD (dllPage die)) 0).wrS d (FLT_DLL_HEAD_WRAPPED (dllPage die)) 0

/-- FLT_DLL_CLEAR (R381). -/
def execFltDllClear (die : Nat) (s : State) : Out := .next (if die < 2 then s.clearDll .dz8 die else s)

/-- A reset's domain contained these dies: their FATAL sources clear, a security detector's does not (R361). -/
def State.clearFatal (s : State) (dies : List Nat) : State :=
  s.setFlt .dz8 fun f =>
    let srcs := f.srcs.map fun r =>
      if r.level == FATAL && dies.contains (srcDie r.source) && !detSecurity .dz8 (srcFam r.source) (srcDet r.source) then
        { r with level := (detInitial .dz8 (srcFam r.source) (srcDet r.source)).getD r.level, count := 0, raised := false }
      else r
    { f with
      srcs := srcs
      fatal := f.fatal && srcs.any fun r => r.level == FATAL && r.raised && !detSecurity .dz8 (srcFam r.source) (srcDet r.source) }

/-! ### The Jig (R375 to R377, R494) -/

/-- ARM clears: every PG_JIG returns to MODE 0 (R376). -/
def State.jigOff (s : State) (d : Site) : State :=
  let keep := fun (e : Nat × Nat) => !(e.1 / 64 % 2 ^ 12 == 0x28 && e.1 % 64 == 2)
  let s := (s.wrS d JIG_ARM_ARM 0).setFlt d fun f => { f with jigChecks := [] }
  match d with
  | .dz8 => { s with regs := s.regs.filter keep }
  | .agent => { s with aregs := s.aregs.filter keep }

/-- A write of JIG_ARM; a TIMEOUT_S of 0 is out of range and keeps the field. -/
def State.jigArm (s : State) (d : Site) (v : Nat) : State :=
  let s := if bits v 23 8 = 0 then s else s.wrS d JIG_ARM_TIMEOUT_S (bits v 23 8)
  if bit v 0 then s.wrS d JIG_ARM_ARM 1 else s.jigOff d

/-- JIG_ARM_WRITE (R376, R382). -/
def execJigArmWrite (site : Site) (value : Word) (s : State) : Out := .next (s.jigArm site value.toNat)

/-- JIG_ARM_TIMEOUT (R376). -/
def execJigArmTimeout (site : Site) (s : State) : Out := .next (if s.rdS site JIG_ARM_ARM = 1 then s.jigOff site else s)

/-- The device is SEALED. -/
def State.isSealed (s : State) (d : Site) : Bool :=
  match d with
  | .dz8 => s.sealedNow
  | .agent => s.ard LCS_STAT_STATE == 3

/-- GO of PG_JIG: refused, or the injection is live (R375 to R377). -/
def State.jigGo (s : State) (d : Site) (pg : Nat) : State :=
  if s.rdS d (PG_JIG_MODE pg) = 0 then s
  else
    let det := s.rdS d (PG_JIG_DET pg)
    let x := sourceOf (s.fidS d) pg det
    match firstCode [(s.rdS d JIG_ARM_ARM = 0, 1), (detSecurity d (srcFam x) det && s.isSealed d, 2), ((detInitial d (srcFam x) det).isNone, 3)] with
    | some why =>
      let s := (s.wrS d (PG_JIG_REFUSED pg) 1).bumpS d JIG_STAT_REFUSED 1
      (s.wrS d JIG_LAST_REASON why).wrS d JIG_LAST_SOURCE x
    | none => s.setFlt d fun f => { f with jigChecks := tset f.jigChecks (pg / 4096) 1 }

/-- PG_JIG_GO (R375). -/
def execPgJigGo (site : Site) (page : Nat) (s : State) : Out := .next (s.jigGo site page)

/-- A check of a detector under a live injection point (R375): whether the injection fires, and the state after it. -/
def State.jigFire (s : State) (d : Site) (x : Nat) : Bool × State :=
  let pg := srcPage x
  let n := tget (s.fltS d).jigChecks (pg / 4096)
  let mode := s.rdS d (PG_JIG_MODE pg)
  if n = 0 ∨ mode = 0 ∨ s.rdS d (PG_JIG_DET pg) ≠ srcDet x then (false, s)
  else
    let fires := mode != 2 || n % max 1 (s.rdS d (PG_JIG_EVERY pg)) == 0
    let s := s.setFlt d fun f => { f with jigChecks := tset f.jigChecks (pg / 4096) (if mode = 1 then 0 else n + 1) }
    if fires then
      let s := (s.wrS d (PG_JIG_FIRED pg) (min 255 (s.rdS d (PG_JIG_FIRED pg) + 1))).bumpS d JIG_STAT_INJECTED 1
      (true, if mode = 1 then s.wrS d (PG_JIG_MODE pg) 0 else s)
    else (false, s)

/-- What the rule of a DZ8 detector makes of a check that injection falsified: a link lost, a group out, a tile failed, a stack failed, a
void, a hang, a throttle, a tamper response without the fuse (R366, R375). -/
def State.injectAct (s : State) (x detail : Nat) : State :=
  match srcFam x, srcDet x with
  | 0x03, 6 => s.linkDown .dz8 (srcInst x)
  | 0x04, 0 => s.groupOut (srcInst x) (detail % 16)
  | 0x04, 1 => s.groupOut (srcInst x) (detail % 16)
  | 0x06, 2 => (execTtbVoid (srcInst x) s).after s
  | 0x09, 0 => s.tileFail (srcDie x - 2) detail 1
  | 0x0B, 0 => if srcInst x < 6 then (s.wr (HBC_STAT_STATE (srcPage x)) 4).detect .dz8 (srcPage x) 0 detail none else s
  | 0x0F, d => s.tamper d true
  | 0x16, 0 => (execWatchdogHang (detail / 16) (detail % 16) s).after s
  | 0x18, 0 => s.thermalTrip (srcDie x) detail
  | _, _ => s

/-- An injected detection: the detector's own action, then its event with INJECTED set (R375). -/
def State.injectedDetect (s : State) (source stamp detail : Nat) (ctx : Option Nat) : State :=
  let n := s.flt.waiting.length
  let t := s.injectAct source detail
  let mine := fun (e : Event) => srcFam e.source == srcFam source && srcDet e.source == srcDet source
  if (t.flt.waiting.drop n).any mine then t.setFlt .dz8 fun f => { f with
    waiting := f.waiting.take n ++ (f.waiting.drop n).map fun e => if mine e then { e with injected := true } else e }
  else t.detectAt .dz8 source stamp detail ctx true

/-- DETECTOR_EVENT (R360, R375): a check of the source's detector detects. -/
def execDetectorEvent (site : Site) (source stamp detail : Nat) (ctx : Option Nat) (s : State) : Out :=
  .next (if srcFid source ≠ s.fidS site ∨ (detInitial site (srcFam source) (srcDet source)).isNone then s
  else
    let j := s.jigFire site source
    if j.1 && site = .dz8 then j.2.injectedDetect source stamp detail ctx else j.2.detectAt site source stamp detail ctx j.1)

end Sys2Proof.Machine
end

