-- ==== Sys2Proof/Machine/Remap.lean ====
section
/-! DEFINITION. The end of a reset, holds, lost members, spares and their restore streams (R394 to R408, R374, R490). -/

namespace Sys2Proof.Machine

/-! ### The end of a reset (R384, R394, R398) -/

/-- The next reset that waits starts (R408). -/
def State.nextReset (s : State) : State :=
  match s.rst.queue with
  | [] => s
  | q :: r => ((s.setRst fun x => { x with queue := r }).wr RST_STAT_QUEUED (b2n !r.isEmpty)).beginReset q true

/-- An M-die's selector sector names another step, an earlier one, than the executor has committed (R398). -/
def State.selectorsDiffer (s : State) (c : Nat) : Bool :=
  (s.ttb c).updateAt != 0 && (List.range s.mdies).any fun m => tget s.hbm.selStep (c * 4 + m) != (s.ttb c).updateAt

/-- The optimizer state of a context whose selectors differ is split (R248, R398). -/
def State.splitCheck (s : State) : State :=
  contexts.foldl (fun s c => if s.selectorsDiffer c && (match s.img c with | some m => m.exchanges.any (fun x => x.2.op == 6) | none => false) then
    ((s.setCtx c fun x => { x with split := true }).setHbm fun h => { h with
      mapBad := if h.mapBad.contains c then h.mapBad else h.mapBad ++ [c] }).detect .dz8 (hbcPg 0 0) 3 c (some c) else s) s

/-- What ends with a COMPUTE reset: the Pigeonholes wake, staged images of guardians and tiles run, the sequencer image goes out,
and the holds of the dies end (R233, R397, R450, R453). -/
def State.computeDone (s : State) : State :=
  let s := (List.range s.cdies).foldl (fun s d => s.wr (PGH_STAT_STATE (pghPg d)) 0) s
  let s := if s.boot.tryKinds.any fun k => k == 4 || k == 5 then ((s.reload [4, 5]).measureAll.newAk).showUpdate.showImages else s
  (contexts.foldl (fun s c => s.setCtx c fun x => { x with holdDie := false }) s.seqBroadcast).splitCheck

/-- What ends with an X-DIE reset: the links of the die train again; with X0 a staged control image runs and the flip record is
resolved (R124, R450). -/
def State.xdieDone (s : State) (die : Nat) : State :=
  let s := (diePorts die).foldl (fun s p => if s.prtState .dz8 p = 0 then s.startAttempt .dz8 p else s) s
  if die ≠ 0 then s
  else
    let s := if s.boot.tryKinds.contains 3 then ((s.reload [3]).measureAll.newAk).showUpdate.showImages else s
    if s.active then s.flipRecovery else s

/-- A reset has passed its check (R394 step 7); the RESET bit of a die other than X0 clears with its guardian's report (R286, R316). -/
def State.resetOk (s : State) (q : ResetReq) (us : Nat) : State :=
  let dies := if q.domain = 0 then [] else s.resetDies q
  let keep := fun (m : Nat) => dies.foldl (fun m d => setBit m d false) m
  let s := (s.wr RST_STAT_IN_RESET (keep (s.rd RST_STAT_IN_RESET))).wr FRK_STAT_RESET
    (if dies.contains 0 then setBit (s.rd FRK_STAT_RESET) 0 false else s.rd FRK_STAT_RESET)
  let s := (s.setRst fun r => { r with running := none, stuck := r.stuck.filter fun d => !dies.contains d }).wr RST_STAT_PHASE 0
  let s := if q.domain = 1 then s.edgesUp.computeDone else if q.domain = 2 then s.edgesUp.xdieDone q.die else s
  let waits := s.rst.queue.map (·.cause)
  let s := (s.wr RST_TIME_LAST_US us).clearFatal dies
  (s.reloadKeys.runWaiting.reactionDone .dz8 fun r =>
    decide (3 ≤ r.kind) && decide (r.kind ≤ q.domain + 3) && !waits.contains r.serial).nextReset

/-- A reset has failed its check (R384): an ENGINE reset escalates, a COMPUTE or an X-DIE reset leaves its dies in reset and the unit
waits for the host. -/
def State.resetFails (s : State) (q : ResetReq) : State :=
  let s := s.detect .dz8 rstPg 1 (q.block * 2 ^ 4 + q.die) none
  if q.domain = 0 then
    let d := if 2 ≤ q.die then 1 else 2
    (s.setFlt .dz8 fun f => { f with
      reactions := f.reactions.map fun r => if r.kind == 3 && r.serial == q.cause then { r with kind := d + 3 } else r }).beginReset
        ⟨d, q.die, 0, q.cause⟩ false
  else
    let s := s.setRst fun r => { r with running := none, stuck := r.stuck ++ (s.resetDies q).filter fun d => !r.stuck.contains d }
    (s.wr RST_STAT_PHASE 5).setFlt .dz8 fun f => { f with fatal := true }

/-- RESET_COMPLETE (R384, R394, R398). -/
def execResetComplete (checkOk : Bool) (us : Nat) (s : State) : Out :=
  .next (match s.rst.running with
    | none => s
    | some q =>
      if s.rd RST_STAT_PHASE ≠ 3 ∨ q.domain = 3 then s
      else if checkOk then s.resetOk q us else s.resetFails q)

/-! ### The checkpoint directory and the restore stream (R402, R403, R490) -/

/-- Word `i` of the directory entry of a LID (R402). -/
def State.ckpWord (s : State) (c lid i : Nat) : Nat := leNat (s.regionRead c 4 (64 * lid + 8 * i) 8)

/-- LIDs whose entry holds step state. -/
def State.ckpLids (s : State) (c : Nat) : List Nat :=
  (List.range (s.rd (CTX_SLICE_N (ctxPg c)))).filter fun l => bit (s.ckpWord c l 0) 63

/-- The iteration and the step that an entry names. -/
def State.ckpStep (s : State) (c lid : Nat) : Nat × Nat := (bits (s.ckpWord c lid 0) 31 0, bits (s.ckpWord c lid 1) 31 0)

/-- Two entries with step state differ: there is no common checkpoint (R402). -/
def State.noCheckpoint (s : State) (c : Nat) : Bool :=
  match s.ckpLids c with
  | [] => false
  | l :: ls => ls.any fun k => s.ckpStep c k != s.ckpStep c l

/-- The common checkpoint, none where no entry holds step state. -/
def State.checkpoint (s : State) (c : Nat) : Option (Nat × Nat) := (s.ckpLids c).head?.map (s.ckpStep c)

/-- Bytes in whole cells. -/
def padCells (bs : List Byte) : List Byte := fit (up48 bs.length) bs

/-- The bytes of the restore stream of a LID: its image as stored in the vault, then its state (R403). -/
def State.streamBytes (s : State) (c lid : Nat) : List Byte :=
  let w := s.ckpWord c lid
  (if bit (w 0) 62 then padCells (s.regionRead c 1 (bits (w 5) 44 0) (imageBytes' (bits (w 6) 39 0))) else []) ++
    if bit (w 0) 63 then padCells (s.regionRead c 4 (bits (w 2) 44 0) (bits (w 3) 39 0)) else []

/-- Cells of the stream: offset and 48 bytes. -/
def State.streamCells (s : State) (c lid : Nat) : List (Nat × List Byte) :=
  let bs := s.streamBytes c lid
  (List.range (bs.length / 48)).map fun i => (48 * i, (bs.drop (48 * i)).take 48)

/-- Bytes that a chunk of the stream counts (R490). -/
def chunkBytes : Nat := 50331648

/-- Cells that chunk `k` of a stream of `n` cells holds. -/
def chunkCells (n k : Nat) : Nat := min 1048576 (n - 1048576 * k)

/-- Cells that the stream may send to a FID in this beat: the C0 of each link of its route less the charge of the running
timetables (R139, R403). -/
def State.streamRoom (s : State) (f : Nat) : Nat :=
  let r := s.theRod
  let load := fun (k : Nat) => ((contexts.filter fun c => s.ttbState c == 5 && !s.on (TTB_STAT_PAUSED (ttbPg c))).map fun c =>
    match s.img c with
    | none => 0
    | some m =>
      loadAt ((s.charges c m r s.route.active).filter fun q => q.links.contains k) m.iterBeats
        (s.time.beat - s.rd (TTB_BASE_BEAT (ttbPg c)))).sum
  match ((hops s.fid (s.path r s.route.active f (r.chips.length + 1) s.fid).1).map fun k => s.linkC0 (k / 2) - load k) with
  | [] => 0
  | x :: xs => xs.foldl min x

/-- The first re-mapping with cells to send sends those of this beat (R403). -/
def State.streamBeat (s : State) : State :=
  match s.rst.remaps.find? fun m => !m.toSend.isEmpty && m.spare.isSome with
  | none => s
  | some m =>
    let f := m.spare.getD 0
    let now := m.toSend.take (s.streamRoom f)
    let s := s.setRst fun r => { r with remaps := r.remaps.map fun x =>
      if x.ctx == m.ctx && x.lid == m.lid then { x with toSend := x.toSend.drop now.length } else x }
    let s := now.foldl (fun s q =>
      s.send .dz8 (s.newCell .dz8 f 0 tPUT 0 0 (q.1 % 2 ^ 32) (q.1 / 2 ^ 32 % 4096) (wordsOf q.2))) s
    s.bump RST_STREAM_BYTES (48 * now.length)

/-! ### Spares (R400, R401, R404, R406) -/

/-- The re-mapping of a LID that is under way. -/
def State.remapOf (s : State) (c lid : Nat) : Option Remap := s.rst.remaps.find? fun m => m.ctx == c && m.lid == lid

/-- Changes the re-mapping of a LID. -/
def State.setRemap (s : State) (c lid : Nat) (f : Remap → Remap) : State :=
  s.setRst fun r => { r with remaps := r.remaps.map fun m => if m.ctx == c && m.lid == lid then f m else m }

/-- The re-mapping of a LID ends. -/
def State.dropRemap (s : State) (c lid : Nat) : State :=
  s.setRst fun r => { r with remaps := r.remaps.filter fun m => !(m.ctx == c && m.lid == lid) }

/-- Links of a chip in the Rod, all of them UP. -/
def State.linksUp (s : State) (f : Nat) : Bool :=
  let es := s.theRod.ends f
  !es.isEmpty && es.all fun e => s.usable e.link

/-- Every link of a chip lies outside UP and DEGRADED (R400). -/
def State.linksLost (s : State) (f : Nat) : Bool := (s.theRod.ends f).all fun e => !s.linkAlive e.link

/-- A spare meets R401 but for the quota; that its agent is aligned is not shown to the unit, and links UP stand for it (log entry
32). -/
def State.spareOk (s : State) (c f : Nat) : Bool :=
  (s.sparePool s.domain).contains f && s.linksUp f && !(s.ctx c).badSpares.contains f &&
    !contexts.any fun k => s.ctxState k != 0 && (s.sliceFids k).contains f

/-- The lowest FID that qualifies (R401). -/
def State.chooseSpare (s : State) (c : Nat) : Option Nat :=
  (sortBy (fun a b => decide (a < b)) (s.sparePool s.domain)).find? (s.spareOk c)

/-- The quota of the context's spares in this domain is used up (R267, R401). -/
def State.quotaUsed (s : State) (c : Nat) : Bool := decide (s.rd (CTX_SLICE_SPARE_QUOTA (ctxPg c)) ≤ s.rd (CTX_SLICE_SPARES_USED (ctxPg c)))

/-- RST_REMAP_STAT shows a re-mapping (R409). -/
def State.showRemap (s : State) (c lid phase : Nat) (spare : Option Nat) : State :=
  (((s.wr RST_REMAP_STAT_CONTEXT c).wr RST_REMAP_STAT_LID lid).wr RST_REMAP_STAT_PHASE phase).wr RST_REMAP_STAT_SPARE (spare.getD 0)

/-- A re-mapping ends with a code of R407, in the slot that asked for it. -/
def State.remapFails (s : State) (mail : Option (Nat × Nat)) (code : Nat) (words : List Nat) : State :=
  let s := s.wr RST_REMAP_STAT_LAST_CODE code
  match mail with
  | some m => s.mailReject m.1 m.2 code words
  | none => s

/-- The vault image that the checkpoint of a LID names is one that the vault holds: imported here, or MIRRORED before a takeover
(R302, R430). -/
def State.imageHeld (s : State) (c lid : Nat) : Bool :=
  let off := bits (s.ckpWord c lid 5) 44 0
  let n := imageBytes' (bits (s.ckpWord c lid 6) 39 0)
  s.rot.images.any fun x => x.ctx == c && decide (x.off ≤ off) && decide (off + n ≤ x.off + imageBytes' x.len)

/-- Step 2 and the start of step 3 of R404 with a spare: the map, the count, the key delivery, the restore stream and the flip. -/
def State.remapWith (s : State) (c lid f : Nat) (mail : Option (Nat × Nat)) (auto : Bool) : State :=
  let image := bit (s.ckpWord c lid 0) 62
  if image ∧ s.mdies ≠ 0 ∧ ¬ s.vaultOk c then ((s.replayFailure c).showRemap c lid 0 (some f)).remapFails mail 0x17 []
  else if image ∧ s.mdies ≠ 0 ∧ ¬ s.imageHeld c lid then (s.showRemap c lid 0 (some f)).remapFails mail 0x17 []
  else
    let s := (s.setCtx c fun x => { x with map := tset x.map lid (2 ^ 63 + 2 ^ 62 + f) }).bump (CTX_SLICE_SPARES_USED (ctxPg c)) 1
    let s := ((s.showRemap c lid 2 (some f)).wr RST_STREAM_BYTES 0).dropRemap c lid
    let none' := s.mdies == 0
    let m : Remap := ⟨c, lid, some f, false, false, none', if none' then [] else s.streamCells c lid, mail, auto⟩
    let dom := f / 256
    let s := (s.setRst fun r => { r with remaps := r.remaps ++ [m] }).setRoute fun r => { r with
      nextEpochs := r.nextEpochs.filter (fun x => x.1 != dom) ++ [(dom, (s.epochOf .dz8 dom + 1) % 16)] }
    let s := (s.dueGen.redeliver c lid)
    (if s.delivering c lid || s.rot.ended.any fun e => e.1 == c && e.2.1 == lid then s
      else s.setRemap c lid fun m => { m with keysDone := true }).requestFlip

/-- REMAP_START of spec/95 (R401, R404, R406): a spare is chosen, or none qualifies. -/
def State.remapStart (s : State) (c lid : Nat) (mail : Option (Nat × Nat)) : State :=
  let s := s.showRemap c lid 1 none
  if s.noCheckpoint c then (s.wr RST_REMAP_STAT_PHASE 0).remapFails mail 0x15 []
  else if s.quotaUsed c then ((s.wr RST_REMAP_STAT_PHASE 4).notifyJob c 9 lid).remapFails mail 0x14 []
  else match s.chooseSpare c with
    | none => ((s.wr RST_REMAP_STAT_PHASE 4).notifyJob c 9 lid).remapFails mail 0x13 []
    | some f => s.remapWith c lid f mail true

/-- A member of an ASSIGNED context is lost: its job is held, and in hardware mode its re-mapping starts in its own domain
(R397, R400). -/
def State.loseMember (s : State) (c lid : Nat) : State :=
  match s.lidFid c lid with
  | none => s
  | some f =>
    if s.ctxState c ≠ 2 ∨ (s.ctx c).lost.contains lid then s
    else
      let s := ((s.setCtx c fun x => { x with lost := x.lost ++ [lid], holdChips := x.holdChips.filter (· != lid) }).holdJob c).notifyJob c 8 lid
      let s := s.wantAgentDump f
      if f / 256 ≠ s.domain ∨ ¬ s.active then s
      else
        let s := s.startMode 4 (s.hostMode 4)
        if s.modeNow 4 then s else s.remapStart c lid none

/-- A member that is lost already, a spare among them, is lost in turn: the next spare is chosen (R408). -/
def State.loseAgain (s : State) (c lid : Nat) : State :=
  match s.remapOf c lid with
  | some m => if m.auto then
      ((s.setCtx c fun x => { x with badSpares := x.badSpares ++ m.spare.toList }).dropRemap c lid).remapStart c lid m.mail
    else (s.dropRemap c lid).remapFails m.mail 0x12 []
  | none => s.loseMember c lid

/-- Deliveries of R307 that ended (R400, R401): one more key of a spare, a spare that fails its policy, or a member that is lost. -/
def State.settleDelivery (s : State) (e : Nat × Nat × Nat) : State :=
  let c := e.1
  let lid := e.2.1
  let code := e.2.2
  match s.remapOf c lid with
  | none => if code = 0 then s else s.loseMember c lid
  | some m =>
    if code = 0 then (if s.delivering c lid then s else s.setRemap c lid fun m => { m with keysDone := true })
    else
      let s := (s.setCtx c fun x => { x with badSpares := x.badSpares ++ m.spare.toList.filter fun f => !x.badSpares.contains f }).dropRemap c lid
      let s := s.wr RST_REMAP_STAT_LAST_CODE 0x16
      if m.auto then s.remapStart c lid m.mail else s.remapFails m.mail 0x16 [m.spare.getD 0, 0, code]

/-- Every delivery of R307 that ended is settled; one settled may end others. -/
def State.settleKeys (s : State) : Nat → State
  | 0 => s
  | n + 1 =>
    if s.rot.ended.isEmpty then s
    else
      let es := s.rot.ended
      (es.foldl (fun s e => s.settleDelivery e) (s.setRot fun r => { r with ended := [] })).settleKeys n

/-- Settles deliveries, each round of which takes a spare of the pool at most. -/
def State.settle (s : State) : State := s.settleKeys (s.theRod.chips.length + 2)

/-- MEMBER_LOST_LINKS (R400, R404, R408). -/
def execMemberLostLinks (ctx lid : Nat) (s : State) : Out :=
  .next (match s.lidFid ctx lid with
    | some f => if s.linksLost f then (s.loseAgain ctx lid).settle else s
    | none => s)

/-- MEMBER_LOST_RESET (R400). -/
def execMemberLostReset (ctx lid : Nat) (s : State) : Out :=
  .next (if (s.ctx ctx).holdChips.contains lid then (s.loseAgain ctx lid).settle else s)

/-- RESTORE_STREAM_END (R490): short chunks are cleared and sent again, else END is set. -/
def execRestoreStreamEnd (ctx lid : Nat) (counts : List Nat) (s : State) : Out :=
  .next (match s.remapOf ctx lid with
    | none => s
    | some m =>
      match m.spare with
      | none => s
      | some f =>
        let cells := s.streamCells ctx lid
        if !m.toSend.isEmpty || m.streamDone then s
        else
          let short := (List.range (ceilDiv cells.length 1048576)).filter fun k => nth counts k != chunkCells cells.length k
          if short.isEmpty then (s.remoteWrite f 0x600218 [2 ^ 63]).setRemap ctx lid fun m => { m with streamDone := true }
          else
            let s := short.foldl (fun s k => (s.remoteWrite f 0x600220 [k]).remoteWrite f 0x600228 [2 ^ 63]) s
            s.setRemap ctx lid fun m => { m with toSend := cells.filter fun q => short.contains (q.1 / chunkBytes) })

/-! ### The end of a hold (R397, R404) -/

/-- Every cause of a context's hold has ended. -/
def State.holdOver (s : State) (c : Nat) : Bool :=
  let x := s.ctx c
  let mine := s.rst.remaps.filter fun m => m.ctx == c
  !x.holdDie && x.holdChips.isEmpty && !x.split && mine.all (fun m => m.keysDone && m.streamDone && m.flipped) &&
    x.lost.all fun l => mine.any (fun m => m.lid == l) || (s.fidOf c l) / 256 != s.domain

/-- The step at which a re-mapped job resumes: the members learn it from a stop notice (R402; log entries 23 and 33). -/
def State.resumeFrom (s : State) (c : Nat) : State :=
  let pg := ttbPg c
  match s.checkpoint c with
  | none => s
  | some (iter, st) =>
    if s.rd (TTB_ITER_ITER pg) = iter ∧ s.rd (TTB_STEP_NEXT pg) = st then s
    else
      let v : VoidSt := ⟨(s.rd (TTB_VOID_SERIAL pg) + 1) % 2 ^ 32, st, iter, s.time.beat, none, 0, 0, s.rd (TTB_VOID_PARITY pg), none, s.fid, 0,
        [], false⟩
      (((s.wr (TTB_VOID_SERIAL pg) v.serial).voidOut c v).wr (TTB_STEP_NEXT pg) st).wr (TTB_ITER_ITER pg) iter

/-- HOLD_REARM (R397, R404): R is the latest of 4,096 beats from now, the restore times and the key deliveries. -/
def execHoldRearm (ctx restoreEnd keyEnd : Nat) (s : State) : Out :=
  .next (
    let mine := s.rst.remaps.filter fun m => m.ctx == ctx
    let r := max (s.time.beat + 4096) (max restoreEnd keyEnd)
    let held := (s.ttb ctx).held
    if !s.active || s.pair.handover.isSome || !s.holdOver ctx || (mine.isEmpty && !(held && s.mayRearm ctx)) then s
    else if held && !s.mayRearm ctx then s
    else
      let s := mine.foldl (fun s m =>
        let s := (s.dropRemap ctx m.lid).showRemap ctx m.lid (if s.mayRearm ctx then 3 else 0) m.spare
        match m.mail with
        | some k => s.mailOk k.1 k.2 [m.spare.getD 0, r, 0]
        | none => s) s
      let s := s.setCtx ctx fun x => { x with lost := x.lost.filter fun l => !mine.any fun m => m.lid == l }
      if s.mayRearm ctx then (if mine.isEmpty then s else s.resumeFrom ctx).beginArmWith ctx r true (mine.map (·.lid)) else s)

/-! ### REMAP (R407) -/

/-- The first refusal of a REMAP: code of R407, or BUSY for a LID whose re-mapping runs or is planned, or ARGS for AUTO in host-assisted
mode. -/
def State.remapErr (s : State) (c lid spare : Nat) (planned auto : Bool) : Option Nat :=
  firstCode [(auto && s.modeNow 4, 3), ((s.remapOf c lid).isSome || s.rst.planned.any fun q => q.1 == c && q.2.1 == lid, 4), (s.ctxState c != 2, 0x10),
    ((s.lidFid c lid).isNone || (!(s.ctx c).lost.contains lid && !planned), 0x11), (!auto && !s.spareOk c spare, 0x12),
    (auto && (s.chooseSpare c).isNone, 0x13), (s.quotaUsed c, 0x14), (s.noCheckpoint c, 0x15)]

/-- The re-mapping that a REMAP asks for starts: the unit chooses the spare, or the host has named it. -/
def State.remapAsked (s : State) (c lid : Nat) (spare : Option Nat) (mail : Nat × Nat) : State :=
  match spare with
  | none => s.remapStart c lid (some mail)
  | some f => s.remapWith c lid f (some mail) false

/-- The job runs and has not reached its next step boundary. -/
def State.runningJob (s : State) (c : Nat) : Bool := s.ttbState c == 5 && !s.on (TTB_STAT_PAUSED (ttbPg c))

/-- Planned re-mappings whose job is held start (R407). -/
def State.startPlanned (s : State) : State :=
  let go := s.rst.planned.filter fun q => !s.runningJob q.1
  if go.isEmpty then s
  else (go.foldl (fun s q => s.remapAsked q.1 q.2.1 q.2.2.1 q.2.2.2)
    (s.setRst fun r => { r with planned := r.planned.filter fun q => s.runningJob q.1 })).settle

/-- MAIL_REMAP (R400, R407): with PLANNED the job of a member that is not lost is held at its next step boundary first. -/
def execMailRemap (index slot : Nat) (s : State) : Out :=
  .next (
    let w0 := s.slotGet index slot 0
    let w1 := s.slotGet index slot 1
    let c := bits w0 19 16
    let lid := bits w0 11 0
    let f := bits w1 13 0
    let auto := bit w1 63
    match s.takenFor index slot 4, s.mailErr index slot 4 2 [0] with
    | false, _ => s
    | true, some e => s.mailReject index slot e []
    | true, none =>
      let s := s.startMode 4 (s.hostMode 4)
      match s.remapErr c lid f (bit w0 32) auto with
      | some 0x13 => ((s.showRemap c lid 4 none).notifyJob c 9 lid).remapFails (some (index, slot)) 0x13 []
      | some e => s.remapFails (some (index, slot)) e []
      | none =>
        let waits := !(s.ctx c).lost.contains lid && s.runningJob c
        let s := (s.setCtx c fun x => { x with lost := if x.lost.contains lid then x.lost else x.lost ++ [lid] }).holdJob c
        let spare := if auto then none else some f
        if waits then (s.setRst fun r => { r with planned := r.planned ++ [(c, lid, spare, index, slot)] }).mailRuns index slot 4
        else
          let s := s.remapAsked c lid spare (index, slot)
          (if (s.remapOf c lid).isSome then s.mailRuns index slot 4 else s).settle)

/-! ### FAULT cells (R374, R397, R400) -/

/-- What an agent's event means for the job of its context: a host-chip reset holds it, a FATAL event loses the member. -/
def State.faultJob (s : State) (e : Event) : State :=
  match s.ctxOfFid (srcFid e.source) with
  | none => if e.level = FATAL then s.wantAgentDump (srcFid e.source) else s
  | some c =>
    let s := if e.level = FATAL then s.wantAgentDump (srcFid e.source) else s
    match ((s.membersOf c).find? fun m => m.2 == srcFid e.source).map (·.1) with
    | none => s
    | some lid =>
      if e.level = FATAL then s.loseMember c lid
      else if srcFam e.source = 0x16 ∧ srcDet e.source = 0 ∧ s.ctxState c = 2 ∧ ¬ (s.ctx c).lost.contains lid then
        if e.detail = 0 then (s.setCtx c fun x => { x with holdChips := if x.holdChips.contains lid then x.holdChips else x.holdChips ++ [lid] }).holdJob c
        else s.setCtx c fun x => { x with holdChips := x.holdChips.filter (· != lid) }
      else s

/-- FAULT_CELL (R358, R374): a reserved CLASS is dropped. -/
def execFaultCell (cell : Cell) (s : State) : Out :=
  .next (if bits (cellWord cell 4) 63 56 ≠ 1 then s
  else ((s.remoteEvent cell).faultJob (Event.ofWords (cellWord cell 0) (cellWord cell 1) (cellWord cell 2) (cellWord cell 3))).settle)

end Sys2Proof.Machine
end

