-- ==== Sys2Proof/Machine/Agent.lean ====
section
/-! DEFINITION. The agent block: placing and counting cells, arming, events, the codec unit, restore streams (R89, R90, R468,
R479 to R484, R490). -/

namespace Sys2Proof.Machine

/-! ### Buffers of the host chip (R468, R479) -/

/-- Fields of a handle as the host chip bound it (R483); a handle beyond 0xFFF names nothing. -/
def State.handleOk (s : State) (h : Nat) : Bool := decide (h < 4096) && bit (tget s.ag.hlen h) 63
def State.handleLen (s : State) (h : Nat) : Nat := if s.handleOk h then bits (tget s.ag.hlen h) 39 0 else 0
def State.handleRd (s : State) (h : Nat) : Bool := bit (tget s.ag.hlen h) 62
def State.handleWr (s : State) (h : Nat) : Bool := bit (tget s.ag.hlen h) 61
def State.handleBase (s : State) (h : Nat) : Nat := tget s.ag.hbase h / 64 * 64

/-- Bytes of host-chip memory from a place in a handle. -/
def State.hostRead (s : State) (h o n : Nat) : List Byte := mread s.ag.hostMem (s.handleBase h + o) n

/-- Writes host-chip memory at a place in a handle. -/
def State.hostWrite (s : State) (h o : Nat) (bs : List Byte) : State :=
  s.setAg fun a => { a with hostMem := mwrite a.hostMem (s.handleBase h + o) bs }

/-- Transfers of the buffer port that a cell takes at most: k of R468 at 512 bits (log entry 15). -/
def bufferK : Nat := 2

/-- Sink maximum of the agent in cells per beat (R468). -/
def State.sinkMax (s : State) : Nat := s.ag.bclkMhz * s.periodS .agent / 1000 / bufferK

/-- TTB_SINK as the agent reports it (R483). -/
def State.sinkNow (s : State) : Nat := s.ag.sink.getD (s.sinkMax % 2 ^ 16)

/-! ### Cells at their destination (R89, R90, R481) -/

/-- The cell of a bound counter at the agent: the checks of R90, placement, and the count. -/
def State.placeAg (s : State) (port : Nat) (c : Cell) : State :=
  match s.ag.counters.find? fun k => k.cidx == c.cidx with
  | none => s.discard .agent port c rCIDX
  | some k =>
    if k.len < c.offset + 48 then s.discard .agent port c rBOUND
    else if k.expect ≤ k.count then s.discard .agent port c rOVER
    else
      (s.hostWrite k.handle (k.segment + c.offset) (cellPayload c)).setAg fun a => { a with
        counters := a.counters.map fun x => if x.cidx == c.cidx then { x with count := x.count + 1 } else x }

/-- A restore cell (R490): its offset in the stream, the checks, its place and the count of its chunk. A B_ERR leaves it not
placed and not counted (R468). -/
def State.restore (s : State) (port : Nat) (c : Cell) (bErr : Bool) : State :=
  let o := c.cidx % 2 ^ 12 * 2 ^ 32 + c.offset
  let k := o / chunkBytes
  if s.handleLen 0xFFF < o + 48 then s.discard .agent port c rBOUND
  else if 1048576 ≤ tget s.ag.chunks k then s.discard .agent port c rOVER
  else if bErr then s.detect .agent agTtb 3 (c.cidx % 2 ^ 12) none
  else
    ((s.hostWrite 0xFFF o (cellPayload c)).setAg fun a => { a with chunks := tset a.chunks k (tget a.chunks k + 1) }).abump
      Ia.TTB_RSTAT_CELLS 1

/-- A delivered cell passes the EPOCH check of its destination (R104). -/
def State.epochGood (s : State) (d : Site) (c : Cell) : Bool := c.epoch == s.epochOf d (s.domainS d)

/-- A PUT or RESULT cell at the agent; a PUT of a DZ8 belongs to a restore stream (R490). -/
def State.dataCell (s : State) (port : Nat) (c : Cell) : State :=
  if !s.epochGood .agent c then s.discard .agent port c rEPOCH
  else if c.type == tPUT && decide (0xFE ≤ c.src % 256) then s.restore port c false
  else s.placeAg port c

/-- A PUT or RESULT cell at the DZ8, whose port lists bind no counter (R90, R134). -/
def State.strayCell (s : State) (port : Nat) (c : Cell) : State :=
  s.discard .dz8 port c (if s.epochGood .dz8 c then rCIDX else rEPOCH)

/-- PUT_CELL (R89). -/
def execPutCell (site : Site) (port : Nat) (cell : Cell) (s : State) : Out :=
  .next (match site with
    | .dz8 => s.strayCell port cell
    | .agent => s.dataCell port cell)

/-- RESULT_CELL (R89). -/
def execResultCell (site : Site) (port : Nat) (cell : Cell) (s : State) : Out :=
  .next (match site with
    | .dz8 => s.strayCell port cell
    | .agent => s.dataCell port cell)

/-- RESTORE_CELL (R490): recorded at port 0 when it is discarded. -/
def execRestoreCell (cell : Cell) (bErr : Bool) (s : State) : Out :=
  .next (if s.epochGood .agent cell then s.restore 0 cell bErr else s.discard .agent 0 cell rEPOCH)

/-- BUFFER_ERROR (R468): the cell counts as not placed. -/
def execBufferError (cidx : Nat) (s : State) : Out :=
  .next ((s.setAg fun a => { a with
    counters := a.counters.map fun k => if k.cidx == cidx then { k with count := k.count - 1 } else k }).detect
      .agent agTtb 3 cidx (some s.agCtx))

/-- RCHUNK_CLEAR (R483): the chunk that TTB_RSEL shows. -/
def execRchunkClear (s : State) : Out :=
  .next (s.setAg fun a => { a with chunks := tset a.chunks (s.ard Ia.TTB_RSEL_CHUNK) 0 })

/-- The restore stream has ended: the agent queues STREAM (R490). -/
def State.streamEnd (s : State) : State :=
  s.agEvent 8 0 (s.ard (TTB_ITER_ITER agTtb)) (s.ard (TTB_STEP_NEXT agTtb))

/-- RSTAT_END (R490). -/
def execRstatEnd (s : State) : Out := .next s.streamEnd

/-! ### Sending (R135, R158, R481) -/

/-- One beat of a sending entry: at most RATE cells from its first send beat on. -/
def State.agSend (s : State) (x : AgSend) : State :=
  let e := s.agEntry x.entry
  match s.agOpen e.step with
  | none => s
  | some o =>
    if s.agTime.beat < o.boundary + e.beat then s
    else
      let parity := s.ard (TTB_VOID_PARITY agTtb)
      let n := min e.rate (e.cells - x.sent)
      let s := (List.range n).foldl (fun s j =>
        let i := x.sent + j
        let ws := wordsOf (s.hostRead e.srcbuf (e.segment + 48 * i) 48)
        let c := if e.kind = 1 then
            s.newCell .agent (tget s.agRoute.map e.target % 2 ^ 14) 0 tPUT i 0 (e.offset + 48 * i) (e.cidx + parity * 2 ^ 15) ws
          else
            s.newCell .agent (tget s.ag.xdst e.target % 2 ^ 14) 0 tCONTRIB i 0 (e.cidx % 4 * 2 ^ 30 + e.offset + i)
              (e.target % 2 ^ 15 + parity * 2 ^ 15) ws
        s.sendOn .agent e.port c) s
      s.setAg fun a => { a with sends := (a.sends.map fun y =>
        if y.entry == x.entry then { y with sent := y.sent + n } else y).filter fun y =>
          y.entry != x.entry || decide (y.sent < e.cells) }

/-- What the entries under way send in one beat; nothing in the safe state (R121, R135). -/
def State.agSendBeat (s : State) : State :=
  if s.ard Ia.TTB_STAT_STATE = 3 ∧ s.ard RTE_FLIPSTAT_SAFE = 0 then s.ag.sends.foldl State.agSend s else s

/-! ### Arming (R480) -/

/-- An entry names a handle that the host chip has not bound for it (code HANDLE). -/
def State.badHandle (s : State) (e : Entry) : Bool :=
  let h := e.srcbuf
  if e.kind = 1 ∨ e.kind = 2 then
    decide (0xFFF ≤ h) || !s.handleOk h || !s.handleRd h || decide (s.handleLen h < e.segment + 48 * e.cells)
  else if e.kind = 3 then decide (0xFFF ≤ h) || !s.handleOk h || !s.handleWr h || decide (s.handleLen h < e.segment + e.offset)
  else false

/-- The digest over the list, the step records, TTB_ITERB and TTB_TIMING equals TTB_LDIGEST (code DIGEST). -/
def State.listGood (s : State) : Bool :=
  let bs := mread s.ag.list 0 (32 * s.ard Ia.TTB_LLEN_ENTRIES) ++ mread s.ag.steps 0 (16 * s.ard Ia.TTB_SLEN_STEPS) ++
    leBytes 8 (s.ard Ia.TTB_ITERB_ITER_BEATS * 2 ^ 32 + s.ard Ia.TTB_ITERB_ITER) ++
    leBytes 8 (s.ard Ia.TTB_TIMING_SETTLE * 2 ^ 32 + s.ard Ia.TTB_TIMING_GRACE)
  sha256 bs == (List.range 4).flatMap fun i => leBytes 8 (s.ard (Ia.TTB_LDIGEST_DIGEST i))

/-- The first check of R480 that fails, 0 where none does. -/
def State.armErr (s : State) : Nat :=
  let es := s.agEntries.map (·.2)
  if s.ag.image.isNone then 1
  else if !s.listGood then 2
  else if es.any s.badHandle then 3
  else if es.any fun e => e.kind == 2 && !bit (tget s.ag.xdst e.target) 63 then 4
  else if s.ard Ia.TMK_STAT_STATE ≠ 2 then 5
  else if !s.ag.resets.isEmpty then 6
  else if s.ard Ia.TTB_REST_REST_US = 0xFFFFFFFF then 7
  else 0

/-- ARM at the agent (R480): the checks, then ARMED with the seed latched, or EMPTY. A job armed again goes on with its first step
not committed (R146, R397). -/
def State.agArm (s : State) : State :=
  if s.isLeaf then s
  else
    let code := s.armErr
    let s := s.awr Ia.TTB_STAT_ARM_ERR code
    if code = 0 then
      let s := match s.ag.uncommitted with
        | o :: _ => (s.awr (TTB_STEP_NEXT agTtb) o.step).awr (TTB_ITER_ITER agTtb) o.iter
        | [] => s
      let fresh := s.ard Ia.TTB_STAT_STATE == 1
      let s := (s.agClear.setAg fun a => { a with seedArmed := a.seed, fresh := fresh }).setAgTime fun t => { t with injectStop := false }
      (s.awr Ia.TTB_STAT_STATE 2).agEvent 4 0 (s.ard (TTB_ITER_ITER agTtb)) (s.ard (TTB_STEP_NEXT agTtb))
    else ((s.agClear.awr Ia.TTB_STAT_STATE 0)).detect .agent agTtb 0 code (some s.agCtx)

/-- AGENT_ARM (R480). -/
def execAgentArm (s : State) : Out := .next s.agArm

/-- DISARM at the agent (R481): at the next step boundary while it runs, at once where none is to come. -/
def State.agDisarm (s : State) : State :=
  let st := s.ard Ia.TTB_STAT_STATE
  if st = 3 then s.setAg fun a => { a with disarmReq := true } else if st = 0 then s else s.agEmpty 1

/-- AGENT_DISARM (R481). -/
def execAgentDisarm (s : State) : Out := .next s.agDisarm

/-- A list is loaded from its first entry (R480, R483): the entry count, STATE LOADING, and a timetable with nothing begun. -/
def State.agLoading (s : State) (n : Nat) : State :=
  if s.isLeaf then s
  else
    let s := (s.agClear.awr Ia.TTB_LLEN_ENTRIES (min n 65536)).awr Ia.TTB_STAT_STATE 1
    let s := ((s.awr (TTB_STEP_NEXT agTtb) 0).awr (TTB_STEP_COMMITTED agTtb) (2 ^ 32 - 1)).awr (TTB_ITER_ITER agTtb) 0
    s.awr (TTB_VOID_PARITY agTtb) 0

/-- TTB_LLEN_WRITE (R483). -/
def execTtbLlenWrite (value : Word) (s : State) : Out := .next (s.agLoading (value.toNat % 2 ^ 17))

/-- A read of the event queue: the oldest entry, which it removes, or 0 (R482). -/
def State.agEvtRead (s : State) : Nat × State :=
  match s.ag.events with
  | [] => (0, s)
  | e :: r => (e, s.setAg fun a => { a with events := r })

/-- TTB_EVT_READ (R482). -/
def execTtbEvtRead (s : State) : Out :=
  .next (let r := s.agEvtRead
    r.2.emit (.value .agent 0x6001C0 (word r.1)))

/-! ### The codec unit (R484) -/

/-- The words of CDC_JOB_SRC, DST, CFG, N and BEAT. -/
def State.jobWords (s : State) : List Nat :=
  [s.ard Ia.CDC_JOB_SRC_HANDLE * 2 ^ 52 + s.ard Ia.CDC_JOB_SRC_OFFSET,
   s.ard Ia.CDC_JOB_DST_HANDLE * 2 ^ 52 + s.ard Ia.CDC_JOB_DST_OFFSET,
   s.ard Ia.CDC_JOB_CFG_FMT * 2 ^ 56 + s.ard Ia.CDC_JOB_CFG_DIR * 2 ^ 55 + s.ard Ia.CDC_JOB_CFG_IN * 2 ^ 45 + s.ard Ia.CDC_JOB_CFG_XID,
   s.ard Ia.CDC_JOB_N_INDEX * 2 ^ 32 + s.ard Ia.CDC_JOB_N_ELEMS, s.ard Ia.CDC_JOB_BEAT_BEAT]

/-- The codec unit's error of a job, 0 where it may run: format byte, handle, not armed (R484). -/
def State.jobErr (s : State) (j : List Nat) : Nat :=
  let n := bits (nth j 3) 31 0
  match MxFmt.ofByte (bits (nth j 2) 63 56) with
  | none => 1
  | some f =>
    let plain := 4 * n
    let mx := f.size n
    let dec := bit (nth j 2) 55
    let src := bits (nth j 0) 63 52
    let dst := bits (nth j 1) 63 52
    if !s.handleOk src || !s.handleRd src || !s.handleOk dst || !s.handleWr dst ||
        decide (s.handleLen src < bits (nth j 0) 39 0 + if dec then mx else plain) ||
        decide (s.handleLen dst < bits (nth j 1) 39 0 + if dec then plain else mx) then 2
    else if s.ard Ia.TTB_STAT_STATE = 2 ∨ s.ard Ia.TTB_STAT_STATE = 3 then 0
    else 3

/-- Ends a job with its ERR. -/
def State.jobEnd (s : State) (err : Nat) : State :=
  (((s.awr Ia.CDC_JOB_CTRL_ERR err).awr Ia.CDC_JOB_CTRL_DONE 1).awr Ia.CDC_JOB_CTRL_BUSY 0).setAg fun a => { a with job := [] }

/-- GO (R484): ignored while BUSY. -/
def State.jobGo (s : State) : State :=
  if s.aon Ia.CDC_JOB_CTRL_BUSY || s.isLeaf then s
  else
    let j := s.jobWords
    let s := s.awr Ia.CDC_JOB_CTRL_DONE 0
    if s.jobErr j = 0 then ((s.awr Ia.CDC_JOB_CTRL_BUSY 1).awr Ia.CDC_JOB_CTRL_ERR 0).setAg fun a => { a with job := j }
    else s.jobEnd (s.jobErr j)

/-- CDC_JOB_GO (R484). -/
def execCdcJobGo (s : State) : Out := .next s.jobGo

/-- The agent's codec page counts a block encoded (R209). -/
def State.agCountEncode (s : State) (e : Encoded) : State :=
  let pg := agPg 8
  ((((s.abump (CDC_COUNT_ENCODED pg) 1).abump (CDC_SPECIAL_OUT_SPECIAL pg) (b2n e.special)).abump
    (CDC_SPECIAL_OVERFLOW pg) (b2n e.overflow)))

/-- The agent's codec page counts a block decoded; a malformed one is a MINOR fault (R200, R492). -/
def State.agCountDecode (s : State) (d : Decoded) : State :=
  let pg := agPg 8
  let s := ((s.abump (CDC_COUNT_DECODED pg) 1).abump (CDC_SPECIAL_IN_SPECIAL pg) (b2n d.special)).abump
    (CDC_SPECIAL_MALFORMED pg) (b2n d.malformed)
  if d.malformed then s.detect .agent pg 0 (s.ard Ia.RTE_SELF_LID) (some s.agCtx) else s

/-- Block `b` of a job: 128 elements, the last padded with zeros (R189, R484). -/
def State.jobBlock (s : State) (j : List Nat) (f : MxFmt) (b : Nat) : State :=
  let n := bits (nth j 3) 31 0
  let m := min 128 (n - 128 * b)
  let src := bits (nth j 0) 63 52
  let so := bits (nth j 0) 39 0
  let dst := bits (nth j 1) 63 52
  let d := bits (nth j 1) 39 0
  let xid := bits (nth j 2) 14 0
  let seed := s.ag.seedArmed
  let signs := signVector seed xid
  if bit (nth j 2) 55 then
    let r := decodeBlock f signs (s.hostRead src (so + f.bsz * b) f.bsz)
    (s.hostWrite dst (d + 512 * b) ((r.vals.take m).flatMap (leBytes 4))).agCountDecode r
  else
    let bs := s.hostRead src (so + 512 * b) (4 * m)
    let xs := (List.range 128).map fun i => if i < m then f32At bs i else 0
    let e := encodeBlock f signs ⟨seed, nth j 4, xid, bits (nth j 2) 46 45, s.ard Ia.RTE_SELF_LID, bits (nth j 3) 63 32 + 128 * b⟩ xs
    (s.hostWrite dst (d + f.bsz * b) e.bytes).agCountEncode e

/-- CDC_JOB_DONE (R484). -/
def execCdcJobDone (bufferOk : Bool) (s : State) : Out :=
  .next (
    if !s.aon Ia.CDC_JOB_CTRL_BUSY then s
    else if !bufferOk then s.jobEnd 4
    else
      let j := s.ag.job
      match MxFmt.ofByte (bits (nth j 2) 63 56) with
      | none => s.jobEnd 1
      | some f => ((List.range (ceilDiv (bits (nth j 3) 31 0) 128)).foldl (fun s b => s.jobBlock j f b) s).jobEnd 0)

end Sys2Proof.Machine
end

