-- ==== Sys2Proof/Machine/AgentKeys.lean ====
section
/-! DEFINITION. The agent block: its FID, measurement, evidence, keys, host-chip resets and its own reset (R466, R470, R485 to
R489, R495). -/

namespace Sys2Proof.Machine

/-! ### The FID (R470) -/

/-- The target bus answers a write (R467): T_ERR. -/
def State.busErr (s : State) (e : Nat) : State := s.emit (.bus e 0)

/-- The host chip's write of GEN_FID (R470): once until IA_PORST_N. -/
def State.setAgFid (s : State) (v : Nat) : State :=
  if s.aon GEN_FID_VALID then s.busErr 3
  else
    let s := (s.awr GEN_FID_FID (v % 2 ^ 14)).awr GEN_FID_VALID 1
    let s := (s.portNums .agent).foldl (fun s p => if s.carries .agent p then s.ctl .agent p 7 (s.identWord .agent p) else s) s
    s.busErr 0

/-- AGENT_FID_WRITE (R470). -/
def execAgentFidWrite (value : Word) (s : State) : Out := .next (s.setAgFid value.toNat)

/-! ### Measurement (R485) -/

/-- MEAS_START: ignored once the measurement is done. -/
def State.measStart (s : State) : State :=
  if s.ag.meas.done then s else s.setAg fun a => { a with meas := ⟨true, false, []⟩ }

/-- A word of an image. -/
def State.measIn (s : State) (w : Word) : State :=
  if s.ag.meas.isOpen then s.setAg fun a => { a with meas := { a.meas with words := a.meas.words ++ [w] } } else s

/-- MEAS_DONE: HOST_FW is fixed, and RESET clears where the host chip has left reset (R485, R486). -/
def State.measDone (s : State) : State :=
  if s.ag.meas.isOpen then
    let d := sha256 (s.ag.meas.words.flatMap fun w => leBytes 8 w.toNat)
    let s := (List.range 4).foldl (fun s i => s.awr (Ia.FRK_HOSTFW_DIGEST i) (wAt d (8 * i))) s
    let s := (s.setAg fun a => { a with meas := ⟨false, true, []⟩ }).awr Ia.FRK_STAT_MEASURED 1
    if s.ag.resets.isEmpty then s.awr Ia.FRK_STAT_RESET 0 else s
  else s

/-- MEAS_START (R485). -/
def execMeasStart (s : State) : Out := .next s.measStart

/-- MEAS_IN_WRITE (R485). -/
def execMeasInWrite (value : Word) (s : State) : Out := .next (s.measIn value)

/-- MEAS_DONE (R485). -/
def execMeasDone (s : State) : Out := .next s.measDone

/-- CERT_LOCK (R486). -/
def execCertLock (s : State) : Out := .next (s.awr Ia.FRK_CTRL_CERT_LOCK 1)

/-! ### Evidence (R303, R486) -/

/-- The nonce of FRK_NONCE. -/
def State.agNonce (s : State) : Nat := (List.range 4).foldl (fun a i => a + s.ard (Ia.FRK_NONCE_NONCE i) * 2 ^ (64 * i)) 0

/-- The pending evidence and its decapsulation key go. -/
def State.agDropKey (s : State) : State :=
  (s.setAg fun a => { a with evidence := none, evBuf := [] }).awr Ia.FRK_STAT_EV_PENDING 0

/-- The decapsulation key goes; a message held in the evidence buffer stays for its second (R486). -/
def State.agSpendKey (s : State) : State := (s.setAg fun a => { a with evidence := none }).awr Ia.FRK_STAT_EV_PENDING 0

/-- FRK_EVREQ.GO (R475, R486): a fresh key pair; a pending request is replaced. Without a running image nothing is formed. -/
def State.agEvReq (s : State) (requester : Nat) : State :=
  if s.ag.image.isNone then s
  else
    let n := s.ag.keyPairs + 1
    let s := s.agDropKey.setAg fun a => { a with
      keyPairs := n, evidence := some ⟨requester, s.agNonce, s.aon Ia.FRK_EVREQ_HOLD, n, false⟩ }
    s.awr Ia.FRK_STAT_EV_PENDING 1

/-- EVREQ_GO (R486). -/
def execEvreqGo (requester : Nat) (s : State) : Out := .next (s.agEvReq requester)

/-- An update of the agent's own image is in progress, from BEGIN until it runs or fails (R303, R462). -/
def State.fwUpdating (s : State) : Bool := match s.ag.fw with | some f => f.state != 2 | none => false

/-- UPDATE of the evidence: an update of the agent, or of its host chip, is in progress (R303). -/
def State.agUpdate (s : State) : Nat := if s.fwUpdating then 1 else s.ard Ia.FRK_STAT_UPDATE

/-- Bytes 0 to 1,735 of the EVIDENCE message (R303). -/
def State.evidenceHead (s : State) (e : EvPending) : List Byte :=
  let digest := fun (f : Nat → Fld) => (List.range 4).flatMap fun i => leBytes 8 (s.ard (f i))
  leBytes 8 (1 + s.fidS .agent * 2 ^ 16 + s.agUpdate * 2 ^ 32 + s.ard Ia.FRK_STAT_STAGED_VALID * 2 ^ 33 +
    s.ard Ia.FRK_STAT_RESET * 2 ^ 34 + s.ard Ia.FRK_STAT_TAMPER * 2 ^ 35) ++
  leBytes 32 e.nonce ++ (match s.ag.image with | some x => fit 32 x.digest | none => fit 32 []) ++
  digest Ia.FRK_HOSTFW_DIGEST ++
  (if s.aon Ia.FRK_STAT_STAGED_VALID then digest Ia.FRK_STAGED_DIGEST else fit 32 []) ++
  fit 32 Config.agentPk ++ fit 1568 (Config.kemEk e.keyPair)

/-- The EVIDENCE message of 18,824 bytes (R303). -/
def State.evidenceMsg (s : State) (e : EvPending) : List Byte :=
  let h := s.evidenceHead e
  h ++ fit 17088 (Config.slhSign (leNat Config.agentPk) h)

/-- EVIDENCE_FORMED (R486): sent to the requester, or kept in the evidence buffer with HOLD. -/
def execEvidenceFormed (s : State) : Out :=
  .next (match s.ag.evidence with
    | none => s
    | some e =>
      if e.formed then s
      else
        let msg := s.evidenceMsg e
        let s := s.setAg fun a => { a with evidence := some { e with formed := true } }
        if e.hold then s.setAg fun a => { a with evBuf := mwrite [] 0 msg }
        else s.sendMessage .agent e.requester 2 tEVIDENCE 0 msg)

/-- DECAP_KEY_EXPIRY (R486). -/
def execDecapKeyExpiry (s : State) : Out := .next s.agDropKey

/-! ### Keys (R487) -/

/-- K_SLOT of a KEYWRAP (R487). -/
def kSlot (kw : KeyWrap) : Nat := b2n kw.revoke * 2 ^ 7 + kw.ctx % 16 * 2 ^ 3 + kw.keyId % 8

/-- The wrap key of a KEYWRAP under the pending evidence's key pair (R288, R304). -/
def wrapOf (e : EvPending) (kw : KeyWrap) : Nat :=
  wrapKey (Config.kemDecap e.keyPair kw.ct) (wrapHead kw.ctx kw.keyId kw.revoke kw.serial kw.nonce)

/-- The tag of a KEYWRAP fits (R304). -/
def wrapFits (e : EvPending) (kw : KeyWrap) : Bool :=
  gcmTag (wrapOf e kw) 0 (wrapHead kw.ctx kw.keyId kw.revoke kw.serial kw.nonce) (fit 32 kw.wkey) == kw.tag

/-- KEYWRAP_CELL (R487): the nonce, decapsulation and the tag, then the side-band; nothing is driven while the host chip is in
reset. -/
def execKeywrapCell (kw : KeyWrap) (s : State) : Out :=
  .next (
    if s.isLeaf then s
    else
      let pend := match s.ag.evidence with | some e => if e.nonce = kw.nonce then some e else none | none => none
      match pend with
      | none => s.detect .agent (agPg 0xE) 0 (kSlot kw) none
      | some e =>
        let s := s.agSpendKey
        if !wrapFits e kw then s.detect .agent (agPg 0xE) 0 (kSlot kw) none
        else if !s.ag.resets.isEmpty then s
        else
          let key := leNat (gcmText (wrapOf e kw) 0 0 (fit 32 kw.wkey))
          (s.setAg fun a => { a with xfer := some ⟨kSlot kw, key⟩ }).emit
            (.key (kSlot kw) ((List.range 4).map fun i => word (key / 2 ^ (64 * i)))))

/-- The outcome of a side-band transfer (R487): FRK_KEYSTAT, the copy zeroed, and the event KEY. -/
def State.keyOutcome (s : State) (ok : Bool) : State :=
  match s.ag.xfer with
  | none => s
  | some x =>
    let c := bits x.slot 6 3
    let k := x.slot % 8
    let revoke := bit x.slot 7
    let s := s.setAg fun a => { a with xfer := none }
    let keys := if s.ard Ia.FRK_KEYSTAT_CONTEXT = c then s.ard Ia.FRK_KEYSTAT_KEYS else 0
    let s := if ok then (s.awr Ia.FRK_KEYSTAT_CONTEXT c).awr Ia.FRK_KEYSTAT_KEYS (setBit keys k (!revoke))
      else
        let s := if revoke then s else s.awr Ia.FRK_KEYSTAT_KEYS (if s.ard Ia.FRK_KEYSTAT_CONTEXT = c then setBit keys k false
          else s.ard Ia.FRK_KEYSTAT_KEYS)
        s.detect .agent (agPg 0xE) 1 x.slot none
    s.agEvent 7 x.slot (s.ard (TTB_ITER_ITER agTtb)) (s.ard (TTB_STEP_NEXT agTtb))

/-- KEY_SIDEBAND_ACK (R487). -/
def execKeySidebandAck (ack : Bool) (s : State) : Out := .next (s.keyOutcome ack)

/-- KEY_SIDEBAND_TIMEOUT (R487). -/
def execKeySidebandTimeout (s : State) : Out := .next (s.keyOutcome false)

/-- IA_TAMPER_N (R466, R492). -/
def execIaTamperN (s : State) : Out :=
  .next ((s.awr Ia.FRK_STAT_TAMPER 1).detect .agent (agPg 0xE) 2 0 none)

/-! ### Host-chip resets (R489) -/

/-- The reset lines as they are driven. -/
def State.driveLines (s : State) : State :=
  let low := s.ag.resets.filter fun r => !r.released
  s.emit (.hcLines (low.any fun r => r.domain == 1)
    ((low.filter fun r => r.domain == 0).foldl (fun a r => setBit a r.block true) 0))

/-- RST_STAT of the resets in progress (R489). -/
def State.showLines (s : State) : State :=
  (s.awr Ia.RST_STAT_COMPUTE (b2n (s.ag.resets.any fun r => r.domain == 1))).awr Ia.RST_STAT_ENGINE
    ((s.ag.resets.filter fun r => r.domain == 0).foldl (fun a r => setBit a r.block true) 0)

/-- What a COMPUTE reset also does (R485, R489, R495): injection stops at once, the counters are unbound, the job waits to be armed
again, and the measurement is reopened. -/
def State.hcCompute (s : State) : State :=
  let s := (s.setAg fun a => { a with meas := ⟨false, false, []⟩ }).awr Ia.FRK_STAT_MEASURED 0
  let st := s.ard Ia.TTB_STAT_STATE
  if st = 2 then (s.agClear.awr Ia.TTB_STAT_STATE 0).awr Ia.TTB_STAT_ARM_ERR 6
  else if st = 3 then (s.setAg fun a => { a with counters := [], sends := [] }).setAgTime fun t => { t with injectStop := true }
  else s

/-- A reset of the host chip is requested; a line in reset already is left alone, and a leaf switch has no ENGINE line. -/
def State.hcReset (s : State) (domain block : Nat) : State :=
  let b := if domain = 1 then 0 else block % 8
  if 1 < domain ∨ (domain = 0 ∧ s.isLeaf) then s
  else if s.ag.resets.any fun r => r.domain == domain && r.block == b then s
  else
    let s := s.setAg fun a => { a with resets := a.resets ++ [(⟨domain, b, false⟩ : HcReset)] }
    let s := (s.awr Ia.FRK_STAT_RESET 1).showLines.driveLines.detect .agent (agPg 0x16) 0 0 none
    if domain = 1 then s.hcCompute else s

/-- AGENT_RST_GO (R489). -/
def execAgentRstGo (domain block : Nat) (s : State) : Out := .next (s.hcReset domain block)

/-- RST_REQ_GO (R489). -/
def execRstReqGo (domain block : Nat) (s : State) : Out := .next (s.hcReset domain block)

/-- The oldest reset that satisfies `p` is changed. -/
def changeFirst (p : HcReset → Bool) (f : HcReset → HcReset) : List HcReset → List HcReset
  | [] => []
  | r :: rs => if p r then f r :: rs else r :: changeFirst p f rs

/-- HC_RESET_HOLD_END (R489): the oldest asserted reset is released. -/
def execHcResetHoldEnd (s : State) : Out :=
  .next (if s.ag.resets.any fun r => !r.released then
      (s.setAg fun a => { a with resets := changeFirst (fun r => !r.released) (fun r => { r with released := true }) a.resets }).driveLines
    else s)

/-- The released resets end; each is recorded with `f`. -/
def State.hcEnd (s : State) (f : State → State) : State :=
  let gone := s.ag.resets.filter fun r => r.released
  let s := (s.setAg fun a => { a with resets := a.resets.filter fun r => !r.released }).showLines
  gone.foldl (fun s _ => f s) s

/-- HC_RST_DONE (R489): RESET clears with a measurement that still stands (R486). -/
def execHcRstDone (s : State) : Out :=
  .next (
    let any := s.ag.resets.any fun r => r.released
    let s := s.hcEnd fun s => s.detect .agent (agPg 0x16) 0 1 none
    if any && s.ag.resets.isEmpty && s.aon Ia.FRK_STAT_MEASURED then s.awr Ia.FRK_STAT_RESET 0 else s)

/-- HC_DONE_TIMEOUT (R489). -/
def execHcDoneTimeout (s : State) : Out := .next (s.hcEnd fun s => s.detect .agent (agPg 0x16) 1 0 none)

/-! ### The agent's own reset (R466, R470) -/

/-- Register fields of the agent that fuses hold: its LCS page. -/
def agFused (key : Nat) : Bool := key / 64 / 2 ^ 12 == 0xF0F00

/-- IA_PORST_N (R466): everything of the agent is at its reset value but what is fused and the host chip's memory; its latched
tamper clears, so the RoT asks it again (R303). -/
def execIaPorstN (s : State) : Out :=
  .next (
    let fid := s.fidS .agent
    let s := s.setRot fun r => { r with tampered := r.tampered.filter (· != fid) }
    let s := (s.portNums .agent).foldl (fun s p => s.emit (.idle .agent p true)) s
    { s with
      aregs := s.aregs.filter fun e => agFused e.1
      agTime := AgTimeSt.reset
      agPorts := State.reset.agPorts
      agRoute := AgRouteSt.reset
      agFlt := FltSt.reset
      ag := { AgSt.reset with porst := true, deviceId := s.ag.deviceId, hostMem := s.ag.hostMem, keyPairs := s.ag.keyPairs } })

/-- IA_PORST_N_RELEASE (R468, R470): the ports train, IDENT goes out provisional, and the agent acquires the beat (R43). -/
def execIaPorstNRelease (bclkMhz : Nat) (s : State) : Out :=
  .next (
    if s.ag.porst ∨ s.ard Ia.TMK_STAT_STATE = 0 then
      let s := s.setAg fun a => { a with porst := false, bclkMhz := bclkMhz }
      let s := s.awr Ia.TMK_STAT_STATE 1
      (s.portNums .agent).foldl (fun s p => s.startAttempt .agent p) s
    else s)

end Sys2Proof.Machine
end

