-- ==== Sys2Proof/Machine/Frank.lean ====
section
/-! DEFINITION. The rows of the root of trust: SPDM requests, admission, key commands, evidence, guardians and the lifecycle (R284 to
R319, R327, R328). -/

namespace Sys2Proof.Machine

/-! ### SPDM requests (R291 to R294, R327) -/

/-- The AK certificate of slot 0 is needed: ERROR Busy before AK_READY (R291, R293, R305). -/
def State.needAk (s : State) (sess code : Nat) (f : State → State) : State :=
  if s.on FRK_STAT_AK_READY then f s else s.spdmErr sess code eBusy

/-- A request of an open secure session. -/
def State.inSecure (s : State) (sess code : Nat) (f : SpdmSess → State → State) : State :=
  match s.spdm sess with
  | some x => f x s
  | none => s.spdmErr sess code eInvalidSession

/-- A request of a session whose handshake is complete. -/
def State.inFinished (s : State) (sess code : Nat) (f : State → State) : State :=
  s.inSecure sess code fun x s => if x.finished then f s else s.spdmErr sess code eUnexpected

/-- GET_VERSION (R292): version 1.3 only. -/
def execGetVersion (sess : Nat) (s : State) : Out := .next (s.inSpdm sess 0x84 fun s => s.spdmReply sess 0x84 [0x13])

/-- GET_CAPABILITIES (R292, R327): DataTransferSize 8,936 and MaxSPDMmsgSize 65,536. -/
def execGetCapabilities (sess : Nat) (s : State) : Out :=
  .next (s.inSpdm sess 0xE1 fun s => s.spdmReply sess 0xE1 (nats (leBytes 4 8936 ++ leBytes 4 65536)))

/-- NEGOTIATE_ALGORITHMS (R292). -/
def execNegotiateAlgorithms (sess : Nat) (supported : Bool) (s : State) : Out :=
  .next (s.inSpdm sess 0xE3 fun s => if supported then s.spdmReply sess 0xE3 [] else s.spdmErr sess 0xE3 eInvalidRequest)

/-- GET_DIGESTS (R292, R293): slot 0. -/
def execGetDigests (sess : Nat) (s : State) : Out :=
  .next (s.inSpdm sess 0x81 fun s => s.needAk sess 0x81 fun s =>
    s.spdmReply sess 0x81 (1 :: nats (sha256 (Config.certChain s.rot.ak))))

/-- GET_CERTIFICATE (R293): a portion of the chain, with its length and the length left. -/
def execGetCertificate (sess slot offset len : Nat) (s : State) : Out :=
  .next (s.inSpdm sess 0x82 fun s => s.needAk sess 0x82 fun s =>
    let chain := Config.certChain s.rot.ak
    if slot ≠ 0 ∨ chain.length ≤ offset then s.spdmErr sess 0x82 eInvalidRequest
    else
      let part := (chain.drop offset).take len
      s.spdmReply sess 0x82 (nats (leBytes 2 part.length ++ leBytes 2 (chain.length - offset - part.length) ++ part)))

/-- CHALLENGE (R290, R292): signed by the AK. -/
def execChallenge (sess slot nonce : Nat) (s : State) : Out :=
  .next (s.inSpdm sess 0x83 fun s =>
    if slot ≠ 0 then s.spdmErr sess 0x83 eInvalidRequest
    else s.askSign sess 0x83 (nats (leBytes 32 nonce ++ sha256 (Config.certChain s.rot.ak) ++ s.stateBlock)))

/-- The measurement indices that a request asks for. -/
def askedIndices (i : Nat) : List Nat :=
  if i = 0xFF then [1, 2, 3, 4, 5, 6, 7, 0x20] ++ contexts.map (0x30 + ·) else [i]

/-- GET_MEASUREMENTS (R294 to R296). -/
def execGetMeasurements (sess index : Nat) (signed : Bool) (s : State) : Out :=
  .next (s.inSpdm sess 0xE0 fun s =>
    let blocks := ((askedIndices index).filterMap (s.measBlock sess)).flatten
    if blocks.isEmpty then s.spdmErr sess 0xE0 eInvalidRequest
    else if signed then s.askSign sess 0xE0 (nats blocks) else s.spdmReply sess 0xE0 (nats blocks))

/-- KEY_EXCHANGE (R291, R292): at most 8 sessions; the answer carries the ML-KEM ciphertext and is signed by the AK. -/
def execKeyExchange (id : Nat) (ek : List Byte) (s : State) : Out :=
  .next (
    if id = 0 ∨ (s.spdm id).isSome then s.spdmErr 0 0xE4 eInvalidRequest
    else if 8 ≤ s.rot.sessions.length then s.spdmErr 0 0xE4 eSessionLimit
    else if s.on LCS_STAT_TRANSITION_DONE then s.spdmErr 0 0xE4 eUnexpected
    else if !s.on FRK_STAT_AK_READY || decide (16 ≤ s.rot.signQ.length) then s.spdmErr 0 0xE4 eBusy
    else
      let r := s.free
      let kem := Config.kemEncap ek r.1
      let x : SpdmSess := ⟨id, false, none, Config.exportSecret kem.2 id, s.time.nowNs, 0⟩
      (r.2.setRot fun q => { q with sessions := q.sessions ++ [x] }).askSign id 0xE4 (nats (fit 1568 kem.1)))

/-- The OWNER credential of a mutually authenticated session (R288, R298, R328). -/
def State.ownerCred (s : State) (id : Nat) : State :=
  match s.spdm id with
  | some x =>
    match x.root with
    | some r =>
      if x.finished then
        let c : Cred := ⟨3, 0, kdf (leBytes 32 x.secret) (ascii "DZ8-OWNER-CRED") (leBytes 4 id) 256, r, id⟩
        s.setBeyjo fun b => { b with creds := b.creds.filter (fun y => !(y.role == 3 && y.spdm == id)) ++ [c] }
      else s
    | none => s
  | none => s

/-- FINISH (R292, R318): the session is open, or its handshake fails and it is gone. -/
def execFinish (sess : Nat) (macOk : Bool) (s : State) : Out :=
  .next (s.inSecure sess 0xE5 fun x s =>
    if x.finished then s.spdmErr sess 0xE5 eUnexpected
    else if macOk then
      let s := (s.setSpdm sess fun x => { x with finished := true, lastNs := s.time.nowNs }).bump FRK_SPDM_OPENED 1
      (s.ownerCred sess).showRot.spdmReply sess 0xE5 []
    else (s.endSpdm sess).spdmErr 0 0xE5 eDecrypt)

/-- HEARTBEAT (R291). -/
def execHeartbeat (sess : Nat) (s : State) : Out :=
  .next (s.inFinished sess 0xE8 fun s => (s.setSpdm sess fun x => { x with lastNs := s.time.nowNs }).spdmReply sess 0xE8 [])

/-- KEY_UPDATE (R292). -/
def execKeyUpdate (sess : Nat) (s : State) : Out :=
  .next (s.inFinished sess 0xE9 fun s => (s.setSpdm sess fun x => { x with updates := x.updates + 1 }).spdmReply sess 0xE9 [])

/-- END_SESSION (R297). -/
def execEndSession (sess : Nat) (s : State) : Out :=
  .next (s.inFinished sess 0xEC fun s => (s.spdmReply sess 0xEC []).endSpdm sess)

/-- SPDM_SESSION_TIMEOUT (R291, R297). -/
def execSpdmSessionTimeout (sess : Nat) (s : State) : Out := .next (s.endSpdm sess)

/-- CHUNK_SEND (R292, R327): chunks in order, 65,536 bytes at most; the assembled request comes as its own row (log entry 34). -/
def execChunkSend (sess handle seq : Nat) (last : Bool) (data : List Byte) (s : State) : Out :=
  .next (s.inSpdm sess 0x85 fun s =>
    let old := match s.rot.chunksIn.find? fun x => x.1 == handle with
      | some x => x.2
      | none => (0, [])
    let drop := s.setRot fun r => { r with chunksIn := r.chunksIn.filter fun x => x.1 != handle }
    let bs := old.2 ++ data
    if seq ≠ old.1 then drop.spdmErr sess 0x85 eInvalidRequest
    else if 65536 < bs.length then drop.spdmErr sess 0x85 eTooLarge
    else
      let s := if last then drop else drop.setRot fun r => { r with chunksIn := r.chunksIn ++ [(handle, seq + 1, bs)] }
      s.spdmReply sess 0x85 (nats (leBytes 1 handle ++ leBytes 2 seq)))

/-- CHUNK_GET (R327): a chunk of a large response, which goes with its last chunk. -/
def execChunkGet (sess handle seq : Nat) (s : State) : Out :=
  .next (s.inSpdm sess 0x86 fun s =>
    match s.rot.chunksOut.find? fun x => x.1 == handle with
    | none => s.spdmErr sess 0x86 eInvalidRequest
    | some x =>
      let part := (x.2.drop (8920 * seq)).take 8920
      if part.isEmpty then s.spdmErr sess 0x86 eInvalidRequest
      else
        let s := if x.2.length ≤ 8920 * (seq + 1) then s.setRot fun r => { r with chunksOut := r.chunksOut.filter fun y => y.1 != handle } else s
        s.frame (.spdm sess 0x86 part))

/-- GET_ENCAPSULATED_REQUEST (R292): the DZ8 asks for the requester's certificate. -/
def execGetEncapsulatedRequest (sess : Nat) (s : State) : Out :=
  .next (s.inSecure sess 0xEA fun _ s => s.spdmReply sess 0xEA [0x82])

/-- DELIVER_ENCAPSULATED_RESPONSE (R292, R298): the requester is mutually authenticated. -/
def execDeliverEncapsulatedResponse (sess : Nat) (ok : Bool) (root : Nat) (s : State) : Out :=
  .next (s.inSecure sess 0xEB fun _ s =>
    if ok then
      let s := (s.setSpdm sess fun x => { x with root := some root }).bump FRK_SIGN_VERIFIED 1
      (s.ownerCred sess).spdmReply sess 0xEB []
    else s.spdmErr sess 0xEB eInvalidRequest)

/-- SPDM_UNSUPPORTED (R292). -/
def execSpdmUnsupported (sess code : Nat) (s : State) : Out := .next (s.spdmErr sess code eUnsupported)

/-- SIGNATURE_DONE (R290, R318): the franking engine answers the first request and takes the next. -/
def execSignatureDone (us : Nat) (s : State) : Out :=
  .next (match s.rot.signQ with
    | [] => s
    | q :: qs =>
      let s := (((s.setRot fun r => { r with signQ := qs }).bump FRK_SIGN_SIGNED 1).atLeast FRK_SIGTIME_MAX_US us).showRot
      let s := s.wr FRK_STAT_BUSY (b2n (!qs.isEmpty || !s.on FRK_STAT_AK_READY))
      if s.spdmOk q.sess then s.spdmReply q.sess q.code (q.content ++ s.akSign q.content) else s)

/-- AK_CERT_SIGNED (R293, R318). -/
def execAkCertSigned (ms : Nat) (s : State) : Out :=
  .next (if s.on FRK_STAT_AK_READY then s
  else (((s.wr FRK_STAT_AK_READY 1).wr FRK_SIGTIME_AK_CERT_MS ms).bump FRK_SIGN_SIGNED 1).wr FRK_STAT_BUSY (b2n !s.rot.signQ.isEmpty))

/-! ### Admission and credentials (R297, R328) -/

/-- ADMIT (R297). -/
def execAdmitSess (sess : Nat) (s : State) : Out :=
  .next (s.inFinished sess 0xFE fun s =>
    if s.on LCS_STAT_TRANSITION_DONE then s.vendorNo sess 1 0 0x01
    else match s.rot.admission, s.spdm sess with
      | some a, _ => if a = sess then s.vendor sess 1 0 [] else s.vendorNo sess 1 0 0x0C
      | none, some x =>
        let cak := kdf (leBytes 32 x.secret) (ascii "DZ8-MKA-CAK") (leBytes 4 sess) 256
        let ckn := kdf (leBytes 32 x.secret) (ascii "DZ8-MKA-CKN") (leBytes 4 sess) 128
        let s := s.setRot fun r => { r with admission := some sess, cak := some (cak, ckn) }
        ((s.wr FRK_STAT_ADMITTED 1).wr HPT_STAT_MKA 1).vendor sess 1 0 []
      | none, none => s)

/-- SET_CREDENTIAL (R328): in the admission session only; a TENANT credential of a bound context is refused, and one that is replaced
closes its sessions. -/
def execSetCredential (sess role ctx cred : Nat) (s : State) : Out :=
  .next (s.inFinished sess 0xFE fun s =>
    match firstCode [(s.on LCS_STAT_TRANSITION_DONE, 0x01), (decide (2 < role) || (role == 1 && decide (15 < ctx)), 0x07),
        (s.rot.admission != some sess || (role == 1 && s.on (CTX_STAT_BOUND (ctxPg ctx))), 0x0C)] with
    | some code => s.vendorNo sess 0x10 ctx code
    | none =>
      let c := if role = 1 then ctx else 0
      let same := fun (y : Cred) => y.role == role && y.ctx == c
      let s := if role = 1 ∧ s.beyjo.creds.any (fun y => same y && y.value != cred) then s.closeWhere fun x => x.role == 1 && x.ctx == c else s
      (s.setBeyjo fun b => { b with creds := b.creds.filter (fun y => !same y) ++ [(⟨role, c, cred % 2 ^ 256, 0, 0⟩ : Cred)] }).vendor sess 0x10 0 [])

/-! ### Key commands (R298 to R309) -/

/-- KEY_RELEASE (R300). -/
def execKeyRelease (sess : Nat) (req : KeyReq) (s : State) : Out := .next (s.inFinished sess 0xFE fun s => s.keyRelease sess req)

/-- KEY_REVOKE (R309): the record goes, and every LID that holds the key is sent the revocation. -/
def execKeyRevoke (sess ctx keyId : Nat) (s : State) : Out :=
  .next (s.inFinished sess 0xFE fun s =>
    match firstCode [(!s.sealedNow, 0x01), (s.on FRK_STAT_TAMPER, 0x04), (!s.ownerOk sess ctx, 0x05), (decide (7 < keyId), 0x07),
        ((s.keyRec ctx keyId).isNone, 0x08)] with
    | some code => s.vendorNo sess 3 ctx code
    | none =>
      let mine := fun (c k : Nat) => c == ctx && k == keyId
      let s := (s.revoke ctx keyId).setRot fun r => { r with
        records := r.records.filter (fun x => !mine x.ctx x.keyId)
        toDeliver := r.toDeliver.filter (fun x => !mine x.1 x.2.1)
        evidence := r.evidence.filter (fun x => !mine x.ctx x.keyId)
        nonces := r.nonces.filter fun x => !mine x.ctx x.keyId }
      (s.dueGen.vendor sess 3 0 []).answerDelivers)

/-- VAULT_IMPORT (R302). -/
def execVaultImport (sess : Nat) (req : ImportReq) (s : State) : Out := .next (s.inFinished sess 0xFE fun s => s.vaultImport sess req)

/-- VAULT_IMPORT_DONE (R302); none of the context runs: no effect. -/
def execVaultImportDone (ctx : Nat) (s : State) : Out :=
  .next (if s.rot.importing.any fun x => x.2.ctx == ctx then s.importEnd else s)

/-- DELIVER (R305). -/
def execDeliver (sess ctx keyId first count : Nat) (s : State) : Out :=
  .next (s.inFinished sess 0xFE fun s => (s.keyDeliver sess ctx keyId first count).settle)

/-- KEY_STATUS (R298): the key bitmap, then the delivered keys of every LID. -/
def execKeyStatus (sess ctx : Nat) (s : State) : Out :=
  .next (s.inFinished sess 0xFE fun s =>
    if !s.ownerOk sess ctx then s.vendorNo sess 6 ctx 0x05
    else s.vendor sess 6 0 (s.keyMap ctx :: (List.range (s.rd (CTX_SLICE_N (ctxPg ctx)))).map (s.epKeys ctx)))

/-- COMMAND_RESET_WAIT_TIMEOUT (R316): the oldest waiting command is refused with RESET. -/
def execCommandResetWaitTimeout (s : State) : Out :=
  .next (match s.rot.waiting with
    | [] => s
    | w :: ws =>
      let s := s.setRot fun r => { r with waiting := ws }
      match w with
      | .release sess q => s.vendorNo sess 2 q.ctx 0x03
      | .vimport sess q => s.vendorNo sess 4 q.ctx 0x03
      | .deliver sess c _ _ _ => s.vendorNo sess 5 c 0x03)

/-! ### Evidence and delivery (R303 to R308) -/

/-- The attestation in progress for a context, key ID and LID. -/
def State.evidenceOf (s : State) (c k lid : Nat) : Option EvReq := s.rot.evidence.find? fun e => e.ctx == c && e.keyId == k && e.lid == lid

/-- EVIDENCE_MESSAGE (R303): it answers the request that it fits, by its nonce where several name its agent. -/
def execEvidenceMessage (ev : Evidence) (chain : AgentChain) (s : State) : Out :=
  .next (
    let mine := s.rot.evidence.filter fun e => e.fid == ev.fid && !e.hostCall
    match (mine.find? fun e => e.nonce == ev.nonce).orElse fun _ => mine.head? with
    | none => s
    | some e => (s.judge e e.nonce ev chain).2.settle)

/-- A further request of the evidence, with a fresh nonce. -/
def State.askAgain (s : State) (e : EvReq) (f : EvReq → EvReq) : State :=
  let n := s.drawNonce
  (n.2.setRot fun r => { r with evidence := r.evidence.map fun x => if x = e then f { x with nonce := n.1 } else x }).requestEvidence e.fid n.1

/-- EVIDENCE_TIMEOUT (R303): three requests at most. -/
def execEvidenceTimeout (ctx keyId lid : Nat) (s : State) : Out :=
  .next (match s.evidenceOf ctx keyId lid with
    | none => s
    | some e =>
      if e.hostCall then s
      else if e.attempts < 3 then s.askAgain e fun x => { x with attempts := x.attempts + 1 }
      else (s.failEvidence e 0x10).settle)

/-- EVIDENCE_RESET_RETRY (R303): every 100 ms for up to 10 s. -/
def execEvidenceResetRetry (ctx keyId lid : Nat) (s : State) : Out :=
  .next (match s.evidenceOf ctx keyId lid with
    | none => s
    | some e =>
      if e.resets = 0 then s
      else if 100 ≤ e.resets then (s.failEvidence e 0x17).settle
      else s.askAgain e fun x => { x with resets := x.resets + 1, attempts := 1 })

/-- KEYWRAP_CONFIRM_TIMEOUT (R304). -/
def execKeywrapConfirmTimeout (ctx keyId lid : Nat) (s : State) : Out :=
  .next (match s.rot.wraps.find? fun w => w.ctx == ctx && w.keyId == keyId && w.lid == lid with
    | none => s
    | some w =>
      let s := s.setRot fun r => { r with wraps := r.wraps.filter (· != w) }
      if w.revoke then s else (s.deliveryEnd ctx keyId lid 0x18 w.auto).settle)

/-- KEY_REDELIVER (R307). -/
def execKeyRedeliver (ctx lid : Nat) (s : State) : Out :=
  .next (if s.delivering ctx lid then s else (s.redeliver ctx lid).settle)

/-- The record that a standby receives fits the command, and the RoT may store it (R299, R308, R314). -/
def State.pairTakes (s : State) (ctx keyId : Nat) (q : KeyReq) : Bool :=
  q.ctx == ctx && q.keyId == keyId && q.pair && s.sealedNow && !s.on FRK_STAT_TAMPER && !keyReqBad q &&
    decide ((s.rot.records.filter fun x => !(x.ctx == ctx && x.keyId == keyId)).length < 64)

/-- PAIR_KEY_RELEASE (R308): the record goes to the partner, or the owner is told of the failed check; at the standby it is stored. -/
def execPairKeyRelease (ctx keyId : Nat) (partner : PartnerState) (s : State) : Out :=
  .next (if s.rd PAR_STAT_ROLE = 2 then match partner.record with
    | some (q, owner) => if s.pairTakes ctx keyId q then s.pairStore q owner else s
    | none => s
  else match s.keyRec ctx keyId with
    | none => s
    | some r =>
      if !r.pair || r.partner == 0 || r.paired || !s.active then s
      else if partner.certOk && partner.deviceId == r.partner && partner.lifecycle == 3 && !partner.tamper &&
          partner.digests == s.rot.measured.take 5 then
        (s.setRot fun q => { q with records := q.records.map fun x => if x.ctx == ctx && x.keyId == keyId then { x with paired := true } else x }).dueGen
      else s.notifyKey ctx 0xFFFF 1)

/-- NONCE_BINDING_EXPIRY (R306). -/
def execNonceBindingExpiry (ctx lid : Nat) (s : State) : Out :=
  .next (s.setRot fun r => { r with nonces := r.nonces.filter fun x => !(x.ctx == ctx && x.lid == lid) })

/-- DELIVERY_CALL_TIMEOUT (R306). -/
def execDeliveryCallTimeout (ctx keyId lid : Nat) (s : State) : Out :=
  .next (match s.evidenceOf ctx keyId lid with
    | none => s
    | some e => if e.hostCall then (s.failEvidence e 0x10).settle else s)

/-- What refuses the key action of an EVIDENCE_PUT (R301, R306). -/
def State.putRefused (s : State) (c k lid : Nat) : Option Nat :=
  firstCode [(!s.sealedNow, 0x01), (s.on FRK_STAT_UPDATE, 0x02), (s.on FRK_STAT_TAMPER, 0x04),
    (s.rd (CTX_STAT_STATE (ctxPg c)) != 2 || !s.on (CTX_STAT_BOUND (ctxPg c)), 0x05), ((s.keyRec c k).isNone, 0x08),
    (match s.lidFid c lid with | some f => bit (s.rd FRK_STAT_GUARD_BAD) (s.xdieTo f) | none => false, 0x0A), ((s.lidFid c lid).isNone, 0x19)]

/-- A delivery call: the message and chain are checked against the bound nonce (R306); none in the load buffer reads as a failed
signature. -/
def State.deliveryCall (s : State) (i n c k lid : Nat) (ev : Option Evidence) (chain : AgentChain) : State :=
  match s.rot.nonces.find? fun x => x.ctx == c && x.lid == lid && x.keyId == k with
  | none => s.mailReject i n 0x11 []
  | some b =>
    let s := s.setRot fun r => { r with nonces := r.nonces.filter (· != b) }
    match s.evidenceOf c k lid, ev with
    | none, _ => s.mailReject i n 0x12 [0, 0x0C]
    | some e, none => ((s.failEvidence e 0x11).mailOk i n [0x11]).settle
    | some e, some m =>
      let r := s.judge e b.nonce m chain
      (r.2.mailOk i n [r.1]).settle

/-- EVIDENCE_PUT (R306): the nonce call or the delivery call. -/
def execEvidencePut (index slot : Nat) (ev : Option Evidence) (chain : AgentChain) (s : State) : Out :=
  .next (
    let w := s.slotGet index slot 0
    let c := bits w 3 0
    let k := bits w 6 4
    let lid := bits w 27 16
    match s.takenFor index slot 5, s.mailErr index slot 5 (if bit w 32 then 1 else 3) [0] with
    | false, _ => s
    | true, some e => s.mailReject index slot e []
    | true, none =>
      if !s.hostMode 5 then s.mailReject index slot 0x10 []
      else match s.putRefused c k lid with
        | some code => s.mailReject index slot 0x12 [0, code]
        | none =>
          if bit w 32 then
            let d := s.drawNonce
            let s := d.2.setRot fun r => { r with nonces := r.nonces.filter (fun x => !(x.ctx == c && x.lid == lid)) ++ [(⟨c, k, lid, d.1⟩ : NonceBind)] }
            s.mailOk index slot ((List.range 4).map fun j => d.1 / 2 ^ (64 * j) % 2 ^ 64)
          else s.deliveryCall index slot c k lid ev chain)

/-! ### Guardians and the lifecycle (R286, R313, R316) -/

/-- GUARDIAN_REPORT (R286, R316): of any die but X0, whose guardian is the RoT. -/
def execGuardianReport (die fuse serial fw : Nat) (s : State) : Out :=
  .next (if die = 0 ∨ ¬ s.hasDie die then s
  else
    let s := s.guardReport die fw
    s.setRot fun r => { r with guardIds := r.guardIds.filter (fun g => g.1 != die) ++ [(die, fuse, serial)] })

/-- GUARDIAN_REPORT_MISSING (R286). -/
def execGuardianReportMissing (die : Nat) (s : State) : Out := .next (if die = 0 ∨ ¬ s.hasDie die then s else s.guardBad die)

/-- LCS_SEAL (R313, R376). -/
def State.lcsSeal (s : State) (confirm : Nat) : State :=
  match s.lcsCheck confirm (s.rd LCS_STAT_STATE == 2 && !s.on LCS_STAT_TRANSITION_DONE) true with
  | some e => s.lcsErr e
  | none => (s.lcsTo 3).jigOff .dz8

/-- LCS_SEAL (R313). -/
def execLcsSeal (confirm : Nat) (s : State) : Out := .next (s.lcsSeal confirm)

/-- LCS_RETURN (R313). -/
def State.lcsReturn (s : State) (confirm : Nat) : State :=
  match s.lcsCheck confirm ((s.rd LCS_STAT_STATE == 2 || s.rd LCS_STAT_STATE == 3) && !s.on LCS_STAT_TRANSITION_DONE) s.tokenOk with
  | some e => s.lcsErr e
  | none => (s.lcsTo 4).jigOff .dz8

/-- LCS_RETURN (R313). -/
def execLcsReturn (confirm : Nat) (s : State) : Out := .next (s.lcsReturn confirm)

end Sys2Proof.Machine
end

