-- ==== Sys2Proof/Machine/RodCheck.lean ====
section
/-! DEFINITION. Reading a Rod from its bytes and the structural checks on it (R18 to R24, R105, R310, R421, R456, R457). -/

namespace Sys2Proof.Machine

/-! ### The bytes of a Rod (R456) -/

/-- A link reference; all ones names none. -/
def linkRefOf (x : Nat) : Option Nat := if x = 2 ^ 32 - 1 then none else some (x % 2 ^ 18)

/-- Numbers of domain, chip and link records that the header gives. -/
def rodCounts (bs : List Byte) : Nat × Nat × Nat := (leAt bs 24 2, leAt bs 26 2, leAt bs 28 4)

/-- Byte offsets of the records. -/
def domainOff (i : Nat) : Nat := 64 + 80 * i
def chipOff (bs : List Byte) (i : Nat) : Nat := 64 + 80 * (rodCounts bs).1 + 16 * i
def linkOff (bs : List Byte) (i : Nat) : Nat := 64 + 80 * (rodCounts bs).1 + 16 * (rodCounts bs).2.1 + 16 * i

/-- The domain record at an offset. -/
def domainAt (bs : List Byte) (o : Nat) : RodDomain :=
  ⟨leAt bs o 2, leAt bs (o + 2) 2, leAt bs (o + 4) 2, leAt bs (o + 16) 32, leAt bs (o + 48) 32⟩

/-- The chip record at an offset. -/
def chipAt (bs : List Byte) (o : Nat) : RodChip :=
  ⟨leAt bs o 2, leAt bs (o + 2) 1, leAt bs (o + 3) 1, bit (leAt bs (o + 4) 1) 0, b2n (bit (leAt bs (o + 4) 1) 1),
    linkRefOf (leAt bs (o + 8) 4), linkRefOf (leAt bs (o + 12) 4)⟩

/-- The link record at an offset. -/
def linkAt (bs : List Byte) (o : Nat) : RodLink :=
  let x := leAt bs (o + 6) 1
  ⟨leAt bs o 2, leAt bs (o + 2) 1, leAt bs (o + 3) 1, leAt bs (o + 4) 2, bits x 1 0, bit x 2, bits x 5 4, bits x 7 6, leAt bs (o + 8) 2⟩

/-- The Rod that bytes hold; at most as many records as the bytes have room for. -/
def rodOf (bs : List Byte) : Rod :=
  let n := rodCounts bs
  let w := wAt bs 16
  let room := fun (k size : Nat) => List.range (min k (bs.length / size))
  { serial := leAt bs 8 4
    sizes := (bits w 1 0, bits w 3 2, bits w 5 4)
    root := bits w 29 16
    domains := (room n.1 80).map fun i => domainAt bs (domainOff i)
    chips := (room n.2.1 16).map fun i => chipAt bs (chipOff bs i)
    links := (room n.2.2 16).map fun i => linkAt bs (linkOff bs i) }

/-- The record index of a failure that no record causes. -/
def noRecord : Nat := 2 ^ 32 - 1

/-- Record index of the first element that a test fails, the section beginning at `base`. -/
def firstBad {α : Type} (base : Nat) (l : List α) (p : Nat → α → Bool) : Option Nat :=
  (l.zipIdx.find? fun x => p x.2 x.1).map fun x => base + x.2

/-- First record index of the chip records and of the link records. -/
def Rod.chipBase (r : Rod) : Nat := r.domains.length
def Rod.linkBase (r : Rod) : Nat := r.domains.length + r.chips.length

/-- A failure of the header, then of the domain, chip and link records, in the order of the record index. -/
def Rod.scan (r : Rod) (header : Bool) (d : Nat → RodDomain → Bool) (c : Nat → RodChip → Bool) (l : Nat → RodLink → Bool) :
    Option Nat :=
  if header then some noRecord
  else ((firstBad 0 r.domains d).orElse fun _ => firstBad r.chipBase r.chips c).orElse fun _ => firstBad r.linkBase r.links l

/-- No record of a section fails. -/
def noneBad {α : Type} (_ : Nat) (_ : α) : Bool := false

/-! ### 0x01 FORMAT, 0x02 SERIAL, 0x03 FID, 0x04 BIND -/

/-- The header or the length breaks R456. -/
def headerBad (bs : List Byte) : Bool :=
  let n := rodCounts bs
  decide (2 ^ 23 < bs.length) || bs.length != 64 + 80 * n.1 + 16 * n.2.1 + 16 * n.2.2 ||
    leAt bs 0 4 != 0x444F5258 || leAt bs 4 2 != 1 || leAt bs 6 2 != 0 || leAt bs 12 4 != 0 || bits (wAt bs 16) 15 6 != 0 ||
    bits (wAt bs 16) 63 30 != 0 || leAt bs 32 32 != 0

/-- Reserved bits of a link reference that names a link. -/
def refBad (x : Nat) : Bool := x != 2 ^ 32 - 1 && decide (2 ^ 18 ≤ x)

/-- 0x01: order, reserved fields, MIN_WIDTH, port counts. -/
def formatErr (r : Rod) (bs : List Byte) : Option Nat :=
  r.scan (headerBad bs)
    (fun i d => (decide (0 < i) && decide (d.number ≤ leAt bs (domainOff (i - 1)) 2)) || leAt bs (domainOff i + 6) 10 != 0)
    (fun i c =>
      let o := chipOff bs i
      (decide (0 < i) && decide (c.fid < leAt bs (chipOff bs (i - 1)) 2)) || decide (4 ≤ leAt bs (o + 4) 1) ||
        leAt bs (o + 5) 3 != 0 || refBad (leAt bs (o + 8) 4) || refBad (leAt bs (o + 12) 4) ||
        (c.cls == 0 && c.ports != 96 && c.ports != 48))
    (fun i l =>
      let o := linkOff bs i
      let p := linkAt bs (linkOff bs (i - 1))
      (decide (0 < i) && (decide (linkDomain l < linkDomain p) || (linkDomain l == linkDomain p && decide (l.index ≤ p.index)))) ||
        bit (leAt bs (o + 6) 1) 3 || leAt bs (o + 10) 6 != 0 || l.minWidth == 0 || decide (4096 ≤ l.index))

/-- 0x02: SERIAL is not greater than that of the Rod in force. -/
def State.serialErr (s : State) (r : Rod) : Option Nat :=
  match s.boot.rod with
  | some x => if r.serial ≤ x.serial then some noRecord else .none
  | .none => none

/-- A domain number is a coordinate of the torus (R24). -/
def inTorus (sizes : Nat × Nat × Nat) (d : Nat) : Bool :=
  decide (d < 64) && decide (d % 4 ≤ sizes.1) && decide (d / 4 % 4 ≤ sizes.2.1) && decide (d / 16 ≤ sizes.2.2)

/-- The class that a local number belongs to (R23): 0 DZ8, 1 endpoint, 2 leaf switch. -/
def classOfLocal (n : Nat) : Nat := if 0xFE ≤ n then 0 else if 0xE0 ≤ n then 2 else 1

/-- 0x03: R23 or R24 is broken, or an FID appears twice; a link end names no chip. -/
def Rod.fidErr (r : Rod) : Option Nat :=
  r.scan false (fun _ d => !inTorus r.sizes d.number)
    (fun i c => !inTorus r.sizes (c.fid / 256) || c.cls != classOfLocal (c.fid % 256) ||
      (decide (0 < i) && (r.chips[i - 1]?.map (·.fid)) == some c.fid))
    (fun _ l => (r.chip l.fidA).isNone || (r.chip l.fidB).isNone)

/-- The FID that the Rod gives to a DEVICE_ID (R24). -/
def Rod.bound (r : Rod) (id : Nat) : Option Nat :=
  r.domains.findSome? fun d =>
    if d.devA = id then some (d.number * 256 + 0xFE) else if d.devB = id then some (d.number * 256 + 0xFF) else .none

/-- 0x04: the unit's own binding and port count, and a DEVICE_ID bound twice. -/
def State.bindErr (s : State) (r : Rod) : Option Nat :=
  let own := r.bound s.rot.deviceId
  let ids := r.domains.flatMap fun d => [d.devA, d.devB]
  r.scan (match own with | .none => true | some f => (r.chip f).isNone)
    (fun i d => (ids.take (2 * i)).contains d.devA || (ids.take (2 * i + 1)).contains d.devB)
    (fun _ c => some c.fid == own && c.ports != s.rd LCS_PART_LINKS) noneBad

/-! ### 0x05 ATTACH, 0x06 ROLE -/

/-- A link that no DZ8 end marks SPARE (R20). Only such a link counts as an attachment of R18 and R19 (DESIGN CHOICE, log entry 134). -/
def inService (l : RodLink) : Bool := l.roleA != 3 && l.roleB != 3

/-- The ends of a chip's links in service. -/
def Rod.serving (r : Rod) (fid : Nat) : List LinkEnd := (r.ends fid).filter fun e => inService e.link

/-- R18 and R19 hold at a chip. -/
def Rod.attachOk (r : Rod) (c : RodChip) : Bool :=
  let es := r.serving c.fid
  let near := fun (e : LinkEnd) => e.far / 256 == c.fid / 256
  match c.cls with
  | 0 =>
    let direct := (es.filter fun e => r.cls e.far == 1).length
    let peers := (es.filter fun e => endRole e c.fid == 1).length
    if c.ports = 96 then decide (direct ≤ 64) else decide (direct ≤ 48 - 2 - peers)
  | 1 => [0, 1].all fun sd => (es.filter fun e => near e && r.side e.far == some sd).length == 1
  | _ => es.all fun e => r.cls e.far != 2 && (r.cls e.far != 0 || r.side e.far == some c.side)

/-- 0x05: R18 or R19 is broken. -/
def Rod.attachErr (r : Rod) : Option Nat := r.scan false noneBad (fun _ c => !r.attachOk c) noneBad

/-- The neighbouring domains of a domain in the torus (R21). -/
def neighbours (sizes : Nat × Nat × Nat) (d : Nat) : List Nat :=
  let along := fun (n x unit : Nat) => if n < 2 then [] else
    [(x + 1) % n, (x + n - 1) % n].map fun y => d - x * unit + y * unit
  (along (sizes.1 + 1) (d % 4) 1 ++ along (sizes.2.1 + 1) (d / 4 % 4) 4 ++ along (sizes.2.2 + 1) (d / 16) 16).dedup

/-- The other unit of a unit's pair. -/
def pairOf (f : Nat) : Nat := if f % 2 = 0 then f + 1 else f - 1

/-- R20 and R21 hold at a unit. -/
def Rod.unitRolesOk (r : Rod) (c : RodChip) : Bool :=
  let es := r.ends c.fid
  let own := fun (e : LinkEnd) => endRole e c.fid
  let far := fun (e : LinkEnd) => endRole e e.far
  let ns := neighbours r.sizes (c.fid / 256)
  let peers := es.filter fun e => own e == 1
  (es.filter fun e => own e == 2).length == 2 && decide (peers.length ≤ 16) &&
    (es.all fun e => match own e with
      | 0 => r.cls e.far != 0
      | 1 => r.cls e.far == 0 && far e == 1 && ns.contains (e.far / 256)
      | 2 => e.far == pairOf c.fid && far e == 2
      | _ => true) &&
    ns.all fun n => [0xFE, 0xFF].all fun u => (peers.filter fun e => e.far == n * 256 + u).length == 1

/-- 0x06: R20 or R21 is broken. -/
def Rod.roleErr (r : Rod) : Option Nat :=
  r.scan ((List.range 64).any fun d => inTorus r.sizes d && !r.domains.any fun x => x.number == d) noneBad
    (fun _ c => if c.cls = 0 then !r.unitRolesOk c else (r.ends c.fid).any fun e => e.far / 256 != c.fid / 256) noneBad

/-! ### 0x07 PORT to 0x0B TIME -/

/-- 0x07: a port beyond its chip's count, a port in two links, or a role at an end that is not a DZ8. -/
def Rod.portErr (r : Rod) : Option Nat :=
  let ports := fun (f : Nat) => match r.chip f with | some c => c.ports | .none => 0
  let used := r.links.flatMap fun l => [(l.fidA, l.portA), (l.fidB, l.portB)]
  r.scan false noneBad noneBad fun i l =>
    decide (ports l.fidA ≤ l.portA) || decide (ports l.fidB ≤ l.portB) ||
      (used.take (2 * i)).contains (l.fidA, l.portA) || (used.take (2 * i + 1)).contains (l.fidB, l.portB) ||
      (r.cls l.fidA != 0 && l.roleA != 0) || (r.cls l.fidB != 0 && l.roleB != 0)

/-- The end at a chip of the link that a reference of its names. -/
def Rod.refEnd (r : Rod) (fid : Nat) (o : Option Nat) : Option LinkEnd := (o.bind r.linkRef).bind fun l => endAt l fid

/-- The chips from a chip up its parent links to the root; at most `n` links. -/
def Rod.upChain (r : Rod) : Nat → Nat → List Nat
  | 0, f => [f]
  | n + 1, f =>
    if f = r.root then [f]
    else match (r.chip f).bind fun c => r.refEnd f c.parent with
      | .none => [f]
      | some e => f :: r.upChain n e.far

/-- R105 holds at a chip; a parent link that is SPARE carries no traffic, so the tree does not span the chip (log entry 134). -/
def Rod.treeOk (r : Rod) (c : RodChip) : Bool :=
  c.fid == r.root ||
    ((r.refEnd c.fid c.parent).any (fun e => !e.link.spare) && (r.upChain 12 c.fid).getLast? == some r.root &&
      match c.alt with
      | .none => true
      | some x => match r.refEnd c.fid (some x) with
        | .none => false
        | some e => !(r.upChain r.chips.length e.far).contains c.fid)

/-- 0x08: R105 is broken. -/
def Rod.treeErr (r : Rod) : Option Nat := r.scan (r.chip r.root).isNone noneBad (fun _ c => !r.treeOk c) noneBad

/-- 0x09: R310 is broken. -/
def Rod.offRackErr (r : Rod) : Option Nat :=
  r.scan false noneBad noneBad fun _ l => l.offRack && !(r.cls l.fidA == 0 && r.cls l.fidB == 0)

/-- A chip may be the referee of a domain (R421). -/
def Rod.refereeOk (r : Rod) (d f : Nat) : Bool :=
  (r.cls f == 2 && f / 256 == d) || (r.cls f == 0 && (neighbours r.sizes d).contains (f / 256))

/-- 0x0A: R421 is broken. -/
def Rod.refereeErr (r : Rod) : Option Nat :=
  r.scan false (fun _ d => !r.refereeOk d.number d.referee || (d.alternate != 0 && !r.refereeOk d.number d.alternate)) noneBad noneBad

/-- 0x0B: SRC = 2 allows one domain only (R29). -/
def State.timeErr (s : State) (r : Rod) : Option Nat :=
  if s.rd TMK_CTRL_SRC = 2 ∧ 1 < r.domains.length then some noRecord else .none

/-- The first failure of R457: its code and record index. -/
def State.rodErr (s : State) (r : Rod) (bs : List Byte) : Option (Nat × Nat) :=
  let code := fun (n : Nat) (e : Option Nat) => e.map fun i => (n, i)
  (((((((((((code 1 (formatErr r bs)).orElse fun _ => code 2 (s.serialErr r)).orElse fun _ => code 3 r.fidErr).orElse
    fun _ => code 4 (s.bindErr r)).orElse fun _ => code 5 r.attachErr).orElse fun _ => code 6 r.roleErr).orElse
    fun _ => code 7 r.portErr).orElse fun _ => code 8 r.treeErr).orElse fun _ => code 9 r.offRackErr).orElse
    fun _ => code 0xA r.refereeErr).orElse fun _ => code 0xB (s.timeErr r))

end Sys2Proof.Machine
end

