-- ==== Sys2Proof/Machine/RodLoad.lean ====
section
/-! DEFINITION. A Rod that takes force, its comparison with the neighbour reports, ROD_LOAD (R20, R76, R113, R310, R406, R421,
R426, R456 to R459, R462, R471). -/

namespace Sys2Proof.Machine

/-! ### Taking force (R458) -/

/-- The PRT_STAT word that carries ROLE and MIN_WIDTH (R95). -/
def portRoleWord (role minWidth : Nat) : Nat := role * 2 ^ 32 + minWidth * 2 ^ 30

/-- The agents of the unit's domain. -/
def State.agentChips (s : State) (r : Rod) : List Nat := (s.domainChips r).filter fun f => r.cls f == 1 || r.cls f == 2

/-- The active unit writes ROLE and MIN_WIDTH of every agent port of its domain (R471). -/
def State.portRoles (s : State) : State :=
  let r := s.theRod
  (s.agentChips r).foldl (fun s f => (r.ends f).foldl (fun s e =>
    s.remoteWrite f (0x00300108 + 0x1000 * e.port) [portRoleWord (endRole e f) e.link.minWidth]) s) s

/-- What the Rod assigns to one of the unit's ports: role, minimum width, and whether the link leaves the rack. A port without a
link is SPARE (R20, R456). A link in service that turns out to leave the rack, or to stay in it, trains again (R76). -/
def State.portByRod (s : State) (p : Nat) : State :=
  let pg := prtPg p
  let far := fun (b : Bool) (s : State) =>
    let turned := (s.port .dz8 p).offRack != b
    let s := s.setPort .dz8 p fun x => { x with offRack := b }
    if turned then s.linkDown .dz8 p else s
  match s.rodLink p with
  | none => far false (s.wr (PRT_STAT_ROLE pg) 3)
  | some l =>
    let role := if l.fidA = s.fid ∧ l.portA = p then l.roleA else l.roleB
    (far l.offRack ((s.wr (PRT_STAT_ROLE pg) role).wr (PRT_STAT_MIN_WIDTH pg) l.minWidth)).judgeWidth .dz8 p

/-- The capacity map of a new Rod: an entry for every link, each as it is known (R113). -/
def State.capAfresh (s : State) (r : Rod) : State :=
  let s := s.setRoute fun t => { t with
    capMap := r.links.foldl (fun m l => tset m (linkIdent l) (capWord l.index 0 l.minWidth 0 (b2n l.offRack) 0)) [] }
  s.links.foldl (fun s p => s.capUpdate p) s

/-- IDENT goes out again with the FID on every port that is UP, DEGRADED or held, and a held port goes on (R76, R458). -/
def State.identAgain (s : State) : State :=
  s.links.foldl (fun s p =>
    if s.carries .dz8 p || (s.port .dz8 p).held then (s.ctl .dz8 p 7 (s.identWord .dz8 p)).releaseHold .dz8 p else s) s

/-- The domains that the unit is named referee or alternate referee of. -/
def State.refereed (s : State) (r : Rod) : List Nat :=
  (r.domains.filter fun d => d.referee == s.fid || (d.alternate != 0 && d.alternate == s.fid)).map (·.number)

/-- The bitmap of a list of numbers. -/
def bitmap (l : List Nat) : Nat := (l.dedup.map fun i => 2 ^ i).sum

/-- The referees of the unit's own domain, and the records of the domains the unit referees: a domain named for the first time is
starting (R421, R426). -/
def State.setReferees (s : State) (r : Rod) : State :=
  let s := match r.domains.find? fun d => d.number == s.domain with
    | none => s
    | some d =>
      let same := s.rd PAR_REFEREE_PRIMARY == d.referee && s.rd PAR_REFEREE_ALTERNATE == d.alternate
      let s := (s.wr PAR_REFEREE_PRIMARY d.referee).wr PAR_REFEREE_ALTERNATE d.alternate
      if same then s else s.wr PAR_REFEREE_IN_USE 0
  let ds := s.refereed r
  let new := (ds.filter fun d => !s.pair.leases.any fun l => l.domain == d).map fun d => (⟨d, 0, 0, 0, none, true, none⟩ : LeaseRec)
  (s.wr PAR_REFD_DOMAINS (bitmap ds)).setPair fun q => { q with leases := (q.leases.filter fun l => ds.contains l.domain) ++ new }

/-- Lost members that no spare was found for are re-mapped again, in hardware mode (R406). -/
def State.retrySpares (s : State) : State :=
  if !s.active || s.hostMode 4 then s
  else contexts.foldl (fun s c => ((s.ctx c).lost.filter fun l => (s.remapOf c l).isNone).foldl (fun s l => s.remapStart c l none) s) s

/-- A Rod that passed its checks takes force (R458). -/
def State.rodForce (s : State) (r : Rod) (bs : List Byte) : State :=
  let fid := (r.bound s.rot.deviceId).getD s.fid
  let s := s.setBoot fun b => { b with rod := some r, rodBytes := bs, mismatches := [], reports := [] }
  let s := ((((s.wr GEN_ROD_SERIAL r.serial).wr GEN_ROD_STATE 2).wr GEN_ROD_ERR 0).wr GEN_ROD_DETAIL_RECORD 0).wr GEN_ROD_MISMATCHES 0
  let s := ((s.wr GEN_FID_FID fid).wr GEN_FID_UNIT (fid % 2)).wr GEN_FID_VALID 1
  let s := (s.links.foldl (fun s p => s.portByRod p) s).identAgain
  let s := (s.capAfresh r).setReferees r
  (if s.active then s.portRoles else s).retrySpares

/-! ### The comparison (R458) -/

/-- An agent of the domain has reported or is known to be silent. -/
def State.heard (s : State) (f : Nat) : Bool :=
  (s.boot.reports.any fun x => x.fid == f) || s.boot.mismatches.any fun m => m.kind == 6 && m.fid == f

/-- Results of ROD_LOAD (R459). -/
def State.rodResults (s : State) (code record serial : Nat) : List Nat := [code, record, s.boot.mismatches.length, serial]

/-- Every agent of the domain has been heard: the waiting ROD_LOAD ends and a route computation starts (R111, R458). -/
def State.compareDone (s : State) : State :=
  if (s.agentChips s.theRod).all s.heard then
    let s := match s.beyjo.running.find? fun x => x.2.2 == 1 with
      | none => s
      | some x => (s.setBoot fun b => { b with loadBusy := false }).mailOk x.1 x.2.1 (s.rodResults 0 0 s.theRod.serial)
    s.requestFlip
  else s

/-- Reports of agents of the domain take the place of what these agents reported before. -/
def State.takeReports (s : State) (xs : List NeighReport) : State :=
  let xs := xs.filter fun x => (s.agentChips s.theRod).contains x.fid
  s.setBoot fun b => { b with reports := (b.reports.filter fun y => !xs.any fun x => x.fid == y.fid) ++ xs }

/-- ROD_COMPARE (R458). -/
def execRodCompare (reports : List NeighReport) (s : State) : Out :=
  .next (if s.boot.rod.isNone then s else (s.takeReports reports).compareRod.compareDone)

/-- ROD_SILENT_TIMEOUT (R458). -/
def execRodSilentTimeout (fid : Nat) (s : State) : Out :=
  .next (if s.boot.rod.isNone || !(s.agentChips s.theRod).contains fid || s.heard fid then s
    else (s.setBoot fun b => { b with mismatches := b.mismatches ++ [mismatchAt 6 fid 0 none 0] }).compareRod.compareDone)

/-! ### ROD_LOAD (R459) -/

/-- The neighbour reports in the load buffer, 16 bytes each: FID, port, bits [63:32] of PRT_NEIGH, PRT_STAT (log entry 36). -/
def readReports (bs : List Byte) : List NeighReport :=
  (List.range (bs.length / 16)).map fun i =>
    ⟨leAt bs (16 * i) 2, leAt bs (16 * i + 2) 2, leAt bs (16 * i + 4) 4 * 2 ^ 32, leAt bs (16 * i + 8) 8, none⟩

/-- A Rod that passed: it takes force, and the comparison is made with the host's reports or waits for the agents'. -/
def State.rodPassed (s : State) (i n : Nat) (r : Rod) (bs : List Byte) (reports : List NeighReport) : State :=
  let s := (s.rodForce r bs).compareRod
  if s.modeNow 0 then
    let s := s.takeReports reports
    let missing := (s.agentChips r).filter fun f => !s.heard f
    let s := (s.setBoot fun b => { b with mismatches := b.mismatches ++ missing.map fun f => mismatchAt 6 f 0 none 0 }).compareRod
    if missing.isEmpty then (s.mailOk i n (s.rodResults 0 0 r.serial)).requestFlip
    else s.mailReject i n 0x11 (s.rodResults 0 0 r.serial)
  else ((s.mailRuns i n 1).setBoot fun b => { b with loadBusy := true }).compareDone

/-- ROD_LOAD (R459). -/
def execRodLoad (index slot : Nat) (s : State) : Out :=
  .next (
    let len := s.slotGet index slot 0 % 2 ^ 32
    let w := s.slotGet index slot 1
    let host := s.hostMode 0
    let off := w % 2 ^ 32
    let rlen := w / 2 ^ 32
    match s.takenFor index slot 1, s.mailErr index slot 1 (if host then 2 else 1) [0] with
    | false, _ => s
    | true, some e => s.mailReject index slot e []
    | true, none =>
      if 2 ^ 23 < len ∨ (host ∧ (2 ^ 23 < off + rlen ∨ rlen % 16 ≠ 0)) then s.mailReject index slot 3 []
      else if s.boot.loadBusy then s.mailReject index slot 4 []
      else if s.rd PAR_STAT_ROLE = 2 ∨ s.rd PAR_STAT_ROLE = 3 then s.mailReject index slot 0x12 []
      else
        let s := s.startMode 0 host
        let bs := mread s.boot.load 0 len
        let r := rodOf bs
        match s.rodErr r bs with
        | some e =>
          let s := ((s.wr GEN_ROD_ERR e.1).wr GEN_ROD_DETAIL_RECORD e.2).wr GEN_ROD_STATE 3
          s.mailReject index slot 0x10 (s.rodResults e.1 e.2 r.serial)
        | none => s.rodPassed index slot r bs (if host then readReports (mread s.boot.load off rlen) else []))

end Sys2Proof.Machine
end

