-- ==== Sys2Proof/Machine/Fw.lean ====
section
/-! DEFINITION. Staging updates, and the distribution of agent firmware at the unit and at the agent (R315, R445 to R450, R454,
R455, R462, R475). -/

namespace Sys2Proof.Machine

/-! ### FW_STAGE (R449) -/

/-- GEN_FW shows the last staging (R463). -/
def State.showFw (s : State) (kind st svn ver : Nat) : State :=
  (((s.wr GEN_FW_KIND kind).wr GEN_FW_STATE st).wr GEN_FW_SVN svn).wr GEN_FW_VER ver

/-- A distribution of agent firmware runs (R455). -/
def State.distRuns (s : State) : Bool := s.boot.distrib.isSome

/-- The container that a distribution sends: the staged kind-6 image, else the running one (R455, R460). -/
def State.agentImage (s : State) : Option Container := (if s.boot.tryKinds.contains 6 then s.tryImage 6 else none).orElse fun _ => s.runImage 6

/-- GEN_AGENTFW counts the targets (R463). -/
def State.showDist (s : State) (st : Nat) : State :=
  let n := fun (p : Nat → Bool) => match s.boot.distrib with | some d => (d.targets.filter fun t => p t.2).length | none => 0
  (((s.wr GEN_AGENTFW_TARGETS (n fun _ => true)).wr GEN_AGENTFW_VERIFIED (n fun x => x == 1 || x == 3 || x == 4)).wr
    GEN_AGENTFW_FAILED (n fun x => x == 2)).wr GEN_AGENTFW_STATE st

/-- A distribution begins: BEGIN in three consecutive beats, then every chunk (R455). -/
def State.startDist (s : State) : State :=
  if !s.active || s.distRuns || s.boot.rod.isNone || s.hostMode 7 then s
  else match s.agentImage with
    | none => s
    | some x =>
      let s := s.startMode 7 false
      let serial := (s.boot.distSerial + 1) % 2 ^ 16
      (s.setBoot fun b => { b with
        distSerial := serial
        distrib := some ⟨serial, x.raw, 3, 0, 0, (s.agentChips s.theRod).map fun f => (f, 0)⟩ }).showDist 1

/-- Writes a container that passed into the slot that is not RUN (R449). -/
def State.stageImage (s : State) (x : Container) : State :=
  let slot := 1 - s.runSlot x.kind
  let s := s.setBoot fun b => { b with
    flash := (b.flash.filter fun f => !(f.kind == x.kind && f.slot == slot)) ++ [⟨x.kind, slot, x⟩]
    tryKinds := (b.tryKinds.filter (· != x.kind)) ++ [x.kind]
    pointerSeq := b.pointerSeq + 1 }
  (s.showFw x.kind 2 x.svn x.ver).showUpdate

/-- The staging of the container in the load buffer. -/
def State.stage (s : State) (i n len : Nat) (distribute sigOk flashOk : Bool) : State :=
  let x := containerOf (mread s.boot.load 0 len) sigOk
  match s.imageErr x with
  | some e => (s.showFw x.kind 3 x.svn x.ver).mailReject i n 0x10 [e]
  | none =>
    if x.kind = 6 ∧ distribute ∧ s.distRuns then s.mailReject i n 0x12 []
    else if !flashOk then (s.showFw x.kind 3 x.svn x.ver).mailReject i n 0x11 []
    else
      let s := (s.stageImage x).mailOk i n [x.kind, x.ver, x.svn]
      if x.kind = 6 ∧ distribute then s.startDist else s

/-- FW_STAGE (R449, R462). -/
def execFwStage (index slot : Nat) (sigOk flashOk : Bool) (s : State) : Out :=
  .next (
    let len := s.slotGet index slot 0 % 2 ^ 32
    let w := s.slotGet index slot 1
    let kind := bits w 15 8
    match s.takenFor index slot 3, s.mailErr index slot 3 2 [0, 2] with
    | false, _ => s
    | true, some e => s.mailReject index slot e []
    | true, none =>
      if bit w 1 then
        if kind = 0 ∨ 7 < kind then s.mailReject index slot 3 []
        else
          let s := if s.boot.tryKinds.contains kind then (s.dropTry kind).showUpdate else s
          let s := if s.rd GEN_FW_KIND = kind then s.wr GEN_FW_STATE 0 else s
          s.mailOk index slot [kind, 0, 0]
      else if 2 ^ 23 < len then s.mailReject index slot 3 []
      else if s.boot.loadBusy then s.mailReject index slot 4 []
      else s.stage index slot len (bit w 0) sigOk flashOk)

/-! ### The distribution at the unit (R454, R455) -/

/-- The number of chunks of a container. -/
def chunkCount (len : Nat) : Nat := ceilDiv len 40

/-- First word of a FWCHUNK (R454). -/
def fwWord (op dist index : Nat) : Nat := op * 2 ^ 56 + dist % 2 ^ 16 * 2 ^ 32 + index % 2 ^ 32

/-- The payload of a DATA chunk. -/
def chunkWords (d : Distrib) (i : Nat) : List Nat :=
  fwWord 2 d.serial i :: (List.range 5).map fun j => leAt d.container (40 * i + 8 * j) 8

/-- The payload of BEGIN. -/
def beginWords (d : Distrib) : List Nat :=
  let h := sha256 d.container
  [fwWord 1 d.serial 0, d.container.length] ++ (List.range 4).map fun j => leAt h (8 * j) 8

/-- A FWCHUNK to every agent of the domain as DOMBC (R65, R455). -/
def State.fwCast (s : State) (words : List Nat) : State :=
  let c := s.newCell .dz8 (s.domain * 256) 1 tFWCHUNK 0 10 0 0 words
  (s.broadcastPorts .dz8 none).foldl (fun s q => s.enqueue .dz8 q none c) s

/-- A FWCHUNK to one agent. -/
def State.fwTo (s : State) (f : Nat) (words : List Nat) : State := s.send .dz8 (s.newCell .dz8 f 1 tFWCHUNK 0 8 0 0 words)

/-- Chunks that one beat takes: the unscheduled allowance of the DOWN ports, less what waits there (R75). -/
def State.chunkRoom (s : State) : Nat :=
  let room := fun p => s.rd (PRT_UNSCHED_CELLS (prtPg p)) - ((s.port .dz8 p).queue.filter fun q => q.2.vc == 1 || q.2.vc == 2).length
  match ((s.broadcastPorts .dz8 none).map room).min? with
  | some n => n
  | none => 8

/-- What a running distribution sends in one beat: one BEGIN, or its next chunks; after the last chunk repair begins (R455). -/
def State.distBeat (s : State) : State :=
  match s.boot.distrib with
  | none => s
  | some d =>
    let n := chunkCount d.container.length
    let put := fun (s : State) (d : Distrib) => s.setBoot fun b => { b with distrib := some d }
    if !s.active || s.rd GEN_AGENTFW_STATE != 1 then s
    else if 0 < d.begins then put (s.fwCast (beginWords d)) { d with begins := d.begins - 1 }
    else
      let k := min s.chunkRoom (n - d.next)
      let s := (List.range k).foldl (fun s i => s.fwCast (chunkWords d (d.next + i))) s
      let s := put s { d with next := d.next + k }
      if n ≤ d.next + k then s.wr GEN_AGENTFW_STATE 2 else s

/-- FW_DISTRIBUTE (R455). -/
def execFwDistribute (s : State) : Out := .next s.startDist

/-- Every target has activated or failed: the distribution ends, and index 6 reports the new image (R294, R455). -/
def State.distEnd (s : State) : State :=
  match s.boot.distrib with
  | none => s
  | some d =>
    if d.targets.all fun t => t.2 == 2 || t.2 == 3 then
      let s := (s.showDist 4).setBoot fun b => { b with distrib := none }
      let s := ((s.activate [6]).showImages).showUpdate
      s.setRot fun r => { r with measured := setNth r.measured 5 (s.imageDigest 6) }
    else s

/-- A target takes the state that its agent reports; a target whose container is incomplete after 8 rounds has failed. -/
def targetNow (rounds : Nat) (reports : List FwReport) (t : Nat × Nat) : Nat × Nat :=
  match reports.find? fun x => x.fid == t.1 with
  | none => if t.2 = 0 ∧ 8 ≤ rounds then (t.1, 2) else t
  | some x =>
    if t.2 = 2 ∨ t.2 = 3 then t
    else if x.state = 3 ∨ x.state = 2 then (t.1, x.state)
    else if x.state = 1 then (t.1, if t.2 = 4 then 4 else 1)
    else if t.2 = 0 ∧ 8 ≤ rounds then (t.1, 2) else t

/-- FW_REPAIR_ROUND (R455): missing chunks go unicast to the agents that lack them, for at most 8 rounds. -/
def execFwRepairRound (reports : List FwReport) (s : State) : Out :=
  .next (match s.boot.distrib with
    | none => s
    | some d =>
      if s.rd GEN_AGENTFW_STATE < 2 then s
      else
        let ts := d.targets.map (targetNow d.rounds reports)
        let open' := (ts.filter fun t => t.2 == 0).map (·.1)
        let s := if d.rounds < 8 then
            (reports.filter fun x => open'.contains x.fid).foldl (fun s x =>
              (x.missing.filter fun i => decide (i < chunkCount d.container.length)).foldl (fun s i => s.fwTo x.fid (chunkWords d i)) s) s
          else s
        let s := s.setBoot fun b => { b with distrib := some { d with targets := ts, rounds := if open'.isEmpty then d.rounds else d.rounds + 1 } }
        (s.showDist (if open'.isEmpty then 3 else 2)).distEnd)

/-- The agent is a member of a timetable that is armed and not held (R455). -/
def State.inArmed (s : State) (f : Nat) : Bool :=
  contexts.any fun c => s.armed c && !(s.ttb c).held && (s.membersOf c).any fun m => m.2 == f

/-- FW_ACTIVATE_SEND (R455): A lies 4,096 beats ahead. -/
def execFwActivateSend (s : State) : Out :=
  .next (match s.boot.distrib with
    | none => s
    | some d =>
      let go := (d.targets.filter fun t => t.2 == 1 && !s.inArmed t.1).map (·.1)
      let s := go.foldl (fun s f => s.fwTo f [fwWord 3 d.serial 0, (s.time.beat + 4096) % 2 ^ 56]) s
      s.setBoot fun b => { b with distrib := some { d with targets := d.targets.map fun t => if go.contains t.1 then (t.1, 4) else t } })

/-! ### The distribution at the agent (R454, R455, R475) -/

/-- Fields of a FWCHUNK. -/
def fwOp (c : Cell) : Nat := bits (cellWord c 0) 63 56
def fwDist (c : Cell) : Nat := bits (cellWord c 0) 47 32
def fwIndex (c : Cell) : Nat := bits (cellWord c 0) 31 0

/-- The check of R446 against the agent's own fuses (R475). -/
def State.agentImageErr (s : State) (x : Container) : Option Nat :=
  containerErr x (if s.isLeaf then 5 else 4) (s.ard LCS_SVN_AGENT) s.ag.deviceId

/-- The agent runs an image (R447, R475). -/
def State.agentRun (s : State) (x : Container) : State :=
  let s := s.setAg fun a => { a with image := some x }
  (s.awr (GEN_FWVER_SVN 5) x.svn).awr (GEN_FWVER_VER 5) x.ver

/-- FW_BEGIN (R454): the three copies of one BEGIN count once. -/
def execFwBegin (cell : Cell) (s : State) : Out :=
  .next (
    let len := cellWord cell 1
    let known : Bool := match s.ag.fw with | some f => f.dist == fwDist cell | none => false
    if cell.type ≠ tFWCHUNK ∨ fwOp cell ≠ 1 ∨ known ∨ 2 ^ 23 < len then s
    else s.setAg fun a => { a with fw := some ⟨fwDist cell, len, (cellPayload cell).drop 16, [], 0, none, none⟩ })

/-- A complete container is checked: the digest of BEGIN, then R446 (R455). -/
def State.fwCheck (s : State) (f : AgFw) (sigOk : Bool) : State :=
  if f.chunks.length < chunkCount f.len then s
  else
    let bs := ((sortBy (fun a b => decide (a.1 < b.1)) f.chunks).flatMap (·.2)).take f.len
    let x := containerOf bs sigOk
    let put := fun (s : State) (g : AgFw) => s.setAg fun a => { a with fw := some g }
    if sha256 bs ≠ f.digest ∨ x.kind ≠ 6 then put s { f with state := 2 }
    else match s.agentImageErr x with
      | some e => put (s.awr GEN_BOOT_ERR e) { f with state := 2 }
      | none => put s { f with state := 1, container := some x }

/-- FW_DATA (R454, R455). -/
def execFwData (cell : Cell) (sigOk : Bool) (s : State) : Out :=
  .next (match s.ag.fw with
    | none => s
    | some f =>
      let i := fwIndex cell
      if cell.type ≠ tFWCHUNK ∨ fwOp cell ≠ 2 ∨ f.dist ≠ fwDist cell ∨ f.state ≠ 0 ∨ chunkCount f.len ≤ i ∨ f.chunks.any (fun c => c.1 == i)
      then s
      else
        let f := { f with chunks := f.chunks ++ [(i, (cellPayload cell).drop 8)] }
        (s.setAg fun a => { a with fw := some f }).fwCheck f sigOk)

/-- FW_ACTIVATE (R454, R455): a verified container takes its activation beat. -/
def execFwActivate (cell : Cell) (s : State) : Out :=
  .next (match s.ag.fw with
    | none => s
    | some f =>
      if cell.type = tFWCHUNK ∧ fwOp cell = 3 ∧ f.dist = fwDist cell ∧ f.state = 1 then
        s.setAg fun a => { a with fw := some { f with activateAt := some (cellWord cell 1 % 2 ^ 56) } }
      else s)

/-- FW_ACTIVATE_AT (R455): links, forwarding and the beat go on. -/
def execFwActivateAt (s : State) : Out :=
  .next (match s.ag.fw with
    | none => s
    | some f => match f.activateAt, f.container with
      | some a, some x => if a ≤ s.agTime.beat then (s.agentRun x).setAg fun g => { g with fw := none } else s
      | _, _ => s)

/-- FW_ABORT (R454, R455): at the unit it goes out as DOMBC and ends the distribution; at the agent it discards the partial
container. -/
def execFwAbort (site : Site) (cell : Cell) (s : State) : Out :=
  .next (match site with
    | .agent => if cell.type = tFWCHUNK ∧ fwOp cell = 4 then s.setAg fun a => { a with fw := none } else s
    | .dz8 => match s.boot.distrib with
      | none => if s.active then s.fwCast [fwWord 4 s.boot.distSerial 0] else s
      | some d => ((s.fwCast [fwWord 4 d.serial 0]).setBoot fun b => { b with distrib := none }).showDist 0)

/-- AGENT_FW_GO (R475): the container in the agent's load buffer is checked and run. -/
def execAgentFwGo (sigOk : Bool) (s : State) : Out :=
  .next (
    let bs := mread s.ag.load 0 (min (2 ^ 23) (leNat (mread s.ag.load 16 8) + 16384))
    let x := containerOf bs sigOk
    match (if x.kind = 6 then s.agentImageErr x else some 1) with
    | some e => s.awr GEN_BOOT_ERR e
    | none => s.agentRun x)

end Sys2Proof.Machine
end

