-- ==== Sys2Proof/Machine/Beat.lean ====
section
/-! DEFINITION. The beat on the links: beat words, the agent's alignment, source switches and orphan mode (R39 to R46, R51 to R54,
R71 to R73, R82, R477). -/

namespace Sys2Proof.Machine

/-! ### Fields of a beat word (R39) -/

def bwBeat (w : Nat) : Nat := bits w 63 8
def bwHops (w : Nat) : Nat := bits w 7 5
def bwHold (w : Nat) : Bool := bit w 4
def bwPchg (w : Nat) : Bool := bit w 3
def bwActive (w : Nat) : Bool := bit w 2

/-- The candidate that is the agent's source. -/
def State.agSource (s : State) : Option Candidate := s.agTime.cands.find? fun c => some c.port == s.agTime.source

/-- The beat word that the named device sends; none without a beat (R39, R48, R51, R53; log entry 38 for an agent's HOLD). -/
def State.beatOut (s : State) (d : Site) : Option Nat :=
  match d with
  | .dz8 =>
    if s.time.counting then
      let st := s.rd TMK_STAT_STATE
      some (s.time.beat * 256 + b2n (st == 3 || st == 4) * 16 + b2n s.time.announced * 8 + b2n s.active * 4)
    else none
  | .agent =>
    let st := s.ard Ia.TMK_STAT_STATE
    if st = 0 ∨ (st = 1 ∧ s.agTime.source = none) then none
    else some (s.agTime.beat * 256 + s.ard Ia.TMK_STAT_HOPS * 32 + b2n (st != 2) * 16 + b2n s.agTime.pchg.isSome * 8 +
      b2n (match s.agSource with | some c => c.active | none => false) * 4)

/-- The PERIOD word that follows while PCHG is 1 (R39, R71). -/
def State.periodOut (s : State) (d : Site) : Option Nat :=
  match d with
  | .dz8 => if s.time.announced then some (s.rd TMK_PERIOD_NEXT_AT_SEC * 2 ^ 14 + s.rd TMK_PERIOD_NEXT_PERIOD_NS) else none
  | .agent => s.agTime.pchg.map fun p => p.2 * 2 ^ 14 + p.1

/-- BOFS of the BEAT word that the named device sends in beat `b`, in units of 1/8 ns: at most 1.75 ns at x4, 3.5 ns at x2 and 7 ns at
x1 (R70, R72; the time itself is open, log entry 132). -/
def State.bofs (s : State) (d : Site) (p b : Nat) : Nat :=
  let bound := match s.rdS d (PRT_STAT_WIDTH (prtPgS d p)) with | 3 => 15 | 2 => 29 | _ => 57
  Config.slotOffset (match d with | .dz8 => p | .agent => 128 + p) b % bound

/-- What a trained port sends at a beat boundary: the beat-aligned control position, with the beat word in slot 1, the period word, the
tag of the frame that closes there, and CREDIT and SENT words where a count has changed; the counts of the beat's cells start again
(R39, R72, R73, R75, R82). -/
def State.portBeat (s : State) (d : Site) (p : Nat) : State :=
  if !s.carries d p then s
  else
    let beat := match s.beatOut d with | some w => [(1, w)] | none => []
    let period := match s.beatOut d, s.periodOut d with | some _, some w => [(2, w)] | _, _ => []
    let bofs := if beat.isEmpty then 0 else s.bofs d p (s.beatS d)
    let s := match s.frameEnd d p with
      | some (fseq, kph, t) => (s.nextFrame d p).sendControl d p (beat ++ period ++ tagWords t) bofs kph fseq
      | none => if beat.isEmpty && (s.port d p).countWords.isEmpty then s else s.sendControl d p (beat ++ period) bofs 0 0
    s.setPort d p fun x => { x with unsched := 0, sched := 0, escaped := 0 }

/-- At a beat boundary a port in stage 5 of its training repeats its IDENT after every whole ms (R76); `last` is the local time of the
boundary before. -/
def State.identBeat (s : State) (d : Site) (p last : Nat) : State :=
  let x := s.port d p
  if x.stage = 5 ∧ (last - x.stageNs) / 1000000 < (s.nowS d - x.stageNs) / 1000000 then s.ctl d p 7 (s.identWord d p) else s

/-- What the ports of the named device do at a beat boundary; `last` is the local time of the boundary before. -/
def State.portBeats (s : State) (d : Site) (last : Nat) : State :=
  (s.portNums d).foldl (fun s p => (s.identBeat d p last).portBeat d p) s

/-- A candidate at a new beat: a word missed in the beat that ended breaks its run of valid words (R43, R52). -/
def nextBeat (c : Candidate) : Candidate := if c.fresh then { c with fresh := false } else { c with valid := 0 }

/-- The agent moves its source (R42, R53): a NOTE that names the port. -/
def State.moveSource (s : State) (c : Candidate) : State :=
  let s := (s.setAgTime fun t => { t with source := some c.port }).awr Ia.TMK_STAT_SRC_PORT c.port
  let s := (s.awr Ia.TMK_STAT_HOPS (min 7 (c.hops + 1))).abump Ia.TMK_MISS_SWITCHES 1
  s.detect .agent (agPg 2) 0 c.port none

/-- A candidate is preferred to another: ACTIVE, then the lowest HOPS, then the lowest port (R42). -/
def preferred (a b : Candidate) : Bool :=
  if a.active != b.active then a.active else if a.hops != b.hops then decide (a.hops < b.hops) else decide (a.port < b.port)

/-- The preferred of the candidates. -/
def bestCand : List Candidate → Option Candidate
  | [] => none
  | c :: r => match bestCand r with
    | none => some c
    | some b => if preferred b c then some b else some c

/-- At a boundary the agent moves to a candidate that it prefers to its source and that delivered a valid word for the beat that ends
(R42, R53). -/
def State.followActive (s : State) : State :=
  match s.agSource with
  | some src =>
    if s.ard Ia.TMK_STAT_STATE = 1 ∨ s.ard Ia.TMK_STAT_STATE = 2 then
      match bestCand (s.agTime.cands.filter fun c => c.fresh) with
      | some c => if preferred c src then s.moveSource c else s
      | none => s
    else s
  | none => s

/-- What the DZ8 does at a boundary of its beat once the count stands. -/
def State.dzBoundary (s : State) (last : Nat) : State :=
  ((s.setPair fun q => { q with noActive := q.noActive + 1 }).portBeats .dz8 last).startPlanned.streamBeat.distBeat

/-- The agent's count at its next boundary, with the period from there on: at the announced second S, which is a boundary at which
the count is a whole number of seconds, the count becomes floor((S − EPOCH) × 10^9 / P_new) (R38, R39). -/
def State.agNextBeat (s : State) : Nat × Option Nat :=
  let b := (s.agTime.beat + 1) % 2 ^ 56
  match s.agTime.pchg with
  | some q => if b * s.periodS .agent % 1000000000 = 0 then (b * s.periodS .agent / q.1 % 2 ^ 56, some q.1) else (b, none)
  | none => (b, none)

/-- A boundary of the agent's beat. -/
def State.agBeat (s : State) : State :=
  let last := s.agTime.nowNs
  let nx := s.agNextBeat
  let s := s.followActive.setAgTime fun t => { t with
    beat := nx.1, phase := 0, nowNs := t.nowNs + s.periodS .agent, cands := t.cands.map nextBeat
    pchg := if nx.2.isSome then none else t.pchg }
  let s := match nx.2 with | some p => s.awr Ia.TMK_PERIOD_PERIOD_NS p | none => s
  (s.portBeats .agent last).agSendBeat

/-- BEAT_BOUNDARY (R39). -/
def execBeatBoundary (site : Site) (s : State) : Out :=
  .next (match site with
    | .dz8 =>
      if !s.time.counting then s
      else
        (s.setTime fun t => { t with beat := (t.beat + 1) % 2 ^ 56, phase := 0, nowNs := t.nowNs + s.period }).dzBoundary s.time.nowNs
    | .agent => if s.ag.porst || s.ard Ia.TMK_STAT_STATE == 0 then s else s.agBeat)

/-- PERIOD_CHANGE (R38): the boundary at second S, which takes the place of a BEAT_BOUNDARY. -/
def execPeriodChange (s : State) : Out :=
  .next (if s.on TMK_STAT_PCHG then
      if s.time.counting then (s.setTime fun t => { t with nowNs := t.nowNs + s.period }).changePeriod.dzBoundary s.time.nowNs
      else s.changePeriod
    else s)

/-! ### A beat word at the DZ8 (R41, R46, R54) -/

/-- The largest offset on LEDGER and PEER links (R46, R58). -/
def State.recordSkew (s : State) (p off : Nat) : State :=
  if s.rd TMK_SKEW_MAX_PS < off then (s.wr TMK_SKEW_MAX_PS off).wr TMK_SKEW_PORT p else s

/-- A beat word of a port counts as missed (R41): the agent shows their number, of those of its source at the close of its window. -/
def State.missWord (s : State) (d : Site) (p : Nat) : State :=
  match d with
  | .dz8 => s.setPort .dz8 p fun x => { x with missed := x.missed + 1 }
  | .agent => if s.agTime.source = some p then s else s.abump Ia.TMK_MISS_MISSED 1

/-- A beat word at a port of the DZ8. -/
def State.dzBeatWord (s : State) (p w off : Nat) : State :=
  let s := s.setPort .dz8 p fun x => { x with farActive := bwActive w }
  let r := s.role .dz8 p
  let s := if r = 2 ∧ bwActive w = true then s.setPair fun q => { q with noActive := 0 } else s
  if !s.time.counting then s
  else
    let s := if bwBeat w ≠ s.time.beat then s.detect .dz8 (prtPg p) 5 p none else s
    let s := if bwBeat w = s.time.beat ∧ off * 8 ≤ s.period * 1000 then s else s.missWord .dz8 p
    if r = 1 ∨ r = 2 then
      let far := decide ((if r = 2 then 20 else s.rd TMK_XDOM_LIMIT_NS) * 1000 < off)
      let s := s.recordSkew p off
      let s := if r = 2 then s.setPort .dz8 p fun x => { x with ledgerFar := far } else s
      if far then s.detect .dz8 tmkPg 3 p none else s
    else s

/-! ### A beat word at the agent (R41 to R43, R51, R52) -/

/-- The link may carry the agent's beat: its far end is a DZ8, or a leaf switch whose agent is aligned (R42; log entry 38). -/
def State.mayLead (s : State) (p w : Nat) : Bool :=
  let cls := s.ard (PRT_NEIGH_CLASS (prtPgS .agent p))
  s.ard (PRT_NEIGH_VALID (prtPgS .agent p)) == 1 && (cls == 0 || (cls == 2 && !bwHold w))

/-- The candidate of a port, changed; a port that is not one yet becomes one. -/
def State.putCand (s : State) (c : Candidate) : State :=
  s.setAgTime fun t => { t with
    cands := insertBy (fun a b => decide (a.port < b.port)) c (t.cands.filter fun x => x.port != c.port) }

/-- What the source's word shows on the TMK page (R476). -/
def State.showSource (s : State) (p w : Nat) (off : Int) : State :=
  let s := (s.awr Ia.TMK_STAT_SRC_PORT p).awr Ia.TMK_STAT_HOPS (min 7 (bwHops w + 1))
  (s.awr Ia.TMK_STAT_HOLD (b2n (bwHold w))).awr Ia.TMK_ERR_PHASE_PS (unsigned 32 off)

/-- The agent takes the beat and the phase of a word (R43, R52). -/
def State.takeBeat (s : State) (p w : Nat) (off : Int) : State :=
  (s.setAgTime fun t => { t with beat := bwBeat w, phasePs := off, source := some p, missRun := 0 }).showSource p w off

/-- A wrong BEAT in a word with a good CRC (R41, R492). -/
def State.wrongBeat (s : State) (p : Nat) : State :=
  (s.detect .agent (agPg 2) 2 p none).detect .agent (prtPgS .agent p) 5 p none

/-- The source announces no change any more (R38, R39). -/
def State.agPeriod (s : State) (p w : Nat) : State :=
  if s.agTime.source = some p ∧ bwPchg w = false then s.setAgTime fun t => { t with pchg := none } else s

/-- A word at an agent that is acquiring, aligned or orphaned. The words that end orphan mode are held against the wider window alone,
whatever BEAT they carry (DESIGN CHOICE, log entry 143). -/
def State.agBeatWord (s : State) (p w : Nat) (off : Int) : State :=
  let s := s.agPeriod p w
  let st := s.ard Ia.TMK_STAT_STATE
  let run := match s.agTime.cands.find? fun c => c.port == p with | some c => c.valid | none => 0
  let half := (s.periodS .agent : Int) * 1000
  let near := fun (n : Int) => decide (-half ≤ n * off) && decide (n * off ≤ half)
  let cand := fun (valid : Nat) (fresh : Bool) => (⟨p, bwActive w, bwHops w, valid, fresh⟩ : Candidate)
  if st = 3 then
    if near 2 then
      let s := s.putCand (cand (run + 1) true)
      if run + 1 < 16 then s
      else
        let bad := bwBeat w != s.agTime.beat
        let s := (s.takeBeat p w off).awr Ia.TMK_STAT_STATE 2
        let s := if bad then s.detect .agent (agPg 2) 2 p none else s
        s.agEvent 6 0 (s.ard (TTB_ITER_ITER agTtb)) (s.ard (TTB_STEP_NEXT agTtb))
    else (s.putCand (cand 0 false)).missWord .agent p
  else if st = 2 then
    if bwBeat w ≠ s.agTime.beat then ((s.putCand (cand 0 false)).wrongBeat p).missWord .agent p
    else if near 8 then
      let s := (s.putCand (cand (run + 1) true)).setAgTime fun t => { t with missRun := 0 }
      if s.agTime.source = some p then (s.setAgTime fun t => { t with phasePs := off }).showSource p w off else s
    else (s.putCand (cand 0 false)).missWord .agent p
  else if st = 1 then
    match s.agTime.source with
    | none => (s.putCand (cand 0 true)).takeBeat p w off
    | some q =>
      if bwBeat w ≠ s.agTime.beat then ((s.putCand (cand 0 false)).wrongBeat p).missWord .agent p
      else
        let s := s.putCand (cand (run + 1) true)
        if p = q then
          let s := s.takeBeat p w off
          if 16 ≤ run + 1 then s.awr Ia.TMK_STAT_STATE 2 else s
        else s
  else s

/-- The compensated arrival of a beat word whose slot starts `arrivalPs` after the receiver's boundary: less BOFS, in units of 1/8 ns,
and less the delay of the link (R41, R72). -/
def State.compensated (s : State) (d : Site) (p bofs : Nat) (arrivalPs : Int) : Int :=
  arrivalPs - 125 * (bofs : Int) - (s.rdS d (linkDlyPs d p) : Int)

/-- The position in the beat at which a word arrives, in 1/256 beat; it does not go back within a beat (R35, log entry 132). -/
def State.phaseAt (s : State) (d : Site) (arrivalPs : Int) : State :=
  let q := max 1 (s.periodS d * 1000)
  let ph := min 255 (arrivalPs.toNat * 256 / q)
  match d with
  | .dz8 => s.setTime fun t => { t with phase := max t.phase ph }
  | .agent => s.setAgTime fun t => { t with phase := max t.phase ph }

/-- BEAT_WORD (R41): a beat word whose slot starts `arrival.ps` after the receiver's boundary of the present beat. -/
def execBeatWord (site : Site) (port : Nat) (word : Word) (crcOk : Bool) (arrival : BeatArrival) (s : State) : Out :=
  .next (
    if !s.carries site port then s
    else
      let off := s.compensated site port (arrival.bofs % 2 ^ 7) arrival.ps
      let s := s.phaseAt site arrival.ps
      match site with
      | .dz8 => if crcOk then s.dzBeatWord port word.toNat off.natAbs else s.missWord .dz8 port
      | .agent =>
        if !crcOk then s.missWord .agent port
        else if s.mayLead port word.toNat then s.agBeatWord port word.toNat off
        else s.dropCandidate .agent port)

/-- BEAT_WORD_MISS (R42, R51): the source missed a word; the agent moves to a candidate that delivered one, and otherwise counts a
miss. -/
def execBeatWordMiss (s : State) : Out :=
  .next (
    let st := s.ard Ia.TMK_STAT_STATE
    let others := s.agTime.cands.filter fun c => c.fresh && some c.port != s.agTime.source
    match bestCand others with
    | some c => if st = 1 ∨ st = 2 then s.moveSource c else s
    | none =>
      let s := s.abump Ia.TMK_MISS_MISSED 1
      if st = 2 then s.setAgTime fun t => { t with missRun := t.missRun + 1 }
      else if st = 1 then (s.setAgTime fun t => { t with source := none }).awr Ia.TMK_STAT_SRC_PORT 0xFF else s)

/-! ### Orphan mode (R51, R477) -/

/-- The ORPHAN cell's words (R477). -/
def State.orphanWords (s : State) : List Nat :=
  let ports := (s.portNums .agent).foldl (fun a p => if s.isUp .agent p then a + 2 ^ p else a) 0
  let st := s.ard Ia.TTB_STAT_STATE
  let done := s.ard (TTB_STEP_COMMITTED agTtb)
  let at' := match s.ag.uncommitted with
    | o :: _ => (o.step, o.iter)
    | [] => (s.ard (TTB_STEP_NEXT agTtb), s.ard (TTB_ITER_ITER agTtb))
  let last := if done = 2 ^ 32 - 1 then 2 ^ 64 - 1 else (if done < at'.1 then at'.2 else at'.2 - 1) * 2 ^ 32 + done
  [s.agTime.orphanAt, s.agTime.beat, ports, s.agCtx * 2 ^ 16 + b2n (st == 2 || st == 3) * 2 ^ 15, last]

/-- The orphan report goes to the standby and to the referee on every link that still carries cells. -/
def State.orphanReport (s : State) : State :=
  let dsts := [s.ard Ia.RTE_PAIR_STANDBY, s.ard Ia.RTE_PAIR_REFEREE].filter (· != 0)
  ((s.portNums .agent).filter fun p => s.carries .agent p).foldl (fun s p => dsts.foldl (fun s f =>
    s.sendOn .agent p (s.newCell .agent f 1 tORPHAN 0 8 0 0 s.orphanWords)) s) s

/-- ORPHAN_ENTRY (R51): an aligned agent that has missed four words from every candidate. -/
def execOrphanEntry (s : State) : Out :=
  .next (
    if s.ard Ia.TMK_STAT_STATE = 2 ∧ 4 ≤ s.agTime.missRun then
      let s := s.setAgTime fun t => { t with
        source := none, injectStop := true, orphanAt := t.beat, cands := t.cands.map fun c => { c with valid := 0 } }
      let s := ((s.awr Ia.TMK_STAT_STATE 3).awr Ia.TMK_STAT_SRC_PORT 0xFF).detect .agent (agPg 2) 1 0 none
      (s.agEvent 6 1 (s.ard (TTB_ITER_ITER agTtb)) (s.ard (TTB_STEP_NEXT agTtb))).orphanReport
    else s)

/-- ORPHAN_REPORT_REPEAT (R51). -/
def execOrphanReportRepeat (s : State) : Out :=
  .next (if s.ard Ia.TMK_STAT_STATE = 3 then s.orphanReport else s)

/-- ORPHAN_CELL (R477): the spec gives the receiver no action beyond the check of the cell's epoch. -/
def execOrphanCell (site : Site) (cell : Cell) (s : State) : Out :=
  .next (if s.epochGood site cell then s else s.discardOwn site cell rEPOCH)

end Sys2Proof.Machine
end

