-- ==== Sys2Proof/Machine/Post.lean ====
section
/-! DEFINITION. The poste restante: its store, the sections of a generation as bytes, the directory and the commit record
(R413 to R415, R418, R419; log entry 35 for the layout of the sections). -/

namespace Sys2Proof.Machine

/-! ### The store (R413) -/

/-- Bytes of the store; the POSTE region, on DZ8-E the last 12 MiB of the Pigeonholes reservation. -/
def State.storeBytes (s : State) : Nat :=
  if s.mdies = 0 then 12 * 2 ^ 20 else if s.on (VLT_SYSREG_VALID 0) then min (2 ^ 32) (s.regionBytes (s.rd (VLT_SYSREG_SIZE 0))) else 0

/-- First offset of the extent store, and its number of 64 KiB extents. -/
def extentBase : Nat := 0x400000
def State.extentCount (s : State) : Nat := (s.storeBytes - extentBase) / 65536

/-- First extent of a section and how many it takes. -/
def unitsOf (x : Section) : Nat × Nat := ((x.off - extentBase) / 65536, max 1 (ceilDiv (up48 x.data.length) 65536))

/-- The lowest free run of `n` extents. -/
def freeRun (used : List (Nat × Nat)) (n total : Nat) : Option Nat :=
  (0 :: used.map fun u => u.1 + u.2).foldl (fun b a =>
    if a + n ≤ total ∧ used.all (fun u => !unitsOverlap a n u.1 u.2) then
      match b with
      | some x => some (min x a)
      | none => some a
    else b) none

/-- Extents in use: by the committed generation, and by those begun since. -/
def State.usedExtents (s : State) : Nat :=
  let l := s.pair.committed ++ s.pair.doubtful
  ((l.map unitsOf).dedup.map fun u => u.2).sum

/-! ### Sections as bytes -/

/-- Words as bytes, and the words that bytes hold. -/
def wordBytes (l : List Nat) : List Byte := l.flatMap (leBytes 8)
def wordList (bs : List Byte) : List Nat := (List.range (bs.length / 8)).map fun i => wAt bs (8 * i)

/-- Keys and values that a list of words holds, in pairs. -/
def pairsOf : List Nat → List (Nat × Nat)
  | a :: b :: r => (a, b) :: pairsOf r
  | _ => []

/-- A table as words: its length, then keys and values. -/
def tableWords (t : List (Nat × Nat)) : List Nat := t.length :: t.flatMap fun e => [e.1, e.2]

/-- A table from the head of a list of words, and the words after it. -/
def takeTable (l : List Nat) : List (Nat × Nat) × List Nat :=
  match l with
  | n :: r => (pairsOf (r.take (2 * n)), r.drop (2 * n))
  | [] => ([], [])

/-- A number of `n` words, the least significant first. -/
def bigWords (n x : Nat) : List Nat := (List.range n).map fun i => x / 2 ^ (64 * i) % 2 ^ 64
def bigOf (l : List Nat) : Nat := l.foldr (fun w a => w % 2 ^ 64 + 2 ^ 64 * a) 0

/-- Registers of a context that section CONTEXT carries: CTX page, PGH_ALLOC, VLT_REG, VLT_OPTLAYOUT and the optimizer sets. -/
def ctxAddr (c a : Nat) : Bool :=
  (decide (ctxPg c ≤ a) && decide (a < ctxPg c + 0x1000)) || a == pghPg 0 + 0x400 + 8 * c || a == pghPg 1 + 0x400 + 8 * c ||
    (decide (vltPg c + 0x108 ≤ a) && decide (a < vltPg c + 0x138)) || (decide (vltPg c + 0x200 ≤ a) && decide (a < vltPg c + 0x300))

/-- Registers of a context that section TTBSTATE carries. -/
def ttbAddr (c a : Nat) : Bool := decide (ttbPg c + 0x100 ≤ a) && decide (a < ttbPg c + 0x1000)

/-- Registers that section ROUTE carries: RTE_FLIP and RTE_ESC. -/
def routeAddr (a : Nat) : Bool := a == RTE_FLIP_RESUME.addr || a == RTE_ESC_VC0_T.addr

/-- The stored register fields whose address `p` selects. -/
def State.regsIn (s : State) (p : Nat → Bool) : List (Nat × Nat) := s.regs.filter fun e => p (e.1 / 64)

/-- The register fields whose address `p` selects take the values of a list; the others of them their reset values. -/
def State.loadRegs (s : State) (p : Nat → Bool) (l : List (Nat × Nat)) : State :=
  { s with regs := (l.filter fun e => p (e.1 / 64)).foldl (fun t e => kput t e.1 e.2) (tdrop (fun k => p (k / 64)) s.regs) }

/-- The release or assignment step of a context, one bit each. -/
def stepBits (x : CtxSt) : Nat :=
  b2n x.assignWait + (match x.release with
    | some r => 2 + 4 * b2n r.drained + 8 * b2n r.scrubbed + 16 * b2n r.erased + 32 * b2n r.flipped + 64 * b2n r.overwrite + 128 * b2n r.fromAssigning
    | none => 0)

/-- The release that such bits name. -/
def relOf (w : Nat) : Option RelSt := if bit w 1 then some ⟨bit w 2, bit w 3, bit w 4, bit w 5, bit w 6, bit w 7⟩ else none

/-- CONTEXT (R415). -/
def State.ctxWords (s : State) (c : Nat) : List Nat :=
  let x := s.ctx c
  stepBits x :: (bigWords 2 x.seed ++ bigWords 4 x.owner ++ tableWords x.map ++ tableWords (s.regsIn (ctxAddr c)))

/-- ROUTE (R415). -/
def State.routeWords (s : State) : List Nat :=
  [s.rd RTE_GEN_ACTIVE, s.rd PAR_REFEREE_IN_USE] ++ ((List.range 4).map fun i => s.rd (RTE_EPOCH_EPOCHS i)) ++
    tableWords (s.route.onAlternate.map fun f => (f, 1)) ++ tableWords (s.regsIn routeAddr)

/-- KEYRECS (R415): no key material. -/
def State.keyWords (s : State) : List Nat :=
  s.rot.records.flatMap fun r =>
    [r.ctx, r.keyId, b2n r.head + 2 * b2n r.paired] ++ bigWords 4 r.owner ++ tableWords ((s.holders r.ctx r.keyId).map fun l => (l, 1))

/-- VAULTMAP of a context (R415). -/
def State.vaultWords (s : State) (c : Nat) : List Nat :=
  (s.rot.images.filter fun x => x.ctx == c).flatMap fun x => [x.imageId, x.keyId, x.off, x.len, b2n x.mirrored]

/-- Register fields of section SETTINGS, without the window selectors and the running clock (R415). -/
def settingFlds : List Fld :=
  [TMK_CTRL_SRC, TMK_CTRL_ENABLE, TMK_PERIOD_NEXT_AT_SEC, TMK_PERIOD_NEXT_PERIOD_NS, TMK_EPOCH_SEC, TMK_REF_DELAY_DELAY_NS, TMK_XDOM_LIMIT_NS,
   TMK_XDOM_HOLD_PPB, TMK_PTP_CFG_LOG_SYNC, TMK_PTP_CFG_DOMAIN] ++
  (dzPorts.flatMap fun p => [PRT_CTRL_RETRY_MAX (prtPg p), PRT_CTRL_DISABLE (prtPg p), PRT_UNSCHED_CELLS (prtPg p)]) ++
  [RTE_CTRL_SCOPE, RTE_FLIP_DRAIN_BEATS, RTE_FLIP_QUIET_LEAD, RTE_FLIP_LEAD_DOM, RTE_FLIP_LEAD_FAB, RTE_FLIP_RESUME, RTE_FLIP_PREP_MS,
   RTE_ESC_VC0_T, RTE_ESC_VC1_T, RTE_ESC_VC2_T] ++
  (contexts.flatMap fun c => [TTB_LIMITS_SETTLE_D (ttbPg c), TTB_LIMITS_SETTLE_X (ttbPg c)]) ++
  [GEN_MODE_HOST, FLT_CTRL_LOG_NOTE, FLT_PIN_FLOOR_FLOOR, FLT_POLICY_WAIT_MS, RST_WDOG0_TTB_EXEC, RST_WDOG0_FABRIC, RST_WDOG0_PRU,
   RST_WDOG0_TILE, RST_WDOG1_NMU, RST_WDOG1_CODEC, RST_REMAP_RESET_MS, RST_REMAP_LOST_MS, DMP_CTRL_BUDGET_MS, PWR_BUDGET_BUDGET_W,
   PWR_BUDGET_IDLE_W, PAR_TIMING_SYNC_MS] ++
  (([tmkPg, rtePg, fltPg, rstPg, dmpPg, pwrPg] ++ dzPorts.map prtPg).map PG_FMASK_MASK)

/-- SETTINGS (R415): the fields, then the thresholds that the host changed. -/
def State.settingWords (s : State) : List Nat :=
  tableWords ((settingFlds.filter fun f => s.rd f != f.rst).map fun f => (f.key, s.rd f)) ++
  (s.flt.srcs.filter fun x => x.thresh.isSome || x.threshF.isSome).flatMap fun x =>
    [x.source, x.level] ++ (match x.thresh with | some t => [1, t.1, b2n t.2.1, t.2.2] | none => [0, 0, 0, 0]) ++
      (match x.threshF with | some t => [1, t.1, t.2] | none => [0, 0, 0])

/-- PENDING (R415). -/
def State.pendingWords (s : State) : List Nat :=
  s.rd RTE_STAT_PENDING :: s.rst.remaps.flatMap fun m =>
    [m.ctx * 2 ^ 12 + m.lid, (match m.spare with | some f => f + 2 ^ 16 | none => 0),
      b2n m.flipped + 2 * b2n m.keysDone + 4 * b2n m.streamDone + 8 * b2n m.auto]

/-- The contexts that have something to save. -/
def State.savedCtxs (s : State) : List Nat := contexts.filter fun c => s.rd (CTX_STAT_STATE (ctxPg c)) != 0

/-- A section not yet placed. -/
def sect (kind c id : Nat) (bs : List Byte) : Section := ⟨kind, c, id, 0, bs⟩

/-- All sections of the present state (R415, R418). -/
def State.allSections (s : State) : List Section :=
  [sect 1 0 0 s.boot.rodBytes, sect 2 0 0 (wordBytes s.routeWords)] ++
  (s.savedCtxs.flatMap fun c =>
    [sect 3 c 0 (wordBytes (s.ctxWords c)), sect 5 c 0 (wordBytes (tableWords (s.regsIn (ttbAddr c)))), sect 8 c 0 (wordBytes (s.vaultWords c))] ++
    (if s.ttbState c = 0 then [] else [sect 4 c 0 (s.imageBytes c)]) ++
    (s.pair.extents.filter fun e => e.1 == c).map fun e => sect 7 c e.2.1 (s.allocRead c (48 * e.2.1) e.2.2)) ++
  [sect 6 0 0 (wordBytes s.keyWords), sect 9 0 0 (wordBytes s.settingWords), sect 10 0 0 (wordBytes s.pendingWords)]

/-! ### Placing a generation (R417, R419) -/

/-- A TIMETABLE or EXTENT section. -/
def optional (x : Section) : Bool := x.kind == 4 || x.kind == 7

/-- Sections with their places: an unchanged one stays where the last generation has it, another takes extents that are free;
none where the store cannot hold them. `busy` are sections whose record may have landed. -/
def placeAll (old busy : List Section) (full : Bool) (total : Nat) : List Section → List Section → Option (List Section)
  | [], done => some done.reverse
  | x :: r, done =>
    match if full then none else old.find? fun o => o.kind == x.kind && o.ctx == x.ctx && o.id == x.id && o.data == x.data with
    | some o => placeAll old busy full total r (o :: done)
    | none =>
      match freeRun ((old ++ busy ++ done).map unitsOf) (unitsOf { x with off := extentBase }).2 total with
      | some u => placeAll old busy full total r ({ x with off := extentBase + 65536 * u } :: done)
      | none => none

/-- Sections that fit: contexts below `n` keep their TIMETABLE and EXTENT sections (R419). -/
def State.fitFrom (s : State) (full : Bool) (all : List Section) : Nat → Option (List Section × Nat)
  | 0 => (placeAll s.pair.committed s.pair.doubtful full s.extentCount (all.filter fun x => !optional x) []).map fun l => (l, 0)
  | n + 1 =>
    let xs := all.filter fun x => !optional x || decide (x.ctx < n + 1)
    match if xs.length ≤ 16383 then placeAll s.pair.committed s.pair.doubtful full s.extentCount xs [] else none with
    | some l => some (l, n + 1)
    | none => s.fitFrom full all n

/-- Contexts whose sections are all present, where those below `n` keep theirs. -/
def coveredMap (all : List Section) (n : Nat) : Nat :=
  (contexts.filter fun c => decide (c < n) || !(all.any fun x => x.ctx == c && optional x)).foldl (fun m c => m + 2 ^ c) 0

/-! ### Directory and commit record (R414, R415) -/

/-- One directory entry. -/
def entryBytes (x : Section) : List Byte :=
  leBytes 8 (x.kind * 2 ^ 56 + x.ctx * 2 ^ 52 + x.id % 2 ^ 32) ++ leBytes 8 x.off ++ leBytes 8 x.data.length ++
    sha256 x.data ++ List.replicate 8 0

/-- A directory. -/
def dirBytes (gen beat fid : Nat) (l : List Section) : List Byte :=
  wordBytes [0x50534444 + 2 ^ 32, gen, beat, l.length + fid * 2 ^ 32, 0, 0, 0, 0] ++ l.flatMap entryBytes

/-- A commit record of 48 bytes. -/
def commitBytes (gen : Nat) (dir : List Byte) : List Byte := wordBytes [gen, dir.length] ++ sha256 dir

/-- Store offsets of a generation's commit slot and directory area. -/
def slotOff (gen : Nat) : Nat := gen % 2 * 0x40
def dirOff (gen : Nat) : Nat := (gen % 2 + 1) * 0x100000

/-- The entries of a directory in the store, none where it is not one of this format. -/
def State.readDir (s : State) (slot : Nat) : Option (Nat × List Section) :=
  let m := s.pair.store
  let gen := mword m (slot * 0x40)
  let len := mword m (slot * 0x40 + 8) % 2 ^ 32
  let dir := mread m ((slot + 1) * 0x100000) (min len 0x100000)
  let n := bits (wAt dir 24) 31 0
  if gen = 0 ∨ gen % 2 ≠ slot ∨ 0x100000 < len ∨ len ≠ 64 + 64 * n ∨ bits (wAt dir 0) 47 0 ≠ 0x50534444 + 2 ^ 32 ∨ wAt dir 8 ≠ gen ∨
      sha256 dir ≠ mread m (slot * 0x40 + 16) 32 then none
  else
    let l := (List.range n).map fun i =>
      let o := 64 + 64 * i
      let w := wAt dir o
      (sect (bits w 63 56) (bits w 55 52) (bits w 31 0) (mread m (wAt dir (o + 8)) (min (wAt dir (o + 16)) (2 ^ 32))), wAt dir (o + 8), (dir.drop (o + 24)).take 32)
    if l.all fun x => sha256 x.1.data == x.2.2 then some (gen, l.map fun x => { x.1 with off := x.2.1 }) else none

/-- The generation that a takeover uses: the commit slot with the higher GEN, else the other one (R431). -/
def State.pickGen (s : State) : Option (Nat × List Section) :=
  let hi := if mword s.pair.store 0 < mword s.pair.store 0x40 then 1 else 0
  (s.readDir hi).orElse fun _ => s.readDir (1 - hi)

end Sys2Proof.Machine
end

