-- ==== Sys2Proof/Machine/Pair.lean ====
section
/-! DEFINITION. Writing and receiving generations: PARWR and PARACK cells, batches, commit, mirroring of vault images (R416 to R420,
R434, R440). -/

namespace Sys2Proof.Machine

/-! ### Batches of the active unit (R416) -/

/-- The bytes of a piece of the store as cells: offset and 48 bytes. -/
def storeCells (off : Nat) (bs : List Byte) : List (Nat × List Byte) := ((pieces (bs.length / 48 + 1) bs).zipIdx).map fun x => (off + 48 * x.2, x.1)

/-- The cells of a batch go out, spread over the LEDGER links in turn, LAST on the last (R416). -/
def State.sendBatch (s : State) (cells : List (Nat × Nat × List Byte)) : State :=
  let ps := s.ledgerCarriers
  let b := s.pair.nextBatch
  let n := cells.length
  let s := (cells.zipIdx).foldl (fun s x =>
    match ps[x.2 % max 1 ps.length]? with
    | some p => s.parwr [p] b (if x.2 + 1 = n then 8 else 0) x.1.1 x.1.2.1 x.1.2.2
    | none => s) s
  s.setPair fun q => { q with nextBatch := (q.nextBatch + 1) % 2 ^ 16 }

/-- The generation being written sends its present phase's cells as a new batch. -/
def State.genBatch (s : State) (g : GenRun) : State :=
  let b := s.pair.nextBatch
  (s.sendBatch (g.cells.map fun x => (x.1, 0, x.2))).setPair fun q => { q with
    writing := some { g with batch := b, acked := 0, lastBeat := s.time.beat } }

/-- The directory of a generation (R415). -/
def State.genDir (s : State) (g : GenRun) : List Byte := dirBytes g.gen g.startBeat s.fid g.sections

/-- The next phase of a generation: sections, directory, commit record (R417). -/
def State.genPhase (s : State) (g : GenRun) (ph : Nat) : State :=
  let cells := if ph = 2 then storeCells (dirOff g.gen) (s.genDir g) else storeCells (slotOff g.gen) (commitBytes g.gen (s.genDir g))
  s.genBatch { g with phase := ph, cells := cells }

/-- A section that a generation writes. -/
def State.fresh (s : State) (x : Section) : Bool := !(s.pair.committed.any fun o => o == x)

/-- GENERATION_BEGIN's effect (R417 to R419): the sections of the present state; a generation that does not fit is not written. -/
def State.beginGen (s : State) : State :=
  let full := s.pair.fullDue || s.pair.committed.isEmpty
  let all := s.allSections
  match s.fitFrom full all 16 with
  | none => (s.wr PAR_STAT_COPY 3).setPair fun q => { q with genDue := false, fullDue := true }
  | some (l, n) =>
    let s := if s.rd PAR_STAT_COPY = 0 then s.wr PAR_STAT_COPY 1 else s
    let new := l.filter fun x => full || s.fresh x
    let gen := max (s.rd PAR_GEN_GEN) s.pair.lastGen + 1
    let g : GenRun := ⟨gen, full, 1, l, coveredMap all n, 0, new.flatMap fun x => storeCells x.off x.data, 0, s.time.beat, s.time.beat⟩
    let s := s.setPair fun q => { q with genDue := false, fullDue := false, lastGen := gen, doubtful := q.doubtful ++ l }
    if g.cells.isEmpty then s.genPhase g 2 else s.genBatch g

/-- The unit may write a generation: it is ACTIVE, a LEDGER link carries cells, none is being written (R418, R434), and its partner is
not refused as standby (R3). -/
def State.mayGen (s : State) : Bool :=
  s.active && !s.ledgerCarriers.isEmpty && s.pair.writing.isNone && s.boot.rod.isSome && !s.on PAR_STAT_MISMATCH

/-- GENERATION_BEGIN (R418). -/
def execGenerationBegin (s : State) : Out := .next (if s.mayGen && s.pair.genDue then s.beginGen else s)

/-- SYNC_MS_EXPIRY (R418). -/
def execSyncMsExpiry (s : State) : Out := .next (if s.active then s.dueGen else s)

/-- PAR_SYNC (R418, R440). -/
def State.parSync (s : State) : State := if s.active then s.dueGen else s

/-- PAR_SYNC (R440). -/
def execParSync (s : State) : Out := .next s.parSync

/-- PAR_FULL (R440). -/
def State.parFull (s : State) : State := if s.active then s.setPair fun q => { q with fullDue := true } else s

/-- PAR_FULL (R440). -/
def execParFull (s : State) : Out := .next s.parFull

/-! ### Vault images (R420) -/

/-- The context's key records are PAIRED (R420). -/
def State.ctxPaired (s : State) (c : Nat) : Bool := !(s.recsOf c).isEmpty && (s.recsOf c).all fun r => r.paired

/-- The bytes of an image still to be copied. -/
def imageLeft (x : VaultImage) : Nat := imageBytes' x.len - x.copied

/-- PAR_MIRROR.PENDING (R440). -/
def State.mirrorPending (s : State) : Nat := ((s.rot.images.filter fun x => s.ctxPaired x.ctx).map imageLeft).sum

/-- The vault bytes of a batch as cells: OFFSET, CIDX and 48 bytes (R420). -/
def State.mirrorCells (s : State) (x : VaultImage) (from' n : Nat) : List (Nat × Nat × List Byte) :=
  (List.range (ceilDiv n 48)).map fun i =>
    let o := x.off + from' + 48 * i
    (o % 2 ^ 32, 0x1000 + x.ctx * 0x100 + o / 2 ^ 32 % 256, fit 48 (s.regionRead x.ctx 1 o (min 48 (n - 48 * i))))

/-- A batch of vault chunks goes out. -/
def State.sendMirror (s : State) (x : VaultImage) (n : Nat) : State :=
  let cells := s.mirrorCells x x.copied n
  let b := s.pair.nextBatch
  (s.sendBatch cells).setPair fun q => { q with mirror := some ⟨x.ctx, x.imageId, b, cells.length, n, s.time.beat⟩ }

/-- VAULT_MIRROR (R420): at most `n` cells of allowance that generations leave. -/
def execVaultMirror (n : Nat) (s : State) : Out :=
  .next (if s.active && !s.ledgerCarriers.isEmpty && s.pair.writing.isNone && s.pair.mirror.isNone && n != 0 then
      match s.rot.images.find? fun x => s.ctxPaired x.ctx && imageLeft x != 0 with
      | some x => s.sendMirror x (min (48 * n) (imageLeft x))
      | none => s
    else s)

/-- A batch of vault chunks is acknowledged. -/
def State.mirrorAck (s : State) (m : MirrorBatch) : State :=
  let up := fun (x : VaultImage) =>
    if x.ctx = m.ctx ∧ x.imageId = m.imageId then
      let c := x.copied + m.bytes
      { x with copied := c, mirrored := decide (imageBytes' x.len ≤ c) }
    else x
  let s := (s.setRot fun r => { r with images := r.images.map up }).setPair fun q => { q with mirror := none }
  if s.rot.images.any fun x => x.ctx == m.ctx && x.imageId == m.imageId && x.mirrored then s.dueGen else s

/-! ### Acknowledgements at the active unit (R416, R417) -/

/-- A MOVE to the alternate referee goes out (R422, R427); the request's SENT is this beat. -/
def leaseWords (kind holder dom epoch serial sent expiry gen reason : Nat) : List Nat :=
  [kind * 2 ^ 56 + holder % 2 ^ 14 * 2 ^ 42 + dom % 64 * 2 ^ 36 + epoch % 16 * 2 ^ 32 + serial % 2 ^ 32, sent, expiry, gen, reason, 0]

/-- A LEASE cell to a chip: over the direct PEER link to a unit of another domain, else by the route tables (R421, R422). -/
def State.leaseTo (s : State) (d : Site) (f vc : Nat) (words : List Nat) : State :=
  let c := s.newCell d f vc tLEASE 0 8 0 0 words
  let direct := if f / 256 = s.domainS d then none
    else (s.portNums d).find? fun p => s.carries d p && s.role d p == 1 && s.farFid d p == f
  match direct with
  | some p => s.sendOn d p c
  | none => s.send d c

/-- The referee in use (R421, R427). -/
def State.referee (s : State) : Nat := if s.on PAR_REFEREE_IN_USE then s.rd PAR_REFEREE_ALTERNATE else s.rd PAR_REFEREE_PRIMARY

/-- A request of the unit to its referee: KIND, EXPIRY and GEN (R422). -/
def State.leaseAsk (s : State) (kind expiry gen : Nat) : State :=
  s.leaseTo .dz8 s.referee 1 (leaseWords kind s.fid s.domain (s.epochOf .dz8 s.domain) s.pair.leaseSerial s.time.beat expiry gen 0)

/-- The unit closes every instance and sends no RESULT (R424). -/
def State.closeAll (s : State) : State :=
  { s with insts := s.insts.map fun (i : Instance) => { i with isOpen := false, cells := [], accs := [], decoded := [], encoded := [], sending := [] } }

/-- The unit becomes FENCED (R424): what it may send no more leaves its queues. -/
def State.fence (s : State) : State :=
  let s := ((s.wr PAR_STAT_ROLE 3).wr PAR_LEASE_HELD 0).closeAll.showOpen
  let s := (s.wr RTE_STAT_COORD 0).wr RTE_STAT_PHASE 0
  let s := s.setPair fun q => { q with writing := none, mirror := none, renewSince := none, moveDue := false }
  { s with ports := s.ports.map fun x => { x with queue := x.queue.filter fun e => !(s.silenced .dz8 e.2) } }

/-- The final generation of a handover is committed: RELEASE goes out, and the unit is FENCED (R437 steps 4 and 5). -/
def State.sendRelease (s : State) (h : Handover) : State :=
  let g := s.rd PAR_GEN_GEN
  (s.leaseAsk 6 0 g).fence.setPair fun q => { q with handover := some { h with phase := 4, finalGen := g } }

/-- A generation is committed (R417 step 5). -/
def State.genCommit (s : State) (g : GenRun) : State :=
  let cells := (g.sections.filter fun x => g.full || s.fresh x).map (fun x => x.data.length)
  let kib := ceilDiv (cells.sum + 64 + 64 * g.sections.length + 48) 1024
  let us := (s.time.beat - g.startBeat) * s.period / 1000
  let s := (((s.wr PAR_GEN_GEN g.gen).bump PAR_COPY_GENS 1).wr PAR_LAST_US us).wr PAR_LAST_KIB kib
  let s := (s.wr PAR_COVER_COVERED g.covered).wr PAR_STAT_COPY (if g.full || s.rd PAR_STAT_COPY != 3 then 2 else 3)
  let s := s.setPair fun q => { q with writing := none, committed := g.sections, doubtful := [] }
  let s := if s.pair.moveDue then (s.setPair fun q => { q with moveDue := false }).leaseAsk 7 (s.rd PAR_LEASE_EXPIRY) g.gen else s
  match s.pair.handover with
  | some h => if h.phase = 3 ∧ h.finalGen ≤ g.gen then s.sendRelease h else s
  | none => s

/-- A batch of the generation is acknowledged whole. -/
def State.genAcked (s : State) (g : GenRun) : State :=
  let s := s.bump PAR_COPY_KIB (ceilDiv (48 * g.cells.length) 1024)
  if g.phase < 3 then s.genPhase g (g.phase + 1) else s.genCommit g

/-- PARACK_CELL (R123, R416, R417, R420). -/
def execParackCell (cell : Cell) (s : State) : Out :=
  .next (
    let b := cellWord cell 0 % 2 ^ 16
    let n := cellWord cell 1
    if !s.active then s
    else
      let s := if s.route.record.isSome && s.route.recordBatch == b && !s.route.recordConfirmed && decide (1 ≤ n) then s.recordConfirm else s
      let s := match s.pair.mirror with
        | some m => if m.batch = b ∧ m.cells ≤ n then s.mirrorAck m else s
        | none => s
      match s.pair.writing with
      | some g =>
        if g.batch ≠ b then s
        else if g.cells.length ≤ n then s.genAcked g
        else s.setPair fun q => { q with writing := some { g with acked := max g.acked n } }
      | none => s)

/-- 256 beats have passed since a batch's LAST cell. -/
def State.late256 (s : State) (beat : Nat) : Bool := decide (beat + 256 ≤ s.time.beat)

/-- BATCH_RESEND (R416): a batch of sections or of a directory, the flip slot's cell, a batch of vault chunks; under a new number. -/
def execBatchResend (s : State) : Out :=
  .next (if !s.active || s.ledgerCarriers.isEmpty then s
    else
      let s := match s.pair.writing with
        | some g => if g.phase < 3 ∧ s.late256 g.lastBeat then s.genBatch g else s
        | none => s
      let s := match s.route.record with
        | some r => if !s.route.recordConfirmed && s.late256 s.route.recordBeat then s.putRecord r else s
        | none => s
      match s.pair.mirror with
      | some m => if s.late256 m.lastBeat then
          match s.rot.images.find? fun x => x.ctx == m.ctx && x.imageId == m.imageId with
          | some x => s.sendMirror x m.bytes
          | none => s.setPair fun q => { q with mirror := none }
        else s
      | none => s)

/-- COMMIT_ACK_TIMEOUT (R417): the generation after the unconfirmed one is written as a full generation. -/
def execCommitAckTimeout (s : State) : Out :=
  .next (match s.pair.writing with
    | some g =>
      if s.active ∧ g.phase = 3 ∧ s.late256 g.lastBeat then
        let s := s.setPair fun q => { q with writing := none, fullDue := true, genDue := true }
        if s.mayGen then s.beginGen else s
      else s
    | none => s)

/-! ### The standby (R416, R417, R420) -/

/-- The memories of the store leave self-refresh, or retention on DZ8-E (R233, R241). -/
def State.wakeStore (s : State) : State := if s.mdies = 0 then s.pghWake 0 else s.stacksTo 2

/-- Where a received cell goes: the store, or the vault of a context. -/
def State.placeCell (s : State) (x : Nat × Nat × List Byte) : State :=
  if x.1 < 0x1000 then s.setPair fun q => { q with store := mwrite q.store x.2.1 x.2.2 }
  else
    let c := (x.1 - 0x1000) / 0x100 % 16
    let o := (x.1 % 0x100) * 2 ^ 32 + x.2.1
    let n := min x.2.2.length (s.rd (VLT_VAULT_DATA_BYTES (vltPg c)) - o)
    (s.regionWrite c 1 o (x.2.2.take n)).vaultCount c (o / 256)

/-- The receive buffer moves to the store in order of arrival (R416). -/
def State.moveBuffer (s : State) : State :=
  if s.pair.recv.isEmpty then s
  else
    let xs := s.pair.recv
    xs.foldl (fun s x => s.placeCell x) (s.wakeStore.setPair fun q => { q with recv := [] })

/-- A PARACK for a batch (R416). -/
def State.parack (s : State) (b n : Nat) : State :=
  match s.ledgerCarriers with
  | p :: _ => s.sendOn .dz8 p (s.newCell .dz8 s.partnerFid 2 tPARACK 0 8 0 0 [b, n])
  | [] => s

/-- The words of a section of a generation. -/
def sectionOf (l : List Section) (kind c : Nat) : Option (List Byte) := (l.find? fun x => x.kind == kind && x.ctx == c).map (·.data)

/-- The region definitions that a CONTEXT section carries (R420). -/
def State.takeRegions (s : State) (c : Nat) (bs : List Byte) : State :=
  let l := wordList bs
  let t := (takeTable (takeTable (l.drop 7)).2).1
  let s := s.loadRegs (fun a => decide (vltPg c + 0x108 ≤ a) && decide (a < vltPg c + 0x130)) t
  if s.mdies = 0 then s else s.showVault c

/-- The standby takes a committed generation: GEN, regions, the Rod and the referee in use (R417, R420, R427, R429). -/
def State.takeGen (s : State) (gen : Nat) (l : List Section) : State :=
  let s := ((s.wr PAR_GEN_GEN gen).wr PAR_STAT_CANDIDATE (b2n (!s.flt.fatal && !s.on PAR_STAT_MISMATCH))).setPair fun q => { q with rxGen := gen }
  let s := contexts.foldl (fun s c => match sectionOf l 3 c with | some bs => s.takeRegions c bs | none => s) s
  let s := match sectionOf l 2 0 with
    | some bs => s.wr PAR_REFEREE_IN_USE (nth (wordList bs) 1)
    | none => s
  match sectionOf l 1 0 with
  | some bs => if bs.isEmpty ∨ bs = s.boot.rodBytes ∨ (s.rodErr (rodOf bs) bs).isSome then s else s.rodForce (rodOf bs) bs
  | none => s

/-- A commit record has landed: verified, it makes its generation valid and is acknowledged (R417 step 4). -/
def State.landCommit (s : State) (slot b n : Nat) : State :=
  match s.readDir slot with
  | some (gen, l) => (s.takeGen gen l).parack b n
  | none => s

/-- Cells received of a batch. -/
def State.batchCount (s : State) (b : Nat) : Nat := match s.pair.rxBatches.find? fun x => x.1 == b with | some x => x.2 | none => 0

/-- A batch has `n` cells; the counts of the last 16 batches are kept. -/
def countBatch (l : List (Nat × Nat)) (b n : Nat) : List (Nat × Nat) :=
  let r := l.filter (fun x => x.1 != b) ++ [(b, n)]
  r.drop (r.length - 16)

/-- PARWR_CELL (R414, R416, R417, R420): the buffer of 16 MiB holds 349,525 cells; a commit record that does not verify gets no
PARACK, the periodic one included. -/
def execParwrCell (cell : Cell) (s : State) : Out :=
  .next (if s.rd PAR_STAT_ROLE ≠ 2 then s
    else
      let b := cell.seq
      let n := s.batchCount b + 1
      let record := cell.cidx == 0 && (cell.offset == 0 || cell.offset == 0x40)
      let s := s.setPair fun q => { q with
        recv := q.recv ++ [(cell.cidx, cell.offset, cellPayload cell)], rxBatches := if record then q.rxBatches else countBatch q.rxBatches b n }
      let s := if isLast cell || decide (349525 ≤ s.pair.recv.length) then s.moveBuffer else s
      if !isLast cell then s
      else if record then s.landCommit (cell.offset / 0x40) b n
      else s.parack b n)

/-- PARACK_PERIODIC (R416): the batches of which cells have come, the open ones. -/
def execParackPeriodic (s : State) : Out :=
  .next (if s.rd PAR_STAT_ROLE ≠ 2 then s
    else match s.pair.rxBatches.getLast? with
      | some x => s.parack x.1 x.2
      | none => s)

end Sys2Proof.Machine
end

