-- ==== Sys2Proof/Machine/Lease.lean ====
section
/-! DEFINITION. The referee and the lease: requests, answers, fencing and the start of a takeover (R411, R421 to R429, R433 step 1,
R437, R491). -/

namespace Sys2Proof.Machine

/-! ### Fields of a LEASE cell (R422) -/

def leaseDom (c : Cell) : Nat := bits (cellWord c 0) 41 36
def leaseHolder (c : Cell) : Nat := bits (cellWord c 0) 55 42
def leaseSer (c : Cell) : Nat := bits (cellWord c 0) 31 0
def leaseSent (c : Cell) : Nat := bits (cellWord c 1) 55 0
def leaseExp (c : Cell) : Nat := bits (cellWord c 2) 55 0
def leaseGen (c : Cell) : Nat := cellWord c 3
def leaseReason (c : Cell) : Nat := bits (cellWord c 4) 7 0

/-- REASON codes (R422). -/
def whyHeld : Nat := 1
def whyStarting : Nat := 2
def whyNotUnit : Nat := 3
def whyGeneration : Nat := 4

/-! ### The referee (R423, R425 to R427, R437, R491) -/

/-- The lease times of R423 in beats of the named device. -/
def State.leaseMs (s : State) : Nat := s.rd PAR_TIMING_LEASE_MS
def State.guardMs (s : State) : Nat := s.rd PAR_TIMING_GUARD_MS
def State.renewMs (s : State) : Nat := s.rd PAR_TIMING_RENEW_MS
def State.beatsUp (s : State) (d : Site) (ms : Nat) : Nat := ceilDiv (ms * 1000000) (s.periodS d)
def State.beatsDown (s : State) (d : Site) (ms : Nat) : Nat := ms * 1000000 / s.periodS d

/-- The lease records of the named device. -/
def State.leasesS (s : State) (d : Site) : List LeaseRec :=
  match d with
  | .dz8 => s.pair.leases
  | .agent => s.ag.leases

/-- A lease record with nothing recorded, in its starting window (R426). -/
def startingRec (dom : Nat) : LeaseRec := ⟨dom, 0, 0, 0, none, true, none⟩

/-- The record of a domain that the named device referees: an IA-S agent its own domain's, a unit those that the Rod names (R421,
R491). -/
def State.leaseRec (s : State) (d : Site) (dom : Nat) : Option LeaseRec :=
  match d with
  | .dz8 => s.pair.leases.find? fun r => r.domain == dom
  | .agent => if s.isLeaf && dom == s.domainS .agent then some ((s.ag.leases.find? fun r => r.domain == dom).getD (startingRec dom)) else none

/-- Shows the agent's lease record (R491). -/
def State.showRef (s : State) (r : LeaseRec) : State :=
  ((((s.awr Ia.PAR_REF_HOLDER r.holder).awr Ia.PAR_REF_DOMAIN r.domain).awr Ia.PAR_REF_SERIAL r.serial).awr Ia.PAR_REF_EXP_EXPIRY r.expiry).awr
    Ia.PAR_REF_EXP_STARTING (b2n r.starting)

/-- Stores a lease record. -/
def State.putLease (s : State) (d : Site) (r : LeaseRec) : State :=
  match d with
  | .dz8 => s.setPair fun q => { q with leases := q.leases.map fun x => if x.domain == r.domain then r else x }
  | .agent => (s.setAg fun a => { a with leases := [r] }).showRef r

/-- An answer to a request: KIND, SERIAL, EXPIRY and REASON; SENT comes back (R422). -/
def State.leaseAnswer (s : State) (d : Site) (c : Cell) (kind holder serial expiry reason : Nat) : State :=
  s.leaseTo d c.src 2 (leaseWords kind holder (leaseDom c) (s.epochOf d (leaseDom c)) serial (leaseSent c) expiry (leaseGen c) reason)

/-- A REFUSE, with the E_r of the record (R425). -/
def State.leaseRefuse (s : State) (d : Site) (c : Cell) (r : LeaseRec) (why : Nat) : State :=
  let s := s.leaseAnswer d c 5 r.holder r.serial r.expiry why
  match d with
  | .agent => s.abump Ia.PAR_REF_CNT_REFUSED 1
  | .dz8 => s

/-- A grant: the record with its new E_r, and the answer. -/
def State.leaseGive (s : State) (d : Site) (c : Cell) (kind : Nat) (r : LeaseRec) : State :=
  let s := (s.putLease d r).leaseAnswer d c kind r.holder r.serial r.expiry 0
  match d with
  | .agent => s.abump Ia.PAR_REF_CNT_GRANTED 1
  | .dz8 => s

/-- The sender is a unit of the domain (R425). -/
def isUnit (c : Cell) : Bool := c.src == leaseDom c * 256 + 0xFE || c.src == leaseDom c * 256 + 0xFF

/-- E_r of a request that arrives now (R423). -/
def State.newExpiry (s : State) (d : Site) : Nat := s.beatS d + s.beatsUp d s.leaseMs

/-- A RENEW, or a MOVE treated as one: `starting` is the record's window after it (R423, R426, R427). -/
def State.leaseRenew (s : State) (d : Site) (c : Cell) (starting : Bool → Bool) : State :=
  match s.leaseRec d (leaseDom c) with
  | none => s
  | some r =>
    if !isUnit c then s.leaseRefuse d c r whyNotUnit
    else if r.starting || ((r.holder == c.src || r.holder == 0) && r.released.isNone) then
      s.leaseGive d c 2 { r with holder := c.src, serial := leaseSer c, expiry := s.newExpiry d, starting := starting r.starting }
    else s.leaseRefuse d c r whyHeld

/-- LEASE_RENEW (R423, R426). -/
def execLeaseRenew (site : Site) (cell : Cell) (s : State) : Out := .next (s.leaseRenew site cell id)

/-- LEASE_MOVE (R427). -/
def execLeaseMove (site : Site) (cell : Cell) (s : State) : Out := .next (s.leaseRenew site cell fun _ => true)

/-- A grant that still waits in a queue becomes a REFUSE HELD: the lease went to the lower FID of two that asked in one beat (R425). -/
def State.takeBack (s : State) (d : Site) (old new : Nat) : State :=
  let turn := fun (c : Cell) =>
    if c.type = tLEASE ∧ c.dst = old ∧ bits (cellWord c 0) 63 56 = 4 then
      let ws := leaseWords 5 new (leaseDom c) (bits (cellWord c 0) 35 32) (leaseSer c) (leaseSent c) (leaseExp c) (leaseGen c) whyHeld
      sealed { c with payload := ws.map word }
    else c
  (s.portNums d).foldl (fun s p => s.setPort d p fun x => { x with queue := x.queue.map fun e => (e.1, turn e.2) }) s

/-- LEASE_TAKEOVER (R425, R426, R437). -/
def execLeaseTakeover (site : Site) (cell : Cell) (s : State) : Out :=
  .next (match s.leaseRec site (leaseDom cell) with
    | none => s
    | some r =>
      let grant := { r with
        holder := cell.src, serial := (r.serial + 1) % 2 ^ 32, expiry := s.newExpiry site, released := none, givenAt := some (s.beatS site) }
      if !isUnit cell then s.leaseRefuse site cell r whyNotUnit
      else if r.starting then s.leaseRefuse site cell r whyStarting
      else match r.released with
        | some g =>
          if g = leaseGen cell ∧ cell.src ≠ r.holder then s.leaseGive site cell 4 grant else s.leaseRefuse site cell r whyGeneration
        | none =>
          if r.givenAt = some (s.beatS site) ∧ cell.src < r.holder then
            (s.takeBack site r.holder cell.src).leaseGive site cell 4 { grant with serial := r.serial }
          else if r.holder ≠ 0 ∧ s.beatS site < r.expiry + s.beatsUp site s.guardMs then s.leaseRefuse site cell r whyHeld
          else s.leaseGive site cell 4 grant)

/-- LEASE_RELEASE (R437 step 6). -/
def execLeaseRelease (site : Site) (cell : Cell) (s : State) : Out :=
  .next (match s.leaseRec site (leaseDom cell) with
    | none => s
    | some r =>
      if !isUnit cell then s.leaseRefuse site cell r whyNotUnit
      else if r.holder ≠ cell.src then s.leaseRefuse site cell r whyHeld
      else s.leaseGive site cell 2 { r with released := some (leaseGen cell) })

/-- REFEREE_STARTING_END (R426). -/
def execRefereeStartingEnd (site : Site) (domain : Nat) (s : State) : Out :=
  .next (match s.leaseRec site domain with
    | some r => s.putLease site { r with starting := false }
    | none => s)

/-! ### The unit's own lease (R368, R395, R423, R424, R427) -/

/-- A reset that takes the control cluster runs. -/
def State.controlReset? (s : State) : Bool :=
  match s.rst.running with
  | some q => q.domain == 3 || (q.domain == 2 && q.die == 0)
  | none => false

/-- The unit renews: it is ACTIVE, has no FATAL event, and its control cluster and dies run (R368, R384). -/
def State.mayRenew (s : State) : Bool := s.active && !s.flt.fatal && s.rst.stuck.isEmpty && !s.controlReset?

/-- RENEW_TIMER (R423). -/
def execRenewTimer (s : State) : Out :=
  .next (if s.mayRenew then
      (s.leaseAsk 1 0 (s.rd PAR_GEN_GEN)).setPair fun q => { q with renewSince := some (q.renewSince.getD s.time.beat) }
    else s)

/-- The unit holds the lease until E_a = SENT + floor(LEASE_MS / P) (R423). -/
def State.holdLease (s : State) (c : Cell) : State :=
  let e := leaseSent c + s.beatsDown .dz8 s.leaseMs
  ((s.wr PAR_LEASE_HELD 1).wr PAR_LEASE_EXPIRY (max e (s.rd PAR_LEASE_EXPIRY))).setPair fun q => { q with
    leaseSerial := leaseSer c, renewSince := none }

/-- The rule that a standby is cold: compute rails off once the Pigeonholes are in retention, stacks in self-refresh (R412, R521). -/
def State.goCold (s : State) : State :=
  let s := ((List.range s.cdies).foldl (fun s d => s.wr (PGH_STAT_STATE (pghPg d)) 2) s).stacksTo 3
  if s.mdies = 0 then (s.cpwr 1 false).cpwr 0 true else s.cpwrAll false

/-- A unit that was active holds nothing of the domain any more: its contexts and executors are empty, its instances closed. -/
def State.dropDomain (s : State) : State :=
  let s := contexts.foldl (fun s c => ((s.loadRegs (ctxAddr c) []).loadRegs (ttbAddr c) []).setCtx c fun _ => CtxSt.fresh c) s
  let s := ({ s with ttbs := contexts.map TtbSt.fresh, insts := [] } : State).showOpen
  (s.setRst fun r => { r with remaps := [], planned := [], agentDumps := [] }).setPair fun q => { q with
    writing := none, committed := [], doubtful := [], mirror := none, kept := [], extents := [], handover := none, genDue := false, fullDue := false,
    warm := false, rxGen := 0, recv := [], rxBatches := [], renewSince := none, retryAt := none, takeoverNs := none, cdiesReady := false,
    reconciled := false, noActive := 0 }

/-- The unit becomes STANDBY (R411, R412, R435): its committed generation is that of its own store no more. -/
def State.toStandby (s : State) : State :=
  let s := ((s.dropDomain.wr PAR_STAT_ROLE 2).wr PAR_LEASE_HELD 0).wr PAR_STAT_TAKEOVER 0
  let s := ((s.wr PAR_STAT_CANDIDATE 0).wr PAR_GEN_GEN 0).wr PAR_STAT_COPY 0
  s.goCold

/-- LEASE_GRANT (R423, R437 step 8): an ACTIVE unit's lease, or the answer to a RELEASE, which completes the HANDOVER. -/
def execLeaseGrant (cell : Cell) (s : State) : Out :=
  .next (match s.pair.handover with
    | some h =>
      if h.phase = 4 then (s.mailOk h.session h.slot [h.finalGen, s.time.beat]).toStandby
      else if s.active then s.holdLease cell else s
    | none => if s.active then s.holdLease cell else s)


/-- LEASE_EXPIRY (R424). -/
def execLeaseExpiry (s : State) : Out :=
  .next (if s.active ∧ s.rd PAR_LEASE_EXPIRY ≤ s.time.beat then s.fence.detect .dz8 parPg 2 0 none else s)

/-- The pair as an agent shows it (R471): active unit, standby, referee, alternate. -/
def State.pairWord (s : State) : Nat :=
  s.fid * 2 ^ 50 + s.partnerFid * 2 ^ 36 + s.referee * 2 ^ 22 +
    (if s.on PAR_REFEREE_IN_USE then s.rd PAR_REFEREE_PRIMARY else s.rd PAR_REFEREE_ALTERNATE) * 2 ^ 8

/-- The active unit writes RTE_PAIR of every agent of its domain. -/
def State.tellPair (s : State) : State :=
  (s.agentChips s.theRod).foldl (fun s f => s.remoteWrite f Ia.RTE_PAIR_ACTIVE.addr [s.pairWord]) s

/-- LEASE_MOVE_TRIGGER (R427): while the copy is CURRENT, a generation names the alternate, and then MOVE goes out. -/
def execLeaseMoveTrigger (s : State) : Out :=
  .next (match s.pair.renewSince with
    | some b =>
      if s.mayRenew ∧ b + 3 * s.beatsUp .dz8 s.renewMs ≤ s.time.beat ∧ s.rd PAR_STAT_COPY = 2 ∧ s.rd PAR_REFEREE_ALTERNATE ≠ 0 ∧
          ¬ s.on PAR_REFEREE_IN_USE then
        ((s.wr PAR_REFEREE_IN_USE 1).tellPair.dueGen).setPair fun q => { q with moveDue := true, renewSince := none }
      else s
    | none => s)

/-! ### Asking for the lease (R411, R425, R429) -/

/-- The unit is a candidate (R429). -/
def State.candidate (s : State) : Bool :=
  s.rd PAR_STAT_ROLE == 2 && s.on PAR_STAT_CANDIDATE && !s.flt.fatal && !s.on PAR_STAT_MISMATCH

/-- The unit may ask: a candidate, a FENCED unit without a FATAL event that is not handing over, or one UNDECIDED with a Rod. -/
def State.mayAsk (s : State) : Bool :=
  s.candidate || (s.rd PAR_STAT_ROLE == 3 && !s.flt.fatal && s.pair.handover.isNone) ||
    (s.rd PAR_STAT_ROLE == 0 && s.boot.rod.isSome && !s.flt.fatal)

/-- What R425 waits for: both LEDGER links down, or no ACTIVE beat word for 16 beats; a cold start waits for nothing. -/
def State.alone (s : State) : Bool := s.rd PAR_STAT_ROLE == 0 || !s.ledgerUp || decide (16 ≤ s.pair.noActive)

/-- A TAKEOVER request goes out with the committed GEN (R425). -/
def State.askTakeover (s : State) : State :=
  ((s.leaseAsk 3 0 (s.rd PAR_GEN_GEN)).wr PAR_STAT_TAKEOVER 1).setPair fun q => { q with
    retryAt := some (s.time.beat + s.beatsUp .dz8 s.renewMs) }

/-- TAKEOVER_TRIGGER (R425, R429). -/
def execTakeoverTrigger (s : State) : Out := .next (if s.mayAsk && s.alone then s.askTakeover else s)

/-- TAKEOVER_REQUEST_REPEAT (R425). -/
def execTakeoverRequestRepeat (s : State) : Out :=
  .next (match s.pair.retryAt with
    | some b =>
      if b ≤ s.time.beat then (if s.mayAsk && s.alone then s.askTakeover else s.setPair fun q => { q with retryAt := none }) else s
    | none => s)

/-- The old active unit takes its role back: the paused timetables resume (R436). -/
def State.handoverFails (s : State) (h : Handover) (code : Nat) : State :=
  let s := (s.setPair fun q => { q with handover := none }).mailReject h.session h.slot code []
  contexts.foldl (fun s c =>
    if (s.ttb c).held && s.armed c then
      let s := s.setTtb c fun t => { t with held := false }
      if s.on (TTB_STAT_PAUSED (ttbPg c)) then s.beginArm c (s.time.beat + 4096) true else s
    else s) s

/-- The RELEASE was not taken: the unit is ACTIVE again while its lease runs (R436, code 0x12). -/
def State.releaseFails (s : State) (h : Handover) : State :=
  let live := decide (s.time.beat < s.rd PAR_LEASE_EXPIRY)
  let s := if live then (s.wr PAR_STAT_ROLE 1).wr PAR_LEASE_HELD 1 else s
  s.handoverFails h 0x12

/-- LEASE_REFUSE (R411, R425, R436). -/
def execLeaseRefuse (cell : Cell) (s : State) : Out :=
  .next (
    let s := match s.pair.handover with
      | some h => if h.phase = 4 then s.releaseFails h else s
      | none => s
    if s.rd PAR_STAT_ROLE = 0 ∧ leaseReason cell = whyHeld ∧ leaseHolder cell = s.partnerFid then s.toStandby
    else if s.active then s
    else match s.pair.retryAt with
      | some b =>
        let named := leaseExp cell + s.beatsUp .dz8 s.guardMs
        s.setPair fun q => { q with retryAt := some (if leaseReason cell = whyHeld then max (min b named) (s.time.beat + 1) else b) }
      | none => s)

/-- HANDOVER_RELEASE_TIMEOUT (R436). -/
def execHandoverReleaseTimeout (s : State) : Out :=
  .next (match s.pair.handover with
    | some h => if h.phase = 4 then s.releaseFails h else s
    | none => s)

/-! ### The grant (R411, R433 steps 1 to 3) -/

/-- The unit becomes ACTIVE: its C-dies power up, its stacks leave self-refresh and its Pigeonholes wake; the agents learn the pair. -/
def State.becomeActive (s : State) (c : Cell) : State :=
  let s := ((s.wr PAR_LEASE_EXPIRY 0).wr PAR_STAT_ROLE 1).holdLease c
  let s := (s.cpwrAll true).stacksTo 2
  let s := (List.range s.cdies).foldl (fun s d => s.pghWake d) s
  s.portRoles.tellPair

/-- A cold start of the domain: no generation is taken over, and the first routes are computed (R411, R426). -/
def State.coldStart (s : State) : State :=
  ((s.wr PAR_STAT_TAKEOVER 0).setPair fun q => { q with retryAt := none, genDue := true, fullDue := true }).requestFlip

/-- LEASE_TAKEOVER_GRANT (R411, R433, R437). -/
def execLeaseTakeoverGrant (cell : Cell) (s : State) : Out :=
  .next (
    let role := s.rd PAR_STAT_ROLE
    if role = 1 then s.holdLease cell
    else if s.rd PAR_STAT_TAKEOVER ≠ 1 then s
    else
      let s := s.becomeActive cell
      if role = 0 then s.coldStart
      else
        let s := (s.wr PAR_STAT_TAKEOVER 2).wr PAR_TAKEOVER_CAUSE (if s.pair.warm then 2 else 1)
        (s.bump PAR_TAKEOVER_COUNT 1).setPair fun q => { q with
          takeoverNs := some s.time.nowNs, cdiesReady := q.warm, reconciled := false, kept := [], retryAt := none, noActive := 0 })

end Sys2Proof.Machine
end

