-- ==== Sys2Proof/Machine/Takeover.lean ====
section
/-! DEFINITION. The takeover after its grant, the planned handover and the return of a unit (R430 to R433, R435 to R437, R439). -/

namespace Sys2Proof.Machine

/-! ### Reading a generation back (R415, R430) -/

/-- The flip record of a flip slot, none where it names none (R414). -/
def recordOf (bs : List Byte) : Option FlipRecord :=
  let st := bits (wAt bs 0) 34 32
  let r := fun (x : RecState) => (⟨bits (wAt bs 0) 63 50, bits (wAt bs 0) 31 0, bits (wAt bs 8) 31 0, decide (1 < ((List.range 64).filter (bit (wAt bs 16))).length),
    bits (wAt bs 24) 55 0, bits (wAt bs 32) 55 0, x, epochsOf (wAt bs 40)⟩ : FlipRecord)
  match st with
  | 1 => some (r .prepared)
  | 2 => some (r .quiet)
  | 3 => some (r .commitIssued)
  | 4 => some (r .done)
  | 5 => some (r .aborted)
  | _ => none

/-- ROUTE and SETTINGS take force; a port or timekeeper that they switch is switched. -/
def State.loadSettings (s : State) (bs : List Byte) : State :=
  let l := takeTable (wordList bs)
  let old := s
  let mine := fun (k : Nat) => settingFlds.any fun f => f.key == k
  let s := { s with regs := (l.1.filter fun (e : Nat × Nat) => mine e.1).foldl (fun t (e : Nat × Nat) => kput t e.1 e.2) (tdrop mine s.regs) }
  let s := s.links.foldl (fun s p =>
    let on := s.on (PRT_CTRL_DISABLE (prtPg p))
    if on == old.on (PRT_CTRL_DISABLE (prtPg p)) then s else s.disablePort .dz8 p on) s
  if s.on TMK_CTRL_ENABLE && !old.on TMK_CTRL_ENABLE then s.tmkStart
  else if !s.on TMK_CTRL_ENABLE && old.on TMK_CTRL_ENABLE then s.wr TMK_CTRL_ENABLE 1 else s

/-- A source of the partner as the same source of this unit. -/
def State.ownSource (s : State) (x : Nat) : Nat := 2 ^ 25 * s.fid + x % 2 ^ 25

/-- One source's thresholds, nine words: the source, three words of its own and three of the promotion to FATAL (R359). -/
def State.putThresh (s : State) (ws : List Nat) : State :=
  let src := s.ownSource (nth ws 0)
  match detInitial .dz8 (srcFam src) (srcDet src) with
  | some i => s.setFlt .dz8 fun f => f.putSrc { f.src src i with
      thresh := if nth ws 2 = 1 then some (nth ws 3, nth ws 4 == 1, nth ws 5) else none
      threshF := if nth ws 6 = 1 then some (nth ws 7, nth ws 8) else none }
  | none => s

/-- The thresholds that the host had changed (R359). -/
def State.loadThresh (s : State) (ws : List Nat) : State :=
  (List.range (ws.length / 9)).foldl (fun s i => s.putThresh ((ws.drop (9 * i)).take 9)) s

/-- CONTEXT (R281, R415): a release runs again from its step 3, an assignment is checked again. -/
def State.loadCtx (s : State) (c : Nat) (bs : List Byte) : State :=
  let l := wordList bs
  let map := takeTable (l.drop 7)
  let x : CtxSt := { CtxSt.fresh c with
    map := (map.1.filter fun e => decide (e.2 != 0)).foldl (fun t e => tset t e.1 e.2) [],
    seed := bigOf ((l.drop 1).take 2), owner := bigOf ((l.drop 3).take 4),
    release := (relOf (nth l 0)).map fun r => { r with drained := false, scrubbed := false, erased := false, flipped := false } }
  (s.setCtx c fun _ => x).loadRegs (ctxAddr c) (takeTable map.2).1

/-- TIMETABLE and TTBSTATE (R415): the executor with its image, nothing begun. -/
def State.loadTtb (s : State) (c : Nat) (state image : Option (List Byte)) : State :=
  let s := s.loadRegs (ttbAddr c) (match state with | some bs => (takeTable (wordList bs)).1 | none => [])
  let s := s.setTtb c fun _ => { TtbSt.fresh c with image := image.map readImage, seed := (s.ctx c).seed }
  if image.isNone ∧ s.ttbState c ≠ 0 then s.ttbTo c 0 else s

/-- KEYRECS (R415, R430): what was delivered; the records themselves are those of the unit's own shelf. -/
def State.loadKeys (s : State) : Nat → List Nat → State
  | 0, _ => s
  | n + 1, l =>
    match l with
    | c :: k :: _ :: r =>
      let t := takeTable (r.drop 4)
      let s := t.1.foldl (fun s e =>
        let w := s.epWord c e.1
        s.setEp c e.1 (bits w 63 56) (setBit (bits w 55 48) k true) s.time.beat) s
      s.loadKeys n t.2
    | _ => s

/-- VAULTMAP (R415, R420, R430): only an image marked MIRRORED is readable. -/
def vaultOf (c : Nat) : List Nat → List VaultImage
  | i :: k :: off :: len :: m :: r => (if m = 1 then [(⟨c, i, k, off, len, true, imageBytes' len⟩ : VaultImage)] else []) ++ vaultOf c r
  | _ => []

/-- PENDING (R408, R415): the re-mappings in progress; each stream starts again, on a part that has one (R4). -/
def remapsOf (noStream : Bool) : List Nat → List Remap
  | w :: sp :: f :: r =>
    (⟨w / 2 ^ 12, w % 2 ^ 12, if sp < 2 ^ 16 then none else some (sp % 2 ^ 16), bit f 0, bit f 1, noStream, [], none, bit f 3⟩ : Remap) ::
      remapsOf noStream r
  | _ => []

/-- A verified generation becomes the state of the new active unit; images and extents follow with TAKEOVER_LOAD_DONE (R430). -/
def State.loadGen (s : State) (l : List Section) : State :=
  let route := wordList ((sectionOf l 2 0).getD [])
  let s := { s with insts := [] }
  let s := ((s.wr RTE_GEN_ACTIVE (nth route 0)).wr PAR_REFEREE_IN_USE (nth route 1))
  let s := (List.range 4).foldl (fun s i => s.wr (RTE_EPOCH_EPOCHS i) (nth route (2 + i))) s
  let alts := takeTable (route.drop 6)
  let s := (s.setRoute fun r => { r with onAlternate := alts.1.map (·.1) }).loadRegs routeAddr (takeTable alts.2).1
  let s := contexts.foldl (fun s c =>
    let s := match sectionOf l 3 c with
      | some bs => s.loadCtx c bs
      | none => (s.setCtx c fun _ => CtxSt.fresh c).loadRegs (ctxAddr c) []
    s.loadTtb c (sectionOf l 5 c) (sectionOf l 4 c)) s
  let s := match sectionOf l 9 0 with
    | some bs => (s.loadSettings bs).loadThresh (takeTable (wordList bs)).2
    | none => s
  let keys := wordList ((sectionOf l 6 0).getD [])
  let s := (s.setRot fun r => { r with delivered := [] }).loadKeys keys.length keys
  let s := s.setRot fun r => { r with images := contexts.flatMap fun c => vaultOf c (wordList ((sectionOf l 8 c).getD [])) }
  let pend := wordList ((sectionOf l 10 0).getD [])
  let s := (s.wr RTE_STAT_PENDING (nth pend 0)).setRst fun r => { r with remaps := remapsOf (s.mdies == 0) (pend.drop 1) }
  s.setPair fun q => { q with committed := l }

/-! ### Reconciliation (R432) -/

/-- Tables and generation that the agents hold (R432); in the unit's own shadow stand the tables of its new role. -/
def State.takeTables (s : State) (rs : List AgentReport) : State :=
  let fids := rs.map (·.fid)
  let t := s.route.active.filter fun e => !fids.contains (e.1 / 2 ^ 14)
  let t := rs.foldl (fun t r => r.table.foldl (fun t e => tset t (r.fid * 2 ^ 14 + e.1 % 2 ^ 14) e.2) t) t
  let s := match rs with
    | [] => s
    | r :: more => s.wr RTE_GEN_ACTIVE ((more.map fun (x : AgentReport) => x.routeGen).foldl max r.routeGen)
  s.setRoute fun r => { r with active := t, shadow := s.hwImages s.theRod }

/-- The map of a context as its members hold it, unless the flip that carries a newer one goes on (R408, R432). -/
def State.takeMap (s : State) (rs : List AgentReport) (c : Nat) : State :=
  if s.recordIs .commitIssued then s
  else match rs.find? fun r => (s.sliceFids c).contains r.fid && !r.map.isEmpty with
    | none => s
    | some r => s.setCtx c fun x => { x with map := r.map.foldl (fun t e =>
        if bit e.2 15 then tset t e.1 (2 ^ 63 + tget t e.1 / 2 ^ 62 % 2 * 2 ^ 62 + e.2 % 2 ^ 14) else t) x.map }

/-- The keys that an agent holds (R432). -/
def State.takeKeys (s : State) (r : AgentReport) : State :=
  match ((s.membersOf r.keyCtx).find? fun m => m.2 == r.fid) with
  | some m =>
    let w := s.epWord r.keyCtx m.1
    if r.keyCtx < 16 then s.setEp r.keyCtx m.1 (bits w 63 56) r.keys (bits w 47 0) else s
  | none => s

/-- What the reachable members of a context report of its timetable. -/
def State.ttbReports (s : State) (rs : List AgentReport) (c : Nat) : List TtbReport :=
  (rs.filter fun r => (s.sliceFids c).contains r.fid).flatMap fun r => r.ttbs.filter fun t => t.ctx == c

/-- An agent has the timetable armed, running or stopped (R483). -/
def holds (t : TtbReport) : Bool := decide (2 ≤ t.state)

/-- A job becomes STOPPED at a takeover, with its NOTIFY record (R432). -/
def State.takeoverStop (s : State) (c : Nat) : State :=
  let s := (s.dropSteps c fun _ => true).setTtb c fun t => { t with uncommitted := [], miss := none, void := none, others := [], stopReq := false, flipPaused := false }
  (s.ttbTo c 6).notifyJob c 1 5

/-- The oldest step that is not committed, with its iteration, from a report: step after COMMITTED. -/
def oldest (n : Nat) (t : TtbReport) : Nat × Nat :=
  let first := if t.committed = 2 ^ 32 - 1 then 0 else (t.committed + 1) % max 1 n
  (first, if t.next < first then t.iter - 1 else t.iter)

/-- A kept timetable waits, paused, for its re-arming; a step that its members have begun is voided (R432, R433 step 4). -/
def State.keepJob (s : State) (c : Nat) (m : Image) (t : TtbReport) (serial : Nat) : State :=
  let pg := ttbPg c
  let o := oldest m.steps.length t
  let s := ((((s.wr (TTB_STEP_COMMITTED pg) t.committed).wr (TTB_STEP_NEXT pg) o.1).wr (TTB_ITER_ITER pg) o.2).wr (TTB_BASE_BEAT pg) t.base).wr
    (TTB_VOID_PARITY pg) t.parity
  let s := s.wr (TTB_VOID_SERIAL pg) serial
  let s := ((s.wr (TTB_STAT_PAUSED pg) 1).ttbTo c 5).setTtb c fun x => { x with held := true, uncommitted := [], miss := none, void := none, others := [], attempts := [] }
  let s := s.setPair fun q => { q with kept := q.kept ++ [c] }
  if o = (t.next, t.iter) then s
  else
    let v : VoidSt := ⟨(serial + 1) % 2 ^ 32, o.1, o.2, s.time.beat + 16, none, 5, 0, 1 - t.parity, none, s.fid, 0, (s.membersOf c).map (·.2), false⟩
    let s := ((s.wr (TTB_VOID_SERIAL pg) v.serial).wr (TTB_VOID_CAUSE pg) 5).bump (TTB_COUNT_VOIDS pg) 1
    (((s.service c).detect .dz8 pg 2 0 (some c)).voidOut c v).notifyJob c 4 5

/-- The timetable of one context at a takeover (R432). -/
def State.reconcileTtb (s : State) (rs : List AgentReport) (c : Nat) : State :=
  let ts := s.ttbReports rs c
  let maps := ((rs.filter fun r => (s.sliceFids c).contains r.fid).map (·.map)).dedup
  if s.isBranch c then s
  else if ¬ s.armed c then
    if ts.any holds ∧ s.ttbState c ≠ 6 then (s.disarmMembers c).notifyJob c 3 5 else s
  else match s.img c, ts with
    | none, _ => (s.disarmMembers c).notifyJob c 3 5
    | some _, [] => s.takeoverStop c
    | some m, t :: r =>
      if m.programs.any (fun p => p.op == 6) then s.takeoverStop c
      else if 1 < maps.length ∨ (t :: r).any (fun x => !holds x || x.committed != t.committed || x.base != t.base) then s.takeoverStop c
      else s.keepJob c m t (r.foldl (fun n x => max n x.voidSerial) (max t.voidSerial (s.rd (TTB_VOID_SERIAL (ttbPg c)))))

/-- A member whose agent cannot be reached is lost; its re-mapping waits for the takeover flip (R400, R432). -/
def State.loseSilent (s : State) (c : Nat) (rs : List AgentReport) : State :=
  let silent := fun (m : Nat × Nat) => m.2 / 256 == s.domain && rs.any (fun r => r.fid == m.2 && !r.reachable)
  if s.ctxState c = 2 then ((s.membersOf c).filter silent).foldl (fun s m =>
    if (s.ctx c).lost.contains m.1 then s
    else ((s.setCtx c fun x => { x with lost := x.lost ++ [m.1] }).holdJob c).notifyJob c 8 m.1) s
  else s

/-- A re-mapping whose map the agents do not hold did not flip: its member is lost again (R408). -/
def State.remapsLeft (s : State) : State :=
  s.setRst fun r => { r with remaps := r.remaps.filter fun m => m.spare == s.lidFid m.ctx m.lid && m.spare.isSome }

/-- The generation that verifies, tags included (R431). -/
def State.goodGen (s : State) (newTags oldTags : Bool) : Option (Nat × List Section) :=
  let hi := if mword s.pair.store 0 < mword s.pair.store 0x40 then 1 else 0
  ((s.readDir hi).filter fun _ => newTags).orElse fun _ => (s.readDir (1 - hi)).filter fun _ => oldTags

/-- Steps 3 and 4 of R433 on the state in hand. -/
def State.reconcile (s : State) (reports : List AgentReport) : State :=
  let rs := reports.filter (·.reachable)
  let s := s.flipRecovery
  let s := s.takeTables rs
  let s := contexts.foldl (fun s c => s.takeMap rs c) s
  let s := rs.foldl (fun s r => s.takeKeys r) s
  let s := contexts.foldl (fun s c => s.reconcileTtb rs c) s
  let s := contexts.foldl (fun s c => s.loseSilent c reports) s
  (s.remapsLeft.wr PAR_STAT_TAKEOVER 4).setPair fun q => { q with reconciled := true }

/-- No generation verifies: the unit is not a candidate and gives the role up (R429, R431). -/
def State.noGen (s : State) : State :=
  ((((s.wr PAR_STAT_CANDIDATE 0).wr PAR_STAT_ROLE 2).wr PAR_LEASE_HELD 0).wr PAR_STAT_TAKEOVER 0).goCold

/-- TAKEOVER_RECONCILE (R124, R431 to R433): a unit that was FENCED goes on with its own state. -/
def execTakeoverReconcile (reports : List AgentReport) (newTags oldTags : Bool) (s : State) : Out :=
  .next (if !s.active || s.rd PAR_STAT_TAKEOVER != 2 || s.pair.reconciled then s
    else if s.pair.rxGen = 0 then s.reconcile reports
    else
      let s := s.moveBuffer
      match s.goodGen newTags oldTags with
      | none => s.noGen
      | some (gen, l) =>
        let s := (s.loadGen l).setRoute fun r => { r with record := recordOf (mread s.pair.store 0x80 48) }
        ((s.wr PAR_GEN_GEN gen).setPair fun q => { q with lastGen := max q.lastGen gen }).reconcile reports)

/-! ### The later steps (R433) -/

/-- TAKEOVER_CDIE_READY (R384, R433 step 2, R439). -/
def execTakeoverCdieReady (ok : Bool) (s : State) : Out :=
  .next (if s.rd PAR_STAT_TAKEOVER < 2 ∨ s.rd PAR_STAT_TAKEOVER > 4 then s
    else if ok then s.seqBroadcast.setPair fun q => { q with cdiesReady := true }
    else (s.detect .dz8 rstPg 1 2 none).setFlt .dz8 fun f => { f with fatal := true })

/-- Images and extents of the generation go into the Pigeonholes, regions of classes 2 to 5 are filled (R430). -/
def State.fillIn (s : State) : State :=
  let l := s.pair.committed
  let s := l.foldl (fun s x =>
    if x.kind = 4 then s.allocWrite x.ctx (s.rd (TTB_IMAGE_OFFSET (ttbPg x.ctx))) x.data
    else if x.kind = 7 then (s.allocWrite x.ctx (48 * x.id) x.data).setPair fun q => { q with extents := q.extents ++ [(x.ctx, x.id, x.data.length)] }
    else s) (s.setPair fun q => { q with extents := [] })
  let s := contexts.foldl (fun s c => [2, 3, 4, 5].foldl (fun s k => s.fillRegion c k) s) s
  s.reloadKeys.setPair fun q => { q with committed := [], doubtful := [], rxGen := 0 }

/-- TAKEOVER_LOAD_DONE (R281, R404, R433 steps 5 and 6): the takeover flip is asked for, with the domain's next role epoch. -/
def execTakeoverLoadDone (s : State) : Out :=
  .next (if !s.active || s.rd PAR_STAT_TAKEOVER != 4 || !s.pair.reconciled || !s.pair.cdiesReady || s.flt.fatal then s
    else
      let s := if s.pair.rxGen = 0 then s else s.fillIn
      let s := s.setRoute fun r => { r with
        nextEpochs := r.nextEpochs.filter (fun x => x.1 != s.domain) ++ [(s.domain, (s.epochOf .dz8 s.domain + 1) % 16)] }
      let s := s.setRst fun r => { r with remaps := r.remaps.map fun m => { m with toSend := if m.streamDone then [] else s.streamCells m.ctx m.lid } }
      let s := (s.wr PAR_STAT_TAKEOVER 5).setPair fun q => { q with genDue := true, fullDue := true, warm := false }
      let s := contexts.foldl (fun s c =>
        if s.ctxState c = 1 then (s.wr (CTX_STAT_STATE (ctxPg c)) 0).ctxAssign c else s) s
      s.retrySpares.requestFlip)

/-- TAKEOVER_REARM (R433 step 7): the takeover is complete, and each kept timetable is armed again. -/
def execTakeoverRearm (s : State) : Out :=
  .next (if !s.active || s.rd PAR_STAT_TAKEOVER != 5 || s.flipRuns then s
    else
      let s := s.pair.kept.foldl (fun s c => if (s.ctx c).lost.isEmpty ∧ s.mayRearm c then s.beginArm c (s.time.beat + 4096) true else s) s
      let ms := match s.pair.takeoverNs with | some t => (s.time.nowNs - t) / 1000000 | none => 0
      ((s.wr PAR_STAT_TAKEOVER 6).wr PAR_TAKEOVER_LAST_MS ms).setPair fun q => { q with kept := [], takeoverNs := none })

/-! ### Planned handover (R436, R437) -/

/-- A context's timetable holds an UPDATE exchange. -/
def State.hasUpdate (s : State) (c : Nat) : Bool := match s.img c with | some m => m.programs.any fun p => p.op == 6 | none => false

/-- A refusal of HANDOVER (R436). -/
def State.handoverErr (s : State) (force : Bool) : Option Nat :=
  firstCode [(s.rd PAR_STAT_COPY != 2 || s.on PAR_STAT_MISMATCH || !s.active, 0x10), (s.flipRuns, 0x14),
    (!force && contexts.any (fun c => s.armed c && s.hasUpdate c), 0x11)]

/-- MAIL_HANDOVER (R436, R437 step 1). -/
def execMailHandover (index slot : Nat) (s : State) : Out :=
  .next (match s.takenFor index slot 6, s.mailErr index slot 6 1 [0] with
    | false, _ => s
    | true, some e => s.mailReject index slot e []
    | true, none =>
      match s.handoverErr (bit (s.slotGet index slot 0) 0) with
      | some e => s.mailReject index slot e []
      | none => (s.mailRuns index slot 6).setPair fun q => { q with handover := some ⟨index, slot, 1, 0⟩ })

/-- STANDBY_WARM_DONE (R218, R437 steps 1 and 2): at the standby its dies and memories are up with the sequencer image that runs next; at
the active unit every armed timetable is told to pause. -/
def execStandbyWarmDone (s : State) : Out :=
  .next (match s.pair.handover with
    | some h =>
      if s.active ∧ h.phase = 1 then
        let s := s.setPair fun q => { q with handover := some { h with phase := 2 } }
        contexts.foldl (fun s c => if s.armed c then s.setTtb c fun t => { t with held := true } else s) s
      else s
    | none =>
      if s.rd PAR_STAT_ROLE = 2 then
        let s := ((s.cpwrAll true).stacksTo 2).activate [4]
        let s := (List.range s.cdies).foldl (fun s d => s.wr (PGH_STAT_STATE (pghPg d)) 0) s
        (s.showUpdate.seqBroadcast).setPair fun q => { q with warm := true }
      else s)

/-- Every armed timetable has paused, and its begun steps have committed or voided (R437 step 3). -/
def State.allHeld (s : State) : Bool :=
  contexts.all fun c => !s.armed c || (s.on (TTB_STAT_PAUSED (ttbPg c)) && (s.ttb c).uncommitted.isEmpty)

/-- HANDOVER_PAUSED (R437 steps 3 and 4): contexts with an UPDATE exchange stop, and the final generation is due. -/
def execHandoverPaused (s : State) : Out :=
  .next (match s.pair.handover with
    | some h =>
      if s.active && h.phase == 2 && s.allHeld then
        let s := contexts.foldl (fun s c => if s.armed c && s.hasUpdate c then s.takeoverStop c else s) s
        let g := max (s.rd PAR_GEN_GEN) s.pair.lastGen + 1
        s.setPair fun q => { q with genDue := true, handover := some { h with phase := 3, finalGen := g } }
      else s
    | none => s)

/-- HANDOVER_PAUSE_TIMEOUT (R436, code 0x13). -/
def execHandoverPauseTimeout (s : State) : Out :=
  .next (match s.pair.handover with
    | some h => if h.phase = 2 then s.handoverFails h 0x13 else s
    | none => s)

/-! ### Return of a unit (R3, R435) -/

/-- Population and bin of the unit. -/
def State.ownPart (s : State) : Nat × Nat × Nat := (s.rd LCS_PART_PART, s.rd LCS_PART_DIES, s.rd LCS_PART_TILE_MHZ)

/-- A unit that is not active compares the partner with itself: one that differs makes it no candidate (R3, R429). -/
def State.partnerSeen (s : State) (p : Nat × Nat × Nat) : State :=
  let s := s.setPair fun q => { q with partner := some p }
  if p = s.ownPart then s.wr PAR_STAT_MISMATCH 0
  else ((s.wr PAR_STAT_MISMATCH 1).wr PAR_STAT_CANDIDATE 0).detect .dz8 parPg 0 0 none

/-- The active unit resynchronises its partner, or refuses it as standby where population or bin differ (R3, R435). -/
def State.partnerBack (s : State) (p : Nat × Nat × Nat) : State :=
  let s := s.setPair fun q => { q with partner := some p }
  if p ≠ s.ownPart then
    (((s.wr PAR_STAT_MISMATCH 1).wr PAR_STAT_COPY 0).setPair fun q => { q with writing := none, mirror := none }).detect .dz8 parPg 0 0 none
  else
    let s := ((s.wr PAR_STAT_MISMATCH 0).wr PAR_STAT_COPY 1).setPair fun q => { q with
      writing := none, committed := [], doubtful := [], mirror := none, genDue := true, fullDue := true }
    s.setRot fun r => { r with
      records := r.records.map (fun x => { x with paired := false })
      images := r.images.map fun x => { x with mirrored := false, copied := 0 } }

/-- UNIT_RETURN (R411, R424, R435). -/
def execUnitReturn (partner : Option (Nat × Nat × Nat)) (s : State) : Out :=
  .next (match partner with
    | some p => if s.active then s.partnerBack p else s.partnerSeen p
    | none => if s.active || s.rd PAR_STAT_ROLE == 2 then s else s.toStandby)

end Sys2Proof.Machine
end

