-- ==== Sys2Proof/Machine/Pages.lean ====
section
/-! DEFINITION. Addresses, pages, the roles that reach them, and the fields at an offset (R496 to R508, R469, R471). -/

namespace Sys2Proof.Machine

/-! ### Addresses (R496) -/

def adDie (a : Nat) : Nat := bits a 31 28
def adFam (a : Nat) : Nat := bits a 27 20
def adInst (a : Nat) : Nat := bits a 19 12
def adOff (a : Nat) : Nat := bits a 11 0
/-- Base address of the page of a local address. -/
def adPg (a : Nat) : Nat := bits a 31 12 * 4096
def adRemote (a : Nat) : Bool := bit a 47
def adFid (a : Nat) : Nat := bits a 46 33
/-- The reserved bits are 0, and the FID is 0 in a local address. -/
def adClean (a : Nat) : Bool := bits a 63 48 == 0 && !bit a 32 && (adRemote a || adFid a == 0)

/-- The page of an address exists in this part (R498 to R500). -/
def State.pageExists (s : State) (a : Nat) : Bool :=
  let die := adDie a
  let n := adInst a
  let ctl := die == 15 && n == 0
  let x := decide (die < 2) && s.hasDie die
  let c := (die == 2 || die == 3) && s.hasDie die
  match adFam a with
  | 0x01 => ctl
  | 0x02 | 0x05 => x && n == 0
  | 0x03 => x && decide (n < 96) && portDie n == die
  | 0x04 => decide (n < 10) && s.hasDie (edgeEnds n).1 && s.hasDie (edgeEnds n).2 && (die == (edgeEnds n).1 || die == (edgeEnds n).2)
  | 0x06 => die == 0 && decide (n < 16)
  | 0x07 => die == 2 && decide (n ≤ 16)
  | 0x08 => c && n == 0
  | 0x09 => c && (decide (n < 8) || n == 16)
  | 0x0A => (c && n == 0) || (die == 2 && decide (16 ≤ n) && decide (n < 32))
  | 0x0B => decide (4 ≤ die) && decide (die < 8) && s.hasDie die && (decide (n < 6) || n == 16)
  | 0x0C => die == 15 && decide (0 < s.mdies) && (n == 0 || (decide (16 ≤ n) && decide (n < 32)))
  | 0x0D => die == 15 && decide (n ≤ 16)
  | 0x0E | 0x10 | 0x11 | 0x19 => die == 0 && n == 0
  | 0x0F | 0x14 | 0x15 | 0x16 | 0x17 => ctl
  | 0x12 => die == 2 && (n == 0 || (decide (16 ≤ n) && decide (n < 80)))
  | 0x13 => (die == 0 && n == 0) || (x && n == 1)
  | 0x18 => ctl || (n == 1 && decide (die < 8) && s.hasDie die)
  | _ => false

/-- The page of an agent address exists in this build (R464, R471). -/
def State.agPageExists (s : State) (a : Nat) : Bool :=
  let n := adInst a
  adDie a == 0 &&
  match adFam a with
  | 0x01 | 0x02 | 0x05 | 0x0E | 0x0F | 0x14 | 0x16 => n == 0
  | 0x03 => decide (n < s.agPortCount)
  | 0x06 | 0x08 => n == 0 && !s.isLeaf
  | 0x13 => decide (n < 2)
  | 0x17 => n == 0 && s.isLeaf
  | _ => false

/-! ### Fields -/

/-- The register tables of a page of the DZ8 (R498). -/
def dzRegs (fam n : Nat) : List FDef :=
  match fam with
  | 0x01 => genRegs
  | 0x02 => tmkRegs
  | 0x03 => prtRegs
  | 0x04 => dvtRegs
  | 0x05 => rteRegs
  | 0x06 => ttbRegs
  | 0x07 => if n = 16 then clxEngRegs else clxRegs
  | 0x08 => cdcRegs
  | 0x09 => if n = 16 then ttlDieRegs else ttlRegs
  | 0x0A => if n = 0 then pghRegs else pghWinRegs
  | 0x0B => if n = 16 then hbcNmuRegs else hbcRegs
  | 0x0C => if n = 0 then vltRegs else vltCtxRegs
  | 0x0D => if n = 16 then ctxSumRegs else ctxRegs
  | 0x0E => frkRegs
  | 0x0F => lcsRegs
  | 0x10 => hptRegs
  | 0x11 => byjRegs
  | 0x12 => if n = 0 then mslRegs else mslSessRegs
  | 0x13 => if n = 0 then fltRegs else fltDllRegs
  | 0x14 => jigRegs
  | 0x15 => dmpRegs
  | 0x16 => rstRegs
  | 0x17 => parRegs
  | 0x18 => if n = 0 then pwrRegs else pwrDieRegs
  | 0x19 => agtRegs
  | _ => []

/-- Rows of a table at the offsets listed. -/
def only (offs : List Nat) (l : List FDef) : List FDef := l.filter fun d => offs.contains d.off

/-- The register tables of a page of the agent (R471). -/
def agRegs (fam n : Nat) : List FDef :=
  match fam with
  | 0x01 => only [0x100, 0x110, 0x118, 0x170, 0x178, 0x800] genRegs
  | 0x02 => iaTmkRegs ++ (only [0x400] tmkRegs).map fun d => { d with cnt := 64 }
  | 0x03 => prtRegs
  | 0x05 => only [0x110, 0x118, 0x140, 0x148, 0x150, 0x158, 0x160, 0x168, 0x170, 0x198] rteRegs ++ iaRteRegs
  | 0x06 => iaTtbRegs ++ only [0x128, 0x138] ttbRegs
  | 0x08 => only [0x110, 0x118] cdcRegs ++ iaCdcRegs
  | 0x0E => iaFrkRegs
  | 0x0F => only [0x108, 0x110, 0x118, 0x148] lcsRegs
  | 0x13 => if n = 0 then fltRegs else fltDllRegs
  | 0x14 => jigRegs
  | 0x16 => iaRstRegs
  | 0x17 => iaParRegs
  | _ => []

def regsOf (d : Site) (fam n : Nat) : List FDef :=
  match d with
  | .dz8 => dzRegs fam n
  | .agent => agRegs fam n

/-- Where the block registers of a page are kept: an agent's at the DZ8's address where it keeps the DZ8's layout. -/
def blockPg (d : Site) (a : Nat) : Nat :=
  match d with
  | .dz8 => adPg a
  | .agent => if adFam a = 0x01 ∨ adFam a = 0x0F ∨ adFam a = 0x14 then 0xF0000000 + adPg a else adPg a

/-- The fields of a table at an offset, with their access. -/
def fieldsAt (l : List FDef) (pg off : Nat) : List (FDef × Fld) :=
  l.filterMap fun d =>
    if d.off ≤ off ∧ (off - d.off) % d.step = 0 ∧ (off - d.off) / d.step < d.cnt ∨ d.off = off then
      some (d, d.at pg ((off - d.off) / d.step))
    else none

/-- The value of the fields, and the state after the read: a read of an RC field clears it to its reset value, a WO field reads 0 (R8, R9). -/
def State.readFields (s : State) (d : Site) (fs : List (FDef × Fld)) : Nat × State :=
  fs.foldl (fun r x =>
    match x.1.acc with
    | .wo => r
    | .rc => (r.1 + r.2.rdS d x.2 * 2 ^ x.2.lo, r.2.wrS d x.2 x.2.rst)
    | _ => (r.1 + r.2.rdS d x.2 * 2 ^ x.2.lo, r.2)) (0, s)

/-- The bits of a written word that fall into a field. -/
def fldBits (f : Fld) (v : Nat) : Nat := bits v (f.lo + f.w - 1) f.lo

/-- Writes the fields by their access codes: RW is set, each 1 clears in W1C and sets in W1S, the others are ignored (R8). -/
def State.writeFields (s : State) (d : Site) (fs : List (FDef × Fld)) (v : Nat) : State :=
  fs.foldl (fun s x =>
    match x.1.acc with
    | .rw => s.wrS d x.2 (fldBits x.2 v)
    | .w1c => s.wrS d x.2 (s.rdS d x.2 - (s.rdS d x.2 &&& fldBits x.2 v))
    | .w1s => s.wrS d x.2 (s.rdS d x.2 ||| fldBits x.2 v)
    | _ => s) s

/-! ### Roles (R507, R508) -/

/-- Who reaches a page: role, the context of a TENANT, the index of the session. -/
structure Asker where
  role : Nat
  ctx : Nat
  index : Nat
  deriving DecidableEq, Repr

/-- An OPERATOR, as which a write outside a datagram acts. -/
def operator : Asker := ⟨0, 0, 0⟩

/-- The asker has OPERATOR's access: an OPERATOR or SERVICE session. -/
def Asker.full (w : Asker) : Bool := w.role == 0 || w.role == 2

/-- The context is bound to the asker's owner (R277). -/
def State.boundTo (s : State) (w : Asker) (c : Nat) : Bool :=
  match s.openSess w.index with
  | some x => s.ownsCtx x c
  | none => false

/-- TENANT may read and write a page of some instance, and OWNER: read TENANT, write TENANT, read OWNER, write OWNER. -/
def openTo (die fam n : Nat) : Bool × Bool × Bool × Bool :=
  match fam with
  | 0x01 => (true, false, true, false)
  | 0x02 => (die == 0, false, die == 0, false)
  | 0x06 => (true, true, true, false)
  | 0x07 => if n < 16 then (true, true, true, false) else (false, false, false, false)
  | 0x0A => if n < 16 then (false, false, false, false) else (true, true, false, false)
  | 0x0C => if n < 16 then (false, false, false, false) else (true, true, true, false)
  | 0x0D => if n < 16 then (true, true, true, true) else (false, false, false, false)
  | 0x0E => (false, false, true, true)
  | 0x0F => (true, false, true, false)
  | 0x12 => if n < 16 then (false, false, false, false) else (true, true, true, true)
  | 0x13 => (n == 1, false, false, false)
  | _ => (false, false, false, false)

/-- The context of a per-context page. -/
def pageCtx (fam n : Nat) : Option Nat :=
  if (fam = 0x06 ∨ fam = 0x07 ∨ fam = 0x0D) ∧ n < 16 then some n
  else if (fam = 0x0A ∨ fam = 0x0C) ∧ 16 ≤ n then some (n - 16)
  else none

/-- The session of a per-session page. -/
def pageSess (fam n : Nat) : Option Nat := if fam = 0x12 ∧ 16 ≤ n then some (n - 16) else none

/-- A TENANT reaches a register of a page of its own (R508). -/
def tenantReg (fam off : Nat) (write : Bool) : Bool :=
  match fam with
  | 0x01 => off == 0x100 || (decide (0x118 ≤ off) && decide (off ≤ 0x140)) || off == 0x178
  | 0x06 => !write || off != 0x140
  | 0x07 => !write || off == 0x100
  | 0x0C => !write || !(decide (0x108 ≤ off) && decide (off ≤ 0x128))
  | 0x0D => !write || off == 0x128 || off == 0x130
  | 0x0F => decide (0x110 ≤ off) && decide (off ≤ 0x130)
  | _ => true

/-- An OWNER reaches a register of a page; `mine` says that the page's context is bound to it (R508). -/
def ownerReg (fam off : Nat) (write mine : Bool) : Bool :=
  match fam with
  | 0x01 => off == 0x100 || (decide (0x118 ≤ off) && decide (off ≤ 0x140)) || off == 0x178
  | 0x06 => mine
  | 0x07 => mine && [0x118, 0x120, 0x128, 0x130, 0x138].contains off
  | 0x0C => mine && (off == 0x100 || off == 0x140)
  | 0x0D => if write then off == 0x100 else mine
  | 0x0E => !write || off == 0x130 || off == 0x140
  | _ => true

/-- The asker may make the access (R337, R501, R507, R508). -/
def State.mayReach (s : State) (w : Asker) (a : Nat) (write : Bool) : Bool :=
  if w.full then true
  else
    let fam := adFam a
    let n := adInst a
    let off := adOff a
    let head := decide (off < 0x40)
    let o := openTo (adDie a) fam n
    let mine := match pageCtx fam n with
      | some c => if w.role = 1 then c == w.ctx else s.boundTo w c
      | none => true
    (match pageSess fam n with | some i => i == w.index | none => true) && !(head && write) &&
    if w.role = 1 then mine && (if write then o.2.1 else o.1) && (head || tenantReg fam off write)
    else (if write then o.2.2.2 else o.2.2.1) && (if head then mine else ownerReg fam off write mine)

/-! ### The common header (R501 to R506, R379) -/

/-- PG_ID (R502). -/
def pgId (a : Nat) : Nat := adFam a * 2 ^ 24 + adInst a * 2 ^ 16 + (if adDie a = 15 then 15 else adDie a) * 2 ^ 12 + 1

/-- The highest register offset of a table (R503). -/
def topOf (l : List FDef) : Nat := l.foldl (fun m d => max m (d.off + d.step * (d.cnt - 1))) 0

/-- PG_CAP (R503): OPERATOR and SERVICE read and write every page. -/
def pgCap (d : Site) (a : Nat) : Nat :=
  let fam := adFam a
  let o := match d with | .dz8 => openTo (adDie a) fam (adInst a) | .agent => (false, false, false, false)
  let dets := match d with | .dz8 => (dzDets fam).length | .agent => (agDets fam).length
  (5 + 2 * b2n o.2.1 + 8 * b2n o.2.2.2) * 2 ^ 44 + (5 + 2 * b2n o.1 + 8 * b2n o.2.2.1) * 2 ^ 40 + dets * 2 ^ 32 +
    topOf (regsOf d fam (adInst a))

/-- PG_OWNER (R505). -/
def pgOwner (d : Site) (a : Nat) : Nat :=
  match d with
  | .agent => 0
  | .dz8 =>
    (match pageSess (adFam a) (adInst a) with | some i => i * 2 ^ 10 + 2 ^ 9 | none => 0) +
    (match pageCtx (adFam a) (adInst a) with | some c => 2 ^ 8 + c * 2 ^ 4 | none => 0)

/-- A die is in reset (R394). -/
def State.dieReset (s : State) (die : Nat) : Bool := bit (s.rd RST_STAT_IN_RESET) die

/-- A C-die is powered down (R412). -/
def State.dieOff (s : State) (die : Nat) : Bool := (die == 2 || die == 3) && !s.cpwrEn (die - 2)

/-- A C-die is in retention (R233). -/
def State.dieRetained (s : State) (die : Nat) : Bool := (die == 2 || die == 3) && !s.awake (die - 2)

/-- A block whose family the page is of is in an ENGINE reset. -/
def State.blockReset (s : State) (a : Nat) : Bool :=
  match s.rst.running with
  | some q => q.domain == 0 && q.die == adDie a && (blockFams q.block).contains (adFam a)
  | none => false

/-- PG_STAT.STATE (R504). -/
def State.pgStat (s : State) (d : Site) (a : Nat) : Nat :=
  match d with
  | .agent => 0
  | .dz8 =>
    if s.dieReset (adDie a) || s.blockReset a then 1
    else if s.dieOff (adDie a) then 3
    else if s.dieRetained (adDie a) then 2
    else 0

/-- A read of a header register. -/
def State.readHead (s : State) (d : Site) (a : Nat) : Nat :=
  let pg := adPg a
  match adOff a with
  | 0x00 => pgId a
  | 0x08 => pgCap d a
  | 0x10 => s.pgStat d a
  | 0x18 => s.pgLevel d pg * 2 ^ 62 + s.pgRaised d pg
  | 0x20 => s.rdS d (PG_FMASK_MASK pg)
  | 0x28 => (s.readFields d (fieldsAt headRegs pg 0x28)).1
  | 0x30 => pgOwner d a
  | 0x38 => 2 * s.rdS d (PG_LOCK_STICKY pg) + s.rdS d (PG_LOCK_LOCK pg)
  | _ => 0

/-- A write of PG_LOCK, judged against STICKY as it stood (R506). -/
def State.pgLock (s : State) (d : Site) (pg v : Nat) : State :=
  let stuck := s.rdS d (PG_LOCK_STICKY pg) == 1
  let s := if bit v 0 || !stuck then s.wrS d (PG_LOCK_LOCK pg) (v % 2) else s
  if bit v 1 then s.wrS d (PG_LOCK_STICKY pg) 1 else s

/-- Detectors of a page that are security detectors, as a bitmap. -/
def securityMap (d : Site) (fam : Nat) : Nat := (List.range 32).foldl (fun m n => if detSecurity d fam n then m + 2 ^ n else m) 0

/-- A write of PG_FMASK: it masks no security detector in SEALED (R362). -/
def State.pgMask (s : State) (d : Site) (pg v : Nat) : State :=
  let m := v % 2 ^ 32
  let fam := bits pg 27 20
  let keep := if s.isSealed d then securityMap d fam else 0
  s.wrS d (PG_FMASK_MASK pg) (m - (m &&& keep) + (m &&& keep &&& s.rdS d (PG_FMASK_MASK pg)))

/-- A write of PG_JIG: the fields, then GO; only an OPERATOR's has an effect (R376, R379). -/
def State.pgJig (s : State) (d : Site) (pg v : Nat) : State :=
  let keep := (fieldsAt headRegs pg 0x28).filter fun x => x.1.acc != .w1s
  let s := s.writeFields d keep v
  if bit v 0 then s.jigGo d pg else s

/-- A write of a header register by a session with OPERATOR's access or by a remote MREQ. -/
def State.writeHead (s : State) (d : Site) (w : Asker) (a v : Nat) : State :=
  let pg := adPg a
  match adOff a with
  | 0x18 => s.clearFaults d pg (v % 2 ^ 32)
  | 0x20 => s.pgMask d pg v
  | 0x28 => if w.role = 0 then s.pgJig d pg v else s
  | 0x38 => s.pgLock d pg v
  | _ => s

/-- A page exists in the named device. -/
def State.pageIn (s : State) (d : Site) (a : Nat) : Bool :=
  match d with
  | .dz8 => s.pageExists a
  | .agent => s.agPageExists a

/-- PG_LOCK_WRITE (R506); a page that does not exist has no register. -/
def execPgLockWrite (site : Site) (page : Nat) (value : Word) (s : State) : Out :=
  .next (if s.pageIn site page then s.pgLock site (adPg page) value.toNat else s)

end Sys2Proof.Machine
end

