-- ==== Sys2Proof/Machine/BusRead.lean ====
section
/-! DEFINITION. Reads of the DZ8's registers: the checks before an access, the registers that are computed, and the windows
(R8, R278, R279, R335, R337, R496 to R508). -/

namespace Sys2Proof.Machine

/-! ### Status codes (R335) -/

def stOK : Nat := 0
def stADDR : Nat := 1
def stROLE : Nat := 2
def stALIGN : Nat := 3
def stDATAERR : Nat := 4
def stLOCK : Nat := 5
def stTIMEOUT : Nat := 6
def stRETAINED : Nat := 7
def stSTATE : Nat := 8
def stSKIPPED : Nat := 9
def stSIZE : Nat := 10

/-! ### The checks before an access -/

/-- Dies that a window page reaches beside its own: the M-dies of a VLT window, the C-dies of an allocation. -/
def State.windowDies (s : State) (a : Nat) : List Nat :=
  if adOff a < 0x800 ∨ adInst a < 16 then []
  else if adFam a = 0x0C then (List.range s.mdies).map (· + 4)
  else if adFam a = 0x0A then
    let c := adInst a - 16
    (s.allocDies c (s.rd (PGH_WIN_BASE_OFFSET (pghWinPg c)) + (adOff a - 0x800)) 8).map (· + 2)
  else []

/-- An access to a register other than the header's finds its die in reset, powered down or in retention (R501); the PGH die page is
served in retention, since it holds WAKE (R233). -/
def State.unreachable (s : State) (a : Nat) : Bool :=
  let die := adDie a
  decide (0x40 ≤ adOff a) &&
  (s.dieReset die || s.dieOff die || (s.dieRetained die && !(adFam a == 0x0A && adInst a == 0)) || (s.windowDies a).any s.dieReset)

/-- Status of an access before it is made; 0: it is made. The order of the checks is the model's. -/
def State.gate (s : State) (w : Asker) (a : Nat) (write : Bool) : Nat :=
  if !adClean a || !s.pageExists a then stADDR
  else if a % 8 ≠ 0 then stALIGN
  else if !s.mayReach w a write then stROLE
  else if s.unreachable a then stRETAINED
  else if write && decide (0x100 ≤ adOff a) && s.rd (PG_LOCK_LOCK (adPg a)) == 1 then stLOCK
  else if write && s.on LCS_STAT_TRANSITION_DONE then stSTATE
  else stOK

/-- A refused access has no effect but the MINOR fault of an access in retention (R233). -/
def State.refused (s : State) (a st : Nat) : State :=
  if st = stRETAINED ∧ s.dieRetained (adDie a) ∧ ¬ s.dieReset (adDie a) ∧ ¬ s.dieOff (adDie a) then
    s.detect .dz8 (pghPg (adDie a - 2)) 5 0 none
  else s

/-! ### Computed registers -/

/-- Senders of an exchange whose inputs are all complete, and all senders: members and branch units (R183). -/
def State.sendersDone (s : State) (p : Program) (i : Instance) : Nat × Nat :=
  let branches := if p.branches && !s.isBranch i.ctx then (s.branchDomains i.ctx p).map (s.branchUnit i) else []
  let all := (s.senders i.ctx p).map (·.2) ++ branches
  let want := s.expects i.ctx p (s.branchUnit i)
  ((all.filter fun f => (want.filter fun q => q.1 == f).all fun q => i.count q.1 q.2.1 == q.2.2).length, all.length)

def InstState.code : InstState → Nat
  | .opened => 1
  | .complete => 2
  | .ready => 3
  | .missed => 4
  | .error => 5

/-- CLX_XSTAT of the latest instance of the selected exchange. -/
def State.xstat (s : State) (c : Nat) : Nat :=
  let x := s.rd (CLX_XSEL_XID (clxPg c))
  match s.inst c x with
  | none => 0
  | some i =>
    let n := match s.prog c x with | some m => s.sendersDone m.2 i | none => (0, 0)
    i.state.code * 2 ^ 61 + n.1 % 2 ^ 13 * 2 ^ 48 + n.2 % 2 ^ 13 * 2 ^ 35 + (i.counts.map (·.count)).sum % 2 ^ 32

/-- CLX_XTIME; a TENANT reads whole beat periods (R183, R278). -/
def State.xtime (s : State) (w : Asker) (c : Nat) : Nat :=
  let cut := fun (t : Nat) => (if w.role = 1 then t / max 1 s.period * s.period else t) % 2 ^ 32
  match s.inst c (s.rd (CLX_XSEL_XID (clxPg c))) with
  | none => 0
  | some i =>
    match i.firstNs with
    | none => 0
    | some f => cut (f - i.openNs) * 2 ^ 32 + (match i.readyNs with | some r => cut (r - f) | none => 0)

/-- CTX_SUMMARY (R283). -/
def State.ctxSummary (s : State) : Nat :=
  contexts.foldl (fun m c =>
    let st := s.ctxState c
    m + 2 ^ c * ((if st = 1 then 2 ^ 48 else 0) + (if st = 3 then 2 ^ 32 else 0) +
      (if s.on (CTX_STAT_BOUND (ctxPg c)) then 2 ^ 16 else 0) + (if st = 2 then 1 else 0))) 0

/-- FRK_KEYREC and FRK_EPSTAT of the selection; an OWNER reads 0 of a context that is not bound to it (R318, R508). -/
def State.keySel (s : State) (w : Asker) : Option Nat :=
  let c := s.rd FRK_KEYSEL_CONTEXT
  if w.role = 3 ∧ ¬ s.boundTo w c then none else some c
def State.keyRecWord (s : State) (w : Asker) : Nat :=
  match s.keySel w with
  | none => 0
  | some c =>
    let k := s.rd FRK_KEYSEL_KEY_ID
    match s.keyRec c k with
    | none => 0
    | some r => 2 ^ 63 + b2n r.loaded * 2 ^ 62 + b2n r.head * 2 ^ 61 + b2n r.paired * 2 ^ 60 +
        (s.holders c k).length % 2 ^ 13 * 2 ^ 32 + r.owner % 2 ^ 32
def State.epStatWord (s : State) (w : Asker) : Nat :=
  match s.keySel w with
  | none => 0
  | some c => s.epWord c (s.rd FRK_EPSEL_LID)

/-- BYJ_SESS of the selected index (R351). -/
def State.byjSess (s : State) : Nat :=
  let i := s.rd BYJ_SESSEL_INDEX
  match s.openSess i with
  | none => s.genOf i * 2 ^ 38
  | some x => x.gen % 2 ^ 26 * 2 ^ 38 + 2 ^ 32 + x.role % 8 * 2 ^ 29 + (if x.role = 1 then x.ctx % 16 else 0) * 2 ^ 25 +
      x.queue.length % 2 ^ 9 * 2 ^ 16 + min 65535 ((s.time.nowNs - x.lastNs) / 1000000)

/-- FLT_STAT (R380). -/
def State.fltStat (s : State) (d : Site) : Nat :=
  s.raisedCount d * 2 ^ 16 + b2n (s.faultPin d) * 2 ^ 3 + b2n (s.fltS d).first.isSome * 2 ^ 2 + s.raisedLevel d

/-- The counting state of the selected source, none where no such detector exists. -/
def State.selSrc (s : State) (d : Site) : Option (Src × Nat) :=
  let x := s.rdS d FLT_SRCSEL_SOURCE
  (detInitial d (srcFam x) (srcDet x)).map fun n => ((s.fltS d).src x n, n)

/-- FLT_SRC, FLT_THRESH and FLT_THRESH_F of the selected source (R359 to R362, R380). -/
def State.fltSrc (s : State) (d : Site) : Nat :=
  match s.selSrc d with
  | none => 0
  | some (r, n) => r.level * 2 ^ 62 + n * 2 ^ 60 + b2n (detSecurity d (srcFam r.source) (srcDet r.source)) * 2 ^ 59 +
      b2n (srcFid r.source == s.fidS d && s.masked d r.source) * 2 ^ 58 + b2n r.raised * 2 ^ 57 + r.count % 2 ^ 8 * 2 ^ 40
def State.fltThresh (s : State) (d : Site) : Nat :=
  match s.selSrc d with
  | none => 0
  | some (r, n) =>
    let t := r.thresh.getD (threshDefault d r.source n)
    t.1 % 2 ^ 8 * 2 ^ 56 + b2n t.2.1 * 2 ^ 32 + t.2.2 % 2 ^ 32
def State.fltThreshF (s : State) (d : Site) : Nat :=
  match s.selSrc d with
  | none => 0
  | some (r, n) =>
    let t := r.threshF.getD (threshFDefault n)
    t.1 % 2 ^ 8 * 2 ^ 56 + t.2 % 2 ^ 32

/-- Word `n` of the selected log record and of the first fault. -/
def State.logWord (s : State) (d : Site) (n : Nat) : Nat :=
  match s.logAt d (s.rdS d FLT_LOG_SEL_INDEX) with
  | some e => nth e.words n
  | none => 0
def State.firstWord (s : State) (d : Site) (n : Nat) : Nat :=
  match (s.fltS d).first with
  | some e => nth e.words n
  | none => 0

/-- The selected dead-letter entry of an X-die. -/
def State.dllEntry (s : State) (d : Site) (die : Nat) : Option DeadLetter :=
  let l := if die = 0 then (s.fltS d).dll0 else (s.fltS d).dll1
  let i := s.rdS d (FLT_DLL_SEL_INDEX (dllPg die))
  if l.length < 4096 then l[i]? else l[(i + 4096 - s.rdS d (FLT_DLL_HEAD_HEAD (dllPg die))) % 4096]?

/-- Word `n` of it; a TENANT sees the entries of its context since its assignment, without port and phase (R278, R381). -/
def State.dllWord (s : State) (d : Site) (w : Asker) (die n : Nat) : Nat :=
  match s.dllEntry d die with
  | none => 0
  | some e =>
    if w.role = 1 then
      if e.context = w.ctx ∧ s.rd (CTX_SINCE_BEAT (ctxPg w.ctx)) ≤ e.postmark.toNat / 256 then
        nth ({ e with port := 0xFF, postmark := word (e.postmark.toNat / 256 * 256) } : DeadLetter).words n
      else 0
    else nth e.words n

/-- GEN_MIS: the selected mismatch (R463). -/
def State.misWord (s : State) : Nat :=
  match s.boot.mismatches[s.rd GEN_MIS_SEL_INDEX]? with
  | none => 0
  | some x => x.kind % 2 ^ 8 * 2 ^ 56 + x.fid % 2 ^ 14 * 2 ^ 42 + x.port % 2 ^ 8 * 2 ^ 34 + x.seenFid % 2 ^ 14 * 2 ^ 20 +
      x.seenPort % 2 ^ 8 * 2 ^ 12 + x.width % 4 * 2 ^ 10 + x.minWidth % 4 * 2 ^ 8

/-- Bytes at a place of a buffer, as a word. -/
def bufWord (m : Mem) (o : Nat) : Nat := leNat (mread m o 8)

/-- RTE_FLIPSTAT beside its stored fields: ACTIVE_GEN and DRAINED, and on X1 the flags of X0's (R116, R128). -/
def State.flipFlags (s : State) (d : Site) : Nat :=
  s.rdS d RTE_GEN_ACTIVE % 16 * 2 ^ 28 + b2n (s.drained d)
def State.flipFlagsX1 (s : State) : Nat :=
  s.flipFlags .dz8 + s.rd RTE_FLIPSTAT_SHADOW_READY * 8 + s.rd RTE_FLIPSTAT_QUIET * 2

/-- TTL_MAP (R235). -/
def State.tileMapWord (s : State) (pg : Nat) : Nat := (List.range 8).foldl (fun m i => m + s.rd (TTL_MAP_PHYS pg i) * 2 ^ (8 * i)) 0

/-- The selected entry of the route images (R128). -/
def State.twinWord (s : State) : Nat :=
  tget (if s.on RTE_TWIN_SEL_SHADOW then s.route.shadow else s.route.active) (s.rd RTE_TWIN_SEL_CHIP * 2 ^ 14 + s.rd RTE_TWIN_SEL_DST)

/-- TAKEOVER_WARN: a standby in holdover, or with a LEDGER link whose offset is more than 20 ns (R54). -/
def State.takeoverWarn (s : State) : Bool :=
  s.rd PAR_STAT_ROLE == 2 && (s.rd TMK_STAT_STATE == 3 || s.ledgerPorts.any fun p => (s.port .dz8 p).ledgerFar)

/-- Fields of a register of the DZ8 that no write stores, computed from the state. -/
def State.shown (s : State) (w : Asker) (a : Nat) : Nat :=
  let pg := adPg a
  let n := adInst a
  let off := adOff a
  let i := (off - 0x100) / 8
  match adFam a with
  | 0x01 =>
    if off = 0x168 then s.misWord else if 0x800 ≤ off then bufWord s.boot.load (s.rd GEN_LOAD_SEL_OFFSET + (off - 0x800)) else 0
  | 0x02 =>
    if off = 0x108 then b2n s.takeoverWarn * 2 ^ 11 else if off = 0x110 then (if w.full then s.postmark else s.postmark / 256 * 256) else 0
  | 0x03 =>
    if off = 0x118 then s.positions .dz8 n * 2 ^ 32 + s.controls .dz8 n * 2 ^ 16 + s.c0 .dz8 n
    else if off = 0x128 then (List.range 4).foldl (fun m v => m + nth (s.port .dz8 n).credits v % 2 ^ 16 * 2 ^ (16 * v)) 0
    else 0
  | 0x05 =>
    if off = 0x158 then (if adDie a = 1 then s.flipFlagsX1 else s.flipFlags .dz8)
    else if off = 0x180 then s.twinWord
    else if off = 0x190 then tget s.route.capMap (s.domain * 2 ^ 12 + s.rd RTE_CMAP_SEL_LINK)
    else 0
  | 0x06 => if off = 0x168 then tget (s.ttb n).cmap (s.rd (TTB_CMAP_SEL_INDEX pg)) else 0
  | 0x07 => if n = 16 then 0 else if off = 0x108 then s.xstat n else if off = 0x110 then s.xtime w n else 0
  | 0x09 => if off = 0x100 ∧ n < 8 then s.tileMapWord pg else 0
  | 0x0A => if off = 0x108 ∧ 16 ≤ n then s.allocBytes (n - 16) 1 * 2 ^ 32 + s.allocBytes (n - 16) 0 else 0
  | 0x0D =>
    if n = 16 then (if off = 0x100 then s.ctxSummary else 0)
    else if off = 0x120 then tget (s.ctx n).map (s.rd (CTX_MAP_SEL_LID pg))
    else 0
  | 0x0E =>
    if off = 0x138 then s.keyRecWord w
    else if off = 0x148 then s.epStatWord w
    else if 0x150 ≤ off ∧ off ≤ 0x168 then s.rot.staged / 2 ^ (64 * (i - 10)) % 2 ^ 64
    else if 0x178 ≤ off ∧ off ≤ 0x190 then (s.meas (s.rd FRK_MEASSEL_INDEX)).getD 0 / 2 ^ (64 * (i - 15)) % 2 ^ 64
    else 0
  | 0x0F => if 0x118 ≤ off ∧ off ≤ 0x130 then s.rot.deviceId / 2 ^ (64 * (i - 3)) % 2 ^ 64 else 0
  | 0x11 => if off = 0x110 then s.byjSess else 0
  | 0x12 => if 16 ≤ n ∧ 0x800 ≤ off then s.slotGet (n - 16) ((off - 0x800) / 0x80) ((off - 0x800) % 0x80 / 8) else 0
  | 0x13 =>
    if n = 1 then (if 0x110 ≤ off ∧ off ≤ 0x128 then s.dllWord .dz8 w (adDie a) (i - 2) else 0)
    else if off = 0x108 then s.fltStat .dz8
    else if 0x128 ≤ off ∧ off ≤ 0x140 then s.firstWord .dz8 (i - 5)
    else if 0x168 ≤ off ∧ off ≤ 0x180 then s.logWord .dz8 (i - 13)
    else if off = 0x190 then s.fltSrc .dz8
    else if off = 0x198 then s.fltThresh .dz8
    else if off = 0x1A0 then s.fltThreshF .dz8
    else 0
  | 0x15 => if 0x800 ≤ off then s.dumpWord ((off - 0x800) / 8) else 0
  | 0x17 =>
    if off = 0x108 then (s.ledgerPorts.filter fun p => s.isUp .dz8 p).length % 4 * 2 ^ 8
    else if off = 0x128 then (match s.bridge s.theRod with | some b => b.2.1 | none => 0)
    else if off = 0x148 then (s.extentCount - s.usedExtents) / 16 * 2 ^ 32 + s.extentCount / 16
    else if off = 0x158 then s.mirrorPending
    else 0
  | 0x18 =>
    if n = 1 then (if off = 0x100 then sensorCount (adDie a) * 2 ^ 40 else 0)
    else if off = 0x110 then s.budgetUj % 2 ^ 32 * 2 ^ 32 + s.idleUj % 2 ^ 32
    else if off = 0x118 then s.armedEnergy 16 % 2 ^ 32 * 2 ^ 32
    else 0
  | 0x19 => if off = 0x100 then s.sessionTxns else 0
  | _ => 0

/-- TTB_VOID as a TENANT reads it: CAUSE SERVICE in place of ENGINE, THERMAL and TAKEOVER (R279). -/
def serviceVoid (x : Nat) : Nat := x / 2 ^ 32 * 2 ^ 32 + serviceCause (bits x 31 24) * 2 ^ 24 + x % 2 ^ 24

/-- The fields of the DZ8 at a local address; X1's TMK and RTE pages hold only some of their registers (R58, R128). -/
def dzFields (a : Nat) : List (FDef × Fld) :=
  let fam := adFam a
  let off := adOff a
  let missing := adDie a == 1 && ((fam == 0x02 && !(off == 0x108 || off == 0x110 || decide (0x400 ≤ off))) ||
    (fam == 0x05 && !(off == 0x158 || off == 0x168 || off == 0x170)))
  if missing then [] else fieldsAt (dzRegs fam (adInst a)) (adPg a) off

/-- CTX_STAT as a TENANT reads it: BOUND is for OPERATOR and OWNER alone (R278). -/
def tenantStat (x : Nat) : Nat := setBit x 5 false

/-- The windows of a context are closed to the asker (R277). -/
def State.windowClosed (s : State) (w : Asker) (c : Nat) : Bool :=
  if w.full then s.on (CTX_STAT_BOUND (ctxPg c)) else s.on (CTX_STAT_TENANT_CLOSED (ctxPg c))

/-- A value with a field replaced. -/
def withField (v lo n x : Nat) : Nat := v - bits v (lo + n - 1) lo * 2 ^ lo + x % 2 ^ n * 2 ^ lo

/-- Fields that fuses, training or other fields give, whatever the register holds: what the part fixes (R1, R2), the spare wires of an
edge (R93), and CANDIDATE, which a FATAL event or a mismatch takes away (R429). -/
def State.fusedShown (s : State) (a v : Nat) : Nat :=
  let off := adOff a
  let n := adInst a
  match adFam a with
  | 0x04 =>
    if off = 0x100 then withField v 8 8 (s.sparesUsed n) else if 0x118 ≤ off then withField v 0 32 (s.repairMap n ((off - 0x118) / 8)) else v
  | 0x07 => if n = 16 ∧ off = 0x100 then withField v 0 1 (b2n (0 < s.mdies)) else v
  | 0x09 => if n = 16 ∧ off = 0x100 then withField v 0 16 (s.rd LCS_PART_TILE_MHZ) else v
  | 0x0A => if n = 0 ∧ off = 0x138 then s.rsvRows * 2 ^ 32 + s.rsvRows else v
  | 0x15 => if off = 0x110 then withField v 56 8 s.dumpSlots else v
  | 0x17 => if off = 0x108 ∧ (s.flt.fatal ∨ s.on PAR_STAT_MISMATCH) then withField v 11 1 0 else v
  | 0x18 => if n = 0 ∧ off = 0x108 then withField v 48 16 (s.rd LCS_PART_POWER_W) else v
  | _ => v

/-- A peak that a read has cleared starts again from what is in use now (R184, R261). -/
def State.peakRead (s : State) (a : Nat) : State :=
  if adFam a = 0x07 ∧ adInst a = 16 ∧ adOff a = 0x100 then s.wr CLX_ENG_STAT_PEAK (s.rd CLX_ENG_STAT_OPEN)
  else if adFam a = 0x0B ∧ adInst a = 16 ∧ adOff a = 0x100 then s.wr (HBC_MERGE_PEAK (adPg a)) (s.rd (HBC_MERGE_IN_USE (adPg a)))
  else s

/-- A read of a register of the DZ8 that no check refused: status, value and the state after it. -/
def State.readDz (s : State) (w : Asker) (a : Nat) : Nat × Nat × State :=
  let fam := adFam a
  let n := adInst a
  let off := adOff a
  if off < 0x40 then (stOK, s.readHead .dz8 a, s)
  else if fam = 0x0A ∧ 16 ≤ n ∧ 0x800 ≤ off then
    if s.windowClosed w (n - 16) then (stOK, 0, s)
    else
      let r := s.pghWinRead (n - 16) ((off - 0x800) / 8)
      match r.1 with
      | some v => (stOK, v, r.2)
      | none => (stRETAINED, 0, r.2)
  else if fam = 0x0C ∧ 16 ≤ n ∧ 0x800 ≤ off then
    if s.windowClosed w (n - 16) then (stOK, 0, s)
    else
      let r := s.vltWinRead (n - 16) ((off - 0x800) / 8)
      (if r.2.1 then stOK else stDATAERR, r.1, r.2.2)
  else if fam = 0x02 ∧ off = 0x108 ∧ adDie a = 1 then
    (stOK, (s.readFields .dz8 (dzFields (tmkPg + 0x108))).1 + b2n s.takeoverWarn * 2 ^ 11, s)
  else if fam = 0x02 ∧ off = 0x150 ∧ adDie a = 0 ∧ s.rd TMK_STAT_STATE = 3 then
    (stOK, s.holdNs / 1000000 % 2 ^ 32 * 2 ^ 32 + s.estPs / 1000 % 2 ^ 32, s)
  else if fam = 0x05 ∧ off = 0x140 ∧ adDie a = 0 then (stOK, s.safeBeats * 2 ^ 32 + s.flipLimit, s)
  else
    let r := s.readFields .dz8 (dzFields a)
    let v := s.fusedShown a (r.1 + s.shown w a)
    (stOK, if fam = 0x06 ∧ off = 0x138 ∧ w.role = 1 then serviceVoid v
      else if fam = 0x0D ∧ n < 16 ∧ off = 0x108 ∧ w.role = 1 then tenantStat v
      else if fam = 0x17 ∧ off = 0x108 ∧ !s.candidate then setBit v 11 false else v, r.2.peakRead a)

/-- A read of a local address by an asker. -/
def State.busRead (s : State) (w : Asker) (a : Nat) : Nat × Nat × State :=
  let st := s.gate w a false
  if st = stOK then s.readDz w a else (st, 0, s.refused a st)

end Sys2Proof.Machine
end

