-- ==== Sys2Proof/Machine/BusWrite.lean ====
section
/-! DEFINITION. Writes of the DZ8's registers: each register's own effect, and the access codes for the rest (R7 to R13, R496 to R508). -/

namespace Sys2Proof.Machine

/-- Runs `f` where a bit is set. -/
def State.ifBit (s : State) (v i : Nat) (f : State → State) : State := if bit v i then f s else s

/-- The fields at the address take the write by their access codes. -/
def State.plain (s : State) (a v : Nat) : State := s.writeFields .dz8 (dzFields a) v

/-- A window selector: the offset's low bits are written as 0 (R238, R263, R410, R463). -/
def cut2048 (lo w v : Nat) : Nat := v - (bits v (lo + w - 1) lo % 2048) * 2 ^ lo

/-- The Rod in force has several domains, so that free run is not allowed (R29). -/
def State.manyDomains (s : State) : Bool := s.boot.rod.isSome && decide (1 < s.theRod.domains.length)

/-- TMK_CTRL: SRC while ENABLE is 0, then ENABLE, then STEP (R29, R56). -/
def State.tmkCtrl (s : State) (v : Nat) : State :=
  let s := if s.on TMK_CTRL_ENABLE || v % 4 == 3 || (v % 4 == 2 && s.manyDomains) then s else s.wr TMK_CTRL_SRC (v % 4)
  let s := (execTmkEnableWrite (bit v 2) s).after s
  s.ifBit v 3 fun s => (execTmkStep s).after s

/-- A timetable that uses the link of a port is armed (R95). -/
def State.portArmed (s : State) (p : Nat) : Bool :=
  match s.rodLink p with
  | none => false
  | some l => contexts.any fun c => s.armed c && match s.img c with
    | some m => (s.charges c m s.theRod s.route.active).any fun q => q.uses (linkIdent l)
    | none => false

/-- PRT_CTRL: RETRY_MAX, DISABLE, then UNPARK and RETRAIN (R95). -/
def State.prtCtrl (s : State) (d : Site) (p v : Nat) : State :=
  let s := (s.wrS d (PRT_CTRL_RETRY_MAX (prtPgS d p)) (bits v 23 16)).disablePort d p (bit v 1)
  let s := s.ifBit v 3 fun s => s.unparkPort d p
  s.ifBit v 2 fun s => s.retrainPort d p

/-- RTE_CTRL: SCOPE, then CHECK, START and ABORT (R128); the serials of other domains' Rods come with RTE_START. -/
def State.rteCtrl (s : State) (v : Nat) : State :=
  let s := if v % 4 < 2 then s.wr RTE_CTRL_SCOPE (v % 4) else s
  let s := s.ifBit v 4 fun s => (execRteCheck s).after s
  let s := s.ifBit v 2 fun s => s.rteStart []
  s.ifBit v 3 fun s => s.rteAbort

/-- RTE_TWIN_DATA: an entry of the shadow images, but not from QUIET to CONFIRM (R128). -/
def State.twinData (s : State) (v : Nat) : State :=
  let ph := s.rd RTE_STAT_PHASE
  if s.on RTE_TWIN_SEL_SHADOW && !(decide (3 ≤ ph) && decide (ph ≤ 6)) then
    s.setRoute fun r => { r with shadow := tset r.shadow (s.rd RTE_TWIN_SEL_CHIP * 2 ^ 14 + s.rd RTE_TWIN_SEL_DST) (entBits v) }
  else s

/-- TTB_CTRL: its bits from the lowest up (R154). -/
def State.ttbCtrl (s : State) (c v : Nat) : State :=
  let s := s.ifBit v 1 fun s => (execTtbUnload c s).after s
  let s := s.ifBit v 2 fun s => (execTtbCheck c s).after s
  let s := s.ifBit v 3 fun s => (execTtbArm c s).after s
  let s := s.ifBit v 4 fun s => (execTtbDisarm c s).after s
  let s := s.ifBit v 5 fun s => (execTtbStop c s).after s
  s.ifBit v 6 fun s => (execTtbVoid c s).after s

/-- TTB_IMAGE: STATE becomes LOADED (R144, R154); the check of an image that a TENANT loaded runs in hardware mode (R142). -/
def State.ttbImage (s : State) (w : Asker) (c v : Nat) : State :=
  if s.ttbState c ≤ 1 then
    let pg := ttbPg c
    ((((s.wr (TTB_IMAGE_LEN pg) (bits v 63 32)).wr (TTB_IMAGE_OFFSET pg) (bits v 31 0)).ttbTo c 1)).setTtb c fun t =>
      { t with tenant := w.role == 1 }
  else s

/-- CDC page: CTRL, and the test registers while their path is not busy (R207, R209). -/
def State.cdcWrite (s : State) (die a v : Nat) : State :=
  let off := adOff a
  let pg := cdcPg die
  if off = 0x100 then
    let s := s.ifBit v 1 fun s => (execCdcTestGo die s).after s
    s.ifBit v 2 fun s => (execCdcGenGo die s).after s
  else if 0x180 ≤ off ∧ off ≤ 0x1A0 then (if s.on (CDC_STAT_GEN_BUSY pg) then s else s.plain a v)
  else if off = 0x108 then s.plain a v
  else if s.on (CDC_STAT_TEST_BUSY pg) then s
  else s.plain a v

/-- PGH_CTRL: WAKE takes effect over RETAIN (R233). -/
def State.pghCtrl (s : State) (die v : Nat) : State :=
  if bit v 1 then s.pghWake die else s.ifBit v 0 fun s => s.pghRetain die

/-- VLT_FILL: CLASS, the W1C flags, then GO (R248, R263). -/
def State.vltFill (s : State) (c v : Nat) : State :=
  let pg := vltPg c
  let s := if s.on (VLT_FILL_BUSY pg) then s else s.wr (VLT_FILL_CLASS pg) (bits v 7 5)
  let s := s.ifBit v 4 fun s => s.wr (VLT_FILL_ERR pg) 0
  let s := s.ifBit v 3 fun s => s.wr (VLT_FILL_DONE pg) 0
  s.ifBit v 1 fun s => s.fillGo c

/-- A write of a VLT context page but for its window. -/
def State.vltWrite (s : State) (c a v : Nat) : State :=
  let off := adOff a
  if 0x108 ≤ off ∧ off ≤ 0x128 then s.regionReg c ((off - 0x108) / 8) v
  else if off = 0x130 then s.optLayout c v
  else if off = 0x138 then s.vltFill c v
  else if off = 0x150 then s.plain a (cut2048 0 45 v)
  else if 0x200 ≤ off ∧ off < 0x300 then s.optSet c ((off - 0x200) / 0x40) ((off - 0x200) % 0x40 / 8) v
  else s.plain a v

/-- CTX_CTRL: BIND of an OWNER; of OPERATOR OVERWRITE, then RELEASE, which beats a BIND and an ASSIGN of the same write (R274, R282).
The register has no bit for TENANT_CLOSED: a BIND by it leaves the windows open to the tenant. -/
def State.ctxCtrl (s : State) (w : Asker) (c v : Nat) : State :=
  if w.role = 3 then s.ifBit v 4 fun s => s.ctxBind w.index c false
  else
    let s := s.wr (CTX_CTRL_OVERWRITE (ctxPg c)) (bits v 3 3)
    if bit v 2 then s.ctxRelease c else s.ifBit v 1 fun s => s.ctxAssign c

/-- A write of a CTX context page (R282). -/
def State.ctxWrite (s : State) (w : Asker) (c a v : Nat) : State :=
  match adOff a with
  | 0x100 => s.ctxCtrl w c v
  | 0x110 => if s.ctxState c = 0 then s.plain a v else s
  | 0x120 => s.ctxMap c v
  | 0x128 => s.ctxSeed c 0 v
  | 0x130 => s.ctxSeed c 1 v
  | _ => s.plain a v

/-- A write of the LCS page (R313, R319). -/
def State.lcsWrite (s : State) (a v : Nat) : State :=
  match adOff a with
  | 0x100 => if bit v 1 then s.lcsSeal (bits v 63 32) else s.ifBit v 2 fun s => s.lcsReturn (bits v 63 32)
  | 0x140 => if 3 ≤ s.rd LCS_STAT_STATE then s else s.plain a v
  | _ => s.plain a v

/-- The thresholds of the selected source; those of a security detector do not change in SEALED (R359, R361, R380). -/
def State.threshWrite (s : State) (d : Site) (f : Src → Src) : State :=
  match s.selSrc d with
  | none => s
  | some (r, _) =>
    if detSecurity d (srcFam r.source) (srcDet r.source) && s.isSealed d then s else s.setFlt d fun q => q.putSrc (f r)

/-- A write of the collector page of a device (R380). -/
def State.fltWrite (s : State) (d : Site) (fs : List (FDef × Fld)) (off v : Nat) : State :=
  match off with
  | 0x100 =>
    let s := s.wrS d FLT_CTRL_LOG_NOTE (bits v 2 2)
    let s := s.ifBit v 1 fun s => s.clearLog d
    s.ifBit v 0 fun s => s.clearFirst d
  | 0x118 => if v % 2 ^ 16 ≤ 1000 then s.writeFields d fs v else s
  | 0x120 => if d = .dz8 then s.decide1 (some (bits v 39 32)) else s
  | 0x198 => s.threshWrite d fun r => { r with thresh := some (bits v 63 56, bit v 32, bits v 31 0) }
  | 0x1A0 => s.threshWrite d fun r => { r with threshF := some (bits v 63 56, bits v 31 0) }
  | _ => s.writeFields d fs v

/-- RST_CTRL: the fields, then GO (R394, R409). -/
def State.rstCtrl (s : State) (v : Nat) : State :=
  let s := ((s.wr RST_CTRL_BLOCK (bits v 23 16)).wr RST_CTRL_DIE (bits v 15 12)).wr RST_CTRL_DOMAIN (bits v 2 1)
  s.ifBit v 0 fun s => s.requestReset ⟨bits v 2 1, bits v 15 12, bits v 23 16, 0⟩

/-- A write of a mail slot: STATE where it is TAKEN (R340). -/
def State.slotWrite (s : State) (i n w v : Nat) : Nat × State :=
  if s.taken i n then (stSTATE, s) else (stOK, s.slotPut i n w v)

/-- A write of a window word that is open to the asker: status and state. -/
def State.windowWrite (s : State) (w : Asker) (a v : Nat) : Nat × State :=
  let c := adInst a - 16
  let n := (adOff a - 0x800) / 8
  if s.windowClosed w c then (stOK, s)
  else if adFam a = 0x0A then
    (if (s.pghWinRead c n).1.isSome then stOK else stRETAINED, s.pghWinWrite c n v)
  else
    let r := s.vltWinWrite c n v
    (if r.1 then stOK else stDATAERR, r.2)

/-- The effect of a write of a block register of the DZ8, its windows and mail slots apart. -/
def State.effect (s : State) (w : Asker) (a v : Nat) : State :=
  let n := adInst a
  let off := adOff a
  let i := (off - 0x100) / 8
  match adFam a with
  | 0x01 =>
    if off = 0x170 then s.plain a (cut2048 0 23 v)
    else if 0x800 ≤ off then s.setBoot fun b => { b with load := mwrite b.load (s.rd GEN_LOAD_SEL_OFFSET + (off - 0x800)) (leBytes 8 v) }
    else s.plain a v
  | 0x02 =>
    if adDie a = 1 then s
    else if off = 0x100 then s.tmkCtrl v
    else if off = 0x120 then (execTmkPeriodNextWrite (bits v 61 14) (bits v 13 0) s).after s
    else if off = 0x128 then (if s.on TMK_CTRL_ENABLE then s else s.plain a v)
    else s.plain a v
  | 0x03 => if off = 0x100 then s.prtCtrl .dz8 n v else if off = 0x120 then (if s.portArmed n then s else (s.plain a v).capUpdate n) else s.plain a v
  | 0x05 =>
    if adDie a = 1 then s else if off = 0x100 then s.rteCtrl v else if off = 0x180 then s.twinData v else s.plain a v
  | 0x06 =>
    if off = 0x100 then s.ttbCtrl n v
    else if off = 0x110 then s.ttbImage w n v
    else if off = 0x160 then (s.plain a v).ifBit v 63 fun s => (execCmapClear n s).after s
    else s.plain a v
  | 0x08 => s.cdcWrite (adDie a - 2) a v
  | 0x0A =>
    if 16 ≤ n then s.plain a (if off = 0x100 then cut2048 0 32 v else v)
    else if off = 0x100 then s.pghCtrl (adDie a - 2) v
    else if 0x400 ≤ off ∧ off < 0x480 then s.allocReg (adDie a - 2) ((off - 0x400) / 8) v
    else s.plain a v
  | 0x0C =>
    if 16 ≤ n then s.vltWrite (n - 16) a v
    else if off = 0x110 ∨ off = 0x118 then s.regionReg 16 (i - 2) v
    else s.plain a v
  | 0x0D => if n = 16 then s else s.ctxWrite w n a v
  | 0x0F => s.lcsWrite a v
  | 0x11 => if off = 0x118 then s.closeSess (v % 64) else s.plain a v
  | 0x13 =>
    if n = 0 then s.fltWrite .dz8 (dzFields a) off v
    else if off = 0x130 then s.ifBit v 0 fun s => s.clearDll .dz8 (adDie a)
    else s.plain a v
  | 0x14 => if off = 0x100 then (if w.role = 0 then s.jigArm .dz8 v else s) else s.plain a v
  | 0x15 => s.plain a (if off = 0x120 then cut2048 0 26 v else v)
  | 0x16 => if off = 0x100 then s.rstCtrl v else s.plain a v
  | 0x17 =>
    if off = 0x100 then (s.ifBit v 2 fun s => s.parFull).ifBit v 1 fun s => s.parSync
    else if off = 0x120 then (if 10 ≤ v % 2 ^ 16 ∧ v % 2 ^ 16 ≤ 1000 then s.plain a v else s)
    else s.plain a v
  | 0x18 => if n = 0 ∧ off = 0x108 then s.pwrBudget v else s.plain a v
  | _ => s.plain a v

/-- A write of a register of the DZ8 that no check refused: status and the state after it. -/
def State.writeDz (s : State) (w : Asker) (a v : Nat) : Nat × State :=
  let fam := adFam a
  let n := adInst a
  let off := adOff a
  if off < 0x40 then (stOK, s.writeHead .dz8 w a v)
  else if fam = 0x12 ∧ 16 ≤ n ∧ 0x800 ≤ off then s.slotWrite (n - 16) ((off - 0x800) / 0x80) ((off - 0x800) % 0x80 / 8) v
  else if (fam = 0x0A ∨ fam = 0x0C) ∧ 16 ≤ n ∧ 0x800 ≤ off then s.windowWrite w a v
  else (stOK, s.effect w a v)

/-- A write of a local address by an asker. -/
def State.busWrite (s : State) (w : Asker) (a v : Nat) : Nat × State :=
  let st := s.gate w a true
  if st = stOK then s.writeDz w a v else (st, s.refused a st)

/-- REGISTER_WRITE (R8): a write of a register of the DZ8 by OPERATOR; an address that names none has no effect. -/
def execRegisterWrite (addr : Nat) (value : Word) (s : State) : Out := .next (s.busWrite operator addr value.toNat).2

/-- GEN_MODE_WRITE (R347, R354): HOST alone is written; a function takes it at its next start. -/
def execGenModeWrite (value : Word) (s : State) : Out := .next (s.wr GEN_MODE_HOST (value.toNat % 2 ^ 9))

/-- MSL_SLOT_WRITE (R338, R340): no effect on a TAKEN slot, nor of a session index, slot or word that does not exist. -/
def execMslSlotWrite (index slot w : Nat) (value : Word) (s : State) : Out :=
  .next (if index < 64 ∧ slot < 16 ∧ w < 16 then (s.slotWrite index slot w value.toNat).2 else s)

/-- BYJ_CLOSE_WRITE (R331, R351). -/
def execByjCloseWrite (index : Nat) (s : State) : Out := .next (s.closeSess (index % 64))

end Sys2Proof.Machine
end

