-- ==== Sys2Proof/Machine/AgBus.lean ====
section
/-! DEFINITION. Accesses to the agent's registers: its target bus and the MREQ cells it serves (R467, R469 to R474, R478, R479, R482
to R494). -/

namespace Sys2Proof.Machine

/-! ### Reads -/

/-- The fields of the agent at a local address; LCS_PART holds PART alone (R471). -/
def agFields (a : Nat) : List (FDef × Fld) :=
  if adFam a = 0x0F ∧ adOff a = 0x110 then [] else fieldsAt (agRegs (adFam a) (adInst a)) (blockPg .agent a) (adOff a)

/-- The entry of the selected route table and the map entry shown (R478). -/
def State.agTblWord (s : State) : Nat :=
  tget (if s.aon Ia.RTE_TBL_SEL_SHADOW then s.agRoute.shadow else s.agRoute.active) (s.ard Ia.RTE_TBL_SEL_DST)
def State.agMapWord (s : State) : Nat :=
  tget (if s.aon Ia.RTE_MAP_SEL_SHADOW then s.agRoute.mapShadow else s.agRoute.map) (s.ard Ia.RTE_MAP_SEL_LID)

/-- TTB_CTR of the selected counter (R483). -/
def State.agCtrWord (s : State) : Nat :=
  match s.ag.counters.find? fun k => k.cidx == s.ard Ia.TTB_CSEL_CIDX with
  | some k => 2 ^ 63 + k.expect % 2 ^ 16 * 2 ^ 32 + k.count % 2 ^ 16
  | none => 0

/-- A word of the space that FRK_CERT shows (R488). -/
def State.agCertWord (s : State) (o : Nat) : Nat :=
  bufWord (if s.aon Ia.FRK_CERT_SEL_SPACE then s.ag.evBuf else s.ag.certs) (s.ard Ia.FRK_CERT_SEL_OFFSET + o)

/-- Fields of an agent register that no write stores. -/
def State.agShown (s : State) (a : Nat) : Nat :=
  let n := adInst a
  let off := adOff a
  let i := (off - 0x100) / 8
  match adFam a with
  | 0x01 => if off = 0x190 then Config.agentBuild % 2 ^ 64 else if 0x800 ≤ off then bufWord s.ag.load (s.ard GEN_LOAD_SEL_OFFSET + (off - 0x800)) else 0
  | 0x02 => if off = 0x110 then s.stampS .agent else 0
  | 0x03 =>
    if off = 0x118 then s.positions .agent n * 2 ^ 32 + s.controls .agent n * 2 ^ 16 + s.c0 .agent n
    else if off = 0x128 then (List.range 4).foldl (fun m v => m + nth (s.port .agent n).credits v % 2 ^ 16 * 2 ^ (16 * v)) 0
    else 0
  | 0x05 =>
    if off = 0x158 then s.flipFlags .agent
    else if off = 0x208 then s.agTblWord
    else if off = 0x218 then s.agMapWord
    else 0
  | 0x06 =>
    if off = 0x1B0 then s.sinkNow
    else if off = 0x1C8 then s.ag.events.length
    else if off = 0x1D8 then tget s.ag.hbase (s.ard Ia.TTB_HSEL_HANDLE)
    else if off = 0x1E0 then tget s.ag.hlen (s.ard Ia.TTB_HSEL_HANDLE)
    else if off = 0x1F0 then tget s.ag.xdst (s.ard Ia.TTB_XSEL_XID)
    else if off = 0x200 then s.agCtrWord
    else if off = 0x228 then tget s.ag.chunks (s.ard Ia.TTB_RSEL_CHUNK)
    else if 0x800 ≤ off then bufWord s.ag.list (32 * s.ard Ia.TTB_LSEL_INDEX + (off - 0x800))
    else if 0x400 ≤ off ∧ off < 0xC00 then bufWord s.ag.steps (16 * s.ard Ia.TTB_SSEL_INDEX + (off - 0x400))
    else 0
  | 0x0E =>
    if 0x800 ≤ off then s.agCertWord (off - 0x800)
    else if off = 0x108 && s.fwUpdating && !s.aon Ia.FRK_STAT_UPDATE then 2 ^ 4
    else 0
  | 0x0F =>
    if off = 0x110 then (if s.isLeaf then 5 else 4)
    else if 0x118 ≤ off ∧ off ≤ 0x130 then s.ag.deviceId / 2 ^ (64 * (i - 3)) % 2 ^ 64
    else 0
  | 0x13 =>
    if n = 1 then (if 0x110 ≤ off ∧ off ≤ 0x128 then s.dllWord .agent operator 0 (i - 2) else 0)
    else if off = 0x108 then s.fltStat .agent
    else if 0x128 ≤ off ∧ off ≤ 0x140 then s.firstWord .agent (i - 5)
    else if 0x168 ≤ off ∧ off ≤ 0x180 then s.logWord .agent (i - 13)
    else if off = 0x190 then s.fltSrc .agent
    else if off = 0x198 then s.fltThresh .agent
    else if off = 0x1A0 then s.fltThreshF .agent
    else 0
  | _ => 0

/-- A read of an agent register whose page exists: the value and the state after it; an offset that the agent lacks reads 0. -/
def State.agRead (s : State) (a : Nat) : Nat × State :=
  if adOff a < 0x40 then (s.readHead .agent a, s)
  else if adFam a = 0x06 ∧ adOff a = 0x1C0 then s.agEvtRead
  else
    let r := s.readFields .agent (agFields a)
    (r.1 + s.agShown a, r.2)

/-! ### Writes -/

/-- The fields take the write by their access codes: those marked local of a local write, the others of a remote one (R472). -/
def State.agPlain (s : State) (a v : Nat) (loc : Bool) : State :=
  s.writeFields .agent ((agFields a).filter fun x => x.1.isLocal == loc) v

/-- PG_LOCK of the page refuses the write (R506). -/
def State.agLocked (s : State) (a : Nat) : Bool := decide (0x100 ≤ adOff a) && s.ard (PG_LOCK_LOCK (adPg a)) == 1

/-- GEN_LOAD_SEL and GEN_LOAD. -/
def State.agLoadWrite (s : State) (a v : Nat) : State :=
  if adOff a = 0x170 then s.agPlain a (cut2048 0 23 v) false
  else if 0x800 ≤ adOff a then
    s.setAg fun g => { g with load := mwrite g.load (s.ard GEN_LOAD_SEL_OFFSET + (adOff a - 0x800)) (leBytes 8 v) }
  else s.agPlain a v false

/-- A remote write of the agent's RTE page (R471, R478; log entry 25). -/
def State.agRteWrite (s : State) (a v : Nat) : State :=
  match adOff a with
  | 0x110 => (s.awr RTE_GEN_SHADOW (bits v 63 32)).awr RTE_FLIPSTAT_SHADOW_READY 1
  | 0x148 => s.awr RTE_QUIET_AT_BEAT (v % 2 ^ 56)
  | 0x208 =>
    if s.aon Ia.RTE_TBL_SEL_SHADOW then s.setAgRoute fun r => { r with shadow := tset r.shadow (s.ard Ia.RTE_TBL_SEL_DST) (entBits v) } else s
  | 0x218 =>
    if s.aon Ia.RTE_MAP_SEL_SHADOW && !s.isLeaf then
      s.setAgRoute fun r => { r with mapShadow := tset r.mapShadow (s.ard Ia.RTE_MAP_SEL_LID) (v &&& 0xBFFF) }
    else s
  | _ => s.agPlain a v false

/-- A remote write of the agent's TTB page (R483); the windows' selectors keep multiples of their window. -/
def State.agTtbWrite (s : State) (a v : Nat) : State :=
  let off := adOff a
  if off = 0x100 then
    let s := s.ifBit v 3 fun s => s.agArm
    s.ifBit v 4 fun s => s.agDisarm
  else if off = 0x1A0 then s.agLoading (v % 2 ^ 17)
  else if off = 0x1A8 then s.agPlain a (v - v % 64) false
  else if off = 0x248 then s.agPlain a (v - v % 128) false
  else if off = 0x1F0 then s.setAg fun g => { g with xdst := tset g.xdst (s.ard Ia.TTB_XSEL_XID) (v &&& (2 ^ 63 + 0x3FFF)) }
  else if off = 0x208 then s.setAg fun g => { g with seed := g.seed / 2 ^ 64 * 2 ^ 64 + v }
  else if off = 0x210 then s.setAg fun g => { g with seed := g.seed % 2 ^ 64 + v * 2 ^ 64 }
  else if off = 0x218 then s.ifBit v 63 fun s => s.streamEnd
  else if off = 0x228 then s.ifBit v 63 fun s => (execRchunkClear s).after s
  else if 0x800 ≤ off then s.setAg fun g => { g with list := mwrite g.list (32 * s.ard Ia.TTB_LSEL_INDEX + (off - 0x800)) (leBytes 8 v) }
  else if 0x400 ≤ off ∧ off < 0xC00 then
    s.setAg fun g => { g with steps := mwrite g.steps (16 * s.ard Ia.TTB_SSEL_INDEX + (off - 0x400)) (leBytes 8 v) }
  else s.agPlain a v false

/-- ARMED, RUNNING or STOPPED: a list is loaded and its handles are named (R479, R495). -/
def State.agListed (s : State) : Bool := decide (2 ≤ s.ard Ia.TTB_STAT_STATE)

/-- A remote write of a register of the agent that no check refused (R472). -/
def State.agRemote (s : State) (src a v : Nat) : State :=
  let n := adInst a
  let off := adOff a
  if off < 0x40 then s.writeHead .agent operator a v
  else
    match adFam a with
    | 0x01 => s.agLoadWrite a v
    | 0x03 =>
      if off = 0x100 then s.prtCtrl .agent n v
      else if off = 0x108 then
        ((s.awr (PRT_STAT_ROLE (adPg a)) (bits v 33 32)).awr (PRT_STAT_MIN_WIDTH (adPg a)) (bits v 31 30)).judgeWidth .agent n
      else if off = 0x120 then (if s.agListed then s else s.agPlain a v false)
      else s.agPlain a v false
    | 0x05 => s.agRteWrite a v
    | 0x06 => s.agTtbWrite a v
    | 0x0E =>
      if off = 0x140 then
        let s := s.awr Ia.FRK_EVREQ_HOLD (bits v 1 1)
        s.ifBit v 0 fun s => s.agEvReq src
      else if off = 0x170 then s.agPlain a (cut2048 0 16 v) false
      else s.agPlain a v false
    | 0x13 =>
      if n = 0 then s.fltWrite .agent (agFields a) off v
      else if off = 0x130 then s.ifBit v 0 fun s => s.clearDll .agent 0
      else s.agPlain a v false
    | 0x14 => if off = 0x100 then s.jigArm .agent v else s.agPlain a v false
    | 0x16 =>
      if off = 0x100 then
        let s := (s.awr Ia.RST_CTRL_DOMAIN (bits v 4 4)).awr Ia.RST_CTRL_BLOCK (v % 8)
        s.ifBit v 8 fun s => s.hcReset (bits v 4 4) (v % 8)
      else s.agPlain a v false
    | _ => s.agPlain a v false

/-- A register that holds a field the host chip may write (R471, R472, R488). -/
def hasLocal (a : Nat) : Bool :=
  (adFam a == 0x01 && (adOff a == 0x170 || adOff a == 0x178 || decide (0x800 ≤ adOff a))) || (adFam a == 0x0E && adOff a == 0x170) ||
  (agFields a).any fun x => x.1.isLocal

/-- The selected handle is named by the loaded list (R479). -/
def State.handleNamed (s : State) : Bool :=
  let h := s.ard Ia.TTB_HSEL_HANDLE
  s.agListed && s.agEntries.any fun e => decide (1 ≤ e.2.kind) && decide (e.2.kind ≤ 3) && e.2.srcbuf == h

/-- A local write of a register that holds a field marked local: T_ERR and the state (R472). -/
def State.agLocal (s : State) (a v : Nat) : Nat × State :=
  let off := adOff a
  let h := s.ard Ia.TTB_HSEL_HANDLE
  match adFam a with
  | 0x01 => (0, s.agLoadWrite a v)
  | 0x06 =>
    if off = 0x1B0 then
      (0, if s.ard Ia.TTB_STAT_STATE = 0 ∧ v % 2 ^ 16 ≤ s.sinkMax then s.setAg fun g => { g with sink := some (v % 2 ^ 16) } else s)
    else if off = 0x1D8 then
      (if s.handleNamed then (3, s) else (0, s.setAg fun g => { g with hbase := tset g.hbase h (v / 64 * 64) }))
    else if off = 0x1E0 then
      (if s.handleNamed then (3, s) else (0, s.setAg fun g => { g with hlen := tset g.hlen h (v &&& (7 * 2 ^ 61 + (2 ^ 40 - 1))) }))
    else (0, s.agPlain a v true)
  | 0x08 =>
    if off = 0x328 then
      let s := s.ifBit v 2 fun s => s.awr Ia.CDC_JOB_CTRL_DONE 0
      (0, s.ifBit v 0 fun s => s.jobGo)
    else (0, s.agPlain a v true)
  | 0x0E =>
    if off = 0x100 then
      let s := s.ifBit v 0 fun s => s.measStart
      let s := s.ifBit v 1 fun s => s.measDone
      (0, s.ifBit v 2 fun s => s.awr Ia.FRK_CTRL_CERT_LOCK 1)
    else if off = 0x110 then (0, s.measIn (word v))
    else if off = 0x170 then (0, s.agPlain a (cut2048 0 16 v) false)
    else if 0x800 ≤ off then
      (0, if s.aon Ia.FRK_CERT_SEL_SPACE || s.aon Ia.FRK_CTRL_CERT_LOCK then s
        else s.setAg fun g => { g with certs := mwrite g.certs (s.ard Ia.FRK_CERT_SEL_OFFSET + (off - 0x800)) (leBytes 8 v) })
    else (0, s.agPlain a v true)
  | 0x16 =>
    let s := (s.awr Ia.RST_REQ_DOMAIN (bits v 4 4)).awr Ia.RST_REQ_BLOCK (v % 8)
    (0, s.ifBit v 8 fun s => s.hcReset (bits v 4 4) (v % 8))
  | _ => (0, s.agPlain a v true)

/-- A target-bus write (R467, R470, R472): its answer goes out with T_ERR. While IA_PORST_N is low nothing answers. -/
def State.targetWrite (s : State) (a v : Nat) : State :=
  if s.ag.porst then s
  else if 2 ^ 32 ≤ a ∨ a % 8 ≠ 0 ∨ ¬ s.agPageExists a then s.busErr 1
  else if !hasLocal a then s.busErr 2
  else if s.agLocked a then s.busErr 3
  else if adFam a = 0x01 ∧ adOff a = 0x178 then s.setAgFid v
  else
    let r := s.agLocal a v
    r.2.busErr r.1

/-- AGENT_TARGET_WRITE (R472). -/
def execAgentTargetWrite (addr : Nat) (value : Word) (s : State) : Out := .next (s.targetWrite addr value.toNat)

/-! ### MREQ (R473, R474) -/

/-- Status of a remote access of one register. -/
def State.agGate (s : State) (a : Nat) (write : Bool) : Nat :=
  if !s.agPageExists a then stADDR
  else if a % 8 ≠ 0 then stALIGN
  else if write && adFam a == 0x01 && adOff a == 0x178 then stROLE
  else if write && s.agLocked a then stLOCK
  else stOK

/-- Reads registers that follow one another: status, data words, state. -/
def State.agReads (s : State) : Nat → Nat → Nat × List Nat × State
  | 0, _ => (stOK, [], s)
  | n + 1, a =>
    let st := s.agGate a false
    if st = stOK then
      let r := s.agRead a
      let q := r.2.agReads n (a + 8)
      (q.1, r.1 :: q.2.1, q.2.2)
    else (st, [], s)

/-- Writes registers that follow one another. -/
def State.agWrites (s : State) (src : Nat) : List Nat → Nat → Nat × State
  | [], _ => (stOK, s)
  | v :: r, a =>
    let st := s.agGate a true
    if st = stOK then (s.agRemote src a v).agWrites src r (a + 8) else (st, s)

/-- The MRSP payload of an executed MREQ, and the state after it. -/
def State.mreqRun (s : State) (c : Cell) : List Nat × State :=
  let w := cellWord c 0
  let addr := bits (cellWord c 1) 31 0
  let op := bits w 63 56
  let n := bits w 55 52
  let answer := fun (st : Nat) (data : List Nat) => [op * 2 ^ 56 + n * 2 ^ 52 + st * 2 ^ 40, addr] ++ data
  if !(op == 1 || op == 2) || n == 0 || decide (4 < n) then (answer stSIZE [], s)
  else if op = 1 then
    let r := s.agReads n addr
    (answer r.1 r.2.1, r.2.2)
  else
    let r := s.agWrites c.src ((List.range n).map fun i => cellWord c (2 + i)) addr
    (answer r.1 [], r.2)

/-- The stored answer of a SEQ of a source. -/
def State.replayOf (s : State) (src seq : Nat) : Option (List Word) :=
  match s.ag.replay.find? fun e => e.1 == src with
  | some e => (e.2.find? fun q => q.1 == seq).map (·.2)
  | none => none

/-- Stores an answer among the source's last 16. -/
def State.keepAnswer (s : State) (src seq : Nat) (ws : List Word) : State :=
  let old := match s.ag.replay.find? fun e => e.1 == src with | some e => e.2 | none => []
  let kept := (old ++ [(seq, ws)]).drop (old.length - 15)
  s.setAg fun g => { g with replay := (g.replay.filter fun e => e.1 != src) ++ [(src, kept)] }

/-- Sends an MRSP. -/
def State.mrsp (s : State) (c : Cell) (payload : List Nat) : State :=
  s.send .agent (s.newCell .agent c.src 2 tMRSP c.seq 8 0 0 payload)

/-- An MREQ at the agent (R66, R104, R470, R473, R474). -/
def State.mreqServe (s : State) (c : Cell) : State :=
  if s.ag.porst || !s.aon GEN_FID_VALID then s
  else if !s.epochGood .agent c then s.discard .agent 0 c rEPOCH
  else if c.src % 256 < 0xFE then s.mrsp c [bits (cellWord c 0) 63 52 * 2 ^ 52 + stROLE * 2 ^ 40, bits (cellWord c 1) 31 0]
  else
    match s.replayOf c.src c.seq with
    | some ws => s.mrsp c (ws.map (·.toNat))
    | none =>
      let r := s.mreqRun c
      (r.2.keepAnswer c.src c.seq ((List.range 6).map fun i => word (nth r.1 i))).mrsp c r.1

/-- MREQ_READ (R473, R474). -/
def execMreqRead (cell : Cell) (s : State) : Out := .next (s.mreqServe cell)

/-- MREQ_WRITE (R473, R474). -/
def execMreqWrite (cell : Cell) (s : State) : Out := .next (s.mreqServe cell)

end Sys2Proof.Machine
end

