-- ==== Sys2Proof/Machine/HostPort.lean ====
section
/-! DEFINITION. The host port, its MACsec, Beyjo sessions, NOTIFY datagrams and the mail slots that every session owns (R320 to R332,
R338 to R346, R349, R350). -/

namespace Sys2Proof.Machine

/-! ### Frames (R321 to R324) -/

/-- The lifecycle state: 0 BLANK, 1 MANUFACTURE, 2 PROVISIONED, 3 SEALED, 4 RETURN (R312). -/
def State.lifecycle (s : State) : Nat := s.rd LCS_STAT_STATE

/-- PROVISIONED or SEALED: the port needs admission. -/
def State.needsAdmission (s : State) : Bool := s.lifecycle == 2 || s.lifecycle == 3

/-- What a host may send in clear before admission (R323). -/
def clearKind (k : FrameKind) : Bool :=
  match k with
  | .neighbour | .echo => true
  | .beyjo _ _ t => t == 1
  | _ => false

/-- The frame passes R323. -/
def State.secure (s : State) (f : EthFrame) : Bool :=
  if !s.needsAdmission then f.macsec.isNone
  else if !s.on FRK_STAT_ADMITTED then f.macsec.isNone && clearKind f.kind
  else match f.macsec with
    | none => f.kind == .mka
    | some ok => ok && s.beyjo.sak.isSome

/-- The link-local address: fe80::/64 with the interface identifier of the MAC address (PRESUMED, RFC 4291; log entry 146). -/
def linkLocal (mac : Nat) : Nat := 0xFE80 * 2 ^ 112 + Nat.xor (mac / 2 ^ 24) 0x20000 * 2 ^ 40 + 0xFFFE * 2 ^ 24 + mac % 2 ^ 24

/-- The unit's addresses: the link-local one and, where it is set, the global one (R320). -/
def State.ownIps (s : State) : List Nat :=
  let g := s.rd HPT_IP6_HI_ADDR * 2 ^ 64 + s.rd HPT_IP6_LO_ADDR
  linkLocal (s.rd HPT_MAC_ADDR) :: if g = 0 then [] else [g]

/-- The groups that a frame of a kind may go to instead of the unit's address, with their MAC address: that of MKA, the solicited-node
groups, those of IEEE 1588 (PRESUMED, IEEE 802.1X, RFC 4291, IEEE 1588; log entry 146). -/
def State.groups (s : State) (k : FrameKind) : List (Nat × Nat) :=
  match k with
  | .mka => [(0x0180C2000003, 0)]
  | .neighbour => s.ownIps.map fun a => (0x3333FF000000 + a % 2 ^ 24, 0xFF02 * 2 ^ 112 + 2 ^ 32 + 0xFF * 2 ^ 24 + a % 2 ^ 24)
  | .ptp => [2, 5, 8, 14].map fun k => (0x333300000181, (0xFF00 + k) * 2 ^ 112 + 0x181)
  | _ => []

/-- Destination MAC address, VLAN tag and IPv6 destination address are the unit's (R320, R321). -/
def State.addrFits (s : State) (f : EthFrame) : Bool :=
  f.vlan == (if s.on HPT_VLAN_EN && f.kind != .mka then some (s.rd HPT_VLAN_VID) else none) &&
    ((f.dst == s.rd HPT_MAC_ADDR && f.kind != .mka && s.ownIps.contains f.ip) || (s.groups f.kind).contains (f.dst, f.ip))

/-- The frame is for a protocol and a UDP port that the DZ8 serves (R320, R321). -/
def State.portFits (s : State) (f : EthFrame) : Bool :=
  match f.kind with
  | .mka | .neighbour | .echo => true
  | .ptp => f.udpPort == 319 || f.udpPort == 320
  | .beyjo _ _ _ => f.udpPort == s.rd HPT_UDP_PORT
  | .other => false

/-- MAGIC, VERSION and a TYPE that a host sends (R325, R326). -/
def headFits (k : FrameKind) : Bool :=
  match k with
  | .beyjo m v t => m == 0x4A59 && v == 1 && [0x01, 0x02, 0x04, 0x10, 0x21, 0x30].contains t
  | _ => true

/-- ETH_FRAME (R321, R323): the checks in order, each failure counted; Neighbor Solicitation and Echo are answered. In BLANK the port
is idle. What a datagram carries follows as its own row. -/
def execEthFrame (f : EthFrame) (s : State) : Out :=
  .next (
    if s.lifecycle = 0 then s
    else
      let s := s.bump HPT_FRAMES_RX 1
      if !f.fcsOk then s.bump HPT_DISCARD_FCS 1
      else if !s.secure f then s.bump HPT_DISCARD_MACSEC 1
      else if !s.addrFits f || !s.portFits f then s.bump HPT_DISCARD_ADDR 1
      else if !headFits f.kind then s.bump HPT_DISCARD_BEYJO 1
      else if f.kind = .neighbour ∨ f.kind = .echo then s.frame (.icmp f.kind)
      else s)

/-- MKA_FRAME (R322): with a CAK, an MKA frame that verifies makes MKA live and installs the SAK it distributes. -/
def execMkaFrame (icvOk : Bool) (sak : Option Nat) (s : State) : Out :=
  .next (
    if !icvOk || s.rot.cak.isNone then s
    else
      match sak with
      | some k => ((s.wr HPT_STAT_MKA 3).wr HPT_STAT_MACSEC 1).setBeyjo fun b => { b with sak := some k }
      | none => if s.rd HPT_STAT_MKA < 2 then s.wr HPT_STAT_MKA 2 else s)

/-- HOST_LINK_LOSS (R321): a MINOR fault; sessions stay. -/
def execHostLinkLoss (s : State) : Out :=
  .next ((((s.wr HPT_STAT_LINK 0).wr HPT_STAT_PCS_LOCK 0).wr HPT_STAT_FEC_LOCK 0).detect .dz8 hptPg 0 0 none)

/-- HOST_LINK_UP (R320, R323, R350): not in BLANK, where the port is idle. -/
def execHostLinkUp (s : State) : Out :=
  .next (if s.lifecycle = 0 then s else ((s.wr HPT_STAT_LINK 2).wr HPT_STAT_PCS_LOCK 1).wr HPT_STAT_FEC_LOCK 1)

/-! ### Opening a session (R327 to R331) -/

/-- BEYJO_SPDM (R327): answers go to this source. -/
def execBeyjoSpdm (src port : Nat) (s : State) : Out := .next (s.setBeyjo fun b => { b with spdmFrom := some (src, port) })

/-- Roles of the lifecycle state (R312). -/
def State.roleAllowed (s : State) (role : Nat) : Bool :=
  match s.lifecycle with
  | 1 => role == 0
  | 2 | 3 => role == 0 || role == 1 || role == 3
  | 4 => role == 0 || role == 2
  | _ => false

/-- Sessions of a role, open or held; TENANT sessions by context. -/
def State.roleCount (s : State) (role ctx : Nat) : Nat :=
  (s.beyjo.sessions.filter fun x => x.role == role && (role != 1 || x.ctx == ctx)).length

/-- Sessions that a role may hold at once (R331). -/
def roleLimit (role : Nat) : Nat := nth [4, 2, 1, 8] role

/-- An index that no session holds. -/
def State.freeIndex (s : State) : Option Nat := (List.range 64).find? fun i => (s.sessAt i).isNone

/-- A credential for a role and context. -/
def credFor (role ctx : Nat) (c : Cred) : Bool := c.role == role && (role != 1 || c.ctx == ctx)

/-- REFUSE with its reason (R330). -/
def State.refuseOpen (s : State) (session reason : Nat) : State :=
  (s.bump BYJ_OPEN_CNT_REFUSED 1).frame (.datagram 6 session 0 [reason])

/-- BEYJO_OPEN (R329 to R331): at most 16 a second from one source; the reasons of R330 in the order of their codes; else the index
is held and a CHALLENGE goes out. -/
def execBeyjoOpen (src role ctx notifyPort nh : Nat) (s : State) : Out :=
  .next (
    let recent := s.beyjo.opens.filter fun e => decide (s.time.nowNs < e.2 + 1000000000)
    if 16 ≤ (recent.filter fun e => e.1 == src).length then s.setBeyjo fun b => { b with opens := recent }
    else
      let s := s.setBeyjo fun b => { b with opens := recent ++ [(src, s.time.nowNs)] }
      let full := decide (roleLimit role ≤ s.roleCount role ctx) || s.freeIndex.isNone
      match firstCode [(!s.roleAllowed role, 1), (!s.beyjo.creds.any (credFor role ctx), 2), (full, 3),
          (role == 1 && s.ctxState ctx != 2, 5), (s.needsAdmission && !s.on FRK_STAT_ADMITTED, 6)] with
      | some reason => s.refuseOpen 0 reason
      | none =>
        let i := s.freeIndex.getD 0
        let r := s.free
        let nd := r.1 % 2 ^ 256
        let x : Sess := ⟨i, s.genOf i, false, role, ctx, src, notifyPort, nh, nd, 0, 0, 0, 0, 0, [], s.time.nowNs, 2 ^ 64 - 1, [], 0, 1, []⟩
        (r.2.setBeyjo fun b => { b with sessions := b.sessions ++ [x] }).frame (.datagram 3 x.id 0 [nd]))

/-- Nh, Nd and SESSION of a held index (R329). -/
def Sess.nonces (x : Sess) : List Byte := leBytes 32 x.nh ++ leBytes 32 x.nd ++ leBytes 4 x.id

/-- The HMAC of R329 under a credential. -/
def Sess.mac (x : Sess) (cred : Nat) (label : List Byte) : Nat := hmac (leBytes 32 cred) (label ++ x.nonces)

/-- The session key of 512 bits (R329). -/
def Sess.deriveKey (x : Sess) (cred : Nat) : Nat := kdf (leBytes 32 cred) (ascii "DZ8-BYJ-KEY") x.nonces 512

/-- The held index goes without having been open. -/
def State.dropHeld (s : State) (i : Nat) : State :=
  s.setBeyjo fun b => { b with sessions := b.sessions.filter fun x => !(x.index == i && !x.isOpen) }

/-- BEYJO_PROOF (R329, R330): the session opens with the credential that made the proof, or is refused. -/
def execBeyjoProof (session proof : Nat) (s : State) : Out :=
  .next (match (s.sessNamed session).filter (fun x => !x.isOpen) with
    | none => s
    | some x =>
      match s.beyjo.creds.find? fun c => credFor x.role x.ctx c && x.mac c.value (ascii "DZ8-BYJ-PROVE") == proof with
      | none => (s.dropHeld x.index).refuseOpen session 4
      | some c =>
        let s := s.setSess x.index fun y => { y with
          isOpen := true, cred := c.value, key := x.deriveKey c.value, owner := c.owner, spdm := c.spdm, lastNs := s.time.nowNs }
        ((s.clearSlots x.index).showSess.bump BYJ_OPEN_CNT_OPENED 1).frame
          (.datagram 5 session 0 [x.mac c.value (ascii "DZ8-BYJ-ACCEPT")]))

/-- CHALLENGE_EXPIRY (R329, R330). -/
def execChallengeExpiry (index : Nat) (s : State) : Out := .next (s.dropHeld index)

/-! ### Tagged datagrams (R331, R332) -/

/-- A tagged datagram of an open session runs `f`; a failed tag is counted, and a closed session or an old generation is discarded. -/
def State.inSess (s : State) (session : Nat) (tagOk : Bool) (f : Sess → State → State) : State :=
  match (s.sessNamed session).filter (·.isOpen) with
  | none => s
  | some x =>
    if tagOk then f x (s.setSess x.index fun y => { y with lastNs := s.time.nowNs }) else s.bump BYJ_REJECT_TAG 1

/-- BEYJO_CLOSE (R331). -/
def execBeyjoClose (session : Nat) (tagOk : Bool) (s : State) : Out :=
  .next (s.inSess session tagOk fun x s => s.closeSess x.index)

/-- SESSION_IDLE_TIMEOUT (R331). -/
def execSessionIdleTimeout (index : Nat) (s : State) : Out := .next (if (s.openSess index).isSome then s.closeSess index else s)

/-! ### NOTIFY (R343 to R346) -/

/-- Bytes of a record (R344). -/
def recBytes (r : NRec) : Nat := 16 + 8 * r.words.length

/-- The records at the front of a queue that fit into `room` bytes, and the rest. -/
def takeRecs (room : Nat) : List NRec → List NRec × List NRec
  | [] => ([], [])
  | r :: rs => if recBytes r ≤ room then let q := takeRecs (room - recBytes r) rs; (r :: q.1, q.2) else ([], r :: rs)

/-- The GAP record of the records dropped (R345). -/
def State.gapRec (s : State) (x : Sess) : List NRec :=
  if x.dropped = 0 then [] else [⟨7, 0xFF, if x.role = 1 then s.postmark / 256 * 256 else s.postmark, [x.dropped]⟩]

/-- NOTIFY_SEND (R343, R345): one NOTIFY with every record that is queued and fits in a datagram of 8,960 bytes. -/
def execNotifySend (index : Nat) (s : State) : Out :=
  .next (match s.openSess index with
    | none => s
    | some x =>
      let gap := s.gapRec x
      if gap.isEmpty ∧ x.queue.isEmpty then s
      else
        let q := takeRecs (8920 - (gap.map recBytes).sum) x.queue
        let rs := gap ++ q.1
        (s.setSess index fun y => { y with
          queue := q.2, dropped := 0, nextSeq := x.nextSeq + 1, unacked := y.unacked ++ [(⟨x.nextSeq, 0, rs⟩ : SentNotify)] }).frame
          (.notify x.id x.nextSeq rs))

/-- NOTIFY_ACK (R345): every NOTIFY up to SEQ is acknowledged. -/
def execNotifyAck (session seq : Nat) (tagOk : Bool) (s : State) : Out :=
  .next (s.inSess session tagOk fun x s =>
    s.setSess x.index fun y => { y with unacked := y.unacked.filter fun n => decide (seq < n.seq) })

/-- NOTIFY_RESEND (R345): sent again with the same SEQ, up to 8 times; then the session closes. -/
def execNotifyResend (index seq : Nat) (s : State) : Out :=
  .next (match s.openSess index with
    | none => s
    | some x =>
      match x.unacked.find? fun n => n.seq == seq with
      | none => s
      | some n =>
        if n.resends < 8 then
          ((s.setSess index fun y => { y with
            unacked := y.unacked.map fun m => if m.seq == seq then { m with resends := m.resends + 1 } else m }).bump
            BYJ_NOTIFY_RESENT 1).frame (.notify x.id seq n.records)
        else s.closeSess index)

/-! ### Mail slots (R339, R341) -/

/-- The POSTED slots of open sessions, by index and then slot. -/
def State.posted (s : State) : List (Nat × Nat) :=
  (List.range 64).flatMap fun i =>
    if (s.openSess i).isSome then ((List.range 16).filter fun n => slotState (s.control i n) == 1).map fun n => (i, n) else []

/-- A slot becomes TAKEN. -/
def State.takeSlot (s : State) (i n : Nat) : State :=
  let c := s.control i n
  (s.slotPut i n 15 (2 * 2 ^ 56 + c % 2 ^ 56)).wr (MSL_SESS_TAKEN (mslPg i)) (setBit (s.rd (MSL_SESS_TAKEN (mslPg i))) n true)

/-- MAIL_SCAN (R339): at a beat whose count is a multiple of 64, at most 64 POSTED slots are taken. -/
def execMailScan (s : State) : Out :=
  .next (
    if s.time.beat % 64 ≠ 0 then s
    else
      let l := s.posted
      let s := (l.take 64).foldl (fun s e => s.takeSlot e.1 e.2) s
      (s.bump MSL_SCAN_SCANS 1).bump MSL_SCAN_FULL (if 64 < l.length then 1 else 0))

/-- MAIL_NOP (R341, R342). -/
def execMailNop (index slot : Nat) (s : State) : Out :=
  .next (
    if s.takenFor index slot 0 then
      match s.mailErr index slot 0 0 [0, 1, 2, 3] with
      | some res => s.mailReject index slot res []
      | none => s.mailOk index slot []
    else s)

/-- MAIL_RESERVED (R341): RESULT CODE. -/
def execMailReserved (index slot : Nat) (s : State) : Out :=
  .next (if s.taken index slot && decide (6 < slotCode (s.control index slot)) then s.mailReject index slot 1 [] else s)

end Sys2Proof.Machine
end

