-- ==== Sys2Proof/Machine/Opers.lean ====
section
/-! DEFINITION. Beyjo operations, the remote window and the management transactions behind it (R127, R332 to R337, R346, R509 to
R513). -/

namespace Sys2Proof.Machine

/-! ### Local operations (R333 to R335) -/

/-- The asker that a session is. -/
def Sess.asker (x : Sess) : Asker := ⟨x.role, x.ctx, x.index⟩

/-- The result of an operation; a READ carries COUNT words, 0 where none was read. -/
def opResult (op : BOp) (st : Nat) (data : List Nat) : OpResult :=
  ⟨op.opcode, st, op.address, if op.opcode = 1 ∧ st ≠ stSIZE then (data ++ List.replicate (op.count - data.length) 0).take op.count else []⟩

/-- Reads registers that follow one another: status, words, state; the first failure ends the operation. -/
def State.readRun (s : State) (w : Asker) : Nat → Nat → Nat × List Nat × State
  | 0, _ => (stOK, [], s)
  | n + 1, a =>
    let r := s.busRead w a
    if r.1 = stOK then
      let q := r.2.2.readRun w n (a + 8)
      (q.1, r.2.1 :: q.2.1, q.2.2)
    else (r.1, [], r.2.2)

/-- Writes registers that follow one another: status and state. -/
def State.writeRun (s : State) (w : Asker) : List Nat → Nat → Nat × State
  | [], _ => (stOK, s)
  | v :: r, a =>
    let q := s.busWrite w a v
    if q.1 = stOK then q.2.writeRun w r (a + 8) else q

/-- An operation that the format of R333 does not have: an opcode or a COUNT that it does not name. -/
def opBad (op : BOp) : Bool :=
  match op.opcode with
  | 1 => op.count == 0 || decide (128 < op.count)
  | 2 => op.count == 0 || decide (128 < op.count) || op.words.length != op.count
  | 3 => op.count != 0
  | 4 => op.count != 0 || op.words.length != 1
  | _ => true

/-- An operation on the DZ8 itself: its result and the state after it. -/
def State.localOp (s : State) (x : Sess) (op : BOp) : OpResult × State :=
  match op.opcode with
  | 1 =>
    let r := s.readRun x.asker op.count op.address
    (opResult op r.1 r.2.1, r.2.2)
  | 2 =>
    let r := s.writeRun x.asker (op.words.map (·.toNat)) op.address
    (opResult op r.1 [], r.2)
  | 4 => (opResult op stOK [], s.setSess x.index fun y => { y with mask := nth (op.words.map (·.toNat)) 0 ||| 0x80 })
  | _ => (opResult op stOK [], s)

/-! ### The remote window (R509 to R511) -/

/-- A register of the remote window whose write returns ROLE to a session (R511); `v` is the word. -/
def State.dzOnly (s : State) (a v : Nat) : Bool :=
  let off := adOff a
  match adFam a with
  | 0x01 => (off == 0x170 || decide (0x800 ≤ off)) && !s.hostMode 7
  | 0x05 => [0x148, 0x208, 0x218, 0x220, 0x228].contains off
  | 0x06 =>
    [0x118, 0x1A0, 0x1F0, 0x208, 0x210, 0x230, 0x238, 0x240].contains off || (decide (0x180 ≤ off) && decide (off < 0x1A0)) ||
      decide (0x400 ≤ off) || (off == 0x100 && bit v 3)
  | 0x0E => ((decide (0x120 ≤ off) && decide (off < 0x140)) || off == 0x140) && !s.hostMode 5
  | _ => false

/-- PG_JIG and JIG_ARM, whose writes have effect from an OPERATOR only (R379, R494). -/
def jigAddress (a : Nat) : Bool := adOff a == 0x28 || (adFam a == 0x14 && adOff a == 0x100)

/-- A remote operation is refused before any cell is sent (R496, R510, R511). -/
def State.remoteGate (s : State) (x : Sess) (a : Nat) : Nat :=
  let fid := adFid a
  let near := (s.portNums .dz8).any fun p => s.isUp .dz8 p && s.farFid .dz8 p == fid
  if !adClean a then stADDR
  else if !x.asker.full then stROLE
  else if a % 8 ≠ 0 then stALIGN
  else if (s.theRod.chip fid).isNone ∨ 0xFE ≤ fid % 256 ∨ fid / 256 ≠ s.domain ∨ ¬ (s.active ∨ near) then stADDR
  else stOK

/-- Word `k` of an operation. -/
def opWord (op : BOp) (k : Nat) : Nat := nth (op.words.map (·.toNat)) k

/-- Register `k` of an operation is written by the DZ8 only; and a write of it is left out (SERVICE on the Jig). -/
def State.opClosed (s : State) (op : BOp) (k : Nat) : Bool := op.opcode == 2 && s.dzOnly (op.address + 8 * k) (opWord op k)
def opSkipped (role : Nat) (op : BOp) (k : Nat) : Bool := op.opcode == 2 && role != 0 && jigAddress (op.address + 8 * k)

/-- Registers from `k` that go into one MREQ: at most 4 that follow one another. -/
def State.opRun (s : State) (role : Nat) (op : BOp) : Nat → Nat → Nat
  | 0, _ => 0
  | f + 1, k => if op.count ≤ k ∨ s.opClosed op k ∨ opSkipped role op k then 0 else 1 + s.opRun role op f (k + 1)

/-- Goes on with a remote operation from register `k`: its status where it ends, or none with its next MREQ sent. -/
def State.remoteGo (s : State) (x : Sess) (op : BOp) : Nat → Nat → Option Nat × Nat × State
  | 0, k => (some stOK, k, s)
  | f + 1, k =>
    if op.count ≤ k then (some stOK, k, s)
    else if s.opClosed op k then (some stROLE, k, s)
    else if opSkipped x.role op k then s.remoteGo x op f (k + 1)
    else
      let n := s.opRun x.role op 4 k
      let ws := if op.opcode = 2 then (List.range n).map fun i => opWord op (k + i) else []
      (none, k, s.mreq (adFid op.address) op.opcode n (op.address + 8 * k) ws (some x.index))

/-! ### REQUEST (R332 to R334, R349) -/

/-- The RESPONSE goes out and is kept among the session's last 16; a session that has closed gets none. -/
def State.respond (s : State) (session seq : Nat) (rs : List OpResult) : State :=
  match (s.sessNamed session).filter (·.isOpen) with
  | none => s
  | some x =>
    let keep := fun (y : Sess) => if seq = 0 then y else { y with replies := (y.replies ++ [(seq, rs)]).drop (y.replies.length - 15) }
    (s.setSess x.index keep).frame (.response session seq rs)

/-- Runs the operations of a REQUEST in order: after a failure the rest is SKIPPED; at a remote operation the REQUEST waits for its
MRSP; nothing runs once the session has closed. -/
def State.runOps (session seq : Nat) : List BOp → List OpResult → Bool → State → State
  | [], done, _, s => s.respond session seq done
  | op :: rest, done, failed, s =>
    match (s.sessNamed session).filter (·.isOpen) with
    | none => s
    | some x =>
      if failed then State.runOps session seq rest (done ++ [opResult op stSKIPPED []]) true s
      else if opBad op then State.runOps session seq rest (done ++ [opResult op stSIZE []]) true s
      else if (op.opcode = 1 ∨ op.opcode = 2) ∧ adRemote op.address then
        let st := s.remoteGate x op.address
        if st ≠ stOK then State.runOps session seq rest (done ++ [opResult op st []]) true s
        else
          let txn := s.route.nextSeq
          let r := s.remoteGo x op (op.count + 1) 0
          match r.1 with
          | some st => State.runOps session seq rest (done ++ [opResult op st []]) (st != stOK) r.2.2
          | none => r.2.2.setBeyjo fun b => { b with
              openReqs := b.openReqs ++ [(⟨session % 64, session / 64, seq, done, op, [], r.2.1, rest, txn⟩ : OpenReq)] }
      else
        let r := s.localOp x op
        State.runOps session seq rest (done ++ [r.1]) (r.1.status != stOK) r.2

/-- Bytes of the RESPONSE to operations (R333). -/
def responseBytes (ops : List BOp) : Nat := 40 + (ops.map fun op => 16 + if op.opcode = 1 then 8 * op.count else 0).sum

/-- A REQUEST of a session (R332, R333): executed, answered again, or discarded. -/
def State.request (s : State) (x : Sess) (seq : Nat) (ops : List BOp) : State :=
  match x.replies.find? fun r => r.1 == seq with
  | some r => s.frame (.response x.id seq r.2)
  | none =>
    if s.beyjo.openReqs.any fun r => r.index == x.index && r.seq == seq then s
    else if seq ≤ x.lastSeq then s.bump BYJ_REJECT_SEQ 1
    else if 8960 < responseBytes ops then s.frame (.response x.id seq (ops.map fun op => opResult op stSIZE []))
    else State.runOps x.id seq ops [] false (s.setSess x.index fun y => { y with lastSeq := seq })

/-- BEYJO_REQUEST (R332 to R334): 1 to 64 operations. -/
def execBeyjoRequest (session seq : Nat) (tagOk : Bool) (ops : List BOp) (s : State) : Out :=
  .next (s.inSess session tagOk fun x s => if ops.isEmpty ∨ 64 < ops.length then s else s.request x seq ops)

/-- One operation of an open session, answered by itself. -/
def State.oneOp (s : State) (index : Nat) (op : BOp) : State :=
  match s.openSess index with
  | none => s
  | some x => State.runOps x.id 0 [op] [] false (s.setSess index fun y => { y with lastNs := s.time.nowNs })

/-- OP_READ (R333, R509). -/
def execOpRead (index address count : Nat) (s : State) : Out := .next (s.oneOp index ⟨1, count, address, []⟩)

/-- OP_WRITE (R333, R509). -/
def execOpWrite (index address : Nat) (words : List Word) (s : State) : Out := .next (s.oneOp index ⟨2, words.length, address, words⟩)

/-- OP_KEEPALIVE (R333). -/
def execOpKeepalive (index : Nat) (s : State) : Out := .next (s.oneOp index ⟨3, 0, 0, []⟩)

/-- OP_FILTER (R333, R346): bit 7 stays set. -/
def execOpFilter (index : Nat) (mask : Word) (s : State) : Out := .next (s.oneOp index ⟨4, 0, 0, [mask]⟩)

/-! ### Management transactions end (R127, R509, R513) -/

/-- A session's transaction ended with a status and data: its operation goes on or ends, and with it the REQUEST. -/
def State.resume (s : State) (seq st : Nat) (data : List Nat) (n : Nat) : State :=
  match s.beyjo.openReqs.find? fun r => r.txn == seq with
  | none => s
  | some r =>
    let s := s.setBeyjo fun b => { b with openReqs := b.openReqs.filter fun q => q != r }
    let session := r.gen * 64 + r.index
    match (s.sessNamed session).filter (·.isOpen) with
    | none => s
    | some x =>
      let got := r.got ++ data.take n
      if st ≠ stOK then State.runOps session r.seq r.rest (r.done ++ [opResult r.op st got]) true s
      else
        let txn := s.route.nextSeq
        let q := s.remoteGo x r.op (r.op.count + 1) (r.reached + n)
        match q.1 with
        | some st => State.runOps session r.seq r.rest (r.done ++ [opResult r.op st got]) (st != stOK) q.2.2
        | none => q.2.2.setBeyjo fun b => { b with openReqs := b.openReqs ++ [{ r with got := got, reached := q.2.1, txn := txn }] }

/-- AGT_LAST of a failed transaction. -/
def State.agtLast (s : State) (t : Txn) (st : Nat) : State :=
  ((s.wr AGT_LAST_FID t.fid).wr AGT_LAST_STATUS st).wr AGT_LAST_ADDRESS (bits (cellWord t.request 1) 31 0)

/-- What the unit learns from a read of its own: sink rate and restore time, or the keys that an agent confirmed (R139, R307). -/
def State.learn (s : State) (fid addr : Nat) (data : List Nat) : State :=
  if addr = 0x6001B0 then
    let old := s.agentInfo fid
    { s with agents := (s.agents.filter fun a => a.fid != fid) ++ [(⟨fid, nth data 0 % 2 ^ 16, nth data 1 % 2 ^ 32, old.maxEntries⟩ : AgentInfo)] }
  else if addr = 0xE00148 then (s.keyStatus fid (nth data 0)).settle
  else s

/-- A transaction ends with its MRSP. -/
def State.txnDone (s : State) (t : Txn) (st : Nat) (data : List Nat) : State :=
  let n := bits (cellWord t.request 0) 55 52
  let s := s.endTxn t.seq
  if t.session.isSome then
    let s := s.bump AGT_COUNT_DONE 1
    let s := if st = stOK then s else s.agtLast t st
    s.resume t.seq st data n
  else if st = stOK ∧ bits (cellWord t.request 0) 63 56 = 1 then s.learn t.fid (bits (cellWord t.request 1) 31 0) data
  else s

/-- MRSP_CELL (R104, R127, R473): it completes the transaction of its SEQ; one that has ended is dropped and counted. -/
def execMrspCell (cell : Cell) (s : State) : Out :=
  .next (
    if !s.epochGood .dz8 cell then s.discard .dz8 0 cell rEPOCH
    else match (s.txn cell.seq).filter (fun t => t.fid == cell.src) with
      | none => s.bump AGT_ERR_LATE 1
      | some t => s.txnDone t (bits (cellWord cell 0) 47 40) ((List.range 4).map fun i => cellWord cell (2 + i)))

/-- MGMT_TIMEOUT (R127): a backoff before each of at most 3 retries; after the last the transaction ends with TIMEOUT. -/
def execMgmtTimeout (seq : Nat) (s : State) : Out :=
  .next (match s.txn seq with
    | none => s
    | some t =>
      if t.backoff then s
      else if t.attempts < 4 then
        s.setRoute fun r => { r with txns := r.txns.map fun x => if x.seq == seq then { x with backoff := true } else x }
      else
        let s := s.endTxn seq
        if t.session.isSome then ((s.bump AGT_ERR_TIMEOUT 1).agtLast t stTIMEOUT).resume seq stTIMEOUT [] 0 else s)

end Sys2Proof.Machine
end

