-- ==== Sys2Proof/Machine/Dispatch.lean ====
section
/-! DEFINITION. The dispatch of a command to its meaning: one arm for each constructor of Instr. -/

namespace Sys2Proof.Machine

/-- A command's effect on everything but the queue. -/
def exec (i : Instr) (s : State) : Host.Outcome State Fault Refusal :=
  match i with
  | .registerWrite addr value => Sys2Proof.Machine.execRegisterWrite addr value s
  | .tmkEnableWrite enable => Sys2Proof.Machine.execTmkEnableWrite enable s
  | .tmkStep => Sys2Proof.Machine.execTmkStep s
  | .counterStep => Sys2Proof.Machine.execCounterStep s
  | .tmkPeriodNextWrite atSec periodNs => Sys2Proof.Machine.execTmkPeriodNextWrite atSec periodNs s
  | .periodAnnounceBegin => Sys2Proof.Machine.execPeriodAnnounceBegin s
  | .periodChange => Sys2Proof.Machine.execPeriodChange s
  | .ppsEdge spacingNs refCycles edgePs => Sys2Proof.Machine.execPpsEdge spacingNs refCycles edgePs s
  | .ptpSync domain logInterval offsetPs taiNs usable => Sys2Proof.Machine.execPtpSync domain logInterval offsetPs taiNs usable s
  | .ptpAnnounce domain master => Sys2Proof.Machine.execPtpAnnounce domain master s
  | .ppsMissing => Sys2Proof.Machine.execPpsMissing s
  | .cadenceRefLoss => Sys2Proof.Machine.execCadenceRefLoss s
  | .syncTimeout => Sys2Proof.Machine.execSyncTimeout s
  | .xdomUnsafe => Sys2Proof.Machine.execXdomUnsafe s
  | .slewCorrection => Sys2Proof.Machine.execSlewCorrection s
  | .todAdvance => Sys2Proof.Machine.execTodAdvance s
  | .beatBoundary site => Sys2Proof.Machine.execBeatBoundary site s
  | .beatWord site port word crcOk arrival => Sys2Proof.Machine.execBeatWord site port word crcOk arrival s
  | .beatWordMiss => Sys2Proof.Machine.execBeatWordMiss s
  | .orphanEntry => Sys2Proof.Machine.execOrphanEntry s
  | .orphanReportRepeat => Sys2Proof.Machine.execOrphanReportRepeat s
  | .codeword site port cw => Sys2Proof.Machine.execCodeword site port cw s
  | .creditWord site port word => Sys2Proof.Machine.execCreditWord site port word s
  | .sentWord site port word => Sys2Proof.Machine.execSentWord site port word s
  | .probeWord site port word turnaroundPs => Sys2Proof.Machine.execProbeWord site port word turnaroundPs s
  | .probeReplyWord site port word nowPs => Sys2Proof.Machine.execProbeReplyWord site port word nowPs s
  | .identWord site port word => Sys2Proof.Machine.execIdentWord site port word s
  | .periodWord site port word => Sys2Proof.Machine.execPeriodWord site port word s
  | .frameTag site port fseq kph tag => Sys2Proof.Machine.execFrameTag site port fseq kph tag s
  | .trainStageDone site port result => Sys2Proof.Machine.execTrainStageDone site port result s
  | .trainStageTimeout site port => Sys2Proof.Machine.execTrainStageTimeout site port s
  | .trainRetry site port => Sys2Proof.Machine.execTrainRetry site port s
  | .unpark site port => Sys2Proof.Machine.execUnpark site port s
  | .retrain site port => Sys2Proof.Machine.execRetrain site port s
  | .portDisable site port disable => Sys2Proof.Machine.execPortDisable site port disable s
  | .noCorrectableCodeword site port => Sys2Proof.Machine.execNoCorrectableCodeword site port s
  | .electricalIdleDetect site port => Sys2Proof.Machine.execElectricalIdleDetect site port s
  | .cellSend site port vc => Sys2Proof.Machine.execCellSend site port vc s
  | .cellForward site port cell => Sys2Proof.Machine.execCellForward site port cell s
  | .escapeThreshold site port vc waitedNs => Sys2Proof.Machine.execEscapeThreshold site port vc waitedNs s
  | .dovetailNak sender group cell => Sys2Proof.Machine.execDovetailNak sender group cell s
  | .linkKeyChange site port => Sys2Proof.Machine.execLinkKeyChange site port s
  | .putCell site port cell => Sys2Proof.Machine.execPutCell site port cell s
  | .resultCell site port cell => Sys2Proof.Machine.execResultCell site port cell s
  | .contribCell port cell => Sys2Proof.Machine.execContribCell port cell s
  | .mrspCell cell => Sys2Proof.Machine.execMrspCell cell s
  | .mgmtTimeout seq => Sys2Proof.Machine.execMgmtTimeout seq s
  | .mgmtRetry seq => Sys2Proof.Machine.execMgmtRetry seq s
  | .routeCompute => Sys2Proof.Machine.execRouteCompute s
  | .rteCheck => Sys2Proof.Machine.execRteCheck s
  | .rteStart serials => Sys2Proof.Machine.execRteStart serials s
  | .rteAbort => Sys2Proof.Machine.execRteAbort s
  | .flipPrepareDone => Sys2Proof.Machine.execFlipPrepareDone s
  | .prepTimeout => Sys2Proof.Machine.execPrepTimeout s
  | .quietEntry site => Sys2Proof.Machine.execQuietEntry site s
  | .pollRound reports => Sys2Proof.Machine.execPollRound reports s
  | .flipRecordConfirm => Sys2Proof.Machine.execFlipRecordConfirm s
  | .commitCell site port cell => Sys2Proof.Machine.execCommitCell site port cell s
  | .abortCell site port cell => Sys2Proof.Machine.execAbortCell site port cell s
  | .flipBeat site => Sys2Proof.Machine.execFlipBeat site s
  | .flipResume site => Sys2Proof.Machine.execFlipResume site s
  | .commitResend chips => Sys2Proof.Machine.execCommitResend chips s
  | .flipFallback => Sys2Proof.Machine.execFlipFallback s
  | .fallbackRetry => Sys2Proof.Machine.execFallbackRetry s
  | .safeStateEntry => Sys2Proof.Machine.execSafeStateEntry s
  | .ttbCheck ctx => Sys2Proof.Machine.execTtbCheck ctx s
  | .ttbCheckDone ctx => Sys2Proof.Machine.execTtbCheckDone ctx s
  | .ttbArm ctx => Sys2Proof.Machine.execTtbArm ctx s
  | .armDeadline ctx armed => Sys2Proof.Machine.execArmDeadline ctx armed s
  | .armStart site ctx => Sys2Proof.Machine.execArmStart site ctx s
  | .ttbStop ctx => Sys2Proof.Machine.execTtbStop ctx s
  | .ttbDisarm ctx => Sys2Proof.Machine.execTtbDisarm ctx s
  | .ttbVoid ctx => Sys2Proof.Machine.execTtbVoid ctx s
  | .ttbUnload ctx => Sys2Proof.Machine.execTtbUnload ctx s
  | .stepBoundary site ctx => Sys2Proof.Machine.execStepBoundary site ctx s
  | .instanceOpen ctx => Sys2Proof.Machine.execInstanceOpen ctx s
  | .exchangeDeadlineCheck ctx xid => Sys2Proof.Machine.execExchangeDeadlineCheck ctx xid s
  | .counterDeadlineCheck cidx => Sys2Proof.Machine.execCounterDeadlineCheck cidx s
  | .stepmissCell cell => Sys2Proof.Machine.execStepmissCell cell s
  | .voidSend ctx => Sys2Proof.Machine.execVoidSend ctx s
  | .voidRepeat ctx => Sys2Proof.Machine.execVoidRepeat ctx s
  | .voidCell site cell => Sys2Proof.Machine.execVoidCell site cell s
  | .voidConfirmRound ctx reports => Sys2Proof.Machine.execVoidConfirmRound ctx reports s
  | .rollback site ctx => Sys2Proof.Machine.execRollback site ctx s
  | .restartBeat site ctx => Sys2Proof.Machine.execRestartBeat site ctx s
  | .stepCommit site ctx => Sys2Proof.Machine.execStepCommit site ctx s
  | .cmapCollect ctx counts => Sys2Proof.Machine.execCmapCollect ctx counts s
  | .cmapClear ctx => Sys2Proof.Machine.execCmapClear ctx s
  | .energyWindow measuredUj => Sys2Proof.Machine.execEnergyWindow measuredUj s
  | .instanceReady ctx xid => Sys2Proof.Machine.execInstanceReady ctx xid s
  | .resultSend ctx entry => Sys2Proof.Machine.execResultSend ctx entry s
  | .branchTransfer ctx xid => Sys2Proof.Machine.execBranchTransfer ctx xid s
  | .routeCombineStage1 ctx xid => Sys2Proof.Machine.execRouteCombineStage1 ctx xid s
  | .engineError ctx xid cls place => Sys2Proof.Machine.execEngineError ctx xid cls place s
  | .blockDecode ctx xid fid input block => Sys2Proof.Machine.execBlockDecode ctx xid fid input block s
  | .blockEncode ctx xid part block => Sys2Proof.Machine.execBlockEncode ctx xid part block s
  | .cdcTestGo die => Sys2Proof.Machine.execCdcTestGo die s
  | .cdcTestDone die => Sys2Proof.Machine.execCdcTestDone die s
  | .cdcGenGo die => Sys2Proof.Machine.execCdcGenGo die s
  | .cdcGenDone die => Sys2Proof.Machine.execCdcGenDone die s
  | .descriptorStart die tile ctx xid index words => Sys2Proof.Machine.execDescriptorStart die tile ctx xid index words s
  | .descriptorEnd die tile => Sys2Proof.Machine.execDescriptorEnd die tile s
  | .sequencerError die tile cls => Sys2Proof.Machine.execSequencerError die tile cls s
  | .tileFail die phys cls => Sys2Proof.Machine.execTileFail die phys cls s
  | .tileSwap die bad => Sys2Proof.Machine.execTileSwap die bad s
  | .engineSwitch die tile ctx => Sys2Proof.Machine.execEngineSwitch die tile ctx s
  | .engineSwitchDone die tile ok lateNs => Sys2Proof.Machine.execEngineSwitchDone die tile ok lateNs s
  | .bankPromote die => Sys2Proof.Machine.execBankPromote die s
  | .syncWindowAccess die port0 port1 => Sys2Proof.Machine.execSyncWindowAccess die port0 port1 s
  | .syncCollideRepeat die => Sys2Proof.Machine.execSyncCollideRepeat die s
  | .sramUncorrectable die addr dest => Sys2Proof.Machine.execSramUncorrectable die addr dest s
  | .shelfDenied die => Sys2Proof.Machine.execShelfDenied die s
  | .shelfWipe die => Sys2Proof.Machine.execShelfWipe die s
  | .shelfWipeDone die => Sys2Proof.Machine.execShelfWipeDone die s
  | .pghRetain die => Sys2Proof.Machine.execPghRetain die s
  | .pghWake die => Sys2Proof.Machine.execPghWake die s
  | .pghWakeDone die => Sys2Proof.Machine.execPghWakeDone die s
  | .pghAllocWrite die ctx value => Sys2Proof.Machine.execPghAllocWrite die ctx value s
  | .pghWinAccess ctx n value => Sys2Proof.Machine.execPghWinAccess ctx n value s
  | .stackTrainAttempt mdie stack ok timeMs failCh => Sys2Proof.Machine.execStackTrainAttempt mdie stack ok timeMs failCh s
  | .stackErrorPoll reports => Sys2Proof.Machine.execStackErrorPoll reports s
  | .sectorTagFail mdie sector secondOk reader => Sys2Proof.Machine.execSectorTagFail mdie sector secondOk reader s
  | .vltFillGo ctx => Sys2Proof.Machine.execVltFillGo ctx s
  | .vltFillDone ctx => Sys2Proof.Machine.execVltFillDone ctx s
  | .vltRegWrite ctx k value => Sys2Proof.Machine.execVltRegWrite ctx k value s
  | .vltOptlayoutWrite ctx value => Sys2Proof.Machine.execVltOptlayoutWrite ctx value s
  | .vltOptSetWrite ctx set reg value => Sys2Proof.Machine.execVltOptSetWrite ctx set reg value s
  | .vltWinAccess ctx n value => Sys2Proof.Machine.execVltWinAccess ctx n value s
  | .mergeBlockComplete ctx xid block => Sys2Proof.Machine.execMergeBlockComplete ctx xid block s
  | .selfRefreshEntry => Sys2Proof.Machine.execSelfRefreshEntry s
  | .ctxAssign ctx => Sys2Proof.Machine.execCtxAssign ctx s
  | .ctxRelease ctx => Sys2Proof.Machine.execCtxRelease ctx s
  | .releaseDrained ctx => Sys2Proof.Machine.execReleaseDrained ctx s
  | .releaseScrubDone ctx ns => Sys2Proof.Machine.execReleaseScrubDone ctx ns s
  | .cryptoEraseDone ctx ns => Sys2Proof.Machine.execCryptoEraseDone ctx ns s
  | .releaseComplete ctx => Sys2Proof.Machine.execReleaseComplete ctx s
  | .ctxBind index ctx tenantClosed => Sys2Proof.Machine.execCtxBind index ctx tenantClosed s
  | .ctxSeedWrite ctx half value => Sys2Proof.Machine.execCtxSeedWrite ctx half value s
  | .ctxMapWrite ctx value => Sys2Proof.Machine.execCtxMapWrite ctx value s
  | .getVersion sess => Sys2Proof.Machine.execGetVersion sess s
  | .getCapabilities sess => Sys2Proof.Machine.execGetCapabilities sess s
  | .negotiateAlgorithms sess supported => Sys2Proof.Machine.execNegotiateAlgorithms sess supported s
  | .getDigests sess => Sys2Proof.Machine.execGetDigests sess s
  | .getCertificate sess slot offset len => Sys2Proof.Machine.execGetCertificate sess slot offset len s
  | .challenge sess slot nonce => Sys2Proof.Machine.execChallenge sess slot nonce s
  | .getMeasurements sess index signed => Sys2Proof.Machine.execGetMeasurements sess index signed s
  | .keyExchange id ek => Sys2Proof.Machine.execKeyExchange id ek s
  | .finish sess macOk => Sys2Proof.Machine.execFinish sess macOk s
  | .heartbeat sess => Sys2Proof.Machine.execHeartbeat sess s
  | .keyUpdate sess => Sys2Proof.Machine.execKeyUpdate sess s
  | .endSession sess => Sys2Proof.Machine.execEndSession sess s
  | .chunkSend sess handle seq last data => Sys2Proof.Machine.execChunkSend sess handle seq last data s
  | .chunkGet sess handle seq => Sys2Proof.Machine.execChunkGet sess handle seq s
  | .getEncapsulatedRequest sess => Sys2Proof.Machine.execGetEncapsulatedRequest sess s
  | .deliverEncapsulatedResponse sess ok root => Sys2Proof.Machine.execDeliverEncapsulatedResponse sess ok root s
  | .spdmUnsupported sess code => Sys2Proof.Machine.execSpdmUnsupported sess code s
  | .spdmSessionTimeout sess => Sys2Proof.Machine.execSpdmSessionTimeout sess s
  | .admitSess sess => Sys2Proof.Machine.execAdmitSess sess s
  | .setCredential sess role ctx cred => Sys2Proof.Machine.execSetCredential sess role ctx cred s
  | .keyRelease sess req => Sys2Proof.Machine.execKeyRelease sess req s
  | .keyRevoke sess ctx keyId => Sys2Proof.Machine.execKeyRevoke sess ctx keyId s
  | .vaultImport sess req => Sys2Proof.Machine.execVaultImport sess req s
  | .deliver sess ctx keyId first count => Sys2Proof.Machine.execDeliver sess ctx keyId first count s
  | .keyStatus sess ctx => Sys2Proof.Machine.execKeyStatus sess ctx s
  | .akCertSigned ms => Sys2Proof.Machine.execAkCertSigned ms s
  | .guardianReport die fuse serial fw => Sys2Proof.Machine.execGuardianReport die fuse serial fw s
  | .guardianReportMissing die => Sys2Proof.Machine.execGuardianReportMissing die s
  | .evidenceMessage ev chain => Sys2Proof.Machine.execEvidenceMessage ev chain s
  | .evidenceTimeout ctx keyId lid => Sys2Proof.Machine.execEvidenceTimeout ctx keyId lid s
  | .evidenceResetRetry ctx keyId lid => Sys2Proof.Machine.execEvidenceResetRetry ctx keyId lid s
  | .keywrapConfirmTimeout ctx keyId lid => Sys2Proof.Machine.execKeywrapConfirmTimeout ctx keyId lid s
  | .keyRedeliver ctx lid => Sys2Proof.Machine.execKeyRedeliver ctx lid s
  | .pairKeyRelease ctx keyId partner => Sys2Proof.Machine.execPairKeyRelease ctx keyId partner s
  | .commandResetWaitTimeout => Sys2Proof.Machine.execCommandResetWaitTimeout s
  | .nonceBindingExpiry ctx lid => Sys2Proof.Machine.execNonceBindingExpiry ctx lid s
  | .deliveryCallTimeout ctx keyId lid => Sys2Proof.Machine.execDeliveryCallTimeout ctx keyId lid s
  | .tamperDetect cause => Sys2Proof.Machine.execTamperDetect cause s
  | .lcsSeal confirm => Sys2Proof.Machine.execLcsSeal confirm s
  | .lcsReturn confirm => Sys2Proof.Machine.execLcsReturn confirm s
  | .ethFrame f => Sys2Proof.Machine.execEthFrame f s
  | .mkaFrame icvOk sak => Sys2Proof.Machine.execMkaFrame icvOk sak s
  | .hostLinkLoss => Sys2Proof.Machine.execHostLinkLoss s
  | .beyjoSpdm src port => Sys2Proof.Machine.execBeyjoSpdm src port s
  | .beyjoOpen src role ctx notifyPort nh => Sys2Proof.Machine.execBeyjoOpen src role ctx notifyPort nh s
  | .beyjoProof session proof => Sys2Proof.Machine.execBeyjoProof session proof s
  | .challengeExpiry index => Sys2Proof.Machine.execChallengeExpiry index s
  | .beyjoRequest session seq tagOk ops => Sys2Proof.Machine.execBeyjoRequest session seq tagOk ops s
  | .opRead index address count => Sys2Proof.Machine.execOpRead index address count s
  | .opWrite index address words => Sys2Proof.Machine.execOpWrite index address words s
  | .opKeepalive index => Sys2Proof.Machine.execOpKeepalive index s
  | .opFilter index mask => Sys2Proof.Machine.execOpFilter index mask s
  | .notifyAck session seq tagOk => Sys2Proof.Machine.execNotifyAck session seq tagOk s
  | .beyjoClose session tagOk => Sys2Proof.Machine.execBeyjoClose session tagOk s
  | .sessionIdleTimeout index => Sys2Proof.Machine.execSessionIdleTimeout index s
  | .byjCloseWrite index => Sys2Proof.Machine.execByjCloseWrite index s
  | .notifySend index => Sys2Proof.Machine.execNotifySend index s
  | .notifyResend index seq => Sys2Proof.Machine.execNotifyResend index seq s
  | .genModeWrite value => Sys2Proof.Machine.execGenModeWrite value s
  | .mslSlotWrite index slot w value => Sys2Proof.Machine.execMslSlotWrite index slot w value s
  | .mailScan => Sys2Proof.Machine.execMailScan s
  | .mailNop index slot => Sys2Proof.Machine.execMailNop index slot s
  | .mailReserved index slot => Sys2Proof.Machine.execMailReserved index slot s
  | .rodLoad index slot => Sys2Proof.Machine.execRodLoad index slot s
  | .mailDump index slot => Sys2Proof.Machine.execMailDump index slot s
  | .fwStage index slot sigOk flashOk => Sys2Proof.Machine.execFwStage index slot sigOk flashOk s
  | .mailRemap index slot => Sys2Proof.Machine.execMailRemap index slot s
  | .evidencePut index slot ev chain => Sys2Proof.Machine.execEvidencePut index slot ev chain s
  | .mailHandover index slot => Sys2Proof.Machine.execMailHandover index slot s
  | .detectorEvent site source stamp detail ctx => Sys2Proof.Machine.execDetectorEvent site source stamp detail ctx s
  | .eventDecide site stamp => Sys2Proof.Machine.execEventDecide site stamp s
  | .faultCell cell => Sys2Proof.Machine.execFaultCell cell s
  | .pgFaultClear site page mask => Sys2Proof.Machine.execPgFaultClear site page mask s
  | .fltClearFirst site => Sys2Proof.Machine.execFltClearFirst site s
  | .fltClearLog site => Sys2Proof.Machine.execFltClearLog site s
  | .fltChoice choice => Sys2Proof.Machine.execFltChoice choice s
  | .policyWaitExpiry => Sys2Proof.Machine.execPolicyWaitExpiry s
  | .reactionWindowEnd serial => Sys2Proof.Machine.execReactionWindowEnd serial s
  | .thermalTrip => Sys2Proof.Machine.execThermalTrip s
  | .thermalRecover => Sys2Proof.Machine.execThermalRecover s
  | .tempSample die sensor celsius => Sys2Proof.Machine.execTempSample die sensor celsius s
  | .stackTempRead mdie stack celsius => Sys2Proof.Machine.execStackTempRead mdie stack celsius s
  | .pgJigGo site page => Sys2Proof.Machine.execPgJigGo site page s
  | .jigArmWrite site value => Sys2Proof.Machine.execJigArmWrite site value s
  | .jigArmTimeout site => Sys2Proof.Machine.execJigArmTimeout site s
  | .fltDllClear die => Sys2Proof.Machine.execFltDllClear die s
  | .watchdogHang block die => Sys2Proof.Machine.execWatchdogHang block die s
  | .selfSnapshot block die => Sys2Proof.Machine.execSelfSnapshot block die s
  | .dumpReadTimeout => Sys2Proof.Machine.execDumpReadTimeout s
  | .dumpBudgetExpiry => Sys2Proof.Machine.execDumpBudgetExpiry s
  | .agentDump fid pages failed => Sys2Proof.Machine.execAgentDump fid pages failed s
  | .rstGo block die domain => Sys2Proof.Machine.execRstGo block die domain s
  | .resetComplete checkOk us => Sys2Proof.Machine.execResetComplete checkOk us s
  | .holdRearm ctx restoreEnd keyEnd => Sys2Proof.Machine.execHoldRearm ctx restoreEnd keyEnd s
  | .memberLostLinks ctx lid => Sys2Proof.Machine.execMemberLostLinks ctx lid s
  | .memberLostReset ctx lid => Sys2Proof.Machine.execMemberLostReset ctx lid s
  | .restoreStreamEnd ctx lid counts => Sys2Proof.Machine.execRestoreStreamEnd ctx lid counts s
  | .parwrCell cell => Sys2Proof.Machine.execParwrCell cell s
  | .parackCell cell => Sys2Proof.Machine.execParackCell cell s
  | .parackPeriodic => Sys2Proof.Machine.execParackPeriodic s
  | .batchResend => Sys2Proof.Machine.execBatchResend s
  | .generationBegin => Sys2Proof.Machine.execGenerationBegin s
  | .commitAckTimeout => Sys2Proof.Machine.execCommitAckTimeout s
  | .syncMsExpiry => Sys2Proof.Machine.execSyncMsExpiry s
  | .parSync => Sys2Proof.Machine.execParSync s
  | .parFull => Sys2Proof.Machine.execParFull s
  | .vaultMirror n => Sys2Proof.Machine.execVaultMirror n s
  | .renewTimer => Sys2Proof.Machine.execRenewTimer s
  | .leaseRenew site cell => Sys2Proof.Machine.execLeaseRenew site cell s
  | .leaseGrant cell => Sys2Proof.Machine.execLeaseGrant cell s
  | .leaseTakeover site cell => Sys2Proof.Machine.execLeaseTakeover site cell s
  | .leaseTakeoverGrant cell => Sys2Proof.Machine.execLeaseTakeoverGrant cell s
  | .leaseRefuse cell => Sys2Proof.Machine.execLeaseRefuse cell s
  | .leaseRelease site cell => Sys2Proof.Machine.execLeaseRelease site cell s
  | .leaseMove site cell => Sys2Proof.Machine.execLeaseMove site cell s
  | .leaseExpiry => Sys2Proof.Machine.execLeaseExpiry s
  | .takeoverTrigger => Sys2Proof.Machine.execTakeoverTrigger s
  | .refereeStartingEnd site domain => Sys2Proof.Machine.execRefereeStartingEnd site domain s
  | .leaseMoveTrigger => Sys2Proof.Machine.execLeaseMoveTrigger s
  | .takeoverReconcile reports newTags oldTags => Sys2Proof.Machine.execTakeoverReconcile reports newTags oldTags s
  | .takeoverCdieReady ok => Sys2Proof.Machine.execTakeoverCdieReady ok s
  | .takeoverLoadDone => Sys2Proof.Machine.execTakeoverLoadDone s
  | .takeoverRearm => Sys2Proof.Machine.execTakeoverRearm s
  | .handoverPaused => Sys2Proof.Machine.execHandoverPaused s
  | .handoverPauseTimeout => Sys2Proof.Machine.execHandoverPauseTimeout s
  | .handoverReleaseTimeout => Sys2Proof.Machine.execHandoverReleaseTimeout s
  | .unitReturn partner => Sys2Proof.Machine.execUnitReturn partner s
  | .porstNLow => Sys2Proof.Machine.execPorstNLow s
  | .porstNRelease fsel xspiSafe => Sys2Proof.Machine.execPorstNRelease fsel xspiSafe s
  | .sysrstNFall => Sys2Proof.Machine.execSysrstNFall s
  | .bootReady ms failed dead => Sys2Proof.Machine.execBootReady ms failed dead s
  | .timeRecordRestart beat => Sys2Proof.Machine.execTimeRecordRestart beat s
  | .timeRecordTimeout => Sys2Proof.Machine.execTimeRecordTimeout s
  | .fwDistribute => Sys2Proof.Machine.execFwDistribute s
  | .fwRepairRound reports => Sys2Proof.Machine.execFwRepairRound reports s
  | .fwActivateSend => Sys2Proof.Machine.execFwActivateSend s
  | .fwBegin cell => Sys2Proof.Machine.execFwBegin cell s
  | .fwData cell sigOk => Sys2Proof.Machine.execFwData cell sigOk s
  | .fwActivate cell => Sys2Proof.Machine.execFwActivate cell s
  | .fwActivateAt => Sys2Proof.Machine.execFwActivateAt s
  | .fwAbort site cell => Sys2Proof.Machine.execFwAbort site cell s
  | .rodCompare reports => Sys2Proof.Machine.execRodCompare reports s
  | .rodSilentTimeout fid => Sys2Proof.Machine.execRodSilentTimeout fid s
  | .cpwrGoodTimeout c => Sys2Proof.Machine.execCpwrGoodTimeout c s
  | .cpwrGoodChange c high => Sys2Proof.Machine.execCpwrGoodChange c high s
  | .railOutOfWindow rail die n mv tamper => Sys2Proof.Machine.execRailOutOfWindow rail die n mv tamper s
  | .pwrBudgetWrite value => Sys2Proof.Machine.execPwrBudgetWrite value s
  | .pgLockWrite site page value => Sys2Proof.Machine.execPgLockWrite site page value s
  | .agentTargetWrite addr value => Sys2Proof.Machine.execAgentTargetWrite addr value s
  | .iaPorstN => Sys2Proof.Machine.execIaPorstN s
  | .iaTamperN => Sys2Proof.Machine.execIaTamperN s
  | .agentFidWrite value => Sys2Proof.Machine.execAgentFidWrite value s
  | .agentFwGo sigOk => Sys2Proof.Machine.execAgentFwGo sigOk s
  | .mreqRead cell => Sys2Proof.Machine.execMreqRead cell s
  | .mreqWrite cell => Sys2Proof.Machine.execMreqWrite cell s
  | .orphanCell site cell => Sys2Proof.Machine.execOrphanCell site cell s
  | .agentArm => Sys2Proof.Machine.execAgentArm s
  | .agentDisarm => Sys2Proof.Machine.execAgentDisarm s
  | .ttbLlenWrite value => Sys2Proof.Machine.execTtbLlenWrite value s
  | .ttbEvtRead => Sys2Proof.Machine.execTtbEvtRead s
  | .cdcJobGo => Sys2Proof.Machine.execCdcJobGo s
  | .cdcJobDone bufferOk => Sys2Proof.Machine.execCdcJobDone bufferOk s
  | .measStart => Sys2Proof.Machine.execMeasStart s
  | .measInWrite value => Sys2Proof.Machine.execMeasInWrite value s
  | .measDone => Sys2Proof.Machine.execMeasDone s
  | .certLock => Sys2Proof.Machine.execCertLock s
  | .evreqGo requester => Sys2Proof.Machine.execEvreqGo requester s
  | .evidenceFormed => Sys2Proof.Machine.execEvidenceFormed s
  | .decapKeyExpiry => Sys2Proof.Machine.execDecapKeyExpiry s
  | .keywrapCell kw => Sys2Proof.Machine.execKeywrapCell kw s
  | .keySidebandAck ack => Sys2Proof.Machine.execKeySidebandAck ack s
  | .keySidebandTimeout => Sys2Proof.Machine.execKeySidebandTimeout s
  | .agentRstGo domain block => Sys2Proof.Machine.execAgentRstGo domain block s
  | .rstReqGo domain block => Sys2Proof.Machine.execRstReqGo domain block s
  | .hcResetHoldEnd => Sys2Proof.Machine.execHcResetHoldEnd s
  | .hcRstDone => Sys2Proof.Machine.execHcRstDone s
  | .hcDoneTimeout => Sys2Proof.Machine.execHcDoneTimeout s
  | .restoreCell cell bErr => Sys2Proof.Machine.execRestoreCell cell bErr s
  | .rchunkClear => Sys2Proof.Machine.execRchunkClear s
  | .rstatEnd => Sys2Proof.Machine.execRstatEnd s
  | .bufferError cidx => Sys2Proof.Machine.execBufferError cidx s
  | .dumpComplete us => Sys2Proof.Machine.execDumpComplete us s
  | .iaPorstNRelease bclkMhz => Sys2Proof.Machine.execIaPorstNRelease bclkMhz s
  | .railWindowEntry rail => Sys2Proof.Machine.execRailWindowEntry rail s
  | .hostLinkUp => Sys2Proof.Machine.execHostLinkUp s
  | .signatureDone us => Sys2Proof.Machine.execSignatureDone us s
  | .vaultImportDone ctx => Sys2Proof.Machine.execVaultImportDone ctx s
  | .standbyWarmDone => Sys2Proof.Machine.execStandbyWarmDone s
  | .takeoverRequestRepeat => Sys2Proof.Machine.execTakeoverRequestRepeat s

end Sys2Proof.Machine
end

