-- ==== Sys2Proof/Safety.lean ====
section
/-! DEFINITION. What counts as a sound state, what no command does to the queue and the outbox, and the parts of the state a command may reach. -/

namespace Sys2Proof.Machine

/-- A table whose keys rise strictly: every key is stored at most once. -/
def Table.sorted (t : Table) : Prop := t.Pairwise fun a b => a.1 < b.1

/-- The memories of the C-dies are in canonical form. -/
abbrev TileSt.wf (t : TileSt) : Prop := Mem.wf t.tileSram ∧ Mem.wf t.staging ∧ Mem.wf t.pgh

/-- The HBM is in canonical form. -/
abbrev HbmSt.wf (h : HbmSt) : Prop := Mem.wf h.mem

/-- The pair's store is in canonical form. -/
abbrev PairSt.wf (p : PairSt) : Prop := Mem.wf p.store

/-- The load buffer is in canonical form. -/
abbrev BootSt.wf (b : BootSt) : Prop := Mem.wf b.load

/-- The agent's memories are in canonical form. -/
abbrev AgSt.wf (a : AgSt) : Prop :=
  Mem.wf a.list ∧ Mem.wf a.steps ∧ Mem.wf a.certs ∧ Mem.wf a.evBuf ∧ Mem.wf a.load ∧ Mem.wf a.hostMem

/-- A sound state: both register stores are sorted, every memory is in canonical form, and the machine has the ports, executors and
contexts that the spec gives it (96 ports of the unit, R19; at most 64 of the agent, R465; 16 contexts, R266). -/
structure State.Sound (s : State) : Prop where
  regs : Table.sorted s.regs
  aregs : Table.sorted s.aregs
  ports : s.ports.length = 96
  agPorts : s.agPorts.length = 64
  ttbs : s.ttbs.length = 16
  ctxs : s.ctxs.length = 16
  tile : s.tile.wf
  hbm : s.hbm.wf
  pair : s.pair.wf
  boot : s.boot.wf
  ag : s.ag.wf

/-- What every command keeps: soundness and the waiting commands; the outbox only grows at its end, and free values are only taken. -/
structure Kept (s t : State) : Prop where
  sound : s.Sound → t.Sound
  queue : t.pending = s.pending
  sent : s.out <+: t.out
  free : s.freeCtr ≤ t.freeCtr

/-- The parts of the state beside the queue. -/
inductive Area where
  /-- The unit's register fields. -/
  | regs
  /-- The agent's register fields. -/
  | aregs
  /-- The unit's timekeeper. -/
  | time
  /-- The agent's timekeeper. -/
  | agTime
  /-- The unit's ports. -/
  | ports
  /-- The agent's ports. -/
  | agPorts
  /-- Cells kept for replay between dies. -/
  | replays
  /-- The unit's Rod and route machinery. -/
  | route
  /-- The agent's Rod. -/
  | agRoute
  /-- The timetable executors. -/
  | ttbs
  /-- The agents known to the unit. -/
  | agents
  /-- Exchange instances. -/
  | insts
  /-- Tile spaces and tile groups. -/
  | tile
  /-- HBM and the context memory machinery. -/
  | hbm
  /-- Contexts. -/
  | ctxs
  /-- Root of trust. -/
  | rot
  /-- Host sessions of the management die. -/
  | beyjo
  /-- The unit's fault collector. -/
  | flt
  /-- The agent's fault collector. -/
  | agFlt
  /-- Reset domains. -/
  | rst
  /-- The pair. -/
  | pair
  /-- Boot and firmware. -/
  | boot
  /-- Power. -/
  | pwr
  /-- The agent's own machinery. -/
  | ag
  /-- What was sent out. -/
  | out
  /-- The count of free values taken. -/
  | freeCtr
  deriving DecidableEq, Repr

/-- The part holds in `t` what it held in `s`. -/
def Area.same (s t : State) : Area → Prop
  | .regs => t.regs = s.regs
  | .aregs => t.aregs = s.aregs
  | .time => t.time = s.time
  | .agTime => t.agTime = s.agTime
  | .ports => t.ports = s.ports
  | .agPorts => t.agPorts = s.agPorts
  | .replays => t.replays = s.replays
  | .route => t.route = s.route
  | .agRoute => t.agRoute = s.agRoute
  | .ttbs => t.ttbs = s.ttbs
  | .agents => t.agents = s.agents
  | .insts => t.insts = s.insts
  | .tile => t.tile = s.tile
  | .hbm => t.hbm = s.hbm
  | .ctxs => t.ctxs = s.ctxs
  | .rot => t.rot = s.rot
  | .beyjo => t.beyjo = s.beyjo
  | .flt => t.flt = s.flt
  | .agFlt => t.agFlt = s.agFlt
  | .rst => t.rst = s.rst
  | .pair => t.pair = s.pair
  | .boot => t.boot = s.boot
  | .pwr => t.pwr = s.pwr
  | .ag => t.ag = s.ag
  | .out => t.out = s.out
  | .freeCtr => t.freeCtr = s.freeCtr

/-- `t` is kept from `s` and differs from it in parts of `ps` alone. -/
structure Within (ps : List Area) (s t : State) : Prop where
  kept : Kept s t
  same : ∀ p, p ∉ ps → p.same s t

/-- Every register field of the unit that shares no place with a field of `fs` reads in `t` as in `s`. -/
def RegsBut (fs : List Fld) (s t : State) : Prop := ∀ g : Fld, (∀ f ∈ fs, g.key ≠ f.key) → t.rd g = s.rd g

/-- Every register field of the agent that shares no place with a field of `fs` reads in `t` as in `s`. -/
def AregsBut (fs : List Fld) (s t : State) : Prop := ∀ g : Fld, (∀ f ∈ fs, g.key ≠ f.key) → t.ard g = s.ard g

/-- The parts of the state that each command may reach. -/
def reach : Instr → List Area
  | .registerWrite _ _ => [.regs, .aregs, .time, .agTime, .ports, .agPorts, .replays, .route, .ttbs, .agents, .insts, .tile, .hbm, .ctxs, .rot, .beyjo, .flt, .agFlt, .rst, .pair, .boot, .pwr, .out, .freeCtr]
  | .tmkEnableWrite _ => [.regs, .time, .beyjo, .boot]
  | .tmkStep => [.regs, .flt, .agFlt]
  | .counterStep => [.regs, .time, .ttbs, .beyjo]
  | .tmkPeriodNextWrite _ _ => [.regs, .time]
  | .periodAnnounceBegin => [.time]
  | .periodChange => [.regs, .aregs, .time, .ports, .agPorts, .route, .ttbs, .tile, .ctxs, .rot, .beyjo, .flt, .agFlt, .rst, .pair, .boot, .out, .freeCtr]
  | .ppsEdge _ _ _ => [.regs, .time, .ttbs, .beyjo, .flt, .agFlt]
  | .ptpSync _ _ _ _ _ => [.regs, .time, .ttbs, .beyjo, .flt, .agFlt, .out]
  | .ptpAnnounce _ _ => [.regs, .time, .beyjo, .flt, .agFlt]
  | .ppsMissing => [.regs, .time, .beyjo, .flt, .agFlt]
  | .cadenceRefLoss => [.regs, .time, .beyjo, .flt, .agFlt]
  | .syncTimeout => [.regs, .time, .beyjo, .flt, .agFlt]
  | .xdomUnsafe => [.regs, .beyjo, .flt, .agFlt]
  | .slewCorrection => [.regs, .time, .ttbs, .beyjo]
  | .todAdvance => [.regs]
  | .beatBoundary _ => [.regs, .aregs, .time, .agTime, .ports, .agPorts, .route, .ttbs, .tile, .ctxs, .rot, .beyjo, .flt, .agFlt, .rst, .pair, .boot, .ag, .out, .freeCtr]
  | .beatWord _ _ _ _ _ => [.regs, .aregs, .time, .agTime, .ports, .agPorts, .flt, .agFlt, .pair, .ag]
  | .beatWordMiss => [.aregs, .agTime, .flt, .agFlt]
  | .orphanEntry => [.regs, .aregs, .agTime, .ports, .agPorts, .flt, .agFlt, .ag]
  | .orphanReportRepeat => [.regs, .aregs, .ports, .agPorts, .flt, .agFlt]
  | .codeword _ _ _ => [.regs, .aregs, .ports, .agPorts, .flt, .agFlt]
  | .creditWord _ _ _ => [.ports, .agPorts]
  | .sentWord _ _ _ => [.regs, .aregs, .ports, .agPorts]
  | .probeWord _ _ _ _ => [.ports, .agPorts, .out]
  | .probeReplyWord _ _ _ _ => [.regs, .aregs, .ports, .agPorts]
  | .identWord _ _ _ => [.regs, .aregs, .ports, .agPorts, .flt, .agFlt, .out]
  | .periodWord _ _ _ => [.agTime]
  | .frameTag _ _ _ _ _ => [.regs, .aregs, .agTime, .ports, .agPorts, .route, .flt, .agFlt, .pair, .boot, .out]
  | .trainStageDone _ _ _ => [.regs, .aregs, .ports, .agPorts, .route, .flt, .agFlt, .pair, .boot, .out, .freeCtr]
  | .trainStageTimeout _ _ => [.regs, .aregs, .ports, .agPorts, .flt, .agFlt, .out]
  | .trainRetry _ _ => [.regs, .aregs, .ports, .agPorts, .out]
  | .unpark _ _ => [.regs, .aregs, .ports, .agPorts, .out]
  | .retrain _ _ => [.regs, .aregs, .agTime, .ports, .agPorts, .route, .flt, .agFlt, .pair, .boot, .out]
  | .portDisable _ _ _ => [.regs, .aregs, .agTime, .ports, .agPorts, .route, .flt, .agFlt, .pair, .boot, .out]
  | .noCorrectableCodeword _ _ => [.regs, .aregs, .agTime, .ports, .agPorts, .route, .flt, .agFlt, .pair, .boot, .out]
  | .electricalIdleDetect _ _ => [.regs, .aregs, .agTime, .ports, .agPorts, .route, .flt, .agFlt, .pair, .boot, .out]
  | .cellSend _ _ _ => [.regs, .aregs, .ports, .agPorts, .ttbs, .flt, .agFlt, .out]
  | .cellForward _ _ _ => [.regs, .aregs, .ports, .agPorts, .route, .flt, .agFlt, .out]
  | .escapeThreshold _ _ _ _ => [.regs, .aregs, .ports, .agPorts, .flt, .agFlt]
  | .dovetailNak _ _ _ => [.regs, .aregs, .replays, .flt, .agFlt, .out]
  | .linkKeyChange _ _ => [.regs, .aregs, .ports, .agPorts, .out]
  | .putCell _ _ _ => [.regs, .aregs, .flt, .agFlt, .ag]
  | .resultCell _ _ _ => [.regs, .aregs, .flt, .agFlt, .ag]
  | .contribCell _ _ => [.regs, .aregs, .insts, .hbm, .flt, .agFlt]
  | .mrspCell _ => [.regs, .aregs, .time, .agTime, .ports, .agPorts, .replays, .route, .ttbs, .agents, .insts, .tile, .hbm, .ctxs, .rot, .beyjo, .flt, .agFlt, .rst, .pair, .boot, .pwr, .out, .freeCtr]
  | .mgmtTimeout _ => [.regs, .aregs, .time, .agTime, .ports, .agPorts, .replays, .route, .ttbs, .agents, .insts, .tile, .hbm, .ctxs, .rot, .beyjo, .flt, .agFlt, .rst, .pair, .boot, .pwr, .out, .freeCtr]
  | .mgmtRetry _ => [.regs, .aregs, .ports, .agPorts, .route, .flt, .agFlt, .out]
  | .routeCompute => [.regs, .aregs, .ports, .agPorts, .route, .ttbs, .beyjo, .flt, .agFlt, .pair, .out]
  | .rteCheck => [.regs, .route]
  | .rteStart _ => [.regs, .aregs, .ports, .agPorts, .route, .ttbs, .beyjo, .flt, .agFlt, .pair, .out]
  | .rteAbort => [.regs, .aregs, .ports, .agPorts, .route, .ttbs, .beyjo, .flt, .agFlt, .pair, .out]
  | .flipPrepareDone => [.regs, .aregs, .ports, .agPorts, .route, .flt, .agFlt, .pair, .out]
  | .prepTimeout => [.regs, .aregs, .ports, .agPorts, .route, .ttbs, .beyjo, .flt, .agFlt, .pair, .out]
  | .quietEntry _ => [.regs, .aregs, .route]
  | .pollRound _ => [.regs, .aregs, .time, .ports, .agPorts, .route, .ttbs, .insts, .ctxs, .beyjo, .flt, .agFlt, .rst, .pair, .out]
  | .flipRecordConfirm => [.regs, .aregs, .ports, .agPorts, .route, .flt, .agFlt, .pair, .out]
  | .commitCell _ _ _ => [.regs, .aregs, .ports, .agPorts, .route, .agRoute, .flt, .agFlt, .pair]
  | .abortCell _ _ _ => [.regs, .aregs, .ports, .agPorts, .route, .agRoute, .flt, .agFlt, .pair, .out]
  | .flipBeat _ => [.regs, .aregs, .ports, .agPorts, .route, .agRoute, .flt, .agFlt, .out]
  | .flipResume _ => [.regs, .aregs, .agRoute, .ttbs, .beyjo, .ag]
  | .commitResend _ => [.regs, .aregs, .ports, .agPorts, .route, .flt, .agFlt, .out]
  | .flipFallback => [.regs, .aregs, .ports, .agPorts, .route, .ttbs, .beyjo, .flt, .agFlt, .pair, .out]
  | .fallbackRetry => [.regs, .aregs, .ports, .agPorts, .route, .flt, .agFlt, .pair, .out]
  | .safeStateEntry => [.aregs, .flt, .agFlt]
  | .ttbCheck _ => [.regs, .aregs, .ports, .agPorts, .route, .ttbs, .flt, .agFlt, .out]
  | .ttbCheckDone _ => [.regs, .ttbs, .beyjo]
  | .ttbArm _ => [.regs, .aregs, .time, .ports, .agPorts, .route, .ttbs, .insts, .flt, .agFlt, .out]
  | .armDeadline _ _ => [.regs, .aregs, .ports, .agPorts, .route, .ttbs, .beyjo, .flt, .agFlt, .out]
  | .armStart _ _ => [.regs, .aregs, .beyjo, .flt, .agFlt, .ag]
  | .ttbStop _ => [.ttbs]
  | .ttbDisarm _ => [.regs, .aregs, .ports, .agPorts, .route, .ttbs, .insts, .tile, .hbm, .beyjo, .flt, .agFlt, .out]
  | .ttbVoid _ => [.regs, .ttbs]
  | .ttbUnload _ => [.regs, .ttbs]
  | .stepBoundary _ _ => [.regs, .aregs, .route, .ttbs, .insts, .tile, .hbm, .beyjo, .flt, .agFlt, .ag]
  | .instanceOpen _ => [.regs, .insts, .tile, .hbm]
  | .exchangeDeadlineCheck _ _ => [.regs, .ttbs, .insts]
  | .counterDeadlineCheck _ => [.regs, .aregs, .ports, .agPorts, .flt, .agFlt, .ag, .out]
  | .stepmissCell _ => [.regs, .aregs, .ports, .agPorts, .ttbs, .insts, .tile, .hbm, .beyjo, .flt, .agFlt, .out]
  | .voidSend _ => [.regs, .aregs, .ports, .agPorts, .ttbs, .insts, .tile, .hbm, .beyjo, .flt, .agFlt, .out]
  | .voidRepeat _ => [.regs, .aregs, .ports, .agPorts, .ttbs, .flt, .agFlt, .out]
  | .voidCell _ _ => [.regs, .aregs, .ports, .agPorts, .ttbs, .flt, .agFlt, .ag]
  | .voidConfirmRound _ _ => [.regs, .aregs, .ports, .agPorts, .ttbs, .insts, .tile, .hbm, .beyjo, .flt, .agFlt, .out]
  | .rollback _ _ => [.regs, .aregs, .ttbs, .insts, .tile, .hbm, .beyjo, .flt, .agFlt, .ag]
  | .restartBeat _ _ => [.regs, .aregs, .ports, .agPorts, .ttbs, .insts, .tile, .hbm, .beyjo, .flt, .agFlt, .ag, .out]
  | .stepCommit _ _ => [.regs, .aregs, .ports, .agPorts, .ttbs, .insts, .tile, .hbm, .beyjo, .flt, .agFlt, .ag, .out]
  | .cmapCollect _ _ => [.regs, .ttbs]
  | .cmapClear _ => [.ttbs]
  | .energyWindow _ => [.regs, .flt, .agFlt]
  | .instanceReady _ _ => [.regs, .ttbs, .insts, .tile, .hbm, .flt, .agFlt]
  | .resultSend _ _ => [.regs, .aregs, .ports, .agPorts, .ttbs, .insts, .flt, .agFlt]
  | .branchTransfer _ _ => [.regs, .aregs, .ports, .agPorts, .insts, .hbm, .flt, .agFlt, .out]
  | .routeCombineStage1 _ _ => [.regs, .insts, .tile, .hbm, .flt, .agFlt]
  | .engineError _ _ _ _ => [.regs, .ttbs, .insts, .flt, .agFlt]
  | .blockDecode _ _ _ _ _ => [.regs, .insts, .hbm, .flt, .agFlt]
  | .blockEncode _ _ _ _ => [.regs, .insts, .tile, .hbm]
  | .cdcTestGo _ => [.regs]
  | .cdcTestDone _ => [.regs]
  | .cdcGenGo _ => [.regs]
  | .cdcGenDone _ => [.regs]
  | .descriptorStart _ _ _ _ _ _ => [.regs, .ttbs, .insts, .tile, .flt, .agFlt]
  | .descriptorEnd _ _ => [.regs, .tile]
  | .sequencerError _ _ _ => [.regs, .ttbs, .insts, .tile, .flt, .agFlt]
  | .tileFail _ _ _ => [.regs, .ttbs, .insts, .tile, .flt, .agFlt]
  | .tileSwap _ _ => [.regs, .tile, .flt, .agFlt]
  | .engineSwitch _ _ _ => [.tile]
  | .engineSwitchDone _ _ _ _ => [.regs, .ttbs, .insts, .tile, .flt, .agFlt]
  | .bankPromote _ => [.regs]
  | .syncWindowAccess _ _ _ => [.regs, .tile, .flt, .agFlt]
  | .syncCollideRepeat _ => [.regs, .tile, .flt, .agFlt]
  | .sramUncorrectable _ _ _ => [.regs, .ttbs, .insts, .tile, .flt, .agFlt]
  | .shelfDenied _ => [.regs, .flt, .agFlt]
  | .shelfWipe _ => [.regs, .tile, .hbm, .rot]
  | .shelfWipeDone _ => [.regs, .tile, .hbm, .rot]
  | .pghRetain _ => [.regs]
  | .pghWake _ => [.regs]
  | .pghWakeDone _ => [.regs, .tile, .hbm, .rot]
  | .pghAllocWrite _ _ _ => [.regs]
  | .pghWinAccess _ _ _ => [.tile, .flt, .agFlt, .pair, .out]
  | .stackTrainAttempt _ _ _ _ _ => [.regs, .flt, .agFlt]
  | .stackErrorPoll _ => [.regs]
  | .sectorTagFail _ _ _ _ => [.regs, .ttbs, .insts, .hbm, .flt, .agFlt, .rst]
  | .vltFillGo _ => [.regs]
  | .vltFillDone _ => [.regs, .hbm]
  | .vltRegWrite _ _ _ => [.regs, .hbm]
  | .vltOptlayoutWrite _ _ => [.regs, .ttbs, .hbm, .ctxs]
  | .vltOptSetWrite _ _ _ _ => [.regs]
  | .vltWinAccess _ _ _ => [.regs, .ttbs, .insts, .hbm, .flt, .agFlt, .rst, .out]
  | .mergeBlockComplete _ _ _ => [.regs, .ttbs, .insts, .tile, .hbm, .flt, .agFlt]
  | .selfRefreshEntry => [.regs]
  | .ctxAssign _ => [.regs, .aregs, .ports, .agPorts, .route, .ttbs, .ctxs, .beyjo, .flt, .agFlt, .pair, .out]
  | .ctxRelease _ => [.regs, .aregs, .ports, .agPorts, .route, .ttbs, .tile, .ctxs, .rot, .beyjo, .flt, .agFlt, .rst, .pair, .out, .freeCtr]
  | .releaseDrained _ => [.regs, .aregs, .ports, .agPorts, .route, .ttbs, .insts, .tile, .hbm, .ctxs, .rot, .beyjo, .flt, .agFlt, .pair, .out, .freeCtr]
  | .releaseScrubDone _ _ => [.regs, .ttbs, .tile, .ctxs]
  | .cryptoEraseDone _ _ => [.regs, .ttbs, .hbm, .ctxs, .rot, .out]
  | .releaseComplete _ => [.regs, .ctxs, .beyjo, .pair]
  | .ctxBind _ _ _ => [.regs, .ctxs, .pair]
  | .ctxSeedWrite _ _ _ => [.ctxs]
  | .ctxMapWrite _ _ => [.ctxs]
  | .getVersion _ => [.regs, .rot, .out]
  | .getCapabilities _ => [.regs, .rot, .out]
  | .negotiateAlgorithms _ _ => [.regs, .rot, .out]
  | .getDigests _ => [.regs, .rot, .out]
  | .getCertificate _ _ _ _ => [.regs, .rot, .out]
  | .challenge _ _ _ => [.regs, .rot, .out]
  | .getMeasurements _ _ _ => [.regs, .rot, .out]
  | .keyExchange _ _ => [.regs, .rot, .out, .freeCtr]
  | .finish _ _ => [.regs, .tile, .rot, .beyjo, .rst, .pair, .out]
  | .heartbeat _ => [.regs, .rot, .out]
  | .keyUpdate _ => [.regs, .rot, .out]
  | .endSession _ => [.regs, .tile, .rot, .beyjo, .rst, .pair, .out]
  | .chunkSend _ _ _ _ _ => [.regs, .rot, .out]
  | .chunkGet _ _ _ => [.regs, .rot, .out]
  | .getEncapsulatedRequest _ => [.regs, .rot, .out]
  | .deliverEncapsulatedResponse _ _ _ => [.regs, .rot, .beyjo, .out]
  | .spdmUnsupported _ _ => [.regs, .out]
  | .spdmSessionTimeout _ => [.regs, .tile, .rot, .beyjo, .rst, .pair]
  | .admitSess _ => [.regs, .rot, .out]
  | .setCredential _ _ _ _ => [.regs, .tile, .rot, .beyjo, .rst, .pair, .out]
  | .keyRelease _ _ => [.regs, .rot, .pair, .out]
  | .keyRevoke _ _ _ => [.regs, .aregs, .ports, .agPorts, .route, .rot, .flt, .agFlt, .pair, .out, .freeCtr]
  | .vaultImport _ _ => [.regs, .rot, .flt, .agFlt, .out]
  | .deliver _ _ _ _ _ => [.regs, .aregs, .ports, .agPorts, .route, .ttbs, .tile, .ctxs, .rot, .beyjo, .flt, .agFlt, .rst, .pair, .out, .freeCtr]
  | .keyStatus _ _ => [.regs, .rot, .out]
  | .akCertSigned _ => [.regs]
  | .guardianReport _ _ _ _ => [.regs, .aregs, .ports, .agPorts, .route, .rot, .beyjo, .flt, .agFlt, .pair, .out, .freeCtr]
  | .guardianReportMissing _ => [.regs, .flt, .agFlt]
  | .evidenceMessage _ _ => [.regs, .aregs, .ports, .agPorts, .route, .ttbs, .tile, .ctxs, .rot, .beyjo, .flt, .agFlt, .rst, .pair, .out, .freeCtr]
  | .evidenceTimeout _ _ _ => [.regs, .aregs, .ports, .agPorts, .route, .ttbs, .tile, .ctxs, .rot, .beyjo, .flt, .agFlt, .rst, .pair, .out, .freeCtr]
  | .evidenceResetRetry _ _ _ => [.regs, .aregs, .ports, .agPorts, .route, .ttbs, .tile, .ctxs, .rot, .beyjo, .flt, .agFlt, .rst, .pair, .out, .freeCtr]
  | .keywrapConfirmTimeout _ _ _ => [.regs, .aregs, .ports, .agPorts, .route, .ttbs, .tile, .ctxs, .rot, .beyjo, .flt, .agFlt, .rst, .pair, .out, .freeCtr]
  | .keyRedeliver _ _ => [.regs, .aregs, .ports, .agPorts, .route, .ttbs, .tile, .ctxs, .rot, .beyjo, .flt, .agFlt, .rst, .pair, .out, .freeCtr]
  | .pairKeyRelease _ _ _ => [.regs, .tile, .hbm, .rot, .beyjo, .pair]
  | .commandResetWaitTimeout => [.regs, .rot, .out]
  | .nonceBindingExpiry _ _ => [.rot]
  | .deliveryCallTimeout _ _ _ => [.regs, .aregs, .ports, .agPorts, .route, .ttbs, .tile, .ctxs, .rot, .beyjo, .flt, .agFlt, .rst, .pair, .out, .freeCtr]
  | .tamperDetect _ => [.regs, .tile, .hbm, .rot, .beyjo, .flt, .agFlt, .rst, .pair]
  | .lcsSeal _ => [.regs, .aregs, .tile, .hbm, .rot, .beyjo, .flt, .agFlt, .rst, .pair]
  | .lcsReturn _ => [.regs, .aregs, .tile, .hbm, .rot, .beyjo, .flt, .agFlt, .rst, .pair]
  | .ethFrame _ => [.regs, .out]
  | .mkaFrame _ _ => [.regs, .beyjo]
  | .hostLinkLoss => [.regs, .flt, .agFlt]
  | .beyjoSpdm _ _ => [.beyjo]
  | .beyjoOpen _ _ _ _ _ => [.regs, .beyjo, .out, .freeCtr]
  | .beyjoProof _ _ => [.regs, .tile, .beyjo, .out]
  | .challengeExpiry _ => [.beyjo]
  | .beyjoRequest _ _ _ _ => [.regs, .aregs, .time, .agTime, .ports, .agPorts, .replays, .route, .ttbs, .agents, .insts, .tile, .hbm, .ctxs, .rot, .beyjo, .flt, .agFlt, .rst, .pair, .boot, .pwr, .out, .freeCtr]
  | .opRead _ _ _ => [.regs, .aregs, .time, .agTime, .ports, .agPorts, .replays, .route, .ttbs, .agents, .insts, .tile, .hbm, .ctxs, .rot, .beyjo, .flt, .agFlt, .rst, .pair, .boot, .pwr, .out, .freeCtr]
  | .opWrite _ _ _ => [.regs, .aregs, .time, .agTime, .ports, .agPorts, .replays, .route, .ttbs, .agents, .insts, .tile, .hbm, .ctxs, .rot, .beyjo, .flt, .agFlt, .rst, .pair, .boot, .pwr, .out, .freeCtr]
  | .opKeepalive _ => [.regs, .aregs, .time, .agTime, .ports, .agPorts, .replays, .route, .ttbs, .agents, .insts, .tile, .hbm, .ctxs, .rot, .beyjo, .flt, .agFlt, .rst, .pair, .boot, .pwr, .out, .freeCtr]
  | .opFilter _ _ => [.regs, .aregs, .time, .agTime, .ports, .agPorts, .replays, .route, .ttbs, .agents, .insts, .tile, .hbm, .ctxs, .rot, .beyjo, .flt, .agFlt, .rst, .pair, .boot, .pwr, .out, .freeCtr]
  | .notifyAck _ _ _ => [.regs, .beyjo]
  | .beyjoClose _ _ => [.regs, .tile, .beyjo, .rst, .pair]
  | .sessionIdleTimeout _ => [.regs, .tile, .beyjo, .rst, .pair]
  | .byjCloseWrite _ => [.regs, .tile, .beyjo, .rst, .pair]
  | .notifySend _ => [.regs, .beyjo, .out]
  | .notifyResend _ _ => [.regs, .tile, .beyjo, .rst, .pair, .out]
  | .genModeWrite _ => [.regs]
  | .mslSlotWrite _ _ _ _ => [.tile]
  | .mailScan => [.regs, .tile]
  | .mailNop _ _ => [.regs, .tile, .beyjo]
  | .mailReserved _ _ => [.regs, .tile, .beyjo]
  | .rodLoad _ _ => [.regs, .aregs, .agTime, .ports, .agPorts, .route, .ttbs, .tile, .ctxs, .rot, .beyjo, .flt, .agFlt, .rst, .pair, .boot, .out, .freeCtr]
  | .mailDump _ _ => [.regs, .tile, .beyjo, .rst]
  | .fwStage _ _ _ _ => [.regs, .tile, .rot, .beyjo, .boot]
  | .mailRemap _ _ => [.regs, .aregs, .ports, .agPorts, .route, .ttbs, .tile, .ctxs, .rot, .beyjo, .flt, .agFlt, .rst, .pair, .out, .freeCtr]
  | .evidencePut _ _ _ _ => [.regs, .aregs, .ports, .agPorts, .route, .ttbs, .tile, .ctxs, .rot, .beyjo, .flt, .agFlt, .rst, .pair, .out, .freeCtr]
  | .mailHandover _ _ => [.regs, .tile, .beyjo, .pair]
  | .detectorEvent _ _ _ _ _ => [.regs, .aregs, .time, .agTime, .ports, .agPorts, .replays, .route, .ttbs, .agents, .insts, .tile, .hbm, .ctxs, .rot, .beyjo, .flt, .agFlt, .rst, .pair, .boot, .pwr, .out, .freeCtr]
  | .eventDecide _ _ => [.regs, .aregs, .time, .agTime, .ports, .agPorts, .replays, .route, .ttbs, .agents, .insts, .tile, .hbm, .ctxs, .rot, .beyjo, .flt, .agFlt, .rst, .pair, .boot, .pwr, .out, .freeCtr]
  | .faultCell _ => [.regs, .aregs, .ports, .agPorts, .route, .ttbs, .tile, .ctxs, .rot, .beyjo, .flt, .agFlt, .rst, .pair, .out, .freeCtr]
  | .pgFaultClear _ _ _ => [.flt, .agFlt]
  | .fltClearFirst _ => [.flt, .agFlt]
  | .fltClearLog _ => [.regs, .aregs, .flt, .agFlt]
  | .fltChoice _ => [.regs, .aregs, .time, .agTime, .ports, .agPorts, .replays, .route, .ttbs, .agents, .insts, .tile, .hbm, .ctxs, .rot, .beyjo, .flt, .agFlt, .rst, .pair, .boot, .pwr, .out, .freeCtr]
  | .policyWaitExpiry => [.regs, .aregs, .time, .agTime, .ports, .agPorts, .replays, .route, .ttbs, .agents, .insts, .tile, .hbm, .ctxs, .rot, .beyjo, .flt, .agFlt, .rst, .pair, .boot, .pwr, .out, .freeCtr]
  | .reactionWindowEnd _ => [.flt, .agFlt]
  | .thermalTrip => [.regs, .ttbs, .flt, .agFlt, .pwr]
  | .thermalRecover => [.regs, .flt, .agFlt, .pwr]
  | .tempSample _ _ _ => [.regs, .ttbs, .tile, .hbm, .rot, .beyjo, .flt, .agFlt, .rst, .pair, .pwr]
  | .stackTempRead _ _ _ => [.regs, .ttbs, .flt, .agFlt, .pwr]
  | .pgJigGo _ _ => [.regs, .aregs, .flt, .agFlt]
  | .jigArmWrite _ _ => [.regs, .aregs, .flt, .agFlt]
  | .jigArmTimeout _ => [.regs, .aregs, .flt, .agFlt]
  | .fltDllClear _ => [.regs, .aregs, .flt, .agFlt]
  | .watchdogHang _ _ => [.regs, .aregs, .time, .agTime, .ports, .agPorts, .replays, .route, .ttbs, .agents, .insts, .tile, .hbm, .ctxs, .rot, .beyjo, .flt, .agFlt, .rst, .pair, .boot, .pwr, .out, .freeCtr]
  | .selfSnapshot _ _ => [.rst]
  | .dumpReadTimeout => [.flt, .agFlt, .rst]
  | .dumpBudgetExpiry => [.regs, .aregs, .time, .agTime, .ports, .agPorts, .replays, .route, .ttbs, .agents, .insts, .tile, .hbm, .ctxs, .rot, .beyjo, .flt, .agFlt, .rst, .pair, .boot, .pwr, .out, .freeCtr]
  | .agentDump _ _ _ => [.regs, .tile, .beyjo, .flt, .agFlt, .rst]
  | .rstGo _ _ _ => [.regs, .aregs, .time, .agTime, .ports, .agPorts, .replays, .route, .ttbs, .agents, .insts, .tile, .hbm, .ctxs, .rot, .beyjo, .flt, .agFlt, .rst, .pair, .boot, .pwr, .out, .freeCtr]
  | .resetComplete _ _ => [.regs, .aregs, .time, .agTime, .ports, .agPorts, .replays, .route, .ttbs, .agents, .insts, .tile, .hbm, .ctxs, .rot, .beyjo, .flt, .agFlt, .rst, .pair, .boot, .pwr, .out, .freeCtr]
  | .holdRearm _ _ _ => [.regs, .aregs, .time, .ports, .agPorts, .route, .ttbs, .insts, .tile, .ctxs, .beyjo, .flt, .agFlt, .rst, .out]
  | .memberLostLinks _ _ => [.regs, .aregs, .ports, .agPorts, .route, .ttbs, .tile, .ctxs, .rot, .beyjo, .flt, .agFlt, .rst, .pair, .out, .freeCtr]
  | .memberLostReset _ _ => [.regs, .aregs, .ports, .agPorts, .route, .ttbs, .tile, .ctxs, .rot, .beyjo, .flt, .agFlt, .rst, .pair, .out, .freeCtr]
  | .restoreStreamEnd _ _ _ => [.regs, .aregs, .ports, .agPorts, .route, .flt, .agFlt, .rst, .out]
  | .parwrCell _ => [.regs, .aregs, .agTime, .ports, .agPorts, .route, .ttbs, .tile, .hbm, .ctxs, .rot, .beyjo, .flt, .agFlt, .rst, .pair, .boot, .out, .freeCtr]
  | .parackCell _ => [.regs, .aregs, .ports, .agPorts, .route, .insts, .rot, .flt, .agFlt, .pair, .out]
  | .parackPeriodic => [.regs, .aregs, .ports, .agPorts, .flt, .agFlt]
  | .batchResend => [.regs, .aregs, .ports, .agPorts, .route, .flt, .agFlt, .pair]
  | .generationBegin => [.regs, .aregs, .ports, .agPorts, .flt, .agFlt, .pair]
  | .commitAckTimeout => [.regs, .aregs, .ports, .agPorts, .flt, .agFlt, .pair]
  | .syncMsExpiry => [.pair]
  | .parSync => [.pair]
  | .parFull => [.pair]
  | .vaultMirror _ => [.regs, .aregs, .ports, .agPorts, .flt, .agFlt, .pair]
  | .renewTimer => [.regs, .aregs, .ports, .agPorts, .flt, .agFlt, .pair, .out]
  | .leaseRenew _ _ => [.regs, .aregs, .ports, .agPorts, .flt, .agFlt, .pair, .ag, .out]
  | .leaseGrant _ => [.regs, .ttbs, .insts, .tile, .ctxs, .beyjo, .rst, .pair]
  | .leaseTakeover _ _ => [.regs, .aregs, .ports, .agPorts, .flt, .agFlt, .pair, .ag, .out]
  | .leaseTakeoverGrant _ => [.regs, .aregs, .ports, .agPorts, .route, .ttbs, .beyjo, .flt, .agFlt, .pair, .out]
  | .leaseRefuse _ => [.regs, .aregs, .time, .ports, .agPorts, .route, .ttbs, .insts, .tile, .ctxs, .beyjo, .flt, .agFlt, .rst, .pair, .out]
  | .leaseRelease _ _ => [.regs, .aregs, .ports, .agPorts, .flt, .agFlt, .pair, .ag, .out]
  | .leaseMove _ _ => [.regs, .aregs, .ports, .agPorts, .flt, .agFlt, .pair, .ag, .out]
  | .leaseExpiry => [.regs, .ports, .insts, .flt, .agFlt, .pair]
  | .takeoverTrigger => [.regs, .aregs, .ports, .agPorts, .flt, .agFlt, .pair, .out]
  | .refereeStartingEnd _ _ => [.aregs, .pair, .ag]
  | .leaseMoveTrigger => [.regs, .aregs, .ports, .agPorts, .route, .flt, .agFlt, .pair, .out]
  | .takeoverReconcile _ _ _ => [.regs, .aregs, .time, .agTime, .ports, .agPorts, .route, .ttbs, .insts, .tile, .hbm, .ctxs, .rot, .beyjo, .flt, .agFlt, .rst, .pair, .boot, .out]
  | .takeoverCdieReady _ => [.regs, .flt, .agFlt, .pair]
  | .takeoverLoadDone => [.regs, .aregs, .ports, .agPorts, .route, .ttbs, .tile, .hbm, .ctxs, .rot, .beyjo, .flt, .agFlt, .rst, .pair, .out, .freeCtr]
  | .takeoverRearm => [.regs, .aregs, .time, .ports, .agPorts, .route, .ttbs, .insts, .flt, .agFlt, .pair, .out]
  | .handoverPaused => [.regs, .ttbs, .insts, .tile, .hbm, .beyjo, .pair]
  | .handoverPauseTimeout => [.regs, .aregs, .time, .ports, .agPorts, .route, .ttbs, .insts, .tile, .beyjo, .flt, .agFlt, .pair, .out]
  | .handoverReleaseTimeout => [.regs, .aregs, .time, .ports, .agPorts, .route, .ttbs, .insts, .tile, .beyjo, .flt, .agFlt, .pair, .out]
  | .unitReturn _ => [.regs, .ttbs, .insts, .ctxs, .rot, .flt, .agFlt, .rst, .pair]
  | .porstNLow => [.regs, .time, .ports, .agPorts, .replays, .route, .ttbs, .agents, .insts, .tile, .hbm, .ctxs, .rot, .beyjo, .flt, .rst, .pair, .boot, .pwr, .out]
  | .porstNRelease _ _ => [.regs, .aregs, .ports, .agPorts, .replays, .rot, .rst, .pair, .boot, .out, .freeCtr]
  | .sysrstNFall => [.regs, .aregs, .time, .agTime, .ports, .agPorts, .replays, .route, .ttbs, .agents, .insts, .tile, .hbm, .ctxs, .rot, .beyjo, .flt, .agFlt, .rst, .pair, .boot, .pwr, .out, .freeCtr]
  | .bootReady _ _ _ => [.regs, .ports, .agPorts, .rot, .boot, .out]
  | .timeRecordRestart _ => [.regs, .time, .beyjo, .boot]
  | .timeRecordTimeout => [.boot]
  | .fwDistribute => [.regs, .boot]
  | .fwRepairRound _ => [.regs, .aregs, .ports, .agPorts, .rot, .flt, .agFlt, .boot, .out]
  | .fwActivateSend => [.regs, .aregs, .ports, .agPorts, .flt, .agFlt, .boot, .out]
  | .fwBegin _ => [.ag]
  | .fwData _ _ => [.aregs, .ag]
  | .fwActivate _ => [.ag]
  | .fwActivateAt => [.aregs, .ag]
  | .fwAbort _ _ => [.regs, .ports, .agPorts, .boot, .ag]
  | .rodCompare _ => [.regs, .aregs, .ports, .agPorts, .route, .ttbs, .tile, .beyjo, .flt, .agFlt, .pair, .boot, .out]
  | .rodSilentTimeout _ => [.regs, .aregs, .ports, .agPorts, .route, .ttbs, .tile, .beyjo, .flt, .agFlt, .pair, .boot, .out]
  | .cpwrGoodTimeout _ => [.flt, .agFlt]
  | .cpwrGoodChange _ _ => [.regs, .tile, .hbm, .rot, .beyjo, .flt, .agFlt, .rst, .pair]
  | .railOutOfWindow _ _ _ _ _ => [.regs, .tile, .hbm, .rot, .beyjo, .flt, .agFlt, .rst, .pair]
  | .pwrBudgetWrite _ => [.regs]
  | .pgLockWrite _ _ _ => [.regs, .aregs]
  | .agentTargetWrite _ _ => [.regs, .aregs, .agTime, .ports, .agPorts, .flt, .agFlt, .ag, .out]
  | .iaPorstN => [.aregs, .agTime, .agPorts, .agRoute, .rot, .agFlt, .ag, .out]
  | .iaTamperN => [.aregs, .flt, .agFlt]
  | .agentFidWrite _ => [.aregs, .ports, .agPorts, .out]
  | .agentFwGo _ => [.aregs, .ag]
  | .mreqRead _ => [.regs, .aregs, .time, .agTime, .ports, .agPorts, .replays, .route, .agRoute, .ttbs, .agents, .insts, .tile, .hbm, .ctxs, .rot, .beyjo, .flt, .agFlt, .rst, .pair, .boot, .pwr, .ag, .out, .freeCtr]
  | .mreqWrite _ => [.regs, .aregs, .time, .agTime, .ports, .agPorts, .replays, .route, .agRoute, .ttbs, .agents, .insts, .tile, .hbm, .ctxs, .rot, .beyjo, .flt, .agFlt, .rst, .pair, .boot, .pwr, .ag, .out, .freeCtr]
  | .orphanCell _ _ => [.regs, .aregs, .flt, .agFlt]
  | .agentArm => [.aregs, .agTime, .flt, .agFlt, .ag]
  | .agentDisarm => [.aregs, .flt, .agFlt, .ag]
  | .ttbLlenWrite _ => [.aregs, .ag]
  | .ttbEvtRead => [.ag, .out]
  | .cdcJobGo => [.aregs, .ag]
  | .cdcJobDone _ => [.aregs, .flt, .agFlt, .ag]
  | .measStart => [.ag]
  | .measInWrite _ => [.ag]
  | .measDone => [.aregs, .ag]
  | .certLock => [.aregs]
  | .evreqGo _ => [.aregs, .ag]
  | .evidenceFormed => [.regs, .aregs, .ports, .agPorts, .flt, .agFlt, .ag, .out]
  | .decapKeyExpiry => [.aregs, .ag]
  | .keywrapCell _ => [.aregs, .flt, .agFlt, .ag, .out]
  | .keySidebandAck _ => [.aregs, .flt, .agFlt, .ag]
  | .keySidebandTimeout => [.aregs, .flt, .agFlt, .ag]
  | .agentRstGo _ _ => [.aregs, .agTime, .flt, .agFlt, .ag, .out]
  | .rstReqGo _ _ => [.aregs, .agTime, .flt, .agFlt, .ag, .out]
  | .hcResetHoldEnd => [.ag, .out]
  | .hcRstDone => [.aregs, .flt, .agFlt, .ag]
  | .hcDoneTimeout => [.aregs, .flt, .agFlt, .ag]
  | .restoreCell _ _ => [.regs, .aregs, .flt, .agFlt, .ag]
  | .rchunkClear => [.ag]
  | .rstatEnd => [.aregs, .flt, .agFlt, .ag]
  | .bufferError _ => [.flt, .agFlt, .ag]
  | .dumpComplete _ => [.regs, .aregs, .time, .agTime, .ports, .agPorts, .replays, .route, .ttbs, .agents, .insts, .tile, .hbm, .ctxs, .rot, .beyjo, .flt, .agFlt, .rst, .pair, .boot, .pwr, .out, .freeCtr]
  | .iaPorstNRelease _ => [.regs, .aregs, .ports, .agPorts, .ag, .out]
  | .railWindowEntry _ => [.pwr]
  | .hostLinkUp => [.regs]
  | .signatureDone _ => [.regs, .rot, .out]
  | .vaultImportDone _ => [.regs, .aregs, .ports, .agPorts, .route, .tile, .hbm, .rot, .beyjo, .flt, .agFlt, .pair, .out, .freeCtr]
  | .standbyWarmDone => [.regs, .ttbs, .rot, .pair, .boot]
  | .takeoverRequestRepeat => [.regs, .aregs, .ports, .agPorts, .flt, .agFlt, .pair, .out]

end Sys2Proof.Machine
end

