-- ==== Sys2Proof/Certificates/Slice0/Obligations.lean ====
section
/-! DEFINITION. The statements about this model, one definition each. -/

open Sys2Proof Sys2Proof.Machine

/-- The timekeeper is switched on and off, stepped, and its period changed; the reference is measured, lost and corrected (R31, R37, R38, R47, R49,
  R50, R56). Each clause gives what holds of the state before, that the command answers a next state, the parts of the state that it may reach, and
  what that state holds. -/
def Obligations.ClockControl : Prop :=
  (∀ (s : State), s.rd TMK_CTRL_ENABLE = 0 → s.rd TMK_CTRL_SRC ≠ 2 → ∃ t, exec (.tmkEnableWrite true) s = .next t ∧ Within [.regs, .time, .beyjo,
    .boot] s t ∧ RegsBut [TMK_CTRL_ENABLE, TMK_STAT_STATE, BYJ_NOTIFY_LOST] s t ∧ t.rd TMK_CTRL_ENABLE = 1 ∧ t.rd TMK_STAT_STATE = 1 ∧
    t.time.qualified = false ∧ t.boot.timeRec.isSome = true) ∧
  (∀ (s : State), s.rd TMK_CTRL_ENABLE = 1 → s.rd GEN_FID_VALID = 0 → ∃ t, exec (.tmkEnableWrite false) s = .next t ∧ Within [.regs, .time, .beyjo,
    .boot] s t ∧ t.rd TMK_CTRL_ENABLE = 0 ∧ t.rd TMK_STAT_STATE = 0 ∧ t.time.beat = 0 ∧ t.time.counting = false) ∧
  (∀ (s : State), s.anyArmed = false → ∃ t, exec (.tmkStep) s = .next t ∧ Within [.regs, .flt, .agFlt] s t ∧ RegsBut [TMK_CTRL_STEP] s t ∧ t.rd
    TMK_CTRL_STEP = 1 ∧ t.flt = s.flt) ∧
  (∀ (s : State), s.rd TMK_CTRL_STEP = 1 → s.time.counting = true → (s.time.qualified || s.rd TMK_CTRL_SRC == 2) = true → s.rd TMK_STAT_STATE ≠ 3 → ∃
    t, exec (.counterStep) s = .next t ∧ Within [.regs, .time, .ttbs, .beyjo] s t ∧ RegsBut [TMK_CTRL_STEP] s t ∧ t.rd TMK_CTRL_STEP = 0 ∧ t.time.beat
    = s.countAt (s.rd TMK_TOD_SEC - 1) s.period ∧ t.time.phase = 0) ∧
  (∀ (s : State) (a p : Nat), Sys2Proof.Machine.periodOk p = true → s.rd TMK_CTRL_ENABLE = 1 → s.rd TMK_TOD_SEC - 1 + 2 ≤ a → a < 2 ^ 48 → s.anyArmed
    = false → ∃ t, exec (.tmkPeriodNextWrite a p) s = .next t ∧ Within [.regs, .time] s t ∧ RegsBut [TMK_PERIOD_NEXT_AT_SEC,
    TMK_PERIOD_NEXT_PERIOD_NS, TMK_STAT_PCHG] s t ∧ t.rd TMK_PERIOD_NEXT_AT_SEC = a ∧ t.rd TMK_PERIOD_NEXT_PERIOD_NS = p ∧ t.rd TMK_STAT_PCHG = 1) ∧
  (∀ (s : State), s.rd TMK_STAT_PCHG = 1 → ∃ t, exec (.periodAnnounceBegin) s = .next t ∧ Within [.time] s t ∧ t.time.announced = true ∧ t.time.beat =
    s.time.beat) ∧
  (∀ (s : State), s.rd TMK_STAT_PCHG = 1 → s.time.counting = false → s.rd TMK_PERIOD_NEXT_PERIOD_NS ≤ 16000 → ∃ t, exec (.periodChange) s = .next t ∧
    Within [.regs, .aregs, .time, .ports, .agPorts, .route, .ttbs, .tile, .ctxs, .rot, .beyjo, .flt, .agFlt, .rst, .pair, .boot, .out, .freeCtr] s t ∧
    RegsBut [TMK_PERIOD_PERIOD_NS, TMK_STAT_PCHG, TMK_PERIOD_NEXT_PERIOD_NS] s t ∧ t.rd TMK_PERIOD_PERIOD_NS = s.rd TMK_PERIOD_NEXT_PERIOD_NS ∧ t.rd
    TMK_STAT_PCHG = 0 ∧ t.time.phase = 0 ∧ t.time.beat = (s.rd TMK_PERIOD_NEXT_AT_SEC - s.rd TMK_EPOCH_SEC) * 1000000000 / s.rd
    TMK_PERIOD_NEXT_PERIOD_NS) ∧
  (∀ (s : State), s.rd TMK_STAT_PCHG = 1 → s.time.counting = true → s.rd TMK_PERIOD_NEXT_PERIOD_NS ≤ 16000 → ∃ t, exec (.periodChange) s = .next t ∧
    Within [.regs, .aregs, .time, .ports, .agPorts, .route, .ttbs, .tile, .ctxs, .rot, .beyjo, .flt, .agFlt, .rst, .pair, .boot, .out, .freeCtr] s t ∧
    t.time.nowNs = s.time.nowNs + s.period ∧ t.rd TMK_PERIOD_PERIOD_NS = s.rd TMK_PERIOD_NEXT_PERIOD_NS ∧ t.rd TMK_STAT_PCHG = 0 ∧ t.time.phase = 0 ∧
    t.time.beat = (s.rd TMK_PERIOD_NEXT_AT_SEC - s.rd TMK_EPOCH_SEC) * 1000000000 / s.rd TMK_PERIOD_NEXT_PERIOD_NS) ∧
  (∀ (s : State) (sp rc e : Int), s.rd TMK_CTRL_ENABLE = 1 → s.rd TMK_CTRL_SRC = 0 → rc.natAbs ≤ 2 → sp.natAbs ≤ 1000 → s.rd TMK_STAT_STATE = 2 → s.rd
    TMK_TOD_SEC + 1 < 2 ^ 48 → ∃ t, exec (.ppsEdge sp rc e) s = .next t ∧ Within [.regs, .time, .ttbs, .beyjo, .flt, .agFlt] s t ∧ RegsBut
    [TMK_TOD_SEC, TMK_OFFSET_OFFSET_PS] s t ∧ t.rd TMK_TOD_SEC = s.rd TMK_TOD_SEC + 1 ∧ t.rd TMK_OFFSET_OFFSET_PS = unsigned 32 (e - 1000 * signed 16
    (s.rd TMK_REF_DELAY_DELAY_NS)) ∧ t.time.ppsGood = min 8 (s.time.ppsGood + 1)) ∧
  (∀ (s : State) (d : Nat) (l o : Int) (tai : Nat), s.rd TMK_CTRL_ENABLE = 1 → s.rd TMK_CTRL_SRC = 1 → d = s.rd TMK_PTP_CFG_DOMAIN → -7 ≤ l → l ≤ 0 →
    o.natAbs < 20000 → tai / 1000000000 + 1 < 2 ^ 48 → s.rd TMK_STAT_STATE = 2 → ∃ t, exec (.ptpSync d l o tai true) s = .next t ∧ Within [.regs,
    .time, .ttbs, .beyjo, .flt, .agFlt, .out] s t ∧ RegsBut [TMK_TOD_SEC, TMK_OFFSET_OFFSET_PS, HPT_FRAMES_TX] s t ∧ t.out = s.out ++ [.delayReq d] ∧
    t.rd TMK_TOD_SEC = tai / 1000000000 + 1 ∧ t.rd TMK_OFFSET_OFFSET_PS = unsigned 32 o ∧ t.time.syncGood = min 16 (s.time.syncGood + 1)) ∧
  (∀ (s : State) (d : Nat) (m : Master), s.rd TMK_CTRL_SRC = 1 → d = s.rd TMK_PTP_CFG_DOMAIN → ∃ t, exec (.ptpAnnounce d m) s = .next t ∧ Within
    [.regs, .time, .beyjo, .flt, .agFlt] s t ∧ (t.time.masters = (s.time.masters.filter fun x => x.identity != m.identity) ++ [m]) ∧ (∀ b, bestMaster
    t.time.masters = some b → t.rd TMK_PTP_GMID_CLOCK_ID = b.identity % 2 ^ 64)) ∧
  (∀ (s : State), s.rd TMK_CTRL_ENABLE = 1 → s.rd TMK_CTRL_SRC = 0 → s.rd TMK_STAT_STATE = 2 → ∃ t, exec (.ppsMissing) s = .next t ∧ Within [.regs,
    .time, .beyjo, .flt, .agFlt] s t ∧ RegsBut [TMK_STAT_STATE, TMK_STAT_TAKEOVER_WARN, TMK_HOLD_EST_HOLD_MS, TMK_HOLD_EST_EST_NS, BYJ_NOTIFY_LOST,
    TMK_TOD_SEC] s t ∧ t.rd TMK_STAT_STATE = 3 ∧ t.time.holdStartNs = some s.time.nowNs ∧ t.rd TMK_HOLD_EST_HOLD_MS = 0 ∧ t.rd TMK_HOLD_EST_EST_NS = 0
    ∧ t.time.qualified = false ∧ t.rd TMK_TOD_SEC = (s.rd TMK_TOD_SEC + b2n s.time.counting) % 2 ^ 48) ∧
  (∀ (s : State), s.rd TMK_CTRL_ENABLE = 1 → s.rd TMK_CTRL_SRC = 0 → s.rd TMK_STAT_STATE = 2 → ∃ t, exec (.cadenceRefLoss) s = .next t ∧ Within
    [.regs, .time, .beyjo, .flt, .agFlt] s t ∧ RegsBut [TMK_STAT_STATE, TMK_STAT_TAKEOVER_WARN, TMK_HOLD_EST_HOLD_MS, TMK_HOLD_EST_EST_NS,
    BYJ_NOTIFY_LOST] s t ∧ t.rd TMK_STAT_STATE = 3 ∧ t.time.holdStartNs = some s.time.nowNs ∧ t.rd TMK_HOLD_EST_HOLD_MS = 0 ∧ t.rd TMK_HOLD_EST_EST_NS
    = 0 ∧ t.time.qualified = false) ∧
  (∀ (s : State), s.rd TMK_CTRL_ENABLE = 1 → s.rd TMK_CTRL_SRC = 1 → s.rd TMK_STAT_STATE = 2 → ∃ t, exec (.syncTimeout) s = .next t ∧ Within [.regs,
    .time, .beyjo, .flt, .agFlt] s t ∧ RegsBut [TMK_STAT_STATE, TMK_STAT_TAKEOVER_WARN, TMK_HOLD_EST_HOLD_MS, TMK_HOLD_EST_EST_NS, BYJ_NOTIFY_LOST] s
    t ∧ t.rd TMK_STAT_STATE = 3 ∧ t.time.holdStartNs = some s.time.nowNs ∧ t.rd TMK_HOLD_EST_HOLD_MS = 0 ∧ t.rd TMK_HOLD_EST_EST_NS = 0 ∧
    t.time.qualified = false) ∧
  (∀ (s : State), s.rd TMK_STAT_STATE = 3 → s.rd TMK_STAT_XDOM_UNSAFE = 0 → ∃ t, exec (.xdomUnsafe) s = .next t ∧ Within [.regs, .beyjo, .flt, .agFlt]
    s t ∧ RegsBut [TMK_STAT_XDOM_UNSAFE, BYJ_NOTIFY_LOST] s t ∧ t.rd TMK_STAT_XDOM_UNSAFE = 1) ∧
  (∀ (s : State), s.rd TMK_STAT_SLEWING = 1 → (s.period * 1000 : Int) < s.time.slewLeft → ∃ t, exec (.slewCorrection) s = .next t ∧ Within [.regs,
    .time, .ttbs, .beyjo] s t ∧ t.time.slewLeft = s.time.slewLeft - s.period * 1000 ∧ t.regs = s.regs) ∧
  (∀ (s : State), s.rd TMK_CTRL_SRC = 2 → s.rd TMK_STAT_STATE = 4 → s.rd TMK_TOD_SEC + 1 < 2 ^ 48 → ∃ t, exec (.todAdvance) s = .next t ∧ Within
    [.regs] s t ∧ RegsBut [TMK_TOD_SEC] s t ∧ t.rd TMK_TOD_SEC = s.rd TMK_TOD_SEC + 1)

/-- Beat boundaries, beat words, missed words and orphan mode (R39, R41, R42, R51, R477). Each clause gives what holds of the state before, that the
  command answers a next state, the parts of the state that it may reach, and what that state holds. -/
def Obligations.BeatOnTheLinks : Prop :=
  (∀ (s : State), s.time.counting = true → ∃ t, exec (.beatBoundary .dz8) s = .next t ∧ Within [.regs, .aregs, .time, .agTime, .ports, .agPorts,
    .route, .ttbs, .tile, .ctxs, .rot, .beyjo, .flt, .agFlt, .rst, .pair, .boot, .ag, .out, .freeCtr] s t ∧ t.time.beat = (s.time.beat + 1) % 2 ^ 56 ∧
    t.time.phase = 0 ∧ t.time.nowNs = s.time.nowNs + s.period ∧ t.agTime = s.agTime) ∧
  (∀ (s : State), s.ag.porst = false → s.ard Ia.TMK_STAT_STATE = 2 → ∃ t, exec (.beatBoundary .agent) s = .next t ∧ Within [.regs, .aregs, .time,
    .agTime, .ports, .agPorts, .route, .ttbs, .tile, .ctxs, .rot, .beyjo, .flt, .agFlt, .rst, .pair, .boot, .ag, .out, .freeCtr] s t ∧ t.agTime.beat =
    (s.agTime.beat + 1) % 2 ^ 56 ∧ t.time = s.time) ∧
  (∀ (s : State) (p : Nat) (w : Word) (b : Nat) (off : Int), p < s.ports.length → s.carries .dz8 p = true → ∃ t, exec (.beatWord .dz8 p w true
    ⟨b, off⟩) s = .next t ∧ Within [.regs, .aregs, .time, .agTime, .ports, .agPorts, .flt, .agFlt, .pair, .ag] s t ∧ (t.port .dz8 p).farActive = bit
    w.toNat 2 ∧ t.time.beat = s.time.beat) ∧
  (∀ (s : State) (p : Nat) (w : Word) (b : Nat) (off : Int), s.carries .agent p = true → s.mayLead p w.toNat = true → s.ard Ia.TMK_STAT_STATE = 1 →
    s.agTime.source = none → s.agTime.pchg = none → ∃ t, exec (.beatWord .agent p w true ⟨b, off⟩) s = .next t ∧ Within [.regs, .aregs, .time,
    .agTime, .ports, .agPorts, .flt, .agFlt, .pair, .ag] s t ∧ t.agTime.beat = w.toNat / 256 ∧ t.agTime.source = some p ∧ t.agTime.missRun = 0) ∧
  (∀ (s : State), s.ard Ia.TMK_STAT_STATE = 2 → (bestCand (s.agTime.cands.filter fun c => c.fresh && some c.port != s.agTime.source) = none) → ∃ t,
    exec (.beatWordMiss) s = .next t ∧ Within [.aregs, .agTime, .flt, .agFlt] s t ∧ AregsBut [Ia.TMK_MISS_MISSED] s t ∧ t.ard Ia.TMK_MISS_MISSED =
    (s.ard Ia.TMK_MISS_MISSED + 1) % 2 ^ 32 ∧ t.agTime.missRun = s.agTime.missRun + 1) ∧
  (∀ (s : State), s.ard Ia.TMK_STAT_STATE = 2 → 4 ≤ s.agTime.missRun → ∃ t, exec (.orphanEntry) s = .next t ∧ Within [.regs, .aregs, .agTime, .ports,
    .agPorts, .flt, .agFlt, .ag] s t ∧ t.ard Ia.TMK_STAT_STATE = 3 ∧ t.ard Ia.TMK_STAT_SRC_PORT = 0xFF ∧ t.agTime.source = none ∧ t.agTime.injectStop
    = true ∧ t.agTime.orphanAt = s.agTime.beat) ∧
  (∀ (s : State), s.ard Ia.TMK_STAT_STATE = 3 → ∃ t, exec (.orphanReportRepeat) s = .next t ∧ Within [.regs, .aregs, .ports, .agPorts, .flt, .agFlt] s
    t ∧ t = s.orphanReport) ∧
  (∀ (s : State) (d : Site) (c : Cell), s.epochGood d c = true → ∃ t, exec (.orphanCell d c) s = .next t ∧ Within [.regs, .aregs, .flt, .agFlt] s t ∧
    t = s) ∧
  (∀ (s : State) (d : Site) (c : Cell), s.epochGood d c = false → ∃ t, exec (.orphanCell d c) s = .next t ∧ Within [.regs, .aregs, .flt, .agFlt] s t ∧
    t = s.discardOwn d c rEPOCH ∧ (t.fltS d).dll0 = ringPush 4096 (s.fltS d).dll0
    ⟨word (s.stampS d), word (cellHeader c), word (cellTrailer c), rEPOCH, 0xFF, s.cellCtx d c⟩ ∧ t.rdS d RTE_DISC_EPOCH = (s.rdS d RTE_DISC_EPOCH +
    1) % 2 ^ RTE_DISC_EPOCH.w ∧ t.time = s.time ∧ t.agTime = s.agTime)

/-- Codewords and control words of a port; training, retries, parking and disabling of a port (R40, R69, R71, R76, R79, R80, R82, R83, R95). Each
  clause gives what holds of the state before, that the command answers a next state, the parts of the state that it may reach, and what that state
  holds. -/
def Obligations.PortWords : Prop :=
  (∀ (s : State) (d : Site) (p : Nat) (cw : Codeword) (w at_ : List Nat), p < (s.portsS d).length → rsDecode cw.symbols = some (w, at_) → bits
    (messageOf (w.take 514)).1 5 0 = hchk (messageOf (w.take 514)).1 → ∃ t, exec (.codeword d p cw) s = .next t ∧ Within [.regs, .aregs, .ports,
    .agPorts, .flt, .agFlt] s t ∧ (t.port d p).rxWords = positionWords (messageOf (w.take 514)).2 ∧ (t.port d p).rxCells = positionCells (messageOf
    (w.take 514)).2 ∧ (t.port d p).rxSeq = bits (messageOf (w.take 514)).1 9 6 ∧ (t.port d p).queue = (s.port d p).queue) ∧
  (∀ (s : State) (d : Site) (p : Nat) (cw : Codeword), rsDecode cw.symbols = none → ∃ t, exec (.codeword d p cw) s = .next t ∧ Within [.regs, .aregs,
    .ports, .agPorts, .flt, .agFlt] s t ∧ t = s.lostCodeword d p) ∧
  (∀ (s : State) (d : Site) (p : Nat) (w : Word), p < (s.portsS d).length → ∃ t, exec (.creditWord d p w) s = .next t ∧ Within [.ports, .agPorts] s t
    ∧ t.regs = s.regs ∧ t.aregs = s.aregs ∧ (t.port d p).lastCredit = countsOf w.toNat ∧ (∀ i < 4, nth (t.port d p).credits i = nth (s.port d
    p).credits i + (nth (countsOf w.toNat) i + 2 ^ 14 - nth (s.port d p).lastCredit i) % 2 ^ 14)) ∧
  (∀ (s : State) (d : Site) (p : Nat) (w : Word), p < (s.portsS d).length → ∃ t, exec (.sentWord d p w) s = .next t ∧ Within [.regs, .aregs, .ports,
    .agPorts] s t ∧ (t.port d p).received = countsOf w.toNat ∧ (∀ i < 4, nth (t.port d p).freed i = (nth (s.port d p).freed i + (nth (countsOf
    w.toNat) i + 2 ^ 14 - nth (s.port d p).received i) % 2 ^ 14) % 2 ^ 14)) ∧
  (∀ (s : State) (d : Site) (p : Nat) (w : Word) (n : Nat), ∃ t, exec (.probeWord d p w n) s = .next t ∧ Within [.ports, .agPorts, .out] s t ∧ t.out =
    (s.out ++ [.control d p (controlDesc [(6, w.toNat % 2 ^ 32 * 2 ^ 32 + n % 2 ^ 32)] 0 0 0) (controlSlots [(6, w.toNat % 2 ^ 32 * 2 ^ 32 + n % 2 ^
    32)])]) ++ t.out.drop (s.out.length + 1) ∧ s.out.length < t.out.length ∧ t.regs = s.regs ∧ t.aregs = s.aregs) ∧
  (∀ (s : State) (d : Site) (p : Nat) (w : Word) (n : Nat), p < (s.portsS d).length → (s.port d p).stage = 6 → (s.port d p).probes.length < 15 → ∃ t,
    exec (.probeReplyWord d p w n) s = .next t ∧ Within [.regs, .aregs, .ports, .agPorts] s t ∧ (t.port d p).probes = (s.port d p).probes ++ [((n % 2
    ^ 32 + 2 ^ 32 - w.toNat / 2 ^ 32) % 2 ^ 32 - w.toNat % 2 ^ 32) / 2] ∧ t.regs = s.regs ∧ t.aregs = s.aregs) ∧
  (∀ (s : State) (d : Site) (p : Nat) (w : Word), (s.port d p).held = false → ∃ t, exec (.identWord d p w) s = .next t ∧ Within [.regs, .aregs,
    .ports, .agPorts, .flt, .agFlt, .out] s t ∧ t.rdS d (PRT_NEIGH_VALID (prtPgS d p)) = 1 ∧ t.rdS d (PRT_NEIGH_FID (prtPgS d p)) = bits w.toNat 63 50
    ∧ t.rdS d (PRT_NEIGH_PORT (prtPgS d p)) = bits w.toNat 49 42 ∧ t.rdS d (PRT_NEIGH_CLASS (prtPgS d p)) = bits w.toNat 41 40) ∧
  (∀ (s : State) (p : Nat) (w : Word), s.agTime.source = some p → ∃ t, exec (.periodWord .agent p w) s = .next t ∧ Within [.agTime] s t ∧
    t.agTime.pchg = some (bits w.toNat 13 0, bits w.toNat 61 14) ∧ t.aregs = s.aregs) ∧
  (∀ (s : State) (p : Nat) (w : Word), ∃ t, exec (.periodWord .dz8 p w) s = .next t ∧ Within [.agTime] s t ∧ t = s) ∧
  (∀ (s : State) (d : Site) (p : Nat) (r : StageResult), p < (s.portsS d).length → s.inStage d p = true → 1 ≤ (s.port d p).stage → (s.port d p).stage
    ≤ 3 → ∃ t, exec (.trainStageDone d p r) s = .next t ∧ Within [.regs, .aregs, .ports, .agPorts, .route, .flt, .agFlt, .pair, .boot, .out, .freeCtr]
    s t ∧ (t.port d p).stage = (s.port d p).stage + 1 ∧ t.prtState d p = 1) ∧
  (∀ (s : State) (d : Site) (p : Nat), p < (s.portsS d).length → s.inStage d p = true → s.rdS d (PRT_STAT_RETRY_CNT (prtPgS d p)) + 1 < s.rdS d
    (PRT_CTRL_RETRY_MAX (prtPgS d p)) → s.rdS d (PRT_CTRL_RETRY_MAX (prtPgS d p)) < 256 → ∃ t, exec (.trainStageTimeout d p) s = .next t ∧ Within
    [.regs, .aregs, .ports, .agPorts, .flt, .agFlt, .out] s t ∧ (t.port d p).stage = 0 ∧ t.rdS d (PRT_STAT_RETRY_CNT (prtPgS d p)) = s.rdS d
    (PRT_STAT_RETRY_CNT (prtPgS d p)) + 1 ∧ t.prtState d p = 1) ∧
  (∀ (s : State) (d : Site) (p : Nat), p < (s.portsS d).length → (d = .agent ∨ p < s.rd LCS_PART_LINKS) → s.prtState d p = 1 → (s.port d p).stage = 0
    → ∃ t, exec (.trainRetry d p) s = .next t ∧ Within [.regs, .aregs, .ports, .agPorts, .out] s t ∧ t.prtState d p = 1 ∧ (t.port d p).stage = 1 ∧
    (t.port d p).idle = false) ∧
  (∀ (s : State) (d : Site) (p : Nat), p < (s.portsS d).length → (d = .agent ∨ p < s.rd LCS_PART_LINKS) → s.prtState d p = 4 → ∃ t, exec (.unpark d p)
    s = .next t ∧ Within [.regs, .aregs, .ports, .agPorts, .out] s t ∧ t.prtState d p = 1 ∧ (t.port d p).stage = 1 ∧ (t.port d p).idle = false) ∧
  (∀ (s : State) (d : Site) (p : Nat), p < (s.portsS d).length → (d = .agent ∨ p < s.rd LCS_PART_LINKS) → s.prtState d p = 2 → ∃ t, exec (.retrain d
    p) s = .next t ∧ Within [.regs, .aregs, .agTime, .ports, .agPorts, .route, .flt, .agFlt, .pair, .boot, .out] s t ∧ t.prtState d p = 1 ∧ (t.port d
    p).stage = 1 ∧ (t.port d p).idle = false) ∧
  (∀ (s : State) (d : Site) (p : Nat), p < (s.portsS d).length → (d = .agent ∨ p < s.rd LCS_PART_LINKS) → s.carries d p = true → ∃ t, exec
    (.noCorrectableCodeword d p) s = .next t ∧ Within [.regs, .aregs, .agTime, .ports, .agPorts, .route, .flt, .agFlt, .pair, .boot, .out] s t ∧
    t.prtState d p = 1 ∧ (t.port d p).stage = 1 ∧ (t.port d p).idle = false) ∧
  (∀ (s : State) (d : Site) (p : Nat), p < (s.portsS d).length → (d = .agent ∨ p < s.rd LCS_PART_LINKS) → s.carries d p = true → ∃ t, exec
    (.electricalIdleDetect d p) s = .next t ∧ Within [.regs, .aregs, .agTime, .ports, .agPorts, .route, .flt, .agFlt, .pair, .boot, .out] s t ∧
    t.prtState d p = 1 ∧ (t.port d p).stage = 1 ∧ (t.port d p).idle = false) ∧
  (∀ (s : State) (d : Site) (p : Nat), p < (s.portsS d).length → s.carries d p = false → s.prtState d p ≠ 5 → ∃ t, exec (.portDisable d p true) s =
    .next t ∧ Within [.regs, .aregs, .agTime, .ports, .agPorts, .route, .flt, .agFlt, .pair, .boot, .out] s t ∧ t.rdS d (PRT_CTRL_DISABLE (prtPgS d
    p)) = 1 ∧ t.prtState d p = 5 ∧ (t.port d p).idle = true ∧ (t.port d p).stage = 0) ∧
  (∀ (s : State) (d : Site) (p : Nat), p < (s.portsS d).length → (d = .agent ∨ p < s.rd LCS_PART_LINKS) → s.prtState d p = 5 → ∃ t, exec (.portDisable
    d p false) s = .next t ∧ Within [.regs, .aregs, .agTime, .ports, .agPorts, .route, .flt, .agFlt, .pair, .boot, .out] s t ∧ t.rdS d
    (PRT_CTRL_DISABLE (prtPgS d p)) = 0 ∧ t.prtState d p = 1 ∧ (t.port d p).stage = 1)

/-- Cells that leave and arrive on ports, frames and their keys, escapes and replays (R66, R81, R92, R94, R108, R311). Each clause gives what holds of
  the state before, that the command answers a next state, the parts of the state that it may reach, and what that state holds. -/
def Obligations.CellsOnPorts : Prop :=
  (∀ (s : State) (d : Site) (p vc : Nat) (q : Option (Nat × Nat) × Cell) (r : List (Option (Nat × Nat) × Cell)), p < (s.portsS d).length → s.bears d p
    = true → s.rdS d (PRT_STAT_ENCRYPTED (prtPgS d p)) = 0 → s.headOf d p vc = some (q, r) → s.mayGo d p vc = true → (vc ≠ 0 ∨ s.prtState d p = 2) → ∃
    t, exec (.cellSend d p vc) s = .next t ∧ Within [.regs, .aregs, .ports, .agPorts, .ttbs, .flt, .agFlt, .out] s t ∧ t.out = s.out ++ [.cell d p
    q.2] ++ t.out.drop (s.out.length + 1) ∧ (t.port d p).queue = r) ∧
  (∀ (s : State) (d : Site) (p vc : Nat), s.bears d p = false → ∃ t, exec (.cellSend d p vc) s = .next t ∧ Within [.regs, .aregs, .ports, .agPorts,
    .ttbs, .flt, .agFlt, .out] s t ∧ t = s) ∧
  (∀ (s : State) (d : Site) (p : Nat) (c : Cell), s.bears d p = false → ∃ t, exec (.cellForward d p c) s = .next t ∧ Within [.regs, .aregs, .ports,
    .agPorts, .route, .flt, .agFlt, .out] s t ∧ t = s) ∧
  (∀ (s : State) (d : Site) (p : Nat) (c : Cell), p < (s.portsS d).length → s.bears d p = true → s.rdS d (PRT_STAT_ENCRYPTED (prtPgS d p)) = 1 → ∃ t,
    exec (.cellForward d p c) s = .next t ∧ Within [.regs, .aregs, .ports, .agPorts, .route, .flt, .agFlt, .out] s t ∧ (t.port d p).heldFrame =
    (s.port d p).heldFrame ++ [c] ∧ t.out = s.out ∧ t.regs = s.regs) ∧
  (∀ (s : State) (d : Site) (p : Nat) (c : Cell), s.bears d p = true → s.rdS d (PRT_STAT_ENCRYPTED (prtPgS d p)) = 0 → ∃ t, exec (.cellForward d p c)
    s = .next t ∧ Within [.regs, .aregs, .ports, .agPorts, .route, .flt, .agFlt, .out] s t ∧ t = s.arrive d p c) ∧
  (∀ (s : State) (d : Site) (p f k g : Nat), s.carries d p = true → s.rdS d (PRT_STAT_ENCRYPTED (prtPgS d p)) = 1 → ∃ t, exec (.frameTag d p f k g) s
    = .next t ∧ Within [.regs, .aregs, .agTime, .ports, .agPorts, .route, .flt, .agFlt, .pair, .boot, .out] s t ∧ (t = (if g = frameTag (s.frameKey d
    p false ((s.port d p).rxIndex k)) (!s.lowerEnd d p) ((s.port d p).rxFrame + (f % 16 + 16 - (s.port d p).rxFrame % 16) % 16) (s.port d p).heldFrame
    then s.frameGood d p ((s.port d p).rxIndex k) ((s.port d p).rxFrame + (f % 16 + 16 - (s.port d p).rxFrame % 16) % 16) else s.frameBad d p ((s.port
    d p).rxFrame + (f % 16 + 16 - (s.port d p).rxFrame % 16) % 16)))) ∧
  (∀ (s : State) (d : Site) (p vc n : Nat) (q : Option (Nat × Nat) × Cell) (r : List (Option (Nat × Nat) × Cell)), vc < 3 → p < (s.portsS d).length →
    s.carries d p = true → nth (s.port d p).credits vc = 0 → s.escapeNs d vc < n → s.headOf d p vc = some (q, r) → entEsc (s.entry d false q.2.dst) ≠
    p → s.carries d (entEsc (s.entry d false q.2.dst)) = true → ∃ t, exec (.escapeThreshold d p vc n) s = .next t ∧ Within [.regs, .aregs, .ports,
    .agPorts, .flt, .agFlt] s t ∧ (t.port d p).queue = r ∧ t.out = s.out) ∧
  (∀ (s : State) (d : Site) (p : Nat), p < (s.portsS d).length → s.rdS d (PRT_STAT_ENCRYPTED (prtPgS d p)) = 1 → ∃ t, exec (.linkKeyChange d p) s =
    .next t ∧ Within [.regs, .aregs, .ports, .agPorts, .out] s t ∧ (t.port d p).keyIndex = (s.port d p).keyIndex + 1 ∧ t.rdS d (PRT_GCM_KPH (prtPgS d
    p)) = ((s.port d p).keyIndex + 1) % 2) ∧
  (∀ (s : State) (e : Nat) (b : Bool) (g : Nat) (c : Cell), s.hasEdge e = true → g < 16 → s.replayCount e b g c < 8 → ∃ t, exec (.dovetailNak ⟨e, b⟩ g
    c) s = .next t ∧ Within [.regs, .aregs, .replays, .flt, .agFlt, .out] s t ∧ (t.replays = putReplay (s.replays.filter fun r => !r.of e b g c)
    ⟨e, b, g, c, s.replayCount e b g c + 1⟩) ∧ (t.rd (DVT_REPLAY_REPLAYS (dvtPg (if b then (edgeEnds e).2 else (edgeEnds e).1) e)) = (s.rd
    (DVT_REPLAY_REPLAYS (dvtPg (if b then (edgeEnds e).2 else (edgeEnds e).1) e)) + 1) % 2 ^ (DVT_REPLAY_REPLAYS 0).w) ∧ t.out = s.out ++ [.resent e b
    g c]) ∧
  (∀ (s : State) (e : Nat) (b : Bool) (g : Nat) (c : Cell), s.hasEdge e = true → g < 16 → 8 ≤ s.replayCount e b g c → ∃ t, exec (.dovetailNak ⟨e, b⟩ g
    c) s = .next t ∧ Within [.regs, .aregs, .replays, .flt, .agFlt, .out] s t ∧ (t.replays = s.replays.filter fun r => !r.of e b g c) ∧ t.out = s.out
    ∧ t.replayCount e b g c = 0) ∧
  (∀ (s : State) (e : Nat) (b : Bool) (g : Nat) (c : Cell), s.hasEdge e = false → ∃ t, exec (.dovetailNak ⟨e, b⟩ g c) s = .next t ∧ Within [.regs,
    .aregs, .replays, .flt, .agFlt, .out] s t ∧ t = s)

/-- Cells placed in the memory of the host chip (R89, R90, R104, R468, R483, R490). Each clause gives what holds of the state before, that the command
  answers a next state, the parts of the state that it may reach, and what that state holds. -/
def Obligations.AgentCells : Prop :=
  (∀ (s : State) (p : Nat) (c : Cell) (k : AgCounter), s.epochGood .agent c = true → (c.type == tPUT && decide (0xFE ≤ c.src % 256)) = false →
    (s.ag.counters.find? (fun x => x.cidx == c.cidx) = some k) → c.offset + 48 ≤ k.len → k.count < k.expect → ∃ t, exec (.putCell .agent p c) s =
    .next t ∧ Within [.regs, .aregs, .flt, .agFlt, .ag] s t ∧ (∀ i < 48, mget t.ag.hostMem (s.handleBase k.handle + (k.segment + c.offset) + i) =
    (cellPayload c).getD i 0) ∧ (∀ a, (a < s.handleBase k.handle + (k.segment + c.offset) ∨ s.handleBase k.handle + (k.segment + c.offset) + 48 ≤ a) →
    mget t.ag.hostMem a = mget s.ag.hostMem a) ∧ (t.ag.counters = s.ag.counters.map fun x => if x.cidx == c.cidx then { x with count := x.count + 1 }
    else x) ∧ t.aregs = s.aregs) ∧
  (∀ (s : State) (p : Nat) (c : Cell), s.epochGood .dz8 c = true → ∃ t, exec (.putCell .dz8 p c) s = .next t ∧ Within [.regs, .aregs, .flt, .agFlt,
    .ag] s t ∧ t = s.discard .dz8 p c rCIDX) ∧
  (∀ (s : State) (p : Nat) (c : Cell) (k : AgCounter), s.epochGood .agent c = true → (c.type == tPUT && decide (0xFE ≤ c.src % 256)) = false →
    (s.ag.counters.find? (fun x => x.cidx == c.cidx) = some k) → c.offset + 48 ≤ k.len → k.count < k.expect → ∃ t, exec (.resultCell .agent p c) s =
    .next t ∧ Within [.regs, .aregs, .flt, .agFlt, .ag] s t ∧ (∀ i < 48, mget t.ag.hostMem (s.handleBase k.handle + (k.segment + c.offset) + i) =
    (cellPayload c).getD i 0) ∧ (∀ a, (a < s.handleBase k.handle + (k.segment + c.offset) ∨ s.handleBase k.handle + (k.segment + c.offset) + 48 ≤ a) →
    mget t.ag.hostMem a = mget s.ag.hostMem a) ∧ (t.ag.counters = s.ag.counters.map fun x => if x.cidx == c.cidx then { x with count := x.count + 1 }
    else x) ∧ t.aregs = s.aregs) ∧
  (∀ (s : State) (p : Nat) (c : Cell), s.epochGood .dz8 c = true → ∃ t, exec (.resultCell .dz8 p c) s = .next t ∧ Within [.regs, .aregs, .flt, .agFlt,
    .ag] s t ∧ t = s.discard .dz8 p c rCIDX) ∧
  (∀ (s : State) (c : Cell), s.epochGood .agent c = true → c.cidx % 2 ^ 12 * 2 ^ 32 + c.offset + 48 ≤ s.handleLen 0xFFF → tget s.ag.chunks ((c.cidx %
    2 ^ 12 * 2 ^ 32 + c.offset) / chunkBytes) < 1048576 → ∃ t, exec (.restoreCell c false) s = .next t ∧ Within [.regs, .aregs, .flt, .agFlt, .ag] s t
    ∧ (∀ i < 48, mget t.ag.hostMem (s.handleBase 0xFFF + (c.cidx % 2 ^ 12 * 2 ^ 32 + c.offset) + i) = (cellPayload c).getD i 0) ∧ tget t.ag.chunks
    ((c.cidx % 2 ^ 12 * 2 ^ 32 + c.offset) / chunkBytes) = tget s.ag.chunks ((c.cidx % 2 ^ 12 * 2 ^ 32 + c.offset) / chunkBytes) + 1 ∧ AregsBut
    [Ia.TTB_RSTAT_CELLS] s t) ∧
  (∀ (s : State) (n : Nat), ∃ t, exec (.bufferError n) s = .next t ∧ Within [.flt, .agFlt, .ag] s t ∧ (t.ag.counters = s.ag.counters.map fun k => if
    k.cidx == n then { k with count := k.count - 1 } else k) ∧ t.ag.hostMem = s.ag.hostMem) ∧
  (∀ (s : State), ∃ t, exec (.rchunkClear) s = .next t ∧ Within [.ag] s t ∧ tget t.ag.chunks (s.ard Ia.TTB_RSEL_CHUNK) = 0 ∧ (∀ i, i ≠ s.ard
    Ia.TTB_RSEL_CHUNK → tget t.ag.chunks i = tget s.ag.chunks i)) ∧
  (∀ (s : State), s.ag.events.length < 64 → ∃ t, exec (.rstatEnd) s = .next t ∧ Within [.aregs, .flt, .agFlt, .ag] s t ∧ (∃ e, t.ag.events =
    s.ag.events ++ [e] ∧ e / 2 ^ 60 = 8) ∧ t.aregs = s.aregs)

/-- Loading, arming, disarming and the event queue of the agent (R480, R481, R482, R483). Each clause gives what holds of the state before, that the
  command answers a next state, the parts of the state that it may reach, and what that state holds. -/
def Obligations.AgentTimetable : Prop :=
  (∀ (s : State) (w : Word), s.isLeaf = false → ∃ t, exec (.ttbLlenWrite w) s = .next t ∧ Within [.aregs, .ag] s t ∧ t.ard Ia.TTB_STAT_STATE = 1 ∧
    t.ard Ia.TTB_LLEN_ENTRIES = min (w.toNat % 2 ^ 17) 65536 ∧ t.ard (TTB_STEP_NEXT agTtb) = 0 ∧ t.ard (TTB_STEP_COMMITTED agTtb) = 2 ^ 32 - 1 ∧
    t.ag.counters = [] ∧ t.ag.sends = []) ∧
  (∀ (s : State), s.isLeaf = false → ∃ t, exec (.agentArm) s = .next t ∧ Within [.aregs, .agTime, .flt, .agFlt, .ag] s t ∧ (t.ard Ia.TTB_STAT_STATE =
    if s.armErr = 0 then 2 else 0) ∧ t.ard Ia.TTB_STAT_ARM_ERR = s.armErr ∧ t.ag.counters = [] ∧ t.ag.sends = [] ∧ (s.armErr = 0 → t.ag.seedArmed =
    s.ag.seed)) ∧
  (∀ (s : State), s.ard Ia.TTB_STAT_STATE = 4 → s.ag.events.length < 64 → ∃ t, exec (.agentDisarm) s = .next t ∧ Within [.aregs, .flt, .agFlt, .ag] s
    t ∧ t.ard Ia.TTB_STAT_STATE = 0 ∧ t.ag.counters = [] ∧ t.ag.sends = [] ∧ (∃ e, t.ag.events = s.ag.events ++ [e] ∧ e / 2 ^ 60 = 5)) ∧
  (∀ (s : State), s.ard Ia.TTB_STAT_STATE = 3 → ∃ t, exec (.agentDisarm) s = .next t ∧ Within [.aregs, .flt, .agFlt, .ag] s t ∧ t.ag.disarmReq = true
    ∧ t.aregs = s.aregs ∧ t.ag.counters = s.ag.counters) ∧
  (∀ (s : State) (e : Nat) (r : List Nat), s.ag.events = e :: r → ∃ t, exec (.ttbEvtRead) s = .next t ∧ Within [.ag, .out] s t ∧ t.ag.events = r ∧
    t.out = s.out ++ [.value .agent 0x6001C0 (word e)]) ∧
  (∀ (s : State) (n : Nat) (k : AgCounter), (s.ag.counters.find? (fun x => x.cidx == n) = some k) → k.count < k.expect → s.agVoided k.step = false → ∃
    t, exec (.counterDeadlineCheck n) s = .next t ∧ Within [.regs, .aregs, .ports, .agPorts, .flt, .agFlt, .ag, .out] s t ∧ k.step ∈ t.ag.short ∧
    t.ag.counters = s.ag.counters) ∧
  (∀ (s : State) (n : Nat), s.ard Ia.TTB_STAT_STATE = 2 → s.ag.fresh = true → ∃ t, exec (.armStart .agent n) s = .next t ∧ Within [.regs, .aregs,
    .beyjo, .flt, .agFlt, .ag] s t ∧ t.ard Ia.TTB_STAT_STATE = 3 ∧ t.ard Ia.TTB_BASE_BEAT = s.ard Ia.TTB_ARM_AT_BEAT ∧ AregsBut [Ia.TTB_STAT_STATE,
    Ia.TTB_BASE_BEAT] s t ∧ t.ag.stopInject = false ∧ t.ag.events = s.ag.events ∧ t.regs = s.regs) ∧
  (∀ (s : State) (n : Nat), s.ard Ia.TTB_STAT_STATE = 2 → s.ag.fresh = false → ∃ t, exec (.armStart .agent n) s = .next t ∧ Within [.regs, .aregs,
    .beyjo, .flt, .agFlt, .ag] s t ∧ t.ard Ia.TTB_STAT_STATE = 3 ∧ t.ag.stopInject = false ∧ t.ag.flipPaused = false ∧ t.regs = s.regs)

/-- The codec unit, measurement and certificates of the agent (R484, R485, R486). Each clause gives what holds of the state before, that the command
  answers a next state, the parts of the state that it may reach, and what that state holds. -/
def Obligations.AgentUnits : Prop :=
  (∀ (s : State), s.ard Ia.CDC_JOB_CTRL_BUSY = 0 → s.isLeaf = false → s.jobErr s.jobWords = 0 → ∃ t, exec (.cdcJobGo) s = .next t ∧ Within [.aregs,
    .ag] s t ∧ t.ard Ia.CDC_JOB_CTRL_BUSY = 1 ∧ t.ard Ia.CDC_JOB_CTRL_DONE = 0 ∧ t.ard Ia.CDC_JOB_CTRL_ERR = 0 ∧ t.ag.job = s.jobWords ∧ AregsBut
    [Ia.CDC_JOB_CTRL_BUSY, Ia.CDC_JOB_CTRL_DONE, Ia.CDC_JOB_CTRL_ERR] s t) ∧
  (∀ (s : State) (f : MxFmt), s.ard Ia.CDC_JOB_CTRL_BUSY = 1 → MxFmt.ofByte (bits (nth s.ag.job 2) 63 56) = some f → ∃ t, exec (.cdcJobDone true) s =
    .next t ∧ Within [.aregs, .flt, .agFlt, .ag] s t ∧ t.ard Ia.CDC_JOB_CTRL_BUSY = 0 ∧ t.ard Ia.CDC_JOB_CTRL_DONE = 1 ∧ t.ard Ia.CDC_JOB_CTRL_ERR = 0
    ∧ t.ag.job = []) ∧
  (∀ (s : State), s.ard Ia.CDC_JOB_CTRL_BUSY = 1 → ∃ t, exec (.cdcJobDone false) s = .next t ∧ Within [.aregs, .flt, .agFlt, .ag] s t ∧ t.ard
    Ia.CDC_JOB_CTRL_BUSY = 0 ∧ t.ard Ia.CDC_JOB_CTRL_DONE = 1 ∧ t.ard Ia.CDC_JOB_CTRL_ERR = 4 ∧ t.ag.hostMem = s.ag.hostMem) ∧
  (∀ (s : State), s.ag.meas.done = false → ∃ t, exec (.measStart) s = .next t ∧ Within [.ag] s t ∧ t.ag.meas = ⟨true, false, []⟩ ∧ t.aregs = s.aregs) ∧
  (∀ (s : State) (w : Word), s.ag.meas.isOpen = true → ∃ t, exec (.measInWrite w) s = .next t ∧ Within [.ag] s t ∧ t.ag.meas.words = s.ag.meas.words
    ++ [w] ∧ t.ag.meas.isOpen = true ∧ t.aregs = s.aregs) ∧
  (∀ (s : State), s.ag.meas.isOpen = true → ∃ t, exec (.measDone) s = .next t ∧ Within [.aregs, .ag] s t ∧ t.ag.meas = ⟨false, true, []⟩ ∧ t.ard
    Ia.FRK_STAT_MEASURED = 1 ∧ (∀ i < 4, t.ard (Ia.FRK_HOSTFW_DIGEST i) = wAt (sha256 (s.ag.meas.words.flatMap fun w => leBytes 8 w.toNat)) (8 * i))) ∧
  (∀ (s : State), ∃ t, exec (.certLock) s = .next t ∧ Within [.aregs] s t ∧ t.ard Ia.FRK_CTRL_CERT_LOCK = 1 ∧ AregsBut [Ia.FRK_CTRL_CERT_LOCK] s t) ∧
  (∀ (s : State), ∃ t, exec (.iaTamperN) s = .next t ∧ Within [.aregs, .flt, .agFlt] s t ∧ t.ard Ia.FRK_STAT_TAMPER = 1 ∧ AregsBut
    [Ia.FRK_STAT_TAMPER] s t)

/-- Evidence and keys of the agent (R303, R486, R487). Each clause gives what holds of the state before, that the command answers a next state, the
  parts of the state that it may reach, and what that state holds. -/
def Obligations.AgentKeys : Prop :=
  (∀ (s : State) (n : Nat), s.ag.image.isSome = true → ∃ t, exec (.evreqGo n) s = .next t ∧ Within [.aregs, .ag] s t ∧ t.ag.evidence = some
    ⟨n, s.agNonce, s.aon Ia.FRK_EVREQ_HOLD, s.ag.keyPairs + 1, false⟩ ∧ t.ag.keyPairs = s.ag.keyPairs + 1 ∧ t.ard Ia.FRK_STAT_EV_PENDING = 1 ∧
    AregsBut [Ia.FRK_STAT_EV_PENDING] s t) ∧
  (∀ (s : State) (e : EvPending), s.ag.evidence = some e → e.formed = false → e.hold = true → ∃ t, exec (.evidenceFormed) s = .next t ∧ Within [.regs,
    .aregs, .ports, .agPorts, .flt, .agFlt, .ag, .out] s t ∧ t.ag.evidence = some { e with formed := true } ∧ t.ag.evBuf = mwrite [] 0 (s.evidenceMsg
    e) ∧ t.out = s.out ∧ t.aregs = s.aregs) ∧
  (∀ (s : State) (e : EvPending), s.ag.evidence = some e → e.formed = false → e.hold = false → ∃ t, exec (.evidenceFormed) s = .next t ∧ Within
    [.regs, .aregs, .ports, .agPorts, .flt, .agFlt, .ag, .out] s t ∧ t.ag.evidence = some { e with formed := true } ∧ t.ag.evBuf = s.ag.evBuf) ∧
  (∀ (s : State), ∃ t, exec (.decapKeyExpiry) s = .next t ∧ Within [.aregs, .ag] s t ∧ t.ag.evidence = none ∧ t.ag.evBuf = [] ∧ t.ard
    Ia.FRK_STAT_EV_PENDING = 0 ∧ AregsBut [Ia.FRK_STAT_EV_PENDING] s t) ∧
  (∀ (s : State) (kw : KeyWrap) (e : EvPending), s.isLeaf = false → s.ag.evidence = some e → e.nonce = kw.nonce → wrapFits e kw = true → s.ag.resets =
    [] → ∃ t, exec (.keywrapCell kw) s = .next t ∧ Within [.aregs, .flt, .agFlt, .ag, .out] s t ∧ t.ag.evidence = none ∧ t.ag.xfer.map (·.slot) = some
    (kSlot kw) ∧ (∃ ws, t.out = s.out ++ [.key (kSlot kw) ws]) ∧ t.ard Ia.FRK_STAT_EV_PENDING = 0) ∧
  (∀ (s : State) (x : KeyXfer), s.ag.xfer = some x → s.ag.events.length < 64 → ∃ t, exec (.keySidebandAck true) s = .next t ∧ Within [.aregs, .flt,
    .agFlt, .ag] s t ∧ t.ag.xfer = none ∧ t.ard Ia.FRK_KEYSTAT_CONTEXT = bits x.slot 6 3 ∧ (∃ e, t.ag.events = s.ag.events ++ [e] ∧ e / 2 ^ 60 = 7) ∧
    AregsBut [Ia.FRK_KEYSTAT_CONTEXT, Ia.FRK_KEYSTAT_KEYS] s t) ∧
  (∀ (s : State) (x : KeyXfer), s.ag.xfer = some x → s.ag.events.length < 64 → ∃ t, exec (.keySidebandTimeout) s = .next t ∧ Within [.aregs, .flt,
    .agFlt, .ag] s t ∧ t.ag.xfer = none ∧ (∃ e, t.ag.events = s.ag.events ++ [e] ∧ e / 2 ^ 60 = 7) ∧ AregsBut [Ia.FRK_KEYSTAT_KEYS] s t)

/-- Resets of the host chip and of the agent (R466, R470, R489). Each clause gives what holds of the state before, that the command answers a next
  state, the parts of the state that it may reach, and what that state holds. -/
def Obligations.AgentResets : Prop :=
  (∀ (s : State) (b : Nat), s.ag.resets = [] → ∃ t, exec (.agentRstGo 1 b) s = .next t ∧ Within [.aregs, .agTime, .flt, .agFlt, .ag, .out] s t ∧
    t.ag.resets = [⟨1, 0, false⟩] ∧ t.ard Ia.FRK_STAT_RESET = 1 ∧ t.ard Ia.RST_STAT_COMPUTE = 1 ∧ t.out = s.out ++ [.hcLines true 0] ∧ t.ag.meas =
    ⟨false, false, []⟩) ∧
  (∀ (s : State) (b : Nat), s.ag.resets = [] → ∃ t, exec (.rstReqGo 1 b) s = .next t ∧ Within [.aregs, .agTime, .flt, .agFlt, .ag, .out] s t ∧
    t.ag.resets = [⟨1, 0, false⟩] ∧ t.ard Ia.FRK_STAT_RESET = 1 ∧ t.ard Ia.RST_STAT_COMPUTE = 1 ∧ t.out = s.out ++ [.hcLines true 0] ∧ t.ag.meas =
    ⟨false, false, []⟩) ∧
  (∀ (s : State) (d b : Nat), s.ag.resets = [⟨d, b, false⟩] → ∃ t, exec (.hcResetHoldEnd) s = .next t ∧ Within [.ag, .out] s t ∧ t.ag.resets =
    [⟨d, b, true⟩] ∧ t.out = s.out ++ [.hcLines false 0] ∧ t.aregs = s.aregs) ∧
  (∀ (s : State), ((s.ag.resets.any fun r => r.released) = true) → ∃ t, exec (.hcRstDone) s = .next t ∧ Within [.aregs, .flt, .agFlt, .ag] s t ∧
    (t.ag.resets = s.ag.resets.filter fun r => !r.released) ∧ t.out = s.out) ∧
  (∀ (s : State), ((s.ag.resets.any fun r => r.released) = true) → ∃ t, exec (.hcDoneTimeout) s = .next t ∧ Within [.aregs, .flt, .agFlt, .ag] s t ∧
    (t.ag.resets = s.ag.resets.filter fun r => !r.released) ∧ t.out = s.out) ∧
  (∀ (s : State), ∃ t, exec (.iaPorstN) s = .next t ∧ Within [.aregs, .agTime, .agPorts, .agRoute, .rot, .agFlt, .ag, .out] s t ∧ (∀ f : Fld, agFused
    f.key = false → t.ard f = f.rst) ∧ (∀ f : Fld, agFused f.key = true → t.ard f = s.ard f) ∧ t.ag.porst = true ∧ t.ag.hostMem = s.ag.hostMem ∧
    t.ag.deviceId = s.ag.deviceId ∧ t.agTime = AgTimeSt.reset ∧ t.regs = s.regs) ∧
  (∀ (s : State) (n : Nat), s.ag.porst = true → ∃ t, exec (.iaPorstNRelease n) s = .next t ∧ Within [.regs, .aregs, .ports, .agPorts, .ag, .out] s t ∧
    t.ag.porst = false ∧ t.ag.bclkMhz = n ∧ t.ard Ia.TMK_STAT_STATE = 1) ∧
  (∀ (s : State) (w : Word), s.ard GEN_FID_VALID = 0 → ∃ t, exec (.agentFidWrite w) s = .next t ∧ Within [.aregs, .ports, .agPorts, .out] s t ∧ t.ard
    GEN_FID_FID = w.toNat % 2 ^ 14 ∧ t.ard GEN_FID_VALID = 1 ∧ AregsBut [GEN_FID_FID, GEN_FID_VALID] s t) ∧
  (∀ (s : State) (w : Word), s.ard GEN_FID_VALID = 1 → ∃ t, exec (.agentFidWrite w) s = .next t ∧ Within [.aregs, .ports, .agPorts, .out] s t ∧
    t.aregs = s.aregs ∧ t.out = s.out ++ [.bus 3 0])

/-- Checking, arming and starting a timetable; stopping, disarming and unloading a timetable, and checking its exchanges (R138, R142, R144, R146,
  R147, R154, R480). Each clause gives what holds of the state before, that the command answers a next state, the parts of the state that it may
  reach, and what that state holds. -/
def Obligations.TtbCheckAndArm : Prop :=
  (∀ (s : State) (c : Nat), s.ttbState c = 1 → ∃ t, exec (.ttbCheck c) s = .next t ∧ Within [.regs, .aregs, .ports, .agPorts, .route, .ttbs, .flt,
    .agFlt, .out] s t ∧ t.ttbState c = 2 ∧ t.rd (TTB_STAT_CHECK_OK (ttbPg c)) = 0) ∧
  (∀ (s : State) (c : Nat), c < 16 → s.ttbs.length = 16 → s.ttbState c = 2 → ∃ t, exec (.ttbCheckDone c) s = .next t ∧ Within [.regs, .ttbs, .beyjo] s
    t ∧ (t.ttbState c = if (s.checkNow c (s.modeNow 2)).isNone then 3 else 1) ∧ (s.checkNow c (s.modeNow 2) = none → t.rd (TTB_STAT_CHECK_OK (ttbPg
    c)) = 1 ∧ t.img c = some (readImage (s.imageBytes c)))) ∧
  (∀ (s : State) (c : Nat) (e : Nat × Nat), s.ttbState c = 2 → s.checkNow c (s.modeNow 2) = some e → ∃ t, exec (.ttbCheckDone c) s = .next t ∧ Within
    [.regs, .ttbs, .beyjo] s t ∧ t.ttbState c = 1 ∧ t.rd (TTB_STAT_CHECK_ERR (ttbPg c)) = e.1 % 2 ^ (TTB_STAT_CHECK_ERR (ttbPg c)).w ∧ t.rd
    (TTB_STAT_HOSTCHK (ttbPg c)) = 0 ∧ t.ttbs = s.ttbs) ∧
  (∀ (s : State) (c : Nat) (m : Image), c < 16 → s.ttbs.length = 16 → s.active = true → (s.ttb c).held = false → s.ttbState c = 3 → s.time.beat + 4096
    ≤ s.rd (TTB_ARM_AT_BEAT (ttbPg c)) → s.img c = some m → s.branchClash c m = none → ∃ t, exec (.ttbArm c) s = .next t ∧ Within [.regs, .aregs,
    .time, .ports, .agPorts, .route, .ttbs, .insts, .flt, .agFlt, .out] s t ∧ t.ttbState c = 4 ∧ (t.ttb c).uncommitted = [] ∧ (t.ttb c).rearm = false) ∧
  (∀ (s : State) (c : Nat), s.active = true → (s.ttb c).held = false → s.ttbState c = 3 → s.rd (TTB_ARM_AT_BEAT (ttbPg c)) < s.time.beat + 4096 → ∃ t,
    exec (.ttbArm c) s = .next t ∧ Within [.regs, .aregs, .time, .ports, .agPorts, .route, .ttbs, .insts, .flt, .agFlt, .out] s t ∧ t.ttbState c = 3 ∧
    t.rd (TTB_STAT_CHECK_ERR (ttbPg c)) = 0x0F ∧ t.rd (TTB_STAT_CHECK_DETAIL (ttbPg c)) = 0 ∧ t.ttbs = s.ttbs) ∧
  (∀ (s : State) (c : Nat), (s.ttb c).held = true → ∃ t, exec (.ttbArm c) s = .next t ∧ Within [.regs, .aregs, .time, .ports, .agPorts, .route, .ttbs,
    .insts, .flt, .agFlt, .out] s t ∧ t = s) ∧
  (∀ (s : State) (c : Nat) (armed : List Nat), c < 16 → s.ttbs.length = 16 → s.ttbState c = 4 → (∀ m ∈ s.membersOf c, m.2 ∈ armed) → ∃ t, exec
    (.armDeadline c armed) s = .next t ∧ Within [.regs, .aregs, .ports, .agPorts, .route, .ttbs, .beyjo, .flt, .agFlt, .out] s t ∧ t.ttbState c = 4 ∧
    t.rd (TTB_DIST_PENDING (ttbPg c)) = 0 ∧ (t.ttb c).notArmed = [] ∧ t.out = s.out) ∧
  (∀ (s : State) (c : Nat) (armed : List Nat) (m : Nat × Nat), s.ttbState c = 4 → m ∈ s.membersOf c → m.2 ∉ armed → ∃ t, exec (.armDeadline c armed) s
    = .next t ∧ Within [.regs, .aregs, .ports, .agPorts, .route, .ttbs, .beyjo, .flt, .agFlt, .out] s t ∧ t.ttbState c = 3 ∧ t.rd (TTB_STAT_CHECK_ERR
    (ttbPg c)) = 0x0F) ∧
  (∀ (s : State) (c : Nat), s.active = true → s.ttbState c = 4 → ∃ t, exec (.armStart .dz8 c) s = .next t ∧ Within [.regs, .aregs, .beyjo, .flt,
    .agFlt, .ag] s t ∧ t.ttbState c = 5 ∧ t.rd (TTB_STAT_PAUSED (ttbPg c)) = 0 ∧ t.rd (TTB_STAT_XDOM_HELD (ttbPg c)) = 0 ∧ t.ttbs = s.ttbs) ∧
  (∀ (s : State) (c : Nat), c < 16 → s.ttbs.length = 16 → s.armed c = true → ∃ t, exec (.ttbStop c) s = .next t ∧ Within [.ttbs] s t ∧ (t.ttb
    c).stopReq = true ∧ t.ttbState c = s.ttbState c ∧ (t.ttb c).uncommitted = (s.ttb c).uncommitted) ∧
  (∀ (s : State) (c : Nat), c < 16 → s.ttbs.length = 16 → s.ttbState c = 5 → s.rd (TTB_STAT_PAUSED (ttbPg c)) = 0 → ∃ t, exec (.ttbDisarm c) s = .next
    t ∧ Within [.regs, .aregs, .ports, .agPorts, .route, .ttbs, .insts, .tile, .hbm, .beyjo, .flt, .agFlt, .out] s t ∧ (t.ttb c).disarmReq = true ∧
    t.ttbState c = 5 ∧ t.out = s.out ∧ t.insts = s.insts) ∧
  (∀ (s : State) (c : Nat), c < 16 → s.ttbs.length = 16 → s.ttbState c = 6 → ∃ t, exec (.ttbDisarm c) s = .next t ∧ Within [.regs, .aregs, .ports,
    .agPorts, .route, .ttbs, .insts, .tile, .hbm, .beyjo, .flt, .agFlt, .out] s t ∧ t.ttbState c = 3 ∧ (t.ttb c).uncommitted = [] ∧ (t.ttb c).void =
    none ∧ (t.ttb c).miss = none) ∧
  (∀ (s : State) (c : Nat), c < 16 → s.ttbs.length = 16 → s.armed c = false → ∃ t, exec (.ttbUnload c) s = .next t ∧ Within [.regs, .ttbs] s t ∧
    t.ttbState c = 0 ∧ t.rd (TTB_STAT_CHECK_OK (ttbPg c)) = 0 ∧ t.img c = none) ∧
  (∀ (s : State) (c x : Nat) (mp : Image × Program) (i : Instance), c < 16 → s.ttbs.length = 16 → s.prog c x = some mp → s.inst c x = some i → mp.2.op
    ≠ 5 → i.isOpen = true → i.state = .opened → s.isBranch c = false → (s.ttb c).void = none → (s.ttb c).miss = none → ∃ t, exec
    (.exchangeDeadlineCheck c x) s = .next t ∧ Within [.regs, .ttbs, .insts] s t ∧ (t.inst c x).map (·.state) = some .missed ∧ (t.ttb c).miss = some
    ⟨i.step, i.iter, 1, x, none⟩ ∧ t.rd (CLX_COUNT_MISSED (clxPg c)) = (s.rd (CLX_COUNT_MISSED (clxPg c)) + 1) % 2 ^ (CLX_COUNT_MISSED (clxPg c)).w) ∧
  (∀ (s : State) (c x : Nat) (i : Instance), s.inst c x = some i → i.state = .complete → ∃ t, exec (.exchangeDeadlineCheck c x) s = .next t ∧ Within
    [.regs, .ttbs, .insts] s t ∧ t = s)

/-- Step boundaries and step commits at the unit and at the agent (R132, R135, R146, R150, R368). Each clause gives what holds of the state before,
  that the command answers a next state, the parts of the state that it may reach, and what that state holds. -/
def Obligations.TtbSteps : Prop :=
  (∀ (s : State) (c : Nat) (m : Image), c < 16 → s.ttbs.length = 16 → s.img c = some m → s.active = true → s.ttbState c = 5 → s.rd (TTB_STAT_PAUSED
    (ttbPg c)) = 0 → (s.ttb c).disarmReq = false → (s.ttb c).void = none → s.ended c m = false → s.quiet .dz8 = false → (s.ttb c).stopReq = false →
    (s.ttb c).held = false → s.flt.fatal = false → (m.step (s.rd (TTB_STEP_NEXT (ttbPg c)))).xdom = false → ∃ t, exec (.stepBoundary .dz8 c) s = .next
    t ∧ Within [.regs, .aregs, .route, .ttbs, .insts, .tile, .hbm, .beyjo, .flt, .agFlt, .ag] s t ∧ (t.ttb c).uncommitted = (s.ttb c).uncommitted ++
    [⟨s.rd (TTB_STEP_NEXT (ttbPg c)), s.rd (TTB_ITER_ITER (ttbPg c)), s.time.beat⟩] ∧ t.ttbState c = 5 ∧ t.rd (TTB_STEP_NEXT (ttbPg c)) = (nextStep
    m.steps.length m.iterBeats (s.rd (TTB_STEP_NEXT (ttbPg c))) (s.rd (TTB_ITER_ITER (ttbPg c)))).1 % 2 ^ (TTB_STEP_NEXT (ttbPg c)).w) ∧
  (∀ (s : State) (c : Nat) (m : Image), c < 16 → s.ttbs.length = 16 → s.img c = some m → s.active = true → s.ttbState c = 5 → s.rd (TTB_STAT_PAUSED
    (ttbPg c)) = 0 → (s.ttb c).disarmReq = false → (s.ttb c).void = none → s.ended c m = false → s.quiet .dz8 = false → (s.ttb c).stopReq = true → ∃
    t, exec (.stepBoundary .dz8 c) s = .next t ∧ Within [.regs, .aregs, .route, .ttbs, .insts, .tile, .hbm, .beyjo, .flt, .agFlt, .ag] s t ∧ t.rd
    (TTB_STAT_PAUSED (ttbPg c)) = 1 ∧ t.rd (TTB_STAT_XDOM_HELD (ttbPg c)) = 0 ∧ (t.ttb c).flipPaused = false ∧ (t.ttb c).uncommitted = (s.ttb
    c).uncommitted ∧ t.ttbState c = 5) ∧
  (∀ (s : State) (c : Nat), s.ard Ia.TTB_STAT_STATE = 3 → s.ag.disarmReq = false → s.ag.flipPaused = false → s.agRolled = false → s.agEnded = false →
    s.quiet .agent = false → s.ag.stopInject = false → s.agTime.injectStop = false → s.ard Ia.TMK_STAT_STATE = 2 → ∃ t, exec (.stepBoundary .agent c)
    s = .next t ∧ Within [.regs, .aregs, .route, .ttbs, .insts, .tile, .hbm, .beyjo, .flt, .agFlt, .ag] s t ∧ t.ag.uncommitted = s.ag.uncommitted ++
    [⟨s.ard (TTB_STEP_NEXT agTtb), s.ard (TTB_ITER_ITER agTtb), s.agTime.beat⟩] ∧ t.ard Ia.TTB_STAT_STATE = 3 ∧ t.ag.hostMem = s.ag.hostMem) ∧
  (∀ (s : State) (c : Nat), s.ard Ia.TTB_STAT_STATE = 3 → s.ag.disarmReq = false → s.quiet .agent = false → s.ard Ia.TMK_STAT_STATE ≠ 2 → ∃ t, exec
    (.stepBoundary .agent c) s = .next t ∧ Within [.regs, .aregs, .route, .ttbs, .insts, .tile, .hbm, .beyjo, .flt, .agFlt, .ag] s t ∧ t = s) ∧
  (∀ (s : State) (c : Nat) (m : Image) (o : OpenStep) (r : List OpenStep), c < 16 → s.ttbs.length = 16 → (s.ttb c).uncommitted = o :: r → s.img c =
    some m → s.active = true → (s.ttb c).void = none → ∃ t, exec (.stepCommit .dz8 c) s = .next t ∧ Within [.regs, .aregs, .ports, .agPorts, .ttbs,
    .insts, .tile, .hbm, .beyjo, .flt, .agFlt, .ag, .out] s t ∧ (t.ttb c).uncommitted = r ∧ t.rd (TTB_STEP_COMMITTED (ttbPg c)) = o.step % 2 ^ 32 ∧
    (t.rd (TTB_VOID_ATTEMPT (ttbPg c)) = (match (s.ttb c).withAttempts o.step o.iter 0 with | x :: _ => x.2.2 | [] => 0) % 2 ^ (TTB_VOID_ATTEMPT
    (ttbPg c)).w)) ∧
  (∀ (s : State) (c : Nat) (o : OpenStep) (r : List OpenStep), s.ag.uncommitted = o :: r → s.agVoided o.step = false → s.ag.stopInject = false →
    o.step ∉ s.ag.short → s.agEnded = false → ∃ t, exec (.stepCommit .agent c) s = .next t ∧ Within [.regs, .aregs, .ports, .agPorts, .ttbs, .insts,
    .tile, .hbm, .beyjo, .flt, .agFlt, .ag, .out] s t ∧ t.ag.uncommitted = r ∧ (t.ag.counters = s.ag.counters.filter fun k => k.step != o.step) ∧
    t.ard (TTB_STEP_COMMITTED agTtb) = o.step % 2 ^ 32) ∧
  (∀ (s : State) (c : Nat) (o : OpenStep) (r : List OpenStep), s.ag.uncommitted = o :: r → s.agVoided o.step = false → s.ag.stopInject = false →
    o.step ∈ s.ag.short → ∃ t, exec (.stepCommit .agent c) s = .next t ∧ Within [.regs, .aregs, .ports, .agPorts, .ttbs, .insts, .tile, .hbm, .beyjo,
    .flt, .agFlt, .ag, .out] s t ∧ t.ag.uncommitted = s.ag.uncommitted ∧ t.ag.stopInject = true ∧ t.ard (TTB_STEP_COMMITTED agTtb) = s.ard
    (TTB_STEP_COMMITTED agTtb))

/-- Misses and void notices of a timetable (R147, R148, R151, R152). Each clause gives what holds of the state before, that the command answers a next
  state, the parts of the state that it may reach, and what that state holds. -/
def Obligations.TtbVoids : Prop :=
  (∀ (s : State) (c : Nat) (o : OpenStep) (r : List OpenStep), c < 16 → s.ttbs.length = 16 → (s.ttb c).uncommitted = o :: r → s.ttbState c = 5 →
    (s.ttb c).void = none → (s.ttb c).miss = none → ∃ t, exec (.ttbVoid c) s = .next t ∧ Within [.regs, .ttbs] s t ∧ (t.ttb c).miss = some
    ⟨o.step, o.iter, 6, 0, none⟩ ∧ t.regs = s.regs) ∧
  (∀ (s : State) (c : Nat) (x : Miss) (m : Image) (o : OpenStep), c < 16 → s.ttbs.length = 16 → (s.ttb c).miss = some x → s.img c = some m → ((s.ttb
    c).uncommitted.find? (fun o => o.step == x.step && o.iter == x.iter) = some o) → s.active = true → s.time.beat < s.commitBeat c o → ∃ t, exec
    (.voidSend c) s = .next t ∧ Within [.regs, .aregs, .ports, .agPorts, .ttbs, .insts, .tile, .hbm, .beyjo, .flt, .agFlt, .out] s t ∧ (t.ttb c).miss
    = none ∧ (t.ttb c).void.map (·.step) = some o.step ∧ (t.ttb c).void.map (·.rb) = some (s.commitBeat c o) ∧ (t.ttb c).void.map (·.repeats) = some
    2) ∧
  (∀ (s : State) (c : Nat) (v : VoidSt), c < 16 → s.ttbs.length = 16 → (s.ttb c).void = some v → 0 < v.repeats → ∃ t, exec (.voidRepeat c) s = .next t
    ∧ Within [.regs, .aregs, .ports, .agPorts, .ttbs, .flt, .agFlt, .out] s t ∧ (t.ttb c).void = some { v with repeats := v.repeats - 1 }) ∧
  (∀ (s : State) (c : Nat) (v : VoidSt), (s.ttb c).void = some v → v.repeats = 0 → (s.ttb c).others = [] → ∃ t, exec (.voidRepeat c) s = .next t ∧
    Within [.regs, .aregs, .ports, .agPorts, .ttbs, .flt, .agFlt, .out] s t ∧ t = s) ∧
  (∀ (s : State) (x : Cell), s.ard Ia.RTE_SELF_VALID = 1 → voidCtx x = s.agCtx → s.ard Ia.TTB_STAT_STATE = 3 → s.ag.void = none → ∃ t, exec (.voidCell
    .agent x) s = .next t ∧ Within [.regs, .aregs, .ports, .agPorts, .ttbs, .flt, .agFlt, .ag] s t ∧ t.ag.void = some (voidOf x) ∧ t.ag.uncommitted =
    s.ag.uncommitted ∧ t.ard (TTB_VOID_SERIAL agTtb) = (voidOf x).serial % 2 ^ 32) ∧
  (∀ (s : State) (x : Cell), s.ttbs.length = 16 → s.active = true → (voidOf x).home ≠ s.fid → (s.membersOf (voidCtx x)).isEmpty = false → (s.ttb
    (voidCtx x)).void = none → ∃ t, exec (.voidCell .dz8 x) s = .next t ∧ Within [.regs, .aregs, .ports, .agPorts, .ttbs, .flt, .agFlt, .ag] s t ∧
    (t.ttb (voidCtx x)).void = some { voidOf x with repeats := 2 }) ∧
  (∀ (s : State) (x : Cell), (voidOf x).home = s.fid → ∃ t, exec (.voidCell .dz8 x) s = .next t ∧ Within [.regs, .aregs, .ports, .agPorts, .ttbs,
    .flt, .agFlt, .ag] s t ∧ t = s) ∧
  (∀ (s : State) (x : Cell), bits (cellWord x 4) 63 56 ≠ 2 → ∃ t, exec (.stepmissCell x) s = .next t ∧ Within [.regs, .aregs, .ports, .agPorts, .ttbs,
    .insts, .tile, .hbm, .beyjo, .flt, .agFlt, .out] s t ∧ t = s) ∧
  (∀ (s : State) (x : Cell) (c : Nat) (o : OpenStep), c < 16 → s.ttbs.length = 16 → bits (cellWord x 4) 63 56 = 2 → (Event.ofWords (cellWord x 0)
    (cellWord x 1) (cellWord x 2) (cellWord x 3)).ctx = some c → s.isBranch c = false → ((s.ttb c).uncommitted.find? (fun o => o.step == bits
    (cellWord x 5) 31 0 && o.iter == bits (cellWord x 5) 63 32) = some o) → s.time.beat < s.commitBeat c o → (s.ttb c).void = none → (s.ttb c).miss =
    none → ∃ t, exec (.stepmissCell x) s = .next t ∧ Within [.regs, .aregs, .ports, .agPorts, .ttbs, .insts, .tile, .hbm, .beyjo, .flt, .agFlt, .out]
    s t ∧ (t.ttb c).miss.map (·.step) = some (bits (cellWord x 5) 31 0) ∧ (t.ttb c).miss.map (·.cause) = some 2 ∧ t.ttbState c = s.ttbState c) ∧
  (∀ (s : State) (c : Nat) (rs : List VoidReport) (v : VoidSt), c < 16 → s.ttbs.length = 16 → (s.ttb c).void = some v → v.home = s.fid → s.active =
    true → (∀ m ∈ s.membersOf c, ∃ r ∈ rs, r.fid = m.2 ∧ r.serial = v.serial ∧ r.committed = false) → ∃ t, exec (.voidConfirmRound c rs) s = .next t ∧
    Within [.regs, .aregs, .ports, .agPorts, .ttbs, .insts, .tile, .hbm, .beyjo, .flt, .agFlt, .out] s t ∧ (t.ttb c).void = some
    { v with unconfirmed := [] } ∧ t.out = s.out ∧ t.regs = s.regs)

/-- Rollback and restart of a voided step at the unit and at the agent (R149, R150, R151, R256). Each clause gives what holds of the state before,
  that the command answers a next state, the parts of the state that it may reach, and what that state holds. -/
def Obligations.TtbRollback : Prop :=
  (∀ (s : State) (c : Nat) (v : VoidSt), c < 16 → s.ttbs.length = 16 → (s.ttb c).void = some v → v.rolled = false → v.rs.isSome = true → ∃ t, exec
    (.rollback .dz8 c) s = .next t ∧ Within [.regs, .aregs, .ttbs, .insts, .tile, .hbm, .beyjo, .flt, .agFlt, .ag] s t ∧ t.rd (TTB_STEP_NEXT (ttbPg
    c)) = v.step % 2 ^ (TTB_STEP_NEXT (ttbPg c)).w ∧ t.rd (TTB_ITER_ITER (ttbPg c)) = v.iter % 2 ^ (TTB_ITER_ITER (ttbPg c)).w ∧ (t.ttb c).void = some
    { v with rolled := true } ∧ ((t.ttb c).uncommitted = (s.ttb c).uncommitted.filter fun o => !v.takes o)) ∧
  (∀ (s : State) (c : Nat) (v : VoidSt), c < 16 → s.ttbs.length = 16 → (s.ttb c).void = some v → v.rolled = false → v.rs = none → s.ttbState c = 5 → ∃
    t, exec (.rollback .dz8 c) s = .next t ∧ Within [.regs, .aregs, .ttbs, .insts, .tile, .hbm, .beyjo, .flt, .agFlt, .ag] s t ∧ (t.ttb c).void = none
    ∧ t.ttbState c = 6) ∧
  (∀ (s : State) (c : Nat) (v : VoidSt), s.ag.void = some v → v.rolled = false → v.rs.isSome = true → ∃ t, exec (.rollback .agent c) s = .next t ∧
    Within [.regs, .aregs, .ttbs, .insts, .tile, .hbm, .beyjo, .flt, .agFlt, .ag] s t ∧ t.ard (TTB_STEP_NEXT agTtb) = v.step % 2 ^ (TTB_STEP_NEXT
    agTtb).w ∧ t.ag.void = some { v with rolled := true } ∧ t.ag.stopInject = false ∧ (t.ag.uncommitted = s.ag.uncommitted.filter fun o => !decide
    ([v.iter, v.step] ≤ [o.iter, o.step]))) ∧
  (∀ (s : State) (c : Nat) (v : VoidSt) (rs : Nat), c < 16 → s.ttbs.length = 16 → (s.ttb c).void = some v → v.rolled = true → v.unconfirmed = [] →
    v.rs = some rs → (s.ctx c).release = none → ∃ t, exec (.restartBeat .dz8 c) s = .next t ∧ Within [.regs, .aregs, .ports, .agPorts, .ttbs, .insts,
    .tile, .hbm, .beyjo, .flt, .agFlt, .ag, .out] s t ∧ (t.ttb c).void = none ∧ t.rd (TTB_VOID_PARITY (ttbPg c)) = v.parity % 2 ∧ t.rd (TTB_BASE_BEAT
    (ttbPg c)) = (rs - s.nextStart c) % 2 ^ (TTB_BASE_BEAT (ttbPg c)).w ∧ t.ttbState c = s.ttbState c) ∧
  (∀ (s : State) (c : Nat) (v : VoidSt), c < 16 → s.ttbs.length = 16 → (s.ttb c).void = some v → v.rolled = true → v.unconfirmed ≠ [] → v.home = s.fid
    → (s.ctx c).release = none → ∃ t, exec (.restartBeat .dz8 c) s = .next t ∧ Within [.regs, .aregs, .ports, .agPorts, .ttbs, .insts, .tile, .hbm,
    .beyjo, .flt, .agFlt, .ag, .out] s t ∧ t.ttbState c = 6 ∧ (t.ttb c).void = none ∧ (t.ttb c).uncommitted = []) ∧
  (∀ (s : State) (c : Nat) (v : VoidSt) (rs : Nat), s.ag.void = some v → v.rolled = true → s.ag.disarmReq = false → v.rs = some rs → ∃ t, exec
    (.restartBeat .agent c) s = .next t ∧ Within [.regs, .aregs, .ports, .agPorts, .ttbs, .insts, .tile, .hbm, .beyjo, .flt, .agFlt, .ag, .out] s t ∧
    t.ag.void = none ∧ t.ard (TTB_VOID_PARITY agTtb) = v.parity % 2 ∧ t.ag.uncommitted = s.ag.uncommitted) ∧
  (∀ (s : State) (c : Nat) (l : List CongestionCount), c < 16 → ∃ t, exec (.cmapCollect c l) s = .next t ∧ Within [.regs, .ttbs] s t ∧ RegsBut
    [GEN_MODE_IN_FORCE] s t ∧ (t.ttb c).uncommitted = (s.ttb c).uncommitted ∧ t.ttbState c = s.ttbState c) ∧
  (∀ (s : State) (c : Nat), ∃ t, exec (.cmapCollect c []) s = .next t ∧ Within [.regs, .ttbs] s t ∧ RegsBut [GEN_MODE_IN_FORCE] s t ∧ t.ttbs = s.ttbs) ∧
  (∀ (s : State) (c : Nat), c < 16 → s.ttbs.length = 16 → ∃ t, exec (.cmapClear c) s = .next t ∧ Within [.ttbs] s t ∧ (t.ttb c).cmap = [] ∧ (t.ttb
    c).uncommitted = (s.ttb c).uncommitted ∧ t.img c = s.img c) ∧
  (∀ (s : State) (n : Nat), n ≤ s.armedEnergy 16 + s.idleUj → n < 2 ^ (PWR_ENERGY_LAST_UJ).w → ∃ t, exec (.energyWindow n) s = .next t ∧ Within
    [.regs, .flt, .agFlt] s t ∧ t.rd PWR_ENERGY_LAST_UJ = n ∧ t.flt = s.flt ∧ RegsBut [PWR_ENERGY_LAST_UJ, PWR_OVER_MAX_UJ] s t) ∧
  (∀ (s : State) (n : Nat), s.armedEnergy 16 + s.idleUj < n → ∃ t, exec (.energyWindow n) s = .next t ∧ Within [.regs, .flt, .agFlt] s t ∧ t.rd
    PWR_OVER_WINDOWS = (s.rd PWR_OVER_WINDOWS + 1) % 2 ^ (PWR_OVER_WINDOWS).w)

/-- Contribution cells, opened instances, engine errors and decoded blocks (R160, R162, R182, R184, R202). Each clause gives what holds of the state
  before, that the command answers a next state, the parts of the state that it may reach, and what that state holds. -/
def Obligations.EngineContributions : Prop :=
  (∀ (s : State) (po : Nat) (x : Cell), x.epoch ≠ s.epochOf .dz8 s.domain → ∃ t, exec (.contribCell po x) s = .next t ∧ Within [.regs, .aregs, .insts,
    .hbm, .flt, .agFlt] s t ∧ t = s.discard .dz8 po x rEPOCH) ∧
  (∀ (s : State) (po : Nat) (x : Cell) (c : Nat) (m : Image) (p : Program) (i : Instance), x.epoch = s.epochOf .dz8 s.domain → s.ctxOfFid x.src = some
    c → s.prog c (x.cidx % 2 ^ 15) = some (m, p) → s.inst c (x.cidx % 2 ^ 15) = some i → i.isOpen = true → i.state ≠ .error → i.parity = x.cidx / 2 ^
    15 → s.knows p i x.src = true → x.offset % 2 ^ 30 < s.inputCells c p x.src (x.offset / 2 ^ 30) → i.count x.src (x.offset / 2 ^ 30) < s.expected p
    i x.src (x.offset / 2 ^ 30) → ∃ t, exec (.contribCell po x) s = .next t ∧ Within [.regs, .aregs, .insts, .hbm, .flt, .agFlt] s t ∧ t = (s.absorb m
    p i x.src (x.offset / 2 ^ 30) (x.offset % 2 ^ 30) x.payload).countCell p c (x.cidx % 2 ^ 15) x.src (x.offset / 2 ^ 30) ∧ (∃ j, t.inst c (x.cidx %
    2 ^ 15) = some j ∧ j.count x.src (x.offset / 2 ^ 30) = i.count x.src (x.offset / 2 ^ 30) + 1)) ∧
  (∀ (s : State) (c : Nat) (m : Image), c < 16 → s.ttbs.length = 16 → s.img c = some m → s.active = true → s.armed c = true → s.rd (TTB_STAT_PAUSED
    (ttbPg c)) = 0 → ∃ t, exec (.instanceOpen c) s = .next t ∧ Within [.regs, .insts, .tile, .hbm] s t ∧ (∀ x ∈ m.exchanges, x.1.step = s.rd
    (TTB_STEP_NEXT (ttbPg c)) → s.isBranch c = false → ∃ i ∈ t.insts, i.ctx = c ∧ i.xid = x.1.xid ∧ i.isOpen = true ∧ i.state = .opened ∧ i.counts =
    [])) ∧
  (∀ (s : State) (c x k d : Nat) (i : Instance), c < 16 → s.ttbs.length = 16 → s.inst c x = some i → i.isOpen = true → i.state = .opened → s.isBranch
    c = false → (s.ttb c).void = none → (s.ttb c).miss = none → k < 2 ^ CLX_ENG_ERR_CLASS.w → ∃ t, exec (.engineError c x k ⟨d, none⟩) s = .next t ∧
    Within [.regs, .ttbs, .insts, .flt, .agFlt] s t ∧ (t.inst c x).map (·.state) = some .error ∧ t.rd CLX_ENG_ERR_CLASS = k ∧ (t.ttb c).miss = some
    ⟨i.step, i.iter, 3, x, none⟩) ∧
  (∀ (s : State) (c x k d : Nat), s.inst c x = none → ∃ t, exec (.engineError c x k ⟨d, none⟩) s = .next t ∧ Within [.regs, .ttbs, .insts, .flt,
    .agFlt] s t ∧ t = s) ∧
  (∀ (s : State) (c x k d : Nat) (q : Nat × Nat), s.inst c x = none → (d = 2 ∨ d = 3) → ∃ t, exec (.engineError c x k ⟨d, some q⟩) s = .next t ∧
    Within [.regs, .ttbs, .insts, .flt, .agFlt] s t ∧ t = s.codecError d q.1 c x q.2 ∧ t.rd (CDC_ERR_CLASS (cdcPg (d - 2))) = q.1 % 2 ^ (CDC_ERR_CLASS
    0).w ∧ t.rd (CDC_ERR_CONTEXT (cdcPg (d - 2))) = c % 2 ^ (CDC_ERR_CONTEXT 0).w ∧ t.rd (CDC_ERR_XID (cdcPg (d - 2))) = x % 2 ^ (CDC_ERR_XID 0).w ∧
    t.rd (CDC_ERR_ENGINE (cdcPg (d - 2))) = q.2 % 2 ^ (CDC_ERR_ENGINE 0).w) ∧
  (∀ (s : State) (c x f n b : Nat) (m : Image) (p : Program) (i : Instance), s.prog c x = some (m, p) → s.inst c x = some i → p.inMx n = false → ∃ t,
    exec (.blockDecode c x f n b) s = .next t ∧ Within [.regs, .insts, .hbm, .flt, .agFlt] s t ∧ t = s) ∧
  (∀ (s : State) (c x f n b : Nat) (m : Image) (p : Program) (i : Instance) (g : MxFmt) (lid : Nat) (pl : Nat × Nat × Nat), s.prog c x = some (m, p) →
    s.inst c x = some i → (lid = ((p.members.find? fun q => s.lidFid c q.lid == some f).map (·.lid)).getD 0) → pl = blockPlace (p.inShape lid n) b →
    i.isOpen = true → p.inMx n = true → p.inMdies = false → MxFmt.ofByte (p.inShape lid n).1 = some g → pl.1 < (p.inShape lid n).2.2.2 → 128 * pl.2.1
    < (p.inShape lid n).2.1 → i.holds f n pl.2.2 g.bsz = true → ((i.decoded.any fun y => y.1 == f && y.2.1 == decKey n (pl.1 * (p.inShape lid n).2.1 +
    128 * pl.2.1)) = false) → (p.op = 5 → n = 2 → (i.slotToken p lid (pl.1 / p.cap) (pl.1 % p.cap)).isSome = true) → ∃ t, exec (.blockDecode c x f n
    b) s = .next t ∧ Within [.regs, .insts, .hbm, .flt, .agFlt] s t ∧ t.rd (CDC_COUNT_DECODED (cdcPg (s.workDie x))) = (s.rd (CDC_COUNT_DECODED (cdcPg
    (s.workDie x))) + 1) % 2 ^ (CDC_COUNT_DECODED (cdcPg (s.workDie x))).w ∧ (∃ j, t.inst c x = some j ∧ j.state = i.state ∧ j.counts = i.counts ∧
    (j.decoded.any fun y => y.1 == f && y.2.1 == decKey n (pl.1 * (p.inShape lid n).2.1 + 128 * pl.2.1)) = true))

/-- Encoded blocks, merge blocks, ready instances and results that leave (R160, R161, R162, R176, R203, R254). Each clause gives what holds of the
  state before, that the command answers a next state, the parts of the state that it may reach, and what that state holds. -/
def Obligations.EngineResults : Prop :=
  (∀ (s : State) (c x k b : Nat) (m : Image) (p : Program) (i : Instance), s.prog c x = some (m, p) → s.inst c x = some i → i.isOpen = true →
    p.inMdies = false → i.state = .complete → ∃ t, exec (.blockEncode c x k b) s = .next t ∧ Within [.regs, .insts, .tile, .hbm] s t ∧ t = s.encodeBlk
    c m p i k b) ∧
  (∀ (s : State) (c x k b : Nat) (m : Image) (p : Program) (i : Instance), s.prog c x = some (m, p) → s.inst c x = some i → i.isOpen = true →
    p.inMdies = false → (i.state = .complete ∨ (p.op = 5 ∧ k ≠ 0 ∧ i.stage1 = true)) → (((s.mxPart p i k).any fun q => decide (b / max 1 (ceilDiv
    q.len 128) < q.rows) && q.filled (b / max 1 (ceilDiv q.len 128))) = true) → ((i.encoded.any fun y => y.1 == encKey k b) = false) → ∃ t, exec
    (.blockEncode c x k b) s = .next t ∧ Within [.regs, .insts, .tile, .hbm] s t ∧ (∃ j, t.inst c x = some j ∧ j.state = i.state ∧ j.encoded.dropLast
    = i.encoded ∧ (j.encoded.getLast?.map (·.1)) = some (encKey k b)) ∧ t.rd (CDC_COUNT_ENCODED (cdcPg (s.workDie x))) = (s.rd (CDC_COUNT_ENCODED
    (cdcPg (s.workDie x))) + 1) % 2 ^ (CDC_COUNT_ENCODED 0).w ∧ t.hbm = s.hbm) ∧
  (∀ (s : State) (c x : Nat) (m : Image) (p : Program) (i : Instance), s.prog c x = some (m, p) → s.inst c x = some i → i.isOpen = true → p.op = 5 →
    i.stage1 = false → i.state = .opened → ((s.expects c p (s.branchUnit i)).all (fun y => y.2.1 != 0 || i.count y.1 0 == y.2.2) = true) → ∃ t, exec
    (.routeCombineStage1 c x) s = .next t ∧ Within [.regs, .insts, .tile, .hbm, .flt, .agFlt] s t ∧ t = s.doStage1 c m p i) ∧
  (∀ (s : State) (c x : Nat) (m : Image) (p : Program) (i : Instance), s.prog c x = some (m, p) → s.inst c x = some i → i.isOpen = true → p.op = 5 →
    i.stage1 = false → (i.state = .opened ∨ i.state = .complete) → ((s.expects c p (s.branchUnit i)).all (fun y => y.2.1 != 0 || i.count y.1 0 ==
    y.2.2) = true) → ∃ t, exec (.routeCombineStage1 c x) s = .next t ∧ Within [.regs, .insts, .tile, .hbm, .flt, .agFlt] s t ∧ (∃ j, t.inst c x = some
    j ∧ j.stage1 = true ∧ j.state = i.state ∧ j.counts = i.counts)) ∧
  (∀ (s : State) (c x : Nat) (m : Image) (p : Program) (i : Instance), s.prog c x = some (m, p) → s.inst c x = some i → i.isOpen = true → p.op = 5 →
    i.stage1 = false → (i.state = .opened ∨ i.state = .complete) → ((s.expects c p (s.branchUnit i)).all (fun y => y.2.1 != 0 || i.count y.1 0 ==
    y.2.2) = true) → p.infmt ≠ 3 → i.choices = [] → ∃ t, exec (.routeCombineStage1 c x) s = .next t ∧ Within [.regs, .insts, .tile, .hbm, .flt,
    .agFlt] s t ∧ (∃ j, t.inst c x = some j ∧ j.hidden = (s.stage1 p i).1 ∧ j.choices = (s.stage1 p i).2)) ∧
  (∀ (s : State) (c x : Nat) (m : Image) (p : Program) (i : Instance), s.prog c x = some (m, p) → s.inst c x = some i → ((s.expects c p (s.branchUnit
    i)).all (fun y => y.2.1 != 0 || i.count y.1 0 == y.2.2) = false) → ∃ t, exec (.routeCombineStage1 c x) s = .next t ∧ Within [.regs, .insts, .tile,
    .hbm, .flt, .agFlt] s t ∧ t = s) ∧
  (∀ (s : State) (c x : Nat) (m : Image) (p : Program) (i : Instance), s.prog c x = some (m, p) → s.inst c x = some i → i.stage1 = true → ∃ t, exec
    (.routeCombineStage1 c x) s = .next t ∧ Within [.regs, .insts, .tile, .hbm, .flt, .agFlt] s t ∧ t = s) ∧
  (∀ (s : State) (c x b : Nat) (m : Image) (p : Program) (i : Instance), s.prog c x = some (m, p) → s.inst c x = some i → i.isOpen = true → p.inMdies
    = true → i.state = .complete → 384 * b < p.elems → i.encoded = [] → p.op = 1 → ∃ t, exec (.mergeBlockComplete c x b) s = .next t ∧ Within [.regs,
    .ttbs, .insts, .tile, .hbm, .flt, .agFlt] s t ∧ t = s.mergeDone c m p i b) ∧
  (∀ (s : State) (c x b : Nat) (m : Image) (p : Program) (i : Instance), s.prog c x = some (m, p) → s.inst c x = some i → i.isOpen = true → p.inMdies
    = true → (i.state = .opened ∨ i.state = .complete) → 384 * b < p.elems → ((i.encoded.any fun y => y.1 == encKey 0 b) = false) → (p.op = 6 →
    s.hbm.mapBad.contains c = false ∧ s.stateBad c (p.paramOff / s.optB c + 384 * b) (min 384 (p.elems - 384 * b)) = none) → ∃ t, exec
    (.mergeBlockComplete c x b) s = .next t ∧ Within [.regs, .ttbs, .insts, .tile, .hbm, .flt, .agFlt] s t ∧ (∃ j, t.inst c x = some j ∧ j.state =
    i.state ∧ j.encoded = i.encoded ++ [(encKey 0 b, [])]) ∧ ((t.hbm.slots.any fun y => y.ctx == c && y.xid == x && y.block == b) = false) ∧
    ((t.hbm.spilled.any fun y => y.ctx == c && y.xid == x && y.block == b) = false)) ∧
  (∀ (s : State) (c x b : Nat) (m : Image) (p : Program) (i : Instance), s.prog c x = some (m, p) → s.inst c x = some i → p.elems ≤ 384 * b → ∃ t,
    exec (.mergeBlockComplete c x b) s = .next t ∧ Within [.regs, .ttbs, .insts, .tile, .hbm, .flt, .agFlt] s t ∧ t = s) ∧
  (∀ (s : State) (c x : Nat) (m : Image) (p : Program) (i : Instance), c < 16 → s.prog c x = some (m, p) → s.inst c x = some i → i.isOpen = true →
    i.state = .complete → s.isBranch c = false → p.op = 1 → ∃ t, exec (.instanceReady c x) s = .next t ∧ Within [.regs, .ttbs, .insts, .tile, .hbm,
    .flt, .agFlt] s t ∧ (∀ j, t.inst c x = some j → j.state = .ready)) ∧
  (∀ (s : State) (c x : Nat) (m : Image) (p : Program) (i : Instance), s.prog c x = some (m, p) → s.inst c x = some i → i.isOpen = true → i.state =
    .complete → s.isBranch c = false → p.op ≠ 6 → ∃ t, exec (.instanceReady c x) s = .next t ∧ Within [.regs, .ttbs, .insts, .tile, .hbm, .flt,
    .agFlt] s t ∧ (∃ j, t.inst c x = some j ∧ j.state = .ready ∧ j.isOpen = true ∧ j.readyNs = some s.time.nowNs ∧ j.counts = i.counts)) ∧
  (∀ (s : State) (c x : Nat) (m : Image) (p : Program) (i : Instance), s.prog c x = some (m, p) → s.inst c x = some i → i.isOpen = true → i.state =
    .complete → s.isBranch c = false → p.op = 6 → p.inMdies = true → s.hbm.mapBad.contains c = false → (∀ b < ceilDiv p.elems 384, (i.encoded.any fun
    y => y.1 == encKey 0 b) = true) → ∃ t, exec (.instanceReady c x) s = .next t ∧ Within [.regs, .ttbs, .insts, .tile, .hbm, .flt, .agFlt] s t ∧ (∃
    j, t.inst c x = some j ∧ j.state = .ready ∧ j.isOpen = true ∧ j.readyNs = some s.time.nowNs ∧ j.counts = i.counts) ∧ t.hbm.mem = s.hbm.mem) ∧
  (∀ (s : State) (c x : Nat) (m : Image) (p : Program) (i : Instance), s.prog c x = some (m, p) → s.inst c x = some i → i.isOpen = true → i.state =
    .complete → s.isBranch c = false → p.op = 6 → s.hbm.mapBad.contains c = true → ∃ t, exec (.instanceReady c x) s = .next t ∧ Within [.regs, .ttbs,
    .insts, .tile, .hbm, .flt, .agFlt] s t ∧ (∃ j, t.inst c x = some j ∧ j.state = .error) ∧ t.rd CLX_ENG_ERR_CLASS = 3 ∧ t.rd CLX_ENG_ERR_XID = x % 2
    ^ CLX_ENG_ERR_XID.w) ∧
  (∀ (s : State) (c x : Nat) (m : Image) (p : Program) (i : Instance), s.prog c x = some (m, p) → s.inst c x = some i → i.state = .opened → ∃ t, exec
    (.instanceReady c x) s = .next t ∧ Within [.regs, .ttbs, .insts, .tile, .hbm, .flt, .agFlt] s t ∧ t = s) ∧
  (∀ (s : State) (c n : Nat) (m : Image) (e : Entry) (q : Image × Program) (i : Instance), s.img c = some m → m.entries[n]? = some e → s.prog c
    e.srcbuf = some q → s.inst c e.srcbuf = some i → e.kind = 4 → i.isOpen = true → i.state = .ready → i.step = e.step → ∃ t, exec (.resultSend c n) s
    = .next t ∧ Within [.regs, .aregs, .ports, .agPorts, .ttbs, .insts, .flt, .agFlt] s t ∧ t = s.sendResults c m q.2 i n e) ∧
  (∀ (s : State) (c n : Nat) (m : Image) (e : Entry) (q : Image × Program) (i : Instance), s.img c = some m → m.entries[n]? = some e → s.prog c
    e.srcbuf = some q → s.inst c e.srcbuf = some i → e.kind = 4 → i.isOpen = true → ((i.state = .ready ∧ i.step = e.step) ∨ (q.2.op = 5 ∧ i.stage1 =
    true ∧ e.segment + 48 * e.cells ≤ q.2.dispatchLen ∧ (i.state = .opened ∨ i.state = .complete))) → ∃ t, exec (.resultSend c n) s = .next t ∧ Within
    [.regs, .aregs, .ports, .agPorts, .ttbs, .insts, .flt, .agFlt] s t ∧ (∃ j, t.inst c e.srcbuf = some j ∧ j.state = i.state ∧ (j.sentOf n).1 =
    (i.sentOf n).1 + s.mayLeave i n e.rate e.cells (s.boundaryOf i + e.beat))) ∧
  (∀ (s : State) (c n : Nat) (m : Image) (e : Entry) (q : Image × Program) (i : Instance), s.img c = some m → m.entries[n]? = some e → s.prog c
    e.srcbuf = some q → s.inst c e.srcbuf = some i → e.kind = 4 → i.isOpen = true → i.state = .ready → i.step = e.step → s.mayLeave i n e.rate e.cells
    (s.boundaryOf i + e.beat) = 1 → e.port < s.ports.length → s.bears .dz8 e.port = true → ∃ t, exec (.resultSend c n) s = .next t ∧ Within [.regs,
    .aregs, .ports, .agPorts, .ttbs, .insts, .flt, .agFlt] s t ∧ (t.port .dz8 e.port).queue = ((s.enqueue .dz8 e.port none (s.newCell .dz8 ((s.lidFid
    c e.target).getD 0) 0 tRESULT (i.sentOf n).1 0 (e.offset + 48 * (i.sentOf n).1) (e.cidx + i.parity * 2 ^ 15) (wordsOf (s.getResult c m q.2 i.xid
    (e.segment + 48 * (i.sentOf n).1))))).port .dz8 e.port).queue) ∧
  (∀ (s : State) (c n : Nat), s.img c = none → ∃ t, exec (.resultSend c n) s = .next t ∧ Within [.regs, .aregs, .ports, .agPorts, .ttbs, .insts, .flt,
    .agFlt] s t ∧ t = s) ∧
  (∀ (s : State) (c x : Nat) (m : Image) (p : Program) (i : Instance), s.prog c x = some (m, p) → s.inst c x = some i → i.isOpen = true → i.state =
    .complete → s.isBranch c = false → ∃ t, exec (.branchTransfer c x) s = .next t ∧ Within [.regs, .aregs, .ports, .agPorts, .insts, .hbm, .flt,
    .agFlt, .out] s t ∧ t = s) ∧
  (∀ (s : State) (c x : Nat) (m : Image) (p : Program) (i : Instance), s.prog c x = some (m, p) → s.inst c x = some i → i.isOpen = true → i.state =
    .complete → s.isBranch c = true → p.branches = true → ∃ t, exec (.branchTransfer c x) s = .next t ∧ Within [.regs, .aregs, .ports, .agPorts,
    .insts, .hbm, .flt, .agFlt, .out] s t ∧ (∀ j, t.inst c x = some j → j.state = .ready)) ∧
  (∀ (s : State) (c x : Nat) (m : Image) (p : Program) (i : Instance), s.prog c x = some (m, p) → s.inst c x = some i → i.isOpen = true → i.state =
    .complete → s.isBranch c = true → p.branches = true → ∃ t, exec (.branchTransfer c x) s = .next t ∧ Within [.regs, .aregs, .ports, .agPorts,
    .insts, .hbm, .flt, .agFlt, .out] s t ∧ (∃ j, t.inst c x = some j ∧ j.state = .ready ∧ j.readyNs = some s.time.nowNs)) ∧
  (∀ (s : State) (c x : Nat) (m : Image) (p : Program) (i : Instance), s.prog c x = some (m, p) → s.inst c x = some i → i.isOpen = true → (i.state =
    .complete ∨ i.state = .ready) → s.isBranch c = true → p.branches = true → p.infmt ≠ 3 → p.op ≠ 5 → ∃ t, exec (.branchTransfer c x) s = .next t ∧
    Within [.regs, .aregs, .ports, .agPorts, .insts, .hbm, .flt, .agFlt, .out] s t ∧ (∃ j, t.inst c x = some j ∧ j.state = .ready ∧ (j.sentOf (2 ^
    32)).1 = (i.sentOf (2 ^ 32)).1 + s.mayLeave i (2 ^ 32) p.branchRate p.branchCells (s.boundaryOf i + p.branchBeat)))

/-- The codec and generator test paths (R207, R209). Each clause gives what holds of the state before, that the command answers a next state, the
  parts of the state that it may reach, and what that state holds. -/
def Obligations.CodecTests : Prop :=
  (∀ (s : State) (d : Nat) (f : MxFmt), s.rd (CDC_STAT_TEST_BUSY (cdcPg d)) = 0 → MxFmt.ofByte (s.rd (CDC_TB_MODE_FMT (cdcPg d))) = some f → ∃ t, exec
    (.cdcTestGo d) s = .next t ∧ Within [.regs] s t ∧ RegsBut [CDC_STAT_TEST_ERR (cdcPg d), CDC_STAT_TEST_BUSY (cdcPg d)] s t ∧ t.rd
    (CDC_STAT_TEST_BUSY (cdcPg d)) = 1 ∧ t.rd (CDC_STAT_TEST_ERR (cdcPg d)) = 0) ∧
  (∀ (s : State) (d : Nat), s.rd (CDC_STAT_TEST_BUSY (cdcPg d)) = 0 → MxFmt.ofByte (s.rd (CDC_TB_MODE_FMT (cdcPg d))) = none → ∃ t, exec (.cdcTestGo
    d) s = .next t ∧ Within [.regs] s t ∧ t.rd (CDC_STAT_TEST_BUSY (cdcPg d)) = 0 ∧ t.rd (CDC_STAT_TEST_ERR (cdcPg d)) = 1 ∧ t.rd (CDC_STAT_TEST_DONE
    (cdcPg d)) = 1) ∧
  (∀ (s : State) (d : Nat), s.rd (CDC_STAT_TEST_BUSY (cdcPg d)) = 1 → ∃ t, exec (.cdcTestGo d) s = .next t ∧ Within [.regs] s t ∧ RegsBut
    [CDC_STAT_TEST_ERR (cdcPg d)] s t ∧ t.rd (CDC_STAT_TEST_ERR (cdcPg d)) = 2) ∧
  (∀ (s : State) (d : Nat) (f : MxFmt), s.rd (CDC_STAT_TEST_BUSY (cdcPg d)) = 1 → MxFmt.ofByte (s.rd (CDC_TB_MODE_FMT (cdcPg d))) = some f → s.rd
    (CDC_TB_MODE_DIR (cdcPg d)) = 1 → ∃ t, exec (.cdcTestDone d) s = .next t ∧ Within [.regs] s t ∧ t.rd (CDC_STAT_TEST_BUSY (cdcPg d)) = 0 ∧ t.rd
    (CDC_STAT_TEST_DONE (cdcPg d)) = 1 ∧ (∀ n < 64, t.rd (CDC_TB_FP32_EVEN (cdcPg d) n) = nth (decodeBlock f (s.rd (CDC_TB_SIGN0_SIGNS (cdcPg d)) +
    s.rd (CDC_TB_SIGN1_SIGNS (cdcPg d)) * 2 ^ 64) (s.testCode (cdcPg d))).vals (2 * n) % 2 ^ 32)) ∧
  (∀ (s : State) (d : Nat) (f : MxFmt), s.rd (CDC_STAT_TEST_BUSY (cdcPg d)) = 1 → MxFmt.ofByte (s.rd (CDC_TB_MODE_FMT (cdcPg d))) = some f → s.rd
    (CDC_TB_MODE_DIR (cdcPg d)) = 0 → ∃ t, exec (.cdcTestDone d) s = .next t ∧ Within [.regs] s t ∧ t.rd (CDC_STAT_TEST_BUSY (cdcPg d)) = 0 ∧ t.rd
    (CDC_STAT_TEST_DONE (cdcPg d)) = 1 ∧ (∀ n < 64, t.rd (CDC_TB_FP32_EVEN (cdcPg d) n) = s.rd (CDC_TB_FP32_EVEN (cdcPg d) n))) ∧
  (∀ (s : State) (d : Nat), ∃ t, exec (.cdcGenGo d) s = .next t ∧ Within [.regs] s t ∧ RegsBut [CDC_STAT_GEN_BUSY (cdcPg d)] s t ∧ t.rd
    (CDC_STAT_GEN_BUSY (cdcPg d)) = 1) ∧
  (∀ (s : State) (d : Nat), s.rd (CDC_STAT_GEN_BUSY (cdcPg d)) = 1 → ∃ t, exec (.cdcGenDone d) s = .next t ∧ Within [.regs] s t ∧ RegsBut
    [CDC_GT_OUT_G (cdcPg d), CDC_STAT_GEN_BUSY (cdcPg d), CDC_STAT_GEN_DONE (cdcPg d)] s t ∧ t.rd (CDC_STAT_GEN_BUSY (cdcPg d)) = 0 ∧ t.rd
    (CDC_STAT_GEN_DONE (cdcPg d)) = 1 ∧ t.rd (CDC_GT_OUT_G (cdcPg d)) = gen (s.rd (CDC_GT_KEY0_KEY (cdcPg d)) + s.rd (CDC_GT_KEY1_KEY (cdcPg d)) * 2 ^
    64) (s.rd (CDC_GT_W01_W0 (cdcPg d))) (s.rd (CDC_GT_W01_W1 (cdcPg d))) (s.rd (CDC_GT_W23_W2 (cdcPg d))) (s.rd (CDC_GT_W23_W3 (cdcPg d))) % 2 ^
    (CDC_GT_OUT_G (cdcPg d)).w) ∧
  (∀ (s : State) (d : Nat), s.rd (CDC_STAT_GEN_BUSY (cdcPg d)) = 0 → ∃ t, exec (.cdcGenDone d) s = .next t ∧ Within [.regs] s t ∧ t = s)

/-- Descriptor chains of a tile, their errors, and the switch of a tile to another context (R214, R215, R216, R217, R235, R272, R273). Each clause
  gives what holds of the state before, that the command answers a next state, the parts of the state that it may reach, and what that state holds. -/
def Obligations.TileChains : Prop :=
  (∀ (s : State) (d k c x n : Nat) (ws : List Word) (e : Descriptor) (i : Instance), e = (s.buildDesc d k n ws).descAt d k n → s.chainOf d k = none →
    s.inst c x = some i → i.isOpen = true → i.state ≠ .error → s.tileReady d k c = true → s.objSet d c x e.wait = true → s.rd PWR_STAT_THROTTLED = 0 →
    (s.buildDesc d k n ws).descOk ⟨d, k, c, x, n, none, none, []⟩ e = true → ∃ t, exec (.descriptorStart d k c x n ws) s = .next t ∧ Within [.regs,
    .ttbs, .insts, .tile, .flt, .agFlt] s t ∧ t.chainOf d k = some ⟨d, k, c, x, n, some e, none, []⟩ ∧ tget t.tile.lastCtx (tileKey d k) = c + 1 ∧
    t.tile.tileSram = (s.buildDesc d k n ws).tile.tileSram ∧ t.tile.sync = s.tile.sync) ∧
  (∀ (s : State) (d k c x n : Nat) (ws : List Word), s.chainOf d k = none → s.tileReady d k c = false → ∃ t, exec (.descriptorStart d k c x n ws) s =
    .next t ∧ Within [.regs, .ttbs, .insts, .tile, .flt, .agFlt] s t ∧ t = s) ∧
  (∀ (s : State) (d k c x n : Nat) (ws : List Word), s.chainOf d k = none → s.rd PWR_STAT_THROTTLED = 1 → ∃ t, exec (.descriptorStart d k c x n ws) s
    = .next t ∧ Within [.regs, .ttbs, .insts, .tile, .flt, .agFlt] s t ∧ t = s) ∧
  (∀ (s : State) (d k : Nat) (h : ChainSt) (e : Descriptor), s.chainOf d k = some h → h.running = some e → e.next = 0xFFFF → ∃ t, exec (.descriptorEnd
    d k) s = .next t ∧ Within [.regs, .tile] s t ∧ t.chainOf d k = none ∧ t.rd (TTL_DESC_CHAINS (tilePg d k)) = (s.rd (TTL_DESC_CHAINS (tilePg d k)) +
    1) % 2 ^ 32) ∧
  (∀ (s : State) (d k : Nat) (h : ChainSt) (e : Descriptor), s.chainOf d k = some h → h.running = some e → e.next ≠ 0xFFFF → ∃ t, exec (.descriptorEnd
    d k) s = .next t ∧ Within [.regs, .tile] s t ∧ (t.chainOf d k).map (·.next) = some (some e.next) ∧ (t.chainOf d k).map (·.running) = some none) ∧
  (∀ (s : State) (d k : Nat), s.chainOf d k = none → ∃ t, exec (.descriptorEnd d k) s = .next t ∧ Within [.regs, .tile] s t ∧ t = s) ∧
  (∀ (s : State) (d k : Nat) (h : ChainSt), d < 2 → k < 64 → s.chainOf d k = some h → s.inst h.ctx h.xid = none → ∃ t, exec (.sequencerError d k 4) s
    = .next t ∧ Within [.regs, .ttbs, .insts, .tile, .flt, .agFlt] s t ∧ t.chainOf d k = none ∧ t.rd (TTL_ERR_CLASS (tilePg d k)) = 4 ∧ t.rd
    (TTL_ERR_LOGICAL (tilePg d k)) = k ∧ t.rd (TTL_ERR_DESC (tilePg d k)) = h.index % 2 ^ 16) ∧
  (∀ (s : State) (d k n : Nat), s.chainOf d k = none → n ≠ 4 → s.tileAbsent d k = false → ∃ t, exec (.sequencerError d k n) s = .next t ∧ Within
    [.regs, .ttbs, .insts, .tile, .flt, .agFlt] s t ∧ t = s.tileFail d (s.physOf d k) n) ∧
  (∀ (s : State) (d k c : Nat), s.chainOf d k = none → s.tileAbsent d k = false → s.tileReady d k c = false → ((s.tile.scrubs.any fun x => x.die == d
    && x.tile == k) = false) → ∃ t, exec (.engineSwitch d k c) s = .next t ∧ Within [.tile] s t ∧ t.tile.scrubs = s.tile.scrubs ++ [⟨d, k, c⟩] ∧
    t.tile.tileSram = s.tile.tileSram) ∧
  (∀ (s : State) (d k c : Nat), s.tileReady d k c = true → ∃ t, exec (.engineSwitch d k c) s = .next t ∧ Within [.tile] s t ∧ t = s) ∧
  (∀ (s : State) (d k n : Nat) (x : ScrubSt), (s.tile.scrubs.find? (fun x => x.die == d && x.tile == k) = some x) → ∃ t, exec (.engineSwitchDone d k
    true n) s = .next t ∧ Within [.regs, .ttbs, .insts, .tile, .flt, .agFlt] s t ∧ tget t.tile.lastCtx (tileKey d k) = x.ctx + 1 ∧ (t.tile.scrubs =
    s.tile.scrubs.filter fun y => !(y.die == d && y.tile == k)) ∧ t.rd (CTX_SWITCH_SWITCHES (ctxPg x.ctx)) = (s.rd (CTX_SWITCH_SWITCHES (ctxPg x.ctx))
    + 1) % 2 ^ (CTX_SWITCH_SWITCHES (ctxPg x.ctx)).w ∧ (∀ a < 2 ^ 20, mget t.tile.tileSram (tileKey d k * 2 ^ 20 + a) = 0))

/-- Failing tiles, spare tiles and bank promotion (R218, R219, R220, R221, R223, R234, R237). Each clause gives what holds of the state before, that
  the command answers a next state, the parts of the state that it may reach, and what that state holds. -/
def Obligations.TileFailures : Prop :=
  (∀ (s : State) (d p n : Nat), s.runFailed d p = true → ∃ t, exec (.tileFail d p n) s = .next t ∧ Within [.regs, .ttbs, .insts, .tile, .flt, .agFlt]
    s t ∧ t = s) ∧
  (∀ (s : State) (d p n : Nat), d < 2 → p < 68 → s.runFailed d p = false → s.logicalOf d p = none → ∃ t, exec (.tileFail d p n) s = .next t ∧ Within
    [.regs, .ttbs, .insts, .tile, .flt, .agFlt] s t ∧ t.runFailed d p = true ∧ t.tile = s.tile ∧ t.flt = s.flt) ∧
  (∀ (s : State) (d p n k : Nat), d < 2 → p < 68 → s.runFailed d p = false → s.logicalOf d p = some k → ∃ t, exec (.tileFail d p n) s = .next t ∧
    Within [.regs, .ttbs, .insts, .tile, .flt, .agFlt] s t ∧ t.physOf d k = 0xFF ∧ t.tileAbsent d k = true ∧ tget t.tile.oldPhys (tileKey d k) = p + 1
    ∧ bit (t.rd (TTL_STAT_SWAP_PENDING (tilePg d k))) (k % 8) = true) ∧
  (∀ (s : State) (d : Nat) (l : List Nat), (∀ k < 64, bit (s.rd (TTL_STAT_SWAP_PENDING (tilePg d k))) (k % 8) = false) → ∃ t, exec (.tileSwap d l) s =
    .next t ∧ Within [.regs, .tile, .flt, .agFlt] s t ∧ t = s) ∧
  (∀ (s : State) (d k p : Nat) (r : List Nat), d < 2 → ((List.range 64).filter (fun j => bit (s.rd (TTL_STAT_SWAP_PENDING (tilePg d j))) (j % 8)) =
    [k]) → s.spareTiles d = p :: r → ∃ t, exec (.tileSwap d []) s = .next t ∧ Within [.regs, .tile, .flt, .agFlt] s t ∧ t.physOf d k = p ∧
    t.tileAbsent d k = false ∧ tget t.tile.lastCtx (tileKey d k) = 0 ∧ (∀ a < 2 ^ 20, mget t.tile.tileSram (tileKey d k * 2 ^ 20 + a) = 0)) ∧
  (∀ (s : State) (d : Nat), ∃ t, exec (.bankPromote d) s = .next t ∧ Within [.regs] s t ∧ RegsBut [PGH_CONFLICT_WAITS (pghPg d), PGH_CONFLICT_PROMOTED
    (pghPg d)] s t ∧ t.rd (PGH_CONFLICT_WAITS (pghPg d)) = (s.rd (PGH_CONFLICT_WAITS (pghPg d)) + 64) % 2 ^ 32 ∧ t.rd (PGH_CONFLICT_PROMOTED (pghPg
    d)) = (s.rd (PGH_CONFLICT_PROMOTED (pghPg d)) + 1) % 2 ^ 32)

/-- The sync window and uncorrectable reads; the sealed shelf, retention, allocations and the host window of the Pigeonholes (R225, R226, R227, R228,
  R229, R230, R231, R232, R233, R238). Each clause gives what holds of the state before, that the command answers a next state, the parts of the state
  that it may reach, and what that state holds. -/
def Obligations.SyncWindow : Prop :=
  (∀ (s : State) (d : Nat) (a : SyncAccess), a.offset % 8 = 0 → s.awake d = true → a.op = .read → ∃ t, exec (.syncWindowAccess d (some a) none) s =
    .next t ∧ Within [.regs, .tile, .flt, .agFlt] s t ∧ t.tile.syncResult = [some (s.syncGet d (a.offset / 8)), none] ∧ t.regs = s.regs ∧ t.tile.sync
    = s.tile.sync) ∧
  (∀ (s : State) (d : Nat) (a : SyncAccess), a.offset % 8 = 0 → s.awake d = true → a.op = .write → syncReserved d (a.offset / 8) = false → ∃ t, exec
    (.syncWindowAccess d (some a) none) s = .next t ∧ Within [.regs, .tile, .flt, .agFlt] s t ∧ t.syncGet d (a.offset / 8) = a.value % 2 ^ 64 ∧ t.regs
    = s.regs ∧ (∀ w, w ≠ a.offset / 8 → w < 2 ^ 18 → t.syncGet d w = s.syncGet d w)) ∧
  (∀ (s : State) (d : Nat) (a : SyncAccess), a.offset % 8 = 0 → s.awake d = true → a.op = .add → syncReserved d (a.offset / 8) = false → ∃ t, exec
    (.syncWindowAccess d (some a) none) s = .next t ∧ Within [.regs, .tile, .flt, .agFlt] s t ∧ t.syncGet d (a.offset / 8) = (s.syncGet d (a.offset /
    8) + a.value) % 2 ^ 64 ∧ t.regs = s.regs) ∧
  (∀ (s : State) (d : Nat) (a : SyncAccess), s.awake d = true → a.offset % 8 ≠ 0 → ∃ t, exec (.syncWindowAccess d (some a) none) s = .next t ∧ Within
    [.regs, .tile, .flt, .agFlt] s t ∧ t.tile.syncResult = [none, none] ∧ t.tile.sync = s.tile.sync ∧ t.rd (PGH_SYNC_MISALIGN (pghPg d)) = (s.rd
    (PGH_SYNC_MISALIGN (pghPg d)) + 1) % 2 ^ 32) ∧
  (∀ (s : State) (d : Nat) (a : SyncAccess), (s.tile.collided.find? (fun x => x.1 == d) = some (d, a)) → a.offset % 8 = 0 → s.awake d = true → a.op =
    .write → syncReserved d (a.offset / 8) = false → ∃ t, exec (.syncCollideRepeat d) s = .next t ∧ Within [.regs, .tile, .flt, .agFlt] s t ∧
    t.syncGet d (a.offset / 8) = a.value % 2 ^ 64 ∧ (t.tile.collided = s.tile.collided.filter fun y => y.1 != d) ∧ t.regs = s.regs) ∧
  (∀ (s : State) (d : Nat), (s.tile.collided.find? (fun x => x.1 == d) = none) → ∃ t, exec (.syncCollideRepeat d) s = .next t ∧ Within [.regs, .tile,
    .flt, .agFlt] s t ∧ t = s) ∧
  (∀ (s : State) (d a : Nat), ∃ t, exec (.sramUncorrectable d a .hostWindow) s = .next t ∧ Within [.regs, .ttbs, .insts, .tile, .flt, .agFlt] s t ∧
    RegsBut [PGH_ECC_UNCORR (pghPg d), PGH_ECCADDR_VALID (pghPg d), PGH_ECCADDR_SYNC (pghPg d), PGH_ECCADDR_ADDR (pghPg d)] s t ∧ t.rd (PGH_ECC_UNCORR
    (pghPg d)) = (s.rd (PGH_ECC_UNCORR (pghPg d)) + 1) % 2 ^ 32 ∧ t.rd (PGH_ECCADDR_ADDR (pghPg d)) = a % 2 ^ 32 ∧ t.rd (PGH_ECCADDR_SYNC (pghPg d)) =
    0) ∧
  (∀ (s : State) (d a : Nat), ∃ t, exec (.sramUncorrectable d a .syncWord) s = .next t ∧ Within [.regs, .ttbs, .insts, .tile, .flt, .agFlt] s t ∧
    t.syncGet d (a / 8) = 0 ∧ t.rd (PGH_ECCADDR_VALID (pghPg d)) = 1 ∧ t.rd (PGH_ECCADDR_SYNC (pghPg d)) = 1 ∧ t.tile.sync = s.tile.sync) ∧
  (∀ (s : State) (d : Nat), ∃ t, exec (.shelfDenied d) s = .next t ∧ Within [.regs, .flt, .agFlt] s t ∧ RegsBut [PGH_SHELF_DENIED (pghPg d)] s t ∧
    t.rd (PGH_SHELF_DENIED (pghPg d)) = (s.rd (PGH_SHELF_DENIED (pghPg d)) + 1) % 2 ^ 32) ∧
  (∀ (s : State) (d : Nat), s.awake d = true → ∃ t, exec (.shelfWipe d) s = .next t ∧ Within [.regs, .tile, .hbm, .rot] s t ∧ RegsBut
    [PGH_STAT_SHELF_WIPING (pghPg d)] s t ∧ t.rd (PGH_STAT_SHELF_WIPING (pghPg d)) = 1 ∧ (∀ a, shelfLo ≤ a → a < shelfHi → mget t.tile.pgh (pghKey d
    a) = 0) ∧ t.rot.records = [] ∧ t.hbm.roots = []) ∧
  (∀ (s : State) (d : Nat), s.rd (PGH_STAT_SHELF_WIPING (pghPg d)) = 1 → ∃ t, exec (.shelfWipeDone d) s = .next t ∧ Within [.regs, .tile, .hbm, .rot]
    s t ∧ t.rd (PGH_STAT_SHELF_WIPING (pghPg d)) = 0 ∧ t.rd (PGH_STAT_SHELF_WIPED (pghPg d)) = 1 ∧ t.rd (PGH_SHELF_WIPES (pghPg d)) = (s.rd
    (PGH_SHELF_WIPES (pghPg d)) + 1) % 2 ^ 32) ∧
  (∀ (s : State) (d : Nat), s.armedOn d = false → s.awake d = true → ∃ t, exec (.pghRetain d) s = .next t ∧ Within [.regs] s t ∧ RegsBut
    [PGH_STAT_STATE (pghPg d)] s t ∧ t.rd (PGH_STAT_STATE (pghPg d)) = 2) ∧
  (∀ (s : State) (d : Nat), s.armedOn d = true → ∃ t, exec (.pghRetain d) s = .next t ∧ Within [.regs] s t ∧ RegsBut [PGH_STAT_RET_REJ (pghPg d)] s t
    ∧ t.rd (PGH_STAT_RET_REJ (pghPg d)) = 1) ∧
  (∀ (s : State) (d : Nat), s.pghState d = 2 → ∃ t, exec (.pghWake d) s = .next t ∧ Within [.regs] s t ∧ RegsBut [PGH_STAT_STATE (pghPg d)] s t ∧
    t.pghState d = 3) ∧
  (∀ (s : State) (d : Nat), s.pghState d = 3 → ∃ t, exec (.pghWakeDone d) s = .next t ∧ Within [.regs, .tile, .hbm, .rot] s t ∧ t.pghState d = 0 ∧
    (s.tile.shelfCut.contains d = false → t.tile = s.tile)) ∧
  (∀ (s : State) (d c : Nat) (v : Word), (s.allocBad d c (bits v.toNat 13 0) (if bit v.toNat 63 then bits v.toNat 29 16 else 0) = false) → ∃ t, exec
    (.pghAllocWrite d c v) s = .next t ∧ Within [.regs] s t ∧ RegsBut [PGH_ALLOC_VALID (pghPg d) c, PGH_ALLOC_ROWS (pghPg d) c, PGH_ALLOC_ROW_BASE
    (pghPg d) c] s t ∧ t.rd (PGH_ALLOC_VALID (pghPg d) c) = b2n (bit v.toNat 63) ∧ t.rd (PGH_ALLOC_ROWS (pghPg d) c) = bits v.toNat 29 16 ∧ t.rd
    (PGH_ALLOC_ROW_BASE (pghPg d) c) = bits v.toNat 13 0) ∧
  (∀ (s : State) (d c : Nat) (v : Word), (s.allocBad d c (bits v.toNat 13 0) (if bit v.toNat 63 then bits v.toNat 29 16 else 0) = true) → ∃ t, exec
    (.pghAllocWrite d c v) s = .next t ∧ Within [.regs] s t ∧ RegsBut [PGH_STAT_ALLOC_ERR (pghPg d)] s t ∧ t.rd (PGH_STAT_ALLOC_ERR (pghPg d)) = 1) ∧
  (∀ (s : State) (c n : Nat), ((s.allocDies c (s.rd (PGH_WIN_BASE_OFFSET (pghWinPg c)) + 8 * n) 8).find? (fun d => !s.awake d) = none) → s.scrubbing c
    = false → ∃ t, exec (.pghWinAccess c n none) s = .next t ∧ Within [.tile, .flt, .agFlt, .pair, .out] s t ∧ t.out = s.out ++ [.value .dz8 (pghWinPg
    c + 0x800 + 8 * n) (word (leNat (s.allocRead c (s.rd (PGH_WIN_BASE_OFFSET (pghWinPg c)) + 8 * n) 8)))] ∧ t.regs = s.regs) ∧
  (∀ (s : State) (c n : Nat) (v : Word), ((s.allocDies c (s.rd (PGH_WIN_BASE_OFFSET (pghWinPg c)) + 8 * n) 8).find? (fun d => !s.awake d) = none) →
    s.scrubbing c = false → (s.allocDies c (s.rd (PGH_WIN_BASE_OFFSET (pghWinPg c)) + 8 * n) 8).isEmpty = false → ∃ t, exec (.pghWinAccess c n (some
    v)) s = .next t ∧ Within [.tile, .flt, .agFlt, .pair, .out] s t ∧ t = (s.allocWrite c (s.rd (PGH_WIN_BASE_OFFSET (pghWinPg c)) + 8 * n) (leBytes 8
    v.toNat)).hostWrote c (s.rd (PGH_WIN_BASE_OFFSET (pghWinPg c)) + 8 * n) 8)

/-- Training and error reports of the HBM stacks, and sectors that fail their tag (R239, R240, R241, R248, R260). Each clause gives what holds of the
  state before, that the command answers a next state, the parts of the state that it may reach, and what that state holds. -/
def Obligations.HbmStacks : Prop :=
  (∀ (s : State) (m k n f : Nat), n ≤ 400 → s.hasStack m k = true → s.rd (HBC_STAT_STATE (hbcPg m k)) ≤ 1 → ∃ t, exec (.stackTrainAttempt m k true n
    f) s = .next t ∧ Within [.regs, .flt, .agFlt] s t ∧ (t.rd (HBC_STAT_STATE (hbcPg m k)) = if s.rd PAR_STAT_ROLE = 2 then 3 else 2) ∧ t.rd
    (HBC_TRAIN_FAIL_CH (hbcPg m k)) = 0xFF ∧ t.rd (HBC_STAT_ATTEMPTS (hbcPg m k)) = (s.rd (HBC_STAT_ATTEMPTS (hbcPg m k)) + 1) % 16 ∧ RegsBut
    [HBC_STAT_STATE (hbcPg m k), HBC_STAT_ATTEMPTS (hbcPg m k), HBC_TRAIN_TIME_MS (hbcPg m k), HBC_TRAIN_FAIL_CH (hbcPg m k)] s t) ∧
  (∀ (s : State) (m k n f : Nat) (b : Bool), (b = false ∨ 400 < n) → s.hasStack m k = true → s.rd (HBC_STAT_STATE (hbcPg m k)) ≤ 1 → s.rd
    (HBC_STAT_ATTEMPTS (hbcPg m k)) = 1 → ∃ t, exec (.stackTrainAttempt m k b n f) s = .next t ∧ Within [.regs, .flt, .agFlt] s t ∧ t.rd
    (HBC_STAT_STATE (hbcPg m k)) = 4 ∧ t.rd (HBC_TRAIN_FAIL_CH (hbcPg m k)) = f % 256 ∧ t.rd (HBC_STAT_ATTEMPTS (hbcPg m k)) = 2) ∧
  (∀ (s : State) (r : StackReport), s.hasStack r.mdie r.stack = true → ∃ t, exec (.stackErrorPoll [r]) s = .next t ∧ Within [.regs] s t ∧ RegsBut
    [HBC_ECC_CORR (hbcPg r.mdie r.stack), HBC_ECC_UNCORR (hbcPg r.mdie r.stack)] s t ∧ t.rd (HBC_ECC_CORR (hbcPg r.mdie r.stack)) = (s.rd
    (HBC_ECC_CORR (hbcPg r.mdie r.stack)) + r.corr) % 2 ^ 32 ∧ t.rd (HBC_ECC_UNCORR (hbcPg r.mdie r.stack)) = (s.rd (HBC_ECC_UNCORR (hbcPg r.mdie
    r.stack)) + r.uncorr) % 2 ^ 32) ∧
  (∀ (s : State), s.rd PAR_STAT_ROLE = 2 → s.mdies ≠ 0 → ∃ t, exec (.selfRefreshEntry) s = .next t ∧ Within [.regs] s t ∧ (∀ x ∈ s.stacks', s.rd
    (HBC_STAT_STATE (hbcPg x.1 x.2)) = 2 → t.rd (HBC_STAT_STATE (hbcPg x.1 x.2)) = 3) ∧ (∀ x ∈ s.stacks', s.rd (HBC_STAT_STATE (hbcPg x.1 x.2)) = 4 →
    t.rd (HBC_STAT_STATE (hbcPg x.1 x.2)) = 4)) ∧
  (∀ (s : State), s.rd PAR_STAT_ROLE ≠ 2 → ∃ t, exec (.selfRefreshEntry) s = .next t ∧ Within [.regs] s t ∧ t = s) ∧
  (∀ (s : State) (m n : Nat) (r : TagReader), ∃ t, exec (.sectorTagFail m n true r) s = .next t ∧ Within [.regs, .ttbs, .insts, .hbm, .flt, .agFlt,
    .rst] s t ∧ RegsBut [HBC_TAG_RETRY_OK (stackPg m n)] s t ∧ t.rd (HBC_TAG_RETRY_OK (stackPg m n)) = (s.rd (HBC_TAG_RETRY_OK (stackPg m n)) + 1) % 2
    ^ 32) ∧
  (∀ (s : State) (m n : Nat), ∃ t, exec (.sectorTagFail m n false .poste) s = .next t ∧ Within [.regs, .ttbs, .insts, .hbm, .flt, .agFlt, .rst] s t ∧
    RegsBut [HBC_TAG_FAIL (stackPg m n), HBC_TAGADDR_VALID (stackPg m n), HBC_TAGADDR_SECTOR (stackPg m n)] s t ∧ t.rd (HBC_TAG_FAIL (stackPg m n)) =
    (s.rd (HBC_TAG_FAIL (stackPg m n)) + 1) % 2 ^ 32 ∧ t.rd (HBC_TAGADDR_VALID (stackPg m n)) = 1 ∧ t.rd (HBC_TAGADDR_SECTOR (stackPg m n)) = n % 2 ^
    40) ∧
  (∀ (s : State) (m n c : Nat), c < 16 → m < 4 → ∃ t, exec (.sectorTagFail m n false (.window c)) s = .next t ∧ Within [.regs, .ttbs, .insts, .hbm,
    .flt, .agFlt, .rst] s t ∧ t.rd (VLT_INTEG_TAGFAIL (vltPg c)) = (s.rd (VLT_INTEG_TAGFAIL (vltPg c)) + 1) % 2 ^ 32 ∧ t.rd (HBC_TAG_FAIL (stackPg m
    n)) = (s.rd (HBC_TAG_FAIL (stackPg m n)) + 1) % 2 ^ 32) ∧
  (∀ (s : State) (m n c : Nat), ∃ t, exec (.sectorTagFail m n false (.tileMap c)) s = .next t ∧ Within [.regs, .ttbs, .insts, .hbm, .flt, .agFlt,
    .rst] s t ∧ c ∈ t.hbm.mapBad ∧ t.hbm.mem = s.hbm.mem)

/-- Regions, fills, the optimizer layout and sets, and the HBM window (R244, R245, R248, R250, R251, R252, R253, R263). Each clause gives what holds
  of the state before, that the command answers a next state, the parts of the state that it may reach, and what that state holds. -/
def Obligations.Vault : Prop :=
  (∀ (s : State) (c k : Nat) (v : Word), c < 16 → k < 5 → s.mdies ≠ 0 → s.regionBad c k (bits v.toNat 11 0) (bits v.toNat 27 16) (bit v.toNat 63) =
    false → ∃ t, exec (.vltRegWrite c k v) s = .next t ∧ Within [.regs, .hbm] s t ∧ t.rd (VLT_REG_VALID (vltPg c) k) = b2n (bit v.toNat 63) ∧ t.rd
    (VLT_REG_SIZE (vltPg c) k) = bits v.toNat 27 16 ∧ t.rd (VLT_REG_BASE (vltPg c) k) = bits v.toNat 11 0 ∧ t.rd VLT_STAT_REG_ERR = s.rd
    VLT_STAT_REG_ERR) ∧
  (∀ (s : State) (c k : Nat) (v : Word), c < 16 → k < 5 → s.mdies ≠ 0 → s.regionBad c k (bits v.toNat 11 0) (bits v.toNat 27 16) (bit v.toNat 63) =
    true → ∃ t, exec (.vltRegWrite c k v) s = .next t ∧ Within [.regs, .hbm] s t ∧ RegsBut [VLT_STAT_REG_ERR] s t ∧ t.rd VLT_STAT_REG_ERR = 1 ∧ t.hbm
    = s.hbm) ∧
  (∀ (s : State) (c : Nat), s.rd (VLT_FILL_BUSY (vltPg c)) = 0 → s.armed c = false → 2 ≤ s.rd (VLT_FILL_CLASS (vltPg c)) → s.rd (VLT_FILL_CLASS (vltPg
    c)) ≤ 5 → (s.region c (s.rd (VLT_FILL_CLASS (vltPg c)))).isSome = true → ∃ t, exec (.vltFillGo c) s = .next t ∧ Within [.regs] s t ∧ RegsBut
    [VLT_FILL_BUSY (vltPg c)] s t ∧ t.rd (VLT_FILL_BUSY (vltPg c)) = 1) ∧
  (∀ (s : State) (c : Nat), s.rd (VLT_FILL_BUSY (vltPg c)) = 0 → s.armed c = true → ∃ t, exec (.vltFillGo c) s = .next t ∧ Within [.regs] s t ∧
    RegsBut [VLT_FILL_ERR (vltPg c)] s t ∧ t.rd (VLT_FILL_ERR (vltPg c)) = 1) ∧
  (∀ (s : State) (c : Nat) (r : Nat × Nat), s.rd (CTX_STAT_FILLING (ctxPg c)) = 0 → s.rd (VLT_FILL_BUSY (vltPg c)) = 1 → s.region c (s.rd
    (VLT_FILL_CLASS (vltPg c))) = some r → ∃ t, exec (.vltFillDone c) s = .next t ∧ Within [.regs, .hbm] s t ∧ RegsBut [VLT_FILL_BUSY (vltPg c),
    VLT_FILL_DONE (vltPg c)] s t ∧ t.rd (VLT_FILL_BUSY (vltPg c)) = 0 ∧ t.rd (VLT_FILL_DONE (vltPg c)) = 1 ∧ s.regionKey c (s.rd (VLT_FILL_CLASS
    (vltPg c))) ∈ t.hbm.fills ∧ (∀ a, r.1 * 2 ^ 26 ≤ a % 2 ^ 40 → a % 2 ^ 40 < (r.1 + r.2) * 2 ^ 26 → mget t.hbm.mem a = 0)) ∧
  (∀ (s : State) (c : Nat) (v : Word), c < 16 → s.armed c = false → bits v.toNat 1 0 ≠ 3 → (s.tilesMost (bits v.toNat 63 44) ≤ s.slotsFor c (bits
    v.toNat 1 0) (if bit v.toNat 2 then 2 else 4)) → ∃ t, exec (.vltOptlayoutWrite c v) s = .next t ∧ Within [.regs, .ttbs, .hbm, .ctxs] s t ∧ t.rd
    (VLT_OPTLAYOUT_TILES (vltPg c)) = bits v.toNat 63 44 ∧ t.rd (VLT_OPTLAYOUT_MOMENTS (vltPg c)) = bits v.toNat 1 0 ∧ (∀ k < 4, t.rd (VLT_OPT_PROD_P1
    (vltPg c) k) = 0x3F800000 ∧ t.rd (VLT_OPT_PROD_P2 (vltPg c) k) = 0x3F800000) ∧ t.hbm.mem = s.hbm.mem) ∧
  (∀ (s : State) (c k : Nat) (v : Word), c < 16 → k < 4 → ∃ t, exec (.vltOptSetWrite c k 1 v) s = .next t ∧ Within [.regs] s t ∧ RegsBut
    [VLT_OPT_LRWD_LR (vltPg c) k, VLT_OPT_LRWD_WD (vltPg c) k] s t ∧ t.rd (VLT_OPT_LRWD_LR (vltPg c) k) = bits v.toNat 63 32 ∧ t.rd (VLT_OPT_LRWD_WD
    (vltPg c) k) = bits v.toNat 31 0) ∧
  (∀ (s : State) (c k : Nat) (v : Word), c < 16 → k < 4 → s.armed c = false → ∃ t, exec (.vltOptSetWrite c k 4 v) s = .next t ∧ Within [.regs] s t ∧
    RegsBut [VLT_OPT_PROD_P1 (vltPg c) k, VLT_OPT_PROD_P2 (vltPg c) k] s t ∧ t.rd (VLT_OPT_PROD_P1 (vltPg c) k) = bits v.toNat 63 32 ∧ t.rd
    (VLT_OPT_PROD_P2 (vltPg c) k) = bits v.toNat 31 0) ∧
  (∀ (s : State) (c k n : Nat) (v : Word), c < 16 → k < 4 → s.armed c = true → n ≠ 1 → ∃ t, exec (.vltOptSetWrite c k n v) s = .next t ∧ Within
    [.regs] s t ∧ t = s) ∧
  (∀ (s : State) (c n : Nat) (a : Nat × Nat), s.winAddr c (s.winSel c n).1 (s.winSel c n).2 = some a → s.sectorGood a.1 a.2 (s.regionKey c (s.winSel c
    n).1) = true → ∃ t, exec (.vltWinAccess c n none) s = .next t ∧ Within [.regs, .ttbs, .insts, .hbm, .flt, .agFlt, .rst, .out] s t ∧ t.out = s.out
    ++ [.value .dz8 (vltPg c + 0x800 + 8 * n) (word (leNat (mread s.hbm.mem (hbmKey a.1 a.2) 8)))] ∧ t.hbm = s.hbm ∧ t.rd (HBC_RD_BYTES (stackPg a.1
    (a.2 / 256))) = (s.rd (HBC_RD_BYTES (stackPg a.1 (a.2 / 256))) + 8) % 2 ^ (HBC_RD_BYTES (stackPg a.1 (a.2 / 256))).w) ∧
  (∀ (s : State) (c n : Nat), s.winAddr c (s.winSel c n).1 (s.winSel c n).2 = none → ∃ t, exec (.vltWinAccess c n none) s = .next t ∧ Within [.regs,
    .ttbs, .insts, .hbm, .flt, .agFlt, .rst, .out] s t ∧ t.out = s.out ++ [.value .dz8 (vltPg c + 0x800 + 8 * n) (word 0)] ∧ t.regs = s.regs) ∧
  (∀ (s : State) (c n : Nat) (v : Word), s.winAddr c (s.winSel c n).1 (s.winSel c n).2 = none → ∃ t, exec (.vltWinAccess c n (some v)) s = .next t ∧
    Within [.regs, .ttbs, .insts, .hbm, .flt, .agFlt, .rst, .out] s t ∧ t = s)

/-- Computing and checking routes, and starting or aborting a flip (R110, R111, R112, R114, R118, R122, R128). Each clause gives what holds of the
  state before, that the command answers a next state, the parts of the state that it may reach, and what that state holds. -/
def Obligations.FlipStart : Prop :=
  (∀ (s : State), s.rd PAR_STAT_ROLE = 2 → s.boot.rod.isSome = true → ∃ t, exec (.routeCompute) s = .next t ∧ Within [.regs, .aregs, .ports, .agPorts,
    .route, .ttbs, .beyjo, .flt, .agFlt, .pair, .out] s t ∧ RegsBut [RTE_GEN_SHADOW, RTE_FLIPSTAT_SHADOW_READY] s t ∧ t.rd RTE_FLIPSTAT_SHADOW_READY =
    1 ∧ t.rd RTE_GEN_SHADOW = (s.rd RTE_GEN_ACTIVE + 1) % 2 ^ 32 ∧ t.route.shadow = s.hwImages s.theRod ∧ t.route.active = s.route.active) ∧
  (∀ (s : State), s.active = true → s.boot.rod.isSome = true → s.flipRuns = true → ∃ t, exec (.routeCompute) s = .next t ∧ Within [.regs, .aregs,
    .ports, .agPorts, .route, .ttbs, .beyjo, .flt, .agFlt, .pair, .out] s t ∧ RegsBut [RTE_STAT_PENDING] s t ∧ t.rd RTE_STAT_PENDING = 1) ∧
  (∀ (s : State), s.flipRuns = false → s.boot.rod.isSome = true → ∃ t, exec (.rteCheck) s = .next t ∧ Within [.regs, .route] s t ∧ RegsBut
    [RTE_STAT_CHECK_ERR, RTE_STAT_CHECK_CHIP, RTE_STAT_CHECK_DST, RTE_STAT_CHECK_OK] s t ∧ t.route.shadow = s.withEsc s.theRod s.route.shadow ∧ (t.rd
    RTE_STAT_CHECK_OK = 1 → t.rd RTE_STAT_CHECK_ERR = 0)) ∧
  (∀ (s : State) (l : List Nat), s.active = true → s.boot.rod.isSome = true → s.hostMode 1 = false → s.rd RTE_CTRL_SCOPE = 0 → s.closedDomain = true →
    s.flipRuns = false → ∃ t, exec (.rteStart l) s = .next t ∧ Within [.regs, .aregs, .ports, .agPorts, .route, .ttbs, .beyjo, .flt, .agFlt, .pair,
    .out] s t ∧ t = s.computeFlip false) ∧
  (∀ (s : State) (l : List Nat), s.active = true → s.boot.rod.isSome = true → s.hostMode 1 = false → s.rd RTE_CTRL_SCOPE = 0 → s.closedDomain = true →
    s.flipRuns = true → ∃ t, exec (.rteStart l) s = .next t ∧ Within [.regs, .aregs, .ports, .agPorts, .route, .ttbs, .beyjo, .flt, .agFlt, .pair,
    .out] s t ∧ RegsBut [RTE_STAT_PENDING] s t ∧ t.rd RTE_STAT_PENDING = 1) ∧
  (∀ (s : State) (l : List Nat), s.active = true → s.boot.rod.isSome = true → s.hostMode 1 = false → s.rd RTE_CTRL_SCOPE = 0 → s.closedDomain = false
    → ∃ t, exec (.rteStart l) s = .next t ∧ Within [.regs, .aregs, .ports, .agPorts, .route, .ttbs, .beyjo, .flt, .agFlt, .pair, .out] s t ∧ RegsBut
    [RTE_STAT_CHECK_ERR] s t ∧ t.rd RTE_STAT_CHECK_ERR = 9) ∧
  (∀ (s : State), s.flipRuns = true → s.rd RTE_STAT_COORD = 1 → s.recordIs .commitIssued = false → ∃ t, exec (.rteAbort) s = .next t ∧ Within [.regs,
    .aregs, .ports, .agPorts, .route, .ttbs, .beyjo, .flt, .agFlt, .pair, .out] s t ∧ t = s.abortOut.endFlip 0 .aborted) ∧
  (∀ (s : State), s.recordIs .commitIssued = true → ∃ t, exec (.rteAbort) s = .next t ∧ Within [.regs, .aregs, .ports, .agPorts, .route, .ttbs,
    .beyjo, .flt, .agFlt, .pair, .out] s t ∧ t = s) ∧
  (∀ (s : State), s.rd RTE_STAT_PHASE = 1 → ∃ t, exec (.flipPrepareDone) s = .next t ∧ Within [.regs, .aregs, .ports, .agPorts, .route, .flt, .agFlt,
    .pair, .out] s t ∧ t = s.startQuiet) ∧
  (∀ (s : State), s.rd RTE_STAT_PHASE = 1 → s.rd RTE_STAT_COORD = 1 → ∃ t, exec (.prepTimeout) s = .next t ∧ Within [.regs, .aregs, .ports, .agPorts,
    .route, .ttbs, .beyjo, .flt, .agFlt, .pair, .out] s t ∧ t = s.abortOut.endFlip 0 .aborted) ∧
  (∀ (s : State), s.rd RTE_STAT_PHASE = 1 → s.rd RTE_STAT_COORD = 0 → ∃ t, exec (.prepTimeout) s = .next t ∧ Within [.regs, .aregs, .ports, .agPorts,
    .route, .ttbs, .beyjo, .flt, .agFlt, .pair, .out] s t ∧ t = s.endFlip 0 .aborted) ∧
  (∀ (s : State), s.rd RTE_STAT_PHASE ≠ 1 → ∃ t, exec (.prepTimeout) s = .next t ∧ Within [.regs, .aregs, .ports, .agPorts, .route, .ttbs, .beyjo,
    .flt, .agFlt, .pair, .out] s t ∧ t = s)

/-- The quiet state, poll rounds, the flip record, COMMIT and ABORT (R115, R116, R117, R118, R119, R121, R123). Each clause gives what holds of the
  state before, that the command answers a next state, the parts of the state that it may reach, and what that state holds. -/
def Obligations.FlipCommit : Prop :=
  (∀ (s : State), s.ard RTE_QUIET_AT_BEAT ≠ 0 → ∃ t, exec (.quietEntry .agent) s = .next t ∧ Within [.regs, .aregs, .route] s t ∧ AregsBut
    [RTE_FLIPSTAT_QUIET] s t ∧ t.ard RTE_FLIPSTAT_QUIET = 1) ∧
  (∀ (s : State), s.active = false → ∃ t, exec (.quietEntry .dz8) s = .next t ∧ Within [.regs, .aregs, .route] s t ∧ RegsBut [RTE_QUIET_AT_BEAT,
    RTE_FLIPSTAT_QUIET] s t ∧ t.rd RTE_FLIPSTAT_QUIET = 1 ∧ t.rd RTE_QUIET_AT_BEAT = s.time.beat % 2 ^ RTE_QUIET_AT_BEAT.w) ∧
  (∀ (s : State), s.rd RTE_QUIET_AT_BEAT ≠ 0 → s.active = true → s.rd RTE_STAT_PHASE = 3 → ∃ t, exec (.quietEntry .dz8) s = .next t ∧ Within [.regs,
    .aregs, .route] s t ∧ RegsBut [RTE_FLIPSTAT_QUIET] s t ∧ t.rd RTE_FLIPSTAT_QUIET = 1) ∧
  (∀ (s : State) (l : List FlipReport), s.rd RTE_STAT_COORD = 1 → s.rd RTE_STAT_PHASE = 3 → s.quiet .dz8 = true → s.allPaused .dz8 = true →
    drainComplete s.reporters s.route.lastRound (s.ownReport :: l) = false → ∃ t, exec (.pollRound l) s = .next t ∧ Within [.regs, .aregs, .time,
    .ports, .agPorts, .route, .ttbs, .insts, .ctxs, .beyjo, .flt, .agFlt, .rst, .pair, .out] s t ∧ t.rd RTE_STAT_PHASE = 4 ∧ t.route.lastRound =
    s.ownReport :: l ∧ t.route.record = s.route.record) ∧
  (∀ (s : State) (l : List FlipReport) (r : FlipRecord), s.route.record = some r → s.rd RTE_STAT_COORD = 1 → s.rd RTE_STAT_PHASE = 4 → s.quiet .dz8 =
    true → r.state = .quiet → drainComplete s.reporters s.route.lastRound (s.ownReport :: l) = true → s.commitGap = true → ∃ t, exec (.pollRound l) s
    = .next t ∧ Within [.regs, .aregs, .time, .ports, .agPorts, .route, .ttbs, .insts, .ctxs, .beyjo, .flt, .agFlt, .rst, .pair, .out] s t ∧
    t.route.record = some { r with state := .commitIssued } ∧ t.route.lastRound = s.ownReport :: l) ∧
  (∀ (s : State) (l : List FlipReport), s.quiet .dz8 = false → s.rd RTE_STAT_PHASE ≠ 6 → ∃ t, exec (.pollRound l) s = .next t ∧ Within [.regs, .aregs,
    .time, .ports, .agPorts, .route, .ttbs, .insts, .ctxs, .beyjo, .flt, .agFlt, .rst, .pair, .out] s t ∧ t = s) ∧
  (∀ (s : State) (r : FlipRecord), s.route.record = some r → s.route.recordConfirmed = false → r.state ≠ .commitIssued → ∃ t, exec
    (.flipRecordConfirm) s = .next t ∧ Within [.regs, .aregs, .ports, .agPorts, .route, .flt, .agFlt, .pair, .out] s t ∧ t.route.recordConfirmed =
    true ∧ t.route.record = some r ∧ t.route.commit = s.route.commit) ∧
  (∀ (s : State) (r : FlipRecord), s.route.record = some r → s.route.recordConfirmed = false → r.state = .commitIssued → s.active = true → s.rd
    RTE_STAT_COORD = 1 → ∃ t, exec (.flipRecordConfirm) s = .next t ∧ Within [.regs, .aregs, .ports, .agPorts, .route, .flt, .agFlt, .pair, .out] s t
    ∧ (t = (s.setRoute fun x => { x with recordConfirmed := true }).commitOut r)) ∧
  (∀ (s : State) (p : Nat) (x : Cell), s.agRoute.applied.contains (commitOf x).key = false → s.ard RTE_FLIPSTAT_SHADOW_READY = 1 → s.ard
    RTE_GEN_SHADOW = (commitOf x).gen → ∃ t, exec (.commitCell .agent p x) s = .next t ∧ Within [.regs, .aregs, .ports, .agPorts, .route, .agRoute,
    .flt, .agFlt, .pair] s t ∧ t.agRoute.commit = some (commitOf x) ∧ t.ard RTE_FLIP_AT_BEAT = (commitOf x).flipAt ∧ AregsBut [RTE_FLIP_AT_BEAT] s t ∧
    t.agRoute.active = s.agRoute.active) ∧
  (∀ (s : State) (p : Nat) (x : Cell), s.agRoute.applied.contains (commitOf x).key = true → ∃ t, exec (.commitCell .agent p x) s = .next t ∧ Within
    [.regs, .aregs, .ports, .agPorts, .route, .agRoute, .flt, .agFlt, .pair] s t ∧ t = s) ∧
  (∀ (s : State) (p : Nat) (x : Cell), (commitOf x).coordinator = s.fid → s.active = true → ∃ t, exec (.commitCell .dz8 p x) s = .next t ∧ Within
    [.regs, .aregs, .ports, .agPorts, .route, .agRoute, .flt, .agFlt, .pair] s t ∧ t = s) ∧
  (∀ (s : State) (p : Nat) (x : Cell), s.agRoute.lastAbort = some (bits (cellWord x 3) 31 0, bits (cellWord x 2) 55 0) → ∃ t, exec (.abortCell .agent
    p x) s = .next t ∧ Within [.regs, .aregs, .ports, .agPorts, .route, .agRoute, .flt, .agFlt, .pair, .out] s t ∧ t = s) ∧
  (∀ (s : State) (p : Nat) (x : Cell), s.agRoute.lastAbort ≠ some (bits (cellWord x 3) 31 0, bits (cellWord x 2) 55 0) → ∃ t, exec (.abortCell .agent
    p x) s = .next t ∧ Within [.regs, .aregs, .ports, .agPorts, .route, .agRoute, .flt, .agFlt, .pair, .out] s t ∧ t.agRoute.lastAbort = some (bits
    (cellWord x 3) 31 0, bits (cellWord x 2) 55 0) ∧ t.ard RTE_FLIPSTAT_QUIET = 0 ∧ t.ard RTE_FLIPSTAT_SAFE = 0 ∧ t.ard RTE_QUIET_AT_BEAT = 0 ∧
    AregsBut [RTE_FLIPSTAT_QUIET, RTE_FLIPSTAT_SAFE, RTE_QUIET_AT_BEAT] s t ∧ t.agRoute.commit = none ∧ (t.agRoute.resumeAt = if s.aon
    RTE_FLIPSTAT_SAFE then none else some (bits (cellWord x 2) 55 0))) ∧
  (∀ (s : State) (p : Nat) (x : Cell), bits (cellWord x 3) 63 50 = s.fid → s.active = true → ∃ t, exec (.abortCell .dz8 p x) s = .next t ∧ Within
    [.regs, .aregs, .ports, .agPorts, .route, .agRoute, .flt, .agFlt, .pair, .out] s t ∧ t = s) ∧
  (∀ (s : State), s.quiet .agent = true → s.ard RTE_FLIPSTAT_SAFE = 0 → ∃ t, exec (.safeStateEntry) s = .next t ∧ Within [.aregs, .flt, .agFlt] s t ∧
    AregsBut [RTE_FLIPSTAT_SAFE] s t ∧ t.ard RTE_FLIPSTAT_SAFE = 1)

/-- The flip beat, the resume beat, resending and the fallback (R99, R118, R119, R120, R146). Each clause gives what holds of the state before, that
  the command answers a next state, the parts of the state that it may reach, and what that state holds. -/
def Obligations.FlipBeatAndFallback : Prop :=
  (∀ (s : State) (m : Commit), s.heldCommit .agent = some m → ∃ t, exec (.flipBeat .agent) s = .next t ∧ Within [.regs, .aregs, .ports, .agPorts,
    .route, .agRoute, .flt, .agFlt, .out] s t ∧ t.agRoute.active = s.agRoute.shadow ∧ t.agRoute.map = s.agRoute.mapShadow ∧ t.agRoute.commit = none ∧
    t.agRoute.applied = m.key :: s.agRoute.applied ∧ (t.agRoute.resumeAt = if s.aon RTE_FLIPSTAT_SAFE then none else some m.resume) ∧ t.ard
    RTE_FLIPSTAT_QUIET = 0 ∧ t.ard RTE_FLIPSTAT_SAFE = 0) ∧
  (∀ (s : State) (m : Commit), s.heldCommit .dz8 = some m → ∃ t, exec (.flipBeat .dz8) s = .next t ∧ Within [.regs, .aregs, .ports, .agPorts, .route,
    .agRoute, .flt, .agFlt, .out] s t ∧ t = s.flipDz m) ∧
  (∀ (s : State) (d : Site), s.heldCommit d = none → ∃ t, exec (.flipBeat d) s = .next t ∧ Within [.regs, .aregs, .ports, .agPorts, .route, .agRoute,
    .flt, .agFlt, .out] s t ∧ t = s) ∧
  (∀ (s : State) (n : Nat), s.agRoute.resumeAt = some n → ∃ t, exec (.flipResume .agent) s = .next t ∧ Within [.regs, .aregs, .agRoute, .ttbs, .beyjo,
    .ag] s t ∧ t.agRoute.resumeAt = none ∧ t.agRoute.active = s.agRoute.active ∧ (s.ag.flipPaused = true → s.quiet .agent = false → t.ag.flipPaused =
    false)) ∧
  (∀ (s : State), s.quiet .dz8 = true → ∃ t, exec (.flipResume .dz8) s = .next t ∧ Within [.regs, .aregs, .agRoute, .ttbs, .beyjo, .ag] s t ∧ t = s) ∧
  (∀ (s : State), s.quiet .dz8 = false → s.ttbs.length = 16 → ∃ t, exec (.flipResume .dz8) s = .next t ∧ Within [.regs, .aregs, .agRoute, .ttbs,
    .beyjo, .ag] s t ∧ (∀ c < 16, (s.ttb c).flipPaused = true → s.ttbState c = 5 → (t.ttb c).flipPaused = false ∧ t.rd (TTB_STAT_PAUSED (ttbPg c)) =
    0) ∧ (∀ c < 16, t.ttbState c = s.ttbState c)) ∧
  (∀ (s : State) (f : Nat) (r : FlipRecord), s.route.record = some r → s.rd RTE_STAT_PHASE = 6 → s.rd RTE_STAT_COORD = 1 → s.theRod.cls f = 0 → ∃ t,
    exec (.commitResend [f]) s = .next t ∧ Within [.regs, .aregs, .ports, .agPorts, .route, .flt, .agFlt, .out] s t ∧ (t = s.send .dz8 (s.newCell .dz8
    f 1 tCOMMIT 0 8 0 0 (commitWords
    ⟨r.gen, r.flipAt, r.flipAt + s.rd RTE_FLIP_RESUME, if s.coordinates r then s.fid else r.coord, r.serial, r.epochs⟩)))) ∧
  (∀ (s : State) (l : List Nat), s.rd RTE_STAT_PHASE ≠ 6 → ∃ t, exec (.commitResend l) s = .next t ∧ Within [.regs, .aregs, .ports, .agPorts, .route,
    .flt, .agFlt, .out] s t ∧ t = s) ∧
  (∀ (s : State), s.rd RTE_STAT_PHASE = 4 → s.rd RTE_STAT_COORD = 1 → s.recordIs .commitIssued = false → 2 ≤ s.rd RTE_STAT_ATTEMPT → ∃ t, exec
    (.flipFallback) s = .next t ∧ Within [.regs, .aregs, .ports, .agPorts, .route, .ttbs, .beyjo, .flt, .agFlt, .pair, .out] s t ∧ t = (s.detect .dz8
    rtePg 1 s.route.flipSerial none).abortOut.endFlip 8 .aborted) ∧
  (∀ (s : State), s.recordIs .commitIssued = true → ∃ t, exec (.flipFallback) s = .next t ∧ Within [.regs, .aregs, .ports, .agPorts, .route, .ttbs,
    .beyjo, .flt, .agFlt, .pair, .out] s t ∧ t = s) ∧
  (∀ (s : State), s.rd RTE_STAT_PHASE = 7 → ∃ t, exec (.fallbackRetry) s = .next t ∧ Within [.regs, .aregs, .ports, .agPorts, .route, .flt, .agFlt,
    .pair, .out] s t ∧ t = s.startQuiet) ∧
  (∀ (s : State), s.rd RTE_STAT_PHASE ≠ 7 → ∃ t, exec (.fallbackRetry) s = .next t ∧ Within [.regs, .aregs, .ports, .agPorts, .route, .flt, .agFlt,
    .pair, .out] s t ∧ t = s)

/-- Answers, timeouts and retries of management transactions (R104, R127, R473, R512). Each clause gives what holds of the state before, that the
  command answers a next state, the parts of the state that it may reach, and what that state holds. -/
def Obligations.ManagementTransactions : Prop :=
  (∀ (s : State) (x : Cell), s.epochGood .dz8 x = true → ((s.txn x.seq).filter (fun t => t.fid == x.src) = none) → ∃ t, exec (.mrspCell x) s = .next t
    ∧ Within [.regs, .aregs, .time, .agTime, .ports, .agPorts, .replays, .route, .ttbs, .agents, .insts, .tile, .hbm, .ctxs, .rot, .beyjo, .flt,
    .agFlt, .rst, .pair, .boot, .pwr, .out, .freeCtr] s t ∧ RegsBut [AGT_ERR_LATE] s t ∧ t.rd AGT_ERR_LATE = (s.rd AGT_ERR_LATE + 1) % 2 ^
    AGT_ERR_LATE.w ∧ t.route = s.route) ∧
  (∀ (s : State) (x : Cell) (q : Txn), s.epochGood .dz8 x = true → s.txn x.seq = some q → q.fid = x.src → ∃ t, exec (.mrspCell x) s = .next t ∧ Within
    [.regs, .aregs, .time, .agTime, .ports, .agPorts, .replays, .route, .ttbs, .agents, .insts, .tile, .hbm, .ctxs, .rot, .beyjo, .flt, .agFlt, .rst,
    .pair, .boot, .pwr, .out, .freeCtr] s t ∧ (t = s.txnDone q (bits (cellWord x 0) 47 40) ((List.range 4).map fun i => cellWord x (2 + i)))) ∧
  (∀ (s : State) (x : Cell), s.epochGood .dz8 x = false → ∃ t, exec (.mrspCell x) s = .next t ∧ Within [.regs, .aregs, .time, .agTime, .ports,
    .agPorts, .replays, .route, .ttbs, .agents, .insts, .tile, .hbm, .ctxs, .rot, .beyjo, .flt, .agFlt, .rst, .pair, .boot, .pwr, .out, .freeCtr] s t
    ∧ t = s.discard .dz8 0 x rEPOCH) ∧
  (∀ (s : State) (n : Nat) (q : Txn), s.txn n = some q → q.backoff = false → q.attempts < 4 → ∃ t, exec (.mgmtTimeout n) s = .next t ∧ Within [.regs,
    .aregs, .time, .agTime, .ports, .agPorts, .replays, .route, .ttbs, .agents, .insts, .tile, .hbm, .ctxs, .rot, .beyjo, .flt, .agFlt, .rst, .pair,
    .boot, .pwr, .out, .freeCtr] s t ∧ t.txn n = some { q with backoff := true } ∧ t.out = s.out ∧ t.regs = s.regs) ∧
  (∀ (s : State) (n : Nat) (q : Txn), s.txn n = some q → q.backoff = false → q.attempts = 4 → q.session = none → s.route.waiting = [] → ∃ t, exec
    (.mgmtTimeout n) s = .next t ∧ Within [.regs, .aregs, .time, .agTime, .ports, .agPorts, .replays, .route, .ttbs, .agents, .insts, .tile, .hbm,
    .ctxs, .rot, .beyjo, .flt, .agFlt, .rst, .pair, .boot, .pwr, .out, .freeCtr] s t ∧ t.txn n = none ∧ t.out = s.out ∧ t.regs = s.regs) ∧
  (∀ (s : State) (n : Nat) (q : Txn), s.txn n = some q → q.backoff = true → q.session = none → ∃ t, exec (.mgmtRetry n) s = .next t ∧ Within [.regs,
    .aregs, .ports, .agPorts, .route, .flt, .agFlt, .out] s t ∧ (t = (s.setRoute fun r =>
    { r with txns := r.txns.map fun x => if x.seq == n then { x with backoff := false, attempts := x.attempts + 1, request := (s.restamp .dz8 { q.request with flags := setBit q.request.flags 2 true }) } else x }).send
    .dz8 (s.restamp .dz8 { q.request with flags := setBit q.request.flags 2 true }))) ∧
  (∀ (s : State) (n : Nat) (q : Txn), s.txn n = some q → q.backoff = false → ∃ t, exec (.mgmtRetry n) s = .next t ∧ Within [.regs, .aregs, .ports,
    .agPorts, .route, .flt, .agFlt, .out] s t ∧ t = s)

/-- Assigning and releasing a context, and binding, seeding and mapping it (R265, R266, R270, R271, R274, R277, R298). Each clause gives what holds of
  the state before, that the command answers a next state, the parts of the state that it may reach, and what that state holds. -/
def Obligations.ContextAssignment : Prop :=
  (∀ (s : State) (c : Nat), c < 16 → s.ctxState c ≠ 0 → ∃ t, exec (.ctxAssign c) s = .next t ∧ Within [.regs, .aregs, .ports, .agPorts, .route, .ttbs,
    .ctxs, .beyjo, .flt, .agFlt, .pair, .out] s t ∧ RegsBut [CTX_STAT_ASSIGN_ERR (ctxPg c), CTX_STAT_ERR_LID (ctxPg c), BYJ_NOTIFY_LOST] s t ∧ t.rd
    (CTX_STAT_ASSIGN_ERR (ctxPg c)) = 1 ∧ t.ctxState c = s.ctxState c) ∧
  (∀ (s : State) (c : Nat) (e : Nat × Nat), c < 16 → s.ctxState c = 0 → s.assignErr c = some e → ∃ t, exec (.ctxAssign c) s = .next t ∧ Within [.regs,
    .aregs, .ports, .agPorts, .route, .ttbs, .ctxs, .beyjo, .flt, .agFlt, .pair, .out] s t ∧ t.ctxState c = 0 ∧ t.rd (CTX_STAT_ASSIGN_ERR (ctxPg c)) =
    e.1 % 2 ^ (CTX_STAT_ASSIGN_ERR (ctxPg c)).w ∧ t.rd (CTX_STAT_ERR_LID (ctxPg c)) = e.2 % 2 ^ (CTX_STAT_ERR_LID (ctxPg c)).w ∧ t.ctxs = s.ctxs) ∧
  (∀ (s : State) (c : Nat), c < 16 → s.ctxs.length = 16 → s.ctxState c = 0 → s.assignErr c = none → s.active = false → ∃ t, exec (.ctxAssign c) s =
    .next t ∧ Within [.regs, .aregs, .ports, .agPorts, .route, .ttbs, .ctxs, .beyjo, .flt, .agFlt, .pair, .out] s t ∧ t.ctxState c = 1 ∧ (t.ctx
    c).assignWait = true ∧ t.rd (CTX_STAT_ASSIGN_ERR (ctxPg c)) = 0) ∧
  (∀ (s : State) (c : Nat), c < 16 → s.ctxs.length = 16 → s.ctxState c = 2 → ∃ t, exec (.ctxRelease c) s = .next t ∧ Within [.regs, .aregs, .ports,
    .agPorts, .route, .ttbs, .tile, .ctxs, .rot, .beyjo, .flt, .agFlt, .rst, .pair, .out, .freeCtr] s t ∧ t.ctxState c = 3 ∧ (t.ctx c).release.map
    (·.drained) = some false ∧ (t.ctx c).assignWait = false ∧ (∀ m ∈ t.rst.remaps, m.ctx ≠ c)) ∧
  (∀ (s : State) (c : Nat), c < 16 → s.ctxState c = 0 → ∃ t, exec (.ctxRelease c) s = .next t ∧ Within [.regs, .aregs, .ports, .agPorts, .route,
    .ttbs, .tile, .ctxs, .rot, .beyjo, .flt, .agFlt, .rst, .pair, .out, .freeCtr] s t ∧ RegsBut [CTX_STAT_RELEASE_REJ (ctxPg c)] s t ∧ t.rd
    (CTX_STAT_RELEASE_REJ (ctxPg c)) = 1 ∧ t.ctxs = s.ctxs) ∧
  (∀ (s : State) (n c : Nat) (b : Bool) (x : Sess), c < 16 → s.ctxs.length = 16 → s.openSess n = some x → x.role = 3 → s.ctxState c = 2 → s.rd
    (CTX_STAT_BOUND (ctxPg c)) = 0 → ∃ t, exec (.ctxBind n c b) s = .next t ∧ Within [.regs, .ctxs, .pair] s t ∧ RegsBut [CTX_STAT_BOUND (ctxPg c),
    CTX_STAT_TENANT_CLOSED (ctxPg c)] s t ∧ t.rd (CTX_STAT_BOUND (ctxPg c)) = 1 ∧ t.rd (CTX_STAT_TENANT_CLOSED (ctxPg c)) = b2n b ∧ (t.ctx c).owner =
    x.owner) ∧
  (∀ (s : State) (n c : Nat) (b : Bool), s.rd (CTX_STAT_BOUND (ctxPg c)) = 1 → ∃ t, exec (.ctxBind n c b) s = .next t ∧ Within [.regs, .ctxs, .pair] s
    t ∧ t = s) ∧
  (∀ (s : State) (c : Nat) (v : Word), c < 16 → s.ctxs.length = 16 → s.ctxState c = 2 → ∃ t, exec (.ctxSeedWrite c 0 v) s = .next t ∧ Within [.ctxs] s
    t ∧ (t.ctx c).seed = (s.ctx c).seed / 2 ^ 64 * 2 ^ 64 + v.toNat) ∧
  (∀ (s : State) (c : Nat) (v : Word), c < 16 → s.ctxs.length = 16 → s.ctxState c = 2 → ∃ t, exec (.ctxSeedWrite c 1 v) s = .next t ∧ Within [.ctxs] s
    t ∧ (t.ctx c).seed = (s.ctx c).seed % 2 ^ 64 + v.toNat * 2 ^ 64) ∧
  (∀ (s : State) (c h : Nat) (v : Word), s.ctxState c ≠ 2 → ∃ t, exec (.ctxSeedWrite c h v) s = .next t ∧ Within [.ctxs] s t ∧ t = s) ∧
  (∀ (s : State) (c : Nat) (v : Word), c < 16 → s.ctxs.length = 16 → s.ctxState c = 0 → ∃ t, exec (.ctxMapWrite c v) s = .next t ∧ Within [.ctxs] s t
    ∧ tget (t.ctx c).map (s.rd (CTX_MAP_SEL_LID (ctxPg c))) = bits v.toNat 63 63 * 2 ^ 63 + v.toNat % 2 ^ 14 ∧ (∀ l, l ≠ s.rd (CTX_MAP_SEL_LID (ctxPg
    c)) → tget (t.ctx c).map l = tget (s.ctx c).map l)) ∧
  (∀ (s : State) (c : Nat) (v : Word), s.ctxState c ≠ 0 → ∃ t, exec (.ctxMapWrite c v) s = .next t ∧ Within [.ctxs] s t ∧ t = s)

/-- The steps of a release (R249, R274, R275, R309). Each clause gives what holds of the state before, that the command answers a next state, the
  parts of the state that it may reach, and what that state holds. -/
def Obligations.ContextRelease : Prop :=
  (∀ (s : State) (c : Nat) (r : RelSt), c < 16 → s.ctxs.length = 16 → s.ttbs.length = 16 → (s.ctx c).release = some r → r.drained = false → (s.ttb
    c).uncommitted = [] → s.active = false → s.recsOf c = [] → ∃ t, exec (.releaseDrained c) s = .next t ∧ Within [.regs, .aregs, .ports, .agPorts,
    .route, .ttbs, .insts, .tile, .hbm, .ctxs, .rot, .beyjo, .flt, .agFlt, .pair, .out, .freeCtr] s t ∧ (t.ctx c).release = some
    { r with drained := true } ∧ t.ttbState c = 0 ∧ t.img c = none ∧ (∀ i ∈ t.insts, i.ctx = c → i.isOpen = false)) ∧
  (∀ (s : State) (c : Nat), (s.ttb c).uncommitted ≠ [] → ∃ t, exec (.releaseDrained c) s = .next t ∧ Within [.regs, .aregs, .ports, .agPorts, .route,
    .ttbs, .insts, .tile, .hbm, .ctxs, .rot, .beyjo, .flt, .agFlt, .pair, .out, .freeCtr] s t ∧ t = s) ∧
  (∀ (s : State) (c n : Nat) (r : RelSt), c < 16 → s.ctxs.length = 16 → (s.ctx c).release = some r → r.drained = true → r.erased = false → ∃ t, exec
    (.releaseScrubDone c n) s = .next t ∧ Within [.regs, .ttbs, .tile, .ctxs] s t ∧ (t.ctx c).release = some { r with scrubbed := true } ∧ t.rd
    (CTX_SCRUB_PGH_NS (ctxPg c)) = n % 2 ^ 32 ∧ (∀ w, c * 2 ^ 13 ≤ w → w < (c + 1) * 2 ^ 13 → ∀ d < 2, tget t.tile.sync (d * 2 ^ 18 + w) = 0)) ∧
  (∀ (s : State) (c n : Nat), (s.ctx c).release = none → ∃ t, exec (.releaseScrubDone c n) s = .next t ∧ Within [.regs, .ttbs, .tile, .ctxs] s t ∧ t =
    s) ∧
  (∀ (s : State) (c n : Nat) (r : RelSt), c < 16 → s.ctxs.length = 16 → (s.ctx c).release = some r → r.drained = true → r.erased = false → r.scrubbed
    = false → s.rot.delivers = [] → ∃ t, exec (.cryptoEraseDone c n) s = .next t ∧ Within [.regs, .ttbs, .hbm, .ctxs, .rot, .out] s t ∧ (t.ctx
    c).release = some { r with erased := true } ∧ t.rd (VLT_GEN_GEN (vltPg c)) = (s.rd (VLT_GEN_GEN (vltPg c)) + 1) % 2 ^ 32 ∧ t.rd (VLT_VAULT_TAINTED
    (vltPg c)) = 0 ∧ (∀ x ∈ t.rot.records, x.ctx ≠ c) ∧ t.hbm.mem = s.hbm.mem) ∧
  (∀ (s : State) (c : Nat) (r : RelSt), c < 16 → s.ctxs.length = 16 → (s.ctx c).release = some r → r.drained = true → r.scrubbed = true → r.erased =
    true → r.flipped = true → s.rd (CTX_STAT_FILLING (ctxPg c)) = 0 → ∃ t, exec (.releaseComplete c) s = .next t ∧ Within [.regs, .ctxs, .beyjo,
    .pair] s t ∧ t.ctxState c = 0 ∧ (t.ctx c).release = none ∧ (t.ctx c).holdDie = false ∧ RegsBut [CTX_STAT_STATE (ctxPg c), BYJ_NOTIFY_LOST] s t) ∧
  (∀ (s : State) (c : Nat) (r : RelSt), (s.ctx c).release = some r → r.scrubbed = false → ∃ t, exec (.releaseComplete c) s = .next t ∧ Within [.regs,
    .ctxs, .beyjo, .pair] s t ∧ t = s)

/-- SPDM discovery, digests, certificates, challenges and measurements (R290, R291, R292, R293, R294, R327). Each clause gives what holds of the state
  before, that the command answers a next state, the parts of the state that it may reach, and what that state holds. -/
def Obligations.SpdmDiscovery : Prop :=
  (∀ (s : State) (z : Nat), s.spdmOk z = true → ∃ t, exec (.getVersion z) s = .next t ∧ Within [.regs, .rot, .out] s t ∧ t.out = s.out ++ [.spdm z
    0x84 [0x13]] ∧ t.rd HPT_FRAMES_TX = (s.rd HPT_FRAMES_TX + 1) % 2 ^ 32 ∧ RegsBut [HPT_FRAMES_TX] s t) ∧
  (∀ (s : State) (z : Nat), s.spdmOk z = false → ∃ t, exec (.getVersion z) s = .next t ∧ Within [.regs, .rot, .out] s t ∧ t.out = s.out ++ [.spdm z
    0x7F [2, 0x84]] ∧ t.rd FRK_SPDM_ERRORS = (s.rd FRK_SPDM_ERRORS + 1) % 2 ^ 32) ∧
  (∀ (s : State) (z : Nat), s.spdmOk z = true → ∃ t, exec (.getCapabilities z) s = .next t ∧ Within [.regs, .rot, .out] s t ∧ t.out = s.out ++ [.spdm
    z 0xE1 (nats (leBytes 4 8936 ++ leBytes 4 65536))] ∧ t.rd HPT_FRAMES_TX = (s.rd HPT_FRAMES_TX + 1) % 2 ^ 32 ∧ RegsBut [HPT_FRAMES_TX] s t) ∧
  (∀ (s : State) (z : Nat), s.spdmOk z = true → ∃ t, exec (.negotiateAlgorithms z true) s = .next t ∧ Within [.regs, .rot, .out] s t ∧ t.out = s.out
    ++ [.spdm z 0xE3 []] ∧ t.rd HPT_FRAMES_TX = (s.rd HPT_FRAMES_TX + 1) % 2 ^ 32) ∧
  (∀ (s : State) (z : Nat), s.spdmOk z = true → ∃ t, exec (.negotiateAlgorithms z false) s = .next t ∧ Within [.regs, .rot, .out] s t ∧ t.out = s.out
    ++ [.spdm z 0x7F [1, 0xE3]]) ∧
  (∀ (s : State) (z : Nat), s.spdmOk z = true → s.rd FRK_STAT_AK_READY = 1 → ∃ t, exec (.getDigests z) s = .next t ∧ Within [.regs, .rot, .out] s t ∧
    t.out = s.out ++ [.spdm z 0x81 (1 :: nats (sha256 (Config.certChain s.rot.ak)))] ∧ t.rd HPT_FRAMES_TX = (s.rd HPT_FRAMES_TX + 1) % 2 ^ 32) ∧
  (∀ (s : State) (z : Nat), s.spdmOk z = true → s.rd FRK_STAT_AK_READY = 0 → ∃ t, exec (.getDigests z) s = .next t ∧ Within [.regs, .rot, .out] s t ∧
    t.out = s.out ++ [.spdm z 0x7F [3, 0x81]]) ∧
  (∀ (s : State) (z k o n : Nat), s.spdmOk z = true → s.rd FRK_STAT_AK_READY = 1 → k ≠ 0 → ∃ t, exec (.getCertificate z k o n) s = .next t ∧ Within
    [.regs, .rot, .out] s t ∧ t.out = s.out ++ [.spdm z 0x7F [1, 0x82]]) ∧
  (∀ (s : State) (z o n : Nat), s.spdmOk z = true → s.rd FRK_STAT_AK_READY = 1 → n ≤ 8000 → ∃ t, exec (.getCertificate z 0 o n) s = .next t ∧ Within
    [.regs, .rot, .out] s t ∧ (o < (Config.certChain s.rot.ak).length → t.out = s.out ++ [.spdm z 0x82 (nats (leBytes 2 (((Config.certChain
    s.rot.ak).drop o).take n).length ++ leBytes 2 ((Config.certChain s.rot.ak).length - o - (((Config.certChain s.rot.ak).drop o).take n).length) ++
    ((Config.certChain s.rot.ak).drop o).take n))]) ∧ ((Config.certChain s.rot.ak).length ≤ o → t.out = s.out ++ [.spdm z 0x7F [1, 0x82]])) ∧
  (∀ (s : State) (z n : Nat), s.spdmOk z = true → s.rd FRK_STAT_AK_READY = 1 → s.rot.signQ.length < 16 → ∃ t, exec (.challenge z 0 n) s = .next t ∧
    Within [.regs, .rot, .out] s t ∧ t.rot.signQ = s.rot.signQ ++
    [⟨z, 0x83, nats (leBytes 32 n ++ sha256 (Config.certChain s.rot.ak) ++ s.stateBlock)⟩] ∧ t.rd FRK_STAT_BUSY = 1 ∧ t.out = s.out) ∧
  (∀ (s : State) (z k n : Nat), s.spdmOk z = true → k ≠ 0 → ∃ t, exec (.challenge z k n) s = .next t ∧ Within [.regs, .rot, .out] s t ∧ t.out = s.out
    ++ [.spdm z 0x7F [1, 0x83]] ∧ t.rot = s.rot) ∧
  (∀ (s : State) (z n : Nat), s.spdmOk z = true → (((askedIndices n).filterMap (s.measBlock z)).flatten).isEmpty = false → s.rd FRK_STAT_AK_READY = 1
    → s.rot.signQ.length < 16 → ∃ t, exec (.getMeasurements z n true) s = .next t ∧ Within [.regs, .rot, .out] s t ∧ t.rot.signQ = s.rot.signQ ++
    [⟨z, 0xE0, nats ((askedIndices n).filterMap (s.measBlock z)).flatten⟩] ∧ t.rd FRK_STAT_BUSY = 1 ∧ t.out = s.out) ∧
  (∀ (s : State) (z n : Nat), s.spdmOk z = true → n ≤ 7 → n ≠ 0 → (((askedIndices n).filterMap (s.measBlock z)).flatten).isEmpty = false → ∃ t, exec
    (.getMeasurements z n false) s = .next t ∧ Within [.regs, .rot, .out] s t ∧ t.out = s.out ++ [.spdm z 0xE0 (nats ((askedIndices n).filterMap
    (s.measBlock z)).flatten)] ∧ t.rot = s.rot) ∧
  (∀ (s : State) (z n : Nat) (b : Bool), s.spdmOk z = true → ((askedIndices n).filterMap (s.measBlock z)).flatten = [] → ∃ t, exec (.getMeasurements z
    n b) s = .next t ∧ Within [.regs, .rot, .out] s t ∧ t.out = s.out ++ [.spdm z 0x7F [1, 0xE0]])

/-- Secure SPDM sessions: key exchange, finish, heartbeat, key update and end (R291, R292, R297, R298). Each clause gives what holds of the state
  before, that the command answers a next state, the parts of the state that it may reach, and what that state holds. -/
def Obligations.SpdmSessions : Prop :=
  (∀ (s : State) (z : Nat) (e : List Byte), z ≠ 0 → s.spdm z = none → s.rot.sessions.length < 8 → s.rd LCS_STAT_TRANSITION_DONE = 0 → s.rd
    FRK_STAT_AK_READY = 1 → s.rot.signQ.length < 16 → ∃ t, exec (.keyExchange z e) s = .next t ∧ Within [.regs, .rot, .out, .freeCtr] s t ∧ (t.spdm
    z).map (·.finished) = some false ∧ (t.spdm z).map (·.root) = some none ∧ t.rot.sessions.length = s.rot.sessions.length + 1 ∧ t.rot.signQ.length =
    s.rot.signQ.length + 1 ∧ t.out = s.out) ∧
  (∀ (s : State) (z : Nat) (e : List Byte), z ≠ 0 → s.spdm z = none → 8 ≤ s.rot.sessions.length → ∃ t, exec (.keyExchange z e) s = .next t ∧ Within
    [.regs, .rot, .out, .freeCtr] s t ∧ t.out = s.out ++ [.spdm 0 0x7F [0x0A, 0xE4]] ∧ t.rot = s.rot) ∧
  (∀ (s : State) (z : Nat) (x : SpdmSess), s.spdm z = some x → x.finished = false → ∃ t, exec (.finish z true) s = .next t ∧ Within [.regs, .tile,
    .rot, .beyjo, .rst, .pair, .out] s t ∧ (t.spdm z).map (·.finished) = some true ∧ t.out = s.out ++ [.spdm z 0xE5 []] ∧ t.rd FRK_SPDM_OPENED = (s.rd
    FRK_SPDM_OPENED + 1) % 2 ^ 32) ∧
  (∀ (s : State) (z : Nat) (x : SpdmSess), s.spdm z = some x → x.finished = false → ∃ t, exec (.finish z false) s = .next t ∧ Within [.regs, .tile,
    .rot, .beyjo, .rst, .pair, .out] s t ∧ t.spdm z = none) ∧
  (∀ (s : State) (z : Nat) (x : SpdmSess), s.spdm z = some x → x.finished = true → ∃ t, exec (.heartbeat z) s = .next t ∧ Within [.regs, .rot, .out] s
    t ∧ t.spdm z = some { x with lastNs := s.time.nowNs } ∧ t.out = s.out ++ [.spdm z 0xE8 []] ∧ t.rd HPT_FRAMES_TX = (s.rd HPT_FRAMES_TX + 1) % 2 ^
    32) ∧
  (∀ (s : State) (z : Nat), s.spdm z = none → ∃ t, exec (.heartbeat z) s = .next t ∧ Within [.regs, .rot, .out] s t ∧ t.out = s.out ++ [.spdm z 0x7F
    [2, 0xE8]] ∧ t.rot = s.rot) ∧
  (∀ (s : State) (z : Nat) (x : SpdmSess), s.spdm z = some x → x.finished = true → ∃ t, exec (.keyUpdate z) s = .next t ∧ Within [.regs, .rot, .out] s
    t ∧ t.spdm z = some { x with updates := x.updates + 1 } ∧ t.out = s.out ++ [.spdm z 0xE9 []]) ∧
  (∀ (s : State) (z : Nat) (x : SpdmSess), s.spdm z = some x → x.finished = true → ∃ t, exec (.endSession z) s = .next t ∧ Within [.regs, .tile, .rot,
    .beyjo, .rst, .pair, .out] s t ∧ t.spdm z = none ∧ s.out ++ [.spdm z 0xEC []] <+: t.out) ∧
  (∀ (s : State) (z : Nat) (x : SpdmSess), s.spdm z = some x → s.rot.admission ≠ some z → ∃ t, exec (.spdmSessionTimeout z) s = .next t ∧ Within
    [.regs, .tile, .rot, .beyjo, .rst, .pair] s t ∧ t.spdm z = none ∧ t.rot.admission = s.rot.admission ∧ t.out = s.out) ∧
  (∀ (s : State) (z : Nat) (x : SpdmSess), s.spdm z = some x → s.rot.admission = some z → ∃ t, exec (.spdmSessionTimeout z) s = .next t ∧ Within
    [.regs, .tile, .rot, .beyjo, .rst, .pair] s t ∧ t.spdm z = none ∧ t.rot.admission = none ∧ t.rot.cak = none) ∧
  (∀ (s : State) (z : Nat), s.spdm z = none → ∃ t, exec (.spdmSessionTimeout z) s = .next t ∧ Within [.regs, .tile, .rot, .beyjo, .rst, .pair] s t ∧ t
    = s)

/-- Chunks, encapsulated requests, finished signatures, admission and credentials (R290, R292, R293, R297, R298, R318, R327, R328). Each clause gives
  what holds of the state before, that the command answers a next state, the parts of the state that it may reach, and what that state holds. -/
def Obligations.SpdmChunksAndAdmission : Prop :=
  (∀ (s : State) (z h : Nat) (d : List Byte), s.spdmOk z = true → (s.rot.chunksIn.find? (fun x => x.1 == h) = none) → d.length ≤ 65536 → ∃ t, exec
    (.chunkSend z h 0 false d) s = .next t ∧ Within [.regs, .rot, .out] s t ∧ (t.rot.chunksIn.find? (fun x => x.1 == h) = some (h, 1, d)) ∧ t.out =
    s.out ++ [.spdm z 0x85 (nats (leBytes 1 h ++ leBytes 2 0))]) ∧
  (∀ (s : State) (z h n : Nat) (b : Bool) (d : List Byte), s.spdmOk z = true → (s.rot.chunksIn.find? (fun x => x.1 == h) = none) → n ≠ 0 → ∃ t, exec
    (.chunkSend z h n b d) s = .next t ∧ Within [.regs, .rot, .out] s t ∧ t.out = s.out ++ [.spdm z 0x7F [1, 0x85]] ∧ (t.rot.chunksIn.find? (fun x =>
    x.1 == h) = none)) ∧
  (∀ (s : State) (z h n : Nat) (x : Nat × List Nat), s.spdmOk z = true → (s.rot.chunksOut.find? (fun x => x.1 == h) = some x) → 8920 * n < x.2.length
    → ∃ t, exec (.chunkGet z h n) s = .next t ∧ Within [.regs, .rot, .out] s t ∧ t.out = s.out ++ [.spdm z 0x86 ((x.2.drop (8920 * n)).take 8920)] ∧
    (x.2.length ≤ 8920 * (n + 1) → t.rot.chunksOut.find? (fun x => x.1 == h) = none)) ∧
  (∀ (s : State) (z h n : Nat), s.spdmOk z = true → (s.rot.chunksOut.find? (fun x => x.1 == h) = none) → ∃ t, exec (.chunkGet z h n) s = .next t ∧
    Within [.regs, .rot, .out] s t ∧ t.out = s.out ++ [.spdm z 0x7F [1, 0x86]]) ∧
  (∀ (s : State) (z : Nat) (x : SpdmSess), s.spdm z = some x → ∃ t, exec (.getEncapsulatedRequest z) s = .next t ∧ Within [.regs, .rot, .out] s t ∧
    t.out = s.out ++ [.spdm z 0xEA [0x82]] ∧ t.rot = s.rot) ∧
  (∀ (s : State) (z q : Nat) (x : SpdmSess), s.spdm z = some x → ∃ t, exec (.deliverEncapsulatedResponse z true q) s = .next t ∧ Within [.regs, .rot,
    .beyjo, .out] s t ∧ t.spdm z = some { x with root := some q } ∧ t.out = s.out ++ [.spdm z 0xEB []] ∧ t.rd FRK_SIGN_VERIFIED = (s.rd
    FRK_SIGN_VERIFIED + 1) % 2 ^ 32) ∧
  (∀ (s : State) (z q : Nat) (x : SpdmSess), s.spdm z = some x → ∃ t, exec (.deliverEncapsulatedResponse z false q) s = .next t ∧ Within [.regs, .rot,
    .beyjo, .out] s t ∧ t.out = s.out ++ [.spdm z 0x7F [1, 0xEB]] ∧ t.rot = s.rot) ∧
  (∀ (s : State) (z k : Nat), ∃ t, exec (.spdmUnsupported z k) s = .next t ∧ Within [.regs, .out] s t ∧ t.out = s.out ++ [.spdm z 0x7F [7, k]] ∧ t.rd
    FRK_SPDM_ERRORS = (s.rd FRK_SPDM_ERRORS + 1) % 2 ^ 32 ∧ RegsBut [HPT_FRAMES_TX, FRK_SPDM_ERRORS] s t) ∧
  (∀ (s : State) (n : Nat) (q : SignReq) (l : List SignReq), s.rot.signQ = q :: l → ∃ t, exec (.signatureDone n) s = .next t ∧ Within [.regs, .rot,
    .out] s t ∧ t.rot.signQ = l ∧ t.rd FRK_SIGN_SIGNED = (s.rd FRK_SIGN_SIGNED + 1) % 2 ^ 32 ∧ t.rd FRK_STAT_QUEUE = (l.length - 1) % 256) ∧
  (∀ (s : State) (n : Nat), s.rd FRK_STAT_AK_READY = 0 → ∃ t, exec (.akCertSigned n) s = .next t ∧ Within [.regs] s t ∧ t.rd FRK_STAT_AK_READY = 1 ∧
    t.rd FRK_SIGTIME_AK_CERT_MS = n % 2 ^ 32 ∧ t.rd FRK_SIGN_SIGNED = (s.rd FRK_SIGN_SIGNED + 1) % 2 ^ 32 ∧ RegsBut [FRK_STAT_AK_READY,
    FRK_SIGTIME_AK_CERT_MS, FRK_SIGN_SIGNED, FRK_STAT_BUSY] s t) ∧
  (∀ (s : State) (z : Nat) (x : SpdmSess), s.spdm z = some x → x.finished = true → s.rd LCS_STAT_TRANSITION_DONE = 0 → s.rot.admission = none → ∃ t,
    exec (.admitSess z) s = .next t ∧ Within [.regs, .rot, .out] s t ∧ t.rot.admission = some z ∧ t.rot.cak.isSome = true ∧ t.rd FRK_STAT_ADMITTED = 1
    ∧ t.rd HPT_STAT_MKA = 1 ∧ t.out = s.out ++ [.spdm z 0xFE [1, 0, 0]]) ∧
  (∀ (s : State) (z a : Nat) (x : SpdmSess), s.spdm z = some x → x.finished = true → s.rd LCS_STAT_TRANSITION_DONE = 0 → s.rot.admission = some a → a
    ≠ z → ∃ t, exec (.admitSess z) s = .next t ∧ Within [.regs, .rot, .out] s t ∧ t.rot = s.rot ∧ t.rd FRK_RELEASE_LAST_CODE = 0x0C ∧ t.out = s.out ++
    [.spdm z 0xFE [1, 0, 0x0C]]) ∧
  (∀ (s : State) (z k c v : Nat) (x : SpdmSess), s.spdm z = some x → x.finished = true → s.rd LCS_STAT_TRANSITION_DONE = 0 → (k = 0 ∨ k = 2) →
    s.rot.admission = some z → ∃ t, exec (.setCredential z k c v) s = .next t ∧ Within [.regs, .tile, .rot, .beyjo, .rst, .pair, .out] s t ∧
    ⟨k, 0, v % 2 ^ 256, 0, 0⟩ ∈ t.beyjo.creds ∧ t.beyjo.sessions = s.beyjo.sessions ∧ t.out = s.out ++ [.spdm z 0xFE [0x10, 0, 0]]) ∧
  (∀ (s : State) (z k c v : Nat) (x : SpdmSess), s.spdm z = some x → x.finished = true → s.rd LCS_STAT_TRANSITION_DONE = 0 → 2 < k → ∃ t, exec
    (.setCredential z k c v) s = .next t ∧ Within [.regs, .tile, .rot, .beyjo, .rst, .pair, .out] s t ∧ t.beyjo = s.beyjo ∧ t.rd FRK_RELEASE_LAST_CODE
    = 7 ∧ t.rd FRK_RELEASE_REFUSED = (s.rd FRK_RELEASE_REFUSED + 1) % 2 ^ 16)

/-- Releasing, revoking, importing and delivering keys (R298, R300, R301, R302, R305, R309, R316). Each clause gives what holds of the state before,
  that the command answers a next state, the parts of the state that it may reach, and what that state holds. -/
def Obligations.KeyCommands : Prop :=
  (∀ (s : State) (z : Nat) (q : KeyReq) (x : SpdmSess), s.spdm z = some x → x.finished = true → s.sealedNow = true → s.rd FRK_STAT_UPDATE = 0 → s.rd
    FRK_STAT_TAMPER = 0 → s.ownerOk z q.ctx = true → (s.recsOf q.ctx).length < 8 → s.rot.records.length < 64 → keyReqBad q = false → s.keyRec q.ctx
    q.keyId = none → s.rd FRK_STAT_GUARD_BAD = 0 → s.rd FRK_STAT_RESET = 0 → ∃ t, exec (.keyRelease z q) s = .next t ∧ Within [.regs, .rot, .pair,
    .out] s t ∧ t.rot.records = s.rot.records ++ [keyReqRec q ((s.rootOf z).getD 0)] ∧ t.rd FRK_RELEASE_RELEASED = (s.rd FRK_RELEASE_RELEASED + 1) % 2
    ^ 16 ∧ t.out = s.out ++ [.spdm z 0xFE [2, 0, 0]]) ∧
  (∀ (s : State) (z : Nat) (q : KeyReq) (x : SpdmSess), s.spdm z = some x → x.finished = true → s.sealedNow = false → ∃ t, exec (.keyRelease z q) s =
    .next t ∧ Within [.regs, .rot, .pair, .out] s t ∧ t.rot = s.rot ∧ t.rd FRK_RELEASE_LAST_CODE = 1 ∧ t.rd FRK_RELEASE_REFUSED = (s.rd
    FRK_RELEASE_REFUSED + 1) % 2 ^ 16 ∧ t.out = s.out ++ [.spdm z 0xFE [2, 0, 1]]) ∧
  (∀ (s : State) (z c k : Nat) (x : SpdmSess), s.spdm z = some x → x.finished = true → s.sealedNow = true → s.rd FRK_STAT_TAMPER = 0 → s.ownerOk z c =
    true → k ≤ 7 → (s.keyRec c k).isSome = true → ∃ t, exec (.keyRevoke z c k) s = .next t ∧ Within [.regs, .aregs, .ports, .agPorts, .route, .rot,
    .flt, .agFlt, .pair, .out, .freeCtr] s t ∧ (∀ r ∈ t.rot.records, ¬ (r.ctx = c ∧ r.keyId = k))) ∧
  (∀ (s : State) (z c k : Nat) (x : SpdmSess), s.spdm z = some x → x.finished = true → s.sealedNow = false → ∃ t, exec (.keyRevoke z c k) s = .next t
    ∧ Within [.regs, .aregs, .ports, .agPorts, .route, .rot, .flt, .agFlt, .pair, .out, .freeCtr] s t ∧ t.rot = s.rot ∧ t.rd FRK_RELEASE_LAST_CODE = 1
    ∧ t.rd FRK_RELEASE_REFUSED = (s.rd FRK_RELEASE_REFUSED + 1) % 2 ^ 16 ∧ t.out = s.out ++ [.spdm z 0xFE [3, 0, 1]]) ∧
  (∀ (s : State) (z : Nat) (q : ImportReq) (x : SpdmSess), s.spdm z = some x → x.finished = true → s.sealedNow = true → s.rd FRK_STAT_UPDATE = 0 →
    s.rd FRK_STAT_TAMPER = 0 → s.ownerOk z q.ctx = true → q.keyId ≤ 7 → q.len ≠ 0 → (s.keyRec q.ctx q.keyId).isSome = true → s.rd (VLT_VAULT_TAINTED
    (vltPg q.ctx)) = 0 → s.importFits q = true → s.rot.importing = none → s.vaultOk q.ctx = true → s.rd FRK_STAT_GUARD_BAD = 0 → s.rd FRK_STAT_RESET =
    0 → ∃ t, exec (.vaultImport z q) s = .next t ∧ Within [.regs, .rot, .flt, .agFlt, .out] s t ∧ t.rot.importing = some (z, q) ∧ t.regs = s.regs ∧
    t.out = s.out) ∧
  (∀ (s : State) (z : Nat) (q : ImportReq) (x : SpdmSess), s.spdm z = some x → x.finished = true → s.sealedNow = false → ∃ t, exec (.vaultImport z q)
    s = .next t ∧ Within [.regs, .rot, .flt, .agFlt, .out] s t ∧ t.rot = s.rot ∧ t.rd FRK_RELEASE_LAST_CODE = 1 ∧ t.rd FRK_RELEASE_REFUSED = (s.rd
    FRK_RELEASE_REFUSED + 1) % 2 ^ 16 ∧ t.out = s.out ++ [.spdm z 0xFE [4, 0, 1]]) ∧
  (∀ (s : State) (z : Nat) (q : ImportReq), s.rot.importing = some (z, q) → s.rot.waiting = [] → s.goodChunks q = ceilDiv q.len 65536 → ∃ t, exec
    (.vaultImportDone q.ctx) s = .next t ∧ Within [.regs, .aregs, .ports, .agPorts, .route, .tile, .hbm, .rot, .beyjo, .flt, .agFlt, .pair, .out,
    .freeCtr] s t ∧ t.rot.importing = none ∧ (∃ v ∈ t.rot.images, v.ctx = q.ctx ∧ v.imageId = q.imageId ∧ v.len = q.len) ∧ t.out = s.out ++ [.spdm z
    0xFE ([4, 0, 0] ++ nats (leBytes 4 (ceilDiv q.len 65536)))]) ∧
  (∀ (s : State) (z : Nat) (q : ImportReq), s.rot.importing = some (z, q) → s.rot.waiting = [] → s.goodChunks q ≠ ceilDiv q.len 65536 → ∃ t, exec
    (.vaultImportDone q.ctx) s = .next t ∧ Within [.regs, .aregs, .ports, .agPorts, .route, .tile, .hbm, .rot, .beyjo, .flt, .agFlt, .pair, .out,
    .freeCtr] s t ∧ t.rot.importing = none ∧ t.rd FRK_RELEASE_LAST_CODE = 0x0B ∧ t.out = s.out ++ [.spdm z 0xFE ([4, 0, 0x0B] ++ nats (leBytes 4
    (s.goodChunks q)))]) ∧
  (∀ (s : State) (c : Nat), (s.rot.importing.any (fun x => x.2.ctx == c) = false) → ∃ t, exec (.vaultImportDone c) s = .next t ∧ Within [.regs,
    .aregs, .ports, .agPorts, .route, .tile, .hbm, .rot, .beyjo, .flt, .agFlt, .pair, .out, .freeCtr] s t ∧ t = s) ∧
  (∀ (s : State) (z c k f n : Nat) (x : SpdmSess), s.spdm z = some x → x.finished = true → s.sealedNow = false → ∃ t, exec (.deliver z c k f n) s =
    .next t ∧ Within [.regs, .aregs, .ports, .agPorts, .route, .ttbs, .tile, .ctxs, .rot, .beyjo, .flt, .agFlt, .rst, .pair, .out, .freeCtr] s t ∧
    t.rd FRK_RELEASE_LAST_CODE = 1) ∧
  (∀ (s : State) (z c k f n : Nat) (x : SpdmSess), s.spdm z = some x → x.finished = true → s.sealedNow = true → s.rd FRK_STAT_UPDATE = 0 → s.rd
    FRK_STAT_TAMPER = 0 → s.ownerOk z c = true → k ≤ 7 → n ≠ 0 → f + n ≤ 4096 → (s.keyRec c k).isSome = true → s.rd FRK_STAT_GUARD_BAD = 0 → s.rd
    FRK_STAT_RESET = 0 → ∃ t, exec (.deliver z c k f n) s = .next t ∧ Within [.regs, .aregs, .ports, .agPorts, .route, .ttbs, .tile, .ctxs, .rot,
    .beyjo, .flt, .agFlt, .rst, .pair, .out, .freeCtr] s t ∧ (t = (((s.setRot fun r =>
    { r with delivers := r.delivers ++ [(z, c, k, f, n)] }).queueDeliver (((List.range n).map (f + ·)).map fun l => (c, k, l,
    false))).answerDelivers).settle)) ∧
  (∀ (s : State) (z c : Nat) (x : SpdmSess), s.spdm z = some x → x.finished = true → s.ownerOk z c = true → s.rd (CTX_SLICE_N (ctxPg c)) ≤ 4096 → ∃ t,
    exec (.keyStatus z c) s = .next t ∧ Within [.regs, .rot, .out] s t ∧ t.out = s.out ++ [.spdm z 0xFE ([6, 0, 0] ++ (s.keyMap c :: (List.range (s.rd
    (CTX_SLICE_N (ctxPg c)))).map (s.epKeys c)))] ∧ t.rot = s.rot) ∧
  (∀ (s : State) (z : Nat) (q : KeyReq) (l : List WaitCmd), s.rot.waiting = .release z q :: l → ∃ t, exec (.commandResetWaitTimeout) s = .next t ∧
    Within [.regs, .rot, .out] s t ∧ t.rot.waiting = l ∧ t.rd FRK_RELEASE_LAST_CODE = 3 ∧ t.out = s.out ++ [.spdm z 0xFE [2, 0, 3]])

/-- Evidence of endpoints, deliveries that end, and the delivery calls of the host (R303, R304, R306, R307, R308, R309). Each clause gives what holds
  of the state before, that the command answers a next state, the parts of the state that it may reach, and what that state holds. -/
def Obligations.EvidenceAndDelivery : Prop :=
  (∀ (s : State) (v : Evidence) (h : AgentChain), (∀ e ∈ s.rot.evidence, e.fid ≠ v.fid ∨ e.hostCall = true) → ∃ t, exec (.evidenceMessage v h) s =
    .next t ∧ Within [.regs, .aregs, .ports, .agPorts, .route, .ttbs, .tile, .ctxs, .rot, .beyjo, .flt, .agFlt, .rst, .pair, .out, .freeCtr] s t ∧ t =
    s) ∧
  (∀ (s : State) (v : Evidence) (h : AgentChain) (e : EvReq), (s.rot.evidence.find? (fun e => e.fid == v.fid && !e.hostCall && e.nonce == v.nonce) =
    some e) → ∃ t, exec (.evidenceMessage v h) s = .next t ∧ Within [.regs, .aregs, .ports, .agPorts, .route, .ttbs, .tile, .ctxs, .rot, .beyjo, .flt,
    .agFlt, .rst, .pair, .out, .freeCtr] s t ∧ t = (s.judge e e.nonce v h).2.settle) ∧
  (∀ (s : State) (c k l : Nat) (e : EvReq), s.evidenceOf c k l = some e → e.hostCall = false → e.attempts < 3 → ∃ t, exec (.evidenceTimeout c k l) s =
    .next t ∧ Within [.regs, .aregs, .ports, .agPorts, .route, .ttbs, .tile, .ctxs, .rot, .beyjo, .flt, .agFlt, .rst, .pair, .out, .freeCtr] s t ∧ (∃
    n, t.rot.evidence = s.rot.evidence.map fun x => if x = e then { x with nonce := n, attempts := x.attempts + 1 } else x) ∧ t.rot.delivered =
    s.rot.delivered) ∧
  (∀ (s : State) (c k l : Nat) (e : EvReq), s.evidenceOf c k l = some e → e.hostCall = false → 3 ≤ e.attempts → ∃ t, exec (.evidenceTimeout c k l) s =
    .next t ∧ Within [.regs, .aregs, .ports, .agPorts, .route, .ttbs, .tile, .ctxs, .rot, .beyjo, .flt, .agFlt, .rst, .pair, .out, .freeCtr] s t ∧ t =
    (s.failEvidence e 0x10).settle) ∧
  (∀ (s : State) (c k l : Nat) (e : EvReq), s.evidenceOf c k l = some e → e.resets ≠ 0 → e.resets < 100 → ∃ t, exec (.evidenceResetRetry c k l) s =
    .next t ∧ Within [.regs, .aregs, .ports, .agPorts, .route, .ttbs, .tile, .ctxs, .rot, .beyjo, .flt, .agFlt, .rst, .pair, .out, .freeCtr] s t ∧ (∃
    n, t.rot.evidence = s.rot.evidence.map fun x => if x = e then { x with nonce := n, resets := x.resets + 1, attempts := 1 } else x)) ∧
  (∀ (s : State) (c k l : Nat) (e : EvReq), s.evidenceOf c k l = some e → e.resets = 0 → ∃ t, exec (.evidenceResetRetry c k l) s = .next t ∧ Within
    [.regs, .aregs, .ports, .agPorts, .route, .ttbs, .tile, .ctxs, .rot, .beyjo, .flt, .agFlt, .rst, .pair, .out, .freeCtr] s t ∧ t = s) ∧
  (∀ (s : State) (c k l : Nat) (w : WrapWait), (s.rot.wraps.find? (fun w => w.ctx == c && w.keyId == k && w.lid == l) = some w) → w.revoke = true → ∃
    t, exec (.keywrapConfirmTimeout c k l) s = .next t ∧ Within [.regs, .aregs, .ports, .agPorts, .route, .ttbs, .tile, .ctxs, .rot, .beyjo, .flt,
    .agFlt, .rst, .pair, .out, .freeCtr] s t ∧ t.rot.wraps = s.rot.wraps.filter (· != w) ∧ t.out = s.out ∧ t.regs = s.regs) ∧
  (∀ (s : State) (c k l : Nat) (w : WrapWait), (s.rot.wraps.find? (fun w => w.ctx == c && w.keyId == k && w.lid == l) = some w) → w.revoke = false → ∃
    t, exec (.keywrapConfirmTimeout c k l) s = .next t ∧ Within [.regs, .aregs, .ports, .agPorts, .route, .ttbs, .tile, .ctxs, .rot, .beyjo, .flt,
    .agFlt, .rst, .pair, .out, .freeCtr] s t ∧ (t = ((s.setRot fun r => { r with wraps := r.wraps.filter (· != w) }).deliveryEnd c k l 0x18
    w.auto).settle)) ∧
  (∀ (s : State) (c l : Nat), s.delivering c l = true → ∃ t, exec (.keyRedeliver c l) s = .next t ∧ Within [.regs, .aregs, .ports, .agPorts, .route,
    .ttbs, .tile, .ctxs, .rot, .beyjo, .flt, .agFlt, .rst, .pair, .out, .freeCtr] s t ∧ t = s) ∧
  (∀ (s : State) (c l : Nat), s.delivering c l = false → ∃ t, exec (.keyRedeliver c l) s = .next t ∧ Within [.regs, .aregs, .ports, .agPorts, .route,
    .ttbs, .tile, .ctxs, .rot, .beyjo, .flt, .agFlt, .rst, .pair, .out, .freeCtr] s t ∧ t = (s.redeliver c l).settle) ∧
  (∀ (s : State) (c k : Nat) (p : PartnerState) (r : KeyRec), s.keyRec c k = some r → r.pair = true → r.partner ≠ 0 → r.paired = false → s.active =
    true → p.certOk = true → p.deviceId = r.partner → p.lifecycle = 3 → p.tamper = false → p.digests = s.rot.measured.take 5 → ∃ t, exec
    (.pairKeyRelease c k p) s = .next t ∧ Within [.regs, .tile, .hbm, .rot, .beyjo, .pair] s t ∧ (t.keyRec c k).map (·.paired) = some true ∧ t.out =
    s.out ∧ t.regs = s.regs) ∧
  (∀ (s : State) (c k : Nat) (p : PartnerState) (r : KeyRec), s.keyRec c k = some r → r.pair = true → r.partner ≠ 0 → r.paired = false → s.active =
    true → p.certOk = false → ∃ t, exec (.pairKeyRelease c k p) s = .next t ∧ Within [.regs, .tile, .hbm, .rot, .beyjo, .pair] s t ∧ t = s.notifyKey c
    0xFFFF 1 ∧ t.rot.records = s.rot.records) ∧
  (∀ (s : State) (c l : Nat), ∃ t, exec (.nonceBindingExpiry c l) s = .next t ∧ Within [.rot] s t ∧ (∀ x ∈ t.rot.nonces, ¬ (x.ctx = c ∧ x.lid = l)) ∧
    (∀ x ∈ s.rot.nonces, ¬ (x.ctx = c ∧ x.lid = l) → x ∈ t.rot.nonces) ∧ t.regs = s.regs) ∧
  (∀ (s : State) (c k l : Nat) (e : EvReq), s.evidenceOf c k l = some e → e.hostCall = true → ∃ t, exec (.deliveryCallTimeout c k l) s = .next t ∧
    Within [.regs, .aregs, .ports, .agPorts, .route, .ttbs, .tile, .ctxs, .rot, .beyjo, .flt, .agFlt, .rst, .pair, .out, .freeCtr] s t ∧ t =
    (s.failEvidence e 0x10).settle) ∧
  (∀ (s : State) (c k l : Nat) (e : EvReq), s.evidenceOf c k l = some e → e.hostCall = false → ∃ t, exec (.deliveryCallTimeout c k l) s = .next t ∧
    Within [.regs, .aregs, .ports, .agPorts, .route, .ttbs, .tile, .ctxs, .rot, .beyjo, .flt, .agFlt, .rst, .pair, .out, .freeCtr] s t ∧ t = s) ∧
  (∀ (s : State) (i n : Nat) (v : Option Evidence) (h : AgentChain), s.takenFor i n 5 = true → bit (s.slotGet i n 0) 32 = true → s.mailErr i n 5 1 [0]
    = none → s.hostMode 5 = true → s.putRefused (bits (s.slotGet i n 0) 3 0) (bits (s.slotGet i n 0) 6 4) (bits (s.slotGet i n 0) 27 16) = none → ∃ t,
    exec (.evidencePut i n v h) s = .next t ∧ Within [.regs, .aregs, .ports, .agPorts, .route, .ttbs, .tile, .ctxs, .rot, .beyjo, .flt, .agFlt, .rst,
    .pair, .out, .freeCtr] s t ∧ (∃ x ∈ t.rot.nonces, x.ctx = bits (s.slotGet i n 0) 3 0 ∧ x.keyId = bits (s.slotGet i n 0) 6 4 ∧ x.lid = bits
    (s.slotGet i n 0) 27 16) ∧ t.rd MSL_COUNT_DONE = (s.rd MSL_COUNT_DONE + 1) % 2 ^ MSL_COUNT_DONE.w) ∧
  (∀ (s : State) (i n : Nat) (v : Option Evidence) (h : AgentChain), s.takenFor i n 5 = false → ∃ t, exec (.evidencePut i n v h) s = .next t ∧ Within
    [.regs, .aregs, .ports, .agPorts, .route, .ttbs, .tile, .ctxs, .rot, .beyjo, .flt, .agFlt, .rst, .pair, .out, .freeCtr] s t ∧ t = s)

/-- Guardian reports and lifecycle transitions (R286, R294, R299, R313, R314, R316). Each clause gives what holds of the state before, that the
  command answers a next state, the parts of the state that it may reach, and what that state holds. -/
def Obligations.GuardiansAndLifecycle : Prop :=
  (∀ (s : State) (a b c : Nat), ∃ t, exec (.guardianReport 0 a b c) s = .next t ∧ Within [.regs, .aregs, .ports, .agPorts, .route, .rot, .beyjo, .flt,
    .agFlt, .pair, .out, .freeCtr] s t ∧ t = s) ∧
  (∀ (s : State) (d a b c : Nat), d ≠ 0 → s.hasDie d = true → s.rot.waiting = [] → ∃ t, exec (.guardianReport d a b c) s = .next t ∧ Within [.regs,
    .aregs, .ports, .agPorts, .route, .rot, .beyjo, .flt, .agFlt, .pair, .out, .freeCtr] s t ∧ (d, a, b) ∈ t.rot.guardIds ∧ (d, c) ∈ t.rot.guards) ∧
  (∀ (s : State) (d : Nat), d ≠ 0 → d < 8 → s.hasDie d = true → ∃ t, exec (.guardianReportMissing d) s = .next t ∧ Within [.regs, .flt, .agFlt] s t ∧
    RegsBut [FRK_STAT_GUARD_BAD] s t ∧ bit (t.rd FRK_STAT_GUARD_BAD) d = true) ∧
  (∀ (s : State) (n : Nat), n ≠ 0x4C435354 → ∃ t, exec (.lcsSeal n) s = .next t ∧ Within [.regs, .aregs, .tile, .hbm, .rot, .beyjo, .flt, .agFlt,
    .rst, .pair] s t ∧ RegsBut [LCS_STAT_ERR] s t ∧ t.rd LCS_STAT_ERR = 1 ∧ t.rot = s.rot) ∧
  (∀ (s : State) (n : Nat), n ≠ 0x4C435354 → ∃ t, exec (.lcsReturn n) s = .next t ∧ Within [.regs, .aregs, .tile, .hbm, .rot, .beyjo, .flt, .agFlt,
    .rst, .pair] s t ∧ RegsBut [LCS_STAT_ERR] s t ∧ t.rd LCS_STAT_ERR = 1 ∧ t.rot = s.rot) ∧
  (∀ (s : State), (∀ c < 16, s.ctxState c = 0) → s.active = false → s.rd LCS_STAT_STATE = 2 → s.rd LCS_STAT_TRANSITION_DONE = 0 → ∃ t, exec (.lcsSeal
    0x4C435354) s = .next t ∧ Within [.regs, .aregs, .tile, .hbm, .rot, .beyjo, .flt, .agFlt, .rst, .pair] s t ∧ t.rd LCS_STAT_TRANSITION_DONE = 1) ∧
  (∀ (s : State), (∀ c < 16, s.ctxState c = 0) → s.active = false → s.rd LCS_STAT_STATE = 3 → s.rd LCS_STAT_TRANSITION_DONE = 0 → s.tokenOk = true → ∃
    t, exec (.lcsReturn 0x4C435354) s = .next t ∧ Within [.regs, .aregs, .tile, .hbm, .rot, .beyjo, .flt, .agFlt, .rst, .pair] s t ∧ t.rd
    LCS_STAT_TRANSITION_DONE = 1) ∧
  (∀ (s : State), (∀ c < 16, s.ctxState c = 0) → s.active = false → s.tokenOk = false → ∃ t, exec (.lcsReturn 0x4C435354) s = .next t ∧ Within [.regs,
    .aregs, .tile, .hbm, .rot, .beyjo, .flt, .agFlt, .rst, .pair] s t ∧ RegsBut [LCS_STAT_ERR] s t ∧ t.rd LCS_STAT_ERR = 4 ∧ t.rot = s.rot)

/-- Ethernet and MKA frames, the host link, and the source of SPDM (R320, R321, R322, R323, R327, R350). Each clause gives what holds of the state
  before, that the command answers a next state, the parts of the state that it may reach, and what that state holds. -/
def Obligations.HostFrames : Prop :=
  (∀ (s : State) (f : EthFrame), s.lifecycle ≠ 0 → f.fcsOk = false → ∃ t, exec (.ethFrame f) s = .next t ∧ Within [.regs, .out] s t ∧ RegsBut
    [HPT_FRAMES_RX, HPT_DISCARD_FCS] s t ∧ t.rd HPT_FRAMES_RX = (s.rd HPT_FRAMES_RX + 1) % 2 ^ (HPT_FRAMES_RX).w ∧ t.rd HPT_DISCARD_FCS = (s.rd
    HPT_DISCARD_FCS + 1) % 2 ^ (HPT_DISCARD_FCS).w ∧ t.out = s.out) ∧
  (∀ (s : State) (f : EthFrame), s.lifecycle ≠ 0 → f.fcsOk = true → s.secure f = false → ∃ t, exec (.ethFrame f) s = .next t ∧ Within [.regs, .out] s
    t ∧ RegsBut [HPT_FRAMES_RX, HPT_DISCARD_MACSEC] s t ∧ t.rd HPT_DISCARD_MACSEC = (s.rd HPT_DISCARD_MACSEC + 1) % 2 ^ (HPT_DISCARD_MACSEC).w ∧ t.out
    = s.out) ∧
  (∀ (s : State) (f : EthFrame), s.lifecycle ≠ 0 → f.fcsOk = true → s.secure f = true → s.addrFits f = false → ∃ t, exec (.ethFrame f) s = .next t ∧
    Within [.regs, .out] s t ∧ RegsBut [HPT_FRAMES_RX, HPT_DISCARD_ADDR] s t ∧ t.rd HPT_DISCARD_ADDR = (s.rd HPT_DISCARD_ADDR + 1) % 2 ^
    (HPT_DISCARD_ADDR).w ∧ t.out = s.out) ∧
  (∀ (s : State) (f : EthFrame), s.lifecycle ≠ 0 → f.fcsOk = true → s.secure f = true → s.addrFits f = true → s.portFits f = true → f.kind =
    .neighbour → ∃ t, exec (.ethFrame f) s = .next t ∧ Within [.regs, .out] s t ∧ RegsBut [HPT_FRAMES_RX, HPT_FRAMES_TX] s t ∧ t.rd HPT_FRAMES_RX =
    (s.rd HPT_FRAMES_RX + 1) % 2 ^ (HPT_FRAMES_RX).w ∧ t.rd HPT_FRAMES_TX = (s.rd HPT_FRAMES_TX + 1) % 2 ^ (HPT_FRAMES_TX).w ∧ t.out = s.out ++ [.icmp
    .neighbour]) ∧
  (∀ (s : State) (k : Nat), s.rot.cak.isSome = true → ∃ t, exec (.mkaFrame true (some k)) s = .next t ∧ Within [.regs, .beyjo] s t ∧ RegsBut
    [HPT_STAT_MKA, HPT_STAT_MACSEC] s t ∧ t.rd HPT_STAT_MKA = 3 ∧ t.rd HPT_STAT_MACSEC = 1 ∧ t.beyjo.sak = some k) ∧
  (∀ (s : State) (b : Bool) (k : Option Nat), (b = false ∨ s.rot.cak = none) → ∃ t, exec (.mkaFrame b k) s = .next t ∧ Within [.regs, .beyjo] s t ∧ t
    = s) ∧
  (∀ (s : State), ∃ t, exec (.hostLinkLoss) s = .next t ∧ Within [.regs, .flt, .agFlt] s t ∧ RegsBut [HPT_STAT_LINK, HPT_STAT_PCS_LOCK,
    HPT_STAT_FEC_LOCK] s t ∧ t.rd HPT_STAT_LINK = 0 ∧ t.rd HPT_STAT_PCS_LOCK = 0 ∧ t.rd HPT_STAT_FEC_LOCK = 0) ∧
  (∀ (s : State), s.lifecycle ≠ 0 → ∃ t, exec (.hostLinkUp) s = .next t ∧ Within [.regs] s t ∧ RegsBut [HPT_STAT_LINK, HPT_STAT_PCS_LOCK,
    HPT_STAT_FEC_LOCK] s t ∧ t.rd HPT_STAT_LINK = 2 ∧ t.rd HPT_STAT_PCS_LOCK = 1 ∧ t.rd HPT_STAT_FEC_LOCK = 1) ∧
  (∀ (s : State), s.lifecycle = 0 → ∃ t, exec (.hostLinkUp) s = .next t ∧ Within [.regs] s t ∧ t = s) ∧
  (∀ (s : State) (a p : Nat), ∃ t, exec (.beyjoSpdm a p) s = .next t ∧ Within [.beyjo] s t ∧ t.beyjo.spdmFrom = some (a, p) ∧ t.beyjo.sessions =
    s.beyjo.sessions)

/-- Opening, proving, closing and expiring Beyjo sessions (R329, R330, R331). Each clause gives what holds of the state before, that the command
  answers a next state, the parts of the state that it may reach, and what that state holds. -/
def Obligations.SessionsOpenAndClose : Prop :=
  (∀ (s : State) (a c p h i : Nat), (((s.beyjo.opens.filter fun e => decide (s.time.nowNs < e.2 + 1000000000)).filter fun e => e.1 == a).length < 16)
    → s.roleAllowed 0 = true → s.beyjo.creds.any (credFor 0 c) = true → s.roleCount 0 c < roleLimit 0 → s.freeIndex = some i → (s.needsAdmission =
    true → s.rd FRK_STAT_ADMITTED = 1) → ∃ t, exec (.beyjoOpen a 0 c p h) s = .next t ∧ Within [.regs, .beyjo, .out, .freeCtr] s t ∧ (∃ x,
    t.beyjo.sessions = s.beyjo.sessions ++ [x] ∧ x.index = i ∧ x.gen = s.genOf i ∧ x.isOpen = false ∧ x.role = 0 ∧ x.nh = h ∧ t.out = s.out ++
    [.datagram 3 x.id 0 [x.nd]]) ∧ t.rd HPT_FRAMES_TX = (s.rd HPT_FRAMES_TX + 1) % 2 ^ (HPT_FRAMES_TX).w) ∧
  (∀ (s : State) (a k c p h : Nat), (((s.beyjo.opens.filter fun e => decide (s.time.nowNs < e.2 + 1000000000)).filter fun e => e.1 == a).length < 16)
    → s.roleAllowed k = false → ∃ t, exec (.beyjoOpen a k c p h) s = .next t ∧ Within [.regs, .beyjo, .out, .freeCtr] s t ∧ t.out = s.out ++
    [.datagram 6 0 0 [1]] ∧ t.beyjo.sessions = s.beyjo.sessions ∧ t.rd BYJ_OPEN_CNT_REFUSED = (s.rd BYJ_OPEN_CNT_REFUSED + 1) % 2 ^
    (BYJ_OPEN_CNT_REFUSED).w) ∧
  (∀ (s : State) (a k c p h : Nat), (((s.beyjo.opens.filter fun e => decide (s.time.nowNs < e.2 + 1000000000)).filter fun e => e.1 == a).length ≥ 16)
    → ∃ t, exec (.beyjoOpen a k c p h) s = .next t ∧ Within [.regs, .beyjo, .out, .freeCtr] s t ∧ t.out = s.out ∧ t.regs = s.regs ∧ t.beyjo.sessions =
    s.beyjo.sessions) ∧
  (∀ (s : State) (z p : Nat) (x : Sess), ((s.sessNamed z).filter (fun x => !x.isOpen) = some x) → ∃ t, exec (.beyjoProof z p) s = .next t ∧ Within
    [.regs, .tile, .beyjo, .out] s t ∧ ((∃ c ∈ s.beyjo.creds, credFor x.role x.ctx c = true ∧ x.mac c.value (ascii "DZ8-BYJ-PROVE") = p) → ∃ y ∈
    t.beyjo.sessions, y.index = x.index ∧ y.isOpen = true ∧ y.role = x.role ∧ y.nh = x.nh) ∧ ((∃ c ∈ s.beyjo.creds, credFor x.role x.ctx c = true ∧
    x.mac c.value (ascii "DZ8-BYJ-PROVE") = p) → t.rd BYJ_OPEN_CNT_OPENED = (s.rd BYJ_OPEN_CNT_OPENED + 1) % 2 ^ (BYJ_OPEN_CNT_OPENED).w) ∧ (¬ (∃ c ∈
    s.beyjo.creds, credFor x.role x.ctx c = true ∧ x.mac c.value (ascii "DZ8-BYJ-PROVE") = p) → t.out = s.out ++ [.datagram 6 z 0 [4]] ∧ ∀ y ∈
    t.beyjo.sessions, y.index = x.index → y.isOpen = true)) ∧
  (∀ (s : State) (z p : Nat), s.sessNamed z = none → ∃ t, exec (.beyjoProof z p) s = .next t ∧ Within [.regs, .tile, .beyjo, .out] s t ∧ t = s) ∧
  (∀ (s : State) (i : Nat), ∃ t, exec (.challengeExpiry i) s = .next t ∧ Within [.beyjo] s t ∧ (∀ x ∈ t.beyjo.sessions, x.index = i → x.isOpen = true)
    ∧ (∀ x ∈ s.beyjo.sessions, x.isOpen = true → x ∈ t.beyjo.sessions) ∧ t.regs = s.regs) ∧
  (∀ (s : State) (z : Nat) (x : Sess), (s.sessNamed z).filter (·.isOpen) = some x → ∃ t, exec (.beyjoClose z true) s = .next t ∧ Within [.regs, .tile,
    .beyjo, .rst, .pair] s t ∧ t.sessAt x.index = none ∧ (∀ r ∈ t.beyjo.openReqs, r.index ≠ x.index) ∧ t.out = s.out) ∧
  (∀ (s : State) (z : Nat) (x : Sess), (s.sessNamed z).filter (·.isOpen) = some x → ∃ t, exec (.beyjoClose z false) s = .next t ∧ Within [.regs,
    .tile, .beyjo, .rst, .pair] s t ∧ RegsBut [BYJ_REJECT_TAG] s t ∧ t.rd BYJ_REJECT_TAG = (s.rd BYJ_REJECT_TAG + 1) % 2 ^ (BYJ_REJECT_TAG).w ∧
    t.beyjo = s.beyjo) ∧
  (∀ (s : State) (i : Nat) (x : Sess), s.openSess i = some x → ∃ t, exec (.sessionIdleTimeout i) s = .next t ∧ Within [.regs, .tile, .beyjo, .rst,
    .pair] s t ∧ t.sessAt i = none ∧ t.genOf i = (x.gen + 1) % 2 ^ 26 ∧ t.out = s.out) ∧
  (∀ (s : State) (i : Nat), s.openSess i = none → ∃ t, exec (.sessionIdleTimeout i) s = .next t ∧ Within [.regs, .tile, .beyjo, .rst, .pair] s t ∧ t =
    s)

/-- NOTIFY datagrams and mail slots (R339, R341, R342, R343, R345). Each clause gives what holds of the state before, that the command answers a next
  state, the parts of the state that it may reach, and what that state holds. -/
def Obligations.NotifyAndMail : Prop :=
  (∀ (s : State) (i : Nat) (x : Sess), s.openSess i = some x → x.dropped = 0 → x.queue ≠ [] → ∃ t, exec (.notifySend i) s = .next t ∧ Within [.regs,
    .beyjo, .out] s t ∧ t.out = s.out ++ [.notify x.id x.nextSeq (takeRecs 8920 x.queue).1] ∧ (t.openSess i).map (·.queue) = some (takeRecs 8920
    x.queue).2 ∧ (t.openSess i).map (·.nextSeq) = some (x.nextSeq + 1) ∧ t.rd HPT_FRAMES_TX = (s.rd HPT_FRAMES_TX + 1) % 2 ^ (HPT_FRAMES_TX).w) ∧
  (∀ (s : State) (i : Nat) (x : Sess), s.openSess i = some x → x.dropped = 0 → x.queue = [] → ∃ t, exec (.notifySend i) s = .next t ∧ Within [.regs,
    .beyjo, .out] s t ∧ t = s) ∧
  (∀ (s : State) (z n : Nat) (x : Sess), (s.sessNamed z).filter (·.isOpen) = some x → ∃ t, exec (.notifyAck z n true) s = .next t ∧ Within [.regs,
    .beyjo] s t ∧ (∀ y ∈ t.beyjo.sessions, y.index = x.index → ∀ m ∈ y.unacked, n < m.seq) ∧ t.regs = s.regs) ∧
  (∀ (s : State) (z n : Nat) (b : Bool), s.sessNamed z = none → ∃ t, exec (.notifyAck z n b) s = .next t ∧ Within [.regs, .beyjo] s t ∧ t = s) ∧
  (∀ (s : State) (i n : Nat) (x : Sess) (m : SentNotify), s.openSess i = some x → (x.unacked.find? (fun m => m.seq == n) = some m) → m.resends < 8 → ∃
    t, exec (.notifyResend i n) s = .next t ∧ Within [.regs, .tile, .beyjo, .rst, .pair, .out] s t ∧ t.out = s.out ++ [.notify x.id n m.records] ∧
    t.rd BYJ_NOTIFY_RESENT = (s.rd BYJ_NOTIFY_RESENT + 1) % 2 ^ (BYJ_NOTIFY_RESENT).w ∧ t.rd HPT_FRAMES_TX = (s.rd HPT_FRAMES_TX + 1) % 2 ^
    (HPT_FRAMES_TX).w) ∧
  (∀ (s : State) (i n : Nat) (x : Sess) (m : SentNotify), s.openSess i = some x → (x.unacked.find? (fun m => m.seq == n) = some m) → 8 ≤ m.resends → ∃
    t, exec (.notifyResend i n) s = .next t ∧ Within [.regs, .tile, .beyjo, .rst, .pair, .out] s t ∧ t.sessAt i = none ∧ t.out = s.out) ∧
  (∀ (s : State), s.time.beat % 64 = 0 → s.posted = [] → ∃ t, exec (.mailScan) s = .next t ∧ Within [.regs, .tile] s t ∧ RegsBut [MSL_SCAN_SCANS,
    MSL_SCAN_FULL] s t ∧ t.rd MSL_SCAN_SCANS = (s.rd MSL_SCAN_SCANS + 1) % 2 ^ (MSL_SCAN_SCANS).w ∧ t.tile = s.tile) ∧
  (∀ (s : State) (i n : Nat), s.time.beat % 64 = 0 → s.posted = [(i, n)] → ∃ t, exec (.mailScan) s = .next t ∧ Within [.regs, .tile] s t ∧ t.taken i n
    = true ∧ t.rd MSL_SCAN_SCANS = (s.rd MSL_SCAN_SCANS + 1) % 2 ^ (MSL_SCAN_SCANS).w) ∧
  (∀ (s : State), s.time.beat % 64 ≠ 0 → ∃ t, exec (.mailScan) s = .next t ∧ Within [.regs, .tile] s t ∧ t = s) ∧
  (∀ (s : State) (i n : Nat) (x : Sess), i < 64 → n < 16 → s.takenFor i n 0 = true → s.mailErr i n 0 0 [0, 1, 2, 3] = none → s.openSess i = some x → ∃
    t, exec (.mailNop i n) s = .next t ∧ Within [.regs, .tile, .beyjo] s t ∧ slotState (t.control i n) = 3 ∧ t.rd MSL_COUNT_DONE = (s.rd
    MSL_COUNT_DONE + 1) % 2 ^ (MSL_COUNT_DONE).w ∧ t.rd MSL_COUNT_REJECTED = s.rd MSL_COUNT_REJECTED) ∧
  (∀ (s : State) (i n : Nat) (x : Sess), i < 64 → n < 16 → s.taken i n = true → 6 < slotCode (s.control i n) → s.openSess i = some x → ∃ t, exec
    (.mailReserved i n) s = .next t ∧ Within [.regs, .tile, .beyjo] s t ∧ slotState (t.control i n) = 4 ∧ t.rd MSL_COUNT_REJECTED = (s.rd
    MSL_COUNT_REJECTED + 1) % 2 ^ (MSL_COUNT_REJECTED).w ∧ t.rd MSL_COUNT_DONE = s.rd MSL_COUNT_DONE) ∧
  (∀ (s : State) (i n : Nat), s.taken i n = false → ∃ t, exec (.mailReserved i n) s = .next t ∧ Within [.regs, .tile, .beyjo] s t ∧ t = s)

/-- REQUESTs and their operations (R332, R333, R334, R346). Each clause gives what holds of the state before, that the command answers a next state,
  the parts of the state that it may reach, and what that state holds. -/
def Obligations.BeyjoOperations : Prop :=
  (∀ (s : State) (z n : Nat) (l : List BOp) (x : Sess) (r : Nat × List OpResult), (s.sessNamed z).filter (·.isOpen) = some x → l ≠ [] → l.length ≤ 64
    → (x.replies.find? (fun r => r.1 == n) = some r) → ∃ t, exec (.beyjoRequest z n true l) s = .next t ∧ Within [.regs, .aregs, .time, .agTime,
    .ports, .agPorts, .replays, .route, .ttbs, .agents, .insts, .tile, .hbm, .ctxs, .rot, .beyjo, .flt, .agFlt, .rst, .pair, .boot, .pwr, .out,
    .freeCtr] s t ∧ t.out = s.out ++ [.response x.id n r.2] ∧ t.rd HPT_FRAMES_TX = (s.rd HPT_FRAMES_TX + 1) % 2 ^ (HPT_FRAMES_TX).w) ∧
  (∀ (s : State) (z n a : Nat) (x : Sess), (s.sessNamed z).filter (·.isOpen) = some x → (x.replies.find? (fun r => r.1 == n) = none) →
    ((s.beyjo.openReqs.any fun r => r.index == x.index && r.seq == n) = false) → x.lastSeq < n → ∃ t, exec (.beyjoRequest z n true [⟨3, 0, a, []⟩]) s
    = .next t ∧ Within [.regs, .aregs, .time, .agTime, .ports, .agPorts, .replays, .route, .ttbs, .agents, .insts, .tile, .hbm, .ctxs, .rot, .beyjo,
    .flt, .agFlt, .rst, .pair, .boot, .pwr, .out, .freeCtr] s t ∧ t.out = s.out ++ [.response z n [⟨3, stOK, a, []⟩]] ∧ t.rd HPT_FRAMES_TX = (s.rd
    HPT_FRAMES_TX + 1) % 2 ^ (HPT_FRAMES_TX).w ∧ (∃ y ∈ t.beyjo.sessions, y.index = x.index ∧ y.lastSeq = n)) ∧
  (∀ (s : State) (z n : Nat) (l : List BOp) (x : Sess), (s.sessNamed z).filter (·.isOpen) = some x → l ≠ [] → l.length ≤ 64 → (x.replies.find? (fun r
    => r.1 == n) = none) → ((s.beyjo.openReqs.any fun r => r.index == x.index && r.seq == n) = false) → n ≤ x.lastSeq → ∃ t, exec (.beyjoRequest z n
    true l) s = .next t ∧ Within [.regs, .aregs, .time, .agTime, .ports, .agPorts, .replays, .route, .ttbs, .agents, .insts, .tile, .hbm, .ctxs, .rot,
    .beyjo, .flt, .agFlt, .rst, .pair, .boot, .pwr, .out, .freeCtr] s t ∧ t.rd BYJ_REJECT_SEQ = (s.rd BYJ_REJECT_SEQ + 1) % 2 ^ (BYJ_REJECT_SEQ).w ∧
    t.out = s.out) ∧
  (∀ (s : State) (z n : Nat) (l : List BOp) (x : Sess), (s.sessNamed z).filter (·.isOpen) = some x → ∃ t, exec (.beyjoRequest z n false l) s = .next t
    ∧ Within [.regs, .aregs, .time, .agTime, .ports, .agPorts, .replays, .route, .ttbs, .agents, .insts, .tile, .hbm, .ctxs, .rot, .beyjo, .flt,
    .agFlt, .rst, .pair, .boot, .pwr, .out, .freeCtr] s t ∧ RegsBut [BYJ_REJECT_TAG] s t ∧ t.rd BYJ_REJECT_TAG = (s.rd BYJ_REJECT_TAG + 1) % 2 ^
    (BYJ_REJECT_TAG).w ∧ t.out = s.out) ∧
  (∀ (s : State) (i a n : Nat) (x : Sess), i < 64 → s.openSess i = some x → 1 ≤ n → n ≤ 128 → adRemote a = false → ∃ t, exec (.opRead i a n) s = .next
    t ∧ Within [.regs, .aregs, .time, .agTime, .ports, .agPorts, .replays, .route, .ttbs, .agents, .insts, .tile, .hbm, .ctxs, .rot, .beyjo, .flt,
    .agFlt, .rst, .pair, .boot, .pwr, .out, .freeCtr] s t ∧ (t = ((s.setSess i fun y => { y with lastNs := s.time.nowNs }).readRun x.asker n
    a).2.2.respond x.id 0 [opResult ⟨1, n, a, []⟩ ((s.setSess i fun y => { y with lastNs := s.time.nowNs }).readRun x.asker n a).1 ((s.setSess i fun y
    => { y with lastNs := s.time.nowNs }).readRun x.asker n a).2.1])) ∧
  (∀ (s : State) (i a n : Nat) (x : Sess), i < 64 → s.openSess i = some x → (n = 0 ∨ 128 < n) → ∃ t, exec (.opRead i a n) s = .next t ∧ Within [.regs,
    .aregs, .time, .agTime, .ports, .agPorts, .replays, .route, .ttbs, .agents, .insts, .tile, .hbm, .ctxs, .rot, .beyjo, .flt, .agFlt, .rst, .pair,
    .boot, .pwr, .out, .freeCtr] s t ∧ t.out = s.out ++ [.response x.id 0 [⟨1, stSIZE, a, []⟩]] ∧ t.rd HPT_FRAMES_TX = (s.rd HPT_FRAMES_TX + 1) % 2 ^
    (HPT_FRAMES_TX).w) ∧
  (∀ (s : State) (i a : Nat) (w : List Word) (x : Sess), i < 64 → s.openSess i = some x → w ≠ [] → w.length ≤ 128 → adRemote a = false → ∃ t, exec
    (.opWrite i a w) s = .next t ∧ Within [.regs, .aregs, .time, .agTime, .ports, .agPorts, .replays, .route, .ttbs, .agents, .insts, .tile, .hbm,
    .ctxs, .rot, .beyjo, .flt, .agFlt, .rst, .pair, .boot, .pwr, .out, .freeCtr] s t ∧ (t = ((s.setSess i fun y =>
    { y with lastNs := s.time.nowNs }).writeRun x.asker (w.map (·.toNat)) a).2.respond x.id 0 [opResult ⟨2, w.length, a, w⟩ ((s.setSess i fun y =>
    { y with lastNs := s.time.nowNs }).writeRun x.asker (w.map (·.toNat)) a).1 []])) ∧
  (∀ (s : State) (i a : Nat) (x : Sess), i < 64 → s.openSess i = some x → ∃ t, exec (.opWrite i a []) s = .next t ∧ Within [.regs, .aregs, .time,
    .agTime, .ports, .agPorts, .replays, .route, .ttbs, .agents, .insts, .tile, .hbm, .ctxs, .rot, .beyjo, .flt, .agFlt, .rst, .pair, .boot, .pwr,
    .out, .freeCtr] s t ∧ t.out = s.out ++ [.response x.id 0 [⟨2, stSIZE, a, []⟩]]) ∧
  (∀ (s : State) (i : Nat) (x : Sess), i < 64 → s.openSess i = some x → ∃ t, exec (.opKeepalive i) s = .next t ∧ Within [.regs, .aregs, .time,
    .agTime, .ports, .agPorts, .replays, .route, .ttbs, .agents, .insts, .tile, .hbm, .ctxs, .rot, .beyjo, .flt, .agFlt, .rst, .pair, .boot, .pwr,
    .out, .freeCtr] s t ∧ t.out = s.out ++ [.response x.id 0 [⟨3, stOK, 0, []⟩]] ∧ (t.openSess i).map (·.lastNs) = some s.time.nowNs ∧ t.rd
    HPT_FRAMES_TX = (s.rd HPT_FRAMES_TX + 1) % 2 ^ (HPT_FRAMES_TX).w) ∧
  (∀ (s : State) (i : Nat) (m : Word) (x : Sess), i < 64 → s.openSess i = some x → ∃ t, exec (.opFilter i m) s = .next t ∧ Within [.regs, .aregs,
    .time, .agTime, .ports, .agPorts, .replays, .route, .ttbs, .agents, .insts, .tile, .hbm, .ctxs, .rot, .beyjo, .flt, .agFlt, .rst, .pair, .boot,
    .pwr, .out, .freeCtr] s t ∧ t.out = s.out ++ [.response x.id 0 [⟨4, stOK, 0, []⟩]] ∧ (t.openSess i).map (·.mask) = some (m.toNat ||| 0x80)) ∧
  (∀ (s : State) (i : Nat) (m : Word), s.openSess i = none → ∃ t, exec (.opFilter i m) s = .next t ∧ Within [.regs, .aregs, .time, .agTime, .ports,
    .agPorts, .replays, .route, .ttbs, .agents, .insts, .tile, .hbm, .ctxs, .rot, .beyjo, .flt, .agFlt, .rst, .pair, .boot, .pwr, .out, .freeCtr] s t
    ∧ t = s)

/-- Power-on reset, the boot, and the time record (R37, R393, R441, R442, R444, R447, R448, R453). Each clause gives what holds of the state before,
  that the command answers a next state, the parts of the state that it may reach, and what that state holds. -/
def Obligations.BootAndReset : Prop :=
  (∀ (s : State), ∃ t, exec (.porstNLow) s = .next t ∧ Within [.regs, .time, .ports, .agPorts, .replays, .route, .ttbs, .agents, .insts, .tile, .hbm,
    .ctxs, .rot, .beyjo, .flt, .rst, .pair, .boot, .pwr, .out] s t ∧ t.boot.porst = true ∧ t.pwr.armed = [] ∧ t.time = TimeSt.reset ∧ t.ctxs =
    State.reset.ctxs ∧ t.ttbs = State.reset.ttbs ∧ t.route = RouteSt.reset ∧ t.flt = FltSt.reset ∧ t.hbm.mem = s.hbm.mem ∧ t.rst.slots = s.rst.slots ∧
    t.boot.flash = s.boot.flash ∧ t.boot.timeRec = s.boot.timeRec ∧ t.pair.store = s.pair.store ∧ t.aregs = s.aregs ∧ (t.regs = (fuseFlds.foldl (fun
    (u : State) (f : Fld) => u.wr f (s.rd f)) State.reset).fromFuses.regs) ∧ (∀ f : Fld, (∀ g ∈ fuseFlds ++ [PWR_BUDGET_BUDGET_W, PWR_BUDGET_IDLE_W],
    f.key ≠ g.key) → f.key / 2 ^ 34 ≠ 2 → f.key / 2 ^ 34 ≠ 3 → t.rd f = f.rst) ∧ t.rd PWR_BUDGET_BUDGET_W = t.rd LCS_PART_POWER_W % 2 ^ 16 ∧ t.rd
    LCS_STAT_STATE = s.rd LCS_STAT_STATE % 2 ^ LCS_STAT_STATE.w) ∧
  (∀ (s : State) (f x : Bool), s.boot.porst = true → s.lifecycle = 0 → ∃ t, exec (.porstNRelease f x) s = .next t ∧ Within [.regs, .aregs, .ports,
    .agPorts, .replays, .rot, .rst, .pair, .boot, .out, .freeCtr] s t ∧ RegsBut [GEN_STRAP_FSEL, TMK_STAT_FSEL, GEN_STRAP_XSPI_SAFE] s t ∧ t.rd
    GEN_STRAP_FSEL = b2n f ∧ t.rd GEN_STRAP_XSPI_SAFE = b2n x ∧ t.rd TMK_STAT_FSEL = b2n f ∧ t.boot.porst = false ∧ t.rot = s.rot) ∧
  (∀ (s : State) (f x : Bool), s.boot.porst = true → s.lifecycle ≠ 0 → ∃ t, exec (.porstNRelease f x) s = .next t ∧ Within [.regs, .aregs, .ports,
    .agPorts, .replays, .rot, .rst, .pair, .boot, .out, .freeCtr] s t ∧ t.boot.porst = false ∧ t.rd GEN_BOOT_STATE = 3 ∧ t.rd VLT_STAT_KEYS_READY = 1
    ∧ t.rd GEN_STRAP_FSEL = b2n f ∧ t.boot.timeWait = s.boot.timeRec.isSome) ∧
  (∀ (s : State) (f x : Bool), s.boot.porst = false → s.rd GEN_BOOT_STATE ≠ 0 → ∃ t, exec (.porstNRelease f x) s = .next t ∧ Within [.regs, .aregs,
    .ports, .agPorts, .replays, .rot, .rst, .pair, .boot, .out, .freeCtr] s t ∧ t = s) ∧
  (∀ (s : State) (ms : Nat) (l : List Nat), s.boot.porst = false → s.rd GEN_BOOT_STATE < 4 → s.lifecycle ≠ 0 → ((l.any fun k => decide (3 ≤ k) &&
    decide (k ≤ 5) && !s.boot.tryKinds.contains k) = false) → ∃ t, exec (.bootReady ms l false) s = .next t ∧ Within [.regs, .ports, .agPorts, .rot,
    .boot, .out] s t ∧ t.rd GEN_BOOT_STATE = 4 ∧ t.rd GEN_BOOT_BOOT_MS = ms % 2 ^ GEN_BOOT_BOOT_MS.w ∧ t.time = s.time ∧ t.ports = s.ports) ∧
  (∀ (s : State) (ms : Nat) (l : List Nat), s.boot.porst = false → s.rd GEN_BOOT_STATE < 4 → s.lifecycle ≠ 0 → ((l.any fun k => decide (3 ≤ k) &&
    decide (k ≤ 5) && !s.boot.tryKinds.contains k) = true) → ∃ t, exec (.bootReady ms l false) s = .next t ∧ Within [.regs, .ports, .agPorts, .rot,
    .boot, .out] s t ∧ t.rd GEN_BOOT_STATE = 3 ∧ t.rd GEN_BOOT_BOOT_MS = s.rd GEN_BOOT_BOOT_MS ∧ t.rot = s.rot) ∧
  (∀ (s : State) (ms : Nat) (l : List Nat), s.boot.porst = false → s.rd GEN_BOOT_STATE < 4 → s.lifecycle ≠ 0 → ∃ t, exec (.bootReady ms l true) s =
    .next t ∧ Within [.regs, .ports, .agPorts, .rot, .boot, .out] s t ∧ RegsBut [GEN_BOOT_STATE] s t ∧ t.rd GEN_BOOT_STATE = 5 ∧ t.boot = s.boot ∧
    t.rot = s.rot) ∧
  (∀ (s : State) (ms : Nat) (l : List Nat) (d : Bool), 4 ≤ s.rd GEN_BOOT_STATE → ∃ t, exec (.bootReady ms l d) s = .next t ∧ Within [.regs, .ports,
    .agPorts, .rot, .boot, .out] s t ∧ t = s) ∧
  (∀ (s : State) (b : Option Nat) (r : TimeRec), s.boot.timeRec = some r → s.boot.timeWait = true → s.rd TMK_CTRL_ENABLE = 0 → r.src = 1 → ∃ t, exec
    (.timeRecordRestart b) s = .next t ∧ Within [.regs, .time, .beyjo, .boot] s t ∧ t.rd TMK_CTRL_ENABLE = 1 ∧ t.rd TMK_STAT_STATE = 1 ∧ t.rd
    TMK_CTRL_SRC = 1 ∧ t.rd TMK_EPOCH_SEC = r.epoch % 2 ^ TMK_EPOCH_SEC.w ∧ t.rd TMK_PERIOD_PERIOD_NS = r.period % 2 ^ TMK_PERIOD_PERIOD_NS.w ∧ t.rd
    TMK_REF_DELAY_DELAY_NS = r.refDelay % 2 ^ TMK_REF_DELAY_DELAY_NS.w ∧ t.boot.timeWait = false ∧ t.rd TMK_TOD_SEC = s.rd TMK_TOD_SEC) ∧
  (∀ (s : State) (n : Nat) (r : TimeRec), s.boot.timeRec = some r → s.boot.timeWait = true → s.rd TMK_CTRL_ENABLE = 0 → r.src = 0 → ∃ t, exec
    (.timeRecordRestart (some n)) s = .next t ∧ Within [.regs, .time, .beyjo, .boot] s t ∧ t.rd TMK_CTRL_ENABLE = 1 ∧ t.rd TMK_CTRL_SRC = 0 ∧ t.rd
    TMK_TOD_SEC = (r.epoch + n * r.period / 1000000000 + 1) % 2 ^ TMK_TOD_SEC.w ∧ t.boot.timeWait = false) ∧
  (∀ (s : State) (r : TimeRec), s.boot.timeRec = some r → r.src = 0 → ∃ t, exec (.timeRecordRestart none) s = .next t ∧ Within [.regs, .time, .beyjo,
    .boot] s t ∧ t = s) ∧
  (∀ (s : State), ∃ t, exec (.timeRecordTimeout) s = .next t ∧ Within [.boot] s t ∧ t.boot = { s.boot with timeWait := false } ∧ t.regs = s.regs ∧
    t.time = s.time)

/-- Staging updates and distributing agent firmware at the unit (R449, R454, R455, R462). Each clause gives what holds of the state before, that the
  command answers a next state, the parts of the state that it may reach, and what that state holds. -/
def Obligations.FirmwareAtTheUnit : Prop :=
  (∀ (s : State) (i n : Nat) (a b : Bool), s.takenFor i n 3 = false → ∃ t, exec (.fwStage i n a b) s = .next t ∧ Within [.regs, .tile, .rot, .beyjo,
    .boot] s t ∧ t = s) ∧
  (∀ (s : State) (i n : Nat) (a b : Bool) (e : Nat), s.takenFor i n 3 = true → s.mailErr i n 3 2 [0, 2] = some e → ∃ t, exec (.fwStage i n a b) s =
    .next t ∧ Within [.regs, .tile, .rot, .beyjo, .boot] s t ∧ t = s.mailReject i n e []) ∧
  (∀ (s : State) (i n : Nat) (a b : Bool), s.takenFor i n 3 = true → s.mailErr i n 3 2 [0, 2] = none → bit (s.slotGet i n 1) 1 = true → bits
    (s.slotGet i n 1) 15 8 = 0 → ∃ t, exec (.fwStage i n a b) s = .next t ∧ Within [.regs, .tile, .rot, .beyjo, .boot] s t ∧ t = s.mailReject i n 3
    []) ∧
  (∀ (s : State) (i n : Nat) (a b : Bool), s.takenFor i n 3 = true → s.mailErr i n 3 2 [0, 2] = none → bit (s.slotGet i n 1) 1 = false → s.slotGet i n
    0 % 2 ^ 32 ≤ 2 ^ 23 → s.boot.loadBusy = true → ∃ t, exec (.fwStage i n a b) s = .next t ∧ Within [.regs, .tile, .rot, .beyjo, .boot] s t ∧ t =
    s.mailReject i n 4 []) ∧
  (∀ (s : State) (i n : Nat) (a b : Bool), s.takenFor i n 3 = true → s.mailErr i n 3 2 [0, 2] = none → bit (s.slotGet i n 1) 1 = false → s.slotGet i n
    0 % 2 ^ 32 ≤ 2 ^ 23 → s.boot.loadBusy = false → ∃ t, exec (.fwStage i n a b) s = .next t ∧ Within [.regs, .tile, .rot, .beyjo, .boot] s t ∧ (∀ e,
    s.imageErr (containerOf (mread s.boot.load 0 (s.slotGet i n 0 % 2 ^ 32)) a) = some e → t = (s.showFw (containerOf (mread s.boot.load 0 (s.slotGet
    i n 0 % 2 ^ 32)) a).kind 3 (containerOf (mread s.boot.load 0 (s.slotGet i n 0 % 2 ^ 32)) a).svn (containerOf (mread s.boot.load 0 (s.slotGet i n 0
    % 2 ^ 32)) a).ver).mailReject i n 0x10 [e]) ∧ (s.imageErr (containerOf (mread s.boot.load 0 (s.slotGet i n 0 % 2 ^ 32)) a) = none → (containerOf
    (mread s.boot.load 0 (s.slotGet i n 0 % 2 ^ 32)) a).kind ≠ 6 → b = true → t = (s.stageImage (containerOf (mread s.boot.load 0 (s.slotGet i n 0 % 2
    ^ 32)) a)).mailOk i n [(containerOf (mread s.boot.load 0 (s.slotGet i n 0 % 2 ^ 32)) a).kind, (containerOf (mread s.boot.load 0 (s.slotGet i n 0 %
    2 ^ 32)) a).ver, (containerOf (mread s.boot.load 0 (s.slotGet i n 0 % 2 ^ 32)) a).svn])) ∧
  (∀ (s : State), s.active = false → ∃ t, exec (.fwDistribute) s = .next t ∧ Within [.regs, .boot] s t ∧ t = s) ∧
  (∀ (s : State) (x : Container), s.active = true → s.boot.distrib = none → s.boot.rod.isSome = true → s.hostMode 7 = false → s.agentImage = some x →
    ∃ t, exec (.fwDistribute) s = .next t ∧ Within [.regs, .boot] s t ∧ (t.boot.distrib = some
    ⟨(s.boot.distSerial + 1) % 2 ^ 16, x.raw, 3, 0, 0, (s.agentChips s.theRod).map fun f => (f, 0)⟩) ∧ t.rd GEN_AGENTFW_STATE = 1 ∧ t.rd
    GEN_AGENTFW_FAILED = 0 ∧ t.boot.flash = s.boot.flash) ∧
  (∀ (s : State) (l : List FwReport), s.boot.distrib = none → ∃ t, exec (.fwRepairRound l) s = .next t ∧ Within [.regs, .aregs, .ports, .agPorts,
    .rot, .flt, .agFlt, .boot, .out] s t ∧ t = s) ∧
  (∀ (s : State) (l : List FwReport) (d : Distrib), s.boot.distrib = some d → 2 ≤ s.rd GEN_AGENTFW_STATE → ((d.targets.any fun x => (targetNow
    d.rounds l x).2 == 0) = true) → ∃ t, exec (.fwRepairRound l) s = .next t ∧ Within [.regs, .aregs, .ports, .agPorts, .rot, .flt, .agFlt, .boot,
    .out] s t ∧ t.boot.distrib = some { d with targets := d.targets.map (targetNow d.rounds l), rounds := d.rounds + 1 } ∧ t.rd GEN_AGENTFW_STATE = 2
    ∧ t.boot.run = s.boot.run ∧ t.rot = s.rot) ∧
  (∀ (s : State) (l : List FwReport) (d : Distrib), s.boot.distrib = some d → 2 ≤ s.rd GEN_AGENTFW_STATE → ((d.targets.all fun x => (targetNow
    d.rounds l x).2 == 2 || (targetNow d.rounds l x).2 == 3) = true) → ∃ t, exec (.fwRepairRound l) s = .next t ∧ Within [.regs, .aregs, .ports,
    .agPorts, .rot, .flt, .agFlt, .boot, .out] s t ∧ t.boot.distrib = none ∧ t.rd GEN_AGENTFW_STATE = 4) ∧
  (∀ (s : State) (d : Distrib), s.boot.distrib = some d → ∃ t, exec (.fwActivateSend) s = .next t ∧ Within [.regs, .aregs, .ports, .agPorts, .flt,
    .agFlt, .boot, .out] s t ∧ (t.boot.distrib = some
    { d with targets := d.targets.map fun x => if ((d.targets.filter fun x => x.2 == 1 && !s.inArmed x.1).map (·.1)).contains x.1 then (x.1, 4) else x })
    ∧ (((d.targets.filter fun x => x.2 == 1 && !s.inArmed x.1).map (·.1)) = [] → t.ports = s.ports ∧ t.regs = s.regs)) ∧
  (∀ (s : State), s.boot.distrib = none → ∃ t, exec (.fwActivateSend) s = .next t ∧ Within [.regs, .aregs, .ports, .agPorts, .flt, .agFlt, .boot,
    .out] s t ∧ t = s) ∧
  (∀ (s : State) (x : Cell) (d : Distrib), s.boot.distrib = some d → ∃ t, exec (.fwAbort .dz8 x) s = .next t ∧ Within [.regs, .ports, .agPorts, .boot,
    .ag] s t ∧ t.boot.distrib = none ∧ t.rd GEN_AGENTFW_STATE = 0 ∧ t.boot.flash = s.boot.flash) ∧
  (∀ (s : State) (x : Cell), s.boot.distrib = none → s.active = false → ∃ t, exec (.fwAbort .dz8 x) s = .next t ∧ Within [.regs, .ports, .agPorts,
    .boot, .ag] s t ∧ t = s)

/-- Receiving, activating and running firmware at the agent (R446, R447, R454, R455, R475). Each clause gives what holds of the state before, that the
  command answers a next state, the parts of the state that it may reach, and what that state holds. -/
def Obligations.FirmwareAtTheAgent : Prop :=
  (∀ (s : State) (x : Cell), x.type = tFWCHUNK → fwOp x = 1 → s.ag.fw = none → cellWord x 1 ≤ 2 ^ 23 → ∃ t, exec (.fwBegin x) s = .next t ∧ Within
    [.ag] s t ∧ t.ag.fw = some ⟨fwDist x, cellWord x 1, (cellPayload x).drop 16, [], 0, none, none⟩ ∧ t.aregs = s.aregs) ∧
  (∀ (s : State) (x : Cell) (f : AgFw), s.ag.fw = some f → f.dist = fwDist x → ∃ t, exec (.fwBegin x) s = .next t ∧ Within [.ag] s t ∧ t = s) ∧
  (∀ (s : State) (x : Cell) (b : Bool) (f : AgFw), s.ag.fw = some f → x.type = tFWCHUNK → fwOp x = 2 → f.dist = fwDist x → f.state = 0 → fwIndex x <
    chunkCount f.len → ((f.chunks.any fun c => c.1 == fwIndex x) = false) → f.chunks.length + 1 < chunkCount f.len → ∃ t, exec (.fwData x b) s = .next
    t ∧ Within [.aregs, .ag] s t ∧ t.ag.fw = some { f with chunks := f.chunks ++ [(fwIndex x, (cellPayload x).drop 8)] } ∧ t.aregs = s.aregs) ∧
  (∀ (s : State) (x : Cell) (b : Bool) (f : AgFw), s.ag.fw = some f → ((f.chunks.any fun c => c.1 == fwIndex x) = true) → ∃ t, exec (.fwData x b) s =
    .next t ∧ Within [.aregs, .ag] s t ∧ t = s) ∧
  (∀ (s : State) (x : Cell) (f : AgFw), s.ag.fw = some f → x.type = tFWCHUNK → fwOp x = 3 → f.dist = fwDist x → f.state = 1 → ∃ t, exec (.fwActivate
    x) s = .next t ∧ Within [.ag] s t ∧ t.ag.fw = some { f with activateAt := some (cellWord x 1 % 2 ^ 56) } ∧ t.aregs = s.aregs) ∧
  (∀ (s : State) (x : Cell) (f : AgFw), s.ag.fw = some f → f.state ≠ 1 → ∃ t, exec (.fwActivate x) s = .next t ∧ Within [.ag] s t ∧ t = s) ∧
  (∀ (s : State) (f : AgFw) (a : Nat) (x : Container), s.ag.fw = some f → f.activateAt = some a → f.container = some x → a ≤ s.agTime.beat → ∃ t, exec
    (.fwActivateAt) s = .next t ∧ Within [.aregs, .ag] s t ∧ t.ag.fw = none ∧ t.ag.image = some x ∧ AregsBut [GEN_FWVER_SVN 5, GEN_FWVER_VER 5] s t ∧
    t.ard (GEN_FWVER_SVN 5) = x.svn % 2 ^ (GEN_FWVER_SVN 5).w ∧ t.ard (GEN_FWVER_VER 5) = x.ver % 2 ^ (GEN_FWVER_VER 5).w) ∧
  (∀ (s : State) (f : AgFw) (a : Nat), s.ag.fw = some f → f.activateAt = some a → s.agTime.beat < a → ∃ t, exec (.fwActivateAt) s = .next t ∧ Within
    [.aregs, .ag] s t ∧ t = s) ∧
  (∀ (s : State) (x : Cell), x.type = tFWCHUNK → fwOp x = 4 → ∃ t, exec (.fwAbort .agent x) s = .next t ∧ Within [.regs, .ports, .agPorts, .boot, .ag]
    s t ∧ t.ag.fw = none ∧ t.aregs = s.aregs ∧ t.ag.image = s.ag.image) ∧
  (∀ (s : State) (b : Bool), ∃ t, exec (.agentFwGo b) s = .next t ∧ Within [.aregs, .ag] s t ∧ ((containerOf (mread s.ag.load 0 (min (2 ^ 23) (leNat
    (mread s.ag.load 16 8) + 16384))) b).kind = 6 → s.agentImageErr (containerOf (mread s.ag.load 0 (min (2 ^ 23) (leNat (mread s.ag.load 16 8) +
    16384))) b) = none → t.ag.image = some (containerOf (mread s.ag.load 0 (min (2 ^ 23) (leNat (mread s.ag.load 16 8) + 16384))) b) ∧ AregsBut
    [GEN_FWVER_SVN 5, GEN_FWVER_VER 5] s t) ∧ (∀ e, s.agentImageErr (containerOf (mread s.ag.load 0 (min (2 ^ 23) (leNat (mread s.ag.load 16 8) +
    16384))) b) = some e → (containerOf (mread s.ag.load 0 (min (2 ^ 23) (leNat (mread s.ag.load 16 8) + 16384))) b).kind = 6 → AregsBut
    [GEN_BOOT_ERR] s t ∧ t.ard GEN_BOOT_ERR = e % 2 ^ GEN_BOOT_ERR.w) ∧ ((containerOf (mread s.ag.load 0 (min (2 ^ 23) (leNat (mread s.ag.load 16 8) +
    16384))) b).kind ≠ 6 → AregsBut [GEN_BOOT_ERR] s t ∧ t.ard GEN_BOOT_ERR = 1))

/-- Loading and comparing the Rod (R111, R458, R459). Each clause gives what holds of the state before, that the command answers a next state, the
  parts of the state that it may reach, and what that state holds. -/
def Obligations.RodLoading : Prop :=
  (∀ (s : State) (l : List NeighReport), s.boot.rod = none → ∃ t, exec (.rodCompare l) s = .next t ∧ Within [.regs, .aregs, .ports, .agPorts, .route,
    .ttbs, .tile, .beyjo, .flt, .agFlt, .pair, .boot, .out] s t ∧ t = s) ∧
  (∀ (s : State) (l : List NeighReport), s.boot.rod.isSome = true → ∃ t, exec (.rodCompare l) s = .next t ∧ Within [.regs, .aregs, .ports, .agPorts,
    .route, .ttbs, .tile, .beyjo, .flt, .agFlt, .pair, .boot, .out] s t ∧ t = (s.takeReports l).compareRod.compareDone ∧ t.boot.rod = s.boot.rod ∧
    t.boot.mismatches = (s.takeReports l).mismatchesNow s.theRod) ∧
  (∀ (s : State) (f : Nat), s.boot.rod.isSome = true → (s.agentChips s.theRod).contains f = true → s.heard f = false → ∃ t, exec (.rodSilentTimeout f)
    s = .next t ∧ Within [.regs, .aregs, .ports, .agPorts, .route, .ttbs, .tile, .beyjo, .flt, .agFlt, .pair, .boot, .out] s t ∧ (t = (s.setBoot fun b
    => { b with mismatches := b.mismatches ++ [mismatchAt 6 f 0 none 0] }).compareRod.compareDone) ∧ t.boot.rod = s.boot.rod ∧ t.boot.reports =
    s.boot.reports) ∧
  (∀ (s : State) (f : Nat), s.heard f = true → ∃ t, exec (.rodSilentTimeout f) s = .next t ∧ Within [.regs, .aregs, .ports, .agPorts, .route, .ttbs,
    .tile, .beyjo, .flt, .agFlt, .pair, .boot, .out] s t ∧ t = s) ∧
  (∀ (s : State) (i n : Nat), s.takenFor i n 1 = false → ∃ t, exec (.rodLoad i n) s = .next t ∧ Within [.regs, .aregs, .agTime, .ports, .agPorts,
    .route, .ttbs, .tile, .ctxs, .rot, .beyjo, .flt, .agFlt, .rst, .pair, .boot, .out, .freeCtr] s t ∧ t = s) ∧
  (∀ (s : State) (i n : Nat), s.takenFor i n 1 = true → s.hostMode 0 = false → s.mailErr i n 1 1 [0] = none → s.slotGet i n 0 % 2 ^ 32 ≤ 2 ^ 23 →
    s.boot.loadBusy = true → ∃ t, exec (.rodLoad i n) s = .next t ∧ Within [.regs, .aregs, .agTime, .ports, .agPorts, .route, .ttbs, .tile, .ctxs,
    .rot, .beyjo, .flt, .agFlt, .rst, .pair, .boot, .out, .freeCtr] s t ∧ t = s.mailReject i n 4 []) ∧
  (∀ (s : State) (i n : Nat), s.takenFor i n 1 = true → s.hostMode 0 = false → s.mailErr i n 1 1 [0] = none → s.slotGet i n 0 % 2 ^ 32 ≤ 2 ^ 23 →
    s.boot.loadBusy = false → s.rd PAR_STAT_ROLE = 2 → ∃ t, exec (.rodLoad i n) s = .next t ∧ Within [.regs, .aregs, .agTime, .ports, .agPorts,
    .route, .ttbs, .tile, .ctxs, .rot, .beyjo, .flt, .agFlt, .rst, .pair, .boot, .out, .freeCtr] s t ∧ t = s.mailReject i n 0x12 []) ∧
  (∀ (s : State) (i n : Nat), s.takenFor i n 1 = true → s.hostMode 0 = false → s.mailErr i n 1 1 [0] = none → s.slotGet i n 0 % 2 ^ 32 ≤ 2 ^ 23 →
    s.boot.loadBusy = false → s.rd PAR_STAT_ROLE = 1 → ∃ t, exec (.rodLoad i n) s = .next t ∧ Within [.regs, .aregs, .agTime, .ports, .agPorts,
    .route, .ttbs, .tile, .ctxs, .rot, .beyjo, .flt, .agFlt, .rst, .pair, .boot, .out, .freeCtr] s t ∧ (∀ e, (s.startMode 0 false).rodErr (rodOf
    (mread s.boot.load 0 (s.slotGet i n 0 % 2 ^ 32))) (mread s.boot.load 0 (s.slotGet i n 0 % 2 ^ 32)) = some e → t.rd GEN_ROD_STATE = 3 ∧ t.rd
    GEN_ROD_ERR = e.1 % 2 ^ GEN_ROD_ERR.w ∧ t.rd GEN_ROD_DETAIL_RECORD = e.2 % 2 ^ GEN_ROD_DETAIL_RECORD.w ∧ t.boot.rod = s.boot.rod) ∧ ((s.startMode
    0 false).rodErr (rodOf (mread s.boot.load 0 (s.slotGet i n 0 % 2 ^ 32))) (mread s.boot.load 0 (s.slotGet i n 0 % 2 ^ 32)) = none → t =
    (s.startMode 0 false).rodPassed i n (rodOf (mread s.boot.load 0 (s.slotGet i n 0 % 2 ^ 32))) (mread s.boot.load 0 (s.slotGet i n 0 % 2 ^ 32)) []))

/-- Requesting resets, hung blocks, and the end of a reset (R370, R384, R385, R394, R408, R441). Each clause gives what holds of the state before,
  that the command answers a next state, the parts of the state that it may reach, and what that state holds. -/
def Obligations.ResetsAndTheirEnd : Prop :=
  (∀ (s : State) (b d k : Nat), s.requestOk ⟨k, d, b, 0⟩ = false → ∃ t, exec (.rstGo b d k) s = .next t ∧ Within [.regs, .aregs, .time, .agTime,
    .ports, .agPorts, .replays, .route, .ttbs, .agents, .insts, .tile, .hbm, .ctxs, .rot, .beyjo, .flt, .agFlt, .rst, .pair, .boot, .pwr, .out,
    .freeCtr] s t ∧ t = s) ∧
  (∀ (s : State) (b d k : Nat), s.requestOk ⟨k, d, b, 0⟩ = true → s.rst.running = none → ∃ t, exec (.rstGo b d k) s = .next t ∧ Within [.regs, .aregs,
    .time, .agTime, .ports, .agPorts, .replays, .route, .ttbs, .agents, .insts, .tile, .hbm, .ctxs, .rot, .beyjo, .flt, .agFlt, .rst, .pair, .boot,
    .pwr, .out, .freeCtr] s t ∧ t = (s.readLeft.endDump).beginReset ⟨k, d, b, 0⟩ true) ∧
  (∀ (s : State) (b d k : Nat) (q : ResetReq), s.requestOk ⟨k, d, b, 0⟩ = true → s.rst.running = some q → larger ⟨k, d, b, 0⟩ q = false → ∃ t, exec
    (.rstGo b d k) s = .next t ∧ Within [.regs, .aregs, .time, .agTime, .ports, .agPorts, .replays, .route, .ttbs, .agents, .insts, .tile, .hbm,
    .ctxs, .rot, .beyjo, .flt, .agFlt, .rst, .pair, .boot, .pwr, .out, .freeCtr] s t ∧ RegsBut [RST_STAT_QUEUED] s t ∧ t.rd RST_STAT_QUEUED = 1 ∧
    t.rst.queue = s.rst.queue ++ [⟨k, d, b, 0⟩] ∧ t.rst.running = some q ∧ t.insts = s.insts) ∧
  (∀ (s : State) (b d k : Nat) (q : ResetReq), s.requestOk ⟨k, d, b, 0⟩ = true → s.rst.running = some q → larger ⟨k, d, b, 0⟩ q = true → s.rst.dump =
    none → ∃ t, exec (.rstGo b d k) s = .next t ∧ Within [.regs, .aregs, .time, .agTime, .ports, .agPorts, .replays, .route, .ttbs, .agents, .insts,
    .tile, .hbm, .ctxs, .rot, .beyjo, .flt, .agFlt, .rst, .pair, .boot, .pwr, .out, .freeCtr] s t ∧ t = s.beginReset ⟨k, d, b, 0⟩ false) ∧
  (∀ (s : State), s.boot.porst = true → ∃ t, exec (.sysrstNFall) s = .next t ∧ Within [.regs, .aregs, .time, .agTime, .ports, .agPorts, .replays,
    .route, .ttbs, .agents, .insts, .tile, .hbm, .ctxs, .rot, .beyjo, .flt, .agFlt, .rst, .pair, .boot, .pwr, .out, .freeCtr] s t ∧ t = s) ∧
  (∀ (s : State), s.boot.porst = false → s.rst.running = none → ∃ t, exec (.sysrstNFall) s = .next t ∧ Within [.regs, .aregs, .time, .agTime, .ports,
    .agPorts, .replays, .route, .ttbs, .agents, .insts, .tile, .hbm, .ctxs, .rot, .beyjo, .flt, .agFlt, .rst, .pair, .boot, .pwr, .out, .freeCtr] s t
    ∧ t = (s.readLeft.endDump).beginReset ⟨3, 0, 0, 0⟩ true) ∧
  (∀ (s : State) (q : ResetReq), s.boot.porst = false → s.rst.running = some q → q.domain = 3 → ∃ t, exec (.sysrstNFall) s = .next t ∧ Within [.regs,
    .aregs, .time, .agTime, .ports, .agPorts, .replays, .route, .ttbs, .agents, .insts, .tile, .hbm, .ctxs, .rot, .beyjo, .flt, .agFlt, .rst, .pair,
    .boot, .pwr, .out, .freeCtr] s t ∧ RegsBut [RST_STAT_QUEUED] s t ∧ t.rst.queue = s.rst.queue ++ [⟨3, 0, 0, 0⟩]) ∧
  (∀ (s : State) (b d : Nat), s.blockOk b d = false → ∃ t, exec (.watchdogHang b d) s = .next t ∧ Within [.regs, .aregs, .time, .agTime, .ports,
    .agPorts, .replays, .route, .ttbs, .agents, .insts, .tile, .hbm, .ctxs, .rot, .beyjo, .flt, .agFlt, .rst, .pair, .boot, .pwr, .out, .freeCtr] s t
    ∧ t = s) ∧
  (∀ (s : State) (b d : Nat) (q : ResetReq), s.blockOk b d = true → s.rst.running = some q → larger ⟨0, d, b, 0⟩ q = false → ∃ t, exec (.watchdogHang
    b d) s = .next t ∧ Within [.regs, .aregs, .time, .agTime, .ports, .agPorts, .replays, .route, .ttbs, .agents, .insts, .tile, .hbm, .ctxs, .rot,
    .beyjo, .flt, .agFlt, .rst, .pair, .boot, .pwr, .out, .freeCtr] s t ∧ RegsBut [RST_HANG_COUNT, RST_HANG_BLOCK, RST_HANG_DIE, RST_STAT_QUEUED] s t
    ∧ t.rd RST_HANG_COUNT = (s.rd RST_HANG_COUNT + 1) % 2 ^ (RST_HANG_COUNT).w ∧ t.rd RST_HANG_BLOCK = b % 2 ^ RST_HANG_BLOCK.w ∧ t.rst.queue =
    s.rst.queue ++ [⟨0, d, b, 0⟩] ∧ (∃ r ∈ t.flt.reactions, r.kind = 3 ∧ r.die = d ∧ r.item = b)) ∧
  (∀ (s : State) (b d : Nat), s.blockOk b d = true → s.rst.running = none → ∃ t, exec (.watchdogHang b d) s = .next t ∧ Within [.regs, .aregs, .time,
    .agTime, .ports, .agPorts, .replays, .route, .ttbs, .agents, .insts, .tile, .hbm, .ctxs, .rot, .beyjo, .flt, .agFlt, .rst, .pair, .boot, .pwr,
    .out, .freeCtr] s t ∧ t = (((((s.bump RST_HANG_COUNT 1).wr RST_HANG_BLOCK b).wr RST_HANG_DIE d).detect .dz8 rstPg 0 (b * 2 ^ 4 + d)
    none).openWindow 3 0 d b).requestReset ⟨0, d, b, 0⟩) ∧
  (∀ (s : State) (b d : Nat), s.blockOk b d = true → ∃ t, exec (.selfSnapshot b d) s = .next t ∧ Within [.rst] s t ∧ (t.rst.snaps = s.rst.snaps.filter
    (fun x => !(x.block == b && x.die == d)) ++ [⟨b, d, s.postmark, s.regData d fun f => (blockFams b).contains f⟩]) ∧ t.regs = s.regs ∧ t.rst.dump =
    s.rst.dump) ∧
  (∀ (s : State) (b d : Nat), s.blockOk b d = false → ∃ t, exec (.selfSnapshot b d) s = .next t ∧ Within [.rst] s t ∧ t = s) ∧
  (∀ (s : State) (c : Bool) (u : Nat), s.rst.running = none → ∃ t, exec (.resetComplete c u) s = .next t ∧ Within [.regs, .aregs, .time, .agTime,
    .ports, .agPorts, .replays, .route, .ttbs, .agents, .insts, .tile, .hbm, .ctxs, .rot, .beyjo, .flt, .agFlt, .rst, .pair, .boot, .pwr, .out,
    .freeCtr] s t ∧ t = s) ∧
  (∀ (s : State) (u : Nat) (q : ResetReq), s.rst.running = some q → s.rd RST_STAT_PHASE = 3 → q.domain ≠ 3 → ∃ t, exec (.resetComplete true u) s =
    .next t ∧ Within [.regs, .aregs, .time, .agTime, .ports, .agPorts, .replays, .route, .ttbs, .agents, .insts, .tile, .hbm, .ctxs, .rot, .beyjo,
    .flt, .agFlt, .rst, .pair, .boot, .pwr, .out, .freeCtr] s t ∧ t = s.resetOk q u) ∧
  (∀ (s : State) (u : Nat) (q : ResetReq), s.rst.running = some q → s.rd RST_STAT_PHASE = 3 → (q.domain = 1 ∨ q.domain = 2) → ∃ t, exec
    (.resetComplete false u) s = .next t ∧ Within [.regs, .aregs, .time, .agTime, .ports, .agPorts, .replays, .route, .ttbs, .agents, .insts, .tile,
    .hbm, .ctxs, .rot, .beyjo, .flt, .agFlt, .rst, .pair, .boot, .pwr, .out, .freeCtr] s t ∧ RegsBut [RST_STAT_PHASE] s t ∧ t.rd RST_STAT_PHASE = 5 ∧
    t.rst.running = none ∧ t.flt.fatal = true ∧ (∀ d ∈ s.resetDies q, d ∈ t.rst.stuck) ∧ s.rd RST_STAT_IN_RESET = t.rd RST_STAT_IN_RESET) ∧
  (∀ (s : State) (u : Nat) (q : ResetReq), s.rst.running = some q → s.rd RST_STAT_PHASE = 3 → q.domain = 0 → ∃ t, exec (.resetComplete false u) s =
    .next t ∧ Within [.regs, .aregs, .time, .agTime, .ports, .agPorts, .replays, .route, .ttbs, .agents, .insts, .tile, .hbm, .ctxs, .rot, .beyjo,
    .flt, .agFlt, .rst, .pair, .boot, .pwr, .out, .freeCtr] s t ∧ t = s.resetFails q)

/-- What a dump reads, how it ends, and dumps by command (R387, R388, R389, R391, R392). Each clause gives what holds of the state before, that the
  command answers a next state, the parts of the state that it may reach, and what that state holds. -/
def Obligations.Dumps : Prop :=
  (∀ (s : State), s.rst.dump = none → ∃ t, exec (.dumpReadTimeout) s = .next t ∧ Within [.flt, .agFlt, .rst] s t ∧ t = s) ∧
  (∀ (s : State) (d : DumpRun) (r : Nat × Nat × Nat × Nat) (l : List (Nat × Nat × Nat × Nat)), s.rst.dump = some d → d.left = r :: l → ∃ t, exec
    (.dumpReadTimeout) s = .next t ∧ Within [.flt, .agFlt, .rst] s t ∧ t.regs = s.regs ∧ (∃ e c, t.rst.dump = some e ∧ e.left = d.left.filter (fun x
    => !(x.2.1 == r.2.1 && x.2.2.1 == r.2.2.1)) ∧ e.dump.regions = d.dump.regions ++ unread false true (d.left.filter fun x => x.2.1 == r.2.1 &&
    x.2.2.1 == r.2.2.1) ++ c ∧ ∀ x ∈ c, x.kind = 6) ∧ t.rst.slots = s.rst.slots) ∧
  (∀ (s : State) (d : DumpRun), s.rst.dump = some d → d.noSlot = false → s.dumpArea = true → s.rd RST_STAT_PHASE ≠ 1 → d.mail = none → ∃ t, exec
    (.dumpBudgetExpiry) s = .next t ∧ Within [.regs, .aregs, .time, .agTime, .ports, .agPorts, .replays, .route, .ttbs, .agents, .insts, .tile, .hbm,
    .ctxs, .rot, .beyjo, .flt, .agFlt, .rst, .pair, .boot, .pwr, .out, .freeCtr] s t ∧ t.rst.dump = none ∧ (t.rst.slots = s.rst.slots.filter (fun x =>
    x.slot != d.dump.slot) ++ [{ d.dump with regions := d.dump.regions ++ unread true false d.left }]) ∧ t.rd DMP_STAT_NOTREAD = 1 ∧ t.rd
    DMP_STAT_BUSY = 0 ∧ t.rd DMP_STAT_LAST = d.dump.slot % 2 ^ DMP_STAT_LAST.w ∧ t.rd DMP_COUNT_DUMPS = (s.rd DMP_COUNT_DUMPS + 1) % 2 ^
    (DMP_COUNT_DUMPS).w) ∧
  (∀ (s : State), s.rst.dump = none → ∃ t, exec (.dumpBudgetExpiry) s = .next t ∧ Within [.regs, .aregs, .time, .agTime, .ports, .agPorts, .replays,
    .route, .ttbs, .agents, .insts, .tile, .hbm, .ctxs, .rot, .beyjo, .flt, .agFlt, .rst, .pair, .boot, .pwr, .out, .freeCtr] s t ∧ t = s) ∧
  (∀ (s : State) (u : Nat) (d : DumpRun), s.rst.dump = some d → d.left = [] → d.noSlot = false → s.dumpArea = true → s.rd RST_STAT_PHASE ≠ 1 → d.mail
    = none → ∃ t, exec (.dumpComplete u) s = .next t ∧ Within [.regs, .aregs, .time, .agTime, .ports, .agPorts, .replays, .route, .ttbs, .agents,
    .insts, .tile, .hbm, .ctxs, .rot, .beyjo, .flt, .agFlt, .rst, .pair, .boot, .pwr, .out, .freeCtr] s t ∧ t.rst.dump = none ∧ (t.rst.slots =
    s.rst.slots.filter (fun x => x.slot != d.dump.slot) ++ [d.dump]) ∧ t.rd RST_TIME_DUMP_US = u % 2 ^ RST_TIME_DUMP_US.w ∧ t.rd DMP_COUNT_DUMPS =
    (s.rd DMP_COUNT_DUMPS + 1) % 2 ^ (DMP_COUNT_DUMPS).w ∧ t.rd DMP_STAT_BUSY = 0 ∧ (t.rd DMP_LOCK_LOCKED = if d.lock then setBit (s.rd
    DMP_LOCK_LOCKED) d.dump.slot true % 2 ^ DMP_LOCK_LOCKED.w else s.rd DMP_LOCK_LOCKED)) ∧
  (∀ (s : State) (u : Nat), s.rst.dump = none → ∃ t, exec (.dumpComplete u) s = .next t ∧ Within [.regs, .aregs, .time, .agTime, .ports, .agPorts,
    .replays, .route, .ttbs, .agents, .insts, .tile, .hbm, .ctxs, .rot, .beyjo, .flt, .agFlt, .rst, .pair, .boot, .pwr, .out, .freeCtr] s t ∧ t = s) ∧
  (∀ (s : State) (f : Nat) (l : List (Nat × Nat × List Byte)) (b : Bool) (d : DumpRun), s.rst.dump = some d → d.dump.scope ≠ 3 → ∃ t, exec (.agentDump
    f l b) s = .next t ∧ Within [.regs, .tile, .beyjo, .flt, .agFlt, .rst] s t ∧ t = s) ∧
  (∀ (s : State) (f : Nat) (l : List (Nat × Nat × List Byte)) (k : Nat), s.rst.dump = none → s.rst.agentDumps.contains f = true → s.oldestSlot = some
    k → s.dumpArea = true → ∃ t, exec (.agentDump f l false) s = .next t ∧ Within [.regs, .tile, .beyjo, .flt, .agFlt, .rst] s t ∧ (∃ d, t.rst.slots =
    s.rst.slots.filter (fun x => x.slot != k) ++ [d] ∧ d.slot = k ∧ d.scope = 3 ∧ d.agentFid = f ∧ d.regions = agentRegions l false) ∧ t.rst.dump =
    none ∧ t.rst.agentDumps.contains f = false ∧ t.rd DMP_STAT_BUSY = 0 ∧ t.flt = s.flt ∧ t.rd DMP_COUNT_DUMPS = (s.rd DMP_COUNT_DUMPS + 1) % 2 ^
    (DMP_COUNT_DUMPS).w) ∧
  (∀ (s : State) (f : Nat) (l : List (Nat × Nat × List Byte)) (b : Bool), s.rst.dump = none → s.rst.agentDumps.contains f = false → ∃ t, exec
    (.agentDump f l b) s = .next t ∧ Within [.regs, .tile, .beyjo, .flt, .agFlt, .rst] s t ∧ t = s) ∧
  (∀ (s : State) (i n : Nat), s.takenFor i n 2 = false → ∃ t, exec (.mailDump i n) s = .next t ∧ Within [.regs, .tile, .beyjo, .rst] s t ∧ t = s) ∧
  (∀ (s : State) (i n e : Nat), s.takenFor i n 2 = true → bits (s.slotGet i n 0) 1 0 ≠ 3 → s.mailErr i n 2 1 [0, 2] = some e → ∃ t, exec (.mailDump i
    n) s = .next t ∧ Within [.regs, .tile, .beyjo, .rst] s t ∧ t = s.mailReject i n e []) ∧
  (∀ (s : State) (i n : Nat), s.takenFor i n 2 = true → bits (s.slotGet i n 0) 1 0 ≠ 3 → s.mailErr i n 2 1 [0, 2] = none → s.hostMode 6 = false →
    s.rst.dump.isSome = true → ∃ t, exec (.mailDump i n) s = .next t ∧ Within [.regs, .tile, .beyjo, .rst] s t ∧ t = (s.startMode 6 false).mailReject
    i n 4 []) ∧
  (∀ (s : State) (i n : Nat), s.takenFor i n 2 = true → bits (s.slotGet i n 0) 1 0 ≠ 3 → s.mailErr i n 2 1 [0, 2] = none → s.hostMode 6 = false →
    s.rst.dump = none → bits (s.slotGet i n 0) 1 0 = 1 → s.hasDie (bits (s.slotGet i n 0) 7 4) = true → s.oldestSlot.isSome = true → s.dumpArea = true
    → ∃ t, exec (.mailDump i n) s = .next t ∧ Within [.regs, .tile, .beyjo, .rst] s t ∧ (i, n, 2) ∈ t.beyjo.running ∧ t.rd DMP_STAT_BUSY = 1 ∧ (∃ d,
    t.rst.dump = some d ∧ d.mail = some (i, n) ∧ d.left = dieRegions [bits (s.slotGet i n 0) 7 4] ∧ d.dump.regions = []) ∧ t.rst.slots = s.rst.slots)

/-- Lost members, spares, restore streams and the end of holds (R374, R397, R400, R401, R404, R407, R490). Each clause gives what holds of the state
  before, that the command answers a next state, the parts of the state that it may reach, and what that state holds. -/
def Obligations.HoldsAndSpares : Prop :=
  (∀ (s : State) (c l : Nat), s.lidFid c l = none → ∃ t, exec (.memberLostLinks c l) s = .next t ∧ Within [.regs, .aregs, .ports, .agPorts, .route,
    .ttbs, .tile, .ctxs, .rot, .beyjo, .flt, .agFlt, .rst, .pair, .out, .freeCtr] s t ∧ t = s) ∧
  (∀ (s : State) (c l f : Nat), s.lidFid c l = some f → s.linksLost f = false → ∃ t, exec (.memberLostLinks c l) s = .next t ∧ Within [.regs, .aregs,
    .ports, .agPorts, .route, .ttbs, .tile, .ctxs, .rot, .beyjo, .flt, .agFlt, .rst, .pair, .out, .freeCtr] s t ∧ t = s) ∧
  (∀ (s : State) (c l f : Nat), s.lidFid c l = some f → s.linksLost f = true → ∃ t, exec (.memberLostLinks c l) s = .next t ∧ Within [.regs, .aregs,
    .ports, .agPorts, .route, .ttbs, .tile, .ctxs, .rot, .beyjo, .flt, .agFlt, .rst, .pair, .out, .freeCtr] s t ∧ t = (s.loseAgain c l).settle) ∧
  (∀ (s : State) (c l : Nat), (s.ctx c).holdChips.contains l = false → ∃ t, exec (.memberLostReset c l) s = .next t ∧ Within [.regs, .aregs, .ports,
    .agPorts, .route, .ttbs, .tile, .ctxs, .rot, .beyjo, .flt, .agFlt, .rst, .pair, .out, .freeCtr] s t ∧ t = s) ∧
  (∀ (s : State) (c l : Nat), (s.ctx c).holdChips.contains l = true → ∃ t, exec (.memberLostReset c l) s = .next t ∧ Within [.regs, .aregs, .ports,
    .agPorts, .route, .ttbs, .tile, .ctxs, .rot, .beyjo, .flt, .agFlt, .rst, .pair, .out, .freeCtr] s t ∧ t = (s.loseAgain c l).settle) ∧
  (∀ (s : State) (c l : Nat), c < 16 → s.ctxs.length = 16 → (s.ctx c).holdChips.contains l = true → s.remapOf c l = none → s.ctxState c = 2 → (s.ctx
    c).lost.contains l = false → (s.lidFid c l).isSome = true → s.active = false → s.rot.ended = [] → ∃ t, exec (.memberLostReset c l) s = .next t ∧
    Within [.regs, .aregs, .ports, .agPorts, .route, .ttbs, .tile, .ctxs, .rot, .beyjo, .flt, .agFlt, .rst, .pair, .out, .freeCtr] s t ∧ l ∈ (t.ctx
    c).lost ∧ l ∉ (t.ctx c).holdChips ∧ t.rst = s.rst) ∧
  (∀ (s : State) (c l : Nat) (k : List Nat), s.remapOf c l = none → ∃ t, exec (.restoreStreamEnd c l k) s = .next t ∧ Within [.regs, .aregs, .ports,
    .agPorts, .route, .flt, .agFlt, .rst, .out] s t ∧ t = s) ∧
  (∀ (s : State) (c l : Nat) (k : List Nat) (m : Remap) (f : Nat), s.remapOf c l = some m → m.spare = some f → m.toSend = [] → m.streamDone = false →
    (((List.range (ceilDiv (s.streamCells c l).length 1048576)).filter fun i => nth k i != chunkCells (s.streamCells c l).length i) = []) → ∃ t, exec
    (.restoreStreamEnd c l k) s = .next t ∧ Within [.regs, .aregs, .ports, .agPorts, .route, .flt, .agFlt, .rst, .out] s t ∧ (t = (s.remoteWrite f
    0x600218 [2 ^ 63]).setRemap c l fun m => { m with streamDone := true }) ∧ (t.remapOf c l).map (·.streamDone) = some true) ∧
  (∀ (s : State) (c l : Nat) (k : List Nat) (m : Remap), s.remapOf c l = some m → m.streamDone = true → ∃ t, exec (.restoreStreamEnd c l k) s = .next
    t ∧ Within [.regs, .aregs, .ports, .agPorts, .route, .flt, .agFlt, .rst, .out] s t ∧ t = s) ∧
  (∀ (s : State) (c a b : Nat), (s.active = false ∨ s.pair.handover.isSome = true ∨ s.holdOver c = false) → ∃ t, exec (.holdRearm c a b) s = .next t ∧
    Within [.regs, .aregs, .time, .ports, .agPorts, .route, .ttbs, .insts, .tile, .ctxs, .beyjo, .flt, .agFlt, .rst, .out] s t ∧ t = s) ∧
  (∀ (s : State) (c a b : Nat), s.active = true → s.pair.handover = none → s.holdOver c = true → (s.ttb c).held = true → s.mayRearm c = true →
    s.rst.remaps = [] → ∃ t, exec (.holdRearm c a b) s = .next t ∧ Within [.regs, .aregs, .time, .ports, .agPorts, .route, .ttbs, .insts, .tile,
    .ctxs, .beyjo, .flt, .agFlt, .rst, .out] s t ∧ t = s.beginArmWith c (max (s.time.beat + 4096) (max a b)) true []) ∧
  (∀ (s : State) (i n : Nat), s.takenFor i n 4 = false → ∃ t, exec (.mailRemap i n) s = .next t ∧ Within [.regs, .aregs, .ports, .agPorts, .route,
    .ttbs, .tile, .ctxs, .rot, .beyjo, .flt, .agFlt, .rst, .pair, .out, .freeCtr] s t ∧ t = s) ∧
  (∀ (s : State) (i n e : Nat), s.takenFor i n 4 = true → s.mailErr i n 4 2 [0] = some e → ∃ t, exec (.mailRemap i n) s = .next t ∧ Within [.regs,
    .aregs, .ports, .agPorts, .route, .ttbs, .tile, .ctxs, .rot, .beyjo, .flt, .agFlt, .rst, .pair, .out, .freeCtr] s t ∧ t = s.mailReject i n e []) ∧
  (∀ (s : State) (i n e : Nat), s.takenFor i n 4 = true → s.mailErr i n 4 2 [0] = none → s.hostMode 4 = false → ((s.startMode 4 false).remapErr (bits
    (s.slotGet i n 0) 19 16) (bits (s.slotGet i n 0) 11 0) (bits (s.slotGet i n 1) 13 0) (bit (s.slotGet i n 0) 32) (bit (s.slotGet i n 1) 63)) = some
    e → ∃ t, exec (.mailRemap i n) s = .next t ∧ Within [.regs, .aregs, .ports, .agPorts, .route, .ttbs, .tile, .ctxs, .rot, .beyjo, .flt, .agFlt,
    .rst, .pair, .out, .freeCtr] s t ∧ t = ((s.startMode 4 false).wr RST_REMAP_STAT_LAST_CODE e).mailReject i n e []) ∧
  (∀ (s : State) (x : Cell), bits (cellWord x 4) 63 56 ≠ 1 → ∃ t, exec (.faultCell x) s = .next t ∧ Within [.regs, .aregs, .ports, .agPorts, .route,
    .ttbs, .tile, .ctxs, .rot, .beyjo, .flt, .agFlt, .rst, .pair, .out, .freeCtr] s t ∧ t = s) ∧
  (∀ (s : State) (x : Cell), bits (cellWord x 4) 63 56 = 1 → ∃ t, exec (.faultCell x) s = .next t ∧ Within [.regs, .aregs, .ports, .agPorts, .route,
    .ttbs, .tile, .ctxs, .rot, .beyjo, .flt, .agFlt, .rst, .pair, .out, .freeCtr] s t ∧ t = ((s.remoteEvent x).faultJob (Event.ofWords (cellWord x 0)
    (cellWord x 1) (cellWord x 2) (cellWord x 3))).settle)

/-- Tamper detectors, the emergency throttle, temperatures, rails and the power budget (R314, R369, R518, R520, R521, R524, R526, R527). Each clause
  gives what holds of the state before, that the command answers a next state, the parts of the state that it may reach, and what that state holds. -/
def Obligations.SuppliesAndTemperatures : Prop :=
  (∀ (s : State) (c : Nat), 4 < c → ∃ t, exec (.tamperDetect c) s = .next t ∧ Within [.regs, .tile, .hbm, .rot, .beyjo, .flt, .agFlt, .rst, .pair] s t
    ∧ t = s) ∧
  (∀ (s : State) (c : Nat), c < 4 → ∃ t, exec (.tamperDetect c) s = .next t ∧ Within [.regs, .tile, .hbm, .rot, .beyjo, .flt, .agFlt, .rst, .pair] s t
    ∧ t = (s.tamper c false).detect .dz8 lcsPg c 15 none ∧ t.rd LCS_TAMPER_LATCHED = 1 ∧ t.rd FRK_STAT_TAMPER = 1 ∧ t.rot.evidence = []) ∧
  (∀ (s : State), s.rd LCS_TAMPER_CFG_PIN_EN = 0 → ∃ t, exec (.tamperDetect 4) s = .next t ∧ Within [.regs, .tile, .hbm, .rot, .beyjo, .flt, .agFlt,
    .rst, .pair] s t ∧ t = s) ∧
  (∀ (s : State), s.rd PWR_STAT_THROTTLED = 1 → ∃ t, exec (.thermalTrip) s = .next t ∧ Within [.regs, .ttbs, .flt, .agFlt, .pwr] s t ∧ t = s) ∧
  (∀ (s : State), s.rd PWR_STAT_THROTTLED = 0 → ∃ t, exec (.thermalTrip) s = .next t ∧ Within [.regs, .ttbs, .flt, .agFlt, .pwr] s t ∧ t.rd
    PWR_STAT_THROTTLED = 1 ∧ t.rd PWR_THROTTLE_COUNT = (s.rd PWR_THROTTLE_COUNT + 1) % 2 ^ (PWR_THROTTLE_COUNT).w ∧ t.pwr.throttleNs = some
    s.time.nowNs ∧ (∃ r ∈ t.flt.reactions, r.kind = 6 ∧ r.done = false)) ∧
  (∀ (s : State), s.pwr.throttleNs = none → ∃ t, exec (.thermalRecover) s = .next t ∧ Within [.regs, .flt, .agFlt, .pwr] s t ∧ t = s) ∧
  (∀ (s : State) (n : Nat), s.pwr.throttleNs = some n → ∃ t, exec (.thermalRecover) s = .next t ∧ Within [.regs, .flt, .agFlt, .pwr] s t ∧ RegsBut
    [PWR_STAT_THROTTLED, PWR_THROTTLE_LAST_MS] s t ∧ t.rd PWR_STAT_THROTTLED = 0 ∧ t.rd PWR_THROTTLE_LAST_MS = (s.time.nowNs - n) / 1000000 % 2 ^
    PWR_THROTTLE_LAST_MS.w ∧ t.pwr.throttleNs = none ∧ (∀ c, t.ttb c = s.ttb c)) ∧
  (∀ (s : State) (d k : Nat) (x : Int), (s.hasDie d = false ∨ sensorCount d ≤ k) → ∃ t, exec (.tempSample d k x) s = .next t ∧ Within [.regs, .ttbs,
    .tile, .hbm, .rot, .beyjo, .flt, .agFlt, .rst, .pair, .pwr] s t ∧ t = s) ∧
  (∀ (s : State) (d k : Nat) (x : Int), s.hasDie d = true → k < sensorCount d → -25 ≤ x → x < 115 → ∃ t, exec (.tempSample d k x) s = .next t ∧ Within
    [.regs, .ttbs, .tile, .hbm, .rot, .beyjo, .flt, .agFlt, .rst, .pair, .pwr] s t ∧ t.pwr.samples = tset s.pwr.samples (d * 16 + k) (x + 1000).toNat
    ∧ (t.rd PWR_TEMP_DIE_C = degrees (hottest t.pwr.samples fun _ => true).2 % 2 ^ PWR_TEMP_DIE_C.w) ∧ t.flt = s.flt ∧ t.pwr.throttleNs =
    s.pwr.throttleNs) ∧
  (∀ (s : State) (d k : Nat) (x : Int), s.hasDie d = true → k < sensorCount d → 115 ≤ x → x < 130 → ∃ t, exec (.tempSample d k x) s = .next t ∧ Within
    [.regs, .ttbs, .tile, .hbm, .rot, .beyjo, .flt, .agFlt, .rst, .pair, .pwr] s t ∧ t.rd PWR_STAT_THROTTLED = 1 ∧ t.pwr.samples = tset s.pwr.samples
    (d * 16 + k) (x + 1000).toNat) ∧
  (∀ (s : State) (m k : Nat) (x : Int), s.hasStack m k = false → ∃ t, exec (.stackTempRead m k x) s = .next t ∧ Within [.regs, .ttbs, .flt, .agFlt,
    .pwr] s t ∧ t = s) ∧
  (∀ (s : State) (m k : Nat) (x : Int), s.hasStack m k = true → x < 100 → ∃ t, exec (.stackTempRead m k x) s = .next t ∧ Within [.regs, .ttbs, .flt,
    .agFlt, .pwr] s t ∧ t.rd (HBC_STAT_TEMP_C (hbcPg m k)) = degrees (x + 1000).toNat % 2 ^ (HBC_STAT_TEMP_C (hbcPg m k)).w ∧ t.rd
    (HBC_STAT_REFRESH_2X (hbcPg m k)) = b2n (decide (85 < x)) ∧ t.flt = s.flt) ∧
  (∀ (s : State) (m k : Nat) (x : Int), s.hasStack m k = true → 100 ≤ x → ∃ t, exec (.stackTempRead m k x) s = .next t ∧ Within [.regs, .ttbs, .flt,
    .agFlt, .pwr] s t ∧ t.rd PWR_STAT_THROTTLED = 1) ∧
  (∀ (s : State) (c : Nat), s.cpwrEn c = true → s.cpwrGood c = false → ∃ t, exec (.cpwrGoodTimeout c) s = .next t ∧ Within [.flt, .agFlt] s t ∧ t =
    s.detect .dz8 (pwrDiePg (2 + c)) 1 (6 + c) none ∧ t.regs = s.regs) ∧
  (∀ (s : State) (c : Nat), s.cpwrGood c = true → ∃ t, exec (.cpwrGoodTimeout c) s = .next t ∧ Within [.flt, .agFlt] s t ∧ t = s) ∧
  (∀ (s : State) (c : Nat) (b : Bool), s.cdies ≤ c → ∃ t, exec (.cpwrGoodChange c b) s = .next t ∧ Within [.regs, .tile, .hbm, .rot, .beyjo, .flt,
    .agFlt, .rst, .pair] s t ∧ t = s) ∧
  (∀ (s : State) (c : Nat) (b : Bool), c < s.cdies → (s.cpwrEn c && s.cpwrGood c && !b) = false → ∃ t, exec (.cpwrGoodChange c b) s = .next t ∧ Within
    [.regs, .tile, .hbm, .rot, .beyjo, .flt, .agFlt, .rst, .pair] s t ∧ RegsBut [PWR_CPWR_GOOD, PWR_STAT_C_POWER] s t ∧ t.rd PWR_CPWR_GOOD = setBit
    (s.rd PWR_CPWR_GOOD) c b % 2 ^ PWR_CPWR_GOOD.w ∧ t.flt = s.flt) ∧
  (∀ (s : State) (c : Nat), c < s.cdies → s.cpwrEn c = true → s.cpwrGood c = true → ∃ t, exec (.cpwrGoodChange c false) s = .next t ∧ Within [.regs,
    .tile, .hbm, .rot, .beyjo, .flt, .agFlt, .rst, .pair] s t ∧ t = ((s.wr PWR_CPWR_GOOD (setBit (s.rd PWR_CPWR_GOOD) c false)).showCpower).tamperTrip
    0 (2 + c) true ∧ t.rd LCS_TAMPER_LATCHED = 1) ∧
  (∀ (s : State) (r d n m : Nat) (b : Bool), (12 ≤ r ∨ 4 ≤ n ∨ s.hasDie d = false) → ∃ t, exec (.railOutOfWindow r d n m b) s = .next t ∧ Within
    [.regs, .tile, .hbm, .rot, .beyjo, .flt, .agFlt, .rst, .pair] s t ∧ t = s) ∧
  (∀ (s : State) (r d n m : Nat) (b : Bool), r < 12 → n < 4 → s.hasDie d = true → (b = false ∨ s.railArmed r = false) → ∃ t, exec (.railOutOfWindow r
    d n m b) s = .next t ∧ Within [.regs, .tile, .hbm, .rot, .beyjo, .flt, .agFlt, .rst, .pair] s t ∧ RegsBut [PWR_DIE_RAIL_WARN (pwrDiePg d) n,
    PWR_DIE_RAIL_MV (pwrDiePg d) n] s t ∧ t.rd (PWR_DIE_RAIL_WARN (pwrDiePg d) n) = 1 ∧ t.rd (PWR_DIE_RAIL_MV (pwrDiePg d) n) = m % 2 ^
    (PWR_DIE_RAIL_MV (pwrDiePg d) n).w) ∧
  (∀ (s : State) (r d n m : Nat), r < 12 → n < 4 → s.hasDie d = true → s.railArmed r = true → ∃ t, exec (.railOutOfWindow r d n m true) s = .next t ∧
    Within [.regs, .tile, .hbm, .rot, .beyjo, .flt, .agFlt, .rst, .pair] s t ∧ t.rd LCS_TAMPER_LATCHED = 1 ∧ t.rd FRK_STAT_TAMPER = 1) ∧
  (∀ (s : State) (r : Nat), r < 12 → r ≠ 6 → r ≠ 7 → s.pwr.armed.contains r = false → ∃ t, exec (.railWindowEntry r) s = .next t ∧ Within [.pwr] s t ∧
    t.pwr = { s.pwr with armed := s.pwr.armed ++ [r] } ∧ t.regs = s.regs) ∧
  (∀ (s : State) (r : Nat), s.pwr.armed.contains r = true → ∃ t, exec (.railWindowEntry r) s = .next t ∧ Within [.pwr] s t ∧ t = s) ∧
  (∀ (s : State) (v : Word), s.anyArmed = true → ∃ t, exec (.pwrBudgetWrite v) s = .next t ∧ Within [.regs] s t ∧ t = s) ∧
  (∀ (s : State) (v : Word), s.anyArmed = false → ∃ t, exec (.pwrBudgetWrite v) s = .next t ∧ Within [.regs] s t ∧ RegsBut [PWR_BUDGET_BUDGET_W,
    PWR_BUDGET_IDLE_W] s t ∧ (t.rd PWR_BUDGET_BUDGET_W = if bits v.toNat 47 32 ≤ s.rd PWR_BUDGET_POWER_W then bits v.toNat 47 32 else s.rd
    PWR_BUDGET_BUDGET_W) ∧ (t.rd PWR_BUDGET_IDLE_W = if PWR_BUDGET_IDLE_W.rst ≤ bits v.toNat 31 16 then bits v.toNat 31 16 else s.rd
    PWR_BUDGET_IDLE_W))

/-- Writing, sending, acknowledging and receiving generations and vault images (R416, R417, R418, R420, R434, R440). Each clause gives what holds of
  the state before, that the command answers a next state, the parts of the state that it may reach, and what that state holds. -/
def Obligations.Generations : Prop :=
  (∀ (s : State), s.mayGen = true → s.pair.genDue = true → ∃ t, exec (.generationBegin) s = .next t ∧ Within [.regs, .aregs, .ports, .agPorts, .flt,
    .agFlt, .pair] s t ∧ t = s.beginGen) ∧
  (∀ (s : State), (s.mayGen = false ∨ s.pair.genDue = false) → ∃ t, exec (.generationBegin) s = .next t ∧ Within [.regs, .aregs, .ports, .agPorts,
    .flt, .agFlt, .pair] s t ∧ t = s) ∧
  (∀ (s : State), s.active = true → ∃ t, exec (.syncMsExpiry) s = .next t ∧ Within [.pair] s t ∧ t.pair = { s.pair with genDue := true } ∧ t.regs =
    s.regs) ∧
  (∀ (s : State), s.active = false → ∃ t, exec (.syncMsExpiry) s = .next t ∧ Within [.pair] s t ∧ t = s) ∧
  (∀ (s : State), s.active = true → ∃ t, exec (.parSync) s = .next t ∧ Within [.pair] s t ∧ t.pair = { s.pair with genDue := true } ∧ t.regs = s.regs) ∧
  (∀ (s : State), s.active = false → ∃ t, exec (.parSync) s = .next t ∧ Within [.pair] s t ∧ t = s) ∧
  (∀ (s : State), s.active = true → ∃ t, exec (.parFull) s = .next t ∧ Within [.pair] s t ∧ t.pair = { s.pair with fullDue := true } ∧ t.regs =
    s.regs) ∧
  (∀ (s : State), s.active = false → ∃ t, exec (.parFull) s = .next t ∧ Within [.pair] s t ∧ t = s) ∧
  (∀ (s : State) (n : Nat), (s.active = false ∨ n = 0 ∨ s.ledgerCarriers = []) → ∃ t, exec (.vaultMirror n) s = .next t ∧ Within [.regs, .aregs,
    .ports, .agPorts, .flt, .agFlt, .pair] s t ∧ t = s) ∧
  (∀ (s : State) (n : Nat) (x : VaultImage), s.active = true → s.ledgerCarriers ≠ [] → s.pair.writing = none → s.pair.mirror = none → n ≠ 0 →
    (s.rot.images.find? (fun x => s.ctxPaired x.ctx && imageLeft x != 0) = some x) → ∃ t, exec (.vaultMirror n) s = .next t ∧ Within [.regs, .aregs,
    .ports, .agPorts, .flt, .agFlt, .pair] s t ∧ t = s.sendMirror x (min (48 * n) (imageLeft x)) ∧ t.pair.mirror.map (·.imageId) = some x.imageId ∧
    t.rot = s.rot) ∧
  (∀ (s : State) (x : Cell), s.active = false → ∃ t, exec (.parackCell x) s = .next t ∧ Within [.regs, .aregs, .ports, .agPorts, .route, .insts, .rot,
    .flt, .agFlt, .pair, .out] s t ∧ t = s) ∧
  (∀ (s : State) (x : Cell) (g : GenRun), s.active = true → s.route.record = none → s.pair.mirror = none → s.pair.writing = some g → g.batch =
    cellWord x 0 % 2 ^ 16 → cellWord x 1 < g.cells.length → ∃ t, exec (.parackCell x) s = .next t ∧ Within [.regs, .aregs, .ports, .agPorts, .route,
    .insts, .rot, .flt, .agFlt, .pair, .out] s t ∧ t.pair = { s.pair with writing := some { g with acked := max g.acked (cellWord x 1) } } ∧ t.regs =
    s.regs) ∧
  (∀ (s : State) (x : Cell) (g : GenRun), s.active = true → s.route.record = none → s.pair.mirror = none → s.pair.writing = some g → g.batch =
    cellWord x 0 % 2 ^ 16 → g.cells.length ≤ cellWord x 1 → ∃ t, exec (.parackCell x) s = .next t ∧ Within [.regs, .aregs, .ports, .agPorts, .route,
    .insts, .rot, .flt, .agFlt, .pair, .out] s t ∧ t = s.genAcked g) ∧
  (∀ (s : State) (x : Cell) (g : GenRun), s.active = true → s.route.record = none → s.pair.mirror = none → s.pair.writing = some g → g.batch ≠
    cellWord x 0 % 2 ^ 16 → ∃ t, exec (.parackCell x) s = .next t ∧ Within [.regs, .aregs, .ports, .agPorts, .route, .insts, .rot, .flt, .agFlt,
    .pair, .out] s t ∧ t = s) ∧
  (∀ (s : State), (s.active = false ∨ s.ledgerCarriers = []) → ∃ t, exec (.batchResend) s = .next t ∧ Within [.regs, .aregs, .ports, .agPorts, .route,
    .flt, .agFlt, .pair] s t ∧ t = s) ∧
  (∀ (s : State) (g : GenRun), s.active = true → s.ledgerCarriers ≠ [] → s.pair.writing = some g → g.phase < 3 → s.late256 g.lastBeat = true →
    s.route.record = none → s.pair.mirror = none → ∃ t, exec (.batchResend) s = .next t ∧ Within [.regs, .aregs, .ports, .agPorts, .route, .flt,
    .agFlt, .pair] s t ∧ t = s.genBatch g ∧ t.pair.writing = some { g with batch := s.pair.nextBatch, acked := 0, lastBeat := s.time.beat } ∧
    t.pair.nextBatch = (s.pair.nextBatch + 1) % 2 ^ 16) ∧
  (∀ (s : State), s.pair.writing = none → ∃ t, exec (.commitAckTimeout) s = .next t ∧ Within [.regs, .aregs, .ports, .agPorts, .flt, .agFlt, .pair] s
    t ∧ t = s) ∧
  (∀ (s : State) (g : GenRun), s.pair.writing = some g → s.active = true → g.phase = 3 → s.late256 g.lastBeat = true → s.ledgerCarriers = [] → ∃ t,
    exec (.commitAckTimeout) s = .next t ∧ Within [.regs, .aregs, .ports, .agPorts, .flt, .agFlt, .pair] s t ∧ t.pair =
    { s.pair with writing := none, fullDue := true, genDue := true } ∧ t.regs = s.regs) ∧
  (∀ (s : State) (x : Cell), s.rd PAR_STAT_ROLE ≠ 2 → ∃ t, exec (.parwrCell x) s = .next t ∧ Within [.regs, .aregs, .agTime, .ports, .agPorts, .route,
    .ttbs, .tile, .hbm, .ctxs, .rot, .beyjo, .flt, .agFlt, .rst, .pair, .boot, .out, .freeCtr] s t ∧ t = s) ∧
  (∀ (s : State) (x : Cell), s.rd PAR_STAT_ROLE = 2 → isLast x = false → s.pair.recv.length + 1 < 349525 → ∃ t, exec (.parwrCell x) s = .next t ∧
    Within [.regs, .aregs, .agTime, .ports, .agPorts, .route, .ttbs, .tile, .hbm, .ctxs, .rot, .beyjo, .flt, .agFlt, .rst, .pair, .boot, .out,
    .freeCtr] s t ∧ t.pair.recv = s.pair.recv ++ [(x.cidx, x.offset, cellPayload x)] ∧ t.pair.store = s.pair.store ∧ t.regs = s.regs ∧ t.out = s.out) ∧
  (∀ (s : State) (x : Cell), s.rd PAR_STAT_ROLE = 2 → isLast x = true → x.cidx ≠ 0 → ∃ t, exec (.parwrCell x) s = .next t ∧ Within [.regs, .aregs,
    .agTime, .ports, .agPorts, .route, .ttbs, .tile, .hbm, .ctxs, .rot, .beyjo, .flt, .agFlt, .rst, .pair, .boot, .out, .freeCtr] s t ∧ (t =
    (s.setPair fun q =>
    { q with recv := q.recv ++ [(x.cidx, x.offset, cellPayload x)], rxBatches := countBatch q.rxBatches x.seq (s.batchCount x.seq + 1) }).moveBuffer.parack
    x.seq (s.batchCount x.seq + 1)) ∧ t.pair.recv = []) ∧
  (∀ (s : State) (x : Cell), s.rd PAR_STAT_ROLE = 2 → isLast x = true → x.cidx = 0 → x.offset = 0x40 → ∃ t, exec (.parwrCell x) s = .next t ∧ Within
    [.regs, .aregs, .agTime, .ports, .agPorts, .route, .ttbs, .tile, .hbm, .ctxs, .rot, .beyjo, .flt, .agFlt, .rst, .pair, .boot, .out, .freeCtr] s t
    ∧ (t = (s.setPair fun q => { q with recv := q.recv ++ [(0, 0x40, cellPayload x)] }).moveBuffer.landCommit 1 x.seq (s.batchCount x.seq + 1))) ∧
  (∀ (s : State), s.rd PAR_STAT_ROLE ≠ 2 → ∃ t, exec (.parackPeriodic) s = .next t ∧ Within [.regs, .aregs, .ports, .agPorts, .flt, .agFlt] s t ∧ t =
    s) ∧
  (∀ (s : State) (x : Nat × Nat), s.rd PAR_STAT_ROLE = 2 → s.pair.rxBatches.getLast? = some x → ∃ t, exec (.parackPeriodic) s = .next t ∧ Within
    [.regs, .aregs, .ports, .agPorts, .flt, .agFlt] s t ∧ t = s.parack x.1 x.2 ∧ t.pair = s.pair)

/-- The referee: renewing, moving, granting, refusing and releasing the lease (R421, R422, R423, R425, R426, R427, R437, R491). Each clause gives what
  holds of the state before, that the command answers a next state, the parts of the state that it may reach, and what that state holds. -/
def Obligations.TheReferee : Prop :=
  (∀ (s : State) (d : Site) (x : Cell), s.leaseRec d (leaseDom x) = none → ∃ t, exec (.leaseRenew d x) s = .next t ∧ Within [.regs, .aregs, .ports,
    .agPorts, .flt, .agFlt, .pair, .ag, .out] s t ∧ t = s) ∧
  (∀ (s : State) (x : Cell) (r : LeaseRec), s.leaseRec .dz8 (leaseDom x) = some r → isUnit x = true → (r.starting = true ∨ (r.holder = x.src ∧
    r.released = none)) → ∃ t, exec (.leaseRenew .dz8 x) s = .next t ∧ Within [.regs, .aregs, .ports, .agPorts, .flt, .agFlt, .pair, .ag, .out] s t ∧
    t.leaseRec .dz8 (leaseDom x) = some { r with holder := x.src, serial := leaseSer x, expiry := s.newExpiry .dz8, starting := r.starting }) ∧
  (∀ (s : State) (x : Cell) (r : LeaseRec), s.leaseRec .agent (leaseDom x) = some r → isUnit x = true → r.starting = true → ∃ t, exec (.leaseRenew
    .agent x) s = .next t ∧ Within [.regs, .aregs, .ports, .agPorts, .flt, .agFlt, .pair, .ag, .out] s t ∧ t.ag.leases =
    [{ r with holder := x.src, serial := leaseSer x, expiry := s.newExpiry .agent, starting := r.starting }] ∧ t.ard Ia.PAR_REF_CNT_GRANTED = (s.ard
    Ia.PAR_REF_CNT_GRANTED + 1) % 2 ^ (Ia.PAR_REF_CNT_GRANTED).w ∧ t.ard Ia.PAR_REF_HOLDER = x.src % 2 ^ Ia.PAR_REF_HOLDER.w) ∧
  (∀ (s : State) (d : Site) (x : Cell) (r : LeaseRec), s.leaseRec d (leaseDom x) = some r → isUnit x = true → r.starting = false → r.holder ≠ x.src →
    r.holder ≠ 0 → ∃ t, exec (.leaseRenew d x) s = .next t ∧ Within [.regs, .aregs, .ports, .agPorts, .flt, .agFlt, .pair, .ag, .out] s t ∧ t =
    s.leaseRefuse d x r whyHeld ∧ t.pair.leases = s.pair.leases ∧ t.ag.leases = s.ag.leases) ∧
  (∀ (s : State) (d : Site) (x : Cell) (r : LeaseRec), s.leaseRec d (leaseDom x) = some r → isUnit x = false → ∃ t, exec (.leaseRenew d x) s = .next t
    ∧ Within [.regs, .aregs, .ports, .agPorts, .flt, .agFlt, .pair, .ag, .out] s t ∧ t = s.leaseRefuse d x r whyNotUnit ∧ t.pair.leases =
    s.pair.leases ∧ t.ag.leases = s.ag.leases) ∧
  (∀ (s : State) (d : Site) (x : Cell), s.leaseRec d (leaseDom x) = none → ∃ t, exec (.leaseMove d x) s = .next t ∧ Within [.regs, .aregs, .ports,
    .agPorts, .flt, .agFlt, .pair, .ag, .out] s t ∧ t = s) ∧
  (∀ (s : State) (x : Cell) (r : LeaseRec), s.leaseRec .dz8 (leaseDom x) = some r → isUnit x = true → (r.starting = true ∨ (r.holder = x.src ∧
    r.released = none)) → ∃ t, exec (.leaseMove .dz8 x) s = .next t ∧ Within [.regs, .aregs, .ports, .agPorts, .flt, .agFlt, .pair, .ag, .out] s t ∧
    t.leaseRec .dz8 (leaseDom x) = some { r with holder := x.src, serial := leaseSer x, expiry := s.newExpiry .dz8, starting := true }) ∧
  (∀ (s : State) (x : Cell) (r : LeaseRec), s.leaseRec .agent (leaseDom x) = some r → isUnit x = true → r.starting = true → ∃ t, exec (.leaseMove
    .agent x) s = .next t ∧ Within [.regs, .aregs, .ports, .agPorts, .flt, .agFlt, .pair, .ag, .out] s t ∧ t.ag.leases =
    [{ r with holder := x.src, serial := leaseSer x, expiry := s.newExpiry .agent, starting := true }] ∧ t.ard Ia.PAR_REF_CNT_GRANTED = (s.ard
    Ia.PAR_REF_CNT_GRANTED + 1) % 2 ^ (Ia.PAR_REF_CNT_GRANTED).w ∧ t.ard Ia.PAR_REF_HOLDER = x.src % 2 ^ Ia.PAR_REF_HOLDER.w) ∧
  (∀ (s : State) (d : Site) (x : Cell) (r : LeaseRec), s.leaseRec d (leaseDom x) = some r → isUnit x = true → r.starting = false → r.holder ≠ x.src →
    r.holder ≠ 0 → ∃ t, exec (.leaseMove d x) s = .next t ∧ Within [.regs, .aregs, .ports, .agPorts, .flt, .agFlt, .pair, .ag, .out] s t ∧ t =
    s.leaseRefuse d x r whyHeld ∧ t.pair.leases = s.pair.leases ∧ t.ag.leases = s.ag.leases) ∧
  (∀ (s : State) (d : Site) (x : Cell) (r : LeaseRec), s.leaseRec d (leaseDom x) = some r → isUnit x = false → ∃ t, exec (.leaseMove d x) s = .next t
    ∧ Within [.regs, .aregs, .ports, .agPorts, .flt, .agFlt, .pair, .ag, .out] s t ∧ t = s.leaseRefuse d x r whyNotUnit ∧ t.pair.leases =
    s.pair.leases ∧ t.ag.leases = s.ag.leases) ∧
  (∀ (s : State) (d : Site) (x : Cell), s.leaseRec d (leaseDom x) = none → ∃ t, exec (.leaseTakeover d x) s = .next t ∧ Within [.regs, .aregs, .ports,
    .agPorts, .flt, .agFlt, .pair, .ag, .out] s t ∧ t = s) ∧
  (∀ (s : State) (d : Site) (x : Cell) (r : LeaseRec), s.leaseRec d (leaseDom x) = some r → isUnit x = true → r.starting = true → ∃ t, exec
    (.leaseTakeover d x) s = .next t ∧ Within [.regs, .aregs, .ports, .agPorts, .flt, .agFlt, .pair, .ag, .out] s t ∧ t = s.leaseRefuse d x r
    whyStarting ∧ t.pair.leases = s.pair.leases) ∧
  (∀ (s : State) (d : Site) (x : Cell) (r : LeaseRec), s.leaseRec d (leaseDom x) = some r → isUnit x = true → r.starting = false → r.released = none →
    ¬ (r.givenAt = some (s.beatS d) ∧ x.src < r.holder) → r.holder ≠ 0 → s.beatS d < r.expiry + s.beatsUp d s.guardMs → ∃ t, exec (.leaseTakeover d x)
    s = .next t ∧ Within [.regs, .aregs, .ports, .agPorts, .flt, .agFlt, .pair, .ag, .out] s t ∧ t = s.leaseRefuse d x r whyHeld ∧ t.pair.leases =
    s.pair.leases ∧ t.ag.leases = s.ag.leases) ∧
  (∀ (s : State) (d : Site) (x : Cell) (r : LeaseRec), s.leaseRec d (leaseDom x) = some r → isUnit x = true → r.starting = false → r.released = none →
    ¬ (r.givenAt = some (s.beatS d) ∧ x.src < r.holder) → r.expiry + s.beatsUp d s.guardMs ≤ s.beatS d → ∃ t, exec (.leaseTakeover d x) s = .next t ∧
    Within [.regs, .aregs, .ports, .agPorts, .flt, .agFlt, .pair, .ag, .out] s t ∧ t = s.leaseGive d x 4
    { r with holder := x.src, serial := (r.serial + 1) % 2 ^ 32, expiry := s.newExpiry d, released := none, givenAt := some (s.beatS d) } ∧ t.leaseRec
    d (leaseDom x) = some
    { r with holder := x.src, serial := (r.serial + 1) % 2 ^ 32, expiry := s.newExpiry d, released := none, givenAt := some (s.beatS d) }) ∧
  (∀ (s : State) (d : Site) (x : Cell) (r : LeaseRec), s.leaseRec d (leaseDom x) = some r → isUnit x = true → r.starting = false → r.released = none →
    r.givenAt = some (s.beatS d) → x.src < r.holder → ∃ t, exec (.leaseTakeover d x) s = .next t ∧ Within [.regs, .aregs, .ports, .agPorts, .flt,
    .agFlt, .pair, .ag, .out] s t ∧ t = (s.takeBack d r.holder x.src).leaseGive d x 4
    { r with holder := x.src, expiry := s.newExpiry d, released := none, givenAt := some (s.beatS d) }) ∧
  (∀ (s : State) (d : Site) (x : Cell) (r : LeaseRec) (g : Nat), s.leaseRec d (leaseDom x) = some r → isUnit x = true → r.starting = false →
    r.released = some g → g = leaseGen x → x.src ≠ r.holder → ∃ t, exec (.leaseTakeover d x) s = .next t ∧ Within [.regs, .aregs, .ports, .agPorts,
    .flt, .agFlt, .pair, .ag, .out] s t ∧ t = s.leaseGive d x 4
    { r with holder := x.src, serial := (r.serial + 1) % 2 ^ 32, expiry := s.newExpiry d, released := none, givenAt := some (s.beatS d) }) ∧
  (∀ (s : State) (d : Site) (x : Cell) (r : LeaseRec) (g : Nat), s.leaseRec d (leaseDom x) = some r → isUnit x = true → r.starting = false →
    r.released = some g → g ≠ leaseGen x → ∃ t, exec (.leaseTakeover d x) s = .next t ∧ Within [.regs, .aregs, .ports, .agPorts, .flt, .agFlt, .pair,
    .ag, .out] s t ∧ t = s.leaseRefuse d x r whyGeneration ∧ t.pair.leases = s.pair.leases) ∧
  (∀ (s : State) (d : Site) (x : Cell), s.leaseRec d (leaseDom x) = none → ∃ t, exec (.leaseRelease d x) s = .next t ∧ Within [.regs, .aregs, .ports,
    .agPorts, .flt, .agFlt, .pair, .ag, .out] s t ∧ t = s) ∧
  (∀ (s : State) (d : Site) (x : Cell) (r : LeaseRec), s.leaseRec d (leaseDom x) = some r → isUnit x = true → r.holder = x.src → ∃ t, exec
    (.leaseRelease d x) s = .next t ∧ Within [.regs, .aregs, .ports, .agPorts, .flt, .agFlt, .pair, .ag, .out] s t ∧ t = s.leaseGive d x 2
    { r with released := some (leaseGen x) } ∧ t.leaseRec d (leaseDom x) = some { r with released := some (leaseGen x) }) ∧
  (∀ (s : State) (d : Site) (x : Cell) (r : LeaseRec), s.leaseRec d (leaseDom x) = some r → isUnit x = true → r.holder ≠ x.src → ∃ t, exec
    (.leaseRelease d x) s = .next t ∧ Within [.regs, .aregs, .ports, .agPorts, .flt, .agFlt, .pair, .ag, .out] s t ∧ t = s.leaseRefuse d x r whyHeld ∧
    t.pair.leases = s.pair.leases) ∧
  (∀ (s : State) (d : Site) (n : Nat) (r : LeaseRec), s.leaseRec d n = some r → ∃ t, exec (.refereeStartingEnd d n) s = .next t ∧ Within [.aregs,
    .pair, .ag] s t ∧ t = s.putLease d { r with starting := false } ∧ t.leaseRec d n = some { r with starting := false } ∧ t.regs = s.regs) ∧
  (∀ (s : State) (d : Site) (n : Nat), s.leaseRec d n = none → ∃ t, exec (.refereeStartingEnd d n) s = .next t ∧ Within [.aregs, .pair, .ag] s t ∧ t =
    s)

/-- The unit holds, renews, loses and asks for its lease (R411, R412, R423, R424, R425, R427, R429, R433, R436, R437). Each clause gives what holds of
  the state before, that the command answers a next state, the parts of the state that it may reach, and what that state holds. -/
def Obligations.TheLeaseOfTheUnit : Prop :=
  (∀ (s : State), s.mayRenew = false → ∃ t, exec (.renewTimer) s = .next t ∧ Within [.regs, .aregs, .ports, .agPorts, .flt, .agFlt, .pair, .out] s t ∧
    t = s) ∧
  (∀ (s : State), s.mayRenew = true → ∃ t, exec (.renewTimer) s = .next t ∧ Within [.regs, .aregs, .ports, .agPorts, .flt, .agFlt, .pair, .out] s t ∧
    (t = (s.leaseAsk 1 0 (s.rd PAR_GEN_GEN)).setPair fun q => { q with renewSince := some (q.renewSince.getD s.time.beat) }) ∧ t.pair.renewSince =
    some (s.pair.renewSince.getD s.time.beat)) ∧
  (∀ (s : State) (x : Cell), s.pair.handover = none → s.active = true → ∃ t, exec (.leaseGrant x) s = .next t ∧ Within [.regs, .ttbs, .insts, .tile,
    .ctxs, .beyjo, .rst, .pair] s t ∧ RegsBut [PAR_LEASE_HELD, PAR_LEASE_EXPIRY] s t ∧ t.rd PAR_LEASE_HELD = 1 ∧ t.rd PAR_LEASE_EXPIRY = max
    (leaseSent x + s.beatsDown .dz8 s.leaseMs) (s.rd PAR_LEASE_EXPIRY) % 2 ^ PAR_LEASE_EXPIRY.w ∧ t.pair.renewSince = none ∧ t.pair.leaseSerial =
    leaseSer x) ∧
  (∀ (s : State) (x : Cell), s.pair.handover = none → s.active = false → ∃ t, exec (.leaseGrant x) s = .next t ∧ Within [.regs, .ttbs, .insts, .tile,
    .ctxs, .beyjo, .rst, .pair] s t ∧ t = s) ∧
  (∀ (s : State) (x : Cell) (h : Handover), s.pair.handover = some h → h.phase = 4 → ∃ t, exec (.leaseGrant x) s = .next t ∧ Within [.regs, .ttbs,
    .insts, .tile, .ctxs, .beyjo, .rst, .pair] s t ∧ t = (s.mailOk h.session h.slot [h.finalGen, s.time.beat]).toStandby ∧ t.rd PAR_STAT_ROLE = 2 ∧
    t.rd PAR_LEASE_HELD = 0 ∧ t.pair.handover = none) ∧
  (∀ (s : State), s.active = true → s.rd PAR_LEASE_EXPIRY ≤ s.time.beat → ∃ t, exec (.leaseExpiry) s = .next t ∧ Within [.regs, .ports, .insts, .flt,
    .agFlt, .pair] s t ∧ t.rd PAR_STAT_ROLE = 3 ∧ t.rd PAR_LEASE_HELD = 0 ∧ (∀ i ∈ t.insts, i.isOpen = false) ∧ t.pair.writing = none ∧ t.rd
    RTE_STAT_COORD = 0 ∧ t.rd RTE_STAT_PHASE = 0) ∧
  (∀ (s : State), (s.active = false ∨ s.time.beat < s.rd PAR_LEASE_EXPIRY) → ∃ t, exec (.leaseExpiry) s = .next t ∧ Within [.regs, .ports, .insts,
    .flt, .agFlt, .pair] s t ∧ t = s) ∧
  (∀ (s : State), s.pair.renewSince = none → ∃ t, exec (.leaseMoveTrigger) s = .next t ∧ Within [.regs, .aregs, .ports, .agPorts, .route, .flt,
    .agFlt, .pair, .out] s t ∧ t = s) ∧
  (∀ (s : State) (b : Nat), s.pair.renewSince = some b → s.mayRenew = true → b + 3 * s.beatsUp .dz8 s.renewMs ≤ s.time.beat → s.rd PAR_STAT_COPY = 2 →
    s.rd PAR_REFEREE_ALTERNATE ≠ 0 → s.rd PAR_REFEREE_IN_USE = 0 → ∃ t, exec (.leaseMoveTrigger) s = .next t ∧ Within [.regs, .aregs, .ports,
    .agPorts, .route, .flt, .agFlt, .pair, .out] s t ∧ t.rd PAR_REFEREE_IN_USE = 1 ∧ t.pair.moveDue = true ∧ t.pair.genDue = true ∧ t.pair.renewSince
    = none) ∧
  (∀ (s : State), s.mayAsk = true → s.alone = true → ∃ t, exec (.takeoverTrigger) s = .next t ∧ Within [.regs, .aregs, .ports, .agPorts, .flt, .agFlt,
    .pair, .out] s t ∧ t = s.askTakeover ∧ t.rd PAR_STAT_TAKEOVER = 1 ∧ t.pair.retryAt = some (s.time.beat + s.beatsUp .dz8 s.renewMs) ∧ t.rd
    PAR_STAT_ROLE = s.rd PAR_STAT_ROLE) ∧
  (∀ (s : State), (s.mayAsk = false ∨ s.alone = false) → ∃ t, exec (.takeoverTrigger) s = .next t ∧ Within [.regs, .aregs, .ports, .agPorts, .flt,
    .agFlt, .pair, .out] s t ∧ t = s) ∧
  (∀ (s : State) (b : Nat), s.pair.retryAt = some b → b ≤ s.time.beat → s.mayAsk = true → s.alone = true → ∃ t, exec (.takeoverRequestRepeat) s =
    .next t ∧ Within [.regs, .aregs, .ports, .agPorts, .flt, .agFlt, .pair, .out] s t ∧ t = s.askTakeover ∧ t.rd PAR_STAT_TAKEOVER = 1 ∧
    t.pair.retryAt = some (s.time.beat + s.beatsUp .dz8 s.renewMs) ∧ t.rd PAR_STAT_ROLE = s.rd PAR_STAT_ROLE) ∧
  (∀ (s : State) (b : Nat), s.pair.retryAt = some b → b ≤ s.time.beat → s.mayAsk = false → ∃ t, exec (.takeoverRequestRepeat) s = .next t ∧ Within
    [.regs, .aregs, .ports, .agPorts, .flt, .agFlt, .pair, .out] s t ∧ t.pair = { s.pair with retryAt := none } ∧ t.regs = s.regs) ∧
  (∀ (s : State) (b : Nat), s.pair.retryAt = some b → s.time.beat < b → ∃ t, exec (.takeoverRequestRepeat) s = .next t ∧ Within [.regs, .aregs,
    .ports, .agPorts, .flt, .agFlt, .pair, .out] s t ∧ t = s) ∧
  (∀ (s : State) (x : Cell), s.pair.handover = none → s.rd PAR_STAT_ROLE = 0 → leaseReason x = whyHeld → leaseHolder x = s.partnerFid → ∃ t, exec
    (.leaseRefuse x) s = .next t ∧ Within [.regs, .aregs, .time, .ports, .agPorts, .route, .ttbs, .insts, .tile, .ctxs, .beyjo, .flt, .agFlt, .rst,
    .pair, .out] s t ∧ t = s.toStandby ∧ t.rd PAR_STAT_ROLE = 2) ∧
  (∀ (s : State) (x : Cell), s.pair.handover = none → s.rd PAR_STAT_ROLE = 0 → leaseHolder x ≠ s.partnerFid → ∃ t, exec (.leaseRefuse x) s = .next t ∧
    Within [.regs, .aregs, .time, .ports, .agPorts, .route, .ttbs, .insts, .tile, .ctxs, .beyjo, .flt, .agFlt, .rst, .pair, .out] s t ∧ t.rd
    PAR_STAT_ROLE = 0 ∧ t.regs = s.regs) ∧
  (∀ (s : State) (x : Cell), s.pair.handover = none → s.active = true → ∃ t, exec (.leaseRefuse x) s = .next t ∧ Within [.regs, .aregs, .time, .ports,
    .agPorts, .route, .ttbs, .insts, .tile, .ctxs, .beyjo, .flt, .agFlt, .rst, .pair, .out] s t ∧ t = s) ∧
  (∀ (s : State) (x : Cell) (b : Nat), s.pair.handover = none → s.rd PAR_STAT_ROLE = 2 → leaseReason x = whyHeld → s.pair.retryAt = some b → ∃ t, exec
    (.leaseRefuse x) s = .next t ∧ Within [.regs, .aregs, .time, .ports, .agPorts, .route, .ttbs, .insts, .tile, .ctxs, .beyjo, .flt, .agFlt, .rst,
    .pair, .out] s t ∧ t.pair.retryAt = some (max (min b (leaseExp x + s.beatsUp .dz8 s.guardMs)) (s.time.beat + 1)) ∧ t.regs = s.regs) ∧
  (∀ (s : State) (x : Cell), s.pair.handover = none → s.rd PAR_STAT_ROLE = 2 → leaseReason x ≠ whyHeld → ∃ t, exec (.leaseRefuse x) s = .next t ∧
    Within [.regs, .aregs, .time, .ports, .agPorts, .route, .ttbs, .insts, .tile, .ctxs, .beyjo, .flt, .agFlt, .rst, .pair, .out] s t ∧ t.pair.retryAt
    = s.pair.retryAt ∧ t.regs = s.regs) ∧
  (∀ (s : State), s.pair.handover = none → ∃ t, exec (.handoverReleaseTimeout) s = .next t ∧ Within [.regs, .aregs, .time, .ports, .agPorts, .route,
    .ttbs, .insts, .tile, .beyjo, .flt, .agFlt, .pair, .out] s t ∧ t = s) ∧
  (∀ (s : State) (h : Handover), s.pair.handover = some h → h.phase = 4 → ∃ t, exec (.handoverReleaseTimeout) s = .next t ∧ Within [.regs, .aregs,
    .time, .ports, .agPorts, .route, .ttbs, .insts, .tile, .beyjo, .flt, .agFlt, .pair, .out] s t ∧ t = s.releaseFails h ∧ t.pair.handover = none) ∧
  (∀ (s : State) (x : Cell), s.rd PAR_STAT_ROLE = 1 → ∃ t, exec (.leaseTakeoverGrant x) s = .next t ∧ Within [.regs, .aregs, .ports, .agPorts, .route,
    .ttbs, .beyjo, .flt, .agFlt, .pair, .out] s t ∧ RegsBut [PAR_LEASE_HELD, PAR_LEASE_EXPIRY] s t ∧ t.rd PAR_LEASE_HELD = 1 ∧ t.pair.leaseSerial =
    leaseSer x) ∧
  (∀ (s : State) (x : Cell), s.rd PAR_STAT_ROLE ≠ 1 → s.rd PAR_STAT_TAKEOVER ≠ 1 → ∃ t, exec (.leaseTakeoverGrant x) s = .next t ∧ Within [.regs,
    .aregs, .ports, .agPorts, .route, .ttbs, .beyjo, .flt, .agFlt, .pair, .out] s t ∧ t = s) ∧
  (∀ (s : State) (x : Cell), s.rd PAR_STAT_ROLE = 0 → s.rd PAR_STAT_TAKEOVER = 1 → ∃ t, exec (.leaseTakeoverGrant x) s = .next t ∧ Within [.regs,
    .aregs, .ports, .agPorts, .route, .ttbs, .beyjo, .flt, .agFlt, .pair, .out] s t ∧ t = (s.becomeActive x).coldStart) ∧
  (∀ (s : State) (x : Cell), s.rd PAR_STAT_ROLE = 2 → s.rd PAR_STAT_TAKEOVER = 1 → ∃ t, exec (.leaseTakeoverGrant x) s = .next t ∧ Within [.regs,
    .aregs, .ports, .agPorts, .route, .ttbs, .beyjo, .flt, .agFlt, .pair, .out] s t ∧ t.rd PAR_STAT_ROLE = 1 ∧ t.rd PAR_STAT_TAKEOVER = 2 ∧ (t.rd
    PAR_TAKEOVER_CAUSE = if s.pair.warm then 2 else 1) ∧ t.rd PAR_TAKEOVER_COUNT = (s.rd PAR_TAKEOVER_COUNT + 1) % 2 ^ (PAR_TAKEOVER_COUNT).w ∧
    t.pair.takeoverNs = some s.time.nowNs ∧ t.pair.reconciled = false ∧ t.pair.kept = [])

/-- The steps of a takeover, the planned handover, and the return of a unit (R3, R400, R404, R411, R430, R431, R432, R433, R435, R436, R437). Each
  clause gives what holds of the state before, that the command answers a next state, the parts of the state that it may reach, and what that state
  holds. -/
def Obligations.TakeoverAndHandover : Prop :=
  (∀ (s : State) (l : List AgentReport) (a b : Bool), (s.active = false ∨ s.rd PAR_STAT_TAKEOVER ≠ 2 ∨ s.pair.reconciled = true) → ∃ t, exec
    (.takeoverReconcile l a b) s = .next t ∧ Within [.regs, .aregs, .time, .agTime, .ports, .agPorts, .route, .ttbs, .insts, .tile, .hbm, .ctxs, .rot,
    .beyjo, .flt, .agFlt, .rst, .pair, .boot, .out] s t ∧ t = s) ∧
  (∀ (s : State) (l : List AgentReport) (a b : Bool), s.active = true → s.rd PAR_STAT_TAKEOVER = 2 → s.pair.reconciled = false → s.pair.rxGen = 0 → ∃
    t, exec (.takeoverReconcile l a b) s = .next t ∧ Within [.regs, .aregs, .time, .agTime, .ports, .agPorts, .route, .ttbs, .insts, .tile, .hbm,
    .ctxs, .rot, .beyjo, .flt, .agFlt, .rst, .pair, .boot, .out] s t ∧ t = s.reconcile l ∧ t.rd PAR_STAT_TAKEOVER = 4 ∧ t.pair.reconciled = true) ∧
  (∀ (s : State) (l : List AgentReport) (a b : Bool), s.active = true → s.rd PAR_STAT_TAKEOVER = 2 → s.pair.reconciled = false → s.pair.rxGen ≠ 0 → ∃
    t, exec (.takeoverReconcile l a b) s = .next t ∧ Within [.regs, .aregs, .time, .agTime, .ports, .agPorts, .route, .ttbs, .insts, .tile, .hbm,
    .ctxs, .rot, .beyjo, .flt, .agFlt, .rst, .pair, .boot, .out] s t ∧ (s.moveBuffer.goodGen a b = none → t = s.moveBuffer.noGen ∧ t.rd PAR_STAT_ROLE
    = 2 ∧ t.rd PAR_STAT_CANDIDATE = 0) ∧ (∀ p, s.moveBuffer.goodGen a b = some p → t.rd PAR_STAT_TAKEOVER = 4 ∧ t.pair.reconciled = true)) ∧
  (∀ (s : State) (b : Bool), (s.rd PAR_STAT_TAKEOVER < 2 ∨ 4 < s.rd PAR_STAT_TAKEOVER) → ∃ t, exec (.takeoverCdieReady b) s = .next t ∧ Within [.regs,
    .flt, .agFlt, .pair] s t ∧ t = s) ∧
  (∀ (s : State), 2 ≤ s.rd PAR_STAT_TAKEOVER → s.rd PAR_STAT_TAKEOVER ≤ 4 → ∃ t, exec (.takeoverCdieReady true) s = .next t ∧ Within [.regs, .flt,
    .agFlt, .pair] s t ∧ t.pair = { s.pair with cdiesReady := true } ∧ t.flt = s.flt) ∧
  (∀ (s : State), 2 ≤ s.rd PAR_STAT_TAKEOVER → s.rd PAR_STAT_TAKEOVER ≤ 4 → ∃ t, exec (.takeoverCdieReady false) s = .next t ∧ Within [.regs, .flt,
    .agFlt, .pair] s t ∧ t.flt.fatal = true ∧ t.pair = s.pair ∧ t.regs = s.regs) ∧
  (∀ (s : State), s.active = true → s.rd PAR_STAT_TAKEOVER = 4 → s.pair.reconciled = true → s.pair.cdiesReady = true → s.flt.fatal = false → ∃ t, exec
    (.takeoverLoadDone) s = .next t ∧ Within [.regs, .aregs, .ports, .agPorts, .route, .ttbs, .tile, .hbm, .ctxs, .rot, .beyjo, .flt, .agFlt, .rst,
    .pair, .out, .freeCtr] s t ∧ t.rd PAR_STAT_TAKEOVER = 5 ∧ t.pair.warm = false) ∧
  (∀ (s : State), (s.active = false ∨ s.rd PAR_STAT_TAKEOVER ≠ 4 ∨ s.pair.cdiesReady = false) → ∃ t, exec (.takeoverLoadDone) s = .next t ∧ Within
    [.regs, .aregs, .ports, .agPorts, .route, .ttbs, .tile, .hbm, .ctxs, .rot, .beyjo, .flt, .agFlt, .rst, .pair, .out, .freeCtr] s t ∧ t = s) ∧
  (∀ (s : State), s.active = true → s.rd PAR_STAT_TAKEOVER = 5 → s.flipRuns = false → ∃ t, exec (.takeoverRearm) s = .next t ∧ Within [.regs, .aregs,
    .time, .ports, .agPorts, .route, .ttbs, .insts, .flt, .agFlt, .pair, .out] s t ∧ t.rd PAR_STAT_TAKEOVER = 6 ∧ t.pair.kept = [] ∧ t.pair.takeoverNs
    = none) ∧
  (∀ (s : State), (s.active = false ∨ s.rd PAR_STAT_TAKEOVER ≠ 5 ∨ s.flipRuns = true) → ∃ t, exec (.takeoverRearm) s = .next t ∧ Within [.regs,
    .aregs, .time, .ports, .agPorts, .route, .ttbs, .insts, .flt, .agFlt, .pair, .out] s t ∧ t = s) ∧
  (∀ (s : State) (i n : Nat), s.takenFor i n 6 = false → ∃ t, exec (.mailHandover i n) s = .next t ∧ Within [.regs, .tile, .beyjo, .pair] s t ∧ t = s) ∧
  (∀ (s : State) (i n e : Nat), s.takenFor i n 6 = true → s.mailErr i n 6 1 [0] = none → s.handoverErr (bit (s.slotGet i n 0) 0) = some e → ∃ t, exec
    (.mailHandover i n) s = .next t ∧ Within [.regs, .tile, .beyjo, .pair] s t ∧ t = s.mailReject i n e [] ∧ t.pair = s.pair) ∧
  (∀ (s : State) (i n : Nat), s.takenFor i n 6 = true → s.mailErr i n 6 1 [0] = none → s.handoverErr (bit (s.slotGet i n 0) 0) = none → ∃ t, exec
    (.mailHandover i n) s = .next t ∧ Within [.regs, .tile, .beyjo, .pair] s t ∧ t.pair.handover = some ⟨i, n, 1, 0⟩ ∧ (i, n, 6) ∈ t.beyjo.running ∧
    t.regs = s.regs) ∧
  (∀ (s : State) (h : Handover), s.pair.handover = some h → s.active = true → h.phase = 1 → s.ttbs.length = 16 → ∃ t, exec (.standbyWarmDone) s =
    .next t ∧ Within [.regs, .ttbs, .rot, .pair, .boot] s t ∧ t.pair.handover = some { h with phase := 2 } ∧ (∀ c < 16, s.armed c = true → (t.ttb
    c).held = true) ∧ t.regs = s.regs) ∧
  (∀ (s : State), s.pair.handover = none → s.rd PAR_STAT_ROLE = 2 → ∃ t, exec (.standbyWarmDone) s = .next t ∧ Within [.regs, .ttbs, .rot, .pair,
    .boot] s t ∧ t.pair = { s.pair with warm := true }) ∧
  (∀ (s : State), s.pair.handover = none → s.rd PAR_STAT_ROLE ≠ 2 → ∃ t, exec (.standbyWarmDone) s = .next t ∧ Within [.regs, .ttbs, .rot, .pair,
    .boot] s t ∧ t = s) ∧
  (∀ (s : State) (h : Handover), s.pair.handover = some h → s.active = true → h.phase = 2 → s.allHeld = true → ∃ t, exec (.handoverPaused) s = .next t
    ∧ Within [.regs, .ttbs, .insts, .tile, .hbm, .beyjo, .pair] s t ∧ t.pair.genDue = true ∧ t.pair.handover = some
    { h with phase := 3, finalGen := max (s.rd PAR_GEN_GEN) s.pair.lastGen + 1 } ∧ (∀ c < 16, s.armed c = true → s.hasUpdate c = true → t.ttbState c =
    6)) ∧
  (∀ (s : State), (s.pair.handover = none ∨ s.allHeld = false) → ∃ t, exec (.handoverPaused) s = .next t ∧ Within [.regs, .ttbs, .insts, .tile, .hbm,
    .beyjo, .pair] s t ∧ t = s) ∧
  (∀ (s : State) (h : Handover), s.pair.handover = some h → h.phase = 2 → ∃ t, exec (.handoverPauseTimeout) s = .next t ∧ Within [.regs, .aregs,
    .time, .ports, .agPorts, .route, .ttbs, .insts, .tile, .beyjo, .flt, .agFlt, .pair, .out] s t ∧ t = s.handoverFails h 0x13 ∧ t.pair.handover =
    none) ∧
  (∀ (s : State), s.pair.handover = none → ∃ t, exec (.handoverPauseTimeout) s = .next t ∧ Within [.regs, .aregs, .time, .ports, .agPorts, .route,
    .ttbs, .insts, .tile, .beyjo, .flt, .agFlt, .pair, .out] s t ∧ t = s) ∧
  (∀ (s : State) (p : Nat × Nat × Nat), s.active = true → p = (s.rd LCS_PART_PART, s.rd LCS_PART_DIES, s.rd LCS_PART_TILE_MHZ) → ∃ t, exec
    (.unitReturn (some p)) s = .next t ∧ Within [.regs, .ttbs, .insts, .ctxs, .rot, .flt, .agFlt, .rst, .pair] s t ∧ RegsBut [PAR_STAT_MISMATCH,
    PAR_STAT_COPY] s t ∧ t.rd PAR_STAT_MISMATCH = 0 ∧ t.rd PAR_STAT_COPY = 1 ∧ t.pair.genDue = true ∧ t.pair.fullDue = true ∧ (∀ r ∈ t.rot.records,
    r.paired = false)) ∧
  (∀ (s : State) (p : Nat × Nat × Nat), s.active = true → p.1 ≠ s.rd LCS_PART_PART → ∃ t, exec (.unitReturn (some p)) s = .next t ∧ Within [.regs,
    .ttbs, .insts, .ctxs, .rot, .flt, .agFlt, .rst, .pair] s t ∧ RegsBut [PAR_STAT_MISMATCH, PAR_STAT_COPY] s t ∧ t.rd PAR_STAT_MISMATCH = 1 ∧ t.rd
    PAR_STAT_COPY = 0 ∧ t.rot = s.rot) ∧
  (∀ (s : State), s.rd PAR_STAT_ROLE = 3 → ∃ t, exec (.unitReturn none) s = .next t ∧ Within [.regs, .ttbs, .insts, .ctxs, .rot, .flt, .agFlt, .rst,
    .pair] s t ∧ t = s.toStandby ∧ t.rd PAR_STAT_ROLE = 2) ∧
  (∀ (s : State), s.rd PAR_STAT_ROLE = 2 → ∃ t, exec (.unitReturn none) s = .next t ∧ Within [.regs, .ttbs, .insts, .ctxs, .rot, .flt, .agFlt, .rst,
    .pair] s t ∧ t = s)

/-- Detections, deciding events, reactions, clearing faults, and the Jig (R360, R361, R363, R364, R365, R366, R367, R371, R375, R376, R380, R381).
  Each clause gives what holds of the state before, that the command answers a next state, the parts of the state that it may reach, and what that
  state holds. -/
def Obligations.FaultsAndTheJig : Prop :=
  (∀ (s : State) (d : Site) (x p v : Nat) (c : Option Nat), srcFid x ≠ s.fidS d → ∃ t, exec (.detectorEvent d x p v c) s = .next t ∧ Within [.regs,
    .aregs, .time, .agTime, .ports, .agPorts, .replays, .route, .ttbs, .agents, .insts, .tile, .hbm, .ctxs, .rot, .beyjo, .flt, .agFlt, .rst, .pair,
    .boot, .pwr, .out, .freeCtr] s t ∧ t = s) ∧
  (∀ (s : State) (d : Site) (x p v : Nat) (c : Option Nat), srcFid x = s.fidS d → (detInitial d (srcFam x) (srcDet x)).isSome = true → tget (s.fltS
    d).jigChecks (srcPage x / 4096) = 0 → ∃ t, exec (.detectorEvent d x p v c) s = .next t ∧ Within [.regs, .aregs, .time, .agTime, .ports, .agPorts,
    .replays, .route, .ttbs, .agents, .insts, .tile, .hbm, .ctxs, .rot, .beyjo, .flt, .agFlt, .rst, .pair, .boot, .pwr, .out, .freeCtr] s t ∧ t =
    s.detectAt d x p v c false ∧ (t.fltS d).waiting.length = (s.fltS d).waiting.length + 1 ∧ t.regs = s.regs ∧ t.aregs = s.aregs) ∧
  (∀ (s : State) (d : Site) (n : Nat), (((s.fltS d).waiting.all fun e => decide (n < e.arrival)) = true) → ∃ t, exec (.eventDecide d n) s = .next t ∧
    Within [.regs, .aregs, .time, .agTime, .ports, .agPorts, .replays, .route, .ttbs, .agents, .insts, .tile, .hbm, .ctxs, .rot, .beyjo, .flt, .agFlt,
    .rst, .pair, .boot, .pwr, .out, .freeCtr] s t ∧ (t.fltS d).waiting = (s.fltS d).waiting ∧ (t.fltS d).first = (s.fltS d).first ∧ t.regs = s.regs ∧
    t.aregs = s.aregs ∧ t.out = s.out) ∧
  (∀ (s : State) (n : Nat) (e : Event), s.flt.waiting = [e] → e.arrival ≤ n → s.flt.first = none → e.level = 1 → e.merged = false → e.conseq = false →
    e.promoted = false → srcFam e.source ∉ [4, 0x16, 0x18] → ∃ t, exec (.eventDecide .dz8 n) s = .next t ∧ Within [.regs, .aregs, .time, .agTime,
    .ports, .agPorts, .replays, .route, .ttbs, .agents, .insts, .tile, .hbm, .ctxs, .rot, .beyjo, .flt, .agFlt, .rst, .pair, .boot, .pwr, .out,
    .freeCtr] s t ∧ t.flt.first = some { e with serial := s.flt.nextSerial, first := true } ∧ t.flt.nextSerial = (s.flt.nextSerial + 1) % 2 ^ 32 ∧
    t.flt.waiting = [] ∧ t.flt.log = s.flt.log ∧ t.rd FLT_COUNT_MINOR = (s.rd FLT_COUNT_MINOR + 1) % 2 ^ (FLT_COUNT_MINOR).w ∧ RegsBut
    [FLT_COUNT_MINOR, BYJ_NOTIFY_LOST] s t) ∧
  (∀ (s : State) (n : Nat), s.flt.decisions = [] → ∃ t, exec (.fltChoice n) s = .next t ∧ Within [.regs, .aregs, .time, .agTime, .ports, .agPorts,
    .replays, .route, .ttbs, .agents, .insts, .tile, .hbm, .ctxs, .rot, .beyjo, .flt, .agFlt, .rst, .pair, .boot, .pwr, .out, .freeCtr] s t ∧ t = s) ∧
  (∀ (s : State) (n : Nat) (d : Decision) (l : List Decision), s.flt.decisions = d :: l → bit d.allowed n = true → ∃ t, exec (.fltChoice n) s = .next
    t ∧ Within [.regs, .aregs, .time, .agTime, .ports, .agPorts, .replays, .route, .ttbs, .agents, .insts, .tile, .hbm, .ctxs, .rot, .beyjo, .flt,
    .agFlt, .rst, .pair, .boot, .pwr, .out, .freeCtr] s t ∧ (t = ((s.setFlt .dz8 fun f => { f with decisions := l }).showDecision).runReaction
    d.serial d.source n 0)) ∧
  (∀ (s : State) (n : Nat) (d : Decision) (l : List Decision), s.flt.decisions = d :: l → bit d.allowed n = false → ∃ t, exec (.fltChoice n) s = .next
    t ∧ Within [.regs, .aregs, .time, .agTime, .ports, .agPorts, .replays, .route, .ttbs, .agents, .insts, .tile, .hbm, .ctxs, .rot, .beyjo, .flt,
    .agFlt, .rst, .pair, .boot, .pwr, .out, .freeCtr] s t ∧ (t = ((s.setFlt .dz8 fun f => { f with decisions := l }).showDecision).runReaction
    d.serial d.source d.default 0)) ∧
  (∀ (s : State) (d : Decision) (l : List Decision), s.flt.decisions = d :: l → ∃ t, exec (.policyWaitExpiry) s = .next t ∧ Within [.regs, .aregs,
    .time, .agTime, .ports, .agPorts, .replays, .route, .ttbs, .agents, .insts, .tile, .hbm, .ctxs, .rot, .beyjo, .flt, .agFlt, .rst, .pair, .boot,
    .pwr, .out, .freeCtr] s t ∧ (t = ((s.setFlt .dz8 fun f => { f with decisions := l }).showDecision).runReaction d.serial d.source d.default 0)) ∧
  (∀ (s : State), s.flt.decisions = [] → ∃ t, exec (.policyWaitExpiry) s = .next t ∧ Within [.regs, .aregs, .time, .agTime, .ports, .agPorts,
    .replays, .route, .ttbs, .agents, .insts, .tile, .hbm, .ctxs, .rot, .beyjo, .flt, .agFlt, .rst, .pair, .boot, .pwr, .out, .freeCtr] s t ∧ t = s) ∧
  (∀ (s : State) (n : Nat), ((s.flt.reactions.any fun r => r.serial == n && r.done) = true) → ∃ t, exec (.reactionWindowEnd n) s = .next t ∧ Within
    [.flt, .agFlt] s t ∧ (t.flt = { s.flt with reactions := s.flt.reactions.filter fun r => !(r.serial == n && r.done) }) ∧ t.agFlt = s.agFlt) ∧
  (∀ (s : State) (n : Nat), ((s.flt.reactions.any fun r => r.serial == n && r.done) = false) → ∃ t, exec (.reactionWindowEnd n) s = .next t ∧ Within
    [.flt, .agFlt] s t ∧ (t.agFlt = { s.agFlt with reactions := s.agFlt.reactions.filter fun r => !(r.serial == n && r.done) }) ∧ t.flt = s.flt) ∧
  (∀ (s : State) (d : Site) (p : Nat) (m : Word), ∃ t, exec (.pgFaultClear d p m) s = .next t ∧ Within [.flt, .agFlt] s t ∧ (∀ r ∈ (s.fltS d).srcs,
    (r.level = 3 ∨ detSecurity d (srcFam r.source) (srcDet r.source) = true) → r ∈ (t.fltS d).srcs) ∧ (∀ r ∈ (t.fltS d).srcs, r.source / 32 = sourceOf
    (s.fidS d) p 0 / 32 → bit m.toNat (srcDet r.source) = true → r.level < 3 → detSecurity d (srcFam r.source) (srcDet r.source) = false → r.raised =
    false) ∧ (t.fltS d).srcs.map (·.source) = (s.fltS d).srcs.map (·.source) ∧ (t.fltS d).first = (s.fltS d).first ∧ t.regs = s.regs) ∧
  (∀ (s : State) (d : Site), ∃ t, exec (.fltClearFirst d) s = .next t ∧ Within [.flt, .agFlt] s t ∧ t.fltS d = { s.fltS d with first := none } ∧
    t.regs = s.regs ∧ t.aregs = s.aregs) ∧
  (∀ (s : State) (d : Site), ∃ t, exec (.fltClearLog d) s = .next t ∧ Within [.regs, .aregs, .flt, .agFlt] s t ∧ t.fltS d =
    { s.fltS d with log := [] } ∧ t.rdS d FLT_LOG_HEAD_HEAD = 0) ∧
  (∀ (s : State) (d : Nat), d < 2 → ∃ t, exec (.fltDllClear d) s = .next t ∧ Within [.regs, .aregs, .flt, .agFlt] s t ∧ ((if d = 0 then t.flt.dll0
    else t.flt.dll1) = []) ∧ ((if d = 0 then t.flt.dll1 else t.flt.dll0) = (if d = 0 then s.flt.dll1 else s.flt.dll0)) ∧ RegsBut [FLT_DLL_HEAD_HEAD
    (dllPage d), FLT_DLL_HEAD_WRAPPED (dllPage d)] s t ∧ t.rd (FLT_DLL_HEAD_HEAD (dllPage d)) = 0) ∧
  (∀ (s : State) (d : Nat), 2 ≤ d → ∃ t, exec (.fltDllClear d) s = .next t ∧ Within [.regs, .aregs, .flt, .agFlt] s t ∧ t = s) ∧
  (∀ (s : State) (d : Site) (v : Word), bit v.toNat 0 = true → ∃ t, exec (.jigArmWrite d v) s = .next t ∧ Within [.regs, .aregs, .flt, .agFlt] s t ∧
    t.rdS d JIG_ARM_ARM = 1 ∧ (t.rdS d JIG_ARM_TIMEOUT_S = if bits v.toNat 23 8 = 0 then s.rdS d JIG_ARM_TIMEOUT_S else bits v.toNat 23 8) ∧ t.flt =
    s.flt ∧ t.agFlt = s.agFlt) ∧
  (∀ (s : State) (d : Site) (v : Word), bit v.toNat 0 = false → ∃ t, exec (.jigArmWrite d v) s = .next t ∧ Within [.regs, .aregs, .flt, .agFlt] s t ∧
    t.rdS d JIG_ARM_ARM = 0 ∧ (t.fltS d).jigChecks = [] ∧ (∀ k, t.rdS d (PG_JIG_MODE (4096 * k)) = 0) ∧ t.out = s.out) ∧
  (∀ (s : State) (d : Site), s.rdS d JIG_ARM_ARM = 1 → ∃ t, exec (.jigArmTimeout d) s = .next t ∧ Within [.regs, .aregs, .flt, .agFlt] s t ∧ t.rdS d
    JIG_ARM_ARM = 0 ∧ (t.fltS d).jigChecks = [] ∧ (∀ k, t.rdS d (PG_JIG_MODE (4096 * k)) = 0) ∧ t.out = s.out) ∧
  (∀ (s : State) (d : Site), s.rdS d JIG_ARM_ARM = 0 → ∃ t, exec (.jigArmTimeout d) s = .next t ∧ Within [.regs, .aregs, .flt, .agFlt] s t ∧ t = s) ∧
  (∀ (s : State) (d : Site) (p : Nat), s.rdS d (PG_JIG_MODE p) = 0 → ∃ t, exec (.pgJigGo d p) s = .next t ∧ Within [.regs, .aregs, .flt, .agFlt] s t ∧
    t = s) ∧
  (∀ (s : State) (d : Site) (p : Nat), s.rdS d (PG_JIG_MODE p) ≠ 0 → s.rdS d JIG_ARM_ARM = 0 → ∃ t, exec (.pgJigGo d p) s = .next t ∧ Within [.regs,
    .aregs, .flt, .agFlt] s t ∧ t.rdS d JIG_LAST_REASON = 1 ∧ t.fltS d = s.fltS d ∧ t.out = s.out) ∧
  (∀ (s : State) (d : Site) (p : Nat), s.rdS d (PG_JIG_MODE p) ≠ 0 → s.rdS d JIG_ARM_ARM = 1 → (detSecurity d (srcFam (sourceOf (s.fidS d) p (s.rdS d
    (PG_JIG_DET p)))) (s.rdS d (PG_JIG_DET p)) && s.isSealed d) = false → (detInitial d (srcFam (sourceOf (s.fidS d) p (s.rdS d (PG_JIG_DET p))))
    (s.rdS d (PG_JIG_DET p))).isSome = true → ∃ t, exec (.pgJigGo d p) s = .next t ∧ Within [.regs, .aregs, .flt, .agFlt] s t ∧ (t.fltS d).jigChecks =
    tset (s.fltS d).jigChecks (p / 4096) 1 ∧ t.regs = s.regs ∧ t.aregs = s.aregs)

/-- Register writes at the unit and at the agent, and management requests at the agent (R8, R331, R338, R340, R347, R467, R472, R473, R474, R501,
  R506, R507). Each clause gives what holds of the state before, that the command answers a next state, the parts of the state that it may reach, and
  what that state holds. -/
def Obligations.RegisterAccess : Prop :=
  (∀ (s : State) (a : Nat) (v : Word), s.gate operator a true ≠ stOK → ∃ t, exec (.registerWrite a v) s = .next t ∧ Within [.regs, .aregs, .time,
    .agTime, .ports, .agPorts, .replays, .route, .ttbs, .agents, .insts, .tile, .hbm, .ctxs, .rot, .beyjo, .flt, .agFlt, .rst, .pair, .boot, .pwr,
    .out, .freeCtr] s t ∧ t = s.refused a (s.gate operator a true) ∧ t.regs = s.regs ∧ t.out = s.out) ∧
  (∀ (s : State) (a : Nat) (v : Word), s.gate operator a true = stOK → ∃ t, exec (.registerWrite a v) s = .next t ∧ Within [.regs, .aregs, .time,
    .agTime, .ports, .agPorts, .replays, .route, .ttbs, .agents, .insts, .tile, .hbm, .ctxs, .rot, .beyjo, .flt, .agFlt, .rst, .pair, .boot, .pwr,
    .out, .freeCtr] s t ∧ t = (s.writeDz operator a v.toNat).2) ∧
  (∀ (s : State) (v : Word), s.gate operator 0xF1700120 true = stOK → 10 ≤ v.toNat % 2 ^ 16 → v.toNat % 2 ^ 16 ≤ 1000 → ∃ t, exec (.registerWrite
    0xF1700120 v) s = .next t ∧ Within [.regs, .aregs, .time, .agTime, .ports, .agPorts, .replays, .route, .ttbs, .agents, .insts, .tile, .hbm, .ctxs,
    .rot, .beyjo, .flt, .agFlt, .rst, .pair, .boot, .pwr, .out, .freeCtr] s t ∧ RegsBut [PAR_TIMING_SYNC_MS] s t ∧ t.rd PAR_TIMING_SYNC_MS = v.toNat %
    2 ^ 16) ∧
  (∀ (s : State) (v : Word), (v.toNat % 2 ^ 16 < 10 ∨ 1000 < v.toNat % 2 ^ 16) → ∃ t, exec (.registerWrite 0xF1700120 v) s = .next t ∧ Within [.regs,
    .aregs, .time, .agTime, .ports, .agPorts, .replays, .route, .ttbs, .agents, .insts, .tile, .hbm, .ctxs, .rot, .beyjo, .flt, .agFlt, .rst, .pair,
    .boot, .pwr, .out, .freeCtr] s t ∧ t.regs = s.regs) ∧
  (∀ (s : State) (v : Word), ∃ t, exec (.genModeWrite v) s = .next t ∧ Within [.regs] s t ∧ RegsBut [GEN_MODE_HOST] s t ∧ t.rd GEN_MODE_HOST = v.toNat
    % 2 ^ 9 ∧ t.rd GEN_MODE_IN_FORCE = s.rd GEN_MODE_IN_FORCE) ∧
  (∀ (s : State) (i n w : Nat) (v : Word), i < 64 → n < 16 → w < 16 → s.taken i n = false → ∃ t, exec (.mslSlotWrite i n w v) s = .next t ∧ Within
    [.tile] s t ∧ t.slotGet i n w = v.toNat ∧ (∀ j m u, j < 64 → m < 16 → u < 16 → (j, m, u) ≠ (i, n, w) → t.slotGet j m u = s.slotGet j m u) ∧ t.regs
    = s.regs) ∧
  (∀ (s : State) (i n w : Nat) (v : Word), s.taken i n = true → ∃ t, exec (.mslSlotWrite i n w v) s = .next t ∧ Within [.tile] s t ∧ t = s) ∧
  (∀ (s : State) (i : Nat), s.sessAt (i % 64) = none → ∃ t, exec (.byjCloseWrite i) s = .next t ∧ Within [.regs, .tile, .beyjo, .rst, .pair] s t ∧ t =
    s) ∧
  (∀ (s : State) (i : Nat) (x : Sess), s.sessAt (i % 64) = some x → ∃ t, exec (.byjCloseWrite i) s = .next t ∧ Within [.regs, .tile, .beyjo, .rst,
    .pair] s t ∧ t.sessAt (i % 64) = none ∧ t.genOf (i % 64) = (x.gen + 1) % 2 ^ 26) ∧
  (∀ (s : State) (d : Site) (p : Nat) (v : Word), s.pageIn d p = false → ∃ t, exec (.pgLockWrite d p v) s = .next t ∧ Within [.regs, .aregs] s t ∧ t =
    s) ∧
  (∀ (s : State) (d : Site) (p : Nat) (v : Word), s.pageIn d p = true → bit v.toNat 0 = true → ∃ t, exec (.pgLockWrite d p v) s = .next t ∧ Within
    [.regs, .aregs] s t ∧ t.rdS d (PG_LOCK_LOCK (adPg p)) = 1 ∧ (bit v.toNat 1 = true → t.rdS d (PG_LOCK_STICKY (adPg p)) = 1) ∧ (bit v.toNat 1 =
    false → t.rdS d (PG_LOCK_STICKY (adPg p)) = s.rdS d (PG_LOCK_STICKY (adPg p)))) ∧
  (∀ (s : State) (d : Site) (p : Nat) (v : Word), s.pageIn d p = true → bit v.toNat 0 = false → ∃ t, exec (.pgLockWrite d p v) s = .next t ∧ Within
    [.regs, .aregs] s t ∧ (t.rdS d (PG_LOCK_LOCK (adPg p)) = if s.rdS d (PG_LOCK_STICKY (adPg p)) = 1 then s.rdS d (PG_LOCK_LOCK (adPg p)) else 0)) ∧
  (∀ (s : State) (a : Nat) (v : Word), s.ag.porst = true → ∃ t, exec (.agentTargetWrite a v) s = .next t ∧ Within [.regs, .aregs, .agTime, .ports,
    .agPorts, .flt, .agFlt, .ag, .out] s t ∧ t = s) ∧
  (∀ (s : State) (a : Nat) (v : Word), s.ag.porst = false → (2 ^ 32 ≤ a ∨ a % 8 ≠ 0 ∨ s.agPageExists a = false) → ∃ t, exec (.agentTargetWrite a v) s
    = .next t ∧ Within [.regs, .aregs, .agTime, .ports, .agPorts, .flt, .agFlt, .ag, .out] s t ∧ t.out = s.out ++ [.bus 1 0] ∧ t.aregs = s.aregs ∧
    t.ag = s.ag) ∧
  (∀ (s : State) (a : Nat) (v : Word), s.ag.porst = false → a < 2 ^ 32 → a % 8 = 0 → s.agPageExists a = true → hasLocal a = false → ∃ t, exec
    (.agentTargetWrite a v) s = .next t ∧ Within [.regs, .aregs, .agTime, .ports, .agPorts, .flt, .agFlt, .ag, .out] s t ∧ t.out = s.out ++ [.bus 2 0]
    ∧ t.aregs = s.aregs ∧ t.ag = s.ag) ∧
  (∀ (s : State) (v : Word), s.ag.porst = false → s.isLeaf = false → s.ard (PG_LOCK_LOCK 0x00600000) = 0 → s.handleNamed = false → ∃ t, exec
    (.agentTargetWrite 0x006001D8 v) s = .next t ∧ Within [.regs, .aregs, .agTime, .ports, .agPorts, .flt, .agFlt, .ag, .out] s t ∧ t.ag.hbase = tset
    s.ag.hbase (s.ard Ia.TTB_HSEL_HANDLE) (v.toNat / 64 * 64) ∧ t.out = s.out ++ [.bus 0 0] ∧ t.aregs = s.aregs) ∧
  (∀ (s : State) (v : Word), s.ag.porst = false → s.isLeaf = false → s.handleNamed = true → ∃ t, exec (.agentTargetWrite 0x006001D8 v) s = .next t ∧
    Within [.regs, .aregs, .agTime, .ports, .agPorts, .flt, .agFlt, .ag, .out] s t ∧ t.out = s.out ++ [.bus 3 0] ∧ t.aregs = s.aregs ∧ t.ag = s.ag) ∧
  (∀ (s : State) (x : Cell), (s.ag.porst = true ∨ s.aon GEN_FID_VALID = false) → ∃ t, exec (.mreqRead x) s = .next t ∧ Within [.regs, .aregs, .time,
    .agTime, .ports, .agPorts, .replays, .route, .agRoute, .ttbs, .agents, .insts, .tile, .hbm, .ctxs, .rot, .beyjo, .flt, .agFlt, .rst, .pair, .boot,
    .pwr, .ag, .out, .freeCtr] s t ∧ t = s) ∧
  (∀ (s : State) (x : Cell), s.ag.porst = false → s.aon GEN_FID_VALID = true → s.epochGood .agent x = false → ∃ t, exec (.mreqRead x) s = .next t ∧
    Within [.regs, .aregs, .time, .agTime, .ports, .agPorts, .replays, .route, .agRoute, .ttbs, .agents, .insts, .tile, .hbm, .ctxs, .rot, .beyjo,
    .flt, .agFlt, .rst, .pair, .boot, .pwr, .ag, .out, .freeCtr] s t ∧ t = s.discard .agent 0 x rEPOCH) ∧
  (∀ (s : State) (x : Cell), s.ag.porst = false → s.aon GEN_FID_VALID = true → s.epochGood .agent x = true → x.src % 256 < 0xFE → ∃ t, exec (.mreqRead
    x) s = .next t ∧ Within [.regs, .aregs, .time, .agTime, .ports, .agPorts, .replays, .route, .agRoute, .ttbs, .agents, .insts, .tile, .hbm, .ctxs,
    .rot, .beyjo, .flt, .agFlt, .rst, .pair, .boot, .pwr, .ag, .out, .freeCtr] s t ∧ t = s.mrsp x [bits (cellWord x 0) 63 52 * 2 ^ 52 + stROLE * 2 ^
    40, bits (cellWord x 1) 31 0] ∧ t.ag = s.ag) ∧
  (∀ (s : State) (x : Cell) (l : List Word), s.ag.porst = false → s.aon GEN_FID_VALID = true → s.epochGood .agent x = true → 0xFE ≤ x.src % 256 →
    s.replayOf x.src x.seq = some l → ∃ t, exec (.mreqRead x) s = .next t ∧ Within [.regs, .aregs, .time, .agTime, .ports, .agPorts, .replays, .route,
    .agRoute, .ttbs, .agents, .insts, .tile, .hbm, .ctxs, .rot, .beyjo, .flt, .agFlt, .rst, .pair, .boot, .pwr, .ag, .out, .freeCtr] s t ∧ t = s.mrsp
    x (l.map (·.toNat)) ∧ t.ag = s.ag) ∧
  (∀ (s : State) (x : Cell), s.ag.porst = false → s.aon GEN_FID_VALID = true → s.epochGood .agent x = true → 0xFE ≤ x.src % 256 → s.replayOf x.src
    x.seq = none → ∃ t, exec (.mreqRead x) s = .next t ∧ Within [.regs, .aregs, .time, .agTime, .ports, .agPorts, .replays, .route, .agRoute, .ttbs,
    .agents, .insts, .tile, .hbm, .ctxs, .rot, .beyjo, .flt, .agFlt, .rst, .pair, .boot, .pwr, .ag, .out, .freeCtr] s t ∧ (t = ((s.mreqRun
    x).2.keepAnswer x.src x.seq ((List.range 6).map fun i => word (nth (s.mreqRun x).1 i))).mrsp x (s.mreqRun x).1) ∧ (t.replayOf x.src x.seq).isSome
    = true) ∧
  (∀ (s : State) (x : Cell), (s.ag.porst = true ∨ s.aon GEN_FID_VALID = false) → ∃ t, exec (.mreqWrite x) s = .next t ∧ Within [.regs, .aregs, .time,
    .agTime, .ports, .agPorts, .replays, .route, .agRoute, .ttbs, .agents, .insts, .tile, .hbm, .ctxs, .rot, .beyjo, .flt, .agFlt, .rst, .pair, .boot,
    .pwr, .ag, .out, .freeCtr] s t ∧ t = s) ∧
  (∀ (s : State) (x : Cell), s.ag.porst = false → s.aon GEN_FID_VALID = true → s.epochGood .agent x = false → ∃ t, exec (.mreqWrite x) s = .next t ∧
    Within [.regs, .aregs, .time, .agTime, .ports, .agPorts, .replays, .route, .agRoute, .ttbs, .agents, .insts, .tile, .hbm, .ctxs, .rot, .beyjo,
    .flt, .agFlt, .rst, .pair, .boot, .pwr, .ag, .out, .freeCtr] s t ∧ t = s.discard .agent 0 x rEPOCH) ∧
  (∀ (s : State) (x : Cell), s.ag.porst = false → s.aon GEN_FID_VALID = true → s.epochGood .agent x = true → x.src % 256 < 0xFE → ∃ t, exec
    (.mreqWrite x) s = .next t ∧ Within [.regs, .aregs, .time, .agTime, .ports, .agPorts, .replays, .route, .agRoute, .ttbs, .agents, .insts, .tile,
    .hbm, .ctxs, .rot, .beyjo, .flt, .agFlt, .rst, .pair, .boot, .pwr, .ag, .out, .freeCtr] s t ∧ t = s.mrsp x [bits (cellWord x 0) 63 52 * 2 ^ 52 +
    stROLE * 2 ^ 40, bits (cellWord x 1) 31 0] ∧ t.ag = s.ag) ∧
  (∀ (s : State) (x : Cell) (l : List Word), s.ag.porst = false → s.aon GEN_FID_VALID = true → s.epochGood .agent x = true → 0xFE ≤ x.src % 256 →
    s.replayOf x.src x.seq = some l → ∃ t, exec (.mreqWrite x) s = .next t ∧ Within [.regs, .aregs, .time, .agTime, .ports, .agPorts, .replays,
    .route, .agRoute, .ttbs, .agents, .insts, .tile, .hbm, .ctxs, .rot, .beyjo, .flt, .agFlt, .rst, .pair, .boot, .pwr, .ag, .out, .freeCtr] s t ∧ t =
    s.mrsp x (l.map (·.toNat)) ∧ t.ag = s.ag) ∧
  (∀ (s : State) (x : Cell), s.ag.porst = false → s.aon GEN_FID_VALID = true → s.epochGood .agent x = true → 0xFE ≤ x.src % 256 → s.replayOf x.src
    x.seq = none → ∃ t, exec (.mreqWrite x) s = .next t ∧ Within [.regs, .aregs, .time, .agTime, .ports, .agPorts, .replays, .route, .agRoute, .ttbs,
    .agents, .insts, .tile, .hbm, .ctxs, .rot, .beyjo, .flt, .agFlt, .rst, .pair, .boot, .pwr, .ag, .out, .freeCtr] s t ∧ (t = ((s.mreqRun
    x).2.keepAnswer x.src x.seq ((List.range 6).map fun i => word (nth (s.mreqRun x).1 i))).mrsp x (s.mreqRun x).1) ∧ (t.replayOf x.src x.seq).isSome
    = true)

/-- A step takes the command at the front of the queue and runs it on the state with the rest of the queue; an empty queue idles
(the idling is the model's choice, log entry 1), and the opcode table gives no row bits, so no table word spells a command. -/
def Obligations.StepRunsFront : Prop :=
  (∀ (s : State) (c : Instr) (q : List Instr), s.pending = c :: q → step s = exec c { s with pending := q }) ∧
  (∀ s : State, s.pending = [] → step s = .next s) ∧
  (∀ (s : State) (nbits w : Nat), decodeTableWord nbits w = none ∧ s.withFetchWord nbits w = s)

/-- After reset: the values that the register tables and the chapters give (R58, R128, R154, R269, R354, R356, R375, R411, R440), an
empty queue, and a sound state. -/
def Obligations.ResetState : Prop :=
  State.reset.Sound ∧ State.reset.pending = [] ∧ State.reset.out = [] ∧
  (∀ c < 16, State.reset.ctxState c = 0 ∧ State.reset.ttbState c = 0 ∧ State.reset.rd (TTB_STEP_COMMITTED (ttbPg c)) = 2 ^ 32 - 1) ∧
  State.reset.rd PAR_STAT_ROLE = 0 ∧ State.reset.rd PAR_TIMING_GUARD_MS = 4 ∧ State.reset.rd PAR_TIMING_LEASE_MS = 50 ∧
  State.reset.rd PAR_TIMING_RENEW_MS = 8 ∧ State.reset.rd PAR_TIMING_SYNC_MS = 100 ∧
  State.reset.rd TMK_CTRL_ENABLE = 0 ∧ State.reset.rd TMK_STAT_STATE = 0 ∧ State.reset.rd TMK_PERIOD_PERIOD_NS = 512 ∧
  State.reset.rd RTE_FLIP_DRAIN_BEATS = 64 ∧ State.reset.rd RTE_FLIP_PREP_MS = 100 ∧ State.reset.rd RTE_LIMIT_SAFE_BEATS = 3907 ∧
  State.reset.rd RTE_LIMIT_FLIP_LIMIT = 2929 ∧ State.reset.rd GEN_MODE_HOST = 0 ∧
  State.reset.rd JIG_ARM_ARM = 0 ∧ State.reset.rd JIG_ARM_TIMEOUT_S = 60 ∧ State.reset.flt.nextSerial = 1 ∧ State.reset.flt.first = none ∧
  State.reset.beyjo.sessions = [] ∧ State.reset.rot.sessions = [] ∧ State.reset.rot.records = []

/-- Every command, in every state, answers a next state, and what it reaches is the list that `reach` gives its row: every other part
of the state, and the waiting commands, are what they were; the outbox keeps what it held. -/
def Obligations.EveryCommandCompletes : Prop :=
  ∀ (c : Instr) (s : State), ∃ t, exec c s = .next t ∧ Within (reach c) s t

/-- Every step from a sound state gives a sound state: both register stores stay sorted, every memory in its canonical form, and the
unit keeps its 96 ports, 16 executors and 16 contexts (R19, R266, R465). The queue loses its front, what was sent stays sent, and
free values are only taken. -/
def Obligations.StepKeepsSound : Prop :=
  ∀ s : State, s.Sound → ∃ t, step s = .next t ∧ t.Sound ∧ t.pending = s.pending.tail ∧ s.out <+: t.out ∧ s.freeCtr ≤ t.freeCtr

/-- The commands run first in, first out: after n steps from a sound state the first n commands are gone, the state is sound, and a
queue made of two lists runs the second on what the first left. -/
def Obligations.CommandsRunInOrder : Prop :=
  (∀ (n : Nat) (s : State), s.Sound → ∃ t, core.run n s = .next t ∧ t.Sound ∧ t.pending = s.pending.drop n ∧ s.out <+: t.out) ∧
  (∀ (s : State) (p q : List Instr), ∃ t, core.run p.length { s with pending := p ++ q } = .next t ∧ t.pending = q ∧
    core.run (p.length + q.length) { s with pending := p ++ q } = core.run q.length t)

/-- CREDIT and SENT counts are cumulative modulo 2^14 (R82): a CREDIT word adds (new − last) mod 2^14 to the credits of each VC, and a
port that missed a word holds, after the next one, what it would hold had both arrived. -/
def Obligations.CountsAreCumulative : Prop :=
  (∀ (s : State) (d : Site) (p : Nat) (w : Word), p < (s.portsS d).length → ∃ t, exec (.creditWord d p w) s = .next t ∧
    (∀ i < 4, nth (t.port d p).lastCredit i = nth (countsOf w.toNat) i ∧ nth (t.port d p).credits i =
      nth (s.port d p).credits i + (nth (countsOf w.toNat) i + 2 ^ 14 - nth (s.port d p).lastCredit i) % 2 ^ 14)) ∧
  (∀ (s : State) (d : Site) (p : Nat) (v w : Word), p < (s.portsS d).length → (∀ i < 4, nth (s.port d p).lastCredit i < 2 ^ 14) →
    (∀ i < 4, (nth (countsOf v.toNat) i + 2 ^ 14 - nth (s.port d p).lastCredit i) % 2 ^ 14 +
      (nth (countsOf w.toNat) i + 2 ^ 14 - nth (countsOf v.toNat) i) % 2 ^ 14 < 2 ^ 14) →
    ∃ t u r, exec (.creditWord d p v) s = .next t ∧ exec (.creditWord d p w) t = .next u ∧ exec (.creditWord d p w) s = .next r ∧
      ∀ i < 4, nth (u.port d p).credits i = nth (r.port d p).credits i ∧ nth (u.port d p).lastCredit i = nth (r.port d p).lastCredit i) ∧
  (∀ (s : State) (d : Site) (p : Nat) (v w : Word), p < (s.portsS d).length → (∀ i < 4, nth (s.port d p).received i < 2 ^ 14) →
    ∃ t u r, exec (.sentWord d p v) s = .next t ∧ exec (.sentWord d p w) t = .next u ∧ exec (.sentWord d p w) s = .next r ∧
      ∀ i < 4, nth (u.port d p).freed i = nth (r.port d p).freed i ∧ nth (u.port d p).received i = nth (r.port d p).received i)

/-- Two accumulators merge by adding their integers, in 320 bits, and by ORing their flags; contributions and partial accumulators
give the same accumulator in every order (R165). -/
def Obligations.MergeInAnyOrder : Prop :=
  (∀ c d : Acc, (c.merge d).a = wrap320 (c.a + d.a) ∧ (c.merge d).nan = (c.nan || d.nan) ∧ (c.merge d).pinf = (c.pinf || d.pinf) ∧
    (c.merge d).ninf = (c.ninf || d.ninf) ∧ (c.merge d).nz = (c.nz || d.nz)) ∧
  (∀ (xs ys : List Acc), xs.Perm ys → xs.foldl Acc.merge Acc.zero = ys.foldl Acc.merge Acc.zero) ∧
  (∀ (xs ys : List Nat) (c : Acc), xs.Perm ys → xs.foldl Acc.add c = ys.foldl Acc.add c) ∧
  (∀ (xss : List (List Nat)), (xss.map fun xs => xs.foldl Acc.add Acc.zero).foldl Acc.merge Acc.zero = xss.flatten.foldl Acc.add Acc.zero)

/-- For each source the agent keeps the last 16 SEQ values with their answers; a repeated MREQ is answered with the stored MRSP and is
not executed again, so a field that reads clear is cleared once for each transaction (R474). -/
def Obligations.RepeatedRequestsAreNotExecuted : Prop :=
  (∀ (s : State) (x : Cell) (l : List Word), s.ag.porst = false → s.aon GEN_FID_VALID = true → s.epochGood .agent x = true →
    0xFE ≤ x.src % 256 → s.replayOf x.src x.seq = some l →
    (∃ t, exec (.mreqRead x) s = .next t ∧ t = s.mrsp x (l.map (·.toNat)) ∧ t.ag = s.ag) ∧
    (∃ t, exec (.mreqWrite x) s = .next t ∧ t = s.mrsp x (l.map (·.toNat)) ∧ t.ag = s.ag)) ∧
  (∀ (s : State) (x : Cell), s.ag.porst = false → s.aon GEN_FID_VALID = true → s.epochGood .agent x = true → 0xFE ≤ x.src % 256 →
    s.replayOf x.src x.seq = none →
    (∃ t, exec (.mreqRead x) s = .next t ∧ t.replayOf x.src x.seq = some ((List.range 6).map fun i => word (nth (s.mreqRun x).1 i))) ∧
    (∃ t, exec (.mreqWrite x) s = .next t ∧ t.replayOf x.src x.seq = some ((List.range 6).map fun i => word (nth (s.mreqRun x).1 i)))) ∧
  (∀ (s : State) (f n : Nat) (ws : List Word) (l : List (Nat × List Word)), s.ag.replay.find? (fun e => e.1 == f) = some (f, l) →
    l.length ≤ 16 → (s.keepAnswer f n ws).ag.replay.find? (fun e => e.1 == f) = some (f, l.drop (l.length - 15) ++ [(n, ws)]) ∧
      (l.drop (l.length - 15) ++ [(n, ws)]).length ≤ 16) ∧
  (∀ (s : State) (f g n : Nat) (ws : List Word), g ≠ f →
    (s.keepAnswer f n ws).ag.replay.find? (fun e => e.1 == g) = s.ag.replay.find? (fun e => e.1 == g))
end

