-- ==== Sys2Proof/Laws/Store.lean ====
section
/-! SUPPORT. Read after write in tables and memories, and the canonical form of a memory, which every memory operation keeps. -/

namespace Sys2Proof.Machine

variable {α : Type}

/-! ### Read after write -/

theorem kget_kput_same (t : List (Nat × α)) (k : Nat) (v d : α) : kget (kput t k v) k d = v := by
  induction t with
  | nil => simp [kput, kget]
  | cons a t ih =>
    obtain ⟨k', w⟩ := a
    simp only [kput]
    split
    · simp [kget]
    · split
      · simp [kget]
      · rename_i h
        simp [kget, h, ih]

theorem kget_kput_other (t : List (Nat × α)) {k k' : Nat} (h : k' ≠ k) (v d : α) : kget (kput t k v) k' d = kget t k' d := by
  induction t with
  | nil => simp [kput, kget, h.symm]
  | cons a t ih =>
    obtain ⟨x, w⟩ := a
    simp only [kput]
    split
    · simp [kget, h.symm]
    · split
      · rename_i hx
        subst hx
        simp [kget, h.symm]
      · simp [kget, ih]

theorem kget_kdel_same (t : List (Nat × α)) (k : Nat) (d : α) : kget (kdel t k) k d = d := by
  induction t with
  | nil => rfl
  | cons a t ih =>
    obtain ⟨x, w⟩ := a
    simp only [kdel]
    split
    · exact ih
    · rename_i h
      simp [kget, h, ih]

theorem kget_kdel_other (t : List (Nat × α)) {k k' : Nat} (h : k' ≠ k) (d : α) : kget (kdel t k) k' d = kget t k' d := by
  induction t with
  | nil => rfl
  | cons a t ih =>
    obtain ⟨x, w⟩ := a
    simp only [kdel]
    split
    · rename_i hx
      subst hx
      simp [kget, h.symm, ih]
    · simp [kget, ih]

variable [DecidableEq α]

/-- What was set is read. -/
@[simp] theorem kget_kset_same (t : List (Nat × α)) (k : Nat) (v d : α) : kget (kset t k v d) k d = v := by
  unfold kset
  split
  · rename_i h
    rw [kget_kdel_same, h]
  · exact kget_kput_same ..

/-- Another key reads as before. -/
theorem kget_kset_other (t : List (Nat × α)) {k k' : Nat} (h : k' ≠ k) (v d d' : α) : kget (kset t k v d) k' d' = kget t k' d' := by
  unfold kset
  split
  · exact kget_kdel_other t h d'
  · exact kget_kput_other t h v d'

/-! ### The canonical form -/

theorem kwf_weaken {d : α} {t : List (Nat × α)} {lo lo' : Nat} (h : kwf d (some lo) t = true) (g : lo' ≤ lo) : kwf d (some lo') t = true := by
  cases t with
  | nil => rfl
  | cons a t =>
    obtain ⟨k, v⟩ := a
    simp only [kwf, Bool.and_eq_true, decide_eq_true_eq] at h ⊢
    exact ⟨⟨by omega, h.1.2⟩, h.2⟩

theorem kwf_none {d : α} {t : List (Nat × α)} {lo : Nat} (h : kwf d (some lo) t = true) : kwf d none t = true := by
  cases t with
  | nil => rfl
  | cons a t =>
    obtain ⟨k, v⟩ := a
    simp only [kwf, Bool.and_eq_true, decide_eq_true_eq, Bool.true_and] at h ⊢
    exact ⟨h.1.2, h.2⟩

/-- A bound, or none, that a key lies above. -/
def above (lo : Option Nat) (k : Nat) : Prop := ∀ l, lo = some l → l < k

theorem kwf_cons {d : α} {lo : Option Nat} {k : Nat} {v : α} {t : List (Nat × α)} :
    kwf d lo ((k, v) :: t) = true ↔ above lo k ∧ v ≠ d ∧ kwf d (some k) t = true := by
  cases lo <;> simp [kwf, above, and_assoc]

theorem kput_wf {d : α} {t : List (Nat × α)} {lo : Option Nat} {k : Nat} {v : α} (h : kwf d lo t = true) (hk : above lo k) (hv : v ≠ d) :
    kwf d lo (kput t k v) = true := by
  induction t generalizing lo with
  | nil => exact kwf_cons.2 ⟨hk, hv, rfl⟩
  | cons a t ih =>
    obtain ⟨x, w⟩ := a
    obtain ⟨h1, h2, h3⟩ := kwf_cons.1 h
    simp only [kput]
    split
    · rename_i hx
      refine kwf_cons.2 ⟨hk, hv, kwf_cons.2 ⟨?_, h2, h3⟩⟩
      intro l e
      cases e
      exact hx
    · split
      · rename_i hx
        subst hx
        exact kwf_cons.2 ⟨hk, hv, h3⟩
      · refine kwf_cons.2 ⟨h1, h2, ih h3 ?_⟩
        intro l e
        cases e
        omega

theorem kwf_lower {d : α} {t : List (Nat × α)} {lo : Option Nat} {k : Nat} (h : kwf d (some k) t = true) (g : above lo k) :
    kwf d lo t = true := by
  cases lo with
  | none => exact kwf_none h
  | some l => exact kwf_weaken h (Nat.le_of_lt (g l rfl))

theorem kdel_wf {d : α} {t : List (Nat × α)} {lo : Option Nat} (h : kwf d lo t = true) (k : Nat) : kwf d lo (kdel t k) = true := by
  induction t generalizing lo with
  | nil => rfl
  | cons a t ih =>
    obtain ⟨x, w⟩ := a
    obtain ⟨h1, h2, h3⟩ := kwf_cons.1 h
    simp only [kdel]
    split
    · exact ih (kwf_lower h3 h1)
    · exact kwf_cons.2 ⟨h1, h2, ih h3⟩

theorem filter_wf {d : α} {t : List (Nat × α)} {lo : Option Nat} (h : kwf d lo t = true) (p : Nat × α → Bool) : kwf d lo (t.filter p) = true := by
  induction t generalizing lo with
  | nil => rfl
  | cons a t ih =>
    obtain ⟨x, w⟩ := a
    obtain ⟨h1, h2, h3⟩ := kwf_cons.1 h
    simp only [List.filter_cons]
    split
    · exact kwf_cons.2 ⟨h1, h2, ih h3⟩
    · exact ih (kwf_lower h3 h1)

theorem kset_wf {d : α} {t : List (Nat × α)} (h : kwf d none t = true) (k : Nat) (v : α) : kwf d none (kset t k v d) = true := by
  unfold kset
  split
  · exact kdel_wf h k
  · rename_i hv
    exact kput_wf h (fun _ e => by cases e) hv

/-! ### Memories -/

@[simp] theorem mget_mset_same (m : Mem) (a : Nat) (b : Byte) : mget (mset m a b) a = b := kget_kset_same ..

theorem mget_mset_other (m : Mem) {a a' : Nat} (h : a' ≠ a) (b : Byte) : mget (mset m a b) a' = mget m a' := kget_kset_other m h ..

theorem mset_wf {m : Mem} (h : Mem.wf m) (a : Nat) (b : Byte) : Mem.wf (mset m a b) := kset_wf h a b

theorem mwrite_wf {m : Mem} (h : Mem.wf m) (a : Nat) (bs : List Byte) : Mem.wf (mwrite m a bs) := by
  induction bs generalizing m a with
  | nil => exact h
  | cons b bs ih => exact ih (mset_wf h a b) (a + 1)

theorem mwordPut_wf {m : Mem} (h : Mem.wf m) (a v : Nat) : Mem.wf (mwordPut m a v) := mwrite_wf h a _

theorem mzero_wf {m : Mem} (h : Mem.wf m) (a b : Nat) : Mem.wf (mzero m a b) := filter_wf h _

/-- A byte outside the written ones reads as before. -/
theorem mget_mwrite_other (m : Mem) (a a' : Nat) (bs : List Byte) (h : a' < a ∨ a + bs.length ≤ a') : mget (mwrite m a bs) a' = mget m a' := by
  induction bs generalizing m a with
  | nil => rfl
  | cons b bs ih =>
    simp only [List.length_cons] at h
    show mget (mwrite (mset m a b) (a + 1) bs) a' = _
    rw [ih _ _ (by omega), mget_mset_other m (by omega)]

/-- A written byte is read. -/
theorem mget_mwrite_same (m : Mem) (a i : Nat) (bs : List Byte) (h : i < bs.length) : mget (mwrite m a bs) (a + i) = bs[i] := by
  induction bs generalizing m a i with
  | nil => simp at h
  | cons b bs ih =>
    show mget (mwrite (mset m a b) (a + 1) bs) (a + i) = _
    cases i with
    | zero => simpa using (mget_mwrite_other (mset m a b) (a + 1) a bs (by omega)).trans (mget_mset_same ..)
    | succ i => simpa [Nat.add_assoc, Nat.add_comm 1 i] using ih (mset m a b) (a + 1) i (by simpa using h)

end Sys2Proof.Machine
end

