-- ==== Sys2Proof/Laws/Within.lean ====
section
/-! SUPPORT. `Within` passes through the forms in which meanings are written, and through every update of one part of the state. -/

namespace Sys2Proof.Machine

theorem Kept.refl (s : State) : Kept s s := ⟨id, rfl, List.prefix_refl _, Nat.le_refl _⟩

theorem Kept.trans {s t u : State} (h : Kept s t) (g : Kept t u) : Kept s u :=
  ⟨g.sound ∘ h.sound, g.queue.trans h.queue, h.sent.trans g.sent, h.free.trans g.free⟩

theorem Area.same_refl (s : State) (p : Area) : p.same s s := by cases p <;> rfl

theorem Area.same_trans {s t u : State} {p : Area} (h : p.same s t) (g : p.same t u) : p.same s u := by
  cases p <;> exact Eq.trans g h

theorem Within.refl (ps : List Area) (s : State) : Within ps s s := ⟨Kept.refl s, fun p _ => Area.same_refl s p⟩

theorem Within.trans {ps : List Area} {s t u : State} (h : Within ps s t) (g : Within ps t u) : Within ps s u :=
  ⟨h.kept.trans g.kept, fun p hp => Area.same_trans (h.same p hp) (g.same p hp)⟩

theorem Within.mono {ps qs : List Area} {s t : State} (h : Within ps s t) (g : ∀ p ∈ ps, p ∈ qs) : Within qs s t :=
  ⟨h.kept, fun p hp => h.same p fun k => hp (g p k)⟩

/-! ### Forms -/

theorem Within.ite {A : List Area} {s t u : State} {c : Prop} [Decidable c] (h : Within A s t) (g : Within A s u) :
    Within A s (if c then t else u) := by
  split <;> assumption

theorem Within.foldl {A : List Area} {α : Type} {s t : State} {f : State → α → State} {l : List α} (h : Within A s t)
    (g : ∀ u x, Within A s u → Within A s (f u x)) : Within A s (l.foldl f t) := by
  induction l generalizing t with
  | nil => exact h
  | cons x l ih => exact ih (g t x h)

theorem Within.foldlPair {A : List Area} {α β : Type} {s : State} {t : β × State} {f : β × State → α → β × State} {l : List α}
    (h : Within A s t.2) (g : ∀ u x, Within A s u.2 → Within A s (f u x).2) : Within A s (l.foldl f t).2 := by
  induction l generalizing t with
  | nil => exact h
  | cons x l ih => exact ih (g t x h)

theorem Within.letS (A : List Area) (s : State) {a : State} {P : State → Prop} (h : Within A s a)
    (g : ∀ q : State, (Within A s q) → P q) : (let q := a; P q) := g a h

theorem Within.letP (A : List Area) (s : State) {α : Type} {a : α × State} {P : (α × State) → Prop} (h : Within A s a.2)
    (g : ∀ q : α × State, (Within A s q.2) → P q) : (let q := a; P q) := g a h

theorem Within.letQ (A : List Area) (s : State) {α α₂ : Type} {a : α × α₂ × State} {P : (α × α₂ × State) → Prop} (h : Within A s a.2.2)
    (g : ∀ q : α × α₂ × State, (Within A s q.2.2) → P q) : (let q := a; P q) := g a h

theorem Within.letF (A : List Area) (s : State) {a : State → State} {P : (State → State) → Prop} (h : ∀ u, Within A s u → Within A s (a u))
    (g : ∀ q : State → State, (∀ u, Within A s u → Within A s (q u)) → P q) : (let q := a; P q) := g a h

theorem Within.letK (A : List Area) (s : State) {α : Type} {a : State → α → State} {P : (State → α → State) → Prop} (h : ∀ u x, Within A s u → Within A s (a u x))
    (g : ∀ q : State → α → State, (∀ u x, Within A s u → Within A s (q u x)) → P q) : (let q := a; P q) := g a h

theorem Within.letG (A : List Area) (s : State) {α : Type} {a : α → State → State} {P : (α → State → State) → Prop} (h : ∀ x u, Within A s u → Within A s (a x u))
    (g : ∀ q : α → State → State, (∀ x u, Within A s u → Within A s (q x u)) → P q) : (let q := a; P q) := g a h

theorem Within.letF1x (A : List Area) (s : State) {α : Type} {a : State → α × State} {P : (State → α × State) → Prop} (h : ∀ u, Within A s u → Within A s (a u).2)
    (g : ∀ q : State → α × State, (∀ u, Within A s u → Within A s (q u).2) → P q) : (let q := a; P q) := g a h

theorem Within.letH (A : List Area) (s : State) {α : Type} {a : α → State} {P : (α → State) → Prop} (h : ∀ x, Within A s (a x))
    (g : ∀ q : α → State, (∀ x, Within A s (q x)) → P q) : (let q := a; P q) := g a h

theorem Within.letV {α : Type} {a : α} {P : α → Prop} (g : ∀ q : α, P q) : (let q := a; P q) := g a

/-- What a meaning answers: a next state within the given parts. -/
def Out.within (A : List Area) (s : State) : Out → Prop
  | .next t => Within A s t
  | _ => True

/-! ### Sorted tables -/

theorem kput_mem {t : Table} {k v : Nat} {e : Nat × Nat} (h : e ∈ kput t k v) : e = (k, v) ∨ e ∈ t := by
  induction t with
  | nil => simpa [kput] using h
  | cons a t ih =>
    obtain ⟨k', w⟩ := a
    simp only [kput] at h
    split at h
    · simpa using h
    · split at h
      · simp only [List.mem_cons] at h ⊢; tauto
      · simp only [List.mem_cons] at h ⊢
        rcases h with h | h
        · tauto
        · rcases ih h with h | h <;> tauto

theorem kput_sorted {t : Table} (h : Table.sorted t) (k v : Nat) : Table.sorted (kput t k v) := by
  unfold Table.sorted at *
  induction t with
  | nil => simp [kput]
  | cons a t ih =>
    obtain ⟨k', w⟩ := a
    rw [List.pairwise_cons] at h
    simp only [kput]
    split
    · rename_i hk
      refine List.pairwise_cons.2 ⟨?_, List.pairwise_cons.2 h⟩
      intro e he
      rcases List.mem_cons.1 he with rfl | he
      · exact hk
      · exact Nat.lt_trans hk (h.1 e he)
    · split
      · rename_i _ hk
        subst hk
        exact List.pairwise_cons.2 ⟨h.1, h.2⟩
      · rename_i h1 h2
        refine List.pairwise_cons.2 ⟨?_, ih h.2⟩
        intro e he
        rcases kput_mem he with rfl | he
        · show k' < k
          omega
        · exact h.1 e he

theorem kdel_mem {t : Table} {k : Nat} {e : Nat × Nat} (h : e ∈ kdel t k) : e ∈ t := by
  induction t with
  | nil => simp [kdel] at h
  | cons a t ih =>
    obtain ⟨k', w⟩ := a
    simp only [kdel] at h
    split at h
    · exact List.mem_cons_of_mem _ (ih h)
    · rcases List.mem_cons.1 h with h | h
      · simp [h]
      · exact List.mem_cons_of_mem _ (ih h)

theorem kdel_sorted {t : Table} (h : Table.sorted t) (k : Nat) : Table.sorted (kdel t k) := by
  unfold Table.sorted at *
  induction t with
  | nil => simp [kdel]
  | cons a t ih =>
    obtain ⟨k', w⟩ := a
    rw [List.pairwise_cons] at h
    simp only [kdel]
    split
    · exact ih h.2
    · exact List.pairwise_cons.2 ⟨fun e he => h.1 e (kdel_mem he), ih h.2⟩

theorem kset_sorted {t : Table} (h : Table.sorted t) (k v d : Nat) : Table.sorted (kset t k v d) := by
  unfold kset
  split
  · exact kdel_sorted h k
  · exact kput_sorted h k v

theorem filter_sorted {t : Table} (h : Table.sorted t) (p : Nat × Nat → Bool) : Table.sorted (t.filter p) :=
  List.Pairwise.sublist List.filter_sublist h

theorem tdrop_sorted {t : Table} (h : Table.sorted t) (p : Nat → Bool) : Table.sorted (tdrop p t) := filter_sorted h _

theorem kputs_sorted {t : Table} (h : Table.sorted t) (l : List (Nat × Nat)) :
    Table.sorted (l.foldl (fun t e => kput t e.1 e.2) t) := by
  induction l generalizing t with
  | nil => exact h
  | cons x l ih => exact ih (kput_sorted h x.1 x.2)

/-! ### Updates of one part of the state -/

theorem Within.regs {A : List Area} (a : .regs ∈ A) {s t : State} {x} (g : Table.sorted t.regs → Table.sorted x) (h : Within A s t) :
    Within A s { t with regs := x } :=
  ⟨⟨fun k => let b := h.kept.sound k; ⟨g b.regs, b.aregs, b.ports, b.agPorts, b.ttbs, b.ctxs, b.tile, b.hbm, b.pair, b.boot, b.ag⟩, h.kept.queue, h.kept.sent, h.kept.free⟩, fun p hp => by
    cases p <;> first | exact h.same _ hp | exact absurd a hp⟩

theorem Within.aregs {A : List Area} (a : .aregs ∈ A) {s t : State} {x} (g : Table.sorted t.aregs → Table.sorted x) (h : Within A s t) :
    Within A s { t with aregs := x } :=
  ⟨⟨fun k => let b := h.kept.sound k; ⟨b.regs, g b.aregs, b.ports, b.agPorts, b.ttbs, b.ctxs, b.tile, b.hbm, b.pair, b.boot, b.ag⟩, h.kept.queue, h.kept.sent, h.kept.free⟩, fun p hp => by
    cases p <;> first | exact h.same _ hp | exact absurd a hp⟩

theorem Within.time {A : List Area} (a : .time ∈ A) {s t : State} {x}  (h : Within A s t) :
    Within A s { t with time := x } :=
  ⟨⟨fun k => let b := h.kept.sound k; ⟨b.regs, b.aregs, b.ports, b.agPorts, b.ttbs, b.ctxs, b.tile, b.hbm, b.pair, b.boot, b.ag⟩, h.kept.queue, h.kept.sent, h.kept.free⟩, fun p hp => by
    cases p <;> first | exact h.same _ hp | exact absurd a hp⟩

theorem Within.agTime {A : List Area} (a : .agTime ∈ A) {s t : State} {x}  (h : Within A s t) :
    Within A s { t with agTime := x } :=
  ⟨⟨fun k => let b := h.kept.sound k; ⟨b.regs, b.aregs, b.ports, b.agPorts, b.ttbs, b.ctxs, b.tile, b.hbm, b.pair, b.boot, b.ag⟩, h.kept.queue, h.kept.sent, h.kept.free⟩, fun p hp => by
    cases p <;> first | exact h.same _ hp | exact absurd a hp⟩

theorem Within.ports {A : List Area} (a : .ports ∈ A) {s t : State} {x} (g : x.length = t.ports.length) (h : Within A s t) :
    Within A s { t with ports := x } :=
  ⟨⟨fun k => let b := h.kept.sound k; ⟨b.regs, b.aregs, g.trans b.ports, b.agPorts, b.ttbs, b.ctxs, b.tile, b.hbm, b.pair, b.boot, b.ag⟩, h.kept.queue, h.kept.sent, h.kept.free⟩, fun p hp => by
    cases p <;> first | exact h.same _ hp | exact absurd a hp⟩

theorem Within.agPorts {A : List Area} (a : .agPorts ∈ A) {s t : State} {x} (g : t.agPorts.length = 64 → x.length = 64) (h : Within A s t) :
    Within A s { t with agPorts := x } :=
  ⟨⟨fun k => let b := h.kept.sound k; ⟨b.regs, b.aregs, b.ports, g b.agPorts, b.ttbs, b.ctxs, b.tile, b.hbm, b.pair, b.boot, b.ag⟩, h.kept.queue, h.kept.sent, h.kept.free⟩, fun p hp => by
    cases p <;> first | exact h.same _ hp | exact absurd a hp⟩

theorem Within.replays {A : List Area} (a : .replays ∈ A) {s t : State} {x}  (h : Within A s t) :
    Within A s { t with replays := x } :=
  ⟨⟨fun k => let b := h.kept.sound k; ⟨b.regs, b.aregs, b.ports, b.agPorts, b.ttbs, b.ctxs, b.tile, b.hbm, b.pair, b.boot, b.ag⟩, h.kept.queue, h.kept.sent, h.kept.free⟩, fun p hp => by
    cases p <;> first | exact h.same _ hp | exact absurd a hp⟩

theorem Within.route {A : List Area} (a : .route ∈ A) {s t : State} {x}  (h : Within A s t) :
    Within A s { t with route := x } :=
  ⟨⟨fun k => let b := h.kept.sound k; ⟨b.regs, b.aregs, b.ports, b.agPorts, b.ttbs, b.ctxs, b.tile, b.hbm, b.pair, b.boot, b.ag⟩, h.kept.queue, h.kept.sent, h.kept.free⟩, fun p hp => by
    cases p <;> first | exact h.same _ hp | exact absurd a hp⟩

theorem Within.agRoute {A : List Area} (a : .agRoute ∈ A) {s t : State} {x}  (h : Within A s t) :
    Within A s { t with agRoute := x } :=
  ⟨⟨fun k => let b := h.kept.sound k; ⟨b.regs, b.aregs, b.ports, b.agPorts, b.ttbs, b.ctxs, b.tile, b.hbm, b.pair, b.boot, b.ag⟩, h.kept.queue, h.kept.sent, h.kept.free⟩, fun p hp => by
    cases p <;> first | exact h.same _ hp | exact absurd a hp⟩

theorem Within.ttbs {A : List Area} (a : .ttbs ∈ A) {s t : State} {x} (g : t.ttbs.length = 16 → x.length = 16) (h : Within A s t) :
    Within A s { t with ttbs := x } :=
  ⟨⟨fun k => let b := h.kept.sound k; ⟨b.regs, b.aregs, b.ports, b.agPorts, g b.ttbs, b.ctxs, b.tile, b.hbm, b.pair, b.boot, b.ag⟩, h.kept.queue, h.kept.sent, h.kept.free⟩, fun p hp => by
    cases p <;> first | exact h.same _ hp | exact absurd a hp⟩

theorem Within.agents {A : List Area} (a : .agents ∈ A) {s t : State} {x}  (h : Within A s t) :
    Within A s { t with agents := x } :=
  ⟨⟨fun k => let b := h.kept.sound k; ⟨b.regs, b.aregs, b.ports, b.agPorts, b.ttbs, b.ctxs, b.tile, b.hbm, b.pair, b.boot, b.ag⟩, h.kept.queue, h.kept.sent, h.kept.free⟩, fun p hp => by
    cases p <;> first | exact h.same _ hp | exact absurd a hp⟩

theorem Within.insts {A : List Area} (a : .insts ∈ A) {s t : State} {x}  (h : Within A s t) :
    Within A s { t with insts := x } :=
  ⟨⟨fun k => let b := h.kept.sound k; ⟨b.regs, b.aregs, b.ports, b.agPorts, b.ttbs, b.ctxs, b.tile, b.hbm, b.pair, b.boot, b.ag⟩, h.kept.queue, h.kept.sent, h.kept.free⟩, fun p hp => by
    cases p <;> first | exact h.same _ hp | exact absurd a hp⟩

theorem Within.tile {A : List Area} (a : .tile ∈ A) {s t : State} {x} (g : TileSt.wf t.tile → TileSt.wf x) (h : Within A s t) :
    Within A s { t with tile := x } :=
  ⟨⟨fun k => let b := h.kept.sound k; ⟨b.regs, b.aregs, b.ports, b.agPorts, b.ttbs, b.ctxs, g b.tile, b.hbm, b.pair, b.boot, b.ag⟩, h.kept.queue, h.kept.sent, h.kept.free⟩, fun p hp => by
    cases p <;> first | exact h.same _ hp | exact absurd a hp⟩

theorem Within.hbm {A : List Area} (a : .hbm ∈ A) {s t : State} {x} (g : HbmSt.wf t.hbm → HbmSt.wf x) (h : Within A s t) :
    Within A s { t with hbm := x } :=
  ⟨⟨fun k => let b := h.kept.sound k; ⟨b.regs, b.aregs, b.ports, b.agPorts, b.ttbs, b.ctxs, b.tile, g b.hbm, b.pair, b.boot, b.ag⟩, h.kept.queue, h.kept.sent, h.kept.free⟩, fun p hp => by
    cases p <;> first | exact h.same _ hp | exact absurd a hp⟩

theorem Within.ctxs {A : List Area} (a : .ctxs ∈ A) {s t : State} {x} (g : x.length = t.ctxs.length) (h : Within A s t) :
    Within A s { t with ctxs := x } :=
  ⟨⟨fun k => let b := h.kept.sound k; ⟨b.regs, b.aregs, b.ports, b.agPorts, b.ttbs, g.trans b.ctxs, b.tile, b.hbm, b.pair, b.boot, b.ag⟩, h.kept.queue, h.kept.sent, h.kept.free⟩, fun p hp => by
    cases p <;> first | exact h.same _ hp | exact absurd a hp⟩

theorem Within.rot {A : List Area} (a : .rot ∈ A) {s t : State} {x}  (h : Within A s t) :
    Within A s { t with rot := x } :=
  ⟨⟨fun k => let b := h.kept.sound k; ⟨b.regs, b.aregs, b.ports, b.agPorts, b.ttbs, b.ctxs, b.tile, b.hbm, b.pair, b.boot, b.ag⟩, h.kept.queue, h.kept.sent, h.kept.free⟩, fun p hp => by
    cases p <;> first | exact h.same _ hp | exact absurd a hp⟩

theorem Within.beyjo {A : List Area} (a : .beyjo ∈ A) {s t : State} {x}  (h : Within A s t) :
    Within A s { t with beyjo := x } :=
  ⟨⟨fun k => let b := h.kept.sound k; ⟨b.regs, b.aregs, b.ports, b.agPorts, b.ttbs, b.ctxs, b.tile, b.hbm, b.pair, b.boot, b.ag⟩, h.kept.queue, h.kept.sent, h.kept.free⟩, fun p hp => by
    cases p <;> first | exact h.same _ hp | exact absurd a hp⟩

theorem Within.flt {A : List Area} (a : .flt ∈ A) {s t : State} {x}  (h : Within A s t) :
    Within A s { t with flt := x } :=
  ⟨⟨fun k => let b := h.kept.sound k; ⟨b.regs, b.aregs, b.ports, b.agPorts, b.ttbs, b.ctxs, b.tile, b.hbm, b.pair, b.boot, b.ag⟩, h.kept.queue, h.kept.sent, h.kept.free⟩, fun p hp => by
    cases p <;> first | exact h.same _ hp | exact absurd a hp⟩

theorem Within.agFlt {A : List Area} (a : .agFlt ∈ A) {s t : State} {x}  (h : Within A s t) :
    Within A s { t with agFlt := x } :=
  ⟨⟨fun k => let b := h.kept.sound k; ⟨b.regs, b.aregs, b.ports, b.agPorts, b.ttbs, b.ctxs, b.tile, b.hbm, b.pair, b.boot, b.ag⟩, h.kept.queue, h.kept.sent, h.kept.free⟩, fun p hp => by
    cases p <;> first | exact h.same _ hp | exact absurd a hp⟩

theorem Within.rst {A : List Area} (a : .rst ∈ A) {s t : State} {x}  (h : Within A s t) :
    Within A s { t with rst := x } :=
  ⟨⟨fun k => let b := h.kept.sound k; ⟨b.regs, b.aregs, b.ports, b.agPorts, b.ttbs, b.ctxs, b.tile, b.hbm, b.pair, b.boot, b.ag⟩, h.kept.queue, h.kept.sent, h.kept.free⟩, fun p hp => by
    cases p <;> first | exact h.same _ hp | exact absurd a hp⟩

theorem Within.pair {A : List Area} (a : .pair ∈ A) {s t : State} {x} (g : PairSt.wf t.pair → PairSt.wf x) (h : Within A s t) :
    Within A s { t with pair := x } :=
  ⟨⟨fun k => let b := h.kept.sound k; ⟨b.regs, b.aregs, b.ports, b.agPorts, b.ttbs, b.ctxs, b.tile, b.hbm, g b.pair, b.boot, b.ag⟩, h.kept.queue, h.kept.sent, h.kept.free⟩, fun p hp => by
    cases p <;> first | exact h.same _ hp | exact absurd a hp⟩

theorem Within.boot {A : List Area} (a : .boot ∈ A) {s t : State} {x} (g : BootSt.wf t.boot → BootSt.wf x) (h : Within A s t) :
    Within A s { t with boot := x } :=
  ⟨⟨fun k => let b := h.kept.sound k; ⟨b.regs, b.aregs, b.ports, b.agPorts, b.ttbs, b.ctxs, b.tile, b.hbm, b.pair, g b.boot, b.ag⟩, h.kept.queue, h.kept.sent, h.kept.free⟩, fun p hp => by
    cases p <;> first | exact h.same _ hp | exact absurd a hp⟩

theorem Within.pwr {A : List Area} (a : .pwr ∈ A) {s t : State} {x}  (h : Within A s t) :
    Within A s { t with pwr := x } :=
  ⟨⟨fun k => let b := h.kept.sound k; ⟨b.regs, b.aregs, b.ports, b.agPorts, b.ttbs, b.ctxs, b.tile, b.hbm, b.pair, b.boot, b.ag⟩, h.kept.queue, h.kept.sent, h.kept.free⟩, fun p hp => by
    cases p <;> first | exact h.same _ hp | exact absurd a hp⟩

theorem Within.ag {A : List Area} (a : .ag ∈ A) {s t : State} {x} (g : AgSt.wf t.ag → AgSt.wf x) (h : Within A s t) :
    Within A s { t with ag := x } :=
  ⟨⟨fun k => let b := h.kept.sound k; ⟨b.regs, b.aregs, b.ports, b.agPorts, b.ttbs, b.ctxs, b.tile, b.hbm, b.pair, b.boot, g b.ag⟩, h.kept.queue, h.kept.sent, h.kept.free⟩, fun p hp => by
    cases p <;> first | exact h.same _ hp | exact absurd a hp⟩

theorem Within.out {A : List Area} (a : .out ∈ A) {s t : State} {x} (g : t.out <+: x) (h : Within A s t) :
    Within A s { t with out := x } :=
  ⟨⟨fun k => let b := h.kept.sound k; ⟨b.regs, b.aregs, b.ports, b.agPorts, b.ttbs, b.ctxs, b.tile, b.hbm, b.pair, b.boot, b.ag⟩, h.kept.queue, h.kept.sent.trans g, h.kept.free⟩, fun p hp => by
    cases p <;> first | exact h.same _ hp | exact absurd a hp⟩

theorem Within.freeCtr {A : List Area} (a : .freeCtr ∈ A) {s t : State} {x} (g : t.freeCtr ≤ x) (h : Within A s t) :
    Within A s { t with freeCtr := x } :=
  ⟨⟨fun k => let b := h.kept.sound k; ⟨b.regs, b.aregs, b.ports, b.agPorts, b.ttbs, b.ctxs, b.tile, b.hbm, b.pair, b.boot, b.ag⟩, h.kept.queue, h.kept.sent, h.kept.free.trans g⟩, fun p hp => by
    cases p <;> first | exact h.same _ hp | exact absurd a hp⟩

end Sys2Proof.Machine
end

