-- ==== Sys2Proof/Laws/OpsWithin.lean ====
section
/-! SUPPORT. The parts of the state that the definitions of Machine/Ops.lean reach. -/

set_option linter.unreachableTactic false
set_option linter.unusedTactic false

namespace Sys2Proof.Machine

theorem Out.after_within {A : List Area} {s₀ s : State} (o : Out) (k : Out.within A s₀ o) (h₀ : Within A s₀ s) :
    Within A s₀ (Out.after o s) := by
  unfold Out.after
  split
  · exact k
  · exact h₀

theorem State.wr_within {A : List Area} (a0 : Area.regs ∈ A) {s₀ s : State} (f : Fld) (v : Nat) (h : Within A s₀ s) :
    Within A s₀ (State.wr s f v) := Within.regs a0 (fun k => kset_sorted k ..) h

theorem State.awr_within {A : List Area} (a0 : Area.aregs ∈ A) {s₀ s : State} (f : Fld) (v : Nat) (h : Within A s₀ s) :
    Within A s₀ (State.awr s f v) := Within.aregs a0 (fun k => kset_sorted k ..) h

theorem State.wrS_within {A : List Area} (a0 : Area.regs ∈ A) (a1 : Area.aregs ∈ A) {s₀ s : State} (d : Site) (f : Fld) (v : Nat) (h : Within A s₀ s) :
    Within A s₀ (State.wrS s d f v) := by
  cases d
  · exact State.wr_within a0 _ _ h
  · exact State.awr_within a1 _ _ h

theorem State.bump_within {A : List Area} (a0 : Area.regs ∈ A) {s₀ s : State} (f : Fld) (n : Nat) (h₀ : Within A s₀ s) :
    Within A s₀ (State.bump s f n) := by
  unfold State.bump
  repeat' first | with_reducible assumption | with_reducible apply State.wr_within

theorem State.abump_within {A : List Area} (a0 : Area.aregs ∈ A) {s₀ s : State} (f : Fld) (n : Nat) (h₀ : Within A s₀ s) :
    Within A s₀ (State.abump s f n) := by
  unfold State.abump
  repeat' first | with_reducible assumption | with_reducible apply State.awr_within

theorem State.bumpS_within {A : List Area} (a0 : Area.regs ∈ A) (a1 : Area.aregs ∈ A) {s₀ s : State} (d : Site) (f : Fld) (n : Nat) (h₀ : Within A s₀ s) :
    Within A s₀ (State.bumpS s d f n) := by
  unfold State.bumpS
  repeat' first | with_reducible assumption | with_reducible apply State.wrS_within

theorem State.atLeast_within {A : List Area} (a0 : Area.regs ∈ A) {s₀ s : State} (f : Fld) (v : Nat) (h₀ : Within A s₀ s) :
    Within A s₀ (State.atLeast s f v) := by
  unfold State.atLeast
  repeat' first | with_reducible assumption | with_reducible apply Within.ite | with_reducible apply State.wr_within | split

theorem State.setTime_within {A : List Area} (a0 : Area.time ∈ A) {s₀ s : State} (f : TimeSt → TimeSt) (h : Within A s₀ s) :
    Within A s₀ (State.setTime s f) := Within.time a0 h

theorem State.setAgTime_within {A : List Area} (a0 : Area.agTime ∈ A) {s₀ s : State} (f : AgTimeSt → AgTimeSt) (h : Within A s₀ s) :
    Within A s₀ (State.setAgTime s f) := Within.agTime a0 h

theorem State.setRoute_within {A : List Area} (a0 : Area.route ∈ A) {s₀ s : State} (f : RouteSt → RouteSt) (h : Within A s₀ s) :
    Within A s₀ (State.setRoute s f) := Within.route a0 h

theorem State.setAgRoute_within {A : List Area} (a0 : Area.agRoute ∈ A) {s₀ s : State} (f : AgRouteSt → AgRouteSt) (h : Within A s₀ s) :
    Within A s₀ (State.setAgRoute s f) := Within.agRoute a0 h

theorem State.setTile_within {A : List Area} (a0 : Area.tile ∈ A) {s₀ s : State} (f : TileSt → TileSt) (g : ∀ t, TileSt.wf t → TileSt.wf (f t)) (h : Within A s₀ s) :
    Within A s₀ (State.setTile s f) := Within.tile a0 (g _) h

theorem State.setHbm_within {A : List Area} (a0 : Area.hbm ∈ A) {s₀ s : State} (f : HbmSt → HbmSt) (g : ∀ t, HbmSt.wf t → HbmSt.wf (f t)) (h : Within A s₀ s) :
    Within A s₀ (State.setHbm s f) := Within.hbm a0 (g _) h

theorem State.setRot_within {A : List Area} (a0 : Area.rot ∈ A) {s₀ s : State} (f : RotSt → RotSt) (h : Within A s₀ s) :
    Within A s₀ (State.setRot s f) := Within.rot a0 h

theorem State.setBeyjo_within {A : List Area} (a0 : Area.beyjo ∈ A) {s₀ s : State} (f : BeyjoSt → BeyjoSt) (h : Within A s₀ s) :
    Within A s₀ (State.setBeyjo s f) := Within.beyjo a0 h

theorem State.setRst_within {A : List Area} (a0 : Area.rst ∈ A) {s₀ s : State} (f : RstSt → RstSt) (h : Within A s₀ s) :
    Within A s₀ (State.setRst s f) := Within.rst a0 h

theorem State.setPair_within {A : List Area} (a0 : Area.pair ∈ A) {s₀ s : State} (f : PairSt → PairSt) (g : ∀ t, PairSt.wf t → PairSt.wf (f t)) (h : Within A s₀ s) :
    Within A s₀ (State.setPair s f) := Within.pair a0 (g _) h

theorem State.setBoot_within {A : List Area} (a0 : Area.boot ∈ A) {s₀ s : State} (f : BootSt → BootSt) (g : ∀ t, BootSt.wf t → BootSt.wf (f t)) (h : Within A s₀ s) :
    Within A s₀ (State.setBoot s f) := Within.boot a0 (g _) h

theorem State.setPwr_within {A : List Area} (a0 : Area.pwr ∈ A) {s₀ s : State} (f : PwrSt → PwrSt) (h : Within A s₀ s) :
    Within A s₀ (State.setPwr s f) := Within.pwr a0 h

theorem State.setAg_within {A : List Area} (a0 : Area.ag ∈ A) {s₀ s : State} (f : AgSt → AgSt) (g : ∀ t, AgSt.wf t → AgSt.wf (f t)) (h : Within A s₀ s) :
    Within A s₀ (State.setAg s f) := Within.ag a0 (g _) h

theorem State.setFlt_within {A : List Area} (a0 : Area.flt ∈ A) (a1 : Area.agFlt ∈ A) {s₀ s : State} (d : Site) (f : FltSt → FltSt) (h : Within A s₀ s) :
    Within A s₀ (State.setFlt s d f) := by
  cases d
  · exact Within.flt a0 h
  · exact Within.agFlt a1 h

theorem State.setPort_within {A : List Area} (a0 : Area.ports ∈ A) (a1 : Area.agPorts ∈ A) {s₀ s : State} (d : Site) (p : Nat) (f : PortSt → PortSt) (h : Within A s₀ s) :
    Within A s₀ (State.setPort s d p f) := by
  cases d
  · exact Within.ports a0 (by simp) h
  · exact Within.agPorts a1 (fun k => by simpa using k) h

theorem State.setCtx_within {A : List Area} (a0 : Area.ctxs ∈ A) {s₀ s : State} (c : Nat) (f : CtxSt → CtxSt) (h : Within A s₀ s) :
    Within A s₀ (State.setCtx s c f) := Within.ctxs a0 (by simp) h

theorem State.setTtb_within {A : List Area} (a0 : Area.ttbs ∈ A) {s₀ s : State} (c : Nat) (f : TtbSt → TtbSt) (h : Within A s₀ s) :
    Within A s₀ (State.setTtb s c f) := Within.ttbs a0 (fun k => by simpa using k) h

theorem State.setInst_within {A : List Area} (a0 : Area.insts ∈ A) {s₀ s : State} (c x : Nat) (f : Instance → Instance) (h : Within A s₀ s) :
    Within A s₀ (State.setInst s c x f) := Within.insts a0 h

theorem State.emit_within {A : List Area} (a0 : Area.out ∈ A) {s₀ s : State} (m : Msg) (h : Within A s₀ s) :
    Within A s₀ (State.emit s m) := Within.out a0 (List.prefix_append ..) h

theorem State.frame_within {A : List Area} (a0 : Area.regs ∈ A) (a1 : Area.out ∈ A) {s₀ s : State} (m : Msg) (h₀ : Within A s₀ s) :
    Within A s₀ (State.frame s m) := by
  unfold State.frame
  repeat' first | with_reducible assumption | with_reducible apply State.emit_within | with_reducible apply State.bump_within

theorem State.emits_within {A : List Area} (a0 : Area.out ∈ A) {s₀ s : State} (m : List Msg) (h : Within A s₀ s) :
    Within A s₀ (State.emits s m) := Within.out a0 (List.prefix_append ..) h

theorem State.free_within {A : List Area} (a0 : Area.freeCtr ∈ A) {s₀ s : State}  (h : Within A s₀ s) :
    Within A s₀ (State.free s ).2 := Within.freeCtr a0 (Nat.le_succ _) h

theorem State.service_within {A : List Area} (a0 : Area.regs ∈ A) {s₀ s : State} (c : Nat) (h₀ : Within A s₀ s) :
    Within A s₀ (State.service s c) := by
  unfold State.service
  repeat' first | with_reducible assumption | with_reducible apply State.bump_within

end Sys2Proof.Machine
end

