-- ==== Sys2Proof/Laws/NotifyWithin.lean ====
section
/-! SUPPORT. The parts of the state that the definitions of Machine/Notify.lean reach. -/

set_option linter.unreachableTactic false
set_option linter.unusedTactic false

namespace Sys2Proof.Machine

theorem State.queueFor_within {A : List Area} (a0 : Area.regs ∈ A) (a1 : Area.beyjo ∈ A) {s₀ s : State} (p : Sess → Bool) (r : Sess → NRec) (h₀ : Within A s₀ s) :
    Within A s₀ (State.queueFor s p r) := by
  unfold State.queueFor
  repeat' first | intro _ | with_reducible assumption | with_reducible apply Within.ite | with_reducible apply State.setBeyjo_within | with_reducible apply State.bump_within | split

theorem State.notifyT_within {A : List Area} (a0 : Area.regs ∈ A) (a1 : Area.beyjo ∈ A) {s₀ s : State} (t c : Nat) (words tenantWords : List Nat) (h₀ : Within A s₀ s) :
    Within A s₀ (State.notifyT s t c words tenantWords) := by
  unfold State.notifyT
  repeat' first | intro _ | with_reducible assumption | with_reducible apply State.queueFor_within

theorem State.notify_within {A : List Area} (a0 : Area.regs ∈ A) (a1 : Area.beyjo ∈ A) {s₀ s : State} (t c : Nat) (words : List Nat) (h₀ : Within A s₀ s) :
    Within A s₀ (State.notify s t c words) := by
  unfold State.notify
  repeat' first | with_reducible assumption | with_reducible apply State.notifyT_within

theorem State.notifyJob_within {A : List Area} (a0 : Area.regs ∈ A) (a1 : Area.beyjo ∈ A) {s₀ s : State} (c code detail : Nat) (h₀ : Within A s₀ s) :
    Within A s₀ (State.notifyJob s c code detail) := by
  unfold State.notifyJob
  repeat' first | with_reducible assumption | with_reducible apply Within.ite | with_reducible apply State.notifyT_within | split

theorem State.notifyCtx_within {A : List Area} (a0 : Area.regs ∈ A) (a1 : Area.beyjo ∈ A) {s₀ s : State} (c code detail : Nat) (h₀ : Within A s₀ s) :
    Within A s₀ (State.notifyCtx s c code detail) := by
  unfold State.notifyCtx
  repeat' first | with_reducible assumption | with_reducible apply State.notify_within

theorem State.notifyKey_within {A : List Area} (a0 : Area.regs ∈ A) (a1 : Area.beyjo ∈ A) {s₀ s : State} (c lid code : Nat) (h₀ : Within A s₀ s) :
    Within A s₀ (State.notifyKey s c lid code) := by
  unfold State.notifyKey
  repeat' first | with_reducible assumption | with_reducible apply State.notify_within

theorem State.notifyTime_within {A : List Area} (a0 : Area.regs ∈ A) (a1 : Area.beyjo ∈ A) {s₀ s : State}  (h₀ : Within A s₀ s) :
    Within A s₀ (State.notifyTime s) := by
  unfold State.notifyTime
  repeat' first | with_reducible assumption | with_reducible apply State.notify_within

theorem State.notifyMail_within {A : List Area} (a0 : Area.regs ∈ A) (a1 : Area.beyjo ∈ A) {s₀ s : State} (index slot control : Nat) (h₀ : Within A s₀ s) :
    Within A s₀ (State.notifyMail s index slot control) := by
  unfold State.notifyMail
  repeat' first | intro _ | with_reducible assumption | with_reducible apply State.queueFor_within

end Sys2Proof.Machine
end

