-- ==== Sys2Proof/Laws/DetectWithin.lean ====
section
/-! SUPPORT. The parts of the state that the definitions of Machine/Detect.lean reach. -/

set_option linter.unreachableTactic false
set_option linter.unusedTactic false

namespace Sys2Proof.Machine

theorem State.detectAt_within {A : List Area} (a0 : Area.flt ∈ A) (a1 : Area.agFlt ∈ A) {s₀ s : State} (d : Site) (x stamp detail : Nat) (ctx : Option Nat) (injected : Bool) (h₀ : Within A s₀ s) :
    Within A s₀ (State.detectAt s d x stamp detail ctx injected) := by
  unfold State.detectAt
  repeat' first | (extract_lets +onlyGivenNames x; revert x; with_reducible first | apply Within.letS A s₀ | apply Within.letQ A s₀ | apply Within.letP A s₀ | apply Within.letF A s₀ | apply Within.letK A s₀ | apply Within.letG A s₀ | apply Within.letF1x A s₀ | apply Within.letH A s₀ | apply Within.letV) | intro _ | with_reducible assumption | with_reducible apply Within.ite | with_reducible apply State.setFlt_within | split | with_reducible apply_assumption

theorem State.detect_within {A : List Area} (a0 : Area.flt ∈ A) (a1 : Area.agFlt ∈ A) {s₀ s : State} (d : Site) (pg det detail : Nat) (ctx : Option Nat) (h₀ : Within A s₀ s) :
    Within A s₀ (State.detect s d pg det detail ctx) := by
  unfold State.detect
  repeat' first | with_reducible assumption | with_reducible apply State.detectAt_within

theorem State.reactionDone_within {A : List Area} (a0 : Area.flt ∈ A) (a1 : Area.agFlt ∈ A) {s₀ s : State} (d : Site) (sel : Reaction → Bool) (h₀ : Within A s₀ s) :
    Within A s₀ (State.reactionDone s d sel) := by
  unfold State.reactionDone
  repeat' first | (extract_lets +onlyGivenNames x; revert x; with_reducible first | apply Within.letS A s₀ | apply Within.letQ A s₀ | apply Within.letP A s₀ | apply Within.letV) | intro _ | with_reducible assumption | with_reducible apply Within.ite | with_reducible apply State.setFlt_within | split | with_reducible apply_assumption

end Sys2Proof.Machine
end

