-- ==== Sys2Proof/Laws/CellsWithin.lean ====
section
/-! SUPPORT. The parts of the state that the definitions of Machine/Cells.lean reach. -/

set_option linter.unreachableTactic false
set_option linter.unusedTactic false

namespace Sys2Proof.Machine

theorem State.deadLetter_within {A : List Area} (a0 : Area.regs ∈ A) (a1 : Area.aregs ∈ A) (a2 : Area.flt ∈ A) (a3 : Area.agFlt ∈ A) {s₀ s : State} (d : Site) (die : Nat) (e : DeadLetter) (h₀ : Within A s₀ s) :
    Within A s₀ (State.deadLetter s d die e) := by
  unfold State.deadLetter
  repeat' first | (extract_lets +onlyGivenNames x; revert x; with_reducible first | apply Within.letS A s₀ | apply Within.letQ A s₀ | apply Within.letP A s₀ | apply Within.letV) | intro _ | with_reducible assumption | with_reducible apply Within.ite | with_reducible apply State.setFlt_within | with_reducible apply State.wrS_within | with_reducible apply State.bumpS_within | split | with_reducible apply_assumption

theorem State.discardC_within {A : List Area} (a0 : Area.regs ∈ A) (a1 : Area.aregs ∈ A) (a2 : Area.flt ∈ A) (a3 : Area.agFlt ∈ A) {s₀ s : State} (d : Site) (p : Nat) (c : Cell) (reason ctx : Nat) (h₀ : Within A s₀ s) :
    Within A s₀ (State.discardC s d p c reason ctx) := by
  unfold State.discardC
  repeat' first | (extract_lets +onlyGivenNames x; revert x; with_reducible first | apply Within.letS A s₀ | apply Within.letQ A s₀ | apply Within.letP A s₀ | apply Within.letV) | intro _ | with_reducible assumption | with_reducible apply Within.ite | with_reducible apply State.deadLetter_within | with_reducible apply State.bumpS_within | with_reducible apply State.detect_within | split | with_reducible apply_assumption

theorem State.discard_within {A : List Area} (a0 : Area.regs ∈ A) (a1 : Area.aregs ∈ A) (a2 : Area.flt ∈ A) (a3 : Area.agFlt ∈ A) {s₀ s : State} (d : Site) (p : Nat) (c : Cell) (reason : Nat) (h₀ : Within A s₀ s) :
    Within A s₀ (State.discard s d p c reason) := by
  unfold State.discard
  repeat' first | with_reducible assumption | with_reducible apply State.discardC_within

theorem State.discardOwn_within {A : List Area} (a0 : Area.regs ∈ A) (a1 : Area.aregs ∈ A) (a2 : Area.flt ∈ A) (a3 : Area.agFlt ∈ A) {s₀ s : State} (d : Site) (c : Cell) (reason : Nat) (h₀ : Within A s₀ s) :
    Within A s₀ (State.discardOwn s d c reason) := by
  unfold State.discardOwn
  repeat' first | (extract_lets +onlyGivenNames x; revert x; with_reducible first | apply Within.letS A s₀ | apply Within.letQ A s₀ | apply Within.letP A s₀ | apply Within.letV) | intro _ | with_reducible assumption | with_reducible apply State.deadLetter_within | with_reducible apply State.bumpS_within | split | with_reducible apply_assumption

theorem State.freeBuf_within {A : List Area} (a0 : Area.ports ∈ A) (a1 : Area.agPorts ∈ A) {s₀ s : State} (d : Site) (hold : Option (Nat × Nat)) (h₀ : Within A s₀ s) :
    Within A s₀ (State.freeBuf s d hold) := by
  unfold State.freeBuf
  repeat' first | intro _ | with_reducible assumption | with_reducible apply State.setPort_within | split

theorem State.enqueue_within {A : List Area} (a0 : Area.ports ∈ A) (a1 : Area.agPorts ∈ A) {s₀ s : State} (d : Site) (p : Nat) (hold : Option (Nat × Nat)) (c : Cell) (h₀ : Within A s₀ s) :
    Within A s₀ (State.enqueue s d p hold c) := by
  unfold State.enqueue
  repeat' first | intro _ | with_reducible assumption | with_reducible apply Within.ite | with_reducible apply State.setPort_within | split

theorem State.deliver_within {A : List Area} (a0 : Area.regs ∈ A) (a1 : Area.aregs ∈ A) (a2 : Area.ports ∈ A) (a3 : Area.agPorts ∈ A) (a4 : Area.flt ∈ A) (a5 : Area.agFlt ∈ A) (a6 : Area.out ∈ A) {s₀ s : State} (d : Site) (inp : Option Nat) (c : Cell) (h₀ : Within A s₀ s) :
    Within A s₀ (State.deliver s d inp c) := by
  unfold State.deliver
  repeat' first | (extract_lets +onlyGivenNames x; revert x; with_reducible first | apply Within.letS A s₀ | apply Within.letQ A s₀ | apply Within.letP A s₀ | apply Within.letV) | intro _ | with_reducible assumption | with_reducible apply Within.ite | with_reducible apply State.freeBuf_within | with_reducible apply State.discard_within | with_reducible apply State.discardOwn_within | with_reducible apply State.emit_within | split | with_reducible apply_assumption

theorem State.countFwd_within {A : List Area} (a0 : Area.regs ∈ A) (a1 : Area.aregs ∈ A) {s₀ s : State} (d : Site) (q : Nat) (c : Cell) (h₀ : Within A s₀ s) :
    Within A s₀ (State.countFwd s d q c) := by
  unfold State.countFwd
  repeat' first | with_reducible assumption | with_reducible apply Within.ite | with_reducible apply State.bumpS_within | split

theorem State.drop_within {A : List Area} (a0 : Area.regs ∈ A) (a1 : Area.aregs ∈ A) (a2 : Area.ports ∈ A) (a3 : Area.agPorts ∈ A) (a4 : Area.flt ∈ A) (a5 : Area.agFlt ∈ A) {s₀ s : State} (d : Site) (inp : Option Nat) (c : Cell) (reason : Nat) (h₀ : Within A s₀ s) :
    Within A s₀ (State.drop s d inp c reason) := by
  unfold State.drop
  repeat' first | (extract_lets +onlyGivenNames x; revert x; with_reducible first | apply Within.letS A s₀ | apply Within.letQ A s₀ | apply Within.letP A s₀ | apply Within.letV) | intro _ | with_reducible assumption | with_reducible apply State.freeBuf_within | with_reducible apply State.discard_within | with_reducible apply State.discardOwn_within | split | with_reducible apply_assumption

theorem State.routeCell_within {A : List Area} (a0 : Area.regs ∈ A) (a1 : Area.aregs ∈ A) (a2 : Area.ports ∈ A) (a3 : Area.agPorts ∈ A) (a4 : Area.flt ∈ A) (a5 : Area.agFlt ∈ A) (a6 : Area.out ∈ A) {s₀ s : State} (d : Site) (inp : Option Nat) (shadow : Bool) (c : Cell) (h₀ : Within A s₀ s) :
    Within A s₀ (State.routeCell s d inp shadow c) := by
  unfold State.routeCell
  repeat' first | (extract_lets +onlyGivenNames x; revert x; with_reducible first | apply Within.letS A s₀ | apply Within.letQ A s₀ | apply Within.letP A s₀ | apply Within.letV) | intro _ | with_reducible assumption | with_reducible apply Within.ite | with_reducible apply State.drop_within | with_reducible apply State.deliver_within | with_reducible apply State.countFwd_within | with_reducible apply State.enqueue_within | with_reducible apply State.bumpS_within | split | with_reducible apply_assumption

theorem State.hop_within {A : List Area} (a0 : Area.regs ∈ A) (a1 : Area.aregs ∈ A) (a2 : Area.ports ∈ A) (a3 : Area.agPorts ∈ A) (a4 : Area.flt ∈ A) (a5 : Area.agFlt ∈ A) (a6 : Area.out ∈ A) {s₀ s : State} (d : Site) (inp : Option Nat) (c : Cell) (h₀ : Within A s₀ s) :
    Within A s₀ (State.hop s d inp c) := by
  unfold State.hop
  repeat' first | (extract_lets +onlyGivenNames x; revert x; with_reducible first | apply Within.letS A s₀ | apply Within.letQ A s₀ | apply Within.letP A s₀ | apply Within.letV) | intro _ | with_reducible assumption | with_reducible apply Within.ite | with_reducible apply Within.foldl | with_reducible apply State.drop_within | with_reducible apply State.countFwd_within | with_reducible apply State.enqueue_within | with_reducible apply State.deliver_within | with_reducible apply State.routeCell_within | split | with_reducible apply_assumption

theorem State.send_within {A : List Area} (a0 : Area.regs ∈ A) (a1 : Area.aregs ∈ A) (a2 : Area.ports ∈ A) (a3 : Area.agPorts ∈ A) (a4 : Area.flt ∈ A) (a5 : Area.agFlt ∈ A) (a6 : Area.out ∈ A) {s₀ s : State} (d : Site) (c : Cell) (h₀ : Within A s₀ s) :
    Within A s₀ (State.send s d c) := by
  unfold State.send
  repeat' first | with_reducible assumption | with_reducible apply State.routeCell_within

theorem State.sendOn_within {A : List Area} (a0 : Area.regs ∈ A) (a1 : Area.aregs ∈ A) (a2 : Area.ports ∈ A) (a3 : Area.agPorts ∈ A) (a4 : Area.flt ∈ A) (a5 : Area.agFlt ∈ A) {s₀ s : State} (d : Site) (p : Nat) (c : Cell) (h₀ : Within A s₀ s) :
    Within A s₀ (State.sendOn s d p c) := by
  unfold State.sendOn
  repeat' first | with_reducible assumption | with_reducible apply Within.ite | with_reducible apply State.enqueue_within | with_reducible apply State.discard_within | split

theorem State.sendMsg_within {A : List Area} (a0 : Area.regs ∈ A) (a1 : Area.aregs ∈ A) (a2 : Area.ports ∈ A) (a3 : Area.agPorts ∈ A) (a4 : Area.flt ∈ A) (a5 : Area.agFlt ∈ A) (a6 : Area.out ∈ A) {s₀ s : State} (d : Site) (dst vc type seq flags : Nat) (bs : List Byte) (h₀ : Within A s₀ s) :
    Within A s₀ (State.sendMsg s d dst vc type seq flags bs) := by
  unfold State.sendMsg
  repeat' first | (extract_lets +onlyGivenNames x; revert x; with_reducible first | apply Within.letS A s₀ | apply Within.letQ A s₀ | apply Within.letP A s₀ | apply Within.letF A s₀ | apply Within.letK A s₀ | apply Within.letG A s₀ | apply Within.letF1x A s₀ | apply Within.letH A s₀ | apply Within.letV) | intro _ | with_reducible assumption | with_reducible apply Within.ite | with_reducible apply Within.foldl | with_reducible apply Within.foldlPair | with_reducible apply State.send_within | split | with_reducible apply_assumption

end Sys2Proof.Machine
end

