-- ==== Sys2Proof/Laws/CompareWithin.lean ====
section
/-! SUPPORT. The parts of the state that the definitions of Machine/Compare.lean reach. -/

set_option linter.unreachableTactic false
set_option linter.unusedTactic false

namespace Sys2Proof.Machine

theorem State.capUpdate_within {A : List Area} (a0 : Area.route ∈ A) {s₀ s : State} (p : Nat) (h₀ : Within A s₀ s) :
    Within A s₀ (State.capUpdate s p) := by
  unfold State.capUpdate
  repeat' first | (extract_lets +onlyGivenNames x; revert x; with_reducible first | apply Within.letS A s₀ | apply Within.letQ A s₀ | apply Within.letP A s₀ | apply Within.letV) | intro _ | with_reducible assumption | with_reducible apply Within.ite | with_reducible apply State.setRoute_within | split | with_reducible apply_assumption

theorem State.capReports_within {A : List Area} (a0 : Area.route ∈ A) {s₀ s : State} (r : Rod) (h₀ : Within A s₀ s) :
    Within A s₀ (State.capReports s r) := by
  unfold State.capReports
  repeat' first | intro _ | with_reducible assumption | with_reducible apply Within.ite | with_reducible apply Within.foldl | with_reducible apply Within.foldlPair | with_reducible apply State.setRoute_within | split

theorem State.compareRod_within {A : List Area} (a0 : Area.regs ∈ A) (a1 : Area.route ∈ A) (a2 : Area.boot ∈ A) {s₀ s : State}  (h₀ : Within A s₀ s) :
    Within A s₀ (State.compareRod s) := by
  unfold State.compareRod
  repeat' first | with_reducible exact fun _ k => k | (extract_lets +onlyGivenNames x; revert x; with_reducible first | apply Within.letS A s₀ | apply Within.letQ A s₀ | apply Within.letP A s₀ | apply Within.letF A s₀ | apply Within.letK A s₀ | apply Within.letG A s₀ | apply Within.letF1x A s₀ | apply Within.letH A s₀ | apply Within.letV) | intro _ | with_reducible assumption | with_reducible apply State.setBoot_within | with_reducible apply State.wr_within | with_reducible apply State.capReports_within | with_reducible apply_assumption

end Sys2Proof.Machine
end

