-- ==== Sys2Proof/Laws/TimeWithin.lean ====
section
/-! SUPPORT. The parts of the state that the definitions of Machine/Time.lean reach. -/

set_option linter.unreachableTactic false
set_option linter.unusedTactic false

namespace Sys2Proof.Machine

theorem State.startCount_within {A : List Area} (a0 : Area.regs ∈ A) (a1 : Area.time ∈ A) (a2 : Area.beyjo ∈ A) {s₀ s : State} (ns st : Nat) (h₀ : Within A s₀ s) :
    Within A s₀ (State.startCount s ns st) := by
  unfold State.startCount
  repeat' first | (extract_lets +onlyGivenNames x; revert x; with_reducible first | apply Within.letS A s₀ | apply Within.letQ A s₀ | apply Within.letP A s₀ | apply Within.letV) | intro _ | with_reducible assumption | with_reducible apply State.setTime_within | with_reducible apply State.wr_within | with_reducible apply State.notifyTime_within | with_reducible apply_assumption

theorem State.tmkStart_within {A : List Area} (a0 : Area.regs ∈ A) (a1 : Area.time ∈ A) (a2 : Area.beyjo ∈ A) (a3 : Area.boot ∈ A) {s₀ s : State}  (h₀ : Within A s₀ s) :
    Within A s₀ (State.tmkStart s) := by
  unfold State.tmkStart
  repeat' first | with_reducible exact fun _ k => k | (extract_lets +onlyGivenNames x; revert x; with_reducible first | apply Within.letS A s₀ | apply Within.letQ A s₀ | apply Within.letP A s₀ | apply Within.letV) | intro _ | with_reducible assumption | with_reducible apply Within.ite | with_reducible apply State.wr_within | with_reducible apply State.setBoot_within | with_reducible apply State.setTime_within | with_reducible apply State.startCount_within | with_reducible apply State.notifyTime_within | split | with_reducible apply_assumption

theorem State.endHold_within {A : List Area} (a0 : Area.regs ∈ A) (a1 : Area.time ∈ A) {s₀ s : State}  (h₀ : Within A s₀ s) :
    Within A s₀ (State.endHold s) := by
  unfold State.endHold
  repeat' first | (extract_lets +onlyGivenNames x; revert x; with_reducible first | apply Within.letS A s₀ | apply Within.letQ A s₀ | apply Within.letP A s₀ | apply Within.letV) | intro _ | with_reducible assumption | with_reducible apply State.wr_within | with_reducible apply State.setTime_within | split | with_reducible apply_assumption

theorem State.tmkStop_within {A : List Area} (a0 : Area.regs ∈ A) (a1 : Area.time ∈ A) (a2 : Area.beyjo ∈ A) {s₀ s : State}  (h₀ : Within A s₀ s) :
    Within A s₀ (State.tmkStop s) := by
  unfold State.tmkStop
  repeat' first | (extract_lets +onlyGivenNames x; revert x; with_reducible first | apply Within.letS A s₀ | apply Within.letQ A s₀ | apply Within.letP A s₀ | apply Within.letV) | intro _ | with_reducible assumption | with_reducible apply State.endHold_within | with_reducible apply State.setTime_within | with_reducible apply State.wr_within | with_reducible apply State.notifyTime_within | with_reducible apply_assumption

theorem execTmkEnableWrite_within {A : List Area} (a0 : Area.regs ∈ A) (a1 : Area.time ∈ A) (a2 : Area.beyjo ∈ A) (a3 : Area.boot ∈ A) {s₀ s : State} (enable : Bool) (h₀ : Within A s₀ s) :
    Out.within A s₀ (execTmkEnableWrite enable s) := by
  unfold execTmkEnableWrite
  show Within A s₀ _
  repeat' first | with_reducible exact fun _ k => k | with_reducible assumption | with_reducible apply Within.ite | with_reducible apply State.tmkStart_within | with_reducible apply State.tmkStop_within | split

theorem execTmkStep_within {A : List Area} (a0 : Area.regs ∈ A) (a1 : Area.flt ∈ A) (a2 : Area.agFlt ∈ A) {s₀ s : State}  (h₀ : Within A s₀ s) :
    Out.within A s₀ (execTmkStep s) := by
  unfold execTmkStep
  show Within A s₀ _
  repeat' first | with_reducible assumption | with_reducible apply Within.ite | with_reducible apply State.detect_within | with_reducible apply State.wr_within | split

theorem State.rebase_within {A : List Area} (a0 : Area.regs ∈ A) {s₀ s : State} (c r : Nat) (h₀ : Within A s₀ s) :
    Within A s₀ (State.rebase s c r) := by
  unfold State.rebase
  repeat' first | with_reducible assumption | with_reducible apply State.wr_within

theorem State.resumeTtb_within {A : List Area} (a0 : Area.regs ∈ A) (a1 : Area.ttbs ∈ A) (a2 : Area.beyjo ∈ A) {s₀ s : State} (c r : Nat) (h₀ : Within A s₀ s) :
    Within A s₀ (State.resumeTtb s c r) := by
  unfold State.resumeTtb
  repeat' first | (extract_lets +onlyGivenNames x; revert x; with_reducible first | apply Within.letS A s₀ | apply Within.letQ A s₀ | apply Within.letP A s₀ | apply Within.letV) | intro _ | with_reducible assumption | with_reducible apply State.wr_within | with_reducible apply State.setTtb_within | with_reducible apply State.rebase_within | with_reducible apply State.notifyJob_within | with_reducible apply_assumption

theorem State.resumeXdom_within {A : List Area} (a0 : Area.regs ∈ A) (a1 : Area.ttbs ∈ A) (a2 : Area.beyjo ∈ A) {s₀ s : State}  (h₀ : Within A s₀ s) :
    Within A s₀ (State.resumeXdom s) := by
  unfold State.resumeXdom
  repeat' first | intro _ | with_reducible assumption | with_reducible apply Within.ite | with_reducible apply Within.foldl | with_reducible apply State.resumeTtb_within | split

theorem State.relocked_within {A : List Area} (a0 : Area.regs ∈ A) (a1 : Area.time ∈ A) (a2 : Area.ttbs ∈ A) (a3 : Area.beyjo ∈ A) {s₀ s : State}  (h₀ : Within A s₀ s) :
    Within A s₀ (State.relocked s) := by
  unfold State.relocked
  repeat' first | with_reducible assumption | with_reducible apply State.endHold_within | with_reducible apply State.wr_within | with_reducible apply State.notifyTime_within | with_reducible apply State.resumeXdom_within

theorem execCounterStep_within {A : List Area} (a0 : Area.regs ∈ A) (a1 : Area.time ∈ A) (a2 : Area.ttbs ∈ A) (a3 : Area.beyjo ∈ A) {s₀ s : State}  (h₀ : Within A s₀ s) :
    Out.within A s₀ (execCounterStep s) := by
  unfold execCounterStep
  show Within A s₀ _
  repeat' first | (extract_lets +onlyGivenNames x; revert x; with_reducible first | apply Within.letS A s₀ | apply Within.letQ A s₀ | apply Within.letP A s₀ | apply Within.letV) | intro _ | with_reducible assumption | with_reducible apply Within.ite | with_reducible apply State.setTime_within | with_reducible apply State.wr_within | with_reducible apply State.relocked_within | split | with_reducible apply_assumption

theorem State.periodRej_within {A : List Area} (a0 : Area.regs ∈ A) {s₀ s : State}  (h₀ : Within A s₀ s) :
    Within A s₀ (State.periodRej s) := by
  unfold State.periodRej
  repeat' first | with_reducible assumption | with_reducible apply State.wr_within

theorem execTmkPeriodNextWrite_within {A : List Area} (a0 : Area.regs ∈ A) (a1 : Area.time ∈ A) {s₀ s : State} (atSec periodNs : Nat) (h₀ : Within A s₀ s) :
    Out.within A s₀ (execTmkPeriodNextWrite atSec periodNs s) := by
  unfold execTmkPeriodNextWrite
  show Within A s₀ _
  repeat' first | intro _ | with_reducible assumption | with_reducible apply Within.ite | with_reducible apply State.wr_within | with_reducible apply State.periodRej_within | with_reducible apply State.setTime_within | split

theorem execPeriodAnnounceBegin_within {A : List Area} (a0 : Area.time ∈ A) {s₀ s : State}  (h₀ : Within A s₀ s) :
    Out.within A s₀ (execPeriodAnnounceBegin s) := by
  unfold execPeriodAnnounceBegin
  show Within A s₀ _
  repeat' first | intro _ | with_reducible assumption | with_reducible apply Within.ite | with_reducible apply State.setTime_within | split

theorem State.changePeriod_within {A : List Area} (a0 : Area.regs ∈ A) (a1 : Area.time ∈ A) {s₀ s : State}  (h₀ : Within A s₀ s) :
    Within A s₀ (State.changePeriod s) := by
  unfold State.changePeriod
  repeat' first | (extract_lets +onlyGivenNames x; revert x; with_reducible first | apply Within.letS A s₀ | apply Within.letQ A s₀ | apply Within.letP A s₀ | apply Within.letV) | intro _ | with_reducible assumption | with_reducible apply State.setTime_within | with_reducible apply State.wr_within | with_reducible apply_assumption

theorem State.cancelPeriod_within {A : List Area} (a0 : Area.regs ∈ A) (a1 : Area.time ∈ A) {s₀ s : State}  (h₀ : Within A s₀ s) :
    Within A s₀ (State.cancelPeriod s) := by
  unfold State.cancelPeriod
  repeat' first | intro _ | with_reducible assumption | with_reducible apply Within.ite | with_reducible apply State.wr_within | with_reducible apply State.setTime_within | split

theorem State.setXdom_within {A : List Area} (a0 : Area.regs ∈ A) (a1 : Area.beyjo ∈ A) (a2 : Area.flt ∈ A) (a3 : Area.agFlt ∈ A) {s₀ s : State}  (h₀ : Within A s₀ s) :
    Within A s₀ (State.setXdom s) := by
  unfold State.setXdom
  repeat' first | with_reducible assumption | with_reducible apply Within.ite | with_reducible apply State.wr_within | with_reducible apply State.detect_within | with_reducible apply State.notifyTime_within | split

theorem State.relock_within {A : List Area} (a0 : Area.regs ∈ A) (a1 : Area.time ∈ A) (a2 : Area.ttbs ∈ A) (a3 : Area.beyjo ∈ A) (a4 : Area.flt ∈ A) (a5 : Area.agFlt ∈ A) {s₀ s : State} (off : Int) (h₀ : Within A s₀ s) :
    Within A s₀ (State.relock s off) := by
  unfold State.relock
  repeat' first | (extract_lets +onlyGivenNames x; revert x; with_reducible first | apply Within.letS A s₀ | apply Within.letQ A s₀ | apply Within.letP A s₀ | apply Within.letV) | intro _ | with_reducible assumption | with_reducible apply Within.ite | with_reducible apply State.relocked_within | with_reducible apply State.wr_within | with_reducible apply State.setTime_within | with_reducible apply State.detect_within | with_reducible apply State.notifyTime_within | split | with_reducible apply_assumption

theorem State.measured_within {A : List Area} (a0 : Area.regs ∈ A) (a1 : Area.time ∈ A) (a2 : Area.ttbs ∈ A) (a3 : Area.beyjo ∈ A) (a4 : Area.flt ∈ A) (a5 : Area.agFlt ∈ A) {s₀ s : State} (enough : Bool) (off : Int) (ns : Nat) (h₀ : Within A s₀ s) :
    Within A s₀ (State.measured s enough off ns) := by
  unfold State.measured
  repeat' first | (extract_lets +onlyGivenNames x; revert x; with_reducible first | apply Within.letS A s₀ | apply Within.letQ A s₀ | apply Within.letP A s₀ | apply Within.letF A s₀ | apply Within.letK A s₀ | apply Within.letG A s₀ | apply Within.letF1x A s₀ | apply Within.letH A s₀ | apply Within.letV) | intro _ | with_reducible assumption | with_reducible apply Within.ite | with_reducible apply State.wr_within | with_reducible apply State.setTime_within | with_reducible apply State.startCount_within | with_reducible apply State.relock_within | split | with_reducible apply_assumption

theorem execPpsEdge_within {A : List Area} (a0 : Area.regs ∈ A) (a1 : Area.time ∈ A) (a2 : Area.ttbs ∈ A) (a3 : Area.beyjo ∈ A) (a4 : Area.flt ∈ A) (a5 : Area.agFlt ∈ A) {s₀ s : State} (spacingNs refCycles edgePs : Int) (h₀ : Within A s₀ s) :
    Out.within A s₀ (execPpsEdge spacingNs refCycles edgePs s) := by
  unfold execPpsEdge
  show Within A s₀ _
  repeat' first | (extract_lets +onlyGivenNames x; revert x; with_reducible first | apply Within.letS A s₀ | apply Within.letQ A s₀ | apply Within.letP A s₀ | apply Within.letV) | intro _ | with_reducible assumption | with_reducible apply Within.ite | with_reducible apply State.wr_within | with_reducible apply State.setTime_within | with_reducible apply State.measured_within | split | with_reducible apply_assumption

theorem execPtpSync_within {A : List Area} (a0 : Area.regs ∈ A) (a1 : Area.time ∈ A) (a2 : Area.ttbs ∈ A) (a3 : Area.beyjo ∈ A) (a4 : Area.flt ∈ A) (a5 : Area.agFlt ∈ A) (a6 : Area.out ∈ A) {s₀ s : State} (domain : Nat) (logInterval offsetPs : Int) (taiNs : Nat) (usable : Bool) (h₀ : Within A s₀ s) :
    Out.within A s₀ (execPtpSync domain logInterval offsetPs taiNs usable s) := by
  unfold execPtpSync
  show Within A s₀ _
  repeat' first | (extract_lets +onlyGivenNames x; revert x; with_reducible first | apply Within.letS A s₀ | apply Within.letQ A s₀ | apply Within.letP A s₀ | apply Within.letV) | intro _ | with_reducible assumption | with_reducible apply Within.ite | with_reducible apply State.wr_within | with_reducible apply State.setTime_within | with_reducible apply State.measured_within | with_reducible apply State.frame_within | split | with_reducible apply_assumption

theorem State.refLoss_within {A : List Area} (a0 : Area.regs ∈ A) (a1 : Area.time ∈ A) (a2 : Area.beyjo ∈ A) (a3 : Area.flt ∈ A) (a4 : Area.agFlt ∈ A) {s₀ s : State}  (h₀ : Within A s₀ s) :
    Within A s₀ (State.refLoss s) := by
  unfold State.refLoss
  repeat' first | (extract_lets +onlyGivenNames x; revert x; with_reducible first | apply Within.letS A s₀ | apply Within.letQ A s₀ | apply Within.letP A s₀ | apply Within.letV) | intro _ | with_reducible assumption | with_reducible apply Within.ite | with_reducible apply State.setTime_within | with_reducible apply State.wr_within | with_reducible apply State.detect_within | with_reducible apply State.notifyTime_within | split | with_reducible apply_assumption

theorem execPtpAnnounce_within {A : List Area} (a0 : Area.regs ∈ A) (a1 : Area.time ∈ A) (a2 : Area.beyjo ∈ A) (a3 : Area.flt ∈ A) (a4 : Area.agFlt ∈ A) {s₀ s : State} (domain : Nat) (master : Master) (h₀ : Within A s₀ s) :
    Out.within A s₀ (execPtpAnnounce domain master s) := by
  unfold execPtpAnnounce
  show Within A s₀ _
  repeat' first | (extract_lets +onlyGivenNames x; revert x; with_reducible first | apply Within.letS A s₀ | apply Within.letQ A s₀ | apply Within.letP A s₀ | apply Within.letV) | intro _ | with_reducible assumption | with_reducible apply Within.ite | with_reducible apply State.setTime_within | with_reducible apply State.wr_within | with_reducible apply State.refLoss_within | split | with_reducible apply_assumption

theorem execPpsMissing_within {A : List Area} (a0 : Area.regs ∈ A) (a1 : Area.time ∈ A) (a2 : Area.beyjo ∈ A) (a3 : Area.flt ∈ A) (a4 : Area.agFlt ∈ A) {s₀ s : State}  (h₀ : Within A s₀ s) :
    Out.within A s₀ (execPpsMissing s) := by
  unfold execPpsMissing
  show Within A s₀ _
  repeat' first | intro _ | with_reducible assumption | with_reducible apply Within.ite | with_reducible apply State.wr_within | with_reducible apply State.setTime_within | with_reducible apply State.refLoss_within | split

theorem execCadenceRefLoss_within {A : List Area} (a0 : Area.regs ∈ A) (a1 : Area.time ∈ A) (a2 : Area.beyjo ∈ A) (a3 : Area.flt ∈ A) (a4 : Area.agFlt ∈ A) {s₀ s : State}  (h₀ : Within A s₀ s) :
    Out.within A s₀ (execCadenceRefLoss s) := by
  unfold execCadenceRefLoss
  show Within A s₀ _
  repeat' first | with_reducible assumption | with_reducible apply Within.ite | with_reducible apply State.refLoss_within | split

theorem execSyncTimeout_within {A : List Area} (a0 : Area.regs ∈ A) (a1 : Area.time ∈ A) (a2 : Area.beyjo ∈ A) (a3 : Area.flt ∈ A) (a4 : Area.agFlt ∈ A) {s₀ s : State}  (h₀ : Within A s₀ s) :
    Out.within A s₀ (execSyncTimeout s) := by
  unfold execSyncTimeout
  show Within A s₀ _
  repeat' first | with_reducible assumption | with_reducible apply Within.ite | with_reducible apply State.refLoss_within | split

theorem execXdomUnsafe_within {A : List Area} (a0 : Area.regs ∈ A) (a1 : Area.beyjo ∈ A) (a2 : Area.flt ∈ A) (a3 : Area.agFlt ∈ A) {s₀ s : State}  (h₀ : Within A s₀ s) :
    Out.within A s₀ (execXdomUnsafe s) := by
  unfold execXdomUnsafe
  show Within A s₀ _
  repeat' first | with_reducible assumption | with_reducible apply Within.ite | with_reducible apply State.setXdom_within | split

theorem execSlewCorrection_within {A : List Area} (a0 : Area.regs ∈ A) (a1 : Area.time ∈ A) (a2 : Area.ttbs ∈ A) (a3 : Area.beyjo ∈ A) {s₀ s : State}  (h₀ : Within A s₀ s) :
    Out.within A s₀ (execSlewCorrection s) := by
  unfold execSlewCorrection
  show Within A s₀ _
  repeat' first | (extract_lets +onlyGivenNames x; revert x; with_reducible first | apply Within.letS A s₀ | apply Within.letQ A s₀ | apply Within.letP A s₀ | apply Within.letF A s₀ | apply Within.letK A s₀ | apply Within.letG A s₀ | apply Within.letF1x A s₀ | apply Within.letH A s₀ | apply Within.letV) | intro _ | with_reducible assumption | with_reducible apply Within.ite | with_reducible apply State.setTime_within | with_reducible apply State.relocked_within | split | with_reducible apply_assumption

theorem execTodAdvance_within {A : List Area} (a0 : Area.regs ∈ A) {s₀ s : State}  (h₀ : Within A s₀ s) :
    Out.within A s₀ (execTodAdvance s) := by
  unfold execTodAdvance
  show Within A s₀ _
  repeat' first | with_reducible assumption | with_reducible apply Within.ite | with_reducible apply State.wr_within | split

end Sys2Proof.Machine
end

