-- ==== Sys2Proof/Laws/PortsWithin.lean ====
section
/-! SUPPORT. The parts of the state that the definitions of Machine/Ports.lean reach. -/

set_option linter.unreachableTactic false
set_option linter.unusedTactic false

namespace Sys2Proof.Machine

theorem State.putPosition_within {A : List Area} (a0 : Area.ports ∈ A) (a1 : Area.agPorts ∈ A) (a2 : Area.out ∈ A) {s₀ s : State} (d : Site) (p : Nat) (isControl : Bool) (h₀ : Within A s₀ s) :
    Within A s₀ (State.putPosition s d p isControl) := by
  unfold State.putPosition
  repeat' first | (extract_lets +onlyGivenNames x; revert x; with_reducible first | apply Within.letS A s₀ | apply Within.letQ A s₀ | apply Within.letP A s₀ | apply Within.letV) | intro _ | with_reducible assumption | with_reducible apply Within.ite | with_reducible apply State.setPort_within | with_reducible apply State.emit_within | split | with_reducible apply_assumption

theorem State.sendControl_within {A : List Area} (a0 : Area.ports ∈ A) (a1 : Area.agPorts ∈ A) (a2 : Area.out ∈ A) {s₀ s : State} (d : Site) (p : Nat) (ws : List (Nat × Nat)) (bofs kph fseq : Nat) (h₀ : Within A s₀ s) :
    Within A s₀ (State.sendControl s d p ws bofs kph fseq) := by
  unfold State.sendControl
  repeat' first | (extract_lets +onlyGivenNames x; revert x; with_reducible first | apply Within.letS A s₀ | apply Within.letQ A s₀ | apply Within.letP A s₀ | apply Within.letV) | intro _ | with_reducible assumption | with_reducible apply State.setPort_within | with_reducible apply State.emit_within | with_reducible apply State.putPosition_within | with_reducible apply_assumption

theorem State.ctl_within {A : List Area} (a0 : Area.ports ∈ A) (a1 : Area.agPorts ∈ A) (a2 : Area.out ∈ A) {s₀ s : State} (d : Site) (p kind w : Nat) (h₀ : Within A s₀ s) :
    Within A s₀ (State.ctl s d p kind w) := by
  unfold State.ctl
  repeat' first | with_reducible assumption | with_reducible apply State.emit_within | with_reducible apply State.putPosition_within

theorem State.linkChanged_within {A : List Area} (a0 : Area.regs ∈ A) (a1 : Area.route ∈ A) (a2 : Area.flt ∈ A) (a3 : Area.agFlt ∈ A) (a4 : Area.pair ∈ A) (a5 : Area.boot ∈ A) {s₀ s : State} (d : Site) (p : Nat) (h₀ : Within A s₀ s) :
    Within A s₀ (State.linkChanged s d p) := by
  unfold State.linkChanged
  repeat' first | with_reducible exact fun _ k => k | (extract_lets +onlyGivenNames x; revert x; with_reducible first | apply Within.letS A s₀ | apply Within.letQ A s₀ | apply Within.letP A s₀ | apply Within.letV) | intro _ | with_reducible assumption | with_reducible apply Within.ite | with_reducible apply State.capUpdate_within | with_reducible apply State.compareRod_within | with_reducible apply State.wr_within | with_reducible apply State.setPair_within | with_reducible apply State.detect_within | split | with_reducible apply_assumption

theorem State.nextFrame_within {A : List Area} (a0 : Area.ports ∈ A) (a1 : Area.agPorts ∈ A) {s₀ s : State} (d : Site) (p : Nat) (h₀ : Within A s₀ s) :
    Within A s₀ (State.nextFrame s d p) := by
  unfold State.nextFrame
  repeat' first | intro _ | with_reducible assumption | with_reducible apply State.setPort_within

theorem State.closeFrame_within {A : List Area} (a0 : Area.ports ∈ A) (a1 : Area.agPorts ∈ A) (a2 : Area.out ∈ A) {s₀ s : State} (d : Site) (p : Nat) (h₀ : Within A s₀ s) :
    Within A s₀ (State.closeFrame s d p) := by
  unfold State.closeFrame
  repeat' first | with_reducible assumption | with_reducible apply State.nextFrame_within | with_reducible apply State.sendControl_within | split

theorem State.setIdle_within {A : List Area} (a0 : Area.ports ∈ A) (a1 : Area.agPorts ∈ A) (a2 : Area.out ∈ A) {s₀ s : State} (d : Site) (p : Nat) (b : Bool) (h₀ : Within A s₀ s) :
    Within A s₀ (State.setIdle s d p b) := by
  unfold State.setIdle
  repeat' first | intro _ | with_reducible assumption | with_reducible apply State.setPort_within | with_reducible apply State.emit_within

theorem State.startStage_within {A : List Area} (a0 : Area.ports ∈ A) (a1 : Area.agPorts ∈ A) (a2 : Area.out ∈ A) {s₀ s : State} (d : Site) (p n : Nat) (h₀ : Within A s₀ s) :
    Within A s₀ (State.startStage s d p n) := by
  unfold State.startStage
  repeat' first | (extract_lets +onlyGivenNames x; revert x; with_reducible first | apply Within.letS A s₀ | apply Within.letQ A s₀ | apply Within.letP A s₀ | apply Within.letV) | intro _ | with_reducible assumption | with_reducible apply Within.foldl | with_reducible apply State.setPort_within | with_reducible apply State.ctl_within | split | with_reducible apply_assumption

theorem State.startAttempt_within {A : List Area} (a0 : Area.regs ∈ A) (a1 : Area.aregs ∈ A) (a2 : Area.ports ∈ A) (a3 : Area.agPorts ∈ A) (a4 : Area.out ∈ A) {s₀ s : State} (d : Site) (p : Nat) (h₀ : Within A s₀ s) :
    Within A s₀ (State.startAttempt s d p) := by
  unfold State.startAttempt
  repeat' first | (extract_lets +onlyGivenNames x; revert x; with_reducible first | apply Within.letS A s₀ | apply Within.letQ A s₀ | apply Within.letP A s₀ | apply Within.letV) | intro _ | with_reducible assumption | with_reducible apply Within.ite | with_reducible apply State.setPort_within | with_reducible apply State.wrS_within | with_reducible apply State.setIdle_within | with_reducible apply State.startStage_within | split | with_reducible apply_assumption

theorem State.dropCandidate_within {A : List Area} (a0 : Area.agTime ∈ A) {s₀ s : State} (d : Site) (p : Nat) (h₀ : Within A s₀ s) :
    Within A s₀ (State.dropCandidate s d p) := by
  unfold State.dropCandidate
  repeat' first | intro _ | with_reducible assumption | with_reducible apply State.setAgTime_within | split

theorem State.loseLink_within {A : List Area} (a0 : Area.regs ∈ A) (a1 : Area.aregs ∈ A) (a2 : Area.agTime ∈ A) (a3 : Area.ports ∈ A) (a4 : Area.agPorts ∈ A) (a5 : Area.route ∈ A) (a6 : Area.flt ∈ A) (a7 : Area.agFlt ∈ A) (a8 : Area.pair ∈ A) (a9 : Area.boot ∈ A) (a10 : Area.out ∈ A) {s₀ s : State} (d : Site) (p st : Nat) (h₀ : Within A s₀ s) :
    Within A s₀ (State.loseLink s d p st) := by
  unfold State.loseLink
  repeat' first | with_reducible exact fun _ k => k | (extract_lets +onlyGivenNames x; revert x; with_reducible first | apply Within.letS A s₀ | apply Within.letQ A s₀ | apply Within.letP A s₀ | apply Within.letV) | intro _ | with_reducible assumption | with_reducible apply Within.foldl | with_reducible apply Within.foldlPair | with_reducible apply State.freeBuf_within | with_reducible apply State.discard_within | with_reducible apply State.deadLetter_within | with_reducible apply State.setPort_within | with_reducible apply State.wrS_within | with_reducible apply State.setIdle_within | with_reducible apply State.dropCandidate_within | with_reducible apply State.detect_within | with_reducible apply State.linkChanged_within | with_reducible apply_assumption

theorem State.linkDown_within {A : List Area} (a0 : Area.regs ∈ A) (a1 : Area.aregs ∈ A) (a2 : Area.agTime ∈ A) (a3 : Area.ports ∈ A) (a4 : Area.agPorts ∈ A) (a5 : Area.route ∈ A) (a6 : Area.flt ∈ A) (a7 : Area.agFlt ∈ A) (a8 : Area.pair ∈ A) (a9 : Area.boot ∈ A) (a10 : Area.out ∈ A) {s₀ s : State} (d : Site) (p : Nat) (h₀ : Within A s₀ s) :
    Within A s₀ (State.linkDown s d p) := by
  unfold State.linkDown
  repeat' first | with_reducible exact fun _ k => k | with_reducible assumption | with_reducible apply Within.ite | with_reducible apply State.loseLink_within | with_reducible apply State.startAttempt_within | split

theorem State.failAttempt_within {A : List Area} (a0 : Area.regs ∈ A) (a1 : Area.aregs ∈ A) (a2 : Area.ports ∈ A) (a3 : Area.agPorts ∈ A) (a4 : Area.flt ∈ A) (a5 : Area.agFlt ∈ A) (a6 : Area.out ∈ A) {s₀ s : State} (d : Site) (p : Nat) (keyFault : Bool) (h₀ : Within A s₀ s) :
    Within A s₀ (State.failAttempt s d p keyFault) := by
  unfold State.failAttempt
  repeat' first | (extract_lets +onlyGivenNames x; revert x; with_reducible first | apply Within.letS A s₀ | apply Within.letQ A s₀ | apply Within.letP A s₀ | apply Within.letV) | intro _ | with_reducible assumption | with_reducible apply Within.ite | with_reducible apply State.wrS_within | with_reducible apply State.setPort_within | with_reducible apply State.setIdle_within | with_reducible apply State.detect_within | with_reducible apply State.reactionDone_within | split | with_reducible apply_assumption

theorem State.judgeWidth_within {A : List Area} (a0 : Area.regs ∈ A) (a1 : Area.aregs ∈ A) (a2 : Area.route ∈ A) (a3 : Area.flt ∈ A) (a4 : Area.agFlt ∈ A) (a5 : Area.pair ∈ A) (a6 : Area.boot ∈ A) {s₀ s : State} (d : Site) (p : Nat) (h₀ : Within A s₀ s) :
    Within A s₀ (State.judgeWidth s d p) := by
  unfold State.judgeWidth
  repeat' first | with_reducible exact fun _ k => k | (extract_lets +onlyGivenNames x; revert x; with_reducible first | apply Within.letS A s₀ | apply Within.letQ A s₀ | apply Within.letP A s₀ | apply Within.letV) | intro _ | with_reducible assumption | with_reducible apply Within.ite | with_reducible apply State.wrS_within | with_reducible apply State.detect_within | with_reducible apply State.linkChanged_within | split | with_reducible apply_assumption

theorem State.linkUp_within {A : List Area} (a0 : Area.regs ∈ A) (a1 : Area.aregs ∈ A) (a2 : Area.ports ∈ A) (a3 : Area.agPorts ∈ A) (a4 : Area.route ∈ A) (a5 : Area.flt ∈ A) (a6 : Area.agFlt ∈ A) (a7 : Area.pair ∈ A) (a8 : Area.boot ∈ A) {s₀ s : State} (d : Site) (p : Nat) (h₀ : Within A s₀ s) :
    Within A s₀ (State.linkUp s d p) := by
  unfold State.linkUp
  repeat' first | with_reducible exact fun _ k => k | (extract_lets +onlyGivenNames x; revert x; with_reducible first | apply Within.letS A s₀ | apply Within.letQ A s₀ | apply Within.letP A s₀ | apply Within.letV) | intro _ | with_reducible assumption | with_reducible apply Within.ite | with_reducible apply State.setPort_within | with_reducible apply State.wrS_within | with_reducible apply State.detect_within | with_reducible apply State.reactionDone_within | with_reducible apply State.linkChanged_within | split | with_reducible apply_assumption

theorem State.afterDelay_within {A : List Area} (a0 : Area.ports ∈ A) (a1 : Area.agPorts ∈ A) (a2 : Area.out ∈ A) {s₀ s : State} (d : Site) (p : Nat) (h₀ : Within A s₀ s) :
    Within A s₀ (State.afterDelay s d p) := by
  unfold State.afterDelay
  repeat' first | intro _ | with_reducible assumption | with_reducible apply Within.ite | with_reducible apply State.setPort_within | with_reducible apply State.startStage_within | split

theorem State.releaseHold_within {A : List Area} (a0 : Area.ports ∈ A) (a1 : Area.agPorts ∈ A) (a2 : Area.out ∈ A) {s₀ s : State} (d : Site) (p : Nat) (h₀ : Within A s₀ s) :
    Within A s₀ (State.releaseHold s d p) := by
  unfold State.releaseHold
  repeat' first | with_reducible assumption | with_reducible apply Within.ite | with_reducible apply State.afterDelay_within | split

theorem State.selectWidth_within {A : List Area} (a0 : Area.regs ∈ A) (a1 : Area.aregs ∈ A) (a2 : Area.ports ∈ A) (a3 : Area.agPorts ∈ A) (a4 : Area.flt ∈ A) (a5 : Area.agFlt ∈ A) (a6 : Area.out ∈ A) {s₀ s : State} (d : Site) (p : Nat) (r : StageResult) (h₀ : Within A s₀ s) :
    Within A s₀ (State.selectWidth s d p r) := by
  unfold State.selectWidth
  repeat' first | (extract_lets +onlyGivenNames x; revert x; with_reducible first | apply Within.letS A s₀ | apply Within.letQ A s₀ | apply Within.letP A s₀ | apply Within.letV) | intro _ | with_reducible assumption | with_reducible apply Within.ite | with_reducible apply State.setPort_within | with_reducible apply State.failAttempt_within | with_reducible apply State.wrS_within | with_reducible apply State.startStage_within | split | with_reducible apply_assumption

theorem State.equalised_within {A : List Area} (a0 : Area.regs ∈ A) (a1 : Area.aregs ∈ A) {s₀ s : State} (d : Site) (p : Nat) (r : StageResult) (h₀ : Within A s₀ s) :
    Within A s₀ (State.equalised s d p r) := by
  unfold State.equalised
  repeat' first | intro _ | with_reducible assumption | with_reducible apply Within.foldl | with_reducible apply State.wrS_within

theorem State.agreeKeys_within {A : List Area} (a0 : Area.regs ∈ A) (a1 : Area.aregs ∈ A) (a2 : Area.ports ∈ A) (a3 : Area.agPorts ∈ A) (a4 : Area.flt ∈ A) (a5 : Area.agFlt ∈ A) (a6 : Area.out ∈ A) (a7 : Area.freeCtr ∈ A) {s₀ s : State} (d : Site) (p : Nat) (r : StageResult) (h₀ : Within A s₀ s) :
    Within A s₀ (State.agreeKeys s d p r) := by
  unfold State.agreeKeys
  repeat' first | (extract_lets +onlyGivenNames x; revert x; with_reducible first | apply Within.letS A s₀ | apply Within.letQ A s₀ | apply Within.letP A s₀ | apply Within.letF A s₀ | apply Within.letK A s₀ | apply Within.letG A s₀ | apply Within.letF1x A s₀ | apply Within.letH A s₀ | apply Within.letV) | intro _ | with_reducible assumption | with_reducible apply Within.ite | with_reducible apply State.failAttempt_within | with_reducible apply State.free_within | with_reducible apply State.setPort_within | with_reducible apply State.wrS_within | with_reducible apply State.startStage_within | split | with_reducible apply_assumption

theorem State.stageDone_within {A : List Area} (a0 : Area.regs ∈ A) (a1 : Area.aregs ∈ A) (a2 : Area.ports ∈ A) (a3 : Area.agPorts ∈ A) (a4 : Area.route ∈ A) (a5 : Area.flt ∈ A) (a6 : Area.agFlt ∈ A) (a7 : Area.pair ∈ A) (a8 : Area.boot ∈ A) (a9 : Area.out ∈ A) (a10 : Area.freeCtr ∈ A) {s₀ s : State} (d : Site) (p : Nat) (r : StageResult) (h₀ : Within A s₀ s) :
    Within A s₀ (State.stageDone s d p r) := by
  unfold State.stageDone
  repeat' first | with_reducible exact fun _ k => k | with_reducible assumption | with_reducible apply State.startStage_within | with_reducible apply State.equalised_within | with_reducible apply State.wrS_within | with_reducible apply State.selectWidth_within | with_reducible apply State.afterDelay_within | with_reducible apply State.agreeKeys_within | with_reducible apply State.linkUp_within | split

theorem execTrainStageDone_within {A : List Area} (a0 : Area.regs ∈ A) (a1 : Area.aregs ∈ A) (a2 : Area.ports ∈ A) (a3 : Area.agPorts ∈ A) (a4 : Area.route ∈ A) (a5 : Area.flt ∈ A) (a6 : Area.agFlt ∈ A) (a7 : Area.pair ∈ A) (a8 : Area.boot ∈ A) (a9 : Area.out ∈ A) (a10 : Area.freeCtr ∈ A) {s₀ s : State} (site : Site) (port : Nat) (result : StageResult) (h₀ : Within A s₀ s) :
    Out.within A s₀ (execTrainStageDone site port result s) := by
  unfold execTrainStageDone
  show Within A s₀ _
  repeat' first | with_reducible exact fun _ k => k | with_reducible assumption | with_reducible apply Within.ite | with_reducible apply State.stageDone_within | split

theorem execTrainStageTimeout_within {A : List Area} (a0 : Area.regs ∈ A) (a1 : Area.aregs ∈ A) (a2 : Area.ports ∈ A) (a3 : Area.agPorts ∈ A) (a4 : Area.flt ∈ A) (a5 : Area.agFlt ∈ A) (a6 : Area.out ∈ A) {s₀ s : State} (site : Site) (port : Nat) (h₀ : Within A s₀ s) :
    Out.within A s₀ (execTrainStageTimeout site port s) := by
  unfold execTrainStageTimeout
  show Within A s₀ _
  repeat' first | with_reducible assumption | with_reducible apply Within.ite | with_reducible apply State.failAttempt_within | split

theorem execTrainRetry_within {A : List Area} (a0 : Area.regs ∈ A) (a1 : Area.aregs ∈ A) (a2 : Area.ports ∈ A) (a3 : Area.agPorts ∈ A) (a4 : Area.out ∈ A) {s₀ s : State} (site : Site) (port : Nat) (h₀ : Within A s₀ s) :
    Out.within A s₀ (execTrainRetry site port s) := by
  unfold execTrainRetry
  show Within A s₀ _
  repeat' first | with_reducible assumption | with_reducible apply Within.ite | with_reducible apply State.startAttempt_within | split

theorem State.unparkPort_within {A : List Area} (a0 : Area.regs ∈ A) (a1 : Area.aregs ∈ A) (a2 : Area.ports ∈ A) (a3 : Area.agPorts ∈ A) (a4 : Area.out ∈ A) {s₀ s : State} (d : Site) (p : Nat) (h₀ : Within A s₀ s) :
    Within A s₀ (State.unparkPort s d p) := by
  unfold State.unparkPort
  repeat' first | (extract_lets +onlyGivenNames x; revert x; with_reducible first | apply Within.letS A s₀ | apply Within.letQ A s₀ | apply Within.letP A s₀ | apply Within.letV) | intro _ | with_reducible assumption | with_reducible apply Within.ite | with_reducible apply State.wrS_within | with_reducible apply State.startAttempt_within | split | with_reducible apply_assumption

theorem execUnpark_within {A : List Area} (a0 : Area.regs ∈ A) (a1 : Area.aregs ∈ A) (a2 : Area.ports ∈ A) (a3 : Area.agPorts ∈ A) (a4 : Area.out ∈ A) {s₀ s : State} (site : Site) (port : Nat) (h₀ : Within A s₀ s) :
    Out.within A s₀ (execUnpark site port s) := by
  unfold execUnpark
  show Within A s₀ _
  repeat' first | with_reducible assumption | with_reducible apply State.unparkPort_within

theorem State.retrainPort_within {A : List Area} (a0 : Area.regs ∈ A) (a1 : Area.aregs ∈ A) (a2 : Area.agTime ∈ A) (a3 : Area.ports ∈ A) (a4 : Area.agPorts ∈ A) (a5 : Area.route ∈ A) (a6 : Area.flt ∈ A) (a7 : Area.agFlt ∈ A) (a8 : Area.pair ∈ A) (a9 : Area.boot ∈ A) (a10 : Area.out ∈ A) {s₀ s : State} (d : Site) (p : Nat) (h₀ : Within A s₀ s) :
    Within A s₀ (State.retrainPort s d p) := by
  unfold State.retrainPort
  repeat' first | with_reducible exact fun _ k => k | (extract_lets +onlyGivenNames x; revert x; with_reducible first | apply Within.letS A s₀ | apply Within.letQ A s₀ | apply Within.letP A s₀ | apply Within.letV) | intro _ | with_reducible assumption | with_reducible apply Within.ite | with_reducible apply State.wrS_within | with_reducible apply State.linkDown_within | with_reducible apply State.startAttempt_within | split | with_reducible apply_assumption

theorem execRetrain_within {A : List Area} (a0 : Area.regs ∈ A) (a1 : Area.aregs ∈ A) (a2 : Area.agTime ∈ A) (a3 : Area.ports ∈ A) (a4 : Area.agPorts ∈ A) (a5 : Area.route ∈ A) (a6 : Area.flt ∈ A) (a7 : Area.agFlt ∈ A) (a8 : Area.pair ∈ A) (a9 : Area.boot ∈ A) (a10 : Area.out ∈ A) {s₀ s : State} (site : Site) (port : Nat) (h₀ : Within A s₀ s) :
    Out.within A s₀ (execRetrain site port s) := by
  unfold execRetrain
  show Within A s₀ _
  repeat' first | with_reducible exact fun _ k => k | with_reducible assumption | with_reducible apply State.retrainPort_within

theorem State.disablePort_within {A : List Area} (a0 : Area.regs ∈ A) (a1 : Area.aregs ∈ A) (a2 : Area.agTime ∈ A) (a3 : Area.ports ∈ A) (a4 : Area.agPorts ∈ A) (a5 : Area.route ∈ A) (a6 : Area.flt ∈ A) (a7 : Area.agFlt ∈ A) (a8 : Area.pair ∈ A) (a9 : Area.boot ∈ A) (a10 : Area.out ∈ A) {s₀ s : State} (d : Site) (p : Nat) (b : Bool) (h₀ : Within A s₀ s) :
    Within A s₀ (State.disablePort s d p b) := by
  unfold State.disablePort
  repeat' first | with_reducible exact fun _ k => k | (extract_lets +onlyGivenNames x; revert x; with_reducible first | apply Within.letS A s₀ | apply Within.letQ A s₀ | apply Within.letP A s₀ | apply Within.letV) | intro _ | with_reducible assumption | with_reducible apply Within.ite | with_reducible apply State.wrS_within | with_reducible apply State.loseLink_within | with_reducible apply State.setPort_within | with_reducible apply State.setIdle_within | with_reducible apply State.startAttempt_within | split | with_reducible apply_assumption

theorem execPortDisable_within {A : List Area} (a0 : Area.regs ∈ A) (a1 : Area.aregs ∈ A) (a2 : Area.agTime ∈ A) (a3 : Area.ports ∈ A) (a4 : Area.agPorts ∈ A) (a5 : Area.route ∈ A) (a6 : Area.flt ∈ A) (a7 : Area.agFlt ∈ A) (a8 : Area.pair ∈ A) (a9 : Area.boot ∈ A) (a10 : Area.out ∈ A) {s₀ s : State} (site : Site) (port : Nat) (disable : Bool) (h₀ : Within A s₀ s) :
    Out.within A s₀ (execPortDisable site port disable s) := by
  unfold execPortDisable
  show Within A s₀ _
  repeat' first | with_reducible exact fun _ k => k | with_reducible assumption | with_reducible apply State.disablePort_within

theorem execNoCorrectableCodeword_within {A : List Area} (a0 : Area.regs ∈ A) (a1 : Area.aregs ∈ A) (a2 : Area.agTime ∈ A) (a3 : Area.ports ∈ A) (a4 : Area.agPorts ∈ A) (a5 : Area.route ∈ A) (a6 : Area.flt ∈ A) (a7 : Area.agFlt ∈ A) (a8 : Area.pair ∈ A) (a9 : Area.boot ∈ A) (a10 : Area.out ∈ A) {s₀ s : State} (site : Site) (port : Nat) (h₀ : Within A s₀ s) :
    Out.within A s₀ (execNoCorrectableCodeword site port s) := by
  unfold execNoCorrectableCodeword
  show Within A s₀ _
  repeat' first | with_reducible exact fun _ k => k | with_reducible assumption | with_reducible apply State.linkDown_within

theorem execElectricalIdleDetect_within {A : List Area} (a0 : Area.regs ∈ A) (a1 : Area.aregs ∈ A) (a2 : Area.agTime ∈ A) (a3 : Area.ports ∈ A) (a4 : Area.agPorts ∈ A) (a5 : Area.route ∈ A) (a6 : Area.flt ∈ A) (a7 : Area.agFlt ∈ A) (a8 : Area.pair ∈ A) (a9 : Area.boot ∈ A) (a10 : Area.out ∈ A) {s₀ s : State} (site : Site) (port : Nat) (h₀ : Within A s₀ s) :
    Out.within A s₀ (execElectricalIdleDetect site port s) := by
  unfold execElectricalIdleDetect
  show Within A s₀ _
  repeat' first | with_reducible exact fun _ k => k | with_reducible assumption | with_reducible apply State.linkDown_within

theorem State.arrive_within {A : List Area} (a0 : Area.regs ∈ A) (a1 : Area.aregs ∈ A) (a2 : Area.ports ∈ A) (a3 : Area.agPorts ∈ A) (a4 : Area.route ∈ A) (a5 : Area.flt ∈ A) (a6 : Area.agFlt ∈ A) (a7 : Area.out ∈ A) {s₀ s : State} (d : Site) (p : Nat) (c : Cell) (h₀ : Within A s₀ s) :
    Within A s₀ (State.arrive s d p c) := by
  unfold State.arrive
  repeat' first | (extract_lets +onlyGivenNames x; revert x; with_reducible first | apply Within.letS A s₀ | apply Within.letQ A s₀ | apply Within.letP A s₀ | apply Within.letV) | intro _ | with_reducible assumption | with_reducible apply Within.ite | with_reducible apply State.discard_within | with_reducible apply State.setPort_within | with_reducible apply State.setRoute_within | with_reducible apply State.hop_within | split | with_reducible apply_assumption

theorem execCellForward_within {A : List Area} (a0 : Area.regs ∈ A) (a1 : Area.aregs ∈ A) (a2 : Area.ports ∈ A) (a3 : Area.agPorts ∈ A) (a4 : Area.route ∈ A) (a5 : Area.flt ∈ A) (a6 : Area.agFlt ∈ A) (a7 : Area.out ∈ A) {s₀ s : State} (site : Site) (port : Nat) (cell : Cell) (h₀ : Within A s₀ s) :
    Out.within A s₀ (execCellForward site port cell s) := by
  unfold execCellForward
  show Within A s₀ _
  repeat' first | intro _ | with_reducible assumption | with_reducible apply Within.ite | with_reducible apply State.setPort_within | with_reducible apply State.arrive_within | split

theorem State.frameGood_within {A : List Area} (a0 : Area.regs ∈ A) (a1 : Area.aregs ∈ A) (a2 : Area.ports ∈ A) (a3 : Area.agPorts ∈ A) (a4 : Area.route ∈ A) (a5 : Area.flt ∈ A) (a6 : Area.agFlt ∈ A) (a7 : Area.out ∈ A) {s₀ s : State} (d : Site) (p n ctr : Nat) (h₀ : Within A s₀ s) :
    Within A s₀ (State.frameGood s d p n ctr) := by
  unfold State.frameGood
  repeat' first | (extract_lets +onlyGivenNames x; revert x; with_reducible first | apply Within.letS A s₀ | apply Within.letQ A s₀ | apply Within.letP A s₀ | apply Within.letV) | intro _ | with_reducible assumption | with_reducible apply Within.ite | with_reducible apply Within.foldl | with_reducible apply Within.foldlPair | with_reducible apply State.setPort_within | with_reducible apply State.arrive_within | split | with_reducible apply_assumption

theorem State.dropFrame_within {A : List Area} (a0 : Area.regs ∈ A) (a1 : Area.aregs ∈ A) (a2 : Area.ports ∈ A) (a3 : Area.agPorts ∈ A) (a4 : Area.flt ∈ A) (a5 : Area.agFlt ∈ A) {s₀ s : State} (d : Site) (p : Nat) (h₀ : Within A s₀ s) :
    Within A s₀ (State.dropFrame s d p) := by
  unfold State.dropFrame
  repeat' first | intro _ | with_reducible assumption | with_reducible apply Within.foldl | with_reducible apply State.discard_within | with_reducible apply State.setPort_within

theorem State.frameBad_within {A : List Area} (a0 : Area.regs ∈ A) (a1 : Area.aregs ∈ A) (a2 : Area.agTime ∈ A) (a3 : Area.ports ∈ A) (a4 : Area.agPorts ∈ A) (a5 : Area.route ∈ A) (a6 : Area.flt ∈ A) (a7 : Area.agFlt ∈ A) (a8 : Area.pair ∈ A) (a9 : Area.boot ∈ A) (a10 : Area.out ∈ A) {s₀ s : State} (d : Site) (p ctr : Nat) (h₀ : Within A s₀ s) :
    Within A s₀ (State.frameBad s d p ctr) := by
  unfold State.frameBad
  repeat' first | with_reducible exact fun _ k => k | (extract_lets +onlyGivenNames x; revert x; with_reducible first | apply Within.letS A s₀ | apply Within.letQ A s₀ | apply Within.letP A s₀ | apply Within.letV) | intro _ | with_reducible assumption | with_reducible apply Within.ite | with_reducible apply State.dropFrame_within | with_reducible apply State.setPort_within | with_reducible apply State.bumpS_within | with_reducible apply State.detect_within | with_reducible apply State.linkDown_within | split | with_reducible apply_assumption

theorem execFrameTag_within {A : List Area} (a0 : Area.regs ∈ A) (a1 : Area.aregs ∈ A) (a2 : Area.agTime ∈ A) (a3 : Area.ports ∈ A) (a4 : Area.agPorts ∈ A) (a5 : Area.route ∈ A) (a6 : Area.flt ∈ A) (a7 : Area.agFlt ∈ A) (a8 : Area.pair ∈ A) (a9 : Area.boot ∈ A) (a10 : Area.out ∈ A) {s₀ s : State} (site : Site) (port fseq kph tag : Nat) (h₀ : Within A s₀ s) :
    Out.within A s₀ (execFrameTag site port fseq kph tag s) := by
  unfold execFrameTag
  show Within A s₀ _
  repeat' first | with_reducible exact fun _ k => k | (extract_lets +onlyGivenNames x; revert x; with_reducible first | apply Within.letS A s₀ | apply Within.letQ A s₀ | apply Within.letP A s₀ | apply Within.letV) | intro _ | with_reducible assumption | with_reducible apply Within.ite | with_reducible apply State.frameGood_within | with_reducible apply State.frameBad_within | split | with_reducible apply_assumption

theorem State.lostCodeword_within {A : List Area} (a0 : Area.regs ∈ A) (a1 : Area.aregs ∈ A) (a2 : Area.ports ∈ A) (a3 : Area.agPorts ∈ A) (a4 : Area.flt ∈ A) (a5 : Area.agFlt ∈ A) {s₀ s : State} (d : Site) (p : Nat) (h₀ : Within A s₀ s) :
    Within A s₀ (State.lostCodeword s d p) := by
  unfold State.lostCodeword
  repeat' first | (extract_lets +onlyGivenNames x; revert x; with_reducible first | apply Within.letS A s₀ | apply Within.letQ A s₀ | apply Within.letP A s₀ | apply Within.letV) | intro _ | with_reducible assumption | with_reducible apply State.deadLetter_within | with_reducible apply State.bumpS_within | with_reducible apply State.detect_within | with_reducible apply State.dropFrame_within | with_reducible apply_assumption

theorem State.countSymbols_within {A : List Area} (a0 : Area.regs ∈ A) (a1 : Area.aregs ∈ A) {s₀ s : State} (d : Site) (p : Nat) (errs : List Nat) (h₀ : Within A s₀ s) :
    Within A s₀ (State.countSymbols s d p errs) := by
  unfold State.countSymbols
  repeat' first | (extract_lets +onlyGivenNames x; revert x; with_reducible first | apply Within.letS A s₀ | apply Within.letQ A s₀ | apply Within.letP A s₀ | apply Within.letV) | intro _ | with_reducible assumption | with_reducible apply Within.ite | with_reducible apply Within.foldl | with_reducible apply State.bumpS_within | split | with_reducible apply_assumption

theorem State.takeCodeword_within {A : List Area} (a0 : Area.regs ∈ A) (a1 : Area.aregs ∈ A) (a2 : Area.ports ∈ A) (a3 : Area.agPorts ∈ A) (a4 : Area.flt ∈ A) (a5 : Area.agFlt ∈ A) {s₀ s : State} (d : Site) (p h : Nat) (ps : List Position) (h₀ : Within A s₀ s) :
    Within A s₀ (State.takeCodeword s d p h ps) := by
  unfold State.takeCodeword
  repeat' first | (extract_lets +onlyGivenNames x; revert x; with_reducible first | apply Within.letS A s₀ | apply Within.letQ A s₀ | apply Within.letP A s₀ | apply Within.letV) | intro _ | with_reducible assumption | with_reducible apply Within.ite | with_reducible apply State.setPort_within | with_reducible apply State.dropFrame_within | split | with_reducible apply_assumption

theorem execCodeword_within {A : List Area} (a0 : Area.regs ∈ A) (a1 : Area.aregs ∈ A) (a2 : Area.ports ∈ A) (a3 : Area.agPorts ∈ A) (a4 : Area.flt ∈ A) (a5 : Area.agFlt ∈ A) {s₀ s : State} (site : Site) (port : Nat) (cw : Codeword) (h₀ : Within A s₀ s) :
    Out.within A s₀ (execCodeword site port cw s) := by
  unfold execCodeword
  show Within A s₀ _
  repeat' first | (extract_lets +onlyGivenNames x; revert x; with_reducible first | apply Within.letS A s₀ | apply Within.letQ A s₀ | apply Within.letP A s₀ | apply Within.letV) | intro _ | with_reducible assumption | with_reducible apply Within.ite | with_reducible apply State.lostCodeword_within | with_reducible apply State.countSymbols_within | with_reducible apply State.takeCodeword_within | split | with_reducible apply_assumption

theorem execCreditWord_within {A : List Area} (a0 : Area.ports ∈ A) (a1 : Area.agPorts ∈ A) {s₀ s : State} (site : Site) (port : Nat) (word : Word) (h₀ : Within A s₀ s) :
    Out.within A s₀ (execCreditWord site port word s) := by
  unfold execCreditWord
  show Within A s₀ _
  repeat' first | (extract_lets +onlyGivenNames x; revert x; with_reducible first | apply Within.letS A s₀ | apply Within.letQ A s₀ | apply Within.letP A s₀ | apply Within.letV) | intro _ | with_reducible assumption | with_reducible apply State.setPort_within | with_reducible apply_assumption

theorem execSentWord_within {A : List Area} (a0 : Area.regs ∈ A) (a1 : Area.aregs ∈ A) (a2 : Area.ports ∈ A) (a3 : Area.agPorts ∈ A) {s₀ s : State} (site : Site) (port : Nat) (word : Word) (h₀ : Within A s₀ s) :
    Out.within A s₀ (execSentWord site port word s) := by
  unfold execSentWord
  show Within A s₀ _
  repeat' first | (extract_lets +onlyGivenNames x; revert x; with_reducible first | apply Within.letS A s₀ | apply Within.letQ A s₀ | apply Within.letP A s₀ | apply Within.letV) | intro _ | with_reducible assumption | with_reducible apply State.setPort_within | with_reducible apply State.bumpS_within | with_reducible apply_assumption

theorem execProbeWord_within {A : List Area} (a0 : Area.ports ∈ A) (a1 : Area.agPorts ∈ A) (a2 : Area.out ∈ A) {s₀ s : State} (site : Site) (port : Nat) (word : Word) (turnaroundPs : Nat) (h₀ : Within A s₀ s) :
    Out.within A s₀ (execProbeWord site port word turnaroundPs s) := by
  unfold execProbeWord
  show Within A s₀ _
  repeat' first | with_reducible assumption | with_reducible apply State.ctl_within

theorem execProbeReplyWord_within {A : List Area} (a0 : Area.regs ∈ A) (a1 : Area.aregs ∈ A) (a2 : Area.ports ∈ A) (a3 : Area.agPorts ∈ A) {s₀ s : State} (site : Site) (port : Nat) (word : Word) (nowPs : Nat) (h₀ : Within A s₀ s) :
    Out.within A s₀ (execProbeReplyWord site port word nowPs s) := by
  unfold execProbeReplyWord
  show Within A s₀ _
  repeat' first | (extract_lets +onlyGivenNames x; revert x; with_reducible first | apply Within.letS A s₀ | apply Within.letQ A s₀ | apply Within.letP A s₀ | apply Within.letF A s₀ | apply Within.letK A s₀ | apply Within.letG A s₀ | apply Within.letF1x A s₀ | apply Within.letH A s₀ | apply Within.letV) | intro _ | with_reducible assumption | with_reducible apply Within.ite | with_reducible apply State.setPort_within | with_reducible apply State.wrS_within | split | with_reducible apply_assumption

theorem execIdentWord_within {A : List Area} (a0 : Area.regs ∈ A) (a1 : Area.aregs ∈ A) (a2 : Area.ports ∈ A) (a3 : Area.agPorts ∈ A) (a4 : Area.flt ∈ A) (a5 : Area.agFlt ∈ A) (a6 : Area.out ∈ A) {s₀ s : State} (site : Site) (port : Nat) (word : Word) (h₀ : Within A s₀ s) :
    Out.within A s₀ (execIdentWord site port word s) := by
  unfold execIdentWord
  show Within A s₀ _
  repeat' first | (extract_lets +onlyGivenNames x; revert x; with_reducible first | apply Within.letS A s₀ | apply Within.letQ A s₀ | apply Within.letP A s₀ | apply Within.letF A s₀ | apply Within.letK A s₀ | apply Within.letG A s₀ | apply Within.letF1x A s₀ | apply Within.letH A s₀ | apply Within.letV) | intro _ | with_reducible assumption | with_reducible apply Within.ite | with_reducible apply State.wrS_within | with_reducible apply State.setPort_within | with_reducible apply State.detect_within | with_reducible apply State.releaseHold_within | split | with_reducible apply_assumption

theorem execPeriodWord_within {A : List Area} (a0 : Area.agTime ∈ A) {s₀ s : State} (site : Site) (port : Nat) (word : Word) (h₀ : Within A s₀ s) :
    Out.within A s₀ (execPeriodWord site port word s) := by
  unfold execPeriodWord
  show Within A s₀ _
  repeat' first | intro _ | with_reducible assumption | with_reducible apply Within.ite | with_reducible apply State.setAgTime_within | split

theorem State.cmapAdd_within {A : List Area} (a0 : Area.ttbs ∈ A) {s₀ s : State} (c link late peak hot : Nat) (h₀ : Within A s₀ s) :
    Within A s₀ (State.cmapAdd s c link late peak hot) := by
  unfold State.cmapAdd
  repeat' first | (extract_lets +onlyGivenNames x; revert x; with_reducible first | apply Within.letS A s₀ | apply Within.letQ A s₀ | apply Within.letP A s₀ | apply Within.letV) | intro _ | with_reducible assumption | with_reducible apply State.setTtb_within | with_reducible apply_assumption

theorem State.cmapLate_within {A : List Area} (a0 : Area.ttbs ∈ A) {s₀ s : State} (p : Nat) (c : Cell) (h₀ : Within A s₀ s) :
    Within A s₀ (State.cmapLate s p c) := by
  unfold State.cmapLate
  repeat' first | (extract_lets +onlyGivenNames x; revert x; with_reducible first | apply Within.letS A s₀ | apply Within.letQ A s₀ | apply Within.letP A s₀ | apply Within.letV) | intro _ | with_reducible assumption | with_reducible apply Within.ite | with_reducible apply State.cmapAdd_within | with_reducible apply State.setTtb_within | split | with_reducible apply_assumption

theorem State.transmit_within {A : List Area} (a0 : Area.ports ∈ A) (a1 : Area.agPorts ∈ A) (a2 : Area.out ∈ A) {s₀ s : State} (d : Site) (p : Nat) (q : Option (Nat × Nat) × Cell) (rest : List (Option (Nat × Nat) × Cell)) (h₀ : Within A s₀ s) :
    Within A s₀ (State.transmit s d p q rest) := by
  unfold State.transmit
  repeat' first | (extract_lets +onlyGivenNames x; revert x; with_reducible first | apply Within.letS A s₀ | apply Within.letQ A s₀ | apply Within.letP A s₀ | apply Within.letF A s₀ | apply Within.letK A s₀ | apply Within.letG A s₀ | apply Within.letF1x A s₀ | apply Within.letH A s₀ | apply Within.letV) | intro _ | with_reducible assumption | with_reducible apply Within.ite | with_reducible apply State.setPort_within | with_reducible apply State.freeBuf_within | with_reducible apply State.emit_within | with_reducible apply State.putPosition_within | with_reducible apply State.closeFrame_within | with_reducible apply State.sendControl_within | split | with_reducible apply_assumption

theorem execCellSend_within {A : List Area} (a0 : Area.regs ∈ A) (a1 : Area.aregs ∈ A) (a2 : Area.ports ∈ A) (a3 : Area.agPorts ∈ A) (a4 : Area.ttbs ∈ A) (a5 : Area.flt ∈ A) (a6 : Area.agFlt ∈ A) (a7 : Area.out ∈ A) {s₀ s : State} (site : Site) (port vc : Nat) (h₀ : Within A s₀ s) :
    Out.within A s₀ (execCellSend site port vc s) := by
  unfold execCellSend
  show Within A s₀ _
  repeat' first | (extract_lets +onlyGivenNames x; revert x; with_reducible first | apply Within.letS A s₀ | apply Within.letQ A s₀ | apply Within.letP A s₀ | apply Within.letV) | intro _ | with_reducible assumption | with_reducible apply Within.ite | with_reducible apply State.setPort_within | with_reducible apply State.freeBuf_within | with_reducible apply State.discard_within | with_reducible apply State.transmit_within | with_reducible apply State.cmapLate_within | split | with_reducible apply_assumption

theorem execEscapeThreshold_within {A : List Area} (a0 : Area.regs ∈ A) (a1 : Area.aregs ∈ A) (a2 : Area.ports ∈ A) (a3 : Area.agPorts ∈ A) (a4 : Area.flt ∈ A) (a5 : Area.agFlt ∈ A) {s₀ s : State} (site : Site) (port vc waitedNs : Nat) (h₀ : Within A s₀ s) :
    Out.within A s₀ (execEscapeThreshold site port vc waitedNs s) := by
  unfold execEscapeThreshold
  show Within A s₀ _
  repeat' first | (extract_lets +onlyGivenNames x; revert x; with_reducible first | apply Within.letS A s₀ | apply Within.letQ A s₀ | apply Within.letP A s₀ | apply Within.letV) | intro _ | with_reducible assumption | with_reducible apply Within.ite | with_reducible apply State.setPort_within | with_reducible apply State.bumpS_within | with_reducible apply State.enqueue_within | with_reducible apply State.freeBuf_within | with_reducible apply State.discard_within | split | with_reducible apply_assumption

theorem execLinkKeyChange_within {A : List Area} (a0 : Area.regs ∈ A) (a1 : Area.aregs ∈ A) (a2 : Area.ports ∈ A) (a3 : Area.agPorts ∈ A) (a4 : Area.out ∈ A) {s₀ s : State} (site : Site) (port : Nat) (h₀ : Within A s₀ s) :
    Out.within A s₀ (execLinkKeyChange site port s) := by
  unfold execLinkKeyChange
  show Within A s₀ _
  repeat' first | (extract_lets +onlyGivenNames x; revert x; with_reducible first | apply Within.letS A s₀ | apply Within.letQ A s₀ | apply Within.letP A s₀ | apply Within.letV) | intro _ | with_reducible assumption | with_reducible apply Within.ite | with_reducible apply State.closeFrame_within | with_reducible apply State.setPort_within | with_reducible apply State.wrS_within | split | with_reducible apply_assumption

theorem State.wrEdge_within {A : List Area} (a0 : Area.regs ∈ A) {s₀ s : State} (e : Nat) (f : Nat → Fld) (v : Nat) (h₀ : Within A s₀ s) :
    Within A s₀ (State.wrEdge s e f v) := by
  unfold State.wrEdge
  repeat' first | intro _ | with_reducible assumption | with_reducible apply Within.foldl | with_reducible apply State.wr_within

theorem State.edgeUp_within {A : List Area} (a0 : Area.regs ∈ A) {s₀ s : State} (e : Nat) (h₀ : Within A s₀ s) :
    Within A s₀ (State.edgeUp s e) := by
  unfold State.edgeUp
  repeat' first | with_reducible assumption | with_reducible apply Within.ite | with_reducible apply State.wrEdge_within | split

theorem State.edgeTrain_within {A : List Area} (a0 : Area.regs ∈ A) (a1 : Area.replays ∈ A) {s₀ s : State} (e : Nat) (h₀ : Within A s₀ s) :
    Within A s₀ (State.edgeTrain s e) := by
  unfold State.edgeTrain
  repeat' first | intro _ | with_reducible assumption | with_reducible apply Within.ite | with_reducible apply State.wrEdge_within | split | with_reducible apply Within.replays

theorem State.edgesUp_within {A : List Area} (a0 : Area.regs ∈ A) {s₀ s : State}  (h₀ : Within A s₀ s) :
    Within A s₀ (State.edgesUp s) := by
  unfold State.edgesUp
  repeat' first | intro _ | with_reducible assumption | with_reducible apply Within.foldl | with_reducible apply State.edgeUp_within

theorem State.groupOut_within {A : List Area} (a0 : Area.regs ∈ A) (a1 : Area.flt ∈ A) (a2 : Area.agFlt ∈ A) {s₀ s : State} (e g : Nat) (h₀ : Within A s₀ s) :
    Within A s₀ (State.groupOut s e g) := by
  unfold State.groupOut
  repeat' first | (extract_lets +onlyGivenNames x; revert x; with_reducible first | apply Within.letS A s₀ | apply Within.letQ A s₀ | apply Within.letP A s₀ | apply Within.letV) | intro _ | with_reducible assumption | with_reducible apply Within.ite | with_reducible apply State.wrEdge_within | with_reducible apply State.detect_within | split | with_reducible apply_assumption

theorem execDovetailNak_within {A : List Area} (a0 : Area.regs ∈ A) (a1 : Area.aregs ∈ A) (a2 : Area.replays ∈ A) (a3 : Area.flt ∈ A) (a4 : Area.agFlt ∈ A) (a5 : Area.out ∈ A) {s₀ s : State} (sender : EdgeEnd) (group : Nat) (cell : Cell) (h₀ : Within A s₀ s) :
    Out.within A s₀ (execDovetailNak sender group cell s) := by
  unfold execDovetailNak
  show Within A s₀ _
  repeat' first | (extract_lets +onlyGivenNames x; revert x; with_reducible first | apply Within.letS A s₀ | apply Within.letQ A s₀ | apply Within.letP A s₀ | apply Within.letV) | intro _ | with_reducible assumption | with_reducible apply Within.ite | with_reducible apply State.bump_within | with_reducible apply State.emit_within | with_reducible apply State.deadLetter_within | with_reducible apply State.detect_within | with_reducible apply State.groupOut_within | split | with_reducible apply Within.replays | with_reducible apply_assumption

end Sys2Proof.Machine
end

