-- ==== Sys2Proof/Laws/MgmtWithin.lean ====
section
/-! SUPPORT. The parts of the state that the definitions of Machine/Mgmt.lean reach. -/

set_option linter.unreachableTactic false
set_option linter.unusedTactic false

namespace Sys2Proof.Machine

theorem State.launch_within {A : List Area} (a0 : Area.regs ∈ A) (a1 : Area.aregs ∈ A) (a2 : Area.ports ∈ A) (a3 : Area.agPorts ∈ A) (a4 : Area.route ∈ A) (a5 : Area.flt ∈ A) (a6 : Area.agFlt ∈ A) (a7 : Area.out ∈ A) {s₀ s : State} (t : Txn) (h₀ : Within A s₀ s) :
    Within A s₀ (State.launch s t) := by
  unfold State.launch
  repeat' first | (extract_lets +onlyGivenNames x; revert x; with_reducible first | apply Within.letS A s₀ | apply Within.letQ A s₀ | apply Within.letP A s₀ | apply Within.letV) | intro _ | with_reducible assumption | with_reducible apply Within.ite | with_reducible apply State.setRoute_within | with_reducible apply State.bump_within | with_reducible apply State.send_within | split | with_reducible apply_assumption

theorem State.mreq_within {A : List Area} (a0 : Area.regs ∈ A) (a1 : Area.aregs ∈ A) (a2 : Area.ports ∈ A) (a3 : Area.agPorts ∈ A) (a4 : Area.route ∈ A) (a5 : Area.flt ∈ A) (a6 : Area.agFlt ∈ A) (a7 : Area.out ∈ A) {s₀ s : State} (fid op count addr : Nat) (words : List Nat) (session : Option Nat) (h₀ : Within A s₀ s) :
    Within A s₀ (State.mreq s fid op count addr words session) := by
  unfold State.mreq
  repeat' first | (extract_lets +onlyGivenNames x; revert x; with_reducible first | apply Within.letS A s₀ | apply Within.letQ A s₀ | apply Within.letP A s₀ | apply Within.letF A s₀ | apply Within.letK A s₀ | apply Within.letG A s₀ | apply Within.letF1x A s₀ | apply Within.letH A s₀ | apply Within.letV) | intro _ | with_reducible assumption | with_reducible apply Within.ite | with_reducible apply State.setRoute_within | with_reducible apply State.bump_within | with_reducible apply State.launch_within | split | with_reducible apply_assumption

theorem State.remoteWrite_within {A : List Area} (a0 : Area.regs ∈ A) (a1 : Area.aregs ∈ A) (a2 : Area.ports ∈ A) (a3 : Area.agPorts ∈ A) (a4 : Area.route ∈ A) (a5 : Area.flt ∈ A) (a6 : Area.agFlt ∈ A) (a7 : Area.out ∈ A) {s₀ s : State} (fid addr : Nat) (words : List Nat) (h₀ : Within A s₀ s) :
    Within A s₀ (State.remoteWrite s fid addr words) := by
  unfold State.remoteWrite
  repeat' first | with_reducible assumption | with_reducible apply State.mreq_within

theorem State.remoteWrites_within {A : List Area} (a0 : Area.regs ∈ A) (a1 : Area.aregs ∈ A) (a2 : Area.ports ∈ A) (a3 : Area.agPorts ∈ A) (a4 : Area.route ∈ A) (a5 : Area.flt ∈ A) (a6 : Area.agFlt ∈ A) (a7 : Area.out ∈ A) {s₀ s : State} (fid : Nat) (n : Nat) (a : Nat) (l : List Nat) (h₀ : Within A s₀ s) :
    Within A s₀ (State.remoteWrites s fid n a l) := by
  induction n generalizing s a l with
  | zero =>
    rw [State.remoteWrites]
    repeat' first | intro _ | with_reducible assumption | with_reducible apply Within.ite | with_reducible apply State.remoteWrite_within | with_reducible apply State.drop_within | split
  | succ i ih =>
    rw [State.remoteWrites]
    repeat' first | intro _ | with_reducible assumption | with_reducible apply ih | with_reducible apply Within.ite | with_reducible apply State.remoteWrite_within | with_reducible apply State.drop_within | split

theorem State.pumpWaiting_within {A : List Area} (a0 : Area.regs ∈ A) (a1 : Area.aregs ∈ A) (a2 : Area.ports ∈ A) (a3 : Area.agPorts ∈ A) (a4 : Area.route ∈ A) (a5 : Area.flt ∈ A) (a6 : Area.agFlt ∈ A) (a7 : Area.out ∈ A) {s₀ s : State}  (h₀ : Within A s₀ s) :
    Within A s₀ (State.pumpWaiting s) := by
  unfold State.pumpWaiting
  repeat' first | intro _ | with_reducible assumption | with_reducible apply Within.ite | with_reducible apply State.setRoute_within | with_reducible apply State.launch_within | split

theorem State.endTxn_within {A : List Area} (a0 : Area.regs ∈ A) (a1 : Area.aregs ∈ A) (a2 : Area.ports ∈ A) (a3 : Area.agPorts ∈ A) (a4 : Area.route ∈ A) (a5 : Area.flt ∈ A) (a6 : Area.agFlt ∈ A) (a7 : Area.out ∈ A) {s₀ s : State} (seq : Nat) (h₀ : Within A s₀ s) :
    Within A s₀ (State.endTxn s seq) := by
  unfold State.endTxn
  repeat' first | intro _ | with_reducible assumption | with_reducible apply State.setRoute_within | with_reducible apply State.pumpWaiting_within

theorem State.releaseHeld_within {A : List Area} (a0 : Area.regs ∈ A) (a1 : Area.aregs ∈ A) (a2 : Area.ports ∈ A) (a3 : Area.agPorts ∈ A) (a4 : Area.route ∈ A) (a5 : Area.flt ∈ A) (a6 : Area.agFlt ∈ A) (a7 : Area.out ∈ A) {s₀ s : State}  (h₀ : Within A s₀ s) :
    Within A s₀ (State.releaseHeld s) := by
  unfold State.releaseHeld
  repeat' first | (extract_lets +onlyGivenNames x; revert x; with_reducible first | apply Within.letS A s₀ | apply Within.letQ A s₀ | apply Within.letP A s₀ | apply Within.letF A s₀ | apply Within.letK A s₀ | apply Within.letG A s₀ | apply Within.letF1x A s₀ | apply Within.letH A s₀ | apply Within.letV) | intro _ | with_reducible assumption | with_reducible apply Within.foldl | with_reducible apply State.launch_within | with_reducible apply State.setRoute_within | with_reducible apply_assumption

theorem execMgmtRetry_within {A : List Area} (a0 : Area.regs ∈ A) (a1 : Area.aregs ∈ A) (a2 : Area.ports ∈ A) (a3 : Area.agPorts ∈ A) (a4 : Area.route ∈ A) (a5 : Area.flt ∈ A) (a6 : Area.agFlt ∈ A) (a7 : Area.out ∈ A) {s₀ s : State} (seq : Nat) (h₀ : Within A s₀ s) :
    Out.within A s₀ (execMgmtRetry seq s) := by
  unfold execMgmtRetry
  show Within A s₀ _
  repeat' first | (extract_lets +onlyGivenNames x; revert x; with_reducible first | apply Within.letS A s₀ | apply Within.letQ A s₀ | apply Within.letP A s₀ | apply Within.letV) | intro _ | with_reducible assumption | with_reducible apply Within.ite | with_reducible apply State.setRoute_within | with_reducible apply State.bump_within | with_reducible apply State.send_within | split | with_reducible apply_assumption

theorem State.remoteEvent_within {A : List Area} (a0 : Area.flt ∈ A) (a1 : Area.agFlt ∈ A) {s₀ s : State} (c : Cell) (h₀ : Within A s₀ s) :
    Within A s₀ (State.remoteEvent s c) := by
  unfold State.remoteEvent
  repeat' first | (extract_lets +onlyGivenNames x; revert x; with_reducible first | apply Within.letS A s₀ | apply Within.letQ A s₀ | apply Within.letP A s₀ | apply Within.letV) | intro _ | with_reducible assumption | with_reducible apply State.setFlt_within | split | with_reducible apply_assumption

end Sys2Proof.Machine
end

