-- ==== Sys2Proof/Laws/AllocWithin.lean ====
section
/-! SUPPORT. The parts of the state that the definitions of Machine/Alloc.lean reach. -/

set_option linter.unreachableTactic false
set_option linter.unusedTactic false

namespace Sys2Proof.Machine

theorem State.allocPut_within {A : List Area} (a0 : Area.tile ∈ A) {s₀ s : State} (c o : Nat) (b : Byte) (h₀ : Within A s₀ s) :
    Within A s₀ (State.allocPut s c o b) := by
  unfold State.allocPut
  repeat' first | with_reducible exact fun _ k => ⟨k.1, k.2.1, mset_wf k.2.2 _ _⟩ | with_reducible exact fun _ k => k | intro _ | with_reducible assumption | with_reducible apply State.setTile_within | split

theorem State.allocWrite_within {A : List Area} (a0 : Area.tile ∈ A) {s₀ s : State} (c : Nat) (o : Nat) (l : List Byte) (h₀ : Within A s₀ s) :
    Within A s₀ (State.allocWrite s c o l) := by
  induction l generalizing s o with
  | nil =>
    rw [State.allocWrite]
    repeat' first | intro _ | with_reducible assumption | with_reducible apply State.allocPut_within | split
  | cons x l ih =>
    rw [State.allocWrite]
    repeat' first | intro _ | with_reducible assumption | with_reducible apply ih | with_reducible apply State.allocPut_within | split

theorem State.hbmPut_within {A : List Area} (a0 : Area.regs ∈ A) (a1 : Area.hbm ∈ A) {s₀ s : State} (m a key : Nat) (b : Byte) (h₀ : Within A s₀ s) :
    Within A s₀ (State.hbmPut s m a key b) := by
  unfold State.hbmPut
  repeat' first | with_reducible exact fun _ k => mset_wf k _ _ | with_reducible exact fun _ k => mzero_wf k _ _ | with_reducible exact fun _ k => k | (extract_lets +onlyGivenNames x; revert x; with_reducible first | apply Within.letS A s₀ | apply Within.letQ A s₀ | apply Within.letP A s₀ | apply Within.letV) | intro _ | with_reducible assumption | with_reducible apply Within.ite | with_reducible apply State.setHbm_within | with_reducible apply State.bump_within | split | with_reducible apply_assumption

theorem State.regionWrite_within {A : List Area} (a0 : Area.regs ∈ A) (a1 : Area.hbm ∈ A) {s₀ s : State} (c k : Nat) (o : Nat) (l : List Byte) (h₀ : Within A s₀ s) :
    Within A s₀ (State.regionWrite s c k o l) := by
  induction l generalizing s o with
  | nil =>
    rw [State.regionWrite]
    repeat' first | (extract_lets +onlyGivenNames x; revert x; with_reducible first | apply Within.letS A s₀ | apply Within.letQ A s₀ | apply Within.letP A s₀ | apply Within.letV) | intro _ | with_reducible assumption | with_reducible apply Within.ite | with_reducible apply State.hbmPut_within | split
  | cons x l ih =>
    rw [State.regionWrite]
    repeat' first | (extract_lets +onlyGivenNames x; revert x; with_reducible first | apply Within.letS A s₀ | apply Within.letQ A s₀ | apply Within.letP A s₀ | apply Within.letV) | intro _ | with_reducible assumption | with_reducible apply ih | with_reducible apply Within.ite | with_reducible apply State.hbmPut_within | split

end Sys2Proof.Machine
end

