-- ==== Sys2Proof/Laws/UpdateWithin.lean ====
section
/-! SUPPORT. The parts of the state that the definitions of Machine/Update.lean reach. -/

set_option linter.unreachableTactic false
set_option linter.unusedTactic false

namespace Sys2Proof.Machine

theorem State.hbmCopy_within {A : List Area} (a0 : Area.regs ∈ A) (a1 : Area.hbm ∈ A) {s₀ s : State} (d a b n key : Nat) (h₀ : Within A s₀ s) :
    Within A s₀ (State.hbmCopy s d a b n key) := by
  unfold State.hbmCopy
  repeat' first | with_reducible exact fun _ k => k | intro _ | with_reducible assumption | with_reducible apply Within.foldl | with_reducible apply State.hbmPut_within

theorem State.takePending_within {A : List Area} (a0 : Area.regs ∈ A) (a1 : Area.hbm ∈ A) {s₀ s : State} (c xid t : Nat) (h₀ : Within A s₀ s) :
    Within A s₀ (State.takePending s c xid t) := by
  unfold State.takePending
  repeat' first | with_reducible exact fun _ k => k | (extract_lets +onlyGivenNames x; revert x; with_reducible first | apply Within.letS A s₀ | apply Within.letQ A s₀ | apply Within.letP A s₀ | apply Within.letV) | intro _ | with_reducible assumption | with_reducible apply State.hbmCopy_within | with_reducible apply State.setHbm_within | split | with_reducible apply_assumption

theorem State.hbmNatPut_within {A : List Area} (a0 : Area.regs ∈ A) (a1 : Area.hbm ∈ A) {s₀ s : State} (d a key n v : Nat) (h₀ : Within A s₀ s) :
    Within A s₀ (State.hbmNatPut s d a key n v) := by
  unfold State.hbmNatPut
  repeat' first | with_reducible exact fun _ k => k | intro _ | with_reducible assumption | with_reducible apply Within.foldl | with_reducible apply Within.foldlPair | with_reducible apply State.hbmPut_within

theorem State.countState_within {A : List Area} (a0 : Area.regs ∈ A) {s₀ s : State} (c q : Nat) (h₀ : Within A s₀ s) :
    Within A s₀ (State.countState s c q) := by
  unfold State.countState
  repeat' first | (extract_lets +onlyGivenNames x; revert x; with_reducible first | apply Within.letS A s₀ | apply Within.letQ A s₀ | apply Within.letP A s₀ | apply Within.letV) | intro _ | with_reducible assumption | with_reducible apply Within.foldl | with_reducible apply Within.foldlPair | with_reducible apply State.bump_within | with_reducible apply_assumption

theorem State.applyOpt_within {A : List Area} (a0 : Area.regs ∈ A) (a1 : Area.hbm ∈ A) {s₀ s : State} (o : OptSet) (q g : Nat) (h₀ : Within A s₀ s) :
    Within A s₀ (State.applyOpt s o q g).2 := by
  unfold State.applyOpt
  repeat' first | with_reducible exact fun _ k => k | (extract_lets +onlyGivenNames x; revert x; with_reducible first | apply Within.letS A s₀ | apply Within.letQ A s₀ | apply Within.letP A s₀ | apply Within.letF A s₀ | apply Within.letK A s₀ | apply Within.letG A s₀ | apply Within.letF1x A s₀ | apply Within.letH A s₀ | apply Within.letV) | intro _ | with_reducible assumption | with_reducible apply Within.ite | with_reducible apply State.takePending_within | with_reducible apply State.countState_within | with_reducible apply State.hbmNatPut_within | with_reducible apply State.bump_within | split | with_reducible apply_assumption

theorem State.commitDie_within {A : List Area} (a0 : Area.hbm ∈ A) {s₀ s : State} (c : Nat) (xids : List Nat) (at' : Nat) (d : Nat) (h₀ : Within A s₀ s) :
    Within A s₀ (State.commitDie s c xids at' d) := by
  unfold State.commitDie
  repeat' first | with_reducible exact fun _ k => k | (extract_lets +onlyGivenNames x; revert x; with_reducible first | apply Within.letS A s₀ | apply Within.letQ A s₀ | apply Within.letP A s₀ | apply Within.letV) | intro _ | with_reducible assumption | with_reducible apply Within.ite | with_reducible apply Within.foldl | with_reducible apply Within.foldlPair | with_reducible apply State.setHbm_within | split | with_reducible apply_assumption

theorem State.commitUpdates_within {A : List Area} (a0 : Area.regs ∈ A) (a1 : Area.ttbs ∈ A) (a2 : Area.hbm ∈ A) {s₀ s : State} (c : Nat) (xids : List Nat) (at' : Nat) (h₀ : Within A s₀ s) :
    Within A s₀ (State.commitUpdates s c xids at') := by
  unfold State.commitUpdates
  repeat' first | with_reducible exact fun _ k => k | (extract_lets +onlyGivenNames x; revert x; with_reducible first | apply Within.letS A s₀ | apply Within.letQ A s₀ | apply Within.letP A s₀ | apply Within.letV) | intro _ | with_reducible assumption | with_reducible apply Within.ite | with_reducible apply Within.foldl | with_reducible apply Within.foldlPair | with_reducible apply State.commitDie_within | with_reducible apply State.setTtb_within | with_reducible apply State.wr_within | with_reducible apply State.bump_within | with_reducible apply State.setHbm_within | split | with_reducible apply_assumption

theorem State.showSlots_within {A : List Area} (a0 : Area.regs ∈ A) {s₀ s : State} (d : Nat) (h₀ : Within A s₀ s) :
    Within A s₀ (State.showSlots s d) := by
  unfold State.showSlots
  repeat' first | (extract_lets +onlyGivenNames x; revert x; with_reducible first | apply Within.letS A s₀ | apply Within.letQ A s₀ | apply Within.letP A s₀ | apply Within.letV) | intro _ | with_reducible assumption | with_reducible apply State.wr_within | with_reducible apply State.atLeast_within | with_reducible apply_assumption

theorem State.dropUpdates_within {A : List Area} (a0 : Area.regs ∈ A) (a1 : Area.hbm ∈ A) {s₀ s : State} (c : Nat) (xids : List Nat) (h₀ : Within A s₀ s) :
    Within A s₀ (State.dropUpdates s c xids) := by
  unfold State.dropUpdates
  repeat' first | with_reducible exact fun _ k => k | (extract_lets +onlyGivenNames x; revert x; with_reducible first | apply Within.letS A s₀ | apply Within.letQ A s₀ | apply Within.letP A s₀ | apply Within.letF A s₀ | apply Within.letK A s₀ | apply Within.letG A s₀ | apply Within.letF1x A s₀ | apply Within.letH A s₀ | apply Within.letV) | intro _ | with_reducible assumption | with_reducible apply Within.foldl | with_reducible apply Within.foldlPair | with_reducible apply State.setHbm_within | with_reducible apply State.showSlots_within | with_reducible apply_assumption

theorem State.spill_within {A : List Area} (a0 : Area.regs ∈ A) (a1 : Area.hbm ∈ A) {s₀ s : State} (d : Nat) (h₀ : Within A s₀ s) :
    Within A s₀ (State.spill s d) := by
  unfold State.spill
  repeat' first | with_reducible exact fun _ k => k | (extract_lets +onlyGivenNames x; revert x; with_reducible first | apply Within.letS A s₀ | apply Within.letQ A s₀ | apply Within.letP A s₀ | apply Within.letF A s₀ | apply Within.letK A s₀ | apply Within.letG A s₀ | apply Within.letF1x A s₀ | apply Within.letH A s₀ | apply Within.letV) | intro _ | with_reducible assumption | with_reducible apply Within.foldl | with_reducible apply Within.foldlPair | with_reducible apply State.setHbm_within | with_reducible apply State.bump_within | split | with_reducible apply_assumption

theorem State.mergeAdd_within {A : List Area} (a0 : Area.regs ∈ A) (a1 : Area.hbm ∈ A) {s₀ s : State} (d c xid b : Nat) (xs : List (Nat × Nat)) (h₀ : Within A s₀ s) :
    Within A s₀ (State.mergeAdd s d c xid b xs) := by
  unfold State.mergeAdd
  repeat' first | with_reducible exact fun _ k => k | (extract_lets +onlyGivenNames x; revert x; with_reducible first | apply Within.letS A s₀ | apply Within.letQ A s₀ | apply Within.letP A s₀ | apply Within.letF A s₀ | apply Within.letK A s₀ | apply Within.letG A s₀ | apply Within.letF1x A s₀ | apply Within.letH A s₀ | apply Within.letV) | intro _ | with_reducible assumption | with_reducible apply Within.ite | with_reducible apply State.setHbm_within | with_reducible apply State.spill_within | with_reducible apply State.showSlots_within | split | with_reducible apply_assumption

end Sys2Proof.Machine
end

