-- ==== Sys2Proof/Laws/EngineWithin.lean ====
section
/-! SUPPORT. The parts of the state that the definitions of Machine/Engine.lean reach. -/

set_option linter.unreachableTactic false
set_option linter.unusedTactic false

namespace Sys2Proof.Machine

theorem State.learnMiss_within {A : List Area} (a0 : Area.regs ∈ A) (a1 : Area.ttbs ∈ A) {s₀ s : State} (c : Nat) (x : Miss) (h₀ : Within A s₀ s) :
    Within A s₀ (State.learnMiss s c x) := by
  unfold State.learnMiss
  repeat' first | (extract_lets +onlyGivenNames x; revert x; with_reducible first | apply Within.letS A s₀ | apply Within.letQ A s₀ | apply Within.letP A s₀ | apply Within.letV) | intro _ | with_reducible assumption | with_reducible apply Within.ite | with_reducible apply State.bump_within | with_reducible apply State.setTtb_within | split | with_reducible apply_assumption

theorem State.instError_within {A : List Area} (a0 : Area.regs ∈ A) (a1 : Area.ttbs ∈ A) (a2 : Area.insts ∈ A) (a3 : Area.flt ∈ A) (a4 : Area.agFlt ∈ A) {s₀ s : State} (c xid cls die : Nat) (prevents : Bool) (h₀ : Within A s₀ s) :
    Within A s₀ (State.instError s c xid cls die prevents) := by
  unfold State.instError
  repeat' first | (extract_lets +onlyGivenNames x; revert x; with_reducible first | apply Within.letS A s₀ | apply Within.letQ A s₀ | apply Within.letP A s₀ | apply Within.letV) | intro _ | with_reducible assumption | with_reducible apply Within.ite | with_reducible apply State.setInst_within | with_reducible apply State.bump_within | with_reducible apply State.wr_within | with_reducible apply State.detect_within | with_reducible apply State.learnMiss_within | split | with_reducible apply_assumption

theorem State.codecError_within {A : List Area} (a0 : Area.regs ∈ A) (a1 : Area.flt ∈ A) (a2 : Area.agFlt ∈ A) {s₀ s : State} (die cls c xid engine : Nat) (h₀ : Within A s₀ s) :
    Within A s₀ (State.codecError s die cls c xid engine) := by
  unfold State.codecError
  repeat' first | (extract_lets +onlyGivenNames x; revert x; with_reducible first | apply Within.letS A s₀ | apply Within.letQ A s₀ | apply Within.letP A s₀ | apply Within.letV) | intro _ | with_reducible assumption | with_reducible apply State.wr_within | with_reducible apply State.detect_within | with_reducible apply_assumption

theorem execEngineError_within {A : List Area} (a0 : Area.regs ∈ A) (a1 : Area.ttbs ∈ A) (a2 : Area.insts ∈ A) (a3 : Area.flt ∈ A) (a4 : Area.agFlt ∈ A) {s₀ s : State} (ctx xid cls : Nat) (place : EnginePlace) (h₀ : Within A s₀ s) :
    Out.within A s₀ (execEngineError ctx xid cls place s) := by
  unfold execEngineError
  show Within A s₀ _
  repeat' first | (extract_lets +onlyGivenNames x; revert x; with_reducible first | apply Within.letS A s₀ | apply Within.letQ A s₀ | apply Within.letP A s₀ | apply Within.letV) | intro _ | with_reducible assumption | with_reducible apply Within.ite | with_reducible apply State.codecError_within | with_reducible apply State.instError_within | split | with_reducible apply_assumption

theorem State.showOpen_within {A : List Area} (a0 : Area.regs ∈ A) {s₀ s : State}  (h₀ : Within A s₀ s) :
    Within A s₀ (State.showOpen s) := by
  unfold State.showOpen
  repeat' first | (extract_lets +onlyGivenNames x; revert x; with_reducible first | apply Within.letS A s₀ | apply Within.letQ A s₀ | apply Within.letP A s₀ | apply Within.letV) | intro _ | with_reducible assumption | with_reducible apply State.wr_within | with_reducible apply State.atLeast_within | with_reducible apply_assumption

theorem State.clearLocals_within {A : List Area} (a0 : Area.tile ∈ A) {s₀ s : State} (num : Nat) (h₀ : Within A s₀ s) :
    Within A s₀ (State.clearLocals s num) := by
  unfold State.clearLocals
  repeat' first | with_reducible exact fun _ k => k | intro _ | with_reducible assumption | with_reducible apply State.setTile_within

theorem State.openInst_within {A : List Area} (a0 : Area.regs ∈ A) (a1 : Area.insts ∈ A) (a2 : Area.tile ∈ A) (a3 : Area.hbm ∈ A) {s₀ s : State} (c st iter : Nat) (x : XRef × Program) (h₀ : Within A s₀ s) :
    Within A s₀ (State.openInst s c st iter x) := by
  unfold State.openInst
  repeat' first | with_reducible exact fun _ k => k | (extract_lets +onlyGivenNames x; revert x; with_reducible first | apply Within.letS A s₀ | apply Within.letQ A s₀ | apply Within.letP A s₀ | apply Within.letV) | intro _ | with_reducible assumption | with_reducible apply Within.ite | with_reducible apply State.clearLocals_within | with_reducible apply State.dropUpdates_within | with_reducible apply State.setHbm_within | with_reducible apply State.showOpen_within | split | with_reducible apply Within.insts | with_reducible apply_assumption

theorem execInstanceOpen_within {A : List Area} (a0 : Area.regs ∈ A) (a1 : Area.insts ∈ A) (a2 : Area.tile ∈ A) (a3 : Area.hbm ∈ A) {s₀ s : State} (ctx : Nat) (h₀ : Within A s₀ s) :
    Out.within A s₀ (execInstanceOpen ctx s) := by
  unfold execInstanceOpen
  show Within A s₀ _
  repeat' first | with_reducible exact fun _ k => k | (extract_lets +onlyGivenNames x; revert x; with_reducible first | apply Within.letS A s₀ | apply Within.letQ A s₀ | apply Within.letP A s₀ | apply Within.letV) | intro _ | with_reducible assumption | with_reducible apply Within.ite | with_reducible apply Within.foldl | with_reducible apply Within.foldlPair | with_reducible apply State.openInst_within | split | with_reducible apply_assumption

theorem State.closeStep_within {A : List Area} (a0 : Area.regs ∈ A) (a1 : Area.insts ∈ A) (a2 : Area.tile ∈ A) {s₀ s : State} (c st iter : Nat) (h₀ : Within A s₀ s) :
    Within A s₀ (State.closeStep s c st iter) := by
  unfold State.closeStep
  repeat' first | with_reducible exact fun _ k => k | (extract_lets +onlyGivenNames x; revert x; with_reducible first | apply Within.letS A s₀ | apply Within.letQ A s₀ | apply Within.letP A s₀ | apply Within.letF A s₀ | apply Within.letK A s₀ | apply Within.letG A s₀ | apply Within.letF1x A s₀ | apply Within.letH A s₀ | apply Within.letV) | intro _ | with_reducible assumption | with_reducible apply Within.ite | with_reducible apply State.setTile_within | with_reducible apply State.showOpen_within | split | with_reducible apply Within.insts | with_reducible apply_assumption

theorem State.countDecode_within {A : List Area} (a0 : Area.regs ∈ A) (a1 : Area.flt ∈ A) (a2 : Area.agFlt ∈ A) {s₀ s : State} (mdie : Option Nat) (xid lid : Nat) (d : Decoded) (h₀ : Within A s₀ s) :
    Within A s₀ (State.countDecode s mdie xid lid d) := by
  unfold State.countDecode
  repeat' first | (extract_lets +onlyGivenNames x; revert x; with_reducible first | apply Within.letS A s₀ | apply Within.letQ A s₀ | apply Within.letP A s₀ | apply Within.letV) | intro _ | with_reducible assumption | with_reducible apply Within.ite | with_reducible apply State.bump_within | with_reducible apply State.detect_within | split | with_reducible apply_assumption

theorem State.countEncode_within {A : List Area} (a0 : Area.regs ∈ A) {s₀ s : State} (mdie : Option Nat) (xid : Nat) (e : Encoded) (h₀ : Within A s₀ s) :
    Within A s₀ (State.countEncode s mdie xid e) := by
  unfold State.countEncode
  repeat' first | (extract_lets +onlyGivenNames x; revert x; with_reducible first | apply Within.letS A s₀ | apply Within.letQ A s₀ | apply Within.letP A s₀ | apply Within.letV) | intro _ | with_reducible assumption | with_reducible apply State.bump_within | split | with_reducible apply_assumption

theorem State.enterDecoded_within {A : List Area} (a0 : Area.regs ∈ A) (a1 : Area.insts ∈ A) (a2 : Area.hbm ∈ A) {s₀ s : State} (c : Nat) (m : Image) (p : Program) (i : Instance) (fid inp e0 : Nat) (vals : List Nat) (h₀ : Within A s₀ s) :
    Within A s₀ (State.enterDecoded s c m p i fid inp e0 vals) := by
  unfold State.enterDecoded
  repeat' first | with_reducible exact fun _ k => k | (extract_lets +onlyGivenNames x; revert x; with_reducible first | apply Within.letS A s₀ | apply Within.letQ A s₀ | apply Within.letP A s₀ | apply Within.letV) | intro _ | with_reducible assumption | with_reducible apply Within.ite | with_reducible apply State.setInst_within | with_reducible apply State.mergeAdd_within | split | with_reducible apply_assumption

theorem State.decodeIn_within {A : List Area} (a0 : Area.regs ∈ A) (a1 : Area.insts ∈ A) (a2 : Area.hbm ∈ A) (a3 : Area.flt ∈ A) (a4 : Area.agFlt ∈ A) {s₀ s : State} (c xid fid inp b : Nat) (h₀ : Within A s₀ s) :
    Within A s₀ (State.decodeIn s c xid fid inp b) := by
  unfold State.decodeIn
  repeat' first | with_reducible exact fun _ k => k | (extract_lets +onlyGivenNames x; revert x; with_reducible first | apply Within.letS A s₀ | apply Within.letQ A s₀ | apply Within.letP A s₀ | apply Within.letV) | intro _ | with_reducible assumption | with_reducible apply Within.ite | with_reducible apply State.countDecode_within | with_reducible apply State.enterDecoded_within | split | with_reducible apply_assumption

theorem execBlockDecode_within {A : List Area} (a0 : Area.regs ∈ A) (a1 : Area.insts ∈ A) (a2 : Area.hbm ∈ A) (a3 : Area.flt ∈ A) (a4 : Area.agFlt ∈ A) {s₀ s : State} (ctx xid fid input block : Nat) (h₀ : Within A s₀ s) :
    Out.within A s₀ (execBlockDecode ctx xid fid input block s) := by
  unfold execBlockDecode
  show Within A s₀ _
  repeat' first | with_reducible exact fun _ k => k | with_reducible assumption | with_reducible apply State.decodeIn_within

theorem State.decodeRest_within {A : List Area} (a0 : Area.regs ∈ A) (a1 : Area.insts ∈ A) (a2 : Area.hbm ∈ A) (a3 : Area.flt ∈ A) (a4 : Area.agFlt ∈ A) {s₀ s : State} (c : Nat) (p : Program) (i : Instance) (h₀ : Within A s₀ s) :
    Within A s₀ (State.decodeRest s c p i) := by
  unfold State.decodeRest
  repeat' first | with_reducible exact fun _ k => k | (extract_lets +onlyGivenNames x; revert x; with_reducible first | apply Within.letS A s₀ | apply Within.letQ A s₀ | apply Within.letP A s₀ | apply Within.letV) | intro _ | with_reducible assumption | with_reducible apply Within.ite | with_reducible apply Within.foldl | with_reducible apply Within.foldlPair | with_reducible apply State.decodeIn_within | split | with_reducible apply_assumption

theorem State.absorb_within {A : List Area} (a0 : Area.regs ∈ A) (a1 : Area.insts ∈ A) (a2 : Area.hbm ∈ A) {s₀ s : State} (m : Image) (p : Program) (i : Instance) (fid inp idx : Nat) (payload : List Word) (h₀ : Within A s₀ s) :
    Within A s₀ (State.absorb s m p i fid inp idx payload) := by
  unfold State.absorb
  repeat' first | with_reducible exact fun _ k => k | (extract_lets +onlyGivenNames x; revert x; with_reducible first | apply Within.letS A s₀ | apply Within.letQ A s₀ | apply Within.letP A s₀ | apply Within.letF A s₀ | apply Within.letK A s₀ | apply Within.letG A s₀ | apply Within.letF1x A s₀ | apply Within.letH A s₀ | apply Within.letV) | intro _ | with_reducible assumption | with_reducible apply Within.ite | with_reducible apply State.mergeAdd_within | with_reducible apply State.setHbm_within | with_reducible apply State.setInst_within | split | with_reducible apply_assumption

theorem State.countCell_within {A : List Area} (a0 : Area.regs ∈ A) (a1 : Area.insts ∈ A) {s₀ s : State} (p : Program) (c xid fid inp : Nat) (h₀ : Within A s₀ s) :
    Within A s₀ (State.countCell s p c xid fid inp) := by
  unfold State.countCell
  repeat' first | (extract_lets +onlyGivenNames x; revert x; with_reducible first | apply Within.letS A s₀ | apply Within.letQ A s₀ | apply Within.letP A s₀ | apply Within.letV) | intro _ | with_reducible assumption | with_reducible apply Within.ite | with_reducible apply State.setInst_within | with_reducible apply State.bump_within | split | with_reducible apply_assumption

theorem State.contribute_within {A : List Area} (a0 : Area.regs ∈ A) (a1 : Area.aregs ∈ A) (a2 : Area.insts ∈ A) (a3 : Area.hbm ∈ A) (a4 : Area.flt ∈ A) (a5 : Area.agFlt ∈ A) {s₀ s : State} (port c : Nat) (x : Cell) (h₀ : Within A s₀ s) :
    Within A s₀ (State.contribute s port c x) := by
  unfold State.contribute
  repeat' first | with_reducible exact fun _ k => k | (extract_lets +onlyGivenNames x; revert x; with_reducible first | apply Within.letS A s₀ | apply Within.letQ A s₀ | apply Within.letP A s₀ | apply Within.letF A s₀ | apply Within.letK A s₀ | apply Within.letG A s₀ | apply Within.letF1x A s₀ | apply Within.letH A s₀ | apply Within.letV) | intro _ | with_reducible assumption | with_reducible apply Within.ite | with_reducible apply State.discardC_within | with_reducible apply State.bump_within | with_reducible apply State.detect_within | with_reducible apply State.absorb_within | with_reducible apply State.countCell_within | split | with_reducible apply_assumption

theorem execContribCell_within {A : List Area} (a0 : Area.regs ∈ A) (a1 : Area.aregs ∈ A) (a2 : Area.insts ∈ A) (a3 : Area.hbm ∈ A) (a4 : Area.flt ∈ A) (a5 : Area.agFlt ∈ A) {s₀ s : State} (port : Nat) (cell : Cell) (h₀ : Within A s₀ s) :
    Out.within A s₀ (execContribCell port cell s) := by
  unfold execContribCell
  show Within A s₀ _
  repeat' first | with_reducible exact fun _ k => k | intro _ | with_reducible assumption | with_reducible apply Within.ite | with_reducible apply State.discard_within | with_reducible apply State.contribute_within | with_reducible apply State.discardC_within | with_reducible apply State.detect_within | split

theorem State.putResult_within {A : List Area} (a0 : Area.regs ∈ A) (a1 : Area.tile ∈ A) (a2 : Area.hbm ∈ A) {s₀ s : State} (c : Nat) (m : Image) (p : Program) (xid o : Nat) (bs : List Byte) (h₀ : Within A s₀ s) :
    Within A s₀ (State.putResult s c m p xid o bs) := by
  unfold State.putResult
  repeat' first | with_reducible exact fun _ k => k | with_reducible assumption | with_reducible apply Within.ite | with_reducible apply State.regionWrite_within | with_reducible apply State.allocWrite_within | split

theorem State.encodeBlk_within {A : List Area} (a0 : Area.regs ∈ A) (a1 : Area.insts ∈ A) (a2 : Area.tile ∈ A) (a3 : Area.hbm ∈ A) {s₀ s : State} (c : Nat) (m : Image) (p : Program) (i : Instance) (k b : Nat) (h₀ : Within A s₀ s) :
    Within A s₀ (State.encodeBlk s c m p i k b) := by
  unfold State.encodeBlk
  repeat' first | with_reducible exact fun _ k => k | (extract_lets +onlyGivenNames x; revert x; with_reducible first | apply Within.letS A s₀ | apply Within.letQ A s₀ | apply Within.letP A s₀ | apply Within.letV) | intro _ | with_reducible assumption | with_reducible apply Within.ite | with_reducible apply State.countEncode_within | with_reducible apply State.putResult_within | with_reducible apply State.setInst_within | split | with_reducible apply_assumption

theorem State.encodePart_within {A : List Area} (a0 : Area.regs ∈ A) (a1 : Area.insts ∈ A) (a2 : Area.tile ∈ A) (a3 : Area.hbm ∈ A) {s₀ s : State} (c : Nat) (m : Image) (p : Program) (i : Instance) (k : Nat) (h₀ : Within A s₀ s) :
    Within A s₀ (State.encodePart s c m p i k) := by
  unfold State.encodePart
  repeat' first | with_reducible exact fun _ k => k | intro _ | with_reducible assumption | with_reducible apply Within.foldl | with_reducible apply State.encodeBlk_within | split

theorem execBlockEncode_within {A : List Area} (a0 : Area.regs ∈ A) (a1 : Area.insts ∈ A) (a2 : Area.tile ∈ A) (a3 : Area.hbm ∈ A) {s₀ s : State} (ctx xid part block : Nat) (h₀ : Within A s₀ s) :
    Out.within A s₀ (execBlockEncode ctx xid part block s) := by
  unfold execBlockEncode
  show Within A s₀ _
  repeat' first | with_reducible exact fun _ k => k | with_reducible assumption | with_reducible apply Within.ite | with_reducible apply State.encodeBlk_within | split

theorem State.countOut_within {A : List Area} (a0 : Area.regs ∈ A) {s₀ s : State} (c : Nat) (xs : List Nat) (h₀ : Within A s₀ s) :
    Within A s₀ (State.countOut s c xs) := by
  unfold State.countOut
  repeat' first | with_reducible assumption | with_reducible apply State.bump_within

theorem State.putRow_within {A : List Area} (a0 : Area.regs ∈ A) (a1 : Area.tile ∈ A) (a2 : Area.hbm ∈ A) {s₀ s : State} (c : Nat) (m : Image) (p : Program) (xid o : Nat) (xs : List Nat) (h₀ : Within A s₀ s) :
    Within A s₀ (State.putRow s c m p xid o xs) := by
  unfold State.putRow
  repeat' first | with_reducible exact fun _ k => k | (extract_lets +onlyGivenNames x; revert x; with_reducible first | apply Within.letS A s₀ | apply Within.letQ A s₀ | apply Within.letP A s₀ | apply Within.letV) | intro _ | with_reducible assumption | with_reducible apply Within.ite | with_reducible apply State.putResult_within | split | with_reducible apply_assumption

theorem State.finishReduce_within {A : List Area} (a0 : Area.regs ∈ A) (a1 : Area.insts ∈ A) (a2 : Area.tile ∈ A) (a3 : Area.hbm ∈ A) {s₀ s : State} (c : Nat) (m : Image) (p : Program) (i : Instance) (h₀ : Within A s₀ s) :
    Within A s₀ (State.finishReduce s c m p i) := by
  unfold State.finishReduce
  repeat' first | with_reducible exact fun _ k => k | (extract_lets +onlyGivenNames x; revert x; with_reducible first | apply Within.letS A s₀ | apply Within.letQ A s₀ | apply Within.letP A s₀ | apply Within.letV) | intro _ | with_reducible assumption | with_reducible apply Within.ite | with_reducible apply State.countOut_within | with_reducible apply State.encodePart_within | with_reducible apply State.putResult_within | split | with_reducible apply_assumption

theorem State.finishGather_within {A : List Area} (a0 : Area.regs ∈ A) (a1 : Area.insts ∈ A) (a2 : Area.tile ∈ A) (a3 : Area.hbm ∈ A) {s₀ s : State} (c : Nat) (m : Image) (p : Program) (i : Instance) (h₀ : Within A s₀ s) :
    Within A s₀ (State.finishGather s c m p i) := by
  unfold State.finishGather
  repeat' first | with_reducible exact fun _ k => k | (extract_lets +onlyGivenNames x; revert x; with_reducible first | apply Within.letS A s₀ | apply Within.letQ A s₀ | apply Within.letP A s₀ | apply Within.letV) | intro _ | with_reducible assumption | with_reducible apply Within.ite | with_reducible apply Within.foldl | with_reducible apply Within.foldlPair | with_reducible apply State.countOut_within | with_reducible apply State.putResult_within | with_reducible apply State.encodePart_within | with_reducible apply State.putRow_within | split | with_reducible apply_assumption

theorem State.finishTransform_within {A : List Area} (a0 : Area.regs ∈ A) (a1 : Area.insts ∈ A) (a2 : Area.tile ∈ A) (a3 : Area.hbm ∈ A) {s₀ s : State} (c : Nat) (m : Image) (p : Program) (i : Instance) (h₀ : Within A s₀ s) :
    Within A s₀ (State.finishTransform s c m p i) := by
  unfold State.finishTransform
  repeat' first | with_reducible exact fun _ k => k | (extract_lets +onlyGivenNames x; revert x; with_reducible first | apply Within.letS A s₀ | apply Within.letQ A s₀ | apply Within.letP A s₀ | apply Within.letV) | intro _ | with_reducible assumption | with_reducible apply Within.ite | with_reducible apply Within.foldl | with_reducible apply State.bump_within | with_reducible apply State.countOut_within | with_reducible apply State.encodeBlk_within | with_reducible apply State.putRow_within | with_reducible apply State.putResult_within | split | with_reducible apply_assumption

theorem State.finishSelect_within {A : List Area} (a0 : Area.regs ∈ A) (a1 : Area.tile ∈ A) (a2 : Area.hbm ∈ A) {s₀ s : State} (c : Nat) (m : Image) (p : Program) (i : Instance) (h₀ : Within A s₀ s) :
    Within A s₀ (State.finishSelect s c m p i) := by
  unfold State.finishSelect
  repeat' first | with_reducible exact fun _ k => k | (extract_lets +onlyGivenNames x; revert x; with_reducible first | apply Within.letS A s₀ | apply Within.letQ A s₀ | apply Within.letP A s₀ | apply Within.letV) | intro _ | with_reducible assumption | with_reducible apply Within.ite | with_reducible apply Within.foldl | with_reducible apply Within.foldlPair | with_reducible apply State.bump_within | with_reducible apply State.putResult_within | split | with_reducible apply_assumption

theorem State.doStage1_within {A : List Area} (a0 : Area.regs ∈ A) (a1 : Area.insts ∈ A) (a2 : Area.tile ∈ A) (a3 : Area.hbm ∈ A) (a4 : Area.flt ∈ A) (a5 : Area.agFlt ∈ A) {s₀ s : State} (c : Nat) (m : Image) (p : Program) (i : Instance) (h₀ : Within A s₀ s) :
    Within A s₀ (State.doStage1 s c m p i) := by
  unfold State.doStage1
  repeat' first | with_reducible exact fun _ k => k | (extract_lets +onlyGivenNames x; revert x; with_reducible first | apply Within.letS A s₀ | apply Within.letQ A s₀ | apply Within.letP A s₀ | apply Within.letV) | intro _ | with_reducible assumption | with_reducible apply Within.foldl | with_reducible apply Within.foldlPair | with_reducible apply State.decodeRest_within | with_reducible apply State.bump_within | with_reducible apply State.setInst_within | with_reducible apply State.putResult_within | with_reducible apply State.encodePart_within | split | with_reducible apply_assumption

theorem execRouteCombineStage1_within {A : List Area} (a0 : Area.regs ∈ A) (a1 : Area.insts ∈ A) (a2 : Area.tile ∈ A) (a3 : Area.hbm ∈ A) (a4 : Area.flt ∈ A) (a5 : Area.agFlt ∈ A) {s₀ s : State} (ctx xid : Nat) (h₀ : Within A s₀ s) :
    Out.within A s₀ (execRouteCombineStage1 ctx xid s) := by
  unfold execRouteCombineStage1
  show Within A s₀ _
  repeat' first | with_reducible exact fun _ k => k | intro _ | with_reducible assumption | with_reducible apply Within.ite | with_reducible apply State.doStage1_within | split

theorem State.finishRoute_within {A : List Area} (a0 : Area.regs ∈ A) (a1 : Area.insts ∈ A) (a2 : Area.tile ∈ A) (a3 : Area.hbm ∈ A) (a4 : Area.flt ∈ A) (a5 : Area.agFlt ∈ A) {s₀ s : State} (c : Nat) (m : Image) (p : Program) (i : Instance) (h₀ : Within A s₀ s) :
    Within A s₀ (State.finishRoute s c m p i) := by
  unfold State.finishRoute
  repeat' first | with_reducible exact fun _ k => k | (extract_lets +onlyGivenNames x; revert x; with_reducible first | apply Within.letS A s₀ | apply Within.letQ A s₀ | apply Within.letP A s₀ | apply Within.letV) | intro _ | with_reducible assumption | with_reducible apply Within.ite | with_reducible apply Within.foldl | with_reducible apply State.doStage1_within | with_reducible apply State.countOut_within | with_reducible apply State.putResult_within | with_reducible apply State.encodePart_within | split | with_reducible apply_assumption

theorem State.sectorFails_within {A : List Area} (a0 : Area.regs ∈ A) (a1 : Area.flt ∈ A) (a2 : Area.agFlt ∈ A) {s₀ s : State} (m sector : Nat) (h₀ : Within A s₀ s) :
    Within A s₀ (State.sectorFails s m sector) := by
  unfold State.sectorFails
  repeat' first | (extract_lets +onlyGivenNames x; revert x; with_reducible first | apply Within.letS A s₀ | apply Within.letQ A s₀ | apply Within.letP A s₀ | apply Within.letV) | intro _ | with_reducible assumption | with_reducible apply State.bump_within | with_reducible apply State.wr_within | with_reducible apply State.detect_within | with_reducible apply_assumption

theorem State.nmuFails_within {A : List Area} (a0 : Area.regs ∈ A) (a1 : Area.ttbs ∈ A) (a2 : Area.insts ∈ A) (a3 : Area.flt ∈ A) (a4 : Area.agFlt ∈ A) {s₀ s : State} (m c xid : Nat) (h₀ : Within A s₀ s) :
    Within A s₀ (State.nmuFails s m c xid) := by
  unfold State.nmuFails
  repeat' first | (extract_lets +onlyGivenNames x; revert x; with_reducible first | apply Within.letS A s₀ | apply Within.letQ A s₀ | apply Within.letP A s₀ | apply Within.letV) | intro _ | with_reducible assumption | with_reducible apply State.bump_within | with_reducible apply State.wr_within | with_reducible apply State.instError_within | with_reducible apply_assumption

theorem State.mergeDone_within {A : List Area} (a0 : Area.regs ∈ A) (a1 : Area.ttbs ∈ A) (a2 : Area.insts ∈ A) (a3 : Area.tile ∈ A) (a4 : Area.hbm ∈ A) (a5 : Area.flt ∈ A) (a6 : Area.agFlt ∈ A) {s₀ s : State} (c : Nat) (m : Image) (p : Program) (i : Instance) (b : Nat) (h₀ : Within A s₀ s) :
    Within A s₀ (State.mergeDone s c m p i b) := by
  unfold State.mergeDone
  repeat' first | with_reducible exact fun _ k => k | (extract_lets +onlyGivenNames x; revert x; with_reducible first | apply Within.letS A s₀ | apply Within.letQ A s₀ | apply Within.letP A s₀ | apply Within.letF A s₀ | apply Within.letK A s₀ | apply Within.letG A s₀ | apply Within.letF1x A s₀ | apply Within.letH A s₀ | apply Within.letV) | intro _ | with_reducible assumption | with_reducible apply Within.ite | with_reducible apply Within.foldl | with_reducible apply Within.foldlPair | with_reducible apply State.sectorFails_within | with_reducible apply State.nmuFails_within | with_reducible apply State.setHbm_within | with_reducible apply State.showSlots_within | with_reducible apply State.setInst_within | with_reducible apply State.applyOpt_within | with_reducible apply State.bump_within | with_reducible apply State.countOut_within | with_reducible apply State.countEncode_within | with_reducible apply State.putResult_within | split | with_reducible apply_assumption

theorem execMergeBlockComplete_within {A : List Area} (a0 : Area.regs ∈ A) (a1 : Area.ttbs ∈ A) (a2 : Area.insts ∈ A) (a3 : Area.tile ∈ A) (a4 : Area.hbm ∈ A) (a5 : Area.flt ∈ A) (a6 : Area.agFlt ∈ A) {s₀ s : State} (ctx xid block : Nat) (h₀ : Within A s₀ s) :
    Out.within A s₀ (execMergeBlockComplete ctx xid block s) := by
  unfold execMergeBlockComplete
  show Within A s₀ _
  repeat' first | with_reducible exact fun _ k => k | intro _ | with_reducible assumption | with_reducible apply Within.ite | with_reducible apply State.instError_within | with_reducible apply State.mergeDone_within | split

theorem State.finishMerge_within {A : List Area} (a0 : Area.regs ∈ A) (a1 : Area.ttbs ∈ A) (a2 : Area.insts ∈ A) (a3 : Area.tile ∈ A) (a4 : Area.hbm ∈ A) (a5 : Area.flt ∈ A) (a6 : Area.agFlt ∈ A) {s₀ s : State} (c : Nat) (m : Image) (p : Program) (i : Instance) (h₀ : Within A s₀ s) :
    Within A s₀ (State.finishMerge s c m p i) := by
  unfold State.finishMerge
  repeat' first | with_reducible exact fun _ k => k | intro _ | with_reducible assumption | with_reducible apply Within.ite | with_reducible apply Within.foldl | with_reducible apply State.mergeDone_within | split

theorem State.finish_within {A : List Area} (a0 : Area.regs ∈ A) (a1 : Area.ttbs ∈ A) (a2 : Area.insts ∈ A) (a3 : Area.tile ∈ A) (a4 : Area.hbm ∈ A) (a5 : Area.flt ∈ A) (a6 : Area.agFlt ∈ A) {s₀ s : State} (c : Nat) (m : Image) (p : Program) (i : Instance) (h₀ : Within A s₀ s) :
    Within A s₀ (State.finish s c m p i) := by
  unfold State.finish
  repeat' first | with_reducible exact fun _ k => k | (extract_lets +onlyGivenNames x; revert x; with_reducible first | apply Within.letS A s₀ | apply Within.letQ A s₀ | apply Within.letP A s₀ | apply Within.letV) | intro _ | with_reducible assumption | with_reducible apply Within.ite | with_reducible apply State.decodeRest_within | with_reducible apply State.finishMerge_within | with_reducible apply State.finishReduce_within | with_reducible apply State.finishGather_within | with_reducible apply State.finishTransform_within | with_reducible apply State.finishSelect_within | with_reducible apply State.finishRoute_within | split | with_reducible apply_assumption

theorem State.becomeReady_within {A : List Area} (a0 : Area.regs ∈ A) (a1 : Area.insts ∈ A) {s₀ s : State} (c xid : Nat) (i : Instance) (h₀ : Within A s₀ s) :
    Within A s₀ (State.becomeReady s c xid i) := by
  unfold State.becomeReady
  repeat' first | intro _ | with_reducible assumption | with_reducible apply State.setInst_within | with_reducible apply State.bump_within | with_reducible apply State.atLeast_within

theorem execInstanceReady_within {A : List Area} (a0 : Area.regs ∈ A) (a1 : Area.ttbs ∈ A) (a2 : Area.insts ∈ A) (a3 : Area.tile ∈ A) (a4 : Area.hbm ∈ A) (a5 : Area.flt ∈ A) (a6 : Area.agFlt ∈ A) {s₀ s : State} (ctx xid : Nat) (h₀ : Within A s₀ s) :
    Out.within A s₀ (execInstanceReady ctx xid s) := by
  unfold execInstanceReady
  show Within A s₀ _
  repeat' first | with_reducible exact fun _ k => k | (extract_lets +onlyGivenNames x; revert x; with_reducible first | apply Within.letS A s₀ | apply Within.letQ A s₀ | apply Within.letP A s₀ | apply Within.letV) | intro _ | with_reducible assumption | with_reducible apply Within.ite | with_reducible apply State.instError_within | with_reducible apply State.finish_within | with_reducible apply State.becomeReady_within | split | with_reducible apply_assumption

theorem State.cmapPort_within {A : List Area} (a0 : Area.ttbs ∈ A) {s₀ s : State} (c p : Nat) (h₀ : Within A s₀ s) :
    Within A s₀ (State.cmapPort s c p) := by
  unfold State.cmapPort
  repeat' first | intro _ | with_reducible assumption | with_reducible apply State.cmapAdd_within | split

theorem State.noteSent_within {A : List Area} (a0 : Area.insts ∈ A) {s₀ s : State} (i : Instance) (k n : Nat) (h₀ : Within A s₀ s) :
    Within A s₀ (State.noteSent s i k n) := by
  unfold State.noteSent
  repeat' first | (extract_lets +onlyGivenNames x; revert x; with_reducible first | apply Within.letS A s₀ | apply Within.letQ A s₀ | apply Within.letP A s₀ | apply Within.letV) | intro _ | with_reducible assumption | with_reducible apply Within.ite | with_reducible apply State.setInst_within | split | with_reducible apply_assumption

theorem State.sendResults_within {A : List Area} (a0 : Area.regs ∈ A) (a1 : Area.aregs ∈ A) (a2 : Area.ports ∈ A) (a3 : Area.agPorts ∈ A) (a4 : Area.ttbs ∈ A) (a5 : Area.insts ∈ A) (a6 : Area.flt ∈ A) (a7 : Area.agFlt ∈ A) {s₀ s : State} (c : Nat) (m : Image) (p : Program) (i : Instance) (k : Nat) (e : Entry) (h₀ : Within A s₀ s) :
    Within A s₀ (State.sendResults s c m p i k e) := by
  unfold State.sendResults
  repeat' first | (extract_lets +onlyGivenNames x; revert x; with_reducible first | apply Within.letS A s₀ | apply Within.letQ A s₀ | apply Within.letP A s₀ | apply Within.letV) | intro _ | with_reducible assumption | with_reducible apply Within.foldl | with_reducible apply State.sendOn_within | with_reducible apply State.noteSent_within | with_reducible apply State.cmapPort_within | with_reducible apply_assumption

theorem execResultSend_within {A : List Area} (a0 : Area.regs ∈ A) (a1 : Area.aregs ∈ A) (a2 : Area.ports ∈ A) (a3 : Area.agPorts ∈ A) (a4 : Area.ttbs ∈ A) (a5 : Area.insts ∈ A) (a6 : Area.flt ∈ A) (a7 : Area.agFlt ∈ A) {s₀ s : State} (ctx entry : Nat) (h₀ : Within A s₀ s) :
    Out.within A s₀ (execResultSend ctx entry s) := by
  unfold execResultSend
  show Within A s₀ _
  repeat' first | with_reducible assumption | with_reducible apply Within.ite | with_reducible apply State.sendResults_within | split

theorem State.sendBranch_within {A : List Area} (a0 : Area.regs ∈ A) (a1 : Area.aregs ∈ A) (a2 : Area.ports ∈ A) (a3 : Area.agPorts ∈ A) (a4 : Area.insts ∈ A) (a5 : Area.flt ∈ A) (a6 : Area.agFlt ∈ A) (a7 : Area.out ∈ A) {s₀ s : State} (p : Program) (i : Instance) (h₀ : Within A s₀ s) :
    Within A s₀ (State.sendBranch s p i) := by
  unfold State.sendBranch
  repeat' first | (extract_lets +onlyGivenNames x; revert x; with_reducible first | apply Within.letS A s₀ | apply Within.letQ A s₀ | apply Within.letP A s₀ | apply Within.letF A s₀ | apply Within.letK A s₀ | apply Within.letG A s₀ | apply Within.letF1x A s₀ | apply Within.letH A s₀ | apply Within.letV) | intro _ | with_reducible assumption | with_reducible apply Within.ite | with_reducible apply Within.foldl | with_reducible apply State.send_within | with_reducible apply State.noteSent_within | with_reducible apply State.bump_within | split | with_reducible apply_assumption

theorem execBranchTransfer_within {A : List Area} (a0 : Area.regs ∈ A) (a1 : Area.aregs ∈ A) (a2 : Area.ports ∈ A) (a3 : Area.agPorts ∈ A) (a4 : Area.insts ∈ A) (a5 : Area.hbm ∈ A) (a6 : Area.flt ∈ A) (a7 : Area.agFlt ∈ A) (a8 : Area.out ∈ A) {s₀ s : State} (ctx xid : Nat) (h₀ : Within A s₀ s) :
    Out.within A s₀ (execBranchTransfer ctx xid s) := by
  unfold execBranchTransfer
  show Within A s₀ _
  repeat' first | with_reducible exact fun _ k => k | (extract_lets +onlyGivenNames x; revert x; with_reducible first | apply Within.letS A s₀ | apply Within.letQ A s₀ | apply Within.letP A s₀ | apply Within.letV) | intro _ | with_reducible assumption | with_reducible apply Within.ite | with_reducible apply State.decodeRest_within | with_reducible apply State.becomeReady_within | with_reducible apply State.sendBranch_within | split | with_reducible apply_assumption

theorem execCdcTestGo_within {A : List Area} (a0 : Area.regs ∈ A) {s₀ s : State} (die : Nat) (h₀ : Within A s₀ s) :
    Out.within A s₀ (execCdcTestGo die s) := by
  unfold execCdcTestGo
  show Within A s₀ _
  repeat' first | (extract_lets +onlyGivenNames x; revert x; with_reducible first | apply Within.letS A s₀ | apply Within.letQ A s₀ | apply Within.letP A s₀ | apply Within.letV) | intro _ | with_reducible assumption | with_reducible apply Within.ite | with_reducible apply State.wr_within | split | with_reducible apply_assumption

theorem execCdcTestDone_within {A : List Area} (a0 : Area.regs ∈ A) {s₀ s : State} (die : Nat) (h₀ : Within A s₀ s) :
    Out.within A s₀ (execCdcTestDone die s) := by
  unfold execCdcTestDone
  show Within A s₀ _
  repeat' first | (extract_lets +onlyGivenNames x; revert x; with_reducible first | apply Within.letS A s₀ | apply Within.letQ A s₀ | apply Within.letP A s₀ | apply Within.letV) | intro _ | with_reducible assumption | with_reducible apply Within.ite | with_reducible apply Within.foldl | with_reducible apply State.wr_within | with_reducible apply State.drop_within | split | with_reducible apply_assumption

theorem execCdcGenGo_within {A : List Area} (a0 : Area.regs ∈ A) {s₀ s : State} (die : Nat) (h₀ : Within A s₀ s) :
    Out.within A s₀ (execCdcGenGo die s) := by
  unfold execCdcGenGo
  show Within A s₀ _
  repeat' first | with_reducible assumption | with_reducible apply State.wr_within

theorem execCdcGenDone_within {A : List Area} (a0 : Area.regs ∈ A) {s₀ s : State} (die : Nat) (h₀ : Within A s₀ s) :
    Out.within A s₀ (execCdcGenDone die s) := by
  unfold execCdcGenDone
  show Within A s₀ _
  repeat' first | (extract_lets +onlyGivenNames x; revert x; with_reducible first | apply Within.letS A s₀ | apply Within.letQ A s₀ | apply Within.letP A s₀ | apply Within.letV) | intro _ | with_reducible assumption | with_reducible apply Within.ite | with_reducible apply State.wr_within | split | with_reducible apply_assumption

end Sys2Proof.Machine
end

