-- ==== Sys2Proof/Laws/AgentTtbWithin.lean ====
section
/-! SUPPORT. The parts of the state that the definitions of Machine/AgentTtb.lean reach. -/

set_option linter.unreachableTactic false
set_option linter.unusedTactic false

namespace Sys2Proof.Machine

theorem State.agEvent_within {A : List Area} (a0 : Area.aregs ∈ A) (a1 : Area.flt ∈ A) (a2 : Area.agFlt ∈ A) (a3 : Area.ag ∈ A) {s₀ s : State} (type cause iter step : Nat) (h₀ : Within A s₀ s) :
    Within A s₀ (State.agEvent s type cause iter step) := by
  unfold State.agEvent
  repeat' first | with_reducible exact fun _ k => k | intro _ | with_reducible assumption | with_reducible apply Within.ite | with_reducible apply State.setAg_within | with_reducible apply State.awr_within | with_reducible apply State.detect_within | split

theorem State.sendStepmiss_within {A : List Area} (a0 : Area.regs ∈ A) (a1 : Area.aregs ∈ A) (a2 : Area.ports ∈ A) (a3 : Area.agPorts ∈ A) (a4 : Area.flt ∈ A) (a5 : Area.agFlt ∈ A) (a6 : Area.out ∈ A) {s₀ s : State} (k : AgCounter) (iter : Nat) (h₀ : Within A s₀ s) :
    Within A s₀ (State.sendStepmiss s k iter) := by
  unfold State.sendStepmiss
  repeat' first | (extract_lets +onlyGivenNames x; revert x; with_reducible first | apply Within.letS A s₀ | apply Within.letQ A s₀ | apply Within.letP A s₀ | apply Within.letV) | intro _ | with_reducible assumption | with_reducible apply State.detect_within | with_reducible apply State.send_within | with_reducible apply_assumption

theorem execCounterDeadlineCheck_within {A : List Area} (a0 : Area.regs ∈ A) (a1 : Area.aregs ∈ A) (a2 : Area.ports ∈ A) (a3 : Area.agPorts ∈ A) (a4 : Area.flt ∈ A) (a5 : Area.agFlt ∈ A) (a6 : Area.ag ∈ A) (a7 : Area.out ∈ A) {s₀ s : State} (cidx : Nat) (h₀ : Within A s₀ s) :
    Out.within A s₀ (execCounterDeadlineCheck cidx s) := by
  unfold execCounterDeadlineCheck
  show Within A s₀ _
  repeat' first | with_reducible exact fun _ k => k | (extract_lets +onlyGivenNames x; revert x; with_reducible first | apply Within.letS A s₀ | apply Within.letQ A s₀ | apply Within.letP A s₀ | apply Within.letV) | intro _ | with_reducible assumption | with_reducible apply Within.ite | with_reducible apply State.sendStepmiss_within | with_reducible apply State.setAg_within | split | with_reducible apply_assumption

theorem State.agClear_within {A : List Area} (a0 : Area.ag ∈ A) {s₀ s : State}  (h₀ : Within A s₀ s) :
    Within A s₀ (State.agClear s) := by
  unfold State.agClear
  repeat' first | with_reducible exact fun _ k => k | intro _ | with_reducible assumption | with_reducible apply State.setAg_within

theorem State.agEmpty_within {A : List Area} (a0 : Area.aregs ∈ A) (a1 : Area.flt ∈ A) (a2 : Area.agFlt ∈ A) (a3 : Area.ag ∈ A) {s₀ s : State} (cause : Nat) (h₀ : Within A s₀ s) :
    Within A s₀ (State.agEmpty s cause) := by
  unfold State.agEmpty
  repeat' first | with_reducible exact fun _ k => k | (extract_lets +onlyGivenNames x; revert x; with_reducible first | apply Within.letS A s₀ | apply Within.letQ A s₀ | apply Within.letP A s₀ | apply Within.letV) | intro _ | with_reducible assumption | with_reducible apply State.agClear_within | with_reducible apply State.awr_within | with_reducible apply State.setAg_within | with_reducible apply State.agEvent_within | with_reducible apply_assumption

theorem State.agStop_within {A : List Area} (a0 : Area.aregs ∈ A) (a1 : Area.flt ∈ A) (a2 : Area.agFlt ∈ A) (a3 : Area.ag ∈ A) {s₀ s : State}  (h₀ : Within A s₀ s) :
    Within A s₀ (State.agStop s) := by
  unfold State.agStop
  repeat' first | with_reducible exact fun _ k => k | intro _ | with_reducible assumption | with_reducible apply State.awr_within | with_reducible apply State.setAg_within | with_reducible apply State.agEvent_within

theorem State.agRebase_within {A : List Area} (a0 : Area.aregs ∈ A) {s₀ s : State} (r : Nat) (h₀ : Within A s₀ s) :
    Within A s₀ (State.agRebase s r) := by
  unfold State.agRebase
  repeat' first | with_reducible assumption | with_reducible apply State.awr_within

theorem State.agStart_within {A : List Area} (a0 : Area.aregs ∈ A) (a1 : Area.flt ∈ A) (a2 : Area.agFlt ∈ A) (a3 : Area.ag ∈ A) {s₀ s : State}  (h₀ : Within A s₀ s) :
    Within A s₀ (State.agStart s) := by
  unfold State.agStart
  repeat' first | with_reducible exact fun _ k => k | (extract_lets +onlyGivenNames x; revert x; with_reducible first | apply Within.letS A s₀ | apply Within.letQ A s₀ | apply Within.letP A s₀ | apply Within.letV) | intro _ | with_reducible assumption | with_reducible apply Within.ite | with_reducible apply State.awr_within | with_reducible apply State.setAg_within | with_reducible apply State.agRebase_within | with_reducible apply State.agEvent_within | split | with_reducible apply_assumption

theorem State.agBegin_within {A : List Area} (a0 : Area.aregs ∈ A) (a1 : Area.ag ∈ A) {s₀ s : State} (st iter : Nat) (h₀ : Within A s₀ s) :
    Within A s₀ (State.agBegin s st iter) := by
  unfold State.agBegin
  repeat' first | with_reducible exact fun _ k => k | (extract_lets +onlyGivenNames x; revert x; with_reducible first | apply Within.letS A s₀ | apply Within.letQ A s₀ | apply Within.letP A s₀ | apply Within.letV) | intro _ | with_reducible assumption | with_reducible apply State.setAg_within | with_reducible apply State.awr_within | with_reducible apply_assumption

theorem State.agBoundary_within {A : List Area} (a0 : Area.aregs ∈ A) (a1 : Area.flt ∈ A) (a2 : Area.agFlt ∈ A) (a3 : Area.ag ∈ A) {s₀ s : State}  (h₀ : Within A s₀ s) :
    Within A s₀ (State.agBoundary s) := by
  unfold State.agBoundary
  repeat' first | with_reducible exact fun _ k => k | intro _ | with_reducible assumption | with_reducible apply Within.ite | with_reducible apply State.agEmpty_within | with_reducible apply State.setAg_within | with_reducible apply State.agBegin_within | split

theorem State.agCommit_within {A : List Area} (a0 : Area.regs ∈ A) (a1 : Area.aregs ∈ A) (a2 : Area.ports ∈ A) (a3 : Area.agPorts ∈ A) (a4 : Area.flt ∈ A) (a5 : Area.agFlt ∈ A) (a6 : Area.ag ∈ A) (a7 : Area.out ∈ A) {s₀ s : State}  (h₀ : Within A s₀ s) :
    Within A s₀ (State.agCommit s) := by
  unfold State.agCommit
  repeat' first | with_reducible exact fun _ k => k | (extract_lets +onlyGivenNames x; revert x; with_reducible first | apply Within.letS A s₀ | apply Within.letQ A s₀ | apply Within.letP A s₀ | apply Within.letV) | intro _ | with_reducible assumption | with_reducible apply Within.ite | with_reducible apply Within.foldl | with_reducible apply State.sendStepmiss_within | with_reducible apply State.setAg_within | with_reducible apply State.awr_within | with_reducible apply State.agEvent_within | with_reducible apply State.agEmpty_within | split | with_reducible apply_assumption

theorem State.agVoid_within {A : List Area} (a0 : Area.aregs ∈ A) (a1 : Area.flt ∈ A) (a2 : Area.agFlt ∈ A) (a3 : Area.ag ∈ A) {s₀ s : State} (v : VoidSt) (h₀ : Within A s₀ s) :
    Within A s₀ (State.agVoid s v) := by
  unfold State.agVoid
  repeat' first | with_reducible exact fun _ k => k | (extract_lets +onlyGivenNames x; revert x; with_reducible first | apply Within.letS A s₀ | apply Within.letQ A s₀ | apply Within.letP A s₀ | apply Within.letV) | intro _ | with_reducible assumption | with_reducible apply Within.ite | with_reducible apply State.awr_within | with_reducible apply State.agStop_within | with_reducible apply State.setAg_within | split | with_reducible apply_assumption

theorem State.agRollback_within {A : List Area} (a0 : Area.aregs ∈ A) (a1 : Area.flt ∈ A) (a2 : Area.agFlt ∈ A) (a3 : Area.ag ∈ A) {s₀ s : State}  (h₀ : Within A s₀ s) :
    Within A s₀ (State.agRollback s) := by
  unfold State.agRollback
  repeat' first | with_reducible exact fun _ k => k | (extract_lets +onlyGivenNames x; revert x; with_reducible first | apply Within.letS A s₀ | apply Within.letQ A s₀ | apply Within.letP A s₀ | apply Within.letF A s₀ | apply Within.letK A s₀ | apply Within.letG A s₀ | apply Within.letF1x A s₀ | apply Within.letH A s₀ | apply Within.letV) | intro _ | with_reducible assumption | with_reducible apply Within.ite | with_reducible apply State.setAg_within | with_reducible apply State.awr_within | with_reducible apply State.agEvent_within | with_reducible apply State.agStop_within | split | with_reducible apply_assumption

theorem State.agRestart_within {A : List Area} (a0 : Area.aregs ∈ A) (a1 : Area.flt ∈ A) (a2 : Area.agFlt ∈ A) (a3 : Area.ag ∈ A) {s₀ s : State}  (h₀ : Within A s₀ s) :
    Within A s₀ (State.agRestart s) := by
  unfold State.agRestart
  repeat' first | with_reducible exact fun _ k => k | (extract_lets +onlyGivenNames x; revert x; with_reducible first | apply Within.letS A s₀ | apply Within.letQ A s₀ | apply Within.letP A s₀ | apply Within.letV) | intro _ | with_reducible assumption | with_reducible apply Within.ite | with_reducible apply State.agEmpty_within | with_reducible apply State.agStop_within | with_reducible apply State.setAg_within | with_reducible apply State.awr_within | with_reducible apply State.agRebase_within | with_reducible apply State.agEvent_within | split | with_reducible apply_assumption

end Sys2Proof.Machine
end

