-- ==== Sys2Proof/Laws/TtbWithin.lean ====
section
/-! SUPPORT. The parts of the state that the definitions of Machine/Ttb.lean reach. -/

set_option linter.unreachableTactic false
set_option linter.unusedTactic false

namespace Sys2Proof.Machine

theorem State.startMode_within {A : List Area} (a0 : Area.regs ∈ A) {s₀ s : State} (b : Nat) (host : Bool) (h₀ : Within A s₀ s) :
    Within A s₀ (State.startMode s b host) := by
  unfold State.startMode
  repeat' first | with_reducible assumption | with_reducible apply State.wr_within

theorem State.ttbTo_within {A : List Area} (a0 : Area.regs ∈ A) {s₀ s : State} (c st : Nat) (h₀ : Within A s₀ s) :
    Within A s₀ (State.ttbTo s c st) := by
  unfold State.ttbTo
  repeat' first | with_reducible assumption | with_reducible apply Within.ite | with_reducible apply State.wr_within | split

theorem State.ttbErr_within {A : List Area} (a0 : Area.regs ∈ A) {s₀ s : State} (c code detail : Nat) (h₀ : Within A s₀ s) :
    Within A s₀ (State.ttbErr s c code detail) := by
  unfold State.ttbErr
  repeat' first | with_reducible assumption | with_reducible apply State.wr_within

theorem State.askAgents_within {A : List Area} (a0 : Area.regs ∈ A) (a1 : Area.aregs ∈ A) (a2 : Area.ports ∈ A) (a3 : Area.agPorts ∈ A) (a4 : Area.route ∈ A) (a5 : Area.flt ∈ A) (a6 : Area.agFlt ∈ A) (a7 : Area.out ∈ A) {s₀ s : State} (c : Nat) (h₀ : Within A s₀ s) :
    Within A s₀ (State.askAgents s c) := by
  unfold State.askAgents
  repeat' first | intro _ | with_reducible assumption | with_reducible apply Within.foldl | with_reducible apply Within.foldlPair | with_reducible apply State.mreq_within

theorem execTtbCheck_within {A : List Area} (a0 : Area.regs ∈ A) (a1 : Area.aregs ∈ A) (a2 : Area.ports ∈ A) (a3 : Area.agPorts ∈ A) (a4 : Area.route ∈ A) (a5 : Area.ttbs ∈ A) (a6 : Area.flt ∈ A) (a7 : Area.agFlt ∈ A) (a8 : Area.out ∈ A) {s₀ s : State} (ctx : Nat) (h₀ : Within A s₀ s) :
    Out.within A s₀ (execTtbCheck ctx s) := by
  unfold execTtbCheck
  show Within A s₀ _
  repeat' first | (extract_lets +onlyGivenNames x; revert x; with_reducible first | apply Within.letS A s₀ | apply Within.letQ A s₀ | apply Within.letP A s₀ | apply Within.letV) | intro _ | with_reducible assumption | with_reducible apply Within.ite | with_reducible apply State.startMode_within | with_reducible apply State.askAgents_within | with_reducible apply State.setTtb_within | with_reducible apply State.ttbTo_within | with_reducible apply State.wr_within | split | with_reducible apply_assumption

theorem execTtbCheckDone_within {A : List Area} (a0 : Area.regs ∈ A) (a1 : Area.ttbs ∈ A) (a2 : Area.beyjo ∈ A) {s₀ s : State} (ctx : Nat) (h₀ : Within A s₀ s) :
    Out.within A s₀ (execTtbCheckDone ctx s) := by
  unfold execTtbCheckDone
  show Within A s₀ _
  repeat' first | (extract_lets +onlyGivenNames x; revert x; with_reducible first | apply Within.letS A s₀ | apply Within.letQ A s₀ | apply Within.letP A s₀ | apply Within.letV) | intro _ | with_reducible assumption | with_reducible apply Within.ite | with_reducible apply State.ttbErr_within | with_reducible apply State.wr_within | with_reducible apply State.setTtb_within | with_reducible apply State.ttbTo_within | with_reducible apply State.notifyJob_within | split | with_reducible apply_assumption

theorem State.loadWindow_within {A : List Area} (a0 : Area.regs ∈ A) (a1 : Area.aregs ∈ A) (a2 : Area.ports ∈ A) (a3 : Area.agPorts ∈ A) (a4 : Area.route ∈ A) (a5 : Area.flt ∈ A) (a6 : Area.agFlt ∈ A) (a7 : Area.out ∈ A) {s₀ s : State} (fid sel win unit per : Nat) (ws : List Nat) (n : Nat) (k : Nat) (h₀ : Within A s₀ s) :
    Within A s₀ (State.loadWindow s fid sel win unit per ws n k) := by
  induction n generalizing s k with
  | zero =>
    rw [State.loadWindow]
    repeat' first | (extract_lets +onlyGivenNames x; revert x; with_reducible first | apply Within.letS A s₀ | apply Within.letQ A s₀ | apply Within.letP A s₀ | apply Within.letV) | intro _ | with_reducible assumption | with_reducible apply Within.ite | with_reducible apply State.drop_within | with_reducible apply State.remoteWrite_within | with_reducible apply State.remoteWrites_within | split
  | succ i ih =>
    rw [State.loadWindow]
    repeat' first | (extract_lets +onlyGivenNames x; revert x; with_reducible first | apply Within.letS A s₀ | apply Within.letQ A s₀ | apply Within.letP A s₀ | apply Within.letV) | intro _ | with_reducible assumption | with_reducible apply ih | with_reducible apply Within.ite | with_reducible apply State.drop_within | with_reducible apply State.remoteWrite_within | with_reducible apply State.remoteWrites_within | split

theorem State.armAgent_within {A : List Area} (a0 : Area.regs ∈ A) (a1 : Area.aregs ∈ A) (a2 : Area.ports ∈ A) (a3 : Area.agPorts ∈ A) (a4 : Area.route ∈ A) (a5 : Area.flt ∈ A) (a6 : Area.agFlt ∈ A) (a7 : Area.out ∈ A) {s₀ s : State} (c fid a : Nat) (h₀ : Within A s₀ s) :
    Within A s₀ (State.armAgent s c fid a) := by
  unfold State.armAgent
  repeat' first | (extract_lets +onlyGivenNames x; revert x; with_reducible first | apply Within.letS A s₀ | apply Within.letQ A s₀ | apply Within.letP A s₀ | apply Within.letV) | intro _ | with_reducible assumption | with_reducible apply State.remoteWrite_within | with_reducible apply_assumption

theorem State.loadAgent_within {A : List Area} (a0 : Area.regs ∈ A) (a1 : Area.aregs ∈ A) (a2 : Area.ports ∈ A) (a3 : Area.agPorts ∈ A) (a4 : Area.route ∈ A) (a5 : Area.flt ∈ A) (a6 : Area.agFlt ∈ A) (a7 : Area.out ∈ A) {s₀ s : State} (c : Nat) (m : Image) (lid fid at' : Nat) (h₀ : Within A s₀ s) :
    Within A s₀ (State.loadAgent s c m lid fid at') := by
  unfold State.loadAgent
  repeat' first | (extract_lets +onlyGivenNames x; revert x; with_reducible first | apply Within.letS A s₀ | apply Within.letQ A s₀ | apply Within.letP A s₀ | apply Within.letV) | intro _ | with_reducible assumption | with_reducible apply Within.foldl | with_reducible apply Within.foldlPair | with_reducible apply State.remoteWrite_within | with_reducible apply State.loadWindow_within | with_reducible apply State.armAgent_within | split | with_reducible apply_assumption

theorem State.disarmMembers_within {A : List Area} (a0 : Area.regs ∈ A) (a1 : Area.aregs ∈ A) (a2 : Area.ports ∈ A) (a3 : Area.agPorts ∈ A) (a4 : Area.route ∈ A) (a5 : Area.flt ∈ A) (a6 : Area.agFlt ∈ A) (a7 : Area.out ∈ A) {s₀ s : State} (c : Nat) (h₀ : Within A s₀ s) :
    Within A s₀ (State.disarmMembers s c) := by
  unfold State.disarmMembers
  repeat' first | intro _ | with_reducible assumption | with_reducible apply Within.foldl | with_reducible apply Within.foldlPair | with_reducible apply State.remoteWrite_within

theorem State.beginArmWith_within {A : List Area} (a0 : Area.regs ∈ A) (a1 : Area.aregs ∈ A) (a2 : Area.time ∈ A) (a3 : Area.ports ∈ A) (a4 : Area.agPorts ∈ A) (a5 : Area.route ∈ A) (a6 : Area.ttbs ∈ A) (a7 : Area.insts ∈ A) (a8 : Area.flt ∈ A) (a9 : Area.agFlt ∈ A) (a10 : Area.out ∈ A) {s₀ s : State} (c a : Nat) (again : Bool) (fresh : List Nat) (h₀ : Within A s₀ s) :
    Within A s₀ (State.beginArmWith s c a again fresh) := by
  unfold State.beginArmWith
  repeat' first | (extract_lets +onlyGivenNames x; revert x; with_reducible first | apply Within.letS A s₀ | apply Within.letQ A s₀ | apply Within.letP A s₀ | apply Within.letF A s₀ | apply Within.letK A s₀ | apply Within.letG A s₀ | apply Within.letF1x A s₀ | apply Within.letH A s₀ | apply Within.letV) | intro _ | with_reducible assumption | with_reducible apply Within.ite | with_reducible apply Within.foldl | with_reducible apply Within.foldlPair | with_reducible apply State.cancelPeriod_within | with_reducible apply State.setTtb_within | with_reducible apply State.wr_within | with_reducible apply State.ttbErr_within | with_reducible apply State.armAgent_within | with_reducible apply State.loadAgent_within | with_reducible apply State.rebase_within | with_reducible apply State.ttbTo_within | split | with_reducible apply Within.insts | with_reducible apply_assumption

theorem State.beginArm_within {A : List Area} (a0 : Area.regs ∈ A) (a1 : Area.aregs ∈ A) (a2 : Area.time ∈ A) (a3 : Area.ports ∈ A) (a4 : Area.agPorts ∈ A) (a5 : Area.route ∈ A) (a6 : Area.ttbs ∈ A) (a7 : Area.insts ∈ A) (a8 : Area.flt ∈ A) (a9 : Area.agFlt ∈ A) (a10 : Area.out ∈ A) {s₀ s : State} (c a : Nat) (again : Bool) (h₀ : Within A s₀ s) :
    Within A s₀ (State.beginArm s c a again) := by
  unfold State.beginArm
  repeat' first | with_reducible assumption | with_reducible apply State.beginArmWith_within

theorem execTtbArm_within {A : List Area} (a0 : Area.regs ∈ A) (a1 : Area.aregs ∈ A) (a2 : Area.time ∈ A) (a3 : Area.ports ∈ A) (a4 : Area.agPorts ∈ A) (a5 : Area.route ∈ A) (a6 : Area.ttbs ∈ A) (a7 : Area.insts ∈ A) (a8 : Area.flt ∈ A) (a9 : Area.agFlt ∈ A) (a10 : Area.out ∈ A) {s₀ s : State} (ctx : Nat) (h₀ : Within A s₀ s) :
    Out.within A s₀ (execTtbArm ctx s) := by
  unfold execTtbArm
  show Within A s₀ _
  repeat' first | (extract_lets +onlyGivenNames x; revert x; with_reducible first | apply Within.letS A s₀ | apply Within.letQ A s₀ | apply Within.letP A s₀ | apply Within.letV) | intro _ | with_reducible assumption | with_reducible apply Within.ite | with_reducible apply State.ttbErr_within | with_reducible apply State.beginArm_within | split | with_reducible apply_assumption

theorem execArmDeadline_within {A : List Area} (a0 : Area.regs ∈ A) (a1 : Area.aregs ∈ A) (a2 : Area.ports ∈ A) (a3 : Area.agPorts ∈ A) (a4 : Area.route ∈ A) (a5 : Area.ttbs ∈ A) (a6 : Area.beyjo ∈ A) (a7 : Area.flt ∈ A) (a8 : Area.agFlt ∈ A) (a9 : Area.out ∈ A) {s₀ s : State} (ctx : Nat) (armed : List Nat) (h₀ : Within A s₀ s) :
    Out.within A s₀ (execArmDeadline ctx armed s) := by
  unfold execArmDeadline
  show Within A s₀ _
  repeat' first | (extract_lets +onlyGivenNames x; revert x; with_reducible first | apply Within.letS A s₀ | apply Within.letQ A s₀ | apply Within.letP A s₀ | apply Within.letV) | intro _ | with_reducible assumption | with_reducible apply Within.ite | with_reducible apply State.setTtb_within | with_reducible apply State.wr_within | with_reducible apply State.disarmMembers_within | with_reducible apply State.ttbErr_within | with_reducible apply State.ttbTo_within | with_reducible apply State.notifyJob_within | split | with_reducible apply_assumption

theorem State.armingDone_within {A : List Area} (a0 : Area.regs ∈ A) {s₀ s : State} (c : Nat) (h₀ : Within A s₀ s) :
    Within A s₀ (State.armingDone s c) := by
  unfold State.armingDone
  repeat' first | with_reducible assumption | with_reducible apply Within.ite | with_reducible apply State.wr_within | split

theorem execArmStart_within {A : List Area} (a0 : Area.regs ∈ A) (a1 : Area.aregs ∈ A) (a2 : Area.beyjo ∈ A) (a3 : Area.flt ∈ A) (a4 : Area.agFlt ∈ A) (a5 : Area.ag ∈ A) {s₀ s : State} (site : Site) (ctx : Nat) (h₀ : Within A s₀ s) :
    Out.within A s₀ (execArmStart site ctx s) := by
  unfold execArmStart
  show Within A s₀ _
  repeat' first | with_reducible exact fun _ k => k | (extract_lets +onlyGivenNames x; revert x; with_reducible first | apply Within.letS A s₀ | apply Within.letQ A s₀ | apply Within.letP A s₀ | apply Within.letV) | intro _ | with_reducible assumption | with_reducible apply Within.ite | with_reducible apply State.agStart_within | with_reducible apply State.ttbTo_within | with_reducible apply State.wr_within | with_reducible apply State.armingDone_within | with_reducible apply State.notifyJob_within | split | with_reducible apply_assumption

theorem State.dropSteps_within {A : List Area} (a0 : Area.regs ∈ A) (a1 : Area.insts ∈ A) (a2 : Area.tile ∈ A) (a3 : Area.hbm ∈ A) {s₀ s : State} (c : Nat) (gone : OpenStep → Bool) (h₀ : Within A s₀ s) :
    Within A s₀ (State.dropSteps s c gone) := by
  unfold State.dropSteps
  repeat' first | with_reducible exact fun _ k => k | (extract_lets +onlyGivenNames x; revert x; with_reducible first | apply Within.letS A s₀ | apply Within.letQ A s₀ | apply Within.letP A s₀ | apply Within.letV) | intro _ | with_reducible assumption | with_reducible apply Within.ite | with_reducible apply Within.foldl | with_reducible apply State.dropUpdates_within | with_reducible apply State.closeStep_within | split | with_reducible apply_assumption

theorem State.disarmNow_within {A : List Area} (a0 : Area.regs ∈ A) (a1 : Area.ttbs ∈ A) (a2 : Area.insts ∈ A) (a3 : Area.tile ∈ A) (a4 : Area.hbm ∈ A) (a5 : Area.beyjo ∈ A) {s₀ s : State} (c : Nat) (h₀ : Within A s₀ s) :
    Within A s₀ (State.disarmNow s c) := by
  unfold State.disarmNow
  repeat' first | with_reducible exact fun _ k => k | (extract_lets +onlyGivenNames x; revert x; with_reducible first | apply Within.letS A s₀ | apply Within.letQ A s₀ | apply Within.letP A s₀ | apply Within.letV) | intro _ | with_reducible assumption | with_reducible apply State.dropSteps_within | with_reducible apply State.setTtb_within | with_reducible apply State.wr_within | with_reducible apply State.ttbTo_within | with_reducible apply State.notifyJob_within | with_reducible apply_assumption

theorem execTtbStop_within {A : List Area} (a0 : Area.ttbs ∈ A) {s₀ s : State} (ctx : Nat) (h₀ : Within A s₀ s) :
    Out.within A s₀ (execTtbStop ctx s) := by
  unfold execTtbStop
  show Within A s₀ _
  repeat' first | intro _ | with_reducible assumption | with_reducible apply Within.ite | with_reducible apply State.setTtb_within | split

theorem execTtbDisarm_within {A : List Area} (a0 : Area.regs ∈ A) (a1 : Area.aregs ∈ A) (a2 : Area.ports ∈ A) (a3 : Area.agPorts ∈ A) (a4 : Area.route ∈ A) (a5 : Area.ttbs ∈ A) (a6 : Area.insts ∈ A) (a7 : Area.tile ∈ A) (a8 : Area.hbm ∈ A) (a9 : Area.beyjo ∈ A) (a10 : Area.flt ∈ A) (a11 : Area.agFlt ∈ A) (a12 : Area.out ∈ A) {s₀ s : State} (ctx : Nat) (h₀ : Within A s₀ s) :
    Out.within A s₀ (execTtbDisarm ctx s) := by
  unfold execTtbDisarm
  show Within A s₀ _
  repeat' first | with_reducible exact fun _ k => k | intro _ | with_reducible assumption | with_reducible apply Within.ite | with_reducible apply State.disarmMembers_within | with_reducible apply State.setTtb_within | with_reducible apply State.disarmNow_within | split

theorem execTtbUnload_within {A : List Area} (a0 : Area.regs ∈ A) (a1 : Area.ttbs ∈ A) {s₀ s : State} (ctx : Nat) (h₀ : Within A s₀ s) :
    Out.within A s₀ (execTtbUnload ctx s) := by
  unfold execTtbUnload
  show Within A s₀ _
  repeat' first | intro _ | with_reducible assumption | with_reducible apply Within.ite | with_reducible apply State.ttbTo_within | with_reducible apply State.wr_within | with_reducible apply State.setTtb_within | split

theorem execTtbVoid_within {A : List Area} (a0 : Area.regs ∈ A) (a1 : Area.ttbs ∈ A) {s₀ s : State} (ctx : Nat) (h₀ : Within A s₀ s) :
    Out.within A s₀ (execTtbVoid ctx s) := by
  unfold execTtbVoid
  show Within A s₀ _
  repeat' first | with_reducible assumption | with_reducible apply Within.ite | with_reducible apply State.learnMiss_within | split

theorem State.voidBroadcast_within {A : List Area} (a0 : Area.ports ∈ A) (a1 : Area.agPorts ∈ A) {s₀ s : State} (c : Nat) (v : VoidSt) (h₀ : Within A s₀ s) :
    Within A s₀ (State.voidBroadcast s c v) := by
  unfold State.voidBroadcast
  repeat' first | (extract_lets +onlyGivenNames x; revert x; with_reducible first | apply Within.letS A s₀ | apply Within.letQ A s₀ | apply Within.letP A s₀ | apply Within.letV) | intro _ | with_reducible assumption | with_reducible apply Within.foldl | with_reducible apply State.enqueue_within | with_reducible apply_assumption

theorem State.voidTo_within {A : List Area} (a0 : Area.regs ∈ A) (a1 : Area.aregs ∈ A) (a2 : Area.ports ∈ A) (a3 : Area.agPorts ∈ A) (a4 : Area.flt ∈ A) (a5 : Area.agFlt ∈ A) (a6 : Area.out ∈ A) {s₀ s : State} (c : Nat) (v : VoidSt) (fid : Nat) (h₀ : Within A s₀ s) :
    Within A s₀ (State.voidTo s c v fid) := by
  unfold State.voidTo
  repeat' first | with_reducible assumption | with_reducible apply State.send_within

theorem State.voidOut_within {A : List Area} (a0 : Area.regs ∈ A) (a1 : Area.aregs ∈ A) (a2 : Area.ports ∈ A) (a3 : Area.agPorts ∈ A) (a4 : Area.flt ∈ A) (a5 : Area.agFlt ∈ A) (a6 : Area.out ∈ A) {s₀ s : State} (c : Nat) (v : VoidSt) (h₀ : Within A s₀ s) :
    Within A s₀ (State.voidOut s c v) := by
  unfold State.voidOut
  repeat' first | (extract_lets +onlyGivenNames x; revert x; with_reducible first | apply Within.letS A s₀ | apply Within.letQ A s₀ | apply Within.letP A s₀ | apply Within.letV) | intro _ | with_reducible assumption | with_reducible apply Within.ite | with_reducible apply Within.foldl | with_reducible apply State.voidBroadcast_within | with_reducible apply State.voidTo_within | split | with_reducible apply_assumption

theorem State.stopJob_within {A : List Area} (a0 : Area.regs ∈ A) (a1 : Area.aregs ∈ A) (a2 : Area.ports ∈ A) (a3 : Area.agPorts ∈ A) (a4 : Area.ttbs ∈ A) (a5 : Area.insts ∈ A) (a6 : Area.tile ∈ A) (a7 : Area.hbm ∈ A) (a8 : Area.beyjo ∈ A) (a9 : Area.flt ∈ A) (a10 : Area.agFlt ∈ A) (a11 : Area.out ∈ A) {s₀ s : State} (c cause : Nat) (h₀ : Within A s₀ s) :
    Within A s₀ (State.stopJob s c cause) := by
  unfold State.stopJob
  repeat' first | with_reducible exact fun _ k => k | (extract_lets +onlyGivenNames x; revert x; with_reducible first | apply Within.letS A s₀ | apply Within.letQ A s₀ | apply Within.letP A s₀ | apply Within.letV) | intro _ | with_reducible assumption | with_reducible apply Within.ite | with_reducible apply State.wr_within | with_reducible apply State.voidOut_within | with_reducible apply State.dropSteps_within | with_reducible apply State.setTtb_within | with_reducible apply State.ttbTo_within | with_reducible apply State.detect_within | with_reducible apply State.notifyJob_within | split | with_reducible apply_assumption

theorem State.startVoid_within {A : List Area} (a0 : Area.regs ∈ A) (a1 : Area.aregs ∈ A) (a2 : Area.ports ∈ A) (a3 : Area.agPorts ∈ A) (a4 : Area.ttbs ∈ A) (a5 : Area.beyjo ∈ A) (a6 : Area.flt ∈ A) (a7 : Area.agFlt ∈ A) (a8 : Area.out ∈ A) {s₀ s : State} (c : Nat) (m : Image) (o : OpenStep) (x : Miss) (h₀ : Within A s₀ s) :
    Within A s₀ (State.startVoid s c m o x) := by
  unfold State.startVoid
  repeat' first | (extract_lets +onlyGivenNames x; revert x; with_reducible first | apply Within.letS A s₀ | apply Within.letQ A s₀ | apply Within.letP A s₀ | apply Within.letV) | intro _ | with_reducible assumption | with_reducible apply Within.ite | with_reducible apply State.wr_within | with_reducible apply State.bump_within | with_reducible apply State.setTtb_within | with_reducible apply State.service_within | with_reducible apply State.detect_within | with_reducible apply State.voidOut_within | with_reducible apply State.notifyJob_within | split | with_reducible apply_assumption

theorem State.voidFor_within {A : List Area} (a0 : Area.regs ∈ A) (a1 : Area.aregs ∈ A) (a2 : Area.ports ∈ A) (a3 : Area.agPorts ∈ A) (a4 : Area.ttbs ∈ A) (a5 : Area.beyjo ∈ A) (a6 : Area.flt ∈ A) (a7 : Area.agFlt ∈ A) (a8 : Area.out ∈ A) {s₀ s : State} (c : Nat) (m : Image) (o : OpenStep) (x : Miss) (h₀ : Within A s₀ s) :
    Within A s₀ (State.voidFor s c m o x) := by
  unfold State.voidFor
  repeat' first | intro _ | with_reducible assumption | with_reducible apply Within.ite | with_reducible apply Within.foldl | with_reducible apply State.startVoid_within | split

theorem execVoidSend_within {A : List Area} (a0 : Area.regs ∈ A) (a1 : Area.aregs ∈ A) (a2 : Area.ports ∈ A) (a3 : Area.agPorts ∈ A) (a4 : Area.ttbs ∈ A) (a5 : Area.insts ∈ A) (a6 : Area.tile ∈ A) (a7 : Area.hbm ∈ A) (a8 : Area.beyjo ∈ A) (a9 : Area.flt ∈ A) (a10 : Area.agFlt ∈ A) (a11 : Area.out ∈ A) {s₀ s : State} (ctx : Nat) (h₀ : Within A s₀ s) :
    Out.within A s₀ (execVoidSend ctx s) := by
  unfold execVoidSend
  show Within A s₀ _
  repeat' first | with_reducible exact fun _ k => k | intro _ | with_reducible assumption | with_reducible apply Within.ite | with_reducible apply State.voidFor_within | with_reducible apply State.stopJob_within | split

theorem execVoidRepeat_within {A : List Area} (a0 : Area.regs ∈ A) (a1 : Area.aregs ∈ A) (a2 : Area.ports ∈ A) (a3 : Area.agPorts ∈ A) (a4 : Area.ttbs ∈ A) (a5 : Area.flt ∈ A) (a6 : Area.agFlt ∈ A) (a7 : Area.out ∈ A) {s₀ s : State} (ctx : Nat) (h₀ : Within A s₀ s) :
    Out.within A s₀ (execVoidRepeat ctx s) := by
  unfold execVoidRepeat
  show Within A s₀ _
  repeat' first | (extract_lets +onlyGivenNames x; revert x; with_reducible first | apply Within.letS A s₀ | apply Within.letQ A s₀ | apply Within.letP A s₀ | apply Within.letV) | intro _ | with_reducible assumption | with_reducible apply Within.foldl | with_reducible apply State.voidOut_within | with_reducible apply State.setTtb_within | with_reducible apply_assumption

theorem State.relayVoid_within {A : List Area} (a0 : Area.regs ∈ A) (a1 : Area.ports ∈ A) (a2 : Area.agPorts ∈ A) (a3 : Area.ttbs ∈ A) {s₀ s : State} (c : Nat) (v : VoidSt) (h₀ : Within A s₀ s) :
    Within A s₀ (State.relayVoid s c v) := by
  unfold State.relayVoid
  repeat' first | (extract_lets +onlyGivenNames x; revert x; with_reducible first | apply Within.letS A s₀ | apply Within.letQ A s₀ | apply Within.letP A s₀ | apply Within.letV) | intro _ | with_reducible assumption | with_reducible apply Within.ite | with_reducible apply State.wr_within | with_reducible apply State.setTtb_within | with_reducible apply State.voidBroadcast_within | split | with_reducible apply_assumption

theorem execVoidCell_within {A : List Area} (a0 : Area.regs ∈ A) (a1 : Area.aregs ∈ A) (a2 : Area.ports ∈ A) (a3 : Area.agPorts ∈ A) (a4 : Area.ttbs ∈ A) (a5 : Area.flt ∈ A) (a6 : Area.agFlt ∈ A) (a7 : Area.ag ∈ A) {s₀ s : State} (site : Site) (cell : Cell) (h₀ : Within A s₀ s) :
    Out.within A s₀ (execVoidCell site cell s) := by
  unfold execVoidCell
  show Within A s₀ _
  repeat' first | with_reducible exact fun _ k => k | (extract_lets +onlyGivenNames x; revert x; with_reducible first | apply Within.letS A s₀ | apply Within.letQ A s₀ | apply Within.letP A s₀ | apply Within.letV) | intro _ | with_reducible assumption | with_reducible apply Within.ite | with_reducible apply State.agVoid_within | with_reducible apply State.relayVoid_within | split | with_reducible apply_assumption

theorem State.missReaches_within {A : List Area} (a0 : Area.regs ∈ A) (a1 : Area.aregs ∈ A) (a2 : Area.ports ∈ A) (a3 : Area.agPorts ∈ A) (a4 : Area.ttbs ∈ A) (a5 : Area.insts ∈ A) (a6 : Area.tile ∈ A) (a7 : Area.hbm ∈ A) (a8 : Area.beyjo ∈ A) (a9 : Area.flt ∈ A) (a10 : Area.agFlt ∈ A) (a11 : Area.out ∈ A) {s₀ s : State} (c : Nat) (x : Miss) (h₀ : Within A s₀ s) :
    Within A s₀ (State.missReaches s c x) := by
  unfold State.missReaches
  repeat' first | with_reducible exact fun _ k => k | intro _ | with_reducible assumption | with_reducible apply Within.ite | with_reducible apply State.learnMiss_within | with_reducible apply State.stopJob_within | split

theorem execStepmissCell_within {A : List Area} (a0 : Area.regs ∈ A) (a1 : Area.aregs ∈ A) (a2 : Area.ports ∈ A) (a3 : Area.agPorts ∈ A) (a4 : Area.ttbs ∈ A) (a5 : Area.insts ∈ A) (a6 : Area.tile ∈ A) (a7 : Area.hbm ∈ A) (a8 : Area.beyjo ∈ A) (a9 : Area.flt ∈ A) (a10 : Area.agFlt ∈ A) (a11 : Area.out ∈ A) {s₀ s : State} (cell : Cell) (h₀ : Within A s₀ s) :
    Out.within A s₀ (execStepmissCell cell s) := by
  unfold execStepmissCell
  show Within A s₀ _
  repeat' first | with_reducible exact fun _ k => k | (extract_lets +onlyGivenNames x; revert x; with_reducible first | apply Within.letS A s₀ | apply Within.letQ A s₀ | apply Within.letP A s₀ | apply Within.letV) | intro _ | with_reducible assumption | with_reducible apply Within.ite | with_reducible apply State.remoteEvent_within | with_reducible apply State.send_within | with_reducible apply State.missReaches_within | split | with_reducible apply_assumption

theorem execVoidConfirmRound_within {A : List Area} (a0 : Area.regs ∈ A) (a1 : Area.aregs ∈ A) (a2 : Area.ports ∈ A) (a3 : Area.agPorts ∈ A) (a4 : Area.ttbs ∈ A) (a5 : Area.insts ∈ A) (a6 : Area.tile ∈ A) (a7 : Area.hbm ∈ A) (a8 : Area.beyjo ∈ A) (a9 : Area.flt ∈ A) (a10 : Area.agFlt ∈ A) (a11 : Area.out ∈ A) {s₀ s : State} (ctx : Nat) (reports : List VoidReport) (h₀ : Within A s₀ s) :
    Out.within A s₀ (execVoidConfirmRound ctx reports s) := by
  unfold execVoidConfirmRound
  show Within A s₀ _
  repeat' first | with_reducible exact fun _ k => k | (extract_lets +onlyGivenNames x; revert x; with_reducible first | apply Within.letS A s₀ | apply Within.letQ A s₀ | apply Within.letP A s₀ | apply Within.letF A s₀ | apply Within.letK A s₀ | apply Within.letG A s₀ | apply Within.letF1x A s₀ | apply Within.letH A s₀ | apply Within.letV) | intro _ | with_reducible assumption | with_reducible apply Within.ite | with_reducible apply Within.foldl | with_reducible apply Within.foldlPair | with_reducible apply State.voidTo_within | with_reducible apply State.setTtb_within | with_reducible apply State.wr_within | with_reducible apply State.stopJob_within | split | with_reducible apply_assumption

theorem State.rollbackAt_within {A : List Area} (a0 : Area.regs ∈ A) (a1 : Area.ttbs ∈ A) (a2 : Area.insts ∈ A) (a3 : Area.tile ∈ A) (a4 : Area.hbm ∈ A) (a5 : Area.beyjo ∈ A) {s₀ s : State} (c : Nat) (h₀ : Within A s₀ s) :
    Within A s₀ (State.rollbackAt s c) := by
  unfold State.rollbackAt
  repeat' first | with_reducible exact fun _ k => k | (extract_lets +onlyGivenNames x; revert x; with_reducible first | apply Within.letS A s₀ | apply Within.letQ A s₀ | apply Within.letP A s₀ | apply Within.letV) | intro _ | with_reducible assumption | with_reducible apply Within.ite | with_reducible apply State.dropSteps_within | with_reducible apply State.wr_within | with_reducible apply State.setTtb_within | with_reducible apply State.ttbTo_within | with_reducible apply State.notifyJob_within | split | with_reducible apply_assumption

theorem execRollback_within {A : List Area} (a0 : Area.regs ∈ A) (a1 : Area.aregs ∈ A) (a2 : Area.ttbs ∈ A) (a3 : Area.insts ∈ A) (a4 : Area.tile ∈ A) (a5 : Area.hbm ∈ A) (a6 : Area.beyjo ∈ A) (a7 : Area.flt ∈ A) (a8 : Area.agFlt ∈ A) (a9 : Area.ag ∈ A) {s₀ s : State} (site : Site) (ctx : Nat) (h₀ : Within A s₀ s) :
    Out.within A s₀ (execRollback site ctx s) := by
  unfold execRollback
  show Within A s₀ _
  repeat' first | with_reducible exact fun _ k => k | with_reducible assumption | with_reducible apply State.agRollback_within | with_reducible apply State.rollbackAt_within | split

theorem execRestartBeat_within {A : List Area} (a0 : Area.regs ∈ A) (a1 : Area.aregs ∈ A) (a2 : Area.ports ∈ A) (a3 : Area.agPorts ∈ A) (a4 : Area.ttbs ∈ A) (a5 : Area.insts ∈ A) (a6 : Area.tile ∈ A) (a7 : Area.hbm ∈ A) (a8 : Area.beyjo ∈ A) (a9 : Area.flt ∈ A) (a10 : Area.agFlt ∈ A) (a11 : Area.ag ∈ A) (a12 : Area.out ∈ A) {s₀ s : State} (site : Site) (ctx : Nat) (h₀ : Within A s₀ s) :
    Out.within A s₀ (execRestartBeat site ctx s) := by
  unfold execRestartBeat
  show Within A s₀ _
  repeat' first | with_reducible exact fun _ k => k | intro _ | with_reducible assumption | with_reducible apply Within.ite | with_reducible apply State.agRestart_within | with_reducible apply State.stopJob_within | with_reducible apply State.setTtb_within | with_reducible apply State.wr_within | with_reducible apply State.rebase_within | split

theorem State.beginStep_within {A : List Area} (a0 : Area.regs ∈ A) (a1 : Area.ttbs ∈ A) {s₀ s : State} (c : Nat) (m : Image) (h₀ : Within A s₀ s) :
    Within A s₀ (State.beginStep s c m) := by
  unfold State.beginStep
  repeat' first | (extract_lets +onlyGivenNames x; revert x; with_reducible first | apply Within.letS A s₀ | apply Within.letQ A s₀ | apply Within.letP A s₀ | apply Within.letV) | intro _ | with_reducible assumption | with_reducible apply State.setTtb_within | with_reducible apply State.wr_within | with_reducible apply_assumption

theorem State.pauseAt_within {A : List Area} (a0 : Area.regs ∈ A) (a1 : Area.route ∈ A) (a2 : Area.ttbs ∈ A) (a3 : Area.beyjo ∈ A) {s₀ s : State} (c : Nat) (flip xdom : Bool) (h₀ : Within A s₀ s) :
    Within A s₀ (State.pauseAt s c flip xdom) := by
  unfold State.pauseAt
  repeat' first | (extract_lets +onlyGivenNames x; revert x; with_reducible first | apply Within.letS A s₀ | apply Within.letQ A s₀ | apply Within.letP A s₀ | apply Within.letV) | intro _ | with_reducible assumption | with_reducible apply Within.ite | with_reducible apply State.wr_within | with_reducible apply State.setTtb_within | with_reducible apply State.setRoute_within | with_reducible apply State.service_within | with_reducible apply State.notifyJob_within | split | with_reducible apply_assumption

theorem execStepBoundary_within {A : List Area} (a0 : Area.regs ∈ A) (a1 : Area.aregs ∈ A) (a2 : Area.route ∈ A) (a3 : Area.ttbs ∈ A) (a4 : Area.insts ∈ A) (a5 : Area.tile ∈ A) (a6 : Area.hbm ∈ A) (a7 : Area.beyjo ∈ A) (a8 : Area.flt ∈ A) (a9 : Area.agFlt ∈ A) (a10 : Area.ag ∈ A) {s₀ s : State} (site : Site) (ctx : Nat) (h₀ : Within A s₀ s) :
    Out.within A s₀ (execStepBoundary site ctx s) := by
  unfold execStepBoundary
  show Within A s₀ _
  repeat' first | with_reducible exact fun _ k => k | (extract_lets +onlyGivenNames x; revert x; with_reducible first | apply Within.letS A s₀ | apply Within.letQ A s₀ | apply Within.letP A s₀ | apply Within.letV) | intro _ | with_reducible assumption | with_reducible apply Within.ite | with_reducible apply State.agBoundary_within | with_reducible apply State.disarmNow_within | with_reducible apply State.pauseAt_within | with_reducible apply State.beginStep_within | split | with_reducible apply_assumption

theorem State.holdJob_within {A : List Area} (a0 : Area.regs ∈ A) (a1 : Area.ttbs ∈ A) (a2 : Area.beyjo ∈ A) {s₀ s : State} (c : Nat) (h₀ : Within A s₀ s) :
    Within A s₀ (State.holdJob s c) := by
  unfold State.holdJob
  repeat' first | intro _ | with_reducible assumption | with_reducible apply Within.ite | with_reducible apply State.setTtb_within | with_reducible apply State.notifyJob_within | split

theorem execExchangeDeadlineCheck_within {A : List Area} (a0 : Area.regs ∈ A) (a1 : Area.ttbs ∈ A) (a2 : Area.insts ∈ A) {s₀ s : State} (ctx xid : Nat) (h₀ : Within A s₀ s) :
    Out.within A s₀ (execExchangeDeadlineCheck ctx xid s) := by
  unfold execExchangeDeadlineCheck
  show Within A s₀ _
  repeat' first | (extract_lets +onlyGivenNames x; revert x; with_reducible first | apply Within.letS A s₀ | apply Within.letQ A s₀ | apply Within.letP A s₀ | apply Within.letF A s₀ | apply Within.letK A s₀ | apply Within.letG A s₀ | apply Within.letF1x A s₀ | apply Within.letH A s₀ | apply Within.letV) | intro _ | with_reducible assumption | with_reducible apply Within.ite | with_reducible apply State.setInst_within | with_reducible apply State.bump_within | with_reducible apply State.learnMiss_within | split | with_reducible apply_assumption

theorem State.commitStep_within {A : List Area} (a0 : Area.regs ∈ A) (a1 : Area.ttbs ∈ A) (a2 : Area.insts ∈ A) (a3 : Area.tile ∈ A) (a4 : Area.hbm ∈ A) (a5 : Area.beyjo ∈ A) {s₀ s : State} (c : Nat) (m : Image) (o : OpenStep) (h₀ : Within A s₀ s) :
    Within A s₀ (State.commitStep s c m o) := by
  unfold State.commitStep
  repeat' first | with_reducible exact fun _ k => k | (extract_lets +onlyGivenNames x; revert x; with_reducible first | apply Within.letS A s₀ | apply Within.letQ A s₀ | apply Within.letP A s₀ | apply Within.letV) | intro _ | with_reducible assumption | with_reducible apply Within.ite | with_reducible apply State.commitUpdates_within | with_reducible apply State.closeStep_within | with_reducible apply State.setTtb_within | with_reducible apply State.drop_within | with_reducible apply State.wr_within | with_reducible apply State.bump_within | with_reducible apply State.ttbTo_within | with_reducible apply State.notifyJob_within | split | with_reducible apply_assumption

theorem execStepCommit_within {A : List Area} (a0 : Area.regs ∈ A) (a1 : Area.aregs ∈ A) (a2 : Area.ports ∈ A) (a3 : Area.agPorts ∈ A) (a4 : Area.ttbs ∈ A) (a5 : Area.insts ∈ A) (a6 : Area.tile ∈ A) (a7 : Area.hbm ∈ A) (a8 : Area.beyjo ∈ A) (a9 : Area.flt ∈ A) (a10 : Area.agFlt ∈ A) (a11 : Area.ag ∈ A) (a12 : Area.out ∈ A) {s₀ s : State} (site : Site) (ctx : Nat) (h₀ : Within A s₀ s) :
    Out.within A s₀ (execStepCommit site ctx s) := by
  unfold execStepCommit
  show Within A s₀ _
  repeat' first | with_reducible exact fun _ k => k | with_reducible assumption | with_reducible apply Within.ite | with_reducible apply State.agCommit_within | with_reducible apply State.commitStep_within | split

theorem execCmapCollect_within {A : List Area} (a0 : Area.regs ∈ A) (a1 : Area.ttbs ∈ A) {s₀ s : State} (ctx : Nat) (counts : List CongestionCount) (h₀ : Within A s₀ s) :
    Out.within A s₀ (execCmapCollect ctx counts s) := by
  unfold execCmapCollect
  show Within A s₀ _
  repeat' first | (extract_lets +onlyGivenNames x; revert x; with_reducible first | apply Within.letS A s₀ | apply Within.letQ A s₀ | apply Within.letP A s₀ | apply Within.letV) | intro _ | with_reducible assumption | with_reducible apply Within.ite | with_reducible apply Within.foldl | with_reducible apply State.startMode_within | with_reducible apply State.cmapAdd_within | split | with_reducible apply_assumption

theorem execCmapClear_within {A : List Area} (a0 : Area.ttbs ∈ A) {s₀ s : State} (ctx : Nat) (h₀ : Within A s₀ s) :
    Out.within A s₀ (execCmapClear ctx s) := by
  unfold execCmapClear
  show Within A s₀ _
  repeat' first | intro _ | with_reducible assumption | with_reducible apply State.setTtb_within

theorem execEnergyWindow_within {A : List Area} (a0 : Area.regs ∈ A) (a1 : Area.flt ∈ A) (a2 : Area.agFlt ∈ A) {s₀ s : State} (measuredUj : Nat) (h₀ : Within A s₀ s) :
    Out.within A s₀ (execEnergyWindow measuredUj s) := by
  unfold execEnergyWindow
  show Within A s₀ _
  repeat' first | (extract_lets +onlyGivenNames x; revert x; with_reducible first | apply Within.letS A s₀ | apply Within.letQ A s₀ | apply Within.letP A s₀ | apply Within.letV) | intro _ | with_reducible assumption | with_reducible apply Within.ite | with_reducible apply State.wr_within | with_reducible apply State.atLeast_within | with_reducible apply State.bump_within | with_reducible apply State.detect_within | split | with_reducible apply_assumption

end Sys2Proof.Machine
end

