-- ==== Sys2Proof/Laws/FlipWithin.lean ====
section
/-! SUPPORT. The parts of the state that the definitions of Machine/Flip.lean reach. -/

set_option linter.unreachableTactic false
set_option linter.unusedTactic false

namespace Sys2Proof.Machine

theorem State.parwr_within {A : List Area} (a0 : Area.regs ∈ A) (a1 : Area.aregs ∈ A) (a2 : Area.ports ∈ A) (a3 : Area.agPorts ∈ A) (a4 : Area.flt ∈ A) (a5 : Area.agFlt ∈ A) {s₀ s : State} (ps : List Nat) (batch flags off cidx : Nat) (bs : List Byte) (h₀ : Within A s₀ s) :
    Within A s₀ (State.parwr s ps batch flags off cidx bs) := by
  unfold State.parwr
  repeat' first | (extract_lets +onlyGivenNames x; revert x; with_reducible first | apply Within.letS A s₀ | apply Within.letQ A s₀ | apply Within.letP A s₀ | apply Within.letV) | intro _ | with_reducible assumption | with_reducible apply Within.foldl | with_reducible apply State.sendOn_within | with_reducible apply_assumption

theorem State.putRecord_within {A : List Area} (a0 : Area.regs ∈ A) (a1 : Area.aregs ∈ A) (a2 : Area.ports ∈ A) (a3 : Area.agPorts ∈ A) (a4 : Area.route ∈ A) (a5 : Area.flt ∈ A) (a6 : Area.agFlt ∈ A) (a7 : Area.pair ∈ A) {s₀ s : State} (r : FlipRecord) (h₀ : Within A s₀ s) :
    Within A s₀ (State.putRecord s r) := by
  unfold State.putRecord
  repeat' first | with_reducible exact fun _ k => mwrite_wf k _ _ | with_reducible exact fun _ k => k | (extract_lets +onlyGivenNames x; revert x; with_reducible first | apply Within.letS A s₀ | apply Within.letQ A s₀ | apply Within.letP A s₀ | apply Within.letF A s₀ | apply Within.letK A s₀ | apply Within.letG A s₀ | apply Within.letF1x A s₀ | apply Within.letH A s₀ | apply Within.letV) | intro _ | with_reducible assumption | with_reducible apply Within.ite | with_reducible apply State.setRoute_within | with_reducible apply State.setPair_within | with_reducible apply State.parwr_within | split | with_reducible apply_assumption

theorem State.recordTo_within {A : List Area} (a0 : Area.regs ∈ A) (a1 : Area.aregs ∈ A) (a2 : Area.ports ∈ A) (a3 : Area.agPorts ∈ A) (a4 : Area.route ∈ A) (a5 : Area.flt ∈ A) (a6 : Area.agFlt ∈ A) (a7 : Area.pair ∈ A) {s₀ s : State} (st : RecState) (h₀ : Within A s₀ s) :
    Within A s₀ (State.recordTo s st) := by
  unfold State.recordTo
  repeat' first | with_reducible exact fun _ k => k | with_reducible assumption | with_reducible apply State.putRecord_within | split

theorem State.dueGen_within {A : List Area} (a0 : Area.pair ∈ A) {s₀ s : State}  (h₀ : Within A s₀ s) :
    Within A s₀ (State.dueGen s) := by
  unfold State.dueGen
  repeat' first | with_reducible exact fun _ k => k | intro _ | with_reducible assumption | with_reducible apply State.setPair_within

theorem State.loadShadow_within {A : List Area} (a0 : Area.regs ∈ A) (a1 : Area.aregs ∈ A) (a2 : Area.ports ∈ A) (a3 : Area.agPorts ∈ A) (a4 : Area.route ∈ A) (a5 : Area.flt ∈ A) (a6 : Area.agFlt ∈ A) (a7 : Area.out ∈ A) {s₀ s : State} (fid gen : Nat) (new old shadow : Table) (h₀ : Within A s₀ s) :
    Within A s₀ (State.loadShadow s fid gen new old shadow) := by
  unfold State.loadShadow
  repeat' first | (extract_lets +onlyGivenNames x; revert x; with_reducible first | apply Within.letS A s₀ | apply Within.letQ A s₀ | apply Within.letP A s₀ | apply Within.letV) | intro _ | with_reducible assumption | with_reducible apply Within.ite | with_reducible apply Within.foldl | with_reducible apply State.remoteWrite_within | split | with_reducible apply_assumption

theorem State.loadMap_within {A : List Area} (a0 : Area.regs ∈ A) (a1 : Area.aregs ∈ A) (a2 : Area.ports ∈ A) (a3 : Area.agPorts ∈ A) (a4 : Area.route ∈ A) (a5 : Area.flt ∈ A) (a6 : Area.agFlt ∈ A) (a7 : Area.out ∈ A) {s₀ s : State} (c lid fid : Nat) (h₀ : Within A s₀ s) :
    Within A s₀ (State.loadMap s c lid fid) := by
  unfold State.loadMap
  repeat' first | (extract_lets +onlyGivenNames x; revert x; with_reducible first | apply Within.letS A s₀ | apply Within.letQ A s₀ | apply Within.letP A s₀ | apply Within.letV) | intro _ | with_reducible assumption | with_reducible apply Within.ite | with_reducible apply Within.foldl | with_reducible apply State.remoteWrite_within | split | with_reducible apply_assumption

theorem State.loadMaps_within {A : List Area} (a0 : Area.regs ∈ A) (a1 : Area.aregs ∈ A) (a2 : Area.ports ∈ A) (a3 : Area.agPorts ∈ A) (a4 : Area.route ∈ A) (a5 : Area.flt ∈ A) (a6 : Area.agFlt ∈ A) (a7 : Area.out ∈ A) {s₀ s : State} (cs : List Nat) (h₀ : Within A s₀ s) :
    Within A s₀ (State.loadMaps s cs) := by
  unfold State.loadMaps
  repeat' first | intro _ | with_reducible assumption | with_reducible apply Within.foldl | with_reducible apply Within.foldlPair | with_reducible apply State.loadMap_within

theorem State.flipStop_within {A : List Area} (a0 : Area.regs ∈ A) (a1 : Area.aregs ∈ A) (a2 : Area.ports ∈ A) (a3 : Area.agPorts ∈ A) (a4 : Area.ttbs ∈ A) (a5 : Area.beyjo ∈ A) (a6 : Area.flt ∈ A) (a7 : Area.agFlt ∈ A) (a8 : Area.out ∈ A) {s₀ s : State} (c code : Nat) (h₀ : Within A s₀ s) :
    Within A s₀ (State.flipStop s c code) := by
  unfold State.flipStop
  repeat' first | (extract_lets +onlyGivenNames x; revert x; with_reducible first | apply Within.letS A s₀ | apply Within.letQ A s₀ | apply Within.letP A s₀ | apply Within.letV) | intro _ | with_reducible assumption | with_reducible apply Within.ite | with_reducible apply State.wr_within | with_reducible apply State.voidOut_within | with_reducible apply State.setTtb_within | with_reducible apply State.ttbTo_within | with_reducible apply State.notifyJob_within | split | with_reducible apply_assumption

theorem State.startPrepare_within {A : List Area} (a0 : Area.regs ∈ A) (a1 : Area.aregs ∈ A) (a2 : Area.ports ∈ A) (a3 : Area.agPorts ∈ A) (a4 : Area.route ∈ A) (a5 : Area.ttbs ∈ A) (a6 : Area.beyjo ∈ A) (a7 : Area.flt ∈ A) (a8 : Area.agFlt ∈ A) (a9 : Area.pair ∈ A) (a10 : Area.out ∈ A) {s₀ s : State} (images : Table) (fabric : Bool) (h₀ : Within A s₀ s) :
    Within A s₀ (State.startPrepare s images fabric) := by
  unfold State.startPrepare
  repeat' first | with_reducible exact fun _ k => k | (extract_lets +onlyGivenNames x; revert x; with_reducible first | apply Within.letS A s₀ | apply Within.letQ A s₀ | apply Within.letP A s₀ | apply Within.letF A s₀ | apply Within.letK A s₀ | apply Within.letG A s₀ | apply Within.letF1x A s₀ | apply Within.letH A s₀ | apply Within.letV) | intro _ | with_reducible assumption | with_reducible apply Within.ite | with_reducible apply Within.foldl | with_reducible apply Within.foldlPair | with_reducible apply State.setRoute_within | with_reducible apply State.wr_within | with_reducible apply State.putRecord_within | with_reducible apply State.loadShadow_within | with_reducible apply State.loadMaps_within | with_reducible apply State.ttbErr_within | with_reducible apply State.setTtb_within | with_reducible apply State.notifyJob_within | split | with_reducible apply_assumption

theorem State.computeFlip_within {A : List Area} (a0 : Area.regs ∈ A) (a1 : Area.aregs ∈ A) (a2 : Area.ports ∈ A) (a3 : Area.agPorts ∈ A) (a4 : Area.route ∈ A) (a5 : Area.ttbs ∈ A) (a6 : Area.beyjo ∈ A) (a7 : Area.flt ∈ A) (a8 : Area.agFlt ∈ A) (a9 : Area.pair ∈ A) (a10 : Area.out ∈ A) {s₀ s : State} (fabric : Bool) (h₀ : Within A s₀ s) :
    Within A s₀ (State.computeFlip s fabric) := by
  unfold State.computeFlip
  repeat' first | with_reducible exact fun _ k => k | (extract_lets +onlyGivenNames x; revert x; with_reducible first | apply Within.letS A s₀ | apply Within.letQ A s₀ | apply Within.letP A s₀ | apply Within.letV) | intro _ | with_reducible assumption | with_reducible apply State.startMode_within | with_reducible apply State.wr_within | with_reducible apply State.startPrepare_within | with_reducible apply_assumption

theorem State.hostFlip_within {A : List Area} (a0 : Area.regs ∈ A) (a1 : Area.aregs ∈ A) (a2 : Area.ports ∈ A) (a3 : Area.agPorts ∈ A) (a4 : Area.route ∈ A) (a5 : Area.ttbs ∈ A) (a6 : Area.beyjo ∈ A) (a7 : Area.flt ∈ A) (a8 : Area.agFlt ∈ A) (a9 : Area.pair ∈ A) (a10 : Area.out ∈ A) {s₀ s : State} (fabric : Bool) (h₀ : Within A s₀ s) :
    Within A s₀ (State.hostFlip s fabric) := by
  unfold State.hostFlip
  repeat' first | with_reducible exact fun _ k => k | (extract_lets +onlyGivenNames x; revert x; with_reducible first | apply Within.letS A s₀ | apply Within.letQ A s₀ | apply Within.letP A s₀ | apply Within.letV) | intro _ | with_reducible assumption | with_reducible apply State.startMode_within | with_reducible apply State.wr_within | with_reducible apply State.startPrepare_within | with_reducible apply_assumption

theorem State.nextFlip_within {A : List Area} (a0 : Area.regs ∈ A) (a1 : Area.aregs ∈ A) (a2 : Area.ports ∈ A) (a3 : Area.agPorts ∈ A) (a4 : Area.route ∈ A) (a5 : Area.ttbs ∈ A) (a6 : Area.beyjo ∈ A) (a7 : Area.flt ∈ A) (a8 : Area.agFlt ∈ A) (a9 : Area.pair ∈ A) (a10 : Area.out ∈ A) {s₀ s : State}  (h₀ : Within A s₀ s) :
    Within A s₀ (State.nextFlip s) := by
  unfold State.nextFlip
  repeat' first | with_reducible exact fun _ k => k | (extract_lets +onlyGivenNames x; revert x; with_reducible first | apply Within.letS A s₀ | apply Within.letQ A s₀ | apply Within.letP A s₀ | apply Within.letV) | intro _ | with_reducible assumption | with_reducible apply Within.ite | with_reducible apply State.hostFlip_within | with_reducible apply State.computeFlip_within | split | with_reducible apply_assumption

theorem State.reloadLeft_within {A : List Area} (a0 : Area.regs ∈ A) (a1 : Area.aregs ∈ A) (a2 : Area.ports ∈ A) (a3 : Area.agPorts ∈ A) (a4 : Area.route ∈ A) (a5 : Area.flt ∈ A) (a6 : Area.agFlt ∈ A) (a7 : Area.out ∈ A) {s₀ s : State}  (h₀ : Within A s₀ s) :
    Within A s₀ (State.reloadLeft s) := by
  unfold State.reloadLeft
  repeat' first | (extract_lets +onlyGivenNames x; revert x; with_reducible first | apply Within.letS A s₀ | apply Within.letQ A s₀ | apply Within.letP A s₀ | apply Within.letV) | intro _ | with_reducible assumption | with_reducible apply Within.ite | with_reducible apply Within.foldl | with_reducible apply State.loadShadow_within | with_reducible apply State.send_within | with_reducible apply State.setRoute_within | split | with_reducible apply_assumption

theorem State.requestFlip_within {A : List Area} (a0 : Area.regs ∈ A) (a1 : Area.aregs ∈ A) (a2 : Area.ports ∈ A) (a3 : Area.agPorts ∈ A) (a4 : Area.route ∈ A) (a5 : Area.ttbs ∈ A) (a6 : Area.beyjo ∈ A) (a7 : Area.flt ∈ A) (a8 : Area.agFlt ∈ A) (a9 : Area.pair ∈ A) (a10 : Area.out ∈ A) {s₀ s : State}  (h₀ : Within A s₀ s) :
    Within A s₀ (State.requestFlip s) := by
  unfold State.requestFlip
  repeat' first | with_reducible exact fun _ k => k | (extract_lets +onlyGivenNames x; revert x; with_reducible first | apply Within.letS A s₀ | apply Within.letQ A s₀ | apply Within.letP A s₀ | apply Within.letF A s₀ | apply Within.letK A s₀ | apply Within.letG A s₀ | apply Within.letF1x A s₀ | apply Within.letH A s₀ | apply Within.letV) | intro _ | with_reducible assumption | with_reducible apply Within.ite | with_reducible apply State.reloadLeft_within | with_reducible apply State.wr_within | with_reducible apply State.computeFlip_within | split | with_reducible apply_assumption

theorem State.standbyTables_within {A : List Area} (a0 : Area.regs ∈ A) (a1 : Area.route ∈ A) {s₀ s : State}  (h₀ : Within A s₀ s) :
    Within A s₀ (State.standbyTables s) := by
  unfold State.standbyTables
  repeat' first | intro _ | with_reducible assumption | with_reducible apply State.setRoute_within | with_reducible apply State.wr_within

theorem execRouteCompute_within {A : List Area} (a0 : Area.regs ∈ A) (a1 : Area.aregs ∈ A) (a2 : Area.ports ∈ A) (a3 : Area.agPorts ∈ A) (a4 : Area.route ∈ A) (a5 : Area.ttbs ∈ A) (a6 : Area.beyjo ∈ A) (a7 : Area.flt ∈ A) (a8 : Area.agFlt ∈ A) (a9 : Area.pair ∈ A) (a10 : Area.out ∈ A) {s₀ s : State}  (h₀ : Within A s₀ s) :
    Out.within A s₀ (execRouteCompute s) := by
  unfold execRouteCompute
  show Within A s₀ _
  repeat' first | with_reducible exact fun _ k => k | with_reducible assumption | with_reducible apply Within.ite | with_reducible apply State.standbyTables_within | with_reducible apply State.requestFlip_within | split

theorem execRteCheck_within {A : List Area} (a0 : Area.regs ∈ A) (a1 : Area.route ∈ A) {s₀ s : State}  (h₀ : Within A s₀ s) :
    Out.within A s₀ (execRteCheck s) := by
  unfold execRteCheck
  show Within A s₀ _
  repeat' first | (extract_lets +onlyGivenNames x; revert x; with_reducible first | apply Within.letS A s₀ | apply Within.letQ A s₀ | apply Within.letP A s₀ | apply Within.letV) | intro _ | with_reducible assumption | with_reducible apply Within.ite | with_reducible apply State.setRoute_within | with_reducible apply State.wr_within | split | with_reducible apply_assumption

theorem State.rteStart_within {A : List Area} (a0 : Area.regs ∈ A) (a1 : Area.aregs ∈ A) (a2 : Area.ports ∈ A) (a3 : Area.agPorts ∈ A) (a4 : Area.route ∈ A) (a5 : Area.ttbs ∈ A) (a6 : Area.beyjo ∈ A) (a7 : Area.flt ∈ A) (a8 : Area.agFlt ∈ A) (a9 : Area.pair ∈ A) (a10 : Area.out ∈ A) {s₀ s : State} (serials : List Nat) (h₀ : Within A s₀ s) :
    Within A s₀ (State.rteStart s serials) := by
  unfold State.rteStart
  repeat' first | with_reducible exact fun _ k => k | (extract_lets +onlyGivenNames x; revert x; with_reducible first | apply Within.letS A s₀ | apply Within.letQ A s₀ | apply Within.letP A s₀ | apply Within.letV) | intro _ | with_reducible assumption | with_reducible apply Within.ite | with_reducible apply State.wr_within | with_reducible apply State.setRoute_within | with_reducible apply State.hostFlip_within | with_reducible apply State.computeFlip_within | split | with_reducible apply_assumption

theorem execRteStart_within {A : List Area} (a0 : Area.regs ∈ A) (a1 : Area.aregs ∈ A) (a2 : Area.ports ∈ A) (a3 : Area.agPorts ∈ A) (a4 : Area.route ∈ A) (a5 : Area.ttbs ∈ A) (a6 : Area.beyjo ∈ A) (a7 : Area.flt ∈ A) (a8 : Area.agFlt ∈ A) (a9 : Area.pair ∈ A) (a10 : Area.out ∈ A) {s₀ s : State} (serials : List Nat) (h₀ : Within A s₀ s) :
    Out.within A s₀ (execRteStart serials s) := by
  unfold execRteStart
  show Within A s₀ _
  repeat' first | with_reducible exact fun _ k => k | with_reducible assumption | with_reducible apply State.rteStart_within

theorem State.flipCast_within {A : List Area} (a0 : Area.regs ∈ A) (a1 : Area.aregs ∈ A) (a2 : Area.ports ∈ A) (a3 : Area.agPorts ∈ A) (a4 : Area.flt ∈ A) (a5 : Area.agFlt ∈ A) (a6 : Area.out ∈ A) {s₀ s : State} (type : Nat) (words : List Nat) (fabric : Bool) (h₀ : Within A s₀ s) :
    Within A s₀ (State.flipCast s type words fabric) := by
  unfold State.flipCast
  repeat' first | (extract_lets +onlyGivenNames x; revert x; with_reducible first | apply Within.letS A s₀ | apply Within.letQ A s₀ | apply Within.letP A s₀ | apply Within.letF A s₀ | apply Within.letK A s₀ | apply Within.letG A s₀ | apply Within.letF1x A s₀ | apply Within.letH A s₀ | apply Within.letV) | intro _ | with_reducible assumption | with_reducible apply Within.ite | with_reducible apply Within.foldl | with_reducible apply State.send_within | with_reducible apply State.enqueue_within | with_reducible apply State.sendOn_within | split | with_reducible apply_assumption

theorem State.leaveQuiet_within {A : List Area} (a0 : Area.regs ∈ A) (a1 : Area.aregs ∈ A) (a2 : Area.ports ∈ A) (a3 : Area.agPorts ∈ A) (a4 : Area.route ∈ A) (a5 : Area.flt ∈ A) (a6 : Area.agFlt ∈ A) (a7 : Area.out ∈ A) {s₀ s : State}  (h₀ : Within A s₀ s) :
    Within A s₀ (State.leaveQuiet s) := by
  unfold State.leaveQuiet
  repeat' first | (extract_lets +onlyGivenNames x; revert x; with_reducible first | apply Within.letS A s₀ | apply Within.letQ A s₀ | apply Within.letP A s₀ | apply Within.letF A s₀ | apply Within.letK A s₀ | apply Within.letG A s₀ | apply Within.letF1x A s₀ | apply Within.letH A s₀ | apply Within.letV) | intro _ | with_reducible assumption | with_reducible apply Within.foldl | with_reducible apply Within.foldlPair | with_reducible apply State.wr_within | with_reducible apply State.setRoute_within | with_reducible apply State.hop_within | with_reducible apply State.releaseHeld_within | with_reducible apply_assumption

theorem State.abortOut_within {A : List Area} (a0 : Area.regs ∈ A) (a1 : Area.aregs ∈ A) (a2 : Area.ports ∈ A) (a3 : Area.agPorts ∈ A) (a4 : Area.route ∈ A) (a5 : Area.flt ∈ A) (a6 : Area.agFlt ∈ A) (a7 : Area.out ∈ A) {s₀ s : State}  (h₀ : Within A s₀ s) :
    Within A s₀ (State.abortOut s) := by
  unfold State.abortOut
  repeat' first | (extract_lets +onlyGivenNames x; revert x; with_reducible first | apply Within.letS A s₀ | apply Within.letQ A s₀ | apply Within.letP A s₀ | apply Within.letV) | intro _ | with_reducible assumption | with_reducible apply State.leaveQuiet_within | with_reducible apply State.flipCast_within | with_reducible apply State.wr_within | split | with_reducible apply_assumption

theorem State.endFlip_within {A : List Area} (a0 : Area.regs ∈ A) (a1 : Area.aregs ∈ A) (a2 : Area.ports ∈ A) (a3 : Area.agPorts ∈ A) (a4 : Area.route ∈ A) (a5 : Area.ttbs ∈ A) (a6 : Area.beyjo ∈ A) (a7 : Area.flt ∈ A) (a8 : Area.agFlt ∈ A) (a9 : Area.pair ∈ A) (a10 : Area.out ∈ A) {s₀ s : State} (ph : Nat) (st : RecState) (h₀ : Within A s₀ s) :
    Within A s₀ (State.endFlip s ph st) := by
  unfold State.endFlip
  repeat' first | with_reducible exact fun _ k => k | with_reducible assumption | with_reducible apply State.recordTo_within | with_reducible apply State.wr_within | with_reducible apply State.dueGen_within | with_reducible apply State.nextFlip_within

theorem State.rteAbort_within {A : List Area} (a0 : Area.regs ∈ A) (a1 : Area.aregs ∈ A) (a2 : Area.ports ∈ A) (a3 : Area.agPorts ∈ A) (a4 : Area.route ∈ A) (a5 : Area.ttbs ∈ A) (a6 : Area.beyjo ∈ A) (a7 : Area.flt ∈ A) (a8 : Area.agFlt ∈ A) (a9 : Area.pair ∈ A) (a10 : Area.out ∈ A) {s₀ s : State}  (h₀ : Within A s₀ s) :
    Within A s₀ (State.rteAbort s) := by
  unfold State.rteAbort
  repeat' first | with_reducible exact fun _ k => k | with_reducible assumption | with_reducible apply Within.ite | with_reducible apply State.abortOut_within | with_reducible apply State.endFlip_within | split

theorem execRteAbort_within {A : List Area} (a0 : Area.regs ∈ A) (a1 : Area.aregs ∈ A) (a2 : Area.ports ∈ A) (a3 : Area.agPorts ∈ A) (a4 : Area.route ∈ A) (a5 : Area.ttbs ∈ A) (a6 : Area.beyjo ∈ A) (a7 : Area.flt ∈ A) (a8 : Area.agFlt ∈ A) (a9 : Area.pair ∈ A) (a10 : Area.out ∈ A) {s₀ s : State}  (h₀ : Within A s₀ s) :
    Out.within A s₀ (execRteAbort s) := by
  unfold execRteAbort
  show Within A s₀ _
  repeat' first | with_reducible exact fun _ k => k | with_reducible assumption | with_reducible apply State.rteAbort_within

theorem State.startQuiet_within {A : List Area} (a0 : Area.regs ∈ A) (a1 : Area.aregs ∈ A) (a2 : Area.ports ∈ A) (a3 : Area.agPorts ∈ A) (a4 : Area.route ∈ A) (a5 : Area.flt ∈ A) (a6 : Area.agFlt ∈ A) (a7 : Area.pair ∈ A) (a8 : Area.out ∈ A) {s₀ s : State}  (h₀ : Within A s₀ s) :
    Within A s₀ (State.startQuiet s) := by
  unfold State.startQuiet
  repeat' first | with_reducible exact fun _ k => k | (extract_lets +onlyGivenNames x; revert x; with_reducible first | apply Within.letS A s₀ | apply Within.letQ A s₀ | apply Within.letP A s₀ | apply Within.letF A s₀ | apply Within.letK A s₀ | apply Within.letG A s₀ | apply Within.letF1x A s₀ | apply Within.letH A s₀ | apply Within.letV) | intro _ | with_reducible assumption | with_reducible apply Within.foldl | with_reducible apply State.wr_within | with_reducible apply State.setRoute_within | with_reducible apply State.putRecord_within | with_reducible apply State.remoteWrite_within | split | with_reducible apply_assumption

theorem execFlipPrepareDone_within {A : List Area} (a0 : Area.regs ∈ A) (a1 : Area.aregs ∈ A) (a2 : Area.ports ∈ A) (a3 : Area.agPorts ∈ A) (a4 : Area.route ∈ A) (a5 : Area.flt ∈ A) (a6 : Area.agFlt ∈ A) (a7 : Area.pair ∈ A) (a8 : Area.out ∈ A) {s₀ s : State}  (h₀ : Within A s₀ s) :
    Out.within A s₀ (execFlipPrepareDone s) := by
  unfold execFlipPrepareDone
  show Within A s₀ _
  repeat' first | with_reducible exact fun _ k => k | with_reducible assumption | with_reducible apply Within.ite | with_reducible apply State.startQuiet_within | split

theorem execPrepTimeout_within {A : List Area} (a0 : Area.regs ∈ A) (a1 : Area.aregs ∈ A) (a2 : Area.ports ∈ A) (a3 : Area.agPorts ∈ A) (a4 : Area.route ∈ A) (a5 : Area.ttbs ∈ A) (a6 : Area.beyjo ∈ A) (a7 : Area.flt ∈ A) (a8 : Area.agFlt ∈ A) (a9 : Area.pair ∈ A) (a10 : Area.out ∈ A) {s₀ s : State}  (h₀ : Within A s₀ s) :
    Out.within A s₀ (execPrepTimeout s) := by
  unfold execPrepTimeout
  show Within A s₀ _
  repeat' first | with_reducible exact fun _ k => k | with_reducible assumption | with_reducible apply Within.ite | with_reducible apply State.abortOut_within | with_reducible apply State.endFlip_within | split

theorem execQuietEntry_within {A : List Area} (a0 : Area.regs ∈ A) (a1 : Area.aregs ∈ A) (a2 : Area.route ∈ A) {s₀ s : State} (site : Site) (h₀ : Within A s₀ s) :
    Out.within A s₀ (execQuietEntry site s) := by
  unfold execQuietEntry
  show Within A s₀ _
  repeat' first | (extract_lets +onlyGivenNames x; revert x; with_reducible first | apply Within.letS A s₀ | apply Within.letQ A s₀ | apply Within.letP A s₀ | apply Within.letV) | intro _ | with_reducible assumption | with_reducible apply Within.ite | with_reducible apply State.awr_within | with_reducible apply State.wr_within | with_reducible apply State.setRoute_within | split | with_reducible apply_assumption

theorem State.pollReads_within {A : List Area} (a0 : Area.regs ∈ A) (a1 : Area.aregs ∈ A) (a2 : Area.ports ∈ A) (a3 : Area.agPorts ∈ A) (a4 : Area.route ∈ A) (a5 : Area.flt ∈ A) (a6 : Area.agFlt ∈ A) (a7 : Area.out ∈ A) {s₀ s : State}  (h₀ : Within A s₀ s) :
    Within A s₀ (State.pollReads s) := by
  unfold State.pollReads
  repeat' first | intro _ | with_reducible assumption | with_reducible apply Within.foldl | with_reducible apply State.send_within | with_reducible apply State.setRoute_within

theorem State.rearmStopped_within {A : List Area} (a0 : Area.regs ∈ A) (a1 : Area.aregs ∈ A) (a2 : Area.time ∈ A) (a3 : Area.ports ∈ A) (a4 : Area.agPorts ∈ A) (a5 : Area.route ∈ A) (a6 : Area.ttbs ∈ A) (a7 : Area.insts ∈ A) (a8 : Area.flt ∈ A) (a9 : Area.agFlt ∈ A) (a10 : Area.out ∈ A) {s₀ s : State}  (h₀ : Within A s₀ s) :
    Within A s₀ (State.rearmStopped s) := by
  unfold State.rearmStopped
  repeat' first | intro _ | with_reducible assumption | with_reducible apply Within.ite | with_reducible apply Within.foldl | with_reducible apply State.beginArm_within | with_reducible apply State.setRoute_within | split

theorem State.releaseClear_within {A : List Area} (a0 : Area.regs ∈ A) (a1 : Area.ttbs ∈ A) (a2 : Area.ctxs ∈ A) {s₀ s : State} (c : Nat) (h₀ : Within A s₀ s) :
    Within A s₀ (State.releaseClear s c) := by
  unfold State.releaseClear
  repeat' first | (extract_lets +onlyGivenNames x; revert x; with_reducible first | apply Within.letS A s₀ | apply Within.letQ A s₀ | apply Within.letP A s₀ | apply Within.letV) | intro _ | with_reducible assumption | with_reducible apply Within.foldl | with_reducible apply State.wr_within | with_reducible apply State.setTtb_within | with_reducible apply State.setCtx_within | with_reducible apply_assumption

theorem State.releaseStep7_within {A : List Area} (a0 : Area.regs ∈ A) (a1 : Area.ttbs ∈ A) (a2 : Area.ctxs ∈ A) {s₀ s : State} (c : Nat) (h₀ : Within A s₀ s) :
    Within A s₀ (State.releaseStep7 s c) := by
  unfold State.releaseStep7
  repeat' first | with_reducible assumption | with_reducible apply Within.ite | with_reducible apply State.releaseClear_within | split

theorem State.flippedCtx_within {A : List Area} (a0 : Area.regs ∈ A) (a1 : Area.ttbs ∈ A) (a2 : Area.ctxs ∈ A) (a3 : Area.beyjo ∈ A) (a4 : Area.rst ∈ A) (a5 : Area.pair ∈ A) {s₀ s : State} (c : Nat) (h₀ : Within A s₀ s) :
    Within A s₀ (State.flippedCtx s c) := by
  unfold State.flippedCtx
  repeat' first | with_reducible exact fun _ k => k | (extract_lets +onlyGivenNames x; revert x; with_reducible first | apply Within.letS A s₀ | apply Within.letQ A s₀ | apply Within.letP A s₀ | apply Within.letV) | intro _ | with_reducible assumption | with_reducible apply Within.ite | with_reducible apply State.setRst_within | with_reducible apply State.setCtx_within | with_reducible apply State.releaseStep7_within | with_reducible apply State.wr_within | with_reducible apply State.notifyCtx_within | with_reducible apply State.dueGen_within | split | with_reducible apply_assumption

theorem State.flipDone_within {A : List Area} (a0 : Area.regs ∈ A) (a1 : Area.aregs ∈ A) (a2 : Area.time ∈ A) (a3 : Area.ports ∈ A) (a4 : Area.agPorts ∈ A) (a5 : Area.route ∈ A) (a6 : Area.ttbs ∈ A) (a7 : Area.insts ∈ A) (a8 : Area.ctxs ∈ A) (a9 : Area.beyjo ∈ A) (a10 : Area.flt ∈ A) (a11 : Area.agFlt ∈ A) (a12 : Area.rst ∈ A) (a13 : Area.pair ∈ A) (a14 : Area.out ∈ A) {s₀ s : State}  (h₀ : Within A s₀ s) :
    Within A s₀ (State.flipDone s) := by
  unfold State.flipDone
  repeat' first | with_reducible exact fun _ k => k | (extract_lets +onlyGivenNames x; revert x; with_reducible first | apply Within.letS A s₀ | apply Within.letQ A s₀ | apply Within.letP A s₀ | apply Within.letF A s₀ | apply Within.letK A s₀ | apply Within.letG A s₀ | apply Within.letF1x A s₀ | apply Within.letH A s₀ | apply Within.letV) | intro _ | with_reducible assumption | with_reducible apply Within.foldl | with_reducible apply State.flippedCtx_within | with_reducible apply State.setRoute_within | with_reducible apply State.flipStop_within | with_reducible apply State.rearmStopped_within | with_reducible apply State.endFlip_within | with_reducible apply_assumption

theorem execPollRound_within {A : List Area} (a0 : Area.regs ∈ A) (a1 : Area.aregs ∈ A) (a2 : Area.time ∈ A) (a3 : Area.ports ∈ A) (a4 : Area.agPorts ∈ A) (a5 : Area.route ∈ A) (a6 : Area.ttbs ∈ A) (a7 : Area.insts ∈ A) (a8 : Area.ctxs ∈ A) (a9 : Area.beyjo ∈ A) (a10 : Area.flt ∈ A) (a11 : Area.agFlt ∈ A) (a12 : Area.rst ∈ A) (a13 : Area.pair ∈ A) (a14 : Area.out ∈ A) {s₀ s : State} (reports : List FlipReport) (h₀ : Within A s₀ s) :
    Out.within A s₀ (execPollRound reports s) := by
  unfold execPollRound
  show Within A s₀ _
  repeat' first | with_reducible exact fun _ k => k | (extract_lets +onlyGivenNames x; revert x; with_reducible first | apply Within.letS A s₀ | apply Within.letQ A s₀ | apply Within.letP A s₀ | apply Within.letV) | intro _ | with_reducible assumption | with_reducible apply Within.ite | with_reducible apply State.wr_within | with_reducible apply State.pollReads_within | with_reducible apply State.setRoute_within | with_reducible apply State.recordTo_within | with_reducible apply State.flipDone_within | split | with_reducible apply_assumption

theorem State.commitOut_within {A : List Area} (a0 : Area.regs ∈ A) (a1 : Area.aregs ∈ A) (a2 : Area.ports ∈ A) (a3 : Area.agPorts ∈ A) (a4 : Area.route ∈ A) (a5 : Area.flt ∈ A) (a6 : Area.agFlt ∈ A) (a7 : Area.pair ∈ A) (a8 : Area.out ∈ A) {s₀ s : State} (r : FlipRecord) (h₀ : Within A s₀ s) :
    Within A s₀ (State.commitOut s r) := by
  unfold State.commitOut
  repeat' first | with_reducible exact fun _ k => k | (extract_lets +onlyGivenNames x; revert x; with_reducible first | apply Within.letS A s₀ | apply Within.letQ A s₀ | apply Within.letP A s₀ | apply Within.letV) | intro _ | with_reducible assumption | with_reducible apply Within.ite | with_reducible apply State.wr_within | with_reducible apply State.setRoute_within | with_reducible apply State.flipCast_within | with_reducible apply State.putRecord_within | split | with_reducible apply_assumption

theorem State.recordConfirm_within {A : List Area} (a0 : Area.regs ∈ A) (a1 : Area.aregs ∈ A) (a2 : Area.ports ∈ A) (a3 : Area.agPorts ∈ A) (a4 : Area.route ∈ A) (a5 : Area.flt ∈ A) (a6 : Area.agFlt ∈ A) (a7 : Area.pair ∈ A) (a8 : Area.out ∈ A) {s₀ s : State}  (h₀ : Within A s₀ s) :
    Within A s₀ (State.recordConfirm s) := by
  unfold State.recordConfirm
  repeat' first | with_reducible exact fun _ k => k | (extract_lets +onlyGivenNames x; revert x; with_reducible first | apply Within.letS A s₀ | apply Within.letQ A s₀ | apply Within.letP A s₀ | apply Within.letV) | intro _ | with_reducible assumption | with_reducible apply Within.ite | with_reducible apply State.setRoute_within | with_reducible apply State.commitOut_within | with_reducible apply State.flipCast_within | split | with_reducible apply_assumption

theorem execFlipRecordConfirm_within {A : List Area} (a0 : Area.regs ∈ A) (a1 : Area.aregs ∈ A) (a2 : Area.ports ∈ A) (a3 : Area.agPorts ∈ A) (a4 : Area.route ∈ A) (a5 : Area.flt ∈ A) (a6 : Area.agFlt ∈ A) (a7 : Area.pair ∈ A) (a8 : Area.out ∈ A) {s₀ s : State}  (h₀ : Within A s₀ s) :
    Out.within A s₀ (execFlipRecordConfirm s) := by
  unfold execFlipRecordConfirm
  show Within A s₀ _
  repeat' first | with_reducible exact fun _ k => k | with_reducible assumption | with_reducible apply State.recordConfirm_within

theorem State.standbyRelay_within {A : List Area} (a0 : Area.ports ∈ A) (a1 : Area.agPorts ∈ A) {s₀ s : State} (port : Nat) (c : Cell) (h₀ : Within A s₀ s) :
    Within A s₀ (State.standbyRelay s port c) := by
  unfold State.standbyRelay
  repeat' first | (extract_lets +onlyGivenNames x; revert x; with_reducible first | apply Within.letS A s₀ | apply Within.letQ A s₀ | apply Within.letP A s₀ | apply Within.letV) | intro _ | with_reducible assumption | with_reducible apply Within.ite | with_reducible apply Within.foldl | with_reducible apply State.enqueue_within | split | with_reducible apply_assumption

theorem State.relayRecord_within {A : List Area} (a0 : Area.regs ∈ A) (a1 : Area.aregs ∈ A) (a2 : Area.ports ∈ A) (a3 : Area.agPorts ∈ A) (a4 : Area.route ∈ A) (a5 : Area.flt ∈ A) (a6 : Area.agFlt ∈ A) (a7 : Area.pair ∈ A) {s₀ s : State} (m : Commit) (h₀ : Within A s₀ s) :
    Within A s₀ (State.relayRecord s m) := by
  unfold State.relayRecord
  repeat' first | with_reducible exact fun _ k => k | with_reducible assumption | with_reducible apply Within.ite | with_reducible apply State.putRecord_within | split

theorem State.holdCommit_within {A : List Area} (a0 : Area.regs ∈ A) (a1 : Area.aregs ∈ A) (a2 : Area.ports ∈ A) (a3 : Area.agPorts ∈ A) (a4 : Area.route ∈ A) (a5 : Area.agRoute ∈ A) (a6 : Area.flt ∈ A) (a7 : Area.agFlt ∈ A) (a8 : Area.pair ∈ A) {s₀ s : State} (d : Site) (m : Commit) (h₀ : Within A s₀ s) :
    Within A s₀ (State.holdCommit s d m) := by
  unfold State.holdCommit
  repeat' first | with_reducible exact fun _ k => k | (extract_lets +onlyGivenNames x; revert x; with_reducible first | apply Within.letS A s₀ | apply Within.letQ A s₀ | apply Within.letP A s₀ | apply Within.letV) | intro _ | with_reducible assumption | with_reducible apply Within.ite | with_reducible apply State.wrS_within | with_reducible apply State.setRoute_within | with_reducible apply State.relayRecord_within | with_reducible apply State.setAgRoute_within | with_reducible apply State.detect_within | split | with_reducible apply_assumption

theorem execCommitCell_within {A : List Area} (a0 : Area.regs ∈ A) (a1 : Area.aregs ∈ A) (a2 : Area.ports ∈ A) (a3 : Area.agPorts ∈ A) (a4 : Area.route ∈ A) (a5 : Area.agRoute ∈ A) (a6 : Area.flt ∈ A) (a7 : Area.agFlt ∈ A) (a8 : Area.pair ∈ A) {s₀ s : State} (site : Site) (port : Nat) (cell : Cell) (h₀ : Within A s₀ s) :
    Out.within A s₀ (execCommitCell site port cell s) := by
  unfold execCommitCell
  show Within A s₀ _
  repeat' first | with_reducible exact fun _ k => k | (extract_lets +onlyGivenNames x; revert x; with_reducible first | apply Within.letS A s₀ | apply Within.letQ A s₀ | apply Within.letP A s₀ | apply Within.letV) | intro _ | with_reducible assumption | with_reducible apply Within.ite | with_reducible apply State.holdCommit_within | with_reducible apply State.standbyRelay_within | split | with_reducible apply_assumption

theorem State.agAbort_within {A : List Area} (a0 : Area.aregs ∈ A) (a1 : Area.agRoute ∈ A) {s₀ s : State} (resume : Nat) (h₀ : Within A s₀ s) :
    Within A s₀ (State.agAbort s resume) := by
  unfold State.agAbort
  repeat' first | (extract_lets +onlyGivenNames x; revert x; with_reducible first | apply Within.letS A s₀ | apply Within.letQ A s₀ | apply Within.letP A s₀ | apply Within.letV) | intro _ | with_reducible assumption | with_reducible apply Within.ite | with_reducible apply State.awr_within | with_reducible apply State.setAgRoute_within | split | with_reducible apply_assumption

theorem execAbortCell_within {A : List Area} (a0 : Area.regs ∈ A) (a1 : Area.aregs ∈ A) (a2 : Area.ports ∈ A) (a3 : Area.agPorts ∈ A) (a4 : Area.route ∈ A) (a5 : Area.agRoute ∈ A) (a6 : Area.flt ∈ A) (a7 : Area.agFlt ∈ A) (a8 : Area.pair ∈ A) (a9 : Area.out ∈ A) {s₀ s : State} (site : Site) (port : Nat) (cell : Cell) (h₀ : Within A s₀ s) :
    Out.within A s₀ (execAbortCell site port cell s) := by
  unfold execAbortCell
  show Within A s₀ _
  repeat' first | with_reducible exact fun _ k => k | (extract_lets +onlyGivenNames x; revert x; with_reducible first | apply Within.letS A s₀ | apply Within.letQ A s₀ | apply Within.letP A s₀ | apply Within.letF A s₀ | apply Within.letK A s₀ | apply Within.letG A s₀ | apply Within.letF1x A s₀ | apply Within.letH A s₀ | apply Within.letV) | intro _ | with_reducible assumption | with_reducible apply Within.ite | with_reducible apply State.agAbort_within | with_reducible apply State.setAgRoute_within | with_reducible apply State.standbyRelay_within | with_reducible apply State.wr_within | with_reducible apply State.setRoute_within | with_reducible apply State.leaveQuiet_within | with_reducible apply State.flipCast_within | with_reducible apply State.recordTo_within | split | with_reducible apply_assumption

theorem State.setEpoch_within {A : List Area} (a0 : Area.regs ∈ A) (a1 : Area.aregs ∈ A) {s₀ s : State} (d : Site) (x : Nat × Nat) (h₀ : Within A s₀ s) :
    Within A s₀ (State.setEpoch s d x) := by
  unfold State.setEpoch
  repeat' first | (extract_lets +onlyGivenNames x; revert x; with_reducible first | apply Within.letS A s₀ | apply Within.letQ A s₀ | apply Within.letP A s₀ | apply Within.letV) | intro _ | with_reducible assumption | with_reducible apply State.wrS_within | with_reducible apply_assumption

theorem State.setTree_within {A : List Area} (a0 : Area.regs ∈ A) (a1 : Area.route ∈ A) {s₀ s : State}  (h₀ : Within A s₀ s) :
    Within A s₀ (State.setTree s) := by
  unfold State.setTree
  repeat' first | (extract_lets +onlyGivenNames x; revert x; with_reducible first | apply Within.letS A s₀ | apply Within.letQ A s₀ | apply Within.letP A s₀ | apply Within.letF A s₀ | apply Within.letK A s₀ | apply Within.letG A s₀ | apply Within.letF1x A s₀ | apply Within.letH A s₀ | apply Within.letV) | intro _ | with_reducible assumption | with_reducible apply State.setRoute_within | with_reducible apply State.wr_within | split | with_reducible apply_assumption

theorem State.flipDz_within {A : List Area} (a0 : Area.regs ∈ A) (a1 : Area.aregs ∈ A) (a2 : Area.ports ∈ A) (a3 : Area.agPorts ∈ A) (a4 : Area.route ∈ A) (a5 : Area.flt ∈ A) (a6 : Area.agFlt ∈ A) (a7 : Area.out ∈ A) {s₀ s : State} (m : Commit) (h₀ : Within A s₀ s) :
    Within A s₀ (State.flipDz s m) := by
  unfold State.flipDz
  repeat' first | (extract_lets +onlyGivenNames x; revert x; with_reducible first | apply Within.letS A s₀ | apply Within.letQ A s₀ | apply Within.letP A s₀ | apply Within.letV) | intro _ | with_reducible assumption | with_reducible apply Within.ite | with_reducible apply Within.foldl | with_reducible apply State.setRoute_within | with_reducible apply State.wr_within | with_reducible apply State.setEpoch_within | with_reducible apply State.setTree_within | with_reducible apply State.leaveQuiet_within | split | with_reducible apply_assumption

theorem State.flipAg_within {A : List Area} (a0 : Area.regs ∈ A) (a1 : Area.aregs ∈ A) (a2 : Area.agRoute ∈ A) {s₀ s : State} (m : Commit) (h₀ : Within A s₀ s) :
    Within A s₀ (State.flipAg s m) := by
  unfold State.flipAg
  repeat' first | (extract_lets +onlyGivenNames x; revert x; with_reducible first | apply Within.letS A s₀ | apply Within.letQ A s₀ | apply Within.letP A s₀ | apply Within.letV) | intro _ | with_reducible assumption | with_reducible apply Within.ite | with_reducible apply Within.foldl | with_reducible apply State.setAgRoute_within | with_reducible apply State.awr_within | with_reducible apply State.setEpoch_within | split | with_reducible apply_assumption

theorem execFlipBeat_within {A : List Area} (a0 : Area.regs ∈ A) (a1 : Area.aregs ∈ A) (a2 : Area.ports ∈ A) (a3 : Area.agPorts ∈ A) (a4 : Area.route ∈ A) (a5 : Area.agRoute ∈ A) (a6 : Area.flt ∈ A) (a7 : Area.agFlt ∈ A) (a8 : Area.out ∈ A) {s₀ s : State} (site : Site) (h₀ : Within A s₀ s) :
    Out.within A s₀ (execFlipBeat site s) := by
  unfold execFlipBeat
  show Within A s₀ _
  repeat' first | with_reducible assumption | with_reducible apply State.flipDz_within | with_reducible apply State.flipAg_within | split

theorem execFlipResume_within {A : List Area} (a0 : Area.regs ∈ A) (a1 : Area.aregs ∈ A) (a2 : Area.agRoute ∈ A) (a3 : Area.ttbs ∈ A) (a4 : Area.beyjo ∈ A) (a5 : Area.ag ∈ A) {s₀ s : State} (site : Site) (h₀ : Within A s₀ s) :
    Out.within A s₀ (execFlipResume site s) := by
  unfold execFlipResume
  show Within A s₀ _
  repeat' first | with_reducible exact fun _ k => k | (extract_lets +onlyGivenNames x; revert x; with_reducible first | apply Within.letS A s₀ | apply Within.letQ A s₀ | apply Within.letP A s₀ | apply Within.letV) | intro _ | with_reducible assumption | with_reducible apply Within.ite | with_reducible apply Within.foldl | with_reducible apply State.resumeTtb_within | with_reducible apply State.setAgRoute_within | with_reducible apply State.setAg_within | with_reducible apply State.agRebase_within | split | with_reducible apply_assumption

theorem execCommitResend_within {A : List Area} (a0 : Area.regs ∈ A) (a1 : Area.aregs ∈ A) (a2 : Area.ports ∈ A) (a3 : Area.agPorts ∈ A) (a4 : Area.route ∈ A) (a5 : Area.flt ∈ A) (a6 : Area.agFlt ∈ A) (a7 : Area.out ∈ A) {s₀ s : State} (chips : List Nat) (h₀ : Within A s₀ s) :
    Out.within A s₀ (execCommitResend chips s) := by
  unfold execCommitResend
  show Within A s₀ _
  repeat' first | (extract_lets +onlyGivenNames x; revert x; with_reducible first | apply Within.letS A s₀ | apply Within.letQ A s₀ | apply Within.letP A s₀ | apply Within.letV) | intro _ | with_reducible assumption | with_reducible apply Within.ite | with_reducible apply Within.foldl | with_reducible apply State.loadShadow_within | with_reducible apply State.send_within | split | with_reducible apply_assumption

theorem execFlipFallback_within {A : List Area} (a0 : Area.regs ∈ A) (a1 : Area.aregs ∈ A) (a2 : Area.ports ∈ A) (a3 : Area.agPorts ∈ A) (a4 : Area.route ∈ A) (a5 : Area.ttbs ∈ A) (a6 : Area.beyjo ∈ A) (a7 : Area.flt ∈ A) (a8 : Area.agFlt ∈ A) (a9 : Area.pair ∈ A) (a10 : Area.out ∈ A) {s₀ s : State}  (h₀ : Within A s₀ s) :
    Out.within A s₀ (execFlipFallback s) := by
  unfold execFlipFallback
  show Within A s₀ _
  repeat' first | with_reducible exact fun _ k => k | (extract_lets +onlyGivenNames x; revert x; with_reducible first | apply Within.letS A s₀ | apply Within.letQ A s₀ | apply Within.letP A s₀ | apply Within.letV) | intro _ | with_reducible assumption | with_reducible apply Within.ite | with_reducible apply Within.foldl | with_reducible apply State.detect_within | with_reducible apply State.abortOut_within | with_reducible apply State.endFlip_within | with_reducible apply State.flipStop_within | with_reducible apply State.setRoute_within | with_reducible apply State.wr_within | with_reducible apply State.recordTo_within | split | with_reducible apply_assumption

theorem execFallbackRetry_within {A : List Area} (a0 : Area.regs ∈ A) (a1 : Area.aregs ∈ A) (a2 : Area.ports ∈ A) (a3 : Area.agPorts ∈ A) (a4 : Area.route ∈ A) (a5 : Area.flt ∈ A) (a6 : Area.agFlt ∈ A) (a7 : Area.pair ∈ A) (a8 : Area.out ∈ A) {s₀ s : State}  (h₀ : Within A s₀ s) :
    Out.within A s₀ (execFallbackRetry s) := by
  unfold execFallbackRetry
  show Within A s₀ _
  repeat' first | with_reducible exact fun _ k => k | with_reducible assumption | with_reducible apply Within.ite | with_reducible apply State.startQuiet_within | split

theorem execSafeStateEntry_within {A : List Area} (a0 : Area.aregs ∈ A) (a1 : Area.flt ∈ A) (a2 : Area.agFlt ∈ A) {s₀ s : State}  (h₀ : Within A s₀ s) :
    Out.within A s₀ (execSafeStateEntry s) := by
  unfold execSafeStateEntry
  show Within A s₀ _
  repeat' first | with_reducible assumption | with_reducible apply Within.ite | with_reducible apply State.awr_within | with_reducible apply State.detect_within | split

theorem State.flipRecovery_within {A : List Area} (a0 : Area.regs ∈ A) (a1 : Area.aregs ∈ A) (a2 : Area.ports ∈ A) (a3 : Area.agPorts ∈ A) (a4 : Area.route ∈ A) (a5 : Area.flt ∈ A) (a6 : Area.agFlt ∈ A) (a7 : Area.pair ∈ A) (a8 : Area.out ∈ A) {s₀ s : State}  (h₀ : Within A s₀ s) :
    Within A s₀ (State.flipRecovery s) := by
  unfold State.flipRecovery
  repeat' first | with_reducible exact fun _ k => k | (extract_lets +onlyGivenNames x; revert x; with_reducible first | apply Within.letS A s₀ | apply Within.letQ A s₀ | apply Within.letP A s₀ | apply Within.letV) | intro _ | with_reducible assumption | with_reducible apply Within.ite | with_reducible apply State.setRoute_within | with_reducible apply State.wr_within | with_reducible apply State.flipCast_within | with_reducible apply State.putRecord_within | with_reducible apply State.abortOut_within | with_reducible apply State.recordTo_within | with_reducible apply State.dueGen_within | split | with_reducible apply_assumption

end Sys2Proof.Machine
end

