-- ==== Sys2Proof/Laws/TileWithin.lean ====
section
/-! SUPPORT. The parts of the state that the definitions of Machine/Tile.lean reach. -/

set_option linter.unreachableTactic false
set_option linter.unusedTactic false

namespace Sys2Proof.Machine

theorem State.spacePut_within {A : List Area} (a0 : Area.tile ∈ A) {s₀ s : State} (ch : ChainSt) (sp a : Nat) (b : Byte) (h₀ : Within A s₀ s) :
    Within A s₀ (State.spacePut s ch sp a b) := by
  unfold State.spacePut
  repeat' first | with_reducible exact fun _ k => ⟨mset_wf k.1 _ _, k.2⟩ | with_reducible exact fun _ k => ⟨k.1, mset_wf k.2.1 _ _, k.2.2⟩ | with_reducible exact fun _ k => k | (extract_lets +onlyGivenNames x; revert x; with_reducible first | apply Within.letS A s₀ | apply Within.letQ A s₀ | apply Within.letP A s₀ | apply Within.letV) | intro _ | with_reducible assumption | with_reducible apply State.setTile_within | with_reducible apply State.allocPut_within | split | with_reducible apply_assumption

theorem State.spaceWrite_within {A : List Area} (a0 : Area.tile ∈ A) {s₀ s : State} (ch : ChainSt) (sp : Nat) (a : Nat) (l : List Byte) (h₀ : Within A s₀ s) :
    Within A s₀ (State.spaceWrite s ch sp a l) := by
  induction l generalizing s a with
  | nil =>
    rw [State.spaceWrite]
    repeat' first | intro _ | with_reducible assumption | with_reducible apply State.spacePut_within | split
  | cons x l ih =>
    rw [State.spaceWrite]
    repeat' first | intro _ | with_reducible assumption | with_reducible apply ih | with_reducible apply State.spacePut_within | split

theorem State.gemm_within {A : List Area} (a0 : Area.tile ∈ A) {s₀ s : State} (ch : ChainSt) (d : Descriptor) (h₀ : Within A s₀ s) :
    Within A s₀ (State.gemm s ch d) := by
  unfold State.gemm
  repeat' first | with_reducible exact fun _ k => k | (extract_lets +onlyGivenNames x; revert x; with_reducible first | apply Within.letS A s₀ | apply Within.letQ A s₀ | apply Within.letP A s₀ | apply Within.letV) | intro _ | with_reducible assumption | with_reducible apply Within.ite | with_reducible apply Within.foldl | with_reducible apply State.spaceWrite_within | split | with_reducible apply_assumption

theorem State.rotateOp_within {A : List Area} (a0 : Area.tile ∈ A) {s₀ s : State} (ch : ChainSt) (d : Descriptor) (h₀ : Within A s₀ s) :
    Within A s₀ (State.rotateOp s ch d) := by
  unfold State.rotateOp
  repeat' first | with_reducible exact fun _ k => k | (extract_lets +onlyGivenNames x; revert x; with_reducible first | apply Within.letS A s₀ | apply Within.letQ A s₀ | apply Within.letP A s₀ | apply Within.letV) | intro _ | with_reducible assumption | with_reducible apply Within.ite | with_reducible apply Within.foldl | with_reducible apply State.drop_within | with_reducible apply State.spaceWrite_within | split | with_reducible apply_assumption

theorem State.quantOp_within {A : List Area} (a0 : Area.tile ∈ A) {s₀ s : State} (ch : ChainSt) (d : Descriptor) (h₀ : Within A s₀ s) :
    Within A s₀ (State.quantOp s ch d) := by
  unfold State.quantOp
  repeat' first | with_reducible exact fun _ k => k | intro _ | with_reducible assumption | with_reducible apply Within.foldl | with_reducible apply State.spaceWrite_within | split

theorem State.reduceOp_within {A : List Area} (a0 : Area.tile ∈ A) {s₀ s : State} (ch : ChainSt) (d : Descriptor) (h₀ : Within A s₀ s) :
    Within A s₀ (State.reduceOp s ch d) := by
  unfold State.reduceOp
  repeat' first | with_reducible exact fun _ k => k | (extract_lets +onlyGivenNames x; revert x; with_reducible first | apply Within.letS A s₀ | apply Within.letQ A s₀ | apply Within.letP A s₀ | apply Within.letV) | intro _ | with_reducible assumption | with_reducible apply State.spaceWrite_within | with_reducible apply_assumption

theorem State.perRow_within {A : List Area} (a0 : Area.tile ∈ A) {s₀ s : State} (ch : ChainSt) (d : Descriptor) (f : List Nat → List Byte) (h₀ : Within A s₀ s) :
    Within A s₀ (State.perRow s ch d f) := by
  unfold State.perRow
  repeat' first | with_reducible exact fun _ k => k | intro _ | with_reducible assumption | with_reducible apply Within.foldl | with_reducible apply State.spaceWrite_within

theorem State.vprogOp_within {A : List Area} (a0 : Area.tile ∈ A) {s₀ s : State} (ch : ChainSt) (d : Descriptor) (h₀ : Within A s₀ s) :
    Within A s₀ (State.vprogOp s ch d) := by
  unfold State.vprogOp
  repeat' first | with_reducible exact fun _ k => k | (extract_lets +onlyGivenNames x; revert x; with_reducible first | apply Within.letS A s₀ | apply Within.letQ A s₀ | apply Within.letP A s₀ | apply Within.letV) | intro _ | with_reducible assumption | with_reducible apply Within.ite | with_reducible apply Within.foldl | with_reducible apply State.spaceWrite_within | split | with_reducible apply_assumption

theorem State.runDesc_within {A : List Area} (a0 : Area.tile ∈ A) {s₀ s : State} (ch : ChainSt) (d : Descriptor) (h₀ : Within A s₀ s) :
    Within A s₀ (State.runDesc s ch d) := by
  unfold State.runDesc
  repeat' first | with_reducible exact fun _ k => k | with_reducible assumption | with_reducible apply State.gemm_within | with_reducible apply State.rotateOp_within | with_reducible apply State.quantOp_within | with_reducible apply State.reduceOp_within | with_reducible apply State.perRow_within | with_reducible apply State.vprogOp_within | with_reducible apply State.spaceWrite_within | split

theorem State.setChain_within {A : List Area} (a0 : Area.tile ∈ A) {s₀ s : State} (die tile : Nat) (c : Option ChainSt) (h₀ : Within A s₀ s) :
    Within A s₀ (State.setChain s die tile c) := by
  unfold State.setChain
  repeat' first | with_reducible exact fun _ k => k | intro _ | with_reducible assumption | with_reducible apply State.setTile_within

theorem State.signal_within {A : List Area} (a0 : Area.tile ∈ A) {s₀ s : State} (die c xid obj : Nat) (h₀ : Within A s₀ s) :
    Within A s₀ (State.signal s die c xid obj) := by
  unfold State.signal
  repeat' first | with_reducible exact fun _ k => k | intro _ | with_reducible assumption | with_reducible apply Within.ite | with_reducible apply State.setTile_within | split

theorem State.chainError_within {A : List Area} (a0 : Area.regs ∈ A) (a1 : Area.ttbs ∈ A) (a2 : Area.insts ∈ A) (a3 : Area.tile ∈ A) (a4 : Area.flt ∈ A) (a5 : Area.agFlt ∈ A) {s₀ s : State} (die tile cls : Nat) (h₀ : Within A s₀ s) :
    Within A s₀ (State.chainError s die tile cls) := by
  unfold State.chainError
  repeat' first | with_reducible exact fun _ k => k | (extract_lets +onlyGivenNames x; revert x; with_reducible first | apply Within.letS A s₀ | apply Within.letQ A s₀ | apply Within.letP A s₀ | apply Within.letV) | intro _ | with_reducible assumption | with_reducible apply Within.ite | with_reducible apply State.wr_within | with_reducible apply State.codecError_within | with_reducible apply State.setChain_within | with_reducible apply State.instError_within | split | with_reducible apply_assumption

theorem State.buildDesc_within {A : List Area} (a0 : Area.tile ∈ A) {s₀ s : State} (die tile index : Nat) (words : List Word) (h₀ : Within A s₀ s) :
    Within A s₀ (State.buildDesc s die tile index words) := by
  unfold State.buildDesc
  repeat' first | with_reducible exact fun _ k => ⟨mwrite_wf k.1 _ _, k.2⟩ | with_reducible exact fun _ k => k | (extract_lets +onlyGivenNames x; revert x; with_reducible first | apply Within.letS A s₀ | apply Within.letQ A s₀ | apply Within.letP A s₀ | apply Within.letV) | intro _ | with_reducible assumption | with_reducible apply State.setTile_within | with_reducible apply_assumption

theorem execDescriptorStart_within {A : List Area} (a0 : Area.regs ∈ A) (a1 : Area.ttbs ∈ A) (a2 : Area.insts ∈ A) (a3 : Area.tile ∈ A) (a4 : Area.flt ∈ A) (a5 : Area.agFlt ∈ A) {s₀ s : State} (die tile ctx xid index : Nat) (words : List Word) (h₀ : Within A s₀ s) :
    Out.within A s₀ (execDescriptorStart die tile ctx xid index words s) := by
  unfold execDescriptorStart
  show Within A s₀ _
  repeat' first | with_reducible exact fun _ k => k | (extract_lets +onlyGivenNames x; revert x; with_reducible first | apply Within.letS A s₀ | apply Within.letQ A s₀ | apply Within.letP A s₀ | apply Within.letV) | intro _ | with_reducible assumption | with_reducible apply Within.ite | with_reducible apply State.buildDesc_within | with_reducible apply State.setChain_within | with_reducible apply State.setTile_within | with_reducible apply State.chainError_within | split | with_reducible apply_assumption

theorem execDescriptorEnd_within {A : List Area} (a0 : Area.regs ∈ A) (a1 : Area.tile ∈ A) {s₀ s : State} (die tile : Nat) (h₀ : Within A s₀ s) :
    Out.within A s₀ (execDescriptorEnd die tile s) := by
  unfold execDescriptorEnd
  show Within A s₀ _
  repeat' first | with_reducible exact fun _ k => k | (extract_lets +onlyGivenNames x; revert x; with_reducible first | apply Within.letS A s₀ | apply Within.letQ A s₀ | apply Within.letP A s₀ | apply Within.letV) | intro _ | with_reducible assumption | with_reducible apply Within.ite | with_reducible apply State.runDesc_within | with_reducible apply State.signal_within | with_reducible apply State.bump_within | with_reducible apply State.setChain_within | split | with_reducible apply_assumption

theorem State.showSpares_within {A : List Area} (a0 : Area.regs ∈ A) {s₀ s : State} (die : Nat) (h₀ : Within A s₀ s) :
    Within A s₀ (State.showSpares s die) := by
  unfold State.showSpares
  repeat' first | with_reducible assumption | with_reducible apply State.wr_within

theorem State.markFailed_within {A : List Area} (a0 : Area.regs ∈ A) {s₀ s : State} (die p : Nat) (h₀ : Within A s₀ s) :
    Within A s₀ (State.markFailed s die p) := by
  unfold State.markFailed
  repeat' first | (extract_lets +onlyGivenNames x; revert x; with_reducible first | apply Within.letS A s₀ | apply Within.letQ A s₀ | apply Within.letP A s₀ | apply Within.letV) | intro _ | with_reducible assumption | with_reducible apply Within.ite | with_reducible apply State.wr_within | split | with_reducible apply_assumption

theorem State.setAbsent_within {A : List Area} (a0 : Area.regs ∈ A) {s₀ s : State} (die t : Nat) (b : Bool) (h₀ : Within A s₀ s) :
    Within A s₀ (State.setAbsent s die t b) := by
  unfold State.setAbsent
  repeat' first | (extract_lets +onlyGivenNames x; revert x; with_reducible first | apply Within.letS A s₀ | apply Within.letQ A s₀ | apply Within.letP A s₀ | apply Within.letV) | intro _ | with_reducible assumption | with_reducible apply State.wr_within | with_reducible apply_assumption

theorem State.tileFail_within {A : List Area} (a0 : Area.regs ∈ A) (a1 : Area.ttbs ∈ A) (a2 : Area.insts ∈ A) (a3 : Area.tile ∈ A) (a4 : Area.flt ∈ A) (a5 : Area.agFlt ∈ A) {s₀ s : State} (die p cls : Nat) (h₀ : Within A s₀ s) :
    Within A s₀ (State.tileFail s die p cls) := by
  unfold State.tileFail
  repeat' first | with_reducible exact fun _ k => k | (extract_lets +onlyGivenNames x; revert x; with_reducible first | apply Within.letS A s₀ | apply Within.letQ A s₀ | apply Within.letP A s₀ | apply Within.letV) | intro _ | with_reducible assumption | with_reducible apply Within.ite | with_reducible apply State.markFailed_within | with_reducible apply State.showSpares_within | with_reducible apply State.chainError_within | with_reducible apply State.wr_within | with_reducible apply State.bump_within | with_reducible apply State.setTile_within | with_reducible apply State.setAbsent_within | with_reducible apply State.detect_within | split | with_reducible apply_assumption

theorem execSequencerError_within {A : List Area} (a0 : Area.regs ∈ A) (a1 : Area.ttbs ∈ A) (a2 : Area.insts ∈ A) (a3 : Area.tile ∈ A) (a4 : Area.flt ∈ A) (a5 : Area.agFlt ∈ A) {s₀ s : State} (die tile cls : Nat) (h₀ : Within A s₀ s) :
    Out.within A s₀ (execSequencerError die tile cls s) := by
  unfold execSequencerError
  show Within A s₀ _
  repeat' first | with_reducible exact fun _ k => k | with_reducible assumption | with_reducible apply Within.ite | with_reducible apply State.chainError_within | with_reducible apply State.tileFail_within | split

theorem execTileFail_within {A : List Area} (a0 : Area.regs ∈ A) (a1 : Area.ttbs ∈ A) (a2 : Area.insts ∈ A) (a3 : Area.tile ∈ A) (a4 : Area.flt ∈ A) (a5 : Area.agFlt ∈ A) {s₀ s : State} (die phys cls : Nat) (h₀ : Within A s₀ s) :
    Out.within A s₀ (execTileFail die phys cls s) := by
  unfold execTileFail
  show Within A s₀ _
  repeat' first | with_reducible exact fun _ k => k | with_reducible assumption | with_reducible apply State.tileFail_within

theorem State.scrubTile_within {A : List Area} (a0 : Area.tile ∈ A) {s₀ s : State} (die tile : Nat) (h₀ : Within A s₀ s) :
    Within A s₀ (State.scrubTile s die tile) := by
  unfold State.scrubTile
  repeat' first | with_reducible exact fun _ k => ⟨mzero_wf k.1 _ _, k.2⟩ | with_reducible exact fun _ k => k | intro _ | with_reducible assumption | with_reducible apply State.setTile_within

theorem State.swapIn_within {A : List Area} (a0 : Area.regs ∈ A) (a1 : Area.tile ∈ A) (a2 : Area.flt ∈ A) (a3 : Area.agFlt ∈ A) {s₀ s : State} (die t : Nat) (bad : List Nat) (h₀ : Within A s₀ s) :
    Within A s₀ (State.swapIn s die t bad) := by
  unfold State.swapIn
  repeat' first | with_reducible exact fun _ k => k | (extract_lets +onlyGivenNames x; revert x; with_reducible first | apply Within.letS A s₀ | apply Within.letQ A s₀ | apply Within.letP A s₀ | apply Within.letV) | intro _ | with_reducible assumption | with_reducible apply Within.foldl | with_reducible apply State.markFailed_within | with_reducible apply State.wr_within | with_reducible apply State.drop_within | with_reducible apply State.showSpares_within | with_reducible apply State.detect_within | with_reducible apply State.setAbsent_within | with_reducible apply State.scrubTile_within | with_reducible apply State.setTile_within | split | with_reducible apply_assumption

theorem execTileSwap_within {A : List Area} (a0 : Area.regs ∈ A) (a1 : Area.tile ∈ A) (a2 : Area.flt ∈ A) (a3 : Area.agFlt ∈ A) {s₀ s : State} (die : Nat) (bad : List Nat) (h₀ : Within A s₀ s) :
    Out.within A s₀ (execTileSwap die bad s) := by
  unfold execTileSwap
  show Within A s₀ _
  repeat' first | with_reducible exact fun _ k => k | (extract_lets +onlyGivenNames x; revert x; with_reducible first | apply Within.letS A s₀ | apply Within.letQ A s₀ | apply Within.letP A s₀ | apply Within.letV) | intro _ | with_reducible assumption | with_reducible apply Within.foldl | with_reducible apply State.swapIn_within | with_reducible apply_assumption

theorem execEngineSwitch_within {A : List Area} (a0 : Area.tile ∈ A) {s₀ s : State} (die tile ctx : Nat) (h₀ : Within A s₀ s) :
    Out.within A s₀ (execEngineSwitch die tile ctx s) := by
  unfold execEngineSwitch
  show Within A s₀ _
  repeat' first | with_reducible exact fun _ k => k | intro _ | with_reducible assumption | with_reducible apply Within.ite | with_reducible apply State.setTile_within | split

theorem execEngineSwitchDone_within {A : List Area} (a0 : Area.regs ∈ A) (a1 : Area.ttbs ∈ A) (a2 : Area.insts ∈ A) (a3 : Area.tile ∈ A) (a4 : Area.flt ∈ A) (a5 : Area.agFlt ∈ A) {s₀ s : State} (die tile : Nat) (ok : Bool) (lateNs : Nat) (h₀ : Within A s₀ s) :
    Out.within A s₀ (execEngineSwitchDone die tile ok lateNs s) := by
  unfold execEngineSwitchDone
  show Within A s₀ _
  repeat' first | with_reducible exact fun _ k => k | (extract_lets +onlyGivenNames x; revert x; with_reducible first | apply Within.letS A s₀ | apply Within.letQ A s₀ | apply Within.letP A s₀ | apply Within.letV) | intro _ | with_reducible assumption | with_reducible apply Within.ite | with_reducible apply State.scrubTile_within | with_reducible apply State.setTile_within | with_reducible apply State.bump_within | with_reducible apply State.tileFail_within | split | with_reducible apply_assumption

theorem execBankPromote_within {A : List Area} (a0 : Area.regs ∈ A) {s₀ s : State} (die : Nat) (h₀ : Within A s₀ s) :
    Out.within A s₀ (execBankPromote die s) := by
  unfold execBankPromote
  show Within A s₀ _
  repeat' first | with_reducible assumption | with_reducible apply State.bump_within

theorem State.syncPut_within {A : List Area} (a0 : Area.tile ∈ A) {s₀ s : State} (die w v : Nat) (h₀ : Within A s₀ s) :
    Within A s₀ (State.syncPut s die w v) := by
  unfold State.syncPut
  repeat' first | with_reducible exact fun _ k => k | intro _ | with_reducible assumption | with_reducible apply Within.ite | with_reducible apply State.setTile_within | split

theorem State.syncDo_within {A : List Area} (a0 : Area.tile ∈ A) {s₀ s : State} (die : Nat) (a : SyncAccess) (h₀ : Within A s₀ s) :
    Within A s₀ (State.syncDo s die a).2 := by
  unfold State.syncDo
  repeat' first | with_reducible exact fun _ k => k | with_reducible assumption | with_reducible apply State.syncPut_within | split

theorem State.syncRefuse_within {A : List Area} (a0 : Area.regs ∈ A) (a2 : Area.flt ∈ A) (a3 : Area.agFlt ∈ A) {s₀ s t : State} (die : Nat)
    (a : SyncAccess) (h : Within A s₀ s) (e : State.syncRefuse s die a = some t) : Within A s₀ t := by
  unfold State.syncRefuse at e
  split at e
  · cases e
    exact State.detect_within a2 a3 _ _ _ _ _ h
  · split at e
    · cases e
      exact State.detect_within a2 a3 _ _ _ _ _ (State.bump_within a0 _ _ h)
    · cases e

theorem State.syncOne_within {A : List Area} (a0 : Area.regs ∈ A) (a1 : Area.tile ∈ A) (a2 : Area.flt ∈ A) (a3 : Area.agFlt ∈ A) {s₀ s : State}
    (die : Nat) (a : Option SyncAccess) (h : Within A s₀ s) : Within A s₀ (State.syncOne s die a).2 := by
  unfold State.syncOne
  split
  · exact h
  · split
    · exact State.syncRefuse_within a0 a2 a3 _ _ h ‹_›
    · exact State.syncDo_within a1 _ _ h

theorem execSyncWindowAccess_within {A : List Area} (a0 : Area.regs ∈ A) (a1 : Area.tile ∈ A) (a2 : Area.flt ∈ A) (a3 : Area.agFlt ∈ A) {s₀ s : State} (die : Nat) (port0 port1 : Option SyncAccess) (h₀ : Within A s₀ s) :
    Out.within A s₀ (execSyncWindowAccess die port0 port1 s) := by
  unfold execSyncWindowAccess
  show Within A s₀ _
  repeat' first | with_reducible exact fun _ k => k | (extract_lets +onlyGivenNames x; revert x; with_reducible first | apply Within.letS A s₀ | apply Within.letQ A s₀ | apply Within.letP A s₀ | apply Within.letV) | intro _ | with_reducible assumption | with_reducible apply Within.ite | with_reducible apply State.syncOne_within | with_reducible apply State.bump_within | with_reducible apply State.detect_within | with_reducible apply State.setTile_within | split | with_reducible apply_assumption

theorem execSyncCollideRepeat_within {A : List Area} (a0 : Area.regs ∈ A) (a1 : Area.tile ∈ A) (a2 : Area.flt ∈ A) (a3 : Area.agFlt ∈ A) {s₀ s : State} (die : Nat) (h₀ : Within A s₀ s) :
    Out.within A s₀ (execSyncCollideRepeat die s) := by
  unfold execSyncCollideRepeat
  show Within A s₀ _
  repeat' first | with_reducible exact fun _ k => k | (extract_lets +onlyGivenNames x; revert x; with_reducible first | apply Within.letS A s₀ | apply Within.letQ A s₀ | apply Within.letP A s₀ | apply Within.letV) | intro _ | with_reducible assumption | with_reducible apply State.setTile_within | with_reducible apply State.syncOne_within | split | with_reducible apply_assumption

theorem execSramUncorrectable_within {A : List Area} (a0 : Area.regs ∈ A) (a1 : Area.ttbs ∈ A) (a2 : Area.insts ∈ A) (a3 : Area.tile ∈ A) (a4 : Area.flt ∈ A) (a5 : Area.agFlt ∈ A) {s₀ s : State} (die addr : Nat) (dest : SramDest) (h₀ : Within A s₀ s) :
    Out.within A s₀ (execSramUncorrectable die addr dest s) := by
  unfold execSramUncorrectable
  show Within A s₀ _
  repeat' first | with_reducible exact fun _ k => k | (extract_lets +onlyGivenNames x; revert x; with_reducible first | apply Within.letS A s₀ | apply Within.letQ A s₀ | apply Within.letP A s₀ | apply Within.letV) | intro _ | with_reducible assumption | with_reducible apply Within.foldl | with_reducible apply State.bump_within | with_reducible apply State.wr_within | with_reducible apply State.chainError_within | with_reducible apply State.instError_within | with_reducible apply State.setTile_within | with_reducible apply State.detect_within | split | with_reducible apply_assumption

theorem execShelfDenied_within {A : List Area} (a0 : Area.regs ∈ A) (a1 : Area.flt ∈ A) (a2 : Area.agFlt ∈ A) {s₀ s : State} (die : Nat) (h₀ : Within A s₀ s) :
    Out.within A s₀ (execShelfDenied die s) := by
  unfold execShelfDenied
  show Within A s₀ _
  repeat' first | with_reducible assumption | with_reducible apply State.bump_within | with_reducible apply State.detect_within

theorem State.shelfGone_within {A : List Area} (a0 : Area.tile ∈ A) (a1 : Area.hbm ∈ A) (a2 : Area.rot ∈ A) {s₀ s : State} (die : Nat) (h₀ : Within A s₀ s) :
    Within A s₀ (State.shelfGone s die) := by
  unfold State.shelfGone
  repeat' first | with_reducible exact fun _ k => ⟨k.1, k.2.1, mzero_wf k.2.2 _ _⟩ | with_reducible exact fun _ k => k | (extract_lets +onlyGivenNames x; revert x; with_reducible first | apply Within.letS A s₀ | apply Within.letQ A s₀ | apply Within.letP A s₀ | apply Within.letV) | intro _ | with_reducible assumption | with_reducible apply State.setTile_within | with_reducible apply State.setHbm_within | with_reducible apply State.setRot_within | with_reducible apply_assumption

theorem State.shelfWipe_within {A : List Area} (a0 : Area.regs ∈ A) (a1 : Area.tile ∈ A) (a2 : Area.hbm ∈ A) (a3 : Area.rot ∈ A) {s₀ s : State} (die : Nat) (h₀ : Within A s₀ s) :
    Within A s₀ (State.shelfWipe s die) := by
  unfold State.shelfWipe
  repeat' first | with_reducible exact fun _ k => k | (extract_lets +onlyGivenNames x; revert x; with_reducible first | apply Within.letS A s₀ | apply Within.letQ A s₀ | apply Within.letP A s₀ | apply Within.letV) | intro _ | with_reducible assumption | with_reducible apply Within.ite | with_reducible apply State.shelfGone_within | with_reducible apply State.wr_within | with_reducible apply State.setTile_within | split | with_reducible apply_assumption

theorem execShelfWipe_within {A : List Area} (a0 : Area.regs ∈ A) (a1 : Area.tile ∈ A) (a2 : Area.hbm ∈ A) (a3 : Area.rot ∈ A) {s₀ s : State} (die : Nat) (h₀ : Within A s₀ s) :
    Out.within A s₀ (execShelfWipe die s) := by
  unfold execShelfWipe
  show Within A s₀ _
  repeat' first | with_reducible exact fun _ k => k | with_reducible assumption | with_reducible apply State.shelfWipe_within

theorem State.wipeDone_within {A : List Area} (a0 : Area.regs ∈ A) (a1 : Area.tile ∈ A) (a2 : Area.hbm ∈ A) (a3 : Area.rot ∈ A) {s₀ s : State} (die : Nat) (h₀ : Within A s₀ s) :
    Within A s₀ (State.wipeDone s die) := by
  unfold State.wipeDone
  repeat' first | with_reducible exact fun _ k => k | (extract_lets +onlyGivenNames x; revert x; with_reducible first | apply Within.letS A s₀ | apply Within.letQ A s₀ | apply Within.letP A s₀ | apply Within.letV) | intro _ | with_reducible assumption | with_reducible apply State.shelfGone_within | with_reducible apply State.wr_within | with_reducible apply State.bump_within | with_reducible apply_assumption

theorem execShelfWipeDone_within {A : List Area} (a0 : Area.regs ∈ A) (a1 : Area.tile ∈ A) (a2 : Area.hbm ∈ A) (a3 : Area.rot ∈ A) {s₀ s : State} (die : Nat) (h₀ : Within A s₀ s) :
    Out.within A s₀ (execShelfWipeDone die s) := by
  unfold execShelfWipeDone
  show Within A s₀ _
  repeat' first | with_reducible exact fun _ k => k | with_reducible assumption | with_reducible apply Within.ite | with_reducible apply State.wipeDone_within | split

theorem State.pghRetain_within {A : List Area} (a0 : Area.regs ∈ A) {s₀ s : State} (die : Nat) (h₀ : Within A s₀ s) :
    Within A s₀ (State.pghRetain s die) := by
  unfold State.pghRetain
  repeat' first | with_reducible assumption | with_reducible apply Within.ite | with_reducible apply State.wr_within | split

theorem execPghRetain_within {A : List Area} (a0 : Area.regs ∈ A) {s₀ s : State} (die : Nat) (h₀ : Within A s₀ s) :
    Out.within A s₀ (execPghRetain die s) := by
  unfold execPghRetain
  show Within A s₀ _
  repeat' first | with_reducible assumption | with_reducible apply State.pghRetain_within

theorem State.pghWake_within {A : List Area} (a0 : Area.regs ∈ A) {s₀ s : State} (die : Nat) (h₀ : Within A s₀ s) :
    Within A s₀ (State.pghWake s die) := by
  unfold State.pghWake
  repeat' first | with_reducible assumption | with_reducible apply Within.ite | with_reducible apply State.wr_within | split

theorem execPghWake_within {A : List Area} (a0 : Area.regs ∈ A) {s₀ s : State} (die : Nat) (h₀ : Within A s₀ s) :
    Out.within A s₀ (execPghWake die s) := by
  unfold execPghWake
  show Within A s₀ _
  repeat' first | with_reducible assumption | with_reducible apply State.pghWake_within

theorem execPghWakeDone_within {A : List Area} (a0 : Area.regs ∈ A) (a1 : Area.tile ∈ A) (a2 : Area.hbm ∈ A) (a3 : Area.rot ∈ A) {s₀ s : State} (die : Nat) (h₀ : Within A s₀ s) :
    Out.within A s₀ (execPghWakeDone die s) := by
  unfold execPghWakeDone
  show Within A s₀ _
  repeat' first | with_reducible exact fun _ k => k | (extract_lets +onlyGivenNames x; revert x; with_reducible first | apply Within.letS A s₀ | apply Within.letQ A s₀ | apply Within.letP A s₀ | apply Within.letV) | intro _ | with_reducible assumption | with_reducible apply Within.ite | with_reducible apply State.wr_within | with_reducible apply State.wipeDone_within | with_reducible apply State.setTile_within | split | with_reducible apply_assumption

theorem State.allocReg_within {A : List Area} (a0 : Area.regs ∈ A) {s₀ s : State} (die c v : Nat) (h₀ : Within A s₀ s) :
    Within A s₀ (State.allocReg s die c v) := by
  unfold State.allocReg
  repeat' first | (extract_lets +onlyGivenNames x; revert x; with_reducible first | apply Within.letS A s₀ | apply Within.letQ A s₀ | apply Within.letP A s₀ | apply Within.letV) | intro _ | with_reducible assumption | with_reducible apply Within.ite | with_reducible apply State.wr_within | split | with_reducible apply_assumption

theorem execPghAllocWrite_within {A : List Area} (a0 : Area.regs ∈ A) {s₀ s : State} (die ctx : Nat) (value : Word) (h₀ : Within A s₀ s) :
    Out.within A s₀ (execPghAllocWrite die ctx value s) := by
  unfold execPghAllocWrite
  show Within A s₀ _
  repeat' first | with_reducible assumption | with_reducible apply State.allocReg_within

theorem State.hostWrote_within {A : List Area} (a0 : Area.pair ∈ A) {s₀ s : State} (c o n : Nat) (h₀ : Within A s₀ s) :
    Within A s₀ (State.hostWrote s c o n) := by
  unfold State.hostWrote
  repeat' first | with_reducible exact fun _ k => k | intro _ | with_reducible assumption | with_reducible apply Within.foldl | with_reducible apply State.setPair_within

theorem State.pghWinRead_within {A : List Area} (a0 : Area.flt ∈ A) (a1 : Area.agFlt ∈ A) {s₀ s : State} (c n : Nat) (h₀ : Within A s₀ s) :
    Within A s₀ (State.pghWinRead s c n).2 := by
  unfold State.pghWinRead
  repeat' first | (extract_lets +onlyGivenNames x; revert x; with_reducible first | apply Within.letS A s₀ | apply Within.letQ A s₀ | apply Within.letP A s₀ | apply Within.letV) | intro _ | with_reducible assumption | with_reducible apply Within.ite | with_reducible apply State.detect_within | split | with_reducible apply_assumption

theorem State.pghWinWrite_within {A : List Area} (a0 : Area.tile ∈ A) (a1 : Area.flt ∈ A) (a2 : Area.agFlt ∈ A) (a3 : Area.pair ∈ A) {s₀ s : State} (c n v : Nat) (h₀ : Within A s₀ s) :
    Within A s₀ (State.pghWinWrite s c n v) := by
  unfold State.pghWinWrite
  repeat' first | with_reducible exact fun _ k => k | (extract_lets +onlyGivenNames x; revert x; with_reducible first | apply Within.letS A s₀ | apply Within.letQ A s₀ | apply Within.letP A s₀ | apply Within.letV) | intro _ | with_reducible assumption | with_reducible apply Within.ite | with_reducible apply State.detect_within | with_reducible apply State.allocWrite_within | with_reducible apply State.hostWrote_within | split | with_reducible apply_assumption

theorem execPghWinAccess_within {A : List Area} (a0 : Area.tile ∈ A) (a1 : Area.flt ∈ A) (a2 : Area.agFlt ∈ A) (a3 : Area.pair ∈ A) (a4 : Area.out ∈ A) {s₀ s : State} (ctx n : Nat) (value : Option Word) (h₀ : Within A s₀ s) :
    Out.within A s₀ (execPghWinAccess ctx n value s) := by
  unfold execPghWinAccess
  show Within A s₀ _
  repeat' first | with_reducible exact fun _ k => k | (extract_lets +onlyGivenNames x; revert x; with_reducible first | apply Within.letS A s₀ | apply Within.letQ A s₀ | apply Within.letP A s₀ | apply Within.letV) | intro _ | with_reducible assumption | with_reducible apply State.pghWinWrite_within | with_reducible apply State.pghWinRead_within | with_reducible apply State.emit_within | split | with_reducible apply_assumption

end Sys2Proof.Machine
end

