-- ==== Sys2Proof/Laws/HbmWithin.lean ====
section
/-! SUPPORT. The parts of the state that the definitions of Machine/Hbm.lean reach. -/

set_option linter.unreachableTactic false
set_option linter.unusedTactic false

namespace Sys2Proof.Machine

theorem execStackTrainAttempt_within {A : List Area} (a0 : Area.regs ∈ A) (a1 : Area.flt ∈ A) (a2 : Area.agFlt ∈ A) {s₀ s : State} (mdie stack : Nat) (ok : Bool) (timeMs failCh : Nat) (h₀ : Within A s₀ s) :
    Out.within A s₀ (execStackTrainAttempt mdie stack ok timeMs failCh s) := by
  unfold execStackTrainAttempt
  show Within A s₀ _
  repeat' first | (extract_lets +onlyGivenNames x; revert x; with_reducible first | apply Within.letS A s₀ | apply Within.letQ A s₀ | apply Within.letP A s₀ | apply Within.letV) | intro _ | with_reducible assumption | with_reducible apply Within.ite | with_reducible apply State.wr_within | with_reducible apply State.detect_within | split | with_reducible apply_assumption

theorem execStackErrorPoll_within {A : List Area} (a0 : Area.regs ∈ A) {s₀ s : State} (reports : List StackReport) (h₀ : Within A s₀ s) :
    Out.within A s₀ (execStackErrorPoll reports s) := by
  unfold execStackErrorPoll
  show Within A s₀ _
  repeat' first | intro _ | with_reducible assumption | with_reducible apply Within.ite | with_reducible apply Within.foldl | with_reducible apply State.bump_within | split

theorem State.stacksTo_within {A : List Area} (a0 : Area.regs ∈ A) {s₀ s : State} (st : Nat) (h₀ : Within A s₀ s) :
    Within A s₀ (State.stacksTo s st) := by
  unfold State.stacksTo
  repeat' first | (extract_lets +onlyGivenNames x; revert x; with_reducible first | apply Within.letS A s₀ | apply Within.letQ A s₀ | apply Within.letP A s₀ | apply Within.letV) | intro _ | with_reducible assumption | with_reducible apply Within.ite | with_reducible apply Within.foldl | with_reducible apply Within.foldlPair | with_reducible apply State.wr_within | split | with_reducible apply_assumption

theorem execSelfRefreshEntry_within {A : List Area} (a0 : Area.regs ∈ A) {s₀ s : State}  (h₀ : Within A s₀ s) :
    Out.within A s₀ (execSelfRefreshEntry s) := by
  unfold execSelfRefreshEntry
  show Within A s₀ _
  repeat' first | with_reducible assumption | with_reducible apply Within.ite | with_reducible apply State.pghRetain_within | with_reducible apply State.stacksTo_within | split

theorem State.replayFailure_within {A : List Area} (a0 : Area.regs ∈ A) (a1 : Area.flt ∈ A) (a2 : Area.agFlt ∈ A) {s₀ s : State} (c : Nat) (h₀ : Within A s₀ s) :
    Within A s₀ (State.replayFailure s c) := by
  unfold State.replayFailure
  repeat' first | (extract_lets +onlyGivenNames x; revert x; with_reducible first | apply Within.letS A s₀ | apply Within.letQ A s₀ | apply Within.letP A s₀ | apply Within.letV) | intro _ | with_reducible assumption | with_reducible apply State.bump_within | with_reducible apply State.wr_within | with_reducible apply State.detect_within | with_reducible apply_assumption

theorem State.tagReader_within {A : List Area} (a0 : Area.regs ∈ A) (a1 : Area.ttbs ∈ A) (a2 : Area.insts ∈ A) (a3 : Area.hbm ∈ A) (a4 : Area.flt ∈ A) (a5 : Area.agFlt ∈ A) (a6 : Area.rst ∈ A) {s₀ s : State} (m sector : Nat) (r : TagReader) (h₀ : Within A s₀ s) :
    Within A s₀ (State.tagReader s m sector r) := by
  unfold State.tagReader
  repeat' first | with_reducible exact fun _ k => k | (extract_lets +onlyGivenNames x; revert x; with_reducible first | apply Within.letS A s₀ | apply Within.letQ A s₀ | apply Within.letP A s₀ | apply Within.letF A s₀ | apply Within.letK A s₀ | apply Within.letG A s₀ | apply Within.letF1x A s₀ | apply Within.letH A s₀ | apply Within.letV) | intro _ | with_reducible assumption | with_reducible apply Within.ite | with_reducible apply State.bump_within | with_reducible apply State.nmuFails_within | with_reducible apply State.instError_within | with_reducible apply State.replayFailure_within | with_reducible apply State.setHbm_within | with_reducible apply State.detect_within | with_reducible apply State.setRst_within | split | with_reducible apply_assumption

theorem State.tagFail_within {A : List Area} (a0 : Area.regs ∈ A) (a1 : Area.ttbs ∈ A) (a2 : Area.insts ∈ A) (a3 : Area.hbm ∈ A) (a4 : Area.flt ∈ A) (a5 : Area.agFlt ∈ A) (a6 : Area.rst ∈ A) {s₀ s : State} (m sector : Nat) (r : TagReader) (h₀ : Within A s₀ s) :
    Within A s₀ (State.tagFail s m sector r) := by
  unfold State.tagFail
  repeat' first | with_reducible exact fun _ k => k | with_reducible assumption | with_reducible apply State.sectorFails_within | with_reducible apply State.tagReader_within

theorem execSectorTagFail_within {A : List Area} (a0 : Area.regs ∈ A) (a1 : Area.ttbs ∈ A) (a2 : Area.insts ∈ A) (a3 : Area.hbm ∈ A) (a4 : Area.flt ∈ A) (a5 : Area.agFlt ∈ A) (a6 : Area.rst ∈ A) {s₀ s : State} (mdie sector : Nat) (secondOk : Bool) (reader : TagReader) (h₀ : Within A s₀ s) :
    Out.within A s₀ (execSectorTagFail mdie sector secondOk reader s) := by
  unfold execSectorTagFail
  show Within A s₀ _
  repeat' first | with_reducible exact fun _ k => k | with_reducible assumption | with_reducible apply Within.ite | with_reducible apply State.bump_within | with_reducible apply State.detect_within | with_reducible apply State.tagFail_within | split

theorem State.showVault_within {A : List Area} (a0 : Area.regs ∈ A) {s₀ s : State} (c : Nat) (h₀ : Within A s₀ s) :
    Within A s₀ (State.showVault s c) := by
  unfold State.showVault
  repeat' first | (extract_lets +onlyGivenNames x; revert x; with_reducible first | apply Within.letS A s₀ | apply Within.letQ A s₀ | apply Within.letP A s₀ | apply Within.letV) | intro _ | with_reducible assumption | with_reducible apply Within.ite | with_reducible apply State.wr_within | split | with_reducible apply_assumption

theorem State.vaultCount_within {A : List Area} (a0 : Area.hbm ∈ A) {s₀ s : State} (c n : Nat) (h₀ : Within A s₀ s) :
    Within A s₀ (State.vaultCount s c n) := by
  unfold State.vaultCount
  repeat' first | with_reducible exact fun _ k => k | (extract_lets +onlyGivenNames x; revert x; with_reducible first | apply Within.letS A s₀ | apply Within.letQ A s₀ | apply Within.letP A s₀ | apply Within.letV) | intro _ | with_reducible assumption | with_reducible apply Within.foldl | with_reducible apply State.setHbm_within | with_reducible apply_assumption

theorem State.regionReg_within {A : List Area} (a0 : Area.regs ∈ A) (a1 : Area.hbm ∈ A) {s₀ s : State} (c k v : Nat) (h₀ : Within A s₀ s) :
    Within A s₀ (State.regionReg s c k v) := by
  unfold State.regionReg
  repeat' first | with_reducible exact fun _ k => k | (extract_lets +onlyGivenNames x; revert x; with_reducible first | apply Within.letS A s₀ | apply Within.letQ A s₀ | apply Within.letP A s₀ | apply Within.letV) | intro _ | with_reducible assumption | with_reducible apply Within.ite | with_reducible apply State.wr_within | with_reducible apply State.setHbm_within | with_reducible apply State.showVault_within | split | with_reducible apply_assumption

theorem execVltRegWrite_within {A : List Area} (a0 : Area.regs ∈ A) (a1 : Area.hbm ∈ A) {s₀ s : State} (ctx k : Nat) (value : Word) (h₀ : Within A s₀ s) :
    Out.within A s₀ (execVltRegWrite ctx k value s) := by
  unfold execVltRegWrite
  show Within A s₀ _
  repeat' first | with_reducible exact fun _ k => k | with_reducible assumption | with_reducible apply Within.ite | with_reducible apply State.regionReg_within | split

theorem State.fillRegion_within {A : List Area} (a0 : Area.hbm ∈ A) {s₀ s : State} (c k : Nat) (h₀ : Within A s₀ s) :
    Within A s₀ (State.fillRegion s c k) := by
  unfold State.fillRegion
  repeat' first | with_reducible exact fun _ k => filter_wf k _ | with_reducible exact fun _ k => k | (extract_lets +onlyGivenNames x; revert x; with_reducible first | apply Within.letS A s₀ | apply Within.letQ A s₀ | apply Within.letP A s₀ | apply Within.letV) | intro _ | with_reducible assumption | with_reducible apply Within.ite | with_reducible apply State.setHbm_within | split | with_reducible apply_assumption

theorem State.fillGo_within {A : List Area} (a0 : Area.regs ∈ A) {s₀ s : State} (c : Nat) (h₀ : Within A s₀ s) :
    Within A s₀ (State.fillGo s c) := by
  unfold State.fillGo
  repeat' first | (extract_lets +onlyGivenNames x; revert x; with_reducible first | apply Within.letS A s₀ | apply Within.letQ A s₀ | apply Within.letP A s₀ | apply Within.letV) | intro _ | with_reducible assumption | with_reducible apply Within.ite | with_reducible apply State.wr_within | split | with_reducible apply_assumption

theorem execVltFillGo_within {A : List Area} (a0 : Area.regs ∈ A) {s₀ s : State} (ctx : Nat) (h₀ : Within A s₀ s) :
    Out.within A s₀ (execVltFillGo ctx s) := by
  unfold execVltFillGo
  show Within A s₀ _
  repeat' first | with_reducible assumption | with_reducible apply State.fillGo_within

theorem execVltFillDone_within {A : List Area} (a0 : Area.regs ∈ A) (a1 : Area.hbm ∈ A) {s₀ s : State} (ctx : Nat) (h₀ : Within A s₀ s) :
    Out.within A s₀ (execVltFillDone ctx s) := by
  unfold execVltFillDone
  show Within A s₀ _
  repeat' first | with_reducible exact fun _ k => k | (extract_lets +onlyGivenNames x; revert x; with_reducible first | apply Within.letS A s₀ | apply Within.letQ A s₀ | apply Within.letP A s₀ | apply Within.letV) | intro _ | with_reducible assumption | with_reducible apply Within.ite | with_reducible apply Within.foldl | with_reducible apply State.fillRegion_within | with_reducible apply State.wr_within | split | with_reducible apply_assumption

theorem State.resetProducts_within {A : List Area} (a0 : Area.regs ∈ A) {s₀ s : State} (c : Nat) (h₀ : Within A s₀ s) :
    Within A s₀ (State.resetProducts s c) := by
  unfold State.resetProducts
  repeat' first | intro _ | with_reducible assumption | with_reducible apply Within.foldl | with_reducible apply State.wr_within

theorem State.resetMap_within {A : List Area} (a0 : Area.hbm ∈ A) {s₀ s : State} (c : Nat) (h₀ : Within A s₀ s) :
    Within A s₀ (State.resetMap s c) := by
  unfold State.resetMap
  repeat' first | with_reducible exact fun _ k => k | intro _ | with_reducible assumption | with_reducible apply State.setHbm_within

theorem State.unsplit_within {A : List Area} (a0 : Area.ttbs ∈ A) (a1 : Area.ctxs ∈ A) {s₀ s : State} (c : Nat) (h₀ : Within A s₀ s) :
    Within A s₀ (State.unsplit s c) := by
  unfold State.unsplit
  repeat' first | intro _ | with_reducible assumption | with_reducible apply State.setCtx_within | with_reducible apply State.setTtb_within

theorem State.optLayout_within {A : List Area} (a0 : Area.regs ∈ A) (a1 : Area.ttbs ∈ A) (a2 : Area.hbm ∈ A) (a3 : Area.ctxs ∈ A) {s₀ s : State} (c v : Nat) (h₀ : Within A s₀ s) :
    Within A s₀ (State.optLayout s c v) := by
  unfold State.optLayout
  repeat' first | with_reducible exact fun _ k => k | (extract_lets +onlyGivenNames x; revert x; with_reducible first | apply Within.letS A s₀ | apply Within.letQ A s₀ | apply Within.letP A s₀ | apply Within.letV) | intro _ | with_reducible assumption | with_reducible apply Within.ite | with_reducible apply State.wr_within | with_reducible apply State.resetMap_within | with_reducible apply State.resetProducts_within | with_reducible apply State.unsplit_within | split | with_reducible apply_assumption

theorem execVltOptlayoutWrite_within {A : List Area} (a0 : Area.regs ∈ A) (a1 : Area.ttbs ∈ A) (a2 : Area.hbm ∈ A) (a3 : Area.ctxs ∈ A) {s₀ s : State} (ctx : Nat) (value : Word) (h₀ : Within A s₀ s) :
    Out.within A s₀ (execVltOptlayoutWrite ctx value s) := by
  unfold execVltOptlayoutWrite
  show Within A s₀ _
  repeat' first | with_reducible exact fun _ k => k | with_reducible assumption | with_reducible apply Within.ite | with_reducible apply State.optLayout_within | split

theorem State.optSet_within {A : List Area} (a0 : Area.regs ∈ A) {s₀ s : State} (c k reg v : Nat) (h₀ : Within A s₀ s) :
    Within A s₀ (State.optSet s c k reg v) := by
  unfold State.optSet
  repeat' first | (extract_lets +onlyGivenNames x; revert x; with_reducible first | apply Within.letS A s₀ | apply Within.letQ A s₀ | apply Within.letP A s₀ | apply Within.letV) | intro _ | with_reducible assumption | with_reducible apply Within.ite | with_reducible apply State.wr_within | split | with_reducible apply_assumption

theorem execVltOptSetWrite_within {A : List Area} (a0 : Area.regs ∈ A) {s₀ s : State} (ctx set reg : Nat) (value : Word) (h₀ : Within A s₀ s) :
    Out.within A s₀ (execVltOptSetWrite ctx set reg value s) := by
  unfold execVltOptSetWrite
  show Within A s₀ _
  repeat' first | with_reducible assumption | with_reducible apply Within.ite | with_reducible apply State.optSet_within | split

theorem State.vltWinRead_within {A : List Area} (a0 : Area.regs ∈ A) (a1 : Area.ttbs ∈ A) (a2 : Area.insts ∈ A) (a3 : Area.hbm ∈ A) (a4 : Area.flt ∈ A) (a5 : Area.agFlt ∈ A) (a6 : Area.rst ∈ A) {s₀ s : State} (c n : Nat) (h₀ : Within A s₀ s) :
    Within A s₀ (State.vltWinRead s c n).2.2 := by
  unfold State.vltWinRead
  repeat' first | with_reducible exact fun _ k => k | (extract_lets +onlyGivenNames x; revert x; with_reducible first | apply Within.letS A s₀ | apply Within.letQ A s₀ | apply Within.letP A s₀ | apply Within.letV) | intro _ | with_reducible assumption | with_reducible apply Within.ite | with_reducible apply State.bump_within | with_reducible apply State.tagFail_within | split | with_reducible apply_assumption

theorem State.vltWinWrite_within {A : List Area} (a0 : Area.regs ∈ A) (a1 : Area.ttbs ∈ A) (a2 : Area.insts ∈ A) (a3 : Area.hbm ∈ A) (a4 : Area.flt ∈ A) (a5 : Area.agFlt ∈ A) (a6 : Area.rst ∈ A) {s₀ s : State} (c n v : Nat) (h₀ : Within A s₀ s) :
    Within A s₀ (State.vltWinWrite s c n v).2 := by
  unfold State.vltWinWrite
  repeat' first | with_reducible exact fun _ k => k | (extract_lets +onlyGivenNames x; revert x; with_reducible first | apply Within.letS A s₀ | apply Within.letQ A s₀ | apply Within.letP A s₀ | apply Within.letV) | intro _ | with_reducible assumption | with_reducible apply Within.ite | with_reducible apply Within.foldl | with_reducible apply Within.foldlPair | with_reducible apply State.hbmPut_within | with_reducible apply State.tagFail_within | split | with_reducible apply_assumption

theorem execVltWinAccess_within {A : List Area} (a0 : Area.regs ∈ A) (a1 : Area.ttbs ∈ A) (a2 : Area.insts ∈ A) (a3 : Area.hbm ∈ A) (a4 : Area.flt ∈ A) (a5 : Area.agFlt ∈ A) (a6 : Area.rst ∈ A) (a7 : Area.out ∈ A) {s₀ s : State} (ctx n : Nat) (value : Option Word) (h₀ : Within A s₀ s) :
    Out.within A s₀ (execVltWinAccess ctx n value s) := by
  unfold execVltWinAccess
  show Within A s₀ _
  repeat' first | with_reducible exact fun _ k => k | (extract_lets +onlyGivenNames x; revert x; with_reducible first | apply Within.letS A s₀ | apply Within.letQ A s₀ | apply Within.letP A s₀ | apply Within.letV) | intro _ | with_reducible assumption | with_reducible apply State.vltWinWrite_within | with_reducible apply State.vltWinRead_within | with_reducible apply State.emit_within | split | with_reducible apply_assumption

end Sys2Proof.Machine
end

