-- ==== Sys2Proof/Laws/SessWithin.lean ====
section
/-! SUPPORT. The parts of the state that the definitions of Machine/Sess.lean reach. -/

set_option linter.unreachableTactic false
set_option linter.unusedTactic false

namespace Sys2Proof.Machine

theorem State.setSess_within {A : List Area} (a0 : Area.beyjo ∈ A) {s₀ s : State} (i : Nat) (f : Sess → Sess) (h₀ : Within A s₀ s) :
    Within A s₀ (State.setSess s i f) := by
  unfold State.setSess
  repeat' first | intro _ | with_reducible assumption | with_reducible apply Within.ite | with_reducible apply State.setBeyjo_within | split

theorem State.showSess_within {A : List Area} (a0 : Area.regs ∈ A) {s₀ s : State}  (h₀ : Within A s₀ s) :
    Within A s₀ (State.showSess s) := by
  unfold State.showSess
  repeat' first | intro _ | with_reducible assumption | with_reducible apply State.wr_within

theorem State.slotPut_within {A : List Area} (a0 : Area.tile ∈ A) {s₀ s : State} (i n w v : Nat) (h₀ : Within A s₀ s) :
    Within A s₀ (State.slotPut s i n w v) := by
  unfold State.slotPut
  repeat' first | with_reducible exact fun _ k => k | with_reducible assumption | with_reducible apply State.syncPut_within

theorem State.clearSlots_within {A : List Area} (a0 : Area.regs ∈ A) (a1 : Area.tile ∈ A) {s₀ s : State} (i : Nat) (h₀ : Within A s₀ s) :
    Within A s₀ (State.clearSlots s i) := by
  unfold State.clearSlots
  repeat' first | with_reducible exact fun _ k => k | (extract_lets +onlyGivenNames x; revert x; with_reducible first | apply Within.letS A s₀ | apply Within.letQ A s₀ | apply Within.letP A s₀ | apply Within.letV) | intro _ | with_reducible assumption | with_reducible apply State.setTile_within | with_reducible apply State.wr_within | with_reducible apply_assumption

theorem State.mailEnd_within {A : List Area} (a0 : Area.regs ∈ A) (a1 : Area.tile ∈ A) (a2 : Area.beyjo ∈ A) {s₀ s : State} (i n : Nat) (ok : Bool) (res : Nat) (words : List Nat) (h₀ : Within A s₀ s) :
    Within A s₀ (State.mailEnd s i n ok res words) := by
  unfold State.mailEnd
  repeat' first | with_reducible exact fun _ k => k | (extract_lets +onlyGivenNames x; revert x; with_reducible first | apply Within.letS A s₀ | apply Within.letQ A s₀ | apply Within.letP A s₀ | apply Within.letV) | intro _ | with_reducible assumption | with_reducible apply Within.ite | with_reducible apply Within.foldl | with_reducible apply Within.foldlPair | with_reducible apply State.bump_within | with_reducible apply State.setBeyjo_within | with_reducible apply State.slotPut_within | with_reducible apply State.wr_within | with_reducible apply State.notifyMail_within | split | with_reducible apply_assumption

theorem State.mailOk_within {A : List Area} (a0 : Area.regs ∈ A) (a1 : Area.tile ∈ A) (a2 : Area.beyjo ∈ A) {s₀ s : State} (i n : Nat) (words : List Nat) (h₀ : Within A s₀ s) :
    Within A s₀ (State.mailOk s i n words) := by
  unfold State.mailOk
  repeat' first | with_reducible exact fun _ k => k | with_reducible assumption | with_reducible apply State.mailEnd_within

theorem State.mailReject_within {A : List Area} (a0 : Area.regs ∈ A) (a1 : Area.tile ∈ A) (a2 : Area.beyjo ∈ A) {s₀ s : State} (i n res : Nat) (words : List Nat) (h₀ : Within A s₀ s) :
    Within A s₀ (State.mailReject s i n res words) := by
  unfold State.mailReject
  repeat' first | with_reducible exact fun _ k => k | with_reducible assumption | with_reducible apply State.mailEnd_within

theorem State.mailRuns_within {A : List Area} (a0 : Area.beyjo ∈ A) {s₀ s : State} (i n code : Nat) (h₀ : Within A s₀ s) :
    Within A s₀ (State.mailRuns s i n code) := by
  unfold State.mailRuns
  repeat' first | intro _ | with_reducible assumption | with_reducible apply State.setBeyjo_within

theorem State.orphanMail_within {A : List Area} (a0 : Area.beyjo ∈ A) (a1 : Area.rst ∈ A) (a2 : Area.pair ∈ A) {s₀ s : State} (i : Nat) (h₀ : Within A s₀ s) :
    Within A s₀ (State.orphanMail s i) := by
  unfold State.orphanMail
  repeat' first | with_reducible exact fun _ k => k | (extract_lets +onlyGivenNames x; revert x; with_reducible first | apply Within.letS A s₀ | apply Within.letQ A s₀ | apply Within.letP A s₀ | apply Within.letF A s₀ | apply Within.letK A s₀ | apply Within.letG A s₀ | apply Within.letF1x A s₀ | apply Within.letH A s₀ | apply Within.letV) | intro _ | with_reducible assumption | with_reducible apply Within.ite | with_reducible apply State.setBeyjo_within | with_reducible apply State.setRst_within | with_reducible apply State.setPair_within | split | with_reducible apply_assumption

theorem State.closeSess_within {A : List Area} (a0 : Area.regs ∈ A) (a1 : Area.tile ∈ A) (a2 : Area.beyjo ∈ A) (a3 : Area.rst ∈ A) (a4 : Area.pair ∈ A) {s₀ s : State} (i : Nat) (h₀ : Within A s₀ s) :
    Within A s₀ (State.closeSess s i) := by
  unfold State.closeSess
  repeat' first | with_reducible exact fun _ k => k | (extract_lets +onlyGivenNames x; revert x; with_reducible first | apply Within.letS A s₀ | apply Within.letQ A s₀ | apply Within.letP A s₀ | apply Within.letV) | intro _ | with_reducible assumption | with_reducible apply State.setBeyjo_within | with_reducible apply State.orphanMail_within | with_reducible apply State.clearSlots_within | with_reducible apply State.showSess_within | split | with_reducible apply_assumption

theorem State.closeWhere_within {A : List Area} (a0 : Area.regs ∈ A) (a1 : Area.tile ∈ A) (a2 : Area.beyjo ∈ A) (a3 : Area.rst ∈ A) (a4 : Area.pair ∈ A) {s₀ s : State} (p : Sess → Bool) (h₀ : Within A s₀ s) :
    Within A s₀ (State.closeWhere s p) := by
  unfold State.closeWhere
  repeat' first | with_reducible exact fun _ k => k | intro _ | with_reducible assumption | with_reducible apply Within.foldl | with_reducible apply State.closeSess_within

theorem State.dropCreds_within {A : List Area} (a0 : Area.beyjo ∈ A) {s₀ s : State} (p : Cred → Bool) (h₀ : Within A s₀ s) :
    Within A s₀ (State.dropCreds s p) := by
  unfold State.dropCreds
  repeat' first | intro _ | with_reducible assumption | with_reducible apply State.setBeyjo_within

theorem State.withdrawCak_within {A : List Area} (a0 : Area.regs ∈ A) (a1 : Area.tile ∈ A) (a2 : Area.rot ∈ A) (a3 : Area.beyjo ∈ A) (a4 : Area.rst ∈ A) (a5 : Area.pair ∈ A) {s₀ s : State}  (h₀ : Within A s₀ s) :
    Within A s₀ (State.withdrawCak s) := by
  unfold State.withdrawCak
  repeat' first | with_reducible exact fun _ k => k | (extract_lets +onlyGivenNames x; revert x; with_reducible first | apply Within.letS A s₀ | apply Within.letQ A s₀ | apply Within.letP A s₀ | apply Within.letV) | intro _ | with_reducible assumption | with_reducible apply State.wr_within | with_reducible apply State.setBeyjo_within | with_reducible apply State.setRot_within | with_reducible apply State.closeWhere_within | with_reducible apply_assumption

end Sys2Proof.Machine
end

