-- ==== Sys2Proof/Laws/TrustWithin.lean ====
section
/-! SUPPORT. The parts of the state that the definitions of Machine/Trust.lean reach. -/

set_option linter.unreachableTactic false
set_option linter.unusedTactic false

namespace Sys2Proof.Machine

theorem State.spdmErr_within {A : List Area} (a0 : Area.regs ∈ A) (a1 : Area.out ∈ A) {s₀ s : State} (sess code err : Nat) (h₀ : Within A s₀ s) :
    Within A s₀ (State.spdmErr s sess code err) := by
  unfold State.spdmErr
  repeat' first | with_reducible assumption | with_reducible apply State.frame_within | with_reducible apply State.bump_within

theorem State.spdmReply_within {A : List Area} (a0 : Area.regs ∈ A) (a1 : Area.rot ∈ A) (a2 : Area.out ∈ A) {s₀ s : State} (sess code : Nat) (words : List Nat) (h₀ : Within A s₀ s) :
    Within A s₀ (State.spdmReply s sess code words) := by
  unfold State.spdmReply
  repeat' first | (extract_lets +onlyGivenNames x; revert x; with_reducible first | apply Within.letS A s₀ | apply Within.letQ A s₀ | apply Within.letP A s₀ | apply Within.letF A s₀ | apply Within.letK A s₀ | apply Within.letG A s₀ | apply Within.letF1x A s₀ | apply Within.letH A s₀ | apply Within.letV) | intro _ | with_reducible assumption | with_reducible apply Within.ite | with_reducible apply State.frame_within | with_reducible apply State.setRot_within | with_reducible apply State.bump_within | split | with_reducible apply_assumption

theorem State.setSpdm_within {A : List Area} (a0 : Area.rot ∈ A) {s₀ s : State} (id : Nat) (f : SpdmSess → SpdmSess) (h₀ : Within A s₀ s) :
    Within A s₀ (State.setSpdm s id f) := by
  unfold State.setSpdm
  repeat' first | intro _ | with_reducible assumption | with_reducible apply Within.ite | with_reducible apply State.setRot_within | split

theorem State.showRot_within {A : List Area} (a0 : Area.regs ∈ A) {s₀ s : State}  (h₀ : Within A s₀ s) :
    Within A s₀ (State.showRot s) := by
  unfold State.showRot
  repeat' first | with_reducible assumption | with_reducible apply State.wr_within

theorem State.inSpdm_within {A : List Area} (a0 : Area.regs ∈ A) (a1 : Area.out ∈ A) {s₀ s : State} (sess code : Nat) (f : State → State) (hf : ∀ u, Within A s₀ u → Within A s₀ (f u)) (h₀ : Within A s₀ s) :
    Within A s₀ (State.inSpdm s sess code f) := by
  unfold State.inSpdm
  repeat' first | intro _ | with_reducible assumption | with_reducible apply Within.ite | with_reducible apply State.spdmErr_within | split | with_reducible apply_assumption

theorem State.askSign_within {A : List Area} (a0 : Area.regs ∈ A) (a1 : Area.rot ∈ A) (a2 : Area.out ∈ A) {s₀ s : State} (sess code : Nat) (content : List Nat) (h₀ : Within A s₀ s) :
    Within A s₀ (State.askSign s sess code content) := by
  unfold State.askSign
  repeat' first | intro _ | with_reducible assumption | with_reducible apply Within.ite | with_reducible apply State.spdmErr_within | with_reducible apply State.setRot_within | with_reducible apply State.wr_within | with_reducible apply State.showRot_within | split

theorem State.endAdmission_within {A : List Area} (a0 : Area.regs ∈ A) (a1 : Area.tile ∈ A) (a2 : Area.rot ∈ A) (a3 : Area.beyjo ∈ A) (a4 : Area.rst ∈ A) (a5 : Area.pair ∈ A) {s₀ s : State}  (h₀ : Within A s₀ s) :
    Within A s₀ (State.endAdmission s) := by
  unfold State.endAdmission
  repeat' first | with_reducible exact fun _ k => k | intro _ | with_reducible assumption | with_reducible apply State.setRot_within | with_reducible apply State.wr_within | with_reducible apply State.dropCreds_within | with_reducible apply State.withdrawCak_within

theorem State.endSpdm_within {A : List Area} (a0 : Area.regs ∈ A) (a1 : Area.tile ∈ A) (a2 : Area.rot ∈ A) (a3 : Area.beyjo ∈ A) (a4 : Area.rst ∈ A) (a5 : Area.pair ∈ A) {s₀ s : State} (id : Nat) (h₀ : Within A s₀ s) :
    Within A s₀ (State.endSpdm s id) := by
  unfold State.endSpdm
  repeat' first | with_reducible exact fun _ k => k | (extract_lets +onlyGivenNames x; revert x; with_reducible first | apply Within.letS A s₀ | apply Within.letQ A s₀ | apply Within.letP A s₀ | apply Within.letV) | intro _ | with_reducible assumption | with_reducible apply Within.ite | with_reducible apply State.setRot_within | with_reducible apply State.dropCreds_within | with_reducible apply State.closeWhere_within | with_reducible apply State.endAdmission_within | with_reducible apply State.showRot_within | split | with_reducible apply_assumption

theorem State.endAllSpdm_within {A : List Area} (a0 : Area.regs ∈ A) (a1 : Area.tile ∈ A) (a2 : Area.rot ∈ A) (a3 : Area.beyjo ∈ A) (a4 : Area.rst ∈ A) (a5 : Area.pair ∈ A) {s₀ s : State}  (h₀ : Within A s₀ s) :
    Within A s₀ (State.endAllSpdm s) := by
  unfold State.endAllSpdm
  repeat' first | with_reducible exact fun _ k => k | intro _ | with_reducible assumption | with_reducible apply Within.foldl | with_reducible apply State.endSpdm_within

theorem State.vendor_within {A : List Area} (a0 : Area.regs ∈ A) (a1 : Area.rot ∈ A) (a2 : Area.out ∈ A) {s₀ s : State} (sess cmd status : Nat) (rest : List Nat) (h₀ : Within A s₀ s) :
    Within A s₀ (State.vendor s sess cmd status rest) := by
  unfold State.vendor
  repeat' first | with_reducible assumption | with_reducible apply State.spdmReply_within

theorem State.vendorNo_within {A : List Area} (a0 : Area.regs ∈ A) (a1 : Area.rot ∈ A) (a2 : Area.out ∈ A) {s₀ s : State} (sess cmd c status : Nat) (h₀ : Within A s₀ s) :
    Within A s₀ (State.vendorNo s sess cmd c status) := by
  unfold State.vendorNo
  repeat' first | with_reducible assumption | with_reducible apply State.bump_within | with_reducible apply State.wr_within | with_reducible apply State.vendor_within

theorem State.pairStore_within {A : List Area} (a0 : Area.regs ∈ A) (a1 : Area.tile ∈ A) (a2 : Area.hbm ∈ A) (a3 : Area.rot ∈ A) {s₀ s : State} (q : KeyReq) (owner : Nat) (h₀ : Within A s₀ s) :
    Within A s₀ (State.pairStore s q owner) := by
  unfold State.pairStore
  repeat' first | with_reducible exact fun _ k => k | (extract_lets +onlyGivenNames x; revert x; with_reducible first | apply Within.letS A s₀ | apply Within.letQ A s₀ | apply Within.letP A s₀ | apply Within.letV) | intro _ | with_reducible assumption | with_reducible apply Within.ite | with_reducible apply State.wipeDone_within | with_reducible apply State.setTile_within | with_reducible apply State.setRot_within | split | with_reducible apply_assumption

theorem State.keyWait_within {A : List Area} (a0 : Area.rot ∈ A) {s₀ s : State} (w : WaitCmd) (h₀ : Within A s₀ s) :
    Within A s₀ (State.keyWait s w) := by
  unfold State.keyWait
  repeat' first | intro _ | with_reducible assumption | with_reducible apply State.setRot_within

theorem State.keyRelease_within {A : List Area} (a0 : Area.regs ∈ A) (a1 : Area.rot ∈ A) (a2 : Area.pair ∈ A) (a3 : Area.out ∈ A) {s₀ s : State} (sess : Nat) (q : KeyReq) (h₀ : Within A s₀ s) :
    Within A s₀ (State.keyRelease s sess q) := by
  unfold State.keyRelease
  repeat' first | with_reducible exact fun _ k => k | (extract_lets +onlyGivenNames x; revert x; with_reducible first | apply Within.letS A s₀ | apply Within.letQ A s₀ | apply Within.letP A s₀ | apply Within.letV) | intro _ | with_reducible assumption | with_reducible apply Within.ite | with_reducible apply State.vendorNo_within | with_reducible apply State.keyWait_within | with_reducible apply State.setRot_within | with_reducible apply State.bump_within | with_reducible apply State.dueGen_within | with_reducible apply State.vendor_within | split | with_reducible apply_assumption

theorem State.setEp_within {A : List Area} (a0 : Area.rot ∈ A) {s₀ s : State} (c lid code keys beat : Nat) (h₀ : Within A s₀ s) :
    Within A s₀ (State.setEp s c lid code keys beat) := by
  unfold State.setEp
  repeat' first | intro _ | with_reducible assumption | with_reducible apply State.setRot_within

theorem State.answerDelivers_within {A : List Area} (a0 : Area.regs ∈ A) (a1 : Area.rot ∈ A) (a2 : Area.out ∈ A) {s₀ s : State}  (h₀ : Within A s₀ s) :
    Within A s₀ (State.answerDelivers s) := by
  unfold State.answerDelivers
  repeat' first | (extract_lets +onlyGivenNames x; revert x; with_reducible first | apply Within.letS A s₀ | apply Within.letQ A s₀ | apply Within.letP A s₀ | apply Within.letF A s₀ | apply Within.letK A s₀ | apply Within.letG A s₀ | apply Within.letF1x A s₀ | apply Within.letH A s₀ | apply Within.letV) | intro _ | with_reducible assumption | with_reducible apply Within.foldl | with_reducible apply Within.foldlPair | with_reducible apply State.setRot_within | with_reducible apply State.vendor_within | with_reducible apply_assumption

theorem State.deliveryEnd_within {A : List Area} (a0 : Area.regs ∈ A) (a1 : Area.rot ∈ A) (a2 : Area.beyjo ∈ A) (a3 : Area.out ∈ A) {s₀ s : State} (c k lid code : Nat) (auto : Bool) (h₀ : Within A s₀ s) :
    Within A s₀ (State.deliveryEnd s c k lid code auto) := by
  unfold State.deliveryEnd
  repeat' first | (extract_lets +onlyGivenNames x; revert x; with_reducible first | apply Within.letS A s₀ | apply Within.letQ A s₀ | apply Within.letP A s₀ | apply Within.letV) | intro _ | with_reducible assumption | with_reducible apply Within.ite | with_reducible apply State.setEp_within | with_reducible apply State.bump_within | with_reducible apply State.setRot_within | with_reducible apply State.notifyKey_within | with_reducible apply State.answerDelivers_within | split | with_reducible apply_assumption

theorem State.sendMessage_within {A : List Area} (a0 : Area.regs ∈ A) (a1 : Area.aregs ∈ A) (a2 : Area.ports ∈ A) (a3 : Area.agPorts ∈ A) (a4 : Area.flt ∈ A) (a5 : Area.agFlt ∈ A) (a6 : Area.out ∈ A) {s₀ s : State} (d : Site) (dst vc type seq : Nat) (bs : List Byte) (h₀ : Within A s₀ s) :
    Within A s₀ (State.sendMessage s d dst vc type seq bs) := by
  unfold State.sendMessage
  repeat' first | (extract_lets +onlyGivenNames x; revert x; with_reducible first | apply Within.letS A s₀ | apply Within.letQ A s₀ | apply Within.letP A s₀ | apply Within.letV) | intro _ | with_reducible assumption | with_reducible apply Within.ite | with_reducible apply Within.foldl | with_reducible apply State.send_within | with_reducible apply State.drop_within | split | with_reducible apply_assumption

theorem State.sendWrap_within {A : List Area} (a0 : Area.regs ∈ A) (a1 : Area.aregs ∈ A) (a2 : Area.ports ∈ A) (a3 : Area.agPorts ∈ A) (a4 : Area.route ∈ A) (a5 : Area.rot ∈ A) (a6 : Area.flt ∈ A) (a7 : Area.agFlt ∈ A) (a8 : Area.out ∈ A) (a9 : Area.freeCtr ∈ A) {s₀ s : State} (c k lid fid nonce : Nat) (ek : List Byte) (revoke auto : Bool) (h₀ : Within A s₀ s) :
    Within A s₀ (State.sendWrap s c k lid fid nonce ek revoke auto) := by
  unfold State.sendWrap
  repeat' first | (extract_lets +onlyGivenNames x; revert x; with_reducible first | apply Within.letS A s₀ | apply Within.letQ A s₀ | apply Within.letP A s₀ | apply Within.letF A s₀ | apply Within.letK A s₀ | apply Within.letG A s₀ | apply Within.letF1x A s₀ | apply Within.letH A s₀ | apply Within.letV) | intro _ | with_reducible assumption | with_reducible apply Within.ite | with_reducible apply State.free_within | with_reducible apply State.setRot_within | with_reducible apply State.sendMessage_within | with_reducible apply State.mreq_within | split | with_reducible apply_assumption

theorem State.revoke_within {A : List Area} (a0 : Area.regs ∈ A) (a1 : Area.aregs ∈ A) (a2 : Area.ports ∈ A) (a3 : Area.agPorts ∈ A) (a4 : Area.route ∈ A) (a5 : Area.rot ∈ A) (a6 : Area.flt ∈ A) (a7 : Area.agFlt ∈ A) (a8 : Area.out ∈ A) (a9 : Area.freeCtr ∈ A) {s₀ s : State} (c k : Nat) (h₀ : Within A s₀ s) :
    Within A s₀ (State.revoke s c k) := by
  unfold State.revoke
  repeat' first | (extract_lets +onlyGivenNames x; revert x; with_reducible first | apply Within.letS A s₀ | apply Within.letQ A s₀ | apply Within.letP A s₀ | apply Within.letF A s₀ | apply Within.letK A s₀ | apply Within.letG A s₀ | apply Within.letF1x A s₀ | apply Within.letH A s₀ | apply Within.letV) | intro _ | with_reducible assumption | with_reducible apply Within.foldl | with_reducible apply Within.foldlPair | with_reducible apply State.free_within | with_reducible apply State.sendWrap_within | split | with_reducible apply_assumption

theorem State.drawNonce_within {A : List Area} (a0 : Area.freeCtr ∈ A) {s₀ s : State}  (h₀ : Within A s₀ s) :
    Within A s₀ (State.drawNonce s).2 := by
  unfold State.drawNonce
  repeat' first | with_reducible assumption | with_reducible apply State.free_within

theorem State.requestEvidence_within {A : List Area} (a0 : Area.regs ∈ A) (a1 : Area.aregs ∈ A) (a2 : Area.ports ∈ A) (a3 : Area.agPorts ∈ A) (a4 : Area.route ∈ A) (a5 : Area.flt ∈ A) (a6 : Area.agFlt ∈ A) (a7 : Area.out ∈ A) {s₀ s : State} (fid nonce : Nat) (h₀ : Within A s₀ s) :
    Within A s₀ (State.requestEvidence s fid nonce) := by
  unfold State.requestEvidence
  repeat' first | intro _ | with_reducible assumption | with_reducible apply State.remoteWrite_within

theorem State.beginEvidence_within {A : List Area} (a0 : Area.regs ∈ A) (a1 : Area.aregs ∈ A) (a2 : Area.ports ∈ A) (a3 : Area.agPorts ∈ A) (a4 : Area.route ∈ A) (a5 : Area.rot ∈ A) (a6 : Area.beyjo ∈ A) (a7 : Area.flt ∈ A) (a8 : Area.agFlt ∈ A) (a9 : Area.out ∈ A) (a10 : Area.freeCtr ∈ A) {s₀ s : State} (c k lid : Nat) (auto : Bool) (h₀ : Within A s₀ s) :
    Within A s₀ (State.beginEvidence s c k lid auto) := by
  unfold State.beginEvidence
  repeat' first | (extract_lets +onlyGivenNames x; revert x; with_reducible first | apply Within.letS A s₀ | apply Within.letQ A s₀ | apply Within.letP A s₀ | apply Within.letF A s₀ | apply Within.letK A s₀ | apply Within.letG A s₀ | apply Within.letF1x A s₀ | apply Within.letH A s₀ | apply Within.letV) | intro _ | with_reducible assumption | with_reducible apply Within.ite | with_reducible apply State.startMode_within | with_reducible apply State.deliveryEnd_within | with_reducible apply State.drawNonce_within | with_reducible apply State.setRot_within | with_reducible apply State.requestEvidence_within | split | with_reducible apply_assumption

theorem State.pumpDeliver_within {A : List Area} (a0 : Area.regs ∈ A) (a1 : Area.aregs ∈ A) (a2 : Area.ports ∈ A) (a3 : Area.agPorts ∈ A) (a4 : Area.route ∈ A) (a5 : Area.rot ∈ A) (a6 : Area.beyjo ∈ A) (a7 : Area.flt ∈ A) (a8 : Area.agFlt ∈ A) (a9 : Area.out ∈ A) (a10 : Area.freeCtr ∈ A) {s₀ s : State}  (n : Nat) (h₀ : Within A s₀ s) :
    Within A s₀ (State.pumpDeliver s n) := by
  induction n generalizing s with
  | zero =>
    rw [State.pumpDeliver]
    repeat' first | intro _ | with_reducible assumption | with_reducible apply Within.ite | with_reducible apply State.setRot_within | with_reducible apply State.beginEvidence_within | split
  | succ i ih =>
    rw [State.pumpDeliver]
    repeat' first | intro _ | with_reducible assumption | with_reducible apply ih | with_reducible apply Within.ite | with_reducible apply State.setRot_within | with_reducible apply State.beginEvidence_within | split

theorem State.queueDeliver_within {A : List Area} (a0 : Area.regs ∈ A) (a1 : Area.aregs ∈ A) (a2 : Area.ports ∈ A) (a3 : Area.agPorts ∈ A) (a4 : Area.route ∈ A) (a5 : Area.rot ∈ A) (a6 : Area.beyjo ∈ A) (a7 : Area.flt ∈ A) (a8 : Area.agFlt ∈ A) (a9 : Area.out ∈ A) (a10 : Area.freeCtr ∈ A) {s₀ s : State} (l : List (Nat × Nat × Nat × Bool)) (h₀ : Within A s₀ s) :
    Within A s₀ (State.queueDeliver s l) := by
  unfold State.queueDeliver
  repeat' first | intro _ | with_reducible assumption | with_reducible apply State.setRot_within | with_reducible apply State.pumpDeliver_within

theorem State.keyDeliver_within {A : List Area} (a0 : Area.regs ∈ A) (a1 : Area.aregs ∈ A) (a2 : Area.ports ∈ A) (a3 : Area.agPorts ∈ A) (a4 : Area.route ∈ A) (a5 : Area.rot ∈ A) (a6 : Area.beyjo ∈ A) (a7 : Area.flt ∈ A) (a8 : Area.agFlt ∈ A) (a9 : Area.out ∈ A) (a10 : Area.freeCtr ∈ A) {s₀ s : State} (sess c k first count : Nat) (h₀ : Within A s₀ s) :
    Within A s₀ (State.keyDeliver s sess c k first count) := by
  unfold State.keyDeliver
  repeat' first | (extract_lets +onlyGivenNames x; revert x; with_reducible first | apply Within.letS A s₀ | apply Within.letQ A s₀ | apply Within.letP A s₀ | apply Within.letV) | intro _ | with_reducible assumption | with_reducible apply Within.ite | with_reducible apply State.vendorNo_within | with_reducible apply State.keyWait_within | with_reducible apply State.deliver_within | with_reducible apply State.setRot_within | with_reducible apply State.queueDeliver_within | with_reducible apply State.answerDelivers_within | split | with_reducible apply_assumption

theorem State.redeliver_within {A : List Area} (a0 : Area.regs ∈ A) (a1 : Area.aregs ∈ A) (a2 : Area.ports ∈ A) (a3 : Area.agPorts ∈ A) (a4 : Area.route ∈ A) (a5 : Area.rot ∈ A) (a6 : Area.beyjo ∈ A) (a7 : Area.flt ∈ A) (a8 : Area.agFlt ∈ A) (a9 : Area.out ∈ A) (a10 : Area.freeCtr ∈ A) {s₀ s : State} (c lid : Nat) (h₀ : Within A s₀ s) :
    Within A s₀ (State.redeliver s c lid) := by
  unfold State.redeliver
  repeat' first | (extract_lets +onlyGivenNames x; revert x; with_reducible first | apply Within.letS A s₀ | apply Within.letQ A s₀ | apply Within.letP A s₀ | apply Within.letV) | intro _ | with_reducible assumption | with_reducible apply State.queueDeliver_within | with_reducible apply_assumption

theorem State.dropEvidence_within {A : List Area} (a0 : Area.rot ∈ A) {s₀ s : State} (e : EvReq) (h₀ : Within A s₀ s) :
    Within A s₀ (State.dropEvidence s e) := by
  unfold State.dropEvidence
  repeat' first | intro _ | with_reducible assumption | with_reducible apply State.setRot_within

theorem State.failEvidence_within {A : List Area} (a0 : Area.regs ∈ A) (a1 : Area.aregs ∈ A) (a2 : Area.ports ∈ A) (a3 : Area.agPorts ∈ A) (a4 : Area.route ∈ A) (a5 : Area.rot ∈ A) (a6 : Area.beyjo ∈ A) (a7 : Area.flt ∈ A) (a8 : Area.agFlt ∈ A) (a9 : Area.out ∈ A) (a10 : Area.freeCtr ∈ A) {s₀ s : State} (e : EvReq) (code : Nat) (h₀ : Within A s₀ s) :
    Within A s₀ (State.failEvidence s e code) := by
  unfold State.failEvidence
  repeat' first | (extract_lets +onlyGivenNames x; revert x; with_reducible first | apply Within.letS A s₀ | apply Within.letQ A s₀ | apply Within.letP A s₀ | apply Within.letV) | intro _ | with_reducible assumption | with_reducible apply State.dropEvidence_within | with_reducible apply State.deliveryEnd_within | with_reducible apply State.pumpDeliver_within | with_reducible apply_assumption

theorem State.judge_within {A : List Area} (a0 : Area.regs ∈ A) (a1 : Area.aregs ∈ A) (a2 : Area.ports ∈ A) (a3 : Area.agPorts ∈ A) (a4 : Area.route ∈ A) (a5 : Area.rot ∈ A) (a6 : Area.beyjo ∈ A) (a7 : Area.flt ∈ A) (a8 : Area.agFlt ∈ A) (a9 : Area.out ∈ A) (a10 : Area.freeCtr ∈ A) {s₀ s : State} (e : EvReq) (nonce : Nat) (ev : Evidence) (ch : AgentChain) (h₀ : Within A s₀ s) :
    Within A s₀ (State.judge s e nonce ev ch).2 := by
  unfold State.judge
  repeat' first | (extract_lets +onlyGivenNames x; revert x; with_reducible first | apply Within.letS A s₀ | apply Within.letQ A s₀ | apply Within.letP A s₀ | apply Within.letV) | intro _ | with_reducible assumption | with_reducible apply Within.ite | with_reducible apply State.bump_within | with_reducible apply State.failEvidence_within | with_reducible apply State.dropEvidence_within | with_reducible apply State.sendWrap_within | with_reducible apply State.pumpDeliver_within | with_reducible apply State.setRot_within | split | with_reducible apply_assumption

theorem State.keyStatus_within {A : List Area} (a0 : Area.regs ∈ A) (a1 : Area.aregs ∈ A) (a2 : Area.ports ∈ A) (a3 : Area.agPorts ∈ A) (a4 : Area.route ∈ A) (a5 : Area.rot ∈ A) (a6 : Area.beyjo ∈ A) (a7 : Area.flt ∈ A) (a8 : Area.agFlt ∈ A) (a9 : Area.out ∈ A) {s₀ s : State} (fid w : Nat) (h₀ : Within A s₀ s) :
    Within A s₀ (State.keyStatus s fid w) := by
  unfold State.keyStatus
  repeat' first | (extract_lets +onlyGivenNames x; revert x; with_reducible first | apply Within.letS A s₀ | apply Within.letQ A s₀ | apply Within.letP A s₀ | apply Within.letF A s₀ | apply Within.letK A s₀ | apply Within.letG A s₀ | apply Within.letF1x A s₀ | apply Within.letH A s₀ | apply Within.letV) | intro _ | with_reducible assumption | with_reducible apply Within.ite | with_reducible apply Within.foldl | with_reducible apply State.setRot_within | with_reducible apply State.revoke_within | with_reducible apply State.mreq_within | with_reducible apply State.setEp_within | with_reducible apply State.deliveryEnd_within | split | with_reducible apply_assumption

theorem State.eraseRecords_within {A : List Area} (a0 : Area.regs ∈ A) (a1 : Area.rot ∈ A) (a2 : Area.out ∈ A) {s₀ s : State} (c : Nat) (h₀ : Within A s₀ s) :
    Within A s₀ (State.eraseRecords s c) := by
  unfold State.eraseRecords
  repeat' first | intro _ | with_reducible assumption | with_reducible apply State.setRot_within | with_reducible apply State.answerDelivers_within

theorem State.vaultImport_within {A : List Area} (a0 : Area.regs ∈ A) (a1 : Area.rot ∈ A) (a2 : Area.flt ∈ A) (a3 : Area.agFlt ∈ A) (a4 : Area.out ∈ A) {s₀ s : State} (sess : Nat) (q : ImportReq) (h₀ : Within A s₀ s) :
    Within A s₀ (State.vaultImport s sess q) := by
  unfold State.vaultImport
  repeat' first | (extract_lets +onlyGivenNames x; revert x; with_reducible first | apply Within.letS A s₀ | apply Within.letQ A s₀ | apply Within.letP A s₀ | apply Within.letV) | intro _ | with_reducible assumption | with_reducible apply Within.ite | with_reducible apply State.vendorNo_within | with_reducible apply State.keyWait_within | with_reducible apply State.replayFailure_within | with_reducible apply State.setRot_within | split | with_reducible apply_assumption

theorem State.runWaiting_within {A : List Area} (a0 : Area.regs ∈ A) (a1 : Area.aregs ∈ A) (a2 : Area.ports ∈ A) (a3 : Area.agPorts ∈ A) (a4 : Area.route ∈ A) (a5 : Area.rot ∈ A) (a6 : Area.beyjo ∈ A) (a7 : Area.flt ∈ A) (a8 : Area.agFlt ∈ A) (a9 : Area.pair ∈ A) (a10 : Area.out ∈ A) (a11 : Area.freeCtr ∈ A) {s₀ s : State}  (h₀ : Within A s₀ s) :
    Within A s₀ (State.runWaiting s) := by
  unfold State.runWaiting
  repeat' first | with_reducible exact fun _ k => k | intro _ | with_reducible assumption | with_reducible apply Within.foldl | with_reducible apply State.keyRelease_within | with_reducible apply State.vaultImport_within | with_reducible apply State.deliver_within | with_reducible apply State.keyDeliver_within | with_reducible apply State.setRot_within | split

theorem State.importCopy_within {A : List Area} (a0 : Area.regs ∈ A) (a1 : Area.hbm ∈ A) {s₀ s : State} (q : ImportReq) (n : Nat) (h₀ : Within A s₀ s) :
    Within A s₀ (State.importCopy s q n) := by
  unfold State.importCopy
  repeat' first | with_reducible exact fun _ k => k | (extract_lets +onlyGivenNames x; revert x; with_reducible first | apply Within.letS A s₀ | apply Within.letQ A s₀ | apply Within.letP A s₀ | apply Within.letV) | intro _ | with_reducible assumption | with_reducible apply Within.foldl | with_reducible apply State.regionWrite_within | with_reducible apply State.vaultCount_within | with_reducible apply_assumption

theorem State.importPlain_within {A : List Area} (a0 : Area.tile ∈ A) {s₀ s : State} (q : ImportReq) (r : KeyRec) (o k : Nat) (h₀ : Within A s₀ s) :
    Within A s₀ (State.importPlain s q r o k) := by
  unfold State.importPlain
  repeat' first | with_reducible exact fun _ k => k | (extract_lets +onlyGivenNames x; revert x; with_reducible first | apply Within.letS A s₀ | apply Within.letQ A s₀ | apply Within.letP A s₀ | apply Within.letV) | intro _ | with_reducible assumption | with_reducible apply Within.foldl | with_reducible apply State.allocWrite_within | with_reducible apply_assumption

theorem State.importEnd_within {A : List Area} (a0 : Area.regs ∈ A) (a1 : Area.aregs ∈ A) (a2 : Area.ports ∈ A) (a3 : Area.agPorts ∈ A) (a4 : Area.route ∈ A) (a5 : Area.tile ∈ A) (a6 : Area.hbm ∈ A) (a7 : Area.rot ∈ A) (a8 : Area.beyjo ∈ A) (a9 : Area.flt ∈ A) (a10 : Area.agFlt ∈ A) (a11 : Area.pair ∈ A) (a12 : Area.out ∈ A) (a13 : Area.freeCtr ∈ A) {s₀ s : State}  (h₀ : Within A s₀ s) :
    Within A s₀ (State.importEnd s) := by
  unfold State.importEnd
  repeat' first | with_reducible exact fun _ k => k | (extract_lets +onlyGivenNames x; revert x; with_reducible first | apply Within.letS A s₀ | apply Within.letQ A s₀ | apply Within.letP A s₀ | apply Within.letV) | intro _ | with_reducible assumption | with_reducible apply Within.ite | with_reducible apply State.setRot_within | with_reducible apply State.importCopy_within | with_reducible apply State.importPlain_within | with_reducible apply State.dueGen_within | with_reducible apply State.vendor_within | with_reducible apply State.bump_within | with_reducible apply State.wr_within | with_reducible apply State.runWaiting_within | split | with_reducible apply_assumption

theorem State.newAk_within {A : List Area} (a0 : Area.regs ∈ A) (a1 : Area.rot ∈ A) {s₀ s : State}  (h₀ : Within A s₀ s) :
    Within A s₀ (State.newAk s) := by
  unfold State.newAk
  repeat' first | intro _ | with_reducible assumption | with_reducible apply State.setRot_within | with_reducible apply State.wr_within

theorem State.hbmLost_within {A : List Area} (a0 : Area.rst ∈ A) (a1 : Area.pair ∈ A) {s₀ s : State}  (h₀ : Within A s₀ s) :
    Within A s₀ (State.hbmLost s) := by
  unfold State.hbmLost
  repeat' first | exact fun _ _ => rfl | with_reducible exact fun _ k => k | intro _ | with_reducible assumption | with_reducible apply Within.ite | with_reducible apply State.setPair_within | with_reducible apply State.setRst_within | split

theorem State.newHbmRoot_within {A : List Area} (a0 : Area.rot ∈ A) (a1 : Area.rst ∈ A) (a2 : Area.pair ∈ A) (a3 : Area.freeCtr ∈ A) {s₀ s : State}  (h₀ : Within A s₀ s) :
    Within A s₀ (State.newHbmRoot s) := by
  unfold State.newHbmRoot
  repeat' first | with_reducible exact fun _ k => k | (extract_lets +onlyGivenNames x; revert x; with_reducible first | apply Within.letS A s₀ | apply Within.letQ A s₀ | apply Within.letP A s₀ | apply Within.letF A s₀ | apply Within.letK A s₀ | apply Within.letG A s₀ | apply Within.letF1x A s₀ | apply Within.letH A s₀ | apply Within.letV) | intro _ | with_reducible assumption | with_reducible apply Within.ite | with_reducible apply State.free_within | with_reducible apply State.setRot_within | with_reducible apply State.hbmLost_within | split | with_reducible apply_assumption

theorem State.measure_within {A : List Area} (a0 : Area.regs ∈ A) (a1 : Area.rot ∈ A) {s₀ s : State} (i d : Nat) (h₀ : Within A s₀ s) :
    Within A s₀ (State.measure s i d) := by
  unfold State.measure
  repeat' first | (extract_lets +onlyGivenNames x; revert x; with_reducible first | apply Within.letS A s₀ | apply Within.letQ A s₀ | apply Within.letP A s₀ | apply Within.letV) | intro _ | with_reducible assumption | with_reducible apply Within.ite | with_reducible apply State.measured_within | with_reducible apply State.setRot_within | with_reducible apply State.newAk_within | split | with_reducible apply_assumption

theorem State.guardBad_within {A : List Area} (a0 : Area.regs ∈ A) (a1 : Area.flt ∈ A) (a2 : Area.agFlt ∈ A) {s₀ s : State} (die : Nat) (h₀ : Within A s₀ s) :
    Within A s₀ (State.guardBad s die) := by
  unfold State.guardBad
  repeat' first | with_reducible assumption | with_reducible apply State.wr_within | with_reducible apply State.detect_within

theorem State.reloadKeys_within {A : List Area} (a0 : Area.rot ∈ A) {s₀ s : State}  (h₀ : Within A s₀ s) :
    Within A s₀ (State.reloadKeys s) := by
  unfold State.reloadKeys
  repeat' first | intro _ | with_reducible assumption | with_reducible apply State.setRot_within

theorem State.guardReport_within {A : List Area} (a0 : Area.regs ∈ A) (a1 : Area.aregs ∈ A) (a2 : Area.ports ∈ A) (a3 : Area.agPorts ∈ A) (a4 : Area.route ∈ A) (a5 : Area.rot ∈ A) (a6 : Area.beyjo ∈ A) (a7 : Area.flt ∈ A) (a8 : Area.agFlt ∈ A) (a9 : Area.pair ∈ A) (a10 : Area.out ∈ A) (a11 : Area.freeCtr ∈ A) {s₀ s : State} (die fw : Nat) (h₀ : Within A s₀ s) :
    Within A s₀ (State.guardReport s die fw) := by
  unfold State.guardReport
  repeat' first | with_reducible exact fun _ k => k | (extract_lets +onlyGivenNames x; revert x; with_reducible first | apply Within.letS A s₀ | apply Within.letQ A s₀ | apply Within.letP A s₀ | apply Within.letV) | intro _ | with_reducible assumption | with_reducible apply Within.ite | with_reducible apply State.measured_within | with_reducible apply State.setRot_within | with_reducible apply State.wr_within | with_reducible apply State.guardBad_within | with_reducible apply State.measure_within | with_reducible apply State.reloadKeys_within | with_reducible apply State.runWaiting_within | split | with_reducible apply_assumption

theorem State.wipeShelves_within {A : List Area} (a0 : Area.regs ∈ A) (a1 : Area.tile ∈ A) (a2 : Area.hbm ∈ A) (a3 : Area.rot ∈ A) {s₀ s : State}  (h₀ : Within A s₀ s) :
    Within A s₀ (State.wipeShelves s) := by
  unfold State.wipeShelves
  repeat' first | with_reducible exact fun _ k => k | intro _ | with_reducible assumption | with_reducible apply Within.foldl | with_reducible apply State.shelfWipe_within

theorem State.dropSecrets_within {A : List Area} (a0 : Area.regs ∈ A) (a1 : Area.tile ∈ A) (a2 : Area.rot ∈ A) (a3 : Area.beyjo ∈ A) (a4 : Area.rst ∈ A) (a5 : Area.pair ∈ A) {s₀ s : State}  (h₀ : Within A s₀ s) :
    Within A s₀ (State.dropSecrets s) := by
  unfold State.dropSecrets
  repeat' first | with_reducible exact fun _ k => k | intro _ | with_reducible assumption | with_reducible apply State.endAllSpdm_within | with_reducible apply State.dropCreds_within | with_reducible apply State.setRot_within

theorem State.tamper_within {A : List Area} (a0 : Area.regs ∈ A) (a1 : Area.tile ∈ A) (a2 : Area.hbm ∈ A) (a3 : Area.rot ∈ A) (a4 : Area.beyjo ∈ A) (a5 : Area.rst ∈ A) (a6 : Area.pair ∈ A) {s₀ s : State} (cause : Nat) (injected : Bool) (h₀ : Within A s₀ s) :
    Within A s₀ (State.tamper s cause injected) := by
  unfold State.tamper
  repeat' first | with_reducible exact fun _ k => k | (extract_lets +onlyGivenNames x; revert x; with_reducible first | apply Within.letS A s₀ | apply Within.letQ A s₀ | apply Within.letP A s₀ | apply Within.letV) | intro _ | with_reducible assumption | with_reducible apply Within.ite | with_reducible apply State.wipeShelves_within | with_reducible apply State.dropSecrets_within | with_reducible apply State.setRot_within | with_reducible apply State.wr_within | with_reducible apply State.bump_within | split | with_reducible apply_assumption

theorem State.lcsErr_within {A : List Area} (a0 : Area.regs ∈ A) {s₀ s : State} (e : Nat) (h₀ : Within A s₀ s) :
    Within A s₀ (State.lcsErr s e) := by
  unfold State.lcsErr
  repeat' first | with_reducible assumption | with_reducible apply State.wr_within

theorem State.lcsTo_within {A : List Area} (a0 : Area.regs ∈ A) (a1 : Area.tile ∈ A) (a2 : Area.hbm ∈ A) (a3 : Area.rot ∈ A) (a4 : Area.beyjo ∈ A) (a5 : Area.rst ∈ A) (a6 : Area.pair ∈ A) {s₀ s : State} (st : Nat) (h₀ : Within A s₀ s) :
    Within A s₀ (State.lcsTo s st) := by
  unfold State.lcsTo
  repeat' first | with_reducible exact fun _ k => k | (extract_lets +onlyGivenNames x; revert x; with_reducible first | apply Within.letS A s₀ | apply Within.letQ A s₀ | apply Within.letP A s₀ | apply Within.letV) | intro _ | with_reducible assumption | with_reducible apply State.wr_within | with_reducible apply State.wipeShelves_within | with_reducible apply State.dropSecrets_within | with_reducible apply State.hbmLost_within | with_reducible apply State.closeWhere_within | with_reducible apply_assumption

end Sys2Proof.Machine
end

