-- ==== Sys2Proof/Laws/CtxWithin.lean ====
section
/-! SUPPORT. The parts of the state that the definitions of Machine/Ctx.lean reach. -/

set_option linter.unreachableTactic false
set_option linter.unusedTactic false

namespace Sys2Proof.Machine

theorem State.assignFail_within {A : List Area} (a0 : Area.regs ∈ A) (a1 : Area.beyjo ∈ A) {s₀ s : State} (c : Nat) (e : Nat × Nat) (h₀ : Within A s₀ s) :
    Within A s₀ (State.assignFail s c e) := by
  unfold State.assignFail
  repeat' first | with_reducible assumption | with_reducible apply State.wr_within | with_reducible apply State.notifyCtx_within

theorem State.ctxAssign_within {A : List Area} (a0 : Area.regs ∈ A) (a1 : Area.aregs ∈ A) (a2 : Area.ports ∈ A) (a3 : Area.agPorts ∈ A) (a4 : Area.route ∈ A) (a5 : Area.ttbs ∈ A) (a6 : Area.ctxs ∈ A) (a7 : Area.beyjo ∈ A) (a8 : Area.flt ∈ A) (a9 : Area.agFlt ∈ A) (a10 : Area.pair ∈ A) (a11 : Area.out ∈ A) {s₀ s : State} (c : Nat) (h₀ : Within A s₀ s) :
    Within A s₀ (State.ctxAssign s c) := by
  unfold State.ctxAssign
  repeat' first | with_reducible exact fun _ k => k | (extract_lets +onlyGivenNames x; revert x; with_reducible first | apply Within.letS A s₀ | apply Within.letQ A s₀ | apply Within.letP A s₀ | apply Within.letV) | intro _ | with_reducible assumption | with_reducible apply Within.ite | with_reducible apply State.assignFail_within | with_reducible apply State.wr_within | with_reducible apply State.setCtx_within | with_reducible apply State.dueGen_within | with_reducible apply State.requestFlip_within | split | with_reducible apply_assumption

theorem execCtxAssign_within {A : List Area} (a0 : Area.regs ∈ A) (a1 : Area.aregs ∈ A) (a2 : Area.ports ∈ A) (a3 : Area.agPorts ∈ A) (a4 : Area.route ∈ A) (a5 : Area.ttbs ∈ A) (a6 : Area.ctxs ∈ A) (a7 : Area.beyjo ∈ A) (a8 : Area.flt ∈ A) (a9 : Area.agFlt ∈ A) (a10 : Area.pair ∈ A) (a11 : Area.out ∈ A) {s₀ s : State} (ctx : Nat) (h₀ : Within A s₀ s) :
    Out.within A s₀ (execCtxAssign ctx s) := by
  unfold execCtxAssign
  show Within A s₀ _
  repeat' first | with_reducible exact fun _ k => k | with_reducible assumption | with_reducible apply State.ctxAssign_within

theorem State.releaseFlip_within {A : List Area} (a0 : Area.regs ∈ A) (a1 : Area.aregs ∈ A) (a2 : Area.ports ∈ A) (a3 : Area.agPorts ∈ A) (a4 : Area.route ∈ A) (a5 : Area.ttbs ∈ A) (a6 : Area.rot ∈ A) (a7 : Area.beyjo ∈ A) (a8 : Area.flt ∈ A) (a9 : Area.agFlt ∈ A) (a10 : Area.pair ∈ A) (a11 : Area.out ∈ A) (a12 : Area.freeCtr ∈ A) {s₀ s : State} (c : Nat) (h₀ : Within A s₀ s) :
    Within A s₀ (State.releaseFlip s c) := by
  unfold State.releaseFlip
  repeat' first | with_reducible exact fun _ k => k | intro _ | with_reducible assumption | with_reducible apply Within.foldl | with_reducible apply State.revoke_within | with_reducible apply State.requestFlip_within

theorem State.ctxRelease_within {A : List Area} (a0 : Area.regs ∈ A) (a1 : Area.aregs ∈ A) (a2 : Area.ports ∈ A) (a3 : Area.agPorts ∈ A) (a4 : Area.route ∈ A) (a5 : Area.ttbs ∈ A) (a6 : Area.tile ∈ A) (a7 : Area.ctxs ∈ A) (a8 : Area.rot ∈ A) (a9 : Area.beyjo ∈ A) (a10 : Area.flt ∈ A) (a11 : Area.agFlt ∈ A) (a12 : Area.rst ∈ A) (a13 : Area.pair ∈ A) (a14 : Area.out ∈ A) (a15 : Area.freeCtr ∈ A) {s₀ s : State} (c : Nat) (h₀ : Within A s₀ s) :
    Within A s₀ (State.ctxRelease s c) := by
  unfold State.ctxRelease
  repeat' first | with_reducible exact fun _ k => k | (extract_lets +onlyGivenNames x; revert x; with_reducible first | apply Within.letS A s₀ | apply Within.letQ A s₀ | apply Within.letP A s₀ | apply Within.letV) | intro _ | with_reducible assumption | with_reducible apply Within.ite | with_reducible apply Within.foldl | with_reducible apply Within.foldlPair | with_reducible apply State.wr_within | with_reducible apply State.setCtx_within | with_reducible apply State.setRst_within | with_reducible apply State.mailReject_within | with_reducible apply State.closeWhere_within | with_reducible apply State.dueGen_within | with_reducible apply State.setTtb_within | with_reducible apply State.releaseFlip_within | split | with_reducible apply_assumption

theorem execCtxRelease_within {A : List Area} (a0 : Area.regs ∈ A) (a1 : Area.aregs ∈ A) (a2 : Area.ports ∈ A) (a3 : Area.agPorts ∈ A) (a4 : Area.route ∈ A) (a5 : Area.ttbs ∈ A) (a6 : Area.tile ∈ A) (a7 : Area.ctxs ∈ A) (a8 : Area.rot ∈ A) (a9 : Area.beyjo ∈ A) (a10 : Area.flt ∈ A) (a11 : Area.agFlt ∈ A) (a12 : Area.rst ∈ A) (a13 : Area.pair ∈ A) (a14 : Area.out ∈ A) (a15 : Area.freeCtr ∈ A) {s₀ s : State} (ctx : Nat) (h₀ : Within A s₀ s) :
    Out.within A s₀ (execCtxRelease ctx s) := by
  unfold execCtxRelease
  show Within A s₀ _
  repeat' first | with_reducible exact fun _ k => k | with_reducible assumption | with_reducible apply State.ctxRelease_within

theorem State.releaseTtb_within {A : List Area} (a0 : Area.regs ∈ A) (a1 : Area.aregs ∈ A) (a2 : Area.ports ∈ A) (a3 : Area.agPorts ∈ A) (a4 : Area.route ∈ A) (a5 : Area.ttbs ∈ A) (a6 : Area.insts ∈ A) (a7 : Area.tile ∈ A) (a8 : Area.hbm ∈ A) (a9 : Area.flt ∈ A) (a10 : Area.agFlt ∈ A) (a11 : Area.out ∈ A) {s₀ s : State} (c : Nat) (h₀ : Within A s₀ s) :
    Within A s₀ (State.releaseTtb s c) := by
  unfold State.releaseTtb
  repeat' first | with_reducible exact fun _ k => k | (extract_lets +onlyGivenNames x; revert x; with_reducible first | apply Within.letS A s₀ | apply Within.letQ A s₀ | apply Within.letP A s₀ | apply Within.letV) | intro _ | with_reducible assumption | with_reducible apply Within.ite | with_reducible apply State.disarmMembers_within | with_reducible apply State.dropSteps_within | with_reducible apply State.showOpen_within | with_reducible apply State.setTtb_within | with_reducible apply State.wr_within | with_reducible apply State.ttbTo_within | split | with_reducible apply Within.insts | with_reducible apply_assumption

theorem execReleaseDrained_within {A : List Area} (a0 : Area.regs ∈ A) (a1 : Area.aregs ∈ A) (a2 : Area.ports ∈ A) (a3 : Area.agPorts ∈ A) (a4 : Area.route ∈ A) (a5 : Area.ttbs ∈ A) (a6 : Area.insts ∈ A) (a7 : Area.tile ∈ A) (a8 : Area.hbm ∈ A) (a9 : Area.ctxs ∈ A) (a10 : Area.rot ∈ A) (a11 : Area.beyjo ∈ A) (a12 : Area.flt ∈ A) (a13 : Area.agFlt ∈ A) (a14 : Area.pair ∈ A) (a15 : Area.out ∈ A) (a16 : Area.freeCtr ∈ A) {s₀ s : State} (ctx : Nat) (h₀ : Within A s₀ s) :
    Out.within A s₀ (execReleaseDrained ctx s) := by
  unfold execReleaseDrained
  show Within A s₀ _
  repeat' first | with_reducible exact fun _ k => k | intro _ | with_reducible assumption | with_reducible apply Within.ite | with_reducible apply State.releaseTtb_within | with_reducible apply State.setCtx_within | with_reducible apply State.releaseFlip_within | split

theorem State.scrubPgh_within {A : List Area} (a0 : Area.tile ∈ A) {s₀ s : State} (c : Nat) (h₀ : Within A s₀ s) :
    Within A s₀ (State.scrubPgh s c) := by
  unfold State.scrubPgh
  repeat' first | with_reducible exact fun _ k => ⟨k.1, k.2.1, mzero_wf (mzero_wf k.2.2 _ _) _ _⟩ | with_reducible exact fun _ k => k | (extract_lets +onlyGivenNames x; revert x; with_reducible first | apply Within.letS A s₀ | apply Within.letQ A s₀ | apply Within.letP A s₀ | apply Within.letF A s₀ | apply Within.letK A s₀ | apply Within.letG A s₀ | apply Within.letF1x A s₀ | apply Within.letH A s₀ | apply Within.letV) | intro _ | with_reducible assumption | with_reducible apply State.setTile_within | with_reducible apply_assumption

theorem State.setRel_within {A : List Area} (a0 : Area.ctxs ∈ A) {s₀ s : State} (c : Nat) (f : RelSt → RelSt) (h₀ : Within A s₀ s) :
    Within A s₀ (State.setRel s c f) := by
  unfold State.setRel
  repeat' first | intro _ | with_reducible assumption | with_reducible apply Within.ite | with_reducible apply State.setCtx_within | split

theorem execReleaseScrubDone_within {A : List Area} (a0 : Area.regs ∈ A) (a1 : Area.ttbs ∈ A) (a2 : Area.tile ∈ A) (a3 : Area.ctxs ∈ A) {s₀ s : State} (ctx ns : Nat) (h₀ : Within A s₀ s) :
    Out.within A s₀ (execReleaseScrubDone ctx ns s) := by
  unfold execReleaseScrubDone
  show Within A s₀ _
  repeat' first | with_reducible exact fun _ k => k | intro _ | with_reducible assumption | with_reducible apply Within.ite | with_reducible apply State.scrubPgh_within | with_reducible apply State.wr_within | with_reducible apply State.setRel_within | with_reducible apply State.releaseStep7_within | split

theorem State.cryptoErase_within {A : List Area} (a0 : Area.regs ∈ A) (a1 : Area.hbm ∈ A) (a2 : Area.rot ∈ A) (a3 : Area.out ∈ A) {s₀ s : State} (c : Nat) (h₀ : Within A s₀ s) :
    Within A s₀ (State.cryptoErase s c) := by
  unfold State.cryptoErase
  repeat' first | with_reducible exact fun _ k => k | (extract_lets +onlyGivenNames x; revert x; with_reducible first | apply Within.letS A s₀ | apply Within.letQ A s₀ | apply Within.letP A s₀ | apply Within.letV) | intro _ | with_reducible assumption | with_reducible apply Within.ite | with_reducible apply Within.foldl | with_reducible apply State.bump_within | with_reducible apply State.wr_within | with_reducible apply State.eraseRecords_within | with_reducible apply State.setHbm_within | with_reducible apply State.resetProducts_within | split | with_reducible apply_assumption

theorem execCryptoEraseDone_within {A : List Area} (a0 : Area.regs ∈ A) (a1 : Area.ttbs ∈ A) (a2 : Area.hbm ∈ A) (a3 : Area.ctxs ∈ A) (a4 : Area.rot ∈ A) (a5 : Area.out ∈ A) {s₀ s : State} (ctx ns : Nat) (h₀ : Within A s₀ s) :
    Out.within A s₀ (execCryptoEraseDone ctx ns s) := by
  unfold execCryptoEraseDone
  show Within A s₀ _
  repeat' first | with_reducible exact fun _ k => k | (extract_lets +onlyGivenNames x; revert x; with_reducible first | apply Within.letS A s₀ | apply Within.letQ A s₀ | apply Within.letP A s₀ | apply Within.letV) | intro _ | with_reducible assumption | with_reducible apply Within.ite | with_reducible apply State.cryptoErase_within | with_reducible apply State.wr_within | with_reducible apply State.setRel_within | with_reducible apply State.releaseStep7_within | split | with_reducible apply_assumption

theorem execReleaseComplete_within {A : List Area} (a0 : Area.regs ∈ A) (a1 : Area.ctxs ∈ A) (a2 : Area.beyjo ∈ A) (a3 : Area.pair ∈ A) {s₀ s : State} (ctx : Nat) (h₀ : Within A s₀ s) :
    Out.within A s₀ (execReleaseComplete ctx s) := by
  unfold execReleaseComplete
  show Within A s₀ _
  repeat' first | with_reducible exact fun _ k => k | intro _ | with_reducible assumption | with_reducible apply Within.ite | with_reducible apply State.setCtx_within | with_reducible apply State.wr_within | with_reducible apply State.notifyCtx_within | with_reducible apply State.dueGen_within | split

theorem State.ctxBind_within {A : List Area} (a0 : Area.regs ∈ A) (a1 : Area.ctxs ∈ A) (a2 : Area.pair ∈ A) {s₀ s : State} (index c : Nat) (tenantClosed : Bool) (h₀ : Within A s₀ s) :
    Within A s₀ (State.ctxBind s index c tenantClosed) := by
  unfold State.ctxBind
  repeat' first | with_reducible exact fun _ k => k | intro _ | with_reducible assumption | with_reducible apply Within.ite | with_reducible apply State.wr_within | with_reducible apply State.setCtx_within | with_reducible apply State.dueGen_within | split

theorem execCtxBind_within {A : List Area} (a0 : Area.regs ∈ A) (a1 : Area.ctxs ∈ A) (a2 : Area.pair ∈ A) {s₀ s : State} (index ctx : Nat) (tenantClosed : Bool) (h₀ : Within A s₀ s) :
    Out.within A s₀ (execCtxBind index ctx tenantClosed s) := by
  unfold execCtxBind
  show Within A s₀ _
  repeat' first | with_reducible exact fun _ k => k | with_reducible assumption | with_reducible apply State.ctxBind_within

theorem State.ctxSeed_within {A : List Area} (a0 : Area.ctxs ∈ A) {s₀ s : State} (c half v : Nat) (h₀ : Within A s₀ s) :
    Within A s₀ (State.ctxSeed s c half v) := by
  unfold State.ctxSeed
  repeat' first | intro _ | with_reducible assumption | with_reducible apply Within.ite | with_reducible apply State.setCtx_within | split

theorem execCtxSeedWrite_within {A : List Area} (a0 : Area.ctxs ∈ A) {s₀ s : State} (ctx half : Nat) (value : Word) (h₀ : Within A s₀ s) :
    Out.within A s₀ (execCtxSeedWrite ctx half value s) := by
  unfold execCtxSeedWrite
  show Within A s₀ _
  repeat' first | with_reducible assumption | with_reducible apply Within.ite | with_reducible apply State.ctxSeed_within | split

theorem State.ctxMap_within {A : List Area} (a0 : Area.ctxs ∈ A) {s₀ s : State} (c v : Nat) (h₀ : Within A s₀ s) :
    Within A s₀ (State.ctxMap s c v) := by
  unfold State.ctxMap
  repeat' first | intro _ | with_reducible assumption | with_reducible apply Within.ite | with_reducible apply State.setCtx_within | split

theorem execCtxMapWrite_within {A : List Area} (a0 : Area.ctxs ∈ A) {s₀ s : State} (ctx : Nat) (value : Word) (h₀ : Within A s₀ s) :
    Out.within A s₀ (execCtxMapWrite ctx value s) := by
  unfold execCtxMapWrite
  show Within A s₀ _
  repeat' first | with_reducible assumption | with_reducible apply Within.ite | with_reducible apply State.ctxMap_within | split

end Sys2Proof.Machine
end

