-- ==== Sys2Proof/Laws/PowerWithin.lean ====
section
/-! SUPPORT. The parts of the state that the definitions of Machine/Power.lean reach. -/

set_option linter.unreachableTactic false
set_option linter.unusedTactic false

namespace Sys2Proof.Machine

theorem State.tamperTrip_within {A : List Area} (a0 : Area.regs ∈ A) (a1 : Area.tile ∈ A) (a2 : Area.hbm ∈ A) (a3 : Area.rot ∈ A) (a4 : Area.beyjo ∈ A) (a5 : Area.flt ∈ A) (a6 : Area.agFlt ∈ A) (a7 : Area.rst ∈ A) (a8 : Area.pair ∈ A) {s₀ s : State} (cause die : Nat) (counted : Bool) (h₀ : Within A s₀ s) :
    Within A s₀ (State.tamperTrip s cause die counted) := by
  unfold State.tamperTrip
  repeat' first | with_reducible exact fun _ k => k | with_reducible assumption | with_reducible apply State.tamper_within | with_reducible apply State.detect_within

theorem execTamperDetect_within {A : List Area} (a0 : Area.regs ∈ A) (a1 : Area.tile ∈ A) (a2 : Area.hbm ∈ A) (a3 : Area.rot ∈ A) (a4 : Area.beyjo ∈ A) (a5 : Area.flt ∈ A) (a6 : Area.agFlt ∈ A) (a7 : Area.rst ∈ A) (a8 : Area.pair ∈ A) {s₀ s : State} (cause : Nat) (h₀ : Within A s₀ s) :
    Out.within A s₀ (execTamperDetect cause s) := by
  unfold execTamperDetect
  show Within A s₀ _
  repeat' first | with_reducible exact fun _ k => k | with_reducible assumption | with_reducible apply Within.ite | with_reducible apply State.tamperTrip_within | split

theorem State.thermalVoid_within {A : List Area} (a0 : Area.ttbs ∈ A) {s₀ s : State} (c : Nat) (h₀ : Within A s₀ s) :
    Within A s₀ (State.thermalVoid s c) := by
  unfold State.thermalVoid
  repeat' first | intro _ | with_reducible assumption | with_reducible apply Within.ite | with_reducible apply State.setTtb_within | split

theorem State.thermalTrip_within {A : List Area} (a0 : Area.regs ∈ A) (a1 : Area.ttbs ∈ A) (a2 : Area.flt ∈ A) (a3 : Area.agFlt ∈ A) (a4 : Area.pwr ∈ A) {s₀ s : State} (die sensor : Nat) (h₀ : Within A s₀ s) :
    Within A s₀ (State.thermalTrip s die sensor) := by
  unfold State.thermalTrip
  repeat' first | (extract_lets +onlyGivenNames x; revert x; with_reducible first | apply Within.letS A s₀ | apply Within.letQ A s₀ | apply Within.letP A s₀ | apply Within.letV) | intro _ | with_reducible assumption | with_reducible apply Within.ite | with_reducible apply Within.foldl | with_reducible apply State.wr_within | with_reducible apply State.bump_within | with_reducible apply State.setPwr_within | with_reducible apply State.detect_within | with_reducible apply State.setFlt_within | with_reducible apply State.thermalVoid_within | split | with_reducible apply_assumption

theorem execThermalTrip_within {A : List Area} (a0 : Area.regs ∈ A) (a1 : Area.ttbs ∈ A) (a2 : Area.flt ∈ A) (a3 : Area.agFlt ∈ A) (a4 : Area.pwr ∈ A) {s₀ s : State}  (h₀ : Within A s₀ s) :
    Out.within A s₀ (execThermalTrip s) := by
  unfold execThermalTrip
  show Within A s₀ _
  repeat' first | with_reducible assumption | with_reducible apply State.thermalTrip_within

theorem execThermalRecover_within {A : List Area} (a0 : Area.regs ∈ A) (a1 : Area.flt ∈ A) (a2 : Area.agFlt ∈ A) (a3 : Area.pwr ∈ A) {s₀ s : State}  (h₀ : Within A s₀ s) :
    Out.within A s₀ (execThermalRecover s) := by
  unfold execThermalRecover
  show Within A s₀ _
  repeat' first | (extract_lets +onlyGivenNames x; revert x; with_reducible first | apply Within.letS A s₀ | apply Within.letQ A s₀ | apply Within.letP A s₀ | apply Within.letV) | intro _ | with_reducible assumption | with_reducible apply State.wr_within | with_reducible apply State.setPwr_within | with_reducible apply State.reactionDone_within | split | with_reducible apply_assumption

theorem State.showTemps_within {A : List Area} (a0 : Area.regs ∈ A) {s₀ s : State}  (h₀ : Within A s₀ s) :
    Within A s₀ (State.showTemps s) := by
  unfold State.showTemps
  repeat' first | (extract_lets +onlyGivenNames x; revert x; with_reducible first | apply Within.letS A s₀ | apply Within.letQ A s₀ | apply Within.letP A s₀ | apply Within.letV) | intro _ | with_reducible assumption | with_reducible apply State.wr_within | with_reducible apply_assumption

theorem execTempSample_within {A : List Area} (a0 : Area.regs ∈ A) (a1 : Area.ttbs ∈ A) (a2 : Area.tile ∈ A) (a3 : Area.hbm ∈ A) (a4 : Area.rot ∈ A) (a5 : Area.beyjo ∈ A) (a6 : Area.flt ∈ A) (a7 : Area.agFlt ∈ A) (a8 : Area.rst ∈ A) (a9 : Area.pair ∈ A) (a10 : Area.pwr ∈ A) {s₀ s : State} (die sensor : Nat) (celsius : Int) (h₀ : Within A s₀ s) :
    Out.within A s₀ (execTempSample die sensor celsius s) := by
  unfold execTempSample
  show Within A s₀ _
  repeat' first | with_reducible exact fun _ k => k | (extract_lets +onlyGivenNames x; revert x; with_reducible first | apply Within.letS A s₀ | apply Within.letQ A s₀ | apply Within.letP A s₀ | apply Within.letV) | intro _ | with_reducible assumption | with_reducible apply Within.ite | with_reducible apply State.setPwr_within | with_reducible apply State.wr_within | with_reducible apply State.showTemps_within | with_reducible apply State.thermalTrip_within | with_reducible apply State.tamperTrip_within | split | with_reducible apply_assumption

theorem execStackTempRead_within {A : List Area} (a0 : Area.regs ∈ A) (a1 : Area.ttbs ∈ A) (a2 : Area.flt ∈ A) (a3 : Area.agFlt ∈ A) (a4 : Area.pwr ∈ A) {s₀ s : State} (mdie stack : Nat) (celsius : Int) (h₀ : Within A s₀ s) :
    Out.within A s₀ (execStackTempRead mdie stack celsius s) := by
  unfold execStackTempRead
  show Within A s₀ _
  repeat' first | (extract_lets +onlyGivenNames x; revert x; with_reducible first | apply Within.letS A s₀ | apply Within.letQ A s₀ | apply Within.letP A s₀ | apply Within.letV) | intro _ | with_reducible assumption | with_reducible apply Within.ite | with_reducible apply State.setPwr_within | with_reducible apply State.showTemps_within | with_reducible apply State.wr_within | with_reducible apply State.thermalTrip_within | split | with_reducible apply_assumption

theorem State.showCpower_within {A : List Area} (a0 : Area.regs ∈ A) {s₀ s : State}  (h₀ : Within A s₀ s) :
    Within A s₀ (State.showCpower s) := by
  unfold State.showCpower
  repeat' first | with_reducible assumption | with_reducible apply State.wr_within

theorem State.cpwr_within {A : List Area} (a0 : Area.regs ∈ A) {s₀ s : State} (c : Nat) (b : Bool) (h₀ : Within A s₀ s) :
    Within A s₀ (State.cpwr s c b) := by
  unfold State.cpwr
  repeat' first | with_reducible assumption | with_reducible apply Within.ite | with_reducible apply State.wr_within | with_reducible apply State.showCpower_within | split

theorem State.cpwrAll_within {A : List Area} (a0 : Area.regs ∈ A) {s₀ s : State} (b : Bool) (h₀ : Within A s₀ s) :
    Within A s₀ (State.cpwrAll s b) := by
  unfold State.cpwrAll
  repeat' first | with_reducible assumption | with_reducible apply State.cpwr_within

theorem execCpwrGoodTimeout_within {A : List Area} (a0 : Area.flt ∈ A) (a1 : Area.agFlt ∈ A) {s₀ s : State} (c : Nat) (h₀ : Within A s₀ s) :
    Out.within A s₀ (execCpwrGoodTimeout c s) := by
  unfold execCpwrGoodTimeout
  show Within A s₀ _
  repeat' first | with_reducible assumption | with_reducible apply Within.ite | with_reducible apply State.detect_within | split

theorem execCpwrGoodChange_within {A : List Area} (a0 : Area.regs ∈ A) (a1 : Area.tile ∈ A) (a2 : Area.hbm ∈ A) (a3 : Area.rot ∈ A) (a4 : Area.beyjo ∈ A) (a5 : Area.flt ∈ A) (a6 : Area.agFlt ∈ A) (a7 : Area.rst ∈ A) (a8 : Area.pair ∈ A) {s₀ s : State} (c : Nat) (high : Bool) (h₀ : Within A s₀ s) :
    Out.within A s₀ (execCpwrGoodChange c high s) := by
  unfold execCpwrGoodChange
  show Within A s₀ _
  repeat' first | with_reducible exact fun _ k => k | (extract_lets +onlyGivenNames x; revert x; with_reducible first | apply Within.letS A s₀ | apply Within.letQ A s₀ | apply Within.letP A s₀ | apply Within.letV) | intro _ | with_reducible assumption | with_reducible apply Within.ite | with_reducible apply State.wr_within | with_reducible apply State.showCpower_within | with_reducible apply State.tamperTrip_within | split | with_reducible apply_assumption

theorem execRailOutOfWindow_within {A : List Area} (a0 : Area.regs ∈ A) (a1 : Area.tile ∈ A) (a2 : Area.hbm ∈ A) (a3 : Area.rot ∈ A) (a4 : Area.beyjo ∈ A) (a5 : Area.flt ∈ A) (a6 : Area.agFlt ∈ A) (a7 : Area.rst ∈ A) (a8 : Area.pair ∈ A) {s₀ s : State} (rail die n mv : Nat) (tamper : Bool) (h₀ : Within A s₀ s) :
    Out.within A s₀ (execRailOutOfWindow rail die n mv tamper s) := by
  unfold execRailOutOfWindow
  show Within A s₀ _
  repeat' first | with_reducible exact fun _ k => k | (extract_lets +onlyGivenNames x; revert x; with_reducible first | apply Within.letS A s₀ | apply Within.letQ A s₀ | apply Within.letP A s₀ | apply Within.letV) | intro _ | with_reducible assumption | with_reducible apply Within.ite | with_reducible apply State.wr_within | with_reducible apply State.detect_within | with_reducible apply State.tamperTrip_within | split | with_reducible apply_assumption

theorem execRailWindowEntry_within {A : List Area} (a0 : Area.pwr ∈ A) {s₀ s : State} (rail : Nat) (h₀ : Within A s₀ s) :
    Out.within A s₀ (execRailWindowEntry rail s) := by
  unfold execRailWindowEntry
  show Within A s₀ _
  repeat' first | intro _ | with_reducible assumption | with_reducible apply Within.ite | with_reducible apply State.setPwr_within | split

theorem State.pwrBudget_within {A : List Area} (a0 : Area.regs ∈ A) {s₀ s : State} (v : Nat) (h₀ : Within A s₀ s) :
    Within A s₀ (State.pwrBudget s v) := by
  unfold State.pwrBudget
  repeat' first | (extract_lets +onlyGivenNames x; revert x; with_reducible first | apply Within.letS A s₀ | apply Within.letQ A s₀ | apply Within.letP A s₀ | apply Within.letV) | intro _ | with_reducible assumption | with_reducible apply Within.ite | with_reducible apply State.wr_within | split | with_reducible apply_assumption

theorem execPwrBudgetWrite_within {A : List Area} (a0 : Area.regs ∈ A) {s₀ s : State} (value : Word) (h₀ : Within A s₀ s) :
    Out.within A s₀ (execPwrBudgetWrite value s) := by
  unfold execPwrBudgetWrite
  show Within A s₀ _
  repeat' first | with_reducible assumption | with_reducible apply State.pwrBudget_within

end Sys2Proof.Machine
end

