-- ==== Sys2Proof/Laws/BootWithin.lean ====
section
/-! SUPPORT. The parts of the state that the definitions of Machine/Boot.lean reach. -/

set_option linter.unreachableTactic false
set_option linter.unusedTactic false

namespace Sys2Proof.Machine

theorem State.mapTiles_within {A : List Area} (a0 : Area.regs ∈ A) {s₀ s : State} (die : Nat) (h₀ : Within A s₀ s) :
    Within A s₀ (State.mapTiles s die) := by
  unfold State.mapTiles
  repeat' first | (extract_lets +onlyGivenNames x; revert x; with_reducible first | apply Within.letS A s₀ | apply Within.letQ A s₀ | apply Within.letP A s₀ | apply Within.letV) | intro _ | with_reducible assumption | with_reducible apply Within.ite | with_reducible apply Within.foldl | with_reducible apply Within.foldlPair | with_reducible apply State.wr_within | split | with_reducible apply_assumption

theorem State.fromFuses_within {A : List Area} (a0 : Area.regs ∈ A) {s₀ s : State}  (h₀ : Within A s₀ s) :
    Within A s₀ (State.fromFuses s) := by
  unfold State.fromFuses
  repeat' first | intro _ | with_reducible assumption | with_reducible apply Within.foldl | with_reducible apply State.mapTiles_within | with_reducible apply State.wr_within

theorem State.coldReset_within {A : List Area} (a0 : Area.regs ∈ A) (a1 : Area.time ∈ A) (a2 : Area.ports ∈ A) (a3 : Area.replays ∈ A) (a4 : Area.route ∈ A) (a5 : Area.ttbs ∈ A) (a6 : Area.agents ∈ A) (a7 : Area.insts ∈ A) (a8 : Area.tile ∈ A) (a9 : Area.hbm ∈ A) (a10 : Area.ctxs ∈ A) (a11 : Area.rot ∈ A) (a12 : Area.beyjo ∈ A) (a13 : Area.flt ∈ A) (a14 : Area.rst ∈ A) (a15 : Area.pair ∈ A) (a16 : Area.boot ∈ A) (a17 : Area.pwr ∈ A) {s₀ s : State} (h : Within A s₀ s) :
    Within A s₀ (State.coldReset s) := by
  refine Within.trans h ⟨⟨fun k => ⟨?_, k.aregs, ?_, k.agPorts, ?_, ?_, ⟨rfl, rfl, rfl⟩, k.hbm, k.pair, rfl, k.ag⟩, rfl, List.prefix_refl _, Nat.le_refl _⟩, fun p hp => ?_⟩
  · have H : Within [.regs] State.reset (fuseFlds.foldl (fun (t : State) (f : Fld) => t.wr f (s.rd f)) State.reset).fromFuses :=
      State.fromFuses_within (by simp) (Within.foldl (Within.refl ..) fun _ _ k => State.wr_within (by simp) _ _ k)
    exact (H.kept.sound ⟨List.Pairwise.nil, List.Pairwise.nil, by simp [State.reset], by simp [State.reset], by simp [State.reset],
      by simp [State.reset], ⟨rfl, rfl, rfl⟩, rfl, rfl, rfl, ⟨rfl, rfl, rfl, rfl, rfl, rfl⟩⟩).regs
  · simp [State.coldReset, State.reset]
  · simp [State.coldReset, State.reset]
  · simp [State.coldReset, State.reset]
  · cases p <;> first | rfl | (exfalso; exact hp (by assumption))

theorem State.lanesIdle_within {A : List Area} (a0 : Area.ports ∈ A) (a1 : Area.agPorts ∈ A) (a2 : Area.out ∈ A) {s₀ s : State}  (h₀ : Within A s₀ s) :
    Within A s₀ (State.lanesIdle s) := by
  unfold State.lanesIdle
  repeat' first | intro _ | with_reducible assumption | with_reducible apply Within.foldl | with_reducible apply State.setIdle_within

theorem execPorstNLow_within {A : List Area} (a0 : Area.regs ∈ A) (a1 : Area.time ∈ A) (a2 : Area.ports ∈ A) (a3 : Area.agPorts ∈ A) (a4 : Area.replays ∈ A) (a5 : Area.route ∈ A) (a6 : Area.ttbs ∈ A) (a7 : Area.agents ∈ A) (a8 : Area.insts ∈ A) (a9 : Area.tile ∈ A) (a10 : Area.hbm ∈ A) (a11 : Area.ctxs ∈ A) (a12 : Area.rot ∈ A) (a13 : Area.beyjo ∈ A) (a14 : Area.flt ∈ A) (a15 : Area.rst ∈ A) (a16 : Area.pair ∈ A) (a17 : Area.boot ∈ A) (a18 : Area.pwr ∈ A) (a19 : Area.out ∈ A) {s₀ s : State}  (h₀ : Within A s₀ s) :
    Out.within A s₀ (execPorstNLow s) := by
  unfold execPorstNLow
  show Within A s₀ _
  repeat' first | with_reducible exact fun _ k => k | intro _ | with_reducible assumption | with_reducible apply State.lanesIdle_within | with_reducible apply State.coldReset_within | with_reducible apply State.setBoot_within | with_reducible apply State.setPwr_within

theorem State.dropTry_within {A : List Area} (a0 : Area.boot ∈ A) {s₀ s : State} (kind : Nat) (h₀ : Within A s₀ s) :
    Within A s₀ (State.dropTry s kind) := by
  unfold State.dropTry
  repeat' first | with_reducible exact fun _ k => k | intro _ | with_reducible assumption | with_reducible apply State.setBoot_within

theorem State.showUpdate_within {A : List Area} (a0 : Area.regs ∈ A) (a1 : Area.rot ∈ A) {s₀ s : State}  (h₀ : Within A s₀ s) :
    Within A s₀ (State.showUpdate s) := by
  unfold State.showUpdate
  repeat' first | (extract_lets +onlyGivenNames x; revert x; with_reducible first | apply Within.letS A s₀ | apply Within.letQ A s₀ | apply Within.letP A s₀ | apply Within.letV) | intro _ | with_reducible assumption | with_reducible apply State.setRot_within | with_reducible apply State.wr_within | split | with_reducible apply_assumption

theorem State.activate_within {A : List Area} (a0 : Area.boot ∈ A) {s₀ s : State} (kinds : List Nat) (h₀ : Within A s₀ s) :
    Within A s₀ (State.activate s kinds) := by
  unfold State.activate
  repeat' first | with_reducible exact fun _ k => k | intro _ | with_reducible assumption | with_reducible apply Within.foldl | with_reducible apply State.setBoot_within

theorem State.fallBack_within {A : List Area} (a0 : Area.regs ∈ A) (a1 : Area.boot ∈ A) {s₀ s : State} (kinds : List Nat) (h₀ : Within A s₀ s) :
    Within A s₀ (State.fallBack s kinds) := by
  unfold State.fallBack
  repeat' first | with_reducible exact fun _ k => k | (extract_lets +onlyGivenNames x; revert x; with_reducible first | apply Within.letS A s₀ | apply Within.letQ A s₀ | apply Within.letP A s₀ | apply Within.letV) | intro _ | with_reducible assumption | with_reducible apply Within.foldl | with_reducible apply State.dropTry_within | with_reducible apply State.wr_within | split | with_reducible apply_assumption

theorem State.reload_within {A : List Area} (a0 : Area.regs ∈ A) (a1 : Area.boot ∈ A) {s₀ s : State} (kinds : List Nat) (h₀ : Within A s₀ s) :
    Within A s₀ (State.reload s kinds) := by
  unfold State.reload
  repeat' first | with_reducible exact fun _ k => k | (extract_lets +onlyGivenNames x; revert x; with_reducible first | apply Within.letS A s₀ | apply Within.letQ A s₀ | apply Within.letP A s₀ | apply Within.letV) | intro _ | with_reducible assumption | with_reducible apply State.fallBack_within | with_reducible apply State.activate_within | split | with_reducible apply_assumption

theorem State.showImages_within {A : List Area} (a0 : Area.regs ∈ A) {s₀ s : State}  (h₀ : Within A s₀ s) :
    Within A s₀ (State.showImages s) := by
  unfold State.showImages
  repeat' first | intro _ | with_reducible assumption | with_reducible apply Within.foldl | with_reducible apply State.wr_within | split

theorem State.measureAll_within {A : List Area} (a0 : Area.rot ∈ A) {s₀ s : State}  (h₀ : Within A s₀ s) :
    Within A s₀ (State.measureAll s) := by
  unfold State.measureAll
  repeat' first | intro _ | with_reducible assumption | with_reducible apply Within.ite | with_reducible apply State.setRot_within | split

theorem State.measureBoot_within {A : List Area} (a0 : Area.rot ∈ A) {s₀ s : State}  (h₀ : Within A s₀ s) :
    Within A s₀ (State.measureBoot s) := by
  unfold State.measureBoot
  repeat' first | intro _ | with_reducible assumption | with_reducible apply State.setRot_within | with_reducible apply State.activate_within | with_reducible apply State.measureAll_within | with_reducible apply State.measured_within

theorem State.measureReady_within {A : List Area} (a0 : Area.regs ∈ A) (a1 : Area.rot ∈ A) {s₀ s : State}  (h₀ : Within A s₀ s) :
    Within A s₀ (State.measureReady s) := by
  unfold State.measureReady
  repeat' first | (extract_lets +onlyGivenNames x; revert x; with_reducible first | apply Within.letS A s₀ | apply Within.letQ A s₀ | apply Within.letP A s₀ | apply Within.letF A s₀ | apply Within.letK A s₀ | apply Within.letG A s₀ | apply Within.letF1x A s₀ | apply Within.letH A s₀ | apply Within.letV) | intro _ | with_reducible assumption | with_reducible apply Within.ite | with_reducible apply State.measureAll_within | with_reducible apply State.measured_within | with_reducible apply State.newAk_within | split | with_reducible apply_assumption

theorem State.seqBroadcast_within {A : List Area} (a0 : Area.regs ∈ A) {s₀ s : State}  (h₀ : Within A s₀ s) :
    Within A s₀ (State.seqBroadcast s) := by
  unfold State.seqBroadcast
  repeat' first | intro _ | with_reducible assumption | with_reducible apply Within.foldl | with_reducible apply State.wr_within

theorem State.svnCommit_within {A : List Area} (a0 : Area.regs ∈ A) {s₀ s : State}  (h₀ : Within A s₀ s) :
    Within A s₀ (State.svnCommit s) := by
  unfold State.svnCommit
  repeat' first | intro _ | with_reducible assumption | with_reducible apply Within.ite | with_reducible apply Within.foldl | with_reducible apply State.atLeast_within | split

theorem State.tryOnce_within {A : List Area} (a0 : Area.regs ∈ A) (a1 : Area.boot ∈ A) {s₀ s : State}  (h₀ : Within A s₀ s) :
    Within A s₀ (State.tryOnce s) := by
  unfold State.tryOnce
  repeat' first | with_reducible exact fun _ k => k | (extract_lets +onlyGivenNames x; revert x; with_reducible first | apply Within.letS A s₀ | apply Within.letQ A s₀ | apply Within.letP A s₀ | apply Within.letV) | intro _ | with_reducible assumption | with_reducible apply State.fallBack_within | with_reducible apply State.setBoot_within | with_reducible apply_assumption

theorem State.bootStart_within {A : List Area} (a0 : Area.regs ∈ A) (a1 : Area.aregs ∈ A) (a2 : Area.ports ∈ A) (a3 : Area.agPorts ∈ A) (a4 : Area.replays ∈ A) (a5 : Area.rot ∈ A) (a6 : Area.rst ∈ A) (a7 : Area.pair ∈ A) (a8 : Area.boot ∈ A) (a9 : Area.out ∈ A) (a10 : Area.freeCtr ∈ A) {s₀ s : State} (fsel xspiSafe : Bool) (h₀ : Within A s₀ s) :
    Within A s₀ (State.bootStart s fsel xspiSafe) := by
  unfold State.bootStart
  repeat' first | with_reducible exact fun _ k => k | (extract_lets +onlyGivenNames x; revert x; with_reducible first | apply Within.letS A s₀ | apply Within.letQ A s₀ | apply Within.letP A s₀ | apply Within.letF A s₀ | apply Within.letK A s₀ | apply Within.letG A s₀ | apply Within.letF1x A s₀ | apply Within.letH A s₀ | apply Within.letV) | intro _ | with_reducible assumption | with_reducible apply Within.ite | with_reducible apply Within.foldl | with_reducible apply State.wr_within | with_reducible apply State.tryOnce_within | with_reducible apply State.newHbmRoot_within | with_reducible apply State.measureBoot_within | with_reducible apply State.newAk_within | with_reducible apply State.cpwrAll_within | with_reducible apply State.setBoot_within | with_reducible apply State.edgeTrain_within | with_reducible apply State.startAttempt_within | split | with_reducible apply_assumption

theorem execPorstNRelease_within {A : List Area} (a0 : Area.regs ∈ A) (a1 : Area.aregs ∈ A) (a2 : Area.ports ∈ A) (a3 : Area.agPorts ∈ A) (a4 : Area.replays ∈ A) (a5 : Area.rot ∈ A) (a6 : Area.rst ∈ A) (a7 : Area.pair ∈ A) (a8 : Area.boot ∈ A) (a9 : Area.out ∈ A) (a10 : Area.freeCtr ∈ A) {s₀ s : State} (fsel xspiSafe : Bool) (h₀ : Within A s₀ s) :
    Out.within A s₀ (execPorstNRelease fsel xspiSafe s) := by
  unfold execPorstNRelease
  show Within A s₀ _
  repeat' first | with_reducible exact fun _ k => k | intro _ | with_reducible assumption | with_reducible apply Within.ite | with_reducible apply State.setBoot_within | with_reducible apply State.bootStart_within | split

theorem State.packageReset_within {A : List Area} (a0 : Area.regs ∈ A) (a1 : Area.aregs ∈ A) (a2 : Area.time ∈ A) (a3 : Area.ports ∈ A) (a4 : Area.agPorts ∈ A) (a5 : Area.replays ∈ A) (a6 : Area.route ∈ A) (a7 : Area.ttbs ∈ A) (a8 : Area.agents ∈ A) (a9 : Area.insts ∈ A) (a10 : Area.tile ∈ A) (a11 : Area.hbm ∈ A) (a12 : Area.ctxs ∈ A) (a13 : Area.rot ∈ A) (a14 : Area.beyjo ∈ A) (a15 : Area.flt ∈ A) (a16 : Area.rst ∈ A) (a17 : Area.pair ∈ A) (a18 : Area.boot ∈ A) (a19 : Area.pwr ∈ A) (a20 : Area.out ∈ A) (a21 : Area.freeCtr ∈ A) {s₀ s : State}  (h₀ : Within A s₀ s) :
    Within A s₀ (State.packageReset s) := by
  unfold State.packageReset
  repeat' first | with_reducible exact fun _ k => k | with_reducible assumption | with_reducible apply State.lanesIdle_within | with_reducible apply State.coldReset_within | with_reducible apply State.bootStart_within

theorem State.bootErr_within {A : List Area} (a0 : Area.regs ∈ A) {s₀ s : State}  (h₀ : Within A s₀ s) :
    Within A s₀ (State.bootErr s) := by
  unfold State.bootErr
  repeat' first | intro _ | with_reducible assumption | with_reducible apply State.wr_within | split

theorem execBootReady_within {A : List Area} (a0 : Area.regs ∈ A) (a1 : Area.ports ∈ A) (a2 : Area.agPorts ∈ A) (a3 : Area.rot ∈ A) (a4 : Area.boot ∈ A) (a5 : Area.out ∈ A) {s₀ s : State} (ms : Nat) (failed : List Nat) (dead : Bool) (h₀ : Within A s₀ s) :
    Out.within A s₀ (execBootReady ms failed dead s) := by
  unfold execBootReady
  show Within A s₀ _
  repeat' first | with_reducible exact fun _ k => k | (extract_lets +onlyGivenNames x; revert x; with_reducible first | apply Within.letS A s₀ | apply Within.letQ A s₀ | apply Within.letP A s₀ | apply Within.letV) | intro _ | with_reducible assumption | with_reducible apply Within.ite | with_reducible apply State.bootErr_within | with_reducible apply State.wr_within | with_reducible apply State.lanesIdle_within | with_reducible apply State.fallBack_within | with_reducible apply State.showImages_within | with_reducible apply State.activate_within | with_reducible apply State.setBoot_within | with_reducible apply State.edgesUp_within | with_reducible apply State.measureReady_within | with_reducible apply State.svnCommit_within | with_reducible apply State.seqBroadcast_within | with_reducible apply State.showUpdate_within | split | with_reducible apply_assumption

theorem execTimeRecordRestart_within {A : List Area} (a0 : Area.regs ∈ A) (a1 : Area.time ∈ A) (a2 : Area.beyjo ∈ A) (a3 : Area.boot ∈ A) {s₀ s : State} (beat : Option Nat) (h₀ : Within A s₀ s) :
    Out.within A s₀ (execTimeRecordRestart beat s) := by
  unfold execTimeRecordRestart
  show Within A s₀ _
  repeat' first | with_reducible exact fun _ k => k | (extract_lets +onlyGivenNames x; revert x; with_reducible first | apply Within.letS A s₀ | apply Within.letQ A s₀ | apply Within.letP A s₀ | apply Within.letV) | intro _ | with_reducible assumption | with_reducible apply Within.ite | with_reducible apply State.setBoot_within | with_reducible apply State.wr_within | with_reducible apply State.tmkStart_within | split | with_reducible apply_assumption

theorem execTimeRecordTimeout_within {A : List Area} (a0 : Area.boot ∈ A) {s₀ s : State}  (h₀ : Within A s₀ s) :
    Out.within A s₀ (execTimeRecordTimeout s) := by
  unfold execTimeRecordTimeout
  show Within A s₀ _
  repeat' first | with_reducible exact fun _ k => k | intro _ | with_reducible assumption | with_reducible apply State.setBoot_within

end Sys2Proof.Machine
end

