-- ==== Sys2Proof/Laws/ResetWithin.lean ====
section
/-! SUPPORT. The parts of the state that the definitions of Machine/Reset.lean reach. -/

set_option linter.unreachableTactic false
set_option linter.unusedTactic false

namespace Sys2Proof.Machine

theorem State.startDump_within {A : List Area} (a0 : Area.regs ∈ A) (a1 : Area.rst ∈ A) {s₀ s : State} (cause block die scope fid : Nat) (left : List (Nat × Nat × Nat × Nat)) (lock : Bool) (mail : Option (Nat × Nat)) (h₀ : Within A s₀ s) :
    Within A s₀ (State.startDump s cause block die scope fid left lock mail) := by
  unfold State.startDump
  repeat' first | (extract_lets +onlyGivenNames x; revert x; with_reducible first | apply Within.letS A s₀ | apply Within.letQ A s₀ | apply Within.letP A s₀ | apply Within.letF A s₀ | apply Within.letK A s₀ | apply Within.letG A s₀ | apply Within.letF1x A s₀ | apply Within.letH A s₀ | apply Within.letV) | intro _ | with_reducible assumption | with_reducible apply Within.ite | with_reducible apply State.setRst_within | with_reducible apply State.wr_within | with_reducible apply State.bump_within | split | with_reducible apply_assumption

theorem State.readLeft_within {A : List Area} (a0 : Area.rst ∈ A) {s₀ s : State}  (h₀ : Within A s₀ s) :
    Within A s₀ (State.readLeft s) := by
  unfold State.readLeft
  repeat' first | (extract_lets +onlyGivenNames x; revert x; with_reducible first | apply Within.letS A s₀ | apply Within.letQ A s₀ | apply Within.letP A s₀ | apply Within.letV) | intro _ | with_reducible assumption | with_reducible apply State.setRst_within | split | with_reducible apply_assumption

theorem State.endDump_within {A : List Area} (a0 : Area.regs ∈ A) (a1 : Area.tile ∈ A) (a2 : Area.beyjo ∈ A) (a3 : Area.rst ∈ A) {s₀ s : State}  (h₀ : Within A s₀ s) :
    Within A s₀ (State.endDump s) := by
  unfold State.endDump
  repeat' first | with_reducible exact fun _ k => k | (extract_lets +onlyGivenNames x; revert x; with_reducible first | apply Within.letS A s₀ | apply Within.letQ A s₀ | apply Within.letP A s₀ | apply Within.letF A s₀ | apply Within.letK A s₀ | apply Within.letG A s₀ | apply Within.letF1x A s₀ | apply Within.letH A s₀ | apply Within.letV) | intro _ | with_reducible assumption | with_reducible apply Within.ite | with_reducible apply State.setRst_within | with_reducible apply State.wr_within | with_reducible apply State.mailReject_within | with_reducible apply State.bump_within | with_reducible apply State.mailOk_within | split | with_reducible apply_assumption

theorem State.failInsts_within {A : List Area} (a0 : Area.regs ∈ A) (a1 : Area.ttbs ∈ A) (a2 : Area.insts ∈ A) (a3 : Area.flt ∈ A) (a4 : Area.agFlt ∈ A) {s₀ s : State} (q : ResetReq) (h₀ : Within A s₀ s) :
    Within A s₀ (State.failInsts s q) := by
  unfold State.failInsts
  repeat' first | intro _ | with_reducible assumption | with_reducible apply Within.ite | with_reducible apply Within.foldl | with_reducible apply State.instError_within | split

theorem State.holdDies_within {A : List Area} (a0 : Area.regs ∈ A) (a1 : Area.ttbs ∈ A) (a2 : Area.ctxs ∈ A) (a3 : Area.beyjo ∈ A) {s₀ s : State} (q : ResetReq) (h₀ : Within A s₀ s) :
    Within A s₀ (State.holdDies s q) := by
  unfold State.holdDies
  repeat' first | intro _ | with_reducible assumption | with_reducible apply Within.ite | with_reducible apply Within.foldl | with_reducible apply State.setCtx_within | with_reducible apply State.holdJob_within | split

theorem State.guardReset_within {A : List Area} (a0 : Area.regs ∈ A) (a1 : Area.rot ∈ A) {s₀ s : State} (q : ResetReq) (h₀ : Within A s₀ s) :
    Within A s₀ (State.guardReset s q) := by
  unfold State.guardReset
  repeat' first | (extract_lets +onlyGivenNames x; revert x; with_reducible first | apply Within.letS A s₀ | apply Within.letQ A s₀ | apply Within.letP A s₀ | apply Within.letV) | intro _ | with_reducible assumption | with_reducible apply Within.ite | with_reducible apply Within.foldl | with_reducible apply State.wr_within | with_reducible apply State.reloadKeys_within | split | with_reducible apply_assumption

theorem State.scrubWhere_within {A : List Area} (a0 : Area.tile ∈ A) {s₀ s : State} (die : Nat) (p : Nat → Bool) (h₀ : Within A s₀ s) :
    Within A s₀ (State.scrubWhere s die p) := by
  unfold State.scrubWhere
  repeat' first | with_reducible exact fun _ k => k | (extract_lets +onlyGivenNames x; revert x; with_reducible first | apply Within.letS A s₀ | apply Within.letQ A s₀ | apply Within.letP A s₀ | apply Within.letV) | intro _ | with_reducible assumption | with_reducible apply Within.foldl | with_reducible apply State.setTile_within | with_reducible apply State.scrubTile_within | with_reducible apply_assumption

theorem State.edgesReset_within {A : List Area} (a0 : Area.regs ∈ A) (a1 : Area.replays ∈ A) {s₀ s : State} (p : Nat → Bool) (h₀ : Within A s₀ s) :
    Within A s₀ (State.edgesReset s p) := by
  unfold State.edgesReset
  repeat' first | intro _ | with_reducible assumption | with_reducible apply Within.foldl | with_reducible apply State.edgeTrain_within

theorem State.engineReset_within {A : List Area} (a0 : Area.regs ∈ A) (a1 : Area.aregs ∈ A) (a2 : Area.ports ∈ A) (a3 : Area.agPorts ∈ A) (a4 : Area.ttbs ∈ A) (a5 : Area.insts ∈ A) (a6 : Area.tile ∈ A) (a7 : Area.hbm ∈ A) (a8 : Area.beyjo ∈ A) (a9 : Area.flt ∈ A) (a10 : Area.agFlt ∈ A) (a11 : Area.out ∈ A) {s₀ s : State} (q : ResetReq) (h₀ : Within A s₀ s) :
    Within A s₀ (State.engineReset s q) := by
  unfold State.engineReset
  repeat' first | with_reducible exact fun _ k => k | intro _ | with_reducible assumption | with_reducible apply Within.ite | with_reducible apply Within.foldl | with_reducible apply State.scrubWhere_within | with_reducible apply State.setHbm_within | with_reducible apply State.stopJob_within | split

theorem State.computeReset_within {A : List Area} (a0 : Area.regs ∈ A) (a1 : Area.replays ∈ A) (a2 : Area.tile ∈ A) (a3 : Area.hbm ∈ A) {s₀ s : State}  (h₀ : Within A s₀ s) :
    Within A s₀ (State.computeReset s) := by
  unfold State.computeReset
  repeat' first | with_reducible exact fun _ k => ⟨rfl, k.2⟩ | with_reducible exact fun _ k => k | (extract_lets +onlyGivenNames x; revert x; with_reducible first | apply Within.letS A s₀ | apply Within.letQ A s₀ | apply Within.letP A s₀ | apply Within.letV) | intro _ | with_reducible assumption | with_reducible apply Within.foldl | with_reducible apply Within.foldlPair | with_reducible apply State.setTile_within | with_reducible apply State.setHbm_within | with_reducible apply State.edgesReset_within | with_reducible apply State.wr_within | with_reducible apply_assumption

theorem State.controlReset_within {A : List Area} (a0 : Area.regs ∈ A) (a1 : Area.route ∈ A) (a2 : Area.ttbs ∈ A) (a3 : Area.insts ∈ A) (a4 : Area.tile ∈ A) (a5 : Area.beyjo ∈ A) (a6 : Area.rst ∈ A) (a7 : Area.pair ∈ A) {s₀ s : State}  (h₀ : Within A s₀ s) :
    Within A s₀ (State.controlReset s) := by
  unfold State.controlReset
  repeat' first | with_reducible exact fun _ k => k | (extract_lets +onlyGivenNames x; revert x; with_reducible first | apply Within.letS A s₀ | apply Within.letQ A s₀ | apply Within.letP A s₀ | apply Within.letV) | intro _ | with_reducible assumption | with_reducible apply Within.ite | with_reducible apply Within.foldl | with_reducible apply State.closeWhere_within | with_reducible apply State.setRst_within | with_reducible apply State.wr_within | with_reducible apply State.showOpen_within | with_reducible apply State.setTtb_within | with_reducible apply State.ttbTo_within | with_reducible apply State.setRoute_within | with_reducible apply State.setBeyjo_within | split | with_reducible apply Within.insts | with_reducible apply_assumption

theorem State.xdieReset_within {A : List Area} (a0 : Area.regs ∈ A) (a1 : Area.aregs ∈ A) (a2 : Area.agTime ∈ A) (a3 : Area.ports ∈ A) (a4 : Area.agPorts ∈ A) (a5 : Area.replays ∈ A) (a6 : Area.route ∈ A) (a7 : Area.ttbs ∈ A) (a8 : Area.insts ∈ A) (a9 : Area.tile ∈ A) (a10 : Area.beyjo ∈ A) (a11 : Area.flt ∈ A) (a12 : Area.agFlt ∈ A) (a13 : Area.rst ∈ A) (a14 : Area.pair ∈ A) (a15 : Area.boot ∈ A) (a16 : Area.out ∈ A) {s₀ s : State} (die : Nat) (h₀ : Within A s₀ s) :
    Within A s₀ (State.xdieReset s die) := by
  unfold State.xdieReset
  repeat' first | with_reducible exact fun _ k => ⟨k.1, mzero_wf k.2.1 _ _, k.2.2⟩ | with_reducible exact fun _ k => k | (extract_lets +onlyGivenNames x; revert x; with_reducible first | apply Within.letS A s₀ | apply Within.letQ A s₀ | apply Within.letP A s₀ | apply Within.letV) | intro _ | with_reducible assumption | with_reducible apply Within.ite | with_reducible apply Within.foldl | with_reducible apply Within.foldlPair | with_reducible apply State.loseLink_within | with_reducible apply State.wr_within | with_reducible apply State.setIdle_within | with_reducible apply State.setTile_within | with_reducible apply State.setFlt_within | with_reducible apply State.edgesReset_within | with_reducible apply State.controlReset_within | split | with_reducible apply_assumption

theorem State.runReset_within {A : List Area} (a0 : Area.regs ∈ A) (a1 : Area.aregs ∈ A) (a2 : Area.time ∈ A) (a3 : Area.agTime ∈ A) (a4 : Area.ports ∈ A) (a5 : Area.agPorts ∈ A) (a6 : Area.replays ∈ A) (a7 : Area.route ∈ A) (a8 : Area.ttbs ∈ A) (a9 : Area.agents ∈ A) (a10 : Area.insts ∈ A) (a11 : Area.tile ∈ A) (a12 : Area.hbm ∈ A) (a13 : Area.ctxs ∈ A) (a14 : Area.rot ∈ A) (a15 : Area.beyjo ∈ A) (a16 : Area.flt ∈ A) (a17 : Area.agFlt ∈ A) (a18 : Area.rst ∈ A) (a19 : Area.pair ∈ A) (a20 : Area.boot ∈ A) (a21 : Area.pwr ∈ A) (a22 : Area.out ∈ A) (a23 : Area.freeCtr ∈ A) {s₀ s : State}  (h₀ : Within A s₀ s) :
    Within A s₀ (State.runReset s) := by
  unfold State.runReset
  repeat' first | with_reducible exact fun _ k => k | (extract_lets +onlyGivenNames x; revert x; with_reducible first | apply Within.letS A s₀ | apply Within.letQ A s₀ | apply Within.letP A s₀ | apply Within.letV) | intro _ | with_reducible assumption | with_reducible apply State.wr_within | with_reducible apply State.bump_within | with_reducible apply State.engineReset_within | with_reducible apply State.computeReset_within | with_reducible apply State.xdieReset_within | with_reducible apply State.packageReset_within | split | with_reducible apply_assumption

theorem State.showReset_within {A : List Area} (a0 : Area.regs ∈ A) {s₀ s : State} (q : ResetReq) (h₀ : Within A s₀ s) :
    Within A s₀ (State.showReset s q) := by
  unfold State.showReset
  repeat' first | with_reducible assumption | with_reducible apply Within.ite | with_reducible apply State.wr_within | split

theorem State.beginReset_within {A : List Area} (a0 : Area.regs ∈ A) (a1 : Area.aregs ∈ A) (a2 : Area.time ∈ A) (a3 : Area.agTime ∈ A) (a4 : Area.ports ∈ A) (a5 : Area.agPorts ∈ A) (a6 : Area.replays ∈ A) (a7 : Area.route ∈ A) (a8 : Area.ttbs ∈ A) (a9 : Area.agents ∈ A) (a10 : Area.insts ∈ A) (a11 : Area.tile ∈ A) (a12 : Area.hbm ∈ A) (a13 : Area.ctxs ∈ A) (a14 : Area.rot ∈ A) (a15 : Area.beyjo ∈ A) (a16 : Area.flt ∈ A) (a17 : Area.agFlt ∈ A) (a18 : Area.rst ∈ A) (a19 : Area.pair ∈ A) (a20 : Area.boot ∈ A) (a21 : Area.pwr ∈ A) (a22 : Area.out ∈ A) (a23 : Area.freeCtr ∈ A) {s₀ s : State} (q : ResetReq) (dump : Bool) (h₀ : Within A s₀ s) :
    Within A s₀ (State.beginReset s q dump) := by
  unfold State.beginReset
  repeat' first | with_reducible exact fun _ k => k | (extract_lets +onlyGivenNames x; revert x; with_reducible first | apply Within.letS A s₀ | apply Within.letQ A s₀ | apply Within.letP A s₀ | apply Within.letV) | intro _ | with_reducible assumption | with_reducible apply Within.ite | with_reducible apply State.setRst_within | with_reducible apply State.showReset_within | with_reducible apply State.failInsts_within | with_reducible apply State.holdDies_within | with_reducible apply State.guardReset_within | with_reducible apply State.startDump_within | with_reducible apply State.wr_within | with_reducible apply State.endDump_within | with_reducible apply State.runReset_within | split | with_reducible apply_assumption

theorem State.requestReset_within {A : List Area} (a0 : Area.regs ∈ A) (a1 : Area.aregs ∈ A) (a2 : Area.time ∈ A) (a3 : Area.agTime ∈ A) (a4 : Area.ports ∈ A) (a5 : Area.agPorts ∈ A) (a6 : Area.replays ∈ A) (a7 : Area.route ∈ A) (a8 : Area.ttbs ∈ A) (a9 : Area.agents ∈ A) (a10 : Area.insts ∈ A) (a11 : Area.tile ∈ A) (a12 : Area.hbm ∈ A) (a13 : Area.ctxs ∈ A) (a14 : Area.rot ∈ A) (a15 : Area.beyjo ∈ A) (a16 : Area.flt ∈ A) (a17 : Area.agFlt ∈ A) (a18 : Area.rst ∈ A) (a19 : Area.pair ∈ A) (a20 : Area.boot ∈ A) (a21 : Area.pwr ∈ A) (a22 : Area.out ∈ A) (a23 : Area.freeCtr ∈ A) {s₀ s : State} (q : ResetReq) (h₀ : Within A s₀ s) :
    Within A s₀ (State.requestReset s q) := by
  unfold State.requestReset
  repeat' first | with_reducible exact fun _ k => k | (extract_lets +onlyGivenNames x; revert x; with_reducible first | apply Within.letS A s₀ | apply Within.letQ A s₀ | apply Within.letP A s₀ | apply Within.letV) | intro _ | with_reducible assumption | with_reducible apply Within.ite | with_reducible apply State.readLeft_within | with_reducible apply State.endDump_within | with_reducible apply State.beginReset_within | with_reducible apply State.setRst_within | with_reducible apply State.wr_within | split | with_reducible apply_assumption

theorem execRstGo_within {A : List Area} (a0 : Area.regs ∈ A) (a1 : Area.aregs ∈ A) (a2 : Area.time ∈ A) (a3 : Area.agTime ∈ A) (a4 : Area.ports ∈ A) (a5 : Area.agPorts ∈ A) (a6 : Area.replays ∈ A) (a7 : Area.route ∈ A) (a8 : Area.ttbs ∈ A) (a9 : Area.agents ∈ A) (a10 : Area.insts ∈ A) (a11 : Area.tile ∈ A) (a12 : Area.hbm ∈ A) (a13 : Area.ctxs ∈ A) (a14 : Area.rot ∈ A) (a15 : Area.beyjo ∈ A) (a16 : Area.flt ∈ A) (a17 : Area.agFlt ∈ A) (a18 : Area.rst ∈ A) (a19 : Area.pair ∈ A) (a20 : Area.boot ∈ A) (a21 : Area.pwr ∈ A) (a22 : Area.out ∈ A) (a23 : Area.freeCtr ∈ A) {s₀ s : State} (block die domain : Nat) (h₀ : Within A s₀ s) :
    Out.within A s₀ (execRstGo block die domain s) := by
  unfold execRstGo
  show Within A s₀ _
  repeat' first | with_reducible exact fun _ k => k | with_reducible assumption | with_reducible apply State.requestReset_within

theorem execSysrstNFall_within {A : List Area} (a0 : Area.regs ∈ A) (a1 : Area.aregs ∈ A) (a2 : Area.time ∈ A) (a3 : Area.agTime ∈ A) (a4 : Area.ports ∈ A) (a5 : Area.agPorts ∈ A) (a6 : Area.replays ∈ A) (a7 : Area.route ∈ A) (a8 : Area.ttbs ∈ A) (a9 : Area.agents ∈ A) (a10 : Area.insts ∈ A) (a11 : Area.tile ∈ A) (a12 : Area.hbm ∈ A) (a13 : Area.ctxs ∈ A) (a14 : Area.rot ∈ A) (a15 : Area.beyjo ∈ A) (a16 : Area.flt ∈ A) (a17 : Area.agFlt ∈ A) (a18 : Area.rst ∈ A) (a19 : Area.pair ∈ A) (a20 : Area.boot ∈ A) (a21 : Area.pwr ∈ A) (a22 : Area.out ∈ A) (a23 : Area.freeCtr ∈ A) {s₀ s : State}  (h₀ : Within A s₀ s) :
    Out.within A s₀ (execSysrstNFall s) := by
  unfold execSysrstNFall
  show Within A s₀ _
  repeat' first | with_reducible exact fun _ k => k | with_reducible assumption | with_reducible apply Within.ite | with_reducible apply State.requestReset_within | split

theorem State.openWindow_within {A : List Area} (a0 : Area.flt ∈ A) (a1 : Area.agFlt ∈ A) {s₀ s : State} (kind serial die item : Nat) (h₀ : Within A s₀ s) :
    Within A s₀ (State.openWindow s kind serial die item) := by
  unfold State.openWindow
  repeat' first | intro _ | with_reducible assumption | with_reducible apply State.setFlt_within

theorem execWatchdogHang_within {A : List Area} (a0 : Area.regs ∈ A) (a1 : Area.aregs ∈ A) (a2 : Area.time ∈ A) (a3 : Area.agTime ∈ A) (a4 : Area.ports ∈ A) (a5 : Area.agPorts ∈ A) (a6 : Area.replays ∈ A) (a7 : Area.route ∈ A) (a8 : Area.ttbs ∈ A) (a9 : Area.agents ∈ A) (a10 : Area.insts ∈ A) (a11 : Area.tile ∈ A) (a12 : Area.hbm ∈ A) (a13 : Area.ctxs ∈ A) (a14 : Area.rot ∈ A) (a15 : Area.beyjo ∈ A) (a16 : Area.flt ∈ A) (a17 : Area.agFlt ∈ A) (a18 : Area.rst ∈ A) (a19 : Area.pair ∈ A) (a20 : Area.boot ∈ A) (a21 : Area.pwr ∈ A) (a22 : Area.out ∈ A) (a23 : Area.freeCtr ∈ A) {s₀ s : State} (block die : Nat) (h₀ : Within A s₀ s) :
    Out.within A s₀ (execWatchdogHang block die s) := by
  unfold execWatchdogHang
  show Within A s₀ _
  repeat' first | with_reducible exact fun _ k => k | (extract_lets +onlyGivenNames x; revert x; with_reducible first | apply Within.letS A s₀ | apply Within.letQ A s₀ | apply Within.letP A s₀ | apply Within.letV) | intro _ | with_reducible assumption | with_reducible apply Within.ite | with_reducible apply State.bump_within | with_reducible apply State.wr_within | with_reducible apply State.detect_within | with_reducible apply State.openWindow_within | with_reducible apply State.requestReset_within | split | with_reducible apply_assumption

theorem execSelfSnapshot_within {A : List Area} (a0 : Area.rst ∈ A) {s₀ s : State} (block die : Nat) (h₀ : Within A s₀ s) :
    Out.within A s₀ (execSelfSnapshot block die s) := by
  unfold execSelfSnapshot
  show Within A s₀ _
  repeat' first | intro _ | with_reducible assumption | with_reducible apply Within.ite | with_reducible apply State.setRst_within | split

theorem execDumpReadTimeout_within {A : List Area} (a0 : Area.flt ∈ A) (a1 : Area.agFlt ∈ A) (a2 : Area.rst ∈ A) {s₀ s : State}  (h₀ : Within A s₀ s) :
    Out.within A s₀ (execDumpReadTimeout s) := by
  unfold execDumpReadTimeout
  show Within A s₀ _
  repeat' first | (extract_lets +onlyGivenNames x; revert x; with_reducible first | apply Within.letS A s₀ | apply Within.letQ A s₀ | apply Within.letP A s₀ | apply Within.letF A s₀ | apply Within.letK A s₀ | apply Within.letG A s₀ | apply Within.letF1x A s₀ | apply Within.letH A s₀ | apply Within.letV) | intro _ | with_reducible assumption | with_reducible apply State.setRst_within | with_reducible apply State.detect_within | split | with_reducible apply_assumption

theorem State.dumpDone_within {A : List Area} (a0 : Area.regs ∈ A) (a1 : Area.aregs ∈ A) (a2 : Area.time ∈ A) (a3 : Area.agTime ∈ A) (a4 : Area.ports ∈ A) (a5 : Area.agPorts ∈ A) (a6 : Area.replays ∈ A) (a7 : Area.route ∈ A) (a8 : Area.ttbs ∈ A) (a9 : Area.agents ∈ A) (a10 : Area.insts ∈ A) (a11 : Area.tile ∈ A) (a12 : Area.hbm ∈ A) (a13 : Area.ctxs ∈ A) (a14 : Area.rot ∈ A) (a15 : Area.beyjo ∈ A) (a16 : Area.flt ∈ A) (a17 : Area.agFlt ∈ A) (a18 : Area.rst ∈ A) (a19 : Area.pair ∈ A) (a20 : Area.boot ∈ A) (a21 : Area.pwr ∈ A) (a22 : Area.out ∈ A) (a23 : Area.freeCtr ∈ A) {s₀ s : State}  (h₀ : Within A s₀ s) :
    Within A s₀ (State.dumpDone s) := by
  unfold State.dumpDone
  repeat' first | with_reducible exact fun _ k => k | (extract_lets +onlyGivenNames x; revert x; with_reducible first | apply Within.letS A s₀ | apply Within.letQ A s₀ | apply Within.letP A s₀ | apply Within.letF A s₀ | apply Within.letK A s₀ | apply Within.letG A s₀ | apply Within.letF1x A s₀ | apply Within.letH A s₀ | apply Within.letV) | intro _ | with_reducible assumption | with_reducible apply Within.ite | with_reducible apply State.endDump_within | with_reducible apply State.runReset_within | split | with_reducible apply_assumption

theorem execDumpBudgetExpiry_within {A : List Area} (a0 : Area.regs ∈ A) (a1 : Area.aregs ∈ A) (a2 : Area.time ∈ A) (a3 : Area.agTime ∈ A) (a4 : Area.ports ∈ A) (a5 : Area.agPorts ∈ A) (a6 : Area.replays ∈ A) (a7 : Area.route ∈ A) (a8 : Area.ttbs ∈ A) (a9 : Area.agents ∈ A) (a10 : Area.insts ∈ A) (a11 : Area.tile ∈ A) (a12 : Area.hbm ∈ A) (a13 : Area.ctxs ∈ A) (a14 : Area.rot ∈ A) (a15 : Area.beyjo ∈ A) (a16 : Area.flt ∈ A) (a17 : Area.agFlt ∈ A) (a18 : Area.rst ∈ A) (a19 : Area.pair ∈ A) (a20 : Area.boot ∈ A) (a21 : Area.pwr ∈ A) (a22 : Area.out ∈ A) (a23 : Area.freeCtr ∈ A) {s₀ s : State}  (h₀ : Within A s₀ s) :
    Out.within A s₀ (execDumpBudgetExpiry s) := by
  unfold execDumpBudgetExpiry
  show Within A s₀ _
  repeat' first | with_reducible exact fun _ k => k | (extract_lets +onlyGivenNames x; revert x; with_reducible first | apply Within.letS A s₀ | apply Within.letQ A s₀ | apply Within.letP A s₀ | apply Within.letV) | intro _ | with_reducible assumption | with_reducible apply State.setRst_within | with_reducible apply State.wr_within | with_reducible apply State.dumpDone_within | split | with_reducible apply_assumption

theorem execDumpComplete_within {A : List Area} (a0 : Area.regs ∈ A) (a1 : Area.aregs ∈ A) (a2 : Area.time ∈ A) (a3 : Area.agTime ∈ A) (a4 : Area.ports ∈ A) (a5 : Area.agPorts ∈ A) (a6 : Area.replays ∈ A) (a7 : Area.route ∈ A) (a8 : Area.ttbs ∈ A) (a9 : Area.agents ∈ A) (a10 : Area.insts ∈ A) (a11 : Area.tile ∈ A) (a12 : Area.hbm ∈ A) (a13 : Area.ctxs ∈ A) (a14 : Area.rot ∈ A) (a15 : Area.beyjo ∈ A) (a16 : Area.flt ∈ A) (a17 : Area.agFlt ∈ A) (a18 : Area.rst ∈ A) (a19 : Area.pair ∈ A) (a20 : Area.boot ∈ A) (a21 : Area.pwr ∈ A) (a22 : Area.out ∈ A) (a23 : Area.freeCtr ∈ A) {s₀ s : State} (us : Nat) (h₀ : Within A s₀ s) :
    Out.within A s₀ (execDumpComplete us s) := by
  unfold execDumpComplete
  show Within A s₀ _
  repeat' first | with_reducible exact fun _ k => k | with_reducible assumption | with_reducible apply Within.ite | with_reducible apply State.readLeft_within | with_reducible apply State.wr_within | with_reducible apply State.dumpDone_within | split

theorem State.wantAgentDump_within {A : List Area} (a0 : Area.regs ∈ A) (a1 : Area.rst ∈ A) {s₀ s : State} (f : Nat) (h₀ : Within A s₀ s) :
    Within A s₀ (State.wantAgentDump s f) := by
  unfold State.wantAgentDump
  repeat' first | (extract_lets +onlyGivenNames x; revert x; with_reducible first | apply Within.letS A s₀ | apply Within.letQ A s₀ | apply Within.letP A s₀ | apply Within.letV) | intro _ | with_reducible assumption | with_reducible apply Within.ite | with_reducible apply State.startMode_within | with_reducible apply State.setRst_within | split | with_reducible apply_assumption

theorem execAgentDump_within {A : List Area} (a0 : Area.regs ∈ A) (a1 : Area.tile ∈ A) (a2 : Area.beyjo ∈ A) (a3 : Area.flt ∈ A) (a4 : Area.agFlt ∈ A) (a5 : Area.rst ∈ A) {s₀ s : State} (fid : Nat) (pages : List (Nat × Nat × List Byte)) (failed : Bool) (h₀ : Within A s₀ s) :
    Out.within A s₀ (execAgentDump fid pages failed s) := by
  unfold execAgentDump
  show Within A s₀ _
  repeat' first | with_reducible exact fun _ k => k | (extract_lets +onlyGivenNames x; revert x; with_reducible first | apply Within.letS A s₀ | apply Within.letQ A s₀ | apply Within.letP A s₀ | apply Within.letV) | intro _ | with_reducible assumption | with_reducible apply Within.ite | with_reducible apply State.setRst_within | with_reducible apply State.startDump_within | with_reducible apply State.detect_within | with_reducible apply State.endDump_within | split | with_reducible apply_assumption

theorem execMailDump_within {A : List Area} (a0 : Area.regs ∈ A) (a1 : Area.tile ∈ A) (a2 : Area.beyjo ∈ A) (a3 : Area.rst ∈ A) {s₀ s : State} (index slot : Nat) (h₀ : Within A s₀ s) :
    Out.within A s₀ (execMailDump index slot s) := by
  unfold execMailDump
  show Within A s₀ _
  repeat' first | with_reducible exact fun _ k => k | (extract_lets +onlyGivenNames x; revert x; with_reducible first | apply Within.letS A s₀ | apply Within.letQ A s₀ | apply Within.letP A s₀ | apply Within.letV) | intro _ | with_reducible assumption | with_reducible apply Within.ite | with_reducible apply State.mailReject_within | with_reducible apply State.startMode_within | with_reducible apply State.startDump_within | with_reducible apply State.endDump_within | with_reducible apply State.mailRuns_within | split | with_reducible apply_assumption

end Sys2Proof.Machine
end

