-- ==== Sys2Proof/Laws/ReactWithin.lean ====
section
/-! SUPPORT. The parts of the state that the definitions of Machine/React.lean reach. -/

set_option linter.unreachableTactic false
set_option linter.unusedTactic false

namespace Sys2Proof.Machine

theorem State.runReaction_within {A : List Area} (a0 : Area.regs ∈ A) (a1 : Area.aregs ∈ A) (a2 : Area.time ∈ A) (a3 : Area.agTime ∈ A) (a4 : Area.ports ∈ A) (a5 : Area.agPorts ∈ A) (a6 : Area.replays ∈ A) (a7 : Area.route ∈ A) (a8 : Area.ttbs ∈ A) (a9 : Area.agents ∈ A) (a10 : Area.insts ∈ A) (a11 : Area.tile ∈ A) (a12 : Area.hbm ∈ A) (a13 : Area.ctxs ∈ A) (a14 : Area.rot ∈ A) (a15 : Area.beyjo ∈ A) (a16 : Area.flt ∈ A) (a17 : Area.agFlt ∈ A) (a18 : Area.rst ∈ A) (a19 : Area.pair ∈ A) (a20 : Area.boot ∈ A) (a21 : Area.pwr ∈ A) (a22 : Area.out ∈ A) (a23 : Area.freeCtr ∈ A) {s₀ s : State} (serial x kind detail : Nat) (h₀ : Within A s₀ s) :
    Within A s₀ (State.runReaction s serial x kind detail) := by
  unfold State.runReaction
  repeat' first | with_reducible exact fun _ k => k | intro _ | with_reducible assumption | with_reducible apply Within.ite | with_reducible apply Within.foldl | with_reducible apply State.setTtb_within | with_reducible apply State.openWindow_within | with_reducible apply State.retrainPort_within | with_reducible apply State.requestReset_within | with_reducible apply State.tileFail_within | split

theorem State.showDecision_within {A : List Area} (a0 : Area.regs ∈ A) {s₀ s : State}  (h₀ : Within A s₀ s) :
    Within A s₀ (State.showDecision s) := by
  unfold State.showDecision
  repeat' first | with_reducible assumption | with_reducible apply State.wr_within | split

theorem State.startReaction_within {A : List Area} (a0 : Area.regs ∈ A) (a1 : Area.aregs ∈ A) (a2 : Area.time ∈ A) (a3 : Area.agTime ∈ A) (a4 : Area.ports ∈ A) (a5 : Area.agPorts ∈ A) (a6 : Area.replays ∈ A) (a7 : Area.route ∈ A) (a8 : Area.ttbs ∈ A) (a9 : Area.agents ∈ A) (a10 : Area.insts ∈ A) (a11 : Area.tile ∈ A) (a12 : Area.hbm ∈ A) (a13 : Area.ctxs ∈ A) (a14 : Area.rot ∈ A) (a15 : Area.beyjo ∈ A) (a16 : Area.flt ∈ A) (a17 : Area.agFlt ∈ A) (a18 : Area.rst ∈ A) (a19 : Area.pair ∈ A) (a20 : Area.boot ∈ A) (a21 : Area.pwr ∈ A) (a22 : Area.out ∈ A) (a23 : Area.freeCtr ∈ A) {s₀ s : State} (e : Event) (kind : Nat) (h₀ : Within A s₀ s) :
    Within A s₀ (State.startReaction s e kind) := by
  unfold State.startReaction
  repeat' first | with_reducible exact fun _ k => k | (extract_lets +onlyGivenNames x; revert x; with_reducible first | apply Within.letS A s₀ | apply Within.letQ A s₀ | apply Within.letP A s₀ | apply Within.letV) | intro _ | with_reducible assumption | with_reducible apply Within.ite | with_reducible apply State.startMode_within | with_reducible apply State.setFlt_within | with_reducible apply State.showDecision_within | with_reducible apply State.runReaction_within | split | with_reducible apply_assumption

theorem State.decide1_within {A : List Area} (a0 : Area.regs ∈ A) (a1 : Area.aregs ∈ A) (a2 : Area.time ∈ A) (a3 : Area.agTime ∈ A) (a4 : Area.ports ∈ A) (a5 : Area.agPorts ∈ A) (a6 : Area.replays ∈ A) (a7 : Area.route ∈ A) (a8 : Area.ttbs ∈ A) (a9 : Area.agents ∈ A) (a10 : Area.insts ∈ A) (a11 : Area.tile ∈ A) (a12 : Area.hbm ∈ A) (a13 : Area.ctxs ∈ A) (a14 : Area.rot ∈ A) (a15 : Area.beyjo ∈ A) (a16 : Area.flt ∈ A) (a17 : Area.agFlt ∈ A) (a18 : Area.rst ∈ A) (a19 : Area.pair ∈ A) (a20 : Area.boot ∈ A) (a21 : Area.pwr ∈ A) (a22 : Area.out ∈ A) (a23 : Area.freeCtr ∈ A) {s₀ s : State} (choice : Option Nat) (h₀ : Within A s₀ s) :
    Within A s₀ (State.decide1 s choice) := by
  unfold State.decide1
  repeat' first | with_reducible exact fun _ k => k | (extract_lets +onlyGivenNames x; revert x; with_reducible first | apply Within.letS A s₀ | apply Within.letQ A s₀ | apply Within.letP A s₀ | apply Within.letV) | intro _ | with_reducible assumption | with_reducible apply Within.ite | with_reducible apply State.setFlt_within | with_reducible apply State.showDecision_within | with_reducible apply State.runReaction_within | split | with_reducible apply_assumption

theorem execFltChoice_within {A : List Area} (a0 : Area.regs ∈ A) (a1 : Area.aregs ∈ A) (a2 : Area.time ∈ A) (a3 : Area.agTime ∈ A) (a4 : Area.ports ∈ A) (a5 : Area.agPorts ∈ A) (a6 : Area.replays ∈ A) (a7 : Area.route ∈ A) (a8 : Area.ttbs ∈ A) (a9 : Area.agents ∈ A) (a10 : Area.insts ∈ A) (a11 : Area.tile ∈ A) (a12 : Area.hbm ∈ A) (a13 : Area.ctxs ∈ A) (a14 : Area.rot ∈ A) (a15 : Area.beyjo ∈ A) (a16 : Area.flt ∈ A) (a17 : Area.agFlt ∈ A) (a18 : Area.rst ∈ A) (a19 : Area.pair ∈ A) (a20 : Area.boot ∈ A) (a21 : Area.pwr ∈ A) (a22 : Area.out ∈ A) (a23 : Area.freeCtr ∈ A) {s₀ s : State} (choice : Nat) (h₀ : Within A s₀ s) :
    Out.within A s₀ (execFltChoice choice s) := by
  unfold execFltChoice
  show Within A s₀ _
  repeat' first | with_reducible exact fun _ k => k | with_reducible assumption | with_reducible apply State.decide1_within

theorem execPolicyWaitExpiry_within {A : List Area} (a0 : Area.regs ∈ A) (a1 : Area.aregs ∈ A) (a2 : Area.time ∈ A) (a3 : Area.agTime ∈ A) (a4 : Area.ports ∈ A) (a5 : Area.agPorts ∈ A) (a6 : Area.replays ∈ A) (a7 : Area.route ∈ A) (a8 : Area.ttbs ∈ A) (a9 : Area.agents ∈ A) (a10 : Area.insts ∈ A) (a11 : Area.tile ∈ A) (a12 : Area.hbm ∈ A) (a13 : Area.ctxs ∈ A) (a14 : Area.rot ∈ A) (a15 : Area.beyjo ∈ A) (a16 : Area.flt ∈ A) (a17 : Area.agFlt ∈ A) (a18 : Area.rst ∈ A) (a19 : Area.pair ∈ A) (a20 : Area.boot ∈ A) (a21 : Area.pwr ∈ A) (a22 : Area.out ∈ A) (a23 : Area.freeCtr ∈ A) {s₀ s : State}  (h₀ : Within A s₀ s) :
    Out.within A s₀ (execPolicyWaitExpiry s) := by
  unfold execPolicyWaitExpiry
  show Within A s₀ _
  repeat' first | with_reducible exact fun _ k => k | with_reducible assumption | with_reducible apply State.decide1_within

theorem execReactionWindowEnd_within {A : List Area} (a0 : Area.flt ∈ A) (a1 : Area.agFlt ∈ A) {s₀ s : State} (serial : Nat) (h₀ : Within A s₀ s) :
    Out.within A s₀ (execReactionWindowEnd serial s) := by
  unfold execReactionWindowEnd
  show Within A s₀ _
  repeat' first | (extract_lets +onlyGivenNames x; revert x; with_reducible first | apply Within.letS A s₀ | apply Within.letQ A s₀ | apply Within.letP A s₀ | apply Within.letF A s₀ | apply Within.letK A s₀ | apply Within.letG A s₀ | apply Within.letF1x A s₀ | apply Within.letH A s₀ | apply Within.letV) | intro _ | with_reducible assumption | with_reducible apply Within.ite | with_reducible apply State.setFlt_within | split | with_reducible apply_assumption

theorem State.nameReaction_within {A : List Area} (a0 : Area.flt ∈ A) (a1 : Area.agFlt ∈ A) (a2 : Area.rst ∈ A) {s₀ s : State} (kind die item serial : Nat) (h₀ : Within A s₀ s) :
    Within A s₀ (State.nameReaction s kind die item serial) := by
  unfold State.nameReaction
  repeat' first | (extract_lets +onlyGivenNames x; revert x; with_reducible first | apply Within.letS A s₀ | apply Within.letQ A s₀ | apply Within.letP A s₀ | apply Within.letF A s₀ | apply Within.letK A s₀ | apply Within.letG A s₀ | apply Within.letF1x A s₀ | apply Within.letH A s₀ | apply Within.letV) | intro _ | with_reducible assumption | with_reducible apply Within.ite | with_reducible apply State.setFlt_within | with_reducible apply State.setRst_within | split | with_reducible apply_assumption

theorem State.reactTo_within {A : List Area} (a0 : Area.regs ∈ A) (a1 : Area.aregs ∈ A) (a2 : Area.time ∈ A) (a3 : Area.agTime ∈ A) (a4 : Area.ports ∈ A) (a5 : Area.agPorts ∈ A) (a6 : Area.replays ∈ A) (a7 : Area.route ∈ A) (a8 : Area.ttbs ∈ A) (a9 : Area.agents ∈ A) (a10 : Area.insts ∈ A) (a11 : Area.tile ∈ A) (a12 : Area.hbm ∈ A) (a13 : Area.ctxs ∈ A) (a14 : Area.rot ∈ A) (a15 : Area.beyjo ∈ A) (a16 : Area.flt ∈ A) (a17 : Area.agFlt ∈ A) (a18 : Area.rst ∈ A) (a19 : Area.pair ∈ A) (a20 : Area.boot ∈ A) (a21 : Area.pwr ∈ A) (a22 : Area.out ∈ A) (a23 : Area.freeCtr ∈ A) {s₀ s : State} (e : Event) (h₀ : Within A s₀ s) :
    Within A s₀ (State.reactTo s e) := by
  unfold State.reactTo
  repeat' first | with_reducible exact fun _ k => k | (extract_lets +onlyGivenNames x; revert x; with_reducible first | apply Within.letS A s₀ | apply Within.letQ A s₀ | apply Within.letP A s₀ | apply Within.letV) | intro _ | with_reducible assumption | with_reducible apply Within.ite | with_reducible apply State.nameReaction_within | with_reducible apply State.setFlt_within | with_reducible apply State.runReaction_within | with_reducible apply State.startReaction_within | split | with_reducible apply_assumption

theorem State.agReactTo_within {A : List Area} (a0 : Area.regs ∈ A) (a1 : Area.aregs ∈ A) (a2 : Area.agTime ∈ A) (a3 : Area.ports ∈ A) (a4 : Area.agPorts ∈ A) (a5 : Area.route ∈ A) (a6 : Area.flt ∈ A) (a7 : Area.agFlt ∈ A) (a8 : Area.pair ∈ A) (a9 : Area.boot ∈ A) (a10 : Area.out ∈ A) {s₀ s : State} (e : Event) (h₀ : Within A s₀ s) :
    Within A s₀ (State.agReactTo s e) := by
  unfold State.agReactTo
  repeat' first | with_reducible exact fun _ k => k | (extract_lets +onlyGivenNames x; revert x; with_reducible first | apply Within.letS A s₀ | apply Within.letQ A s₀ | apply Within.letP A s₀ | apply Within.letV) | intro _ | with_reducible assumption | with_reducible apply Within.ite | with_reducible apply State.setFlt_within | with_reducible apply State.setAgTime_within | with_reducible apply State.retrainPort_within | split | with_reducible apply_assumption

theorem State.logEvent_within {A : List Area} (a0 : Area.regs ∈ A) (a1 : Area.aregs ∈ A) (a2 : Area.flt ∈ A) (a3 : Area.agFlt ∈ A) {s₀ s : State} (d : Site) (e : Event) (h₀ : Within A s₀ s) :
    Within A s₀ (State.logEvent s d e) := by
  unfold State.logEvent
  repeat' first | (extract_lets +onlyGivenNames x; revert x; with_reducible first | apply Within.letS A s₀ | apply Within.letQ A s₀ | apply Within.letP A s₀ | apply Within.letV) | intro _ | with_reducible assumption | with_reducible apply Within.ite | with_reducible apply State.setFlt_within | with_reducible apply State.wrS_within | with_reducible apply State.bumpS_within | with_reducible apply State.detect_within | split | with_reducible apply_assumption

theorem State.record_within {A : List Area} (a0 : Area.regs ∈ A) (a1 : Area.aregs ∈ A) (a2 : Area.time ∈ A) (a3 : Area.agTime ∈ A) (a4 : Area.ports ∈ A) (a5 : Area.agPorts ∈ A) (a6 : Area.replays ∈ A) (a7 : Area.route ∈ A) (a8 : Area.ttbs ∈ A) (a9 : Area.agents ∈ A) (a10 : Area.insts ∈ A) (a11 : Area.tile ∈ A) (a12 : Area.hbm ∈ A) (a13 : Area.ctxs ∈ A) (a14 : Area.rot ∈ A) (a15 : Area.beyjo ∈ A) (a16 : Area.flt ∈ A) (a17 : Area.agFlt ∈ A) (a18 : Area.rst ∈ A) (a19 : Area.pair ∈ A) (a20 : Area.boot ∈ A) (a21 : Area.pwr ∈ A) (a22 : Area.out ∈ A) (a23 : Area.freeCtr ∈ A) {s₀ s : State} (d : Site) (e : Event) (h₀ : Within A s₀ s) :
    Within A s₀ (State.record s d e) := by
  unfold State.record
  repeat' first | with_reducible exact fun _ k => k | (extract_lets +onlyGivenNames x; revert x; with_reducible first | apply Within.letS A s₀ | apply Within.letQ A s₀ | apply Within.letP A s₀ | apply Within.letV) | intro _ | with_reducible assumption | with_reducible apply Within.ite | with_reducible apply State.setFlt_within | with_reducible apply State.logEvent_within | with_reducible apply State.bumpS_within | with_reducible apply State.notifyT_within | with_reducible apply State.reactTo_within | with_reducible apply State.send_within | with_reducible apply State.agReactTo_within | split | with_reducible apply_assumption

theorem execEventDecide_within {A : List Area} (a0 : Area.regs ∈ A) (a1 : Area.aregs ∈ A) (a2 : Area.time ∈ A) (a3 : Area.agTime ∈ A) (a4 : Area.ports ∈ A) (a5 : Area.agPorts ∈ A) (a6 : Area.replays ∈ A) (a7 : Area.route ∈ A) (a8 : Area.ttbs ∈ A) (a9 : Area.agents ∈ A) (a10 : Area.insts ∈ A) (a11 : Area.tile ∈ A) (a12 : Area.hbm ∈ A) (a13 : Area.ctxs ∈ A) (a14 : Area.rot ∈ A) (a15 : Area.beyjo ∈ A) (a16 : Area.flt ∈ A) (a17 : Area.agFlt ∈ A) (a18 : Area.rst ∈ A) (a19 : Area.pair ∈ A) (a20 : Area.boot ∈ A) (a21 : Area.pwr ∈ A) (a22 : Area.out ∈ A) (a23 : Area.freeCtr ∈ A) {s₀ s : State} (site : Site) (stamp : Nat) (h₀ : Within A s₀ s) :
    Out.within A s₀ (execEventDecide site stamp s) := by
  unfold execEventDecide
  show Within A s₀ _
  repeat' first | with_reducible exact fun _ k => k | (extract_lets +onlyGivenNames x; revert x; with_reducible first | apply Within.letS A s₀ | apply Within.letQ A s₀ | apply Within.letP A s₀ | apply Within.letV) | intro _ | with_reducible assumption | with_reducible apply Within.foldl | with_reducible apply State.setFlt_within | with_reducible apply State.record_within | with_reducible apply_assumption

theorem State.clearFaults_within {A : List Area} (a0 : Area.flt ∈ A) (a1 : Area.agFlt ∈ A) {s₀ s : State} (d : Site) (pg m : Nat) (h₀ : Within A s₀ s) :
    Within A s₀ (State.clearFaults s d pg m) := by
  unfold State.clearFaults
  repeat' first | (extract_lets +onlyGivenNames x; revert x; with_reducible first | apply Within.letS A s₀ | apply Within.letQ A s₀ | apply Within.letP A s₀ | apply Within.letF A s₀ | apply Within.letK A s₀ | apply Within.letG A s₀ | apply Within.letF1x A s₀ | apply Within.letH A s₀ | apply Within.letV) | intro _ | with_reducible assumption | with_reducible apply Within.ite | with_reducible apply State.setFlt_within | split | with_reducible apply_assumption

theorem execPgFaultClear_within {A : List Area} (a0 : Area.flt ∈ A) (a1 : Area.agFlt ∈ A) {s₀ s : State} (site : Site) (page : Nat) (mask : Word) (h₀ : Within A s₀ s) :
    Out.within A s₀ (execPgFaultClear site page mask s) := by
  unfold execPgFaultClear
  show Within A s₀ _
  repeat' first | with_reducible assumption | with_reducible apply State.clearFaults_within

theorem State.clearFirst_within {A : List Area} (a0 : Area.flt ∈ A) (a1 : Area.agFlt ∈ A) {s₀ s : State} (d : Site) (h₀ : Within A s₀ s) :
    Within A s₀ (State.clearFirst s d) := by
  unfold State.clearFirst
  repeat' first | intro _ | with_reducible assumption | with_reducible apply State.setFlt_within

theorem execFltClearFirst_within {A : List Area} (a0 : Area.flt ∈ A) (a1 : Area.agFlt ∈ A) {s₀ s : State} (site : Site) (h₀ : Within A s₀ s) :
    Out.within A s₀ (execFltClearFirst site s) := by
  unfold execFltClearFirst
  show Within A s₀ _
  repeat' first | with_reducible assumption | with_reducible apply State.clearFirst_within

theorem State.clearLog_within {A : List Area} (a0 : Area.regs ∈ A) (a1 : Area.aregs ∈ A) (a2 : Area.flt ∈ A) (a3 : Area.agFlt ∈ A) {s₀ s : State} (d : Site) (h₀ : Within A s₀ s) :
    Within A s₀ (State.clearLog s d) := by
  unfold State.clearLog
  repeat' first | intro _ | with_reducible assumption | with_reducible apply State.setFlt_within | with_reducible apply State.wrS_within

theorem execFltClearLog_within {A : List Area} (a0 : Area.regs ∈ A) (a1 : Area.aregs ∈ A) (a2 : Area.flt ∈ A) (a3 : Area.agFlt ∈ A) {s₀ s : State} (site : Site) (h₀ : Within A s₀ s) :
    Out.within A s₀ (execFltClearLog site s) := by
  unfold execFltClearLog
  show Within A s₀ _
  repeat' first | with_reducible assumption | with_reducible apply State.clearLog_within

theorem State.clearDll_within {A : List Area} (a0 : Area.regs ∈ A) (a1 : Area.aregs ∈ A) (a2 : Area.flt ∈ A) (a3 : Area.agFlt ∈ A) {s₀ s : State} (d : Site) (die : Nat) (h₀ : Within A s₀ s) :
    Within A s₀ (State.clearDll s d die) := by
  unfold State.clearDll
  repeat' first | (extract_lets +onlyGivenNames x; revert x; with_reducible first | apply Within.letS A s₀ | apply Within.letQ A s₀ | apply Within.letP A s₀ | apply Within.letV) | intro _ | with_reducible assumption | with_reducible apply Within.ite | with_reducible apply State.setFlt_within | with_reducible apply State.wrS_within | split | with_reducible apply_assumption

theorem execFltDllClear_within {A : List Area} (a0 : Area.regs ∈ A) (a1 : Area.aregs ∈ A) (a2 : Area.flt ∈ A) (a3 : Area.agFlt ∈ A) {s₀ s : State} (die : Nat) (h₀ : Within A s₀ s) :
    Out.within A s₀ (execFltDllClear die s) := by
  unfold execFltDllClear
  show Within A s₀ _
  repeat' first | with_reducible assumption | with_reducible apply Within.ite | with_reducible apply State.clearDll_within | split

theorem State.clearFatal_within {A : List Area} (a0 : Area.flt ∈ A) (a1 : Area.agFlt ∈ A) {s₀ s : State} (dies : List Nat) (h₀ : Within A s₀ s) :
    Within A s₀ (State.clearFatal s dies) := by
  unfold State.clearFatal
  repeat' first | (extract_lets +onlyGivenNames x; revert x; with_reducible first | apply Within.letS A s₀ | apply Within.letQ A s₀ | apply Within.letP A s₀ | apply Within.letV) | intro _ | with_reducible assumption | with_reducible apply Within.ite | with_reducible apply State.setFlt_within | split | with_reducible apply_assumption

theorem State.jigOff_within {A : List Area} (a0 : Area.regs ∈ A) (a1 : Area.aregs ∈ A) (a2 : Area.flt ∈ A) (a3 : Area.agFlt ∈ A) {s₀ s : State} (d : Site) (h₀ : Within A s₀ s) :
    Within A s₀ (State.jigOff s d) := by
  unfold State.jigOff
  repeat' first | with_reducible exact fun k => filter_sorted k _ | (extract_lets +onlyGivenNames x; revert x; with_reducible first | apply Within.letS A s₀ | apply Within.letQ A s₀ | apply Within.letP A s₀ | apply Within.letF A s₀ | apply Within.letK A s₀ | apply Within.letG A s₀ | apply Within.letF1x A s₀ | apply Within.letH A s₀ | apply Within.letV) | intro _ | with_reducible assumption | with_reducible apply State.wrS_within | with_reducible apply State.setFlt_within | split | with_reducible apply Within.regs | with_reducible apply Within.aregs | with_reducible apply_assumption

theorem State.jigArm_within {A : List Area} (a0 : Area.regs ∈ A) (a1 : Area.aregs ∈ A) (a2 : Area.flt ∈ A) (a3 : Area.agFlt ∈ A) {s₀ s : State} (d : Site) (v : Nat) (h₀ : Within A s₀ s) :
    Within A s₀ (State.jigArm s d v) := by
  unfold State.jigArm
  repeat' first | (extract_lets +onlyGivenNames x; revert x; with_reducible first | apply Within.letS A s₀ | apply Within.letQ A s₀ | apply Within.letP A s₀ | apply Within.letV) | intro _ | with_reducible assumption | with_reducible apply Within.ite | with_reducible apply State.wrS_within | with_reducible apply State.jigOff_within | split | with_reducible apply_assumption

theorem execJigArmWrite_within {A : List Area} (a0 : Area.regs ∈ A) (a1 : Area.aregs ∈ A) (a2 : Area.flt ∈ A) (a3 : Area.agFlt ∈ A) {s₀ s : State} (site : Site) (value : Word) (h₀ : Within A s₀ s) :
    Out.within A s₀ (execJigArmWrite site value s) := by
  unfold execJigArmWrite
  show Within A s₀ _
  repeat' first | with_reducible assumption | with_reducible apply State.jigArm_within

theorem execJigArmTimeout_within {A : List Area} (a0 : Area.regs ∈ A) (a1 : Area.aregs ∈ A) (a2 : Area.flt ∈ A) (a3 : Area.agFlt ∈ A) {s₀ s : State} (site : Site) (h₀ : Within A s₀ s) :
    Out.within A s₀ (execJigArmTimeout site s) := by
  unfold execJigArmTimeout
  show Within A s₀ _
  repeat' first | with_reducible assumption | with_reducible apply Within.ite | with_reducible apply State.jigOff_within | split

theorem State.jigGo_within {A : List Area} (a0 : Area.regs ∈ A) (a1 : Area.aregs ∈ A) (a2 : Area.flt ∈ A) (a3 : Area.agFlt ∈ A) {s₀ s : State} (d : Site) (pg : Nat) (h₀ : Within A s₀ s) :
    Within A s₀ (State.jigGo s d pg) := by
  unfold State.jigGo
  repeat' first | (extract_lets +onlyGivenNames x; revert x; with_reducible first | apply Within.letS A s₀ | apply Within.letQ A s₀ | apply Within.letP A s₀ | apply Within.letV) | intro _ | with_reducible assumption | with_reducible apply Within.ite | with_reducible apply State.wrS_within | with_reducible apply State.bumpS_within | with_reducible apply State.setFlt_within | split | with_reducible apply_assumption

theorem execPgJigGo_within {A : List Area} (a0 : Area.regs ∈ A) (a1 : Area.aregs ∈ A) (a2 : Area.flt ∈ A) (a3 : Area.agFlt ∈ A) {s₀ s : State} (site : Site) (page : Nat) (h₀ : Within A s₀ s) :
    Out.within A s₀ (execPgJigGo site page s) := by
  unfold execPgJigGo
  show Within A s₀ _
  repeat' first | with_reducible assumption | with_reducible apply State.jigGo_within

theorem State.jigFire_within {A : List Area} (a0 : Area.regs ∈ A) (a1 : Area.aregs ∈ A) (a2 : Area.flt ∈ A) (a3 : Area.agFlt ∈ A) {s₀ s : State} (d : Site) (x : Nat) (h₀ : Within A s₀ s) :
    Within A s₀ (State.jigFire s d x).2 := by
  unfold State.jigFire
  repeat' first | (extract_lets +onlyGivenNames x; revert x; with_reducible first | apply Within.letS A s₀ | apply Within.letQ A s₀ | apply Within.letP A s₀ | apply Within.letV) | intro _ | with_reducible assumption | with_reducible apply Within.ite | with_reducible apply State.setFlt_within | with_reducible apply State.wrS_within | with_reducible apply State.bumpS_within | split | with_reducible apply_assumption

theorem State.injectAct_within {A : List Area} (a0 : Area.regs ∈ A) (a1 : Area.aregs ∈ A) (a2 : Area.time ∈ A) (a3 : Area.agTime ∈ A) (a4 : Area.ports ∈ A) (a5 : Area.agPorts ∈ A) (a6 : Area.replays ∈ A) (a7 : Area.route ∈ A) (a8 : Area.ttbs ∈ A) (a9 : Area.agents ∈ A) (a10 : Area.insts ∈ A) (a11 : Area.tile ∈ A) (a12 : Area.hbm ∈ A) (a13 : Area.ctxs ∈ A) (a14 : Area.rot ∈ A) (a15 : Area.beyjo ∈ A) (a16 : Area.flt ∈ A) (a17 : Area.agFlt ∈ A) (a18 : Area.rst ∈ A) (a19 : Area.pair ∈ A) (a20 : Area.boot ∈ A) (a21 : Area.pwr ∈ A) (a22 : Area.out ∈ A) (a23 : Area.freeCtr ∈ A) {s₀ s : State} (x detail : Nat) (h₀ : Within A s₀ s) :
    Within A s₀ (State.injectAct s x detail) := by
  unfold State.injectAct
  repeat' first | with_reducible exact fun _ k => k | with_reducible assumption | with_reducible apply Within.ite | with_reducible apply State.linkDown_within | with_reducible apply State.groupOut_within | with_reducible apply execTtbVoid_within | with_reducible apply Out.after_within | with_reducible apply State.tileFail_within | with_reducible apply State.wr_within | with_reducible apply State.detect_within | with_reducible apply State.tamper_within | with_reducible apply execWatchdogHang_within | with_reducible apply State.thermalTrip_within | split

theorem State.injectedDetect_within {A : List Area} (a0 : Area.regs ∈ A) (a1 : Area.aregs ∈ A) (a2 : Area.time ∈ A) (a3 : Area.agTime ∈ A) (a4 : Area.ports ∈ A) (a5 : Area.agPorts ∈ A) (a6 : Area.replays ∈ A) (a7 : Area.route ∈ A) (a8 : Area.ttbs ∈ A) (a9 : Area.agents ∈ A) (a10 : Area.insts ∈ A) (a11 : Area.tile ∈ A) (a12 : Area.hbm ∈ A) (a13 : Area.ctxs ∈ A) (a14 : Area.rot ∈ A) (a15 : Area.beyjo ∈ A) (a16 : Area.flt ∈ A) (a17 : Area.agFlt ∈ A) (a18 : Area.rst ∈ A) (a19 : Area.pair ∈ A) (a20 : Area.boot ∈ A) (a21 : Area.pwr ∈ A) (a22 : Area.out ∈ A) (a23 : Area.freeCtr ∈ A) {s₀ s : State} (source stamp detail : Nat) (ctx : Option Nat) (h₀ : Within A s₀ s) :
    Within A s₀ (State.injectedDetect s source stamp detail ctx) := by
  unfold State.injectedDetect
  repeat' first | with_reducible exact fun _ k => k | (extract_lets +onlyGivenNames x; revert x; with_reducible first | apply Within.letS A s₀ | apply Within.letQ A s₀ | apply Within.letP A s₀ | apply Within.letF A s₀ | apply Within.letK A s₀ | apply Within.letG A s₀ | apply Within.letF1x A s₀ | apply Within.letH A s₀ | apply Within.letV) | intro _ | with_reducible assumption | with_reducible apply Within.ite | with_reducible apply State.injectAct_within | with_reducible apply State.drop_within | with_reducible apply State.setFlt_within | with_reducible apply State.detectAt_within | split | with_reducible apply_assumption

theorem execDetectorEvent_within {A : List Area} (a0 : Area.regs ∈ A) (a1 : Area.aregs ∈ A) (a2 : Area.time ∈ A) (a3 : Area.agTime ∈ A) (a4 : Area.ports ∈ A) (a5 : Area.agPorts ∈ A) (a6 : Area.replays ∈ A) (a7 : Area.route ∈ A) (a8 : Area.ttbs ∈ A) (a9 : Area.agents ∈ A) (a10 : Area.insts ∈ A) (a11 : Area.tile ∈ A) (a12 : Area.hbm ∈ A) (a13 : Area.ctxs ∈ A) (a14 : Area.rot ∈ A) (a15 : Area.beyjo ∈ A) (a16 : Area.flt ∈ A) (a17 : Area.agFlt ∈ A) (a18 : Area.rst ∈ A) (a19 : Area.pair ∈ A) (a20 : Area.boot ∈ A) (a21 : Area.pwr ∈ A) (a22 : Area.out ∈ A) (a23 : Area.freeCtr ∈ A) {s₀ s : State} (site : Site) (source stamp detail : Nat) (ctx : Option Nat) (h₀ : Within A s₀ s) :
    Out.within A s₀ (execDetectorEvent site source stamp detail ctx s) := by
  unfold execDetectorEvent
  show Within A s₀ _
  repeat' first | with_reducible exact fun _ k => k | (extract_lets +onlyGivenNames x; revert x; with_reducible first | apply Within.letS A s₀ | apply Within.letQ A s₀ | apply Within.letP A s₀ | apply Within.letV) | intro _ | with_reducible assumption | with_reducible apply Within.ite | with_reducible apply State.jigFire_within | with_reducible apply State.injectedDetect_within | with_reducible apply State.detectAt_within | split | with_reducible apply_assumption

end Sys2Proof.Machine
end

