-- ==== Sys2Proof/Laws/RemapWithin.lean ====
section
/-! SUPPORT. The parts of the state that the definitions of Machine/Remap.lean reach. -/

set_option linter.unreachableTactic false
set_option linter.unusedTactic false

namespace Sys2Proof.Machine

theorem State.nextReset_within {A : List Area} (a0 : Area.regs ∈ A) (a1 : Area.aregs ∈ A) (a2 : Area.time ∈ A) (a3 : Area.agTime ∈ A) (a4 : Area.ports ∈ A) (a5 : Area.agPorts ∈ A) (a6 : Area.replays ∈ A) (a7 : Area.route ∈ A) (a8 : Area.ttbs ∈ A) (a9 : Area.agents ∈ A) (a10 : Area.insts ∈ A) (a11 : Area.tile ∈ A) (a12 : Area.hbm ∈ A) (a13 : Area.ctxs ∈ A) (a14 : Area.rot ∈ A) (a15 : Area.beyjo ∈ A) (a16 : Area.flt ∈ A) (a17 : Area.agFlt ∈ A) (a18 : Area.rst ∈ A) (a19 : Area.pair ∈ A) (a20 : Area.boot ∈ A) (a21 : Area.pwr ∈ A) (a22 : Area.out ∈ A) (a23 : Area.freeCtr ∈ A) {s₀ s : State}  (h₀ : Within A s₀ s) :
    Within A s₀ (State.nextReset s) := by
  unfold State.nextReset
  repeat' first | with_reducible exact fun _ k => k | intro _ | with_reducible assumption | with_reducible apply State.setRst_within | with_reducible apply State.wr_within | with_reducible apply State.beginReset_within | split

theorem State.splitCheck_within {A : List Area} (a0 : Area.hbm ∈ A) (a1 : Area.ctxs ∈ A) (a2 : Area.flt ∈ A) (a3 : Area.agFlt ∈ A) {s₀ s : State}  (h₀ : Within A s₀ s) :
    Within A s₀ (State.splitCheck s) := by
  unfold State.splitCheck
  repeat' first | with_reducible exact fun _ k => k | intro _ | with_reducible assumption | with_reducible apply Within.ite | with_reducible apply Within.foldl | with_reducible apply Within.foldlPair | with_reducible apply State.setCtx_within | with_reducible apply State.setHbm_within | with_reducible apply State.detect_within | split

theorem State.computeDone_within {A : List Area} (a0 : Area.regs ∈ A) (a1 : Area.hbm ∈ A) (a2 : Area.ctxs ∈ A) (a3 : Area.rot ∈ A) (a4 : Area.flt ∈ A) (a5 : Area.agFlt ∈ A) (a6 : Area.boot ∈ A) {s₀ s : State}  (h₀ : Within A s₀ s) :
    Within A s₀ (State.computeDone s) := by
  unfold State.computeDone
  repeat' first | with_reducible exact fun _ k => k | (extract_lets +onlyGivenNames x; revert x; with_reducible first | apply Within.letS A s₀ | apply Within.letQ A s₀ | apply Within.letP A s₀ | apply Within.letV) | intro _ | with_reducible assumption | with_reducible apply Within.ite | with_reducible apply Within.foldl | with_reducible apply State.wr_within | with_reducible apply State.reload_within | with_reducible apply State.measureAll_within | with_reducible apply State.newAk_within | with_reducible apply State.showUpdate_within | with_reducible apply State.showImages_within | with_reducible apply State.setCtx_within | with_reducible apply State.seqBroadcast_within | with_reducible apply State.splitCheck_within | split | with_reducible apply_assumption

theorem State.xdieDone_within {A : List Area} (a0 : Area.regs ∈ A) (a1 : Area.aregs ∈ A) (a2 : Area.ports ∈ A) (a3 : Area.agPorts ∈ A) (a4 : Area.route ∈ A) (a5 : Area.rot ∈ A) (a6 : Area.flt ∈ A) (a7 : Area.agFlt ∈ A) (a8 : Area.pair ∈ A) (a9 : Area.boot ∈ A) (a10 : Area.out ∈ A) {s₀ s : State} (die : Nat) (h₀ : Within A s₀ s) :
    Within A s₀ (State.xdieDone s die) := by
  unfold State.xdieDone
  repeat' first | with_reducible exact fun _ k => k | (extract_lets +onlyGivenNames x; revert x; with_reducible first | apply Within.letS A s₀ | apply Within.letQ A s₀ | apply Within.letP A s₀ | apply Within.letV) | intro _ | with_reducible assumption | with_reducible apply Within.ite | with_reducible apply Within.foldl | with_reducible apply State.startAttempt_within | with_reducible apply State.reload_within | with_reducible apply State.measureAll_within | with_reducible apply State.newAk_within | with_reducible apply State.showUpdate_within | with_reducible apply State.showImages_within | with_reducible apply State.flipRecovery_within | split | with_reducible apply_assumption

theorem State.resetOk_within {A : List Area} (a0 : Area.regs ∈ A) (a1 : Area.aregs ∈ A) (a2 : Area.time ∈ A) (a3 : Area.agTime ∈ A) (a4 : Area.ports ∈ A) (a5 : Area.agPorts ∈ A) (a6 : Area.replays ∈ A) (a7 : Area.route ∈ A) (a8 : Area.ttbs ∈ A) (a9 : Area.agents ∈ A) (a10 : Area.insts ∈ A) (a11 : Area.tile ∈ A) (a12 : Area.hbm ∈ A) (a13 : Area.ctxs ∈ A) (a14 : Area.rot ∈ A) (a15 : Area.beyjo ∈ A) (a16 : Area.flt ∈ A) (a17 : Area.agFlt ∈ A) (a18 : Area.rst ∈ A) (a19 : Area.pair ∈ A) (a20 : Area.boot ∈ A) (a21 : Area.pwr ∈ A) (a22 : Area.out ∈ A) (a23 : Area.freeCtr ∈ A) {s₀ s : State} (q : ResetReq) (us : Nat) (h₀ : Within A s₀ s) :
    Within A s₀ (State.resetOk s q us) := by
  unfold State.resetOk
  repeat' first | with_reducible exact fun _ k => k | (extract_lets +onlyGivenNames x; revert x; with_reducible first | apply Within.letS A s₀ | apply Within.letQ A s₀ | apply Within.letP A s₀ | apply Within.letF A s₀ | apply Within.letK A s₀ | apply Within.letG A s₀ | apply Within.letF1x A s₀ | apply Within.letH A s₀ | apply Within.letV) | intro _ | with_reducible assumption | with_reducible apply Within.ite | with_reducible apply Within.foldl | with_reducible apply State.wr_within | with_reducible apply State.setRst_within | with_reducible apply State.edgesUp_within | with_reducible apply State.computeDone_within | with_reducible apply State.xdieDone_within | with_reducible apply State.clearFatal_within | with_reducible apply State.reloadKeys_within | with_reducible apply State.runWaiting_within | with_reducible apply State.reactionDone_within | with_reducible apply State.nextReset_within | split | with_reducible apply_assumption

theorem State.resetFails_within {A : List Area} (a0 : Area.regs ∈ A) (a1 : Area.aregs ∈ A) (a2 : Area.time ∈ A) (a3 : Area.agTime ∈ A) (a4 : Area.ports ∈ A) (a5 : Area.agPorts ∈ A) (a6 : Area.replays ∈ A) (a7 : Area.route ∈ A) (a8 : Area.ttbs ∈ A) (a9 : Area.agents ∈ A) (a10 : Area.insts ∈ A) (a11 : Area.tile ∈ A) (a12 : Area.hbm ∈ A) (a13 : Area.ctxs ∈ A) (a14 : Area.rot ∈ A) (a15 : Area.beyjo ∈ A) (a16 : Area.flt ∈ A) (a17 : Area.agFlt ∈ A) (a18 : Area.rst ∈ A) (a19 : Area.pair ∈ A) (a20 : Area.boot ∈ A) (a21 : Area.pwr ∈ A) (a22 : Area.out ∈ A) (a23 : Area.freeCtr ∈ A) {s₀ s : State} (q : ResetReq) (h₀ : Within A s₀ s) :
    Within A s₀ (State.resetFails s q) := by
  unfold State.resetFails
  repeat' first | with_reducible exact fun _ k => k | (extract_lets +onlyGivenNames x; revert x; with_reducible first | apply Within.letS A s₀ | apply Within.letQ A s₀ | apply Within.letP A s₀ | apply Within.letV) | intro _ | with_reducible assumption | with_reducible apply Within.ite | with_reducible apply State.detect_within | with_reducible apply State.setFlt_within | with_reducible apply State.beginReset_within | with_reducible apply State.setRst_within | with_reducible apply State.wr_within | split | with_reducible apply_assumption

theorem execResetComplete_within {A : List Area} (a0 : Area.regs ∈ A) (a1 : Area.aregs ∈ A) (a2 : Area.time ∈ A) (a3 : Area.agTime ∈ A) (a4 : Area.ports ∈ A) (a5 : Area.agPorts ∈ A) (a6 : Area.replays ∈ A) (a7 : Area.route ∈ A) (a8 : Area.ttbs ∈ A) (a9 : Area.agents ∈ A) (a10 : Area.insts ∈ A) (a11 : Area.tile ∈ A) (a12 : Area.hbm ∈ A) (a13 : Area.ctxs ∈ A) (a14 : Area.rot ∈ A) (a15 : Area.beyjo ∈ A) (a16 : Area.flt ∈ A) (a17 : Area.agFlt ∈ A) (a18 : Area.rst ∈ A) (a19 : Area.pair ∈ A) (a20 : Area.boot ∈ A) (a21 : Area.pwr ∈ A) (a22 : Area.out ∈ A) (a23 : Area.freeCtr ∈ A) {s₀ s : State} (checkOk : Bool) (us : Nat) (h₀ : Within A s₀ s) :
    Out.within A s₀ (execResetComplete checkOk us s) := by
  unfold execResetComplete
  show Within A s₀ _
  repeat' first | with_reducible exact fun _ k => k | with_reducible assumption | with_reducible apply Within.ite | with_reducible apply State.resetOk_within | with_reducible apply State.resetFails_within | split

theorem State.streamBeat_within {A : List Area} (a0 : Area.regs ∈ A) (a1 : Area.aregs ∈ A) (a2 : Area.ports ∈ A) (a3 : Area.agPorts ∈ A) (a4 : Area.flt ∈ A) (a5 : Area.agFlt ∈ A) (a6 : Area.rst ∈ A) (a7 : Area.out ∈ A) {s₀ s : State}  (h₀ : Within A s₀ s) :
    Within A s₀ (State.streamBeat s) := by
  unfold State.streamBeat
  repeat' first | (extract_lets +onlyGivenNames x; revert x; with_reducible first | apply Within.letS A s₀ | apply Within.letQ A s₀ | apply Within.letP A s₀ | apply Within.letV) | intro _ | with_reducible assumption | with_reducible apply Within.ite | with_reducible apply Within.foldl | with_reducible apply Within.foldlPair | with_reducible apply State.setRst_within | with_reducible apply State.drop_within | with_reducible apply State.send_within | with_reducible apply State.bump_within | split | with_reducible apply_assumption

theorem State.setRemap_within {A : List Area} (a0 : Area.rst ∈ A) {s₀ s : State} (c lid : Nat) (f : Remap → Remap) (h₀ : Within A s₀ s) :
    Within A s₀ (State.setRemap s c lid f) := by
  unfold State.setRemap
  repeat' first | intro _ | with_reducible assumption | with_reducible apply Within.ite | with_reducible apply State.setRst_within | split

theorem State.dropRemap_within {A : List Area} (a0 : Area.rst ∈ A) {s₀ s : State} (c lid : Nat) (h₀ : Within A s₀ s) :
    Within A s₀ (State.dropRemap s c lid) := by
  unfold State.dropRemap
  repeat' first | intro _ | with_reducible assumption | with_reducible apply State.setRst_within

theorem State.showRemap_within {A : List Area} (a0 : Area.regs ∈ A) {s₀ s : State} (c lid phase : Nat) (spare : Option Nat) (h₀ : Within A s₀ s) :
    Within A s₀ (State.showRemap s c lid phase spare) := by
  unfold State.showRemap
  repeat' first | with_reducible assumption | with_reducible apply State.wr_within

theorem State.remapFails_within {A : List Area} (a0 : Area.regs ∈ A) (a1 : Area.tile ∈ A) (a2 : Area.beyjo ∈ A) {s₀ s : State} (mail : Option (Nat × Nat)) (code : Nat) (words : List Nat) (h₀ : Within A s₀ s) :
    Within A s₀ (State.remapFails s mail code words) := by
  unfold State.remapFails
  repeat' first | with_reducible exact fun _ k => k | (extract_lets +onlyGivenNames x; revert x; with_reducible first | apply Within.letS A s₀ | apply Within.letQ A s₀ | apply Within.letP A s₀ | apply Within.letV) | intro _ | with_reducible assumption | with_reducible apply State.wr_within | with_reducible apply State.mailReject_within | split | with_reducible apply_assumption

theorem State.remapWith_within {A : List Area} (a0 : Area.regs ∈ A) (a1 : Area.aregs ∈ A) (a2 : Area.ports ∈ A) (a3 : Area.agPorts ∈ A) (a4 : Area.route ∈ A) (a5 : Area.ttbs ∈ A) (a6 : Area.tile ∈ A) (a7 : Area.ctxs ∈ A) (a8 : Area.rot ∈ A) (a9 : Area.beyjo ∈ A) (a10 : Area.flt ∈ A) (a11 : Area.agFlt ∈ A) (a12 : Area.rst ∈ A) (a13 : Area.pair ∈ A) (a14 : Area.out ∈ A) (a15 : Area.freeCtr ∈ A) {s₀ s : State} (c lid f : Nat) (mail : Option (Nat × Nat)) (auto : Bool) (h₀ : Within A s₀ s) :
    Within A s₀ (State.remapWith s c lid f mail auto) := by
  unfold State.remapWith
  repeat' first | with_reducible exact fun _ k => k | (extract_lets +onlyGivenNames x; revert x; with_reducible first | apply Within.letS A s₀ | apply Within.letQ A s₀ | apply Within.letP A s₀ | apply Within.letV) | intro _ | with_reducible assumption | with_reducible apply Within.ite | with_reducible apply State.replayFailure_within | with_reducible apply State.showRemap_within | with_reducible apply State.remapFails_within | with_reducible apply State.setCtx_within | with_reducible apply State.bump_within | with_reducible apply State.wr_within | with_reducible apply State.dropRemap_within | with_reducible apply State.setRst_within | with_reducible apply State.setRoute_within | with_reducible apply State.dueGen_within | with_reducible apply State.redeliver_within | with_reducible apply State.setRemap_within | with_reducible apply State.requestFlip_within | split | with_reducible apply_assumption

theorem State.remapStart_within {A : List Area} (a0 : Area.regs ∈ A) (a1 : Area.aregs ∈ A) (a2 : Area.ports ∈ A) (a3 : Area.agPorts ∈ A) (a4 : Area.route ∈ A) (a5 : Area.ttbs ∈ A) (a6 : Area.tile ∈ A) (a7 : Area.ctxs ∈ A) (a8 : Area.rot ∈ A) (a9 : Area.beyjo ∈ A) (a10 : Area.flt ∈ A) (a11 : Area.agFlt ∈ A) (a12 : Area.rst ∈ A) (a13 : Area.pair ∈ A) (a14 : Area.out ∈ A) (a15 : Area.freeCtr ∈ A) {s₀ s : State} (c lid : Nat) (mail : Option (Nat × Nat)) (h₀ : Within A s₀ s) :
    Within A s₀ (State.remapStart s c lid mail) := by
  unfold State.remapStart
  repeat' first | with_reducible exact fun _ k => k | (extract_lets +onlyGivenNames x; revert x; with_reducible first | apply Within.letS A s₀ | apply Within.letQ A s₀ | apply Within.letP A s₀ | apply Within.letV) | intro _ | with_reducible assumption | with_reducible apply Within.ite | with_reducible apply State.showRemap_within | with_reducible apply State.wr_within | with_reducible apply State.remapFails_within | with_reducible apply State.notifyJob_within | with_reducible apply State.remapWith_within | split | with_reducible apply_assumption

theorem State.loseMember_within {A : List Area} (a0 : Area.regs ∈ A) (a1 : Area.aregs ∈ A) (a2 : Area.ports ∈ A) (a3 : Area.agPorts ∈ A) (a4 : Area.route ∈ A) (a5 : Area.ttbs ∈ A) (a6 : Area.tile ∈ A) (a7 : Area.ctxs ∈ A) (a8 : Area.rot ∈ A) (a9 : Area.beyjo ∈ A) (a10 : Area.flt ∈ A) (a11 : Area.agFlt ∈ A) (a12 : Area.rst ∈ A) (a13 : Area.pair ∈ A) (a14 : Area.out ∈ A) (a15 : Area.freeCtr ∈ A) {s₀ s : State} (c lid : Nat) (h₀ : Within A s₀ s) :
    Within A s₀ (State.loseMember s c lid) := by
  unfold State.loseMember
  repeat' first | with_reducible exact fun _ k => k | (extract_lets +onlyGivenNames x; revert x; with_reducible first | apply Within.letS A s₀ | apply Within.letQ A s₀ | apply Within.letP A s₀ | apply Within.letV) | intro _ | with_reducible assumption | with_reducible apply Within.ite | with_reducible apply State.setCtx_within | with_reducible apply State.holdJob_within | with_reducible apply State.notifyJob_within | with_reducible apply State.wantAgentDump_within | with_reducible apply State.startMode_within | with_reducible apply State.remapStart_within | split | with_reducible apply_assumption

theorem State.loseAgain_within {A : List Area} (a0 : Area.regs ∈ A) (a1 : Area.aregs ∈ A) (a2 : Area.ports ∈ A) (a3 : Area.agPorts ∈ A) (a4 : Area.route ∈ A) (a5 : Area.ttbs ∈ A) (a6 : Area.tile ∈ A) (a7 : Area.ctxs ∈ A) (a8 : Area.rot ∈ A) (a9 : Area.beyjo ∈ A) (a10 : Area.flt ∈ A) (a11 : Area.agFlt ∈ A) (a12 : Area.rst ∈ A) (a13 : Area.pair ∈ A) (a14 : Area.out ∈ A) (a15 : Area.freeCtr ∈ A) {s₀ s : State} (c lid : Nat) (h₀ : Within A s₀ s) :
    Within A s₀ (State.loseAgain s c lid) := by
  unfold State.loseAgain
  repeat' first | with_reducible exact fun _ k => k | intro _ | with_reducible assumption | with_reducible apply Within.ite | with_reducible apply State.setCtx_within | with_reducible apply State.dropRemap_within | with_reducible apply State.remapStart_within | with_reducible apply State.remapFails_within | with_reducible apply State.loseMember_within | split

theorem State.settleDelivery_within {A : List Area} (a0 : Area.regs ∈ A) (a1 : Area.aregs ∈ A) (a2 : Area.ports ∈ A) (a3 : Area.agPorts ∈ A) (a4 : Area.route ∈ A) (a5 : Area.ttbs ∈ A) (a6 : Area.tile ∈ A) (a7 : Area.ctxs ∈ A) (a8 : Area.rot ∈ A) (a9 : Area.beyjo ∈ A) (a10 : Area.flt ∈ A) (a11 : Area.agFlt ∈ A) (a12 : Area.rst ∈ A) (a13 : Area.pair ∈ A) (a14 : Area.out ∈ A) (a15 : Area.freeCtr ∈ A) {s₀ s : State} (e : Nat × Nat × Nat) (h₀ : Within A s₀ s) :
    Within A s₀ (State.settleDelivery s e) := by
  unfold State.settleDelivery
  repeat' first | with_reducible exact fun _ k => k | (extract_lets +onlyGivenNames x; revert x; with_reducible first | apply Within.letS A s₀ | apply Within.letQ A s₀ | apply Within.letP A s₀ | apply Within.letF A s₀ | apply Within.letK A s₀ | apply Within.letG A s₀ | apply Within.letF1x A s₀ | apply Within.letH A s₀ | apply Within.letV) | intro _ | with_reducible assumption | with_reducible apply Within.ite | with_reducible apply State.loseMember_within | with_reducible apply State.setRemap_within | with_reducible apply State.setCtx_within | with_reducible apply State.dropRemap_within | with_reducible apply State.wr_within | with_reducible apply State.remapStart_within | with_reducible apply State.remapFails_within | split | with_reducible apply_assumption

theorem State.settleKeys_within {A : List Area} (a0 : Area.regs ∈ A) (a1 : Area.aregs ∈ A) (a2 : Area.ports ∈ A) (a3 : Area.agPorts ∈ A) (a4 : Area.route ∈ A) (a5 : Area.ttbs ∈ A) (a6 : Area.tile ∈ A) (a7 : Area.ctxs ∈ A) (a8 : Area.rot ∈ A) (a9 : Area.beyjo ∈ A) (a10 : Area.flt ∈ A) (a11 : Area.agFlt ∈ A) (a12 : Area.rst ∈ A) (a13 : Area.pair ∈ A) (a14 : Area.out ∈ A) (a15 : Area.freeCtr ∈ A) {s₀ s : State}  (n : Nat) (h₀ : Within A s₀ s) :
    Within A s₀ (State.settleKeys s n) := by
  induction n generalizing s with
  | zero =>
    rw [State.settleKeys]
    repeat' first | (extract_lets +onlyGivenNames x; revert x; with_reducible first | apply Within.letS A s₀ | apply Within.letQ A s₀ | apply Within.letP A s₀ | apply Within.letF A s₀ | apply Within.letK A s₀ | apply Within.letG A s₀ | apply Within.letF1x A s₀ | apply Within.letH A s₀ | apply Within.letV) | intro _ | with_reducible assumption | with_reducible apply Within.ite | with_reducible apply Within.foldl | with_reducible apply State.settleDelivery_within | with_reducible apply State.setRot_within | split
  | succ i ih =>
    rw [State.settleKeys]
    repeat' first | (extract_lets +onlyGivenNames x; revert x; with_reducible first | apply Within.letS A s₀ | apply Within.letQ A s₀ | apply Within.letP A s₀ | apply Within.letF A s₀ | apply Within.letK A s₀ | apply Within.letG A s₀ | apply Within.letF1x A s₀ | apply Within.letH A s₀ | apply Within.letV) | intro _ | with_reducible assumption | with_reducible apply ih | with_reducible apply Within.ite | with_reducible apply Within.foldl | with_reducible apply State.settleDelivery_within | with_reducible apply State.setRot_within | split

theorem State.settle_within {A : List Area} (a0 : Area.regs ∈ A) (a1 : Area.aregs ∈ A) (a2 : Area.ports ∈ A) (a3 : Area.agPorts ∈ A) (a4 : Area.route ∈ A) (a5 : Area.ttbs ∈ A) (a6 : Area.tile ∈ A) (a7 : Area.ctxs ∈ A) (a8 : Area.rot ∈ A) (a9 : Area.beyjo ∈ A) (a10 : Area.flt ∈ A) (a11 : Area.agFlt ∈ A) (a12 : Area.rst ∈ A) (a13 : Area.pair ∈ A) (a14 : Area.out ∈ A) (a15 : Area.freeCtr ∈ A) {s₀ s : State}  (h₀ : Within A s₀ s) :
    Within A s₀ (State.settle s) := by
  unfold State.settle
  repeat' first | with_reducible exact fun _ k => k | with_reducible assumption | with_reducible apply State.settleKeys_within

theorem execMemberLostLinks_within {A : List Area} (a0 : Area.regs ∈ A) (a1 : Area.aregs ∈ A) (a2 : Area.ports ∈ A) (a3 : Area.agPorts ∈ A) (a4 : Area.route ∈ A) (a5 : Area.ttbs ∈ A) (a6 : Area.tile ∈ A) (a7 : Area.ctxs ∈ A) (a8 : Area.rot ∈ A) (a9 : Area.beyjo ∈ A) (a10 : Area.flt ∈ A) (a11 : Area.agFlt ∈ A) (a12 : Area.rst ∈ A) (a13 : Area.pair ∈ A) (a14 : Area.out ∈ A) (a15 : Area.freeCtr ∈ A) {s₀ s : State} (ctx lid : Nat) (h₀ : Within A s₀ s) :
    Out.within A s₀ (execMemberLostLinks ctx lid s) := by
  unfold execMemberLostLinks
  show Within A s₀ _
  repeat' first | with_reducible exact fun _ k => k | with_reducible assumption | with_reducible apply Within.ite | with_reducible apply State.loseAgain_within | with_reducible apply State.settle_within | split

theorem execMemberLostReset_within {A : List Area} (a0 : Area.regs ∈ A) (a1 : Area.aregs ∈ A) (a2 : Area.ports ∈ A) (a3 : Area.agPorts ∈ A) (a4 : Area.route ∈ A) (a5 : Area.ttbs ∈ A) (a6 : Area.tile ∈ A) (a7 : Area.ctxs ∈ A) (a8 : Area.rot ∈ A) (a9 : Area.beyjo ∈ A) (a10 : Area.flt ∈ A) (a11 : Area.agFlt ∈ A) (a12 : Area.rst ∈ A) (a13 : Area.pair ∈ A) (a14 : Area.out ∈ A) (a15 : Area.freeCtr ∈ A) {s₀ s : State} (ctx lid : Nat) (h₀ : Within A s₀ s) :
    Out.within A s₀ (execMemberLostReset ctx lid s) := by
  unfold execMemberLostReset
  show Within A s₀ _
  repeat' first | with_reducible exact fun _ k => k | with_reducible assumption | with_reducible apply Within.ite | with_reducible apply State.loseAgain_within | with_reducible apply State.settle_within | split

theorem execRestoreStreamEnd_within {A : List Area} (a0 : Area.regs ∈ A) (a1 : Area.aregs ∈ A) (a2 : Area.ports ∈ A) (a3 : Area.agPorts ∈ A) (a4 : Area.route ∈ A) (a5 : Area.flt ∈ A) (a6 : Area.agFlt ∈ A) (a7 : Area.rst ∈ A) (a8 : Area.out ∈ A) {s₀ s : State} (ctx lid : Nat) (counts : List Nat) (h₀ : Within A s₀ s) :
    Out.within A s₀ (execRestoreStreamEnd ctx lid counts s) := by
  unfold execRestoreStreamEnd
  show Within A s₀ _
  repeat' first | (extract_lets +onlyGivenNames x; revert x; with_reducible first | apply Within.letS A s₀ | apply Within.letQ A s₀ | apply Within.letP A s₀ | apply Within.letV) | intro _ | with_reducible assumption | with_reducible apply Within.ite | with_reducible apply Within.foldl | with_reducible apply State.remoteWrite_within | with_reducible apply State.setRemap_within | split | with_reducible apply_assumption

theorem State.resumeFrom_within {A : List Area} (a0 : Area.regs ∈ A) (a1 : Area.aregs ∈ A) (a2 : Area.ports ∈ A) (a3 : Area.agPorts ∈ A) (a4 : Area.flt ∈ A) (a5 : Area.agFlt ∈ A) (a6 : Area.out ∈ A) {s₀ s : State} (c : Nat) (h₀ : Within A s₀ s) :
    Within A s₀ (State.resumeFrom s c) := by
  unfold State.resumeFrom
  repeat' first | (extract_lets +onlyGivenNames x; revert x; with_reducible first | apply Within.letS A s₀ | apply Within.letQ A s₀ | apply Within.letP A s₀ | apply Within.letV) | intro _ | with_reducible assumption | with_reducible apply Within.ite | with_reducible apply State.wr_within | with_reducible apply State.voidOut_within | split | with_reducible apply_assumption

theorem execHoldRearm_within {A : List Area} (a0 : Area.regs ∈ A) (a1 : Area.aregs ∈ A) (a2 : Area.time ∈ A) (a3 : Area.ports ∈ A) (a4 : Area.agPorts ∈ A) (a5 : Area.route ∈ A) (a6 : Area.ttbs ∈ A) (a7 : Area.insts ∈ A) (a8 : Area.tile ∈ A) (a9 : Area.ctxs ∈ A) (a10 : Area.beyjo ∈ A) (a11 : Area.flt ∈ A) (a12 : Area.agFlt ∈ A) (a13 : Area.rst ∈ A) (a14 : Area.out ∈ A) {s₀ s : State} (ctx restoreEnd keyEnd : Nat) (h₀ : Within A s₀ s) :
    Out.within A s₀ (execHoldRearm ctx restoreEnd keyEnd s) := by
  unfold execHoldRearm
  show Within A s₀ _
  repeat' first | with_reducible exact fun _ k => k | (extract_lets +onlyGivenNames x; revert x; with_reducible first | apply Within.letS A s₀ | apply Within.letQ A s₀ | apply Within.letP A s₀ | apply Within.letV) | intro _ | with_reducible assumption | with_reducible apply Within.ite | with_reducible apply Within.foldl | with_reducible apply Within.foldlPair | with_reducible apply State.dropRemap_within | with_reducible apply State.showRemap_within | with_reducible apply State.mailOk_within | with_reducible apply State.setCtx_within | with_reducible apply State.resumeFrom_within | with_reducible apply State.beginArmWith_within | split | with_reducible apply_assumption

theorem State.remapAsked_within {A : List Area} (a0 : Area.regs ∈ A) (a1 : Area.aregs ∈ A) (a2 : Area.ports ∈ A) (a3 : Area.agPorts ∈ A) (a4 : Area.route ∈ A) (a5 : Area.ttbs ∈ A) (a6 : Area.tile ∈ A) (a7 : Area.ctxs ∈ A) (a8 : Area.rot ∈ A) (a9 : Area.beyjo ∈ A) (a10 : Area.flt ∈ A) (a11 : Area.agFlt ∈ A) (a12 : Area.rst ∈ A) (a13 : Area.pair ∈ A) (a14 : Area.out ∈ A) (a15 : Area.freeCtr ∈ A) {s₀ s : State} (c lid : Nat) (spare : Option Nat) (mail : Nat × Nat) (h₀ : Within A s₀ s) :
    Within A s₀ (State.remapAsked s c lid spare mail) := by
  unfold State.remapAsked
  repeat' first | with_reducible exact fun _ k => k | with_reducible assumption | with_reducible apply State.remapStart_within | with_reducible apply State.remapWith_within | split

theorem State.startPlanned_within {A : List Area} (a0 : Area.regs ∈ A) (a1 : Area.aregs ∈ A) (a2 : Area.ports ∈ A) (a3 : Area.agPorts ∈ A) (a4 : Area.route ∈ A) (a5 : Area.ttbs ∈ A) (a6 : Area.tile ∈ A) (a7 : Area.ctxs ∈ A) (a8 : Area.rot ∈ A) (a9 : Area.beyjo ∈ A) (a10 : Area.flt ∈ A) (a11 : Area.agFlt ∈ A) (a12 : Area.rst ∈ A) (a13 : Area.pair ∈ A) (a14 : Area.out ∈ A) (a15 : Area.freeCtr ∈ A) {s₀ s : State}  (h₀ : Within A s₀ s) :
    Within A s₀ (State.startPlanned s) := by
  unfold State.startPlanned
  repeat' first | with_reducible exact fun _ k => k | (extract_lets +onlyGivenNames x; revert x; with_reducible first | apply Within.letS A s₀ | apply Within.letQ A s₀ | apply Within.letP A s₀ | apply Within.letV) | intro _ | with_reducible assumption | with_reducible apply Within.ite | with_reducible apply Within.foldl | with_reducible apply Within.foldlPair | with_reducible apply State.remapAsked_within | with_reducible apply State.setRst_within | with_reducible apply State.settle_within | split | with_reducible apply_assumption

theorem execMailRemap_within {A : List Area} (a0 : Area.regs ∈ A) (a1 : Area.aregs ∈ A) (a2 : Area.ports ∈ A) (a3 : Area.agPorts ∈ A) (a4 : Area.route ∈ A) (a5 : Area.ttbs ∈ A) (a6 : Area.tile ∈ A) (a7 : Area.ctxs ∈ A) (a8 : Area.rot ∈ A) (a9 : Area.beyjo ∈ A) (a10 : Area.flt ∈ A) (a11 : Area.agFlt ∈ A) (a12 : Area.rst ∈ A) (a13 : Area.pair ∈ A) (a14 : Area.out ∈ A) (a15 : Area.freeCtr ∈ A) {s₀ s : State} (index slot : Nat) (h₀ : Within A s₀ s) :
    Out.within A s₀ (execMailRemap index slot s) := by
  unfold execMailRemap
  show Within A s₀ _
  repeat' first | with_reducible exact fun _ k => k | (extract_lets +onlyGivenNames x; revert x; with_reducible first | apply Within.letS A s₀ | apply Within.letQ A s₀ | apply Within.letP A s₀ | apply Within.letV) | intro _ | with_reducible assumption | with_reducible apply Within.ite | with_reducible apply State.mailReject_within | with_reducible apply State.startMode_within | with_reducible apply State.showRemap_within | with_reducible apply State.notifyJob_within | with_reducible apply State.remapFails_within | with_reducible apply State.setCtx_within | with_reducible apply State.holdJob_within | with_reducible apply State.setRst_within | with_reducible apply State.mailRuns_within | with_reducible apply State.remapAsked_within | with_reducible apply State.settle_within | split | with_reducible apply_assumption

theorem State.faultJob_within {A : List Area} (a0 : Area.regs ∈ A) (a1 : Area.aregs ∈ A) (a2 : Area.ports ∈ A) (a3 : Area.agPorts ∈ A) (a4 : Area.route ∈ A) (a5 : Area.ttbs ∈ A) (a6 : Area.tile ∈ A) (a7 : Area.ctxs ∈ A) (a8 : Area.rot ∈ A) (a9 : Area.beyjo ∈ A) (a10 : Area.flt ∈ A) (a11 : Area.agFlt ∈ A) (a12 : Area.rst ∈ A) (a13 : Area.pair ∈ A) (a14 : Area.out ∈ A) (a15 : Area.freeCtr ∈ A) {s₀ s : State} (e : Event) (h₀ : Within A s₀ s) :
    Within A s₀ (State.faultJob s e) := by
  unfold State.faultJob
  repeat' first | with_reducible exact fun _ k => k | (extract_lets +onlyGivenNames x; revert x; with_reducible first | apply Within.letS A s₀ | apply Within.letQ A s₀ | apply Within.letP A s₀ | apply Within.letV) | intro _ | with_reducible assumption | with_reducible apply Within.ite | with_reducible apply State.wantAgentDump_within | with_reducible apply State.loseMember_within | with_reducible apply State.setCtx_within | with_reducible apply State.holdJob_within | split | with_reducible apply_assumption

theorem execFaultCell_within {A : List Area} (a0 : Area.regs ∈ A) (a1 : Area.aregs ∈ A) (a2 : Area.ports ∈ A) (a3 : Area.agPorts ∈ A) (a4 : Area.route ∈ A) (a5 : Area.ttbs ∈ A) (a6 : Area.tile ∈ A) (a7 : Area.ctxs ∈ A) (a8 : Area.rot ∈ A) (a9 : Area.beyjo ∈ A) (a10 : Area.flt ∈ A) (a11 : Area.agFlt ∈ A) (a12 : Area.rst ∈ A) (a13 : Area.pair ∈ A) (a14 : Area.out ∈ A) (a15 : Area.freeCtr ∈ A) {s₀ s : State} (cell : Cell) (h₀ : Within A s₀ s) :
    Out.within A s₀ (execFaultCell cell s) := by
  unfold execFaultCell
  show Within A s₀ _
  repeat' first | with_reducible exact fun _ k => k | with_reducible assumption | with_reducible apply Within.ite | with_reducible apply State.remoteEvent_within | with_reducible apply State.faultJob_within | with_reducible apply State.settle_within | split

end Sys2Proof.Machine
end

