-- ==== Sys2Proof/Laws/AgentWithin.lean ====
section
/-! SUPPORT. The parts of the state that the definitions of Machine/Agent.lean reach. -/

set_option linter.unreachableTactic false
set_option linter.unusedTactic false

namespace Sys2Proof.Machine

theorem State.hostWrite_within {A : List Area} (a0 : Area.ag ∈ A) {s₀ s : State} (h o : Nat) (bs : List Byte) (h₀ : Within A s₀ s) :
    Within A s₀ (State.hostWrite s h o bs) := by
  unfold State.hostWrite
  repeat' first | with_reducible exact fun _ k => ⟨k.1, k.2.1, k.2.2.1, k.2.2.2.1, k.2.2.2.2.1, mwrite_wf k.2.2.2.2.2 _ _⟩ | with_reducible exact fun _ k => k | intro _ | with_reducible assumption | with_reducible apply State.setAg_within

theorem State.placeAg_within {A : List Area} (a0 : Area.regs ∈ A) (a1 : Area.aregs ∈ A) (a2 : Area.flt ∈ A) (a3 : Area.agFlt ∈ A) (a4 : Area.ag ∈ A) {s₀ s : State} (port : Nat) (c : Cell) (h₀ : Within A s₀ s) :
    Within A s₀ (State.placeAg s port c) := by
  unfold State.placeAg
  repeat' first | with_reducible exact fun _ k => k | intro _ | with_reducible assumption | with_reducible apply Within.ite | with_reducible apply State.discard_within | with_reducible apply State.hostWrite_within | with_reducible apply State.setAg_within | split

theorem State.restore_within {A : List Area} (a0 : Area.regs ∈ A) (a1 : Area.aregs ∈ A) (a2 : Area.flt ∈ A) (a3 : Area.agFlt ∈ A) (a4 : Area.ag ∈ A) {s₀ s : State} (port : Nat) (c : Cell) (bErr : Bool) (h₀ : Within A s₀ s) :
    Within A s₀ (State.restore s port c bErr) := by
  unfold State.restore
  repeat' first | with_reducible exact fun _ k => k | (extract_lets +onlyGivenNames x; revert x; with_reducible first | apply Within.letS A s₀ | apply Within.letQ A s₀ | apply Within.letP A s₀ | apply Within.letV) | intro _ | with_reducible assumption | with_reducible apply Within.ite | with_reducible apply State.discard_within | with_reducible apply State.detect_within | with_reducible apply State.hostWrite_within | with_reducible apply State.setAg_within | with_reducible apply State.abump_within | split | with_reducible apply_assumption

theorem State.dataCell_within {A : List Area} (a0 : Area.regs ∈ A) (a1 : Area.aregs ∈ A) (a2 : Area.flt ∈ A) (a3 : Area.agFlt ∈ A) (a4 : Area.ag ∈ A) {s₀ s : State} (port : Nat) (c : Cell) (h₀ : Within A s₀ s) :
    Within A s₀ (State.dataCell s port c) := by
  unfold State.dataCell
  repeat' first | with_reducible exact fun _ k => k | with_reducible assumption | with_reducible apply Within.ite | with_reducible apply State.discard_within | with_reducible apply State.restore_within | with_reducible apply State.placeAg_within | split

theorem State.strayCell_within {A : List Area} (a0 : Area.regs ∈ A) (a1 : Area.aregs ∈ A) (a2 : Area.flt ∈ A) (a3 : Area.agFlt ∈ A) {s₀ s : State} (port : Nat) (c : Cell) (h₀ : Within A s₀ s) :
    Within A s₀ (State.strayCell s port c) := by
  unfold State.strayCell
  repeat' first | with_reducible assumption | with_reducible apply Within.ite | with_reducible apply State.discard_within | split

theorem execPutCell_within {A : List Area} (a0 : Area.regs ∈ A) (a1 : Area.aregs ∈ A) (a2 : Area.flt ∈ A) (a3 : Area.agFlt ∈ A) (a4 : Area.ag ∈ A) {s₀ s : State} (site : Site) (port : Nat) (cell : Cell) (h₀ : Within A s₀ s) :
    Out.within A s₀ (execPutCell site port cell s) := by
  unfold execPutCell
  show Within A s₀ _
  repeat' first | with_reducible exact fun _ k => k | with_reducible assumption | with_reducible apply State.strayCell_within | with_reducible apply State.dataCell_within | split

theorem execResultCell_within {A : List Area} (a0 : Area.regs ∈ A) (a1 : Area.aregs ∈ A) (a2 : Area.flt ∈ A) (a3 : Area.agFlt ∈ A) (a4 : Area.ag ∈ A) {s₀ s : State} (site : Site) (port : Nat) (cell : Cell) (h₀ : Within A s₀ s) :
    Out.within A s₀ (execResultCell site port cell s) := by
  unfold execResultCell
  show Within A s₀ _
  repeat' first | with_reducible exact fun _ k => k | with_reducible assumption | with_reducible apply State.strayCell_within | with_reducible apply State.dataCell_within | split

theorem execRestoreCell_within {A : List Area} (a0 : Area.regs ∈ A) (a1 : Area.aregs ∈ A) (a2 : Area.flt ∈ A) (a3 : Area.agFlt ∈ A) (a4 : Area.ag ∈ A) {s₀ s : State} (cell : Cell) (bErr : Bool) (h₀ : Within A s₀ s) :
    Out.within A s₀ (execRestoreCell cell bErr s) := by
  unfold execRestoreCell
  show Within A s₀ _
  repeat' first | with_reducible exact fun _ k => k | with_reducible assumption | with_reducible apply Within.ite | with_reducible apply State.restore_within | with_reducible apply State.discard_within | split

theorem execBufferError_within {A : List Area} (a0 : Area.flt ∈ A) (a1 : Area.agFlt ∈ A) (a2 : Area.ag ∈ A) {s₀ s : State} (cidx : Nat) (h₀ : Within A s₀ s) :
    Out.within A s₀ (execBufferError cidx s) := by
  unfold execBufferError
  show Within A s₀ _
  repeat' first | with_reducible exact fun _ k => k | intro _ | with_reducible assumption | with_reducible apply Within.ite | with_reducible apply State.setAg_within | with_reducible apply State.detect_within | split

theorem execRchunkClear_within {A : List Area} (a0 : Area.ag ∈ A) {s₀ s : State}  (h₀ : Within A s₀ s) :
    Out.within A s₀ (execRchunkClear s) := by
  unfold execRchunkClear
  show Within A s₀ _
  repeat' first | with_reducible exact fun _ k => k | intro _ | with_reducible assumption | with_reducible apply State.setAg_within

theorem State.streamEnd_within {A : List Area} (a0 : Area.aregs ∈ A) (a1 : Area.flt ∈ A) (a2 : Area.agFlt ∈ A) (a3 : Area.ag ∈ A) {s₀ s : State}  (h₀ : Within A s₀ s) :
    Within A s₀ (State.streamEnd s) := by
  unfold State.streamEnd
  repeat' first | with_reducible exact fun _ k => k | with_reducible assumption | with_reducible apply State.agEvent_within

theorem execRstatEnd_within {A : List Area} (a0 : Area.aregs ∈ A) (a1 : Area.flt ∈ A) (a2 : Area.agFlt ∈ A) (a3 : Area.ag ∈ A) {s₀ s : State}  (h₀ : Within A s₀ s) :
    Out.within A s₀ (execRstatEnd s) := by
  unfold execRstatEnd
  show Within A s₀ _
  repeat' first | with_reducible exact fun _ k => k | with_reducible assumption | with_reducible apply State.streamEnd_within

theorem State.agSend_within {A : List Area} (a0 : Area.regs ∈ A) (a1 : Area.aregs ∈ A) (a2 : Area.ports ∈ A) (a3 : Area.agPorts ∈ A) (a4 : Area.flt ∈ A) (a5 : Area.agFlt ∈ A) (a6 : Area.ag ∈ A) {s₀ s : State} (x : AgSend) (h₀ : Within A s₀ s) :
    Within A s₀ (State.agSend s x) := by
  unfold State.agSend
  repeat' first | with_reducible exact fun _ k => k | (extract_lets +onlyGivenNames x; revert x; with_reducible first | apply Within.letS A s₀ | apply Within.letQ A s₀ | apply Within.letP A s₀ | apply Within.letV) | intro _ | with_reducible assumption | with_reducible apply Within.ite | with_reducible apply Within.foldl | with_reducible apply State.sendOn_within | with_reducible apply State.setAg_within | split | with_reducible apply_assumption

theorem State.agSendBeat_within {A : List Area} (a0 : Area.regs ∈ A) (a1 : Area.aregs ∈ A) (a2 : Area.ports ∈ A) (a3 : Area.agPorts ∈ A) (a4 : Area.flt ∈ A) (a5 : Area.agFlt ∈ A) (a6 : Area.ag ∈ A) {s₀ s : State}  (h₀ : Within A s₀ s) :
    Within A s₀ (State.agSendBeat s) := by
  unfold State.agSendBeat
  repeat' first | with_reducible exact fun _ k => k | with_reducible assumption | with_reducible apply Within.ite | with_reducible apply Within.foldl | with_reducible apply State.agSend_within | split

theorem State.agArm_within {A : List Area} (a0 : Area.aregs ∈ A) (a1 : Area.agTime ∈ A) (a2 : Area.flt ∈ A) (a3 : Area.agFlt ∈ A) (a4 : Area.ag ∈ A) {s₀ s : State}  (h₀ : Within A s₀ s) :
    Within A s₀ (State.agArm s) := by
  unfold State.agArm
  repeat' first | with_reducible exact fun _ k => k | (extract_lets +onlyGivenNames x; revert x; with_reducible first | apply Within.letS A s₀ | apply Within.letQ A s₀ | apply Within.letP A s₀ | apply Within.letF A s₀ | apply Within.letK A s₀ | apply Within.letG A s₀ | apply Within.letF1x A s₀ | apply Within.letH A s₀ | apply Within.letV) | intro _ | with_reducible assumption | with_reducible apply Within.ite | with_reducible apply State.awr_within | with_reducible apply State.agClear_within | with_reducible apply State.setAg_within | with_reducible apply State.setAgTime_within | with_reducible apply State.agEvent_within | with_reducible apply State.detect_within | split | with_reducible apply_assumption

theorem execAgentArm_within {A : List Area} (a0 : Area.aregs ∈ A) (a1 : Area.agTime ∈ A) (a2 : Area.flt ∈ A) (a3 : Area.agFlt ∈ A) (a4 : Area.ag ∈ A) {s₀ s : State}  (h₀ : Within A s₀ s) :
    Out.within A s₀ (execAgentArm s) := by
  unfold execAgentArm
  show Within A s₀ _
  repeat' first | with_reducible exact fun _ k => k | with_reducible assumption | with_reducible apply State.agArm_within

theorem State.agDisarm_within {A : List Area} (a0 : Area.aregs ∈ A) (a1 : Area.flt ∈ A) (a2 : Area.agFlt ∈ A) (a3 : Area.ag ∈ A) {s₀ s : State}  (h₀ : Within A s₀ s) :
    Within A s₀ (State.agDisarm s) := by
  unfold State.agDisarm
  repeat' first | with_reducible exact fun _ k => k | (extract_lets +onlyGivenNames x; revert x; with_reducible first | apply Within.letS A s₀ | apply Within.letQ A s₀ | apply Within.letP A s₀ | apply Within.letV) | intro _ | with_reducible assumption | with_reducible apply Within.ite | with_reducible apply State.setAg_within | with_reducible apply State.agEmpty_within | split | with_reducible apply_assumption

theorem execAgentDisarm_within {A : List Area} (a0 : Area.aregs ∈ A) (a1 : Area.flt ∈ A) (a2 : Area.agFlt ∈ A) (a3 : Area.ag ∈ A) {s₀ s : State}  (h₀ : Within A s₀ s) :
    Out.within A s₀ (execAgentDisarm s) := by
  unfold execAgentDisarm
  show Within A s₀ _
  repeat' first | with_reducible exact fun _ k => k | with_reducible assumption | with_reducible apply State.agDisarm_within

theorem State.agLoading_within {A : List Area} (a0 : Area.aregs ∈ A) (a1 : Area.ag ∈ A) {s₀ s : State} (n : Nat) (h₀ : Within A s₀ s) :
    Within A s₀ (State.agLoading s n) := by
  unfold State.agLoading
  repeat' first | with_reducible exact fun _ k => k | (extract_lets +onlyGivenNames x; revert x; with_reducible first | apply Within.letS A s₀ | apply Within.letQ A s₀ | apply Within.letP A s₀ | apply Within.letV) | intro _ | with_reducible assumption | with_reducible apply Within.ite | with_reducible apply State.agClear_within | with_reducible apply State.awr_within | split | with_reducible apply_assumption

theorem execTtbLlenWrite_within {A : List Area} (a0 : Area.aregs ∈ A) (a1 : Area.ag ∈ A) {s₀ s : State} (value : Word) (h₀ : Within A s₀ s) :
    Out.within A s₀ (execTtbLlenWrite value s) := by
  unfold execTtbLlenWrite
  show Within A s₀ _
  repeat' first | with_reducible exact fun _ k => k | with_reducible assumption | with_reducible apply State.agLoading_within

theorem State.agEvtRead_within {A : List Area} (a0 : Area.ag ∈ A) {s₀ s : State}  (h₀ : Within A s₀ s) :
    Within A s₀ (State.agEvtRead s).2 := by
  unfold State.agEvtRead
  repeat' first | with_reducible exact fun _ k => k | intro _ | with_reducible assumption | with_reducible apply State.setAg_within | split

theorem execTtbEvtRead_within {A : List Area} (a0 : Area.ag ∈ A) (a1 : Area.out ∈ A) {s₀ s : State}  (h₀ : Within A s₀ s) :
    Out.within A s₀ (execTtbEvtRead s) := by
  unfold execTtbEvtRead
  show Within A s₀ _
  repeat' first | with_reducible exact fun _ k => k | (extract_lets +onlyGivenNames x; revert x; with_reducible first | apply Within.letS A s₀ | apply Within.letQ A s₀ | apply Within.letP A s₀ | apply Within.letF A s₀ | apply Within.letK A s₀ | apply Within.letG A s₀ | apply Within.letF1x A s₀ | apply Within.letH A s₀ | apply Within.letV) | intro _ | with_reducible assumption | with_reducible apply State.agEvtRead_within | with_reducible apply State.emit_within | with_reducible apply_assumption

theorem State.jobEnd_within {A : List Area} (a0 : Area.aregs ∈ A) (a1 : Area.ag ∈ A) {s₀ s : State} (err : Nat) (h₀ : Within A s₀ s) :
    Within A s₀ (State.jobEnd s err) := by
  unfold State.jobEnd
  repeat' first | with_reducible exact fun _ k => k | intro _ | with_reducible assumption | with_reducible apply State.awr_within | with_reducible apply State.setAg_within

theorem State.jobGo_within {A : List Area} (a0 : Area.aregs ∈ A) (a1 : Area.ag ∈ A) {s₀ s : State}  (h₀ : Within A s₀ s) :
    Within A s₀ (State.jobGo s) := by
  unfold State.jobGo
  repeat' first | with_reducible exact fun _ k => k | (extract_lets +onlyGivenNames x; revert x; with_reducible first | apply Within.letS A s₀ | apply Within.letQ A s₀ | apply Within.letP A s₀ | apply Within.letF A s₀ | apply Within.letK A s₀ | apply Within.letG A s₀ | apply Within.letF1x A s₀ | apply Within.letH A s₀ | apply Within.letV) | intro _ | with_reducible assumption | with_reducible apply Within.ite | with_reducible apply State.awr_within | with_reducible apply State.setAg_within | with_reducible apply State.jobEnd_within | split | with_reducible apply_assumption

theorem execCdcJobGo_within {A : List Area} (a0 : Area.aregs ∈ A) (a1 : Area.ag ∈ A) {s₀ s : State}  (h₀ : Within A s₀ s) :
    Out.within A s₀ (execCdcJobGo s) := by
  unfold execCdcJobGo
  show Within A s₀ _
  repeat' first | with_reducible exact fun _ k => k | with_reducible assumption | with_reducible apply State.jobGo_within

theorem State.agCountEncode_within {A : List Area} (a0 : Area.aregs ∈ A) {s₀ s : State} (e : Encoded) (h₀ : Within A s₀ s) :
    Within A s₀ (State.agCountEncode s e) := by
  unfold State.agCountEncode
  repeat' first | (extract_lets +onlyGivenNames x; revert x; with_reducible first | apply Within.letS A s₀ | apply Within.letQ A s₀ | apply Within.letP A s₀ | apply Within.letV) | intro _ | with_reducible assumption | with_reducible apply State.abump_within | with_reducible apply_assumption

theorem State.agCountDecode_within {A : List Area} (a0 : Area.aregs ∈ A) (a1 : Area.flt ∈ A) (a2 : Area.agFlt ∈ A) {s₀ s : State} (d : Decoded) (h₀ : Within A s₀ s) :
    Within A s₀ (State.agCountDecode s d) := by
  unfold State.agCountDecode
  repeat' first | (extract_lets +onlyGivenNames x; revert x; with_reducible first | apply Within.letS A s₀ | apply Within.letQ A s₀ | apply Within.letP A s₀ | apply Within.letV) | intro _ | with_reducible assumption | with_reducible apply Within.ite | with_reducible apply State.abump_within | with_reducible apply State.detect_within | split | with_reducible apply_assumption

theorem State.jobBlock_within {A : List Area} (a0 : Area.aregs ∈ A) (a1 : Area.flt ∈ A) (a2 : Area.agFlt ∈ A) (a3 : Area.ag ∈ A) {s₀ s : State} (j : List Nat) (f : MxFmt) (b : Nat) (h₀ : Within A s₀ s) :
    Within A s₀ (State.jobBlock s j f b) := by
  unfold State.jobBlock
  repeat' first | with_reducible exact fun _ k => k | (extract_lets +onlyGivenNames x; revert x; with_reducible first | apply Within.letS A s₀ | apply Within.letQ A s₀ | apply Within.letP A s₀ | apply Within.letF A s₀ | apply Within.letK A s₀ | apply Within.letG A s₀ | apply Within.letF1x A s₀ | apply Within.letH A s₀ | apply Within.letV) | intro _ | with_reducible assumption | with_reducible apply Within.ite | with_reducible apply State.hostWrite_within | with_reducible apply State.agCountDecode_within | with_reducible apply State.agCountEncode_within | split | with_reducible apply_assumption

theorem execCdcJobDone_within {A : List Area} (a0 : Area.aregs ∈ A) (a1 : Area.flt ∈ A) (a2 : Area.agFlt ∈ A) (a3 : Area.ag ∈ A) {s₀ s : State} (bufferOk : Bool) (h₀ : Within A s₀ s) :
    Out.within A s₀ (execCdcJobDone bufferOk s) := by
  unfold execCdcJobDone
  show Within A s₀ _
  repeat' first | with_reducible exact fun _ k => k | (extract_lets +onlyGivenNames x; revert x; with_reducible first | apply Within.letS A s₀ | apply Within.letQ A s₀ | apply Within.letP A s₀ | apply Within.letF A s₀ | apply Within.letK A s₀ | apply Within.letG A s₀ | apply Within.letF1x A s₀ | apply Within.letH A s₀ | apply Within.letV) | intro _ | with_reducible assumption | with_reducible apply Within.ite | with_reducible apply Within.foldl | with_reducible apply State.jobEnd_within | with_reducible apply State.jobBlock_within | split | with_reducible apply_assumption

end Sys2Proof.Machine
end

