-- ==== Sys2Proof/Laws/AgentKeysWithin.lean ====
section
/-! SUPPORT. The parts of the state that the definitions of Machine/AgentKeys.lean reach. -/

set_option linter.unreachableTactic false
set_option linter.unusedTactic false

namespace Sys2Proof.Machine

theorem State.busErr_within {A : List Area} (a0 : Area.out ∈ A) {s₀ s : State} (e : Nat) (h₀ : Within A s₀ s) :
    Within A s₀ (State.busErr s e) := by
  unfold State.busErr
  repeat' first | with_reducible assumption | with_reducible apply State.emit_within

theorem State.setAgFid_within {A : List Area} (a0 : Area.aregs ∈ A) (a1 : Area.ports ∈ A) (a2 : Area.agPorts ∈ A) (a3 : Area.out ∈ A) {s₀ s : State} (v : Nat) (h₀ : Within A s₀ s) :
    Within A s₀ (State.setAgFid s v) := by
  unfold State.setAgFid
  repeat' first | (extract_lets +onlyGivenNames x; revert x; with_reducible first | apply Within.letS A s₀ | apply Within.letQ A s₀ | apply Within.letP A s₀ | apply Within.letV) | intro _ | with_reducible assumption | with_reducible apply Within.ite | with_reducible apply Within.foldl | with_reducible apply State.busErr_within | with_reducible apply State.awr_within | with_reducible apply State.ctl_within | split | with_reducible apply_assumption

theorem execAgentFidWrite_within {A : List Area} (a0 : Area.aregs ∈ A) (a1 : Area.ports ∈ A) (a2 : Area.agPorts ∈ A) (a3 : Area.out ∈ A) {s₀ s : State} (value : Word) (h₀ : Within A s₀ s) :
    Out.within A s₀ (execAgentFidWrite value s) := by
  unfold execAgentFidWrite
  show Within A s₀ _
  repeat' first | with_reducible assumption | with_reducible apply State.setAgFid_within

theorem State.measStart_within {A : List Area} (a0 : Area.ag ∈ A) {s₀ s : State}  (h₀ : Within A s₀ s) :
    Within A s₀ (State.measStart s) := by
  unfold State.measStart
  repeat' first | with_reducible exact fun _ k => k | intro _ | with_reducible assumption | with_reducible apply Within.ite | with_reducible apply State.setAg_within | split

theorem State.measIn_within {A : List Area} (a0 : Area.ag ∈ A) {s₀ s : State} (w : Word) (h₀ : Within A s₀ s) :
    Within A s₀ (State.measIn s w) := by
  unfold State.measIn
  repeat' first | with_reducible exact fun _ k => k | intro _ | with_reducible assumption | with_reducible apply Within.ite | with_reducible apply State.setAg_within | split

theorem State.measDone_within {A : List Area} (a0 : Area.aregs ∈ A) (a1 : Area.ag ∈ A) {s₀ s : State}  (h₀ : Within A s₀ s) :
    Within A s₀ (State.measDone s) := by
  unfold State.measDone
  repeat' first | with_reducible exact fun _ k => k | (extract_lets +onlyGivenNames x; revert x; with_reducible first | apply Within.letS A s₀ | apply Within.letQ A s₀ | apply Within.letP A s₀ | apply Within.letV) | intro _ | with_reducible assumption | with_reducible apply Within.ite | with_reducible apply Within.foldl | with_reducible apply State.awr_within | with_reducible apply State.setAg_within | split | with_reducible apply_assumption

theorem execMeasStart_within {A : List Area} (a0 : Area.ag ∈ A) {s₀ s : State}  (h₀ : Within A s₀ s) :
    Out.within A s₀ (execMeasStart s) := by
  unfold execMeasStart
  show Within A s₀ _
  repeat' first | with_reducible exact fun _ k => k | with_reducible assumption | with_reducible apply State.measStart_within

theorem execMeasInWrite_within {A : List Area} (a0 : Area.ag ∈ A) {s₀ s : State} (value : Word) (h₀ : Within A s₀ s) :
    Out.within A s₀ (execMeasInWrite value s) := by
  unfold execMeasInWrite
  show Within A s₀ _
  repeat' first | with_reducible exact fun _ k => k | with_reducible assumption | with_reducible apply State.measIn_within

theorem execMeasDone_within {A : List Area} (a0 : Area.aregs ∈ A) (a1 : Area.ag ∈ A) {s₀ s : State}  (h₀ : Within A s₀ s) :
    Out.within A s₀ (execMeasDone s) := by
  unfold execMeasDone
  show Within A s₀ _
  repeat' first | with_reducible exact fun _ k => k | with_reducible assumption | with_reducible apply State.measDone_within

theorem execCertLock_within {A : List Area} (a0 : Area.aregs ∈ A) {s₀ s : State}  (h₀ : Within A s₀ s) :
    Out.within A s₀ (execCertLock s) := by
  unfold execCertLock
  show Within A s₀ _
  repeat' first | with_reducible assumption | with_reducible apply State.awr_within

theorem State.agDropKey_within {A : List Area} (a0 : Area.aregs ∈ A) (a1 : Area.ag ∈ A) {s₀ s : State}  (h₀ : Within A s₀ s) :
    Within A s₀ (State.agDropKey s) := by
  unfold State.agDropKey
  repeat' first | with_reducible exact fun _ k => ⟨k.1, k.2.1, k.2.2.1, rfl, k.2.2.2.2⟩ | with_reducible exact fun _ k => k | intro _ | with_reducible assumption | with_reducible apply State.setAg_within | with_reducible apply State.awr_within

theorem State.agSpendKey_within {A : List Area} (a0 : Area.aregs ∈ A) (a1 : Area.ag ∈ A) {s₀ s : State}  (h₀ : Within A s₀ s) :
    Within A s₀ (State.agSpendKey s) := by
  unfold State.agSpendKey
  repeat' first | with_reducible exact fun _ k => k | intro _ | with_reducible assumption | with_reducible apply State.setAg_within | with_reducible apply State.awr_within

theorem State.agEvReq_within {A : List Area} (a0 : Area.aregs ∈ A) (a1 : Area.ag ∈ A) {s₀ s : State} (requester : Nat) (h₀ : Within A s₀ s) :
    Within A s₀ (State.agEvReq s requester) := by
  unfold State.agEvReq
  repeat' first | with_reducible exact fun _ k => k | (extract_lets +onlyGivenNames x; revert x; with_reducible first | apply Within.letS A s₀ | apply Within.letQ A s₀ | apply Within.letP A s₀ | apply Within.letV) | intro _ | with_reducible assumption | with_reducible apply Within.ite | with_reducible apply State.agDropKey_within | with_reducible apply State.setAg_within | with_reducible apply State.awr_within | split | with_reducible apply_assumption

theorem execEvreqGo_within {A : List Area} (a0 : Area.aregs ∈ A) (a1 : Area.ag ∈ A) {s₀ s : State} (requester : Nat) (h₀ : Within A s₀ s) :
    Out.within A s₀ (execEvreqGo requester s) := by
  unfold execEvreqGo
  show Within A s₀ _
  repeat' first | with_reducible exact fun _ k => k | with_reducible assumption | with_reducible apply State.agEvReq_within

theorem execEvidenceFormed_within {A : List Area} (a0 : Area.regs ∈ A) (a1 : Area.aregs ∈ A) (a2 : Area.ports ∈ A) (a3 : Area.agPorts ∈ A) (a4 : Area.flt ∈ A) (a5 : Area.agFlt ∈ A) (a6 : Area.ag ∈ A) (a7 : Area.out ∈ A) {s₀ s : State}  (h₀ : Within A s₀ s) :
    Out.within A s₀ (execEvidenceFormed s) := by
  unfold execEvidenceFormed
  show Within A s₀ _
  repeat' first | with_reducible exact fun _ k => ⟨k.1, k.2.1, k.2.2.1, mwrite_wf rfl _ _, k.2.2.2.2.1, k.2.2.2.2.2⟩ | with_reducible exact fun _ k => k | (extract_lets +onlyGivenNames x; revert x; with_reducible first | apply Within.letS A s₀ | apply Within.letQ A s₀ | apply Within.letP A s₀ | apply Within.letV) | intro _ | with_reducible assumption | with_reducible apply Within.ite | with_reducible apply State.setAg_within | with_reducible apply State.sendMessage_within | split | with_reducible apply_assumption

theorem execDecapKeyExpiry_within {A : List Area} (a0 : Area.aregs ∈ A) (a1 : Area.ag ∈ A) {s₀ s : State}  (h₀ : Within A s₀ s) :
    Out.within A s₀ (execDecapKeyExpiry s) := by
  unfold execDecapKeyExpiry
  show Within A s₀ _
  repeat' first | with_reducible exact fun _ k => k | with_reducible assumption | with_reducible apply State.agDropKey_within

theorem execKeywrapCell_within {A : List Area} (a0 : Area.aregs ∈ A) (a1 : Area.flt ∈ A) (a2 : Area.agFlt ∈ A) (a3 : Area.ag ∈ A) (a4 : Area.out ∈ A) {s₀ s : State} (kw : KeyWrap) (h₀ : Within A s₀ s) :
    Out.within A s₀ (execKeywrapCell kw s) := by
  unfold execKeywrapCell
  show Within A s₀ _
  repeat' first | with_reducible exact fun _ k => k | (extract_lets +onlyGivenNames x; revert x; with_reducible first | apply Within.letS A s₀ | apply Within.letQ A s₀ | apply Within.letP A s₀ | apply Within.letF A s₀ | apply Within.letK A s₀ | apply Within.letG A s₀ | apply Within.letF1x A s₀ | apply Within.letH A s₀ | apply Within.letV) | intro _ | with_reducible assumption | with_reducible apply Within.ite | with_reducible apply State.detect_within | with_reducible apply State.agSpendKey_within | with_reducible apply State.setAg_within | with_reducible apply State.emit_within | split | with_reducible apply_assumption

theorem State.keyOutcome_within {A : List Area} (a0 : Area.aregs ∈ A) (a1 : Area.flt ∈ A) (a2 : Area.agFlt ∈ A) (a3 : Area.ag ∈ A) {s₀ s : State} (ok : Bool) (h₀ : Within A s₀ s) :
    Within A s₀ (State.keyOutcome s ok) := by
  unfold State.keyOutcome
  repeat' first | with_reducible exact fun _ k => k | (extract_lets +onlyGivenNames x; revert x; with_reducible first | apply Within.letS A s₀ | apply Within.letQ A s₀ | apply Within.letP A s₀ | apply Within.letV) | intro _ | with_reducible assumption | with_reducible apply Within.ite | with_reducible apply State.setAg_within | with_reducible apply State.awr_within | with_reducible apply State.detect_within | with_reducible apply State.agEvent_within | split | with_reducible apply_assumption

theorem execKeySidebandAck_within {A : List Area} (a0 : Area.aregs ∈ A) (a1 : Area.flt ∈ A) (a2 : Area.agFlt ∈ A) (a3 : Area.ag ∈ A) {s₀ s : State} (ack : Bool) (h₀ : Within A s₀ s) :
    Out.within A s₀ (execKeySidebandAck ack s) := by
  unfold execKeySidebandAck
  show Within A s₀ _
  repeat' first | with_reducible exact fun _ k => k | with_reducible assumption | with_reducible apply State.keyOutcome_within

theorem execKeySidebandTimeout_within {A : List Area} (a0 : Area.aregs ∈ A) (a1 : Area.flt ∈ A) (a2 : Area.agFlt ∈ A) (a3 : Area.ag ∈ A) {s₀ s : State}  (h₀ : Within A s₀ s) :
    Out.within A s₀ (execKeySidebandTimeout s) := by
  unfold execKeySidebandTimeout
  show Within A s₀ _
  repeat' first | with_reducible exact fun _ k => k | with_reducible assumption | with_reducible apply State.keyOutcome_within

theorem execIaTamperN_within {A : List Area} (a0 : Area.aregs ∈ A) (a1 : Area.flt ∈ A) (a2 : Area.agFlt ∈ A) {s₀ s : State}  (h₀ : Within A s₀ s) :
    Out.within A s₀ (execIaTamperN s) := by
  unfold execIaTamperN
  show Within A s₀ _
  repeat' first | with_reducible assumption | with_reducible apply State.awr_within | with_reducible apply State.detect_within

theorem State.driveLines_within {A : List Area} (a0 : Area.out ∈ A) {s₀ s : State}  (h₀ : Within A s₀ s) :
    Within A s₀ (State.driveLines s) := by
  unfold State.driveLines
  repeat' first | (extract_lets +onlyGivenNames x; revert x; with_reducible first | apply Within.letS A s₀ | apply Within.letQ A s₀ | apply Within.letP A s₀ | apply Within.letV) | intro _ | with_reducible assumption | with_reducible apply Within.foldl | with_reducible apply State.emit_within | with_reducible apply_assumption

theorem State.showLines_within {A : List Area} (a0 : Area.aregs ∈ A) {s₀ s : State}  (h₀ : Within A s₀ s) :
    Within A s₀ (State.showLines s) := by
  unfold State.showLines
  repeat' first | intro _ | with_reducible assumption | with_reducible apply Within.foldl | with_reducible apply State.awr_within

theorem State.hcCompute_within {A : List Area} (a0 : Area.aregs ∈ A) (a1 : Area.agTime ∈ A) (a2 : Area.ag ∈ A) {s₀ s : State}  (h₀ : Within A s₀ s) :
    Within A s₀ (State.hcCompute s) := by
  unfold State.hcCompute
  repeat' first | with_reducible exact fun _ k => k | (extract_lets +onlyGivenNames x; revert x; with_reducible first | apply Within.letS A s₀ | apply Within.letQ A s₀ | apply Within.letP A s₀ | apply Within.letV) | intro _ | with_reducible assumption | with_reducible apply Within.ite | with_reducible apply State.setAg_within | with_reducible apply State.awr_within | with_reducible apply State.agClear_within | with_reducible apply State.setAgTime_within | split | with_reducible apply_assumption

theorem State.hcReset_within {A : List Area} (a0 : Area.aregs ∈ A) (a1 : Area.agTime ∈ A) (a2 : Area.flt ∈ A) (a3 : Area.agFlt ∈ A) (a4 : Area.ag ∈ A) (a5 : Area.out ∈ A) {s₀ s : State} (domain block : Nat) (h₀ : Within A s₀ s) :
    Within A s₀ (State.hcReset s domain block) := by
  unfold State.hcReset
  repeat' first | with_reducible exact fun _ k => k | (extract_lets +onlyGivenNames x; revert x; with_reducible first | apply Within.letS A s₀ | apply Within.letQ A s₀ | apply Within.letP A s₀ | apply Within.letV) | intro _ | with_reducible assumption | with_reducible apply Within.ite | with_reducible apply State.setAg_within | with_reducible apply State.awr_within | with_reducible apply State.showLines_within | with_reducible apply State.driveLines_within | with_reducible apply State.detect_within | with_reducible apply State.hcCompute_within | split | with_reducible apply_assumption

theorem execAgentRstGo_within {A : List Area} (a0 : Area.aregs ∈ A) (a1 : Area.agTime ∈ A) (a2 : Area.flt ∈ A) (a3 : Area.agFlt ∈ A) (a4 : Area.ag ∈ A) (a5 : Area.out ∈ A) {s₀ s : State} (domain block : Nat) (h₀ : Within A s₀ s) :
    Out.within A s₀ (execAgentRstGo domain block s) := by
  unfold execAgentRstGo
  show Within A s₀ _
  repeat' first | with_reducible exact fun _ k => k | with_reducible assumption | with_reducible apply State.hcReset_within

theorem execRstReqGo_within {A : List Area} (a0 : Area.aregs ∈ A) (a1 : Area.agTime ∈ A) (a2 : Area.flt ∈ A) (a3 : Area.agFlt ∈ A) (a4 : Area.ag ∈ A) (a5 : Area.out ∈ A) {s₀ s : State} (domain block : Nat) (h₀ : Within A s₀ s) :
    Out.within A s₀ (execRstReqGo domain block s) := by
  unfold execRstReqGo
  show Within A s₀ _
  repeat' first | with_reducible exact fun _ k => k | with_reducible assumption | with_reducible apply State.hcReset_within

theorem execHcResetHoldEnd_within {A : List Area} (a0 : Area.ag ∈ A) (a1 : Area.out ∈ A) {s₀ s : State}  (h₀ : Within A s₀ s) :
    Out.within A s₀ (execHcResetHoldEnd s) := by
  unfold execHcResetHoldEnd
  show Within A s₀ _
  repeat' first | with_reducible exact fun _ k => k | intro _ | with_reducible assumption | with_reducible apply Within.ite | with_reducible apply State.setAg_within | with_reducible apply State.driveLines_within | split

theorem State.hcEnd_within {A : List Area} (a0 : Area.aregs ∈ A) (a1 : Area.ag ∈ A) {s₀ s : State} (f : State → State) (hf : ∀ u, Within A s₀ u → Within A s₀ (f u)) (h₀ : Within A s₀ s) :
    Within A s₀ (State.hcEnd s f) := by
  unfold State.hcEnd
  repeat' first | with_reducible exact fun _ k => k | (extract_lets +onlyGivenNames x; revert x; with_reducible first | apply Within.letS A s₀ | apply Within.letQ A s₀ | apply Within.letP A s₀ | apply Within.letV) | intro _ | with_reducible assumption | with_reducible apply Within.foldl | with_reducible apply State.setAg_within | with_reducible apply State.showLines_within | with_reducible apply_assumption

theorem execHcRstDone_within {A : List Area} (a0 : Area.aregs ∈ A) (a1 : Area.flt ∈ A) (a2 : Area.agFlt ∈ A) (a3 : Area.ag ∈ A) {s₀ s : State}  (h₀ : Within A s₀ s) :
    Out.within A s₀ (execHcRstDone s) := by
  unfold execHcRstDone
  show Within A s₀ _
  repeat' first | with_reducible exact fun _ k => k | (extract_lets +onlyGivenNames x; revert x; with_reducible first | apply Within.letS A s₀ | apply Within.letQ A s₀ | apply Within.letP A s₀ | apply Within.letV) | intro _ | with_reducible assumption | with_reducible apply Within.ite | with_reducible apply State.hcEnd_within | with_reducible apply State.detect_within | with_reducible apply State.awr_within | split | with_reducible apply_assumption

theorem execHcDoneTimeout_within {A : List Area} (a0 : Area.aregs ∈ A) (a1 : Area.flt ∈ A) (a2 : Area.agFlt ∈ A) (a3 : Area.ag ∈ A) {s₀ s : State}  (h₀ : Within A s₀ s) :
    Out.within A s₀ (execHcDoneTimeout s) := by
  unfold execHcDoneTimeout
  show Within A s₀ _
  repeat' first | with_reducible exact fun _ k => k | intro _ | with_reducible assumption | with_reducible apply State.hcEnd_within | with_reducible apply State.detect_within

theorem execIaPorstN_within {A : List Area} (a0 : Area.aregs ∈ A) (a1 : Area.agTime ∈ A) (a2 : Area.agPorts ∈ A) (a3 : Area.agRoute ∈ A) (a4 : Area.rot ∈ A) (a5 : Area.agFlt ∈ A) (a6 : Area.ag ∈ A) (a7 : Area.out ∈ A) {s₀ s : State} (h : Within A s₀ s) :
    Out.within A s₀ (execIaPorstN s) := by
  unfold execIaPorstN
  show Within A s₀ _
  extract_lets fid t u
  have ht : Within A s₀ t := State.setRot_within a4 _ h
  have hu : Within A s₀ u := Within.foldl ht fun _ _ k => State.emit_within a7 _ k
  clear_value u
  have h1 : Within A s₀ { u with aregs := u.aregs.filter fun e => agFused e.1 } := Within.aregs a0 (fun k => filter_sorted k _) hu
  have h2 := Within.agTime (x := AgTimeSt.reset) a1 h1
  have h3 := Within.agPorts (x := State.reset.agPorts) a2 (fun _ => by simp [State.reset]) h2
  have h4 := Within.agFlt (x := FltSt.reset) a5 (Within.agRoute (x := AgRouteSt.reset) a3 h3)
  refine Within.ag a6 ?_ h4
  exact fun k => ⟨rfl, rfl, rfl, rfl, rfl, k.2.2.2.2.2⟩

theorem execIaPorstNRelease_within {A : List Area} (a0 : Area.regs ∈ A) (a1 : Area.aregs ∈ A) (a2 : Area.ports ∈ A) (a3 : Area.agPorts ∈ A) (a4 : Area.ag ∈ A) (a5 : Area.out ∈ A) {s₀ s : State} (bclkMhz : Nat) (h₀ : Within A s₀ s) :
    Out.within A s₀ (execIaPorstNRelease bclkMhz s) := by
  unfold execIaPorstNRelease
  show Within A s₀ _
  repeat' first | with_reducible exact fun _ k => k | (extract_lets +onlyGivenNames x; revert x; with_reducible first | apply Within.letS A s₀ | apply Within.letQ A s₀ | apply Within.letP A s₀ | apply Within.letV) | intro _ | with_reducible assumption | with_reducible apply Within.ite | with_reducible apply Within.foldl | with_reducible apply State.setAg_within | with_reducible apply State.awr_within | with_reducible apply State.startAttempt_within | split | with_reducible apply_assumption

end Sys2Proof.Machine
end

