-- ==== Sys2Proof/Laws/FrankWithin.lean ====
section
/-! SUPPORT. The parts of the state that the definitions of Machine/Frank.lean reach. -/

set_option linter.unreachableTactic false
set_option linter.unusedTactic false

namespace Sys2Proof.Machine

theorem State.needAk_within {A : List Area} (a0 : Area.regs ∈ A) (a1 : Area.out ∈ A) {s₀ s : State} (sess code : Nat) (f : State → State) (hf : ∀ u, Within A s₀ u → Within A s₀ (f u)) (h₀ : Within A s₀ s) :
    Within A s₀ (State.needAk s sess code f) := by
  unfold State.needAk
  repeat' first | intro _ | with_reducible assumption | with_reducible apply Within.ite | with_reducible apply State.spdmErr_within | split | with_reducible apply_assumption

theorem State.inSecure_within {A : List Area} (a0 : Area.regs ∈ A) (a1 : Area.out ∈ A) {s₀ s : State} (sess code : Nat) (f : SpdmSess → State → State) (hf : ∀ x u, Within A s₀ u → Within A s₀ (f x u)) (h₀ : Within A s₀ s) :
    Within A s₀ (State.inSecure s sess code f) := by
  unfold State.inSecure
  repeat' first | intro _ | with_reducible assumption | with_reducible apply State.spdmErr_within | split | with_reducible apply_assumption

theorem State.inFinished_within {A : List Area} (a0 : Area.regs ∈ A) (a1 : Area.out ∈ A) {s₀ s : State} (sess code : Nat) (f : State → State) (hf : ∀ u, Within A s₀ u → Within A s₀ (f u)) (h₀ : Within A s₀ s) :
    Within A s₀ (State.inFinished s sess code f) := by
  unfold State.inFinished
  repeat' first | intro _ | with_reducible assumption | with_reducible apply Within.ite | with_reducible apply State.inSecure_within | with_reducible apply State.spdmErr_within | split | with_reducible apply_assumption

theorem execGetVersion_within {A : List Area} (a0 : Area.regs ∈ A) (a1 : Area.rot ∈ A) (a2 : Area.out ∈ A) {s₀ s : State} (sess : Nat) (h₀ : Within A s₀ s) :
    Out.within A s₀ (execGetVersion sess s) := by
  unfold execGetVersion
  show Within A s₀ _
  repeat' first | intro _ | with_reducible assumption | with_reducible apply State.inSpdm_within | with_reducible apply State.spdmReply_within

theorem execGetCapabilities_within {A : List Area} (a0 : Area.regs ∈ A) (a1 : Area.rot ∈ A) (a2 : Area.out ∈ A) {s₀ s : State} (sess : Nat) (h₀ : Within A s₀ s) :
    Out.within A s₀ (execGetCapabilities sess s) := by
  unfold execGetCapabilities
  show Within A s₀ _
  repeat' first | intro _ | with_reducible assumption | with_reducible apply State.inSpdm_within | with_reducible apply State.spdmReply_within

theorem execNegotiateAlgorithms_within {A : List Area} (a0 : Area.regs ∈ A) (a1 : Area.rot ∈ A) (a2 : Area.out ∈ A) {s₀ s : State} (sess : Nat) (supported : Bool) (h₀ : Within A s₀ s) :
    Out.within A s₀ (execNegotiateAlgorithms sess supported s) := by
  unfold execNegotiateAlgorithms
  show Within A s₀ _
  repeat' first | intro _ | with_reducible assumption | with_reducible apply Within.ite | with_reducible apply State.inSpdm_within | with_reducible apply State.spdmReply_within | with_reducible apply State.spdmErr_within | split

theorem execGetDigests_within {A : List Area} (a0 : Area.regs ∈ A) (a1 : Area.rot ∈ A) (a2 : Area.out ∈ A) {s₀ s : State} (sess : Nat) (h₀ : Within A s₀ s) :
    Out.within A s₀ (execGetDigests sess s) := by
  unfold execGetDigests
  show Within A s₀ _
  repeat' first | intro _ | with_reducible assumption | with_reducible apply State.inSpdm_within | with_reducible apply State.needAk_within | with_reducible apply State.spdmReply_within

theorem execGetCertificate_within {A : List Area} (a0 : Area.regs ∈ A) (a1 : Area.rot ∈ A) (a2 : Area.out ∈ A) {s₀ s : State} (sess slot offset len : Nat) (h₀ : Within A s₀ s) :
    Out.within A s₀ (execGetCertificate sess slot offset len s) := by
  unfold execGetCertificate
  show Within A s₀ _
  repeat' first | (extract_lets +onlyGivenNames x; revert x; with_reducible first | apply Within.letS A s₀ | apply Within.letQ A s₀ | apply Within.letP A s₀ | apply Within.letV) | intro _ | with_reducible assumption | with_reducible apply Within.ite | with_reducible apply State.inSpdm_within | with_reducible apply State.needAk_within | with_reducible apply State.spdmErr_within | with_reducible apply State.drop_within | with_reducible apply State.spdmReply_within | split | with_reducible apply_assumption

theorem execChallenge_within {A : List Area} (a0 : Area.regs ∈ A) (a1 : Area.rot ∈ A) (a2 : Area.out ∈ A) {s₀ s : State} (sess slot nonce : Nat) (h₀ : Within A s₀ s) :
    Out.within A s₀ (execChallenge sess slot nonce s) := by
  unfold execChallenge
  show Within A s₀ _
  repeat' first | intro _ | with_reducible assumption | with_reducible apply Within.ite | with_reducible apply State.inSpdm_within | with_reducible apply State.spdmErr_within | with_reducible apply State.askSign_within | split

theorem execGetMeasurements_within {A : List Area} (a0 : Area.regs ∈ A) (a1 : Area.rot ∈ A) (a2 : Area.out ∈ A) {s₀ s : State} (sess index : Nat) (signed : Bool) (h₀ : Within A s₀ s) :
    Out.within A s₀ (execGetMeasurements sess index signed s) := by
  unfold execGetMeasurements
  show Within A s₀ _
  repeat' first | (extract_lets +onlyGivenNames x; revert x; with_reducible first | apply Within.letS A s₀ | apply Within.letQ A s₀ | apply Within.letP A s₀ | apply Within.letV) | intro _ | with_reducible assumption | with_reducible apply Within.ite | with_reducible apply State.inSpdm_within | with_reducible apply State.spdmErr_within | with_reducible apply State.askSign_within | with_reducible apply State.spdmReply_within | split | with_reducible apply_assumption

theorem execKeyExchange_within {A : List Area} (a0 : Area.regs ∈ A) (a1 : Area.rot ∈ A) (a2 : Area.out ∈ A) (a3 : Area.freeCtr ∈ A) {s₀ s : State} (id : Nat) (ek : List Byte) (h₀ : Within A s₀ s) :
    Out.within A s₀ (execKeyExchange id ek s) := by
  unfold execKeyExchange
  show Within A s₀ _
  repeat' first | (extract_lets +onlyGivenNames x; revert x; with_reducible first | apply Within.letS A s₀ | apply Within.letQ A s₀ | apply Within.letP A s₀ | apply Within.letF A s₀ | apply Within.letK A s₀ | apply Within.letG A s₀ | apply Within.letF1x A s₀ | apply Within.letH A s₀ | apply Within.letV) | intro _ | with_reducible assumption | with_reducible apply Within.ite | with_reducible apply State.spdmErr_within | with_reducible apply State.free_within | with_reducible apply State.setRot_within | with_reducible apply State.askSign_within | split | with_reducible apply_assumption

theorem State.ownerCred_within {A : List Area} (a0 : Area.beyjo ∈ A) {s₀ s : State} (id : Nat) (h₀ : Within A s₀ s) :
    Within A s₀ (State.ownerCred s id) := by
  unfold State.ownerCred
  repeat' first | (extract_lets +onlyGivenNames x; revert x; with_reducible first | apply Within.letS A s₀ | apply Within.letQ A s₀ | apply Within.letP A s₀ | apply Within.letV) | intro _ | with_reducible assumption | with_reducible apply Within.ite | with_reducible apply State.setBeyjo_within | split | with_reducible apply_assumption

theorem execFinish_within {A : List Area} (a0 : Area.regs ∈ A) (a1 : Area.tile ∈ A) (a2 : Area.rot ∈ A) (a3 : Area.beyjo ∈ A) (a4 : Area.rst ∈ A) (a5 : Area.pair ∈ A) (a6 : Area.out ∈ A) {s₀ s : State} (sess : Nat) (macOk : Bool) (h₀ : Within A s₀ s) :
    Out.within A s₀ (execFinish sess macOk s) := by
  unfold execFinish
  show Within A s₀ _
  repeat' first | with_reducible exact fun _ k => k | (extract_lets +onlyGivenNames x; revert x; with_reducible first | apply Within.letS A s₀ | apply Within.letQ A s₀ | apply Within.letP A s₀ | apply Within.letV) | intro _ | with_reducible assumption | with_reducible apply Within.ite | with_reducible apply State.inSecure_within | with_reducible apply State.spdmErr_within | with_reducible apply State.setSpdm_within | with_reducible apply State.bump_within | with_reducible apply State.ownerCred_within | with_reducible apply State.showRot_within | with_reducible apply State.spdmReply_within | with_reducible apply State.endSpdm_within | split | with_reducible apply_assumption

theorem execHeartbeat_within {A : List Area} (a0 : Area.regs ∈ A) (a1 : Area.rot ∈ A) (a2 : Area.out ∈ A) {s₀ s : State} (sess : Nat) (h₀ : Within A s₀ s) :
    Out.within A s₀ (execHeartbeat sess s) := by
  unfold execHeartbeat
  show Within A s₀ _
  repeat' first | intro _ | with_reducible assumption | with_reducible apply State.inFinished_within | with_reducible apply State.setSpdm_within | with_reducible apply State.spdmReply_within

theorem execKeyUpdate_within {A : List Area} (a0 : Area.regs ∈ A) (a1 : Area.rot ∈ A) (a2 : Area.out ∈ A) {s₀ s : State} (sess : Nat) (h₀ : Within A s₀ s) :
    Out.within A s₀ (execKeyUpdate sess s) := by
  unfold execKeyUpdate
  show Within A s₀ _
  repeat' first | intro _ | with_reducible assumption | with_reducible apply State.inFinished_within | with_reducible apply State.setSpdm_within | with_reducible apply State.spdmReply_within

theorem execEndSession_within {A : List Area} (a0 : Area.regs ∈ A) (a1 : Area.tile ∈ A) (a2 : Area.rot ∈ A) (a3 : Area.beyjo ∈ A) (a4 : Area.rst ∈ A) (a5 : Area.pair ∈ A) (a6 : Area.out ∈ A) {s₀ s : State} (sess : Nat) (h₀ : Within A s₀ s) :
    Out.within A s₀ (execEndSession sess s) := by
  unfold execEndSession
  show Within A s₀ _
  repeat' first | with_reducible exact fun _ k => k | intro _ | with_reducible assumption | with_reducible apply State.inFinished_within | with_reducible apply State.spdmReply_within | with_reducible apply State.endSpdm_within

theorem execSpdmSessionTimeout_within {A : List Area} (a0 : Area.regs ∈ A) (a1 : Area.tile ∈ A) (a2 : Area.rot ∈ A) (a3 : Area.beyjo ∈ A) (a4 : Area.rst ∈ A) (a5 : Area.pair ∈ A) {s₀ s : State} (sess : Nat) (h₀ : Within A s₀ s) :
    Out.within A s₀ (execSpdmSessionTimeout sess s) := by
  unfold execSpdmSessionTimeout
  show Within A s₀ _
  repeat' first | with_reducible exact fun _ k => k | with_reducible assumption | with_reducible apply State.endSpdm_within

theorem execChunkSend_within {A : List Area} (a0 : Area.regs ∈ A) (a1 : Area.rot ∈ A) (a2 : Area.out ∈ A) {s₀ s : State} (sess handle seq : Nat) (last : Bool) (data : List Byte) (h₀ : Within A s₀ s) :
    Out.within A s₀ (execChunkSend sess handle seq last data s) := by
  unfold execChunkSend
  show Within A s₀ _
  repeat' first | (extract_lets +onlyGivenNames x; revert x; with_reducible first | apply Within.letS A s₀ | apply Within.letQ A s₀ | apply Within.letP A s₀ | apply Within.letV) | intro _ | with_reducible assumption | with_reducible apply Within.ite | with_reducible apply State.inSpdm_within | with_reducible apply State.setRot_within | with_reducible apply State.spdmErr_within | with_reducible apply State.spdmReply_within | split | with_reducible apply_assumption

theorem execChunkGet_within {A : List Area} (a0 : Area.regs ∈ A) (a1 : Area.rot ∈ A) (a2 : Area.out ∈ A) {s₀ s : State} (sess handle seq : Nat) (h₀ : Within A s₀ s) :
    Out.within A s₀ (execChunkGet sess handle seq s) := by
  unfold execChunkGet
  show Within A s₀ _
  repeat' first | (extract_lets +onlyGivenNames x; revert x; with_reducible first | apply Within.letS A s₀ | apply Within.letQ A s₀ | apply Within.letP A s₀ | apply Within.letV) | intro _ | with_reducible assumption | with_reducible apply Within.ite | with_reducible apply State.inSpdm_within | with_reducible apply State.spdmErr_within | with_reducible apply State.drop_within | with_reducible apply State.setRot_within | with_reducible apply State.frame_within | split | with_reducible apply_assumption

theorem execGetEncapsulatedRequest_within {A : List Area} (a0 : Area.regs ∈ A) (a1 : Area.rot ∈ A) (a2 : Area.out ∈ A) {s₀ s : State} (sess : Nat) (h₀ : Within A s₀ s) :
    Out.within A s₀ (execGetEncapsulatedRequest sess s) := by
  unfold execGetEncapsulatedRequest
  show Within A s₀ _
  repeat' first | intro _ | with_reducible assumption | with_reducible apply State.inSecure_within | with_reducible apply State.spdmReply_within

theorem execDeliverEncapsulatedResponse_within {A : List Area} (a0 : Area.regs ∈ A) (a1 : Area.rot ∈ A) (a2 : Area.beyjo ∈ A) (a3 : Area.out ∈ A) {s₀ s : State} (sess : Nat) (ok : Bool) (root : Nat) (h₀ : Within A s₀ s) :
    Out.within A s₀ (execDeliverEncapsulatedResponse sess ok root s) := by
  unfold execDeliverEncapsulatedResponse
  show Within A s₀ _
  repeat' first | (extract_lets +onlyGivenNames x; revert x; with_reducible first | apply Within.letS A s₀ | apply Within.letQ A s₀ | apply Within.letP A s₀ | apply Within.letV) | intro _ | with_reducible assumption | with_reducible apply Within.ite | with_reducible apply State.inSecure_within | with_reducible apply State.setSpdm_within | with_reducible apply State.bump_within | with_reducible apply State.ownerCred_within | with_reducible apply State.spdmReply_within | with_reducible apply State.spdmErr_within | split | with_reducible apply_assumption

theorem execSpdmUnsupported_within {A : List Area} (a0 : Area.regs ∈ A) (a1 : Area.out ∈ A) {s₀ s : State} (sess code : Nat) (h₀ : Within A s₀ s) :
    Out.within A s₀ (execSpdmUnsupported sess code s) := by
  unfold execSpdmUnsupported
  show Within A s₀ _
  repeat' first | with_reducible assumption | with_reducible apply State.spdmErr_within

theorem execSignatureDone_within {A : List Area} (a0 : Area.regs ∈ A) (a1 : Area.rot ∈ A) (a2 : Area.out ∈ A) {s₀ s : State} (us : Nat) (h₀ : Within A s₀ s) :
    Out.within A s₀ (execSignatureDone us s) := by
  unfold execSignatureDone
  show Within A s₀ _
  repeat' first | (extract_lets +onlyGivenNames x; revert x; with_reducible first | apply Within.letS A s₀ | apply Within.letQ A s₀ | apply Within.letP A s₀ | apply Within.letV) | intro _ | with_reducible assumption | with_reducible apply Within.ite | with_reducible apply State.setRot_within | with_reducible apply State.bump_within | with_reducible apply State.atLeast_within | with_reducible apply State.showRot_within | with_reducible apply State.wr_within | with_reducible apply State.spdmReply_within | split | with_reducible apply_assumption

theorem execAkCertSigned_within {A : List Area} (a0 : Area.regs ∈ A) {s₀ s : State} (ms : Nat) (h₀ : Within A s₀ s) :
    Out.within A s₀ (execAkCertSigned ms s) := by
  unfold execAkCertSigned
  show Within A s₀ _
  repeat' first | with_reducible assumption | with_reducible apply Within.ite | with_reducible apply State.wr_within | with_reducible apply State.bump_within | split

theorem execAdmitSess_within {A : List Area} (a0 : Area.regs ∈ A) (a1 : Area.rot ∈ A) (a2 : Area.out ∈ A) {s₀ s : State} (sess : Nat) (h₀ : Within A s₀ s) :
    Out.within A s₀ (execAdmitSess sess s) := by
  unfold execAdmitSess
  show Within A s₀ _
  repeat' first | (extract_lets +onlyGivenNames x; revert x; with_reducible first | apply Within.letS A s₀ | apply Within.letQ A s₀ | apply Within.letP A s₀ | apply Within.letV) | intro _ | with_reducible assumption | with_reducible apply Within.ite | with_reducible apply State.inFinished_within | with_reducible apply State.vendorNo_within | with_reducible apply State.vendor_within | with_reducible apply State.setRot_within | with_reducible apply State.wr_within | split | with_reducible apply_assumption

theorem execSetCredential_within {A : List Area} (a0 : Area.regs ∈ A) (a1 : Area.tile ∈ A) (a2 : Area.rot ∈ A) (a3 : Area.beyjo ∈ A) (a4 : Area.rst ∈ A) (a5 : Area.pair ∈ A) (a6 : Area.out ∈ A) {s₀ s : State} (sess role ctx cred : Nat) (h₀ : Within A s₀ s) :
    Out.within A s₀ (execSetCredential sess role ctx cred s) := by
  unfold execSetCredential
  show Within A s₀ _
  repeat' first | with_reducible exact fun _ k => k | (extract_lets +onlyGivenNames x; revert x; with_reducible first | apply Within.letS A s₀ | apply Within.letQ A s₀ | apply Within.letP A s₀ | apply Within.letF A s₀ | apply Within.letK A s₀ | apply Within.letG A s₀ | apply Within.letF1x A s₀ | apply Within.letH A s₀ | apply Within.letV) | intro _ | with_reducible assumption | with_reducible apply Within.ite | with_reducible apply State.inFinished_within | with_reducible apply State.vendorNo_within | with_reducible apply State.closeWhere_within | with_reducible apply State.setBeyjo_within | with_reducible apply State.vendor_within | split | with_reducible apply_assumption

theorem execKeyRelease_within {A : List Area} (a0 : Area.regs ∈ A) (a1 : Area.rot ∈ A) (a2 : Area.pair ∈ A) (a3 : Area.out ∈ A) {s₀ s : State} (sess : Nat) (req : KeyReq) (h₀ : Within A s₀ s) :
    Out.within A s₀ (execKeyRelease sess req s) := by
  unfold execKeyRelease
  show Within A s₀ _
  repeat' first | with_reducible exact fun _ k => k | intro _ | with_reducible assumption | with_reducible apply State.inFinished_within | with_reducible apply State.keyRelease_within

theorem execKeyRevoke_within {A : List Area} (a0 : Area.regs ∈ A) (a1 : Area.aregs ∈ A) (a2 : Area.ports ∈ A) (a3 : Area.agPorts ∈ A) (a4 : Area.route ∈ A) (a5 : Area.rot ∈ A) (a6 : Area.flt ∈ A) (a7 : Area.agFlt ∈ A) (a8 : Area.pair ∈ A) (a9 : Area.out ∈ A) (a10 : Area.freeCtr ∈ A) {s₀ s : State} (sess ctx keyId : Nat) (h₀ : Within A s₀ s) :
    Out.within A s₀ (execKeyRevoke sess ctx keyId s) := by
  unfold execKeyRevoke
  show Within A s₀ _
  repeat' first | with_reducible exact fun _ k => k | (extract_lets +onlyGivenNames x; revert x; with_reducible first | apply Within.letS A s₀ | apply Within.letQ A s₀ | apply Within.letP A s₀ | apply Within.letF A s₀ | apply Within.letK A s₀ | apply Within.letG A s₀ | apply Within.letF1x A s₀ | apply Within.letH A s₀ | apply Within.letV) | intro _ | with_reducible assumption | with_reducible apply State.inFinished_within | with_reducible apply State.vendorNo_within | with_reducible apply State.revoke_within | with_reducible apply State.setRot_within | with_reducible apply State.dueGen_within | with_reducible apply State.vendor_within | with_reducible apply State.answerDelivers_within | split | with_reducible apply_assumption

theorem execVaultImport_within {A : List Area} (a0 : Area.regs ∈ A) (a1 : Area.rot ∈ A) (a2 : Area.flt ∈ A) (a3 : Area.agFlt ∈ A) (a4 : Area.out ∈ A) {s₀ s : State} (sess : Nat) (req : ImportReq) (h₀ : Within A s₀ s) :
    Out.within A s₀ (execVaultImport sess req s) := by
  unfold execVaultImport
  show Within A s₀ _
  repeat' first | intro _ | with_reducible assumption | with_reducible apply State.inFinished_within | with_reducible apply State.vaultImport_within

theorem execVaultImportDone_within {A : List Area} (a0 : Area.regs ∈ A) (a1 : Area.aregs ∈ A) (a2 : Area.ports ∈ A) (a3 : Area.agPorts ∈ A) (a4 : Area.route ∈ A) (a5 : Area.tile ∈ A) (a6 : Area.hbm ∈ A) (a7 : Area.rot ∈ A) (a8 : Area.beyjo ∈ A) (a9 : Area.flt ∈ A) (a10 : Area.agFlt ∈ A) (a11 : Area.pair ∈ A) (a12 : Area.out ∈ A) (a13 : Area.freeCtr ∈ A) {s₀ s : State} (ctx : Nat)  (h₀ : Within A s₀ s) :
    Out.within A s₀ (execVaultImportDone ctx s) := by
  unfold execVaultImportDone
  show Within A s₀ _
  repeat' first | with_reducible assumption | with_reducible apply Within.ite | with_reducible apply State.importEnd_within

theorem execDeliver_within {A : List Area} (a0 : Area.regs ∈ A) (a1 : Area.aregs ∈ A) (a2 : Area.ports ∈ A) (a3 : Area.agPorts ∈ A) (a4 : Area.route ∈ A) (a5 : Area.ttbs ∈ A) (a6 : Area.tile ∈ A) (a7 : Area.ctxs ∈ A) (a8 : Area.rot ∈ A) (a9 : Area.beyjo ∈ A) (a10 : Area.flt ∈ A) (a11 : Area.agFlt ∈ A) (a12 : Area.rst ∈ A) (a13 : Area.pair ∈ A) (a14 : Area.out ∈ A) (a15 : Area.freeCtr ∈ A) {s₀ s : State} (sess ctx keyId first count : Nat) (h₀ : Within A s₀ s) :
    Out.within A s₀ (execDeliver sess ctx keyId first count s) := by
  unfold execDeliver
  show Within A s₀ _
  repeat' first | with_reducible exact fun _ k => k | intro _ | with_reducible assumption | with_reducible apply State.inFinished_within | with_reducible apply State.keyDeliver_within | with_reducible apply State.settle_within

theorem execKeyStatus_within {A : List Area} (a0 : Area.regs ∈ A) (a1 : Area.rot ∈ A) (a2 : Area.out ∈ A) {s₀ s : State} (sess ctx : Nat) (h₀ : Within A s₀ s) :
    Out.within A s₀ (execKeyStatus sess ctx s) := by
  unfold execKeyStatus
  show Within A s₀ _
  repeat' first | intro _ | with_reducible assumption | with_reducible apply Within.ite | with_reducible apply State.inFinished_within | with_reducible apply State.vendorNo_within | with_reducible apply State.vendor_within | split

theorem execCommandResetWaitTimeout_within {A : List Area} (a0 : Area.regs ∈ A) (a1 : Area.rot ∈ A) (a2 : Area.out ∈ A) {s₀ s : State}  (h₀ : Within A s₀ s) :
    Out.within A s₀ (execCommandResetWaitTimeout s) := by
  unfold execCommandResetWaitTimeout
  show Within A s₀ _
  repeat' first | (extract_lets +onlyGivenNames x; revert x; with_reducible first | apply Within.letS A s₀ | apply Within.letQ A s₀ | apply Within.letP A s₀ | apply Within.letV) | intro _ | with_reducible assumption | with_reducible apply State.setRot_within | with_reducible apply State.vendorNo_within | with_reducible apply State.deliver_within | split | with_reducible apply_assumption

theorem execEvidenceMessage_within {A : List Area} (a0 : Area.regs ∈ A) (a1 : Area.aregs ∈ A) (a2 : Area.ports ∈ A) (a3 : Area.agPorts ∈ A) (a4 : Area.route ∈ A) (a5 : Area.ttbs ∈ A) (a6 : Area.tile ∈ A) (a7 : Area.ctxs ∈ A) (a8 : Area.rot ∈ A) (a9 : Area.beyjo ∈ A) (a10 : Area.flt ∈ A) (a11 : Area.agFlt ∈ A) (a12 : Area.rst ∈ A) (a13 : Area.pair ∈ A) (a14 : Area.out ∈ A) (a15 : Area.freeCtr ∈ A) {s₀ s : State} (ev : Evidence) (chain : AgentChain) (h₀ : Within A s₀ s) :
    Out.within A s₀ (execEvidenceMessage ev chain s) := by
  unfold execEvidenceMessage
  show Within A s₀ _
  repeat' first | with_reducible exact fun _ k => k | (extract_lets +onlyGivenNames x; revert x; with_reducible first | apply Within.letS A s₀ | apply Within.letQ A s₀ | apply Within.letP A s₀ | apply Within.letV) | intro _ | with_reducible assumption | with_reducible apply State.judge_within | with_reducible apply State.settle_within | split | with_reducible apply_assumption

theorem State.askAgain_within {A : List Area} (a0 : Area.regs ∈ A) (a1 : Area.aregs ∈ A) (a2 : Area.ports ∈ A) (a3 : Area.agPorts ∈ A) (a4 : Area.route ∈ A) (a5 : Area.rot ∈ A) (a6 : Area.flt ∈ A) (a7 : Area.agFlt ∈ A) (a8 : Area.out ∈ A) (a9 : Area.freeCtr ∈ A) {s₀ s : State} (e : EvReq) (f : EvReq → EvReq) (h₀ : Within A s₀ s) :
    Within A s₀ (State.askAgain s e f) := by
  unfold State.askAgain
  repeat' first | (extract_lets +onlyGivenNames x; revert x; with_reducible first | apply Within.letS A s₀ | apply Within.letQ A s₀ | apply Within.letP A s₀ | apply Within.letF A s₀ | apply Within.letK A s₀ | apply Within.letG A s₀ | apply Within.letF1x A s₀ | apply Within.letH A s₀ | apply Within.letV) | intro _ | with_reducible assumption | with_reducible apply Within.ite | with_reducible apply State.drawNonce_within | with_reducible apply State.setRot_within | with_reducible apply State.requestEvidence_within | split | with_reducible apply_assumption

theorem execEvidenceTimeout_within {A : List Area} (a0 : Area.regs ∈ A) (a1 : Area.aregs ∈ A) (a2 : Area.ports ∈ A) (a3 : Area.agPorts ∈ A) (a4 : Area.route ∈ A) (a5 : Area.ttbs ∈ A) (a6 : Area.tile ∈ A) (a7 : Area.ctxs ∈ A) (a8 : Area.rot ∈ A) (a9 : Area.beyjo ∈ A) (a10 : Area.flt ∈ A) (a11 : Area.agFlt ∈ A) (a12 : Area.rst ∈ A) (a13 : Area.pair ∈ A) (a14 : Area.out ∈ A) (a15 : Area.freeCtr ∈ A) {s₀ s : State} (ctx keyId lid : Nat) (h₀ : Within A s₀ s) :
    Out.within A s₀ (execEvidenceTimeout ctx keyId lid s) := by
  unfold execEvidenceTimeout
  show Within A s₀ _
  repeat' first | with_reducible exact fun _ k => k | intro _ | with_reducible assumption | with_reducible apply Within.ite | with_reducible apply State.askAgain_within | with_reducible apply State.failEvidence_within | with_reducible apply State.settle_within | split

theorem execEvidenceResetRetry_within {A : List Area} (a0 : Area.regs ∈ A) (a1 : Area.aregs ∈ A) (a2 : Area.ports ∈ A) (a3 : Area.agPorts ∈ A) (a4 : Area.route ∈ A) (a5 : Area.ttbs ∈ A) (a6 : Area.tile ∈ A) (a7 : Area.ctxs ∈ A) (a8 : Area.rot ∈ A) (a9 : Area.beyjo ∈ A) (a10 : Area.flt ∈ A) (a11 : Area.agFlt ∈ A) (a12 : Area.rst ∈ A) (a13 : Area.pair ∈ A) (a14 : Area.out ∈ A) (a15 : Area.freeCtr ∈ A) {s₀ s : State} (ctx keyId lid : Nat) (h₀ : Within A s₀ s) :
    Out.within A s₀ (execEvidenceResetRetry ctx keyId lid s) := by
  unfold execEvidenceResetRetry
  show Within A s₀ _
  repeat' first | with_reducible exact fun _ k => k | intro _ | with_reducible assumption | with_reducible apply Within.ite | with_reducible apply State.failEvidence_within | with_reducible apply State.settle_within | with_reducible apply State.askAgain_within | split

theorem execKeywrapConfirmTimeout_within {A : List Area} (a0 : Area.regs ∈ A) (a1 : Area.aregs ∈ A) (a2 : Area.ports ∈ A) (a3 : Area.agPorts ∈ A) (a4 : Area.route ∈ A) (a5 : Area.ttbs ∈ A) (a6 : Area.tile ∈ A) (a7 : Area.ctxs ∈ A) (a8 : Area.rot ∈ A) (a9 : Area.beyjo ∈ A) (a10 : Area.flt ∈ A) (a11 : Area.agFlt ∈ A) (a12 : Area.rst ∈ A) (a13 : Area.pair ∈ A) (a14 : Area.out ∈ A) (a15 : Area.freeCtr ∈ A) {s₀ s : State} (ctx keyId lid : Nat) (h₀ : Within A s₀ s) :
    Out.within A s₀ (execKeywrapConfirmTimeout ctx keyId lid s) := by
  unfold execKeywrapConfirmTimeout
  show Within A s₀ _
  repeat' first | with_reducible exact fun _ k => k | (extract_lets +onlyGivenNames x; revert x; with_reducible first | apply Within.letS A s₀ | apply Within.letQ A s₀ | apply Within.letP A s₀ | apply Within.letV) | intro _ | with_reducible assumption | with_reducible apply Within.ite | with_reducible apply State.setRot_within | with_reducible apply State.revoke_within | with_reducible apply State.deliveryEnd_within | with_reducible apply State.settle_within | split | with_reducible apply_assumption

theorem execKeyRedeliver_within {A : List Area} (a0 : Area.regs ∈ A) (a1 : Area.aregs ∈ A) (a2 : Area.ports ∈ A) (a3 : Area.agPorts ∈ A) (a4 : Area.route ∈ A) (a5 : Area.ttbs ∈ A) (a6 : Area.tile ∈ A) (a7 : Area.ctxs ∈ A) (a8 : Area.rot ∈ A) (a9 : Area.beyjo ∈ A) (a10 : Area.flt ∈ A) (a11 : Area.agFlt ∈ A) (a12 : Area.rst ∈ A) (a13 : Area.pair ∈ A) (a14 : Area.out ∈ A) (a15 : Area.freeCtr ∈ A) {s₀ s : State} (ctx lid : Nat) (h₀ : Within A s₀ s) :
    Out.within A s₀ (execKeyRedeliver ctx lid s) := by
  unfold execKeyRedeliver
  show Within A s₀ _
  repeat' first | with_reducible exact fun _ k => k | with_reducible assumption | with_reducible apply Within.ite | with_reducible apply State.redeliver_within | with_reducible apply State.settle_within | split

theorem execPairKeyRelease_within {A : List Area} (a0 : Area.regs ∈ A) (a1 : Area.tile ∈ A) (a2 : Area.hbm ∈ A) (a3 : Area.rot ∈ A) (a4 : Area.beyjo ∈ A) (a5 : Area.pair ∈ A) {s₀ s : State} (ctx keyId : Nat) (partner : PartnerState) (h₀ : Within A s₀ s) :
    Out.within A s₀ (execPairKeyRelease ctx keyId partner s) := by
  unfold execPairKeyRelease
  show Within A s₀ _
  repeat' first | with_reducible exact fun _ k => k | intro _ | with_reducible assumption | with_reducible apply Within.ite | with_reducible apply State.record_within | with_reducible apply State.pairStore_within | with_reducible apply State.tamper_within | with_reducible apply State.measured_within | with_reducible apply State.setRot_within | with_reducible apply State.dueGen_within | with_reducible apply State.notifyKey_within | split

theorem execNonceBindingExpiry_within {A : List Area} (a0 : Area.rot ∈ A) {s₀ s : State} (ctx lid : Nat) (h₀ : Within A s₀ s) :
    Out.within A s₀ (execNonceBindingExpiry ctx lid s) := by
  unfold execNonceBindingExpiry
  show Within A s₀ _
  repeat' first | intro _ | with_reducible assumption | with_reducible apply State.setRot_within

theorem execDeliveryCallTimeout_within {A : List Area} (a0 : Area.regs ∈ A) (a1 : Area.aregs ∈ A) (a2 : Area.ports ∈ A) (a3 : Area.agPorts ∈ A) (a4 : Area.route ∈ A) (a5 : Area.ttbs ∈ A) (a6 : Area.tile ∈ A) (a7 : Area.ctxs ∈ A) (a8 : Area.rot ∈ A) (a9 : Area.beyjo ∈ A) (a10 : Area.flt ∈ A) (a11 : Area.agFlt ∈ A) (a12 : Area.rst ∈ A) (a13 : Area.pair ∈ A) (a14 : Area.out ∈ A) (a15 : Area.freeCtr ∈ A) {s₀ s : State} (ctx keyId lid : Nat) (h₀ : Within A s₀ s) :
    Out.within A s₀ (execDeliveryCallTimeout ctx keyId lid s) := by
  unfold execDeliveryCallTimeout
  show Within A s₀ _
  repeat' first | with_reducible exact fun _ k => k | with_reducible assumption | with_reducible apply Within.ite | with_reducible apply State.failEvidence_within | with_reducible apply State.settle_within | split

theorem State.deliveryCall_within {A : List Area} (a0 : Area.regs ∈ A) (a1 : Area.aregs ∈ A) (a2 : Area.ports ∈ A) (a3 : Area.agPorts ∈ A) (a4 : Area.route ∈ A) (a5 : Area.ttbs ∈ A) (a6 : Area.tile ∈ A) (a7 : Area.ctxs ∈ A) (a8 : Area.rot ∈ A) (a9 : Area.beyjo ∈ A) (a10 : Area.flt ∈ A) (a11 : Area.agFlt ∈ A) (a12 : Area.rst ∈ A) (a13 : Area.pair ∈ A) (a14 : Area.out ∈ A) (a15 : Area.freeCtr ∈ A) {s₀ s : State} (i n c k lid : Nat) (ev : Option Evidence) (chain : AgentChain) (h₀ : Within A s₀ s) :
    Within A s₀ (State.deliveryCall s i n c k lid ev chain) := by
  unfold State.deliveryCall
  repeat' first | with_reducible exact fun _ k => k | (extract_lets +onlyGivenNames x; revert x; with_reducible first | apply Within.letS A s₀ | apply Within.letQ A s₀ | apply Within.letP A s₀ | apply Within.letV) | intro _ | with_reducible assumption | with_reducible apply State.mailReject_within | with_reducible apply State.setRot_within | with_reducible apply State.failEvidence_within | with_reducible apply State.mailOk_within | with_reducible apply State.settle_within | with_reducible apply State.judge_within | split | with_reducible apply_assumption

theorem execEvidencePut_within {A : List Area} (a0 : Area.regs ∈ A) (a1 : Area.aregs ∈ A) (a2 : Area.ports ∈ A) (a3 : Area.agPorts ∈ A) (a4 : Area.route ∈ A) (a5 : Area.ttbs ∈ A) (a6 : Area.tile ∈ A) (a7 : Area.ctxs ∈ A) (a8 : Area.rot ∈ A) (a9 : Area.beyjo ∈ A) (a10 : Area.flt ∈ A) (a11 : Area.agFlt ∈ A) (a12 : Area.rst ∈ A) (a13 : Area.pair ∈ A) (a14 : Area.out ∈ A) (a15 : Area.freeCtr ∈ A) {s₀ s : State} (index slot : Nat) (ev : Option Evidence) (chain : AgentChain) (h₀ : Within A s₀ s) :
    Out.within A s₀ (execEvidencePut index slot ev chain s) := by
  unfold execEvidencePut
  show Within A s₀ _
  repeat' first | with_reducible exact fun _ k => k | (extract_lets +onlyGivenNames x; revert x; with_reducible first | apply Within.letS A s₀ | apply Within.letQ A s₀ | apply Within.letP A s₀ | apply Within.letF A s₀ | apply Within.letK A s₀ | apply Within.letG A s₀ | apply Within.letF1x A s₀ | apply Within.letH A s₀ | apply Within.letV) | intro _ | with_reducible assumption | with_reducible apply Within.ite | with_reducible apply State.mailReject_within | with_reducible apply State.drawNonce_within | with_reducible apply State.setRot_within | with_reducible apply State.mailOk_within | with_reducible apply State.deliveryCall_within | split | with_reducible apply_assumption

theorem execGuardianReport_within {A : List Area} (a0 : Area.regs ∈ A) (a1 : Area.aregs ∈ A) (a2 : Area.ports ∈ A) (a3 : Area.agPorts ∈ A) (a4 : Area.route ∈ A) (a5 : Area.rot ∈ A) (a6 : Area.beyjo ∈ A) (a7 : Area.flt ∈ A) (a8 : Area.agFlt ∈ A) (a9 : Area.pair ∈ A) (a10 : Area.out ∈ A) (a11 : Area.freeCtr ∈ A) {s₀ s : State} (die fuse serial fw : Nat) (h₀ : Within A s₀ s) :
    Out.within A s₀ (execGuardianReport die fuse serial fw s) := by
  unfold execGuardianReport
  show Within A s₀ _
  repeat' first | with_reducible exact fun _ k => k | (extract_lets +onlyGivenNames x; revert x; with_reducible first | apply Within.letS A s₀ | apply Within.letQ A s₀ | apply Within.letP A s₀ | apply Within.letV) | intro _ | with_reducible assumption | with_reducible apply Within.ite | with_reducible apply State.guardReport_within | with_reducible apply State.setRot_within | split | with_reducible apply_assumption

theorem execGuardianReportMissing_within {A : List Area} (a0 : Area.regs ∈ A) (a1 : Area.flt ∈ A) (a2 : Area.agFlt ∈ A) {s₀ s : State} (die : Nat) (h₀ : Within A s₀ s) :
    Out.within A s₀ (execGuardianReportMissing die s) := by
  unfold execGuardianReportMissing
  show Within A s₀ _
  repeat' first | with_reducible assumption | with_reducible apply Within.ite | with_reducible apply State.guardBad_within | split

theorem State.lcsSeal_within {A : List Area} (a0 : Area.regs ∈ A) (a1 : Area.aregs ∈ A) (a2 : Area.tile ∈ A) (a3 : Area.hbm ∈ A) (a4 : Area.rot ∈ A) (a5 : Area.beyjo ∈ A) (a6 : Area.flt ∈ A) (a7 : Area.agFlt ∈ A) (a8 : Area.rst ∈ A) (a9 : Area.pair ∈ A) {s₀ s : State} (confirm : Nat) (h₀ : Within A s₀ s) :
    Within A s₀ (State.lcsSeal s confirm) := by
  unfold State.lcsSeal
  repeat' first | with_reducible exact fun _ k => k | with_reducible assumption | with_reducible apply State.lcsErr_within | with_reducible apply State.lcsTo_within | with_reducible apply State.jigOff_within | split

theorem execLcsSeal_within {A : List Area} (a0 : Area.regs ∈ A) (a1 : Area.aregs ∈ A) (a2 : Area.tile ∈ A) (a3 : Area.hbm ∈ A) (a4 : Area.rot ∈ A) (a5 : Area.beyjo ∈ A) (a6 : Area.flt ∈ A) (a7 : Area.agFlt ∈ A) (a8 : Area.rst ∈ A) (a9 : Area.pair ∈ A) {s₀ s : State} (confirm : Nat) (h₀ : Within A s₀ s) :
    Out.within A s₀ (execLcsSeal confirm s) := by
  unfold execLcsSeal
  show Within A s₀ _
  repeat' first | with_reducible exact fun _ k => k | with_reducible assumption | with_reducible apply State.lcsSeal_within

theorem State.lcsReturn_within {A : List Area} (a0 : Area.regs ∈ A) (a1 : Area.aregs ∈ A) (a2 : Area.tile ∈ A) (a3 : Area.hbm ∈ A) (a4 : Area.rot ∈ A) (a5 : Area.beyjo ∈ A) (a6 : Area.flt ∈ A) (a7 : Area.agFlt ∈ A) (a8 : Area.rst ∈ A) (a9 : Area.pair ∈ A) {s₀ s : State} (confirm : Nat) (h₀ : Within A s₀ s) :
    Within A s₀ (State.lcsReturn s confirm) := by
  unfold State.lcsReturn
  repeat' first | with_reducible exact fun _ k => k | with_reducible assumption | with_reducible apply State.lcsErr_within | with_reducible apply State.lcsTo_within | with_reducible apply State.jigOff_within | split

theorem execLcsReturn_within {A : List Area} (a0 : Area.regs ∈ A) (a1 : Area.aregs ∈ A) (a2 : Area.tile ∈ A) (a3 : Area.hbm ∈ A) (a4 : Area.rot ∈ A) (a5 : Area.beyjo ∈ A) (a6 : Area.flt ∈ A) (a7 : Area.agFlt ∈ A) (a8 : Area.rst ∈ A) (a9 : Area.pair ∈ A) {s₀ s : State} (confirm : Nat) (h₀ : Within A s₀ s) :
    Out.within A s₀ (execLcsReturn confirm s) := by
  unfold execLcsReturn
  show Within A s₀ _
  repeat' first | with_reducible exact fun _ k => k | with_reducible assumption | with_reducible apply State.lcsReturn_within

end Sys2Proof.Machine
end

