-- ==== Sys2Proof/Laws/RodLoadWithin.lean ====
section
/-! SUPPORT. The parts of the state that the definitions of Machine/RodLoad.lean reach. -/

set_option linter.unreachableTactic false
set_option linter.unusedTactic false

namespace Sys2Proof.Machine

theorem State.portRoles_within {A : List Area} (a0 : Area.regs ∈ A) (a1 : Area.aregs ∈ A) (a2 : Area.ports ∈ A) (a3 : Area.agPorts ∈ A) (a4 : Area.route ∈ A) (a5 : Area.flt ∈ A) (a6 : Area.agFlt ∈ A) (a7 : Area.out ∈ A) {s₀ s : State}  (h₀ : Within A s₀ s) :
    Within A s₀ (State.portRoles s) := by
  unfold State.portRoles
  repeat' first | (extract_lets +onlyGivenNames x; revert x; with_reducible first | apply Within.letS A s₀ | apply Within.letQ A s₀ | apply Within.letP A s₀ | apply Within.letF A s₀ | apply Within.letK A s₀ | apply Within.letG A s₀ | apply Within.letF1x A s₀ | apply Within.letH A s₀ | apply Within.letV) | intro _ | with_reducible assumption | with_reducible apply Within.foldl | with_reducible apply State.remoteWrite_within | with_reducible apply_assumption

theorem State.portByRod_within {A : List Area} (a0 : Area.regs ∈ A) (a1 : Area.aregs ∈ A) (a2 : Area.agTime ∈ A) (a3 : Area.ports ∈ A) (a4 : Area.agPorts ∈ A) (a5 : Area.route ∈ A) (a6 : Area.flt ∈ A) (a7 : Area.agFlt ∈ A) (a8 : Area.pair ∈ A) (a9 : Area.boot ∈ A) (a10 : Area.out ∈ A) {s₀ s : State} (p : Nat) (h₀ : Within A s₀ s) :
    Within A s₀ (State.portByRod s p) := by
  unfold State.portByRod
  repeat' first | with_reducible exact fun _ k => k | (extract_lets +onlyGivenNames x; revert x; with_reducible first | apply Within.letS A s₀ | apply Within.letQ A s₀ | apply Within.letP A s₀ | apply Within.letF A s₀ | apply Within.letK A s₀ | apply Within.letG A s₀ | apply Within.letF1x A s₀ | apply Within.letH A s₀ | apply Within.letV) | intro _ | with_reducible assumption | with_reducible apply Within.ite | with_reducible apply State.setPort_within | with_reducible apply State.linkDown_within | with_reducible apply State.wr_within | with_reducible apply State.judgeWidth_within | split | with_reducible apply_assumption

theorem State.capAfresh_within {A : List Area} (a0 : Area.route ∈ A) {s₀ s : State} (r : Rod) (h₀ : Within A s₀ s) :
    Within A s₀ (State.capAfresh s r) := by
  unfold State.capAfresh
  repeat' first | (extract_lets +onlyGivenNames x; revert x; with_reducible first | apply Within.letS A s₀ | apply Within.letQ A s₀ | apply Within.letP A s₀ | apply Within.letV) | intro _ | with_reducible assumption | with_reducible apply Within.foldl | with_reducible apply State.setRoute_within | with_reducible apply State.capUpdate_within | with_reducible apply_assumption

theorem State.identAgain_within {A : List Area} (a0 : Area.ports ∈ A) (a1 : Area.agPorts ∈ A) (a2 : Area.out ∈ A) {s₀ s : State}  (h₀ : Within A s₀ s) :
    Within A s₀ (State.identAgain s) := by
  unfold State.identAgain
  repeat' first | intro _ | with_reducible assumption | with_reducible apply Within.ite | with_reducible apply Within.foldl | with_reducible apply State.ctl_within | with_reducible apply State.releaseHold_within | split

theorem State.setReferees_within {A : List Area} (a0 : Area.regs ∈ A) (a1 : Area.pair ∈ A) {s₀ s : State} (r : Rod) (h₀ : Within A s₀ s) :
    Within A s₀ (State.setReferees s r) := by
  unfold State.setReferees
  repeat' first | with_reducible exact fun _ k => k | (extract_lets +onlyGivenNames x; revert x; with_reducible first | apply Within.letS A s₀ | apply Within.letQ A s₀ | apply Within.letP A s₀ | apply Within.letV) | intro _ | with_reducible assumption | with_reducible apply Within.ite | with_reducible apply State.wr_within | with_reducible apply State.setPair_within | split | with_reducible apply_assumption

theorem State.retrySpares_within {A : List Area} (a0 : Area.regs ∈ A) (a1 : Area.aregs ∈ A) (a2 : Area.ports ∈ A) (a3 : Area.agPorts ∈ A) (a4 : Area.route ∈ A) (a5 : Area.ttbs ∈ A) (a6 : Area.tile ∈ A) (a7 : Area.ctxs ∈ A) (a8 : Area.rot ∈ A) (a9 : Area.beyjo ∈ A) (a10 : Area.flt ∈ A) (a11 : Area.agFlt ∈ A) (a12 : Area.rst ∈ A) (a13 : Area.pair ∈ A) (a14 : Area.out ∈ A) (a15 : Area.freeCtr ∈ A) {s₀ s : State}  (h₀ : Within A s₀ s) :
    Within A s₀ (State.retrySpares s) := by
  unfold State.retrySpares
  repeat' first | with_reducible exact fun _ k => k | intro _ | with_reducible assumption | with_reducible apply Within.ite | with_reducible apply Within.foldl | with_reducible apply State.remapStart_within | split

theorem State.rodForce_within {A : List Area} (a0 : Area.regs ∈ A) (a1 : Area.aregs ∈ A) (a2 : Area.agTime ∈ A) (a3 : Area.ports ∈ A) (a4 : Area.agPorts ∈ A) (a5 : Area.route ∈ A) (a6 : Area.ttbs ∈ A) (a7 : Area.tile ∈ A) (a8 : Area.ctxs ∈ A) (a9 : Area.rot ∈ A) (a10 : Area.beyjo ∈ A) (a11 : Area.flt ∈ A) (a12 : Area.agFlt ∈ A) (a13 : Area.rst ∈ A) (a14 : Area.pair ∈ A) (a15 : Area.boot ∈ A) (a16 : Area.out ∈ A) (a17 : Area.freeCtr ∈ A) {s₀ s : State} (r : Rod) (bs : List Byte) (h₀ : Within A s₀ s) :
    Within A s₀ (State.rodForce s r bs) := by
  unfold State.rodForce
  repeat' first | with_reducible exact fun _ k => k | (extract_lets +onlyGivenNames x; revert x; with_reducible first | apply Within.letS A s₀ | apply Within.letQ A s₀ | apply Within.letP A s₀ | apply Within.letV) | intro _ | with_reducible assumption | with_reducible apply Within.ite | with_reducible apply Within.foldl | with_reducible apply State.setBoot_within | with_reducible apply State.wr_within | with_reducible apply State.portByRod_within | with_reducible apply State.identAgain_within | with_reducible apply State.capAfresh_within | with_reducible apply State.setReferees_within | with_reducible apply State.portRoles_within | with_reducible apply State.retrySpares_within | split | with_reducible apply_assumption

theorem State.compareDone_within {A : List Area} (a0 : Area.regs ∈ A) (a1 : Area.aregs ∈ A) (a2 : Area.ports ∈ A) (a3 : Area.agPorts ∈ A) (a4 : Area.route ∈ A) (a5 : Area.ttbs ∈ A) (a6 : Area.tile ∈ A) (a7 : Area.beyjo ∈ A) (a8 : Area.flt ∈ A) (a9 : Area.agFlt ∈ A) (a10 : Area.pair ∈ A) (a11 : Area.boot ∈ A) (a12 : Area.out ∈ A) {s₀ s : State}  (h₀ : Within A s₀ s) :
    Within A s₀ (State.compareDone s) := by
  unfold State.compareDone
  repeat' first | with_reducible exact fun _ k => k | (extract_lets +onlyGivenNames x; revert x; with_reducible first | apply Within.letS A s₀ | apply Within.letQ A s₀ | apply Within.letP A s₀ | apply Within.letV) | intro _ | with_reducible assumption | with_reducible apply Within.ite | with_reducible apply State.setBoot_within | with_reducible apply State.mailOk_within | with_reducible apply State.requestFlip_within | split | with_reducible apply_assumption

theorem State.takeReports_within {A : List Area} (a0 : Area.boot ∈ A) {s₀ s : State} (xs : List NeighReport) (h₀ : Within A s₀ s) :
    Within A s₀ (State.takeReports s xs) := by
  unfold State.takeReports
  repeat' first | with_reducible exact fun _ k => k | (extract_lets +onlyGivenNames x; revert x; with_reducible first | apply Within.letS A s₀ | apply Within.letQ A s₀ | apply Within.letP A s₀ | apply Within.letV) | intro _ | with_reducible assumption | with_reducible apply State.setBoot_within | with_reducible apply_assumption

theorem execRodCompare_within {A : List Area} (a0 : Area.regs ∈ A) (a1 : Area.aregs ∈ A) (a2 : Area.ports ∈ A) (a3 : Area.agPorts ∈ A) (a4 : Area.route ∈ A) (a5 : Area.ttbs ∈ A) (a6 : Area.tile ∈ A) (a7 : Area.beyjo ∈ A) (a8 : Area.flt ∈ A) (a9 : Area.agFlt ∈ A) (a10 : Area.pair ∈ A) (a11 : Area.boot ∈ A) (a12 : Area.out ∈ A) {s₀ s : State} (reports : List NeighReport) (h₀ : Within A s₀ s) :
    Out.within A s₀ (execRodCompare reports s) := by
  unfold execRodCompare
  show Within A s₀ _
  repeat' first | with_reducible exact fun _ k => k | with_reducible assumption | with_reducible apply Within.ite | with_reducible apply State.takeReports_within | with_reducible apply State.compareRod_within | with_reducible apply State.compareDone_within | split

theorem execRodSilentTimeout_within {A : List Area} (a0 : Area.regs ∈ A) (a1 : Area.aregs ∈ A) (a2 : Area.ports ∈ A) (a3 : Area.agPorts ∈ A) (a4 : Area.route ∈ A) (a5 : Area.ttbs ∈ A) (a6 : Area.tile ∈ A) (a7 : Area.beyjo ∈ A) (a8 : Area.flt ∈ A) (a9 : Area.agFlt ∈ A) (a10 : Area.pair ∈ A) (a11 : Area.boot ∈ A) (a12 : Area.out ∈ A) {s₀ s : State} (fid : Nat) (h₀ : Within A s₀ s) :
    Out.within A s₀ (execRodSilentTimeout fid s) := by
  unfold execRodSilentTimeout
  show Within A s₀ _
  repeat' first | with_reducible exact fun _ k => k | intro _ | with_reducible assumption | with_reducible apply Within.ite | with_reducible apply State.setBoot_within | with_reducible apply State.compareRod_within | with_reducible apply State.compareDone_within | split

theorem State.rodPassed_within {A : List Area} (a0 : Area.regs ∈ A) (a1 : Area.aregs ∈ A) (a2 : Area.agTime ∈ A) (a3 : Area.ports ∈ A) (a4 : Area.agPorts ∈ A) (a5 : Area.route ∈ A) (a6 : Area.ttbs ∈ A) (a7 : Area.tile ∈ A) (a8 : Area.ctxs ∈ A) (a9 : Area.rot ∈ A) (a10 : Area.beyjo ∈ A) (a11 : Area.flt ∈ A) (a12 : Area.agFlt ∈ A) (a13 : Area.rst ∈ A) (a14 : Area.pair ∈ A) (a15 : Area.boot ∈ A) (a16 : Area.out ∈ A) (a17 : Area.freeCtr ∈ A) {s₀ s : State} (i n : Nat) (r : Rod) (bs : List Byte) (reports : List NeighReport) (h₀ : Within A s₀ s) :
    Within A s₀ (State.rodPassed s i n r bs reports) := by
  unfold State.rodPassed
  repeat' first | with_reducible exact fun _ k => k | (extract_lets +onlyGivenNames x; revert x; with_reducible first | apply Within.letS A s₀ | apply Within.letQ A s₀ | apply Within.letP A s₀ | apply Within.letV) | intro _ | with_reducible assumption | with_reducible apply Within.ite | with_reducible apply State.rodForce_within | with_reducible apply State.compareRod_within | with_reducible apply State.takeReports_within | with_reducible apply State.setBoot_within | with_reducible apply State.mailOk_within | with_reducible apply State.requestFlip_within | with_reducible apply State.mailReject_within | with_reducible apply State.mailRuns_within | with_reducible apply State.compareDone_within | split | with_reducible apply_assumption

theorem execRodLoad_within {A : List Area} (a0 : Area.regs ∈ A) (a1 : Area.aregs ∈ A) (a2 : Area.agTime ∈ A) (a3 : Area.ports ∈ A) (a4 : Area.agPorts ∈ A) (a5 : Area.route ∈ A) (a6 : Area.ttbs ∈ A) (a7 : Area.tile ∈ A) (a8 : Area.ctxs ∈ A) (a9 : Area.rot ∈ A) (a10 : Area.beyjo ∈ A) (a11 : Area.flt ∈ A) (a12 : Area.agFlt ∈ A) (a13 : Area.rst ∈ A) (a14 : Area.pair ∈ A) (a15 : Area.boot ∈ A) (a16 : Area.out ∈ A) (a17 : Area.freeCtr ∈ A) {s₀ s : State} (index slot : Nat) (h₀ : Within A s₀ s) :
    Out.within A s₀ (execRodLoad index slot s) := by
  unfold execRodLoad
  show Within A s₀ _
  repeat' first | with_reducible exact fun _ k => k | (extract_lets +onlyGivenNames x; revert x; with_reducible first | apply Within.letS A s₀ | apply Within.letQ A s₀ | apply Within.letP A s₀ | apply Within.letV) | intro _ | with_reducible assumption | with_reducible apply Within.ite | with_reducible apply State.mailReject_within | with_reducible apply State.startMode_within | with_reducible apply State.wr_within | with_reducible apply State.rodPassed_within | split | with_reducible apply_assumption

end Sys2Proof.Machine
end

