-- ==== Sys2Proof/Laws/FwWithin.lean ====
section
/-! SUPPORT. The parts of the state that the definitions of Machine/Fw.lean reach. -/

set_option linter.unreachableTactic false
set_option linter.unusedTactic false

namespace Sys2Proof.Machine

theorem State.showFw_within {A : List Area} (a0 : Area.regs ∈ A) {s₀ s : State} (kind st svn ver : Nat) (h₀ : Within A s₀ s) :
    Within A s₀ (State.showFw s kind st svn ver) := by
  unfold State.showFw
  repeat' first | with_reducible assumption | with_reducible apply State.wr_within

theorem State.showDist_within {A : List Area} (a0 : Area.regs ∈ A) {s₀ s : State} (st : Nat) (h₀ : Within A s₀ s) :
    Within A s₀ (State.showDist s st) := by
  unfold State.showDist
  repeat' first | (extract_lets +onlyGivenNames x; revert x; with_reducible first | apply Within.letS A s₀ | apply Within.letQ A s₀ | apply Within.letP A s₀ | apply Within.letF A s₀ | apply Within.letK A s₀ | apply Within.letG A s₀ | apply Within.letF1x A s₀ | apply Within.letH A s₀ | apply Within.letV) | intro _ | with_reducible assumption | with_reducible apply State.wr_within | split | with_reducible apply_assumption

theorem State.startDist_within {A : List Area} (a0 : Area.regs ∈ A) (a1 : Area.boot ∈ A) {s₀ s : State}  (h₀ : Within A s₀ s) :
    Within A s₀ (State.startDist s) := by
  unfold State.startDist
  repeat' first | with_reducible exact fun _ k => k | (extract_lets +onlyGivenNames x; revert x; with_reducible first | apply Within.letS A s₀ | apply Within.letQ A s₀ | apply Within.letP A s₀ | apply Within.letV) | intro _ | with_reducible assumption | with_reducible apply Within.ite | with_reducible apply State.startMode_within | with_reducible apply State.setBoot_within | with_reducible apply State.showDist_within | split | with_reducible apply_assumption

theorem State.stageImage_within {A : List Area} (a0 : Area.regs ∈ A) (a1 : Area.rot ∈ A) (a2 : Area.boot ∈ A) {s₀ s : State} (x : Container) (h₀ : Within A s₀ s) :
    Within A s₀ (State.stageImage s x) := by
  unfold State.stageImage
  repeat' first | with_reducible exact fun _ k => k | (extract_lets +onlyGivenNames x; revert x; with_reducible first | apply Within.letS A s₀ | apply Within.letQ A s₀ | apply Within.letP A s₀ | apply Within.letV) | intro _ | with_reducible assumption | with_reducible apply State.setBoot_within | with_reducible apply State.showFw_within | with_reducible apply State.showUpdate_within | with_reducible apply_assumption

theorem State.stage_within {A : List Area} (a0 : Area.regs ∈ A) (a1 : Area.tile ∈ A) (a2 : Area.rot ∈ A) (a3 : Area.beyjo ∈ A) (a4 : Area.boot ∈ A) {s₀ s : State} (i n len : Nat) (distribute sigOk flashOk : Bool) (h₀ : Within A s₀ s) :
    Within A s₀ (State.stage s i n len distribute sigOk flashOk) := by
  unfold State.stage
  repeat' first | with_reducible exact fun _ k => k | (extract_lets +onlyGivenNames x; revert x; with_reducible first | apply Within.letS A s₀ | apply Within.letQ A s₀ | apply Within.letP A s₀ | apply Within.letV) | intro _ | with_reducible assumption | with_reducible apply Within.ite | with_reducible apply State.showFw_within | with_reducible apply State.mailReject_within | with_reducible apply State.stageImage_within | with_reducible apply State.mailOk_within | with_reducible apply State.startDist_within | split | with_reducible apply_assumption

theorem execFwStage_within {A : List Area} (a0 : Area.regs ∈ A) (a1 : Area.tile ∈ A) (a2 : Area.rot ∈ A) (a3 : Area.beyjo ∈ A) (a4 : Area.boot ∈ A) {s₀ s : State} (index slot : Nat) (sigOk flashOk : Bool) (h₀ : Within A s₀ s) :
    Out.within A s₀ (execFwStage index slot sigOk flashOk s) := by
  unfold execFwStage
  show Within A s₀ _
  repeat' first | with_reducible exact fun _ k => k | (extract_lets +onlyGivenNames x; revert x; with_reducible first | apply Within.letS A s₀ | apply Within.letQ A s₀ | apply Within.letP A s₀ | apply Within.letV) | intro _ | with_reducible assumption | with_reducible apply Within.ite | with_reducible apply State.mailReject_within | with_reducible apply State.dropTry_within | with_reducible apply State.showUpdate_within | with_reducible apply State.wr_within | with_reducible apply State.mailOk_within | with_reducible apply State.stage_within | split | with_reducible apply_assumption

theorem State.fwCast_within {A : List Area} (a0 : Area.ports ∈ A) (a1 : Area.agPorts ∈ A) {s₀ s : State} (words : List Nat) (h₀ : Within A s₀ s) :
    Within A s₀ (State.fwCast s words) := by
  unfold State.fwCast
  repeat' first | (extract_lets +onlyGivenNames x; revert x; with_reducible first | apply Within.letS A s₀ | apply Within.letQ A s₀ | apply Within.letP A s₀ | apply Within.letV) | intro _ | with_reducible assumption | with_reducible apply Within.foldl | with_reducible apply State.enqueue_within | with_reducible apply_assumption

theorem State.fwTo_within {A : List Area} (a0 : Area.regs ∈ A) (a1 : Area.aregs ∈ A) (a2 : Area.ports ∈ A) (a3 : Area.agPorts ∈ A) (a4 : Area.flt ∈ A) (a5 : Area.agFlt ∈ A) (a6 : Area.out ∈ A) {s₀ s : State} (f : Nat) (words : List Nat) (h₀ : Within A s₀ s) :
    Within A s₀ (State.fwTo s f words) := by
  unfold State.fwTo
  repeat' first | with_reducible assumption | with_reducible apply State.send_within

theorem State.distBeat_within {A : List Area} (a0 : Area.regs ∈ A) (a1 : Area.ports ∈ A) (a2 : Area.agPorts ∈ A) (a3 : Area.boot ∈ A) {s₀ s : State}  (h₀ : Within A s₀ s) :
    Within A s₀ (State.distBeat s) := by
  unfold State.distBeat
  repeat' first | with_reducible exact fun _ k => k | (extract_lets +onlyGivenNames x; revert x; with_reducible first | apply Within.letS A s₀ | apply Within.letQ A s₀ | apply Within.letP A s₀ | apply Within.letF A s₀ | apply Within.letK A s₀ | apply Within.letG A s₀ | apply Within.letF1x A s₀ | apply Within.letH A s₀ | apply Within.letV) | intro _ | with_reducible assumption | with_reducible apply Within.ite | with_reducible apply Within.foldl | with_reducible apply State.setBoot_within | with_reducible apply State.fwCast_within | with_reducible apply State.wr_within | split | with_reducible apply_assumption

theorem execFwDistribute_within {A : List Area} (a0 : Area.regs ∈ A) (a1 : Area.boot ∈ A) {s₀ s : State}  (h₀ : Within A s₀ s) :
    Out.within A s₀ (execFwDistribute s) := by
  unfold execFwDistribute
  show Within A s₀ _
  repeat' first | with_reducible exact fun _ k => k | with_reducible assumption | with_reducible apply State.startDist_within

theorem State.distEnd_within {A : List Area} (a0 : Area.regs ∈ A) (a1 : Area.rot ∈ A) (a2 : Area.boot ∈ A) {s₀ s : State}  (h₀ : Within A s₀ s) :
    Within A s₀ (State.distEnd s) := by
  unfold State.distEnd
  repeat' first | with_reducible exact fun _ k => k | (extract_lets +onlyGivenNames x; revert x; with_reducible first | apply Within.letS A s₀ | apply Within.letQ A s₀ | apply Within.letP A s₀ | apply Within.letV) | intro _ | with_reducible assumption | with_reducible apply Within.ite | with_reducible apply State.showDist_within | with_reducible apply State.setBoot_within | with_reducible apply State.activate_within | with_reducible apply State.showImages_within | with_reducible apply State.showUpdate_within | with_reducible apply State.setRot_within | with_reducible apply State.measured_within | split | with_reducible apply_assumption

theorem execFwRepairRound_within {A : List Area} (a0 : Area.regs ∈ A) (a1 : Area.aregs ∈ A) (a2 : Area.ports ∈ A) (a3 : Area.agPorts ∈ A) (a4 : Area.rot ∈ A) (a5 : Area.flt ∈ A) (a6 : Area.agFlt ∈ A) (a7 : Area.boot ∈ A) (a8 : Area.out ∈ A) {s₀ s : State} (reports : List FwReport) (h₀ : Within A s₀ s) :
    Out.within A s₀ (execFwRepairRound reports s) := by
  unfold execFwRepairRound
  show Within A s₀ _
  repeat' first | with_reducible exact fun _ k => k | (extract_lets +onlyGivenNames x; revert x; with_reducible first | apply Within.letS A s₀ | apply Within.letQ A s₀ | apply Within.letP A s₀ | apply Within.letV) | intro _ | with_reducible assumption | with_reducible apply Within.ite | with_reducible apply Within.foldl | with_reducible apply Within.foldlPair | with_reducible apply State.fwTo_within | with_reducible apply State.setBoot_within | with_reducible apply State.showDist_within | with_reducible apply State.distEnd_within | split | with_reducible apply_assumption

theorem execFwActivateSend_within {A : List Area} (a0 : Area.regs ∈ A) (a1 : Area.aregs ∈ A) (a2 : Area.ports ∈ A) (a3 : Area.agPorts ∈ A) (a4 : Area.flt ∈ A) (a5 : Area.agFlt ∈ A) (a6 : Area.boot ∈ A) (a7 : Area.out ∈ A) {s₀ s : State}  (h₀ : Within A s₀ s) :
    Out.within A s₀ (execFwActivateSend s) := by
  unfold execFwActivateSend
  show Within A s₀ _
  repeat' first | with_reducible exact fun _ k => k | (extract_lets +onlyGivenNames x; revert x; with_reducible first | apply Within.letS A s₀ | apply Within.letQ A s₀ | apply Within.letP A s₀ | apply Within.letV) | intro _ | with_reducible assumption | with_reducible apply Within.ite | with_reducible apply Within.foldl | with_reducible apply Within.foldlPair | with_reducible apply State.fwTo_within | with_reducible apply State.setBoot_within | split | with_reducible apply_assumption

theorem State.agentRun_within {A : List Area} (a0 : Area.aregs ∈ A) (a1 : Area.ag ∈ A) {s₀ s : State} (x : Container) (h₀ : Within A s₀ s) :
    Within A s₀ (State.agentRun s x) := by
  unfold State.agentRun
  repeat' first | with_reducible exact fun _ k => k | (extract_lets +onlyGivenNames x; revert x; with_reducible first | apply Within.letS A s₀ | apply Within.letQ A s₀ | apply Within.letP A s₀ | apply Within.letV) | intro _ | with_reducible assumption | with_reducible apply State.setAg_within | with_reducible apply State.awr_within | with_reducible apply_assumption

theorem execFwBegin_within {A : List Area} (a0 : Area.ag ∈ A) {s₀ s : State} (cell : Cell) (h₀ : Within A s₀ s) :
    Out.within A s₀ (execFwBegin cell s) := by
  unfold execFwBegin
  show Within A s₀ _
  repeat' first | with_reducible exact fun _ k => k | (extract_lets +onlyGivenNames x; revert x; with_reducible first | apply Within.letS A s₀ | apply Within.letQ A s₀ | apply Within.letP A s₀ | apply Within.letV) | intro _ | with_reducible assumption | with_reducible apply Within.ite | with_reducible apply State.setAg_within | with_reducible apply State.drop_within | split | with_reducible apply_assumption

theorem State.fwCheck_within {A : List Area} (a0 : Area.aregs ∈ A) (a1 : Area.ag ∈ A) {s₀ s : State} (f : AgFw) (sigOk : Bool) (h₀ : Within A s₀ s) :
    Within A s₀ (State.fwCheck s f sigOk) := by
  unfold State.fwCheck
  repeat' first | with_reducible exact fun _ k => k | (extract_lets +onlyGivenNames x; revert x; with_reducible first | apply Within.letS A s₀ | apply Within.letQ A s₀ | apply Within.letP A s₀ | apply Within.letF A s₀ | apply Within.letK A s₀ | apply Within.letG A s₀ | apply Within.letF1x A s₀ | apply Within.letH A s₀ | apply Within.letV) | intro _ | with_reducible assumption | with_reducible apply Within.ite | with_reducible apply State.setAg_within | with_reducible apply State.awr_within | split | with_reducible apply_assumption

theorem execFwData_within {A : List Area} (a0 : Area.aregs ∈ A) (a1 : Area.ag ∈ A) {s₀ s : State} (cell : Cell) (sigOk : Bool) (h₀ : Within A s₀ s) :
    Out.within A s₀ (execFwData cell sigOk s) := by
  unfold execFwData
  show Within A s₀ _
  repeat' first | with_reducible exact fun _ k => k | (extract_lets +onlyGivenNames x; revert x; with_reducible first | apply Within.letS A s₀ | apply Within.letQ A s₀ | apply Within.letP A s₀ | apply Within.letV) | intro _ | with_reducible assumption | with_reducible apply Within.ite | with_reducible apply State.drop_within | with_reducible apply State.setAg_within | with_reducible apply State.fwCheck_within | split | with_reducible apply_assumption

theorem execFwActivate_within {A : List Area} (a0 : Area.ag ∈ A) {s₀ s : State} (cell : Cell) (h₀ : Within A s₀ s) :
    Out.within A s₀ (execFwActivate cell s) := by
  unfold execFwActivate
  show Within A s₀ _
  repeat' first | with_reducible exact fun _ k => k | intro _ | with_reducible assumption | with_reducible apply Within.ite | with_reducible apply State.setAg_within | split

theorem execFwActivateAt_within {A : List Area} (a0 : Area.aregs ∈ A) (a1 : Area.ag ∈ A) {s₀ s : State}  (h₀ : Within A s₀ s) :
    Out.within A s₀ (execFwActivateAt s) := by
  unfold execFwActivateAt
  show Within A s₀ _
  repeat' first | with_reducible exact fun _ k => k | intro _ | with_reducible assumption | with_reducible apply Within.ite | with_reducible apply State.agentRun_within | with_reducible apply State.setAg_within | split

theorem execFwAbort_within {A : List Area} (a0 : Area.regs ∈ A) (a1 : Area.ports ∈ A) (a2 : Area.agPorts ∈ A) (a3 : Area.boot ∈ A) (a4 : Area.ag ∈ A) {s₀ s : State} (site : Site) (cell : Cell) (h₀ : Within A s₀ s) :
    Out.within A s₀ (execFwAbort site cell s) := by
  unfold execFwAbort
  show Within A s₀ _
  repeat' first | with_reducible exact fun _ k => k | intro _ | with_reducible assumption | with_reducible apply Within.ite | with_reducible apply State.setAg_within | with_reducible apply State.fwCast_within | with_reducible apply State.setBoot_within | with_reducible apply State.showDist_within | split

theorem execAgentFwGo_within {A : List Area} (a0 : Area.aregs ∈ A) (a1 : Area.ag ∈ A) {s₀ s : State} (sigOk : Bool) (h₀ : Within A s₀ s) :
    Out.within A s₀ (execAgentFwGo sigOk s) := by
  unfold execAgentFwGo
  show Within A s₀ _
  repeat' first | with_reducible exact fun _ k => k | (extract_lets +onlyGivenNames x; revert x; with_reducible first | apply Within.letS A s₀ | apply Within.letQ A s₀ | apply Within.letP A s₀ | apply Within.letV) | intro _ | with_reducible assumption | with_reducible apply Within.ite | with_reducible apply State.awr_within | with_reducible apply State.agentRun_within | split | with_reducible apply_assumption

end Sys2Proof.Machine
end

