-- ==== Sys2Proof/Laws/BeatWithin.lean ====
section
/-! SUPPORT. The parts of the state that the definitions of Machine/Beat.lean reach. -/

set_option linter.unreachableTactic false
set_option linter.unusedTactic false

namespace Sys2Proof.Machine

theorem State.portBeat_within {A : List Area} (a0 : Area.ports ∈ A) (a1 : Area.agPorts ∈ A) (a2 : Area.out ∈ A) {s₀ s : State} (d : Site) (p : Nat) (h₀ : Within A s₀ s) :
    Within A s₀ (State.portBeat s d p) := by
  unfold State.portBeat
  repeat' first | (extract_lets +onlyGivenNames x; revert x; with_reducible first | apply Within.letS A s₀ | apply Within.letQ A s₀ | apply Within.letP A s₀ | apply Within.letV) | intro _ | with_reducible assumption | with_reducible apply Within.ite | with_reducible apply State.nextFrame_within | with_reducible apply State.sendControl_within | with_reducible apply State.setPort_within | split | with_reducible apply_assumption

theorem State.identBeat_within {A : List Area} (a0 : Area.ports ∈ A) (a1 : Area.agPorts ∈ A) (a2 : Area.out ∈ A) {s₀ s : State} (d : Site) (p last : Nat) (h₀ : Within A s₀ s) :
    Within A s₀ (State.identBeat s d p last) := by
  unfold State.identBeat
  repeat' first | (extract_lets +onlyGivenNames x; revert x; with_reducible first | apply Within.letS A s₀ | apply Within.letQ A s₀ | apply Within.letP A s₀ | apply Within.letV) | intro _ | with_reducible assumption | with_reducible apply Within.ite | with_reducible apply State.stage_within | with_reducible apply State.ctl_within | split | with_reducible apply_assumption

theorem State.portBeats_within {A : List Area} (a0 : Area.ports ∈ A) (a1 : Area.agPorts ∈ A) (a2 : Area.out ∈ A) {s₀ s : State} (d : Site) (last : Nat) (h₀ : Within A s₀ s) :
    Within A s₀ (State.portBeats s d last) := by
  unfold State.portBeats
  repeat' first | intro _ | with_reducible assumption | with_reducible apply Within.foldl | with_reducible apply State.identBeat_within | with_reducible apply State.portBeat_within

theorem State.moveSource_within {A : List Area} (a0 : Area.aregs ∈ A) (a1 : Area.agTime ∈ A) (a2 : Area.flt ∈ A) (a3 : Area.agFlt ∈ A) {s₀ s : State} (c : Candidate) (h₀ : Within A s₀ s) :
    Within A s₀ (State.moveSource s c) := by
  unfold State.moveSource
  repeat' first | (extract_lets +onlyGivenNames x; revert x; with_reducible first | apply Within.letS A s₀ | apply Within.letQ A s₀ | apply Within.letP A s₀ | apply Within.letV) | intro _ | with_reducible assumption | with_reducible apply State.setAgTime_within | with_reducible apply State.awr_within | with_reducible apply State.abump_within | with_reducible apply State.detect_within | with_reducible apply_assumption

theorem State.followActive_within {A : List Area} (a0 : Area.aregs ∈ A) (a1 : Area.agTime ∈ A) (a2 : Area.flt ∈ A) (a3 : Area.agFlt ∈ A) {s₀ s : State}  (h₀ : Within A s₀ s) :
    Within A s₀ (State.followActive s) := by
  unfold State.followActive
  repeat' first | intro _ | with_reducible assumption | with_reducible apply Within.ite | with_reducible apply State.moveSource_within | split

theorem State.dzBoundary_within {A : List Area} (a0 : Area.regs ∈ A) (a1 : Area.aregs ∈ A) (a2 : Area.ports ∈ A) (a3 : Area.agPorts ∈ A) (a4 : Area.route ∈ A) (a5 : Area.ttbs ∈ A) (a6 : Area.tile ∈ A) (a7 : Area.ctxs ∈ A) (a8 : Area.rot ∈ A) (a9 : Area.beyjo ∈ A) (a10 : Area.flt ∈ A) (a11 : Area.agFlt ∈ A) (a12 : Area.rst ∈ A) (a13 : Area.pair ∈ A) (a14 : Area.boot ∈ A) (a15 : Area.out ∈ A) (a16 : Area.freeCtr ∈ A) {s₀ s : State} (last : Nat) (h₀ : Within A s₀ s) :
    Within A s₀ (State.dzBoundary s last) := by
  unfold State.dzBoundary
  repeat' first | with_reducible exact fun _ k => k | intro _ | with_reducible assumption | with_reducible apply State.setPair_within | with_reducible apply State.portBeats_within | with_reducible apply State.startPlanned_within | with_reducible apply State.streamBeat_within | with_reducible apply State.distBeat_within

theorem State.agBeat_within {A : List Area} (a0 : Area.regs ∈ A) (a1 : Area.aregs ∈ A) (a2 : Area.agTime ∈ A) (a3 : Area.ports ∈ A) (a4 : Area.agPorts ∈ A) (a5 : Area.flt ∈ A) (a6 : Area.agFlt ∈ A) (a7 : Area.ag ∈ A) (a8 : Area.out ∈ A) {s₀ s : State}  (h₀ : Within A s₀ s) :
    Within A s₀ (State.agBeat s) := by
  unfold State.agBeat
  repeat' first | with_reducible exact fun _ k => k | (extract_lets +onlyGivenNames x; revert x; with_reducible first | apply Within.letS A s₀ | apply Within.letQ A s₀ | apply Within.letP A s₀ | apply Within.letF A s₀ | apply Within.letK A s₀ | apply Within.letG A s₀ | apply Within.letF1x A s₀ | apply Within.letH A s₀ | apply Within.letV) | intro _ | with_reducible assumption | with_reducible apply Within.ite | with_reducible apply State.followActive_within | with_reducible apply State.setAgTime_within | with_reducible apply State.awr_within | with_reducible apply State.portBeats_within | with_reducible apply State.agSendBeat_within | split | with_reducible apply_assumption

theorem execBeatBoundary_within {A : List Area} (a0 : Area.regs ∈ A) (a1 : Area.aregs ∈ A) (a2 : Area.time ∈ A) (a3 : Area.agTime ∈ A) (a4 : Area.ports ∈ A) (a5 : Area.agPorts ∈ A) (a6 : Area.route ∈ A) (a7 : Area.ttbs ∈ A) (a8 : Area.tile ∈ A) (a9 : Area.ctxs ∈ A) (a10 : Area.rot ∈ A) (a11 : Area.beyjo ∈ A) (a12 : Area.flt ∈ A) (a13 : Area.agFlt ∈ A) (a14 : Area.rst ∈ A) (a15 : Area.pair ∈ A) (a16 : Area.boot ∈ A) (a17 : Area.ag ∈ A) (a18 : Area.out ∈ A) (a19 : Area.freeCtr ∈ A) {s₀ s : State} (site : Site) (h₀ : Within A s₀ s) :
    Out.within A s₀ (execBeatBoundary site s) := by
  unfold execBeatBoundary
  show Within A s₀ _
  repeat' first | with_reducible exact fun _ k => k | intro _ | with_reducible assumption | with_reducible apply Within.ite | with_reducible apply State.setTime_within | with_reducible apply State.dzBoundary_within | with_reducible apply State.agBeat_within | split

theorem execPeriodChange_within {A : List Area} (a0 : Area.regs ∈ A) (a1 : Area.aregs ∈ A) (a2 : Area.time ∈ A) (a3 : Area.ports ∈ A) (a4 : Area.agPorts ∈ A) (a5 : Area.route ∈ A) (a6 : Area.ttbs ∈ A) (a7 : Area.tile ∈ A) (a8 : Area.ctxs ∈ A) (a9 : Area.rot ∈ A) (a10 : Area.beyjo ∈ A) (a11 : Area.flt ∈ A) (a12 : Area.agFlt ∈ A) (a13 : Area.rst ∈ A) (a14 : Area.pair ∈ A) (a15 : Area.boot ∈ A) (a16 : Area.out ∈ A) (a17 : Area.freeCtr ∈ A) {s₀ s : State}  (h₀ : Within A s₀ s) :
    Out.within A s₀ (execPeriodChange s) := by
  unfold execPeriodChange
  show Within A s₀ _
  repeat' first | with_reducible exact fun _ k => k | intro _ | with_reducible assumption | with_reducible apply Within.ite | with_reducible apply State.setTime_within | with_reducible apply State.changePeriod_within | with_reducible apply State.dzBoundary_within | split

theorem State.recordSkew_within {A : List Area} (a0 : Area.regs ∈ A) {s₀ s : State} (p off : Nat) (h₀ : Within A s₀ s) :
    Within A s₀ (State.recordSkew s p off) := by
  unfold State.recordSkew
  repeat' first | with_reducible assumption | with_reducible apply Within.ite | with_reducible apply State.wr_within | split

theorem State.missWord_within {A : List Area} (a0 : Area.aregs ∈ A) (a1 : Area.ports ∈ A) (a2 : Area.agPorts ∈ A) {s₀ s : State} (d : Site) (p : Nat) (h₀ : Within A s₀ s) :
    Within A s₀ (State.missWord s d p) := by
  unfold State.missWord
  repeat' first | intro _ | with_reducible assumption | with_reducible apply Within.ite | with_reducible apply State.setPort_within | with_reducible apply State.abump_within | split

theorem State.dzBeatWord_within {A : List Area} (a0 : Area.regs ∈ A) (a1 : Area.aregs ∈ A) (a2 : Area.ports ∈ A) (a3 : Area.agPorts ∈ A) (a4 : Area.flt ∈ A) (a5 : Area.agFlt ∈ A) (a6 : Area.pair ∈ A) {s₀ s : State} (p w off : Nat) (h₀ : Within A s₀ s) :
    Within A s₀ (State.dzBeatWord s p w off) := by
  unfold State.dzBeatWord
  repeat' first | with_reducible exact fun _ k => k | (extract_lets +onlyGivenNames x; revert x; with_reducible first | apply Within.letS A s₀ | apply Within.letQ A s₀ | apply Within.letP A s₀ | apply Within.letV) | intro _ | with_reducible assumption | with_reducible apply Within.ite | with_reducible apply State.setPort_within | with_reducible apply State.setPair_within | with_reducible apply State.detect_within | with_reducible apply State.missWord_within | with_reducible apply State.recordSkew_within | split | with_reducible apply_assumption

theorem State.putCand_within {A : List Area} (a0 : Area.agTime ∈ A) {s₀ s : State} (c : Candidate) (h₀ : Within A s₀ s) :
    Within A s₀ (State.putCand s c) := by
  unfold State.putCand
  repeat' first | intro _ | with_reducible assumption | with_reducible apply State.setAgTime_within

theorem State.showSource_within {A : List Area} (a0 : Area.aregs ∈ A) {s₀ s : State} (p w : Nat) (off : Int) (h₀ : Within A s₀ s) :
    Within A s₀ (State.showSource s p w off) := by
  unfold State.showSource
  repeat' first | (extract_lets +onlyGivenNames x; revert x; with_reducible first | apply Within.letS A s₀ | apply Within.letQ A s₀ | apply Within.letP A s₀ | apply Within.letV) | intro _ | with_reducible assumption | with_reducible apply State.awr_within | with_reducible apply_assumption

theorem State.takeBeat_within {A : List Area} (a0 : Area.aregs ∈ A) (a1 : Area.agTime ∈ A) {s₀ s : State} (p w : Nat) (off : Int) (h₀ : Within A s₀ s) :
    Within A s₀ (State.takeBeat s p w off) := by
  unfold State.takeBeat
  repeat' first | intro _ | with_reducible assumption | with_reducible apply State.setAgTime_within | with_reducible apply State.showSource_within

theorem State.wrongBeat_within {A : List Area} (a0 : Area.flt ∈ A) (a1 : Area.agFlt ∈ A) {s₀ s : State} (p : Nat) (h₀ : Within A s₀ s) :
    Within A s₀ (State.wrongBeat s p) := by
  unfold State.wrongBeat
  repeat' first | with_reducible assumption | with_reducible apply State.detect_within

theorem State.agPeriod_within {A : List Area} (a0 : Area.agTime ∈ A) {s₀ s : State} (p w : Nat) (h₀ : Within A s₀ s) :
    Within A s₀ (State.agPeriod s p w) := by
  unfold State.agPeriod
  repeat' first | intro _ | with_reducible assumption | with_reducible apply Within.ite | with_reducible apply State.setAgTime_within | split

theorem State.agBeatWord_within {A : List Area} (a0 : Area.aregs ∈ A) (a1 : Area.agTime ∈ A) (a2 : Area.ports ∈ A) (a3 : Area.agPorts ∈ A) (a4 : Area.flt ∈ A) (a5 : Area.agFlt ∈ A) (a6 : Area.ag ∈ A) {s₀ s : State} (p w : Nat) (off : Int) (h₀ : Within A s₀ s) :
    Within A s₀ (State.agBeatWord s p w off) := by
  unfold State.agBeatWord
  repeat' first | with_reducible exact fun _ k => k | (extract_lets +onlyGivenNames x; revert x; with_reducible first | apply Within.letS A s₀ | apply Within.letQ A s₀ | apply Within.letP A s₀ | apply Within.letF A s₀ | apply Within.letK A s₀ | apply Within.letG A s₀ | apply Within.letF1x A s₀ | apply Within.letH A s₀ | apply Within.letV) | intro _ | with_reducible assumption | with_reducible apply Within.ite | with_reducible apply State.agPeriod_within | with_reducible apply State.putCand_within | with_reducible apply State.takeBeat_within | with_reducible apply State.awr_within | with_reducible apply State.detect_within | with_reducible apply State.agEvent_within | with_reducible apply State.missWord_within | with_reducible apply State.wrongBeat_within | with_reducible apply State.setAgTime_within | with_reducible apply State.showSource_within | split | with_reducible apply_assumption

theorem State.phaseAt_within {A : List Area} (a0 : Area.time ∈ A) (a1 : Area.agTime ∈ A) {s₀ s : State} (d : Site) (arrivalPs : Int) (h₀ : Within A s₀ s) :
    Within A s₀ (State.phaseAt s d arrivalPs) := by
  unfold State.phaseAt
  repeat' first | (extract_lets +onlyGivenNames x; revert x; with_reducible first | apply Within.letS A s₀ | apply Within.letQ A s₀ | apply Within.letP A s₀ | apply Within.letV) | intro _ | with_reducible assumption | with_reducible apply State.setTime_within | with_reducible apply State.setAgTime_within | split | with_reducible apply_assumption

theorem execBeatWord_within {A : List Area} (a0 : Area.regs ∈ A) (a1 : Area.aregs ∈ A) (a2 : Area.time ∈ A) (a3 : Area.agTime ∈ A) (a4 : Area.ports ∈ A) (a5 : Area.agPorts ∈ A) (a6 : Area.flt ∈ A) (a7 : Area.agFlt ∈ A) (a8 : Area.pair ∈ A) (a9 : Area.ag ∈ A) {s₀ s : State} (site : Site) (port : Nat) (word : Word) (crcOk : Bool) (arrival : BeatArrival) (h₀ : Within A s₀ s) :
    Out.within A s₀ (execBeatWord site port word crcOk arrival s) := by
  unfold execBeatWord
  show Within A s₀ _
  repeat' first | with_reducible exact fun _ k => k | (extract_lets +onlyGivenNames x; revert x; with_reducible first | apply Within.letS A s₀ | apply Within.letQ A s₀ | apply Within.letP A s₀ | apply Within.letV) | intro _ | with_reducible assumption | with_reducible apply Within.ite | with_reducible apply State.phaseAt_within | with_reducible apply State.dzBeatWord_within | with_reducible apply State.missWord_within | with_reducible apply State.agBeatWord_within | with_reducible apply State.dropCandidate_within | split | with_reducible apply_assumption

theorem execBeatWordMiss_within {A : List Area} (a0 : Area.aregs ∈ A) (a1 : Area.agTime ∈ A) (a2 : Area.flt ∈ A) (a3 : Area.agFlt ∈ A) {s₀ s : State}  (h₀ : Within A s₀ s) :
    Out.within A s₀ (execBeatWordMiss s) := by
  unfold execBeatWordMiss
  show Within A s₀ _
  repeat' first | (extract_lets +onlyGivenNames x; revert x; with_reducible first | apply Within.letS A s₀ | apply Within.letQ A s₀ | apply Within.letP A s₀ | apply Within.letV) | intro _ | with_reducible assumption | with_reducible apply Within.ite | with_reducible apply State.moveSource_within | with_reducible apply State.abump_within | with_reducible apply State.setAgTime_within | with_reducible apply State.awr_within | split | with_reducible apply_assumption

theorem State.orphanReport_within {A : List Area} (a0 : Area.regs ∈ A) (a1 : Area.aregs ∈ A) (a2 : Area.ports ∈ A) (a3 : Area.agPorts ∈ A) (a4 : Area.flt ∈ A) (a5 : Area.agFlt ∈ A) {s₀ s : State}  (h₀ : Within A s₀ s) :
    Within A s₀ (State.orphanReport s) := by
  unfold State.orphanReport
  repeat' first | (extract_lets +onlyGivenNames x; revert x; with_reducible first | apply Within.letS A s₀ | apply Within.letQ A s₀ | apply Within.letP A s₀ | apply Within.letV) | intro _ | with_reducible assumption | with_reducible apply Within.foldl | with_reducible apply State.sendOn_within | with_reducible apply_assumption

theorem execOrphanEntry_within {A : List Area} (a0 : Area.regs ∈ A) (a1 : Area.aregs ∈ A) (a2 : Area.agTime ∈ A) (a3 : Area.ports ∈ A) (a4 : Area.agPorts ∈ A) (a5 : Area.flt ∈ A) (a6 : Area.agFlt ∈ A) (a7 : Area.ag ∈ A) {s₀ s : State}  (h₀ : Within A s₀ s) :
    Out.within A s₀ (execOrphanEntry s) := by
  unfold execOrphanEntry
  show Within A s₀ _
  repeat' first | with_reducible exact fun _ k => k | (extract_lets +onlyGivenNames x; revert x; with_reducible first | apply Within.letS A s₀ | apply Within.letQ A s₀ | apply Within.letP A s₀ | apply Within.letV) | intro _ | with_reducible assumption | with_reducible apply Within.ite | with_reducible apply State.setAgTime_within | with_reducible apply State.awr_within | with_reducible apply State.detect_within | with_reducible apply State.agEvent_within | with_reducible apply State.orphanReport_within | split | with_reducible apply_assumption

theorem execOrphanReportRepeat_within {A : List Area} (a0 : Area.regs ∈ A) (a1 : Area.aregs ∈ A) (a2 : Area.ports ∈ A) (a3 : Area.agPorts ∈ A) (a4 : Area.flt ∈ A) (a5 : Area.agFlt ∈ A) {s₀ s : State}  (h₀ : Within A s₀ s) :
    Out.within A s₀ (execOrphanReportRepeat s) := by
  unfold execOrphanReportRepeat
  show Within A s₀ _
  repeat' first | with_reducible assumption | with_reducible apply Within.ite | with_reducible apply State.orphanReport_within | split

theorem execOrphanCell_within {A : List Area} (a0 : Area.regs ∈ A) (a1 : Area.aregs ∈ A) (a2 : Area.flt ∈ A) (a3 : Area.agFlt ∈ A) {s₀ s : State} (site : Site) (cell : Cell) (h₀ : Within A s₀ s) :
    Out.within A s₀ (execOrphanCell site cell s) := by
  unfold execOrphanCell
  show Within A s₀ _
  repeat' first | with_reducible assumption | with_reducible apply Within.ite | with_reducible apply State.discardOwn_within | split

end Sys2Proof.Machine
end

