-- ==== Sys2Proof/Laws/PostWithin.lean ====
section
/-! SUPPORT. The parts of the state that the definitions of Machine/Post.lean reach. -/

set_option linter.unreachableTactic false
set_option linter.unusedTactic false

namespace Sys2Proof.Machine

theorem State.loadRegs_within {A : List Area} (a0 : Area.regs ∈ A) {s₀ s : State} (p : Nat → Bool) (l : List (Nat × Nat)) (h₀ : Within A s₀ s) :
    Within A s₀ (State.loadRegs s p l) := by
  unfold State.loadRegs
  repeat' first | with_reducible exact fun k => kputs_sorted (tdrop_sorted k _) _ | intro _ | with_reducible assumption | with_reducible apply Within.foldl | with_reducible apply Within.foldlPair | with_reducible apply Within.regs

end Sys2Proof.Machine
end

