-- ==== Sys2Proof/Laws/PairWithin.lean ====
section
/-! SUPPORT. The parts of the state that the definitions of Machine/Pair.lean reach. -/

set_option linter.unreachableTactic false
set_option linter.unusedTactic false

namespace Sys2Proof.Machine

theorem State.sendBatch_within {A : List Area} (a0 : Area.regs ∈ A) (a1 : Area.aregs ∈ A) (a2 : Area.ports ∈ A) (a3 : Area.agPorts ∈ A) (a4 : Area.flt ∈ A) (a5 : Area.agFlt ∈ A) (a6 : Area.pair ∈ A) {s₀ s : State} (cells : List (Nat × Nat × List Byte)) (h₀ : Within A s₀ s) :
    Within A s₀ (State.sendBatch s cells) := by
  unfold State.sendBatch
  repeat' first | with_reducible exact fun _ k => k | (extract_lets +onlyGivenNames x; revert x; with_reducible first | apply Within.letS A s₀ | apply Within.letQ A s₀ | apply Within.letP A s₀ | apply Within.letF A s₀ | apply Within.letK A s₀ | apply Within.letG A s₀ | apply Within.letF1x A s₀ | apply Within.letH A s₀ | apply Within.letV) | intro _ | with_reducible assumption | with_reducible apply Within.ite | with_reducible apply Within.foldl | with_reducible apply Within.foldlPair | with_reducible apply State.parwr_within | with_reducible apply State.setPair_within | split | with_reducible apply_assumption

theorem State.genBatch_within {A : List Area} (a0 : Area.regs ∈ A) (a1 : Area.aregs ∈ A) (a2 : Area.ports ∈ A) (a3 : Area.agPorts ∈ A) (a4 : Area.flt ∈ A) (a5 : Area.agFlt ∈ A) (a6 : Area.pair ∈ A) {s₀ s : State} (g : GenRun) (h₀ : Within A s₀ s) :
    Within A s₀ (State.genBatch s g) := by
  unfold State.genBatch
  repeat' first | with_reducible exact fun _ k => k | (extract_lets +onlyGivenNames x; revert x; with_reducible first | apply Within.letS A s₀ | apply Within.letQ A s₀ | apply Within.letP A s₀ | apply Within.letF A s₀ | apply Within.letK A s₀ | apply Within.letG A s₀ | apply Within.letF1x A s₀ | apply Within.letH A s₀ | apply Within.letV) | intro _ | with_reducible assumption | with_reducible apply State.sendBatch_within | with_reducible apply State.setPair_within | with_reducible apply_assumption

theorem State.genPhase_within {A : List Area} (a0 : Area.regs ∈ A) (a1 : Area.aregs ∈ A) (a2 : Area.ports ∈ A) (a3 : Area.agPorts ∈ A) (a4 : Area.flt ∈ A) (a5 : Area.agFlt ∈ A) (a6 : Area.pair ∈ A) {s₀ s : State} (g : GenRun) (ph : Nat) (h₀ : Within A s₀ s) :
    Within A s₀ (State.genPhase s g ph) := by
  unfold State.genPhase
  repeat' first | with_reducible exact fun _ k => k | (extract_lets +onlyGivenNames x; revert x; with_reducible first | apply Within.letS A s₀ | apply Within.letQ A s₀ | apply Within.letP A s₀ | apply Within.letV) | intro _ | with_reducible assumption | with_reducible apply Within.ite | with_reducible apply State.genBatch_within | split | with_reducible apply_assumption

theorem State.beginGen_within {A : List Area} (a0 : Area.regs ∈ A) (a1 : Area.aregs ∈ A) (a2 : Area.ports ∈ A) (a3 : Area.agPorts ∈ A) (a4 : Area.flt ∈ A) (a5 : Area.agFlt ∈ A) (a6 : Area.pair ∈ A) {s₀ s : State}  (h₀ : Within A s₀ s) :
    Within A s₀ (State.beginGen s) := by
  unfold State.beginGen
  repeat' first | with_reducible exact fun _ k => k | (extract_lets +onlyGivenNames x; revert x; with_reducible first | apply Within.letS A s₀ | apply Within.letQ A s₀ | apply Within.letP A s₀ | apply Within.letF A s₀ | apply Within.letK A s₀ | apply Within.letG A s₀ | apply Within.letF1x A s₀ | apply Within.letH A s₀ | apply Within.letV) | intro _ | with_reducible assumption | with_reducible apply Within.ite | with_reducible apply State.wr_within | with_reducible apply State.setPair_within | with_reducible apply State.genPhase_within | with_reducible apply State.genBatch_within | split | with_reducible apply_assumption

theorem execGenerationBegin_within {A : List Area} (a0 : Area.regs ∈ A) (a1 : Area.aregs ∈ A) (a2 : Area.ports ∈ A) (a3 : Area.agPorts ∈ A) (a4 : Area.flt ∈ A) (a5 : Area.agFlt ∈ A) (a6 : Area.pair ∈ A) {s₀ s : State}  (h₀ : Within A s₀ s) :
    Out.within A s₀ (execGenerationBegin s) := by
  unfold execGenerationBegin
  show Within A s₀ _
  repeat' first | with_reducible exact fun _ k => k | with_reducible assumption | with_reducible apply Within.ite | with_reducible apply State.beginGen_within | split

theorem execSyncMsExpiry_within {A : List Area} (a0 : Area.pair ∈ A) {s₀ s : State}  (h₀ : Within A s₀ s) :
    Out.within A s₀ (execSyncMsExpiry s) := by
  unfold execSyncMsExpiry
  show Within A s₀ _
  repeat' first | with_reducible exact fun _ k => k | with_reducible assumption | with_reducible apply Within.ite | with_reducible apply State.dueGen_within | split

theorem State.parSync_within {A : List Area} (a0 : Area.pair ∈ A) {s₀ s : State}  (h₀ : Within A s₀ s) :
    Within A s₀ (State.parSync s) := by
  unfold State.parSync
  repeat' first | with_reducible exact fun _ k => k | with_reducible assumption | with_reducible apply Within.ite | with_reducible apply State.dueGen_within | split

theorem execParSync_within {A : List Area} (a0 : Area.pair ∈ A) {s₀ s : State}  (h₀ : Within A s₀ s) :
    Out.within A s₀ (execParSync s) := by
  unfold execParSync
  show Within A s₀ _
  repeat' first | with_reducible exact fun _ k => k | with_reducible assumption | with_reducible apply State.parSync_within

theorem State.parFull_within {A : List Area} (a0 : Area.pair ∈ A) {s₀ s : State}  (h₀ : Within A s₀ s) :
    Within A s₀ (State.parFull s) := by
  unfold State.parFull
  repeat' first | with_reducible exact fun _ k => k | intro _ | with_reducible assumption | with_reducible apply Within.ite | with_reducible apply State.setPair_within | split

theorem execParFull_within {A : List Area} (a0 : Area.pair ∈ A) {s₀ s : State}  (h₀ : Within A s₀ s) :
    Out.within A s₀ (execParFull s) := by
  unfold execParFull
  show Within A s₀ _
  repeat' first | with_reducible exact fun _ k => k | with_reducible assumption | with_reducible apply State.parFull_within

theorem State.sendMirror_within {A : List Area} (a0 : Area.regs ∈ A) (a1 : Area.aregs ∈ A) (a2 : Area.ports ∈ A) (a3 : Area.agPorts ∈ A) (a4 : Area.flt ∈ A) (a5 : Area.agFlt ∈ A) (a6 : Area.pair ∈ A) {s₀ s : State} (x : VaultImage) (n : Nat) (h₀ : Within A s₀ s) :
    Within A s₀ (State.sendMirror s x n) := by
  unfold State.sendMirror
  repeat' first | with_reducible exact fun _ k => k | (extract_lets +onlyGivenNames x; revert x; with_reducible first | apply Within.letS A s₀ | apply Within.letQ A s₀ | apply Within.letP A s₀ | apply Within.letF A s₀ | apply Within.letK A s₀ | apply Within.letG A s₀ | apply Within.letF1x A s₀ | apply Within.letH A s₀ | apply Within.letV) | intro _ | with_reducible assumption | with_reducible apply State.sendBatch_within | with_reducible apply State.setPair_within | with_reducible apply_assumption

theorem execVaultMirror_within {A : List Area} (a0 : Area.regs ∈ A) (a1 : Area.aregs ∈ A) (a2 : Area.ports ∈ A) (a3 : Area.agPorts ∈ A) (a4 : Area.flt ∈ A) (a5 : Area.agFlt ∈ A) (a6 : Area.pair ∈ A) {s₀ s : State} (n : Nat) (h₀ : Within A s₀ s) :
    Out.within A s₀ (execVaultMirror n s) := by
  unfold execVaultMirror
  show Within A s₀ _
  repeat' first | with_reducible exact fun _ k => k | intro _ | with_reducible assumption | with_reducible apply Within.ite | with_reducible apply State.sendMirror_within | split

theorem State.mirrorAck_within {A : List Area} (a0 : Area.rot ∈ A) (a1 : Area.pair ∈ A) {s₀ s : State} (m : MirrorBatch) (h₀ : Within A s₀ s) :
    Within A s₀ (State.mirrorAck s m) := by
  unfold State.mirrorAck
  repeat' first | with_reducible exact fun _ k => k | (extract_lets +onlyGivenNames x; revert x; with_reducible first | apply Within.letS A s₀ | apply Within.letQ A s₀ | apply Within.letP A s₀ | apply Within.letF A s₀ | apply Within.letK A s₀ | apply Within.letG A s₀ | apply Within.letF1x A s₀ | apply Within.letH A s₀ | apply Within.letV) | intro _ | with_reducible assumption | with_reducible apply Within.ite | with_reducible apply State.setRot_within | with_reducible apply State.setPair_within | with_reducible apply State.dueGen_within | split | with_reducible apply_assumption

theorem State.leaseTo_within {A : List Area} (a0 : Area.regs ∈ A) (a1 : Area.aregs ∈ A) (a2 : Area.ports ∈ A) (a3 : Area.agPorts ∈ A) (a4 : Area.flt ∈ A) (a5 : Area.agFlt ∈ A) (a6 : Area.out ∈ A) {s₀ s : State} (d : Site) (f vc : Nat) (words : List Nat) (h₀ : Within A s₀ s) :
    Within A s₀ (State.leaseTo s d f vc words) := by
  unfold State.leaseTo
  repeat' first | (extract_lets +onlyGivenNames x; revert x; with_reducible first | apply Within.letS A s₀ | apply Within.letQ A s₀ | apply Within.letP A s₀ | apply Within.letV) | intro _ | with_reducible assumption | with_reducible apply Within.ite | with_reducible apply State.sendOn_within | with_reducible apply State.send_within | split | with_reducible apply_assumption

theorem State.leaseAsk_within {A : List Area} (a0 : Area.regs ∈ A) (a1 : Area.aregs ∈ A) (a2 : Area.ports ∈ A) (a3 : Area.agPorts ∈ A) (a4 : Area.flt ∈ A) (a5 : Area.agFlt ∈ A) (a6 : Area.out ∈ A) {s₀ s : State} (kind expiry gen : Nat) (h₀ : Within A s₀ s) :
    Within A s₀ (State.leaseAsk s kind expiry gen) := by
  unfold State.leaseAsk
  repeat' first | with_reducible assumption | with_reducible apply State.leaseTo_within

theorem State.closeAll_within {A : List Area} (a0 : Area.insts ∈ A) {s₀ s : State}  (h₀ : Within A s₀ s) :
    Within A s₀ (State.closeAll s) := by
  unfold State.closeAll
  repeat' first | intro _ | with_reducible assumption | with_reducible apply Within.insts

theorem State.fence_within {A : List Area} (a0 : Area.regs ∈ A) (a1 : Area.ports ∈ A) (a2 : Area.insts ∈ A) (a3 : Area.pair ∈ A) {s₀ s : State}  (h₀ : Within A s₀ s) :
    Within A s₀ (State.fence s) := by
  unfold State.fence
  repeat' first | with_reducible exact List.length_map _ | with_reducible exact fun _ k => k | (extract_lets +onlyGivenNames x; revert x; with_reducible first | apply Within.letS A s₀ | apply Within.letQ A s₀ | apply Within.letP A s₀ | apply Within.letV) | intro _ | with_reducible assumption | with_reducible apply State.wr_within | with_reducible apply State.closeAll_within | with_reducible apply State.showOpen_within | with_reducible apply State.setPair_within | with_reducible apply Within.ports | with_reducible apply_assumption

theorem State.sendRelease_within {A : List Area} (a0 : Area.regs ∈ A) (a1 : Area.aregs ∈ A) (a2 : Area.ports ∈ A) (a3 : Area.agPorts ∈ A) (a4 : Area.insts ∈ A) (a5 : Area.flt ∈ A) (a6 : Area.agFlt ∈ A) (a7 : Area.pair ∈ A) (a8 : Area.out ∈ A) {s₀ s : State} (h : Handover) (h₀ : Within A s₀ s) :
    Within A s₀ (State.sendRelease s h) := by
  unfold State.sendRelease
  repeat' first | with_reducible exact fun _ k => k | (extract_lets +onlyGivenNames x; revert x; with_reducible first | apply Within.letS A s₀ | apply Within.letQ A s₀ | apply Within.letP A s₀ | apply Within.letV) | intro _ | with_reducible assumption | with_reducible apply State.leaseAsk_within | with_reducible apply State.fence_within | with_reducible apply State.setPair_within | with_reducible apply_assumption

theorem State.genCommit_within {A : List Area} (a0 : Area.regs ∈ A) (a1 : Area.aregs ∈ A) (a2 : Area.ports ∈ A) (a3 : Area.agPorts ∈ A) (a4 : Area.insts ∈ A) (a5 : Area.flt ∈ A) (a6 : Area.agFlt ∈ A) (a7 : Area.pair ∈ A) (a8 : Area.out ∈ A) {s₀ s : State} (g : GenRun) (h₀ : Within A s₀ s) :
    Within A s₀ (State.genCommit s g) := by
  unfold State.genCommit
  repeat' first | with_reducible exact fun _ k => k | (extract_lets +onlyGivenNames x; revert x; with_reducible first | apply Within.letS A s₀ | apply Within.letQ A s₀ | apply Within.letP A s₀ | apply Within.letV) | intro _ | with_reducible assumption | with_reducible apply Within.ite | with_reducible apply State.wr_within | with_reducible apply State.bump_within | with_reducible apply State.setPair_within | with_reducible apply State.leaseAsk_within | with_reducible apply State.sendRelease_within | split | with_reducible apply_assumption

theorem State.genAcked_within {A : List Area} (a0 : Area.regs ∈ A) (a1 : Area.aregs ∈ A) (a2 : Area.ports ∈ A) (a3 : Area.agPorts ∈ A) (a4 : Area.insts ∈ A) (a5 : Area.flt ∈ A) (a6 : Area.agFlt ∈ A) (a7 : Area.pair ∈ A) (a8 : Area.out ∈ A) {s₀ s : State} (g : GenRun) (h₀ : Within A s₀ s) :
    Within A s₀ (State.genAcked s g) := by
  unfold State.genAcked
  repeat' first | with_reducible exact fun _ k => k | (extract_lets +onlyGivenNames x; revert x; with_reducible first | apply Within.letS A s₀ | apply Within.letQ A s₀ | apply Within.letP A s₀ | apply Within.letV) | intro _ | with_reducible assumption | with_reducible apply Within.ite | with_reducible apply State.bump_within | with_reducible apply State.genPhase_within | with_reducible apply State.genCommit_within | split | with_reducible apply_assumption

theorem execParackCell_within {A : List Area} (a0 : Area.regs ∈ A) (a1 : Area.aregs ∈ A) (a2 : Area.ports ∈ A) (a3 : Area.agPorts ∈ A) (a4 : Area.route ∈ A) (a5 : Area.insts ∈ A) (a6 : Area.rot ∈ A) (a7 : Area.flt ∈ A) (a8 : Area.agFlt ∈ A) (a9 : Area.pair ∈ A) (a10 : Area.out ∈ A) {s₀ s : State} (cell : Cell) (h₀ : Within A s₀ s) :
    Out.within A s₀ (execParackCell cell s) := by
  unfold execParackCell
  show Within A s₀ _
  repeat' first | with_reducible exact fun _ k => k | (extract_lets +onlyGivenNames x; revert x; with_reducible first | apply Within.letS A s₀ | apply Within.letQ A s₀ | apply Within.letP A s₀ | apply Within.letV) | intro _ | with_reducible assumption | with_reducible apply Within.ite | with_reducible apply State.record_within | with_reducible apply State.recordConfirm_within | with_reducible apply State.mirrorAck_within | with_reducible apply State.genAcked_within | with_reducible apply State.setPair_within | split | with_reducible apply_assumption

theorem execBatchResend_within {A : List Area} (a0 : Area.regs ∈ A) (a1 : Area.aregs ∈ A) (a2 : Area.ports ∈ A) (a3 : Area.agPorts ∈ A) (a4 : Area.route ∈ A) (a5 : Area.flt ∈ A) (a6 : Area.agFlt ∈ A) (a7 : Area.pair ∈ A) {s₀ s : State}  (h₀ : Within A s₀ s) :
    Out.within A s₀ (execBatchResend s) := by
  unfold execBatchResend
  show Within A s₀ _
  repeat' first | with_reducible exact fun _ k => k | (extract_lets +onlyGivenNames x; revert x; with_reducible first | apply Within.letS A s₀ | apply Within.letQ A s₀ | apply Within.letP A s₀ | apply Within.letV) | intro _ | with_reducible assumption | with_reducible apply Within.ite | with_reducible apply State.genBatch_within | with_reducible apply State.record_within | with_reducible apply State.putRecord_within | with_reducible apply State.sendMirror_within | with_reducible apply State.setPair_within | split | with_reducible apply_assumption

theorem execCommitAckTimeout_within {A : List Area} (a0 : Area.regs ∈ A) (a1 : Area.aregs ∈ A) (a2 : Area.ports ∈ A) (a3 : Area.agPorts ∈ A) (a4 : Area.flt ∈ A) (a5 : Area.agFlt ∈ A) (a6 : Area.pair ∈ A) {s₀ s : State}  (h₀ : Within A s₀ s) :
    Out.within A s₀ (execCommitAckTimeout s) := by
  unfold execCommitAckTimeout
  show Within A s₀ _
  repeat' first | with_reducible exact fun _ k => k | (extract_lets +onlyGivenNames x; revert x; with_reducible first | apply Within.letS A s₀ | apply Within.letQ A s₀ | apply Within.letP A s₀ | apply Within.letV) | intro _ | with_reducible assumption | with_reducible apply Within.ite | with_reducible apply State.setPair_within | with_reducible apply State.beginGen_within | split | with_reducible apply_assumption

theorem State.wakeStore_within {A : List Area} (a0 : Area.regs ∈ A) {s₀ s : State}  (h₀ : Within A s₀ s) :
    Within A s₀ (State.wakeStore s) := by
  unfold State.wakeStore
  repeat' first | with_reducible assumption | with_reducible apply Within.ite | with_reducible apply State.pghWake_within | with_reducible apply State.stacksTo_within | split

theorem State.placeCell_within {A : List Area} (a0 : Area.regs ∈ A) (a1 : Area.hbm ∈ A) (a2 : Area.pair ∈ A) {s₀ s : State} (x : Nat × Nat × List Byte) (h₀ : Within A s₀ s) :
    Within A s₀ (State.placeCell s x) := by
  unfold State.placeCell
  repeat' first | with_reducible exact fun _ k => mwrite_wf k _ _ | with_reducible exact fun _ k => k | (extract_lets +onlyGivenNames x; revert x; with_reducible first | apply Within.letS A s₀ | apply Within.letQ A s₀ | apply Within.letP A s₀ | apply Within.letV) | intro _ | with_reducible assumption | with_reducible apply Within.ite | with_reducible apply State.setPair_within | with_reducible apply State.regionWrite_within | with_reducible apply State.vaultCount_within | split | with_reducible apply_assumption

theorem State.moveBuffer_within {A : List Area} (a0 : Area.regs ∈ A) (a1 : Area.hbm ∈ A) (a2 : Area.pair ∈ A) {s₀ s : State}  (h₀ : Within A s₀ s) :
    Within A s₀ (State.moveBuffer s) := by
  unfold State.moveBuffer
  repeat' first | with_reducible exact fun _ k => k | (extract_lets +onlyGivenNames x; revert x; with_reducible first | apply Within.letS A s₀ | apply Within.letQ A s₀ | apply Within.letP A s₀ | apply Within.letF A s₀ | apply Within.letK A s₀ | apply Within.letG A s₀ | apply Within.letF1x A s₀ | apply Within.letH A s₀ | apply Within.letV) | intro _ | with_reducible assumption | with_reducible apply Within.ite | with_reducible apply Within.foldl | with_reducible apply State.placeCell_within | with_reducible apply State.wakeStore_within | with_reducible apply State.setPair_within | split | with_reducible apply_assumption

theorem State.parack_within {A : List Area} (a0 : Area.regs ∈ A) (a1 : Area.aregs ∈ A) (a2 : Area.ports ∈ A) (a3 : Area.agPorts ∈ A) (a4 : Area.flt ∈ A) (a5 : Area.agFlt ∈ A) {s₀ s : State} (b n : Nat) (h₀ : Within A s₀ s) :
    Within A s₀ (State.parack s b n) := by
  unfold State.parack
  repeat' first | with_reducible assumption | with_reducible apply State.sendOn_within | split

theorem State.takeRegions_within {A : List Area} (a0 : Area.regs ∈ A) {s₀ s : State} (c : Nat) (bs : List Byte) (h₀ : Within A s₀ s) :
    Within A s₀ (State.takeRegions s c bs) := by
  unfold State.takeRegions
  repeat' first | (extract_lets +onlyGivenNames x; revert x; with_reducible first | apply Within.letS A s₀ | apply Within.letQ A s₀ | apply Within.letP A s₀ | apply Within.letV) | intro _ | with_reducible assumption | with_reducible apply Within.ite | with_reducible apply State.drop_within | with_reducible apply State.loadRegs_within | with_reducible apply State.showVault_within | split | with_reducible apply_assumption

theorem State.takeGen_within {A : List Area} (a0 : Area.regs ∈ A) (a1 : Area.aregs ∈ A) (a2 : Area.agTime ∈ A) (a3 : Area.ports ∈ A) (a4 : Area.agPorts ∈ A) (a5 : Area.route ∈ A) (a6 : Area.ttbs ∈ A) (a7 : Area.tile ∈ A) (a8 : Area.ctxs ∈ A) (a9 : Area.rot ∈ A) (a10 : Area.beyjo ∈ A) (a11 : Area.flt ∈ A) (a12 : Area.agFlt ∈ A) (a13 : Area.rst ∈ A) (a14 : Area.pair ∈ A) (a15 : Area.boot ∈ A) (a16 : Area.out ∈ A) (a17 : Area.freeCtr ∈ A) {s₀ s : State} (gen : Nat) (l : List Section) (h₀ : Within A s₀ s) :
    Within A s₀ (State.takeGen s gen l) := by
  unfold State.takeGen
  repeat' first | with_reducible exact fun _ k => k | (extract_lets +onlyGivenNames x; revert x; with_reducible first | apply Within.letS A s₀ | apply Within.letQ A s₀ | apply Within.letP A s₀ | apply Within.letV) | intro _ | with_reducible assumption | with_reducible apply Within.ite | with_reducible apply Within.foldl | with_reducible apply State.wr_within | with_reducible apply State.setPair_within | with_reducible apply State.takeRegions_within | with_reducible apply State.rodForce_within | split | with_reducible apply_assumption

theorem State.landCommit_within {A : List Area} (a0 : Area.regs ∈ A) (a1 : Area.aregs ∈ A) (a2 : Area.agTime ∈ A) (a3 : Area.ports ∈ A) (a4 : Area.agPorts ∈ A) (a5 : Area.route ∈ A) (a6 : Area.ttbs ∈ A) (a7 : Area.tile ∈ A) (a8 : Area.ctxs ∈ A) (a9 : Area.rot ∈ A) (a10 : Area.beyjo ∈ A) (a11 : Area.flt ∈ A) (a12 : Area.agFlt ∈ A) (a13 : Area.rst ∈ A) (a14 : Area.pair ∈ A) (a15 : Area.boot ∈ A) (a16 : Area.out ∈ A) (a17 : Area.freeCtr ∈ A) {s₀ s : State} (slot b n : Nat) (h₀ : Within A s₀ s) :
    Within A s₀ (State.landCommit s slot b n) := by
  unfold State.landCommit
  repeat' first | with_reducible exact fun _ k => k | with_reducible assumption | with_reducible apply State.takeGen_within | with_reducible apply State.parack_within | split

theorem execParwrCell_within {A : List Area} (a0 : Area.regs ∈ A) (a1 : Area.aregs ∈ A) (a2 : Area.agTime ∈ A) (a3 : Area.ports ∈ A) (a4 : Area.agPorts ∈ A) (a5 : Area.route ∈ A) (a6 : Area.ttbs ∈ A) (a7 : Area.tile ∈ A) (a8 : Area.hbm ∈ A) (a9 : Area.ctxs ∈ A) (a10 : Area.rot ∈ A) (a11 : Area.beyjo ∈ A) (a12 : Area.flt ∈ A) (a13 : Area.agFlt ∈ A) (a14 : Area.rst ∈ A) (a15 : Area.pair ∈ A) (a16 : Area.boot ∈ A) (a17 : Area.out ∈ A) (a18 : Area.freeCtr ∈ A) {s₀ s : State} (cell : Cell) (h₀ : Within A s₀ s) :
    Out.within A s₀ (execParwrCell cell s) := by
  unfold execParwrCell
  show Within A s₀ _
  repeat' first | with_reducible exact fun _ k => k | (extract_lets +onlyGivenNames x; revert x; with_reducible first | apply Within.letS A s₀ | apply Within.letQ A s₀ | apply Within.letP A s₀ | apply Within.letF A s₀ | apply Within.letK A s₀ | apply Within.letG A s₀ | apply Within.letF1x A s₀ | apply Within.letH A s₀ | apply Within.letV) | intro _ | with_reducible assumption | with_reducible apply Within.ite | with_reducible apply State.setPair_within | with_reducible apply State.moveBuffer_within | with_reducible apply State.landCommit_within | with_reducible apply State.parack_within | split | with_reducible apply_assumption

theorem execParackPeriodic_within {A : List Area} (a0 : Area.regs ∈ A) (a1 : Area.aregs ∈ A) (a2 : Area.ports ∈ A) (a3 : Area.agPorts ∈ A) (a4 : Area.flt ∈ A) (a5 : Area.agFlt ∈ A) {s₀ s : State}  (h₀ : Within A s₀ s) :
    Out.within A s₀ (execParackPeriodic s) := by
  unfold execParackPeriodic
  show Within A s₀ _
  repeat' first | with_reducible assumption | with_reducible apply Within.ite | with_reducible apply State.parack_within | split

end Sys2Proof.Machine
end

