-- ==== Sys2Proof/Laws/LeaseWithin.lean ====
section
/-! SUPPORT. The parts of the state that the definitions of Machine/Lease.lean reach. -/

set_option linter.unreachableTactic false
set_option linter.unusedTactic false

namespace Sys2Proof.Machine

theorem State.showRef_within {A : List Area} (a0 : Area.aregs ∈ A) {s₀ s : State} (r : LeaseRec) (h₀ : Within A s₀ s) :
    Within A s₀ (State.showRef s r) := by
  unfold State.showRef
  repeat' first | with_reducible assumption | with_reducible apply State.awr_within

theorem State.putLease_within {A : List Area} (a0 : Area.aregs ∈ A) (a1 : Area.pair ∈ A) (a2 : Area.ag ∈ A) {s₀ s : State} (d : Site) (r : LeaseRec) (h₀ : Within A s₀ s) :
    Within A s₀ (State.putLease s d r) := by
  unfold State.putLease
  repeat' first | with_reducible exact fun _ k => k | intro _ | with_reducible assumption | with_reducible apply Within.ite | with_reducible apply State.setPair_within | with_reducible apply State.setAg_within | with_reducible apply State.showRef_within | split

theorem State.leaseAnswer_within {A : List Area} (a0 : Area.regs ∈ A) (a1 : Area.aregs ∈ A) (a2 : Area.ports ∈ A) (a3 : Area.agPorts ∈ A) (a4 : Area.flt ∈ A) (a5 : Area.agFlt ∈ A) (a6 : Area.out ∈ A) {s₀ s : State} (d : Site) (c : Cell) (kind holder serial expiry reason : Nat) (h₀ : Within A s₀ s) :
    Within A s₀ (State.leaseAnswer s d c kind holder serial expiry reason) := by
  unfold State.leaseAnswer
  repeat' first | with_reducible assumption | with_reducible apply State.leaseTo_within

theorem State.leaseRefuse_within {A : List Area} (a0 : Area.regs ∈ A) (a1 : Area.aregs ∈ A) (a2 : Area.ports ∈ A) (a3 : Area.agPorts ∈ A) (a4 : Area.flt ∈ A) (a5 : Area.agFlt ∈ A) (a6 : Area.out ∈ A) {s₀ s : State} (d : Site) (c : Cell) (r : LeaseRec) (why : Nat) (h₀ : Within A s₀ s) :
    Within A s₀ (State.leaseRefuse s d c r why) := by
  unfold State.leaseRefuse
  repeat' first | (extract_lets +onlyGivenNames x; revert x; with_reducible first | apply Within.letS A s₀ | apply Within.letQ A s₀ | apply Within.letP A s₀ | apply Within.letV) | intro _ | with_reducible assumption | with_reducible apply State.leaseAnswer_within | with_reducible apply State.abump_within | split | with_reducible apply_assumption

theorem State.leaseGive_within {A : List Area} (a0 : Area.regs ∈ A) (a1 : Area.aregs ∈ A) (a2 : Area.ports ∈ A) (a3 : Area.agPorts ∈ A) (a4 : Area.flt ∈ A) (a5 : Area.agFlt ∈ A) (a6 : Area.pair ∈ A) (a7 : Area.ag ∈ A) (a8 : Area.out ∈ A) {s₀ s : State} (d : Site) (c : Cell) (kind : Nat) (r : LeaseRec) (h₀ : Within A s₀ s) :
    Within A s₀ (State.leaseGive s d c kind r) := by
  unfold State.leaseGive
  repeat' first | with_reducible exact fun _ k => k | (extract_lets +onlyGivenNames x; revert x; with_reducible first | apply Within.letS A s₀ | apply Within.letQ A s₀ | apply Within.letP A s₀ | apply Within.letV) | intro _ | with_reducible assumption | with_reducible apply State.putLease_within | with_reducible apply State.leaseAnswer_within | with_reducible apply State.abump_within | split | with_reducible apply_assumption

theorem State.leaseRenew_within {A : List Area} (a0 : Area.regs ∈ A) (a1 : Area.aregs ∈ A) (a2 : Area.ports ∈ A) (a3 : Area.agPorts ∈ A) (a4 : Area.flt ∈ A) (a5 : Area.agFlt ∈ A) (a6 : Area.pair ∈ A) (a7 : Area.ag ∈ A) (a8 : Area.out ∈ A) {s₀ s : State} (d : Site) (c : Cell) (starting : Bool → Bool) (h₀ : Within A s₀ s) :
    Within A s₀ (State.leaseRenew s d c starting) := by
  unfold State.leaseRenew
  repeat' first | with_reducible exact fun _ k => k | with_reducible assumption | with_reducible apply Within.ite | with_reducible apply State.leaseRefuse_within | with_reducible apply State.leaseGive_within | split

theorem execLeaseRenew_within {A : List Area} (a0 : Area.regs ∈ A) (a1 : Area.aregs ∈ A) (a2 : Area.ports ∈ A) (a3 : Area.agPorts ∈ A) (a4 : Area.flt ∈ A) (a5 : Area.agFlt ∈ A) (a6 : Area.pair ∈ A) (a7 : Area.ag ∈ A) (a8 : Area.out ∈ A) {s₀ s : State} (site : Site) (cell : Cell) (h₀ : Within A s₀ s) :
    Out.within A s₀ (execLeaseRenew site cell s) := by
  unfold execLeaseRenew
  show Within A s₀ _
  repeat' first | with_reducible exact fun _ k => k | with_reducible assumption | with_reducible apply State.leaseRenew_within

theorem execLeaseMove_within {A : List Area} (a0 : Area.regs ∈ A) (a1 : Area.aregs ∈ A) (a2 : Area.ports ∈ A) (a3 : Area.agPorts ∈ A) (a4 : Area.flt ∈ A) (a5 : Area.agFlt ∈ A) (a6 : Area.pair ∈ A) (a7 : Area.ag ∈ A) (a8 : Area.out ∈ A) {s₀ s : State} (site : Site) (cell : Cell) (h₀ : Within A s₀ s) :
    Out.within A s₀ (execLeaseMove site cell s) := by
  unfold execLeaseMove
  show Within A s₀ _
  repeat' first | with_reducible exact fun _ k => k | intro _ | with_reducible assumption | with_reducible apply State.leaseRenew_within

theorem State.takeBack_within {A : List Area} (a0 : Area.ports ∈ A) (a1 : Area.agPorts ∈ A) {s₀ s : State} (d : Site) (old new : Nat) (h₀ : Within A s₀ s) :
    Within A s₀ (State.takeBack s d old new) := by
  unfold State.takeBack
  repeat' first | (extract_lets +onlyGivenNames x; revert x; with_reducible first | apply Within.letS A s₀ | apply Within.letQ A s₀ | apply Within.letP A s₀ | apply Within.letF A s₀ | apply Within.letK A s₀ | apply Within.letG A s₀ | apply Within.letF1x A s₀ | apply Within.letH A s₀ | apply Within.letV) | intro _ | with_reducible assumption | with_reducible apply Within.ite | with_reducible apply Within.foldl | with_reducible apply Within.foldlPair | with_reducible apply State.setPort_within | split | with_reducible apply_assumption

theorem execLeaseTakeover_within {A : List Area} (a0 : Area.regs ∈ A) (a1 : Area.aregs ∈ A) (a2 : Area.ports ∈ A) (a3 : Area.agPorts ∈ A) (a4 : Area.flt ∈ A) (a5 : Area.agFlt ∈ A) (a6 : Area.pair ∈ A) (a7 : Area.ag ∈ A) (a8 : Area.out ∈ A) {s₀ s : State} (site : Site) (cell : Cell) (h₀ : Within A s₀ s) :
    Out.within A s₀ (execLeaseTakeover site cell s) := by
  unfold execLeaseTakeover
  show Within A s₀ _
  repeat' first | with_reducible exact fun _ k => k | (extract_lets +onlyGivenNames x; revert x; with_reducible first | apply Within.letS A s₀ | apply Within.letQ A s₀ | apply Within.letP A s₀ | apply Within.letV) | intro _ | with_reducible assumption | with_reducible apply Within.ite | with_reducible apply State.leaseRefuse_within | with_reducible apply State.leaseGive_within | with_reducible apply State.takeBack_within | split | with_reducible apply_assumption

theorem execLeaseRelease_within {A : List Area} (a0 : Area.regs ∈ A) (a1 : Area.aregs ∈ A) (a2 : Area.ports ∈ A) (a3 : Area.agPorts ∈ A) (a4 : Area.flt ∈ A) (a5 : Area.agFlt ∈ A) (a6 : Area.pair ∈ A) (a7 : Area.ag ∈ A) (a8 : Area.out ∈ A) {s₀ s : State} (site : Site) (cell : Cell) (h₀ : Within A s₀ s) :
    Out.within A s₀ (execLeaseRelease site cell s) := by
  unfold execLeaseRelease
  show Within A s₀ _
  repeat' first | with_reducible exact fun _ k => k | with_reducible assumption | with_reducible apply Within.ite | with_reducible apply State.leaseRefuse_within | with_reducible apply State.leaseGive_within | split

theorem execRefereeStartingEnd_within {A : List Area} (a0 : Area.aregs ∈ A) (a1 : Area.pair ∈ A) (a2 : Area.ag ∈ A) {s₀ s : State} (site : Site) (domain : Nat) (h₀ : Within A s₀ s) :
    Out.within A s₀ (execRefereeStartingEnd site domain s) := by
  unfold execRefereeStartingEnd
  show Within A s₀ _
  repeat' first | with_reducible exact fun _ k => k | with_reducible assumption | with_reducible apply State.putLease_within | split

theorem execRenewTimer_within {A : List Area} (a0 : Area.regs ∈ A) (a1 : Area.aregs ∈ A) (a2 : Area.ports ∈ A) (a3 : Area.agPorts ∈ A) (a4 : Area.flt ∈ A) (a5 : Area.agFlt ∈ A) (a6 : Area.pair ∈ A) (a7 : Area.out ∈ A) {s₀ s : State}  (h₀ : Within A s₀ s) :
    Out.within A s₀ (execRenewTimer s) := by
  unfold execRenewTimer
  show Within A s₀ _
  repeat' first | with_reducible exact fun _ k => k | intro _ | with_reducible assumption | with_reducible apply Within.ite | with_reducible apply State.leaseAsk_within | with_reducible apply State.setPair_within | split

theorem State.holdLease_within {A : List Area} (a0 : Area.regs ∈ A) (a1 : Area.pair ∈ A) {s₀ s : State} (c : Cell) (h₀ : Within A s₀ s) :
    Within A s₀ (State.holdLease s c) := by
  unfold State.holdLease
  repeat' first | with_reducible exact fun _ k => k | (extract_lets +onlyGivenNames x; revert x; with_reducible first | apply Within.letS A s₀ | apply Within.letQ A s₀ | apply Within.letP A s₀ | apply Within.letV) | intro _ | with_reducible assumption | with_reducible apply State.wr_within | with_reducible apply State.setPair_within | with_reducible apply_assumption

theorem State.goCold_within {A : List Area} (a0 : Area.regs ∈ A) {s₀ s : State}  (h₀ : Within A s₀ s) :
    Within A s₀ (State.goCold s) := by
  unfold State.goCold
  repeat' first | (extract_lets +onlyGivenNames x; revert x; with_reducible first | apply Within.letS A s₀ | apply Within.letQ A s₀ | apply Within.letP A s₀ | apply Within.letV) | intro _ | with_reducible assumption | with_reducible apply Within.ite | with_reducible apply Within.foldl | with_reducible apply State.wr_within | with_reducible apply State.stacksTo_within | with_reducible apply State.cpwr_within | with_reducible apply State.cpwrAll_within | split | with_reducible apply_assumption

theorem State.dropDomain_within {A : List Area} (a0 : Area.regs ∈ A) (a1 : Area.ttbs ∈ A) (a2 : Area.insts ∈ A) (a3 : Area.ctxs ∈ A) (a4 : Area.rst ∈ A) (a5 : Area.pair ∈ A) {s₀ s : State} (h₀ : Within A s₀ s) :
    Within A s₀ (State.dropDomain s) := by
  unfold State.dropDomain
  extract_lets t u
  have ht : Within A s₀ t := Within.foldl h₀ fun _ _ k => State.setCtx_within a3 _ _ (State.loadRegs_within a0 _ _ (State.loadRegs_within a0 _ _ k))
  clear_value t
  have h1 : Within A s₀ { t with ttbs := contexts.map TtbSt.fresh } := Within.ttbs a1 (fun _ => rfl) ht
  have hu : Within A s₀ u := State.showOpen_within a0 (Within.insts a2 h1)
  exact State.setPair_within a5 _ (fun _ k => k) (State.setRst_within a4 _ hu)

theorem State.toStandby_within {A : List Area} (a0 : Area.regs ∈ A) (a1 : Area.ttbs ∈ A) (a2 : Area.insts ∈ A) (a3 : Area.ctxs ∈ A) (a4 : Area.rst ∈ A) (a5 : Area.pair ∈ A) {s₀ s : State}  (h₀ : Within A s₀ s) :
    Within A s₀ (State.toStandby s) := by
  unfold State.toStandby
  repeat' first | with_reducible exact fun _ k => k | (extract_lets +onlyGivenNames x; revert x; with_reducible first | apply Within.letS A s₀ | apply Within.letQ A s₀ | apply Within.letP A s₀ | apply Within.letV) | intro _ | with_reducible assumption | with_reducible apply State.dropDomain_within | with_reducible apply State.wr_within | with_reducible apply State.goCold_within | with_reducible apply_assumption

theorem execLeaseGrant_within {A : List Area} (a0 : Area.regs ∈ A) (a1 : Area.ttbs ∈ A) (a2 : Area.insts ∈ A) (a3 : Area.tile ∈ A) (a4 : Area.ctxs ∈ A) (a5 : Area.beyjo ∈ A) (a6 : Area.rst ∈ A) (a7 : Area.pair ∈ A) {s₀ s : State} (cell : Cell) (h₀ : Within A s₀ s) :
    Out.within A s₀ (execLeaseGrant cell s) := by
  unfold execLeaseGrant
  show Within A s₀ _
  repeat' first | with_reducible exact fun _ k => k | with_reducible assumption | with_reducible apply Within.ite | with_reducible apply State.mailOk_within | with_reducible apply State.toStandby_within | with_reducible apply State.holdLease_within | split

theorem execLeaseExpiry_within {A : List Area} (a0 : Area.regs ∈ A) (a1 : Area.ports ∈ A) (a2 : Area.insts ∈ A) (a3 : Area.flt ∈ A) (a4 : Area.agFlt ∈ A) (a5 : Area.pair ∈ A) {s₀ s : State}  (h₀ : Within A s₀ s) :
    Out.within A s₀ (execLeaseExpiry s) := by
  unfold execLeaseExpiry
  show Within A s₀ _
  repeat' first | with_reducible exact fun _ k => k | with_reducible assumption | with_reducible apply Within.ite | with_reducible apply State.fence_within | with_reducible apply State.detect_within | split

theorem State.tellPair_within {A : List Area} (a0 : Area.regs ∈ A) (a1 : Area.aregs ∈ A) (a2 : Area.ports ∈ A) (a3 : Area.agPorts ∈ A) (a4 : Area.route ∈ A) (a5 : Area.flt ∈ A) (a6 : Area.agFlt ∈ A) (a7 : Area.out ∈ A) {s₀ s : State}  (h₀ : Within A s₀ s) :
    Within A s₀ (State.tellPair s) := by
  unfold State.tellPair
  repeat' first | intro _ | with_reducible assumption | with_reducible apply Within.foldl | with_reducible apply State.remoteWrite_within

theorem execLeaseMoveTrigger_within {A : List Area} (a0 : Area.regs ∈ A) (a1 : Area.aregs ∈ A) (a2 : Area.ports ∈ A) (a3 : Area.agPorts ∈ A) (a4 : Area.route ∈ A) (a5 : Area.flt ∈ A) (a6 : Area.agFlt ∈ A) (a7 : Area.pair ∈ A) (a8 : Area.out ∈ A) {s₀ s : State}  (h₀ : Within A s₀ s) :
    Out.within A s₀ (execLeaseMoveTrigger s) := by
  unfold execLeaseMoveTrigger
  show Within A s₀ _
  repeat' first | with_reducible exact fun _ k => k | intro _ | with_reducible assumption | with_reducible apply Within.ite | with_reducible apply State.wr_within | with_reducible apply State.tellPair_within | with_reducible apply State.dueGen_within | with_reducible apply State.setPair_within | split

theorem State.askTakeover_within {A : List Area} (a0 : Area.regs ∈ A) (a1 : Area.aregs ∈ A) (a2 : Area.ports ∈ A) (a3 : Area.agPorts ∈ A) (a4 : Area.flt ∈ A) (a5 : Area.agFlt ∈ A) (a6 : Area.pair ∈ A) (a7 : Area.out ∈ A) {s₀ s : State}  (h₀ : Within A s₀ s) :
    Within A s₀ (State.askTakeover s) := by
  unfold State.askTakeover
  repeat' first | with_reducible exact fun _ k => k | intro _ | with_reducible assumption | with_reducible apply State.leaseAsk_within | with_reducible apply State.wr_within | with_reducible apply State.setPair_within

theorem execTakeoverTrigger_within {A : List Area} (a0 : Area.regs ∈ A) (a1 : Area.aregs ∈ A) (a2 : Area.ports ∈ A) (a3 : Area.agPorts ∈ A) (a4 : Area.flt ∈ A) (a5 : Area.agFlt ∈ A) (a6 : Area.pair ∈ A) (a7 : Area.out ∈ A) {s₀ s : State}  (h₀ : Within A s₀ s) :
    Out.within A s₀ (execTakeoverTrigger s) := by
  unfold execTakeoverTrigger
  show Within A s₀ _
  repeat' first | with_reducible exact fun _ k => k | with_reducible assumption | with_reducible apply Within.ite | with_reducible apply State.askTakeover_within | split

theorem execTakeoverRequestRepeat_within {A : List Area} (a0 : Area.regs ∈ A) (a1 : Area.aregs ∈ A) (a2 : Area.ports ∈ A) (a3 : Area.agPorts ∈ A) (a4 : Area.flt ∈ A) (a5 : Area.agFlt ∈ A) (a6 : Area.pair ∈ A) (a7 : Area.out ∈ A) {s₀ s : State}  (h₀ : Within A s₀ s) :
    Out.within A s₀ (execTakeoverRequestRepeat s) := by
  unfold execTakeoverRequestRepeat
  show Within A s₀ _
  repeat' first | with_reducible exact fun _ k => k | intro _ | with_reducible assumption | with_reducible apply Within.ite | with_reducible apply State.askTakeover_within | with_reducible apply State.setPair_within | split

theorem State.handoverFails_within {A : List Area} (a0 : Area.regs ∈ A) (a1 : Area.aregs ∈ A) (a2 : Area.time ∈ A) (a3 : Area.ports ∈ A) (a4 : Area.agPorts ∈ A) (a5 : Area.route ∈ A) (a6 : Area.ttbs ∈ A) (a7 : Area.insts ∈ A) (a8 : Area.tile ∈ A) (a9 : Area.beyjo ∈ A) (a10 : Area.flt ∈ A) (a11 : Area.agFlt ∈ A) (a12 : Area.pair ∈ A) (a13 : Area.out ∈ A) {s₀ s : State} (h : Handover) (code : Nat) (h₀ : Within A s₀ s) :
    Within A s₀ (State.handoverFails s h code) := by
  unfold State.handoverFails
  repeat' first | with_reducible exact fun _ k => k | (extract_lets +onlyGivenNames x; revert x; with_reducible first | apply Within.letS A s₀ | apply Within.letQ A s₀ | apply Within.letP A s₀ | apply Within.letV) | intro _ | with_reducible assumption | with_reducible apply Within.ite | with_reducible apply Within.foldl | with_reducible apply State.setPair_within | with_reducible apply State.mailReject_within | with_reducible apply State.setTtb_within | with_reducible apply State.beginArm_within | split | with_reducible apply_assumption

theorem State.releaseFails_within {A : List Area} (a0 : Area.regs ∈ A) (a1 : Area.aregs ∈ A) (a2 : Area.time ∈ A) (a3 : Area.ports ∈ A) (a4 : Area.agPorts ∈ A) (a5 : Area.route ∈ A) (a6 : Area.ttbs ∈ A) (a7 : Area.insts ∈ A) (a8 : Area.tile ∈ A) (a9 : Area.beyjo ∈ A) (a10 : Area.flt ∈ A) (a11 : Area.agFlt ∈ A) (a12 : Area.pair ∈ A) (a13 : Area.out ∈ A) {s₀ s : State} (h : Handover) (h₀ : Within A s₀ s) :
    Within A s₀ (State.releaseFails s h) := by
  unfold State.releaseFails
  repeat' first | with_reducible exact fun _ k => k | (extract_lets +onlyGivenNames x; revert x; with_reducible first | apply Within.letS A s₀ | apply Within.letQ A s₀ | apply Within.letP A s₀ | apply Within.letV) | intro _ | with_reducible assumption | with_reducible apply Within.ite | with_reducible apply State.wr_within | with_reducible apply State.handoverFails_within | split | with_reducible apply_assumption

theorem execLeaseRefuse_within {A : List Area} (a0 : Area.regs ∈ A) (a1 : Area.aregs ∈ A) (a2 : Area.time ∈ A) (a3 : Area.ports ∈ A) (a4 : Area.agPorts ∈ A) (a5 : Area.route ∈ A) (a6 : Area.ttbs ∈ A) (a7 : Area.insts ∈ A) (a8 : Area.tile ∈ A) (a9 : Area.ctxs ∈ A) (a10 : Area.beyjo ∈ A) (a11 : Area.flt ∈ A) (a12 : Area.agFlt ∈ A) (a13 : Area.rst ∈ A) (a14 : Area.pair ∈ A) (a15 : Area.out ∈ A) {s₀ s : State} (cell : Cell) (h₀ : Within A s₀ s) :
    Out.within A s₀ (execLeaseRefuse cell s) := by
  unfold execLeaseRefuse
  show Within A s₀ _
  repeat' first | with_reducible exact fun _ k => k | (extract_lets +onlyGivenNames x; revert x; with_reducible first | apply Within.letS A s₀ | apply Within.letQ A s₀ | apply Within.letP A s₀ | apply Within.letV) | intro _ | with_reducible assumption | with_reducible apply Within.ite | with_reducible apply State.releaseFails_within | with_reducible apply State.toStandby_within | with_reducible apply State.setPair_within | split | with_reducible apply_assumption

theorem execHandoverReleaseTimeout_within {A : List Area} (a0 : Area.regs ∈ A) (a1 : Area.aregs ∈ A) (a2 : Area.time ∈ A) (a3 : Area.ports ∈ A) (a4 : Area.agPorts ∈ A) (a5 : Area.route ∈ A) (a6 : Area.ttbs ∈ A) (a7 : Area.insts ∈ A) (a8 : Area.tile ∈ A) (a9 : Area.beyjo ∈ A) (a10 : Area.flt ∈ A) (a11 : Area.agFlt ∈ A) (a12 : Area.pair ∈ A) (a13 : Area.out ∈ A) {s₀ s : State}  (h₀ : Within A s₀ s) :
    Out.within A s₀ (execHandoverReleaseTimeout s) := by
  unfold execHandoverReleaseTimeout
  show Within A s₀ _
  repeat' first | with_reducible exact fun _ k => k | with_reducible assumption | with_reducible apply Within.ite | with_reducible apply State.releaseFails_within | split

theorem State.becomeActive_within {A : List Area} (a0 : Area.regs ∈ A) (a1 : Area.aregs ∈ A) (a2 : Area.ports ∈ A) (a3 : Area.agPorts ∈ A) (a4 : Area.route ∈ A) (a5 : Area.flt ∈ A) (a6 : Area.agFlt ∈ A) (a7 : Area.pair ∈ A) (a8 : Area.out ∈ A) {s₀ s : State} (c : Cell) (h₀ : Within A s₀ s) :
    Within A s₀ (State.becomeActive s c) := by
  unfold State.becomeActive
  repeat' first | with_reducible exact fun _ k => k | (extract_lets +onlyGivenNames x; revert x; with_reducible first | apply Within.letS A s₀ | apply Within.letQ A s₀ | apply Within.letP A s₀ | apply Within.letV) | intro _ | with_reducible assumption | with_reducible apply Within.foldl | with_reducible apply State.wr_within | with_reducible apply State.holdLease_within | with_reducible apply State.cpwrAll_within | with_reducible apply State.stacksTo_within | with_reducible apply State.pghWake_within | with_reducible apply State.portRoles_within | with_reducible apply State.tellPair_within | with_reducible apply_assumption

theorem State.coldStart_within {A : List Area} (a0 : Area.regs ∈ A) (a1 : Area.aregs ∈ A) (a2 : Area.ports ∈ A) (a3 : Area.agPorts ∈ A) (a4 : Area.route ∈ A) (a5 : Area.ttbs ∈ A) (a6 : Area.beyjo ∈ A) (a7 : Area.flt ∈ A) (a8 : Area.agFlt ∈ A) (a9 : Area.pair ∈ A) (a10 : Area.out ∈ A) {s₀ s : State}  (h₀ : Within A s₀ s) :
    Within A s₀ (State.coldStart s) := by
  unfold State.coldStart
  repeat' first | with_reducible exact fun _ k => k | intro _ | with_reducible assumption | with_reducible apply State.wr_within | with_reducible apply State.setPair_within | with_reducible apply State.requestFlip_within

theorem execLeaseTakeoverGrant_within {A : List Area} (a0 : Area.regs ∈ A) (a1 : Area.aregs ∈ A) (a2 : Area.ports ∈ A) (a3 : Area.agPorts ∈ A) (a4 : Area.route ∈ A) (a5 : Area.ttbs ∈ A) (a6 : Area.beyjo ∈ A) (a7 : Area.flt ∈ A) (a8 : Area.agFlt ∈ A) (a9 : Area.pair ∈ A) (a10 : Area.out ∈ A) {s₀ s : State} (cell : Cell) (h₀ : Within A s₀ s) :
    Out.within A s₀ (execLeaseTakeoverGrant cell s) := by
  unfold execLeaseTakeoverGrant
  show Within A s₀ _
  repeat' first | with_reducible exact fun _ k => k | (extract_lets +onlyGivenNames x; revert x; with_reducible first | apply Within.letS A s₀ | apply Within.letQ A s₀ | apply Within.letP A s₀ | apply Within.letV) | intro _ | with_reducible assumption | with_reducible apply Within.ite | with_reducible apply State.holdLease_within | with_reducible apply State.becomeActive_within | with_reducible apply State.coldStart_within | with_reducible apply State.wr_within | with_reducible apply State.bump_within | with_reducible apply State.setPair_within | split | with_reducible apply_assumption

end Sys2Proof.Machine
end

