-- ==== Sys2Proof/Laws/TakeoverWithin.lean ====
section
/-! SUPPORT. The parts of the state that the definitions of Machine/Takeover.lean reach. -/

set_option linter.unreachableTactic false
set_option linter.unusedTactic false

namespace Sys2Proof.Machine

theorem State.loadSettings_within {A : List Area} (a0 : Area.regs ∈ A) (a1 : Area.aregs ∈ A) (a2 : Area.time ∈ A) (a3 : Area.agTime ∈ A) (a4 : Area.ports ∈ A) (a5 : Area.agPorts ∈ A) (a6 : Area.route ∈ A) (a7 : Area.beyjo ∈ A) (a8 : Area.flt ∈ A) (a9 : Area.agFlt ∈ A) (a10 : Area.pair ∈ A) (a11 : Area.boot ∈ A) (a12 : Area.out ∈ A) {s₀ s : State} (bs : List Byte) (h₀ : Within A s₀ s) :
    Within A s₀ (State.loadSettings s bs) := by
  unfold State.loadSettings
  repeat' first | with_reducible exact fun k => kputs_sorted (tdrop_sorted k _) _ | with_reducible exact fun _ k => k | (extract_lets +onlyGivenNames x; revert x; with_reducible first | apply Within.letS A s₀ | apply Within.letQ A s₀ | apply Within.letP A s₀ | apply Within.letF A s₀ | apply Within.letK A s₀ | apply Within.letG A s₀ | apply Within.letF1x A s₀ | apply Within.letH A s₀ | apply Within.letV) | intro _ | with_reducible assumption | with_reducible apply Within.ite | with_reducible apply Within.foldl | with_reducible apply Within.foldlPair | with_reducible apply State.disablePort_within | with_reducible apply State.tmkStart_within | with_reducible apply State.wr_within | split | with_reducible apply Within.regs | with_reducible apply_assumption

theorem State.putThresh_within {A : List Area} (a0 : Area.flt ∈ A) (a1 : Area.agFlt ∈ A) {s₀ s : State} (ws : List Nat) (h₀ : Within A s₀ s) :
    Within A s₀ (State.putThresh s ws) := by
  unfold State.putThresh
  repeat' first | (extract_lets +onlyGivenNames x; revert x; with_reducible first | apply Within.letS A s₀ | apply Within.letQ A s₀ | apply Within.letP A s₀ | apply Within.letV) | intro _ | with_reducible assumption | with_reducible apply Within.ite | with_reducible apply State.setFlt_within | split | with_reducible apply_assumption

theorem State.loadThresh_within {A : List Area} (a0 : Area.flt ∈ A) (a1 : Area.agFlt ∈ A) {s₀ s : State} (ws : List Nat) (h₀ : Within A s₀ s) :
    Within A s₀ (State.loadThresh s ws) := by
  unfold State.loadThresh
  repeat' first | intro _ | with_reducible assumption | with_reducible apply Within.foldl | with_reducible apply State.putThresh_within | with_reducible apply State.drop_within

theorem State.loadCtx_within {A : List Area} (a0 : Area.regs ∈ A) (a1 : Area.ctxs ∈ A) {s₀ s : State} (c : Nat) (bs : List Byte) (h₀ : Within A s₀ s) :
    Within A s₀ (State.loadCtx s c bs) := by
  unfold State.loadCtx
  repeat' first | (extract_lets +onlyGivenNames x; revert x; with_reducible first | apply Within.letS A s₀ | apply Within.letQ A s₀ | apply Within.letP A s₀ | apply Within.letV) | intro _ | with_reducible assumption | with_reducible apply Within.foldl | with_reducible apply Within.foldlPair | with_reducible apply State.drop_within | with_reducible apply State.setCtx_within | with_reducible apply State.loadRegs_within | with_reducible apply_assumption

theorem State.loadTtb_within {A : List Area} (a0 : Area.regs ∈ A) (a1 : Area.ttbs ∈ A) {s₀ s : State} (c : Nat) (state image : Option (List Byte)) (h₀ : Within A s₀ s) :
    Within A s₀ (State.loadTtb s c state image) := by
  unfold State.loadTtb
  repeat' first | (extract_lets +onlyGivenNames x; revert x; with_reducible first | apply Within.letS A s₀ | apply Within.letQ A s₀ | apply Within.letP A s₀ | apply Within.letV) | intro _ | with_reducible assumption | with_reducible apply Within.ite | with_reducible apply State.loadRegs_within | with_reducible apply State.setTtb_within | with_reducible apply State.ttbTo_within | split | with_reducible apply_assumption

theorem State.loadKeys_within {A : List Area} (a0 : Area.rot ∈ A) {s₀ s : State} (n : Nat) (l : List Nat) (h₀ : Within A s₀ s) :
    Within A s₀ (State.loadKeys s n l) := by
  induction n generalizing s l with
  | zero => exact h₀
  | succ n ih =>
    unfold State.loadKeys
    split
    · extract_lets t u
      have hu : Within A s₀ u := Within.foldl h₀ fun v x k => by
        with_reducible apply State.setEp_within
        repeat' assumption
      exact ih _ hu
    · exact h₀

set_option maxHeartbeats 1000000 in
theorem State.loadGen_within {A : List Area} (a0 : Area.regs ∈ A) (a1 : Area.aregs ∈ A) (a2 : Area.time ∈ A) (a3 : Area.agTime ∈ A) (a4 : Area.ports ∈ A) (a5 : Area.agPorts ∈ A) (a6 : Area.route ∈ A) (a7 : Area.ttbs ∈ A) (a8 : Area.insts ∈ A) (a9 : Area.ctxs ∈ A) (a10 : Area.rot ∈ A) (a11 : Area.beyjo ∈ A) (a12 : Area.flt ∈ A) (a13 : Area.agFlt ∈ A) (a14 : Area.rst ∈ A) (a15 : Area.pair ∈ A) (a16 : Area.boot ∈ A) (a17 : Area.out ∈ A) {s₀ s : State} (l : List Section) (h₀ : Within A s₀ s) :
    Within A s₀ (State.loadGen s l) := by
  unfold State.loadGen
  repeat' first | with_reducible exact fun _ k => k | (extract_lets +onlyGivenNames x; revert x; with_reducible first | apply Within.letS A s₀ | apply Within.letQ A s₀ | apply Within.letP A s₀ | apply Within.letV) | intro _ | with_reducible assumption | with_reducible apply Within.foldl | with_reducible apply Within.foldlPair | with_reducible apply State.wr_within | with_reducible apply State.drop_within | with_reducible apply State.setRoute_within | with_reducible apply State.loadRegs_within | with_reducible apply State.loadCtx_within | with_reducible apply State.setCtx_within | with_reducible apply State.loadTtb_within | with_reducible apply State.loadSettings_within | with_reducible apply State.loadThresh_within | with_reducible apply State.setRot_within | with_reducible apply State.loadKeys_within | with_reducible apply State.setRst_within | with_reducible apply State.setPair_within | split | with_reducible apply Within.insts | with_reducible apply_assumption

theorem State.takeTables_within {A : List Area} (a0 : Area.regs ∈ A) (a1 : Area.route ∈ A) {s₀ s : State} (rs : List AgentReport) (h₀ : Within A s₀ s) :
    Within A s₀ (State.takeTables s rs) := by
  unfold State.takeTables
  repeat' first | (extract_lets +onlyGivenNames x; revert x; with_reducible first | apply Within.letS A s₀ | apply Within.letQ A s₀ | apply Within.letP A s₀ | apply Within.letV) | intro _ | with_reducible assumption | with_reducible apply Within.foldl | with_reducible apply Within.foldlPair | with_reducible apply State.wr_within | with_reducible apply State.setRoute_within | split | with_reducible apply_assumption

theorem State.takeMap_within {A : List Area} (a0 : Area.ctxs ∈ A) {s₀ s : State} (rs : List AgentReport) (c : Nat) (h₀ : Within A s₀ s) :
    Within A s₀ (State.takeMap s rs c) := by
  unfold State.takeMap
  repeat' first | intro _ | with_reducible assumption | with_reducible apply Within.ite | with_reducible apply Within.foldl | with_reducible apply Within.foldlPair | with_reducible apply State.setCtx_within | split

theorem State.takeKeys_within {A : List Area} (a0 : Area.rot ∈ A) {s₀ s : State} (r : AgentReport) (h₀ : Within A s₀ s) :
    Within A s₀ (State.takeKeys s r) := by
  unfold State.takeKeys
  repeat' first | (extract_lets +onlyGivenNames x; revert x; with_reducible first | apply Within.letS A s₀ | apply Within.letQ A s₀ | apply Within.letP A s₀ | apply Within.letV) | intro _ | with_reducible assumption | with_reducible apply Within.ite | with_reducible apply State.setEp_within | split | with_reducible apply_assumption

theorem State.takeoverStop_within {A : List Area} (a0 : Area.regs ∈ A) (a1 : Area.ttbs ∈ A) (a2 : Area.insts ∈ A) (a3 : Area.tile ∈ A) (a4 : Area.hbm ∈ A) (a5 : Area.beyjo ∈ A) {s₀ s : State} (c : Nat) (h₀ : Within A s₀ s) :
    Within A s₀ (State.takeoverStop s c) := by
  unfold State.takeoverStop
  repeat' first | with_reducible exact fun _ k => k | (extract_lets +onlyGivenNames x; revert x; with_reducible first | apply Within.letS A s₀ | apply Within.letQ A s₀ | apply Within.letP A s₀ | apply Within.letV) | intro _ | with_reducible assumption | with_reducible apply State.dropSteps_within | with_reducible apply State.setTtb_within | with_reducible apply State.ttbTo_within | with_reducible apply State.notifyJob_within | with_reducible apply_assumption

theorem State.keepJob_within {A : List Area} (a0 : Area.regs ∈ A) (a1 : Area.aregs ∈ A) (a2 : Area.ports ∈ A) (a3 : Area.agPorts ∈ A) (a4 : Area.ttbs ∈ A) (a5 : Area.beyjo ∈ A) (a6 : Area.flt ∈ A) (a7 : Area.agFlt ∈ A) (a8 : Area.pair ∈ A) (a9 : Area.out ∈ A) {s₀ s : State} (c : Nat) (m : Image) (t : TtbReport) (serial : Nat) (h₀ : Within A s₀ s) :
    Within A s₀ (State.keepJob s c m t serial) := by
  unfold State.keepJob
  repeat' first | with_reducible exact fun _ k => k | (extract_lets +onlyGivenNames x; revert x; with_reducible first | apply Within.letS A s₀ | apply Within.letQ A s₀ | apply Within.letP A s₀ | apply Within.letV) | intro _ | with_reducible assumption | with_reducible apply Within.ite | with_reducible apply State.wr_within | with_reducible apply State.ttbTo_within | with_reducible apply State.setTtb_within | with_reducible apply State.setPair_within | with_reducible apply State.bump_within | with_reducible apply State.service_within | with_reducible apply State.detect_within | with_reducible apply State.voidOut_within | with_reducible apply State.notifyJob_within | split | with_reducible apply_assumption

theorem State.reconcileTtb_within {A : List Area} (a0 : Area.regs ∈ A) (a1 : Area.aregs ∈ A) (a2 : Area.ports ∈ A) (a3 : Area.agPorts ∈ A) (a4 : Area.route ∈ A) (a5 : Area.ttbs ∈ A) (a6 : Area.insts ∈ A) (a7 : Area.tile ∈ A) (a8 : Area.hbm ∈ A) (a9 : Area.beyjo ∈ A) (a10 : Area.flt ∈ A) (a11 : Area.agFlt ∈ A) (a12 : Area.pair ∈ A) (a13 : Area.out ∈ A) {s₀ s : State} (rs : List AgentReport) (c : Nat) (h₀ : Within A s₀ s) :
    Within A s₀ (State.reconcileTtb s rs c) := by
  unfold State.reconcileTtb
  repeat' first | with_reducible exact fun _ k => k | (extract_lets +onlyGivenNames x; revert x; with_reducible first | apply Within.letS A s₀ | apply Within.letQ A s₀ | apply Within.letP A s₀ | apply Within.letV) | intro _ | with_reducible assumption | with_reducible apply Within.ite | with_reducible apply Within.foldl | with_reducible apply State.disarmMembers_within | with_reducible apply State.notifyJob_within | with_reducible apply State.takeoverStop_within | with_reducible apply State.keepJob_within | split | with_reducible apply_assumption

theorem State.loseSilent_within {A : List Area} (a0 : Area.regs ∈ A) (a1 : Area.ttbs ∈ A) (a2 : Area.ctxs ∈ A) (a3 : Area.beyjo ∈ A) {s₀ s : State} (c : Nat) (rs : List AgentReport) (h₀ : Within A s₀ s) :
    Within A s₀ (State.loseSilent s c rs) := by
  unfold State.loseSilent
  repeat' first | (extract_lets +onlyGivenNames x; revert x; with_reducible first | apply Within.letS A s₀ | apply Within.letQ A s₀ | apply Within.letP A s₀ | apply Within.letF A s₀ | apply Within.letK A s₀ | apply Within.letG A s₀ | apply Within.letF1x A s₀ | apply Within.letH A s₀ | apply Within.letV) | intro _ | with_reducible assumption | with_reducible apply Within.ite | with_reducible apply Within.foldl | with_reducible apply Within.foldlPair | with_reducible apply State.setCtx_within | with_reducible apply State.holdJob_within | with_reducible apply State.notifyJob_within | split | with_reducible apply_assumption

theorem State.remapsLeft_within {A : List Area} (a0 : Area.rst ∈ A) {s₀ s : State}  (h₀ : Within A s₀ s) :
    Within A s₀ (State.remapsLeft s) := by
  unfold State.remapsLeft
  repeat' first | intro _ | with_reducible assumption | with_reducible apply State.setRst_within

theorem State.reconcile_within {A : List Area} (a0 : Area.regs ∈ A) (a1 : Area.aregs ∈ A) (a2 : Area.ports ∈ A) (a3 : Area.agPorts ∈ A) (a4 : Area.route ∈ A) (a5 : Area.ttbs ∈ A) (a6 : Area.insts ∈ A) (a7 : Area.tile ∈ A) (a8 : Area.hbm ∈ A) (a9 : Area.ctxs ∈ A) (a10 : Area.rot ∈ A) (a11 : Area.beyjo ∈ A) (a12 : Area.flt ∈ A) (a13 : Area.agFlt ∈ A) (a14 : Area.rst ∈ A) (a15 : Area.pair ∈ A) (a16 : Area.out ∈ A) {s₀ s : State} (reports : List AgentReport) (h₀ : Within A s₀ s) :
    Within A s₀ (State.reconcile s reports) := by
  unfold State.reconcile
  repeat' first | with_reducible exact fun _ k => k | (extract_lets +onlyGivenNames x; revert x; with_reducible first | apply Within.letS A s₀ | apply Within.letQ A s₀ | apply Within.letP A s₀ | apply Within.letF A s₀ | apply Within.letK A s₀ | apply Within.letG A s₀ | apply Within.letF1x A s₀ | apply Within.letH A s₀ | apply Within.letV) | intro _ | with_reducible assumption | with_reducible apply Within.foldl | with_reducible apply State.flipRecovery_within | with_reducible apply State.takeTables_within | with_reducible apply State.takeMap_within | with_reducible apply State.takeKeys_within | with_reducible apply State.reconcileTtb_within | with_reducible apply State.loseSilent_within | with_reducible apply State.remapsLeft_within | with_reducible apply State.wr_within | with_reducible apply State.setPair_within | with_reducible apply_assumption

theorem State.noGen_within {A : List Area} (a0 : Area.regs ∈ A) {s₀ s : State}  (h₀ : Within A s₀ s) :
    Within A s₀ (State.noGen s) := by
  unfold State.noGen
  repeat' first | with_reducible assumption | with_reducible apply State.wr_within | with_reducible apply State.goCold_within

theorem execTakeoverReconcile_within {A : List Area} (a0 : Area.regs ∈ A) (a1 : Area.aregs ∈ A) (a2 : Area.time ∈ A) (a3 : Area.agTime ∈ A) (a4 : Area.ports ∈ A) (a5 : Area.agPorts ∈ A) (a6 : Area.route ∈ A) (a7 : Area.ttbs ∈ A) (a8 : Area.insts ∈ A) (a9 : Area.tile ∈ A) (a10 : Area.hbm ∈ A) (a11 : Area.ctxs ∈ A) (a12 : Area.rot ∈ A) (a13 : Area.beyjo ∈ A) (a14 : Area.flt ∈ A) (a15 : Area.agFlt ∈ A) (a16 : Area.rst ∈ A) (a17 : Area.pair ∈ A) (a18 : Area.boot ∈ A) (a19 : Area.out ∈ A) {s₀ s : State} (reports : List AgentReport) (newTags oldTags : Bool) (h₀ : Within A s₀ s) :
    Out.within A s₀ (execTakeoverReconcile reports newTags oldTags s) := by
  unfold execTakeoverReconcile
  show Within A s₀ _
  repeat' first | with_reducible exact fun _ k => k | (extract_lets +onlyGivenNames x; revert x; with_reducible first | apply Within.letS A s₀ | apply Within.letQ A s₀ | apply Within.letP A s₀ | apply Within.letF A s₀ | apply Within.letK A s₀ | apply Within.letG A s₀ | apply Within.letF1x A s₀ | apply Within.letH A s₀ | apply Within.letV) | intro _ | with_reducible assumption | with_reducible apply Within.ite | with_reducible apply State.reconcile_within | with_reducible apply State.moveBuffer_within | with_reducible apply State.noGen_within | with_reducible apply State.loadGen_within | with_reducible apply State.setRoute_within | with_reducible apply State.wr_within | with_reducible apply State.setPair_within | split | with_reducible apply_assumption

theorem execTakeoverCdieReady_within {A : List Area} (a0 : Area.regs ∈ A) (a1 : Area.flt ∈ A) (a2 : Area.agFlt ∈ A) (a3 : Area.pair ∈ A) {s₀ s : State} (ok : Bool) (h₀ : Within A s₀ s) :
    Out.within A s₀ (execTakeoverCdieReady ok s) := by
  unfold execTakeoverCdieReady
  show Within A s₀ _
  repeat' first | with_reducible exact fun _ k => k | intro _ | with_reducible assumption | with_reducible apply Within.ite | with_reducible apply State.seqBroadcast_within | with_reducible apply State.setPair_within | with_reducible apply State.detect_within | with_reducible apply State.setFlt_within | split

theorem State.fillIn_within {A : List Area} (a0 : Area.tile ∈ A) (a1 : Area.hbm ∈ A) (a2 : Area.rot ∈ A) (a3 : Area.pair ∈ A) {s₀ s : State}  (h₀ : Within A s₀ s) :
    Within A s₀ (State.fillIn s) := by
  unfold State.fillIn
  repeat' first | with_reducible exact fun _ k => k | (extract_lets +onlyGivenNames x; revert x; with_reducible first | apply Within.letS A s₀ | apply Within.letQ A s₀ | apply Within.letP A s₀ | apply Within.letF A s₀ | apply Within.letK A s₀ | apply Within.letG A s₀ | apply Within.letF1x A s₀ | apply Within.letH A s₀ | apply Within.letV) | intro _ | with_reducible assumption | with_reducible apply Within.ite | with_reducible apply Within.foldl | with_reducible apply State.allocWrite_within | with_reducible apply State.setPair_within | with_reducible apply State.fillRegion_within | with_reducible apply State.reloadKeys_within | split | with_reducible apply_assumption

theorem execTakeoverLoadDone_within {A : List Area} (a0 : Area.regs ∈ A) (a1 : Area.aregs ∈ A) (a2 : Area.ports ∈ A) (a3 : Area.agPorts ∈ A) (a4 : Area.route ∈ A) (a5 : Area.ttbs ∈ A) (a6 : Area.tile ∈ A) (a7 : Area.hbm ∈ A) (a8 : Area.ctxs ∈ A) (a9 : Area.rot ∈ A) (a10 : Area.beyjo ∈ A) (a11 : Area.flt ∈ A) (a12 : Area.agFlt ∈ A) (a13 : Area.rst ∈ A) (a14 : Area.pair ∈ A) (a15 : Area.out ∈ A) (a16 : Area.freeCtr ∈ A) {s₀ s : State}  (h₀ : Within A s₀ s) :
    Out.within A s₀ (execTakeoverLoadDone s) := by
  unfold execTakeoverLoadDone
  show Within A s₀ _
  repeat' first | with_reducible exact fun _ k => k | (extract_lets +onlyGivenNames x; revert x; with_reducible first | apply Within.letS A s₀ | apply Within.letQ A s₀ | apply Within.letP A s₀ | apply Within.letV) | intro _ | with_reducible assumption | with_reducible apply Within.ite | with_reducible apply Within.foldl | with_reducible apply State.fillIn_within | with_reducible apply State.setRoute_within | with_reducible apply State.setRst_within | with_reducible apply State.wr_within | with_reducible apply State.setPair_within | with_reducible apply State.ctxAssign_within | with_reducible apply State.retrySpares_within | with_reducible apply State.requestFlip_within | split | with_reducible apply_assumption

theorem execTakeoverRearm_within {A : List Area} (a0 : Area.regs ∈ A) (a1 : Area.aregs ∈ A) (a2 : Area.time ∈ A) (a3 : Area.ports ∈ A) (a4 : Area.agPorts ∈ A) (a5 : Area.route ∈ A) (a6 : Area.ttbs ∈ A) (a7 : Area.insts ∈ A) (a8 : Area.flt ∈ A) (a9 : Area.agFlt ∈ A) (a10 : Area.pair ∈ A) (a11 : Area.out ∈ A) {s₀ s : State}  (h₀ : Within A s₀ s) :
    Out.within A s₀ (execTakeoverRearm s) := by
  unfold execTakeoverRearm
  show Within A s₀ _
  repeat' first | with_reducible exact fun _ k => k | (extract_lets +onlyGivenNames x; revert x; with_reducible first | apply Within.letS A s₀ | apply Within.letQ A s₀ | apply Within.letP A s₀ | apply Within.letV) | intro _ | with_reducible assumption | with_reducible apply Within.ite | with_reducible apply Within.foldl | with_reducible apply State.beginArm_within | with_reducible apply State.wr_within | with_reducible apply State.setPair_within | split | with_reducible apply_assumption

theorem execMailHandover_within {A : List Area} (a0 : Area.regs ∈ A) (a1 : Area.tile ∈ A) (a2 : Area.beyjo ∈ A) (a3 : Area.pair ∈ A) {s₀ s : State} (index slot : Nat) (h₀ : Within A s₀ s) :
    Out.within A s₀ (execMailHandover index slot s) := by
  unfold execMailHandover
  show Within A s₀ _
  repeat' first | with_reducible exact fun _ k => k | intro _ | with_reducible assumption | with_reducible apply State.mailReject_within | with_reducible apply State.mailRuns_within | with_reducible apply State.setPair_within | split

theorem execStandbyWarmDone_within {A : List Area} (a0 : Area.regs ∈ A) (a1 : Area.ttbs ∈ A) (a2 : Area.rot ∈ A) (a3 : Area.pair ∈ A) (a4 : Area.boot ∈ A) {s₀ s : State}  (h₀ : Within A s₀ s) :
    Out.within A s₀ (execStandbyWarmDone s) := by
  unfold execStandbyWarmDone
  show Within A s₀ _
  repeat' first | with_reducible exact fun _ k => k | (extract_lets +onlyGivenNames x; revert x; with_reducible first | apply Within.letS A s₀ | apply Within.letQ A s₀ | apply Within.letP A s₀ | apply Within.letV) | intro _ | with_reducible assumption | with_reducible apply Within.ite | with_reducible apply Within.foldl | with_reducible apply State.setPair_within | with_reducible apply State.setTtb_within | with_reducible apply State.cpwrAll_within | with_reducible apply State.stacksTo_within | with_reducible apply State.activate_within | with_reducible apply State.wr_within | with_reducible apply State.showUpdate_within | with_reducible apply State.seqBroadcast_within | split | with_reducible apply_assumption

theorem execHandoverPaused_within {A : List Area} (a0 : Area.regs ∈ A) (a1 : Area.ttbs ∈ A) (a2 : Area.insts ∈ A) (a3 : Area.tile ∈ A) (a4 : Area.hbm ∈ A) (a5 : Area.beyjo ∈ A) (a6 : Area.pair ∈ A) {s₀ s : State}  (h₀ : Within A s₀ s) :
    Out.within A s₀ (execHandoverPaused s) := by
  unfold execHandoverPaused
  show Within A s₀ _
  repeat' first | with_reducible exact fun _ k => k | (extract_lets +onlyGivenNames x; revert x; with_reducible first | apply Within.letS A s₀ | apply Within.letQ A s₀ | apply Within.letP A s₀ | apply Within.letV) | intro _ | with_reducible assumption | with_reducible apply Within.ite | with_reducible apply Within.foldl | with_reducible apply State.takeoverStop_within | with_reducible apply State.setPair_within | split | with_reducible apply_assumption

theorem execHandoverPauseTimeout_within {A : List Area} (a0 : Area.regs ∈ A) (a1 : Area.aregs ∈ A) (a2 : Area.time ∈ A) (a3 : Area.ports ∈ A) (a4 : Area.agPorts ∈ A) (a5 : Area.route ∈ A) (a6 : Area.ttbs ∈ A) (a7 : Area.insts ∈ A) (a8 : Area.tile ∈ A) (a9 : Area.beyjo ∈ A) (a10 : Area.flt ∈ A) (a11 : Area.agFlt ∈ A) (a12 : Area.pair ∈ A) (a13 : Area.out ∈ A) {s₀ s : State}  (h₀ : Within A s₀ s) :
    Out.within A s₀ (execHandoverPauseTimeout s) := by
  unfold execHandoverPauseTimeout
  show Within A s₀ _
  repeat' first | with_reducible exact fun _ k => k | with_reducible assumption | with_reducible apply Within.ite | with_reducible apply State.handoverFails_within | split

theorem State.partnerSeen_within {A : List Area} (a0 : Area.regs ∈ A) (a1 : Area.flt ∈ A) (a2 : Area.agFlt ∈ A) (a3 : Area.pair ∈ A) {s₀ s : State} (p : Nat × Nat × Nat) (h₀ : Within A s₀ s) :
    Within A s₀ (State.partnerSeen s p) := by
  unfold State.partnerSeen
  repeat' first | with_reducible exact fun _ k => k | (extract_lets +onlyGivenNames x; revert x; with_reducible first | apply Within.letS A s₀ | apply Within.letQ A s₀ | apply Within.letP A s₀ | apply Within.letV) | intro _ | with_reducible assumption | with_reducible apply Within.ite | with_reducible apply State.setPair_within | with_reducible apply State.wr_within | with_reducible apply State.detect_within | split | with_reducible apply_assumption

theorem State.partnerBack_within {A : List Area} (a0 : Area.regs ∈ A) (a1 : Area.rot ∈ A) (a2 : Area.flt ∈ A) (a3 : Area.agFlt ∈ A) (a4 : Area.pair ∈ A) {s₀ s : State} (p : Nat × Nat × Nat) (h₀ : Within A s₀ s) :
    Within A s₀ (State.partnerBack s p) := by
  unfold State.partnerBack
  repeat' first | with_reducible exact fun _ k => k | (extract_lets +onlyGivenNames x; revert x; with_reducible first | apply Within.letS A s₀ | apply Within.letQ A s₀ | apply Within.letP A s₀ | apply Within.letV) | intro _ | with_reducible assumption | with_reducible apply Within.ite | with_reducible apply State.setPair_within | with_reducible apply State.wr_within | with_reducible apply State.detect_within | with_reducible apply State.setRot_within | split | with_reducible apply_assumption

theorem execUnitReturn_within {A : List Area} (a0 : Area.regs ∈ A) (a1 : Area.ttbs ∈ A) (a2 : Area.insts ∈ A) (a3 : Area.ctxs ∈ A) (a4 : Area.rot ∈ A) (a5 : Area.flt ∈ A) (a6 : Area.agFlt ∈ A) (a7 : Area.rst ∈ A) (a8 : Area.pair ∈ A) {s₀ s : State} (partner : Option (Nat × Nat × Nat)) (h₀ : Within A s₀ s) :
    Out.within A s₀ (execUnitReturn partner s) := by
  unfold execUnitReturn
  show Within A s₀ _
  repeat' first | with_reducible exact fun _ k => k | with_reducible assumption | with_reducible apply Within.ite | with_reducible apply State.partnerBack_within | with_reducible apply State.partnerSeen_within | with_reducible apply State.toStandby_within | split

end Sys2Proof.Machine
end

