-- ==== Sys2Proof/Laws/PagesWithin.lean ====
section
/-! SUPPORT. The parts of the state that the definitions of Machine/Pages.lean reach. -/

set_option linter.unreachableTactic false
set_option linter.unusedTactic false

namespace Sys2Proof.Machine

theorem State.readFields_within {A : List Area} (a0 : Area.regs ∈ A) (a1 : Area.aregs ∈ A) {s₀ s : State} (d : Site) (fs : List (FDef × Fld)) (h₀ : Within A s₀ s) :
    Within A s₀ (State.readFields s d fs).2 := by
  unfold State.readFields
  repeat' first | intro _ | with_reducible assumption | with_reducible apply Within.foldl | with_reducible apply Within.foldlPair | with_reducible apply State.wrS_within | split

theorem State.writeFields_within {A : List Area} (a0 : Area.regs ∈ A) (a1 : Area.aregs ∈ A) {s₀ s : State} (d : Site) (fs : List (FDef × Fld)) (v : Nat) (h₀ : Within A s₀ s) :
    Within A s₀ (State.writeFields s d fs v) := by
  unfold State.writeFields
  repeat' first | intro _ | with_reducible assumption | with_reducible apply Within.foldl | with_reducible apply Within.foldlPair | with_reducible apply State.wrS_within | split

theorem State.pgLock_within {A : List Area} (a0 : Area.regs ∈ A) (a1 : Area.aregs ∈ A) {s₀ s : State} (d : Site) (pg v : Nat) (h₀ : Within A s₀ s) :
    Within A s₀ (State.pgLock s d pg v) := by
  unfold State.pgLock
  repeat' first | (extract_lets +onlyGivenNames x; revert x; with_reducible first | apply Within.letS A s₀ | apply Within.letQ A s₀ | apply Within.letP A s₀ | apply Within.letV) | intro _ | with_reducible assumption | with_reducible apply Within.ite | with_reducible apply State.wrS_within | split | with_reducible apply_assumption

theorem State.pgMask_within {A : List Area} (a0 : Area.regs ∈ A) (a1 : Area.aregs ∈ A) {s₀ s : State} (d : Site) (pg v : Nat) (h₀ : Within A s₀ s) :
    Within A s₀ (State.pgMask s d pg v) := by
  unfold State.pgMask
  repeat' first | (extract_lets +onlyGivenNames x; revert x; with_reducible first | apply Within.letS A s₀ | apply Within.letQ A s₀ | apply Within.letP A s₀ | apply Within.letV) | intro _ | with_reducible assumption | with_reducible apply Within.ite | with_reducible apply State.wrS_within | split | with_reducible apply_assumption

theorem State.pgJig_within {A : List Area} (a0 : Area.regs ∈ A) (a1 : Area.aregs ∈ A) (a2 : Area.flt ∈ A) (a3 : Area.agFlt ∈ A) {s₀ s : State} (d : Site) (pg v : Nat) (h₀ : Within A s₀ s) :
    Within A s₀ (State.pgJig s d pg v) := by
  unfold State.pgJig
  repeat' first | (extract_lets +onlyGivenNames x; revert x; with_reducible first | apply Within.letS A s₀ | apply Within.letQ A s₀ | apply Within.letP A s₀ | apply Within.letV) | intro _ | with_reducible assumption | with_reducible apply Within.ite | with_reducible apply State.writeFields_within | with_reducible apply State.jigGo_within | split | with_reducible apply_assumption

theorem State.writeHead_within {A : List Area} (a0 : Area.regs ∈ A) (a1 : Area.aregs ∈ A) (a2 : Area.flt ∈ A) (a3 : Area.agFlt ∈ A) {s₀ s : State} (d : Site) (w : Asker) (a v : Nat) (h₀ : Within A s₀ s) :
    Within A s₀ (State.writeHead s d w a v) := by
  unfold State.writeHead
  repeat' first | (extract_lets +onlyGivenNames x; revert x; with_reducible first | apply Within.letS A s₀ | apply Within.letQ A s₀ | apply Within.letP A s₀ | apply Within.letV) | intro _ | with_reducible assumption | with_reducible apply Within.ite | with_reducible apply State.clearFaults_within | with_reducible apply State.pgMask_within | with_reducible apply State.pgJig_within | with_reducible apply State.pgLock_within | split | with_reducible apply_assumption

theorem execPgLockWrite_within {A : List Area} (a0 : Area.regs ∈ A) (a1 : Area.aregs ∈ A) {s₀ s : State} (site : Site) (page : Nat) (value : Word) (h₀ : Within A s₀ s) :
    Out.within A s₀ (execPgLockWrite site page value s) := by
  unfold execPgLockWrite
  show Within A s₀ _
  repeat' first | with_reducible assumption | with_reducible apply Within.ite | with_reducible apply State.pgLock_within | split

end Sys2Proof.Machine
end

