-- ==== Sys2Proof/Laws/BusReadWithin.lean ====
section
/-! SUPPORT. The parts of the state that the definitions of Machine/BusRead.lean reach. -/

set_option linter.unreachableTactic false
set_option linter.unusedTactic false

namespace Sys2Proof.Machine

theorem State.refused_within {A : List Area} (a0 : Area.flt ∈ A) (a1 : Area.agFlt ∈ A) {s₀ s : State} (a st : Nat) (h₀ : Within A s₀ s) :
    Within A s₀ (State.refused s a st) := by
  unfold State.refused
  repeat' first | with_reducible assumption | with_reducible apply Within.ite | with_reducible apply State.detect_within | split

theorem State.peakRead_within {A : List Area} (a0 : Area.regs ∈ A) {s₀ s : State} (a : Nat) (h₀ : Within A s₀ s) :
    Within A s₀ (State.peakRead s a) := by
  unfold State.peakRead
  repeat' first | with_reducible assumption | with_reducible apply Within.ite | with_reducible apply State.wr_within | split

theorem State.readDz_within {A : List Area} (a0 : Area.regs ∈ A) (a1 : Area.aregs ∈ A) (a2 : Area.ttbs ∈ A) (a3 : Area.insts ∈ A) (a4 : Area.hbm ∈ A) (a5 : Area.flt ∈ A) (a6 : Area.agFlt ∈ A) (a7 : Area.rst ∈ A) {s₀ s : State} (w : Asker) (a : Nat) (h₀ : Within A s₀ s) :
    Within A s₀ (State.readDz s w a).2.2 := by
  unfold State.readDz
  repeat' first | with_reducible exact fun _ k => k | (extract_lets +onlyGivenNames x; revert x; with_reducible first | apply Within.letS A s₀ | apply Within.letQ A s₀ | apply Within.letP A s₀ | apply Within.letV) | intro _ | with_reducible assumption | with_reducible apply Within.ite | with_reducible apply State.pghWinRead_within | with_reducible apply State.vltWinRead_within | with_reducible apply State.readFields_within | with_reducible apply State.peakRead_within | split | with_reducible apply_assumption

theorem State.busRead_within {A : List Area} (a0 : Area.regs ∈ A) (a1 : Area.aregs ∈ A) (a2 : Area.ttbs ∈ A) (a3 : Area.insts ∈ A) (a4 : Area.hbm ∈ A) (a5 : Area.flt ∈ A) (a6 : Area.agFlt ∈ A) (a7 : Area.rst ∈ A) {s₀ s : State} (w : Asker) (a : Nat) (h₀ : Within A s₀ s) :
    Within A s₀ (State.busRead s w a).2.2 := by
  unfold State.busRead
  repeat' first | with_reducible exact fun _ k => k | (extract_lets +onlyGivenNames x; revert x; with_reducible first | apply Within.letS A s₀ | apply Within.letQ A s₀ | apply Within.letP A s₀ | apply Within.letV) | intro _ | with_reducible assumption | with_reducible apply Within.ite | with_reducible apply State.readDz_within | with_reducible apply State.refused_within | split | with_reducible apply_assumption

end Sys2Proof.Machine
end

