-- ==== Sys2Proof/Laws/BusWriteWithin.lean ====
section
/-! SUPPORT. The parts of the state that the definitions of Machine/BusWrite.lean reach. -/

set_option linter.unreachableTactic false
set_option linter.unusedTactic false

namespace Sys2Proof.Machine

theorem State.ifBit_within {A : List Area}  {s₀ s : State} (v i : Nat) (f : State → State) (hf : ∀ u, Within A s₀ u → Within A s₀ (f u)) (h₀ : Within A s₀ s) :
    Within A s₀ (State.ifBit s v i f) := by
  unfold State.ifBit
  repeat' first | intro _ | with_reducible assumption | with_reducible apply Within.ite | split | with_reducible apply_assumption

theorem State.plain_within {A : List Area} (a0 : Area.regs ∈ A) (a1 : Area.aregs ∈ A) {s₀ s : State} (a v : Nat) (h₀ : Within A s₀ s) :
    Within A s₀ (State.plain s a v) := by
  unfold State.plain
  repeat' first | with_reducible assumption | with_reducible apply State.writeFields_within

theorem State.tmkCtrl_within {A : List Area} (a0 : Area.regs ∈ A) (a1 : Area.time ∈ A) (a2 : Area.beyjo ∈ A) (a3 : Area.flt ∈ A) (a4 : Area.agFlt ∈ A) (a5 : Area.boot ∈ A) {s₀ s : State} (v : Nat) (h₀ : Within A s₀ s) :
    Within A s₀ (State.tmkCtrl s v) := by
  unfold State.tmkCtrl
  repeat' first | with_reducible exact fun _ k => k | (extract_lets +onlyGivenNames x; revert x; with_reducible first | apply Within.letS A s₀ | apply Within.letQ A s₀ | apply Within.letP A s₀ | apply Within.letV) | intro _ | with_reducible assumption | with_reducible apply Within.ite | with_reducible apply State.wr_within | with_reducible apply execTmkEnableWrite_within | with_reducible apply Out.after_within | with_reducible apply State.ifBit_within | with_reducible apply execTmkStep_within | split | with_reducible apply_assumption

theorem State.prtCtrl_within {A : List Area} (a0 : Area.regs ∈ A) (a1 : Area.aregs ∈ A) (a2 : Area.agTime ∈ A) (a3 : Area.ports ∈ A) (a4 : Area.agPorts ∈ A) (a5 : Area.route ∈ A) (a6 : Area.flt ∈ A) (a7 : Area.agFlt ∈ A) (a8 : Area.pair ∈ A) (a9 : Area.boot ∈ A) (a10 : Area.out ∈ A) {s₀ s : State} (d : Site) (p v : Nat) (h₀ : Within A s₀ s) :
    Within A s₀ (State.prtCtrl s d p v) := by
  unfold State.prtCtrl
  repeat' first | with_reducible exact fun _ k => k | (extract_lets +onlyGivenNames x; revert x; with_reducible first | apply Within.letS A s₀ | apply Within.letQ A s₀ | apply Within.letP A s₀ | apply Within.letV) | intro _ | with_reducible assumption | with_reducible apply State.wrS_within | with_reducible apply State.disablePort_within | with_reducible apply State.ifBit_within | with_reducible apply State.unparkPort_within | with_reducible apply State.retrainPort_within | with_reducible apply_assumption

theorem State.rteCtrl_within {A : List Area} (a0 : Area.regs ∈ A) (a1 : Area.aregs ∈ A) (a2 : Area.ports ∈ A) (a3 : Area.agPorts ∈ A) (a4 : Area.route ∈ A) (a5 : Area.ttbs ∈ A) (a6 : Area.beyjo ∈ A) (a7 : Area.flt ∈ A) (a8 : Area.agFlt ∈ A) (a9 : Area.pair ∈ A) (a10 : Area.out ∈ A) {s₀ s : State} (v : Nat) (h₀ : Within A s₀ s) :
    Within A s₀ (State.rteCtrl s v) := by
  unfold State.rteCtrl
  repeat' first | with_reducible exact fun _ k => k | (extract_lets +onlyGivenNames x; revert x; with_reducible first | apply Within.letS A s₀ | apply Within.letQ A s₀ | apply Within.letP A s₀ | apply Within.letV) | intro _ | with_reducible assumption | with_reducible apply Within.ite | with_reducible apply State.wr_within | with_reducible apply State.ifBit_within | with_reducible apply execRteCheck_within | with_reducible apply Out.after_within | with_reducible apply State.rteStart_within | with_reducible apply State.rteAbort_within | split | with_reducible apply_assumption

theorem State.twinData_within {A : List Area} (a0 : Area.route ∈ A) {s₀ s : State} (v : Nat) (h₀ : Within A s₀ s) :
    Within A s₀ (State.twinData s v) := by
  unfold State.twinData
  repeat' first | (extract_lets +onlyGivenNames x; revert x; with_reducible first | apply Within.letS A s₀ | apply Within.letQ A s₀ | apply Within.letP A s₀ | apply Within.letV) | intro _ | with_reducible assumption | with_reducible apply Within.ite | with_reducible apply State.setRoute_within | split | with_reducible apply_assumption

theorem State.ttbCtrl_within {A : List Area} (a0 : Area.regs ∈ A) (a1 : Area.aregs ∈ A) (a2 : Area.time ∈ A) (a3 : Area.ports ∈ A) (a4 : Area.agPorts ∈ A) (a5 : Area.route ∈ A) (a6 : Area.ttbs ∈ A) (a7 : Area.insts ∈ A) (a8 : Area.tile ∈ A) (a9 : Area.hbm ∈ A) (a10 : Area.beyjo ∈ A) (a11 : Area.flt ∈ A) (a12 : Area.agFlt ∈ A) (a13 : Area.out ∈ A) {s₀ s : State} (c v : Nat) (h₀ : Within A s₀ s) :
    Within A s₀ (State.ttbCtrl s c v) := by
  unfold State.ttbCtrl
  repeat' first | with_reducible exact fun _ k => k | (extract_lets +onlyGivenNames x; revert x; with_reducible first | apply Within.letS A s₀ | apply Within.letQ A s₀ | apply Within.letP A s₀ | apply Within.letV) | intro _ | with_reducible assumption | with_reducible apply State.ifBit_within | with_reducible apply execTtbUnload_within | with_reducible apply Out.after_within | with_reducible apply execTtbCheck_within | with_reducible apply execTtbArm_within | with_reducible apply execTtbDisarm_within | with_reducible apply execTtbStop_within | with_reducible apply execTtbVoid_within | with_reducible apply_assumption

theorem State.ttbImage_within {A : List Area} (a0 : Area.regs ∈ A) (a1 : Area.ttbs ∈ A) {s₀ s : State} (w : Asker) (c v : Nat) (h₀ : Within A s₀ s) :
    Within A s₀ (State.ttbImage s w c v) := by
  unfold State.ttbImage
  repeat' first | (extract_lets +onlyGivenNames x; revert x; with_reducible first | apply Within.letS A s₀ | apply Within.letQ A s₀ | apply Within.letP A s₀ | apply Within.letV) | intro _ | with_reducible assumption | with_reducible apply Within.ite | with_reducible apply State.wr_within | with_reducible apply State.ttbTo_within | with_reducible apply State.setTtb_within | split | with_reducible apply_assumption

theorem State.cdcWrite_within {A : List Area} (a0 : Area.regs ∈ A) (a1 : Area.aregs ∈ A) {s₀ s : State} (die a v : Nat) (h₀ : Within A s₀ s) :
    Within A s₀ (State.cdcWrite s die a v) := by
  unfold State.cdcWrite
  repeat' first | (extract_lets +onlyGivenNames x; revert x; with_reducible first | apply Within.letS A s₀ | apply Within.letQ A s₀ | apply Within.letP A s₀ | apply Within.letV) | intro _ | with_reducible assumption | with_reducible apply Within.ite | with_reducible apply State.ifBit_within | with_reducible apply execCdcTestGo_within | with_reducible apply Out.after_within | with_reducible apply execCdcGenGo_within | with_reducible apply State.plain_within | split | with_reducible apply_assumption

theorem State.pghCtrl_within {A : List Area} (a0 : Area.regs ∈ A) {s₀ s : State} (die v : Nat) (h₀ : Within A s₀ s) :
    Within A s₀ (State.pghCtrl s die v) := by
  unfold State.pghCtrl
  repeat' first | intro _ | with_reducible assumption | with_reducible apply Within.ite | with_reducible apply State.pghWake_within | with_reducible apply State.ifBit_within | with_reducible apply State.pghRetain_within | split

theorem State.vltFill_within {A : List Area} (a0 : Area.regs ∈ A) {s₀ s : State} (c v : Nat) (h₀ : Within A s₀ s) :
    Within A s₀ (State.vltFill s c v) := by
  unfold State.vltFill
  repeat' first | (extract_lets +onlyGivenNames x; revert x; with_reducible first | apply Within.letS A s₀ | apply Within.letQ A s₀ | apply Within.letP A s₀ | apply Within.letV) | intro _ | with_reducible assumption | with_reducible apply Within.ite | with_reducible apply State.wr_within | with_reducible apply State.ifBit_within | with_reducible apply State.fillGo_within | split | with_reducible apply_assumption

theorem State.vltWrite_within {A : List Area} (a0 : Area.regs ∈ A) (a1 : Area.aregs ∈ A) (a2 : Area.ttbs ∈ A) (a3 : Area.hbm ∈ A) (a4 : Area.ctxs ∈ A) {s₀ s : State} (c a v : Nat) (h₀ : Within A s₀ s) :
    Within A s₀ (State.vltWrite s c a v) := by
  unfold State.vltWrite
  repeat' first | with_reducible exact fun _ k => k | (extract_lets +onlyGivenNames x; revert x; with_reducible first | apply Within.letS A s₀ | apply Within.letQ A s₀ | apply Within.letP A s₀ | apply Within.letV) | intro _ | with_reducible assumption | with_reducible apply Within.ite | with_reducible apply State.regionReg_within | with_reducible apply State.optLayout_within | with_reducible apply State.vltFill_within | with_reducible apply State.plain_within | with_reducible apply State.optSet_within | split | with_reducible apply_assumption

theorem State.ctxCtrl_within {A : List Area} (a0 : Area.regs ∈ A) (a1 : Area.aregs ∈ A) (a2 : Area.ports ∈ A) (a3 : Area.agPorts ∈ A) (a4 : Area.route ∈ A) (a5 : Area.ttbs ∈ A) (a6 : Area.tile ∈ A) (a7 : Area.ctxs ∈ A) (a8 : Area.rot ∈ A) (a9 : Area.beyjo ∈ A) (a10 : Area.flt ∈ A) (a11 : Area.agFlt ∈ A) (a12 : Area.rst ∈ A) (a13 : Area.pair ∈ A) (a14 : Area.out ∈ A) (a15 : Area.freeCtr ∈ A) {s₀ s : State} (w : Asker) (c v : Nat) (h₀ : Within A s₀ s) :
    Within A s₀ (State.ctxCtrl s w c v) := by
  unfold State.ctxCtrl
  repeat' first | with_reducible exact fun _ k => k | (extract_lets +onlyGivenNames x; revert x; with_reducible first | apply Within.letS A s₀ | apply Within.letQ A s₀ | apply Within.letP A s₀ | apply Within.letV) | intro _ | with_reducible assumption | with_reducible apply Within.ite | with_reducible apply State.ifBit_within | with_reducible apply State.ctxBind_within | with_reducible apply State.wr_within | with_reducible apply State.ctxRelease_within | with_reducible apply State.ctxAssign_within | split | with_reducible apply_assumption

theorem State.ctxWrite_within {A : List Area} (a0 : Area.regs ∈ A) (a1 : Area.aregs ∈ A) (a2 : Area.ports ∈ A) (a3 : Area.agPorts ∈ A) (a4 : Area.route ∈ A) (a5 : Area.ttbs ∈ A) (a6 : Area.tile ∈ A) (a7 : Area.ctxs ∈ A) (a8 : Area.rot ∈ A) (a9 : Area.beyjo ∈ A) (a10 : Area.flt ∈ A) (a11 : Area.agFlt ∈ A) (a12 : Area.rst ∈ A) (a13 : Area.pair ∈ A) (a14 : Area.out ∈ A) (a15 : Area.freeCtr ∈ A) {s₀ s : State} (w : Asker) (c a v : Nat) (h₀ : Within A s₀ s) :
    Within A s₀ (State.ctxWrite s w c a v) := by
  unfold State.ctxWrite
  repeat' first | with_reducible exact fun _ k => k | with_reducible assumption | with_reducible apply Within.ite | with_reducible apply State.ctxCtrl_within | with_reducible apply State.plain_within | with_reducible apply State.ctxMap_within | with_reducible apply State.ctxSeed_within | split

theorem State.lcsWrite_within {A : List Area} (a0 : Area.regs ∈ A) (a1 : Area.aregs ∈ A) (a2 : Area.tile ∈ A) (a3 : Area.hbm ∈ A) (a4 : Area.rot ∈ A) (a5 : Area.beyjo ∈ A) (a6 : Area.flt ∈ A) (a7 : Area.agFlt ∈ A) (a8 : Area.rst ∈ A) (a9 : Area.pair ∈ A) {s₀ s : State} (a v : Nat) (h₀ : Within A s₀ s) :
    Within A s₀ (State.lcsWrite s a v) := by
  unfold State.lcsWrite
  repeat' first | with_reducible exact fun _ k => k | intro _ | with_reducible assumption | with_reducible apply Within.ite | with_reducible apply State.lcsSeal_within | with_reducible apply State.ifBit_within | with_reducible apply State.lcsReturn_within | with_reducible apply State.plain_within | split

theorem State.threshWrite_within {A : List Area} (a0 : Area.flt ∈ A) (a1 : Area.agFlt ∈ A) {s₀ s : State} (d : Site) (f : Src → Src) (h₀ : Within A s₀ s) :
    Within A s₀ (State.threshWrite s d f) := by
  unfold State.threshWrite
  repeat' first | intro _ | with_reducible assumption | with_reducible apply Within.ite | with_reducible apply State.setFlt_within | split

theorem State.fltWrite_within {A : List Area} (a0 : Area.regs ∈ A) (a1 : Area.aregs ∈ A) (a2 : Area.time ∈ A) (a3 : Area.agTime ∈ A) (a4 : Area.ports ∈ A) (a5 : Area.agPorts ∈ A) (a6 : Area.replays ∈ A) (a7 : Area.route ∈ A) (a8 : Area.ttbs ∈ A) (a9 : Area.agents ∈ A) (a10 : Area.insts ∈ A) (a11 : Area.tile ∈ A) (a12 : Area.hbm ∈ A) (a13 : Area.ctxs ∈ A) (a14 : Area.rot ∈ A) (a15 : Area.beyjo ∈ A) (a16 : Area.flt ∈ A) (a17 : Area.agFlt ∈ A) (a18 : Area.rst ∈ A) (a19 : Area.pair ∈ A) (a20 : Area.boot ∈ A) (a21 : Area.pwr ∈ A) (a22 : Area.out ∈ A) (a23 : Area.freeCtr ∈ A) {s₀ s : State} (d : Site) (fs : List (FDef × Fld)) (off v : Nat) (h₀ : Within A s₀ s) :
    Within A s₀ (State.fltWrite s d fs off v) := by
  unfold State.fltWrite
  repeat' first | with_reducible exact fun _ k => k | (extract_lets +onlyGivenNames x; revert x; with_reducible first | apply Within.letS A s₀ | apply Within.letQ A s₀ | apply Within.letP A s₀ | apply Within.letV) | intro _ | with_reducible assumption | with_reducible apply Within.ite | with_reducible apply State.wrS_within | with_reducible apply State.ifBit_within | with_reducible apply State.clearLog_within | with_reducible apply State.clearFirst_within | with_reducible apply State.writeFields_within | with_reducible apply State.decide1_within | with_reducible apply State.threshWrite_within | split | with_reducible apply_assumption

theorem State.rstCtrl_within {A : List Area} (a0 : Area.regs ∈ A) (a1 : Area.aregs ∈ A) (a2 : Area.time ∈ A) (a3 : Area.agTime ∈ A) (a4 : Area.ports ∈ A) (a5 : Area.agPorts ∈ A) (a6 : Area.replays ∈ A) (a7 : Area.route ∈ A) (a8 : Area.ttbs ∈ A) (a9 : Area.agents ∈ A) (a10 : Area.insts ∈ A) (a11 : Area.tile ∈ A) (a12 : Area.hbm ∈ A) (a13 : Area.ctxs ∈ A) (a14 : Area.rot ∈ A) (a15 : Area.beyjo ∈ A) (a16 : Area.flt ∈ A) (a17 : Area.agFlt ∈ A) (a18 : Area.rst ∈ A) (a19 : Area.pair ∈ A) (a20 : Area.boot ∈ A) (a21 : Area.pwr ∈ A) (a22 : Area.out ∈ A) (a23 : Area.freeCtr ∈ A) {s₀ s : State} (v : Nat) (h₀ : Within A s₀ s) :
    Within A s₀ (State.rstCtrl s v) := by
  unfold State.rstCtrl
  repeat' first | with_reducible exact fun _ k => k | (extract_lets +onlyGivenNames x; revert x; with_reducible first | apply Within.letS A s₀ | apply Within.letQ A s₀ | apply Within.letP A s₀ | apply Within.letV) | intro _ | with_reducible assumption | with_reducible apply State.wr_within | with_reducible apply State.ifBit_within | with_reducible apply State.requestReset_within | with_reducible apply_assumption

theorem State.slotWrite_within {A : List Area} (a0 : Area.tile ∈ A) {s₀ s : State} (i n w v : Nat) (h₀ : Within A s₀ s) :
    Within A s₀ (State.slotWrite s i n w v).2 := by
  unfold State.slotWrite
  repeat' first | with_reducible exact fun _ k => k | with_reducible assumption | with_reducible apply Within.ite | with_reducible apply State.slotPut_within | split

theorem State.windowWrite_within {A : List Area} (a0 : Area.regs ∈ A) (a1 : Area.ttbs ∈ A) (a2 : Area.insts ∈ A) (a3 : Area.tile ∈ A) (a4 : Area.hbm ∈ A) (a5 : Area.flt ∈ A) (a6 : Area.agFlt ∈ A) (a7 : Area.rst ∈ A) (a8 : Area.pair ∈ A) {s₀ s : State} (w : Asker) (a v : Nat) (h₀ : Within A s₀ s) :
    Within A s₀ (State.windowWrite s w a v).2 := by
  unfold State.windowWrite
  repeat' first | with_reducible exact fun _ k => k | (extract_lets +onlyGivenNames x; revert x; with_reducible first | apply Within.letS A s₀ | apply Within.letQ A s₀ | apply Within.letP A s₀ | apply Within.letV) | intro _ | with_reducible assumption | with_reducible apply Within.ite | with_reducible apply State.pghWinRead_within | with_reducible apply State.pghWinWrite_within | with_reducible apply State.vltWinWrite_within | split | with_reducible apply_assumption

theorem State.effect_within {A : List Area} (a0 : Area.regs ∈ A) (a1 : Area.aregs ∈ A) (a2 : Area.time ∈ A) (a3 : Area.agTime ∈ A) (a4 : Area.ports ∈ A) (a5 : Area.agPorts ∈ A) (a6 : Area.replays ∈ A) (a7 : Area.route ∈ A) (a8 : Area.ttbs ∈ A) (a9 : Area.agents ∈ A) (a10 : Area.insts ∈ A) (a11 : Area.tile ∈ A) (a12 : Area.hbm ∈ A) (a13 : Area.ctxs ∈ A) (a14 : Area.rot ∈ A) (a15 : Area.beyjo ∈ A) (a16 : Area.flt ∈ A) (a17 : Area.agFlt ∈ A) (a18 : Area.rst ∈ A) (a19 : Area.pair ∈ A) (a20 : Area.boot ∈ A) (a21 : Area.pwr ∈ A) (a22 : Area.out ∈ A) (a23 : Area.freeCtr ∈ A) {s₀ s : State} (w : Asker) (a v : Nat) (h₀ : Within A s₀ s) :
    Within A s₀ (State.effect s w a v) := by
  unfold State.effect
  repeat' first | with_reducible exact fun _ k => mwrite_wf k _ _ | with_reducible exact fun _ k => k | (extract_lets +onlyGivenNames x; revert x; with_reducible first | apply Within.letS A s₀ | apply Within.letQ A s₀ | apply Within.letP A s₀ | apply Within.letV) | intro _ | with_reducible assumption | with_reducible apply Within.ite | with_reducible apply State.plain_within | with_reducible apply State.setBoot_within | with_reducible apply State.tmkCtrl_within | with_reducible apply execTmkPeriodNextWrite_within | with_reducible apply Out.after_within | with_reducible apply State.prtCtrl_within | with_reducible apply State.capUpdate_within | with_reducible apply State.rteCtrl_within | with_reducible apply State.twinData_within | with_reducible apply State.ttbCtrl_within | with_reducible apply State.ttbImage_within | with_reducible apply State.ifBit_within | with_reducible apply execCmapClear_within | with_reducible apply State.cdcWrite_within | with_reducible apply State.pghCtrl_within | with_reducible apply State.allocReg_within | with_reducible apply State.vltWrite_within | with_reducible apply State.regionReg_within | with_reducible apply State.ctxWrite_within | with_reducible apply State.lcsWrite_within | with_reducible apply State.closeSess_within | with_reducible apply State.fltWrite_within | with_reducible apply State.clearDll_within | with_reducible apply State.jigArm_within | with_reducible apply State.rstCtrl_within | with_reducible apply State.parFull_within | with_reducible apply State.parSync_within | with_reducible apply State.pwrBudget_within | split | with_reducible apply_assumption

theorem State.writeDz_within {A : List Area} (a0 : Area.regs ∈ A) (a1 : Area.aregs ∈ A) (a2 : Area.time ∈ A) (a3 : Area.agTime ∈ A) (a4 : Area.ports ∈ A) (a5 : Area.agPorts ∈ A) (a6 : Area.replays ∈ A) (a7 : Area.route ∈ A) (a8 : Area.ttbs ∈ A) (a9 : Area.agents ∈ A) (a10 : Area.insts ∈ A) (a11 : Area.tile ∈ A) (a12 : Area.hbm ∈ A) (a13 : Area.ctxs ∈ A) (a14 : Area.rot ∈ A) (a15 : Area.beyjo ∈ A) (a16 : Area.flt ∈ A) (a17 : Area.agFlt ∈ A) (a18 : Area.rst ∈ A) (a19 : Area.pair ∈ A) (a20 : Area.boot ∈ A) (a21 : Area.pwr ∈ A) (a22 : Area.out ∈ A) (a23 : Area.freeCtr ∈ A) {s₀ s : State} (w : Asker) (a v : Nat) (h₀ : Within A s₀ s) :
    Within A s₀ (State.writeDz s w a v).2 := by
  unfold State.writeDz
  repeat' first | with_reducible exact fun _ k => k | (extract_lets +onlyGivenNames x; revert x; with_reducible first | apply Within.letS A s₀ | apply Within.letQ A s₀ | apply Within.letP A s₀ | apply Within.letV) | intro _ | with_reducible assumption | with_reducible apply Within.ite | with_reducible apply State.writeHead_within | with_reducible apply State.slotWrite_within | with_reducible apply State.windowWrite_within | with_reducible apply State.effect_within | split | with_reducible apply_assumption

theorem State.busWrite_within {A : List Area} (a0 : Area.regs ∈ A) (a1 : Area.aregs ∈ A) (a2 : Area.time ∈ A) (a3 : Area.agTime ∈ A) (a4 : Area.ports ∈ A) (a5 : Area.agPorts ∈ A) (a6 : Area.replays ∈ A) (a7 : Area.route ∈ A) (a8 : Area.ttbs ∈ A) (a9 : Area.agents ∈ A) (a10 : Area.insts ∈ A) (a11 : Area.tile ∈ A) (a12 : Area.hbm ∈ A) (a13 : Area.ctxs ∈ A) (a14 : Area.rot ∈ A) (a15 : Area.beyjo ∈ A) (a16 : Area.flt ∈ A) (a17 : Area.agFlt ∈ A) (a18 : Area.rst ∈ A) (a19 : Area.pair ∈ A) (a20 : Area.boot ∈ A) (a21 : Area.pwr ∈ A) (a22 : Area.out ∈ A) (a23 : Area.freeCtr ∈ A) {s₀ s : State} (w : Asker) (a v : Nat) (h₀ : Within A s₀ s) :
    Within A s₀ (State.busWrite s w a v).2 := by
  unfold State.busWrite
  repeat' first | with_reducible exact fun _ k => k | (extract_lets +onlyGivenNames x; revert x; with_reducible first | apply Within.letS A s₀ | apply Within.letQ A s₀ | apply Within.letP A s₀ | apply Within.letV) | intro _ | with_reducible assumption | with_reducible apply Within.ite | with_reducible apply State.writeDz_within | with_reducible apply State.refused_within | split | with_reducible apply_assumption

theorem execRegisterWrite_within {A : List Area} (a0 : Area.regs ∈ A) (a1 : Area.aregs ∈ A) (a2 : Area.time ∈ A) (a3 : Area.agTime ∈ A) (a4 : Area.ports ∈ A) (a5 : Area.agPorts ∈ A) (a6 : Area.replays ∈ A) (a7 : Area.route ∈ A) (a8 : Area.ttbs ∈ A) (a9 : Area.agents ∈ A) (a10 : Area.insts ∈ A) (a11 : Area.tile ∈ A) (a12 : Area.hbm ∈ A) (a13 : Area.ctxs ∈ A) (a14 : Area.rot ∈ A) (a15 : Area.beyjo ∈ A) (a16 : Area.flt ∈ A) (a17 : Area.agFlt ∈ A) (a18 : Area.rst ∈ A) (a19 : Area.pair ∈ A) (a20 : Area.boot ∈ A) (a21 : Area.pwr ∈ A) (a22 : Area.out ∈ A) (a23 : Area.freeCtr ∈ A) {s₀ s : State} (addr : Nat) (value : Word) (h₀ : Within A s₀ s) :
    Out.within A s₀ (execRegisterWrite addr value s) := by
  unfold execRegisterWrite
  show Within A s₀ _
  repeat' first | with_reducible exact fun _ k => k | with_reducible assumption | with_reducible apply State.busWrite_within

theorem execGenModeWrite_within {A : List Area} (a0 : Area.regs ∈ A) {s₀ s : State} (value : Word) (h₀ : Within A s₀ s) :
    Out.within A s₀ (execGenModeWrite value s) := by
  unfold execGenModeWrite
  show Within A s₀ _
  repeat' first | with_reducible assumption | with_reducible apply State.wr_within

theorem execMslSlotWrite_within {A : List Area} (a0 : Area.tile ∈ A) {s₀ s : State} (index slot w : Nat) (value : Word) (h₀ : Within A s₀ s) :
    Out.within A s₀ (execMslSlotWrite index slot w value s) := by
  unfold execMslSlotWrite
  show Within A s₀ _
  repeat' first | with_reducible exact fun _ k => k | with_reducible assumption | with_reducible apply Within.ite | with_reducible apply State.slotWrite_within | split

theorem execByjCloseWrite_within {A : List Area} (a0 : Area.regs ∈ A) (a1 : Area.tile ∈ A) (a2 : Area.beyjo ∈ A) (a3 : Area.rst ∈ A) (a4 : Area.pair ∈ A) {s₀ s : State} (index : Nat) (h₀ : Within A s₀ s) :
    Out.within A s₀ (execByjCloseWrite index s) := by
  unfold execByjCloseWrite
  show Within A s₀ _
  repeat' first | with_reducible exact fun _ k => k | with_reducible assumption | with_reducible apply State.closeSess_within

end Sys2Proof.Machine
end

