-- ==== Sys2Proof/Laws/AgBusWithin.lean ====
section
/-! SUPPORT. The parts of the state that the definitions of Machine/AgBus.lean reach. -/

set_option linter.unreachableTactic false
set_option linter.unusedTactic false

namespace Sys2Proof.Machine

theorem State.agRead_within {A : List Area} (a0 : Area.regs ∈ A) (a1 : Area.aregs ∈ A) (a2 : Area.ag ∈ A) {s₀ s : State} (a : Nat) (h₀ : Within A s₀ s) :
    Within A s₀ (State.agRead s a).2 := by
  unfold State.agRead
  repeat' first | with_reducible exact fun _ k => k | (extract_lets +onlyGivenNames x; revert x; with_reducible first | apply Within.letS A s₀ | apply Within.letQ A s₀ | apply Within.letP A s₀ | apply Within.letV) | intro _ | with_reducible assumption | with_reducible apply Within.ite | with_reducible apply State.agEvtRead_within | with_reducible apply State.readFields_within | split | with_reducible apply_assumption

theorem State.agPlain_within {A : List Area} (a0 : Area.regs ∈ A) (a1 : Area.aregs ∈ A) {s₀ s : State} (a v : Nat) (loc : Bool) (h₀ : Within A s₀ s) :
    Within A s₀ (State.agPlain s a v loc) := by
  unfold State.agPlain
  repeat' first | intro _ | with_reducible assumption | with_reducible apply State.writeFields_within

theorem State.agLoadWrite_within {A : List Area} (a0 : Area.regs ∈ A) (a1 : Area.aregs ∈ A) (a2 : Area.ag ∈ A) {s₀ s : State} (a v : Nat) (h₀ : Within A s₀ s) :
    Within A s₀ (State.agLoadWrite s a v) := by
  unfold State.agLoadWrite
  repeat' first | with_reducible exact fun _ k => ⟨k.1, k.2.1, k.2.2.1, k.2.2.2.1, mwrite_wf k.2.2.2.2.1 _ _, k.2.2.2.2.2⟩ | with_reducible exact fun _ k => k | intro _ | with_reducible assumption | with_reducible apply Within.ite | with_reducible apply State.agPlain_within | with_reducible apply State.setAg_within | split

theorem State.agRteWrite_within {A : List Area} (a0 : Area.regs ∈ A) (a1 : Area.aregs ∈ A) (a2 : Area.agRoute ∈ A) {s₀ s : State} (a v : Nat) (h₀ : Within A s₀ s) :
    Within A s₀ (State.agRteWrite s a v) := by
  unfold State.agRteWrite
  repeat' first | intro _ | with_reducible assumption | with_reducible apply Within.ite | with_reducible apply State.awr_within | with_reducible apply State.setAgRoute_within | with_reducible apply State.agPlain_within | split

theorem State.agTtbWrite_within {A : List Area} (a0 : Area.regs ∈ A) (a1 : Area.aregs ∈ A) (a2 : Area.agTime ∈ A) (a3 : Area.flt ∈ A) (a4 : Area.agFlt ∈ A) (a5 : Area.ag ∈ A) {s₀ s : State} (a v : Nat) (h₀ : Within A s₀ s) :
    Within A s₀ (State.agTtbWrite s a v) := by
  unfold State.agTtbWrite
  repeat' first | with_reducible exact fun _ k => ⟨mwrite_wf k.1 _ _, k.2⟩ | with_reducible exact fun _ k => ⟨k.1, mwrite_wf k.2.1 _ _, k.2.2⟩ | with_reducible exact fun _ k => k | (extract_lets +onlyGivenNames x; revert x; with_reducible first | apply Within.letS A s₀ | apply Within.letQ A s₀ | apply Within.letP A s₀ | apply Within.letV) | intro _ | with_reducible assumption | with_reducible apply Within.ite | with_reducible apply State.ifBit_within | with_reducible apply State.agArm_within | with_reducible apply State.agDisarm_within | with_reducible apply State.agLoading_within | with_reducible apply State.agPlain_within | with_reducible apply State.setAg_within | with_reducible apply State.streamEnd_within | with_reducible apply execRchunkClear_within | with_reducible apply Out.after_within | split | with_reducible apply_assumption

theorem State.agRemote_within {A : List Area} (a0 : Area.regs ∈ A) (a1 : Area.aregs ∈ A) (a2 : Area.time ∈ A) (a3 : Area.agTime ∈ A) (a4 : Area.ports ∈ A) (a5 : Area.agPorts ∈ A) (a6 : Area.replays ∈ A) (a7 : Area.route ∈ A) (a8 : Area.agRoute ∈ A) (a9 : Area.ttbs ∈ A) (a10 : Area.agents ∈ A) (a11 : Area.insts ∈ A) (a12 : Area.tile ∈ A) (a13 : Area.hbm ∈ A) (a14 : Area.ctxs ∈ A) (a15 : Area.rot ∈ A) (a16 : Area.beyjo ∈ A) (a17 : Area.flt ∈ A) (a18 : Area.agFlt ∈ A) (a19 : Area.rst ∈ A) (a20 : Area.pair ∈ A) (a21 : Area.boot ∈ A) (a22 : Area.pwr ∈ A) (a23 : Area.ag ∈ A) (a24 : Area.out ∈ A) (a25 : Area.freeCtr ∈ A) {s₀ s : State} (src a v : Nat) (h₀ : Within A s₀ s) :
    Within A s₀ (State.agRemote s src a v) := by
  unfold State.agRemote
  repeat' first | with_reducible exact fun _ k => k | (extract_lets +onlyGivenNames x; revert x; with_reducible first | apply Within.letS A s₀ | apply Within.letQ A s₀ | apply Within.letP A s₀ | apply Within.letV) | intro _ | with_reducible assumption | with_reducible apply Within.ite | with_reducible apply State.writeHead_within | with_reducible apply State.agLoadWrite_within | with_reducible apply State.prtCtrl_within | with_reducible apply State.awr_within | with_reducible apply State.judgeWidth_within | with_reducible apply State.agPlain_within | with_reducible apply State.agRteWrite_within | with_reducible apply State.agTtbWrite_within | with_reducible apply State.ifBit_within | with_reducible apply State.agEvReq_within | with_reducible apply State.fltWrite_within | with_reducible apply State.clearDll_within | with_reducible apply State.jigArm_within | with_reducible apply State.hcReset_within | split | with_reducible apply_assumption

theorem State.agLocal_within {A : List Area} (a0 : Area.regs ∈ A) (a1 : Area.aregs ∈ A) (a2 : Area.agTime ∈ A) (a3 : Area.flt ∈ A) (a4 : Area.agFlt ∈ A) (a5 : Area.ag ∈ A) (a6 : Area.out ∈ A) {s₀ s : State} (a v : Nat) (h₀ : Within A s₀ s) :
    Within A s₀ (State.agLocal s a v).2 := by
  unfold State.agLocal
  repeat' first | with_reducible exact fun _ k => ⟨k.1, k.2.1, mwrite_wf k.2.2.1 _ _, k.2.2.2⟩ | with_reducible exact fun _ k => k | (extract_lets +onlyGivenNames x; revert x; with_reducible first | apply Within.letS A s₀ | apply Within.letQ A s₀ | apply Within.letP A s₀ | apply Within.letV) | intro _ | with_reducible assumption | with_reducible apply Within.ite | with_reducible apply State.agLoadWrite_within | with_reducible apply State.setAg_within | with_reducible apply State.agPlain_within | with_reducible apply State.ifBit_within | with_reducible apply State.awr_within | with_reducible apply State.jobGo_within | with_reducible apply State.measStart_within | with_reducible apply State.measDone_within | with_reducible apply State.measIn_within | with_reducible apply State.hcReset_within | split | with_reducible apply_assumption

theorem State.targetWrite_within {A : List Area} (a0 : Area.regs ∈ A) (a1 : Area.aregs ∈ A) (a2 : Area.agTime ∈ A) (a3 : Area.ports ∈ A) (a4 : Area.agPorts ∈ A) (a5 : Area.flt ∈ A) (a6 : Area.agFlt ∈ A) (a7 : Area.ag ∈ A) (a8 : Area.out ∈ A) {s₀ s : State} (a v : Nat) (h₀ : Within A s₀ s) :
    Within A s₀ (State.targetWrite s a v) := by
  unfold State.targetWrite
  repeat' first | with_reducible exact fun _ k => k | (extract_lets +onlyGivenNames x; revert x; with_reducible first | apply Within.letS A s₀ | apply Within.letQ A s₀ | apply Within.letP A s₀ | apply Within.letV) | intro _ | with_reducible assumption | with_reducible apply Within.ite | with_reducible apply State.busErr_within | with_reducible apply State.setAgFid_within | with_reducible apply State.agLocal_within | split | with_reducible apply_assumption

theorem execAgentTargetWrite_within {A : List Area} (a0 : Area.regs ∈ A) (a1 : Area.aregs ∈ A) (a2 : Area.agTime ∈ A) (a3 : Area.ports ∈ A) (a4 : Area.agPorts ∈ A) (a5 : Area.flt ∈ A) (a6 : Area.agFlt ∈ A) (a7 : Area.ag ∈ A) (a8 : Area.out ∈ A) {s₀ s : State} (addr : Nat) (value : Word) (h₀ : Within A s₀ s) :
    Out.within A s₀ (execAgentTargetWrite addr value s) := by
  unfold execAgentTargetWrite
  show Within A s₀ _
  repeat' first | with_reducible exact fun _ k => k | with_reducible assumption | with_reducible apply State.targetWrite_within

theorem State.agReads_within {A : List Area} (a0 : Area.regs ∈ A) (a1 : Area.aregs ∈ A) (a2 : Area.ag ∈ A) {s₀ s : State}  (n : Nat) (a : Nat) (h₀ : Within A s₀ s) :
    Within A s₀ (State.agReads s n a).2.2 := by
  induction n generalizing s a with
  | zero =>
    rw [State.agReads]
    repeat' first | (extract_lets +onlyGivenNames x; revert x; with_reducible first | apply Within.letS A s₀ | apply Within.letQ A s₀ | apply Within.letP A s₀ | apply Within.letV) | intro _ | with_reducible assumption | with_reducible apply Within.ite | with_reducible apply State.agRead_within | split
  | succ i ih =>
    rw [State.agReads]
    repeat' first | (extract_lets +onlyGivenNames x; revert x; with_reducible first | apply Within.letS A s₀ | apply Within.letQ A s₀ | apply Within.letP A s₀ | apply Within.letV) | intro _ | with_reducible assumption | with_reducible apply ih | with_reducible apply Within.ite | with_reducible apply State.agRead_within | split

theorem State.agWrites_within {A : List Area} (a0 : Area.regs ∈ A) (a1 : Area.aregs ∈ A) (a2 : Area.time ∈ A) (a3 : Area.agTime ∈ A) (a4 : Area.ports ∈ A) (a5 : Area.agPorts ∈ A) (a6 : Area.replays ∈ A) (a7 : Area.route ∈ A) (a8 : Area.agRoute ∈ A) (a9 : Area.ttbs ∈ A) (a10 : Area.agents ∈ A) (a11 : Area.insts ∈ A) (a12 : Area.tile ∈ A) (a13 : Area.hbm ∈ A) (a14 : Area.ctxs ∈ A) (a15 : Area.rot ∈ A) (a16 : Area.beyjo ∈ A) (a17 : Area.flt ∈ A) (a18 : Area.agFlt ∈ A) (a19 : Area.rst ∈ A) (a20 : Area.pair ∈ A) (a21 : Area.boot ∈ A) (a22 : Area.pwr ∈ A) (a23 : Area.ag ∈ A) (a24 : Area.out ∈ A) (a25 : Area.freeCtr ∈ A) {s₀ s : State} (src : Nat) (l : List Nat) (a : Nat) (h₀ : Within A s₀ s) :
    Within A s₀ (State.agWrites s src l a).2 := by
  induction l generalizing s a with
  | nil =>
    rw [State.agWrites]
    repeat' first | (extract_lets +onlyGivenNames x; revert x; with_reducible first | apply Within.letS A s₀ | apply Within.letQ A s₀ | apply Within.letP A s₀ | apply Within.letV) | intro _ | with_reducible assumption | with_reducible apply Within.ite | with_reducible apply State.agRemote_within | split
  | cons x l ih =>
    rw [State.agWrites]
    repeat' first | (extract_lets +onlyGivenNames x; revert x; with_reducible first | apply Within.letS A s₀ | apply Within.letQ A s₀ | apply Within.letP A s₀ | apply Within.letV) | intro _ | with_reducible assumption | with_reducible apply ih | with_reducible apply Within.ite | with_reducible apply State.agRemote_within | split

theorem State.mreqRun_within {A : List Area} (a0 : Area.regs ∈ A) (a1 : Area.aregs ∈ A) (a2 : Area.time ∈ A) (a3 : Area.agTime ∈ A) (a4 : Area.ports ∈ A) (a5 : Area.agPorts ∈ A) (a6 : Area.replays ∈ A) (a7 : Area.route ∈ A) (a8 : Area.agRoute ∈ A) (a9 : Area.ttbs ∈ A) (a10 : Area.agents ∈ A) (a11 : Area.insts ∈ A) (a12 : Area.tile ∈ A) (a13 : Area.hbm ∈ A) (a14 : Area.ctxs ∈ A) (a15 : Area.rot ∈ A) (a16 : Area.beyjo ∈ A) (a17 : Area.flt ∈ A) (a18 : Area.agFlt ∈ A) (a19 : Area.rst ∈ A) (a20 : Area.pair ∈ A) (a21 : Area.boot ∈ A) (a22 : Area.pwr ∈ A) (a23 : Area.ag ∈ A) (a24 : Area.out ∈ A) (a25 : Area.freeCtr ∈ A) {s₀ s : State} (c : Cell) (h₀ : Within A s₀ s) :
    Within A s₀ (State.mreqRun s c).2 := by
  unfold State.mreqRun
  repeat' first | with_reducible exact fun _ k => k | (extract_lets +onlyGivenNames x; revert x; with_reducible first | apply Within.letS A s₀ | apply Within.letQ A s₀ | apply Within.letP A s₀ | apply Within.letF A s₀ | apply Within.letK A s₀ | apply Within.letG A s₀ | apply Within.letF1x A s₀ | apply Within.letH A s₀ | apply Within.letV) | intro _ | with_reducible assumption | with_reducible apply Within.ite | with_reducible apply State.agReads_within | with_reducible apply State.agWrites_within | split | with_reducible apply_assumption

theorem State.keepAnswer_within {A : List Area} (a0 : Area.ag ∈ A) {s₀ s : State} (src seq : Nat) (ws : List Word) (h₀ : Within A s₀ s) :
    Within A s₀ (State.keepAnswer s src seq ws) := by
  unfold State.keepAnswer
  repeat' first | with_reducible exact fun _ k => k | (extract_lets +onlyGivenNames x; revert x; with_reducible first | apply Within.letS A s₀ | apply Within.letQ A s₀ | apply Within.letP A s₀ | apply Within.letV) | intro _ | with_reducible assumption | with_reducible apply State.drop_within | with_reducible apply State.setAg_within | split | with_reducible apply_assumption

theorem State.mrsp_within {A : List Area} (a0 : Area.regs ∈ A) (a1 : Area.aregs ∈ A) (a2 : Area.ports ∈ A) (a3 : Area.agPorts ∈ A) (a4 : Area.flt ∈ A) (a5 : Area.agFlt ∈ A) (a6 : Area.out ∈ A) {s₀ s : State} (c : Cell) (payload : List Nat) (h₀ : Within A s₀ s) :
    Within A s₀ (State.mrsp s c payload) := by
  unfold State.mrsp
  repeat' first | with_reducible assumption | with_reducible apply State.send_within

theorem State.mreqServe_within {A : List Area} (a0 : Area.regs ∈ A) (a1 : Area.aregs ∈ A) (a2 : Area.time ∈ A) (a3 : Area.agTime ∈ A) (a4 : Area.ports ∈ A) (a5 : Area.agPorts ∈ A) (a6 : Area.replays ∈ A) (a7 : Area.route ∈ A) (a8 : Area.agRoute ∈ A) (a9 : Area.ttbs ∈ A) (a10 : Area.agents ∈ A) (a11 : Area.insts ∈ A) (a12 : Area.tile ∈ A) (a13 : Area.hbm ∈ A) (a14 : Area.ctxs ∈ A) (a15 : Area.rot ∈ A) (a16 : Area.beyjo ∈ A) (a17 : Area.flt ∈ A) (a18 : Area.agFlt ∈ A) (a19 : Area.rst ∈ A) (a20 : Area.pair ∈ A) (a21 : Area.boot ∈ A) (a22 : Area.pwr ∈ A) (a23 : Area.ag ∈ A) (a24 : Area.out ∈ A) (a25 : Area.freeCtr ∈ A) {s₀ s : State} (c : Cell) (h₀ : Within A s₀ s) :
    Within A s₀ (State.mreqServe s c) := by
  unfold State.mreqServe
  repeat' first | with_reducible exact fun _ k => k | (extract_lets +onlyGivenNames x; revert x; with_reducible first | apply Within.letS A s₀ | apply Within.letQ A s₀ | apply Within.letP A s₀ | apply Within.letV) | intro _ | with_reducible assumption | with_reducible apply Within.ite | with_reducible apply State.discard_within | with_reducible apply State.mrsp_within | with_reducible apply State.mreqRun_within | with_reducible apply State.keepAnswer_within | split | with_reducible apply_assumption

theorem execMreqRead_within {A : List Area} (a0 : Area.regs ∈ A) (a1 : Area.aregs ∈ A) (a2 : Area.time ∈ A) (a3 : Area.agTime ∈ A) (a4 : Area.ports ∈ A) (a5 : Area.agPorts ∈ A) (a6 : Area.replays ∈ A) (a7 : Area.route ∈ A) (a8 : Area.agRoute ∈ A) (a9 : Area.ttbs ∈ A) (a10 : Area.agents ∈ A) (a11 : Area.insts ∈ A) (a12 : Area.tile ∈ A) (a13 : Area.hbm ∈ A) (a14 : Area.ctxs ∈ A) (a15 : Area.rot ∈ A) (a16 : Area.beyjo ∈ A) (a17 : Area.flt ∈ A) (a18 : Area.agFlt ∈ A) (a19 : Area.rst ∈ A) (a20 : Area.pair ∈ A) (a21 : Area.boot ∈ A) (a22 : Area.pwr ∈ A) (a23 : Area.ag ∈ A) (a24 : Area.out ∈ A) (a25 : Area.freeCtr ∈ A) {s₀ s : State} (cell : Cell) (h₀ : Within A s₀ s) :
    Out.within A s₀ (execMreqRead cell s) := by
  unfold execMreqRead
  show Within A s₀ _
  repeat' first | with_reducible exact fun _ k => k | with_reducible assumption | with_reducible apply State.mreqServe_within

theorem execMreqWrite_within {A : List Area} (a0 : Area.regs ∈ A) (a1 : Area.aregs ∈ A) (a2 : Area.time ∈ A) (a3 : Area.agTime ∈ A) (a4 : Area.ports ∈ A) (a5 : Area.agPorts ∈ A) (a6 : Area.replays ∈ A) (a7 : Area.route ∈ A) (a8 : Area.agRoute ∈ A) (a9 : Area.ttbs ∈ A) (a10 : Area.agents ∈ A) (a11 : Area.insts ∈ A) (a12 : Area.tile ∈ A) (a13 : Area.hbm ∈ A) (a14 : Area.ctxs ∈ A) (a15 : Area.rot ∈ A) (a16 : Area.beyjo ∈ A) (a17 : Area.flt ∈ A) (a18 : Area.agFlt ∈ A) (a19 : Area.rst ∈ A) (a20 : Area.pair ∈ A) (a21 : Area.boot ∈ A) (a22 : Area.pwr ∈ A) (a23 : Area.ag ∈ A) (a24 : Area.out ∈ A) (a25 : Area.freeCtr ∈ A) {s₀ s : State} (cell : Cell) (h₀ : Within A s₀ s) :
    Out.within A s₀ (execMreqWrite cell s) := by
  unfold execMreqWrite
  show Within A s₀ _
  repeat' first | with_reducible exact fun _ k => k | with_reducible assumption | with_reducible apply State.mreqServe_within

end Sys2Proof.Machine
end

