-- ==== Sys2Proof/Laws/HostPortWithin.lean ====
section
/-! SUPPORT. The parts of the state that the definitions of Machine/HostPort.lean reach. -/

set_option linter.unreachableTactic false
set_option linter.unusedTactic false

namespace Sys2Proof.Machine

theorem execEthFrame_within {A : List Area} (a0 : Area.regs ∈ A) (a1 : Area.out ∈ A) {s₀ s : State} (f : EthFrame) (h₀ : Within A s₀ s) :
    Out.within A s₀ (execEthFrame f s) := by
  unfold execEthFrame
  show Within A s₀ _
  repeat' first | (extract_lets +onlyGivenNames x; revert x; with_reducible first | apply Within.letS A s₀ | apply Within.letQ A s₀ | apply Within.letP A s₀ | apply Within.letV) | intro _ | with_reducible assumption | with_reducible apply Within.ite | with_reducible apply State.bump_within | with_reducible apply State.frame_within | split | with_reducible apply_assumption

theorem execMkaFrame_within {A : List Area} (a0 : Area.regs ∈ A) (a1 : Area.beyjo ∈ A) {s₀ s : State} (icvOk : Bool) (sak : Option Nat) (h₀ : Within A s₀ s) :
    Out.within A s₀ (execMkaFrame icvOk sak s) := by
  unfold execMkaFrame
  show Within A s₀ _
  repeat' first | intro _ | with_reducible assumption | with_reducible apply Within.ite | with_reducible apply State.wr_within | with_reducible apply State.setBeyjo_within | split

theorem execHostLinkLoss_within {A : List Area} (a0 : Area.regs ∈ A) (a1 : Area.flt ∈ A) (a2 : Area.agFlt ∈ A) {s₀ s : State}  (h₀ : Within A s₀ s) :
    Out.within A s₀ (execHostLinkLoss s) := by
  unfold execHostLinkLoss
  show Within A s₀ _
  repeat' first | with_reducible assumption | with_reducible apply State.wr_within | with_reducible apply State.detect_within

theorem execHostLinkUp_within {A : List Area} (a0 : Area.regs ∈ A) {s₀ s : State}  (h₀ : Within A s₀ s) :
    Out.within A s₀ (execHostLinkUp s) := by
  unfold execHostLinkUp
  show Within A s₀ _
  repeat' first | with_reducible assumption | with_reducible apply Within.ite | with_reducible apply State.wr_within | split

theorem execBeyjoSpdm_within {A : List Area} (a0 : Area.beyjo ∈ A) {s₀ s : State} (src port : Nat) (h₀ : Within A s₀ s) :
    Out.within A s₀ (execBeyjoSpdm src port s) := by
  unfold execBeyjoSpdm
  show Within A s₀ _
  repeat' first | intro _ | with_reducible assumption | with_reducible apply State.setBeyjo_within

theorem State.refuseOpen_within {A : List Area} (a0 : Area.regs ∈ A) (a1 : Area.out ∈ A) {s₀ s : State} (session reason : Nat) (h₀ : Within A s₀ s) :
    Within A s₀ (State.refuseOpen s session reason) := by
  unfold State.refuseOpen
  repeat' first | with_reducible assumption | with_reducible apply State.bump_within | with_reducible apply State.frame_within

theorem execBeyjoOpen_within {A : List Area} (a0 : Area.regs ∈ A) (a1 : Area.beyjo ∈ A) (a2 : Area.out ∈ A) (a3 : Area.freeCtr ∈ A) {s₀ s : State} (src role ctx notifyPort nh : Nat) (h₀ : Within A s₀ s) :
    Out.within A s₀ (execBeyjoOpen src role ctx notifyPort nh s) := by
  unfold execBeyjoOpen
  show Within A s₀ _
  repeat' first | (extract_lets +onlyGivenNames x; revert x; with_reducible first | apply Within.letS A s₀ | apply Within.letQ A s₀ | apply Within.letP A s₀ | apply Within.letF A s₀ | apply Within.letK A s₀ | apply Within.letG A s₀ | apply Within.letF1x A s₀ | apply Within.letH A s₀ | apply Within.letV) | intro _ | with_reducible assumption | with_reducible apply Within.ite | with_reducible apply State.setBeyjo_within | with_reducible apply State.refuseOpen_within | with_reducible apply State.free_within | with_reducible apply State.frame_within | split | with_reducible apply_assumption

theorem State.dropHeld_within {A : List Area} (a0 : Area.beyjo ∈ A) {s₀ s : State} (i : Nat) (h₀ : Within A s₀ s) :
    Within A s₀ (State.dropHeld s i) := by
  unfold State.dropHeld
  repeat' first | intro _ | with_reducible assumption | with_reducible apply State.setBeyjo_within

theorem execBeyjoProof_within {A : List Area} (a0 : Area.regs ∈ A) (a1 : Area.tile ∈ A) (a2 : Area.beyjo ∈ A) (a3 : Area.out ∈ A) {s₀ s : State} (session proof : Nat) (h₀ : Within A s₀ s) :
    Out.within A s₀ (execBeyjoProof session proof s) := by
  unfold execBeyjoProof
  show Within A s₀ _
  repeat' first | with_reducible exact fun _ k => k | (extract_lets +onlyGivenNames x; revert x; with_reducible first | apply Within.letS A s₀ | apply Within.letQ A s₀ | apply Within.letP A s₀ | apply Within.letV) | intro _ | with_reducible assumption | with_reducible apply State.dropHeld_within | with_reducible apply State.refuseOpen_within | with_reducible apply State.setSess_within | with_reducible apply State.clearSlots_within | with_reducible apply State.showSess_within | with_reducible apply State.bump_within | with_reducible apply State.frame_within | split | with_reducible apply_assumption

theorem execChallengeExpiry_within {A : List Area} (a0 : Area.beyjo ∈ A) {s₀ s : State} (index : Nat) (h₀ : Within A s₀ s) :
    Out.within A s₀ (execChallengeExpiry index s) := by
  unfold execChallengeExpiry
  show Within A s₀ _
  repeat' first | with_reducible assumption | with_reducible apply State.dropHeld_within

theorem State.inSess_within {A : List Area} (a0 : Area.regs ∈ A) (a1 : Area.beyjo ∈ A) {s₀ s : State} (session : Nat) (tagOk : Bool) (f : Sess → State → State) (hf : ∀ x u, Within A s₀ u → Within A s₀ (f x u)) (h₀ : Within A s₀ s) :
    Within A s₀ (State.inSess s session tagOk f) := by
  unfold State.inSess
  repeat' first | intro _ | with_reducible assumption | with_reducible apply Within.ite | with_reducible apply State.setSess_within | with_reducible apply State.bump_within | split | with_reducible apply_assumption

theorem execBeyjoClose_within {A : List Area} (a0 : Area.regs ∈ A) (a1 : Area.tile ∈ A) (a2 : Area.beyjo ∈ A) (a3 : Area.rst ∈ A) (a4 : Area.pair ∈ A) {s₀ s : State} (session : Nat) (tagOk : Bool) (h₀ : Within A s₀ s) :
    Out.within A s₀ (execBeyjoClose session tagOk s) := by
  unfold execBeyjoClose
  show Within A s₀ _
  repeat' first | with_reducible exact fun _ k => k | intro _ | with_reducible assumption | with_reducible apply State.inSess_within | with_reducible apply State.closeSess_within

theorem execSessionIdleTimeout_within {A : List Area} (a0 : Area.regs ∈ A) (a1 : Area.tile ∈ A) (a2 : Area.beyjo ∈ A) (a3 : Area.rst ∈ A) (a4 : Area.pair ∈ A) {s₀ s : State} (index : Nat) (h₀ : Within A s₀ s) :
    Out.within A s₀ (execSessionIdleTimeout index s) := by
  unfold execSessionIdleTimeout
  show Within A s₀ _
  repeat' first | with_reducible exact fun _ k => k | with_reducible assumption | with_reducible apply Within.ite | with_reducible apply State.closeSess_within | split

theorem execNotifySend_within {A : List Area} (a0 : Area.regs ∈ A) (a1 : Area.beyjo ∈ A) (a2 : Area.out ∈ A) {s₀ s : State} (index : Nat) (h₀ : Within A s₀ s) :
    Out.within A s₀ (execNotifySend index s) := by
  unfold execNotifySend
  show Within A s₀ _
  repeat' first | (extract_lets +onlyGivenNames x; revert x; with_reducible first | apply Within.letS A s₀ | apply Within.letQ A s₀ | apply Within.letP A s₀ | apply Within.letV) | intro _ | with_reducible assumption | with_reducible apply Within.ite | with_reducible apply State.setSess_within | with_reducible apply State.frame_within | with_reducible apply State.notify_within | split | with_reducible apply_assumption

theorem execNotifyAck_within {A : List Area} (a0 : Area.regs ∈ A) (a1 : Area.beyjo ∈ A) {s₀ s : State} (session seq : Nat) (tagOk : Bool) (h₀ : Within A s₀ s) :
    Out.within A s₀ (execNotifyAck session seq tagOk s) := by
  unfold execNotifyAck
  show Within A s₀ _
  repeat' first | intro _ | with_reducible assumption | with_reducible apply State.inSess_within | with_reducible apply State.setSess_within

theorem execNotifyResend_within {A : List Area} (a0 : Area.regs ∈ A) (a1 : Area.tile ∈ A) (a2 : Area.beyjo ∈ A) (a3 : Area.rst ∈ A) (a4 : Area.pair ∈ A) (a5 : Area.out ∈ A) {s₀ s : State} (index seq : Nat) (h₀ : Within A s₀ s) :
    Out.within A s₀ (execNotifyResend index seq s) := by
  unfold execNotifyResend
  show Within A s₀ _
  repeat' first | with_reducible exact fun _ k => k | intro _ | with_reducible assumption | with_reducible apply Within.ite | with_reducible apply State.setSess_within | with_reducible apply State.bump_within | with_reducible apply State.frame_within | with_reducible apply State.notify_within | with_reducible apply State.closeSess_within | split

theorem State.takeSlot_within {A : List Area} (a0 : Area.regs ∈ A) (a1 : Area.tile ∈ A) {s₀ s : State} (i n : Nat) (h₀ : Within A s₀ s) :
    Within A s₀ (State.takeSlot s i n) := by
  unfold State.takeSlot
  repeat' first | with_reducible exact fun _ k => k | (extract_lets +onlyGivenNames x; revert x; with_reducible first | apply Within.letS A s₀ | apply Within.letQ A s₀ | apply Within.letP A s₀ | apply Within.letV) | intro _ | with_reducible assumption | with_reducible apply State.slotPut_within | with_reducible apply State.wr_within | with_reducible apply_assumption

theorem execMailScan_within {A : List Area} (a0 : Area.regs ∈ A) (a1 : Area.tile ∈ A) {s₀ s : State}  (h₀ : Within A s₀ s) :
    Out.within A s₀ (execMailScan s) := by
  unfold execMailScan
  show Within A s₀ _
  repeat' first | with_reducible exact fun _ k => k | (extract_lets +onlyGivenNames x; revert x; with_reducible first | apply Within.letS A s₀ | apply Within.letQ A s₀ | apply Within.letP A s₀ | apply Within.letF A s₀ | apply Within.letK A s₀ | apply Within.letG A s₀ | apply Within.letF1x A s₀ | apply Within.letH A s₀ | apply Within.letV) | intro _ | with_reducible assumption | with_reducible apply Within.ite | with_reducible apply Within.foldl | with_reducible apply Within.foldlPair | with_reducible apply State.takeSlot_within | with_reducible apply State.bump_within | split | with_reducible apply_assumption

theorem execMailNop_within {A : List Area} (a0 : Area.regs ∈ A) (a1 : Area.tile ∈ A) (a2 : Area.beyjo ∈ A) {s₀ s : State} (index slot : Nat) (h₀ : Within A s₀ s) :
    Out.within A s₀ (execMailNop index slot s) := by
  unfold execMailNop
  show Within A s₀ _
  repeat' first | with_reducible exact fun _ k => k | with_reducible assumption | with_reducible apply Within.ite | with_reducible apply State.mailReject_within | with_reducible apply State.mailOk_within | split

theorem execMailReserved_within {A : List Area} (a0 : Area.regs ∈ A) (a1 : Area.tile ∈ A) (a2 : Area.beyjo ∈ A) {s₀ s : State} (index slot : Nat) (h₀ : Within A s₀ s) :
    Out.within A s₀ (execMailReserved index slot s) := by
  unfold execMailReserved
  show Within A s₀ _
  repeat' first | with_reducible exact fun _ k => k | with_reducible assumption | with_reducible apply Within.ite | with_reducible apply State.mailReject_within | split

end Sys2Proof.Machine
end

