-- ==== Sys2Proof/Laws/OpersWithin.lean ====
section
/-! SUPPORT. The parts of the state that the definitions of Machine/Opers.lean reach. -/

set_option linter.unreachableTactic false
set_option linter.unusedTactic false

namespace Sys2Proof.Machine

theorem State.readRun_within {A : List Area} (a0 : Area.regs ∈ A) (a1 : Area.aregs ∈ A) (a2 : Area.ttbs ∈ A) (a3 : Area.insts ∈ A) (a4 : Area.hbm ∈ A) (a5 : Area.flt ∈ A) (a6 : Area.agFlt ∈ A) (a7 : Area.rst ∈ A) {s₀ s : State} (w : Asker) (n : Nat) (a : Nat) (h₀ : Within A s₀ s) :
    Within A s₀ (State.readRun s w n a).2.2 := by
  induction n generalizing s a with
  | zero =>
    rw [State.readRun]
    repeat' first | (extract_lets +onlyGivenNames x; revert x; with_reducible first | apply Within.letS A s₀ | apply Within.letQ A s₀ | apply Within.letP A s₀ | apply Within.letV) | intro _ | with_reducible assumption | with_reducible apply Within.ite | with_reducible apply State.busRead_within | split
  | succ i ih =>
    rw [State.readRun]
    repeat' first | (extract_lets +onlyGivenNames x; revert x; with_reducible first | apply Within.letS A s₀ | apply Within.letQ A s₀ | apply Within.letP A s₀ | apply Within.letV) | intro _ | with_reducible assumption | with_reducible apply ih | with_reducible apply Within.ite | with_reducible apply State.busRead_within | split

theorem State.writeRun_within {A : List Area} (a0 : Area.regs ∈ A) (a1 : Area.aregs ∈ A) (a2 : Area.time ∈ A) (a3 : Area.agTime ∈ A) (a4 : Area.ports ∈ A) (a5 : Area.agPorts ∈ A) (a6 : Area.replays ∈ A) (a7 : Area.route ∈ A) (a8 : Area.ttbs ∈ A) (a9 : Area.agents ∈ A) (a10 : Area.insts ∈ A) (a11 : Area.tile ∈ A) (a12 : Area.hbm ∈ A) (a13 : Area.ctxs ∈ A) (a14 : Area.rot ∈ A) (a15 : Area.beyjo ∈ A) (a16 : Area.flt ∈ A) (a17 : Area.agFlt ∈ A) (a18 : Area.rst ∈ A) (a19 : Area.pair ∈ A) (a20 : Area.boot ∈ A) (a21 : Area.pwr ∈ A) (a22 : Area.out ∈ A) (a23 : Area.freeCtr ∈ A) {s₀ s : State} (w : Asker) (l : List Nat) (a : Nat) (h₀ : Within A s₀ s) :
    Within A s₀ (State.writeRun s w l a).2 := by
  induction l generalizing s a with
  | nil =>
    rw [State.writeRun]
    repeat' first | (extract_lets +onlyGivenNames x; revert x; with_reducible first | apply Within.letS A s₀ | apply Within.letQ A s₀ | apply Within.letP A s₀ | apply Within.letV) | intro _ | with_reducible assumption | with_reducible apply Within.ite | with_reducible apply State.busWrite_within | split
  | cons x l ih =>
    rw [State.writeRun]
    repeat' first | (extract_lets +onlyGivenNames x; revert x; with_reducible first | apply Within.letS A s₀ | apply Within.letQ A s₀ | apply Within.letP A s₀ | apply Within.letV) | intro _ | with_reducible assumption | with_reducible apply ih | with_reducible apply Within.ite | with_reducible apply State.busWrite_within | split

theorem State.localOp_within {A : List Area} (a0 : Area.regs ∈ A) (a1 : Area.aregs ∈ A) (a2 : Area.time ∈ A) (a3 : Area.agTime ∈ A) (a4 : Area.ports ∈ A) (a5 : Area.agPorts ∈ A) (a6 : Area.replays ∈ A) (a7 : Area.route ∈ A) (a8 : Area.ttbs ∈ A) (a9 : Area.agents ∈ A) (a10 : Area.insts ∈ A) (a11 : Area.tile ∈ A) (a12 : Area.hbm ∈ A) (a13 : Area.ctxs ∈ A) (a14 : Area.rot ∈ A) (a15 : Area.beyjo ∈ A) (a16 : Area.flt ∈ A) (a17 : Area.agFlt ∈ A) (a18 : Area.rst ∈ A) (a19 : Area.pair ∈ A) (a20 : Area.boot ∈ A) (a21 : Area.pwr ∈ A) (a22 : Area.out ∈ A) (a23 : Area.freeCtr ∈ A) {s₀ s : State} (x : Sess) (op : BOp) (h₀ : Within A s₀ s) :
    Within A s₀ (State.localOp s x op).2 := by
  unfold State.localOp
  repeat' first | with_reducible exact fun _ k => k | (extract_lets +onlyGivenNames x; revert x; with_reducible first | apply Within.letS A s₀ | apply Within.letQ A s₀ | apply Within.letP A s₀ | apply Within.letV) | intro _ | with_reducible assumption | with_reducible apply State.readRun_within | with_reducible apply State.writeRun_within | with_reducible apply State.setSess_within | split | with_reducible apply_assumption

theorem State.remoteGo_within {A : List Area} (a0 : Area.regs ∈ A) (a1 : Area.aregs ∈ A) (a2 : Area.ports ∈ A) (a3 : Area.agPorts ∈ A) (a4 : Area.route ∈ A) (a5 : Area.flt ∈ A) (a6 : Area.agFlt ∈ A) (a7 : Area.out ∈ A) {s₀ s : State} (x : Sess) (op : BOp) (f : Nat) (k : Nat) (h₀ : Within A s₀ s) :
    Within A s₀ (State.remoteGo s x op f k).2.2 := by
  induction f generalizing s k with
  | zero =>
    rw [State.remoteGo]
    repeat' first | (extract_lets +onlyGivenNames x; revert x; with_reducible first | apply Within.letS A s₀ | apply Within.letQ A s₀ | apply Within.letP A s₀ | apply Within.letV) | intro _ | with_reducible assumption | with_reducible apply Within.ite | with_reducible apply State.mreq_within | split
  | succ i ih =>
    rw [State.remoteGo]
    repeat' first | (extract_lets +onlyGivenNames x; revert x; with_reducible first | apply Within.letS A s₀ | apply Within.letQ A s₀ | apply Within.letP A s₀ | apply Within.letV) | intro _ | with_reducible assumption | with_reducible apply ih | with_reducible apply Within.ite | with_reducible apply State.mreq_within | split

theorem State.respond_within {A : List Area} (a0 : Area.regs ∈ A) (a1 : Area.beyjo ∈ A) (a2 : Area.out ∈ A) {s₀ s : State} (session seq : Nat) (rs : List OpResult) (h₀ : Within A s₀ s) :
    Within A s₀ (State.respond s session seq rs) := by
  unfold State.respond
  repeat' first | (extract_lets +onlyGivenNames x; revert x; with_reducible first | apply Within.letS A s₀ | apply Within.letQ A s₀ | apply Within.letP A s₀ | apply Within.letF A s₀ | apply Within.letK A s₀ | apply Within.letG A s₀ | apply Within.letF1x A s₀ | apply Within.letH A s₀ | apply Within.letV) | intro _ | with_reducible assumption | with_reducible apply Within.ite | with_reducible apply State.drop_within | with_reducible apply State.setSess_within | with_reducible apply State.frame_within | split | with_reducible apply_assumption

theorem State.runOps_within {A : List Area} (a0 : Area.regs ∈ A) (a1 : Area.aregs ∈ A) (a2 : Area.time ∈ A) (a3 : Area.agTime ∈ A) (a4 : Area.ports ∈ A) (a5 : Area.agPorts ∈ A) (a6 : Area.replays ∈ A) (a7 : Area.route ∈ A) (a8 : Area.ttbs ∈ A) (a9 : Area.agents ∈ A) (a10 : Area.insts ∈ A) (a11 : Area.tile ∈ A) (a12 : Area.hbm ∈ A) (a13 : Area.ctxs ∈ A) (a14 : Area.rot ∈ A) (a15 : Area.beyjo ∈ A) (a16 : Area.flt ∈ A) (a17 : Area.agFlt ∈ A) (a18 : Area.rst ∈ A) (a19 : Area.pair ∈ A) (a20 : Area.boot ∈ A) (a21 : Area.pwr ∈ A) (a22 : Area.out ∈ A) (a23 : Area.freeCtr ∈ A) {s₀ s : State} (session seq : Nat) (l : List BOp) (done : List OpResult) (failed : Bool) (h₀ : Within A s₀ s) :
    Within A s₀ (State.runOps session seq l done failed s) := by
  induction l generalizing s done failed with
  | nil =>
    rw [State.runOps]
    repeat' first | (extract_lets +onlyGivenNames x; revert x; with_reducible first | apply Within.letS A s₀ | apply Within.letQ A s₀ | apply Within.letP A s₀ | apply Within.letF A s₀ | apply Within.letK A s₀ | apply Within.letG A s₀ | apply Within.letF1x A s₀ | apply Within.letH A s₀ | apply Within.letV) | intro _ | with_reducible assumption | with_reducible apply Within.ite | with_reducible apply State.respond_within | with_reducible apply State.remoteGo_within | with_reducible apply State.setBeyjo_within | with_reducible apply State.localOp_within | split
  | cons x l ih =>
    rw [State.runOps]
    repeat' first | (extract_lets +onlyGivenNames x; revert x; with_reducible first | apply Within.letS A s₀ | apply Within.letQ A s₀ | apply Within.letP A s₀ | apply Within.letF A s₀ | apply Within.letK A s₀ | apply Within.letG A s₀ | apply Within.letF1x A s₀ | apply Within.letH A s₀ | apply Within.letV) | intro _ | with_reducible assumption | with_reducible apply ih | with_reducible apply Within.ite | with_reducible apply State.respond_within | with_reducible apply State.remoteGo_within | with_reducible apply State.setBeyjo_within | with_reducible apply State.localOp_within | split

theorem State.request_within {A : List Area} (a0 : Area.regs ∈ A) (a1 : Area.aregs ∈ A) (a2 : Area.time ∈ A) (a3 : Area.agTime ∈ A) (a4 : Area.ports ∈ A) (a5 : Area.agPorts ∈ A) (a6 : Area.replays ∈ A) (a7 : Area.route ∈ A) (a8 : Area.ttbs ∈ A) (a9 : Area.agents ∈ A) (a10 : Area.insts ∈ A) (a11 : Area.tile ∈ A) (a12 : Area.hbm ∈ A) (a13 : Area.ctxs ∈ A) (a14 : Area.rot ∈ A) (a15 : Area.beyjo ∈ A) (a16 : Area.flt ∈ A) (a17 : Area.agFlt ∈ A) (a18 : Area.rst ∈ A) (a19 : Area.pair ∈ A) (a20 : Area.boot ∈ A) (a21 : Area.pwr ∈ A) (a22 : Area.out ∈ A) (a23 : Area.freeCtr ∈ A) {s₀ s : State} (x : Sess) (seq : Nat) (ops : List BOp) (h₀ : Within A s₀ s) :
    Within A s₀ (State.request s x seq ops) := by
  unfold State.request
  repeat' first | with_reducible exact fun _ k => k | intro _ | with_reducible assumption | with_reducible apply Within.ite | with_reducible apply State.frame_within | with_reducible apply State.bump_within | with_reducible apply State.runOps_within | with_reducible apply State.setSess_within | split

theorem execBeyjoRequest_within {A : List Area} (a0 : Area.regs ∈ A) (a1 : Area.aregs ∈ A) (a2 : Area.time ∈ A) (a3 : Area.agTime ∈ A) (a4 : Area.ports ∈ A) (a5 : Area.agPorts ∈ A) (a6 : Area.replays ∈ A) (a7 : Area.route ∈ A) (a8 : Area.ttbs ∈ A) (a9 : Area.agents ∈ A) (a10 : Area.insts ∈ A) (a11 : Area.tile ∈ A) (a12 : Area.hbm ∈ A) (a13 : Area.ctxs ∈ A) (a14 : Area.rot ∈ A) (a15 : Area.beyjo ∈ A) (a16 : Area.flt ∈ A) (a17 : Area.agFlt ∈ A) (a18 : Area.rst ∈ A) (a19 : Area.pair ∈ A) (a20 : Area.boot ∈ A) (a21 : Area.pwr ∈ A) (a22 : Area.out ∈ A) (a23 : Area.freeCtr ∈ A) {s₀ s : State} (session seq : Nat) (tagOk : Bool) (ops : List BOp) (h₀ : Within A s₀ s) :
    Out.within A s₀ (execBeyjoRequest session seq tagOk ops s) := by
  unfold execBeyjoRequest
  show Within A s₀ _
  repeat' first | with_reducible exact fun _ k => k | intro _ | with_reducible assumption | with_reducible apply Within.ite | with_reducible apply State.inSess_within | with_reducible apply State.request_within | split

theorem State.oneOp_within {A : List Area} (a0 : Area.regs ∈ A) (a1 : Area.aregs ∈ A) (a2 : Area.time ∈ A) (a3 : Area.agTime ∈ A) (a4 : Area.ports ∈ A) (a5 : Area.agPorts ∈ A) (a6 : Area.replays ∈ A) (a7 : Area.route ∈ A) (a8 : Area.ttbs ∈ A) (a9 : Area.agents ∈ A) (a10 : Area.insts ∈ A) (a11 : Area.tile ∈ A) (a12 : Area.hbm ∈ A) (a13 : Area.ctxs ∈ A) (a14 : Area.rot ∈ A) (a15 : Area.beyjo ∈ A) (a16 : Area.flt ∈ A) (a17 : Area.agFlt ∈ A) (a18 : Area.rst ∈ A) (a19 : Area.pair ∈ A) (a20 : Area.boot ∈ A) (a21 : Area.pwr ∈ A) (a22 : Area.out ∈ A) (a23 : Area.freeCtr ∈ A) {s₀ s : State} (index : Nat) (op : BOp) (h₀ : Within A s₀ s) :
    Within A s₀ (State.oneOp s index op) := by
  unfold State.oneOp
  repeat' first | with_reducible exact fun _ k => k | intro _ | with_reducible assumption | with_reducible apply State.runOps_within | with_reducible apply State.setSess_within | split

theorem execOpRead_within {A : List Area} (a0 : Area.regs ∈ A) (a1 : Area.aregs ∈ A) (a2 : Area.time ∈ A) (a3 : Area.agTime ∈ A) (a4 : Area.ports ∈ A) (a5 : Area.agPorts ∈ A) (a6 : Area.replays ∈ A) (a7 : Area.route ∈ A) (a8 : Area.ttbs ∈ A) (a9 : Area.agents ∈ A) (a10 : Area.insts ∈ A) (a11 : Area.tile ∈ A) (a12 : Area.hbm ∈ A) (a13 : Area.ctxs ∈ A) (a14 : Area.rot ∈ A) (a15 : Area.beyjo ∈ A) (a16 : Area.flt ∈ A) (a17 : Area.agFlt ∈ A) (a18 : Area.rst ∈ A) (a19 : Area.pair ∈ A) (a20 : Area.boot ∈ A) (a21 : Area.pwr ∈ A) (a22 : Area.out ∈ A) (a23 : Area.freeCtr ∈ A) {s₀ s : State} (index address count : Nat) (h₀ : Within A s₀ s) :
    Out.within A s₀ (execOpRead index address count s) := by
  unfold execOpRead
  show Within A s₀ _
  repeat' first | with_reducible exact fun _ k => k | with_reducible assumption | with_reducible apply State.oneOp_within

theorem execOpWrite_within {A : List Area} (a0 : Area.regs ∈ A) (a1 : Area.aregs ∈ A) (a2 : Area.time ∈ A) (a3 : Area.agTime ∈ A) (a4 : Area.ports ∈ A) (a5 : Area.agPorts ∈ A) (a6 : Area.replays ∈ A) (a7 : Area.route ∈ A) (a8 : Area.ttbs ∈ A) (a9 : Area.agents ∈ A) (a10 : Area.insts ∈ A) (a11 : Area.tile ∈ A) (a12 : Area.hbm ∈ A) (a13 : Area.ctxs ∈ A) (a14 : Area.rot ∈ A) (a15 : Area.beyjo ∈ A) (a16 : Area.flt ∈ A) (a17 : Area.agFlt ∈ A) (a18 : Area.rst ∈ A) (a19 : Area.pair ∈ A) (a20 : Area.boot ∈ A) (a21 : Area.pwr ∈ A) (a22 : Area.out ∈ A) (a23 : Area.freeCtr ∈ A) {s₀ s : State} (index address : Nat) (words : List Word) (h₀ : Within A s₀ s) :
    Out.within A s₀ (execOpWrite index address words s) := by
  unfold execOpWrite
  show Within A s₀ _
  repeat' first | with_reducible exact fun _ k => k | with_reducible assumption | with_reducible apply State.oneOp_within

theorem execOpKeepalive_within {A : List Area} (a0 : Area.regs ∈ A) (a1 : Area.aregs ∈ A) (a2 : Area.time ∈ A) (a3 : Area.agTime ∈ A) (a4 : Area.ports ∈ A) (a5 : Area.agPorts ∈ A) (a6 : Area.replays ∈ A) (a7 : Area.route ∈ A) (a8 : Area.ttbs ∈ A) (a9 : Area.agents ∈ A) (a10 : Area.insts ∈ A) (a11 : Area.tile ∈ A) (a12 : Area.hbm ∈ A) (a13 : Area.ctxs ∈ A) (a14 : Area.rot ∈ A) (a15 : Area.beyjo ∈ A) (a16 : Area.flt ∈ A) (a17 : Area.agFlt ∈ A) (a18 : Area.rst ∈ A) (a19 : Area.pair ∈ A) (a20 : Area.boot ∈ A) (a21 : Area.pwr ∈ A) (a22 : Area.out ∈ A) (a23 : Area.freeCtr ∈ A) {s₀ s : State} (index : Nat) (h₀ : Within A s₀ s) :
    Out.within A s₀ (execOpKeepalive index s) := by
  unfold execOpKeepalive
  show Within A s₀ _
  repeat' first | with_reducible exact fun _ k => k | with_reducible assumption | with_reducible apply State.oneOp_within

theorem execOpFilter_within {A : List Area} (a0 : Area.regs ∈ A) (a1 : Area.aregs ∈ A) (a2 : Area.time ∈ A) (a3 : Area.agTime ∈ A) (a4 : Area.ports ∈ A) (a5 : Area.agPorts ∈ A) (a6 : Area.replays ∈ A) (a7 : Area.route ∈ A) (a8 : Area.ttbs ∈ A) (a9 : Area.agents ∈ A) (a10 : Area.insts ∈ A) (a11 : Area.tile ∈ A) (a12 : Area.hbm ∈ A) (a13 : Area.ctxs ∈ A) (a14 : Area.rot ∈ A) (a15 : Area.beyjo ∈ A) (a16 : Area.flt ∈ A) (a17 : Area.agFlt ∈ A) (a18 : Area.rst ∈ A) (a19 : Area.pair ∈ A) (a20 : Area.boot ∈ A) (a21 : Area.pwr ∈ A) (a22 : Area.out ∈ A) (a23 : Area.freeCtr ∈ A) {s₀ s : State} (index : Nat) (mask : Word) (h₀ : Within A s₀ s) :
    Out.within A s₀ (execOpFilter index mask s) := by
  unfold execOpFilter
  show Within A s₀ _
  repeat' first | with_reducible exact fun _ k => k | with_reducible assumption | with_reducible apply State.oneOp_within

theorem State.resume_within {A : List Area} (a0 : Area.regs ∈ A) (a1 : Area.aregs ∈ A) (a2 : Area.time ∈ A) (a3 : Area.agTime ∈ A) (a4 : Area.ports ∈ A) (a5 : Area.agPorts ∈ A) (a6 : Area.replays ∈ A) (a7 : Area.route ∈ A) (a8 : Area.ttbs ∈ A) (a9 : Area.agents ∈ A) (a10 : Area.insts ∈ A) (a11 : Area.tile ∈ A) (a12 : Area.hbm ∈ A) (a13 : Area.ctxs ∈ A) (a14 : Area.rot ∈ A) (a15 : Area.beyjo ∈ A) (a16 : Area.flt ∈ A) (a17 : Area.agFlt ∈ A) (a18 : Area.rst ∈ A) (a19 : Area.pair ∈ A) (a20 : Area.boot ∈ A) (a21 : Area.pwr ∈ A) (a22 : Area.out ∈ A) (a23 : Area.freeCtr ∈ A) {s₀ s : State} (seq st : Nat) (data : List Nat) (n : Nat) (h₀ : Within A s₀ s) :
    Within A s₀ (State.resume s seq st data n) := by
  unfold State.resume
  repeat' first | with_reducible exact fun _ k => k | (extract_lets +onlyGivenNames x; revert x; with_reducible first | apply Within.letS A s₀ | apply Within.letQ A s₀ | apply Within.letP A s₀ | apply Within.letF A s₀ | apply Within.letK A s₀ | apply Within.letG A s₀ | apply Within.letF1x A s₀ | apply Within.letH A s₀ | apply Within.letV) | intro _ | with_reducible assumption | with_reducible apply Within.ite | with_reducible apply State.setBeyjo_within | with_reducible apply State.runOps_within | with_reducible apply State.remoteGo_within | split | with_reducible apply_assumption

theorem State.agtLast_within {A : List Area} (a0 : Area.regs ∈ A) {s₀ s : State} (t : Txn) (st : Nat) (h₀ : Within A s₀ s) :
    Within A s₀ (State.agtLast s t st) := by
  unfold State.agtLast
  repeat' first | with_reducible assumption | with_reducible apply State.wr_within | with_reducible apply State.request_within

theorem State.learn_within {A : List Area} (a0 : Area.regs ∈ A) (a1 : Area.aregs ∈ A) (a2 : Area.ports ∈ A) (a3 : Area.agPorts ∈ A) (a4 : Area.route ∈ A) (a5 : Area.ttbs ∈ A) (a6 : Area.agents ∈ A) (a7 : Area.tile ∈ A) (a8 : Area.ctxs ∈ A) (a9 : Area.rot ∈ A) (a10 : Area.beyjo ∈ A) (a11 : Area.flt ∈ A) (a12 : Area.agFlt ∈ A) (a13 : Area.rst ∈ A) (a14 : Area.pair ∈ A) (a15 : Area.out ∈ A) (a16 : Area.freeCtr ∈ A) {s₀ s : State} (fid addr : Nat) (data : List Nat) (h₀ : Within A s₀ s) :
    Within A s₀ (State.learn s fid addr data) := by
  unfold State.learn
  repeat' first | with_reducible exact fun _ k => k | (extract_lets +onlyGivenNames x; revert x; with_reducible first | apply Within.letS A s₀ | apply Within.letQ A s₀ | apply Within.letP A s₀ | apply Within.letV) | intro _ | with_reducible assumption | with_reducible apply Within.ite | with_reducible apply State.keyStatus_within | with_reducible apply State.settle_within | split | with_reducible apply Within.agents | with_reducible apply_assumption

theorem State.txnDone_within {A : List Area} (a0 : Area.regs ∈ A) (a1 : Area.aregs ∈ A) (a2 : Area.time ∈ A) (a3 : Area.agTime ∈ A) (a4 : Area.ports ∈ A) (a5 : Area.agPorts ∈ A) (a6 : Area.replays ∈ A) (a7 : Area.route ∈ A) (a8 : Area.ttbs ∈ A) (a9 : Area.agents ∈ A) (a10 : Area.insts ∈ A) (a11 : Area.tile ∈ A) (a12 : Area.hbm ∈ A) (a13 : Area.ctxs ∈ A) (a14 : Area.rot ∈ A) (a15 : Area.beyjo ∈ A) (a16 : Area.flt ∈ A) (a17 : Area.agFlt ∈ A) (a18 : Area.rst ∈ A) (a19 : Area.pair ∈ A) (a20 : Area.boot ∈ A) (a21 : Area.pwr ∈ A) (a22 : Area.out ∈ A) (a23 : Area.freeCtr ∈ A) {s₀ s : State} (t : Txn) (st : Nat) (data : List Nat) (h₀ : Within A s₀ s) :
    Within A s₀ (State.txnDone s t st data) := by
  unfold State.txnDone
  repeat' first | with_reducible exact fun _ k => k | (extract_lets +onlyGivenNames x; revert x; with_reducible first | apply Within.letS A s₀ | apply Within.letQ A s₀ | apply Within.letP A s₀ | apply Within.letV) | intro _ | with_reducible assumption | with_reducible apply Within.ite | with_reducible apply State.request_within | with_reducible apply State.endTxn_within | with_reducible apply State.bump_within | with_reducible apply State.agtLast_within | with_reducible apply State.resume_within | with_reducible apply State.learn_within | split | with_reducible apply_assumption

theorem execMrspCell_within {A : List Area} (a0 : Area.regs ∈ A) (a1 : Area.aregs ∈ A) (a2 : Area.time ∈ A) (a3 : Area.agTime ∈ A) (a4 : Area.ports ∈ A) (a5 : Area.agPorts ∈ A) (a6 : Area.replays ∈ A) (a7 : Area.route ∈ A) (a8 : Area.ttbs ∈ A) (a9 : Area.agents ∈ A) (a10 : Area.insts ∈ A) (a11 : Area.tile ∈ A) (a12 : Area.hbm ∈ A) (a13 : Area.ctxs ∈ A) (a14 : Area.rot ∈ A) (a15 : Area.beyjo ∈ A) (a16 : Area.flt ∈ A) (a17 : Area.agFlt ∈ A) (a18 : Area.rst ∈ A) (a19 : Area.pair ∈ A) (a20 : Area.boot ∈ A) (a21 : Area.pwr ∈ A) (a22 : Area.out ∈ A) (a23 : Area.freeCtr ∈ A) {s₀ s : State} (cell : Cell) (h₀ : Within A s₀ s) :
    Out.within A s₀ (execMrspCell cell s) := by
  unfold execMrspCell
  show Within A s₀ _
  repeat' first | with_reducible exact fun _ k => k | intro _ | with_reducible assumption | with_reducible apply Within.ite | with_reducible apply State.discard_within | with_reducible apply State.bump_within | with_reducible apply State.txnDone_within | split

theorem execMgmtTimeout_within {A : List Area} (a0 : Area.regs ∈ A) (a1 : Area.aregs ∈ A) (a2 : Area.time ∈ A) (a3 : Area.agTime ∈ A) (a4 : Area.ports ∈ A) (a5 : Area.agPorts ∈ A) (a6 : Area.replays ∈ A) (a7 : Area.route ∈ A) (a8 : Area.ttbs ∈ A) (a9 : Area.agents ∈ A) (a10 : Area.insts ∈ A) (a11 : Area.tile ∈ A) (a12 : Area.hbm ∈ A) (a13 : Area.ctxs ∈ A) (a14 : Area.rot ∈ A) (a15 : Area.beyjo ∈ A) (a16 : Area.flt ∈ A) (a17 : Area.agFlt ∈ A) (a18 : Area.rst ∈ A) (a19 : Area.pair ∈ A) (a20 : Area.boot ∈ A) (a21 : Area.pwr ∈ A) (a22 : Area.out ∈ A) (a23 : Area.freeCtr ∈ A) {s₀ s : State} (seq : Nat) (h₀ : Within A s₀ s) :
    Out.within A s₀ (execMgmtTimeout seq s) := by
  unfold execMgmtTimeout
  show Within A s₀ _
  repeat' first | with_reducible exact fun _ k => k | (extract_lets +onlyGivenNames x; revert x; with_reducible first | apply Within.letS A s₀ | apply Within.letQ A s₀ | apply Within.letP A s₀ | apply Within.letV) | intro _ | with_reducible assumption | with_reducible apply Within.ite | with_reducible apply State.setRoute_within | with_reducible apply State.endTxn_within | with_reducible apply State.bump_within | with_reducible apply State.agtLast_within | with_reducible apply State.resume_within | split | with_reducible apply_assumption

end Sys2Proof.Machine
end

