-- ==== Sys2Proof/Laws/State.lean ====
section
/-! SUPPORT. What each update of the state leaves in each of its parts. -/

namespace Sys2Proof.Machine

/-! ### The operations that name a device -/

@[simp] theorem State.rdS_dz8 (s : State) (f : Fld) : s.rdS .dz8 f = s.rd f := rfl
@[simp] theorem State.rdS_agent (s : State) (f : Fld) : s.rdS .agent f = s.ard f := rfl
@[simp] theorem State.wrS_dz8 (s : State) (f : Fld) (v : Nat) : s.wrS .dz8 f v = s.wr f v := rfl
@[simp] theorem State.wrS_agent (s : State) (f : Fld) (v : Nat) : s.wrS .agent f v = s.awr f v := rfl
@[simp] theorem State.portsS_dz8 (s : State) : s.portsS .dz8 = s.ports := rfl
@[simp] theorem State.portsS_agent (s : State) : s.portsS .agent = s.agPorts := rfl
@[simp] theorem State.fltS_dz8 (s : State) : s.fltS .dz8 = s.flt := rfl
@[simp] theorem State.fltS_agent (s : State) : s.fltS .agent = s.agFlt := rfl

/-! ### Register fields -/

/-- A field that was written reads as the low bits of the value. -/
@[simp] theorem State.rd_wr_same (s : State) (f : Fld) (v : Nat) : (s.wr f v).rd f = v % 2 ^ f.w := kget_kset_same ..

/-- Another field reads as before. -/
theorem State.rd_wr_other (s : State) {f g : Fld} (h : g.key ≠ f.key) (v : Nat) : (s.wr f v).rd g = s.rd g := kget_kset_other s.regs h ..

@[simp] theorem State.ard_awr_same (s : State) (f : Fld) (v : Nat) : (s.awr f v).ard f = v % 2 ^ f.w := kget_kset_same ..
theorem State.ard_awr_other (s : State) {f g : Fld} (h : g.key ≠ f.key) (v : Nat) : (s.awr f v).ard g = s.ard g := kget_kset_other s.aregs h ..
@[simp] theorem State.rd_awr (s : State) (f g : Fld) (v : Nat) : (s.awr f v).rd g = s.rd g := rfl
@[simp] theorem State.ard_wr (s : State) (f g : Fld) (v : Nat) : (s.wr f v).ard g = s.ard g := rfl

/-! ### wr -/

@[simp] theorem State.wr_regs (s : State) (f : Fld) (v : Nat) : (s.wr f v).regs = kset s.regs f.key (v % 2 ^ f.w) f.rst := rfl
@[simp] theorem State.wr_aregs (s : State) (f : Fld) (v : Nat) : (s.wr f v).aregs = s.aregs := rfl
@[simp] theorem State.wr_time (s : State) (f : Fld) (v : Nat) : (s.wr f v).time = s.time := rfl
@[simp] theorem State.wr_agTime (s : State) (f : Fld) (v : Nat) : (s.wr f v).agTime = s.agTime := rfl
@[simp] theorem State.wr_ports (s : State) (f : Fld) (v : Nat) : (s.wr f v).ports = s.ports := rfl
@[simp] theorem State.wr_agPorts (s : State) (f : Fld) (v : Nat) : (s.wr f v).agPorts = s.agPorts := rfl
@[simp] theorem State.wr_replays (s : State) (f : Fld) (v : Nat) : (s.wr f v).replays = s.replays := rfl
@[simp] theorem State.wr_route (s : State) (f : Fld) (v : Nat) : (s.wr f v).route = s.route := rfl
@[simp] theorem State.wr_agRoute (s : State) (f : Fld) (v : Nat) : (s.wr f v).agRoute = s.agRoute := rfl
@[simp] theorem State.wr_ttbs (s : State) (f : Fld) (v : Nat) : (s.wr f v).ttbs = s.ttbs := rfl
@[simp] theorem State.wr_agents (s : State) (f : Fld) (v : Nat) : (s.wr f v).agents = s.agents := rfl
@[simp] theorem State.wr_insts (s : State) (f : Fld) (v : Nat) : (s.wr f v).insts = s.insts := rfl
@[simp] theorem State.wr_tile (s : State) (f : Fld) (v : Nat) : (s.wr f v).tile = s.tile := rfl
@[simp] theorem State.wr_hbm (s : State) (f : Fld) (v : Nat) : (s.wr f v).hbm = s.hbm := rfl
@[simp] theorem State.wr_ctxs (s : State) (f : Fld) (v : Nat) : (s.wr f v).ctxs = s.ctxs := rfl
@[simp] theorem State.wr_rot (s : State) (f : Fld) (v : Nat) : (s.wr f v).rot = s.rot := rfl
@[simp] theorem State.wr_beyjo (s : State) (f : Fld) (v : Nat) : (s.wr f v).beyjo = s.beyjo := rfl
@[simp] theorem State.wr_flt (s : State) (f : Fld) (v : Nat) : (s.wr f v).flt = s.flt := rfl
@[simp] theorem State.wr_agFlt (s : State) (f : Fld) (v : Nat) : (s.wr f v).agFlt = s.agFlt := rfl
@[simp] theorem State.wr_rst (s : State) (f : Fld) (v : Nat) : (s.wr f v).rst = s.rst := rfl
@[simp] theorem State.wr_pair (s : State) (f : Fld) (v : Nat) : (s.wr f v).pair = s.pair := rfl
@[simp] theorem State.wr_boot (s : State) (f : Fld) (v : Nat) : (s.wr f v).boot = s.boot := rfl
@[simp] theorem State.wr_pwr (s : State) (f : Fld) (v : Nat) : (s.wr f v).pwr = s.pwr := rfl
@[simp] theorem State.wr_ag (s : State) (f : Fld) (v : Nat) : (s.wr f v).ag = s.ag := rfl
@[simp] theorem State.wr_out (s : State) (f : Fld) (v : Nat) : (s.wr f v).out = s.out := rfl
@[simp] theorem State.wr_freeCtr (s : State) (f : Fld) (v : Nat) : (s.wr f v).freeCtr = s.freeCtr := rfl
@[simp] theorem State.wr_pending (s : State) (f : Fld) (v : Nat) : (s.wr f v).pending = s.pending := rfl

/-! ### awr -/

@[simp] theorem State.awr_regs (s : State) (f : Fld) (v : Nat) : (s.awr f v).regs = s.regs := rfl
@[simp] theorem State.awr_aregs (s : State) (f : Fld) (v : Nat) : (s.awr f v).aregs = kset s.aregs f.key (v % 2 ^ f.w) f.rst := rfl
@[simp] theorem State.awr_time (s : State) (f : Fld) (v : Nat) : (s.awr f v).time = s.time := rfl
@[simp] theorem State.awr_agTime (s : State) (f : Fld) (v : Nat) : (s.awr f v).agTime = s.agTime := rfl
@[simp] theorem State.awr_ports (s : State) (f : Fld) (v : Nat) : (s.awr f v).ports = s.ports := rfl
@[simp] theorem State.awr_agPorts (s : State) (f : Fld) (v : Nat) : (s.awr f v).agPorts = s.agPorts := rfl
@[simp] theorem State.awr_replays (s : State) (f : Fld) (v : Nat) : (s.awr f v).replays = s.replays := rfl
@[simp] theorem State.awr_route (s : State) (f : Fld) (v : Nat) : (s.awr f v).route = s.route := rfl
@[simp] theorem State.awr_agRoute (s : State) (f : Fld) (v : Nat) : (s.awr f v).agRoute = s.agRoute := rfl
@[simp] theorem State.awr_ttbs (s : State) (f : Fld) (v : Nat) : (s.awr f v).ttbs = s.ttbs := rfl
@[simp] theorem State.awr_agents (s : State) (f : Fld) (v : Nat) : (s.awr f v).agents = s.agents := rfl
@[simp] theorem State.awr_insts (s : State) (f : Fld) (v : Nat) : (s.awr f v).insts = s.insts := rfl
@[simp] theorem State.awr_tile (s : State) (f : Fld) (v : Nat) : (s.awr f v).tile = s.tile := rfl
@[simp] theorem State.awr_hbm (s : State) (f : Fld) (v : Nat) : (s.awr f v).hbm = s.hbm := rfl
@[simp] theorem State.awr_ctxs (s : State) (f : Fld) (v : Nat) : (s.awr f v).ctxs = s.ctxs := rfl
@[simp] theorem State.awr_rot (s : State) (f : Fld) (v : Nat) : (s.awr f v).rot = s.rot := rfl
@[simp] theorem State.awr_beyjo (s : State) (f : Fld) (v : Nat) : (s.awr f v).beyjo = s.beyjo := rfl
@[simp] theorem State.awr_flt (s : State) (f : Fld) (v : Nat) : (s.awr f v).flt = s.flt := rfl
@[simp] theorem State.awr_agFlt (s : State) (f : Fld) (v : Nat) : (s.awr f v).agFlt = s.agFlt := rfl
@[simp] theorem State.awr_rst (s : State) (f : Fld) (v : Nat) : (s.awr f v).rst = s.rst := rfl
@[simp] theorem State.awr_pair (s : State) (f : Fld) (v : Nat) : (s.awr f v).pair = s.pair := rfl
@[simp] theorem State.awr_boot (s : State) (f : Fld) (v : Nat) : (s.awr f v).boot = s.boot := rfl
@[simp] theorem State.awr_pwr (s : State) (f : Fld) (v : Nat) : (s.awr f v).pwr = s.pwr := rfl
@[simp] theorem State.awr_ag (s : State) (f : Fld) (v : Nat) : (s.awr f v).ag = s.ag := rfl
@[simp] theorem State.awr_out (s : State) (f : Fld) (v : Nat) : (s.awr f v).out = s.out := rfl
@[simp] theorem State.awr_freeCtr (s : State) (f : Fld) (v : Nat) : (s.awr f v).freeCtr = s.freeCtr := rfl
@[simp] theorem State.awr_pending (s : State) (f : Fld) (v : Nat) : (s.awr f v).pending = s.pending := rfl

/-! ### setTime -/

@[simp] theorem State.setTime_regs (s : State) (f : TimeSt → TimeSt) : (s.setTime f).regs = s.regs := rfl
@[simp] theorem State.setTime_aregs (s : State) (f : TimeSt → TimeSt) : (s.setTime f).aregs = s.aregs := rfl
@[simp] theorem State.setTime_time (s : State) (f : TimeSt → TimeSt) : (s.setTime f).time = f s.time := rfl
@[simp] theorem State.setTime_agTime (s : State) (f : TimeSt → TimeSt) : (s.setTime f).agTime = s.agTime := rfl
@[simp] theorem State.setTime_ports (s : State) (f : TimeSt → TimeSt) : (s.setTime f).ports = s.ports := rfl
@[simp] theorem State.setTime_agPorts (s : State) (f : TimeSt → TimeSt) : (s.setTime f).agPorts = s.agPorts := rfl
@[simp] theorem State.setTime_replays (s : State) (f : TimeSt → TimeSt) : (s.setTime f).replays = s.replays := rfl
@[simp] theorem State.setTime_route (s : State) (f : TimeSt → TimeSt) : (s.setTime f).route = s.route := rfl
@[simp] theorem State.setTime_agRoute (s : State) (f : TimeSt → TimeSt) : (s.setTime f).agRoute = s.agRoute := rfl
@[simp] theorem State.setTime_ttbs (s : State) (f : TimeSt → TimeSt) : (s.setTime f).ttbs = s.ttbs := rfl
@[simp] theorem State.setTime_agents (s : State) (f : TimeSt → TimeSt) : (s.setTime f).agents = s.agents := rfl
@[simp] theorem State.setTime_insts (s : State) (f : TimeSt → TimeSt) : (s.setTime f).insts = s.insts := rfl
@[simp] theorem State.setTime_tile (s : State) (f : TimeSt → TimeSt) : (s.setTime f).tile = s.tile := rfl
@[simp] theorem State.setTime_hbm (s : State) (f : TimeSt → TimeSt) : (s.setTime f).hbm = s.hbm := rfl
@[simp] theorem State.setTime_ctxs (s : State) (f : TimeSt → TimeSt) : (s.setTime f).ctxs = s.ctxs := rfl
@[simp] theorem State.setTime_rot (s : State) (f : TimeSt → TimeSt) : (s.setTime f).rot = s.rot := rfl
@[simp] theorem State.setTime_beyjo (s : State) (f : TimeSt → TimeSt) : (s.setTime f).beyjo = s.beyjo := rfl
@[simp] theorem State.setTime_flt (s : State) (f : TimeSt → TimeSt) : (s.setTime f).flt = s.flt := rfl
@[simp] theorem State.setTime_agFlt (s : State) (f : TimeSt → TimeSt) : (s.setTime f).agFlt = s.agFlt := rfl
@[simp] theorem State.setTime_rst (s : State) (f : TimeSt → TimeSt) : (s.setTime f).rst = s.rst := rfl
@[simp] theorem State.setTime_pair (s : State) (f : TimeSt → TimeSt) : (s.setTime f).pair = s.pair := rfl
@[simp] theorem State.setTime_boot (s : State) (f : TimeSt → TimeSt) : (s.setTime f).boot = s.boot := rfl
@[simp] theorem State.setTime_pwr (s : State) (f : TimeSt → TimeSt) : (s.setTime f).pwr = s.pwr := rfl
@[simp] theorem State.setTime_ag (s : State) (f : TimeSt → TimeSt) : (s.setTime f).ag = s.ag := rfl
@[simp] theorem State.setTime_out (s : State) (f : TimeSt → TimeSt) : (s.setTime f).out = s.out := rfl
@[simp] theorem State.setTime_freeCtr (s : State) (f : TimeSt → TimeSt) : (s.setTime f).freeCtr = s.freeCtr := rfl
@[simp] theorem State.setTime_pending (s : State) (f : TimeSt → TimeSt) : (s.setTime f).pending = s.pending := rfl
@[simp] theorem State.setTime_rd (s : State) (f : TimeSt → TimeSt) (g : Fld) : (s.setTime f).rd g = s.rd g := rfl
@[simp] theorem State.setTime_ard (s : State) (f : TimeSt → TimeSt) (g : Fld) : (s.setTime f).ard g = s.ard g := rfl

/-! ### setAgTime -/

@[simp] theorem State.setAgTime_regs (s : State) (f : AgTimeSt → AgTimeSt) : (s.setAgTime f).regs = s.regs := rfl
@[simp] theorem State.setAgTime_aregs (s : State) (f : AgTimeSt → AgTimeSt) : (s.setAgTime f).aregs = s.aregs := rfl
@[simp] theorem State.setAgTime_time (s : State) (f : AgTimeSt → AgTimeSt) : (s.setAgTime f).time = s.time := rfl
@[simp] theorem State.setAgTime_agTime (s : State) (f : AgTimeSt → AgTimeSt) : (s.setAgTime f).agTime = f s.agTime := rfl
@[simp] theorem State.setAgTime_ports (s : State) (f : AgTimeSt → AgTimeSt) : (s.setAgTime f).ports = s.ports := rfl
@[simp] theorem State.setAgTime_agPorts (s : State) (f : AgTimeSt → AgTimeSt) : (s.setAgTime f).agPorts = s.agPorts := rfl
@[simp] theorem State.setAgTime_replays (s : State) (f : AgTimeSt → AgTimeSt) : (s.setAgTime f).replays = s.replays := rfl
@[simp] theorem State.setAgTime_route (s : State) (f : AgTimeSt → AgTimeSt) : (s.setAgTime f).route = s.route := rfl
@[simp] theorem State.setAgTime_agRoute (s : State) (f : AgTimeSt → AgTimeSt) : (s.setAgTime f).agRoute = s.agRoute := rfl
@[simp] theorem State.setAgTime_ttbs (s : State) (f : AgTimeSt → AgTimeSt) : (s.setAgTime f).ttbs = s.ttbs := rfl
@[simp] theorem State.setAgTime_agents (s : State) (f : AgTimeSt → AgTimeSt) : (s.setAgTime f).agents = s.agents := rfl
@[simp] theorem State.setAgTime_insts (s : State) (f : AgTimeSt → AgTimeSt) : (s.setAgTime f).insts = s.insts := rfl
@[simp] theorem State.setAgTime_tile (s : State) (f : AgTimeSt → AgTimeSt) : (s.setAgTime f).tile = s.tile := rfl
@[simp] theorem State.setAgTime_hbm (s : State) (f : AgTimeSt → AgTimeSt) : (s.setAgTime f).hbm = s.hbm := rfl
@[simp] theorem State.setAgTime_ctxs (s : State) (f : AgTimeSt → AgTimeSt) : (s.setAgTime f).ctxs = s.ctxs := rfl
@[simp] theorem State.setAgTime_rot (s : State) (f : AgTimeSt → AgTimeSt) : (s.setAgTime f).rot = s.rot := rfl
@[simp] theorem State.setAgTime_beyjo (s : State) (f : AgTimeSt → AgTimeSt) : (s.setAgTime f).beyjo = s.beyjo := rfl
@[simp] theorem State.setAgTime_flt (s : State) (f : AgTimeSt → AgTimeSt) : (s.setAgTime f).flt = s.flt := rfl
@[simp] theorem State.setAgTime_agFlt (s : State) (f : AgTimeSt → AgTimeSt) : (s.setAgTime f).agFlt = s.agFlt := rfl
@[simp] theorem State.setAgTime_rst (s : State) (f : AgTimeSt → AgTimeSt) : (s.setAgTime f).rst = s.rst := rfl
@[simp] theorem State.setAgTime_pair (s : State) (f : AgTimeSt → AgTimeSt) : (s.setAgTime f).pair = s.pair := rfl
@[simp] theorem State.setAgTime_boot (s : State) (f : AgTimeSt → AgTimeSt) : (s.setAgTime f).boot = s.boot := rfl
@[simp] theorem State.setAgTime_pwr (s : State) (f : AgTimeSt → AgTimeSt) : (s.setAgTime f).pwr = s.pwr := rfl
@[simp] theorem State.setAgTime_ag (s : State) (f : AgTimeSt → AgTimeSt) : (s.setAgTime f).ag = s.ag := rfl
@[simp] theorem State.setAgTime_out (s : State) (f : AgTimeSt → AgTimeSt) : (s.setAgTime f).out = s.out := rfl
@[simp] theorem State.setAgTime_freeCtr (s : State) (f : AgTimeSt → AgTimeSt) : (s.setAgTime f).freeCtr = s.freeCtr := rfl
@[simp] theorem State.setAgTime_pending (s : State) (f : AgTimeSt → AgTimeSt) : (s.setAgTime f).pending = s.pending := rfl
@[simp] theorem State.setAgTime_rd (s : State) (f : AgTimeSt → AgTimeSt) (g : Fld) : (s.setAgTime f).rd g = s.rd g := rfl
@[simp] theorem State.setAgTime_ard (s : State) (f : AgTimeSt → AgTimeSt) (g : Fld) : (s.setAgTime f).ard g = s.ard g := rfl

/-! ### setRoute -/

@[simp] theorem State.setRoute_regs (s : State) (f : RouteSt → RouteSt) : (s.setRoute f).regs = s.regs := rfl
@[simp] theorem State.setRoute_aregs (s : State) (f : RouteSt → RouteSt) : (s.setRoute f).aregs = s.aregs := rfl
@[simp] theorem State.setRoute_time (s : State) (f : RouteSt → RouteSt) : (s.setRoute f).time = s.time := rfl
@[simp] theorem State.setRoute_agTime (s : State) (f : RouteSt → RouteSt) : (s.setRoute f).agTime = s.agTime := rfl
@[simp] theorem State.setRoute_ports (s : State) (f : RouteSt → RouteSt) : (s.setRoute f).ports = s.ports := rfl
@[simp] theorem State.setRoute_agPorts (s : State) (f : RouteSt → RouteSt) : (s.setRoute f).agPorts = s.agPorts := rfl
@[simp] theorem State.setRoute_replays (s : State) (f : RouteSt → RouteSt) : (s.setRoute f).replays = s.replays := rfl
@[simp] theorem State.setRoute_route (s : State) (f : RouteSt → RouteSt) : (s.setRoute f).route = f s.route := rfl
@[simp] theorem State.setRoute_agRoute (s : State) (f : RouteSt → RouteSt) : (s.setRoute f).agRoute = s.agRoute := rfl
@[simp] theorem State.setRoute_ttbs (s : State) (f : RouteSt → RouteSt) : (s.setRoute f).ttbs = s.ttbs := rfl
@[simp] theorem State.setRoute_agents (s : State) (f : RouteSt → RouteSt) : (s.setRoute f).agents = s.agents := rfl
@[simp] theorem State.setRoute_insts (s : State) (f : RouteSt → RouteSt) : (s.setRoute f).insts = s.insts := rfl
@[simp] theorem State.setRoute_tile (s : State) (f : RouteSt → RouteSt) : (s.setRoute f).tile = s.tile := rfl
@[simp] theorem State.setRoute_hbm (s : State) (f : RouteSt → RouteSt) : (s.setRoute f).hbm = s.hbm := rfl
@[simp] theorem State.setRoute_ctxs (s : State) (f : RouteSt → RouteSt) : (s.setRoute f).ctxs = s.ctxs := rfl
@[simp] theorem State.setRoute_rot (s : State) (f : RouteSt → RouteSt) : (s.setRoute f).rot = s.rot := rfl
@[simp] theorem State.setRoute_beyjo (s : State) (f : RouteSt → RouteSt) : (s.setRoute f).beyjo = s.beyjo := rfl
@[simp] theorem State.setRoute_flt (s : State) (f : RouteSt → RouteSt) : (s.setRoute f).flt = s.flt := rfl
@[simp] theorem State.setRoute_agFlt (s : State) (f : RouteSt → RouteSt) : (s.setRoute f).agFlt = s.agFlt := rfl
@[simp] theorem State.setRoute_rst (s : State) (f : RouteSt → RouteSt) : (s.setRoute f).rst = s.rst := rfl
@[simp] theorem State.setRoute_pair (s : State) (f : RouteSt → RouteSt) : (s.setRoute f).pair = s.pair := rfl
@[simp] theorem State.setRoute_boot (s : State) (f : RouteSt → RouteSt) : (s.setRoute f).boot = s.boot := rfl
@[simp] theorem State.setRoute_pwr (s : State) (f : RouteSt → RouteSt) : (s.setRoute f).pwr = s.pwr := rfl
@[simp] theorem State.setRoute_ag (s : State) (f : RouteSt → RouteSt) : (s.setRoute f).ag = s.ag := rfl
@[simp] theorem State.setRoute_out (s : State) (f : RouteSt → RouteSt) : (s.setRoute f).out = s.out := rfl
@[simp] theorem State.setRoute_freeCtr (s : State) (f : RouteSt → RouteSt) : (s.setRoute f).freeCtr = s.freeCtr := rfl
@[simp] theorem State.setRoute_pending (s : State) (f : RouteSt → RouteSt) : (s.setRoute f).pending = s.pending := rfl
@[simp] theorem State.setRoute_rd (s : State) (f : RouteSt → RouteSt) (g : Fld) : (s.setRoute f).rd g = s.rd g := rfl
@[simp] theorem State.setRoute_ard (s : State) (f : RouteSt → RouteSt) (g : Fld) : (s.setRoute f).ard g = s.ard g := rfl

/-! ### setAgRoute -/

@[simp] theorem State.setAgRoute_regs (s : State) (f : AgRouteSt → AgRouteSt) : (s.setAgRoute f).regs = s.regs := rfl
@[simp] theorem State.setAgRoute_aregs (s : State) (f : AgRouteSt → AgRouteSt) : (s.setAgRoute f).aregs = s.aregs := rfl
@[simp] theorem State.setAgRoute_time (s : State) (f : AgRouteSt → AgRouteSt) : (s.setAgRoute f).time = s.time := rfl
@[simp] theorem State.setAgRoute_agTime (s : State) (f : AgRouteSt → AgRouteSt) : (s.setAgRoute f).agTime = s.agTime := rfl
@[simp] theorem State.setAgRoute_ports (s : State) (f : AgRouteSt → AgRouteSt) : (s.setAgRoute f).ports = s.ports := rfl
@[simp] theorem State.setAgRoute_agPorts (s : State) (f : AgRouteSt → AgRouteSt) : (s.setAgRoute f).agPorts = s.agPorts := rfl
@[simp] theorem State.setAgRoute_replays (s : State) (f : AgRouteSt → AgRouteSt) : (s.setAgRoute f).replays = s.replays := rfl
@[simp] theorem State.setAgRoute_route (s : State) (f : AgRouteSt → AgRouteSt) : (s.setAgRoute f).route = s.route := rfl
@[simp] theorem State.setAgRoute_agRoute (s : State) (f : AgRouteSt → AgRouteSt) : (s.setAgRoute f).agRoute = f s.agRoute := rfl
@[simp] theorem State.setAgRoute_ttbs (s : State) (f : AgRouteSt → AgRouteSt) : (s.setAgRoute f).ttbs = s.ttbs := rfl
@[simp] theorem State.setAgRoute_agents (s : State) (f : AgRouteSt → AgRouteSt) : (s.setAgRoute f).agents = s.agents := rfl
@[simp] theorem State.setAgRoute_insts (s : State) (f : AgRouteSt → AgRouteSt) : (s.setAgRoute f).insts = s.insts := rfl
@[simp] theorem State.setAgRoute_tile (s : State) (f : AgRouteSt → AgRouteSt) : (s.setAgRoute f).tile = s.tile := rfl
@[simp] theorem State.setAgRoute_hbm (s : State) (f : AgRouteSt → AgRouteSt) : (s.setAgRoute f).hbm = s.hbm := rfl
@[simp] theorem State.setAgRoute_ctxs (s : State) (f : AgRouteSt → AgRouteSt) : (s.setAgRoute f).ctxs = s.ctxs := rfl
@[simp] theorem State.setAgRoute_rot (s : State) (f : AgRouteSt → AgRouteSt) : (s.setAgRoute f).rot = s.rot := rfl
@[simp] theorem State.setAgRoute_beyjo (s : State) (f : AgRouteSt → AgRouteSt) : (s.setAgRoute f).beyjo = s.beyjo := rfl
@[simp] theorem State.setAgRoute_flt (s : State) (f : AgRouteSt → AgRouteSt) : (s.setAgRoute f).flt = s.flt := rfl
@[simp] theorem State.setAgRoute_agFlt (s : State) (f : AgRouteSt → AgRouteSt) : (s.setAgRoute f).agFlt = s.agFlt := rfl
@[simp] theorem State.setAgRoute_rst (s : State) (f : AgRouteSt → AgRouteSt) : (s.setAgRoute f).rst = s.rst := rfl
@[simp] theorem State.setAgRoute_pair (s : State) (f : AgRouteSt → AgRouteSt) : (s.setAgRoute f).pair = s.pair := rfl
@[simp] theorem State.setAgRoute_boot (s : State) (f : AgRouteSt → AgRouteSt) : (s.setAgRoute f).boot = s.boot := rfl
@[simp] theorem State.setAgRoute_pwr (s : State) (f : AgRouteSt → AgRouteSt) : (s.setAgRoute f).pwr = s.pwr := rfl
@[simp] theorem State.setAgRoute_ag (s : State) (f : AgRouteSt → AgRouteSt) : (s.setAgRoute f).ag = s.ag := rfl
@[simp] theorem State.setAgRoute_out (s : State) (f : AgRouteSt → AgRouteSt) : (s.setAgRoute f).out = s.out := rfl
@[simp] theorem State.setAgRoute_freeCtr (s : State) (f : AgRouteSt → AgRouteSt) : (s.setAgRoute f).freeCtr = s.freeCtr := rfl
@[simp] theorem State.setAgRoute_pending (s : State) (f : AgRouteSt → AgRouteSt) : (s.setAgRoute f).pending = s.pending := rfl
@[simp] theorem State.setAgRoute_rd (s : State) (f : AgRouteSt → AgRouteSt) (g : Fld) : (s.setAgRoute f).rd g = s.rd g := rfl
@[simp] theorem State.setAgRoute_ard (s : State) (f : AgRouteSt → AgRouteSt) (g : Fld) : (s.setAgRoute f).ard g = s.ard g := rfl

/-! ### setTile -/

@[simp] theorem State.setTile_regs (s : State) (f : TileSt → TileSt) : (s.setTile f).regs = s.regs := rfl
@[simp] theorem State.setTile_aregs (s : State) (f : TileSt → TileSt) : (s.setTile f).aregs = s.aregs := rfl
@[simp] theorem State.setTile_time (s : State) (f : TileSt → TileSt) : (s.setTile f).time = s.time := rfl
@[simp] theorem State.setTile_agTime (s : State) (f : TileSt → TileSt) : (s.setTile f).agTime = s.agTime := rfl
@[simp] theorem State.setTile_ports (s : State) (f : TileSt → TileSt) : (s.setTile f).ports = s.ports := rfl
@[simp] theorem State.setTile_agPorts (s : State) (f : TileSt → TileSt) : (s.setTile f).agPorts = s.agPorts := rfl
@[simp] theorem State.setTile_replays (s : State) (f : TileSt → TileSt) : (s.setTile f).replays = s.replays := rfl
@[simp] theorem State.setTile_route (s : State) (f : TileSt → TileSt) : (s.setTile f).route = s.route := rfl
@[simp] theorem State.setTile_agRoute (s : State) (f : TileSt → TileSt) : (s.setTile f).agRoute = s.agRoute := rfl
@[simp] theorem State.setTile_ttbs (s : State) (f : TileSt → TileSt) : (s.setTile f).ttbs = s.ttbs := rfl
@[simp] theorem State.setTile_agents (s : State) (f : TileSt → TileSt) : (s.setTile f).agents = s.agents := rfl
@[simp] theorem State.setTile_insts (s : State) (f : TileSt → TileSt) : (s.setTile f).insts = s.insts := rfl
@[simp] theorem State.setTile_tile (s : State) (f : TileSt → TileSt) : (s.setTile f).tile = f s.tile := rfl
@[simp] theorem State.setTile_hbm (s : State) (f : TileSt → TileSt) : (s.setTile f).hbm = s.hbm := rfl
@[simp] theorem State.setTile_ctxs (s : State) (f : TileSt → TileSt) : (s.setTile f).ctxs = s.ctxs := rfl
@[simp] theorem State.setTile_rot (s : State) (f : TileSt → TileSt) : (s.setTile f).rot = s.rot := rfl
@[simp] theorem State.setTile_beyjo (s : State) (f : TileSt → TileSt) : (s.setTile f).beyjo = s.beyjo := rfl
@[simp] theorem State.setTile_flt (s : State) (f : TileSt → TileSt) : (s.setTile f).flt = s.flt := rfl
@[simp] theorem State.setTile_agFlt (s : State) (f : TileSt → TileSt) : (s.setTile f).agFlt = s.agFlt := rfl
@[simp] theorem State.setTile_rst (s : State) (f : TileSt → TileSt) : (s.setTile f).rst = s.rst := rfl
@[simp] theorem State.setTile_pair (s : State) (f : TileSt → TileSt) : (s.setTile f).pair = s.pair := rfl
@[simp] theorem State.setTile_boot (s : State) (f : TileSt → TileSt) : (s.setTile f).boot = s.boot := rfl
@[simp] theorem State.setTile_pwr (s : State) (f : TileSt → TileSt) : (s.setTile f).pwr = s.pwr := rfl
@[simp] theorem State.setTile_ag (s : State) (f : TileSt → TileSt) : (s.setTile f).ag = s.ag := rfl
@[simp] theorem State.setTile_out (s : State) (f : TileSt → TileSt) : (s.setTile f).out = s.out := rfl
@[simp] theorem State.setTile_freeCtr (s : State) (f : TileSt → TileSt) : (s.setTile f).freeCtr = s.freeCtr := rfl
@[simp] theorem State.setTile_pending (s : State) (f : TileSt → TileSt) : (s.setTile f).pending = s.pending := rfl
@[simp] theorem State.setTile_rd (s : State) (f : TileSt → TileSt) (g : Fld) : (s.setTile f).rd g = s.rd g := rfl
@[simp] theorem State.setTile_ard (s : State) (f : TileSt → TileSt) (g : Fld) : (s.setTile f).ard g = s.ard g := rfl

/-! ### setHbm -/

@[simp] theorem State.setHbm_regs (s : State) (f : HbmSt → HbmSt) : (s.setHbm f).regs = s.regs := rfl
@[simp] theorem State.setHbm_aregs (s : State) (f : HbmSt → HbmSt) : (s.setHbm f).aregs = s.aregs := rfl
@[simp] theorem State.setHbm_time (s : State) (f : HbmSt → HbmSt) : (s.setHbm f).time = s.time := rfl
@[simp] theorem State.setHbm_agTime (s : State) (f : HbmSt → HbmSt) : (s.setHbm f).agTime = s.agTime := rfl
@[simp] theorem State.setHbm_ports (s : State) (f : HbmSt → HbmSt) : (s.setHbm f).ports = s.ports := rfl
@[simp] theorem State.setHbm_agPorts (s : State) (f : HbmSt → HbmSt) : (s.setHbm f).agPorts = s.agPorts := rfl
@[simp] theorem State.setHbm_replays (s : State) (f : HbmSt → HbmSt) : (s.setHbm f).replays = s.replays := rfl
@[simp] theorem State.setHbm_route (s : State) (f : HbmSt → HbmSt) : (s.setHbm f).route = s.route := rfl
@[simp] theorem State.setHbm_agRoute (s : State) (f : HbmSt → HbmSt) : (s.setHbm f).agRoute = s.agRoute := rfl
@[simp] theorem State.setHbm_ttbs (s : State) (f : HbmSt → HbmSt) : (s.setHbm f).ttbs = s.ttbs := rfl
@[simp] theorem State.setHbm_agents (s : State) (f : HbmSt → HbmSt) : (s.setHbm f).agents = s.agents := rfl
@[simp] theorem State.setHbm_insts (s : State) (f : HbmSt → HbmSt) : (s.setHbm f).insts = s.insts := rfl
@[simp] theorem State.setHbm_tile (s : State) (f : HbmSt → HbmSt) : (s.setHbm f).tile = s.tile := rfl
@[simp] theorem State.setHbm_hbm (s : State) (f : HbmSt → HbmSt) : (s.setHbm f).hbm = f s.hbm := rfl
@[simp] theorem State.setHbm_ctxs (s : State) (f : HbmSt → HbmSt) : (s.setHbm f).ctxs = s.ctxs := rfl
@[simp] theorem State.setHbm_rot (s : State) (f : HbmSt → HbmSt) : (s.setHbm f).rot = s.rot := rfl
@[simp] theorem State.setHbm_beyjo (s : State) (f : HbmSt → HbmSt) : (s.setHbm f).beyjo = s.beyjo := rfl
@[simp] theorem State.setHbm_flt (s : State) (f : HbmSt → HbmSt) : (s.setHbm f).flt = s.flt := rfl
@[simp] theorem State.setHbm_agFlt (s : State) (f : HbmSt → HbmSt) : (s.setHbm f).agFlt = s.agFlt := rfl
@[simp] theorem State.setHbm_rst (s : State) (f : HbmSt → HbmSt) : (s.setHbm f).rst = s.rst := rfl
@[simp] theorem State.setHbm_pair (s : State) (f : HbmSt → HbmSt) : (s.setHbm f).pair = s.pair := rfl
@[simp] theorem State.setHbm_boot (s : State) (f : HbmSt → HbmSt) : (s.setHbm f).boot = s.boot := rfl
@[simp] theorem State.setHbm_pwr (s : State) (f : HbmSt → HbmSt) : (s.setHbm f).pwr = s.pwr := rfl
@[simp] theorem State.setHbm_ag (s : State) (f : HbmSt → HbmSt) : (s.setHbm f).ag = s.ag := rfl
@[simp] theorem State.setHbm_out (s : State) (f : HbmSt → HbmSt) : (s.setHbm f).out = s.out := rfl
@[simp] theorem State.setHbm_freeCtr (s : State) (f : HbmSt → HbmSt) : (s.setHbm f).freeCtr = s.freeCtr := rfl
@[simp] theorem State.setHbm_pending (s : State) (f : HbmSt → HbmSt) : (s.setHbm f).pending = s.pending := rfl
@[simp] theorem State.setHbm_rd (s : State) (f : HbmSt → HbmSt) (g : Fld) : (s.setHbm f).rd g = s.rd g := rfl
@[simp] theorem State.setHbm_ard (s : State) (f : HbmSt → HbmSt) (g : Fld) : (s.setHbm f).ard g = s.ard g := rfl

/-! ### setRot -/

@[simp] theorem State.setRot_regs (s : State) (f : RotSt → RotSt) : (s.setRot f).regs = s.regs := rfl
@[simp] theorem State.setRot_aregs (s : State) (f : RotSt → RotSt) : (s.setRot f).aregs = s.aregs := rfl
@[simp] theorem State.setRot_time (s : State) (f : RotSt → RotSt) : (s.setRot f).time = s.time := rfl
@[simp] theorem State.setRot_agTime (s : State) (f : RotSt → RotSt) : (s.setRot f).agTime = s.agTime := rfl
@[simp] theorem State.setRot_ports (s : State) (f : RotSt → RotSt) : (s.setRot f).ports = s.ports := rfl
@[simp] theorem State.setRot_agPorts (s : State) (f : RotSt → RotSt) : (s.setRot f).agPorts = s.agPorts := rfl
@[simp] theorem State.setRot_replays (s : State) (f : RotSt → RotSt) : (s.setRot f).replays = s.replays := rfl
@[simp] theorem State.setRot_route (s : State) (f : RotSt → RotSt) : (s.setRot f).route = s.route := rfl
@[simp] theorem State.setRot_agRoute (s : State) (f : RotSt → RotSt) : (s.setRot f).agRoute = s.agRoute := rfl
@[simp] theorem State.setRot_ttbs (s : State) (f : RotSt → RotSt) : (s.setRot f).ttbs = s.ttbs := rfl
@[simp] theorem State.setRot_agents (s : State) (f : RotSt → RotSt) : (s.setRot f).agents = s.agents := rfl
@[simp] theorem State.setRot_insts (s : State) (f : RotSt → RotSt) : (s.setRot f).insts = s.insts := rfl
@[simp] theorem State.setRot_tile (s : State) (f : RotSt → RotSt) : (s.setRot f).tile = s.tile := rfl
@[simp] theorem State.setRot_hbm (s : State) (f : RotSt → RotSt) : (s.setRot f).hbm = s.hbm := rfl
@[simp] theorem State.setRot_ctxs (s : State) (f : RotSt → RotSt) : (s.setRot f).ctxs = s.ctxs := rfl
@[simp] theorem State.setRot_rot (s : State) (f : RotSt → RotSt) : (s.setRot f).rot = f s.rot := rfl
@[simp] theorem State.setRot_beyjo (s : State) (f : RotSt → RotSt) : (s.setRot f).beyjo = s.beyjo := rfl
@[simp] theorem State.setRot_flt (s : State) (f : RotSt → RotSt) : (s.setRot f).flt = s.flt := rfl
@[simp] theorem State.setRot_agFlt (s : State) (f : RotSt → RotSt) : (s.setRot f).agFlt = s.agFlt := rfl
@[simp] theorem State.setRot_rst (s : State) (f : RotSt → RotSt) : (s.setRot f).rst = s.rst := rfl
@[simp] theorem State.setRot_pair (s : State) (f : RotSt → RotSt) : (s.setRot f).pair = s.pair := rfl
@[simp] theorem State.setRot_boot (s : State) (f : RotSt → RotSt) : (s.setRot f).boot = s.boot := rfl
@[simp] theorem State.setRot_pwr (s : State) (f : RotSt → RotSt) : (s.setRot f).pwr = s.pwr := rfl
@[simp] theorem State.setRot_ag (s : State) (f : RotSt → RotSt) : (s.setRot f).ag = s.ag := rfl
@[simp] theorem State.setRot_out (s : State) (f : RotSt → RotSt) : (s.setRot f).out = s.out := rfl
@[simp] theorem State.setRot_freeCtr (s : State) (f : RotSt → RotSt) : (s.setRot f).freeCtr = s.freeCtr := rfl
@[simp] theorem State.setRot_pending (s : State) (f : RotSt → RotSt) : (s.setRot f).pending = s.pending := rfl
@[simp] theorem State.setRot_rd (s : State) (f : RotSt → RotSt) (g : Fld) : (s.setRot f).rd g = s.rd g := rfl
@[simp] theorem State.setRot_ard (s : State) (f : RotSt → RotSt) (g : Fld) : (s.setRot f).ard g = s.ard g := rfl

/-! ### setBeyjo -/

@[simp] theorem State.setBeyjo_regs (s : State) (f : BeyjoSt → BeyjoSt) : (s.setBeyjo f).regs = s.regs := rfl
@[simp] theorem State.setBeyjo_aregs (s : State) (f : BeyjoSt → BeyjoSt) : (s.setBeyjo f).aregs = s.aregs := rfl
@[simp] theorem State.setBeyjo_time (s : State) (f : BeyjoSt → BeyjoSt) : (s.setBeyjo f).time = s.time := rfl
@[simp] theorem State.setBeyjo_agTime (s : State) (f : BeyjoSt → BeyjoSt) : (s.setBeyjo f).agTime = s.agTime := rfl
@[simp] theorem State.setBeyjo_ports (s : State) (f : BeyjoSt → BeyjoSt) : (s.setBeyjo f).ports = s.ports := rfl
@[simp] theorem State.setBeyjo_agPorts (s : State) (f : BeyjoSt → BeyjoSt) : (s.setBeyjo f).agPorts = s.agPorts := rfl
@[simp] theorem State.setBeyjo_replays (s : State) (f : BeyjoSt → BeyjoSt) : (s.setBeyjo f).replays = s.replays := rfl
@[simp] theorem State.setBeyjo_route (s : State) (f : BeyjoSt → BeyjoSt) : (s.setBeyjo f).route = s.route := rfl
@[simp] theorem State.setBeyjo_agRoute (s : State) (f : BeyjoSt → BeyjoSt) : (s.setBeyjo f).agRoute = s.agRoute := rfl
@[simp] theorem State.setBeyjo_ttbs (s : State) (f : BeyjoSt → BeyjoSt) : (s.setBeyjo f).ttbs = s.ttbs := rfl
@[simp] theorem State.setBeyjo_agents (s : State) (f : BeyjoSt → BeyjoSt) : (s.setBeyjo f).agents = s.agents := rfl
@[simp] theorem State.setBeyjo_insts (s : State) (f : BeyjoSt → BeyjoSt) : (s.setBeyjo f).insts = s.insts := rfl
@[simp] theorem State.setBeyjo_tile (s : State) (f : BeyjoSt → BeyjoSt) : (s.setBeyjo f).tile = s.tile := rfl
@[simp] theorem State.setBeyjo_hbm (s : State) (f : BeyjoSt → BeyjoSt) : (s.setBeyjo f).hbm = s.hbm := rfl
@[simp] theorem State.setBeyjo_ctxs (s : State) (f : BeyjoSt → BeyjoSt) : (s.setBeyjo f).ctxs = s.ctxs := rfl
@[simp] theorem State.setBeyjo_rot (s : State) (f : BeyjoSt → BeyjoSt) : (s.setBeyjo f).rot = s.rot := rfl
@[simp] theorem State.setBeyjo_beyjo (s : State) (f : BeyjoSt → BeyjoSt) : (s.setBeyjo f).beyjo = f s.beyjo := rfl
@[simp] theorem State.setBeyjo_flt (s : State) (f : BeyjoSt → BeyjoSt) : (s.setBeyjo f).flt = s.flt := rfl
@[simp] theorem State.setBeyjo_agFlt (s : State) (f : BeyjoSt → BeyjoSt) : (s.setBeyjo f).agFlt = s.agFlt := rfl
@[simp] theorem State.setBeyjo_rst (s : State) (f : BeyjoSt → BeyjoSt) : (s.setBeyjo f).rst = s.rst := rfl
@[simp] theorem State.setBeyjo_pair (s : State) (f : BeyjoSt → BeyjoSt) : (s.setBeyjo f).pair = s.pair := rfl
@[simp] theorem State.setBeyjo_boot (s : State) (f : BeyjoSt → BeyjoSt) : (s.setBeyjo f).boot = s.boot := rfl
@[simp] theorem State.setBeyjo_pwr (s : State) (f : BeyjoSt → BeyjoSt) : (s.setBeyjo f).pwr = s.pwr := rfl
@[simp] theorem State.setBeyjo_ag (s : State) (f : BeyjoSt → BeyjoSt) : (s.setBeyjo f).ag = s.ag := rfl
@[simp] theorem State.setBeyjo_out (s : State) (f : BeyjoSt → BeyjoSt) : (s.setBeyjo f).out = s.out := rfl
@[simp] theorem State.setBeyjo_freeCtr (s : State) (f : BeyjoSt → BeyjoSt) : (s.setBeyjo f).freeCtr = s.freeCtr := rfl
@[simp] theorem State.setBeyjo_pending (s : State) (f : BeyjoSt → BeyjoSt) : (s.setBeyjo f).pending = s.pending := rfl
@[simp] theorem State.setBeyjo_rd (s : State) (f : BeyjoSt → BeyjoSt) (g : Fld) : (s.setBeyjo f).rd g = s.rd g := rfl
@[simp] theorem State.setBeyjo_ard (s : State) (f : BeyjoSt → BeyjoSt) (g : Fld) : (s.setBeyjo f).ard g = s.ard g := rfl

/-! ### setRst -/

@[simp] theorem State.setRst_regs (s : State) (f : RstSt → RstSt) : (s.setRst f).regs = s.regs := rfl
@[simp] theorem State.setRst_aregs (s : State) (f : RstSt → RstSt) : (s.setRst f).aregs = s.aregs := rfl
@[simp] theorem State.setRst_time (s : State) (f : RstSt → RstSt) : (s.setRst f).time = s.time := rfl
@[simp] theorem State.setRst_agTime (s : State) (f : RstSt → RstSt) : (s.setRst f).agTime = s.agTime := rfl
@[simp] theorem State.setRst_ports (s : State) (f : RstSt → RstSt) : (s.setRst f).ports = s.ports := rfl
@[simp] theorem State.setRst_agPorts (s : State) (f : RstSt → RstSt) : (s.setRst f).agPorts = s.agPorts := rfl
@[simp] theorem State.setRst_replays (s : State) (f : RstSt → RstSt) : (s.setRst f).replays = s.replays := rfl
@[simp] theorem State.setRst_route (s : State) (f : RstSt → RstSt) : (s.setRst f).route = s.route := rfl
@[simp] theorem State.setRst_agRoute (s : State) (f : RstSt → RstSt) : (s.setRst f).agRoute = s.agRoute := rfl
@[simp] theorem State.setRst_ttbs (s : State) (f : RstSt → RstSt) : (s.setRst f).ttbs = s.ttbs := rfl
@[simp] theorem State.setRst_agents (s : State) (f : RstSt → RstSt) : (s.setRst f).agents = s.agents := rfl
@[simp] theorem State.setRst_insts (s : State) (f : RstSt → RstSt) : (s.setRst f).insts = s.insts := rfl
@[simp] theorem State.setRst_tile (s : State) (f : RstSt → RstSt) : (s.setRst f).tile = s.tile := rfl
@[simp] theorem State.setRst_hbm (s : State) (f : RstSt → RstSt) : (s.setRst f).hbm = s.hbm := rfl
@[simp] theorem State.setRst_ctxs (s : State) (f : RstSt → RstSt) : (s.setRst f).ctxs = s.ctxs := rfl
@[simp] theorem State.setRst_rot (s : State) (f : RstSt → RstSt) : (s.setRst f).rot = s.rot := rfl
@[simp] theorem State.setRst_beyjo (s : State) (f : RstSt → RstSt) : (s.setRst f).beyjo = s.beyjo := rfl
@[simp] theorem State.setRst_flt (s : State) (f : RstSt → RstSt) : (s.setRst f).flt = s.flt := rfl
@[simp] theorem State.setRst_agFlt (s : State) (f : RstSt → RstSt) : (s.setRst f).agFlt = s.agFlt := rfl
@[simp] theorem State.setRst_rst (s : State) (f : RstSt → RstSt) : (s.setRst f).rst = f s.rst := rfl
@[simp] theorem State.setRst_pair (s : State) (f : RstSt → RstSt) : (s.setRst f).pair = s.pair := rfl
@[simp] theorem State.setRst_boot (s : State) (f : RstSt → RstSt) : (s.setRst f).boot = s.boot := rfl
@[simp] theorem State.setRst_pwr (s : State) (f : RstSt → RstSt) : (s.setRst f).pwr = s.pwr := rfl
@[simp] theorem State.setRst_ag (s : State) (f : RstSt → RstSt) : (s.setRst f).ag = s.ag := rfl
@[simp] theorem State.setRst_out (s : State) (f : RstSt → RstSt) : (s.setRst f).out = s.out := rfl
@[simp] theorem State.setRst_freeCtr (s : State) (f : RstSt → RstSt) : (s.setRst f).freeCtr = s.freeCtr := rfl
@[simp] theorem State.setRst_pending (s : State) (f : RstSt → RstSt) : (s.setRst f).pending = s.pending := rfl
@[simp] theorem State.setRst_rd (s : State) (f : RstSt → RstSt) (g : Fld) : (s.setRst f).rd g = s.rd g := rfl
@[simp] theorem State.setRst_ard (s : State) (f : RstSt → RstSt) (g : Fld) : (s.setRst f).ard g = s.ard g := rfl

/-! ### setPair -/

@[simp] theorem State.setPair_regs (s : State) (f : PairSt → PairSt) : (s.setPair f).regs = s.regs := rfl
@[simp] theorem State.setPair_aregs (s : State) (f : PairSt → PairSt) : (s.setPair f).aregs = s.aregs := rfl
@[simp] theorem State.setPair_time (s : State) (f : PairSt → PairSt) : (s.setPair f).time = s.time := rfl
@[simp] theorem State.setPair_agTime (s : State) (f : PairSt → PairSt) : (s.setPair f).agTime = s.agTime := rfl
@[simp] theorem State.setPair_ports (s : State) (f : PairSt → PairSt) : (s.setPair f).ports = s.ports := rfl
@[simp] theorem State.setPair_agPorts (s : State) (f : PairSt → PairSt) : (s.setPair f).agPorts = s.agPorts := rfl
@[simp] theorem State.setPair_replays (s : State) (f : PairSt → PairSt) : (s.setPair f).replays = s.replays := rfl
@[simp] theorem State.setPair_route (s : State) (f : PairSt → PairSt) : (s.setPair f).route = s.route := rfl
@[simp] theorem State.setPair_agRoute (s : State) (f : PairSt → PairSt) : (s.setPair f).agRoute = s.agRoute := rfl
@[simp] theorem State.setPair_ttbs (s : State) (f : PairSt → PairSt) : (s.setPair f).ttbs = s.ttbs := rfl
@[simp] theorem State.setPair_agents (s : State) (f : PairSt → PairSt) : (s.setPair f).agents = s.agents := rfl
@[simp] theorem State.setPair_insts (s : State) (f : PairSt → PairSt) : (s.setPair f).insts = s.insts := rfl
@[simp] theorem State.setPair_tile (s : State) (f : PairSt → PairSt) : (s.setPair f).tile = s.tile := rfl
@[simp] theorem State.setPair_hbm (s : State) (f : PairSt → PairSt) : (s.setPair f).hbm = s.hbm := rfl
@[simp] theorem State.setPair_ctxs (s : State) (f : PairSt → PairSt) : (s.setPair f).ctxs = s.ctxs := rfl
@[simp] theorem State.setPair_rot (s : State) (f : PairSt → PairSt) : (s.setPair f).rot = s.rot := rfl
@[simp] theorem State.setPair_beyjo (s : State) (f : PairSt → PairSt) : (s.setPair f).beyjo = s.beyjo := rfl
@[simp] theorem State.setPair_flt (s : State) (f : PairSt → PairSt) : (s.setPair f).flt = s.flt := rfl
@[simp] theorem State.setPair_agFlt (s : State) (f : PairSt → PairSt) : (s.setPair f).agFlt = s.agFlt := rfl
@[simp] theorem State.setPair_rst (s : State) (f : PairSt → PairSt) : (s.setPair f).rst = s.rst := rfl
@[simp] theorem State.setPair_pair (s : State) (f : PairSt → PairSt) : (s.setPair f).pair = f s.pair := rfl
@[simp] theorem State.setPair_boot (s : State) (f : PairSt → PairSt) : (s.setPair f).boot = s.boot := rfl
@[simp] theorem State.setPair_pwr (s : State) (f : PairSt → PairSt) : (s.setPair f).pwr = s.pwr := rfl
@[simp] theorem State.setPair_ag (s : State) (f : PairSt → PairSt) : (s.setPair f).ag = s.ag := rfl
@[simp] theorem State.setPair_out (s : State) (f : PairSt → PairSt) : (s.setPair f).out = s.out := rfl
@[simp] theorem State.setPair_freeCtr (s : State) (f : PairSt → PairSt) : (s.setPair f).freeCtr = s.freeCtr := rfl
@[simp] theorem State.setPair_pending (s : State) (f : PairSt → PairSt) : (s.setPair f).pending = s.pending := rfl
@[simp] theorem State.setPair_rd (s : State) (f : PairSt → PairSt) (g : Fld) : (s.setPair f).rd g = s.rd g := rfl
@[simp] theorem State.setPair_ard (s : State) (f : PairSt → PairSt) (g : Fld) : (s.setPair f).ard g = s.ard g := rfl

/-! ### setBoot -/

@[simp] theorem State.setBoot_regs (s : State) (f : BootSt → BootSt) : (s.setBoot f).regs = s.regs := rfl
@[simp] theorem State.setBoot_aregs (s : State) (f : BootSt → BootSt) : (s.setBoot f).aregs = s.aregs := rfl
@[simp] theorem State.setBoot_time (s : State) (f : BootSt → BootSt) : (s.setBoot f).time = s.time := rfl
@[simp] theorem State.setBoot_agTime (s : State) (f : BootSt → BootSt) : (s.setBoot f).agTime = s.agTime := rfl
@[simp] theorem State.setBoot_ports (s : State) (f : BootSt → BootSt) : (s.setBoot f).ports = s.ports := rfl
@[simp] theorem State.setBoot_agPorts (s : State) (f : BootSt → BootSt) : (s.setBoot f).agPorts = s.agPorts := rfl
@[simp] theorem State.setBoot_replays (s : State) (f : BootSt → BootSt) : (s.setBoot f).replays = s.replays := rfl
@[simp] theorem State.setBoot_route (s : State) (f : BootSt → BootSt) : (s.setBoot f).route = s.route := rfl
@[simp] theorem State.setBoot_agRoute (s : State) (f : BootSt → BootSt) : (s.setBoot f).agRoute = s.agRoute := rfl
@[simp] theorem State.setBoot_ttbs (s : State) (f : BootSt → BootSt) : (s.setBoot f).ttbs = s.ttbs := rfl
@[simp] theorem State.setBoot_agents (s : State) (f : BootSt → BootSt) : (s.setBoot f).agents = s.agents := rfl
@[simp] theorem State.setBoot_insts (s : State) (f : BootSt → BootSt) : (s.setBoot f).insts = s.insts := rfl
@[simp] theorem State.setBoot_tile (s : State) (f : BootSt → BootSt) : (s.setBoot f).tile = s.tile := rfl
@[simp] theorem State.setBoot_hbm (s : State) (f : BootSt → BootSt) : (s.setBoot f).hbm = s.hbm := rfl
@[simp] theorem State.setBoot_ctxs (s : State) (f : BootSt → BootSt) : (s.setBoot f).ctxs = s.ctxs := rfl
@[simp] theorem State.setBoot_rot (s : State) (f : BootSt → BootSt) : (s.setBoot f).rot = s.rot := rfl
@[simp] theorem State.setBoot_beyjo (s : State) (f : BootSt → BootSt) : (s.setBoot f).beyjo = s.beyjo := rfl
@[simp] theorem State.setBoot_flt (s : State) (f : BootSt → BootSt) : (s.setBoot f).flt = s.flt := rfl
@[simp] theorem State.setBoot_agFlt (s : State) (f : BootSt → BootSt) : (s.setBoot f).agFlt = s.agFlt := rfl
@[simp] theorem State.setBoot_rst (s : State) (f : BootSt → BootSt) : (s.setBoot f).rst = s.rst := rfl
@[simp] theorem State.setBoot_pair (s : State) (f : BootSt → BootSt) : (s.setBoot f).pair = s.pair := rfl
@[simp] theorem State.setBoot_boot (s : State) (f : BootSt → BootSt) : (s.setBoot f).boot = f s.boot := rfl
@[simp] theorem State.setBoot_pwr (s : State) (f : BootSt → BootSt) : (s.setBoot f).pwr = s.pwr := rfl
@[simp] theorem State.setBoot_ag (s : State) (f : BootSt → BootSt) : (s.setBoot f).ag = s.ag := rfl
@[simp] theorem State.setBoot_out (s : State) (f : BootSt → BootSt) : (s.setBoot f).out = s.out := rfl
@[simp] theorem State.setBoot_freeCtr (s : State) (f : BootSt → BootSt) : (s.setBoot f).freeCtr = s.freeCtr := rfl
@[simp] theorem State.setBoot_pending (s : State) (f : BootSt → BootSt) : (s.setBoot f).pending = s.pending := rfl
@[simp] theorem State.setBoot_rd (s : State) (f : BootSt → BootSt) (g : Fld) : (s.setBoot f).rd g = s.rd g := rfl
@[simp] theorem State.setBoot_ard (s : State) (f : BootSt → BootSt) (g : Fld) : (s.setBoot f).ard g = s.ard g := rfl

/-! ### setPwr -/

@[simp] theorem State.setPwr_regs (s : State) (f : PwrSt → PwrSt) : (s.setPwr f).regs = s.regs := rfl
@[simp] theorem State.setPwr_aregs (s : State) (f : PwrSt → PwrSt) : (s.setPwr f).aregs = s.aregs := rfl
@[simp] theorem State.setPwr_time (s : State) (f : PwrSt → PwrSt) : (s.setPwr f).time = s.time := rfl
@[simp] theorem State.setPwr_agTime (s : State) (f : PwrSt → PwrSt) : (s.setPwr f).agTime = s.agTime := rfl
@[simp] theorem State.setPwr_ports (s : State) (f : PwrSt → PwrSt) : (s.setPwr f).ports = s.ports := rfl
@[simp] theorem State.setPwr_agPorts (s : State) (f : PwrSt → PwrSt) : (s.setPwr f).agPorts = s.agPorts := rfl
@[simp] theorem State.setPwr_replays (s : State) (f : PwrSt → PwrSt) : (s.setPwr f).replays = s.replays := rfl
@[simp] theorem State.setPwr_route (s : State) (f : PwrSt → PwrSt) : (s.setPwr f).route = s.route := rfl
@[simp] theorem State.setPwr_agRoute (s : State) (f : PwrSt → PwrSt) : (s.setPwr f).agRoute = s.agRoute := rfl
@[simp] theorem State.setPwr_ttbs (s : State) (f : PwrSt → PwrSt) : (s.setPwr f).ttbs = s.ttbs := rfl
@[simp] theorem State.setPwr_agents (s : State) (f : PwrSt → PwrSt) : (s.setPwr f).agents = s.agents := rfl
@[simp] theorem State.setPwr_insts (s : State) (f : PwrSt → PwrSt) : (s.setPwr f).insts = s.insts := rfl
@[simp] theorem State.setPwr_tile (s : State) (f : PwrSt → PwrSt) : (s.setPwr f).tile = s.tile := rfl
@[simp] theorem State.setPwr_hbm (s : State) (f : PwrSt → PwrSt) : (s.setPwr f).hbm = s.hbm := rfl
@[simp] theorem State.setPwr_ctxs (s : State) (f : PwrSt → PwrSt) : (s.setPwr f).ctxs = s.ctxs := rfl
@[simp] theorem State.setPwr_rot (s : State) (f : PwrSt → PwrSt) : (s.setPwr f).rot = s.rot := rfl
@[simp] theorem State.setPwr_beyjo (s : State) (f : PwrSt → PwrSt) : (s.setPwr f).beyjo = s.beyjo := rfl
@[simp] theorem State.setPwr_flt (s : State) (f : PwrSt → PwrSt) : (s.setPwr f).flt = s.flt := rfl
@[simp] theorem State.setPwr_agFlt (s : State) (f : PwrSt → PwrSt) : (s.setPwr f).agFlt = s.agFlt := rfl
@[simp] theorem State.setPwr_rst (s : State) (f : PwrSt → PwrSt) : (s.setPwr f).rst = s.rst := rfl
@[simp] theorem State.setPwr_pair (s : State) (f : PwrSt → PwrSt) : (s.setPwr f).pair = s.pair := rfl
@[simp] theorem State.setPwr_boot (s : State) (f : PwrSt → PwrSt) : (s.setPwr f).boot = s.boot := rfl
@[simp] theorem State.setPwr_pwr (s : State) (f : PwrSt → PwrSt) : (s.setPwr f).pwr = f s.pwr := rfl
@[simp] theorem State.setPwr_ag (s : State) (f : PwrSt → PwrSt) : (s.setPwr f).ag = s.ag := rfl
@[simp] theorem State.setPwr_out (s : State) (f : PwrSt → PwrSt) : (s.setPwr f).out = s.out := rfl
@[simp] theorem State.setPwr_freeCtr (s : State) (f : PwrSt → PwrSt) : (s.setPwr f).freeCtr = s.freeCtr := rfl
@[simp] theorem State.setPwr_pending (s : State) (f : PwrSt → PwrSt) : (s.setPwr f).pending = s.pending := rfl
@[simp] theorem State.setPwr_rd (s : State) (f : PwrSt → PwrSt) (g : Fld) : (s.setPwr f).rd g = s.rd g := rfl
@[simp] theorem State.setPwr_ard (s : State) (f : PwrSt → PwrSt) (g : Fld) : (s.setPwr f).ard g = s.ard g := rfl

/-! ### setAg -/

@[simp] theorem State.setAg_regs (s : State) (f : AgSt → AgSt) : (s.setAg f).regs = s.regs := rfl
@[simp] theorem State.setAg_aregs (s : State) (f : AgSt → AgSt) : (s.setAg f).aregs = s.aregs := rfl
@[simp] theorem State.setAg_time (s : State) (f : AgSt → AgSt) : (s.setAg f).time = s.time := rfl
@[simp] theorem State.setAg_agTime (s : State) (f : AgSt → AgSt) : (s.setAg f).agTime = s.agTime := rfl
@[simp] theorem State.setAg_ports (s : State) (f : AgSt → AgSt) : (s.setAg f).ports = s.ports := rfl
@[simp] theorem State.setAg_agPorts (s : State) (f : AgSt → AgSt) : (s.setAg f).agPorts = s.agPorts := rfl
@[simp] theorem State.setAg_replays (s : State) (f : AgSt → AgSt) : (s.setAg f).replays = s.replays := rfl
@[simp] theorem State.setAg_route (s : State) (f : AgSt → AgSt) : (s.setAg f).route = s.route := rfl
@[simp] theorem State.setAg_agRoute (s : State) (f : AgSt → AgSt) : (s.setAg f).agRoute = s.agRoute := rfl
@[simp] theorem State.setAg_ttbs (s : State) (f : AgSt → AgSt) : (s.setAg f).ttbs = s.ttbs := rfl
@[simp] theorem State.setAg_agents (s : State) (f : AgSt → AgSt) : (s.setAg f).agents = s.agents := rfl
@[simp] theorem State.setAg_insts (s : State) (f : AgSt → AgSt) : (s.setAg f).insts = s.insts := rfl
@[simp] theorem State.setAg_tile (s : State) (f : AgSt → AgSt) : (s.setAg f).tile = s.tile := rfl
@[simp] theorem State.setAg_hbm (s : State) (f : AgSt → AgSt) : (s.setAg f).hbm = s.hbm := rfl
@[simp] theorem State.setAg_ctxs (s : State) (f : AgSt → AgSt) : (s.setAg f).ctxs = s.ctxs := rfl
@[simp] theorem State.setAg_rot (s : State) (f : AgSt → AgSt) : (s.setAg f).rot = s.rot := rfl
@[simp] theorem State.setAg_beyjo (s : State) (f : AgSt → AgSt) : (s.setAg f).beyjo = s.beyjo := rfl
@[simp] theorem State.setAg_flt (s : State) (f : AgSt → AgSt) : (s.setAg f).flt = s.flt := rfl
@[simp] theorem State.setAg_agFlt (s : State) (f : AgSt → AgSt) : (s.setAg f).agFlt = s.agFlt := rfl
@[simp] theorem State.setAg_rst (s : State) (f : AgSt → AgSt) : (s.setAg f).rst = s.rst := rfl
@[simp] theorem State.setAg_pair (s : State) (f : AgSt → AgSt) : (s.setAg f).pair = s.pair := rfl
@[simp] theorem State.setAg_boot (s : State) (f : AgSt → AgSt) : (s.setAg f).boot = s.boot := rfl
@[simp] theorem State.setAg_pwr (s : State) (f : AgSt → AgSt) : (s.setAg f).pwr = s.pwr := rfl
@[simp] theorem State.setAg_ag (s : State) (f : AgSt → AgSt) : (s.setAg f).ag = f s.ag := rfl
@[simp] theorem State.setAg_out (s : State) (f : AgSt → AgSt) : (s.setAg f).out = s.out := rfl
@[simp] theorem State.setAg_freeCtr (s : State) (f : AgSt → AgSt) : (s.setAg f).freeCtr = s.freeCtr := rfl
@[simp] theorem State.setAg_pending (s : State) (f : AgSt → AgSt) : (s.setAg f).pending = s.pending := rfl
@[simp] theorem State.setAg_rd (s : State) (f : AgSt → AgSt) (g : Fld) : (s.setAg f).rd g = s.rd g := rfl
@[simp] theorem State.setAg_ard (s : State) (f : AgSt → AgSt) (g : Fld) : (s.setAg f).ard g = s.ard g := rfl

/-! ### setCtx -/

@[simp] theorem State.setCtx_regs (s : State) (c : Nat) (f : CtxSt → CtxSt) : (s.setCtx c f).regs = s.regs := rfl
@[simp] theorem State.setCtx_aregs (s : State) (c : Nat) (f : CtxSt → CtxSt) : (s.setCtx c f).aregs = s.aregs := rfl
@[simp] theorem State.setCtx_time (s : State) (c : Nat) (f : CtxSt → CtxSt) : (s.setCtx c f).time = s.time := rfl
@[simp] theorem State.setCtx_agTime (s : State) (c : Nat) (f : CtxSt → CtxSt) : (s.setCtx c f).agTime = s.agTime := rfl
@[simp] theorem State.setCtx_ports (s : State) (c : Nat) (f : CtxSt → CtxSt) : (s.setCtx c f).ports = s.ports := rfl
@[simp] theorem State.setCtx_agPorts (s : State) (c : Nat) (f : CtxSt → CtxSt) : (s.setCtx c f).agPorts = s.agPorts := rfl
@[simp] theorem State.setCtx_replays (s : State) (c : Nat) (f : CtxSt → CtxSt) : (s.setCtx c f).replays = s.replays := rfl
@[simp] theorem State.setCtx_route (s : State) (c : Nat) (f : CtxSt → CtxSt) : (s.setCtx c f).route = s.route := rfl
@[simp] theorem State.setCtx_agRoute (s : State) (c : Nat) (f : CtxSt → CtxSt) : (s.setCtx c f).agRoute = s.agRoute := rfl
@[simp] theorem State.setCtx_ttbs (s : State) (c : Nat) (f : CtxSt → CtxSt) : (s.setCtx c f).ttbs = s.ttbs := rfl
@[simp] theorem State.setCtx_agents (s : State) (c : Nat) (f : CtxSt → CtxSt) : (s.setCtx c f).agents = s.agents := rfl
@[simp] theorem State.setCtx_insts (s : State) (c : Nat) (f : CtxSt → CtxSt) : (s.setCtx c f).insts = s.insts := rfl
@[simp] theorem State.setCtx_tile (s : State) (c : Nat) (f : CtxSt → CtxSt) : (s.setCtx c f).tile = s.tile := rfl
@[simp] theorem State.setCtx_hbm (s : State) (c : Nat) (f : CtxSt → CtxSt) : (s.setCtx c f).hbm = s.hbm := rfl
@[simp] theorem State.setCtx_ctxs (s : State) (c : Nat) (f : CtxSt → CtxSt) : (s.setCtx c f).ctxs = s.ctxs.modify c f := rfl
@[simp] theorem State.setCtx_rot (s : State) (c : Nat) (f : CtxSt → CtxSt) : (s.setCtx c f).rot = s.rot := rfl
@[simp] theorem State.setCtx_beyjo (s : State) (c : Nat) (f : CtxSt → CtxSt) : (s.setCtx c f).beyjo = s.beyjo := rfl
@[simp] theorem State.setCtx_flt (s : State) (c : Nat) (f : CtxSt → CtxSt) : (s.setCtx c f).flt = s.flt := rfl
@[simp] theorem State.setCtx_agFlt (s : State) (c : Nat) (f : CtxSt → CtxSt) : (s.setCtx c f).agFlt = s.agFlt := rfl
@[simp] theorem State.setCtx_rst (s : State) (c : Nat) (f : CtxSt → CtxSt) : (s.setCtx c f).rst = s.rst := rfl
@[simp] theorem State.setCtx_pair (s : State) (c : Nat) (f : CtxSt → CtxSt) : (s.setCtx c f).pair = s.pair := rfl
@[simp] theorem State.setCtx_boot (s : State) (c : Nat) (f : CtxSt → CtxSt) : (s.setCtx c f).boot = s.boot := rfl
@[simp] theorem State.setCtx_pwr (s : State) (c : Nat) (f : CtxSt → CtxSt) : (s.setCtx c f).pwr = s.pwr := rfl
@[simp] theorem State.setCtx_ag (s : State) (c : Nat) (f : CtxSt → CtxSt) : (s.setCtx c f).ag = s.ag := rfl
@[simp] theorem State.setCtx_out (s : State) (c : Nat) (f : CtxSt → CtxSt) : (s.setCtx c f).out = s.out := rfl
@[simp] theorem State.setCtx_freeCtr (s : State) (c : Nat) (f : CtxSt → CtxSt) : (s.setCtx c f).freeCtr = s.freeCtr := rfl
@[simp] theorem State.setCtx_pending (s : State) (c : Nat) (f : CtxSt → CtxSt) : (s.setCtx c f).pending = s.pending := rfl
@[simp] theorem State.setCtx_rd (s : State) (c : Nat) (f : CtxSt → CtxSt) (g : Fld) : (s.setCtx c f).rd g = s.rd g := rfl
@[simp] theorem State.setCtx_ard (s : State) (c : Nat) (f : CtxSt → CtxSt) (g : Fld) : (s.setCtx c f).ard g = s.ard g := rfl

/-! ### setTtb -/

@[simp] theorem State.setTtb_regs (s : State) (c : Nat) (f : TtbSt → TtbSt) : (s.setTtb c f).regs = s.regs := rfl
@[simp] theorem State.setTtb_aregs (s : State) (c : Nat) (f : TtbSt → TtbSt) : (s.setTtb c f).aregs = s.aregs := rfl
@[simp] theorem State.setTtb_time (s : State) (c : Nat) (f : TtbSt → TtbSt) : (s.setTtb c f).time = s.time := rfl
@[simp] theorem State.setTtb_agTime (s : State) (c : Nat) (f : TtbSt → TtbSt) : (s.setTtb c f).agTime = s.agTime := rfl
@[simp] theorem State.setTtb_ports (s : State) (c : Nat) (f : TtbSt → TtbSt) : (s.setTtb c f).ports = s.ports := rfl
@[simp] theorem State.setTtb_agPorts (s : State) (c : Nat) (f : TtbSt → TtbSt) : (s.setTtb c f).agPorts = s.agPorts := rfl
@[simp] theorem State.setTtb_replays (s : State) (c : Nat) (f : TtbSt → TtbSt) : (s.setTtb c f).replays = s.replays := rfl
@[simp] theorem State.setTtb_route (s : State) (c : Nat) (f : TtbSt → TtbSt) : (s.setTtb c f).route = s.route := rfl
@[simp] theorem State.setTtb_agRoute (s : State) (c : Nat) (f : TtbSt → TtbSt) : (s.setTtb c f).agRoute = s.agRoute := rfl
@[simp] theorem State.setTtb_ttbs (s : State) (c : Nat) (f : TtbSt → TtbSt) : (s.setTtb c f).ttbs = s.ttbs.modify c f := rfl
@[simp] theorem State.setTtb_agents (s : State) (c : Nat) (f : TtbSt → TtbSt) : (s.setTtb c f).agents = s.agents := rfl
@[simp] theorem State.setTtb_insts (s : State) (c : Nat) (f : TtbSt → TtbSt) : (s.setTtb c f).insts = s.insts := rfl
@[simp] theorem State.setTtb_tile (s : State) (c : Nat) (f : TtbSt → TtbSt) : (s.setTtb c f).tile = s.tile := rfl
@[simp] theorem State.setTtb_hbm (s : State) (c : Nat) (f : TtbSt → TtbSt) : (s.setTtb c f).hbm = s.hbm := rfl
@[simp] theorem State.setTtb_ctxs (s : State) (c : Nat) (f : TtbSt → TtbSt) : (s.setTtb c f).ctxs = s.ctxs := rfl
@[simp] theorem State.setTtb_rot (s : State) (c : Nat) (f : TtbSt → TtbSt) : (s.setTtb c f).rot = s.rot := rfl
@[simp] theorem State.setTtb_beyjo (s : State) (c : Nat) (f : TtbSt → TtbSt) : (s.setTtb c f).beyjo = s.beyjo := rfl
@[simp] theorem State.setTtb_flt (s : State) (c : Nat) (f : TtbSt → TtbSt) : (s.setTtb c f).flt = s.flt := rfl
@[simp] theorem State.setTtb_agFlt (s : State) (c : Nat) (f : TtbSt → TtbSt) : (s.setTtb c f).agFlt = s.agFlt := rfl
@[simp] theorem State.setTtb_rst (s : State) (c : Nat) (f : TtbSt → TtbSt) : (s.setTtb c f).rst = s.rst := rfl
@[simp] theorem State.setTtb_pair (s : State) (c : Nat) (f : TtbSt → TtbSt) : (s.setTtb c f).pair = s.pair := rfl
@[simp] theorem State.setTtb_boot (s : State) (c : Nat) (f : TtbSt → TtbSt) : (s.setTtb c f).boot = s.boot := rfl
@[simp] theorem State.setTtb_pwr (s : State) (c : Nat) (f : TtbSt → TtbSt) : (s.setTtb c f).pwr = s.pwr := rfl
@[simp] theorem State.setTtb_ag (s : State) (c : Nat) (f : TtbSt → TtbSt) : (s.setTtb c f).ag = s.ag := rfl
@[simp] theorem State.setTtb_out (s : State) (c : Nat) (f : TtbSt → TtbSt) : (s.setTtb c f).out = s.out := rfl
@[simp] theorem State.setTtb_freeCtr (s : State) (c : Nat) (f : TtbSt → TtbSt) : (s.setTtb c f).freeCtr = s.freeCtr := rfl
@[simp] theorem State.setTtb_pending (s : State) (c : Nat) (f : TtbSt → TtbSt) : (s.setTtb c f).pending = s.pending := rfl
@[simp] theorem State.setTtb_rd (s : State) (c : Nat) (f : TtbSt → TtbSt) (g : Fld) : (s.setTtb c f).rd g = s.rd g := rfl
@[simp] theorem State.setTtb_ard (s : State) (c : Nat) (f : TtbSt → TtbSt) (g : Fld) : (s.setTtb c f).ard g = s.ard g := rfl

/-! ### setInst -/

@[simp] theorem State.setInst_regs (s : State) (c x : Nat) (f : Instance → Instance) : (s.setInst c x f).regs = s.regs := rfl
@[simp] theorem State.setInst_aregs (s : State) (c x : Nat) (f : Instance → Instance) : (s.setInst c x f).aregs = s.aregs := rfl
@[simp] theorem State.setInst_time (s : State) (c x : Nat) (f : Instance → Instance) : (s.setInst c x f).time = s.time := rfl
@[simp] theorem State.setInst_agTime (s : State) (c x : Nat) (f : Instance → Instance) : (s.setInst c x f).agTime = s.agTime := rfl
@[simp] theorem State.setInst_ports (s : State) (c x : Nat) (f : Instance → Instance) : (s.setInst c x f).ports = s.ports := rfl
@[simp] theorem State.setInst_agPorts (s : State) (c x : Nat) (f : Instance → Instance) : (s.setInst c x f).agPorts = s.agPorts := rfl
@[simp] theorem State.setInst_replays (s : State) (c x : Nat) (f : Instance → Instance) : (s.setInst c x f).replays = s.replays := rfl
@[simp] theorem State.setInst_route (s : State) (c x : Nat) (f : Instance → Instance) : (s.setInst c x f).route = s.route := rfl
@[simp] theorem State.setInst_agRoute (s : State) (c x : Nat) (f : Instance → Instance) : (s.setInst c x f).agRoute = s.agRoute := rfl
@[simp] theorem State.setInst_ttbs (s : State) (c x : Nat) (f : Instance → Instance) : (s.setInst c x f).ttbs = s.ttbs := rfl
@[simp] theorem State.setInst_agents (s : State) (c x : Nat) (f : Instance → Instance) : (s.setInst c x f).agents = s.agents := rfl
@[simp] theorem State.setInst_insts (s : State) (c x : Nat) (f : Instance → Instance) : (s.setInst c x f).insts = s.insts.map fun i => if i.ctx == c && i.xid == x then f i else i := rfl
@[simp] theorem State.setInst_tile (s : State) (c x : Nat) (f : Instance → Instance) : (s.setInst c x f).tile = s.tile := rfl
@[simp] theorem State.setInst_hbm (s : State) (c x : Nat) (f : Instance → Instance) : (s.setInst c x f).hbm = s.hbm := rfl
@[simp] theorem State.setInst_ctxs (s : State) (c x : Nat) (f : Instance → Instance) : (s.setInst c x f).ctxs = s.ctxs := rfl
@[simp] theorem State.setInst_rot (s : State) (c x : Nat) (f : Instance → Instance) : (s.setInst c x f).rot = s.rot := rfl
@[simp] theorem State.setInst_beyjo (s : State) (c x : Nat) (f : Instance → Instance) : (s.setInst c x f).beyjo = s.beyjo := rfl
@[simp] theorem State.setInst_flt (s : State) (c x : Nat) (f : Instance → Instance) : (s.setInst c x f).flt = s.flt := rfl
@[simp] theorem State.setInst_agFlt (s : State) (c x : Nat) (f : Instance → Instance) : (s.setInst c x f).agFlt = s.agFlt := rfl
@[simp] theorem State.setInst_rst (s : State) (c x : Nat) (f : Instance → Instance) : (s.setInst c x f).rst = s.rst := rfl
@[simp] theorem State.setInst_pair (s : State) (c x : Nat) (f : Instance → Instance) : (s.setInst c x f).pair = s.pair := rfl
@[simp] theorem State.setInst_boot (s : State) (c x : Nat) (f : Instance → Instance) : (s.setInst c x f).boot = s.boot := rfl
@[simp] theorem State.setInst_pwr (s : State) (c x : Nat) (f : Instance → Instance) : (s.setInst c x f).pwr = s.pwr := rfl
@[simp] theorem State.setInst_ag (s : State) (c x : Nat) (f : Instance → Instance) : (s.setInst c x f).ag = s.ag := rfl
@[simp] theorem State.setInst_out (s : State) (c x : Nat) (f : Instance → Instance) : (s.setInst c x f).out = s.out := rfl
@[simp] theorem State.setInst_freeCtr (s : State) (c x : Nat) (f : Instance → Instance) : (s.setInst c x f).freeCtr = s.freeCtr := rfl
@[simp] theorem State.setInst_pending (s : State) (c x : Nat) (f : Instance → Instance) : (s.setInst c x f).pending = s.pending := rfl
@[simp] theorem State.setInst_rd (s : State) (c x : Nat) (f : Instance → Instance) (g : Fld) : (s.setInst c x f).rd g = s.rd g := rfl
@[simp] theorem State.setInst_ard (s : State) (c x : Nat) (f : Instance → Instance) (g : Fld) : (s.setInst c x f).ard g = s.ard g := rfl

/-! ### emit -/

@[simp] theorem State.emit_regs (s : State) (m : Msg) : (s.emit m).regs = s.regs := rfl
@[simp] theorem State.emit_aregs (s : State) (m : Msg) : (s.emit m).aregs = s.aregs := rfl
@[simp] theorem State.emit_time (s : State) (m : Msg) : (s.emit m).time = s.time := rfl
@[simp] theorem State.emit_agTime (s : State) (m : Msg) : (s.emit m).agTime = s.agTime := rfl
@[simp] theorem State.emit_ports (s : State) (m : Msg) : (s.emit m).ports = s.ports := rfl
@[simp] theorem State.emit_agPorts (s : State) (m : Msg) : (s.emit m).agPorts = s.agPorts := rfl
@[simp] theorem State.emit_replays (s : State) (m : Msg) : (s.emit m).replays = s.replays := rfl
@[simp] theorem State.emit_route (s : State) (m : Msg) : (s.emit m).route = s.route := rfl
@[simp] theorem State.emit_agRoute (s : State) (m : Msg) : (s.emit m).agRoute = s.agRoute := rfl
@[simp] theorem State.emit_ttbs (s : State) (m : Msg) : (s.emit m).ttbs = s.ttbs := rfl
@[simp] theorem State.emit_agents (s : State) (m : Msg) : (s.emit m).agents = s.agents := rfl
@[simp] theorem State.emit_insts (s : State) (m : Msg) : (s.emit m).insts = s.insts := rfl
@[simp] theorem State.emit_tile (s : State) (m : Msg) : (s.emit m).tile = s.tile := rfl
@[simp] theorem State.emit_hbm (s : State) (m : Msg) : (s.emit m).hbm = s.hbm := rfl
@[simp] theorem State.emit_ctxs (s : State) (m : Msg) : (s.emit m).ctxs = s.ctxs := rfl
@[simp] theorem State.emit_rot (s : State) (m : Msg) : (s.emit m).rot = s.rot := rfl
@[simp] theorem State.emit_beyjo (s : State) (m : Msg) : (s.emit m).beyjo = s.beyjo := rfl
@[simp] theorem State.emit_flt (s : State) (m : Msg) : (s.emit m).flt = s.flt := rfl
@[simp] theorem State.emit_agFlt (s : State) (m : Msg) : (s.emit m).agFlt = s.agFlt := rfl
@[simp] theorem State.emit_rst (s : State) (m : Msg) : (s.emit m).rst = s.rst := rfl
@[simp] theorem State.emit_pair (s : State) (m : Msg) : (s.emit m).pair = s.pair := rfl
@[simp] theorem State.emit_boot (s : State) (m : Msg) : (s.emit m).boot = s.boot := rfl
@[simp] theorem State.emit_pwr (s : State) (m : Msg) : (s.emit m).pwr = s.pwr := rfl
@[simp] theorem State.emit_ag (s : State) (m : Msg) : (s.emit m).ag = s.ag := rfl
@[simp] theorem State.emit_out (s : State) (m : Msg) : (s.emit m).out = s.out ++ [m] := rfl
@[simp] theorem State.emit_freeCtr (s : State) (m : Msg) : (s.emit m).freeCtr = s.freeCtr := rfl
@[simp] theorem State.emit_pending (s : State) (m : Msg) : (s.emit m).pending = s.pending := rfl
@[simp] theorem State.emit_rd (s : State) (m : Msg) (g : Fld) : (s.emit m).rd g = s.rd g := rfl
@[simp] theorem State.emit_ard (s : State) (m : Msg) (g : Fld) : (s.emit m).ard g = s.ard g := rfl

/-! ### emits -/

@[simp] theorem State.emits_regs (s : State) (ms : List Msg) : (s.emits ms).regs = s.regs := rfl
@[simp] theorem State.emits_aregs (s : State) (ms : List Msg) : (s.emits ms).aregs = s.aregs := rfl
@[simp] theorem State.emits_time (s : State) (ms : List Msg) : (s.emits ms).time = s.time := rfl
@[simp] theorem State.emits_agTime (s : State) (ms : List Msg) : (s.emits ms).agTime = s.agTime := rfl
@[simp] theorem State.emits_ports (s : State) (ms : List Msg) : (s.emits ms).ports = s.ports := rfl
@[simp] theorem State.emits_agPorts (s : State) (ms : List Msg) : (s.emits ms).agPorts = s.agPorts := rfl
@[simp] theorem State.emits_replays (s : State) (ms : List Msg) : (s.emits ms).replays = s.replays := rfl
@[simp] theorem State.emits_route (s : State) (ms : List Msg) : (s.emits ms).route = s.route := rfl
@[simp] theorem State.emits_agRoute (s : State) (ms : List Msg) : (s.emits ms).agRoute = s.agRoute := rfl
@[simp] theorem State.emits_ttbs (s : State) (ms : List Msg) : (s.emits ms).ttbs = s.ttbs := rfl
@[simp] theorem State.emits_agents (s : State) (ms : List Msg) : (s.emits ms).agents = s.agents := rfl
@[simp] theorem State.emits_insts (s : State) (ms : List Msg) : (s.emits ms).insts = s.insts := rfl
@[simp] theorem State.emits_tile (s : State) (ms : List Msg) : (s.emits ms).tile = s.tile := rfl
@[simp] theorem State.emits_hbm (s : State) (ms : List Msg) : (s.emits ms).hbm = s.hbm := rfl
@[simp] theorem State.emits_ctxs (s : State) (ms : List Msg) : (s.emits ms).ctxs = s.ctxs := rfl
@[simp] theorem State.emits_rot (s : State) (ms : List Msg) : (s.emits ms).rot = s.rot := rfl
@[simp] theorem State.emits_beyjo (s : State) (ms : List Msg) : (s.emits ms).beyjo = s.beyjo := rfl
@[simp] theorem State.emits_flt (s : State) (ms : List Msg) : (s.emits ms).flt = s.flt := rfl
@[simp] theorem State.emits_agFlt (s : State) (ms : List Msg) : (s.emits ms).agFlt = s.agFlt := rfl
@[simp] theorem State.emits_rst (s : State) (ms : List Msg) : (s.emits ms).rst = s.rst := rfl
@[simp] theorem State.emits_pair (s : State) (ms : List Msg) : (s.emits ms).pair = s.pair := rfl
@[simp] theorem State.emits_boot (s : State) (ms : List Msg) : (s.emits ms).boot = s.boot := rfl
@[simp] theorem State.emits_pwr (s : State) (ms : List Msg) : (s.emits ms).pwr = s.pwr := rfl
@[simp] theorem State.emits_ag (s : State) (ms : List Msg) : (s.emits ms).ag = s.ag := rfl
@[simp] theorem State.emits_out (s : State) (ms : List Msg) : (s.emits ms).out = s.out ++ ms := rfl
@[simp] theorem State.emits_freeCtr (s : State) (ms : List Msg) : (s.emits ms).freeCtr = s.freeCtr := rfl
@[simp] theorem State.emits_pending (s : State) (ms : List Msg) : (s.emits ms).pending = s.pending := rfl
@[simp] theorem State.emits_rd (s : State) (ms : List Msg) (g : Fld) : (s.emits ms).rd g = s.rd g := rfl
@[simp] theorem State.emits_ard (s : State) (ms : List Msg) (g : Fld) : (s.emits ms).ard g = s.ard g := rfl

/-! ### The fault collectors and the ports of the two devices -/

@[simp] theorem State.setFlt_dz8_regs (s : State) (f : FltSt → FltSt) : (s.setFlt .dz8 f).regs = s.regs := rfl
@[simp] theorem State.setFlt_dz8_aregs (s : State) (f : FltSt → FltSt) : (s.setFlt .dz8 f).aregs = s.aregs := rfl
@[simp] theorem State.setFlt_dz8_time (s : State) (f : FltSt → FltSt) : (s.setFlt .dz8 f).time = s.time := rfl
@[simp] theorem State.setFlt_dz8_agTime (s : State) (f : FltSt → FltSt) : (s.setFlt .dz8 f).agTime = s.agTime := rfl
@[simp] theorem State.setFlt_dz8_ports (s : State) (f : FltSt → FltSt) : (s.setFlt .dz8 f).ports = s.ports := rfl
@[simp] theorem State.setFlt_dz8_agPorts (s : State) (f : FltSt → FltSt) : (s.setFlt .dz8 f).agPorts = s.agPorts := rfl
@[simp] theorem State.setFlt_dz8_replays (s : State) (f : FltSt → FltSt) : (s.setFlt .dz8 f).replays = s.replays := rfl
@[simp] theorem State.setFlt_dz8_route (s : State) (f : FltSt → FltSt) : (s.setFlt .dz8 f).route = s.route := rfl
@[simp] theorem State.setFlt_dz8_agRoute (s : State) (f : FltSt → FltSt) : (s.setFlt .dz8 f).agRoute = s.agRoute := rfl
@[simp] theorem State.setFlt_dz8_ttbs (s : State) (f : FltSt → FltSt) : (s.setFlt .dz8 f).ttbs = s.ttbs := rfl
@[simp] theorem State.setFlt_dz8_agents (s : State) (f : FltSt → FltSt) : (s.setFlt .dz8 f).agents = s.agents := rfl
@[simp] theorem State.setFlt_dz8_insts (s : State) (f : FltSt → FltSt) : (s.setFlt .dz8 f).insts = s.insts := rfl
@[simp] theorem State.setFlt_dz8_tile (s : State) (f : FltSt → FltSt) : (s.setFlt .dz8 f).tile = s.tile := rfl
@[simp] theorem State.setFlt_dz8_hbm (s : State) (f : FltSt → FltSt) : (s.setFlt .dz8 f).hbm = s.hbm := rfl
@[simp] theorem State.setFlt_dz8_ctxs (s : State) (f : FltSt → FltSt) : (s.setFlt .dz8 f).ctxs = s.ctxs := rfl
@[simp] theorem State.setFlt_dz8_rot (s : State) (f : FltSt → FltSt) : (s.setFlt .dz8 f).rot = s.rot := rfl
@[simp] theorem State.setFlt_dz8_beyjo (s : State) (f : FltSt → FltSt) : (s.setFlt .dz8 f).beyjo = s.beyjo := rfl
@[simp] theorem State.setFlt_dz8_flt (s : State) (f : FltSt → FltSt) : (s.setFlt .dz8 f).flt = f s.flt := rfl
@[simp] theorem State.setFlt_dz8_agFlt (s : State) (f : FltSt → FltSt) : (s.setFlt .dz8 f).agFlt = s.agFlt := rfl
@[simp] theorem State.setFlt_dz8_rst (s : State) (f : FltSt → FltSt) : (s.setFlt .dz8 f).rst = s.rst := rfl
@[simp] theorem State.setFlt_dz8_pair (s : State) (f : FltSt → FltSt) : (s.setFlt .dz8 f).pair = s.pair := rfl
@[simp] theorem State.setFlt_dz8_boot (s : State) (f : FltSt → FltSt) : (s.setFlt .dz8 f).boot = s.boot := rfl
@[simp] theorem State.setFlt_dz8_pwr (s : State) (f : FltSt → FltSt) : (s.setFlt .dz8 f).pwr = s.pwr := rfl
@[simp] theorem State.setFlt_dz8_ag (s : State) (f : FltSt → FltSt) : (s.setFlt .dz8 f).ag = s.ag := rfl
@[simp] theorem State.setFlt_dz8_out (s : State) (f : FltSt → FltSt) : (s.setFlt .dz8 f).out = s.out := rfl
@[simp] theorem State.setFlt_dz8_freeCtr (s : State) (f : FltSt → FltSt) : (s.setFlt .dz8 f).freeCtr = s.freeCtr := rfl
@[simp] theorem State.setFlt_dz8_pending (s : State) (f : FltSt → FltSt) : (s.setFlt .dz8 f).pending = s.pending := rfl
@[simp] theorem State.setFlt_agent_regs (s : State) (f : FltSt → FltSt) : (s.setFlt .agent f).regs = s.regs := rfl
@[simp] theorem State.setFlt_agent_aregs (s : State) (f : FltSt → FltSt) : (s.setFlt .agent f).aregs = s.aregs := rfl
@[simp] theorem State.setFlt_agent_time (s : State) (f : FltSt → FltSt) : (s.setFlt .agent f).time = s.time := rfl
@[simp] theorem State.setFlt_agent_agTime (s : State) (f : FltSt → FltSt) : (s.setFlt .agent f).agTime = s.agTime := rfl
@[simp] theorem State.setFlt_agent_ports (s : State) (f : FltSt → FltSt) : (s.setFlt .agent f).ports = s.ports := rfl
@[simp] theorem State.setFlt_agent_agPorts (s : State) (f : FltSt → FltSt) : (s.setFlt .agent f).agPorts = s.agPorts := rfl
@[simp] theorem State.setFlt_agent_replays (s : State) (f : FltSt → FltSt) : (s.setFlt .agent f).replays = s.replays := rfl
@[simp] theorem State.setFlt_agent_route (s : State) (f : FltSt → FltSt) : (s.setFlt .agent f).route = s.route := rfl
@[simp] theorem State.setFlt_agent_agRoute (s : State) (f : FltSt → FltSt) : (s.setFlt .agent f).agRoute = s.agRoute := rfl
@[simp] theorem State.setFlt_agent_ttbs (s : State) (f : FltSt → FltSt) : (s.setFlt .agent f).ttbs = s.ttbs := rfl
@[simp] theorem State.setFlt_agent_agents (s : State) (f : FltSt → FltSt) : (s.setFlt .agent f).agents = s.agents := rfl
@[simp] theorem State.setFlt_agent_insts (s : State) (f : FltSt → FltSt) : (s.setFlt .agent f).insts = s.insts := rfl
@[simp] theorem State.setFlt_agent_tile (s : State) (f : FltSt → FltSt) : (s.setFlt .agent f).tile = s.tile := rfl
@[simp] theorem State.setFlt_agent_hbm (s : State) (f : FltSt → FltSt) : (s.setFlt .agent f).hbm = s.hbm := rfl
@[simp] theorem State.setFlt_agent_ctxs (s : State) (f : FltSt → FltSt) : (s.setFlt .agent f).ctxs = s.ctxs := rfl
@[simp] theorem State.setFlt_agent_rot (s : State) (f : FltSt → FltSt) : (s.setFlt .agent f).rot = s.rot := rfl
@[simp] theorem State.setFlt_agent_beyjo (s : State) (f : FltSt → FltSt) : (s.setFlt .agent f).beyjo = s.beyjo := rfl
@[simp] theorem State.setFlt_agent_flt (s : State) (f : FltSt → FltSt) : (s.setFlt .agent f).flt = s.flt := rfl
@[simp] theorem State.setFlt_agent_agFlt (s : State) (f : FltSt → FltSt) : (s.setFlt .agent f).agFlt = f s.agFlt := rfl
@[simp] theorem State.setFlt_agent_rst (s : State) (f : FltSt → FltSt) : (s.setFlt .agent f).rst = s.rst := rfl
@[simp] theorem State.setFlt_agent_pair (s : State) (f : FltSt → FltSt) : (s.setFlt .agent f).pair = s.pair := rfl
@[simp] theorem State.setFlt_agent_boot (s : State) (f : FltSt → FltSt) : (s.setFlt .agent f).boot = s.boot := rfl
@[simp] theorem State.setFlt_agent_pwr (s : State) (f : FltSt → FltSt) : (s.setFlt .agent f).pwr = s.pwr := rfl
@[simp] theorem State.setFlt_agent_ag (s : State) (f : FltSt → FltSt) : (s.setFlt .agent f).ag = s.ag := rfl
@[simp] theorem State.setFlt_agent_out (s : State) (f : FltSt → FltSt) : (s.setFlt .agent f).out = s.out := rfl
@[simp] theorem State.setFlt_agent_freeCtr (s : State) (f : FltSt → FltSt) : (s.setFlt .agent f).freeCtr = s.freeCtr := rfl
@[simp] theorem State.setFlt_agent_pending (s : State) (f : FltSt → FltSt) : (s.setFlt .agent f).pending = s.pending := rfl
@[simp] theorem State.setFlt_rd (s : State) (d : Site) (f : FltSt → FltSt) (g : Fld) : (s.setFlt d f).rd g = s.rd g := by cases d <;> rfl
@[simp] theorem State.setFlt_ard (s : State) (d : Site) (f : FltSt → FltSt) (g : Fld) : (s.setFlt d f).ard g = s.ard g := by cases d <;> rfl

@[simp] theorem State.setPort_dz8_regs (s : State) (p : Nat) (f : PortSt → PortSt) : (s.setPort .dz8 p f).regs = s.regs := rfl
@[simp] theorem State.setPort_dz8_aregs (s : State) (p : Nat) (f : PortSt → PortSt) : (s.setPort .dz8 p f).aregs = s.aregs := rfl
@[simp] theorem State.setPort_dz8_time (s : State) (p : Nat) (f : PortSt → PortSt) : (s.setPort .dz8 p f).time = s.time := rfl
@[simp] theorem State.setPort_dz8_agTime (s : State) (p : Nat) (f : PortSt → PortSt) : (s.setPort .dz8 p f).agTime = s.agTime := rfl
@[simp] theorem State.setPort_dz8_ports (s : State) (p : Nat) (f : PortSt → PortSt) : (s.setPort .dz8 p f).ports = s.ports.modify p f := rfl
@[simp] theorem State.setPort_dz8_agPorts (s : State) (p : Nat) (f : PortSt → PortSt) : (s.setPort .dz8 p f).agPorts = s.agPorts := rfl
@[simp] theorem State.setPort_dz8_replays (s : State) (p : Nat) (f : PortSt → PortSt) : (s.setPort .dz8 p f).replays = s.replays := rfl
@[simp] theorem State.setPort_dz8_route (s : State) (p : Nat) (f : PortSt → PortSt) : (s.setPort .dz8 p f).route = s.route := rfl
@[simp] theorem State.setPort_dz8_agRoute (s : State) (p : Nat) (f : PortSt → PortSt) : (s.setPort .dz8 p f).agRoute = s.agRoute := rfl
@[simp] theorem State.setPort_dz8_ttbs (s : State) (p : Nat) (f : PortSt → PortSt) : (s.setPort .dz8 p f).ttbs = s.ttbs := rfl
@[simp] theorem State.setPort_dz8_agents (s : State) (p : Nat) (f : PortSt → PortSt) : (s.setPort .dz8 p f).agents = s.agents := rfl
@[simp] theorem State.setPort_dz8_insts (s : State) (p : Nat) (f : PortSt → PortSt) : (s.setPort .dz8 p f).insts = s.insts := rfl
@[simp] theorem State.setPort_dz8_tile (s : State) (p : Nat) (f : PortSt → PortSt) : (s.setPort .dz8 p f).tile = s.tile := rfl
@[simp] theorem State.setPort_dz8_hbm (s : State) (p : Nat) (f : PortSt → PortSt) : (s.setPort .dz8 p f).hbm = s.hbm := rfl
@[simp] theorem State.setPort_dz8_ctxs (s : State) (p : Nat) (f : PortSt → PortSt) : (s.setPort .dz8 p f).ctxs = s.ctxs := rfl
@[simp] theorem State.setPort_dz8_rot (s : State) (p : Nat) (f : PortSt → PortSt) : (s.setPort .dz8 p f).rot = s.rot := rfl
@[simp] theorem State.setPort_dz8_beyjo (s : State) (p : Nat) (f : PortSt → PortSt) : (s.setPort .dz8 p f).beyjo = s.beyjo := rfl
@[simp] theorem State.setPort_dz8_flt (s : State) (p : Nat) (f : PortSt → PortSt) : (s.setPort .dz8 p f).flt = s.flt := rfl
@[simp] theorem State.setPort_dz8_agFlt (s : State) (p : Nat) (f : PortSt → PortSt) : (s.setPort .dz8 p f).agFlt = s.agFlt := rfl
@[simp] theorem State.setPort_dz8_rst (s : State) (p : Nat) (f : PortSt → PortSt) : (s.setPort .dz8 p f).rst = s.rst := rfl
@[simp] theorem State.setPort_dz8_pair (s : State) (p : Nat) (f : PortSt → PortSt) : (s.setPort .dz8 p f).pair = s.pair := rfl
@[simp] theorem State.setPort_dz8_boot (s : State) (p : Nat) (f : PortSt → PortSt) : (s.setPort .dz8 p f).boot = s.boot := rfl
@[simp] theorem State.setPort_dz8_pwr (s : State) (p : Nat) (f : PortSt → PortSt) : (s.setPort .dz8 p f).pwr = s.pwr := rfl
@[simp] theorem State.setPort_dz8_ag (s : State) (p : Nat) (f : PortSt → PortSt) : (s.setPort .dz8 p f).ag = s.ag := rfl
@[simp] theorem State.setPort_dz8_out (s : State) (p : Nat) (f : PortSt → PortSt) : (s.setPort .dz8 p f).out = s.out := rfl
@[simp] theorem State.setPort_dz8_freeCtr (s : State) (p : Nat) (f : PortSt → PortSt) : (s.setPort .dz8 p f).freeCtr = s.freeCtr := rfl
@[simp] theorem State.setPort_dz8_pending (s : State) (p : Nat) (f : PortSt → PortSt) : (s.setPort .dz8 p f).pending = s.pending := rfl
@[simp] theorem State.setPort_agent_regs (s : State) (p : Nat) (f : PortSt → PortSt) : (s.setPort .agent p f).regs = s.regs := rfl
@[simp] theorem State.setPort_agent_aregs (s : State) (p : Nat) (f : PortSt → PortSt) : (s.setPort .agent p f).aregs = s.aregs := rfl
@[simp] theorem State.setPort_agent_time (s : State) (p : Nat) (f : PortSt → PortSt) : (s.setPort .agent p f).time = s.time := rfl
@[simp] theorem State.setPort_agent_agTime (s : State) (p : Nat) (f : PortSt → PortSt) : (s.setPort .agent p f).agTime = s.agTime := rfl
@[simp] theorem State.setPort_agent_ports (s : State) (p : Nat) (f : PortSt → PortSt) : (s.setPort .agent p f).ports = s.ports := rfl
@[simp] theorem State.setPort_agent_agPorts (s : State) (p : Nat) (f : PortSt → PortSt) : (s.setPort .agent p f).agPorts = s.agPorts.modify p f := rfl
@[simp] theorem State.setPort_agent_replays (s : State) (p : Nat) (f : PortSt → PortSt) : (s.setPort .agent p f).replays = s.replays := rfl
@[simp] theorem State.setPort_agent_route (s : State) (p : Nat) (f : PortSt → PortSt) : (s.setPort .agent p f).route = s.route := rfl
@[simp] theorem State.setPort_agent_agRoute (s : State) (p : Nat) (f : PortSt → PortSt) : (s.setPort .agent p f).agRoute = s.agRoute := rfl
@[simp] theorem State.setPort_agent_ttbs (s : State) (p : Nat) (f : PortSt → PortSt) : (s.setPort .agent p f).ttbs = s.ttbs := rfl
@[simp] theorem State.setPort_agent_agents (s : State) (p : Nat) (f : PortSt → PortSt) : (s.setPort .agent p f).agents = s.agents := rfl
@[simp] theorem State.setPort_agent_insts (s : State) (p : Nat) (f : PortSt → PortSt) : (s.setPort .agent p f).insts = s.insts := rfl
@[simp] theorem State.setPort_agent_tile (s : State) (p : Nat) (f : PortSt → PortSt) : (s.setPort .agent p f).tile = s.tile := rfl
@[simp] theorem State.setPort_agent_hbm (s : State) (p : Nat) (f : PortSt → PortSt) : (s.setPort .agent p f).hbm = s.hbm := rfl
@[simp] theorem State.setPort_agent_ctxs (s : State) (p : Nat) (f : PortSt → PortSt) : (s.setPort .agent p f).ctxs = s.ctxs := rfl
@[simp] theorem State.setPort_agent_rot (s : State) (p : Nat) (f : PortSt → PortSt) : (s.setPort .agent p f).rot = s.rot := rfl
@[simp] theorem State.setPort_agent_beyjo (s : State) (p : Nat) (f : PortSt → PortSt) : (s.setPort .agent p f).beyjo = s.beyjo := rfl
@[simp] theorem State.setPort_agent_flt (s : State) (p : Nat) (f : PortSt → PortSt) : (s.setPort .agent p f).flt = s.flt := rfl
@[simp] theorem State.setPort_agent_agFlt (s : State) (p : Nat) (f : PortSt → PortSt) : (s.setPort .agent p f).agFlt = s.agFlt := rfl
@[simp] theorem State.setPort_agent_rst (s : State) (p : Nat) (f : PortSt → PortSt) : (s.setPort .agent p f).rst = s.rst := rfl
@[simp] theorem State.setPort_agent_pair (s : State) (p : Nat) (f : PortSt → PortSt) : (s.setPort .agent p f).pair = s.pair := rfl
@[simp] theorem State.setPort_agent_boot (s : State) (p : Nat) (f : PortSt → PortSt) : (s.setPort .agent p f).boot = s.boot := rfl
@[simp] theorem State.setPort_agent_pwr (s : State) (p : Nat) (f : PortSt → PortSt) : (s.setPort .agent p f).pwr = s.pwr := rfl
@[simp] theorem State.setPort_agent_ag (s : State) (p : Nat) (f : PortSt → PortSt) : (s.setPort .agent p f).ag = s.ag := rfl
@[simp] theorem State.setPort_agent_out (s : State) (p : Nat) (f : PortSt → PortSt) : (s.setPort .agent p f).out = s.out := rfl
@[simp] theorem State.setPort_agent_freeCtr (s : State) (p : Nat) (f : PortSt → PortSt) : (s.setPort .agent p f).freeCtr = s.freeCtr := rfl
@[simp] theorem State.setPort_agent_pending (s : State) (p : Nat) (f : PortSt → PortSt) : (s.setPort .agent p f).pending = s.pending := rfl
@[simp] theorem State.setPort_rd (s : State) (d : Site) (p : Nat) (f : PortSt → PortSt) (g : Fld) : (s.setPort d p f).rd g = s.rd g := by cases d <;> rfl
@[simp] theorem State.setPort_ard (s : State) (d : Site) (p : Nat) (f : PortSt → PortSt) (g : Fld) : (s.setPort d p f).ard g = s.ard g := by cases d <;> rfl

end Sys2Proof.Machine
end

