-- ==== Sys2Proof/Laws/Ops.lean ====
section
/-! SUPPORT. What the shared operations do to registers: the frames `RegsBut` and `AregsBut`, counters, NOTIFY records, detections and
closing sessions; and what `Within` says of each part. -/

namespace Sys2Proof.Machine

/-! ### The parts that `Within` leaves alone -/

theorem Within.regs_eq {A : List Area} {s t : State} (h : Within A s t) (n : Area.regs ∉ A) : t.regs = s.regs := h.same .regs n
theorem Within.aregs_eq {A : List Area} {s t : State} (h : Within A s t) (n : Area.aregs ∉ A) : t.aregs = s.aregs := h.same .aregs n
theorem Within.time_eq {A : List Area} {s t : State} (h : Within A s t) (n : Area.time ∉ A) : t.time = s.time := h.same .time n
theorem Within.agTime_eq {A : List Area} {s t : State} (h : Within A s t) (n : Area.agTime ∉ A) : t.agTime = s.agTime := h.same .agTime n
theorem Within.ports_eq {A : List Area} {s t : State} (h : Within A s t) (n : Area.ports ∉ A) : t.ports = s.ports := h.same .ports n
theorem Within.agPorts_eq {A : List Area} {s t : State} (h : Within A s t) (n : Area.agPorts ∉ A) : t.agPorts = s.agPorts := h.same .agPorts n
theorem Within.replays_eq {A : List Area} {s t : State} (h : Within A s t) (n : Area.replays ∉ A) : t.replays = s.replays := h.same .replays n
theorem Within.route_eq {A : List Area} {s t : State} (h : Within A s t) (n : Area.route ∉ A) : t.route = s.route := h.same .route n
theorem Within.agRoute_eq {A : List Area} {s t : State} (h : Within A s t) (n : Area.agRoute ∉ A) : t.agRoute = s.agRoute := h.same .agRoute n
theorem Within.ttbs_eq {A : List Area} {s t : State} (h : Within A s t) (n : Area.ttbs ∉ A) : t.ttbs = s.ttbs := h.same .ttbs n
theorem Within.agents_eq {A : List Area} {s t : State} (h : Within A s t) (n : Area.agents ∉ A) : t.agents = s.agents := h.same .agents n
theorem Within.insts_eq {A : List Area} {s t : State} (h : Within A s t) (n : Area.insts ∉ A) : t.insts = s.insts := h.same .insts n
theorem Within.tile_eq {A : List Area} {s t : State} (h : Within A s t) (n : Area.tile ∉ A) : t.tile = s.tile := h.same .tile n
theorem Within.hbm_eq {A : List Area} {s t : State} (h : Within A s t) (n : Area.hbm ∉ A) : t.hbm = s.hbm := h.same .hbm n
theorem Within.ctxs_eq {A : List Area} {s t : State} (h : Within A s t) (n : Area.ctxs ∉ A) : t.ctxs = s.ctxs := h.same .ctxs n
theorem Within.rot_eq {A : List Area} {s t : State} (h : Within A s t) (n : Area.rot ∉ A) : t.rot = s.rot := h.same .rot n
theorem Within.beyjo_eq {A : List Area} {s t : State} (h : Within A s t) (n : Area.beyjo ∉ A) : t.beyjo = s.beyjo := h.same .beyjo n
theorem Within.flt_eq {A : List Area} {s t : State} (h : Within A s t) (n : Area.flt ∉ A) : t.flt = s.flt := h.same .flt n
theorem Within.agFlt_eq {A : List Area} {s t : State} (h : Within A s t) (n : Area.agFlt ∉ A) : t.agFlt = s.agFlt := h.same .agFlt n
theorem Within.rst_eq {A : List Area} {s t : State} (h : Within A s t) (n : Area.rst ∉ A) : t.rst = s.rst := h.same .rst n
theorem Within.pair_eq {A : List Area} {s t : State} (h : Within A s t) (n : Area.pair ∉ A) : t.pair = s.pair := h.same .pair n
theorem Within.boot_eq {A : List Area} {s t : State} (h : Within A s t) (n : Area.boot ∉ A) : t.boot = s.boot := h.same .boot n
theorem Within.pwr_eq {A : List Area} {s t : State} (h : Within A s t) (n : Area.pwr ∉ A) : t.pwr = s.pwr := h.same .pwr n
theorem Within.ag_eq {A : List Area} {s t : State} (h : Within A s t) (n : Area.ag ∉ A) : t.ag = s.ag := h.same .ag n
theorem Within.out_eq {A : List Area} {s t : State} (h : Within A s t) (n : Area.out ∉ A) : t.out = s.out := h.same .out n
theorem Within.freeCtr_eq {A : List Area} {s t : State} (h : Within A s t) (n : Area.freeCtr ∉ A) : t.freeCtr = s.freeCtr := h.same .freeCtr n

/-! ### Register frames -/

@[simp] theorem RegsBut.refl (fs : List Fld) (s : State) : RegsBut fs s s := fun _ _ => rfl
@[simp] theorem AregsBut.refl (fs : List Fld) (s : State) : AregsBut fs s s := fun _ _ => rfl

theorem RegsBut.trans {fs : List Fld} {s t u : State} (h : RegsBut fs s t) (g : RegsBut fs t u) : RegsBut fs s u :=
  fun f hf => (g f hf).trans (h f hf)

theorem AregsBut.trans {fs : List Fld} {s t u : State} (h : AregsBut fs s t) (g : AregsBut fs t u) : AregsBut fs s u :=
  fun f hf => (g f hf).trans (h f hf)

theorem RegsBut.mono {fs gs : List Fld} {s t : State} (h : RegsBut fs s t) (g : ∀ f ∈ fs, f ∈ gs) : RegsBut gs s t :=
  fun f hf => h f fun k hk => hf k (g k hk)

theorem AregsBut.mono {fs gs : List Fld} {s t : State} (h : AregsBut fs s t) (g : ∀ f ∈ fs, f ∈ gs) : AregsBut gs s t :=
  fun f hf => h f fun k hk => hf k (g k hk)

/-- Equal register stores read alike. -/
theorem RegsBut.of_regs {fs : List Fld} {s t : State} (h : t.regs = s.regs) : RegsBut fs s t := fun f _ => by simp only [State.rd, h]

theorem AregsBut.of_aregs {fs : List Fld} {s t : State} (h : t.aregs = s.aregs) : AregsBut fs s t := fun f _ => by simp only [State.ard, h]

/-- A frame goes on through a write of one of its fields. -/
theorem RegsBut.wr {fs : List Fld} {s t : State} (h : RegsBut fs s t) {f : Fld} (m : f ∈ fs) (v : Nat) : RegsBut fs s (t.wr f v) :=
  fun g hg => (State.rd_wr_other t (hg f m) v).trans (h g hg)

theorem AregsBut.awr {fs : List Fld} {s t : State} (h : AregsBut fs s t) {f : Fld} (m : f ∈ fs) (v : Nat) : AregsBut fs s (t.awr f v) :=
  fun g hg => (State.ard_awr_other t (hg f m) v).trans (h g hg)

/-! ### Counters -/

@[simp] theorem State.rd_bump_same (s : State) (f : Fld) (n : Nat) : (s.bump f n).rd f = (s.rd f + n) % 2 ^ f.w := State.rd_wr_same ..
theorem State.rd_bump_other (s : State) {f g : Fld} (h : g.key ≠ f.key) (n : Nat) : (s.bump f n).rd g = s.rd g := State.rd_wr_other s h _
@[simp] theorem State.ard_abump_same (s : State) (f : Fld) (n : Nat) : (s.abump f n).ard f = (s.ard f + n) % 2 ^ f.w := State.ard_awr_same ..
theorem State.ard_abump_other (s : State) {f g : Fld} (h : g.key ≠ f.key) (n : Nat) : (s.abump f n).ard g = s.ard g :=
  State.ard_awr_other s h _

theorem RegsBut.bump {fs : List Fld} {s t : State} (h : RegsBut fs s t) {f : Fld} (m : f ∈ fs) (n : Nat) : RegsBut fs s (t.bump f n) := h.wr m _
theorem AregsBut.abump {fs : List Fld} {s t : State} (h : AregsBut fs s t) {f : Fld} (m : f ∈ fs) (n : Nat) : AregsBut fs s (t.abump f n) :=
  h.awr m _

/-! ### NOTIFY records -/

/-- A NOTIFY record reaches, of the unit's registers, the lost count alone. -/
theorem State.queueFor_regsBut (s : State) (p : Sess → Bool) (r : Sess → NRec) : RegsBut [BYJ_NOTIFY_LOST] s (s.queueFor p r) := by
  intro g hg
  unfold State.queueFor
  rw [State.rd_bump_other _ (hg _ (List.mem_singleton_self _))]
  rfl

theorem State.notify_regsBut (s : State) (t c : Nat) (ws : List Nat) : RegsBut [BYJ_NOTIFY_LOST] s (s.notify t c ws) :=
  State.queueFor_regsBut s _ _

theorem State.notifyTime_regsBut (s : State) : RegsBut [BYJ_NOTIFY_LOST] s s.notifyTime := State.queueFor_regsBut s _ _

theorem State.rd_notify (s : State) {g : Fld} (h : g.key ≠ BYJ_NOTIFY_LOST.key) (t c : Nat) (ws : List Nat) :
    (s.notify t c ws).rd g = s.rd g :=
  State.notify_regsBut s t c ws g fun f hf => by simp only [List.mem_singleton] at hf; rw [hf]; exact h

theorem State.rd_notifyTime (s : State) {g : Fld} (h : g.key ≠ BYJ_NOTIFY_LOST.key) : s.notifyTime.rd g = s.rd g :=
  State.notifyTime_regsBut s g fun f hf => by simp only [List.mem_singleton] at hf; rw [hf]; exact h

/-! ### Detections -/

/-- A detection reaches the two fault collectors alone (R360, R364). -/
theorem State.detect_frame (s : State) (d : Site) (pg det detail : Nat) (ctx : Option Nat) :
    Within [.flt, .agFlt] s (s.detect d pg det detail ctx) :=
  State.detect_within (by simp) (by simp) d pg det detail ctx (Within.refl _ s)

@[simp] theorem State.detect_regs (s : State) (d : Site) (pg det detail : Nat) (ctx : Option Nat) :
    (s.detect d pg det detail ctx).regs = s.regs := (s.detect_frame d pg det detail ctx).regs_eq (by decide)
@[simp] theorem State.detect_aregs (s : State) (d : Site) (pg det detail : Nat) (ctx : Option Nat) :
    (s.detect d pg det detail ctx).aregs = s.aregs := (s.detect_frame d pg det detail ctx).aregs_eq (by decide)
@[simp] theorem State.detect_out (s : State) (d : Site) (pg det detail : Nat) (ctx : Option Nat) :
    (s.detect d pg det detail ctx).out = s.out := (s.detect_frame d pg det detail ctx).out_eq (by decide)
@[simp] theorem State.rd_detect (s : State) (d : Site) (pg det detail : Nat) (ctx : Option Nat) (f : Fld) :
    (s.detect d pg det detail ctx).rd f = s.rd f := by simp only [State.rd, State.detect_regs]
@[simp] theorem State.ard_detect (s : State) (d : Site) (pg det detail : Nat) (ctx : Option Nat) (f : Fld) :
    (s.detect d pg det detail ctx).ard f = s.ard f := by simp only [State.ard, State.detect_aregs]

/-! ### Ports and contexts -/

/-- The port that was updated reads as the update of what it was; without effect on a port the device has not. -/
theorem State.port_setPort_same (s : State) (d : Site) (p : Nat) (f : PortSt → PortSt) (h : p < (s.portsS d).length) :
    (s.setPort d p f).port d p = f (s.port d p) := by
  cases d <;> simp_all [State.port, State.setPort, List.getD_eq_getElem?_getD]

/-- Other ports stay as they were. -/
theorem State.port_setPort_other (s : State) (d : Site) {p q : Nat} (h : q ≠ p) (f : PortSt → PortSt) :
    (s.setPort d p f).port d q = s.port d q := by
  cases d <;> simp [State.port, State.setPort, List.getD_eq_getElem?_getD, Ne.symm h]

theorem State.ctx_setCtx_same (s : State) (c : Nat) (f : CtxSt → CtxSt) (h : c < s.ctxs.length) : (s.setCtx c f).ctx c = f (s.ctx c) := by
  simp_all [State.ctx, State.setCtx, List.getD_eq_getElem?_getD]

theorem State.ctx_setCtx_other (s : State) {c e : Nat} (h : e ≠ c) (f : CtxSt → CtxSt) : (s.setCtx c f).ctx e = s.ctx e := by
  simp [State.ctx, State.setCtx, List.getD_eq_getElem?_getD, Ne.symm h]

theorem State.ttb_setTtb_same (s : State) (c : Nat) (f : TtbSt → TtbSt) (h : c < s.ttbs.length) : (s.setTtb c f).ttb c = f (s.ttb c) := by
  simp_all [State.ttb, State.setTtb, List.getD_eq_getElem?_getD]

theorem State.ttb_setTtb_other (s : State) {c e : Nat} (h : e ≠ c) (f : TtbSt → TtbSt) : (s.setTtb c f).ttb e = s.ttb e := by
  simp [State.ttb, State.setTtb, List.getD_eq_getElem?_getD, Ne.symm h]

end Sys2Proof.Machine
end

