-- ==== Sys2Proof/WellFormed.lean ====
section
/-! DEFINITION. Well-formed commands: every operand lies in the range that its field or its part of the machine has. -/

namespace Sys2Proof

/-- A context number (R266). -/
def ctxOk (c : Nat) : Bool := decide (c < 16)
/-- A context number, if any (R356). -/
def optCtxOk (c : Option Nat) : Bool := match c with | some c => ctxOk c | none => true
/-- A port of the unit (R19) or of the agent (R465): 96, and at most 64. -/
def portOk (site : Site) (p : Nat) : Bool := match site with | .dz8 => decide (p < 96) | .agent => decide (p < 64)
/-- One of two parts of a kind: C-dies, X-dies, halves of a seed, domains of a host-chip reset. -/
def twoOk (n : Nat) : Bool := decide (n < 2)
/-- A C-die, or an X-die of a dead-letter ring (R15). -/
def cdieOk (d : Nat) : Bool := twoOk d
/-- A die of the package (R15). -/
def dieOk (d : Nat) : Bool := decide (d < 8)
/-- A DIE field of a source or a reset: a die, or 0xF for the package (R355). -/
def dieCodeOk (d : Nat) : Bool := dieOk d || d == 15
/-- A virtual channel (R61), a reset domain (R393), an optimizer set (R252). -/
def fourOk (n : Nat) : Bool := decide (n < 4)
/-- A KEY_ID (R298), an ENGINE line (R489). -/
def eightOk (n : Nat) : Bool := decide (n < 8)
/-- A logical and a physical tile of a C-die (R210). -/
def tileOk (n : Nat) : Bool := decide (n < 64)
def physOk (n : Nat) : Bool := decide (n < 68)
/-- An M-die (R15) and a stack of one (R239). -/
def mdieOk (m : Nat) : Bool := fourOk m
def stackOk (n : Nat) : Bool := decide (n < 6)
/-- A LID (R266), an XID (R155), an FID (R17) and a domain (R17). -/
def lidOk (l : Nat) : Bool := decide (l < 2 ^ 12)
def xidOk (x : Nat) : Bool := decide (x < 2 ^ 15)
def fidOk (f : Nat) : Bool := decide (f < 2 ^ 14)
def domainOk (d : Nat) : Bool := decide (d < 64)
/-- Fields of 8, 16 and 32 bits. -/
def byteOk (n : Nat) : Bool := decide (n < 2 ^ 8)
def halfOk (n : Nat) : Bool := decide (n < 2 ^ 16)
def wordOk (n : Nat) : Bool := decide (n < 2 ^ 32)
/-- A session index (R325), a slot and a word of a mail slot (R338), a slot of certificates (R293). -/
def indexOk (i : Nat) : Bool := decide (i < 64)
def slotOk (n : Nat) : Bool := decide (n < 16)
def spdmSlotOk (n : Nat) : Bool := byteOk n
/-- A region: one of the five of a context, or one of the two of the system (R245). -/
def regionOk (c k : Nat) : Bool := (ctxOk c && decide (k < 5)) || (c == 16 && twoOk k)
/-- A register of an optimizer set (R252), a tamper cause (R314), a board rail (R518), a Dovetail edge (R16). -/
def regOk (n : Nat) : Bool := decide (n < 5)
def causeOk (n : Nat) : Bool := decide (n < 5)
def railOk (n : Nat) : Bool := decide (n < 12)
def edgeOk (n : Nat) : Bool := decide (n < 10)
/-- A local address and an address of an operation (R496). -/
def localOk (a : Nat) : Bool := wordOk a
def addressOk (a : Nat) : Bool := decide (a < 2 ^ 64)
/-- A PERIOD_NS field (R38). -/
def periodOk (p : Nat) : Bool := decide (p < 2 ^ 14)

/-- The words of a descriptor: eight, the fields R215 does not list 0. -/
def descWordsOk : List Word → Bool
  | [w0, w1, w2, w3, w4, _, _, w7] =>
    w0 &&& 0xF0000000000#64 == 0 && w1 &&& 0x3FFFFFFF00000000#64 == 0 && w2 &&& 0x3FFFFFFF00000000#64 == 0 &&
    w3 &&& 0x3FFFFFFF00000000#64 == 0 && w4 &&& 0xFFFF#64 == 0 && w7 &&& 0xFFFFFFFFFFFFFF#64 == 0
  | _ => false

/-- A cell: each field in its width, six payload words (R60 to R62). -/
def cellOk (c : Cell) : Bool :=
  fidOk c.dst && fidOk c.src && fourOk c.vc && decide (c.type < 64) && decide (c.gen < 16) && decide (c.epoch < 16) && halfOk c.seq &&
  decide (c.flags < 16) && wordOk c.offset && halfOk c.cidx && halfOk c.crc && c.payload.length == 6

/-- Operations of a REQUEST: 1 to 64, each with the fields of R333 and the words that its opcode carries. -/
def opOk (op : BOp) : Bool :=
  byteOk op.opcode && halfOk op.count && addressOk op.address &&
    op.words.length == (if op.opcode = 2 then op.count else if op.opcode = 4 then 1 else 0)
def opsOk (ops : List BOp) : Bool := !ops.isEmpty && decide (ops.length ≤ 64) && ops.all opOk

/-- The operands of a command are in range. -/
def wellFormed : Instr → Bool
  | .registerWrite addr _ => localOk addr
  | .tmkEnableWrite _ => true
  | .tmkStep => true
  | .counterStep => true
  | .tmkPeriodNextWrite _ periodNs => periodOk periodNs
  | .periodAnnounceBegin => true
  | .periodChange => true
  | .ppsEdge _ _ _ => true
  | .ptpSync domain _ _ _ _ => byteOk domain
  | .ptpAnnounce domain _ => byteOk domain
  | .ppsMissing => true
  | .cadenceRefLoss => true
  | .syncTimeout => true
  | .xdomUnsafe => true
  | .slewCorrection => true
  | .todAdvance => true
  | .beatBoundary _ => true
  | .beatWord site port _ _ arrival => portOk site port && decide (arrival.bofs < 128)
  | .beatWordMiss => true
  | .orphanEntry => true
  | .orphanReportRepeat => true
  | .codeword site port cw => portOk site port && cw.symbols.length == 544 && cw.symbols.all fun x => decide (x < 1024)
  | .creditWord site port _ => portOk site port
  | .sentWord site port _ => portOk site port
  | .probeWord site port _ _ => portOk site port
  | .probeReplyWord site port _ _ => portOk site port
  | .identWord site port _ => portOk site port
  | .periodWord site port _ => portOk site port
  | .frameTag site port _ _ _ => portOk site port
  | .trainStageDone site port _ => portOk site port
  | .trainStageTimeout site port => portOk site port
  | .trainRetry site port => portOk site port
  | .unpark site port => portOk site port
  | .retrain site port => portOk site port
  | .portDisable site port _ => portOk site port
  | .noCorrectableCodeword site port => portOk site port
  | .electricalIdleDetect site port => portOk site port
  | .cellSend site port vc => portOk site port && fourOk vc
  | .cellForward site port cell => portOk site port && cellOk cell
  | .escapeThreshold site port vc _ => portOk site port && fourOk vc
  | .dovetailNak sender group cell => edgeOk sender.edge && decide (group < 16) && cellOk cell
  | .linkKeyChange site port => portOk site port
  | .putCell site port cell => portOk site port && cellOk cell
  | .resultCell site port cell => portOk site port && cellOk cell
  | .contribCell port cell => portOk .dz8 port && cellOk cell
  | .mrspCell cell => cellOk cell
  | .mgmtTimeout seq => halfOk seq
  | .mgmtRetry seq => halfOk seq
  | .routeCompute => true
  | .rteCheck => true
  | .rteStart _ => true
  | .rteAbort => true
  | .flipPrepareDone => true
  | .prepTimeout => true
  | .quietEntry _ => true
  | .pollRound _ => true
  | .flipRecordConfirm => true
  | .commitCell site port cell => portOk site port && cellOk cell
  | .abortCell site port cell => portOk site port && cellOk cell
  | .flipBeat _ => true
  | .flipResume _ => true
  | .commitResend _ => true
  | .flipFallback => true
  | .fallbackRetry => true
  | .safeStateEntry => true
  | .ttbCheck ctx => ctxOk ctx
  | .ttbCheckDone ctx => ctxOk ctx
  | .ttbArm ctx => ctxOk ctx
  | .armDeadline ctx _ => ctxOk ctx
  | .armStart _ ctx => ctxOk ctx
  | .ttbStop ctx => ctxOk ctx
  | .ttbDisarm ctx => ctxOk ctx
  | .ttbVoid ctx => ctxOk ctx
  | .ttbUnload ctx => ctxOk ctx
  | .stepBoundary _ ctx => ctxOk ctx
  | .instanceOpen ctx => ctxOk ctx
  | .exchangeDeadlineCheck ctx xid => ctxOk ctx && xidOk xid
  | .counterDeadlineCheck cidx => halfOk cidx
  | .stepmissCell cell => cellOk cell
  | .voidSend ctx => ctxOk ctx
  | .voidRepeat ctx => ctxOk ctx
  | .voidCell _ cell => cellOk cell
  | .voidConfirmRound ctx _ => ctxOk ctx
  | .rollback _ ctx => ctxOk ctx
  | .restartBeat _ ctx => ctxOk ctx
  | .stepCommit _ ctx => ctxOk ctx
  | .cmapCollect ctx _ => ctxOk ctx
  | .cmapClear ctx => ctxOk ctx
  | .energyWindow _ => true
  | .instanceReady ctx xid => ctxOk ctx && xidOk xid
  | .resultSend ctx entry => ctxOk ctx && wordOk entry
  | .branchTransfer ctx xid => ctxOk ctx && xidOk xid
  | .routeCombineStage1 ctx xid => ctxOk ctx && xidOk xid
  | .engineError ctx xid cls place =>
      ctxOk ctx && xidOk xid && byteOk cls && dieOk place.die && place.codec.all fun x => byteOk x.1 && byteOk x.2
  | .blockDecode ctx xid fid _ _ => ctxOk ctx && xidOk xid && fidOk fid
  | .blockEncode ctx xid _ _ => ctxOk ctx && xidOk xid
  | .cdcTestGo die => cdieOk die
  | .cdcTestDone die => cdieOk die
  | .cdcGenGo die => cdieOk die
  | .cdcGenDone die => cdieOk die
  | .descriptorStart die tile ctx xid index words =>
    cdieOk die && tileOk tile && ctxOk ctx && xidOk xid && decide (index < 1024) && descWordsOk words
  | .descriptorEnd die tile => cdieOk die && tileOk tile
  | .sequencerError die tile cls => cdieOk die && tileOk tile && byteOk cls
  | .tileFail die phys cls => cdieOk die && physOk phys && byteOk cls
  | .tileSwap die _ => cdieOk die
  | .engineSwitch die tile ctx => cdieOk die && tileOk tile && ctxOk ctx
  | .engineSwitchDone die tile _ _ => cdieOk die && tileOk tile
  | .bankPromote die => cdieOk die
  | .syncWindowAccess die _ _ => cdieOk die
  | .syncCollideRepeat die => cdieOk die
  | .sramUncorrectable die addr _ => cdieOk die && localOk addr
  | .shelfDenied die => cdieOk die
  | .shelfWipe die => cdieOk die
  | .shelfWipeDone die => cdieOk die
  | .pghRetain die => cdieOk die
  | .pghWake die => cdieOk die
  | .pghWakeDone die => cdieOk die
  | .pghAllocWrite die ctx _ => cdieOk die && ctxOk ctx
  | .pghWinAccess ctx _ _ => ctxOk ctx
  | .stackTrainAttempt mdie stack _ _ _ => mdieOk mdie && stackOk stack
  | .stackErrorPoll _ => true
  | .sectorTagFail mdie _ _ _ => mdieOk mdie
  | .vltFillGo ctx => ctxOk ctx
  | .vltFillDone ctx => ctxOk ctx
  | .vltRegWrite ctx k _ => regionOk ctx k
  | .vltOptlayoutWrite ctx _ => ctxOk ctx
  | .vltOptSetWrite ctx set reg _ => ctxOk ctx && fourOk set && regOk reg
  | .vltWinAccess ctx _ _ => ctxOk ctx
  | .mergeBlockComplete ctx xid _ => ctxOk ctx && xidOk xid
  | .selfRefreshEntry => true
  | .ctxAssign ctx => ctxOk ctx
  | .ctxRelease ctx => ctxOk ctx
  | .releaseDrained ctx => ctxOk ctx
  | .releaseScrubDone ctx _ => ctxOk ctx
  | .cryptoEraseDone ctx _ => ctxOk ctx
  | .releaseComplete ctx => ctxOk ctx
  | .ctxBind index ctx _ => indexOk index && ctxOk ctx
  | .ctxSeedWrite ctx half _ => ctxOk ctx && twoOk half
  | .ctxMapWrite ctx _ => ctxOk ctx
  | .getVersion sess => wordOk sess
  | .getCapabilities sess => wordOk sess
  | .negotiateAlgorithms sess _ => wordOk sess
  | .getDigests sess => wordOk sess
  | .getCertificate sess slot _ _ => wordOk sess && spdmSlotOk slot
  | .challenge sess slot _ => wordOk sess && spdmSlotOk slot
  | .getMeasurements sess index _ => wordOk sess && byteOk index
  | .keyExchange id _ => wordOk id
  | .finish sess _ => wordOk sess
  | .heartbeat sess => wordOk sess
  | .keyUpdate sess => wordOk sess
  | .endSession sess => wordOk sess
  | .chunkSend sess _ _ _ _ => wordOk sess
  | .chunkGet sess _ _ => wordOk sess
  | .getEncapsulatedRequest sess => wordOk sess
  | .deliverEncapsulatedResponse sess _ _ => wordOk sess
  | .spdmUnsupported sess code => wordOk sess && byteOk code
  | .spdmSessionTimeout sess => wordOk sess
  | .admitSess sess => wordOk sess
  | .setCredential sess role ctx _ => wordOk sess && byteOk role && byteOk ctx
  | .keyRelease sess _ => wordOk sess
  | .keyRevoke sess ctx keyId => wordOk sess && ctxOk ctx && eightOk keyId
  | .vaultImport sess _ => wordOk sess
  | .deliver sess ctx keyId _ _ => wordOk sess && ctxOk ctx && eightOk keyId
  | .keyStatus sess ctx => wordOk sess && ctxOk ctx
  | .akCertSigned _ => true
  | .guardianReport die _ serial _ => dieOk die && wordOk serial
  | .guardianReportMissing die => dieOk die
  | .evidenceMessage _ _ => true
  | .evidenceTimeout ctx keyId lid => ctxOk ctx && eightOk keyId && lidOk lid
  | .evidenceResetRetry ctx keyId lid => ctxOk ctx && eightOk keyId && lidOk lid
  | .keywrapConfirmTimeout ctx keyId lid => ctxOk ctx && eightOk keyId && lidOk lid
  | .keyRedeliver ctx lid => ctxOk ctx && lidOk lid
  | .pairKeyRelease ctx keyId _ => ctxOk ctx && eightOk keyId
  | .commandResetWaitTimeout => true
  | .nonceBindingExpiry ctx lid => ctxOk ctx && lidOk lid
  | .deliveryCallTimeout ctx keyId lid => ctxOk ctx && eightOk keyId && lidOk lid
  | .tamperDetect cause => causeOk cause
  | .lcsSeal confirm => wordOk confirm
  | .lcsReturn confirm => wordOk confirm
  | .ethFrame _ => true
  | .mkaFrame _ _ => true
  | .hostLinkLoss => true
  | .beyjoSpdm _ port => halfOk port
  | .beyjoOpen _ role ctx _ _ => byteOk role && byteOk ctx
  | .beyjoProof session _ => wordOk session
  | .challengeExpiry index => indexOk index
  | .beyjoRequest session _ _ ops => wordOk session && opsOk ops
  | .opRead index address count => indexOk index && addressOk address && halfOk count
  | .opWrite index address words => indexOk index && addressOk address && halfOk words.length
  | .opKeepalive index => indexOk index
  | .opFilter index _ => indexOk index
  | .notifyAck session _ _ => wordOk session
  | .beyjoClose session _ => wordOk session
  | .sessionIdleTimeout index => indexOk index
  | .byjCloseWrite index => indexOk index
  | .notifySend index => indexOk index
  | .notifyResend index _ => indexOk index
  | .genModeWrite _ => true
  | .mslSlotWrite index slot w _ => indexOk index && slotOk slot && slotOk w
  | .mailScan => true
  | .mailNop index slot => indexOk index && slotOk slot
  | .mailReserved index slot => indexOk index && slotOk slot
  | .rodLoad index slot => indexOk index && slotOk slot
  | .mailDump index slot => indexOk index && slotOk slot
  | .fwStage index slot _ _ => indexOk index && slotOk slot
  | .mailRemap index slot => indexOk index && slotOk slot
  | .evidencePut index slot _ _ => indexOk index && slotOk slot
  | .mailHandover index slot => indexOk index && slotOk slot
  | .detectorEvent _ _ _ _ ctx => optCtxOk ctx
  | .eventDecide _ _ => true
  | .faultCell cell => cellOk cell
  | .pgFaultClear _ page _ => localOk page
  | .fltClearFirst _ => true
  | .fltClearLog _ => true
  | .fltChoice choice => byteOk choice
  | .policyWaitExpiry => true
  | .reactionWindowEnd serial => wordOk serial
  | .thermalTrip => true
  | .thermalRecover => true
  | .tempSample die _ _ => dieOk die
  | .stackTempRead mdie stack _ => mdieOk mdie && stackOk stack
  | .pgJigGo _ page => localOk page
  | .jigArmWrite _ _ => true
  | .jigArmTimeout _ => true
  | .fltDllClear die => cdieOk die
  | .watchdogHang block die => byteOk block && dieCodeOk die
  | .selfSnapshot block die => byteOk block && dieCodeOk die
  | .dumpReadTimeout => true
  | .dumpBudgetExpiry => true
  | .agentDump fid _ _ => fidOk fid
  | .rstGo block die domain => byteOk block && dieCodeOk die && fourOk domain
  | .resetComplete _ _ => true
  | .holdRearm ctx _ _ => ctxOk ctx
  | .memberLostLinks ctx lid => ctxOk ctx && lidOk lid
  | .memberLostReset ctx lid => ctxOk ctx && lidOk lid
  | .restoreStreamEnd ctx lid _ => ctxOk ctx && lidOk lid
  | .parwrCell cell => cellOk cell
  | .parackCell cell => cellOk cell
  | .parackPeriodic => true
  | .batchResend => true
  | .generationBegin => true
  | .commitAckTimeout => true
  | .syncMsExpiry => true
  | .parSync => true
  | .parFull => true
  | .vaultMirror _ => true
  | .renewTimer => true
  | .leaseRenew _ cell => cellOk cell
  | .leaseGrant cell => cellOk cell
  | .leaseTakeover _ cell => cellOk cell
  | .leaseTakeoverGrant cell => cellOk cell
  | .leaseRefuse cell => cellOk cell
  | .leaseRelease _ cell => cellOk cell
  | .leaseMove _ cell => cellOk cell
  | .leaseExpiry => true
  | .takeoverTrigger => true
  | .refereeStartingEnd _ domain => domainOk domain
  | .leaseMoveTrigger => true
  | .takeoverReconcile _ _ _ => true
  | .takeoverCdieReady _ => true
  | .takeoverLoadDone => true
  | .takeoverRearm => true
  | .handoverPaused => true
  | .handoverPauseTimeout => true
  | .handoverReleaseTimeout => true
  | .unitReturn _ => true
  | .porstNLow => true
  | .porstNRelease _ _ => true
  | .sysrstNFall => true
  | .bootReady _ _ _ => true
  | .timeRecordRestart _ => true
  | .timeRecordTimeout => true
  | .fwDistribute => true
  | .fwRepairRound _ => true
  | .fwActivateSend => true
  | .fwBegin cell => cellOk cell
  | .fwData cell _ => cellOk cell
  | .fwActivate cell => cellOk cell
  | .fwActivateAt => true
  | .fwAbort _ cell => cellOk cell
  | .rodCompare _ => true
  | .rodSilentTimeout fid => fidOk fid
  | .cpwrGoodTimeout c => twoOk c
  | .cpwrGoodChange c _ => twoOk c
  | .railOutOfWindow rail die _ _ _ => railOk rail && dieCodeOk die
  | .pwrBudgetWrite _ => true
  | .pgLockWrite _ page _ => localOk page
  | .agentTargetWrite addr _ => localOk addr
  | .iaPorstN => true
  | .iaTamperN => true
  | .agentFidWrite _ => true
  | .agentFwGo _ => true
  | .mreqRead cell => cellOk cell
  | .mreqWrite cell => cellOk cell
  | .orphanCell _ cell => cellOk cell
  | .agentArm => true
  | .agentDisarm => true
  | .ttbLlenWrite _ => true
  | .ttbEvtRead => true
  | .cdcJobGo => true
  | .cdcJobDone _ => true
  | .measStart => true
  | .measInWrite _ => true
  | .measDone => true
  | .certLock => true
  | .evreqGo requester => fidOk requester
  | .evidenceFormed => true
  | .decapKeyExpiry => true
  | .keywrapCell _ => true
  | .keySidebandAck _ => true
  | .keySidebandTimeout => true
  | .agentRstGo domain block => twoOk domain && eightOk block
  | .rstReqGo domain block => twoOk domain && eightOk block
  | .hcResetHoldEnd => true
  | .hcRstDone => true
  | .hcDoneTimeout => true
  | .restoreCell cell _ => cellOk cell
  | .rchunkClear => true
  | .rstatEnd => true
  | .bufferError cidx => halfOk cidx
  | .dumpComplete _ => true
  | .iaPorstNRelease _ => true
  | .railWindowEntry rail => railOk rail
  | .hostLinkUp => true
  | .signatureDone _ => true
  | .vaultImportDone ctx => ctxOk ctx
  | .standbyWarmDone => true
  | .takeoverRequestRepeat => true

end Sys2Proof
end

