-- ==== Sys2Proof/Tests/Slice0.lean ====
section
/-! SUPPORT. The model's own tests: each range check of `wellFormed` refuses an operand just out of range, single steps on small
states, and, for every statement with premises, a state and operands that meet them. -/

namespace Sys2Proof.Machine.Wit

/-- The state after reset, and states made of it by register values of the unit and of the agent. -/
def st0 : State := State.reset
def st (l : List (Fld × Nat)) : State := l.foldl (fun s e => s.wr e.1 e.2) State.reset
def ast (l : List (Fld × Nat)) : State := l.foldl (fun s e => s.awr e.1 e.2) State.reset

/-- Cells. -/
def aCell0 : Cell := ⟨0, 0, 0, 0, 0, 0, 0, 0, 0, 0, 0, []⟩
def aCell : Cell := { aCell0 with src := 5, dst := 3, type := 1, cidx := 7, payload := [1, 2, 3, 4, 5, 6] }
def faultCell1 : Cell := { aCell0 with payload := [0, 0, 0, 0, 0x0100000000000000, 0] }
def heldCell : Cell := { aCell0 with payload := [0x0000040000000000, 0, 0, 0, 1, 0] }
def fwCell (op dist index : Nat) : Cell := { aCell0 with type := tFWCHUNK, payload := [word (fwWord op dist index), 0, 0, 0, 0, 0] }
def contribCell1 : Cell := { aCell0 with src := 7, cidx := 5 }

/-- Inputs of commands. -/
def aMaster : Master := ⟨128, 6, 0x21, 0, 128, 7, 0⟩
def aStage : StageResult := ⟨8, 0, false, [], 7, true, 0⟩
def anImage : Container := ⟨0x464D4C46, 1, 6, 0, 3, 9, 0, 0x3F, [], 0, true, [], []⟩
def aKeyWrap : KeyWrap := ⟨3, 1, false, 1, 5, [], [], 0⟩
def evp5 : EvPending := ⟨0, 5, true, 1, true⟩
def sealWrap (e : EvPending) (kw : KeyWrap) : KeyWrap :=
  { kw with tag := gcmTag (wrapOf e kw) 0 (wrapHead kw.ctx kw.keyId kw.revoke kw.serial kw.nonce) (fit 32 kw.wkey) }
theorem sealWrap_fits (e : EvPending) (kw : KeyWrap) : wrapFits e (sealWrap e kw) = true := by
  unfold wrapFits sealWrap wrapOf
  exact beq_self_eq_true _
/-- A word of `n` symbols of 0, and what the FEC makes of it. -/
def zeros (n : Nat) : List Nat := List.replicate n 0
theorem gfMulOn_zero : ∀ n b, gfMulOn n 0 b 0 = 0
  | 0, _ => rfl
  | n + 1, b => by
    have : (if b % 2 = 1 then Nat.xor 0 0 else 0) = 0 := by split <;> rfl
    show gfMulOn n (gfTwo 0) (b / 2) (if b % 2 = 1 then Nat.xor 0 0 else 0) = 0
    rw [this]; exact gfMulOn_zero n (b / 2)
theorem zeros_foldl (a : Nat) : ∀ n, (zeros n).foldl (fun v c => Nat.xor (gfMul v a) c) 0 = 0
  | 0 => rfl
  | n + 1 => by
    have : Nat.xor (gfMul 0 a) 0 = 0 := by rw [gfMul, gfMulOn_zero]; rfl
    rw [zeros, List.replicate_succ, List.foldl_cons, this]; exact zeros_foldl a n
theorem zeros_decode (n : Nat) (hn : n = 544) : rsDecode (zeros n) = some (zeros n, []) := by
  have h : (rsSyndromes (zeros n)).all (· == 0) = true := by
    simp only [rsSyndromes, zeros_foldl]; decide
  have e : rsErrors (zeros n) = some [] := by simp only [rsErrors, h, ite_true]
  have l : ¬ ((zeros n).length ≠ 544 ∨ ((zeros n).any fun x => decide (1024 ≤ x)) = true) := by
    have a : ((zeros n).any fun x => decide (1024 ≤ x)) = false := by simp [zeros]
    have b : (zeros n).length = n := List.length_replicate
    rw [a, b]; exact fun h => h.elim (fun k => k hn) (fun k => nomatch k)
  simp only [rsDecode, l, e, ite_false, List.foldl_nil, h, ite_true, List.map_nil]
theorem zeros_symbols : ∀ n, symbolsNat (zeros n) = 0
  | 0 => rfl
  | n + 1 => by
    have := zeros_symbols n
    simp only [symbolsNat, zeros, List.replicate_succ, List.foldr_cons] at this ⊢
    rw [this]
theorem zeros_header (n : Nat) : bits (messageOf ((zeros n).take 514)).1 5 0 = hchk (messageOf ((zeros n).take 514)).1 := by
  have : (messageOf ((zeros n).take 514)).1 = 0 := by
    show bits (symbolsNat ((zeros n).take 514)) 19 0 = 0
    rw [zeros, List.take_replicate, ← zeros, zeros_symbols]; rfl
  rw [this]; decide
def zeroWord : Codeword := ⟨zeros 544⟩
def ev1 : Evidence := ⟨9, false, false, false, 5, 0, 0, [], true⟩
def chain1 : AgentChain := ⟨true, 7⟩
def eth1 : EthFrame := ⟨true, none, 0, none, linkLocal 0, 0, .neighbour⟩

/-- A timetable image with one exchange, and an instance of it. -/
def aProg (op infmt mxfmt elems : Nat) : Program :=
  ⟨op, false, 0, infmt, 0, mxfmt, elems, 0, [⟨0, 0, 0⟩], [1, 0, 0], 48, 100, 0, 0, 0, 0, 0, [], false, false⟩
def prog1 : Program := aProg 1 0 0 12
def prog1m : Program := aProg 1 0 0 300000
def prog2 : Program := aProg 1 3 1 128
def prog5 : Program := aProg 5 0 0 12
def progR : Program := { prog5 with members := [⟨0, 0, 1⟩], body := [0, 0, 0, 0, 0, 0, 12, 0] }
def progE : Program := { aProg 1 0 1 12 with outfmt := 3 }
def prog6 : Program := { prog1 with op := 6 }
def progB : Program := prog1
def anImg (ps : List Program) (es : List Entry) : Image :=
  ⟨1, 0, 0, 1000, 1, 3, 0, 100, 0, 0, 3, 8, 8, [], [⟨0, 90, false⟩], [], es, [⟨5, 80, 0, 0, 0⟩], ps, [], []⟩
def img1 : Image := anImg [prog1] []
def img2 : Image := anImg [prog2] []
def entR : Entry := ⟨4, 0, 0, 0, 0, 1, 0, 5, 1, 0, 0, 10, 90⟩
def imgR : Image := anImg [prog1] [entR]
def inst1 : Instance := ⟨3, 5, 0, 0, 0, true, .opened, 0, none, none, [], [], [], [], false, [], [], [], 0, []⟩
def inst2 : Instance := { inst1 with cells := (List.range 4).map fun k => ⟨7, 0, k, [0, 0, 0, 0, 0, 0]⟩ }
def instSt2 (i : Instance) : State := { State.reset.setTtb 3 (fun x => { x with image := some img1 }) with insts := [i] }
def instSt (p : Program) (x : InstState) : State :=
  { State.reset.setTtb 3 (fun y => { y with image := some { img1 with programs := [p] } }) with insts := [{ inst1 with state := x }] }
def instSt' (p : Program) (i : Instance) : State :=
  { State.reset.setTtb 3 (fun y => { y with image := some { img1 with programs := [p] } }) with insts := [i] }
def mxSt : State :=
  { (State.reset.setTtb 3 (fun x => { x with image := some img2 })).setCtx 3 (fun x => { x with map := [(0, 0x8000000000000007)] }) with
    insts := [inst2] }
def contribSt : State :=
  { ((st [(CTX_STAT_STATE (ctxPg 3), 2), (CTX_SLICE_N (ctxPg 3), 1)]).setTtb 3 (fun x => { x with image := some img1 })).setCtx 3
      (fun x => { x with map := [(0, 0x8000000000000007)] }) with
    insts := [inst1] }
def resSt : State := { State.reset.setTtb 3 (fun x => { x with image := some imgR }) with insts := [{ inst1 with state := .ready }] }
def branchSt : State :=
  { (st [(CTX_SLICE_HOME (ctxPg 3), 510)]).setTtb 3 (fun x => { x with image := some { img1 with programs := [progB] } }) with
    insts := [{ inst1 with state := .complete }] }
def void1 : VoidSt := ⟨1, 0, 0, 50, some 90, 1, 0, 0, none, 0, 2, [], false⟩

/-- A tile chain and a vault window. -/
def desc1 : Descriptor := ⟨1, 1, 1, 0, 0xFF, 0xFFFF, 0, 0, 0, 0, 0, 0, 0, 0, 0, 0, 0, 0, 0, 0xFF⟩
def desc1Words : List Word := [0x011100FFFFFF0000, 0, 0, 0, 0, 0, 0, 0xFF00000000000000]
def chainSt (d : Descriptor) : State :=
  { State.reset with tile := { State.reset.tile with chains := [⟨1, 9, 3, 5, 0, some d, none, []⟩] }, insts := [inst1] }
def chainStNo (d : Descriptor) : State := { chainSt d with insts := [] }
def winSt : State :=
  let s := st [(VLT_WIN_SEL_CLASS (vltPg 3), 2), (VLT_REG_VALID (vltPg 3) 1, 1), (VLT_REG_SIZE (vltPg 3) 1, 1)]
  { s with hbm := { s.hbm with fills := [51] } }
def winA : Nat × Nat := (0, 0)

/-- Rods, flips and management transactions. -/
def rod0 : Rod := ⟨1, (0, 0, 0), 0, [⟨0, 0, 0, 0, 0⟩], [], []⟩
def rod1 : Rod := { rod0 with chips := [⟨9, 1, 4, false, 0, none, none⟩], links := [⟨0, 3, 0, 9, 1, false, 0, 0, 0⟩] }
def rodU : Rod := { rod0 with chips := [⟨9, 0, 96, false, 0, none, none⟩] }
def com1 : Commit := ⟨2, 100, 200, 0, 1, []⟩
def flipAgSt : State := { State.reset with agRoute := { State.reset.agRoute with commit := some com1, shadow := [(5, 7)] } }
def flipDzSt : State := { State.reset with route := { State.reset.route with commit := some com1, shadow := [(5, 7)] } }
def recQuiet : FlipRecord := ⟨0, 1, 2, false, 0, 0, .quiet, []⟩
def drainSt : State :=
  let s := st [(RTE_STAT_COORD, 1), (RTE_STAT_PHASE, 4), (RTE_FLIPSTAT_QUIET, 1), (RTE_FLIPSTAT_DRAINED, 1)]
  s.setRoute fun r => { r with record := some recQuiet, lastRound := [s.ownReport] }
def txn1 : Txn := ⟨4, 9, aCell0, 1, false, none⟩
def txnSt (t : Txn) : State := { State.reset with route := { State.reset.route with txns := [t] } }

/-- Contexts. -/
def assignSt : State :=
  ((st [(CTX_SLICE_N (ctxPg 3), 1), (PGH_ALLOC_VALID (pghPg 0) 3, 1), (PGH_ALLOC_ROWS (pghPg 0) 3, 1)]).setBoot fun b =>
    { b with rod := some rod1 }).setCtx 3 fun x => { x with map := [(0, 0x8000000000000009)] }
def rel0 : RelSt := ⟨false, false, false, false, false, false⟩

/-- Root of trust. -/
def sp1 : SpdmSess := ⟨9, true, some 77, 0, 0, 0⟩
def measSt : State := st [(FRK_STAT_AK_READY, 1)]
def kr1 : KeyRec := ⟨3, 1, false, false, false, true, 0, 0, 77, [7], [0], [0]⟩
def kreq1 : KeyReq := ⟨3, 1, false, false, 1, 1, 1, 0, 0, [7, 0, 0]⟩
def imp1 : ImportReq := ⟨3, 1, 2, 48, 0, 0, none⟩
def ownSt (recs : List KeyRec) : State :=
  let s := (st [(LCS_STAT_STATE, 3), (CTX_STAT_STATE (ctxPg 3), 2), (CTX_STAT_BOUND (ctxPg 3), 1)]).setCtx 3 fun x =>
    { x with owner := 77, map := [(0, 0x8000000000000009)] }
  s.setRot fun x => { x with sessions := [sp1], records := recs }
def importSt : State :=
  let s := (((ownSt [kr1]).wr (VLT_REG_VALID (vltPg 3) 3) 1).wr (VLT_REG_SIZE (vltPg 3) 3) 1).wr (VLT_VAULT_DATA_BYTES (vltPg 3)) 4096
  s.setHbm fun h => { h with roots := [3] }
def evr1 : EvReq := ⟨3, 1, 0, 9, 5, 1, 0, false, false⟩
def rmaSt : State := (st [(LCS_STAT_STATE, 3)]).setBoot fun b => { b with flash := [⟨7, 0, anImage⟩] }
def img9 : VaultImage := ⟨3, 2, 1, 0, 48, false, 0⟩

/-- Host sessions and mail slots: slot 2 of session 5. -/
def sess1 : Sess := ⟨5, 0, true, 0, 0xFF, 1, 0, 0, 0, 0, 0, 0, 0, 0, [], 0, 0, [], 0, 0, []⟩
def slotWords (state code : Nat) (ws : List Nat) : State :=
  let s := State.reset.setBeyjo fun b => { b with sessions := [sess1] }
  { s with tile := { s.tile with sync := (ws.zipIdx.map fun x => (slotWord 5 2 x.2, x.1)).foldl (fun t e => tset t e.1 e.2)
                                           [(slotWord 5 2 15, state * 0x100000000000000 + code * 0x1000000000000 + 0x200000000)] } }
def slotSt (state code : Nat) : State := slotWords state code []
def putSt : State :=
  let s := ((slotWords 2 5 [0x100000013]).wr LCS_STAT_STATE 3).wr GEN_MODE_HOST 32
  let s := (((s.wr (CTX_STAT_STATE (ctxPg 3)) 2).wr (CTX_STAT_BOUND (ctxPg 3)) 1).setCtx 3 fun x =>
    { x with map := [(0, 0x8000000000000009)] }).setRot fun x => { x with records := [kr1] }
  s
def rec1 : TimeRec := ⟨1, 0, 1000, 0, 0, 0⟩
def dist1 : Distrib := ⟨4, [], 0, 0, 0, [(9, 0)]⟩
def agfw1 : AgFw := ⟨4, 200, [], [], 0, none, none⟩

/-- Dumps, re-mapping, the pair and faults. -/
def dump1 : DumpRun := ⟨⟨0, 0, 0, 0, 0, 1, 0, []⟩, [(5, 0, 5, 0)], false, false, none⟩
def remap1 : Remap := ⟨3, 0, some 9, false, false, false, [], none, false⟩
def gen1 : GenRun := ⟨1, false, 1, [], 0, 0, [(0, [])], 0, 0, 0⟩
def lease1 : LeaseRec := ⟨0, 0xFF, 0, 0, none, false, none⟩
def event1 : Event := ⟨0, none, false, false, false, false, false, 1, 1, 0x100000, 0, 0, 0, false, 0⟩
def namedSt : State :=
  let s := ast [(Ia.TTB_STAT_STATE, 2), (Ia.TTB_LLEN_ENTRIES, 1)]
  { s with ag := { s.ag with list := [(7, 0x10)] } }

end Sys2Proof.Machine.Wit

open Sys2Proof Sys2Proof.Machine Sys2Proof.Machine.Wit

/-! ### Ill-formed commands -/

namespace Sys2Proof.Machine.Wit
/-- A cell with every field in its width. -/
def goodCell : Cell := { aCell0 with payload := [0, 0, 0, 0, 0, 0] }
end Sys2Proof.Machine.Wit

theorem test_refuses_ctxOk : wellFormed (.ctxAssign 16) = false ∧ wellFormed (.ctxAssign 15) = true := by decide
theorem test_refuses_optCtxOk : wellFormed (.detectorEvent .dz8 0 0 0 (some 16)) = false ∧ wellFormed (.detectorEvent .dz8 0 0 0 none) = true := by decide
theorem test_refuses_portOk : wellFormed (.retrain .dz8 96) = false ∧ wellFormed (.retrain .dz8 95) = true := by decide
theorem test_refuses_portOk_agent : wellFormed (.retrain .agent 64) = false ∧ wellFormed (.retrain .agent 63) = true := by decide
theorem test_refuses_twoOk : wellFormed (.ctxSeedWrite 3 2 0) = false ∧ wellFormed (.ctxSeedWrite 3 1 0) = true := by decide
theorem test_refuses_cdieOk : wellFormed (.cdcTestGo 2) = false ∧ wellFormed (.cdcTestGo 1) = true := by decide
theorem test_refuses_dieOk : wellFormed (.guardianReportMissing 8) = false ∧ wellFormed (.guardianReportMissing 7) = true := by decide
theorem test_refuses_dieCodeOk : wellFormed (.selfSnapshot 0 8) = false ∧ wellFormed (.selfSnapshot 0 15) = true := by decide
theorem test_refuses_fourOk : wellFormed (.cellSend .dz8 0 4) = false ∧ wellFormed (.cellSend .dz8 0 3) = true := by decide
theorem test_refuses_eightOk : wellFormed (.agentRstGo 0 8) = false ∧ wellFormed (.agentRstGo 0 7) = true := by decide
theorem test_refuses_tileOk : wellFormed (.descriptorEnd 0 64) = false ∧ wellFormed (.descriptorEnd 0 63) = true := by decide
theorem test_refuses_physOk : wellFormed (.tileFail 0 68 0) = false ∧ wellFormed (.tileFail 0 67 0) = true := by decide
theorem test_refuses_mdieOk : wellFormed (.stackTempRead 4 0 0) = false ∧ wellFormed (.stackTempRead 3 0 0) = true := by decide
theorem test_refuses_stackOk : wellFormed (.stackTempRead 0 6 0) = false ∧ wellFormed (.stackTempRead 0 5 0) = true := by decide
theorem test_refuses_lidOk : wellFormed (.keyRedeliver 0 4096) = false ∧ wellFormed (.keyRedeliver 0 4095) = true := by decide
theorem test_refuses_xidOk : wellFormed (.instanceReady 0 32768) = false ∧ wellFormed (.instanceReady 0 32767) = true := by decide
theorem test_refuses_fidOk : wellFormed (.evreqGo 16384) = false ∧ wellFormed (.evreqGo 16383) = true := by decide
theorem test_refuses_domainOk : wellFormed (.refereeStartingEnd .dz8 64) = false ∧ wellFormed (.refereeStartingEnd .dz8 63) = true := by decide
theorem test_refuses_byteOk : wellFormed (.fltChoice 256) = false ∧ wellFormed (.fltChoice 255) = true := by decide
theorem test_refuses_halfOk : wellFormed (.bufferError 65536) = false ∧ wellFormed (.bufferError 65535) = true := by decide
theorem test_refuses_wordOk : wellFormed (.reactionWindowEnd 4294967296) = false ∧ wellFormed (.reactionWindowEnd 4294967295) = true := by decide
theorem test_refuses_indexOk : wellFormed (.opKeepalive 64) = false ∧ wellFormed (.opKeepalive 63) = true := by decide
theorem test_refuses_slotOk : wellFormed (.mailNop 0 16) = false ∧ wellFormed (.mailNop 0 15) = true := by decide
theorem test_refuses_spdmSlotOk : wellFormed (.challenge 0 256 0) = false ∧ wellFormed (.challenge 0 255 0) = true := by decide
theorem test_refuses_regionOk : wellFormed (.vltRegWrite 16 2 0) = false ∧ wellFormed (.vltRegWrite 16 1 0) = true := by decide
theorem test_refuses_regionOk_context : wellFormed (.vltRegWrite 3 5 0) = false ∧ wellFormed (.vltRegWrite 3 4 0) = true := by decide
theorem test_refuses_regOk : wellFormed (.vltOptSetWrite 0 0 5 0) = false ∧ wellFormed (.vltOptSetWrite 0 0 4 0) = true := by decide
theorem test_refuses_causeOk : wellFormed (.tamperDetect 5) = false ∧ wellFormed (.tamperDetect 4) = true := by decide
theorem test_refuses_railOk : wellFormed (.railWindowEntry 12) = false ∧ wellFormed (.railWindowEntry 11) = true := by decide
theorem test_refuses_edgeOk : wellFormed (.dovetailNak ⟨10, false⟩ 0 goodCell) = false ∧ wellFormed (.dovetailNak ⟨9, false⟩ 0 goodCell) = true := by decide
theorem test_refuses_localOk : wellFormed (.pgJigGo .dz8 4294967296) = false ∧ wellFormed (.pgJigGo .dz8 4294967295) = true := by decide
theorem test_refuses_addressOk : wellFormed (.opRead 0 (2 ^ 64) 1) = false ∧ wellFormed (.opRead 0 0 1) = true := by decide
theorem test_refuses_periodOk : wellFormed (.tmkPeriodNextWrite 0 16384) = false ∧ wellFormed (.tmkPeriodNextWrite 0 16383) = true := by decide
theorem test_refuses_cellOk : wellFormed (.faultCell { goodCell with payload := [] }) = false ∧ wellFormed (.faultCell goodCell) = true := by decide
theorem test_refuses_opOk : wellFormed (.beyjoRequest 0 0 0 [⟨2, 2, 0, [0]⟩]) = false ∧ wellFormed (.beyjoRequest 0 0 0 [⟨2, 1, 0, [0]⟩]) = true := by decide
theorem test_refuses_opsOk : wellFormed (.beyjoRequest 0 0 0 []) = false ∧ wellFormed (.beyjoRequest 0 0 0 [⟨3, 0, 0, []⟩]) = true := by decide

/-! ### Single steps -/

/-- What a state of an outcome reads, none where the block stopped. -/
def Sys2Proof.Machine.Wit.after {α : Type} (o : Host.Outcome State Fault Refusal) (f : State → α) : Option α :=
  match o with
  | .next t => some (f t)
  | _ => none

/-- R56, R59: a write of ENABLE = 1 starts acquisition. -/
theorem test_step_enable :
    after (step { st0 with pending := [.tmkEnableWrite true] }) (fun t => (t.rd TMK_STAT_STATE, t.pending)) = some (1, []) := by decide

/-- R38: at the second of a period change the count is (AT_SEC − EPOCH) × 10^9 / P. -/
theorem test_period_change :
    after (exec .periodChange (st [(TMK_STAT_PCHG, 1), (TMK_PERIOD_NEXT_AT_SEC, 3), (TMK_PERIOD_NEXT_PERIOD_NS, 1000)]))
      (fun t => (t.time.beat, t.rd TMK_PERIOD_PERIOD_NS)) = some (3000000, 1000) := by decide

/-- R82: a count that wraps past 2^14 adds the difference modulo 2^14. -/
theorem test_credit_wraps :
    after (exec (.creditWord .dz8 95 5) (st0.setPort .dz8 95 fun x => { x with lastCredit := [2 ^ 14 - 2, 0, 0, 0] }))
      (fun t => nth (t.port .dz8 95).credits 0) = some (if nth (countsOf 5) 0 = 5 then 7 else nth (countsOf 5) 0 + 2) := by decide

/-- R229: ADD adds modulo 2^64, here at the top of the word. -/
theorem test_sync_add_wraps :
    after (exec (.syncWindowAccess 0 none (some ⟨8, .add, 3⟩)) { st0 with tile := { st0.tile with sync := [(1, 2 ^ 64 - 1)] } })
      (fun t => t.syncGet 0 1) = some 2 := by decide

/-- R229: an access that is not aligned changes no word. -/
theorem test_sync_unaligned :
    after (exec (.syncWindowAccess 0 none (some ⟨9, .write, 3⟩)) st0) (fun t => (t.tile.sync, t.flt.waiting.length)) = some ([], 1) := by decide

/-- R266: CTX_MAP_DATA ignores a write while the context is not FREE. -/
theorem test_map_write_ignored :
    after (exec (.ctxMapWrite 3 0x8000000000000005) (st [(CTX_STAT_STATE (ctxPg 3), 2)])) (fun t => (t.ctx 3).map) = some [] := by decide

/-- R338 to R340: a slot that is TAKEN keeps its words. -/
theorem test_taken_slot_kept : after (exec (.mslSlotWrite 5 2 3 7) (slotSt 2 0)) (fun t => t.slotGet 5 2 3) = some 0 := by decide

/-- R51: the fourth missed word puts an aligned agent into orphan mode. -/
theorem test_orphan :
    after (exec .orphanEntry ((ast [(Ia.TMK_STAT_STATE, 2)]).setAgTime fun x => { x with missRun := 4 }))
      (fun t => (t.ard Ia.TMK_STAT_STATE, t.agTime.injectStop)) = some (3, true) := by decide

/-- R119: at the flip beat the shadow table becomes the active table. -/
theorem test_flip_beat : after (exec (.flipBeat .agent) flipAgSt) (fun t => tget t.agRoute.active 5) = some 7 := by decide

/-- R376: with ARM = 0 an injection does not fire. -/
theorem test_jig_not_armed :
    after (exec (.pgJigGo .dz8 tmkPg) (st [(PG_JIG_MODE tmkPg, 1)])) (fun t => t.flt.jigChecks) = some [] := by decide

/-- An empty queue idles (log entry 1). -/
theorem test_idle : after (step st0) (fun t => decide (t = st0)) = some true := by decide

/-! ### The premises of the statements can be met -/

set_option linter.unusedVariables false

/-- Every case of the statement `ClockControl` with premises has a state and operands that meet them. -/
theorem witness_ClockControl :
    (∃ (s : State), s.rd TMK_CTRL_ENABLE = 0 ∧ s.rd TMK_CTRL_SRC ≠ 2) ∧
    (∃ (s : State), s.rd TMK_CTRL_ENABLE = 1 ∧ s.rd GEN_FID_VALID = 0) ∧
    (∃ (s : State), s.anyArmed = false) ∧
    (∃ (s : State), s.rd TMK_CTRL_STEP = 1 ∧ s.time.counting = true ∧ (s.time.qualified || s.rd TMK_CTRL_SRC == 2) = true ∧ s.rd TMK_STAT_STATE ≠ 3) ∧
    (∃ (s : State) (a p : Nat), Sys2Proof.Machine.periodOk p = true ∧ s.rd TMK_CTRL_ENABLE = 1 ∧ s.rd TMK_TOD_SEC - 1 + 2 ≤ a ∧ a < 2 ^ 48 ∧
      s.anyArmed = false) ∧
    (∃ (s : State), s.rd TMK_STAT_PCHG = 1) ∧
    (∃ (s : State), s.rd TMK_STAT_PCHG = 1 ∧ s.time.counting = false ∧ s.rd TMK_PERIOD_NEXT_PERIOD_NS ≤ 16000) ∧
    (∃ (s : State), s.rd TMK_STAT_PCHG = 1 ∧ s.time.counting = true ∧ s.rd TMK_PERIOD_NEXT_PERIOD_NS ≤ 16000) ∧
    (∃ (s : State) (sp rc e : Int), s.rd TMK_CTRL_ENABLE = 1 ∧ s.rd TMK_CTRL_SRC = 0 ∧ rc.natAbs ≤ 2 ∧ sp.natAbs ≤ 1000 ∧ s.rd TMK_STAT_STATE = 2 ∧
      s.rd TMK_TOD_SEC + 1 < 2 ^ 48) ∧
    (∃ (s : State) (d : Nat) (l o : Int) (tai : Nat), s.rd TMK_CTRL_ENABLE = 1 ∧ s.rd TMK_CTRL_SRC = 1 ∧ d = s.rd TMK_PTP_CFG_DOMAIN ∧ -7 ≤ l ∧ l ≤ 0
      ∧ o.natAbs < 20000 ∧ tai / 1000000000 + 1 < 2 ^ 48 ∧ s.rd TMK_STAT_STATE = 2) ∧
    (∃ (s : State) (d : Nat) (m : Master), s.rd TMK_CTRL_SRC = 1 ∧ d = s.rd TMK_PTP_CFG_DOMAIN) ∧
    (∃ (s : State), s.rd TMK_CTRL_ENABLE = 1 ∧ s.rd TMK_CTRL_SRC = 0 ∧ s.rd TMK_STAT_STATE = 2) ∧
    (∃ (s : State), s.rd TMK_CTRL_ENABLE = 1 ∧ s.rd TMK_CTRL_SRC = 0 ∧ s.rd TMK_STAT_STATE = 2) ∧
    (∃ (s : State), s.rd TMK_CTRL_ENABLE = 1 ∧ s.rd TMK_CTRL_SRC = 1 ∧ s.rd TMK_STAT_STATE = 2) ∧
    (∃ (s : State), s.rd TMK_STAT_STATE = 3 ∧ s.rd TMK_STAT_XDOM_UNSAFE = 0) ∧
    (∃ (s : State), s.rd TMK_STAT_SLEWING = 1 ∧ (s.period * 1000 : Int) < s.time.slewLeft) ∧
    (∃ (s : State), s.rd TMK_CTRL_SRC = 2 ∧ s.rd TMK_STAT_STATE = 4 ∧ s.rd TMK_TOD_SEC + 1 < 2 ^ 48) :=
  ⟨⟨st0, by decide⟩,
   ⟨st [(TMK_CTRL_ENABLE, 1)], by decide⟩,
   ⟨st0, by decide⟩,
   ⟨(st [(TMK_CTRL_STEP, 1), (TMK_STAT_STATE, 2)]).setTime fun x => { x with counting := true, qualified := true }, by decide⟩,
   ⟨st [(TMK_CTRL_ENABLE, 1)], 2, 4000, by decide⟩,
   ⟨st [(TMK_STAT_PCHG, 1)], by decide⟩,
   ⟨st [(TMK_STAT_PCHG, 1), (TMK_PERIOD_NEXT_PERIOD_NS, 1000)], by decide⟩,
   ⟨(st [(TMK_STAT_PCHG, 1), (TMK_PERIOD_NEXT_PERIOD_NS, 1000)]).setTime fun x => { x with counting := true }, by decide⟩,
   ⟨st [(TMK_CTRL_ENABLE, 1), (TMK_STAT_STATE, 2)], 1000, -2, 5, by decide⟩,
   ⟨st [(TMK_CTRL_ENABLE, 1), (TMK_CTRL_SRC, 1), (TMK_STAT_STATE, 2)], (st [(TMK_CTRL_ENABLE, 1), (TMK_CTRL_SRC, 1), (TMK_STAT_STATE, 2)]).rd TMK_PTP_CFG_DOMAIN, -7, -19999, 7, by decide⟩,
   ⟨st [(TMK_CTRL_SRC, 1)], (st [(TMK_CTRL_SRC, 1)]).rd TMK_PTP_CFG_DOMAIN, aMaster, by decide⟩,
   ⟨st [(TMK_CTRL_ENABLE, 1), (TMK_CTRL_SRC, 0), (TMK_STAT_STATE, 2)], by decide⟩,
   ⟨st [(TMK_CTRL_ENABLE, 1), (TMK_CTRL_SRC, 0), (TMK_STAT_STATE, 2)], by decide⟩,
   ⟨st [(TMK_CTRL_ENABLE, 1), (TMK_CTRL_SRC, 1), (TMK_STAT_STATE, 2)], by decide⟩,
   ⟨st [(TMK_STAT_STATE, 3)], by decide⟩,
   ⟨(st [(TMK_STAT_SLEWING, 1)]).setTime fun x => { x with slewLeft := 100000000 }, by decide⟩,
   ⟨st [(TMK_CTRL_SRC, 2), (TMK_STAT_STATE, 4)], by decide⟩⟩

/-- Every case of the statement `BeatOnTheLinks` with premises has a state and operands that meet them. -/
theorem witness_BeatOnTheLinks :
    (∃ (s : State), s.time.counting = true) ∧
    (∃ (s : State), s.ag.porst = false ∧ s.ard Ia.TMK_STAT_STATE = 2) ∧
    (∃ (s : State) (p : Nat) (w : Word) (b : Nat) (off : Int), p < s.ports.length ∧ s.carries .dz8 p = true) ∧
    (∃ (s : State) (p : Nat) (w : Word) (b : Nat) (off : Int), s.carries .agent p = true ∧ s.mayLead p w.toNat = true ∧ s.ard Ia.TMK_STAT_STATE = 1 ∧
      s.agTime.source = none ∧ s.agTime.pchg = none) ∧
    (∃ (s : State), s.ard Ia.TMK_STAT_STATE = 2 ∧ (bestCand (s.agTime.cands.filter fun c => c.fresh && some c.port != s.agTime.source) = none)) ∧
    (∃ (s : State), s.ard Ia.TMK_STAT_STATE = 2 ∧ 4 ≤ s.agTime.missRun) ∧
    (∃ (s : State), s.ard Ia.TMK_STAT_STATE = 3) ∧
    (∃ (s : State) (d : Site) (c : Cell), s.epochGood d c = true) ∧
    (∃ (s : State) (d : Site) (c : Cell), s.epochGood d c = false) :=
  ⟨⟨st0.setTime fun x => { x with counting := true }, by decide⟩,
   ⟨(ast [(Ia.TMK_STAT_STATE, 2)]).setAg fun x => { x with porst := false }, by decide⟩,
   ⟨st [(PRT_STAT_STATE (prtPg 95), 2)], 95, 7, 0, 0, by decide⟩,
   ⟨ast [(PRT_STAT_STATE (prtPgS .agent 3), 2), (PRT_NEIGH_VALID (prtPgS .agent 3), 1), (PRT_NEIGH_CLASS (prtPgS .agent 3), 0), (Ia.TMK_STAT_STATE, 1)], 3, 0x500, 0, 0, by decide⟩,
   ⟨ast [(Ia.TMK_STAT_STATE, 2)], by decide⟩,
   ⟨(ast [(Ia.TMK_STAT_STATE, 2)]).setAgTime fun x => { x with missRun := 4 }, by decide⟩,
   ⟨ast [(Ia.TMK_STAT_STATE, 3)], by decide⟩,
   ⟨st0, .dz8, aCell, by decide⟩,
   ⟨st0, .agent, { aCell with epoch := 5 }, by decide⟩⟩

set_option maxRecDepth 2000 in
/-- Every case of the statement `PortWords` with premises has a state and operands that meet them. -/
theorem witness_PortWords :
    (∃ (s : State) (d : Site) (p : Nat) (cw : Codeword) (w at_ : List Nat), p < (s.portsS d).length ∧ rsDecode cw.symbols = some (w, at_) ∧ bits
      (messageOf (w.take 514)).1 5 0 = hchk (messageOf (w.take 514)).1) ∧
    (∃ (s : State) (d : Site) (p : Nat) (cw : Codeword), rsDecode cw.symbols = none) ∧
    (∃ (s : State) (d : Site) (p : Nat) (w : Word), p < (s.portsS d).length) ∧
    (∃ (s : State) (d : Site) (p : Nat) (w : Word), p < (s.portsS d).length) ∧
    (∃ (s : State) (d : Site) (p : Nat) (w : Word) (n : Nat), p < (s.portsS d).length ∧ (s.port d p).stage = 6 ∧ (s.port d p).probes.length < 15) ∧
    (∃ (s : State) (d : Site) (p : Nat) (w : Word), (s.port d p).held = false) ∧
    (∃ (s : State) (p : Nat) (w : Word), s.agTime.source = some p) ∧
    (∃ (s : State) (d : Site) (p : Nat) (r : StageResult), p < (s.portsS d).length ∧ s.inStage d p = true ∧ 1 ≤ (s.port d p).stage ∧ (s.port d
      p).stage ≤ 3) ∧
    (∃ (s : State) (d : Site) (p : Nat), p < (s.portsS d).length ∧ s.inStage d p = true ∧ s.rdS d (PRT_STAT_RETRY_CNT (prtPgS d p)) + 1 < s.rdS d
      (PRT_CTRL_RETRY_MAX (prtPgS d p)) ∧ s.rdS d (PRT_CTRL_RETRY_MAX (prtPgS d p)) < 256) ∧
    (∃ (s : State) (d : Site) (p : Nat), p < (s.portsS d).length ∧ (d = .agent ∨ p < s.rd LCS_PART_LINKS) ∧ s.prtState d p = 1 ∧ (s.port d p).stage =
      0) ∧
    (∃ (s : State) (d : Site) (p : Nat), p < (s.portsS d).length ∧ (d = .agent ∨ p < s.rd LCS_PART_LINKS) ∧ s.prtState d p = 4) ∧
    (∃ (s : State) (d : Site) (p : Nat), p < (s.portsS d).length ∧ (d = .agent ∨ p < s.rd LCS_PART_LINKS) ∧ s.prtState d p = 2) ∧
    (∃ (s : State) (d : Site) (p : Nat), p < (s.portsS d).length ∧ (d = .agent ∨ p < s.rd LCS_PART_LINKS) ∧ s.carries d p = true) ∧
    (∃ (s : State) (d : Site) (p : Nat), p < (s.portsS d).length ∧ (d = .agent ∨ p < s.rd LCS_PART_LINKS) ∧ s.carries d p = true) ∧
    (∃ (s : State) (d : Site) (p : Nat), p < (s.portsS d).length ∧ s.carries d p = false ∧ s.prtState d p ≠ 5) ∧
    (∃ (s : State) (d : Site) (p : Nat), p < (s.portsS d).length ∧ (d = .agent ∨ p < s.rd LCS_PART_LINKS) ∧ s.prtState d p = 5) :=
  ⟨⟨st0, .dz8, 95, zeroWord, zeros 544, [], by decide, zeros_decode 544 rfl, zeros_header 544⟩,
   ⟨st0, .dz8, 95, ⟨[]⟩, by decide⟩,
   ⟨st0, .dz8, 95, 5, by decide⟩,
   ⟨st0, .agent, 63, 5, by decide⟩,
   ⟨(st0).setPort .dz8 95 fun x => { x with stage := 6, probes := List.replicate 14 0 }, .dz8, 95, 5, 9, by decide⟩,
   ⟨st0, .dz8, 95, 5, by decide⟩,
   ⟨st0.setAgTime fun x => { x with source := some 3 }, 3, 9, by decide⟩,
   ⟨(st [(PRT_STAT_STATE (prtPg 95), 1)]).setPort .dz8 95 fun x => { x with stage := 3 }, .dz8, 95, aStage, by decide⟩,
   ⟨(st [(PRT_STAT_STATE (prtPg 95), 1)]).setPort .dz8 95 fun x => { x with stage := 8 }, .dz8, 95, by decide⟩,
   ⟨st [(PRT_STAT_STATE (prtPg 95), 1)], .dz8, 95, by decide⟩,
   ⟨st [(PRT_STAT_STATE (prtPg 95), 4)], .dz8, 95, by decide⟩,
   ⟨st [(PRT_STAT_STATE (prtPg 95), 2)], .dz8, 95, by decide⟩,
   ⟨st [(PRT_STAT_STATE (prtPg 95), 3)], .dz8, 95, by decide⟩,
   ⟨st [(PRT_STAT_STATE (prtPg 95), 2)], .dz8, 95, by decide⟩,
   ⟨st [(PRT_STAT_STATE (prtPg 95), 4)], .dz8, 95, by decide⟩,
   ⟨st [(PRT_STAT_STATE (prtPg 95), 5)], .dz8, 95, by decide⟩⟩

/-- Every case of the statement `CellsOnPorts` with premises has a state and operands that meet them. -/
theorem witness_CellsOnPorts :
    (∃ (s : State) (d : Site) (p vc : Nat) (q : Option (Nat × Nat) × Cell) (r : List (Option (Nat × Nat) × Cell)), p < (s.portsS d).length ∧ s.bears d
      p = true ∧ s.rdS d (PRT_STAT_ENCRYPTED (prtPgS d p)) = 0 ∧ s.headOf d p vc = some (q, r) ∧ s.mayGo d p vc = true ∧ (vc ≠ 0 ∨ s.prtState d p =
      2)) ∧
    (∃ (s : State) (d : Site) (p vc : Nat), s.bears d p = false) ∧
    (∃ (s : State) (d : Site) (p : Nat) (c : Cell), s.bears d p = false) ∧
    (∃ (s : State) (d : Site) (p : Nat) (c : Cell), p < (s.portsS d).length ∧ s.bears d p = true ∧ s.rdS d (PRT_STAT_ENCRYPTED (prtPgS d p)) = 1) ∧
    (∃ (s : State) (d : Site) (p : Nat) (c : Cell), s.bears d p = true ∧ s.rdS d (PRT_STAT_ENCRYPTED (prtPgS d p)) = 0) ∧
    (∃ (s : State) (d : Site) (p f k g : Nat), s.carries d p = true ∧ s.rdS d (PRT_STAT_ENCRYPTED (prtPgS d p)) = 1) ∧
    (∃ (s : State) (d : Site) (p vc n : Nat) (q : Option (Nat × Nat) × Cell) (r : List (Option (Nat × Nat) × Cell)), vc < 3 ∧ p < (s.portsS d).length
      ∧ s.carries d p = true ∧ nth (s.port d p).credits vc = 0 ∧ s.escapeNs d vc < n ∧ s.headOf d p vc = some (q, r) ∧ entEsc (s.entry d false
      q.2.dst) ≠ p ∧ s.carries d (entEsc (s.entry d false q.2.dst)) = true) ∧
    (∃ (s : State) (d : Site) (p : Nat), p < (s.portsS d).length ∧ s.rdS d (PRT_STAT_ENCRYPTED (prtPgS d p)) = 1) ∧
    (∃ (s : State) (e : Nat) (b : Bool) (g : Nat) (c : Cell), s.hasEdge e = true ∧ g < 16 ∧ s.replayCount e b g c < 8) ∧
    (∃ (s : State) (e : Nat) (b : Bool) (g : Nat) (c : Cell), s.hasEdge e = true ∧ g < 16 ∧ 8 ≤ s.replayCount e b g c) ∧
    (∃ (s : State) (e : Nat) (b : Bool) (g : Nat) (c : Cell), s.hasEdge e = false) :=
  ⟨⟨(st [(PRT_STAT_STATE (prtPg 95), 2)]).setPort .dz8 95 fun x => { x with credits := [1, 0, 0, 0], queue := [(none, aCell0)] }, .dz8, 95, 0, (none, aCell0), [], by decide⟩,
   ⟨st0, .dz8, 95, 0, by decide⟩,
   ⟨st0, .dz8, 95, aCell, by decide⟩,
   ⟨st [(PRT_STAT_STATE (prtPg 95), 2), (PRT_STAT_ENCRYPTED (prtPg 95), 1)], .dz8, 95, aCell, by decide⟩,
   ⟨st [(PRT_STAT_STATE (prtPg 95), 2)], .dz8, 95, aCell, by decide⟩,
   ⟨st [(PRT_STAT_STATE (prtPg 95), 2), (PRT_STAT_ENCRYPTED (prtPg 95), 1)], .dz8, 95, 0, 0, 7, by decide⟩,
   ⟨(st [(PRT_STAT_STATE (prtPg 94), 2), (PRT_STAT_STATE (prtPg 95), 2), (PRT_NEIGH_VALID (prtPg 95), 1), (PRT_NEIGH_FID (prtPg 95), 9)]).setPort .dz8 94 fun x => { x with queue := [(none, { aCell0 with dst := 9 })] }, .dz8, 94, 0, 10 ^ 9, (none, { aCell0 with dst := 9 }), [], by decide⟩,
   ⟨st [(PRT_STAT_ENCRYPTED (prtPg 95), 1)], .dz8, 95, by decide⟩,
   ⟨st0, 9, true, 1, aCell, by decide⟩,
   ⟨{ st0 with replays := [⟨9, true, 1, aCell, 8⟩] }, 9, true, 1, aCell, by decide⟩,
   ⟨st0, 10, true, 1, aCell, by decide⟩⟩

/-- Every case of the statement `AgentCells` with premises has a state and operands that meet them. -/
theorem witness_AgentCells :
    (∃ (s : State) (p : Nat) (c : Cell) (k : AgCounter), s.epochGood .agent c = true ∧ (c.type == tPUT && decide (0xFE ≤ c.src % 256)) = false ∧
      (s.ag.counters.find? (fun x => x.cidx == c.cidx) = some k) ∧ c.offset + 48 ≤ k.len ∧ k.count < k.expect) ∧
    (∃ (s : State) (p : Nat) (c : Cell), s.epochGood .dz8 c = true) ∧
    (∃ (s : State) (p : Nat) (c : Cell) (k : AgCounter), s.epochGood .agent c = true ∧ (c.type == tPUT && decide (0xFE ≤ c.src % 256)) = false ∧
      (s.ag.counters.find? (fun x => x.cidx == c.cidx) = some k) ∧ c.offset + 48 ≤ k.len ∧ k.count < k.expect) ∧
    (∃ (s : State) (p : Nat) (c : Cell), s.epochGood .dz8 c = true) ∧
    (∃ (s : State) (c : Cell), s.epochGood .agent c = true ∧ c.cidx % 2 ^ 12 * 2 ^ 32 + c.offset + 48 ≤ s.handleLen 0xFFF ∧ tget s.ag.chunks ((c.cidx
      % 2 ^ 12 * 2 ^ 32 + c.offset) / chunkBytes) < 1048576) ∧
    (∃ (s : State), s.ag.events.length < 64) :=
  ⟨⟨st0.setAg fun x => { x with counters := [⟨aCell.cidx, 0, 0, 1, 0, 0, 0, 48⟩] }, 0, aCell, ⟨aCell.cidx, 0, 0, 1, 0, 0, 0, 48⟩, by decide⟩,
   ⟨st0, 0, aCell, by decide⟩,
   ⟨st0.setAg fun x => { x with counters := [⟨aCell.cidx, 0, 0, 1, 0, 0, 0, 48⟩] }, 0, aCell, ⟨aCell.cidx, 0, 0, 1, 0, 0, 0, 48⟩, by decide⟩,
   ⟨st0, 0, aCell, by decide⟩,
   ⟨st0.setAg fun x => { x with hlen := [(0xFFF, 2 ^ 63 + 48)] }, { aCell with cidx := 0, offset := 0 }, by decide⟩,
   ⟨st0, by decide⟩⟩

/-- Every case of the statement `AgentTimetable` with premises has a state and operands that meet them. -/
theorem witness_AgentTimetable :
    (∃ (s : State) (w : Word), s.isLeaf = false) ∧
    (∃ (s : State), s.isLeaf = false) ∧
    (∃ (s : State), s.ard Ia.TTB_STAT_STATE = 4 ∧ s.ag.events.length < 64) ∧
    (∃ (s : State), s.ard Ia.TTB_STAT_STATE = 3) ∧
    (∃ (s : State) (e : Nat) (r : List Nat), s.ag.events = e :: r) ∧
    (∃ (s : State) (n : Nat) (k : AgCounter), (s.ag.counters.find? (fun x => x.cidx == n) = some k) ∧ k.count < k.expect ∧ s.agVoided k.step = false) ∧
    (∃ (s : State) (n : Nat), s.ard Ia.TTB_STAT_STATE = 2 ∧ s.ag.fresh = true) ∧
    (∃ (s : State) (n : Nat), s.ard Ia.TTB_STAT_STATE = 2 ∧ s.ag.fresh = false) :=
  ⟨⟨st0, 0xFFFFFFFFFFFFFFFF, by decide⟩,
   ⟨st0, by decide⟩,
   ⟨ast [(Ia.TTB_STAT_STATE, 4)], by decide⟩,
   ⟨ast [(Ia.TTB_STAT_STATE, 3)], by decide⟩,
   ⟨st0.setAg fun x => { x with events := [5] }, 5, [], by decide⟩,
   ⟨st0.setAg fun x => { x with counters := [⟨7, 0, 0, 1, 0, 3, 0, 48⟩] }, 7, ⟨7, 0, 0, 1, 0, 3, 0, 48⟩, by decide⟩,
   ⟨(ast [(Ia.TTB_STAT_STATE, 2)]).setAg fun x => { x with fresh := true }, 0, by decide⟩,
   ⟨(ast [(Ia.TTB_STAT_STATE, 2)]).setAg fun x => { x with fresh := false }, 0, by decide⟩⟩

/-- Every case of the statement `AgentUnits` with premises has a state and operands that meet them. -/
theorem witness_AgentUnits :
    (∃ (s : State), s.ard Ia.CDC_JOB_CTRL_BUSY = 0 ∧ s.isLeaf = false ∧ s.jobErr s.jobWords = 0) ∧
    (∃ (s : State) (f : MxFmt), s.ard Ia.CDC_JOB_CTRL_BUSY = 1 ∧ MxFmt.ofByte (bits (nth s.ag.job 2) 63 56) = some f) ∧
    (∃ (s : State), s.ard Ia.CDC_JOB_CTRL_BUSY = 1) ∧
    (∃ (s : State), s.ag.meas.done = false) ∧
    (∃ (s : State) (w : Word), s.ag.meas.isOpen = true) ∧
    (∃ (s : State), s.ag.meas.isOpen = true) :=
  ⟨⟨(ast [(Ia.TTB_STAT_STATE, 2), (Ia.CDC_JOB_CFG_FMT, 1)]).setAg fun x => { x with hlen := [(0, 2 ^ 63 + 2 ^ 62 + 2 ^ 61)] }, by decide⟩,
   ⟨(ast [(Ia.CDC_JOB_CTRL_BUSY, 1)]).setAg fun x => { x with job := [0, 0, 1 * 2 ^ 56] }, ⟨false, false, 1⟩, by decide⟩,
   ⟨ast [(Ia.CDC_JOB_CTRL_BUSY, 1)], by decide⟩,
   ⟨st0, by decide⟩,
   ⟨st0.setAg fun x => { x with meas := ⟨true, false, []⟩ }, 3, by decide⟩,
   ⟨st0.setAg fun x => { x with meas := ⟨true, false, []⟩ }, by decide⟩⟩

/-- Every case of the statement `AgentKeys` with premises has a state and operands that meet them. -/
theorem witness_AgentKeys :
    (∃ (s : State) (n : Nat), s.ag.image.isSome = true) ∧
    (∃ (s : State) (e : EvPending), s.ag.evidence = some e ∧ e.formed = false ∧ e.hold = true) ∧
    (∃ (s : State) (e : EvPending), s.ag.evidence = some e ∧ e.formed = false ∧ e.hold = false) ∧
    (∃ (s : State) (kw : KeyWrap) (e : EvPending), s.isLeaf = false ∧ s.ag.evidence = some e ∧ e.nonce = kw.nonce ∧ wrapFits e kw = true ∧ s.ag.resets
      = []) ∧
    (∃ (s : State) (x : KeyXfer), s.ag.xfer = some x ∧ s.ag.events.length < 64) ∧
    (∃ (s : State) (x : KeyXfer), s.ag.xfer = some x ∧ s.ag.events.length < 64) :=
  ⟨⟨st0.setAg fun x => { x with image := some anImage }, 0, by decide⟩,
   ⟨st0.setAg fun x => { x with evidence := some ⟨0, 0, true, 1, false⟩ }, ⟨0, 0, true, 1, false⟩, by decide⟩,
   ⟨st0.setAg fun x => { x with evidence := some ⟨0, 0, false, 1, false⟩ }, ⟨0, 0, false, 1, false⟩, by decide⟩,
   ⟨st0.setAg fun x => { x with evidence := some evp5 }, sealWrap evp5 aKeyWrap, evp5, by decide, by decide, rfl, sealWrap_fits evp5 aKeyWrap, by decide⟩,
   ⟨st0.setAg fun x => { x with xfer := some ⟨9, 0⟩ }, ⟨9, 0⟩, by decide⟩,
   ⟨st0.setAg fun x => { x with xfer := some ⟨9, 0⟩ }, ⟨9, 0⟩, by decide⟩⟩

/-- Every case of the statement `AgentResets` with premises has a state and operands that meet them. -/
theorem witness_AgentResets :
    (∃ (s : State) (b : Nat), s.ag.resets = []) ∧
    (∃ (s : State) (b : Nat), s.ag.resets = []) ∧
    (∃ (s : State) (d b : Nat), s.ag.resets = [⟨d, b, false⟩]) ∧
    (∃ (s : State), ((s.ag.resets.any fun r => r.released) = true)) ∧
    (∃ (s : State), ((s.ag.resets.any fun r => r.released) = true)) ∧
    (∃ (s : State) (n : Nat), s.ag.porst = true) ∧
    (∃ (s : State) (w : Word), s.ard GEN_FID_VALID = 0) ∧
    (∃ (s : State) (w : Word), s.ard GEN_FID_VALID = 1) :=
  ⟨⟨st0, 0, by decide⟩,
   ⟨st0, 0, by decide⟩,
   ⟨st0.setAg fun x => { x with resets := [⟨1, 0, false⟩] }, 1, 0, by decide⟩,
   ⟨st0.setAg fun x => { x with resets := [⟨1, 0, true⟩] }, by decide⟩,
   ⟨st0.setAg fun x => { x with resets := [⟨1, 0, true⟩] }, by decide⟩,
   ⟨st0.setAg fun x => { x with porst := true }, 1000, by decide⟩,
   ⟨st0, 5, by decide⟩,
   ⟨ast [(GEN_FID_VALID, 1)], 5, by decide⟩⟩

/-- Every case of the statement `TtbCheckAndArm` with premises has a state and operands that meet them. -/
theorem witness_TtbCheckAndArm :
    (∃ (s : State) (c : Nat), s.ttbState c = 1) ∧
    (∃ (s : State) (c : Nat), c < 16 ∧ s.ttbs.length = 16 ∧ s.ttbState c = 2) ∧
    (∃ (s : State) (c : Nat) (e : Nat × Nat), s.ttbState c = 2 ∧ s.checkNow c (s.modeNow 2) = some e) ∧
    (∃ (s : State) (c : Nat) (m : Image), c < 16 ∧ s.ttbs.length = 16 ∧ s.active = true ∧ (s.ttb c).held = false ∧ s.ttbState c = 3 ∧ s.time.beat +
      4096 ≤ s.rd (TTB_ARM_AT_BEAT (ttbPg c)) ∧ s.img c = some m ∧ s.branchClash c m = none) ∧
    (∃ (s : State) (c : Nat), s.active = true ∧ (s.ttb c).held = false ∧ s.ttbState c = 3 ∧ s.rd (TTB_ARM_AT_BEAT (ttbPg c)) < s.time.beat + 4096) ∧
    (∃ (s : State) (c : Nat), (s.ttb c).held = true) ∧
    (∃ (s : State) (c : Nat) (armed : List Nat), c < 16 ∧ s.ttbs.length = 16 ∧ s.ttbState c = 4 ∧ (∀ m ∈ s.membersOf c, m.2 ∈ armed)) ∧
    (∃ (s : State) (c : Nat) (armed : List Nat) (m : Nat × Nat), s.ttbState c = 4 ∧ m ∈ s.membersOf c ∧ m.2 ∉ armed) ∧
    (∃ (s : State) (c : Nat), s.active = true ∧ s.ttbState c = 4) ∧
    (∃ (s : State) (c : Nat), c < 16 ∧ s.ttbs.length = 16 ∧ s.armed c = true) ∧
    (∃ (s : State) (c : Nat), c < 16 ∧ s.ttbs.length = 16 ∧ s.ttbState c = 5 ∧ s.rd (TTB_STAT_PAUSED (ttbPg c)) = 0) ∧
    (∃ (s : State) (c : Nat), c < 16 ∧ s.ttbs.length = 16 ∧ s.ttbState c = 6) ∧
    (∃ (s : State) (c : Nat), c < 16 ∧ s.ttbs.length = 16 ∧ s.armed c = false) ∧
    (∃ (s : State) (c x : Nat) (mp : Image × Program) (i : Instance), c < 16 ∧ s.ttbs.length = 16 ∧ s.prog c x = some mp ∧ s.inst c x = some i ∧
      mp.2.op ≠ 5 ∧ i.isOpen = true ∧ i.state = .opened ∧ s.isBranch c = false ∧ (s.ttb c).void = none ∧ (s.ttb c).miss = none) ∧
    (∃ (s : State) (c x : Nat) (i : Instance), s.inst c x = some i ∧ i.state = .complete) :=
  ⟨⟨st [(TTB_STAT_STATE (ttbPg 3), 1)], 3, by decide⟩,
   ⟨st [(TTB_STAT_STATE (ttbPg 3), 2)], 3, by decide⟩,
   ⟨st [(TTB_STAT_STATE (ttbPg 3), 2)], 3, (((st [(TTB_STAT_STATE (ttbPg 3), 2)]).checkNow 3 ((st [(TTB_STAT_STATE (ttbPg 3), 2)]).modeNow 2)).getD (0, 0)), by decide⟩,
   ⟨(st [(TTB_STAT_STATE (ttbPg 3), 3), (PAR_STAT_ROLE, 1), (TTB_ARM_AT_BEAT (ttbPg 3), 5000)]).setTtb 3 fun x => { x with image := some img1 }, 3, img1, by decide⟩,
   ⟨st [(TTB_STAT_STATE (ttbPg 3), 3), (PAR_STAT_ROLE, 1)], 3, by decide⟩,
   ⟨st0.setTtb 3 fun x => { x with held := true }, 3, by decide⟩,
   ⟨st [(TTB_STAT_STATE (ttbPg 3), 4)], 3, [], by decide⟩,
   ⟨(st [(TTB_STAT_STATE (ttbPg 3), 4), (CTX_SLICE_N (ctxPg 3), 1)]).setCtx 3 fun x => { x with map := [(0, 2 ^ 63 + 7)] }, 3, [], (0, 7), by decide⟩,
   ⟨st [(TTB_STAT_STATE (ttbPg 3), 4), (PAR_STAT_ROLE, 1)], 3, by decide⟩,
   ⟨st [(TTB_STAT_STATE (ttbPg 3), 5)], 3, by decide⟩,
   ⟨st [(TTB_STAT_STATE (ttbPg 3), 5)], 3, by decide⟩,
   ⟨st [(TTB_STAT_STATE (ttbPg 3), 6)], 3, by decide⟩,
   ⟨st [(TTB_STAT_STATE (ttbPg 3), 3)], 3, by decide⟩,
   ⟨instSt prog1 .opened, 3, 5, (img1, prog1), inst1, by decide⟩,
   ⟨instSt prog1 .complete, 3, 5, { inst1 with state := .complete }, by decide⟩⟩

/-- Every case of the statement `TtbSteps` with premises has a state and operands that meet them. -/
theorem witness_TtbSteps :
    (∃ (s : State) (c : Nat) (m : Image), c < 16 ∧ s.ttbs.length = 16 ∧ s.img c = some m ∧ s.active = true ∧ s.ttbState c = 5 ∧ s.rd (TTB_STAT_PAUSED
      (ttbPg c)) = 0 ∧ (s.ttb c).disarmReq = false ∧ (s.ttb c).void = none ∧ s.ended c m = false ∧ s.quiet .dz8 = false ∧ (s.ttb c).stopReq = false ∧
      (s.ttb c).held = false ∧ s.flt.fatal = false ∧ (m.step (s.rd (TTB_STEP_NEXT (ttbPg c)))).xdom = false) ∧
    (∃ (s : State) (c : Nat) (m : Image), c < 16 ∧ s.ttbs.length = 16 ∧ s.img c = some m ∧ s.active = true ∧ s.ttbState c = 5 ∧ s.rd (TTB_STAT_PAUSED
      (ttbPg c)) = 0 ∧ (s.ttb c).disarmReq = false ∧ (s.ttb c).void = none ∧ s.ended c m = false ∧ s.quiet .dz8 = false ∧ (s.ttb c).stopReq = true) ∧
    (∃ (s : State) (c : Nat), s.ard Ia.TTB_STAT_STATE = 3 ∧ s.ag.disarmReq = false ∧ s.ag.flipPaused = false ∧ s.agRolled = false ∧ s.agEnded = false
      ∧ s.quiet .agent = false ∧ s.ag.stopInject = false ∧ s.agTime.injectStop = false ∧ s.ard Ia.TMK_STAT_STATE = 2) ∧
    (∃ (s : State) (c : Nat), s.ard Ia.TTB_STAT_STATE = 3 ∧ s.ag.disarmReq = false ∧ s.quiet .agent = false ∧ s.ard Ia.TMK_STAT_STATE ≠ 2) ∧
    (∃ (s : State) (c : Nat) (m : Image) (o : OpenStep) (r : List OpenStep), c < 16 ∧ s.ttbs.length = 16 ∧ (s.ttb c).uncommitted = o :: r ∧ s.img c =
      some m ∧ s.active = true ∧ (s.ttb c).void = none) ∧
    (∃ (s : State) (c : Nat) (o : OpenStep) (r : List OpenStep), s.ag.uncommitted = o :: r ∧ s.agVoided o.step = false ∧ s.ag.stopInject = false ∧
      o.step ∉ s.ag.short ∧ s.agEnded = false) ∧
    (∃ (s : State) (c : Nat) (o : OpenStep) (r : List OpenStep), s.ag.uncommitted = o :: r ∧ s.agVoided o.step = false ∧ s.ag.stopInject = false ∧
      o.step ∈ s.ag.short) :=
  ⟨⟨(st [(TTB_STAT_STATE (ttbPg 3), 5), (PAR_STAT_ROLE, 1)]).setTtb 3 fun x => { x with image := some img1 }, 3, img1, by decide⟩,
   ⟨(st [(TTB_STAT_STATE (ttbPg 3), 5), (PAR_STAT_ROLE, 1)]).setTtb 3 fun x => { x with image := some img1, stopReq := true }, 3, img1, by decide⟩,
   ⟨ast [(Ia.TTB_STAT_STATE, 3), (Ia.TMK_STAT_STATE, 2)], 3, by decide⟩,
   ⟨ast [(Ia.TTB_STAT_STATE, 3)], 3, by decide⟩,
   ⟨(st [(TTB_STAT_STATE (ttbPg 3), 5), (PAR_STAT_ROLE, 1)]).setTtb 3 fun x => { x with image := some img1, uncommitted := [⟨0, 0, 3⟩] }, 3, img1, ⟨0, 0, 3⟩, [], by decide⟩,
   ⟨(ast [(Ia.TTB_STAT_STATE, 3)]).setAg fun x => { x with uncommitted := [⟨0, 0, 3⟩] }, 3, ⟨0, 0, 3⟩, [], by decide⟩,
   ⟨(ast [(Ia.TTB_STAT_STATE, 3)]).setAg fun x => { x with uncommitted := [⟨0, 0, 3⟩], short := [0] }, 3, ⟨0, 0, 3⟩, [], by decide⟩⟩

/-- Every case of the statement `TtbVoids` with premises has a state and operands that meet them. -/
theorem witness_TtbVoids :
    (∃ (s : State) (c : Nat) (o : OpenStep) (r : List OpenStep), c < 16 ∧ s.ttbs.length = 16 ∧ (s.ttb c).uncommitted = o :: r ∧ s.ttbState c = 5 ∧
      (s.ttb c).void = none ∧ (s.ttb c).miss = none) ∧
    (∃ (s : State) (c : Nat) (x : Miss) (m : Image) (o : OpenStep), c < 16 ∧ s.ttbs.length = 16 ∧ (s.ttb c).miss = some x ∧ s.img c = some m ∧ ((s.ttb
      c).uncommitted.find? (fun o => o.step == x.step && o.iter == x.iter) = some o) ∧ s.active = true ∧ s.time.beat < s.commitBeat c o) ∧
    (∃ (s : State) (c : Nat) (v : VoidSt), c < 16 ∧ s.ttbs.length = 16 ∧ (s.ttb c).void = some v ∧ 0 < v.repeats) ∧
    (∃ (s : State) (c : Nat) (v : VoidSt), (s.ttb c).void = some v ∧ v.repeats = 0 ∧ (s.ttb c).others = []) ∧
    (∃ (s : State) (x : Cell), s.ard Ia.RTE_SELF_VALID = 1 ∧ voidCtx x = s.agCtx ∧ s.ard Ia.TTB_STAT_STATE = 3 ∧ s.ag.void = none) ∧
    (∃ (s : State) (x : Cell), s.ttbs.length = 16 ∧ s.active = true ∧ (voidOf x).home ≠ s.fid ∧ (s.membersOf (voidCtx x)).isEmpty = false ∧ (s.ttb
      (voidCtx x)).void = none) ∧
    (∃ (s : State) (x : Cell), (voidOf x).home = s.fid) ∧
    (∃ (s : State) (x : Cell), bits (cellWord x 4) 63 56 ≠ 2) ∧
    (∃ (s : State) (x : Cell) (c : Nat) (o : OpenStep), c < 16 ∧ s.ttbs.length = 16 ∧ bits (cellWord x 4) 63 56 = 2 ∧ (Event.ofWords (cellWord x 0)
      (cellWord x 1) (cellWord x 2) (cellWord x 3)).ctx = some c ∧ s.isBranch c = false ∧ ((s.ttb c).uncommitted.find? (fun o => o.step == bits
      (cellWord x 5) 31 0 && o.iter == bits (cellWord x 5) 63 32) = some o) ∧ s.time.beat < s.commitBeat c o ∧ (s.ttb c).void = none ∧ (s.ttb c).miss
      = none) ∧
    (∃ (s : State) (c : Nat) (rs : List VoidReport) (v : VoidSt), c < 16 ∧ s.ttbs.length = 16 ∧ (s.ttb c).void = some v ∧ v.home = s.fid ∧ s.active =
      true ∧ (∀ m ∈ s.membersOf c, ∃ r ∈ rs, r.fid = m.2 ∧ r.serial = v.serial ∧ r.committed = false)) :=
  ⟨⟨(st [(TTB_STAT_STATE (ttbPg 3), 5)]).setTtb 3 fun x => { x with uncommitted := [⟨2, 0, 3⟩] }, 3, ⟨2, 0, 3⟩, [], by decide⟩,
   ⟨(st [(TTB_STAT_STATE (ttbPg 3), 5), (PAR_STAT_ROLE, 1)]).setTtb 3 fun x => { x with image := some img1, uncommitted := [⟨0, 0, 3⟩], miss := some ⟨0, 0, 1, 5, none⟩ }, 3, ⟨0, 0, 1, 5, none⟩, img1, ⟨0, 0, 3⟩, by decide⟩,
   ⟨(st [(TTB_STAT_STATE (ttbPg 3), 5)]).setTtb 3 fun x => { x with void := some void1 }, 3, void1, by decide⟩,
   ⟨(st [(TTB_STAT_STATE (ttbPg 3), 5)]).setTtb 3 fun x => { x with void := some { void1 with repeats := 0 } }, 3, { void1 with repeats := 0 }, by decide⟩,
   ⟨ast [(Ia.RTE_SELF_VALID, 1), (Ia.TTB_STAT_STATE, 3)], aCell0, by decide⟩,
   ⟨(st [(PAR_STAT_ROLE, 1), (CTX_SLICE_N (ctxPg 0), 1), (GEN_FID_FID, 3)]).setCtx 0 fun x => { x with map := [(0, 2 ^ 63 + 7)] }, aCell0, by decide⟩,
   ⟨st0, aCell0, by decide⟩,
   ⟨st0, aCell0, by decide⟩,
   ⟨st0.setTtb 3 fun x => { x with image := some img1, uncommitted := [⟨0, 0, 3⟩] }, { aCell0 with payload := [0, word (3 * 2 ^ 60 + 2 ^ 59), 0, 0, word (2 * 2 ^ 56), 0] }, 3, ⟨0, 0, 3⟩, by decide⟩,
   ⟨(st [(TTB_STAT_STATE (ttbPg 3), 5), (PAR_STAT_ROLE, 1)]).setTtb 3 fun x => { x with void := some void1 }, 3, [], void1, by decide⟩⟩

/-- Every case of the statement `TtbRollback` with premises has a state and operands that meet them. -/
theorem witness_TtbRollback :
    (∃ (s : State) (c : Nat) (v : VoidSt), c < 16 ∧ s.ttbs.length = 16 ∧ (s.ttb c).void = some v ∧ v.rolled = false ∧ v.rs.isSome = true) ∧
    (∃ (s : State) (c : Nat) (v : VoidSt), c < 16 ∧ s.ttbs.length = 16 ∧ (s.ttb c).void = some v ∧ v.rolled = false ∧ v.rs = none ∧ s.ttbState c = 5) ∧
    (∃ (s : State) (c : Nat) (v : VoidSt), s.ag.void = some v ∧ v.rolled = false ∧ v.rs.isSome = true) ∧
    (∃ (s : State) (c : Nat) (v : VoidSt) (rs : Nat), c < 16 ∧ s.ttbs.length = 16 ∧ (s.ttb c).void = some v ∧ v.rolled = true ∧ v.unconfirmed = [] ∧
      v.rs = some rs ∧ (s.ctx c).release = none) ∧
    (∃ (s : State) (c : Nat) (v : VoidSt), c < 16 ∧ s.ttbs.length = 16 ∧ (s.ttb c).void = some v ∧ v.rolled = true ∧ v.unconfirmed ≠ [] ∧ v.home =
      s.fid ∧ (s.ctx c).release = none) ∧
    (∃ (s : State) (c : Nat) (v : VoidSt) (rs : Nat), s.ag.void = some v ∧ v.rolled = true ∧ s.ag.disarmReq = false ∧ v.rs = some rs) ∧
    (∃ (s : State) (c : Nat) (l : List CongestionCount), c < 16) ∧
    (∃ (s : State) (c : Nat), c < 16 ∧ s.ttbs.length = 16) ∧
    (∃ (s : State) (n : Nat), n ≤ s.armedEnergy 16 + s.idleUj ∧ n < 2 ^ (PWR_ENERGY_LAST_UJ).w) ∧
    (∃ (s : State) (n : Nat), s.armedEnergy 16 + s.idleUj < n) :=
  ⟨⟨(st [(TTB_STAT_STATE (ttbPg 3), 5)]).setTtb 3 fun x => { x with void := some void1 }, 3, void1, by decide⟩,
   ⟨(st [(TTB_STAT_STATE (ttbPg 3), 5)]).setTtb 3 fun x => { x with void := some { void1 with rs := none } }, 3, { void1 with rs := none }, by decide⟩,
   ⟨st0.setAg fun x => { x with void := some void1 }, 3, void1, by decide⟩,
   ⟨(st [(TTB_STAT_STATE (ttbPg 3), 5)]).setTtb 3 fun x => { x with void := some { void1 with rolled := true } }, 3, { void1 with rolled := true }, 90, by decide⟩,
   ⟨(st [(TTB_STAT_STATE (ttbPg 3), 5)]).setTtb 3 fun x => { x with void := some { void1 with rolled := true, unconfirmed := [7] } }, 3, { void1 with rolled := true, unconfirmed := [7] }, by decide⟩,
   ⟨st0.setAg fun x => { x with void := some { void1 with rolled := true } }, 3, { void1 with rolled := true }, 90, by decide⟩,
   ⟨st0, 3, [], by decide⟩,
   ⟨st0, 3, by decide⟩,
   ⟨st0, 0, by decide⟩,
   ⟨st0, 2 ^ 60, by decide⟩⟩

/-- Every case of the statement `EngineContributions` with premises has a state and operands that meet them. -/
theorem witness_EngineContributions :
    (∃ (s : State) (po : Nat) (x : Cell), x.epoch ≠ s.epochOf .dz8 s.domain) ∧
    (∃ (s : State) (po : Nat) (x : Cell) (c : Nat) (m : Image) (p : Program) (i : Instance), x.epoch = s.epochOf .dz8 s.domain ∧ s.ctxOfFid x.src =
      some c ∧ s.prog c (x.cidx % 2 ^ 15) = some (m, p) ∧ s.inst c (x.cidx % 2 ^ 15) = some i ∧ i.isOpen = true ∧ i.state ≠ .error ∧ i.parity = x.cidx
      / 2 ^ 15 ∧ s.knows p i x.src = true ∧ x.offset % 2 ^ 30 < s.inputCells c p x.src (x.offset / 2 ^ 30) ∧ i.count x.src (x.offset / 2 ^ 30) <
      s.expected p i x.src (x.offset / 2 ^ 30)) ∧
    (∃ (s : State) (c : Nat) (m : Image), c < 16 ∧ s.ttbs.length = 16 ∧ s.img c = some m ∧ s.active = true ∧ s.armed c = true ∧ s.rd (TTB_STAT_PAUSED
      (ttbPg c)) = 0) ∧
    (∃ (s : State) (c x k d : Nat) (i : Instance), c < 16 ∧ s.ttbs.length = 16 ∧ s.inst c x = some i ∧ i.isOpen = true ∧ i.state = .opened ∧
      s.isBranch c = false ∧ (s.ttb c).void = none ∧ (s.ttb c).miss = none ∧ k < 2 ^ CLX_ENG_ERR_CLASS.w) ∧
    (∃ (s : State) (c x k d : Nat), s.inst c x = none) ∧
    (∃ (s : State) (c x k d : Nat) (q : Nat × Nat), s.inst c x = none ∧ (d = 2 ∨ d = 3)) ∧
    (∃ (s : State) (c x f n b : Nat) (m : Image) (p : Program) (i : Instance), s.prog c x = some (m, p) ∧ s.inst c x = some i ∧ p.inMx n = false) ∧
    (∃ (s : State) (c x f n b : Nat) (m : Image) (p : Program) (i : Instance) (g : MxFmt) (lid : Nat) (pl : Nat × Nat × Nat), s.prog c x = some (m, p)
      ∧ s.inst c x = some i ∧ (lid = ((p.members.find? fun q => s.lidFid c q.lid == some f).map (·.lid)).getD 0) ∧ pl = blockPlace (p.inShape lid n) b
      ∧ i.isOpen = true ∧ p.inMx n = true ∧ p.inMdies = false ∧ MxFmt.ofByte (p.inShape lid n).1 = some g ∧ pl.1 < (p.inShape lid n).2.2.2 ∧ 128 *
      pl.2.1 < (p.inShape lid n).2.1 ∧ i.holds f n pl.2.2 g.bsz = true ∧ ((i.decoded.any fun y => y.1 == f && y.2.1 == decKey n (pl.1 * (p.inShape lid
      n).2.1 + 128 * pl.2.1)) = false) ∧ (p.op = 5 → n = 2 → (i.slotToken p lid (pl.1 / p.cap) (pl.1 % p.cap)).isSome = true)) :=
  ⟨⟨st0, 0, { aCell0 with epoch := 5 }, by decide⟩,
   ⟨contribSt, 0, contribCell1, 3, img1, prog1, inst1, by decide⟩,
   ⟨(st [(TTB_STAT_STATE (ttbPg 3), 5), (PAR_STAT_ROLE, 1)]).setTtb 3 fun x => { x with image := some img1 }, 3, img1, by decide⟩,
   ⟨instSt prog1 .opened, 3, 5, 1, 0, inst1, by decide⟩,
   ⟨st0, 3, 5, 1, 0, by decide⟩,
   ⟨st0, 3, 5, 1, 2, (1, 9), by decide⟩,
   ⟨instSt prog1 .opened, 3, 5, 7, 0, 0, { img1 with programs := [prog1] }, prog1, { inst1 with state := .opened }, by decide⟩,
   ⟨mxSt, 3, 5, 7, 0, 0, img2, prog2, inst2, ⟨false, false, 1⟩, 0, (0, 0, 0), by decide⟩⟩

/-- Every case of the statement `EngineResults` with premises has a state and operands that meet them. -/
theorem witness_EngineResults :
    (∃ (s : State) (c x k b : Nat) (m : Image) (p : Program) (i : Instance), s.prog c x = some (m, p) ∧ s.inst c x = some i ∧ i.isOpen = true ∧
      p.inMdies = false ∧ i.state = .complete) ∧
    (∃ (s : State) (c x k b : Nat) (m : Image) (p : Program) (i : Instance), s.prog c x = some (m, p) ∧ s.inst c x = some i ∧ i.isOpen = true ∧
      p.inMdies = false ∧ (i.state = .complete ∨ (p.op = 5 ∧ k ≠ 0 ∧ i.stage1 = true)) ∧ (((s.mxPart p i k).any fun q => decide (b / max 1 (ceilDiv
      q.len 128) < q.rows) && q.filled (b / max 1 (ceilDiv q.len 128))) = true) ∧ ((i.encoded.any fun y => y.1 == encKey k b) = false)) ∧
    (∃ (s : State) (c x : Nat) (m : Image) (p : Program) (i : Instance), s.prog c x = some (m, p) ∧ s.inst c x = some i ∧ i.isOpen = true ∧ p.op = 5 ∧
      i.stage1 = false ∧ i.state = .opened ∧ ((s.expects c p (s.branchUnit i)).all (fun y => y.2.1 != 0 || i.count y.1 0 == y.2.2) = true)) ∧
    (∃ (s : State) (c x : Nat) (m : Image) (p : Program) (i : Instance), s.prog c x = some (m, p) ∧ s.inst c x = some i ∧ i.isOpen = true ∧ p.op = 5 ∧
      i.stage1 = false ∧ (i.state = .opened ∨ i.state = .complete) ∧ ((s.expects c p (s.branchUnit i)).all (fun y => y.2.1 != 0 || i.count y.1 0 ==
      y.2.2) = true)) ∧
    (∃ (s : State) (c x : Nat) (m : Image) (p : Program) (i : Instance), s.prog c x = some (m, p) ∧ s.inst c x = some i ∧ i.isOpen = true ∧ p.op = 5 ∧
      i.stage1 = false ∧ (i.state = .opened ∨ i.state = .complete) ∧ ((s.expects c p (s.branchUnit i)).all (fun y => y.2.1 != 0 || i.count y.1 0 ==
      y.2.2) = true) ∧ p.infmt ≠ 3 ∧ i.choices = []) ∧
    (∃ (s : State) (c x : Nat) (m : Image) (p : Program) (i : Instance), s.prog c x = some (m, p) ∧ s.inst c x = some i ∧ ((s.expects c p
      (s.branchUnit i)).all (fun y => y.2.1 != 0 || i.count y.1 0 == y.2.2) = false)) ∧
    (∃ (s : State) (c x : Nat) (m : Image) (p : Program) (i : Instance), s.prog c x = some (m, p) ∧ s.inst c x = some i ∧ i.stage1 = true) ∧
    (∃ (s : State) (c x b : Nat) (m : Image) (p : Program) (i : Instance), s.prog c x = some (m, p) ∧ s.inst c x = some i ∧ i.isOpen = true ∧
      p.inMdies = true ∧ i.state = .complete ∧ 384 * b < p.elems ∧ i.encoded = [] ∧ p.op = 1) ∧
    (∃ (s : State) (c x b : Nat) (m : Image) (p : Program) (i : Instance), s.prog c x = some (m, p) ∧ s.inst c x = some i ∧ i.isOpen = true ∧
      p.inMdies = true ∧ (i.state = .opened ∨ i.state = .complete) ∧ 384 * b < p.elems ∧ ((i.encoded.any fun y => y.1 == encKey 0 b) = false) ∧ (p.op
      = 6 → s.hbm.mapBad.contains c = false ∧ s.stateBad c (p.paramOff / s.optB c + 384 * b) (min 384 (p.elems - 384 * b)) = none)) ∧
    (∃ (s : State) (c x b : Nat) (m : Image) (p : Program) (i : Instance), s.prog c x = some (m, p) ∧ s.inst c x = some i ∧ p.elems ≤ 384 * b) ∧
    (∃ (s : State) (c x : Nat) (m : Image) (p : Program) (i : Instance), c < 16 ∧ s.prog c x = some (m, p) ∧ s.inst c x = some i ∧ i.isOpen = true ∧
      i.state = .complete ∧ s.isBranch c = false ∧ p.op = 1) ∧
    (∃ (s : State) (c x : Nat) (m : Image) (p : Program) (i : Instance), s.prog c x = some (m, p) ∧ s.inst c x = some i ∧ i.isOpen = true ∧ i.state =
      .complete ∧ s.isBranch c = false ∧ p.op ≠ 6) ∧
    (∃ (s : State) (c x : Nat) (m : Image) (p : Program) (i : Instance), s.prog c x = some (m, p) ∧ s.inst c x = some i ∧ i.isOpen = true ∧ i.state =
      .complete ∧ s.isBranch c = false ∧ p.op = 6 ∧ p.inMdies = true ∧ s.hbm.mapBad.contains c = false ∧ (∀ b < ceilDiv p.elems 384, (i.encoded.any
      fun y => y.1 == encKey 0 b) = true)) ∧
    (∃ (s : State) (c x : Nat) (m : Image) (p : Program) (i : Instance), s.prog c x = some (m, p) ∧ s.inst c x = some i ∧ i.isOpen = true ∧ i.state =
      .complete ∧ s.isBranch c = false ∧ p.op = 6 ∧ s.hbm.mapBad.contains c = true) ∧
    (∃ (s : State) (c x : Nat) (m : Image) (p : Program) (i : Instance), s.prog c x = some (m, p) ∧ s.inst c x = some i ∧ i.state = .opened) ∧
    (∃ (s : State) (c n : Nat) (m : Image) (e : Entry) (q : Image × Program) (i : Instance), s.img c = some m ∧ m.entries[n]? = some e ∧ s.prog c
      e.srcbuf = some q ∧ s.inst c e.srcbuf = some i ∧ e.kind = 4 ∧ i.isOpen = true ∧ i.state = .ready ∧ i.step = e.step) ∧
    (∃ (s : State) (c n : Nat) (m : Image) (e : Entry) (q : Image × Program) (i : Instance), s.img c = some m ∧ m.entries[n]? = some e ∧ s.prog c
      e.srcbuf = some q ∧ s.inst c e.srcbuf = some i ∧ e.kind = 4 ∧ i.isOpen = true ∧ ((i.state = .ready ∧ i.step = e.step) ∨ (q.2.op = 5 ∧ i.stage1 =
      true ∧ e.segment + 48 * e.cells ≤ q.2.dispatchLen ∧ (i.state = .opened ∨ i.state = .complete)))) ∧
    (∃ (s : State) (c n : Nat) (m : Image) (e : Entry) (q : Image × Program) (i : Instance), s.img c = some m ∧ m.entries[n]? = some e ∧ s.prog c
      e.srcbuf = some q ∧ s.inst c e.srcbuf = some i ∧ e.kind = 4 ∧ i.isOpen = true ∧ i.state = .ready ∧ i.step = e.step ∧ s.mayLeave i n e.rate
      e.cells (s.boundaryOf i + e.beat) = 1 ∧ e.port < s.ports.length ∧ s.bears .dz8 e.port = true) ∧
    (∃ (s : State) (c n : Nat), s.img c = none) ∧
    (∃ (s : State) (c x : Nat) (m : Image) (p : Program) (i : Instance), s.prog c x = some (m, p) ∧ s.inst c x = some i ∧ i.isOpen = true ∧ i.state =
      .complete ∧ s.isBranch c = false) ∧
    (∃ (s : State) (c x : Nat) (m : Image) (p : Program) (i : Instance), s.prog c x = some (m, p) ∧ s.inst c x = some i ∧ i.isOpen = true ∧ i.state =
      .complete ∧ s.isBranch c = true ∧ p.branches = true) ∧
    (∃ (s : State) (c x : Nat) (m : Image) (p : Program) (i : Instance), s.prog c x = some (m, p) ∧ s.inst c x = some i ∧ i.isOpen = true ∧ i.state =
      .complete ∧ s.isBranch c = true ∧ p.branches = true) ∧
    (∃ (s : State) (c x : Nat) (m : Image) (p : Program) (i : Instance), s.prog c x = some (m, p) ∧ s.inst c x = some i ∧ i.isOpen = true ∧ (i.state =
      .complete ∨ i.state = .ready) ∧ s.isBranch c = true ∧ p.branches = true ∧ p.infmt ≠ 3 ∧ p.op ≠ 5) :=
  ⟨⟨instSt prog1 .complete, 3, 5, 0, 0, { img1 with programs := [prog1] }, prog1, { inst1 with state := .complete }, by decide⟩,
   ⟨instSt progE .complete, 3, 5, 0, 0, { img1 with programs := [progE] }, progE, { inst1 with state := .complete }, by decide⟩,
   ⟨instSt prog5 .opened, 3, 5, { img1 with programs := [prog5] }, prog5, { inst1 with state := .opened }, by decide⟩,
   ⟨instSt prog5 .complete, 3, 5, { img1 with programs := [prog5] }, prog5, { inst1 with state := .complete }, by decide⟩,
   ⟨instSt prog5 .complete, 3, 5, { img1 with programs := [prog5] }, prog5, { inst1 with state := .complete }, by decide⟩,
   ⟨(instSt progR .opened).setCtx 3 fun x => { x with map := [(0, 0x8000000000000007)] }, 3, 5, { img1 with programs := [progR] }, progR, { inst1 with state := .opened }, by decide⟩,
   ⟨instSt2 { inst1 with stage1 := true }, 3, 5, img1, prog1, { inst1 with stage1 := true }, by decide⟩,
   ⟨instSt prog1m .complete, 3, 5, 0, { img1 with programs := [prog1m] }, prog1m, { inst1 with state := .complete }, by decide⟩,
   ⟨instSt prog1m .opened, 3, 5, 0, { img1 with programs := [prog1m] }, prog1m, { inst1 with state := .opened }, by decide⟩,
   ⟨instSt prog1m .opened, 3, 5, 800, { img1 with programs := [prog1m] }, prog1m, { inst1 with state := .opened }, by decide⟩,
   ⟨instSt prog1 .complete, 3, 5, { img1 with programs := [prog1] }, prog1, { inst1 with state := .complete }, by decide⟩,
   ⟨instSt prog5 .complete, 3, 5, { img1 with programs := [prog5] }, prog5, { inst1 with state := .complete }, by decide⟩,
   ⟨instSt' prog6 { inst1 with state := .complete, encoded := [(0, [])] }, 3, 5, { img1 with programs := [prog6] }, prog6, { inst1 with state := .complete, encoded := [(0, [])] }, by decide⟩,
   ⟨(instSt' prog6 { inst1 with state := .complete }).setHbm fun h => { h with mapBad := [3] }, 3, 5, { img1 with programs := [prog6] }, prog6, { inst1 with state := .complete }, by decide⟩,
   ⟨instSt prog1 .opened, 3, 5, { img1 with programs := [prog1] }, prog1, { inst1 with state := .opened }, by decide⟩,
   ⟨resSt, 3, 0, imgR, entR, (imgR, prog1), { inst1 with state := .ready }, by decide⟩,
   ⟨resSt, 3, 0, imgR, entR, (imgR, prog1), { inst1 with state := .ready }, by decide⟩,
   ⟨(resSt.wr (PRT_STAT_STATE (prtPg entR.port)) 2).setTime fun x => { x with beat := 10 ^ 6 }, 3, 0, imgR, entR, (imgR, prog1), { inst1 with state := .ready }, by decide⟩,
   ⟨st0, 3, 0, by decide⟩,
   ⟨instSt prog1 .complete, 3, 5, { img1 with programs := [prog1] }, prog1, { inst1 with state := .complete }, by decide⟩,
   ⟨branchSt, 3, 5, { img1 with programs := [progB] }, progB, { inst1 with state := .complete }, by decide⟩,
   ⟨branchSt, 3, 5, { img1 with programs := [progB] }, progB, { inst1 with state := .complete }, by decide⟩,
   ⟨branchSt, 3, 5, { img1 with programs := [progB] }, progB, { inst1 with state := .complete }, by decide⟩⟩

/-- Every case of the statement `CodecTests` with premises has a state and operands that meet them. -/
theorem witness_CodecTests :
    (∃ (s : State) (d : Nat) (f : MxFmt), s.rd (CDC_STAT_TEST_BUSY (cdcPg d)) = 0 ∧ MxFmt.ofByte (s.rd (CDC_TB_MODE_FMT (cdcPg d))) = some f) ∧
    (∃ (s : State) (d : Nat), s.rd (CDC_STAT_TEST_BUSY (cdcPg d)) = 0 ∧ MxFmt.ofByte (s.rd (CDC_TB_MODE_FMT (cdcPg d))) = none) ∧
    (∃ (s : State) (d : Nat), s.rd (CDC_STAT_TEST_BUSY (cdcPg d)) = 1) ∧
    (∃ (s : State) (d : Nat) (f : MxFmt), s.rd (CDC_STAT_TEST_BUSY (cdcPg d)) = 1 ∧ MxFmt.ofByte (s.rd (CDC_TB_MODE_FMT (cdcPg d))) = some f ∧ s.rd
      (CDC_TB_MODE_DIR (cdcPg d)) = 1) ∧
    (∃ (s : State) (d : Nat) (f : MxFmt), s.rd (CDC_STAT_TEST_BUSY (cdcPg d)) = 1 ∧ MxFmt.ofByte (s.rd (CDC_TB_MODE_FMT (cdcPg d))) = some f ∧ s.rd
      (CDC_TB_MODE_DIR (cdcPg d)) = 0) ∧
    (∃ (s : State) (d : Nat), s.rd (CDC_STAT_GEN_BUSY (cdcPg d)) = 1) ∧
    (∃ (s : State) (d : Nat), s.rd (CDC_STAT_GEN_BUSY (cdcPg d)) = 0) :=
  ⟨⟨st [(CDC_TB_MODE_FMT (cdcPg 1), 1)], 1, ⟨false, false, 1⟩, by decide⟩,
   ⟨st0, 1, by decide⟩,
   ⟨st [(CDC_STAT_TEST_BUSY (cdcPg 1), 1)], 1, by decide⟩,
   ⟨st [(CDC_TB_MODE_FMT (cdcPg 1), 1), (CDC_STAT_TEST_BUSY (cdcPg 1), 1), (CDC_TB_MODE_DIR (cdcPg 1), 1)], 1, ⟨false, false, 1⟩, by decide⟩,
   ⟨st [(CDC_TB_MODE_FMT (cdcPg 1), 1), (CDC_STAT_TEST_BUSY (cdcPg 1), 1)], 1, ⟨false, false, 1⟩, by decide⟩,
   ⟨st [(CDC_STAT_GEN_BUSY (cdcPg 1), 1)], 1, by decide⟩,
   ⟨st0, 1, by decide⟩⟩

/-- Every case of the statement `TileChains` with premises has a state and operands that meet them. -/
theorem witness_TileChains :
    (∃ (s : State) (d k c x n : Nat) (ws : List Word) (e : Descriptor) (i : Instance), e = (s.buildDesc d k n ws).descAt d k n ∧ s.chainOf d k = none
      ∧ s.inst c x = some i ∧ i.isOpen = true ∧ i.state ≠ .error ∧ s.tileReady d k c = true ∧ s.objSet d c x e.wait = true ∧ s.rd PWR_STAT_THROTTLED =
      0 ∧ (s.buildDesc d k n ws).descOk ⟨d, k, c, x, n, none, none, []⟩ e = true) ∧
    (∃ (s : State) (d k c x n : Nat) (ws : List Word), s.chainOf d k = none ∧ s.tileReady d k c = false) ∧
    (∃ (s : State) (d k c x n : Nat) (ws : List Word), s.chainOf d k = none ∧ s.rd PWR_STAT_THROTTLED = 1) ∧
    (∃ (s : State) (d k : Nat) (h : ChainSt) (e : Descriptor), s.chainOf d k = some h ∧ h.running = some e ∧ e.next = 0xFFFF) ∧
    (∃ (s : State) (d k : Nat) (h : ChainSt) (e : Descriptor), s.chainOf d k = some h ∧ h.running = some e ∧ e.next ≠ 0xFFFF) ∧
    (∃ (s : State) (d k : Nat), s.chainOf d k = none) ∧
    (∃ (s : State) (d k : Nat) (h : ChainSt), d < 2 ∧ k < 64 ∧ s.chainOf d k = some h ∧ s.inst h.ctx h.xid = none) ∧
    (∃ (s : State) (d k n : Nat), s.chainOf d k = none ∧ n ≠ 4 ∧ s.tileAbsent d k = false) ∧
    (∃ (s : State) (d k c : Nat), s.chainOf d k = none ∧ s.tileAbsent d k = false ∧ s.tileReady d k c = false ∧ ((s.tile.scrubs.any fun x => x.die ==
      d && x.tile == k) = false)) ∧
    (∃ (s : State) (d k c : Nat), s.tileReady d k c = true) ∧
    (∃ (s : State) (d k n : Nat) (x : ScrubSt), (s.tile.scrubs.find? (fun x => x.die == d && x.tile == k) = some x)) :=
  ⟨⟨instSt prog1 .opened, 1, 9, 3, 5, 0, desc1Words, ((instSt prog1 .opened).buildDesc 1 9 0 desc1Words).descAt 1 9 0, inst1, by decide⟩,
   ⟨st [(TTL_STAT_ABSENT (tilePg 1 9), 2)], 1, 9, 3, 5, 0, desc1Words, by decide⟩,
   ⟨st [(PWR_STAT_THROTTLED, 1)], 1, 9, 3, 5, 0, desc1Words, by decide⟩,
   ⟨chainSt desc1, 1, 9, ⟨1, 9, 3, 5, 0, some desc1, none, []⟩, desc1, by decide⟩,
   ⟨chainSt { desc1 with next := 4 }, 1, 9, ⟨1, 9, 3, 5, 0, some { desc1 with next := 4 }, none, []⟩, { desc1 with next := 4 }, by decide⟩,
   ⟨st0, 1, 9, by decide⟩,
   ⟨chainStNo desc1, 1, 9, ⟨1, 9, 3, 5, 0, some desc1, none, []⟩, by decide⟩,
   ⟨st0, 1, 9, 1, by decide⟩,
   ⟨st0.setTile fun x => { x with lastCtx := tset x.lastCtx (tileKey 1 9) 5 }, 1, 9, 3, by decide⟩,
   ⟨st0, 1, 9, 3, by decide⟩,
   ⟨st0.setTile fun x => { x with scrubs := [⟨1, 9, 3⟩] }, 1, 9, 20, ⟨1, 9, 3⟩, by decide⟩⟩

/-- Every case of the statement `TileFailures` with premises has a state and operands that meet them. -/
theorem witness_TileFailures :
    (∃ (s : State) (d p n : Nat), s.runFailed d p = true) ∧
    (∃ (s : State) (d p n : Nat), d < 2 ∧ p < 68 ∧ s.runFailed d p = false ∧ s.logicalOf d p = none) ∧
    (∃ (s : State) (d p n k : Nat), d < 2 ∧ p < 68 ∧ s.runFailed d p = false ∧ s.logicalOf d p = some k) ∧
    (∃ (s : State) (d : Nat) (l : List Nat), (∀ k < 64, bit (s.rd (TTL_STAT_SWAP_PENDING (tilePg d k))) (k % 8) = false)) ∧
    (∃ (s : State) (d k p : Nat) (r : List Nat), d < 2 ∧ ((List.range 64).filter (fun j => bit (s.rd (TTL_STAT_SWAP_PENDING (tilePg d j))) (j % 8)) =
      [k]) ∧ s.spareTiles d = p :: r) :=
  ⟨⟨st [(TTL_RUNFAIL_LO_FAILED (ttlDiePg 1), 2 ^ 9)], 1, 9, 1, by decide⟩,
   ⟨st0, 1, 66, 1, by decide⟩,
   ⟨st0, 1, 9, 1, 9, by decide⟩,
   ⟨st0, 1, [], by decide⟩,
   ⟨st [(TTL_STAT_SWAP_PENDING (tilePg 1 9), 2), (TTL_STAT_ABSENT (tilePg 1 9), 2), (TTL_MAP_PHYS (tilePg 1 9) 1, 0xFF), (TTL_RUNFAIL_LO_FAILED (ttlDiePg 1), 2 ^ 9)], 1, 9, 64, [65, 66, 67], by decide⟩⟩

/-- Every case of the statement `SyncWindow` with premises has a state and operands that meet them. -/
theorem witness_SyncWindow :
    (∃ (s : State) (d : Nat) (a : SyncAccess), a.offset % 8 = 0 ∧ s.awake d = true ∧ a.op = .read) ∧
    (∃ (s : State) (d : Nat) (a : SyncAccess), a.offset % 8 = 0 ∧ s.awake d = true ∧ a.op = .write ∧ syncReserved d (a.offset / 8) = false) ∧
    (∃ (s : State) (d : Nat) (a : SyncAccess), a.offset % 8 = 0 ∧ s.awake d = true ∧ a.op = .add ∧ syncReserved d (a.offset / 8) = false) ∧
    (∃ (s : State) (d : Nat) (a : SyncAccess), s.awake d = true ∧ a.offset % 8 ≠ 0) ∧
    (∃ (s : State) (d : Nat) (a : SyncAccess), (s.tile.collided.find? (fun x => x.1 == d) = some (d, a)) ∧ a.offset % 8 = 0 ∧ s.awake d = true ∧ a.op
      = .write ∧ syncReserved d (a.offset / 8) = false) ∧
    (∃ (s : State) (d : Nat), (s.tile.collided.find? (fun x => x.1 == d) = none)) ∧
    (∃ (s : State) (d : Nat), s.awake d = true) ∧
    (∃ (s : State) (d : Nat), s.rd (PGH_STAT_SHELF_WIPING (pghPg d)) = 1) ∧
    (∃ (s : State) (d : Nat), s.armedOn d = false ∧ s.awake d = true) ∧
    (∃ (s : State) (d : Nat), s.armedOn d = true) ∧
    (∃ (s : State) (d : Nat), s.pghState d = 2) ∧
    (∃ (s : State) (d : Nat), s.pghState d = 3) ∧
    (∃ (s : State) (d c : Nat) (v : Word), (s.allocBad d c (bits v.toNat 13 0) (if bit v.toNat 63 then bits v.toNat 29 16 else 0) = false)) ∧
    (∃ (s : State) (d c : Nat) (v : Word), (s.allocBad d c (bits v.toNat 13 0) (if bit v.toNat 63 then bits v.toNat 29 16 else 0) = true)) ∧
    (∃ (s : State) (c n : Nat), ((s.allocDies c (s.rd (PGH_WIN_BASE_OFFSET (pghWinPg c)) + 8 * n) 8).find? (fun d => !s.awake d) = none) ∧ s.scrubbing
      c = false) ∧
    (∃ (s : State) (c n : Nat) (v : Word), ((s.allocDies c (s.rd (PGH_WIN_BASE_OFFSET (pghWinPg c)) + 8 * n) 8).find? (fun d => !s.awake d) = none) ∧
      s.scrubbing c = false ∧ (s.allocDies c (s.rd (PGH_WIN_BASE_OFFSET (pghWinPg c)) + 8 * n) 8).isEmpty = false) :=
  ⟨⟨st0, 0, ⟨16, .read, 0⟩, by decide⟩,
   ⟨st0, 0, ⟨16, .write, 7⟩, by decide⟩,
   ⟨st0, 0, ⟨16, .add, 7⟩, by decide⟩,
   ⟨st0, 0, ⟨17, .write, 7⟩, by decide⟩,
   ⟨st0.setTile fun x => { x with collided := [(0, ⟨16, .write, 7⟩)] }, 0, ⟨16, .write, 7⟩, by decide⟩,
   ⟨st0, 0, by decide⟩,
   ⟨st0, 1, by decide⟩,
   ⟨st [(PGH_STAT_SHELF_WIPING (pghPg 1), 1)], 1, by decide⟩,
   ⟨st0, 1, by decide⟩,
   ⟨st [(PGH_ALLOC_VALID (pghPg 1) 3, 1), (TTB_STAT_STATE (ttbPg 3), 5)], 1, by decide⟩,
   ⟨st [(PGH_STAT_STATE (pghPg 1), 2)], 1, by decide⟩,
   ⟨st [(PGH_STAT_STATE (pghPg 1), 3)], 1, by decide⟩,
   ⟨st0, 1, 3, 0, by decide⟩,
   ⟨st [(CTX_STAT_STATE (ctxPg 3), 2)], 1, 3, 0, by decide⟩,
   ⟨st0, 3, 0, by decide⟩,
   ⟨st [(PGH_ALLOC_VALID (pghPg 0) 3, 1), (PGH_ALLOC_ROWS (pghPg 0) 3, 2)], 3, 0, 7, by decide⟩⟩

/-- Every case of the statement `HbmStacks` with premises has a state and operands that meet them. -/
theorem witness_HbmStacks :
    (∃ (s : State) (m k n f : Nat), n ≤ 400 ∧ s.hasStack m k = true ∧ s.rd (HBC_STAT_STATE (hbcPg m k)) ≤ 1) ∧
    (∃ (s : State) (m k n f : Nat) (b : Bool), (b = false ∨ 400 < n) ∧ s.hasStack m k = true ∧ s.rd (HBC_STAT_STATE (hbcPg m k)) ≤ 1 ∧ s.rd
      (HBC_STAT_ATTEMPTS (hbcPg m k)) = 1) ∧
    (∃ (s : State) (r : StackReport), s.hasStack r.mdie r.stack = true) ∧
    (∃ (s : State), s.rd PAR_STAT_ROLE = 2 ∧ s.mdies ≠ 0) ∧
    (∃ (s : State), s.rd PAR_STAT_ROLE ≠ 2) ∧
    (∃ (s : State) (m n c : Nat), c < 16 ∧ m < 4) :=
  ⟨⟨st0, 1, 5, 20, 0, by decide⟩,
   ⟨st [(HBC_STAT_ATTEMPTS (hbcPg 1 5), 1)], 1, 5, 20, 7, false, by decide⟩,
   ⟨st0, ⟨1, 5, 3, 0⟩, by decide⟩,
   ⟨st [(PAR_STAT_ROLE, 2)], by decide⟩,
   ⟨st0, by decide⟩,
   ⟨st0, 1, 7, 3, by decide⟩⟩

/-- Every case of the statement `Vault` with premises has a state and operands that meet them. -/
theorem witness_Vault :
    (∃ (s : State) (c k : Nat) (v : Word), c < 16 ∧ k < 5 ∧ s.mdies ≠ 0 ∧ s.regionBad c k (bits v.toNat 11 0) (bits v.toNat 27 16) (bit v.toNat 63) =
      false) ∧
    (∃ (s : State) (c k : Nat) (v : Word), c < 16 ∧ k < 5 ∧ s.mdies ≠ 0 ∧ s.regionBad c k (bits v.toNat 11 0) (bits v.toNat 27 16) (bit v.toNat 63) =
      true) ∧
    (∃ (s : State) (c : Nat), s.rd (VLT_FILL_BUSY (vltPg c)) = 0 ∧ s.armed c = false ∧ 2 ≤ s.rd (VLT_FILL_CLASS (vltPg c)) ∧ s.rd (VLT_FILL_CLASS
      (vltPg c)) ≤ 5 ∧ (s.region c (s.rd (VLT_FILL_CLASS (vltPg c)))).isSome = true) ∧
    (∃ (s : State) (c : Nat), s.rd (VLT_FILL_BUSY (vltPg c)) = 0 ∧ s.armed c = true) ∧
    (∃ (s : State) (c : Nat) (r : Nat × Nat), s.rd (CTX_STAT_FILLING (ctxPg c)) = 0 ∧ s.rd (VLT_FILL_BUSY (vltPg c)) = 1 ∧ s.region c (s.rd
      (VLT_FILL_CLASS (vltPg c))) = some r) ∧
    (∃ (s : State) (c : Nat) (v : Word), c < 16 ∧ s.armed c = false ∧ bits v.toNat 1 0 ≠ 3 ∧ (s.tilesMost (bits v.toNat 63 44) ≤ s.slotsFor c (bits
      v.toNat 1 0) (if bit v.toNat 2 then 2 else 4))) ∧
    (∃ (s : State) (c k : Nat) (v : Word), c < 16 ∧ k < 4) ∧
    (∃ (s : State) (c k : Nat) (v : Word), c < 16 ∧ k < 4 ∧ s.armed c = false) ∧
    (∃ (s : State) (c k n : Nat) (v : Word), c < 16 ∧ k < 4 ∧ s.armed c = true ∧ n ≠ 1) ∧
    (∃ (s : State) (c n : Nat) (a : Nat × Nat), s.winAddr c (s.winSel c n).1 (s.winSel c n).2 = some a ∧ s.sectorGood a.1 a.2 (s.regionKey c (s.winSel
      c n).1) = true) ∧
    (∃ (s : State) (c n : Nat), s.winAddr c (s.winSel c n).1 (s.winSel c n).2 = none) ∧
    (∃ (s : State) (c n : Nat) (v : Word), s.winAddr c (s.winSel c n).1 (s.winSel c n).2 = none) :=
  ⟨⟨st0, 3, 1, 0x8000000000020001, by decide⟩,
   ⟨st [(CTX_STAT_STATE (ctxPg 3), 2)], 3, 1, 0x8000000000020001, by decide⟩,
   ⟨st [(VLT_FILL_CLASS (vltPg 3), 2), (VLT_REG_VALID (vltPg 3) 1, 1)], 3, by decide⟩,
   ⟨st [(TTB_STAT_STATE (ttbPg 3), 5)], 3, by decide⟩,
   ⟨st [(VLT_FILL_BUSY (vltPg 3), 1), (VLT_FILL_CLASS (vltPg 3), 2), (VLT_REG_VALID (vltPg 3) 1, 1)], 3, (0, 0), by decide⟩,
   ⟨st0, 3, 0, by decide⟩,
   ⟨st0, 3, 1, 7, by decide⟩,
   ⟨st0, 3, 1, 7, by decide⟩,
   ⟨st [(TTB_STAT_STATE (ttbPg 3), 5)], 3, 1, 2, 7, by decide⟩,
   ⟨winSt, 3, 0, winA, by decide⟩,
   ⟨st0, 3, 0, by decide⟩,
   ⟨st0, 3, 0, 7, by decide⟩⟩

/-- Every case of the statement `FlipStart` with premises has a state and operands that meet them. -/
theorem witness_FlipStart :
    (∃ (s : State), s.rd PAR_STAT_ROLE = 2 ∧ s.boot.rod.isSome = true) ∧
    (∃ (s : State), s.active = true ∧ s.boot.rod.isSome = true ∧ s.flipRuns = true) ∧
    (∃ (s : State), s.flipRuns = false ∧ s.boot.rod.isSome = true) ∧
    (∃ (s : State) (l : List Nat), s.active = true ∧ s.boot.rod.isSome = true ∧ s.hostMode 1 = false ∧ s.rd RTE_CTRL_SCOPE = 0 ∧ s.closedDomain = true
      ∧ s.flipRuns = false) ∧
    (∃ (s : State) (l : List Nat), s.active = true ∧ s.boot.rod.isSome = true ∧ s.hostMode 1 = false ∧ s.rd RTE_CTRL_SCOPE = 0 ∧ s.closedDomain = true
      ∧ s.flipRuns = true) ∧
    (∃ (s : State) (l : List Nat), s.active = true ∧ s.boot.rod.isSome = true ∧ s.hostMode 1 = false ∧ s.rd RTE_CTRL_SCOPE = 0 ∧ s.closedDomain =
      false) ∧
    (∃ (s : State), s.flipRuns = true ∧ s.rd RTE_STAT_COORD = 1 ∧ s.recordIs .commitIssued = false) ∧
    (∃ (s : State), s.recordIs .commitIssued = true) ∧
    (∃ (s : State), s.rd RTE_STAT_PHASE = 1) ∧
    (∃ (s : State), s.rd RTE_STAT_PHASE = 1 ∧ s.rd RTE_STAT_COORD = 1) ∧
    (∃ (s : State), s.rd RTE_STAT_PHASE = 1 ∧ s.rd RTE_STAT_COORD = 0) ∧
    (∃ (s : State), s.rd RTE_STAT_PHASE ≠ 1) :=
  ⟨⟨(st [(PAR_STAT_ROLE, 2)]).setBoot fun b => { b with rod := some rod0 }, by decide⟩,
   ⟨(st [(PAR_STAT_ROLE, 1), (RTE_STAT_PHASE, 3)]).setBoot fun b => { b with rod := some rod0 }, by decide⟩,
   ⟨(st []).setBoot fun b => { b with rod := some rod0 }, by decide⟩,
   ⟨(st [(PAR_STAT_ROLE, 1)]).setBoot fun b => { b with rod := some rod0 }, [], by decide⟩,
   ⟨(st [(PAR_STAT_ROLE, 1), (RTE_STAT_PHASE, 3)]).setBoot fun b => { b with rod := some rod0 }, [], by decide⟩,
   ⟨(((st [(PAR_STAT_ROLE, 1), (TTB_STAT_STATE (ttbPg 3), 5), (CTX_SLICE_N (ctxPg 3), 1)]).setBoot fun b => { b with rod := some rod0 }).setCtx 3 fun x => { x with map := [(0, 2 ^ 63 + 770)] }), [], by decide⟩,
   ⟨st [(RTE_STAT_PHASE, 3), (RTE_STAT_COORD, 1)], by decide⟩,
   ⟨(st [(RTE_STAT_PHASE, 5), (RTE_STAT_COORD, 1)]).setRoute fun r => { r with record := some ⟨0, 1, 2, false, 0, 0, .commitIssued, []⟩ }, by decide⟩,
   ⟨st [(RTE_STAT_PHASE, 1)], by decide⟩,
   ⟨st [(RTE_STAT_PHASE, 1), (RTE_STAT_COORD, 1)], by decide⟩,
   ⟨st [(RTE_STAT_PHASE, 1)], by decide⟩,
   ⟨st0, by decide⟩⟩

/-- Every case of the statement `FlipCommit` with premises has a state and operands that meet them. -/
theorem witness_FlipCommit :
    (∃ (s : State), s.ard RTE_QUIET_AT_BEAT ≠ 0) ∧
    (∃ (s : State), s.active = false) ∧
    (∃ (s : State), s.rd RTE_QUIET_AT_BEAT ≠ 0 ∧ s.active = true ∧ s.rd RTE_STAT_PHASE = 3) ∧
    (∃ (s : State) (l : List FlipReport), s.rd RTE_STAT_COORD = 1 ∧ s.rd RTE_STAT_PHASE = 3 ∧ s.quiet .dz8 = true ∧ s.allPaused .dz8 = true ∧
      drainComplete s.reporters s.route.lastRound (s.ownReport :: l) = false) ∧
    (∃ (s : State) (l : List FlipReport) (r : FlipRecord), s.route.record = some r ∧ s.rd RTE_STAT_COORD = 1 ∧ s.rd RTE_STAT_PHASE = 4 ∧ s.quiet .dz8
      = true ∧ r.state = .quiet ∧ drainComplete s.reporters s.route.lastRound (s.ownReport :: l) = true ∧ s.commitGap = true) ∧
    (∃ (s : State) (l : List FlipReport), s.quiet .dz8 = false ∧ s.rd RTE_STAT_PHASE ≠ 6) ∧
    (∃ (s : State) (r : FlipRecord), s.route.record = some r ∧ s.route.recordConfirmed = false ∧ r.state ≠ .commitIssued) ∧
    (∃ (s : State) (r : FlipRecord), s.route.record = some r ∧ s.route.recordConfirmed = false ∧ r.state = .commitIssued ∧ s.active = true ∧ s.rd
      RTE_STAT_COORD = 1) ∧
    (∃ (s : State) (p : Nat) (x : Cell), s.agRoute.applied.contains (commitOf x).key = false ∧ s.ard RTE_FLIPSTAT_SHADOW_READY = 1 ∧ s.ard
      RTE_GEN_SHADOW = (commitOf x).gen) ∧
    (∃ (s : State) (p : Nat) (x : Cell), s.agRoute.applied.contains (commitOf x).key = true) ∧
    (∃ (s : State) (p : Nat) (x : Cell), (commitOf x).coordinator = s.fid ∧ s.active = true) ∧
    (∃ (s : State) (p : Nat) (x : Cell), s.agRoute.lastAbort = some (bits (cellWord x 3) 31 0, bits (cellWord x 2) 55 0)) ∧
    (∃ (s : State) (p : Nat) (x : Cell), s.agRoute.lastAbort ≠ some (bits (cellWord x 3) 31 0, bits (cellWord x 2) 55 0)) ∧
    (∃ (s : State) (p : Nat) (x : Cell), bits (cellWord x 3) 63 50 = s.fid ∧ s.active = true) ∧
    (∃ (s : State), s.quiet .agent = true ∧ s.ard RTE_FLIPSTAT_SAFE = 0) :=
  ⟨⟨ast [(RTE_QUIET_AT_BEAT, 9)], by decide⟩,
   ⟨(st [(PAR_STAT_ROLE, 2)]).setTime fun x => { x with beat := 99 }, by decide⟩,
   ⟨st [(RTE_QUIET_AT_BEAT, 9), (PAR_STAT_ROLE, 1), (RTE_STAT_PHASE, 3)], by decide⟩,
   ⟨st [(RTE_STAT_COORD, 1), (RTE_STAT_PHASE, 3), (RTE_FLIPSTAT_QUIET, 1)], [], by decide⟩,
   ⟨drainSt, [], recQuiet, by decide⟩,
   ⟨st0, [], by decide⟩,
   ⟨(st []).setRoute fun r => { r with record := some ⟨0, 1, 2, false, 0, 0, .quiet, []⟩ }, ⟨0, 1, 2, false, 0, 0, .quiet, []⟩, by decide⟩,
   ⟨(st [(PAR_STAT_ROLE, 1), (RTE_STAT_COORD, 1)]).setRoute fun r => { r with record := some ⟨0, 1, 2, false, 0, 0, .commitIssued, []⟩ }, ⟨0, 1, 2, false, 0, 0, .commitIssued, []⟩, by decide⟩,
   ⟨ast [(RTE_FLIPSTAT_SHADOW_READY, 1)], 0, aCell0, by decide⟩,
   ⟨st0.setAgRoute fun r => { r with applied := [(1, 7), (0, 0)] }, 0, aCell0, by decide⟩,
   ⟨st [(PAR_STAT_ROLE, 1)], 0, aCell0, by decide⟩,
   ⟨st0.setAgRoute fun r => { r with lastAbort := some (0, 0) }, 0, aCell0, by decide⟩,
   ⟨st0, 0, aCell0, by decide⟩,
   ⟨st [(PAR_STAT_ROLE, 1)], 0, aCell0, by decide⟩,
   ⟨ast [(RTE_FLIPSTAT_QUIET, 1)], by decide⟩⟩

/-- Every case of the statement `FlipBeatAndFallback` with premises has a state and operands that meet them. -/
theorem witness_FlipBeatAndFallback :
    (∃ (s : State) (m : Commit), s.heldCommit .agent = some m) ∧
    (∃ (s : State) (m : Commit), s.heldCommit .dz8 = some m) ∧
    (∃ (s : State) (d : Site), s.heldCommit d = none) ∧
    (∃ (s : State) (n : Nat), s.agRoute.resumeAt = some n) ∧
    (∃ (s : State), s.quiet .dz8 = true) ∧
    (∃ (s : State), s.quiet .dz8 = false ∧ s.ttbs.length = 16) ∧
    (∃ (s : State) (f : Nat) (r : FlipRecord), s.route.record = some r ∧ s.rd RTE_STAT_PHASE = 6 ∧ s.rd RTE_STAT_COORD = 1 ∧ s.theRod.cls f = 0) ∧
    (∃ (s : State) (l : List Nat), s.rd RTE_STAT_PHASE ≠ 6) ∧
    (∃ (s : State), s.rd RTE_STAT_PHASE = 4 ∧ s.rd RTE_STAT_COORD = 1 ∧ s.recordIs .commitIssued = false ∧ 2 ≤ s.rd RTE_STAT_ATTEMPT) ∧
    (∃ (s : State), s.recordIs .commitIssued = true) ∧
    (∃ (s : State), s.rd RTE_STAT_PHASE = 7) ∧
    (∃ (s : State), s.rd RTE_STAT_PHASE ≠ 7) :=
  ⟨⟨flipAgSt, com1, by decide⟩,
   ⟨flipDzSt, com1, by decide⟩,
   ⟨st0, .dz8, by decide⟩,
   ⟨st0.setAgRoute fun r => { r with resumeAt := some 9 }, 9, by decide⟩,
   ⟨st [(RTE_FLIPSTAT_QUIET, 1)], by decide⟩,
   ⟨st0, by decide⟩,
   ⟨((st [(RTE_STAT_PHASE, 6), (RTE_STAT_COORD, 1)]).setRoute fun r => { r with record := some ⟨0, 1, 2, false, 0, 0, .commitIssued, []⟩ }).setBoot fun b => { b with rod := some rodU }, 9, ⟨0, 1, 2, false, 0, 0, .commitIssued, []⟩, by decide⟩,
   ⟨st0, [9], by decide⟩,
   ⟨st [(RTE_STAT_PHASE, 4), (RTE_STAT_COORD, 1), (RTE_STAT_ATTEMPT, 2)], by decide⟩,
   ⟨(st []).setRoute fun r => { r with record := some ⟨0, 1, 2, false, 0, 0, .commitIssued, []⟩ }, by decide⟩,
   ⟨st [(RTE_STAT_PHASE, 7)], by decide⟩,
   ⟨st0, by decide⟩⟩

/-- Every case of the statement `ManagementTransactions` with premises has a state and operands that meet them. -/
theorem witness_ManagementTransactions :
    (∃ (s : State) (x : Cell), s.epochGood .dz8 x = true ∧ ((s.txn x.seq).filter (fun t => t.fid == x.src) = none)) ∧
    (∃ (s : State) (x : Cell) (q : Txn), s.epochGood .dz8 x = true ∧ s.txn x.seq = some q ∧ q.fid = x.src) ∧
    (∃ (s : State) (x : Cell), s.epochGood .dz8 x = false) ∧
    (∃ (s : State) (n : Nat) (q : Txn), s.txn n = some q ∧ q.backoff = false ∧ q.attempts < 4) ∧
    (∃ (s : State) (n : Nat) (q : Txn), s.txn n = some q ∧ q.backoff = false ∧ q.attempts = 4 ∧ q.session = none ∧ s.route.waiting = []) ∧
    (∃ (s : State) (n : Nat) (q : Txn), s.txn n = some q ∧ q.backoff = true ∧ q.session = none) ∧
    (∃ (s : State) (n : Nat) (q : Txn), s.txn n = some q ∧ q.backoff = false) :=
  ⟨⟨st0, aCell0, by decide⟩,
   ⟨txnSt txn1, { aCell0 with src := 9, seq := 4 }, txn1, by decide⟩,
   ⟨st [(RTE_EPOCH_EPOCHS 0, 3)], { aCell0 with epoch := 7 }, by decide⟩,
   ⟨txnSt txn1, 4, txn1, by decide⟩,
   ⟨txnSt { txn1 with attempts := 4 }, 4, { txn1 with attempts := 4 }, by decide⟩,
   ⟨txnSt { txn1 with backoff := true }, 4, { txn1 with backoff := true }, by decide⟩,
   ⟨txnSt txn1, 4, txn1, by decide⟩⟩

/-- Every case of the statement `ContextAssignment` with premises has a state and operands that meet them. -/
theorem witness_ContextAssignment :
    (∃ (s : State) (c : Nat), c < 16 ∧ s.ctxState c ≠ 0) ∧
    (∃ (s : State) (c : Nat) (e : Nat × Nat), c < 16 ∧ s.ctxState c = 0 ∧ s.assignErr c = some e) ∧
    (∃ (s : State) (c : Nat), c < 16 ∧ s.ctxs.length = 16 ∧ s.ctxState c = 0 ∧ s.assignErr c = none ∧ s.active = false) ∧
    (∃ (s : State) (c : Nat), c < 16 ∧ s.ctxs.length = 16 ∧ s.ctxState c = 2) ∧
    (∃ (s : State) (c : Nat), c < 16 ∧ s.ctxState c = 0) ∧
    (∃ (s : State) (n c : Nat) (b : Bool) (x : Sess), c < 16 ∧ s.ctxs.length = 16 ∧ s.openSess n = some x ∧ x.role = 3 ∧ s.ctxState c = 2 ∧ s.rd
      (CTX_STAT_BOUND (ctxPg c)) = 0) ∧
    (∃ (s : State) (n c : Nat) (b : Bool), s.rd (CTX_STAT_BOUND (ctxPg c)) = 1) ∧
    (∃ (s : State) (c : Nat) (v : Word), c < 16 ∧ s.ctxs.length = 16 ∧ s.ctxState c = 2) ∧
    (∃ (s : State) (c : Nat) (v : Word), c < 16 ∧ s.ctxs.length = 16 ∧ s.ctxState c = 2) ∧
    (∃ (s : State) (c h : Nat) (v : Word), s.ctxState c ≠ 2) ∧
    (∃ (s : State) (c : Nat) (v : Word), c < 16 ∧ s.ctxs.length = 16 ∧ s.ctxState c = 0) ∧
    (∃ (s : State) (c : Nat) (v : Word), s.ctxState c ≠ 0) :=
  ⟨⟨st [(CTX_STAT_STATE (ctxPg 3), 2)], 3, by decide⟩,
   ⟨st0, 3, (2, 0), by decide⟩,
   ⟨assignSt, 3, by decide⟩,
   ⟨st [(CTX_STAT_STATE (ctxPg 3), 2)], 3, by decide⟩,
   ⟨st0, 3, by decide⟩,
   ⟨(st [(CTX_STAT_STATE (ctxPg 3), 2)]).setBeyjo fun b => { b with sessions := [{ sess1 with role := 3 }] }, 5, 3, true, { sess1 with role := 3 }, by decide⟩,
   ⟨st [(CTX_STAT_BOUND (ctxPg 3), 1)], 5, 3, true, by decide⟩,
   ⟨st [(CTX_STAT_STATE (ctxPg 3), 2)], 3, 7, by decide⟩,
   ⟨st [(CTX_STAT_STATE (ctxPg 3), 2)], 3, 7, by decide⟩,
   ⟨st0, 3, 0, 7, by decide⟩,
   ⟨st0, 3, 0x8000000000000005, by decide⟩,
   ⟨st [(CTX_STAT_STATE (ctxPg 3), 2)], 3, 7, by decide⟩⟩

/-- Every case of the statement `ContextRelease` with premises has a state and operands that meet them. -/
theorem witness_ContextRelease :
    (∃ (s : State) (c : Nat) (r : RelSt), c < 16 ∧ s.ctxs.length = 16 ∧ s.ttbs.length = 16 ∧ (s.ctx c).release = some r ∧ r.drained = false ∧ (s.ttb
      c).uncommitted = [] ∧ s.active = false ∧ s.recsOf c = []) ∧
    (∃ (s : State) (c : Nat), (s.ttb c).uncommitted ≠ []) ∧
    (∃ (s : State) (c n : Nat) (r : RelSt), c < 16 ∧ s.ctxs.length = 16 ∧ (s.ctx c).release = some r ∧ r.drained = true ∧ r.erased = false) ∧
    (∃ (s : State) (c n : Nat), (s.ctx c).release = none) ∧
    (∃ (s : State) (c n : Nat) (r : RelSt), c < 16 ∧ s.ctxs.length = 16 ∧ (s.ctx c).release = some r ∧ r.drained = true ∧ r.erased = false ∧
      r.scrubbed = false ∧ s.rot.delivers = []) ∧
    (∃ (s : State) (c : Nat) (r : RelSt), c < 16 ∧ s.ctxs.length = 16 ∧ (s.ctx c).release = some r ∧ r.drained = true ∧ r.scrubbed = true ∧ r.erased =
      true ∧ r.flipped = true ∧ s.rd (CTX_STAT_FILLING (ctxPg c)) = 0) ∧
    (∃ (s : State) (c : Nat) (r : RelSt), (s.ctx c).release = some r ∧ r.scrubbed = false) :=
  ⟨⟨(st [(CTX_STAT_STATE (ctxPg 3), 3)]).setCtx 3 fun x => { x with release := some rel0 }, 3, rel0, by decide⟩,
   ⟨st0.setTtb 3 fun x => { x with uncommitted := [⟨0, 0, 0⟩] }, 3, by decide⟩,
   ⟨(st []).setCtx 3 fun x => { x with release := some { rel0 with drained := true } }, 3, 9, { rel0 with drained := true }, by decide⟩,
   ⟨st0, 3, 9, by decide⟩,
   ⟨(st []).setCtx 3 fun x => { x with release := some { rel0 with drained := true } }, 3, 9, { rel0 with drained := true }, by decide⟩,
   ⟨(st [(CTX_STAT_STATE (ctxPg 3), 3)]).setCtx 3 fun x => { x with release := some ⟨true, true, true, true, false, false⟩ }, 3, ⟨true, true, true, true, false, false⟩, by decide⟩,
   ⟨(st []).setCtx 3 fun x => { x with release := some rel0 }, 3, rel0, by decide⟩⟩

/-- Every case of the statement `SpdmDiscovery` with premises has a state and operands that meet them. -/
theorem witness_SpdmDiscovery :
    (∃ (s : State) (z : Nat), s.spdmOk z = true) ∧
    (∃ (s : State) (z : Nat), s.spdmOk z = false) ∧
    (∃ (s : State) (z : Nat), s.spdmOk z = true) ∧
    (∃ (s : State) (z : Nat), s.spdmOk z = true) ∧
    (∃ (s : State) (z : Nat), s.spdmOk z = true) ∧
    (∃ (s : State) (z : Nat), s.spdmOk z = true ∧ s.rd FRK_STAT_AK_READY = 1) ∧
    (∃ (s : State) (z : Nat), s.spdmOk z = true ∧ s.rd FRK_STAT_AK_READY = 0) ∧
    (∃ (s : State) (z k o n : Nat), s.spdmOk z = true ∧ s.rd FRK_STAT_AK_READY = 1 ∧ k ≠ 0) ∧
    (∃ (s : State) (z o n : Nat), s.spdmOk z = true ∧ s.rd FRK_STAT_AK_READY = 1 ∧ n ≤ 8000) ∧
    (∃ (s : State) (z n : Nat), s.spdmOk z = true ∧ s.rd FRK_STAT_AK_READY = 1 ∧ s.rot.signQ.length < 16) ∧
    (∃ (s : State) (z k n : Nat), s.spdmOk z = true ∧ k ≠ 0) ∧
    (∃ (s : State) (z n : Nat), s.spdmOk z = true ∧ (((askedIndices n).filterMap (s.measBlock z)).flatten).isEmpty = false ∧ s.rd FRK_STAT_AK_READY =
      1 ∧ s.rot.signQ.length < 16) ∧
    (∃ (s : State) (z n : Nat), s.spdmOk z = true ∧ n ≤ 7 ∧ n ≠ 0 ∧ (((askedIndices n).filterMap (s.measBlock z)).flatten).isEmpty = false) ∧
    (∃ (s : State) (z n : Nat) (b : Bool), s.spdmOk z = true ∧ ((askedIndices n).filterMap (s.measBlock z)).flatten = []) :=
  ⟨⟨st0, 0, by decide⟩,
   ⟨st0, 9, by decide⟩,
   ⟨st0, 0, by decide⟩,
   ⟨st0, 0, by decide⟩,
   ⟨st0, 0, by decide⟩,
   ⟨st [(FRK_STAT_AK_READY, 1)], 0, by decide⟩,
   ⟨st0, 0, by decide⟩,
   ⟨st [(FRK_STAT_AK_READY, 1)], 0, 1, 0, 9, by decide⟩,
   ⟨st [(FRK_STAT_AK_READY, 1)], 0, 0, 9, by decide⟩,
   ⟨st [(FRK_STAT_AK_READY, 1)], 0, 7, by decide⟩,
   ⟨st0, 0, 1, 7, by decide⟩,
   ⟨measSt, 0, 1, by decide⟩,
   ⟨measSt, 0, 1, by decide⟩,
   ⟨st0, 0, 0x30, false, by decide⟩⟩

/-- Every case of the statement `SpdmSessions` with premises has a state and operands that meet them. -/
theorem witness_SpdmSessions :
    (∃ (s : State) (z : Nat) (e : List Byte), z ≠ 0 ∧ s.spdm z = none ∧ s.rot.sessions.length < 8 ∧ s.rd LCS_STAT_TRANSITION_DONE = 0 ∧ s.rd
      FRK_STAT_AK_READY = 1 ∧ s.rot.signQ.length < 16) ∧
    (∃ (s : State) (z : Nat) (e : List Byte), z ≠ 0 ∧ s.spdm z = none ∧ 8 ≤ s.rot.sessions.length) ∧
    (∃ (s : State) (z : Nat) (x : SpdmSess), s.spdm z = some x ∧ x.finished = false) ∧
    (∃ (s : State) (z : Nat) (x : SpdmSess), s.spdm z = some x ∧ x.finished = false) ∧
    (∃ (s : State) (z : Nat) (x : SpdmSess), s.spdm z = some x ∧ x.finished = true) ∧
    (∃ (s : State) (z : Nat), s.spdm z = none) ∧
    (∃ (s : State) (z : Nat) (x : SpdmSess), s.spdm z = some x ∧ x.finished = true) ∧
    (∃ (s : State) (z : Nat) (x : SpdmSess), s.spdm z = some x ∧ x.finished = true) ∧
    (∃ (s : State) (z : Nat) (x : SpdmSess), s.spdm z = some x ∧ s.rot.admission ≠ some z) ∧
    (∃ (s : State) (z : Nat) (x : SpdmSess), s.spdm z = some x ∧ s.rot.admission = some z) ∧
    (∃ (s : State) (z : Nat), s.spdm z = none) :=
  ⟨⟨st [(FRK_STAT_AK_READY, 1)], 9, [], by decide⟩,
   ⟨(st []).setRot fun x => { x with sessions := List.replicate 8 sp1 }, 7, [], by decide⟩,
   ⟨(st []).setRot fun x => { x with sessions := [{ sp1 with finished := false }] }, 9, { sp1 with finished := false }, by decide⟩,
   ⟨(st []).setRot fun x => { x with sessions := [{ sp1 with finished := false }] }, 9, { sp1 with finished := false }, by decide⟩,
   ⟨(st []).setRot fun x => { x with sessions := [sp1] }, 9, sp1, by decide⟩,
   ⟨st0, 9, by decide⟩,
   ⟨(st []).setRot fun x => { x with sessions := [sp1] }, 9, sp1, by decide⟩,
   ⟨(st []).setRot fun x => { x with sessions := [sp1] }, 9, sp1, by decide⟩,
   ⟨(st []).setRot fun x => { x with sessions := [sp1] }, 9, sp1, by decide⟩,
   ⟨(st []).setRot fun x => { x with sessions := [sp1], admission := some 9 }, 9, sp1, by decide⟩,
   ⟨st0, 9, by decide⟩⟩

/-- Every case of the statement `SpdmChunksAndAdmission` with premises has a state and operands that meet them. -/
theorem witness_SpdmChunksAndAdmission :
    (∃ (s : State) (z h : Nat) (d : List Byte), s.spdmOk z = true ∧ (s.rot.chunksIn.find? (fun x => x.1 == h) = none) ∧ d.length ≤ 65536) ∧
    (∃ (s : State) (z h n : Nat) (b : Bool) (d : List Byte), s.spdmOk z = true ∧ (s.rot.chunksIn.find? (fun x => x.1 == h) = none) ∧ n ≠ 0) ∧
    (∃ (s : State) (z h n : Nat) (x : Nat × List Nat), s.spdmOk z = true ∧ (s.rot.chunksOut.find? (fun x => x.1 == h) = some x) ∧ 8920 * n <
      x.2.length) ∧
    (∃ (s : State) (z h n : Nat), s.spdmOk z = true ∧ (s.rot.chunksOut.find? (fun x => x.1 == h) = none)) ∧
    (∃ (s : State) (z : Nat) (x : SpdmSess), s.spdm z = some x) ∧
    (∃ (s : State) (z q : Nat) (x : SpdmSess), s.spdm z = some x) ∧
    (∃ (s : State) (z q : Nat) (x : SpdmSess), s.spdm z = some x) ∧
    (∃ (s : State) (n : Nat) (q : SignReq) (l : List SignReq), s.rot.signQ = q :: l) ∧
    (∃ (s : State) (n : Nat), s.rd FRK_STAT_AK_READY = 0) ∧
    (∃ (s : State) (z : Nat) (x : SpdmSess), s.spdm z = some x ∧ x.finished = true ∧ s.rd LCS_STAT_TRANSITION_DONE = 0 ∧ s.rot.admission = none) ∧
    (∃ (s : State) (z a : Nat) (x : SpdmSess), s.spdm z = some x ∧ x.finished = true ∧ s.rd LCS_STAT_TRANSITION_DONE = 0 ∧ s.rot.admission = some a ∧
      a ≠ z) ∧
    (∃ (s : State) (z k c v : Nat) (x : SpdmSess), s.spdm z = some x ∧ x.finished = true ∧ s.rd LCS_STAT_TRANSITION_DONE = 0 ∧ (k = 0 ∨ k = 2) ∧
      s.rot.admission = some z) ∧
    (∃ (s : State) (z k c v : Nat) (x : SpdmSess), s.spdm z = some x ∧ x.finished = true ∧ s.rd LCS_STAT_TRANSITION_DONE = 0 ∧ 2 < k) :=
  ⟨⟨st0, 0, 3, [5], by decide⟩,
   ⟨st0, 0, 3, 1, false, [5], by decide⟩,
   ⟨(st []).setRot fun x => { x with chunksOut := [(3, [7])] }, 0, 3, 0, (3, [7]), by decide⟩,
   ⟨st0, 0, 3, 0, by decide⟩,
   ⟨(st []).setRot fun x => { x with sessions := [sp1] }, 9, sp1, by decide⟩,
   ⟨(st []).setRot fun x => { x with sessions := [sp1] }, 9, 77, sp1, by decide⟩,
   ⟨(st []).setRot fun x => { x with sessions := [sp1] }, 9, 77, sp1, by decide⟩,
   ⟨(st []).setRot fun x => { x with signQ := [⟨0, 0x83, [7]⟩] }, 5, ⟨0, 0x83, [7]⟩, [], by decide⟩,
   ⟨st0, 5, by decide⟩,
   ⟨(st []).setRot fun x => { x with sessions := [sp1] }, 9, sp1, by decide⟩,
   ⟨(st []).setRot fun x => { x with sessions := [sp1], admission := some 4 }, 9, 4, sp1, by decide⟩,
   ⟨(st []).setRot fun x => { x with sessions := [sp1], admission := some 9 }, 9, 2, 0, 55, sp1, by decide⟩,
   ⟨(st []).setRot fun x => { x with sessions := [sp1] }, 9, 3, 0, 55, sp1, by decide⟩⟩

/-- Every case of the statement `KeyCommands` with premises has a state and operands that meet them. -/
theorem witness_KeyCommands :
    (∃ (s : State) (z : Nat) (q : KeyReq) (x : SpdmSess), s.spdm z = some x ∧ x.finished = true ∧ s.sealedNow = true ∧ s.rd FRK_STAT_UPDATE = 0 ∧ s.rd
      FRK_STAT_TAMPER = 0 ∧ s.ownerOk z q.ctx = true ∧ (s.recsOf q.ctx).length < 8 ∧ s.rot.records.length < 64 ∧ keyReqBad q = false ∧ s.keyRec q.ctx
      q.keyId = none ∧ s.rd FRK_STAT_GUARD_BAD = 0 ∧ s.rd FRK_STAT_RESET = 0) ∧
    (∃ (s : State) (z : Nat) (q : KeyReq) (x : SpdmSess), s.spdm z = some x ∧ x.finished = true ∧ s.sealedNow = false) ∧
    (∃ (s : State) (z c k : Nat) (x : SpdmSess), s.spdm z = some x ∧ x.finished = true ∧ s.sealedNow = true ∧ s.rd FRK_STAT_TAMPER = 0 ∧ s.ownerOk z c
      = true ∧ k ≤ 7 ∧ (s.keyRec c k).isSome = true) ∧
    (∃ (s : State) (z c k : Nat) (x : SpdmSess), s.spdm z = some x ∧ x.finished = true ∧ s.sealedNow = false) ∧
    (∃ (s : State) (z : Nat) (q : ImportReq) (x : SpdmSess), s.spdm z = some x ∧ x.finished = true ∧ s.sealedNow = true ∧ s.rd FRK_STAT_UPDATE = 0 ∧
      s.rd FRK_STAT_TAMPER = 0 ∧ s.ownerOk z q.ctx = true ∧ q.keyId ≤ 7 ∧ q.len ≠ 0 ∧ (s.keyRec q.ctx q.keyId).isSome = true ∧ s.rd (VLT_VAULT_TAINTED
      (vltPg q.ctx)) = 0 ∧ s.importFits q = true ∧ s.rot.importing = none ∧ s.vaultOk q.ctx = true ∧ s.rd FRK_STAT_GUARD_BAD = 0 ∧ s.rd FRK_STAT_RESET
      = 0) ∧
    (∃ (s : State) (z : Nat) (q : ImportReq) (x : SpdmSess), s.spdm z = some x ∧ x.finished = true ∧ s.sealedNow = false) ∧
    (∃ (s : State) (z : Nat) (q : ImportReq), s.rot.importing = some (z, q) ∧ s.rot.waiting = [] ∧ s.goodChunks q = ceilDiv q.len 65536) ∧
    (∃ (s : State) (z : Nat) (q : ImportReq), s.rot.importing = some (z, q) ∧ s.rot.waiting = [] ∧ s.goodChunks q ≠ ceilDiv q.len 65536) ∧
    (∃ (s : State) (c : Nat), (s.rot.importing.any (fun x => x.2.ctx == c) = false)) ∧
    (∃ (s : State) (z c k f n : Nat) (x : SpdmSess), s.spdm z = some x ∧ x.finished = true ∧ s.sealedNow = false) ∧
    (∃ (s : State) (z c k f n : Nat) (x : SpdmSess), s.spdm z = some x ∧ x.finished = true ∧ s.sealedNow = true ∧ s.rd FRK_STAT_UPDATE = 0 ∧ s.rd
      FRK_STAT_TAMPER = 0 ∧ s.ownerOk z c = true ∧ k ≤ 7 ∧ n ≠ 0 ∧ f + n ≤ 4096 ∧ (s.keyRec c k).isSome = true ∧ s.rd FRK_STAT_GUARD_BAD = 0 ∧ s.rd
      FRK_STAT_RESET = 0) ∧
    (∃ (s : State) (z c : Nat) (x : SpdmSess), s.spdm z = some x ∧ x.finished = true ∧ s.ownerOk z c = true ∧ s.rd (CTX_SLICE_N (ctxPg c)) ≤ 4096) ∧
    (∃ (s : State) (z : Nat) (q : KeyReq) (l : List WaitCmd), s.rot.waiting = .release z q :: l) :=
  ⟨⟨ownSt [], 9, kreq1, sp1, by decide⟩,
   ⟨(st []).setRot fun x => { x with sessions := [sp1] }, 9, kreq1, sp1, by decide⟩,
   ⟨ownSt [kr1], 9, 3, 1, sp1, by decide⟩,
   ⟨(st []).setRot fun x => { x with sessions := [sp1] }, 9, 3, 1, sp1, by decide⟩,
   ⟨importSt, 9, imp1, sp1, by decide⟩,
   ⟨(st []).setRot fun x => { x with sessions := [sp1] }, 9, imp1, sp1, by decide⟩,
   ⟨(st []).setRot fun x => { x with importing := some (9, { imp1 with len := 0 }) }, 9, { imp1 with len := 0 }, by decide⟩,
   ⟨(st []).setRot fun x => { x with importing := some (9, imp1) }, 9, imp1, by decide⟩,
   ⟨st0, 3, by decide⟩,
   ⟨(st []).setRot fun x => { x with sessions := [sp1] }, 9, 3, 1, 0, 1, sp1, by decide⟩,
   ⟨ownSt [kr1], 9, 3, 1, 0, 1, sp1, by decide⟩,
   ⟨ownSt [kr1], 9, 3, sp1, by decide⟩,
   ⟨(st []).setRot fun x => { x with waiting := [.release 9 kreq1] }, 9, kreq1, [], by decide⟩⟩

/-- Every case of the statement `EvidenceAndDelivery` with premises has a state and operands that meet them. -/
theorem witness_EvidenceAndDelivery :
    (∃ (s : State) (v : Evidence) (h : AgentChain), (∀ e ∈ s.rot.evidence, e.fid ≠ v.fid ∨ e.hostCall = true)) ∧
    (∃ (s : State) (v : Evidence) (h : AgentChain) (e : EvReq), (s.rot.evidence.find? (fun e => e.fid == v.fid && !e.hostCall && e.nonce == v.nonce) =
      some e)) ∧
    (∃ (s : State) (c k l : Nat) (e : EvReq), s.evidenceOf c k l = some e ∧ e.hostCall = false ∧ e.attempts < 3) ∧
    (∃ (s : State) (c k l : Nat) (e : EvReq), s.evidenceOf c k l = some e ∧ e.hostCall = false ∧ 3 ≤ e.attempts) ∧
    (∃ (s : State) (c k l : Nat) (e : EvReq), s.evidenceOf c k l = some e ∧ e.resets ≠ 0 ∧ e.resets < 100) ∧
    (∃ (s : State) (c k l : Nat) (e : EvReq), s.evidenceOf c k l = some e ∧ e.resets = 0) ∧
    (∃ (s : State) (c k l : Nat) (w : WrapWait), (s.rot.wraps.find? (fun w => w.ctx == c && w.keyId == k && w.lid == l) = some w) ∧ w.revoke = true) ∧
    (∃ (s : State) (c k l : Nat) (w : WrapWait), (s.rot.wraps.find? (fun w => w.ctx == c && w.keyId == k && w.lid == l) = some w) ∧ w.revoke = false) ∧
    (∃ (s : State) (c l : Nat), s.delivering c l = true) ∧
    (∃ (s : State) (c l : Nat), s.delivering c l = false) ∧
    (∃ (s : State) (c k : Nat) (p : PartnerState) (r : KeyRec), s.keyRec c k = some r ∧ r.pair = true ∧ r.partner ≠ 0 ∧ r.paired = false ∧ s.active =
      true ∧ p.certOk = true ∧ p.deviceId = r.partner ∧ p.lifecycle = 3 ∧ p.tamper = false ∧ p.digests = s.rot.measured.take 5) ∧
    (∃ (s : State) (c k : Nat) (p : PartnerState) (r : KeyRec), s.keyRec c k = some r ∧ r.pair = true ∧ r.partner ≠ 0 ∧ r.paired = false ∧ s.active =
      true ∧ p.certOk = false) ∧
    (∃ (s : State) (c k l : Nat) (e : EvReq), s.evidenceOf c k l = some e ∧ e.hostCall = true) ∧
    (∃ (s : State) (c k l : Nat) (e : EvReq), s.evidenceOf c k l = some e ∧ e.hostCall = false) ∧
    (∃ (s : State) (i n : Nat) (v : Option Evidence) (h : AgentChain), s.takenFor i n 5 = true ∧ bit (s.slotGet i n 0) 32 = true ∧ s.mailErr i n 5 1
      [0] = none ∧ s.hostMode 5 = true ∧ s.putRefused (bits (s.slotGet i n 0) 3 0) (bits (s.slotGet i n 0) 6 4) (bits (s.slotGet i n 0) 27 16) = none) ∧
    (∃ (s : State) (i n : Nat) (v : Option Evidence) (h : AgentChain), s.takenFor i n 5 = false) :=
  ⟨⟨st0, ev1, chain1, by decide⟩,
   ⟨(st []).setRot fun x => { x with evidence := [evr1] }, ev1, chain1, evr1, by decide⟩,
   ⟨(st []).setRot fun x => { x with evidence := [evr1] }, 3, 1, 0, evr1, by decide⟩,
   ⟨(st []).setRot fun x => { x with evidence := [{ evr1 with attempts := 3 }] }, 3, 1, 0, { evr1 with attempts := 3 }, by decide⟩,
   ⟨(st []).setRot fun x => { x with evidence := [{ evr1 with resets := 1 }] }, 3, 1, 0, { evr1 with resets := 1 }, by decide⟩,
   ⟨(st []).setRot fun x => { x with evidence := [evr1] }, 3, 1, 0, evr1, by decide⟩,
   ⟨(st []).setRot fun x => { x with wraps := [⟨3, 1, 0, true, 1, 5, false⟩] }, 3, 1, 0, ⟨3, 1, 0, true, 1, 5, false⟩, by decide⟩,
   ⟨(st []).setRot fun x => { x with wraps := [⟨3, 1, 0, false, 1, 5, false⟩] }, 3, 1, 0, ⟨3, 1, 0, false, 1, 5, false⟩, by decide⟩,
   ⟨(st []).setRot fun x => { x with evidence := [evr1] }, 3, 0, by decide⟩,
   ⟨st0, 3, 0, by decide⟩,
   ⟨(st [(PAR_STAT_ROLE, 1)]).setRot fun x => { x with records := [{ kr1 with pair := true, partner := 8 }] }, 3, 1, ⟨true, 8, 3, false, ((st [(PAR_STAT_ROLE, 1)]).setRot fun x => { x with records := [{ kr1 with pair := true, partner := 8 }] }).rot.measured.take 5, none⟩, { kr1 with pair := true, partner := 8 }, by decide⟩,
   ⟨(st [(PAR_STAT_ROLE, 1)]).setRot fun x => { x with records := [{ kr1 with pair := true, partner := 8 }] }, 3, 1, ⟨false, 8, 3, false, [], none⟩, { kr1 with pair := true, partner := 8 }, by decide⟩,
   ⟨(st []).setRot fun x => { x with evidence := [{ evr1 with hostCall := true }] }, 3, 1, 0, { evr1 with hostCall := true }, by decide⟩,
   ⟨(st []).setRot fun x => { x with evidence := [evr1] }, 3, 1, 0, evr1, by decide⟩,
   ⟨putSt, 5, 2, none, chain1, by decide⟩,
   ⟨st0, 5, 2, none, chain1, by decide⟩⟩

/-- Every case of the statement `GuardiansAndLifecycle` with premises has a state and operands that meet them. -/
theorem witness_GuardiansAndLifecycle :
    (∃ (s : State) (d a b c : Nat), d ≠ 0 ∧ s.hasDie d = true ∧ s.rot.waiting = []) ∧
    (∃ (s : State) (d : Nat), d ≠ 0 ∧ d < 8 ∧ s.hasDie d = true) ∧
    (∃ (s : State) (n : Nat), n ≠ 0x4C435354) ∧
    (∃ (s : State) (n : Nat), n ≠ 0x4C435354) ∧
    (∃ (s : State), (∀ c < 16, s.ctxState c = 0) ∧ s.active = false ∧ s.rd LCS_STAT_STATE = 2 ∧ s.rd LCS_STAT_TRANSITION_DONE = 0) ∧
    (∃ (s : State), (∀ c < 16, s.ctxState c = 0) ∧ s.active = false ∧ s.rd LCS_STAT_STATE = 3 ∧ s.rd LCS_STAT_TRANSITION_DONE = 0 ∧ s.tokenOk = true) ∧
    (∃ (s : State), (∀ c < 16, s.ctxState c = 0) ∧ s.active = false ∧ s.tokenOk = false) :=
  ⟨⟨st0, 2, 7, 8, 9, by decide⟩,
   ⟨st0, 2, by decide⟩,
   ⟨st0, 5, by decide⟩,
   ⟨st0, 5, by decide⟩,
   ⟨st0, by decide⟩,
   ⟨rmaSt, by decide⟩,
   ⟨st0, by decide⟩⟩

/-- Every case of the statement `HostFrames` with premises has a state and operands that meet them. -/
theorem witness_HostFrames :
    (∃ (s : State) (f : EthFrame), s.lifecycle ≠ 0 ∧ f.fcsOk = false) ∧
    (∃ (s : State) (f : EthFrame), s.lifecycle ≠ 0 ∧ f.fcsOk = true ∧ s.secure f = false) ∧
    (∃ (s : State) (f : EthFrame), s.lifecycle ≠ 0 ∧ f.fcsOk = true ∧ s.secure f = true ∧ s.addrFits f = false) ∧
    (∃ (s : State) (f : EthFrame), s.lifecycle ≠ 0 ∧ f.fcsOk = true ∧ s.secure f = true ∧ s.addrFits f = true ∧ s.portFits f = true ∧ f.kind =
      .neighbour) ∧
    (∃ (s : State) (k : Nat), s.rot.cak.isSome = true) ∧
    (∃ (s : State) (b : Bool) (k : Option Nat), (b = false ∨ s.rot.cak = none)) ∧
    (∃ (s : State), s.lifecycle ≠ 0) ∧
    (∃ (s : State), s.lifecycle = 0) :=
  ⟨⟨st0, { eth1 with fcsOk := false }, by decide⟩,
   ⟨st0, { eth1 with macsec := some true }, by decide⟩,
   ⟨st0, { eth1 with dst := 5 }, by decide⟩,
   ⟨st0, eth1, by decide⟩,
   ⟨st0.setRot fun x => { x with cak := some (1, 2) }, 7, by decide⟩,
   ⟨st0, true, none, by decide⟩,
   ⟨st0, by decide⟩,
   ⟨st [(LCS_STAT_STATE, 0)], by decide⟩⟩

/-- Every case of the statement `SessionsOpenAndClose` with premises has a state and operands that meet them. -/
theorem witness_SessionsOpenAndClose :
    (∃ (s : State) (a c p h i : Nat), (((s.beyjo.opens.filter fun e => decide (s.time.nowNs < e.2 + 1000000000)).filter fun e => e.1 == a).length <
      16) ∧ s.roleAllowed 0 = true ∧ s.beyjo.creds.any (credFor 0 c) = true ∧ s.roleCount 0 c < roleLimit 0 ∧ s.freeIndex = some i ∧ (s.needsAdmission
      = true → s.rd FRK_STAT_ADMITTED = 1)) ∧
    (∃ (s : State) (a k c p h : Nat), (((s.beyjo.opens.filter fun e => decide (s.time.nowNs < e.2 + 1000000000)).filter fun e => e.1 == a).length <
      16) ∧ s.roleAllowed k = false) ∧
    (∃ (s : State) (a k c p h : Nat), (((s.beyjo.opens.filter fun e => decide (s.time.nowNs < e.2 + 1000000000)).filter fun e => e.1 == a).length ≥
      16)) ∧
    (∃ (s : State) (z p : Nat) (x : Sess), ((s.sessNamed z).filter (fun x => !x.isOpen) = some x)) ∧
    (∃ (s : State) (z p : Nat), s.sessNamed z = none) ∧
    (∃ (s : State) (z : Nat) (x : Sess), (s.sessNamed z).filter (·.isOpen) = some x) ∧
    (∃ (s : State) (z : Nat) (x : Sess), (s.sessNamed z).filter (·.isOpen) = some x) ∧
    (∃ (s : State) (i : Nat) (x : Sess), s.openSess i = some x) ∧
    (∃ (s : State) (i : Nat), s.openSess i = none) :=
  ⟨⟨(st [(FRK_STAT_ADMITTED, 1)]).setBeyjo fun b => { b with creds := [⟨0, 0, 5, 0, 0⟩] }, 1, 0, 2, 3, 0, by decide⟩,
   ⟨st0, 1, 2, 0, 2, 3, by decide⟩,
   ⟨(st []).setBeyjo fun b => { b with opens := List.replicate 16 (1, 0) }, 1, 0, 0, 2, 3, by decide⟩,
   ⟨(st []).setBeyjo fun b => { b with sessions := [{ sess1 with isOpen := false }] }, 5, 0, { sess1 with isOpen := false }, by decide⟩,
   ⟨st0, 5, 0, by decide⟩,
   ⟨(st []).setBeyjo fun b => { b with sessions := [sess1] }, 5, sess1, by decide⟩,
   ⟨(st []).setBeyjo fun b => { b with sessions := [sess1] }, 5, sess1, by decide⟩,
   ⟨(st []).setBeyjo fun b => { b with sessions := [sess1] }, 5, sess1, by decide⟩,
   ⟨st0, 5, by decide⟩⟩

/-- Every case of the statement `NotifyAndMail` with premises has a state and operands that meet them. -/
theorem witness_NotifyAndMail :
    (∃ (s : State) (i : Nat) (x : Sess), s.openSess i = some x ∧ x.dropped = 0 ∧ x.queue ≠ []) ∧
    (∃ (s : State) (i : Nat) (x : Sess), s.openSess i = some x ∧ x.dropped = 0 ∧ x.queue = []) ∧
    (∃ (s : State) (z n : Nat) (x : Sess), (s.sessNamed z).filter (·.isOpen) = some x) ∧
    (∃ (s : State) (z n : Nat) (b : Bool), s.sessNamed z = none) ∧
    (∃ (s : State) (i n : Nat) (x : Sess) (m : SentNotify), s.openSess i = some x ∧ (x.unacked.find? (fun m => m.seq == n) = some m) ∧ m.resends < 8) ∧
    (∃ (s : State) (i n : Nat) (x : Sess) (m : SentNotify), s.openSess i = some x ∧ (x.unacked.find? (fun m => m.seq == n) = some m) ∧ 8 ≤ m.resends) ∧
    (∃ (s : State), s.time.beat % 64 = 0 ∧ s.posted = []) ∧
    (∃ (s : State) (i n : Nat), s.time.beat % 64 = 0 ∧ s.posted = [(i, n)]) ∧
    (∃ (s : State), s.time.beat % 64 ≠ 0) ∧
    (∃ (s : State) (i n : Nat) (x : Sess), i < 64 ∧ n < 16 ∧ s.takenFor i n 0 = true ∧ s.mailErr i n 0 0 [0, 1, 2, 3] = none ∧ s.openSess i = some x) ∧
    (∃ (s : State) (i n : Nat) (x : Sess), i < 64 ∧ n < 16 ∧ s.taken i n = true ∧ 6 < slotCode (s.control i n) ∧ s.openSess i = some x) ∧
    (∃ (s : State) (i n : Nat), s.taken i n = false) :=
  ⟨⟨(st []).setBeyjo fun b => { b with sessions := [{ sess1 with queue := [⟨3, 3, 0, [1, 0]⟩] }] }, 5, { sess1 with queue := [⟨3, 3, 0, [1, 0]⟩] }, by decide⟩,
   ⟨(st []).setBeyjo fun b => { b with sessions := [sess1] }, 5, sess1, by decide⟩,
   ⟨(st []).setBeyjo fun b => { b with sessions := [sess1] }, 5, 3, sess1, by decide⟩,
   ⟨st0, 5, 3, true, by decide⟩,
   ⟨(st []).setBeyjo fun b => { b with sessions := [{ sess1 with unacked := [⟨2, 0, []⟩] }] }, 5, 2, { sess1 with unacked := [⟨2, 0, []⟩] }, ⟨2, 0, []⟩, by decide⟩,
   ⟨(st []).setBeyjo fun b => { b with sessions := [{ sess1 with unacked := [⟨2, 8, []⟩] }] }, 5, 2, { sess1 with unacked := [⟨2, 8, []⟩] }, ⟨2, 8, []⟩, by decide⟩,
   ⟨st0, by decide⟩,
   ⟨slotSt 1 0, 5, 2, by decide⟩,
   ⟨st0.setTime fun x => { x with beat := 5 }, by decide⟩,
   ⟨slotSt 2 0, 5, 2, sess1, by decide⟩,
   ⟨slotSt 2 9, 5, 2, sess1, by decide⟩,
   ⟨st0, 5, 2, by decide⟩⟩

/-- Every case of the statement `BeyjoOperations` with premises has a state and operands that meet them. -/
theorem witness_BeyjoOperations :
    (∃ (s : State) (z n : Nat) (l : List BOp) (x : Sess) (r : Nat × List OpResult), (s.sessNamed z).filter (·.isOpen) = some x ∧ l ≠ [] ∧ l.length ≤
      64 ∧ (x.replies.find? (fun r => r.1 == n) = some r)) ∧
    (∃ (s : State) (z n a : Nat) (x : Sess), (s.sessNamed z).filter (·.isOpen) = some x ∧ (x.replies.find? (fun r => r.1 == n) = none) ∧
      ((s.beyjo.openReqs.any fun r => r.index == x.index && r.seq == n) = false) ∧ x.lastSeq < n) ∧
    (∃ (s : State) (z n : Nat) (l : List BOp) (x : Sess), (s.sessNamed z).filter (·.isOpen) = some x ∧ l ≠ [] ∧ l.length ≤ 64 ∧ (x.replies.find? (fun
      r => r.1 == n) = none) ∧ ((s.beyjo.openReqs.any fun r => r.index == x.index && r.seq == n) = false) ∧ n ≤ x.lastSeq) ∧
    (∃ (s : State) (z n : Nat) (l : List BOp) (x : Sess), (s.sessNamed z).filter (·.isOpen) = some x) ∧
    (∃ (s : State) (i a n : Nat) (x : Sess), i < 64 ∧ s.openSess i = some x ∧ 1 ≤ n ∧ n ≤ 128 ∧ adRemote a = false) ∧
    (∃ (s : State) (i a n : Nat) (x : Sess), i < 64 ∧ s.openSess i = some x ∧ (n = 0 ∨ 128 < n)) ∧
    (∃ (s : State) (i a : Nat) (w : List Word) (x : Sess), i < 64 ∧ s.openSess i = some x ∧ w ≠ [] ∧ w.length ≤ 128 ∧ adRemote a = false) ∧
    (∃ (s : State) (i a : Nat) (x : Sess), i < 64 ∧ s.openSess i = some x) ∧
    (∃ (s : State) (i : Nat) (x : Sess), i < 64 ∧ s.openSess i = some x) ∧
    (∃ (s : State) (i : Nat) (m : Word) (x : Sess), i < 64 ∧ s.openSess i = some x) ∧
    (∃ (s : State) (i : Nat) (m : Word), s.openSess i = none) :=
  ⟨⟨(st []).setBeyjo fun b => { b with sessions := [{ sess1 with replies := [(3, [])] }] }, 5, 3, [⟨3, 0, 0, []⟩], { sess1 with replies := [(3, [])] }, (3, []), by decide⟩,
   ⟨(st []).setBeyjo fun b => { b with sessions := [sess1] }, 5, 3, 0, sess1, by decide⟩,
   ⟨(st []).setBeyjo fun b => { b with sessions := [{ sess1 with lastSeq := 9 }] }, 5, 3, [⟨3, 0, 0, []⟩], { sess1 with lastSeq := 9 }, by decide⟩,
   ⟨(st []).setBeyjo fun b => { b with sessions := [sess1] }, 5, 3, [], sess1, by decide⟩,
   ⟨(st []).setBeyjo fun b => { b with sessions := [sess1] }, 5, 0xF0100000, 1, sess1, by decide⟩,
   ⟨(st []).setBeyjo fun b => { b with sessions := [sess1] }, 5, 0xF0100000, 0, sess1, by decide⟩,
   ⟨(st []).setBeyjo fun b => { b with sessions := [sess1] }, 5, 0xF0100000, [7], sess1, by decide⟩,
   ⟨(st []).setBeyjo fun b => { b with sessions := [sess1] }, 5, 0xF0100000, sess1, by decide⟩,
   ⟨(st []).setBeyjo fun b => { b with sessions := [sess1] }, 5, sess1, by decide⟩,
   ⟨(st []).setBeyjo fun b => { b with sessions := [sess1] }, 5, 6, sess1, by decide⟩,
   ⟨st0, 5, 6, by decide⟩⟩

/-- Every case of the statement `BootAndReset` with premises has a state and operands that meet them. -/
theorem witness_BootAndReset :
    (∃ (s : State) (f x : Bool), s.boot.porst = true ∧ s.lifecycle = 0) ∧
    (∃ (s : State) (f x : Bool), s.boot.porst = true ∧ s.lifecycle ≠ 0) ∧
    (∃ (s : State) (f x : Bool), s.boot.porst = false ∧ s.rd GEN_BOOT_STATE ≠ 0) ∧
    (∃ (s : State) (ms : Nat) (l : List Nat), s.boot.porst = false ∧ s.rd GEN_BOOT_STATE < 4 ∧ s.lifecycle ≠ 0 ∧ ((l.any fun k => decide (3 ≤ k) &&
      decide (k ≤ 5) && !s.boot.tryKinds.contains k) = false)) ∧
    (∃ (s : State) (ms : Nat) (l : List Nat), s.boot.porst = false ∧ s.rd GEN_BOOT_STATE < 4 ∧ s.lifecycle ≠ 0 ∧ ((l.any fun k => decide (3 ≤ k) &&
      decide (k ≤ 5) && !s.boot.tryKinds.contains k) = true)) ∧
    (∃ (s : State) (ms : Nat) (l : List Nat), s.boot.porst = false ∧ s.rd GEN_BOOT_STATE < 4 ∧ s.lifecycle ≠ 0) ∧
    (∃ (s : State) (ms : Nat) (l : List Nat) (d : Bool), 4 ≤ s.rd GEN_BOOT_STATE) ∧
    (∃ (s : State) (b : Option Nat) (r : TimeRec), s.boot.timeRec = some r ∧ s.boot.timeWait = true ∧ s.rd TMK_CTRL_ENABLE = 0 ∧ r.src = 1) ∧
    (∃ (s : State) (n : Nat) (r : TimeRec), s.boot.timeRec = some r ∧ s.boot.timeWait = true ∧ s.rd TMK_CTRL_ENABLE = 0 ∧ r.src = 0) ∧
    (∃ (s : State) (r : TimeRec), s.boot.timeRec = some r ∧ r.src = 0) :=
  ⟨⟨(st [(LCS_STAT_STATE, 0)]).setBoot fun b => { b with porst := true }, true, false, by decide⟩,
   ⟨st0.setBoot fun b => { b with porst := true }, true, false, by decide⟩,
   ⟨st [(GEN_BOOT_STATE, 3)], true, false, by decide⟩,
   ⟨st0, 7, [], by decide⟩,
   ⟨st0, 7, [4], by decide⟩,
   ⟨st0, 7, [], by decide⟩,
   ⟨st [(GEN_BOOT_STATE, 4)], 7, [], false, by decide⟩,
   ⟨st0.setBoot fun b => { b with timeRec := some rec1, timeWait := true }, none, rec1, by decide⟩,
   ⟨st0.setBoot fun b => { b with timeRec := some { rec1 with src := 0 }, timeWait := true }, 9, { rec1 with src := 0 }, by decide⟩,
   ⟨st0.setBoot fun b => { b with timeRec := some { rec1 with src := 0 }, timeWait := true }, { rec1 with src := 0 }, by decide⟩⟩

/-- Every case of the statement `FirmwareAtTheUnit` with premises has a state and operands that meet them. -/
theorem witness_FirmwareAtTheUnit :
    (∃ (s : State) (i n : Nat) (a b : Bool), s.takenFor i n 3 = false) ∧
    (∃ (s : State) (i n : Nat) (a b : Bool) (e : Nat), s.takenFor i n 3 = true ∧ s.mailErr i n 3 2 [0, 2] = some e) ∧
    (∃ (s : State) (i n : Nat) (a b : Bool), s.takenFor i n 3 = true ∧ s.mailErr i n 3 2 [0, 2] = none ∧ bit (s.slotGet i n 1) 1 = true ∧ bits
      (s.slotGet i n 1) 15 8 = 0) ∧
    (∃ (s : State) (i n : Nat) (a b : Bool), s.takenFor i n 3 = true ∧ s.mailErr i n 3 2 [0, 2] = none ∧ bit (s.slotGet i n 1) 1 = false ∧ s.slotGet i
      n 0 % 2 ^ 32 ≤ 2 ^ 23 ∧ s.boot.loadBusy = true) ∧
    (∃ (s : State) (i n : Nat) (a b : Bool), s.takenFor i n 3 = true ∧ s.mailErr i n 3 2 [0, 2] = none ∧ bit (s.slotGet i n 1) 1 = false ∧ s.slotGet i
      n 0 % 2 ^ 32 ≤ 2 ^ 23 ∧ s.boot.loadBusy = false) ∧
    (∃ (s : State), s.active = false) ∧
    (∃ (s : State) (x : Container), s.active = true ∧ s.boot.distrib = none ∧ s.boot.rod.isSome = true ∧ s.hostMode 7 = false ∧ s.agentImage = some x) ∧
    (∃ (s : State) (l : List FwReport), s.boot.distrib = none) ∧
    (∃ (s : State) (l : List FwReport) (d : Distrib), s.boot.distrib = some d ∧ 2 ≤ s.rd GEN_AGENTFW_STATE ∧ ((d.targets.any fun x => (targetNow
      d.rounds l x).2 == 0) = true)) ∧
    (∃ (s : State) (l : List FwReport) (d : Distrib), s.boot.distrib = some d ∧ 2 ≤ s.rd GEN_AGENTFW_STATE ∧ ((d.targets.all fun x => (targetNow
      d.rounds l x).2 == 2 || (targetNow d.rounds l x).2 == 3) = true)) ∧
    (∃ (s : State) (d : Distrib), s.boot.distrib = some d) ∧
    (∃ (s : State), s.boot.distrib = none) ∧
    (∃ (s : State) (x : Cell) (d : Distrib), s.boot.distrib = some d) ∧
    (∃ (s : State) (x : Cell), s.boot.distrib = none ∧ s.active = false) :=
  ⟨⟨st0, 5, 2, true, true, by decide⟩,
   ⟨(slotWords 2 3 []).setBeyjo fun b => { b with sessions := [{ sess1 with role := 1 }] }, 5, 2, true, true, 2, by decide⟩,
   ⟨slotWords 2 3 [0, 2], 5, 2, true, true, by decide⟩,
   ⟨(slotWords 2 3 []).setBoot fun b => { b with loadBusy := true }, 5, 2, true, true, by decide⟩,
   ⟨slotWords 2 3 [], 5, 2, true, true, by decide⟩,
   ⟨st0, by decide⟩,
   ⟨(st [(PAR_STAT_ROLE, 1)]).setBoot fun b => { b with rod := some rod1, flash := [⟨6, 0, anImage⟩] }, anImage, by decide⟩,
   ⟨st0, [], by decide⟩,
   ⟨(st [(GEN_AGENTFW_STATE, 2)]).setBoot fun b => { b with distrib := some dist1 }, [], dist1, by decide⟩,
   ⟨(st [(GEN_AGENTFW_STATE, 2)]).setBoot fun b => { b with distrib := some { dist1 with targets := [(9, 3)] } }, [], { dist1 with targets := [(9, 3)] }, by decide⟩,
   ⟨st0.setBoot fun b => { b with distrib := some dist1 }, dist1, by decide⟩,
   ⟨st0, by decide⟩,
   ⟨st0.setBoot fun b => { b with distrib := some dist1 }, aCell0, dist1, by decide⟩,
   ⟨st0, aCell0, by decide⟩⟩

/-- Every case of the statement `FirmwareAtTheAgent` with premises has a state and operands that meet them. -/
theorem witness_FirmwareAtTheAgent :
    (∃ (s : State) (x : Cell), x.type = tFWCHUNK ∧ fwOp x = 1 ∧ s.ag.fw = none ∧ cellWord x 1 ≤ 2 ^ 23) ∧
    (∃ (s : State) (x : Cell) (f : AgFw), s.ag.fw = some f ∧ f.dist = fwDist x) ∧
    (∃ (s : State) (x : Cell) (b : Bool) (f : AgFw), s.ag.fw = some f ∧ x.type = tFWCHUNK ∧ fwOp x = 2 ∧ f.dist = fwDist x ∧ f.state = 0 ∧ fwIndex x <
      chunkCount f.len ∧ ((f.chunks.any fun c => c.1 == fwIndex x) = false) ∧ f.chunks.length + 1 < chunkCount f.len) ∧
    (∃ (s : State) (x : Cell) (b : Bool) (f : AgFw), s.ag.fw = some f ∧ ((f.chunks.any fun c => c.1 == fwIndex x) = true)) ∧
    (∃ (s : State) (x : Cell) (f : AgFw), s.ag.fw = some f ∧ x.type = tFWCHUNK ∧ fwOp x = 3 ∧ f.dist = fwDist x ∧ f.state = 1) ∧
    (∃ (s : State) (x : Cell) (f : AgFw), s.ag.fw = some f ∧ f.state ≠ 1) ∧
    (∃ (s : State) (f : AgFw) (a : Nat) (x : Container), s.ag.fw = some f ∧ f.activateAt = some a ∧ f.container = some x ∧ a ≤ s.agTime.beat) ∧
    (∃ (s : State) (f : AgFw) (a : Nat), s.ag.fw = some f ∧ f.activateAt = some a ∧ s.agTime.beat < a) ∧
    (∃ (s : State) (x : Cell), x.type = tFWCHUNK ∧ fwOp x = 4) :=
  ⟨⟨st0, fwCell 1 4 0, by decide⟩,
   ⟨st0.setAg fun g => { g with fw := some agfw1 }, fwCell 1 4 0, agfw1, by decide⟩,
   ⟨st0.setAg fun g => { g with fw := some agfw1 }, fwCell 2 4 1, true, agfw1, by decide⟩,
   ⟨st0.setAg fun g => { g with fw := some { agfw1 with chunks := [(1, [])] } }, fwCell 2 4 1, true, { agfw1 with chunks := [(1, [])] }, by decide⟩,
   ⟨st0.setAg fun g => { g with fw := some { agfw1 with state := 1 } }, fwCell 3 4 0, { agfw1 with state := 1 }, by decide⟩,
   ⟨st0.setAg fun g => { g with fw := some agfw1 }, fwCell 3 4 0, agfw1, by decide⟩,
   ⟨st0.setAg fun g => { g with fw := some { agfw1 with activateAt := some 0, container := some anImage } }, { agfw1 with activateAt := some 0, container := some anImage }, 0, anImage, by decide⟩,
   ⟨st0.setAg fun g => { g with fw := some { agfw1 with activateAt := some 5 } }, { agfw1 with activateAt := some 5 }, 5, by decide⟩,
   ⟨st0, fwCell 4 4 0, by decide⟩⟩

/-- Every case of the statement `RodLoading` with premises has a state and operands that meet them. -/
theorem witness_RodLoading :
    (∃ (s : State) (l : List NeighReport), s.boot.rod = none) ∧
    (∃ (s : State) (l : List NeighReport), s.boot.rod.isSome = true) ∧
    (∃ (s : State) (f : Nat), s.boot.rod.isSome = true ∧ (s.agentChips s.theRod).contains f = true ∧ s.heard f = false) ∧
    (∃ (s : State) (f : Nat), s.heard f = true) ∧
    (∃ (s : State) (i n : Nat), s.takenFor i n 1 = false) ∧
    (∃ (s : State) (i n : Nat), s.takenFor i n 1 = true ∧ s.hostMode 0 = false ∧ s.mailErr i n 1 1 [0] = none ∧ s.slotGet i n 0 % 2 ^ 32 ≤ 2 ^ 23 ∧
      s.boot.loadBusy = true) ∧
    (∃ (s : State) (i n : Nat), s.takenFor i n 1 = true ∧ s.hostMode 0 = false ∧ s.mailErr i n 1 1 [0] = none ∧ s.slotGet i n 0 % 2 ^ 32 ≤ 2 ^ 23 ∧
      s.boot.loadBusy = false ∧ s.rd PAR_STAT_ROLE = 2) ∧
    (∃ (s : State) (i n : Nat), s.takenFor i n 1 = true ∧ s.hostMode 0 = false ∧ s.mailErr i n 1 1 [0] = none ∧ s.slotGet i n 0 % 2 ^ 32 ≤ 2 ^ 23 ∧
      s.boot.loadBusy = false ∧ s.rd PAR_STAT_ROLE = 1) :=
  ⟨⟨st0, [], by decide⟩,
   ⟨(st []).setBoot fun b => { b with rod := some rod0 }, [], by decide⟩,
   ⟨(st []).setBoot fun b => { b with rod := some rod1 }, 9, by decide⟩,
   ⟨((st []).setBoot fun b => { b with rod := some rod1, mismatches := [mismatchAt 6 9 0 none 0] }), 9, by decide⟩,
   ⟨st0, 5, 2, by decide⟩,
   ⟨(slotWords 2 1 []).setBoot fun b => { b with loadBusy := true }, 5, 2, by decide⟩,
   ⟨(slotWords 2 1 []).wr PAR_STAT_ROLE 2, 5, 2, by decide⟩,
   ⟨(slotWords 2 1 []).wr PAR_STAT_ROLE 1, 5, 2, by decide⟩⟩

/-- Every case of the statement `ResetsAndTheirEnd` with premises has a state and operands that meet them. -/
theorem witness_ResetsAndTheirEnd :
    (∃ (s : State) (b d k : Nat), s.requestOk ⟨k, d, b, 0⟩ = false) ∧
    (∃ (s : State) (b d k : Nat), s.requestOk ⟨k, d, b, 0⟩ = true ∧ s.rst.running = none) ∧
    (∃ (s : State) (b d k : Nat) (q : ResetReq), s.requestOk ⟨k, d, b, 0⟩ = true ∧ s.rst.running = some q ∧ larger ⟨k, d, b, 0⟩ q = false) ∧
    (∃ (s : State) (b d k : Nat) (q : ResetReq), s.requestOk ⟨k, d, b, 0⟩ = true ∧ s.rst.running = some q ∧ larger ⟨k, d, b, 0⟩ q = true ∧ s.rst.dump
      = none) ∧
    (∃ (s : State), s.boot.porst = true) ∧
    (∃ (s : State), s.boot.porst = false ∧ s.rst.running = none) ∧
    (∃ (s : State) (q : ResetReq), s.boot.porst = false ∧ s.rst.running = some q ∧ q.domain = 3) ∧
    (∃ (s : State) (b d : Nat), s.blockOk b d = false) ∧
    (∃ (s : State) (b d : Nat) (q : ResetReq), s.blockOk b d = true ∧ s.rst.running = some q ∧ larger ⟨0, d, b, 0⟩ q = false) ∧
    (∃ (s : State) (b d : Nat), s.blockOk b d = true ∧ s.rst.running = none) ∧
    (∃ (s : State) (b d : Nat), s.blockOk b d = true) ∧
    (∃ (s : State) (b d : Nat), s.blockOk b d = false) ∧
    (∃ (s : State) (c : Bool) (u : Nat), s.rst.running = none) ∧
    (∃ (s : State) (u : Nat) (q : ResetReq), s.rst.running = some q ∧ s.rd RST_STAT_PHASE = 3 ∧ q.domain ≠ 3) ∧
    (∃ (s : State) (u : Nat) (q : ResetReq), s.rst.running = some q ∧ s.rd RST_STAT_PHASE = 3 ∧ (q.domain = 1 ∨ q.domain = 2)) ∧
    (∃ (s : State) (u : Nat) (q : ResetReq), s.rst.running = some q ∧ s.rd RST_STAT_PHASE = 3 ∧ q.domain = 0) :=
  ⟨⟨st0, 0x30, 0, 4, by decide⟩,
   ⟨st0, 0x32, 0, 0, by decide⟩,
   ⟨(st []).setRst fun q => { q with running := some ⟨0, 0, 0x30, 0⟩ }, 0x32, 0, 0, ⟨0, 0, 0x30, 0⟩, by decide⟩,
   ⟨(st []).setRst fun q => { q with running := some ⟨0, 0, 0x30, 0⟩ }, 0, 0, 3, ⟨0, 0, 0x30, 0⟩, by decide⟩,
   ⟨st0.setBoot fun b => { b with porst := true }, by decide⟩,
   ⟨st0, by decide⟩,
   ⟨(st []).setRst fun q => { q with running := some ⟨3, 0, 0, 0⟩ }, ⟨3, 0, 0, 0⟩, by decide⟩,
   ⟨st0, 0x99, 0, by decide⟩,
   ⟨(st []).setRst fun q => { q with running := some ⟨0, 0, 0x30, 0⟩ }, 0x32, 0, ⟨0, 0, 0x30, 0⟩, by decide⟩,
   ⟨st0, 0x32, 0, by decide⟩,
   ⟨st0, 0x32, 0, by decide⟩,
   ⟨st0, 0x99, 0, by decide⟩,
   ⟨st0, true, 9, by decide⟩,
   ⟨(st [(RST_STAT_PHASE, 3)]).setRst fun q => { q with running := some ⟨0, 0, 0x32, 0⟩ }, 9, ⟨0, 0, 0x32, 0⟩, by decide⟩,
   ⟨(st [(RST_STAT_PHASE, 3)]).setRst fun q => { q with running := some ⟨2, 0, 0, 0⟩ }, 9, ⟨2, 0, 0, 0⟩, by decide⟩,
   ⟨(st [(RST_STAT_PHASE, 3)]).setRst fun q => { q with running := some ⟨0, 0, 0x32, 0⟩ }, 9, ⟨0, 0, 0x32, 0⟩, by decide⟩⟩

/-- Every case of the statement `Dumps` with premises has a state and operands that meet them. -/
theorem witness_Dumps :
    (∃ (s : State), s.rst.dump = none) ∧
    (∃ (s : State) (d : DumpRun) (r : Nat × Nat × Nat × Nat) (l : List (Nat × Nat × Nat × Nat)), s.rst.dump = some d ∧ d.left = r :: l) ∧
    (∃ (s : State) (d : DumpRun), s.rst.dump = some d ∧ d.noSlot = false ∧ s.dumpArea = true ∧ s.rd RST_STAT_PHASE ≠ 1 ∧ d.mail = none) ∧
    (∃ (s : State), s.rst.dump = none) ∧
    (∃ (s : State) (u : Nat) (d : DumpRun), s.rst.dump = some d ∧ d.left = [] ∧ d.noSlot = false ∧ s.dumpArea = true ∧ s.rd RST_STAT_PHASE ≠ 1 ∧
      d.mail = none) ∧
    (∃ (s : State) (u : Nat), s.rst.dump = none) ∧
    (∃ (s : State) (f : Nat) (l : List (Nat × Nat × List Byte)) (b : Bool) (d : DumpRun), s.rst.dump = some d ∧ d.dump.scope ≠ 3) ∧
    (∃ (s : State) (f : Nat) (l : List (Nat × Nat × List Byte)) (k : Nat), s.rst.dump = none ∧ s.rst.agentDumps.contains f = true ∧ s.oldestSlot =
      some k ∧ s.dumpArea = true) ∧
    (∃ (s : State) (f : Nat) (l : List (Nat × Nat × List Byte)) (b : Bool), s.rst.dump = none ∧ s.rst.agentDumps.contains f = false) ∧
    (∃ (s : State) (i n : Nat), s.takenFor i n 2 = false) ∧
    (∃ (s : State) (i n e : Nat), s.takenFor i n 2 = true ∧ bits (s.slotGet i n 0) 1 0 ≠ 3 ∧ s.mailErr i n 2 1 [0, 2] = some e) ∧
    (∃ (s : State) (i n : Nat), s.takenFor i n 2 = true ∧ bits (s.slotGet i n 0) 1 0 ≠ 3 ∧ s.mailErr i n 2 1 [0, 2] = none ∧ s.hostMode 6 = false ∧
      s.rst.dump.isSome = true) ∧
    (∃ (s : State) (i n : Nat), s.takenFor i n 2 = true ∧ bits (s.slotGet i n 0) 1 0 ≠ 3 ∧ s.mailErr i n 2 1 [0, 2] = none ∧ s.hostMode 6 = false ∧
      s.rst.dump = none ∧ bits (s.slotGet i n 0) 1 0 = 1 ∧ s.hasDie (bits (s.slotGet i n 0) 7 4) = true ∧ s.oldestSlot.isSome = true ∧ s.dumpArea =
      true) :=
  ⟨⟨st0, by decide⟩,
   ⟨(st []).setRst fun q => { q with dump := some dump1 }, dump1, (5, 0, 5, 0), [], by decide⟩,
   ⟨(st []).setRst fun q => { q with dump := some dump1 }, dump1, by decide⟩,
   ⟨st0, by decide⟩,
   ⟨(st []).setRst fun q => { q with dump := some { dump1 with left := [] } }, 9, { dump1 with left := [] }, by decide⟩,
   ⟨st0, 9, by decide⟩,
   ⟨(st []).setRst fun q => { q with dump := some dump1 }, 9, [], false, dump1, by decide⟩,
   ⟨(st []).setRst fun q => { q with agentDumps := [9] }, 9, [(3, 1, [7])], 0, by decide⟩,
   ⟨st0, 9, [], false, by decide⟩,
   ⟨st0, 5, 2, by decide⟩,
   ⟨(slotWords 2 2 []).setBeyjo fun b => { b with sessions := [{ sess1 with role := 1 }] }, 5, 2, 2, by decide⟩,
   ⟨(slotWords 2 2 []).setRst fun q => { q with dump := some dump1 }, 5, 2, by decide⟩,
   ⟨slotWords 2 2 [1], 5, 2, by decide⟩⟩

/-- Every case of the statement `HoldsAndSpares` with premises has a state and operands that meet them. -/
theorem witness_HoldsAndSpares :
    (∃ (s : State) (c l : Nat), s.lidFid c l = none) ∧
    (∃ (s : State) (c l f : Nat), s.lidFid c l = some f ∧ s.linksLost f = false) ∧
    (∃ (s : State) (c l f : Nat), s.lidFid c l = some f ∧ s.linksLost f = true) ∧
    (∃ (s : State) (c l : Nat), (s.ctx c).holdChips.contains l = false) ∧
    (∃ (s : State) (c l : Nat), (s.ctx c).holdChips.contains l = true) ∧
    (∃ (s : State) (c l : Nat), c < 16 ∧ s.ctxs.length = 16 ∧ (s.ctx c).holdChips.contains l = true ∧ s.remapOf c l = none ∧ s.ctxState c = 2 ∧ (s.ctx
      c).lost.contains l = false ∧ (s.lidFid c l).isSome = true ∧ s.active = false ∧ s.rot.ended = []) ∧
    (∃ (s : State) (c l : Nat) (k : List Nat), s.remapOf c l = none) ∧
    (∃ (s : State) (c l : Nat) (k : List Nat) (m : Remap) (f : Nat), s.remapOf c l = some m ∧ m.spare = some f ∧ m.toSend = [] ∧ m.streamDone = false
      ∧ (((List.range (ceilDiv (s.streamCells c l).length 1048576)).filter fun i => nth k i != chunkCells (s.streamCells c l).length i) = [])) ∧
    (∃ (s : State) (c l : Nat) (k : List Nat) (m : Remap), s.remapOf c l = some m ∧ m.streamDone = true) ∧
    (∃ (s : State) (c a b : Nat), (s.active = false ∨ s.pair.handover.isSome = true ∨ s.holdOver c = false)) ∧
    (∃ (s : State) (c a b : Nat), s.active = true ∧ s.pair.handover = none ∧ s.holdOver c = true ∧ (s.ttb c).held = true ∧ s.mayRearm c = true ∧
      s.rst.remaps = []) ∧
    (∃ (s : State) (i n : Nat), s.takenFor i n 4 = false) ∧
    (∃ (s : State) (i n e : Nat), s.takenFor i n 4 = true ∧ s.mailErr i n 4 2 [0] = some e) ∧
    (∃ (s : State) (i n e : Nat), s.takenFor i n 4 = true ∧ s.mailErr i n 4 2 [0] = none ∧ s.hostMode 4 = false ∧ ((s.startMode 4 false).remapErr
      (bits (s.slotGet i n 0) 19 16) (bits (s.slotGet i n 0) 11 0) (bits (s.slotGet i n 1) 13 0) (bit (s.slotGet i n 0) 32) (bit (s.slotGet i n 1)
      63)) = some e) ∧
    (∃ (s : State) (x : Cell), bits (cellWord x 4) 63 56 ≠ 1) ∧
    (∃ (s : State) (x : Cell), bits (cellWord x 4) 63 56 = 1) :=
  ⟨⟨st0, 3, 0, by decide⟩,
   ⟨(((st [(CTX_SLICE_N (ctxPg 3), 1), (PRT_STAT_STATE (prtPg 3), 2)])).setCtx 3 fun x => { x with map := [(0, 2 ^ 63 + 9)] }).setBoot fun b => { b with rod := some rod1 }, 3, 0, 9, by decide⟩,
   ⟨((st [(CTX_SLICE_N (ctxPg 3), 1)])).setCtx 3 fun x => { x with map := [(0, 2 ^ 63 + 770)] }, 3, 0, 770, by decide⟩,
   ⟨st0, 3, 0, by decide⟩,
   ⟨st0.setCtx 3 fun x => { x with holdChips := [0] }, 3, 0, by decide⟩,
   ⟨(((st [(CTX_SLICE_N (ctxPg 3), 1), (CTX_STAT_STATE (ctxPg 3), 2)])).setCtx 3 fun x => { x with map := [(0, 2 ^ 63 + 770)] }).setCtx 3 fun x => { x with holdChips := [0] }, 3, 0, by decide⟩,
   ⟨st0, 3, 0, [], by decide⟩,
   ⟨(st []).setRst fun q => { q with remaps := [remap1] }, 3, 0, [], remap1, 9, by decide⟩,
   ⟨(st []).setRst fun q => { q with remaps := [{ remap1 with streamDone := true }] }, 3, 0, [], { remap1 with streamDone := true }, by decide⟩,
   ⟨st0, 3, 0, 0, by decide⟩,
   ⟨((st [(PAR_STAT_ROLE, 1), (TTB_STAT_STATE (ttbPg 3), 6)])).setTtb 3 fun x => { x with held := true }, 3, 0, 0, by decide⟩,
   ⟨st0, 5, 2, by decide⟩,
   ⟨(slotWords 2 4 []).setBeyjo fun b => { b with sessions := [{ sess1 with role := 1 }] }, 5, 2, 2, by decide⟩,
   ⟨slotWords 2 4 [], 5, 2, 0x10, by decide⟩,
   ⟨st0, aCell0, by decide⟩,
   ⟨st0, faultCell1, by decide⟩⟩

/-- Every case of the statement `SuppliesAndTemperatures` with premises has a state and operands that meet them. -/
theorem witness_SuppliesAndTemperatures :
    (∃ (s : State) (c : Nat), 4 < c) ∧
    (∃ (s : State) (c : Nat), c < 4) ∧
    (∃ (s : State), s.rd LCS_TAMPER_CFG_PIN_EN = 0) ∧
    (∃ (s : State), s.rd PWR_STAT_THROTTLED = 1) ∧
    (∃ (s : State), s.rd PWR_STAT_THROTTLED = 0) ∧
    (∃ (s : State), s.pwr.throttleNs = none) ∧
    (∃ (s : State) (n : Nat), s.pwr.throttleNs = some n) ∧
    (∃ (s : State) (d k : Nat) (x : Int), (s.hasDie d = false ∨ sensorCount d ≤ k)) ∧
    (∃ (s : State) (d k : Nat) (x : Int), s.hasDie d = true ∧ k < sensorCount d ∧ -25 ≤ x ∧ x < 115) ∧
    (∃ (s : State) (d k : Nat) (x : Int), s.hasDie d = true ∧ k < sensorCount d ∧ 115 ≤ x ∧ x < 130) ∧
    (∃ (s : State) (m k : Nat) (x : Int), s.hasStack m k = false) ∧
    (∃ (s : State) (m k : Nat) (x : Int), s.hasStack m k = true ∧ x < 100) ∧
    (∃ (s : State) (m k : Nat) (x : Int), s.hasStack m k = true ∧ 100 ≤ x) ∧
    (∃ (s : State) (c : Nat), s.cpwrEn c = true ∧ s.cpwrGood c = false) ∧
    (∃ (s : State) (c : Nat), s.cpwrGood c = true) ∧
    (∃ (s : State) (c : Nat) (b : Bool), s.cdies ≤ c) ∧
    (∃ (s : State) (c : Nat) (b : Bool), c < s.cdies ∧ (s.cpwrEn c && s.cpwrGood c && !b) = false) ∧
    (∃ (s : State) (c : Nat), c < s.cdies ∧ s.cpwrEn c = true ∧ s.cpwrGood c = true) ∧
    (∃ (s : State) (r d n m : Nat) (b : Bool), (12 ≤ r ∨ 4 ≤ n ∨ s.hasDie d = false)) ∧
    (∃ (s : State) (r d n m : Nat) (b : Bool), r < 12 ∧ n < 4 ∧ s.hasDie d = true ∧ (b = false ∨ s.railArmed r = false)) ∧
    (∃ (s : State) (r d n m : Nat), r < 12 ∧ n < 4 ∧ s.hasDie d = true ∧ s.railArmed r = true) ∧
    (∃ (s : State) (r : Nat), r < 12 ∧ r ≠ 6 ∧ r ≠ 7 ∧ s.pwr.armed.contains r = false) ∧
    (∃ (s : State) (r : Nat), s.pwr.armed.contains r = true) ∧
    (∃ (s : State) (v : Word), s.anyArmed = true) ∧
    (∃ (s : State) (v : Word), s.anyArmed = false) :=
  ⟨⟨st0, 5, by decide⟩,
   ⟨st0, 1, by decide⟩,
   ⟨st [(LCS_TAMPER_CFG_PIN_EN, 0)], by decide⟩,
   ⟨st [(PWR_STAT_THROTTLED, 1)], by decide⟩,
   ⟨st0, by decide⟩,
   ⟨st0, by decide⟩,
   ⟨(st [(PWR_STAT_THROTTLED, 1)]).setPwr fun q => { q with throttleNs := some 0 }, 0, by decide⟩,
   ⟨st0, 0, 8, 20, by decide⟩,
   ⟨st0, 0, 3, 114, by decide⟩,
   ⟨st0, 0, 3, 115, by decide⟩,
   ⟨st0, 4, 0, 20, by decide⟩,
   ⟨st0, 0, 5, 86, by decide⟩,
   ⟨st0, 0, 5, 100, by decide⟩,
   ⟨st [(PWR_CPWR_EN, 3), (PWR_CPWR_GOOD, 0)], 1, by decide⟩,
   ⟨st [(PWR_CPWR_EN, 3), (PWR_CPWR_GOOD, 3)], 1, by decide⟩,
   ⟨st0, 2, true, by decide⟩,
   ⟨st [(PWR_CPWR_EN, 3), (PWR_CPWR_GOOD, 0)], 1, true, by decide⟩,
   ⟨st [(PWR_CPWR_EN, 3), (PWR_CPWR_GOOD, 3)], 1, by decide⟩,
   ⟨st0, 12, 0, 0, 700, true, by decide⟩,
   ⟨st0, 3, 0, 3, 700, true, by decide⟩,
   ⟨(st []).setPwr fun q => { q with armed := [3] }, 3, 0, 3, 700, by decide⟩,
   ⟨st0, 3, by decide⟩,
   ⟨(st []).setPwr fun q => { q with armed := [3] }, 3, by decide⟩,
   ⟨st [(TTB_STAT_STATE (ttbPg 3), 5)], 7, by decide⟩,
   ⟨st0, 7, by decide⟩⟩

/-- Every case of the statement `Generations` with premises has a state and operands that meet them. -/
theorem witness_Generations :
    (∃ (s : State), s.mayGen = true ∧ s.pair.genDue = true) ∧
    (∃ (s : State), (s.mayGen = false ∨ s.pair.genDue = false)) ∧
    (∃ (s : State), s.active = true) ∧
    (∃ (s : State), s.active = false) ∧
    (∃ (s : State), s.active = true) ∧
    (∃ (s : State), s.active = false) ∧
    (∃ (s : State), s.active = true) ∧
    (∃ (s : State), s.active = false) ∧
    (∃ (s : State) (n : Nat), (s.active = false ∨ n = 0 ∨ s.ledgerCarriers = [])) ∧
    (∃ (s : State) (n : Nat) (x : VaultImage), s.active = true ∧ s.ledgerCarriers ≠ [] ∧ s.pair.writing = none ∧ s.pair.mirror = none ∧ n ≠ 0 ∧
      (s.rot.images.find? (fun x => s.ctxPaired x.ctx && imageLeft x != 0) = some x)) ∧
    (∃ (s : State) (x : Cell), s.active = false) ∧
    (∃ (s : State) (x : Cell) (g : GenRun), s.active = true ∧ s.route.record = none ∧ s.pair.mirror = none ∧ s.pair.writing = some g ∧ g.batch =
      cellWord x 0 % 2 ^ 16 ∧ cellWord x 1 < g.cells.length) ∧
    (∃ (s : State) (x : Cell) (g : GenRun), s.active = true ∧ s.route.record = none ∧ s.pair.mirror = none ∧ s.pair.writing = some g ∧ g.batch =
      cellWord x 0 % 2 ^ 16 ∧ g.cells.length ≤ cellWord x 1) ∧
    (∃ (s : State) (x : Cell) (g : GenRun), s.active = true ∧ s.route.record = none ∧ s.pair.mirror = none ∧ s.pair.writing = some g ∧ g.batch ≠
      cellWord x 0 % 2 ^ 16) ∧
    (∃ (s : State), (s.active = false ∨ s.ledgerCarriers = [])) ∧
    (∃ (s : State) (g : GenRun), s.active = true ∧ s.ledgerCarriers ≠ [] ∧ s.pair.writing = some g ∧ g.phase < 3 ∧ s.late256 g.lastBeat = true ∧
      s.route.record = none ∧ s.pair.mirror = none) ∧
    (∃ (s : State), s.pair.writing = none) ∧
    (∃ (s : State) (g : GenRun), s.pair.writing = some g ∧ s.active = true ∧ g.phase = 3 ∧ s.late256 g.lastBeat = true ∧ s.ledgerCarriers = []) ∧
    (∃ (s : State) (x : Cell), s.rd PAR_STAT_ROLE ≠ 2) ∧
    (∃ (s : State) (x : Cell), s.rd PAR_STAT_ROLE = 2 ∧ isLast x = false ∧ s.pair.recv.length + 1 < 349525) ∧
    (∃ (s : State) (x : Cell), s.rd PAR_STAT_ROLE = 2 ∧ isLast x = true ∧ x.cidx ≠ 0) ∧
    (∃ (s : State) (x : Cell), s.rd PAR_STAT_ROLE = 2 ∧ isLast x = true ∧ x.cidx = 0 ∧ x.offset = 0x40) ∧
    (∃ (s : State), s.rd PAR_STAT_ROLE ≠ 2) ∧
    (∃ (s : State) (x : Nat × Nat), s.rd PAR_STAT_ROLE = 2 ∧ s.pair.rxBatches.getLast? = some x) :=
  ⟨⟨((st [(PAR_STAT_ROLE, 1), (PRT_STAT_STATE (prtPg 3), 2), (PRT_STAT_ROLE (prtPg 3), 2)]).setPair fun q => { q with genDue := true }).setBoot fun b => { b with rod := some rod0 }, by decide⟩,
   ⟨st0, by decide⟩,
   ⟨st [(PAR_STAT_ROLE, 1)], by decide⟩,
   ⟨st0, by decide⟩,
   ⟨st [(PAR_STAT_ROLE, 1)], by decide⟩,
   ⟨st0, by decide⟩,
   ⟨st [(PAR_STAT_ROLE, 1)], by decide⟩,
   ⟨st0, by decide⟩,
   ⟨st0, 3, by decide⟩,
   ⟨(st [(PAR_STAT_ROLE, 1), (PRT_STAT_STATE (prtPg 3), 2), (PRT_STAT_ROLE (prtPg 3), 2)]).setRot fun r => { r with images := [img9], records := [{ kr1 with paired := true }] }, 3, img9, by decide⟩,
   ⟨st0, aCell0, by decide⟩,
   ⟨(st [(PAR_STAT_ROLE, 1)]).setPair fun q => { q with writing := some gen1 }, aCell0, gen1, by decide⟩,
   ⟨(st [(PAR_STAT_ROLE, 1)]).setPair fun q => { q with writing := some { gen1 with cells := [] } }, aCell0, { gen1 with cells := [] }, by decide⟩,
   ⟨(st [(PAR_STAT_ROLE, 1)]).setPair fun q => { q with writing := some { gen1 with batch := 5 } }, aCell0, { gen1 with batch := 5 }, by decide⟩,
   ⟨st0, by decide⟩,
   ⟨((st [(PAR_STAT_ROLE, 1), (PRT_STAT_STATE (prtPg 3), 2), (PRT_STAT_ROLE (prtPg 3), 2)]).setPair fun q => { q with writing := some gen1 }).setTime fun x => { x with beat := 256 }, gen1, by decide⟩,
   ⟨st0, by decide⟩,
   ⟨((st [(PAR_STAT_ROLE, 1)]).setPair fun q => { q with writing := some { gen1 with phase := 3 } }).setTime fun x => { x with beat := 256 }, { gen1 with phase := 3 }, by decide⟩,
   ⟨st0, aCell0, by decide⟩,
   ⟨st [(PAR_STAT_ROLE, 2)], { aCell0 with flags := 0 }, by decide⟩,
   ⟨st [(PAR_STAT_ROLE, 2)], { aCell0 with flags := 8, cidx := 4096 }, by decide⟩,
   ⟨st [(PAR_STAT_ROLE, 2)], { aCell0 with flags := 8, cidx := 0, offset := 0x40 }, by decide⟩,
   ⟨st0, by decide⟩,
   ⟨(st [(PAR_STAT_ROLE, 2)]).setPair fun q => { q with rxBatches := [(4, 9)] }, (4, 9), by decide⟩⟩

/-- Every case of the statement `TheReferee` with premises has a state and operands that meet them. -/
theorem witness_TheReferee :
    (∃ (s : State) (d : Site) (x : Cell), s.leaseRec d (leaseDom x) = none) ∧
    (∃ (s : State) (x : Cell) (r : LeaseRec), s.leaseRec .dz8 (leaseDom x) = some r ∧ isUnit x = true ∧ (r.starting = true ∨ (r.holder = x.src ∧
      r.released = none))) ∧
    (∃ (s : State) (x : Cell) (r : LeaseRec), s.leaseRec .agent (leaseDom x) = some r ∧ isUnit x = true ∧ r.starting = true) ∧
    (∃ (s : State) (d : Site) (x : Cell) (r : LeaseRec), s.leaseRec d (leaseDom x) = some r ∧ isUnit x = true ∧ r.starting = false ∧ r.holder ≠ x.src
      ∧ r.holder ≠ 0) ∧
    (∃ (s : State) (d : Site) (x : Cell) (r : LeaseRec), s.leaseRec d (leaseDom x) = some r ∧ isUnit x = false) ∧
    (∃ (s : State) (d : Site) (x : Cell), s.leaseRec d (leaseDom x) = none) ∧
    (∃ (s : State) (x : Cell) (r : LeaseRec), s.leaseRec .dz8 (leaseDom x) = some r ∧ isUnit x = true ∧ (r.starting = true ∨ (r.holder = x.src ∧
      r.released = none))) ∧
    (∃ (s : State) (x : Cell) (r : LeaseRec), s.leaseRec .agent (leaseDom x) = some r ∧ isUnit x = true ∧ r.starting = true) ∧
    (∃ (s : State) (d : Site) (x : Cell) (r : LeaseRec), s.leaseRec d (leaseDom x) = some r ∧ isUnit x = true ∧ r.starting = false ∧ r.holder ≠ x.src
      ∧ r.holder ≠ 0) ∧
    (∃ (s : State) (d : Site) (x : Cell) (r : LeaseRec), s.leaseRec d (leaseDom x) = some r ∧ isUnit x = false) ∧
    (∃ (s : State) (d : Site) (x : Cell), s.leaseRec d (leaseDom x) = none) ∧
    (∃ (s : State) (d : Site) (x : Cell) (r : LeaseRec), s.leaseRec d (leaseDom x) = some r ∧ isUnit x = true ∧ r.starting = true) ∧
    (∃ (s : State) (d : Site) (x : Cell) (r : LeaseRec), s.leaseRec d (leaseDom x) = some r ∧ isUnit x = true ∧ r.starting = false ∧ r.released = none
      ∧ ¬ (r.givenAt = some (s.beatS d) ∧ x.src < r.holder) ∧ r.holder ≠ 0 ∧ s.beatS d < r.expiry + s.beatsUp d s.guardMs) ∧
    (∃ (s : State) (d : Site) (x : Cell) (r : LeaseRec), s.leaseRec d (leaseDom x) = some r ∧ isUnit x = true ∧ r.starting = false ∧ r.released = none
      ∧ ¬ (r.givenAt = some (s.beatS d) ∧ x.src < r.holder) ∧ r.expiry + s.beatsUp d s.guardMs ≤ s.beatS d) ∧
    (∃ (s : State) (d : Site) (x : Cell) (r : LeaseRec), s.leaseRec d (leaseDom x) = some r ∧ isUnit x = true ∧ r.starting = false ∧ r.released = none
      ∧ r.givenAt = some (s.beatS d) ∧ x.src < r.holder) ∧
    (∃ (s : State) (d : Site) (x : Cell) (r : LeaseRec) (g : Nat), s.leaseRec d (leaseDom x) = some r ∧ isUnit x = true ∧ r.starting = false ∧
      r.released = some g ∧ g = leaseGen x ∧ x.src ≠ r.holder) ∧
    (∃ (s : State) (d : Site) (x : Cell) (r : LeaseRec) (g : Nat), s.leaseRec d (leaseDom x) = some r ∧ isUnit x = true ∧ r.starting = false ∧
      r.released = some g ∧ g ≠ leaseGen x) ∧
    (∃ (s : State) (d : Site) (x : Cell), s.leaseRec d (leaseDom x) = none) ∧
    (∃ (s : State) (d : Site) (x : Cell) (r : LeaseRec), s.leaseRec d (leaseDom x) = some r ∧ isUnit x = true ∧ r.holder = x.src) ∧
    (∃ (s : State) (d : Site) (x : Cell) (r : LeaseRec), s.leaseRec d (leaseDom x) = some r ∧ isUnit x = true ∧ r.holder ≠ x.src) ∧
    (∃ (s : State) (d : Site) (n : Nat) (r : LeaseRec), s.leaseRec d n = some r) ∧
    (∃ (s : State) (d : Site) (n : Nat), s.leaseRec d n = none) :=
  ⟨⟨st0, .dz8, aCell0, by decide⟩,
   ⟨(st [(GEN_FID_FID, 0xFF)]).setPair fun q => { q with leases := [{ lease1 with starting := true }] }, { aCell0 with src := 0xFE }, { lease1 with starting := true }, by decide⟩,
   ⟨ast [(LCS_PART_PART, 5)], { aCell0 with src := 0xFE }, startingRec 0, by decide⟩,
   ⟨(st [(GEN_FID_FID, 0xFF)]).setPair fun q => { q with leases := [{ lease1 with holder := 0xFF }] }, .dz8, { aCell0 with src := 0xFE }, { lease1 with holder := 0xFF }, by decide⟩,
   ⟨(st [(GEN_FID_FID, 0xFF)]).setPair fun q => { q with leases := [lease1] }, .dz8, { aCell0 with src := 9 }, lease1, by decide⟩,
   ⟨st0, .dz8, aCell0, by decide⟩,
   ⟨(st [(GEN_FID_FID, 0xFF)]).setPair fun q => { q with leases := [{ lease1 with starting := true }] }, { aCell0 with src := 0xFE }, { lease1 with starting := true }, by decide⟩,
   ⟨ast [(LCS_PART_PART, 5)], { aCell0 with src := 0xFE }, startingRec 0, by decide⟩,
   ⟨(st [(GEN_FID_FID, 0xFF)]).setPair fun q => { q with leases := [{ lease1 with holder := 0xFF }] }, .dz8, { aCell0 with src := 0xFE }, { lease1 with holder := 0xFF }, by decide⟩,
   ⟨(st [(GEN_FID_FID, 0xFF)]).setPair fun q => { q with leases := [lease1] }, .dz8, { aCell0 with src := 9 }, lease1, by decide⟩,
   ⟨st0, .dz8, aCell0, by decide⟩,
   ⟨(st [(GEN_FID_FID, 0xFF)]).setPair fun q => { q with leases := [{ lease1 with starting := true }] }, .dz8, { aCell0 with src := 0xFE }, { lease1 with starting := true }, by decide⟩,
   ⟨(st [(GEN_FID_FID, 0xFF)]).setPair fun q => { q with leases := [{ lease1 with holder := 0xFF, expiry := 9 }] }, .dz8, { aCell0 with src := 0xFE }, { lease1 with holder := 0xFF, expiry := 9 }, by decide⟩,
   ⟨((st [(GEN_FID_FID, 0xFF)]).setPair fun q => { q with leases := [{ lease1 with holder := 0xFF, expiry := 9 }] }).setTime fun x => { x with beat := 1000000 }, .dz8, { aCell0 with src := 0xFE }, { lease1 with holder := 0xFF, expiry := 9 }, by decide⟩,
   ⟨(st [(GEN_FID_FID, 0xFF)]).setPair fun q => { q with leases := [{ lease1 with holder := 0xFF, givenAt := some 0 }] }, .dz8, { aCell0 with src := 0xFE }, { lease1 with holder := 0xFF, givenAt := some 0 }, by decide⟩,
   ⟨(st [(GEN_FID_FID, 0xFF)]).setPair fun q => { q with leases := [{ lease1 with holder := 0xFF, released := some 0 }] }, .dz8, { aCell0 with src := 0xFE }, { lease1 with holder := 0xFF, released := some 0 }, 0, by decide⟩,
   ⟨(st [(GEN_FID_FID, 0xFF)]).setPair fun q => { q with leases := [{ lease1 with holder := 0xFF, released := some 5 }] }, .dz8, { aCell0 with src := 0xFE }, { lease1 with holder := 0xFF, released := some 5 }, 5, by decide⟩,
   ⟨st0, .dz8, aCell0, by decide⟩,
   ⟨(st [(GEN_FID_FID, 0xFF)]).setPair fun q => { q with leases := [{ lease1 with holder := 0xFE }] }, .dz8, { aCell0 with src := 0xFE }, { lease1 with holder := 0xFE }, by decide⟩,
   ⟨(st [(GEN_FID_FID, 0xFF)]).setPair fun q => { q with leases := [lease1] }, .dz8, { aCell0 with src := 0xFE }, lease1, by decide⟩,
   ⟨(st [(GEN_FID_FID, 0xFF)]).setPair fun q => { q with leases := [{ lease1 with starting := true }] }, .dz8, 0, { lease1 with starting := true }, by decide⟩,
   ⟨st0, .dz8, 0, by decide⟩⟩

/-- Every case of the statement `TheLeaseOfTheUnit` with premises has a state and operands that meet them. -/
theorem witness_TheLeaseOfTheUnit :
    (∃ (s : State), s.mayRenew = false) ∧
    (∃ (s : State), s.mayRenew = true) ∧
    (∃ (s : State) (x : Cell), s.pair.handover = none ∧ s.active = true) ∧
    (∃ (s : State) (x : Cell), s.pair.handover = none ∧ s.active = false) ∧
    (∃ (s : State) (x : Cell) (h : Handover), s.pair.handover = some h ∧ h.phase = 4) ∧
    (∃ (s : State), s.active = true ∧ s.rd PAR_LEASE_EXPIRY ≤ s.time.beat) ∧
    (∃ (s : State), (s.active = false ∨ s.time.beat < s.rd PAR_LEASE_EXPIRY)) ∧
    (∃ (s : State), s.pair.renewSince = none) ∧
    (∃ (s : State) (b : Nat), s.pair.renewSince = some b ∧ s.mayRenew = true ∧ b + 3 * s.beatsUp .dz8 s.renewMs ≤ s.time.beat ∧ s.rd PAR_STAT_COPY = 2
      ∧ s.rd PAR_REFEREE_ALTERNATE ≠ 0 ∧ s.rd PAR_REFEREE_IN_USE = 0) ∧
    (∃ (s : State), s.mayAsk = true ∧ s.alone = true) ∧
    (∃ (s : State), (s.mayAsk = false ∨ s.alone = false)) ∧
    (∃ (s : State) (b : Nat), s.pair.retryAt = some b ∧ b ≤ s.time.beat ∧ s.mayAsk = true ∧ s.alone = true) ∧
    (∃ (s : State) (b : Nat), s.pair.retryAt = some b ∧ b ≤ s.time.beat ∧ s.mayAsk = false) ∧
    (∃ (s : State) (b : Nat), s.pair.retryAt = some b ∧ s.time.beat < b) ∧
    (∃ (s : State) (x : Cell), s.pair.handover = none ∧ s.rd PAR_STAT_ROLE = 0 ∧ leaseReason x = whyHeld ∧ leaseHolder x = s.partnerFid) ∧
    (∃ (s : State) (x : Cell), s.pair.handover = none ∧ s.rd PAR_STAT_ROLE = 0 ∧ leaseHolder x ≠ s.partnerFid) ∧
    (∃ (s : State) (x : Cell), s.pair.handover = none ∧ s.active = true) ∧
    (∃ (s : State) (x : Cell) (b : Nat), s.pair.handover = none ∧ s.rd PAR_STAT_ROLE = 2 ∧ leaseReason x = whyHeld ∧ s.pair.retryAt = some b) ∧
    (∃ (s : State) (x : Cell), s.pair.handover = none ∧ s.rd PAR_STAT_ROLE = 2 ∧ leaseReason x ≠ whyHeld) ∧
    (∃ (s : State), s.pair.handover = none) ∧
    (∃ (s : State) (h : Handover), s.pair.handover = some h ∧ h.phase = 4) ∧
    (∃ (s : State) (x : Cell), s.rd PAR_STAT_ROLE = 1) ∧
    (∃ (s : State) (x : Cell), s.rd PAR_STAT_ROLE ≠ 1 ∧ s.rd PAR_STAT_TAKEOVER ≠ 1) ∧
    (∃ (s : State) (x : Cell), s.rd PAR_STAT_ROLE = 0 ∧ s.rd PAR_STAT_TAKEOVER = 1) ∧
    (∃ (s : State) (x : Cell), s.rd PAR_STAT_ROLE = 2 ∧ s.rd PAR_STAT_TAKEOVER = 1) :=
  ⟨⟨st0, by decide⟩,
   ⟨st [(PAR_STAT_ROLE, 1)], by decide⟩,
   ⟨st [(PAR_STAT_ROLE, 1)], aCell0, by decide⟩,
   ⟨st0, aCell0, by decide⟩,
   ⟨(st [(PAR_STAT_ROLE, 3)]).setPair fun q => { q with handover := some ⟨5, 2, 4, 9⟩ }, aCell0, ⟨5, 2, 4, 9⟩, by decide⟩,
   ⟨st [(PAR_STAT_ROLE, 1)], by decide⟩,
   ⟨st0, by decide⟩,
   ⟨st0, by decide⟩,
   ⟨((st [(PAR_STAT_ROLE, 1), (PAR_STAT_COPY, 2), (PAR_REFEREE_ALTERNATE, 9)]).setPair fun q => { q with renewSince := some 0 }).setTime fun x => { x with beat := 1000000 }, 0, by decide⟩,
   ⟨st [(PAR_STAT_ROLE, 2), (PAR_STAT_CANDIDATE, 1)], by decide⟩,
   ⟨st [(PAR_STAT_ROLE, 1)], by decide⟩,
   ⟨(st [(PAR_STAT_ROLE, 2), (PAR_STAT_CANDIDATE, 1)]).setPair fun q => { q with retryAt := some 0 }, 0, by decide⟩,
   ⟨(st [(PAR_STAT_ROLE, 1)]).setPair fun q => { q with retryAt := some 0 }, 0, by decide⟩,
   ⟨(st []).setPair fun q => { q with retryAt := some 7 }, 7, by decide⟩,
   ⟨st0, heldCell, by decide⟩,
   ⟨st0, aCell0, by decide⟩,
   ⟨st [(PAR_STAT_ROLE, 1)], aCell0, by decide⟩,
   ⟨(st [(PAR_STAT_ROLE, 2)]).setPair fun q => { q with retryAt := some 7 }, heldCell, 7, by decide⟩,
   ⟨(st [(PAR_STAT_ROLE, 2)]).setPair fun q => { q with retryAt := some 7 }, aCell0, by decide⟩,
   ⟨st0, by decide⟩,
   ⟨(st [(PAR_STAT_ROLE, 3)]).setPair fun q => { q with handover := some ⟨5, 2, 4, 9⟩ }, ⟨5, 2, 4, 9⟩, by decide⟩,
   ⟨st [(PAR_STAT_ROLE, 1)], aCell0, by decide⟩,
   ⟨st0, aCell0, by decide⟩,
   ⟨st [(PAR_STAT_TAKEOVER, 1)], aCell0, by decide⟩,
   ⟨st [(PAR_STAT_ROLE, 2), (PAR_STAT_TAKEOVER, 1)], aCell0, by decide⟩⟩

/-- Every case of the statement `TakeoverAndHandover` with premises has a state and operands that meet them. -/
theorem witness_TakeoverAndHandover :
    (∃ (s : State) (l : List AgentReport) (a b : Bool), (s.active = false ∨ s.rd PAR_STAT_TAKEOVER ≠ 2 ∨ s.pair.reconciled = true)) ∧
    (∃ (s : State) (l : List AgentReport) (a b : Bool), s.active = true ∧ s.rd PAR_STAT_TAKEOVER = 2 ∧ s.pair.reconciled = false ∧ s.pair.rxGen = 0) ∧
    (∃ (s : State) (l : List AgentReport) (a b : Bool), s.active = true ∧ s.rd PAR_STAT_TAKEOVER = 2 ∧ s.pair.reconciled = false ∧ s.pair.rxGen ≠ 0) ∧
    (∃ (s : State) (b : Bool), (s.rd PAR_STAT_TAKEOVER < 2 ∨ 4 < s.rd PAR_STAT_TAKEOVER)) ∧
    (∃ (s : State), 2 ≤ s.rd PAR_STAT_TAKEOVER ∧ s.rd PAR_STAT_TAKEOVER ≤ 4) ∧
    (∃ (s : State), 2 ≤ s.rd PAR_STAT_TAKEOVER ∧ s.rd PAR_STAT_TAKEOVER ≤ 4) ∧
    (∃ (s : State), s.active = true ∧ s.rd PAR_STAT_TAKEOVER = 4 ∧ s.pair.reconciled = true ∧ s.pair.cdiesReady = true ∧ s.flt.fatal = false) ∧
    (∃ (s : State), (s.active = false ∨ s.rd PAR_STAT_TAKEOVER ≠ 4 ∨ s.pair.cdiesReady = false)) ∧
    (∃ (s : State), s.active = true ∧ s.rd PAR_STAT_TAKEOVER = 5 ∧ s.flipRuns = false) ∧
    (∃ (s : State), (s.active = false ∨ s.rd PAR_STAT_TAKEOVER ≠ 5 ∨ s.flipRuns = true)) ∧
    (∃ (s : State) (i n : Nat), s.takenFor i n 6 = false) ∧
    (∃ (s : State) (i n e : Nat), s.takenFor i n 6 = true ∧ s.mailErr i n 6 1 [0] = none ∧ s.handoverErr (bit (s.slotGet i n 0) 0) = some e) ∧
    (∃ (s : State) (i n : Nat), s.takenFor i n 6 = true ∧ s.mailErr i n 6 1 [0] = none ∧ s.handoverErr (bit (s.slotGet i n 0) 0) = none) ∧
    (∃ (s : State) (h : Handover), s.pair.handover = some h ∧ s.active = true ∧ h.phase = 1 ∧ s.ttbs.length = 16) ∧
    (∃ (s : State), s.pair.handover = none ∧ s.rd PAR_STAT_ROLE = 2) ∧
    (∃ (s : State), s.pair.handover = none ∧ s.rd PAR_STAT_ROLE ≠ 2) ∧
    (∃ (s : State) (h : Handover), s.pair.handover = some h ∧ s.active = true ∧ h.phase = 2 ∧ s.allHeld = true) ∧
    (∃ (s : State), (s.pair.handover = none ∨ s.allHeld = false)) ∧
    (∃ (s : State) (h : Handover), s.pair.handover = some h ∧ h.phase = 2) ∧
    (∃ (s : State), s.pair.handover = none) ∧
    (∃ (s : State) (p : Nat × Nat × Nat), s.active = true ∧ p = (s.rd LCS_PART_PART, s.rd LCS_PART_DIES, s.rd LCS_PART_TILE_MHZ)) ∧
    (∃ (s : State) (p : Nat × Nat × Nat), s.active = true ∧ p.1 ≠ s.rd LCS_PART_PART) ∧
    (∃ (s : State), s.rd PAR_STAT_ROLE = 3) ∧
    (∃ (s : State), s.rd PAR_STAT_ROLE = 2) :=
  ⟨⟨st0, [], true, true, by decide⟩,
   ⟨st [(PAR_STAT_ROLE, 1), (PAR_STAT_TAKEOVER, 2)], [], true, true, by decide⟩,
   ⟨(st [(PAR_STAT_ROLE, 1), (PAR_STAT_TAKEOVER, 2)]).setPair fun q => { q with rxGen := 4 }, [], true, true, by decide⟩,
   ⟨st0, true, by decide⟩,
   ⟨st [(PAR_STAT_TAKEOVER, 2)], by decide⟩,
   ⟨st [(PAR_STAT_TAKEOVER, 2)], by decide⟩,
   ⟨(st [(PAR_STAT_ROLE, 1), (PAR_STAT_TAKEOVER, 4)]).setPair fun q => { q with reconciled := true, cdiesReady := true }, by decide⟩,
   ⟨st0, by decide⟩,
   ⟨st [(PAR_STAT_ROLE, 1), (PAR_STAT_TAKEOVER, 5)], by decide⟩,
   ⟨st0, by decide⟩,
   ⟨st0, 5, 2, by decide⟩,
   ⟨slotWords 2 6 [], 5, 2, 0x10, by decide⟩,
   ⟨((slotWords 2 6 []).wr PAR_STAT_ROLE 1).wr PAR_STAT_COPY 2, 5, 2, by decide⟩,
   ⟨(st [(PAR_STAT_ROLE, 1)]).setPair fun q => { q with handover := some ⟨5, 2, 1, 0⟩ }, ⟨5, 2, 1, 0⟩, by decide⟩,
   ⟨st [(PAR_STAT_ROLE, 2)], by decide⟩,
   ⟨st0, by decide⟩,
   ⟨(st [(PAR_STAT_ROLE, 1)]).setPair fun q => { q with handover := some ⟨5, 2, 2, 0⟩ }, ⟨5, 2, 2, 0⟩, by decide⟩,
   ⟨st0, by decide⟩,
   ⟨(st [(PAR_STAT_ROLE, 1)]).setPair fun q => { q with handover := some ⟨5, 2, 2, 0⟩ }, ⟨5, 2, 2, 0⟩, by decide⟩,
   ⟨st0, by decide⟩,
   ⟨st [(PAR_STAT_ROLE, 1)], ((st [(PAR_STAT_ROLE, 1)]).rd LCS_PART_PART, (st [(PAR_STAT_ROLE, 1)]).rd LCS_PART_DIES, (st [(PAR_STAT_ROLE, 1)]).rd LCS_PART_TILE_MHZ), by decide⟩,
   ⟨st [(PAR_STAT_ROLE, 1)], (200, 0, 0), by decide⟩,
   ⟨st [(PAR_STAT_ROLE, 3)], by decide⟩,
   ⟨st [(PAR_STAT_ROLE, 2)], by decide⟩⟩

/-- Every case of the statement `FaultsAndTheJig` with premises has a state and operands that meet them. -/
theorem witness_FaultsAndTheJig :
    (∃ (s : State) (d : Site) (x p v : Nat) (c : Option Nat), srcFid x ≠ s.fidS d) ∧
    (∃ (s : State) (d : Site) (x p v : Nat) (c : Option Nat), srcFid x = s.fidS d ∧ (detInitial d (srcFam x) (srcDet x)).isSome = true ∧ tget (s.fltS
      d).jigChecks (srcPage x / 4096) = 0) ∧
    (∃ (s : State) (d : Site) (n : Nat), (((s.fltS d).waiting.all fun e => decide (n < e.arrival)) = true)) ∧
    (∃ (s : State) (n : Nat) (e : Event), s.flt.waiting = [e] ∧ e.arrival ≤ n ∧ s.flt.first = none ∧ e.level = 1 ∧ e.merged = false ∧ e.conseq = false
      ∧ e.promoted = false ∧ srcFam e.source ∉ [4, 0x16, 0x18]) ∧
    (∃ (s : State) (n : Nat), s.flt.decisions = []) ∧
    (∃ (s : State) (n : Nat) (d : Decision) (l : List Decision), s.flt.decisions = d :: l ∧ bit d.allowed n = true) ∧
    (∃ (s : State) (n : Nat) (d : Decision) (l : List Decision), s.flt.decisions = d :: l ∧ bit d.allowed n = false) ∧
    (∃ (s : State) (d : Decision) (l : List Decision), s.flt.decisions = d :: l) ∧
    (∃ (s : State), s.flt.decisions = []) ∧
    (∃ (s : State) (n : Nat), ((s.flt.reactions.any fun r => r.serial == n && r.done) = true)) ∧
    (∃ (s : State) (n : Nat), ((s.flt.reactions.any fun r => r.serial == n && r.done) = false)) ∧
    (∃ (s : State) (d : Nat), d < 2) ∧
    (∃ (s : State) (d : Nat), 2 ≤ d) ∧
    (∃ (s : State) (d : Site) (v : Word), bit v.toNat 0 = true) ∧
    (∃ (s : State) (d : Site) (v : Word), bit v.toNat 0 = false) ∧
    (∃ (s : State) (d : Site), s.rdS d JIG_ARM_ARM = 1) ∧
    (∃ (s : State) (d : Site), s.rdS d JIG_ARM_ARM = 0) ∧
    (∃ (s : State) (d : Site) (p : Nat), s.rdS d (PG_JIG_MODE p) = 0) ∧
    (∃ (s : State) (d : Site) (p : Nat), s.rdS d (PG_JIG_MODE p) ≠ 0 ∧ s.rdS d JIG_ARM_ARM = 0) ∧
    (∃ (s : State) (d : Site) (p : Nat), s.rdS d (PG_JIG_MODE p) ≠ 0 ∧ s.rdS d JIG_ARM_ARM = 1 ∧ (detSecurity d (srcFam (sourceOf (s.fidS d) p (s.rdS
      d (PG_JIG_DET p)))) (s.rdS d (PG_JIG_DET p)) && s.isSealed d) = false ∧ (detInitial d (srcFam (sourceOf (s.fidS d) p (s.rdS d (PG_JIG_DET p))))
      (s.rdS d (PG_JIG_DET p))).isSome = true) :=
  ⟨⟨st0, .dz8, 2 ^ 25 * 9, 0, 0, none, by decide⟩,
   ⟨st0, .dz8, sourceOf 0 tmkPg 1, 0, 0, none, by decide⟩,
   ⟨st0, .dz8, 9, by decide⟩,
   ⟨(st []).setFlt .dz8 fun f => { f with waiting := [event1] }, 0, event1, by decide⟩,
   ⟨st0, 3, by decide⟩,
   ⟨(st []).setFlt .dz8 fun f => { f with decisions := [⟨1, 0, 2, 4⟩] }, 2, ⟨1, 0, 2, 4⟩, [], by decide⟩,
   ⟨(st []).setFlt .dz8 fun f => { f with decisions := [⟨1, 0, 2, 4⟩] }, 3, ⟨1, 0, 2, 4⟩, [], by decide⟩,
   ⟨(st []).setFlt .dz8 fun f => { f with decisions := [⟨1, 0, 2, 4⟩] }, ⟨1, 0, 2, 4⟩, [], by decide⟩,
   ⟨st0, by decide⟩,
   ⟨(st []).setFlt .dz8 fun f => { f with reactions := [⟨2, 9, 0, 3, true⟩] }, 9, by decide⟩,
   ⟨st0, 9, by decide⟩,
   ⟨st0, 1, by decide⟩,
   ⟨st0, 2, by decide⟩,
   ⟨st0, .dz8, 1, by decide⟩,
   ⟨st [(JIG_ARM_ARM, 1)], .dz8, 0, by decide⟩,
   ⟨st [(JIG_ARM_ARM, 1)], .dz8, by decide⟩,
   ⟨st0, .dz8, by decide⟩,
   ⟨st0, .dz8, tmkPg, by decide⟩,
   ⟨st [(PG_JIG_MODE tmkPg, 1)], .dz8, tmkPg, by decide⟩,
   ⟨st [(PG_JIG_MODE tmkPg, 1), (PG_JIG_DET tmkPg, 1), (JIG_ARM_ARM, 1)], .dz8, tmkPg, by decide⟩⟩

/-- Every case of the statement `RegisterAccess` with premises has a state and operands that meet them. -/
theorem witness_RegisterAccess :
    (∃ (s : State) (a : Nat) (v : Word), s.gate operator a true ≠ stOK) ∧
    (∃ (s : State) (a : Nat) (v : Word), s.gate operator a true = stOK) ∧
    (∃ (s : State) (v : Word), s.gate operator 0xF1700120 true = stOK ∧ 10 ≤ v.toNat % 2 ^ 16 ∧ v.toNat % 2 ^ 16 ≤ 1000) ∧
    (∃ (s : State) (v : Word), (v.toNat % 2 ^ 16 < 10 ∨ 1000 < v.toNat % 2 ^ 16)) ∧
    (∃ (s : State) (i n w : Nat) (v : Word), i < 64 ∧ n < 16 ∧ w < 16 ∧ s.taken i n = false) ∧
    (∃ (s : State) (i n w : Nat) (v : Word), s.taken i n = true) ∧
    (∃ (s : State) (i : Nat), s.sessAt (i % 64) = none) ∧
    (∃ (s : State) (i : Nat) (x : Sess), s.sessAt (i % 64) = some x) ∧
    (∃ (s : State) (d : Site) (p : Nat) (v : Word), s.pageIn d p = false) ∧
    (∃ (s : State) (d : Site) (p : Nat) (v : Word), s.pageIn d p = true ∧ bit v.toNat 0 = true) ∧
    (∃ (s : State) (d : Site) (p : Nat) (v : Word), s.pageIn d p = true ∧ bit v.toNat 0 = false) ∧
    (∃ (s : State) (a : Nat) (v : Word), s.ag.porst = true) ∧
    (∃ (s : State) (a : Nat) (v : Word), s.ag.porst = false ∧ (2 ^ 32 ≤ a ∨ a % 8 ≠ 0 ∨ s.agPageExists a = false)) ∧
    (∃ (s : State) (a : Nat) (v : Word), s.ag.porst = false ∧ a < 2 ^ 32 ∧ a % 8 = 0 ∧ s.agPageExists a = true ∧ hasLocal a = false) ∧
    (∃ (s : State) (v : Word), s.ag.porst = false ∧ s.isLeaf = false ∧ s.ard (PG_LOCK_LOCK 0x00600000) = 0 ∧ s.handleNamed = false) ∧
    (∃ (s : State) (v : Word), s.ag.porst = false ∧ s.isLeaf = false ∧ s.handleNamed = true) ∧
    (∃ (s : State) (x : Cell), (s.ag.porst = true ∨ s.aon GEN_FID_VALID = false)) ∧
    (∃ (s : State) (x : Cell), s.ag.porst = false ∧ s.aon GEN_FID_VALID = true ∧ s.epochGood .agent x = false) ∧
    (∃ (s : State) (x : Cell), s.ag.porst = false ∧ s.aon GEN_FID_VALID = true ∧ s.epochGood .agent x = true ∧ x.src % 256 < 0xFE) ∧
    (∃ (s : State) (x : Cell) (l : List Word), s.ag.porst = false ∧ s.aon GEN_FID_VALID = true ∧ s.epochGood .agent x = true ∧ 0xFE ≤ x.src % 256 ∧
      s.replayOf x.src x.seq = some l) ∧
    (∃ (s : State) (x : Cell), s.ag.porst = false ∧ s.aon GEN_FID_VALID = true ∧ s.epochGood .agent x = true ∧ 0xFE ≤ x.src % 256 ∧ s.replayOf x.src
      x.seq = none) ∧
    (∃ (s : State) (x : Cell), (s.ag.porst = true ∨ s.aon GEN_FID_VALID = false)) ∧
    (∃ (s : State) (x : Cell), s.ag.porst = false ∧ s.aon GEN_FID_VALID = true ∧ s.epochGood .agent x = false) ∧
    (∃ (s : State) (x : Cell), s.ag.porst = false ∧ s.aon GEN_FID_VALID = true ∧ s.epochGood .agent x = true ∧ x.src % 256 < 0xFE) ∧
    (∃ (s : State) (x : Cell) (l : List Word), s.ag.porst = false ∧ s.aon GEN_FID_VALID = true ∧ s.epochGood .agent x = true ∧ 0xFE ≤ x.src % 256 ∧
      s.replayOf x.src x.seq = some l) ∧
    (∃ (s : State) (x : Cell), s.ag.porst = false ∧ s.aon GEN_FID_VALID = true ∧ s.epochGood .agent x = true ∧ 0xFE ≤ x.src % 256 ∧ s.replayOf x.src
      x.seq = none) :=
  ⟨⟨st0, 1, 0, by decide⟩,
   ⟨st0, 0xF1700120, 100, by decide⟩,
   ⟨st0, 100, by decide⟩,
   ⟨st0, 9, by decide⟩,
   ⟨st0, 5, 2, 3, 7, by decide⟩,
   ⟨slotSt 2 0, 5, 2, 3, 7, by decide⟩,
   ⟨st0, 5, by decide⟩,
   ⟨(st []).setBeyjo fun b => { b with sessions := [sess1] }, 5, sess1, by decide⟩,
   ⟨st0, .dz8, 0, 1, by decide⟩,
   ⟨st0, .dz8, 0xF1700000, 1, by decide⟩,
   ⟨st0, .dz8, 0xF1700000, 2, by decide⟩,
   ⟨st0.setAg fun x => { x with porst := true }, 0, 0, by decide⟩,
   ⟨st0, 1, 0, by decide⟩,
   ⟨st0, 0x00200100, 0, by decide⟩,
   ⟨st0, 128, by decide⟩,
   ⟨namedSt, 128, by decide⟩,
   ⟨st0, aCell0, by decide⟩,
   ⟨ast [(GEN_FID_VALID, 1), (RTE_EPOCH_EPOCHS 0, 3)], { aCell0 with epoch := 7 }, by decide⟩,
   ⟨ast [(GEN_FID_VALID, 1)], aCell0, by decide⟩,
   ⟨(ast [(GEN_FID_VALID, 1)]).setAg fun g => { g with replay := [(0xFE, [(0, [7])])] }, { aCell0 with src := 0xFE }, [7], by decide⟩,
   ⟨ast [(GEN_FID_VALID, 1)], { aCell0 with src := 0xFE }, by decide⟩,
   ⟨st0, aCell0, by decide⟩,
   ⟨ast [(GEN_FID_VALID, 1), (RTE_EPOCH_EPOCHS 0, 3)], { aCell0 with epoch := 7 }, by decide⟩,
   ⟨ast [(GEN_FID_VALID, 1)], aCell0, by decide⟩,
   ⟨(ast [(GEN_FID_VALID, 1)]).setAg fun g => { g with replay := [(0xFE, [(0, [7])])] }, { aCell0 with src := 0xFE }, [7], by decide⟩,
   ⟨ast [(GEN_FID_VALID, 1)], { aCell0 with src := 0xFE }, by decide⟩⟩

/-- The premises of `StepRunsFront`, `StepKeepsSound` and `CommandsRunInOrder` are met right after reset, with and without a command in
the queue. -/
theorem witness_StepKeepsSound : ({ st0 with pending := [.tmkStep] } : State).pending = .tmkStep :: [] ∧ st0.pending = [] ∧ st0.Sound := by
  refine ⟨rfl, rfl, ⟨List.Pairwise.nil, List.Pairwise.nil, ?_, ?_, ?_, ?_, ?_, ?_, ?_, ?_, ?_⟩⟩ <;> decide

/-- The premises of `CountsAreCumulative` are met at the unit's last port, by words of counts that rise. -/
theorem witness_CountsAreCumulative :
    95 < (st0.portsS .dz8).length ∧ (∀ i < 4, nth (st0.port .dz8 95).lastCredit i < 2 ^ 14 ∧ nth (st0.port .dz8 95).received i < 2 ^ 14) ∧
    ∀ i < 4, (nth (countsOf (5 : Word).toNat) i + 2 ^ 14 - nth (st0.port .dz8 95).lastCredit i) % 2 ^ 14 +
      (nth (countsOf (7 : Word).toNat) i + 2 ^ 14 - nth (countsOf (5 : Word).toNat) i) % 2 ^ 14 < 2 ^ 14 := by decide

/-- The premise of `MergeInAnyOrder` is met by two orders of two values that differ. -/
theorem witness_MergeInAnyOrder :
    [Acc.zero, ⟨1, false, false, false, true⟩].Perm [⟨1, false, false, false, true⟩, Acc.zero] ∧ [0x3F800000, 0xBF800000].Perm [0xBF800000, 0x3F800000] := by
  decide

/-- The premises of each clause of `RepeatedRequestsAreNotExecuted` can be met. -/
theorem witness_RepeatedRequestsAreNotExecuted :
    (∃ (s : State) (x : Cell) (l : List Word), s.ag.porst = false ∧ s.aon GEN_FID_VALID = true ∧ s.epochGood .agent x = true ∧
      0xFE ≤ x.src % 256 ∧ s.replayOf x.src x.seq = some l) ∧
    (∃ (s : State) (x : Cell), s.ag.porst = false ∧ s.aon GEN_FID_VALID = true ∧ s.epochGood .agent x = true ∧
      0xFE ≤ x.src % 256 ∧ s.replayOf x.src x.seq = none) ∧
    (∃ (s : State) (f : Nat) (l : List (Nat × List Word)), s.ag.replay.find? (fun e => e.1 == f) = some (f, l) ∧ l.length ≤ 16) ∧
    ∃ f g : Nat, g ≠ f :=
  ⟨⟨(ast [(GEN_FID_VALID, 1)]).setAg fun g => { g with replay := [(0xFE, [(0, [7])])] }, { aCell0 with src := 0xFE }, [7], by decide⟩,
   ⟨ast [(GEN_FID_VALID, 1)], { aCell0 with src := 0xFE }, by decide⟩,
   ⟨st0.setAg fun g => { g with replay := [(0xFE, [(0, [7])])] }, 0xFE, [(0, [7])], by decide⟩, 0, 1, by decide⟩
end

section
/-! What asking for a flip leaves alone: the register fields that a flip's start, the cells it sends and the re-mappings it carries may
write, and the part of the pair that they keep (R110 to R122, R400 to R404). -/

namespace Sys2Proof.Machine

/-! ### The fields that are written -/

/-- Single fields that the start of a flip, an evidence request or a re-mapping writes. -/
def flipRegs : List Fld :=
  [RTE_GEN_SHADOW, RTE_FLIPSTAT_SHADOW_READY, RTE_STAT_PHASE, RTE_STAT_COORD, RTE_STAT_ATTEMPT, RTE_STAT_PENDING, RTE_STAT_MODE,
   GEN_MODE_IN_FORCE, AGT_COUNT_SENT, AGT_ERR_HELD, BYJ_NOTIFY_LOST, FRK_DELIVER_DELIVERED, FRK_DELIVER_REFUSED, FRK_SPDM_ERRORS,
   HPT_FRAMES_TX, VLT_REPLAY_FAILS, RST_REMAP_STAT_CONTEXT, RST_REMAP_STAT_LID, RST_REMAP_STAT_PHASE, RST_REMAP_STAT_SPARE,
   RST_REMAP_STAT_LAST_CODE, RST_STREAM_BYTES]

/-- The fields that a request for a flip may write: those of `flipRegs`, the counters of routed and discarded cells, and the status of
timetables, vaults and contexts. -/
inductive FlipField : Fld → Prop where
  | single {f : Fld} (h : f ∈ flipRegs) : FlipField f
  | route {f : Fld} (p : Nat) (h : f ∈ [RTE_FLIPSTAT_FWD, RTE_ESCCNT_FAILOVER, RTE_DISC_GEN, RTE_DISC_EPOCH, RTE_DISC_NOROUTE]) :
      FlipField (rteOf .dz8 p f)
  | crc (p : Nat) : FlipField (PRT_DISCARD_CRC (prtPg p))
  | discarded (p : Nat) : FlipField (PRT_DISCARD_OTHER (prtPg p))
  | logHead (die : Nat) : FlipField (FLT_DLL_HEAD_HEAD (dllPg die))
  | logWrapped (die : Nat) : FlipField (FLT_DLL_HEAD_WRAPPED (dllPg die))
  | logOverflow (die : Nat) : FlipField (FLT_DLL_HEAD_OVERFLOW (dllPg die))
  | checkErr (c : Nat) : FlipField (TTB_STAT_CHECK_ERR (ttbPg c))
  | checkDetail (c : Nat) : FlipField (TTB_STAT_CHECK_DETAIL (ttbPg c))
  | replays (c : Nat) : FlipField (VLT_INTEG_REPLAY (vltPg c))
  | tainted (c : Nat) : FlipField (VLT_VAULT_TAINTED (vltPg c))
  | spares (c : Nat) : FlipField (CTX_SLICE_SPARES_USED (ctxPg c))
  | assignErr {c : Nat} (h : c < 16) : FlipField (CTX_STAT_ASSIGN_ERR (ctxPg c))
  | errLid {c : Nat} (h : c < 16) : FlipField (CTX_STAT_ERR_LID (ctxPg c))
  | state {c : Nat} (h : c < 16) : FlipField (CTX_STAT_STATE (ctxPg c))

/-- The pair without what a flip record and a due generation change. -/
def PairSt.still (p : PairSt) : PairSt := { p with store := [], nextBatch := 0, genDue := false }

/-- `t` differs from `s`, in the unit's registers, in fields of `FlipField` alone, and in the pair in the flip record and the due
generation alone. -/
structure FlipFrame (s t : State) : Prop where
  regs : ∀ g : Fld, (∀ f, FlipField f → g.key ≠ f.key) → t.rd g = s.rd g
  pair : t.pair.still = s.pair.still

theorem portDie_eq (p : Nat) : portDie p = 0 ∨ portDie p = 1 := by
  unfold portDie
  split
  · exact .inl rfl
  · exact .inr rfl

namespace FlipFrame

variable {s t u : State}

@[simp] theorem refl (s : State) : FlipFrame s s := ⟨fun _ _ => rfl, rfl⟩

theorem trans (h : FlipFrame s t) (k : FlipFrame t u) : FlipFrame s u :=
  ⟨fun g hg => (k.regs g hg).trans (h.regs g hg), k.pair.trans h.pair⟩

/-- An update that leaves the unit's registers and the pair. -/
theorem same (h : FlipFrame s t) (hr : u.regs = t.regs) (hp : u.pair = t.pair) : FlipFrame s u :=
  h.trans ⟨fun g _ => by simp only [State.rd, hr], by rw [hp]⟩

theorem within {A : List Area} (h : FlipFrame s t) (w : Within A t u) (hr : Area.regs ∉ A)
    (hp : Area.pair ∉ A) : FlipFrame s u := h.same (w.regs_eq hr) (w.pair_eq hp)

theorem wr (h : FlipFrame s t) {f : Fld} (k : FlipField f) (v : Nat) : FlipFrame s (t.wr f v) :=
  h.trans ⟨fun _ hg => State.rd_wr_other t (hg f k) v, rfl⟩

theorem bump (h : FlipFrame s t) {f : Fld} (k : FlipField f) (n : Nat) : FlipFrame s (t.bump f n) := h.wr k _

theorem wrListed (h : FlipFrame s t) {f : Fld} (k : f ∈ flipRegs) (v : Nat) : FlipFrame s (t.wr f v) := h.wr (.single k) v
theorem bumpListed (h : FlipFrame s t) {f : Fld} (k : f ∈ flipRegs) (n : Nat) : FlipFrame s (t.bump f n) := h.bump (.single k) n

/-- A write at a device reaches the unit's registers at the unit alone. -/
theorem wrS (h : FlipFrame s t) (d : Site) {f : Fld} (k : d = .dz8 → FlipField f) (v : Nat) : FlipFrame s (t.wrS d f v) := by
  cases d
  · exact h.wr (k rfl) v
  · exact h.same rfl rfl

theorem bumpS (h : FlipFrame s t) (d : Site) {f : Fld} (k : d = .dz8 → FlipField f) (n : Nat) : FlipFrame s (t.bumpS d f n) := h.wrS d k _

theorem setFlt (h : FlipFrame s t) (d : Site) (f : FltSt → FltSt) : FlipFrame s (t.setFlt d f) := by cases d <;> exact h.same rfl rfl

theorem setPort (h : FlipFrame s t) (d : Site) (p : Nat) (f : PortSt → PortSt) : FlipFrame s (t.setPort d p f) := by
  cases d <;> exact h.same rfl rfl

theorem setRoute (h : FlipFrame s t) (f : RouteSt → RouteSt) : FlipFrame s (t.setRoute f) := h.same rfl rfl
theorem setRot (h : FlipFrame s t) (f : RotSt → RotSt) : FlipFrame s (t.setRot f) := h.same rfl rfl
theorem setRst (h : FlipFrame s t) (f : RstSt → RstSt) : FlipFrame s (t.setRst f) := h.same rfl rfl
theorem setBeyjo (h : FlipFrame s t) (f : BeyjoSt → BeyjoSt) : FlipFrame s (t.setBeyjo f) := h.same rfl rfl
theorem setCtx (h : FlipFrame s t) (c : Nat) (f : CtxSt → CtxSt) : FlipFrame s (t.setCtx c f) := h.same rfl rfl
theorem setTtb (h : FlipFrame s t) (c : Nat) (f : TtbSt → TtbSt) : FlipFrame s (t.setTtb c f) := h.same rfl rfl
theorem emit (h : FlipFrame s t) (m : Msg) : FlipFrame s (t.emit m) := h.same rfl rfl

theorem setPair (h : FlipFrame s t) {f : PairSt → PairSt} (k : ∀ p, (f p).still = p.still) : FlipFrame s (t.setPair f) :=
  h.trans ⟨fun _ _ => rfl, k _⟩

theorem detect (h : FlipFrame s t) (d : Site) (pg det detail : Nat) (ctx : Option Nat) : FlipFrame s (t.detect d pg det detail ctx) :=
  h.within (t.detect_frame d pg det detail ctx) (by decide) (by decide)

theorem foldl {α : Type} {f : State → α → State} {l : List α} (h : FlipFrame s t) (k : ∀ u, ∀ x ∈ l, FlipFrame s u → FlipFrame s (f u x)) :
    FlipFrame s (l.foldl f t) := by
  induction l generalizing t with
  | nil => exact h
  | cons x l ih => exact ih (k t x (by simp) h) fun u y hy => k u y (by simp [hy])

/-! ### Cells -/

theorem deadLetter (h : FlipFrame s t) (d : Site) (die : Nat) (e : DeadLetter) : FlipFrame s (t.deadLetter d die e) := by
  unfold State.deadLetter
  extract_lets die pg ring head s₁ s₂ s₃
  have h₂ : FlipFrame s s₂ := (h.setFlt d _).wrS d (fun _ => .logHead die) _
  have h₃ : FlipFrame s s₃ := by
    unfold s₃
    split
    · exact h₂.wrS d (fun _ => .logWrapped die) _
    · exact h₂
  split
  · exact h₃
  · exact h₃.bumpS d (fun _ => .logOverflow die) _

theorem reasonDisc_mem {r : Nat} {f : Fld} (h : reasonDisc r = some f) :
    f ∈ [RTE_FLIPSTAT_FWD, RTE_ESCCNT_FAILOVER, RTE_DISC_GEN, RTE_DISC_EPOCH, RTE_DISC_NOROUTE] := by
  simp only [reasonDisc] at h
  split at h
  · cases h; decide
  · split at h
    · cases h; decide
    · split at h
      · cases h; decide
      · cases h

theorem discardC (h : FlipFrame s t) (d : Site) (p : Nat) (c : Cell) (reason ctx : Nat) : FlipFrame s (t.discardC d p c reason ctx) := by
  unfold State.discardC
  extract_lets s₁ s₂ s₃
  have h₂ : FlipFrame s s₂ := (h.deadLetter d _ _).bumpS d (fun e => by
    subst e
    split
    · exact .crc p
    · exact .discarded p) _
  have h₃ : FlipFrame s s₃ := by
    unfold s₃
    split
    · exact h₂.detect ..
    · exact h₂
  split
  · rename_i f hf
    have h₄ : FlipFrame s (s₃.bumpS d (rteOf d p f) 1) := h₃.bumpS d (fun e => by
      subst e
      exact .route p (reasonDisc_mem hf)) _
    split
    · exact h₄
    · exact h₄.detect ..
  · exact h₃

theorem discard (h : FlipFrame s t) (d : Site) (p : Nat) (c : Cell) (reason : Nat) : FlipFrame s (t.discard d p c reason) := h.discardC ..

theorem discardOwn (h : FlipFrame s t) (d : Site) (c : Cell) (reason : Nat) : FlipFrame s (t.discardOwn d c reason) := by
  unfold State.discardOwn
  extract_lets s₁
  have h₁ : FlipFrame s s₁ := h.deadLetter ..
  split
  · rename_i f hf
    exact h₁.bumpS d (fun _ => .route 0 (reasonDisc_mem hf)) _
  · exact h₁

theorem freeBuf (h : FlipFrame s t) (d : Site) (hold : Option (Nat × Nat)) : FlipFrame s (t.freeBuf d hold) := by
  unfold State.freeBuf
  split
  · exact h
  · exact h.setPort ..

theorem enqueue (h : FlipFrame s t) (d : Site) (p : Nat) (hold : Option (Nat × Nat)) (c : Cell) : FlipFrame s (t.enqueue d p hold c) := by
  unfold State.enqueue
  split
  · exact h
  · exact h.setPort ..

theorem countFwd (h : FlipFrame s t) (d : Site) (q : Nat) (c : Cell) : FlipFrame s (t.countFwd d q c) := by
  unfold State.countFwd
  split
  · exact h
  · exact h.bumpS d (fun e => by subst e; exact .route q (by decide)) _

theorem drop (h : FlipFrame s t) (d : Site) (inp : Option Nat) (c : Cell) (reason : Nat) : FlipFrame s (t.drop d inp c reason) := by
  unfold State.drop
  split
  · exact (h.freeBuf ..).discard ..
  · exact (h.freeBuf ..).discardOwn ..

theorem deliver (h : FlipFrame s t) (d : Site) (inp : Option Nat) (c : Cell) : FlipFrame s (t.deliver d inp c) := by
  unfold State.deliver
  extract_lets s₁
  have h₁ : FlipFrame s s₁ := h.freeBuf ..
  split
  · split
    · exact h₁.discard ..
    · exact h₁.discardOwn ..
  · exact h₁.same rfl rfl

theorem routeCell (h : FlipFrame s t) (d : Site) (inp : Option Nat) (shadow : Bool) (c : Cell) : FlipFrame s (t.routeCell d inp shadow c) := by
  unfold State.routeCell
  extract_lets e s₁
  split
  · exact h.drop ..
  split
  · exact h.deliver ..
  split
  · split
    · exact (h.countFwd ..).enqueue ..
    · exact h.drop ..
  split
  · exact (h.countFwd ..).enqueue ..
  split
  · exact ((h.bumpS d (fun e => by subst e; exact .route _ (by decide)) _).countFwd ..).enqueue ..
  · exact h.drop ..

theorem send (h : FlipFrame s t) (d : Site) (c : Cell) : FlipFrame s (t.send d c) := h.routeCell ..

theorem sendOn (h : FlipFrame s t) (d : Site) (p : Nat) (c : Cell) : FlipFrame s (t.sendOn d p c) := by
  unfold State.sendOn
  split
  · exact h.enqueue ..
  split
  · exact h
  · exact h.discard ..

theorem launch (h : FlipFrame s t) (x : Txn) : FlipFrame s (t.launch x) := by
  unfold State.launch
  extract_lets s₁ s₂
  have h₁ : FlipFrame s s₁ := h.same rfl rfl
  have h₂ : FlipFrame s s₂ := by
    unfold s₂
    split
    · exact h₁.bumpListed (by decide) _
    · exact h₁
  exact h₂.send ..

theorem mreq (h : FlipFrame s t) (fid op count addr : Nat) (words : List Nat) (session : Option Nat) :
    FlipFrame s (t.mreq fid op count addr words session) := by
  unfold State.mreq
  extract_lets seq c x s₁
  have h₁ : FlipFrame s s₁ := h.same rfl rfl
  split
  · exact (h₁.setRoute _).bumpListed (by decide) _
  split
  · exact h₁.setRoute _
  · exact h₁.launch x

theorem remoteWrite (h : FlipFrame s t) (fid addr : Nat) (words : List Nat) : FlipFrame s (t.remoteWrite fid addr words) := h.mreq ..

/-! ### NOTIFY records and answers -/

theorem queueFor (h : FlipFrame s t) (p : Sess → Bool) (r : Sess → NRec) : FlipFrame s (t.queueFor p r) := (h.setBeyjo _).bumpListed (by decide) _

theorem notifyJob (h : FlipFrame s t) (c code detail : Nat) : FlipFrame s (t.notifyJob c code detail) := h.queueFor ..
theorem notifyCtx (h : FlipFrame s t) (c code detail : Nat) : FlipFrame s (t.notifyCtx c code detail) := h.queueFor ..
theorem notifyKey (h : FlipFrame s t) (c lid code : Nat) : FlipFrame s (t.notifyKey c lid code) := h.queueFor ..

theorem frame (h : FlipFrame s t) (m : Msg) : FlipFrame s (t.frame m) := (h.emit m).bumpListed (by decide) _

theorem spdmReply (h : FlipFrame s t) (sess code : Nat) (words : List Nat) : FlipFrame s (t.spdmReply sess code words) := by
  unfold State.spdmReply
  split
  · exact h.frame _
  · exact ((h.setRot _).frame _).bumpListed (by decide) _

theorem vendor (h : FlipFrame s t) (sess cmd status : Nat) (rest : List Nat) : FlipFrame s (t.vendor sess cmd status rest) := h.spdmReply ..

/-! ### Flips -/

theorem startMode (h : FlipFrame s t) (b : Nat) (host : Bool) : FlipFrame s (t.startMode b host) := h.wrListed (by decide) _

theorem dueGen (h : FlipFrame s t) : FlipFrame s t.dueGen := h.setPair fun _ => rfl

theorem parwr (h : FlipFrame s t) (ps : List Nat) (batch flags off cidx : Nat) (bs : List Byte) :
    FlipFrame s (t.parwr ps batch flags off cidx bs) := h.foldl fun _ _ _ k => k.sendOn ..

theorem putRecord (h : FlipFrame s t) (r : FlipRecord) : FlipFrame s (t.putRecord r) := by
  unfold State.putRecord
  extract_lets s₁ bs s₂ b s₃
  have h₁ : FlipFrame s s₁ := h.same rfl rfl
  have h₂ : FlipFrame s s₂ := h₁.setPair fun _ => rfl
  have h₃ : FlipFrame s s₃ := h₂.same rfl rfl
  split
  · exact h₁
  split
  · exact h₂
  · exact (h₃.parwr ..).setPair fun _ => rfl

theorem loadShadow (h : FlipFrame s t) (fid gen : Nat) (new old shadow : Table) : FlipFrame s (t.loadShadow fid gen new old shadow) :=
  (h.foldl fun _ _ _ k => k.remoteWrite ..).remoteWrite ..

theorem loadMap (h : FlipFrame s t) (c lid fid : Nat) : FlipFrame s (t.loadMap c lid fid) := by
  unfold State.loadMap
  extract_lets n off s₁
  have h₁ : FlipFrame s s₁ := h.foldl fun u l _ k => by
    split
    · exact k
    · exact k.remoteWrite ..
  exact h₁.remoteWrite ..

theorem loadMaps (h : FlipFrame s t) (cs : List Nat) : FlipFrame s (t.loadMaps cs) :=
  h.foldl fun _ _ _ k => k.foldl fun _ _ _ k => k.loadMap ..

theorem ttbErr (h : FlipFrame s t) (c code detail : Nat) : FlipFrame s (t.ttbErr c code detail) := (h.wr (.checkErr c) _).wr (.checkDetail c) _

theorem startPrepare (h : FlipFrame s t) (images : Table) (fabric : Bool) : FlipFrame s (t.startPrepare images fabric) := by
  unfold State.startPrepare
  extract_lets gen old shadow cs coord rec' s₁ s₂ s₃ r s₄ s₅ bad
  have h₁ : FlipFrame s s₁ := h.setRoute _
  have h₂ : FlipFrame s s₂ := ((((h₁.wrListed (by decide) _).wrListed (by decide) _).wrListed (by decide) _).wrListed
    (by decide) _).wrListed (by decide) _
  have h₃ : FlipFrame s s₃ := (h₂.wrListed (by decide) _).putRecord rec'
  have h₅ : FlipFrame s s₅ := (h₃.foldl fun _ _ _ k => k.loadShadow ..).loadMaps cs
  exact h₅.foldl fun _ _ _ k => (((k.ttbErr ..).setTtb ..).notifyJob ..).setRoute _

theorem computeFlip (h : FlipFrame s t) (fabric : Bool) : FlipFrame s (t.computeFlip fabric) :=
  ((h.startMode ..).wrListed (by decide) _).startPrepare ..

theorem reloadLeft (h : FlipFrame s t) : FlipFrame s t.reloadLeft := by
  unfold State.reloadLeft
  split
  · exact h
  split
  · exact h
  · exact (h.setRoute _).foldl fun _ _ _ k => (k.loadShadow ..).send ..

theorem requestFlip (h : FlipFrame s t) : FlipFrame s t.requestFlip := by
  unfold State.requestFlip
  extract_lets s₁
  have h₁ : FlipFrame s s₁ := h.reloadLeft
  split
  · split
    · exact h₁.wrListed (by decide) _
    · exact h₁.computeFlip _
  · exact h

/-! ### Assignments and re-mappings -/

theorem assignFail (h : FlipFrame s t) {c : Nat} (hc : c < 16) (e : Nat × Nat) : FlipFrame s (t.assignFail c e) :=
  ((h.wr (.assignErr hc) _).wr (.errLid hc) _).notifyCtx ..

theorem ctxAssign (h : FlipFrame s t) (c : Nat) : FlipFrame s (t.ctxAssign c) := by
  unfold State.ctxAssign
  split
  · exact h
  rename_i hc
  have hc : c < 16 := by omega
  split
  · exact h.assignFail hc _
  split
  · exact h.assignFail hc _
  · exact ((((h.wr (.assignErr hc) _).wr (.errLid hc) _).wr (.state hc) _).setCtx ..).dueGen.requestFlip

theorem answerDelivers (h : FlipFrame s t) : FlipFrame s t.answerDelivers := h.foldl fun _ _ _ k => (k.setRot _).vendor ..

theorem deliveryEnd (h : FlipFrame s t) (c k lid code : Nat) (auto : Bool) : FlipFrame s (t.deliveryEnd c k lid code auto) := by
  unfold State.deliveryEnd
  extract_lets w s₁ s₂
  have h₁ : FlipFrame s s₁ := by
    unfold s₁
    split
    · exact (h.setRot _).bumpListed (by decide) _
    · exact (h.setRot _).bumpListed (by decide) _
  have h₂ : FlipFrame s s₂ := by
    unfold s₂
    split
    · exact h₁.same rfl rfl
    · exact h₁
  exact (h₂.notifyKey ..).answerDelivers

theorem requestEvidence (h : FlipFrame s t) (fid nonce : Nat) : FlipFrame s (t.requestEvidence fid nonce) :=
  (h.remoteWrite ..).remoteWrite ..

theorem beginEvidence (h : FlipFrame s t) (c k lid : Nat) (auto : Bool) : FlipFrame s (t.beginEvidence c k lid auto) := by
  unfold State.beginEvidence
  extract_lets s₁ n host
  have h₁ : FlipFrame s s₁ := h.startMode ..
  split
  · exact h₁.deliveryEnd ..
  split
  · exact h₁.deliveryEnd ..
  extract_lets e s₂
  have h₂ : FlipFrame s s₂ := h₁.same rfl rfl
  split
  · exact h₂
  · exact h₂.requestEvidence ..

theorem pumpDeliver (h : FlipFrame s t) (n : Nat) : FlipFrame s (t.pumpDeliver n) := by
  induction n generalizing t with
  | zero => exact h
  | succ n ih =>
    unfold State.pumpDeliver
    split
    · exact h
    split
    · exact h
    · exact ih ((h.setRot _).beginEvidence ..)

theorem redeliver (h : FlipFrame s t) (c lid : Nat) : FlipFrame s (t.redeliver c lid) := (h.setRot _).pumpDeliver _

theorem replayFailure (h : FlipFrame s t) (c : Nat) : FlipFrame s (t.replayFailure c) :=
  (((h.bump (.replays c) _).bumpListed (by decide) _).wr (.tainted c) _).detect ..

theorem showRemap (h : FlipFrame s t) (c lid phase : Nat) (spare : Option Nat) : FlipFrame s (t.showRemap c lid phase spare) :=
  (((h.wrListed (by decide) _).wrListed (by decide) _).wrListed (by decide) _).wrListed (by decide) _

/-- The end of a re-mapping that no mail slot asked for. -/
theorem remapFails (h : FlipFrame s t) (code : Nat) (words : List Nat) : FlipFrame s (t.remapFails none code words) := h.wrListed (by decide) _

theorem remapWith (h : FlipFrame s t) (c lid f : Nat) (auto : Bool) : FlipFrame s (t.remapWith c lid f none auto) := by
  unfold State.remapWith
  extract_lets image s₁ s₂ none' m dom s₃ s₄
  have h₁ : FlipFrame s s₁ := (h.setCtx ..).bump (.spares c) _
  have h₂ : FlipFrame s s₂ := ((h₁.showRemap ..).wrListed (by decide) _).setRst _
  have h₄ : FlipFrame s s₄ := ((h₂.setRst _).setRoute _).dueGen.redeliver c lid
  split
  · exact ((h.replayFailure c).showRemap ..).remapFails ..
  split
  · exact (h.showRemap ..).remapFails ..
  · refine requestFlip ?_
    split
    · exact h₄
    · exact h₄.setRst _

theorem remapStart (h : FlipFrame s t) (c lid : Nat) : FlipFrame s (t.remapStart c lid none) := by
  unfold State.remapStart
  extract_lets s₁
  have h₁ : FlipFrame s s₁ := h.showRemap ..
  split
  · exact (h₁.wrListed (by decide) _).remapFails ..
  split
  · exact ((h₁.wrListed (by decide) _).notifyJob ..).remapFails ..
  split
  · exact ((h₁.wrListed (by decide) _).notifyJob ..).remapFails ..
  · exact h₁.remapWith ..

theorem retrySpares (h : FlipFrame s t) : FlipFrame s t.retrySpares := by
  unfold State.retrySpares
  split
  · exact h
  · exact h.foldl fun _ _ _ k => k.foldl fun _ _ _ k => k.remapStart ..

/-! ### What is kept -/

/-- No field of a flip's request is PAR_STAT.TAKEOVER. -/
theorem takeover_eq (h : FlipFrame s t) : t.rd PAR_STAT_TAKEOVER = s.rd PAR_STAT_TAKEOVER := by
  refine h.regs _ fun f hf => ?_
  cases hf with
  | single hf => revert f; decide
  | @route f p hf =>
    revert f
    obtain hp | hp := portDie_eq p <;> simp only [rteOf, hp] <;> decide
  | crc p | discarded p =>
    simp only [Fld.key, PAR_STAT_TAKEOVER, PRT_DISCARD_CRC, PRT_DISCARD_OTHER, prtPg]
    split <;> omega
  | _ =>
    simp only [Fld.key, PAR_STAT_TAKEOVER, FLT_DLL_HEAD_HEAD, FLT_DLL_HEAD_WRAPPED,
      FLT_DLL_HEAD_OVERFLOW, dllPg, TTB_STAT_CHECK_ERR, TTB_STAT_CHECK_DETAIL, ttbPg, VLT_INTEG_REPLAY, VLT_VAULT_TAINTED, vltPg,
      CTX_SLICE_SPARES_USED, CTX_STAT_ASSIGN_ERR, CTX_STAT_ERR_LID, CTX_STAT_STATE, ctxPg]
    omega

theorem warm_eq (h : FlipFrame s t) : t.pair.warm = s.pair.warm := by
  show t.pair.still.warm = s.pair.still.warm
  rw [h.pair]

end FlipFrame

end Sys2Proof.Machine
end

section
/-! The commands of a takeover, a planned handover and the return of a unit, one equation or lemma per case (R430 to R437). -/

namespace Sys2Proof.Machine

/-! ### What a clause of a statement asks -/

/-- A command that answers `t` within `A`, of which `P` holds. -/
theorem Out.within.next {A : List Area} {s t : State} {o : Out} {P : State → Prop} (w : o.within A s) (h : o = .next t) (p : P t) :
    ∃ t, o = .next t ∧ Within A s t ∧ P t := by
  subst h
  exact ⟨t, rfl, w, p⟩

theorem mem_contexts {c : Nat} : c ∈ contexts ↔ c < 16 := List.mem_range

/-- A fold whose steps leave a part of the state leaves it. -/
theorem foldl_keeps {α β : Type} {f : State → α → State} (p : State → β) (h : ∀ u x, p (f u x) = p u) (l : List α) (s : State) :
    p (l.foldl f s) = p s :=
  List.foldlRecOn (motive := fun u => p u = p s) l f rfl fun u hu x _ => (h u x).trans hu

/-! ### The parts that a command reaches -/

section
variable (s : State)

theorem takeoverReconcile_reach (l : List AgentReport) (a b : Bool) :
    Out.within (reach (.takeoverReconcile l a b)) s (exec (.takeoverReconcile l a b) s) := by
  show Out.within (reach (.takeoverReconcile l a b)) s (execTakeoverReconcile l a b s)
  apply execTakeoverReconcile_within (h₀ := Within.refl _ s) <;> exact List.mem_of_elem_eq_true rfl

theorem takeoverCdieReady_reach (b : Bool) : Out.within (reach (.takeoverCdieReady b)) s (exec (.takeoverCdieReady b) s) := by
  apply execTakeoverCdieReady_within (h₀ := Within.refl _ s) <;> exact List.mem_of_elem_eq_true rfl

theorem takeoverLoadDone_reach : Out.within (reach .takeoverLoadDone) s (exec .takeoverLoadDone s) := by
  apply execTakeoverLoadDone_within (h₀ := Within.refl _ s) <;> exact List.mem_of_elem_eq_true rfl

theorem takeoverRearm_reach : Out.within (reach .takeoverRearm) s (exec .takeoverRearm s) := by
  apply execTakeoverRearm_within (h₀ := Within.refl _ s) <;> exact List.mem_of_elem_eq_true rfl

theorem mailHandover_reach (i n : Nat) : Out.within (reach (.mailHandover i n)) s (exec (.mailHandover i n) s) := by
  apply execMailHandover_within (h₀ := Within.refl _ s) <;> exact List.mem_of_elem_eq_true rfl

theorem standbyWarmDone_reach : Out.within (reach .standbyWarmDone) s (exec .standbyWarmDone s) := by
  apply execStandbyWarmDone_within (h₀ := Within.refl _ s) <;> exact List.mem_of_elem_eq_true rfl

theorem handoverPaused_reach : Out.within (reach .handoverPaused) s (exec .handoverPaused s) := by
  apply execHandoverPaused_within (h₀ := Within.refl _ s) <;> exact List.mem_of_elem_eq_true rfl

theorem handoverPauseTimeout_reach : Out.within (reach .handoverPauseTimeout) s (exec .handoverPauseTimeout s) := by
  apply execHandoverPauseTimeout_within (h₀ := Within.refl _ s) <;> exact List.mem_of_elem_eq_true rfl

theorem unitReturn_reach (p : Option (Nat × Nat × Nat)) : Out.within (reach (.unitReturn p)) s (exec (.unitReturn p) s) := by
  apply execUnitReturn_within (h₀ := Within.refl _ s) <;> exact List.mem_of_elem_eq_true rfl

end

/-! ### A cold standby keeps the fields of PAR_STAT -/

theorem State.rd_stacksTo (s : State) {g : Fld} (h : ∀ m k, g.key ≠ (HBC_STAT_STATE (hbcPg m k)).key) (st : Nat) :
    (s.stacksTo st).rd g = s.rd g :=
  foldl_keeps (State.rd · g) (fun u x => by
    dsimp only
    split
    · exact State.rd_wr_other u (h x.1 x.2) st
    · rfl) _ s

theorem State.rd_cpwr (s : State) {g : Fld} (hen : g.key ≠ PWR_CPWR_EN.key) (hc : g.key ≠ PWR_STAT_C_POWER.key) (c : Nat) (b : Bool) :
    (s.cpwr c b).rd g = s.rd g := by
  unfold State.cpwr
  split
  · exact (State.rd_wr_other _ hc _).trans (State.rd_wr_other s hen _)
  · rfl

/-- Powering down leaves PAR_STAT. -/
theorem State.rd_goCold_parStat (s : State) {g : Fld} (ha : g.addr = PAR_STAT_ROLE.addr) (hl : g.lo < 64) : s.goCold.rd g = s.rd g := by
  have hkey : g.key = 0xF1700108 * 64 + g.lo := by rw [Fld.key, ha]; rfl
  have hpgh : ∀ d, g.key ≠ (PGH_STAT_STATE (pghPg d)).key := fun d => by
    rw [hkey]; simp only [Fld.key, PGH_STAT_STATE, pghPg]; omega
  have hhbc : ∀ m k, g.key ≠ (HBC_STAT_STATE (hbcPg m k)).key := fun m k => by
    rw [hkey]; simp only [Fld.key, HBC_STAT_STATE, hbcPg]; omega
  have hen : g.key ≠ PWR_CPWR_EN.key := by rw [hkey]; simp only [Fld.key, PWR_CPWR_EN]; omega
  have hc : g.key ≠ PWR_STAT_C_POWER.key := by rw [hkey]; simp only [Fld.key, PWR_STAT_C_POWER]; omega
  unfold State.goCold
  extract_lets s₁
  have h₁ : s₁.rd g = s.rd g := (State.rd_stacksTo _ hhbc 3).trans (foldl_keeps (State.rd · g) (fun u d => State.rd_wr_other u (hpgh d) 2) _ s)
  split
  · rw [State.rd_cpwr _ hen hc, State.rd_cpwr _ hen hc, h₁]
  · rw [State.cpwrAll, State.rd_cpwr _ hen hc, State.rd_cpwr _ hen hc, h₁]

theorem State.toStandby_role (s : State) : s.toStandby.rd PAR_STAT_ROLE = 2 := by
  unfold State.toStandby
  rw [State.rd_goCold_parStat _ rfl (by decide)]
  simp (disch := decide) only [State.rd_wr_other, State.rd_wr_same]
  rfl

theorem State.noGen_role (s : State) : s.noGen.rd PAR_STAT_ROLE = 2 := by
  unfold State.noGen
  rw [State.rd_goCold_parStat _ rfl (by decide)]
  simp (disch := decide) only [State.rd_wr_other, State.rd_wr_same]
  rfl

theorem State.noGen_candidate (s : State) : s.noGen.rd PAR_STAT_CANDIDATE = 0 := by
  unfold State.noGen
  rw [State.rd_goCold_parStat _ (g := PAR_STAT_CANDIDATE) rfl (by decide)]
  simp (disch := decide) only [State.rd_wr_other, State.rd_wr_same]
  rfl

/-! ### TAKEOVER_RECONCILE and TAKEOVER_CDIE_READY -/

theorem State.reconcile_takeover (s : State) (l : List AgentReport) : (s.reconcile l).rd PAR_STAT_TAKEOVER = 4 := by
  unfold State.reconcile
  simp only [State.setPair_rd, State.rd_wr_same]
  rfl

theorem State.reconcile_reconciled (s : State) (l : List AgentReport) : (s.reconcile l).pair.reconciled = true := rfl

/-- The state with what a generation of the pair's store holds, its flip record among it (R431). -/
def State.fromGen (s : State) (gen : Nat) (l : List Section) : State :=
  (((s.loadGen l).setRoute fun r => { r with record := recordOf (mread s.pair.store 0x80 48) }).wr PAR_GEN_GEN gen).setPair
    fun q => { q with lastGen := max q.lastGen gen }

section
variable {s : State} (l : List AgentReport) (a b : Bool)

theorem takeoverReconcile_idle (h : s.active = false ∨ s.rd PAR_STAT_TAKEOVER ≠ 2 ∨ s.pair.reconciled = true) :
    exec (.takeoverReconcile l a b) s = .next s := by
  show execTakeoverReconcile l a b s = _
  unfold execTakeoverReconcile
  rw [if_pos (by simpa [or_assoc] using h)]

theorem takeoverReconcile_own (ha : s.active = true) (ht : s.rd PAR_STAT_TAKEOVER = 2) (hr : s.pair.reconciled = false) (hg : s.pair.rxGen = 0) :
    exec (.takeoverReconcile l a b) s = .next (s.reconcile l) := by
  show execTakeoverReconcile l a b s = _
  unfold execTakeoverReconcile
  simp [ha, ht, hr, hg]

theorem takeoverReconcile_noGen (ha : s.active = true) (ht : s.rd PAR_STAT_TAKEOVER = 2) (hr : s.pair.reconciled = false)
    (hg : s.pair.rxGen ≠ 0) (hn : s.moveBuffer.goodGen a b = none) : exec (.takeoverReconcile l a b) s = .next s.moveBuffer.noGen := by
  show execTakeoverReconcile l a b s = _
  unfold execTakeoverReconcile
  simp [ha, ht, hr, hg, hn]

theorem takeoverReconcile_loaded (ha : s.active = true) (ht : s.rd PAR_STAT_TAKEOVER = 2) (hr : s.pair.reconciled = false)
    (hg : s.pair.rxGen ≠ 0) {gen : Nat} {secs : List Section} (hp : s.moveBuffer.goodGen a b = some (gen, secs)) :
    exec (.takeoverReconcile l a b) s = .next ((s.moveBuffer.fromGen gen secs).reconcile l) := by
  show execTakeoverReconcile l a b s = _
  unfold execTakeoverReconcile
  simp [ha, ht, hr, hg, hp, State.fromGen]

theorem takeoverCdieReady_idle (h : s.rd PAR_STAT_TAKEOVER < 2 ∨ 4 < s.rd PAR_STAT_TAKEOVER) : exec (.takeoverCdieReady b) s = .next s := by
  show execTakeoverCdieReady b s = _
  unfold execTakeoverCdieReady
  rw [if_pos h]

theorem takeoverCdieReady_ready (h₁ : 2 ≤ s.rd PAR_STAT_TAKEOVER) (h₂ : s.rd PAR_STAT_TAKEOVER ≤ 4) :
    exec (.takeoverCdieReady true) s = .next (s.seqBroadcast.setPair fun q => { q with cdiesReady := true }) := by
  show execTakeoverCdieReady true s = _
  unfold execTakeoverCdieReady
  rw [if_neg (by omega), if_pos rfl]

theorem takeoverCdieReady_lost (h₁ : 2 ≤ s.rd PAR_STAT_TAKEOVER) (h₂ : s.rd PAR_STAT_TAKEOVER ≤ 4) :
    exec (.takeoverCdieReady false) s = .next ((s.detect .dz8 rstPg 1 2 none).setFlt .dz8 fun f => { f with fatal := true }) := by
  show execTakeoverCdieReady false s = _
  unfold execTakeoverCdieReady
  rw [if_neg (by omega), if_neg Bool.false_ne_true]

theorem State.setFlt_fatal {u : State} (k : Within [.flt, .agFlt] s u) :
    (u.setFlt .dz8 fun f => { f with fatal := true }).flt.fatal = true ∧
    (u.setFlt .dz8 fun f => { f with fatal := true }).pair = s.pair ∧ (u.setFlt .dz8 fun f => { f with fatal := true }).regs = s.regs :=
  ⟨rfl, k.pair_eq (by decide), k.regs_eq (by decide)⟩

end

/-! ### TAKEOVER_LOAD_DONE and TAKEOVER_REARM -/

theorem takeoverLoadDone_idle {s : State} (h : s.active = false ∨ s.rd PAR_STAT_TAKEOVER ≠ 4 ∨ s.pair.cdiesReady = false) :
    exec .takeoverLoadDone s = .next s := by
  show execTakeoverLoadDone s = _
  unfold execTakeoverLoadDone
  rw [if_pos]
  rcases h with h | h | h <;> simp [h]

/-- The takeover flip and what goes with it leave PAR_STAT.TAKEOVER, which shows step 5. -/
theorem takeoverLoadDone_loaded {s : State} (ha : s.active = true) (ht : s.rd PAR_STAT_TAKEOVER = 4) (hr : s.pair.reconciled = true)
    (hc : s.pair.cdiesReady = true) (hf : s.flt.fatal = false) :
    ∃ t, exec .takeoverLoadDone s = .next t ∧ t.rd PAR_STAT_TAKEOVER = 5 ∧ t.pair.warm = false := by
  show ∃ t, execTakeoverLoadDone s = .next t ∧ _
  unfold execTakeoverLoadDone
  rw [if_neg (by simp [ha, ht, hr, hc, hf])]
  extract_lets s₁ s₂ s₃ s₄ s₅
  have h₅ : FlipFrame s₄ s₅ := (FlipFrame.refl s₄).foldl fun u c hm k => by
    split
    · exact (k.wr (.state (mem_contexts.1 hm)) _).ctxAssign c
    · exact k
  have h : FlipFrame s₄ s₅.retrySpares.requestFlip := h₅.retrySpares.requestFlip
  refine ⟨_, rfl, h.takeover_eq.trans ?_, h.warm_eq.trans rfl⟩
  exact State.rd_wr_same s₃ PAR_STAT_TAKEOVER 5

theorem takeoverRearm_idle {s : State} (h : s.active = false ∨ s.rd PAR_STAT_TAKEOVER ≠ 5 ∨ s.flipRuns = true) :
    exec .takeoverRearm s = .next s := by
  show execTakeoverRearm s = _
  unfold execTakeoverRearm
  rw [if_pos]
  rcases h with h | h | h <;> simp [h]

theorem takeoverRearm_complete {s : State} (ha : s.active = true) (ht : s.rd PAR_STAT_TAKEOVER = 5) (hf : s.flipRuns = false) :
    ∃ t, exec .takeoverRearm s = .next t ∧ t.rd PAR_STAT_TAKEOVER = 6 ∧ t.pair.kept = [] ∧ t.pair.takeoverNs = none := by
  show ∃ t, execTakeoverRearm s = .next t ∧ _
  unfold execTakeoverRearm
  rw [if_neg (by simp [ha, ht, hf])]
  refine ⟨_, rfl, ?_, rfl, rfl⟩
  rw [State.setPair_rd, State.rd_wr_other _ (by decide), State.rd_wr_same]
  rfl

end Sys2Proof.Machine
end

section
/-! The planned handover and the return of a unit, one lemma per case, and O57 (R3, R411, R435 to R437). -/

namespace Sys2Proof.Machine

/-! ### MAIL_HANDOVER -/

section
variable {s : State} {i n : Nat}

theorem mailHandover_idle (h : s.takenFor i n 6 = false) : exec (.mailHandover i n) s = .next s := by
  show execMailHandover i n s = _
  unfold execMailHandover
  rw [h]

theorem mailHandover_rejects {e : Nat} (h : s.takenFor i n 6 = true) (hm : s.mailErr i n 6 1 [0] = none)
    (he : s.handoverErr (bit (s.slotGet i n 0) 0) = some e) : exec (.mailHandover i n) s = .next (s.mailReject i n e []) := by
  show execMailHandover i n s = _
  unfold execMailHandover
  rw [h, hm, he]

theorem mailHandover_runs (h : s.takenFor i n 6 = true) (hm : s.mailErr i n 6 1 [0] = none)
    (he : s.handoverErr (bit (s.slotGet i n 0) 0) = none) :
    exec (.mailHandover i n) s = .next ((s.mailRuns i n 6).setPair fun q => { q with handover := some ⟨i, n, 1, 0⟩ }) := by
  show execMailHandover i n s = _
  unfold execMailHandover
  rw [h, hm, he]

theorem State.mailReject_pair (s : State) (i n res : Nat) (words : List Nat) : (s.mailReject i n res words).pair = s.pair :=
  Within.pair_eq (State.mailReject_within (A := [.regs, .tile, .beyjo]) (by decide) (by decide) (by decide) i n res words (.refl _ s)) (by decide)

theorem State.mailRuns_running (s : State) (i n code : Nat) : (i, n, code) ∈ (s.mailRuns i n code).beyjo.running := by
  simp [State.mailRuns]

end

/-! ### Folds over the contexts -/

/-- What the step of `c` brings about in a state with `I`, and every step keeps, holds after a fold over a list with `c`. -/
theorem foldl_brings {α : Type} {f : State → α → State} {I P : State → Prop} {c : α} (hI : ∀ u x, I u → I (f u x))
    (hP : ∀ u x, P u → P (f u x)) (hc : ∀ u, I u → P (f u c)) {l : List α} (hm : c ∈ l) {s : State} (h : I s) : P (l.foldl f s) := by
  induction l generalizing s with
  | nil => cases hm
  | cons x l ih =>
    rcases List.mem_cons.1 hm with rfl | hm
    · exact List.foldlRecOn (motive := P) l f (hc s h) fun u hu y _ => hP u y hu
    · exact ih hm (hI s x h)

/-! ### STANDBY_WARM_DONE -/

/-- A context's timetable is told to pause (R437 step 2). -/
def State.holdArmed (s : State) (c : Nat) : State := if s.armed c then s.setTtb c fun t => { t with held := true } else s

theorem State.holdArmed_regs (s : State) (c : Nat) : (s.holdArmed c).regs = s.regs := by
  unfold State.holdArmed
  split <;> rfl

theorem State.holdArmed_pair (s : State) (c : Nat) : (s.holdArmed c).pair = s.pair := by
  unfold State.holdArmed
  split <;> rfl

theorem State.holdArmed_length (s : State) (c : Nat) : (s.holdArmed c).ttbs.length = s.ttbs.length := by
  unfold State.holdArmed
  split
  · exact List.length_modify ..
  · rfl

theorem State.armed_of_regs {s t : State} (h : t.regs = s.regs) (c : Nat) : t.armed c = s.armed c := by
  simp only [State.armed, State.ttbState, State.rd, h]

theorem State.holdArmed_same {s : State} {c : Nat} (ha : s.armed c = true) (hc : c < s.ttbs.length) : ((s.holdArmed c).ttb c).held = true := by
  rw [State.holdArmed, if_pos ha, State.ttb_setTtb_same s c _ hc]

theorem State.holdArmed_held {s : State} {c : Nat} (x : Nat) (hc : c < s.ttbs.length) (h : (s.ttb c).held = true) :
    ((s.holdArmed x).ttb c).held = true := by
  unfold State.holdArmed
  split
  · rcases eq_or_ne c x with rfl | hne
    · rw [State.ttb_setTtb_same s c _ hc]
    · rwa [State.ttb_setTtb_other s hne]
  · exact h

theorem State.foldl_holdArmed_held {s : State} {c : Nat} (hc : c < s.ttbs.length) (ha : s.armed c = true) {l : List Nat} (hm : c ∈ l) :
    ((l.foldl State.holdArmed s).ttb c).held = true :=
  And.right <| foldl_brings (f := State.holdArmed) (I := fun u => c < u.ttbs.length ∧ u.armed c = true)
    (P := fun u => c < u.ttbs.length ∧ (u.ttb c).held = true)
    (fun u x k => ⟨k.1.trans_eq (u.holdArmed_length x).symm, (State.armed_of_regs (u.holdArmed_regs x) c).trans k.2⟩)
    (fun u x k => ⟨k.1.trans_eq (u.holdArmed_length x).symm, State.holdArmed_held x k.1 k.2⟩)
    (fun u k => ⟨k.1.trans_eq (u.holdArmed_length c).symm, State.holdArmed_same k.2 k.1⟩) hm ⟨hc, ha⟩

section
variable {s : State} {h : Handover}

/-- The pause of a planned handover is told to every armed timetable. -/
theorem standbyWarmDone_pauses (hh : s.pair.handover = some h) (ha : s.active = true) (hp : h.phase = 1) (hl : s.ttbs.length = 16) :
    ∃ t, exec .standbyWarmDone s = .next t ∧ t.pair.handover = some { h with phase := 2 } ∧ (∀ c < 16, s.armed c = true → (t.ttb c).held = true) ∧
      t.regs = s.regs := by
  refine ⟨contexts.foldl State.holdArmed (s.setPair fun q => { q with handover := some { h with phase := 2 } }), ?_, ?_, fun c hc hac => ?_, ?_⟩
  · show execStandbyWarmDone s = _
    unfold execStandbyWarmDone
    rw [hh]
    dsimp only
    rw [if_pos ⟨ha, hp⟩]
    rfl
  · rw [foldl_keeps (f := State.holdArmed) State.pair State.holdArmed_pair, State.setPair_pair]
  · have hc' : c < (s.setPair fun q => { q with handover := some { h with phase := 2 } }).ttbs.length := by rw [State.setPair_ttbs]; omega
    exact State.foldl_holdArmed_held hc' hac (mem_contexts.2 hc)
  · rw [foldl_keeps (f := State.holdArmed) State.regs State.holdArmed_regs, State.setPair_regs]

theorem standbyWarmDone_idle (hh : s.pair.handover = none) (hr : s.rd PAR_STAT_ROLE ≠ 2) : exec .standbyWarmDone s = .next s := by
  show execStandbyWarmDone s = _
  unfold execStandbyWarmDone
  rw [hh]
  exact congrArg Host.Outcome.next (if_neg hr)

/-- The standby's dies and memories come up; of the pair only the mark changes. -/
theorem standbyWarmDone_warm (hh : s.pair.handover = none) (hr : s.rd PAR_STAT_ROLE = 2) :
    ∃ t, exec .standbyWarmDone s = .next t ∧ t.pair = { s.pair with warm := true } := by
  show ∃ t, execStandbyWarmDone s = .next t ∧ _
  unfold execStandbyWarmDone
  simp only [hh, hr, if_true]
  refine ⟨_, rfl, ?_⟩
  have w : Within [.regs, .boot, .rot] s (((s.cpwrAll true).stacksTo 2).activate [4]) :=
    State.activate_within (by decide) _ (State.stacksTo_within (by decide) _ (State.cpwrAll_within (by decide) _ (.refl _ s)))
  have k := State.seqBroadcast_within (by decide) (State.showUpdate_within (by decide) (by decide) (w.foldl
    (l := List.range (((s.cpwrAll true).stacksTo 2).activate [4]).cdies) fun u d => State.wr_within (by decide) (PGH_STAT_STATE (pghPg d)) 0))
  rw [State.setPair_pair, k.pair_eq (by decide), hh]

end

/-! ### A job that stops (R432, R437 step 3) -/

/-- The register fields that the stop of the job of context `c` writes. -/
inductive StopField (c : Nat) : Fld → Prop where
  | mergeInUse (d : Nat) : StopField c (HBC_MERGE_IN_USE (nmuPg d))
  | mergePeak (d : Nat) : StopField c (HBC_MERGE_PEAK (nmuPg d))
  | openNow : StopField c CLX_ENG_STAT_OPEN
  | openPeak : StopField c CLX_ENG_STAT_PEAK
  | state : StopField c (TTB_STAT_STATE (ttbPg c))
  | energy : StopField c (TTB_ENERGY_DECLARED_UJ (ttbPg c))
  | notifyLost : StopField c BYJ_NOTIFY_LOST

theorem State.rd_atLeast (s : State) {f g : Fld} (h : g.key ≠ f.key) (v : Nat) : (s.atLeast f v).rd g = s.rd g := by
  unfold State.atLeast
  split
  · exact State.rd_wr_other s h v
  · rfl

theorem State.rd_notifyJob (s : State) {g : Fld} (h : g.key ≠ BYJ_NOTIFY_LOST.key) (c code detail : Nat) :
    (s.notifyJob c code detail).rd g = s.rd g :=
  State.queueFor_regsBut s _ _ g fun f hf => by rwa [List.mem_singleton.1 hf]

section
variable {c : Nat} {g : Fld} (h : ∀ f, StopField c f → g.key ≠ f.key)
include h

theorem State.rd_dropUpdates (s : State) (e : Nat) (xids : List Nat) : (s.dropUpdates e xids).rd g = s.rd g :=
  foldl_keeps (State.rd · g) (fun u d => (State.rd_atLeast _ (h _ (.mergePeak d)) _).trans (State.rd_wr_other u (h _ (.mergeInUse d)) _)) _ _

theorem State.rd_closeStep (s : State) (e st iter : Nat) : (s.closeStep e st iter).rd g = s.rd g :=
  (State.rd_atLeast _ (h _ .openPeak) _).trans (State.rd_wr_other _ (h _ .openNow) _)

theorem State.rd_dropSteps (s : State) (e : Nat) (gone : OpenStep → Bool) : (s.dropSteps e gone).rd g = s.rd g :=
  foldl_keeps (State.rd · g) (fun u o => by
    dsimp only
    split
    · refine (State.rd_closeStep h ..).trans ?_
      split
      · exact State.rd_dropUpdates h ..
      · rfl
    · rfl) _ s

/-- A stopped job changes the fields of `StopField` alone. -/
theorem State.rd_takeoverStop (s : State) : (s.takeoverStop c).rd g = s.rd g := by
  unfold State.takeoverStop State.ttbTo
  rw [State.rd_notifyJob _ (h _ .notifyLost), State.rd_wr_other _ (h _ .energy), State.rd_wr_other _ (h _ .state), State.setTtb_rd]
  exact State.rd_dropSteps h s c _

end

theorem State.takeoverStop_pair (s : State) (c : Nat) : (s.takeoverStop c).pair = s.pair :=
  Within.pair_eq (State.takeoverStop_within (A := [.regs, .ttbs, .insts, .tile, .hbm, .beyjo]) (by decide) (by decide) (by decide) (by decide)
    (by decide) (by decide) c (.refl _ s)) (by decide)

theorem State.takeoverStop_state (s : State) (c : Nat) : (s.takeoverStop c).ttbState c = 6 := by
  unfold State.takeoverStop State.ttbTo State.ttbState
  have hlost : (TTB_STAT_STATE (ttbPg c)).key ≠ BYJ_NOTIFY_LOST.key := by
    simp only [Fld.key, TTB_STAT_STATE, ttbPg, BYJ_NOTIFY_LOST]; omega
  have henergy : (TTB_STAT_STATE (ttbPg c)).key ≠ (TTB_ENERGY_DECLARED_UJ (ttbPg c)).key := by
    simp only [Fld.key, TTB_STAT_STATE, TTB_ENERGY_DECLARED_UJ]; omega
  rw [State.rd_notifyJob _ hlost, State.rd_wr_other _ henergy, State.rd_wr_same]
  rfl

theorem State.takeoverStop_gen (s : State) (c : Nat) (hc : c < 16) : (s.takeoverStop c).rd PAR_GEN_GEN = s.rd PAR_GEN_GEN :=
  State.rd_takeoverStop (fun f hf => by
    cases hf <;> simp only [Fld.key, PAR_GEN_GEN, HBC_MERGE_IN_USE, HBC_MERGE_PEAK, nmuPg, CLX_ENG_STAT_OPEN, CLX_ENG_STAT_PEAK,
      TTB_STAT_STATE, TTB_ENERGY_DECLARED_UJ, ttbPg, BYJ_NOTIFY_LOST] <;> omega) s

theorem State.takeoverStop_state_other (s : State) {c e : Nat} (he : e < 16) (hne : e ≠ c) : (s.takeoverStop c).ttbState e = s.ttbState e :=
  State.rd_takeoverStop (fun f hf => by
    cases hf <;> simp only [Fld.key, HBC_MERGE_IN_USE, HBC_MERGE_PEAK, nmuPg, CLX_ENG_STAT_OPEN, CLX_ENG_STAT_PEAK,
      TTB_STAT_STATE, TTB_ENERGY_DECLARED_UJ, ttbPg, BYJ_NOTIFY_LOST] <;> omega) s

theorem State.takeoverStop_img_other (s : State) {c e : Nat} (hne : e ≠ c) : (s.takeoverStop c).img e = s.img e := by
  unfold State.takeoverStop
  extract_lets s₁
  have w₁ : Within [.regs, .beyjo] s₁ ((s₁.ttbTo c 6).notifyJob c 1 5) :=
    State.notifyJob_within (by decide) (by decide) _ _ _ (State.ttbTo_within (by decide) _ _ (.refl _ s₁))
  have w₀ : Within [.regs, .insts, .tile, .hbm] s (s.dropSteps c fun _ => true) :=
    State.dropSteps_within (by decide) (by decide) (by decide) (by decide) c _ (.refl _ s)
  have h₁ : s₁.ttb e = s.ttb e := by
    rw [State.ttb_setTtb_other _ hne, State.ttb, State.ttb, w₀.ttbs_eq (by decide)]
  rw [State.img, State.img, State.ttb, w₁.ttbs_eq (by decide)]
  exact congrArg TtbSt.image h₁

/-! ### HANDOVER_PAUSED and HANDOVER_PAUSE_TIMEOUT -/

/-- A context with an UPDATE exchange stops (R437 step 3). -/
def State.stopUpdate (s : State) (c : Nat) : State := if s.armed c && s.hasUpdate c then s.takeoverStop c else s

/-- The job of a context has stopped, or runs with an UPDATE exchange. -/
def State.stopsOrStopped (s : State) (c : Nat) : Prop := s.ttbState c = 6 ∨ (s.armed c = true ∧ s.hasUpdate c = true)

theorem State.stopUpdate_pair (s : State) (c : Nat) : (s.stopUpdate c).pair = s.pair := by
  unfold State.stopUpdate
  split
  · exact s.takeoverStop_pair c
  · rfl

theorem State.stopUpdate_gen (s : State) (c : Nat) (hc : c < 16) : (s.stopUpdate c).rd PAR_GEN_GEN = s.rd PAR_GEN_GEN := by
  unfold State.stopUpdate
  split
  · exact s.takeoverStop_gen c hc
  · rfl

theorem State.stopUpdate_same {s : State} {c : Nat} (h : s.stopsOrStopped c) : (s.stopUpdate c).ttbState c = 6 := by
  rcases h with h | ⟨ha, hu⟩
  · have : s.armed c = false := by simp [State.armed, h]
    simp [State.stopUpdate, this, h]
  · simp [State.stopUpdate, ha, hu, State.takeoverStop_state]

theorem State.stopUpdate_stopped {s : State} {c : Nat} (x : Nat) (hc : c < 16) (h : s.ttbState c = 6) : (s.stopUpdate x).ttbState c = 6 := by
  rcases eq_or_ne c x with rfl | hne
  · exact State.stopUpdate_same (.inl h)
  · unfold State.stopUpdate
    split
    · rwa [State.takeoverStop_state_other s hc hne]
    · exact h

theorem State.stopUpdate_stopsOrStopped {s : State} {c : Nat} (x : Nat) (hc : c < 16) (h : s.stopsOrStopped c) :
    (s.stopUpdate x).stopsOrStopped c := by
  rcases eq_or_ne c x with rfl | hne
  · exact .inl (State.stopUpdate_same h)
  · unfold State.stopUpdate
    split
    · simpa only [State.stopsOrStopped, State.armed, State.hasUpdate, State.takeoverStop_state_other s hc hne,
        State.takeoverStop_img_other s hne] using h
    · exact h

theorem State.foldl_stopUpdate_state {s : State} {c : Nat} (hc : c < 16) (h : s.stopsOrStopped c) {l : List Nat} (hm : c ∈ l) :
    (l.foldl State.stopUpdate s).ttbState c = 6 :=
  foldl_brings (f := State.stopUpdate) (I := fun u => u.stopsOrStopped c) (P := fun u => u.ttbState c = 6)
    (fun _ x => State.stopUpdate_stopsOrStopped x hc) (fun _ x => State.stopUpdate_stopped x hc) (fun _ => State.stopUpdate_same) hm h

theorem State.foldl_stopUpdate_gen (s : State) {l : List Nat} (hl : ∀ c ∈ l, c < 16) :
    (l.foldl State.stopUpdate s).rd PAR_GEN_GEN = s.rd PAR_GEN_GEN :=
  List.foldlRecOn (motive := fun u => u.rd PAR_GEN_GEN = s.rd PAR_GEN_GEN) l State.stopUpdate rfl
    fun u hu c hm => (u.stopUpdate_gen c (hl c hm)).trans hu

section
variable {s : State} {h : Handover}

theorem handoverPaused_runs (hh : s.pair.handover = some h) (ha : s.active = true) (hp : h.phase = 2) (hl : s.allHeld = true) :
    ∃ t, exec .handoverPaused s = .next t ∧ t.pair.genDue = true ∧
      t.pair.handover = some { h with phase := 3, finalGen := max (s.rd PAR_GEN_GEN) s.pair.lastGen + 1 } ∧
      ∀ c < 16, s.armed c = true → s.hasUpdate c = true → t.ttbState c = 6 := by
  show ∃ t, execHandoverPaused s = .next t ∧ _
  unfold execHandoverPaused
  rw [hh]
  dsimp -zeta only
  rw [if_pos (by simp [ha, hp, hl])]
  extract_lets s₁ g
  have hgen : s₁.rd PAR_GEN_GEN = s.rd PAR_GEN_GEN := s.foldl_stopUpdate_gen fun _ => mem_contexts.1
  have hpair : s₁.pair = s.pair := foldl_keeps (f := State.stopUpdate) State.pair State.stopUpdate_pair contexts s
  have hstop : ∀ c < 16, s.armed c = true → s.hasUpdate c = true → s₁.ttbState c = 6 := fun c hc hac hu =>
    State.foldl_stopUpdate_state hc (.inr ⟨hac, hu⟩) (mem_contexts.2 hc)
  have hg : g = max (s.rd PAR_GEN_GEN) s.pair.lastGen + 1 := by rw [← hgen, ← hpair]
  clear_value g s₁
  exact ⟨_, rfl, rfl, by rw [State.setPair_pair, hg], hstop⟩

theorem handoverPaused_idle (h : s.pair.handover = none ∨ s.allHeld = false) : exec .handoverPaused s = .next s := by
  show execHandoverPaused s = _
  unfold execHandoverPaused
  rcases h with h | h
  · rw [h]
  · split
    · rw [if_neg (by simp [h])]
    · rfl

theorem State.handoverFails_handover (s : State) (h : Handover) (code : Nat) : (s.handoverFails h code).pair.handover = none := by
  set s₁ := s.setPair fun q => { q with handover := none }
  have w : Within [.regs, .aregs, .time, .ports, .agPorts, .route, .ttbs, .insts, .tile, .beyjo, .flt, .agFlt, .out] s₁ (s.handoverFails h code) := by
    refine Within.foldl (State.mailReject_within (by decide) (by decide) (by decide) _ _ _ _ (.refl _ s₁)) fun u c k => ?_
    dsimp only
    split
    · have k₁ := State.setTtb_within (A := [.regs, .aregs, .time, .ports, .agPorts, .route, .ttbs, .insts, .tile, .beyjo, .flt, .agFlt, .out])
        (by decide) c (fun t => { t with held := false }) k
      split
      · exact State.beginArm_within (by decide) (by decide) (by decide) (by decide) (by decide) (by decide) (by decide) (by decide) (by decide)
          (by decide) (by decide) _ _ _ k₁
      · exact k₁
    · exact k
  exact congrArg PairSt.handover (w.pair_eq (by decide))

theorem handoverPauseTimeout_fails (hh : s.pair.handover = some h) (hp : h.phase = 2) :
    exec .handoverPauseTimeout s = .next (s.handoverFails h 0x13) := by
  show execHandoverPauseTimeout s = _
  unfold execHandoverPauseTimeout
  rw [hh]
  exact congrArg Host.Outcome.next (if_pos hp)

theorem handoverPauseTimeout_idle (hh : s.pair.handover = none) : exec .handoverPauseTimeout s = .next s := by
  show execHandoverPauseTimeout s = _
  unfold execHandoverPauseTimeout
  rw [hh]

end

/-! ### UNIT_RETURN -/

section
variable {s : State} {p : Nat × Nat × Nat}

theorem unitReturn_partner (ha : s.active = true) : exec (.unitReturn (some p)) s = .next (s.partnerBack p) := by
  show execUnitReturn (some p) s = _
  unfold execUnitReturn
  exact congrArg Host.Outcome.next (if_pos ha)

theorem unitReturn_fenced (hr : s.rd PAR_STAT_ROLE = 3) : exec (.unitReturn none) s = .next s.toStandby := by
  show execUnitReturn none s = _
  unfold execUnitReturn
  exact congrArg Host.Outcome.next (if_neg (c := (s.active || s.rd PAR_STAT_ROLE == 2) = true) (by simp [State.active, hr]))

theorem unitReturn_standby (hr : s.rd PAR_STAT_ROLE = 2) : exec (.unitReturn none) s = .next s := by
  show execUnitReturn none s = _
  unfold execUnitReturn
  exact congrArg Host.Outcome.next (if_pos (c := (s.active || s.rd PAR_STAT_ROLE == 2) = true) (by simp [hr]))

theorem State.partnerBack_regsBut (s : State) (p : Nat × Nat × Nat) : RegsBut [PAR_STAT_MISMATCH, PAR_STAT_COPY] s (s.partnerBack p) := by
  have hw (u : State) (hu : u.regs = s.regs) (a b : Nat) :
      RegsBut [PAR_STAT_MISMATCH, PAR_STAT_COPY] s ((u.wr PAR_STAT_MISMATCH a).wr PAR_STAT_COPY b) :=
    ((RegsBut.of_regs hu).wr (by simp) a).wr (by simp) b
  unfold State.partnerBack
  extract_lets s₁
  split
  · exact (hw s₁ rfl 1 0).trans (.of_regs (State.detect_regs ..))
  · exact hw s₁ rfl 0 1

/-- A partner of the same population and bin is resynchronised. -/
theorem State.partnerBack_equal (h : p = s.ownPart) : (s.partnerBack p).rd PAR_STAT_MISMATCH = 0 ∧ (s.partnerBack p).rd PAR_STAT_COPY = 1 ∧
    (s.partnerBack p).pair.genDue = true ∧ (s.partnerBack p).pair.fullDue = true ∧ ∀ r ∈ (s.partnerBack p).rot.records, r.paired = false := by
  unfold State.partnerBack
  extract_lets s₁
  rw [if_neg (c := p ≠ s₁.ownPart) fun k => k h]
  refine ⟨?_, ?_, rfl, rfl, fun r hr => ?_⟩
  · rw [State.setRot_rd, State.setPair_rd, State.rd_wr_other _ (by decide), State.rd_wr_same]
    rfl
  · rw [State.setRot_rd, State.setPair_rd, State.rd_wr_same]
    rfl
  · obtain ⟨x, -, rfl⟩ := List.mem_map.1 hr
    rfl

/-- A partner that differs is refused as standby. -/
theorem State.partnerBack_differs (h : p ≠ s.ownPart) :
    (s.partnerBack p).rd PAR_STAT_MISMATCH = 1 ∧ (s.partnerBack p).rd PAR_STAT_COPY = 0 ∧ (s.partnerBack p).rot = s.rot := by
  unfold State.partnerBack
  extract_lets s₁
  rw [if_pos (c := p ≠ s₁.ownPart) h]
  refine ⟨?_, ?_, ?_⟩
  · rw [State.rd_detect, State.setPair_rd, State.rd_wr_other _ (by decide), State.rd_wr_same]
    rfl
  · rw [State.rd_detect, State.setPair_rd, State.rd_wr_same]
    rfl
  · exact (State.detect_frame ..).rot_eq (by decide)

end

/-! ### O57 -/

theorem takeoverReconcile_received (s : State) (l : List AgentReport) (a b : Bool) (ha : s.active = true) (ht : s.rd PAR_STAT_TAKEOVER = 2)
    (hr : s.pair.reconciled = false) (hg : s.pair.rxGen ≠ 0) :
    ∃ t, exec (.takeoverReconcile l a b) s = .next t ∧
      (s.moveBuffer.goodGen a b = none → t = s.moveBuffer.noGen ∧ t.rd PAR_STAT_ROLE = 2 ∧ t.rd PAR_STAT_CANDIDATE = 0) ∧
      ∀ p, s.moveBuffer.goodGen a b = some p → t.rd PAR_STAT_TAKEOVER = 4 ∧ t.pair.reconciled = true := by
  rcases hp : s.moveBuffer.goodGen a b with _ | ⟨gen, secs⟩
  · exact ⟨_, takeoverReconcile_noGen l a b ha ht hr hg hp, fun _ => ⟨rfl, State.noGen_role _, State.noGen_candidate _⟩, nofun⟩
  · exact ⟨_, takeoverReconcile_loaded l a b ha ht hr hg hp, nofun, fun _ _ => ⟨State.reconcile_takeover _ l, State.reconcile_reconciled _ l⟩⟩

theorem State.seqBroadcast_frame (s : State) : Within [.regs] s s.seqBroadcast := State.seqBroadcast_within (by decide) (.refl _ s)

/-- Settles O57, case by case of the commands: an equation for what each answers, and the laws of the operation it names. -/
theorem takeoverAndHandover : Obligations.TakeoverAndHandover := by
  unfold Obligations.TakeoverAndHandover
  refine ⟨fun s l a b h => ?_, fun s l a b ha ht hr hg => ?_, fun s l a b ha ht hr hg => ?_, fun s b h => ?_, fun s h₁ h₂ => ?_, fun s h₁ h₂ => ?_,
    fun s ha ht hr hc hf => ?_, fun s h => ?_, fun s ha ht hf => ?_, fun s h => ?_, fun s i n h => ?_, fun s i n e h hm he => ?_,
    fun s i n h hm he => ?_, fun s h hh ha hp hl => ?_, fun s hh hr => ?_, fun s hh hr => ?_, fun s h hh ha hp hl => ?_, fun s h => ?_,
    fun s h hh hp => ?_, fun s hh => ?_, fun s p ha hp => ?_, fun s p ha hp => ?_, fun s hr => ?_, fun s hr => ?_⟩
  · exact (takeoverReconcile_reach s l a b).next (takeoverReconcile_idle l a b h) rfl
  · exact (takeoverReconcile_reach s l a b).next (takeoverReconcile_own l a b ha ht hr hg)
      ⟨rfl, s.reconcile_takeover l, s.reconcile_reconciled l⟩
  · obtain ⟨t, ht, k⟩ := takeoverReconcile_received s l a b ha ht hr hg
    exact (takeoverReconcile_reach s l a b).next ht k
  · exact (takeoverCdieReady_reach s b).next (takeoverCdieReady_idle b h) rfl
  · have k := s.seqBroadcast_frame
    refine (takeoverCdieReady_reach s true).next (takeoverCdieReady_ready h₁ h₂) ⟨?_, k.flt_eq (by decide)⟩
    exact congrArg (fun q : PairSt => { q with cdiesReady := true }) (k.pair_eq (by decide))
  · exact (takeoverCdieReady_reach s false).next (takeoverCdieReady_lost h₁ h₂) (State.setFlt_fatal (s.detect_frame ..))
  · obtain ⟨t, ht, k⟩ := takeoverLoadDone_loaded ha ht hr hc hf
    exact (takeoverLoadDone_reach s).next ht k
  · exact (takeoverLoadDone_reach s).next (takeoverLoadDone_idle h) rfl
  · obtain ⟨t, ht, k⟩ := takeoverRearm_complete ha ht hf
    exact (takeoverRearm_reach s).next ht k
  · exact (takeoverRearm_reach s).next (takeoverRearm_idle h) rfl
  · exact (mailHandover_reach s i n).next (mailHandover_idle h) rfl
  · exact (mailHandover_reach s i n).next (mailHandover_rejects h hm he) ⟨rfl, s.mailReject_pair i n e []⟩
  · exact (mailHandover_reach s i n).next (mailHandover_runs h hm he) ⟨rfl, s.mailRuns_running i n 6, rfl⟩
  · obtain ⟨t, ht, k⟩ := standbyWarmDone_pauses hh ha hp hl
    exact (standbyWarmDone_reach s).next ht k
  · obtain ⟨t, ht, k⟩ := standbyWarmDone_warm hh hr
    exact (standbyWarmDone_reach s).next ht k
  · exact (standbyWarmDone_reach s).next (standbyWarmDone_idle hh hr) rfl
  · obtain ⟨t, ht, k⟩ := handoverPaused_runs hh ha hp hl
    exact (handoverPaused_reach s).next ht k
  · exact (handoverPaused_reach s).next (handoverPaused_idle h) rfl
  · exact (handoverPauseTimeout_reach s).next (handoverPauseTimeout_fails hh hp) ⟨rfl, s.handoverFails_handover h 0x13⟩
  · exact (handoverPauseTimeout_reach s).next (handoverPauseTimeout_idle hh) rfl
  · exact (unitReturn_reach s (some p)).next (unitReturn_partner ha) ⟨s.partnerBack_regsBut p, State.partnerBack_equal hp⟩
  · have hne : p ≠ s.ownPart := fun e => hp (congrArg Prod.fst e)
    exact (unitReturn_reach s (some p)).next (unitReturn_partner ha) ⟨s.partnerBack_regsBut p, State.partnerBack_differs hne⟩
  · exact (unitReturn_reach s none).next (unitReturn_fenced hr) ⟨rfl, s.toStandby_role⟩
  · exact (unitReturn_reach s none).next (unitReturn_standby hr) rfl

end Sys2Proof.Machine
end

section
/-! Register writes at the unit and at the agent, and management requests at the agent, and O59 (R8, R331, R338, R340, R467, R472 to R474, R501,
R506). -/

namespace Sys2Proof.Machine

/-! ### The parts that a command reaches -/

section
variable (s : State)

theorem registerWrite_reach (a : Nat) (v : Word) : Out.within (reach (.registerWrite a v)) s (exec (.registerWrite a v) s) := by
  show Out.within (reach (.registerWrite a v)) s (execRegisterWrite a v s)
  apply execRegisterWrite_within (h₀ := Within.refl _ s) <;> exact List.mem_of_elem_eq_true rfl

theorem genModeWrite_reach (v : Word) : Out.within (reach (.genModeWrite v)) s (exec (.genModeWrite v) s) :=
  execGenModeWrite_within (List.mem_of_elem_eq_true rfl) v (.refl _ s)

theorem mslSlotWrite_reach (i n w : Nat) (v : Word) : Out.within (reach (.mslSlotWrite i n w v)) s (exec (.mslSlotWrite i n w v) s) :=
  execMslSlotWrite_within (List.mem_of_elem_eq_true rfl) i n w v (.refl _ s)

theorem byjCloseWrite_reach (i : Nat) : Out.within (reach (.byjCloseWrite i)) s (exec (.byjCloseWrite i) s) := by
  apply execByjCloseWrite_within (h₀ := Within.refl _ s) <;> exact List.mem_of_elem_eq_true rfl

theorem pgLockWrite_reach (d : Site) (p : Nat) (v : Word) : Out.within (reach (.pgLockWrite d p v)) s (exec (.pgLockWrite d p v) s) := by
  apply execPgLockWrite_within (h₀ := Within.refl _ s) <;> exact List.mem_of_elem_eq_true rfl

theorem agentTargetWrite_reach (a : Nat) (v : Word) : Out.within (reach (.agentTargetWrite a v)) s (exec (.agentTargetWrite a v) s) := by
  show Out.within (reach (.agentTargetWrite a v)) s (execAgentTargetWrite a v s)
  apply execAgentTargetWrite_within (h₀ := Within.refl _ s) <;> exact List.mem_of_elem_eq_true rfl

theorem mreqRead_reach (x : Cell) : Out.within (reach (.mreqRead x)) s (exec (.mreqRead x) s) := by
  show Out.within (reach (.mreqRead x)) s (execMreqRead x s)
  apply execMreqRead_within (h₀ := Within.refl _ s) <;> exact List.mem_of_elem_eq_true rfl

theorem mreqWrite_reach (x : Cell) : Out.within (reach (.mreqWrite x)) s (exec (.mreqWrite x) s) := by
  show Out.within (reach (.mreqWrite x)) s (execMreqWrite x s)
  apply execMreqWrite_within (h₀ := Within.refl _ s) <;> exact List.mem_of_elem_eq_true rfl

end

/-! ### REGISTER_WRITE -/

section
variable {s : State}

theorem State.refused_frame (s : State) (a st : Nat) : Within [.flt, .agFlt] s (s.refused a st) := by
  unfold State.refused
  split
  · exact s.detect_frame ..
  · exact .refl _ s

theorem registerWrite_refused {a : Nat} {v : Word} (h : s.gate operator a true ≠ stOK) :
    exec (.registerWrite a v) s = .next (s.refused a (s.gate operator a true)) := by
  show execRegisterWrite a v s = _
  rw [execRegisterWrite, State.busWrite, if_neg h]

theorem registerWrite_granted {a : Nat} {v : Word} (h : s.gate operator a true = stOK) :
    exec (.registerWrite a v) s = .next (s.writeDz operator a v.toNat).2 := by
  show execRegisterWrite a v s = _
  rw [execRegisterWrite, State.busWrite, if_pos h]

/-- PAR_TIMING is a register without an effect of its own. -/
theorem State.writeDz_parTiming (s : State) (w : Asker) (v : Nat) :
    (s.writeDz w 0xF1700120 v).2 = if 10 ≤ v % 2 ^ 16 ∧ v % 2 ^ 16 ≤ 1000 then s.plain 0xF1700120 v else s := rfl

/-- SYNC_MS is the field of PAR_TIMING that a write sets. -/
theorem State.plain_parTiming (s : State) (v : Nat) : s.plain 0xF1700120 v = s.wr PAR_TIMING_SYNC_MS (bits v 15 0) := by
  have hfields : dzFields 0xF1700120 = [(⟨0x120, 0, 1, 48, 16, .ro, 4, false⟩, PAR_TIMING_GUARD_MS),
      (⟨0x120, 0, 1, 32, 16, .ro, 50, false⟩, ⟨0xF1700120, 32, 16, 50⟩),
      (⟨0x120, 0, 1, 16, 16, .ro, 8, false⟩, ⟨0xF1700120, 16, 16, 8⟩), (⟨0x120, 0, 1, 0, 16, .rw, 100, false⟩, PAR_TIMING_SYNC_MS)] := by decide
  rw [State.plain, hfields]
  rfl

theorem registerWrite_syncMs {v : Word} (h : s.gate operator 0xF1700120 true = stOK) (h₁ : 10 ≤ v.toNat % 2 ^ 16) (h₂ : v.toNat % 2 ^ 16 ≤ 1000) :
    exec (.registerWrite 0xF1700120 v) s = .next (s.wr PAR_TIMING_SYNC_MS (bits v.toNat 15 0)) := by
  rw [registerWrite_granted h, State.writeDz_parTiming, if_pos ⟨h₁, h₂⟩, State.plain_parTiming]

/-- A SYNC_MS out of range leaves every register, whether or not the access is granted. -/
theorem registerWrite_syncMs_range {v : Word} (h : v.toNat % 2 ^ 16 < 10 ∨ 1000 < v.toNat % 2 ^ 16) :
    ∃ t, exec (.registerWrite 0xF1700120 v) s = .next t ∧ t.regs = s.regs := by
  by_cases hg : s.gate operator 0xF1700120 true = stOK
  · refine ⟨s, ?_, rfl⟩
    rw [registerWrite_granted hg, State.writeDz_parTiming, if_neg (by omega)]
  · exact ⟨_, registerWrite_refused hg, (s.refused_frame ..).regs_eq (by decide)⟩

end

/-! ### Mail slots -/

theorem slotWord_eq (i n w : Nat) : slotWord i n w = 196608 + 256 * i + 16 * n + w := by
  unfold slotWord
  omega

theorem syncReserved_slotWord {i n w : Nat} (hi : i < 64) (hn : n < 16) (hw : w < 16) : syncReserved 0 (slotWord i n w) = false := by
  have h := slotWord_eq i n w
  have h₁ : slotWord i n w < 262144 := by omega
  have h₂ : ¬0x1A0000 ≤ 8 * slotWord i n w := by omega
  simp [syncReserved, h₁, h₂]

theorem slotWord_inj {i n w j m u : Nat} (hn : n < 16) (hw : w < 16) (hm : m < 16) (hu : u < 16) (h : slotWord j m u = slotWord i n w) :
    (j, m, u) = (i, n, w) := by
  rw [slotWord_eq, slotWord_eq] at h
  simp only [Prod.mk.injEq]
  omega

theorem State.syncGet_syncPut_same (s : State) {w v : Nat} (hw : syncReserved 0 w = false) (hv : v < 2 ^ 64) : (s.syncPut 0 w v).syncGet 0 w = v := by
  simpa [State.syncGet, State.syncPut, hw, tget, tset] using hv

theorem State.syncGet_syncPut_other (s : State) {w x : Nat} (h : x ≠ w) (v : Nat) : (s.syncPut 0 w v).syncGet 0 x = s.syncGet 0 x := by
  unfold State.syncPut
  split
  · rfl
  · simp [State.syncGet, tget, tset, kget_kset_other, h]

theorem mslSlotWrite_puts {s : State} {i n w : Nat} {v : Word} (hi : i < 64) (hn : n < 16) (hw : w < 16) (ht : s.taken i n = false) :
    exec (.mslSlotWrite i n w v) s = .next (s.slotPut i n w v.toNat) := by
  show execMslSlotWrite i n w v s = _
  rw [execMslSlotWrite, if_pos ⟨hi, hn, hw⟩, State.slotWrite, if_neg (by simp [ht])]

theorem mslSlotWrite_taken {s : State} {i n w : Nat} {v : Word} (ht : s.taken i n = true) : exec (.mslSlotWrite i n w v) s = .next s := by
  show execMslSlotWrite i n w v s = _
  rw [execMslSlotWrite, State.slotWrite, if_pos ht, ite_self]

/-! ### BYJ_CLOSE_WRITE -/

theorem State.closeSess_none {s : State} {i : Nat} (h : s.sessAt i = none) : s.closeSess i = s := by
  rw [State.closeSess, h]

/-- A closed session leaves its index, which takes the next generation. -/
theorem State.closeSess_some {s : State} {i : Nat} {x : Sess} (h : s.sessAt i = some x) :
    (s.closeSess i).sessAt i = none ∧ (s.closeSess i).genOf i = (x.gen + 1) % 2 ^ 26 := by
  unfold State.closeSess
  rw [h]
  dsimp -zeta only
  extract_lets s₁
  have hb : (((s₁.orphanMail i).clearSlots i).showSess).beyjo = (s₁.orphanMail i).beyjo := rfl
  have hs : (s₁.orphanMail i).beyjo.sessions = s.beyjo.sessions.filter fun y => y.index != i := rfl
  have hg : (s₁.orphanMail i).beyjo.gens = tset s.beyjo.gens i ((x.gen + 1) % 2 ^ 26) := rfl
  rw [State.sessAt, State.genOf, hb, hs, hg]
  exact ⟨by simp, by simp [tget, tset]⟩

/-! ### PG_LOCK_WRITE -/

@[simp] theorem State.rdS_wrS_same (s : State) (d : Site) (f : Fld) (v : Nat) : (s.wrS d f v).rdS d f = v % 2 ^ f.w := by
  cases d
  · exact State.rd_wr_same ..
  · exact State.ard_awr_same ..

theorem State.rdS_wrS_other (s : State) (d : Site) {f g : Fld} (h : g.key ≠ f.key) (v : Nat) : (s.wrS d f v).rdS d g = s.rdS d g := by
  cases d
  · exact State.rd_wr_other s h v
  · exact State.ard_awr_other s h v

theorem lock_ne_sticky (pg : Nat) : (PG_LOCK_LOCK pg).key ≠ (PG_LOCK_STICKY pg).key := by
  simp [Fld.key, PG_LOCK_LOCK, PG_LOCK_STICKY]

theorem bit_zero_mod (v : Nat) (b : Bool) : bit v 0 = b ↔ v % 2 = b.toNat := by
  cases b <;> simp [bit]

section
variable (s : State) (d : Site) (pg v : Nat)

/-- LOCK is set by a 1, and cleared by a 0 that does not meet STICKY. -/
theorem State.pgLock_lock : (s.pgLock d pg v).rdS d (PG_LOCK_LOCK pg) =
    if bit v 0 || !(s.rdS d (PG_LOCK_STICKY pg) == 1) then v % 2 else s.rdS d (PG_LOCK_LOCK pg) := by
  have h (b : Bool) : (if b then s.wrS d (PG_LOCK_LOCK pg) (v % 2) else s).rdS d (PG_LOCK_LOCK pg) =
      if b then v % 2 else s.rdS d (PG_LOCK_LOCK pg) := by
    cases b
    · rfl
    · exact (s.rdS_wrS_same ..).trans (Nat.mod_mod v 2)
  unfold State.pgLock
  extract_lets stuck s₁
  split
  · rw [State.rdS_wrS_other _ _ (lock_ne_sticky pg)]
    exact h (bit v 0 || !stuck)
  · exact h (bit v 0 || !stuck)

/-- STICKY is set by a 1 and kept by a 0. -/
theorem State.pgLock_sticky : (s.pgLock d pg v).rdS d (PG_LOCK_STICKY pg) = if bit v 1 then 1 else s.rdS d (PG_LOCK_STICKY pg) := by
  unfold State.pgLock
  extract_lets stuck s₁
  have h₁ : s₁.rdS d (PG_LOCK_STICKY pg) = s.rdS d (PG_LOCK_STICKY pg) := by
    unfold s₁
    split
    · exact State.rdS_wrS_other s d (lock_ne_sticky pg).symm _
    · rfl
  split
  · exact State.rdS_wrS_same ..
  · exact h₁

end

theorem pgLockWrite_absent {s : State} {d : Site} {p : Nat} {v : Word} (h : s.pageIn d p = false) : exec (.pgLockWrite d p v) s = .next s := by
  show execPgLockWrite d p v s = _
  rw [execPgLockWrite, h]
  rfl

theorem pgLockWrite_present {s : State} {d : Site} {p : Nat} {v : Word} (h : s.pageIn d p = true) :
    exec (.pgLockWrite d p v) s = .next (s.pgLock d (adPg p) v.toNat) := by
  show execPgLockWrite d p v s = _
  rw [execPgLockWrite, if_pos h]

/-! ### AGENT_TARGET_WRITE -/

section
variable {s : State} {a : Nat} {v : Word}

theorem agentTargetWrite_porst (h : s.ag.porst = true) : exec (.agentTargetWrite a v) s = .next s := by
  show execAgentTargetWrite a v s = _
  rw [execAgentTargetWrite, State.targetWrite, if_pos h]

theorem agentTargetWrite_address (h : s.ag.porst = false) (ha : 2 ^ 32 ≤ a ∨ a % 8 ≠ 0 ∨ s.agPageExists a = false) :
    exec (.agentTargetWrite a v) s = .next (s.busErr 1) := by
  show execAgentTargetWrite a v s = _
  rw [execAgentTargetWrite, State.targetWrite, if_neg (by simp [h]), if_pos (by simpa using ha)]

theorem agentTargetWrite_remote (h : s.ag.porst = false) (h₁ : a < 2 ^ 32) (h₂ : a % 8 = 0) (h₃ : s.agPageExists a = true) (hl : hasLocal a = false) :
    exec (.agentTargetWrite a v) s = .next (s.busErr 2) := by
  show execAgentTargetWrite a v s = _
  rw [execAgentTargetWrite, State.targetWrite, if_neg (by simp [h]), if_neg (by simp [h₂, h₃]; omega), if_pos (by simp [hl])]

/-- TTB_HBASE exists at a chip that is no leaf, and the host chip may write it. -/
theorem targetWrite_hbase (h : s.ag.porst = false) (hl : s.isLeaf = false) (v : Nat) : s.targetWrite 0x006001D8 v =
    if s.agLocked 0x006001D8 then s.busErr 3 else (s.agLocal 0x006001D8 v).2.busErr (s.agLocal 0x006001D8 v).1 := by
  have hpage : s.agPageExists 0x006001D8 = true := by
    show (true && (true && !s.isLeaf)) = true
    simp [hl]
  have hlocal : hasLocal 0x006001D8 = true := by decide
  rw [State.targetWrite, if_neg (by simp [h]), if_neg (by simp [hpage]), if_neg (by simp [hlocal])]
  rfl

theorem State.agLocked_hbase (s : State) : s.agLocked 0x006001D8 = (s.ard (PG_LOCK_LOCK 0x00600000) == 1) := rfl

theorem State.agLocal_hbase (s : State) (v : Nat) : s.agLocal 0x006001D8 v = if s.handleNamed then (3, s)
    else (0, s.setAg fun g => { g with hbase := tset g.hbase (s.ard Ia.TTB_HSEL_HANDLE) (v / 64 * 64) }) := rfl

theorem agentTargetWrite_hbase (h : s.ag.porst = false) (hl : s.isLeaf = false) (hk : s.ard (PG_LOCK_LOCK 0x00600000) = 0) (hn : s.handleNamed = false) :
    exec (.agentTargetWrite 0x006001D8 v) s = .next ((s.setAg fun g => { g with
      hbase := tset g.hbase (s.ard Ia.TTB_HSEL_HANDLE) (v.toNat / 64 * 64) }).busErr 0) := by
  show execAgentTargetWrite 0x006001D8 v s = _
  rw [execAgentTargetWrite, targetWrite_hbase h hl, State.agLocked_hbase, if_neg (by simp [hk]), State.agLocal_hbase, if_neg (by simp [hn])]

/-- A handle that the loaded list names keeps its base, also where the page is locked. -/
theorem agentTargetWrite_hbase_named (h : s.ag.porst = false) (hl : s.isLeaf = false) (hn : s.handleNamed = true) :
    exec (.agentTargetWrite 0x006001D8 v) s = .next (s.busErr 3) := by
  show execAgentTargetWrite 0x006001D8 v s = _
  rw [execAgentTargetWrite, targetWrite_hbase h hl, State.agLocal_hbase, if_pos hn, ite_self]

end

/-! ### MREQ_READ and MREQ_WRITE -/

section
variable {s : State} {x : Cell}

theorem State.mreqServe_silent (h : s.ag.porst = true ∨ s.aon GEN_FID_VALID = false) : s.mreqServe x = s := by
  rw [State.mreqServe, if_pos (by simpa using h)]

variable (hp : s.ag.porst = false) (hv : s.aon GEN_FID_VALID = true)
include hp hv

theorem State.mreqServe_epoch (he : s.epochGood .agent x = false) : s.mreqServe x = s.discard .agent 0 x rEPOCH := by
  rw [State.mreqServe, if_neg (by simp [hp, hv]), if_pos (by simp [he])]

theorem State.mreqServe_role (he : s.epochGood .agent x = true) (hs : x.src % 256 < 0xFE) :
    s.mreqServe x = s.mrsp x [bits (cellWord x 0) 63 52 * 2 ^ 52 + stROLE * 2 ^ 40, bits (cellWord x 1) 31 0] := by
  rw [State.mreqServe, if_neg (by simp [hp, hv]), if_neg (by simp [he]), if_pos hs]

theorem State.mreqServe_stored (he : s.epochGood .agent x = true) (hs : 0xFE ≤ x.src % 256) {l : List Word} (hr : s.replayOf x.src x.seq = some l) :
    s.mreqServe x = s.mrsp x (l.map (·.toNat)) := by
  rw [State.mreqServe, if_neg (by simp [hp, hv]), if_neg (by simp [he]), if_neg (by omega), hr]

theorem State.mreqServe_runs (he : s.epochGood .agent x = true) (hs : 0xFE ≤ x.src % 256) (hr : s.replayOf x.src x.seq = none) :
    s.mreqServe x = ((s.mreqRun x).2.keepAnswer x.src x.seq ((List.range 6).map fun i => word (nth (s.mreqRun x).1 i))).mrsp x (s.mreqRun x).1 := by
  rw [State.mreqServe, if_neg (by simp [hp, hv]), if_neg (by simp [he]), if_neg (by omega), hr]

end

theorem State.mrsp_ag (s : State) (x : Cell) (payload : List Nat) : (s.mrsp x payload).ag = s.ag :=
  Within.ag_eq (State.mrsp_within (A := [.regs, .aregs, .ports, .agPorts, .flt, .agFlt, .out]) (by decide) (by decide) (by decide) (by decide) (by decide)
    (by decide) (by decide) x payload (.refl _ s)) (by decide)

/-- The newest of the answers kept is among them. -/
theorem mem_drop_append_singleton {α : Type} (l : List α) (a : α) : a ∈ (l ++ [a]).drop (l.length - 15) := by
  rw [List.drop_append_of_le_length (by omega)]
  simp

/-- An answer that was just stored is found again. -/
theorem State.replayOf_keepAnswer (s : State) (src seq : Nat) (ws : List Word) : ((s.keepAnswer src seq ws).replayOf src seq).isSome = true := by
  unfold State.keepAnswer State.replayOf
  extract_lets old kept
  have hkept : (seq, ws) ∈ kept := mem_drop_append_singleton old _
  have hfound : ((s.ag.replay.filter fun e => e.1 != src) ++ [(src, kept)]).find? (fun e => e.1 == src) = some (src, kept) := by
    have hold : (s.ag.replay.filter fun e => e.1 != src).find? (fun e => e.1 == src) = none := by simp [List.find?_eq_none]
    rw [List.find?_append, hold]
    simp
  simp only [State.setAg_ag, hfound, Option.isSome_map, List.find?_isSome]
  exact ⟨_, hkept, beq_self_eq_true seq⟩

theorem State.replayOf_mrsp (s : State) (x : Cell) (payload : List Nat) (src seq : Nat) : (s.mrsp x payload).replayOf src seq = s.replayOf src seq := by
  rw [State.replayOf, State.replayOf, State.mrsp_ag]

/-! ### O59 -/

/-- Settles O59, case by case of the commands; both management requests are served by `mreqServe`. -/
theorem registerAccess : Obligations.RegisterAccess := by
  unfold Obligations.RegisterAccess
  have hread {s t : State} {x : Cell} (h : s.mreqServe x = t) : exec (.mreqRead x) s = .next t := congrArg Host.Outcome.next h
  have hwrite {s t : State} {x : Cell} (h : s.mreqServe x = t) : exec (.mreqWrite x) s = .next t := congrArg Host.Outcome.next h
  have kept (s : State) (x : Cell) (p : List Nat) (ws : List Word) : (((s.keepAnswer x.src x.seq ws).mrsp x p).replayOf x.src x.seq).isSome = true := by
    rw [State.replayOf_mrsp]
    exact s.replayOf_keepAnswer ..
  refine ⟨fun s a v h => ?_, fun s a v h => ?_, fun s v h h₁ h₂ => ?_, fun s v h => ?_, fun s v => ?_, fun s i n w v hi hn hw ht => ?_,
    fun s i n w v ht => ?_, fun s i h => ?_, fun s i x h => ?_, fun s d p v h => ?_, fun s d p v h hb => ?_, fun s d p v h hb => ?_,
    fun s a v h => ?_, fun s a v h ha => ?_, fun s a v h h₁ h₂ h₃ hl => ?_, fun s v h hl hk hn => ?_, fun s v h hl hn => ?_,
    fun s x h => ?_, fun s x hp hv he => ?_, fun s x hp hv he hs => ?_, fun s x l hp hv he hs hr => ?_, fun s x hp hv he hs hr => ?_,
    fun s x h => ?_, fun s x hp hv he => ?_, fun s x hp hv he hs => ?_, fun s x l hp hv he hs hr => ?_, fun s x hp hv he hs hr => ?_⟩
  · have k := s.refused_frame a (s.gate operator a true)
    exact (registerWrite_reach s a v).next (registerWrite_refused h) ⟨rfl, k.regs_eq (by decide), k.out_eq (by decide)⟩
  · exact (registerWrite_reach s a v).next (registerWrite_granted h) rfl
  · refine (registerWrite_reach s _ v).next (registerWrite_syncMs h h₁ h₂) ⟨(RegsBut.refl _ s).wr (by simp) _, ?_⟩
    rw [State.rd_wr_same]
    simp [bits, PAR_TIMING_SYNC_MS]
  · obtain ⟨t, ht, k⟩ := registerWrite_syncMs_range h
    exact (registerWrite_reach s _ v).next ht k
  · refine (genModeWrite_reach s v).next rfl ⟨(RegsBut.refl _ s).wr (by simp) _, ?_, State.rd_wr_other s (by decide) _⟩
    rw [State.rd_wr_same]
    exact Nat.mod_mod ..
  · refine (mslSlotWrite_reach s i n w v).next (mslSlotWrite_puts hi hn hw ht) ⟨?_, fun j m u hj hm hu hne => ?_, ?_⟩
    · exact s.syncGet_syncPut_same (syncReserved_slotWord hi hn hw) v.isLt
    · exact s.syncGet_syncPut_other (fun e => hne (slotWord_inj hn hw hm hu e)) _
    · exact (State.syncPut_within (A := [.tile]) (by decide) 0 _ _ (.refl _ s)).regs_eq (by decide)
  · exact (mslSlotWrite_reach s i n w v).next (mslSlotWrite_taken ht) rfl
  · exact (byjCloseWrite_reach s i).next rfl (State.closeSess_none h)
  · exact (byjCloseWrite_reach s i).next rfl (State.closeSess_some h)
  · exact (pgLockWrite_reach s d p v).next (pgLockWrite_absent h) rfl
  · refine (pgLockWrite_reach s d p v).next (pgLockWrite_present h) ⟨?_, fun h₁ => ?_, fun h₁ => ?_⟩
    · rw [State.pgLock_lock, hb, Bool.true_or, if_pos rfl]
      exact (bit_zero_mod _ true).1 hb
    · rw [State.pgLock_sticky, h₁, if_pos rfl]
    · rw [State.pgLock_sticky, h₁, if_neg Bool.false_ne_true]
  · refine (pgLockWrite_reach s d p v).next (pgLockWrite_present h) ?_
    rw [State.pgLock_lock, hb, Bool.false_or, (bit_zero_mod _ false).1 hb]
    by_cases hk : s.rdS d (PG_LOCK_STICKY (adPg p)) = 1 <;> simp [hk]
  · exact (agentTargetWrite_reach s a v).next (agentTargetWrite_porst h) rfl
  · exact (agentTargetWrite_reach s a v).next (agentTargetWrite_address h ha) ⟨rfl, rfl, rfl⟩
  · exact (agentTargetWrite_reach s a v).next (agentTargetWrite_remote h h₁ h₂ h₃ hl) ⟨rfl, rfl, rfl⟩
  · exact (agentTargetWrite_reach s _ v).next (agentTargetWrite_hbase h hl hk hn) ⟨rfl, rfl, rfl⟩
  · exact (agentTargetWrite_reach s _ v).next (agentTargetWrite_hbase_named h hl hn) ⟨rfl, rfl, rfl⟩
  · exact (mreqRead_reach s x).next (hread (State.mreqServe_silent h)) rfl
  · exact (mreqRead_reach s x).next (hread (State.mreqServe_epoch hp hv he)) rfl
  · exact (mreqRead_reach s x).next (hread (State.mreqServe_role hp hv he hs)) ⟨rfl, s.mrsp_ag x _⟩
  · exact (mreqRead_reach s x).next (hread (State.mreqServe_stored hp hv he hs hr)) ⟨rfl, s.mrsp_ag x _⟩
  · exact (mreqRead_reach s x).next (hread (State.mreqServe_runs hp hv he hs hr)) ⟨rfl, kept ..⟩
  · exact (mreqWrite_reach s x).next (hwrite (State.mreqServe_silent h)) rfl
  · exact (mreqWrite_reach s x).next (hwrite (State.mreqServe_epoch hp hv he)) rfl
  · exact (mreqWrite_reach s x).next (hwrite (State.mreqServe_role hp hv he hs)) ⟨rfl, s.mrsp_ag x _⟩
  · exact (mreqWrite_reach s x).next (hwrite (State.mreqServe_stored hp hv he hs hr)) ⟨rfl, s.mrsp_ag x _⟩
  · exact (mreqWrite_reach s x).next (hwrite (State.mreqServe_runs hp hv he hs hr)) ⟨rfl, kept ..⟩

end Sys2Proof.Machine
end

section
/-! Every command completes within the parts of the state that `reach` gives its row, and O4: every step keeps the state sound (R19, R266,
R465). -/

namespace Sys2Proof.Machine

/-- A command reaches no part of the state beyond those of its row: `exec` dispatches each row to its meaning, and Laws/ bounds that meaning. -/
theorem exec_reach (c : Instr) (s : State) : Out.within (reach c) s (exec c s) := by
  cases c with
  | registerWrite => exact registerWrite_reach s ..
  | tmkEnableWrite => apply execTmkEnableWrite_within (h₀ := .refl _ s) <;> exact List.mem_of_elem_eq_true rfl
  | tmkStep => apply execTmkStep_within (h₀ := .refl _ s) <;> exact List.mem_of_elem_eq_true rfl
  | counterStep => apply execCounterStep_within (h₀ := .refl _ s) <;> exact List.mem_of_elem_eq_true rfl
  | tmkPeriodNextWrite => apply execTmkPeriodNextWrite_within (h₀ := .refl _ s) <;> exact List.mem_of_elem_eq_true rfl
  | periodAnnounceBegin => exact execPeriodAnnounceBegin_within (h₀ := .refl _ s) (List.mem_of_elem_eq_true rfl)
  | periodChange => apply execPeriodChange_within (h₀ := .refl _ s) <;> exact List.mem_of_elem_eq_true rfl
  | ppsEdge => apply execPpsEdge_within (h₀ := .refl _ s) <;> exact List.mem_of_elem_eq_true rfl
  | ptpSync => apply execPtpSync_within (h₀ := .refl _ s) <;> exact List.mem_of_elem_eq_true rfl
  | ptpAnnounce => apply execPtpAnnounce_within (h₀ := .refl _ s) <;> exact List.mem_of_elem_eq_true rfl
  | ppsMissing => apply execPpsMissing_within (h₀ := .refl _ s) <;> exact List.mem_of_elem_eq_true rfl
  | cadenceRefLoss => apply execCadenceRefLoss_within (h₀ := .refl _ s) <;> exact List.mem_of_elem_eq_true rfl
  | syncTimeout => apply execSyncTimeout_within (h₀ := .refl _ s) <;> exact List.mem_of_elem_eq_true rfl
  | xdomUnsafe => apply execXdomUnsafe_within (h₀ := .refl _ s) <;> exact List.mem_of_elem_eq_true rfl
  | slewCorrection => apply execSlewCorrection_within (h₀ := .refl _ s) <;> exact List.mem_of_elem_eq_true rfl
  | todAdvance => exact execTodAdvance_within (h₀ := .refl _ s) (List.mem_of_elem_eq_true rfl)
  | beatBoundary => apply execBeatBoundary_within (h₀ := .refl _ s) <;> exact List.mem_of_elem_eq_true rfl
  | beatWord => apply execBeatWord_within (h₀ := .refl _ s) <;> exact List.mem_of_elem_eq_true rfl
  | beatWordMiss => apply execBeatWordMiss_within (h₀ := .refl _ s) <;> exact List.mem_of_elem_eq_true rfl
  | orphanEntry => apply execOrphanEntry_within (h₀ := .refl _ s) <;> exact List.mem_of_elem_eq_true rfl
  | orphanReportRepeat => apply execOrphanReportRepeat_within (h₀ := .refl _ s) <;> exact List.mem_of_elem_eq_true rfl
  | codeword => apply execCodeword_within (h₀ := .refl _ s) <;> exact List.mem_of_elem_eq_true rfl
  | creditWord => apply execCreditWord_within (h₀ := .refl _ s) <;> exact List.mem_of_elem_eq_true rfl
  | sentWord => apply execSentWord_within (h₀ := .refl _ s) <;> exact List.mem_of_elem_eq_true rfl
  | probeWord => apply execProbeWord_within (h₀ := .refl _ s) <;> exact List.mem_of_elem_eq_true rfl
  | probeReplyWord => apply execProbeReplyWord_within (h₀ := .refl _ s) <;> exact List.mem_of_elem_eq_true rfl
  | identWord => apply execIdentWord_within (h₀ := .refl _ s) <;> exact List.mem_of_elem_eq_true rfl
  | periodWord => exact execPeriodWord_within (h₀ := .refl _ s) (List.mem_of_elem_eq_true rfl) ..
  | frameTag => apply execFrameTag_within (h₀ := .refl _ s) <;> exact List.mem_of_elem_eq_true rfl
  | trainStageDone => apply execTrainStageDone_within (h₀ := .refl _ s) <;> exact List.mem_of_elem_eq_true rfl
  | trainStageTimeout => apply execTrainStageTimeout_within (h₀ := .refl _ s) <;> exact List.mem_of_elem_eq_true rfl
  | trainRetry => apply execTrainRetry_within (h₀ := .refl _ s) <;> exact List.mem_of_elem_eq_true rfl
  | unpark => apply execUnpark_within (h₀ := .refl _ s) <;> exact List.mem_of_elem_eq_true rfl
  | retrain => apply execRetrain_within (h₀ := .refl _ s) <;> exact List.mem_of_elem_eq_true rfl
  | portDisable => apply execPortDisable_within (h₀ := .refl _ s) <;> exact List.mem_of_elem_eq_true rfl
  | noCorrectableCodeword => apply execNoCorrectableCodeword_within (h₀ := .refl _ s) <;> exact List.mem_of_elem_eq_true rfl
  | electricalIdleDetect => apply execElectricalIdleDetect_within (h₀ := .refl _ s) <;> exact List.mem_of_elem_eq_true rfl
  | cellSend => apply execCellSend_within (h₀ := .refl _ s) <;> exact List.mem_of_elem_eq_true rfl
  | cellForward => apply execCellForward_within (h₀ := .refl _ s) <;> exact List.mem_of_elem_eq_true rfl
  | escapeThreshold => apply execEscapeThreshold_within (h₀ := .refl _ s) <;> exact List.mem_of_elem_eq_true rfl
  | dovetailNak => apply execDovetailNak_within (h₀ := .refl _ s) <;> exact List.mem_of_elem_eq_true rfl
  | linkKeyChange => apply execLinkKeyChange_within (h₀ := .refl _ s) <;> exact List.mem_of_elem_eq_true rfl
  | putCell => apply execPutCell_within (h₀ := .refl _ s) <;> exact List.mem_of_elem_eq_true rfl
  | resultCell => apply execResultCell_within (h₀ := .refl _ s) <;> exact List.mem_of_elem_eq_true rfl
  | contribCell => apply execContribCell_within (h₀ := .refl _ s) <;> exact List.mem_of_elem_eq_true rfl
  | mrspCell => apply execMrspCell_within (h₀ := .refl _ s) <;> exact List.mem_of_elem_eq_true rfl
  | mgmtTimeout => apply execMgmtTimeout_within (h₀ := .refl _ s) <;> exact List.mem_of_elem_eq_true rfl
  | mgmtRetry => apply execMgmtRetry_within (h₀ := .refl _ s) <;> exact List.mem_of_elem_eq_true rfl
  | routeCompute => apply execRouteCompute_within (h₀ := .refl _ s) <;> exact List.mem_of_elem_eq_true rfl
  | rteCheck => apply execRteCheck_within (h₀ := .refl _ s) <;> exact List.mem_of_elem_eq_true rfl
  | rteStart => apply execRteStart_within (h₀ := .refl _ s) <;> exact List.mem_of_elem_eq_true rfl
  | rteAbort => apply execRteAbort_within (h₀ := .refl _ s) <;> exact List.mem_of_elem_eq_true rfl
  | flipPrepareDone => apply execFlipPrepareDone_within (h₀ := .refl _ s) <;> exact List.mem_of_elem_eq_true rfl
  | prepTimeout => apply execPrepTimeout_within (h₀ := .refl _ s) <;> exact List.mem_of_elem_eq_true rfl
  | quietEntry => apply execQuietEntry_within (h₀ := .refl _ s) <;> exact List.mem_of_elem_eq_true rfl
  | pollRound => apply execPollRound_within (h₀ := .refl _ s) <;> exact List.mem_of_elem_eq_true rfl
  | flipRecordConfirm => apply execFlipRecordConfirm_within (h₀ := .refl _ s) <;> exact List.mem_of_elem_eq_true rfl
  | commitCell => apply execCommitCell_within (h₀ := .refl _ s) <;> exact List.mem_of_elem_eq_true rfl
  | abortCell => apply execAbortCell_within (h₀ := .refl _ s) <;> exact List.mem_of_elem_eq_true rfl
  | flipBeat => apply execFlipBeat_within (h₀ := .refl _ s) <;> exact List.mem_of_elem_eq_true rfl
  | flipResume => apply execFlipResume_within (h₀ := .refl _ s) <;> exact List.mem_of_elem_eq_true rfl
  | commitResend => apply execCommitResend_within (h₀ := .refl _ s) <;> exact List.mem_of_elem_eq_true rfl
  | flipFallback => apply execFlipFallback_within (h₀ := .refl _ s) <;> exact List.mem_of_elem_eq_true rfl
  | fallbackRetry => apply execFallbackRetry_within (h₀ := .refl _ s) <;> exact List.mem_of_elem_eq_true rfl
  | safeStateEntry => apply execSafeStateEntry_within (h₀ := .refl _ s) <;> exact List.mem_of_elem_eq_true rfl
  | ttbCheck => apply execTtbCheck_within (h₀ := .refl _ s) <;> exact List.mem_of_elem_eq_true rfl
  | ttbCheckDone => apply execTtbCheckDone_within (h₀ := .refl _ s) <;> exact List.mem_of_elem_eq_true rfl
  | ttbArm => apply execTtbArm_within (h₀ := .refl _ s) <;> exact List.mem_of_elem_eq_true rfl
  | armDeadline => apply execArmDeadline_within (h₀ := .refl _ s) <;> exact List.mem_of_elem_eq_true rfl
  | armStart => apply execArmStart_within (h₀ := .refl _ s) <;> exact List.mem_of_elem_eq_true rfl
  | ttbStop => exact execTtbStop_within (h₀ := .refl _ s) (List.mem_of_elem_eq_true rfl) ..
  | ttbDisarm => apply execTtbDisarm_within (h₀ := .refl _ s) <;> exact List.mem_of_elem_eq_true rfl
  | ttbVoid => apply execTtbVoid_within (h₀ := .refl _ s) <;> exact List.mem_of_elem_eq_true rfl
  | ttbUnload => apply execTtbUnload_within (h₀ := .refl _ s) <;> exact List.mem_of_elem_eq_true rfl
  | stepBoundary => apply execStepBoundary_within (h₀ := .refl _ s) <;> exact List.mem_of_elem_eq_true rfl
  | instanceOpen => apply execInstanceOpen_within (h₀ := .refl _ s) <;> exact List.mem_of_elem_eq_true rfl
  | exchangeDeadlineCheck => apply execExchangeDeadlineCheck_within (h₀ := .refl _ s) <;> exact List.mem_of_elem_eq_true rfl
  | counterDeadlineCheck => apply execCounterDeadlineCheck_within (h₀ := .refl _ s) <;> exact List.mem_of_elem_eq_true rfl
  | stepmissCell => apply execStepmissCell_within (h₀ := .refl _ s) <;> exact List.mem_of_elem_eq_true rfl
  | voidSend => apply execVoidSend_within (h₀ := .refl _ s) <;> exact List.mem_of_elem_eq_true rfl
  | voidRepeat => apply execVoidRepeat_within (h₀ := .refl _ s) <;> exact List.mem_of_elem_eq_true rfl
  | voidCell => apply execVoidCell_within (h₀ := .refl _ s) <;> exact List.mem_of_elem_eq_true rfl
  | voidConfirmRound => apply execVoidConfirmRound_within (h₀ := .refl _ s) <;> exact List.mem_of_elem_eq_true rfl
  | rollback => apply execRollback_within (h₀ := .refl _ s) <;> exact List.mem_of_elem_eq_true rfl
  | restartBeat => apply execRestartBeat_within (h₀ := .refl _ s) <;> exact List.mem_of_elem_eq_true rfl
  | stepCommit => apply execStepCommit_within (h₀ := .refl _ s) <;> exact List.mem_of_elem_eq_true rfl
  | cmapCollect => apply execCmapCollect_within (h₀ := .refl _ s) <;> exact List.mem_of_elem_eq_true rfl
  | cmapClear => exact execCmapClear_within (h₀ := .refl _ s) (List.mem_of_elem_eq_true rfl) ..
  | energyWindow => apply execEnergyWindow_within (h₀ := .refl _ s) <;> exact List.mem_of_elem_eq_true rfl
  | instanceReady => apply execInstanceReady_within (h₀ := .refl _ s) <;> exact List.mem_of_elem_eq_true rfl
  | resultSend => apply execResultSend_within (h₀ := .refl _ s) <;> exact List.mem_of_elem_eq_true rfl
  | branchTransfer => apply execBranchTransfer_within (h₀ := .refl _ s) <;> exact List.mem_of_elem_eq_true rfl
  | routeCombineStage1 => apply execRouteCombineStage1_within (h₀ := .refl _ s) <;> exact List.mem_of_elem_eq_true rfl
  | engineError => apply execEngineError_within (h₀ := .refl _ s) <;> exact List.mem_of_elem_eq_true rfl
  | blockDecode => apply execBlockDecode_within (h₀ := .refl _ s) <;> exact List.mem_of_elem_eq_true rfl
  | blockEncode => apply execBlockEncode_within (h₀ := .refl _ s) <;> exact List.mem_of_elem_eq_true rfl
  | cdcTestGo => exact execCdcTestGo_within (h₀ := .refl _ s) (List.mem_of_elem_eq_true rfl) ..
  | cdcTestDone => exact execCdcTestDone_within (h₀ := .refl _ s) (List.mem_of_elem_eq_true rfl) ..
  | cdcGenGo => exact execCdcGenGo_within (h₀ := .refl _ s) (List.mem_of_elem_eq_true rfl) ..
  | cdcGenDone => exact execCdcGenDone_within (h₀ := .refl _ s) (List.mem_of_elem_eq_true rfl) ..
  | descriptorStart => apply execDescriptorStart_within (h₀ := .refl _ s) <;> exact List.mem_of_elem_eq_true rfl
  | descriptorEnd => apply execDescriptorEnd_within (h₀ := .refl _ s) <;> exact List.mem_of_elem_eq_true rfl
  | sequencerError => apply execSequencerError_within (h₀ := .refl _ s) <;> exact List.mem_of_elem_eq_true rfl
  | tileFail => apply execTileFail_within (h₀ := .refl _ s) <;> exact List.mem_of_elem_eq_true rfl
  | tileSwap => apply execTileSwap_within (h₀ := .refl _ s) <;> exact List.mem_of_elem_eq_true rfl
  | engineSwitch => exact execEngineSwitch_within (h₀ := .refl _ s) (List.mem_of_elem_eq_true rfl) ..
  | engineSwitchDone => apply execEngineSwitchDone_within (h₀ := .refl _ s) <;> exact List.mem_of_elem_eq_true rfl
  | bankPromote => exact execBankPromote_within (h₀ := .refl _ s) (List.mem_of_elem_eq_true rfl) ..
  | syncWindowAccess => apply execSyncWindowAccess_within (h₀ := .refl _ s) <;> exact List.mem_of_elem_eq_true rfl
  | syncCollideRepeat => apply execSyncCollideRepeat_within (h₀ := .refl _ s) <;> exact List.mem_of_elem_eq_true rfl
  | sramUncorrectable => apply execSramUncorrectable_within (h₀ := .refl _ s) <;> exact List.mem_of_elem_eq_true rfl
  | shelfDenied => apply execShelfDenied_within (h₀ := .refl _ s) <;> exact List.mem_of_elem_eq_true rfl
  | shelfWipe => apply execShelfWipe_within (h₀ := .refl _ s) <;> exact List.mem_of_elem_eq_true rfl
  | shelfWipeDone => apply execShelfWipeDone_within (h₀ := .refl _ s) <;> exact List.mem_of_elem_eq_true rfl
  | pghRetain => exact execPghRetain_within (h₀ := .refl _ s) (List.mem_of_elem_eq_true rfl) ..
  | pghWake => exact execPghWake_within (h₀ := .refl _ s) (List.mem_of_elem_eq_true rfl) ..
  | pghWakeDone => apply execPghWakeDone_within (h₀ := .refl _ s) <;> exact List.mem_of_elem_eq_true rfl
  | pghAllocWrite => exact execPghAllocWrite_within (h₀ := .refl _ s) (List.mem_of_elem_eq_true rfl) ..
  | pghWinAccess => apply execPghWinAccess_within (h₀ := .refl _ s) <;> exact List.mem_of_elem_eq_true rfl
  | stackTrainAttempt => apply execStackTrainAttempt_within (h₀ := .refl _ s) <;> exact List.mem_of_elem_eq_true rfl
  | stackErrorPoll => exact execStackErrorPoll_within (h₀ := .refl _ s) (List.mem_of_elem_eq_true rfl) ..
  | sectorTagFail => apply execSectorTagFail_within (h₀ := .refl _ s) <;> exact List.mem_of_elem_eq_true rfl
  | vltFillGo => exact execVltFillGo_within (h₀ := .refl _ s) (List.mem_of_elem_eq_true rfl) ..
  | vltFillDone => apply execVltFillDone_within (h₀ := .refl _ s) <;> exact List.mem_of_elem_eq_true rfl
  | vltRegWrite => apply execVltRegWrite_within (h₀ := .refl _ s) <;> exact List.mem_of_elem_eq_true rfl
  | vltOptlayoutWrite => apply execVltOptlayoutWrite_within (h₀ := .refl _ s) <;> exact List.mem_of_elem_eq_true rfl
  | vltOptSetWrite => exact execVltOptSetWrite_within (h₀ := .refl _ s) (List.mem_of_elem_eq_true rfl) ..
  | vltWinAccess => apply execVltWinAccess_within (h₀ := .refl _ s) <;> exact List.mem_of_elem_eq_true rfl
  | mergeBlockComplete => apply execMergeBlockComplete_within (h₀ := .refl _ s) <;> exact List.mem_of_elem_eq_true rfl
  | selfRefreshEntry => exact execSelfRefreshEntry_within (h₀ := .refl _ s) (List.mem_of_elem_eq_true rfl)
  | ctxAssign => apply execCtxAssign_within (h₀ := .refl _ s) <;> exact List.mem_of_elem_eq_true rfl
  | ctxRelease => apply execCtxRelease_within (h₀ := .refl _ s) <;> exact List.mem_of_elem_eq_true rfl
  | releaseDrained => apply execReleaseDrained_within (h₀ := .refl _ s) <;> exact List.mem_of_elem_eq_true rfl
  | releaseScrubDone => apply execReleaseScrubDone_within (h₀ := .refl _ s) <;> exact List.mem_of_elem_eq_true rfl
  | cryptoEraseDone => apply execCryptoEraseDone_within (h₀ := .refl _ s) <;> exact List.mem_of_elem_eq_true rfl
  | releaseComplete => apply execReleaseComplete_within (h₀ := .refl _ s) <;> exact List.mem_of_elem_eq_true rfl
  | ctxBind => apply execCtxBind_within (h₀ := .refl _ s) <;> exact List.mem_of_elem_eq_true rfl
  | ctxSeedWrite => exact execCtxSeedWrite_within (h₀ := .refl _ s) (List.mem_of_elem_eq_true rfl) ..
  | ctxMapWrite => exact execCtxMapWrite_within (h₀ := .refl _ s) (List.mem_of_elem_eq_true rfl) ..
  | getVersion => apply execGetVersion_within (h₀ := .refl _ s) <;> exact List.mem_of_elem_eq_true rfl
  | getCapabilities => apply execGetCapabilities_within (h₀ := .refl _ s) <;> exact List.mem_of_elem_eq_true rfl
  | negotiateAlgorithms => apply execNegotiateAlgorithms_within (h₀ := .refl _ s) <;> exact List.mem_of_elem_eq_true rfl
  | getDigests => apply execGetDigests_within (h₀ := .refl _ s) <;> exact List.mem_of_elem_eq_true rfl
  | getCertificate => apply execGetCertificate_within (h₀ := .refl _ s) <;> exact List.mem_of_elem_eq_true rfl
  | challenge => apply execChallenge_within (h₀ := .refl _ s) <;> exact List.mem_of_elem_eq_true rfl
  | getMeasurements => apply execGetMeasurements_within (h₀ := .refl _ s) <;> exact List.mem_of_elem_eq_true rfl
  | keyExchange => apply execKeyExchange_within (h₀ := .refl _ s) <;> exact List.mem_of_elem_eq_true rfl
  | finish => apply execFinish_within (h₀ := .refl _ s) <;> exact List.mem_of_elem_eq_true rfl
  | heartbeat => apply execHeartbeat_within (h₀ := .refl _ s) <;> exact List.mem_of_elem_eq_true rfl
  | keyUpdate => apply execKeyUpdate_within (h₀ := .refl _ s) <;> exact List.mem_of_elem_eq_true rfl
  | endSession => apply execEndSession_within (h₀ := .refl _ s) <;> exact List.mem_of_elem_eq_true rfl
  | chunkSend => apply execChunkSend_within (h₀ := .refl _ s) <;> exact List.mem_of_elem_eq_true rfl
  | chunkGet => apply execChunkGet_within (h₀ := .refl _ s) <;> exact List.mem_of_elem_eq_true rfl
  | getEncapsulatedRequest => apply execGetEncapsulatedRequest_within (h₀ := .refl _ s) <;> exact List.mem_of_elem_eq_true rfl
  | deliverEncapsulatedResponse => apply execDeliverEncapsulatedResponse_within (h₀ := .refl _ s) <;> exact List.mem_of_elem_eq_true rfl
  | spdmUnsupported => apply execSpdmUnsupported_within (h₀ := .refl _ s) <;> exact List.mem_of_elem_eq_true rfl
  | spdmSessionTimeout => apply execSpdmSessionTimeout_within (h₀ := .refl _ s) <;> exact List.mem_of_elem_eq_true rfl
  | admitSess => apply execAdmitSess_within (h₀ := .refl _ s) <;> exact List.mem_of_elem_eq_true rfl
  | setCredential => apply execSetCredential_within (h₀ := .refl _ s) <;> exact List.mem_of_elem_eq_true rfl
  | keyRelease => apply execKeyRelease_within (h₀ := .refl _ s) <;> exact List.mem_of_elem_eq_true rfl
  | keyRevoke => apply execKeyRevoke_within (h₀ := .refl _ s) <;> exact List.mem_of_elem_eq_true rfl
  | vaultImport => apply execVaultImport_within (h₀ := .refl _ s) <;> exact List.mem_of_elem_eq_true rfl
  | deliver => apply execDeliver_within (h₀ := .refl _ s) <;> exact List.mem_of_elem_eq_true rfl
  | keyStatus => apply execKeyStatus_within (h₀ := .refl _ s) <;> exact List.mem_of_elem_eq_true rfl
  | akCertSigned => exact execAkCertSigned_within (h₀ := .refl _ s) (List.mem_of_elem_eq_true rfl) ..
  | guardianReport => apply execGuardianReport_within (h₀ := .refl _ s) <;> exact List.mem_of_elem_eq_true rfl
  | guardianReportMissing => apply execGuardianReportMissing_within (h₀ := .refl _ s) <;> exact List.mem_of_elem_eq_true rfl
  | evidenceMessage => apply execEvidenceMessage_within (h₀ := .refl _ s) <;> exact List.mem_of_elem_eq_true rfl
  | evidenceTimeout => apply execEvidenceTimeout_within (h₀ := .refl _ s) <;> exact List.mem_of_elem_eq_true rfl
  | evidenceResetRetry => apply execEvidenceResetRetry_within (h₀ := .refl _ s) <;> exact List.mem_of_elem_eq_true rfl
  | keywrapConfirmTimeout => apply execKeywrapConfirmTimeout_within (h₀ := .refl _ s) <;> exact List.mem_of_elem_eq_true rfl
  | keyRedeliver => apply execKeyRedeliver_within (h₀ := .refl _ s) <;> exact List.mem_of_elem_eq_true rfl
  | pairKeyRelease => apply execPairKeyRelease_within (h₀ := .refl _ s) <;> exact List.mem_of_elem_eq_true rfl
  | commandResetWaitTimeout => apply execCommandResetWaitTimeout_within (h₀ := .refl _ s) <;> exact List.mem_of_elem_eq_true rfl
  | nonceBindingExpiry => exact execNonceBindingExpiry_within (h₀ := .refl _ s) (List.mem_of_elem_eq_true rfl) ..
  | deliveryCallTimeout => apply execDeliveryCallTimeout_within (h₀ := .refl _ s) <;> exact List.mem_of_elem_eq_true rfl
  | tamperDetect => apply execTamperDetect_within (h₀ := .refl _ s) <;> exact List.mem_of_elem_eq_true rfl
  | lcsSeal => apply execLcsSeal_within (h₀ := .refl _ s) <;> exact List.mem_of_elem_eq_true rfl
  | lcsReturn => apply execLcsReturn_within (h₀ := .refl _ s) <;> exact List.mem_of_elem_eq_true rfl
  | ethFrame => apply execEthFrame_within (h₀ := .refl _ s) <;> exact List.mem_of_elem_eq_true rfl
  | mkaFrame => apply execMkaFrame_within (h₀ := .refl _ s) <;> exact List.mem_of_elem_eq_true rfl
  | hostLinkLoss => apply execHostLinkLoss_within (h₀ := .refl _ s) <;> exact List.mem_of_elem_eq_true rfl
  | beyjoSpdm => exact execBeyjoSpdm_within (h₀ := .refl _ s) (List.mem_of_elem_eq_true rfl) ..
  | beyjoOpen => apply execBeyjoOpen_within (h₀ := .refl _ s) <;> exact List.mem_of_elem_eq_true rfl
  | beyjoProof => apply execBeyjoProof_within (h₀ := .refl _ s) <;> exact List.mem_of_elem_eq_true rfl
  | challengeExpiry => exact execChallengeExpiry_within (h₀ := .refl _ s) (List.mem_of_elem_eq_true rfl) ..
  | beyjoRequest => apply execBeyjoRequest_within (h₀ := .refl _ s) <;> exact List.mem_of_elem_eq_true rfl
  | opRead => apply execOpRead_within (h₀ := .refl _ s) <;> exact List.mem_of_elem_eq_true rfl
  | opWrite => apply execOpWrite_within (h₀ := .refl _ s) <;> exact List.mem_of_elem_eq_true rfl
  | opKeepalive => apply execOpKeepalive_within (h₀ := .refl _ s) <;> exact List.mem_of_elem_eq_true rfl
  | opFilter => apply execOpFilter_within (h₀ := .refl _ s) <;> exact List.mem_of_elem_eq_true rfl
  | notifyAck => apply execNotifyAck_within (h₀ := .refl _ s) <;> exact List.mem_of_elem_eq_true rfl
  | beyjoClose => apply execBeyjoClose_within (h₀ := .refl _ s) <;> exact List.mem_of_elem_eq_true rfl
  | sessionIdleTimeout => apply execSessionIdleTimeout_within (h₀ := .refl _ s) <;> exact List.mem_of_elem_eq_true rfl
  | byjCloseWrite => exact byjCloseWrite_reach s ..
  | notifySend => apply execNotifySend_within (h₀ := .refl _ s) <;> exact List.mem_of_elem_eq_true rfl
  | notifyResend => apply execNotifyResend_within (h₀ := .refl _ s) <;> exact List.mem_of_elem_eq_true rfl
  | genModeWrite => exact genModeWrite_reach s ..
  | mslSlotWrite => exact mslSlotWrite_reach s ..
  | mailScan => apply execMailScan_within (h₀ := .refl _ s) <;> exact List.mem_of_elem_eq_true rfl
  | mailNop => apply execMailNop_within (h₀ := .refl _ s) <;> exact List.mem_of_elem_eq_true rfl
  | mailReserved => apply execMailReserved_within (h₀ := .refl _ s) <;> exact List.mem_of_elem_eq_true rfl
  | rodLoad => apply execRodLoad_within (h₀ := .refl _ s) <;> exact List.mem_of_elem_eq_true rfl
  | mailDump => apply execMailDump_within (h₀ := .refl _ s) <;> exact List.mem_of_elem_eq_true rfl
  | fwStage => apply execFwStage_within (h₀ := .refl _ s) <;> exact List.mem_of_elem_eq_true rfl
  | mailRemap => apply execMailRemap_within (h₀ := .refl _ s) <;> exact List.mem_of_elem_eq_true rfl
  | evidencePut => apply execEvidencePut_within (h₀ := .refl _ s) <;> exact List.mem_of_elem_eq_true rfl
  | mailHandover => exact mailHandover_reach s ..
  | detectorEvent => apply execDetectorEvent_within (h₀ := .refl _ s) <;> exact List.mem_of_elem_eq_true rfl
  | eventDecide => apply execEventDecide_within (h₀ := .refl _ s) <;> exact List.mem_of_elem_eq_true rfl
  | faultCell => apply execFaultCell_within (h₀ := .refl _ s) <;> exact List.mem_of_elem_eq_true rfl
  | pgFaultClear => apply execPgFaultClear_within (h₀ := .refl _ s) <;> exact List.mem_of_elem_eq_true rfl
  | fltClearFirst => apply execFltClearFirst_within (h₀ := .refl _ s) <;> exact List.mem_of_elem_eq_true rfl
  | fltClearLog => apply execFltClearLog_within (h₀ := .refl _ s) <;> exact List.mem_of_elem_eq_true rfl
  | fltChoice => apply execFltChoice_within (h₀ := .refl _ s) <;> exact List.mem_of_elem_eq_true rfl
  | policyWaitExpiry => apply execPolicyWaitExpiry_within (h₀ := .refl _ s) <;> exact List.mem_of_elem_eq_true rfl
  | reactionWindowEnd => apply execReactionWindowEnd_within (h₀ := .refl _ s) <;> exact List.mem_of_elem_eq_true rfl
  | thermalTrip => apply execThermalTrip_within (h₀ := .refl _ s) <;> exact List.mem_of_elem_eq_true rfl
  | thermalRecover => apply execThermalRecover_within (h₀ := .refl _ s) <;> exact List.mem_of_elem_eq_true rfl
  | tempSample => apply execTempSample_within (h₀ := .refl _ s) <;> exact List.mem_of_elem_eq_true rfl
  | stackTempRead => apply execStackTempRead_within (h₀ := .refl _ s) <;> exact List.mem_of_elem_eq_true rfl
  | pgJigGo => apply execPgJigGo_within (h₀ := .refl _ s) <;> exact List.mem_of_elem_eq_true rfl
  | jigArmWrite => apply execJigArmWrite_within (h₀ := .refl _ s) <;> exact List.mem_of_elem_eq_true rfl
  | jigArmTimeout => apply execJigArmTimeout_within (h₀ := .refl _ s) <;> exact List.mem_of_elem_eq_true rfl
  | fltDllClear => apply execFltDllClear_within (h₀ := .refl _ s) <;> exact List.mem_of_elem_eq_true rfl
  | watchdogHang => apply execWatchdogHang_within (h₀ := .refl _ s) <;> exact List.mem_of_elem_eq_true rfl
  | selfSnapshot => exact execSelfSnapshot_within (h₀ := .refl _ s) (List.mem_of_elem_eq_true rfl) ..
  | dumpReadTimeout => apply execDumpReadTimeout_within (h₀ := .refl _ s) <;> exact List.mem_of_elem_eq_true rfl
  | dumpBudgetExpiry => apply execDumpBudgetExpiry_within (h₀ := .refl _ s) <;> exact List.mem_of_elem_eq_true rfl
  | agentDump => apply execAgentDump_within (h₀ := .refl _ s) <;> exact List.mem_of_elem_eq_true rfl
  | rstGo => apply execRstGo_within (h₀ := .refl _ s) <;> exact List.mem_of_elem_eq_true rfl
  | resetComplete => apply execResetComplete_within (h₀ := .refl _ s) <;> exact List.mem_of_elem_eq_true rfl
  | holdRearm => apply execHoldRearm_within (h₀ := .refl _ s) <;> exact List.mem_of_elem_eq_true rfl
  | memberLostLinks => apply execMemberLostLinks_within (h₀ := .refl _ s) <;> exact List.mem_of_elem_eq_true rfl
  | memberLostReset => apply execMemberLostReset_within (h₀ := .refl _ s) <;> exact List.mem_of_elem_eq_true rfl
  | restoreStreamEnd => apply execRestoreStreamEnd_within (h₀ := .refl _ s) <;> exact List.mem_of_elem_eq_true rfl
  | parwrCell => apply execParwrCell_within (h₀ := .refl _ s) <;> exact List.mem_of_elem_eq_true rfl
  | parackCell => apply execParackCell_within (h₀ := .refl _ s) <;> exact List.mem_of_elem_eq_true rfl
  | parackPeriodic => apply execParackPeriodic_within (h₀ := .refl _ s) <;> exact List.mem_of_elem_eq_true rfl
  | batchResend => apply execBatchResend_within (h₀ := .refl _ s) <;> exact List.mem_of_elem_eq_true rfl
  | generationBegin => apply execGenerationBegin_within (h₀ := .refl _ s) <;> exact List.mem_of_elem_eq_true rfl
  | commitAckTimeout => apply execCommitAckTimeout_within (h₀ := .refl _ s) <;> exact List.mem_of_elem_eq_true rfl
  | syncMsExpiry => exact execSyncMsExpiry_within (h₀ := .refl _ s) (List.mem_of_elem_eq_true rfl)
  | parSync => exact execParSync_within (h₀ := .refl _ s) (List.mem_of_elem_eq_true rfl)
  | parFull => exact execParFull_within (h₀ := .refl _ s) (List.mem_of_elem_eq_true rfl)
  | vaultMirror => apply execVaultMirror_within (h₀ := .refl _ s) <;> exact List.mem_of_elem_eq_true rfl
  | renewTimer => apply execRenewTimer_within (h₀ := .refl _ s) <;> exact List.mem_of_elem_eq_true rfl
  | leaseRenew => apply execLeaseRenew_within (h₀ := .refl _ s) <;> exact List.mem_of_elem_eq_true rfl
  | leaseGrant => apply execLeaseGrant_within (h₀ := .refl _ s) <;> exact List.mem_of_elem_eq_true rfl
  | leaseTakeover => apply execLeaseTakeover_within (h₀ := .refl _ s) <;> exact List.mem_of_elem_eq_true rfl
  | leaseTakeoverGrant => apply execLeaseTakeoverGrant_within (h₀ := .refl _ s) <;> exact List.mem_of_elem_eq_true rfl
  | leaseRefuse => apply execLeaseRefuse_within (h₀ := .refl _ s) <;> exact List.mem_of_elem_eq_true rfl
  | leaseRelease => apply execLeaseRelease_within (h₀ := .refl _ s) <;> exact List.mem_of_elem_eq_true rfl
  | leaseMove => apply execLeaseMove_within (h₀ := .refl _ s) <;> exact List.mem_of_elem_eq_true rfl
  | leaseExpiry => apply execLeaseExpiry_within (h₀ := .refl _ s) <;> exact List.mem_of_elem_eq_true rfl
  | takeoverTrigger => apply execTakeoverTrigger_within (h₀ := .refl _ s) <;> exact List.mem_of_elem_eq_true rfl
  | refereeStartingEnd => apply execRefereeStartingEnd_within (h₀ := .refl _ s) <;> exact List.mem_of_elem_eq_true rfl
  | leaseMoveTrigger => apply execLeaseMoveTrigger_within (h₀ := .refl _ s) <;> exact List.mem_of_elem_eq_true rfl
  | takeoverReconcile => exact takeoverReconcile_reach s ..
  | takeoverCdieReady => exact takeoverCdieReady_reach s ..
  | takeoverLoadDone => exact takeoverLoadDone_reach s
  | takeoverRearm => exact takeoverRearm_reach s
  | handoverPaused => exact handoverPaused_reach s
  | handoverPauseTimeout => exact handoverPauseTimeout_reach s
  | handoverReleaseTimeout => apply execHandoverReleaseTimeout_within (h₀ := .refl _ s) <;> exact List.mem_of_elem_eq_true rfl
  | unitReturn => exact unitReturn_reach s ..
  | porstNLow => apply execPorstNLow_within (h₀ := .refl _ s) <;> exact List.mem_of_elem_eq_true rfl
  | porstNRelease => apply execPorstNRelease_within (h₀ := .refl _ s) <;> exact List.mem_of_elem_eq_true rfl
  | sysrstNFall => apply execSysrstNFall_within (h₀ := .refl _ s) <;> exact List.mem_of_elem_eq_true rfl
  | bootReady => apply execBootReady_within (h₀ := .refl _ s) <;> exact List.mem_of_elem_eq_true rfl
  | timeRecordRestart => apply execTimeRecordRestart_within (h₀ := .refl _ s) <;> exact List.mem_of_elem_eq_true rfl
  | timeRecordTimeout => exact execTimeRecordTimeout_within (h₀ := .refl _ s) (List.mem_of_elem_eq_true rfl)
  | fwDistribute => apply execFwDistribute_within (h₀ := .refl _ s) <;> exact List.mem_of_elem_eq_true rfl
  | fwRepairRound => apply execFwRepairRound_within (h₀ := .refl _ s) <;> exact List.mem_of_elem_eq_true rfl
  | fwActivateSend => apply execFwActivateSend_within (h₀ := .refl _ s) <;> exact List.mem_of_elem_eq_true rfl
  | fwBegin => exact execFwBegin_within (h₀ := .refl _ s) (List.mem_of_elem_eq_true rfl) ..
  | fwData => apply execFwData_within (h₀ := .refl _ s) <;> exact List.mem_of_elem_eq_true rfl
  | fwActivate => exact execFwActivate_within (h₀ := .refl _ s) (List.mem_of_elem_eq_true rfl) ..
  | fwActivateAt => apply execFwActivateAt_within (h₀ := .refl _ s) <;> exact List.mem_of_elem_eq_true rfl
  | fwAbort => apply execFwAbort_within (h₀ := .refl _ s) <;> exact List.mem_of_elem_eq_true rfl
  | rodCompare => apply execRodCompare_within (h₀ := .refl _ s) <;> exact List.mem_of_elem_eq_true rfl
  | rodSilentTimeout => apply execRodSilentTimeout_within (h₀ := .refl _ s) <;> exact List.mem_of_elem_eq_true rfl
  | cpwrGoodTimeout => apply execCpwrGoodTimeout_within (h₀ := .refl _ s) <;> exact List.mem_of_elem_eq_true rfl
  | cpwrGoodChange => apply execCpwrGoodChange_within (h₀ := .refl _ s) <;> exact List.mem_of_elem_eq_true rfl
  | railOutOfWindow => apply execRailOutOfWindow_within (h₀ := .refl _ s) <;> exact List.mem_of_elem_eq_true rfl
  | pwrBudgetWrite => exact execPwrBudgetWrite_within (h₀ := .refl _ s) (List.mem_of_elem_eq_true rfl) ..
  | pgLockWrite => exact pgLockWrite_reach s ..
  | agentTargetWrite => exact agentTargetWrite_reach s ..
  | iaPorstN => apply execIaPorstN_within (h := .refl _ s) <;> exact List.mem_of_elem_eq_true rfl
  | iaTamperN => apply execIaTamperN_within (h₀ := .refl _ s) <;> exact List.mem_of_elem_eq_true rfl
  | agentFidWrite => apply execAgentFidWrite_within (h₀ := .refl _ s) <;> exact List.mem_of_elem_eq_true rfl
  | agentFwGo sigOk =>
    show Out.within (reach (.agentFwGo sigOk)) s (execAgentFwGo sigOk s)
    apply execAgentFwGo_within (h₀ := .refl _ s) <;> exact List.mem_of_elem_eq_true rfl
  | mreqRead => exact mreqRead_reach s ..
  | mreqWrite => exact mreqWrite_reach s ..
  | orphanCell => apply execOrphanCell_within (h₀ := .refl _ s) <;> exact List.mem_of_elem_eq_true rfl
  | agentArm => apply execAgentArm_within (h₀ := .refl _ s) <;> exact List.mem_of_elem_eq_true rfl
  | agentDisarm => apply execAgentDisarm_within (h₀ := .refl _ s) <;> exact List.mem_of_elem_eq_true rfl
  | ttbLlenWrite => apply execTtbLlenWrite_within (h₀ := .refl _ s) <;> exact List.mem_of_elem_eq_true rfl
  | ttbEvtRead => apply execTtbEvtRead_within (h₀ := .refl _ s) <;> exact List.mem_of_elem_eq_true rfl
  | cdcJobGo => apply execCdcJobGo_within (h₀ := .refl _ s) <;> exact List.mem_of_elem_eq_true rfl
  | cdcJobDone => apply execCdcJobDone_within (h₀ := .refl _ s) <;> exact List.mem_of_elem_eq_true rfl
  | measStart => exact execMeasStart_within (h₀ := .refl _ s) (List.mem_of_elem_eq_true rfl)
  | measInWrite => exact execMeasInWrite_within (h₀ := .refl _ s) (List.mem_of_elem_eq_true rfl) ..
  | measDone => apply execMeasDone_within (h₀ := .refl _ s) <;> exact List.mem_of_elem_eq_true rfl
  | certLock => exact execCertLock_within (h₀ := .refl _ s) (List.mem_of_elem_eq_true rfl)
  | evreqGo => apply execEvreqGo_within (h₀ := .refl _ s) <;> exact List.mem_of_elem_eq_true rfl
  | evidenceFormed => apply execEvidenceFormed_within (h₀ := .refl _ s) <;> exact List.mem_of_elem_eq_true rfl
  | decapKeyExpiry => apply execDecapKeyExpiry_within (h₀ := .refl _ s) <;> exact List.mem_of_elem_eq_true rfl
  | keywrapCell => apply execKeywrapCell_within (h₀ := .refl _ s) <;> exact List.mem_of_elem_eq_true rfl
  | keySidebandAck => apply execKeySidebandAck_within (h₀ := .refl _ s) <;> exact List.mem_of_elem_eq_true rfl
  | keySidebandTimeout => apply execKeySidebandTimeout_within (h₀ := .refl _ s) <;> exact List.mem_of_elem_eq_true rfl
  | agentRstGo => apply execAgentRstGo_within (h₀ := .refl _ s) <;> exact List.mem_of_elem_eq_true rfl
  | rstReqGo => apply execRstReqGo_within (h₀ := .refl _ s) <;> exact List.mem_of_elem_eq_true rfl
  | hcResetHoldEnd => apply execHcResetHoldEnd_within (h₀ := .refl _ s) <;> exact List.mem_of_elem_eq_true rfl
  | hcRstDone => apply execHcRstDone_within (h₀ := .refl _ s) <;> exact List.mem_of_elem_eq_true rfl
  | hcDoneTimeout => apply execHcDoneTimeout_within (h₀ := .refl _ s) <;> exact List.mem_of_elem_eq_true rfl
  | restoreCell => apply execRestoreCell_within (h₀ := .refl _ s) <;> exact List.mem_of_elem_eq_true rfl
  | rchunkClear => exact execRchunkClear_within (h₀ := .refl _ s) (List.mem_of_elem_eq_true rfl)
  | rstatEnd => apply execRstatEnd_within (h₀ := .refl _ s) <;> exact List.mem_of_elem_eq_true rfl
  | bufferError => apply execBufferError_within (h₀ := .refl _ s) <;> exact List.mem_of_elem_eq_true rfl
  | dumpComplete => apply execDumpComplete_within (h₀ := .refl _ s) <;> exact List.mem_of_elem_eq_true rfl
  | iaPorstNRelease => apply execIaPorstNRelease_within (h₀ := .refl _ s) <;> exact List.mem_of_elem_eq_true rfl
  | railWindowEntry => exact execRailWindowEntry_within (h₀ := .refl _ s) (List.mem_of_elem_eq_true rfl) ..
  | hostLinkUp => exact execHostLinkUp_within (h₀ := .refl _ s) (List.mem_of_elem_eq_true rfl)
  | signatureDone => apply execSignatureDone_within (h₀ := .refl _ s) <;> exact List.mem_of_elem_eq_true rfl
  | vaultImportDone => apply execVaultImportDone_within (h₀ := .refl _ s) <;> exact List.mem_of_elem_eq_true rfl
  | standbyWarmDone => exact standbyWarmDone_reach s
  | takeoverRequestRepeat => apply execTakeoverRequestRepeat_within (h₀ := .refl _ s) <;> exact List.mem_of_elem_eq_true rfl

/-- No command ends in a fault or a refusal: every meaning is written as a next state. -/
theorem exec_next (c : Instr) (s : State) : ∃ t, exec c s = .next t := by cases c <;> exact ⟨_, rfl⟩

/-- A meaning that is within some parts and answers a next state keeps what every command keeps. -/
theorem Out.within.kept {A : List Area} {s t : State} {o : Out} (w : o.within A s) (h : o = .next t) : Kept s t := by
  subst h
  exact Within.kept w

theorem exec_kept (c : Instr) (s : State) : ∃ t, exec c s = .next t ∧ Kept s t := by
  obtain ⟨t, ht⟩ := exec_next c s
  exact ⟨t, ht, (exec_reach c s).kept ht⟩

/-! ### One step -/

theorem step_nil {s : State} (h : s.pending = []) : step s = .next s := by rw [step, h]

theorem step_cons {s : State} {c : Instr} {q : List Instr} (h : s.pending = c :: q) : step s = exec c { s with pending := q } := by
  rw [step, h]

/-- Soundness does not speak of the waiting commands. -/
theorem State.Sound.withQueue {s : State} (h : s.Sound) (q : List Instr) : State.Sound { s with pending := q } := { h with }

/-- Settles O4: an idle step changes nothing, and the step of a command keeps what that command keeps on the state with the rest of the
queue. -/
theorem stepKeepsSound : Obligations.StepKeepsSound := by
  intro s hs
  cases hq : s.pending with
  | nil => exact ⟨s, step_nil hq, hs, hq, List.prefix_refl _, Nat.le_refl _⟩
  | cons c q =>
    obtain ⟨t, ht, hk⟩ := exec_kept c { s with pending := q }
    exact ⟨t, (step_cons hq).trans ht, hk.sound (hs.withQueue q), hk.queue, hk.sent, hk.free⟩

end Sys2Proof.Machine
end

section
/-! The state after reset, and O2 (R8, R19, R58, R128, R154, R269, R354, R356, R375, R411, R440). -/

namespace Sys2Proof.Machine

/-- After reset no field is listed in the register store, so each reads as its table value (R8). -/
theorem State.rd_reset (f : Fld) : State.reset.rd f = f.rst := rfl

/-- The stores, ports, executors, contexts and memories of the reset state are in the form that soundness asks (R19, R266, R465). -/
theorem State.reset_sound : State.reset.Sound where
  regs := List.Pairwise.nil
  aregs := List.Pairwise.nil
  ports := by rw [State.reset, List.length_map, List.length_range]
  agPorts := by rw [State.reset, List.length_map, List.length_range]
  ttbs := by rw [State.reset, List.length_map, List.length_range]
  ctxs := by rw [State.reset, List.length_map, List.length_range]
  tile := ⟨rfl, rfl, rfl⟩
  hbm := rfl
  pair := rfl
  boot := rfl
  ag := ⟨rfl, rfl, rfl, rfl, rfl, rfl⟩

/-- Settles O2: an unlisted field reads as its table value, and the empty lists of sessions and records are those of the sequencers at
rest (log entry 4). -/
theorem resetState : Obligations.ResetState := by
  unfold Obligations.ResetState
  simp only [State.ctxState, State.ttbState, State.rd_reset]
  exact ⟨State.reset_sound, rfl, rfl, fun _ _ => ⟨rfl, rfl, rfl⟩, by decide⟩

end Sys2Proof.Machine
end

section
/-! The boundary of the agent's beat, and the refutation of O10 (R38, R39). -/

namespace Sys2Proof.Machine

/-- The new count of the agent stands after what its ports and its timetable do at the boundary (R39). -/
theorem State.agBeat_beat (s : State) : s.agBeat.agTime.beat = s.agNextBeat.1 := by
  unfold State.agBeat
  extract_lets last nx s₁ s₂
  have w₂ : Within [.aregs] s₁ s₂ := by
    unfold s₂
    split
    · exact State.awr_within (by decide) _ _ (.refl _ s₁)
    · exact .refl _ s₁
  have w : Within [.regs, .aregs, .ports, .agPorts, .flt, .agFlt, .ag, .out] s₂ (s₂.portBeats .agent last).agSendBeat :=
    State.agSendBeat_within (by decide) (by decide) (by decide) (by decide) (by decide) (by decide) (by decide)
      (State.portBeats_within (by decide) (by decide) (by decide) .agent last (.refl _ s₂))
  rw [w.agTime_eq (by decide), w₂.agTime_eq (by decide)]
  rfl

theorem beatBoundary_agent {s : State} (hp : s.ag.porst = false) (hs : s.ard Ia.TMK_STAT_STATE ≠ 0) :
    exec (.beatBoundary .agent) s = .next s.agBeat := by
  show execBeatBoundary .agent s = _
  unfold execBeatBoundary
  simp [hp, hs]

/-- At the announced second the count is that of the new period (R38): the whole seconds so far, in beats of `q.1` ns. -/
theorem State.agNextBeat_change {s : State} {q : Nat × Nat} (hq : s.agTime.pchg = some q)
    (hb : (s.agTime.beat + 1) % 2 ^ 56 * s.periodS .agent % 1000000000 = 0) :
    s.agNextBeat.1 = (s.agTime.beat + 1) % 2 ^ 56 * s.periodS .agent / q.1 % 2 ^ 56 := by
  unfold State.agNextBeat
  simp only [hq, if_pos hb]

/-- Refutes O10: its clause of BEAT_BOUNDARY at an aligned agent leaves out an announced period change (R38). With 1,024 ns announced and
1,953,124 beats of 512 ns counted, the next boundary is a whole second, and the count there is 976,562, not 1,953,125. -/
theorem not_beatOnTheLinks : ¬ Obligations.BeatOnTheLinks := by
  unfold Obligations.BeatOnTheLinks
  rintro ⟨-, h, -⟩
  let s : State := (State.reset.setAgTime fun t => { t with beat := 1953124, pchg := some (1024, 0) }).awr Ia.TMK_STAT_STATE 2
  obtain ⟨t, ht, -, hbeat, -⟩ := h s rfl rfl
  obtain rfl : s.agBeat = t := by
    rw [beatBoundary_agent rfl (by decide)] at ht
    exact Host.Outcome.next.inj ht
  have hnew : s.agBeat.agTime.beat = 976562 := by
    rw [State.agBeat_beat, State.agNextBeat_change (q := (1024, 0)) rfl (by decide)]
    decide
  rw [hnew] at hbeat
  exact absurd hbeat (by decide)

end Sys2Proof.Machine
end

section
/-! What a dead unit shows of its boot, and the refutation of O46 (R442, R446). -/

namespace Sys2Proof.Machine

theorem State.rd_lanesIdle (s : State) (f : Fld) : s.lanesIdle.rd f = s.rd f := by
  have w : Within [.ports, .agPorts, .out] s s.lanesIdle := State.lanesIdle_within (by decide) (by decide) (by decide) (.refl _ s)
  simp only [State.rd, w.regs_eq (by decide)]

theorem bootReady_dead {s : State} (ms : Nat) (l : List Nat) (hp : s.boot.porst = false) (hb : s.rd GEN_BOOT_STATE < 4) (hl : s.lifecycle ≠ 0) :
    exec (.bootReady ms l true) s = .next (s.bootErr.wr GEN_BOOT_STATE 5).lanesIdle := by
  show execBootReady ms l true s = _
  unfold execBootReady
  rw [if_neg (by rintro (h | h | h); exacts [absurd h (by simp [hp]), absurd hb (by omega), hl h]), if_pos rfl]

/-- A first stage that fails R446 leaves its code in GEN_BOOT.ERR. -/
theorem State.bootErr_firstStage {s : State} {x : Container} {e : Nat} (hx : s.runImage 1 = some x) (he : s.imageErr x = some e) :
    s.bootErr = s.wr GEN_BOOT_ERR e := by
  have hf : [1, 2].findSome? (fun k => (s.runImage k).bind s.imageErr) = some e := by simp [hx, he]
  rw [State.bootErr, hf]

theorem containerErr_magic {x : Container} (h : x.magic ≠ 0x464D4C46) (part minSvn device : Nat) : containerErr x part minSvn device = some 1 := by
  simp [containerErr, firstCode, h]

/-- Refutes O46: its clause of BOOT_READY at a dead unit leaves every field but GEN_BOOT.STATE, and the code of the first stage that failed
goes into GEN_BOOT.ERR (R446). With an erased slot for the first stage ERR becomes 1. -/
theorem not_bootAndReset : ¬ Obligations.BootAndReset := by
  unfold Obligations.BootAndReset
  rintro ⟨-, -, -, -, -, -, h, -⟩
  let s : State := State.reset.setBoot fun b => { b with flash := [⟨1, 0, containerOf [] false⟩] }
  obtain ⟨t, ht, -, hregs, -⟩ := h s 0 [] rfl (by decide) (by decide)
  obtain rfl : (s.bootErr.wr GEN_BOOT_STATE 5).lanesIdle = t := by
    rw [bootReady_dead 0 [] rfl (by decide) (by decide)] at ht
    exact Host.Outcome.next.inj ht
  have herr : s.bootErr = s.wr GEN_BOOT_ERR 1 :=
    State.bootErr_firstStage (x := containerOf [] false) (by decide) (containerErr_magic (by decide) ..)
  have hkept : (s.bootErr.wr GEN_BOOT_STATE 5).lanesIdle.rd GEN_BOOT_ERR = s.rd GEN_BOOT_ERR := hregs GEN_BOOT_ERR (by decide)
  rw [State.rd_lanesIdle, State.rd_wr_other _ (by decide), herr, State.rd_wr_same] at hkept
  exact absurd hkept (by decide)

end Sys2Proof.Machine
end

section
/-! Link training, link loss and the words of a port, and O11 (R40, R69, R71, R76 to R83, R86, R95). -/

namespace Sys2Proof.Machine

/-! ### Ports that an operation leaves alone -/

theorem Within.portsS_eq {A : List Area} {s t : State} (h : Within A s t) (n : Area.ports ∉ A) (m : Area.agPorts ∉ A) (d : Site) :
    t.portsS d = s.portsS d := by
  cases d
  · exact h.ports_eq n
  · exact h.agPorts_eq m

theorem Within.port_eq {A : List Area} {s t : State} (h : Within A s t) (n : Area.ports ∉ A) (m : Area.agPorts ∉ A) (d : Site) (p : Nat) :
    t.port d p = s.port d p := by
  rw [State.port, State.port, h.portsS_eq n m]

theorem Within.rd_eq {A : List Area} {s t : State} (h : Within A s t) (n : Area.regs ∉ A) (f : Fld) : t.rd f = s.rd f := by
  rw [State.rd, State.rd, h.regs_eq n]

theorem Within.rdS_eq {A : List Area} {s t : State} (h : Within A s t) (n : Area.regs ∉ A) (m : Area.aregs ∉ A) (d : Site) (f : Fld) :
    t.rdS d f = s.rdS d f := by
  cases d
  · exact h.rd_eq n f
  · simp only [State.rdS_agent, State.ard, h.aregs_eq m]

section
variable (s : State) (d : Site)

@[simp] theorem State.portsS_wrS (e : Site) (f : Fld) (v : Nat) : (s.wrS d f v).portsS e = s.portsS e := by cases d <;> cases e <;> rfl
@[simp] theorem State.port_wrS (e : Site) (f : Fld) (v p : Nat) : (s.wrS d f v).port e p = s.port e p := by simp [State.port]
@[simp] theorem State.portsS_emit (m : Msg) : (s.emit m).portsS d = s.portsS d := by cases d <;> rfl
@[simp] theorem State.port_emit (m : Msg) (p : Nat) : (s.emit m).port d p = s.port d p := by simp [State.port]
@[simp] theorem State.rdS_emit (m : Msg) (f : Fld) : (s.emit m).rdS d f = s.rdS d f := by cases d <;> rfl
@[simp] theorem State.rdS_setPort (e : Site) (p : Nat) (g : PortSt → PortSt) (f : Fld) : (s.setPort e p g).rdS d f = s.rdS d f := by
  cases d <;> simp
@[simp] theorem State.length_portsS_setPort (e : Site) (p : Nat) (g : PortSt → PortSt) :
    ((s.setPort e p g).portsS d).length = (s.portsS d).length := by
  cases d <;> cases e <;> simp
@[simp] theorem State.rdS_setIdle (e : Site) (p : Nat) (b : Bool) (f : Fld) : (s.setIdle e p b).rdS d f = s.rdS d f := by
  rw [State.setIdle, State.rdS_emit, State.rdS_setPort]

end


/-! ### Fields that share no place -/

/-- Fields of a port page that the training and the loss of a link write. -/
def linkFields (pg : Nat) : List Fld :=
  [PRT_CTRL_DISABLE pg, PRT_STAT_RETRY_CNT pg, PRT_STAT_ENCRYPTED pg, PRT_STAT_WIDTH pg, PRT_STAT_STATE pg, PRT_DISCARD_CRC pg,
   PRT_DISCARD_OTHER pg]

theorem disable_mem_linkFields (pg : Nat) : PRT_CTRL_DISABLE pg ∈ linkFields pg := by simp [linkFields]
theorem retryCnt_mem_linkFields (pg : Nat) : PRT_STAT_RETRY_CNT pg ∈ linkFields pg := by simp [linkFields]
theorem encrypted_mem_linkFields (pg : Nat) : PRT_STAT_ENCRYPTED pg ∈ linkFields pg := by simp [linkFields]
theorem width_mem_linkFields (pg : Nat) : PRT_STAT_WIDTH pg ∈ linkFields pg := by simp [linkFields]
theorem state_mem_linkFields (pg : Nat) : PRT_STAT_STATE pg ∈ linkFields pg := by simp [linkFields]

/-- The count of links lies on no port page: its offset in a page is none of theirs (R498). -/
theorem links_ne_linkFields (p : Nat) {f : Fld} (h : f ∈ linkFields (prtPg p)) : LCS_PART_LINKS.key ≠ f.key := by
  simp only [linkFields, List.mem_cons, List.not_mem_nil, or_false] at h
  rcases h with rfl | rfl | rfl | rfl | rfl | rfl | rfl <;>
    simp only [Fld.key, LCS_PART_LINKS, PRT_CTRL_DISABLE, PRT_STAT_RETRY_CNT, PRT_STAT_ENCRYPTED, PRT_STAT_WIDTH, PRT_STAT_STATE,
      PRT_DISCARD_CRC, PRT_DISCARD_OTHER, prtPg] <;> split <;> omega

theorem FlipFrame.links_eq {s t : State} (h : FlipFrame s t) : t.rd LCS_PART_LINKS = s.rd LCS_PART_LINKS := by
  refine h.regs _ fun f hf => ?_
  cases hf with
  | single hf => revert f; decide
  | @route f p hf =>
    revert f
    obtain hp | hp := portDie_eq p <;> simp only [rteOf, hp] <;> decide
  | crc p | discarded p => exact links_ne_linkFields p (by simp [linkFields])
  | _ =>
    simp only [Fld.key, LCS_PART_LINKS, FLT_DLL_HEAD_HEAD, FLT_DLL_HEAD_WRAPPED,
      FLT_DLL_HEAD_OVERFLOW, dllPg, TTB_STAT_CHECK_ERR, TTB_STAT_CHECK_DETAIL, ttbPg, VLT_INTEG_REPLAY, VLT_VAULT_TAINTED, vltPg,
      CTX_SLICE_SPARES_USED, CTX_STAT_ASSIGN_ERR, CTX_STAT_ERR_LID, CTX_STAT_STATE, ctxPg]
    omega

theorem state_ne_retryCnt (pg : Nat) : (PRT_STAT_STATE pg).key ≠ (PRT_STAT_RETRY_CNT pg).key := by
  simp [Fld.key, PRT_STAT_STATE, PRT_STAT_RETRY_CNT]

theorem state_ne_width (pg : Nat) : (PRT_STAT_STATE pg).key ≠ (PRT_STAT_WIDTH pg).key := by simp [Fld.key, PRT_STAT_STATE, PRT_STAT_WIDTH]

theorem state_ne_encrypted (pg : Nat) : (PRT_STAT_STATE pg).key ≠ (PRT_STAT_ENCRYPTED pg).key := by
  simp [Fld.key, PRT_STAT_STATE, PRT_STAT_ENCRYPTED]

theorem state_ne_disable (pg : Nat) : (PRT_STAT_STATE pg).key ≠ (PRT_CTRL_DISABLE pg).key := by
  simp only [Fld.key, PRT_STAT_STATE, PRT_CTRL_DISABLE]
  omega

theorem disable_ne_width (pg : Nat) : (PRT_CTRL_DISABLE pg).key ≠ (PRT_STAT_WIDTH pg).key := by
  simp only [Fld.key, PRT_CTRL_DISABLE, PRT_STAT_WIDTH]
  omega

theorem disable_ne_encrypted (pg : Nat) : (PRT_CTRL_DISABLE pg).key ≠ (PRT_STAT_ENCRYPTED pg).key := by
  simp only [Fld.key, PRT_CTRL_DISABLE, PRT_STAT_ENCRYPTED]
  omega

theorem retryCnt_ne_width (pg : Nat) : (PRT_STAT_RETRY_CNT pg).key ≠ (PRT_STAT_WIDTH pg).key := by
  simp [Fld.key, PRT_STAT_RETRY_CNT, PRT_STAT_WIDTH]

theorem retryCnt_ne_encrypted (pg : Nat) : (PRT_STAT_RETRY_CNT pg).key ≠ (PRT_STAT_ENCRYPTED pg).key := by
  simp [Fld.key, PRT_STAT_RETRY_CNT, PRT_STAT_ENCRYPTED]

/-! ### A training attempt -/

/-- The device lists the port, and the part has it (R1). -/
structure State.Trainable (s : State) (d : Site) (p : Nat) : Prop where
  listed : p < (s.portsS d).length
  fused : d = .agent ∨ p < s.rd LCS_PART_LINKS

section
variable {s t : State} {d : Site} {p : Nat}

theorem State.Trainable.of_eq (h : s.Trainable d p) (hp : (t.portsS d).length = (s.portsS d).length)
    (hl : t.rd LCS_PART_LINKS = s.rd LCS_PART_LINKS) : t.Trainable d p :=
  ⟨by rw [hp]; exact h.listed, by rw [hl]; exact h.fused⟩

theorem State.Trainable.setPort (h : s.Trainable d p) (q : Nat) (f : PortSt → PortSt) : (s.setPort d q f).Trainable d p :=
  h.of_eq (s.length_portsS_setPort d d q f) (s.setPort_rd ..)

theorem State.Trainable.wrS (h : s.Trainable d p) {q : Nat} {f : Fld} (hf : f ∈ linkFields (prtPgS d q)) (v : Nat) :
    (s.wrS d f v).Trainable d p := by
  refine h.of_eq (by rw [State.portsS_wrS]) ?_
  cases d
  · exact State.rd_wr_other s (links_ne_linkFields q hf) v
  · rfl

theorem State.Trainable.setIdle (h : s.Trainable d p) (q : Nat) (b : Bool) : (s.setIdle d q b).Trainable d p :=
  (h.setPort q _).of_eq (by rw [State.setIdle, State.portsS_emit]) rfl

theorem State.Trainable.within {A : List Area} (h : s.Trainable d p) (w : Within A s t) (hn : Area.ports ∉ A) (hm : Area.agPorts ∉ A)
    (hl : t.rd LCS_PART_LINKS = s.rd LCS_PART_LINKS) : t.Trainable d p :=
  h.of_eq (by rw [w.portsS_eq hn hm]) hl

theorem State.Trainable.discard (h : s.Trainable d p) (q : Nat) (c : Cell) (r : Nat) : (s.discard d q c r).Trainable d p :=
  h.within (State.discard_within (A := [.regs, .aregs, .flt, .agFlt]) (by decide) (by decide) (by decide) (by decide) d q c r (.refl _ s))
    (by decide) (by decide) ((FlipFrame.refl s).discard d q c r).links_eq

theorem State.Trainable.freeBuf (h : s.Trainable d p) (hold : Option (Nat × Nat)) : (s.freeBuf d hold).Trainable d p := by
  unfold State.freeBuf
  split
  · exact h
  · exact h.setPort ..

end

/-- The comparison with the Rod counts its mismatches in one register (R458). -/
theorem State.compareRod_regsBut (s : State) : RegsBut [GEN_ROD_MISMATCHES] s s.compareRod := by
  unfold State.compareRod
  extract_lets r ms
  set s₁ : State := (s.setBoot fun b => { b with mismatches := ms }).wr GEN_ROD_MISMATCHES ms.length
  have h₁ : RegsBut [GEN_ROD_MISMATCHES] s s₁ := (RegsBut.of_regs rfl).wr (List.mem_singleton_self _) _
  exact h₁.trans (.of_regs ((State.capReports_within (A := [.route]) (by decide) r (.refl _ s₁)).regs_eq (by decide)))

/-- The registers that a change of a link reaches: those of the Rod's comparison, of a running flip and of the pair (R113, R122, R434). -/
theorem State.linkChanged_regsBut (s : State) (d : Site) (p : Nat) :
    RegsBut [GEN_ROD_MISMATCHES, RTE_STAT_PENDING, PAR_STAT_COPY] s (s.linkChanged d p) := by
  unfold State.linkChanged
  split
  · exact .refl _ s
  extract_lets s₁ s₂ s₃
  have h₁ : RegsBut [GEN_ROD_MISMATCHES, RTE_STAT_PENDING, PAR_STAT_COPY] s s₁ :=
    .of_regs ((State.capUpdate_within (A := [.route]) (by decide) p (.refl _ s)).regs_eq (by decide))
  have h₂ : RegsBut [GEN_ROD_MISMATCHES, RTE_STAT_PENDING, PAR_STAT_COPY] s s₂ := by
    unfold s₂
    split
    · exact h₁.trans (s₁.compareRod_regsBut.mono (by simp))
    · exact h₁
  have h₃ : RegsBut [GEN_ROD_MISMATCHES, RTE_STAT_PENDING, PAR_STAT_COPY] s s₃ := by
    unfold s₃
    split
    · exact h₂.wr (by simp) 1
    · exact h₂
  split
  · split
    · split
      · exact h₃.trans (.of_regs rfl)
      · exact h₃
    · split
      · exact h₃
      · exact (h₃.wr (by simp) 3).trans (.of_regs (State.detect_regs ..))
  · exact h₃

/-- The first four stages send nothing (R76). -/
theorem State.startStage_early (s : State) (d : Site) (p : Nat) {n : Nat} (h : n < 5) :
    s.startStage d p n = s.setPort d p fun x => { x with stage := n, stageNs := s.nowS d, held := false } := by
  interval_cases n <;> rfl

/-- The port is in the first stage of a training attempt, its transmitter on (R76). -/
structure State.Training (s : State) (d : Site) (p : Nat) : Prop where
  state : s.prtState d p = 1
  stage : (s.port d p).stage = 1
  idle : (s.port d p).idle = false

theorem State.startAttempt_training {s : State} {d : Site} {p : Nat} (h : s.Trainable d p) : (s.startAttempt d p).Training d p := by
  have hne : ¬(d = .dz8 ∧ s.rd LCS_PART_LINKS ≤ p) := by
    rintro ⟨rfl, hle⟩
    rcases h.fused with h' | h'
    · cases h'
    · omega
  unfold State.startAttempt
  rw [if_neg hne]
  extract_lets s₁ s₂
  have h₂ : p < (s₂.portsS d).length := by simpa [s₂, s₁] using h.listed
  rw [State.startStage_early _ _ _ (by decide), State.setIdle]
  refine ⟨?_, ?_, ?_⟩
  · simp [State.prtState, PRT_STAT_STATE]
  · rw [State.port_setPort_same _ _ _ _ (by simpa using h₂)]
  · rw [State.port_setPort_same _ _ _ _ (by simpa using h₂), State.port_emit, State.port_setPort_same _ _ _ _ (by simpa using h₂)]

/-- An attempt writes STATE, WIDTH and ENCRYPTED of its port alone (R76, R95). -/
theorem State.rdS_startAttempt_other (s : State) {d : Site} {p : Nat} {f : Fld} (hs : f.key ≠ (PRT_STAT_STATE (prtPgS d p)).key)
    (hw : f.key ≠ (PRT_STAT_WIDTH (prtPgS d p)).key) (he : f.key ≠ (PRT_STAT_ENCRYPTED (prtPgS d p)).key) :
    (s.startAttempt d p).rdS d f = s.rdS d f := by
  unfold State.startAttempt
  split
  · rfl
  · rw [State.startStage_early _ _ _ (by decide), State.rdS_setPort, State.rdS_setIdle, State.rdS_wrS_other _ _ hs, State.rdS_wrS_other _ _ he,
      State.rdS_wrS_other _ _ hw, State.rdS_setPort]

/-! ### The loss of a link -/

/-- A lost link leaves the ports of the device and of the part. -/
theorem State.Trainable.loseLink {s : State} {d : Site} {p : Nat} (h : s.Trainable d p) (st : Nat) : (s.loseLink d p st).Trainable d p := by
  unfold State.loseLink
  extract_lets pg q s₁ s₂ s₃ s₄ s₅
  have h₁ : s₁.Trainable d p :=
    List.foldlRecOn (motive := fun u : State => u.Trainable d p) q _ h fun u hu e _ => (hu.freeBuf e.1).discard p e.2 rLINKDOWN
  have h₂ : s₂.Trainable d p :=
    h₁.within (State.deadLetter_within (A := [.regs, .aregs, .flt, .agFlt]) (by decide) (by decide) (by decide) (by decide) d _ _ (.refl _ s₁))
      (by decide) (by decide) ((FlipFrame.refl s₁).deadLetter ..).links_eq
  have h₄ : s₄.Trainable d p :=
    (((h₂.setPort p _).wrS (state_mem_linkFields pg) st).wrS (width_mem_linkFields pg) 0).wrS (encrypted_mem_linkFields pg) 0
  have h₅ : s₅.Trainable d p := by
    have w := State.dropCandidate_within (A := [.agTime]) (by decide) d p (.refl _ (s₄.setIdle d p true))
    exact (h₄.setIdle p true).within w (by decide) (by decide) (w.rd_eq (by decide) _)
  have w : Within [.regs, .route, .flt, .agFlt, .pair, .boot] s₅ ((s₅.detect d pg 6 p none).linkChanged d p) :=
    State.linkChanged_within (by decide) (by decide) (by decide) (by decide) (by decide) (by decide) d p
      (State.detect_within (by decide) (by decide) d pg 6 p none (.refl _ s₅))
  exact h₅.within w (by decide) (by decide) ((State.linkChanged_regsBut _ d p _ (by decide)).trans (State.rd_detect ..))

/-- A link that goes down in service starts its first new attempt at once (R80). -/
theorem State.linkDown_training {s : State} {d : Site} {p : Nat} (h : s.Trainable d p) (hc : s.carries d p = true) :
    (s.linkDown d p).Training d p := by
  rw [State.linkDown, if_pos hc]
  exact State.startAttempt_training (h.loseLink 1)

/-! ### TRAIN_RETRY, UNPARK, RETRAIN and PORT_DISABLE -/

section
variable (s : State) (d : Site) (p : Nat)

theorem State.prtState_wrS {f : Fld} (h : (PRT_STAT_STATE (prtPgS d p)).key ≠ f.key) (v : Nat) :
    (s.wrS d f v).prtState d p = s.prtState d p := s.rdS_wrS_other d h v

theorem State.carries_wrS {f : Fld} (h : (PRT_STAT_STATE (prtPgS d p)).key ≠ f.key) (v : Nat) :
    (s.wrS d f v).carries d p = s.carries d p := by
  rw [State.carries, State.carries, s.prtState_wrS d p h]

end

section
variable {s : State} {d : Site} {p : Nat}

theorem trainRetry_training (h : s.Trainable d p) (hs : s.prtState d p = 1) (hg : (s.port d p).stage = 0) :
    ∃ t, exec (.trainRetry d p) s = .next t ∧ t.Training d p := by
  refine ⟨s.startAttempt d p, ?_, State.startAttempt_training h⟩
  show execTrainRetry d p s = _
  rw [execTrainRetry, if_pos (by simp [hs, hg])]

theorem State.unparkPort_training (h : s.Trainable d p) (hs : s.prtState d p = 4) : (s.unparkPort d p).Training d p := by
  unfold State.unparkPort
  extract_lets s₁
  rw [if_pos ((s.prtState_wrS d p (state_ne_retryCnt _) 0).trans hs)]
  exact State.startAttempt_training (h.wrS (retryCnt_mem_linkFields _) 0)

theorem State.retrainPort_training (h : s.Trainable d p) (hs : s.prtState d p = 2) : (s.retrainPort d p).Training d p := by
  unfold State.retrainPort
  extract_lets s₁
  have hs₁ : s₁.prtState d p = 2 := (s.prtState_wrS d p (state_ne_retryCnt _) 0).trans hs
  have hc : s₁.carries d p = true := by simp [State.carries, hs₁]
  rw [if_neg (by omega), if_pos hc]
  exact State.linkDown_training (h.wrS (retryCnt_mem_linkFields _) 0) hc

/-- Disabling a port out of service puts it into electrical idle in state 5 (R95). -/
theorem State.disablePort_disabled (hp : p < (s.portsS d).length) (hc : s.carries d p = false) (hs : s.prtState d p ≠ 5) :
    (s.disablePort d p true).rdS d (PRT_CTRL_DISABLE (prtPgS d p)) = 1 ∧ (s.disablePort d p true).prtState d p = 5 ∧
      ((s.disablePort d p true).port d p).idle = true ∧ ((s.disablePort d p true).port d p).stage = 0 := by
  unfold State.disablePort
  extract_lets s₁ s₂
  have hc₁ : s₁.carries d p = false := (s.carries_wrS d p (state_ne_disable _) _).trans hc
  have hs₁ : s₁.prtState d p ≠ 5 := by rwa [s.prtState_wrS d p (state_ne_disable _)]
  have hp₁ : p < (s₁.portsS d).length := by simpa [s₁] using hp
  rw [if_pos rfl, if_neg (by simp [hc₁]), if_neg hs₁]
  have hport : s₂.port d p = { s.port d p with stage := 0, held := false, idle := true } := by
    unfold s₂
    rw [State.setIdle, State.port_emit, State.port_setPort_same _ _ _ _ (by simpa using hp₁), State.port_wrS,
      State.port_setPort_same _ _ _ _ hp₁, State.port_wrS]
  have hdis : s₂.rdS d (PRT_CTRL_DISABLE (prtPgS d p)) = 1 := by
    unfold s₂
    rw [State.rdS_setIdle, State.rdS_wrS_other _ _ (state_ne_disable _).symm, State.rdS_setPort, State.rdS_wrS_same]
    rfl
  have hstate : s₂.prtState d p = 5 := by
    unfold s₂
    rw [State.prtState, State.rdS_setIdle, State.rdS_wrS_same]
    rfl
  refine ⟨?_, ?_, ?_, ?_⟩
  · rw [State.rdS_wrS_other _ _ (disable_ne_encrypted _), State.rdS_wrS_other _ _ (disable_ne_width _), hdis]
  · rw [State.prtState_wrS _ _ _ (state_ne_encrypted _), State.prtState_wrS _ _ _ (state_ne_width _), hstate]
  · rw [State.port_wrS, State.port_wrS, hport]
  · rw [State.port_wrS, State.port_wrS, hport]

end

section
variable {s : State} {d : Site} {p : Nat}

/-- A port that is enabled again starts an attempt (R95). -/
theorem State.disablePort_enabled (h : s.Trainable d p) (hs : s.prtState d p = 5) :
    (s.disablePort d p false).rdS d (PRT_CTRL_DISABLE (prtPgS d p)) = 0 ∧ (s.disablePort d p false).Training d p := by
  unfold State.disablePort
  extract_lets s₁ _
  rw [if_neg Bool.false_ne_true, if_pos ((s.prtState_wrS d p (state_ne_disable _) _).trans hs)]
  refine ⟨?_, State.startAttempt_training (h.wrS (disable_mem_linkFields _) _)⟩
  rw [State.rdS_startAttempt_other _ (state_ne_disable _).symm (disable_ne_width _) (disable_ne_encrypted _), State.rdS_wrS_same]
  rfl

/-! ### The stages of an attempt -/

/-- A stage that sends nothing begins: the port stands in it, in the state it had (R76). -/
theorem State.startStage_stands (hp : p < (s.portsS d).length) {n : Nat} (hn : n < 5) :
    ((s.startStage d p n).port d p).stage = n ∧ (s.startStage d p n).prtState d p = s.prtState d p := by
  rw [State.startStage_early _ _ _ hn]
  exact ⟨by rw [State.port_setPort_same _ _ _ _ hp], s.rdS_setPort ..⟩

theorem State.equalised_portsS (s : State) (d : Site) (p : Nat) (r : StageResult) : (s.equalised d p r).portsS d = s.portsS d :=
  foldl_keeps (State.portsS · d) (fun u i => by rw [State.portsS_wrS, State.portsS_wrS]) _ s

theorem State.equalised_prtState (s : State) (d : Site) (p : Nat) (r : StageResult) : (s.equalised d p r).prtState d p = s.prtState d p := by
  have hlane (i : Nat) : (PRT_STAT_STATE (prtPgS d p)).key ≠ (PRT_LANE_POLINV (prtPgS d p) i).key ∧
      (PRT_STAT_STATE (prtPgS d p)).key ≠ (PRT_LANE_SNR (prtPgS d p) i).key := by
    simp only [Fld.key, PRT_STAT_STATE, PRT_LANE_POLINV, PRT_LANE_SNR]
    omega
  exact foldl_keeps (State.prtState · d p) (fun u i => by
    rw [State.prtState_wrS _ _ _ (hlane i).2, State.prtState_wrS _ _ _ (hlane i).1]) _ s

/-- Stages 1 to 3 lead to the next one (R76). -/
theorem State.stageDone_early (hp : p < (s.portsS d).length) (r : StageResult) (h₁ : 1 ≤ (s.port d p).stage) (h₃ : (s.port d p).stage ≤ 3) :
    ((s.stageDone d p r).port d p).stage = (s.port d p).stage + 1 ∧ (s.stageDone d p r).prtState d p = s.prtState d p := by
  unfold State.stageDone
  obtain h | h | h : (s.port d p).stage = 1 ∨ (s.port d p).stage = 2 ∨ (s.port d p).stage = 3 := by omega
  all_goals simp only [h]
  · exact State.startStage_stands hp (by decide)
  · have k := State.startStage_stands (s := s.equalised d p r) (d := d) (p := p) (by rwa [State.equalised_portsS]) (n := 3) (by decide)
    rwa [State.equalised_prtState] at k
  · have hrev : (PRT_STAT_STATE (prtPgS d p)).key ≠ (PRT_STAT_REVERSED (prtPgS d p)).key := by
      simp [Fld.key, PRT_STAT_STATE, PRT_STAT_REVERSED]
    have k := State.startStage_stands (s := s.wrS d (PRT_STAT_REVERSED (prtPgS d p)) (b2n r.reversed)) (d := d) (p := p)
      (by rwa [State.portsS_wrS]) (n := 4) (by decide)
    rwa [s.prtState_wrS d p hrev] at k

/-- A port in a stage is in training (R76). -/
theorem State.prtState_of_inStage (h : s.inStage d p = true) : s.prtState d p = 1 := by
  simp only [State.inStage, Bool.and_eq_true, beq_iff_eq] at h
  obtain ⟨⟨hs, -⟩, -⟩ := h
  exact hs

theorem trainStageDone_early (hp : p < (s.portsS d).length) (r : StageResult) (hi : s.inStage d p = true) (h₁ : 1 ≤ (s.port d p).stage)
    (h₃ : (s.port d p).stage ≤ 3) :
    ∃ t, exec (.trainStageDone d p r) s = .next t ∧ (t.port d p).stage = (s.port d p).stage + 1 ∧ t.prtState d p = 1 := by
  obtain ⟨hg, hst⟩ := State.stageDone_early hp r h₁ h₃
  refine ⟨s.stageDone d p r, ?_, hg, hst.trans (State.prtState_of_inStage hi)⟩
  show execTrainStageDone d p r s = _
  rw [execTrainStageDone, if_pos hi]

/-- A failed attempt below RETRY_MAX is counted, and the port waits for its retry (R79). -/
theorem State.failAttempt_counted (hp : p < (s.portsS d).length)
    (hn : s.rdS d (PRT_STAT_RETRY_CNT (prtPgS d p)) + 1 < s.rdS d (PRT_CTRL_RETRY_MAX (prtPgS d p)))
    (hm : s.rdS d (PRT_CTRL_RETRY_MAX (prtPgS d p)) < 256) (b : Bool) :
    ((s.failAttempt d p b).port d p).stage = 0 ∧
      (s.failAttempt d p b).rdS d (PRT_STAT_RETRY_CNT (prtPgS d p)) = s.rdS d (PRT_STAT_RETRY_CNT (prtPgS d p)) + 1 ∧
      (s.failAttempt d p b).prtState d p = s.prtState d p := by
  unfold State.failAttempt
  extract_lets pg n s₁ s₂ s₃ s₄
  have hp₁ : p < (s₁.portsS d).length := by simpa [s₁] using hp
  have hmax : s₂.rdS d (PRT_CTRL_RETRY_MAX pg) = s.rdS d (PRT_CTRL_RETRY_MAX pg) := by
    have hc : (PRT_CTRL_RETRY_MAX pg).key ≠ (PRT_STAT_RETRY_CNT pg).key := by simp only [Fld.key, PRT_CTRL_RETRY_MAX, PRT_STAT_RETRY_CNT]; omega
    have hw : (PRT_CTRL_RETRY_MAX pg).key ≠ (PRT_STAT_WIDTH pg).key := by simp only [Fld.key, PRT_CTRL_RETRY_MAX, PRT_STAT_WIDTH]; omega
    have he : (PRT_CTRL_RETRY_MAX pg).key ≠ (PRT_STAT_ENCRYPTED pg).key := by simp only [Fld.key, PRT_CTRL_RETRY_MAX, PRT_STAT_ENCRYPTED]; omega
    rw [State.rdS_wrS_other _ _ he, State.rdS_wrS_other _ _ hw, State.rdS_setPort, State.rdS_wrS_other _ _ hc]
  have hlt : n < 256 := hn.trans hm
  rw [if_neg (by rw [hmax]; exact Nat.not_le.2 hn)]
  refine ⟨?_, ?_, ?_⟩
  · rw [State.port_wrS, State.port_wrS, State.port_setPort_same _ _ _ _ hp₁]
  · rw [State.rdS_wrS_other _ _ (retryCnt_ne_encrypted _), State.rdS_wrS_other _ _ (retryCnt_ne_width _), State.rdS_setPort, State.rdS_wrS_same]
    show min n 255 % 2 ^ 8 = n
    omega
  · rw [State.prtState_wrS _ _ _ (state_ne_encrypted _), State.prtState_wrS _ _ _ (state_ne_width _), State.prtState, State.rdS_setPort]
    exact s.prtState_wrS d p (state_ne_retryCnt _) _

end

/-! ### Codewords -/

section
variable {s : State} {d : Site} {p : Nat}

theorem State.dropFrame_port (hp : p < (s.portsS d).length) : (s.dropFrame d p).port d p = { s.port d p with heldFrame := [] } := by
  unfold State.dropFrame
  rw [foldl_keeps (State.port · d p) (fun u c => Within.port_eq (A := [.regs, .aregs, .flt, .agFlt])
    (State.discard_within (by decide) (by decide) (by decide) (by decide) d p c rTAG (.refl _ u)) (by decide) (by decide) d p),
    State.port_setPort_same _ _ _ _ hp]

/-- A codeword with a good header shows its words and cells at the port, and leaves what waits to be sent (R69, R70). -/
theorem State.takeCodeword_port (hp : p < (s.portsS d).length) (h : Nat) (ps : List Position) :
    ((s.takeCodeword d p h ps).port d p).rxWords = positionWords ps ∧ ((s.takeCodeword d p h ps).port d p).rxCells = positionCells ps ∧
      ((s.takeCodeword d p h ps).port d p).rxSeq = bits h 9 6 ∧ ((s.takeCodeword d p h ps).port d p).queue = (s.port d p).queue := by
  unfold State.takeCodeword
  extract_lets s₁
  have h₁ := State.port_setPort_same s d p (fun x => { x with
    rxWords := positionWords ps, rxBofs := (positionBofs ps).getD x.rxBofs, rxCells := positionCells ps, rxSeq := bits h 9 6 }) hp
  split
  · rw [State.dropFrame_port (by simpa [s₁] using hp), h₁]
    exact ⟨rfl, rfl, rfl, rfl⟩
  · rw [h₁]
    exact ⟨rfl, rfl, rfl, rfl⟩

theorem codeword_taken (hp : p < (s.portsS d).length) {cw : Codeword} {w at_ : List Nat} (hr : rsDecode cw.symbols = some (w, at_))
    (hh : bits (messageOf (w.take 514)).1 5 0 = hchk (messageOf (w.take 514)).1) :
    ∃ t, exec (.codeword d p cw) s = .next t ∧ (t.port d p).rxWords = positionWords (messageOf (w.take 514)).2 ∧
      (t.port d p).rxCells = positionCells (messageOf (w.take 514)).2 ∧ (t.port d p).rxSeq = bits (messageOf (w.take 514)).1 9 6 ∧
      (t.port d p).queue = (s.port d p).queue := by
  set s₁ := s.countSymbols d p (s.laneErrors d p at_)
  have w₁ : Within [.regs, .aregs] s s₁ := State.countSymbols_within (by decide) (by decide) d p _ (.refl _ s)
  refine ⟨s₁.takeCodeword d p (messageOf (w.take 514)).1 (messageOf (w.take 514)).2, ?_, ?_⟩
  · show execCodeword d p cw s = _
    unfold execCodeword
    rw [hr]
    exact congrArg Host.Outcome.next (if_neg (not_not.2 hh))
  · rw [← w₁.port_eq (by decide) (by decide) d p]
    exact State.takeCodeword_port (by rwa [w₁.portsS_eq (by decide) (by decide)]) ..

theorem codeword_lost {cw : Codeword} (hr : rsDecode cw.symbols = none) : exec (.codeword d p cw) s = .next (s.lostCodeword d p) := by
  show execCodeword d p cw s = _
  unfold execCodeword
  rw [hr]

/-! ### CREDIT, SENT, PROBE and PROBE_REPLY words -/

theorem nth_map_range {n i : Nat} (h : i < n) (f : Nat → Nat) : nth ((List.range n).map f) i = f i := by
  simp [nth, List.getD_eq_getElem?_getD, h]

/-- A control word goes out in a control position of its own, before the codeword that it may complete (R68, R70). -/
theorem State.ctl_out (s : State) (d : Site) (p kind w : Nat) :
    (s.ctl d p kind w).out = (s.out ++ [.control d p (controlDesc [(kind, w)] 0 0 0) (controlSlots [(kind, w)])]) ++
      (s.ctl d p kind w).out.drop (s.out.length + 1) ∧ s.out.length < (s.ctl d p kind w).out.length := by
  have hsent := (State.putPosition_within (A := [.ports, .agPorts, .out]) (by decide) (by decide) (by decide) d p true
    (.refl _ (s.emit (.control d p (controlDesc [(kind, w)] 0 0 0) (controlSlots [(kind, w)]))))).kept.sent
  have hlen := hsent.length_le
  rw [State.emit_out, List.length_append, List.length_singleton] at hlen
  have heq := List.prefix_iff_eq_append.1 hsent
  rw [State.emit_out, List.length_append, List.length_singleton] at heq
  exact ⟨heq.symm, hlen⟩

theorem State.ctl_frame (s : State) (d : Site) (p kind w : Nat) : Within [.ports, .agPorts, .out] s (s.ctl d p kind w) :=
  State.ctl_within (by decide) (by decide) (by decide) d p kind w (.refl _ s)

/-- Before its sixteenth round trip a port only keeps the time of one more (R40). -/
theorem probeReplyWord_early (hp : p < (s.portsS d).length) (w : Word) (n : Nat) (hg : (s.port d p).stage = 6)
    (hl : (s.port d p).probes.length < 15) :
    exec (.probeReplyWord d p w n) s = .next (s.setPort d p fun x => { x with
      probes := x.probes ++ [((n % 2 ^ 32 + 2 ^ 32 - w.toNat / 2 ^ 32) % 2 ^ 32 - w.toNat % 2 ^ 32) / 2] }) := by
  show execProbeReplyWord d p w n s = _
  unfold execProbeReplyWord
  rw [if_pos ⟨hg, by omega⟩]
  extract_lets w' rt s₁
  rw [if_neg]
  rw [State.port_setPort_same _ _ _ _ hp, List.length_append, List.length_singleton]
  omega

end

/-! ### IDENT and PERIOD words -/

section
variable (s : State) (d : Site) (p : Nat)

/-- An update that leaves the hold of a port leaves it also where the device has no such port. -/
theorem State.held_setPort {f : PortSt → PortSt} (h : ∀ x, (f x).held = x.held) : ((s.setPort d p f).port d p).held = (s.port d p).held := by
  by_cases hp : p < (s.portsS d).length
  · rw [State.port_setPort_same _ _ _ _ hp, h]
  · rw [State.port, State.port, List.getD_eq_default _ _ (by simpa using hp), List.getD_eq_default _ _ (by simpa using hp)]

theorem State.releaseHold_idle {s : State} {d : Site} {p : Nat} (h : (s.port d p).held = false) : s.releaseHold d p = s := by
  rw [State.releaseHold, h]
  rfl

/-- The four fields that an IDENT word writes share no place, so each holds what was written there (R76). -/
theorem State.rdS_neighbour (pg fid port cls : Nat) (hf : fid < 2 ^ 14) (hq : port < 2 ^ 8) (hk : cls < 2 ^ 2) (t : State)
    (ht : t = (((s.wrS d (PRT_NEIGH_VALID pg) 1).wrS d (PRT_NEIGH_FID pg) fid).wrS d (PRT_NEIGH_PORT pg) port).wrS d (PRT_NEIGH_CLASS pg) cls) :
    t.rdS d (PRT_NEIGH_VALID pg) = 1 ∧ t.rdS d (PRT_NEIGH_FID pg) = fid ∧ t.rdS d (PRT_NEIGH_PORT pg) = port ∧
      t.rdS d (PRT_NEIGH_CLASS pg) = cls := by
  subst ht
  have hne {f g : Fld} (hf : f.addr = pg + 0x110) (hg : g.addr = pg + 0x110) (h : f.lo ≠ g.lo) : f.key ≠ g.key := by
    simp only [Fld.key, hf, hg]
    omega
  refine ⟨?_, ?_, ?_, ?_⟩
  · rw [State.rdS_wrS_other _ _ (hne rfl rfl (show 63 ≠ 32 by decide)), State.rdS_wrS_other _ _ (hne rfl rfl (show 63 ≠ 34 by decide)),
      State.rdS_wrS_other _ _ (hne rfl rfl (show 63 ≠ 42 by decide)), State.rdS_wrS_same]
    rfl
  · rw [State.rdS_wrS_other _ _ (hne rfl rfl (show 42 ≠ 32 by decide)), State.rdS_wrS_other _ _ (hne rfl rfl (show 42 ≠ 34 by decide)),
      State.rdS_wrS_same]
    exact Nat.mod_eq_of_lt hf
  · rw [State.rdS_wrS_other _ _ (hne rfl rfl (show 34 ≠ 32 by decide)), State.rdS_wrS_same]
    exact Nat.mod_eq_of_lt hq
  · rw [State.rdS_wrS_same]
    exact Nat.mod_eq_of_lt hk

/-- The neighbour that an IDENT word names (R71, R76). -/
theorem identWord_neighbour (w : Word) (hh : (s.port d p).held = false) :
    ∃ t, exec (.identWord d p w) s = .next t ∧ t.rdS d (PRT_NEIGH_VALID (prtPgS d p)) = 1 ∧
      t.rdS d (PRT_NEIGH_FID (prtPgS d p)) = bits w.toNat 63 50 ∧ t.rdS d (PRT_NEIGH_PORT (prtPgS d p)) = bits w.toNat 49 42 ∧
      t.rdS d (PRT_NEIGH_CLASS (prtPgS d p)) = bits w.toNat 41 40 := by
  refine ⟨_, rfl, ?_⟩
  extract_lets w' pg s₁ s₂ s₃ s₄
  have w₄ : Within [.flt, .agFlt] s₃ s₄ := by
    unfold s₄
    split
    · split
      · exact s₃.detect_frame ..
      · exact .refl _ s₃
    · exact .refl _ s₃
  have h₃ : (s₃.port d p).held = false :=
    (s₂.held_setPort d p (f := fun x => { x with farProv := bit w' 31 }) fun _ => rfl).trans (by simpa [s₂, s₁] using hh)
  rw [State.releaseHold_idle (by rw [w₄.port_eq (by decide) (by decide), h₃])]
  have h₄ (f : Fld) : s₄.rdS d f = s₂.rdS d f := (w₄.rdS_eq (by decide) (by decide) d f).trans (s₂.rdS_setPort ..)
  rw [h₄, h₄, h₄, h₄]
  exact s.rdS_neighbour d pg (bits w.toNat 63 50) (bits w.toNat 49 42) (bits w.toNat 41 40) (Nat.mod_lt _ (by decide))
    (Nat.mod_lt _ (by decide)) (Nat.mod_lt _ (by decide)) s₂ rfl

/-- The agent takes a PERIOD word of the port its time comes from (R39). -/
theorem periodWord_source (w : Word) (h : s.agTime.source = some p) :
    exec (.periodWord .agent p w) s = .next (s.setAgTime fun t => { t with pchg := some (bits w.toNat 13 0, bits w.toNat 61 14) }) :=
  congrArg Host.Outcome.next (if_pos h)

end

/-! ### Each word and each event of a port (O11) -/

section
variable {s : State} {d : Site} {p : Nat}

/-- The credits grow by what the CREDIT word says above the last one (R82). -/
theorem creditWord_credits (hp : p < (s.portsS d).length) (w : Word) :
    ∃ t, exec (.creditWord d p w) s = .next t ∧ t.regs = s.regs ∧ t.aregs = s.aregs ∧ (t.port d p).lastCredit = countsOf w.toNat ∧
      ∀ i < 4, nth (t.port d p).credits i =
        nth (s.port d p).credits i + (nth (countsOf w.toNat) i + 2 ^ 14 - nth (s.port d p).lastCredit i) % 2 ^ 14 := by
  refine ⟨_, rfl, ?_, ?_, ?_⟩
  · cases d <;> rfl
  · cases d <;> rfl
  · rw [State.port_setPort_same _ _ _ _ hp]
    exact ⟨rfl, fun i hi => nth_map_range hi fun i =>
      nth (s.port d p).credits i + (nth (countsOf w.toNat) i + 2 ^ 14 - nth (s.port d p).lastCredit i) % 2 ^ 14⟩

/-- What the SENT word says above the count received was lost: it is freed again (R83). -/
theorem sentWord_freed (hp : p < (s.portsS d).length) (w : Word) :
    ∃ t, exec (.sentWord d p w) s = .next t ∧ (t.port d p).received = countsOf w.toNat ∧
      ∀ i < 4, nth (t.port d p).freed i =
        (nth (s.port d p).freed i + (nth (countsOf w.toNat) i + 2 ^ 14 - nth (s.port d p).received i) % 2 ^ 14) % 2 ^ 14 := by
  refine ⟨_, rfl, ?_⟩
  extract_lets n x lost
  rw [State.bumpS, State.port_wrS, State.port_setPort_same _ _ _ _ hp]
  refine ⟨rfl, fun i hi => (nth_map_range hi fun i => (nth (s.port d p).freed i + nth lost i) % 2 ^ 14).trans ?_⟩
  rw [show nth lost i = _ from nth_map_range hi fun i => (nth n i + 2 ^ 14 - nth x.received i) % 2 ^ 14]

theorem trainStageTimeout_counted (hp : p < (s.portsS d).length) (hi : s.inStage d p = true)
    (hn : s.rdS d (PRT_STAT_RETRY_CNT (prtPgS d p)) + 1 < s.rdS d (PRT_CTRL_RETRY_MAX (prtPgS d p)))
    (hm : s.rdS d (PRT_CTRL_RETRY_MAX (prtPgS d p)) < 256) :
    ∃ t, exec (.trainStageTimeout d p) s = .next t ∧ (t.port d p).stage = 0 ∧
      t.rdS d (PRT_STAT_RETRY_CNT (prtPgS d p)) = s.rdS d (PRT_STAT_RETRY_CNT (prtPgS d p)) + 1 ∧ t.prtState d p = 1 := by
  obtain ⟨hg, hc, hs⟩ := State.failAttempt_counted hp hn hm false
  refine ⟨s.failAttempt d p false, ?_, hg, hc, hs.trans (State.prtState_of_inStage hi)⟩
  show execTrainStageTimeout d p s = _
  rw [execTrainStageTimeout, if_pos hi]

end

/-- A control word is one more message, and it reaches no register (R68, R70). -/
theorem probeWord_sent (s : State) (d : Site) (p : Nat) (w : Word) (n : Nat) :
    ∃ t, exec (.probeWord d p w n) s = .next t ∧ t.out = (s.out ++ [.control d p (controlDesc [(6, w.toNat % 2 ^ 32 * 2 ^ 32 + n % 2 ^ 32)] 0 0 0)
      (controlSlots [(6, w.toNat % 2 ^ 32 * 2 ^ 32 + n % 2 ^ 32)])]) ++ t.out.drop (s.out.length + 1) ∧ s.out.length < t.out.length ∧
      t.regs = s.regs ∧ t.aregs = s.aregs := by
  have w' := s.ctl_frame d p 6 (w.toNat % 2 ^ 32 * 2 ^ 32 + n % 2 ^ 32)
  obtain ⟨hout, hlen⟩ := s.ctl_out d p 6 (w.toNat % 2 ^ 32 * 2 ^ 32 + n % 2 ^ 32)
  exact ⟨_, rfl, hout, hlen, w'.regs_eq (by decide), w'.aregs_eq (by decide)⟩

theorem probeReplyWord_kept {s : State} {d : Site} {p : Nat} (hp : p < (s.portsS d).length) (w : Word) (n : Nat) (hg : (s.port d p).stage = 6)
    (hl : (s.port d p).probes.length < 15) :
    ∃ t, exec (.probeReplyWord d p w n) s = .next t ∧ (t.port d p).probes = (s.port d p).probes ++
      [((n % 2 ^ 32 + 2 ^ 32 - w.toNat / 2 ^ 32) % 2 ^ 32 - w.toNat % 2 ^ 32) / 2] ∧ t.regs = s.regs ∧ t.aregs = s.aregs := by
  refine ⟨_, probeReplyWord_early hp w n hg hl, ?_, ?_, ?_⟩
  · rw [State.port_setPort_same _ _ _ _ hp]
  · cases d <;> rfl
  · cases d <;> rfl

/-- Settles O11: each case is the effect of its command, within the parts of its row (`exec_reach`). -/
theorem portWords : Obligations.PortWords := by
  unfold Obligations.PortWords
  refine ⟨?_, ?_, ?_, ?_, ?_, ?_, ?_, ?_, ?_, ?_, ?_, ?_, ?_, ?_, ?_, ?_, ?_, ?_⟩
  · intro s d p cw w at_ hp hr hh
    obtain ⟨t, he, h⟩ := codeword_taken hp hr hh
    exact (exec_reach _ s).next he h
  · intro s d p cw hr
    exact (exec_reach _ s).next (codeword_lost hr) rfl
  · intro s d p w hp
    obtain ⟨t, he, h⟩ := creditWord_credits hp w
    exact (exec_reach _ s).next he h
  · intro s d p w hp
    obtain ⟨t, he, h⟩ := sentWord_freed hp w
    exact (exec_reach _ s).next he h
  · intro s d p w n
    obtain ⟨t, he, h⟩ := probeWord_sent s d p w n
    exact (exec_reach _ s).next he h
  · intro s d p w n hp hg hl
    obtain ⟨t, he, h⟩ := probeReplyWord_kept hp w n hg hl
    exact (exec_reach _ s).next he h
  · intro s d p w hh
    obtain ⟨t, he, h⟩ := identWord_neighbour s d p w hh
    exact (exec_reach _ s).next he h
  · intro s p w h
    exact (exec_reach _ s).next (periodWord_source s p w h) ⟨rfl, rfl⟩
  · intro s p w
    exact ⟨s, rfl, .refl _ s, rfl⟩
  · intro s d p r hp hi h₁ h₃
    obtain ⟨t, he, h⟩ := trainStageDone_early hp r hi h₁ h₃
    exact (exec_reach _ s).next he h
  · intro s d p hp hi hn hm
    obtain ⟨t, he, h⟩ := trainStageTimeout_counted hp hi hn hm
    exact (exec_reach _ s).next he h
  · intro s d p hp hl hs hg
    obtain ⟨t, he, h⟩ := trainRetry_training ⟨hp, hl⟩ hs hg
    exact (exec_reach _ s).next he ⟨h.state, h.stage, h.idle⟩
  · intro s d p hp hl hs
    have h := State.unparkPort_training ⟨hp, hl⟩ hs
    exact (exec_reach (.unpark d p) s).next rfl ⟨h.state, h.stage, h.idle⟩
  · intro s d p hp hl hs
    have h := State.retrainPort_training ⟨hp, hl⟩ hs
    exact (exec_reach (.retrain d p) s).next rfl ⟨h.state, h.stage, h.idle⟩
  · intro s d p hp hl hc
    have h := State.linkDown_training ⟨hp, hl⟩ hc
    exact (exec_reach (.noCorrectableCodeword d p) s).next rfl ⟨h.state, h.stage, h.idle⟩
  · intro s d p hp hl hc
    have h := State.linkDown_training ⟨hp, hl⟩ hc
    exact (exec_reach (.electricalIdleDetect d p) s).next rfl ⟨h.state, h.stage, h.idle⟩
  · intro s d p hp hc hs
    exact (exec_reach (.portDisable d p true) s).next rfl (State.disablePort_disabled hp hc hs)
  · intro s d p hp hl hs
    obtain ⟨hdis, h⟩ := State.disablePort_enabled ⟨hp, hl⟩ hs
    exact (exec_reach (.portDisable d p false) s).next rfl ⟨hdis, h.state, h.stage⟩

end Sys2Proof.Machine
end

section
/-! The counts of CREDIT and SENT words after a lost word, and O6 (R82). -/

namespace Sys2Proof.Machine

/-! ### Counts modulo 2^14 -/

/-- A control word gives each count 14 bits (R82). -/
theorem nth_countsOf_lt (w : Nat) {i : Nat} (hi : i < 4) : nth (countsOf w) i < 2 ^ 14 := by
  rw [countsOf, nth_map_range hi, bits, show 14 * i + 13 + 1 - 14 * i = 14 by omega]
  exact Nat.mod_lt _ (by decide)

/-- The way from one count to another is, modulo 2^14, the way over any count between. -/
theorem countGap_add {l v : Nat} (w : Nat) (hl : l < 2 ^ 14) (hv : v < 2 ^ 14) :
    ((v + 2 ^ 14 - l) % 2 ^ 14 + (w + 2 ^ 14 - v) % 2 ^ 14) % 2 ^ 14 = (w + 2 ^ 14 - l) % 2 ^ 14 := by
  omega

/-! ### A word after another -/

section
variable {s t : State} {d : Site} {p : Nat} {w : Word}

theorem creditWord_portsS_length (h : exec (.creditWord d p w) s = .next t) : (t.portsS d).length = (s.portsS d).length := by
  obtain rfl := Host.Outcome.next.inj h
  exact s.length_portsS_setPort ..

theorem sentWord_portsS_length (h : exec (.sentWord d p w) s = .next t) : (t.portsS d).length = (s.portsS d).length := by
  obtain rfl := Host.Outcome.next.inj h
  rw [State.bumpS, State.portsS_wrS, State.length_portsS_setPort]

end

section
variable {s : State} {d : Site} {p : Nat}

/-- Two CREDIT words leave the credits that the second one alone leaves, as long as together they add less than a whole turn of the
count. -/
theorem creditWord_makesGood (hp : p < (s.portsS d).length) (v w : Word) (hl : ∀ i < 4, nth (s.port d p).lastCredit i < 2 ^ 14)
    (hsum : ∀ i < 4, (nth (countsOf v.toNat) i + 2 ^ 14 - nth (s.port d p).lastCredit i) % 2 ^ 14 +
      (nth (countsOf w.toNat) i + 2 ^ 14 - nth (countsOf v.toNat) i) % 2 ^ 14 < 2 ^ 14) :
    ∃ t u r, exec (.creditWord d p v) s = .next t ∧ exec (.creditWord d p w) t = .next u ∧ exec (.creditWord d p w) s = .next r ∧
      ∀ i < 4, nth (u.port d p).credits i = nth (r.port d p).credits i ∧ nth (u.port d p).lastCredit i = nth (r.port d p).lastCredit i := by
  obtain ⟨t, ht, -, -, htLast, htCredits⟩ := creditWord_credits hp v
  have hpt : p < (t.portsS d).length := by rwa [creditWord_portsS_length ht]
  obtain ⟨u, hu, -, -, huLast, huCredits⟩ := creditWord_credits hpt w
  obtain ⟨r, hr, -, -, hrLast, hrCredits⟩ := creditWord_credits hp w
  refine ⟨t, u, r, ht, hu, hr, fun i hi => ⟨?_, by rw [huLast, hrLast]⟩⟩
  rw [huCredits i hi, htCredits i hi, hrCredits i hi, htLast, Nat.add_assoc,
    ← countGap_add (nth (countsOf w.toNat) i) (hl i hi) (nth_countsOf_lt v.toNat hi), Nat.mod_eq_of_lt (hsum i hi)]

/-- Two SENT words free what the second one alone frees: FREED itself counts modulo 2^14. -/
theorem sentWord_makesGood (hp : p < (s.portsS d).length) (v w : Word) (hl : ∀ i < 4, nth (s.port d p).received i < 2 ^ 14) :
    ∃ t u r, exec (.sentWord d p v) s = .next t ∧ exec (.sentWord d p w) t = .next u ∧ exec (.sentWord d p w) s = .next r ∧
      ∀ i < 4, nth (u.port d p).freed i = nth (r.port d p).freed i ∧ nth (u.port d p).received i = nth (r.port d p).received i := by
  obtain ⟨t, ht, htReceived, htFreed⟩ := sentWord_freed hp v
  have hpt : p < (t.portsS d).length := by rwa [sentWord_portsS_length ht]
  obtain ⟨u, hu, huReceived, huFreed⟩ := sentWord_freed hpt w
  obtain ⟨r, hr, hrReceived, hrFreed⟩ := sentWord_freed hp w
  refine ⟨t, u, r, ht, hu, hr, fun i hi => ⟨?_, by rw [huReceived, hrReceived]⟩⟩
  rw [huFreed i hi, htFreed i hi, hrFreed i hi, htReceived, Nat.mod_add_mod, Nat.add_assoc, ← Nat.add_mod_mod,
    countGap_add (nth (countsOf w.toNat) i) (hl i hi) (nth_countsOf_lt v.toNat hi)]

end

/-- Settles O6: the ways between counts add up modulo 2^14 (`countGap_add`), so the next word makes good a lost one. -/
theorem countsAreCumulative : Obligations.CountsAreCumulative := by
  unfold Obligations.CountsAreCumulative
  refine ⟨?_, ?_, ?_⟩
  · intro s d p w hp
    obtain ⟨t, ht, -, -, hlast, hcredits⟩ := creditWord_credits hp w
    exact ⟨t, ht, fun i hi => ⟨by rw [hlast], hcredits i hi⟩⟩
  · intro s d p v w hp hl hsum
    exact creditWord_makesGood hp v w hl hsum
  · intro s d p v w hp hl
    exact sentWord_makesGood hp v w hl

end Sys2Proof.Machine
end

section
/-! Cells placed in the memory of the host chip, and O13 (R89, R90, R104, R468, R483, R490). -/

namespace Sys2Proof.Machine

/-! ### Payloads and tables -/

@[simp] theorem leBytes_length (n x : Nat) : (leBytes n x).length = n := by
  induction n generalizing x with
  | zero => rfl
  | succ n ih => rw [leBytes, List.length_cons, ih]

/-- A cell carries 48 bytes (R60). -/
@[simp] theorem cellPayload_length (c : Cell) : (cellPayload c).length = 48 := by simp [cellPayload]

@[simp] theorem tget_tset_same (t : Table) (k v : Nat) : tget (tset t k v) k = v := kget_kset_same ..
theorem tget_tset_other (t : Table) {k k' : Nat} (h : k' ≠ k) (v : Nat) : tget (tset t k v) k' = tget t k' := kget_kset_other t h ..

/-! ### Writes to the memory of the host chip -/

section
variable (s : State) (h o : Nat) (bs : List Byte)

theorem State.hostWrite_hostMem : (s.hostWrite h o bs).ag.hostMem = mwrite s.ag.hostMem (s.handleBase h + o) bs := rfl

/-- A write through a handle puts its bytes in order from its place on. -/
theorem State.mget_hostWrite_same {i : Nat} (hi : i < bs.length) :
    mget (s.hostWrite h o bs).ag.hostMem (s.handleBase h + o + i) = bs.getD i 0 := by
  rw [State.hostWrite_hostMem, mget_mwrite_same _ _ _ _ hi, List.getD_eq_getElem _ _ hi]

theorem State.mget_hostWrite_other {a : Nat} (ha : a < s.handleBase h + o ∨ s.handleBase h + o + bs.length ≤ a) :
    mget (s.hostWrite h o bs).ag.hostMem a = mget s.ag.hostMem a := mget_mwrite_other _ _ _ _ ha

end

/-! ### PUT, RESULT and restore cells -/

section
variable {s : State} {c : Cell}

/-- A cell that fits its bound buffer and is not one too many is placed and counted (R90, R481). -/
theorem State.placeAg_placed (p : Nat) {k : AgCounter} (hk : s.ag.counters.find? (fun x => x.cidx == c.cidx) = some k)
    (hfits : c.offset + 48 ≤ k.len) (hcount : k.count < k.expect) :
    s.placeAg p c = (s.hostWrite k.handle (k.segment + c.offset) (cellPayload c)).setAg fun a => { a with
      counters := a.counters.map fun x => if x.cidx == c.cidx then { x with count := x.count + 1 } else x } := by
  simp only [State.placeAg, hk, if_neg (Nat.not_lt.2 hfits), if_neg (Nat.not_le.2 hcount)]

/-- What is not a PUT of a DZ8 belongs to a bound counter (R90, R490). -/
theorem State.dataCell_bound (p : Nat) (he : s.epochGood .agent c = true) (hr : (c.type == tPUT && decide (0xFE ≤ c.src % 256)) = false) :
    s.dataCell p c = s.placeAg p c := by
  rw [State.dataCell, he, hr]
  rfl

/-- The bytes, the other bytes and the counters after a PUT or RESULT cell that is placed (R89, R90). -/
theorem State.dataCell_placed (p : Nat) {k : AgCounter} (he : s.epochGood .agent c = true)
    (hr : (c.type == tPUT && decide (0xFE ≤ c.src % 256)) = false) (hk : s.ag.counters.find? (fun x => x.cidx == c.cidx) = some k)
    (hfits : c.offset + 48 ≤ k.len) (hcount : k.count < k.expect) :
    (∀ i < 48, mget (s.dataCell p c).ag.hostMem (s.handleBase k.handle + (k.segment + c.offset) + i) = (cellPayload c).getD i 0) ∧
      (∀ a, (a < s.handleBase k.handle + (k.segment + c.offset) ∨ s.handleBase k.handle + (k.segment + c.offset) + 48 ≤ a) →
        mget (s.dataCell p c).ag.hostMem a = mget s.ag.hostMem a) ∧
      ((s.dataCell p c).ag.counters = s.ag.counters.map fun x => if x.cidx == c.cidx then { x with count := x.count + 1 } else x) ∧
      (s.dataCell p c).aregs = s.aregs := by
  rw [State.dataCell_bound p he hr, State.placeAg_placed p hk hfits hcount]
  refine ⟨fun i hi => ?_, fun a ha => ?_, rfl, rfl⟩
  · exact s.mget_hostWrite_same k.handle (k.segment + c.offset) (cellPayload c) (by rwa [cellPayload_length])
  · exact s.mget_hostWrite_other k.handle (k.segment + c.offset) (cellPayload c) (by rwa [cellPayload_length])

/-- At the DZ8 no counter is bound, so a good cell is discarded with CIDX (R90, R134; log entry 109). -/
theorem State.strayCell_cidx (p : Nat) (he : s.epochGood .dz8 c = true) : s.strayCell p c = s.discard .dz8 p c rCIDX := by
  rw [State.strayCell, he]
  rfl

/-- A restore cell that fits the snapshot handle and its chunk is placed at its offset `o` and counted in its chunk `k` and in TTB_RSTAT
(R490). -/
theorem State.restore_placed (p : Nat) {o k : Nat} (ho : c.cidx % 2 ^ 12 * 2 ^ 32 + c.offset = o) (hk : o / chunkBytes = k)
    (hfits : o + 48 ≤ s.handleLen 0xFFF) (hroom : tget s.ag.chunks k < 1048576) :
    s.restore p c false = ((s.hostWrite 0xFFF o (cellPayload c)).setAg fun a => { a with
      chunks := tset a.chunks k (tget a.chunks k + 1) }).abump Ia.TTB_RSTAT_CELLS 1 := by
  subst ho hk
  rw [State.restore, if_neg (Nat.not_lt.2 hfits), if_neg (Nat.not_le.2 hroom), if_neg Bool.false_ne_true]

/-- The bytes, the count of the chunk and the registers after a restore cell that is placed (R490). -/
theorem State.restore_effect (p : Nat) {o k : Nat} (ho : c.cidx % 2 ^ 12 * 2 ^ 32 + c.offset = o) (hk : o / chunkBytes = k)
    (hfits : o + 48 ≤ s.handleLen 0xFFF) (hroom : tget s.ag.chunks k < 1048576) :
    (∀ i < 48, mget (s.restore p c false).ag.hostMem (s.handleBase 0xFFF + o + i) = (cellPayload c).getD i 0) ∧
      tget (s.restore p c false).ag.chunks k = tget s.ag.chunks k + 1 ∧ AregsBut [Ia.TTB_RSTAT_CELLS] s (s.restore p c false) := by
  rw [State.restore_placed p ho hk hfits hroom]
  refine ⟨fun i hi => ?_, ?_, ?_⟩
  · exact s.mget_hostWrite_same 0xFFF o (cellPayload c) (by rwa [cellPayload_length])
  · exact tget_tset_same s.ag.chunks k (tget s.ag.chunks k + 1)
  · exact AregsBut.abump (.of_aregs rfl) (List.mem_singleton_self _) 1

theorem restoreCell_restores (he : s.epochGood .agent c = true) (b : Bool) :
    exec (.restoreCell c b) s = .next (s.restore 0 c b) :=
  congrArg Host.Outcome.next (if_pos he)

end

/-! ### Events -/

/-- An event takes the last place of a queue with room and holds its type from bit 60 on (R482). -/
theorem State.agEvent_queued {s : State} (hroom : s.ag.events.length < 64) (type cause iter step : Nat) :
    (∃ e, (s.agEvent type cause iter step).ag.events = s.ag.events ++ [e] ∧ e / 2 ^ 60 = type) ∧
      (s.agEvent type cause iter step).aregs = s.aregs := by
  rw [State.agEvent, if_pos hroom]
  exact ⟨⟨_, rfl, by omega⟩, rfl⟩

/-- Settles O13: each case is the effect of its command, within the parts of its row (`exec_reach`). What the DZ8 does with PUT and RESULT
is log entry 109, the count after BUFFER_ERROR log entry 110. -/
theorem agentCells : Obligations.AgentCells := by
  unfold Obligations.AgentCells
  refine ⟨?_, ?_, ?_, ?_, ?_, ?_, ?_, ?_⟩
  · intro s p c k he hr hk hfits hcount
    exact (exec_reach (.putCell .agent p c) s).next rfl (State.dataCell_placed p he hr hk hfits hcount)
  · intro s p c he
    exact (exec_reach (.putCell .dz8 p c) s).next rfl (State.strayCell_cidx p he)
  · intro s p c k he hr hk hfits hcount
    exact (exec_reach (.resultCell .agent p c) s).next rfl (State.dataCell_placed p he hr hk hfits hcount)
  · intro s p c he
    exact (exec_reach (.resultCell .dz8 p c) s).next rfl (State.strayCell_cidx p he)
  · intro s c he hfits hroom
    exact (exec_reach _ s).next (restoreCell_restores he false) (State.restore_effect 0 rfl rfl hfits hroom)
  · intro s n
    refine (exec_reach (.bufferError n) s).next rfl ⟨?_, ?_⟩
    · rw [(State.detect_frame ..).ag_eq (by decide)]
      rfl
    · rw [(State.detect_frame ..).ag_eq (by decide)]
      rfl
  · intro s
    exact (exec_reach .rchunkClear s).next rfl ⟨tget_tset_same s.ag.chunks _ 0, fun i hi => tget_tset_other s.ag.chunks hi 0⟩
  · intro s hroom
    exact (exec_reach .rstatEnd s).next rfl (State.agEvent_queued hroom 8 0 _ _)

end Sys2Proof.Machine
end

section
/-! The quiet state, poll rounds, the flip record, COMMIT and ABORT: one lemma per case of a command, and O31 (R115 to R119, R121, R123). -/

namespace Sys2Proof.Machine

/-! ### Cells of the unit's own -/

/-- The register fields that a cell of the unit's own may count in: cells forwarded and escaped, and the records of a discarded one. -/
def ownCellRegs : List Fld :=
  [onDie 0 RTE_FLIPSTAT_FWD, onDie 1 RTE_FLIPSTAT_FWD, onDie 0 RTE_ESCCNT_FAILOVER, onDie 1 RTE_ESCCNT_FAILOVER, RTE_DISC_GEN, RTE_DISC_EPOCH,
   RTE_DISC_NOROUTE, FLT_DLL_HEAD_HEAD (dllPg 0), FLT_DLL_HEAD_WRAPPED (dllPg 0), FLT_DLL_HEAD_OVERFLOW (dllPg 0)]

theorem forwarded_mem_ownCellRegs (p : Nat) : rteOf .dz8 p RTE_FLIPSTAT_FWD ∈ ownCellRegs := by
  rcases portDie_eq p with h | h <;> simp [rteOf, h, ownCellRegs]

theorem escaped_mem_ownCellRegs (p : Nat) : rteOf .dz8 p RTE_ESCCNT_FAILOVER ∈ ownCellRegs := by
  rcases portDie_eq p with h | h <;> simp [rteOf, h, ownCellRegs]

theorem reasonDisc_mem_ownCellRegs {r : Nat} {f : Fld} (h : reasonDisc r = some f) : f ∈ ownCellRegs :=
  (by decide : ∀ f ∈ [RTE_FLIPSTAT_FWD, RTE_ESCCNT_FAILOVER, RTE_DISC_GEN, RTE_DISC_EPOCH, RTE_DISC_NOROUTE], f ∈ ownCellRegs) f
    (FlipFrame.reasonDisc_mem h)

section
variable (s : State) (c : Cell)

theorem State.deadLetter_regsBut (e : DeadLetter) : RegsBut ownCellRegs s (s.deadLetter .dz8 0 e) := by
  unfold State.deadLetter
  extract_lets die pg ring head s₁ s₂ s₃
  have h₂ : RegsBut ownCellRegs s s₂ := .wr (.of_regs rfl) (by decide) _
  have h₃ : RegsBut ownCellRegs s s₃ := by
    unfold s₃
    split
    · exact h₂.wr (by decide) 1
    · exact h₂
  split
  · exact h₃
  · exact h₃.bump (by decide) 1

theorem State.discardOwn_regsBut (reason : Nat) : RegsBut ownCellRegs s (s.discardOwn .dz8 c reason) := by
  unfold State.discardOwn
  extract_lets s₁
  have h₁ : RegsBut ownCellRegs s s₁ := s.deadLetter_regsBut _
  split
  · exact h₁.bump (reasonDisc_mem_ownCellRegs ‹_›) 1
  · exact h₁

theorem State.enqueue_regs (d : Site) (p : Nat) (hold : Option (Nat × Nat)) : (s.enqueue d p hold c).regs = s.regs :=
  (State.enqueue_within (A := [.ports, .agPorts]) (by decide) (by decide) d p hold c (.refl _ s)).regs_eq (by decide)

theorem State.forward_regsBut (p : Nat) (x : Cell) : RegsBut ownCellRegs s ((s.countFwd .dz8 p c).enqueue .dz8 p none x) := by
  refine RegsBut.trans (t := s.countFwd .dz8 p c) ?_ (.of_regs (State.enqueue_regs ..))
  unfold State.countFwd
  split
  · exact .refl _ s
  · exact (RegsBut.refl _ s).bump (forwarded_mem_ownCellRegs p) 1

theorem State.deliver_regsBut : RegsBut ownCellRegs s (s.deliver .dz8 none c) := by
  unfold State.deliver
  extract_lets s₁
  split
  · exact s.discardOwn_regsBut c _
  · exact .of_regs rfl

/-- A cell of the unit's own counts in the fields of `ownCellRegs` alone (R103, R108, R116). -/
theorem State.send_regsBut : RegsBut ownCellRegs s (s.send .dz8 c) := by
  unfold State.send State.routeCell
  extract_lets e s₁
  split
  · exact s.discardOwn_regsBut c _
  split
  · exact s.deliver_regsBut c
  split
  · split
    · exact s.forward_regsBut c _ _
    · exact s.discardOwn_regsBut c _
  split
  · exact s.forward_regsBut c _ _
  split
  · exact ((RegsBut.refl _ s).bump (escaped_mem_ownCellRegs _) 1).trans (s₁.forward_regsBut c _ _)
  · exact s.discardOwn_regsBut c _

theorem State.send_route (d : Site) : (s.send d c).route = s.route :=
  (State.send_within (A := [.regs, .aregs, .ports, .agPorts, .flt, .agFlt, .out]) (by decide) (by decide) (by decide) (by decide) (by decide)
    (by decide) (by decide) d c (.refl _ s)).route_eq (by decide)

end

/-! ### Poll rounds -/

section
variable (s : State)

theorem State.pollReads_regsBut : RegsBut ownCellRegs s s.pollReads :=
  List.foldlRecOn (motive := fun u => RegsBut ownCellRegs s u) s.polled _ (.refl _ s) fun u hu _ _ =>
    hu.trans ((u.send_regsBut _).trans (.of_regs rfl))

theorem State.pollReads_phase : s.pollReads.rd RTE_STAT_PHASE = s.rd RTE_STAT_PHASE := s.pollReads_regsBut _ (by decide)

theorem State.pollReads_record : s.pollReads.route.record = s.route.record := by
  unfold State.pollReads
  refine foldl_keeps (fun u => u.route.record) (fun u f => ?_) _ s
  rw [State.setRoute_route, State.send_route]

/-- The flip record that is written stands in the state; of the routes only its bookkeeping changes besides (R123). -/
theorem State.putRecord_route (r : FlipRecord) :
    (s.putRecord r).route.record = some r ∧ (s.putRecord r).route.lastRound = s.route.lastRound := by
  unfold State.putRecord
  extract_lets s₁ bs s₂ b s₃
  split
  · exact ⟨rfl, rfl⟩
  split
  · exact ⟨rfl, rfl⟩
  · have w := State.parwr_within (A := [.regs, .aregs, .ports, .agPorts, .flt, .agFlt]) (by decide) (by decide) (by decide) (by decide) (by decide)
      (by decide) s₃.ledgerCarriers b 8 0x80 0 bs (.refl _ s₃)
    rw [State.setPair_route, w.route_eq (by decide)]
    exact ⟨rfl, rfl⟩

theorem State.recordTo_route {r : FlipRecord} (hr : s.route.record = some r) (st : RecState) :
    (s.recordTo st).route.record = some { r with state := st } ∧ (s.recordTo st).route.lastRound = s.route.lastRound := by
  rw [State.recordTo, hr]
  exact s.putRecord_route _

/-- The state of a quiet coordinator after the reads of a poll round: DRAIN once every timetable has paused (R116, R118). -/
def State.polledRound (s : State) (all : List FlipReport) : State :=
  (if s.allPaused .dz8 then s.wr RTE_STAT_PHASE 4 else s).pollReads.setRoute fun r => { r with lastRound := all }

/-- COMMIT_ISSUED is written, with the chips that the decision leaves out (R118 step 5, R123). -/
def State.issueCommit (s : State) : State :=
  (s.setRoute fun r => { r with leftOut := (s.domainChips s.theRod).filter fun f => f != s.fid && s.chipCut f }).recordTo .commitIssued

theorem State.issueCommit_route {r : FlipRecord} (hr : s.route.record = some r) :
    s.issueCommit.route.record = some { r with state := .commitIssued } ∧ s.issueCommit.route.lastRound = s.route.lastRound := by
  refine State.recordTo_route (s.setRoute _) ?_ .commitIssued
  exact hr

theorem State.polledRound_phase (hp : s.allPaused .dz8 = true) (all : List FlipReport) : (s.polledRound all).rd RTE_STAT_PHASE = 4 := by
  rw [State.polledRound, if_pos hp]
  exact (State.pollReads_phase _).trans (State.rd_wr_same ..)

theorem State.polledRound_record (all : List FlipReport) : (s.polledRound all).route.record = s.route.record := by
  refine (State.pollReads_record _).trans ?_
  split <;> rfl

end

section
variable {s : State} {l : List FlipReport}

theorem pollRound_undrained (hp : s.rd RTE_STAT_PHASE = 3 ∨ s.rd RTE_STAT_PHASE = 4) (hq : s.quiet .dz8 = true)
    (hd : drainComplete s.reporters s.route.lastRound (s.ownReport :: l) = false) :
    exec (.pollRound l) s = .next (s.polledRound (s.ownReport :: l)) := by
  show execPollRound l s = _
  unfold execPollRound
  simp only [hd, Bool.false_and]
  rw [if_pos ⟨hp, hq⟩]
  rfl

/-- The second DRAINED round lets the coordinator decide: the record shows COMMIT_ISSUED (R116, R118 step 5). -/
theorem pollRound_drained {r : FlipRecord} (hr : s.route.record = some r) (hst : r.state ≠ .commitIssued)
    (hp : s.rd RTE_STAT_PHASE = 3 ∨ s.rd RTE_STAT_PHASE = 4) (hc : s.rd RTE_STAT_COORD = 1) (hq : s.quiet .dz8 = true)
    (hd : drainComplete s.reporters s.route.lastRound (s.ownReport :: l) = true) (hg : s.commitGap = true) :
    exec (.pollRound l) s = .next (s.polledRound (s.ownReport :: l)).issueCommit := by
  have hi : s.recordIs .commitIssued = false := by simp [State.recordIs, hr, hst]
  have ho : s.on RTE_STAT_COORD = true := by simp [State.on, hc]
  show execPollRound l s = _
  unfold execPollRound
  simp only [hd, hg, hi, ho, Bool.not_false, Bool.and_true]
  rw [if_pos ⟨hp, hq⟩]
  rfl

theorem pollRound_idle (hq : s.quiet .dz8 = false) (hp : s.rd RTE_STAT_PHASE ≠ 6) : exec (.pollRound l) s = .next s := by
  show execPollRound l s = _
  unfold execPollRound
  simp [hq, hp]

end

/-! ### The quiet state -/

section
variable {s : State}

theorem quietEntry_agent (h : s.ard RTE_QUIET_AT_BEAT ≠ 0) : exec (.quietEntry .agent) s = .next (s.awr RTE_FLIPSTAT_QUIET 1) :=
  congrArg Host.Outcome.next (if_neg h)

theorem quietEntry_notActive (ha : s.active = false) :
    exec (.quietEntry .dz8) s = .next ((s.wr RTE_QUIET_AT_BEAT s.time.beat).wr RTE_FLIPSTAT_QUIET 1) :=
  congrArg Host.Outcome.next (if_pos (by simp [ha]))

/-- An active unit in its QUIET phase sets the bit; besides it only remembers the beat of the last pause (R118 step 3). -/
theorem quietEntry_active (hb : s.rd RTE_QUIET_AT_BEAT ≠ 0) (ha : s.active = true) (hp : s.rd RTE_STAT_PHASE = 3) :
    ∃ t, exec (.quietEntry .dz8) s = .next t ∧ t.regs = (s.wr RTE_FLIPSTAT_QUIET 1).regs := by
  show ∃ t, execQuietEntry .dz8 s = .next t ∧ _
  unfold execQuietEntry
  simp only [hb, ha, hp]
  refine ⟨_, rfl, ?_⟩
  simp only [not_true_eq_false, ne_eq, or_self, if_false]
  split <;> rfl

theorem safeStateEntry_quiet (hq : s.quiet .agent = true) (hs : s.ard RTE_FLIPSTAT_SAFE = 0) :
    exec .safeStateEntry s = .next ((s.awr RTE_FLIPSTAT_SAFE 1).detect .agent 0x500000 3 0 none) :=
  congrArg Host.Outcome.next (if_pos (by simp [hq, State.aon, hs]))

/-! ### The flip record's confirmation -/

theorem flipRecordConfirm_waits {r : FlipRecord} (hr : s.route.record = some r) (hc : s.route.recordConfirmed = false)
    (hst : r.state ≠ .commitIssued) : exec .flipRecordConfirm s = .next (s.setRoute fun x => { x with recordConfirmed := true }) := by
  show Host.Outcome.next s.recordConfirm = _
  simp [State.recordConfirm, hr, hc, hst]

theorem flipRecordConfirm_commits {r : FlipRecord} (hr : s.route.record = some r) (hc : s.route.recordConfirmed = false)
    (hst : r.state = .commitIssued) (ha : s.active = true) (ho : s.rd RTE_STAT_COORD = 1) :
    exec .flipRecordConfirm s = .next ((s.setRoute fun x => { x with recordConfirmed := true }).commitOut r) := by
  have ha' : (s.setRoute fun x => { x with recordConfirmed := true }).active = true := ha
  have ho' : (s.setRoute fun x => { x with recordConfirmed := true }).on RTE_STAT_COORD = true := beq_iff_eq.2 ho
  show Host.Outcome.next s.recordConfirm = _
  simp [State.recordConfirm, hr, hc, hst, ha', ho']

/-! ### COMMIT and ABORT -/

variable {p : Nat} {x : Cell}

theorem commitCell_held (hn : s.agRoute.applied.contains (commitOf x).key = false) (hr : s.ard RTE_FLIPSTAT_SHADOW_READY = 1)
    (hg : s.ard RTE_GEN_SHADOW = (commitOf x).gen) :
    exec (.commitCell .agent p x) s =
      .next ((s.awr RTE_FLIP_AT_BEAT (commitOf x).flipAt).setAgRoute fun r => { r with commit := some (commitOf x) }) := by
  show Host.Outcome.next (s.holdCommit .agent (commitOf x)) = _
  unfold State.holdCommit
  simp only [hn, State.rdS_agent, hr, hg]
  rfl

theorem commitCell_applied (ha : s.agRoute.applied.contains (commitOf x).key = true) : exec (.commitCell .agent p x) s = .next s :=
  congrArg Host.Outcome.next (if_pos ha)

theorem commitCell_own (hc : (commitOf x).coordinator = s.fid) (ha : s.active = true) : exec (.commitCell .dz8 p x) s = .next s :=
  congrArg Host.Outcome.next (if_pos ⟨hc, ha⟩)

/-- The beat of a COMMIT fits its register (R117, R128). -/
theorem commitOf_flipAt_mod (x : Cell) : (commitOf x).flipAt % 2 ^ RTE_FLIP_AT_BEAT.w = (commitOf x).flipAt := Nat.mod_mod ..

/-- What tells one ABORT from the next at an agent: its serial and its resume beat (R117; log entry 145). -/
def abortKey (x : Cell) : Nat × Nat := (bits (cellWord x 3) 31 0, bits (cellWord x 2) 55 0)

theorem abortCell_again (h : s.agRoute.lastAbort = some (abortKey x)) : exec (.abortCell .agent p x) s = .next s :=
  congrArg Host.Outcome.next (if_pos h)

theorem abortCell_taken (h : s.agRoute.lastAbort ≠ some (abortKey x)) :
    exec (.abortCell .agent p x) s =
      .next ((s.agAbort (bits (cellWord x 2) 55 0)).setAgRoute fun r => { r with lastAbort := some (abortKey x) }) :=
  congrArg Host.Outcome.next (if_neg h)

theorem abortCell_own (hc : bits (cellWord x 3) 63 50 = s.fid) (ha : s.active = true) : exec (.abortCell .dz8 p x) s = .next s :=
  congrArg Host.Outcome.next (if_pos ⟨hc, ha⟩)

theorem State.agAbort_aregs (s : State) (n : Nat) :
    AregsBut [RTE_FLIPSTAT_QUIET, RTE_FLIPSTAT_SAFE, RTE_QUIET_AT_BEAT] s (s.agAbort n) :=
  (((AregsBut.refl _ s).awr (f := RTE_FLIPSTAT_QUIET) (by decide) 0).awr (f := RTE_FLIPSTAT_SAFE) (by decide) 0).awr
    (f := RTE_QUIET_AT_BEAT) (by decide) 0

theorem State.agAbort_ends_quiet (s : State) (n : Nat) :
    (s.agAbort n).ard RTE_FLIPSTAT_QUIET = 0 ∧ (s.agAbort n).ard RTE_FLIPSTAT_SAFE = 0 ∧ (s.agAbort n).ard RTE_QUIET_AT_BEAT = 0 := by
  unfold State.agAbort
  simp only [State.setAgRoute_ard]
  refine ⟨?_, ?_, State.ard_awr_same ..⟩
  · rw [State.ard_awr_other _ (by decide), State.ard_awr_other _ (by decide), State.ard_awr_same]
    rfl
  · rw [State.ard_awr_other _ (by decide), State.ard_awr_same]
    rfl

end

/-- Settles O31: each case is the effect of its command, within the parts of its row (`exec_reach`). The Q of a unit that is not active and
the second copy of an ABORT are log entry 145. -/
theorem flipCommit : Obligations.FlipCommit := by
  unfold Obligations.FlipCommit
  refine ⟨?_, ?_, ?_, ?_, ?_, ?_, ?_, ?_, ?_, ?_, ?_, ?_, ?_, ?_, ?_⟩
  · intro s h
    exact (exec_reach _ s).next (quietEntry_agent h) ⟨(AregsBut.refl _ s).awr (by decide) 1, State.ard_awr_same ..⟩
  · intro s ha
    refine (exec_reach _ s).next (quietEntry_notActive ha) ⟨((RegsBut.refl _ s).wr (by decide) _).wr (by decide) 1, State.rd_wr_same .., ?_⟩
    rw [State.rd_wr_other _ (by decide), State.rd_wr_same]
  · intro s hb ha hp
    obtain ⟨t, he, ht⟩ := quietEntry_active hb ha hp
    refine (exec_reach _ s).next he ⟨((RegsBut.refl _ s).wr (by decide) 1).trans (.of_regs ht), ?_⟩
    rw [State.rd, ht]
    exact State.rd_wr_same s RTE_FLIPSTAT_QUIET 1
  · intro s l _ hp hq ha hd
    exact (exec_reach _ s).next (pollRound_undrained (.inl hp) hq hd) ⟨s.polledRound_phase ha _, rfl, s.polledRound_record _⟩
  · intro s l r hr hc hp hq hst hd hg
    exact (exec_reach _ s).next (pollRound_drained hr (by simp [hst]) (.inr hp) hc hq hd hg)
      ((s.polledRound _).issueCommit_route ((s.polledRound_record _).trans hr))
  · intro s l hq hp
    exact (exec_reach _ s).next (pollRound_idle hq hp) rfl
  · intro s r hr hc hst
    exact (exec_reach _ s).next (flipRecordConfirm_waits hr hc hst) ⟨rfl, hr, rfl⟩
  · intro s r hr hc hst ha ho
    exact (exec_reach _ s).next (flipRecordConfirm_commits hr hc hst ha ho) rfl
  · intro s p x hn hr hg
    exact (exec_reach _ s).next (commitCell_held hn hr hg)
      ⟨rfl, (State.ard_awr_same ..).trans (commitOf_flipAt_mod x), (AregsBut.refl _ s).awr (by decide) _, rfl⟩
  · intro s p x ha
    exact (exec_reach _ s).next (commitCell_applied ha) rfl
  · intro s p x hc ha
    exact (exec_reach _ s).next (commitCell_own hc ha) rfl
  · intro s p x h
    exact (exec_reach _ s).next (abortCell_again h) rfl
  · intro s p x h
    obtain ⟨hq, hs, hb⟩ := s.agAbort_ends_quiet (bits (cellWord x 2) 55 0)
    exact (exec_reach _ s).next (abortCell_taken h) ⟨rfl, hq, hs, hb, s.agAbort_aregs (bits (cellWord x 2) 55 0), rfl, rfl⟩
  · intro s p x hc ha
    exact (exec_reach _ s).next (abortCell_own hc ha) rfl
  · intro s hq hs
    refine (exec_reach _ s).next (safeStateEntry_quiet hq hs)
      ⟨((AregsBut.refl _ s).awr (by decide) 1).trans (.of_aregs (State.detect_aregs ..)), ?_⟩
    rw [State.ard_detect, State.ard_awr_same]
    rfl

end Sys2Proof.Machine
end

section
/-! The flip beat, the resume beat, resending and the fallback: one lemma per case of a command, and O32 (R99, R118 to R120, R146). -/

namespace Sys2Proof.Machine

/-! ### The flip beat -/

section
variable {s : State} {m : Commit}

theorem flipBeat_agent (h : s.heldCommit .agent = some m) : exec (.flipBeat .agent) s = .next (s.flipAg m) := by
  show execFlipBeat .agent s = _
  rw [execFlipBeat, h]

theorem flipBeat_dz8 (h : s.heldCommit .dz8 = some m) : exec (.flipBeat .dz8) s = .next (s.flipDz m) := by
  show execFlipBeat .dz8 s = _
  rw [execFlipBeat, h]

theorem flipBeat_idle {d : Site} (h : s.heldCommit d = none) : exec (.flipBeat d) s = .next s := by
  show execFlipBeat d s = _
  rw [execFlipBeat, h]

end

/-- The agent swaps table and map together, and remembers the flip and its resume beat (R118 step 6, R121, R478). -/
theorem State.flipAg_agRoute (s : State) (m : Commit) :
    (s.flipAg m).agRoute = { s.agRoute with
      active := s.agRoute.shadow, map := s.agRoute.mapShadow, commit := none, applied := m.key :: s.agRoute.applied
      resumeAt := if s.aon RTE_FLIPSTAT_SAFE then none else some m.resume } := by
  unfold State.flipAg
  extract_lets safe s₁ s₂ s₃
  have w : Within [.regs, .aregs] s₂ s₃ :=
    (Within.refl _ s₂).foldl fun _ x h => State.setEpoch_within (by decide) (by decide) .agent x h
  simp only [State.awr_agRoute]
  rw [w.agRoute_eq (by decide)]
  rfl

theorem State.flipAg_ends_quiet (s : State) (m : Commit) :
    (s.flipAg m).ard RTE_FLIPSTAT_QUIET = 0 ∧ (s.flipAg m).ard RTE_FLIPSTAT_SAFE = 0 := by
  unfold State.flipAg
  refine ⟨?_, State.ard_awr_same ..⟩
  rw [State.ard_awr_other _ (by decide), State.ard_awr_same]
  rfl

/-! ### The resume beat -/

section
variable {s : State}

/-- At its resume beat the agent keeps its tables, and a timetable that the flip paused goes on once the chip is not quiet (R118 step 7). -/
theorem flipResume_agent {n : Nat} (h : s.agRoute.resumeAt = some n) :
    ∃ t, exec (.flipResume .agent) s = .next t ∧ t.agRoute = { s.agRoute with resumeAt := none } ∧
      (s.ag.flipPaused = true → s.quiet .agent = false → t.ag.flipPaused = false) := by
  show ∃ t, execFlipResume .agent s = .next t ∧ _
  unfold execFlipResume
  rw [h]
  refine ⟨_, rfl, ?_, fun hp hq => ?_⟩
  · dsimp only
    split <;> rfl
  · dsimp only
    have hq' : (s.setAgRoute fun r => { r with resumeAt := none }).quiet .agent = false := hq
    rw [if_pos (by simp [hp, hq'])]
    rfl

theorem flipResume_quiet (h : s.quiet .dz8 = true) : exec (.flipResume .dz8) s = .next s :=
  congrArg Host.Outcome.next (if_pos h)

/-- A timetable that the flip paused goes on (R146). -/
def State.resumePaused (s : State) (c : Nat) : State := if (s.ttb c).flipPaused ∧ s.ttbState c = 5 then s.resumeTtb c s.time.beat else s

theorem flipResume_dz8 (h : s.quiet .dz8 = false) : exec (.flipResume .dz8) s = .next (contexts.foldl State.resumePaused s) :=
  congrArg Host.Outcome.next (if_neg (by simp [h]))

end

/-- The register fields that the end of a pause of context `c` writes. -/
inductive ResumeField (c : Nat) : Fld → Prop where
  | paused : ResumeField c (TTB_STAT_PAUSED (ttbPg c))
  | xdomHeld : ResumeField c (TTB_STAT_XDOM_HELD (ttbPg c))
  | base : ResumeField c (TTB_BASE_BEAT (ttbPg c))
  | notifyLost : ResumeField c BYJ_NOTIFY_LOST

theorem state_ne_resumeField {c e : Nat} {f : Fld} (h : ResumeField c f) : (TTB_STAT_STATE (ttbPg e)).key ≠ f.key := by
  cases h <;> simp only [Fld.key, TTB_STAT_STATE, TTB_STAT_PAUSED, TTB_STAT_XDOM_HELD, TTB_BASE_BEAT, ttbPg, BYJ_NOTIFY_LOST] <;> omega

theorem paused_ne_resumeField {c e : Nat} (he : e ≠ c) {f : Fld} (h : ResumeField c f) : (TTB_STAT_PAUSED (ttbPg e)).key ≠ f.key := by
  cases h <;> simp only [Fld.key, TTB_STAT_PAUSED, TTB_STAT_XDOM_HELD, TTB_BASE_BEAT, ttbPg, BYJ_NOTIFY_LOST] <;> omega

section
variable (s : State) (c : Nat)

theorem State.rd_resumeTtb {g : Fld} (h : ∀ f, ResumeField c f → g.key ≠ f.key) (n : Nat) : (s.resumeTtb c n).rd g = s.rd g := by
  unfold State.resumeTtb State.rebase
  rw [State.rd_notifyJob _ (h _ .notifyLost), State.rd_wr_other _ (h _ .base), State.setTtb_rd, State.rd_wr_other _ (h _ .xdomHeld),
    State.rd_wr_other _ (h _ .paused)]

theorem State.resumeTtb_paused (n : Nat) : (s.resumeTtb c n).rd (TTB_STAT_PAUSED (ttbPg c)) = 0 := by
  unfold State.resumeTtb State.rebase
  have hlost : (TTB_STAT_PAUSED (ttbPg c)).key ≠ BYJ_NOTIFY_LOST.key := by
    simp only [Fld.key, TTB_STAT_PAUSED, ttbPg, BYJ_NOTIFY_LOST]; omega
  have hbase : (TTB_STAT_PAUSED (ttbPg c)).key ≠ (TTB_BASE_BEAT (ttbPg c)).key := by
    simp only [Fld.key, TTB_STAT_PAUSED, TTB_BASE_BEAT]; omega
  have hheld : (TTB_STAT_PAUSED (ttbPg c)).key ≠ (TTB_STAT_XDOM_HELD (ttbPg c)).key := by
    simp only [Fld.key, TTB_STAT_PAUSED, TTB_STAT_XDOM_HELD]; omega
  rw [State.rd_notifyJob _ hlost, State.rd_wr_other _ hbase, State.setTtb_rd, State.rd_wr_other _ hheld, State.rd_wr_same, Nat.zero_mod]

theorem State.resumeTtb_ttbs (n : Nat) : (s.resumeTtb c n).ttbs = s.ttbs.modify c fun t => { t with flipPaused := false } := rfl

theorem State.resumePaused_length : (s.resumePaused c).ttbs.length = s.ttbs.length := by
  unfold State.resumePaused
  split
  · exact List.length_modify ..
  · rfl

theorem State.resumePaused_state (e : Nat) : (s.resumePaused c).ttbState e = s.ttbState e := by
  unfold State.resumePaused
  split
  · exact s.rd_resumeTtb c (fun f => state_ne_resumeField) _
  · rfl

end

/-- The pause of context `c` has ended, in its timetable and in its register. -/
def State.Resumed (s : State) (c : Nat) : Prop := (s.ttb c).flipPaused = false ∧ s.rd (TTB_STAT_PAUSED (ttbPg c)) = 0

section
variable {s : State} {c : Nat}

theorem State.resumePaused_same (hl : c < s.ttbs.length) (hs : s.ttbState c = 5) (h : (s.ttb c).flipPaused = true) :
    (s.resumePaused c).Resumed c := by
  rw [State.resumePaused, if_pos ⟨h, hs⟩]
  exact ⟨congrArg TtbSt.flipPaused (s.ttb_setTtb_same c (fun t => { t with flipPaused := false }) hl), s.resumeTtb_paused c _⟩

theorem State.resumePaused_not_paused (h : (s.ttb c).flipPaused = false) : s.resumePaused c = s := if_neg (by simp [h])

/-- A context's pause is not touched by the resumption of another. -/
theorem State.resumePaused_other {x : Nat} (hne : c ≠ x) :
    (s.resumePaused x).ttb c = s.ttb c ∧ (s.resumePaused x).rd (TTB_STAT_PAUSED (ttbPg c)) = s.rd (TTB_STAT_PAUSED (ttbPg c)) := by
  unfold State.resumePaused
  split
  · exact ⟨s.ttb_setTtb_other hne fun t => { t with flipPaused := false }, s.rd_resumeTtb x (fun f => paused_ne_resumeField hne) _⟩
  · exact ⟨rfl, rfl⟩

theorem State.resumePaused_resumed (x : Nat) (h : s.Resumed c) : (s.resumePaused x).Resumed c := by
  rcases eq_or_ne c x with rfl | hne
  · rwa [State.resumePaused_not_paused h.1]
  · obtain ⟨ht, hr⟩ := State.resumePaused_other (s := s) hne
    exact ⟨(congrArg TtbSt.flipPaused ht).trans h.1, hr.trans h.2⟩

/-- Every paused timetable of a running job goes on, whatever other contexts do. -/
theorem State.foldl_resumePaused_resumed (hl : c < s.ttbs.length) (hs : s.ttbState c = 5) (h : (s.ttb c).flipPaused = true) {l : List Nat}
    (hm : c ∈ l) : (l.foldl State.resumePaused s).Resumed c :=
  foldl_brings (f := State.resumePaused) (P := fun u => u.Resumed c)
    (I := fun u => c < u.ttbs.length ∧ u.ttbState c = 5 ∧ ((u.ttb c).flipPaused = true ∨ u.Resumed c))
    (fun u x ⟨hl, hs, hp⟩ => ⟨hl.trans_eq (u.resumePaused_length x).symm, (u.resumePaused_state x c).trans hs, by
      rcases hp with hp | hp
      · rcases eq_or_ne c x with rfl | hne
        · exact .inr (State.resumePaused_same hl hs hp)
        · exact .inl ((congrArg TtbSt.flipPaused (State.resumePaused_other hne).1).trans hp)
      · exact .inr (State.resumePaused_resumed x hp)⟩)
    (fun u x => State.resumePaused_resumed x)
    (fun u ⟨hl, hs, hp⟩ => hp.elim (State.resumePaused_same hl hs) (State.resumePaused_resumed c)) hm ⟨hl, hs, .inl h⟩

end

/-! ### Resending and the fallback -/

section
variable {s : State}

/-- A unit that waits for no confirmation sends no COMMIT again (R119). -/
theorem commitResend_idle (l : List Nat) (h : s.rd RTE_STAT_PHASE ≠ 6) : exec (.commitResend l) s = .next s := by
  show execCommitResend l s = _
  unfold execCommitResend
  split
  · exact congrArg Host.Outcome.next (if_neg fun k => h k.1)
  · rfl

/-- A unit is sent the COMMIT of the record again; no tables are loaded (R119; log entry 74). -/
theorem commitResend_unit {f : Nat} {r : FlipRecord} (hr : s.route.record = some r) (hp : s.rd RTE_STAT_PHASE = 6)
    (hc : s.rd RTE_STAT_COORD = 1) (hf : s.theRod.cls f = 0) :
    exec (.commitResend [f]) s = .next (s.send .dz8 (s.newCell .dz8 f 1 tCOMMIT 0 8 0 0 (commitWords (s.commitFor r r.flipAt)))) := by
  show execCommitResend [f] s = _
  unfold execCommitResend
  rw [hr]
  dsimp only
  rw [if_pos ⟨hp, beq_iff_eq.2 hc⟩, List.foldl_cons, List.foldl_nil]
  simp only [hf, if_true]

/-- The third fallback fails the flip (R120). -/
theorem flipFallback_fails (hp : s.rd RTE_STAT_PHASE = 4) (hc : s.rd RTE_STAT_COORD = 1) (hi : s.recordIs .commitIssued = false)
    (hn : 2 ≤ s.rd RTE_STAT_ATTEMPT) :
    exec .flipFallback s = .next ((s.detect .dz8 rtePg 1 s.route.flipSerial none).abortOut.endFlip 8 .aborted) :=
  congrArg Host.Outcome.next <| (if_pos ⟨.inr hp, beq_iff_eq.2 hc, by simp [hi]⟩).trans (if_pos hn)

/-- After COMMIT_ISSUED a flip is not taken back (R118, R120). -/
theorem flipFallback_committed (h : s.recordIs .commitIssued = true) : exec .flipFallback s = .next s :=
  congrArg Host.Outcome.next (if_neg fun k => k.2.2 h)

theorem fallbackRetry_starts (h : s.rd RTE_STAT_PHASE = 7) : exec .fallbackRetry s = .next s.startQuiet :=
  congrArg Host.Outcome.next (if_pos h)

theorem fallbackRetry_idle (h : s.rd RTE_STAT_PHASE ≠ 7) : exec .fallbackRetry s = .next s :=
  congrArg Host.Outcome.next (if_neg h)

end

/-- Settles O32: each case is the effect of its command, within the parts of its row (`exec_reach`). What names a flip that was applied is
log entry 145, what COMMIT_RESEND sends log entry 74. -/
theorem flipBeatAndFallback : Obligations.FlipBeatAndFallback := by
  unfold Obligations.FlipBeatAndFallback
  refine ⟨?_, ?_, ?_, ?_, ?_, ?_, ?_, ?_, ?_, ?_, ?_, ?_⟩
  · intro s m h
    refine (exec_reach _ s).next (flipBeat_agent h) ?_
    rw [State.flipAg_agRoute]
    exact ⟨rfl, rfl, rfl, rfl, rfl, s.flipAg_ends_quiet m⟩
  · intro s m h
    exact (exec_reach _ s).next (flipBeat_dz8 h) rfl
  · intro s d h
    exact (exec_reach _ s).next (flipBeat_idle h) rfl
  · intro s n h
    obtain ⟨t, he, hr, hp⟩ := flipResume_agent h
    exact (exec_reach _ s).next he ⟨by rw [hr], by rw [hr], hp⟩
  · intro s h
    exact (exec_reach _ s).next (flipResume_quiet h) rfl
  · intro s h hl
    exact (exec_reach _ s).next (flipResume_dz8 h)
      ⟨fun c hc hp hs => State.foldl_resumePaused_resumed (hc.trans_eq hl.symm) hs hp (mem_contexts.2 hc),
       fun c _ => foldl_keeps (State.ttbState · c) (fun u x => u.resumePaused_state x c) _ s⟩
  · intro s f r hr hp hc hf
    exact (exec_reach _ s).next (commitResend_unit hr hp hc hf) rfl
  · intro s l h
    exact (exec_reach _ s).next (commitResend_idle l h) rfl
  · intro s hp hc hi hn
    exact (exec_reach _ s).next (flipFallback_fails hp hc hi hn) rfl
  · intro s h
    exact (exec_reach _ s).next (flipFallback_committed h) rfl
  · intro s h
    exact (exec_reach _ s).next (fallbackRetry_starts h) rfl
  · intro s h
    exact (exec_reach _ s).next (fallbackRetry_idle h) rfl

end Sys2Proof.Machine
end

section
/-! Answers, timeouts and retries of management transactions: one lemma per case of a command, and O33 (R104, R127, R473, R512). -/

namespace Sys2Proof.Machine

section
variable {s : State}

/-! ### MRSP_CELL -/

section
variable {x : Cell}

/-- An MRSP whose transaction has ended is dropped and counted (R127; log entry 63). -/
theorem mrspCell_late (he : s.epochGood .dz8 x = true) (ht : (s.txn x.seq).filter (fun t => t.fid == x.src) = none) :
    exec (.mrspCell x) s = .next (s.bump AGT_ERR_LATE 1) := by
  show execMrspCell x s = _
  rw [execMrspCell, he, ht, Bool.not_true, if_neg Bool.false_ne_true]

theorem mrspCell_answers {q : Txn} (he : s.epochGood .dz8 x = true) (ht : s.txn x.seq = some q) (hf : q.fid = x.src) :
    exec (.mrspCell x) s = .next (s.txnDone q (bits (cellWord x 0) 47 40) ((List.range 4).map fun i => cellWord x (2 + i))) := by
  have hq : (some q).filter (fun t => t.fid == x.src) = some q := by simp [hf]
  show execMrspCell x s = _
  rw [execMrspCell, he, ht, hq, Bool.not_true, if_neg Bool.false_ne_true]

theorem mrspCell_epoch (he : s.epochGood .dz8 x = false) : exec (.mrspCell x) s = .next (s.discard .dz8 0 x rEPOCH) := by
  show execMrspCell x s = _
  rw [execMrspCell, he, Bool.not_false, if_pos rfl]

end

/-! ### MGMT_TIMEOUT and MGMT_RETRY -/

section
variable {n : Nat} {q : Txn}

/-- The transaction of a SEQ goes into its backoff. -/
def Txn.toBackoff (n : Nat) (x : Txn) : Txn := if x.seq == n then { x with backoff := true } else x

/-- Where every transaction keeps its SEQ, a change of all of them changes what a SEQ finds. -/
theorem State.txn_map {f : Txn → Txn} (hf : ∀ x, (f x).seq = x.seq) (s : State) (n : Nat) :
    (s.setRoute fun r => { r with txns := r.txns.map f }).txn n = (s.txn n).map f := by
  show (s.route.txns.map f).find? _ = _
  rw [List.find?_map]
  simp only [Function.comp_def, hf]
  rfl

theorem State.txn_seq (h : s.txn n = some q) : (q.seq == n) = true :=
  List.find?_some (p := fun x : Txn => x.seq == n) h

theorem mgmtTimeout_backsOff (h : s.txn n = some q) (hb : q.backoff = false) (ha : q.attempts < 4) :
    exec (.mgmtTimeout n) s = .next (s.setRoute fun r => { r with txns := r.txns.map (Txn.toBackoff n) }) := by
  show execMgmtTimeout n s = _
  rw [execMgmtTimeout, h]
  dsimp only
  rw [hb, if_neg Bool.false_ne_true, if_pos ha]
  rfl

theorem State.txn_toBackoff (h : s.txn n = some q) :
    (s.setRoute fun r => { r with txns := r.txns.map (Txn.toBackoff n) }).txn n = some { q with backoff := true } := by
  have hseq : ∀ x, (Txn.toBackoff n x).seq = x.seq := fun x => by
    unfold Txn.toBackoff
    split <;> rfl
  rw [State.txn_map hseq, h, Option.map_some, Txn.toBackoff, if_pos (State.txn_seq h)]

/-- After the last attempt the transaction of the unit's own ends; no other waits for its place (R127). -/
theorem mgmtTimeout_ends (h : s.txn n = some q) (hb : q.backoff = false) (ha : q.attempts = 4) (hs : q.session = none)
    (hw : s.route.waiting = []) :
    exec (.mgmtTimeout n) s = .next (s.setRoute fun r => { r with txns := r.txns.filter fun t => t.seq != n }) := by
  have hend : s.endTxn n = s.setRoute fun r => { r with txns := r.txns.filter fun t => t.seq != n } := by
    unfold State.endTxn State.pumpWaiting
    simp only [State.setRoute_route, hw]
  show execMgmtTimeout n s = _
  rw [execMgmtTimeout, h]
  dsimp only
  rw [hb, hs, if_neg Bool.false_ne_true, if_neg (by omega), hend]
  rfl

theorem State.txn_filter (s : State) (n : Nat) : (s.setRoute fun r => { r with txns := r.txns.filter fun t => t.seq != n }).txn n = none :=
  List.find?_eq_none.2 fun x hx => by
    have hne := (List.mem_filter.1 hx).2
    simpa using hne

/-- The attempt after the backoff carries FLAGS.RETRY and the present generation and epoch (R98, R104, R127). -/
theorem mgmtRetry_sends (h : s.txn n = some q) (hb : q.backoff = true) (hs : q.session = none) :
    exec (.mgmtRetry n) s = .next ((s.setRoute fun r => { r with txns := r.txns.map fun x => if x.seq == n then
      { x with backoff := false, attempts := x.attempts + 1, request := (s.restamp .dz8 { q.request with flags := setBit q.request.flags 2 true }) }
      else x }).send .dz8 (s.restamp .dz8 { q.request with flags := setBit q.request.flags 2 true })) := by
  show execMgmtRetry n s = _
  rw [execMgmtRetry, h]
  dsimp only
  rw [hb, hs]
  rfl

theorem mgmtRetry_noBackoff (h : s.txn n = some q) (hb : q.backoff = false) : exec (.mgmtRetry n) s = .next s := by
  show execMgmtRetry n s = _
  rw [execMgmtRetry, h]
  dsimp only
  rw [hb]
  rfl

end

end

/-- Settles O33: each case is the effect of its command, within the parts of its row (`exec_reach`). LATE for an MRSP without a transaction is
log entry 63, an MRSP in the backoff log entry 60. -/
theorem managementTransactions : Obligations.ManagementTransactions := by
  unfold Obligations.ManagementTransactions
  refine ⟨?_, ?_, ?_, ?_, ?_, ?_, ?_⟩
  · intro s x he ht
    exact (exec_reach _ s).next (mrspCell_late he ht)
      ⟨(RegsBut.refl _ s).bump (List.mem_singleton_self _) 1, State.rd_bump_same .., rfl⟩
  · intro s x q he ht hf
    exact (exec_reach _ s).next (mrspCell_answers he ht hf) rfl
  · intro s x he
    exact (exec_reach _ s).next (mrspCell_epoch he) rfl
  · intro s n q h hb ha
    exact (exec_reach _ s).next (mgmtTimeout_backsOff h hb ha) ⟨State.txn_toBackoff h, rfl, rfl⟩
  · intro s n q h hb ha hs hw
    exact (exec_reach _ s).next (mgmtTimeout_ends h hb ha hs hw) ⟨s.txn_filter n, rfl, rfl⟩
  · intro s n q h hb hs
    exact (exec_reach _ s).next (mgmtRetry_sends h hb hs) rfl
  · intro s n q h hb
    exact (exec_reach _ s).next (mgmtRetry_noBackoff h hb) rfl

end Sys2Proof.Machine
end

section
/-! Loading and comparing the Rod: one lemma per case of a command, and O49 (R111, R458, R459). -/

namespace Sys2Proof.Machine

/-! ### The comparison -/

section
variable (s : State)

/-- The comparison finds its mismatches anew and leaves the rest of what the boot holds (R458). -/
theorem State.compareRod_boot : s.compareRod.boot = { s.boot with mismatches := s.mismatchesNow s.theRod } := by
  unfold State.compareRod
  extract_lets r ms
  exact (State.capReports_within (A := [.route]) (by decide) r (.refl _ _)).boot_eq (by decide)

theorem State.requestFlip_boot : s.requestFlip.boot = s.boot :=
  (State.requestFlip_within (A := [.regs, .aregs, .ports, .agPorts, .route, .ttbs, .beyjo, .flt, .agFlt, .pair, .out]) (by decide) (by decide)
    (by decide) (by decide) (by decide) (by decide) (by decide) (by decide) (by decide) (by decide) (by decide) (.refl _ s)).boot_eq (by decide)

theorem State.mailOk_boot (i n : Nat) (words : List Nat) : (s.mailOk i n words).boot = s.boot :=
  (State.mailOk_within (A := [.regs, .tile, .beyjo]) (by decide) (by decide) (by decide) i n words (.refl _ s)).boot_eq (by decide)

theorem State.mailReject_boot (i n res : Nat) (words : List Nat) : (s.mailReject i n res words).boot = s.boot :=
  (State.mailReject_within (A := [.regs, .tile, .beyjo]) (by decide) (by decide) (by decide) i n res words (.refl _ s)).boot_eq (by decide)

/-- The end of a comparison keeps the Rod, the mismatches and the reports; of the boot state only a waiting ROD_LOAD ends. -/
theorem State.compareDone_boot : ∃ b, s.compareDone.boot = { s.boot with loadBusy := b } := by
  unfold State.compareDone
  split
  · rw [State.requestFlip_boot]
    split
    · exact ⟨s.boot.loadBusy, rfl⟩
    · exact ⟨false, State.mailOk_boot ..⟩
  · exact ⟨s.boot.loadBusy, rfl⟩

theorem State.compared_boot :
    s.compareRod.compareDone.boot.rod = s.boot.rod ∧ s.compareRod.compareDone.boot.mismatches = s.mismatchesNow s.theRod ∧
      s.compareRod.compareDone.boot.reports = s.boot.reports := by
  obtain ⟨b, hb⟩ := s.compareRod.compareDone_boot
  rw [hb, State.compareRod_boot]
  exact ⟨rfl, rfl, rfl⟩

end

section
variable {s : State}

theorem rodCompare_noRod (l : List NeighReport) (h : s.boot.rod = none) : exec (.rodCompare l) s = .next s :=
  congrArg Host.Outcome.next (if_pos (by rw [h]; rfl))

theorem rodCompare_compares (l : List NeighReport) (h : s.boot.rod.isSome = true) :
    exec (.rodCompare l) s = .next (s.takeReports l).compareRod.compareDone :=
  congrArg Host.Outcome.next (if_neg (by simp [Option.isNone_eq_false_iff.2 h]))

/-- An agent of the domain that was not heard in time is SILENT (R458). -/
theorem rodSilentTimeout_silent {f : Nat} (h : s.boot.rod.isSome = true) (hf : (s.agentChips s.theRod).contains f = true)
    (hh : s.heard f = false) :
    exec (.rodSilentTimeout f) s =
      .next (s.setBoot fun b => { b with mismatches := b.mismatches ++ [mismatchAt 6 f 0 none 0] }).compareRod.compareDone :=
  congrArg Host.Outcome.next (if_neg (by rw [Option.isNone_eq_false_iff.2 h, hf, hh]; decide))

theorem rodSilentTimeout_heard {f : Nat} (h : s.heard f = true) : exec (.rodSilentTimeout f) s = .next s :=
  congrArg Host.Outcome.next (if_pos (by simp [h]))

end

/-! ### ROD_LOAD -/

/-- A Rod that fails a check is reported and does not take force (R457, R459). -/
def State.rodFails (s : State) (i n : Nat) (e : Nat × Nat) (serial : Nat) : State :=
  let s := ((s.wr GEN_ROD_ERR e.1).wr GEN_ROD_DETAIL_RECORD e.2).wr GEN_ROD_STATE 3
  s.mailReject i n 0x10 (s.rodResults e.1 e.2 serial)

theorem State.rd_notifyMail (s : State) {g : Fld} (h : g.key ≠ BYJ_NOTIFY_LOST.key) (i n c : Nat) : (s.notifyMail i n c).rd g = s.rd g :=
  State.queueFor_regsBut s _ _ g fun f hf => by rwa [List.mem_singleton.1 hf]

/-- A command that ends rejected writes the counts of the mail and of lost NOTIFY records, and the TAKEN bits of its session. -/
theorem State.rd_mailReject (s : State) {g : Fld} (hr : g.key ≠ MSL_COUNT_REJECTED.key) (hl : g.key ≠ BYJ_NOTIFY_LOST.key) (i n res : Nat)
    (ht : g.key ≠ (MSL_SESS_TAKEN (mslPg i)).key) (words : List Nat) : (s.mailReject i n res words).rd g = s.rd g := by
  have hput : ∀ (u : State) (w v : Nat), (u.slotPut i n w v).rd g = u.rd g := fun u w v =>
    (State.slotPut_within (A := [.tile]) (by decide) i n w v (.refl _ u)).rd_eq (by decide) g
  unfold State.mailReject State.mailEnd
  rw [if_neg Bool.false_ne_true]
  extract_lets s₁ s₂ s₃ c s₄
  have h₂ : s₂.rd g = s.rd g := State.rd_bump_other s hr 1
  have h₃ : s₃.rd g = s.rd g := (foldl_keeps (State.rd · g) (fun u (w : Nat × Nat) => hput u w.2 w.1) _ s₂).trans h₂
  split
  · exact h₂
  · have h₄ : s₄.rd g = s.rd g := (State.rd_wr_other _ ht _).trans ((hput s₃ 15 c).trans h₃)
    exact (s₄.rd_notifyMail hl i n c).trans h₄

/-- GEN_ROD shows the failure; the Rod in force stays (R459). -/
theorem State.rodFails_shows (s : State) (i n : Nat) (e : Nat × Nat) (serial : Nat) :
    (s.rodFails i n e serial).rd GEN_ROD_STATE = 3 ∧ (s.rodFails i n e serial).rd GEN_ROD_ERR = e.1 % 2 ^ GEN_ROD_ERR.w ∧
      (s.rodFails i n e serial).rd GEN_ROD_DETAIL_RECORD = e.2 % 2 ^ GEN_ROD_DETAIL_RECORD.w ∧ (s.rodFails i n e serial).boot = s.boot := by
  have hs : GEN_ROD_STATE.key ≠ (MSL_SESS_TAKEN (mslPg i)).key := by simp only [Fld.key, GEN_ROD_STATE, MSL_SESS_TAKEN, mslPg]; omega
  have he : GEN_ROD_ERR.key ≠ (MSL_SESS_TAKEN (mslPg i)).key := by simp only [Fld.key, GEN_ROD_ERR, MSL_SESS_TAKEN, mslPg]; omega
  have hd : GEN_ROD_DETAIL_RECORD.key ≠ (MSL_SESS_TAKEN (mslPg i)).key := by
    simp only [Fld.key, GEN_ROD_DETAIL_RECORD, MSL_SESS_TAKEN, mslPg]; omega
  unfold State.rodFails
  refine ⟨?_, ?_, ?_, State.mailReject_boot ..⟩
  · rw [State.rd_mailReject _ (by decide) (by decide) _ _ _ hs, State.rd_wr_same]
    rfl
  · rw [State.rd_mailReject _ (by decide) (by decide) _ _ _ he, State.rd_wr_other _ (by decide), State.rd_wr_other _ (by decide),
      State.rd_wr_same]
  · rw [State.rd_mailReject _ (by decide) (by decide) _ _ _ hd, State.rd_wr_other _ (by decide), State.rd_wr_same]

section
variable {s : State} {i n : Nat}

theorem rodLoad_idle (h : s.takenFor i n 1 = false) : exec (.rodLoad i n) s = .next s := by
  show execRodLoad i n s = _
  unfold execRodLoad
  rw [h]

/-- The premises of a ROD_LOAD in hardware mode whose slot and length are good (R331, R459). -/
structure State.RodPosted (s : State) (i n : Nat) : Prop where
  taken : s.takenFor i n 1 = true
  hardware : s.hostMode 0 = false
  noErr : s.mailErr i n 1 1 [0] = none
  fits : s.slotGet i n 0 % 2 ^ 32 ≤ 2 ^ 23

/-- The bytes of the load buffer that a ROD_LOAD names. -/
def State.rodBuffer (s : State) (i n : Nat) : List Byte := mread s.boot.load 0 (s.slotGet i n 0 % 2 ^ 32)

/-- The Rod in the load buffer is checked by the unit itself: it fails or takes force (R457 to R459). -/
def State.checkRod (s : State) (i n : Nat) : State :=
  let u := s.startMode 0 false
  match u.rodErr (rodOf (s.rodBuffer i n)) (s.rodBuffer i n) with
  | some e => u.rodFails i n e (rodOf (s.rodBuffer i n)).serial
  | none => u.rodPassed i n (rodOf (s.rodBuffer i n)) (s.rodBuffer i n) []

/-- A ROD_LOAD in hardware mode: one at a time, at a unit that is neither STANDBY nor FENCED (R459). -/
theorem rodLoad_posted (h : s.RodPosted i n) :
    exec (.rodLoad i n) s = .next (if s.boot.loadBusy then s.mailReject i n 4 []
      else if s.rd PAR_STAT_ROLE = 2 ∨ s.rd PAR_STAT_ROLE = 3 then s.mailReject i n 0x12 [] else s.checkRod i n) := by
  show execRodLoad i n s = _
  unfold execRodLoad
  simp only [h.taken, h.hardware, h.noErr, Bool.false_eq_true, if_false, false_and, or_false]
  rw [if_neg (Nat.not_lt.2 h.fits)]
  rfl

theorem rodLoad_busy (h : s.RodPosted i n) (hb : s.boot.loadBusy = true) : exec (.rodLoad i n) s = .next (s.mailReject i n 4 []) := by
  rw [rodLoad_posted h, if_pos hb]

theorem rodLoad_standby (h : s.RodPosted i n) (hb : s.boot.loadBusy = false) (hr : s.rd PAR_STAT_ROLE = 2) :
    exec (.rodLoad i n) s = .next (s.mailReject i n 0x12 []) := by
  rw [rodLoad_posted h, hb, if_neg Bool.false_ne_true, if_pos (.inl hr)]

theorem rodLoad_active (h : s.RodPosted i n) (hb : s.boot.loadBusy = false) (hr : s.rd PAR_STAT_ROLE = 1) :
    exec (.rodLoad i n) s = .next (s.checkRod i n) := by
  rw [rodLoad_posted h, hb, if_neg Bool.false_ne_true, if_neg (by omega)]

theorem State.checkRod_fails {e : Nat × Nat} (he : (s.startMode 0 false).rodErr (rodOf (s.rodBuffer i n)) (s.rodBuffer i n) = some e) :
    s.checkRod i n = (s.startMode 0 false).rodFails i n e (rodOf (s.rodBuffer i n)).serial := by
  unfold State.checkRod
  dsimp only
  rw [he]

theorem State.checkRod_passes (he : (s.startMode 0 false).rodErr (rodOf (s.rodBuffer i n)) (s.rodBuffer i n) = none) :
    s.checkRod i n = (s.startMode 0 false).rodPassed i n (rodOf (s.rodBuffer i n)) (s.rodBuffer i n) [] := by
  unfold State.checkRod
  dsimp only
  rw [he]

end

/-- Settles O49: each case is the effect of its command, within the parts of its row (`exec_reach`). Which failure is reported first is log
entry 95, what a SILENT chip brings log entry 96. -/
theorem rodLoading : Obligations.RodLoading := by
  unfold Obligations.RodLoading
  refine ⟨?_, ?_, ?_, ?_, ?_, ?_, ?_, ?_⟩
  · intro s l h
    exact (exec_reach _ s).next (rodCompare_noRod l h) rfl
  · intro s l h
    obtain ⟨hr, hm, _⟩ := (s.takeReports l).compared_boot
    exact (exec_reach _ s).next (rodCompare_compares l h) ⟨rfl, hr, hm⟩
  · intro s f h hf hh
    obtain ⟨hr, _, hp⟩ := (s.setBoot fun b => { b with mismatches := b.mismatches ++ [mismatchAt 6 f 0 none 0] }).compared_boot
    exact (exec_reach _ s).next (rodSilentTimeout_silent h hf hh) ⟨rfl, hr, hp⟩
  · intro s f h
    exact (exec_reach _ s).next (rodSilentTimeout_heard h) rfl
  · intro s i n h
    exact (exec_reach _ s).next (rodLoad_idle h) rfl
  · intro s i n ht hh hm hl hb
    exact (exec_reach _ s).next (rodLoad_busy ⟨ht, hh, hm, hl⟩ hb) rfl
  · intro s i n ht hh hm hl hb hr
    exact (exec_reach _ s).next (rodLoad_standby ⟨ht, hh, hm, hl⟩ hb hr) rfl
  · intro s i n ht hh hm hl hb hr
    refine (exec_reach _ s).next (rodLoad_active ⟨ht, hh, hm, hl⟩ hb hr) ⟨fun e he => ?_, State.checkRod_passes⟩
    obtain ⟨hst, herr, hrec, hboot⟩ := (s.startMode 0 false).rodFails_shows i n e (rodOf (s.rodBuffer i n)).serial
    rw [State.checkRod_fails he]
    exact ⟨hst, herr, hrec, congrArg BootSt.rod hboot⟩

end Sys2Proof.Machine
end

section
/-! Executors of timetables: what an update of one leaves, and O18 (R147, R182). -/

namespace Sys2Proof.Machine

/-! ### The executor of a timetable -/

/-- An update of one executor that keeps a property of executors keeps it of every executor. -/
theorem State.ttb_setTtb_keeps {β : Type} (s : State) (c e : Nat) {f : TtbSt → TtbSt} (p : TtbSt → β) (h : ∀ t, p (f t) = p t) :
    p ((s.setTtb c f).ttb e) = p (s.ttb e) := by
  rcases eq_or_ne e c with rfl | hne
  · by_cases hl : e < s.ttbs.length
    · rw [s.ttb_setTtb_same e f hl, h]
    · simp [State.ttb, List.getD_eq_getElem?_getD, Nat.le_of_not_lt hl]
  · rw [s.ttb_setTtb_other hne]

theorem State.ttb_of_ttbs {s t : State} (h : t.ttbs = s.ttbs) (c : Nat) : t.ttb c = s.ttb c := by
  rw [State.ttb, State.ttb, h]

theorem Within.ttb_eq {A : List Area} {s t : State} (w : Within A s t) (n : Area.ttbs ∉ A) (c : Nat) : t.ttb c = s.ttb c :=
  State.ttb_of_ttbs (w.ttbs_eq n) c

/-! ### EXCHANGE_DEADLINE_CHECK -/

/-- Before the boundary after the deadline plus GRACE nothing is checked (R147, R182). -/
theorem exchangeDeadlineCheck_early {s : State} {c x : Nat} {m : Image} {y : XRef × Program} {i : Instance} {o : OpenStep}
    (hm : s.img c = some m) (hy : m.program x = some y) (hi : s.inst c x = some i) (hop : y.2.op ≠ 5)
    (ho : (s.ttb c).uncommitted.find? (fun o => o.step == i.step && o.iter == i.iter) = some o)
    (hd : s.time.beat ≤ o.boundary + y.1.deadline + m.grace) : exec (.exchangeDeadlineCheck c x) s = .next s := by
  have hp : s.prog c x = some (m, y.2) := by rw [State.prog, hm, Option.bind_some, hy, Option.map_some]
  show execExchangeDeadlineCheck c x s = _
  unfold execExchangeDeadlineCheck
  simp [hp, hi, ho, hy, hop, hd]

/-- An exchange due 80 beats after the boundary of its step, and an image of it with a GRACE of 8. -/
def dueExchange : XRef × Program :=
  (⟨5, 80, 0, 0, 0⟩, ⟨1, false, 0, 0, 0, 0, 12, 0, [⟨0, 0, 0⟩], [1, 0, 0], 48, 100, 0, 0, 0, 0, 0, [], false, false⟩)
def dueImage : Image :=
  ⟨1, 0, 0, 1000, 1, 3, 0, 100, 0, 0, 3, 8, 8, [], [⟨0, 90, false⟩], [], [], [dueExchange.1], [dueExchange.2], [], []⟩

/-- The exchange opened, and a unit that has begun its step in the present beat. -/
def dueInstance : Instance := ⟨3, 5, 0, 0, 0, true, .opened, 0, none, none, [], [], [], [], false, [], [], [], 0, []⟩
def dueState : State :=
  { State.reset.setTtb 3 (fun t => { t with image := some dueImage, uncommitted := [⟨0, 0, 0⟩] }) with insts := [dueInstance] }

/-- Refutes O18: its clause of EXCHANGE_DEADLINE_CHECK leaves out the time. In the beat in which the step of an opened exchange begins, 88
beats before its deadline plus GRACE, nothing is checked (R147, R182), and it stays OPEN. -/
theorem not_ttbCheckAndArm : ¬ Obligations.TtbCheckAndArm := by
  unfold Obligations.TtbCheckAndArm
  rintro ⟨-, -, -, -, -, -, -, -, -, -, -, -, -, h, -⟩
  obtain ⟨t, ht, -, hmissed, -⟩ := h dueState 3 5 (dueImage, dueExchange.2) dueInstance (by decide) (by decide) (by decide) rfl (by decide) rfl rfl
    (by decide) rfl rfl
  obtain rfl : dueState = t := by
    rw [exchangeDeadlineCheck_early (m := dueImage) (y := dueExchange) rfl rfl rfl (by decide) (o := ⟨0, 0, 0⟩) rfl (Nat.zero_le _)] at ht
    exact Host.Outcome.next.inj ht
  exact absurd hmissed (by decide)

end Sys2Proof.Machine
end

section
/-! Voids of a timetable: which is in progress after a VOID_SEND, and O20 (R148, R369). -/

namespace Sys2Proof.Machine

/-- Of the executors, the start of a void changes that of its context, whose void in progress is then that of the step (R148). -/
theorem State.startVoid_ttbs (s : State) (c : Nat) (m : Image) (o : OpenStep) (x : Miss) :
    ∃ f : TtbSt → TtbSt, (s.startVoid c m o x).ttbs = s.ttbs.modify c f ∧ ∀ t, (f t).void.map (·.step) = some o.step := by
  unfold State.startVoid
  extract_lets pg attempt rb v s₁ s₂ s₃ s₄ s₅
  have w₂ : Within [.regs] s₁ s₂ := (State.bump_within (by decide) _ _ (.refl _ s₁)).ite (.refl _ s₁)
  have w₃ : Within [.regs] s₁ s₃ := (State.service_within (by decide) c w₂).ite w₂
  have w₄ : Within [.regs, .flt, .agFlt] s₁ s₄ := State.detect_within (by decide) (by decide) .dz8 pg 2 x.detail (some c) (w₃.mono (by decide))
  have w₅ : Within [.regs, .flt, .agFlt] s₁ s₅ := (State.detect_within (by decide) (by decide) .dz8 pg 1 attempt (some c) w₄).ite w₄
  have w : Within [.regs, .aregs, .ports, .agPorts, .beyjo, .flt, .agFlt, .out] s₁ ((s₅.voidOut c v).notifyJob c 4 x.cause) :=
    State.notifyJob_within (by decide) (by decide) c 4 x.cause (State.voidOut_within (by decide) (by decide) (by decide) (by decide) (by decide)
      (by decide) (by decide) c v (w₅.mono (by decide)))
  exact ⟨_, w.ttbs_eq (by decide), fun _ => rfl⟩

theorem State.startVoid_length (s : State) (c : Nat) (m : Image) (o : OpenStep) (x : Miss) :
    (s.startVoid c m o x).ttbs.length = s.ttbs.length := by
  obtain ⟨f, hf, -⟩ := s.startVoid_ttbs c m o x
  rw [hf, List.length_modify]

theorem State.startVoid_void {s : State} {c : Nat} (m : Image) (o : OpenStep) (x : Miss) (hc : c < s.ttbs.length) :
    ((s.startVoid c m o x).ttb c).void.map (·.step) = some o.step := by
  obtain ⟨f, hf, hv⟩ := s.startVoid_ttbs c m o x
  rw [State.ttb_of_ttbs (t := s.startVoid c m o x) (s := s.setTtb c f) hf, s.ttb_setTtb_same c f hc, hv]

/-- The emergency throttle voids every uncommitted step, the oldest last: its void is the one in progress, whatever step the miss names
(R369; log entry 138). -/
theorem State.voidFor_throttle {s : State} {c : Nat} {x : Miss} {o : OpenStep} {r : List OpenStep} (m : Image) (q : OpenStep)
    (hx : x.cause = 4) (hu : (s.ttb c).uncommitted = o :: r) (hc : c < s.ttbs.length) :
    ((s.voidFor c m q x).ttb c).void.map (·.step) = some o.step := by
  unfold State.voidFor
  rw [if_pos hx, hu, List.reverse_cons, List.foldl_append, List.foldl_cons, List.foldl_nil]
  refine State.startVoid_void m o _ (hc.trans_eq ?_)
  exact (foldl_keeps (f := fun s (q : OpenStep) => s.startVoid c m q { x with step := q.step, iter := q.iter }) (fun u => u.ttbs.length)
    (fun u q => u.startVoid_length ..) r.reverse s).symm

theorem voidSend_voids {s : State} {c : Nat} {x : Miss} {m : Image} {o : OpenStep} (hx : (s.ttb c).miss = some x) (hm : s.img c = some m)
    (ho : (s.ttb c).uncommitted.find? (fun o => o.step == x.step && o.iter == x.iter) = some o) (ha : s.active = true)
    (hb : s.time.beat < s.commitBeat c o) : exec (.voidSend c) s = .next (s.voidFor c m o x) := by
  show execVoidSend c s = _
  unfold execVoidSend
  simp [hx, hm, ho, ha, hb]

/-- An active unit with two begun steps and a miss of the second with CAUSE THERMAL. -/
def throttledState : State :=
  (State.reset.wr PAR_STAT_ROLE 1).setTtb 3 fun t => { t with
    image := some dueImage, uncommitted := [⟨0, 0, 0⟩, ⟨1, 0, 0⟩], miss := some ⟨1, 0, 4, 0, none⟩ }

/-- Refutes O20: its clause of VOID_SEND takes the void in progress for that of the step of the miss. Under the emergency throttle it is
that of the oldest uncommitted step (R148, R369): with a miss of step 1 while step 0 is uncommitted too, it is that of step 0. -/
theorem not_ttbVoids : ¬ Obligations.TtbVoids := by
  unfold Obligations.TtbVoids
  rintro ⟨-, h, -⟩
  obtain ⟨t, ht, -, -, hstep, -⟩ := h throttledState 3 ⟨1, 0, 4, 0, none⟩ dueImage ⟨1, 0, 0⟩ (by decide) rfl rfl rfl rfl (by decide) (by decide)
  obtain rfl : throttledState.voidFor 3 dueImage ⟨1, 0, 0⟩ ⟨1, 0, 4, 0, none⟩ = t := by
    rw [voidSend_voids (m := dueImage) (o := ⟨1, 0, 0⟩) rfl rfl rfl (by decide) (by decide)] at ht
    exact Host.Outcome.next.inj ht
  rw [State.voidFor_throttle (o := ⟨0, 0, 0⟩) dueImage _ rfl rfl (by decide)] at hstep
  exact absurd hstep (by decide)

end Sys2Proof.Machine
end

section
/-! Steps and commits at the unit and at the agent, and O19 (R132, R135, R146, R150, R368). -/

namespace Sys2Proof.Machine

/-! ### Steps of the unit -/

/-- A running timetable of an active unit that is at a step boundary and neither ends there nor pauses for a flip. -/
structure State.AtBoundary (s : State) (c : Nat) (m : Image) : Prop where
  image : s.img c = some m
  active : s.active = true
  running : s.ttbState c = 5
  notPaused : s.rd (TTB_STAT_PAUSED (ttbPg c)) = 0
  armed : (s.ttb c).disarmReq = false
  noVoid : (s.ttb c).void = none
  goesOn : s.ended c m = false
  notQuiet : s.quiet .dz8 = false

section
variable {s : State} {c : Nat} {m : Image}

theorem stepBoundary_dz8 (h : s.AtBoundary c m) :
    exec (.stepBoundary .dz8 c) s = .next (if (s.ttb c).stopReq || (s.ttb c).held || s.flt.fatal then s.pauseAt c false false
      else if (m.step (s.rd (TTB_STEP_NEXT (ttbPg c)))).xdom && s.on TMK_STAT_XDOM_UNSAFE then s.pauseAt c false true
      else s.beginStep c m) := by
  show execStepBoundary .dz8 c s = _
  unfold execStepBoundary
  simp [h.image, h.active, h.running, h.notPaused, h.armed, h.noVoid, h.goesOn, h.notQuiet, State.on]

theorem stepBoundary_begins (h : s.AtBoundary c m) (hr : (s.ttb c).stopReq = false) (hh : (s.ttb c).held = false) (hf : s.flt.fatal = false)
    (hx : (m.step (s.rd (TTB_STEP_NEXT (ttbPg c)))).xdom = false) : exec (.stepBoundary .dz8 c) s = .next (s.beginStep c m) := by
  rw [stepBoundary_dz8 h, hr, hh, hf, hx]
  rfl

theorem stepBoundary_stops (h : s.AtBoundary c m) (hr : (s.ttb c).stopReq = true) :
    exec (.stepBoundary .dz8 c) s = .next (s.pauseAt c false false) := by
  rw [stepBoundary_dz8 h, hr]
  rfl

end

section
variable (s : State) (c : Nat)

/-- A begun step is the youngest that is not committed, and the next one follows it (R132). -/
theorem State.beginStep_effect (m : Image) (hc : c < s.ttbs.length) :
    ((s.beginStep c m).ttb c).uncommitted = (s.ttb c).uncommitted ++
      [⟨s.rd (TTB_STEP_NEXT (ttbPg c)), s.rd (TTB_ITER_ITER (ttbPg c)), s.time.beat⟩] ∧
    (s.beginStep c m).ttbState c = s.ttbState c ∧
    (s.beginStep c m).rd (TTB_STEP_NEXT (ttbPg c)) = (nextStep m.steps.length m.iterBeats (s.rd (TTB_STEP_NEXT (ttbPg c)))
      (s.rd (TTB_ITER_ITER (ttbPg c)))).1 % 2 ^ (TTB_STEP_NEXT (ttbPg c)).w := by
  unfold State.beginStep State.ttbState
  refine ⟨congrArg TtbSt.uncommitted (s.ttb_setTtb_same c _ hc), ?_, ?_⟩ <;>
    simp (disch := (simp only [Fld.key, TTB_STAT_STATE, TTB_STEP_NEXT, TTB_ITER_ITER, TTB_BASE_BEAT]; omega)) only
      [State.rd_wr_other, State.rd_wr_same, State.setTtb_rd]

/-- A timetable that pauses at its boundary keeps its STATE and its begun steps (R146). -/
theorem State.pauseAt_effect (hc : c < s.ttbs.length) :
    (s.pauseAt c false false).rd (TTB_STAT_PAUSED (ttbPg c)) = 1 ∧ (s.pauseAt c false false).rd (TTB_STAT_XDOM_HELD (ttbPg c)) = 0 ∧
    ((s.pauseAt c false false).ttb c).flipPaused = false ∧ ((s.pauseAt c false false).ttb c).uncommitted = (s.ttb c).uncommitted ∧
    (s.pauseAt c false false).ttbState c = s.ttbState c := by
  unfold State.pauseAt State.ttbState
  refine ⟨?_, ?_, congrArg TtbSt.flipPaused (s.ttb_setTtb_same c (fun t => { t with flipPaused := false }) hc),
    s.ttb_setTtb_keeps c c TtbSt.uncommitted fun _ => rfl, ?_⟩ <;>
    simp (disch := (simp only [Fld.key, TTB_STAT_STATE, TTB_STAT_PAUSED, TTB_STAT_XDOM_HELD, ttbPg, BYJ_NOTIFY_LOST]; omega)) only
      [State.rd_notifyJob, Bool.or_self, Bool.false_eq_true, if_false, State.setTtb_rd, State.rd_wr_other, State.rd_wr_same]
  · rfl
  · rfl

end


/-! ### What an event of the agent leaves -/

section
variable (s : State) (type cause iter step : Nat)

/-- An event goes to the queue, or is shown as lost (R482). -/
theorem State.agEvent_ag : ∃ l, (s.agEvent type cause iter step).ag = { s.ag with events := l } := by
  unfold State.agEvent
  split
  · exact ⟨_, rfl⟩
  · exact ⟨s.ag.events, (State.detect_frame ..).ag_eq (by decide)⟩

/-- Of the agent's block an event reaches the queue alone. -/
theorem State.agEvent_keeps {β : Type} (p : AgSt → β) (h : ∀ a l, p { a with events := l } = p a) :
    p (s.agEvent type cause iter step).ag = p s.ag := by
  obtain ⟨l, hl⟩ := s.agEvent_ag type cause iter step
  rw [hl, h]

theorem State.agEvent_aregsBut : AregsBut [Ia.TTB_EVTSTAT_LOST] s (s.agEvent type cause iter step) := by
  unfold State.agEvent
  split
  · exact .of_aregs rfl
  · exact ((AregsBut.refl _ s).awr (List.mem_singleton_self _) 1).trans (.of_aregs (State.detect_aregs ..))

theorem State.ard_agEvent {g : Fld} (h : g.key ≠ Ia.TTB_EVTSTAT_LOST.key) : (s.agEvent type cause iter step).ard g = s.ard g :=
  s.agEvent_aregsBut type cause iter step g fun f hf => by rwa [List.mem_singleton.1 hf]

end

/-! ### Cells of the agent's own -/

/-- The register fields of the agent that a cell of its own may count in: cells forwarded and escaped, and the records of a discarded one. -/
def agCellRegs : List Fld :=
  [RTE_FLIPSTAT_FWD, RTE_ESCCNT_FAILOVER, RTE_DISC_GEN, RTE_DISC_EPOCH, RTE_DISC_NOROUTE, FLT_DLL_HEAD_HEAD (dllPg 0),
   FLT_DLL_HEAD_WRAPPED (dllPg 0), FLT_DLL_HEAD_OVERFLOW (dllPg 0)]

section
variable (s : State) (c : Cell)

theorem State.deadLetter_aregsBut (e : DeadLetter) : AregsBut agCellRegs s (s.deadLetter .agent 0 e) := by
  unfold State.deadLetter
  extract_lets die pg ring head s₁ s₂ s₃
  have h₂ : AregsBut agCellRegs s s₂ := .awr (.of_aregs rfl) (by decide) _
  have h₃ : AregsBut agCellRegs s s₃ := by
    unfold s₃
    split
    · exact h₂.awr (by decide) 1
    · exact h₂
  split
  · exact h₃
  · exact h₃.abump (by decide) 1

theorem State.discardOwn_aregsBut (reason : Nat) : AregsBut agCellRegs s (s.discardOwn .agent c reason) := by
  have hmem : ∀ f ∈ [RTE_FLIPSTAT_FWD, RTE_ESCCNT_FAILOVER, RTE_DISC_GEN, RTE_DISC_EPOCH, RTE_DISC_NOROUTE], f ∈ agCellRegs := by decide
  unfold State.discardOwn
  extract_lets s₁
  have h₁ : AregsBut agCellRegs s s₁ := s.deadLetter_aregsBut _
  split
  · exact h₁.abump (hmem _ (FlipFrame.reasonDisc_mem ‹_›)) 1
  · exact h₁

theorem State.forward_aregsBut (p : Nat) (x : Cell) : AregsBut agCellRegs s ((s.countFwd .agent p c).enqueue .agent p none x) := by
  have w := State.enqueue_within (A := [.ports, .agPorts]) (by decide) (by decide) .agent p none x (.refl _ (s.countFwd .agent p c))
  refine AregsBut.trans (t := s.countFwd .agent p c) ?_ (.of_aregs (w.aregs_eq (by decide)))
  unfold State.countFwd
  split
  · exact .refl _ s
  · exact (AregsBut.refl _ s).abump (f := RTE_FLIPSTAT_FWD) (by decide) 1

theorem State.deliver_aregsBut : AregsBut agCellRegs s (s.deliver .agent none c) := by
  unfold State.deliver
  extract_lets s₁
  split
  · exact s.discardOwn_aregsBut c _
  · exact .of_aregs rfl

/-- A cell of the agent's own counts in the fields of `agCellRegs` alone (R103, R108, R116). -/
theorem State.send_aregsBut : AregsBut agCellRegs s (s.send .agent c) := by
  unfold State.send State.routeCell
  extract_lets e s₁
  split
  · exact s.discardOwn_aregsBut c _
  split
  · exact s.deliver_aregsBut c
  split
  · split
    · exact s.forward_aregsBut c _ _
    · exact s.discardOwn_aregsBut c _
  split
  · exact s.forward_aregsBut c _ _
  split
  · exact ((AregsBut.refl _ s).abump (f := RTE_ESCCNT_FAILOVER) (by decide) 1).trans (s₁.forward_aregsBut c _ _)
  · exact s.discardOwn_aregsBut c _

theorem State.sendStepmiss_aregsBut (k : AgCounter) (iter : Nat) : AregsBut agCellRegs s (s.sendStepmiss k iter) := by
  unfold State.sendStepmiss
  extract_lets x ev s₁
  exact (AregsBut.of_aregs (State.detect_aregs ..)).trans (s₁.send_aregsBut _)

/-- The reports of a step that is short of cells leave what the agent holds of its list. -/
theorem State.foldl_sendStepmiss_ag (iter : Nat) (l : List AgCounter) : (l.foldl (fun s k => s.sendStepmiss k iter) s).ag = s.ag :=
  Within.ag_eq (A := [.regs, .aregs, .ports, .agPorts, .flt, .agFlt, .out]) ((Within.refl _ s).foldl fun _ k =>
    State.sendStepmiss_within (by decide) (by decide) (by decide) (by decide) (by decide) (by decide) (by decide) k iter) (by decide)

theorem State.foldl_sendStepmiss_aregsBut (iter : Nat) (l : List AgCounter) :
    AregsBut agCellRegs s (l.foldl (fun s k => s.sendStepmiss k iter) s) :=
  List.foldlRecOn (motive := fun u => AregsBut agCellRegs s u) l _ (.refl _ s) fun u hu k _ => hu.trans (u.sendStepmiss_aregsBut k iter)

end

/-! ### Steps of the agent -/

section
variable {s : State} {c : Nat}

/-- An aligned agent with a running list begins its next step (R135). -/
theorem stepBoundary_agent_begins (hs : s.ard Ia.TTB_STAT_STATE = 3) (hd : s.ag.disarmReq = false) (hp : s.ag.flipPaused = false)
    (hr : s.agRolled = false) (he : s.agEnded = false) (hq : s.quiet .agent = false) (hi : s.ag.stopInject = false)
    (ht : s.agTime.injectStop = false) (ha : s.ard Ia.TMK_STAT_STATE = 2) :
    exec (.stepBoundary .agent c) s = .next (s.agBegin (s.ard (TTB_STEP_NEXT agTtb)) (s.ard (TTB_ITER_ITER agTtb))) := by
  show execStepBoundary .agent c s = _
  rw [execStepBoundary, State.agBoundary]
  simp [hs, hd, hp, hr, he, hq, hi, ht, ha]

/-- An agent that is not aligned begins no step (R43). -/
theorem stepBoundary_agent_unaligned (hs : s.ard Ia.TTB_STAT_STATE = 3) (hd : s.ag.disarmReq = false) (hq : s.quiet .agent = false)
    (ha : s.ard Ia.TMK_STAT_STATE ≠ 2) : exec (.stepBoundary .agent c) s = .next s := by
  show execStepBoundary .agent c s = _
  rw [execStepBoundary, State.agBoundary]
  simp [hs, hd, hq, ha]

theorem State.agBegin_effect (st iter : Nat) : (s.agBegin st iter).ag.uncommitted = s.ag.uncommitted ++ [⟨st, iter, s.agTime.beat⟩] ∧
    (s.agBegin st iter).ard Ia.TTB_STAT_STATE = s.ard Ia.TTB_STAT_STATE ∧ (s.agBegin st iter).ag.hostMem = s.ag.hostMem := by
  refine ⟨rfl, ?_, rfl⟩
  unfold State.agBegin
  simp (disch := decide) only [State.ard_awr_other, State.setAg_ard]

/-- The agent's oldest begun step is committed, and its counters are unbound (R150). -/
def State.agCommitted (s : State) (o : OpenStep) (r : List OpenStep) : State :=
  ((s.setAg fun a => { a with uncommitted := r, counters := a.counters.filter fun k => k.step != o.step }).awr
    (TTB_STEP_COMMITTED agTtb) o.step).agEvent 1 0 o.iter o.step

theorem State.agCommitted_ard (s : State) (o : OpenStep) (r : List OpenStep) {g : Fld} (h : g.key ≠ Ia.TTB_EVTSTAT_LOST.key) :
    (s.agCommitted o r).ard g = (s.awr (TTB_STEP_COMMITTED agTtb) o.step).ard g :=
  State.ard_agEvent _ 1 0 o.iter o.step h

theorem State.agCommitted_effect (s : State) (o : OpenStep) (r : List OpenStep) : (s.agCommitted o r).ag.uncommitted = r ∧
    ((s.agCommitted o r).ag.counters = s.ag.counters.filter fun k => k.step != o.step) ∧
    (s.agCommitted o r).ard (TTB_STEP_COMMITTED agTtb) = o.step % 2 ^ 32 := by
  unfold State.agCommitted
  refine ⟨State.agEvent_keeps _ _ _ _ _ AgSt.uncommitted fun _ _ => rfl, State.agEvent_keeps _ _ _ _ _ AgSt.counters fun _ _ => rfl, ?_⟩
  exact (State.ard_agEvent _ _ _ _ _ (by decide)).trans (State.ard_awr_same ..)

theorem State.agCommitted_ended (s : State) (o : OpenStep) (r : List OpenStep) : (s.agCommitted o r).agEnded = s.agEnded := by
  rw [State.agEnded, State.agEnded, s.agCommitted_ard o r (by decide), s.agCommitted_ard o r (by decide), State.ard_awr_other _ (by decide),
    State.ard_awr_other _ (by decide)]

/-- K_s of the oldest begun step at an agent that is not short of cells (R150, R481). -/
theorem stepCommit_agent_commits {o : OpenStep} {r : List OpenStep} (hu : s.ag.uncommitted = o :: r) (hv : s.agVoided o.step = false)
    (hi : s.ag.stopInject = false) (hn : o.step ∉ s.ag.short) (he : s.agEnded = false) :
    exec (.stepCommit .agent c) s = .next (s.agCommitted o r) := by
  have hended : (s.agCommitted o r).agEnded = false := (s.agCommitted_ended o r).trans he
  show execStepCommit .agent c s = _
  rw [execStepCommit, State.agCommit]
  simp only [hu, hv, hi, List.contains_eq_mem, hn, decide_false, Bool.false_eq_true, if_false]
  exact congrArg Host.Outcome.next (if_neg fun h => absurd ((Bool.and_eq_true_iff.1 h).1.symm.trans hended) (by decide))

/-- The counters of a step that is short of cells are reported again, and injection stops (R147, R481). -/
def State.agShort (s : State) (o : OpenStep) : State :=
  ((s.ag.counters.filter fun k => k.step == o.step && decide (k.count < k.expect)).foldl (fun s k => s.sendStepmiss k o.iter) s).setAg
    fun a => { a with stopInject := true }

theorem State.agShort_effect (s : State) (o : OpenStep) : (s.agShort o).ag.uncommitted = s.ag.uncommitted ∧
    (s.agShort o).ag.stopInject = true ∧ (s.agShort o).ard (TTB_STEP_COMMITTED agTtb) = s.ard (TTB_STEP_COMMITTED agTtb) := by
  unfold State.agShort
  refine ⟨?_, rfl, s.foldl_sendStepmiss_aregsBut _ _ _ (by decide)⟩
  rw [State.setAg_ag, State.foldl_sendStepmiss_ag]

theorem stepCommit_agent_short {o : OpenStep} {r : List OpenStep} (hu : s.ag.uncommitted = o :: r) (hv : s.agVoided o.step = false)
    (hi : s.ag.stopInject = false) (hn : o.step ∈ s.ag.short) : exec (.stepCommit .agent c) s = .next (s.agShort o) := by
  show execStepCommit .agent c s = _
  rw [execStepCommit, State.agCommit]
  simp only [hu, hv, hi, List.contains_eq_mem, hn, decide_true, Bool.false_eq_true, if_false, if_true]
  rfl

end

/-! ### A commit at the unit -/

theorem stepCommit_dz8 {s : State} {c : Nat} {m : Image} {o : OpenStep} {r : List OpenStep} (hu : (s.ttb c).uncommitted = o :: r)
    (hm : s.img c = some m) (ha : s.active = true) (hv : (s.ttb c).void = none) :
    exec (.stepCommit .dz8 c) s = .next (s.commitStep c m o) := by
  show execStepCommit .dz8 c s = _
  rw [execStepCommit]
  simp [hu, hm, ha, hv]

/-- The commit of UPDATE exchanges changes no more of the executors than the step that its context records (R256, R398). -/
theorem State.commitUpdates_ttbs (s : State) (c : Nat) (xids : List Nat) (n : Nat) :
    ∃ f : TtbSt → TtbSt, (s.commitUpdates c xids n).ttbs = s.ttbs.modify c f ∧ ∀ t, ∃ k, f t = { t with updateAt := k } := by
  unfold State.commitUpdates
  extract_lets s₁ mine pg s₂
  have w₂ : Within [.regs] s₁ s₂ := (Within.refl _ s₁).foldl fun u o h =>
    State.bump_within (by decide) _ _ (State.wr_within (by decide) _ _ (State.wr_within (by decide) _ _ h))
  rw [State.setHbm_ttbs, w₂.ttbs_eq (by decide)]
  unfold s₁
  split
  · exact ⟨id, (List.modify_id ..).symm, fun t => ⟨t.updateAt, rfl⟩⟩
  · have w := Within.foldl (A := [.hbm]) (l := List.range s.mdies) (.refl _ s) fun u d => State.commitDie_within (by decide) c xids n d
    exact ⟨fun t => { t with updateAt := n }, by rw [State.setTtb_ttbs, w.ttbs_eq (by decide)], fun t => ⟨n, rfl⟩⟩

theorem State.rd_ttbTo (s : State) {c : Nat} {g : Fld} (hs : g.key ≠ (TTB_STAT_STATE (ttbPg c)).key)
    (he : g.key ≠ (TTB_ENERGY_DECLARED_UJ (ttbPg c)).key) (st : Nat) : (s.ttbTo c st).rd g = s.rd g :=
  (State.rd_wr_other _ he _).trans (State.rd_wr_other s hs st)

/-- The UPDATE exchanges of a step commit and its instances close; the step leaves the begun ones and its voids are forgotten (R150). -/
def State.closedStep (s : State) (c : Nat) (m : Image) (o : OpenStep) : State :=
  ((s.commitUpdates c (m.updatesOf o.step) (1 + o.iter * 2 ^ 32 + o.step)).closeStep c o.step o.iter).setTtb c fun t => { t with
    uncommitted := t.uncommitted.drop 1, attempts := t.withAttempts o.step o.iter 0 }

/-- The consecutive voids of the oldest step that has any (R149; log entry 142). -/
def firstAttempts (l : List (Nat × Nat × Nat)) : Nat := match l with | x :: _ => x.2.2 | [] => 0

/-- A timetable whose last step has committed is DONE (R130, R154). -/
def State.doneIfEnded (s : State) (c : Nat) (m : Image) : State :=
  if s.ended c m && (s.ttb c).uncommitted.isEmpty then (s.ttbTo c 7).notifyJob c 11 0 else s

theorem State.commitStep_eq (s : State) (c : Nat) (m : Image) (o : OpenStep) : s.commitStep c m o =
    ((((s.closedStep c m o).wr (TTB_STEP_COMMITTED (ttbPg c)) o.step).wr (TTB_VOID_ATTEMPT (ttbPg c))
      (firstAttempts ((s.closedStep c m o).ttb c).attempts)).bump (TTB_COUNT_COMMITS (ttbPg c)) 1).doneIfEnded c m := rfl

theorem State.closedStep_ttb (s : State) {c : Nat} (m : Image) (o : OpenStep) (hc : c < s.ttbs.length) :
    ((s.closedStep c m o).ttb c).uncommitted = (s.ttb c).uncommitted.drop 1 ∧
      ((s.closedStep c m o).ttb c).attempts = (s.ttb c).withAttempts o.step o.iter 0 := by
  unfold State.closedStep
  set s₁ := s.commitUpdates c (m.updatesOf o.step) (1 + o.iter * 2 ^ 32 + o.step)
  obtain ⟨f, hf, hk⟩ := s.commitUpdates_ttbs c (m.updatesOf o.step) (1 + o.iter * 2 ^ 32 + o.step)
  obtain ⟨k, hk⟩ := hk (s.ttb c)
  have w : Within [.regs, .insts, .tile] s₁ (s₁.closeStep c o.step o.iter) :=
    State.closeStep_within (by decide) (by decide) (by decide) c o.step o.iter (.refl _ s₁)
  have hl : c < (s₁.closeStep c o.step o.iter).ttbs.length := by rwa [w.ttbs_eq (by decide), hf, List.length_modify]
  have h₁ : (s₁.closeStep c o.step o.iter).ttb c = { s.ttb c with updateAt := k } := by
    rw [w.ttb_eq (by decide), State.ttb_of_ttbs (s := s.setTtb c f) hf, s.ttb_setTtb_same c f hc, hk]
  rw [State.ttb_setTtb_same _ c _ hl, h₁]
  exact ⟨rfl, rfl⟩

theorem State.doneIfEnded_ttb (s : State) (c e : Nat) (m : Image) : (s.doneIfEnded c m).ttb e = s.ttb e := by
  unfold State.doneIfEnded
  split <;> rfl

/-- Only STATE, ENERGY and the count of lost NOTIFY records change where a timetable ends. -/
theorem State.rd_doneIfEnded (s : State) {c : Nat} {g : Fld} (hs : g.key ≠ (TTB_STAT_STATE (ttbPg c)).key)
    (he : g.key ≠ (TTB_ENERGY_DECLARED_UJ (ttbPg c)).key) (hn : g.key ≠ BYJ_NOTIFY_LOST.key) (m : Image) : (s.doneIfEnded c m).rd g = s.rd g := by
  unfold State.doneIfEnded
  split
  · exact (State.rd_notifyJob _ hn ..).trans (s.rd_ttbTo hs he 7)
  · rfl

/-- The oldest begun step is committed and shown; ATTEMPT is then the count of the next step that was voided (R150; log entry 142). -/
theorem State.commitStep_effect (s : State) {c : Nat} (m : Image) (o : OpenStep) (hc : c < s.ttbs.length) :
    ((s.commitStep c m o).ttb c).uncommitted = (s.ttb c).uncommitted.drop 1 ∧
    (s.commitStep c m o).rd (TTB_STEP_COMMITTED (ttbPg c)) = o.step % 2 ^ 32 ∧
    (s.commitStep c m o).rd (TTB_VOID_ATTEMPT (ttbPg c)) =
      firstAttempts ((s.ttb c).withAttempts o.step o.iter 0) % 2 ^ (TTB_VOID_ATTEMPT (ttbPg c)).w := by
  obtain ⟨hu, ha⟩ := s.closedStep_ttb m o hc
  rw [State.commitStep_eq, ha]
  refine ⟨(congrArg TtbSt.uncommitted (State.doneIfEnded_ttb ..)).trans hu, ?_, ?_⟩ <;>
    simp (disch := (simp only [Fld.key, TTB_STEP_COMMITTED, TTB_VOID_ATTEMPT, TTB_COUNT_COMMITS, TTB_STAT_STATE, TTB_ENERGY_DECLARED_UJ, ttbPg,
      BYJ_NOTIFY_LOST]; omega)) only [State.rd_doneIfEnded, State.rd_bump_other, State.rd_wr_other, State.rd_wr_same]
  rfl

/-- Settles O19: each case is the effect of its command, within the parts of its row (`exec_reach`). The count of voids for each step is log
entry 142. -/
theorem ttbSteps : Obligations.TtbSteps := by
  unfold Obligations.TtbSteps
  refine ⟨?_, ?_, ?_, ?_, ?_, ?_, ?_⟩
  · intro s c m hc hl him hact hrun hpa hd hv he hq hr hh hf hx
    obtain ⟨hu, hst, hn⟩ := s.beginStep_effect c m (hc.trans_eq hl.symm)
    exact (exec_reach _ s).next (stepBoundary_begins ⟨him, hact, hrun, hpa, hd, hv, he, hq⟩ hr hh hf hx) ⟨hu, hst.trans hrun, hn⟩
  · intro s c m hc hl him hact hrun hpa hd hv he hq hr
    obtain ⟨hp, hx, hfp, hu, hst⟩ := s.pauseAt_effect c (hc.trans_eq hl.symm)
    exact (exec_reach _ s).next (stepBoundary_stops ⟨him, hact, hrun, hpa, hd, hv, he, hq⟩ hr) ⟨hp, hx, hfp, hu, hst.trans hrun⟩
  · intro s c hs hd hp hr he hq hi ht ha
    obtain ⟨hu, hst, hm⟩ := State.agBegin_effect (s := s) (s.ard (TTB_STEP_NEXT agTtb)) (s.ard (TTB_ITER_ITER agTtb))
    exact (exec_reach _ s).next (stepBoundary_agent_begins hs hd hp hr he hq hi ht ha) ⟨hu, hst.trans hs, hm⟩
  · intro s c hs hd hq ha
    exact (exec_reach _ s).next (stepBoundary_agent_unaligned hs hd hq ha) rfl
  · intro s c m o r hc hl hu hm ha hv
    obtain ⟨hu', hco, hat⟩ := s.commitStep_effect m o (hc.trans_eq hl.symm)
    exact (exec_reach _ s).next (stepCommit_dz8 hu hm ha hv) ⟨by rw [hu', hu, List.drop_one, List.tail_cons], hco, hat⟩
  · intro s c o r hu hv hi hn he
    exact (exec_reach _ s).next (stepCommit_agent_commits hu hv hi hn he) (s.agCommitted_effect o r)
  · intro s c o r hu hv hi hn
    exact (exec_reach _ s).next (stepCommit_agent_short hu hv hi hn) (s.agShort_effect o)

end Sys2Proof.Machine
end

section
/-! Rollback and restart of a voided step, at the unit and at the agent (R149 to R151). -/

namespace Sys2Proof.Machine

/-! ### ROLLBACK -/

/-- An executor whose void has been rolled back; the attempt had parity `old` (R149, R150). -/
def TtbSt.rolledBack (t : TtbSt) (v : VoidSt) (old : Nat) : TtbSt :=
  { t with
    uncommitted := t.uncommitted.filter fun o => !v.takes o
    lastRb := if old = 0 then (some v.rb, t.lastRb.2) else (t.lastRb.1, some v.rb)
    void := some { v with rolled := true } }

/-- The steps of a void are dropped, and the voided step is next again (R150). -/
def State.rolledBack (s : State) (c : Nat) (v : VoidSt) : State :=
  let pg := ttbPg c
  let s := s.dropSteps c v.takes
  let ib := match s.img c with | some m => m.iterBeats | none => 0
  (((s.wr (TTB_BASE_BEAT pg) (s.rd (TTB_BASE_BEAT pg) - (s.rd (TTB_ITER_ITER pg) - v.iter) * ib)).wr (TTB_STEP_NEXT pg) v.step).wr
    (TTB_ITER_ITER pg) v.iter).setTtb c fun t => t.rolledBack v (s.rd (TTB_VOID_PARITY pg))

section
variable {s : State} {c : Nat} {v : VoidSt}

theorem State.rollbackAt_restarts (hv : (s.ttb c).void = some v) (hr : v.rolled = false) (hs : v.rs.isSome = true) :
    s.rollbackAt c = s.rolledBack c v := by
  have hn : v.rs.isNone = false := by rw [← Option.not_isSome, hs]; rfl
  unfold State.rollbackAt
  simp only [hv, hr, hn, Bool.false_eq_true, if_false]
  rfl

/-- A void without a restart beat stops the job at its rollback (R149, R151). -/
theorem State.rollbackAt_stops (hv : (s.ttb c).void = some v) (hr : v.rolled = false) (hs : v.rs = none)
    (h5 : (s.rolledBack c v).ttbState c = 5) :
    s.rollbackAt c = (((s.rolledBack c v).setTtb c fun t => { t with void := none }).ttbTo c 6).notifyJob c 1 v.cause := by
  have hn : v.rs.isNone = true := by rw [hs]; rfl
  unfold State.rollbackAt
  simp only [hv, hr, hn, Bool.false_eq_true, if_false, if_true]
  exact if_pos h5

theorem State.dropSteps_ttb (s : State) (c e : Nat) (gone : OpenStep → Bool) : (s.dropSteps c gone).ttb e = s.ttb e :=
  (State.dropSteps_within (A := [.regs, .insts, .tile, .hbm]) (by decide) (by decide) (by decide) (by decide) c gone (.refl _ s)).ttb_eq
    (by decide) e

theorem State.dropSteps_length (s : State) (c : Nat) (gone : OpenStep → Bool) : (s.dropSteps c gone).ttbs.length = s.ttbs.length :=
  congrArg List.length ((State.dropSteps_within (A := [.regs, .insts, .tile, .hbm]) (by decide) (by decide) (by decide) (by decide) c gone
    (.refl _ s)).ttbs_eq (by decide))

theorem State.rolledBack_ttb (s : State) (v : VoidSt) (hc : c < s.ttbs.length) : ∃ old, (s.rolledBack c v).ttb c = (s.ttb c).rolledBack v old := by
  have hl : c < (s.dropSteps c v.takes).ttbs.length := hc.trans_eq (s.dropSteps_length c v.takes).symm
  refine ⟨(s.dropSteps c v.takes).rd (TTB_VOID_PARITY (ttbPg c)), ?_⟩
  rw [← s.dropSteps_ttb c c v.takes]
  exact State.ttb_setTtb_same (s.dropSteps c v.takes) c _ hl

theorem State.rolledBack_next (s : State) (c : Nat) (v : VoidSt) :
    (s.rolledBack c v).rd (TTB_STEP_NEXT (ttbPg c)) = v.step % 2 ^ (TTB_STEP_NEXT (ttbPg c)).w ∧
      (s.rolledBack c v).rd (TTB_ITER_ITER (ttbPg c)) = v.iter % 2 ^ (TTB_ITER_ITER (ttbPg c)).w := by
  unfold State.rolledBack
  constructor <;>
    simp (disch := (simp only [Fld.key, TTB_STEP_NEXT, TTB_ITER_ITER]; omega)) only [State.setTtb_rd, State.rd_wr_other, State.rd_wr_same]

theorem State.dropSteps_state (s : State) (c : Nat) (gone : OpenStep → Bool) : (s.dropSteps c gone).ttbState c = s.ttbState c :=
  State.rd_dropSteps (c := c + 1) (fun f hf => by
    cases hf <;> simp only [Fld.key, TTB_STAT_STATE, HBC_MERGE_IN_USE, HBC_MERGE_PEAK, nmuPg, CLX_ENG_STAT_OPEN, CLX_ENG_STAT_PEAK,
      TTB_ENERGY_DECLARED_UJ, ttbPg, BYJ_NOTIFY_LOST] <;> omega) s c gone

theorem State.rolledBack_state (s : State) (c : Nat) (v : VoidSt) : (s.rolledBack c v).ttbState c = s.ttbState c := by
  refine Eq.trans ?_ (s.dropSteps_state c v.takes)
  unfold State.rolledBack State.ttbState
  simp (disch := (simp only [Fld.key, TTB_STAT_STATE, TTB_BASE_BEAT, TTB_STEP_NEXT, TTB_ITER_ITER]; omega)) only
    [State.setTtb_rd, State.rd_wr_other]

theorem State.ttbTo_state (s : State) (c : Nat) {st : Nat} (h : st < 16) : (s.ttbTo c st).ttbState c = st := by
  unfold State.ttbTo State.ttbState
  rw [State.rd_wr_other _ (by simp only [Fld.key, TTB_STAT_STATE, TTB_ENERGY_DECLARED_UJ]; omega), State.rd_wr_same]
  exact Nat.mod_eq_of_lt h

theorem State.notifyJob_state (s : State) (c e code detail : Nat) : (s.notifyJob e code detail).ttbState c = s.ttbState c :=
  s.rd_notifyJob (by simp only [Fld.key, TTB_STAT_STATE, ttbPg, BYJ_NOTIFY_LOST]; omega) ..

/-- A void without a restart beat leaves a STOPPED job with no void in progress (R149, R151). -/
theorem State.stopsRolledBack_effect (s : State) (v : VoidSt) (hc : c < s.ttbs.length) :
    let t := ((s.rolledBack c v).setTtb c fun t => { t with void := none }).ttbTo c 6
    ((t.notifyJob c 1 v.cause).ttb c).void = none ∧ (t.notifyJob c 1 v.cause).ttbState c = 6 := by
  intro t
  have hl : c < (s.rolledBack c v).ttbs.length := by
    rw [State.rolledBack, State.setTtb_ttbs, List.length_modify]
    exact hc.trans_eq (s.dropSteps_length c v.takes).symm
  have w : Within [.regs, .beyjo] t (t.notifyJob c 1 v.cause) := State.notifyJob_within (by decide) (by decide) c 1 v.cause (.refl _ t)
  rw [w.ttb_eq (by decide), State.notifyJob_state]
  exact ⟨congrArg TtbSt.void ((s.rolledBack c v).ttb_setTtb_same c (fun t => { t with void := none }) hl),
    State.ttbTo_state _ c (by decide)⟩

/-! ### A job that stops -/

/-- A job that stops is STOPPED with no begun step and no void (R151, R154). -/
theorem State.stopJob_effect (s : State) (cause : Nat) (hc : c < s.ttbs.length) : (s.stopJob c cause).ttbState c = 6 ∧
    ((s.stopJob c cause).ttb c).void = none ∧ ((s.stopJob c cause).ttb c).uncommitted = [] := by
  unfold State.stopJob
  extract_lets pg t first fresh v s₁ s₂ s₃
  have w₁ : Within [.regs, .aregs, .ports, .agPorts, .flt, .agFlt, .out] s s₁ :=
    (State.voidOut_within (by decide) (by decide) (by decide) (by decide) (by decide) (by decide) (by decide) c v
      (State.wr_within (by decide) _ _ (.refl _ s))).ite (.refl _ s)
  have hl : c < s₂.ttbs.length := by rwa [State.dropSteps_length, w₁.ttbs_eq (by decide)]
  have w : Within [.regs, .flt, .agFlt, .beyjo] s₃ (((s₃.ttbTo c 6).detect .dz8 pg 3 0 (some c)).notifyJob c 1 cause) :=
    State.notifyJob_within (by decide) (by decide) c 1 cause (State.detect_within (by decide) (by decide) .dz8 pg 3 0 (some c)
      (State.ttbTo_within (by decide) c 6 (.refl _ s₃)))
  rw [w.ttb_eq (by decide), State.notifyJob_state, State.ttbState, State.rd_detect]
  have h₃ := State.ttb_setTtb_same ((s₂.wr (TTB_STEP_NEXT pg) v.step).wr (TTB_ITER_ITER pg) v.iter) c (fun t => { t with
    uncommitted := [], miss := none, void := none, others := [], stopReq := false, disarmReq := false, flipPaused := false }) hl
  exact ⟨s₃.ttbTo_state c (by decide), congrArg TtbSt.void h₃, congrArg TtbSt.uncommitted h₃⟩

/-! ### RESTART_BEAT -/

/-- A member that does not show the serial stops the job at its home unit (R151). -/
theorem restartBeat_stops (hv : (s.ttb c).void = some v) (hr : v.rolled = true) (hu : v.unconfirmed ≠ []) (hh : v.home = s.fid)
    (hn : (s.ctx c).release = none) : exec (.restartBeat .dz8 c) s = .next (s.stopJob c v.cause) := by
  show execRestartBeat .dz8 c s = _
  rw [execRestartBeat]
  simp [hv, hr, hu, hh, hn]

/-- The void ends with its parity, and the voided step begins at the restart beat (R150). -/
def State.restarted (s : State) (c : Nat) (v : VoidSt) (rs : Nat) : State :=
  ((s.setTtb c fun t => { t with void := none }).wr (TTB_VOID_PARITY (ttbPg c)) v.parity).rebase c rs

theorem restartBeat_restarts {rs : Nat} (hv : (s.ttb c).void = some v) (hr : v.rolled = true) (hu : v.unconfirmed = []) (hs : v.rs = some rs)
    (hn : (s.ctx c).release = none) : exec (.restartBeat .dz8 c) s = .next (s.restarted c v rs) := by
  show execRestartBeat .dz8 c s = _
  rw [execRestartBeat]
  simp [hv, hr, hu, hs, hn, State.restarted]

theorem State.restarted_effect (s : State) (v : VoidSt) (rs : Nat) (hc : c < s.ttbs.length) : ((s.restarted c v rs).ttb c).void = none ∧
    (s.restarted c v rs).rd (TTB_VOID_PARITY (ttbPg c)) = v.parity % 2 ∧
    (s.restarted c v rs).rd (TTB_BASE_BEAT (ttbPg c)) = (rs - s.nextStart c) % 2 ^ (TTB_BASE_BEAT (ttbPg c)).w ∧
    (s.restarted c v rs).ttbState c = s.ttbState c := by
  set u := (s.setTtb c fun t => { t with void := none }).wr (TTB_VOID_PARITY (ttbPg c)) v.parity
  have himg : u.img c = s.img c := s.ttb_setTtb_keeps c c TtbSt.image fun _ => rfl
  have hnext : u.nextStart c = s.nextStart c := by
    rw [State.nextStart, State.nextStart, himg,
      State.rd_wr_other _ (by simp only [Fld.key, TTB_STEP_NEXT, TTB_VOID_PARITY]; omega), State.setTtb_rd]
  rw [show s.restarted c v rs = u.rebase c rs from rfl, State.rebase, hnext]
  refine ⟨congrArg TtbSt.void (s.ttb_setTtb_same c (fun t => { t with void := none }) hc), ?_, State.rd_wr_same .., ?_⟩
  · rw [State.rd_wr_other _ (by simp only [Fld.key, TTB_VOID_PARITY, TTB_BASE_BEAT]; omega), State.rd_wr_same]
    rfl
  · rw [State.ttbState, State.rd_wr_other _ (by simp only [Fld.key, TTB_STAT_STATE, TTB_BASE_BEAT]; omega),
      State.rd_wr_other _ (by simp only [Fld.key, TTB_STAT_STATE, TTB_VOID_PARITY]; omega)]
    rfl

end

/-! ### Rollback and restart of the agent -/

section
variable {s : State} {v : VoidSt}

theorem State.agRollback_effect (hv : s.ag.void = some v) (hr : v.rolled = false) (hs : v.rs.isSome = true) :
    s.agRollback.ard (TTB_STEP_NEXT agTtb) = v.step % 2 ^ (TTB_STEP_NEXT agTtb).w ∧ s.agRollback.ag.void = some { v with rolled := true } ∧
    s.agRollback.ag.stopInject = false ∧
    (s.agRollback.ag.uncommitted = s.ag.uncommitted.filter fun o => !decide ([v.iter, v.step] ≤ [o.iter, o.step])) := by
  have hn : v.rs.isNone = false := by rw [← Option.not_isSome, hs]; rfl
  unfold State.agRollback
  simp only [hv, hr, hn, Bool.false_eq_true, if_false]
  refine ⟨?_, State.agEvent_keeps _ _ _ _ _ AgSt.void fun _ _ => rfl, State.agEvent_keeps _ _ _ _ _ AgSt.stopInject fun _ _ => rfl,
    State.agEvent_keeps _ _ _ _ _ AgSt.uncommitted fun _ _ => rfl⟩
  simp (disch := decide) only [State.ard_agEvent, State.ard_awr_other, State.ard_awr_same]

theorem State.agRestart_effect {rs : Nat} (hv : s.ag.void = some v) (hr : v.rolled = true) (hd : s.ag.disarmReq = false) (hs : v.rs = some rs) :
    s.agRestart.ag.void = none ∧ s.agRestart.ard (TTB_VOID_PARITY agTtb) = v.parity % 2 ∧ s.agRestart.ag.uncommitted = s.ag.uncommitted := by
  unfold State.agRestart State.agRebase
  simp only [hv, hr, hd, hs, Bool.true_and, Bool.false_eq_true, if_false, if_true]
  refine ⟨State.agEvent_keeps _ _ _ _ _ AgSt.void fun _ _ => rfl, ?_, State.agEvent_keeps _ _ _ _ _ AgSt.uncommitted fun _ _ => rfl⟩
  simp (disch := decide) only [State.ard_agEvent, State.ard_awr_other, State.ard_awr_same]
  rfl

end

end Sys2Proof.Machine
end

section
/-! Congestion map and energy, and O21 (R141, R149, R150, R151, R153, R256). -/

namespace Sys2Proof.Machine

/-! ### CMAP_COLLECT -/

/-- What the agents count is added to one executor's map alone (R153). -/
theorem State.foldl_cmapAdd_regs (s : State) (c : Nat) (l : List CongestionCount) :
    (l.foldl (fun s x => s.cmapAdd c x.link x.late x.peak x.hot) s).regs = s.regs :=
  Within.regs_eq (A := [.ttbs]) ((Within.refl _ s).foldl fun _ x => State.cmapAdd_within (by decide) c x.link x.late x.peak x.hot) (by decide)

theorem State.foldl_cmapAdd_ttb (s : State) (c : Nat) (l : List CongestionCount) :
    ((l.foldl (fun s x => s.cmapAdd c x.link x.late x.peak x.hot) s).ttb c).uncommitted = (s.ttb c).uncommitted := by
  induction l generalizing s with
  | nil => rfl
  | cons x l ih =>
    rw [List.foldl_cons, ih]
    exact s.ttb_setTtb_keeps c c TtbSt.uncommitted fun _ => rfl

/-- In hardware mode the counts of the agents are added to the map of the context (R153). -/
def State.collected (s : State) (c : Nat) (l : List CongestionCount) : State :=
  let s := s.startMode 8 (s.hostMode 8)
  if s.modeNow 8 then s else l.foldl (fun s x => s.cmapAdd c x.link x.late x.peak x.hot) s

theorem State.collected_regsBut (s : State) (c : Nat) (l : List CongestionCount) : RegsBut [GEN_MODE_IN_FORCE] s (s.collected c l) := by
  have h : RegsBut [GEN_MODE_IN_FORCE] s (s.startMode 8 (s.hostMode 8)) := (RegsBut.refl _ s).wr (List.mem_singleton_self _) _
  unfold State.collected
  extract_lets s₁
  split
  · exact h
  · exact h.trans (.of_regs (s₁.foldl_cmapAdd_regs c l))

theorem State.collected_effect (s : State) (c : Nat) (l : List CongestionCount) : RegsBut [GEN_MODE_IN_FORCE] s (s.collected c l) ∧
    ((s.collected c l).ttb c).uncommitted = (s.ttb c).uncommitted ∧ (s.collected c l).ttbState c = s.ttbState c := by
  refine ⟨s.collected_regsBut c l, ?_, s.collected_regsBut c l _ fun f hf => ?_⟩
  · unfold State.collected
    extract_lets s₁
    split
    · rfl
    · exact s₁.foldl_cmapAdd_ttb c l
  · rw [List.mem_singleton.1 hf]
    simp only [Fld.key, TTB_STAT_STATE, ttbPg, GEN_MODE_IN_FORCE]
    omega

/-- Where the agents counted nothing, no map changes. -/
theorem State.collected_nil (s : State) (c : Nat) : (s.collected c []).ttbs = s.ttbs := by
  unfold State.collected
  extract_lets s₁
  split <;> rfl

/-! ### ENERGY_WINDOW -/

section
variable {s t : State}

/-- What the armed timetables declare (R141) does not change where only `fs` does. -/
theorem RegsBut.armedEnergy_eq {fs : List Fld} (h : RegsBut fs s t) (c : Nat)
    (hf : ∀ k < 16, ∀ f ∈ fs, (TTB_STAT_STATE (ttbPg k)).key ≠ f.key ∧ (TTB_ENERGY_DECLARED_UJ (ttbPg k)).key ≠ f.key) :
    t.armedEnergy c = s.armedEnergy c := by
  have hstate : ∀ k ∈ contexts, t.armed k = s.armed k := fun k hk => by
    rw [State.armed, State.armed, State.ttbState, State.ttbState, h _ fun f m => (hf k (List.mem_range.1 hk) f m).1]
  have hfilter : contexts.filter (fun k => k != c && t.armed k) = contexts.filter (fun k => k != c && s.armed k) :=
    List.filter_congr fun k hk => by rw [hstate k hk]
  rw [State.armedEnergy, State.armedEnergy, hfilter]
  exact congrArg List.sum (List.map_congr_left fun k hk => h _ fun f m => (hf k (List.mem_range.1 (List.mem_of_mem_filter hk)) f m).2)

theorem RegsBut.idleUj_eq {fs : List Fld} (h : RegsBut fs s t) (hb : ∀ f ∈ fs, PWR_BUDGET_IDLE_W.key ≠ f.key)
    (hp : ∀ f ∈ fs, TMK_PERIOD_PERIOD_NS.key ≠ f.key) : t.idleUj = s.idleUj := by
  rw [State.idleUj, State.idleUj, State.period, State.period, h _ hb, h _ hp]

end

/-- The energy of a window is shown, with the largest one (R141). -/
def State.windowMeasured (s : State) (n : Nat) : State := (s.wr PWR_ENERGY_LAST_UJ n).atLeast PWR_OVER_MAX_UJ n

section
variable (s : State) (n : Nat)

theorem State.windowMeasured_regsBut : RegsBut [PWR_ENERGY_LAST_UJ, PWR_OVER_MAX_UJ] s (s.windowMeasured n) := by
  have h := (RegsBut.refl [PWR_ENERGY_LAST_UJ, PWR_OVER_MAX_UJ] s).wr (List.mem_cons_self ..) n
  unfold State.windowMeasured State.atLeast
  split
  · exact h.wr (List.mem_cons_of_mem _ (List.mem_singleton_self _)) n
  · exact h

theorem State.windowMeasured_declared : (s.windowMeasured n).armedEnergy 16 + (s.windowMeasured n).idleUj = s.armedEnergy 16 + s.idleUj := by
  have h := s.windowMeasured_regsBut n
  rw [h.idleUj_eq (by decide) (by decide), h.armedEnergy_eq 16]
  decide

/-- A window within what is declared is no finding (R141). -/
theorem energyWindow_within {s : State} {n : Nat} (h : n ≤ s.armedEnergy 16 + s.idleUj) :
    exec (.energyWindow n) s = .next (s.windowMeasured n) := by
  rw [← s.windowMeasured_declared n] at h
  exact congrArg Host.Outcome.next (if_neg (Nat.not_lt_of_le h))

theorem energyWindow_over {s : State} {n : Nat} (h : s.armedEnergy 16 + s.idleUj < n) : exec (.energyWindow n) s =
    .next (((s.windowMeasured n).bump PWR_OVER_WINDOWS 1).detect .dz8 (ttbPg 0) 0 n none) := by
  rw [← s.windowMeasured_declared n] at h
  exact congrArg Host.Outcome.next (if_pos h)

theorem State.windowMeasured_last : (s.windowMeasured n).rd PWR_ENERGY_LAST_UJ = n % 2 ^ PWR_ENERGY_LAST_UJ.w :=
  (State.rd_atLeast _ (by decide) n).trans (State.rd_wr_same ..)

theorem State.windowMeasured_flt : (s.windowMeasured n).flt = s.flt := by
  unfold State.windowMeasured State.atLeast
  split <;> rfl

end

/-- Settles O21: each case is the effect of its command, within the parts of its row (`exec_reach`). That a void without a restart beat stops
the job is log entry 23, the count of voids for each step 142, the source of the energy detector 72. -/
theorem ttbRollback : Obligations.TtbRollback := by
  unfold Obligations.TtbRollback
  refine ⟨?_, ?_, ?_, ?_, ?_, ?_, ?_, ?_, ?_, ?_, ?_⟩
  · intro s c v hc hl hv hr hs
    obtain ⟨old, ht⟩ := s.rolledBack_ttb v (hc.trans_eq hl.symm)
    obtain ⟨hn, hi⟩ := s.rolledBack_next c v
    refine (exec_reach _ s).next (congrArg Host.Outcome.next (State.rollbackAt_restarts hv hr hs)) ⟨hn, hi, ?_, ?_⟩
    · rw [ht]; rfl
    · rw [ht]; rfl
  · intro s c v hc hl hv hr hs h5
    refine (exec_reach _ s).next
      (congrArg Host.Outcome.next (State.rollbackAt_stops hv hr hs ((s.rolledBack_state c v).trans h5)))
      (State.stopsRolledBack_effect s v (hc.trans_eq hl.symm))
  · intro s c v hv hr hs
    exact (exec_reach _ s).next rfl (State.agRollback_effect hv hr hs)
  · intro s c v rs hc hl hv hr hu hs hn
    exact (exec_reach _ s).next (restartBeat_restarts hv hr hu hs hn) (s.restarted_effect v rs (hc.trans_eq hl.symm))
  · intro s c v hc hl hv hr hu hh hn
    exact (exec_reach _ s).next (restartBeat_stops hv hr hu hh hn) (s.stopJob_effect v.cause (hc.trans_eq hl.symm))
  · intro s c v rs hv hr hd hs
    exact (exec_reach _ s).next rfl (State.agRestart_effect hv hr hd hs)
  · intro s c l hc
    exact (exec_reach _ s).next rfl (s.collected_effect c l)
  · intro s c
    exact (exec_reach _ s).next rfl ⟨s.collected_regsBut c [], s.collected_nil c⟩
  · intro s c hc hl
    refine (exec_reach _ s).next rfl ⟨?_, s.ttb_setTtb_keeps c c TtbSt.uncommitted fun _ => rfl, s.ttb_setTtb_keeps c c TtbSt.image fun _ => rfl⟩
    exact congrArg TtbSt.cmap (s.ttb_setTtb_same c _ (hc.trans_eq hl.symm))
  · intro s n hn hw
    exact (exec_reach _ s).next (energyWindow_within hn)
      ⟨(s.windowMeasured_last n).trans (Nat.mod_eq_of_lt hw), s.windowMeasured_flt n, s.windowMeasured_regsBut n⟩
  · intro s n hn
    refine (exec_reach _ s).next (energyWindow_over hn) ?_
    rw [State.rd_detect, State.rd_bump_same, s.windowMeasured_regsBut n _ (by decide)]

end Sys2Proof.Machine
end

section
/-! Exact accumulators: contributions and merges in any order, and O7 (R164, R165). -/

namespace Sys2Proof.Machine

/-! ### 320-bit sums -/

/-- A term of a sum may be wrapped before the sum is. -/
theorem wrap320_add_left (a b : Int) : wrap320 (wrap320 a + b) = wrap320 (a + b) := by
  rw [wrap320, wrap320, sub_add_eq_add_sub, sub_add_cancel, Int.emod_add_emod, Int.add_right_comm]
  rfl

theorem wrap320_add_right (a b : Int) : wrap320 (a + wrap320 b) = wrap320 (a + b) := by
  rw [Int.add_comm, wrap320_add_left, Int.add_comm]

theorem wrap320_idem (a : Int) : wrap320 (wrap320 a) = wrap320 a := by simpa using wrap320_add_left a 0

/-! ### Contributions -/

/-- A contribution with a value to add: neither a NaN nor an infinity (R164). -/
def hasValue (x : Nat) : Bool := !fp32.isNan x && !fp32.isInf x

/-- What a contribution does to each part of an accumulator (R164). -/
theorem Acc.add_eq (c : Acc) (x : Nat) : c.add x =
    ⟨if hasValue x then wrap320 (c.a + units32 x) else c.a, c.nan || fp32.isNan x, c.pinf || (!fp32.isNan x && fp32.isInf x && !fp32.neg x),
      c.ninf || (!fp32.isNan x && fp32.isInf x && fp32.neg x), c.nz || !(fp32.neg x && fp32.isZero x)⟩ := by
  unfold Acc.add hasValue
  dsimp only
  split_ifs <;> simp_all

theorem Acc.add_right_comm (c : Acc) (x y : Nat) : (c.add x).add y = (c.add y).add x := by
  have ha : (if hasValue y then wrap320 ((if hasValue x then wrap320 (c.a + units32 x) else c.a) + units32 y)
        else if hasValue x then wrap320 (c.a + units32 x) else c.a) =
      if hasValue x then wrap320 ((if hasValue y then wrap320 (c.a + units32 y) else c.a) + units32 x)
        else if hasValue y then wrap320 (c.a + units32 y) else c.a := by
    split
    · split
      · rw [wrap320_add_left, wrap320_add_left, Int.add_right_comm]
      · rfl
    · rfl
  simp only [Acc.add_eq, ha, Bool.or_right_comm]

theorem Acc.merge_right_comm (c d e : Acc) : (c.merge d).merge e = (c.merge e).merge d := by
  simp only [Acc.merge, wrap320_add_left, Int.add_right_comm, Bool.or_right_comm]

/-! ### Partial accumulators -/

/-- A contribution may enter before or after a merge. -/
theorem Acc.merge_add (c d : Acc) (x : Nat) : c.merge (d.add x) = (c.merge d).add x := by
  simp only [Acc.add_eq, Acc.merge, Bool.or_assoc]
  split
  · rw [wrap320_add_right, wrap320_add_left, Int.add_assoc]
  · rfl

theorem Acc.merge_foldl_add (c d : Acc) (xs : List Nat) : c.merge (xs.foldl Acc.add d) = xs.foldl Acc.add (c.merge d) := by
  induction xs generalizing d with
  | nil => rfl
  | cons x xs ih => rw [List.foldl_cons, List.foldl_cons, ih, Acc.merge_add]

/-- The integer of an accumulator lies in 320-bit two's complement (R164). -/
def Acc.Wrapped (c : Acc) : Prop := wrap320 c.a = c.a

theorem Acc.wrapped_zero : Acc.zero.Wrapped := by
  rw [Acc.Wrapped, Acc.zero, wrap320, Int.zero_add, Int.emod_eq_of_lt (by positivity) (pow_lt_pow_right₀ (by decide) (by decide)), Int.sub_self]

theorem Acc.Wrapped.add {c : Acc} (h : c.Wrapped) (x : Nat) : (c.add x).Wrapped := by
  rw [Acc.Wrapped, Acc.add_eq]
  dsimp only
  split
  · exact wrap320_idem _
  · exact h

theorem Acc.Wrapped.foldl_add {c : Acc} (h : c.Wrapped) (xs : List Nat) : (xs.foldl Acc.add c).Wrapped :=
  List.foldlRecOn xs Acc.add h fun _ hc x _ => hc.add x

theorem Acc.Wrapped.merge_zero {c : Acc} (h : c.Wrapped) : c.merge Acc.zero = c := by
  rw [Acc.Wrapped] at h
  simp only [Acc.merge, Acc.zero, Int.add_zero, h, Bool.or_false]

/-- Merging the accumulators of several lists adds all their contributions. -/
theorem Acc.Wrapped.foldl_merge {c : Acc} (h : c.Wrapped) (xss : List (List Nat)) :
    (xss.map fun xs => xs.foldl Acc.add Acc.zero).foldl Acc.merge c = xss.flatten.foldl Acc.add c := by
  induction xss generalizing c with
  | nil => rfl
  | cons xs xss ih =>
    rw [List.map_cons, List.foldl_cons, Acc.merge_foldl_add, h.merge_zero, ih (h.foldl_add xs), List.flatten_cons, List.foldl_append]

/-- Settles O7: contributions and merges commute, and a merge with a partial accumulator adds the contributions of that (R165). -/
theorem mergeInAnyOrder : Obligations.MergeInAnyOrder := by
  unfold Obligations.MergeInAnyOrder
  refine ⟨fun c d => ⟨rfl, rfl, rfl, rfl, rfl⟩, ?_, ?_, ?_⟩
  · intro xs ys h
    exact h.foldl_eq' (fun x _ y _ c => c.merge_right_comm x y) Acc.zero
  · intro xs ys c h
    exact h.foldl_eq' (fun x _ y _ c => c.add_right_comm x y) c
  · intro xss
    exact Acc.wrapped_zero.foldl_merge xss

end Sys2Proof.Machine
end

section
/-! Instances of exchanges: what an update of one leaves in it, and what the work on blocks leaves of all of them (R160, R202, R203). -/

namespace Sys2Proof.Machine

/-! ### The record of an exchange -/

section
variable {s t : State} {c x : Nat} {i : Instance}

theorem State.inst_key (h : s.inst c x = some i) : i.ctx = c ∧ i.xid = x := by
  simpa using List.find?_some h

theorem State.inst_of_insts (h : t.insts = s.insts) (c x : Nat) : t.inst c x = s.inst c x := by rw [State.inst, State.inst, h]

theorem Within.inst_eq {A : List Area} (w : Within A s t) (n : Area.insts ∉ A) (c x : Nat) : t.inst c x = s.inst c x :=
  State.inst_of_insts (w.insts_eq n) c x

/-- An update of instances that leaves their keys. -/
def Instance.KeepsKey (f : Instance → Instance) : Prop := ∀ i, (f i).ctx = i.ctx ∧ (f i).xid = i.xid

theorem State.inst_setInst (s : State) {f : Instance → Instance} (hf : Instance.KeepsKey f) (a b c x : Nat) :
    (s.setInst a b f).inst c x = (s.inst c x).map fun i => if i.ctx == a && i.xid == b then f i else i := by
  rw [State.inst, State.setInst_insts, List.find?_map, State.inst]
  congr 2
  funext i
  simp only [Function.comp_apply]
  split
  · rw [(hf i).1, (hf i).2]
  · rfl

/-- The exchange that was updated reads as the update of what it was. -/
theorem State.inst_setInst_same {f : Instance → Instance} (hf : Instance.KeepsKey f) (h : s.inst c x = some i) :
    (s.setInst c x f).inst c x = some (f i) := by
  rw [s.inst_setInst hf, h, Option.map_some, if_pos (by simp [State.inst_key h])]

end

/-! ### Parts of instances that are kept -/

/-- All instances keep what `g` shows of them. -/
structure SameInst {β : Type} (g : Instance → β) (s t : State) : Prop where
  map_eq : ∀ c x, (t.inst c x).map g = (s.inst c x).map g

namespace SameInst

variable {β : Type} {g : Instance → β} {s t u : State} {c x : Nat} {i : Instance}

theorem refl (s : State) : SameInst g s s := ⟨fun _ _ => rfl⟩

theorem of_insts (h : SameInst g s t) (k : u.insts = t.insts) : SameInst g s u :=
  ⟨fun c x => (congrArg (Option.map g) (State.inst_of_insts k c x)).trans (h.map_eq c x)⟩

theorem within {A : List Area} (h : SameInst g s t) (w : Within A t u) (n : Area.insts ∉ A) : SameInst g s u := h.of_insts (w.insts_eq n)

theorem setInst (h : SameInst g s t) (a b : Nat) {f : Instance → Instance} (hf : Instance.KeepsKey f) (hg : ∀ i, g (f i) = g i) :
    SameInst g s (t.setInst a b f) := by
  refine ⟨fun c x => ?_⟩
  rw [t.inst_setInst hf, Option.map_map, ← h.map_eq c x]
  congr 1
  funext i
  simp only [Function.comp_apply]
  split
  · exact hg i
  · rfl

theorem foldl {α : Type} {f : State → α → State} (h : SameInst g s t) (k : ∀ u a, SameInst g s u → SameInst g s (f u a)) (l : List α) :
    SameInst g s (l.foldl f t) :=
  List.foldlRecOn (motive := SameInst g s) l f h fun u hu a _ => k u a hu

theorem some (h : SameInst g s t) (hi : s.inst c x = .some i) : ∃ j, t.inst c x = .some j ∧ g j = g i := by
  have := h.map_eq c x
  rwa [hi, Option.map_some, Option.map_eq_some_iff] at this

end SameInst

/-! ### Decoding (R202) -/

/-- `g` shows nothing of what a decoded block adds to an exchange: decoded elements and accumulators. -/
def Undecoded {β : Type} (g : Instance → β) : Prop := ∀ i d a, g { i with decoded := d, accs := a } = g i

section
variable {β : Type} {g : Instance → β} {s t : State} (hg : Undecoded g)
include hg

theorem SameInst.enterDecoded (h : SameInst g s t) (c : Nat) (m : Image) (p : Program) (i : Instance) (fid inp e0 : Nat) (vals : List Nat) :
    SameInst g s (t.enterDecoded c m p i fid inp e0 vals) := by
  unfold State.enterDecoded
  extract_lets xs u
  have hu : SameInst g s u := h.setInst c i.xid (fun _ => ⟨rfl, rfl⟩) fun j => hg j _ j.accs
  split
  · split
    · exact hu.within (State.mergeAdd_within (A := [.regs, .hbm]) (by decide) (by decide) _ _ _ _ _ (.refl _ u)) (by decide)
    · exact hu.setInst c i.xid (fun _ => ⟨rfl, rfl⟩) fun j => hg j j.decoded _
  · exact hu

theorem SameInst.decodeIn (h : SameInst g s t) (c x fid inp b : Nat) : SameInst g s (t.decodeIn c x fid inp b) := by
  unfold State.decodeIn
  split
  · extract_lets lid G pl
    split
    · exact h
    · split
      · refine SameInst.enterDecoded hg (h.within ?_ (by decide : Area.insts ∉ [.regs, .flt, .agFlt])) ..
        exact State.countDecode_within (by decide) (by decide) (by decide) _ _ _ _ (.refl _ t)
      · exact h
  · exact h

theorem SameInst.decodeRest (h : SameInst g s t) (c : Nat) (p : Program) (i : Instance) : SameInst g s (t.decodeRest c p i) := by
  unfold State.decodeRest
  refine h.foldl (fun u y hu => hu.foldl (fun v inp hv => ?_) _) _
  extract_lets G
  split
  · exact hv.foldl (fun w b hw => hw.decodeIn hg ..) _
  · exact hv

end

/-! ### Encoding and results (R161, R203) -/

/-- `g` shows nothing of the encoded blocks of an exchange. -/
def Unencoded {β : Type} (g : Instance → β) : Prop := ∀ i e, g { i with encoded := e } = g i

section
variable {β : Type} {g : Instance → β} {s t : State}

theorem SameInst.putResult (h : SameInst g s t) (c : Nat) (m : Image) (p : Program) (x o : Nat) (bs : List Byte) :
    SameInst g s (t.putResult c m p x o bs) :=
  h.within (State.putResult_within (A := [.regs, .tile, .hbm]) (by decide) (by decide) (by decide) c m p x o bs (.refl _ t)) (by decide)

theorem SameInst.putRow (h : SameInst g s t) (c : Nat) (m : Image) (p : Program) (x o : Nat) (xs : List Nat) :
    SameInst g s (t.putRow c m p x o xs) := h.putResult ..

theorem SameInst.countOut (h : SameInst g s t) (c : Nat) (xs : List Nat) : SameInst g s (t.countOut c xs) := h.of_insts rfl

theorem SameInst.bump (h : SameInst g s t) (f : Fld) (n : Nat) : SameInst g s (t.bump f n) := h.of_insts rfl

theorem SameInst.finishSelect (h : SameInst g s t) (c : Nat) (m : Image) (p : Program) (i : Instance) :
    SameInst g s (t.finishSelect c m p i) := by
  unfold State.finishSelect
  refine h.foldl (fun u k hu => ?_) _
  extract_lets r v
  refine SameInst.putResult ?_ ..
  unfold v
  split
  · exact hu.bump ..
  · split
    · exact hu.bump ..
    · exact hu

variable (hg : Unencoded g)
include hg

theorem SameInst.encodeBlk (h : SameInst g s t) (c : Nat) (m : Image) (p : Program) (i : Instance) (k b : Nat) :
    SameInst g s (t.encodeBlk c m p i k b) := by
  unfold State.encodeBlk
  split
  · exact h
  · extract_lets nb r j row xs bsz en u
    split
    · refine SameInst.setInst ?_ c i.xid (fun _ => ⟨rfl, rfl⟩) fun j => hg j _
      exact (h.within (State.countEncode_within (A := [.regs]) (by decide) .none i.xid en (.refl _ t)) (by decide)).putResult ..
    · exact h

theorem SameInst.encodeBlkOf (h : SameInst g s t) (c x : Nat) (m : Image) (p : Program) (k b : Nat) :
    SameInst g s (match t.inst c x with
      | .some i => t.encodeBlk c m p i k b
      | .none => t) := by
  split
  · exact h.encodeBlk hg ..
  · exact h

theorem SameInst.encodePart (h : SameInst g s t) (c : Nat) (m : Image) (p : Program) (i : Instance) (k : Nat) :
    SameInst g s (t.encodePart c m p i k) := by
  unfold State.encodePart
  split
  · exact h
  · exact h.foldl (fun u b hu => hu.encodeBlkOf hg ..) _

theorem SameInst.finishReduce (h : SameInst g s t) (c : Nat) (m : Image) (p : Program) (i : Instance) :
    SameInst g s (t.finishReduce c m p i) := by
  unfold State.finishReduce
  extract_lets xs u
  split
  · exact (h.countOut c _).encodePart hg ..
  · exact (h.countOut c _).putResult ..

theorem SameInst.finishGather (h : SameInst g s t) (c : Nat) (m : Image) (p : Program) (i : Instance) :
    SameInst g s (t.finishGather c m p i) := by
  unfold State.finishGather
  refine h.foldl (fun u q hu => ?_) _
  extract_lets fid xs
  split
  · refine SameInst.putResult ?_ ..
    split
    · exact hu
    · exact hu.countOut ..
  split
  · exact (hu.countOut ..).encodePart hg ..
  · exact (hu.countOut ..).putRow ..

theorem SameInst.finishTransform (h : SameInst g s t) (c : Nat) (m : Image) (p : Program) (i : Instance) :
    SameInst g s (t.finishTransform c m p i) := by
  unfold State.finishTransform
  extract_lets out1 sto stride
  refine h.foldl (fun u r hu => ?_) _
  extract_lets y u₁ u₂
  have h₂ : SameInst g s u₂ := by
    refine (hu.bump (CLX_NUMERIC_SAT (clxPg c)) y.sat).foldl (fun v k hv => ?_) _
    split
    · exact hv
    split
    · exact hv
    extract_lets w
    have hw : SameInst g s w := hv.countOut ..
    split
    · exact hw.foldl (fun z j hz => hz.encodeBlkOf hg ..) _
    · exact hw.putRow ..
  split
  · exact h₂.putResult ..
  · exact h₂

end

/-! ### Stage 1 of a ROUTE_COMBINE (R176) -/

section
variable {β : Type} {g : Instance → β} {s t : State}

/-- The dispatch area is filled, an owner after the other, from the choices that it keeps (R177). -/
def State.fillDispatch (s : State) (c : Nat) (m : Image) (p : Program) (x : Nat) : State :=
  (p.owners.zipIdx).foldl (fun s q => match s.inst c x with
    | none => s
    | some i =>
      let index := (List.range (p.ownerJ q.1 * p.cap)).flatMap fun k =>
        leBytes 2 ((i.slotToken p q.1 (k / p.cap) (k % p.cap)).getD 0xFFFF)
      let s := s.putResult c m p i.xid (p.blockOff q.1)
        (index ++ List.replicate (p.indexBytes q.1 - index.length + p.ownerJ q.1 * p.cap * p.rowB) 0)
      s.encodePart c m p i (q.2 + 1)) s

theorem SameInst.fillDispatch (hg : Unencoded g) (h : SameInst g s t) (c : Nat) (m : Image) (p : Program) (x : Nat) :
    SameInst g s (t.fillDispatch c m p x) := by
  unfold State.fillDispatch
  refine h.foldl (fun u q hu => ?_) _
  split
  · exact hu
  · exact (hu.putResult ..).encodePart hg ..

/-- What stage 1 leaves of an exchange, its dispatch area still empty. -/
def Instance.staged (i : Instance) (r : List Nat × List (Nat × Nat × Nat × Nat)) : Instance :=
  { i with stage1 := true, hidden := r.1, choices := r.2 }

/-- The choices beyond the capacity and the tokens without a choice count (R176, R184). -/
def State.countChoices (s : State) (c : Nat) (p : Program) (l : List (Nat × Nat × Nat × Nat)) : State :=
  (s.bump (CLX_ROUTE_DROPPED (clxPg c)) (p.tokens * p.ksel - l.length)).bump (CLX_ROUTE_EMPTY (clxPg c))
    ((List.range p.tokens).filter fun t => !l.any fun x => x.1 == t).length

/-- Stage 1 decodes what is left, decides and counts, and fills the dispatch area (R176). -/
theorem State.doStage1_eq {c : Nat} {p : Program} {i j : Instance} (m : Image) (h : (s.decodeRest c p i).inst c i.xid = some j) :
    let u := s.decodeRest c p i
    s.doStage1 c m p i = ((u.countChoices c p (u.stage1 p j).2).setInst c i.xid fun k => k.staged (u.stage1 p j)).fillDispatch c m p i.xid := by
  have hx : j.xid = i.xid := (State.inst_key h).2
  unfold State.doStage1
  simp only [h, hx]
  rfl

end

end Sys2Proof.Machine
end

section
/-! The merge cache: what decoding and rounding a merge block leave of the near-memory units, and which instances a finished exchange
leaves (R160, R176, R248, R254, R255). -/

namespace Sys2Proof.Machine

/-! ### What enters the merge cache leaves the memory -/

section
variable (s : State)

theorem State.spill_mem (d : Nat) : (s.spill d).hbm.mem = s.hbm.mem := by
  unfold State.spill
  split <;> rfl

theorem State.showSlots_hbm (d : Nat) : (s.showSlots d).hbm = s.hbm :=
  (State.showSlots_within (A := [.regs]) (by decide) d (.refl _ s)).hbm_eq (by decide)

theorem State.mergeAdd_mem (d c x b : Nat) (xs : List (Nat × Nat)) : (s.mergeAdd d c x b xs).hbm.mem = s.hbm.mem := by
  unfold State.mergeAdd
  extract_lets same
  split
  · rfl
  · rw [State.showSlots_hbm]
    show (if 1536 ≤ s.slotsInUse d then s.spill d else s).hbm.mem = s.hbm.mem
    split
    · exact s.spill_mem d
    · rfl

theorem State.enterDecoded_mem (c : Nat) (m : Image) (p : Program) (i : Instance) (fid inp e0 : Nat) (vals : List Nat) :
    (s.enterDecoded c m p i fid inp e0 vals).hbm.mem = s.hbm.mem := by
  unfold State.enterDecoded
  extract_lets xs u
  split
  · split
    · exact u.mergeAdd_mem ..
    · rfl
  · rfl

theorem State.decodeIn_mem (c x fid inp b : Nat) : (s.decodeIn c x fid inp b).hbm.mem = s.hbm.mem := by
  unfold State.decodeIn
  split
  · extract_lets lid G pl
    split
    · rfl
    · split
      · rw [State.enterDecoded_mem, (State.countDecode_within (A := [.regs, .flt, .agFlt]) (by decide) (by decide) (by decide) _ x lid _
          (.refl _ s)).hbm_eq (by decide)]
      · rfl
  · rfl

theorem State.decodeRest_mem (c : Nat) (p : Program) (i : Instance) : (s.decodeRest c p i).hbm.mem = s.hbm.mem := by
  unfold State.decodeRest
  refine foldl_keeps (fun u => u.hbm.mem) (fun u y => foldl_keeps (fun u => u.hbm.mem) (fun v inp => ?_) _ u) _ s
  extract_lets G
  split
  · exact foldl_keeps (fun u => u.hbm.mem) (fun w b => w.decodeIn_mem ..) _ v
  · rfl

end

/-! ### What writes to the M-dies leave: the merge cache and the instances -/

/-- The merge cache, its spilled part and the instances are kept. -/
structure CacheKept (s t : State) : Prop where
  slots : t.hbm.slots = s.hbm.slots
  spilled : t.hbm.spilled = s.hbm.spilled
  insts : t.insts = s.insts

namespace CacheKept

variable {s t u : State}

theorem refl (s : State) : CacheKept s s := ⟨rfl, rfl, rfl⟩

theorem trans (h : CacheKept s t) (k : CacheKept t u) : CacheKept s u :=
  ⟨k.slots.trans h.slots, k.spilled.trans h.spilled, k.insts.trans h.insts⟩

theorem same (h : CacheKept s t) (hh : u.hbm = t.hbm) (hi : u.insts = t.insts) : CacheKept s u :=
  h.trans ⟨congrArg HbmSt.slots hh, congrArg HbmSt.spilled hh, hi⟩

theorem within {A : List Area} (h : CacheKept s t) (w : Within A t u) (hh : Area.hbm ∉ A) (hi : Area.insts ∉ A) : CacheKept s u :=
  h.same (w.hbm_eq hh) (w.insts_eq hi)

theorem foldl {α : Type} {f : State → α → State} (h : CacheKept s t) (k : ∀ u a, CacheKept s u → CacheKept s (f u a)) (l : List α) :
    CacheKept s (l.foldl f t) :=
  List.foldlRecOn (motive := CacheKept s) l f h fun u hu a _ => k u a hu

theorem bump (h : CacheKept s t) (f : Fld) (n : Nat) : CacheKept s (t.bump f n) := h.same rfl rfl

theorem hbmPut (h : CacheKept s t) (d a key : Nat) (b : Byte) : CacheKept s (t.hbmPut d a key b) := by
  refine h.trans ?_
  unfold State.hbmPut
  split <;> exact ⟨rfl, rfl, rfl⟩

theorem hbmNatPut (h : CacheKept s t) (d a key n v : Nat) : CacheKept s (t.hbmNatPut d a key n v) := h.foldl (fun _ _ k => k.hbmPut ..) _

theorem takePending (h : CacheKept s t) (c x k : Nat) : CacheKept s (t.takePending c x k) := by
  unfold State.takePending
  split
  · exact h
  · extract_lets d n u
    have hu : CacheKept s u := h.foldl (fun _ _ k => k.hbmPut ..) _
    exact hu.trans ⟨rfl, rfl, rfl⟩

theorem applyOpt (h : CacheKept s t) (o : OptSet) (q g : Nat) : CacheKept s (t.applyOpt o q g).2 := by
  unfold State.applyOpt
  extract_lets c k i u d z n old new ofM toM m1 m2 r key u₁ u₂ u₃
  have hu : CacheKept s u := (h.takePending c o.xid k).within (State.countState_within (A := [.regs]) (by decide) c q (.refl _ _)) (by decide)
    (by decide)
  have h₁ : CacheKept s u₁ := hu.hbmNatPut ..
  have h₂ : CacheKept s u₂ := by
    unfold u₂
    split
    · exact h₁.hbmNatPut ..
    · exact h₁
  have h₃ : CacheKept s u₃ := by
    unfold u₃
    split
    · exact h₂.hbmNatPut ..
    · exact h₂
  dsimp only
  split
  · exact h₃.bump ..
  · exact h₃

theorem regionWrite (h : CacheKept s t) (c k o : Nat) (l : List Byte) : CacheKept s (t.regionWrite c k o l) := by
  induction l generalizing t o with
  | nil => exact h
  | cons b l ih =>
    rw [State.regionWrite]
    refine ih ?_ _
    split
    · exact h
    · extract_lets a
      split
      · exact h.hbmPut ..
      · exact h

theorem putResult (h : CacheKept s t) (c : Nat) (m : Image) (p : Program) (x o : Nat) (bs : List Byte) :
    CacheKept s (t.putResult c m p x o bs) := by
  unfold State.putResult
  split
  · split
    · exact h.regionWrite ..
    · exact h
  · exact h.within (State.allocWrite_within (A := [.tile]) (by decide) c _ bs (.refl _ t)) (by decide) (by decide)

theorem countOut (h : CacheKept s t) (c : Nat) (xs : List Nat) : CacheKept s (t.countOut c xs) := h.same rfl rfl

end CacheKept

/-! ### A merge block that is rounded (R178, R254, R255) -/

/-- A merge block's slot and spilled part are given up, and the block counts as encoded. -/
def State.takeMerged (s : State) (c : Nat) (m : Image) (p : Program) (i : Instance) (b : Nat) : State :=
  let same := fun (x : MergeSlot) => x.ctx == c && x.xid == i.xid && x.block == b
  ((s.setHbm fun h => { h with slots := h.slots.filter (fun x => !same x), spilled := h.spilled.filter fun x => !same x }).showSlots
    (s.mergeDie c m i.xid p b)).setInst c i.xid fun i => { i with encoded := i.encoded ++ [(encKey 0 b, [])] }

section
variable {s t : State} {c b : Nat} {m : Image} {p : Program} {i : Instance}

/-- An UPDATE whose state passes its tags, or any other operation, rounds the block: beyond giving it up, that writes to the M-dies and counts. -/
theorem State.mergeDone_kept
    (h : (if p.op = 6 then s.stateBad c (p.paramOff / s.optB c + 384 * b) (min 384 (p.elems - 384 * b)) else none) = none) :
    CacheKept (s.takeMerged c m p i b) (s.mergeDone c m p i b) := by
  unfold State.mergeDone
  rw [h]
  extract_lets n d same vals u₁ u₂ q0 r z
  have h₂ : CacheKept (s.takeMerged c m p i b) u₂ := .refl _
  have hr : CacheKept (s.takeMerged c m p i b) r.2 := by
    unfold r
    split
    · split
      · exact h₂
      · extract_lets w
        refine CacheKept.countOut (CacheKept.bump ?_ ..) ..
        exact List.foldlRecOn (motive := fun a : List Nat × State => CacheKept (s.takeMerged c m p i b) a.2) _ _ h₂
          fun a ha g _ => ha.applyOpt ..
    · exact h₂.countOut ..
  show CacheKept _ (if p.outfmt = 3 then _ else _)
  split
  · refine hr.foldl (fun v j hv => ?_) _
    extract_lets xs en
    exact (hv.within (State.countEncode_within (A := [.regs]) (by decide) (some d) i.xid en (.refl _ v)) (by decide) (by decide)).putResult ..
  · exact hr.putResult ..

theorem State.takeMerged_inst {x : Nat} (hi : s.inst c x = some i) :
    (s.takeMerged c m p i b).inst c x = some { i with encoded := i.encoded ++ [(encKey 0 b, [])] } := by
  obtain ⟨rfl, rfl⟩ := State.inst_key hi
  unfold State.takeMerged
  refine State.inst_setInst_same (fun _ => ⟨rfl, rfl⟩) ?_
  rwa [(State.showSlots_within (A := [.regs]) (by decide) _ (.refl _ _)).inst_eq (by decide)]

theorem State.takeMerged_slots : (s.takeMerged c m p i b).hbm.slots =
    s.hbm.slots.filter fun x => !(x.ctx == c && x.xid == i.xid && x.block == b) := by
  unfold State.takeMerged
  rw [State.setInst_hbm, State.showSlots_hbm]
  rfl

theorem State.takeMerged_spilled :
    (s.takeMerged c m p i b).hbm.spilled = s.hbm.spilled.filter fun x => !(x.ctx == c && x.xid == i.xid && x.block == b) := by
  unfold State.takeMerged
  rw [State.setInst_hbm, State.showSlots_hbm]
  rfl

/-- No slot is left of a block that was filtered out. -/
theorem any_filter_not {α : Type} (l : List α) (q : α → Bool) : ((l.filter fun x => !q x).any q) = false := by
  simp [List.any_filter]

/-- A rounded block stands encoded in its exchange, and neither in the merge cache nor spilled (R254). -/
theorem State.mergeDone_effect {x : Nat} (hi : s.inst c x = some i)
    (h : (if p.op = 6 then s.stateBad c (p.paramOff / s.optB c + 384 * b) (min 384 (p.elems - 384 * b)) else none) = none) :
    (s.mergeDone c m p i b).inst c x = some { i with encoded := i.encoded ++ [(encKey 0 b, [])] } ∧
      ((s.mergeDone c m p i b).hbm.slots.any fun y => y.ctx == c && y.xid == x && y.block == b) = false ∧
      ((s.mergeDone c m p i b).hbm.spilled.any fun y => y.ctx == c && y.xid == x && y.block == b) = false := by
  have k : CacheKept (s.takeMerged c m p i b) (s.mergeDone c m p i b) := State.mergeDone_kept h
  rw [State.inst_of_insts k.insts, k.slots, k.spilled, State.takeMerged_inst hi, State.takeMerged_slots, State.takeMerged_spilled,
    (State.inst_key hi).2]
  exact ⟨rfl, any_filter_not .., any_filter_not ..⟩

end

/-! ### The output of an exchange, by operation (R155, R176) -/

section
variable {β : Type} {g : Instance → β} {s t : State}

theorem SameInst.mergeDone (hg : Unencoded g) (h : SameInst g s t) {p : Program} (hp : p.op ≠ 6) (c : Nat) (m : Image) (i : Instance) (b : Nat) :
    SameInst g s (t.mergeDone c m p i b) := by
  have k : CacheKept (t.takeMerged c m p i b) (t.mergeDone c m p i b) := State.mergeDone_kept (if_neg hp)
  have hk : SameInst g s (t.takeMerged c m p i b) := by
    refine SameInst.setInst ?_ c i.xid (fun _ => ⟨rfl, rfl⟩) fun j => hg j _
    exact (SameInst.of_insts (u := t.setHbm _) h rfl).within (State.showSlots_within (A := [.regs]) (by decide) _ (.refl _ _)) (by decide)
  exact hk.of_insts k.insts

theorem SameInst.finishMerge (hg : Unencoded g) (h : SameInst g s t) {p : Program} (hp : p.op ≠ 6) (c : Nat) (m : Image) (i : Instance) :
    SameInst g s (t.finishMerge c m p i) := by
  unfold State.finishMerge
  refine h.foldl (fun u b hu => ?_) _
  split
  · split
    · exact hu
    · exact hu.mergeDone hg hp ..
  · exact hu

/-- What the engine's work leaves of an exchange: all but its accumulators, decoded elements, stage 1 and encoded blocks. -/
def Instance.core (i : Instance) : Instance :=
  { i with accs := [], decoded := [], stage1 := false, hidden := [], choices := [], encoded := [] }

theorem Instance.parts_of_core {i j : Instance} (h : j.core = i.core) : j.state = i.state ∧ j.isOpen = i.isOpen ∧ j.counts = i.counts :=
  ⟨(congrArg Instance.state h :), (congrArg Instance.isOpen h :), (congrArg Instance.counts h :)⟩

theorem undecoded_core : Undecoded Instance.core := fun _ _ _ => rfl
theorem unencoded_core : Unencoded Instance.core := fun _ _ => rfl

theorem SameInst.doStage1 (h : SameInst Instance.core s t) (c : Nat) (m : Image) (p : Program) (i : Instance) :
    SameInst Instance.core s (t.doStage1 c m p i) := by
  have hr : SameInst Instance.core s (t.decodeRest c p i) := h.decodeRest undecoded_core ..
  cases hj : (t.decodeRest c p i).inst c i.xid with
  | none =>
    unfold State.doStage1
    simpa only [hj] using hr
  | some j =>
    rw [State.doStage1_eq m hj]
    have hc : SameInst Instance.core s ((t.decodeRest c p i).countChoices c p ((t.decodeRest c p i).stage1 p j).2) := hr.of_insts rfl
    exact (hc.setInst c i.xid (f := fun k => k.staged _) (fun _ => ⟨rfl, rfl⟩) fun _ => rfl).fillDispatch unencoded_core ..

theorem SameInst.finishRoute (h : SameInst Instance.core s t) (c : Nat) (m : Image) (p : Program) (i : Instance) :
    SameInst Instance.core s (t.finishRoute c m p i) := by
  unfold State.finishRoute
  extract_lets u
  have hu : SameInst Instance.core s u := by
    unfold u
    split
    · exact h
    · exact h.doStage1 ..
  split
  · exact hu
  · extract_lets v
    have hv : SameInst Instance.core s v := by
      refine hu.foldl (fun w k hw => ?_) _
      extract_lets xs w₁
      split
      · exact hw.countOut ..
      · exact (hw.countOut ..).putResult ..
    split
    · exact hv.encodePart unencoded_core ..
    · exact hv

/-- An operation other than UPDATE leaves all instances as they were but for the engine's work on them. -/
theorem SameInst.finish (h : SameInst Instance.core s t) {p : Program} (hp : p.op ≠ 6) (c : Nat) (m : Image) (i : Instance) :
    SameInst Instance.core s (t.finish c m p i) := by
  unfold State.finish
  extract_lets u
  have hu : SameInst Instance.core s u := h.decodeRest undecoded_core ..
  split
  · exact hu
  split
  · exact hu.finishMerge unencoded_core hp ..
  split
  · exact hu.finishReduce unencoded_core ..
  · exact hu.finishGather unencoded_core ..
  · exact hu.finishTransform unencoded_core ..
  · exact hu.finishSelect ..
  · exact hu.finishRoute ..

end

end Sys2Proof.Machine
end

section
/-! Contribution cells, opened instances, engine errors and decoded blocks, and O22 (R160, R162, R182, R184, R202, R208). -/

namespace Sys2Proof.Machine

/-! ### CONTRIB_CELL -/

section
variable {s : State} {po c : Nat} {x : Cell} {m : Image} {p : Program} {i : Instance}

theorem contribCell_epoch (h : x.epoch ≠ s.epochOf .dz8 s.domain) : exec (.contribCell po x) s = .next (s.discard .dz8 po x rEPOCH) :=
  congrArg Host.Outcome.next (if_pos h)

theorem contribCell_member (he : x.epoch = s.epochOf .dz8 s.domain) (hc : s.ctxOfFid x.src = some c) :
    exec (.contribCell po x) s = .next (s.contribute po c x) := by
  show execContribCell po x s = _
  unfold execContribCell
  rw [if_neg (not_not_intro he), hc]
  rfl

/-- A cell that passes the checks of R160 is added in, or stored, and counted. -/
theorem State.contribute_counts (hp : s.prog c (x.cidx % 2 ^ 15) = some (m, p)) (hi : s.inst c (x.cidx % 2 ^ 15) = some i) (ho : i.isOpen = true)
    (hs : i.state ≠ .error) (hy : i.parity = x.cidx / 2 ^ 15) (hk : s.knows p i x.src = true)
    (hb : x.offset % 2 ^ 30 < s.inputCells c p x.src (x.offset / 2 ^ 30))
    (hn : i.count x.src (x.offset / 2 ^ 30) < s.expected p i x.src (x.offset / 2 ^ 30)) :
    s.contribute po c x = (s.absorb m p i x.src (x.offset / 2 ^ 30) (x.offset % 2 ^ 30) x.payload).countCell p c (x.cidx % 2 ^ 15) x.src
      (x.offset / 2 ^ 30) := by
  unfold State.contribute
  simp only [hp, hi, ho, hy, hk]
  rw [if_neg (by simpa using hs), if_neg (by decide), if_neg (Nat.not_le_of_lt hb), if_neg (Nat.not_le_of_lt hn)]

end

section
variable {β : Type} {g : Instance → β} {s t : State}

/-- What a cell's content enters shows nothing of the counts (R160, R254). -/
theorem SameInst.absorb (hg : ∀ i a l, g { i with accs := a, cells := l } = g i) (h : SameInst g s t) (m : Image) (p : Program) (i : Instance)
    (fid inp idx : Nat) (payload : List Word) : SameInst g s (t.absorb m p i fid inp idx payload) := by
  have hcells : SameInst g s (t.setInst i.ctx i.xid fun i => { i with cells := i.cells ++ [(⟨fid, inp, idx, payload⟩ : StoredCell)] }) :=
    h.setInst _ _ (fun _ => ⟨rfl, rfl⟩) fun j => hg j j.accs _
  have hmerge (d b : Nat) (xs : List (Nat × Nat)) : SameInst g s (t.mergeAdd d i.ctx i.xid b xs) :=
    h.within (State.mergeAdd_within (A := [.regs, .hbm]) (by decide) (by decide) d i.ctx i.xid b xs (.refl _ t)) (by decide)
  have haccs (f : List (Nat × Acc) → List (Nat × Acc)) : SameInst g s (t.setInst i.ctx i.xid fun i => { i with accs := f i.accs }) :=
    h.setInst _ _ (fun _ => ⟨rfl, rfl⟩) fun j => hg j _ j.cells
  unfold State.absorb
  extract_lets c bs add d u z n xs
  split
  · split
    · split
      · exact (hmerge d (idx / 384) []).of_insts rfl
      · exact haccs add
    · exact hcells
  · split
    · split
      · exact hmerge ..
      · exact haccs fun l => addVals l xs
    · exact hcells

end

/-! ### Counts of a sender -/

/-- A sender has one more cell counted on an input. -/
def Instance.counted (i : Instance) (fid inp now : Nat) : Instance :=
  { i with
    firstNs := i.firstNs.orElse fun _ => some now
    counts := i.counts.filter (fun x => !(x.fid == fid && x.input == inp)) ++ [(⟨fid, inp, i.count fid inp + 1⟩ : SenderCount)] }

theorem Instance.count_counted (i : Instance) (fid inp now : Nat) : (i.counted fid inp now).count fid inp = i.count fid inp + 1 := by
  have h : (i.counts.filter fun x => !(x.fid == fid && x.input == inp)).find? (fun x => x.fid == fid && x.input == inp) = none :=
    List.find?_eq_none.2 fun y hy h => absurd (List.mem_filter.1 hy).2 (by simp only [h]; decide)
  rw [Instance.count, Instance.counted, List.find?_append, h]
  simp

/-- A counted cell raises the count of its sender by one, whether or not it completes the exchange (R160, R184). -/
theorem State.countCell_count {s : State} {c x : Nat} {i : Instance} (p : Program) (fid inp : Nat) (h : s.inst c x = some i) :
    ∃ j, (s.countCell p c x fid inp).inst c x = some j ∧ j.count fid inp = i.count fid inp + 1 := by
  unfold State.countCell
  extract_lets u
  have hu : u.inst c x = some (i.counted fid inp s.time.nowNs) :=
    State.inst_setInst_same (f := fun i => i.counted fid inp s.time.nowNs) (fun _ => ⟨rfl, rfl⟩) h
  simp only [hu]
  set v : State := if inp = 3 ∧ (i.counted fid inp s.time.nowNs).count fid 3 = p.branchCells then u.bump CLX_ENG_CNT_BRANCH 1 else u
  have hv : v.inst c x = some (i.counted fid inp s.time.nowNs) := by
    unfold v
    split
    · exact hu
    · exact hu
  split
  · exact ⟨_, State.inst_setInst_same (fun _ => ⟨rfl, rfl⟩) hv, i.count_counted fid inp s.time.nowNs⟩
  · exact ⟨_, hv, i.count_counted fid inp s.time.nowNs⟩

/-! ### INSTANCE_OPEN -/

/-- The exchange has just opened, with every count 0 (R160). -/
def State.Opened (s : State) (c x : Nat) : Prop :=
  ∃ i ∈ s.insts, i.ctx = c ∧ i.xid = x ∧ i.isOpen = true ∧ i.state = .opened ∧ i.counts = []

/-- An opening replaces what its exchange was by a new one, and keeps the others. -/
theorem State.openInst_insts (s : State) (c st iter : Nat) (x : XRef × Program) : ∃ i : Instance,
    (s.openInst c st iter x).insts = s.insts.filter (fun (y : Instance) => !(y.ctx == c && y.xid == x.1.xid)) ++ [i] ∧
      i.ctx = c ∧ i.xid = x.1.xid ∧ i.isOpen = true ∧ i.state = .opened ∧ i.counts = [] := by
  unfold State.openInst
  extract_lets i s₁ s₂ s₃
  refine ⟨i, ?_, rfl, rfl, rfl, rfl, rfl⟩
  have h₂ : s₂.insts = s₁.insts := by
    refine Within.insts_eq (A := [.regs, .tile, .hbm]) ?_ (by decide)
    exact State.dropUpdates_within (by decide) (by decide) c _ (State.clearLocals_within (by decide) i.num (.refl _ s₁))
  have h₃ : s₃.insts = s₂.insts := by
    unfold s₃
    split <;> rfl
  rw [(State.showOpen_within (A := [.regs]) (by decide) (.refl _ s₃)).insts_eq (by decide), h₃, h₂]

theorem State.openInst_opened (s : State) (c st iter : Nat) (x : XRef × Program) : (s.openInst c st iter x).Opened c x.1.xid := by
  obtain ⟨i, hi, h⟩ := s.openInst_insts c st iter x
  exact ⟨i, by simp [hi], h⟩

theorem State.Opened.openInst {s : State} {c y : Nat} (h : s.Opened c y) (st iter : Nat) (x : XRef × Program) :
    (s.openInst c st iter x).Opened c y := by
  rcases eq_or_ne y x.1.xid with rfl | hne
  · exact s.openInst_opened ..
  · obtain ⟨i, hi, -⟩ := s.openInst_insts c st iter x
    obtain ⟨j, hj, hc, hx, hrest⟩ := h
    exact ⟨j, by simp [hi, hj, hx, hne], hc, hx, hrest⟩

/-- Opening the exchanges of a list leaves each of them open. -/
theorem State.foldl_openInst_opened {c st : Nat} {x : XRef × Program} {l : List (XRef × Program)} (hx : x ∈ l) (s : State) :
    (l.foldl (fun s x => s.openInst c st (s.rd (TTB_ITER_ITER (ttbPg c))) x) s).Opened c x.1.xid :=
  foldl_brings (I := fun _ => True) (P := fun u => u.Opened c x.1.xid) (fun _ _ _ => trivial)
    (fun _ y h => h.openInst st _ y) (fun u _ => u.openInst_opened c st _ x) hx trivial

theorem instanceOpen_opens {s : State} {c : Nat} {m : Image} (hm : s.img c = some m) (ha : s.active = true) (har : s.armed c = true) :
    exec (.instanceOpen c) s = .next
      ((m.exchanges.filter fun x => x.1.step == s.rd (TTB_STEP_NEXT (ttbPg c)) && (x.2.branches || !s.isBranch c)).foldl
        (fun s' x => s'.openInst c (s.rd (TTB_STEP_NEXT (ttbPg c))) (s'.rd (TTB_ITER_ITER (ttbPg c))) x) s) := by
  show execInstanceOpen c s = _
  unfold execInstanceOpen
  simp only [hm, ha, har, Bool.and_self, if_true]

/-! ### ENGINE_ERROR -/

/-- The fields that an engine error writes for context `c` (R182, R184). -/
inductive ErrField (c : Nat) : Fld → Prop
  | missed : ErrField c (CLX_COUNT_MISSED (clxPg c))
  | cls : ErrField c CLX_ENG_ERR_CLASS
  | context : ErrField c CLX_ENG_ERR_CONTEXT
  | xid : ErrField c CLX_ENG_ERR_XID
  | die : ErrField c CLX_ENG_ERR_DIE

/-- An exchange in ERROR, counted, shown and reported (R182, R184). -/
def State.showError (s : State) (c x cls die : Nat) : State :=
  ((((((s.setInst c x fun i => { i with state := .error }).bump (CLX_COUNT_MISSED (clxPg c)) 1).wr CLX_ENG_ERR_CLASS cls).wr CLX_ENG_ERR_CONTEXT c).wr
    CLX_ENG_ERR_XID x).wr CLX_ENG_ERR_DIE die).detect .dz8 (clxPg c) 1 x (some c)

section
variable {s : State} {c x : Nat} {i : Instance}

/-- An open exchange that is not ready yet goes to ERROR, and the home unit learns of the miss (R182, R396). -/
theorem State.instError_eq (hi : s.inst c x = some i) (ho : i.isOpen = true) (hs : i.state = .opened ∨ i.state = .complete) (cls die : Nat)
    (prevents : Bool) : s.instError c x cls die prevents =
      if (s.showError c x cls die).isBranch c then s.showError c x cls die
      else (s.showError c x cls die).learnMiss c ⟨i.step, i.iter, 3, x, none⟩ := by
  have h : (i.isOpen && (i.state == .opened || i.state == .complete || (i.state == .ready && prevents && s.unsent i))) = true := by
    rcases hs with hs | hs <;> simp [ho, hs]
  unfold State.instError
  simp only [hi, h, if_true]
  rfl

theorem State.showError_inst (hi : s.inst c x = some i) (cls die : Nat) :
    (s.showError c x cls die).inst c x = some { i with state := .error } := by
  unfold State.showError
  rw [(State.detect_frame ..).inst_eq (by decide)]
  exact State.inst_setInst_same (fun _ => ⟨rfl, rfl⟩) hi

theorem State.showError_ttbs (cls die : Nat) : (s.showError c x cls die).ttbs = s.ttbs := by
  unfold State.showError
  rw [(State.detect_frame ..).ttbs_eq (by decide)]
  rfl

theorem State.showError_ttb (cls die e : Nat) : (s.showError c x cls die).ttb e = s.ttb e := State.ttb_of_ttbs (State.showError_ttbs cls die) e

theorem State.rd_showError_class (cls die : Nat) : (s.showError c x cls die).rd CLX_ENG_ERR_CLASS = cls % 2 ^ CLX_ENG_ERR_CLASS.w := by
  unfold State.showError
  simp (disch := decide) only [State.rd_detect, State.rd_wr_other, State.rd_wr_same]

theorem State.rd_showError_xid (cls die : Nat) : (s.showError c x cls die).rd CLX_ENG_ERR_XID = x % 2 ^ CLX_ENG_ERR_XID.w := by
  unfold State.showError
  simp (disch := decide) only [State.rd_detect, State.rd_wr_other, State.rd_wr_same]

theorem State.rd_showError_other {g : Fld} (h : ∀ f, ErrField c f → g.key ≠ f.key) (cls die : Nat) :
    (s.showError c x cls die).rd g = s.rd g := by
  unfold State.showError
  rw [State.rd_detect, State.rd_wr_other _ (h _ .die), State.rd_wr_other _ (h _ .xid), State.rd_wr_other _ (h _ .context),
    State.rd_wr_other _ (h _ .cls), State.rd_bump_other _ (h _ .missed)]
  rfl

/-- The unit and the home unit of a context stand in no field of an engine error. -/
theorem State.showError_isBranch (cls die : Nat) : (s.showError c x cls die).isBranch c = s.isBranch c := by
  rw [State.isBranch, State.isBranch, State.domain, State.domain, State.fid, State.fid, State.rd_showError_other, State.rd_showError_other] <;>
    (intro f hf; cases hf <;> simp only [Fld.key, CTX_SLICE_HOME, ctxPg, GEN_FID_FID, CLX_COUNT_MISSED, clxPg, CLX_ENG_ERR_CLASS,
      CLX_ENG_ERR_CONTEXT, CLX_ENG_ERR_XID, CLX_ENG_ERR_DIE] <;> omega)

theorem State.learnMiss_inst (s : State) (y : Miss) (e : Nat) : (s.learnMiss c y).inst e x = s.inst e x :=
  (State.learnMiss_within (A := [.regs, .ttbs]) (by decide) (by decide) c y (.refl _ s)).inst_eq (by decide) e x

/-- A miss counts in one register of its timetable. -/
theorem State.learnMiss_regsBut (s : State) (y : Miss) : RegsBut [TTB_COUNT_EXTRA (ttbPg c)] s (s.learnMiss c y) := by
  unfold State.learnMiss
  extract_lets t
  split
  · exact (RegsBut.refl _ s).bump (List.mem_singleton_self _) 1
  split
  · exact .of_regs rfl
  · exact RegsBut.bump (.of_regs rfl) (List.mem_singleton_self _) _

/-- The first miss of a step without a void is kept (R147). -/
theorem State.learnMiss_first (hv : (s.ttb c).void = none) (hm : (s.ttb c).miss = none) (hc : c < s.ttbs.length) (y : Miss) :
    ((s.learnMiss c y).ttb c).miss = some y := by
  unfold State.learnMiss
  simp only [hv, hm, Option.any_none, Bool.false_eq_true, if_false]
  exact congrArg TtbSt.miss (s.ttb_setTtb_same c (fun t => { t with miss := some y }) hc)

/-- An error of an open exchange: its state, and what CLX_ENG_ERR shows (R182, R184). -/
theorem State.instError_effect (hi : s.inst c x = some i) (ho : i.isOpen = true) (hs : i.state = .opened ∨ i.state = .complete) (cls die : Nat)
    (prevents : Bool) : (s.instError c x cls die prevents).inst c x = some { i with state := .error } ∧
      (s.instError c x cls die prevents).rd CLX_ENG_ERR_CLASS = cls % 2 ^ CLX_ENG_ERR_CLASS.w ∧
      (s.instError c x cls die prevents).rd CLX_ENG_ERR_XID = x % 2 ^ CLX_ENG_ERR_XID.w := by
  rw [State.instError_eq hi ho hs]
  split
  · exact ⟨State.showError_inst hi cls die, s.rd_showError_class cls die, s.rd_showError_xid cls die⟩
  · have h := (s.showError c x cls die).learnMiss_regsBut (c := c) ⟨i.step, i.iter, 3, x, none⟩
    refine ⟨(State.learnMiss_inst ..).trans (State.showError_inst hi cls die), (h _ ?_).trans (s.rd_showError_class cls die),
      (h _ ?_).trans (s.rd_showError_xid cls die)⟩ <;>
      (intro f hf; obtain rfl := List.mem_singleton.1 hf; simp only [Fld.key, CLX_ENG_ERR_CLASS, CLX_ENG_ERR_XID, TTB_COUNT_EXTRA]; omega)

theorem engineError_instance (cls die : Nat) :
    exec (.engineError c x cls ⟨die, none⟩) s = .next (s.instError c x cls die (cls == 1)) := rfl

theorem State.instError_none (hi : s.inst c x = none) (cls die : Nat) (prevents : Bool) : s.instError c x cls die prevents = s := by
  unfold State.instError
  rw [hi]

/-- An error of a codec engine of a C-die shows in CDC_ERR also for an exchange that never opened (R208, R209). -/
theorem engineError_codec {d : Nat} (hi : s.inst c x = none) (hd : d = 2 ∨ d = 3) (cls : Nat) (q : Nat × Nat) :
    exec (.engineError c x cls ⟨d, some q⟩) s = .next (s.codecError d q.1 c x q.2) := by
  have w : Within [.regs, .flt, .agFlt] s (s.codecError d q.1 c x q.2) :=
    State.codecError_within (by decide) (by decide) (by decide) d q.1 c x q.2 (.refl _ s)
  show execEngineError c x cls ⟨d, some q⟩ s = _
  unfold execEngineError
  simp only [hd, if_true]
  rw [State.instError_none ((w.inst_eq (by decide) c x).trans hi)]

theorem State.codecError_shows (d cls engine : Nat) :
    (s.codecError d cls c x engine).rd (CDC_ERR_CLASS (cdcPg (d - 2))) = cls % 2 ^ (CDC_ERR_CLASS 0).w ∧
      (s.codecError d cls c x engine).rd (CDC_ERR_CONTEXT (cdcPg (d - 2))) = c % 2 ^ (CDC_ERR_CONTEXT 0).w ∧
      (s.codecError d cls c x engine).rd (CDC_ERR_XID (cdcPg (d - 2))) = x % 2 ^ (CDC_ERR_XID 0).w ∧
      (s.codecError d cls c x engine).rd (CDC_ERR_ENGINE (cdcPg (d - 2))) = engine % 2 ^ (CDC_ERR_ENGINE 0).w := by
  unfold State.codecError
  refine ⟨?_, ?_, ?_, ?_⟩ <;>
    simp (disch := (simp only [Fld.key, CDC_ERR_CLASS, CDC_ERR_CONTEXT, CDC_ERR_XID, CDC_ERR_ENGINE]; omega)) only
      [State.rd_detect, State.rd_wr_other, State.rd_wr_same] <;> rfl

end

/-! ### BLOCK_DECODE -/

theorem hadamard_length (n : Nat) (l : List Int) (h : l.length = 2 ^ n) : (hadamard n l).length = 2 ^ n := by
  induction n generalizing l with
  | zero => exact h
  | succ n ih =>
    have hz (f : Int → Int → Int) : ((l.take (2 ^ n)).zipWith f (l.drop (2 ^ n))).length = 2 ^ n := by
      rw [List.length_zipWith, List.length_take, List.length_drop, h, Nat.pow_succ]
      omega
    rw [hadamard, List.length_append, ih _ (hz _), ih _ (hz _), Nat.pow_succ]
    omega

theorem unrotate_length (signs : Nat) (l : List Int) (h : l.length = 128) : (unrotate signs l).length = 128 := by
  rw [unrotate, List.length_map, List.length_zipIdx]
  exact (hadamard_length 7 l (h.trans (by norm_num))).trans (by norm_num)

/-- A block has 128 decoded values, whatever its bytes (R199 to R201). -/
theorem decodeBlock_length (f : MxFmt) (signs : Nat) (bs : List Byte) : (decodeBlock f signs bs).vals.length = 128 := by
  unfold decodeBlock
  extract_lets scale field code idx
  have hidx {α : Type} (g : Nat → α) : (idx.map g).length = 128 := by rw [List.length_map, List.length_range]
  split
  · exact hidx _
  split
  · dsimp only
    exact unrotate_length signs _ (hidx _)
  · dsimp only
    exact List.length_replicate

section
variable {s : State} {c x f n b lid : Nat} {m : Image} {p : Program} {i : Instance} {g : MxFmt} {pl : Nat × Nat × Nat}

theorem State.countDecode_count (s : State) (x lid : Nat) (d : Decoded) : (s.countDecode none x lid d).rd (CDC_COUNT_DECODED (cdcPg (s.workDie x))) =
    (s.rd (CDC_COUNT_DECODED (cdcPg (s.workDie x))) + 1) % 2 ^ (CDC_COUNT_DECODED (cdcPg (s.workDie x))).w := by
  unfold State.countDecode
  dsimp only
  split <;>
    simp (disch := (simp only [Fld.key, CDC_COUNT_DECODED, CDC_SPECIAL_IN_SPECIAL, CDC_SPECIAL_MALFORMED]; omega)) only
      [State.rd_detect, State.rd_bump_other, State.rd_bump_same]

theorem State.decodeIn_plain (hp : s.prog c x = some (m, p)) (hi : s.inst c x = some i) (hm : p.inMx n = false) : s.decodeIn c x f n b = s := by
  unfold State.decodeIn
  simp only [hp, hi, hm, Bool.and_false, Bool.false_and, Bool.false_eq_true, if_false]
  split <;> rfl

/-- The values of a block, as they stand among the decoded elements of an exchange (R202). -/
def decodedElems (fid inp e0 : Nat) (vals : List Nat) : List (Nat × Nat × Nat) :=
  ((vals.zipIdx).map fun v => (e0 + v.2, v.1)).map fun x => (fid, decKey inp x.1, x.2)

theorem decodedElems_any {vals : List Nat} (h : vals ≠ []) (fid inp e0 : Nat) :
    ((decodedElems fid inp e0 vals).any fun y => y.1 == fid && y.2.1 == decKey inp e0) = true := by
  obtain ⟨v, l, rfl⟩ := List.exists_cons_of_ne_nil h
  simp [decodedElems]

/-- Outside the M-dies decoded elements enter their exchange alone (R202). -/
theorem State.enterDecoded_inst (hd : p.inMdies = false) (hi : s.inst c x = some i) (fid inp e0 : Nat) (vals : List Nat) :
    (s.enterDecoded c m p i fid inp e0 vals).regs = s.regs ∧ ∃ a, (s.enterDecoded c m p i fid inp e0 vals).inst c x =
      some { i with decoded := i.decoded ++ decodedElems fid inp e0 vals, accs := a } := by
  obtain ⟨rfl, rfl⟩ := State.inst_key hi
  unfold State.enterDecoded
  rw [hd]
  extract_lets xs u
  have hu : u.inst i.ctx i.xid = some { i with decoded := i.decoded ++ decodedElems fid inp e0 vals } :=
    State.inst_setInst_same (f := fun i => { i with decoded := i.decoded ++ decodedElems fid inp e0 vals }) (fun _ => ⟨rfl, rfl⟩) hi
  split
  · exact ⟨rfl, _, State.inst_setInst_same (f := fun i => { i with accs := addVals i.accs xs }) (fun _ => ⟨rfl, rfl⟩) hu⟩
  · exact ⟨rfl, _, hu⟩

/-- The block of a sender that BLOCK_DECODE names: an MX block of an open exchange that lies in the input, whose cells have all been counted,
not decoded yet, and in a ROUTE_COMBINE not of an empty slot (R177, R202). -/
structure State.Decodable (s : State) (c x f n b : Nat) (p : Program) (i : Instance) (g : MxFmt) (lid : Nat) (pl : Nat × Nat × Nat) : Prop where
  isOpen : i.isOpen = true
  mx : p.inMx n = true
  fmt : MxFmt.ofByte (p.inShape lid n).1 = some g
  row : pl.1 < (p.inShape lid n).2.2.2
  block : 128 * pl.2.1 < (p.inShape lid n).2.1
  held : i.holds f n pl.2.2 g.bsz = true
  fresh : (i.decoded.any fun y => y.1 == f && y.2.1 == decKey n (pl.1 * (p.inShape lid n).2.1 + 128 * pl.2.1)) = false
  slot : p.op = 5 → n = 2 → (i.slotToken p lid (pl.1 / p.cap) (pl.1 % p.cap)).isSome = true
  sender : lid = ((p.members.find? fun q => s.lidFid c q.lid == some f).map (·.lid)).getD 0
  place : pl = blockPlace (p.inShape lid n) b

theorem State.decodeIn_decodes (hp : s.prog c x = some (m, p)) (hi : s.inst c x = some i) (hd : p.inMdies = false)
    (h : s.Decodable c x f n b p i g lid pl) : ∃ d : Decoded, d.vals.length = 128 ∧ s.decodeIn c x f n b =
      (s.countDecode none x lid d).enterDecoded c m p i f n (pl.1 * (p.inShape lid n).2.1 + 128 * pl.2.1)
        (d.vals.take (min 128 ((p.inShape lid n).2.1 - 128 * pl.2.1))) := by
  obtain ⟨ho, hmx, hg, hrow, hblock, hheld, hfresh, hslot, hlid, hpl⟩ := h
  have hempty : (p.op == 5 && n == 2 && (i.slotToken p lid (pl.1 / p.cap) (pl.1 % p.cap)).isNone) = false := by
    by_cases h5 : p.op = 5 ∧ n = 2
    · rw [← Option.not_isSome, hslot h5.1 h5.2, Bool.not_true, Bool.and_false]
    · simp [h5]
  refine ⟨_, decodeBlock_length g (signVector (s.ttb c).seed x) (i.bytes f n pl.2.2 g.bsz), ?_⟩
  unfold State.decodeIn
  simp only [hp, hi, ← hlid, ← hpl, hg, hempty, ho, hmx, hrow, hblock, hheld, hfresh, hd]
  rfl

/-- A decoded block counts on its C-die, and its elements stand in the exchange (R202). -/
theorem State.decodeIn_effect (hp : s.prog c x = some (m, p)) (hi : s.inst c x = some i) (hd : p.inMdies = false)
    (h : s.Decodable c x f n b p i g lid pl) :
    (s.decodeIn c x f n b).rd (CDC_COUNT_DECODED (cdcPg (s.workDie x))) =
        (s.rd (CDC_COUNT_DECODED (cdcPg (s.workDie x))) + 1) % 2 ^ (CDC_COUNT_DECODED (cdcPg (s.workDie x))).w ∧
      ∃ j, (s.decodeIn c x f n b).inst c x = some j ∧ j.state = i.state ∧ j.counts = i.counts ∧
        (j.decoded.any fun y => y.1 == f && y.2.1 == decKey n (pl.1 * (p.inShape lid n).2.1 + 128 * pl.2.1)) = true := by
  obtain ⟨d, hlen, he⟩ := State.decodeIn_decodes hp hi hd h
  have hvals : d.vals.take (min 128 ((p.inShape lid n).2.1 - 128 * pl.2.1)) ≠ [] := by
    have := h.block
    rw [← List.length_pos_iff, List.length_take, hlen]
    omega
  have hi' : (s.countDecode none x lid d).inst c x = some i :=
    ((State.countDecode_within (A := [.regs, .flt, .agFlt]) (by decide) (by decide) (by decide) none x lid d (.refl _ s)).inst_eq
      (by decide) c x).trans hi
  obtain ⟨hregs, a, hj⟩ := State.enterDecoded_inst (m := m) hd hi' f n (pl.1 * (p.inShape lid n).2.1 + 128 * pl.2.1)
    (d.vals.take (min 128 ((p.inShape lid n).2.1 - 128 * pl.2.1)))
  rw [he, State.rd, hregs]
  refine ⟨s.countDecode_count x lid d, _, hj, rfl, rfl, ?_⟩
  rw [List.any_append, decodedElems_any hvals, Bool.or_true]

end

/-- Settles O22: each case is the effect of its command, within the parts of its row (`exec_reach`). That the codec page of an exchange's
C-die counts a block is log entry 20. -/
theorem engineContributions : Obligations.EngineContributions := by
  unfold Obligations.EngineContributions
  refine ⟨?_, ?_, ?_, ?_, ?_, ?_, ?_, ?_⟩
  · intro s po x he
    exact (exec_reach _ s).next (contribCell_epoch he) rfl
  · intro s po x c m p i he hc hp hi ho hs hy hk hb hn
    obtain ⟨rfl, hx⟩ := State.inst_key hi
    have he' := (contribCell_member (po := po) he hc).trans (congrArg Host.Outcome.next (State.contribute_counts hp hi ho hs hy hk hb hn))
    obtain ⟨j, hj, hcount⟩ := (SameInst.absorb (g := Instance.counts) (fun _ _ _ => rfl) (.refl s) m p i x.src (x.offset / 2 ^ 30)
      (x.offset % 2 ^ 30) x.payload).some hi
    obtain ⟨k, hk, hone⟩ := State.countCell_count p x.src (x.offset / 2 ^ 30) hj
    refine (exec_reach _ s).next he' ⟨rfl, k, hk, ?_⟩
    rw [hone, Instance.count, hcount, Instance.count]
  · intro s c m _ _ hm ha har _
    refine (exec_reach _ s).next (instanceOpen_opens hm ha har) fun x hx hst hbr => ?_
    exact State.foldl_openInst_opened (List.mem_filter.2 ⟨hx, by simp [hst, hbr]⟩) s
  · intro s c x k d i hc hl hi ho hs hb hv hm hk
    obtain ⟨hstate, hclass, -⟩ := State.instError_effect hi ho (.inl hs) k d (k == 1)
    refine (exec_reach _ s).next (engineError_instance k d) ⟨?_, hclass.trans (Nat.mod_eq_of_lt hk), ?_⟩
    · rw [hstate]; rfl
    · rw [State.instError_eq hi ho (.inl hs), State.showError_isBranch, hb, if_neg Bool.false_ne_true]
      exact State.learnMiss_first (by rw [State.showError_ttb, hv]) (by rw [State.showError_ttb, hm])
        ((hc.trans_eq hl.symm).trans_eq (congrArg List.length (State.showError_ttbs k d).symm)) _
  · intro s c x k d hi
    exact (exec_reach _ s).next (engineError_instance k d) (State.instError_none hi ..)
  · intro s c x k d q hi hd
    exact (exec_reach _ s).next (engineError_codec hi hd k q) ⟨rfl, s.codecError_shows d q.1 q.2⟩
  · intro s c x f n b m p i hp hi hm
    exact (exec_reach _ s).next rfl (State.decodeIn_plain hp hi hm)
  · intro s c x f n b m p i g lid pl hp hi hlid hpl ho hmx hd hg hrow hblock hheld hfresh hslot
    exact (exec_reach _ s).next rfl
      (State.decodeIn_effect hp hi hd ⟨ho, hmx, hg, hrow, hblock, hheld, hfresh, hslot, hlid, hpl⟩)

end Sys2Proof.Machine
end

section
/-! Encoded blocks, stage 1, merge blocks and ready instances, one lemma per case (R160, R176, R203, R248, R254). -/

namespace Sys2Proof.Machine

/-! ### BLOCK_ENCODE -/

section
variable {s : State} {c x k b : Nat} {m : Image} {p : Program} {i : Instance}

theorem blockEncode_encodes (hp : s.prog c x = some (m, p)) (hi : s.inst c x = some i) (ho : i.isOpen = true) (hd : p.inMdies = false)
    (hs : i.state = .complete ∨ (p.op = 5 ∧ k ≠ 0 ∧ i.stage1 = true)) : exec (.blockEncode c x k b) s = .next (s.encodeBlk c m p i k b) := by
  have h : (i.isOpen && !p.inMdies && (i.state == .complete || (p.op == 5 && k != 0 && i.stage1))) = true := by
    rcases hs with hs | ⟨h5, hk, h1⟩
    · simp [ho, hd, hs]
    · simp [ho, hd, h5, hk, h1]
  show execBlockEncode c x k b s = _
  unfold execBlockEncode
  simp only [hp, hi, h, if_true]

theorem State.countEncode_count (s : State) (x : Nat) (e : Encoded) : (s.countEncode none x e).rd (CDC_COUNT_ENCODED (cdcPg (s.workDie x))) =
    (s.rd (CDC_COUNT_ENCODED (cdcPg (s.workDie x))) + 1) % 2 ^ (CDC_COUNT_ENCODED 0).w := by
  unfold State.countEncode
  simp (disch := (simp only [Fld.key, CDC_COUNT_ENCODED, CDC_SPECIAL_OUT_SPECIAL, CDC_SPECIAL_OVERFLOW, CDC_SAT_SAT, CDC_SAT_ZERO]; omega)) only
    [State.rd_bump_other, State.rd_bump_same]
  rfl

/-- A result outside the M-dies is written to the Pigeonholes (R179). -/
theorem State.putResult_tile (hd : p.inMdies = false) (s : State) (c : Nat) (m : Image) (x o : Nat) (bs : List Byte) :
    Within [.tile] s (s.putResult c m p x o bs) := by
  unfold State.putResult
  rw [if_neg (by simp [hd])]
  exact State.allocWrite_within (by decide) c _ bs (.refl _ s)

/-- A block of a filled row that is not encoded yet is encoded, counted, written, and kept in the exchange (R203). -/
theorem State.encodeBlk_encodes
    (hq : ((s.mxPart p i k).any fun q => decide (b / max 1 (ceilDiv q.len 128) < q.rows) && q.filled (b / max 1 (ceilDiv q.len 128))) = true)
    (hf : (i.encoded.any fun y => y.1 == encKey k b) = false) : ∃ (e : Encoded) (o : Nat), s.encodeBlk c m p i k b =
      ((s.countEncode none i.xid e).putResult c m p i.xid o e.bytes).setInst c i.xid fun i =>
        { i with encoded := i.encoded ++ [(encKey k b, e.bytes)] } := by
  cases hpart : s.mxPart p i k with
  | none => rw [hpart] at hq; cases hq
  | some q =>
    rw [hpart, Option.any_some] at hq
    unfold State.encodeBlk
    simp only [hpart, hq, hf, Bool.not_false, Bool.and_self, if_true]
    exact ⟨_, _, rfl⟩

/-- An encoded block stands last in its exchange, and counts on its C-die; the M-dies are not touched (R203). -/
theorem State.encodeBlk_effect (hi : s.inst c x = some i) (hd : p.inMdies = false)
    (hq : ((s.mxPart p i k).any fun q => decide (b / max 1 (ceilDiv q.len 128) < q.rows) && q.filled (b / max 1 (ceilDiv q.len 128))) = true)
    (hf : (i.encoded.any fun y => y.1 == encKey k b) = false) :
    (∃ bs, (s.encodeBlk c m p i k b).inst c x = some { i with encoded := i.encoded ++ [(encKey k b, bs)] }) ∧
      (s.encodeBlk c m p i k b).rd (CDC_COUNT_ENCODED (cdcPg (s.workDie x))) =
        (s.rd (CDC_COUNT_ENCODED (cdcPg (s.workDie x))) + 1) % 2 ^ (CDC_COUNT_ENCODED 0).w ∧
      (s.encodeBlk c m p i k b).hbm = s.hbm := by
  obtain ⟨rfl, rfl⟩ := State.inst_key hi
  obtain ⟨e, o, he⟩ := s.encodeBlk_encodes (c := i.ctx) (m := m) hq hf
  have w₀ : Within [.regs] s (s.countEncode none i.xid e) := State.countEncode_within (by decide) none i.xid e (.refl _ s)
  have w := State.putResult_tile hd (s.countEncode none i.xid e) i.ctx m i.xid o e.bytes
  have hu := ((w.inst_eq (by decide) i.ctx i.xid).trans (w₀.inst_eq (by decide) i.ctx i.xid)).trans hi
  rw [he]
  refine ⟨⟨e.bytes, State.inst_setInst_same
    (f := fun i => { i with encoded := i.encoded ++ [(encKey k b, e.bytes)] }) (fun _ => ⟨rfl, rfl⟩) hu⟩,
    ?_, (w.hbm_eq (by decide)).trans (w₀.hbm_eq (by decide))⟩
  exact (w.rd_eq (by decide) _).trans (s.countEncode_count i.xid e)

end

/-! ### ROUTE_COMBINE_STAGE1 -/

section
variable {s : State} {c x : Nat} {m : Image} {p : Program} {i : Instance}

/-- The covering rows of every member have been counted (R176). -/
def State.rowsCounted (s : State) (c : Nat) (p : Program) (i : Instance) : Bool :=
  (s.expects c p (s.branchUnit i)).all fun y => y.2.1 != 0 || i.count y.1 0 == y.2.2

theorem routeCombineStage1_does (hp : s.prog c x = some (m, p)) (hi : s.inst c x = some i) (ho : i.isOpen = true) (h5 : p.op = 5)
    (h1 : i.stage1 = false) (hs : i.state = .opened ∨ i.state = .complete) (hr : s.rowsCounted c p i = true) :
    exec (.routeCombineStage1 c x) s = .next (s.doStage1 c m p i) := by
  have h : (i.isOpen && p.op == 5 && !i.stage1 && i.state == .opened || (i.isOpen && p.op == 5 && !i.stage1 && i.state == .complete)) = true := by
    rcases hs with hs | hs <;> simp [ho, h5, h1, hs]
  rw [State.rowsCounted] at hr
  show execRouteCombineStage1 c x s = _
  unfold execRouteCombineStage1
  simp only [hp, hi, h, hr, if_true]

theorem routeCombineStage1_waits (hp : s.prog c x = some (m, p)) (hi : s.inst c x = some i) (hr : s.rowsCounted c p i = false) :
    exec (.routeCombineStage1 c x) s = .next s := by
  rw [State.rowsCounted] at hr
  show execRouteCombineStage1 c x s = _
  unfold execRouteCombineStage1
  simp only [hp, hi, hr, Bool.false_eq_true, if_false, ite_self]

theorem routeCombineStage1_done (hp : s.prog c x = some (m, p)) (hi : s.inst c x = some i) (h1 : i.stage1 = true) :
    exec (.routeCombineStage1 c x) s = .next s := by
  show execRouteCombineStage1 c x s = _
  unfold execRouteCombineStage1
  simp only [hp, hi, h1, Bool.not_true, Bool.and_false, Bool.false_and, Bool.or_self, Bool.false_eq_true, if_false]

/-- An exchange without its encoded blocks. -/
def Instance.bare (i : Instance) : Instance := { i with encoded := [] }

/-- Stage 1 decides from what the rest of the decoding left, and encodes (R176, R177). -/
theorem State.doStage1_inst (m : Image) (p : Program) (hi : s.inst c x = some i) :
    ∃ j k, (s.decodeRest c p i).inst c x = some j ∧ j.core = i.core ∧
    (s.doStage1 c m p i).inst c x = some k ∧ k.bare = (j.staged ((s.decodeRest c p i).stage1 p j)).bare := by
  obtain ⟨rfl, rfl⟩ := State.inst_key hi
  obtain ⟨j, hj, hcore⟩ := ((SameInst.refl s).decodeRest undecoded_core i.ctx p i).some hi
  have hs : (((s.decodeRest i.ctx p i).countChoices i.ctx p ((s.decodeRest i.ctx p i).stage1 p j).2).setInst i.ctx i.xid
      fun k => k.staged ((s.decodeRest i.ctx p i).stage1 p j)).inst i.ctx i.xid = some (j.staged ((s.decodeRest i.ctx p i).stage1 p j)) :=
    State.inst_setInst_same (fun _ => ⟨rfl, rfl⟩) hj
  obtain ⟨k, hk, hbare⟩ := ((SameInst.refl _).fillDispatch (g := Instance.bare) (fun _ _ => rfl) i.ctx m p i.xid).some hs
  refine ⟨j, k, hj, hcore, ?_, hbare⟩
  rw [State.doStage1_eq m hj, hk]

/-- Nothing is left to decode where no block is decoded. -/
theorem State.decodeRest_idle (h : ∀ f b, ∀ inp ∈ [0, 2], p.inMx inp = true → s.decodeIn c i.xid f inp b = s) : s.decodeRest c p i = s := by
  unfold State.decodeRest
  refine List.foldl_fixed' (fun y => ?_) _
  have hstep (inp : Nat) (hm : inp ∈ [0, 2]) : (if p.inMx inp then
      (List.range ((p.inShape y.1.lid inp).2.2.2 * ceilDiv (p.inShape y.1.lid inp).2.1 128)).foldl (fun s b => s.decodeIn c i.xid y.2 inp b) s
      else s) = s := by
    split
    · exact List.foldl_fixed' (fun b => h y.2 b inp hm ‹_›) _
    · rfl
  simp only [List.foldl_cons, List.foldl_nil, hstep 0 (by decide), hstep 2 (by decide)]

/-- Inputs in a plain format have nothing to decode (R156). -/
theorem State.decodeRest_plain (hf : p.infmt ≠ 3) (h5 : p.op ≠ 5) : s.decodeRest c p i = s := by
  refine State.decodeRest_idle fun f b inp _ hm => ?_
  simp [Program.inMx, hf, h5] at hm

/-- A ROUTE_COMBINE with plain rows and no choices yet has nothing to decode: every slot is empty (R177). -/
theorem State.decodeRest_noChoice (hp : s.prog c x = some (m, p)) (hi : s.inst c x = some i) (hf : p.infmt ≠ 3) (h5 : p.op = 5)
    (hc : i.choices = []) : s.decodeRest c p i = s := by
  obtain ⟨rfl, rfl⟩ := State.inst_key hi
  refine State.decodeRest_idle fun f b inp _ hm => ?_
  obtain rfl : inp = 2 := by simpa [Program.inMx, hf, h5] using hm
  unfold State.decodeIn
  simp only [hp, hi]
  split
  · rfl
  · simp [Instance.slotToken, hc, h5]

end

/-! ### MERGE_BLOCK_COMPLETE -/

section
variable {s : State} {c x b : Nat} {m : Image} {p : Program} {i : Instance}

theorem mergeBlockComplete_merges (hp : s.prog c x = some (m, p)) (hi : s.inst c x = some i) (ho : i.isOpen = true) (hd : p.inMdies = true)
    (hs : i.state = .opened ∨ i.state = .complete) (hb : 384 * b < p.elems) (he : (i.encoded.any fun y => y.1 == encKey 0 b) = false)
    (h6 : p.op = 6 → s.hbm.mapBad.contains c = false) : exec (.mergeBlockComplete c x b) s = .next (s.mergeDone c m p i b) := by
  have h : (i.isOpen && p.inMdies && (i.state == .opened || i.state == .complete) && decide (384 * b < p.elems) &&
      !(i.encoded.any fun y => y.1 == encKey 0 b)) = true := by
    rcases hs with hs | hs <;> simp [ho, hd, hs, hb, he]
  have hn : ¬(p.op = 6 ∧ s.hbm.mapBad.contains c = true) := fun ⟨h, k⟩ => Bool.false_ne_true ((h6 h).symm.trans k)
  show execMergeBlockComplete c x b s = _
  unfold execMergeBlockComplete
  simp only [hp, hi, h, if_true, if_neg hn]

theorem mergeBlockComplete_beyond (hp : s.prog c x = some (m, p)) (hi : s.inst c x = some i) (hb : p.elems ≤ 384 * b) :
    exec (.mergeBlockComplete c x b) s = .next s := by
  show execMergeBlockComplete c x b s = _
  unfold execMergeBlockComplete
  simp only [hp, hi, Nat.not_lt_of_le hb, decide_false, Bool.and_false, Bool.false_and, Bool.false_eq_true, if_false]

end

/-! ### INSTANCE_READY -/

section
variable {s u : State} {c x : Nat} {m : Image} {p : Program} {i j : Instance}

theorem State.becomeReady_inst (i : Instance) (h : u.inst c x = some j) :
    (u.becomeReady c x i).inst c x = some { j with state := .ready, readyNs := some u.time.nowNs } := by
  unfold State.becomeReady
  rw [(State.atLeast_within (A := [.regs]) (by decide) _ _ (.refl _ _)).inst_eq (by decide)]
  exact State.inst_setInst_same (f := fun i => { i with state := .ready, readyNs := some u.time.nowNs }) (fun _ => ⟨rfl, rfl⟩) h

theorem State.becomeReady_frame (s : State) (c x : Nat) (i : Instance) : Within [.regs, .insts] s (s.becomeReady c x i) :=
  State.becomeReady_within (by decide) (by decide) c x i (.refl _ s)

/-- The output of a complete exchange is finished, and it becomes ready (R160, R183). -/
theorem instanceReady_ready (hp : s.prog c x = some (m, p)) (hi : s.inst c x = some i) (ho : i.isOpen = true) (hs : i.state = .complete)
    (hb : s.isBranch c = false) (h6 : ¬(p.op = 6 ∧ s.hbm.mapBad.contains c = true)) (hj : (s.finish c m p i).inst c x = some j)
    (hjs : j.state = .complete) : exec (.instanceReady c x) s = .next ((s.finish c m p i).becomeReady c x i) := by
  have h : (i.isOpen && i.state == .complete && !s.isBranch c) = true := by simp [ho, hs, hb]
  have hne : ¬(j.state == InstState.error) = true := by simp [hjs]
  show execInstanceReady c x s = _
  unfold execInstanceReady
  simp only [hp, hi, h, if_true, if_neg h6, hj, if_neg hne]

theorem instanceReady_badMap (hp : s.prog c x = some (m, p)) (hi : s.inst c x = some i) (ho : i.isOpen = true) (hs : i.state = .complete)
    (hb : s.isBranch c = false) (h6 : p.op = 6) (hbad : s.hbm.mapBad.contains c = true) :
    exec (.instanceReady c x) s = .next (s.instError c x 3 0 true) := by
  have h : (i.isOpen && i.state == .complete && !s.isBranch c) = true := by simp [ho, hs, hb]
  show execInstanceReady c x s = _
  unfold execInstanceReady
  simp only [hp, hi, h, if_true, if_pos (And.intro h6 hbad)]

theorem instanceReady_early (hp : s.prog c x = some (m, p)) (hi : s.inst c x = some i) (hs : i.state = .opened) :
    exec (.instanceReady c x) s = .next s := by
  have h : (i.isOpen && i.state == .complete && !s.isBranch c) = false := by simp [hs]
  show execInstanceReady c x s = _
  unfold execInstanceReady
  simp only [hp, hi, h, Bool.false_eq_true, if_false]

/-- An exchange whose output left it complete becomes ready at the present time, open and with its counts (R160, R183). -/
theorem State.finished_ready (i' : Instance) (hj : (s.finish c m p i).inst c x = some j) (hcore : j.core = i.core) :
    ∃ k, ((s.finish c m p i).becomeReady c x i').inst c x = some k ∧ k.state = .ready ∧ k.isOpen = i.isOpen ∧ k.readyNs = some s.time.nowNs ∧
      k.counts = i.counts := by
  have w : Within [.regs, .ttbs, .insts, .tile, .hbm, .flt, .agFlt] s (s.finish c m p i) :=
    State.finish_within (by decide) (by decide) (by decide) (by decide) (by decide) (by decide) (by decide) c m p i (.refl _ s)
  obtain ⟨-, hopen, hcounts⟩ := Instance.parts_of_core hcore
  refine ⟨_, State.becomeReady_inst i' hj, rfl, hopen, ?_, hcounts⟩
  rw [w.time_eq (by decide)]

/-- An UPDATE whose blocks are all encoded has nothing left to merge. -/
theorem State.finish_merged (hi : s.inst c x = some i) (hd : p.inMdies = true)
    (he : ∀ b < ceilDiv p.elems 384, (i.encoded.any fun y => y.1 == encKey 0 b) = true) : s.finish c m p i = s.decodeRest c p i := by
  obtain ⟨rfl, rfl⟩ := State.inst_key hi
  obtain ⟨j, hj, henc⟩ := ((SameInst.refl s).decodeRest (g := Instance.encoded) (fun _ _ _ => rfl) i.ctx p i).some hi
  unfold State.finish
  simp only [hj, hd, if_true]
  unfold State.finishMerge
  refine List.foldlRecOn (motive := fun u => u = s.decodeRest i.ctx p i) _ _ rfl ?_
  rintro _ rfl b hb
  have hjx : (s.decodeRest i.ctx p i).inst i.ctx j.xid = some j := by rw [(State.inst_key hj).2, hj]
  have hany : (j.encoded.any fun y => y.1 == encKey 0 b) = true := by rw [henc]; exact he b (List.mem_range.1 hb)
  simp only [hjx, hany, if_true]

end

end Sys2Proof.Machine
end

section
/-! Results and branch transfers that leave, one lemma per case, and O23 (R135, R161, R162). -/

namespace Sys2Proof.Machine

/-! ### What an exchange has sent -/

/-- An exchange has noted `v` of a send: its cells, and those of a beat. -/
def Instance.noted (i : Instance) (k : Nat) (v : Nat × Nat × Nat) : Instance :=
  { i with sending := i.sending.filter (fun y => y.1 != k) ++ [(k, v)] }

theorem Instance.sentOf_noted (i : Instance) (k : Nat) (v : Nat × Nat × Nat) : (i.noted k v).sentOf k = v := by
  have h : (i.sending.filter fun y => y.1 != k).find? (fun y => y.1 == k) = none :=
    List.find?_eq_none.2 fun y hy => by simpa using (List.mem_filter.1 hy).2
  rw [Instance.sentOf, Instance.noted, List.find?_append, h]
  simp

section
variable {s t : State} {c x : Nat} {i j : Instance}

/-- The cells of a send that are noted add to those sent before (R135). -/
theorem State.noteSent_inst (hj : s.inst i.ctx i.xid = some j) (k n : Nat) : ∃ v : Nat × Nat × Nat, v.1 = (i.sentOf k).1 + n ∧
    (s.noteSent i k n).inst i.ctx i.xid = some (j.noted k v) :=
  ⟨_, rfl, State.inst_setInst_same (f := fun j => j.noted k _) (fun _ => ⟨rfl, rfl⟩) hj⟩

/-! ### RESULT_SEND -/

theorem resultSend_noImage {n : Nat} (hm : s.img c = none) : exec (.resultSend c n) s = .next s := by
  show execResultSend c n s = _
  unfold execResultSend
  rw [hm]

/-- A RESULT entry sends of a ready exchange of its step, and of a ROUTE_COMBINE past stage 1 from its dispatch area (R161, R177). -/
theorem resultSend_sends {n : Nat} {m : Image} {e : Entry} {q : Image × Program} (hm : s.img c = some m) (he : m.entries[n]? = some e)
    (hq : s.prog c e.srcbuf = some q) (hi : s.inst c e.srcbuf = some i) (hk : e.kind = 4) (ho : i.isOpen = true)
    (h : (i.state = .ready ∧ i.step = e.step) ∨
      (q.2.op = 5 ∧ i.stage1 = true ∧ e.segment + 48 * e.cells ≤ q.2.dispatchLen ∧ (i.state = .opened ∨ i.state = .complete))) :
    exec (.resultSend c n) s = .next (s.sendResults c m q.2 i n e) := by
  show execResultSend c n s = _
  unfold execResultSend
  simp only [hm, he, hq, hi]
  rcases h with ⟨hs, hst⟩ | ⟨h5, h1, hd, hs⟩
  · rw [if_pos (by simp [hk, ho, hs, hst])]
  · rw [if_neg (by rcases hs with hs | hs <;> simp [hs]), if_pos (by rcases hs with hs | hs <;> simp [hk, ho, h5, h1, hd, hs])]

theorem State.cmapPort_frame (s : State) (c p : Nat) : Within [.ttbs] s (s.cmapPort c p) := State.cmapPort_within (by decide) c p (.refl _ s)

/-- Of the instances, a sending of results changes what that of the entry has sent (R135, R161). -/
theorem State.sendResults_inst (m : Image) (p : Program) (k : Nat) (e : Entry) (hi : s.inst c x = some i) : ∃ v : Nat × Nat × Nat,
    v.1 = (i.sentOf k).1 + s.mayLeave i k e.rate e.cells (s.boundaryOf i + e.beat) ∧
      (s.sendResults c m p i k e).inst c x = some (i.noted k v) := by
  obtain ⟨rfl, rfl⟩ := State.inst_key hi
  unfold State.sendResults
  extract_lets sent n dst u
  have w : Within [.regs, .aregs, .ports, .agPorts, .flt, .agFlt] s u := .foldl (.refl _ s) fun v j hv =>
    State.sendOn_within (by decide) (by decide) (by decide) (by decide) (by decide) (by decide) _ _ _ hv
  obtain ⟨v, hv, hj⟩ := State.noteSent_inst ((w.inst_eq (by decide) i.ctx i.xid).trans hi) k n
  exact ⟨v, hv, ((State.cmapPort_frame _ i.ctx e.port).inst_eq (by decide) i.ctx i.xid).trans hj⟩

theorem State.sendOn_bears {d : Site} {p : Nat} (h : s.bears d p = true) (x : Cell) : s.sendOn d p x = s.enqueue d p none x := if_pos h

/-- The one cell of a result that may leave is queued on the port of its entry (R135, R161). -/
theorem State.sendResults_one {m : Image} {p : Program} {k : Nat} {e : Entry}
    (h1 : s.mayLeave i k e.rate e.cells (s.boundaryOf i + e.beat) = 1) (hb : s.bears .dz8 e.port = true) :
    (s.sendResults c m p i k e).port .dz8 e.port = (s.enqueue .dz8 e.port none (s.newCell .dz8 ((s.lidFid c e.target).getD 0) 0 tRESULT
      (i.sentOf k).1 0 (e.offset + 48 * (i.sentOf k).1) (e.cidx + i.parity * 2 ^ 15)
      (wordsOf (s.getResult c m p i.xid (e.segment + 48 * (i.sentOf k).1))))).port .dz8 e.port := by
  unfold State.sendResults
  rw [h1]
  extract_lets sent n dst u
  have w : Within [.insts] u (u.noteSent i k n) := State.noteSent_within (by decide) i k n (.refl _ u)
  rw [(State.cmapPort_frame _ c e.port).port_eq (by decide) (by decide), w.port_eq (by decide) (by decide)]
  exact congrArg (fun u : State => u.port .dz8 e.port) (State.sendOn_bears hb _)

/-! ### BRANCH_TRANSFER -/

/-- Of the instances, a branch transfer changes what its own has sent (R135, R162). -/
theorem State.sendBranch_inst (p : Program) (hi : s.inst c x = some i) : ∃ v : Nat × Nat × Nat,
    v.1 = (i.sentOf (2 ^ 32)).1 + s.mayLeave i (2 ^ 32) p.branchRate p.branchCells (s.boundaryOf i + p.branchBeat) ∧
      (s.sendBranch p i).inst c x = some (i.noted (2 ^ 32) v) := by
  obtain ⟨rfl, rfl⟩ := State.inst_key hi
  unfold State.sendBranch
  extract_lets c key sent n home u u'
  have w : Within [.regs, .aregs, .ports, .agPorts, .flt, .agFlt, .out] s u := .foldl (.refl _ s) fun v j hv =>
    State.send_within (by decide) (by decide) (by decide) (by decide) (by decide) (by decide) (by decide) _ _ hv
  obtain ⟨v, hv, hj⟩ := State.noteSent_inst ((w.inst_eq (by decide) i.ctx i.xid).trans hi) key n
  refine ⟨v, hv, ?_⟩
  split
  · exact hj
  · exact hj

section
variable {m : Image} {p : Program}

theorem branchTransfer_home (hp : s.prog c x = some (m, p)) (hi : s.inst c x = some i) (hb : s.isBranch c = false) :
    exec (.branchTransfer c x) s = .next s := by
  show execBranchTransfer c x s = _
  unfold execBranchTransfer
  simp only [hp, hi, hb, Bool.and_false, Bool.false_and, Bool.false_eq_true, if_false]

/-- A complete exchange of a branch unit becomes ready, and its transfer begins (R162). -/
theorem branchTransfer_complete (hp : s.prog c x = some (m, p)) (hi : s.inst c x = some i) (ho : i.isOpen = true) (hs : i.state = .complete)
    (hb : s.isBranch c = true) (hbr : p.branches = true) (hj : ((s.decodeRest c p i).becomeReady c x i).inst c x = some j) :
    exec (.branchTransfer c x) s = .next (((s.decodeRest c p i).becomeReady c x i).sendBranch p j) := by
  show execBranchTransfer c x s = _
  unfold execBranchTransfer
  simp only [hp, hi]
  rw [if_pos (by simp [ho, hs, hb, hbr]), if_pos (by simp [hs])]
  simp only [hj]

/-- The transfer of a ready exchange of a branch unit goes on (R162). -/
theorem branchTransfer_ready (hp : s.prog c x = some (m, p)) (hi : s.inst c x = some i) (ho : i.isOpen = true) (hs : i.state = .ready)
    (hb : s.isBranch c = true) (hbr : p.branches = true) : exec (.branchTransfer c x) s = .next (s.sendBranch p i) := by
  show execBranchTransfer c x s = _
  unfold execBranchTransfer
  simp only [hp, hi]
  rw [if_pos (by simp [ho, hs, hb, hbr]), if_neg (by simp [hs])]
  simp only [hi]

/-- A complete exchange of a branch unit is ready at the present time after its transfer has begun. -/
theorem branchTransfer_becomesReady (hp : s.prog c x = some (m, p)) (hi : s.inst c x = some i) (ho : i.isOpen = true) (hs : i.state = .complete)
    (hb : s.isBranch c = true) (hbr : p.branches = true) : ∃ t k, exec (.branchTransfer c x) s = .next t ∧ t.inst c x = some k ∧
      k.state = .ready ∧ k.readyNs = some s.time.nowNs := by
  obtain ⟨j, hj, -⟩ := ((SameInst.refl s).decodeRest undecoded_core c p i).some hi
  have w : Within [.regs, .insts, .hbm, .flt, .agFlt] s (s.decodeRest c p i) :=
    State.decodeRest_within (by decide) (by decide) (by decide) (by decide) (by decide) c p i (.refl _ s)
  have hr := State.becomeReady_inst i hj
  obtain ⟨v, -, hk⟩ := State.sendBranch_inst p hr
  exact ⟨_, _, branchTransfer_complete hp hi ho hs hb hbr hr, hk, rfl,
    (congrArg (fun u : TimeSt => some u.nowNs) (w.time_eq (by decide)) :)⟩

/-- What may leave depends on the time, the step boundaries and what the exchange has sent alone (R135). -/
theorem State.mayLeave_same (ht : t.time = s.time) (hb : t.ttbs = s.ttbs) (i : Instance) (k rate cells beat : Nat) :
    t.mayLeave i k rate cells (t.boundaryOf i + beat) = s.mayLeave i k rate cells (s.boundaryOf i + beat) := by
  rw [State.boundaryOf, State.boundaryOf, State.ttb_of_ttbs hb, State.mayLeave, State.mayLeave, ht]

/-- A branch transfer sends what may leave (R135, R162). -/
theorem branchTransfer_sends (hp : s.prog c x = some (m, p)) (hi : s.inst c x = some i) (ho : i.isOpen = true)
    (hs : i.state = .complete ∨ i.state = .ready) (hb : s.isBranch c = true) (hbr : p.branches = true) (hf : p.infmt ≠ 3) (h5 : p.op ≠ 5) :
    ∃ t k, exec (.branchTransfer c x) s = .next t ∧ t.inst c x = some k ∧ k.state = .ready ∧ (k.sentOf (2 ^ 32)).1 =
      (i.sentOf (2 ^ 32)).1 + s.mayLeave i (2 ^ 32) p.branchRate p.branchCells (s.boundaryOf i + p.branchBeat) := by
  rcases hs with hs | hs
  · have hd : s.decodeRest c p i = s := State.decodeRest_plain hf h5
    have hr := State.becomeReady_inst i hi
    have w := s.becomeReady_frame c x i
    obtain ⟨v, hv, hk⟩ := State.sendBranch_inst p hr
    have he := branchTransfer_complete hp hi ho hs hb hbr (by rw [hd]; exact hr)
    rw [hd] at he
    refine ⟨_, _, he, hk, rfl, ?_⟩
    rw [Instance.sentOf_noted]
    exact hv.trans (congrArg _ (State.mayLeave_same (w.time_eq (by decide)) (w.ttbs_eq (by decide)) i ..))
  · obtain ⟨v, hv, hk⟩ := State.sendBranch_inst p hi
    exact ⟨_, _, branchTransfer_ready hp hi ho hs hb hbr, hk, hs, by rw [Instance.sentOf_noted]; exact hv⟩

end

end

/-- Settles O23: each case is the effect of its command, within the parts of its row (`exec_reach`). The C-die of an exchange is log entry
20, the part numbers of encoded blocks 22, the joint placement of results 76. -/
theorem engineResults : Obligations.EngineResults := by
  unfold Obligations.EngineResults
  refine ⟨?_, ?_, ?_, ?_, ?_, ?_, ?_, ?_, ?_, ?_, ?_, ?_, ?_, ?_, ?_, ?_, ?_, ?_, ?_, ?_, ?_, ?_, ?_⟩
  · intro s c x k b m p i hp hi ho hd hs
    exact (exec_reach _ s).next (blockEncode_encodes hp hi ho hd (.inl hs)) rfl
  · intro s c x k b m p i hp hi ho hd hs hq hf
    obtain ⟨⟨bs, hj⟩, hcount, hhbm⟩ := State.encodeBlk_effect (m := m) hi hd hq hf
    exact (exec_reach _ s).next (blockEncode_encodes hp hi ho hd hs)
      ⟨⟨_, hj, rfl, List.dropLast_concat, by rw [List.getLast?_concat]; rfl⟩, hcount, hhbm⟩
  · intro s c x m p i hp hi ho h5 h1 hs hr
    exact (exec_reach _ s).next (routeCombineStage1_does hp hi ho h5 h1 (.inl hs) hr) rfl
  · intro s c x m p i hp hi ho h5 h1 hs hr
    obtain ⟨j, k, -, hcore, hk, hbare⟩ := State.doStage1_inst m p hi
    obtain ⟨hstate, -, hcounts⟩ := Instance.parts_of_core hcore
    exact (exec_reach _ s).next (routeCombineStage1_does hp hi ho h5 h1 hs hr)
      ⟨k, hk, (congrArg Instance.stage1 hbare :), (congrArg Instance.state hbare :).trans hstate, (congrArg Instance.counts hbare :).trans hcounts⟩
  · intro s c x m p i hp hi ho h5 h1 hs hr hf hc
    obtain ⟨j, k, hj, -, hk, hbare⟩ := State.doStage1_inst m p hi
    rw [State.decodeRest_noChoice hp hi hf h5 hc] at hj hbare
    obtain rfl : i = j := Option.some.inj (hi.symm.trans hj)
    exact (exec_reach _ s).next (routeCombineStage1_does hp hi ho h5 h1 hs hr)
      ⟨k, hk, (congrArg Instance.hidden hbare :), (congrArg Instance.choices hbare :)⟩
  · intro s c x m p i hp hi hr
    exact (exec_reach _ s).next (routeCombineStage1_waits hp hi hr) rfl
  · intro s c x m p i hp hi h1
    exact (exec_reach _ s).next (routeCombineStage1_done hp hi h1) rfl
  · intro s c x b m p i hp hi ho hd hs hb he h1
    exact (exec_reach _ s).next
      (mergeBlockComplete_merges hp hi ho hd (.inr hs) hb (by rw [he]; rfl) fun h6 => absurd (h1.symm.trans h6) (by decide)) rfl
  · intro s c x b m p i hp hi ho hd hs hb he h6
    obtain ⟨hj, hslots, hspilled⟩ := State.mergeDone_effect (m := m) (p := p) (b := b) hi (by
      split
      · exact (h6 ‹_›).2
      · rfl)
    exact (exec_reach _ s).next (mergeBlockComplete_merges hp hi ho hd hs hb he fun h => (h6 h).1) ⟨⟨_, hj, rfl, rfl⟩, hslots, hspilled⟩
  · intro s c x b m p i hp hi hb
    exact (exec_reach _ s).next (mergeBlockComplete_beyond hp hi hb) rfl
  · intro s c x m p i _ hp hi ho hs hb h1
    have h6 : p.op ≠ 6 := by rw [h1]; decide
    obtain ⟨j, hj, hcore⟩ := ((SameInst.refl s).finish h6 c m i).some hi
    obtain ⟨k, hk, hready, -⟩ := State.finished_ready i hj hcore
    refine (exec_reach _ s).next
      (instanceReady_ready hp hi ho hs hb (fun h => h6 h.1) hj ((Instance.parts_of_core hcore).1.trans hs)) fun k' hk' => ?_
    rwa [← Option.some.inj (hk.symm.trans hk')]
  · intro s c x m p i hp hi ho hs hb h6
    obtain ⟨j, hj, hcore⟩ := ((SameInst.refl s).finish h6 c m i).some hi
    obtain ⟨k, hk, hready, hopen, hrest⟩ := State.finished_ready i hj hcore
    exact (exec_reach _ s).next
      (instanceReady_ready hp hi ho hs hb (fun h => h6 h.1) hj ((Instance.parts_of_core hcore).1.trans hs))
      ⟨k, hk, hready, hopen.trans ho, hrest⟩
  · intro s c x m p i hp hi ho hs hb h6 hd hbad he
    have hfin : s.finish c m p i = s.decodeRest c p i := State.finish_merged hi hd he
    obtain ⟨j, hj, hcore⟩ := ((SameInst.refl s).decodeRest undecoded_core c p i).some hi
    rw [← hfin] at hj
    obtain ⟨k, hk, hready, hopen, hrest⟩ := State.finished_ready i hj hcore
    refine (exec_reach _ s).next
      (instanceReady_ready hp hi ho hs hb (fun h => Bool.false_ne_true (hbad.symm.trans h.2)) hj ((Instance.parts_of_core hcore).1.trans hs))
      ⟨⟨k, hk, hready, hopen.trans ho, hrest⟩, ?_⟩
    rw [(State.becomeReady_frame ..).hbm_eq (by decide), hfin, State.decodeRest_mem]
  · intro s c x m p i hp hi ho hs hb h6 hbad
    obtain ⟨hj, hclass, hxid⟩ := State.instError_effect hi ho (.inr hs) 3 0 true
    exact (exec_reach _ s).next (instanceReady_badMap hp hi ho hs hb h6 hbad) ⟨⟨_, hj, rfl⟩, hclass, hxid⟩
  · intro s c x m p i hp hi hs
    exact (exec_reach _ s).next (instanceReady_early hp hi hs) rfl
  · intro s c n m e q i hm he hq hi hk ho hs hst
    exact (exec_reach _ s).next (resultSend_sends hm he hq hi hk ho (.inl ⟨hs, hst⟩)) rfl
  · intro s c n m e q i hm he hq hi hk ho h
    obtain ⟨v, hv, hj⟩ := State.sendResults_inst m q.2 n e hi
    exact (exec_reach _ s).next (resultSend_sends hm he hq hi hk ho h) ⟨_, hj, rfl, by rw [Instance.sentOf_noted]; exact hv⟩
  · intro s c n m e q i hm he hq hi hk ho hs hst h1 _ hb
    exact (exec_reach _ s).next (resultSend_sends hm he hq hi hk ho (.inl ⟨hs, hst⟩)) (congrArg PortSt.queue (State.sendResults_one h1 hb))
  · intro s c n hm
    exact (exec_reach _ s).next (resultSend_noImage hm) rfl
  · intro s c x m p i hp hi _ _ hb
    exact (exec_reach _ s).next (branchTransfer_home hp hi hb) rfl
  · intro s c x m p i hp hi ho hs hb hbr
    obtain ⟨t, k, ht, hk, hready, -⟩ := branchTransfer_becomesReady hp hi ho hs hb hbr
    exact (exec_reach _ s).next ht fun k' hk' => by rwa [← Option.some.inj (hk.symm.trans hk')]
  · intro s c x m p i hp hi ho hs hb hbr
    obtain ⟨t, k, ht, h⟩ := branchTransfer_becomesReady hp hi ho hs hb hbr
    exact (exec_reach _ s).next ht ⟨k, h⟩
  · intro s c x m p i hp hi ho hs hb hbr hf h5
    obtain ⟨t, k, ht, h⟩ := branchTransfer_sends hp hi ho hs hb hbr hf h5
    exact (exec_reach _ s).next ht ⟨k, h⟩

end Sys2Proof.Machine
end

section
/-! The codec and generator test paths, one lemma per case, and O24 (R207, R209). -/

namespace Sys2Proof.Machine

/-! ### Fields of the CDC page -/

/-- Two fields of one register are apart. -/
theorem Fld.key_ne_of_lo {f g : Fld} (ha : g.addr = f.addr) (hl : Nat.beq g.lo f.lo = false) : g.key ≠ f.key := by
  rw [Fld.key, Fld.key, ha]
  exact fun h => Nat.ne_of_beq_eq_false hl (Nat.add_left_cancel h)

/-- A field reads as written after a write of another one. -/
theorem State.rd_wr_wr (s : State) {f g : Fld} (h : g.key ≠ f.key) (v x : Nat) : ((s.wr g v).wr f x).rd g = v % 2 ^ g.w := by
  rw [State.rd_wr_other _ h, State.rd_wr_same]

/-- A fold whose step at `n` gives a field the value `a`, where no other step reaches that field, leaves `a` there. -/
theorem State.rd_foldl_of_mem {f : State → Nat → State} {g : Fld} {n a : Nat} (hn : ∀ u, (f u n).rd g = a)
    (ho : ∀ u x, x ≠ n → (f u x).rd g = u.rd g) {l : List Nat} (hl : n ∈ l) (s : State) : (l.foldl f s).rd g = a := by
  have kept (l : List Nat) (u : State) (hu : u.rd g = a) : (l.foldl f u).rd g = a :=
    List.foldlRecOn (motive := fun v => v.rd g = a) l f hu fun v hv x _ => by
      by_cases hx : x = n
      · rw [hx, hn]
      · rw [ho v x hx, hv]
  obtain ⟨l₁, l₂, rfl⟩ := List.append_of_mem hl
  rw [List.foldl_append, List.foldl_cons]
  exact kept l₂ _ (hn _)

/-! ### The buffers and the end of a block test -/

/-- The decoded elements `v` stand in CDC_TB_FP32 (R207). -/
def State.putTestFp (s : State) (pg : Nat) (v : List Nat) : State :=
  (List.range 64).foldl (fun s n => (s.wr (CDC_TB_FP32_EVEN pg n) (nth v (2 * n))).wr (CDC_TB_FP32_ODD pg n) (nth v (2 * n + 1))) s

/-- The encoded bytes `bs` stand in CDC_TB_CODE (R207). -/
def State.putTestCode (s : State) (pg : Nat) (bs : List Byte) : State :=
  (List.range 17).foldl (fun s n => s.wr (CDC_TB_CODE_BYTES pg n) (leNat ((bs.drop (8 * n)).take 8))) s

/-- TEST_BUSY clears and TEST_DONE is set (R207). -/
def State.endTest (s : State) (pg : Nat) : State := (s.wr (CDC_STAT_TEST_BUSY pg) 0).wr (CDC_STAT_TEST_DONE pg) 1

/-- The sign vector of a block test (R207). -/
def State.testSigns (s : State) (pg : Nat) : Nat := s.rd (CDC_TB_SIGN0_SIGNS pg) + s.rd (CDC_TB_SIGN1_SIGNS pg) * 2 ^ 64

/-- What the generator of a block test is given (R207): no seed of a context takes part. -/
def State.testGen (s : State) (pg : Nat) : GenIn :=
  ⟨s.rd (CDC_TB_KEY0_KEY pg) + s.rd (CDC_TB_KEY1_KEY pg) * 2 ^ 64, s.rd (CDC_TB_BEAT_BEAT pg), s.rd (CDC_TB_MODE_XID pg),
    s.rd (CDC_TB_MODE_IN pg), s.rd (CDC_TB_MODE_SOURCE pg), s.rd (CDC_TB_INDEX_INDEX pg)⟩

section
variable (s : State) (pg : Nat)

theorem State.endTest_busy : (s.endTest pg).rd (CDC_STAT_TEST_BUSY pg) = 0 := by
  have h : (CDC_STAT_TEST_BUSY pg).key ≠ (CDC_STAT_TEST_DONE pg).key := Fld.key_ne_of_lo rfl rfl
  rw [State.endTest, State.rd_wr_wr s h, Nat.zero_mod]

theorem State.endTest_done : (s.endTest pg).rd (CDC_STAT_TEST_DONE pg) = 1 := State.rd_wr_same ..

/-- The end of a test leaves CDC_TB_FP32. -/
theorem State.endTest_even (n : Nat) : (s.endTest pg).rd (CDC_TB_FP32_EVEN pg n) = s.rd (CDC_TB_FP32_EVEN pg n) := by
  have hstat (lo w : Nat) (hlo : lo < 64) : (CDC_TB_FP32_EVEN pg n).key ≠ Fld.key ⟨pg + 0x108, lo, w, 0⟩ := by
    simp only [Fld.key, CDC_TB_FP32_EVEN]
    omega
  exact (State.rd_wr_other _ (hstat 2 1 (by decide)) 1).trans (State.rd_wr_other s (hstat 0 1 (by decide)) 0)

theorem State.putTestFp_even (v : List Nat) {n : Nat} (hn : n < 64) :
    (s.putTestFp pg v).rd (CDC_TB_FP32_EVEN pg n) = nth v (2 * n) % 2 ^ 32 := by
  have hodd (x : Nat) : (CDC_TB_FP32_EVEN pg n).key ≠ (CDC_TB_FP32_ODD pg x).key := by
    simp only [Fld.key, CDC_TB_FP32_EVEN, CDC_TB_FP32_ODD]
    omega
  have heven (x : Nat) (hx : x ≠ n) : (CDC_TB_FP32_EVEN pg n).key ≠ (CDC_TB_FP32_EVEN pg x).key := by
    simp only [Fld.key, CDC_TB_FP32_EVEN]
    omega
  refine State.rd_foldl_of_mem (fun u => ?_) (fun u x hx => ?_) (List.mem_range.2 hn) s
  · exact State.rd_wr_wr u (hodd n) ..
  · rw [State.rd_wr_other _ (hodd x), State.rd_wr_other u (heven x hx)]

/-- An encode leaves its inputs in CDC_TB_FP32. -/
theorem State.putTestCode_even (bs : List Byte) {n : Nat} (hn : n < 64) :
    (s.putTestCode pg bs).rd (CDC_TB_FP32_EVEN pg n) = s.rd (CDC_TB_FP32_EVEN pg n) :=
  foldl_keeps (State.rd · (CDC_TB_FP32_EVEN pg n)) (fun u x => State.rd_wr_other u (by
    simp only [Fld.key, CDC_TB_FP32_EVEN, CDC_TB_CODE_BYTES]
    omega) _) _ s

end

/-! ### CDC_TEST_GO and CDC_TEST_DONE -/

section
variable {s : State} {d : Nat} {f : MxFmt}

theorem cdcTestGo_starts (hb : s.rd (CDC_STAT_TEST_BUSY (cdcPg d)) = 0) (hf : MxFmt.ofByte (s.rd (CDC_TB_MODE_FMT (cdcPg d))) = some f) :
    exec (.cdcTestGo d) s = .next ((s.wr (CDC_STAT_TEST_ERR (cdcPg d)) 0).wr (CDC_STAT_TEST_BUSY (cdcPg d)) 1) := by
  show execCdcTestGo d s = _
  simp [execCdcTestGo, State.on, hb, hf]

theorem cdcTestGo_badFormat (hb : s.rd (CDC_STAT_TEST_BUSY (cdcPg d)) = 0) (hf : MxFmt.ofByte (s.rd (CDC_TB_MODE_FMT (cdcPg d))) = none) :
    exec (.cdcTestGo d) s = .next ((s.wr (CDC_STAT_TEST_ERR (cdcPg d)) 1).wr (CDC_STAT_TEST_DONE (cdcPg d)) 1) := by
  show execCdcTestGo d s = _
  simp [execCdcTestGo, State.on, hb, hf]

theorem cdcTestGo_busy (hb : s.rd (CDC_STAT_TEST_BUSY (cdcPg d)) = 1) :
    exec (.cdcTestGo d) s = .next (s.wr (CDC_STAT_TEST_ERR (cdcPg d)) 2) := by
  show execCdcTestGo d s = _
  simp [execCdcTestGo, State.on, hb]

theorem cdcTestDone_decodes (hb : s.rd (CDC_STAT_TEST_BUSY (cdcPg d)) = 1) (hf : MxFmt.ofByte (s.rd (CDC_TB_MODE_FMT (cdcPg d))) = some f)
    (hd : s.rd (CDC_TB_MODE_DIR (cdcPg d)) = 1) : exec (.cdcTestDone d) s =
    .next ((s.putTestFp (cdcPg d) (decodeBlock f (s.testSigns (cdcPg d)) (s.testCode (cdcPg d))).vals).endTest (cdcPg d)) := by
  show execCdcTestDone d s = _
  simp only [execCdcTestDone, State.on, hb, hf, hd, beq_self_eq_true, if_true]
  rfl

theorem cdcTestDone_encodes (hb : s.rd (CDC_STAT_TEST_BUSY (cdcPg d)) = 1) (hf : MxFmt.ofByte (s.rd (CDC_TB_MODE_FMT (cdcPg d))) = some f)
    (hd : s.rd (CDC_TB_MODE_DIR (cdcPg d)) = 0) : exec (.cdcTestDone d) s =
    .next ((s.putTestCode (cdcPg d) (encodeBlock f (s.testSigns (cdcPg d)) (s.testGen (cdcPg d)) (s.testFp (cdcPg d))).bytes).endTest
      (cdcPg d)) := by
  show execCdcTestDone d s = _
  simp only [execCdcTestDone, State.on, hb, hf, hd, beq_self_eq_true]
  rfl

/-! ### CDC_GEN_DONE -/

/-- The generator test's result stands in CDC_GT_OUT, GEN_BUSY clears and GEN_DONE is set (R207). -/
def State.endGen (s : State) (pg : Nat) : State :=
  ((s.wr (CDC_GT_OUT_G pg) (gen (s.rd (CDC_GT_KEY0_KEY pg) + s.rd (CDC_GT_KEY1_KEY pg) * 2 ^ 64) (s.rd (CDC_GT_W01_W0 pg))
    (s.rd (CDC_GT_W01_W1 pg)) (s.rd (CDC_GT_W23_W2 pg)) (s.rd (CDC_GT_W23_W3 pg)))).wr (CDC_STAT_GEN_BUSY pg) 0).wr (CDC_STAT_GEN_DONE pg) 1

theorem cdcGenDone_ends (hb : s.rd (CDC_STAT_GEN_BUSY (cdcPg d)) = 1) : exec (.cdcGenDone d) s = .next (s.endGen (cdcPg d)) := by
  show execCdcGenDone d s = _
  simp only [execCdcGenDone, State.on, hb, beq_self_eq_true, if_true]
  rfl

theorem cdcGenDone_idle (hb : s.rd (CDC_STAT_GEN_BUSY (cdcPg d)) = 0) : exec (.cdcGenDone d) s = .next s := by
  show execCdcGenDone d s = _
  simp [execCdcGenDone, State.on, hb]

end

section
variable (s : State) (pg : Nat)

theorem State.endGen_regsBut : RegsBut [CDC_GT_OUT_G pg, CDC_STAT_GEN_BUSY pg, CDC_STAT_GEN_DONE pg] s (s.endGen pg) :=
  (((RegsBut.refl _ s).wr (by simp) _).wr (by simp) 0).wr (by simp) 1

theorem State.endGen_busy : (s.endGen pg).rd (CDC_STAT_GEN_BUSY pg) = 0 := by
  have h : (CDC_STAT_GEN_BUSY pg).key ≠ (CDC_STAT_GEN_DONE pg).key := Fld.key_ne_of_lo rfl rfl
  rw [State.endGen, State.rd_wr_wr _ h, Nat.zero_mod]

theorem State.endGen_done : (s.endGen pg).rd (CDC_STAT_GEN_DONE pg) = 1 := State.rd_wr_same ..

theorem State.endGen_out : (s.endGen pg).rd (CDC_GT_OUT_G pg) =
    gen (s.rd (CDC_GT_KEY0_KEY pg) + s.rd (CDC_GT_KEY1_KEY pg) * 2 ^ 64) (s.rd (CDC_GT_W01_W0 pg)) (s.rd (CDC_GT_W01_W1 pg))
      (s.rd (CDC_GT_W23_W2 pg)) (s.rd (CDC_GT_W23_W3 pg)) % 2 ^ (CDC_GT_OUT_G pg).w := by
  have hstat (lo : Nat) (hlo : lo < 64) : (CDC_GT_OUT_G pg).key ≠ Fld.key ⟨pg + 0x108, lo, 1, 0⟩ := by
    simp only [Fld.key, CDC_GT_OUT_G]
    omega
  exact (State.rd_wr_other _ (hstat 3 (by decide)) 1).trans
    ((State.rd_wr_other _ (hstat 1 (by decide)) 0).trans (State.rd_wr_same ..))

end

/-- Settles O24: each case is the effect of its command, within the parts of its row (`exec_reach`). -/
theorem codecTests : Obligations.CodecTests := by
  unfold Obligations.CodecTests
  refine ⟨?_, ?_, ?_, ?_, ?_, ?_, ?_, ?_⟩
  · intro s d f hb hf
    have h : (CDC_STAT_TEST_ERR (cdcPg d)).key ≠ (CDC_STAT_TEST_BUSY (cdcPg d)).key := Fld.key_ne_of_lo rfl rfl
    refine (exec_reach _ s).next (cdcTestGo_starts hb hf) ⟨((RegsBut.refl _ s).wr (by simp) 0).wr (by simp) 1, State.rd_wr_same .., ?_⟩
    rw [State.rd_wr_wr s h, Nat.zero_mod]
  · intro s d hb hf
    have herr : (CDC_STAT_TEST_ERR (cdcPg d)).key ≠ (CDC_STAT_TEST_DONE (cdcPg d)).key := Fld.key_ne_of_lo rfl rfl
    have hbusy : (CDC_STAT_TEST_BUSY (cdcPg d)).key ≠ (CDC_STAT_TEST_DONE (cdcPg d)).key := Fld.key_ne_of_lo rfl rfl
    have hbusy' : (CDC_STAT_TEST_BUSY (cdcPg d)).key ≠ (CDC_STAT_TEST_ERR (cdcPg d)).key := Fld.key_ne_of_lo rfl rfl
    refine (exec_reach _ s).next (cdcTestGo_badFormat hb hf) ⟨?_, State.rd_wr_wr s herr .., State.rd_wr_same ..⟩
    rw [State.rd_wr_other _ hbusy, State.rd_wr_other s hbusy', hb]
  · intro s d hb
    exact (exec_reach _ s).next (cdcTestGo_busy hb) ⟨(RegsBut.refl _ s).wr (by simp) 2, State.rd_wr_same ..⟩
  · intro s d f hb hf hd
    exact (exec_reach _ s).next (cdcTestDone_decodes hb hf hd) ⟨State.endTest_busy .., State.endTest_done .., fun n hn =>
      (State.endTest_even ..).trans (s.putTestFp_even _ _ hn)⟩
  · intro s d f hb hf hd
    exact (exec_reach _ s).next (cdcTestDone_encodes hb hf hd) ⟨State.endTest_busy .., State.endTest_done .., fun n hn =>
      (State.endTest_even ..).trans (s.putTestCode_even _ _ hn)⟩
  · intro s d
    exact (exec_reach _ s).next rfl ⟨(RegsBut.refl _ s).wr (by simp) 1, State.rd_wr_same ..⟩
  · intro s d hb
    exact (exec_reach _ s).next (cdcGenDone_ends hb)
      ⟨State.endGen_regsBut s _, State.endGen_busy .., State.endGen_done .., State.endGen_out ..⟩
  · intro s d hb
    exact (exec_reach _ s).next (cdcGenDone_idle hb) rfl

end Sys2Proof.Machine
end

section
/-! Descriptor chains of the tiles, one lemma per case of a command, and O25 (R214 to R217, R220, R235, R272, R273). What the engine writes
of a descriptor it builds is log entry 28. -/

namespace Sys2Proof.Machine

/-! ### Zeroed memories -/

/-- A table without entries of a key reads as its default there. -/
theorem kget_filter_gone {α : Type} (t : List (Nat × α)) {p : Nat × α → Bool} {k : Nat} (h : ∀ v, p (k, v) = false) (d : α) :
    kget (t.filter p) k d = d := by
  induction t with
  | nil => rfl
  | cons e t ih =>
    obtain ⟨k', v⟩ := e
    by_cases hk : k' = k
    · subst hk
      rw [List.filter_cons_of_neg (by simp [h]), ih]
    · by_cases hp : p (k', v) = true
      · rw [List.filter_cons_of_pos hp, kget, if_neg hk, ih]
      · rw [List.filter_cons_of_neg hp, ih]

/-- A zeroed range reads 0. -/
theorem mget_mzero (m : Mem) {a b x : Nat} (ha : a ≤ x) (hb : x < b) : mget (mzero m a b) x = 0 :=
  kget_filter_gone m (fun _ => by simp [ha, hb]) 0

/-! ### The chain of a tile -/

section
variable {s : State} {d k : Nat} {h : ChainSt}

theorem State.chainOf_key (hc : s.chainOf d k = some h) : h.die = d ∧ h.tile = k := by
  have hk := List.find?_some hc
  simpa using hk

/-- The chain that was set is the tile's one. -/
theorem State.chainOf_setChain (s : State) {o : Option ChainSt} (ho : ∀ c ∈ o, c.die = d ∧ c.tile = k) :
    (s.setChain d k o).chainOf d k = o := by
  have hgone : (s.tile.chains.filter fun x => !(x.die == d && x.tile == k)).find? (fun c => c.die == d && c.tile == k) = none :=
    List.find?_eq_none.2 fun x hx => by simpa [imp_iff_not_or] using (List.mem_filter.1 hx).2
  show List.find? _ (_ ++ o.toList) = o
  rw [List.find?_append, hgone, Option.none_or]
  cases o with
  | none => rfl
  | some c =>
    obtain ⟨hd, hk⟩ := ho c rfl
    simp [hd, hk]

theorem State.chainOf_setChain_none (s : State) (d k : Nat) : (s.setChain d k none).chainOf d k = none := s.chainOf_setChain nofun

end

/-! ### DESCRIPTOR_START -/

section
variable {s : State} {d k c x n : Nat} {ws : List Word}

/-- A chain's descriptor runs, and the tile is the context's (R217, R272). -/
def State.runsDesc (s : State) (ch : ChainSt) (e : Descriptor) : State :=
  (s.setChain ch.die ch.tile (some { ch with running := some e })).setTile fun t =>
    { t with lastCtx := tset t.lastCtx (tileKey ch.die ch.tile) (ch.ctx + 1) }

theorem descriptorStart_runs {e : Descriptor} {i : Instance} (he : e = (s.buildDesc d k n ws).descAt d k n) (hc : s.chainOf d k = none)
    (hi : s.inst c x = some i) (ho : i.isOpen = true) (hs : i.state ≠ .error) (hr : s.tileReady d k c = true)
    (hw : s.objSet d c x e.wait = true) (ht : s.rd PWR_STAT_THROTTLED = 0)
    (hok : (s.buildDesc d k n ws).descOk ⟨d, k, c, x, n, none, none, []⟩ e = true) :
    exec (.descriptorStart d k c x n ws) s = .next ((s.buildDesc d k n ws).runsDesc ⟨d, k, c, x, n, none, none, []⟩ e) := by
  subst he
  show execDescriptorStart d k c x n ws s = _
  simp [execDescriptorStart, State.runsDesc, State.on, hc, hi, ho, hs, hr, hw, ht, hok]

theorem descriptorStart_notReady (hc : s.chainOf d k = none) (hr : s.tileReady d k c = false) :
    exec (.descriptorStart d k c x n ws) s = .next s := by
  show execDescriptorStart d k c x n ws s = _
  simp [execDescriptorStart, hc, hr]

theorem descriptorStart_throttled (hc : s.chainOf d k = none) (ht : s.rd PWR_STAT_THROTTLED = 1) :
    exec (.descriptorStart d k c x n ws) s = .next s := by
  show execDescriptorStart d k c x n ws s = _
  simp [execDescriptorStart, State.on, hc, ht]

/-- What a descriptor that starts leaves: its chain, the tile's context, the chain store as built, and the sync window. -/
theorem State.runsDesc_effect (s : State) (ch : ChainSt) (e : Descriptor) :
    (s.runsDesc ch e).chainOf ch.die ch.tile = some { ch with running := some e } ∧
      tget (s.runsDesc ch e).tile.lastCtx (tileKey ch.die ch.tile) = ch.ctx + 1 ∧
      (s.runsDesc ch e).tile.tileSram = s.tile.tileSram ∧ (s.runsDesc ch e).tile.sync = s.tile.sync :=
  ⟨s.chainOf_setChain fun _ hc => by cases hc; exact ⟨rfl, rfl⟩,
    tget_tset_same s.tile.lastCtx (tileKey ch.die ch.tile) (ch.ctx + 1), rfl, rfl⟩

end

/-! ### DESCRIPTOR_END -/

/-- A descriptor that has ended: its result, its signal and its count (R216, R217, R235). -/
def State.descDone (s : State) (ch : ChainSt) (e : Descriptor) (d k : Nat) : State :=
  ((s.runDesc ch e).signal d ch.ctx ch.xid e.signal).bump (TTL_DESC_DESCS (tilePg d k)) 1

section
variable {s : State} {d k : Nat} {h : ChainSt} {e : Descriptor}

theorem descriptorEnd_last (hc : s.chainOf d k = some h) (hr : h.running = some e) (hn : e.next = 0xFFFF) :
    exec (.descriptorEnd d k) s = .next (((s.descDone h e d k).setChain d k none).bump (TTL_DESC_CHAINS (tilePg d k)) 1) := by
  show execDescriptorEnd d k s = _
  simp only [execDescriptorEnd, hc, hr, hn, if_true]
  rfl

theorem descriptorEnd_goesOn (hc : s.chainOf d k = some h) (hr : h.running = some e) (hn : e.next ≠ 0xFFFF) :
    exec (.descriptorEnd d k) s = .next ((s.descDone h e d k).setChain d k (some { h with
      running := none, next := some e.next, exact := if e.op = 4 then s.dequantOp h e else [] })) := by
  show execDescriptorEnd d k s = _
  simp only [execDescriptorEnd, hc, hr, hn, if_false]
  rfl

theorem descriptorEnd_noChain (hc : s.chainOf d k = none) : exec (.descriptorEnd d k) s = .next s := by
  show execDescriptorEnd d k s = _
  rw [execDescriptorEnd, hc]

/-- The end of a descriptor counts no chain. -/
theorem State.rd_descDone_chains : (s.descDone h e d k).rd (TTL_DESC_CHAINS (tilePg d k)) = s.rd (TTL_DESC_CHAINS (tilePg d k)) := by
  have hne : (TTL_DESC_CHAINS (tilePg d k)).key ≠ (TTL_DESC_DESCS (tilePg d k)).key := Fld.key_ne_of_lo rfl rfl
  have w : Within [.tile] s ((s.runDesc h e).signal d h.ctx h.xid e.signal) :=
    State.signal_within (by decide) _ _ _ _ (State.runDesc_within (by decide) _ _ (.refl _ s))
  rw [State.descDone, State.rd_bump_other _ hne, w.rd_eq (by decide)]

end

/-! ### SEQUENCER_ERROR -/

/-- TTL_ERR of an error of a tile's chain (R217). -/
def State.ttlErr (s : State) (d k cls : Nat) (h : ChainSt) : State :=
  let pg := tilePg d k
  (((((s.wr (TTL_ERR_CLASS pg) cls).wr (TTL_ERR_LOGICAL pg) k).wr (TTL_ERR_PHYSICAL pg) (s.physOf d k)).wr (TTL_ERR_CONTEXT pg) h.ctx).wr
    (TTL_ERR_XID pg) h.xid).wr (TTL_ERR_DESC pg) h.index

section
variable {s : State} {d k : Nat} {h : ChainSt}

theorem sequencerError_descriptor (hc : s.chainOf d k = some h) (hi : s.inst h.ctx h.xid = none) :
    exec (.sequencerError d k 4) s = .next ((s.ttlErr d k 4 h).setChain d k none) := by
  show execSequencerError d k 4 s = _
  simp only [execSequencerError, State.chainError, hc, true_or, if_true]
  exact congrArg Host.Outcome.next (State.instError_none (s := (s.ttlErr d k 4 h).setChain d k none) hi ..)

theorem sequencerError_tileFault {n : Nat} (hn : n ≠ 4) (ha : s.tileAbsent d k = false) :
    exec (.sequencerError d k n) s = .next (s.tileFail d (s.physOf d k) n) := by
  show execSequencerError d k n s = _
  rw [execSequencerError, if_neg (by simp [hn, ha])]

/-- Each field of TTL_ERR reads as written: the six share no place. -/
theorem State.rd_ttlErr (s : State) (d k cls : Nat) (h : ChainSt) :
    (s.ttlErr d k cls h).rd (TTL_ERR_CLASS (tilePg d k)) = cls % 2 ^ 8 ∧ (s.ttlErr d k cls h).rd (TTL_ERR_LOGICAL (tilePg d k)) = k % 2 ^ 8 ∧
      (s.ttlErr d k cls h).rd (TTL_ERR_DESC (tilePg d k)) = h.index % 2 ^ 16 := by
  unfold State.ttlErr
  refine ⟨?_, ?_, ?_⟩ <;> simp (disch := exact Fld.key_ne_of_lo rfl rfl) only [State.rd_wr_other, State.rd_wr_same] <;> rfl

end

/-! ### ENGINE_SWITCH and ENGINE_SWITCH_DONE -/

section
variable {s : State} {d k c : Nat}

theorem engineSwitch_scrubs (hc : s.chainOf d k = none) (ha : s.tileAbsent d k = false) (hr : s.tileReady d k c = false)
    (hs : (s.tile.scrubs.any fun x => x.die == d && x.tile == k) = false) :
    exec (.engineSwitch d k c) s = .next (s.setTile fun t => { t with scrubs := t.scrubs ++ [⟨d, k, c⟩] }) := by
  show execEngineSwitch d k c s = _
  rw [execEngineSwitch, hc, ha, hr, hs]
  rfl

theorem engineSwitch_ready (hr : s.tileReady d k c = true) : exec (.engineSwitch d k c) s = .next s := by
  show execEngineSwitch d k c s = _
  simp [execEngineSwitch, hr]

/-- A scrubbed tile is the context's, and the switch is counted (R272, R273). -/
def State.switched (s : State) (d k c late : Nat) : State :=
  (((s.scrubTile d k).setTile fun t => { t with
    scrubs := t.scrubs.filter fun y => !(y.die == d && y.tile == k)
    lastCtx := tset t.lastCtx (tileKey d k) (c + 1) }).bump (CTX_SWITCH_SWITCHES (ctxPg c)) 1).bump (CTX_SWITCH_LATE_NS (ctxPg c)) late

theorem engineSwitchDone_switches {x : ScrubSt} (late : Nat) (hx : s.tile.scrubs.find? (fun x => x.die == d && x.tile == k) = some x) :
    exec (.engineSwitchDone d k true late) s = .next (s.switched d k x.ctx late) := by
  show execEngineSwitchDone d k true late s = _
  rw [execEngineSwitchDone, hx]
  rfl

theorem State.rd_switched_switches (s : State) (d k c late : Nat) : (s.switched d k c late).rd (CTX_SWITCH_SWITCHES (ctxPg c)) =
    (s.rd (CTX_SWITCH_SWITCHES (ctxPg c)) + 1) % 2 ^ (CTX_SWITCH_SWITCHES (ctxPg c)).w := by
  have hne : (CTX_SWITCH_SWITCHES (ctxPg c)).key ≠ (CTX_SWITCH_LATE_NS (ctxPg c)).key := Fld.key_ne_of_lo rfl rfl
  rw [State.switched, State.rd_bump_other _ hne, State.rd_bump_same]
  rfl

/-- A scrubbed tile's SRAM reads 0 (R272). -/
theorem State.mget_scrubTile (s : State) (d k : Nat) {a : Nat} (ha : a < 2 ^ 20) :
    mget (s.scrubTile d k).tile.tileSram (tileKey d k * 2 ^ 20 + a) = 0 :=
  mget_mzero _ (Nat.le_add_right ..) (by rw [Nat.add_mul, Nat.one_mul]; exact Nat.add_lt_add_left ha _)

end

/-- Settles O25: each case is the effect of its command, within the parts of its row (`exec_reach`). -/
theorem tileChains : Obligations.TileChains := by
  unfold Obligations.TileChains
  refine ⟨?_, ?_, ?_, ?_, ?_, ?_, ?_, ?_, ?_, ?_, ?_⟩
  · intro s d k c x n ws e i he hc hi ho hs hr hw ht hok
    exact (exec_reach _ s).next (descriptorStart_runs he hc hi ho hs hr hw ht hok) (State.runsDesc_effect ..)
  · intro s d k c x n ws hc hr
    exact (exec_reach _ s).next (descriptorStart_notReady hc hr) rfl
  · intro s d k c x n ws hc ht
    exact (exec_reach _ s).next (descriptorStart_throttled hc ht) rfl
  · intro s d k h e hc hr hn
    refine (exec_reach _ s).next (descriptorEnd_last hc hr hn) ⟨State.chainOf_setChain_none .., ?_⟩
    rw [State.rd_bump_same]
    exact congrArg (fun m => (m + 1) % 2 ^ 32) State.rd_descDone_chains
  · intro s d k h e hc hr hn
    refine (exec_reach _ s).next (descriptorEnd_goesOn hc hr hn) ?_
    rw [State.chainOf_setChain _ fun _ hx => by cases hx; exact (State.chainOf_key hc :)]
    exact ⟨rfl, rfl⟩
  · intro s d k hc
    exact (exec_reach _ s).next (descriptorEnd_noChain hc) rfl
  · intro s d k h _ hk hc hi
    obtain ⟨hcls, hlogical, hdesc⟩ := s.rd_ttlErr d k 4 h
    exact (exec_reach _ s).next (sequencerError_descriptor hc hi)
      ⟨State.chainOf_setChain_none .., hcls, hlogical.trans (Nat.mod_eq_of_lt (Nat.lt_trans hk (by decide))), hdesc⟩
  · intro s d k n _ hn ha
    exact (exec_reach _ s).next (sequencerError_tileFault hn ha) rfl
  · intro s d k c hc ha hr hs
    exact (exec_reach _ s).next (engineSwitch_scrubs hc ha hr hs) ⟨rfl, rfl⟩
  · intro s d k c hr
    exact (exec_reach _ s).next (engineSwitch_ready hr) rfl
  · intro s d k n x hx
    exact (exec_reach _ s).next (engineSwitchDone_switches n hx)
      ⟨tget_tset_same s.tile.lastCtx (tileKey d k) (x.ctx + 1), rfl, s.rd_switched_switches d k x.ctx n, fun _ ha => s.mget_scrubTile d k ha⟩

end Sys2Proof.Machine
end

section
/-! Failing tiles, spare tiles and bank promotion, one lemma per case of a command, and O26 (R218 to R221, R223, R234, R237). The 64 waiting
cycles of a promotion are log entry 79. -/

namespace Sys2Proof.Machine

/-! ### Bits of a bitmap -/

theorem bit_eq_testBit (x i : Nat) : bit x i = x.testBit i := by
  rw [Nat.testBit_eq_decide_div_mod_eq]
  rfl

/-- A bit below the width of a field is kept. -/
theorem bit_mod_two_pow {i w : Nat} (h : i < w) (x : Nat) : bit (x % 2 ^ w) i = bit x i := by
  simp [bit_eq_testBit, Nat.testBit_mod_two_pow, h]

/-- The bit that was set or cleared reads so. -/
theorem bit_setBit_same (x i : Nat) (b : Bool) : bit (setBit x i b) i = b := by
  unfold setBit
  cases h : bit x i <;> cases b
  case false.false => exact h
  case true.true => exact h
  case false.true =>
    rw [bit_eq_testBit] at h
    simp [bit_eq_testBit, Nat.add_comm x, Nat.testBit_two_pow_add_eq, h]
  case true.false =>
    rw [bit_eq_testBit] at h
    obtain ⟨y, rfl⟩ := Nat.exists_eq_add_of_le (Nat.ge_two_pow_of_testBit h)
    simpa [bit_eq_testBit, Nat.testBit_two_pow_add_eq] using h

/-! ### Pages of the tiles -/

/-- A field of the group page of tile `k` on die `d`. -/
def Fld.OnGroup (g : Fld) (d k : Nat) : Prop := g.addr < tilePg d k + 0x1000 ∧ g.lo < 64

/-- The pages of the tile groups lie below the die's own page (R236). -/
theorem Fld.OnGroup.key_ne {g f : Fld} {d k : Nat} (hg : g.OnGroup d k) (hk : k < 64) (hf : ttlDiePg d ≤ f.addr) : g.key ≠ f.key := by
  obtain ⟨ha, hl⟩ := hg
  simp only [tilePg, ttlPg, ttlDiePg] at ha hf
  simp only [Fld.key]
  omega

theorem phys_onGroup (d k : Nat) : (TTL_MAP_PHYS (tilePg d k) (k % 8)).OnGroup d k :=
  ⟨Nat.add_lt_add_left (by decide) _, by simp only [TTL_MAP_PHYS]; omega⟩

theorem absent_onGroup (d k : Nat) : (TTL_STAT_ABSENT (tilePg d k)).OnGroup d k :=
  ⟨Nat.add_lt_add_left (by decide) _, (by decide : 0 < 64)⟩

theorem swapPending_onGroup (d k : Nat) : (TTL_STAT_SWAP_PENDING (tilePg d k)).OnGroup d k :=
  ⟨Nat.add_lt_add_left (by decide) _, (by decide : 8 < 64)⟩

/-- The map of a group stands below its status register. -/
theorem phys_ne_stat {d k : Nat} {f : Fld} (hf : f.addr = tilePg d k + 0x108) : (TTL_MAP_PHYS (tilePg d k) (k % 8)).key ≠ f.key := by
  simp only [Fld.key, TTL_MAP_PHYS]
  omega

/-! ### What an update of one tile leaves on the pages of its group -/

section
variable (s : State) {d k : Nat} {g : Fld}

theorem State.rd_showSpares (hg : g.OnGroup d k) (hk : k < 64) : (s.showSpares d).rd g = s.rd g :=
  State.rd_wr_other s (hg.key_ne hk (Nat.le_add_right ..)) _

/-- A tile that is marked absent or present: its own bit, and the two counts of the die. -/
theorem State.rd_setAbsent (hg : g.OnGroup d k) (hk : k < 64) (b : Bool) : (s.setAbsent d k b).rd g =
    (s.wr (TTL_STAT_ABSENT (tilePg d k)) (setBit (s.rd (TTL_STAT_ABSENT (tilePg d k))) (k % 8) b)).rd g :=
  (State.rd_wr_other _ (hg.key_ne hk (Nat.le_add_right ..)) _).trans (State.rd_wr_other _ (hg.key_ne hk (Nat.le_add_right ..)) _)

theorem State.setAbsent_absent (hk : k < 64) (b : Bool) : (s.setAbsent d k b).tileAbsent d k = b := by
  have h8 : k % 8 < (TTL_STAT_ABSENT (tilePg d k)).w := Nat.mod_lt _ (by decide)
  rw [State.tileAbsent, s.rd_setAbsent (absent_onGroup d k) hk, State.rd_wr_same, bit_mod_two_pow h8, bit_setBit_same]

theorem State.rd_setAbsent_other (hg : g.OnGroup d k) (hk : k < 64) (b : Bool) (h : g.key ≠ (TTL_STAT_ABSENT (tilePg d k)).key) :
    (s.setAbsent d k b).rd g = s.rd g :=
  (s.rd_setAbsent hg hk b).trans (State.rd_wr_other s h _)

end

/-! ### TILE_FAIL -/

section
variable {s : State} {d p n k : Nat}

theorem State.logicalOf_lt (hl : s.logicalOf d p = some k) : k < 64 := List.mem_range.1 (List.mem_of_find?_eq_some hl)

theorem tileFail_again (h : s.runFailed d p = true) : exec (.tileFail d p n) s = .next s := by
  show execTileFail d p n s = _
  rw [execTileFail, State.tileFail, if_pos h]

theorem tileFail_unused (h : s.runFailed d p = false) (hl : s.logicalOf d p = none) :
    exec (.tileFail d p n) s = .next ((s.markFailed d p).showSpares d) := by
  show execTileFail d p n s = _
  simp [execTileFail, State.tileFail, h, hl]

theorem State.showSpares_runFailed (s : State) (d p : Nat) : (s.showSpares d).runFailed d p = s.runFailed d p := by
  have hlo : (TTL_RUNFAIL_LO_FAILED (ttlDiePg d)).key ≠ (TTL_DIE_STAT_SPARES (ttlDiePg d)).key := by
    simp only [Fld.key, TTL_RUNFAIL_LO_FAILED, TTL_DIE_STAT_SPARES]
    omega
  have hhi : (TTL_RUNFAIL_HI_FAILED (ttlDiePg d)).key ≠ (TTL_DIE_STAT_SPARES (ttlDiePg d)).key := by
    simp only [Fld.key, TTL_RUNFAIL_HI_FAILED, TTL_DIE_STAT_SPARES]
    omega
  simp only [State.runFailed, State.showSpares, State.rd_wr_other s hlo, State.rd_wr_other s hhi]

/-- A tile that was marked has failed (R236). -/
theorem State.markFailed_runFailed (s : State) (d : Nat) {p : Nat} (hp : p < 68) : (s.markFailed d p).runFailed d p = true := by
  unfold State.markFailed State.runFailed
  by_cases h : p < 64
  · have h64 : p < (TTL_RUNFAIL_LO_FAILED (ttlDiePg d)).w := h
    simp only [h, if_true, State.rd_wr_same]
    rw [bit_mod_two_pow h64, bit_setBit_same]
  · have h4 : p - 64 < (TTL_RUNFAIL_HI_FAILED (ttlDiePg d)).w := by
      show p - 64 < 4
      omega
    simp only [h, if_false, State.rd_wr_same]
    rw [bit_mod_two_pow h4, bit_setBit_same]

theorem State.showSpares_markFailed_frame (s : State) (d p : Nat) : Within [.regs] s ((s.markFailed d p).showSpares d) :=
  State.showSpares_within (by decide) _ (State.markFailed_within (by decide) _ _ (.refl _ s))

/-- Logical tile `k` has lost physical tile `p` and waits for a spare (R220). -/
def State.unmapped (s : State) (d k p : Nat) : State :=
  let pg := tilePg d k
  let s := s.setTile fun x => { x with
    oldPhys := tset x.oldPhys (tileKey d k) (p + 1)
    scrubs := x.scrubs.filter fun y => !(y.die == d && y.tile == k) }
  ((s.wr (TTL_MAP_PHYS pg (k % 8)) 0xFF).setAbsent d k true).wr (TTL_STAT_SWAP_PENDING pg)
    (setBit (s.rd (TTL_STAT_SWAP_PENDING pg)) (k % 8) true)

/-- The loss of a tile is reported, with the spares left and a die that has lost too many (R220, R221). -/
def State.lossShown (s : State) (d k p : Nat) : State :=
  let s := (s.detect .dz8 (tilePg d k) 0 p none).showSpares d
  if 8 ≤ s.rd (TTL_DIE_STAT_ABSENT (ttlDiePg d)) then s.detect .dz8 (ttlDiePg d) 2 0 none else s

/-- Whatever ran on it, a tile in use that fails is unmapped and its loss is shown. -/
theorem tileFail_inUse (h : s.runFailed d p = false) (hl : s.logicalOf d p = some k) :
    ∃ u : State, exec (.tileFail d p n) s = .next ((u.unmapped d k p).lossShown d k p) := by
  suffices hu : ∃ u : State, s.tileFail d p n = (u.unmapped d k p).lossShown d k p from hu.imp fun _ => congrArg Host.Outcome.next
  rw [State.tileFail, if_neg (by simp [h]), hl]
  exact ⟨_, rfl⟩

theorem State.lossShown_tile (s : State) (d k p : Nat) : (s.lossShown d k p).tile = s.tile := by
  unfold State.lossShown
  extract_lets t
  have w : Within [.regs, .flt, .agFlt] s t :=
    State.showSpares_within (by decide) _ (State.detect_within (by decide) (by decide) _ _ _ _ _ (.refl _ s))
  split
  · exact (State.detect_within (by decide) (by decide) _ _ _ _ _ w).tile_eq (by decide)
  · exact w.tile_eq (by decide)

theorem State.rd_lossShown (s : State) {d k : Nat} (p : Nat) {g : Fld} (hg : g.OnGroup d k) (hk : k < 64) :
    (s.lossShown d k p).rd g = s.rd g := by
  unfold State.lossShown
  extract_lets t
  have ht : t.rd g = s.rd g := (State.rd_showSpares _ hg hk).trans (State.rd_detect ..)
  split
  · rw [State.rd_detect, ht]
  · exact ht

/-- An unmapped tile names no physical tile, is absent, keeps the failed tile's number and waits for a spare (R220). -/
theorem State.unmapped_effect (s : State) {d k : Nat} (p : Nat) (hk : k < 64) :
    (s.unmapped d k p).physOf d k = 0xFF ∧ (s.unmapped d k p).tileAbsent d k = true ∧
      tget (s.unmapped d k p).tile.oldPhys (tileKey d k) = p + 1 ∧
      bit ((s.unmapped d k p).rd (TTL_STAT_SWAP_PENDING (tilePg d k))) (k % 8) = true := by
  have hne : (TTL_STAT_ABSENT (tilePg d k)).key ≠ (TTL_STAT_SWAP_PENDING (tilePg d k)).key := Fld.key_ne_of_lo rfl rfl
  have h8 : k % 8 < (TTL_STAT_SWAP_PENDING (tilePg d k)).w := Nat.mod_lt _ (by decide)
  have hphys : (TTL_MAP_PHYS (tilePg d k) (k % 8)).key ≠ (TTL_STAT_SWAP_PENDING (tilePg d k)).key := phys_ne_stat rfl
  unfold State.unmapped
  extract_lets pg u
  refine ⟨?_, ?_, tget_tset_same s.tile.oldPhys (tileKey d k) (p + 1), ?_⟩
  · rw [State.physOf, State.rd_wr_other _ hphys, State.rd_setAbsent_other _ (phys_onGroup d k) hk _ (phys_ne_stat rfl),
      State.rd_wr_same]
    rfl
  · rw [State.tileAbsent, State.rd_wr_other _ hne]
    exact State.setAbsent_absent _ hk true
  · rw [State.rd_wr_same, bit_mod_two_pow h8, bit_setBit_same]

theorem State.lossShown_effect (s : State) {d k : Nat} (p : Nat) (hk : k < 64) :
    (s.lossShown d k p).physOf d k = s.physOf d k ∧ (s.lossShown d k p).tileAbsent d k = s.tileAbsent d k ∧
      (s.lossShown d k p).rd (TTL_STAT_SWAP_PENDING (tilePg d k)) = s.rd (TTL_STAT_SWAP_PENDING (tilePg d k)) :=
  ⟨s.rd_lossShown p (phys_onGroup d k) hk, congrArg (bit · (k % 8)) (s.rd_lossShown p (absent_onGroup d k) hk),
    s.rd_lossShown p (swapPending_onGroup d k) hk⟩

end

/-! ### TILE_SWAP -/

section
variable {s : State} {d k p : Nat}

theorem tileSwap_nonePending (l : List Nat) (h : ∀ k < 64, bit (s.rd (TTL_STAT_SWAP_PENDING (tilePg d k))) (k % 8) = false) :
    exec (.tileSwap d l) s = .next s := by
  have hdue : (List.range 64).filter (fun j => bit (s.rd (TTL_STAT_SWAP_PENDING (tilePg d j))) (j % 8)) = [] :=
    List.filter_eq_nil_iff.2 fun j hj => by simp [h j (List.mem_range.1 hj)]
  show execTileSwap d l s = _
  rw [execTileSwap, hdue]
  rfl

/-- Logical tile `k` is physical tile `p` from now on, present and scrubbed (R220, R234). -/
def State.mapped (s : State) (d k p : Nat) : State :=
  ((((s.wr (TTL_MAP_PHYS (tilePg d k) (k % 8)) p).setAbsent d k false).scrubTile d k).setTile fun x => { x with
    lastCtx := tset x.lastCtx (tileKey d k) 0, oldPhys := tset x.oldPhys (tileKey d k) 0 }).showSpares d

/-- A tile waits for a spare no longer. -/
def State.swapTaken (s : State) (d k : Nat) : State :=
  s.wr (TTL_STAT_SWAP_PENDING (tilePg d k)) (setBit (s.rd (TTL_STAT_SWAP_PENDING (tilePg d k))) (k % 8) false)

theorem tileSwap_takesSpare {r : List Nat}
    (hdue : (List.range 64).filter (fun j => bit (s.rd (TTL_STAT_SWAP_PENDING (tilePg d j))) (j % 8)) = [k]) (hsp : s.spareTiles d = p :: r) :
    exec (.tileSwap d []) s = .next ((s.swapTaken d k).mapped d k p) := by
  show execTileSwap d [] s = _
  rw [execTileSwap, hdue]
  show Host.Outcome.next (s.swapIn d k []) = _
  rw [State.swapIn, hsp]
  rfl

theorem State.spareTiles_lt {r : List Nat} (hsp : s.spareTiles d = p :: r) : p < 68 := by
  have hp : p ∈ s.spareTiles d := hsp ▸ List.mem_cons_self
  exact List.mem_range.1 (List.mem_filter.1 hp).1

theorem State.mapped_effect (s : State) {d k p : Nat} (hk : k < 64) (hp : p < 68) :
    (s.mapped d k p).physOf d k = p ∧ (s.mapped d k p).tileAbsent d k = false ∧ tget (s.mapped d k p).tile.lastCtx (tileKey d k) = 0 ∧
      ∀ a < 2 ^ 20, mget (s.mapped d k p).tile.tileSram (tileKey d k * 2 ^ 20 + a) = 0 := by
  unfold State.mapped
  refine ⟨?_, ?_, tget_tset_same s.tile.lastCtx (tileKey d k) 0, fun a ha => State.mget_scrubTile s d k ha⟩
  · rw [State.physOf, State.rd_showSpares _ (phys_onGroup d k) hk]
    refine (State.rd_setAbsent_other _ (phys_onGroup d k) hk _ (phys_ne_stat rfl)).trans ?_
    rw [State.rd_wr_same]
    exact Nat.mod_eq_of_lt (Nat.lt_trans hp (by decide : 68 < 2 ^ 8))
  · rw [State.tileAbsent, State.rd_showSpares _ (absent_onGroup d k) hk]
    exact State.setAbsent_absent _ hk false

end

/-! ### BANK_PROMOTE -/

theorem bankPromote_counts (s : State) (d : Nat) : exec (.bankPromote d) s =
    .next ((s.bump (PGH_CONFLICT_WAITS (pghPg d)) 64).bump (PGH_CONFLICT_PROMOTED (pghPg d)) 1) := rfl

/-- Settles O26: each case is the effect of its command, within the parts of its row (`exec_reach`). -/
theorem tileFailures : Obligations.TileFailures := by
  unfold Obligations.TileFailures
  refine ⟨?_, ?_, ?_, ?_, ?_, ?_⟩
  · intro s d p n h
    exact (exec_reach _ s).next (tileFail_again h) rfl
  · intro s d p n _ hp h hl
    have w := s.showSpares_markFailed_frame d p
    exact (exec_reach _ s).next (tileFail_unused h hl)
      ⟨(State.showSpares_runFailed ..).trans (s.markFailed_runFailed d hp), w.tile_eq (by decide), w.flt_eq (by decide)⟩
  · intro s d p n k _ _ h hl
    have hk := State.logicalOf_lt hl
    obtain ⟨u, hu⟩ := tileFail_inUse (n := n) h hl
    obtain ⟨hphys, habsent, hold, hpending⟩ := u.unmapped_effect (d := d) p hk
    obtain ⟨hphys', habsent', hpending'⟩ := (u.unmapped d k p).lossShown_effect (d := d) p hk
    refine (exec_reach _ s).next hu ⟨hphys'.trans hphys, habsent'.trans habsent, ?_, ?_⟩
    · rw [State.lossShown_tile, hold]
    · rw [hpending', hpending]
  · intro s d l h
    exact (exec_reach _ s).next (tileSwap_nonePending l h) rfl
  · intro s d k p r _ hdue hsp
    have hk : k ∈ [k] := List.mem_singleton_self k
    rw [← hdue] at hk
    exact (exec_reach _ s).next (tileSwap_takesSpare hdue hsp)
      (State.mapped_effect _ (List.mem_range.1 (List.mem_filter.1 hk).1) (State.spareTiles_lt hsp))
  · intro s d
    have hne : (PGH_CONFLICT_WAITS (pghPg d)).key ≠ (PGH_CONFLICT_PROMOTED (pghPg d)).key := Fld.key_ne_of_lo rfl rfl
    refine (exec_reach _ s).next (bankPromote_counts s d) ⟨((RegsBut.refl _ s).bump (by simp) 64).bump (by simp) 1, ?_, ?_⟩
    · rw [State.rd_bump_other _ hne, State.rd_bump_same]
      rfl
    · rw [State.rd_bump_same, State.rd_bump_other _ hne.symm]
      rfl

end Sys2Proof.Machine
end

section
/-! The sync window, uncorrectable reads, the sealed shelf, retention, allocations and the host window of the Pigeonholes, one lemma per
case of a command, and O27 (R225 to R233, R238). SYNC_RESULT is log entry 79, what a wipe takes with it log entry 78. -/

namespace Sys2Proof.Machine

theorem State.detect_tile (s : State) (d : Site) (pg det detail : Nat) (ctx : Option Nat) : (s.detect d pg det detail ctx).tile = s.tile :=
  (s.detect_frame d pg det detail ctx).tile_eq (by decide)

/-! ### Words of the sync window -/

section
variable {s : State} {d w v : Nat}

/-- What a word reads as rests on the values and on the bad words alone. -/
theorem State.syncGet_of_tile {t : State} (h : t.tile.sync = s.tile.sync) (hb : t.tile.syncBad = s.tile.syncBad) (d w : Nat) :
    t.syncGet d w = s.syncGet d w := by
  rw [State.syncGet, State.syncGet, h, hb]

theorem State.syncGet_written (hw : syncReserved d w = false) (v : Nat) : (s.syncPut d w v).syncGet d w = v % 2 ^ 64 := by
  simp [State.syncGet, State.syncPut, hw]

theorem State.syncGet_unwritten {x : Nat} (h : x ≠ w) (v : Nat) : (s.syncPut d w v).syncGet d x = s.syncGet d x := by
  unfold State.syncPut
  split
  · rfl
  · simp [State.syncGet, tget_tset_other, h]

theorem State.syncPut_regs : (s.syncPut d w v).regs = s.regs :=
  (State.syncPut_within (A := [.tile]) (by decide) d w v (.refl _ s)).regs_eq (by decide)

/-- A word that failed its check reads 0 until it is written (R225, R228). -/
theorem State.syncGet_bad (h : d * 2 ^ 18 + w ∈ s.tile.syncBad) : s.syncGet d w = 0 := by
  have hc : s.tile.syncBad.contains (d * 2 ^ 18 + w) = true := List.contains_iff_mem.2 h
  rw [State.syncGet, hc, Bool.or_true, if_pos rfl]

end

/-! ### One access -/

section
variable {s : State} {d v : Nat} {a : SyncAccess}

theorem State.syncOne_lands (hw : s.awake d = true) (ha : a.offset % 8 = 0) : s.syncOne d (some a) = s.syncDo d a := by
  have h : s.syncRefuse d a = none := by simp [State.syncRefuse, hw, ha]
  rw [State.syncOne, h]

theorem State.syncOne_misaligned (hw : s.awake d = true) (ha : a.offset % 8 ≠ 0) :
    s.syncOne d (some a) = (none, (s.bump (PGH_SYNC_MISALIGN (pghPg d)) 1).detect .dz8 (pghPg d) 2 a.offset none) := by
  simp [State.syncOne, State.syncRefuse, hw, ha]

theorem State.syncDo_read (ho : a.op = .read) : s.syncDo d a = (some (s.syncGet d (a.offset / 8)), s) := by
  simp [State.syncDo, State.resulting, ho]

theorem State.syncDo_puts (hr : s.resulting d a = some v) : s.syncDo d a = (some v, s.syncPut d (a.offset / 8) v) := by
  rw [State.syncDo, hr]

theorem State.resulting_write (ho : a.op = .write) : s.resulting d a = some (a.value % 2 ^ 64) := by rw [State.resulting, ho]

theorem State.resulting_add (ho : a.op = .add) : s.resulting d a = some ((s.syncGet d (a.offset / 8) + a.value) % 2 ^ 64) := by
  rw [State.resulting, ho]

end

/-! ### SYNC_WINDOW_ACCESS and SYNC_COLLIDE_REPEAT -/

/-- SYNC_RESULT shows what each port got (R230). -/
def State.syncShown (s : State) (l : List (Option Nat)) : State := s.setTile fun t => { t with syncResult := l }

section
variable {s : State} {d v : Nat} {a : SyncAccess} {l : List (Option Nat)}

theorem State.syncShown_sync : (s.syncShown l).tile.sync = s.tile.sync := rfl
theorem State.rd_syncShown (f : Fld) : (s.syncShown l).rd f = s.rd f := rfl

/-- An access of one port alone meets no other. -/
theorem syncWindowAccess_alone : exec (.syncWindowAccess d (some a) none) s =
    .next ((s.syncOne d (some a)).2.syncShown [(s.syncOne d (some a)).1, none]) := rfl

theorem syncWindowAccess_reads (ha : a.offset % 8 = 0) (hw : s.awake d = true) (ho : a.op = .read) :
    exec (.syncWindowAccess d (some a) none) s = .next (s.syncShown [some (s.syncGet d (a.offset / 8)), none]) := by
  rw [syncWindowAccess_alone, State.syncOne_lands hw ha, State.syncDo_read ho]

theorem syncWindowAccess_puts (ha : a.offset % 8 = 0) (hw : s.awake d = true) (hr : s.resulting d a = some v) :
    exec (.syncWindowAccess d (some a) none) s = .next ((s.syncPut d (a.offset / 8) v).syncShown [some v, none]) := by
  rw [syncWindowAccess_alone, State.syncOne_lands hw ha, State.syncDo_puts hr]

theorem syncWindowAccess_misaligned (hw : s.awake d = true) (ha : a.offset % 8 ≠ 0) :
    exec (.syncWindowAccess d (some a) none) s =
      .next (((s.bump (PGH_SYNC_MISALIGN (pghPg d)) 1).detect .dz8 (pghPg d) 2 a.offset none).syncShown [none, none]) := by
  rw [syncWindowAccess_alone, State.syncOne_misaligned hw ha]

/-- The access that a die holds back is held no longer (R230). -/
def State.uncollided (s : State) (d : Nat) : State := s.setTile fun t => { t with collided := t.collided.filter fun y => y.1 != d }

theorem syncCollideRepeat_puts (hc : s.tile.collided.find? (fun x => x.1 == d) = some (d, a)) (ha : a.offset % 8 = 0) (hw : s.awake d = true)
    (hr : s.resulting d a = some v) :
    exec (.syncCollideRepeat d) s = .next (((s.uncollided d).syncPut d (a.offset / 8) v).syncShown [none, some v]) := by
  have hw' : (s.uncollided d).awake d = true := hw
  have hr' : (s.uncollided d).resulting d a = some v := hr
  show execSyncCollideRepeat d s = _
  rw [execSyncCollideRepeat, hc]
  show Host.Outcome.next (((s.uncollided d).syncOne d (some a)).2.syncShown [none, ((s.uncollided d).syncOne d (some a)).1]) = _
  rw [State.syncOne_lands hw' ha, State.syncDo_puts hr']

theorem syncCollideRepeat_none (hc : s.tile.collided.find? (fun x => x.1 == d) = none) : exec (.syncCollideRepeat d) s = .next s := by
  show execSyncCollideRepeat d s = _
  rw [execSyncCollideRepeat, hc]

/-- What a word that was written reads as, after the result is shown. -/
theorem State.syncGet_shown (hw : syncReserved d (a.offset / 8) = false) :
    ((s.syncPut d (a.offset / 8) v).syncShown l).syncGet d (a.offset / 8) = v % 2 ^ 64 :=
  (State.syncGet_of_tile rfl rfl ..).trans (State.syncGet_written hw v)

theorem State.syncPut_collided (w : Nat) : (s.syncPut d w v).tile.collided = s.tile.collided := by
  unfold State.syncPut
  split <;> rfl

end

/-! ### SRAM_UNCORRECTABLE -/

/-- PGH_ECC and PGH_ECCADDR of a word that failed its check (R225). -/
def State.eccShown (s : State) (d a : Nat) (sync : Bool) : State :=
  (((s.bump (PGH_ECC_UNCORR (pghPg d)) 1).wr (PGH_ECCADDR_VALID (pghPg d)) 1).wr (PGH_ECCADDR_SYNC (pghPg d)) (b2n sync)).wr
    (PGH_ECCADDR_ADDR (pghPg d)) a

section
variable (s : State) (d a : Nat)

theorem sramUncorrectable_hostWindow : exec (.sramUncorrectable d a .hostWindow) s = .next (s.eccShown d a false) := rfl

theorem sramUncorrectable_syncWord : exec (.sramUncorrectable d a .syncWord) s = .next (((s.eccShown d a true).setTile fun t => { t with
    syncBad := t.syncBad ++ [d * 2 ^ 18 + a / 8] }).detect .dz8 (pghPg d) 1 a none) := rfl

theorem State.eccShown_regsBut (b : Bool) :
    RegsBut [PGH_ECC_UNCORR (pghPg d), PGH_ECCADDR_VALID (pghPg d), PGH_ECCADDR_SYNC (pghPg d), PGH_ECCADDR_ADDR (pghPg d)] s (s.eccShown d a b) :=
  ((((RegsBut.refl _ s).bump (by simp) 1).wr (by simp) 1).wr (by simp) _).wr (by simp) a

/-- The count stands in another register than the three fields of PGH_ECCADDR. -/
theorem State.rd_eccShown (b : Bool) :
    (s.eccShown d a b).rd (PGH_ECC_UNCORR (pghPg d)) = (s.rd (PGH_ECC_UNCORR (pghPg d)) + 1) % 2 ^ 32 ∧
      (s.eccShown d a b).rd (PGH_ECCADDR_VALID (pghPg d)) = 1 ∧ (s.eccShown d a b).rd (PGH_ECCADDR_SYNC (pghPg d)) = b2n b ∧
      (s.eccShown d a b).rd (PGH_ECCADDR_ADDR (pghPg d)) = a % 2 ^ 32 := by
  have hcount (lo w : Nat) (hlo : lo < 64) : (PGH_ECC_UNCORR (pghPg d)).key ≠ Fld.key ⟨pghPg d + 0x120, lo, w, 0⟩ := by
    simp only [Fld.key, PGH_ECC_UNCORR]
    omega
  have hvs : (PGH_ECCADDR_VALID (pghPg d)).key ≠ (PGH_ECCADDR_SYNC (pghPg d)).key := Fld.key_ne_of_lo rfl rfl
  have hva : (PGH_ECCADDR_VALID (pghPg d)).key ≠ (PGH_ECCADDR_ADDR (pghPg d)).key := Fld.key_ne_of_lo rfl rfl
  have hsa : (PGH_ECCADDR_SYNC (pghPg d)).key ≠ (PGH_ECCADDR_ADDR (pghPg d)).key := Fld.key_ne_of_lo rfl rfl
  refine ⟨?_, ?_, ?_, State.rd_wr_same ..⟩
  · exact (State.rd_wr_other _ (hcount 0 32 (by decide)) _).trans ((State.rd_wr_other _ (hcount 62 1 (by decide)) _).trans
      ((State.rd_wr_other _ (hcount 63 1 (by decide)) _).trans (State.rd_bump_same ..)))
  · rw [State.eccShown, State.rd_wr_other _ hva, State.rd_wr_wr _ hvs]
    rfl
  · rw [State.eccShown, State.rd_wr_wr _ hsa]
    cases b <;> rfl

end

/-! ### The sealed shelf -/

section
variable {s : State} {d : Nat}

theorem shelfDenied_counts (s : State) (d : Nat) :
    exec (.shelfDenied d) s = .next ((s.bump (PGH_SHELF_DENIED (pghPg d)) 1).detect .dz8 (pghPg d) 4 0 none) := rfl

/-- The shelf reads 0, and no key record and no vault root stands (R231, R249, R299). -/
theorem State.shelfGone_effect (s : State) (d : Nat) : (∀ a, shelfLo ≤ a → a < shelfHi → mget (s.shelfGone d).tile.pgh (pghKey d a) = 0) ∧
    (s.shelfGone d).rot.records = [] ∧ (s.shelfGone d).hbm.roots = [] :=
  ⟨fun _ hlo hhi => mget_mzero _ (Nat.add_le_add_left hlo _) (Nat.add_lt_add_left hhi _), rfl, rfl⟩

theorem shelfWipe_begins (hw : s.awake d = true) : exec (.shelfWipe d) s = .next ((s.shelfGone d).wr (PGH_STAT_SHELF_WIPING (pghPg d)) 1) := by
  have hw' : (s.shelfGone d).awake d = true := hw
  show execShelfWipe d s = _
  simp only [execShelfWipe, State.shelfWipe, hw', if_true]

theorem shelfWipeDone_completes (h : s.rd (PGH_STAT_SHELF_WIPING (pghPg d)) = 1) : exec (.shelfWipeDone d) s = .next (s.wipeDone d) := by
  show execShelfWipeDone d s = _
  simp [execShelfWipeDone, State.on, h]

/-- WIPES stands in another register than the status fields. -/
theorem pghStat_ne_wipes (d : Nat) {f : Fld} (hf : f.addr = pghPg d + 0x108) (hl : f.lo < 64) : f.key ≠ (PGH_SHELF_WIPES (pghPg d)).key := by
  simp only [Fld.key, PGH_SHELF_WIPES]
  omega

theorem State.wipeDone_effect (s : State) (d : Nat) : (s.wipeDone d).rd (PGH_STAT_SHELF_WIPING (pghPg d)) = 0 ∧
    (s.wipeDone d).rd (PGH_STAT_SHELF_WIPED (pghPg d)) = 1 ∧
    (s.wipeDone d).rd (PGH_SHELF_WIPES (pghPg d)) = (s.rd (PGH_SHELF_WIPES (pghPg d)) + 1) % 2 ^ 32 := by
  have hwiping : (PGH_STAT_SHELF_WIPING (pghPg d)).key ≠ (PGH_SHELF_WIPES (pghPg d)).key := pghStat_ne_wipes d rfl (by decide : 4 < 64)
  have hwiped : (PGH_STAT_SHELF_WIPED (pghPg d)).key ≠ (PGH_SHELF_WIPES (pghPg d)).key := pghStat_ne_wipes d rfl (by decide : 5 < 64)
  have hne : (PGH_STAT_SHELF_WIPING (pghPg d)).key ≠ (PGH_STAT_SHELF_WIPED (pghPg d)).key := Fld.key_ne_of_lo rfl rfl
  refine ⟨(State.rd_bump_other _ hwiping 1).trans (State.rd_wr_wr _ hne 0 1), (State.rd_bump_other _ hwiped 1).trans (State.rd_wr_same ..), ?_⟩
  rw [State.wipeDone, State.rd_bump_same, State.rd_wr_other _ hwiped.symm, State.rd_wr_other _ hwiping.symm]
  rfl

end

/-! ### Retention -/

section
variable {s : State} {d : Nat}

theorem pghRetain_enters (ha : s.armedOn d = false) (hw : s.awake d = true) :
    exec (.pghRetain d) s = .next (s.wr (PGH_STAT_STATE (pghPg d)) 2) := by
  show execPghRetain d s = _
  simp [execPghRetain, State.pghRetain, ha, hw]

theorem pghRetain_rejected (ha : s.armedOn d = true) : exec (.pghRetain d) s = .next (s.wr (PGH_STAT_RET_REJ (pghPg d)) 1) := by
  show execPghRetain d s = _
  simp [execPghRetain, State.pghRetain, ha]

theorem pghWake_wakes (h : s.pghState d = 2) : exec (.pghWake d) s = .next (s.wr (PGH_STAT_STATE (pghPg d)) 3) := by
  show execPghWake d s = _
  simp [execPghWake, State.pghWake, h]

/-- A die is AWAKE again; a shelf that lost its supply in retention is wiped (R232, R233). -/
def State.woken (s : State) (d : Nat) : State :=
  let s := s.wr (PGH_STAT_STATE (pghPg d)) 0
  if s.tile.shelfCut.contains d then (s.wipeDone d).setTile fun t => { t with shelfCut := t.shelfCut.filter (· != d) } else s

theorem pghWakeDone_woken (h : s.pghState d = 3) : exec (.pghWakeDone d) s = .next (s.woken d) := by
  show execPghWakeDone d s = _
  rw [execPghWakeDone, if_pos h]
  rfl

/-- A wipe that completes leaves STATE. -/
theorem State.wipeDone_state (s : State) (d : Nat) : (s.wipeDone d).pghState d = s.pghState d := by
  have hwipes : (PGH_STAT_STATE (pghPg d)).key ≠ (PGH_SHELF_WIPES (pghPg d)).key := pghStat_ne_wipes d rfl (by decide : 0 < 64)
  have hwiped : (PGH_STAT_STATE (pghPg d)).key ≠ (PGH_STAT_SHELF_WIPED (pghPg d)).key := Fld.key_ne_of_lo rfl rfl
  have hwiping : (PGH_STAT_STATE (pghPg d)).key ≠ (PGH_STAT_SHELF_WIPING (pghPg d)).key := Fld.key_ne_of_lo rfl rfl
  rw [State.pghState, State.wipeDone, State.rd_bump_other _ hwipes, State.rd_wr_other _ hwiped, State.rd_wr_other _ hwiping]
  rfl

theorem State.woken_state (s : State) (d : Nat) : (s.woken d).pghState d = 0 := by
  unfold State.woken
  extract_lets u
  have hu : u.pghState d = 0 := State.rd_wr_same ..
  split
  · exact (u.wipeDone_state d).trans hu
  · exact hu

theorem State.woken_tile (h : s.tile.shelfCut.contains d = false) : (s.woken d).tile = s.tile := by
  unfold State.woken
  extract_lets u
  have hu : ¬u.tile.shelfCut.contains d = true := Bool.eq_false_iff.1 h
  rw [if_neg hu]
  rfl

end

/-! ### Allocations and the host window -/

theorem bits_mod (x hi lo : Nat) : bits x hi lo % 2 ^ (hi + 1 - lo) = bits x hi lo := Nat.mod_mod ..

theorem b2n_mod_two (b : Bool) : b2n b % 2 = b2n b := by cases b <;> rfl

/-- PGH_ALLOC of a context as written (R227). -/
def State.allocSet (s : State) (d c v : Nat) : State :=
  ((s.wr (PGH_ALLOC_VALID (pghPg d) c) (b2n (bit v 63))).wr (PGH_ALLOC_ROWS (pghPg d) c) (bits v 29 16)).wr
    (PGH_ALLOC_ROW_BASE (pghPg d) c) (bits v 13 0)

section
variable {s : State} {d c : Nat} {v : Word}

theorem pghAllocWrite_sets (h : s.allocBad d c (bits v.toNat 13 0) (if bit v.toNat 63 then bits v.toNat 29 16 else 0) = false) :
    exec (.pghAllocWrite d c v) s = .next (s.allocSet d c v.toNat) := by
  show execPghAllocWrite d c v s = _
  simp only [execPghAllocWrite, State.allocReg, h]
  rfl

theorem pghAllocWrite_ignored (h : s.allocBad d c (bits v.toNat 13 0) (if bit v.toNat 63 then bits v.toNat 29 16 else 0) = true) :
    exec (.pghAllocWrite d c v) s = .next (s.wr (PGH_STAT_ALLOC_ERR (pghPg d)) 1) := by
  show execPghAllocWrite d c v s = _
  simp only [execPghAllocWrite, State.allocReg, h, if_true]

theorem State.allocSet_regsBut (s : State) (d c v : Nat) :
    RegsBut [PGH_ALLOC_VALID (pghPg d) c, PGH_ALLOC_ROWS (pghPg d) c, PGH_ALLOC_ROW_BASE (pghPg d) c] s (s.allocSet d c v) :=
  (((RegsBut.refl _ s).wr (by simp) _).wr (by simp) _).wr (by simp) _

/-- The three fields of PGH_ALLOC share no place. -/
theorem State.rd_allocSet (s : State) (d c v : Nat) : (s.allocSet d c v).rd (PGH_ALLOC_VALID (pghPg d) c) = b2n (bit v 63) ∧
    (s.allocSet d c v).rd (PGH_ALLOC_ROWS (pghPg d) c) = bits v 29 16 ∧
    (s.allocSet d c v).rd (PGH_ALLOC_ROW_BASE (pghPg d) c) = bits v 13 0 := by
  have hvr : (PGH_ALLOC_VALID (pghPg d) c).key ≠ (PGH_ALLOC_ROWS (pghPg d) c).key := Fld.key_ne_of_lo rfl rfl
  have hvb : (PGH_ALLOC_VALID (pghPg d) c).key ≠ (PGH_ALLOC_ROW_BASE (pghPg d) c).key := Fld.key_ne_of_lo rfl rfl
  have hrb : (PGH_ALLOC_ROWS (pghPg d) c).key ≠ (PGH_ALLOC_ROW_BASE (pghPg d) c).key := Fld.key_ne_of_lo rfl rfl
  refine ⟨?_, ?_, (State.rd_wr_same ..).trans (bits_mod v 13 0)⟩
  · rw [State.allocSet, State.rd_wr_other _ hvb, State.rd_wr_wr _ hvr]
    exact b2n_mod_two _
  · rw [State.allocSet, State.rd_wr_wr _ hrb]
    exact bits_mod v 29 16

end

section
variable {s : State} {c n : Nat}

theorem pghWinAccess_reads (hd : (s.allocDies c (s.rd (PGH_WIN_BASE_OFFSET (pghWinPg c)) + 8 * n) 8).find? (fun d => !s.awake d) = none)
    (hs : s.scrubbing c = false) : exec (.pghWinAccess c n none) s = .next (s.emit (.value .dz8 (pghWinPg c + 0x800 + 8 * n)
      (word (leNat (s.allocRead c (s.rd (PGH_WIN_BASE_OFFSET (pghWinPg c)) + 8 * n) 8))))) := by
  show execPghWinAccess c n none s = _
  simp [execPghWinAccess, State.pghWinRead, hd, hs]

theorem pghWinAccess_writes (v : Word)
    (hd : (s.allocDies c (s.rd (PGH_WIN_BASE_OFFSET (pghWinPg c)) + 8 * n) 8).find? (fun d => !s.awake d) = none) (hs : s.scrubbing c = false)
    (he : (s.allocDies c (s.rd (PGH_WIN_BASE_OFFSET (pghWinPg c)) + 8 * n) 8).isEmpty = false) : exec (.pghWinAccess c n (some v)) s =
      .next ((s.allocWrite c (s.rd (PGH_WIN_BASE_OFFSET (pghWinPg c)) + 8 * n) (leBytes 8 v.toNat)).hostWrote c
        (s.rd (PGH_WIN_BASE_OFFSET (pghWinPg c)) + 8 * n) 8) := by
  show execPghWinAccess c n (some v) s = _
  simp only [execPghWinAccess, State.pghWinWrite, hd, hs, he]
  rfl

end

/-- Settles O27: each case is the effect of its command, within the parts of its row (`exec_reach`). -/
theorem syncWindow : Obligations.SyncWindow := by
  unfold Obligations.SyncWindow
  refine ⟨?_, ?_, ?_, ?_, ?_, ?_, ?_, ?_, ?_, ?_, ?_, ?_, ?_, ?_, ?_, ?_, ?_, ?_, ?_⟩
  · intro s d a ha hw ho
    exact (exec_reach _ s).next (syncWindowAccess_reads ha hw ho) ⟨rfl, rfl, rfl⟩
  · intro s d a ha hw ho hres
    refine (exec_reach _ s).next (syncWindowAccess_puts ha hw (State.resulting_write ho)) ⟨?_, State.syncPut_regs, fun w hne _ => ?_⟩
    · exact (State.syncGet_shown hres).trans (Nat.mod_mod ..)
    · exact (State.syncGet_of_tile rfl rfl ..).trans (State.syncGet_unwritten hne _)
  · intro s d a ha hw ho hres
    exact (exec_reach _ s).next (syncWindowAccess_puts ha hw (State.resulting_add ho))
      ⟨(State.syncGet_shown hres).trans (Nat.mod_mod ..), State.syncPut_regs⟩
  · intro s d a hw ha
    refine (exec_reach _ s).next (syncWindowAccess_misaligned hw ha) ⟨rfl, ?_, ?_⟩
    · rw [State.syncShown_sync, State.detect_tile]
      rfl
    · rw [State.rd_syncShown, State.rd_detect, State.rd_bump_same]
      rfl
  · intro s d a hc ha hw ho hres
    exact (exec_reach _ s).next (syncCollideRepeat_puts hc ha hw (State.resulting_write ho))
      ⟨(State.syncGet_shown hres).trans (Nat.mod_mod ..), State.syncPut_collided _, State.syncPut_regs⟩
  · intro s d hc
    exact (exec_reach _ s).next (syncCollideRepeat_none hc) rfl
  · intro s d a
    obtain ⟨hcount, -, hsync, haddr⟩ := s.rd_eccShown d a false
    exact (exec_reach _ s).next (sramUncorrectable_hostWindow s d a) ⟨s.eccShown_regsBut d a false, hcount, haddr, hsync⟩
  · intro s d a
    obtain ⟨-, hvalid, hsync, -⟩ := s.rd_eccShown d a true
    refine (exec_reach _ s).next (sramUncorrectable_syncWord s d a) ⟨State.syncGet_bad ?_, ?_, ?_, ?_⟩
    · rw [State.detect_tile]
      exact List.mem_append_right _ (List.mem_singleton_self _)
    · exact (State.rd_detect ..).trans hvalid
    · exact (State.rd_detect ..).trans hsync
    · rw [State.detect_tile]
      rfl
  · intro s d
    refine (exec_reach _ s).next (shelfDenied_counts s d) ⟨?_, (State.rd_detect ..).trans (State.rd_bump_same ..)⟩
    exact ((RegsBut.refl _ s).bump (by simp) 1).trans (.of_regs (State.detect_regs ..))
  · intro s d hw
    exact (exec_reach _ s).next (shelfWipe_begins hw) ⟨RegsBut.wr (.of_regs rfl) (by simp) 1, State.rd_wr_same .., s.shelfGone_effect d⟩
  · intro s d h
    exact (exec_reach _ s).next (shelfWipeDone_completes h) (s.wipeDone_effect d)
  · intro s d ha hw
    exact (exec_reach _ s).next (pghRetain_enters ha hw) ⟨(RegsBut.refl _ s).wr (by simp) 2, State.rd_wr_same ..⟩
  · intro s d ha
    exact (exec_reach _ s).next (pghRetain_rejected ha) ⟨(RegsBut.refl _ s).wr (by simp) 1, State.rd_wr_same ..⟩
  · intro s d h
    exact (exec_reach _ s).next (pghWake_wakes h) ⟨(RegsBut.refl _ s).wr (by simp) 3, State.rd_wr_same ..⟩
  · intro s d h
    exact (exec_reach _ s).next (pghWakeDone_woken h) ⟨s.woken_state d, State.woken_tile⟩
  · intro s d c v h
    exact (exec_reach _ s).next (pghAllocWrite_sets h) ⟨s.allocSet_regsBut d c v.toNat, s.rd_allocSet d c v.toNat⟩
  · intro s d c v h
    exact (exec_reach _ s).next (pghAllocWrite_ignored h) ⟨(RegsBut.refl _ s).wr (by simp) 1, State.rd_wr_same ..⟩
  · intro s c n hd hs
    exact (exec_reach _ s).next (pghWinAccess_reads hd hs) ⟨rfl, rfl⟩
  · intro s c n v hd hs he
    exact (exec_reach _ s).next (pghWinAccess_writes v hd hs he) rfl

end Sys2Proof.Machine
end

section
/-! The HBM stacks and sectors that fail their tag, one lemma per case of a command, and O28 (R239 to R241, R248, R260). That a stack of a
standby goes to SELF_REFRESH after training, and that an attempt counts only while STATE is OFF or TRAINING, is log entry 81. -/

namespace Sys2Proof.Machine

/-- Fields of registers at two offsets from one address share no place. -/
theorem Fld.key_ne_of_offset {f g : Fld} {pg i j : Nat} (hg : g.addr = pg + i) (hf : f.addr = pg + j) (h : Nat.beq i j = false)
    (hl : (Nat.blt g.lo 64 && Nat.blt f.lo 64) = true) : g.key ≠ f.key := by
  have hij : i ≠ j := Nat.ne_of_beq_eq_false h
  obtain ⟨hgl, hfl⟩ := Bool.and_eq_true_iff.1 hl
  rw [Nat.blt_eq] at hgl hfl
  rw [Fld.key, Fld.key, hg, hf]
  omega

/-! ### STACK_TRAIN_ATTEMPT -/

/-- What an attempt shows of a stack: its STATE, the attempts, its time and the failing channel (R240). -/
def State.trained (s : State) (pg n ms ch st : Nat) : State :=
  (((s.wr (HBC_STAT_ATTEMPTS pg) n).wr (HBC_TRAIN_TIME_MS pg) ms).wr (HBC_TRAIN_FAIL_CH pg) ch).wr (HBC_STAT_STATE pg) st

section
variable {s : State} {m k n f : Nat}

/-- The pages of the stacks lie below those of the vault and of the pair. -/
theorem State.hasStack_page (hs : s.hasStack m k = true) : hbcPg m k < 0x70B06000 := by
  obtain ⟨hm, hk⟩ := Bool.and_eq_true_iff.1 hs
  have hm : m < 4 := by
    refine Nat.lt_of_lt_of_le (of_decide_eq_true hm) ?_
    unfold State.mdies
    rcases s.rd LCS_PART_PART with _ | _ | _ | _ | _ <;> simp [nth]
  have hk : k < 6 := of_decide_eq_true hk
  unfold hbcPg
  omega

theorem stackTrainAttempt_trains (hn : n ≤ 400) (hs : s.hasStack m k = true) (hst : s.rd (HBC_STAT_STATE (hbcPg m k)) ≤ 1) :
    exec (.stackTrainAttempt m k true n f) s = .next (s.trained (hbcPg m k) (s.rd (HBC_STAT_ATTEMPTS (hbcPg m k)) + 1) n 0xFF
      (if s.rd PAR_STAT_ROLE = 2 then 3 else 2)) := by
  have hpg : hbcPg m k < 0x70B06000 := s.hasStack_page hs
  have hrole (x y z : Nat) : (((s.wr (HBC_STAT_ATTEMPTS (hbcPg m k)) x).wr (HBC_TRAIN_TIME_MS (hbcPg m k)) y).wr
      (HBC_TRAIN_FAIL_CH (hbcPg m k)) z).rd PAR_STAT_ROLE = s.rd PAR_STAT_ROLE := by
    rw [State.rd_wr_other, State.rd_wr_other, State.rd_wr_other] <;>
      simp only [Fld.key, PAR_STAT_ROLE, HBC_STAT_ATTEMPTS, HBC_TRAIN_TIME_MS, HBC_TRAIN_FAIL_CH] <;> omega
  show execStackTrainAttempt m k true n f s = _
  simp only [execStackTrainAttempt, hs, hst, hn, decide_true, Bool.and_self, if_true, hrole, State.trained]

theorem stackTrainAttempt_fails {b : Bool} (hb : b = false ∨ 400 < n) (hs : s.hasStack m k = true)
    (hst : s.rd (HBC_STAT_STATE (hbcPg m k)) ≤ 1) (ha : s.rd (HBC_STAT_ATTEMPTS (hbcPg m k)) = 1) :
    exec (.stackTrainAttempt m k b n f) s = .next ((s.trained (hbcPg m k) 2 n f 4).detect .dz8 (hbcPg m k) 0 f none) := by
  have hok : (b && decide (n ≤ 400)) = false := by
    rcases hb with rfl | h
    · rfl
    · rw [decide_eq_false (by omega), Bool.and_false]
  show execStackTrainAttempt m k b n f s = _
  simp [execStackTrainAttempt, hs, hst, ha, hok, State.trained]

end

section
variable (s : State) (pg n ms ch st : Nat)

theorem State.trained_regsBut : RegsBut [HBC_STAT_STATE pg, HBC_STAT_ATTEMPTS pg, HBC_TRAIN_TIME_MS pg, HBC_TRAIN_FAIL_CH pg] s
    (s.trained pg n ms ch st) :=
  ((((RegsBut.refl _ s).wr (by simp) n).wr (by simp) ms).wr (by simp) ch).wr (by simp) st

theorem State.rd_trained : (s.trained pg n ms ch st).rd (HBC_STAT_STATE pg) = st % 8 ∧
    (s.trained pg n ms ch st).rd (HBC_TRAIN_FAIL_CH pg) = ch % 256 ∧ (s.trained pg n ms ch st).rd (HBC_STAT_ATTEMPTS pg) = n % 16 := by
  have hcs : (HBC_TRAIN_FAIL_CH pg).key ≠ (HBC_STAT_STATE pg).key := Fld.key_ne_of_offset rfl rfl rfl rfl
  have has : (HBC_STAT_ATTEMPTS pg).key ≠ (HBC_STAT_STATE pg).key := Fld.key_ne_of_lo rfl rfl
  have hac : (HBC_STAT_ATTEMPTS pg).key ≠ (HBC_TRAIN_FAIL_CH pg).key := Fld.key_ne_of_offset rfl rfl rfl rfl
  have hat : (HBC_STAT_ATTEMPTS pg).key ≠ (HBC_TRAIN_TIME_MS pg).key := Fld.key_ne_of_offset rfl rfl rfl rfl
  refine ⟨State.rd_wr_same .., State.rd_wr_wr _ hcs ch st, ?_⟩
  rw [State.trained, State.rd_wr_other _ has, State.rd_wr_other _ hac, State.rd_wr_wr _ hat]
  rfl

end

/-! ### STACK_ERROR_POLL -/

section
variable {s : State} {r : StackReport}

theorem stackErrorPoll_counts (hs : s.hasStack r.mdie r.stack = true) : exec (.stackErrorPoll [r]) s =
    .next ((s.bump (HBC_ECC_CORR (hbcPg r.mdie r.stack)) r.corr).bump (HBC_ECC_UNCORR (hbcPg r.mdie r.stack)) r.uncorr) := by
  show execStackErrorPoll [r] s = _
  rw [execStackErrorPoll, List.foldl_cons, List.foldl_nil, if_pos hs]

end

/-! ### SELF_REFRESH_ENTRY -/

/-- A working stack takes a STATE (R241). -/
def State.stackTo (s : State) (st : Nat) (x : Nat × Nat) : State :=
  if s.rd (HBC_STAT_STATE (hbcPg x.1 x.2)) = 2 ∨ s.rd (HBC_STAT_STATE (hbcPg x.1 x.2)) = 3 then s.wr (HBC_STAT_STATE (hbcPg x.1 x.2)) st else s

theorem State.stacksTo_eq (s : State) (st : Nat) : s.stacksTo st = s.stacks'.foldl (fun u x => u.stackTo st x) s := rfl

section
variable {s : State} {x : Nat × Nat}

/-- A stack keeps its STATE unless it works: then it may enter SELF_REFRESH. -/
theorem State.stackTo_state (s : State) (x y : Nat × Nat) :
    (s.stackTo 3 y).rd (HBC_STAT_STATE (hbcPg x.1 x.2)) = s.rd (HBC_STAT_STATE (hbcPg x.1 x.2)) ∨
      (s.rd (HBC_STAT_STATE (hbcPg x.1 x.2)) = 2 ∨ s.rd (HBC_STAT_STATE (hbcPg x.1 x.2)) = 3) ∧
        (s.stackTo 3 y).rd (HBC_STAT_STATE (hbcPg x.1 x.2)) = 3 := by
  unfold State.stackTo
  split
  · by_cases h : (HBC_STAT_STATE (hbcPg x.1 x.2)).key = (HBC_STAT_STATE (hbcPg y.1 y.2)).key
    · have hp : hbcPg x.1 x.2 = hbcPg y.1 y.2 := by
        simp only [Fld.key, HBC_STAT_STATE] at h
        omega
      rw [hp]
      exact .inr ⟨‹_›, State.rd_wr_same ..⟩
    · exact .inl (State.rd_wr_other s h 3)
  · exact .inl rfl

theorem State.stackTo_same (h : s.rd (HBC_STAT_STATE (hbcPg x.1 x.2)) = 2 ∨ s.rd (HBC_STAT_STATE (hbcPg x.1 x.2)) = 3) :
    (s.stackTo 3 x).rd (HBC_STAT_STATE (hbcPg x.1 x.2)) = 3 := by
  rw [State.stackTo, if_pos h]
  exact State.rd_wr_same ..

theorem State.stacksTo_active (hx : x ∈ s.stacks') (h : s.rd (HBC_STAT_STATE (hbcPg x.1 x.2)) = 2) :
    (s.stacksTo 3).rd (HBC_STAT_STATE (hbcPg x.1 x.2)) = 3 := by
  rw [State.stacksTo_eq]
  refine foldl_brings (I := fun u : State => u.rd (HBC_STAT_STATE (hbcPg x.1 x.2)) = 2 ∨ u.rd (HBC_STAT_STATE (hbcPg x.1 x.2)) = 3)
    (P := fun u : State => u.rd (HBC_STAT_STATE (hbcPg x.1 x.2)) = 3) (fun u y hu => ?_) (fun u y hu => ?_)
    (fun u hu => State.stackTo_same hu) hx (.inl h)
  · rcases u.stackTo_state x y with hk | ⟨-, h3⟩
    · exact hu.imp (hk.trans ·) (hk.trans ·)
    · exact .inr h3
  · rcases u.stackTo_state x y with hk | ⟨-, h3⟩
    · exact hk.trans hu
    · exact h3

theorem State.stacksTo_failed (h : s.rd (HBC_STAT_STATE (hbcPg x.1 x.2)) = 4) : (s.stacksTo 3).rd (HBC_STAT_STATE (hbcPg x.1 x.2)) = 4 := by
  rw [State.stacksTo_eq]
  refine List.foldlRecOn (motive := fun u : State => u.rd (HBC_STAT_STATE (hbcPg x.1 x.2)) = 4) s.stacks' _ h fun u hu y _ => ?_
  rcases u.stackTo_state x y with hk | ⟨hw, -⟩
  · exact hk.trans hu
  · omega

theorem selfRefreshEntry_standby (hr : s.rd PAR_STAT_ROLE = 2) (hm : s.mdies ≠ 0) : exec .selfRefreshEntry s = .next (s.stacksTo 3) := by
  show execSelfRefreshEntry s = _
  rw [execSelfRefreshEntry, if_pos hr, if_neg hm]

theorem selfRefreshEntry_other (hr : s.rd PAR_STAT_ROLE ≠ 2) : exec .selfRefreshEntry s = .next s := by
  show execSelfRefreshEntry s = _
  rw [execSelfRefreshEntry, if_neg hr]

end

/-! ### SECTOR_TAG_FAIL -/

section
variable (s : State) (m n c : Nat)

theorem sectorTagFail_retryOk (r : TagReader) : exec (.sectorTagFail m n true r) s =
    .next ((s.bump (HBC_TAG_RETRY_OK (stackPg m n)) 1).detect .dz8 (stackPg m n) 1 n none) := by
  show execSectorTagFail m n true r s = _
  rw [execSectorTagFail, if_pos rfl]

theorem sectorTagFail_reads (r : TagReader) : exec (.sectorTagFail m n false r) s = .next ((s.sectorFails m n).tagReader m n r) := by
  show execSectorTagFail m n false r s = _
  rw [execSectorTagFail, if_neg Bool.false_ne_true, State.tagFail]

/-- A context's tile map that fails its tag is read no more (R251). -/
def State.mapFails (s : State) (c : Nat) : State :=
  s.setHbm fun h => { h with mapBad := if h.mapBad.contains c then h.mapBad else h.mapBad ++ [c] }

theorem State.tagReader_poste : s.tagReader m n .poste = s := by rw [State.tagReader]

theorem State.tagReader_window : s.tagReader m n (.window c) = s.bump (VLT_INTEG_TAGFAIL (vltPg c)) 1 := by rw [State.tagReader]

theorem State.tagReader_tileMap : s.tagReader m n (.tileMap c) =
    ((s.bump (VLT_INTEG_TAGFAIL (vltPg c)) 1).mapFails c).detect .dz8 (stackPg m n) 3 n (some c) := by
  rw [State.tagReader, State.mapFails]

theorem State.detect_hbm (d : Site) (pg det detail : Nat) (ctx : Option Nat) : (s.detect d pg det detail ctx).hbm = s.hbm :=
  (s.detect_frame d pg det detail ctx).hbm_eq (by decide)

theorem State.sectorFails_hbm : (s.sectorFails m n).hbm = s.hbm := State.detect_hbm ..

theorem State.sectorFails_regsBut :
    RegsBut [HBC_TAG_FAIL (stackPg m n), HBC_TAGADDR_VALID (stackPg m n), HBC_TAGADDR_SECTOR (stackPg m n)] s (s.sectorFails m n) :=
  ((((RegsBut.refl _ s).bump (by simp) 1).wr (by simp) 1).wr (by simp) n).trans (.of_regs (State.detect_regs ..))

theorem State.rd_sectorFails : (s.sectorFails m n).rd (HBC_TAG_FAIL (stackPg m n)) = (s.rd (HBC_TAG_FAIL (stackPg m n)) + 1) % 2 ^ 32 ∧
    (s.sectorFails m n).rd (HBC_TAGADDR_VALID (stackPg m n)) = 1 ∧ (s.sectorFails m n).rd (HBC_TAGADDR_SECTOR (stackPg m n)) = n % 2 ^ 40 := by
  generalize hpg : stackPg m n = pg
  have hfv : (HBC_TAG_FAIL pg).key ≠ (HBC_TAGADDR_VALID pg).key := Fld.key_ne_of_offset rfl rfl rfl rfl
  have hfs : (HBC_TAG_FAIL pg).key ≠ (HBC_TAGADDR_SECTOR pg).key := Fld.key_ne_of_offset rfl rfl rfl rfl
  have hvs : (HBC_TAGADDR_VALID pg).key ≠ (HBC_TAGADDR_SECTOR pg).key := Fld.key_ne_of_lo rfl rfl
  simp only [State.sectorFails, State.rd_detect, hpg]
  refine ⟨?_, State.rd_wr_wr _ hvs 1 n, State.rd_wr_same ..⟩
  rw [State.rd_wr_other _ hfs, State.rd_wr_other _ hfv]
  exact State.rd_bump_same ..

/-- TAG_FAIL of a stack and TAGFAIL of a context lie at other offsets of their pages. -/
theorem tagFail_ne_integTagfail : (HBC_TAG_FAIL (stackPg m n)).key ≠ (VLT_INTEG_TAGFAIL (vltPg c)).key := by
  simp only [Fld.key, HBC_TAG_FAIL, VLT_INTEG_TAGFAIL, stackPg, hbcPg, vltPg]
  omega

/-- A failed sector does not count at the vault of a context. -/
theorem State.sectorFails_tagfail : (s.sectorFails m n).rd (VLT_INTEG_TAGFAIL (vltPg c)) = s.rd (VLT_INTEG_TAGFAIL (vltPg c)) := by
  refine s.sectorFails_regsBut m n _ fun f hf => ?_
  simp only [List.mem_cons, List.not_mem_nil, or_false] at hf
  rcases hf with rfl | rfl | rfl <;>
    simp only [Fld.key, HBC_TAG_FAIL, HBC_TAGADDR_VALID, HBC_TAGADDR_SECTOR, VLT_INTEG_TAGFAIL, stackPg, hbcPg, vltPg] <;> omega

theorem State.mapFails_hbmMem : (s.mapFails c).hbm.mem = s.hbm.mem := rfl

theorem State.mapFails_mapBad : c ∈ (s.mapFails c).hbm.mapBad := by
  show c ∈ if s.hbm.mapBad.contains c then s.hbm.mapBad else s.hbm.mapBad ++ [c]
  split
  · exact List.contains_iff_mem.1 ‹_›
  · exact List.mem_append_right _ (List.mem_singleton_self c)

end

/-- Settles O28: each case is the effect of its command, within the parts of its row (`exec_reach`). That a stack of a standby goes
to SELF_REFRESH after training, and that an attempt counts only while STATE is OFF or TRAINING, is log entry 81. -/
theorem hbmStacks : Obligations.HbmStacks := by
  unfold Obligations.HbmStacks
  refine ⟨?_, ?_, ?_, ?_, ?_, ?_, ?_, ?_, ?_⟩
  · intro s m k n f hn hs hst
    obtain ⟨hstate, hch, hatt⟩ := s.rd_trained (hbcPg m k) (s.rd (HBC_STAT_ATTEMPTS (hbcPg m k)) + 1) n 0xFF
      (if s.rd PAR_STAT_ROLE = 2 then 3 else 2)
    refine (exec_reach _ s).next (stackTrainAttempt_trains hn hs hst) ⟨hstate.trans ?_, hch, hatt, s.trained_regsBut _ _ _ _ _⟩
    split <;> rfl
  · intro s m k n f b hb hs hst ha
    obtain ⟨hstate, hch, hatt⟩ := s.rd_trained (hbcPg m k) 2 n f 4
    exact (exec_reach _ s).next (stackTrainAttempt_fails hb hs hst ha)
      ⟨(State.rd_detect ..).trans hstate, (State.rd_detect ..).trans hch, (State.rd_detect ..).trans hatt⟩
  · intro s r hs
    have hne : (HBC_ECC_UNCORR (hbcPg r.mdie r.stack)).key ≠ (HBC_ECC_CORR (hbcPg r.mdie r.stack)).key := Fld.key_ne_of_lo rfl rfl
    refine (exec_reach _ s).next (stackErrorPoll_counts hs) ⟨((RegsBut.refl _ s).bump (by simp) _).bump (by simp) _, ?_, ?_⟩
    · exact (State.rd_bump_other _ hne.symm _).trans (State.rd_bump_same ..)
    · rw [State.rd_bump_same, State.rd_bump_other _ hne]
      rfl
  · intro s hr hm
    exact (exec_reach _ s).next (selfRefreshEntry_standby hr hm) ⟨fun _ hx => State.stacksTo_active hx, fun _ _ => State.stacksTo_failed⟩
  · intro s hr
    exact (exec_reach _ s).next (selfRefreshEntry_other hr) rfl
  · intro s m n r
    exact (exec_reach _ s).next (sectorTagFail_retryOk s m n r) ⟨((RegsBut.refl _ s).bump (by simp) 1).trans (.of_regs (State.detect_regs ..)),
      (State.rd_detect ..).trans (State.rd_bump_same ..)⟩
  · intro s m n
    refine (exec_reach _ s).next (sectorTagFail_reads s m n .poste) ?_
    rw [State.tagReader_poste]
    exact ⟨s.sectorFails_regsBut m n, s.rd_sectorFails m n⟩
  · intro s m n c _ _
    refine (exec_reach _ s).next (sectorTagFail_reads s m n (.window c)) ?_
    rw [State.tagReader_window]
    refine ⟨?_, (State.rd_bump_other _ (tagFail_ne_integTagfail m n c) 1).trans (s.rd_sectorFails m n).1⟩
    rw [State.rd_bump_same, s.sectorFails_tagfail m n c]
    rfl
  · intro s m n c
    refine (exec_reach _ s).next (sectorTagFail_reads s m n (.tileMap c)) ?_
    rw [State.tagReader_tileMap, State.detect_hbm]
    refine ⟨State.mapFails_mapBad .., ?_⟩
    rw [State.mapFails_hbmMem, State.bump, State.wr_hbm, State.sectorFails_hbm]

end Sys2Proof.Machine
end

section
/-! Regions, fills, the optimizer layout and sets, and the HBM window, one lemma per case of a command, and O29 (R244, R245, R248, R250 to
R253, R263). That memory is held in clear and a sector passes its tag when it was written or filled under the keys that read it is log entry
148. -/

namespace Sys2Proof.Machine

/-! ### VLT_REG_WRITE -/

theorem State.rd_showVault (s : State) (c : Nat) {g : Fld} (hd : g.key ≠ (VLT_VAULT_DATA_BYTES (vltPg c)).key)
    (hl : g.key ≠ (VLT_VAULT_LEVELS (vltPg c)).key) : (s.showVault c).rd g = s.rd g :=
  (State.rd_wr_other _ hl _).trans (State.rd_wr_other s hd _)

/-- The three fields of the register of a context's region. -/
def State.regionFields (s : State) (c k v : Nat) : State :=
  ((s.wr (VLT_REG_VALID (vltPg c) k) (b2n (bit v 63))).wr (VLT_REG_SIZE (vltPg c) k) (bits v 27 16)).wr (VLT_REG_BASE (vltPg c) k) (bits v 11 0)

/-- A region as written, which no fill has reached; region 0 is the vault, whose sizes are shown (R245, R248, R263). -/
def State.regionSet (s : State) (c k v : Nat) : State :=
  let key := s.regionKey c (k + 1)
  let u := (s.regionFields c k v).setHbm fun h => { h with fills := h.fills.filter (· != key) }
  if k = 0 then u.showVault c else u

section
variable {s : State} {c k : Nat} {v : Word}

theorem vltRegWrite_sets (hc : c < 16) (hk : k < 5) (hm : s.mdies ≠ 0)
    (hb : s.regionBad c k (bits v.toNat 11 0) (bits v.toNat 27 16) (bit v.toNat 63) = false) :
    exec (.vltRegWrite c k v) s = .next (s.regionSet c k v.toNat) := by
  show execVltRegWrite c k v s = _
  rw [execVltRegWrite, if_pos (.inl ⟨hc, hk⟩)]
  simp only [State.regionReg, hm, hb, hc, if_true, if_false, Bool.false_eq_true]
  rfl

theorem vltRegWrite_ignored (hc : c < 16) (hk : k < 5) (hm : s.mdies ≠ 0)
    (hb : s.regionBad c k (bits v.toNat 11 0) (bits v.toNat 27 16) (bit v.toNat 63) = true) :
    exec (.vltRegWrite c k v) s = .next (s.wr VLT_STAT_REG_ERR 1) := by
  show execVltRegWrite c k v s = _
  rw [execVltRegWrite, if_pos (.inl ⟨hc, hk⟩)]
  simp only [State.regionReg, hm, hb, if_true, if_false]

end

section
variable (s : State) (c k v : Nat)

theorem State.regionFields_regsBut :
    RegsBut [VLT_REG_VALID (vltPg c) k, VLT_REG_SIZE (vltPg c) k, VLT_REG_BASE (vltPg c) k] s (s.regionFields c k v) :=
  (((RegsBut.refl _ s).wr (by simp) _).wr (by simp) _).wr (by simp) _

/-- The three fields share no place. -/
theorem State.rd_regionFields : (s.regionFields c k v).rd (VLT_REG_VALID (vltPg c) k) = b2n (bit v 63) ∧
    (s.regionFields c k v).rd (VLT_REG_SIZE (vltPg c) k) = bits v 27 16 ∧
    (s.regionFields c k v).rd (VLT_REG_BASE (vltPg c) k) = bits v 11 0 := by
  have hvs : (VLT_REG_VALID (vltPg c) k).key ≠ (VLT_REG_SIZE (vltPg c) k).key := Fld.key_ne_of_lo rfl rfl
  have hvb : (VLT_REG_VALID (vltPg c) k).key ≠ (VLT_REG_BASE (vltPg c) k).key := Fld.key_ne_of_lo rfl rfl
  have hsb : (VLT_REG_SIZE (vltPg c) k).key ≠ (VLT_REG_BASE (vltPg c) k).key := Fld.key_ne_of_lo rfl rfl
  refine ⟨?_, ?_, (State.rd_wr_same ..).trans (bits_mod v 11 0)⟩
  · rw [State.regionFields, State.rd_wr_other _ hvb, State.rd_wr_wr _ hvs]
    exact b2n_mod_two _
  · rw [State.regionFields, State.rd_wr_wr _ hsb]
    exact bits_mod v 27 16

/-- The sizes of the vault stand on another register of the page than `g`. -/
theorem State.rd_regionSet {g : Fld} (hd : g.key ≠ (VLT_VAULT_DATA_BYTES (vltPg c)).key) (hl : g.key ≠ (VLT_VAULT_LEVELS (vltPg c)).key) :
    (s.regionSet c k v).rd g = (s.regionFields c k v).rd g := by
  unfold State.regionSet
  split
  · exact State.rd_showVault _ c hd hl
  · rfl

/-- The registers of the five regions lie below VLT_VAULT. -/
theorem State.rd_regionSet_reg (hk : k < 5) {g : Fld} (ha : g.addr = vltPg c + 0x108 + 8 * k) (hl : Nat.blt g.lo 64 = true) :
    (s.regionSet c k v).rd g = (s.regionFields c k v).rd g := by
  rw [Nat.blt_eq] at hl
  refine s.rd_regionSet c k v ?_ ?_ <;> simp only [Fld.key, VLT_VAULT_DATA_BYTES, VLT_VAULT_LEVELS, ha] <;> omega

theorem State.regionSet_regErr : (s.regionSet c k v).rd VLT_STAT_REG_ERR = s.rd VLT_STAT_REG_ERR := by
  refine (s.rd_regionSet c k v ?_ ?_).trans (s.regionFields_regsBut c k v _ fun f hf => ?_)
  · simp only [Fld.key, VLT_STAT_REG_ERR, VLT_VAULT_DATA_BYTES, vltPg]
    omega
  · simp only [Fld.key, VLT_STAT_REG_ERR, VLT_VAULT_LEVELS, vltPg]
    omega
  · simp only [List.mem_cons, List.not_mem_nil, or_false] at hf
    rcases hf with rfl | rfl | rfl <;> simp only [Fld.key, VLT_STAT_REG_ERR, VLT_REG_VALID, VLT_REG_SIZE, VLT_REG_BASE, vltPg] <;> omega

end

/-! ### VLT_FILL_GO and VLT_FILL_DONE -/

section
variable {s : State} {c : Nat}

theorem vltFillGo_starts (hb : s.rd (VLT_FILL_BUSY (vltPg c)) = 0) (ha : s.armed c = false) (h2 : 2 ≤ s.rd (VLT_FILL_CLASS (vltPg c)))
    (h5 : s.rd (VLT_FILL_CLASS (vltPg c)) ≤ 5) (hr : (s.region c (s.rd (VLT_FILL_CLASS (vltPg c)))).isSome = true) :
    exec (.vltFillGo c) s = .next (s.wr (VLT_FILL_BUSY (vltPg c)) 1) := by
  have hl : ¬s.rd (VLT_FILL_CLASS (vltPg c)) < 2 := Nat.not_lt.2 h2
  have hu : ¬5 < s.rd (VLT_FILL_CLASS (vltPg c)) := Nat.not_lt.2 h5
  have hn : (s.region c (s.rd (VLT_FILL_CLASS (vltPg c)))).isNone = false := by rw [← Option.not_isSome, hr, Bool.not_true]
  show execVltFillGo c s = _
  simp only [execVltFillGo, State.fillGo, State.on, hb, ha, hl, hu, hn]
  rfl

theorem vltFillGo_armed (hb : s.rd (VLT_FILL_BUSY (vltPg c)) = 0) (ha : s.armed c = true) :
    exec (.vltFillGo c) s = .next (s.wr (VLT_FILL_ERR (vltPg c)) 1) := by
  show execVltFillGo c s = _
  simp [execVltFillGo, State.fillGo, State.on, hb, ha]

/-- The fill of a class is done (R248). -/
def State.filled (s : State) (c k : Nat) : State := ((s.fillRegion c k).wr (VLT_FILL_BUSY (vltPg c)) 0).wr (VLT_FILL_DONE (vltPg c)) 1

theorem vltFillDone_fills (hf : s.rd (CTX_STAT_FILLING (ctxPg c)) = 0) (hb : s.rd (VLT_FILL_BUSY (vltPg c)) = 1) :
    exec (.vltFillDone c) s = .next (s.filled c (s.rd (VLT_FILL_CLASS (vltPg c)))) := by
  show execVltFillDone c s = _
  simp [execVltFillDone, State.on, hf, hb, State.filled]

theorem State.fillRegion_regs (s : State) (c k : Nat) : (s.fillRegion c k).regs = s.regs := by
  unfold State.fillRegion
  split <;> rfl

theorem State.filled_regsBut (s : State) (c k : Nat) : RegsBut [VLT_FILL_BUSY (vltPg c), VLT_FILL_DONE (vltPg c)] s (s.filled c k) :=
  ((RegsBut.of_regs (s.fillRegion_regs c k)).wr (by simp) 0).wr (by simp) 1

theorem State.rd_filled (s : State) (c k : Nat) : (s.filled c k).rd (VLT_FILL_BUSY (vltPg c)) = 0 ∧
    (s.filled c k).rd (VLT_FILL_DONE (vltPg c)) = 1 := by
  have hbd : (VLT_FILL_BUSY (vltPg c)).key ≠ (VLT_FILL_DONE (vltPg c)).key := Fld.key_ne_of_lo rfl rfl
  exact ⟨State.rd_wr_wr _ hbd 0 1, State.rd_wr_same ..⟩

/-- A filled region counts as written under its present keys, and every byte of it is 0 (R248). -/
theorem State.filled_hbm {k : Nat} {r : Nat × Nat} (hr : s.region c k = some r) : s.regionKey c k ∈ (s.filled c k).hbm.fills ∧
    ∀ a, r.1 * 2 ^ 26 ≤ a % 2 ^ 40 → a % 2 ^ 40 < (r.1 + r.2) * 2 ^ 26 → mget (s.filled c k).hbm.mem a = 0 := by
  rw [State.filled, State.wr_hbm, State.wr_hbm, State.fillRegion, hr]
  refine ⟨?_, fun a hlo hhi => kget_filter_gone _ (fun v => ?_) 0⟩
  · show _ ∈ if s.hbm.fills.contains (s.regionKey c k) then s.hbm.fills else s.hbm.fills ++ [s.regionKey c k]
    split
    · exact List.contains_iff_mem.1 ‹_›
    · exact List.mem_append_right _ (List.mem_singleton_self _)
  · rw [decide_eq_true hlo, decide_eq_true hhi]
    rfl

end

/-! ### VLT_OPTLAYOUT_WRITE -/

/-- The fields of a layout as written (R250). -/
def State.layoutFields (s : State) (c v : Nat) : State :=
  let u := ((s.wr (VLT_OPTLAYOUT_TILES (vltPg c)) (bits v 63 44)).wr (VLT_OPTLAYOUT_MFMT (vltPg c)) (b2n (bit v 2))).wr
    (VLT_OPTLAYOUT_MOMENTS (vltPg c)) (bits v 1 0)
  u.wr (VLT_OPTLAYOUT_SPARE_MIN (vltPg c)) (s.slotsFor c (bits v 1 0) (if bit v 2 then 2 else 4) - u.tilesMost (bits v 63 44))

theorem vltOptlayoutWrite_sets {s : State} {c : Nat} {v : Word} (hc : c < 16) (ha : s.armed c = false) (hm : bits v.toNat 1 0 ≠ 3)
    (hs : s.tilesMost (bits v.toNat 63 44) ≤ s.slotsFor c (bits v.toNat 1 0) (if bit v.toNat 2 then 2 else 4)) :
    exec (.vltOptlayoutWrite c v) s = .next ((((s.layoutFields c v.toNat).resetMap c).resetProducts c).unsplit c) := by
  have hm : (bits v.toNat 1 0 == 3) = false := beq_false_of_ne hm
  show execVltOptlayoutWrite c v s = _
  rw [execVltOptlayoutWrite, if_pos hc]
  simp only [State.optLayout, ha, hm, decide_eq_false (Nat.not_lt.2 hs)]
  rfl

theorem State.rd_wr_bits (s : State) (f : Fld) (x : Nat) {hi lo : Nat} (hw : f.w = hi + 1 - lo) :
    (s.wr f (bits x hi lo)).rd f = bits x hi lo := by
  rw [State.rd_wr_same, hw, bits_mod]

/-- P1 and P2 of a set take 1.0. -/
def State.unitProducts (s : State) (c k : Nat) : State :=
  (s.wr (VLT_OPT_PROD_P1 (vltPg c) k) 0x3F800000).wr (VLT_OPT_PROD_P2 (vltPg c) k) 0x3F800000

theorem State.rd_unitProducts (s : State) {c k : Nat} {g : Fld} (h1 : g.key ≠ (VLT_OPT_PROD_P1 (vltPg c) k).key)
    (h2 : g.key ≠ (VLT_OPT_PROD_P2 (vltPg c) k).key) : (s.unitProducts c k).rd g = s.rd g :=
  (State.rd_wr_other _ h2 _).trans (State.rd_wr_other s h1 _)

theorem State.unitProducts_products (s : State) (c k : Nat) : (s.unitProducts c k).rd (VLT_OPT_PROD_P1 (vltPg c) k) = 0x3F800000 ∧
    (s.unitProducts c k).rd (VLT_OPT_PROD_P2 (vltPg c) k) = 0x3F800000 := by
  have h12 : (VLT_OPT_PROD_P1 (vltPg c) k).key ≠ (VLT_OPT_PROD_P2 (vltPg c) k).key := Fld.key_ne_of_lo rfl rfl
  exact ⟨State.rd_wr_wr s h12 _ _, State.rd_wr_same ..⟩

section
variable (s : State) (c : Nat)

/-- TILES and MOMENTS share no place with the other fields of the layout. -/
theorem State.rd_layoutFields (v : Nat) : (s.layoutFields c v).rd (VLT_OPTLAYOUT_TILES (vltPg c)) = bits v 63 44 ∧
    (s.layoutFields c v).rd (VLT_OPTLAYOUT_MOMENTS (vltPg c)) = bits v 1 0 := by
  have hts : (VLT_OPTLAYOUT_TILES (vltPg c)).key ≠ (VLT_OPTLAYOUT_SPARE_MIN (vltPg c)).key := Fld.key_ne_of_lo rfl rfl
  have htm : (VLT_OPTLAYOUT_TILES (vltPg c)).key ≠ (VLT_OPTLAYOUT_MOMENTS (vltPg c)).key := Fld.key_ne_of_lo rfl rfl
  have htf : (VLT_OPTLAYOUT_TILES (vltPg c)).key ≠ (VLT_OPTLAYOUT_MFMT (vltPg c)).key := Fld.key_ne_of_lo rfl rfl
  have hms : (VLT_OPTLAYOUT_MOMENTS (vltPg c)).key ≠ (VLT_OPTLAYOUT_SPARE_MIN (vltPg c)).key := Fld.key_ne_of_lo rfl rfl
  unfold State.layoutFields
  constructor
  · rw [State.rd_wr_other _ hts, State.rd_wr_other _ htm, State.rd_wr_other _ htf, State.rd_wr_bits _ _ v rfl]
  · rw [State.rd_wr_other _ hms, State.rd_wr_bits _ _ v rfl]

theorem State.resetProducts_eq : s.resetProducts c = (List.range 4).foldl (fun u k => u.unitProducts c k) s := rfl

/-- A field that is no product of a set keeps its value when the products are reset. -/
theorem State.rd_resetProducts {g : Fld} (h : ∀ k, g.key ≠ (VLT_OPT_PROD_P1 (vltPg c) k).key ∧ g.key ≠ (VLT_OPT_PROD_P2 (vltPg c) k).key) :
    (s.resetProducts c).rd g = s.rd g := by
  rw [State.resetProducts_eq]
  exact foldl_keeps (State.rd · g) (fun u k => u.rd_unitProducts (h k).1 (h k).2) _ s

/-- P1 and P2 of every set are 1.0 (R253). -/
theorem State.resetProducts_products {k : Nat} (hk : k < 4) : (s.resetProducts c).rd (VLT_OPT_PROD_P1 (vltPg c) k) = 0x3F800000 ∧
    (s.resetProducts c).rd (VLT_OPT_PROD_P2 (vltPg c) k) = 0x3F800000 := by
  have hother {g : Fld} (ha : g.addr = vltPg c + 0x220 + 64 * k) (hl : g.lo < 64) (u : State) (x : Nat) (hx : x ≠ k) :
      (u.unitProducts c x).rd g = u.rd g := by
    refine u.rd_unitProducts ?_ ?_ <;> simp only [Fld.key, VLT_OPT_PROD_P1, VLT_OPT_PROD_P2, ha] <;> omega
  rw [State.resetProducts_eq]
  exact ⟨State.rd_foldl_of_mem (fun u => (u.unitProducts_products c k).1) (hother rfl (by decide : 32 < 64)) (List.mem_range.2 hk) s,
    State.rd_foldl_of_mem (fun u => (u.unitProducts_products c k).2) (hother rfl (by decide : 0 < 64)) (List.mem_range.2 hk) s⟩

/-- The products stand above the page's own registers. -/
theorem State.rd_resetProducts_layout {g : Fld} (ha : g.addr = vltPg c + 0x130) (hl : Nat.blt g.lo 64 = true) :
    (s.resetProducts c).rd g = s.rd g := by
  rw [Nat.blt_eq] at hl
  refine s.rd_resetProducts c fun k => ⟨?_, ?_⟩ <;> simp only [Fld.key, VLT_OPT_PROD_P1, VLT_OPT_PROD_P2, ha] <;> omega

theorem State.rd_unsplit (g : Fld) : (s.unsplit c).rd g = s.rd g := rfl
theorem State.unsplit_hbm : (s.unsplit c).hbm = s.hbm := rfl
theorem State.rd_resetMap (g : Fld) : (s.resetMap c).rd g = s.rd g := rfl
theorem State.resetMap_mem : (s.resetMap c).hbm.mem = s.hbm.mem := rfl
theorem State.layoutFields_hbm (v : Nat) : (s.layoutFields c v).hbm = s.hbm := rfl

theorem State.resetProducts_hbm : (s.resetProducts c).hbm = s.hbm :=
  (State.resetProducts_within (A := [.regs]) (by decide) c (.refl _ s)).hbm_eq (by decide)

end

/-! ### VLT_OPT_SET_WRITE -/

section
variable {s : State} {c k : Nat}

theorem vltOptSetWrite_rates {v : Word} (hc : c < 16) (hk : k < 4) : exec (.vltOptSetWrite c k 1 v) s =
    .next ((s.wr (VLT_OPT_LRWD_LR (vltPg c) k) (bits v.toNat 63 32)).wr (VLT_OPT_LRWD_WD (vltPg c) k) (bits v.toNat 31 0)) := by
  show execVltOptSetWrite c k 1 v s = _
  rw [execVltOptSetWrite, if_pos ⟨hc, hk⟩, State.optSet]

theorem vltOptSetWrite_products {v : Word} (hc : c < 16) (hk : k < 4) (ha : s.armed c = false) : exec (.vltOptSetWrite c k 4 v) s =
    .next ((s.wr (VLT_OPT_PROD_P1 (vltPg c) k) (bits v.toNat 63 32)).wr (VLT_OPT_PROD_P2 (vltPg c) k) (bits v.toNat 31 0)) := by
  show execVltOptSetWrite c k 4 v s = _
  rw [execVltOptSetWrite, if_pos ⟨hc, hk⟩, State.optSet, if_neg (Bool.eq_false_iff.1 ha)]

/-- LR and WD alone may be written while the timetable is armed (R252). -/
theorem State.optSet_armed (ha : s.armed c = true) {n : Nat} (hn : n ≠ 1) (v : Nat) : s.optSet c k n v = s := by
  unfold State.optSet
  split
  · exact if_pos ha
  · exact absurd rfl hn
  · exact if_pos ha
  · exact if_pos ha
  · exact if_pos ha
  · rfl

theorem vltOptSetWrite_armed {v : Word} {n : Nat} (hc : c < 16) (hk : k < 4) (ha : s.armed c = true) (hn : n ≠ 1) :
    exec (.vltOptSetWrite c k n v) s = .next s := by
  show execVltOptSetWrite c k n v s = _
  rw [execVltOptSetWrite, if_pos ⟨hc, hk⟩, State.optSet_armed ha hn]

end

/-! ### VLT_WIN_ACCESS -/

section
variable {s : State} {c n : Nat}

theorem vltWinAccess_reads {a : Nat × Nat} (ha : s.winAddr c (s.winSel c n).1 (s.winSel c n).2 = some a)
    (hg : s.sectorGood a.1 a.2 (s.regionKey c (s.winSel c n).1) = true) : exec (.vltWinAccess c n none) s =
      .next ((s.bump (HBC_RD_BYTES (stackPg a.1 (a.2 / 256))) 8).emit
        (.value .dz8 (vltPg c + 0x800 + 8 * n) (word (leNat (mread s.hbm.mem (hbmKey a.1 a.2) 8))))) := by
  show execVltWinAccess c n none s = _
  simp only [execVltWinAccess, State.vltWinRead, ha, hg, if_true]

theorem vltWinAccess_readsNone (ha : s.winAddr c (s.winSel c n).1 (s.winSel c n).2 = none) : exec (.vltWinAccess c n none) s =
    .next (s.emit (.value .dz8 (vltPg c + 0x800 + 8 * n) (word 0))) := by
  show execVltWinAccess c n none s = _
  simp only [execVltWinAccess, State.vltWinRead, ha]

theorem vltWinAccess_writesNone {v : Word} (ha : s.winAddr c (s.winSel c n).1 (s.winSel c n).2 = none) :
    exec (.vltWinAccess c n (some v)) s = .next s := by
  show execVltWinAccess c n (some v) s = _
  simp only [execVltWinAccess, State.vltWinWrite, ha]

end

/-- Settles O29: each case is the effect of its command, within the parts of its row (`exec_reach`). That memory is held in clear and
a sector passes its tag when it was written or filled under the keys that read it is log entry 148. -/
theorem vault : Obligations.Vault := by
  unfold Obligations.Vault
  refine ⟨?_, ?_, ?_, ?_, ?_, ?_, ?_, ?_, ?_, ?_, ?_, ?_⟩
  · intro s c k v hc hk hm hb
    obtain ⟨hvalid, hsize, hbase⟩ := s.rd_regionFields c k v.toNat
    exact (exec_reach _ s).next (vltRegWrite_sets hc hk hm hb) ⟨(s.rd_regionSet_reg c k v.toNat hk rfl rfl).trans hvalid,
      (s.rd_regionSet_reg c k v.toNat hk rfl rfl).trans hsize, (s.rd_regionSet_reg c k v.toNat hk rfl rfl).trans hbase,
      s.regionSet_regErr c k v.toNat⟩
  · intro s c k v hc hk hm hb
    exact (exec_reach _ s).next (vltRegWrite_ignored hc hk hm hb) ⟨(RegsBut.refl _ s).wr (by simp) 1, State.rd_wr_same .., rfl⟩
  · intro s c hb ha h2 h5 hr
    exact (exec_reach _ s).next (vltFillGo_starts hb ha h2 h5 hr) ⟨(RegsBut.refl _ s).wr (by simp) 1, State.rd_wr_same ..⟩
  · intro s c hb ha
    exact (exec_reach _ s).next (vltFillGo_armed hb ha) ⟨(RegsBut.refl _ s).wr (by simp) 1, State.rd_wr_same ..⟩
  · intro s c r hf hb hr
    obtain ⟨hbusy, hdone⟩ := s.rd_filled c (s.rd (VLT_FILL_CLASS (vltPg c)))
    exact (exec_reach _ s).next (vltFillDone_fills hf hb) ⟨s.filled_regsBut c _, hbusy, hdone, State.filled_hbm hr⟩
  · intro s c v hc ha hm hs
    obtain ⟨htiles, hmoments⟩ := s.rd_layoutFields c v.toNat
    refine (exec_reach _ s).next (vltOptlayoutWrite_sets hc ha hm hs) ⟨?_, ?_, fun k hk => ?_, ?_⟩
    · rw [State.rd_unsplit, State.rd_resetProducts_layout _ c rfl rfl, State.rd_resetMap, htiles]
    · rw [State.rd_unsplit, State.rd_resetProducts_layout _ c rfl rfl, State.rd_resetMap, hmoments]
    · rw [State.rd_unsplit, State.rd_unsplit]
      exact State.resetProducts_products _ c hk
    · rw [State.unsplit_hbm, State.resetProducts_hbm, State.resetMap_mem, State.layoutFields_hbm]
  · intro s c k v hc hk
    have hlw : (VLT_OPT_LRWD_LR (vltPg c) k).key ≠ (VLT_OPT_LRWD_WD (vltPg c) k).key := Fld.key_ne_of_lo rfl rfl
    exact (exec_reach _ s).next (vltOptSetWrite_rates hc hk) ⟨((RegsBut.refl _ s).wr (by simp) _).wr (by simp) _,
      (State.rd_wr_other _ hlw _).trans (State.rd_wr_bits s _ v.toNat rfl), State.rd_wr_bits _ _ v.toNat rfl⟩
  · intro s c k v hc hk ha
    have h12 : (VLT_OPT_PROD_P1 (vltPg c) k).key ≠ (VLT_OPT_PROD_P2 (vltPg c) k).key := Fld.key_ne_of_lo rfl rfl
    exact (exec_reach _ s).next (vltOptSetWrite_products hc hk ha) ⟨((RegsBut.refl _ s).wr (by simp) _).wr (by simp) _,
      (State.rd_wr_other _ h12 _).trans (State.rd_wr_bits s _ v.toNat rfl), State.rd_wr_bits _ _ v.toNat rfl⟩
  · intro s c k n v hc hk ha hn
    exact (exec_reach _ s).next (vltOptSetWrite_armed hc hk ha hn) rfl
  · intro s c n a ha hg
    exact (exec_reach _ s).next (vltWinAccess_reads ha hg) ⟨rfl, rfl, State.rd_bump_same ..⟩
  · intro s c n ha
    exact (exec_reach _ s).next (vltWinAccess_readsNone ha) ⟨rfl, rfl⟩
  · intro s c n v ha
    exact (exec_reach _ s).next (vltWinAccess_writesNone ha) rfl

end Sys2Proof.Machine
end

section
/-! The steps of a release, one lemma per case of a command, and O35 (R249, R274, R275, R309). -/

namespace Sys2Proof.Machine

/-! ### The release of a context -/

theorem State.ctx_of_ctxs {s t : State} (h : t.ctxs = s.ctxs) (c : Nat) : t.ctx c = s.ctx c := by rw [State.ctx, State.ctx, h]

section
variable {s : State} {c : Nat} {r : RelSt}

theorem State.relDrained_of (h : (s.ctx c).release = some r) : s.relDrained c = r.drained := by rw [State.relDrained, h]

theorem State.rd_setRel (f : RelSt → RelSt) (g : Fld) : (s.setRel c f).rd g = s.rd g := rfl

theorem State.setRel_release (hc : c < s.ctxs.length) (h : (s.ctx c).release = some r) (hd : r.drained = true) (f : RelSt → RelSt) :
    ((s.setRel c f).ctx c).release = some (f r) := by
  rw [State.setRel, State.ctx_setCtx_same _ _ _ hc]
  show (s.ctx c).release.map _ = _
  rw [h, Option.map_some, if_pos hd]

/-- Step 7 waits for steps 4 to 6 (R274). -/
theorem State.releaseStep7_waits (h : (s.ctx c).release = some r) (hn : r.scrubbed = false ∨ r.erased = false) : s.releaseStep7 c = s := by
  have hn : (r.scrubbed && r.erased && r.flipped) = false := by
    rcases hn with hn | hn <;> simp [hn]
  rw [State.releaseStep7, h]
  exact if_neg (Bool.eq_false_iff.1 hn)

end

/-! ### The timetable of a released context -/

section
variable (s : State) (c : Nat)

/-- A remote write of the unit's own is one cell that it sends (R127). -/
theorem State.remoteWrite_regsBut (fid addr : Nat) (ws : List Nat) : RegsBut ownCellRegs s (s.remoteWrite fid addr ws) := by
  unfold State.remoteWrite State.mreq State.launch
  simp only [Option.isSome_none, Bool.false_and, Bool.false_eq_true, if_false]
  refine RegsBut.trans ?_ (State.send_regsBut _ _)
  exact .of_regs rfl

theorem State.disarmMembers_regsBut : RegsBut ownCellRegs s (s.disarmMembers c) :=
  List.foldlRecOn (motive := RegsBut ownCellRegs s) (s.membersOf c) _ (.refl _ s) fun u hu _ _ => hu.trans (u.remoteWrite_regsBut _ _ _)

theorem State.disarmMembers_ttbs : (s.disarmMembers c).ttbs = s.ttbs :=
  (State.disarmMembers_within (A := [.regs, .aregs, .ports, .agPorts, .route, .flt, .agFlt, .out]) (by decide) (by decide) (by decide) (by decide)
    (by decide) (by decide) (by decide) (by decide) c (.refl _ s)).ttbs_eq (by decide)

/-- The record of an exchange of the context closes and holds no cell. -/
def Instance.shut (c : Nat) (i : Instance) : Instance := if i.ctx == c then { i with isOpen := false, cells := [] } else i

/-- All instances of a context are closed (R274 step 3). -/
def State.shutInsts (s : State) (c : Nat) : State := { s with insts := s.insts.map (Instance.shut c) }.showOpen

/-- The executor of a context with no timetable, which keeps the congestion map. -/
def TtbSt.emptied (c : Nat) (t : TtbSt) : TtbSt := { TtbSt.fresh c with cmap := t.cmap, cmapHot := t.cmapHot }

/-- The executor of a context is a fresh one, and its timetable is EMPTY (R154, R274 step 3). -/
def State.freshTtb (s : State) (c : Nat) : State :=
  let u := s.setTtb c (TtbSt.emptied c)
  (((u.wr (TTB_STAT_PAUSED (ttbPg c)) 0).wr (TTB_STAT_XDOM_HELD (ttbPg c)) 0).wr (TTB_STAT_CHECK_OK (ttbPg c)) 0).ttbTo c 0

theorem State.releaseTtb_eq : s.releaseTtb c = (((s.disarmMembers c).dropSteps c fun _ => true).shutInsts c).freshTtb c := rfl

theorem State.freshTtb_insts : (s.freshTtb c).insts = s.insts := rfl

theorem State.freshTtb_ttbs : (s.freshTtb c).ttbs = (s.setTtb c (TtbSt.emptied c)).ttbs := rfl

theorem State.shutInsts_frame : (s.shutInsts c).insts = s.insts.map (Instance.shut c) ∧ (s.shutInsts c).ttbs = s.ttbs := by
  have hw := State.showOpen_within (A := [.regs]) (by decide) (.refl [.regs] { s with insts := s.insts.map (Instance.shut c) })
  exact ⟨hw.insts_eq (by decide), hw.ttbs_eq (by decide)⟩

theorem State.shutInsts_closed (i : Instance) (hi : i ∈ (s.shutInsts c).insts) (hc : i.ctx = c) : i.isOpen = false := by
  rw [(s.shutInsts_frame c).1] at hi
  obtain ⟨j, -, rfl⟩ := List.mem_map.1 hi
  unfold Instance.shut at hc ⊢
  by_cases hj : (j.ctx == c) = true
  · rw [if_pos hj]
  · rw [if_neg hj] at hc
    exact absurd (beq_iff_eq.2 hc) hj

/-- The context has no timetable, no image and no open instances left (R274 step 3). -/
theorem State.releaseTtb_effect (hc : c < s.ttbs.length) : (s.releaseTtb c).ttbState c = 0 ∧ (s.releaseTtb c).img c = none ∧
    ∀ i ∈ (s.releaseTtb c).insts, i.ctx = c → i.isOpen = false := by
  rw [State.releaseTtb_eq]
  refine ⟨State.ttbTo_state _ c (by decide), ?_, ?_⟩
  · have hl : c < (((s.disarmMembers c).dropSteps c fun _ => true).shutInsts c).ttbs.length := by
      rwa [(State.shutInsts_frame _ c).2, State.dropSteps_length, State.disarmMembers_ttbs]
    rw [State.img, State.ttb_of_ttbs (State.freshTtb_ttbs _ c), State.ttb_setTtb_same _ _ _ hl]
    rfl
  · rw [State.freshTtb_insts]
    exact State.shutInsts_closed _ c

/-- The status fields of a timetable that its end clears. -/
def ttbEndRegs (c : Nat) : List Fld :=
  [TTB_STAT_PAUSED (ttbPg c), TTB_STAT_XDOM_HELD (ttbPg c), TTB_STAT_CHECK_OK (ttbPg c),
    TTB_STAT_STATE (ttbPg c), TTB_ENERGY_DECLARED_UJ (ttbPg c)]

theorem State.freshTtb_regsBut : RegsBut (ttbEndRegs c) s (s.freshTtb c) := by
  unfold ttbEndRegs
  exact (((((RegsBut.of_regs rfl).wr (by simp) 0).wr (by simp) 0).wr (by simp) 0).wr (by simp) 0).wr (by simp) _

theorem State.shutInsts_regsBut : RegsBut [CLX_ENG_STAT_OPEN, CLX_ENG_STAT_PEAK] s (s.shutInsts c) := by
  unfold State.shutInsts State.showOpen State.atLeast
  extract_lets n
  have h : RegsBut [CLX_ENG_STAT_OPEN, CLX_ENG_STAT_PEAK] s (State.wr { s with insts := s.insts.map (Instance.shut c) } CLX_ENG_STAT_OPEN n) :=
    .wr (.of_regs rfl) (by simp) n
  split
  · exact h.wr (by simp) n
  · exact h

/-- The end of a timetable leaves the role of the unit in its pair. -/
theorem State.releaseTtb_role (hc : c < 16) : (s.releaseTtb c).rd PAR_STAT_ROLE = s.rd PAR_STAT_ROLE := by
  have hstop (f : Fld) (hf : StopField c f) : PAR_STAT_ROLE.key ≠ f.key := by
    cases hf <;> simp only [Fld.key, PAR_STAT_ROLE, HBC_MERGE_IN_USE, HBC_MERGE_PEAK, nmuPg, CLX_ENG_STAT_OPEN, CLX_ENG_STAT_PEAK,
      TTB_STAT_STATE, TTB_ENERGY_DECLARED_UJ, ttbPg, BYJ_NOTIFY_LOST] <;> omega
  have hfresh : ∀ f ∈ ttbEndRegs c, PAR_STAT_ROLE.key ≠ f.key := by
    simp only [ttbEndRegs, List.forall_mem_cons, Fld.key, PAR_STAT_ROLE, TTB_STAT_PAUSED, TTB_STAT_XDOM_HELD, TTB_STAT_CHECK_OK, TTB_STAT_STATE,
      TTB_ENERGY_DECLARED_UJ, ttbPg]
    refine ⟨?_, ?_, ?_, ?_, ?_, by simp⟩ <;> omega
  rw [State.releaseTtb_eq, State.freshTtb_regsBut _ c _ hfresh, State.shutInsts_regsBut _ c _ (by decide), State.rd_dropSteps hstop,
    s.disarmMembers_regsBut c _ (by decide)]

theorem State.releaseTtb_frame : (s.releaseTtb c).rot = s.rot ∧ (s.releaseTtb c).ctxs = s.ctxs := by
  have hw := State.releaseTtb_within (A := [.regs, .aregs, .ports, .agPorts, .route, .ttbs, .insts, .tile, .hbm, .flt, .agFlt, .out]) (by decide)
    (by decide) (by decide) (by decide) (by decide) (by decide) (by decide) (by decide) (by decide) (by decide) (by decide) (by decide) c (.refl _ s)
  exact ⟨hw.rot_eq (by decide), hw.ctxs_eq (by decide)⟩

end

/-! ### RELEASE_DRAINED -/

section
variable {s : State} {c : Nat}

/-- Without key records, a unit that is not active has nothing to revoke and no flip to ask for. -/
theorem State.releaseFlip_idle (hr : s.recsOf c = []) (ha : s.active = false) : s.releaseFlip c = s := by
  rw [State.releaseFlip, hr, List.foldl_nil, State.requestFlip, ha]
  rfl

/-- Steps 2 and 3 of a release are done: the timetable is gone (R274). -/
def State.relEmptied (s : State) (c : Nat) (r : RelSt) : State :=
  (s.releaseTtb c).setCtx c fun x => { x with release := some { r with drained := true } }

theorem State.relEmptied_effect (hc : c < s.ctxs.length) (hb : c < s.ttbs.length) (r : RelSt) :
    ((s.relEmptied c r).ctx c).release = some { r with drained := true } ∧ (s.relEmptied c r).ttbState c = 0 ∧
      (s.relEmptied c r).img c = none ∧ ∀ i ∈ (s.relEmptied c r).insts, i.ctx = c → i.isOpen = false := by
  obtain ⟨hstate, himg, hinsts⟩ := s.releaseTtb_effect c hb
  have hc' : c < (s.releaseTtb c).ctxs.length := by rwa [(s.releaseTtb_frame c).2]
  unfold State.relEmptied
  refine ⟨?_, ?_, ?_, ?_⟩
  · rw [State.ctx_setCtx_same _ _ _ hc']
  · rw [State.ttbState, State.setCtx_rd]
    exact hstate
  · rw [State.img, State.ttb_of_ttbs (State.setCtx_ttbs ..)]
    exact himg
  · rw [State.setCtx_insts]
    exact hinsts

theorem releaseDrained_drains {r : RelSt} (hc : c < 16) (h : (s.ctx c).release = some r) (hd : r.drained = false)
    (hu : (s.ttb c).uncommitted = []) (ha : s.active = false) (hk : s.recsOf c = []) : exec (.releaseDrained c) s = .next (s.relEmptied c r) := by
  have hk' : (s.relEmptied c r).recsOf c = [] := by
    rw [State.recsOf, State.relEmptied, State.setCtx_rot, (s.releaseTtb_frame c).1]
    exact hk
  have ha' : (s.relEmptied c r).active = false := by
    rw [State.active, State.relEmptied, State.setCtx_rd, s.releaseTtb_role c hc]
    exact ha
  have hn : ¬(r.drained || !(s.ttb c).uncommitted.isEmpty) = true := by simp [hd, hu]
  show execReleaseDrained c s = _
  rw [execReleaseDrained, h]
  simp only [if_neg hn]
  show Host.Outcome.next ((s.relEmptied c r).releaseFlip c) = _
  rw [State.releaseFlip_idle hk' ha']

theorem releaseDrained_waits (hu : (s.ttb c).uncommitted ≠ []) : exec (.releaseDrained c) s = .next s := by
  have hu : (!(s.ttb c).uncommitted.isEmpty) = true := by simp [hu]
  show execReleaseDrained c s = _
  rw [execReleaseDrained]
  split
  · rfl
  · rw [hu, Bool.or_true, if_pos rfl]

end

/-! ### RELEASE_SCRUB_DONE -/

section
variable {s : State} {c n : Nat} {r : RelSt}

/-- The Pigeonholes of a context are zeroed and the release notes it (R274 step 4, R275). -/
def State.scrubDone (s : State) (c n : Nat) : State :=
  ((s.scrubPgh c).wr (CTX_SCRUB_PGH_NS (ctxPg c)) n).setRel c fun r => { r with scrubbed := true }

theorem State.scrubDone_release (hc : c < s.ctxs.length) (h : (s.ctx c).release = some r) (hd : r.drained = true) :
    ((s.scrubDone c n).ctx c).release = some { r with scrubbed := true } := by
  have hx : ((s.scrubPgh c).wr (CTX_SCRUB_PGH_NS (ctxPg c)) n).ctxs = s.ctxs := rfl
  exact State.setRel_release (by rwa [hx]) (by rwa [State.ctx_of_ctxs hx]) hd _

theorem State.scrubDone_ns (s : State) (c n : Nat) : (s.scrubDone c n).rd (CTX_SCRUB_PGH_NS (ctxPg c)) = n % 2 ^ 32 := by
  rw [State.scrubDone, State.rd_setRel, State.rd_wr_same]
  rfl

theorem releaseScrubDone_scrubs (hc : c < s.ctxs.length) (h : (s.ctx c).release = some r) (hd : r.drained = true) (he : r.erased = false) :
    exec (.releaseScrubDone c n) s = .next (s.scrubDone c n) := by
  show execReleaseScrubDone c n s = _
  rw [execReleaseScrubDone, State.relDrained_of h, if_pos hd]
  exact congrArg Host.Outcome.next (State.releaseStep7_waits (State.scrubDone_release hc h hd) (.inr he))

theorem releaseScrubDone_none (h : (s.ctx c).release = none) : exec (.releaseScrubDone c n) s = .next s := by
  show execReleaseScrubDone c n s = _
  rw [execReleaseScrubDone, State.relDrained, h]
  rfl

/-- A word of the sync window in the area of a context (R274). -/
def inSyncArea (c k : Nat) : Bool := decide (c * 2 ^ 13 ≤ k % 2 ^ 18) && decide (k % 2 ^ 18 < (c + 1) * 2 ^ 13)

theorem State.scrubDone_syncTable (s : State) (c n : Nat) : (s.scrubDone c n).tile.sync = tdrop (inSyncArea c) s.tile.sync := rfl

/-- The context's area of the sync window reads 0 on every die (R274 step 4). -/
theorem State.scrubDone_sync {w : Nat} (hc : c < 16) (hlo : c * 2 ^ 13 ≤ w) (hhi : w < (c + 1) * 2 ^ 13) (d : Nat) :
    tget (s.scrubDone c n).tile.sync (d * 2 ^ 18 + w) = 0 := by
  have hm : (d * 2 ^ 18 + w) % 2 ^ 18 = w := by omega
  rw [State.scrubDone_syncTable]
  refine kget_filter_gone s.tile.sync (fun v => ?_) 0
  show (!inSyncArea c (d * 2 ^ 18 + w)) = false
  rw [inSyncArea, hm, decide_eq_true hlo, decide_eq_true hhi]
  rfl

end

/-! ### CRYPTO_ERASE_DONE -/

section
variable {s : State} {c n : Nat} {r : RelSt}

/-- Records of a context and what they deliver are gone (R309). -/
def State.recordsGone (s : State) (c : Nat) : State :=
  s.setRot fun r => { r with
    records := r.records.filter (fun x => x.ctx != c)
    toDeliver := r.toDeliver.filter (fun x => x.1 != c)
    evidence := r.evidence.filter (fun x => x.ctx != c)
    nonces := r.nonces.filter (fun x => x.ctx != c)
    images := r.images.filter (fun x => x.ctx != c)
    delivered := tdrop (fun k => k / 4096 == c) r.delivered }

theorem State.eraseRecords_quiet (h : s.rot.delivers = []) : s.eraseRecords c = s.recordsGone c := by
  have h' : (s.recordsGone c).rot.delivers = [] := h
  show (s.recordsGone c).answerDelivers = _
  rw [State.answerDelivers, h']
  rfl

/-- What the vault and the near-memory units held of a context is gone (R249, R274 step 5). -/
def State.vaultGone (s : State) (c : Nat) : State :=
  s.setHbm fun h => { h with
    roots := if h.roots.contains c then h.roots else h.roots ++ [c]
    counters := tdrop (fun k => k / 2 ^ 32 / 16 == c) h.counters
    mapBad := if h.mapBad.contains c then h.mapBad else h.mapBad ++ [c]
    pending := h.pending.filter (fun x => x.1 != c)
    latched := h.latched.filter (fun x => x.ctx != c)
    slots := h.slots.filter (fun x => x.ctx != c)
    spilled := h.spilled.filter fun x => x.ctx != c }

/-- The optimizer sets of a context are not valid. -/
def State.setsInvalid (s : State) (c : Nat) : State := (List.range 4).foldl (fun s k => s.wr (VLT_OPT_CFG_VALID (vltPg c) k) 0) s

/-- A new generation of a vault that is not tainted (R249). -/
def State.newGen (s : State) (c : Nat) : State := (s.bump (VLT_GEN_GEN (vltPg c)) 1).wr (VLT_VAULT_TAINTED (vltPg c)) 0

theorem State.cryptoErase_quiet (h : s.rot.delivers = []) :
    s.cryptoErase c = ((((s.newGen c).recordsGone c).vaultGone c).resetProducts c).setsInvalid c := by
  have h' : (s.newGen c).rot.delivers = [] := h
  show (((((s.newGen c).eraseRecords c).vaultGone c).resetProducts c).setsInvalid c) = _
  rw [State.eraseRecords_quiet h']

/-- The registers of the optimizer sets are the only ones that go with them; they stand above the page's own registers. -/
theorem State.rd_optGone (s : State) {g : Fld} {o : Nat} (ha : g.addr = vltPg c + o) (ho : o < 0x200) (hl : Nat.blt g.lo 64 = true) :
    ((s.resetProducts c).setsInvalid c).rd g = s.rd g := by
  rw [Nat.blt_eq] at hl
  refine (foldl_keeps (State.rd · g) (fun u k => State.rd_wr_other u ?_ 0) _ _).trans (s.rd_resetProducts c fun k => ⟨?_, ?_⟩)
  all_goals
    simp only [Fld.key, VLT_OPT_CFG_VALID, VLT_OPT_PROD_P1, VLT_OPT_PROD_P2, ha]
    omega

theorem State.optGone_frame (s : State) : Within [.regs] s ((s.resetProducts c).setsInvalid c) :=
  Within.foldl (State.resetProducts_within (by decide) c (.refl _ s)) fun _ _ h => State.wr_within (by decide) _ _ h

/-- The parts that a crypto-erase leaves or clears (R249, R309). -/
theorem State.cryptoErase_effect (h : s.rot.delivers = []) :
    (s.cryptoErase c).rd (VLT_GEN_GEN (vltPg c)) = (s.rd (VLT_GEN_GEN (vltPg c)) + 1) % 2 ^ 32 ∧
      (s.cryptoErase c).rd (VLT_VAULT_TAINTED (vltPg c)) = 0 ∧ (∀ x ∈ (s.cryptoErase c).rot.records, x.ctx ≠ c) ∧
      (s.cryptoErase c).hbm.mem = s.hbm.mem ∧ (s.cryptoErase c).ctxs = s.ctxs := by
  have hgt : (VLT_GEN_GEN (vltPg c)).key ≠ (VLT_VAULT_TAINTED (vltPg c)).key := Fld.key_ne_of_offset rfl rfl rfl rfl
  have hw := State.optGone_frame (c := c) (((s.newGen c).recordsGone c).vaultGone c)
  rw [State.cryptoErase_quiet h]
  refine ⟨?_, ?_, fun x hx => ?_, ?_, hw.ctxs_eq (by decide)⟩
  · rw [State.rd_optGone _ rfl (by decide) rfl]
    exact (State.rd_wr_other _ hgt 0).trans (State.rd_bump_same ..)
  · rw [State.rd_optGone _ rfl (by decide) rfl]
    exact State.rd_wr_same (s.bump (VLT_GEN_GEN (vltPg c)) 1) (VLT_VAULT_TAINTED (vltPg c)) 0
  · rw [hw.rot_eq (by decide)] at hx
    simpa using (List.mem_filter.1 hx).2
  · rw [hw.hbm_eq (by decide)]
    rfl

/-- The crypto-erase is done and the release notes it; with OVERWRITE the fill starts (R274 steps 5 and 8). -/
def State.eraseDone (s : State) (c n : Nat) (fills : Bool) : State :=
  let u := ((s.cryptoErase c).wr (CTX_SCRUB_ERASE_NS (ctxPg c)) n).setRel c fun r => { r with erased := true }
  if fills then u.wr (CTX_STAT_FILLING (ctxPg c)) 1 else u

theorem State.setRel_ctxs {u : State} (h : u.ctxs = s.ctxs) (f : RelSt → RelSt) : (u.setRel c f).ctxs = (s.setRel c f).ctxs := by
  rw [State.setRel, State.setRel, State.setCtx_ctxs, State.setCtx_ctxs, h]

theorem State.eraseDone_ctxs (s : State) (c n : Nat) (b : Bool) :
    (s.eraseDone c n b).ctxs = ((s.cryptoErase c).setRel c fun r => { r with erased := true }).ctxs := by
  unfold State.eraseDone
  extract_lets u
  have hu : u.ctxs = ((s.cryptoErase c).setRel c fun r => { r with erased := true }).ctxs := State.setRel_ctxs (State.wr_ctxs ..) _
  split
  · exact (State.wr_ctxs ..).trans hu
  · exact hu

/-- A fill that starts and the time of the erase reach two fields of the context's page alone. -/
theorem State.eraseDone_frame (s : State) (c n : Nat) (b : Bool) :
    RegsBut [CTX_SCRUB_ERASE_NS (ctxPg c), CTX_STAT_FILLING (ctxPg c)] (s.cryptoErase c) (s.eraseDone c n b) ∧
      Within [.regs, .ctxs] (s.cryptoErase c) (s.eraseDone c n b) := by
  unfold State.eraseDone
  extract_lets u
  have hu : RegsBut [CTX_SCRUB_ERASE_NS (ctxPg c), CTX_STAT_FILLING (ctxPg c)] (s.cryptoErase c) u :=
    fun g hg => (State.rd_setRel _ g).trans (State.rd_wr_other _ (hg _ (by simp)) n)
  have hw : Within [.regs, .ctxs] (s.cryptoErase c) u := State.setRel_within (by decide) c _ (State.wr_within (by decide) _ n (.refl _ _))
  split
  · exact ⟨hu.wr (by simp) 1, State.wr_within (by decide) _ 1 hw⟩
  · exact ⟨hu, hw⟩

section
variable (hq : s.rot.delivers = [])
include hq

theorem State.eraseDone_release (hc : c < s.ctxs.length) (h : (s.ctx c).release = some r) (hd : r.drained = true) (b : Bool) :
    ((s.eraseDone c n b).ctx c).release = some { r with erased := true } := by
  obtain ⟨-, -, -, -, hctxs⟩ := State.cryptoErase_effect (c := c) hq
  rw [State.ctx_of_ctxs (s.eraseDone_ctxs c n b)]
  exact State.setRel_release (by rwa [hctxs]) (by rwa [State.ctx_of_ctxs hctxs]) hd _

theorem cryptoEraseDone_erases (hc : c < s.ctxs.length) (h : (s.ctx c).release = some r) (hd : r.drained = true) (he : r.erased = false)
    (hs : r.scrubbed = false) : exec (.cryptoEraseDone c n) s = .next (s.eraseDone c n r.overwrite) := by
  have hn : ¬(!r.drained || r.erased) = true := by simp [hd, he]
  show execCryptoEraseDone c n s = _
  rw [execCryptoEraseDone, h]
  simp only [if_neg hn]
  exact congrArg Host.Outcome.next (State.releaseStep7_waits (State.eraseDone_release hq hc h hd _) (.inl hs))

/-- GEN counts up, TAINTED clears, no record of the context is left, and the memory of the stacks stays as it is (R249, R309). -/
theorem State.eraseDone_effect (b : Bool) : (s.eraseDone c n b).rd (VLT_GEN_GEN (vltPg c)) = (s.rd (VLT_GEN_GEN (vltPg c)) + 1) % 2 ^ 32 ∧
    (s.eraseDone c n b).rd (VLT_VAULT_TAINTED (vltPg c)) = 0 ∧ (∀ x ∈ (s.eraseDone c n b).rot.records, x.ctx ≠ c) ∧
    (s.eraseDone c n b).hbm.mem = s.hbm.mem := by
  obtain ⟨hregs, hw⟩ := s.eraseDone_frame c n b
  obtain ⟨hgen, htaint, hrecs, hmem, -⟩ := State.cryptoErase_effect (c := c) hq
  rw [hw.rot_eq (by decide), hw.hbm_eq (by decide)]
  refine ⟨(hregs _ ?_).trans hgen, (hregs _ ?_).trans htaint, hrecs, hmem⟩ <;>
    · simp only [List.forall_mem_cons, Fld.key, CTX_SCRUB_ERASE_NS, CTX_STAT_FILLING, VLT_GEN_GEN, VLT_VAULT_TAINTED, ctxPg, vltPg]
      refine ⟨?_, ?_, by simp⟩ <;> omega

end

end

/-! ### RELEASE_COMPLETE -/

section
variable {s : State} {c : Nat} {r : RelSt}

/-- A context is FREE again (R274 step 9). -/
def State.freed (s : State) (c : Nat) : State :=
  (((s.setCtx c fun x => { x with release := none, holdDie := false, holdChips := [] }).wr (CTX_STAT_STATE (ctxPg c)) 0).notifyCtx c 3 0).dueGen

theorem releaseComplete_frees (h : (s.ctx c).release = some r) (hd : r.drained = true) (hs : r.scrubbed = true) (he : r.erased = true)
    (hf : r.flipped = true) (hg : s.rd (CTX_STAT_FILLING (ctxPg c)) = 0) : exec (.releaseComplete c) s = .next (s.freed c) := by
  show execReleaseComplete c s = _
  rw [execReleaseComplete, h]
  simp only [State.on, hd, hs, he, hf, hg]
  rfl

theorem releaseComplete_waits (h : (s.ctx c).release = some r) (hs : r.scrubbed = false) : exec (.releaseComplete c) s = .next s := by
  show execReleaseComplete c s = _
  rw [execReleaseComplete, h]
  simp only [hs, Bool.and_false, Bool.false_and]
  rfl

theorem State.freed_regsBut (s : State) (c : Nat) : RegsBut [CTX_STAT_STATE (ctxPg c), BYJ_NOTIFY_LOST] s (s.freed c) := by
  have hw : RegsBut [CTX_STAT_STATE (ctxPg c), BYJ_NOTIFY_LOST] s ((s.setCtx c fun x => { x with
      release := none, holdDie := false, holdChips := [] }).wr (CTX_STAT_STATE (ctxPg c)) 0) := .wr (.of_regs rfl) (by simp) 0
  exact (hw.trans ((State.notify_regsBut _ 4 c [3, 0]).mono (by simp))).trans (.of_regs rfl)

theorem State.freed_state (s : State) (c : Nat) : (s.freed c).ctxState c = 0 := by
  have hn : (CTX_STAT_STATE (ctxPg c)).key ≠ BYJ_NOTIFY_LOST.key := by
    simp only [Fld.key, CTX_STAT_STATE, BYJ_NOTIFY_LOST, ctxPg]
    omega
  exact (State.rd_notify _ hn 4 c [3, 0]).trans (State.rd_wr_same ..)

theorem State.freed_ctx (hc : c < s.ctxs.length) : ((s.freed c).ctx c).release = none ∧ ((s.freed c).ctx c).holdDie = false := by
  have hx : (s.freed c).ctxs = (s.setCtx c fun x => { x with release := none, holdDie := false, holdChips := [] }).ctxs := rfl
  rw [State.ctx_of_ctxs hx, State.ctx_setCtx_same _ _ _ hc]
  exact ⟨rfl, rfl⟩

end

/-- Settles O35: each case is the effect of its command, within the parts of its row (`exec_reach`). -/
theorem contextRelease : Obligations.ContextRelease := by
  unfold Obligations.ContextRelease
  refine ⟨?_, ?_, ?_, ?_, ?_, ?_, ?_⟩
  · intro s c r hc hl hb h hd hu ha hk
    exact (exec_reach _ s).next (releaseDrained_drains hc h hd hu ha hk)
      (State.relEmptied_effect (hc.trans_eq hl.symm) (hc.trans_eq hb.symm) r)
  · intro s c hu
    exact (exec_reach _ s).next (releaseDrained_waits hu) rfl
  · intro s c n r hc hl h hd he
    have hl : c < s.ctxs.length := hc.trans_eq hl.symm
    refine (exec_reach _ s).next (releaseScrubDone_scrubs hl h hd he) ⟨?_, ?_, ?_⟩
    · exact State.scrubDone_release hl h hd
    · exact s.scrubDone_ns c n
    · exact fun w hlo hhi d _ => State.scrubDone_sync hc hlo hhi d
  · intro s c n h
    exact (exec_reach _ s).next (releaseScrubDone_none h) rfl
  · intro s c n r hc hl h hd he hs hq
    have hl : c < s.ctxs.length := hc.trans_eq hl.symm
    exact (exec_reach _ s).next (cryptoEraseDone_erases hq hl h hd he hs) ⟨State.eraseDone_release hq hl h hd _, State.eraseDone_effect hq _⟩
  · intro s c r hc hl h hd hs he hf hg
    obtain ⟨hrel, hdie⟩ := State.freed_ctx (hc.trans_eq hl.symm)
    exact (exec_reach _ s).next (releaseComplete_frees h hd hs he hf hg) ⟨s.freed_state c, hrel, hdie, s.freed_regsBut c⟩
  · intro s c r h hs
    exact (exec_reach _ s).next (releaseComplete_waits h hs) rfl

end Sys2Proof.Machine
end

section
/-! Assigning and releasing a context, and binding, seeding and mapping it, one lemma per case of a command, and O34 (R265, R266, R270, R271,
R274, R277, R298). That an ASSIGN of a context that is not FREE keeps its STATE is log entry 92; that a RELEASE ends the context's re-mappings
is log entry 127. -/

namespace Sys2Proof.Machine

/-! ### The fields of CTX_STAT -/

/-- The count of lost NOTIFY records stands below the context pages. -/
theorem ctxStat_ne_lost {f : Fld} {c : Nat} (h : f.addr = ctxPg c + 0x108) : f.key ≠ BYJ_NOTIFY_LOST.key := by
  simp only [Fld.key, BYJ_NOTIFY_LOST, ctxPg, h]
  omega

/-! ### CTX_ASSIGN -/

section
variable (s : State) (c : Nat) (e : Nat × Nat)

theorem State.assignFail_regsBut :
    RegsBut [CTX_STAT_ASSIGN_ERR (ctxPg c), CTX_STAT_ERR_LID (ctxPg c), BYJ_NOTIFY_LOST] s (s.assignFail c e) := by
  have hw : RegsBut [CTX_STAT_ASSIGN_ERR (ctxPg c), CTX_STAT_ERR_LID (ctxPg c), BYJ_NOTIFY_LOST] s
      ((s.wr (CTX_STAT_ASSIGN_ERR (ctxPg c)) e.1).wr (CTX_STAT_ERR_LID (ctxPg c)) e.2) :=
    ((RegsBut.refl _ s).wr (by simp) e.1).wr (by simp) e.2
  exact hw.trans ((State.notify_regsBut _ 4 c [2, e.1]).mono (by simp))

/-- The fields of CTX_STAT after a failed ASSIGN: the code and the LID of the failure, and STATE as before (R265, R270). -/
theorem State.assignFail_shows : (s.assignFail c e).rd (CTX_STAT_ASSIGN_ERR (ctxPg c)) = e.1 % 2 ^ (CTX_STAT_ASSIGN_ERR (ctxPg c)).w ∧
    (s.assignFail c e).rd (CTX_STAT_ERR_LID (ctxPg c)) = e.2 % 2 ^ (CTX_STAT_ERR_LID (ctxPg c)).w ∧
    (s.assignFail c e).ctxState c = s.ctxState c := by
  have hlid : (CTX_STAT_ASSIGN_ERR (ctxPg c)).key ≠ (CTX_STAT_ERR_LID (ctxPg c)).key := Fld.key_ne_of_lo rfl rfl
  have hstate : ∀ f ∈ [CTX_STAT_ASSIGN_ERR (ctxPg c), CTX_STAT_ERR_LID (ctxPg c), BYJ_NOTIFY_LOST], (CTX_STAT_STATE (ctxPg c)).key ≠ f.key := by
    simp only [List.forall_mem_cons]
    exact ⟨Fld.key_ne_of_lo rfl rfl, Fld.key_ne_of_lo rfl rfl, ctxStat_ne_lost rfl, by simp⟩
  refine ⟨?_, ?_, s.assignFail_regsBut c e _ hstate⟩
  · exact (State.rd_notify _ (ctxStat_ne_lost rfl) ..).trans (State.rd_wr_wr s hlid ..)
  · exact (State.rd_notify _ (ctxStat_ne_lost rfl) ..).trans (State.rd_wr_same ..)

theorem State.assignFail_ctxs : (s.assignFail c e).ctxs = s.ctxs := rfl

/-- A context is ASSIGNING and waits for its maps to flip (R270). -/
def State.assigning : State :=
  ((((s.wr (CTX_STAT_ASSIGN_ERR (ctxPg c)) 0).wr (CTX_STAT_ERR_LID (ctxPg c)) 0).wr (CTX_STAT_STATE (ctxPg c)) 1).setCtx c
    fun x => { x with assignWait := true }).dueGen

theorem State.assigning_regsBut :
    RegsBut [CTX_STAT_ASSIGN_ERR (ctxPg c), CTX_STAT_ERR_LID (ctxPg c), CTX_STAT_STATE (ctxPg c)] s (s.assigning c) := by
  have hw : RegsBut [CTX_STAT_ASSIGN_ERR (ctxPg c), CTX_STAT_ERR_LID (ctxPg c), CTX_STAT_STATE (ctxPg c)] s
      (((s.wr (CTX_STAT_ASSIGN_ERR (ctxPg c)) 0).wr (CTX_STAT_ERR_LID (ctxPg c)) 0).wr (CTX_STAT_STATE (ctxPg c)) 1) :=
    (((RegsBut.refl _ s).wr (by simp) 0).wr (by simp) 0).wr (by simp) 1
  exact hw.trans (.of_regs rfl)

end

section
variable {s : State} {c : Nat}

/-- What ASSIGN leaves once the checks of R265 pass. -/
theorem State.assigning_effect (hl : c < s.ctxs.length) : (s.assigning c).ctxState c = 1 ∧ ((s.assigning c).ctx c).assignWait = true ∧
    (s.assigning c).rd (CTX_STAT_ASSIGN_ERR (ctxPg c)) = 0 := by
  have hlid : (CTX_STAT_ASSIGN_ERR (ctxPg c)).key ≠ (CTX_STAT_ERR_LID (ctxPg c)).key := Fld.key_ne_of_lo rfl rfl
  have hstate : (CTX_STAT_ASSIGN_ERR (ctxPg c)).key ≠ (CTX_STAT_STATE (ctxPg c)).key := Fld.key_ne_of_lo rfl rfl
  have hctxs : (s.assigning c).ctxs = (s.setCtx c fun x => { x with assignWait := true }).ctxs := rfl
  refine ⟨?_, ?_, ?_⟩
  · exact State.rd_wr_same _ (CTX_STAT_STATE (ctxPg c)) 1
  · rw [State.ctx_of_ctxs hctxs, State.ctx_setCtx_same _ _ _ hl]
  · exact (State.rd_wr_other _ hstate 1).trans (State.rd_wr_wr s hlid 0 0)

theorem State.assigning_active (hc : c < 16) : (s.assigning c).active = s.active := by
  have hrole : ∀ f ∈ [CTX_STAT_ASSIGN_ERR (ctxPg c), CTX_STAT_ERR_LID (ctxPg c), CTX_STAT_STATE (ctxPg c)], PAR_STAT_ROLE.key ≠ f.key := by
    simp only [List.forall_mem_cons, Fld.key, PAR_STAT_ROLE, CTX_STAT_ASSIGN_ERR, CTX_STAT_ERR_LID, CTX_STAT_STATE, ctxPg]
    refine ⟨?_, ?_, ?_, by simp⟩ <;> omega
  rw [State.active, s.assigning_regsBut c _ hrole]
  rfl

/-- Only the active unit starts a flip that is asked for. -/
theorem State.requestFlip_inactive (ha : s.active = false) : s.requestFlip = s := by
  rw [State.requestFlip, ha]
  rfl

theorem ctxAssign_notFree (hc : c < 16) (h : s.ctxState c ≠ 0) : exec (.ctxAssign c) s = .next (s.assignFail c (1, 0)) := by
  show execCtxAssign c s = _
  rw [execCtxAssign, State.ctxAssign, if_neg (by omega), if_pos h]

theorem ctxAssign_fails {e : Nat × Nat} (hc : c < 16) (h : s.ctxState c = 0) (he : s.assignErr c = some e) :
    exec (.ctxAssign c) s = .next (s.assignFail c e) := by
  show execCtxAssign c s = _
  rw [execCtxAssign, State.ctxAssign, if_neg (by omega), if_neg (not_not_intro h), he]

theorem ctxAssign_assigns (hc : c < 16) (h : s.ctxState c = 0) (he : s.assignErr c = none) (ha : s.active = false) :
    exec (.ctxAssign c) s = .next (s.assigning c) := by
  show execCtxAssign c s = _
  rw [execCtxAssign, State.ctxAssign, if_neg (by omega), if_neg (not_not_intro h), he]
  exact congrArg Host.Outcome.next (State.requestFlip_inactive ((State.assigning_active hc).trans ha))

end

/-! ### Sessions that close -/

section
variable (s : State)

theorem State.rd_clearSlots (i : Nat) {g : Fld} (ht : g.key ≠ (MSL_SESS_TAKEN (mslPg i)).key) : (s.clearSlots i).rd g = s.rd g := by
  unfold State.clearSlots
  extract_lets lo
  rw [State.rd_wr_other _ ht, State.setTile_rd]

/-- A session that closes shows in the count of open sessions and in the TAKEN bits of its index. -/
theorem State.rd_closeSess {g : Fld} (ho : g.key ≠ BYJ_STAT_OPEN.key) (ht : ∀ i, g.key ≠ (MSL_SESS_TAKEN (mslPg i)).key) (i : Nat) :
    (s.closeSess i).rd g = s.rd g := by
  unfold State.closeSess
  split
  · rfl
  · extract_lets s₁
    rw [State.showSess, State.rd_wr_other _ ho, State.rd_clearSlots _ i (ht i)]
    rfl

theorem State.rd_closeWhere {g : Fld} (ho : g.key ≠ BYJ_STAT_OPEN.key) (ht : ∀ i, g.key ≠ (MSL_SESS_TAKEN (mslPg i)).key) (p : Sess → Bool) :
    (s.closeWhere p).rd g = s.rd g :=
  foldl_keeps (State.rd · g) (fun u i => u.rd_closeSess ho ht i) _ s

/-- The contexts that have a re-mapping under way. -/
def State.remapCtxs : List Nat := s.rst.remaps.map (·.ctx)

theorem State.closeSess_remapCtxs (i : Nat) : (s.closeSess i).remapCtxs = s.remapCtxs := by
  unfold State.closeSess
  split
  · rfl
  · exact List.map_map

theorem State.closeWhere_remapCtxs (p : Sess → Bool) : (s.closeWhere p).remapCtxs = s.remapCtxs :=
  foldl_keeps State.remapCtxs State.closeSess_remapCtxs _ s

theorem State.closeWhere_ctxs (p : Sess → Bool) : (s.closeWhere p).ctxs = s.ctxs :=
  (State.closeWhere_within (A := [.regs, .tile, .beyjo, .rst, .pair]) (by decide) (by decide) (by decide) (by decide) (by decide) p
    (.refl _ s)).ctxs_eq (by decide)

end

/-! ### CTX_RELEASE -/

section
variable (s : State) (c : Nat)

/-- The release that starts for an ASSIGNED context: none of its steps is done (R274). -/
def State.newRelease : RelSt := ⟨false, false, false, false, s.on (CTX_CTRL_OVERWRITE (ctxPg c)), false⟩

/-- A release is in progress, the context waits for no flip, and its re-mappings are gone (R274, R407). -/
def State.relEntered : State :=
  (s.setCtx c fun x => { x with release := some (s.newRelease c), assignWait := false }).setRst fun q => { q with
    remaps := q.remaps.filter fun m => m.ctx != c }

/-- The REMAP commands that asked for the re-mappings of the context are REJECTED with STATE (R281, R407). -/
def State.relRejects : State :=
  ((s.rst.remaps.filter fun m => m.ctx == c).filterMap (·.mail)).foldl (fun u m => u.mailReject m.1 m.2 0x10 []) (s.relEntered c)

/-- STATE is RELEASING and the TENANT sessions of the context close (R274 step 1). -/
def State.relCloses : State := (((s.relRejects c).wr (CTX_STAT_STATE (ctxPg c)) 3).closeWhere fun x => x.role == 1 && x.ctx == c).dueGen

/-- A timetable that runs pauses at its next step boundary (R146, R274 step 1). -/
def State.relStops : State := if s.armed c then s.setTtb c fun t => { t with stopReq := true } else s

theorem State.relStops_frame : Within [.ttbs] s (s.relStops c) := by
  unfold State.relStops
  split
  · exact State.setTtb_within (by decide) c _ (.refl _ s)
  · exact .refl _ s

theorem State.relRejects_frame : Within [.regs, .tile, .beyjo] (s.relEntered c) (s.relRejects c) :=
  Within.foldl (.refl _ _) fun _ _ h => State.mailReject_within (by decide) (by decide) (by decide) _ _ _ _ h

/-- The parts that the steps after the first leave of a release's start. -/
theorem State.relCloses_frame :
    (s.relCloses c).ctxs = (s.relEntered c).ctxs ∧ (s.relCloses c).remapCtxs = (s.relEntered c).remapCtxs := by
  have hw := s.relRejects_frame c
  refine ⟨(State.closeWhere_ctxs ..).trans (hw.ctxs_eq (by decide)), (State.closeWhere_remapCtxs ..).trans ?_⟩
  rw [State.remapCtxs, State.remapCtxs, State.wr_rst, hw.rst_eq (by decide)]

theorem State.relCloses_state : (s.relCloses c).ctxState c = 3 := by
  have ho : (CTX_STAT_STATE (ctxPg c)).key ≠ BYJ_STAT_OPEN.key := by
    simp only [Fld.key, CTX_STAT_STATE, BYJ_STAT_OPEN, ctxPg]
    omega
  have ht : ∀ i, (CTX_STAT_STATE (ctxPg c)).key ≠ (MSL_SESS_TAKEN (mslPg i)).key := fun i => by
    simp only [Fld.key, CTX_STAT_STATE, MSL_SESS_TAKEN, ctxPg, mslPg]
    omega
  exact (State.rd_closeWhere _ ho ht _).trans (State.rd_wr_same ..)

theorem State.relEntered_remapCtxs : c ∉ (s.relEntered c).remapCtxs := by
  show c ∉ (s.rst.remaps.filter fun m => m.ctx != c).map (·.ctx)
  simp

end

section
variable {s : State} {c : Nat}

theorem State.relEntered_ctx (hl : c < s.ctxs.length) : ((s.relEntered c).ctx c).release = some (s.newRelease c) ∧
    ((s.relEntered c).ctx c).assignWait = false := by
  have hctxs : (s.relEntered c).ctxs = (s.setCtx c fun x => { x with release := some (s.newRelease c), assignWait := false }).ctxs := rfl
  rw [State.ctx_of_ctxs hctxs, State.ctx_setCtx_same _ _ _ hl]
  exact ⟨rfl, rfl⟩

/-- The start of a release: RELEASING, its steps still to do, no flip awaited and no re-mapping left (R274, R407). -/
theorem State.release_effect (hl : c < s.ctxs.length) : ((s.relCloses c).relStops c).ctxState c = 3 ∧
    (((s.relCloses c).relStops c).ctx c).release.map (·.drained) = some false ∧ (((s.relCloses c).relStops c).ctx c).assignWait = false ∧
    ∀ m ∈ ((s.relCloses c).relStops c).rst.remaps, m.ctx ≠ c := by
  have hw := (s.relCloses c).relStops_frame c
  obtain ⟨hctxs, hremaps⟩ := s.relCloses_frame c
  obtain ⟨hrel, hwait⟩ := State.relEntered_ctx hl
  have hgone : c ∉ (s.relCloses c).remapCtxs := hremaps ▸ s.relEntered_remapCtxs c
  rw [State.ctxState, hw.rd_eq (by decide), hw.rst_eq (by decide), State.ctx_of_ctxs ((hw.ctxs_eq (by decide)).trans hctxs), hrel, hwait]
  exact ⟨s.relCloses_state c, rfl, rfl, fun m hm h => hgone (List.mem_map.2 ⟨m, hm, h⟩)⟩

theorem ctxRelease_releases (hc : c < 16) (h : s.ctxState c = 2) : exec (.ctxRelease c) s = .next ((s.relCloses c).relStops c) := by
  show execCtxRelease c s = _
  rw [execCtxRelease, State.ctxRelease, if_neg (by omega), if_neg (by omega), h]
  rfl

theorem ctxRelease_free (hc : c < 16) (h : s.ctxState c = 0) : exec (.ctxRelease c) s = .next (s.wr (CTX_STAT_RELEASE_REJ (ctxPg c)) 1) := by
  show execCtxRelease c s = _
  rw [execCtxRelease, State.ctxRelease, if_neg (by omega), if_pos (by omega)]

end

/-! ### CTX_BIND -/

section
variable {s : State} {n c : Nat} {b : Bool}

/-- A context is bound to an owner, closed to tenants or not (R277, R298). -/
def State.bound (s : State) (c : Nat) (b : Bool) (owner : Nat) : State :=
  (((s.wr (CTX_STAT_BOUND (ctxPg c)) 1).wr (CTX_STAT_TENANT_CLOSED (ctxPg c)) (b2n b)).setCtx c fun y => { y with owner := owner }).dueGen

theorem State.bound_regsBut (o : Nat) : RegsBut [CTX_STAT_BOUND (ctxPg c), CTX_STAT_TENANT_CLOSED (ctxPg c)] s (s.bound c b o) :=
  (((RegsBut.refl _ s).wr (by simp) 1).wr (by simp) (b2n b)).trans (.of_regs rfl)

theorem State.bound_effect (hl : c < s.ctxs.length) (o : Nat) : (s.bound c b o).rd (CTX_STAT_BOUND (ctxPg c)) = 1 ∧
    (s.bound c b o).rd (CTX_STAT_TENANT_CLOSED (ctxPg c)) = b2n b ∧ ((s.bound c b o).ctx c).owner = o := by
  have hclosed : (CTX_STAT_BOUND (ctxPg c)).key ≠ (CTX_STAT_TENANT_CLOSED (ctxPg c)).key := Fld.key_ne_of_lo rfl rfl
  have hctxs : (s.bound c b o).ctxs = (s.setCtx c fun y => { y with owner := o }).ctxs := rfl
  refine ⟨State.rd_wr_wr s hclosed 1 (b2n b), ?_, ?_⟩
  · exact (State.rd_wr_same _ (CTX_STAT_TENANT_CLOSED (ctxPg c)) _).trans (b2n_mod_two b)
  · rw [State.ctx_of_ctxs hctxs, State.ctx_setCtx_same _ _ _ hl]

theorem ctxBind_binds {x : Sess} (hc : c < 16) (hx : s.openSess n = some x) (hr : x.role = 3) (h : s.ctxState c = 2)
    (hb : s.rd (CTX_STAT_BOUND (ctxPg c)) = 0) : exec (.ctxBind n c b) s = .next (s.bound c b x.owner) := by
  have hb : ¬ s.on (CTX_STAT_BOUND (ctxPg c)) = true := by simp [State.on, hb]
  show execCtxBind n c b s = _
  rw [execCtxBind, State.ctxBind, hx]
  exact congrArg Host.Outcome.next (if_pos ⟨hr, hc, h, hb⟩)

theorem ctxBind_bound (hb : s.rd (CTX_STAT_BOUND (ctxPg c)) = 1) : exec (.ctxBind n c b) s = .next s := by
  have hb : s.on (CTX_STAT_BOUND (ctxPg c)) = true := by simp [State.on, hb]
  show execCtxBind n c b s = _
  rw [execCtxBind, State.ctxBind]
  split
  · rfl
  · exact congrArg Host.Outcome.next (if_neg fun ⟨_, _, _, hn⟩ => hn hb)

end

/-! ### CTX_SEED_WRITE -/

section
variable {s : State} {c : Nat} {v : Word}

/-- An ASSIGNED context takes one half of its seed (R271). -/
theorem ctxSeedWrite_sets (half : Nat) (hc : c < 16) (h : s.ctxState c = 2) : exec (.ctxSeedWrite c half v) s = .next (s.setCtx c fun x => { x with
    seed := if half = 0 then x.seed / 2 ^ 64 * 2 ^ 64 + v.toNat % 2 ^ 64 else x.seed % 2 ^ 64 + v.toNat % 2 ^ 64 * 2 ^ 64 }) := by
  show execCtxSeedWrite c half v s = _
  rw [execCtxSeedWrite, if_pos hc, State.ctxSeed, if_pos h]

theorem ctxSeedWrite_ignored {half : Nat} (h : s.ctxState c ≠ 2) : exec (.ctxSeedWrite c half v) s = .next s := by
  show execCtxSeedWrite c half v s = _
  rw [execCtxSeedWrite, State.ctxSeed, if_neg h, ite_self]

/-! ### CTX_MAP_WRITE -/

/-- A FREE context takes the map entry of the LID that CTX_MAP_SEL names (R266). -/
theorem ctxMapWrite_sets (hc : c < 16) (h : s.ctxState c = 0) : exec (.ctxMapWrite c v) s = .next (s.setCtx c fun x => { x with
    map := tset x.map (s.rd (CTX_MAP_SEL_LID (ctxPg c))) (bits v.toNat 63 63 * 2 ^ 63 + v.toNat % 2 ^ 14) }) := by
  show execCtxMapWrite c v s = _
  rw [execCtxMapWrite, if_pos hc, State.ctxMap, if_pos h]

theorem ctxMapWrite_ignored (h : s.ctxState c ≠ 0) : exec (.ctxMapWrite c v) s = .next s := by
  show execCtxMapWrite c v s = _
  rw [execCtxMapWrite, State.ctxMap, if_neg h, ite_self]

end

/-- Settles O34: each case is the effect of its command, within the parts of its row (`exec_reach`). That an ASSIGN of a context that is not
FREE keeps its STATE is log entry 92, and that a RELEASE ends the context's re-mappings is log entry 127. -/
theorem contextAssignment : Obligations.ContextAssignment := by
  unfold Obligations.ContextAssignment
  refine ⟨?_, ?_, ?_, ?_, ?_, ?_, ?_, ?_, ?_, ?_, ?_, ?_⟩
  · intro s c hc h
    obtain ⟨herr, -, hstate⟩ := s.assignFail_shows c (1, 0)
    exact (exec_reach _ s).next (ctxAssign_notFree hc h) ⟨s.assignFail_regsBut c _, herr, hstate⟩
  · intro s c e hc h he
    obtain ⟨herr, hlid, hstate⟩ := s.assignFail_shows c e
    exact (exec_reach _ s).next (ctxAssign_fails hc h he) ⟨hstate.trans h, herr, hlid, s.assignFail_ctxs c e⟩
  · intro s c hc hl h he ha
    exact (exec_reach _ s).next (ctxAssign_assigns hc h he ha) (State.assigning_effect (hc.trans_eq hl.symm))
  · intro s c hc hl h
    exact (exec_reach _ s).next (ctxRelease_releases hc h) (State.release_effect (hc.trans_eq hl.symm))
  · intro s c hc h
    exact (exec_reach _ s).next (ctxRelease_free hc h) ⟨(RegsBut.refl _ s).wr (by simp) 1, State.rd_wr_same .., rfl⟩
  · intro s n c b x hc hl hx hr h hb
    exact (exec_reach _ s).next (ctxBind_binds hc hx hr h hb) ⟨State.bound_regsBut _, State.bound_effect (hc.trans_eq hl.symm) _⟩
  · intro s n c b hb
    exact (exec_reach _ s).next (ctxBind_bound hb) rfl
  · intro s c v hc hl h
    refine (exec_reach _ s).next (ctxSeedWrite_sets 0 hc h) ?_
    rw [State.ctx_setCtx_same _ _ _ (hc.trans_eq hl.symm), if_pos rfl, BitVec.toNat_mod_cancel]
  · intro s c v hc hl h
    refine (exec_reach _ s).next (ctxSeedWrite_sets 1 hc h) ?_
    rw [State.ctx_setCtx_same _ _ _ (hc.trans_eq hl.symm), if_neg Nat.one_ne_zero, BitVec.toNat_mod_cancel]
  · intro s c half v h
    exact (exec_reach _ s).next (ctxSeedWrite_ignored h) rfl
  · intro s c v hc hl h
    refine (exec_reach _ s).next (ctxMapWrite_sets hc h) ?_
    rw [State.ctx_setCtx_same _ _ _ (hc.trans_eq hl.symm)]
    exact ⟨tget_tset_same .., fun l hne => tget_tset_other _ hne _⟩
  · intro s c v h
    exact (exec_reach _ s).next (ctxMapWrite_ignored h) rfl

end Sys2Proof.Machine
end

section
/-! One step and a run of the block: O1, O3 and O5. -/

namespace Sys2Proof.Machine

/-- Settles O1: a step takes the front of the queue, an empty queue idles (log entry 1), and no table word spells a command. -/
theorem stepRunsFront : Obligations.StepRunsFront :=
  ⟨fun _ _ _ h => step_cons h, fun _ h => step_nil h, fun _ _ _ => ⟨rfl, rfl⟩⟩

/-- Settles O3: every meaning is a next state, within the parts of its row (`exec_reach`). -/
theorem everyCommandCompletes : Obligations.EveryCommandCompletes := by
  intro c s
  obtain ⟨t, ht⟩ := exec_next c s
  have w := exec_reach c s
  rw [ht] at w
  exact ⟨t, ht, w⟩

/-! ### Runs -/

/-- One step of a run. -/
theorem run_succ_of_step {M : Host.Core} {s t : M.State} (h : M.step s = .next t) (n : Nat) : M.run (n + 1) s = M.run n t := by
  rw [Host.Core.run, h]

/-- A run goes on from where its first steps end. -/
theorem run_add_of_run {M : Host.Core} {m : Nat} {s t : M.State} (h : M.run m s = .next t) (n : Nat) : M.run (m + n) s = M.run n t := by
  induction m generalizing s with
  | zero =>
    cases h
    rw [Nat.zero_add]
  | succ m ih =>
    rw [Host.Core.run] at h
    split at h
    · rename_i u hu
      rw [Nat.add_right_comm, run_succ_of_step hu, ih h]
    · cases h
    · cases h

theorem core_run_succ {s t : State} (h : step s = .next t) (n : Nat) : core.run (n + 1) s = core.run n t := run_succ_of_step (M := core) h n

/-- As many steps as a sound state has commands waiting run those commands, front first. -/
theorem core_run_sound (n : Nat) {s : State} (h : s.Sound) :
    ∃ t, core.run n s = .next t ∧ t.Sound ∧ t.pending = s.pending.drop n ∧ s.out <+: t.out := by
  induction n generalizing s with
  | zero => exact ⟨s, rfl, h, rfl, List.prefix_refl _⟩
  | succ n ih =>
    obtain ⟨u, hu, hsound, hqueue, hsent, -⟩ := stepKeepsSound s h
    obtain ⟨t, ht, htsound, htqueue, htsent⟩ := ih hsound
    refine ⟨t, (core_run_succ hu n).trans ht, htsound, ?_, hsent.trans htsent⟩
    rw [htqueue, hqueue, List.drop_tail]

/-- The commands at the front of a queue run, whatever waits behind them. -/
theorem core_run_front (p q : List Instr) {s : State} (h : s.pending = p ++ q) : ∃ t, core.run p.length s = .next t ∧ t.pending = q := by
  induction p generalizing s with
  | nil => exact ⟨s, rfl, h⟩
  | cons c p ih =>
    obtain ⟨u, hu, hk⟩ := exec_kept c { s with pending := p ++ q }
    obtain ⟨t, ht, htq⟩ := ih (s := u) hk.queue
    exact ⟨t, (core_run_succ ((step_cons h).trans hu) _).trans ht, htq⟩

/-- Settles O5, by induction on the number of steps and on the commands at the front of the queue. -/
theorem commandsRunInOrder : Obligations.CommandsRunInOrder := by
  refine ⟨fun n s h => core_run_sound n h, fun s p q => ?_⟩
  obtain ⟨t, ht, hq⟩ := core_run_front p q (s := { s with pending := p ++ q }) rfl
  exact ⟨t, ht, hq, run_add_of_run ht _⟩

end Sys2Proof.Machine
end

section
/-! The answers that the agent keeps for each source, and O8 (R474): no access of a register touches them, so what is stored is found until 16
newer ones stand. -/

namespace Sys2Proof.Machine

/-- The answers of the agent stay as they are. -/
structure ReplayKept (s t : State) : Prop where
  replay : t.ag.replay = s.ag.replay

namespace ReplayKept

variable {s t u : State}

theorem refl (s : State) : ReplayKept s s := ⟨rfl⟩

/-- A step that leaves the answers. -/
theorem trans (h : ReplayKept s t) (e : u.ag.replay = t.ag.replay) : ReplayKept s u := ⟨e.trans h.replay⟩

theorem within {A : List Area} (h : ReplayKept s t) (w : Within A t u) (n : Area.ag ∉ A) : ReplayKept s u :=
  h.trans (congrArg AgSt.replay (w.ag_eq n))

theorem setAg (h : ReplayKept s t) {f : AgSt → AgSt} (k : ∀ a, (f a).replay = a.replay) : ReplayKept s (t.setAg f) := h.trans (k t.ag)

theorem awr (h : ReplayKept s t) (f : Fld) (v : Nat) : ReplayKept s (t.awr f v) := h.trans rfl

theorem setAgTime (h : ReplayKept s t) (f : AgTimeSt → AgTimeSt) : ReplayKept s (t.setAgTime f) := h.trans rfl

theorem emit (h : ReplayKept s t) (m : Msg) : ReplayKept s (t.emit m) := h.trans rfl

theorem ite {c : Prop} [Decidable c] (h : ReplayKept s t) (k : ReplayKept s u) : ReplayKept s (if c then t else u) := by
  split <;> assumption

theorem detect (h : ReplayKept s t) (d : Site) (pg det detail : Nat) (ctx : Option Nat) : ReplayKept s (t.detect d pg det detail ctx) :=
  h.within (t.detect_frame d pg det detail ctx) (by decide)

theorem agEvent (h : ReplayKept s t) (type cause iter step : Nat) : ReplayKept s (t.agEvent type cause iter step) :=
  h.trans (State.agEvent_keeps t type cause iter step AgSt.replay fun _ _ => rfl)

theorem ifBit (h : ReplayKept s t) (v i : Nat) {f : State → State} (k : ∀ u, ReplayKept s u → ReplayKept s (f u)) :
    ReplayKept s (t.ifBit v i f) := by
  unfold State.ifBit
  split
  · exact k t h
  · exact h

/-! ### The operations of the agent that an access may start -/

theorem agPlain (h : ReplayKept s t) (a v : Nat) (loc : Bool) : ReplayKept s (t.agPlain a v loc) :=
  h.within (State.agPlain_within (A := [.regs, .aregs]) (by decide) (by decide) a v loc (.refl _ t)) (by decide)

theorem agClear (h : ReplayKept s t) : ReplayKept s t.agClear := h.setAg fun _ => rfl

theorem agEmpty (h : ReplayKept s t) (cause : Nat) : ReplayKept s (t.agEmpty cause) := by
  unfold State.agEmpty
  extract_lets st
  refine .agEvent ?_ _ _ _ _
  exact .setAg (h.agClear.awr _ _) fun _ => rfl

theorem agArm (h : ReplayKept s t) : ReplayKept s t.agArm := by
  unfold State.agArm
  extract_lets code s₁ s₂ fresh s₃
  have h₂ : ReplayKept s s₂ := by
    unfold s₂
    split
    · exact .awr (.awr (h.awr ..) ..) ..
    · exact h.awr ..
  have h₃ : ReplayKept s s₃ := by
    unfold s₃
    refine .setAgTime ?_ _
    exact h₂.agClear.setAg fun _ => rfl
  split
  · exact h
  split
  · exact (h₃.awr ..).agEvent ..
  · exact .detect (.awr (.agClear (h.awr ..)) ..) ..

theorem agDisarm (h : ReplayKept s t) : ReplayKept s t.agDisarm := by
  unfold State.agDisarm
  extract_lets st
  split
  · exact h.setAg fun _ => rfl
  split
  · exact h
  · exact h.agEmpty 1

theorem agLoading (h : ReplayKept s t) (n : Nat) : ReplayKept s (t.agLoading n) := by
  unfold State.agLoading
  exact .ite h (.awr (.awr (.awr (.awr (.awr (.awr h.agClear ..) ..) ..) ..) ..) ..)

theorem streamEnd (h : ReplayKept s t) : ReplayKept s t.streamEnd := h.agEvent ..

theorem rchunkClear (h : ReplayKept s t) : ReplayKept s ((execRchunkClear t).after t) := by
  unfold execRchunkClear Out.after
  exact h.setAg fun _ => rfl

theorem agEvReq (h : ReplayKept s t) (n : Nat) : ReplayKept s (t.agEvReq n) := by
  unfold State.agEvReq State.agDropKey
  extract_lets k s₁
  have h₁ : ReplayKept s s₁ := by
    unfold s₁
    refine .setAg (.awr ?_ _ _) fun _ => rfl
    exact h.setAg fun _ => rfl
  exact .ite h (h₁.awr ..)

theorem hcCompute (h : ReplayKept s t) : ReplayKept s t.hcCompute := by
  unfold State.hcCompute
  extract_lets s₁ st
  have h₁ : ReplayKept s s₁ := by
    unfold s₁
    refine .awr ?_ _ _
    exact h.setAg fun _ => rfl
  refine .ite ((h₁.agClear.awr ..).awr ..) (.ite (.setAgTime ?_ _) h₁)
  exact h₁.setAg fun _ => rfl

theorem hcReset (h : ReplayKept s t) (domain block : Nat) : ReplayKept s (t.hcReset domain block) := by
  unfold State.hcReset
  extract_lets b s₁ s₂
  have h₁ : ReplayKept s s₁ := h.setAg fun _ => rfl
  have h₂ : ReplayKept s s₂ := .detect (.emit (.awr (.awr (.awr h₁ ..) ..) ..) _) ..
  exact .ite h (.ite h (.ite h₂.hcCompute h₂))

/-! ### Reads and writes of registers -/

theorem agLoadWrite (h : ReplayKept s t) (a v : Nat) : ReplayKept s (t.agLoadWrite a v) := by
  unfold State.agLoadWrite
  split
  · exact h.agPlain ..
  split
  · exact h.setAg fun _ => rfl
  · exact h.agPlain ..

theorem agTtbWrite (h : ReplayKept s t) (a v : Nat) : ReplayKept s (t.agTtbWrite a v) := by
  unfold State.agTtbWrite
  extract_lets off s₁
  have h₁ : ReplayKept s s₁ := h.ifBit _ _ fun _ => agArm
  have hplain (v : Nat) : ReplayKept s (t.agPlain a v false) := h.agPlain ..
  exact .ite (h₁.ifBit _ _ fun _ => agDisarm) <| .ite (h.agLoading _) <| .ite (hplain _) <| .ite (hplain _) <| .ite (h.setAg fun _ => rfl) <|
    .ite (h.setAg fun _ => rfl) <| .ite (h.setAg fun _ => rfl) <| .ite (h.ifBit _ _ fun _ => streamEnd) <|
    .ite (h.ifBit _ _ fun u k => k.rchunkClear) <| .ite (h.setAg fun _ => rfl) <| .ite (h.setAg fun _ => rfl) (hplain _)

theorem agRteWrite (h : ReplayKept s t) (a v : Nat) : ReplayKept s (t.agRteWrite a v) :=
  h.within (State.agRteWrite_within (A := [.regs, .aregs, .agRoute]) (by decide) (by decide) (by decide) a v (.refl _ t)) (by decide)

/-- The writes that the agent serves as the unit does its own. -/
theorem shared (h : ReplayKept s t) (w : Within [.regs, .aregs, .time, .agTime, .ports, .agPorts, .replays, .route, .ttbs, .agents, .insts, .tile, .hbm,
    .ctxs, .rot, .beyjo, .flt, .agFlt, .rst, .pair, .boot, .pwr, .out, .freeCtr] t u) : ReplayKept s u := h.within w (by decide)

theorem agRemote (h : ReplayKept s t) (src a v : Nat) : ReplayKept s (t.agRemote src a v) := by
  unfold State.agRemote
  extract_lets n off s₁ s₂
  have hplain (v : Nat) : ReplayKept s (t.agPlain a v false) := h.agPlain ..
  have hwidth (f g : Fld) (x y n : Nat) : ReplayKept s (((t.awr f x).awr g y).judgeWidth .agent n) :=
    .shared ((h.awr f x).awr g y)
      (State.judgeWidth_within (by decide) (by decide) (by decide) (by decide) (by decide) (by decide) (by decide) .agent n (.refl _ _))
  refine .ite (h.shared ?_) ?_
  · exact State.writeHead_within (by decide) (by decide) (by decide) (by decide) .agent operator a v (.refl _ t)
  split
  · exact h.agLoadWrite ..
  · refine .ite (h.shared ?_) (.ite (hwidth ..) (.ite (.ite h (hplain _)) (hplain _)))
    · exact State.prtCtrl_within (by decide) (by decide) (by decide) (by decide) (by decide) (by decide) (by decide) (by decide) (by decide) (by decide)
        (by decide) .agent _ v (.refl _ t)
  · exact h.agRteWrite ..
  · exact h.agTtbWrite ..
  · exact .ite ((h.awr ..).ifBit _ _ fun _ k => k.agEvReq src) (.ite (hplain _) (hplain _))
  · refine .ite (h.shared ?_) (.ite (h.ifBit _ _ fun u k => k.shared ?_) (hplain _))
    · exact State.fltWrite_within (by decide) (by decide) (by decide) (by decide) (by decide) (by decide) (by decide) (by decide) (by decide) (by decide)
        (by decide) (by decide) (by decide) (by decide) (by decide) (by decide) (by decide) (by decide) (by decide) (by decide) (by decide) (by decide)
        (by decide) (by decide) .agent _ _ v (.refl _ t)
    · exact State.clearDll_within (by decide) (by decide) (by decide) (by decide) .agent 0 (.refl _ u)
  · refine .ite (h.shared ?_) (hplain _)
    exact State.jigArm_within (by decide) (by decide) (by decide) (by decide) .agent v (.refl _ t)
  · exact .ite (((h.awr ..).awr ..).ifBit _ _ fun _ k => k.hcReset ..) (hplain _)
  · exact hplain _

theorem agWrites (h : ReplayKept s t) (src : Nat) (l : List Nat) (a : Nat) : ReplayKept s (t.agWrites src l a).2 := by
  induction l generalizing t a with
  | nil => exact h
  | cons v r ih =>
    rw [State.agWrites]
    split
    · exact ih (h.agRemote src a v) (a + 8)
    · exact h

theorem agRead (h : ReplayKept s t) (a : Nat) : ReplayKept s (t.agRead a).2 := by
  unfold State.agRead
  split
  · exact h
  split
  · unfold State.agEvtRead
    split
    · exact h
    · exact h.trans rfl
  · exact h.shared (State.readFields_within (by decide) (by decide) .agent _ (.refl _ t))

theorem agReads (h : ReplayKept s t) (n a : Nat) : ReplayKept s (t.agReads n a).2.2 := by
  induction n generalizing t a with
  | zero => exact h
  | succ n ih =>
    rw [State.agReads]
    extract_lets r q
    split
    · exact ih (h.agRead a) (a + 8)
    · exact h

end ReplayKept

/-- Executing a request leaves the answers of the agent. -/
theorem State.mreqRun_replay (s : State) (c : Cell) : (s.mreqRun c).2.ag.replay = s.ag.replay := by
  unfold State.mreqRun
  extract_lets w addr op n answer r r₂
  split
  · rfl
  split
  · exact ((ReplayKept.refl s).agReads n addr).replay
  · exact ((ReplayKept.refl s).agWrites c.src _ addr).replay

/-! ### The list of a source -/

section
variable (s : State) (f n : Nat) (ws : List Word)

/-- The answers that the agent holds for a source. -/
def State.answersOf : List (Nat × List Word) := match s.ag.replay.find? fun e => e.1 == f with | some e => e.2 | none => []

theorem State.keepAnswer_same : (s.keepAnswer f n ws).ag.replay.find? (fun e => e.1 == f) =
    some (f, (s.answersOf f).drop ((s.answersOf f).length - 15) ++ [(n, ws)]) := by
  have hold : (s.ag.replay.filter fun e => e.1 != f).find? (fun e => e.1 == f) = none := by simp [List.find?_eq_none]
  show ((s.ag.replay.filter fun e => e.1 != f) ++ [(f, (s.answersOf f ++ [(n, ws)]).drop ((s.answersOf f).length - 15))]).find? _ = _
  rw [List.find?_append, hold, List.drop_append_of_le_length (Nat.sub_le ..)]
  simp

theorem State.keepAnswer_other {g : Nat} (h : g ≠ f) :
    (s.keepAnswer f n ws).ag.replay.find? (fun e => e.1 == g) = s.ag.replay.find? (fun e => e.1 == g) := by
  have hg : (fun e : Nat × List (Nat × List Word) => decide ((e.1 != f) = true ∧ (e.1 == g) = true)) = fun e => e.1 == g := funext fun e => by
    by_cases he : e.1 = g <;> simp [he, h]
  show ((s.ag.replay.filter fun e => e.1 != f) ++ [(f, (s.answersOf f ++ [(n, ws)]).drop ((s.answersOf f).length - 15))]).find? (fun e => e.1 == g) = _
  rw [List.find?_append, List.find?_filter, hg]
  simp [h.symm]

/-- An answer that the source had no answer to is found under its SEQ. -/
theorem State.replayOf_keepAnswer_new (h : s.replayOf f n = none) : (s.keepAnswer f n ws).replayOf f n = some ws := by
  have hnone : (s.answersOf f).find? (fun q => q.1 == n) = none := by
    unfold State.answersOf
    unfold State.replayOf at h
    split
    · rename_i e he
      rw [he] at h
      exact Option.map_eq_none_iff.1 h
    · rfl
  have hdrop : ((s.answersOf f).drop ((s.answersOf f).length - 15)).find? (fun q => q.1 == n) = none :=
    List.find?_eq_none.2 fun q hq => List.find?_eq_none.1 hnone q (List.mem_of_mem_drop hq)
  rw [State.replayOf, s.keepAnswer_same f n ws]
  simp [List.find?_append, hdrop]

theorem State.replayOf_of_replay {s t : State} (h : t.ag.replay = s.ag.replay) (f n : Nat) : t.replayOf f n = s.replayOf f n := by
  rw [State.replayOf, State.replayOf, h]

end

/-- Settles O8: a repeated request is answered from the store, and a new one's answer is stored under its SEQ, for each source apart. -/
theorem repeatedRequestsAreNotExecuted : Obligations.RepeatedRequestsAreNotExecuted := by
  refine ⟨fun s x l hp hv he hs hr => ?_, fun s x hp hv he hs hr => ?_, fun s f n ws l h hl => ?_, fun s f g n ws h => s.keepAnswer_other f n ws h⟩
  · have hserve := State.mreqServe_stored hp hv he hs hr
    exact ⟨⟨_, congrArg Host.Outcome.next hserve, rfl, s.mrsp_ag x _⟩, ⟨_, congrArg Host.Outcome.next hserve, rfl, s.mrsp_ag x _⟩⟩
  · have hserve := State.mreqServe_runs hp hv he hs hr
    have hnew : (s.mreqRun x).2.replayOf x.src x.seq = none := (State.replayOf_of_replay (s.mreqRun_replay x) ..).trans hr
    have hkept := (State.replayOf_mrsp _ x (s.mreqRun x).1 x.src x.seq).trans
      ((s.mreqRun x).2.replayOf_keepAnswer_new x.src x.seq ((List.range 6).map fun i => word (nth (s.mreqRun x).1 i)) hnew)
    exact ⟨⟨_, congrArg Host.Outcome.next hserve, hkept⟩, ⟨_, congrArg Host.Outcome.next hserve, hkept⟩⟩
  · have hlist : s.answersOf f = l := by rw [State.answersOf, h]
    refine ⟨hlist ▸ s.keepAnswer_same f n ws, ?_⟩
    simp only [List.length_append, List.length_drop, List.length_singleton]
    omega

end Sys2Proof.Machine
end

section
/-! Evidence and keys of the agent, one lemma per case of a command, and O16 (R303, R486, R487). That EVREQ_GO has no effect until an image runs,
and which KEYWRAP consumes the decapsulation key, is log entry 114; FRK_KEYSTAT of another context is log entry 115. -/

namespace Sys2Proof.Machine

theorem State.detect_ag (s : State) (d : Site) (pg det detail : Nat) (ctx : Option Nat) : (s.detect d pg det detail ctx).ag = s.ag :=
  (s.detect_frame d pg det detail ctx).ag_eq (by decide)

theorem State.sendMessage_frame (s : State) (d : Site) (dst vc type seq : Nat) (bs : List Byte) :
    Within [.regs, .aregs, .ports, .agPorts, .flt, .agFlt, .out] s (s.sendMessage d dst vc type seq bs) :=
  State.sendMessage_within (by decide) (by decide) (by decide) (by decide) (by decide) (by decide) (by decide) d dst vc type seq bs (.refl _ s)

/-! ### Evidence -/

section
variable {s : State} {e : EvPending}

theorem State.agDropKey_aregsBut (s : State) : AregsBut [Ia.FRK_STAT_EV_PENDING] s s.agDropKey :=
  (AregsBut.of_aregs rfl : AregsBut _ s (s.setAg fun a => { a with evidence := none, evBuf := [] })).awr (by simp) 0

theorem State.agEvReq_effect (n : Nat) (h : s.ag.image.isSome = true) :
    (s.agEvReq n).ag.evidence = some ⟨n, s.agNonce, s.aon Ia.FRK_EVREQ_HOLD, s.ag.keyPairs + 1, false⟩ ∧
      (s.agEvReq n).ag.keyPairs = s.ag.keyPairs + 1 ∧ (s.agEvReq n).ard Ia.FRK_STAT_EV_PENDING = 1 ∧
      AregsBut [Ia.FRK_STAT_EV_PENDING] s (s.agEvReq n) := by
  have hi : ¬ s.ag.image.isNone = true := by simpa [← Option.isSome_iff_ne_none] using h
  rw [State.agEvReq, if_neg hi]
  exact ⟨rfl, rfl, State.ard_awr_same .., (s.agDropKey_aregsBut.trans (.of_aregs rfl)).awr (by simp) 1⟩

theorem evidenceFormed_held (he : s.ag.evidence = some e) (hf : e.formed = false) (hh : e.hold = true) :
    exec .evidenceFormed s = .next ((s.setAg fun a => { a with evidence := some { e with formed := true } }).setAg fun a =>
      { a with evBuf := mwrite [] 0 (s.evidenceMsg e) }) := by
  show execEvidenceFormed s = _
  simp only [execEvidenceFormed, he, hf, hh, if_true, if_false, Bool.false_eq_true]

theorem evidenceFormed_sent (he : s.ag.evidence = some e) (hf : e.formed = false) (hh : e.hold = false) :
    exec .evidenceFormed s = .next ((s.setAg fun a => { a with evidence := some { e with formed := true } }).sendMessage .agent e.requester 2 tEVIDENCE 0
      (s.evidenceMsg e)) := by
  show execEvidenceFormed s = _
  simp only [execEvidenceFormed, he, hf, hh, if_false, Bool.false_eq_true]

end

/-! ### Keys -/

section
variable {s : State}

/-- A KEYWRAP that fits goes onto the side-band. -/
theorem keywrapCell_fits {kw : KeyWrap} {e : EvPending} (hl : s.isLeaf = false) (he : s.ag.evidence = some e) (hn : e.nonce = kw.nonce)
    (hw : wrapFits e kw = true) (hr : s.ag.resets = []) : ∃ key ws, exec (.keywrapCell kw) s =
      .next ((s.agSpendKey.setAg fun a => { a with xfer := some ⟨kSlot kw, key⟩ }).emit (.key (kSlot kw) ws)) := by
  have hr : s.agSpendKey.ag.resets.isEmpty = true := by
    show s.ag.resets.isEmpty = true
    rw [hr]
    rfl
  simp only [exec, execKeywrapCell, hl, he, hn, hw, hr, if_true, if_false, Bool.false_eq_true, Bool.not_true]
  exact ⟨_, _, rfl⟩

/-- FRK_KEYSTAT after a transfer that the host chip took (R487). -/
def State.keyTaken (s : State) (x : KeyXfer) : State :=
  ((s.setAg fun a => { a with xfer := none }).awr Ia.FRK_KEYSTAT_CONTEXT (bits x.slot 6 3)).awr Ia.FRK_KEYSTAT_KEYS
    (setBit (if s.ard Ia.FRK_KEYSTAT_CONTEXT = bits x.slot 6 3 then s.ard Ia.FRK_KEYSTAT_KEYS else 0) (x.slot % 8) (!bit x.slot 7))

/-- FRK_KEYSTAT after a transfer that the host chip did not take (R487). -/
def State.keyRefused (s : State) (x : KeyXfer) : State :=
  State.detect
    (if bit x.slot 7 then s.setAg fun a => { a with xfer := none } else (s.setAg fun a => { a with xfer := none }).awr Ia.FRK_KEYSTAT_KEYS
      (if s.ard Ia.FRK_KEYSTAT_CONTEXT = bits x.slot 6 3 then
        setBit (if s.ard Ia.FRK_KEYSTAT_CONTEXT = bits x.slot 6 3 then s.ard Ia.FRK_KEYSTAT_KEYS else 0) (x.slot % 8) false
       else s.ard Ia.FRK_KEYSTAT_KEYS))
    .agent (agPg 0xE) 1 x.slot none

variable {x : KeyXfer}

theorem State.keyOutcome_taken (h : s.ag.xfer = some x) : s.keyOutcome true = (s.keyTaken x).agEvent 7 x.slot
    ((s.keyTaken x).ard (TTB_ITER_ITER agTtb)) ((s.keyTaken x).ard (TTB_STEP_NEXT agTtb)) := by
  simp only [State.keyOutcome, h, if_true, State.setAg_ard]
  rfl

theorem State.keyOutcome_refused (h : s.ag.xfer = some x) : s.keyOutcome false = (s.keyRefused x).agEvent 7 x.slot
    ((s.keyRefused x).ard (TTB_ITER_ITER agTtb)) ((s.keyRefused x).ard (TTB_STEP_NEXT agTtb)) := by
  simp only [State.keyOutcome, h, if_false, Bool.false_eq_true, State.setAg_ard]
  rfl

theorem State.keyTaken_aregs (s : State) (x : KeyXfer) : AregsBut [Ia.FRK_KEYSTAT_CONTEXT, Ia.FRK_KEYSTAT_KEYS] s (s.keyTaken x) ∧
    (s.keyTaken x).ard Ia.FRK_KEYSTAT_CONTEXT = bits x.slot 6 3 := by
  refine ⟨((AregsBut.of_aregs rfl : AregsBut _ s (s.setAg fun a => { a with xfer := none })).awr (by simp) _).awr (by simp) _, ?_⟩
  rw [State.keyTaken, State.ard_awr_other _ (by decide), State.ard_awr_same]
  exact Nat.mod_mod ..

theorem State.keyRefused_effect (s : State) (x : KeyXfer) : AregsBut [Ia.FRK_KEYSTAT_KEYS] s (s.keyRefused x) ∧
    (s.keyRefused x).ag = { s.ag with xfer := none } := by
  unfold State.keyRefused
  rw [State.detect_ag]
  have hs : AregsBut [Ia.FRK_KEYSTAT_KEYS] s (s.setAg fun a => { a with xfer := none }) := .of_aregs rfl
  split
  · exact ⟨hs.trans (.of_aregs (State.detect_aregs ..)), rfl⟩
  · exact ⟨(hs.awr (by simp) _).trans (.of_aregs (State.detect_aregs ..)), rfl⟩

end

/-- Settles O16: each case is the effect of its command, within the parts of its row (`exec_reach`). EVREQ_GO before an image and the KEYWRAPs
that consume the key are log entry 114, FRK_KEYSTAT log entry 115. -/
theorem agentKeys : Obligations.AgentKeys := by
  unfold Obligations.AgentKeys
  refine ⟨?_, ?_, ?_, ?_, ?_, ?_, ?_⟩
  · intro s n h
    exact (exec_reach (.evreqGo n) s).next rfl (State.agEvReq_effect n h)
  · intro s e he hf hh
    exact (exec_reach .evidenceFormed s).next (evidenceFormed_held he hf hh) ⟨rfl, rfl, rfl, rfl⟩
  · intro s e he hf hh
    refine (exec_reach .evidenceFormed s).next (evidenceFormed_sent he hf hh) ?_
    rw [(State.sendMessage_frame ..).ag_eq (by decide)]
    exact ⟨rfl, rfl⟩
  · intro s
    exact (exec_reach .decapKeyExpiry s).next rfl ⟨rfl, rfl, State.ard_awr_same .., s.agDropKey_aregsBut⟩
  · intro s kw e hl he hn hw hr
    obtain ⟨key, ws, h⟩ := keywrapCell_fits hl he hn hw hr
    exact (exec_reach (.keywrapCell kw) s).next h ⟨rfl, rfl, ⟨ws, rfl⟩, State.ard_awr_same _ Ia.FRK_STAT_EV_PENDING 0⟩
  · intro s x hx hroom
    obtain ⟨hregs, hctx⟩ := s.keyTaken_aregs x
    obtain ⟨hevent, haregs⟩ := State.agEvent_queued (s := s.keyTaken x) hroom 7 x.slot ((s.keyTaken x).ard (TTB_ITER_ITER agTtb))
      ((s.keyTaken x).ard (TTB_STEP_NEXT agTtb))
    refine (exec_reach (.keySidebandAck true) s).next (congrArg Host.Outcome.next (State.keyOutcome_taken hx)) ⟨?_, ?_, hevent,
      hregs.trans (.of_aregs haregs)⟩
    · exact State.agEvent_keeps _ _ _ _ _ (·.xfer) fun _ _ => rfl
    · rw [State.ard, haregs]
      exact hctx
  · intro s x hx hroom
    obtain ⟨hregs, hag⟩ := s.keyRefused_effect x
    have hroom' : (s.keyRefused x).ag.events.length < 64 := by rwa [hag]
    obtain ⟨hevent, haregs⟩ := State.agEvent_queued hroom' 7 x.slot ((s.keyRefused x).ard (TTB_ITER_ITER agTtb))
      ((s.keyRefused x).ard (TTB_STEP_NEXT agTtb))
    rw [hag] at hevent
    refine (exec_reach .keySidebandTimeout s).next (congrArg Host.Outcome.next (State.keyOutcome_refused hx)) ⟨?_, hevent,
      hregs.trans (.of_aregs haregs)⟩
    rw [State.agEvent_keeps _ _ _ _ _ (·.xfer) fun _ _ => rfl, hag]

end Sys2Proof.Machine
end

section
/-! Beat A at the agent, and the refutation of O14 (R144, R146). -/

namespace Sys2Proof.Machine

/-- Beat A of a job with a fresh list: RUNNING with nothing stopped, from the base that TTB_ARM_AT shows. -/
theorem armStart_fresh {s : State} (n : Nat) (h : s.ard Ia.TTB_STAT_STATE = 2) (hf : s.ag.fresh = true) :
    exec (.armStart .agent n) s = .next (((s.awr Ia.TTB_STAT_STATE 3).setAg fun a => { a with stopInject := false, flipPaused := false }).awr
      Ia.TTB_BASE_BEAT (s.ard Ia.TTB_ARM_AT_BEAT)) := by
  show Host.Outcome.next s.agStart = _
  simp only [State.agStart, h, hf, if_true, State.setAg_ag, State.awr_ag]

/-- An ARMED agent with a fresh list, whose store of registers holds 2^56 for the 56 bits of TTB_ARM_AT. -/
def wideArmed : State :=
  { State.reset.setAg fun a => { a with fresh := true } with aregs := [(Ia.TTB_STAT_STATE.key, 2), (Ia.TTB_ARM_AT_BEAT.key, 2 ^ 56)] }

/-- Refutes O14: its clause of ARM_START has no bound on TTB_ARM_AT, and a write of TTB_BASE keeps 56 bits. From a store that holds 2^56 for
TTB_ARM_AT the base is 0. -/
theorem not_agentTimetable : ¬ Obligations.AgentTimetable := by
  unfold Obligations.AgentTimetable
  rintro ⟨-, -, -, -, -, -, h, -⟩
  obtain ⟨t, ht, -, -, hbase, -⟩ := h wideArmed 0 (by decide) rfl
  rw [armStart_fresh 0 (by decide) rfl] at ht
  rw [← Host.Outcome.next.inj ht, State.ard_awr_same] at hbase
  exact absurd hbase (by decide)

end Sys2Proof.Machine
end

section
/-! The codec unit, the measurement and the certificates of the agent, and O15 (R484 to R486). The latched job and the order of its errors are log
entry 112, the leaf switch log entry 15. -/

namespace Sys2Proof.Machine

/-! ### Folds over the agent's registers -/

/-- One pass over a list sets a field that no other element of the list writes. -/
theorem State.ard_foldl_of_mem {f : State → Nat → State} {g : Fld} {n a : Nat} (hn : ∀ u, (f u n).ard g = a)
    (ho : ∀ u x, x ≠ n → (f u x).ard g = u.ard g) {l : List Nat} (hl : n ∈ l) (s : State) : (l.foldl f s).ard g = a := by
  refine foldl_brings (I := fun _ => True) (P := fun u => u.ard g = a) (fun _ _ _ => trivial) (fun u x hu => ?_) (fun u _ => hn u) hl trivial
  rcases eq_or_ne x n with rfl | hx
  · exact hn u
  · exact (ho u x hx).trans hu

/-! ### The codec unit -/

section
variable {s : State}

/-- The checks of a job read the handles and the STATE of the timetable. -/
theorem State.jobErr_congr {t : State} (ha : t.ag = s.ag) (hs : t.ard Ia.TTB_STAT_STATE = s.ard Ia.TTB_STAT_STATE) (j : List Nat) :
    t.jobErr j = s.jobErr j := by
  have hok (h : Nat) : t.handleOk h = s.handleOk h := by rw [State.handleOk, State.handleOk, ha]
  have hlen (h : Nat) : t.handleLen h = s.handleLen h := by rw [State.handleLen, State.handleLen, hok, ha]
  have hrd (h : Nat) : t.handleRd h = s.handleRd h := by rw [State.handleRd, State.handleRd, ha]
  have hwr (h : Nat) : t.handleWr h = s.handleWr h := by rw [State.handleWr, State.handleWr, ha]
  unfold State.jobErr
  cases MxFmt.ofByte (bits (nth j 2) 63 56) with
  | none => rfl
  | some f => simp only [hok, hlen, hrd, hwr, hs]

/-- A job that passes its checks is latched (R484). -/
def State.jobLatched (s : State) : State :=
  (((s.awr Ia.CDC_JOB_CTRL_DONE 0).awr Ia.CDC_JOB_CTRL_BUSY 1).awr Ia.CDC_JOB_CTRL_ERR 0).setAg fun a => { a with job := s.jobWords }

theorem cdcJobGo_good (hb : s.ard Ia.CDC_JOB_CTRL_BUSY = 0) (hl : s.isLeaf = false) (he : s.jobErr s.jobWords = 0) :
    exec .cdcJobGo s = .next s.jobLatched := by
  have hbusy : s.aon Ia.CDC_JOB_CTRL_BUSY = false := by simp [State.aon, hb]
  have herr : (s.awr Ia.CDC_JOB_CTRL_DONE 0).jobErr s.jobWords = 0 :=
    (State.jobErr_congr (State.awr_ag ..) (State.ard_awr_other s (f := Ia.CDC_JOB_CTRL_DONE) (g := Ia.TTB_STAT_STATE) (by decide) 0) _).trans he
  show Host.Outcome.next s.jobGo = _
  simp only [State.jobGo, hbusy, hl, Bool.or_self, Bool.false_eq_true, if_false, herr, if_true]
  rfl

/-- The end of a job: DONE, not BUSY, and its ERR. -/
theorem State.jobEnd_effect (s : State) {e : Nat} (h : e < 2 ^ Ia.CDC_JOB_CTRL_ERR.w) : (s.jobEnd e).ard Ia.CDC_JOB_CTRL_BUSY = 0 ∧
    (s.jobEnd e).ard Ia.CDC_JOB_CTRL_DONE = 1 ∧ (s.jobEnd e).ard Ia.CDC_JOB_CTRL_ERR = e ∧ (s.jobEnd e).ag = { s.ag with job := [] } := by
  unfold State.jobEnd
  refine ⟨?_, ?_, ?_, rfl⟩ <;> rw [State.setAg_ard]
  · rw [State.ard_awr_same]
    rfl
  · rw [State.ard_awr_other _ (by decide), State.ard_awr_same]
    rfl
  · rw [State.ard_awr_other _ (by decide), State.ard_awr_other _ (by decide), State.ard_awr_same]
    exact Nat.mod_eq_of_lt h

theorem cdcJobDone_good {f : MxFmt} (hb : s.ard Ia.CDC_JOB_CTRL_BUSY = 1) (hf : MxFmt.ofByte (bits (nth s.ag.job 2) 63 56) = some f) :
    exec (.cdcJobDone true) s =
      .next (((List.range (ceilDiv (bits (nth s.ag.job 3) 31 0) 128)).foldl (fun t b => t.jobBlock s.ag.job f b) s).jobEnd 0) := by
  have hbusy : s.aon Ia.CDC_JOB_CTRL_BUSY = true := by simp [State.aon, hb]
  show execCdcJobDone true s = _
  simp only [execCdcJobDone, hbusy, Bool.not_true, Bool.false_eq_true, if_false, hf]

theorem cdcJobDone_bufferError (hb : s.ard Ia.CDC_JOB_CTRL_BUSY = 1) : exec (.cdcJobDone false) s = .next (s.jobEnd 4) := by
  have hbusy : s.aon Ia.CDC_JOB_CTRL_BUSY = true := by simp [State.aon, hb]
  show execCdcJobDone false s = _
  simp only [execCdcJobDone, hbusy, Bool.not_true, Bool.not_false, Bool.false_eq_true, if_false, if_true]

/-! ### The measurement -/

theorem leNat_lt (bs : List Byte) : leNat bs < 2 ^ (8 * bs.length) := by
  induction bs with
  | nil => decide
  | cons b bs ih =>
    have hb := b.isLt
    rw [leNat, List.length_cons, Nat.mul_succ, Nat.pow_add]
    omega

theorem wAt_lt (bs : List Byte) (o : Nat) : wAt bs o < 2 ^ 64 :=
  (leNat_lt _).trans_le (Nat.pow_le_pow_right (by decide) (by rw [List.length_take]; omega))

/-- HOST_FW holds the digest of the image (R485). -/
def State.hostFwTo (s : State) (d : List Byte) : State := (List.range 4).foldl (fun s i => s.awr (Ia.FRK_HOSTFW_DIGEST i) (wAt d (8 * i))) s

theorem State.hostFwTo_digest (s : State) (d : List Byte) {i : Nat} (h : i < 4) :
    (s.hostFwTo d).ard (Ia.FRK_HOSTFW_DIGEST i) = wAt d (8 * i) := by
  refine State.ard_foldl_of_mem (fun u => ?_) (fun u j hj => ?_) (List.mem_range.2 h) s
  · rw [State.ard_awr_same]
    exact Nat.mod_eq_of_lt (wAt_lt d _)
  · refine State.ard_awr_other u ?_ _
    simp only [Fld.key, Ia.FRK_HOSTFW_DIGEST]
    omega

theorem measured_ne_digest (i : Nat) : (Ia.FRK_HOSTFW_DIGEST i).key ≠ Ia.FRK_STAT_MEASURED.key := by
  simp only [Fld.key, Ia.FRK_HOSTFW_DIGEST, Ia.FRK_STAT_MEASURED]
  omega

theorem reset_ne_digest (i : Nat) : (Ia.FRK_HOSTFW_DIGEST i).key ≠ Ia.FRK_STAT_RESET.key := by
  simp only [Fld.key, Ia.FRK_HOSTFW_DIGEST, Ia.FRK_STAT_RESET]
  omega

/-- The end of a measurement fixes HOST_FW and sets MEASURED, whether or not RESET clears too. -/
theorem measDone_effect (h : s.ag.meas.isOpen = true) : ∃ t, exec .measDone s = .next t ∧ t.ag.meas = ⟨false, true, []⟩ ∧
    t.ard Ia.FRK_STAT_MEASURED = 1 ∧
    ∀ i < 4, t.ard (Ia.FRK_HOSTFW_DIGEST i) = wAt (sha256 (s.ag.meas.words.flatMap fun w => leBytes 8 w.toNat)) (8 * i) := by
  refine ⟨s.measDone, rfl, ?_⟩
  set d := sha256 (s.ag.meas.words.flatMap fun w => leBytes 8 w.toNat)
  have hdigest (i : Nat) (hi : i < 4) : (((s.hostFwTo d).setAg fun a => { a with meas := ⟨false, true, []⟩ }).awr Ia.FRK_STAT_MEASURED 1).ard
      (Ia.FRK_HOSTFW_DIGEST i) = wAt d (8 * i) := by
    rw [State.ard_awr_other _ (measured_ne_digest i), State.setAg_ard, s.hostFwTo_digest d hi]
  rw [State.measDone, if_pos h]
  extract_lets u v
  split
  · refine ⟨rfl, ?_, fun i hi => ?_⟩
    · rw [State.ard_awr_other _ (by decide)]
      exact State.ard_awr_same ..
    · rw [State.ard_awr_other _ (reset_ne_digest i)]
      exact hdigest i hi
  · exact ⟨rfl, State.ard_awr_same .., hdigest⟩

end

/-- Settles O15: each case is the effect of its command, within the parts of its row (`exec_reach`). The latched job and the order of its errors
are log entry 112, the leaf switch log entry 15. -/
theorem agentUnits : Obligations.AgentUnits := by
  unfold Obligations.AgentUnits
  refine ⟨?_, ?_, ?_, ?_, ?_, ?_, ?_, ?_⟩
  · intro s hb hl he
    refine (exec_reach .cdcJobGo s).next (cdcJobGo_good hb hl he) ⟨?_, ?_, ?_, rfl, ?_⟩
    · rw [State.jobLatched, State.setAg_ard, State.ard_awr_other _ (by decide), State.ard_awr_same]
      rfl
    · rw [State.jobLatched, State.setAg_ard, State.ard_awr_other _ (by decide), State.ard_awr_other _ (by decide), State.ard_awr_same]
      rfl
    · rw [State.jobLatched, State.setAg_ard, State.ard_awr_same]
      rfl
    · have hdone : AregsBut [Ia.CDC_JOB_CTRL_BUSY, Ia.CDC_JOB_CTRL_DONE, Ia.CDC_JOB_CTRL_ERR] s (s.awr Ia.CDC_JOB_CTRL_DONE 0) :=
        (AregsBut.refl _ s).awr (by simp) 0
      exact ((hdone.awr (f := Ia.CDC_JOB_CTRL_BUSY) (by simp) 1).awr (f := Ia.CDC_JOB_CTRL_ERR) (by simp) 0).trans (.of_aregs rfl)
  · intro s f hb hf
    obtain ⟨hbusy, hdone, herr, hag⟩ := State.jobEnd_effect
      ((List.range (ceilDiv (bits (nth s.ag.job 3) 31 0) 128)).foldl (fun t b => t.jobBlock s.ag.job f b) s) (e := 0) (by decide)
    exact (exec_reach (.cdcJobDone true) s).next (cdcJobDone_good hb hf) ⟨hbusy, hdone, herr, by rw [hag]⟩
  · intro s hb
    obtain ⟨hbusy, hdone, herr, hag⟩ := s.jobEnd_effect (e := 4) (by decide)
    exact (exec_reach (.cdcJobDone false) s).next (cdcJobDone_bufferError hb) ⟨hbusy, hdone, herr, by rw [hag]⟩
  · intro s h
    have hexec : exec .measStart s = .next (s.setAg fun a => { a with meas := ⟨true, false, []⟩ }) :=
      congrArg Host.Outcome.next (by rw [State.measStart, if_neg (by simp [h])])
    exact (exec_reach .measStart s).next hexec ⟨rfl, rfl⟩
  · intro s w h
    have hexec : exec (.measInWrite w) s = .next (s.setAg fun a => { a with meas := { a.meas with words := a.meas.words ++ [w] } }) :=
      congrArg Host.Outcome.next (by rw [State.measIn, if_pos h])
    exact (exec_reach (.measInWrite w) s).next hexec ⟨rfl, h, rfl⟩
  · intro s h
    obtain ⟨t, ht, heffect⟩ := measDone_effect h
    exact (exec_reach .measDone s).next ht heffect
  · intro s
    exact (exec_reach .certLock s).next rfl ⟨State.ard_awr_same .., (AregsBut.refl _ s).awr (by simp) 1⟩
  · intro s
    refine (exec_reach .iaTamperN s).next rfl ⟨?_, ((AregsBut.refl _ s).awr (by simp) 1).trans (.of_aregs (State.detect_aregs ..))⟩
    rw [State.ard, State.detect_aregs]
    exact State.ard_awr_same ..

end Sys2Proof.Machine
end

section
/-! Resets of the host chip and of the agent, and O17 (R466, R470, R489). The end of released resets is log entry 116, what IA_PORST_N keeps log
entry 117. -/

namespace Sys2Proof.Machine

section
variable {s : State}

/-! ### Resets of the host chip (R489) -/

/-- Of the agent, a COMPUTE reset reaches the measurement, the timetable's state and what it has under way. -/
theorem State.hcCompute_effect (s : State) : s.hcCompute.ag.meas = ⟨false, false, []⟩ ∧ s.hcCompute.ag.resets = s.ag.resets ∧
    s.hcCompute.out = s.out ∧ AregsBut [Ia.FRK_STAT_MEASURED, Ia.TTB_STAT_STATE, Ia.TTB_STAT_ARM_ERR] s s.hcCompute := by
  unfold State.hcCompute
  extract_lets s₁ st
  have h₁ : AregsBut [Ia.FRK_STAT_MEASURED, Ia.TTB_STAT_STATE, Ia.TTB_STAT_ARM_ERR] s s₁ :=
    (AregsBut.of_aregs rfl : AregsBut _ s (s.setAg fun a => { a with meas := ⟨false, false, []⟩ })).awr (by simp) 0
  split
  · refine ⟨rfl, rfl, rfl, ?_⟩
    have h₂ : AregsBut [Ia.FRK_STAT_MEASURED, Ia.TTB_STAT_STATE, Ia.TTB_STAT_ARM_ERR] s s₁.agClear := h₁.trans (.of_aregs rfl)
    exact (h₂.awr (f := Ia.TTB_STAT_STATE) (by simp) 0).awr (f := Ia.TTB_STAT_ARM_ERR) (by simp) 6
  split
  · exact ⟨rfl, rfl, rfl, h₁.trans (.of_aregs rfl)⟩
  · exact ⟨rfl, rfl, rfl, h₁⟩

/-- The lines of a reset that is requested are driven and recorded (R489). -/
def State.hcAssert (s : State) (r : HcReset) : State :=
  ((s.setAg fun a => { a with resets := a.resets ++ [r] }).awr Ia.FRK_STAT_RESET 1).showLines.driveLines.detect .agent (agPg 0x16) 0 0 none

theorem State.hcReset_compute (b : Nat) (h : s.ag.resets = []) : s.hcReset 1 b = (s.hcAssert ⟨1, 0, false⟩).hcCompute := by
  simp only [State.hcReset, h, List.any_nil, Bool.false_eq_true, if_false, if_true, Nat.lt_irrefl, Nat.one_ne_zero, false_and, or_self]
  rfl

theorem State.hcAssert_compute (h : s.ag.resets = []) : (s.hcAssert ⟨1, 0, false⟩).ag.resets = [⟨1, 0, false⟩] ∧
    (s.hcAssert ⟨1, 0, false⟩).ard Ia.FRK_STAT_RESET = 1 ∧ (s.hcAssert ⟨1, 0, false⟩).ard Ia.RST_STAT_COMPUTE = 1 ∧
    (s.hcAssert ⟨1, 0, false⟩).out = s.out ++ [.hcLines true 0] := by
  have hag : (s.hcAssert ⟨1, 0, false⟩).ag.resets = [⟨1, 0, false⟩] := by
    rw [State.hcAssert, State.detect_ag]
    show s.ag.resets ++ [_] = _
    rw [h, List.nil_append]
  have hregs : (s.hcAssert ⟨1, 0, false⟩).aregs =
      (((s.awr Ia.FRK_STAT_RESET 1).awr Ia.RST_STAT_COMPUTE 1).awr Ia.RST_STAT_ENGINE 0).aregs := by
    rw [State.hcAssert, State.detect_aregs]
    simp only [State.driveLines, State.showLines, State.setAg_ag, State.awr_ag, h, List.nil_append]
    rfl
  refine ⟨hag, ?_, ?_, ?_⟩
  · rw [State.ard, hregs]
    show State.ard (State.awr ..) _ = _
    rw [State.ard_awr_other _ (by decide), State.ard_awr_other _ (by decide), State.ard_awr_same]
    rfl
  · rw [State.ard, hregs]
    show State.ard (State.awr ..) _ = _
    rw [State.ard_awr_other _ (by decide), State.ard_awr_same]
    rfl
  · rw [State.hcAssert, State.detect_out]
    simp only [State.driveLines, State.showLines, State.setAg_ag, State.awr_ag, h, List.nil_append]
    rfl

/-- A COMPUTE reset of a host chip out of reset (R489). -/
theorem State.hcReset_effect (b : Nat) (h : s.ag.resets = []) : (s.hcReset 1 b).ag.resets = [⟨1, 0, false⟩] ∧
    (s.hcReset 1 b).ard Ia.FRK_STAT_RESET = 1 ∧ (s.hcReset 1 b).ard Ia.RST_STAT_COMPUTE = 1 ∧
    (s.hcReset 1 b).out = s.out ++ [.hcLines true 0] ∧ (s.hcReset 1 b).ag.meas = ⟨false, false, []⟩ := by
  obtain ⟨hresets, hreset, hcompute, hout⟩ := State.hcAssert_compute h
  obtain ⟨hmeas, hkept, hsent, hregs⟩ := (s.hcAssert ⟨1, 0, false⟩).hcCompute_effect
  rw [State.hcReset_compute b h]
  exact ⟨hkept.trans hresets, (hregs _ (by decide)).trans hreset, (hregs _ (by decide)).trans hcompute, hsent.trans hout, hmeas⟩

/-- The oldest asserted reset is released, and its line with it. -/
def State.hcReleased (s : State) : State :=
  s.setAg fun a => { a with resets := changeFirst (fun r => !r.released) (fun r => { r with released := true }) a.resets }

theorem hcResetHoldEnd_one {d b : Nat} (h : s.ag.resets = [⟨d, b, false⟩]) : exec .hcResetHoldEnd s = .next s.hcReleased.driveLines ∧
    s.hcReleased.driveLines.ag.resets = [⟨d, b, true⟩] ∧ s.hcReleased.driveLines.out = s.out ++ [.hcLines false 0] := by
  have hreleased : s.hcReleased.ag.resets = [⟨d, b, true⟩] := by
    show changeFirst _ _ s.ag.resets = _
    rw [h]
    rfl
  refine ⟨?_, hreleased, ?_⟩
  · show execHcResetHoldEnd s = _
    simp only [execHcResetHoldEnd, h, List.any_cons, Bool.not_false, Bool.true_or, if_true]
    rfl
  · rw [State.driveLines, hreleased]
    rfl

/-- The record of a reset that ends. -/
def State.hcLogged (det detail : Nat) (s : State) : State := s.detect .agent (agPg 0x16) det detail none

theorem State.hcLogged_ag (det detail : Nat) (s : State) : (s.hcLogged det detail).ag = s.ag := s.detect_ag ..
theorem State.hcLogged_out (det detail : Nat) (s : State) : (s.hcLogged det detail).out = s.out := s.detect_out ..

/-- HC_RST_DONE ends the released resets, and may clear RESET. -/
theorem hcRstDone_exec (s : State) : exec .hcRstDone s = .next (
    if (s.ag.resets.any fun r => r.released) && (s.hcEnd (State.hcLogged 0 1)).ag.resets.isEmpty &&
      (s.hcEnd (State.hcLogged 0 1)).aon Ia.FRK_STAT_MEASURED
    then (s.hcEnd (State.hcLogged 0 1)).awr Ia.FRK_STAT_RESET 0
    else s.hcEnd (State.hcLogged 0 1)) := rfl

theorem hcDoneTimeout_exec (s : State) : exec .hcDoneTimeout s = .next (s.hcEnd (State.hcLogged 1 0)) := rfl

/-- The end of the released resets, for a record of each that leaves the agent's state. -/
theorem State.hcEnd_effect (s : State) {f : State → State} (hag : ∀ u, (f u).ag = u.ag) (hout : ∀ u, (f u).out = u.out) :
    ((s.hcEnd f).ag.resets = s.ag.resets.filter fun r => !r.released) ∧ (s.hcEnd f).out = s.out := by
  unfold State.hcEnd
  extract_lets gone s₁
  rw [foldl_keeps (f := fun u (_ : HcReset) => f u) (·.ag) (fun u _ => hag u), foldl_keeps (f := fun u (_ : HcReset) => f u) (·.out) fun u _ => hout u]
  exact ⟨rfl, rfl⟩

/-! ### The agent's own reset (R466, R470) -/

/-- A table keeps the entries of a key that its filter lets through. -/
theorem kget_filter_kept {α : Type} (t : List (Nat × α)) {p : Nat × α → Bool} {k : Nat} (h : ∀ v, p (k, v) = true) (d : α) :
    kget (t.filter p) k d = kget t k d := by
  induction t with
  | nil => rfl
  | cons e t ih =>
    obtain ⟨k', v⟩ := e
    by_cases hk : k' = k
    · subst hk
      rw [List.filter_cons_of_pos (h v), kget, kget, if_pos rfl, if_pos rfl]
    · by_cases hp : p (k', v) = true
      · rw [List.filter_cons_of_pos hp, kget, kget, if_neg hk, if_neg hk, ih]
      · rw [List.filter_cons_of_neg hp, kget, if_neg hk, ih]

/-- Before the agent's state goes, its latched tamper clears and its transmitters go idle. -/
def State.porstLines (s : State) : State :=
  let u := s.setRot fun r => { r with tampered := r.tampered.filter (· != s.fidS .agent) }
  (u.portNums .agent).foldl (fun s p => s.emit (.idle .agent p true)) u

theorem State.porstLines_frame (s : State) : Within [.rot, .out] s s.porstLines :=
  Within.foldl (State.setRot_within (by decide) _ (.refl _ s)) fun _ _ h => State.emit_within (by decide) _ h

/-- The agent at its reset value but for what is fused and the memory of the host chip. -/
def State.agPorst (s : State) : State :=
  { s with
    aregs := s.aregs.filter fun e => agFused e.1
    agTime := AgTimeSt.reset
    agPorts := State.reset.agPorts
    agRoute := AgRouteSt.reset
    agFlt := FltSt.reset
    ag := { AgSt.reset with porst := true, deviceId := s.ag.deviceId, hostMem := s.ag.hostMem, keyPairs := s.ag.keyPairs } }

theorem iaPorstN_exec (s : State) : exec .iaPorstN s = .next s.porstLines.agPorst := rfl

/-- STATE of the agent's timekeeper lies on no port page. -/
theorem State.ard_startAttempt_tmk (s : State) (p : Nat) : (s.startAttempt .agent p).ard Ia.TMK_STAT_STATE = s.ard Ia.TMK_STAT_STATE := by
  refine State.rdS_startAttempt_other (d := .agent) s ?_ ?_ ?_ <;>
    simp only [Fld.key, Ia.TMK_STAT_STATE, PRT_STAT_STATE, PRT_STAT_WIDTH, PRT_STAT_ENCRYPTED, prtPgS] <;> omega

theorem State.ag_startAttempt (s : State) (d : Site) (p : Nat) : (s.startAttempt d p).ag = s.ag :=
  (State.startAttempt_within (A := [.regs, .aregs, .ports, .agPorts, .out]) (by decide) (by decide) (by decide) (by decide) (by decide) d p
    (.refl _ s)).ag_eq (by decide)

/-- The agent comes out of reset: its clock, and the beat to acquire. -/
def State.agReleased (s : State) (n : Nat) : State := (s.setAg fun a => { a with porst := false, bclkMhz := n }).awr Ia.TMK_STAT_STATE 1

theorem iaPorstNRelease_held (n : Nat) (h : s.ag.porst = true) : exec (.iaPorstNRelease n) s =
    .next (((s.agReleased n).portNums .agent).foldl (fun s p => s.startAttempt .agent p) (s.agReleased n)) := by
  show execIaPorstNRelease n s = _
  rw [execIaPorstNRelease, if_pos (Or.inl h)]
  rfl

/-- The first write of GEN_FID, which every link that carries is told of. -/
def State.agFidSet (s : State) (v : Nat) : State := (s.awr GEN_FID_FID (v % 2 ^ 14)).awr GEN_FID_VALID 1
def State.agFidTold (s : State) (v : Nat) : State :=
  ((s.agFidSet v).portNums .agent).foldl (fun s p => if s.carries .agent p then s.ctl .agent p 7 (s.identWord .agent p) else s) (s.agFidSet v)

theorem State.agFidTold_aregs (s : State) (v : Nat) : (s.agFidTold v).aregs = (s.agFidSet v).aregs := by
  refine foldl_keeps (·.aregs) (fun u p => ?_) _ _
  split
  · exact (State.ctl_within (A := [.ports, .agPorts, .out]) (by decide) (by decide) (by decide) .agent p 7 _ (.refl _ u)).aregs_eq (by decide)
  · rfl

theorem State.agFidTold_effect (s : State) (v : Nat) : ((s.agFidTold v).busErr 0).ard GEN_FID_FID = v % 2 ^ 14 ∧
    ((s.agFidTold v).busErr 0).ard GEN_FID_VALID = 1 ∧ AregsBut [GEN_FID_FID, GEN_FID_VALID] s ((s.agFidTold v).busErr 0) := by
  have hard (g : Fld) : ((s.agFidTold v).busErr 0).ard g = (s.agFidSet v).ard g := congrArg (kget · g.key g.rst) (s.agFidTold_aregs v)
  have hset : AregsBut [GEN_FID_FID, GEN_FID_VALID] s (s.agFidSet v) :=
    ((AregsBut.refl _ s).awr (f := GEN_FID_FID) (by simp) _).awr (f := GEN_FID_VALID) (by simp) 1
  refine ⟨?_, ?_, fun g hg => (hard g).trans (hset g hg)⟩
  · rw [hard, State.agFidSet, State.ard_awr_other _ (by decide), State.ard_awr_same]
    exact Nat.mod_mod ..
  · rw [hard]
    exact State.ard_awr_same ..

theorem agentFidWrite_first (w : Word) (h : s.ard GEN_FID_VALID = 0) : exec (.agentFidWrite w) s = .next ((s.agFidTold w.toNat).busErr 0) := by
  show Host.Outcome.next (s.setAgFid w.toNat) = _
  have hvalid : s.aon GEN_FID_VALID = false := by simp [State.aon, h]
  simp only [State.setAgFid, hvalid, Bool.false_eq_true, if_false]
  rfl

theorem agentFidWrite_again (w : Word) (h : s.ard GEN_FID_VALID = 1) : exec (.agentFidWrite w) s = .next (s.busErr 3) := by
  show Host.Outcome.next (s.setAgFid w.toNat) = _
  have hvalid : s.aon GEN_FID_VALID = true := by simp [State.aon, h]
  simp only [State.setAgFid, hvalid, if_true]

end

/-- Settles O17: each case is the effect of its command, within the parts of its row (`exec_reach`). The end of released resets and the RESET flag
are log entry 116, what IA_PORST_N keeps log entry 117. -/
theorem agentResets : Obligations.AgentResets := by
  unfold Obligations.AgentResets
  refine ⟨?_, ?_, ?_, ?_, ?_, ?_, ?_, ?_, ?_⟩
  · intro s b h
    exact (exec_reach (.agentRstGo 1 b) s).next rfl (State.hcReset_effect b h)
  · intro s b h
    exact (exec_reach (.rstReqGo 1 b) s).next rfl (State.hcReset_effect b h)
  · intro s d b h
    obtain ⟨hexec, hresets, hout⟩ := hcResetHoldEnd_one h
    exact (exec_reach .hcResetHoldEnd s).next hexec ⟨hresets, hout, rfl⟩
  · intro s _
    obtain ⟨hresets, hout⟩ := s.hcEnd_effect (State.hcLogged_ag 0 1) (State.hcLogged_out 0 1)
    exact (exec_reach .hcRstDone s).next (hcRstDone_exec s) (by split <;> exact ⟨hresets, hout⟩)
  · intro s _
    exact (exec_reach .hcDoneTimeout s).next (hcDoneTimeout_exec s) (s.hcEnd_effect (State.hcLogged_ag 1 0) (State.hcLogged_out 1 0))
  · intro s
    have w := s.porstLines_frame
    refine (exec_reach .iaPorstN s).next (iaPorstN_exec s) ⟨fun f hf => kget_filter_gone _ (fun _ => hf) _, fun f hf => ?_, rfl, ?_, ?_, rfl,
      w.regs_eq (by decide)⟩
    · exact (kget_filter_kept _ (fun _ => hf) _).trans (congrArg (kget · f.key f.rst) (w.aregs_eq (by decide)))
    · show s.porstLines.ag.hostMem = _
      rw [w.ag_eq (by decide)]
    · show s.porstLines.ag.deviceId = _
      rw [w.ag_eq (by decide)]
  · intro s n h
    refine (exec_reach (.iaPorstNRelease n) s).next (iaPorstNRelease_held n h) ?_
    rw [foldl_keeps (·.ag) (fun u p => u.ag_startAttempt .agent p), foldl_keeps (State.ard · Ia.TMK_STAT_STATE) fun u p => u.ard_startAttempt_tmk p]
    exact ⟨rfl, rfl, State.ard_awr_same ..⟩
  · intro s w h
    exact (exec_reach (.agentFidWrite w) s).next (agentFidWrite_first w h) (s.agFidTold_effect w.toNat)
  · intro s w h
    exact (exec_reach (.agentFidWrite w) s).next (agentFidWrite_again w h) ⟨rfl, rfl⟩

end Sys2Proof.Machine
end

section
/-! Answers to SPDM requests, and O36: discovery, digests, certificates, challenges and measurements (R290 to R294, R327). The ERROR codes are log
entry 29. -/

namespace Sys2Proof.Machine

/-! ### Answers -/

/-- A request is answered by one message, which counts as a frame (R327), and the answer may count as an ERROR (R318). -/
structure Answered (s t : State) (m : Msg) : Prop where
  sent : t.out = s.out ++ [m]
  counted : t.rd HPT_FRAMES_TX = (s.rd HPT_FRAMES_TX + 1) % 2 ^ 32
  regs : RegsBut [HPT_FRAMES_TX, FRK_SPDM_ERRORS] s t
  rot : t.rot = s.rot
  beyjo : t.beyjo = s.beyjo

section
variable (s : State) (z code : Nat)

theorem State.frame_regsBut (m : Msg) : RegsBut [HPT_FRAMES_TX] s (s.frame m) :=
  RegsBut.bump (RegsBut.of_regs rfl : RegsBut _ s (s.emit m)) (List.mem_singleton_self _) 1

theorem State.frame_answered (m : Msg) : Answered s (s.frame m) m :=
  ⟨rfl, State.rd_bump_same .., (s.frame_regsBut m).mono (by simp), rfl, rfl⟩

theorem State.spdmErr_answered (err : Nat) : Answered s (s.spdmErr z code err) (.spdm z 0x7F [err, code]) where
  sent := rfl
  counted := (State.rd_bump_other _ (by decide) 1).trans (s.frame_answered _).counted
  regs := (s.frame_answered _).regs.bump (by simp) 1
  rot := rfl
  beyjo := rfl

theorem State.rd_spdmErr (err : Nat) : (s.spdmErr z code err).rd FRK_SPDM_ERRORS = (s.rd FRK_SPDM_ERRORS + 1) % 2 ^ 32 := by
  rw [State.spdmErr, State.rd_bump_same, s.frame_regsBut _ _ (by decide)]
  rfl

theorem State.spdmReply_short {ws : List Nat} (h : ws.length ≤ 8920) : s.spdmReply z code ws = s.frame (.spdm z code ws) := if_pos h

theorem State.spdmReply_answered {ws : List Nat} (h : ws.length ≤ 8920) : Answered s (s.spdmReply z code ws) (.spdm z code ws) := by
  rw [s.spdmReply_short z code h]
  exact s.frame_answered _

/-- A signature that is asked for waits, and the franking engine is BUSY (R290). -/
structure Asked (s t : State) (z code : Nat) (content : List Nat) : Prop where
  queue : t.rot.signQ = s.rot.signQ ++ [⟨z, code, content⟩]
  sessions : t.rot.sessions = s.rot.sessions
  busy : t.rd FRK_STAT_BUSY = 1
  sent : t.out = s.out

theorem State.askSign_asked {s : State} (hr : s.rd FRK_STAT_AK_READY = 1) (hq : s.rot.signQ.length < 16) (content : List Nat) :
    Asked s (s.askSign z code content) z code content := by
  have hno : ¬ (!s.on FRK_STAT_AK_READY || decide (16 ≤ s.rot.signQ.length)) = true := by simp [State.on, hr, hq]
  rw [State.askSign, if_neg hno]
  refine ⟨rfl, rfl, ?_, rfl⟩
  rw [State.showRot, State.rd_wr_other _ (by decide), State.rd_wr_other _ (by decide), State.rd_wr_same]
  rfl

end

section
variable {s : State} {z code : Nat} {f : State → State}

theorem State.inSpdm_ok (h : s.spdmOk z = true) : s.inSpdm z code f = f s := if_pos h
theorem State.inSpdm_unknown (h : s.spdmOk z = false) : s.inSpdm z code f = s.spdmErr z code 2 := if_neg (by simp [h])
theorem State.needAk_ready (h : s.rd FRK_STAT_AK_READY = 1) : s.needAk z code f = f s := if_pos (by simp [State.on, h])
theorem State.needAk_busy (h : s.rd FRK_STAT_AK_READY = 0) : s.needAk z code f = s.spdmErr z code 3 := if_neg (by simp [State.on, h])

/-! ### Lengths of answers -/

@[simp] theorem length_nats (l : List Byte) : (nats l).length = l.length := List.length_map ..

@[simp] theorem length_sha256 (l : List Byte) : (sha256 l).length = 32 := by
  unfold sha256
  simp [beBytes, List.flatMap_cons]

/-- A block of indices 1 to 7 is the index and a digest (R294). -/
theorem length_measBlock_le {i : Nat} (h : i ≤ 7) {bs : List Byte} (hb : s.measBlock z i = some bs) : bs.length ≤ 33 := by
  rw [State.measBlock, if_pos h, Option.map_eq_some_iff] at hb
  obtain ⟨d, -, rfl⟩ := hb
  simp

theorem length_measBlocks_le {n : Nat} (h : n ≤ 7) : (((askedIndices n).filterMap (s.measBlock z)).flatten).length ≤ 33 := by
  have hasked : askedIndices n = [n] := if_neg (by omega)
  rw [hasked, List.filterMap_cons, List.filterMap_nil]
  split
  · exact Nat.zero_le _
  · rename_i bs hbs
    simpa using length_measBlock_le h hbs

/-- A portion of the certificate chain with its two lengths (R293). -/
theorem length_portion_le {n o : Nat} (h : n ≤ 8000) (chain : List Byte) (a b : Nat) :
    (nats (leBytes 2 a ++ leBytes 2 b ++ (chain.drop o).take n)).length ≤ 8920 := by
  simp
  omega

end

/-- Settles O36: each case is the effect of its command, within the parts of its row (`exec_reach`). The ERROR codes are log entry 29. -/
theorem spdmDiscovery : Obligations.SpdmDiscovery := by
  unfold Obligations.SpdmDiscovery
  refine ⟨?_, ?_, ?_, ?_, ?_, ?_, ?_, ?_, ?_, ?_, ?_, ?_, ?_, ?_⟩
  · intro s z h
    refine (exec_reach (.getVersion z) s).next (congrArg Host.Outcome.next (State.inSpdm_ok h)) ?_
    exact ⟨rfl, State.rd_bump_same .., s.frame_regsBut _⟩
  · intro s z h
    refine (exec_reach (.getVersion z) s).next (congrArg Host.Outcome.next (State.inSpdm_unknown h)) ?_
    exact ⟨rfl, s.rd_spdmErr ..⟩
  · intro s z h
    refine (exec_reach (.getCapabilities z) s).next (congrArg Host.Outcome.next (State.inSpdm_ok h)) ?_
    rw [s.spdmReply_short z _ (by simp)]
    exact ⟨rfl, State.rd_bump_same .., s.frame_regsBut _⟩
  · intro s z h
    refine (exec_reach (.negotiateAlgorithms z true) s).next (congrArg Host.Outcome.next (State.inSpdm_ok h)) ?_
    have a := s.spdmReply_answered z 0xE3 (ws := []) (Nat.zero_le _)
    exact ⟨a.sent, a.counted⟩
  · intro s z h
    exact (exec_reach (.negotiateAlgorithms z false) s).next (congrArg Host.Outcome.next (State.inSpdm_ok h)) rfl
  · intro s z h hr
    refine (exec_reach (.getDigests z) s).next (congrArg Host.Outcome.next ((State.inSpdm_ok h).trans (State.needAk_ready hr))) ?_
    have a := s.spdmReply_answered z 0x81 (ws := 1 :: nats (sha256 (Config.certChain s.rot.ak))) (by simp)
    exact ⟨a.sent, a.counted⟩
  · intro s z h hr
    exact (exec_reach (.getDigests z) s).next (congrArg Host.Outcome.next ((State.inSpdm_ok h).trans (State.needAk_busy hr))) rfl
  · intro s z k o n h hr hk
    refine (exec_reach (.getCertificate z k o n) s).next (congrArg Host.Outcome.next ((State.inSpdm_ok h).trans (State.needAk_ready hr))) ?_
    dsimp only
    rw [if_pos (Or.inl hk)]
    exact (s.spdmErr_answered ..).sent
  · intro s z o n h hr hn
    refine (exec_reach (.getCertificate z 0 o n) s).next (congrArg Host.Outcome.next ((State.inSpdm_ok h).trans (State.needAk_ready hr)))
      ⟨fun ho => ?_, fun ho => ?_⟩ <;> dsimp only
    · rw [if_neg (by omega)]
      exact (s.spdmReply_answered z 0x82 (length_portion_le hn ..)).sent
    · rw [if_pos (Or.inr ho)]
      exact (s.spdmErr_answered ..).sent
  · intro s z n h hr hq
    have a := State.askSign_asked z 0x83 hr hq (nats (leBytes 32 n ++ sha256 (Config.certChain s.rot.ak) ++ s.stateBlock))
    refine (exec_reach (.challenge z 0 n) s).next (congrArg Host.Outcome.next ((State.inSpdm_ok h).trans (if_neg (by simp)))) ?_
    exact ⟨a.queue, a.busy, a.sent⟩
  · intro s z k n h hk
    exact (exec_reach (.challenge z k n) s).next (congrArg Host.Outcome.next ((State.inSpdm_ok h).trans (if_pos hk))) ⟨rfl, rfl⟩
  · intro s z n h hb hr hq
    have a := State.askSign_asked z 0xE0 hr hq (nats ((askedIndices n).filterMap (s.measBlock z)).flatten)
    refine (exec_reach (.getMeasurements z n true) s).next (congrArg Host.Outcome.next (State.inSpdm_ok h)) ?_
    dsimp only
    rw [if_neg (by simp [hb]), if_pos rfl]
    exact ⟨a.queue, a.busy, a.sent⟩
  · intro s z n h hn _ hb
    have a := s.spdmReply_answered z 0xE0 (ws := nats ((askedIndices n).filterMap (s.measBlock z)).flatten)
      (by rw [length_nats]; exact (length_measBlocks_le hn).trans (by decide))
    refine (exec_reach (.getMeasurements z n false) s).next (congrArg Host.Outcome.next (State.inSpdm_ok h)) ?_
    dsimp only
    rw [if_neg (by simp [hb]), if_neg (by decide)]
    exact ⟨a.sent, a.rot⟩
  · intro s z n b h hb
    refine (exec_reach (.getMeasurements z n b) s).next (congrArg Host.Outcome.next (State.inSpdm_ok h)) ?_
    dsimp only
    rw [if_pos (by rw [hb]; rfl)]
    exact (s.spdmErr_answered ..).sent

end Sys2Proof.Machine
end

section
/-! Secure SPDM sessions, and O37 (R291, R292, R297, R298). The ERROR codes 0x0A and 2 are log entry 29. -/

namespace Sys2Proof.Machine

/-! ### The session of an ID -/

section
variable {s : State} {z code : Nat} {x : SpdmSess}

theorem State.spdm_of_sessions {t : State} (h : t.rot.sessions = s.rot.sessions) (z : Nat) : t.spdm z = s.spdm z := by
  rw [State.spdm, State.spdm, h]

theorem Answered.spdm {t : State} {m : Msg} (a : Answered s t m) (z : Nat) : t.spdm z = s.spdm z := State.spdm_of_sessions (by rw [a.rot]) z

theorem State.spdm_id (h : s.spdm z = some x) : x.id = z := by simpa using List.find?_some h

/-- An update of a session that keeps its ID is what its ID finds. -/
theorem State.spdm_setSpdm (h : s.spdm z = some x) {f : SpdmSess → SpdmSess} (hf : ∀ y, (f y).id = y.id) : (s.setSpdm z f).spdm z = some (f x) := by
  have hsel : (fun y : SpdmSess => y.id == z) ∘ (fun y => if y.id == z then f y else y) = fun y => y.id == z := funext fun y => by
    dsimp only [Function.comp]
    split
    · rw [hf]
    · rfl
  show (s.rot.sessions.map fun y => if y.id == z then f y else y).find? (fun y => y.id == z) = _
  rw [List.find?_map, hsel, ← State.spdm, h]
  simp [State.spdm_id h]

theorem State.inSecure_open (h : s.spdm z = some x) (f : SpdmSess → State → State) : s.inSecure z code f = f x s := by rw [State.inSecure, h]

theorem State.inSecure_none (h : s.spdm z = none) (f : SpdmSess → State → State) : s.inSecure z code f = s.spdmErr z code 2 := by
  rw [State.inSecure, h]
  rfl

theorem State.inFinished_open (h : s.spdm z = some x) (hf : x.finished = true) (f : State → State) : s.inFinished z code f = f s := by
  rw [State.inFinished, State.inSecure_open h, if_pos hf]

/-- The OWNER credential is the host port's (R328). -/
theorem State.ownerCred_frame (s : State) (z : Nat) : Within [.beyjo] s (s.ownerCred z) := State.ownerCred_within (by decide) z (.refl _ s)

/-! ### The end of a session -/

theorem State.closeWhere_frame (s : State) (p : Sess → Bool) : Within [.regs, .tile, .beyjo, .rst, .pair] s (s.closeWhere p) :=
  State.closeWhere_within (by decide) (by decide) (by decide) (by decide) (by decide) p (.refl _ s)

theorem State.endSpdm_none (h : s.spdm z = none) : s.endSpdm z = s := by rw [State.endSpdm, h]

theorem State.endAdmission_rot (s : State) : s.endAdmission.rot = { s.rot with admission := none, cak := none } := by
  rw [State.endAdmission, State.withdrawCak, (State.closeWhere_frame ..).rot_eq (by decide)]
  rfl

/-- The root of trust after the end of a session, but for what the admission session takes with it. -/
def RotSt.without (r : RotSt) (z : Nat) : RotSt :=
  { r with
    sessions := r.sessions.filter (fun x => x.id != z)
    signQ := match r.signQ with
      | [] => []
      | q :: qs => q :: qs.filter fun y => y.sess != z }

/-- The end of a session takes it from the list; the admission session takes the CAK with it (R297). -/
theorem State.endSpdm_rot (h : s.spdm z = some x) : (s.endSpdm z).rot =
    if s.rot.admission = some z then { s.rot.without z with admission := none, cak := none } else s.rot.without z := by
  simp only [State.endSpdm, h]
  set u : State := ((s.setRot fun r => r.without z).dropCreds fun c => c.role == 3 && c.spdm == z).closeWhere fun x => x.role == 3 && x.spdm == z
  have hu : u.rot = s.rot.without z := by
    unfold u
    rw [(State.closeWhere_frame ..).rot_eq (by decide)]
    rfl
  show (if u.rot.admission = some z then u.endAdmission else u).rot = _
  have hadm : u.rot.admission = s.rot.admission := by rw [hu]; rfl
  rw [hadm]
  split
  · rw [u.endAdmission_rot, hu]
  · exact hu

theorem State.endSpdm_gone (s : State) (z : Nat) : (s.endSpdm z).spdm z = none := by
  cases h : s.spdm z with
  | none => rwa [State.endSpdm_none h]
  | some x =>
    have hlist : (s.endSpdm z).rot.sessions = s.rot.sessions.filter fun x => x.id != z := by
      rw [State.endSpdm_rot h]
      split <;> rfl
    rw [State.spdm, hlist]
    simp [List.find?_eq_none]

theorem State.endSpdm_frame (s : State) (z : Nat) : Within [.regs, .tile, .rot, .beyjo, .rst, .pair] s (s.endSpdm z) :=
  State.endSpdm_within (by decide) (by decide) (by decide) (by decide) (by decide) (by decide) z (.refl _ s)

/-! ### KEY_EXCHANGE -/

/-- The session that a KEY_EXCHANGE opens, before its signature is asked for. -/
def State.exchanged (s : State) (z : Nat) (e : List Byte) : State :=
  s.free.2.setRot fun q => { q with
    sessions := q.sessions ++ [⟨z, false, none, Config.exportSecret (Config.kemEncap e s.free.1).2 z, s.time.nowNs, 0⟩] }

theorem keyExchange_opens (e : List Byte) (hz : z ≠ 0) (h : s.spdm z = none) (hroom : s.rot.sessions.length < 8)
    (hdone : s.rd LCS_STAT_TRANSITION_DONE = 0) (hr : s.rd FRK_STAT_AK_READY = 1) (hq : s.rot.signQ.length < 16) : exec (.keyExchange z e) s =
      .next ((s.exchanged z e).askSign z 0xE4 (nats (fit 1568 (Config.kemEncap e s.free.1).1))) := by
  show execKeyExchange z e s = _
  have h₁ : ¬ (z = 0 ∨ (s.spdm z).isSome = true) := by simp [hz, h]
  have h₃ : ¬ s.on LCS_STAT_TRANSITION_DONE = true := by simp [State.on, hdone]
  have h₄ : ¬ (!s.on FRK_STAT_AK_READY || decide (16 ≤ s.rot.signQ.length)) = true := by simp [State.on, hr, hq]
  rw [execKeyExchange, if_neg h₁, if_neg (Nat.not_le.2 hroom), if_neg h₃, if_neg h₄]
  rfl

theorem keyExchange_full (e : List Byte) (hz : z ≠ 0) (h : s.spdm z = none) (hfull : 8 ≤ s.rot.sessions.length) : exec (.keyExchange z e) s =
    .next (s.spdmErr 0 0xE4 eSessionLimit) := by
  show execKeyExchange z e s = _
  rw [execKeyExchange, if_neg (by simp [hz, h]), if_pos hfull]

theorem State.spdm_exchanged (e : List Byte) (h : s.spdm z = none) : (s.exchanged z e).spdm z =
    some ⟨z, false, none, Config.exportSecret (Config.kemEncap e s.free.1).2 z, s.time.nowNs, 0⟩ := by
  have hnone : s.rot.sessions.find? (fun x => x.id == z) = none := h
  show (s.rot.sessions ++ [_]).find? (fun x : SpdmSess => x.id == z) = _
  rw [List.find?_append, hnone]
  simp

/-! ### FINISH -/

/-- The session that a FINISH opens, before its answer. -/
def State.finished (s : State) (z : Nat) : State :=
  (((s.setSpdm z fun x => { x with finished := true, lastNs := s.time.nowNs }).bump FRK_SPDM_OPENED 1).ownerCred z).showRot

theorem finish_good (h : s.spdm z = some x) (hf : x.finished = false) : exec (.finish z true) s = .next ((s.finished z).spdmReply z 0xE5 []) :=
  congrArg Host.Outcome.next ((State.inSecure_open h _).trans ((if_neg (by simp [hf])).trans (if_pos rfl)))

theorem finish_bad (h : s.spdm z = some x) (hf : x.finished = false) : exec (.finish z false) s = .next ((s.endSpdm z).spdmErr 0 0xE5 eDecrypt) :=
  congrArg Host.Outcome.next ((State.inSecure_open h _).trans ((if_neg (by simp [hf])).trans (if_neg (by decide))))

theorem State.finished_effect (h : s.spdm z = some x) : (s.finished z).spdm z = some { x with finished := true, lastNs := s.time.nowNs } ∧
    (s.finished z).out = s.out ∧ (s.finished z).rd FRK_SPDM_OPENED = (s.rd FRK_SPDM_OPENED + 1) % 2 ^ 32 := by
  set u : State := (s.setSpdm z fun x => { x with finished := true, lastNs := s.time.nowNs }).bump FRK_SPDM_OPENED 1
  have w : Within [.beyjo, .regs] u (s.finished z) :=
    State.wr_within (by decide) _ _ (State.wr_within (by decide) _ _ ((u.ownerCred_frame z).mono (by decide)))
  refine ⟨?_, w.out_eq (by decide), ?_⟩
  · rw [State.spdm_of_sessions (s := u) (by rw [w.rot_eq (by decide)])]
    exact State.spdm_setSpdm h fun _ => rfl
  · rw [State.finished, State.showRot, State.rd_wr_other _ (by decide), State.rd_wr_other _ (by decide), (u.ownerCred_frame z).rd_eq (by decide)]
    exact State.rd_bump_same ..

end

/-- Settles O37: each case is the effect of its command, within the parts of its row (`exec_reach`). The ERROR codes 0x0A and 2 are log entry 29. -/
theorem spdmSessions : Obligations.SpdmSessions := by
  unfold Obligations.SpdmSessions
  refine ⟨?_, ?_, ?_, ?_, ?_, ?_, ?_, ?_, ?_, ?_, ?_⟩
  · intro s z e hz h hroom hdone hr hq
    have a := State.askSign_asked (s := s.exchanged z e) z 0xE4 hr hq (nats (fit 1568 (Config.kemEncap e s.free.1).1))
    have hsess := (State.spdm_of_sessions a.sessions z).trans (State.spdm_exchanged e h)
    refine (exec_reach (.keyExchange z e) s).next (keyExchange_opens e hz h hroom hdone hr hq) ⟨?_, ?_, ?_, ?_, a.sent⟩
    · rw [hsess]
      rfl
    · rw [hsess]
      rfl
    · rw [a.sessions]
      exact List.length_append
    · rw [a.queue]
      exact List.length_append
  · intro s z e hz h hfull
    exact (exec_reach (.keyExchange z e) s).next (keyExchange_full e hz h hfull) ⟨rfl, rfl⟩
  · intro s z x h hf
    obtain ⟨hsess, hout, hopened⟩ := State.finished_effect h
    have a := (s.finished z).spdmReply_answered z 0xE5 (ws := []) (Nat.zero_le _)
    refine (exec_reach (.finish z true) s).next (finish_good h hf) ⟨?_, ?_, ?_⟩
    · rw [a.spdm, hsess]
      rfl
    · rw [a.sent, hout]
    · rw [a.regs _ (by decide), hopened]
  · intro s z x h hf
    exact (exec_reach (.finish z false) s).next (finish_bad h hf) (s.endSpdm_gone z)
  · intro s z x h hf
    have a := (s.setSpdm z fun x => { x with lastNs := s.time.nowNs }).spdmReply_answered z 0xE8 (ws := []) (Nat.zero_le _)
    refine (exec_reach (.heartbeat z) s).next (congrArg Host.Outcome.next (State.inFinished_open h hf _)) ⟨?_, a.sent, a.counted⟩
    rw [a.spdm]
    exact State.spdm_setSpdm h fun _ => rfl
  · intro s z h
    exact (exec_reach (.heartbeat z) s).next (congrArg Host.Outcome.next (State.inSecure_none h _)) ⟨rfl, rfl⟩
  · intro s z x h hf
    have a := (s.setSpdm z fun x => { x with updates := x.updates + 1 }).spdmReply_answered z 0xE9 (ws := []) (Nat.zero_le _)
    refine (exec_reach (.keyUpdate z) s).next (congrArg Host.Outcome.next (State.inFinished_open h hf _)) ⟨?_, a.sent⟩
    rw [a.spdm]
    exact State.spdm_setSpdm h fun _ => rfl
  · intro s z x h hf
    have a := s.spdmReply_answered z 0xEC (ws := []) (Nat.zero_le _)
    refine (exec_reach (.endSession z) s).next (congrArg Host.Outcome.next (State.inFinished_open h hf _)) ⟨State.endSpdm_gone .., ?_⟩
    rw [(State.endSpdm_frame ..).out_eq (by decide), a.sent]
  · intro s z x h ha
    refine (exec_reach (.spdmSessionTimeout z) s).next rfl ⟨s.endSpdm_gone z, ?_, (s.endSpdm_frame z).out_eq (by decide)⟩
    rw [State.endSpdm_rot h, if_neg ha]
    rfl
  · intro s z x h ha
    refine (exec_reach (.spdmSessionTimeout z) s).next rfl ⟨s.endSpdm_gone z, ?_, ?_⟩ <;> rw [State.endSpdm_rot h, if_pos ha]
  · intro s z h
    exact (exec_reach (.spdmSessionTimeout z) s).next (congrArg Host.Outcome.next (State.endSpdm_none h)) rfl

end Sys2Proof.Machine
end

section
/-! Chunks, encapsulated requests, signatures, admission and credentials, and O38 (R290, R292, R293, R297, R298, R318, R327, R328). The ERROR codes
are log entry 29, the bytes that CHUNK_SEND collects log entry 34, the SIGNED and VERIFIED counts log entry 83. -/

namespace Sys2Proof.Machine

/-! ### Vendor commands (R298, R301) -/

section
variable (s : State) (z cmd c : Nat)

theorem State.vendor_answered {st : Nat} {rest : List Nat} (h : rest.length ≤ 8917) :
    Answered s (s.vendor z cmd st rest) (.spdm z 0xFE ([cmd % 256, cmd / 256, st] ++ rest)) :=
  s.spdmReply_answered z 0xFE (by simp only [List.length_append, List.length_cons, List.length_nil]; omega)

/-- A refused vendor command counts, and its code is shown. -/
structure Refused (s t : State) (z cmd st : Nat) : Prop where
  sent : t.out = s.out ++ [.spdm z 0xFE [cmd % 256, cmd / 256, st]]
  code : t.rd FRK_RELEASE_LAST_CODE = st % 2 ^ 8
  counted : t.rd FRK_RELEASE_REFUSED = (s.rd FRK_RELEASE_REFUSED + 1) % 2 ^ 16
  rot : t.rot = s.rot
  beyjo : t.beyjo = s.beyjo

theorem State.vendorNo_refused (st : Nat) : Refused s (s.vendorNo z cmd c st) z cmd st := by
  have a := (((s.bump FRK_RELEASE_REFUSED 1).wr FRK_RELEASE_LAST_CODE st).wr FRK_RELEASE_LAST_CTX c).vendor_answered z cmd (st := st) (rest := [])
    (Nat.zero_le _)
  refine ⟨a.sent, (a.regs _ (by decide)).trans ?_, (a.regs _ (by decide)).trans ?_, a.rot, a.beyjo⟩
  · rw [State.rd_wr_other _ (by decide), State.rd_wr_same]
    rfl
  · rw [State.rd_wr_other _ (by decide), State.rd_wr_other _ (by decide)]
    exact State.rd_bump_same ..

end

section
variable {s : State} {z : Nat} {x : SpdmSess}

/-! ### Chunks (R292, R327) -/

theorem find?_filter_bne {β : Type} (l : List (Nat × β)) (h : Nat) : (l.filter fun y => y.1 != h).find? (fun y => y.1 == h) = none := by
  simp [List.find?_eq_none]

/-- The first chunk of a request that does not end with it. -/
def State.chunkKept (s : State) (h : Nat) (d : List Byte) : State :=
  (s.setRot fun r => { r with chunksIn := r.chunksIn.filter fun x => x.1 != h }).setRot fun r => { r with chunksIn := r.chunksIn ++ [(h, 1, d)] }

theorem chunkSend_first {h : Nat} {d : List Byte} (hz : s.spdmOk z = true) (hn : s.rot.chunksIn.find? (fun x => x.1 == h) = none)
    (hd : d.length ≤ 65536) : exec (.chunkSend z h 0 false d) s =
      .next ((s.chunkKept h d).spdmReply z 0x85 (nats (leBytes 1 h ++ leBytes 2 0))) := by
  show execChunkSend z h 0 false d s = _
  rw [execChunkSend, State.inSpdm_ok hz]
  simp only [hn, ne_eq, not_true_eq_false, if_false, List.nil_append, if_neg (Nat.not_lt.2 hd), Bool.false_eq_true, Nat.zero_add]
  rfl

theorem chunkSend_late {h n : Nat} (b : Bool) (d : List Byte) (hz : s.spdmOk z = true) (hn : s.rot.chunksIn.find? (fun x => x.1 == h) = none)
    (h0 : n ≠ 0) : exec (.chunkSend z h n b d) s =
      .next ((s.setRot fun r => { r with chunksIn := r.chunksIn.filter fun x => x.1 != h }).spdmErr z 0x85 eInvalidRequest) := by
  show execChunkSend z h n b d s = _
  rw [execChunkSend, State.inSpdm_ok hz]
  simp only [hn, if_pos h0]

/-- A large response goes with its last chunk. -/
def State.chunkTaken (s : State) (h n : Nat) (x : Nat × List Nat) : State :=
  if x.2.length ≤ 8920 * (n + 1) then s.setRot fun r => { r with chunksOut := r.chunksOut.filter fun y => y.1 != h } else s

theorem chunkGet_part {h n : Nat} {x : Nat × List Nat} (hz : s.spdmOk z = true) (hx : s.rot.chunksOut.find? (fun x => x.1 == h) = some x)
    (hn : 8920 * n < x.2.length) : exec (.chunkGet z h n) s = .next ((s.chunkTaken h n x).frame (.spdm z 0x86 ((x.2.drop (8920 * n)).take 8920))) := by
  have hpart : ¬ ((x.2.drop (8920 * n)).take 8920).isEmpty = true := by
    rw [List.isEmpty_iff_length_eq_zero, List.length_take, List.length_drop]
    omega
  show execChunkGet z h n s = _
  rw [execChunkGet, State.inSpdm_ok hz]
  simp only [hx, if_neg hpart]
  rfl

theorem chunkGet_none {h n : Nat} (hz : s.spdmOk z = true) (hx : s.rot.chunksOut.find? (fun x => x.1 == h) = none) :
    exec (.chunkGet z h n) s = .next (s.spdmErr z 0x86 eInvalidRequest) := by
  show execChunkGet z h n s = _
  rw [execChunkGet, State.inSpdm_ok hz]
  simp only [hx]

/-! ### The requester's certificate -/

/-- A requester is mutually authenticated (R292, R298). -/
def State.authenticated (s : State) (z q : Nat) : State :=
  ((s.setSpdm z fun x => { x with root := some q }).bump FRK_SIGN_VERIFIED 1).ownerCred z

theorem deliverEncapsulatedResponse_good (q : Nat) (h : s.spdm z = some x) : exec (.deliverEncapsulatedResponse z true q) s =
    .next ((s.authenticated z q).spdmReply z 0xEB []) :=
  congrArg Host.Outcome.next ((State.inSecure_open h _).trans (if_pos rfl))

theorem State.authenticated_effect (q : Nat) (h : s.spdm z = some x) : (s.authenticated z q).spdm z = some { x with root := some q } ∧
    (s.authenticated z q).out = s.out ∧ (s.authenticated z q).rd FRK_SIGN_VERIFIED = (s.rd FRK_SIGN_VERIFIED + 1) % 2 ^ 32 := by
  have w := ((s.setSpdm z fun x => { x with root := some q }).bump FRK_SIGN_VERIFIED 1).ownerCred_frame z
  refine ⟨?_, w.out_eq (by decide), (w.rd_eq (by decide) _).trans (State.rd_bump_same ..)⟩
  rw [State.authenticated, State.spdm_of_sessions (congrArg RotSt.sessions (w.rot_eq (by decide)))]
  exact State.spdm_setSpdm h fun _ => rfl

/-! ### Signatures (R290, R318) -/

/-- A short or long answer leaves the queue of signatures and what does not count answers. -/
theorem State.spdmReply_signQ (s : State) (z code : Nat) (ws : List Nat) : (s.spdmReply z code ws).rot.signQ = s.rot.signQ := by
  unfold State.spdmReply
  split <;> rfl

theorem State.spdmReply_regsBut (s : State) (z code : Nat) (ws : List Nat) : RegsBut [HPT_FRAMES_TX, FRK_SPDM_ERRORS] s (s.spdmReply z code ws) := by
  unfold State.spdmReply
  split
  · exact (s.frame_regsBut _).mono (by simp)
  · extract_lets h
    have hframe := (s.setRot fun r => { r with chunksOut := r.chunksOut ++ [(h, ws)] }).frame_regsBut (.spdm z 0x7F [eLargeResponse, code, h])
    exact RegsBut.bump ((RegsBut.of_regs rfl).trans (hframe.mono (by simp))) (by simp) 1

/-- The franking engine has signed the first request and takes the next. -/
def State.signed (s : State) (l : List SignReq) (us : Nat) : State :=
  let u := (((s.setRot fun r => { r with signQ := l }).bump FRK_SIGN_SIGNED 1).atLeast FRK_SIGTIME_MAX_US us).showRot
  u.wr FRK_STAT_BUSY (b2n (!l.isEmpty || !u.on FRK_STAT_AK_READY))

theorem signatureDone_next (us : Nat) {q : SignReq} {l : List SignReq} (h : s.rot.signQ = q :: l) : exec (.signatureDone us) s =
    .next (if (s.signed l us).spdmOk q.sess then (s.signed l us).spdmReply q.sess q.code (q.content ++ (s.signed l us).akSign q.content)
      else s.signed l us) := by
  show execSignatureDone us s = _
  rw [execSignatureDone, h]
  rfl

theorem State.signed_effect (s : State) (l : List SignReq) (us : Nat) : (s.signed l us).rot.signQ = l ∧
    (s.signed l us).rd FRK_SIGN_SIGNED = (s.rd FRK_SIGN_SIGNED + 1) % 2 ^ 32 ∧ (s.signed l us).rd FRK_STAT_QUEUE = (l.length - 1) % 256 := by
  unfold State.signed
  extract_lets u
  set b : State := (s.setRot fun r => { r with signQ := l }).bump FRK_SIGN_SIGNED 1
  have hmax : RegsBut [FRK_SIGTIME_MAX_US] b (b.atLeast FRK_SIGTIME_MAX_US us) ∧ (b.atLeast FRK_SIGTIME_MAX_US us).rot = b.rot := by
    unfold State.atLeast
    split
    · exact ⟨(RegsBut.refl _ b).wr (by simp) us, rfl⟩
    · exact ⟨.refl _ b, rfl⟩
  obtain ⟨hregs, hrot⟩ := hmax
  refine ⟨congrArg RotSt.signQ hrot, ?_, ?_⟩
  · rw [State.rd_wr_other _ (by decide)]
    show (State.showRot _).rd _ = _
    rw [State.showRot, State.rd_wr_other _ (by decide), State.rd_wr_other _ (by decide), hregs _ (by decide)]
    exact State.rd_bump_same ..
  · rw [State.rd_wr_other _ (by decide)]
    show (State.showRot _).rd _ = _
    rw [State.showRot, State.rd_wr_same, hrot]
    rfl

/-- The AK certificate is signed (R293). -/
def State.akReady (s : State) (ms : Nat) : State :=
  (((s.wr FRK_STAT_AK_READY 1).wr FRK_SIGTIME_AK_CERT_MS ms).bump FRK_SIGN_SIGNED 1).wr FRK_STAT_BUSY (b2n !s.rot.signQ.isEmpty)

theorem akCertSigned_first (ms : Nat) (h : s.rd FRK_STAT_AK_READY = 0) : exec (.akCertSigned ms) s = .next (s.akReady ms) :=
  congrArg Host.Outcome.next (if_neg (by simp [State.on, h]))

theorem State.akReady_effect (s : State) (ms : Nat) : (s.akReady ms).rd FRK_STAT_AK_READY = 1 ∧
    (s.akReady ms).rd FRK_SIGTIME_AK_CERT_MS = ms % 2 ^ 32 ∧ (s.akReady ms).rd FRK_SIGN_SIGNED = (s.rd FRK_SIGN_SIGNED + 1) % 2 ^ 32 ∧
    RegsBut [FRK_STAT_AK_READY, FRK_SIGTIME_AK_CERT_MS, FRK_SIGN_SIGNED, FRK_STAT_BUSY] s (s.akReady ms) := by
  unfold State.akReady
  refine ⟨?_, ?_, ?_, ?_⟩
  · rw [State.rd_wr_other _ (by decide), State.rd_bump_other _ (by decide), State.rd_wr_other _ (by decide), State.rd_wr_same]
    rfl
  · rw [State.rd_wr_other _ (by decide), State.rd_bump_other _ (by decide), State.rd_wr_same]
    rfl
  · rw [State.rd_wr_other _ (by decide), State.rd_bump_same, State.rd_wr_other _ (by decide), State.rd_wr_other _ (by decide)]
    rfl
  · have h₁ := (RegsBut.refl [FRK_STAT_AK_READY, FRK_SIGTIME_AK_CERT_MS, FRK_SIGN_SIGNED, FRK_STAT_BUSY] s).wr (f := FRK_STAT_AK_READY) (by simp) 1
    exact ((h₁.wr (f := FRK_SIGTIME_AK_CERT_MS) (by simp) ms).bump (f := FRK_SIGN_SIGNED) (by simp) 1).wr (f := FRK_STAT_BUSY) (by simp) _

/-! ### Admission and credentials (R297, R328) -/

/-- The admission session hands its CAK to the host port. -/
def State.admitted (s : State) (z : Nat) (x : SpdmSess) : State :=
  ((s.setRot fun r => { r with
    admission := some z
    cak := some (kdf (leBytes 32 x.secret) (ascii "DZ8-MKA-CAK") (leBytes 4 z) 256, kdf (leBytes 32 x.secret) (ascii "DZ8-MKA-CKN") (leBytes 4 z) 128)
    }).wr FRK_STAT_ADMITTED 1).wr HPT_STAT_MKA 1

theorem admitSess_first (h : s.spdm z = some x) (hf : x.finished = true) (hd : s.rd LCS_STAT_TRANSITION_DONE = 0) (ha : s.rot.admission = none) :
    exec (.admitSess z) s = .next ((s.admitted z x).vendor z 1 0 []) := by
  have hdone : ¬ s.on LCS_STAT_TRANSITION_DONE = true := by simp [State.on, hd]
  show execAdmitSess z s = _
  rw [execAdmitSess, State.inFinished_open h hf]
  simp only [if_neg hdone, ha, h]
  rfl

theorem admitSess_other {a : Nat} (h : s.spdm z = some x) (hf : x.finished = true) (hd : s.rd LCS_STAT_TRANSITION_DONE = 0)
    (ha : s.rot.admission = some a) (hne : a ≠ z) : exec (.admitSess z) s = .next (s.vendorNo z 1 0 0x0C) := by
  have hdone : ¬ s.on LCS_STAT_TRANSITION_DONE = true := by simp [State.on, hd]
  show execAdmitSess z s = _
  rw [execAdmitSess, State.inFinished_open h hf]
  simp only [if_neg hdone, ha, if_neg hne]

/-- A credential of a role without a context takes the place of the one before. -/
def State.credSet (s : State) (k v : Nat) : State :=
  s.setBeyjo fun b => { b with creds := b.creds.filter (fun y => !(y.role == k && y.ctx == 0)) ++ [⟨k, 0, v % 2 ^ 256, 0, 0⟩] }

theorem setCredential_set {k : Nat} (c v : Nat) (h : s.spdm z = some x) (hf : x.finished = true) (hd : s.rd LCS_STAT_TRANSITION_DONE = 0)
    (hk : k = 0 ∨ k = 2) (ha : s.rot.admission = some z) : exec (.setCredential z k c v) s = .next ((s.credSet k v).vendor z 0x10 0 []) := by
  have hdone : s.on LCS_STAT_TRANSITION_DONE = false := by simp [State.on, hd]
  have hk₁ : k ≠ 1 := by omega
  have hk₂ : ¬ 2 < k := by omega
  show execSetCredential z k c v s = _
  rw [execSetCredential, State.inFinished_open h hf]
  simp only [firstCode, hdone, ha, hk₁, hk₂, beq_eq_false_iff_ne.2 hk₁, List.find?_cons, List.find?_nil, decide_false, Bool.false_and, Bool.or_self,
    bne_self_eq_false, Option.map_none, false_and, if_false]
  rfl

theorem setCredential_badRole {k : Nat} (c v : Nat) (h : s.spdm z = some x) (hf : x.finished = true) (hd : s.rd LCS_STAT_TRANSITION_DONE = 0)
    (hk : 2 < k) : exec (.setCredential z k c v) s = .next (s.vendorNo z 0x10 c 7) := by
  have hdone : s.on LCS_STAT_TRANSITION_DONE = false := by simp [State.on, hd]
  show execSetCredential z k c v s = _
  rw [execSetCredential, State.inFinished_open h hf]
  simp only [firstCode, hdone, hk, List.find?_cons, decide_true, Bool.true_or, Option.map_some]

end

/-- Settles O38: each case is the effect of its command, within the parts of its row (`exec_reach`). The ERROR codes are log entry 29, the bytes that
CHUNK_SEND collects log entry 34, the SIGNED and VERIFIED counts log entry 83. -/
theorem spdmChunksAndAdmission : Obligations.SpdmChunksAndAdmission := by
  unfold Obligations.SpdmChunksAndAdmission
  refine ⟨?_, ?_, ?_, ?_, ?_, ?_, ?_, ?_, ?_, ?_, ?_, ?_, ?_, ?_⟩
  · intro s z h d hz hn hd
    have a := (s.chunkKept h d).spdmReply_answered z 0x85 (ws := nats (leBytes 1 h ++ leBytes 2 0)) (by simp)
    refine (exec_reach (.chunkSend z h 0 false d) s).next (chunkSend_first hz hn hd) ⟨?_, a.sent⟩
    rw [a.rot]
    show ((s.rot.chunksIn.filter fun y : Nat × Nat × List Byte => y.1 != h) ++ [(h, 1, d)]).find? _ = _
    rw [List.find?_append, find?_filter_bne]
    simp
  · intro s z h n b d hz hn h0
    exact (exec_reach (.chunkSend z h n b d) s).next (chunkSend_late b d hz hn h0) ⟨rfl, find?_filter_bne ..⟩
  · intro s z h n x hz hx hn
    refine (exec_reach (.chunkGet z h n) s).next (chunkGet_part hz hx hn) ⟨?_, fun hlast => ?_⟩
    · rw [((s.chunkTaken h n x).frame_answered _).sent]
      unfold State.chunkTaken
      split <;> rfl
    · rw [((s.chunkTaken h n x).frame_answered _).rot, State.chunkTaken, if_pos hlast]
      exact find?_filter_bne ..
  · intro s z h n hz hx
    exact (exec_reach (.chunkGet z h n) s).next (chunkGet_none hz hx) rfl
  · intro s z x h
    exact (exec_reach (.getEncapsulatedRequest z) s).next (congrArg Host.Outcome.next (State.inSecure_open h _)) ⟨rfl, rfl⟩
  · intro s z q x h
    obtain ⟨hsess, hout, hcount⟩ := State.authenticated_effect q h
    have a := (s.authenticated z q).spdmReply_answered z 0xEB (ws := []) (Nat.zero_le _)
    refine (exec_reach (.deliverEncapsulatedResponse z true q) s).next (deliverEncapsulatedResponse_good q h) ⟨?_, ?_, ?_⟩
    · rw [a.spdm, hsess]
    · rw [a.sent, hout]
    · rw [a.regs _ (by decide), hcount]
  · intro s z q x h
    exact (exec_reach (.deliverEncapsulatedResponse z false q) s).next
      (congrArg Host.Outcome.next ((State.inSecure_open h _).trans (if_neg (by decide)))) ⟨rfl, rfl⟩
  · intro s z k
    exact (exec_reach (.spdmUnsupported z k) s).next rfl ⟨rfl, s.rd_spdmErr .., (s.spdmErr_answered ..).regs⟩
  · intro s n q l h
    obtain ⟨hqueue, hsigned, hwaiting⟩ := s.signed_effect l n
    refine (exec_reach (.signatureDone n) s).next (signatureDone_next n h) ?_
    split
    · have hregs := (s.signed l n).spdmReply_regsBut q.sess q.code (q.content ++ (s.signed l n).akSign q.content)
      exact ⟨(State.spdmReply_signQ ..).trans hqueue, (hregs _ (by decide)).trans hsigned, (hregs _ (by decide)).trans hwaiting⟩
    · exact ⟨hqueue, hsigned, hwaiting⟩
  · intro s n h
    exact (exec_reach (.akCertSigned n) s).next (akCertSigned_first n h) (s.akReady_effect n)
  · intro s z x h hf hd ha
    have a := (s.admitted z x).vendor_answered z 1 (st := 0) (rest := []) (Nat.zero_le _)
    refine (exec_reach (.admitSess z) s).next (admitSess_first h hf hd ha) ⟨?_, ?_, ?_, ?_, a.sent⟩
    · rw [a.rot]
      rfl
    · rw [a.rot]
      rfl
    · rw [a.regs _ (by decide), State.admitted, State.rd_wr_other _ (by decide), State.rd_wr_same]
      rfl
    · rw [a.regs _ (by decide), State.admitted, State.rd_wr_same]
      rfl
  · intro s z a x h hf hd ha hne
    have r := s.vendorNo_refused z 1 0 0x0C
    exact (exec_reach (.admitSess z) s).next (admitSess_other h hf hd ha hne) ⟨r.rot, r.code, r.sent⟩
  · intro s z k c v x h hf hd hk ha
    have a := (s.credSet k v).vendor_answered z 0x10 (st := 0) (rest := []) (Nat.zero_le _)
    refine (exec_reach (.setCredential z k c v) s).next (setCredential_set c v h hf hd hk ha) ⟨?_, ?_, a.sent⟩
    · rw [a.beyjo]
      exact List.mem_append_right _ (List.mem_singleton_self _)
    · rw [a.beyjo]
      rfl
  · intro s z k c v x h hf hd hk
    have r := s.vendorNo_refused z 0x10 c 7
    exact (exec_reach (.setCredential z k c v) s).next (setCredential_badRole c v h hf hd hk) ⟨r.beyjo, r.code, r.counted⟩

end Sys2Proof.Machine
end

section
/-! What settling a delivery leaves alone: the last code of a refused key command (R301, R400, R404). -/

namespace Sys2Proof.Machine

/-- The last code of a refused key command stays as it is. -/
structure CodeKept (s t : State) : Prop where
  code : t.rd FRK_RELEASE_LAST_CODE = s.rd FRK_RELEASE_LAST_CODE

/-- No field of a flip's request is the last code. -/
theorem FlipFrame.codeKept {s t : State} (h : FlipFrame s t) : CodeKept s t := by
  refine ⟨h.regs _ fun f hf => ?_⟩
  cases hf with
  | single hf => revert f; decide
  | @route f p hf =>
    revert f
    obtain hp | hp := portDie_eq p <;> simp only [rteOf, hp] <;> decide
  | crc p | discarded p =>
    simp only [Fld.key, FRK_RELEASE_LAST_CODE, PRT_DISCARD_CRC, PRT_DISCARD_OTHER, prtPg]
    split <;> omega
  | _ =>
    simp only [Fld.key, FRK_RELEASE_LAST_CODE, FLT_DLL_HEAD_HEAD, FLT_DLL_HEAD_WRAPPED,
      FLT_DLL_HEAD_OVERFLOW, dllPg, TTB_STAT_CHECK_ERR, TTB_STAT_CHECK_DETAIL, ttbPg, VLT_INTEG_REPLAY, VLT_VAULT_TAINTED, vltPg,
      CTX_SLICE_SPARES_USED, CTX_STAT_ASSIGN_ERR, CTX_STAT_ERR_LID, CTX_STAT_STATE, ctxPg]
    omega

namespace CodeKept

variable {s t u : State}

theorem refl (s : State) : CodeKept s s := ⟨rfl⟩

theorem trans (h : CodeKept s t) (k : CodeKept t u) : CodeKept s u := ⟨k.code.trans h.code⟩

/-- A step that a request for a flip may take too. -/
theorem flip (h : CodeKept s t) (k : FlipFrame t u) : CodeKept s u := h.trans k.codeKept

theorem mailReject (h : CodeKept s t) (i n res : Nat) (words : List Nat) : CodeKept s (t.mailReject i n res words) := by
  refine h.trans ⟨State.rd_mailReject t (by decide) (by decide) i n res ?_ words⟩
  simp only [Fld.key, FRK_RELEASE_LAST_CODE, MSL_SESS_TAKEN, mslPg]
  omega

/-! ### Re-mappings -/

theorem remapFails (h : CodeKept s t) (mail : Option (Nat × Nat)) (code : Nat) (words : List Nat) : CodeKept s (t.remapFails mail code words) := by
  unfold State.remapFails
  have h₁ : CodeKept s (t.wr RST_REMAP_STAT_LAST_CODE code) := h.flip ((FlipFrame.refl t).wrListed (by decide) code)
  split
  · exact h₁.mailReject ..
  · exact h₁

theorem showRemap (h : CodeKept s t) (c lid phase : Nat) (spare : Option Nat) : CodeKept s (t.showRemap c lid phase spare) :=
  h.flip ((FlipFrame.refl t).showRemap ..)

theorem notifyJob (h : CodeKept s t) (c code detail : Nat) : CodeKept s (t.notifyJob c code detail) := h.flip ((FlipFrame.refl t).notifyJob ..)

theorem wrListed (h : CodeKept s t) {f : Fld} (k : f ∈ flipRegs) (v : Nat) : CodeKept s (t.wr f v) := h.flip ((FlipFrame.refl t).wrListed k v)

theorem remapWith (h : CodeKept s t) (c lid f : Nat) (mail : Option (Nat × Nat)) (auto : Bool) : CodeKept s (t.remapWith c lid f mail auto) := by
  unfold State.remapWith
  extract_lets image s₁ s₂ none' m dom s₃ s₄
  have h₁ : FlipFrame t s₁ := ((FlipFrame.refl t).setCtx ..).bump (.spares c) _
  have h₂ : FlipFrame t s₂ := ((h₁.showRemap ..).wrListed (by decide) _).setRst _
  have h₄ : FlipFrame t s₄ := ((h₂.setRst _).setRoute _).dueGen.redeliver c lid
  split
  · exact ((h.flip ((FlipFrame.refl t).replayFailure c)).showRemap ..).remapFails ..
  split
  · exact (h.showRemap ..).remapFails ..
  · refine h.flip (FlipFrame.requestFlip ?_)
    split
    · exact h₄
    · exact h₄.setRst _

theorem remapStart (h : CodeKept s t) (c lid : Nat) (mail : Option (Nat × Nat)) : CodeKept s (t.remapStart c lid mail) := by
  unfold State.remapStart
  extract_lets s₁
  have h₁ : CodeKept s s₁ := h.showRemap ..
  split
  · exact (h₁.wrListed (by decide) _).remapFails ..
  split
  · exact ((h₁.wrListed (by decide) _).notifyJob ..).remapFails ..
  split
  · exact ((h₁.wrListed (by decide) _).notifyJob ..).remapFails ..
  · exact h₁.remapWith ..

/-! ### Deliveries that end -/

theorem holdJob (h : CodeKept s t) (c : Nat) : CodeKept s (t.holdJob c) := by
  unfold State.holdJob
  split
  · exact h.flip (((FlipFrame.refl t).setTtb ..).notifyJob ..)
  · exact h

theorem startMode (h : CodeKept s t) (b : Nat) (host : Bool) : CodeKept s (t.startMode b host) := h.flip ((FlipFrame.refl t).startMode ..)

theorem wantAgentDump (h : CodeKept s t) (f : Nat) : CodeKept s (t.wantAgentDump f) := by
  unfold State.wantAgentDump
  extract_lets s₁
  have h₁ : CodeKept s s₁ := h.startMode ..
  split
  · exact h₁
  · exact h₁.flip ((FlipFrame.refl s₁).setRst _)

theorem loseMember (h : CodeKept s t) (c lid : Nat) : CodeKept s (t.loseMember c lid) := by
  unfold State.loseMember
  split
  · exact h
  split
  · exact h
  extract_lets s₁ s₂ s₃
  have h₂ : CodeKept s s₂ := ((holdJob (h.flip ((FlipFrame.refl t).setCtx c _)) c).notifyJob ..).wantAgentDump _
  have h₃ : CodeKept s s₃ := h₂.startMode ..
  split
  · exact h₂
  split
  · exact h₃
  · exact h₃.remapStart ..

theorem settleDelivery (h : CodeKept s t) (e : Nat × Nat × Nat) : CodeKept s (t.settleDelivery e) := by
  unfold State.settleDelivery
  extract_lets c lid code
  split
  · split
    · exact h
    · exact h.loseMember ..
  split
  · split
    · exact h
    · exact h.flip ((FlipFrame.refl t).setRst _)
  extract_lets s₁ s₂
  have h₂ : CodeKept s s₂ := h.flip ((((FlipFrame.refl t).setCtx ..).setRst _).wrListed (by decide) _)
  split
  · exact h₂.remapStart ..
  · exact h₂.remapFails ..

theorem settleKeys (h : CodeKept s t) (n : Nat) : CodeKept s (t.settleKeys n) := by
  induction n generalizing t with
  | zero => exact h
  | succ n ih =>
    rw [State.settleKeys]
    split
    · exact h
    · exact ih (List.foldlRecOn (motive := fun u => CodeKept s u) _ _ (h.flip ((FlipFrame.refl t).setRot _)) fun _ k e _ => k.settleDelivery e)

theorem settle (h : CodeKept s t) : CodeKept s t.settle := h.settleKeys _

end CodeKept

end Sys2Proof.Machine
end

section
/-! Key commands, and O39 (R298, R300 to R302, R305, R309, R316). The order of the refusals is log entry 30, the chunks of VAULT_IMPORT_DONE log
entry 149. -/

namespace Sys2Proof.Machine

section
variable {s : State} {z : Nat} {x : SpdmSess}

/-! ### Records -/

theorem State.vendor_records (s : State) (z cmd st : Nat) (rest : List Nat) : (s.vendor z cmd st rest).rot.records = s.rot.records := by
  unfold State.vendor State.spdmReply
  split <;> rfl

theorem State.answerDelivers_records (s : State) : s.answerDelivers.rot.records = s.rot.records := by
  unfold State.answerDelivers
  extract_lets ended
  exact List.foldlRecOn (motive := fun u : State => u.rot.records = s.rot.records) _ _ rfl fun u hu y _ => (State.vendor_records ..).trans hu

theorem anyDie_zero (dies : List Nat) : anyDie 0 dies = false := by simp [anyDie, bit]

/-! ### KEY_RELEASE and KEY_REVOKE -/

/-- The record of a KEY_RELEASE is stored (R300). -/
def State.keyStored (s : State) (z : Nat) (q : KeyReq) : State :=
  ((s.setRot fun r => { r with records := r.records ++ [keyReqRec q ((s.rootOf z).getD 0)] }).bump FRK_RELEASE_RELEASED 1).dueGen

theorem State.keyRelease_stored {q : KeyReq} (hsealed : s.sealedNow = true) (hupdate : s.rd FRK_STAT_UPDATE = 0) (htamper : s.rd FRK_STAT_TAMPER = 0)
    (howner : s.ownerOk z q.ctx = true) (hctx : (s.recsOf q.ctx).length < 8) (hall : s.rot.records.length < 64) (hgood : keyReqBad q = false)
    (hnew : s.keyRec q.ctx q.keyId = none) (hguard : s.rd FRK_STAT_GUARD_BAD = 0) (hreset : s.rd FRK_STAT_RESET = 0) :
    s.keyRelease z q = (s.keyStored z q).vendor z 2 0 [] := by
  have hu : s.on FRK_STAT_UPDATE = false := by simp [State.on, hupdate]
  have ht : s.on FRK_STAT_TAMPER = false := by simp [State.on, htamper]
  unfold State.keyRelease
  simp [firstCode, hsealed, hu, ht, howner, Nat.not_le.2 hctx, Nat.not_le.2 hall, hgood, hnew, hguard, hreset, anyDie_zero]
  rfl

theorem State.keyRelease_unsealed {q : KeyReq} (h : s.sealedNow = false) : s.keyRelease z q = s.vendorNo z 2 q.ctx 1 := by
  simp only [State.keyRelease, firstCode, h, Bool.not_false, List.find?_cons, Option.map_some]

/-- The record of a key goes with its deliveries, and its holders are sent the revocation (R309). -/
def State.keyRevoked (s : State) (c k : Nat) : State :=
  (s.revoke c k).setRot fun r => { r with
    records := r.records.filter (fun x => !(x.ctx == c && x.keyId == k))
    toDeliver := r.toDeliver.filter (fun x => !(x.1 == c && x.2.1 == k))
    evidence := r.evidence.filter (fun x => !(x.ctx == c && x.keyId == k))
    nonces := r.nonces.filter fun x => !(x.ctx == c && x.keyId == k) }

theorem keyRevoke_revoked {c k : Nat} (h : s.spdm z = some x) (hf : x.finished = true) (hsealed : s.sealedNow = true)
    (htamper : s.rd FRK_STAT_TAMPER = 0) (howner : s.ownerOk z c = true) (hk : k ≤ 7) (hrec : (s.keyRec c k).isSome = true) :
    exec (.keyRevoke z c k) s = .next (((s.keyRevoked c k).dueGen.vendor z 3 0 []).answerDelivers) := by
  have ht : s.on FRK_STAT_TAMPER = false := by simp [State.on, htamper]
  have hnone : (s.keyRec c k).isNone = false := by simpa [← Option.isSome_iff_ne_none] using hrec
  show execKeyRevoke z c k s = _
  rw [execKeyRevoke, State.inFinished_open h hf]
  simp only [firstCode, hsealed, ht, howner, Nat.not_lt.2 hk, hnone, Bool.not_true, decide_false, List.find?_cons, List.find?_nil, Option.map_none]
  rfl

theorem keyRevoke_unsealed (c k : Nat) (h : s.spdm z = some x) (hf : x.finished = true) (hsealed : s.sealedNow = false) :
    exec (.keyRevoke z c k) s = .next (s.vendorNo z 3 c 1) := by
  show execKeyRevoke z c k s = _
  rw [execKeyRevoke, State.inFinished_open h hf]
  simp only [firstCode, hsealed, Bool.not_false, List.find?_cons, Option.map_some]

/-! ### Imports (R302) -/

theorem State.vaultImport_starts {q : ImportReq} (hsealed : s.sealedNow = true) (hupdate : s.rd FRK_STAT_UPDATE = 0) (htamper : s.rd FRK_STAT_TAMPER = 0)
    (howner : s.ownerOk z q.ctx = true) (hk : q.keyId ≤ 7) (hlen : q.len ≠ 0) (hrec : (s.keyRec q.ctx q.keyId).isSome = true)
    (htaint : s.rd (VLT_VAULT_TAINTED (vltPg q.ctx)) = 0) (hfits : s.importFits q = true) (hidle : s.rot.importing = none)
    (hvault : s.vaultOk q.ctx = true) (hguard : s.rd FRK_STAT_GUARD_BAD = 0) (hreset : s.rd FRK_STAT_RESET = 0) :
    s.vaultImport z q = s.setRot fun r => { r with importing := some (z, q) } := by
  have hu : s.on FRK_STAT_UPDATE = false := by simp [State.on, hupdate]
  have ht : s.on FRK_STAT_TAMPER = false := by simp [State.on, htamper]
  have hv : s.on (VLT_VAULT_TAINTED (vltPg q.ctx)) = false := by simp [State.on, htaint]
  have hnone : (s.keyRec q.ctx q.keyId).isNone = false := by simpa [← Option.isSome_iff_ne_none] using hrec
  unfold State.vaultImport
  simp [firstCode, hsealed, hu, ht, hv, howner, Nat.not_lt.2 hk, hlen, hnone, hguard, hreset, hfits, hidle, hvault, anyDie_zero]

theorem State.vaultImport_unsealed {q : ImportReq} (h : s.sealedNow = false) : s.vaultImport z q = s.vendorNo z 4 q.ctx 1 := by
  simp only [State.vaultImport, firstCode, h, Bool.not_false, List.find?_cons, Option.map_some]

/-- What an import copies: ciphertext into the vault, and for head data plaintext into the allocation. -/
def State.importMoved (s : State) (q : ImportReq) (n k : Nat) : State :=
  let u := (s.setRot fun r => { r with importing := none }).importCopy q n
  match q.dstOff, u.keyRec q.ctx q.keyId with
  | some o, some r => if r.head then u.importPlain q r o k else u
  | _, _ => u

theorem State.importMoved_frame (s : State) (q : ImportReq) (n k : Nat) :
    Within [.regs, .tile, .hbm] (s.setRot fun r => { r with importing := none }) (s.importMoved q n k) := by
  unfold State.importMoved
  extract_lets u
  have w : Within [.regs, .tile, .hbm] (s.setRot fun r => { r with importing := none }) u :=
    State.importCopy_within (by decide) (by decide) q n (.refl _ _)
  split
  · exact (State.importPlain_within (by decide) q _ _ k w).ite w
  · exact w

theorem State.runWaiting_none (h : s.rot.waiting = []) : s.runWaiting = s.setRot fun r => { r with waiting := [] } := by
  rw [State.runWaiting, h]
  rfl

/-- The image of an import, and the images of the vault with it. -/
def importedImage (q : ImportReq) : VaultImage := ⟨q.ctx, q.imageId, q.keyId, q.vaultOff, q.len, false, 0⟩
def State.imagesWith (s : State) (q : ImportReq) : List VaultImage :=
  s.rot.images.filter (fun x => !(x.ctx == q.ctx && x.imageId == q.imageId)) ++ [importedImage q]

/-- An import whose chunks all verify. -/
def State.importGood (s : State) (z : Nat) (q : ImportReq) : State :=
  let u := s.importMoved q (imageBytes' q.len) (ceilDiv q.len 65536)
  (u.setRot fun r => { r with images := u.imagesWith q }).dueGen.vendor z 4 0 (nats (leBytes 4 (ceilDiv q.len 65536)))

/-- An import that a chunk ends. -/
def State.importBad (s : State) (z : Nat) (q : ImportReq) : State :=
  ((((s.importMoved q (65552 * s.goodChunks q) (s.goodChunks q)).bump FRK_RELEASE_REFUSED 1).wr FRK_RELEASE_LAST_CODE 0x0B).wr
    FRK_RELEASE_LAST_CTX q.ctx).vendor z 4 0x0B (nats (leBytes 4 (s.goodChunks q)))

theorem vaultImportDone_good {q : ImportReq} (h : s.rot.importing = some (z, q)) (hgood : s.goodChunks q = ceilDiv q.len 65536) :
    exec (.vaultImportDone q.ctx) s = .next (s.importGood z q).runWaiting := by
  have hmine : (s.rot.importing.any fun x => x.2.ctx == q.ctx) = true := by simp [h]
  show execVaultImportDone q.ctx s = _
  rw [execVaultImportDone, if_pos hmine, State.importEnd, h]
  simp only [hgood, if_true]
  rfl

theorem vaultImportDone_bad {q : ImportReq} (h : s.rot.importing = some (z, q)) (hbad : s.goodChunks q ≠ ceilDiv q.len 65536) :
    exec (.vaultImportDone q.ctx) s = .next (s.importBad z q).runWaiting := by
  have hmine : (s.rot.importing.any fun x => x.2.ctx == q.ctx) = true := by simp [h]
  show execVaultImportDone q.ctx s = _
  rw [execVaultImportDone, if_pos hmine, State.importEnd, h]
  simp only [if_neg hbad]
  rfl

/-! ### DELIVER, KEY_STATUS and a command that waited -/

theorem State.keyDeliver_unsealed (c k f n : Nat) (h : s.sealedNow = false) : s.keyDeliver z c k f n = s.vendorNo z 5 c 1 := by
  simp only [State.keyDeliver, firstCode, h, Bool.not_false, List.find?_cons, Option.map_some]

theorem State.keyDeliver_starts {c k f n : Nat} (hsealed : s.sealedNow = true) (hupdate : s.rd FRK_STAT_UPDATE = 0) (htamper : s.rd FRK_STAT_TAMPER = 0)
    (howner : s.ownerOk z c = true) (hk : k ≤ 7) (hn : n ≠ 0) (hfn : f + n ≤ 4096) (hrec : (s.keyRec c k).isSome = true)
    (hguard : s.rd FRK_STAT_GUARD_BAD = 0) (hreset : s.rd FRK_STAT_RESET = 0) : s.keyDeliver z c k f n =
      ((s.setRot fun r => { r with delivers := r.delivers ++ [(z, c, k, f, n)] }).queueDeliver
        (((List.range n).map (f + ·)).map fun l => (c, k, l, false))).answerDelivers := by
  have hu : s.on FRK_STAT_UPDATE = false := by simp [State.on, hupdate]
  have ht : s.on FRK_STAT_TAMPER = false := by simp [State.on, htamper]
  have hnone : (s.keyRec c k).isNone = false := by simpa [← Option.isSome_iff_ne_none] using hrec
  unfold State.keyDeliver
  simp [firstCode, hsealed, hu, ht, howner, Nat.not_lt.2 hk, hn, Nat.not_lt.2 hfn, hnone, hguard, hreset, anyDie_zero]

theorem commandResetWaitTimeout_release {q : KeyReq} {l : List WaitCmd} (h : s.rot.waiting = .release z q :: l) :
    exec .commandResetWaitTimeout s = .next ((s.setRot fun r => { r with waiting := l }).vendorNo z 2 q.ctx 3) := by
  show execCommandResetWaitTimeout s = _
  rw [execCommandResetWaitTimeout, h]

end

/-- Settles O39: each case is the effect of its command, within the parts of its row (`exec_reach`). The order of the refusals is log entry 30, the
chunks of VAULT_IMPORT_DONE log entry 149. -/
theorem keyCommands : Obligations.KeyCommands := by
  unfold Obligations.KeyCommands
  refine ⟨?_, ?_, ?_, ?_, ?_, ?_, ?_, ?_, ?_, ?_, ?_, ?_, ?_⟩
  · intro s z q x h hf hsealed hupdate htamper howner hctx hall hgood hnew hguard hreset
    have a := (s.keyStored z q).vendor_answered z 2 (st := 0) (rest := []) (Nat.zero_le _)
    refine (exec_reach (.keyRelease z q) s).next (congrArg Host.Outcome.next ((State.inFinished_open h hf _).trans
      (State.keyRelease_stored hsealed hupdate htamper howner hctx hall hgood hnew hguard hreset))) ⟨?_, ?_, a.sent⟩
    · rw [a.rot]
      rfl
    · rw [a.regs _ (by decide)]
      exact State.rd_bump_same ..
  · intro s z q x h hf hsealed
    have r := s.vendorNo_refused z 2 q.ctx 1
    exact (exec_reach (.keyRelease z q) s).next (congrArg Host.Outcome.next ((State.inFinished_open h hf _).trans (State.keyRelease_unsealed hsealed)))
      ⟨r.rot, r.code, r.counted, r.sent⟩
  · intro s z c k x h hf hsealed htamper howner hk hrec
    refine (exec_reach (.keyRevoke z c k) s).next (keyRevoke_revoked h hf hsealed htamper howner hk hrec) fun r hr => ?_
    rw [State.answerDelivers_records, State.vendor_records] at hr
    have hkept := (List.mem_filter.1 hr).2
    rintro ⟨rfl, rfl⟩
    simp at hkept
  · intro s z c k x h hf hsealed
    have r := s.vendorNo_refused z 3 c 1
    exact (exec_reach (.keyRevoke z c k) s).next (keyRevoke_unsealed c k h hf hsealed) ⟨r.rot, r.code, r.counted, r.sent⟩
  · intro s z q x h hf hsealed hupdate htamper howner hk hlen hrec htaint hfits hidle hvault hguard hreset
    exact (exec_reach (.vaultImport z q) s).next (congrArg Host.Outcome.next ((State.inFinished_open h hf _).trans
      (State.vaultImport_starts hsealed hupdate htamper howner hk hlen hrec htaint hfits hidle hvault hguard hreset))) ⟨rfl, rfl, rfl⟩
  · intro s z q x h hf hsealed
    have r := s.vendorNo_refused z 4 q.ctx 1
    exact (exec_reach (.vaultImport z q) s).next (congrArg Host.Outcome.next ((State.inFinished_open h hf _).trans
      (State.vaultImport_unsealed hsealed))) ⟨r.rot, r.code, r.counted, r.sent⟩
  · intro s z q h hw hgood
    have w := s.importMoved_frame q (imageBytes' q.len) (ceilDiv q.len 65536)
    set u := s.importMoved q (imageBytes' q.len) (ceilDiv q.len 65536)
    have a := (u.setRot fun r => { r with images := u.imagesWith q }).dueGen.vendor_answered z 4 (st := 0)
      (rest := nats (leBytes 4 (ceilDiv q.len 65536))) (by simp)
    have hwait : (s.importGood z q).rot.waiting = [] := by
      rw [State.importGood, a.rot]
      show u.rot.waiting = []
      rw [w.rot_eq (by decide)]
      exact hw
    refine (exec_reach (.vaultImportDone q.ctx) s).next ((vaultImportDone_good h hgood).trans (by rw [State.runWaiting_none hwait])) ⟨?_, ?_, ?_⟩
    · show (s.importGood z q).rot.importing = none
      rw [State.importGood, a.rot]
      show u.rot.importing = none
      rw [w.rot_eq (by decide)]
      rfl
    · refine ⟨importedImage q, ?_, rfl, rfl, rfl⟩
      show importedImage q ∈ (s.importGood z q).rot.images
      rw [State.importGood, a.rot]
      exact List.mem_append_right _ (List.mem_singleton_self _)
    · show (s.importGood z q).out = _
      rw [State.importGood, a.sent]
      show u.out ++ _ = _
      rw [w.out_eq (by decide)]
      rfl
  · intro s z q h hw hbad
    have w := s.importMoved_frame q (65552 * s.goodChunks q) (s.goodChunks q)
    set u := s.importMoved q (65552 * s.goodChunks q) (s.goodChunks q)
    have a := (((u.bump FRK_RELEASE_REFUSED 1).wr FRK_RELEASE_LAST_CODE 0x0B).wr FRK_RELEASE_LAST_CTX q.ctx).vendor_answered z 4 (st := 0x0B)
      (rest := nats (leBytes 4 (s.goodChunks q))) (by simp)
    have hwait : (s.importBad z q).rot.waiting = [] := by
      rw [State.importBad, a.rot]
      show u.rot.waiting = []
      rw [w.rot_eq (by decide)]
      exact hw
    refine (exec_reach (.vaultImportDone q.ctx) s).next ((vaultImportDone_bad h hbad).trans (by rw [State.runWaiting_none hwait])) ⟨?_, ?_, ?_⟩
    · show (s.importBad z q).rot.importing = none
      rw [State.importBad, a.rot]
      show u.rot.importing = none
      rw [w.rot_eq (by decide)]
      rfl
    · show (s.importBad z q).rd FRK_RELEASE_LAST_CODE = _
      rw [State.importBad, a.regs _ (by decide), State.rd_wr_other _ (by decide), State.rd_wr_same]
      rfl
    · show (s.importBad z q).out = _
      rw [State.importBad, a.sent]
      show u.out ++ _ = _
      rw [w.out_eq (by decide)]
      rfl
  · intro s c h
    exact (exec_reach (.vaultImportDone c) s).next (congrArg Host.Outcome.next (if_neg (by simp [h]))) rfl
  · intro s z c k f n x h hf hsealed
    have r := s.vendorNo_refused z 5 c 1
    have hkept : CodeKept (s.vendorNo z 5 c 1) (s.vendorNo z 5 c 1).settle := (CodeKept.refl _).settle
    exact (exec_reach (.deliver z c k f n) s).next (congrArg Host.Outcome.next ((State.inFinished_open h hf _).trans
      (congrArg State.settle (State.keyDeliver_unsealed c k f n hsealed)))) (hkept.code.trans r.code)
  · intro s z c k f n x h hf hsealed hupdate htamper howner hk hn hfn hrec hguard hreset
    exact (exec_reach (.deliver z c k f n) s).next (congrArg Host.Outcome.next ((State.inFinished_open h hf _).trans
      (congrArg State.settle (State.keyDeliver_starts hsealed hupdate htamper howner hk hn hfn hrec hguard hreset)))) rfl
  · intro s z c x h hf howner hn
    have a := s.vendor_answered z 6 (st := 0) (rest := s.keyMap c :: (List.range (s.rd (CTX_SLICE_N (ctxPg c)))).map (s.epKeys c))
      (by rw [List.length_cons, List.length_map, List.length_range]; omega)
    exact (exec_reach (.keyStatus z c) s).next (congrArg Host.Outcome.next ((State.inFinished_open h hf _).trans (if_neg (by simp [howner]))))
      ⟨a.sent, a.rot⟩
  · intro s z q l h
    have r := (s.setRot fun r => { r with waiting := l }).vendorNo_refused z 2 q.ctx 3
    refine (exec_reach .commandResetWaitTimeout s).next (commandResetWaitTimeout_release h) ⟨?_, r.code, r.sent⟩
    rw [r.rot]
    rfl

end Sys2Proof.Machine
end

section
/-! Evidence of endpoints, deliveries that end and delivery calls, and O40 (R303, R304, R306 to R309). The key-status poll is log entry 82, status
0x0C and LID 0xFFFF log entry 84, the record words log entry 11, the record at the standby log entry 150. -/

namespace Sys2Proof.Machine

section
variable {s : State} {c k l : Nat}

/-! ### Evidence (R303) -/

theorem evidenceMessage_none {v : Evidence} (ch : AgentChain) (h : ∀ e ∈ s.rot.evidence, e.fid ≠ v.fid ∨ e.hostCall = true) :
    exec (.evidenceMessage v ch) s = .next s := by
  have hmine : (s.rot.evidence.filter fun e => e.fid == v.fid && !e.hostCall) = [] := by
    refine List.filter_eq_nil_iff.2 fun e he => ?_
    rcases h e he with hf | hc
    · simp [hf]
    · simp [hc]
  show execEvidenceMessage v ch s = _
  rw [execEvidenceMessage, hmine]
  rfl

theorem evidenceMessage_nonce {v : Evidence} (ch : AgentChain) {e : EvReq}
    (h : s.rot.evidence.find? (fun e => e.fid == v.fid && !e.hostCall && e.nonce == v.nonce) = some e) :
    exec (.evidenceMessage v ch) s = .next (s.judge e e.nonce v ch).2.settle := by
  have hmine : (s.rot.evidence.filter fun e => e.fid == v.fid && !e.hostCall).find? (fun e => e.nonce == v.nonce) = some e := by
    rw [List.find?_filter, ← h]
    congr 1
    funext x
    simp [Bool.and_assoc, beq_eq_decide]
  show execEvidenceMessage v ch s = _
  simp only [execEvidenceMessage, hmine, Option.orElse_some]

/-- A further request changes the evidence it repeats, and delivers nothing. -/
theorem State.askAgain_rot (s : State) (e : EvReq) (f : EvReq → EvReq) : (s.askAgain e f).rot =
    { s.rot with evidence := s.rot.evidence.map fun x => if x = e then f { x with nonce := s.drawNonce.1 } else x } := by
  rw [State.askAgain, (State.requestEvidence_within (A := [.regs, .aregs, .ports, .agPorts, .route, .flt, .agFlt, .out]) (by decide) (by decide)
    (by decide) (by decide) (by decide) (by decide) (by decide) (by decide) e.fid _ (.refl _ _)).rot_eq (by decide)]
  rfl

section
variable {e : EvReq} (h : s.evidenceOf c k l = some e)
include h

theorem evidenceTimeout_again (hc : e.hostCall = false) (ha : e.attempts < 3) :
    exec (.evidenceTimeout c k l) s = .next (s.askAgain e fun x => { x with attempts := x.attempts + 1 }) := by
  show execEvidenceTimeout c k l s = _
  simp only [execEvidenceTimeout, h, hc, Bool.false_eq_true, if_false, if_pos ha]

theorem evidenceTimeout_last (hc : e.hostCall = false) (ha : 3 ≤ e.attempts) :
    exec (.evidenceTimeout c k l) s = .next (s.failEvidence e 0x10).settle := by
  show execEvidenceTimeout c k l s = _
  simp only [execEvidenceTimeout, h, hc, Bool.false_eq_true, if_false, if_neg (Nat.not_lt.2 ha)]

theorem evidenceResetRetry_again (h0 : e.resets ≠ 0) (hlt : e.resets < 100) :
    exec (.evidenceResetRetry c k l) s = .next (s.askAgain e fun x => { x with resets := x.resets + 1, attempts := 1 }) := by
  show execEvidenceResetRetry c k l s = _
  simp only [execEvidenceResetRetry, h, if_neg h0, if_neg (Nat.not_le.2 hlt)]

theorem evidenceResetRetry_none (h0 : e.resets = 0) : exec (.evidenceResetRetry c k l) s = .next s := by
  show execEvidenceResetRetry c k l s = _
  simp only [execEvidenceResetRetry, h, if_pos h0]

theorem deliveryCallTimeout_host (hc : e.hostCall = true) : exec (.deliveryCallTimeout c k l) s = .next (s.failEvidence e 0x10).settle := by
  show execDeliveryCallTimeout c k l s = _
  simp only [execDeliveryCallTimeout, h, hc, if_true]

theorem deliveryCallTimeout_fabric (hc : e.hostCall = false) : exec (.deliveryCallTimeout c k l) s = .next s := by
  show execDeliveryCallTimeout c k l s = _
  simp only [execDeliveryCallTimeout, h, hc, Bool.false_eq_true, if_false]

end

/-! ### KEYWRAPs and records (R304, R307, R308) -/

section
variable {w : WrapWait} (h : s.rot.wraps.find? (fun w => w.ctx == c && w.keyId == k && w.lid == l) = some w)
include h

theorem keywrapConfirmTimeout_revoke (hr : w.revoke = true) :
    exec (.keywrapConfirmTimeout c k l) s = .next (s.setRot fun r => { r with wraps := r.wraps.filter (· != w) }) := by
  show execKeywrapConfirmTimeout c k l s = _
  simp only [execKeywrapConfirmTimeout, h, hr, if_true]

theorem keywrapConfirmTimeout_key (hr : w.revoke = false) : exec (.keywrapConfirmTimeout c k l) s =
    .next (((s.setRot fun r => { r with wraps := r.wraps.filter (· != w) }).deliveryEnd c k l 0x18 w.auto).settle) := by
  show execKeywrapConfirmTimeout c k l s = _
  simp only [execKeywrapConfirmTimeout, h, hr, Bool.false_eq_true, if_false]

end

/-- The record of a key is with the partner. -/
def State.recordPaired (s : State) (c k : Nat) : State :=
  (s.setRot fun q => { q with records := q.records.map fun x => if x.ctx == c && x.keyId == k then { x with paired := true } else x }).dueGen

section
variable {r : KeyRec} {p : PartnerState} (h : s.keyRec c k = some r) (hpair : r.pair = true) (hpartner : r.partner ≠ 0) (hpaired : r.paired = false)
  (hactive : s.active = true)
include h hpair hpartner hpaired hactive

theorem pairKeyRelease_good (hcert : p.certOk = true) (hid : p.deviceId = r.partner) (hlc : p.lifecycle = 3) (htamper : p.tamper = false)
    (hdig : p.digests = s.rot.measured.take 5) : exec (.pairKeyRelease c k p) s = .next (s.recordPaired c k) := by
  have hrole : s.rd PAR_STAT_ROLE ≠ 2 := by
    have hone : s.rd PAR_STAT_ROLE = 1 := by simpa [State.active] using hactive
    omega
  show execPairKeyRelease c k p s = _
  have hopen : (!r.pair || r.partner == 0 || r.paired || !s.active) = false := by simp [hpair, hpartner, hpaired, hactive]
  have hgood : (p.certOk && p.deviceId == r.partner && p.lifecycle == 3 && !p.tamper && p.digests == s.rot.measured.take 5) = true := by
    simp [hcert, hid, hlc, htamper, hdig]
  rw [execPairKeyRelease, if_neg hrole]
  simp only [h, hopen, hgood, if_true, if_false, Bool.false_eq_true]
  rfl

theorem pairKeyRelease_bad (hcert : p.certOk = false) : exec (.pairKeyRelease c k p) s = .next (s.notifyKey c 0xFFFF 1) := by
  have hrole : s.rd PAR_STAT_ROLE ≠ 2 := by
    have hone : s.rd PAR_STAT_ROLE = 1 := by simpa [State.active] using hactive
    omega
  show execPairKeyRelease c k p s = _
  rw [execPairKeyRelease, if_neg hrole]
  simp [h, hpair, hpartner, hpaired, hactive, hcert]

end

theorem State.keyRec_recordPaired {r : KeyRec} (h : s.keyRec c k = some r) : ((s.recordPaired c k).keyRec c k).map (·.paired) = some true := by
  have hsel : (fun x : KeyRec => x.ctx == c && x.keyId == k) ∘ (fun x => if x.ctx == c && x.keyId == k then { x with paired := true } else x) =
      fun x => x.ctx == c && x.keyId == k := funext fun x => by
    dsimp only [Function.comp]
    split <;> rfl
  have hr : (r.ctx == c && r.keyId == k) = true := List.find?_some (p := fun x : KeyRec => x.ctx == c && x.keyId == k) h
  show ((s.rot.records.map fun x => if x.ctx == c && x.keyId == k then { x with paired := true } else x).find? fun x =>
    x.ctx == c && x.keyId == k).map (·.paired) = _
  rw [List.find?_map, hsel, ← State.keyRec, h, Option.map_some, Option.map_some, if_pos hr]

/-! ### EVIDENCE_PUT (R306) -/

section
variable {i n : Nat}

/-- A nonce is drawn and bound to the key and the LID of a slot. -/
def State.nonceBound (s : State) (c k l : Nat) : State :=
  s.drawNonce.2.setRot fun r => { r with nonces := r.nonces.filter (fun x => !(x.ctx == c && x.lid == l)) ++ [⟨c, k, l, s.drawNonce.1⟩] }

theorem evidencePut_nonce (v : Option Evidence) (ch : AgentChain) (ht : s.takenFor i n 5 = true) (hb : bit (s.slotGet i n 0) 32 = true)
    (hm : s.mailErr i n 5 1 [0] = none) (hh : s.hostMode 5 = true)
    (hp : s.putRefused (bits (s.slotGet i n 0) 3 0) (bits (s.slotGet i n 0) 6 4) (bits (s.slotGet i n 0) 27 16) = none) :
    ∃ words, exec (.evidencePut i n v ch) s = .next ((s.nonceBound (bits (s.slotGet i n 0) 3 0) (bits (s.slotGet i n 0) 6 4)
      (bits (s.slotGet i n 0) 27 16)).mailOk i n words) := by
  refine ⟨(List.range 4).map fun j => s.drawNonce.1 / 2 ^ (64 * j) % 2 ^ 64, ?_⟩
  show execEvidencePut i n v ch s = _
  simp only [execEvidencePut, ht, hb, if_true, hm, hh, Bool.not_true, Bool.false_eq_true, if_false, hp]
  rfl

theorem evidencePut_notTaken (v : Option Evidence) (ch : AgentChain) (ht : s.takenFor i n 5 = false) : exec (.evidencePut i n v ch) s = .next s := by
  show execEvidencePut i n v ch s = _
  simp only [execEvidencePut, ht]

theorem State.mailOk_rot (s : State) (i n : Nat) (words : List Nat) : (s.mailOk i n words).rot = s.rot :=
  (State.mailOk_within (A := [.regs, .tile, .beyjo]) (by decide) (by decide) (by decide) i n words (.refl _ s)).rot_eq (by decide)

/-- A command that ends well counts, and writes the count of lost NOTIFY records and the TAKEN bits of its session besides. -/
theorem State.rd_mailOk_done (s : State) (i n : Nat) (words : List Nat) :
    (s.mailOk i n words).rd MSL_COUNT_DONE = (s.rd MSL_COUNT_DONE + 1) % 2 ^ MSL_COUNT_DONE.w := by
  have hput : ∀ (u : State) (w v : Nat), (u.slotPut i n w v).rd MSL_COUNT_DONE = u.rd MSL_COUNT_DONE := fun u w v =>
    (State.slotPut_within (A := [.tile]) (by decide) i n w v (.refl _ u)).rd_eq (by decide) _
  have htaken : MSL_COUNT_DONE.key ≠ (MSL_SESS_TAKEN (mslPg i)).key := by
    simp only [Fld.key, MSL_COUNT_DONE, MSL_SESS_TAKEN, mslPg]
    omega
  unfold State.mailOk State.mailEnd
  rw [if_pos rfl]
  extract_lets s₁ s₂ s₃ c s₄
  have h₂ : s₂.rd MSL_COUNT_DONE = (s.rd MSL_COUNT_DONE + 1) % 2 ^ MSL_COUNT_DONE.w := State.rd_bump_same ..
  split
  · exact h₂
  · rw [State.rd_notifyMail _ (by decide), State.rd_wr_other _ htaken, hput]
    exact List.foldlRecOn (motive := fun u : State => u.rd MSL_COUNT_DONE = (s.rd MSL_COUNT_DONE + 1) % 2 ^ MSL_COUNT_DONE.w) _ _ h₂
      fun u hu w _ => (hput u _ _).trans hu

end

end

/-- Settles O40: each case is the effect of its command, within the parts of its row (`exec_reach`). The key-status poll is log entry 82, status 0x0C
and LID 0xFFFF log entry 84, the record words log entry 11, the record at the standby log entry 150. -/
theorem evidenceAndDelivery : Obligations.EvidenceAndDelivery := by
  unfold Obligations.EvidenceAndDelivery
  refine ⟨?_, ?_, ?_, ?_, ?_, ?_, ?_, ?_, ?_, ?_, ?_, ?_, ?_, ?_, ?_, ?_, ?_⟩
  · intro s v ch h
    exact (exec_reach (.evidenceMessage v ch) s).next (evidenceMessage_none ch h) rfl
  · intro s v ch e h
    exact (exec_reach (.evidenceMessage v ch) s).next (evidenceMessage_nonce ch h) rfl
  · intro s c k l e h hc ha
    refine (exec_reach (.evidenceTimeout c k l) s).next (evidenceTimeout_again h hc ha) ⟨⟨s.drawNonce.1, ?_⟩, ?_⟩ <;> rw [State.askAgain_rot]
  · intro s c k l e h hc ha
    exact (exec_reach (.evidenceTimeout c k l) s).next (evidenceTimeout_last h hc ha) rfl
  · intro s c k l e h h0 hlt
    refine (exec_reach (.evidenceResetRetry c k l) s).next (evidenceResetRetry_again h h0 hlt) ⟨s.drawNonce.1, ?_⟩
    rw [State.askAgain_rot]
  · intro s c k l e h h0
    exact (exec_reach (.evidenceResetRetry c k l) s).next (evidenceResetRetry_none h h0) rfl
  · intro s c k l w h hr
    exact (exec_reach (.keywrapConfirmTimeout c k l) s).next (keywrapConfirmTimeout_revoke h hr) ⟨rfl, rfl, rfl⟩
  · intro s c k l w h hr
    exact (exec_reach (.keywrapConfirmTimeout c k l) s).next (keywrapConfirmTimeout_key h hr) rfl
  · intro s c l h
    exact (exec_reach (.keyRedeliver c l) s).next (congrArg Host.Outcome.next (if_pos h)) rfl
  · intro s c l h
    exact (exec_reach (.keyRedeliver c l) s).next (congrArg Host.Outcome.next (if_neg (by simp [h]))) rfl
  · intro s c k p r h hpair hpartner hpaired hactive hcert hid hlc htamper hdig
    exact (exec_reach (.pairKeyRelease c k p) s).next (pairKeyRelease_good h hpair hpartner hpaired hactive hcert hid hlc htamper hdig)
      ⟨State.keyRec_recordPaired h, rfl, rfl⟩
  · intro s c k p r h hpair hpartner hpaired hactive hcert
    exact (exec_reach (.pairKeyRelease c k p) s).next (pairKeyRelease_bad h hpair hpartner hpaired hactive hcert) ⟨rfl, rfl⟩
  · intro s c l
    refine (exec_reach (.nonceBindingExpiry c l) s).next rfl ⟨fun x hx => ?_, fun x hx hne => List.mem_filter.2 ⟨hx, ?_⟩, rfl⟩
    · have hkept := (List.mem_filter.1 hx).2
      rintro ⟨rfl, rfl⟩
      simp at hkept
    · simpa [or_iff_not_imp_left] using hne
  · intro s c k l e h hc
    exact (exec_reach (.deliveryCallTimeout c k l) s).next (deliveryCallTimeout_host h hc) rfl
  · intro s c k l e h hc
    exact (exec_reach (.deliveryCallTimeout c k l) s).next (deliveryCallTimeout_fabric h hc) rfl
  · intro s i n v ch ht hb hm hh hp
    obtain ⟨words, hexec⟩ := evidencePut_nonce v ch ht hb hm hh hp
    refine (exec_reach (.evidencePut i n v ch) s).next hexec ⟨?_, State.rd_mailOk_done ..⟩
    rw [State.mailOk_rot]
    exact ⟨_, List.mem_append_right _ (List.mem_singleton_self _), rfl, rfl, rfl⟩
  · intro s i n v ch ht
    exact (exec_reach (.evidencePut i n v ch) s).next (evidencePut_notTaken v ch ht) rfl

end Sys2Proof.Machine
end

section
/-! Guardian reports and lifecycle transitions, and O41 (R286, R294, R299, R313, R314, R316). -/

namespace Sys2Proof.Machine

section
variable {s : State}

/-! ### Guardians (R286, R316) -/

theorem State.newAk_rot (s : State) : s.newAk.rot = { s.rot with ak := s.akSeed } := rfl

theorem State.measure_guards (s : State) (i d : Nat) : (s.measure i d).rot.guards = s.rot.guards ∧ (s.measure i d).rot.waiting = s.rot.waiting := by
  unfold State.measure
  split
  · exact ⟨rfl, rfl⟩
  extract_lets u
  split
  · rw [u.newAk_rot]
    exact ⟨rfl, rfl⟩
  · exact ⟨rfl, rfl⟩

/-- A report is kept with the die's firmware, whether the die passes or not. -/
theorem State.guardReport_guards (h : s.rot.waiting = []) (die fw : Nat) : (die, fw) ∈ (s.guardReport die fw).rot.guards := by
  unfold State.guardReport
  extract_lets reset prev other ran bad s₁ s₂ s₃
  have h₂ : (die, fw) ∈ s₂.rot.guards ∧ s₂.rot.waiting = [] := ⟨List.mem_append_right _ (List.mem_singleton_self _), h⟩
  have hkept (i : Nat) : (die, fw) ∈ (s₂.measure i fw).rot.guards ∧ (s₂.measure i fw).rot.waiting = [] := by
    obtain ⟨hguards, hwaiting⟩ := s₂.measure_guards i fw
    rwa [hguards, hwaiting]
  have h₃ : (die, fw) ∈ s₃.rot.guards ∧ s₃.rot.waiting = [] := by
    unfold s₃
    split
    · exact hkept 4
    split
    · exact hkept 5
    · exact h₂
  obtain ⟨hguards, hwaiting⟩ := h₃
  split
  · have w : Within [.regs, .flt, .agFlt] s₂ (s₂.guardBad die) := State.guardBad_within (by decide) (by decide) (by decide) die (.refl _ s₂)
    rw [w.rot_eq (by decide)]
    exact h₂.1
  · rw [State.runWaiting_none (s := s₃.reloadKeys) hwaiting]
    exact hguards

theorem guardianReport_die {d : Nat} (a b c : Nat) (h0 : d ≠ 0) (hd : s.hasDie d = true) : exec (.guardianReport d a b c) s =
    .next ((s.guardReport d c).setRot fun r => { r with guardIds := r.guardIds.filter (fun g => g.1 != d) ++ [(d, a, b)] }) :=
  congrArg Host.Outcome.next (if_neg (by simp [h0, hd]))

theorem guardianReportMissing_die {d : Nat} (h0 : d ≠ 0) (hd : s.hasDie d = true) : exec (.guardianReportMissing d) s = .next (s.guardBad d) :=
  congrArg Host.Outcome.next (if_neg (by simp [h0, hd]))

theorem State.guardBad_effect (s : State) {d : Nat} (hd : d < 8) : RegsBut [FRK_STAT_GUARD_BAD] s (s.guardBad d) ∧
    bit ((s.guardBad d).rd FRK_STAT_GUARD_BAD) d = true := by
  unfold State.guardBad
  refine ⟨((RegsBut.refl _ s).wr (by simp) _).trans (.of_regs (State.detect_regs ..)), ?_⟩
  rw [State.rd_detect, State.rd_wr_same, bit_mod_two_pow (show d < FRK_STAT_GUARD_BAD.w from hd), bit_setBit_same]

/-! ### The lifecycle (R313) -/

theorem State.lcsCheck_confirm {n : Nat} (h : n ≠ 0x4C435354) (allowed tokenOk : Bool) : s.lcsCheck n allowed tokenOk = some 1 := by
  simp only [State.lcsCheck, firstCode, bne_iff_ne.2 h, List.find?_cons, Option.map_some]

/-- Every context is FREE and the unit is not active: what is left to check is the token and the state. -/
theorem State.lcsCheck_idle (hc : ∀ c < 16, s.ctxState c = 0) (ha : s.active = false) (allowed tokenOk : Bool) :
    s.lcsCheck 0x4C435354 allowed tokenOk = firstCode [(!tokenOk, 4), (!allowed, 5)] := by
  have hfree : (contexts.any fun c => s.rd (CTX_STAT_STATE (ctxPg c)) != 0) = false := by
    rw [List.any_eq_false]
    intro c hm
    have hzero : s.rd (CTX_STAT_STATE (ctxPg c)) = 0 := hc c (mem_contexts.1 hm)
    simp [hzero]
  simp only [State.lcsCheck, firstCode, hfree, ha, bne_self_eq_false, List.find?_cons]

theorem State.lcsErr_effect (s : State) {e : Nat} (h : e < 2 ^ LCS_STAT_ERR.w) : RegsBut [LCS_STAT_ERR] s (s.lcsErr e) ∧
    (s.lcsErr e).rd LCS_STAT_ERR = e ∧ (s.lcsErr e).rot = s.rot :=
  ⟨(RegsBut.refl _ s).wr (by simp) e, (State.rd_wr_same ..).trans (Nat.mod_eq_of_lt h), rfl⟩

/-- A transition waits for its reset; disarming the Jig leaves that (R313, R376). -/
theorem State.lcsTo_done (s : State) (st : Nat) : ((s.lcsTo st).jigOff .dz8).rd LCS_STAT_TRANSITION_DONE = 1 := by
  have hkeep : (!(LCS_STAT_TRANSITION_DONE.key / 64 % 2 ^ 12 == 0x28 && LCS_STAT_TRANSITION_DONE.key % 64 == 2)) = true := by decide
  have hoff (u : State) : (u.jigOff .dz8).rd LCS_STAT_TRANSITION_DONE = u.rd LCS_STAT_TRANSITION_DONE :=
    (kget_filter_kept _ (fun _ => hkeep) _).trans (State.rd_wr_other u (f := JIG_ARM_ARM) (g := LCS_STAT_TRANSITION_DONE) (by decide) 0)
  rw [hoff, State.lcsTo, State.rd_wr_same]
  rfl

theorem lcsSeal_confirm {n : Nat} (h : n ≠ 0x4C435354) : exec (.lcsSeal n) s = .next (s.lcsErr 1) := by
  show Host.Outcome.next (s.lcsSeal n) = _
  rw [State.lcsSeal, State.lcsCheck_confirm h]

theorem lcsReturn_confirm {n : Nat} (h : n ≠ 0x4C435354) : exec (.lcsReturn n) s = .next (s.lcsErr 1) := by
  show Host.Outcome.next (s.lcsReturn n) = _
  rw [State.lcsReturn, State.lcsCheck_confirm h]

section
variable (hc : ∀ c < 16, s.ctxState c = 0) (ha : s.active = false)
include hc ha

theorem lcsSeal_provisioned (hs : s.rd LCS_STAT_STATE = 2) (hd : s.rd LCS_STAT_TRANSITION_DONE = 0) :
    exec (.lcsSeal 0x4C435354) s = .next ((s.lcsTo 3).jigOff .dz8) := by
  have hallowed : (s.rd LCS_STAT_STATE == 2 && !s.on LCS_STAT_TRANSITION_DONE) = true := by simp [State.on, hs, hd]
  show Host.Outcome.next (s.lcsSeal 0x4C435354) = _
  rw [State.lcsSeal, State.lcsCheck_idle hc ha, hallowed]
  rfl

theorem lcsReturn_sealed (hs : s.rd LCS_STAT_STATE = 3) (hd : s.rd LCS_STAT_TRANSITION_DONE = 0) (ht : s.tokenOk = true) :
    exec (.lcsReturn 0x4C435354) s = .next ((s.lcsTo 4).jigOff .dz8) := by
  have hallowed : ((s.rd LCS_STAT_STATE == 2 || s.rd LCS_STAT_STATE == 3) && !s.on LCS_STAT_TRANSITION_DONE) = true := by simp [State.on, hs, hd]
  show Host.Outcome.next (s.lcsReturn 0x4C435354) = _
  rw [State.lcsReturn, State.lcsCheck_idle hc ha, hallowed, ht]
  rfl

theorem lcsReturn_noToken (ht : s.tokenOk = false) : exec (.lcsReturn 0x4C435354) s = .next (s.lcsErr 4) := by
  show Host.Outcome.next (s.lcsReturn 0x4C435354) = _
  rw [State.lcsReturn, State.lcsCheck_idle hc ha, ht]
  rfl

end

end

/-- Settles O41: each case is the effect of its command, within the parts of its row (`exec_reach`). -/
theorem guardiansAndLifecycle : Obligations.GuardiansAndLifecycle := by
  unfold Obligations.GuardiansAndLifecycle
  refine ⟨?_, ?_, ?_, ?_, ?_, ?_, ?_, ?_⟩
  · intro s a b c
    exact (exec_reach (.guardianReport 0 a b c) s).next (congrArg Host.Outcome.next (if_pos (Or.inl rfl))) rfl
  · intro s d a b c h0 hd hw
    exact (exec_reach (.guardianReport d a b c) s).next (guardianReport_die a b c h0 hd)
      ⟨List.mem_append_right _ (List.mem_singleton_self _), State.guardReport_guards hw d c⟩
  · intro s d h0 h8 hd
    exact (exec_reach (.guardianReportMissing d) s).next (guardianReportMissing_die h0 hd) (s.guardBad_effect h8)
  · intro s n h
    exact (exec_reach (.lcsSeal n) s).next (lcsSeal_confirm h) (s.lcsErr_effect (by decide))
  · intro s n h
    exact (exec_reach (.lcsReturn n) s).next (lcsReturn_confirm h) (s.lcsErr_effect (by decide))
  · intro s hc ha hs hd
    exact (exec_reach (.lcsSeal 0x4C435354) s).next (lcsSeal_provisioned hc ha hs hd) (s.lcsTo_done 3)
  · intro s hc ha hs hd ht
    exact (exec_reach (.lcsReturn 0x4C435354) s).next (lcsReturn_sealed hc ha hs hd ht) (s.lcsTo_done 4)
  · intro s hc ha ht
    exact (exec_reach (.lcsReturn 0x4C435354) s).next (lcsReturn_noToken hc ha ht) (s.lcsErr_effect (by decide))

end Sys2Proof.Machine
end

section
/-! Frames, the link and the SPDM source of the host port, and O42 (R320 to R323, R327, R350). Which addresses fit and HPT_DISCARD.ADDR are log
entries 146 and 54, a frame that only checks and counts log entry 65. -/

namespace Sys2Proof.Machine

section
variable {s : State} {f : EthFrame}

/-! ### ETH_FRAME -/

/-- The frame is counted before it is checked (R321). -/
def State.frameIn (s : State) : State := s.bump HPT_FRAMES_RX 1

theorem State.frameIn_regsBut (s : State) : RegsBut [HPT_FRAMES_RX] s s.frameIn := (RegsBut.refl _ s).bump (by simp) 1

theorem State.secure_frameIn : s.frameIn.secure f = s.secure f := by
  have h₁ : s.frameIn.rd LCS_STAT_STATE = s.rd LCS_STAT_STATE := s.frameIn_regsBut _ (by decide)
  have h₂ : s.frameIn.rd FRK_STAT_ADMITTED = s.rd FRK_STAT_ADMITTED := s.frameIn_regsBut _ (by decide)
  simp only [State.secure, State.needsAdmission, State.lifecycle, State.on, h₁, h₂]
  rfl

theorem State.addrFits_frameIn : s.frameIn.addrFits f = s.addrFits f := by
  have h₁ : s.frameIn.rd HPT_IP6_HI_ADDR = s.rd HPT_IP6_HI_ADDR := s.frameIn_regsBut _ (by decide)
  have h₂ : s.frameIn.rd HPT_IP6_LO_ADDR = s.rd HPT_IP6_LO_ADDR := s.frameIn_regsBut _ (by decide)
  have h₃ : s.frameIn.rd HPT_MAC_ADDR = s.rd HPT_MAC_ADDR := s.frameIn_regsBut _ (by decide)
  have h₄ : s.frameIn.rd HPT_VLAN_EN = s.rd HPT_VLAN_EN := s.frameIn_regsBut _ (by decide)
  have h₅ : s.frameIn.rd HPT_VLAN_VID = s.rd HPT_VLAN_VID := s.frameIn_regsBut _ (by decide)
  have hips : s.frameIn.ownIps = s.ownIps := by simp only [State.ownIps, h₁, h₂, h₃]
  simp only [State.addrFits, State.groups, State.on, hips, h₃, h₄, h₅]
  rfl

theorem State.portFits_frameIn : s.frameIn.portFits f = s.portFits f := by
  simp only [State.portFits, s.frameIn_regsBut HPT_UDP_PORT (by decide)]

section
variable (hl : s.lifecycle ≠ 0)
include hl

theorem ethFrame_badFcs (h : f.fcsOk = false) : exec (.ethFrame f) s = .next (s.frameIn.bump HPT_DISCARD_FCS 1) := by
  show execEthFrame f s = _
  rw [execEthFrame, if_neg hl]
  simp only [h, Bool.not_false, if_true]
  rfl

theorem ethFrame_insecure (h : f.fcsOk = true) (hs : s.secure f = false) : exec (.ethFrame f) s = .next (s.frameIn.bump HPT_DISCARD_MACSEC 1) := by
  have hs' : s.frameIn.secure f = false := State.secure_frameIn.trans hs
  show execEthFrame f s = _
  rw [execEthFrame, if_neg hl]
  simp only [h, Bool.not_true, Bool.false_eq_true, if_false]
  exact congrArg Host.Outcome.next (if_pos (by rw [← State.frameIn, hs']; rfl))

theorem ethFrame_otherAddr (h : f.fcsOk = true) (hs : s.secure f = true) (ha : s.addrFits f = false) :
    exec (.ethFrame f) s = .next (s.frameIn.bump HPT_DISCARD_ADDR 1) := by
  have hs' : s.frameIn.secure f = true := State.secure_frameIn.trans hs
  have ha' : s.frameIn.addrFits f = false := State.addrFits_frameIn.trans ha
  show execEthFrame f s = _
  rw [execEthFrame, if_neg hl]
  simp only [h, Bool.not_true, Bool.false_eq_true, if_false]
  exact congrArg Host.Outcome.next ((if_neg (by rw [← State.frameIn, hs']; decide)).trans (if_pos (by rw [← State.frameIn, ha']; rfl)))

theorem ethFrame_neighbour (h : f.fcsOk = true) (hs : s.secure f = true) (ha : s.addrFits f = true) (hp : s.portFits f = true)
    (hk : f.kind = .neighbour) : exec (.ethFrame f) s = .next (s.frameIn.frame (.icmp .neighbour)) := by
  have hs' : s.frameIn.secure f = true := State.secure_frameIn.trans hs
  have ha' : s.frameIn.addrFits f = true := State.addrFits_frameIn.trans ha
  have hp' : s.frameIn.portFits f = true := State.portFits_frameIn.trans hp
  show execEthFrame f s = _
  rw [execEthFrame, if_neg hl]
  simp only [h, hk, Bool.not_true, Bool.false_eq_true, if_false, true_or, if_true]
  exact congrArg Host.Outcome.next ((if_neg (by rw [← State.frameIn, hs']; decide)).trans (if_neg (by rw [← State.frameIn, ha', hp']; decide)))

end

/-- A discarded frame writes the count of frames and that of its reason. -/
theorem State.frameIn_discard (s : State) {g : Fld} (h : g.key ≠ HPT_FRAMES_RX.key) : RegsBut [HPT_FRAMES_RX, g] s (s.frameIn.bump g 1) ∧
    (s.frameIn.bump g 1).rd g = (s.rd g + 1) % 2 ^ g.w := by
  refine ⟨(s.frameIn_regsBut.mono (by simp)).bump (by simp) 1, ?_⟩
  rw [State.rd_bump_same, State.frameIn, State.rd_bump_other _ h]

/-! ### The link (R321) -/

/-- LINK, PCS_LOCK and FEC_LOCK of HPT_STAT. -/
def State.linkShows (s : State) (link lock : Nat) : State := ((s.wr HPT_STAT_LINK link).wr HPT_STAT_PCS_LOCK lock).wr HPT_STAT_FEC_LOCK lock

theorem State.linkShows_effect (s : State) {link lock : Nat} (h : link < 4) (k : lock < 2) :
    RegsBut [HPT_STAT_LINK, HPT_STAT_PCS_LOCK, HPT_STAT_FEC_LOCK] s (s.linkShows link lock) ∧ (s.linkShows link lock).rd HPT_STAT_LINK = link ∧
      (s.linkShows link lock).rd HPT_STAT_PCS_LOCK = lock ∧ (s.linkShows link lock).rd HPT_STAT_FEC_LOCK = lock := by
  have h₁ : RegsBut [HPT_STAT_LINK, HPT_STAT_PCS_LOCK, HPT_STAT_FEC_LOCK] s (s.wr HPT_STAT_LINK link) := (RegsBut.refl _ s).wr (by simp) link
  refine ⟨(h₁.wr (f := HPT_STAT_PCS_LOCK) (by simp) lock).wr (f := HPT_STAT_FEC_LOCK) (by simp) lock, ?_, ?_, ?_⟩ <;> unfold State.linkShows
  · rw [State.rd_wr_other _ (by decide), State.rd_wr_other _ (by decide), State.rd_wr_same]
    exact Nat.mod_eq_of_lt h
  · rw [State.rd_wr_other _ (by decide), State.rd_wr_same]
    exact Nat.mod_eq_of_lt k
  · rw [State.rd_wr_same]
    exact Nat.mod_eq_of_lt k

/-- A SAK that an MKA frame distributes (R322). -/
def State.sakIn (s : State) (k : Nat) : State := ((s.wr HPT_STAT_MKA 3).wr HPT_STAT_MACSEC 1).setBeyjo fun b => { b with sak := some k }

theorem mkaFrame_sak (k : Nat) (h : s.rot.cak.isSome = true) : exec (.mkaFrame true (some k)) s = .next (s.sakIn k) :=
  congrArg Host.Outcome.next (if_neg (by simpa [← Option.isSome_iff_ne_none] using h))

theorem mkaFrame_ignored {b : Bool} (k : Option Nat) (h : b = false ∨ s.rot.cak = none) : exec (.mkaFrame b k) s = .next s :=
  congrArg Host.Outcome.next (if_pos (by rcases h with h | h <;> simp [h]))

end

/-- Settles O42: each case is the effect of its command, within the parts of its row (`exec_reach`). Which addresses fit and HPT_DISCARD.ADDR are log
entries 146 and 54, a frame that only checks and counts log entry 65. -/
theorem hostFrames : Obligations.HostFrames := by
  unfold Obligations.HostFrames
  refine ⟨?_, ?_, ?_, ?_, ?_, ?_, ?_, ?_, ?_, ?_⟩
  · intro s f hl h
    obtain ⟨hregs, hcount⟩ := s.frameIn_discard (g := HPT_DISCARD_FCS) (by decide)
    exact (exec_reach (.ethFrame f) s).next (ethFrame_badFcs hl h)
      ⟨hregs, (State.rd_bump_other _ (by decide) 1).trans (State.rd_bump_same ..), hcount, rfl⟩
  · intro s f hl h hs
    obtain ⟨hregs, hcount⟩ := s.frameIn_discard (g := HPT_DISCARD_MACSEC) (by decide)
    exact (exec_reach (.ethFrame f) s).next (ethFrame_insecure hl h hs) ⟨hregs, hcount, rfl⟩
  · intro s f hl h hs ha
    obtain ⟨hregs, hcount⟩ := s.frameIn_discard (g := HPT_DISCARD_ADDR) (by decide)
    exact (exec_reach (.ethFrame f) s).next (ethFrame_otherAddr hl h hs ha) ⟨hregs, hcount, rfl⟩
  · intro s f hl h hs ha hp hk
    have a := s.frameIn.frame_answered (.icmp .neighbour)
    refine (exec_reach (.ethFrame f) s).next (ethFrame_neighbour hl h hs ha hp hk) ⟨?_, ?_, ?_, a.sent⟩
    · exact (s.frameIn_regsBut.mono (by simp)).trans ((s.frameIn.frame_regsBut _).mono (by simp))
    · rw [a.regs _ (by decide)]
      exact State.rd_bump_same ..
    · rw [a.counted, s.frameIn_regsBut _ (by decide)]
      rfl
  · intro s k h
    refine (exec_reach (.mkaFrame true (some k)) s).next (mkaFrame_sak k h) ⟨?_, ?_, ?_, rfl⟩
    · exact (((RegsBut.refl _ s).wr (f := HPT_STAT_MKA) (by simp) 3).wr (f := HPT_STAT_MACSEC) (by simp) 1).trans (.of_regs rfl)
    · exact (State.rd_wr_other (s.wr HPT_STAT_MKA 3) (f := HPT_STAT_MACSEC) (g := HPT_STAT_MKA) (by decide) 1).trans (State.rd_wr_same ..)
    · exact State.rd_wr_same (s.wr HPT_STAT_MKA 3) HPT_STAT_MACSEC 1
  · intro s b k h
    exact (exec_reach (.mkaFrame b k) s).next (mkaFrame_ignored k h) rfl
  · intro s
    obtain ⟨hregs, hlink, hpcs, hfec⟩ := s.linkShows_effect (link := 0) (lock := 0) (by decide) (by decide)
    refine (exec_reach .hostLinkLoss s).next rfl ⟨hregs.trans (.of_regs (State.detect_regs ..)), ?_, ?_, ?_⟩ <;> rw [State.rd_detect]
    · exact hlink
    · exact hpcs
    · exact hfec
  · intro s hl
    exact (exec_reach .hostLinkUp s).next (congrArg Host.Outcome.next (if_neg hl)) (s.linkShows_effect (link := 2) (lock := 1) (by decide) (by decide))
  · intro s hl
    exact (exec_reach .hostLinkUp s).next (congrArg Host.Outcome.next (if_pos hl)) rfl
  · intro s a p
    exact (exec_reach (.beyjoSpdm a p) s).next rfl ⟨rfl, rfl⟩

end Sys2Proof.Machine
end

section
/-! Beyjo sessions that open, close and expire, and O43 (R329 to R331). The order and counts of OPEN are log entry 51, the generation of an unproven
index log entry 52, the OWNER credential log entry 53. -/

namespace Sys2Proof.Machine

/-! ### A session of an index -/

section
variable {s : State} {i z : Nat} {x : Sess}

theorem taken_key_ne {g : Fld} (h : g.addr < 0x21210000) (hlo : g.lo < 64) (i : Nat) : g.key ≠ (MSL_SESS_TAKEN (mslPg i)).key := by
  simp only [Fld.key, MSL_SESS_TAKEN, mslPg]
  omega

theorem State.sessAt_index (h : s.sessAt i = some x) : x.index = i := by simpa using List.find?_some h

/-- An update that keeps the index is what its index finds. -/
theorem State.sessAt_setSess (h : s.sessAt i = some x) {f : Sess → Sess} (hf : ∀ y, (f y).index = y.index) : (s.setSess i f).sessAt i = some (f x) := by
  have hsel : (fun y : Sess => y.index == i) ∘ (fun y => if y.index == i then f y else y) = fun y => y.index == i := funext fun y => by
    dsimp only [Function.comp]
    split
    · rw [hf]
    · rfl
  show (s.beyjo.sessions.map fun y => if y.index == i then f y else y).find? (fun y => y.index == i) = _
  rw [List.find?_map, hsel, ← State.sessAt, h]
  simp [State.sessAt_index h]

theorem State.openSess_iff : s.openSess i = some x ↔ s.sessAt i = some x ∧ x.isOpen = true := by simp [State.openSess, Option.filter_eq_some_iff]

theorem State.openSess_setSess (h : s.openSess i = some x) {f : Sess → Sess} (hf : ∀ y, (f y).index = y.index) (ho : (f x).isOpen = x.isOpen) :
    (s.setSess i f).openSess i = some (f x) := by
  obtain ⟨hat, hopen⟩ := State.openSess_iff.1 h
  exact State.openSess_iff.2 ⟨State.sessAt_setSess hat hf, ho.trans hopen⟩

/-- What a SESSION field finds is a session with the property that is asked. -/
theorem State.sessNamed_filter {p : Sess → Bool} (h : (s.sessNamed z).filter p = some x) : x ∈ s.beyjo.sessions ∧ p x = true := by
  obtain ⟨hx, hp⟩ := Option.filter_eq_some_iff.1 h
  exact ⟨List.mem_of_find?_eq_some hx, hp⟩

theorem State.setSess_mem (hx : x ∈ s.beyjo.sessions) (f : Sess → Sess) : f x ∈ (s.setSess x.index f).beyjo.sessions :=
  List.mem_map.2 ⟨x, hx, if_pos (beq_self_eq_true _)⟩

theorem State.inSess_good (h : (s.sessNamed z).filter (·.isOpen) = some x) (f : Sess → State → State) :
    s.inSess z true f = f x (s.setSess x.index fun y => { y with lastNs := s.time.nowNs }) := by
  rw [State.inSess, h]
  exact if_pos rfl

theorem State.inSess_badTag (h : (s.sessNamed z).filter (·.isOpen) = some x) (f : Sess → State → State) :
    s.inSess z false f = s.bump BYJ_REJECT_TAG 1 := by
  rw [State.inSess, h]
  exact if_neg Bool.false_ne_true

theorem State.inSess_none (h : s.sessNamed z = none) (tagOk : Bool) (f : Sess → State → State) : s.inSess z tagOk f = s := by
  rw [State.inSess, h, Option.filter_none]

theorem State.closeSess_within' (s : State) (i : Nat) : Within [.regs, .tile, .beyjo, .rst, .pair] s (s.closeSess i) :=
  State.closeSess_within (by decide) (by decide) (by decide) (by decide) (by decide) i (.refl _ s)

/-- A closed session leaves neither itself nor an open REQUEST. -/
theorem State.closeSess_leaves (h : (s.sessAt i).isSome = true) : (s.closeSess i).sessAt i = none ∧ ∀ r ∈ (s.closeSess i).beyjo.openReqs, r.index ≠ i := by
  obtain ⟨y, hy⟩ := Option.isSome_iff_exists.1 h
  refine ⟨(State.closeSess_some hy).1, ?_⟩
  rw [State.closeSess, hy]
  exact fun r hr => by simpa using (List.mem_filter.1 hr).2

theorem State.sessAt_isSome (hx : x ∈ s.beyjo.sessions) : (s.sessAt x.index).isSome = true := by
  rw [State.sessAt, List.find?_isSome]
  exact ⟨x, hx, beq_self_eq_true _⟩

end

/-! ### Held indexes -/

section
variable {s : State} {i z : Nat} {x : Sess}

/-- Dropping a held index leaves the open sessions and no other of the index. -/
theorem State.dropHeld_sessions (s : State) (i : Nat) : (∀ y ∈ (s.dropHeld i).beyjo.sessions, y.index = i → y.isOpen = true) ∧
    ∀ y ∈ s.beyjo.sessions, y.isOpen = true → y ∈ (s.dropHeld i).beyjo.sessions := by
  refine ⟨fun y hy hi => ?_, fun y hy ho => List.mem_filter.2 ⟨hy, by simp [ho]⟩⟩
  simpa [hi] using (List.mem_filter.1 hy).2

theorem State.refuseOpen_effect (s : State) (z reason : Nat) : (s.refuseOpen z reason).out = s.out ++ [.datagram 6 z 0 [reason]] ∧
    (s.refuseOpen z reason).beyjo = s.beyjo ∧
    (s.refuseOpen z reason).rd BYJ_OPEN_CNT_REFUSED = (s.rd BYJ_OPEN_CNT_REFUSED + 1) % 2 ^ BYJ_OPEN_CNT_REFUSED.w :=
  ⟨rfl, rfl, (State.frame_regsBut _ _ _ (by decide)).trans (State.rd_bump_same ..)⟩

/-! ### BEYJO_OPEN -/

/-- The OPENs of the last second (R331). -/
def State.recentOpens (s : State) : List (Nat × Nat) := s.beyjo.opens.filter fun e => decide (s.time.nowNs < e.2 + 1000000000)

/-- An OPEN of a source is noted. -/
def State.noteOpen (s : State) (a : Nat) : State := s.setBeyjo fun b => { b with opens := s.recentOpens ++ [(a, s.time.nowNs)] }

/-- The session that a CHALLENGE holds an index for (R329). -/
def State.heldSess (s : State) (i a k c p h : Nat) : Sess :=
  ⟨i, s.genOf i, false, k, c, a, p, h, s.free.1 % 2 ^ 256, 0, 0, 0, 0, 0, [], s.time.nowNs, 2 ^ 64 - 1, [], 0, 1, []⟩

/-- The index is held and the CHALLENGE goes out. -/
def State.challenged (s : State) (x : Sess) : State :=
  (s.free.2.setBeyjo fun b => { b with sessions := b.sessions ++ [x] }).frame (.datagram 3 x.id 0 [x.nd])

theorem beyjoOpen_tooMany {a : Nat} (k c p h : Nat) (hn : 16 ≤ (s.recentOpens.filter fun e => e.1 == a).length) :
    exec (.beyjoOpen a k c p h) s = .next (s.setBeyjo fun b => { b with opens := s.recentOpens }) :=
  congrArg Host.Outcome.next (if_pos hn)

theorem beyjoOpen_roleNotAllowed {a k : Nat} (c p h : Nat) (hn : (s.recentOpens.filter fun e => e.1 == a).length < 16) (hk : s.roleAllowed k = false) :
    exec (.beyjoOpen a k c p h) s = .next ((s.noteOpen a).refuseOpen 0 1) := by
  have hk' : (s.noteOpen a).roleAllowed k = false := hk
  show execBeyjoOpen a k c p h s = _
  unfold execBeyjoOpen
  extract_lets recent s₁ full i r nd x
  have hfew : ¬16 ≤ (recent.filter fun e => e.1 == a).length := Nat.not_le.2 hn
  rw [if_neg hfew, firstCode, List.find?_cons_of_pos (by exact congrArg (!·) hk')]
  rfl

theorem beyjoOpen_challenge {a c i : Nat} (p h : Nat) (hn : (s.recentOpens.filter fun e => e.1 == a).length < 16) (hk : s.roleAllowed 0 = true)
    (hc : s.beyjo.creds.any (credFor 0 c) = true) (hlim : s.roleCount 0 c < roleLimit 0) (hi : s.freeIndex = some i)
    (hadm : s.needsAdmission = true → s.rd FRK_STAT_ADMITTED = 1) :
    exec (.beyjoOpen a 0 c p h) s = .next ((s.noteOpen a).challenged ((s.noteOpen a).heldSess i a 0 c p h)) := by
  have hi' : (s.noteOpen a).freeIndex = some i := hi
  show execBeyjoOpen a 0 c p h s = _
  unfold execBeyjoOpen
  extract_lets recent s₁ full j r nd x
  have hk' : s₁.roleAllowed 0 = true := hk
  have hc' : s₁.beyjo.creds.any (credFor 0 c) = true := hc
  have hfull : full = false := by
    show (decide (roleLimit 0 ≤ s.roleCount 0 c) || s.freeIndex.isNone) = false
    rw [hi, decide_eq_false (Nat.not_le.2 hlim)]
    rfl
  have hadm' : (s₁.needsAdmission && !s₁.on FRK_STAT_ADMITTED) = false := by
    show (s.needsAdmission && !(s.rd FRK_STAT_ADMITTED == 1)) = false
    cases hb : s.needsAdmission
    · rfl
    · rw [hadm hb]
      rfl
  have hnone : firstCode [(!s₁.roleAllowed 0, 1), (!s₁.beyjo.creds.any (credFor 0 c), 2), (full, 3), (0 == 1 && s₁.ctxState c != 2, 5),
      (s₁.needsAdmission && !s₁.on FRK_STAT_ADMITTED, 6)] = none := by
    simp [firstCode, hk', hc', hfull, hadm']
  have hj : j = i := by
    show (s.noteOpen a).freeIndex.getD 0 = i
    rw [hi']
    rfl
  have hfew : ¬16 ≤ (recent.filter fun e => e.1 == a).length := Nat.not_le.2 hn
  rw [if_neg hfew, hnone]
  show Host.Outcome.next ((s.noteOpen a).challenged ((s.noteOpen a).heldSess j a 0 c p h)) = _
  rw [hj]

/-! ### BEYJO_PROOF -/

/-- The credential for the session's role that made the proof (R329). -/
def State.provedBy (s : State) (x : Sess) (p : Nat) : Option Cred :=
  s.beyjo.creds.find? fun c => credFor x.role x.ctx c && x.mac c.value (ascii "DZ8-BYJ-PROVE") == p

theorem State.provedBy_isSome {p : Nat} : (s.provedBy x p).isSome = true ↔
    ∃ c ∈ s.beyjo.creds, credFor x.role x.ctx c = true ∧ x.mac c.value (ascii "DZ8-BYJ-PROVE") = p := by
  simp [State.provedBy, List.find?_isSome]

/-- A held session opens with the credential that made the proof (R329). -/
def Sess.opened (x : Sess) (c : Cred) (now : Nat) (y : Sess) : Sess :=
  { y with isOpen := true, cred := c.value, key := x.deriveKey c.value, owner := c.owner, spdm := c.spdm, lastNs := now }

/-- The state with the session open and the ACCEPT sent. -/
def State.accepted (s : State) (z : Nat) (x : Sess) (c : Cred) : State :=
  (((s.setSess x.index (x.opened c s.time.nowNs)).clearSlots x.index).showSess.bump BYJ_OPEN_CNT_OPENED 1).frame
    (.datagram 5 z 0 [x.mac c.value (ascii "DZ8-BYJ-ACCEPT")])

theorem beyjoProof_unknown (p : Nat) (h : s.sessNamed z = none) : exec (.beyjoProof z p) s = .next s := by
  show execBeyjoProof z p s = _
  rw [execBeyjoProof, h, Option.filter_none]

theorem beyjoProof_wrong {p : Nat} (h : (s.sessNamed z).filter (fun x => !x.isOpen) = some x) (hp : s.provedBy x p = none) :
    exec (.beyjoProof z p) s = .next ((s.dropHeld x.index).refuseOpen z 4) := by
  show execBeyjoProof z p s = _
  rw [execBeyjoProof, h]
  dsimp only
  rw [← State.provedBy, hp]

theorem beyjoProof_proved {p : Nat} {c : Cred} (h : (s.sessNamed z).filter (fun x => !x.isOpen) = some x) (hp : s.provedBy x p = some c) :
    exec (.beyjoProof z p) s = .next (s.accepted z x c) := by
  show execBeyjoProof z p s = _
  rw [execBeyjoProof, h]
  dsimp only
  rw [← State.provedBy, hp]
  rfl

theorem State.rd_accepted (c : Cred) : (s.accepted z x c).rd BYJ_OPEN_CNT_OPENED = (s.rd BYJ_OPEN_CNT_OPENED + 1) % 2 ^ BYJ_OPEN_CNT_OPENED.w := by
  unfold State.accepted
  rw [State.frame_regsBut _ _ _ (by decide), State.rd_bump_same, State.showSess, State.rd_wr_other _ (by decide),
    State.rd_clearSlots _ _ (taken_key_ne (by decide) (by decide) _)]
  rfl

end

/-- Settles O43: each case is the effect of its command, within the parts of its row (`exec_reach`). The order and counts of OPEN are log entry 51,
the generation of an unproven index log entry 52, the OWNER credential log entry 53. -/
theorem sessionsOpenAndClose : Obligations.SessionsOpenAndClose := by
  unfold Obligations.SessionsOpenAndClose
  refine ⟨?_, ?_, ?_, ?_, ?_, ?_, ?_, ?_, ?_, ?_⟩
  · intro s a c p h i hn hk hc hlim hi hadm
    refine (exec_reach (.beyjoOpen a 0 c p h) s).next (beyjoOpen_challenge p h hn hk hc hlim hi hadm) ⟨?_, ?_⟩
    · exact ⟨(s.noteOpen a).heldSess i a 0 c p h, rfl, rfl, rfl, rfl, rfl, rfl, rfl⟩
    · exact State.rd_bump_same ..
  · intro s a k c p h hn hk
    obtain ⟨hout, hbeyjo, hcount⟩ := (s.noteOpen a).refuseOpen_effect 0 1
    exact (exec_reach (.beyjoOpen a k c p h) s).next (beyjoOpen_roleNotAllowed c p h hn hk)
      ⟨hout, (congrArg BeyjoSt.sessions hbeyjo).trans rfl, hcount⟩
  · intro s a k c p h hn
    exact (exec_reach (.beyjoOpen a k c p h) s).next (beyjoOpen_tooMany k c p h hn) ⟨rfl, rfl, rfl⟩
  · intro s z p x h
    rw [← State.provedBy_isSome]
    cases hp : s.provedBy x p with
    | none =>
      obtain ⟨hout, hbeyjo, -⟩ := (s.dropHeld x.index).refuseOpen_effect z 4
      refine (exec_reach (.beyjoProof z p) s).next (beyjoProof_wrong h hp) ⟨nofun, nofun, fun _ => ⟨hout, ?_⟩⟩
      rw [hbeyjo]
      exact (s.dropHeld_sessions x.index).1
    | some c =>
      refine (exec_reach (.beyjoProof z p) s).next (beyjoProof_proved h hp) ⟨fun _ => ?_, fun _ => State.rd_accepted c, fun hno => absurd rfl hno⟩
      exact ⟨x.opened c s.time.nowNs x, State.setSess_mem (State.sessNamed_filter h).1 _, rfl, rfl, rfl, rfl⟩
  · intro s z p h
    exact (exec_reach (.beyjoProof z p) s).next (beyjoProof_unknown p h) rfl
  · intro s i
    obtain ⟨hgone, hkept⟩ := s.dropHeld_sessions i
    exact (exec_reach (.challengeExpiry i) s).next rfl ⟨hgone, hkept, rfl⟩
  · intro s z x h
    have hexec : exec (.beyjoClose z true) s = .next ((s.setSess x.index fun y => { y with lastNs := s.time.nowNs }).closeSess x.index) :=
      congrArg Host.Outcome.next (State.inSess_good h _)
    have hx := State.setSess_mem (State.sessNamed_filter h).1 fun y => { y with lastNs := s.time.nowNs }
    obtain ⟨hat, hreqs⟩ := State.closeSess_leaves (State.sessAt_isSome hx)
    exact (exec_reach (.beyjoClose z true) s).next hexec ⟨hat, hreqs, (State.closeSess_within' ..).out_eq (by decide)⟩
  · intro s z x h
    exact (exec_reach (.beyjoClose z false) s).next (congrArg Host.Outcome.next (State.inSess_badTag h _))
      ⟨(RegsBut.refl _ s).bump (List.mem_singleton_self _) 1, State.rd_bump_same .., rfl⟩
  · intro s i x h
    have hexec : exec (.sessionIdleTimeout i) s = .next (s.closeSess i) := congrArg Host.Outcome.next (if_pos (by rw [h]; rfl))
    obtain ⟨hat, hgen⟩ := State.closeSess_some (State.openSess_iff.1 h).1
    exact (exec_reach (.sessionIdleTimeout i) s).next hexec ⟨hat, hgen, (s.closeSess_within' i).out_eq (by decide)⟩
  · intro s i h
    exact (exec_reach (.sessionIdleTimeout i) s).next (congrArg Host.Outcome.next (if_neg (by rw [h]; decide))) rfl

end Sys2Proof.Machine
end

section
/-! NOTIFY datagrams and mail slots, and O44 (R339, R341 to R343, R345). -/

namespace Sys2Proof.Machine

/-! ### NOTIFY (R343, R345) -/

section
variable {s : State} {i z n : Nat} {x : Sess}

/-- What a session holds after a NOTIFY with the records that fit (R343). -/
def Sess.notified (x : Sess) (q : List NRec × List NRec) (y : Sess) : Sess :=
  { y with queue := q.2, dropped := 0, nextSeq := x.nextSeq + 1, unacked := y.unacked ++ [(⟨x.nextSeq, 0, q.1⟩ : SentNotify)] }

theorem State.gapRec_none (hd : x.dropped = 0) : s.gapRec x = [] := if_pos hd

theorem notifySend_records (h : s.openSess i = some x) (hd : x.dropped = 0) (hq : x.queue ≠ []) : exec (.notifySend i) s =
    .next ((s.setSess i (x.notified (takeRecs 8920 x.queue))).frame (.notify x.id x.nextSeq (takeRecs 8920 x.queue).1)) := by
  have hne : ¬(([] : List NRec).isEmpty = true ∧ x.queue.isEmpty = true) := fun hc => hq (List.isEmpty_iff.1 hc.2)
  show execNotifySend i s = _
  rw [execNotifySend, h]
  simp only [State.gapRec_none hd, if_neg hne, List.map_nil, List.sum_nil, Nat.sub_zero, List.nil_append]
  rfl

theorem notifySend_nothing (h : s.openSess i = some x) (hd : x.dropped = 0) (hq : x.queue = []) : exec (.notifySend i) s = .next s := by
  show execNotifySend i s = _
  rw [execNotifySend, h]
  simp only [State.gapRec_none hd, hq, List.isEmpty_nil, and_self, if_true]

/-- A NOTIFY that is sent again (R345). -/
def resentNotify (n : Nat) (y : Sess) : Sess :=
  { y with unacked := y.unacked.map fun m => if m.seq == n then { m with resends := m.resends + 1 } else m }

theorem notifyResend_again {m : SentNotify} (h : s.openSess i = some x) (hm : (x.unacked.find? fun m => m.seq == n) = some m) (hr : m.resends < 8) :
    exec (.notifyResend i n) s = .next (((s.setSess i (resentNotify n)).bump BYJ_NOTIFY_RESENT 1).frame (.notify x.id n m.records)) := by
  show execNotifyResend i n s = _
  rw [execNotifyResend, h]
  simp only [hm, if_pos hr]
  rfl

theorem notifyResend_last {m : SentNotify} (h : s.openSess i = some x) (hm : (x.unacked.find? fun m => m.seq == n) = some m) (hr : 8 ≤ m.resends) :
    exec (.notifyResend i n) s = .next (s.closeSess i) := by
  show execNotifyResend i n s = _
  rw [execNotifyResend, h]
  simp only [hm, if_neg (Nat.not_lt.2 hr)]

/-- The NOTIFYs that an acknowledgement leaves (R345). -/
def ackedNotify (n : Nat) (y : Sess) : Sess := { y with unacked := y.unacked.filter fun m => decide (n < m.seq) }

theorem State.ackedNotify_left (s : State) (j n : Nat) : ∀ y ∈ (s.setSess j (ackedNotify n)).beyjo.sessions, y.index = j → ∀ m ∈ y.unacked, n < m.seq := by
  intro y hy hj m hm
  obtain ⟨w, -, rfl⟩ := List.mem_map.1 hy
  by_cases hw : (w.index == j) = true
  · rw [if_pos hw] at hm
    simpa using (List.mem_filter.1 hm).2
  · rw [if_neg hw] at hj
    exact absurd (beq_iff_eq.2 hj) hw

end

/-! ### The control word of a slot (R338, R339) -/

section
variable {s : State} {i n : Nat}

theorem State.control_of_tile {t : State} (h : t.tile = s.tile) : t.control i n = s.control i n := by
  simp only [State.control, State.slotGet, State.syncGet, h]

theorem State.control_slotPut (hi : i < 64) (hn : n < 16) {v : Nat} (hv : v < 2 ^ 64) : (s.slotPut i n 15 v).control i n = v :=
  s.syncGet_syncPut_same (syncReserved_slotWord hi hn (by decide)) hv

theorem slotCode_lt (c : Nat) : slotCode c < 256 := Nat.mod_lt _ (by decide)

theorem withResult_lt (c : Nat) {st res : Nat} (hst : st < 256) (hres : res < 256) : withResult c st res < 2 ^ 64 := by
  have h := slotCode_lt c
  unfold withResult
  omega

theorem slotState_withResult (c : Nat) {st res : Nat} (hst : st < 256) (hres : res < 256) : slotState (withResult c st res) = st := by
  have h := slotCode_lt c
  simp only [slotState, bits, withResult]
  omega

/-- The state of a slot of an open session shows how its command ended (R339). -/
theorem State.mailEnd_state {x : Sess} (hi : i < 64) (hn : n < 16) (ok : Bool) {res : Nat} (hres : res < 256) (words : List Nat)
    (hx : s.openSess i = some x) : slotState ((s.mailEnd i n ok res words).control i n) = if ok then 3 else 4 := by
  unfold State.mailEnd
  extract_lets s₁ s₂ s₃ c s₄
  have hopen : s₂.openSess i = some x := by
    have hs : s₂.openSess i = s.openSess i := by cases ok <;> rfl
    exact hs.trans hx
  have hst : (if ok = true then 3 else 4) < 256 := by split <;> decide
  have htile : (s₄.notifyMail i n c).tile = s₄.tile :=
    (State.notifyMail_within (A := [.regs, .beyjo]) (by decide) (by decide) i n c (.refl _ s₄)).tile_eq (by decide)
  have hctl : s₄.control i n = c := State.control_slotPut (s := s₃) hi hn (withResult_lt _ hst hres)
  rw [hopen]
  dsimp only
  rw [State.control_of_tile htile, hctl]
  exact slotState_withResult _ hst hres

/-- A command that ends counts as done or rejected, and writes the count of lost NOTIFY records and the TAKEN bits of its session besides. -/
theorem State.rd_mailEnd {g : Fld} (hl : g.key ≠ BYJ_NOTIFY_LOST.key) (ht : g.key ≠ (MSL_SESS_TAKEN (mslPg i)).key) (ok : Bool) (res : Nat)
    (words : List Nat) :
    (s.mailEnd i n ok res words).rd g = (s.bump (if ok then MSL_COUNT_DONE else MSL_COUNT_REJECTED) 1).rd g := by
  have hput : ∀ (u : State) (w v : Nat), (u.slotPut i n w v).rd g = u.rd g := fun u w v =>
    (State.slotPut_within (A := [.tile]) (by decide) i n w v (.refl _ u)).rd_eq (by decide) g
  unfold State.mailEnd
  extract_lets s₁ s₂ s₃ c s₄
  have h₂ : s₂.rd g = (s.bump (if ok then MSL_COUNT_DONE else MSL_COUNT_REJECTED) 1).rd g := by cases ok <;> rfl
  have h₃ : s₃.rd g = s₂.rd g := foldl_keeps (State.rd · g) (fun u (w : Nat × Nat) => hput u w.2 w.1) _ s₂
  split
  · exact h₂
  · rw [State.rd_notifyMail _ hl, State.rd_wr_other _ ht, hput, h₃, h₂]

/-! ### MAIL_SCAN (R339) -/

theorem State.mem_posted (h : (i, n) ∈ s.posted) : i < 64 ∧ n < 16 := by
  obtain ⟨j, hj, hm⟩ := List.mem_flatMap.1 h
  split at hm
  · obtain ⟨m, hmem, he⟩ := List.mem_map.1 hm
    obtain ⟨rfl, rfl⟩ := Prod.mk.inj he
    exact ⟨List.mem_range.1 hj, List.mem_range.1 (List.mem_filter.1 hmem).1⟩
  · cases hm

theorem State.takeSlot_taken (hi : i < 64) (hn : n < 16) : (s.takeSlot i n).taken i n = true := by
  have hctl : (s.takeSlot i n).control i n = 2 * 2 ^ 56 + s.control i n % 2 ^ 56 := State.control_slotPut (s := s) hi hn (by omega)
  rw [State.taken, hctl, slotState, bits]
  exact beq_iff_eq.2 (by omega)

theorem State.rd_takeSlot {g : Fld} (ht : g.key ≠ (MSL_SESS_TAKEN (mslPg i)).key) : (s.takeSlot i n).rd g = s.rd g := by
  unfold State.takeSlot
  extract_lets c
  rw [State.rd_wr_other _ ht]
  exact (State.slotPut_within (A := [.tile]) (by decide) i n 15 _ (.refl _ s)).rd_eq (by decide) g

/-- A scan is counted, and whether it took all it may take (R339). -/
def State.scanned (s : State) (full : Nat) : State := (s.bump MSL_SCAN_SCANS 1).bump MSL_SCAN_FULL full

theorem State.rd_scanned (full : Nat) : (s.scanned full).rd MSL_SCAN_SCANS = (s.rd MSL_SCAN_SCANS + 1) % 2 ^ MSL_SCAN_SCANS.w :=
  (State.rd_bump_other (s.bump MSL_SCAN_SCANS 1) (f := MSL_SCAN_FULL) (g := MSL_SCAN_SCANS) (by decide) full).trans (State.rd_bump_same ..)

theorem mailScan_none (hb : s.time.beat % 64 = 0) (hp : s.posted = []) : exec .mailScan s = .next (s.scanned 0) := by
  show execMailScan s = _
  rw [execMailScan, if_neg (not_not_intro hb), hp]
  rfl

theorem mailScan_one (hb : s.time.beat % 64 = 0) (hp : s.posted = [(i, n)]) : exec .mailScan s = .next ((s.takeSlot i n).scanned 0) := by
  show execMailScan s = _
  rw [execMailScan, if_neg (not_not_intro hb), hp]
  rfl

theorem mailNop_ok (ht : s.takenFor i n 0 = true) (he : s.mailErr i n 0 0 [0, 1, 2, 3] = none) :
    exec (.mailNop i n) s = .next (s.mailEnd i n true 0 []) := by
  show execMailNop i n s = _
  rw [execMailNop, if_pos ht, he]
  rfl

end

/-- Settles O44: each case is the effect of its command, within the parts of its row (`exec_reach`). -/
theorem notifyAndMail : Obligations.NotifyAndMail := by
  unfold Obligations.NotifyAndMail
  refine ⟨?_, ?_, ?_, ?_, ?_, ?_, ?_, ?_, ?_, ?_, ?_, ?_⟩
  · intro s i x h hd hq
    have hopen := State.openSess_setSess h (f := x.notified (takeRecs 8920 x.queue)) (fun _ => rfl) rfl
    exact (exec_reach (.notifySend i) s).next (notifySend_records h hd hq)
      ⟨rfl, congrArg (Option.map Sess.queue) hopen, congrArg (Option.map Sess.nextSeq) hopen, State.rd_bump_same ..⟩
  · intro s i x h hd hq
    exact (exec_reach (.notifySend i) s).next (notifySend_nothing h hd hq) rfl
  · intro s z n x h
    have hexec : exec (.notifyAck z n true) s =
        .next ((s.setSess x.index fun y => { y with lastNs := s.time.nowNs }).setSess x.index (ackedNotify n)) :=
      congrArg Host.Outcome.next (State.inSess_good h _)
    exact (exec_reach (.notifyAck z n true) s).next hexec ⟨State.ackedNotify_left _ x.index n, rfl⟩
  · intro s z n b h
    exact (exec_reach (.notifyAck z n b) s).next (congrArg Host.Outcome.next (State.inSess_none h ..)) rfl
  · intro s i n x m h hm hr
    refine (exec_reach (.notifyResend i n) s).next (notifyResend_again h hm hr) ⟨rfl, ?_, ?_⟩
    · exact (State.frame_regsBut _ _ _ (by decide)).trans (State.rd_bump_same ..)
    · rw [(State.frame_answered _ _).counted, State.rd_bump_other _ (by decide)]
      rfl
  · intro s i n x m h hm hr
    exact (exec_reach (.notifyResend i n) s).next (notifyResend_last h hm hr)
      ⟨(State.closeSess_some (State.openSess_iff.1 h).1).1, (s.closeSess_within' i).out_eq (by decide)⟩
  · intro s hb hp
    exact (exec_reach .mailScan s).next (mailScan_none hb hp)
      ⟨((RegsBut.refl _ s).bump (f := MSL_SCAN_SCANS) (by simp) 1).bump (f := MSL_SCAN_FULL) (by simp) 0, State.rd_scanned 0, rfl⟩
  · intro s i n hb hp
    obtain ⟨hi, hn⟩ := State.mem_posted (hp ▸ List.mem_singleton_self (i, n))
    refine (exec_reach .mailScan s).next (mailScan_one hb hp) ⟨State.takeSlot_taken hi hn, ?_⟩
    rw [State.rd_scanned, State.rd_takeSlot (taken_key_ne (by decide) (by decide) _)]
  · intro s hb
    exact (exec_reach .mailScan s).next (congrArg Host.Outcome.next (if_pos hb)) rfl
  · intro s i n x hi hn ht he hx
    refine (exec_reach (.mailNop i n) s).next (mailNop_ok ht he) ⟨State.mailEnd_state hi hn true (by decide) [] hx, ?_, ?_⟩
    · rw [State.rd_mailEnd (by decide) (taken_key_ne (by decide) (by decide) _)]
      exact State.rd_bump_same ..
    · rw [State.rd_mailEnd (by decide) (taken_key_ne (by decide) (by decide) _)]
      exact State.rd_bump_other _ (by decide) 1
  · intro s i n x hi hn ht hc hx
    have hexec : exec (.mailReserved i n) s = .next (s.mailEnd i n false 1 []) := congrArg Host.Outcome.next (if_pos (by rw [ht, decide_eq_true hc]; rfl))
    refine (exec_reach (.mailReserved i n) s).next hexec ⟨State.mailEnd_state hi hn false (by decide) [] hx, ?_, ?_⟩
    · rw [State.rd_mailEnd (by decide) (taken_key_ne (by decide) (by decide) _)]
      exact State.rd_bump_same ..
    · rw [State.rd_mailEnd (by decide) (taken_key_ne (by decide) (by decide) _)]
      exact State.rd_bump_other _ (by decide) 1
  · intro s i n ht
    exact (exec_reach (.mailReserved i n) s).next (congrArg Host.Outcome.next (if_neg (by simp [ht]))) rfl

end Sys2Proof.Machine
end

section
/-! REQUESTs and their operations, and O45 (R332 to R334, R346). The RESPONSE of SEQ 0 is log entry 50, SIZE for a COUNT out of range log entry 48. -/

namespace Sys2Proof.Machine

/-! ### The open session of a SESSION field -/

section
variable {s : State} {i z n : Nat} {x : Sess}

/-- The open session that a SESSION field names. -/
def State.openNamed (s : State) (z : Nat) : Option Sess := (s.sessNamed z).filter (·.isOpen)

theorem State.openNamed_iff : s.openNamed z = some x ↔ s.sessNamed z = some x ∧ x.isOpen = true := by simp [State.openNamed, Option.filter_eq_some_iff]

theorem State.sessNamed_key (h : s.sessNamed z = some x) : x.index = z % 64 ∧ x.gen = z / 64 := by simpa using List.find?_some h

theorem State.openNamed_id (h : s.openNamed z = some x) : x.id = z := by
  obtain ⟨hi, hg⟩ := State.sessNamed_key (State.openNamed_iff.1 h).1
  rw [Sess.id, hi, hg]
  omega

/-- An index that the field can hold names its open session. -/
theorem State.openNamed_of_openSess (hi : i < 64) (h : s.openSess i = some x) : s.openNamed x.id = some x := by
  obtain ⟨hat, hopen⟩ := State.openSess_iff.1 h
  have hx := State.sessAt_index hat
  have hmod : x.id % 64 = i := by unfold Sess.id; omega
  have hdiv : x.id / 64 = x.gen := by unfold Sess.id; omega
  refine State.openNamed_iff.2 ⟨?_, hopen⟩
  rw [State.sessAt, List.find?_eq_some_iff_append] at hat
  obtain ⟨-, l, l', hl, hnot⟩ := hat
  rw [State.sessNamed, hmod, hdiv, List.find?_eq_some_iff_append]
  refine ⟨by simp [hx], l, l', hl, fun y hy => ?_⟩
  have hne := hnot y hy
  simp_all

/-- An update that keeps the index, the generation and that the session is open is what the field names. -/
theorem State.openNamed_setSess (h : s.openNamed z = some x) {f : Sess → Sess} (hi : ∀ y, (f y).index = y.index) (hg : ∀ y, (f y).gen = y.gen)
    (ho : (f x).isOpen = x.isOpen) : (s.setSess x.index f).openNamed z = some (f x) := by
  obtain ⟨hx, hopen⟩ := State.openNamed_iff.1 h
  have hsel : (fun y : Sess => y.index == z % 64 && y.gen == z / 64) ∘ (fun y => if y.index == x.index then f y else y) =
      fun y => y.index == z % 64 && y.gen == z / 64 := funext fun y => by
    dsimp only [Function.comp]
    split
    · rw [hi, hg]
    · rfl
  refine State.openNamed_iff.2 ⟨?_, ho.trans hopen⟩
  show (s.beyjo.sessions.map fun y => if y.index == x.index then f y else y).find? (fun y => y.index == z % 64 && y.gen == z / 64) = _
  rw [List.find?_map, hsel, ← State.sessNamed, hx]
  simp

/-! ### RESPONSE (R332) -/

/-- The RESPONSE kept among the last 16 of the session; SEQ 0 is not kept (log entry 50). -/
def keptReply (seq : Nat) (rs : List OpResult) (y : Sess) : Sess :=
  if seq = 0 then y else { y with replies := (y.replies ++ [(seq, rs)]).drop (y.replies.length - 15) }

theorem State.respond_open (h : s.openNamed z = some x) (n : Nat) (rs : List OpResult) :
    s.respond z n rs = (s.setSess x.index (keptReply n rs)).frame (.response z n rs) := by
  rw [State.respond, ← State.openNamed, h]
  rfl

theorem keptReply_index (n : Nat) (rs : List OpResult) (y : Sess) : (keptReply n rs y).index = y.index := by
  unfold keptReply
  split <;> rfl

theorem keptReply_lastSeq (n : Nat) (rs : List OpResult) (y : Sess) : (keptReply n rs y).lastSeq = y.lastSeq := by
  unfold keptReply
  split <;> rfl

theorem keptReply_zero (rs : List OpResult) (y : Sess) : keptReply 0 rs y = y := if_pos rfl

/-- A RESPONSE goes out as one frame. -/
theorem State.respond_sent (h : s.openNamed z = some x) (n : Nat) (rs : List OpResult) : (s.respond z n rs).out = s.out ++ [.response z n rs] ∧
    (s.respond z n rs).rd HPT_FRAMES_TX = (s.rd HPT_FRAMES_TX + 1) % 2 ^ HPT_FRAMES_TX.w := by
  rw [State.respond_open h]
  exact ⟨rfl, State.rd_bump_same ..⟩

/-- The RESPONSE of SEQ 0 leaves its session. -/
theorem State.respond_zero_openSess (hi : i < 64) (h : s.openSess i = some x) (rs : List OpResult) : (s.respond x.id 0 rs).openSess i = some x := by
  have hx := State.sessAt_index (State.openSess_iff.1 h).1
  rw [State.respond_open (State.openNamed_of_openSess hi h), hx]
  exact (State.openSess_setSess (f := keptReply 0 rs) h (keptReply_index 0 rs) (by rw [keptReply_zero])).trans (congrArg some (keptReply_zero rs x))

/-! ### One operation (R333) -/

/-- An operation on the DZ8 itself, of the format of R333. -/
def opLocal (op : BOp) : Prop := opBad op = false ∧ ¬((op.opcode = 1 ∨ op.opcode = 2) ∧ adRemote op.address = true)

theorem runOps_bad {op : BOp} (h : s.openNamed z = some x) (hb : opBad op = true) :
    State.runOps z n [op] [] false s = s.respond z n [opResult op stSIZE []] := by
  rw [State.runOps, ← State.openNamed, h]
  dsimp only
  rw [if_neg Bool.false_ne_true, if_pos hb]
  rfl

theorem runOps_local {op : BOp} (h : s.openNamed z = some x) (hop : opLocal op) :
    State.runOps z n [op] [] false s = (s.localOp x op).2.respond z n [(s.localOp x op).1] := by
  obtain ⟨hb, hl⟩ := hop
  rw [State.runOps, ← State.openNamed, h]
  dsimp only
  rw [if_neg Bool.false_ne_true, if_neg (by rw [hb]; decide), if_neg hl]
  rfl

/-- A datagram of a session shows that it lives (R331). -/
def Sess.heard (now : Nat) (y : Sess) : Sess := { y with lastNs := now }

theorem State.oneOp_open (h : s.openSess i = some x) (op : BOp) :
    s.oneOp i op = State.runOps x.id 0 [op] [] false (s.setSess i (Sess.heard s.time.nowNs)) := by
  rw [State.oneOp, h]
  rfl

theorem State.openSess_heard (h : s.openSess i = some x) (now : Nat) : (s.setSess i (Sess.heard now)).openSess i = some (x.heard now) :=
  State.openSess_setSess h (fun _ => rfl) rfl

theorem State.openNamed_heard (hi : i < 64) (h : s.openSess i = some x) (now : Nat) :
    (s.setSess i (Sess.heard now)).openNamed x.id = some (x.heard now) :=
  State.openNamed_of_openSess hi (State.openSess_heard h now)

theorem State.oneOp_bad {op : BOp} (hi : i < 64) (h : s.openSess i = some x) (hb : opBad op = true) :
    s.oneOp i op = (s.setSess i (Sess.heard s.time.nowNs)).respond x.id 0 [opResult op stSIZE []] :=
  (State.oneOp_open h op).trans (runOps_bad (State.openNamed_heard hi h _) hb)

theorem State.oneOp_local {op : BOp} (hi : i < 64) (h : s.openSess i = some x) (hop : opLocal op) :
    s.oneOp i op = ((s.setSess i (Sess.heard s.time.nowNs)).localOp (x.heard s.time.nowNs) op).2.respond x.id 0
      [((s.setSess i (Sess.heard s.time.nowNs)).localOp (x.heard s.time.nowNs) op).1] :=
  (State.oneOp_open h op).trans (runOps_local (State.openNamed_heard hi h _) hop)

/-- A COUNT of 0 or over 128 answers SIZE (log entry 48). -/
theorem opRead_bad {n : Nat} (h : n = 0 ∨ 128 < n) (a : Nat) : opBad ⟨1, n, a, []⟩ = true := by
  show (n == 0 || decide (128 < n)) = true
  rcases h with h | h <;> simp [h]

theorem opRead_local {a n : Nat} (h₁ : 1 ≤ n) (h₂ : n ≤ 128) (ha : adRemote a = false) : opLocal ⟨1, n, a, []⟩ := by
  refine ⟨?_, fun h => Bool.false_ne_true (ha.symm.trans h.2)⟩
  show (n == 0 || decide (128 < n)) = false
  rw [beq_eq_false_iff_ne.2 (by omega), decide_eq_false (by omega)]
  rfl

theorem opWrite_local {a : Nat} {w : List Word} (h₁ : w ≠ []) (h₂ : w.length ≤ 128) (ha : adRemote a = false) : opLocal ⟨2, w.length, a, w⟩ := by
  refine ⟨?_, fun h => Bool.false_ne_true (ha.symm.trans h.2)⟩
  show (w.length == 0 || decide (128 < w.length) || w.length != w.length) = false
  rw [beq_eq_false_iff_ne.2 (mt List.length_eq_zero_iff.1 h₁), decide_eq_false (by omega)]
  simp

theorem opKeepalive_local (a : Nat) : opLocal ⟨3, 0, a, []⟩ := ⟨rfl, fun h => h.1.elim nofun nofun⟩

theorem opFilter_local (m : Word) : opLocal ⟨4, 0, 0, [m]⟩ := ⟨rfl, fun h => h.1.elim nofun nofun⟩

/-! ### BEYJO_REQUEST (R332) -/

theorem beyjoRequest_ops {l : List BOp} (h : s.openNamed z = some x) (hl : l ≠ []) (hlen : l.length ≤ 64) :
    exec (.beyjoRequest z n true l) s = .next ((s.setSess x.index (Sess.heard s.time.nowNs)).request x n l) :=
  congrArg Host.Outcome.next ((State.inSess_good h _).trans (if_neg (by simpa [hl] using hlen)))

theorem State.request_answered {r : Nat × List OpResult} (h : (x.replies.find? fun r => r.1 == n) = some r) (l : List BOp) :
    s.request x n l = s.frame (.response x.id n r.2) := by
  rw [State.request, h]

theorem State.request_oldSeq (h : (x.replies.find? fun r => r.1 == n) = none)
    (ho : (s.beyjo.openReqs.any fun r => r.index == x.index && r.seq == n) = false) (hn : n ≤ x.lastSeq) (l : List BOp) :
    s.request x n l = s.bump BYJ_REJECT_SEQ 1 := by
  rw [State.request, h]
  dsimp only
  rw [ho, if_neg Bool.false_ne_true, if_pos hn]

theorem State.request_runs {l : List BOp} (h : (x.replies.find? fun r => r.1 == n) = none)
    (ho : (s.beyjo.openReqs.any fun r => r.index == x.index && r.seq == n) = false) (hn : x.lastSeq < n) (hb : responseBytes l ≤ 8960) :
    s.request x n l = State.runOps x.id n l [] false (s.setSess x.index fun y => { y with lastSeq := n }) := by
  rw [State.request, h]
  dsimp only
  rw [ho, if_neg Bool.false_ne_true, if_neg (Nat.not_le.2 hn), if_neg (Nat.not_lt.2 hb)]

end

/-- Settles O45: each case is the effect of its command, within the parts of its row (`exec_reach`). The RESPONSE of SEQ 0 is log entry 50, SIZE for a
COUNT out of range log entry 48. -/
theorem beyjoOperations : Obligations.BeyjoOperations := by
  unfold Obligations.BeyjoOperations
  refine ⟨?_, ?_, ?_, ?_, ?_, ?_, ?_, ?_, ?_, ?_, ?_⟩
  · intro s z n l x r h hl hlen hr
    have hexec := (beyjoRequest_ops (n := n) h hl hlen).trans (congrArg Host.Outcome.next (State.request_answered hr l))
    exact (exec_reach (.beyjoRequest z n true l) s).next hexec ⟨rfl, State.rd_bump_same ..⟩
  · intro s z n a x h hr ho hn
    let u := s.setSess x.index (Sess.heard s.time.nowNs)
    let v := u.setSess x.index fun y => { y with lastSeq := n }
    have hu : u.openNamed z = some (x.heard s.time.nowNs) := State.openNamed_setSess h (fun _ => rfl) (fun _ => rfl) rfl
    have hv : v.openNamed z = some { x.heard s.time.nowNs with lastSeq := n } := State.openNamed_setSess hu (fun _ => rfl) (fun _ => rfl) rfl
    have hexec : exec (.beyjoRequest z n true [⟨3, 0, a, []⟩]) s = .next (v.respond z n [⟨3, stOK, a, []⟩]) := by
      have hfit : responseBytes [⟨3, 0, a, []⟩] ≤ 8960 := (by decide : 56 ≤ 8960)
      have hlen : [(⟨3, 0, a, []⟩ : BOp)].length ≤ 64 := (by decide : 1 ≤ 64)
      rw [beyjoRequest_ops h (List.cons_ne_nil _ _) hlen, State.request_runs (s := u) hr ho hn hfit, State.openNamed_id h]
      exact congrArg Host.Outcome.next (runOps_local hv (opKeepalive_local a))
    obtain ⟨hout, hcount⟩ := State.respond_sent hv n [⟨3, stOK, a, []⟩]
    refine (exec_reach (.beyjoRequest z n true [⟨3, 0, a, []⟩]) s).next hexec ⟨hout, hcount, ?_⟩
    rw [State.respond_open hv]
    exact ⟨_, State.setSess_mem (List.mem_of_find?_eq_some (State.openNamed_iff.1 hv).1) _, keptReply_index .., keptReply_lastSeq ..⟩
  · intro s z n l x h hl hlen hr ho hn
    have hexec := (beyjoRequest_ops (n := n) h hl hlen).trans (congrArg Host.Outcome.next
      (State.request_oldSeq (s := s.setSess x.index (Sess.heard s.time.nowNs)) hr ho hn l))
    exact (exec_reach (.beyjoRequest z n true l) s).next hexec ⟨State.rd_bump_same .., rfl⟩
  · intro s z n l x h
    exact (exec_reach (.beyjoRequest z n false l) s).next (congrArg Host.Outcome.next (State.inSess_badTag h _))
      ⟨(RegsBut.refl _ s).bump (List.mem_singleton_self _) 1, State.rd_bump_same .., rfl⟩
  · intro s i a n x hi h h₁ h₂ ha
    exact (exec_reach (.opRead i a n) s).next (congrArg Host.Outcome.next (State.oneOp_local hi h (opRead_local h₁ h₂ ha))) rfl
  · intro s i a n x hi h hn
    exact (exec_reach (.opRead i a n) s).next (congrArg Host.Outcome.next (State.oneOp_bad hi h (opRead_bad hn a)))
      (State.respond_sent (State.openNamed_heard hi h _) 0 _)
  · intro s i a w x hi h hw hlen ha
    exact (exec_reach (.opWrite i a w) s).next (congrArg Host.Outcome.next (State.oneOp_local hi h (opWrite_local hw hlen ha))) rfl
  · intro s i a x hi h
    exact (exec_reach (.opWrite i a []) s).next (congrArg Host.Outcome.next (State.oneOp_bad hi h rfl))
      (State.respond_sent (State.openNamed_heard hi h _) 0 _).1
  · intro s i x hi h
    have hu := State.openSess_heard h s.time.nowNs
    obtain ⟨hout, hcount⟩ := State.respond_sent (State.openNamed_of_openSess hi hu) 0 [⟨3, stOK, 0, []⟩]
    refine (exec_reach (.opKeepalive i) s).next (congrArg Host.Outcome.next (State.oneOp_local hi h (opKeepalive_local 0))) ⟨hout, ?_, hcount⟩
    exact congrArg (Option.map Sess.lastNs) (State.respond_zero_openSess hi hu _)
  · intro s i m x hi h
    have hu := State.openSess_heard h s.time.nowNs
    have hx : (x.heard s.time.nowNs).index = i := State.sessAt_index (State.openSess_iff.1 hu).1
    have hv : ((s.setSess i (Sess.heard s.time.nowNs)).localOp (x.heard s.time.nowNs) ⟨4, 0, 0, [m]⟩).2.openSess i =
        some { x.heard s.time.nowNs with mask := m.toNat ||| 0x80 } := by
      rw [State.localOp, hx]
      exact State.openSess_setSess hu (fun _ => rfl) rfl
    obtain ⟨hout, -⟩ := State.respond_sent (State.openNamed_of_openSess hi hv) 0 [⟨4, stOK, 0, []⟩]
    refine (exec_reach (.opFilter i m) s).next (congrArg Host.Outcome.next (State.oneOp_local hi h (opFilter_local m))) ⟨hout, ?_⟩
    exact congrArg (Option.map Sess.mask) (State.respond_zero_openSess hi hv _)
  · intro s i m h
    have hexec : exec (.opFilter i m) s = .next s := by
      show execOpFilter i m s = _
      rw [execOpFilter, State.oneOp, h]
    exact (exec_reach (.opFilter i m) s).next hexec rfl

end Sys2Proof.Machine
end

section
/-! Firmware at the unit, and O47 (R449, R454, R455, R462). The order of the checks of FW_STAGE and the rounds of a distribution are log entry 98. -/

namespace Sys2Proof.Machine

/-! ### FW_STAGE (R449) -/

section
variable {s : State} {i n : Nat} {a b : Bool}

theorem fwStage_notTaken (a b : Bool) (h : s.takenFor i n 3 = false) : exec (.fwStage i n a b) s = .next s := by
  show execFwStage i n a b s = _
  unfold execFwStage
  extract_lets len w kind
  rw [h]

theorem fwStage_mailErr {e : Nat} (a b : Bool) (h : s.takenFor i n 3 = true) (he : s.mailErr i n 3 2 [0, 2] = some e) :
    exec (.fwStage i n a b) s = .next (s.mailReject i n e []) := by
  show execFwStage i n a b s = _
  unfold execFwStage
  extract_lets len w kind
  rw [h, he]

theorem fwStage_noKind (a b : Bool) (h : s.takenFor i n 3 = true) (he : s.mailErr i n 3 2 [0, 2] = none) (hw : bit (s.slotGet i n 1) 1 = true)
    (hk : bits (s.slotGet i n 1) 15 8 = 0) : exec (.fwStage i n a b) s = .next (s.mailReject i n 3 []) := by
  show execFwStage i n a b s = _
  unfold execFwStage
  extract_lets len w kind
  rw [h, he]
  exact congrArg Host.Outcome.next ((if_pos hw).trans (if_pos (.inl hk)))

/-- A container that fits into the load buffer is staged, unless the buffer is in use (log entry 98). -/
theorem fwStage_loads (a b : Bool) (h : s.takenFor i n 3 = true) (he : s.mailErr i n 3 2 [0, 2] = none) (hw : bit (s.slotGet i n 1) 1 = false)
    (hl : s.slotGet i n 0 % 2 ^ 32 ≤ 2 ^ 23) : exec (.fwStage i n a b) s =
      .next (if s.boot.loadBusy then s.mailReject i n 4 [] else s.stage i n (s.slotGet i n 0 % 2 ^ 32) (bit (s.slotGet i n 1) 0) a b) := by
  show execFwStage i n a b s = _
  unfold execFwStage
  extract_lets len w kind
  have hw' : ¬bit w 1 = true := by simpa [w] using hw
  rw [h, he]
  exact congrArg Host.Outcome.next ((if_neg hw').trans (if_neg (Nat.not_lt.2 hl)))

theorem State.stage_fails {len e : Nat} (d : Bool) (he : s.imageErr (containerOf (mread s.boot.load 0 len) a) = some e) :
    s.stage i n len d a b = (s.showFw (containerOf (mread s.boot.load 0 len) a).kind 3 (containerOf (mread s.boot.load 0 len) a).svn
      (containerOf (mread s.boot.load 0 len) a).ver).mailReject i n 0x10 [e] := by
  unfold State.stage
  extract_lets x
  rw [he]

theorem State.stage_stages {len : Nat} (d : Bool) (he : s.imageErr (containerOf (mread s.boot.load 0 len) a) = none)
    (hk : (containerOf (mread s.boot.load 0 len) a).kind ≠ 6) : s.stage i n len d a true =
      (s.stageImage (containerOf (mread s.boot.load 0 len) a)).mailOk i n [(containerOf (mread s.boot.load 0 len) a).kind,
        (containerOf (mread s.boot.load 0 len) a).ver, (containerOf (mread s.boot.load 0 len) a).svn] := by
  unfold State.stage
  extract_lets x
  rw [he]
  exact (if_neg fun h => hk h.1).trans ((if_neg Bool.false_ne_true).trans (if_neg fun h => hk h.1))

end

/-! ### What GEN_AGENTFW shows of a distribution (R463) -/

section
variable (s : State) (st : Nat)

theorem State.rd_showDist_state : (s.showDist st).rd GEN_AGENTFW_STATE = st % 2 ^ GEN_AGENTFW_STATE.w := State.rd_wr_same ..

theorem State.rd_showDist_failed {d : Distrib} (hd : s.boot.distrib = some d) (h : (d.targets.filter fun t => t.2 == 2) = []) :
    (s.showDist st).rd GEN_AGENTFW_FAILED = 0 := by
  unfold State.showDist
  rw [hd, State.rd_wr_other _ (by decide), State.rd_wr_same]
  dsimp only
  rw [h]
  rfl

end

/-! ### A distribution begins (R455) -/

section
variable {s : State}

theorem State.agentChips_of_fid {t : State} (h : t.fid = s.fid) (r : Rod) : t.agentChips r = s.agentChips r := by
  simp only [State.agentChips, State.domainChips, State.domain, h]

theorem State.startMode_agentChips (b : Nat) (host : Bool) (r : Rod) : (s.startMode b host).agentChips r = s.agentChips r :=
  State.agentChips_of_fid (State.rd_wr_other _ (by decide) _) r

/-- The distribution of a container as it begins. -/
def State.newDist (s : State) (x : Container) : Distrib :=
  ⟨(s.boot.distSerial + 1) % 2 ^ 16, x.raw, 3, 0, 0, (s.agentChips s.theRod).map fun f => (f, 0)⟩

/-- The state with the distribution begun. -/
def State.distStarted (s : State) (d : Distrib) : State :=
  ((s.startMode 7 false).setBoot fun b => { b with distSerial := d.serial, distrib := some d }).showDist 1

theorem fwDistribute_starts {x : Container} (ha : s.active = true) (hd : s.boot.distrib = none) (hr : s.boot.rod.isSome = true)
    (hm : s.hostMode 7 = false) (hx : s.agentImage = some x) : exec .fwDistribute s = .next (s.distStarted (s.newDist x)) := by
  have hchips : (s.startMode 7 false).agentChips (s.startMode 7 false).theRod = s.agentChips s.theRod := State.startMode_agentChips 7 false s.theRod
  have hno : ¬(!s.active || s.distRuns || s.boot.rod.isNone || s.hostMode 7) = true := by
    simp [ha, State.distRuns, hd, Option.isNone_eq_false_iff.2 hr, hm]
  show Host.Outcome.next s.startDist = _
  rw [State.startDist, if_neg hno, hx]
  dsimp only
  rw [hchips]
  rfl

theorem fwDistribute_notActive (ha : s.active = false) : exec .fwDistribute s = .next s :=
  congrArg Host.Outcome.next (if_pos (by simp [ha]))

theorem State.newDist_noFailed (x : Container) : ((s.newDist x).targets.filter fun t => t.2 == 2) = [] := by simp [State.newDist]

end

/-! ### A round of repair, and the end of a distribution (R455) -/

section
variable {s : State} {d : Distrib}

/-- The targets that a round leaves without the whole container. -/
def openAfter (d : Distrib) (l : List FwReport) : List Nat := ((d.targets.map (targetNow d.rounds l)).filter fun t => t.2 == 0).map (·.1)

/-- The missing chunks go to the agents that lack them. -/
def State.resendMissing (s : State) (d : Distrib) (l : List FwReport) : State :=
  if d.rounds < 8 then
    (l.filter fun x => (openAfter d l).contains x.fid).foldl (fun s x =>
      (x.missing.filter fun i => decide (i < chunkCount d.container.length)).foldl (fun s i => s.fwTo x.fid (chunkWords d i)) s) s
  else s

/-- The distribution after a round. -/
def roundDist (d : Distrib) (l : List FwReport) : Distrib :=
  { d with targets := d.targets.map (targetNow d.rounds l), rounds := if (openAfter d l).isEmpty then d.rounds else d.rounds + 1 }

/-- The round without the end of the distribution. -/
def State.roundDone (s : State) (d : Distrib) (l : List FwReport) : State :=
  ((s.resendMissing d l).setBoot fun b => { b with distrib := some (roundDist d l) }).showDist (if (openAfter d l).isEmpty then 3 else 2)

theorem fwRepairRound_none (l : List FwReport) (h : s.boot.distrib = none) : exec (.fwRepairRound l) s = .next s := by
  show execFwRepairRound l s = _
  rw [execFwRepairRound, h]

theorem fwRepairRound_runs (l : List FwReport) (h : s.boot.distrib = some d) (hst : 2 ≤ s.rd GEN_AGENTFW_STATE) :
    exec (.fwRepairRound l) s = .next (s.roundDone d l).distEnd := by
  show execFwRepairRound l s = _
  rw [execFwRepairRound, h]
  exact congrArg Host.Outcome.next (if_neg (Nat.not_lt.2 hst))

theorem State.fwTo_frame (s : State) (f : Nat) (ws : List Nat) : Within [.regs, .aregs, .ports, .agPorts, .flt, .agFlt, .out] s (s.fwTo f ws) :=
  State.fwTo_within (by decide) (by decide) (by decide) (by decide) (by decide) (by decide) (by decide) f ws (.refl _ s)

theorem State.fwTo_boot (s : State) (f : Nat) (ws : List Nat) : (s.fwTo f ws).boot = s.boot := (s.fwTo_frame f ws).boot_eq (by decide)

/-- What the sends of firmware chunks leave is what each of them leaves. -/
theorem State.resendMissing_keeps {β : Type} (p : State → β) (h : ∀ (u : State) f ws, p (u.fwTo f ws) = p u) (l : List FwReport) :
    p (s.resendMissing d l) = p s := by
  unfold State.resendMissing
  split
  · exact foldl_keeps p (fun u (x : FwReport) => foldl_keeps p (fun v i => h v _ _) _ u) _ s
  · rfl

theorem State.roundDone_distrib (l : List FwReport) : (s.roundDone d l).boot.distrib = some (roundDist d l) := rfl

theorem State.roundDone_run (l : List FwReport) : (s.roundDone d l).boot.run = s.boot.run :=
  State.resendMissing_keeps (fun u => u.boot.run) (fun u f ws => congrArg BootSt.run (u.fwTo_boot f ws)) l

theorem State.roundDone_rot (l : List FwReport) : (s.roundDone d l).rot = s.rot :=
  State.resendMissing_keeps State.rot (fun u f ws => (u.fwTo_frame f ws).rot_eq (by decide)) l

theorem openAfter_isEmpty (l : List FwReport) : (openAfter d l).isEmpty = !d.targets.any fun x => (targetNow d.rounds l x).2 == 0 := by
  rw [Bool.eq_iff_iff]
  simp only [openAfter, List.isEmpty_iff, List.map_eq_nil_iff, List.filter_eq_nil_iff, List.forall_mem_map, Bool.not_eq_true', List.any_eq_false]

theorem State.distEnd_goes (hd : s.boot.distrib = some d) (h : ¬(d.targets.all fun t => t.2 == 2 || t.2 == 3) = true) : s.distEnd = s := by
  rw [State.distEnd, hd]
  exact if_neg h

/-- GEN_AGENTFW shows the end and the distribution goes. -/
def State.distClosed (s : State) : State := (s.showDist 4).setBoot fun b => { b with distrib := none }

/-- The staged image of kind 6 becomes the running one, and shows (R455). -/
def State.imagesShown (s : State) : State := ((s.activate [6]).showImages).showUpdate

/-- Index 6 reports the new image (R294). -/
def State.agentMeasured (s : State) : State := s.setRot fun r => { r with measured := setNth r.measured 5 (s.imageDigest 6) }

theorem State.distEnd_ends (hd : s.boot.distrib = some d) (h : (d.targets.all fun t => t.2 == 2 || t.2 == 3) = true) : s.distEnd = s.distClosed.imagesShown.agentMeasured := by
  rw [State.distEnd, hd]
  exact if_pos h

theorem State.rd_showImages {g : Fld} (hr : g.key ≠ GEN_BOOT_RUN_SLOT.key)
    (hk : ∀ k ∈ [1, 2, 3, 4, 5, 6], g.key ≠ (GEN_FWVER_SVN (k - 1)).key ∧ g.key ≠ (GEN_FWVER_VER (k - 1)).key) : s.showImages.rd g = s.rd g := by
  refine List.foldlRecOn (motive := fun u : State => u.rd g = s.rd g) _ _ (State.rd_wr_other _ hr _) fun u hu k hm => ?_
  obtain ⟨hsvn, hver⟩ := hk k hm
  split
  · exact hu
  · rw [State.rd_wr_other _ hver, State.rd_wr_other _ hsvn, hu]

theorem State.rd_showUpdate {g : Fld} (hu : g.key ≠ FRK_STAT_UPDATE.key) (hv : g.key ≠ FRK_STAT_STAGED_VALID.key) : s.showUpdate.rd g = s.rd g := by
  unfold State.showUpdate
  extract_lets ks d
  rw [State.rd_wr_other _ hv, State.rd_wr_other _ hu]
  rfl

theorem State.activate_distrib (kinds : List Nat) : (s.activate kinds).boot.distrib = s.boot.distrib := by
  unfold State.activate
  exact List.foldlRecOn (motive := fun u : State => u.boot.distrib = s.boot.distrib) _ _ rfl fun u hu k _ => hu

theorem State.imagesShown_distrib : s.imagesShown.boot.distrib = s.boot.distrib := by
  have himages : s.imagesShown.boot = (s.activate [6]).boot :=
    (State.showUpdate_within (A := [.regs, .rot]) (by decide) (by decide) (State.showImages_within (by decide) (.refl _ _))).boot_eq (by decide)
  rw [himages, State.activate_distrib]

theorem State.rd_imagesShown : s.imagesShown.rd GEN_AGENTFW_STATE = s.rd GEN_AGENTFW_STATE := by
  unfold State.imagesShown
  rw [State.rd_showUpdate (by decide) (by decide), State.rd_showImages (by decide) (by decide)]
  exact (State.activate_within (A := [.boot]) (by decide) [6] (.refl _ s)).rd_eq (by decide) _

theorem State.rd_distClosed : s.distClosed.rd GEN_AGENTFW_STATE = 4 := s.rd_showDist_state 4

theorem State.agentMeasured_boot : s.agentMeasured.boot = s.boot := rfl

theorem State.rd_agentMeasured (g : Fld) : s.agentMeasured.rd g = s.rd g := rfl

theorem State.distEnded_distrib : s.distClosed.imagesShown.agentMeasured.boot.distrib = none := by
  rw [State.agentMeasured_boot, State.imagesShown_distrib]
  rfl

theorem State.rd_distEnded : s.distClosed.imagesShown.agentMeasured.rd GEN_AGENTFW_STATE = 4 := by
  rw [State.rd_agentMeasured, State.rd_imagesShown, State.rd_distClosed]

end

/-! ### FW_ACTIVATE_SEND and FW_ABORT (R454, R455) -/

section
variable {s : State} {d : Distrib}

/-- The targets that may activate now. -/
def State.activable (s : State) (d : Distrib) : List Nat := (d.targets.filter fun x => x.2 == 1 && !s.inArmed x.1).map (·.1)

/-- ACTIVATE goes to the targets. -/
def State.sendActivate (s : State) (d : Distrib) (go : List Nat) : State :=
  go.foldl (fun u f => u.fwTo f [fwWord 3 d.serial 0, (u.time.beat + 4096) % 2 ^ 56]) s

/-- The targets of the list have their ACTIVATE. -/
def activateSent (d : Distrib) (go : List Nat) : Distrib := { d with targets := d.targets.map fun x => if go.contains x.1 then (x.1, 4) else x }

theorem fwActivateSend_sends (h : s.boot.distrib = some d) : exec .fwActivateSend s =
    .next ((s.sendActivate d (s.activable d)).setBoot fun b => { b with distrib := some (activateSent d (s.activable d)) }) := by
  show execFwActivateSend s = _
  rw [execFwActivateSend, h]
  rfl

theorem fwActivateSend_none (h : s.boot.distrib = none) : exec .fwActivateSend s = .next s := by
  show execFwActivateSend s = _
  rw [execFwActivateSend, h]

/-- ABORT goes out and the distribution ends. -/
def State.distAborted (s : State) (d : Distrib) : State :=
  ((s.fwCast [fwWord 4 d.serial 0]).setBoot fun b => { b with distrib := none }).showDist 0

theorem fwAbort_ends (x : Cell) (h : s.boot.distrib = some d) : exec (.fwAbort .dz8 x) s = .next (s.distAborted d) := by
  show execFwAbort .dz8 x s = _
  unfold execFwAbort State.distAborted
  dsimp only
  rw [h]

theorem fwAbort_nothing (x : Cell) (h : s.boot.distrib = none) (ha : s.active = false) : exec (.fwAbort .dz8 x) s = .next s := by
  show execFwAbort .dz8 x s = _
  simp only [execFwAbort, h, ha, Bool.false_eq_true, if_false]

theorem State.distAborted_flash : (s.distAborted d).boot.flash = s.boot.flash := by
  show (s.fwCast [fwWord 4 d.serial 0]).boot.flash = s.boot.flash
  exact congrArg BootSt.flash ((State.fwCast_within (A := [.ports, .agPorts]) (by decide) (by decide) [fwWord 4 d.serial 0] (.refl _ s)).boot_eq (by decide))

end

/-- Settles O47: each case is the effect of its command, within the parts of its row (`exec_reach`). The order of the checks of FW_STAGE and the rounds
of a distribution are log entry 98. -/
theorem firmwareAtTheUnit : Obligations.FirmwareAtTheUnit := by
  unfold Obligations.FirmwareAtTheUnit
  refine ⟨?_, ?_, ?_, ?_, ?_, ?_, ?_, ?_, ?_, ?_, ?_, ?_, ?_, ?_⟩
  · intro s i n a b h
    exact (exec_reach (.fwStage i n a b) s).next (fwStage_notTaken a b h) rfl
  · intro s i n a b e h he
    exact (exec_reach (.fwStage i n a b) s).next (fwStage_mailErr a b h he) rfl
  · intro s i n a b h he hw hk
    exact (exec_reach (.fwStage i n a b) s).next (fwStage_noKind a b h he hw hk) rfl
  · intro s i n a b h he hw hl hbusy
    exact (exec_reach (.fwStage i n a b) s).next (fwStage_loads a b h he hw hl) (if_pos hbusy)
  · intro s i n a b h he hw hl hbusy
    have hexec := (fwStage_loads a b h he hw hl).trans (congrArg Host.Outcome.next (if_neg (by rw [hbusy]; exact Bool.false_ne_true)))
    refine (exec_reach (.fwStage i n a b) s).next hexec ⟨fun e h => State.stage_fails _ h, fun h hk hb => ?_⟩
    subst hb
    exact State.stage_stages _ h hk
  · intro s ha
    exact (exec_reach .fwDistribute s).next (fwDistribute_notActive ha) rfl
  · intro s x ha hd hr hm hx
    exact (exec_reach .fwDistribute s).next (fwDistribute_starts ha hd hr hm hx)
      ⟨rfl, State.rd_showDist_state _ 1, State.rd_showDist_failed _ 1 rfl (State.newDist_noFailed x), rfl⟩
  · intro s l h
    exact (exec_reach (.fwRepairRound l) s).next (fwRepairRound_none l h) rfl
  · intro s l d h hst hopen
    have hempty : (openAfter d l).isEmpty = false := by rw [openAfter_isEmpty, hopen]; rfl
    have hgoes : ¬((roundDist d l).targets.all fun t => t.2 == 2 || t.2 == 3) = true := by
      obtain ⟨x, hx, h0⟩ := List.any_eq_true.1 hopen
      intro hall
      have hx' := List.all_eq_true.1 hall _ (List.mem_map_of_mem hx)
      rw [beq_iff_eq.1 h0] at hx'
      exact absurd hx' (by decide)
    have hexec := (fwRepairRound_runs l h hst).trans (congrArg Host.Outcome.next (State.distEnd_goes (State.roundDone_distrib l) hgoes))
    refine (exec_reach (.fwRepairRound l) s).next hexec ⟨?_, ?_, State.roundDone_run l, State.roundDone_rot l⟩
    · rw [State.roundDone_distrib, roundDist, hempty]
      rfl
    · rw [State.roundDone, hempty]
      exact State.rd_showDist_state _ 2
  · intro s l d h hst hall
    have hends : ((roundDist d l).targets.all fun t => t.2 == 2 || t.2 == 3) = true := (List.all_map ..).trans hall
    exact (exec_reach (.fwRepairRound l) s).next
      ((fwRepairRound_runs l h hst).trans (congrArg Host.Outcome.next (State.distEnd_ends (State.roundDone_distrib l) hends)))
      ⟨State.distEnded_distrib, State.rd_distEnded⟩
  · intro s d h
    refine (exec_reach .fwActivateSend s).next (fwActivateSend_sends h) ⟨rfl, fun hnone => ?_⟩
    have hgo : s.activable d = [] := hnone
    rw [hgo]
    exact ⟨rfl, rfl⟩
  · intro s h
    exact (exec_reach .fwActivateSend s).next (fwActivateSend_none h) rfl
  · intro s x d h
    exact (exec_reach (.fwAbort .dz8 x) s).next (fwAbort_ends x h) ⟨rfl, State.rd_showDist_state _ 0, State.distAborted_flash⟩
  · intro s x h ha
    exact (exec_reach (.fwAbort .dz8 x) s).next (fwAbort_nothing x h ha) rfl

end Sys2Proof.Machine
end

section
/-! Firmware at the agent, and O48 (R446, R447, R454, R455, R475). AGENT_FW_GO as a row is log entry 122. -/

namespace Sys2Proof.Machine

section
variable {s : State} {x : Cell} {f : AgFw}

/-! ### FW_BEGIN, FW_DATA and FW_ACTIVATE (R454, R455) -/

theorem fwBegin_begins (ht : x.type = tFWCHUNK) (ho : fwOp x = 1) (hn : s.ag.fw = none) (hl : cellWord x 1 ≤ 2 ^ 23) :
    exec (.fwBegin x) s = .next (s.setAg fun a => { a with fw := some ⟨fwDist x, cellWord x 1, (cellPayload x).drop 16, [], 0, none, none⟩ }) := by
  refine congrArg Host.Outcome.next (if_neg ?_)
  rw [hn]
  rintro (h | h | h | h)
  · exact h ht
  · exact h ho
  · cases h
  · exact Nat.not_lt.2 hl h

theorem fwBegin_known (h : s.ag.fw = some f) (hd : f.dist = fwDist x) : exec (.fwBegin x) s = .next s := by
  refine congrArg Host.Outcome.next (if_pos (.inr (.inr (.inl ?_))))
  rw [h]
  exact beq_iff_eq.2 hd

/-- A chunk is kept. -/
def fwKept (f : AgFw) (x : Cell) : AgFw := { f with chunks := f.chunks ++ [(fwIndex x, (cellPayload x).drop 8)] }

/-- A container with chunks missing is not checked. -/
theorem State.fwCheck_incomplete (b : Bool) (h : f.chunks.length < chunkCount f.len) : s.fwCheck f b = s := by
  rw [State.fwCheck]
  exact if_pos h

theorem fwData_keeps (b : Bool) (h : s.ag.fw = some f) (ht : x.type = tFWCHUNK) (ho : fwOp x = 2) (hd : f.dist = fwDist x) (hs : f.state = 0)
    (hi : fwIndex x < chunkCount f.len) (hnew : (f.chunks.any fun c => c.1 == fwIndex x) = false) (hmore : f.chunks.length + 1 < chunkCount f.len) :
    exec (.fwData x b) s = .next (s.setAg fun a => { a with fw := some (fwKept f x) }) := by
  have hpart : (fwKept f x).chunks.length < chunkCount (fwKept f x).len := by
    show (f.chunks ++ [_]).length < chunkCount f.len
    rwa [List.length_append]
  show execFwData x b s = _
  rw [execFwData, h]
  refine congrArg Host.Outcome.next ((if_neg ?_).trans (State.fwCheck_incomplete b hpart))
  rintro (h | h | h | h | h | h)
  · exact h ht
  · exact h ho
  · exact h hd
  · exact h hs
  · exact Nat.not_lt.2 h hi
  · exact Bool.false_ne_true (hnew.symm.trans h)

theorem fwData_again (b : Bool) (h : s.ag.fw = some f) (hold : (f.chunks.any fun c => c.1 == fwIndex x) = true) : exec (.fwData x b) s = .next s := by
  show execFwData x b s = _
  rw [execFwData, h]
  exact congrArg Host.Outcome.next (if_pos (.inr (.inr (.inr (.inr (.inr hold))))))

theorem fwActivate_takes (h : s.ag.fw = some f) (ht : x.type = tFWCHUNK) (ho : fwOp x = 3) (hd : f.dist = fwDist x) (hs : f.state = 1) :
    exec (.fwActivate x) s = .next (s.setAg fun a => { a with fw := some { f with activateAt := some (cellWord x 1 % 2 ^ 56) } }) := by
  show execFwActivate x s = _
  rw [execFwActivate, h]
  exact congrArg Host.Outcome.next (if_pos ⟨ht, ho, hd, hs⟩)

theorem fwActivate_notVerified (h : s.ag.fw = some f) (hs : f.state ≠ 1) : exec (.fwActivate x) s = .next s := by
  show execFwActivate x s = _
  rw [execFwActivate, h]
  exact congrArg Host.Outcome.next (if_neg fun hc => hs hc.2.2.2)

/-! ### FW_ACTIVATE_AT (R455) -/

/-- The versions of an image that runs show (R447). -/
theorem State.agentRun_shows (s : State) (y : Container) : AregsBut [GEN_FWVER_SVN 5, GEN_FWVER_VER 5] s (s.agentRun y) ∧
    (s.agentRun y).ard (GEN_FWVER_SVN 5) = y.svn % 2 ^ (GEN_FWVER_SVN 5).w ∧ (s.agentRun y).ard (GEN_FWVER_VER 5) = y.ver % 2 ^ (GEN_FWVER_VER 5).w := by
  let u := s.setAg fun a => { a with image := some y }
  have hu : AregsBut [GEN_FWVER_SVN 5, GEN_FWVER_VER 5] s u := .of_aregs rfl
  refine ⟨(hu.awr (f := GEN_FWVER_SVN 5) (by simp) y.svn).awr (f := GEN_FWVER_VER 5) (by simp) y.ver, ?_, State.ard_awr_same ..⟩
  exact (State.ard_awr_other (u.awr (GEN_FWVER_SVN 5) y.svn) (f := GEN_FWVER_VER 5) (g := GEN_FWVER_SVN 5) (by decide) y.ver).trans (State.ard_awr_same ..)

/-- The activated image runs and its container goes. -/
def State.fwActivated (s : State) (y : Container) : State := (s.agentRun y).setAg fun g => { g with fw := none }

theorem fwActivateAt_runs {a : Nat} {y : Container} (h : s.ag.fw = some f) (ha : f.activateAt = some a) (hy : f.container = some y)
    (hb : a ≤ s.agTime.beat) : exec .fwActivateAt s = .next (s.fwActivated y) := by
  show execFwActivateAt s = _
  rw [execFwActivateAt, h]
  dsimp only
  rw [ha, hy]
  exact congrArg Host.Outcome.next (if_pos hb)

theorem fwActivateAt_early {a : Nat} (h : s.ag.fw = some f) (ha : f.activateAt = some a) (hb : s.agTime.beat < a) : exec .fwActivateAt s = .next s := by
  show execFwActivateAt s = _
  rw [execFwActivateAt, h]
  dsimp only
  rw [ha]
  cases f.container with
  | none => rfl
  | some y => exact congrArg Host.Outcome.next (if_neg (Nat.not_le.2 hb))

/-! ### AGENT_FW_GO (R475) -/

/-- The container in the agent's load buffer. -/
def State.agentLoaded (s : State) (b : Bool) : Container :=
  containerOf (mread s.ag.load 0 (min (2 ^ 23) (leNat (mread s.ag.load 16 8) + 16384))) b

theorem agentFwGo_runs {b : Bool} (hk : (s.agentLoaded b).kind = 6) (he : s.agentImageErr (s.agentLoaded b) = none) :
    exec (.agentFwGo b) s = .next (s.agentRun (s.agentLoaded b)) := by
  show execAgentFwGo b s = _
  unfold execAgentFwGo
  extract_lets bs y
  have h : (if y.kind = 6 then s.agentImageErr y else some 1) = none := (if_pos hk).trans he
  rw [h]
  rfl

theorem agentFwGo_fails {b : Bool} {e : Nat} (he : (if (s.agentLoaded b).kind = 6 then s.agentImageErr (s.agentLoaded b) else some 1) = some e) :
    exec (.agentFwGo b) s = .next (s.awr GEN_BOOT_ERR e) := by
  show execAgentFwGo b s = _
  unfold execAgentFwGo
  extract_lets bs y
  have h : (if y.kind = 6 then s.agentImageErr y else some 1) = some e := he
  rw [h]

end

/-- Settles O48: each case is the effect of its command, within the parts of its row (`exec_reach`). AGENT_FW_GO as a row is log entry 122. -/
theorem firmwareAtTheAgent : Obligations.FirmwareAtTheAgent := by
  unfold Obligations.FirmwareAtTheAgent
  refine ⟨?_, ?_, ?_, ?_, ?_, ?_, ?_, ?_, ?_, ?_⟩
  · intro s x ht ho hn hl
    exact (exec_reach (.fwBegin x) s).next (fwBegin_begins ht ho hn hl) ⟨rfl, rfl⟩
  · intro s x f h hd
    exact (exec_reach (.fwBegin x) s).next (fwBegin_known h hd) rfl
  · intro s x b f h ht ho hd hs hi hnew hmore
    exact (exec_reach (.fwData x b) s).next (fwData_keeps b h ht ho hd hs hi hnew hmore) ⟨rfl, rfl⟩
  · intro s x b f h hold
    exact (exec_reach (.fwData x b) s).next (fwData_again b h hold) rfl
  · intro s x f h ht ho hd hs
    exact (exec_reach (.fwActivate x) s).next (fwActivate_takes h ht ho hd hs) ⟨rfl, rfl⟩
  · intro s x f h hs
    exact (exec_reach (.fwActivate x) s).next (fwActivate_notVerified h hs) rfl
  · intro s f a y h ha hy hb
    obtain ⟨hregs, hsvn, hver⟩ := s.agentRun_shows y
    exact (exec_reach .fwActivateAt s).next (fwActivateAt_runs h ha hy hb) ⟨rfl, rfl, hregs, hsvn, hver⟩
  · intro s f a h ha hb
    exact (exec_reach .fwActivateAt s).next (fwActivateAt_early h ha hb) rfl
  · intro s x ht ho
    have hexec : exec (.fwAbort .agent x) s = .next (s.setAg fun a => { a with fw := none }) := congrArg Host.Outcome.next (if_pos ⟨ht, ho⟩)
    exact (exec_reach (.fwAbort .agent x) s).next hexec ⟨rfl, rfl, rfl⟩
  · intro s b
    by_cases hk : (s.agentLoaded b).kind = 6
    · cases he : s.agentImageErr (s.agentLoaded b) with
      | none =>
        refine (exec_reach (.agentFwGo b) s).next (agentFwGo_runs hk he) ⟨fun _ _ => ⟨rfl, (s.agentRun_shows _).1⟩, fun e h _ => ?_, fun h => absurd hk h⟩
        cases he.symm.trans h
      | some e =>
        refine (exec_reach (.agentFwGo b) s).next (agentFwGo_fails ((if_pos hk).trans he)) ⟨fun _ h => (nomatch he.symm.trans h), fun e' h _ => ?_,
          fun h => absurd hk h⟩
        obtain rfl := Option.some.inj (he.symm.trans h)
        exact ⟨(AregsBut.refl _ s).awr (List.mem_singleton_self _) e, State.ard_awr_same ..⟩
    · exact (exec_reach (.agentFwGo b) s).next (agentFwGo_fails (if_neg hk)) ⟨fun h => absurd h hk, fun _ _ h => absurd h hk,
        fun _ => ⟨(AregsBut.refl _ s).awr (List.mem_singleton_self _) 1, State.ard_awr_same ..⟩⟩

end Sys2Proof.Machine
end

section
/-! Resets that are asked for and that end, and O50 (R370, R384, R385, R394, R408, R441). The end of a failed reset (none running, PHASE FAILED, FATAL) is
log entry 87. -/

namespace Sys2Proof.Machine

section
variable {s : State} {q r : ResetReq}

/-! ### The scope of a request (R383, R393) -/

/-- The dies of the part show in two registers (R4). -/
theorem State.hasDie_of_rd {t : State} (hp : t.rd LCS_PART_PART = s.rd LCS_PART_PART) (hl : t.rd LCS_PART_LINKS = s.rd LCS_PART_LINKS) (d : Nat) :
    t.hasDie d = s.hasDie d := by
  simp only [State.hasDie, State.cdies, State.mdies, hp, hl]
  rfl

theorem State.blockOk_of_rd {t : State} (hp : t.rd LCS_PART_PART = s.rd LCS_PART_PART) (hl : t.rd LCS_PART_LINKS = s.rd LCS_PART_LINKS) (b d : Nat) :
    t.blockOk b d = s.blockOk b d := by
  simp only [State.blockOk, State.hasDie_of_rd hp hl]

theorem State.resetDies_of_regs {t : State} (h : t.regs = s.regs) (q : ResetReq) : t.resetDies q = s.resetDies q := by
  have hd : t.hasDie = s.hasDie := funext (State.hasDie_of_rd (by simp only [State.rd, h]) (by simp only [State.rd, h]))
  simp only [State.resetDies, hd]

/-! ### A reset is requested (R394, R408) -/

/-- A request that waits for the reset that runs. -/
def State.queued (s : State) (q : ResetReq) : State := (s.setRst fun x => { x with queue := x.queue ++ [q] }).wr RST_STAT_QUEUED 1

theorem State.requestReset_unknown (h : s.requestOk q = false) : s.requestReset q = s := if_pos (by rw [h]; rfl)

theorem State.requestReset_starts (h : s.requestOk q = true) (hr : s.rst.running = none) : s.requestReset q = s.readLeft.endDump.beginReset q true := by
  rw [State.requestReset, if_neg (by rw [h]; decide), hr]

theorem State.requestReset_waits (h : s.requestOk q = true) (hr : s.rst.running = some r) (hl : larger q r = false) : s.requestReset q = s.queued q := by
  rw [State.requestReset, if_neg (by rw [h]; decide), hr]
  exact if_neg (by rw [hl]; exact Bool.false_ne_true)

theorem State.requestReset_replaces (h : s.requestOk q = true) (hr : s.rst.running = some r) (hl : larger q r = true) (hd : s.rst.dump = none) :
    s.requestReset q = s.beginReset q false := by
  rw [State.requestReset, if_neg (by rw [h]; decide), hr]
  dsimp only
  rw [if_pos hl, hd]
  rfl

theorem State.queued_effect (s : State) (q : ResetReq) : RegsBut [RST_STAT_QUEUED] s (s.queued q) ∧ (s.queued q).rd RST_STAT_QUEUED = 1 ∧
    (s.queued q).rst.queue = s.rst.queue ++ [q] ∧ (s.queued q).rst.running = s.rst.running := by
  let u := s.setRst fun x => { x with queue := x.queue ++ [q] }
  have hu : RegsBut [RST_STAT_QUEUED] s u := .of_regs rfl
  exact ⟨hu.wr (List.mem_singleton_self _) 1, State.rd_wr_same u RST_STAT_QUEUED 1, rfl, rfl⟩

theorem sysrstNFall_requests (hp : s.boot.porst = false) : exec .sysrstNFall s = .next (s.requestReset ⟨3, 0, 0, 0⟩) :=
  congrArg Host.Outcome.next (if_neg (by rw [hp]; exact Bool.false_ne_true))

/-! ### A block hangs (R370, R384) -/

section
variable {b d : Nat}

/-- The registers of a hang. -/
def State.hangRegs (s : State) (b d : Nat) : State := ((s.bump RST_HANG_COUNT 1).wr RST_HANG_BLOCK b).wr RST_HANG_DIE d

/-- The hang shows and opens its window. -/
def State.hangShown (s : State) (b d : Nat) : State := ((s.hangRegs b d).detect .dz8 rstPg 0 (b * 2 ^ 4 + d) none).openWindow 3 0 d b

theorem watchdogHang_unknown (h : s.blockOk b d = false) : exec (.watchdogHang b d) s = .next s := congrArg Host.Outcome.next (if_pos (by rw [h]; rfl))

theorem watchdogHang_requests (h : s.blockOk b d = true) : exec (.watchdogHang b d) s = .next ((s.hangShown b d).requestReset ⟨0, d, b, 0⟩) :=
  congrArg Host.Outcome.next (if_neg (by rw [h]; decide))

theorem State.hangRegs_regsBut : RegsBut [RST_HANG_COUNT, RST_HANG_BLOCK, RST_HANG_DIE] s (s.hangRegs b d) :=
  (((RegsBut.refl _ s).bump (f := RST_HANG_COUNT) (by simp) 1).wr (f := RST_HANG_BLOCK) (by simp) b).wr (f := RST_HANG_DIE) (by simp) d

theorem State.hangRegs_rst : (s.hangRegs b d).rst = s.rst := rfl

/-- What a hang shows beside its registers lies in the fault collectors. -/
theorem State.hangShown_frame : Within [.flt, .agFlt] (s.hangRegs b d) (s.hangShown b d) :=
  State.openWindow_within (by decide) (by decide) 3 0 d b ((s.hangRegs b d).detect_frame .dz8 rstPg 0 (b * 2 ^ 4 + d) none)

theorem State.rd_hangShown (g : Fld) : (s.hangShown b d).rd g = (s.hangRegs b d).rd g := State.hangShown_frame.rd_eq (by decide) g

theorem State.hangShown_rst : (s.hangShown b d).rst = s.rst := (State.hangShown_frame.rst_eq (by decide)).trans State.hangRegs_rst

theorem State.hangShown_blockOk : (s.hangShown b d).blockOk b d = s.blockOk b d :=
  State.blockOk_of_rd ((State.rd_hangShown _).trans (State.hangRegs_regsBut _ (by decide)))
    ((State.rd_hangShown _).trans (State.hangRegs_regsBut _ (by decide))) b d

theorem State.hangShown_window : (⟨3, 0, d, b, false⟩ : Reaction) ∈ (s.hangShown b d).flt.reactions := List.mem_append_right _ (List.mem_singleton_self _)

theorem State.rd_hangRegs : (s.hangRegs b d).rd RST_HANG_COUNT = (s.rd RST_HANG_COUNT + 1) % 2 ^ RST_HANG_COUNT.w ∧
    (s.hangRegs b d).rd RST_HANG_BLOCK = b % 2 ^ RST_HANG_BLOCK.w := by
  refine ⟨?_, ?_⟩ <;> unfold State.hangRegs
  · rw [State.rd_wr_other _ (by decide), State.rd_wr_other _ (by decide), State.rd_bump_same]
  · rw [State.rd_wr_other _ (by decide), State.rd_wr_same]

theorem larger_engine (b d c : Nat) (q : ResetReq) : larger ⟨0, d, b, c⟩ q = false := rfl

end

/-! ### The check at the end of a reset (R384, R394) -/

theorem resetComplete_none {c : Bool} {u : Nat} (h : s.rst.running = none) : exec (.resetComplete c u) s = .next s := by
  show execResetComplete c u s = _
  rw [execResetComplete, h]

theorem resetComplete_checked {u : Nat} (c : Bool) (h : s.rst.running = some q) (hp : s.rd RST_STAT_PHASE = 3) (hd : q.domain ≠ 3) :
    exec (.resetComplete c u) s = .next (if c then s.resetOk q u else s.resetFails q) := by
  show execResetComplete c u s = _
  rw [execResetComplete, h]
  exact congrArg Host.Outcome.next (if_neg fun hc => hc.elim (absurd hp) hd)

theorem resetComplete_passes {u : Nat} (h : s.rst.running = some q) (hp : s.rd RST_STAT_PHASE = 3) (hd : q.domain ≠ 3) :
    exec (.resetComplete true u) s = .next (s.resetOk q u) :=
  (resetComplete_checked true h hp hd).trans (congrArg Host.Outcome.next (if_pos rfl))

theorem resetComplete_fails {u : Nat} (h : s.rst.running = some q) (hp : s.rd RST_STAT_PHASE = 3) (hd : q.domain ≠ 3) :
    exec (.resetComplete false u) s = .next (s.resetFails q) :=
  (resetComplete_checked false h hp hd).trans (congrArg Host.Outcome.next (if_neg Bool.false_ne_true))

/-- The dies of a failed reset stay in reset (log entry 87). -/
def State.stuckDies (s : State) (q : ResetReq) : State :=
  s.setRst fun r => { r with running := none, stuck := r.stuck ++ (s.resetDies q).filter fun d => !r.stuck.contains d }

/-- The unit waits for the host (log entry 87). -/
def State.resetStuck (s : State) (q : ResetReq) : State :=
  ((s.stuckDies q).wr RST_STAT_PHASE 5).setFlt .dz8 fun f => { f with fatal := true }

theorem State.resetFails_sticks (hd : q.domain ≠ 0) : s.resetFails q = (s.detect .dz8 rstPg 1 (q.block * 2 ^ 4 + q.die) none).resetStuck q := if_neg hd

theorem State.resetStuck_regsBut (s : State) (q : ResetReq) : RegsBut [RST_STAT_PHASE] s (s.resetStuck q) := by
  have hu : RegsBut [RST_STAT_PHASE] s (s.stuckDies q) := .of_regs rfl
  exact hu.wr (List.mem_singleton_self _) 5

theorem State.rd_resetStuck (s : State) (q : ResetReq) : (s.resetStuck q).rd RST_STAT_PHASE = 5 :=
  State.rd_wr_same (s.stuckDies q) RST_STAT_PHASE 5

theorem State.stuckDies_stuck (s : State) (q : ResetReq) : ∀ d ∈ s.resetDies q, d ∈ (s.stuckDies q).rst.stuck := by
  intro d hd
  show d ∈ s.rst.stuck ++ (s.resetDies q).filter fun d => !s.rst.stuck.contains d
  by_cases h : d ∈ s.rst.stuck
  · exact List.mem_append_left _ h
  · exact List.mem_append_right _ (List.mem_filter.2 ⟨hd, by simpa using h⟩)

/-- What a failed reset leaves. -/
theorem State.resetStuck_effect (s : State) (q : ResetReq) : (s.resetStuck q).rst = (s.stuckDies q).rst ∧ (s.resetStuck q).rst.running = none ∧
    (s.resetStuck q).flt.fatal = true := ⟨rfl, rfl, rfl⟩

theorem State.resetFails_effect (hd : q.domain ≠ 0) : RegsBut [RST_STAT_PHASE] s (s.resetFails q) ∧ (s.resetFails q).rd RST_STAT_PHASE = 5 ∧
    (s.resetFails q).rst.running = none ∧ (s.resetFails q).flt.fatal = true ∧ (∀ d ∈ s.resetDies q, d ∈ (s.resetFails q).rst.stuck) ∧
    s.rd RST_STAT_IN_RESET = (s.resetFails q).rd RST_STAT_IN_RESET := by
  have hv : (s.detect .dz8 rstPg 1 (q.block * 2 ^ 4 + q.die) none).regs = s.regs := State.detect_regs ..
  rw [State.resetFails_sticks hd]
  generalize s.detect .dz8 rstPg 1 (q.block * 2 ^ 4 + q.die) none = v at hv ⊢
  obtain ⟨hrst, hrun, hfatal⟩ := v.resetStuck_effect q
  have hregs : RegsBut [RST_STAT_PHASE] s (v.resetStuck q) := (RegsBut.of_regs hv).trans (v.resetStuck_regsBut q)
  refine ⟨hregs, v.rd_resetStuck q, hrun, hfatal, fun d hd => ?_, (hregs _ (by decide)).symm⟩
  rw [hrst]
  exact v.stuckDies_stuck q d (by rwa [State.resetDies_of_regs hv])

end

/-- Settles O50: each case is the effect of its command, within the parts of its row (`exec_reach`). The end of a failed reset (none running, PHASE
FAILED, FATAL) is log entry 87. -/
theorem resetsAndTheirEnd : Obligations.ResetsAndTheirEnd := by
  unfold Obligations.ResetsAndTheirEnd
  refine ⟨?_, ?_, ?_, ?_, ?_, ?_, ?_, ?_, ?_, ?_, ?_, ?_, ?_, ?_, ?_, ?_⟩
  · intro s b d k h
    exact (exec_reach (.rstGo b d k) s).next (congrArg Host.Outcome.next (State.requestReset_unknown h)) rfl
  · intro s b d k h hr
    exact (exec_reach (.rstGo b d k) s).next (congrArg Host.Outcome.next (State.requestReset_starts h hr)) rfl
  · intro s b d k q h hr hl
    obtain ⟨hregs, hqueued, hqueue, hrun⟩ := s.queued_effect ⟨k, d, b, 0⟩
    exact (exec_reach (.rstGo b d k) s).next (congrArg Host.Outcome.next (State.requestReset_waits h hr hl)) ⟨hregs, hqueued, hqueue, hrun.trans hr, rfl⟩
  · intro s b d k q h hr hl hd
    exact (exec_reach (.rstGo b d k) s).next (congrArg Host.Outcome.next (State.requestReset_replaces h hr hl hd)) rfl
  · intro s hp
    exact (exec_reach .sysrstNFall s).next (congrArg Host.Outcome.next (if_pos hp)) rfl
  · intro s hp hr
    exact (exec_reach .sysrstNFall s).next ((sysrstNFall_requests hp).trans (congrArg Host.Outcome.next (State.requestReset_starts rfl hr))) rfl
  · intro s q hp hr hq
    have hl : larger ⟨3, 0, 0, 0⟩ q = false := by
      show (q.domain != 3) = false
      rw [hq]
      rfl
    obtain ⟨hregs, -, hqueue, -⟩ := s.queued_effect ⟨3, 0, 0, 0⟩
    exact (exec_reach .sysrstNFall s).next ((sysrstNFall_requests hp).trans (congrArg Host.Outcome.next (State.requestReset_waits rfl hr hl)))
      ⟨hregs, hqueue⟩
  · intro s b d h
    exact (exec_reach (.watchdogHang b d) s).next (watchdogHang_unknown h) rfl
  · intro s b d q h hr _
    have hexec := (watchdogHang_requests h).trans (congrArg Host.Outcome.next (State.requestReset_waits (s := s.hangShown b d)
      (State.hangShown_blockOk.trans h) ((congrArg RstSt.running State.hangShown_rst).trans hr) (larger_engine b d 0 q)))
    obtain ⟨hregs, -, hqueue, -⟩ := (s.hangShown b d).queued_effect ⟨0, d, b, 0⟩
    obtain ⟨hcount, hblock⟩ := State.rd_hangRegs (s := s) (b := b) (d := d)
    have hshown : RegsBut [RST_HANG_COUNT, RST_HANG_BLOCK, RST_HANG_DIE, RST_STAT_QUEUED] s (s.hangShown b d) :=
      (State.hangRegs_regsBut.mono (by simp)).trans (.of_regs (State.hangShown_frame.regs_eq (by decide)))
    refine (exec_reach (.watchdogHang b d) s).next hexec ⟨hshown.trans (hregs.mono (by simp)), ?_, ?_, ?_, _, State.hangShown_window, rfl, rfl, rfl⟩
    · rw [hregs _ (by decide), State.rd_hangShown, hcount]
    · rw [hregs _ (by decide), State.rd_hangShown, hblock]
    · rw [hqueue, State.hangShown_rst]
  · intro s b d h _
    exact (exec_reach (.watchdogHang b d) s).next (watchdogHang_requests h) rfl
  · intro s b d h
    exact (exec_reach (.selfSnapshot b d) s).next (congrArg Host.Outcome.next (if_neg (by rw [h]; decide))) ⟨rfl, rfl, rfl⟩
  · intro s b d h
    exact (exec_reach (.selfSnapshot b d) s).next (congrArg Host.Outcome.next (if_pos (by rw [h]; rfl))) rfl
  · intro s c u h
    exact (exec_reach (.resetComplete c u) s).next (resetComplete_none h) rfl
  · intro s u q h hp hd
    exact (exec_reach (.resetComplete true u) s).next (resetComplete_passes h hp hd) rfl
  · intro s u q h hp hd
    exact (exec_reach (.resetComplete false u) s).next (resetComplete_fails h hp (by omega)) (State.resetFails_effect (by omega))
  · intro s u q h hp hd
    exact (exec_reach (.resetComplete false u) s).next (resetComplete_fails h hp (by omega)) rfl

end Sys2Proof.Machine
end

section
/-! Dumps that end, and dumps by command, and O51 (R387 to R389, R391, R392). Which AGENT_DUMP has an effect is log entry 153, the bytes of a region log
entry 86. -/

namespace Sys2Proof.Machine

/-! ### Where a dump goes (R388) -/

section
variable {s t : State}

theorem hbcState_key_ne {f : Fld} (h : f.key % 2 ^ 18 ≠ 2 ^ 14) (m st : Nat) : (HBC_STAT_STATE (hbcPg m st)).key ≠ f.key := by
  intro he
  rw [← he] at h
  simp only [Fld.key, HBC_STAT_STATE, hbcPg] at h
  omega

/-- The dump area and the oldest slot depend on the part, the stacks, the locks and the slots alone. -/
theorem State.dumpArea_of {fs : List Fld} (h : RegsBut fs s t) (hp : ∀ f ∈ fs, LCS_PART_PART.key ≠ f.key) (hf : ∀ f ∈ fs, f.key % 2 ^ 18 ≠ 2 ^ 14) :
    t.dumpArea = s.dumpArea := by
  simp only [State.dumpArea, State.stacks', State.mdies, h _ hp, fun m st => h _ fun f hm => hbcState_key_ne (hf f hm) m st]

theorem State.oldestSlot_of (hp : t.rd LCS_PART_PART = s.rd LCS_PART_PART) (hl : t.rd DMP_LOCK_LOCKED = s.rd DMP_LOCK_LOCKED)
    (hs : t.rst.slots = s.rst.slots) : t.oldestSlot = s.oldestSlot := by
  simp only [State.oldestSlot, State.dumpSlots, State.mdies, hp, hl, hs]
  rfl

end

/-! ### A dump begins -/

section
variable {s : State} {k : Nat}

/-- The dump engine is busy with a dump. -/
def State.dumpStarted (s : State) (d : DumpRun) : State := (s.setRst fun r => { r with dump := some d }).wr DMP_STAT_BUSY 1

theorem State.startDump_slot (h : s.oldestSlot = some k) (cause block die scope fid : Nat) (left : List (Nat × Nat × Nat × Nat)) (lock : Bool)
    (mail : Option (Nat × Nat)) : s.startDump cause block die scope fid left lock mail =
      s.dumpStarted ⟨⟨k, s.postmark, cause, block, die, scope, fid, []⟩, left, false, lock, mail⟩ := by
  unfold State.startDump
  rw [h]
  rfl

theorem State.dumpStarted_regsBut (s : State) (d : DumpRun) : RegsBut [DMP_STAT_BUSY] s (s.dumpStarted d) := by
  have hu : RegsBut [DMP_STAT_BUSY] s (s.setRst fun r => { r with dump := some d }) := .of_regs rfl
  exact hu.wr (List.mem_singleton_self _) 1

theorem State.rd_dumpStarted (s : State) (d : DumpRun) : (s.dumpStarted d).rd DMP_STAT_BUSY = 1 :=
  State.rd_wr_same (s.setRst fun r => { r with dump := some d }) DMP_STAT_BUSY 1

end

/-! ### A dump ends (R388, R391) -/

section
variable {s : State} {d : DumpRun}

/-- The dump engine is idle. -/
def State.dumpIdle (s : State) : State := (s.setRst fun q => { q with dump := none }).wr DMP_STAT_BUSY 0

/-- The dump lies in its slot. -/
def State.dumpStored (s : State) (d : DumpRun) : State :=
  (s.setRst fun q => { q with slots := q.slots.filter (fun x => x.slot != d.dump.slot) ++ [d.dump] }).wr DMP_STAT_LAST d.dump.slot

/-- The dump is counted, and the regions that could not be reached. -/
def State.dumpCounted (s : State) (d : DumpRun) : State :=
  (s.bump DMP_COUNT_DUMPS 1).bump DMP_STAT_UNREACH (d.dump.regions.filter fun r => r.unreachable).length

/-- The slot is locked where the dump asks for it. -/
def State.dumpLocked (s : State) (d : DumpRun) : State :=
  if d.lock then s.wr DMP_LOCK_LOCKED (setBit (s.rd DMP_LOCK_LOCKED) d.dump.slot true) else s

/-- A dump that is written to its slot. -/
def State.dumpWritten (s : State) (d : DumpRun) : State := ((s.dumpIdle.dumpStored d).dumpCounted d).dumpLocked d

theorem State.dumpIdle_regsBut : RegsBut [DMP_STAT_BUSY] s s.dumpIdle := by
  have hu : RegsBut [DMP_STAT_BUSY] s (s.setRst fun q => { q with dump := none }) := .of_regs rfl
  exact hu.wr (List.mem_singleton_self _) 0

theorem State.dumpIdle_dumpArea : s.dumpIdle.dumpArea = s.dumpArea := State.dumpArea_of State.dumpIdle_regsBut (by decide) (by decide)

theorem State.endDump_writes (h : s.rst.dump = some d) (hn : d.noSlot = false) (ha : s.dumpArea = true) (hm : d.mail = none) :
    s.endDump = s.dumpWritten d := by
  have hgood : ¬(d.noSlot || !s.dumpIdle.dumpArea) = true := by simp [hn, State.dumpIdle_dumpArea, ha]
  rw [State.endDump, h]
  dsimp only
  rw [hm]
  exact if_neg hgood

theorem State.dumpStored_regsBut : RegsBut [DMP_STAT_LAST] s (s.dumpStored d) := by
  have hu : RegsBut [DMP_STAT_LAST] s (s.setRst fun q => { q with slots := q.slots.filter (fun x => x.slot != d.dump.slot) ++ [d.dump] }) := .of_regs rfl
  exact hu.wr (List.mem_singleton_self _) _

theorem State.dumpCounted_regsBut : RegsBut [DMP_COUNT_DUMPS, DMP_STAT_UNREACH] s (s.dumpCounted d) :=
  ((RegsBut.refl _ s).bump (f := DMP_COUNT_DUMPS) (by simp) 1).bump (f := DMP_STAT_UNREACH) (by simp) _

theorem State.dumpLocked_regsBut : RegsBut [DMP_LOCK_LOCKED] s (s.dumpLocked d) := by
  unfold State.dumpLocked
  split
  · exact (RegsBut.refl _ s).wr (List.mem_singleton_self _) _
  · exact .refl _ s

theorem State.dumpLocked_rst : (s.dumpLocked d).rst = s.rst := by
  unfold State.dumpLocked
  split <;> rfl

theorem State.dumpWritten_rst : (s.dumpWritten d).rst = { s.rst with dump := none, slots := s.rst.slots.filter (fun x => x.slot != d.dump.slot) ++ [d.dump] } :=
  State.dumpLocked_rst

theorem State.dumpWritten_regsBut : RegsBut [DMP_STAT_BUSY, DMP_STAT_LAST, DMP_COUNT_DUMPS, DMP_STAT_UNREACH, DMP_LOCK_LOCKED] s (s.dumpWritten d) :=
  (((State.dumpIdle_regsBut.mono (by simp)).trans (State.dumpStored_regsBut.mono (by simp))).trans (State.dumpCounted_regsBut.mono (by simp))).trans
    (State.dumpLocked_regsBut.mono (by simp))

theorem State.rd_dumpWritten_busy : (s.dumpWritten d).rd DMP_STAT_BUSY = 0 := by
  rw [State.dumpWritten, State.dumpLocked_regsBut _ (by decide), State.dumpCounted_regsBut _ (by decide), State.dumpStored_regsBut _ (by decide)]
  exact State.rd_wr_same ..

theorem State.rd_dumpWritten_last : (s.dumpWritten d).rd DMP_STAT_LAST = d.dump.slot % 2 ^ DMP_STAT_LAST.w := by
  rw [State.dumpWritten, State.dumpLocked_regsBut _ (by decide), State.dumpCounted_regsBut _ (by decide)]
  exact State.rd_wr_same ..

theorem State.rd_dumpWritten_count : (s.dumpWritten d).rd DMP_COUNT_DUMPS = (s.rd DMP_COUNT_DUMPS + 1) % 2 ^ DMP_COUNT_DUMPS.w := by
  rw [State.dumpWritten, State.dumpLocked_regsBut _ (by decide), State.dumpCounted, State.rd_bump_other _ (by decide), State.rd_bump_same,
    State.dumpStored_regsBut _ (by decide), State.dumpIdle_regsBut _ (by decide)]

theorem State.rd_dumpWritten_locked : (s.dumpWritten d).rd DMP_LOCK_LOCKED =
    if d.lock then setBit (s.rd DMP_LOCK_LOCKED) d.dump.slot true % 2 ^ DMP_LOCK_LOCKED.w else s.rd DMP_LOCK_LOCKED := by
  have hbefore : ((s.dumpIdle.dumpStored d).dumpCounted d).rd DMP_LOCK_LOCKED = s.rd DMP_LOCK_LOCKED := by
    rw [State.dumpCounted_regsBut _ (by decide), State.dumpStored_regsBut _ (by decide), State.dumpIdle_regsBut _ (by decide)]
  rw [State.dumpWritten, State.dumpLocked]
  split
  · rw [State.rd_wr_same, hbefore]
  · exact hbefore

/-- A dump that no reset waits for ends by itself. -/
theorem State.dumpDone_writes (h : s.rst.dump = some d) (hn : d.noSlot = false) (ha : s.dumpArea = true) (hp : s.rd RST_STAT_PHASE ≠ 1)
    (hm : d.mail = none) : s.dumpDone = s.dumpWritten d := by
  have hp' : ¬(s.dumpWritten d).rd RST_STAT_PHASE = 1 := by rwa [State.dumpWritten_regsBut _ (by decide)]
  rw [State.dumpDone, State.endDump_writes h hn ha hm]
  exact if_neg hp'

end

/-! ### DUMP_READ_TIMEOUT (R387) -/

section
variable {s : State} {d : DumpRun}

/-- A region of the block that is read no further. -/
def sameBlock (r x : Nat × Nat × Nat × Nat) : Bool := x.2.1 == r.2.1 && x.2.2.1 == r.2.2.1

/-- The last self-snapshot of the block stands in. -/
def State.snapRegions (s : State) (r : Nat × Nat × Nat × Nat) : List Region :=
  match s.rst.snaps.reverse.find? fun x => x.die == r.2.1 && (x.block == r.2.2.1 || (blockFams x.block).contains r.2.2.1) with
  | some x => [⟨6, x.die, x.block, 0, false, false, false, x.stamp, x.data⟩]
  | none => []

/-- The dump without the block's regions. -/
def State.skipBlock (s : State) (d : DumpRun) (r : Nat × Nat × Nat × Nat) : DumpRun :=
  { d with left := d.left.filter (fun x => !sameBlock r x),
           dump := { d.dump with regions := d.dump.regions ++ unread false true (d.left.filter (sameBlock r)) ++ s.snapRegions r } }

theorem State.snapRegions_kind (s : State) (r : Nat × Nat × Nat × Nat) : ∀ x ∈ s.snapRegions r, x.kind = 6 := by
  intro x hx
  unfold State.snapRegions at hx
  split at hx
  · rw [List.mem_singleton.1 hx]
  · cases hx

/-- The state that goes on with another dump. -/
def State.putDump (s : State) (d : DumpRun) : State := s.setRst fun q => { q with dump := some d }

theorem dumpReadTimeout_none (h : s.rst.dump = none) : exec .dumpReadTimeout s = .next s := by
  show execDumpReadTimeout s = _
  rw [execDumpReadTimeout, h]

theorem dumpReadTimeout_skips {r : Nat × Nat × Nat × Nat} {l : List (Nat × Nat × Nat × Nat)} (h : s.rst.dump = some d) (hl : d.left = r :: l) :
    exec .dumpReadTimeout s = .next ((s.putDump (s.skipBlock d r)).detect .dz8 dmpPg 0 (r.2.2.1 * 2 ^ 4 + r.2.1) none) := by
  show execDumpReadTimeout s = _
  rw [execDumpReadTimeout, h]
  dsimp only
  split
  · next hnil => cases hl.symm.trans hnil
  · next r' l' hcons =>
    obtain ⟨rfl, -⟩ := List.cons.inj (hl.symm.trans hcons)
    rfl

/-! ### DUMP_BUDGET_EXPIRY and DUMP_COMPLETE (R388) -/

/-- The regions left take their mark: they are not read. -/
def skipLeft (d : DumpRun) : DumpRun := { d with left := [], dump := { d.dump with regions := d.dump.regions ++ unread true false d.left } }

/-- The budget's end shows. -/
def State.budgetOver (s : State) (d : DumpRun) : State := (s.putDump (skipLeft d)).wr DMP_STAT_NOTREAD 1

theorem dumpBudgetExpiry_ends (h : s.rst.dump = some d) : exec .dumpBudgetExpiry s = .next (s.budgetOver d).dumpDone := by
  show execDumpBudgetExpiry s = _
  rw [execDumpBudgetExpiry, h]
  rfl

theorem dumpBudgetExpiry_none (h : s.rst.dump = none) : exec .dumpBudgetExpiry s = .next s := by
  show execDumpBudgetExpiry s = _
  rw [execDumpBudgetExpiry, h]

theorem State.budgetOver_regsBut : RegsBut [DMP_STAT_NOTREAD] s (s.budgetOver d) := by
  have hu : RegsBut [DMP_STAT_NOTREAD] s (s.putDump (skipLeft d)) := .of_regs rfl
  exact hu.wr (List.mem_singleton_self _) 1

theorem State.budgetOver_writes (hn : d.noSlot = false) (ha : s.dumpArea = true) (hp : s.rd RST_STAT_PHASE ≠ 1) (hm : d.mail = none) :
    (s.budgetOver d).dumpDone = (s.budgetOver d).dumpWritten (skipLeft d) := by
  refine State.dumpDone_writes rfl hn ?_ ?_ hm
  · rwa [State.dumpArea_of State.budgetOver_regsBut (by decide) (by decide)]
  · rwa [State.budgetOver_regsBut _ (by decide)]

theorem State.rd_budgetOver : (s.budgetOver d).rd DMP_STAT_NOTREAD = 1 := State.rd_wr_same ..

/-- The dump has read all of its regions. -/
def State.allRead (s : State) (u : Nat) : State := s.readLeft.wr RST_TIME_DUMP_US u

theorem dumpComplete_ends {u : Nat} (h : s.rst.dump = some d) : exec (.dumpComplete u) s = .next (s.allRead u).dumpDone :=
  congrArg Host.Outcome.next (if_pos (by rw [h]; rfl))

theorem dumpComplete_none {u : Nat} (h : s.rst.dump = none) : exec (.dumpComplete u) s = .next s := congrArg Host.Outcome.next (if_neg (by rw [h]; decide))

theorem State.readLeft_nothing (h : s.rst.dump = some d) (hl : d.left = []) : s.readLeft.rst = s.rst ∧ s.readLeft.regs = s.regs := by
  unfold State.readLeft
  rw [h]
  dsimp only
  refine ⟨?_, rfl⟩
  rw [hl, List.map_nil, List.append_nil, ← hl]
  exact congrArg (fun x => { s.rst with dump := x }) h.symm

theorem State.allRead_regsBut {u : Nat} (h : s.rst.dump = some d) (hl : d.left = []) : RegsBut [RST_TIME_DUMP_US] s (s.allRead u) := by
  have hu : RegsBut [RST_TIME_DUMP_US] s s.readLeft := .of_regs (State.readLeft_nothing h hl).2
  exact hu.wr (List.mem_singleton_self _) u

theorem State.allRead_writes {u : Nat} (h : s.rst.dump = some d) (hl : d.left = []) (hn : d.noSlot = false) (ha : s.dumpArea = true)
    (hp : s.rd RST_STAT_PHASE ≠ 1) (hm : d.mail = none) : (s.allRead u).dumpDone = (s.allRead u).dumpWritten d := by
  refine State.dumpDone_writes ((congrArg RstSt.dump (State.readLeft_nothing h hl).1).trans h) hn ?_ ?_ hm
  · rwa [State.dumpArea_of (State.allRead_regsBut h hl) (by decide) (by decide)]
  · rwa [State.allRead_regsBut h hl _ (by decide)]

/-! ### AGENT_DUMP (R392) -/

/-- The dump of an agent is asked for no more. -/
def State.agentDumpTaken (s : State) (f : Nat) : State := s.setRst fun r => { r with agentDumps := r.agentDumps.filter fun g => g != f }

/-- The dump of an agent with what the agent answered. -/
def State.agentDumpRun (s : State) (k f : Nat) (l : List (Nat × Nat × List Byte)) : DumpRun :=
  ⟨⟨k, s.postmark, 0, 0, 0, 3, f, agentRegions l false⟩, [], false, false, none⟩

/-- The state with the dump of the agent in the engine. -/
def State.agentRead (s : State) (k f : Nat) (l : List (Nat × Nat × List Byte)) : State :=
  ((s.agentDumpTaken f).dumpStarted ⟨⟨k, s.postmark, 0, 0, 0, 3, f, []⟩, [], false, false, none⟩).putDump (s.agentDumpRun k f l)

theorem agentDump_busy {f : Nat} (l : List (Nat × Nat × List Byte)) (b : Bool) (h : s.rst.dump = some d) (hs : d.dump.scope ≠ 3) :
    exec (.agentDump f l b) s = .next s := by
  show execAgentDump f l b s = _
  rw [execAgentDump, h]
  refine congrArg Host.Outcome.next (if_pos ?_)
  dsimp only
  rw [beq_eq_false_iff_ne.2 hs]
  rfl

theorem agentDump_notAsked {f : Nat} (l : List (Nat × Nat × List Byte)) (b : Bool) (h : s.rst.dump = none) (hf : s.rst.agentDumps.contains f = false) :
    exec (.agentDump f l b) s = .next s := by
  show execAgentDump f l b s = _
  rw [execAgentDump, h, hf]
  rfl

theorem agentDump_reads {f k : Nat} (l : List (Nat × Nat × List Byte)) (h : s.rst.dump = none) (hf : s.rst.agentDumps.contains f = true)
    (hk : s.oldestSlot = some k) : exec (.agentDump f l false) s = .next (s.agentRead k f l).endDump := by
  have hk' : (s.agentDumpTaken f).oldestSlot = some k := (State.oldestSlot_of rfl rfl rfl).trans hk
  show execAgentDump f l false s = _
  rw [execAgentDump, h, hf]
  refine congrArg Host.Outcome.next ((if_neg Bool.false_ne_true).trans ?_)
  rw [← State.agentDumpTaken, State.startDump_slot hk']
  rfl

theorem State.agentRead_regsBut {k f : Nat} (l : List (Nat × Nat × List Byte)) : RegsBut [DMP_STAT_BUSY] s (s.agentRead k f l) :=
  ((RegsBut.of_regs rfl).trans ((s.agentDumpTaken f).dumpStarted_regsBut _)).trans (.of_regs rfl)

theorem State.agentRead_writes {k f : Nat} (l : List (Nat × Nat × List Byte)) (ha : s.dumpArea = true) :
    (s.agentRead k f l).endDump = (s.agentRead k f l).dumpWritten (s.agentDumpRun k f l) :=
  State.endDump_writes rfl rfl ((State.dumpArea_of (s.agentRead_regsBut l) (by decide) (by decide)).trans ha) rfl

theorem State.agentDumpTaken_gone (f : Nat) : (s.agentDumpTaken f).rst.agentDumps.contains f = false := by
  show (s.rst.agentDumps.filter fun g => g != f).contains f = false
  simp

/-! ### MAIL_DUMP (R391) -/

section
variable {i n : Nat}

theorem mailDump_notTaken (h : s.takenFor i n 2 = false) : exec (.mailDump i n) s = .next s := by
  show execMailDump i n s = _
  unfold execMailDump
  extract_lets w scope die block
  rw [h]

theorem mailDump_mailErr {e : Nat} (h : s.takenFor i n 2 = true) (hs : bits (s.slotGet i n 0) 1 0 ≠ 3) (he : s.mailErr i n 2 1 [0, 2] = some e) :
    exec (.mailDump i n) s = .next (s.mailReject i n e []) := by
  show execMailDump i n s = _
  unfold execMailDump
  extract_lets w scope die block
  have hscope : ¬scope = 3 := hs
  rw [h, if_neg hscope, he]

theorem mailDump_busy (h : s.takenFor i n 2 = true) (hs : bits (s.slotGet i n 0) 1 0 ≠ 3) (he : s.mailErr i n 2 1 [0, 2] = none)
    (hm : s.hostMode 6 = false) (hd : s.rst.dump.isSome = true) : exec (.mailDump i n) s = .next ((s.startMode 6 false).mailReject i n 4 []) := by
  show execMailDump i n s = _
  unfold execMailDump
  extract_lets w scope die block s₁ left s₂
  have hscope : ¬scope = 3 := hs
  have hs₁ : s₁ = s.startMode 6 false := congrArg (s.startMode 6) hm
  rw [h, if_neg hscope, he]
  refine congrArg Host.Outcome.next ((if_pos hd).trans ?_)
  rw [hs₁]

/-- The dump of one die that a mail command starts. -/
def State.mailRun (s : State) (i n k : Nat) : DumpRun :=
  ⟨⟨k, (s.startMode 6 false).postmark, 0, 0, bits (s.slotGet i n 0) 7 4, 1, 0, []⟩, dieRegions [bits (s.slotGet i n 0) 7 4], false,
    bit (s.slotGet i n 0) 32, some (i, n)⟩

theorem State.startMode_regsBut (b : Nat) (host : Bool) : RegsBut [GEN_MODE_IN_FORCE] s (s.startMode b host) :=
  (RegsBut.refl _ s).wr (List.mem_singleton_self _) _

theorem mailDump_starts {k : Nat} (h : s.takenFor i n 2 = true) (he : s.mailErr i n 2 1 [0, 2] = none) (hm : s.hostMode 6 = false)
    (hd : s.rst.dump = none) (hs : bits (s.slotGet i n 0) 1 0 = 1) (hdie : s.hasDie (bits (s.slotGet i n 0) 7 4) = true) (hk : s.oldestSlot = some k)
    (ha : s.dumpArea = true) :
    exec (.mailDump i n) s = .next (((s.startMode 6 false).dumpStarted (s.mailRun i n k)).mailRuns i n 2) := by
  let u := s.startMode 6 false
  have hu : RegsBut [GEN_MODE_IN_FORCE] s u := State.startMode_regsBut 6 false
  have hk' : u.oldestSlot = some k := (State.oldestSlot_of (hu _ (by decide)) (hu _ (by decide)) rfl).trans hk
  have hdie' : u.hasDie (bits (s.slotGet i n 0) 7 4) = true := (State.hasDie_of_rd (hu _ (by decide)) (hu _ (by decide)) _).trans hdie
  have harea : (u.dumpStarted (s.mailRun i n k)).dumpArea = true := by
    rw [State.dumpArea_of (u.dumpStarted_regsBut _) (by decide) (by decide), State.dumpArea_of hu (by decide) (by decide), ha]
  have hgood : ¬((s.mailRun i n k).noSlot || !(u.dumpStarted (s.mailRun i n k)).dumpArea) = true := by
    rw [harea]
    exact Bool.false_ne_true
  have hargs : ¬((1 = 1 ∧ ¬u.hasDie (bits (s.slotGet i n 0) 7 4) = true) ∨
      (1 = 2 ∧ ¬u.blockOk (bits (s.slotGet i n 0) 23 16) (bits (s.slotGet i n 0) 7 4) = true)) := by
    rintro (⟨-, hc⟩ | ⟨hc, -⟩)
    · exact hc hdie'
    · cases hc
  have hfree : ¬u.rst.dump.isSome = true := by
    show ¬s.rst.dump.isSome = true
    rw [hd]
    decide
  show execMailDump i n s = _
  unfold execMailDump
  extract_lets w scope die block s₁ left s₂
  have hscope : scope = 1 := hs
  have hs₁ : s₁ = u := congrArg (s.startMode 6) hm
  have hleft : left = dieRegions [die] := (if_neg (by rw [hscope]; decide)).trans (if_pos hscope)
  have hs₂ : s₂ = u.dumpStarted (s.mailRun i n k) := by
    show s₁.startDump _ _ _ _ _ _ _ _ = _
    rw [hleft, hs₁, State.startDump_slot hk', hscope]
    rfl
  rw [h, if_neg (show ¬scope = 3 by rw [hscope]; decide), he]
  refine congrArg Host.Outcome.next ((if_neg ?_).trans ((if_neg ?_).trans ((if_neg ?_).trans ?_)))
  · rw [hs₁]
    exact hfree
  · rw [hscope]
    exact fun hc => absurd hc.1 (by decide)
  · rw [hs₁, hscope]
    exact hargs
  · rw [hs₂]
    exact if_neg hgood

end

end

/-- Settles O51: each case is the effect of its command, within the parts of its row (`exec_reach`). Which AGENT_DUMP has an effect is log entry 153,
the bytes of a region log entry 86. -/
theorem dumps : Obligations.Dumps := by
  unfold Obligations.Dumps
  refine ⟨?_, ?_, ?_, ?_, ?_, ?_, ?_, ?_, ?_, ?_, ?_, ?_, ?_⟩
  · intro s h
    exact (exec_reach .dumpReadTimeout s).next (dumpReadTimeout_none h) rfl
  · intro s d r l h hl
    have hrst := ((s.putDump (s.skipBlock d r)).detect_frame .dz8 dmpPg 0 (r.2.2.1 * 2 ^ 4 + r.2.1) none).rst_eq (by decide)
    refine (exec_reach .dumpReadTimeout s).next (dumpReadTimeout_skips h hl)
      ⟨State.detect_regs .., ⟨s.skipBlock d r, s.snapRegions r, ?_, rfl, rfl, s.snapRegions_kind r⟩, ?_⟩
    · rw [hrst]
      rfl
    · rw [hrst]
      rfl
  · intro s d h hn ha hp hm
    have hexec := (dumpBudgetExpiry_ends h).trans (congrArg Host.Outcome.next (State.budgetOver_writes hn ha hp hm))
    refine (exec_reach .dumpBudgetExpiry s).next hexec ⟨?_, ?_, ?_, State.rd_dumpWritten_busy, State.rd_dumpWritten_last, ?_⟩
    · rw [State.dumpWritten_rst]
    · rw [State.dumpWritten_rst]
      rfl
    · rw [State.dumpWritten_regsBut _ (by decide), State.rd_budgetOver]
    · rw [State.rd_dumpWritten_count, State.budgetOver_regsBut _ (by decide)]
  · intro s h
    exact (exec_reach .dumpBudgetExpiry s).next (dumpBudgetExpiry_none h) rfl
  · intro s u d h hl hn ha hp hm
    have hregs := State.allRead_regsBut (u := u) h hl
    have hslots : (s.allRead u).rst.slots = s.rst.slots := congrArg RstSt.slots (State.readLeft_nothing h hl).1
    have hexec := (dumpComplete_ends (u := u) h).trans (congrArg Host.Outcome.next (State.allRead_writes h hl hn ha hp hm))
    refine (exec_reach (.dumpComplete u) s).next hexec ⟨?_, ?_, ?_, ?_, State.rd_dumpWritten_busy, ?_⟩
    · rw [State.dumpWritten_rst]
    · rw [State.dumpWritten_rst, ← hslots]
    · rw [State.dumpWritten_regsBut _ (by decide)]
      exact State.rd_wr_same ..
    · rw [State.rd_dumpWritten_count, hregs _ (by decide)]
    · rw [State.rd_dumpWritten_locked, hregs _ (by decide)]
  · intro s u h
    exact (exec_reach (.dumpComplete u) s).next (dumpComplete_none h) rfl
  · intro s f l b d h hs
    exact (exec_reach (.agentDump f l b) s).next (agentDump_busy l b h hs) rfl
  · intro s f l k h hf hk ha
    have hexec := (agentDump_reads l h hf hk).trans (congrArg Host.Outcome.next (State.agentRead_writes (k := k) (f := f) l ha))
    refine (exec_reach (.agentDump f l false) s).next hexec ⟨⟨(s.agentDumpRun k f l).dump, ?_, rfl, rfl, rfl, rfl⟩, ?_, ?_, State.rd_dumpWritten_busy, ?_, ?_⟩
    · rw [State.dumpWritten_rst]
      rfl
    · rw [State.dumpWritten_rst]
    · rw [State.dumpWritten_rst]
      exact State.agentDumpTaken_gone f
    · rfl
    · rw [State.rd_dumpWritten_count, s.agentRead_regsBut l _ (by decide)]
  · intro s f l b h hf
    exact (exec_reach (.agentDump f l b) s).next (agentDump_notAsked l b h hf) rfl
  · intro s i n h
    exact (exec_reach (.mailDump i n) s).next (mailDump_notTaken h) rfl
  · intro s i n e h hs he
    exact (exec_reach (.mailDump i n) s).next (mailDump_mailErr h hs he) rfl
  · intro s i n h hs he hm hd
    exact (exec_reach (.mailDump i n) s).next (mailDump_busy h hs he hm hd) rfl
  · intro s i n h _ he hm hd hs hdie hk ha
    obtain ⟨k, hk⟩ := Option.isSome_iff_exists.1 hk
    refine (exec_reach (.mailDump i n) s).next (mailDump_starts h he hm hd hs hdie hk ha) ⟨?_, ?_, ⟨s.mailRun i n k, rfl, rfl, rfl, rfl⟩, rfl⟩
    · exact List.mem_append_right _ (List.mem_singleton_self _)
    · exact State.rd_dumpStarted _ _

end Sys2Proof.Machine
end

section
/-! The power budget, and the refutation of O53 (R523, R524). -/

namespace Sys2Proof.Machine

/-- With no timetable armed, a BUDGET_W above the fused power and an IDLE_W below the part's active idle figure are ignored (R524). -/
theorem pwrBudgetWrite_idle {s : State} {v : Word} (h : s.anyArmed = false) (hb : ¬bits v.toNat 47 32 ≤ s.rd LCS_PART_POWER_W)
    (hi : s.idleMin ≤ bits v.toNat 31 16) : exec (.pwrBudgetWrite v) s = .next (s.wr PWR_BUDGET_IDLE_W (bits v.toNat 31 16)) := by
  show Host.Outcome.next (s.pwrBudget v.toNat) = _
  rw [State.pwrBudget, if_neg (by rw [h]; exact Bool.false_ne_true)]
  dsimp only
  rw [if_neg hb, if_pos hi]

/-- A unit of the second part, whose active idle figure is 400 W and not the 420 W of the first (R523). -/
def secondPart : State := State.reset.wr LCS_PART_PART 1

/-- A write of PWR_BUDGET with IDLE_W 410, and a BUDGET_W above the power of any part. -/
def idle410 : Word := BitVec.ofNat 64 (2000 * 2 ^ 32 + 410 * 2 ^ 16)

/-- Refutes O53: its last clause holds every part to the reset value of IDLE_W, 420 W, the figure of the first part alone. A unit of the second part
takes an IDLE_W of 410 W (R523, R524), where the clause leaves 420 W. -/
theorem not_suppliesAndTemperatures : ¬ Obligations.SuppliesAndTemperatures := by
  unfold Obligations.SuppliesAndTemperatures
  rintro ⟨-, -, -, -, -, -, -, -, -, -, -, -, -, -, -, -, -, -, -, -, -, -, -, -, h⟩
  have harmed : secondPart.anyArmed = false := by decide
  obtain ⟨t, ht, -, -, -, hidle⟩ := h secondPart idle410 harmed
  rw [pwrBudgetWrite_idle harmed (by decide) (by decide)] at ht
  rw [← Host.Outcome.next.inj ht, State.rd_wr_same] at hidle
  exact absurd hidle (by decide)

end Sys2Proof.Machine
end

section
/-! Generations and vault images, and O54 (R416 to R418, R420, R434, R440). COPY STALE after an unacknowledged record is log entry 100, PARACK and its
batches log entry 101, the record at the standby log entry 150. -/

namespace Sys2Proof.Machine

section
variable {s : State}

/-! ### Batches of the active unit (R416) -/

/-- A batch takes the next number and leaves the rest of the pair's state. -/
theorem State.sendBatch_pair (cells : List (Nat × Nat × List Byte)) :
    (s.sendBatch cells).pair = { s.pair with nextBatch := (s.pair.nextBatch + 1) % 2 ^ 16 } := by
  unfold State.sendBatch
  extract_lets ps b n s₁
  have hsent : s₁.pair = s.pair :=
    List.foldlRecOn (motive := fun u : State => u.pair = s.pair) _ _ rfl fun u hu x _ => by
      split
      · exact ((State.parwr_within (A := [.regs, .aregs, .ports, .agPorts, .flt, .agFlt]) (by decide) (by decide) (by decide) (by decide) (by decide)
          (by decide) _ _ _ _ _ _ (.refl _ u)).pair_eq (by decide)).trans hu
      · exact hu
  show { s₁.pair with nextBatch := (s₁.pair.nextBatch + 1) % 2 ^ 16 } = _
  rw [hsent]

theorem State.genBatch_pair (g : GenRun) : (s.genBatch g).pair = { s.pair with
    nextBatch := (s.pair.nextBatch + 1) % 2 ^ 16, writing := some { g with batch := s.pair.nextBatch, acked := 0, lastBeat := s.time.beat } } := by
  show { (s.sendBatch _).pair with writing := some { g with batch := s.pair.nextBatch, acked := 0, lastBeat := s.time.beat } } = _
  rw [State.sendBatch_pair]

theorem State.genBatch_route (g : GenRun) : (s.genBatch g).route = s.route :=
  (State.genBatch_within (A := [.regs, .aregs, .ports, .agPorts, .flt, .agFlt, .pair]) (by decide) (by decide) (by decide) (by decide) (by decide)
    (by decide) (by decide) g (.refl _ s)).route_eq (by decide)

/-! ### Vault images (R420) -/

/-- No batch of vault chunks goes out without a link, an allowance and the active role. -/
theorem vaultMirror_idle {n : Nat} (h : s.active = false ∨ n = 0 ∨ s.ledgerCarriers = []) : exec (.vaultMirror n) s = .next s := by
  refine congrArg Host.Outcome.next (if_neg ?_)
  rcases h with h | h | h <;> simp [h]

theorem vaultMirror_sends {n : Nat} {x : VaultImage} (ha : s.active = true) (hl : s.ledgerCarriers ≠ []) (hw : s.pair.writing = none)
    (hm : s.pair.mirror = none) (hn : n ≠ 0) (hx : (s.rot.images.find? fun x => s.ctxPaired x.ctx && imageLeft x != 0) = some x) :
    exec (.vaultMirror n) s = .next (s.sendMirror x (min (48 * n) (imageLeft x))) := by
  show execVaultMirror n s = _
  rw [execVaultMirror, if_pos (by simp [ha, hl, hw, hm, hn]), hx]

/-! ### PARACK at the active unit (R416, R417) -/

theorem parackCell_notActive {x : Cell} (h : s.active = false) : exec (.parackCell x) s = .next s :=
  congrArg Host.Outcome.next (if_pos (by rw [h]; rfl))

/-- With no record and no batch of vault chunks under way, a PARACK is about the generation that is written. -/
theorem parackCell_generation {x : Cell} {g : GenRun} (ha : s.active = true) (hr : s.route.record = none) (hm : s.pair.mirror = none)
    (hw : s.pair.writing = some g) : exec (.parackCell x) s = .next (if g.batch ≠ cellWord x 0 % 2 ^ 16 then s
      else if g.cells.length ≤ cellWord x 1 then s.genAcked g
      else s.setPair fun q => { q with writing := some { g with acked := max g.acked (cellWord x 1) } }) := by
  show execParackCell x s = _
  unfold execParackCell
  extract_lets b n s₁ s₂
  have hs₁ : s₁ = s := if_neg (by rw [hr]; exact Bool.false_ne_true)
  have hs₂ : s₂ = s := by
    show (match s₁.pair.mirror with | some m => if m.batch = b ∧ m.cells ≤ n then s₁.mirrorAck m else s₁ | none => s₁) = s
    rw [hs₁, hm]
  rw [if_neg (by rw [ha]; exact Bool.false_ne_true), hs₂, hw]

/-! ### BATCH_RESEND and COMMIT_ACK_TIMEOUT (R416, R417) -/

theorem batchResend_idle (h : s.active = false ∨ s.ledgerCarriers = []) : exec .batchResend s = .next s := by
  refine congrArg Host.Outcome.next (if_pos ?_)
  rcases h with h | h <;> simp [h]

theorem batchResend_generation {g : GenRun} (ha : s.active = true) (hl : s.ledgerCarriers ≠ []) (hw : s.pair.writing = some g) (hp : g.phase < 3)
    (hlate : s.late256 g.lastBeat = true) (hr : s.route.record = none) (hm : s.pair.mirror = none) : exec .batchResend s = .next (s.genBatch g) := by
  have hr' : (s.genBatch g).route.record = none := by rw [State.genBatch_route, hr]
  have hm' : (s.genBatch g).pair.mirror = none := by rw [State.genBatch_pair, hm]
  show execBatchResend s = _
  unfold execBatchResend
  extract_lets s₁ s₂
  have hs₁ : s₁ = s.genBatch g := by
    show (match s.pair.writing with | some g => if g.phase < 3 ∧ s.late256 g.lastBeat then s.genBatch g else s | none => s) = _
    rw [hw]
    exact if_pos ⟨hp, hlate⟩
  have hs₂ : s₂ = s.genBatch g := by
    show (match s₁.route.record with
      | some r => if !s₁.route.recordConfirmed && s₁.late256 s₁.route.recordBeat then s₁.putRecord r else s₁ | none => s₁) = _
    rw [hs₁, hr']
  rw [if_neg (by simp [ha, hl]), hs₂, hm']

theorem commitAckTimeout_none (h : s.pair.writing = none) : exec .commitAckTimeout s = .next s := by
  show execCommitAckTimeout s = _
  rw [execCommitAckTimeout, h]

/-- The unconfirmed generation is given up, and a full one is due. -/
def State.genGivenUp (s : State) : State := s.setPair fun q => { q with writing := none, fullDue := true, genDue := true }

theorem commitAckTimeout_noLink {g : GenRun} (hw : s.pair.writing = some g) (ha : s.active = true) (hp : g.phase = 3)
    (hlate : s.late256 g.lastBeat = true) (hl : s.ledgerCarriers = []) : exec .commitAckTimeout s = .next s.genGivenUp := by
  have hmay : s.genGivenUp.mayGen = false := by
    have hl' : s.genGivenUp.ledgerCarriers = [] := hl
    simp [State.mayGen, hl']
  show execCommitAckTimeout s = _
  rw [execCommitAckTimeout, hw]
  refine congrArg Host.Outcome.next ((if_pos ⟨ha, hp, hlate⟩).trans (if_neg ?_))
  rw [← State.genGivenUp, hmay]
  exact Bool.false_ne_true

/-! ### The standby (R416, R417) -/

section
variable {x : Cell}

theorem parwrCell_notStandby (h : s.rd PAR_STAT_ROLE ≠ 2) : exec (.parwrCell x) s = .next s := congrArg Host.Outcome.next (if_pos h)

/-- The cell in the receive buffer; those of a commit record are not counted (log entry 150). -/
def State.buffered (s : State) (x : Cell) : State :=
  s.setPair fun q => { q with recv := q.recv ++ [(x.cidx, x.offset, cellPayload x)],
                              rxBatches := if x.cidx == 0 && (x.offset == 0 || x.offset == 0x40) then q.rxBatches
                                           else countBatch q.rxBatches x.seq (s.batchCount x.seq + 1) }

theorem parwrCell_buffers (h : s.rd PAR_STAT_ROLE = 2) (hl : isLast x = false) (hroom : s.pair.recv.length + 1 < 349525) :
    exec (.parwrCell x) s = .next (s.buffered x) := by
  have hshort : ¬(isLast x || decide (349525 ≤ (s.buffered x).pair.recv.length)) = true := by
    have hlen : (s.buffered x).pair.recv.length = s.pair.recv.length + 1 := List.length_append
    rw [hl, hlen, decide_eq_false (Nat.not_le.2 hroom)]
    exact Bool.false_ne_true
  show execParwrCell x s = _
  unfold execParwrCell
  extract_lets b n record s₁ s₂
  have hs₂ : s₂ = s.buffered x := if_neg hshort
  rw [if_neg (not_not_intro h), hs₂]
  exact congrArg Host.Outcome.next (if_pos (by rw [hl]; rfl))

/-- The last cell of a batch moves the buffer and answers for the batch, or for the commit record. -/
theorem parwrCell_last (h : s.rd PAR_STAT_ROLE = 2) (hl : isLast x = true) : exec (.parwrCell x) s = .next (
    if x.cidx == 0 && (x.offset == 0 || x.offset == 0x40) then (s.buffered x).moveBuffer.landCommit (x.offset / 0x40) x.seq (s.batchCount x.seq + 1)
    else (s.buffered x).moveBuffer.parack x.seq (s.batchCount x.seq + 1)) := by
  show execParwrCell x s = _
  unfold execParwrCell
  extract_lets b n record s₁ s₂
  have hs₂ : s₂ = (s.buffered x).moveBuffer := if_pos (by rw [hl]; rfl)
  rw [if_neg (not_not_intro h), hs₂]
  exact congrArg Host.Outcome.next (if_neg (by rw [hl]; exact Bool.false_ne_true))

theorem State.placeCell_recv (u : State) (c : Nat × Nat × List Byte) : (u.placeCell c).pair.recv = u.pair.recv := by
  unfold State.placeCell
  split
  · rfl
  · extract_lets d o n
    exact congrArg PairSt.recv ((State.vaultCount_within (A := [.regs, .hbm]) (by decide) _ _
      (State.regionWrite_within (by decide) (by decide) _ _ _ _ (.refl _ u))).pair_eq (by decide))

theorem State.moveBuffer_recv : s.moveBuffer.pair.recv = [] := by
  unfold State.moveBuffer
  split
  · next h => exact List.isEmpty_iff.1 h
  · exact foldl_keeps (fun u : State => u.pair.recv) State.placeCell_recv _ _

theorem State.parack_pair (b n : Nat) : (s.parack b n).pair = s.pair :=
  (State.parack_within (A := [.regs, .aregs, .ports, .agPorts, .flt, .agFlt]) (by decide) (by decide) (by decide) (by decide) (by decide) (by decide)
    b n (.refl _ s)).pair_eq (by decide)

theorem parackPeriodic_standby {y : Nat × Nat} (h : s.rd PAR_STAT_ROLE = 2) (hy : s.pair.rxBatches.getLast? = some y) :
    exec .parackPeriodic s = .next (s.parack y.1 y.2) := by
  show execParackPeriodic s = _
  rw [execParackPeriodic, if_neg (not_not_intro h), hy]

end

end

/-- Settles O54: each case is the effect of its command, within the parts of its row (`exec_reach`). COPY STALE after an unacknowledged record is log
entry 100, PARACK and its batches log entry 101, the record at the standby log entry 150. -/
theorem generations : Obligations.Generations := by
  unfold Obligations.Generations
  refine ⟨?_, ?_, ?_, ?_, ?_, ?_, ?_, ?_, ?_, ?_, ?_, ?_, ?_, ?_, ?_, ?_, ?_, ?_, ?_, ?_, ?_, ?_, ?_, ?_⟩
  · intro s hm hd
    exact (exec_reach .generationBegin s).next (congrArg Host.Outcome.next (if_pos (by rw [hm, hd]; rfl))) rfl
  · intro s h
    exact (exec_reach .generationBegin s).next (congrArg Host.Outcome.next (if_neg (by rcases h with h | h <;> simp [h]))) rfl
  · intro s h
    exact (exec_reach .syncMsExpiry s).next (congrArg Host.Outcome.next (if_pos h)) ⟨rfl, rfl⟩
  · intro s h
    exact (exec_reach .syncMsExpiry s).next (congrArg Host.Outcome.next (if_neg (by simp [h]))) rfl
  · intro s h
    exact (exec_reach .parSync s).next (congrArg Host.Outcome.next (if_pos h)) ⟨rfl, rfl⟩
  · intro s h
    exact (exec_reach .parSync s).next (congrArg Host.Outcome.next (if_neg (by simp [h]))) rfl
  · intro s h
    exact (exec_reach .parFull s).next (congrArg Host.Outcome.next (if_pos h)) ⟨rfl, rfl⟩
  · intro s h
    exact (exec_reach .parFull s).next (congrArg Host.Outcome.next (if_neg (by simp [h]))) rfl
  · intro s n h
    exact (exec_reach (.vaultMirror n) s).next (vaultMirror_idle h) rfl
  · intro s n x ha hl hw hm hn hx
    exact (exec_reach (.vaultMirror n) s).next (vaultMirror_sends ha hl hw hm hn hx) ⟨rfl, rfl, (State.sendMirror_within
      (A := [.regs, .aregs, .ports, .agPorts, .flt, .agFlt, .pair]) (by decide) (by decide) (by decide) (by decide) (by decide) (by decide) (by decide)
      x _ (.refl _ s)).rot_eq (by decide)⟩
  · intro s x h
    exact (exec_reach (.parackCell x) s).next (parackCell_notActive h) rfl
  · intro s x g ha hr hm hw hb hn
    have hexec := (parackCell_generation (x := x) ha hr hm hw).trans
      (congrArg Host.Outcome.next ((if_neg (not_not_intro hb)).trans (if_neg (Nat.not_le.2 hn))))
    exact (exec_reach (.parackCell x) s).next hexec ⟨rfl, rfl⟩
  · intro s x g ha hr hm hw hb hn
    have hexec := (parackCell_generation (x := x) ha hr hm hw).trans (congrArg Host.Outcome.next ((if_neg (not_not_intro hb)).trans (if_pos hn)))
    exact (exec_reach (.parackCell x) s).next hexec rfl
  · intro s x g ha hr hm hw hb
    exact (exec_reach (.parackCell x) s).next ((parackCell_generation ha hr hm hw).trans (congrArg Host.Outcome.next (if_pos hb))) rfl
  · intro s h
    exact (exec_reach .batchResend s).next (batchResend_idle h) rfl
  · intro s g ha hl hw hp hlate hr hm
    refine (exec_reach .batchResend s).next (batchResend_generation ha hl hw hp hlate hr hm) ⟨rfl, ?_, ?_⟩ <;> rw [State.genBatch_pair]
  · intro s h
    exact (exec_reach .commitAckTimeout s).next (commitAckTimeout_none h) rfl
  · intro s g hw ha hp hlate hl
    exact (exec_reach .commitAckTimeout s).next (commitAckTimeout_noLink hw ha hp hlate hl) ⟨rfl, rfl⟩
  · intro s x h
    exact (exec_reach (.parwrCell x) s).next (parwrCell_notStandby h) rfl
  · intro s x h hl hroom
    exact (exec_reach (.parwrCell x) s).next (parwrCell_buffers h hl hroom) ⟨rfl, rfl, rfl, rfl⟩
  · intro s x h hl hc
    have hrec : (x.cidx == 0 && (x.offset == 0 || x.offset == 0x40)) = false := by simp [hc]
    have hexec : exec (.parwrCell x) s = .next ((s.buffered x).moveBuffer.parack x.seq (s.batchCount x.seq + 1)) := by
      rw [parwrCell_last h hl, hrec, if_neg Bool.false_ne_true]
    refine (exec_reach (.parwrCell x) s).next hexec ⟨?_, ?_⟩
    · rw [State.buffered, hrec]
      rfl
    · rw [State.parack_pair, State.moveBuffer_recv]
  · intro s x h hl hc ho
    have hrec : (x.cidx == 0 && (x.offset == 0 || x.offset == 0x40)) = true := by simp [hc, ho]
    have hexec : exec (.parwrCell x) s = .next ((s.buffered x).moveBuffer.landCommit 1 x.seq (s.batchCount x.seq + 1)) := by
      rw [parwrCell_last h hl, hrec, if_pos rfl, ho]
    refine (exec_reach (.parwrCell x) s).next hexec ?_
    rw [State.buffered, hrec, hc, ho]
    rfl
  · intro s h
    exact (exec_reach .parackPeriodic s).next (congrArg Host.Outcome.next (if_pos h)) rfl
  · intro s y h hy
    exact (exec_reach .parackPeriodic s).next (parackPeriodic_standby h hy) ⟨rfl, State.parack_pair ..⟩

end Sys2Proof.Machine
end

section
/-! The referee, and O55 (R421 to R423, R425 to R427, R437, R491). RENEW after the starting window and RELEASE are log entry 102, two requests of one
beat log entry 103, the tie of TAKEOVERs log entry 151. -/

namespace Sys2Proof.Machine

/-! ### A LEASE cell (R421, R422) -/

section
variable (s : State) (d : Site) (f vc : Nat) (ws : List Nat)

/-- A LEASE cell goes by the route tables, or waits in the queue of a PEER link, which is never a spare. -/
theorem State.leaseTo_cases : (∃ x, s.leaseTo d f vc ws = s.send d x) ∨ ∃ p x, s.leaseTo d f vc ws = s.enqueue d p none x := by
  unfold State.leaseTo
  extract_lets c direct
  obtain hp | ⟨p, hp⟩ := direct.eq_none_or_eq_some
  · exact .inl ⟨c, by rw [hp]⟩
  · have hfound : (s.carries d p && s.role d p == 1 && s.farFid d p == f) = true := by
      by_cases h : f / 256 = s.domainS d
      · rw [show direct = none from if_pos h] at hp
        cases hp
      · rw [show direct = _ from if_neg h] at hp
        exact List.find?_some (p := fun p => s.carries d p && s.role d p == 1 && s.farFid d p == f) hp
    simp only [Bool.and_eq_true, beq_iff_eq] at hfound
    obtain ⟨⟨hcarries, hrole⟩, -⟩ := hfound
    have hspare : s.spare d p = false := by
      cases d
      · simp [State.spare, hrole]
      · rfl
    rw [hp]
    exact .inr ⟨p, c, State.sendOn_bears (by simp [State.bears, hcarries, hspare]) c⟩

theorem State.leaseTo_regsBut : RegsBut ownCellRegs s (s.leaseTo .dz8 f vc ws) := by
  rcases s.leaseTo_cases .dz8 f vc ws with ⟨x, h⟩ | ⟨p, x, h⟩ <;> rw [h]
  · exact s.send_regsBut x
  · exact .of_regs (State.enqueue_regs ..)

theorem State.leaseTo_aregsBut : AregsBut agCellRegs s (s.leaseTo .agent f vc ws) := by
  rcases s.leaseTo_cases .agent f vc ws with ⟨x, h⟩ | ⟨p, x, h⟩ <;> rw [h]
  · exact s.send_aregsBut x
  · exact .of_aregs ((State.enqueue_within (A := [.ports, .agPorts]) (by decide) (by decide) .agent p none x (.refl _ s)).aregs_eq (by decide))

theorem State.leaseTo_frame : Within [.regs, .aregs, .ports, .agPorts, .flt, .agFlt, .out] s (s.leaseTo d f vc ws) :=
  State.leaseTo_within (by decide) (by decide) (by decide) (by decide) (by decide) (by decide) (by decide) d f vc ws (.refl _ s)

end

/-! ### Lease records (R423, R491) -/

section
variable {s t : State} {d : Site} {n : Nat} {r r' : LeaseRec} {x : Cell}

theorem State.leaseRec_domain (h : s.leaseRec d n = some r) : r.domain = n := by
  cases d with
  | dz8 => simpa using List.find?_some h
  | agent =>
    simp only [State.leaseRec] at h
    split at h
    · rw [← Option.some.inj h]
      cases hf : s.ag.leases.find? fun r => r.domain == n with
      | none => rfl
      | some y => simpa using List.find?_some hf
    · cases h

theorem State.leaseRec_dz8_of (h : t.pair.leases = s.pair.leases) (n : Nat) : t.leaseRec .dz8 n = s.leaseRec .dz8 n :=
  congrArg (List.find? fun r : LeaseRec => r.domain == n) h

/-- The domain that an agent referees shows in two of its registers (R421). -/
theorem State.leaseRec_agent_of (hl : t.ag.leases = s.ag.leases) (hp : t.ard LCS_PART_PART = s.ard LCS_PART_PART)
    (hf : t.ard GEN_FID_FID = s.ard GEN_FID_FID) (n : Nat) : t.leaseRec .agent n = s.leaseRec .agent n := by
  simp only [State.leaseRec, State.isLeaf, State.domainS, State.fidS, hl, hp, hf]
  rfl

/-- The registers in which an agent shows its lease record. -/
def leaseRegs : List Fld := [Ia.PAR_REF_HOLDER, Ia.PAR_REF_DOMAIN, Ia.PAR_REF_SERIAL, Ia.PAR_REF_EXP_EXPIRY, Ia.PAR_REF_EXP_STARTING]

theorem State.showRef_aregsBut (s : State) (r : LeaseRec) : AregsBut leaseRegs s (s.showRef r) :=
  (((((AregsBut.refl _ s).awr (f := Ia.PAR_REF_HOLDER) (by decide) _).awr (f := Ia.PAR_REF_DOMAIN) (by decide) _).awr
    (f := Ia.PAR_REF_SERIAL) (by decide) _).awr (f := Ia.PAR_REF_EXP_EXPIRY) (by decide) _).awr (f := Ia.PAR_REF_EXP_STARTING) (by decide) _

theorem State.putLease_aregsBut (s : State) (r : LeaseRec) : AregsBut leaseRegs s (s.putLease .agent r) :=
  (AregsBut.of_aregs rfl).trans ((s.setAg fun a => { a with leases := [r] }).showRef_aregsBut r)

theorem State.putLease_agent_leases (s : State) (r : LeaseRec) : (s.putLease .agent r).ag.leases = [r] := rfl

/-- The record that is stored is what its domain finds. -/
theorem State.leaseRec_putLease (h : s.leaseRec d n = some r) (hr : r'.domain = r.domain) : (s.putLease d r').leaseRec d n = some r' := by
  have hn : r'.domain = n := hr.trans (State.leaseRec_domain h)
  cases d with
  | dz8 =>
    have hsel : (fun y : LeaseRec => y.domain == n) ∘ (fun y => if y.domain == r'.domain then r' else y) = fun y => y.domain == n := funext fun y => by
      dsimp only [Function.comp]
      split
      · next hy => rw [beq_iff_eq.1 hy]
      · rfl
    show (s.pair.leases.map fun y => if y.domain == r'.domain then r' else y).find? (fun y => y.domain == n) = _
    have hfound : (s.pair.leases.find? fun y => y.domain == n) = some r := h
    rw [List.find?_map, hsel, hfound]
    exact congrArg some (if_pos (beq_iff_eq.2 hr.symm))
  | agent =>
    have hregs := s.putLease_aregsBut r'
    have hcond : (s.isLeaf && n == s.domainS .agent) = true := by
      by_contra hc
      simp only [State.leaseRec, if_neg hc] at h
      cases h
    have hcond' : ((s.putLease .agent r').isLeaf && n == (s.putLease .agent r').domainS .agent) = true := by
      simpa only [State.isLeaf, State.domainS, State.fidS, hregs _ (by decide : ∀ f ∈ leaseRegs, LCS_PART_PART.key ≠ f.key),
        hregs _ (by decide : ∀ f ∈ leaseRegs, GEN_FID_FID.key ≠ f.key)] using hcond
    simp only [State.leaseRec, if_pos hcond', State.putLease_agent_leases]
    rw [List.find?_cons_of_pos (by simpa using hn)]
    rfl

/-! ### Answers of the referee (R425) -/

theorem State.leaseRefuse_frame (s : State) (d : Site) (x : Cell) (r : LeaseRec) (why : Nat) :
    Within [.regs, .aregs, .ports, .agPorts, .flt, .agFlt, .out] s (s.leaseRefuse d x r why) :=
  State.leaseRefuse_within (by decide) (by decide) (by decide) (by decide) (by decide) (by decide) (by decide) d x r why (.refl _ s)

/-- A refusal changes no record. -/
theorem State.leaseRefuse_leases (s : State) (d : Site) (x : Cell) (r : LeaseRec) (why : Nat) :
    (s.leaseRefuse d x r why).pair.leases = s.pair.leases ∧ (s.leaseRefuse d x r why).ag.leases = s.ag.leases := by
  have w := s.leaseRefuse_frame d x r why
  rw [w.pair_eq (by decide), w.ag_eq (by decide)]
  exact ⟨rfl, rfl⟩

/-- What a grant of the unit answers. -/
def State.granted (s : State) (d : Site) (x : Cell) (kind : Nat) (r : LeaseRec) : State :=
  (s.putLease d r).leaseAnswer d x kind r.holder r.serial r.expiry 0

theorem State.leaseGive_dz8 (s : State) (x : Cell) (kind : Nat) (r : LeaseRec) : s.leaseGive .dz8 x kind r = s.granted .dz8 x kind r := rfl

theorem State.leaseGive_agent (s : State) (x : Cell) (kind : Nat) (r : LeaseRec) :
    s.leaseGive .agent x kind r = (s.granted .agent x kind r).abump Ia.PAR_REF_CNT_GRANTED 1 := rfl

theorem State.granted_frame (s : State) (d : Site) (x : Cell) (kind : Nat) (r : LeaseRec) :
    Within [.regs, .aregs, .ports, .agPorts, .flt, .agFlt, .out] (s.putLease d r) (s.granted d x kind r) := State.leaseTo_frame ..

theorem State.granted_aregsBut (s : State) (x : Cell) (kind : Nat) (r : LeaseRec) : AregsBut agCellRegs (s.putLease .agent r) (s.granted .agent x kind r) :=
  State.leaseTo_aregsBut _ _ _ _

/-- A grant stores the record. -/
theorem State.leaseRec_leaseGive (h : s.leaseRec d n = some r) (hr : r'.domain = r.domain) (x : Cell) (kind : Nat) :
    (s.leaseGive d x kind r').leaseRec d n = some r' := by
  cases d with
  | dz8 =>
    have w := s.granted_frame .dz8 x kind r'
    rw [State.leaseGive_dz8, State.leaseRec_dz8_of (congrArg PairSt.leases (w.pair_eq (by decide))), State.leaseRec_putLease h hr]
  | agent =>
    have w := s.granted_frame .agent x kind r'
    have k : AregsBut (agCellRegs ++ [Ia.PAR_REF_CNT_GRANTED]) (s.putLease .agent r') (s.leaseGive .agent x kind r') :=
      ((s.granted_aregsBut x kind r').mono fun f hf => List.mem_append_left _ hf).abump (f := Ia.PAR_REF_CNT_GRANTED) (by simp) 1
    have hl : (s.leaseGive .agent x kind r').ag.leases = (s.putLease .agent r').ag.leases := congrArg AgSt.leases (w.ag_eq (by decide))
    rw [State.leaseRec_agent_of hl (k _ (by decide)) (k _ (by decide)), State.leaseRec_putLease h hr]

/-- The agent shows and counts what it grants (R491). -/
theorem State.leaseGive_shows (s : State) (x : Cell) (kind : Nat) (r : LeaseRec) : (s.leaseGive .agent x kind r).ag.leases = [r] ∧
    (s.leaseGive .agent x kind r).ard Ia.PAR_REF_CNT_GRANTED = (s.ard Ia.PAR_REF_CNT_GRANTED + 1) % 2 ^ Ia.PAR_REF_CNT_GRANTED.w ∧
    (s.leaseGive .agent x kind r).ard Ia.PAR_REF_HOLDER = r.holder % 2 ^ Ia.PAR_REF_HOLDER.w := by
  have k := s.granted_aregsBut x kind r
  have hholder : (s.putLease .agent r).ard Ia.PAR_REF_HOLDER = r.holder % 2 ^ Ia.PAR_REF_HOLDER.w := by
    show ((s.setAg fun a => { a with leases := [r] }).showRef r).ard Ia.PAR_REF_HOLDER = _
    unfold State.showRef
    rw [State.ard_awr_other _ (by decide), State.ard_awr_other _ (by decide), State.ard_awr_other _ (by decide), State.ard_awr_other _ (by decide),
      State.ard_awr_same]
  refine ⟨congrArg AgSt.leases ((s.granted_frame .agent x kind r).ag_eq (by decide)), ?_, ?_⟩ <;> rw [State.leaseGive_agent]
  · rw [State.ard_abump_same, k _ (by decide), s.putLease_aregsBut r _ (by decide)]
  · rw [State.ard_abump_other _ (by decide), k _ (by decide), hholder]

/-! ### RENEW and MOVE (R423, R426, R427) -/

section
variable {w : Bool → Bool}

/-- The record that a RENEW leaves; `w` is the starting window after it. -/
def State.renewed (s : State) (d : Site) (x : Cell) (r : LeaseRec) (w : Bool → Bool) : LeaseRec :=
  { r with holder := x.src, serial := leaseSer x, expiry := s.newExpiry d, starting := w r.starting }

theorem State.leaseRenew_none (h : s.leaseRec d (leaseDom x) = none) : s.leaseRenew d x w = s := by rw [State.leaseRenew, h]

theorem State.leaseRenew_notUnit (h : s.leaseRec d (leaseDom x) = some r) (hu : isUnit x = false) :
    s.leaseRenew d x w = s.leaseRefuse d x r whyNotUnit := by
  rw [State.leaseRenew, h]
  exact if_pos (by rw [hu]; rfl)

theorem State.leaseRenew_gives (h : s.leaseRec d (leaseDom x) = some r) (hu : isUnit x = true)
    (hr : r.starting = true ∨ (r.holder = x.src ∧ r.released = none)) : s.leaseRenew d x w = s.leaseGive d x 2 (s.renewed d x r w) := by
  have hgive : (r.starting || ((r.holder == x.src || r.holder == 0) && r.released.isNone)) = true := by
    rcases hr with hr | ⟨hh, hn⟩
    · simp [hr]
    · simp [hh, hn]
  rw [State.leaseRenew, h]
  exact (if_neg (by rw [hu]; decide)).trans (if_pos hgive)

theorem State.leaseRenew_held (h : s.leaseRec d (leaseDom x) = some r) (hu : isUnit x = true) (hs : r.starting = false) (hh : r.holder ≠ x.src)
    (h0 : r.holder ≠ 0) : s.leaseRenew d x w = s.leaseRefuse d x r whyHeld := by
  rw [State.leaseRenew, h]
  exact (if_neg (by rw [hu]; decide)).trans (if_neg (by simp [hs, hh, h0]))

end

/-! ### TAKEOVER (R425, R437) -/

/-- The record that a granted TAKEOVER leaves. -/
def State.takenOver (s : State) (d : Site) (x : Cell) (r : LeaseRec) : LeaseRec :=
  { r with holder := x.src, serial := (r.serial + 1) % 2 ^ 32, expiry := s.newExpiry d, released := none, givenAt := some (s.beatS d) }

theorem leaseTakeover_none (h : s.leaseRec d (leaseDom x) = none) : exec (.leaseTakeover d x) s = .next s := by
  show execLeaseTakeover d x s = _
  rw [execLeaseTakeover, h]

theorem leaseTakeover_starting (h : s.leaseRec d (leaseDom x) = some r) (hu : isUnit x = true) (hs : r.starting = true) :
    exec (.leaseTakeover d x) s = .next (s.leaseRefuse d x r whyStarting) := by
  show execLeaseTakeover d x s = _
  rw [execLeaseTakeover, h]
  exact congrArg Host.Outcome.next ((if_neg (by rw [hu]; decide)).trans (if_pos hs))

/-- After the starting window a lease that was not released goes to the lower FID of one beat, or to whoever asks once it has run out. -/
theorem leaseTakeover_unreleased (h : s.leaseRec d (leaseDom x) = some r) (hu : isUnit x = true) (hs : r.starting = false) (hr : r.released = none) :
    exec (.leaseTakeover d x) s = .next (
      if r.givenAt = some (s.beatS d) ∧ x.src < r.holder then
        (s.takeBack d r.holder x.src).leaseGive d x 4 { s.takenOver d x r with serial := r.serial }
      else if r.holder ≠ 0 ∧ s.beatS d < r.expiry + s.beatsUp d s.guardMs then s.leaseRefuse d x r whyHeld
      else s.leaseGive d x 4 (s.takenOver d x r)) := by
  show execLeaseTakeover d x s = _
  rw [execLeaseTakeover, h]
  dsimp only
  rw [if_neg (by rw [hu]; decide), if_neg (by rw [hs]; decide), hr]
  rfl

/-- A released lease goes to the other unit with the committed generation (R437). -/
theorem leaseTakeover_released {g : Nat} (h : s.leaseRec d (leaseDom x) = some r) (hu : isUnit x = true) (hs : r.starting = false)
    (hr : r.released = some g) : exec (.leaseTakeover d x) s = .next (
      if g = leaseGen x ∧ x.src ≠ r.holder then s.leaseGive d x 4 (s.takenOver d x r) else s.leaseRefuse d x r whyGeneration) := by
  show execLeaseTakeover d x s = _
  rw [execLeaseTakeover, h]
  dsimp only
  rw [if_neg (by rw [hu]; decide), if_neg (by rw [hs]; decide), hr]
  rfl

/-! ### RELEASE, and the end of the starting window (R426, R437) -/

theorem leaseRelease_none (h : s.leaseRec d (leaseDom x) = none) : exec (.leaseRelease d x) s = .next s := by
  show execLeaseRelease d x s = _
  rw [execLeaseRelease, h]

theorem leaseRelease_unit (h : s.leaseRec d (leaseDom x) = some r) (hu : isUnit x = true) : exec (.leaseRelease d x) s = .next (
    if r.holder ≠ x.src then s.leaseRefuse d x r whyHeld else s.leaseGive d x 2 { r with released := some (leaseGen x) }) := by
  show execLeaseRelease d x s = _
  rw [execLeaseRelease, h]
  exact congrArg Host.Outcome.next (if_neg (by rw [hu]; decide))

theorem refereeStartingEnd_ends (h : s.leaseRec d n = some r) : exec (.refereeStartingEnd d n) s = .next (s.putLease d { r with starting := false }) := by
  show execRefereeStartingEnd d n s = _
  rw [execRefereeStartingEnd, h]

theorem refereeStartingEnd_none (h : s.leaseRec d n = none) : exec (.refereeStartingEnd d n) s = .next s := by
  show execRefereeStartingEnd d n s = _
  rw [execRefereeStartingEnd, h]

theorem State.putLease_regs (s : State) (d : Site) (r : LeaseRec) : (s.putLease d r).regs = s.regs := by cases d <;> rfl

end

/-- Settles O55: each case is the effect of its command, within the parts of its row (`exec_reach`). RENEW after the starting window and RELEASE are log
entry 102, two requests of one beat log entry 103, the tie of TAKEOVERs log entry 151. -/
theorem theReferee : Obligations.TheReferee := by
  unfold Obligations.TheReferee
  refine ⟨?_, ?_, ?_, ?_, ?_, ?_, ?_, ?_, ?_, ?_, ?_, ?_, ?_, ?_, ?_, ?_, ?_, ?_, ?_, ?_, ?_, ?_⟩
  · intro s d x h
    exact (exec_reach (.leaseRenew d x) s).next (congrArg Host.Outcome.next (State.leaseRenew_none h)) rfl
  · intro s x r h hu hr
    exact (exec_reach (.leaseRenew .dz8 x) s).next (congrArg Host.Outcome.next (State.leaseRenew_gives h hu hr))
      (State.leaseRec_leaseGive (r' := s.renewed .dz8 x r id) h rfl x 2)
  · intro s x r h hu hs
    exact (exec_reach (.leaseRenew .agent x) s).next (congrArg Host.Outcome.next (State.leaseRenew_gives h hu (.inl hs)))
      (s.leaseGive_shows x 2 (s.renewed .agent x r id))
  · intro s d x r h hu hs hh h0
    exact (exec_reach (.leaseRenew d x) s).next (congrArg Host.Outcome.next (State.leaseRenew_held h hu hs hh h0)) ⟨rfl, s.leaseRefuse_leases d x r whyHeld⟩
  · intro s d x r h hu
    exact (exec_reach (.leaseRenew d x) s).next (congrArg Host.Outcome.next (State.leaseRenew_notUnit h hu)) ⟨rfl, s.leaseRefuse_leases d x r whyNotUnit⟩
  · intro s d x h
    exact (exec_reach (.leaseMove d x) s).next (congrArg Host.Outcome.next (State.leaseRenew_none h)) rfl
  · intro s x r h hu hr
    exact (exec_reach (.leaseMove .dz8 x) s).next (congrArg Host.Outcome.next (State.leaseRenew_gives h hu hr))
      (State.leaseRec_leaseGive (r' := s.renewed .dz8 x r fun _ => true) h rfl x 2)
  · intro s x r h hu hs
    exact (exec_reach (.leaseMove .agent x) s).next (congrArg Host.Outcome.next (State.leaseRenew_gives h hu (.inl hs)))
      (s.leaseGive_shows x 2 (s.renewed .agent x r fun _ => true))
  · intro s d x r h hu hs hh h0
    exact (exec_reach (.leaseMove d x) s).next (congrArg Host.Outcome.next (State.leaseRenew_held h hu hs hh h0)) ⟨rfl, s.leaseRefuse_leases d x r whyHeld⟩
  · intro s d x r h hu
    exact (exec_reach (.leaseMove d x) s).next (congrArg Host.Outcome.next (State.leaseRenew_notUnit h hu)) ⟨rfl, s.leaseRefuse_leases d x r whyNotUnit⟩
  · intro s d x h
    exact (exec_reach (.leaseTakeover d x) s).next (leaseTakeover_none h) rfl
  · intro s d x r h hu hs
    exact (exec_reach (.leaseTakeover d x) s).next (leaseTakeover_starting h hu hs) ⟨rfl, (s.leaseRefuse_leases d x r whyStarting).1⟩
  · intro s d x r h hu hs hr htie h0 hb
    have hexec := (leaseTakeover_unreleased h hu hs hr).trans (congrArg Host.Outcome.next ((if_neg htie).trans (if_pos ⟨h0, hb⟩)))
    exact (exec_reach (.leaseTakeover d x) s).next hexec ⟨rfl, s.leaseRefuse_leases d x r whyHeld⟩
  · intro s d x r h hu hs hr htie hb
    have hexec := (leaseTakeover_unreleased h hu hs hr).trans
      (congrArg Host.Outcome.next ((if_neg htie).trans (if_neg fun hc => Nat.not_lt.2 hb hc.2)))
    exact (exec_reach (.leaseTakeover d x) s).next hexec ⟨rfl, State.leaseRec_leaseGive (r' := s.takenOver d x r) h rfl x 4⟩
  · intro s d x r h hu hs hr hg hlt
    have hexec := (leaseTakeover_unreleased h hu hs hr).trans (congrArg Host.Outcome.next (if_pos ⟨hg, hlt⟩))
    exact (exec_reach (.leaseTakeover d x) s).next hexec rfl
  · intro s d x r g h hu hs hr hg hne
    have hexec := (leaseTakeover_released h hu hs hr).trans (congrArg Host.Outcome.next (if_pos ⟨hg, hne⟩))
    exact (exec_reach (.leaseTakeover d x) s).next hexec rfl
  · intro s d x r g h hu hs hr hg
    have hexec := (leaseTakeover_released h hu hs hr).trans (congrArg Host.Outcome.next (if_neg fun hc => hg hc.1))
    exact (exec_reach (.leaseTakeover d x) s).next hexec ⟨rfl, (s.leaseRefuse_leases d x r whyGeneration).1⟩
  · intro s d x h
    exact (exec_reach (.leaseRelease d x) s).next (leaseRelease_none h) rfl
  · intro s d x r h hu hh
    have hexec := (leaseRelease_unit h hu).trans (congrArg Host.Outcome.next (if_neg (not_not_intro hh)))
    exact (exec_reach (.leaseRelease d x) s).next hexec ⟨rfl, State.leaseRec_leaseGive (r' := { r with released := some (leaseGen x) }) h rfl x 2⟩
  · intro s d x r h hu hh
    have hexec := (leaseRelease_unit h hu).trans (congrArg Host.Outcome.next (if_pos hh))
    exact (exec_reach (.leaseRelease d x) s).next hexec ⟨rfl, (s.leaseRefuse_leases d x r whyHeld).1⟩
  · intro s d n r h
    exact (exec_reach (.refereeStartingEnd d n) s).next (refereeStartingEnd_ends h) ⟨rfl, State.leaseRec_putLease h rfl, s.putLease_regs d _⟩
  · intro s d n h
    exact (exec_reach (.refereeStartingEnd d n) s).next (refereeStartingEnd_none h) rfl

end Sys2Proof.Machine
end

section
/-! The lease of the unit, and O56 (R411, R412, R423 to R425, R427, R429, R433, R436, R437). The GRANT that completes a RELEASE is log entry 102, what a
STANDBY or FENCED unit drops log entry 104. -/

namespace Sys2Proof.Machine

/-! ### Power and cells leave the registers of the pair -/

/-- The field lies in the page of the pair, after its first word. -/
abbrev Fld.PairField (g : Fld) : Prop := g.key / 2 ^ 18 = 0xF1700 ∧ g.key % 2 ^ 18 ≠ 2 ^ 14

section
variable {s : State} {g : Fld}

/-- Powering a domain up leaves the page of the pair, as powering it down does (R412, R521). -/
theorem State.rd_cpwr_par (h : g.PairField) (c : Nat) (b : Bool) : (s.cpwr c b).rd g = s.rd g := by
  refine State.rd_cpwr s ?_ ?_ c b <;>
  · intro he
    rw [Fld.PairField, he] at h
    exact absurd h (by decide)

theorem State.rd_stacksTo_par (h : g.PairField) (st : Nat) : (s.stacksTo st).rd g = s.rd g := by
  refine State.rd_stacksTo s (fun m k he => ?_) st
  rw [Fld.PairField, he] at h
  simp only [Fld.key, HBC_STAT_STATE, hbcPg] at h
  omega

theorem par_key_ne_pghState (h : g.PairField) (d : Nat) : g.key ≠ (PGH_STAT_STATE (pghPg d)).key := by
  intro he
  rw [Fld.PairField, he] at h
  simp only [Fld.key, PGH_STAT_STATE, pghPg] at h
  omega

/-- The state whose Pigeonholes are in retention. -/
def State.retained (s : State) : State := (List.range s.cdies).foldl (fun s d => s.wr (PGH_STAT_STATE (pghPg d)) 2) s

theorem State.goCold_eq (s : State) :
    s.goCold = if (s.retained.stacksTo 3).mdies = 0 then ((s.retained.stacksTo 3).cpwr 1 false).cpwr 0 true else (s.retained.stacksTo 3).cpwrAll false := rfl

theorem State.rd_retained_par (h : g.PairField) : s.retained.rd g = s.rd g :=
  foldl_keeps (State.rd · g) (fun u d => State.rd_wr_other u (par_key_ne_pghState h d) 2) _ s

theorem State.rd_goCold_par (h : g.PairField) : s.goCold.rd g = s.rd g := by
  rw [State.goCold_eq]
  split
  · rw [State.rd_cpwr_par h, State.rd_cpwr_par h, State.rd_stacksTo_par h, State.rd_retained_par h]
  · rw [State.cpwrAll, State.rd_cpwr_par h, State.rd_cpwr_par h, State.rd_stacksTo_par h, State.rd_retained_par h]

/-- The domain's dies, stacks and Pigeonholes come up. -/
def State.powersUp (s : State) : State :=
  (List.range ((s.cpwrAll true).stacksTo 2).cdies).foldl (fun s d => s.pghWake d) ((s.cpwrAll true).stacksTo 2)

theorem State.rd_powersUp_par (h : g.PairField) : s.powersUp.rd g = s.rd g := by
  have hwake : s.powersUp.rd g = ((s.cpwrAll true).stacksTo 2).rd g := foldl_keeps (State.rd · g) (fun u d => by
    dsimp only [State.pghWake]
    split
    · exact State.rd_wr_other u (par_key_ne_pghState h d) 3
    · rfl) _ _
  rw [hwake, State.rd_stacksTo_par h, State.cpwrAll, State.rd_cpwr_par h, State.rd_cpwr_par h]

theorem State.tellPair_regsBut (s : State) : RegsBut ownCellRegs s s.tellPair :=
  List.foldlRecOn (motive := RegsBut ownCellRegs s) (s.agentChips s.theRod) _ (.refl _ s) fun u hu _ _ => hu.trans (u.remoteWrite_regsBut _ _ _)

theorem State.portRoles_regsBut (s : State) : RegsBut ownCellRegs s s.portRoles :=
  List.foldlRecOn (motive := RegsBut ownCellRegs s) (s.agentChips s.theRod) _ (.refl _ s) fun _ hu f _ =>
    List.foldlRecOn (motive := RegsBut ownCellRegs s) (s.theRod.ends f) _ hu fun v hv _ _ => hv.trans (v.remoteWrite_regsBut _ _ _)

theorem State.leaseAsk_regsBut (s : State) (kind expiry gen : Nat) : RegsBut ownCellRegs s (s.leaseAsk kind expiry gen) := s.leaseTo_regsBut _ _ _

theorem State.leaseAsk_frame (s : State) (kind expiry gen : Nat) :
    Within [.regs, .aregs, .ports, .agPorts, .flt, .agFlt, .out] s (s.leaseAsk kind expiry gen) := State.leaseTo_frame ..

end

/-! ### RENEW (R423) -/

section
variable {s : State}

/-- The state that waits for the answer to its RENEW. -/
def State.renewSent (s : State) : State :=
  (s.leaseAsk 1 0 (s.rd PAR_GEN_GEN)).setPair fun q => { q with renewSince := some (q.renewSince.getD s.time.beat) }

theorem State.renewSent_since : s.renewSent.pair.renewSince = some (s.pair.renewSince.getD s.time.beat) := by
  have w := s.leaseAsk_frame 1 0 (s.rd PAR_GEN_GEN)
  exact congrArg (fun q : PairSt => some (q.renewSince.getD s.time.beat)) (w.pair_eq (by decide))

/-! ### The lease that is held (R423) -/

section
variable (s : State) (x : Cell)

/-- The lease shows in the registers of the pair. -/
def State.leaseShown (s : State) (e : Nat) : State := (s.wr PAR_LEASE_HELD 1).wr PAR_LEASE_EXPIRY e

theorem State.holdLease_eq : s.holdLease x =
    (s.leaseShown (max (leaseSent x + s.beatsDown .dz8 s.leaseMs) (s.rd PAR_LEASE_EXPIRY))).setPair fun q => { q with
      leaseSerial := leaseSer x, renewSince := none } := rfl

theorem State.leaseShown_regsBut (e : Nat) : RegsBut [PAR_LEASE_HELD, PAR_LEASE_EXPIRY] s (s.leaseShown e) :=
  ((RegsBut.refl _ s).wr (f := PAR_LEASE_HELD) (by simp) 1).wr (f := PAR_LEASE_EXPIRY) (by simp) e

theorem State.holdLease_regsBut : RegsBut [PAR_LEASE_HELD, PAR_LEASE_EXPIRY] s (s.holdLease x) := by
  intro g hg
  rw [State.holdLease_eq, State.setPair_rd, State.leaseShown_regsBut _ _ g hg]

theorem State.rd_holdLease_held : (s.holdLease x).rd PAR_LEASE_HELD = 1 := by
  rw [State.holdLease_eq, State.setPair_rd, State.leaseShown, State.rd_wr_other _ (by decide), State.rd_wr_same]
  rfl

theorem State.rd_holdLease_expiry : (s.holdLease x).rd PAR_LEASE_EXPIRY =
    max (leaseSent x + s.beatsDown .dz8 s.leaseMs) (s.rd PAR_LEASE_EXPIRY) % 2 ^ PAR_LEASE_EXPIRY.w := by
  rw [State.holdLease_eq, State.setPair_rd, State.leaseShown, State.rd_wr_same]

theorem State.leaseShown_pair (e : Nat) : (s.leaseShown e).pair = s.pair := rfl

theorem State.holdLease_warm : (s.holdLease x).pair.warm = s.pair.warm := by
  rw [State.holdLease_eq, State.setPair_pair]
  dsimp only
  rw [s.leaseShown_pair]

theorem State.holdLease_frame : Within [.regs, .pair] s (s.holdLease x) := State.holdLease_within (by decide) (by decide) x (.refl _ s)

end

theorem leaseGrant_active {x : Cell} (hn : s.pair.handover = none) (ha : s.active = true) : exec (.leaseGrant x) s = .next (s.holdLease x) := by
  show execLeaseGrant x s = _
  rw [execLeaseGrant, hn]
  exact congrArg Host.Outcome.next (if_pos ha)

theorem leaseGrant_idle {x : Cell} (hn : s.pair.handover = none) (ha : s.active = false) : exec (.leaseGrant x) s = .next s := by
  show execLeaseGrant x s = _
  rw [execLeaseGrant, hn]
  exact congrArg Host.Outcome.next (if_neg (by rw [ha]; decide))

/-- The answer to a RELEASE completes the HANDOVER (R437 step 8). -/
theorem leaseGrant_released {x : Cell} {h : Handover} (hh : s.pair.handover = some h) (hp : h.phase = 4) :
    exec (.leaseGrant x) s = .next (s.mailOk h.session h.slot [h.finalGen, s.time.beat]).toStandby := by
  show execLeaseGrant x s = _
  rw [execLeaseGrant, hh]
  exact congrArg Host.Outcome.next (if_pos hp)

/-! ### STANDBY (R411, R412) -/

/-- The registers of the pair as a STANDBY unit shows them. -/
def State.standbyShown (s : State) : State :=
  (((((s.wr PAR_STAT_ROLE 2).wr PAR_LEASE_HELD 0).wr PAR_STAT_TAKEOVER 0).wr PAR_STAT_CANDIDATE 0).wr PAR_GEN_GEN 0).wr PAR_STAT_COPY 0

theorem State.toStandby_eq (s : State) : s.toStandby = s.dropDomain.standbyShown.goCold := rfl

theorem State.standbyShown_pair (s : State) : s.standbyShown.pair = s.pair := rfl

theorem State.dropDomain_handover (s : State) : s.dropDomain.pair.handover = none := by
  unfold State.dropDomain
  extract_lets t u
  rfl

theorem State.toStandby_held (s : State) : s.toStandby.rd PAR_LEASE_HELD = 0 := by
  rw [State.toStandby_eq, State.rd_goCold_par (by decide), State.standbyShown]
  simp (disch := decide) only [State.rd_wr_other, State.rd_wr_same]
  rfl

theorem State.toStandby_handover (s : State) : s.toStandby.pair.handover = none := by
  have w : Within [.regs] s.dropDomain.standbyShown s.toStandby := s.toStandby_eq ▸ State.goCold_within (by decide) (.refl _ _)
  rw [w.pair_eq (by decide), State.standbyShown_pair, State.dropDomain_handover]

/-! ### FENCED (R424) -/

theorem State.showOpen_regsBut (s : State) : RegsBut [CLX_ENG_STAT_OPEN, CLX_ENG_STAT_PEAK] s s.showOpen := by
  unfold State.showOpen State.atLeast
  extract_lets n
  have h : RegsBut [CLX_ENG_STAT_OPEN, CLX_ENG_STAT_PEAK] s (s.wr CLX_ENG_STAT_OPEN n) := (RegsBut.refl _ s).wr (f := CLX_ENG_STAT_OPEN) (by simp) n
  split
  · exact h.wr (f := CLX_ENG_STAT_PEAK) (by simp) n
  · exact h

/-- The role of a FENCED unit, with all instances closed. -/
def State.fencedRole (s : State) : State := ((s.wr PAR_STAT_ROLE 3).wr PAR_LEASE_HELD 0).closeAll.showOpen

/-- A unit that coordinates no flip. -/
def State.coordOff (s : State) : State := (s.wr RTE_STAT_COORD 0).wr RTE_STAT_PHASE 0

theorem State.fencedRole_regsBut (s : State) :
    RegsBut [CLX_ENG_STAT_OPEN, CLX_ENG_STAT_PEAK] ((s.wr PAR_STAT_ROLE 3).wr PAR_LEASE_HELD 0) s.fencedRole :=
  (RegsBut.of_regs rfl).trans (State.showOpen_regsBut _)

theorem State.fencedRole_insts (s : State) : ∀ i ∈ s.fencedRole.insts, i.isOpen = false := by
  have w : Within [.regs] ((s.wr PAR_STAT_ROLE 3).wr PAR_LEASE_HELD 0).closeAll s.fencedRole := State.showOpen_within (by decide) (.refl _ _)
  rw [w.insts_eq (by decide)]
  intro i hi
  obtain ⟨j, -, rfl⟩ := List.mem_map.1 hi
  rfl

theorem State.fence_regs (s : State) : s.fence.regs = s.fencedRole.coordOff.regs := rfl

theorem State.fence_insts (s : State) : s.fence.insts = s.fencedRole.insts := rfl

theorem State.fence_writing (s : State) : s.fence.pair.writing = none := rfl

theorem State.rd_fence (s : State) (g : Fld) : s.fence.rd g = s.fencedRole.coordOff.rd g :=
  (RegsBut.of_regs (fs := []) (s.fence_regs)) g nofun

theorem State.fence_role (s : State) : s.fence.rd PAR_STAT_ROLE = 3 ∧ s.fence.rd PAR_LEASE_HELD = 0 := by
  refine ⟨?_, ?_⟩ <;> rw [State.rd_fence, State.coordOff, State.rd_wr_other _ (by decide), State.rd_wr_other _ (by decide), s.fencedRole_regsBut _ (by decide)]
  · rw [State.rd_wr_other _ (by decide), State.rd_wr_same]
    rfl
  · rw [State.rd_wr_same]
    rfl

theorem State.fence_coord (s : State) : s.fence.rd RTE_STAT_COORD = 0 ∧ s.fence.rd RTE_STAT_PHASE = 0 := by
  refine ⟨?_, ?_⟩ <;> rw [State.rd_fence, State.coordOff]
  · rw [State.rd_wr_other _ (by decide), State.rd_wr_same]
    rfl
  · rw [State.rd_wr_same]
    rfl

theorem leaseExpiry_fences (ha : s.active = true) (he : s.rd PAR_LEASE_EXPIRY ≤ s.time.beat) :
    exec .leaseExpiry s = .next (s.fence.detect .dz8 parPg 2 0 none) := congrArg Host.Outcome.next (if_pos ⟨ha, he⟩)

theorem leaseExpiry_idle (h : s.active = false ∨ s.time.beat < s.rd PAR_LEASE_EXPIRY) : exec .leaseExpiry s = .next s := by
  refine congrArg Host.Outcome.next (if_neg fun ⟨ha, he⟩ => ?_)
  rcases h with h | h
  · exact Bool.false_ne_true (h.symm.trans ha)
  · exact Nat.not_lt.2 he h

/-! ### MOVE to the alternate referee (R427) -/

/-- The agents learn the alternate referee. -/
def State.altTold (s : State) : State := (s.wr PAR_REFEREE_IN_USE 1).tellPair

theorem leaseMoveTrigger_none (h : s.pair.renewSince = none) : exec .leaseMoveTrigger s = .next s := by
  show execLeaseMoveTrigger s = _
  rw [execLeaseMoveTrigger, h]

theorem leaseMoveTrigger_moves {b : Nat} (h : s.pair.renewSince = some b) (hm : s.mayRenew = true) (hb : b + 3 * s.beatsUp .dz8 s.renewMs ≤ s.time.beat)
    (hc : s.rd PAR_STAT_COPY = 2) (ha : s.rd PAR_REFEREE_ALTERNATE ≠ 0) (hu : s.rd PAR_REFEREE_IN_USE = 0) :
    exec .leaseMoveTrigger s = .next (s.altTold.dueGen.setPair fun q => { q with moveDue := true, renewSince := none }) := by
  show execLeaseMoveTrigger s = _
  rw [execLeaseMoveTrigger, h]
  exact congrArg Host.Outcome.next (if_pos ⟨hm, hb, hc, ha, by simp [State.on, hu]⟩)

theorem State.rd_altTold : s.altTold.rd PAR_REFEREE_IN_USE = 1 := by
  rw [State.altTold, State.tellPair_regsBut _ _ (by decide), State.rd_wr_same]
  rfl

/-! ### TAKEOVER (R425, R429) -/

theorem State.askTakeover_eq (s : State) : s.askTakeover = ((s.leaseAsk 3 0 (s.rd PAR_GEN_GEN)).wr PAR_STAT_TAKEOVER 1).setPair fun q => { q with
    retryAt := some (s.time.beat + s.beatsUp .dz8 s.renewMs) } := rfl

theorem State.askTakeover_effect (s : State) : s.askTakeover.rd PAR_STAT_TAKEOVER = 1 ∧
    s.askTakeover.pair.retryAt = some (s.time.beat + s.beatsUp .dz8 s.renewMs) ∧ s.askTakeover.rd PAR_STAT_ROLE = s.rd PAR_STAT_ROLE := by
  rw [State.askTakeover_eq]
  refine ⟨?_, rfl, ?_⟩ <;> rw [State.setPair_rd]
  · rw [State.rd_wr_same]
    rfl
  · rw [State.rd_wr_other _ (by decide), s.leaseAsk_regsBut _ _ _ _ (by decide)]

theorem takeoverTrigger_asks (hm : s.mayAsk = true) (ha : s.alone = true) : exec .takeoverTrigger s = .next s.askTakeover :=
  congrArg Host.Outcome.next (if_pos (by rw [hm, ha]; rfl))

theorem takeoverTrigger_idle (h : s.mayAsk = false ∨ s.alone = false) : exec .takeoverTrigger s = .next s :=
  congrArg Host.Outcome.next (if_neg (by rcases h with h | h <;> simp [h]))

theorem takeoverRequestRepeat_due {b : Nat} (h : s.pair.retryAt = some b) (hb : b ≤ s.time.beat) : exec .takeoverRequestRepeat s = .next (
    if s.mayAsk && s.alone then s.askTakeover else s.setPair fun q => { q with retryAt := none }) := by
  show execTakeoverRequestRepeat s = _
  rw [execTakeoverRequestRepeat, h]
  exact congrArg Host.Outcome.next (if_pos hb)

theorem takeoverRequestRepeat_early {b : Nat} (h : s.pair.retryAt = some b) (hb : s.time.beat < b) : exec .takeoverRequestRepeat s = .next s := by
  show execTakeoverRequestRepeat s = _
  rw [execTakeoverRequestRepeat, h]
  exact congrArg Host.Outcome.next (if_neg (Nat.not_le.2 hb))

/-! ### REFUSE, and a RELEASE without answer (R411, R425, R436) -/

section
variable {x : Cell}

/-- The unit asks again at another beat. -/
def State.retryFrom (s : State) (x : Cell) (b : Nat) : State := s.setPair fun q => { q with
  retryAt := some (if leaseReason x = whyHeld then max (min b (leaseExp x + s.beatsUp .dz8 s.guardMs)) (s.time.beat + 1) else b) }

theorem leaseRefuse_standby (hn : s.pair.handover = none) (h : s.rd PAR_STAT_ROLE = 0 ∧ leaseReason x = whyHeld ∧ leaseHolder x = s.partnerFid) :
    exec (.leaseRefuse x) s = .next s.toStandby := by
  show execLeaseRefuse x s = _
  rw [execLeaseRefuse, hn]
  exact congrArg Host.Outcome.next (if_pos h)

theorem leaseRefuse_active (hn : s.pair.handover = none) (ha : s.active = true) : exec (.leaseRefuse x) s = .next s := by
  have hrole : s.rd PAR_STAT_ROLE = 1 := beq_iff_eq.1 ha
  show execLeaseRefuse x s = _
  rw [execLeaseRefuse, hn]
  exact congrArg Host.Outcome.next ((if_neg (by simp [hrole])).trans (if_pos ha))

/-- A unit that is not ACTIVE and does not stand back waits, where it was asking (R425). -/
theorem leaseRefuse_waits (hn : s.pair.handover = none) (ha : s.rd PAR_STAT_ROLE ≠ 1)
    (h : ¬(s.rd PAR_STAT_ROLE = 0 ∧ leaseReason x = whyHeld ∧ leaseHolder x = s.partnerFid)) :
    exec (.leaseRefuse x) s = .next (match s.pair.retryAt with | some b => s.retryFrom x b | none => s) := by
  show execLeaseRefuse x s = _
  rw [execLeaseRefuse, hn]
  exact congrArg Host.Outcome.next ((if_neg h).trans (if_neg (by simp [State.active, ha])))

theorem leaseRefuse_waits_regs : (match s.pair.retryAt with | some b => s.retryFrom x b | none => s).regs = s.regs := by
  split <;> rfl

theorem State.releaseFails_handover (s : State) (h : Handover) : (s.releaseFails h).pair.handover = none := by
  unfold State.releaseFails
  extract_lets live u
  exact u.handoverFails_handover h _

theorem handoverReleaseTimeout_none (hn : s.pair.handover = none) : exec .handoverReleaseTimeout s = .next s := by
  show execHandoverReleaseTimeout s = _
  rw [execHandoverReleaseTimeout, hn]

theorem handoverReleaseTimeout_fails {h : Handover} (hh : s.pair.handover = some h) (hp : h.phase = 4) :
    exec .handoverReleaseTimeout s = .next (s.releaseFails h) := by
  show execHandoverReleaseTimeout s = _
  rw [execHandoverReleaseTimeout, hh]
  exact congrArg Host.Outcome.next (if_pos hp)

end

/-! ### The grant of a TAKEOVER (R411, R433) -/

section
variable {x : Cell}

/-- The unit takes the role of the active unit, with its lease. -/
def State.takesRole (s : State) (x : Cell) : State := ((s.wr PAR_LEASE_EXPIRY 0).wr PAR_STAT_ROLE 1).holdLease x

theorem State.becomeActive_eq (s : State) (x : Cell) : s.becomeActive x = (s.takesRole x).powersUp.portRoles.tellPair := rfl

/-- A register of the pair that no cell of the unit counts is as the role left it. -/
theorem State.rd_becomeActive {g : Fld} (s : State) (x : Cell) (hp : g.PairField) (hc : ∀ f ∈ ownCellRegs, g.key ≠ f.key) :
    (s.becomeActive x).rd g = (s.takesRole x).rd g := by
  rw [State.becomeActive_eq, State.tellPair_regsBut _ _ hc, State.portRoles_regsBut _ _ hc, State.rd_powersUp_par hp]

theorem State.becomeActive_role (s : State) (x : Cell) : (s.becomeActive x).rd PAR_STAT_ROLE = 1 := by
  rw [State.rd_becomeActive s x (by decide) (by decide), State.takesRole, State.holdLease_regsBut _ _ _ (by decide), State.rd_wr_same]
  rfl

theorem State.becomeActive_count (s : State) (x : Cell) : (s.becomeActive x).rd PAR_TAKEOVER_COUNT = s.rd PAR_TAKEOVER_COUNT := by
  rw [State.rd_becomeActive s x (by decide) (by decide), State.takesRole, State.holdLease_regsBut _ _ _ (by decide), State.rd_wr_other _ (by decide),
    State.rd_wr_other _ (by decide)]

theorem State.powersUp_within {A : List Area} (a0 : Area.regs ∈ A) {s₀ s : State} (h₀ : Within A s₀ s) : Within A s₀ s.powersUp :=
  Within.foldl (State.stacksTo_within a0 2 (State.cpwrAll_within a0 true h₀)) fun _ d k => State.pghWake_within a0 d k

theorem State.becomeActive_frame (s : State) (x : Cell) :
    Within [.regs, .aregs, .ports, .agPorts, .route, .flt, .agFlt, .out] (s.takesRole x) (s.becomeActive x) := by
  have hup : Within [.regs, .aregs, .ports, .agPorts, .route, .flt, .agFlt, .out] (s.takesRole x) (s.takesRole x).powersUp :=
    State.powersUp_within (by decide) (.refl _ _)
  rw [State.becomeActive_eq]
  generalize (s.takesRole x).powersUp = u at hup ⊢
  exact State.tellPair_within (by decide) (by decide) (by decide) (by decide) (by decide) (by decide) (by decide) (by decide)
    (State.portRoles_within (by decide) (by decide) (by decide) (by decide) (by decide) (by decide) (by decide) (by decide) hup)

theorem State.takesRole_warm (s : State) (x : Cell) : (s.takesRole x).pair.warm = s.pair.warm := by
  rw [State.takesRole, State.holdLease_warm, State.wr_pair, State.wr_pair]

theorem State.takesRole_time (s : State) (x : Cell) : (s.takesRole x).time = s.time := by
  rw [State.takesRole, (State.holdLease_frame _ x).time_eq (by decide)]
  rfl

/-- The first step of a takeover shows, with its cause. -/
def State.takeoverShown (s : State) : State := (s.wr PAR_STAT_TAKEOVER 2).wr PAR_TAKEOVER_CAUSE (if s.pair.warm then 2 else 1)

/-- The takeover begins (R433). -/
def State.takeoverBegun (s : State) : State :=
  (s.takeoverShown.bump PAR_TAKEOVER_COUNT 1).setPair fun q => { q with
    takeoverNs := some s.takeoverShown.time.nowNs, cdiesReady := q.warm, reconciled := false, kept := [], retryAt := none, noActive := 0 }

theorem leaseTakeoverGrant_active (h : s.rd PAR_STAT_ROLE = 1) : exec (.leaseTakeoverGrant x) s = .next (s.holdLease x) :=
  congrArg Host.Outcome.next (if_pos h)

theorem leaseTakeoverGrant_notAsked (h : s.rd PAR_STAT_ROLE ≠ 1) (ht : s.rd PAR_STAT_TAKEOVER ≠ 1) : exec (.leaseTakeoverGrant x) s = .next s :=
  congrArg Host.Outcome.next ((if_neg h).trans (if_pos ht))

theorem leaseTakeoverGrant_asked (h : s.rd PAR_STAT_ROLE ≠ 1) (ht : s.rd PAR_STAT_TAKEOVER = 1) : exec (.leaseTakeoverGrant x) s = .next (
    if s.rd PAR_STAT_ROLE = 0 then (s.becomeActive x).coldStart else (s.becomeActive x).takeoverBegun) := by
  show execLeaseTakeoverGrant x s = _
  unfold execLeaseTakeoverGrant
  generalize s.becomeActive x = u
  exact congrArg Host.Outcome.next ((if_neg h).trans (if_neg (not_not_intro ht)))

theorem leaseTakeoverGrant_cold (h : s.rd PAR_STAT_ROLE = 0) (ht : s.rd PAR_STAT_TAKEOVER = 1) :
    exec (.leaseTakeoverGrant x) s = .next (s.becomeActive x).coldStart := by
  rw [leaseTakeoverGrant_asked (by rw [h]; decide) ht, if_pos h]

theorem leaseTakeoverGrant_standby (h : s.rd PAR_STAT_ROLE = 2) (ht : s.rd PAR_STAT_TAKEOVER = 1) :
    exec (.leaseTakeoverGrant x) s = .next (s.becomeActive x).takeoverBegun := by
  rw [leaseTakeoverGrant_asked (by rw [h]; decide) ht, if_neg (by rw [h]; decide)]

theorem State.takeoverBegun_rd (s : State) (g : Fld) : s.takeoverBegun.rd g = (s.takeoverShown.bump PAR_TAKEOVER_COUNT 1).rd g := rfl

theorem State.takeoverShown_time (s : State) : s.takeoverShown.time = s.time := rfl

theorem State.takeoverBegun_pair (s : State) : s.takeoverBegun.pair.takeoverNs = some s.time.nowNs ∧ s.takeoverBegun.pair.reconciled = false ∧
    s.takeoverBegun.pair.kept = [] := by
  rw [State.takeoverBegun, State.setPair_pair, State.takeoverShown_time]
  exact ⟨rfl, rfl, rfl⟩

theorem State.takeoverBegun_regs (s : State) : s.takeoverBegun.rd PAR_STAT_ROLE = s.rd PAR_STAT_ROLE ∧ s.takeoverBegun.rd PAR_STAT_TAKEOVER = 2 ∧
    (s.takeoverBegun.rd PAR_TAKEOVER_CAUSE = if s.pair.warm then 2 else 1) ∧
    s.takeoverBegun.rd PAR_TAKEOVER_COUNT = (s.rd PAR_TAKEOVER_COUNT + 1) % 2 ^ PAR_TAKEOVER_COUNT.w := by
  refine ⟨?_, ?_, ?_, ?_⟩ <;> rw [State.takeoverBegun_rd, State.takeoverShown]
  · rw [State.rd_bump_other _ (by decide), State.rd_wr_other _ (by decide), State.rd_wr_other _ (by decide)]
  · rw [State.rd_bump_other _ (by decide), State.rd_wr_other _ (by decide), State.rd_wr_same]
    rfl
  · rw [State.rd_bump_other _ (by decide), State.rd_wr_same]
    split <;> rfl
  · rw [State.rd_bump_same, State.rd_wr_other _ (by decide), State.rd_wr_other _ (by decide)]

/-- A standby that is granted the lease begins its takeover. -/
theorem State.takeover_effect (s : State) (x : Cell) (t : State) (ht : t = (s.becomeActive x).takeoverBegun) : t.rd PAR_STAT_ROLE = 1 ∧
    t.rd PAR_STAT_TAKEOVER = 2 ∧ (t.rd PAR_TAKEOVER_CAUSE = if s.pair.warm then 2 else 1) ∧
    t.rd PAR_TAKEOVER_COUNT = (s.rd PAR_TAKEOVER_COUNT + 1) % 2 ^ PAR_TAKEOVER_COUNT.w ∧ t.pair.takeoverNs = some s.time.nowNs ∧
    t.pair.reconciled = false ∧ t.pair.kept = [] := by
  have w := s.becomeActive_frame x
  have hwarm : (s.becomeActive x).pair.warm = s.pair.warm := (congrArg PairSt.warm (w.pair_eq (by decide))).trans (s.takesRole_warm x)
  have htime : (s.becomeActive x).time = s.time := (w.time_eq (by decide)).trans (s.takesRole_time x)
  obtain ⟨hrole, htake, hcause, hcount⟩ := (s.becomeActive x).takeoverBegun_regs
  rw [s.becomeActive_role x] at hrole
  rw [s.becomeActive_count x] at hcount
  rw [hwarm] at hcause
  obtain ⟨hns, hrec, hkept⟩ := (s.becomeActive x).takeoverBegun_pair
  rw [htime] at hns
  rw [ht]
  exact ⟨hrole, htake, hcause, hcount, hns, hrec, hkept⟩

end

end

/-- Settles O56: each case is the effect of its command, within the parts of its row (`exec_reach`). The GRANT that completes a RELEASE is log entry 102,
what a STANDBY or FENCED unit drops log entry 104. -/
theorem theLeaseOfTheUnit : Obligations.TheLeaseOfTheUnit := by
  unfold Obligations.TheLeaseOfTheUnit
  refine ⟨?_, ?_, ?_, ?_, ?_, ?_, ?_, ?_, ?_, ?_, ?_, ?_, ?_, ?_, ?_, ?_, ?_, ?_, ?_, ?_, ?_, ?_, ?_, ?_, ?_⟩
  · intro s h
    exact (exec_reach .renewTimer s).next (congrArg Host.Outcome.next (if_neg (by rw [h]; decide))) rfl
  · intro s h
    have hexec : exec .renewTimer s = .next s.renewSent := congrArg Host.Outcome.next (if_pos h)
    exact (exec_reach .renewTimer s).next hexec ⟨rfl, State.renewSent_since⟩
  · intro s x hn ha
    exact (exec_reach (.leaseGrant x) s).next (leaseGrant_active hn ha)
      ⟨s.holdLease_regsBut x, s.rd_holdLease_held x, s.rd_holdLease_expiry x, rfl, rfl⟩
  · intro s x hn ha
    exact (exec_reach (.leaseGrant x) s).next (leaseGrant_idle hn ha) rfl
  · intro s x h hh hp
    exact (exec_reach (.leaseGrant x) s).next (leaseGrant_released hh hp) ⟨rfl, State.toStandby_role _, State.toStandby_held _, State.toStandby_handover _⟩
  · intro s ha he
    have w := s.fence.detect_frame .dz8 parPg 2 0 none
    refine (exec_reach .leaseExpiry s).next (leaseExpiry_fences ha he) ⟨?_, ?_, ?_, ?_, ?_, ?_⟩
    · rw [State.rd_detect, s.fence_role.1]
    · rw [State.rd_detect, s.fence_role.2]
    · rw [w.insts_eq (by decide), State.fence_insts]
      exact s.fencedRole_insts
    · rw [w.pair_eq (by decide), State.fence_writing]
    · rw [State.rd_detect, s.fence_coord.1]
    · rw [State.rd_detect, s.fence_coord.2]
  · intro s h
    exact (exec_reach .leaseExpiry s).next (leaseExpiry_idle h) rfl
  · intro s h
    exact (exec_reach .leaseMoveTrigger s).next (leaseMoveTrigger_none h) rfl
  · intro s b h hm hb hc ha hu
    exact (exec_reach .leaseMoveTrigger s).next (leaseMoveTrigger_moves h hm hb hc ha hu) ⟨State.rd_altTold, rfl, rfl, rfl⟩
  · intro s hm ha
    exact (exec_reach .takeoverTrigger s).next (takeoverTrigger_asks hm ha) ⟨rfl, s.askTakeover_effect⟩
  · intro s h
    exact (exec_reach .takeoverTrigger s).next (takeoverTrigger_idle h) rfl
  · intro s b h hb hm ha
    have hexec := (takeoverRequestRepeat_due h hb).trans (congrArg Host.Outcome.next (if_pos (by rw [hm, ha]; rfl)))
    exact (exec_reach .takeoverRequestRepeat s).next hexec ⟨rfl, s.askTakeover_effect⟩
  · intro s b h hb hm
    have hexec := (takeoverRequestRepeat_due h hb).trans (congrArg Host.Outcome.next (if_neg (by rw [hm]; exact Bool.false_ne_true)))
    exact (exec_reach .takeoverRequestRepeat s).next hexec ⟨rfl, rfl⟩
  · intro s b h hb
    exact (exec_reach .takeoverRequestRepeat s).next (takeoverRequestRepeat_early h hb) rfl
  · intro s x hn hr hw hf
    exact (exec_reach (.leaseRefuse x) s).next (leaseRefuse_standby hn ⟨hr, hw, hf⟩) ⟨rfl, s.toStandby_role⟩
  · intro s x hn hr hf
    have hexec := leaseRefuse_waits (x := x) hn (by rw [hr]; decide) fun h => hf h.2.2
    have hregs := leaseRefuse_waits_regs (s := s) (x := x)
    exact (exec_reach (.leaseRefuse x) s).next hexec ⟨((RegsBut.of_regs (fs := []) hregs) _ nofun).trans hr, hregs⟩
  · intro s x hn ha
    exact (exec_reach (.leaseRefuse x) s).next (leaseRefuse_active hn ha) rfl
  · intro s x b hn hr hw hb
    have hexec := leaseRefuse_waits (x := x) hn (by rw [hr]; decide) fun h => absurd (hr.symm.trans h.1) (by decide)
    rw [hb] at hexec
    exact (exec_reach (.leaseRefuse x) s).next hexec ⟨congrArg some (if_pos hw), rfl⟩
  · intro s x hn hr hw
    have hexec := leaseRefuse_waits (x := x) hn (by rw [hr]; decide) fun h => absurd (hr.symm.trans h.1) (by decide)
    refine (exec_reach (.leaseRefuse x) s).next hexec ⟨?_, leaseRefuse_waits_regs⟩
    split
    · next b hb => exact (congrArg some (if_neg hw)).trans hb.symm
    · rfl
  · intro s hn
    exact (exec_reach .handoverReleaseTimeout s).next (handoverReleaseTimeout_none hn) rfl
  · intro s h hh hp
    exact (exec_reach .handoverReleaseTimeout s).next (handoverReleaseTimeout_fails hh hp) ⟨rfl, s.releaseFails_handover h⟩
  · intro s x h
    exact (exec_reach (.leaseTakeoverGrant x) s).next (leaseTakeoverGrant_active h) ⟨s.holdLease_regsBut x, s.rd_holdLease_held x, rfl⟩
  · intro s x h ht
    exact (exec_reach (.leaseTakeoverGrant x) s).next (leaseTakeoverGrant_notAsked h ht) rfl
  · intro s x h ht
    exact (exec_reach (.leaseTakeoverGrant x) s).next (leaseTakeoverGrant_cold h ht) rfl
  · intro s x h ht
    exact (exec_reach (.leaseTakeoverGrant x) s).next (leaseTakeoverGrant_standby h ht) (s.takeover_effect x _ rfl)

end Sys2Proof.Machine
end

section
/-! Faults and the Jig, and O58 (R360, R361, R363 to R367, R371, R375, R376, R380, R381). TIMEOUT_S of 0 and the check at which the Jig fires are log
entry 88, the default for a choice that is not allowed log entry 87. -/

namespace Sys2Proof.Machine

/-! ### The fault collector of a device -/

section
variable (s : State) (d : Site)

@[simp] theorem State.fltS_setFlt (f : FltSt → FltSt) : (s.setFlt d f).fltS d = f (s.fltS d) := by cases d <;> rfl

@[simp] theorem State.rdS_setFlt (f : FltSt → FltSt) (g : Fld) : (s.setFlt d f).rdS d g = s.rdS d g := by cases d <;> rfl

@[simp] theorem State.fltS_wrS (e : Site) (f : Fld) (v : Nat) : (s.wrS d f v).fltS e = s.fltS e := by cases d <;> cases e <;> rfl

@[simp] theorem State.fltS_bumpS (e : Site) (f : Fld) (n : Nat) : (s.bumpS d f n).fltS e = s.fltS e := s.fltS_wrS d e f _

theorem State.setFlt_frame (f : FltSt → FltSt) : Within [.flt, .agFlt] s (s.setFlt d f) := State.setFlt_within (by decide) (by decide) d f (.refl _ s)

end

/-! ### DETECTOR_EVENT (R360, R375) -/

section
variable {s : State} {d : Site} {x : Nat}

theorem detectorEvent_notOwn (p v : Nat) (c : Option Nat) (h : srcFid x ≠ s.fidS d) : exec (.detectorEvent d x p v c) s = .next s :=
  congrArg Host.Outcome.next (if_pos (.inl h))

/-- The Jig fires at a point where an injection is live only. -/
theorem State.jigFire_idle (h : tget (s.fltS d).jigChecks (srcPage x / 4096) = 0) : s.jigFire d x = (false, s) := by
  unfold State.jigFire
  exact if_pos (.inl h)

theorem detectorEvent_detects (p v : Nat) (c : Option Nat) (hf : srcFid x = s.fidS d) (hi : (detInitial d (srcFam x) (srcDet x)).isSome = true)
    (hj : tget (s.fltS d).jigChecks (srcPage x / 4096) = 0) : exec (.detectorEvent d x p v c) s = .next (s.detectAt d x p v c false) := by
  have hown : ¬(srcFid x ≠ s.fidS d ∨ (detInitial d (srcFam x) (srcDet x)).isNone = true) := by
    obtain ⟨i, hi⟩ := Option.isSome_iff_exists.1 hi
    simp [hf, hi]
  refine congrArg Host.Outcome.next ((if_neg hown).trans ?_)
  rw [State.jigFire_idle hj]
  rfl

/-- A detection waits for its decision (R360, R364). -/
theorem State.detectAt_waiting (s : State) (p v : Nat) (c : Option Nat) (b : Bool) (hi : (detInitial d (srcFam x) (srcDet x)).isSome = true) :
    ((s.detectAt d x p v c b).fltS d).waiting.length = (s.fltS d).waiting.length + 1 := by
  obtain ⟨i, hi⟩ := Option.isSome_iff_exists.1 hi
  unfold State.detectAt
  rw [hi]
  dsimp only
  split <;> rw [State.fltS_setFlt] <;> exact List.length_append

theorem State.detectAt_frame (s : State) (p v : Nat) (c : Option Nat) (b : Bool) : Within [.flt, .agFlt] s (s.detectAt d x p v c b) :=
  State.detectAt_within (by decide) (by decide) d x p v c b (.refl _ s)

end

/-! ### EVENT_DECIDE (R364) -/

section
variable {s : State} {e : Event}

/-- Without an event that is due, nothing is decided. -/
theorem eventDecide_none {d : Site} {n : Nat} (h : ((s.fltS d).waiting.all fun e => decide (n < e.arrival)) = true) : exec (.eventDecide d n) s =
    .next (s.setFlt d fun f => { f with waiting := f.waiting.filter fun e => !decide (e.arrival ≤ n) }) := by
  have hdue : ((s.fltS d).waiting.filter fun e => decide (e.arrival ≤ n)) = [] :=
    List.filter_eq_nil_iff.2 fun e he => by simpa using List.all_eq_true.1 h e he
  show execEventDecide d n s = _
  rw [execEventDecide, hdue]
  rfl

theorem eventDecide_one {n : Nat} (h : s.flt.waiting = [e]) (hn : e.arrival ≤ n) : exec (.eventDecide .dz8 n) s =
    .next ((s.setFlt .dz8 fun f => { f with waiting := f.waiting.filter fun e => !decide (e.arrival ≤ n) }).record .dz8 e) := by
  have hdue : ((s.fltS .dz8).waiting.filter fun e => decide (e.arrival ≤ n)) = [e] := by
    rw [State.fltS_dz8, h]
    exact List.filter_eq_self.2 fun a ha => by rw [List.mem_singleton.1 ha]; exact decide_eq_true hn
  show execEventDecide .dz8 n s = _
  rw [execEventDecide, hdue]
  rfl

/-- The state whose next event takes the next serial. -/
def State.serialTaken (s : State) : State := s.setFlt .dz8 fun f => { f with nextSerial := (s.flt.nextSerial + 1) % 2 ^ 32 }

/-- The event is the first fault. -/
def State.firstTaken (s : State) (e : Event) : State := s.setFlt .dz8 fun f => { f with first := some { e with first := true } }

/-- The first fault shows, of level MINOR. -/
def State.firstFault (s : State) (e : Event) : State :=
  (s.serialTaken.firstTaken { e with serial := s.flt.nextSerial }).bump FLT_COUNT_MINOR 1

/-- A MINOR event that no rule answers calls for nothing. -/
theorem State.reactTo_minor (s : State) (hl : e.level = 1) (hm : e.merged = false) (hp : e.promoted = false)
    (hf : srcFam e.source ∉ [4, 0x16, 0x18]) : s.reactTo e = s := by
  simp only [List.mem_cons, List.not_mem_nil, or_false, not_or] at hf
  obtain ⟨h4, h16, h18⟩ := hf
  simp [State.reactTo, hl, hm, hp, h4, h16, h18, FATAL]

/-- Besides its place and its count, a first fault takes a NOTIFY record or none (R363, R374). -/
theorem State.record_firstFault (s : State) (hs : s.flt.first = none) (hl : e.level = 1) (hm : e.merged = false) (hc : e.conseq = false)
    (hp : e.promoted = false) (hf : srcFam e.source ∉ [4, 0x16, 0x18]) :
    s.record .dz8 e = s.firstFault e ∨ ∃ c ws vs, s.record .dz8 e = (s.firstFault e).notifyT 1 c ws vs := by
  have hplace : (s.flt.first.isNone && decide (MINOR ≤ e.level) && !e.merged) = true := by simp [hs, hl, hm, MINOR]
  have hcount : countFld e.level = FLT_COUNT_MINOR := by rw [hl]; rfl
  have hreact (u : State) (n : Nat) : u.reactTo { e with serial := n } = u := u.reactTo_minor hl hm hp hf
  unfold State.record
  extract_lets f e' s₁ s₂ s₃ masked s₄ s₅
  have h₂ : s₂ = s.serialTaken.firstTaken { e with serial := s.flt.nextSerial } := if_pos hplace
  have h₃ : s₃ = s.firstFault e := by
    show (if e'.conseq then _ else _) = _
    rw [if_neg (by rw [hc]; exact Bool.false_ne_true), if_neg (by rw [hm]; exact Bool.false_ne_true), h₂, hcount]
    rfl
  dsimp only
  rw [hreact]
  by_cases hn : (decide (MINOR ≤ e'.level) && !e'.merged && !masked) = true
  · have h₄ : s₄ = s₃.notifyT 1 (e'.ctx.getD 0xFF) e'.words e'.tenantWords := if_pos hn
    exact .inr ⟨_, _, _, h₃ ▸ h₄⟩
  · exact .inl ((if_neg hn).trans h₃)

theorem State.firstFault_flt (s : State) (e : Event) : (s.firstFault e).flt =
    { s.flt with nextSerial := (s.flt.nextSerial + 1) % 2 ^ 32, first := some { e with serial := s.flt.nextSerial, first := true } } := rfl

theorem State.firstFault_regsBut (s : State) (e : Event) : RegsBut [FLT_COUNT_MINOR] s (s.firstFault e) := by
  have h : RegsBut [FLT_COUNT_MINOR] s (s.serialTaken.firstTaken { e with serial := s.flt.nextSerial }) := .of_regs rfl
  exact h.bump (List.mem_singleton_self _) 1

theorem State.rd_firstFault (s : State) (e : Event) :
    (s.firstFault e).rd FLT_COUNT_MINOR = (s.rd FLT_COUNT_MINOR + 1) % 2 ^ FLT_COUNT_MINOR.w :=
  State.rd_bump_same (s.serialTaken.firstTaken { e with serial := s.flt.nextSerial }) FLT_COUNT_MINOR 1

theorem State.record_effect (s : State) (hs : s.flt.first = none) (hl : e.level = 1) (hm : e.merged = false) (hc : e.conseq = false)
    (hp : e.promoted = false) (hf : srcFam e.source ∉ [4, 0x16, 0x18]) : (s.record .dz8 e).flt = (s.firstFault e).flt ∧
    (s.record .dz8 e).rd FLT_COUNT_MINOR = (s.rd FLT_COUNT_MINOR + 1) % 2 ^ FLT_COUNT_MINOR.w ∧
    RegsBut [FLT_COUNT_MINOR, BYJ_NOTIFY_LOST] s (s.record .dz8 e) := by
  have hfault := (s.firstFault_regsBut e).mono (gs := [FLT_COUNT_MINOR, BYJ_NOTIFY_LOST]) (by simp)
  rcases s.record_firstFault hs hl hm hc hp hf with h | ⟨c, ws, vs, h⟩ <;> rw [h]
  · exact ⟨rfl, s.rd_firstFault e, hfault⟩
  · have hnotify : RegsBut [BYJ_NOTIFY_LOST] (s.firstFault e) ((s.firstFault e).notifyT 1 c ws vs) := State.queueFor_regsBut _ _ _
    exact ⟨rfl, (hnotify _ (by decide)).trans (s.rd_firstFault e), hfault.trans (hnotify.mono (by simp))⟩

end

/-! ### The host's decisions, and the end of a window (R367, R371) -/

section
variable {s : State} {d : Decision} {l : List Decision}

/-- The first decision runs a reaction. -/
def State.decided (s : State) (d : Decision) (l : List Decision) (kind : Nat) : State :=
  ((s.setFlt .dz8 fun f => { f with decisions := l }).showDecision).runReaction d.serial d.source kind 0

theorem State.decide1_none (n : Option Nat) (h : s.flt.decisions = []) : s.decide1 n = s := by rw [State.decide1, h]

theorem State.decide1_choice (n : Nat) (h : s.flt.decisions = d :: l) : s.decide1 (some n) = s.decided d l (if bit d.allowed n then n else d.default) := by
  rw [State.decide1, h]
  rfl

theorem State.decide1_default (h : s.flt.decisions = d :: l) : s.decide1 none = s.decided d l d.default := by
  rw [State.decide1, h]
  rfl

end

/-! ### Clearing (R361, R380, R381) -/

section
variable (s : State) (d : Site) (pg m : Nat)

/-- A write of 1s to PG_FAULT.RAISED clears the source. -/
def State.clears (r : Src) : Bool :=
  r.raised && r.source / 32 == sourceOf (s.fidS d) pg 0 / 32 && bit m (srcDet r.source) && decide (r.level < FATAL) &&
    !detSecurity d (srcFam r.source) (srcDet r.source)

/-- The source after that write. -/
def State.clearSrc (r : Src) : Src :=
  if s.clears d pg m r then { r with level := (detInitial d (srcFam r.source) (srcDet r.source)).getD r.level, count := 0, raised := false } else r

theorem State.fltS_clearFaults : (s.clearFaults d pg m).fltS d = { s.fltS d with srcs := (s.fltS d).srcs.map (s.clearSrc d pg m) } :=
  State.fltS_setFlt ..

theorem State.clearSrc_source (r : Src) : (s.clearSrc d pg m r).source = r.source := by
  unfold State.clearSrc
  split <;> rfl

variable {s d pg m}

/-- A source that is FATAL, or that a security detector has, stays (R361). -/
theorem State.clearSrc_stays {r : Src} (h : r.level = 3 ∨ detSecurity d (srcFam r.source) (srcDet r.source) = true) : s.clearSrc d pg m r = r := by
  refine if_neg ?_
  rcases h with h | h <;> simp [State.clears, h, FATAL]

theorem State.clearSrc_clears {r : Src} (hs : r.source / 32 = sourceOf (s.fidS d) pg 0 / 32) (hb : bit m (srcDet r.source) = true)
    (hn : detSecurity d (srcFam r.source) (srcDet r.source) = false) (hl : (s.clearSrc d pg m r).level < 3) : (s.clearSrc d pg m r).raised = false := by
  unfold State.clearSrc at hl ⊢
  by_cases hc : s.clears d pg m r = true
  · rw [if_pos hc]
  · rw [if_neg hc] at hl ⊢
    by_contra hr
    exact hc (by simp [State.clears, hs, hb, hn, FATAL, hl, Bool.of_not_eq_false hr])

/-- What the write leaves raised of the sources it names. -/
theorem State.clearFaults_lowers {r : Src} (hr : r ∈ (s.fltS d).srcs.map (s.clearSrc d pg m)) (hs : r.source / 32 = sourceOf (s.fidS d) pg 0 / 32)
    (hb : bit m (srcDet r.source) = true) (hl : r.level < 3) (hn : detSecurity d (srcFam r.source) (srcDet r.source) = false) : r.raised = false := by
  obtain ⟨r₀, -, rfl⟩ := List.mem_map.1 hr
  rw [State.clearSrc_source] at hs hb hn
  exact State.clearSrc_clears hs hb hn hl

end

section
variable (s : State)

/-- A dead-letter ring is emptied. -/
def State.dllGone (die : Nat) : State := s.setFlt .dz8 fun f => if die = 0 then { f with dll0 := [] } else { f with dll1 := [] }

theorem State.clearDll_eq (die : Nat) : s.clearDll .dz8 die =
    ((s.dllGone die).wr (FLT_DLL_HEAD_HEAD (dllPage die)) 0).wr (FLT_DLL_HEAD_WRAPPED (dllPage die)) 0 := rfl

theorem State.dllGone_regs (die : Nat) : (s.dllGone die).regs = s.regs := rfl

theorem State.clearDll_flt (die : Nat) : (s.clearDll .dz8 die).flt = if die = 0 then { s.flt with dll0 := [] } else { s.flt with dll1 := [] } := rfl

theorem State.clearDll_regsBut (die : Nat) :
    RegsBut [FLT_DLL_HEAD_HEAD (dllPage die), FLT_DLL_HEAD_WRAPPED (dllPage die)] s (s.clearDll .dz8 die) := by
  rw [State.clearDll_eq]
  exact ((RegsBut.of_regs (s.dllGone_regs die)).wr (f := FLT_DLL_HEAD_HEAD (dllPage die)) (by simp) 0).wr (f := FLT_DLL_HEAD_WRAPPED (dllPage die)) (by simp) 0

theorem State.rd_clearDll (die : Nat) : (s.clearDll .dz8 die).rd (FLT_DLL_HEAD_HEAD (dllPage die)) = 0 := by
  have hne : (FLT_DLL_HEAD_HEAD (dllPage die)).key ≠ (FLT_DLL_HEAD_WRAPPED (dllPage die)).key := by
    simp [Fld.key, FLT_DLL_HEAD_HEAD, FLT_DLL_HEAD_WRAPPED]
  rw [State.clearDll_eq, State.rd_wr_other _ hne, State.rd_wr_same]
  rfl

end

/-! ### The Jig (R375, R376) -/

section
variable (s : State) (d : Site)

/-- The entry is not of a PG_JIG.MODE. -/
def notJigMode (e : Nat × Nat) : Bool := !(e.1 / 64 % 2 ^ 12 == 0x28 && e.1 % 64 == 2)

/-- Every PG_JIG of the device is of MODE 0. -/
def State.jigBlank (d : Site) : State :=
  match d with
  | .dz8 => { s with regs := s.regs.filter notJigMode }
  | .agent => { s with aregs := s.aregs.filter notJigMode }

theorem State.jigOff_eq : s.jigOff d = ((s.wrS d JIG_ARM_ARM 0).setFlt d fun f => { f with jigChecks := [] }).jigBlank d := by cases d <;> rfl

theorem State.rdS_jigBlank_mode (k : Nat) : (s.jigBlank d).rdS d (PG_JIG_MODE (4096 * k)) = 0 := by
  have hgone (v : Nat) : notJigMode ((PG_JIG_MODE (4096 * k)).key, v) = false := by
    have haddr : ((4096 * k + 0x28) * 64 + 2) / 64 % 4096 = 0x28 := by omega
    have hlo : ((4096 * k + 0x28) * 64 + 2) % 64 = 2 := by omega
    simp [notJigMode, Fld.key, PG_JIG_MODE, haddr, hlo]
  cases d <;> exact kget_filter_gone _ hgone 0

theorem State.rdS_jigBlank_arm : (s.jigBlank d).rdS d JIG_ARM_ARM = s.rdS d JIG_ARM_ARM := by
  have hkept (v : Nat) : notJigMode (JIG_ARM_ARM.key, v) = true := by simp [notJigMode, Fld.key, JIG_ARM_ARM]
  cases d <;> exact kget_filter_kept _ hkept 0

theorem State.fltS_jigBlank : (s.jigBlank d).fltS d = s.fltS d := by cases d <;> rfl

/-- ARM clears, and with it every injection (R376). -/
theorem State.jigOff_effect : (s.jigOff d).rdS d JIG_ARM_ARM = 0 ∧ ((s.jigOff d).fltS d).jigChecks = [] ∧
    ∀ k, (s.jigOff d).rdS d (PG_JIG_MODE (4096 * k)) = 0 := by
  rw [State.jigOff_eq]
  refine ⟨?_, ?_, fun k => State.rdS_jigBlank_mode ..⟩
  · rw [State.rdS_jigBlank_arm, State.rdS_setFlt, State.rdS_wrS_same]
    rfl
  · rw [State.fltS_jigBlank, State.fltS_setFlt]

theorem State.jigOff_frame : Within [.regs, .aregs, .flt, .agFlt] s (s.jigOff d) :=
  State.jigOff_within (by decide) (by decide) (by decide) (by decide) d (.refl _ s)

/-- A TIMEOUT_S in range is taken. -/
def State.jigTimed (v : Nat) : State := if bits v 23 8 = 0 then s else s.wrS d JIG_ARM_TIMEOUT_S (bits v 23 8)

theorem State.jigTimed_frame (v : Nat) : Within [.regs, .aregs] s (s.jigTimed d v) := by
  unfold State.jigTimed
  split
  · exact .refl _ s
  · exact State.wrS_within (by decide) (by decide) _ _ _ (.refl _ s)

theorem State.rdS_jigTimed (v : Nat) :
    (s.jigTimed d v).rdS d JIG_ARM_TIMEOUT_S = if bits v 23 8 = 0 then s.rdS d JIG_ARM_TIMEOUT_S else bits v 23 8 := by
  have hlt : bits v 23 8 < 2 ^ 16 := Nat.mod_lt _ (by decide)
  unfold State.jigTimed
  split
  · rfl
  · exact (State.rdS_wrS_same ..).trans (Nat.mod_eq_of_lt hlt)

variable {s d}

theorem jigArmWrite_arms {v : Word} (h : bit v.toNat 0 = true) :
    exec (.jigArmWrite d v) s = .next ((s.jigTimed d v.toNat).wrS d JIG_ARM_ARM 1) := congrArg Host.Outcome.next (if_pos h)

theorem jigArmWrite_disarms {v : Word} (h : bit v.toNat 0 = false) : exec (.jigArmWrite d v) s = .next ((s.jigTimed d v.toNat).jigOff d) :=
  congrArg Host.Outcome.next (if_neg (by rw [h]; exact Bool.false_ne_true))

theorem jigArmTimeout_disarms (h : s.rdS d JIG_ARM_ARM = 1) : exec (.jigArmTimeout d) s = .next (s.jigOff d) := congrArg Host.Outcome.next (if_pos h)

theorem jigArmTimeout_idle (h : s.rdS d JIG_ARM_ARM = 0) : exec (.jigArmTimeout d) s = .next s :=
  congrArg Host.Outcome.next (if_neg (by rw [h]; decide))

variable {p : Nat}

/-- The GO of a PG_JIG is refused and counted. -/
def State.jigRefused (s : State) (d : Site) (p why : Nat) : State :=
  (((s.wrS d (PG_JIG_REFUSED p) 1).bumpS d JIG_STAT_REFUSED 1).wrS d JIG_LAST_REASON why).wrS d JIG_LAST_SOURCE
    (sourceOf (s.fidS d) p (s.rdS d (PG_JIG_DET p)))

theorem pgJigGo_idle (h : s.rdS d (PG_JIG_MODE p) = 0) : exec (.pgJigGo d p) s = .next s := congrArg Host.Outcome.next (if_pos h)

theorem pgJigGo_unarmed (h : s.rdS d (PG_JIG_MODE p) ≠ 0) (ha : s.rdS d JIG_ARM_ARM = 0) :
    exec (.pgJigGo d p) s = .next (s.jigRefused d p 1) := by
  refine congrArg Host.Outcome.next ((if_neg h).trans ?_)
  dsimp only
  rw [firstCode, List.find?_cons_of_pos (by simp [ha])]
  rfl

theorem pgJigGo_live (h : s.rdS d (PG_JIG_MODE p) ≠ 0) (ha : s.rdS d JIG_ARM_ARM = 1)
    (hs : (detSecurity d (srcFam (sourceOf (s.fidS d) p (s.rdS d (PG_JIG_DET p)))) (s.rdS d (PG_JIG_DET p)) && s.isSealed d) = false)
    (hi : (detInitial d (srcFam (sourceOf (s.fidS d) p (s.rdS d (PG_JIG_DET p)))) (s.rdS d (PG_JIG_DET p))).isSome = true) :
    exec (.pgJigGo d p) s = .next (s.setFlt d fun f => { f with jigChecks := tset f.jigChecks (p / 4096) 1 }) := by
  obtain ⟨i, hi⟩ := Option.isSome_iff_exists.1 hi
  refine congrArg Host.Outcome.next ((if_neg h).trans ?_)
  dsimp only
  rw [firstCode, List.find?_cons_of_neg (by simp [ha]), List.find?_cons_of_neg (by rw [hs]; exact Bool.false_ne_true),
    List.find?_cons_of_neg (by rw [hi]; exact Bool.false_ne_true)]
  rfl

theorem State.rdS_jigRefused : (s.jigRefused d p 1).rdS d JIG_LAST_REASON = 1 := by
  rw [State.jigRefused, State.rdS_wrS_other _ _ (by decide), State.rdS_wrS_same]
  rfl

theorem State.fltS_jigRefused : (s.jigRefused d p 1).fltS d = s.fltS d := by
  rw [State.jigRefused, State.fltS_wrS, State.fltS_wrS, State.fltS_bumpS, State.fltS_wrS]

end

/-- Settles O58: each case is the effect of its command, within the parts of its row (`exec_reach`). TIMEOUT_S of 0 and the check at which the Jig fires
are log entry 88, the default for a choice that is not allowed log entry 87. -/
theorem faultsAndTheJig : Obligations.FaultsAndTheJig := by
  unfold Obligations.FaultsAndTheJig
  refine ⟨?_, ?_, ?_, ?_, ?_, ?_, ?_, ?_, ?_, ?_, ?_, ?_, ?_, ?_, ?_, ?_, ?_, ?_, ?_, ?_, ?_, ?_, ?_⟩
  · intro s d x p v c h
    exact (exec_reach (.detectorEvent d x p v c) s).next (detectorEvent_notOwn p v c h) rfl
  · intro s d x p v c hf hi hj
    have w := s.detectAt_frame (d := d) (x := x) p v c false
    exact (exec_reach (.detectorEvent d x p v c) s).next (detectorEvent_detects p v c hf hi hj)
      ⟨rfl, s.detectAt_waiting p v c false hi, w.regs_eq (by decide), w.aregs_eq (by decide)⟩
  · intro s d n h
    have w := s.setFlt_frame d fun f => { f with waiting := f.waiting.filter fun e => !decide (e.arrival ≤ n) }
    refine (exec_reach (.eventDecide d n) s).next (eventDecide_none h) ⟨?_, ?_, w.regs_eq (by decide), w.aregs_eq (by decide), w.out_eq (by decide)⟩
      <;> rw [State.fltS_setFlt]
    exact List.filter_eq_self.2 fun e he => by simpa using List.all_eq_true.1 h e he
  · intro s n e hw hn hs hl hm hc hp hf
    set u := s.setFlt .dz8 fun f => { f with waiting := f.waiting.filter fun e => !decide (e.arrival ≤ n) } with hu
    have hwait : u.flt.waiting = [] := by
      show s.flt.waiting.filter _ = []
      rw [hw]
      exact List.filter_eq_nil_iff.2 fun a ha => by rw [List.mem_singleton.1 ha]; simpa using hn
    obtain ⟨hflt, hcount, hregs⟩ := u.record_effect hs hl hm hc hp hf
    have hsame : RegsBut [FLT_COUNT_MINOR, BYJ_NOTIFY_LOST] s u := .of_regs rfl
    rw [State.firstFault_flt] at hflt
    refine (exec_reach (.eventDecide .dz8 n) s).next (eventDecide_one hw hn) ⟨?_, ?_, ?_, ?_, hcount, hsame.trans hregs⟩ <;> rw [← hu, hflt]
    · rfl
    · rfl
    · exact hwait
    · rfl
  · intro s n h
    exact (exec_reach (.fltChoice n) s).next (congrArg Host.Outcome.next (State.decide1_none (some n) h)) rfl
  · intro s n d l h hb
    refine (exec_reach (.fltChoice n) s).next (congrArg Host.Outcome.next (State.decide1_choice n h)) ?_
    rw [if_pos hb]
    rfl
  · intro s n d l h hb
    refine (exec_reach (.fltChoice n) s).next (congrArg Host.Outcome.next (State.decide1_choice n h)) ?_
    rw [if_neg (by rw [hb]; exact Bool.false_ne_true)]
    rfl
  · intro s d l h
    exact (exec_reach .policyWaitExpiry s).next (congrArg Host.Outcome.next (State.decide1_default h)) rfl
  · intro s h
    exact (exec_reach .policyWaitExpiry s).next (congrArg Host.Outcome.next (State.decide1_none none h)) rfl
  · intro s n h
    exact (exec_reach (.reactionWindowEnd n) s).next (congrArg Host.Outcome.next (if_pos h)) ⟨rfl, rfl⟩
  · intro s n h
    exact (exec_reach (.reactionWindowEnd n) s).next (congrArg Host.Outcome.next (if_neg (by rw [h]; exact Bool.false_ne_true))) ⟨rfl, rfl⟩
  · intro s d p m
    have w : Within [.flt, .agFlt] s (s.clearFaults d p m.toNat) := State.clearFaults_within (by decide) (by decide) d p _ (.refl _ s)
    refine (exec_reach (.pgFaultClear d p m) s).next rfl ⟨?_, ?_, ?_, ?_, w.regs_eq (by decide)⟩ <;> rw [State.fltS_clearFaults]
    · exact fun r hr h => List.mem_map.2 ⟨r, hr, State.clearSrc_stays h⟩
    · exact fun r hr hs hb hl hn => State.clearFaults_lowers hr hs hb hl hn
    · simp [State.clearSrc_source]
  · intro s d
    have w : Within [.flt, .agFlt] s (s.clearFirst d) := s.setFlt_frame d _
    exact (exec_reach (.fltClearFirst d) s).next rfl ⟨s.fltS_setFlt d _, w.regs_eq (by decide), w.aregs_eq (by decide)⟩
  · intro s d
    refine (exec_reach (.fltClearLog d) s).next rfl ⟨?_, ?_⟩ <;> rw [State.clearLog]
    · rw [State.fltS_wrS, State.fltS_setFlt]
    · rw [State.rdS_wrS_same]
      rfl
  · intro s d h
    have hexec : exec (.fltDllClear d) s = .next (s.clearDll .dz8 d) := congrArg Host.Outcome.next (if_pos h)
    refine (exec_reach (.fltDllClear d) s).next hexec ⟨?_, ?_, s.clearDll_regsBut d, s.rd_clearDll d⟩ <;> rw [State.clearDll_flt] <;> split <;> rfl
  · intro s d h
    exact (exec_reach (.fltDllClear d) s).next (congrArg Host.Outcome.next (if_neg (Nat.not_lt.2 h))) rfl
  · intro s d v h
    have w : Within [.regs, .aregs] s ((s.jigTimed d v.toNat).wrS d JIG_ARM_ARM 1) :=
      State.wrS_within (by decide) (by decide) _ _ _ (s.jigTimed_frame d v.toNat)
    refine (exec_reach (.jigArmWrite d v) s).next (jigArmWrite_arms h) ⟨?_, ?_, w.flt_eq (by decide), w.agFlt_eq (by decide)⟩
    · rw [State.rdS_wrS_same]
      rfl
    · rw [State.rdS_wrS_other _ _ (by decide), State.rdS_jigTimed]
  · intro s d v h
    obtain ⟨harm, hchecks, hmode⟩ := (s.jigTimed d v.toNat).jigOff_effect d
    have hout : ((s.jigTimed d v.toNat).jigOff d).out = s.out :=
      (((s.jigTimed d v.toNat).jigOff_frame d).out_eq (by decide)).trans ((s.jigTimed_frame d v.toNat).out_eq (by decide))
    exact (exec_reach (.jigArmWrite d v) s).next (jigArmWrite_disarms h) ⟨harm, hchecks, hmode, hout⟩
  · intro s d h
    obtain ⟨harm, hchecks, hmode⟩ := s.jigOff_effect d
    exact (exec_reach (.jigArmTimeout d) s).next (jigArmTimeout_disarms h) ⟨harm, hchecks, hmode, (s.jigOff_frame d).out_eq (by decide)⟩
  · intro s d h
    exact (exec_reach (.jigArmTimeout d) s).next (jigArmTimeout_idle h) rfl
  · intro s d p h
    exact (exec_reach (.pgJigGo d p) s).next (pgJigGo_idle h) rfl
  · intro s d p h ha
    have w : Within [.regs, .aregs] s (s.jigRefused d p 1) := State.wrS_within (by decide) (by decide) _ _ _ (State.wrS_within (by decide) (by decide) _ _ _
      (State.bumpS_within (by decide) (by decide) _ _ _ (State.wrS_within (by decide) (by decide) _ _ _ (.refl _ s))))
    exact (exec_reach (.pgJigGo d p) s).next (pgJigGo_unarmed h ha) ⟨State.rdS_jigRefused, State.fltS_jigRefused, w.out_eq (by decide)⟩
  · intro s d p h ha hs hi
    have w := s.setFlt_frame d fun f => { f with jigChecks := tset f.jigChecks (p / 4096) 1 }
    exact (exec_reach (.pgJigGo d p) s).next (pgJigGo_live h ha hs hi)
      ⟨congrArg FltSt.jigChecks (s.fltS_setFlt d _), w.regs_eq (by decide), w.aregs_eq (by decide)⟩

end Sys2Proof.Machine
end
